-- ==== Sys2Proof/Word.lean ====
section
/-!
DEFINITION. The word types of the block and the canonical key maps that hold its sparse state.
-/

namespace Sys2Proof

/-- One byte. -/
abbrev Byte := BitVec 8

/-- A 32-bit register word. -/
abbrev Word := BitVec 32

/-- Sparse data by key: keys strictly rising, no entry equal to what an unlisted key reads as. -/
abbrev KMap (α : Type) := List (Nat × α)

/-- The value at a key; `d k` for an unlisted key. -/
def KMap.get {α : Type} (d : Nat → α) : KMap α → Nat → α
  | [], k => d k
  | (j, v) :: m, k => if j = k then v else KMap.get d m k

/-- Places an entry before the first larger key. -/
def KMap.ins {α : Type} (k : Nat) (v : α) : KMap α → KMap α
  | [] => [(k, v)]
  | (j, w) :: m => if k < j then (k, v) :: (j, w) :: m else (j, w) :: KMap.ins k v m

/-- Sets the value at a key; writing what an unlisted key reads as removes the entry. -/
def KMap.put {α : Type} [DecidableEq α] (d : Nat → α) (m : KMap α) (k : Nat) (v : α) : KMap α :=
  if v = d k then m.filter (fun e => e.1 != k) else KMap.ins k v (m.filter (fun e => e.1 != k))

/-- The keys are strictly rising, all above `lo` when one is given. -/
def KMap.rising {α : Type} : Option Nat → KMap α → Bool
  | _, [] => true
  | lo, (j, _) :: m => (match lo with | none => true | some l => decide (l < j)) && KMap.rising (some j) m

/-- The canonical form of a key map. -/
def KMap.wf {α : Type} [DecidableEq α] (d : Nat → α) (m : KMap α) : Bool :=
  KMap.rising none m && m.all (fun e => decide (e.2 ≠ d e.1))

end Sys2Proof
end

