-- ==== Sys2Proof/Config.lean ====
section
/-!
DEFINITION. What one device fixes and the spec leaves open: constants without a body.
-/

namespace Sys2Proof

/-- The temperature grade of the part: true for -I, false for -E (R469, TEMP_HOT). -/
opaque Config.gradeI : Bool

/-- Reset of `MGT.TEMP_HOT.C` by grade (R469). -/
def Config.tempHotReset : Nat := if Config.gradeI then 0x6e else 0x64

/-- The reading above which the thermal trip acts, in 1/16 °C: the maximum junction temperature of the grade plus 5 °C
(R2, R494). -/
def Config.tripReading : Int := if Config.gradeI then 1920 else 1760

/-- The device serial number (R56, R461). -/
opaque Config.serial : Nat

/-- The fused 24-bit OUI, first byte in the top bits (R86). -/
opaque Config.oui : Nat

/-- The fused default codes of each Caliper target, as a codes word (R467). -/
opaque Config.calDefault : Nat → Nat

/-- The die identity that the mailbox returns (R461). -/
opaque Config.dieId : Nat

/-- The firmware version of an image's MGMT section, by its first word of code (R469). -/
opaque Config.fwVersion : Nat → Nat

/-- The free values of the model: value `n` is whatever the hardware produces where the spec leaves a value
open; nothing in Lean can see it. Each use reads the next index of `Dev.free`. -/
opaque Config.free : Nat → Nat

/-- The data that come with a poisoned or failed DRAM response, by physical key: free values (R370, R372). -/
opaque Config.poisonByte : Nat → BitVec 8

/-- The period of the trimmed RC oscillator in units of 2^-16 ns: R64 gives it as about 30,518 ns within
±0.5 %, and `Config.rcPeriod` keeps that limit. -/
opaque Config.rcRaw : Nat

/-- The RC period, held within ±0.5 % of 30,518 ns (R64). -/
def Config.rcPeriod : Nat := 30518 * 65536 - 10000000 + Config.rcRaw % 20000001

end Sys2Proof
end

