-- ==== Sys2Proof/Syntax.lean ====
section
/-!
DEFINITION. The commands of the block: one constructor for each row of the spec's table of operations and
events, with the operands that the outside world brings.
-/

namespace Sys2Proof

/-- A 66-bit block of a serial lane (R94): sync header (bit 0 sent first) and payload, byte k in bits [8k+7:8k]. -/
structure Blk where
  hdr : BitVec 2
  body : BitVec 64
deriving DecidableEq, Repr

/-- What one sample of the encoder inputs shows: an accepted edge up or down, or A and B changing together. -/
inductive EncMove where
  | up | down | illegal
deriving DecidableEq, Repr

/-- An edge at the encoder inputs: its move, and for how many nanoseconds the inputs then stay as they are (R76). -/
structure EncEdge where
  move : EncMove
  stable : Nat
deriving DecidableEq, Repr

/-- An edge at an event input: its direction, and for how many nanoseconds the input then stays (R82). -/
structure PinEdge where
  rising : Bool
  stable : Nat
deriving DecidableEq, Repr

/-- Whether the CRC of the first record that the selector takes in one clock holds, and that of a second (R279). -/
structure RecCrcs where
  first : Bool
  second : Bool
deriving DecidableEq, Repr

/-- Which request of a channel a response answers: its present one, or one of the host or of DRAM that is no longer
awaited (R43). -/
inductive RespOf where
  | present | lateHost | lateDram
deriving DecidableEq, Repr

/-- What answers a descriptor: which request it answers, and the bytes of a host read (R43, R391). -/
structure HostResp where
  answers : RespOf
  bytes : List Byte
deriving DecidableEq, Repr

/-- A unit whose tables stand in two banks: a lathe context, fusion, the classifier, the verdict unit. -/
inductive TblUnit where
  | lth (n : Fin 8) (c : Fin 3) | fus | cls | vrd
deriving DecidableEq, Repr

/-- A place in the SRAMs of the verdict unit (R353): a table entry of a bank, a place of the pending table, a place
of a pin's queue. -/
inductive VrdSram where
  | table (active : Bool) (t i : Nat) | pending (i : Nat) | pin (i j : Nat)
deriving DecidableEq, Repr

/-- A place in the SRAMs of the merge unit and collector: a set of the node table or edge map, a record of the merge
input or output FIFO, or of a gouge's output FIFO (R291). -/
inductive MrgSram where
  | set (k : Nat) | input (i : Nat) | output (i : Nat) | gouge (g : Fin 136) (i : Nat)
deriving DecidableEq, Repr

/-- A place in the Carver's SRAMs (R317). -/
inductive CrvSram where
  | weights (net : Nat)
  | patch (i : Nat)
  | queue (i : Nat)
deriving DecidableEq, Repr

/-- Where a DMA error response arises (R394). -/
inductive DmaErr where
  | source | destination | fetch | late
deriving DecidableEq, Repr

/-- What the ECC finds in a DRAM burst (R372): nothing, an error that it corrects, or one that it does not. -/
inductive DramErr where
  | clean | corrected | uncorrectable (syn : BitVec 16)
deriving DecidableEq, Repr

/-- Which NVM devices fail the access of a command: a failed write verification, a CRC failure or an xSPI error
(R439). -/
structure NvmIo where
  a : Bool := false
  b : Bool := false
deriving DecidableEq, Repr

/-- Where an SRAM word found in error stands, by the unit that owns it and what the word holds (R436). -/
inductive SramAt where
  | gouge (g : Fin 136)
  | lathe (n : Fin 8)
  | fusion (view : Fin 48) (lsn : BitVec 32) (first len : Nat)
  | classifier (first count : Nat)
  | fusionTable (key : Nat)
  | fusionHeld (view : Fin 48) (first len : Nat)
  | merge (w : MrgSram)
  | carver (w : CrvSram)
  | verdict (w : VrdSram)
  | elsewhere
deriving DecidableEq, Repr

/-- An SRAM word found in error: block code, instance, SRAM array and row, and where the word stands when the ECC cannot correct it. -/
structure SramHit where
  block : Fin 22
  inst : Nat
  arr : BitVec 16
  row : BitVec 16
  lost : Option SramAt
deriving DecidableEq, Repr

/-- A T field that the scrub finds in disagreement: BAR0 address, and whether all three copies differ (R39). -/
structure THit where
  addr : BitVec 25
  lost : Bool
deriving DecidableEq, Repr

/-- What the PMBus answers for one rail in one millisecond: READ_POUT unless all three tries fail, and the other
readings of the rotation (R451, R452). -/
structure RailRead where
  rail : Fin 8
  pout : Option (BitVec 16)
  fails : Nat := 0
  vin : Option (BitVec 16) := none
  vout : Option (BitVec 16) := none
  iout : Option (BitVec 16) := none
  temp : Option (BitVec 16) := none
  mode : Option (BitVec 8) := none
deriving DecidableEq, Repr

/-- What a start-up or a rebase finds outside the logic: running reference inputs, failing NVM accesses, the RC trim
that it reaches, the current through CAL_RES and the codes measured, failing DRAM training steps and hPPR repairs,
the nanoseconds that it takes, and whether the nodes acknowledge the cancels of a rebase. -/
structure BootEnv where
  refA : Bool := true
  refB : Bool := false
  nvm : NvmIo := {}
  trim : BitVec 8 := 0x80#8
  res : BitVec 16 := 25000#16
  codes : List (List Int) := []
  trainFails : List (Nat × Nat) := []
  hpprFails : List (Nat × Nat) := []
  ns : BitVec 32 := 0#32
  acked : Bool := true
deriving DecidableEq, Repr

/-- A configuration request of the host: a read, a write that sets or clears Bus Master Enable, MSI-X Enable and
Function Mask, PTM Enable, or the payload sizes of Device Control as their codes, or a write of anything else (R475). -/
inductive CfgReq where
  | read (off : BitVec 12)
  | busMaster (on : Bool)
  | msix (enable mask : Bool)
  | ptm (on : Bool)
  | devCtl (mps mrrs : Fin 6)
  | other (off : BitVec 12)
deriving DecidableEq, Repr

/-- A command: an access of the host, an event on a pin, a lane, a segment or a timer, or a step of one of
the device's own units, as the spec's table lists them. -/
inductive Instr where
  /-- `PORST_N_ASSERT` (R472): Asserting PORST_N resets every part of the device except PWR.TRIP. -/
  | porstNAssert
  /-- `START_UP` (R473): Release of PORST_N runs the start-up steps from AON start to RUN. -/
  | startUp (env : BootEnv)
  /-- `PERST_N_RELEASE` (R475): The endpoint starts link training and answers configuration requests by start-up progress. -/
  | perstNRelease (env : BootEnv)
  /-- `REBASE` (R486): A TOP.CMD write with REBASE and the right KEY stops the device and starts it again from the image. -/
  | rebase (key : BitVec 16) (env : BootEnv)
  /-- `ARBITER_WINDOW` (R13): At the end of each 2 µs window the arbiter restarts its metering of the yielding users against their grants. -/
  | arbiterWindow
  /-- `RUN_TIME_CLAIM` (R20): A run-time claim on a resource is resolved against its holder by owner class. -/
  | runTimeClaim (ty : Fin 5) (idx : Fin 64) (owner : Fin 15) (free : Bool)
  /-- `REGISTER_WRITE` (R35): A write to a register without a row of its own is applied by its field type and boundary class. -/
  | registerWrite (user : Bool) (addr : BitVec 25) (size : Nat) (value : BitVec 64) (env : BootEnv)
  /-- `RWP_WRITE_LANDS` (R38): A posted write reaches its slow-domain block, and the block's busy flag clears. -/
  | rwpWriteLands (cal : Bool)
  /-- `RSQ_CLEAR` (R40): Writing back the SEQ read clears the RSQ status fields if SEQ still matches. -/
  | rsqClear (addr : BitVec 25) (value : BitVec 32)
  /-- `BLOCK_BOUNDARY` (R37): The first line of a new block reaches a unit, which applies its pending BLOCK fields as one set. -/
  | blockBoundary (block : Fin 22) (inst : Fin 12)
  /-- `T_FIELD_SCRUB` (R39): Every 100 µs all triplicated fields are voted and scrubbed. -/
  | tFieldScrub (hits : List THit)
  /-- `T_FIELD_RESTORE` (R39): The management controller restores a lost T field from the image value. -/
  | tFieldRestore
  /-- `ARM` (R46): SNP.CMD.ARM arms one snapshot while STATE is idle and zeroes DROPPED. -/
  | arm
  /-- `SNAPSHOT_TRIGGER` (R44): SNP.CMD.TRIG triggers a snapshot and sets its latch time while armed. -/
  | snapshotTrigger (mgmt : Bool)
  /-- `SNAP_IN` (R44): An active edge on SNAP_IN triggers an armed snapshot. -/
  | snapIn (rising : Bool)
  /-- `SNAPSHOT_LATCH` (R45): Each block latches its copy when its DT copy reaches the latch time. -/
  | snapshotLatch (block : Fin 22) (inst : Fin 136)
  /-- `SNAPSHOT_HELD` (R45): All blocks confirm; STATE becomes held, and ID, T and SEQ update. -/
  | snapshotHeld
  /-- `SNAPSHOT_RELEASE` (R45): SNP.RELEASE.GO returns the snapshot state to idle. -/
  | snapshotRelease
  /-- `COLLECTION_BOUNDARY` (R52): At each period boundary the counters are latched, reprogrammed and collected, or the boundary is skipped. -/
  | collectionBoundary
  /-- `DUMP_COMPLETE` (R54): A performance dump is written to the dump ring and mirrored to BAR4. -/
  | dumpComplete
  /-- `DT_WRAP` (R60): The integer part of DT wraps, the epoch increments, and a DT epoch entry is logged. -/
  | dtWrap
  /-- `REFCLK_LOSS` (R438): A monitor declares loss of the reference clock input in use. -/
  | refclkLoss (i : Fin 2)
  /-- `REFCLK_ELIGIBLE` (R438): A restored input becomes eligible after 1 s without loss. -/
  | refclkEligible (i : Fin 2)
  /-- `PLL_UNLOCK` (R493): A PLL loses lock; its clock stops, and PLL_UNLOCK is set and logged. -/
  | pllUnlock (i : Fin 6)
  /-- `PLL_RELOCK` (R493): A PLL relocks, and its clock restarts. -/
  | pllRelock (i : Fin 6)
  /-- `BATCH_CTL_END` (R68): A write of TIM.BATCH_CTL.END raises a batch event. -/
  | batchCtlEnd
  /-- `BATCH_START` (R68): At the first composite block boundary after a batch event the next batch starts, and BATCH fields apply. -/
  | batchStart
  /-- `LINE_ISSUE` (R70): A trigger generator issues a line with its LSN and exposure time. -/
  | lineIssue (g : Fin 4)
  /-- `TRIGGER_MESSAGE` (R74): A port sends a TRIGGER message E − LEAD before exposure, or drops it as PORT_LATE. -/
  | triggerMessage (p : Fin 12)
  /-- `TRIG_OUT_PULSE` (R75): The TRIG_OUT pin starts its pulse at E + OFS. -/
  | trigOutPulse (p : Fin 12)
  /-- `TRIG_OUT_PULSE_END` (R75): The TRIG_OUT pulse ends after WIDTH × 10 ns. -/
  | trigOutPulseEnd (p : Fin 12)
  /-- `ENCODER_EDGE` (R76): An accepted encoder edge counts SP by ±1 and may cross a trigger or batch threshold. -/
  | encoderEdge (e : Fin 2) (edge : EncEdge)
  /-- `ENCODER_INDEX` (R77): An index pulse captures SP and may load the preset per Z_MODE. -/
  | encoderIndex (e : Fin 2)
  /-- `COMPARE_FIRE` (R79): A DT compare unit fires when DT reaches CMP_TIME and performs its action if its owner holds it. -/
  | compareFire (n : Fin 16)
  /-- `CMP_TIME_WRITE` (R79): A write of CMP_TIME re-arms an enabled compare unit. -/
  | cmpTimeWrite (n : Fin 16) (half : Option (Fin 2)) (value : BitVec 64)
  /-- `EVENT_CAPTURE` (R82): An active EVT_IN edge pushes its DT and SP values into the pin's FIFO. -/
  | eventCapture (i : Fin 8) (edge : PinEdge)
  /-- `POP` (R82): EVT_CMD.POP moves the oldest capture into the visible registers. -/
  | pop (i : Fin 8)
  /-- `PTM_DIALOGUE` (R83): The periodic PTM timer starts a PTM dialogue with the root port. -/
  | ptmDialogue
  /-- `PTM_NOW` (R83): PTM_CMD.NOW starts one PTM dialogue. -/
  | ptmNow
  /-- `PTM_RESPONSE` (R83): A PTM response records PTM_DT, PTM_HT and PTM_DELAY in one clock. -/
  | ptmResponse (master : BitVec 64) (delay : BitVec 32)
  /-- `PTM_TIMEOUT` (R83): A PTM response absent after 100 µs sets TIMEOUT. -/
  | ptmTimeout
  /-- `SYNC` (R84): A Sync falls due on a segment at its interval. -/
  | sync (k : Fin 8)
  /-- `ANNOUNCE` (R84): An Announce falls due every second on a segment. -/
  | announce (k : Fin 8)
  /-- `PDELAY_REQ` (R84): A received Pdelay_Req is answered with Pdelay_Resp and its Follow_Up. -/
  | pdelayReq (k : Fin 8) (ident : BitVec 80) (seqId : BitVec 16)
  /-- `SIGNAL_DETECT` (R104): Signal is detected on an uplink lane in WAIT, which moves to CDR. -/
  | signalDetect (l : Fin 48)
  /-- `CDR_LOCK` (R104): CDR locks and the CTLE adapts, which moves the lane to BLOCK. -/
  | cdrLock (l : Fin 48) (ctle : BitVec 4)
  /-- `BLOCK_LOCK` (R96): 64 valid sync headers at one position give block lock. -/
  | blockLock (l : Fin 60) (blks : List Blk) (dfe : BitVec 30)
  /-- `BLOCK_LOCK_LOSS` (R96): 16 invalid headers within 64 blocks lose block lock. -/
  | blockLockLoss (l : Fin 60) (blks : List Blk)
  /-- `ALIGNMENT_MARKER` (R99): A received alignment marker is recognised, checked for BIP, skew and sequence, or ignored. -/
  | alignmentMarker (l : Fin 60) (b : Blk) (rx : List Blk) (slotNo : Nat)
  /-- `ALIGNMENT_LOCK_LOSS` (R99): Four expected markers in a row missing lose alignment lock. -/
  | alignmentLockLoss (l : Fin 60) (n : Nat)
  /-- `LANE_STATE_TIMEOUT` (R104): A lane that overruns its state limit returns to WAIT and counts a training failure. -/
  | laneStateTimeout (l : Fin 48)
  /-- `TRAIN` (R138): A TRAIN block reports the transmitter setting in force on its lane. -/
  | train (l : Fin 48) (b : Blk)
  /-- `EYE_MARGIN` (R139): An eye-margin measurement ends, and training moves to the next setting or to TRAIN_DONE. -/
  | eyeMargin (l : Fin 48) (margin : BitVec 6)
  /-- `TRAIN_REQ_TIMEOUT` (R139): A TRAIN_REQ not reflected within 200 µs is repeated once, then counts a failure. -/
  | trainReqTimeout (l : Fin 48)
  /-- `RETRAIN` (R105): LNE.CMD.RETRAIN returns the lane to WAIT, as a commanded removal when UP. -/
  | retrain (l : Fin 60)
  /-- `RATE_WRITE` (R105): A write of LNE.CTL.RATE returns the lane to WAIT. -/
  | rateWrite (l : Fin 60) (rate : BitVec 2)
  /-- `REMOVE` (R107): LNE.CMD.REMOVE removes an UP lane as a commanded loss. -/
  | remove (l : Fin 60)
  /-- `RESTORE` (R111): LNE.CMD.RESTORE restores an eligible lane with a widened mask. -/
  | restore (l : Fin 48)
  /-- `QUAD_PLL_UNLOCK` (R107): A quad PLL loses lock, a cause of lane loss. -/
  | quadPllUnlock (q : Fin 15)
  /-- `LANE_LOSS` (R107): A cause of lane loss appears on an UP lane and starts its confirmation wait. -/
  | laneLoss (l : Fin 48) (cause : Fin 5) (ends : Bool)
  /-- `LANE_LOSS_CONFIRM` (R108): A loss persisting for CONFIRM_US removes the lane and degrades the port. -/
  | laneLossConfirm (l : Fin 48)
  /-- `RESTORE_ELIGIBLE` (R111): A REMOVED lane error-free for 1 s becomes eligible and is restored when AUTO is set. -/
  | restoreEligible (l : Fin 48)
  /-- `EQ_STEP` (R102): Background equalisation moves a code by at most one step per 10 µs. -/
  | eqStep (l : Fin 48) (code : Fin 7) (up : Bool)
  /-- `INJ_ONCE` (R106): LNE.INJ.ONCE injects the selected error once. -/
  | injOnce (l : Fin 60)
  /-- `LINK_CFG` (R137): The port sends LINK_CFG every 100 µs while no lane of LANES detects signal. -/
  | linkCfg (p : Fin 12)
  /-- `RAW_PACKET` (R149): A framed RAWn packet is checked and placed into its open line, or discarded as late, duplicate or stray. -/
  | rawPacket (p : Fin 12) (rows : List (List Blk))
  /-- `RING_SLOT_WRITTEN` (R163): A line finishes writing into its ring slot, and RING_WR advances. -/
  | ringSlotWritten (p : Fin 12)
  /-- `METADATA` (R148): A METADATA packet is copied into the META window. -/
  | metadata (p : Fin 12) (rows : List (List Blk))
  /-- `CAM_STATUS` (R158): A CAM_STATUS packet is copied, and its STATE and DT_LOCKED are acted on. -/
  | camStatus (p : Fin 12) (rows : List (List Blk))
  /-- `FILLER` (R123): A FILLER or reserved-type packet is discarded and counted. -/
  | filler (p : Fin 12) (rows : List (List Blk))
  /-- `REG_RESP` (R165): A REG_RESP packet completes the matching camera register request. -/
  | regResp (p : Fin 12) (rows : List (List Blk))
  /-- `ECHO_RESP` (R133): An ECHO_RESP gives T4, and PT_DELAY is set from the round trip. -/
  | echoResp (p : Fin 12) (t4 : BitVec 64) (rows : List (List Blk))
  /-- `MASK_MARK` (R143): A MASK_MARK row agreeing on all lanes switches row assembly to the new mask. -/
  | maskMark (p : Fin 12) (rows : List (List Blk))
  /-- `LINE_WATCHDOG` (R154): At E + LINE_TO an open line is closed short, or declared missing. -/
  | lineWatchdog (p : Fin 12)
  /-- `CAM_STATUS_TIMEOUT` (R157): No CAM_STATUS for 300 ms in RUN takes the port down with cause 0x3. -/
  | camStatusTimeout (p : Fin 12)
  /-- `HOLD` (R157): EKL CMD.HOLD takes the port down with cause 0x4. -/
  | hold (p : Fin 12)
  /-- `RELINK` (R160): EKL CMD.RELINK takes the port down with cause 0x5 and relinks it. -/
  | relink (p : Fin 12)
  /-- `ECHO_REQ` (R164): The port sends an ECHO_REQ every ECHO_MS. -/
  | echoReq (p : Fin 12)
  /-- `ECHO_TIMEOUT` (R133): An echo not answered in 100 µs times out, and the previous PT_DELAY is kept. -/
  | echoTimeout (p : Fin 12)
  /-- `TIME_SET` (R164): The port sends a TIME_SET carrying DT_TX, EPOCH and PT_DELAY. -/
  | timeSet (p : Fin 12)
  /-- `CREG_RD` (R165): CREGw_CMD.RD sends REG_RD and sets BUSY. -/
  | cregRd (p : Fin 12) (w : Fin 2)
  /-- `CREG_WR` (R165): CREGw_CMD.WR sends REG_WR and sets BUSY. -/
  | cregWr (p : Fin 12) (w : Fin 2)
  /-- `CREG_TIMEOUT` (R165): A camera register request without response in 2 ms ends with TIMEOUT. -/
  | cregTimeout (p : Fin 12) (w : Fin 2)
  /-- `GUEST_LINE_START` (R188): A lathe starts a readable guest slot, checking CRC, age and poison, or takes it as a token. -/
  | guestLineStart (n : Fin 8)
  /-- `POISONED_RESPONSE` (R188): A poisoned ring read after the first output ends the guest line short. -/
  | poisonedResponse (n : Fin 8) (sent : Nat) (addr : Nat)
  /-- `LATHE_LINE_OUTPUT` (R168): A line leaves the five lathe stages for fusion and the taps. -/
  | latheLineOutput (n : Fin 8) (c : Fin 3) (clocks : Nat)
  /-- `LATHE_CLOCK_GATE` (R168): A lathe gates its clock after 64 clocks without input. -/
  | latheClockGate (n : Fin 8)
  /-- `TRACKING_WINDOW_END` (R178): At the end of a tracking window each qualifying zone gain moves toward its target. -/
  | trackingWindowEnd (n : Fin 8) (c : Fin 3)
  /-- `SWAP` (R183): TBL_CTL.SWAP sets PEND so that the banks exchange at the next boundary. -/
  | swap (t : TblUnit)
  /-- `COPY` (R183): TBL_CTL.COPY starts copying the active bank into the shadow bank. -/
  | copy (t : TblUnit)
  /-- `COPY_DONE` (R183): A table copy ends, and COPY_BUSY clears. -/
  | copyDone (t : TblUnit)
  /-- `LATHE_SELF_TEST` (R194): A lathe self-test line completes and is compared with its signature. -/
  | latheSelfTest (n : Fin 8) (ok : Bool)
  /-- `VIEW_LINE` (R212): A view line or token reaches the fusion unit; a late one is dropped. -/
  | viewLine
  /-- `FUSION_DEADLINE` (R211): At its deadline a composite line is formed FORCED with absent views substituted. -/
  | fusionDeadline
  /-- `SEAM_TRACKING_WINDOW` (R220): At the end of a seam window MEAS, LVL and TRIM are updated. -/
  | seamTrackingWindow
  /-- `RUN_RECORD` (R253): A gouge labels a run record, joining, merging or opening components. -/
  | runRecord (g : Fin 136)
  /-- `END_RECORD` (R256): At an END record the gouge closes components and sends closure, partial and contact records. -/
  | endRecord (g : Fin 136)
  /-- `GOUGE_CLOCK_GATE` (R260): A gouge without records for SLEEP_LINES lines gates its clock. -/
  | gougeClockGate (g : Fin 136)
  /-- `GROUP_POWER_GATE` (R261): A gouge group that has been clock-gated for GG_DOZE.LINES lines is power-gated. -/
  | groupPowerGate (grp : Fin 8)
  /-- `GROUP_WAKE` (R261): A power-gated gouge group finishes waking after a record arrives. -/
  | groupWake (grp : Fin 8)
  /-- `GOUGE_SELF_TEST` (R262): A gouge test strip completes and is compared with its signature. -/
  | gougeSelfTest (g : Fin 136) (ok : Bool)
  /-- `COMPONENT_RECORD` (R279): The collector selector takes a component record, emitting objects and passing pieces to the merge unit. -/
  | componentRecord (crcs : RecCrcs)
  /-- `CONTACT` (R271): The merge unit writes a contact to the edge map, allocating its node. -/
  | contact
  /-- `ALIAS` (R273): An alias record unions the nodes of its two labels. -/
  | aliasRecord
  /-- `PARTIAL` (R278): A partial record is added into its set on composite columns. -/
  | partialRecord
  /-- `PAIRING` (R272): A strip boundary is paired for a line once both done lines and contacts allow. -/
  | pairing (b : Fin 136)
  /-- `SET_COMPLETE` (R276): A set with no open member and paired boundaries enters the merge output FIFO. -/
  | setComplete
  /-- `ORPHANS` (R285): Once old-epoch records are drained, open old-epoch nodes become closed and empty. -/
  | orphans (strip : Fin 136)
  /-- `PATCH_FETCH` (R309): The tile reader takes a queued request into a free patch slot and reads its window. -/
  | patchFetch (changed : List (Nat × Nat))
  /-- `PATCH_COMPUTE` (R309): The array runs the network on the next resampled patch. -/
  | patchCompute
  /-- `SCORES` (R307): Scores of a patch reach the verdict unit, or are dropped as late. -/
  | scores
  /-- `AGE_EXPIRY` (R297): A selected object without scores after AGE is completed unscored. -/
  | ageExpiry
  /-- `VALIDATE` (R308): NETn_CTL.VALIDATE starts parsing the blob of a slot. -/
  | validate (n : Fin 4)
  /-- `VALIDATION_DONE` (R308): Validation ends, setting VALID or ERR. -/
  | validationDone (n : Fin 4)
  /-- `CARVER_SELF_TEST` (R315): The Carver self-test patch completes and is compared per slice. -/
  | carverSelfTest (bad : BitVec 16)
  /-- `BLOB_RESTORE` (R317): The management controller rewrites and revalidates a blob after a weight SRAM error. -/
  | blobRestore (n : Fin 4)
  /-- `VERDICT` (R321): The verdict unit judges a completed record, writes reports and hands on fire commands. -/
  | verdict (objRoom tagRoom : Bool)
  /-- `TRANSMIT_OPPORTUNITY` (R337): After its beacon the device fills its PLCA opportunity with fire, PTP and retransmitted frames. -/
  | transmitOpportunity (k : Fin 8)
  /-- `STATUS_FRAME` (R339): A node status frame acknowledges SEQs and updates node state. -/
  | statusFrame (k : Fin 8) (src : BitVec 48) (payload : List Byte)
  /-- `CANCEL_ALL` (R340): VRD.CMD.CANCEL_ALL sends cancel-all to every node and frees pending commands. -/
  | cancelAll
  /-- `CANCEL_ABANDON` (R340): A cancel unacknowledged 10 ms after first sending is abandoned and logged. -/
  | cancelAbandon
  /-- `STRANGER` (R346): A frame that is neither Pdelay_Req nor a valid status frame is ignored and counted. -/
  | stranger (k : Fin 8) (src : BitVec 48) (announce : Bool)
  /-- `FOREIGN_BEACON` (R347): A foreign beacon or own-opportunity collision moves the segment to CSMA. -/
  | foreignBeacon (k : Fin 8) (collision : Bool)
  /-- `CSMA_RETURN` (R347): 10 ms without a cause returns the segment to PLCA. -/
  | csmaReturn (k : Fin 8)
  /-- `SEGMENT_DOWN` (R347): A PHY transmitter fault puts the segment DOWN. -/
  | segmentDown (k : Fin 8)
  /-- `SILENT` (R347): A node without status frames for 300 ms is marked SILENT. -/
  | silent (k : Fin 8) (n : Fin 32)
  /-- `FIRE_OUT_PULSE` (R351): A FIRE_OUT pin starts a direct-valve or marker pulse at its DT or SP threshold. -/
  | fireOutPulse (i : Fin 16) (sp : Bool)
  /-- `FIRE_OUT_PULSE_END` (R351): A FIRE_OUT pulse ends after its duration. -/
  | fireOutPulseEnd (i : Fin 16)
  /-- `VRD_TABLE_RESTORE` (R353): The management controller restores a VRD table entry after an uncorrectable error. -/
  | vrdTableRestore (active : Bool) (table : Fin 3) (index : Nat)
  /-- `DRAM_REQUEST` (R364): A DRAM request enters its bank queue and is scheduled, decoded and checked for errors. -/
  | dramRequest (user : Fin 6) (a : BitVec 37) (data : Option (List Byte)) (err : DramErr)
  /-- `REMAP_ENTRY_ENABLE` (R373): After the row copy, the remap entry is enabled. -/
  | remapEntryEnable (ch : Fin 4)
  /-- `WRITE_BATCH` (R364): A write-buffer drain batch starts at 48 entries or when no read is queued. -/
  | writeBatch (ch : Fin 4)
  /-- `PRECHARGE` (R365): A row open with no request for 256 DRAM clocks is precharged. -/
  | precharge (ch : Fin 4) (bank : Fin 128)
  /-- `REFSB` (R368): A same-bank refresh falls due in rotating order, postponed at most four intervals. -/
  | refsb (ch : Fin 4) (busy : Bool)
  /-- `PHY_UPDATE_WINDOW` (R368): A REFab per rank opens a window for due code changes. -/
  | phyUpdateWindow (ch : Fin 4)
  /-- `SELF_REFRESH_ENTRY` (R369): An idle channel enters self-refresh after IDLE_NS. -/
  | selfRefreshEntry (ch : Fin 4) (cancel : Bool)
  /-- `MR4_READ` (R360): MR4 is read every 32 ms per rank, and the refresh rate is set. -/
  | mr4Read (ch : Fin 4) (rank : Fin 2) (fast : Bool)
  /-- `DQS_OSCILLATOR` (R371): Every OSC_MS the DQS oscillator is run, and delay drift is tracked. -/
  | dqsOscillator (ch : Fin 4) (change : List Int) (fail : Bool)
  /-- `PATROL_SCRUB` (R372): The patrol scrub reads the next granule and corrects it. -/
  | patrolScrub (ch : Fin 4) (err : DramErr)
  /-- `BAR2_ACCESS` (R380): A BAR2 request is translated through APER_BASE and served in DRAM. -/
  | bar2Access (off : BitVec 28) (data : Option (List Byte)) (len : Nat) (err : Bool)
  /-- `LINK_DOWN` (R381): A link-down moves channels to LINK_WAIT, and report copying stops. -/
  | linkDown (busMaster : Bool)
  /-- `LINK_UP` (R381): The data link comes up, and HST.STATUS.UP is set. -/
  | linkUp (speed : Fin 4) (width : BitVec 4)
  /-- `TAIL` (R385): A write to CHc_TAIL posts descriptors and rings the doorbell. -/
  | tail (c : Fin 32) (count : BitVec 32)
  /-- `DESCRIPTOR_FETCH` (R385): A fetched descriptor is started, or the channel idles on OWN = 0. -/
  | descriptorFetch (c : Fin 32) (host : List Byte)
  /-- `DESCRIPTOR_COMPLETE` (R391): A descriptor completes, is written back, and HEAD advances. -/
  | descriptorComplete (c : Fin 32) (host : HostResp)
  /-- `DMA_START` (R387): CHc_CMD.START begins a program at FBASE. -/
  | dmaStart (c : Fin 32)
  /-- `DMA_RESUME` (R381): CHc_CMD.RESUME restarts a halted or LINK_WAIT channel. -/
  | dmaResume (c : Fin 32)
  /-- `DMA_HALT` (R401): CHc_CMD.HALT halts the channel at its next step with cause HOST. -/
  | dmaHalt (c : Fin 32)
  /-- `MOVE` (R388): A MOVE instruction copies N bytes and advances SA and DA. -/
  | move (c : Fin 32) (ins : List Byte) (host : List Byte)
  /-- `LOOP` (R388): A LOOP instruction counts down its loop register and branches. -/
  | loopInstr (c : Fin 32) (ins : List Byte)
  /-- `WAIT` (R388): A WAIT instruction waits for DT, a stream line, a flag or elapsed time. -/
  | waitInstr (c : Fin 32) (ins : List Byte)
  /-- `SIGNAL` (R388): A SIGNAL instruction raises done, sets a flag or writes a value. -/
  | signal (c : Fin 32) (ins : List Byte)
  /-- `NEXT` (R388): A NEXT instruction jumps to a new instruction address. -/
  | nextInstr (c : Fin 32) (ins : List Byte)
  /-- `END` (R388): An END instruction idles the channel and sets DONE. -/
  | endProgram (c : Fin 32) (ins : List Byte)
  /-- `RUNAWAY` (R390): 65,536 instructions without data moved halt the channel. -/
  | runaway (c : Fin 32)
  /-- `FLAG_SET` (R388): A write to DMA.FLAG_SET sets channel flags. -/
  | flagSet (f : BitVec 32)
  /-- `DMA_TIMEOUT` (R393): A channel request expiring after TMO halts the channel with cause TIMEOUT. -/
  | dmaTimeout (c : Fin 32) (fetch : Bool) (space : Fin 2) (addr : BitVec 64) (got : List Byte)
  /-- `ERROR_RESPONSE` (R394): An error response halts the channel, or is recorded as a late error. -/
  | errorResponse (c : Fin 32) (what : DmaErr) (got : List Byte)
  /-- `REPORT_BATCH` (R395): A report channel copies a batch of ring entries to the host ring and writes HWR. -/
  | reportBatch (c : Fin 32)
  /-- `MSIX_MESSAGE` (R398): A vector sends its MSI-X message, subject to holdoff. -/
  | msixMessage (v : Fin 64)
  /-- `RECORDER_TAP_LINE` (R413): The recorder codes a tap line into records, or refuses it. -/
  | recorderTapLine (refuse : Bool)
  /-- `CHUNK_CLOSE` (R414): A full or 1 ms-old chunk closes and is written to the ring. -/
  | chunkClose
  /-- `RECORDER_TRIGGER` (R416): REC_CMD.TRIG records the trigger DT and moves the recorder to POST. -/
  | recorderTrigger
  /-- `RECORDER_RELEASE` (R417): REC_CMD.RELEASE returns a frozen recorder to RECORDING. -/
  | recorderRelease
  /-- `CODEC_SELF_TEST` (R415): The codec self-test encodes and decodes a test line and compares it. -/
  | codecSelfTest (ok : Bool)
  /-- `JOB_START` (R418): JOBe_CMD.START runs the job descriptor on its engine. -/
  | jobStart (e : Fin 2)
  /-- `JOB_RECORD` (R420): A job codes or checks and decodes its next record, or stops with a STATUS. -/
  | jobRecord (e : Fin 2)
  /-- `JOB_RESUME` (R421): JOBe_CMD.RESUME continues a job stopped at its output limit. -/
  | jobResume (e : Fin 2)
  /-- `JOB_ABORT` (R423): JOBe_CMD.ABORT stops the job with STATUS 0x5. -/
  | jobAbort (e : Fin 2)
  /-- `TEST_GO` (R444): RAS.TEST.GO injects a fault handled as a detected one. -/
  | testGo (kind : BitVec 3) (index : BitVec 8)
  /-- `VMON_OUT_OF_WINDOW` (R448): A domain voltage outside its window for 1 µs is a fault or is logged. -/
  | vmonOutOfWindow (domain : Fin 41) (out : Bool)
  /-- `LOCKSTEP_MISMATCH` (R437): A lockstep mismatch holds the management cores in reset and restarts them. -/
  | lockstepMismatch
  /-- `MANAGEMENT_WATCHDOG` (R437): A management watchdog unserved for 100 ms restarts the cores. -/
  | managementWatchdog
  /-- `MANAGEMENT_RESTART` (R437): The restarted cores have reloaded their firmware and serve again. -/
  | managementRestart
  /-- `SRAM_SCRUB` (R436): SRAM words are scrubbed and corrected at least once per second. -/
  | sramScrub (kwords : Nat) (hit : Option SramHit)
  /-- `REPAIR_MAP_WRITE` (R440): A new repair entry is written to both NVM devices. -/
  | repairMapWrite (io : NvmIo)
  /-- `SENSOR_CONVERSION` (R447): Each thermal sensor converts every 100 µs. -/
  | sensorConversion (n : Fin 16) (temp : BitVec 16)
  /-- `THERMAL_HOT` (R449): A sensor above TEMP_HOT for 10 ms lowers the Carver clock and sets THERM_HOT. -/
  | thermalHot (n : Fin 16)
  /-- `THERMAL_TRIP` (R494): AON switches off all domains but 0 and records the trip. -/
  | thermalTrip (sensor : Fin 16) (temp : BitVec 16)
  /-- `POWER_READ` (R451): READ_POUT of the power rails is read every 1 ms. -/
  | powerRead (rails : List RailRead)
  /-- `RAIL_FAULT_END` (R452): The 1 s FAULT marking of a rail expires. -/
  | railFaultEnd (r : Fin 8)
  /-- `CARVER_CLOCK_STEP` (R17): Power above or below its ceiling long enough lowers or raises the Carver clock one step. -/
  | carverClockStep (thermal up : Bool)
  /-- `AVS_EVALUATION` (R453): Every 1 ms the AVS loop raises, lowers or holds VDD_CORE. -/
  | avsEvaluation (slack : BitVec 8)
  /-- `AVS_IMMEDIATE_RAISE` (R453): A slack below 2 codes raises VDD_CORE by 10 mV at once. -/
  | avsImmediateRaise
  /-- `SMBALERT` (R450): SMBALERT# assertion reads STATUS_WORD of every rail. -/
  | smbalert (words : List (Fin 8 × BitVec 16))
  /-- `LOG_PERSIST` (R457): A log entry is persisted to NVM, or suppressed when the bucket is empty. -/
  | logPersist (io : NvmIo)
  /-- `LOG_BUCKET_REFILL` (R457): The persist bucket gains a token, and a log suppressed entry is persisted if owed. -/
  | logBucketRefill (io : NvmIo)
  /-- `INFO` (R461): Mailbox INFO returns versions, serial and slot table. -/
  | info
  /-- `LOG_READ` (R461): Mailbox LOG_READ returns persisted log entries. -/
  | logRead (io : NvmIo)
  /-- `LOG_WRITE` (R461): Mailbox LOG_WRITE logs a host entry. -/
  | logWrite
  /-- `IMG_BEGIN` (R462): Mailbox IMG_BEGIN erases the inactive slot. -/
  | imgBegin (io : NvmIo)
  /-- `IMG_WRITE` (R462): Mailbox IMG_WRITE writes and verifies image data on both devices. -/
  | imgWrite (io : NvmIo)
  /-- `IMG_VERIFY` (R462): Mailbox IMG_VERIFY checks the slot. -/
  | imgVerify (io : NvmIo)
  /-- `IMG_COMMIT` (R462): Mailbox IMG_COMMIT marks the slot verified and PENDING. -/
  | imgCommit (io : NvmIo)
  /-- `FW_ACTIVATE` (R462): Mailbox FW_ACTIVATE restarts the cores from the committed slot. -/
  | fwActivate (io : NvmIo)
  /-- `REPAIR_READ` (R461): Mailbox REPAIR_READ returns repair map entries. -/
  | repairRead (io : NvmIo)
  /-- `REPAIR_CLEAR` (R463): Mailbox REPAIR_CLEAR marks entries CLEARED. -/
  | repairClear (io : NvmIo)
  /-- `REPAIR_COMPACT` (R463): Mailbox REPAIR_COMPACT rewrites the map without cleared entries. -/
  | repairCompact (io : NvmIo)
  /-- `CAL_RUN` (R461): Mailbox CAL_RUN makes Caliper runs due. -/
  | calRun
  /-- `SENSORS` (R461): Mailbox SENSORS returns temperatures, monitor states and rail readings. -/
  | sensors
  /-- `ROOT_PROG` (R459): Mailbox ROOT_PROG programs the root key hash once. -/
  | rootProg
  /-- `CAL_CMD_RUN` (R465): A write of CAL.CMD.RUN makes a run due for the named target. -/
  | calCmdRun (target : BitVec 6)
  /-- `CALIPER_RUN` (R465): The Caliper starts the next due run in ascending target order. -/
  | caliperRun
  /-- `CALIPER_RUN_DONE` (R464): A run ends with new target codes, clipped or kept on a CAL_RES fault. -/
  | caliperRunDone (res : BitVec 16) (codes : List Int)
  /-- `CODE_STEP` (R466): A code moves one LSB toward its target when its condition allows. -/
  | codeStep (t : Fin 43) (i : Fin 4)
  /-- `RECIPE_NEXT` (R484): A write of TOP.RECIPE.NEXT starts loading a recipe, or refuses it. -/
  | recipeNext (r : Fin 8)
  /-- `RECIPE_ARMED` (R484): The recipe load finishes, and STATE becomes ARMED. -/
  | recipeArmed
  /-- `STANDBY` (R490): PWR.CMD.GO with STATE 0x1 enters STANDBY. -/
  | standby (acked wake : Bool)
  /-- `OFF` (R490): PWR.CMD.GO with STATE 0x2 enters OFF. -/
  | off (acked wake : Bool)
  /-- `WAKE` (R491): PWR.CMD.WAKE wakes the device from STANDBY. -/
  | wake (trim : BitVec 8)
  /-- `WAKE_ALARM` (R491): Integer DT reaching WAKE_DT wakes the device. -/
  | wakeAlarm (env : BootEnv)
  /-- `WAKE_EVENT` (R491): An enabled EVT_IN edge wakes the device from STANDBY or OFF. -/
  | wakeEvent (i : Fin 8) (rising : Bool) (env : BootEnv)
  /-- `QUAD_PLL_LOCK` (R92): A quad SerDes PLL achieves lock after enable or relock, and its lanes may leave OFF/WAIT or a downlink may go UP. -/
  | quadPllLock (q : Fin 15)
  /-- `LANE_ALIGN_DEADLINE` (R137): 25 ms after signal was first detected, the port sends LINK_STATE run and LANE_MASK with the lanes aligned so far and removes the rest. -/
  | laneAlignDeadline (p : Fin 12)
  /-- `PMA_CHECKER_LOCK` (R106): The PMA pattern checker locks after 64 error-free received bits. -/
  | pmaCheckerLock (l : Fin 60) (rx : List Bool)
  /-- `PMA_CHECKER_LOCK_LOSS` (R106): The PMA pattern checker drops lock on 32 errors within 256 bits and sets PAT_STATUS.LOCK_LOST. -/
  | pmaCheckerLockLoss (l : Fin 60) (rx : List Bool)
  /-- `INJECTION_INTERVAL` (R106): Every INTERVAL transmitted blocks, LNE.INJ injects its selected error. -/
  | injectionInterval (l : Fin 60)
  /-- `PHY_ERROR` (R346): The T1S PHY reports a symbol error, jabber, false carrier or collision, which is counted. -/
  | phyError (k : Fin 8) (kind : Fin 4)
  /-- `CSMA_TRANSMIT` (R347): In CSMA state the segment sends its pending frames by CSMA/CD when the medium allows. -/
  | csmaTransmit (k : Fin 8)
  /-- `DRAM_PHY_FAULT` (R375): A DRAM channel reports a PHY fault, which is a channel fault and may start retirement. -/
  | dramPhyFault (ch : Fin 4)
  /-- `CONFIGURATION_REQUEST` (R475): A PCIe configuration request is answered with Retry Status before step 7 and normally after, enabling PTM, MSI-X or Bus Master. -/
  | configurationRequest (r : CfgReq)
  /-- `REGISTER_READ` (R31): A BAR0 read latches the high word or DT_EPOCH, returns values, or raises a bus error on an illegal location. -/
  | registerRead (user : Bool) (addr : BitVec 25) (size : Nat)
  /-- `WAIT_DONE` (R388): A DMA WAIT on DT reached or N ns elapsed ends, and the program continues. -/
  | waitDone (c : Fin 32)
  /-- `REFCLK_DETECTED` (R473): A REFCLK input starts running while start-up waits at step 2, and AON trims its RC oscillator and continues. -/
  | refclkDetected (env : BootEnv)
  /-- `SUPPLY_REMOVAL` (R472): Removal of VDD_AON and the other rails loses all state, PWR.TRIP included. -/
  | supplyRemoval
deriving DecidableEq, Repr

end Sys2Proof
end

