-- ==== Sys2Proof/Decode.lean ====
section
/-!
DEFINITION. The commands that a word spells by the bits of the command table. No row of the table gives a
command any bits: every command arrives on an interface of its own, so no word spells one.
-/

namespace Sys2Proof

/-- The command that a word of `nbits` bits spells: none, since no row of the command table gives bits. -/
def decodeTableWord (_nbits _w : Nat) : Option Instr := none

end Sys2Proof
end

