-- ==== Sys2Proof/Machine/Operands.lean ====
section
/-!
DEFINITION. The operand forms that the commands share: bytes and words in their orders, bit fields of
numbers, signed values, and the checksums that the spec names.
-/

namespace Sys2Proof.Machine

/-- The low `n` bytes of a value, least significant first. -/
def leBytes : Nat → Nat → List Byte
  | 0, _ => []
  | n + 1, v => BitVec.ofNat 8 v :: leBytes n (v / 256)

/-- The value of bytes, least significant first. -/
def leVal : List Byte → Nat
  | [] => 0
  | b :: bs => b.toNat + 256 * leVal bs

/-- A little-endian number at an offset in bytes. -/
def fieldAt (bs : List Byte) (o n : Nat) : Nat := leVal ((bs.drop o).take n)

/-- The value of bytes, most significant first. -/
def beVal (bs : List Byte) : Nat := leVal bs.reverse

/-- The low `n` bytes of a value, most significant first. -/
def beBytes (n v : Nat) : List Byte := (leBytes n v).reverse

/-- Bits `[lo + w - 1 : lo]` of a number. -/
def bits (v lo w : Nat) : Nat := v / 2 ^ lo % 2 ^ w

/-- A bit of a number. -/
def bit (v i : Nat) : Bool := v / 2 ^ i % 2 == 1

/-- 1 for true, 0 for false. -/
def b2n (b : Bool) : Nat := if b then 1 else 0

/-- `v` with bits `[lo + w - 1 : lo]` replaced by `x`. -/
def setBits (v lo w x : Nat) : Nat :=
  v % 2 ^ lo + (x % 2 ^ w) * 2 ^ lo + v / 2 ^ (lo + w) * 2 ^ (lo + w)

/-- The signed reading of a `w`-bit field. -/
def sgn (w v : Nat) : Int := if v % 2 ^ w < 2 ^ (w - 1) then (v % 2 ^ w : Nat) else ((v % 2 ^ w : Nat) : Int) - (2 ^ w : Nat)

/-- The `w`-bit field that holds an integer, modulo 2^w. -/
def unsgn (w : Nat) (x : Int) : Nat := (x % (2 ^ w : Nat)).toNat

/-- An integer held between two limits. -/
def clampI (lo hi x : Int) : Int := if x < lo then lo else if hi < x then hi else x

/-- A number held between two limits. -/
def clamp (lo hi x : Nat) : Nat := if x < lo then lo else if hi < x then hi else x

/-- The wrap-safe difference A − B of two 64-bit DT values (R63). -/
def dtDiff (a b : Nat) : Int := sgn 64 ((a + 2 ^ 64 - b % 2 ^ 64) % 2 ^ 64)

/-- A is equal to or later than B (R63). -/
def dtGe (a b : Nat) : Bool := decide (0 ≤ dtDiff a b)

/-- The wrap-safe difference of two 32-bit line numbers. -/
def lsnDiff (a b : Nat) : Int := sgn 32 ((a + 2 ^ 32 - b % 2 ^ 32) % 2 ^ 32)

/-- DT plus a number of integer nanoseconds, modulo 2^64. -/
def dtAddNs (dt : Nat) (ns : Int) : Nat := unsgn 64 ((dt : Int) + ns * 65536)

/-- Element `i` of a list, or a given value past its end. -/
def nth {α : Type} (d : α) : List α → Nat → α
  | [], _ => d
  | x :: _, 0 => x
  | _ :: xs, n + 1 => nth d xs n

/-- The list with element `i` replaced. -/
def setNth {α : Type} : List α → Nat → α → List α
  | [], _, _ => []
  | _ :: xs, 0, y => y :: xs
  | x :: xs, n + 1, y => x :: setNth xs n y

/-- Cuts a list into pieces of `n` elements; `fuel` bounds the number of pieces. -/
def piecesOf {α : Type} (n : Nat) : Nat → List α → List (List α)
  | 0, _ => []
  | fuel + 1, xs => if xs.isEmpty then [] else xs.take n :: piecesOf n fuel (xs.drop n)

/-- One bit of a reflected CRC register. -/
def crcBit (poly : BitVec 32) (c : BitVec 32) : BitVec 32 :=
  if c.getLsbD 0 then (c >>> 1) ^^^ poly else c >>> 1

/-- Eight bits of a reflected CRC register. -/
def crcByte (poly : BitVec 32) (c : BitVec 32) (b : Byte) : BitVec 32 :=
  let c := c ^^^ b.setWidth 32
  crcBit poly (crcBit poly (crcBit poly (crcBit poly (crcBit poly (crcBit poly (crcBit poly (crcBit poly c)))))))

/-- One bit of the CRC-16-CCITT register, most significant bit first. -/
def crc16Bit (c : BitVec 16) : BitVec 16 :=
  if c.getLsbD 15 then (c <<< 1) ^^^ 0x1021#16 else c <<< 1

/-- Eight bits of the CRC-16-CCITT register. -/
def crc16Byte (c : BitVec 16) (b : Byte) : BitVec 16 :=
  let c := c ^^^ (b.setWidth 16 <<< 8)
  crc16Bit (crc16Bit (crc16Bit (crc16Bit (crc16Bit (crc16Bit (crc16Bit (crc16Bit c)))))))

/-- CRC-16-CCITT over bytes: HCRC and MCRC of R121. -/
def crc16 (bs : List Byte) : Nat := (bs.foldl crc16Byte 0xffff#16).toNat

/-- CRC-32C over bytes: polynomial 0x1EDC_6F41, reflected, initial value and final XOR all ones (R121). -/
def crc32c (bs : List Byte) : Nat :=
  (~~~ (bs.foldl (crcByte 0x82f63b78#32) 0xffffffff#32)).toNat

/-- CRC-32 of IEEE 802.3 over bytes. PRESUMED: polynomial 0x04C11DB7 reflected, initial value and final
XOR all ones. -/
def crc32 (bs : List Byte) : Nat :=
  (~~~ (bs.foldl (crcByte 0xedb88320#32) 0xffffffff#32)).toNat

/-- The lowest number of the list, with the first on a tie, by a key; none for an empty list. -/
def minBy {α : Type} (f : α → Nat) : List α → Option α
  | [] => none
  | x :: xs =>
    match minBy f xs with
    | none => some x
    | some y => if f x ≤ f y then some x else some y

/-- Places an element before the first one that it comes before. -/
def insertBy {α : Type} (lt : α → α → Bool) (x : α) : List α → List α
  | [] => [x]
  | y :: ys => if lt x y then x :: y :: ys else y :: insertBy lt x ys

/-- The elements in ascending order; equal ones keep theirs. -/
def sortBy {α : Type} (lt : α → α → Bool) (xs : List α) : List α := xs.foldl (fun acc x => insertBy lt x acc) []

/-- The sum of numbers. -/
def sumNat (xs : List Nat) : Nat := xs.foldl (· + ·) 0

/-- The sum of integers. -/
def sumInt (xs : List Int) : Int := xs.foldl (· + ·) 0

/-- Floor division of an integer by a positive number. -/
def fdiv (x : Int) (n : Nat) : Int := x / (n : Int)

/-- Ceiling division. -/
def cdiv (a b : Nat) : Nat := (a + b - 1) / b

/-- The largest n with n * n ≤ v, found bit by bit below 2^`bitsN`. -/
def isqrt : Nat → Nat → Nat → Nat
  | 0, _, r => r
  | k + 1, v, r => if (r + 2 ^ k) * (r + 2 ^ k) ≤ v then isqrt k v (r + 2 ^ k) else isqrt k v r

end Sys2Proof.Machine
end

