-- ==== Sys2Proof/Machine/RegMap.lean ====
section
/-!
DEFINITION. The BAR0 register map: every register table of the spec (the block map of R29 and the
register tables of R18, R22 to R27, R33, R48, R49, R58, R89, R112, R166, R196, R226, R263, R266,
R292, R318, R354, R357, R377, R400, R401, R424, R444, R469, R470, R496, R497, R515 and R516) as data,
one row for each register, and a named field for each of its fields.
-/

namespace Sys2Proof.Machine

/-- Field types of R35. -/
inductive FTy where
  | rw | ro | wo | cmd | rsq | rwb | rwp
deriving DecidableEq, Repr

/-- Boundary classes of R37. -/
inductive Bnd where
  | none | imm | line | block | batch | rebase
deriving DecidableEq, Repr

/-- One field of a register: lowest bit, width, type, reset value and boundary class. -/
structure FieldDef where
  lo : Nat
  w : Nat
  ty : FTy
  reset : Nat
  bnd : Bnd
deriving DecidableEq, Repr

/-- One register of a block: offset in its instance, its repetitions (stride, count), whether it is an
aligned 64-bit pair, whether the chapter lists it as snapshotted (R47), and its fields. -/
structure RegDef where
  off : Nat
  reps : List (Nat × Nat)
  pair : Bool
  snap : Bool
  fields : List FieldDef
deriving DecidableEq, Repr

/-- One block of the BAR0 map (R29). -/
structure BlockDef where
  base : Nat
  code : Nat
  count : Nat
  stride : Nat
  regs : List RegDef
deriving DecidableEq, Repr

/-- A field of a register by its address: BAR0 offset of the register (of the low word of a pair), lowest
bit and width. -/
structure Fld where
  addr : Nat
  lo : Nat
  w : Nat
deriving DecidableEq, Repr

/-- The key under which the register file holds the field. -/
def Fld.key (f : Fld) : Nat := f.addr * 64 + f.lo

/-- The counter registers that every block has from offset 0x0F00 (R49). -/
def perfRegs : List RegDef := [
  ⟨0xf00, [(4, 8)], false, true, [⟨0, 10, .rw, 0, .none⟩, ⟨15, 1, .rw, 0, .none⟩]⟩,
  ⟨0xf20, [], false, true, [⟨24, 8, .rsq, 0, .none⟩, ⟨8, 4, .rsq, 0, .none⟩, ⟨0, 8, .rsq, 0, .none⟩]⟩,
  ⟨0xf40, [(8, 8)], true, true, [⟨0, 48, .rw, 0, .none⟩]⟩,
  ⟨0xf80, [(8, 4)], true, true, [⟨0, 48, .ro, 0, .none⟩]⟩]

/-! The counter registers of the instance that starts at `base` (R49). -/
def R.PERF.SEL.EVENT (base n : Nat) : Fld := ⟨base + 0xf00 + 4 * n, 0, 10⟩
def R.PERF.SEL.EN (base n : Nat) : Fld := ⟨base + 0xf00 + 4 * n, 15, 1⟩
def R.PERF.OVF.SEQ (base : Nat) : Fld := ⟨base + 0xf20, 24, 8⟩
def R.PERF.OVF.SLOT_OVF (base : Nat) : Fld := ⟨base + 0xf20, 8, 4⟩
def R.PERF.OVF.CNT_OVF (base : Nat) : Fld := ⟨base + 0xf20, 0, 8⟩
def R.PERF.CNT.COUNT (base n : Nat) : Fld := ⟨base + 0xf40 + 8 * n, 0, 48⟩
def R.PERF.SLOT.COUNT (base n : Nat) : Fld := ⟨base + 0xf80 + 8 * n, 0, 48⟩

/-! The named fields of every register (block.register.field; parameters: the instance, then the indices). -/
def R.TOP.PROFILE.GG_SPARES : Fld := ⟨0x200, 0, 2⟩
def R.TOP.PROFILE.LATHE_RES : Fld := ⟨0x200, 2, 1⟩
def R.TOP.PROFILE.DRAM_PROT : Fld := ⟨0x200, 3, 1⟩
def R.TOP.PROFILE.LAT_CLASS : Fld := ⟨0x200, 4, 1⟩
def R.TOP.PROFILE.PWR_CEIL : Fld := ⟨0x200, 5, 2⟩
def R.TOP.PROFILE.T1S_MODE : Fld := ⟨0x200, 7, 1⟩
def R.TOP.PROFILE.REF_MODE : Fld := ⟨0x200, 8, 1⟩
def R.TOP.PROFILE.REC_TAP : Fld := ⟨0x200, 9, 3⟩
def R.TOP.PROFILE.REC_DEPTH : Fld := ⟨0x200, 12, 4⟩
def R.TOP.PROFILE_ACT.GG_SPARES : Fld := ⟨0x204, 0, 2⟩
def R.TOP.PROFILE_ACT.LATHE_RES : Fld := ⟨0x204, 2, 1⟩
def R.TOP.PROFILE_ACT.DRAM_PROT : Fld := ⟨0x204, 3, 1⟩
def R.TOP.PROFILE_ACT.LAT_CLASS : Fld := ⟨0x204, 4, 1⟩
def R.TOP.PROFILE_ACT.PWR_CEIL : Fld := ⟨0x204, 5, 2⟩
def R.TOP.PROFILE_ACT.T1S_MODE : Fld := ⟨0x204, 7, 1⟩
def R.TOP.PROFILE_ACT.REF_MODE : Fld := ⟨0x204, 8, 1⟩
def R.TOP.PROFILE_ACT.REC_TAP : Fld := ⟨0x204, 9, 3⟩
def R.TOP.PROFILE_ACT.REC_DEPTH : Fld := ⟨0x204, 12, 4⟩
def R.TOP.DRAM_PLAN.PLAN : Fld := ⟨0x210, 0, 16⟩
def R.TOP.DRAM_PLAN.CHANNELS : Fld := ⟨0x210, 16, 3⟩
def R.TOP.DRAM_GRANT.CEIL (i : Nat) : Fld := ⟨0x214 + 0x4 * i, 0, 16⟩
def R.TOP.DRAM_GRANT.GRANT (i : Nat) : Fld := ⟨0x214 + 0x4 * i, 16, 16⟩
def R.TOP.DRAM_YIELD.SEQ : Fld := ⟨0x22c, 24, 8⟩
def R.TOP.DRAM_YIELD.HOST_IMG : Fld := ⟨0x22c, 2, 1⟩
def R.TOP.DRAM_YIELD.TILES : Fld := ⟨0x22c, 1, 1⟩
def R.TOP.DRAM_YIELD.RECORDER : Fld := ⟨0x22c, 0, 1⟩
def R.TOP.OWN_EVT.SEQ : Fld := ⟨0x240, 24, 8⟩
def R.TOP.OWN_EVT.KIND : Fld := ⟨0x240, 23, 1⟩
def R.TOP.OWN_EVT.NOENT : Fld := ⟨0x240, 20, 1⟩
def R.TOP.OWN_EVT.TYPE : Fld := ⟨0x240, 16, 4⟩
def R.TOP.OWN_EVT.ENTRY : Fld := ⟨0x240, 8, 8⟩
def R.TOP.OWN_EVT.CLAIMANT : Fld := ⟨0x240, 0, 6⟩
def R.TOP.BUSERR.SEQ : Fld := ⟨0x250, 24, 8⟩
def R.TOP.BUSERR.COUNT : Fld := ⟨0x250, 8, 16⟩
def R.TOP.BUSERR.KIND : Fld := ⟨0x250, 0, 4⟩
def R.TOP.BUSERR_ADDR.ADDR : Fld := ⟨0x254, 0, 28⟩
def R.TOP.BUSERR_ADDR.BAR : Fld := ⟨0x254, 30, 2⟩
def R.TOP.STATE.STEP : Fld := ⟨0x260, 0, 4⟩
def R.TOP.STATE.MODE : Fld := ⟨0x260, 4, 4⟩
def R.TOP.STATE.FAIL : Fld := ⟨0x260, 8, 4⟩
def R.TOP.STATE.NVM_B : Fld := ⟨0x260, 16, 1⟩
def R.TOP.STATE.SLOT : Fld := ⟨0x260, 17, 1⟩
def R.TOP.CMD.REBASE : Fld := ⟨0x264, 0, 1⟩
def R.TOP.CMD.KEY : Fld := ⟨0x264, 16, 16⟩
def R.TOP.RECIPE.NEXT : Fld := ⟨0x270, 0, 3⟩
def R.TOP.RECIPE.CUR : Fld := ⟨0x270, 4, 3⟩
def R.TOP.RECIPE.NONE : Fld := ⟨0x270, 7, 1⟩
def R.TOP.RECIPE.STATE : Fld := ⟨0x270, 8, 2⟩
def R.TOP.RECIPE.VALID : Fld := ⟨0x270, 16, 8⟩
def R.TOP.RECIPE_STATUS.SEQ : Fld := ⟨0x274, 24, 8⟩
def R.TOP.RECIPE_STATUS.REFUSED : Fld := ⟨0x274, 10, 1⟩
def R.TOP.RECIPE_STATUS.LATE : Fld := ⟨0x274, 9, 1⟩
def R.TOP.RECIPE_STATUS.APPLIED : Fld := ⟨0x274, 8, 1⟩
def R.TOP.RECIPE_AT.BATCH : Fld := ⟨0x278, 0, 16⟩
def R.TOP.OWN.TYPE (i : Nat) : Fld := ⟨0x1000 + 0x4 * i, 28, 4⟩
def R.TOP.OWN.INDEX (i : Nat) : Fld := ⟨0x1000 + 0x4 * i, 16, 12⟩
def R.TOP.OWN.CLASS (i : Nat) : Fld := ⟨0x1000 + 0x4 * i, 14, 2⟩
def R.TOP.OWN.OWNER (i : Nat) : Fld := ⟨0x1000 + 0x4 * i, 8, 6⟩
def R.TOP.OWN.HELD (i : Nat) : Fld := ⟨0x1000 + 0x4 * i, 7, 1⟩
def R.TOP.OWN.DENIED (i : Nat) : Fld := ⟨0x1000 + 0x4 * i, 6, 1⟩
def R.TOP.RGN.BASE_MIB (i : Nat) : Fld := ⟨0x2000 + 0x8 * i, 0, 17⟩
def R.TOP.RGN.SIZE_MIB (i : Nat) : Fld := ⟨0x2000 + 0x8 * i, 32, 17⟩
def R.TOP.RGN.USE (i : Nat) : Fld := ⟨0x2000 + 0x8 * i, 52, 4⟩
def R.TOP.PINMUX.FUNC (i : Nat) : Fld := ⟨0x3000 + 0x4 * i, 0, 2⟩
def R.TOP.PINMUX.CMP (i : Nat) : Fld := ⟨0x3000 + 0x4 * i, 2, 4⟩
def R.TOP.PINMUX.DRIVE (i : Nat) : Fld := ⟨0x3000 + 0x4 * i, 6, 2⟩
def R.TOP.PINMUX.PULL (i : Nat) : Fld := ⟨0x3000 + 0x4 * i, 8, 2⟩
def R.TOP.GPIO_OUT.OUT : Fld := ⟨0x3100, 0, 48⟩
def R.TOP.GPIO_OE.OE : Fld := ⟨0x3108, 0, 48⟩
def R.TOP.GPIO_IN.IN : Fld := ⟨0x3110, 0, 48⟩
def R.SNP.CTL.SRC_EN : Fld := ⟨0x10000, 0, 5⟩
def R.SNP.CTL.SNAP_IN_POL : Fld := ⟨0x10000, 5, 1⟩
def R.SNP.CTL.CMP_SEL : Fld := ⟨0x10000, 8, 4⟩
def R.SNP.CMD.ARM : Fld := ⟨0x10004, 0, 1⟩
def R.SNP.CMD.TRIG : Fld := ⟨0x10004, 1, 1⟩
def R.SNP.RELEASE.GO : Fld := ⟨0x10008, 0, 1⟩
def R.SNP.LEAD.LEAD_NS : Fld := ⟨0x1000c, 0, 16⟩
def R.SNP.ERR_MASK.MASK : Fld := ⟨0x10010, 0, 8⟩
def R.SNP.STATUS.SEQ : Fld := ⟨0x10020, 24, 8⟩
def R.SNP.STATUS.SRC : Fld := ⟨0x10020, 2, 5⟩
def R.SNP.STATUS.STATE : Fld := ⟨0x10020, 0, 2⟩
def R.SNP.ID.ID : Fld := ⟨0x10024, 0, 16⟩
def R.SNP.ID.DROPPED : Fld := ⟨0x10024, 16, 16⟩
def R.SNP.T.T : Fld := ⟨0x10028, 0, 64⟩
def R.PRF.CTL.EN : Fld := ⟨0x20000, 0, 1⟩
def R.PRF.CTL.STOP_FULL : Fld := ⟨0x20000, 1, 1⟩
def R.PRF.PERIOD.NS : Fld := ⟨0x20004, 0, 30⟩
def R.PRF.DUMP_MASK.MASK : Fld := ⟨0x20008, 0, 22⟩
def R.PRF.RING.RGN : Fld := ⟨0x2000c, 0, 6⟩
def R.PRF.RING_WR.OFFSET : Fld := ⟨0x20010, 0, 32⟩
def R.PRF.RING_RD.OFFSET : Fld := ⟨0x20014, 0, 32⟩
def R.PRF.STATUS.SEQ : Fld := ⟨0x20018, 24, 8⟩
def R.PRF.STATUS.DENIED : Fld := ⟨0x20018, 2, 1⟩
def R.PRF.STATUS.FULL : Fld := ⟨0x20018, 1, 1⟩
def R.PRF.STATUS.SKIP : Fld := ⟨0x20018, 0, 1⟩
def R.PRF.DUMP_SEQ.SEQ : Fld := ⟨0x2001c, 0, 32⟩
def R.PRF.SKIP_CNT.COUNT : Fld := ⟨0x20020, 0, 32⟩
def R.PRF.USER_EN.EN : Fld := ⟨0x20030, 0, 1⟩
def R.PRF.USER_MAP.BLOCK (i : Nat) : Fld := ⟨0x20100 + 0x4 * i, 0, 5⟩
def R.PRF.USER_MAP.INSTANCE (i : Nat) : Fld := ⟨0x20100 + 0x4 * i, 8, 8⟩
def R.PRF.USER_MAP.VALID (i : Nat) : Fld := ⟨0x20100 + 0x4 * i, 31, 1⟩
def R.MGT.ID.FW_VER : Fld := ⟨0x40000, 0, 16⟩
def R.MGT.ID.ROM_VER : Fld := ⟨0x40000, 16, 16⟩
def R.MGT.STATUS.SEQ : Fld := ⟨0x40004, 24, 8⟩
def R.MGT.STATUS.THERM_HOT : Fld := ⟨0x40004, 14, 1⟩
def R.MGT.STATUS.PMB_FAULT : Fld := ⟨0x40004, 13, 1⟩
def R.MGT.STATUS.VMON : Fld := ⟨0x40004, 12, 1⟩
def R.MGT.STATUS.LOG_SUPPR : Fld := ⟨0x40004, 11, 1⟩
def R.MGT.STATUS.RESTART : Fld := ⟨0x40004, 9, 1⟩
def R.MGT.STATUS.MBX_DONE : Fld := ⟨0x40004, 8, 1⟩
def R.MGT.STATUS.STATE : Fld := ⟨0x40004, 0, 2⟩
def R.MGT.MBX_CTL.GO : Fld := ⟨0x40008, 0, 1⟩
def R.MGT.MBX_STATUS.BUSY : Fld := ⟨0x4000c, 0, 1⟩
def R.MGT.LOG_WR.LSEQ : Fld := ⟨0x40010, 0, 32⟩
def R.MGT.LOG_CTL.PSEV : Fld := ⟨0x40014, 0, 2⟩
def R.MGT.LOG_CTL.PAGE : Fld := ⟨0x40014, 4, 2⟩
def R.MGT.LOG_SUPPR.COUNT : Fld := ⟨0x40018, 0, 32⟩
def R.MGT.ALERT_MASK.MASK : Fld := ⟨0x4001c, 0, 8⟩
def R.MGT.TEMP_HOT.C : Fld := ⟨0x40020, 0, 8⟩
def R.MGT.TEMP_MAX.TEMP : Fld := ⟨0x40024, 0, 16⟩
def R.MGT.TEMP_MAX.SENSOR : Fld := ⟨0x40024, 16, 4⟩
def R.MGT.TS.TEMP (i : Nat) : Fld := ⟨0x40040 + 0x4 * i, 0, 16⟩
def R.MGT.TS.VALID (i : Nat) : Fld := ⟨0x40040 + 0x4 * i, 31, 1⟩
def R.MGT.VMON_LO.OUT : Fld := ⟨0x40080, 0, 32⟩
def R.MGT.VMON_HI.OUT : Fld := ⟨0x40084, 0, 9⟩
def R.MGT.VMON_WIN.PCT : Fld := ⟨0x40088, 0, 5⟩
def R.MGT.PMB_CTL.SPEED : Fld := ⟨0x400a0, 0, 2⟩
def R.MGT.PMB_CTL.EN : Fld := ⟨0x400a0, 31, 1⟩
def R.MGT.AVS.MV : Fld := ⟨0x400a4, 0, 10⟩
def R.MGT.AVS.EN : Fld := ⟨0x400a4, 31, 1⟩
def R.MGT.AVS_LIM.VMIN : Fld := ⟨0x400a8, 0, 10⟩
def R.MGT.AVS_LIM.VMAX : Fld := ⟨0x400a8, 16, 10⟩
def R.MGT.PMB_RAIL.ADDR (i : Nat) : Fld := ⟨0x400c0 + 0x8 * i, 0, 7⟩
def R.MGT.PMB_RAIL.PAGE (i : Nat) : Fld := ⟨0x400c0 + 0x8 * i, 8, 8⟩
def R.MGT.PMB_RAIL.POWER (i : Nat) : Fld := ⟨0x400c0 + 0x8 * i, 16, 1⟩
def R.MGT.PMB_RAIL.AVS (i : Nat) : Fld := ⟨0x400c0 + 0x8 * i, 17, 1⟩
def R.MGT.PMB_RAIL.EN (i : Nat) : Fld := ⟨0x400c0 + 0x8 * i, 31, 1⟩
def R.MGT.PMB_POUT.POUT (i : Nat) : Fld := ⟨0x400c4 + 0x8 * i, 0, 16⟩
def R.MGT.PMB_POUT.FAULT (i : Nat) : Fld := ⟨0x400c4 + 0x8 * i, 31, 1⟩
def R.MGT.STAT.COUNT (i : Nat) : Fld := ⟨0x40100 + 0x4 * i, 0, 32⟩
def R.PWR.CMD.STATE : Fld := ⟨0x80000, 0, 2⟩
def R.PWR.CMD.GO : Fld := ⟨0x80000, 8, 1⟩
def R.PWR.CMD.WAKE : Fld := ⟨0x80000, 9, 1⟩
def R.PWR.BUSY.BUSY : Fld := ⟨0x80004, 0, 1⟩
def R.PWR.STATUS.SEQ : Fld := ⟨0x80008, 24, 8⟩
def R.PWR.STATUS.TRIP_SEEN : Fld := ⟨0x80008, 10, 1⟩
def R.PWR.STATUS.WOKE : Fld := ⟨0x80008, 9, 1⟩
def R.PWR.STATUS.PLL_UNLOCK : Fld := ⟨0x80008, 8, 1⟩
def R.PWR.STATUS.STATE : Fld := ⟨0x80008, 0, 3⟩
def R.PWR.WAKE_EN.HOST : Fld := ⟨0x8000c, 0, 1⟩
def R.PWR.WAKE_EN.EVT : Fld := ⟨0x8000c, 1, 1⟩
def R.PWR.WAKE_EN.ALARM : Fld := ⟨0x8000c, 2, 1⟩
def R.PWR.WAKE_EN.PERST : Fld := ⟨0x8000c, 3, 1⟩
def R.PWR.WAKE_EN.EVT_MASK : Fld := ⟨0x8000c, 8, 8⟩
def R.PWR.WAKE_EN.EVT_POL : Fld := ⟨0x8000c, 16, 1⟩
def R.PWR.WAKE_DT.DT : Fld := ⟨0x80010, 0, 64⟩
def R.PWR.WAKE_SRC.SRC : Fld := ⟨0x80018, 0, 4⟩
def R.PWR.DOM_ON_LO.ON : Fld := ⟨0x8001c, 0, 32⟩
def R.PWR.DOM_ON_HI.ON : Fld := ⟨0x80020, 0, 9⟩
def R.PWR.PLL.LOCK : Fld := ⟨0x80024, 0, 6⟩
def R.PWR.PLL.RUN : Fld := ⟨0x80024, 8, 6⟩
def R.PWR.TRIP.TEMP : Fld := ⟨0x80028, 0, 16⟩
def R.PWR.TRIP.SENSOR : Fld := ⟨0x80028, 16, 4⟩
def R.PWR.TRIP.VALID : Fld := ⟨0x80028, 31, 1⟩
def R.PWR.RC_TRIM.CODE : Fld := ⟨0x8002c, 0, 8⟩
def R.PWR.STAT.COUNT (i : Nat) : Fld := ⟨0x80100 + 0x4 * i, 0, 32⟩
def R.CAL.CTL.EN : Fld := ⟨0xa0000, 0, 1⟩
def R.CAL.CTL.HOLD : Fld := ⟨0xa0000, 1, 1⟩
def R.CAL.CTL.DELTA_T : Fld := ⟨0xa0000, 8, 5⟩
def R.CAL.CTL.STEP_US : Fld := ⟨0xa0000, 16, 10⟩
def R.CAL.MAX_INT.S : Fld := ⟨0xa0004, 0, 16⟩
def R.CAL.CMD.TARGET : Fld := ⟨0xa0008, 0, 6⟩
def R.CAL.CMD.RUN : Fld := ⟨0xa0008, 8, 1⟩
def R.CAL.BUSY.BUSY : Fld := ⟨0xa000c, 0, 1⟩
def R.CAL.STATUS.SEQ : Fld := ⟨0xa0010, 24, 8⟩
def R.CAL.STATUS.LIMIT : Fld := ⟨0xa0010, 10, 1⟩
def R.CAL.STATUS.RES_FAULT : Fld := ⟨0xa0010, 9, 1⟩
def R.CAL.STATUS.RUN_DONE : Fld := ⟨0xa0010, 8, 1⟩
def R.CAL.STATUS.ACTIVE : Fld := ⟨0xa0010, 0, 6⟩
def R.CAL.RES_MEAS.I : Fld := ⟨0xa0014, 0, 16⟩
def R.CAL.CODE.ABCD (i : Nat) : Fld := ⟨0xa0100 + 0x10 * i, 0, 32⟩
def R.CAL.TGT.ABCD (i : Nat) : Fld := ⟨0xa0104 + 0x10 * i, 0, 32⟩
def R.CAL.INFO.T_LAST (i : Nat) : Fld := ⟨0xa0108 + 0x10 * i, 0, 16⟩
def R.CAL.INFO.RUNS (i : Nat) : Fld := ⟨0xa0108 + 0x10 * i, 16, 16⟩
def R.RAS.CTL.GG_AUTO : Fld := ⟨0xc0000, 0, 1⟩
def R.RAS.CTL.LTH_AUTO : Fld := ⟨0xc0000, 1, 1⟩
def R.RAS.CTL.DOM_RESTART : Fld := ⟨0xc0000, 2, 1⟩
def R.RAS.CTL.SRAM_AUTO : Fld := ⟨0xc0000, 3, 1⟩
def R.RAS.CTL.SRAM_CE_ROW : Fld := ⟨0xc0000, 8, 8⟩
def R.RAS.STATUS.SEQ : Fld := ⟨0xc0004, 24, 8⟩
def R.RAS.STATUS.T_CORR : Fld := ⟨0xc0004, 19, 1⟩
def R.RAS.STATUS.MAP_FULL : Fld := ⟨0xc0004, 18, 1⟩
def R.RAS.STATUS.T_LOST : Fld := ⟨0xc0004, 17, 1⟩
def R.RAS.STATUS.NVM_FAIL : Fld := ⟨0xc0004, 16, 1⟩
def R.RAS.STATUS.REF_SWITCH : Fld := ⟨0xc0004, 15, 1⟩
def R.RAS.STATUS.LOCKSTEP : Fld := ⟨0xc0004, 14, 1⟩
def R.RAS.STATUS.SRAM_EXHAUST : Fld := ⟨0xc0004, 13, 1⟩
def R.RAS.STATUS.SRAM_REPAIR : Fld := ⟨0xc0004, 12, 1⟩
def R.RAS.STATUS.GRP_RESTART : Fld := ⟨0xc0004, 11, 1⟩
def R.RAS.STATUS.LTH_MOVED : Fld := ⟨0xc0004, 10, 1⟩
def R.RAS.STATUS.MIG_FAIL : Fld := ⟨0xc0004, 9, 1⟩
def R.RAS.STATUS.MIGRATED : Fld := ⟨0xc0004, 8, 1⟩
def R.RAS.SPARES.GG_FREE : Fld := ⟨0xc0008, 0, 8⟩
def R.RAS.SPARES.GG_RETIRED : Fld := ⟨0xc0008, 8, 8⟩
def R.RAS.SPARES.LTH_RETIRED : Fld := ⟨0xc0008, 16, 8⟩
def R.RAS.SPARES.GRP_RETIRED : Fld := ⟨0xc0008, 24, 8⟩
def R.RAS.ALERT_MASK.MASK : Fld := ⟨0xc000c, 0, 12⟩
def R.RAS.TEST.INDEX : Fld := ⟨0xc0010, 0, 8⟩
def R.RAS.TEST.KIND : Fld := ⟨0xc0010, 8, 3⟩
def R.RAS.TEST.GO : Fld := ⟨0xc0010, 16, 1⟩
def R.RAS.MIG_INFO.KIND : Fld := ⟨0xc0020, 0, 4⟩
def R.RAS.MIG_INFO.FROM : Fld := ⟨0xc0020, 8, 8⟩
def R.RAS.MIG_INFO.TO : Fld := ⟨0xc0020, 16, 8⟩
def R.RAS.MIG_INFO.UNIT : Fld := ⟨0xc0020, 24, 8⟩
def R.RAS.MIG_CUT.LSN : Fld := ⟨0xc0024, 0, 32⟩
def R.RAS.MIG_DT.DT : Fld := ⟨0xc0028, 0, 64⟩
def R.RAS.MIG_RESUME.DT : Fld := ⟨0xc0030, 0, 64⟩
def R.RAS.MIG_REPLAY.COUNT : Fld := ⟨0xc0038, 0, 32⟩
def R.RAS.MAP_INFO.ENTRIES : Fld := ⟨0xc0040, 0, 11⟩
def R.RAS.MAP_INFO.A_OK : Fld := ⟨0xc0040, 16, 1⟩
def R.RAS.MAP_INFO.B_OK : Fld := ⟨0xc0040, 17, 1⟩
def R.RAS.STAT.COUNT (i : Nat) : Fld := ⟨0xc0100 + 0x4 * i, 0, 32⟩
def R.RAS.PLACE.GOUGE (i : Nat) : Fld := ⟨0xc1000 + 0x4 * i, 0, 8⟩
def R.RAS.PLACE.VALID (i : Nat) : Fld := ⟨0xc1000 + 0x4 * i, 31, 1⟩
def R.TIM.DT.DT : Fld := ⟨0x100000, 0, 64⟩
def R.TIM.DT_EPOCH.EPOCH : Fld := ⟨0x100008, 0, 32⟩
def R.TIM.DT_QUAL.QUAL : Fld := ⟨0x10000c, 0, 2⟩
def R.TIM.DT_QUAL.REF_B : Fld := ⟨0x10000c, 2, 1⟩
def R.TIM.DT_TRIM.PPB : Fld := ⟨0x100010, 0, 32⟩
def R.TIM.DT_LOAD.VALUE : Fld := ⟨0x100018, 0, 64⟩
def R.TIM.DT_LOAD_CTL.EN : Fld := ⟨0x100020, 0, 1⟩
def R.TIM.DT_LOAD_EPOCH.EPOCH : Fld := ⟨0x100024, 0, 32⟩
def R.TIM.PTM_CTL.PERIOD_MS : Fld := ⟨0x100040, 0, 10⟩
def R.TIM.PTM_CTL.EN : Fld := ⟨0x100040, 31, 1⟩
def R.TIM.PTM_CMD.NOW : Fld := ⟨0x100044, 0, 1⟩
def R.TIM.PTM_STATUS.SEQ : Fld := ⟨0x100048, 24, 8⟩
def R.TIM.PTM_STATUS.UNAVAIL : Fld := ⟨0x100048, 2, 1⟩
def R.TIM.PTM_STATUS.TIMEOUT : Fld := ⟨0x100048, 1, 1⟩
def R.TIM.PTM_STATUS.NEW : Fld := ⟨0x100048, 0, 1⟩
def R.TIM.PTM_DELAY.NS : Fld := ⟨0x10004c, 0, 32⟩
def R.TIM.PTM_DT.DT : Fld := ⟨0x100050, 0, 64⟩
def R.TIM.PTM_HT.HT : Fld := ⟨0x100058, 0, 64⟩
def R.TIM.SEG_CTL.EN (i : Nat) : Fld := ⟨0x100100 + 0x20 * i, 0, 1⟩
def R.TIM.SEG_CTL.SYNC_N (i : Nat) : Fld := ⟨0x100100 + 0x20 * i, 1, 3⟩
def R.TIM.SEG_CTL.PRIO1 (i : Nat) : Fld := ⟨0x100100 + 0x20 * i, 8, 8⟩
def R.TIM.SEG_CTL.PRIO2 (i : Nat) : Fld := ⟨0x100100 + 0x20 * i, 16, 8⟩
def R.TIM.SEG_ASYM.PS (i : Nat) : Fld := ⟨0x100104 + 0x20 * i, 0, 32⟩
def R.TIM.SEG_STATUS.SEQ (i : Nat) : Fld := ⟨0x100108 + 0x20 * i, 24, 8⟩
def R.TIM.SEG_STATUS.FOREIGN (i : Nat) : Fld := ⟨0x100108 + 0x20 * i, 0, 1⟩
def R.TIM.ENC_CTL.Z_MODE (i : Nat) : Fld := ⟨0x100200 + 0x40 * i, 0, 2⟩
def R.TIM.ENC_CTL.INV (i : Nat) : Fld := ⟨0x100200 + 0x40 * i, 2, 1⟩
def R.TIM.ENC_CTL.FILT (i : Nat) : Fld := ⟨0x100200 + 0x40 * i, 8, 8⟩
def R.TIM.ENC_PRESET.VALUE (i : Nat) : Fld := ⟨0x100208 + 0x40 * i, 0, 48⟩
def R.TIM.ENC_SP.SP (i : Nat) : Fld := ⟨0x100210 + 0x40 * i, 0, 64⟩
def R.TIM.ENC_ZCAP.SP (i : Nat) : Fld := ⟨0x100218 + 0x40 * i, 0, 64⟩
def R.TIM.ENC_STATUS.SEQ (i : Nat) : Fld := ⟨0x100220 + 0x40 * i, 24, 8⟩
def R.TIM.ENC_STATUS.GAP (i : Nat) : Fld := ⟨0x100220 + 0x40 * i, 2, 1⟩
def R.TIM.ENC_STATUS.Z_SEEN (i : Nat) : Fld := ⟨0x100220 + 0x40 * i, 1, 1⟩
def R.TIM.ENC_STATUS.ILLEGAL (i : Nat) : Fld := ⟨0x100220 + 0x40 * i, 0, 1⟩
def R.TIM.TG_CTL.MODE (i : Nat) : Fld := ⟨0x100400 + 0x40 * i, 0, 2⟩
def R.TIM.TG_CTL.ENC (i : Nat) : Fld := ⟨0x100400 + 0x40 * i, 2, 1⟩
def R.TIM.TG_CTL.DIR (i : Nat) : Fld := ⟨0x100400 + 0x40 * i, 3, 1⟩
def R.TIM.TG_CTL.EVT (i : Nat) : Fld := ⟨0x100400 + 0x40 * i, 4, 3⟩
def R.TIM.TG_CTL.LEAD_NS (i : Nat) : Fld := ⟨0x100400 + 0x40 * i, 16, 16⟩
def R.TIM.TG_PERIOD.PERIOD (i : Nat) : Fld := ⟨0x100408 + 0x40 * i, 0, 48⟩
def R.TIM.TG_PITCH.PITCH (i : Nat) : Fld := ⟨0x100410 + 0x40 * i, 0, 32⟩
def R.TIM.TG_MIN.NS (i : Nat) : Fld := ⟨0x100414 + 0x40 * i, 0, 32⟩
def R.TIM.TG_START.S (i : Nat) : Fld := ⟨0x100418 + 0x40 * i, 0, 64⟩
def R.TIM.TG_LSN.LSN (i : Nat) : Fld := ⟨0x100420 + 0x40 * i, 0, 32⟩
def R.TIM.TG_STATUS.SEQ (i : Nat) : Fld := ⟨0x100424 + 0x40 * i, 24, 8⟩
def R.TIM.TG_STATUS.PORT_LATE (i : Nat) : Fld := ⟨0x100424 + 0x40 * i, 1, 1⟩
def R.TIM.TG_STATUS.DROP (i : Nat) : Fld := ⟨0x100424 + 0x40 * i, 0, 1⟩
def R.TIM.TG_LAST.E (i : Nat) : Fld := ⟨0x100428 + 0x40 * i, 0, 64⟩
def R.TIM.TG_DROPS.COUNT (i : Nat) : Fld := ⟨0x100430 + 0x40 * i, 0, 32⟩
def R.TIM.PT_CTL.TG (i : Nat) : Fld := ⟨0x100600 + 0x10 * i, 0, 2⟩
def R.TIM.PT_CTL.DL_EN (i : Nat) : Fld := ⟨0x100600 + 0x10 * i, 2, 1⟩
def R.TIM.PT_CTL.PIN_EN (i : Nat) : Fld := ⟨0x100600 + 0x10 * i, 3, 1⟩
def R.TIM.PT_CTL.POL (i : Nat) : Fld := ⟨0x100600 + 0x10 * i, 4, 1⟩
def R.TIM.PT_CTL.WIDTH (i : Nat) : Fld := ⟨0x100600 + 0x10 * i, 8, 8⟩
def R.TIM.PT_CTL.OFS (i : Nat) : Fld := ⟨0x100600 + 0x10 * i, 16, 16⟩
def R.TIM.PT_DLASYM.PS (i : Nat) : Fld := ⟨0x100604 + 0x10 * i, 0, 32⟩
def R.TIM.PT_DELAY.PS (i : Nat) : Fld := ⟨0x100608 + 0x10 * i, 0, 32⟩
def R.TIM.COMP_BLOCK.LINES : Fld := ⟨0x100700, 0, 17⟩
def R.TIM.BATCH_CTL.END : Fld := ⟨0x100704, 0, 1⟩
def R.TIM.BATCH_CTL.SP_EN : Fld := ⟨0x100704, 1, 1⟩
def R.TIM.BATCH_CTL.SP_ENC : Fld := ⟨0x100704, 2, 1⟩
def R.TIM.BATCH_CTL.EVT : Fld := ⟨0x100704, 4, 3⟩
def R.TIM.BATCH_CTL.EVT_EN : Fld := ⟨0x100704, 7, 1⟩
def R.TIM.BATCH_POS.SP : Fld := ⟨0x100708, 0, 48⟩
def R.TIM.BATCH_STATUS.SEQ : Fld := ⟨0x100710, 24, 8⟩
def R.TIM.BATCH_STATUS.NEW : Fld := ⟨0x100710, 16, 1⟩
def R.TIM.BATCH_STATUS.NUMBER : Fld := ⟨0x100710, 0, 16⟩
def R.TIM.CMP_CTL.EN (i : Nat) : Fld := ⟨0x101000 + 0x20 * i, 0, 1⟩
def R.TIM.CMP_CTL.ACTION (i : Nat) : Fld := ⟨0x101000 + 0x20 * i, 1, 3⟩
def R.TIM.CMP_CTL.POL (i : Nat) : Fld := ⟨0x101000 + 0x20 * i, 5, 1⟩
def R.TIM.CMP_CTL.WIDTH (i : Nat) : Fld := ⟨0x101000 + 0x20 * i, 8, 8⟩
def R.TIM.CMP_STATUS.SEQ (i : Nat) : Fld := ⟨0x101004 + 0x20 * i, 24, 8⟩
def R.TIM.CMP_STATUS.MISSED (i : Nat) : Fld := ⟨0x101004 + 0x20 * i, 8, 16⟩
def R.TIM.CMP_STATUS.PREEMPT (i : Nat) : Fld := ⟨0x101004 + 0x20 * i, 2, 1⟩
def R.TIM.CMP_STATUS.LATE (i : Nat) : Fld := ⟨0x101004 + 0x20 * i, 1, 1⟩
def R.TIM.CMP_STATUS.FIRED (i : Nat) : Fld := ⟨0x101004 + 0x20 * i, 0, 1⟩
def R.TIM.CMP_TIME.T (i : Nat) : Fld := ⟨0x101008 + 0x20 * i, 0, 64⟩
def R.TIM.CMP_PERIOD.P (i : Nat) : Fld := ⟨0x101010 + 0x20 * i, 0, 64⟩
def R.TIM.EVT_CTL.EDGE (i : Nat) : Fld := ⟨0x102000 + 0x40 * i, 0, 2⟩
def R.TIM.EVT_CTL.FILT (i : Nat) : Fld := ⟨0x102000 + 0x40 * i, 8, 8⟩
def R.TIM.EVT_CMD.POP (i : Nat) : Fld := ⟨0x102004 + 0x40 * i, 0, 1⟩
def R.TIM.EVT_STATUS.SEQ (i : Nat) : Fld := ⟨0x102008 + 0x40 * i, 24, 8⟩
def R.TIM.EVT_STATUS.LEVEL (i : Nat) : Fld := ⟨0x102008 + 0x40 * i, 16, 5⟩
def R.TIM.EVT_STATUS.EDGE (i : Nat) : Fld := ⟨0x102008 + 0x40 * i, 2, 1⟩
def R.TIM.EVT_STATUS.VALID (i : Nat) : Fld := ⟨0x102008 + 0x40 * i, 1, 1⟩
def R.TIM.EVT_STATUS.OVF (i : Nat) : Fld := ⟨0x102008 + 0x40 * i, 0, 1⟩
def R.TIM.EVT_DT.DT (i : Nat) : Fld := ⟨0x102010 + 0x40 * i, 0, 64⟩
def R.TIM.EVT_SP0.SP (i : Nat) : Fld := ⟨0x102018 + 0x40 * i, 0, 64⟩
def R.TIM.EVT_SP1.SP (i : Nat) : Fld := ⟨0x102020 + 0x40 * i, 0, 64⟩
def R.LNE.CTL.EN (l : Nat) : Fld := ⟨0x200000 + 0x4000 * l, 0, 1⟩
def R.LNE.CTL.RATE (l : Nat) : Fld := ⟨0x200000 + 0x4000 * l, 1, 2⟩
def R.LNE.CTL.RX_INV (l : Nat) : Fld := ⟨0x200000 + 0x4000 * l, 3, 1⟩
def R.LNE.CTL.TX_INV (l : Nat) : Fld := ⟨0x200000 + 0x4000 * l, 4, 1⟩
def R.LNE.CTL.FREEZE (l : Nat) : Fld := ⟨0x200000 + 0x4000 * l, 5, 1⟩
def R.LNE.CTL.CTLE_FIX (l : Nat) : Fld := ⟨0x200000 + 0x4000 * l, 6, 1⟩
def R.LNE.CTL.CTLE_CODE (l : Nat) : Fld := ⟨0x200000 + 0x4000 * l, 8, 4⟩
def R.LNE.CTL.LPBK (l : Nat) : Fld := ⟨0x200000 + 0x4000 * l, 12, 3⟩
def R.LNE.CMD.RETRAIN (l : Nat) : Fld := ⟨0x200004 + 0x4000 * l, 0, 1⟩
def R.LNE.CMD.RESTORE (l : Nat) : Fld := ⟨0x200004 + 0x4000 * l, 1, 1⟩
def R.LNE.CMD.REMOVE (l : Nat) : Fld := ⟨0x200004 + 0x4000 * l, 2, 1⟩
def R.LNE.STATUS.SEQ (l : Nat) : Fld := ⟨0x200008 + 0x4000 * l, 24, 8⟩
def R.LNE.STATUS.PLL_UNLOCK (l : Nat) : Fld := ⟨0x200008 + 0x4000 * l, 14, 1⟩
def R.LNE.STATUS.RESTORED (l : Nat) : Fld := ⟨0x200008 + 0x4000 * l, 13, 1⟩
def R.LNE.STATUS.REMOVED (l : Nat) : Fld := ⟨0x200008 + 0x4000 * l, 12, 1⟩
def R.LNE.STATUS.SKEW_LIMIT (l : Nat) : Fld := ⟨0x200008 + 0x4000 * l, 11, 1⟩
def R.LNE.STATUS.BER_HIGH (l : Nat) : Fld := ⟨0x200008 + 0x4000 * l, 10, 1⟩
def R.LNE.STATUS.ALIGN_LOST (l : Nat) : Fld := ⟨0x200008 + 0x4000 * l, 9, 1⟩
def R.LNE.STATUS.LOCK_LOST (l : Nat) : Fld := ⟨0x200008 + 0x4000 * l, 8, 1⟩
def R.LNE.STATUS.STATE (l : Nat) : Fld := ⟨0x200008 + 0x4000 * l, 0, 4⟩
def R.LNE.EQ_CTLE.CODE (l : Nat) : Fld := ⟨0x200010 + 0x4000 * l, 0, 4⟩
def R.LNE.EQ_DFE.TAPS (l : Nat) : Fld := ⟨0x200014 + 0x4000 * l, 0, 30⟩
def R.LNE.TXFIR.PRE (l : Nat) : Fld := ⟨0x200018 + 0x4000 * l, 0, 5⟩
def R.LNE.TXFIR.MAIN (l : Nat) : Fld := ⟨0x200018 + 0x4000 * l, 8, 6⟩
def R.LNE.TXFIR.POST (l : Nat) : Fld := ⟨0x200018 + 0x4000 * l, 16, 5⟩
def R.LNE.ALIGN.SKEW (l : Nat) : Fld := ⟨0x20001c + 0x4000 * l, 0, 4⟩
def R.LNE.ALIGN.LOGICAL (l : Nat) : Fld := ⟨0x20001c + 0x4000 * l, 8, 2⟩
def R.LNE.ALIGN.AM_COUNT (l : Nat) : Fld := ⟨0x20001c + 0x4000 * l, 16, 16⟩
def R.LNE.ERR_HDR.COUNT (l : Nat) : Fld := ⟨0x200020 + 0x4000 * l, 0, 32⟩
def R.LNE.ERR_BIP.COUNT (l : Nat) : Fld := ⟨0x200024 + 0x4000 * l, 0, 32⟩
def R.LNE.ERR_AM.COUNT (l : Nat) : Fld := ⟨0x200028 + 0x4000 * l, 0, 32⟩
def R.LNE.EYE.MARGIN (l : Nat) : Fld := ⟨0x20002c + 0x4000 * l, 0, 6⟩
def R.LNE.PAT_CTL.PMA_GEN (l : Nat) : Fld := ⟨0x200030 + 0x4000 * l, 0, 2⟩
def R.LNE.PAT_CTL.PMA_CHK (l : Nat) : Fld := ⟨0x200030 + 0x4000 * l, 2, 2⟩
def R.LNE.PAT_CTL.PCS_GEN (l : Nat) : Fld := ⟨0x200030 + 0x4000 * l, 4, 3⟩
def R.LNE.PAT_CTL.PCS_CHK (l : Nat) : Fld := ⟨0x200030 + 0x4000 * l, 8, 3⟩
def R.LNE.PAT_STATUS.SEQ (l : Nat) : Fld := ⟨0x200034 + 0x4000 * l, 24, 8⟩
def R.LNE.PAT_STATUS.LOCK_LOST (l : Nat) : Fld := ⟨0x200034 + 0x4000 * l, 1, 1⟩
def R.LNE.PAT_STATUS.LOCK (l : Nat) : Fld := ⟨0x200034 + 0x4000 * l, 0, 1⟩
def R.LNE.PAT_ERR.COUNT (l : Nat) : Fld := ⟨0x200038 + 0x4000 * l, 0, 32⟩
def R.LNE.PAT_BITS.COUNT (l : Nat) : Fld := ⟨0x200040 + 0x4000 * l, 0, 48⟩
def R.LNE.INJ.KIND (l : Nat) : Fld := ⟨0x200048 + 0x4000 * l, 0, 3⟩
def R.LNE.INJ.ONCE (l : Nat) : Fld := ⟨0x200048 + 0x4000 * l, 3, 1⟩
def R.LNE.INJ.INTERVAL (l : Nat) : Fld := ⟨0x200048 + 0x4000 * l, 8, 20⟩
def R.LNE.DEG_CTL.CONFIRM_US (l : Nat) : Fld := ⟨0x200050 + 0x4000 * l, 0, 8⟩
def R.LNE.DEG_CTL.AUTO (l : Nat) : Fld := ⟨0x200050 + 0x4000 * l, 8, 1⟩
def R.LNE.DEG_CTL.BER_LIMIT (l : Nat) : Fld := ⟨0x200050 + 0x4000 * l, 16, 8⟩
def R.LNE.DEG_CTL.EYE_TGT (l : Nat) : Fld := ⟨0x200050 + 0x4000 * l, 24, 6⟩
def R.EKL.CTL.EN (p : Nat) : Fld := ⟨0x300000 + 0x10000 * p, 0, 1⟩
def R.EKL.CTL.ROUTE (p : Nat) : Fld := ⟨0x300000 + 0x10000 * p, 1, 2⟩
def R.EKL.CTL.HOME (p : Nat) : Fld := ⟨0x300000 + 0x10000 * p, 4, 3⟩
def R.EKL.CTL.RING_RGN (p : Nat) : Fld := ⟨0x300000 + 0x10000 * p, 8, 6⟩
def R.EKL.CTL.LANES (p : Nat) : Fld := ⟨0x300000 + 0x10000 * p, 16, 4⟩
def R.EKL.CTL.AUTO_RELINK (p : Nat) : Fld := ⟨0x300000 + 0x10000 * p, 20, 1⟩
def R.EKL.CTL.CRC_POL (p : Nat) : Fld := ⟨0x300000 + 0x10000 * p, 21, 1⟩
def R.EKL.CTL.BLK_DOWN (p : Nat) : Fld := ⟨0x300000 + 0x10000 * p, 22, 1⟩
def R.EKL.CMD.RELINK (p : Nat) : Fld := ⟨0x300004 + 0x10000 * p, 0, 1⟩
def R.EKL.CMD.HOLD (p : Nat) : Fld := ⟨0x300004 + 0x10000 * p, 1, 1⟩
def R.EKL.STATUS.SEQ (p : Nat) : Fld := ⟨0x300008 + 0x10000 * p, 24, 8⟩
def R.EKL.STATUS.CAM_FAULT (p : Nat) : Fld := ⟨0x300008 + 0x10000 * p, 13, 1⟩
def R.EKL.STATUS.STAT_TO (p : Nat) : Fld := ⟨0x300008 + 0x10000 * p, 12, 1⟩
def R.EKL.STATUS.BLK_FAULT (p : Nat) : Fld := ⟨0x300008 + 0x10000 * p, 11, 1⟩
def R.EKL.STATUS.RING_OVR (p : Nat) : Fld := ⟨0x300008 + 0x10000 * p, 10, 1⟩
def R.EKL.STATUS.UP (p : Nat) : Fld := ⟨0x300008 + 0x10000 * p, 9, 1⟩
def R.EKL.STATUS.DOWN (p : Nat) : Fld := ⟨0x300008 + 0x10000 * p, 8, 1⟩
def R.EKL.STATUS.ROUTE_ACT (p : Nat) : Fld := ⟨0x300008 + 0x10000 * p, 6, 2⟩
def R.EKL.STATUS.STATE (p : Nat) : Fld := ⟨0x300008 + 0x10000 * p, 0, 4⟩
def R.EKL.DOWN_CAUSE.CAUSE (p : Nat) : Fld := ⟨0x30000c + 0x10000 * p, 0, 4⟩
def R.EKL.BLOCK.LINES (p : Nat) : Fld := ⟨0x300010 + 0x10000 * p, 0, 17⟩
def R.EKL.BLOCK.MISS_MAX (p : Nat) : Fld := ⟨0x300010 + 0x10000 * p, 24, 8⟩
def R.EKL.LINE_TO.NS (p : Nat) : Fld := ⟨0x300014 + 0x10000 * p, 0, 20⟩
def R.EKL.EXP_TOL.NS (p : Nat) : Fld := ⟨0x300018 + 0x10000 * p, 0, 16⟩
def R.EKL.TIME_CTL.TS_MS (p : Nat) : Fld := ⟨0x30001c + 0x10000 * p, 0, 4⟩
def R.EKL.TIME_CTL.ECHO_MS (p : Nat) : Fld := ⟨0x30001c + 0x10000 * p, 8, 8⟩
def R.EKL.PLANE_CTL.EN (p i : Nat) : Fld := ⟨0x300020 + 0x10000 * p + 0x8 * i, 0, 1⟩
def R.EKL.PLANE_CTL.VC (p i : Nat) : Fld := ⟨0x300020 + 0x10000 * p + 0x8 * i, 4, 4⟩
def R.EKL.PLANE_CTL.DTYPE (p i : Nat) : Fld := ⟨0x300020 + 0x10000 * p + 0x8 * i, 8, 6⟩
def R.EKL.PLANE_CTL.WIDTH (p i : Nat) : Fld := ⟨0x300020 + 0x10000 * p + 0x8 * i, 16, 15⟩
def R.EKL.PLANE_BG.VALUE (p i : Nat) : Fld := ⟨0x300024 + 0x10000 * p + 0x8 * i, 0, 16⟩
def R.EKL.CREG_ADDR.ADDR (p i : Nat) : Fld := ⟨0x300040 + 0x10000 * p + 0x10 * i, 0, 32⟩
def R.EKL.CREG_DATA.DATA (p i : Nat) : Fld := ⟨0x300044 + 0x10000 * p + 0x10 * i, 0, 32⟩
def R.EKL.CREG_CMD.RD (p i : Nat) : Fld := ⟨0x300048 + 0x10000 * p + 0x10 * i, 0, 1⟩
def R.EKL.CREG_CMD.WR (p i : Nat) : Fld := ⟨0x300048 + 0x10000 * p + 0x10 * i, 1, 1⟩
def R.EKL.CREG_STATUS.SEQ (p i : Nat) : Fld := ⟨0x30004c + 0x10000 * p + 0x10 * i, 24, 8⟩
def R.EKL.CREG_STATUS.RESP (p i : Nat) : Fld := ⟨0x30004c + 0x10000 * p + 0x10 * i, 8, 4⟩
def R.EKL.CREG_STATUS.TIMEOUT (p i : Nat) : Fld := ⟨0x30004c + 0x10000 * p + 0x10 * i, 2, 1⟩
def R.EKL.CREG_STATUS.DONE (p i : Nat) : Fld := ⟨0x30004c + 0x10000 * p + 0x10 * i, 1, 1⟩
def R.EKL.CREG_STATUS.BUSY (p i : Nat) : Fld := ⟨0x30004c + 0x10000 * p + 0x10 * i, 0, 1⟩
def R.EKL.LAST_LSN.LSN (p : Nat) : Fld := ⟨0x300080 + 0x10000 * p, 0, 32⟩
def R.EKL.LAST_DT.DT (p : Nat) : Fld := ⟨0x300088 + 0x10000 * p, 0, 64⟩
def R.EKL.RING_WR.SLOT (p : Nat) : Fld := ⟨0x300090 + 0x10000 * p, 0, 32⟩
def R.EKL.RING_RD.SLOT (p : Nat) : Fld := ⟨0x300094 + 0x10000 * p, 0, 32⟩
def R.EKL.STAT.COUNT (p i : Nat) : Fld := ⟨0x300100 + 0x10000 * p + 0x4 * i, 0, 32⟩
def R.EKL.CAM_UNLOCKED.COUNT (p : Nat) : Fld := ⟨0x300140 + 0x10000 * p, 0, 32⟩
def R.EKL.META_INFO.LENGTH (p : Nat) : Fld := ⟨0x300200 + 0x10000 * p, 0, 16⟩
def R.EKL.META_LINE.LINE (p : Nat) : Fld := ⟨0x300204 + 0x10000 * p, 0, 32⟩
def R.EKL.CAMSTAT_INFO.AGE_US (p : Nat) : Fld := ⟨0x300210 + 0x10000 * p, 0, 32⟩
def R.LTH.CTL.EN (n : Nat) : Fld := ⟨0x400000 + 0x80000 * n, 0, 1⟩
def R.LTH.CTL.CLK_GATE (n : Nat) : Fld := ⟨0x400000 + 0x80000 * n, 1, 1⟩
def R.LTH.STATUS.SEQ (n : Nat) : Fld := ⟨0x400004 + 0x80000 * n, 24, 8⟩
def R.LTH.STATUS.TAP_DROP (n : Nat) : Fld := ⟨0x400004 + 0x80000 * n, 10, 1⟩
def R.LTH.STATUS.ST_FAIL (n : Nat) : Fld := ⟨0x400004 + 0x80000 * n, 9, 1⟩
def R.LTH.STATUS.SRAM_UE (n : Nat) : Fld := ⟨0x400004 + 0x80000 * n, 8, 1⟩
def R.LTH.STATUS.STATE (n : Nat) : Fld := ⟨0x400004 + 0x80000 * n, 0, 3⟩
def R.LTH.GSCHED.SKIP_NS (n : Nat) : Fld := ⟨0x400008 + 0x80000 * n, 0, 20⟩
def R.LTH.TAP_CTL.EN (n : Nat) : Fld := ⟨0x40000c + 0x80000 * n, 0, 1⟩
def R.LTH.TAP_CTL.TAP (n : Nat) : Fld := ⟨0x40000c + 0x80000 * n, 1, 2⟩
def R.LTH.TAP_CTL.CTX (n : Nat) : Fld := ⟨0x40000c + 0x80000 * n, 4, 3⟩
def R.LTH.TAP_CTL.DECIM (n : Nat) : Fld := ⟨0x40000c + 0x80000 * n, 8, 8⟩
def R.LTH.TAP_CTL.DMA_CH (n : Nat) : Fld := ⟨0x40000c + 0x80000 * n, 16, 5⟩
def R.LTH.TBL_SEL.CTX (n : Nat) : Fld := ⟨0x400010 + 0x80000 * n, 0, 2⟩
def R.LTH.TBL_SEL.PLANE (n : Nat) : Fld := ⟨0x400010 + 0x80000 * n, 4, 2⟩
def R.LTH.TBL_SEL.PAGE (n : Nat) : Fld := ⟨0x400010 + 0x80000 * n, 8, 3⟩
def R.LTH.TBL_SEL.BANK (n : Nat) : Fld := ⟨0x400010 + 0x80000 * n, 12, 1⟩
def R.LTH.TAP_DROPS.COUNT (n : Nat) : Fld := ⟨0x400014 + 0x80000 * n, 0, 32⟩
def R.LTH.ST_COUNT.COUNT (n : Nat) : Fld := ⟨0x400018 + 0x80000 * n, 0, 32⟩
def R.LTH.LOAD.LOAD (n : Nat) : Fld := ⟨0x40001c + 0x80000 * n, 0, 16⟩
def R.LTH.CTX_CTL.EN (n i : Nat) : Fld := ⟨0x400100 + 0x80000 * n + 0x80 * i, 0, 1⟩
def R.LTH.CTX_CTL.STANDBY (n i : Nat) : Fld := ⟨0x400100 + 0x80000 * n + 0x80 * i, 1, 1⟩
def R.LTH.CTX_CTL.PORT (n i : Nat) : Fld := ⟨0x400100 + 0x80000 * n + 0x80 * i, 4, 4⟩
def R.LTH.CTX_CTL.ACTIVE (n i : Nat) : Fld := ⟨0x400100 + 0x80000 * n + 0x80 * i, 8, 1⟩
def R.LTH.CTX_SHARE.FIRST (n i : Nat) : Fld := ⟨0x400104 + 0x80000 * n + 0x80 * i, 0, 14⟩
def R.LTH.CTX_SHARE.COUNT (n i : Nat) : Fld := ⟨0x400104 + 0x80000 * n + 0x80 * i, 16, 15⟩
def R.LTH.CTX_POOL.BASE (n i : Nat) : Fld := ⟨0x400108 + 0x80000 * n + 0x80 * i, 0, 17⟩
def R.LTH.CTX_LEN.LEN (n i : Nat) : Fld := ⟨0x40010c + 0x80000 * n + 0x80 * i, 0, 18⟩
def R.LTH.CTX_LEN.OVER (n i : Nat) : Fld := ⟨0x40010c + 0x80000 * n + 0x80 * i, 31, 1⟩
def R.LTH.NR_CTL.STRENGTH (n i : Nat) : Fld := ⟨0x400110 + 0x80000 * n + 0x80 * i, 0, 12⟩
def R.LTH.NR_CTL.TIME_EN (n i : Nat) : Fld := ⟨0x400110 + 0x80000 * n + 0x80 * i, 12, 1⟩
def R.LTH.NR_CTL.FILL_EN (n i : Nat) : Fld := ⟨0x400110 + 0x80000 * n + 0x80 * i, 13, 1⟩
def R.LTH.NR_W.W (n i : Nat) : Fld := ⟨0x400118 + 0x80000 * n + 0x80 * i, 0, 60⟩
def R.LTH.TRK_CTL.MODE (n i : Nat) : Fld := ⟨0x400120 + 0x80000 * n + 0x80 * i, 0, 2⟩
def R.LTH.TRK_CTL.TOL (n i : Nat) : Fld := ⟨0x400120 + 0x80000 * n + 0x80 * i, 4, 12⟩
def R.LTH.TRK_CTL.SLEW (n i : Nat) : Fld := ⟨0x400120 + 0x80000 * n + 0x80 * i, 16, 8⟩
def R.LTH.TRK_CTL.MINCNT (n i : Nat) : Fld := ⟨0x400120 + 0x80000 * n + 0x80 * i, 24, 8⟩
def R.LTH.TRK_WIN.LINES (n i : Nat) : Fld := ⟨0x400124 + 0x80000 * n + 0x80 * i, 0, 17⟩
def R.LTH.TRK_WIN.CMP (n i : Nat) : Fld := ⟨0x400124 + 0x80000 * n + 0x80 * i, 20, 4⟩
def R.LTH.LIN_CTL.EN (n i : Nat) : Fld := ⟨0x400128 + 0x80000 * n + 0x80 * i, 0, 4⟩
def R.LTH.BIN_CTL.BIN (n i : Nat) : Fld := ⟨0x40012c + 0x80000 * n + 0x80 * i, 0, 8⟩
def R.LTH.BIN_CTL.MODE (n i : Nat) : Fld := ⟨0x40012c + 0x80000 * n + 0x80 * i, 8, 1⟩
def R.LTH.TBL_CTL.SWAP (n i : Nat) : Fld := ⟨0x400130 + 0x80000 * n + 0x80 * i, 0, 1⟩
def R.LTH.TBL_CTL.COPY (n i : Nat) : Fld := ⟨0x400130 + 0x80000 * n + 0x80 * i, 1, 1⟩
def R.LTH.TBL_CTL.PEND (n i : Nat) : Fld := ⟨0x400130 + 0x80000 * n + 0x80 * i, 8, 1⟩
def R.LTH.TBL_CTL.COPY_BUSY (n i : Nat) : Fld := ⟨0x400130 + 0x80000 * n + 0x80 * i, 9, 1⟩
def R.LTH.CTX_STATUS.SEQ (n i : Nat) : Fld := ⟨0x400134 + 0x80000 * n + 0x80 * i, 24, 8⟩
def R.LTH.CTX_STATUS.LATE (n i : Nat) : Fld := ⟨0x400134 + 0x80000 * n + 0x80 * i, 4, 1⟩
def R.LTH.CTX_STATUS.TRK_MISS (n i : Nat) : Fld := ⟨0x400134 + 0x80000 * n + 0x80 * i, 3, 1⟩
def R.LTH.CTX_STATUS.POISON (n i : Nat) : Fld := ⟨0x400134 + 0x80000 * n + 0x80 * i, 2, 1⟩
def R.LTH.CTX_STATUS.HDR_CRC (n i : Nat) : Fld := ⟨0x400134 + 0x80000 * n + 0x80 * i, 1, 1⟩
def R.LTH.CTX_STATUS.SKIP (n i : Nat) : Fld := ⟨0x400134 + 0x80000 * n + 0x80 * i, 0, 1⟩
def R.LTH.LAST_LSN.LSN (n i : Nat) : Fld := ⟨0x400138 + 0x80000 * n + 0x80 * i, 0, 32⟩
def R.LTH.SKIPS.COUNT (n i : Nat) : Fld := ⟨0x40013c + 0x80000 * n + 0x80 * i, 0, 32⟩
def R.FUS.CTL.EN : Fld := ⟨0x800000, 0, 1⟩
def R.FUS.CTL.VFRAC : Fld := ⟨0x800000, 1, 1⟩
def R.FUS.CTL.CLK_GATE : Fld := ⟨0x800000, 2, 1⟩
def R.FUS.CTL.NCH : Fld := ⟨0x800000, 4, 4⟩
def R.FUS.WIDTH.COLS : Fld := ⟨0x800004, 0, 18⟩
def R.FUS.DEADLINE.NS : Fld := ⟨0x800008, 0, 20⟩
def R.FUS.STATUS.SEQ : Fld := ⟨0x80000c, 24, 8⟩
def R.FUS.STATUS.SRAM_UE : Fld := ⟨0x80000c, 12, 1⟩
def R.FUS.STATUS.TRK_LIMIT : Fld := ⟨0x80000c, 11, 1⟩
def R.FUS.STATUS.TAP_DROP : Fld := ⟨0x80000c, 10, 1⟩
def R.FUS.STATUS.FORCED : Fld := ⟨0x80000c, 9, 1⟩
def R.FUS.STATUS.LATE_VIEW : Fld := ⟨0x80000c, 8, 1⟩
def R.FUS.LAST_LSN.LSN : Fld := ⟨0x800010, 0, 32⟩
def R.FUS.LAST_DT.DT : Fld := ⟨0x800018, 0, 64⟩
def R.FUS.SEAM_CTL.MODE : Fld := ⟨0x800020, 0, 2⟩
def R.FUS.SEAM_CTL.EDGE_THR : Fld := ⟨0x800020, 4, 12⟩
def R.FUS.SEAM_CTL.STEP : Fld := ⟨0x800020, 16, 8⟩
def R.FUS.SEAM_CTL.MINPAIRS : Fld := ⟨0x800020, 24, 8⟩
def R.FUS.SEAM_WIN.LINES : Fld := ⟨0x800024, 0, 17⟩
def R.FUS.TAP_CTL.EN : Fld := ⟨0x800028, 0, 1⟩
def R.FUS.TAP_CTL.DECIM : Fld := ⟨0x800028, 8, 8⟩
def R.FUS.TAP_CTL.DMA_CH : Fld := ⟨0x800028, 16, 5⟩
def R.FUS.TAP_WIN.FIRST : Fld := ⟨0x80002c, 0, 18⟩
def R.FUS.TAP_CNT.COUNT : Fld := ⟨0x800030, 0, 18⟩
def R.FUS.TBL_CTL.SWAP : Fld := ⟨0x800034, 0, 1⟩
def R.FUS.TBL_CTL.COPY : Fld := ⟨0x800034, 1, 1⟩
def R.FUS.TBL_CTL.PEND : Fld := ⟨0x800034, 8, 1⟩
def R.FUS.TBL_CTL.COPY_BUSY : Fld := ⟨0x800034, 9, 1⟩
def R.FUS.TBL_SEL.BANK : Fld := ⟨0x800038, 12, 1⟩
def R.FUS.LEAD_CTL.EN : Fld := ⟨0x800040, 0, 1⟩
def R.FUS.LEAD_CTL.POL : Fld := ⟨0x800040, 1, 1⟩
def R.FUS.LEAD_CTL.VIEW : Fld := ⟨0x800040, 2, 6⟩
def R.FUS.LEAD_CTL.MINLINES : Fld := ⟨0x800040, 8, 8⟩
def R.FUS.LEAD_CTL.CLRLINES : Fld := ⟨0x800040, 16, 8⟩
def R.FUS.LEAD_LVL.LEVEL : Fld := ⟨0x800044, 0, 16⟩
def R.FUS.LEAD_MAX.NS : Fld := ⟨0x800048, 0, 32⟩
def R.FUS.STAT.COUNT (i : Nat) : Fld := ⟨0x800100 + 0x4 * i, 0, 32⟩
def R.FUS.CH_FILL.VALUE (i : Nat) : Fld := ⟨0x800200 + 0x4 * i, 0, 16⟩
def R.FUS.VIEW_CTL.EN (i : Nat) : Fld := ⟨0x801000 + 0x40 * i, 0, 1⟩
def R.FUS.VIEW_CTL.CH (i : Nat) : Fld := ⟨0x801000 + 0x40 * i, 2, 4⟩
def R.FUS.VIEW_CTL.MIRROR (i : Nat) : Fld := ⟨0x801000 + 0x40 * i, 6, 1⟩
def R.FUS.VIEW_CTL.FEATHER (i : Nat) : Fld := ⟨0x801000 + 0x40 * i, 7, 1⟩
def R.FUS.VIEW_CTL.SUBST (i : Nat) : Fld := ⟨0x801000 + 0x40 * i, 8, 1⟩
def R.FUS.VIEW_CTL.TRK_EN (i : Nat) : Fld := ⟨0x801000 + 0x40 * i, 9, 1⟩
def R.FUS.VIEW_CTL.HOLD_MAX (i : Nat) : Fld := ⟨0x801000 + 0x40 * i, 16, 8⟩
def R.FUS.VIEW_U0.COL (i : Nat) : Fld := ⟨0x801004 + 0x40 * i, 0, 18⟩
def R.FUS.VIEW_U1.COL (i : Nat) : Fld := ⟨0x801008 + 0x40 * i, 0, 18⟩
def R.FUS.VIEW_SEAM.COL (i : Nat) : Fld := ⟨0x80100c + 0x40 * i, 0, 18⟩
def R.FUS.VIEW_MATCH.GM (i : Nat) : Fld := ⟨0x801010 + 0x40 * i, 0, 16⟩
def R.FUS.VIEW_MATCH.OM (i : Nat) : Fld := ⟨0x801010 + 0x40 * i, 16, 16⟩
def R.FUS.VIEW_VREG.DLY (i : Nat) : Fld := ⟨0x801014 + 0x40 * i, 0, 10⟩
def R.FUS.VIEW_VREG.PHASE (i : Nat) : Fld := ⟨0x801014 + 0x40 * i, 16, 6⟩
def R.FUS.VIEW_TRIM.TRIM (i : Nat) : Fld := ⟨0x801018 + 0x40 * i, 0, 9⟩
def R.FUS.VIEW_TRK.MEAS (i : Nat) : Fld := ⟨0x80101c + 0x40 * i, 0, 9⟩
def R.FUS.VIEW_TRK.PAIRS (i : Nat) : Fld := ⟨0x80101c + 0x40 * i, 16, 16⟩
def R.FUS.VIEW_LVL.LVL_A (i : Nat) : Fld := ⟨0x801020 + 0x40 * i, 0, 16⟩
def R.FUS.VIEW_LVL.LVL_B (i : Nat) : Fld := ⟨0x801020 + 0x40 * i, 16, 16⟩
def R.FUS.VIEW_STATUS.SEQ (i : Nat) : Fld := ⟨0x801024 + 0x40 * i, 24, 8⟩
def R.FUS.VIEW_STATUS.LIMIT (i : Nat) : Fld := ⟨0x801024 + 0x40 * i, 3, 1⟩
def R.FUS.VIEW_STATUS.LATE (i : Nat) : Fld := ⟨0x801024 + 0x40 * i, 2, 1⟩
def R.FUS.VIEW_STATUS.HELD_OUT (i : Nat) : Fld := ⟨0x801024 + 0x40 * i, 1, 1⟩
def R.FUS.VIEW_STATUS.ABSENT (i : Nat) : Fld := ⟨0x801024 + 0x40 * i, 0, 1⟩
def R.CLS.CTL.EN : Fld := ⟨0xc00000, 0, 1⟩
def R.CLS.CTL.CLK_GATE : Fld := ⟨0xc00000, 1, 1⟩
def R.CLS.CTL.MISS_MODE : Fld := ⟨0xc00000, 2, 1⟩
def R.CLS.CTL.MISS_CLASS : Fld := ⟨0xc00000, 4, 4⟩
def R.CLS.DEC_CTL.LUT_EN : Fld := ⟨0xc00004, 0, 1⟩
def R.CLS.DEC_CTL.RULE_EN : Fld := ⟨0xc00004, 1, 1⟩
def R.CLS.DEC_CTL.TREE_EN : Fld := ⟨0xc00004, 2, 1⟩
def R.CLS.DEC_CTL.DEFAULT : Fld := ⟨0xc00004, 4, 4⟩
def R.CLS.DEC_CTL.LUT_A : Fld := ⟨0xc00004, 8, 3⟩
def R.CLS.DEC_CTL.LUT_B : Fld := ⟨0xc00004, 12, 3⟩
def R.CLS.DEC_CTL.LUT_C : Fld := ⟨0xc00004, 16, 3⟩
def R.CLS.PRIO.RANK : Fld := ⟨0xc00008, 0, 64⟩
def R.CLS.STRIP.W : Fld := ⟨0xc00010, 0, 5⟩
def R.CLS.STRIP.NSTRIPS : Fld := ⟨0xc00010, 16, 8⟩
def R.CLS.RUN_CTL.FG : Fld := ⟨0xc00014, 0, 16⟩
def R.CLS.RUN_CTL.LINE_MAX : Fld := ⟨0xc00014, 16, 16⟩
def R.CLS.SUM_CTL.CH : Fld := ⟨0xc00018, 0, 16⟩
def R.CLS.SUM_CTL.EN : Fld := ⟨0xc00018, 16, 4⟩
def R.CLS.GG_CTL.CONN : Fld := ⟨0xc0001c, 0, 1⟩
def R.CLS.GG_CTL.SLEEP_LINES : Fld := ⟨0xc0001c, 8, 8⟩
def R.CLS.GG_MAX.LINES : Fld := ⟨0xc00020, 0, 16⟩
def R.CLS.GG_DOZE.EN : Fld := ⟨0xc00024, 0, 1⟩
def R.CLS.GG_DOZE.LINES : Fld := ⟨0xc00024, 8, 16⟩
def R.CLS.TILE_CTL.EN : Fld := ⟨0xc00028, 0, 1⟩
def R.CLS.TILE_CTL.BPP : Fld := ⟨0xc00028, 1, 2⟩
def R.CLS.TILE_CTL.RGN : Fld := ⟨0xc00028, 8, 6⟩
def R.CLS.TILE_CTL.ROWS : Fld := ⟨0xc00028, 16, 16⟩
def R.CLS.TILE_SRC.SRC : Fld := ⟨0xc0002c, 0, 32⟩
def R.CLS.JRN_CTL.RGN : Fld := ⟨0xc00030, 0, 6⟩
def R.CLS.STATUS.SEQ : Fld := ⟨0xc00034, 24, 8⟩
def R.CLS.STATUS.SRAM_UE : Fld := ⟨0xc00034, 12, 1⟩
def R.CLS.STATUS.JRN_OVR : Fld := ⟨0xc00034, 11, 1⟩
def R.CLS.STATUS.TAP_DROP : Fld := ⟨0xc00034, 9, 1⟩
def R.CLS.STATUS.RUN_CAP : Fld := ⟨0xc00034, 8, 1⟩
def R.CLS.TAP_CTL.EN : Fld := ⟨0xc00038, 0, 1⟩
def R.CLS.TAP_CTL.DECIM : Fld := ⟨0xc00038, 8, 8⟩
def R.CLS.TAP_CTL.DMA_CH : Fld := ⟨0xc00038, 16, 5⟩
def R.CLS.TAP_WIN.FIRST : Fld := ⟨0xc0003c, 0, 18⟩
def R.CLS.TAP_CNT.COUNT : Fld := ⟨0xc00040, 0, 18⟩
def R.CLS.TBL_CTL.SWAP : Fld := ⟨0xc00044, 0, 1⟩
def R.CLS.TBL_CTL.COPY : Fld := ⟨0xc00044, 1, 1⟩
def R.CLS.TBL_CTL.PEND : Fld := ⟨0xc00044, 8, 1⟩
def R.CLS.TBL_CTL.COPY_BUSY : Fld := ⟨0xc00044, 9, 1⟩
def R.CLS.TBL_SEL.BANK : Fld := ⟨0xc00048, 12, 1⟩
def R.CLS.STAT.COUNT (i : Nat) : Fld := ⟨0xc00100 + 0x4 * i, 0, 32⟩
def R.CLS.JRN_PTR.WR (i : Nat) : Fld := ⟨0xc01000 + 0x8 * i, 0, 32⟩
def R.CLS.JRN_PTR.KEEP (i : Nat) : Fld := ⟨0xc01000 + 0x8 * i, 32, 32⟩
def R.GGE.STATUS.SEQ (n : Nat) : Fld := ⟨0x1000000 + 0x2000 * n, 24, 8⟩
def R.GGE.STATUS.ST_FAIL (n : Nat) : Fld := ⟨0x1000000 + 0x2000 * n, 12, 1⟩
def R.GGE.STATUS.SRAM_UE (n : Nat) : Fld := ⟨0x1000000 + 0x2000 * n, 11, 1⟩
def R.GGE.STATUS.RESIDUE (n : Nat) : Fld := ⟨0x1000000 + 0x2000 * n, 10, 1⟩
def R.GGE.STATUS.CC_FULL (n : Nat) : Fld := ⟨0x1000000 + 0x2000 * n, 9, 1⟩
def R.GGE.STATUS.JRN_LOST (n : Nat) : Fld := ⟨0x1000000 + 0x2000 * n, 8, 1⟩
def R.GGE.STATUS.STATE (n : Nat) : Fld := ⟨0x1000000 + 0x2000 * n, 0, 4⟩
def R.GGE.STRIP.STRIP (n : Nat) : Fld := ⟨0x1000004 + 0x2000 * n, 0, 8⟩
def R.GGE.STRIP.VALID (n : Nat) : Fld := ⟨0x1000004 + 0x2000 * n, 31, 1⟩
def R.GGE.OPEN.COUNT (n : Nat) : Fld := ⟨0x1000008 + 0x2000 * n, 0, 10⟩
def R.GGE.OPEN.PEAK (n : Nat) : Fld := ⟨0x1000008 + 0x2000 * n, 16, 10⟩
def R.GGE.FIFO.LEVEL (n : Nat) : Fld := ⟨0x100000c + 0x2000 * n, 0, 12⟩
def R.GGE.FIFO.PEAK (n : Nat) : Fld := ⟨0x100000c + 0x2000 * n, 16, 12⟩
def R.GGE.ST_COUNT.COUNT (n : Nat) : Fld := ⟨0x1000010 + 0x2000 * n, 0, 32⟩
def R.GGE.STAT.COUNT (n i : Nat) : Fld := ⟨0x1000100 + 0x2000 * n + 0x4 * i, 0, 32⟩
def R.MRG.CTL.EN : Fld := ⟨0x1200000, 0, 1⟩
def R.MRG.CTL.CLK_GATE : Fld := ⟨0x1200000, 1, 1⟩
def R.MRG.MAX_LINES.LINES : Fld := ⟨0x1200004, 0, 16⟩
def R.MRG.LATE.NS : Fld := ⟨0x1200008, 0, 20⟩
def R.MRG.STATUS.SEQ : Fld := ⟨0x120000c, 24, 8⟩
def R.MRG.STATUS.ORING_DROP : Fld := ⟨0x120000c, 13, 1⟩
def R.MRG.STATUS.SRAM_UE : Fld := ⟨0x120000c, 12, 1⟩
def R.MRG.STATUS.CRC_ERR : Fld := ⟨0x120000c, 11, 1⟩
def R.MRG.STATUS.LOST : Fld := ⟨0x120000c, 10, 1⟩
def R.MRG.STATUS.EDGE_OVR : Fld := ⟨0x120000c, 9, 1⟩
def R.MRG.STATUS.NODE_FULL : Fld := ⟨0x120000c, 8, 1⟩
def R.MRG.NODES.COUNT : Fld := ⟨0x1200010, 0, 17⟩
def R.MRG.NODE_PEAK.PEAK : Fld := ⟨0x1200014, 0, 17⟩
def R.MRG.NEXT_ID.ID : Fld := ⟨0x1200018, 0, 32⟩
def R.MRG.ORING_CTL.RGN : Fld := ⟨0x1200020, 0, 6⟩
def R.MRG.ORING_CTL.VMASK : Fld := ⟨0x1200020, 8, 4⟩
def R.MRG.ORING_WR.COUNT : Fld := ⟨0x1200024, 0, 32⟩
def R.MRG.ORING_DROP.COUNT : Fld := ⟨0x1200028, 0, 32⟩
def R.MRG.STAT.COUNT (i : Nat) : Fld := ⟨0x1200100 + 0x4 * i, 0, 32⟩
def R.MRG.STRIP_EPOCH.EPOCH (i : Nat) : Fld := ⟨0x1201000 + 0x10 * i, 0, 16⟩
def R.MRG.STRIP_EPOCH.REPLAY (i : Nat) : Fld := ⟨0x1201000 + 0x10 * i, 16, 1⟩
def R.MRG.STRIP_EPOCH.LATE (i : Nat) : Fld := ⟨0x1201000 + 0x10 * i, 17, 1⟩
def R.MRG.STRIP_CUT.LSN (i : Nat) : Fld := ⟨0x1201004 + 0x10 * i, 0, 32⟩
def R.MRG.STRIP_DONE.LSN (i : Nat) : Fld := ⟨0x1201008 + 0x10 * i, 0, 32⟩
def R.MRG.STRIP_PAIRED.LSN (i : Nat) : Fld := ⟨0x120100c + 0x10 * i, 0, 32⟩
def R.CRV.CTL.EN : Fld := ⟨0x1300000, 0, 1⟩
def R.CRV.CTL.CLK_GATE : Fld := ⟨0x1300000, 1, 1⟩
def R.CRV.STATUS.SEQ : Fld := ⟨0x1300004, 24, 8⟩
def R.CRV.STATUS.SRAM_UE : Fld := ⟨0x1300004, 12, 1⟩
def R.CRV.STATUS.ST_FAIL : Fld := ⟨0x1300004, 11, 1⟩
def R.CRV.STATUS.FENCE : Fld := ⟨0x1300004, 10, 1⟩
def R.CRV.STATUS.QUEUE_FULL : Fld := ⟨0x1300004, 9, 1⟩
def R.CRV.STATUS.NET_ERR : Fld := ⟨0x1300004, 8, 1⟩
def R.CRV.STATUS.STATE : Fld := ⟨0x1300004, 0, 2⟩
def R.CRV.SLICES.FENCED : Fld := ⟨0x1300008, 0, 16⟩
def R.CRV.SLICES.ACTIVE : Fld := ⟨0x1300008, 16, 5⟩
def R.CRV.CLK.MHZ : Fld := ⟨0x130000c, 0, 11⟩
def R.CRV.AGE.NS : Fld := ⟨0x1300010, 0, 20⟩
def R.CRV.QUEUE.LEVEL : Fld := ⟨0x1300014, 0, 13⟩
def R.CRV.QUEUE.PEAK : Fld := ⟨0x1300014, 16, 13⟩
def R.CRV.WPAGE.PAGE : Fld := ⟨0x1300018, 0, 2⟩
def R.CRV.ST_COUNT.COUNT : Fld := ⟨0x130001c, 0, 32⟩
def R.CRV.STAT.COUNT (i : Nat) : Fld := ⟨0x1300100 + 0x4 * i, 0, 32⟩
def R.CRV.NET_CTL.EN (i : Nat) : Fld := ⟨0x1300200 + 0x20 * i, 0, 1⟩
def R.CRV.NET_CTL.VALIDATE (i : Nat) : Fld := ⟨0x1300200 + 0x20 * i, 1, 1⟩
def R.CRV.NET_CTL.VALID (i : Nat) : Fld := ⟨0x1300200 + 0x20 * i, 2, 1⟩
def R.CRV.NET_CTL.ERR (i : Nat) : Fld := ⟨0x1300200 + 0x20 * i, 8, 3⟩
def R.CRV.NET_CTL.PENDING (i : Nat) : Fld := ⟨0x1300200 + 0x20 * i, 16, 13⟩
def R.CRV.NET_BASE.OFFSET (i : Nat) : Fld := ⟨0x1300204 + 0x20 * i, 0, 22⟩
def R.CRV.NET_RS.MODE (i : Nat) : Fld := ⟨0x1300208 + 0x20 * i, 0, 2⟩
def R.CRV.NET_AMIN.AREA (i : Nat) : Fld := ⟨0x130020c + 0x20 * i, 0, 32⟩
def R.CRV.NET_AMAX.AREA (i : Nat) : Fld := ⟨0x1300210 + 0x20 * i, 0, 32⟩
def R.CRV.NET_CLS.CMASK (i : Nat) : Fld := ⟨0x1300214 + 0x20 * i, 0, 16⟩
def R.CRV.NET_CLS.XFLAGS (i : Nat) : Fld := ⟨0x1300214 + 0x20 * i, 16, 16⟩
def R.CRV.NET_SCORE.IDX (i : Nat) : Fld := ⟨0x1300218 + 0x20 * i, 0, 16⟩
def R.CRV.NET_INFO.NLAYERS (i : Nat) : Fld := ⟨0x130021c + 0x20 * i, 0, 8⟩
def R.CRV.NET_INFO.NSCORES (i : Nat) : Fld := ⟨0x130021c + 0x20 * i, 8, 8⟩
def R.CRV.NET_INFO.CLOCKS (i : Nat) : Fld := ⟨0x130021c + 0x20 * i, 16, 16⟩
def R.VRD.CTL.EN : Fld := ⟨0x1800000, 0, 1⟩
def R.VRD.CTL.BAL : Fld := ⟨0x1800000, 1, 1⟩
def R.VRD.STATUS.SEQ : Fld := ⟨0x1800004, 24, 8⟩
def R.VRD.STATUS.SRAM_UE : Fld := ⟨0x1800004, 11, 1⟩
def R.VRD.STATUS.MISSED : Fld := ⟨0x1800004, 10, 1⟩
def R.VRD.STATUS.CMD_FULL : Fld := ⟨0x1800004, 9, 1⟩
def R.VRD.STATUS.TAG_DROP : Fld := ⟨0x1800004, 8, 1⟩
def R.VRD.LEAD.US : Fld := ⟨0x1800008, 0, 16⟩
def R.VRD.RETX_MIN.US : Fld := ⟨0x180000c, 0, 16⟩
def R.VRD.TAG_X0.COL : Fld := ⟨0x1800010, 0, 17⟩
def R.VRD.TAG_PITCH.NM : Fld := ⟨0x1800014, 0, 32⟩
def R.VRD.TAG_XORG.UM : Fld := ⟨0x1800018, 0, 32⟩
def R.VRD.TAG_CTL.RGN : Fld := ⟨0x180001c, 0, 6⟩
def R.VRD.TAG_CTL.VMASK : Fld := ⟨0x180001c, 8, 4⟩
def R.VRD.TAG_CTL.ENC : Fld := ⟨0x180001c, 12, 1⟩
def R.VRD.TAG_WR.COUNT : Fld := ⟨0x1800020, 0, 32⟩
def R.VRD.TAG_DROP.COUNT : Fld := ⟨0x1800024, 0, 32⟩
def R.VRD.BAL_G.UMS2 : Fld := ⟨0x1800028, 0, 32⟩
def R.VRD.BAL_DIST.UM : Fld := ⟨0x180002c, 0, 32⟩
def R.VRD.BAL_DTMIN.NS : Fld := ⟨0x1800030, 0, 32⟩
def R.VRD.BAL_DTMAX.NS : Fld := ⟨0x1800034, 0, 32⟩
def R.VRD.VMAP_CTL.NA : Fld := ⟨0x1800038, 0, 13⟩
def R.VRD.VMAP_CTL.VMAX : Fld := ⟨0x1800038, 16, 7⟩
def R.VRD.MARGIN.ML : Fld := ⟨0x180003c, 0, 8⟩
def R.VRD.MARGIN.MR : Fld := ⟨0x180003c, 8, 8⟩
def R.VRD.DUR.BASE_US : Fld := ⟨0x1800040, 0, 16⟩
def R.VRD.DUR_LINE.LINE : Fld := ⟨0x1800044, 0, 24⟩
def R.VRD.TBL_CTL.SWAP : Fld := ⟨0x1800048, 0, 1⟩
def R.VRD.TBL_CTL.COPY : Fld := ⟨0x1800048, 1, 1⟩
def R.VRD.TBL_CTL.PEND : Fld := ⟨0x1800048, 8, 1⟩
def R.VRD.TBL_CTL.COPY_BUSY : Fld := ⟨0x1800048, 9, 1⟩
def R.VRD.TBL_SEL.BANK : Fld := ⟨0x180004c, 12, 1⟩
def R.VRD.CMD.CANCEL_ALL : Fld := ⟨0x1800050, 0, 1⟩
def R.VRD.CLEAN.DUR_US : Fld := ⟨0x1800054, 0, 16⟩
def R.VRD.CLEAN.GAP_US : Fld := ⟨0x1800054, 16, 16⟩
def R.VRD.CLEAN_RNG.FIRST : Fld := ⟨0x1800058, 0, 12⟩
def R.VRD.CLEAN_RNG.COUNT : Fld := ⟨0x1800058, 16, 13⟩
def R.VRD.STAT.COUNT (i : Nat) : Fld := ⟨0x1800100 + 0x4 * i, 0, 32⟩
def R.VRD.FO_CTL.MODE (i : Nat) : Fld := ⟨0x1800400 + 0x20 * i, 0, 2⟩
def R.VRD.FO_CTL.BASE (i : Nat) : Fld := ⟨0x1800400 + 0x20 * i, 2, 1⟩
def R.VRD.FO_CTL.ENC (i : Nat) : Fld := ⟨0x1800400 + 0x20 * i, 3, 1⟩
def R.VRD.FO_CTL.POL (i : Nat) : Fld := ⟨0x1800400 + 0x20 * i, 4, 1⟩
def R.VRD.FO_CTL.VMASK (i : Nat) : Fld := ⟨0x1800400 + 0x20 * i, 8, 4⟩
def R.VRD.FO_C0.COL (i : Nat) : Fld := ⟨0x1800404 + 0x20 * i, 0, 17⟩
def R.VRD.FO_C1.COL (i : Nat) : Fld := ⟨0x1800408 + 0x20 * i, 0, 17⟩
def R.VRD.FO_DELAY.DELAY (i : Nat) : Fld := ⟨0x180040c + 0x20 * i, 0, 32⟩
def R.VRD.FO_DUR.US (i : Nat) : Fld := ⟨0x1800410 + 0x20 * i, 0, 16⟩
def R.VRD.FO_STATUS.LEVEL (i : Nat) : Fld := ⟨0x1800414 + 0x20 * i, 0, 7⟩
def R.T1S.SEG_CTL.EN (k : Nat) : Fld := ⟨0x1a00000 + 0x20000 * k, 0, 1⟩
def R.T1S.SEG_CTL.NC (k : Nat) : Fld := ⟨0x1a00000 + 0x20000 * k, 8, 6⟩
def R.T1S.SEG_CTL.TO_TMR (k : Nat) : Fld := ⟨0x1a00000 + 0x20000 * k, 16, 8⟩
def R.T1S.SEG_CTL.MAX_BC (k : Nat) : Fld := ⟨0x1a00000 + 0x20000 * k, 24, 3⟩
def R.T1S.SEG_CTL2.BURST_TMR (k : Nat) : Fld := ⟨0x1a00004 + 0x20000 * k, 0, 8⟩
def R.T1S.SEG_CTL2.NODE_MAX (k : Nat) : Fld := ⟨0x1a00004 + 0x20000 * k, 16, 11⟩
def R.T1S.FIRE_DA.MAC (k : Nat) : Fld := ⟨0x1a00008 + 0x20000 * k, 0, 48⟩
def R.T1S.SEG_STATUS.SEQ (k : Nat) : Fld := ⟨0x1a00010 + 0x20000 * k, 24, 8⟩
def R.T1S.SEG_STATUS.STRANGER (k : Nat) : Fld := ⟨0x1a00010 + 0x20000 * k, 12, 1⟩
def R.T1S.SEG_STATUS.CYCLE_OVR (k : Nat) : Fld := ⟨0x1a00010 + 0x20000 * k, 11, 1⟩
def R.T1S.SEG_STATUS.SHORT_LEAD (k : Nat) : Fld := ⟨0x1a00010 + 0x20000 * k, 10, 1⟩
def R.T1S.SEG_STATUS.FOREIGN_BCN (k : Nat) : Fld := ⟨0x1a00010 + 0x20000 * k, 9, 1⟩
def R.T1S.SEG_STATUS.SILENT (k : Nat) : Fld := ⟨0x1a00010 + 0x20000 * k, 8, 1⟩
def R.T1S.SEG_STATUS.STATE (k : Nat) : Fld := ⟨0x1a00010 + 0x20000 * k, 0, 2⟩
def R.T1S.CYCLE.MAX_US (k : Nat) : Fld := ⟨0x1a00014 + 0x20000 * k, 0, 16⟩
def R.T1S.CYCLE.PEAK_US (k : Nat) : Fld := ⟨0x1a00014 + 0x20000 * k, 16, 16⟩
def R.T1S.STAT.COUNT (k i : Nat) : Fld := ⟨0x1a00100 + 0x20000 * k + 0x4 * i, 0, 32⟩
def R.T1S.NODE.MAC (k i : Nat) : Fld := ⟨0x1a00200 + 0x20000 * k + 0x8 * i, 0, 48⟩
def R.T1S.NODE.EN (k i : Nat) : Fld := ⟨0x1a00200 + 0x20000 * k + 0x8 * i, 48, 1⟩
def R.T1S.NODE.ST_LOCKED (k i : Nat) : Fld := ⟨0x1a00200 + 0x20000 * k + 0x8 * i, 49, 1⟩
def R.T1S.NODE.SILENT (k i : Nat) : Fld := ⟨0x1a00200 + 0x20000 * k + 0x8 * i, 50, 1⟩
def R.DDR.CFG.RATE : Fld := ⟨0x1b00000, 0, 4⟩
def R.DDR.CFG.DENS : Fld := ⟨0x1b00000, 4, 2⟩
def R.DDR.CFG.RANKS : Fld := ⟨0x1b00000, 6, 1⟩
def R.DDR.CFG.CHANNELS : Fld := ⟨0x1b00000, 8, 3⟩
def R.DDR.MAP.GRAIN : Fld := ⟨0x1b00004, 0, 4⟩
def R.DDR.MAP.HASH : Fld := ⟨0x1b00004, 4, 1⟩
def R.DDR.CAP.MIB : Fld := ⟨0x1b00008, 0, 18⟩
def R.DDR.CAP.ACTIVE : Fld := ⟨0x1b00008, 20, 4⟩
def R.DDR.SR_CTL.IDLE_NS : Fld := ⟨0x1b0000c, 0, 20⟩
def R.DDR.SR_CTL.EN : Fld := ⟨0x1b0000c, 31, 1⟩
def R.DDR.SCRUB.HOURS : Fld := ⟨0x1b00010, 0, 8⟩
def R.DDR.SCRUB.EN : Fld := ⟨0x1b00010, 31, 1⟩
def R.DDR.PPR_CTL.CE_ROW : Fld := ⟨0x1b00014, 0, 8⟩
def R.DDR.PPR_CTL.EN : Fld := ⟨0x1b00014, 31, 1⟩
def R.DDR.RET_CTL.UE_MAX : Fld := ⟨0x1b00018, 0, 8⟩
def R.DDR.RET_CTL.AUTO : Fld := ⟨0x1b00018, 31, 1⟩
def R.DDR.PHY_UPD.PERIOD_US : Fld := ⟨0x1b0001c, 0, 12⟩
def R.DDR.RETRAIN.OSC_MS : Fld := ⟨0x1b00020, 0, 8⟩
def R.DDR.RETRAIN.THR : Fld := ⟨0x1b00020, 8, 4⟩
def R.DDR.STATUS.SEQ : Fld := ⟨0x1b00024, 24, 8⟩
def R.DDR.STATUS.RETIRED : Fld := ⟨0x1b00024, 12, 1⟩
def R.DDR.STATUS.REMAP_FULL : Fld := ⟨0x1b00024, 11, 1⟩
def R.DDR.STATUS.UE : Fld := ⟨0x1b00024, 10, 1⟩
def R.DDR.STATUS.CE : Fld := ⟨0x1b00024, 9, 1⟩
def R.DDR.STATUS.RETRAIN_FAIL : Fld := ⟨0x1b00024, 8, 1⟩
def R.DDR.UE_ADDR.A : Fld := ⟨0x1b00028, 0, 37⟩
def R.DDR.UE_LOC.CH : Fld := ⟨0x1b00030, 0, 2⟩
def R.DDR.UE_LOC.RANK : Fld := ⟨0x1b00030, 2, 1⟩
def R.DDR.UE_LOC.SC : Fld := ⟨0x1b00030, 3, 1⟩
def R.DDR.UE_LOC.BG : Fld := ⟨0x1b00030, 4, 3⟩
def R.DDR.UE_LOC.BANK : Fld := ⟨0x1b00030, 7, 2⟩
def R.DDR.UE_LOC.ROW : Fld := ⟨0x1b00030, 9, 17⟩
def R.DDR.UE_LOC.COL : Fld := ⟨0x1b00030, 26, 6⟩
def R.DDR.UE_SYN.SYN : Fld := ⟨0x1b00034, 0, 16⟩
def R.DDR.UE_SYN.SCRUB : Fld := ⟨0x1b00034, 16, 1⟩
def R.DDR.RGN_ACT.BASE_MIB (i : Nat) : Fld := ⟨0x1b00100 + 0x8 * i, 0, 17⟩
def R.DDR.RGN_ACT.SIZE_MIB (i : Nat) : Fld := ⟨0x1b00100 + 0x8 * i, 32, 17⟩
def R.DDR.CH_STATUS.STATE (i : Nat) : Fld := ⟨0x1b01000 + 0x1000 * i, 0, 3⟩
def R.DDR.CH_STATUS.REMAPS (i : Nat) : Fld := ⟨0x1b01000 + 0x1000 * i, 8, 7⟩
def R.DDR.CH_STATUS.RATE_MR4 (i : Nat) : Fld := ⟨0x1b01000 + 0x1000 * i, 16, 2⟩
def R.DDR.STAT.COUNT (i j : Nat) : Fld := ⟨0x1b01100 + 0x1000 * i + 0x4 * j, 0, 32⟩
def R.DDR.REMAP.ROWID (i j : Nat) : Fld := ⟨0x1b01400 + 0x1000 * i + 0x8 * j, 0, 26⟩
def R.DDR.REMAP.SPARE (i j : Nat) : Fld := ⟨0x1b01400 + 0x1000 * i + 0x8 * j, 32, 16⟩
def R.DDR.REMAP.HPPR (i j : Nat) : Fld := ⟨0x1b01400 + 0x1000 * i + 0x8 * j, 62, 1⟩
def R.DDR.REMAP.EN (i j : Nat) : Fld := ⟨0x1b01400 + 0x1000 * i + 0x8 * j, 63, 1⟩
def R.DMA.CTL.EN : Fld := ⟨0x1c00000, 0, 1⟩
def R.DMA.STATUS.SEQ : Fld := ⟨0x1c00004, 24, 8⟩
def R.DMA.STATUS.LATE_ERR : Fld := ⟨0x1c00004, 9, 1⟩
def R.DMA.STATUS.HALT : Fld := ⟨0x1c00004, 8, 1⟩
def R.DMA.FLAGS.F : Fld := ⟨0x1c00008, 0, 32⟩
def R.DMA.FLAG_SET.F : Fld := ⟨0x1c0000c, 0, 32⟩
def R.DMA.BUF.USED : Fld := ⟨0x1c00010, 0, 5⟩
def R.DMA.CH_CTL.EN (i : Nat) : Fld := ⟨0x1c01000 + 0x100 * i, 0, 1⟩
def R.DMA.CH_CTL.MODE (i : Nat) : Fld := ⟨0x1c01000 + 0x100 * i, 1, 2⟩
def R.DMA.CH_CTL.QUOTA (i : Nat) : Fld := ⟨0x1c01000 + 0x100 * i, 4, 4⟩
def R.DMA.CH_CTL.FSPACE (i : Nat) : Fld := ⟨0x1c01000 + 0x100 * i, 8, 2⟩
def R.DMA.CH_CTL.RPT_SRC (i : Nat) : Fld := ⟨0x1c01000 + 0x100 * i, 12, 2⟩
def R.DMA.CH_CMD.RESUME (i : Nat) : Fld := ⟨0x1c01004 + 0x100 * i, 0, 1⟩
def R.DMA.CH_CMD.HALT (i : Nat) : Fld := ⟨0x1c01004 + 0x100 * i, 1, 1⟩
def R.DMA.CH_CMD.START (i : Nat) : Fld := ⟨0x1c01004 + 0x100 * i, 2, 1⟩
def R.DMA.CH_STATUS.SEQ (i : Nat) : Fld := ⟨0x1c01008 + 0x100 * i, 24, 8⟩
def R.DMA.CH_STATUS.RESTART (i : Nat) : Fld := ⟨0x1c01008 + 0x100 * i, 13, 1⟩
def R.DMA.CH_STATUS.TRUNC (i : Nat) : Fld := ⟨0x1c01008 + 0x100 * i, 12, 1⟩
def R.DMA.CH_STATUS.DONE (i : Nat) : Fld := ⟨0x1c01008 + 0x100 * i, 11, 1⟩
def R.DMA.CH_STATUS.HALTED (i : Nat) : Fld := ⟨0x1c01008 + 0x100 * i, 10, 1⟩
def R.DMA.CH_STATUS.CAUSE (i : Nat) : Fld := ⟨0x1c01008 + 0x100 * i, 4, 4⟩
def R.DMA.CH_STATUS.STATE (i : Nat) : Fld := ⟨0x1c01008 + 0x100 * i, 0, 3⟩
def R.DMA.CH_TMO.US (i : Nat) : Fld := ⟨0x1c0100c + 0x100 * i, 0, 14⟩
def R.DMA.CH_FBASE.ADDR (i : Nat) : Fld := ⟨0x1c01010 + 0x100 * i, 0, 64⟩
def R.DMA.CH_RING.LOG2 (i : Nat) : Fld := ⟨0x1c01018 + 0x100 * i, 0, 5⟩
def R.DMA.CH_TAIL.COUNT (i : Nat) : Fld := ⟨0x1c0101c + 0x100 * i, 0, 32⟩
def R.DMA.CH_HEAD.COUNT (i : Nat) : Fld := ⟨0x1c01020 + 0x100 * i, 0, 32⟩
def R.DMA.CH_PC.ADDR (i : Nat) : Fld := ⟨0x1c01028 + 0x100 * i, 0, 64⟩
def R.DMA.CH_LATE.SEQ (i : Nat) : Fld := ⟨0x1c01030 + 0x100 * i, 24, 8⟩
def R.DMA.CH_LATE.CAUSE (i : Nat) : Fld := ⟨0x1c01030 + 0x100 * i, 16, 4⟩
def R.DMA.CH_LATE.INDEX (i : Nat) : Fld := ⟨0x1c01030 + 0x100 * i, 0, 16⟩
def R.DMA.CH_CHK.VALUE (i : Nat) : Fld := ⟨0x1c01034 + 0x100 * i, 0, 32⟩
def R.DMA.CH_WB.ADDR (i : Nat) : Fld := ⟨0x1c01038 + 0x100 * i, 0, 64⟩
def R.DMA.CH_RPT_HRD.COUNT (i : Nat) : Fld := ⟨0x1c01040 + 0x100 * i, 0, 32⟩
def R.DMA.CH_RPT_HWR.COUNT (i : Nat) : Fld := ⟨0x1c01044 + 0x100 * i, 0, 32⟩
def R.DMA.CH_RPT_DRD.COUNT (i : Nat) : Fld := ⟨0x1c01048 + 0x100 * i, 0, 32⟩
def R.DMA.CH_RPT_CTL.BATCH (i : Nat) : Fld := ⟨0x1c0104c + 0x100 * i, 0, 8⟩
def R.DMA.CH_RPT_CTL.MAX_US (i : Nat) : Fld := ⟨0x1c0104c + 0x100 * i, 8, 16⟩
def R.DMA.STAT.COUNT (i j : Nat) : Fld := ⟨0x1c01080 + 0x100 * i + 0x4 * j, 0, 32⟩
def R.HST.ID.DEVICE : Fld := ⟨0x1d00000, 0, 16⟩
def R.HST.ID.REV : Fld := ⟨0x1d00000, 16, 4⟩
def R.HST.LINK.SPEED : Fld := ⟨0x1d00004, 0, 4⟩
def R.HST.LINK.WIDTH : Fld := ⟨0x1d00004, 4, 5⟩
def R.HST.LINK.UP : Fld := ⟨0x1d00004, 9, 1⟩
def R.HST.LINK.BME : Fld := ⟨0x1d00004, 10, 1⟩
def R.HST.LINK.MSIX_EN : Fld := ⟨0x1d00004, 11, 1⟩
def R.HST.STATUS.SEQ : Fld := ⟨0x1d00008, 24, 8⟩
def R.HST.STATUS.AER : Fld := ⟨0x1d00008, 10, 1⟩
def R.HST.STATUS.UP : Fld := ⟨0x1d00008, 9, 1⟩
def R.HST.STATUS.DOWN : Fld := ⟨0x1d00008, 8, 1⟩
def R.HST.APER_BASE.BASE : Fld := ⟨0x1d00010, 20, 17⟩
def R.HST.VMAP.VECTOR (i : Nat) : Fld := ⟨0x1d00100 + 0x4 * i, 0, 6⟩
def R.HST.VMAP.EN (i : Nat) : Fld := ⟨0x1d00100 + 0x4 * i, 7, 1⟩
def R.HST.VMOD.HOLDOFF_US (i : Nat) : Fld := ⟨0x1d00400 + 0x4 * i, 0, 16⟩
def R.HST.STAT.COUNT (i : Nat) : Fld := ⟨0x1d00600 + 0x4 * i, 0, 32⟩
def R.CMP.CTL.EN : Fld := ⟨0x1d80000, 0, 1⟩
def R.CMP.CTL.RAW : Fld := ⟨0x1d80000, 1, 1⟩
def R.CMP.CTL.PRED : Fld := ⟨0x1d80000, 2, 2⟩
def R.CMP.CTL.REC_RGN : Fld := ⟨0x1d80000, 8, 6⟩
def R.CMP.STATUS.SEQ : Fld := ⟨0x1d80004, 24, 8⟩
def R.CMP.STATUS.DENIED : Fld := ⟨0x1d80004, 11, 1⟩
def R.CMP.STATUS.ST_FAIL : Fld := ⟨0x1d80004, 10, 1⟩
def R.CMP.STATUS.TRIG_DROP : Fld := ⟨0x1d80004, 9, 1⟩
def R.CMP.STATUS.FROZEN : Fld := ⟨0x1d80004, 8, 1⟩
def R.CMP.STATUS.STATE : Fld := ⟨0x1d80004, 0, 3⟩
def R.CMP.REC_CMD.TRIG : Fld := ⟨0x1d80008, 0, 1⟩
def R.CMP.REC_CMD.RELEASE : Fld := ⟨0x1d80008, 1, 1⟩
def R.CMP.REC_TRIG.MASK : Fld := ⟨0x1d8000c, 0, 8⟩
def R.CMP.REC_TRIG.SNAP : Fld := ⟨0x1d8000c, 8, 1⟩
def R.CMP.REC_WIN.POST_MS : Fld := ⟨0x1d80010, 0, 16⟩
def R.CMP.REC_TDT.DT : Fld := ⟨0x1d80018, 0, 64⟩
def R.CMP.REC_WR.CSEQ : Fld := ⟨0x1d80020, 0, 32⟩
def R.CMP.REC_FRZ_FIRST.CSEQ : Fld := ⟨0x1d80024, 0, 32⟩
def R.CMP.REC_FRZ_LAST.CSEQ : Fld := ⟨0x1d80028, 0, 32⟩
def R.CMP.REC_CHUNKS.NCH : Fld := ⟨0x1d8002c, 0, 32⟩
def R.CMP.JOB_DESC.ADDR (i : Nat) : Fld := ⟨0x1d80100 + 0x20 * i, 0, 37⟩
def R.CMP.JOB_CMD.START (i : Nat) : Fld := ⟨0x1d80108 + 0x20 * i, 0, 1⟩
def R.CMP.JOB_CMD.RESUME (i : Nat) : Fld := ⟨0x1d80108 + 0x20 * i, 1, 1⟩
def R.CMP.JOB_CMD.ABORT (i : Nat) : Fld := ⟨0x1d80108 + 0x20 * i, 2, 1⟩
def R.CMP.JOB_STATUS.SEQ (i : Nat) : Fld := ⟨0x1d8010c + 0x20 * i, 24, 8⟩
def R.CMP.JOB_STATUS.STOP (i : Nat) : Fld := ⟨0x1d8010c + 0x20 * i, 9, 1⟩
def R.CMP.JOB_STATUS.DONE (i : Nat) : Fld := ⟨0x1d8010c + 0x20 * i, 8, 1⟩
def R.CMP.JOB_STATUS.STATE (i : Nat) : Fld := ⟨0x1d8010c + 0x20 * i, 0, 2⟩
def R.CMP.STAT.COUNT (i : Nat) : Fld := ⟨0x1d80200 + 0x4 * i, 0, 32⟩

/-- Registers of TOP, piece 0, by the tables of its chapter. -/
def regsTOP0 : List RegDef := [
  ⟨0x200, [], false, false, [⟨0, 2, .rwb, 0x2, .rebase⟩, ⟨2, 1, .rwb, 0x0, .rebase⟩, ⟨3, 1, .rwb, 0x0, .rebase⟩, ⟨4, 1, .rwb, 0x1, .rebase⟩, ⟨5, 2, .rwb, 0x0, .batch⟩, ⟨7, 1, .rwb, 0x0, .rebase⟩, ⟨8, 1, .rwb, 0x0, .rebase⟩, ⟨9, 3, .rwb, 0x7, .rebase⟩, ⟨12, 4, .rwb, 0x0, .rebase⟩]⟩,
  ⟨0x204, [], false, false, [⟨0, 2, .ro, 0x2, .none⟩, ⟨2, 1, .ro, 0x0, .none⟩, ⟨3, 1, .ro, 0x0, .none⟩, ⟨4, 1, .ro, 0x1, .none⟩, ⟨5, 2, .ro, 0x0, .none⟩, ⟨7, 1, .ro, 0x0, .none⟩, ⟨8, 1, .ro, 0x0, .none⟩, ⟨9, 3, .ro, 0x7, .none⟩, ⟨12, 4, .ro, 0x0, .none⟩]⟩,
  ⟨0x210, [], false, false, [⟨0, 16, .ro, 0x0, .none⟩, ⟨16, 3, .ro, 0x0, .none⟩]⟩,
  ⟨0x214, [], false, false, [⟨0, 16, .rwb, 0x200, .batch⟩, ⟨16, 16, .ro, 0x0, .none⟩]⟩,
  ⟨0x218, [], false, false, [⟨0, 16, .rwb, 0x104, .batch⟩, ⟨16, 16, .ro, 0x0, .none⟩]⟩,
  ⟨0x21c, [], false, false, [⟨0, 16, .rwb, 0x5a, .batch⟩, ⟨16, 16, .ro, 0x0, .none⟩]⟩,
  ⟨0x220, [], false, false, [⟨0, 16, .rwb, 0x46, .batch⟩, ⟨16, 16, .ro, 0x0, .none⟩]⟩,
  ⟨0x224, [], false, false, [⟨0, 16, .rwb, 0x12c, .batch⟩, ⟨16, 16, .ro, 0x0, .none⟩]⟩,
  ⟨0x228, [], false, false, [⟨0, 16, .rwb, 0xc8, .batch⟩, ⟨16, 16, .ro, 0x0, .none⟩]⟩,
  ⟨0x22c, [], false, false, [⟨24, 8, .rsq, 0x0, .none⟩, ⟨2, 1, .rsq, 0x0, .none⟩, ⟨1, 1, .rsq, 0x0, .none⟩, ⟨0, 1, .rsq, 0x0, .none⟩]⟩,
  ⟨0x240, [], false, false, [⟨24, 8, .rsq, 0x0, .none⟩, ⟨23, 1, .rsq, 0x0, .none⟩, ⟨20, 1, .rsq, 0x0, .none⟩, ⟨16, 4, .rsq, 0x0, .none⟩, ⟨8, 8, .rsq, 0x0, .none⟩, ⟨0, 6, .rsq, 0x0, .none⟩]⟩,
  ⟨0x250, [], false, false, [⟨24, 8, .rsq, 0x0, .none⟩, ⟨8, 16, .rsq, 0x0, .none⟩, ⟨0, 4, .rsq, 0x0, .none⟩]⟩,
  ⟨0x254, [], false, false, [⟨0, 28, .ro, 0x0, .none⟩, ⟨30, 2, .ro, 0x0, .none⟩]⟩,
  ⟨0x260, [], false, true, [⟨0, 4, .ro, 0x1, .none⟩, ⟨4, 4, .ro, 0x0, .none⟩, ⟨8, 4, .ro, 0x0, .none⟩, ⟨16, 1, .ro, 0x0, .none⟩, ⟨17, 1, .ro, 0x0, .none⟩]⟩,
  ⟨0x264, [], false, false, [⟨0, 1, .cmd, 0x0, .none⟩, ⟨16, 16, .wo, 0x0, .none⟩]⟩,
  ⟨0x270, [], false, true, [⟨0, 3, .rw, 0x0, .none⟩, ⟨4, 3, .ro, 0x0, .none⟩, ⟨7, 1, .ro, 0x1, .none⟩, ⟨8, 2, .ro, 0x0, .none⟩, ⟨16, 8, .ro, 0x0, .none⟩]⟩,
  ⟨0x274, [], false, false, [⟨24, 8, .rsq, 0x0, .none⟩, ⟨10, 1, .rsq, 0x0, .none⟩, ⟨9, 1, .rsq, 0x0, .none⟩, ⟨8, 1, .rsq, 0x0, .none⟩]⟩,
  ⟨0x278, [], false, false, [⟨0, 16, .ro, 0x0, .none⟩]⟩,
  ⟨0x1000, [(0x4, 256)], false, false, [⟨28, 4, .rwb, 0x0, .rebase⟩, ⟨16, 12, .rwb, 0x0, .rebase⟩, ⟨14, 2, .ro, 0x0, .none⟩, ⟨8, 6, .rwb, 0x0, .rebase⟩, ⟨7, 1, .ro, 0x0, .none⟩, ⟨6, 1, .ro, 0x0, .none⟩]⟩,
  ⟨0x2000, [(0x8, 64)], true, false, [⟨0, 17, .rwb, 0x0, .rebase⟩, ⟨32, 17, .rwb, 0x0, .rebase⟩, ⟨52, 4, .rwb, 0x0, .rebase⟩]⟩,
  ⟨0x3000, [(0x4, 48)], false, false, [⟨0, 2, .rwb, 0x0, .rebase⟩, ⟨2, 4, .rwb, 0x0, .rebase⟩, ⟨6, 2, .rw, 0x1, .none⟩, ⟨8, 2, .rw, 0x1, .none⟩]⟩,
  ⟨0x3100, [], true, false, [⟨0, 48, .rw, 0x0, .none⟩]⟩,
  ⟨0x3108, [], true, false, [⟨0, 48, .rw, 0x0, .none⟩]⟩,
  ⟨0x3110, [], true, false, [⟨0, 48, .ro, 0x0, .none⟩]⟩]

/-- The TOP block of R29. -/
def blkTOP : BlockDef := ⟨0x0, 0, 1, 0x10000, regsTOP0 ++ perfRegs⟩

/-- Registers of SNP, piece 0, by the tables of its chapter. -/
def regsSNP0 : List RegDef := [
  ⟨0x0, [], false, false, [⟨0, 5, .rw, 0x1, .none⟩, ⟨5, 1, .rw, 0x0, .none⟩, ⟨8, 4, .rw, 0x0, .none⟩]⟩,
  ⟨0x4, [], false, false, [⟨0, 1, .cmd, 0x0, .none⟩, ⟨1, 1, .cmd, 0x0, .none⟩]⟩,
  ⟨0x8, [], false, false, [⟨0, 1, .cmd, 0x0, .none⟩]⟩,
  ⟨0xc, [], false, false, [⟨0, 16, .rw, 0x7d0, .none⟩]⟩,
  ⟨0x10, [], false, false, [⟨0, 8, .rw, 0x0, .none⟩]⟩,
  ⟨0x20, [], false, false, [⟨24, 8, .rsq, 0x0, .none⟩, ⟨2, 5, .rsq, 0x0, .none⟩, ⟨0, 2, .ro, 0x0, .none⟩]⟩,
  ⟨0x24, [], false, false, [⟨0, 16, .ro, 0x0, .none⟩, ⟨16, 16, .ro, 0x0, .none⟩]⟩,
  ⟨0x28, [], true, false, [⟨0, 64, .ro, 0x0, .none⟩]⟩]

/-- The SNP block of R29. -/
def blkSNP : BlockDef := ⟨0x10000, 1, 1, 0x10000, regsSNP0 ++ perfRegs⟩

/-- Registers of PRF, piece 0, by the tables of its chapter. -/
def regsPRF0 : List RegDef := [
  ⟨0x0, [], false, false, [⟨0, 1, .rw, 0x0, .none⟩, ⟨1, 1, .rw, 0x1, .none⟩]⟩,
  ⟨0x4, [], false, false, [⟨0, 30, .rwb, 0xf4240, .imm⟩]⟩,
  ⟨0x8, [], false, false, [⟨0, 22, .rw, 0x3fffff, .none⟩]⟩,
  ⟨0xc, [], false, false, [⟨0, 6, .rwb, 0x0, .rebase⟩]⟩,
  ⟨0x10, [], false, false, [⟨0, 32, .ro, 0x0, .none⟩]⟩,
  ⟨0x14, [], false, false, [⟨0, 32, .rw, 0x0, .none⟩]⟩,
  ⟨0x18, [], false, false, [⟨24, 8, .rsq, 0x0, .none⟩, ⟨2, 1, .rsq, 0x0, .none⟩, ⟨1, 1, .rsq, 0x0, .none⟩, ⟨0, 1, .rsq, 0x0, .none⟩]⟩,
  ⟨0x1c, [], false, false, [⟨0, 32, .ro, 0x0, .none⟩]⟩,
  ⟨0x20, [], false, false, [⟨0, 32, .ro, 0x0, .none⟩]⟩,
  ⟨0x30, [], false, false, [⟨0, 1, .rw, 0x0, .none⟩]⟩,
  ⟨0x100, [(0x4, 31)], false, false, [⟨0, 5, .rw, 0x0, .none⟩, ⟨8, 8, .rw, 0x0, .none⟩, ⟨31, 1, .rw, 0x0, .none⟩]⟩]

/-- The PRF block of R29. -/
def blkPRF : BlockDef := ⟨0x20000, 2, 1, 0x10000, regsPRF0 ++ perfRegs⟩

/-- Registers of MGT, piece 0, by the tables of its chapter. -/
def regsMGT0 : List RegDef := [
  ⟨0x0, [], false, false, [⟨0, 16, .ro, 0x0, .none⟩, ⟨16, 16, .ro, 0x1, .none⟩]⟩,
  ⟨0x4, [], false, true, [⟨24, 8, .rsq, 0x0, .none⟩, ⟨14, 1, .rsq, 0x0, .none⟩, ⟨13, 1, .rsq, 0x0, .none⟩, ⟨12, 1, .rsq, 0x0, .none⟩, ⟨11, 1, .rsq, 0x0, .none⟩, ⟨9, 1, .rsq, 0x0, .none⟩, ⟨8, 1, .rsq, 0x0, .none⟩, ⟨0, 2, .ro, 0x0, .none⟩]⟩,
  ⟨0x8, [], false, false, [⟨0, 1, .cmd, 0x0, .none⟩]⟩,
  ⟨0xc, [], false, false, [⟨0, 1, .ro, 0x0, .none⟩]⟩,
  ⟨0x10, [], false, true, [⟨0, 32, .ro, 0x0, .none⟩]⟩,
  ⟨0x14, [], false, false, [⟨0, 2, .rw, 0x1, .none⟩, ⟨4, 2, .rw, 0x0, .none⟩]⟩,
  ⟨0x18, [], false, false, [⟨0, 32, .ro, 0x0, .none⟩]⟩,
  ⟨0x1c, [], false, false, [⟨0, 8, .rw, 0x70, .none⟩]⟩,
  ⟨0x20, [], false, false, [⟨0, 8, .rw, Config.tempHotReset, .none⟩]⟩,
  ⟨0x24, [], false, false, [⟨0, 16, .ro, 0x0, .none⟩, ⟨16, 4, .ro, 0x0, .none⟩]⟩,
  ⟨0x40, [(0x4, 16)], false, true, [⟨0, 16, .ro, 0x0, .none⟩, ⟨31, 1, .ro, 0x0, .none⟩]⟩,
  ⟨0x80, [], false, true, [⟨0, 32, .ro, 0x0, .none⟩]⟩,
  ⟨0x84, [], false, true, [⟨0, 9, .ro, 0x0, .none⟩]⟩,
  ⟨0x88, [], false, false, [⟨0, 5, .rw, 0x5, .none⟩]⟩,
  ⟨0xa0, [], false, false, [⟨0, 2, .rwb, 0x1, .rebase⟩, ⟨31, 1, .rwb, 0x0, .rebase⟩]⟩,
  ⟨0xa4, [], false, false, [⟨0, 10, .ro, 0x2ee, .none⟩, ⟨31, 1, .rwb, 0x0, .rebase⟩]⟩,
  ⟨0xa8, [], false, false, [⟨0, 10, .rwb, 0x2bc, .rebase⟩, ⟨16, 10, .rwb, 0x320, .rebase⟩]⟩,
  ⟨0xc0, [(0x8, 8)], false, false, [⟨0, 7, .rwb, 0x0, .rebase⟩, ⟨8, 8, .rwb, 0xff, .rebase⟩, ⟨16, 1, .rwb, 0x0, .rebase⟩, ⟨17, 1, .rwb, 0x0, .rebase⟩, ⟨31, 1, .rwb, 0x0, .rebase⟩]⟩,
  ⟨0xc4, [(0x8, 8)], false, true, [⟨0, 16, .ro, 0x0, .none⟩, ⟨31, 1, .ro, 0x0, .none⟩]⟩,
  ⟨0x100, [(0x4, 8)], false, false, [⟨0, 32, .rw, 0x0, .none⟩]⟩]

/-- The MGT block of R29. -/
def blkMGT : BlockDef := ⟨0x40000, 3, 1, 0x40000, regsMGT0 ++ perfRegs⟩

/-- Registers of PWR, piece 0, by the tables of its chapter. -/
def regsPWR0 : List RegDef := [
  ⟨0x0, [], false, false, [⟨0, 2, .rwp, 0x0, .none⟩, ⟨8, 1, .cmd, 0x0, .none⟩, ⟨9, 1, .cmd, 0x0, .none⟩]⟩,
  ⟨0x4, [], false, false, [⟨0, 1, .ro, 0x0, .none⟩]⟩,
  ⟨0x8, [], false, true, [⟨24, 8, .rsq, 0x0, .none⟩, ⟨10, 1, .rsq, 0x0, .none⟩, ⟨9, 1, .rsq, 0x0, .none⟩, ⟨8, 1, .rsq, 0x0, .none⟩, ⟨0, 3, .ro, 0x0, .none⟩]⟩,
  ⟨0xc, [], false, false, [⟨0, 1, .rwp, 0x1, .none⟩, ⟨1, 1, .rwp, 0x0, .none⟩, ⟨2, 1, .rwp, 0x0, .none⟩, ⟨3, 1, .rwp, 0x1, .none⟩, ⟨8, 8, .rwp, 0x0, .none⟩, ⟨16, 1, .rwp, 0x1, .none⟩]⟩,
  ⟨0x10, [], true, false, [⟨0, 64, .rwp, 0x0, .none⟩]⟩,
  ⟨0x18, [], false, false, [⟨0, 4, .ro, 0x0, .none⟩]⟩,
  ⟨0x1c, [], false, true, [⟨0, 32, .ro, 0x7, .none⟩]⟩,
  ⟨0x20, [], false, true, [⟨0, 9, .ro, 0x40, .none⟩]⟩,
  ⟨0x24, [], false, true, [⟨0, 6, .ro, 0x0, .none⟩, ⟨8, 6, .ro, 0x0, .none⟩]⟩,
  ⟨0x28, [], false, false, [⟨0, 16, .ro, 0x0, .none⟩, ⟨16, 4, .ro, 0x0, .none⟩, ⟨31, 1, .ro, 0x0, .none⟩]⟩,
  ⟨0x2c, [], false, false, [⟨0, 8, .ro, 0x80, .none⟩]⟩,
  ⟨0x100, [(0x4, 6)], false, false, [⟨0, 32, .rwp, 0x0, .none⟩]⟩]

/-- The PWR block of R29. -/
def blkPWR : BlockDef := ⟨0x80000, 4, 1, 0x20000, regsPWR0 ++ perfRegs⟩

/-- Registers of CAL, piece 0, by the tables of its chapter. -/
def regsCAL0 : List RegDef := [
  ⟨0x0, [], false, false, [⟨0, 1, .rwp, 0x1, .none⟩, ⟨1, 1, .rwp, 0x0, .none⟩, ⟨8, 5, .rwp, 0x6, .none⟩, ⟨16, 10, .rwp, 0x32, .none⟩]⟩,
  ⟨0x4, [], false, false, [⟨0, 16, .rwp, 0x258, .none⟩]⟩,
  ⟨0x8, [], false, false, [⟨0, 6, .rwp, 0x3f, .none⟩, ⟨8, 1, .cmd, 0x0, .none⟩]⟩,
  ⟨0xc, [], false, false, [⟨0, 1, .ro, 0x0, .none⟩]⟩,
  ⟨0x10, [], false, true, [⟨24, 8, .rsq, 0x0, .none⟩, ⟨10, 1, .rsq, 0x0, .none⟩, ⟨9, 1, .rsq, 0x0, .none⟩, ⟨8, 1, .rsq, 0x0, .none⟩, ⟨0, 6, .ro, 0x3f, .none⟩]⟩,
  ⟨0x14, [], false, false, [⟨0, 16, .ro, 0x0, .none⟩]⟩,
  ⟨0x100, [(0x10, 43)], false, true, [⟨0, 32, .ro, 0x0, .none⟩]⟩,
  ⟨0x104, [(0x10, 43)], false, false, [⟨0, 32, .ro, 0x0, .none⟩]⟩,
  ⟨0x108, [(0x10, 43)], false, false, [⟨0, 16, .ro, 0x0, .none⟩, ⟨16, 16, .ro, 0x0, .none⟩]⟩]

/-- The CAL block of R29. -/
def blkCAL : BlockDef := ⟨0xa0000, 5, 1, 0x20000, regsCAL0 ++ perfRegs⟩

/-- Registers of RAS, piece 0, by the tables of its chapter. -/
def regsRAS0 : List RegDef := [
  ⟨0x0, [], false, false, [⟨0, 1, .rw, 0x1, .none⟩, ⟨1, 1, .rw, 0x1, .none⟩, ⟨2, 1, .rw, 0x1, .none⟩, ⟨3, 1, .rw, 0x1, .none⟩, ⟨8, 8, .rw, 0x4, .none⟩]⟩,
  ⟨0x4, [], false, true, [⟨24, 8, .rsq, 0x0, .none⟩, ⟨19, 1, .rsq, 0x0, .none⟩, ⟨18, 1, .rsq, 0x0, .none⟩, ⟨17, 1, .rsq, 0x0, .none⟩, ⟨16, 1, .rsq, 0x0, .none⟩, ⟨15, 1, .rsq, 0x0, .none⟩, ⟨14, 1, .rsq, 0x0, .none⟩, ⟨13, 1, .rsq, 0x0, .none⟩, ⟨12, 1, .rsq, 0x0, .none⟩, ⟨11, 1, .rsq, 0x0, .none⟩, ⟨10, 1, .rsq, 0x0, .none⟩, ⟨9, 1, .rsq, 0x0, .none⟩, ⟨8, 1, .rsq, 0x0, .none⟩]⟩,
  ⟨0x8, [], false, true, [⟨0, 8, .ro, 0x0, .none⟩, ⟨8, 8, .ro, 0x0, .none⟩, ⟨16, 8, .ro, 0x0, .none⟩, ⟨24, 8, .ro, 0x0, .none⟩]⟩,
  ⟨0xc, [], false, false, [⟨0, 12, .rw, 0x2, .none⟩]⟩,
  ⟨0x10, [], false, false, [⟨0, 8, .rw, 0x0, .none⟩, ⟨8, 3, .rw, 0x0, .none⟩, ⟨16, 1, .cmd, 0x0, .none⟩]⟩,
  ⟨0x20, [], false, false, [⟨0, 4, .ro, 0x0, .none⟩, ⟨8, 8, .ro, 0x0, .none⟩, ⟨16, 8, .ro, 0x0, .none⟩, ⟨24, 8, .ro, 0x0, .none⟩]⟩,
  ⟨0x24, [], false, false, [⟨0, 32, .ro, 0x0, .none⟩]⟩,
  ⟨0x28, [], true, false, [⟨0, 64, .ro, 0x0, .none⟩]⟩,
  ⟨0x30, [], true, false, [⟨0, 64, .ro, 0x0, .none⟩]⟩,
  ⟨0x38, [], false, false, [⟨0, 32, .ro, 0x0, .none⟩]⟩,
  ⟨0x40, [], false, false, [⟨0, 11, .ro, 0x0, .none⟩, ⟨16, 1, .ro, 0x0, .none⟩, ⟨17, 1, .ro, 0x0, .none⟩]⟩,
  ⟨0x100, [(0x4, 12)], false, true, [⟨0, 32, .rw, 0x0, .none⟩]⟩,
  ⟨0x1000, [(0x4, 136)], false, true, [⟨0, 8, .ro, 0x0, .none⟩, ⟨31, 1, .ro, 0x0, .none⟩]⟩]

/-- The RAS block of R29. -/
def blkRAS : BlockDef := ⟨0xc0000, 6, 1, 0x40000, regsRAS0 ++ perfRegs⟩

/-- Registers of TIM, piece 0, by the tables of its chapter. -/
def regsTIM0 : List RegDef := [
  ⟨0x0, [], true, true, [⟨0, 64, .ro, 0x0, .none⟩]⟩,
  ⟨0x8, [], false, true, [⟨0, 32, .ro, 0x0, .none⟩]⟩,
  ⟨0xc, [], false, false, [⟨0, 2, .ro, 0x3, .none⟩, ⟨2, 1, .ro, 0x0, .none⟩]⟩,
  ⟨0x10, [], false, false, [⟨0, 32, .rw, 0x0, .none⟩]⟩,
  ⟨0x18, [], true, false, [⟨0, 64, .rwb, 0x0, .rebase⟩]⟩,
  ⟨0x20, [], false, false, [⟨0, 1, .rwb, 0x0, .rebase⟩]⟩,
  ⟨0x24, [], false, false, [⟨0, 32, .rwb, 0x0, .rebase⟩]⟩,
  ⟨0x40, [], false, false, [⟨0, 10, .rw, 0x64, .none⟩, ⟨31, 1, .rw, 0x0, .none⟩]⟩,
  ⟨0x44, [], false, false, [⟨0, 1, .cmd, 0x0, .none⟩]⟩,
  ⟨0x48, [], false, false, [⟨24, 8, .rsq, 0x0, .none⟩, ⟨2, 1, .rsq, 0x0, .none⟩, ⟨1, 1, .rsq, 0x0, .none⟩, ⟨0, 1, .rsq, 0x0, .none⟩]⟩,
  ⟨0x4c, [], false, false, [⟨0, 32, .ro, 0x0, .none⟩]⟩,
  ⟨0x50, [], true, false, [⟨0, 64, .ro, 0x0, .none⟩]⟩,
  ⟨0x58, [], true, false, [⟨0, 64, .ro, 0x0, .none⟩]⟩,
  ⟨0x100, [(0x20, 8)], false, false, [⟨0, 1, .rwb, 0x0, .batch⟩, ⟨1, 3, .rwb, 0x4, .batch⟩, ⟨8, 8, .rwb, 0xf6, .batch⟩, ⟨16, 8, .rwb, 0xf8, .batch⟩]⟩,
  ⟨0x104, [(0x20, 8)], false, false, [⟨0, 32, .rw, 0x0, .none⟩]⟩,
  ⟨0x108, [(0x20, 8)], false, false, [⟨24, 8, .rsq, 0x0, .none⟩, ⟨0, 1, .rsq, 0x0, .none⟩]⟩,
  ⟨0x200, [(0x40, 2)], false, false, [⟨0, 2, .rwb, 0x0, .batch⟩, ⟨2, 1, .rwb, 0x0, .batch⟩, ⟨8, 8, .rwb, 0x0, .batch⟩]⟩,
  ⟨0x208, [(0x40, 2)], true, false, [⟨0, 48, .rwb, 0x0, .batch⟩]⟩,
  ⟨0x210, [(0x40, 2)], true, true, [⟨0, 64, .ro, 0x0, .none⟩]⟩,
  ⟨0x218, [(0x40, 2)], true, false, [⟨0, 64, .ro, 0x0, .none⟩]⟩,
  ⟨0x220, [(0x40, 2)], false, false, [⟨24, 8, .rsq, 0x0, .none⟩, ⟨2, 1, .rsq, 0x0, .none⟩, ⟨1, 1, .rsq, 0x0, .none⟩, ⟨0, 1, .rsq, 0x0, .none⟩]⟩,
  ⟨0x400, [(0x40, 4)], false, false, [⟨0, 2, .rwb, 0x0, .batch⟩, ⟨2, 1, .rwb, 0x0, .batch⟩, ⟨3, 1, .rwb, 0x0, .batch⟩, ⟨4, 3, .rwb, 0x0, .batch⟩, ⟨16, 16, .rwb, 0x7d0, .batch⟩]⟩,
  ⟨0x408, [(0x40, 4)], true, false, [⟨0, 48, .rwb, 0x4e200000, .batch⟩]⟩,
  ⟨0x410, [(0x40, 4)], false, false, [⟨0, 32, .rwb, 0x10000, .batch⟩]⟩,
  ⟨0x414, [(0x40, 4)], false, false, [⟨0, 32, .rwb, 0x1388, .batch⟩]⟩,
  ⟨0x418, [(0x40, 4)], true, false, [⟨0, 64, .rwb, 0x0, .batch⟩]⟩,
  ⟨0x420, [(0x40, 4)], false, true, [⟨0, 32, .ro, 0x0, .none⟩]⟩,
  ⟨0x424, [(0x40, 4)], false, false, [⟨24, 8, .rsq, 0x0, .none⟩, ⟨1, 1, .rsq, 0x0, .none⟩, ⟨0, 1, .rsq, 0x0, .none⟩]⟩,
  ⟨0x428, [(0x40, 4)], true, true, [⟨0, 64, .ro, 0x0, .none⟩]⟩,
  ⟨0x430, [(0x40, 4)], false, false, [⟨0, 32, .ro, 0x0, .none⟩]⟩]

/-- Registers of TIM, piece 1, by the tables of its chapter. -/
def regsTIM1 : List RegDef := [
  ⟨0x600, [(0x10, 12)], false, false, [⟨0, 2, .rwb, 0x0, .batch⟩, ⟨2, 1, .rwb, 0x0, .batch⟩, ⟨3, 1, .rwb, 0x0, .batch⟩, ⟨4, 1, .rwb, 0x1, .batch⟩, ⟨8, 8, .rwb, 0x64, .batch⟩, ⟨16, 16, .rwb, 0x0, .batch⟩]⟩,
  ⟨0x604, [(0x10, 12)], false, false, [⟨0, 32, .rw, 0x0, .none⟩]⟩,
  ⟨0x608, [(0x10, 12)], false, false, [⟨0, 32, .ro, 0x0, .none⟩]⟩,
  ⟨0x700, [], false, false, [⟨0, 17, .rwb, 0x100, .rebase⟩]⟩,
  ⟨0x704, [], false, false, [⟨0, 1, .cmd, 0x0, .none⟩, ⟨1, 1, .rw, 0x0, .none⟩, ⟨2, 1, .rw, 0x0, .none⟩, ⟨4, 3, .rw, 0x0, .none⟩, ⟨7, 1, .rw, 0x0, .none⟩]⟩,
  ⟨0x708, [], true, false, [⟨0, 48, .rw, 0x0, .none⟩]⟩,
  ⟨0x710, [], false, false, [⟨24, 8, .rsq, 0x0, .none⟩, ⟨16, 1, .rsq, 0x0, .none⟩, ⟨0, 16, .ro, 0x0, .none⟩]⟩,
  ⟨0x1000, [(0x20, 16)], false, false, [⟨0, 1, .rw, 0x0, .none⟩, ⟨1, 3, .rw, 0x0, .none⟩, ⟨5, 1, .rw, 0x1, .none⟩, ⟨8, 8, .rw, 0x1, .none⟩]⟩,
  ⟨0x1004, [(0x20, 16)], false, false, [⟨24, 8, .rsq, 0x0, .none⟩, ⟨8, 16, .rsq, 0x0, .none⟩, ⟨2, 1, .rsq, 0x0, .none⟩, ⟨1, 1, .rsq, 0x0, .none⟩, ⟨0, 1, .rsq, 0x0, .none⟩]⟩,
  ⟨0x1008, [(0x20, 16)], true, true, [⟨0, 64, .rw, 0x0, .none⟩]⟩,
  ⟨0x1010, [(0x20, 16)], true, false, [⟨0, 64, .rw, 0x0, .none⟩]⟩,
  ⟨0x2000, [(0x40, 8)], false, false, [⟨0, 2, .rw, 0x0, .none⟩, ⟨8, 8, .rw, 0x0, .none⟩]⟩,
  ⟨0x2004, [(0x40, 8)], false, false, [⟨0, 1, .cmd, 0x0, .none⟩]⟩,
  ⟨0x2008, [(0x40, 8)], false, false, [⟨24, 8, .rsq, 0x0, .none⟩, ⟨16, 5, .ro, 0x0, .none⟩, ⟨2, 1, .ro, 0x0, .none⟩, ⟨1, 1, .ro, 0x0, .none⟩, ⟨0, 1, .rsq, 0x0, .none⟩]⟩,
  ⟨0x2010, [(0x40, 8)], true, false, [⟨0, 64, .ro, 0x0, .none⟩]⟩,
  ⟨0x2018, [(0x40, 8)], true, false, [⟨0, 64, .ro, 0x0, .none⟩]⟩,
  ⟨0x2020, [(0x40, 8)], true, false, [⟨0, 64, .ro, 0x0, .none⟩]⟩]

/-- The TIM block of R29. -/
def blkTIM : BlockDef := ⟨0x100000, 7, 1, 0x100000, regsTIM0 ++ regsTIM1 ++ perfRegs⟩

/-- Registers of LNE, piece 0, by the tables of its chapter. -/
def regsLNE0 : List RegDef := [
  ⟨0x0, [], false, false, [⟨0, 1, .rw, 0x0, .none⟩, ⟨1, 2, .rw, 0x0, .none⟩, ⟨3, 1, .rw, 0x0, .none⟩, ⟨4, 1, .rw, 0x0, .none⟩, ⟨5, 1, .rw, 0x0, .none⟩, ⟨6, 1, .rw, 0x0, .none⟩, ⟨8, 4, .rw, 0x8, .none⟩, ⟨12, 3, .rw, 0x0, .none⟩]⟩,
  ⟨0x4, [], false, false, [⟨0, 1, .cmd, 0x0, .none⟩, ⟨1, 1, .cmd, 0x0, .none⟩, ⟨2, 1, .cmd, 0x0, .none⟩]⟩,
  ⟨0x8, [], false, true, [⟨24, 8, .rsq, 0x0, .none⟩, ⟨14, 1, .rsq, 0x0, .none⟩, ⟨13, 1, .rsq, 0x0, .none⟩, ⟨12, 1, .rsq, 0x0, .none⟩, ⟨11, 1, .rsq, 0x0, .none⟩, ⟨10, 1, .rsq, 0x0, .none⟩, ⟨9, 1, .rsq, 0x0, .none⟩, ⟨8, 1, .rsq, 0x0, .none⟩, ⟨0, 4, .ro, 0x0, .none⟩]⟩,
  ⟨0x10, [], false, false, [⟨0, 4, .ro, 0x0, .none⟩]⟩,
  ⟨0x14, [], false, false, [⟨0, 30, .ro, 0x0, .none⟩]⟩,
  ⟨0x18, [], false, false, [⟨0, 5, .rw, 0x0, .none⟩, ⟨8, 6, .rw, 0x3f, .none⟩, ⟨16, 5, .rw, 0x0, .none⟩]⟩,
  ⟨0x1c, [], false, true, [⟨0, 4, .ro, 0x0, .none⟩, ⟨8, 2, .ro, 0x0, .none⟩, ⟨16, 16, .ro, 0x0, .none⟩]⟩,
  ⟨0x20, [], false, true, [⟨0, 32, .rw, 0x0, .none⟩]⟩,
  ⟨0x24, [], false, true, [⟨0, 32, .rw, 0x0, .none⟩]⟩,
  ⟨0x28, [], false, true, [⟨0, 32, .rw, 0x0, .none⟩]⟩,
  ⟨0x2c, [], false, false, [⟨0, 6, .ro, 0x0, .none⟩]⟩,
  ⟨0x30, [], false, false, [⟨0, 2, .rw, 0x0, .none⟩, ⟨2, 2, .rw, 0x0, .none⟩, ⟨4, 3, .rw, 0x0, .none⟩, ⟨8, 3, .rw, 0x0, .none⟩]⟩,
  ⟨0x34, [], false, false, [⟨24, 8, .rsq, 0x0, .none⟩, ⟨1, 1, .rsq, 0x0, .none⟩, ⟨0, 1, .ro, 0x0, .none⟩]⟩,
  ⟨0x38, [], false, true, [⟨0, 32, .rw, 0x0, .none⟩]⟩,
  ⟨0x40, [], true, false, [⟨0, 48, .rw, 0x0, .none⟩]⟩,
  ⟨0x48, [], false, false, [⟨0, 3, .rw, 0x0, .none⟩, ⟨3, 1, .cmd, 0x0, .none⟩, ⟨8, 20, .rw, 0x0, .none⟩]⟩,
  ⟨0x50, [], false, false, [⟨0, 8, .rw, 0x14, .none⟩, ⟨8, 1, .rw, 0x1, .none⟩, ⟨16, 8, .rw, 0x10, .none⟩, ⟨24, 6, .rw, 0x20, .none⟩]⟩]

/-- The LNE block of R29. -/
def blkLNE : BlockDef := ⟨0x200000, 8, 60, 0x4000, regsLNE0 ++ perfRegs⟩

/-- Registers of EKL, piece 0, by the tables of its chapter. -/
def regsEKL0 : List RegDef := [
  ⟨0x0, [], false, false, [⟨0, 1, .rwb, 0x0, .rebase⟩, ⟨1, 2, .rwb, 0x0, .rebase⟩, ⟨4, 3, .rwb, 0x0, .rebase⟩, ⟨8, 6, .rwb, 0x0, .rebase⟩, ⟨16, 4, .rwb, 0xf, .rebase⟩, ⟨20, 1, .rw, 0x1, .none⟩, ⟨21, 1, .rw, 0x0, .none⟩, ⟨22, 1, .rw, 0x0, .none⟩]⟩,
  ⟨0x4, [], false, false, [⟨0, 1, .cmd, 0x0, .none⟩, ⟨1, 1, .cmd, 0x0, .none⟩]⟩,
  ⟨0x8, [], false, true, [⟨24, 8, .rsq, 0x0, .none⟩, ⟨13, 1, .rsq, 0x0, .none⟩, ⟨12, 1, .rsq, 0x0, .none⟩, ⟨11, 1, .rsq, 0x0, .none⟩, ⟨10, 1, .rsq, 0x0, .none⟩, ⟨9, 1, .rsq, 0x0, .none⟩, ⟨8, 1, .rsq, 0x0, .none⟩, ⟨6, 2, .ro, 0x0, .none⟩, ⟨0, 4, .ro, 0x0, .none⟩]⟩,
  ⟨0xc, [], false, false, [⟨0, 4, .ro, 0x0, .none⟩]⟩,
  ⟨0x10, [], false, false, [⟨0, 17, .rwb, 0x100, .rebase⟩, ⟨24, 8, .rwb, 0x10, .batch⟩]⟩,
  ⟨0x14, [], false, false, [⟨0, 20, .rwb, 0x9c40, .block⟩]⟩,
  ⟨0x18, [], false, false, [⟨0, 16, .rw, 0x3e8, .none⟩]⟩,
  ⟨0x1c, [], false, false, [⟨0, 4, .rw, 0xa, .none⟩, ⟨8, 8, .rw, 0x64, .none⟩]⟩,
  ⟨0x20, [(0x8, 4)], false, false, [⟨0, 1, .rwb, 0x0, .rebase⟩, ⟨4, 4, .rwb, 0x0, .rebase⟩, ⟨8, 6, .rwb, 0x0, .rebase⟩, ⟨16, 15, .rwb, 0x0, .rebase⟩]⟩,
  ⟨0x24, [(0x8, 4)], false, false, [⟨0, 16, .rwb, 0x0, .block⟩]⟩,
  ⟨0x40, [(0x10, 2)], false, false, [⟨0, 32, .rw, 0x0, .none⟩]⟩,
  ⟨0x44, [(0x10, 2)], false, false, [⟨0, 32, .rw, 0x0, .none⟩]⟩,
  ⟨0x48, [(0x10, 2)], false, false, [⟨0, 1, .cmd, 0x0, .none⟩, ⟨1, 1, .cmd, 0x0, .none⟩]⟩,
  ⟨0x4c, [(0x10, 2)], false, false, [⟨24, 8, .rsq, 0x0, .none⟩, ⟨8, 4, .ro, 0x0, .none⟩, ⟨2, 1, .rsq, 0x0, .none⟩, ⟨1, 1, .rsq, 0x0, .none⟩, ⟨0, 1, .ro, 0x0, .none⟩]⟩,
  ⟨0x80, [], false, true, [⟨0, 32, .ro, 0x0, .none⟩]⟩,
  ⟨0x88, [], true, true, [⟨0, 64, .ro, 0x0, .none⟩]⟩,
  ⟨0x90, [], false, true, [⟨0, 32, .ro, 0x0, .none⟩]⟩,
  ⟨0x94, [], false, false, [⟨0, 32, .ro, 0x0, .none⟩]⟩,
  ⟨0x100, [(0x4, 16)], false, true, [⟨0, 32, .rw, 0x0, .none⟩]⟩,
  ⟨0x140, [], false, true, [⟨0, 32, .rw, 0x0, .none⟩]⟩,
  ⟨0x200, [], false, false, [⟨0, 16, .ro, 0x0, .none⟩]⟩,
  ⟨0x204, [], false, false, [⟨0, 32, .ro, 0x0, .none⟩]⟩,
  ⟨0x210, [], false, false, [⟨0, 32, .ro, 0x0, .none⟩]⟩]

/-- The EKL block of R29. -/
def blkEKL : BlockDef := ⟨0x300000, 9, 12, 0x10000, regsEKL0 ++ perfRegs⟩

/-- Registers of LTH, piece 0, by the tables of its chapter. -/
def regsLTH0 : List RegDef := [
  ⟨0x0, [], false, false, [⟨0, 1, .rwb, 0x0, .rebase⟩, ⟨1, 1, .rw, 0x1, .none⟩]⟩,
  ⟨0x4, [], false, true, [⟨24, 8, .rsq, 0x0, .none⟩, ⟨10, 1, .rsq, 0x0, .none⟩, ⟨9, 1, .rsq, 0x0, .none⟩, ⟨8, 1, .rsq, 0x0, .none⟩, ⟨0, 3, .ro, 0x0, .none⟩]⟩,
  ⟨0x8, [], false, false, [⟨0, 20, .rw, 0x9c40, .none⟩]⟩,
  ⟨0xc, [], false, false, [⟨0, 1, .rw, 0x0, .none⟩, ⟨1, 2, .rw, 0x0, .none⟩, ⟨4, 3, .rw, 0x1, .none⟩, ⟨8, 8, .rw, 0x0, .none⟩, ⟨16, 5, .rw, 0x0, .none⟩]⟩,
  ⟨0x10, [], false, false, [⟨0, 2, .rw, 0x0, .none⟩, ⟨4, 2, .rw, 0x0, .none⟩, ⟨8, 3, .rw, 0x0, .none⟩, ⟨12, 1, .rw, 0x0, .none⟩]⟩,
  ⟨0x14, [], false, false, [⟨0, 32, .rw, 0x0, .none⟩]⟩,
  ⟨0x18, [], false, false, [⟨0, 32, .ro, 0x0, .none⟩]⟩,
  ⟨0x1c, [], false, true, [⟨0, 16, .ro, 0x0, .none⟩]⟩,
  ⟨0x100, [(0x80, 3)], false, false, [⟨0, 1, .rwb, 0x0, .rebase⟩, ⟨1, 1, .rwb, 0x0, .rebase⟩, ⟨4, 4, .rwb, 0x0, .rebase⟩, ⟨8, 1, .ro, 0x0, .none⟩]⟩,
  ⟨0x104, [(0x80, 3)], false, false, [⟨0, 14, .rwb, 0x0, .rebase⟩, ⟨16, 15, .rwb, 0x4000, .rebase⟩]⟩,
  ⟨0x108, [(0x80, 3)], false, false, [⟨0, 17, .rwb, 0x0, .rebase⟩]⟩,
  ⟨0x10c, [(0x80, 3)], false, false, [⟨0, 18, .ro, 0x0, .none⟩, ⟨31, 1, .ro, 0x0, .none⟩]⟩,
  ⟨0x110, [(0x80, 3)], false, false, [⟨0, 12, .rwb, 0x0, .block⟩, ⟨12, 1, .rwb, 0x1, .block⟩, ⟨13, 1, .rwb, 0x1, .block⟩]⟩,
  ⟨0x118, [(0x80, 3)], true, false, [⟨0, 60, .rwb, 0x1000121012421, .block⟩]⟩,
  ⟨0x120, [(0x80, 3)], false, false, [⟨0, 2, .rwb, 0x0, .block⟩, ⟨4, 12, .rwb, 0x100, .block⟩, ⟨16, 8, .rwb, 0x10, .block⟩, ⟨24, 8, .rwb, 0x4, .block⟩]⟩,
  ⟨0x124, [(0x80, 3)], false, false, [⟨0, 17, .rwb, 0x100, .block⟩, ⟨20, 4, .rwb, 0x0, .block⟩]⟩,
  ⟨0x128, [(0x80, 3)], false, false, [⟨0, 4, .rwb, 0x0, .block⟩]⟩,
  ⟨0x12c, [(0x80, 3)], false, false, [⟨0, 8, .rwb, 0x0, .rebase⟩, ⟨8, 1, .rwb, 0x0, .rebase⟩]⟩,
  ⟨0x130, [(0x80, 3)], false, false, [⟨0, 1, .cmd, 0x0, .none⟩, ⟨1, 1, .cmd, 0x0, .none⟩, ⟨8, 1, .ro, 0x0, .none⟩, ⟨9, 1, .ro, 0x0, .none⟩]⟩,
  ⟨0x134, [(0x80, 3)], false, true, [⟨24, 8, .rsq, 0x0, .none⟩, ⟨4, 1, .rsq, 0x0, .none⟩, ⟨3, 1, .rsq, 0x0, .none⟩, ⟨2, 1, .rsq, 0x0, .none⟩, ⟨1, 1, .rsq, 0x0, .none⟩, ⟨0, 1, .rsq, 0x0, .none⟩]⟩,
  ⟨0x138, [(0x80, 3)], false, true, [⟨0, 32, .ro, 0x0, .none⟩]⟩,
  ⟨0x13c, [(0x80, 3)], false, false, [⟨0, 32, .rw, 0x0, .none⟩]⟩]

/-- The LTH block of R29. -/
def blkLTH : BlockDef := ⟨0x400000, 10, 8, 0x80000, regsLTH0 ++ perfRegs⟩

/-- Registers of FUS, piece 0, by the tables of its chapter. -/
def regsFUS0 : List RegDef := [
  ⟨0x0, [], false, false, [⟨0, 1, .rwb, 0x0, .rebase⟩, ⟨1, 1, .rwb, 0x0, .rebase⟩, ⟨2, 1, .rw, 0x1, .none⟩, ⟨4, 4, .rwb, 0x0, .rebase⟩]⟩,
  ⟨0x4, [], false, false, [⟨0, 18, .rwb, 0x0, .rebase⟩]⟩,
  ⟨0x8, [], false, false, [⟨0, 20, .rwb, 0x9c40, .block⟩]⟩,
  ⟨0xc, [], false, true, [⟨24, 8, .rsq, 0x0, .none⟩, ⟨12, 1, .rsq, 0x0, .none⟩, ⟨11, 1, .rsq, 0x0, .none⟩, ⟨10, 1, .rsq, 0x0, .none⟩, ⟨9, 1, .rsq, 0x0, .none⟩, ⟨8, 1, .rsq, 0x0, .none⟩]⟩,
  ⟨0x10, [], false, true, [⟨0, 32, .ro, 0x0, .none⟩]⟩,
  ⟨0x18, [], true, true, [⟨0, 64, .ro, 0x0, .none⟩]⟩,
  ⟨0x20, [], false, false, [⟨0, 2, .rwb, 0x0, .block⟩, ⟨4, 12, .rwb, 0x40, .block⟩, ⟨16, 8, .rwb, 0x4, .block⟩, ⟨24, 8, .rwb, 0x10, .block⟩]⟩,
  ⟨0x24, [], false, false, [⟨0, 17, .rwb, 0x400, .block⟩]⟩,
  ⟨0x28, [], false, false, [⟨0, 1, .rw, 0x0, .none⟩, ⟨8, 8, .rw, 0x0, .none⟩, ⟨16, 5, .rw, 0x0, .none⟩]⟩,
  ⟨0x2c, [], false, false, [⟨0, 18, .rw, 0x0, .none⟩]⟩,
  ⟨0x30, [], false, false, [⟨0, 18, .rw, 0x20000, .none⟩]⟩,
  ⟨0x34, [], false, false, [⟨0, 1, .cmd, 0x0, .none⟩, ⟨1, 1, .cmd, 0x0, .none⟩, ⟨8, 1, .ro, 0x0, .none⟩, ⟨9, 1, .ro, 0x0, .none⟩]⟩,
  ⟨0x38, [], false, false, [⟨12, 1, .rw, 0x0, .none⟩]⟩,
  ⟨0x40, [], false, false, [⟨0, 1, .rwb, 0x0, .block⟩, ⟨1, 1, .rwb, 0x0, .block⟩, ⟨2, 6, .rwb, 0x0, .block⟩, ⟨8, 8, .rwb, 0x2, .block⟩, ⟨16, 8, .rwb, 0x8, .block⟩]⟩,
  ⟨0x44, [], false, false, [⟨0, 16, .rwb, 0x8000, .block⟩]⟩,
  ⟨0x48, [], false, false, [⟨0, 32, .rwb, 0x2faf080, .block⟩]⟩,
  ⟨0x100, [(0x4, 16)], false, true, [⟨0, 32, .rw, 0x0, .none⟩]⟩,
  ⟨0x200, [(0x4, 16)], false, false, [⟨0, 16, .rwb, 0x0, .block⟩]⟩,
  ⟨0x1000, [(0x40, 48)], false, false, [⟨0, 1, .rwb, 0x0, .block⟩, ⟨2, 4, .rwb, 0x0, .block⟩, ⟨6, 1, .rwb, 0x0, .block⟩, ⟨7, 1, .rwb, 0x0, .block⟩, ⟨8, 1, .rwb, 0x0, .block⟩, ⟨9, 1, .rwb, 0x1, .block⟩, ⟨16, 8, .rwb, 0x4, .block⟩]⟩,
  ⟨0x1004, [(0x40, 48)], false, false, [⟨0, 18, .rwb, 0x0, .block⟩]⟩,
  ⟨0x1008, [(0x40, 48)], false, false, [⟨0, 18, .rwb, 0x0, .block⟩]⟩,
  ⟨0x100c, [(0x40, 48)], false, false, [⟨0, 18, .rwb, 0x0, .block⟩]⟩,
  ⟨0x1010, [(0x40, 48)], false, false, [⟨0, 16, .rwb, 0x4000, .block⟩, ⟨16, 16, .rwb, 0x0, .block⟩]⟩,
  ⟨0x1014, [(0x40, 48)], false, false, [⟨0, 10, .rwb, 0x0, .block⟩, ⟨16, 6, .rwb, 0x0, .block⟩]⟩,
  ⟨0x1018, [(0x40, 48)], false, true, [⟨0, 9, .rwb, 0x0, .line⟩]⟩,
  ⟨0x101c, [(0x40, 48)], false, true, [⟨0, 9, .ro, 0x0, .none⟩, ⟨16, 16, .ro, 0x0, .none⟩]⟩,
  ⟨0x1020, [(0x40, 48)], false, false, [⟨0, 16, .ro, 0x0, .none⟩, ⟨16, 16, .ro, 0x0, .none⟩]⟩,
  ⟨0x1024, [(0x40, 48)], false, true, [⟨24, 8, .rsq, 0x0, .none⟩, ⟨3, 1, .rsq, 0x0, .none⟩, ⟨2, 1, .rsq, 0x0, .none⟩, ⟨1, 1, .rsq, 0x0, .none⟩, ⟨0, 1, .rsq, 0x0, .none⟩]⟩]

/-- The FUS block of R29. -/
def blkFUS : BlockDef := ⟨0x800000, 11, 1, 0x400000, regsFUS0 ++ perfRegs⟩

/-- Registers of CLS, piece 0, by the tables of its chapter. -/
def regsCLS0 : List RegDef := [
  ⟨0x0, [], false, false, [⟨0, 1, .rwb, 0x0, .rebase⟩, ⟨1, 1, .rw, 0x1, .none⟩, ⟨2, 1, .rwb, 0x0, .block⟩, ⟨4, 4, .rwb, 0x0, .block⟩]⟩,
  ⟨0x4, [], false, false, [⟨0, 1, .rwb, 0x0, .block⟩, ⟨1, 1, .rwb, 0x0, .block⟩, ⟨2, 1, .rwb, 0x0, .block⟩, ⟨4, 4, .rwb, 0x0, .block⟩, ⟨8, 3, .rwb, 0x0, .block⟩, ⟨12, 3, .rwb, 0x1, .block⟩, ⟨16, 3, .rwb, 0x2, .block⟩]⟩,
  ⟨0x8, [], true, false, [⟨0, 64, .rwb, 0xfedcba9876543210, .block⟩]⟩,
  ⟨0x10, [], false, false, [⟨0, 5, .rwb, 0x10, .rebase⟩, ⟨16, 8, .ro, 0x0, .none⟩]⟩,
  ⟨0x14, [], false, false, [⟨0, 16, .rwb, 0xfffe, .block⟩, ⟨16, 16, .rwb, 0xf00, .block⟩]⟩,
  ⟨0x18, [], false, false, [⟨0, 16, .rwb, 0x3210, .block⟩, ⟨16, 4, .rwb, 0x0, .block⟩]⟩,
  ⟨0x1c, [], false, false, [⟨0, 1, .rwb, 0x1, .rebase⟩, ⟨8, 8, .rwb, 0x8, .block⟩]⟩,
  ⟨0x20, [], false, false, [⟨0, 16, .rwb, 0x1000, .block⟩]⟩,
  ⟨0x24, [], false, false, [⟨0, 1, .rw, 0x1, .none⟩, ⟨8, 16, .rw, 0x400, .none⟩]⟩,
  ⟨0x28, [], false, false, [⟨0, 1, .rwb, 0x0, .rebase⟩, ⟨1, 2, .rwb, 0x3, .rebase⟩, ⟨8, 6, .rwb, 0x0, .rebase⟩, ⟨16, 16, .rwb, 0x40, .rebase⟩]⟩,
  ⟨0x2c, [], false, false, [⟨0, 32, .rwb, 0x3020100, .block⟩]⟩,
  ⟨0x30, [], false, false, [⟨0, 6, .rwb, 0x0, .rebase⟩]⟩,
  ⟨0x34, [], false, true, [⟨24, 8, .rsq, 0x0, .none⟩, ⟨12, 1, .rsq, 0x0, .none⟩, ⟨11, 1, .rsq, 0x0, .none⟩, ⟨9, 1, .rsq, 0x0, .none⟩, ⟨8, 1, .rsq, 0x0, .none⟩]⟩,
  ⟨0x38, [], false, false, [⟨0, 1, .rw, 0x0, .none⟩, ⟨8, 8, .rw, 0x0, .none⟩, ⟨16, 5, .rw, 0x0, .none⟩]⟩,
  ⟨0x3c, [], false, false, [⟨0, 18, .rw, 0x0, .none⟩]⟩,
  ⟨0x40, [], false, false, [⟨0, 18, .rw, 0x20000, .none⟩]⟩,
  ⟨0x44, [], false, false, [⟨0, 1, .cmd, 0x0, .none⟩, ⟨1, 1, .cmd, 0x0, .none⟩, ⟨8, 1, .ro, 0x0, .none⟩, ⟨9, 1, .ro, 0x0, .none⟩]⟩,
  ⟨0x48, [], false, false, [⟨12, 1, .rw, 0x0, .none⟩]⟩,
  ⟨0x100, [(0x4, 12)], false, true, [⟨0, 32, .rw, 0x0, .none⟩]⟩,
  ⟨0x1000, [(0x8, 136)], true, true, [⟨0, 32, .ro, 0x0, .none⟩, ⟨32, 32, .ro, 0x0, .none⟩]⟩]

/-- The CLS block of R29. -/
def blkCLS : BlockDef := ⟨0xc00000, 12, 1, 0x400000, regsCLS0 ++ perfRegs⟩

/-- Registers of GGE, piece 0, by the tables of its chapter. -/
def regsGGE0 : List RegDef := [
  ⟨0x0, [], false, true, [⟨24, 8, .rsq, 0x0, .none⟩, ⟨12, 1, .rsq, 0x0, .none⟩, ⟨11, 1, .rsq, 0x0, .none⟩, ⟨10, 1, .rsq, 0x0, .none⟩, ⟨9, 1, .rsq, 0x0, .none⟩, ⟨8, 1, .rsq, 0x0, .none⟩, ⟨0, 4, .ro, 0x0, .none⟩]⟩,
  ⟨0x4, [], false, true, [⟨0, 8, .ro, 0x0, .none⟩, ⟨31, 1, .ro, 0x0, .none⟩]⟩,
  ⟨0x8, [], false, true, [⟨0, 10, .ro, 0x0, .none⟩, ⟨16, 10, .ro, 0x0, .none⟩]⟩,
  ⟨0xc, [], false, true, [⟨0, 12, .ro, 0x0, .none⟩, ⟨16, 12, .ro, 0x0, .none⟩]⟩,
  ⟨0x10, [], false, false, [⟨0, 32, .ro, 0x0, .none⟩]⟩,
  ⟨0x100, [(0x4, 8)], false, false, [⟨0, 32, .rw, 0x0, .none⟩]⟩]

/-- The GGE block of R29. -/
def blkGGE : BlockDef := ⟨0x1000000, 13, 136, 0x2000, regsGGE0 ++ perfRegs⟩

/-- Registers of MRG, piece 0, by the tables of its chapter. -/
def regsMRG0 : List RegDef := [
  ⟨0x0, [], false, false, [⟨0, 1, .rwb, 0x0, .rebase⟩, ⟨1, 1, .rw, 0x1, .none⟩]⟩,
  ⟨0x4, [], false, false, [⟨0, 16, .rwb, 0x2000, .block⟩]⟩,
  ⟨0x8, [], false, false, [⟨0, 20, .rwb, 0xc350, .block⟩]⟩,
  ⟨0xc, [], false, true, [⟨24, 8, .rsq, 0x0, .none⟩, ⟨13, 1, .rsq, 0x0, .none⟩, ⟨12, 1, .rsq, 0x0, .none⟩, ⟨11, 1, .rsq, 0x0, .none⟩, ⟨10, 1, .rsq, 0x0, .none⟩, ⟨9, 1, .rsq, 0x0, .none⟩, ⟨8, 1, .rsq, 0x0, .none⟩]⟩,
  ⟨0x10, [], false, true, [⟨0, 17, .ro, 0x0, .none⟩]⟩,
  ⟨0x14, [], false, false, [⟨0, 17, .ro, 0x0, .none⟩]⟩,
  ⟨0x18, [], false, true, [⟨0, 32, .ro, 0x0, .none⟩]⟩,
  ⟨0x20, [], false, false, [⟨0, 6, .rwb, 0x0, .rebase⟩, ⟨8, 4, .rwb, 0xf, .batch⟩]⟩,
  ⟨0x24, [], false, true, [⟨0, 32, .ro, 0x0, .none⟩]⟩,
  ⟨0x28, [], false, false, [⟨0, 32, .rw, 0x0, .none⟩]⟩,
  ⟨0x100, [(0x4, 16)], false, true, [⟨0, 32, .rw, 0x0, .none⟩]⟩,
  ⟨0x1000, [(0x10, 136)], false, true, [⟨0, 16, .ro, 0x0, .none⟩, ⟨16, 1, .ro, 0x0, .none⟩, ⟨17, 1, .ro, 0x0, .none⟩]⟩,
  ⟨0x1004, [(0x10, 136)], false, true, [⟨0, 32, .ro, 0x0, .none⟩]⟩,
  ⟨0x1008, [(0x10, 136)], false, true, [⟨0, 32, .ro, 0x0, .none⟩]⟩,
  ⟨0x100c, [(0x10, 136)], false, true, [⟨0, 32, .ro, 0x0, .none⟩]⟩]

/-- The MRG block of R29. -/
def blkMRG : BlockDef := ⟨0x1200000, 14, 1, 0x100000, regsMRG0 ++ perfRegs⟩

/-- Registers of CRV, piece 0, by the tables of its chapter. -/
def regsCRV0 : List RegDef := [
  ⟨0x0, [], false, false, [⟨0, 1, .rwb, 0x0, .rebase⟩, ⟨1, 1, .rw, 0x1, .none⟩]⟩,
  ⟨0x4, [], false, true, [⟨24, 8, .rsq, 0x0, .none⟩, ⟨12, 1, .rsq, 0x0, .none⟩, ⟨11, 1, .rsq, 0x0, .none⟩, ⟨10, 1, .rsq, 0x0, .none⟩, ⟨9, 1, .rsq, 0x0, .none⟩, ⟨8, 1, .rsq, 0x0, .none⟩, ⟨0, 2, .ro, 0x0, .none⟩]⟩,
  ⟨0x8, [], false, true, [⟨0, 16, .ro, 0x0, .none⟩, ⟨16, 5, .ro, 0x10, .none⟩]⟩,
  ⟨0xc, [], false, false, [⟨0, 11, .ro, 0x0, .none⟩]⟩,
  ⟨0x10, [], false, false, [⟨0, 20, .rwb, 0xc350, .block⟩]⟩,
  ⟨0x14, [], false, true, [⟨0, 13, .ro, 0x0, .none⟩, ⟨16, 13, .ro, 0x0, .none⟩]⟩,
  ⟨0x18, [], false, false, [⟨0, 2, .rw, 0x0, .none⟩]⟩,
  ⟨0x1c, [], false, false, [⟨0, 32, .ro, 0x0, .none⟩]⟩,
  ⟨0x100, [(0x4, 12)], false, true, [⟨0, 32, .rw, 0x0, .none⟩]⟩,
  ⟨0x200, [(0x20, 4)], false, true, [⟨0, 1, .rwb, 0x0, .batch⟩, ⟨1, 1, .cmd, 0x0, .none⟩, ⟨2, 1, .ro, 0x0, .none⟩, ⟨8, 3, .ro, 0x0, .none⟩, ⟨16, 13, .ro, 0x0, .none⟩]⟩,
  ⟨0x204, [(0x20, 4)], false, false, [⟨0, 22, .rw, 0x0, .none⟩]⟩,
  ⟨0x208, [(0x20, 4)], false, false, [⟨0, 2, .rwb, 0x0, .batch⟩]⟩,
  ⟨0x20c, [(0x20, 4)], false, false, [⟨0, 32, .rwb, 0x0, .batch⟩]⟩,
  ⟨0x210, [(0x20, 4)], false, false, [⟨0, 32, .rwb, 0xffffffff, .batch⟩]⟩,
  ⟨0x214, [(0x20, 4)], false, false, [⟨0, 16, .rwb, 0xfffe, .batch⟩, ⟨16, 16, .rwb, 0x0, .batch⟩]⟩,
  ⟨0x218, [(0x20, 4)], false, false, [⟨0, 16, .rwb, 0x3210, .batch⟩]⟩,
  ⟨0x21c, [(0x20, 4)], false, false, [⟨0, 8, .ro, 0x0, .none⟩, ⟨8, 8, .ro, 0x0, .none⟩, ⟨16, 16, .ro, 0x0, .none⟩]⟩]

/-- The CRV block of R29. -/
def blkCRV : BlockDef := ⟨0x1300000, 15, 1, 0x500000, regsCRV0 ++ perfRegs⟩

/-- Registers of VRD, piece 0, by the tables of its chapter. -/
def regsVRD0 : List RegDef := [
  ⟨0x0, [], false, false, [⟨0, 1, .rwb, 0x0, .rebase⟩, ⟨1, 1, .rwb, 0x0, .batch⟩]⟩,
  ⟨0x4, [], false, true, [⟨24, 8, .rsq, 0x0, .none⟩, ⟨11, 1, .rsq, 0x0, .none⟩, ⟨10, 1, .rsq, 0x0, .none⟩, ⟨9, 1, .rsq, 0x0, .none⟩, ⟨8, 1, .rsq, 0x0, .none⟩]⟩,
  ⟨0x8, [], false, false, [⟨0, 16, .rwb, 0xbb8, .batch⟩]⟩,
  ⟨0xc, [], false, false, [⟨0, 16, .rwb, 0xc8, .batch⟩]⟩,
  ⟨0x10, [], false, false, [⟨0, 17, .rwb, 0x0, .batch⟩]⟩,
  ⟨0x14, [], false, false, [⟨0, 32, .rwb, 0x186a0, .batch⟩]⟩,
  ⟨0x18, [], false, false, [⟨0, 32, .rwb, 0x0, .batch⟩]⟩,
  ⟨0x1c, [], false, false, [⟨0, 6, .rwb, 0x0, .rebase⟩, ⟨8, 4, .rwb, 0xe, .batch⟩, ⟨12, 1, .rwb, 0x0, .batch⟩]⟩,
  ⟨0x20, [], false, true, [⟨0, 32, .ro, 0x0, .none⟩]⟩,
  ⟨0x24, [], false, false, [⟨0, 32, .rw, 0x0, .none⟩]⟩,
  ⟨0x28, [], false, false, [⟨0, 32, .rwb, 0x95b050, .batch⟩]⟩,
  ⟨0x2c, [], false, false, [⟨0, 32, .rwb, 0x0, .batch⟩]⟩,
  ⟨0x30, [], false, false, [⟨0, 32, .rwb, 0xf4240, .batch⟩]⟩,
  ⟨0x34, [], false, false, [⟨0, 32, .rwb, 0x2faf080, .batch⟩]⟩,
  ⟨0x38, [], false, false, [⟨0, 13, .rwb, 0x1000, .batch⟩, ⟨16, 7, .rwb, 0x10, .batch⟩]⟩,
  ⟨0x3c, [], false, false, [⟨0, 8, .rwb, 0x0, .batch⟩, ⟨8, 8, .rwb, 0x0, .batch⟩]⟩,
  ⟨0x40, [], false, false, [⟨0, 16, .rwb, 0x3e8, .batch⟩]⟩,
  ⟨0x44, [], false, false, [⟨0, 24, .rwb, 0x0, .batch⟩]⟩,
  ⟨0x48, [], false, false, [⟨0, 1, .cmd, 0x0, .none⟩, ⟨1, 1, .cmd, 0x0, .none⟩, ⟨8, 1, .ro, 0x0, .none⟩, ⟨9, 1, .ro, 0x0, .none⟩]⟩,
  ⟨0x4c, [], false, false, [⟨12, 1, .rw, 0x0, .none⟩]⟩,
  ⟨0x50, [], false, false, [⟨0, 1, .cmd, 0x0, .none⟩]⟩,
  ⟨0x54, [], false, false, [⟨0, 16, .rw, 0x64, .none⟩, ⟨16, 16, .rw, 0x32, .none⟩]⟩,
  ⟨0x58, [], false, false, [⟨0, 12, .rw, 0x0, .none⟩, ⟨16, 13, .rw, 0x0, .none⟩]⟩,
  ⟨0x100, [(0x4, 16)], false, true, [⟨0, 32, .rw, 0x0, .none⟩]⟩,
  ⟨0x400, [(0x20, 16)], false, false, [⟨0, 2, .rwb, 0x0, .batch⟩, ⟨2, 1, .rwb, 0x0, .batch⟩, ⟨3, 1, .rwb, 0x0, .batch⟩, ⟨4, 1, .rwb, 0x1, .batch⟩, ⟨8, 4, .rwb, 0x0, .batch⟩]⟩,
  ⟨0x404, [(0x20, 16)], false, false, [⟨0, 17, .rwb, 0x0, .batch⟩]⟩,
  ⟨0x408, [(0x20, 16)], false, false, [⟨0, 17, .rwb, 0x1ffff, .batch⟩]⟩,
  ⟨0x40c, [(0x20, 16)], false, false, [⟨0, 32, .rwb, 0x0, .batch⟩]⟩,
  ⟨0x410, [(0x20, 16)], false, false, [⟨0, 16, .rwb, 0x3e8, .batch⟩]⟩,
  ⟨0x414, [(0x20, 16)], false, false, [⟨0, 7, .ro, 0x0, .none⟩]⟩]

/-- The VRD block of R29. -/
def blkVRD : BlockDef := ⟨0x1800000, 16, 1, 0x200000, regsVRD0 ++ perfRegs⟩

/-- Registers of T1S, piece 0, by the tables of its chapter. -/
def regsT1S0 : List RegDef := [
  ⟨0x0, [], false, false, [⟨0, 1, .rwb, 0x0, .rebase⟩, ⟨8, 6, .rwb, 0x20, .rebase⟩, ⟨16, 8, .rwb, 0x20, .rebase⟩, ⟨24, 3, .rwb, 0x0, .rebase⟩]⟩,
  ⟨0x4, [], false, false, [⟨0, 8, .rwb, 0x80, .rebase⟩, ⟨16, 11, .rwb, 0x60, .rebase⟩]⟩,
  ⟨0x8, [], true, false, [⟨0, 48, .rwb, 0x10000574703, .rebase⟩]⟩,
  ⟨0x10, [], false, true, [⟨24, 8, .rsq, 0x0, .none⟩, ⟨12, 1, .rsq, 0x0, .none⟩, ⟨11, 1, .rsq, 0x0, .none⟩, ⟨10, 1, .rsq, 0x0, .none⟩, ⟨9, 1, .rsq, 0x0, .none⟩, ⟨8, 1, .rsq, 0x0, .none⟩, ⟨0, 2, .ro, 0x0, .none⟩]⟩,
  ⟨0x14, [], false, true, [⟨0, 16, .ro, 0x0, .none⟩, ⟨16, 16, .ro, 0x0, .none⟩]⟩,
  ⟨0x100, [(0x4, 16)], false, true, [⟨0, 32, .rw, 0x0, .none⟩]⟩,
  ⟨0x208, [(0x8, 31)], true, false, [⟨0, 48, .rwb, 0x0, .rebase⟩, ⟨48, 1, .rwb, 0x0, .rebase⟩, ⟨49, 1, .ro, 0x0, .none⟩, ⟨50, 1, .ro, 0x0, .none⟩]⟩]

/-- The T1S block of R29. -/
def blkT1S : BlockDef := ⟨0x1a00000, 17, 8, 0x20000, regsT1S0 ++ perfRegs⟩

/-- Registers of DDR, piece 0, by the tables of its chapter. -/
def regsDDR0 : List RegDef := [
  ⟨0x0, [], false, false, [⟨0, 4, .rwb, 0x8, .rebase⟩, ⟨4, 2, .rwb, 0x1, .rebase⟩, ⟨6, 1, .rwb, 0x0, .rebase⟩, ⟨8, 3, .rwb, 0x4, .rebase⟩]⟩,
  ⟨0x4, [], false, false, [⟨0, 4, .rwb, 0x4, .rebase⟩, ⟨4, 1, .rwb, 0x1, .rebase⟩]⟩,
  ⟨0x8, [], false, true, [⟨0, 18, .ro, 0x0, .none⟩, ⟨20, 4, .ro, 0x0, .none⟩]⟩,
  ⟨0xc, [], false, false, [⟨0, 20, .rw, 0x2710, .none⟩, ⟨31, 1, .rw, 0x1, .none⟩]⟩,
  ⟨0x10, [], false, false, [⟨0, 8, .rw, 0xc, .none⟩, ⟨31, 1, .rw, 0x1, .none⟩]⟩,
  ⟨0x14, [], false, false, [⟨0, 8, .rw, 0x4, .none⟩, ⟨31, 1, .rw, 0x1, .none⟩]⟩,
  ⟨0x18, [], false, false, [⟨0, 8, .rw, 0x8, .none⟩, ⟨31, 1, .rw, 0x1, .none⟩]⟩,
  ⟨0x1c, [], false, false, [⟨0, 12, .rw, 0x40, .none⟩]⟩,
  ⟨0x20, [], false, false, [⟨0, 8, .rw, 0x10, .none⟩, ⟨8, 4, .rw, 0x2, .none⟩]⟩,
  ⟨0x24, [], false, true, [⟨24, 8, .rsq, 0x0, .none⟩, ⟨12, 1, .rsq, 0x0, .none⟩, ⟨11, 1, .rsq, 0x0, .none⟩, ⟨10, 1, .rsq, 0x0, .none⟩, ⟨9, 1, .rsq, 0x0, .none⟩, ⟨8, 1, .rsq, 0x0, .none⟩]⟩,
  ⟨0x28, [], true, false, [⟨0, 37, .ro, 0x0, .none⟩]⟩,
  ⟨0x30, [], false, false, [⟨0, 2, .ro, 0x0, .none⟩, ⟨2, 1, .ro, 0x0, .none⟩, ⟨3, 1, .ro, 0x0, .none⟩, ⟨4, 3, .ro, 0x0, .none⟩, ⟨7, 2, .ro, 0x0, .none⟩, ⟨9, 17, .ro, 0x0, .none⟩, ⟨26, 6, .ro, 0x0, .none⟩]⟩,
  ⟨0x34, [], false, false, [⟨0, 16, .ro, 0x0, .none⟩, ⟨16, 1, .ro, 0x0, .none⟩]⟩,
  ⟨0x100, [(0x8, 64)], true, false, [⟨0, 17, .ro, 0x0, .none⟩, ⟨32, 17, .ro, 0x0, .none⟩]⟩,
  ⟨0x1000, [(0x1000, 4)], false, true, [⟨0, 3, .ro, 0x0, .none⟩, ⟨8, 7, .ro, 0x0, .none⟩, ⟨16, 2, .ro, 0x0, .none⟩]⟩,
  ⟨0x1100, [(0x1000, 4), (0x4, 12)], false, true, [⟨0, 32, .rw, 0x0, .none⟩]⟩,
  ⟨0x1400, [(0x1000, 4), (0x8, 64)], true, false, [⟨0, 26, .ro, 0x0, .none⟩, ⟨32, 16, .ro, 0x0, .none⟩, ⟨62, 1, .ro, 0x0, .none⟩, ⟨63, 1, .ro, 0x0, .none⟩]⟩]

/-- The DDR block of R29. -/
def blkDDR : BlockDef := ⟨0x1b00000, 18, 1, 0x100000, regsDDR0 ++ perfRegs⟩

/-- Registers of DMA, piece 0, by the tables of its chapter. -/
def regsDMA0 : List RegDef := [
  ⟨0x0, [], false, false, [⟨0, 1, .rwb, 0x0, .rebase⟩]⟩,
  ⟨0x4, [], false, true, [⟨24, 8, .rsq, 0x0, .none⟩, ⟨9, 1, .rsq, 0x0, .none⟩, ⟨8, 1, .rsq, 0x0, .none⟩]⟩,
  ⟨0x8, [], false, false, [⟨0, 32, .ro, 0x0, .none⟩]⟩,
  ⟨0xc, [], false, false, [⟨0, 32, .wo, 0x0, .none⟩]⟩,
  ⟨0x10, [], false, false, [⟨0, 5, .ro, 0x0, .none⟩]⟩,
  ⟨0x1000, [(0x100, 32)], false, false, [⟨0, 1, .rw, 0x0, .none⟩, ⟨1, 2, .rwb, 0x0, .rebase⟩, ⟨4, 4, .rw, 0x1, .none⟩, ⟨8, 2, .rw, 0x0, .none⟩, ⟨12, 2, .rwb, 0x0, .rebase⟩]⟩,
  ⟨0x1004, [(0x100, 32)], false, false, [⟨0, 1, .cmd, 0x0, .none⟩, ⟨1, 1, .cmd, 0x0, .none⟩, ⟨2, 1, .cmd, 0x0, .none⟩]⟩,
  ⟨0x1008, [(0x100, 32)], false, true, [⟨24, 8, .rsq, 0x0, .none⟩, ⟨13, 1, .rsq, 0x0, .none⟩, ⟨12, 1, .rsq, 0x0, .none⟩, ⟨11, 1, .rsq, 0x0, .none⟩, ⟨10, 1, .rsq, 0x0, .none⟩, ⟨4, 4, .ro, 0x0, .none⟩, ⟨0, 3, .ro, 0x0, .none⟩]⟩,
  ⟨0x100c, [(0x100, 32)], false, false, [⟨0, 14, .rw, 0x3e8, .none⟩]⟩,
  ⟨0x1010, [(0x100, 32)], true, false, [⟨0, 64, .rw, 0x0, .none⟩]⟩,
  ⟨0x1018, [(0x100, 32)], false, false, [⟨0, 5, .rw, 0x4, .none⟩]⟩,
  ⟨0x101c, [(0x100, 32)], false, false, [⟨0, 32, .rw, 0x0, .none⟩]⟩,
  ⟨0x1020, [(0x100, 32)], false, true, [⟨0, 32, .ro, 0x0, .none⟩]⟩,
  ⟨0x1028, [(0x100, 32)], true, false, [⟨0, 64, .ro, 0x0, .none⟩]⟩,
  ⟨0x1030, [(0x100, 32)], false, false, [⟨24, 8, .rsq, 0x0, .none⟩, ⟨16, 4, .ro, 0x0, .none⟩, ⟨0, 16, .ro, 0x0, .none⟩]⟩,
  ⟨0x1034, [(0x100, 32)], false, false, [⟨0, 32, .ro, 0x0, .none⟩]⟩,
  ⟨0x1038, [(0x100, 32)], true, false, [⟨0, 64, .rw, 0x0, .none⟩]⟩,
  ⟨0x1040, [(0x100, 32)], false, false, [⟨0, 32, .rw, 0x0, .none⟩]⟩,
  ⟨0x1044, [(0x100, 32)], false, false, [⟨0, 32, .ro, 0x0, .none⟩]⟩,
  ⟨0x1048, [(0x100, 32)], false, false, [⟨0, 32, .ro, 0x0, .none⟩]⟩,
  ⟨0x104c, [(0x100, 32)], false, false, [⟨0, 8, .rw, 0x40, .none⟩, ⟨8, 16, .rw, 0x64, .none⟩]⟩,
  ⟨0x1080, [(0x100, 32), (0x4, 7)], false, true, [⟨0, 32, .rw, 0x0, .none⟩]⟩]

/-- The DMA block of R29. -/
def blkDMA : BlockDef := ⟨0x1c00000, 19, 1, 0x100000, regsDMA0 ++ perfRegs⟩

/-- Registers of HST, piece 0, by the tables of its chapter. -/
def regsHST0 : List RegDef := [
  ⟨0x0, [], false, false, [⟨0, 16, .ro, 0x1248, .none⟩, ⟨16, 4, .ro, 0x1, .none⟩]⟩,
  ⟨0x4, [], false, true, [⟨0, 4, .ro, 0x0, .none⟩, ⟨4, 5, .ro, 0x0, .none⟩, ⟨9, 1, .ro, 0x0, .none⟩, ⟨10, 1, .ro, 0x0, .none⟩, ⟨11, 1, .ro, 0x0, .none⟩]⟩,
  ⟨0x8, [], false, true, [⟨24, 8, .rsq, 0x0, .none⟩, ⟨10, 1, .rsq, 0x0, .none⟩, ⟨9, 1, .rsq, 0x0, .none⟩, ⟨8, 1, .rsq, 0x0, .none⟩]⟩,
  ⟨0x10, [], true, false, [⟨20, 17, .rw, 0x0, .none⟩]⟩,
  ⟨0x100, [(0x4, 128)], false, false, [⟨0, 6, .rw, 0x0, .none⟩, ⟨7, 1, .rw, 0x0, .none⟩]⟩,
  ⟨0x400, [(0x4, 64)], false, false, [⟨0, 16, .rw, 0x0, .none⟩]⟩,
  ⟨0x600, [(0x4, 7)], false, true, [⟨0, 32, .rw, 0x0, .none⟩]⟩]

/-- The HST block of R29. -/
def blkHST : BlockDef := ⟨0x1d00000, 20, 1, 0x80000, regsHST0 ++ perfRegs⟩

/-- Registers of CMP, piece 0, by the tables of its chapter. -/
def regsCMP0 : List RegDef := [
  ⟨0x0, [], false, false, [⟨0, 1, .rwb, 0x0, .rebase⟩, ⟨1, 1, .rw, 0x0, .none⟩, ⟨2, 2, .rwb, 0x2, .batch⟩, ⟨8, 6, .rwb, 0x0, .rebase⟩]⟩,
  ⟨0x4, [], false, true, [⟨24, 8, .rsq, 0x0, .none⟩, ⟨11, 1, .rsq, 0x0, .none⟩, ⟨10, 1, .rsq, 0x0, .none⟩, ⟨9, 1, .rsq, 0x0, .none⟩, ⟨8, 1, .rsq, 0x0, .none⟩, ⟨0, 3, .ro, 0x0, .none⟩]⟩,
  ⟨0x8, [], false, false, [⟨0, 1, .cmd, 0x0, .none⟩, ⟨1, 1, .cmd, 0x0, .none⟩]⟩,
  ⟨0xc, [], false, false, [⟨0, 8, .rw, 0x0, .none⟩, ⟨8, 1, .rw, 0x0, .none⟩]⟩,
  ⟨0x10, [], false, false, [⟨0, 16, .rw, 0x64, .none⟩]⟩,
  ⟨0x18, [], true, false, [⟨0, 64, .ro, 0x0, .none⟩]⟩,
  ⟨0x20, [], false, true, [⟨0, 32, .ro, 0x0, .none⟩]⟩,
  ⟨0x24, [], false, false, [⟨0, 32, .ro, 0x0, .none⟩]⟩,
  ⟨0x28, [], false, false, [⟨0, 32, .ro, 0x0, .none⟩]⟩,
  ⟨0x2c, [], false, false, [⟨0, 32, .ro, 0x0, .none⟩]⟩,
  ⟨0x100, [(0x20, 2)], true, false, [⟨0, 37, .rw, 0x0, .none⟩]⟩,
  ⟨0x108, [(0x20, 2)], false, false, [⟨0, 1, .cmd, 0x0, .none⟩, ⟨1, 1, .cmd, 0x0, .none⟩, ⟨2, 1, .cmd, 0x0, .none⟩]⟩,
  ⟨0x10c, [(0x20, 2)], false, false, [⟨24, 8, .rsq, 0x0, .none⟩, ⟨9, 1, .rsq, 0x0, .none⟩, ⟨8, 1, .rsq, 0x0, .none⟩, ⟨0, 2, .ro, 0x0, .none⟩]⟩,
  ⟨0x200, [(0x4, 12)], false, true, [⟨0, 32, .rw, 0x0, .none⟩]⟩]

/-- The CMP block of R29. -/
def blkCMP : BlockDef := ⟨0x1d80000, 21, 1, 0x80000, regsCMP0 ++ perfRegs⟩

/-- The BAR0 block map of R29, in block-code order. -/
def blocks : List BlockDef := [blkTOP, blkSNP, blkPRF, blkMGT, blkPWR, blkCAL, blkRAS, blkTIM, blkLNE, blkEKL, blkLTH, blkFUS, blkCLS, blkGGE, blkMRG, blkCRV, blkVRD, blkT1S, blkDDR, blkDMA, blkHST, blkCMP]

/-- Where a local offset falls among a register's repetitions: the offset inside the register. -/
def repOffset : List (Nat × Nat) → Nat → Option Nat
  | [], d => some d
  | (stride, count) :: reps, d => if d / stride < count then repOffset reps (d % stride) else none

/-- The register at a local offset of a block, with the byte offset inside it. -/
def findReg : List RegDef → Nat → Option (RegDef × Nat)
  | [], _ => none
  | r :: rs, o =>
    if r.off ≤ o then
      match repOffset r.reps (o - r.off) with
      | some d => if d < (if r.pair then 8 else 4) then some (r, d) else findReg rs o
      | none => findReg rs o
    else findReg rs o

/-- The block, the instance and the local offset of a BAR0 offset (R29). -/
def findBlock : List BlockDef → Nat → Option (BlockDef × Nat × Nat)
  | [], _ => none
  | b :: bs, a =>
    if b.base ≤ a ∧ a < b.base + b.count * b.stride then
      some (b, (a - b.base) / b.stride, (a - b.base) % b.stride)
    else findBlock bs a

/-- A field of a register by its lowest bit. -/
def findField : List FieldDef → Nat → Option FieldDef
  | [], _ => none
  | f :: fs, lo => if f.lo = lo then some f else findField fs lo

/-- The definition of the field under a key of the register file. -/
def fieldOf (key : Nat) : Option FieldDef :=
  match findBlock blocks (key / 64) with
  | some (b, _, o) =>
    match findReg b.regs o with
    | some (r, _) => findField r.fields (key % 64)
    | none => none
  | none => none

/-- The reset value of the field under a key: what its table gives (R35). -/
def resetOf (key : Nat) : Nat :=
  match fieldOf key with
  | some f => f.reset
  | none => 0

/-- First address of an instance of the block with this code. -/
def instBase (b : BlockDef) (inst : Nat) : Nat := b.base + inst * b.stride

end Sys2Proof.Machine
end

