-- ==== Sys2Proof/Machine/State.lean ====
section
/-!
DEFINITION. The state of the block as plain data: every register, table, buffer, queue and mode the spec
gives it, the commands that wait, and what has left the device. Registers stand in one register file keyed
by field; every other piece of state stands in the structure of its unit.
-/

namespace Sys2Proof.Machine

/-! ## Device DRAM -/

/-- What a 64-byte granule of a channel holds (R367, R370): an unlisted granule holds the initial pattern. -/
inductive Mark where
  | initial | written | poison
deriving DecidableEq, Repr

/-- Device DRAM by physical key `channel * 2^36 + L` (R362): the bytes of written granules and the marks of
the granules that do not hold the initial pattern. An unlisted byte is 0. -/
structure Mem where
  bytes : List Host.Cell := []
  marks : KMap Mark := []
deriving DecidableEq, Repr

/-- One effect on DRAM that a command makes; a command's effects land in order when it ends. -/
inductive MemOp where
  | write (key : Nat) (bs : List Byte)     -- bytes within one granule, merged by R367
  | poison (granule : Nat)                 -- the granule takes the poison pattern
  | train (ch : Nat)                       -- the pass of R370 step 6 over one channel
deriving DecidableEq, Repr

/-! ## What leaves the device -/

/-- One effect outside the device, in the order in which it leaves. -/
inductive Out where
  | readDone (bar addr size value : Nat) (poisoned : Bool)  -- a completion with data
  | readAbort (bar addr : Nat)                              -- Completer Abort or Unsupported Request completion
  | unsupported (bar addr : Nat)                            -- Unsupported Request before step 7 (R475)
  | cfgRetry (off : Nat)                                    -- Configuration Request Retry Status (R475)
  | cfgDone (off : Nat) (value : Nat)                       -- configuration completion
  | aer (bar addr : Nat)                                    -- AER non-fatal error message (R32)
  | downlink (port : Nat) (msg : List Byte)                 -- the 24 bytes of a downlink message (R127)
  | downInj (lane kind : Nat)                               -- an error injected into what a lane transmits (R106)
  | trigPin (port : Nat) (level : Bool) (dt : Nat)          -- TRIG_OUT edge to a level (R75)
  | cmpPin (pin unit width pol : Nat)                       -- pulse of a compare unit on a pin (R81)
  | firePin (pin : Nat) (level : Bool) (dt : Nat)           -- FIRE_OUT edge to a level (R351)
  | ptmRequest (dt : Nat)                                   -- PTM request (R83)
  | t1s (seg : Nat) (frame : List Byte)                     -- frame bytes on a T1S segment
  | beacon (seg : Nat)                                      -- PLCA beacon (R337)
  | msix (vector : Nat) (addr data : Nat)                   -- MSI-X message (R398)
  | hostRead (addr len : Nat)                               -- non-posted read of host memory
  | hostWrite (addr : Nat) (bs : List Byte)                 -- posted write to host memory
  | tapBytes (ch : Nat) (bs : List Byte)                    -- stream bytes handed to a DMA channel
  | pmbus (addr page cmd value : Nat)                       -- PMBus transaction at a rail's slave address and page
  | alert                                                   -- ALERT# asserted
  | nvmWrite (dev part off : Nat)                           -- an NVM device programmed
  | resetCores                                              -- management cores held in reset
  | trip                                                    -- rails switched off by AON
deriving DecidableEq, Repr

/-! ## Log, NVM and performance counters -/

/-- One event log entry (R454), without its CRC, which is computed. -/
structure LogEntry where
  dt : Nat := 0
  lseq : Nat := 0
  code : Nat := 0
  inst : Nat := 0
  sev : Nat := 0
  flags : Nat := 0
  count : Nat := 0
  data : Nat := 0
deriving DecidableEq, Repr

/-- The counting state of one block instance beside its counter registers (R49 to R53): selections in
force, selections written since the last taken boundary, wraps of the running interval. -/
structure PerfS where
  sel : KMap Nat := []          -- counter -> EVENT + 1024 * EN in force
  rewritten : KMap Bool := []   -- PERF_SEL written since the last taken boundary
  ovf : Nat := 0                -- counters that wrapped in the interval
  slotOvf : Nat := 0            -- slot counters that wrapped in the interval
  gated : Bool := false         -- clock- or power-gated for part of the interval
deriving DecidableEq, Repr

/-- One latched dump entry of R57 before its CRC: block code, instance, flags, selections, counts, slots. -/
structure DumpEntry where
  block : Nat
  inst : Nat
  ovf : Nat
  reprog : Nat
  slotOvf : Nat
  flags : Nat
  sel : List Nat
  cnt : List Nat
  slot : List Nat
deriving DecidableEq, Repr

/-- Collection of the performance counters (R52 to R59). -/
structure PrfS where
  nextDt : Option Nat := none      -- DT of the next boundary while PRF.CTL.EN is 1
  busy : Bool := false             -- a dump is not yet complete
  latched : List DumpEntry := []   -- entries collected at the last taken boundary
  latchDt : Nat := 0
  latchEpoch : Nat := 0
  skipped : Nat := 0               -- boundaries skipped since the last taken one
  latchSkipped : Nat := 0          -- those skipped before the boundary of the running dump
  latchPeriod : Nat := 0           -- period in force at that boundary
  lastDump : List DumpEntry := []  -- the latest complete dump, for the user page
  lastHeader : List Byte := []
  denied : Bool := false           -- the ring region is denied or preempted
deriving DecidableEq, Repr

/-- The snapshot network beside its registers (R44 to R47). -/
structure SnapS where
  t : Nat := 0                     -- latch time broadcast
  src : Nat := 0                   -- sources of the pending snapshot
  waiting : List (Nat × Nat) := [] -- block instances (code, instance) still to latch
  copies : KMap Nat := []          -- copies by register file key; unlisted reads 0
deriving DecidableEq, Repr

/-! ## TIM: Device Time and the Spindle (R60 to R90) -/

/-- One trigger generator beside its registers (R70 to R72). -/
structure TgS where
  issued : Bool := false        -- a line has been issued since start-up or rebase
  k : Nat := 0                  -- period mode: index of the next line
  h : Nat := 0                  -- encoder mode: threshold H, 64 bits with 16 fraction bits
  due : List Nat := []          -- encoder and pin modes: exposure times waiting to be issued
  count : Nat := 0              -- lines issued since start-up or rebase
deriving DecidableEq, Repr

/-- One capture of an event pin (R82): rising edge, DT, SP0, SP1. -/
structure Capture where
  rising : Bool
  dt : Nat
  sp0 : Nat
  sp1 : Nat
deriving DecidableEq, Repr

/-- A trigger line that a port still has to send or to pulse (R74, R75). -/
structure TrigLine where
  lsn : Nat
  e : Nat
deriving DecidableEq, Repr

/-- A line of a generator between its issue and its exposure time (R66, R70): the ports that take it, each with
whether it is the first line of a block of the port, and whether its trigger message was given to the downlink. -/
structure Coming where
  g : Nat
  lsn : Nat
  e : Nat
  ports : List (Nat × Bool × Bool)
deriving DecidableEq, Repr

/-- The Spindle and the time bases beside their registers. -/
structure TimS where
  acc : Nat := 0                      -- DT with 48 fraction bits (R61)
  epoch : Nat := 0                    -- DT epoch (R60)
  rcOnly : Bool := false              -- OFF without a running REFCLK (R64)
  zLoaded : KMap Bool := []           -- Z_MODE 0x2 has loaded its preset (R77)
  tg : KMap TgS := []                 -- trigger generators
  coming : List Coming := []          -- lines issued whose E is still to come, earliest E first
  evt : KMap (List Capture) := []     -- event FIFOs, oldest first (R82)
  trig : KMap (List TrigLine) := []   -- per port: trigger messages to send
  pulse : KMap (List TrigLine) := []  -- per port: TRIG_OUT pulses to start
  pulseEnd : KMap (Option Nat) := []  -- per port: end of the pulse running
  ptmAt : Option Nat := none          -- DT of the PTM request outstanding (R83)
  ptmFrom : Nat := 0                  -- DT from which the interval to the next periodic dialogue runs (R83)
  encAt : KMap (Option Nat) := []     -- per encoder: DT of its last accepted edge (R76)
  ptmOn : Bool := false               -- PTM enabled by the host in the PTM capability
  batchPending : Bool := false        -- a batch event waits for a composite block boundary (R68)
  refRun : KMap Bool := []            -- REFCLK inputs running (0 = A, 1 = B)
  refElig : KMap Bool := []           -- REFCLK inputs eligible (R438)
  holdover : Bool := false            -- the reference in use is lost and PLL_TIME is in holdover
  cmpArmed : KMap Bool := []          -- compare unit armed in the past: fires in the next clock (R79)
deriving DecidableEq, Repr

/-! ## LNE: serial lanes (R91 to R113) -/

/-- Training of one uplink lane (R139). -/
structure TrainS where
  next : Nat := 0                         -- index of the setting under evaluation; 22: final request
  best : Nat := 0                         -- index of the best setting so far
  bestMargin : Nat := 0
  asked : Option (Nat × Nat) := none      -- MSEQ of the TRAIN_REQ outstanding and its DT
  repeated : Bool := false                -- the outstanding request was repeated once
  measuring : Bool := true                -- the margin of setting `next` is being measured
deriving DecidableEq, Repr

/-- The transmitter of a lane (R95 to R97, R103, R106). -/
structure TxS where
  scr : Nat := 0                          -- last 58 sent payload bits, newest in bit 0
  since : Nat := 0                        -- blocks sent since the last marker
  count : Nat := 0                        -- COUNT of the next marker
  bip : Nat := 0                          -- BIP-8 over the blocks since the last marker
  inj : List Nat := []                    -- injected errors that wait for a block or a marker, by KIND
  gen : Nat := 0x7fffffff                 -- last 31 bits of the pattern generator, newest in bit 0
  fir : Nat × Nat × Nat := (0, 63, 0)     -- PRE, MAIN and POST in force
  line : List Blk := []                   -- blocks that have left the lane, newest first
deriving DecidableEq, Repr

/-- One serial lane beside its registers. -/
structure LaneS where
  phase : Nat := 0                        -- progress by the codes of R104, also behind REMOVED
  signal : Bool := false
  run : Nat := 0                          -- consecutive valid headers while block lock is sought
  window : List Bool := []                -- validity of the last 64 headers, newest first
  blockLock : Bool := false
  amLock : Bool := false
  lastAm : Option (Nat × Nat) := none     -- COUNT and LANE of the last marker taken
  amSlot : Option (Nat × Nat) := none     -- COUNT of the last marker and the block slot of its arrival
  skipBip : Bool := true                  -- no marker seen since block lock
  missed : Nat := 0                       -- expected markers missing in a row
  rxAt : Nat := 0                         -- blocks received since the last marker place
  rxBip : Nat := 0                        -- BIP-8 over those blocks
  hdrErrs : Nat := 0                      -- invalid headers since the last marker place
  badPeriods : Nat := 0                   -- marker periods over BER_LIMIT in a row
  aligned : Bool := false                 -- alignment lock and deskew done
  skew : Nat := 0                         -- skew at which the lane was aligned
  train : TrainS := {}
  agreed : Option (Nat × Nat × Nat) := none -- FIR setting last agreed by TRAIN_DONE
  fails : Nat := 0                        -- training failures
  loss : Option Nat := none               -- DT of a loss cause that waits for confirmation
  lossCause : Nat := 0                    -- bits: 0 block lock, 1 alignment lock, 2 header errors, 3 skew, 4 PLL
  commanded : Bool := false               -- removed by command
  eligible : Bool := false                -- eligible for restore (R111)
  restoring : Bool := false               -- restored, until its port's next block boundary sends the mask
  cleanSince : Option Nat := none         -- DT since which the removed lane has been error-free and aligned
  signalAt : Nat := 0                     -- DT of signal detect
  chkLock : Bool := false                 -- pattern checker locked
  chkRun : Nat := 0                       -- error-free bits in a row
  chkWin : List Bool := []                -- errors of the last 256 bits, newest first
  chkHist : Nat := 0                      -- last 31 bits of the checker's reference, newest in bit 0
  lastEq : Option Nat := none             -- DT of the last background equaliser step
  descr : Nat := 0                        -- last 58 received payload bits, newest in bit 0 (R95)
  prbs : Nat := 0                         -- last 31 descrambled payload bits, newest in bit 0 (PRBS31 check)
  tx : TxS := {}
deriving DecidableEq, Repr

/-! ## EKL: camera ports (R146 to R167) -/

/-- A camera line as it travels from a port to a lathe (R153, R163). Planes of slots that are not enabled
are empty; a token has no samples. -/
structure CamLine where
  port : Nat := 0
  lsn : Nat := 0
  e : Nat := 0
  flags : Nat := 0
  pflags : List Nat := []
  dtExp : Nat := 0
  dtDone : Nat := 0
  token : Bool := false
  planes : List (List Nat) := []
deriving DecidableEq, Repr

/-- One plane line under assembly (R152): the pieces received, oldest first, each with its first pixel. -/
structure PlaneAcc where
  segs : List (Nat × List Nat) := []
  closed : Bool := false          -- closed by EOL or by a truncated packet
  eol : Bool := false
  short : Bool := false           -- a packet was truncated
  long : Bool := false
  crc : Bool := false
deriving DecidableEq, Repr

/-- How far an issued line has come (R149); a line that a port not in RUN answered with a token (R155). -/
inductive LineSt where
  | isOpen | isComplete | isMissing | isToken
deriving DecidableEq, Repr

/-- One of the last issued lines of a port (R149). -/
structure LineRec where
  lsn : Nat
  e : Nat
  st : LineSt := .isOpen
  flags : Nat := 0
  dtExp : Option Nat := none            -- DT_EXP of its first packet
  planes : KMap PlaneAcc := []
  eols : List Nat := []                 -- slots that had received EOL when the line completed
  lateCounted : Bool := false
  dupCounted : Bool := false
  bg : List Nat := []                   -- PLANEq_BG of its block, from E on (R37)
  lineTo : Option Nat := none           -- LINE_TO of its block, from E on (R37)
deriving DecidableEq, Repr

/-- A packet under reception (R118): its SOP body and the data blocks after it. -/
structure OpenPkt where
  sop : BitVec 64
  data : List (BitVec 64) := []         -- newest first
deriving DecidableEq, Repr

/-- One camera port beside its registers. -/
structure PortS where
  lines : List LineRec := []            -- the last 64 issued lines and every open one, newest first
  pkt : Option OpenPkt := none
  pseq : Nat := 0                       -- PSEQ expected next
  mseq : Nat := 0                       -- MSEQ of the next downlink message
  blkLines : Nat := 0                   -- lines of the running port block whose E has come
  issLines : Nat := 0                   -- the same count taken at the issue of a line
  releasing : Bool := false             -- the first line of a block was issued while the port waited for it
  missCount : Nat := 0                  -- lines declared missing in the running port block
  linkedOnce : Bool := false            -- the port has linked up since start-up
  signalAt : Option Nat := none         -- DT at which signal was first detected in this link-up
  mask : Nat := 0                       -- active lane mask in force at the port
  maskSent : List (Nat × Nat) := []     -- masks of the LANE_MASKs sent and their MSEQs, oldest first, until a MASK_MARK row
  maskDue : Bool := false               -- a restore waits for the port's next block boundary (R111)
  echo : Option (Nat × Nat) := none     -- ECHO_ID outstanding and its T1
  echoId : Nat := 0
  echoAt : Option Nat := none           -- DT of the last ECHO_REQ of this link-up
  timeAt : Option Nat := none           -- DT of the last TIME_SET of this link-up
  discards : Nat := 0                   -- FILLER packets and packets of reserved types discarded (R123)
  creg : KMap (Option (Nat × Nat)) := [] -- window: MSEQ outstanding and DT of the request
  lastStat : Nat := 0                   -- DT of the last CAM_STATUS
  statFull : Nat := 0                   -- its full time in ns
  statSeen : Bool := false
  metaBytes : List Byte := []
  camstat : List Byte := []
  ringOut : List CamLine := []          -- lines being written into the ring, oldest first
  ringSeq : Nat := 0                    -- lines written into the ring since its start
  ringRd : Nat := 0                     -- lines that every active share has taken
  ringLost : KMap (Option (Nat × Nat × Nat)) := [] -- by ring count: LSN, E and DT_DONE of a line lost by overwrite
  moved : Bool := false                 -- a lathe migration moved the port through memory (R433)
  loseLsn : Option Nat := none          -- the line in progress at a lathe fault, which is lost (R433)
  routeNext : Option Nat := none        -- route to take at the next port block boundary (R162)
  replayOn : Bool := false              -- a replay job runs on the port (R422)
  replay : List CamLine := []           -- complete replay lines waiting, oldest first
  replayWait : List (Nat × Nat) := []   -- issued lines (LSN, E) that wait for a replay line, oldest first
deriving DecidableEq, Repr

/-! ## Tables in an active and a shadow bank (R183, R224, R236, R325) -/

/-- The two banks of a unit's tables by word key. Units: 0–7 lathes, 8 fusion, 9 classifier, 10 verdict unit. -/
structure Bank where
  act : KMap Nat := []
  shd : KMap Nat := []
  raced : List Nat := []      -- words written during a copy that covers them, newest first
  lost : List Nat := []       -- words of the active bank that an uncorrectable error took (R225)
  lostShd : List Nat := []    -- the same in the shadow bank
deriving DecidableEq, Repr

/-! ## Taps (R191 to R193, R223, R237, R413) -/

/-- The samples of one plane slot, channel or class map of a tap line. -/
structure TapPiece where
  plane : Nat
  first : Nat
  pflag : Nat
  samples : List Nat
deriving DecidableEq, Repr

/-- One tap line as the recorder takes it. -/
structure TapLine where
  tap : Nat
  src : Nat                   -- port for T0 to T3, else 0xFF
  lathe : Nat                 -- lathe for T0 to T3
  lsn : Nat
  dtExp : Nat
  flags : Nat
  pieces : List TapPiece
deriving DecidableEq, Repr

/-! ## LTH: lathes (R168 to R195) -/

/-- One context of a lathe beside its registers. -/
structure LthCtx where
  hist : List (Nat × List (List Nat)) := [] -- LSN and filled planes of the last two lines, newest first (R174)
  win : Option (Nat × Nat) := none          -- mode 2: firing DT and lines left of the open window (R179)
  winDue : Bool := false                    -- the window's last line has passed and its update is due
  blk : Nat := 0                            -- lines of the running block (R184)
  taken : Nat := 0                          -- ring count of the next slot to take (R188)
  tapN : Nat := 0                           -- lines since the last one sent by the DMA tap
deriving DecidableEq, Repr

/-- One lathe beside its registers. -/
structure LthS where
  ctx : KMap LthCtx := []
  tg : KMap Nat := []                       -- tracking gains by zone; unlisted 0x4000 (R185)
  tgNew : KMap (Option Nat) := []           -- gains written and not yet landed (R180)
  acc : KMap (Nat × Nat × Nat) := []        -- per zone: SUM_Y, SUM_P, N (R177)
  guest : Option (Nat × CamLine) := none    -- context and line of the guest line in progress (R187)
  tapRec : Nat := 0                         -- tap line count of the recorder path (R193)
  tapDma : Nat := 0                         -- tap line count of the DMA path
  gated : Bool := false                     -- clock gated while idle (R168)
deriving DecidableEq, Repr

/-- One share of a line on its way from a lathe to the fusion unit (R170). -/
structure Piece where
  port : Nat
  lsn : Nat
  e : Nat
  flags : Nat
  pflags : List Nat                         -- plane flags by slot (R153, R186)
  token : Bool
  segs : List (Nat × Nat × Nat × List Nat)  -- plane slot, first binned column, columns, samples
deriving DecidableEq, Repr

/-! ## FUS: stitching and fusion (R200 to R225) -/

/-- A part of a view line: first column, columns, whether it was received, its samples. -/
structure VSeg where
  first : Nat
  len : Nat
  got : Bool
  flags : Nat
  pflags : Nat := 0                       -- plane flags of R153
  xs : List Nat
deriving DecidableEq, Repr

/-- A view line in the line store (R210). -/
structure VLine where
  lsn : Nat
  e : Nat
  segs : List VSeg := []
deriving DecidableEq, Repr

/-- One view beside its registers. -/
structure ViewS where
  lines : List VLine := []                -- oldest first
  whole : List Nat := []                  -- samples of the last line received whole that a composite used
  wholeFlags : Option Nat := none         -- its line flags; none before any
  wholeCut : List (Nat × Nat) := []       -- columns of that line that an uncorrectable error took (R225)
  absent : Nat := 0                       -- consecutive lines not received whole
  late : List Nat := []                   -- LSNs of the newest view lines counted late (R212)
  sum : Int := 0                          -- edge pairs of the running window (R219)
  pairs : Nat := 0
  lvlA : Nat := 0
  lvlB : Nat := 0
  lvlN : Nat := 0
deriving DecidableEq, Repr

/-- Lead onset of one column (R222). -/
structure LeadCol where
  run : Nat := 0                          -- consecutive lines with product while armed
  start : Nat := 0                        -- DT ns of the first of those lines
  clear : Nat := 0                        -- consecutive lines without product while disarmed
  disarmed : Bool := false
  stored : Option Nat := none
deriving DecidableEq, Repr

/-- The fusion unit beside its registers. -/
structure FusS where
  issued : List (Nat × Nat) := []         -- LSN and E of issued composite lines not yet formed, oldest first
  queue : List Piece := []                -- pieces from the lathes, oldest first
  view : KMap ViewS := []
  lead : KMap LeadCol := []
  count : Nat := 0                        -- composite lines formed since start-up or rebase
  blk : Nat := 0                          -- lines formed in the running composite block (R67)
  winLines : Nat := 0                     -- lines of the running seam window
  winDue : Bool := false
  tapN : Nat := 0
  tapSeq : Nat := 0
deriving DecidableEq, Repr

/-! ## CLS and GGE: classification, run encoder and gouges (R229 to R262) -/

/-- A composite pixel as it reaches the classifier (R218). -/
structure Px where
  ch : List Nat
  miss : Nat := 0
  flags : Nat := 0        -- PFLAGS
  leadT : Nat := 0
deriving DecidableEq, Repr

/-- A run record with its extremes record (R240, R522). -/
structure RunRec where
  lsn : Nat
  cf : Nat
  start : Nat
  len : Nat
  chPres : Nat
  leadT : Nat
  sum : List Nat
  ext : Option (List Nat × List Nat) := none
deriving DecidableEq, Repr

/-- An END record (R241). -/
structure EndRec where
  lsn : Nat
  lf : Nat
  nruns : Nat
  e : Nat
  cflags : Nat
deriving DecidableEq, Repr

/-- One entry of a gouge FIFO: a run record with its extremes record, or an END record. -/
inductive GRec where
  | run (r : RunRec)
  | fin (r : EndRec)
deriving DecidableEq, Repr

/-- An open component of a gouge (R255). -/
structure Comp where
  label : Nat
  first : Nat
  last : Nat
  dtFirst : Nat := 0
  x0 : Nat
  x1 : Nat
  area : Nat := 0
  cls : List Nat := [0, 0, 0, 0, 0, 0, 0, 0, 0, 0, 0, 0, 0, 0, 0, 0]
  m10 : Nat := 0
  m01 : Nat := 0
  m20 : Nat := 0
  m02 : Nat := 0
  m11 : Nat := 0
  fsum : List Nat := [0, 0, 0, 0]
  fmin : List Nat := [65535, 65535, 65535, 65535]
  fmax : List Nat := [0, 0, 0, 0]
  edgeH : Nat := 0
  edgeV : Nat := 0
  views : Nat := 0
  lead : Option (Nat × Nat × Nat) := none   -- LEAD_L, column, LEAD_T
  flags : Nat := 0
  keep : Nat := 0                 -- journal count of the END record before its first line (R246)
  contacted : Bool := false       -- has sent a contact record
  rebuilt : Bool := false         -- has a run of a line before C on a spare (R288)
  capped : Bool := false          -- rebuilt in part from the oldest END record (R431)
deriving DecidableEq, Repr

/-- The four kinds of component record (R268). -/
inductive CompKind where
  | closure | part | contact | merge
deriving DecidableEq, Repr

/-- A component record: `line` is the close line, or the line of a contact or a merge; `other` is the losing
label of an alias, or 1 for the right side of a contact. -/
structure CompRec where
  kind : CompKind
  strip : Nat
  epoch : Nat
  label : Nat
  line : Nat
  e : Nat := 0
  other : Nat := 0
  comp : Option Comp := none
deriving DecidableEq, Repr

/-- One gouge beside its registers. -/
structure GouS where
  fifo : List (Nat × GRec) := []            -- journal count and record, oldest first
  out : List CompRec := []                  -- output FIFO, oldest first (R268)
  owed : List CompRec := []                 -- records still to be written while the gouge is held (R280)
  comps : List Comp := []
  gens : KMap Nat := []                     -- generation of each slot
  prevLsn : Option Nat := none
  prev : List (Nat × Nat × Nat) := []       -- runs of the last line: start, length, label
  cur : List (Nat × Nat × Nat) := []        -- runs of the running line
  curLsn : Option Nat := none
  closing : List (Nat × Nat) := []          -- contacts owed at the END of the running line: label, side
  lastEnd : Option Nat := none              -- journal count of the last END record taken
  epoch : Nat := 0                          -- placement epoch of its records
  spill : Bool := false                     -- takes its records from the journal (spill or replay)
  replay : Bool := false
  rd : Nat := 0                             -- journal count of the next record to read
  partRebuild : Bool := false               -- replays from the oldest END record held (R431)
  idle : Nat := 0                           -- composite lines since a record reached the FIFO (R260)
  gatedFor : Nat := 0                       -- composite lines clock-gated (R261)
deriving DecidableEq, Repr

/-- One strip of the run encoder (R244 to R246). -/
structure StripS where
  wr : Nat := 0                             -- records written to the sub-ring
  keep : Option Nat := none                 -- KEEP while a component is open; none: follows WR
  episode : Bool := false
  dropping : Bool := false                  -- no journal: drops until an END record finds a slot
  journalOnly : Bool := false               -- no gouge serves the strip (R431)
  lo : Nat := 0                             -- first record written since the region last restarted empty (R375)
deriving DecidableEq, Repr

/-- The classifier and run encoder beside their registers. -/
structure ClsS where
  strip : KMap StripS := []
  lines : Nat := 0                          -- composite lines since start-up or rebase
  tileFg : KMap (Option Nat) := []          -- per tile column: line count of the last foreground near it (R248)
  hist : List (Nat × List (List Byte)) := [] -- tile bytes per column of the last 64 lines, newest first (R249)
  tileSkip : KMap (Option Nat) := []        -- per slot: tile row with a skipped slice (R251)
  tileRow : KMap (Option (Nat × Nat)) := [] -- per slot: ROW and LINES of its tag, as written (R250)
  badPx : List (Nat × Nat) := []            -- columns of the next line that read a lost table word: first, count
  maxWas : List (Nat × Nat) := []           -- GG_MAX before a change, with the first line of the new value, newest first
  noJournal : Bool := false                 -- JRN_OVR was set for an unavailable journal (R245)
  tapN : Nat := 0
  tapSeq : Nat := 0
deriving DecidableEq, Repr

/-! ## MRG: merge unit and collector (R268 to R291) -/

/-- Accumulated quantities of a set on composite columns (R278). -/
structure Acc where
  area : Nat := 0
  cls : List Nat := [0, 0, 0, 0, 0, 0, 0, 0, 0, 0, 0, 0, 0, 0, 0, 0]
  m10 : Int := 0
  m01 : Int := 0
  m20 : Int := 0
  m02 : Int := 0
  m11 : Int := 0
  fsum : List Nat := [0, 0, 0, 0]
  fmin : List Nat := [65535, 65535, 65535, 65535]
  fmax : List Nat := [0, 0, 0, 0]
  edgeH : Int := 0
  edgeV : Int := 0
  x0 : Nat := 0
  x1 : Nat := 0
  views : Nat := 0
  flags : Nat := 0
  lead : Option (Nat × Nat × Nat) := none   -- LEAD_L, strip, LEAD_T
  first : Nat := 0
  last : Nat := 0
  dtFirst : Nat := 0
  eClose : Nat := 0                         -- E of the latest close line
  closeLine : Nat := 0
  members : Nat := 0
  rebuilt : Bool := false
  inPart : Bool := false
  split : Bool := false
deriving DecidableEq, Repr

/-- A node of the union-find table (R274), with the root of its set by node number. -/
structure Node where
  strip : Nat
  epoch : Nat
  label : Nat
  set : Nat
  isOpen : Bool := true
  empty : Bool := false
  early : Nat                               -- line of its earliest accepted contact or alias, or FIRST
  edgeSub : Nat := 0                        -- taken from its EDGE_H contribution (R272)
  into : Option Nat := none                 -- the survivor's node, for the loser of an alias
  acc : Option Acc := none                  -- its quantities once its partial record is accepted
deriving DecidableEq, Repr

/-- An entry of an edge map (R271). -/
structure EdgeEnt where
  line : Nat
  epoch : Nat
  node : Nat
deriving DecidableEq, Repr

/-- A finished set or object on its way out of the merge unit. -/
structure MergedSet where
  acc : Acc
  forced : Bool
deriving DecidableEq, Repr

/-- The merge unit and collector beside their registers. -/
structure MrgS where
  inQ : List CompRec := []                  -- merge input FIFO, oldest first (R279)
  outQ : List MergedSet := []               -- merge output FIFO, oldest first (R276)
  nodes : KMap (Option Node) := []
  edge : KMap (Option EdgeEnt) := []        -- by (2 * strip + side) * 4096 + line mod 4096
  paired : KMap (Option Nat) := []          -- per boundary: last line paired
  done : KMap (Option Nat) := []            -- per strip: done line
  lastTaken : KMap (Option Nat) := []       -- per strip: close line of the last record accepted
  splitSets : List Nat := []                -- sets marked SPLIT by their number
  dropped : List (Nat × Nat × Nat) := []    -- strip, side and line of contacts dropped for want of a node, not yet paired (R275)
  nextSet : Nat := 0
deriving DecidableEq, Repr

/-- One 128-byte object record (R286) on its way to the verdict unit and the Carver. -/
structure ObjRec where
  id : Nat
  epoch : Nat
  flags : Nat
  first : Nat
  lines : Nat
  views : Nat
  dtFirst : Nat
  leadT : Nat
  x0 : Nat
  x1 : Nat
  area : Nat
  perim : Nat
  csat : Nat
  cls : List Nat                            -- classes 1 to 15
  cx : Nat
  cy : Nat
  mu20 : Nat
  mu02 : Nat
  mu11 : Int
  fmean : List Nat
  fmin : List Nat
  fmax : List Nat
  score : List Int := [0, 0, 0, 0]
  verdict : Nat := 0
  -- carried beside the record for the Carver and the verdict unit
  full : List Int := []                     -- LINES, AREA, PERIM, CX, MU20, MU02, MU11 at full width (R321)
  fullCls : List Nat := []                  -- counts of classes 1 to 15 at full width
  handed : Nat := 0                         -- DT of hand-over (R297)
  waiting : Bool := false                   -- selected, and not yet answered by the Carver
  net : Option Nat := none                  -- network slot that selected it
  scores : List Int := []                   -- all scores of its network (R307)
deriving DecidableEq, Repr

/-! ## RAS: repair in service (R426 to R444) -/

/-- An entry of the repair map (R441), without its CRC. -/
structure RepEntry where
  kind : Nat
  flags : Nat := 0
  block : Nat := 0
  inst : Nat := 0
  dt : Nat := 0
  epoch : Nat := 0
  data : Nat := 0
deriving DecidableEq, Repr

/-- The RAS unit beside its registers. -/
structure RasS where
  mapQ : List RepEntry := []                -- repairs not yet persisted, oldest first (R440)
  repairs : List RepEntry := []             -- repairs in force, persisted or not
  grpTrip : KMap (Option Nat) := []         -- per group: DT of the last re-raise (R432)
  restarts : List Nat := []                 -- DT of the restarts of the cores (R437)
  coresDown : Bool := false                 -- the cores are held in reset or reloading
  service : Bool := false                   -- service mode of the boot ROM
  resume : Option Nat := none               -- port whose move waits for its first line (R433)
  migs : List Nat := []                     -- strips under migration
  testQ : List (Nat × Nat) := []            -- injected faults that wait: kind, index (R443)
  waitQ : List (Nat × Nat) := []            -- gouges whose migration waits for one before, with its C (R443)
  rowCe : KMap Nat := []                    -- corrected errors per SRAM row
  rowSpare : KMap Nat := []                 -- spare rows used per macro
  relocQ : List (Nat × Nat × Nat × Nat) := [] -- SRAM rows that wait for the management cores: block, instance, macro, row (R442)
  tLost : List Nat := []                    -- BAR0 addresses of T fields that wait for their restore (R39)
  markInjected : Bool := false              -- the repair under way was injected
deriving DecidableEq, Repr

/-! ## CRV: the Carver (R295 to R317) -/

/-- A request of a selected object. -/
structure CrvReq where
  obj : ObjRec
  net : Nat
deriving DecidableEq, Repr

/-- A patch in a patch slot: its request and its input activations in HWC order. -/
structure CrvPatch where
  obj : ObjRec
  net : Nat
  data : List Int
deriving DecidableEq, Repr

/-- Scores on their way to the verdict unit. -/
structure CrvResult where
  id : Nat
  net : Nat
  clocks : Nat
  scores : List Int
deriving DecidableEq, Repr

/-- The Carver beside its registers. -/
structure CrvS where
  queue : List CrvReq := []              -- oldest first
  patches : List CrvPatch := []          -- resampled, oldest first
  results : List CrvResult := []         -- computed, not yet delivered, oldest first
  weights : KMap Nat := []               -- weight SRAM by 32-bit word
  validating : KMap Bool := []           -- per network slot: VALIDATE is being carried out
  tainted : KMap Bool := []              -- per network slot: its blob was written while in use (R308)
deriving DecidableEq, Repr

/-! ## VRD and T1S: verdicts, fire commands and segments (R321 to R353) -/

/-- A command in the pending table (R335, R340, R343). -/
structure FireCmd where
  kind : Nat                      -- 1 fire, 3 cancel all of the node
  seg : Nat                       -- segment, or the lower one of its pair
  node : Nat
  out : Nat
  flags : Nat := 0                -- bit 1 LATE, bit 2 TEST
  seq : Nat
  dur : Nat := 0                  -- µs
  time : Nat := 0                 -- fire time, integer ns modulo 2^48
  obj : Nat := 0
  valve : Nat := 0
  sent : List Nat := []           -- segments on which it was sent
  first : Option Nat := none      -- DT of its first sending
deriving DecidableEq, Repr

/-- A pulse that waits on a FIRE_OUT pin (R351): its start as integer ns of DT, or an encoder and a threshold. -/
structure Pulse where
  sp : Option (Nat × Nat) := none
  start : Nat := 0
  dur : Nat                       -- µs
  obj : Nat
  valve : Nat := 0
deriving DecidableEq, Repr

/-- A Pdelay_Req under answer: its port identity, sequence number and DT of receipt (R84). -/
structure PdReq where
  ident : Nat
  seqId : Nat
  dt : Nat
deriving DecidableEq, Repr

/-- One segment beside its registers. -/
structure SegS where
  seq : Nat := 0                            -- SEQ of the next command (R343)
  fseq : Nat := 0                           -- frames of commands sent (R342)
  cmax : Nat := 0                           -- cycle bound in bit times (R336)
  beaconAt : Option Nat := none             -- DT of the last beacon
  syncAt : Option Nat := none               -- DT at which the last Sync fell due
  annAt : Option Nat := none                -- DT at which the last Announce fell due
  syncDue : Bool := false
  annDue : Bool := false
  syncId : Nat := 0
  annId : Nat := 0
  followUp : Option (Nat × Nat) := none     -- Follow_Up owed: sequence number and DT of its Sync
  resp : List PdReq := []                   -- Pdelay_Resp owed, oldest first
  respFu : List (PdReq × Nat) := []         -- Pdelay_Resp_Follow_Up owed with the DT of the response
  rxAt : KMap (Option Nat) := []            -- per node: DT of its last status frame
  startAt : Nat := 0                        -- DT at which the segment started
  causeAt : Option Nat := none              -- DT of the last cause for CSMA (R347)
  strangerAt : Option Nat := none           -- DT of the last stranger logged (R346)
  nstat : KMap (List Byte) := []            -- last status payload per node
deriving DecidableEq, Repr

/-- A place in the VRD SRAMs (R353). -/
structure VrdBad where
  active : Bool                             -- in the active bank
  table : Nat                               -- 0 rules, 1 ejector map, 2 zones
  index : Nat
deriving DecidableEq, Repr

/-- The verdict unit, the scheduler and the segments beside their registers. -/
structure VrdS where
  seg : KMap SegS := []
  pend : List FireCmd := []                 -- the pending table, in order of entry
  pins : KMap (List Pulse) := []            -- per FIRE_OUT pin: pulses that wait, oldest first
  pinEnd : KMap (Option Nat) := []          -- per pin: end of the running pulse, DT
  bad : List VrdBad := []                   -- table entries that read as disabled
deriving DecidableEq, Repr


/-! ## DMA and HST (R379 to R398) -/

/-- A descriptor of a ring (R386), with its count. -/
structure Desc where
  index : Nat
  src : Nat
  dst : Nat
  len : Nat
  ctl : Nat
deriving DecidableEq, Repr

/-- What a channel waits for (R388). -/
inductive WaitOn where
  | dt (t : Nat)
  | stream
  | flag (i : Nat)
  | ns (t : Nat)                            -- until this DT
deriving DecidableEq, Repr

/-- One DMA channel beside its registers. -/
structure ChS where
  fetched : List Desc := []                 -- descriptors fetched and not completed, oldest first
  noOwn : Bool := false                     -- the next descriptor was not owned: idle when the fetched ones end
  haltReq : Bool := false                   -- HALT waits for the next step
  space : Nat := 0                          -- space of PC
  sa : Nat := 0
  da : Nat := 0
  loops : List Nat := [0, 0, 0, 0]
  count : Nat := 0                          -- instructions since the last MOVE that moved data
  index : Nat := 0                          -- instructions executed
  wait : Option WaitOn := none
  rem : Nat := 0                            -- bytes not yet counted in BYTES
  late : Nat := 0                           -- host requests declared late or abandoned that are still unanswered (R43)
  lateDram : Nat := 0                       -- the same of DRAM requests
deriving DecidableEq, Repr

/-- The DMA engine and the host port beside their registers. -/
structure DmaS where
  ch : KMap ChS := []
  ringAt : KMap Nat := []                   -- DT at which an entry was written: 2^32 * (0 object, 1 tag) + slot
  msix : KMap Nat := []                     -- MSI-X table by 32-bit word
  pba : KMap Bool := []
  sentAt : KMap (Option Nat) := []          -- per vector: DT of its last message
  coal : KMap Nat := []                     -- per vector: events coalesced since its last message
  fmask : Bool := false                     -- MSI-X function mask
  mps : Nat := 128                          -- Max Payload Size in force
  mrrs : Nat := 512                         -- Max Read Request Size in force
deriving DecidableEq, Repr


/-! ## CMP: the recorder and its jobs (R403 to R423) -/

/-- A reference line by its key (R411). -/
structure RefLine where
  tap : Nat
  src : Nat
  plane : Nat
  first : Nat
  lsn : Nat
  samples : List Nat
deriving DecidableEq, Repr

/-- The recorder beside its registers. -/
structure RecS where
  chunk : List Byte := []                   -- record bytes of the open chunk
  count : Nat := 0                          -- its records
  opened : Option Nat := none               -- DT at which it took its first record
  dtFirst : Nat := 0                        -- DT_EXP of its first and last record
  dtLast : Nat := 0
  chunkGap : Bool := false                  -- GAP and DROPPED of the open chunk
  chunkDropped : Nat := 0
  gap : Bool := false                       -- lines refused since the open or last chunk began
  dropped : Nat := 0
  refs : List RefLine := []                 -- reference store
  raw : Bool := true                        -- no self-test passed since start-up, or the last one failed (R415)
  written : Nat := 0                        -- chunks written since the ring started
  rem : Nat := 0                            -- record bytes not yet counted in units of 64
  predWas : Option (Nat × Nat) := none      -- first LSN of the running batch and the predictor before it (R37)
deriving DecidableEq, Repr

/-- One decoded record of a replay line under assembly (R422). -/
structure DecRec where
  plane : Nat
  first : Nat
  lflags : Nat
  pflag : Nat
  samples : List Nat
deriving DecidableEq, Repr

/-- One job engine beside its registers: its descriptor and where it stands (R418). -/
structure JobS where
  desc : Nat := 0
  kind : Nat := 0
  flags : Nat := 0
  depth : Nat := 0
  param : Nat := 0
  width : Nat := 0
  inAddr : Nat := 0
  inLen : Nat := 0
  lsn0 : Nat := 0
  outAddr : Nat := 0
  outLimit : Nat := 0
  inUsed : Nat := 0
  outUsed : Nat := 0
  records : Nat := 0
  status : Nat := 0
  refs : List RefLine := []
  line : Option (Nat × List DecRec) := none -- replay line under assembly: its LSN and records, oldest first
deriving DecidableEq, Repr

/-- The compression engine. -/
structure CmpS where
  recorder : RecS := {}
  job : KMap JobS := []
deriving DecidableEq, Repr

/-! ## DDR: the DRAM controller (R359 to R376) -/

/-- One bank of a channel (R365). -/
structure BankS where
  row : Option Nat := none                  -- open row
  last : Option Nat := none                 -- row last closed
  pred : Nat := 2                           -- page predictor
  hitAt : Nat := 0                          -- DT of its last request
deriving DecidableEq, Repr

/-- One DRAM channel beside its registers. -/
structure DdrCh where
  bank : KMap BankS := []                   -- by rank, subchannel, bank group, bank
  wbuf : List Nat := []                     -- granules of the write buffer, oldest first (R364)
  ueAt : List Nat := []                     -- DT of the uncorrectable errors of the last second
  rowCe : KMap Nat := []                    -- corrected errors by row (R373)
  copying : List Nat := []                  -- remap entries whose copy runs, oldest first
  refIdx : Nat := 0                         -- bank index of the next REFsb (R368)
  owed : KMap Nat := []                     -- refreshes postponed, by bank index
  dqs : KMap Int := []                      -- codes that a device's write DQS delay has still to move (R371)
  mr4 : KMap Nat := []                      -- refresh rate reported by each rank
  patrol : Nat := 0                         -- next granule of the patrol scrub
  busyAt : Nat := 0                         -- DT of the last request, or of the last write issued from the buffer
  updAt : Nat := 0                          -- DT of the last PHY update window (R368); of training, before the first
  oscAt : Nat := 0                          -- DT of the last run of the DQS oscillators (R371); of training, before the first
  passAt : Nat := 0                         -- DT at which the running pass of the patrol scrub was due (R372)
  mr4At : KMap Nat := []                    -- DT of the last MR4 read of each rank (R360); of training, before the first
deriving DecidableEq, Repr

/-- The DRAM controller and the arbiter's meters. -/
structure DdrS where
  ch : KMap DdrCh := []
  meter : KMap Nat := []                    -- bytes of each DRAM user in the running window (R13)
  reports : Nat := 0                        -- bytes that report channels read in the running window (R384)
  retireQ : List Nat := []                  -- channels whose retirement waits for the management cores (R442)
deriving DecidableEq, Repr

/-! ## NVM (R439, R440, R457, R458) -/

/-- The slot table record (R458). -/
structure SlotTab where
  active : Nat := 0
  pending' : Nat := 0xff
  gen : Nat := 0
  len0 : Nat := 0
  len1 : Nat := 0
  state0 : Nat := 0
  state1 : Nat := 0
  fwslot : Nat := 0
deriving DecidableEq, Repr

/-- One NVM device: partitions that were written; an unlisted image byte is erased. -/
structure NvmDev where
  slots : Option SlotTab := none
  mapSerial : Nat := 0                      -- header of the repair map; GEN 0 when none was written
  mapGen : Nat := 0
  repairs : List RepEntry := []
  log : List LogEntry := []                 -- log partition, oldest first
  img0 : KMap Byte := []
  img1 : KMap Byte := []
  failed : Bool := false                    -- out of service until the next start-up (R439)
  errs : Nat := 0                           -- reads failed in a row
deriving DecidableEq, Repr

/-- One record of an image section (R479). -/
structure ImgRec where
  addr : Nat
  count : Nat
  op : Nat
  cls : Nat
  words : List Nat
deriving DecidableEq, Repr

/-- The recipe store and the recipe engine (R482 to R485). -/
structure RcpS where
  store : KMap (List ImgRec) := []
  loading : Nat := 0                        -- recipe that loads or is armed
  kept : List ImgRec := []                  -- held records of the armed recipe
deriving DecidableEq, Repr

/-! ## MGT and CAL (R446 to R467) -/

/-- The last good readings of a rail (R450, R451). -/
structure RailS where
  faultAt : Option Nat := none              -- DT at which the rail was marked FAULT
  vin : Nat := 0
  vout : Nat := 0
  iout : Nat := 0
  temp : Nat := 0
  linear : Bool := true                     -- VOUT_MODE is linear
deriving DecidableEq, Repr

/-- The management controller beside its registers. -/
structure MgtS where
  mbx : KMap Byte := []                     -- mailbox buffer
  owedStatus : Option Nat := none           -- status of the command that a restart ended, sent after it
  tokens : Nat := 4096                      -- bucket of R457
  refillAt : Nat := 0                       -- DT of the bucket's last refill
  suppressed : Nat := 0                     -- entries suppressed since the last "log suppressed" entry
  persisted : Option (Nat × Nat) := none    -- LSEQ and DT of the entry last persisted (R468)
  imgLen : Option Nat := none               -- LEN announced by IMG_BEGIN
  imgOk : Bool := false                     -- IMG_VERIFY has passed, with no IMG_WRITE since
  committed : Option Nat := none            -- slot of the last IMG_COMMIT
  hotAt : KMap (Option Nat) := []           -- per sensor: DT since which it reads above TEMP_HOT
  coolAt : Option Nat := none               -- DT since which every sensor is below TEMP_HOT - 5
  hotSteps : Nat := 0                       -- Carver clock steps taken by the temperature loop
  powerSteps : Nat := 0                     -- those taken by the power loop
  highAt : Option Nat := none               -- DT since which power exceeds the ceiling
  lowAt : Option Nat := none                -- DT since which power is below 95 % of it
  powAt : Option Nat := none                -- DT of the last reading of the rail power (R451)
  avsAt : Option Nat := none                -- DT of the last evaluation of the voltage loop (R453)
  temps : List (Nat × Int) := []            -- hottest readings of the last 60 ms with their DT, newest first
  calm : Nat := 0                           -- evaluations in a row with the smallest slack above 8
  rail : KMap RailS := []
deriving DecidableEq, Repr

/-- The always-on domain beside its registers (R487, R489, R494). -/
structure AonS where
  off : Bool := false                       -- the device is in OFF
  wakeOff : Bool := false                   -- the start-up under way follows OFF: DT is not loaded (R491)
  tripped : Bool := false                   -- OFF after a thermal trip: no wake source acts
  tripLogged : Bool := false                -- the entry of R494 for PWR.TRIP has been written
  alert : Bool := false                     -- level of ALERT_N held in OFF: asserted
  perstN : Bool := false                    -- PERST_N is released
  trains : Bool := false                    -- the endpoint may train its link (R475)
deriving DecidableEq, Repr

/-- The Caliper beside its registers. -/
structure CalS where
  asked : List Nat := []                    -- targets made due by a command
  ranAt : KMap (Option Nat) := []           -- DT of each target's last run
  startAt : Nat := 0                        -- DT at which the running run started
  stepAt : KMap (Option Nat) := []          -- by 4t + code: DT of its last step
  resBad : Bool := false                    -- CAL_RES was out of range
deriving DecidableEq, Repr


/-! ## The whole device -/

/-- Everything of the device but its DRAM: registers, unit state, tables, log, NVM and the outbox. -/
structure Dev where
  regs : KMap Nat := []                    -- fields in force, by field key; an unlisted field holds its reset value
  rwb : KMap (Option Nat) := []            -- pending values of RWB fields, by field key (R36)
  rwp : KMap (Option Nat) := []            -- posted values of RWP fields not yet landed, by field key (R38)
  latch : KMap (Option (Nat × Nat)) := []  -- by block instance: address and value of a latched high word (R31)
  epochLatch : Option Nat := none          -- latched DT epoch (R89)
  snap : SnapS := {}
  prf : PrfS := {}
  perf : KMap PerfS := []                  -- by base address of the block instance
  log : KMap LogEntry := []                -- on-die event log by slot (R455)
  lseq : Nat := 0                          -- LSEQ of the next entry
  logNewest : Option Nat := none           -- slot of the newest entry
  injecting : Bool := false                -- entries raised now carry INJECTED (R454)
  persistQ : List Nat := []                -- LSEQ of entries that wait to be persisted, oldest first
  vecOwed : KMap Bool := []                -- MSI-X vectors that owe a message (R398)
  posted : List MemOp := []                -- DRAM effects of the running command, in order
  out : List Out := []                     -- what has left the device, newest first
  free : Nat := 0                          -- the model's own: index of the next free value
  tim : TimS := {}
  quadLock : KMap Bool := []               -- SerDes PLL of each quad locked (R92)
  lane : KMap LaneS := []
  port : KMap PortS := []
  homeQ : KMap (List CamLine) := []        -- per lathe: lines of its home port, oldest first
  rtHold : KMap (Option Nat) := []         -- run-time holders by 4096 * type + index: owner code (R20)
  rtAt : KMap (Option Nat) := []           -- by the same key: full DT accumulator at which a free resource was claimed (R20)
  spLatch : KMap (Option (Nat × Nat × Nat)) := [] -- by LSN mod 65,536: LSN, SP0, SP1 at E of TG0 (R327)
  spNewest : Option Nat := none            -- LSN of the newest latch
  bank : KMap Bank := []                   -- banked tables by unit
  lth : KMap LthS := []
  fus : FusS := {}
  stream : KMap (List (List Byte)) := []   -- per DMA channel: tap lines in its slices, oldest first (R384)
  recQ : List TapLine := []                -- tap lines at the recorder's input, oldest first
  cls : ClsS := {}
  gou : KMap GouS := []
  mrg : MrgS := {}
  ras : RasS := {}
  yielding : KMap Bool := []               -- DRAM users held in the running 2 µs window (R13); 6: DMA channels of user 3 were
  objQ : List ObjRec := []                 -- complete records at the verdict unit, in completion order (R8)
  held : List ObjRec := []                 -- selected objects that the verdict unit holds (R297)
  crv : CrvS := {}
  vrd : VrdS := {}
  imgWord : KMap (Option Nat) := []        -- by BAR0 address: the word that the image or a recipe last wrote
  dma : DmaS := {}
  cmp : CmpS := {}
  ddr : DdrS := {}
  nvm : KMap NvmDev := []                  -- NVM_A (0) and NVM_B (1); kept over every reset
  rootHash : List Byte := []               -- fused root key hash; empty: all zero (R459)
  rcp : RcpS := {}
  mgt : MgtS := {}
  cal : CalS := {}
  rtFree : List Nat := []                  -- run-time resources released, back to their static holder at the next composite block (R20)
  aon : AonS := {}
deriving DecidableEq, Repr

/-- The block: the commands that wait, first in first out, its DRAM, and the device. -/
structure State where
  pending : List Instr := []
  mem : Mem := {}
  dev : Dev := {}
deriving DecidableEq, Repr

/-- Why a command stops the model. -/
inductive Fault where
  /-- Raised where a setting that the spec calls a host error takes effect: the results of R34 are
  unpredictable and may reach any output. Safe: the model stops where the device goes on somehow. -/
  | hostError (what : String)
deriving DecidableEq, Repr

/-- Why a command has no meaning. -/
inductive Refusal where
  /-- Raised by `exec` for a command without a meaning. Safe: the model stops. -/
  | notModelled (mnemonic : String)
deriving DecidableEq, Repr

/-- The block right after reset: every register at the value its table gives, no unit running, DT and the
epoch 0, DRAM untrained, nothing pending (R60, R62, R472, R473). -/
def State.reset : State := {}

end Sys2Proof.Machine
end

