-- ==== Sys2Proof/Machine/Ops.lean ====
section
/-!
DEFINITION. The named operations that every command shares: the register file, counters, DRAM, Device Time,
the outbox, and how a command's effect on the device becomes a step of the block.
-/

namespace Sys2Proof.Machine

/-! ## From the device to the block -/

/-- The bytes at a key and after, written one by one. -/
def putBytes (m : KMap Byte) (key : Nat) : List Byte → KMap Byte
  | [] => m
  | b :: bs => putBytes (KMap.put (fun _ => 0#8) m key b) (key + 1) bs

/-- The mark of a granule. -/
def Mem.mark (m : Mem) (g : Nat) : Mark := KMap.get (fun _ => Mark.initial) m.marks g

/-- One byte of DRAM by physical key. -/
def Mem.byte (m : Mem) (key : Nat) : Byte := KMap.get (fun _ => 0#8) m.bytes key

/-- One DRAM effect. A write of part of a granule that holds the poison pattern leaves the poison pattern,
and one into a granule of the initial pattern is merged into zero bytes (R367). -/
def Mem.apply (m : Mem) : MemOp → Mem
  | .write key bs =>
    if m.mark (key / 64) == .poison && decide (bs.length < 64) then m
    else
      { bytes := putBytes m.bytes key bs
        marks := KMap.put (fun _ => Mark.initial) m.marks (key / 64) .written }
  | .poison g =>
    { bytes := m.bytes.filter (fun e => e.1 / 64 != g)
      marks := KMap.put (fun _ => Mark.initial) m.marks g .poison }
  | .train ch =>
    { bytes := m.bytes.filter (fun e => e.1 / 2 ^ 36 != ch)
      marks := m.marks.filter (fun e => e.1 * 64 / 2 ^ 36 != ch) }

/-- DRAM effects in order. -/
def Mem.applyAll (m : Mem) : List MemOp → Mem
  | [] => m
  | o :: os => Mem.applyAll (m.apply o) os

/-- DRAM in its canonical form. -/
def Mem.wf (m : Mem) : Bool :=
  KMap.wf (fun _ => 0#8) m.bytes && KMap.wf (fun _ => Mark.initial) m.marks

/-- The outcome of a command from its outcome on the device: DRAM takes the effects that the command posted,
the queue of waiting commands stays as it is. -/
def run (f : Mem → Dev → Host.Outcome Dev Fault Refusal) (s : State) : Host.Outcome State Fault Refusal :=
  match f s.mem s.dev with
  | .next d => .next { s with mem := s.mem.applyAll d.posted, dev := { d with posted := [] } }
  | .fault r => .fault r
  | .refused r => .refused r

/-- A command that always completes. -/
def total (f : Mem → Dev → Dev) (s : State) : Host.Outcome State Fault Refusal :=
  run (fun m d => .next (f m d)) s

/-! ## The register file -/

/-- The value in force of a field. -/
def Dev.get (d : Dev) (f : Fld) : Nat := KMap.get resetOf d.regs f.key

/-- The value last written to a field: the pending or posted one, else the one in force (R35). -/
def Dev.lastWritten (d : Dev) (f : Fld) : Nat :=
  match KMap.get (fun _ => (none : Option Nat)) d.rwb f.key with
  | some v => v
  | none =>
    match KMap.get (fun _ => (none : Option Nat)) d.rwp f.key with
    | some v => v
    | none => d.get f

/-- Sets a field, in the width of the field. -/
def put (f : Fld) (v : Nat) (d : Dev) : Dev := { d with regs := KMap.put resetOf d.regs f.key (v % 2 ^ f.w) }

/-- The value in force of a one-bit field. -/
def Dev.on (d : Dev) (f : Fld) : Bool := d.get f == 1

/-- Adds to a counter field, which wraps. -/
def inc (f : Fld) (n : Nat) (d : Dev) : Dev := put f (d.get f + n) d

/-- Adds to a counter field, which saturates. -/
def incSat (f : Fld) (n : Nat) (d : Dev) : Dev := put f (min (d.get f + n) (2 ^ f.w - 1)) d

/-- Raises a field to a value it has not yet reached (a peak). -/
def peak (f : Fld) (v : Nat) (d : Dev) : Dev := if d.get f < v then put f v d else d

/-- Sets each listed field to its value. -/
def puts : List (Fld × Nat) → Dev → Dev
  | [], d => d
  | (f, v) :: fs, d => puts fs (put f v d)

/-- What leaves the device. -/
def emit (o : Out) (d : Dev) : Dev := { d with out := o :: d.out }

/-- The next free value, and the device after taking it. -/
def Dev.fresh (d : Dev) : Nat := Config.free d.free

/-- Counts a free value as taken. -/
def takeFree (d : Dev) : Dev := { d with free := d.free + 1 }

/-- `f` when the condition holds, else nothing. -/
def when (c : Bool) (f : Dev → Dev) (d : Dev) : Dev := if c then f d else d

/-- An effect for each element, in order. -/
def each {α : Type} (f : α → Dev → Dev) : List α → Dev → Dev
  | [], d => d
  | x :: xs, d => each f xs (f x d)

/-! ## Device Time (R60 to R64) -/

/-- Device Time as its 64-bit value (R60). -/
def Dev.dt (d : Dev) : Nat := d.tim.acc / 2 ^ 32 % 2 ^ 64

/-- Integer nanoseconds of DT. -/
def Dev.ns (d : Dev) : Nat := d.dt / 65536

/-- Full time N of the present DT in integer nanoseconds (R60). -/
def Dev.fullNs (d : Dev) : Nat := d.tim.epoch * 2 ^ 48 + d.ns

/-- The rate trim in force, held to ±200,000 ppb (R61). -/
def Dev.ppb (d : Dev) : Int := clampI (-200000) 200000 (sgn 32 (d.get R.TIM.DT_TRIM.PPB))

/-- `PLL_TIME` clocks TIM: not in STANDBY or OFF, and in RUN or service mode only while it is locked (R61, R64, R65). -/
def Dev.pllTime (d : Dev) : Bool :=
  !(d.get R.PWR.STATUS.STATE == 3 || d.aon.off
    || ((d.get R.PWR.STATUS.STATE == 1 || d.get R.TOP.STATE.MODE == 3) && decide (2 ≤ d.get R.TIM.DT_QUAL.QUAL)))

/-- One step of the DT accumulator in units of 2^-48 ns: a clock of `PLL_TIME` (R61), 40 ns of REFCLK in
STANDBY, in OFF and while `PLL_TIME` has no lock, or the RC period without REFCLK (R64, R65). The trim term is rounded
down. -/
def Dev.dtStep (d : Dev) : Nat :=
  let base : Nat :=
    if d.pllTime then 2 ^ 48
    else if d.tim.rcOnly then Config.rcPeriod * 2 ^ 32 else 40 * 2 ^ 48
  ((base : Int) + fdiv ((base : Int) * d.ppb) 1000000000).toNat

/-- DT and the epoch after `n` steps: the epoch counts the wraps of the integer part (R60). -/
def advance (n : Nat) (d : Dev) : Dev :=
  let a := d.tim.acc + n * d.dtStep
  { d with tim := { d.tim with acc := a % 2 ^ 96, epoch := (d.tim.epoch + a / 2 ^ 96) % 2 ^ 32 } }

/-- Steps until DT is first equal to or later than `t` (R63); none when it already is. -/
def Dev.stepsTo (d : Dev) (t : Nat) : Nat :=
  if dtGe d.dt t then 0
  else cdiv ((t + 2 ^ 64 - d.dt % 2 ^ 64) % 2 ^ 64 * 2 ^ 32 - d.tim.acc % 2 ^ 32) (max d.dtStep 1)

/-! ## Device DRAM by device address (R361, R362) -/

/-- The channels in service, lowest first. -/
def Dev.channels (d : Dev) : List Nat := (List.range 4).filter (fun c => bit (d.get R.DDR.CAP.ACTIVE) c)

/-- Channel and channel-local address of a device address (R362). -/
def Dev.locate (d : Dev) (a : Nat) : Nat × Nat :=
  let n := d.channels.length
  let g := 2 ^ (8 + d.get R.DDR.MAP.GRAIN)
  let k := a / g
  let q := k / n
  let r := k - n * q
  let l := q * g + (a - k * g)
  let h := if d.on R.DDR.MAP.HASH then (bits l 20 2 + bits l 28 2 + bits l 32 2) % n else 0
  (nth 0 d.channels ((r + h) % n), l)

/-- The physical key of a device address. -/
def Dev.physKey (d : Dev) (a : Nat) : Nat := let cl := d.locate a; cl.1 * 2 ^ 36 + cl.2

/-- First address beyond device DRAM. -/
def Dev.dramEnd (d : Dev) : Nat := d.get R.DDR.CAP.MIB * 2 ^ 20

/-- Cuts a transfer at granule boundaries: address and length of each piece. -/
def granules : Nat → Nat → Nat → List (Nat × Nat)
  | 0, _, _ => []
  | fuel + 1, a, n =>
    if n = 0 then []
    else
      let k := min n (64 - a % 64)
      (a, k) :: granules fuel (a + k) (n - k)

/-- The DRAM that a command sees: what it posted so far has landed. -/
def Dev.view (d : Dev) (m : Mem) : Mem := m.applyAll d.posted

/-- One byte of a read: the data of a granule that is not written are free. -/
def Mem.readByte (m : Mem) (key : Nat) : Byte := if m.mark (key / 64) == .written then m.byte key else Config.poisonByte key

/-- Reads `n` bytes at a device address; true with them when a granule read poisoned or DRAM is absent. -/
def Dev.dramRead (d : Dev) (m : Mem) (a n : Nat) : List Byte × Bool :=
  let v := d.view m
  if d.channels.isEmpty || decide (d.dramEnd < a + n) then ((List.range n).map (fun i => Config.poisonByte (2 ^ 40 + a + i)), true)
  else
    ((granules (n / 64 + 2) a n).flatMap (fun p =>
      (List.range p.2).map (fun i => v.readByte (d.physKey p.1 + i))),
     (granules (n / 64 + 2) a n).any (fun p => v.mark (d.physKey p.1 / 64) != .written))

/-- The first granule of a read whose response is poisoned, by its address in the read. -/
def Dev.poisonAt (d : Dev) (m : Mem) (a n : Nat) : Option Nat :=
  if d.channels.isEmpty || decide (d.dramEnd < a + n) then some a
  else ((granules (n / 64 + 2) a n).find? (fun p => (d.view m).mark (d.physKey p.1 / 64) != .written)).map Prod.fst

/-- Posts one effect on DRAM. -/
def post (o : MemOp) (d : Dev) : Dev := { d with posted := d.posted ++ [o] }

/-- Writes bytes at a device address, granule by granule (R367); dropped where DRAM is absent. -/
def dramWrite (a : Nat) (bs : List Byte) (d : Dev) : Dev :=
  if d.channels.isEmpty || decide (d.dramEnd < a + bs.length) then d
  else
    each (fun p => post (.write (d.physKey p.1) ((bs.drop (p.1 - a)).take p.2)))
      (granules (bs.length / 64 + 2) a bs.length) d

/-- Base address in bytes and size in bytes of a region in force (R24, R376). -/
def Dev.region (d : Dev) (i : Nat) : Nat × Nat :=
  (d.get (R.DDR.RGN_ACT.BASE_MIB i) * 2 ^ 20, d.get (R.DDR.RGN_ACT.SIZE_MIB i) * 2 ^ 20)

/-! ## Ownership (R19 to R22, R514) -/

/-- The entries of `TOP.OWN` that claim a resource: those whose OWNER is a code of R19. -/
def Dev.ownEntries (d : Dev) (ty idx : Nat) : List Nat :=
  (List.range 256).filter (fun n =>
    d.get (R.TOP.OWN.TYPE n) == ty && d.get (R.TOP.OWN.INDEX n) == idx
      && decide (1 ≤ d.get (R.TOP.OWN.OWNER n) ∧ d.get (R.TOP.OWN.OWNER n) ≤ 14))

/-- The owner that holds a resource: a run-time holder, else the entry marked HELD. -/
def Dev.holder (d : Dev) (ty idx : Nat) : Option Nat :=
  match KMap.get (fun _ => (none : Option Nat)) d.rtHold (4096 * ty + idx) with
  | some o => some o
  | none => ((d.ownEntries ty idx).find? (fun n => d.on (R.TOP.OWN.HELD n))).map (fun n => d.get (R.TOP.OWN.OWNER n))

/-- An owner may use a resource that its chapter gives it: it holds the resource, or no entry and no run-time claim of
another owner holds it (R19–R24; DEDUCED, log entry 53). -/
def Dev.mayUse (d : Dev) (ty idx owner : Nat) : Bool :=
  match d.holder ty idx with
  | none => true
  | some o => o == owner

/-- The owner of a pin's output function (R513, R514); none for an input function. -/
def Dev.pinFunc (d : Dev) (i : Nat) : Option Nat :=
  match d.get (R.TOP.PINMUX.FUNC i) with
  | 0 => if i < 12 then some 3 else if i < 28 then some 2 else if i < 43 then none else some 14
  | 1 => some 14
  | 2 => d.holder 2 (d.get (R.TOP.PINMUX.CMP i))
  | _ => none

/-- The holder of a pin: a pin with no entry is held by the owner of its output function (R514). -/
def Dev.pinHolder (d : Dev) (i : Nat) : Option Nat :=
  match d.holder 1 i with
  | some o => some o
  | none => if (d.ownEntries 1 i).isEmpty then d.pinFunc i else none

/-- A pin drives its primary output function (R514). -/
def Dev.drivesPrimary (d : Dev) (i : Nat) : Bool :=
  d.get (R.TOP.PINMUX.FUNC i) == 0 && (d.pinFunc i).isSome && d.pinHolder i == d.pinFunc i

/-! ## Boundaries (R36, R37) -/

/-- The boundary class of the field under a key. -/
def keyBnd (k : Nat) : Bnd :=
  match fieldOf k with
  | some f => f.bnd
  | none => .none

/-- Applies the pending values of the fields that a boundary reaches, all as one set (R36). -/
def applyPend (hit : Nat → Bool) (d : Dev) : Dev :=
  { d with
      regs := d.rwb.foldl (fun r e =>
        match e.2 with
        | some v => if hit e.1 then KMap.put resetOf r e.1 v else r
        | none => r) d.regs
      rwb := d.rwb.filter (fun e => !hit e.1) }

/-- The field under a key lies in an address range and has a boundary class. -/
def inRange (lo n : Nat) (b : Bnd) (k : Nat) : Bool := decide (lo ≤ k / 64 ∧ k / 64 < lo + n) && keyBnd k == b

/-! ## Unit state behind the registers -/

def Dev.laneS (d : Dev) (l : Nat) : LaneS := KMap.get (fun _ => {}) d.lane l
def setLane (l : Nat) (x : LaneS) (d : Dev) : Dev := { d with lane := KMap.put (fun _ => {}) d.lane l x }
def Dev.portS (d : Dev) (p : Nat) : PortS := KMap.get (fun _ => {}) d.port p
def setPort (p : Nat) (x : PortS) (d : Dev) : Dev := { d with port := KMap.put (fun _ => {}) d.port p x }
def Dev.tgS (d : Dev) (g : Nat) : TgS := KMap.get (fun _ => {}) d.tim.tg g
def setTg (g : Nat) (x : TgS) (d : Dev) : Dev :=
  { d with tim := { d.tim with tg := KMap.put (fun _ => {}) d.tim.tg g x } }
def Dev.perfS (d : Dev) (base : Nat) : PerfS := KMap.get (fun _ => {}) d.perf base
def setPerf (base : Nat) (x : PerfS) (d : Dev) : Dev := { d with perf := KMap.put (fun _ => {}) d.perf base x }

/-- A Boolean entry of a sparse map. -/
def flag (m : KMap Bool) (k : Nat) : Bool := KMap.get (fun _ => false) m k
def setFlag (k : Nat) (b : Bool) (m : KMap Bool) : KMap Bool := KMap.put (fun _ => false) m k b
/-- A number of a sparse map. -/
def num (m : KMap Nat) (k : Nat) : Nat := KMap.get (fun _ => 0) m k
def setNum (k v : Nat) (m : KMap Nat) : KMap Nat := KMap.put (fun _ => 0) m k v

end Sys2Proof.Machine
end

