-- ==== Sys2Proof/Machine/Flags.lean ====
section
/-!
DEFINITION. Status flags and what they raise: sequence numbers of RSQ registers (R40), interrupt events
(R397), statistics and performance counters (R49 to R53), the logged events of R456, and the error events that
trigger a snapshot or the recorder (R44, R416).
-/

namespace Sys2Proof.Machine

/-- The next sequence number: 0xFF wraps to 0x01 (R40). -/
def nextSeq (s : Nat) : Nat := if s = 255 then 1 else s + 1

/-- An interrupt event makes its routed vector owe a message, or is coalesced into the one it owes; while the link
is down or MSI-X is not enabled the event stays in the register that raised it (R381, R397, R398). -/
def raise (e : Nat) (d : Dev) : Dev :=
  let v := d.get (R.HST.VMAP.VECTOR e)
  if d.on (R.HST.VMAP.EN e) && d.on R.HST.LINK.UP && d.on R.HST.LINK.MSIX_EN then
    if flag d.vecOwed v then inc (R.HST.STAT.COUNT 1) 1 { d with dma := { d.dma with coal := setNum v (num d.dma.coal v + 1) d.dma.coal } }
    else { d with vecOwed := setFlag v true d.vecOwed }
  else d

/-- A new event of an RSQ register of the block with this code: SEQ moves on, the status bits are set, and
the block's interrupt event is raised (R40, R397). -/
def event (code : Nat) (seq : Fld) (bits : List Fld) (d : Dev) : Dev :=
  raise (64 + code) (puts (bits.map (fun f => (f, 1))) (put seq (nextSeq (d.get seq)) d))

/-- A selection of a performance counter as EVENT + 1024 * EN. -/
def perfSel (d : Dev) (base n : Nat) : Nat := num (d.perfS base).sel n

/-- One counter of a block takes `k` occurrences of an event code (R49, R53). -/
def perfOne (blk base code k n : Nat) (d : Dev) : Dev :=
  if perfSel d base n = 1024 + code then
    let f := R.PERF.CNT.COUNT base n
    let v := d.get f + k
    let d := put f v d
    if v < 2 ^ 48 then d
    else
      let p := d.perfS base
      let d := setPerf base { p with ovf := p.ovf ||| 2 ^ n } d
      put (R.PERF.OVF.CNT_OVF base) (d.get (R.PERF.OVF.CNT_OVF base) ||| 2 ^ n)
        (event blk (R.PERF.OVF.SEQ base) [] d)
  else d

/-- `k` occurrences of a performance event of a block instance (R49). -/
def perf (blk base code k : Nat) (d : Dev) : Dev :=
  if k = 0 then d else each (perfOne blk base code k) (List.range 8) d

/-- `k` slots of a category: 0 RET, 1 WASTE (R50). -/
def slot (blk base cat k : Nat) (d : Dev) : Dev :=
  if k = 0 then d
  else
    let f := R.PERF.SLOT.COUNT base cat
    let v := d.get f + k
    let d := put f v d
    if v < 2 ^ 48 then d
    else
      let p := d.perfS base
      let d := setPerf base { p with slotOvf := p.slotOvf ||| 2 ^ cat } d
      put (R.PERF.OVF.SLOT_OVF base) (d.get (R.PERF.OVF.SLOT_OVF base) ||| 2 ^ cat)
        (event blk (R.PERF.OVF.SEQ base) [] d)

def mgtPerf (code n : Nat) (d : Dev) : Dev := perf 3 0x40000 code n d

/-- A new entry takes its slot of the on-die ring (R455), and waits to be persisted from the severity of `LOG_CTL.PSEV`
on (R468). -/
def logPlace (code inst sev flags data : Nat) (d : Dev) : Dev :=
  let fl := if d.injecting then flags / 2 * 2 + 1 else flags
  let e : LogEntry := { dt := d.dt, lseq := d.lseq, code, inst, sev, flags := fl, count := 1, data := data % 2 ^ 64 }
  { d with log := KMap.put (fun _ => {}) d.log (d.lseq % 8192) e
           logNewest := some (d.lseq % 8192), lseq := (d.lseq + 1) % 2 ^ 32
           persistQ := if d.get R.MGT.LOG_CTL.PSEV ≤ sev then d.persistQ ++ [d.lseq] else d.persistQ }

/-- A new entry of the log, counted (R455). -/
def logFresh (code inst sev flags data : Nat) (d : Dev) : Dev :=
  mgtPerf 1 1 (inc (R.MGT.STAT.COUNT 1) 1 (put R.MGT.LOG_WR.LSEQ d.lseq (logPlace code inst sev flags data d)))

/-- The newest entry counts one more occurrence. -/
def logAgain (k : Nat) (e : LogEntry) (d : Dev) : Dev :=
  { d with log := KMap.put (fun _ => {}) d.log k { e with count := min (e.count + 1) 0xffff } }

/-- The newest entry counts another event of this code and instance: one within 1 s (R455), unless the entry was
persisted in this very clock (R468). -/
def logSame (code inst : Nat) (e : LogEntry) (d : Dev) : Bool :=
  decide (e.code = code ∧ e.inst = inst ∧ 0 ≤ dtDiff d.dt e.dt ∧ dtDiff d.dt e.dt ≤ 1000000000 * 65536
    ∧ d.mgt.persisted ≠ some (e.lseq, d.dt))

/-- An entry of the log enters the on-die ring, or is counted in the newest entry (R455). -/
def logEntry (code inst sev flags data : Nat) (d : Dev) : Dev :=
  match d.logNewest with
  | none => logFresh code inst sev flags data d
  | some k =>
    let e := KMap.get (fun _ => ({} : LogEntry)) d.log k
    if logSame code inst e d then mgtPerf 3 1 (logAgain k e d) else logFresh code inst sev flags data d

/-- `n` steps of DT, with the "DT epoch" entry of R454 at a wrap. -/
def dtSteps (n : Nat) (d : Dev) : Dev :=
  let d' := advance n d
  if d'.tim.epoch = d.tim.epoch then d' else logEntry 0x0701 0 0 0 d'.tim.epoch d'

/-- A logged event (R454 to R456). -/
def logEv (code inst sev data : Nat) (d : Dev) : Dev := logEntry code inst sev 0 data d

/-- A logged event raised by firmware (R454). -/
def logFw (code inst sev data : Nat) (d : Dev) : Dev := logEntry code inst sev 2 data d

/-- All block instances as pairs of block code and instance (R29). -/
def allInstances : List (Nat × Nat) :=
  blocks.flatMap (fun b => (List.range b.count).map (fun i => (b.code, i)))

/-- A snapshot trigger from source bit `src` of `SNP.CTL.SRC_EN` (R44, R46); sources that trigger at one DT give one
snapshot. -/
def snapTrigger (src : Nat) (d : Dev) : Dev :=
  if bit (d.get R.SNP.CTL.SRC_EN) src then
    if d.get R.SNP.STATUS.STATE = 1 then
      let d := put R.SNP.STATUS.STATE 2 d
      { d with snap := { d.snap with
          t := dtAddNs d.dt (max 2000 (d.get R.SNP.LEAD.LEAD_NS)), src := 2 ^ src, waiting := allInstances } }
    else if d.get R.SNP.STATUS.STATE = 2 ∧ d.snap.t = dtAddNs d.dt (max 2000 (d.get R.SNP.LEAD.LEAD_NS)) then
      { d with snap := { d.snap with src := d.snap.src ||| 2 ^ src } }
    else incSat R.SNP.ID.DROPPED 1 d
  else d

/-- A recorder trigger (R416): taken in RECORDING, dropped and counted in POST and FROZEN. -/
def recTrigger (d : Dev) : Dev :=
  if d.get R.CMP.STATUS.STATE = 1 then
    inc (R.CMP.STAT.COUNT 5) 1 (put R.CMP.STATUS.STATE 2 (put R.CMP.REC_TDT.DT d.dt d))
  else if d.get R.CMP.STATUS.STATE = 0 then d
  else inc (R.CMP.STAT.COUNT 6) 1 (event 0x15 R.CMP.STATUS.SEQ [R.CMP.STATUS.TRIG_DROP] d)

/-- An error event by its bit of `SNP.ERR_MASK` and `REC_TRIG.MASK` (R44, R48, R416). -/
def errEvent (b : Nat) (d : Dev) : Dev :=
  let d := when (bit (d.get R.SNP.ERR_MASK.MASK) b) (snapTrigger 3) d
  when (bit (d.get R.CMP.REC_TRIG.MASK) b) recTrigger d

/-! ## The arbiter's meters (R11 to R13) -/

/-- Bytes that a rate in 0.1 GB/s allows in a window of 2 µs. -/
def windowBudget (rate : Nat) : Nat := 200 * rate

/-- Bytes that a DRAM user has moved are counted in the running window (R13). -/
def meterUser (u n : Nat) (d : Dev) : Dev :=
  { d with ddr := { d.ddr with meter := setNum u (num d.ddr.meter u + n) d.ddr.meter } }

/-- A yielding user has spent its grant of the running window, or was held in it (R13). -/
def Dev.yields (d : Dev) (u : Nat) : Bool :=
  decide (3 ≤ u) && (flag d.yielding u || decide (windowBudget (d.get (R.TOP.DRAM_GRANT.GRANT u)) ≤ num d.ddr.meter u))

/-- A request of a yielding user finds its grant spent, or would take it over its grant in the running window. -/
def Dev.atGrant (d : Dev) (u n : Nat) : Bool :=
  d.yields u || (decide (3 ≤ u) && decide (windowBudget (d.get (R.TOP.DRAM_GRANT.GRANT u)) < num d.ddr.meter u + n))

/-- A yielding user is held for the rest of the window, which is reported in `TOP.DRAM_YIELD` (R13, R27). -/
def holdUser (u : Nat) (d : Dev) : Dev :=
  let d := { d with yielding := setFlag u true d.yielding }
  match u with
  | 3 => event 0 R.TOP.DRAM_YIELD.SEQ [R.TOP.DRAM_YIELD.HOST_IMG] d
  | 4 => event 0 R.TOP.DRAM_YIELD.SEQ [R.TOP.DRAM_YIELD.TILES] d
  | 5 => event 0 R.TOP.DRAM_YIELD.SEQ [R.TOP.DRAM_YIELD.RECORDER] d
  | _ => d

/-- A bus error by its kind: recorded; for a posted write also logged, with an AER message (R32, R33). -/
def busError (bar addr kind : Nat) (write : Bool) (d : Dev) : Dev :=
  let d := event 0 R.TOP.BUSERR.SEQ [] d
  let d := put R.TOP.BUSERR.KIND kind (incSat R.TOP.BUSERR.COUNT 1 d)
  let d := put R.TOP.BUSERR_ADDR.BAR bar (put R.TOP.BUSERR_ADDR.ADDR addr d)
  let d := when write (emit (.aer bar addr)) d
  let d := when write (fun d => perf 0x14 0x1d00000 6 1 (event 0x14 R.HST.STATUS.SEQ [R.HST.STATUS.AER] d)) d
  errEvent 7 (when write (logEv 0x0002 0 2 addr) d)

end Sys2Proof.Machine
end

