-- ==== Sys2Proof/Machine/Banks.lean ====
section
/-!
DEFINITION. Tables in an active and a shadow bank: pixel pools and LUTs of the lathes (R183, R185), the
kernel and column maps of the fusion unit (R204, R224), the classifier's tables (R236) and those of the
verdict unit (R325). A bank is kept by 32-bit words.
-/

namespace Sys2Proof.Machine

/-- Words of the lathe bank: pool entry e at 2e and 2e + 1; word w of the LUT of context c and slot q. -/
def lutWord (c q w : Nat) : Nat := 262144 + (4 * c + q) * 2049 + w

/-- The cubic convolution kernel with a = −0.5 at f = p / 64 for tap distance x = n / 64, in units of 2^-14,
rounded to nearest with halves away from zero (R204). The sum is exact in units of 1 / 32. -/
def cubicTap (n : Nat) : Int :=
  -- 16384 * (3/2 x^3 - 5/2 x^2 + 1) and 16384 * (-1/2 x^3 + 5/2 x^2 - 4x + 2), over 32
  let x : Int := n
  let num : Int := if n ≤ 64 then 3 * x * x * x - 320 * x * x + 524288 else -(x * x * x) + 320 * x * x - 32768 * x + 1048576
  if 0 ≤ num then (num + 16) / 32 else -((-num + 16) / 32)

/-- The reset kernel: taps −1, 0, +1, +2 of a phase; the centre tap takes what keeps the sum at 16,384. -/
def resetKernel (p : Nat) : List Int :=
  let a := cubicTap (64 + p)
  let c := cubicTap (64 - p)
  let e := cubicTap (128 - p)
  [a, 16384 - a - c - e, c, e]

/-- What a word of a unit's banks holds before any image or write. -/
def bankDefault (u key : Nat) : Nat :=
  if u < 8 then
    if key < 262144 then (if key % 2 = 0 then 0x40000000 else 0)
    else
      let w := (key - 262144) % 2049
      if w = 2048 then 0xffff else 32 * w + (32 * w + 16) * 65536
  else if u = 8 ∧ key < 128 then
    let t := resetKernel (key / 2)
    unsgn 16 (nth 0 t (key % 2 * 2)) + unsgn 16 (nth 0 t (key % 2 * 2 + 1)) * 65536
  else 0

def Dev.bankS (d : Dev) (u : Nat) : Bank := KMap.get (fun _ => {}) d.bank u
def setBank (u : Nat) (b : Bank) (d : Dev) : Dev := { d with bank := KMap.put (fun _ => {}) d.bank u b }

/-- A word of the active bank. -/
def Dev.actWord (d : Dev) (u key : Nat) : Nat := KMap.get (bankDefault u) (d.bankS u).act key
/-- A word of the shadow bank. -/
def Dev.shdWord (d : Dev) (u key : Nat) : Nat := KMap.get (bankDefault u) (d.bankS u).shd key

/-- A 16-bit half of an active word. -/
def Dev.actHalf (d : Dev) (u key half : Nat) : Nat := bits (d.actWord u key) (16 * half) 16

/-! ## The units that own banks -/

/-- Index of a unit's banks. -/
def tblIndex : TblUnit → Nat
  | .lth n _ => n.val
  | .fus => 8
  | .cls => 9
  | .vrd => 10

/-- SWAP pending (PEND of `TBL_CTL`). -/
def tblPend : TblUnit → Fld
  | .lth n c => R.LTH.TBL_CTL.PEND n.val c.val
  | .fus => R.FUS.TBL_CTL.PEND
  | .cls => R.CLS.TBL_CTL.PEND
  | .vrd => R.VRD.TBL_CTL.PEND

/-- COPY_BUSY of `TBL_CTL`. -/
def tblBusy : TblUnit → Fld
  | .lth n c => R.LTH.TBL_CTL.COPY_BUSY n.val c.val
  | .fus => R.FUS.TBL_CTL.COPY_BUSY
  | .cls => R.CLS.TBL_CTL.COPY_BUSY
  | .vrd => R.VRD.TBL_CTL.COPY_BUSY

/-- The words that a unit's SWAP and COPY cover: for a context, its pool entries and LUTs (R183). -/
def tblCovers (d : Dev) : TblUnit → Nat → Bool
  | .lth n c, key =>
    let b := d.get (R.LTH.CTX_POOL.BASE n.val c.val)
    let l := d.get (R.LTH.CTX_LEN.LEN n.val c.val)
    decide (2 * b ≤ key ∧ key < 2 * (b + l) ∧ key < 262144) || decide (lutWord c.val 0 0 ≤ key ∧ key < lutWord (c.val + 1) 0 0)
  | _, _ => true

/-- Entries of one bank with the covered words taken from another. -/
def takeCovered (u : Nat) (cov : Nat → Bool) (into from' : KMap Nat) : KMap Nat :=
  (from'.filter (fun e => cov e.1)).foldl (fun m e => KMap.put (bankDefault u) m e.1 e.2) (into.filter (fun e => !cov e.1))

/-- The exchange of a unit's two banks in one clock (R183). -/
def exchange (t : TblUnit) (d : Dev) : Dev :=
  let u := (tblIndex t)
  let b := d.bankS u
  let cov := tblCovers d t
  let mix (xs ys : List Nat) : List Nat := xs.filter (fun k => !cov k) ++ ys.filter cov
  let d := setBank u { b with act := takeCovered u cov b.act b.shd, shd := takeCovered u cov b.shd b.act
                              lost := mix b.lost b.lostShd, lostShd := mix b.lostShd b.lost } d
  let d := put (tblPend t) 0 d
  match t with
  | .lth n _ => perf 10 (0x400000 + 0x80000 * n.val) 0x10 1 d
  | _ => d

/-- A boundary of a unit: a pending exchange takes place unless a copy runs (R183). -/
def boundarySwap (t : TblUnit) (d : Dev) : Dev :=
  when (d.on (tblPend t) && !d.on (tblBusy t)) (exchange t) d

/-- A write of a table word goes to the shadow bank; during a copy that covers it, the copy may still pass
over it (R183). -/
def bankWrite (u : Nat) (covered : Bool) (key v : Nat) (d : Dev) : Dev :=
  let b := d.bankS u
  setBank u { b with shd := KMap.put (bankDefault u) b.shd key (v % 2 ^ 32)
                     raced := if covered then key :: b.raced else b.raced, lostShd := b.lostShd.filter (· != key) } d

/-- A word that an image writes stands in both banks (R185). -/
def bankImage (u key v : Nat) (d : Dev) : Dev :=
  let b := d.bankS u
  setBank u { b with shd := KMap.put (bankDefault u) b.shd key (v % 2 ^ 32), act := KMap.put (bankDefault u) b.act key (v % 2 ^ 32)
                     lost := b.lost.filter (· != key), lostShd := b.lostShd.filter (· != key) } d

/-- One word written during the copy that covers it: it holds the written or the copied value, a free choice
(R183). -/
def raceWord (u : Nat) (old : Bank) (key : Nat) (d : Dev) : Dev :=
  let f := d.fresh
  let d := takeFree d
  if f % 2 = 0 then
    setBank u { d.bankS u with shd := KMap.put (bankDefault u) (d.bankS u).shd key (KMap.get (bankDefault u) old.shd key) } d
  else d

/-- `SWAP` (R183): PEND, until the boundary that exchanges the banks. -/
def execSwap (t : TblUnit) (s : State) : Host.Outcome State Fault Refusal := total (fun _ d => put (tblPend t) 1 d) s

/-- A copy starts; one that runs is left alone (R183). -/
def copyStart (t : TblUnit) (d : Dev) : Dev := put (tblBusy t) 1 d

/-- `COPY` (R183). -/
def execCopy (t : TblUnit) (s : State) : Host.Outcome State Fault Refusal := total (fun _ d => copyStart t d) s

/-- The copy of a unit's active bank into its shadow bank ends (R183). -/
def copyDone (t : TblUnit) (d : Dev) : Dev :=
  if !d.on (tblBusy t) then d
  else
    let u := (tblIndex t)
    let cov := tblCovers d t
    let old := d.bankS u
    let d := setBank u { old with shd := takeCovered u cov old.shd old.act, raced := old.raced.filter (fun k => !cov k)
                                  lostShd := old.lostShd.filter (fun k => !cov k) ++ old.lost.filter cov } d
    let d := each (raceWord u old) ((old.raced.filter cov).eraseDups) d
    put (tblBusy t) 0 d

/-- `COPY_DONE` (R183). -/
def execCopyDone (t : TblUnit) (s : State) : Host.Outcome State Fault Refusal := total (fun _ d => copyDone t d) s

/-! ## What else waits for a composite block boundary (R20, R37) -/

/-- The fixed class of an owner code; 3 for a code that names no owner (R19). -/
def ownerClass (o : Nat) : Nat :=
  if o = 1 ∨ o = 2 then 0 else if 3 ≤ o ∧ o ≤ 7 then 1 else if o = 8 ∨ o = 9 then 2 else 3

/-- The entry that wins a resource: the lower class, then the lower index (R20). -/
def Dev.ownWinner (d : Dev) (ty idx : Nat) : Option Nat :=
  minBy (fun n => 256 * ownerClass (d.get (R.TOP.OWN.OWNER n)) + n) (d.ownEntries ty idx)

/-- The resource of a key returns to its static holder (R20). -/
def returnStatic (k : Nat) (d : Dev) : Dev :=
  let d := { d with rtHold := KMap.put (fun _ => none) d.rtHold k none, rtFree := d.rtFree.filter (· != k) }
  match d.ownWinner (k / 4096) (k % 4096) with
  | some n => puts [(R.TOP.OWN.HELD n, 1), (R.TOP.OWN.DENIED n, 0)] d
  | none => d

/-- Resources released since the last composite block boundary return to their static holders. -/
def returnAll (d : Dev) : Dev := each returnStatic d.rtFree d

/-- The pending BLOCK fields of a unit that processes no lines: TIM, the merge unit and collector, or the Carver. -/
def unitBoundary (code : Nat) (d : Dev) : Dev :=
  match blocks.find? (fun b => b.code == code) with
  | some b => applyPend (inRange b.base (b.count * b.stride) .block) d
  | none => d

/-- Composite block length; 0 is never in range. -/
def Dev.compBlock (d : Dev) : Nat := max 1 (d.get R.TIM.COMP_BLOCK.LINES)

/-- The next composite line begins a composite block (R67). -/
def Dev.atBoundary (d : Dev) : Bool := d.fus.blk == 0 || decide (d.compBlock ≤ d.fus.blk)

end Sys2Proof.Machine
end

