-- ==== Sys2Proof/Machine/Crypto.lean ====
section
/-!
DEFINITION. SHA-256 and the verification of an ECDSA P-256 signature, as R459 asks of an image. PRESUMED (log entry
30): the constants and steps of FIPS 180-4 and FIPS 186-5, which the spec names and does not retell.
-/

namespace Sys2Proof.Machine

/-! ## SHA-256 -/

/-- The 64 round constants. -/
def shaK : List (BitVec 32) :=
  [0x428a2f98, 0x71374491, 0xb5c0fbcf, 0xe9b5dba5, 0x3956c25b, 0x59f111f1, 0x923f82a4, 0xab1c5ed5] ++
  [0xd807aa98, 0x12835b01, 0x243185be, 0x550c7dc3, 0x72be5d74, 0x80deb1fe, 0x9bdc06a7, 0xc19bf174] ++
  [0xe49b69c1, 0xefbe4786, 0x0fc19dc6, 0x240ca1cc, 0x2de92c6f, 0x4a7484aa, 0x5cb0a9dc, 0x76f988da] ++
  [0x983e5152, 0xa831c66d, 0xb00327c8, 0xbf597fc7, 0xc6e00bf3, 0xd5a79147, 0x06ca6351, 0x14292967] ++
  [0x27b70a85, 0x2e1b2138, 0x4d2c6dfc, 0x53380d13, 0x650a7354, 0x766a0abb, 0x81c2c92e, 0x92722c85] ++
  [0xa2bfe8a1, 0xa81a664b, 0xc24b8b70, 0xc76c51a3, 0xd192e819, 0xd6990624, 0xf40e3585, 0x106aa070] ++
  [0x19a4c116, 0x1e376c08, 0x2748774c, 0x34b0bcb5, 0x391c0cb3, 0x4ed8aa4a, 0x5b9cca4f, 0x682e6ff3] ++
  [0x748f82ee, 0x78a5636f, 0x84c87814, 0x8cc70208, 0x90befffa, 0xa4506ceb, 0xbef9a3f7, 0xc67178f2]

/-- The initial hash value. -/
def shaInit : List (BitVec 32) :=
  [0x6a09e667, 0xbb67ae85, 0x3c6ef372, 0xa54ff53a, 0x510e527f, 0x9b05688c, 0x1f83d9ab, 0x5be0cd19]

/-- A right rotation of a word. -/
def rotr (x : BitVec 32) (n : Nat) : BitVec 32 := x.rotateRight n

/-- Extends the message schedule, newest word first. -/
def shaExtend : Nat → List (BitVec 32) → List (BitVec 32)
  | 0, ws => ws
  | k + 1, ws =>
    let a := nth 0 ws 1
    let b := nth 0 ws 14
    let s1 := rotr a 17 ^^^ rotr a 19 ^^^ (a >>> 10)
    let s0 := rotr b 7 ^^^ rotr b 18 ^^^ (b >>> 3)
    shaExtend k ((s1 + nth 0 ws 6 + s0 + nth 0 ws 15) :: ws)

/-- One round over the eight working variables. -/
def shaRound (h : List (BitVec 32)) (kw : BitVec 32 × BitVec 32) : List (BitVec 32) :=
  match h with
  | [a, b, c, d, e, f, g, i] =>
    let t1 := i + (rotr e 6 ^^^ rotr e 11 ^^^ rotr e 25) + ((e &&& f) ^^^ (~~~ e &&& g)) + kw.1 + kw.2
    let t2 := (rotr a 2 ^^^ rotr a 13 ^^^ rotr a 22) + ((a &&& b) ^^^ (a &&& c) ^^^ (b &&& c))
    [t1 + t2, a, b, c, d + t1, e, f, g]
  | _ => h

/-- One 64-byte block. -/
def shaBlock (h : List (BitVec 32)) (bs : List Byte) : List (BitVec 32) :=
  let ws := ((piecesOf 4 16 bs).map (fun p => BitVec.ofNat 32 (beVal p))).reverse
  List.zipWith (· + ·) h ((shaK.zip (shaExtend 48 ws).reverse).foldl shaRound h)

/-- SHA-256 of bytes. -/
def sha256 (bs : List Byte) : List Byte :=
  let n := bs.length
  let padded := bs ++ [0x80#8] ++ List.replicate ((119 - n % 64) % 64) 0#8 ++ beBytes 8 (8 * n)
  ((piecesOf 64 (n / 64 + 2) padded).foldl shaBlock shaInit).flatMap (fun w => beBytes 4 w.toNat)

/-! ## P-256 -/

def p256P : Nat := 0xffffffff00000001000000000000000000000000ffffffffffffffffffffffff
def p256N : Nat := 0xffffffff00000000ffffffffffffffffbce6faada7179e84f3b9cac2fc632551
def p256B : Nat := 0x5ac635d8aa3a93e7b3ebbd55769886bc651d06b0cc53b0f63bce3c3e27d2604b
def p256G : Nat × Nat :=
  (0x6b17d1f2e12c4247f8bce6e563a440f277037d812deb33a0f4a13945d898c296,
   0x4fe342e2fe1a7f9b8ee7eb4a7c0f9e162bce33576b315ececbb6406837bf51f5)

/-- b ^ e modulo m, over the low `k` bits of e. -/
def powMod (m : Nat) : Nat → Nat → Nat → Nat
  | 0, _, _ => 1 % m
  | k + 1, b, e =>
    let r := powMod m k (b * b % m) (e / 2)
    if e % 2 = 1 then r * b % m else r

/-- The inverse modulo a prime. -/
def invMod (m x : Nat) : Nat := powMod m 256 (x % m) (m - 2)

/-- x − y modulo the field prime. -/
def subP (x y : Nat) : Nat := (x + p256P - y % p256P) % p256P

/-- The third point of a line with slope l through x1, y1 and x2. -/
def chord (l x1 y1 x2 : Nat) : Nat × Nat :=
  let x := subP (subP (l * l % p256P) x1) x2
  (x, subP (l * subP x1 x % p256P) y1)

/-- Doubling; none is the point at infinity. -/
def ptDouble : Option (Nat × Nat) → Option (Nat × Nat)
  | none => none
  | some (x, y) =>
    if y = 0 then none
    else some (chord ((3 * x * x + (p256P - 3)) % p256P * invMod p256P (2 * y) % p256P) x y x)

/-- Addition of points. -/
def ptAdd : Option (Nat × Nat) → Option (Nat × Nat) → Option (Nat × Nat)
  | none, q => q
  | p, none => p
  | some (x1, y1), some (x2, y2) =>
    if x1 = x2 then (if y1 = y2 then ptDouble (some (x1, y1)) else none)
    else some (chord (subP y2 y1 * invMod p256P (subP x2 x1) % p256P) x1 y1 x2)

/-- k times a point, over the low `fuel` bits of k. -/
def ptMul : Nat → Nat → Option (Nat × Nat) → Option (Nat × Nat)
  | 0, _, _ => none
  | fuel + 1, k, p =>
    let r := ptMul fuel (k / 2) (ptDouble p)
    if k % 2 = 1 then ptAdd r p else r

/-- A point of the curve. -/
def onCurve (x y : Nat) : Bool :=
  decide (x < p256P ∧ y < p256P ∧ y * y % p256P = (x * x % p256P * x + (p256P - 3) * x + p256B) % p256P)

/-- The verification of a signature over a digest (R459 check 5). -/
def ecdsaOk (x y r s z : Nat) : Bool :=
  if !decide (1 ≤ r ∧ r < p256N ∧ 1 ≤ s ∧ s < p256N) || !onCurve x y then false
  else
    let w := invMod p256N s
    match ptAdd (ptMul 256 (z * w % p256N) (some p256G)) (ptMul 256 (r * w % p256N) (some (x, y))) with
    | none => false
    | some q => q.1 % p256N == r

end Sys2Proof.Machine
end

