-- ==== Sys2Proof/Machine/Blocks.lean ====
section
/-!
DEFINITION. The 66-bit blocks of a lane and its transmitter: scrambling (R95), markers and BIP (R97, R98), polarity
(R112), the transmit FIR (R103), pattern generators and error injection (R106).
-/

namespace Sys2Proof.Machine

/-- Base address of the LNE instance of a lane. -/
def lne (l : Nat) : Nat := 0x200000 + 0x4000 * l

/-- A performance event of a lane. -/
def lnePerf (l code n : Nat) (d : Dev) : Dev := perf 8 (lne l) code n d

/-- An uplink lane (R91). -/
def isUplink (l : Nat) : Bool := decide (l < 48)

/-! ## Coding -/

/-- One scrambled bit from the last 58 sent bits, newest in bit 0 (R95). -/
def scrambleBit (h : Nat) (x : Bool) : Bool := (x ^^ bit h 38) ^^ bit h 57

/-- The history after one more bit. -/
def pushBit (w h : Nat) (x : Bool) : Nat := (2 * h + b2n x) % 2 ^ w

/-- Scrambles payload bits in transmission order; the history holds the sent bits. -/
def scramble : Nat → List Bool → List Bool
  | _, [] => []
  | h, x :: xs => let s := scrambleBit h x; s :: scramble (pushBit 58 h s) xs

/-- Descrambles payload bits in transmission order; the history holds the received bits. -/
def descramble : Nat → List Bool → List Bool
  | _, [] => []
  | h, s :: xs => scrambleBit h s :: descramble (pushBit 58 h s) xs

/-- The payload bits of a block in transmission order (R94). -/
def payloadBits (b : Blk) : List Bool := (List.range 64).map (fun i => b.body.getLsbD i)

/-- The payload of these 64 bits in transmission order. -/
def bodyOf (xs : List Bool) : BitVec 64 := BitVec.ofNat 64 (xs.foldr (fun x v => 2 * v + b2n x) 0)

/-- The history after bits. -/
def pushBits (w : Nat) : Nat → List Bool → Nat
  | h, [] => h
  | h, x :: xs => pushBits w (pushBit w h x) xs

/-- The 66 transmitted bits of a block in order (R94). -/
def blockBits (b : Blk) : List Bool := [b.hdr.getLsbD 0, b.hdr.getLsbD 1] ++ payloadBits b

/-- The block of these 66 bits. -/
def blkOfBits (xs : List Bool) : Blk :=
  { hdr := BitVec.ofNat 2 (b2n (nth false xs 0) + 2 * b2n (nth false xs 1)), body := bodyOf (xs.drop 2) }

/-- BIP-8 of one block: bit i is the even parity of the positions j with j mod 8 = i (R98). -/
def bipOf (b : Blk) : Nat :=
  (List.range 9).foldl (fun v k => v ^^^ bits (b.hdr.toNat + 4 * b.body.toNat) (8 * k) 8) 0

/-- BIP-8 over blocks (R98). -/
def bipAll (bs : List Blk) : Nat := bs.foldl (fun v b => v ^^^ bipOf b) 0

/-- The number of ones among the low 8 bits. -/
def ones8 (v : Nat) : Nat := ((List.range 8).filter (bit v)).length

/-- A block as it passes the ball of a lane with inverted polarity, or not (R112). -/
def polarity (inv : Bool) (b : Blk) : Blk := if inv then { hdr := ~~~b.hdr, body := ~~~b.body } else b

/-- The alignment marker of R97. -/
def markerBlk (lane count bip : Nat) : Blk :=
  { hdr := 2#2
    body := BitVec.ofNat 64 (leVal (leBytes 1 0xa5 ++ leBytes 1 lane ++ leBytes 2 count ++ leBytes 1 bip ++ leBytes 1 (255 - bip)
      ++ leBytes 1 (255 - lane) ++ leBytes 1 0x5a)) }

/-- The idle block of R114. -/
def idleBlk : Blk := { hdr := 2#2, body := 0x1e#64 }

/-- The two taps of a pattern, by the codes of `PAT_CTL.PMA_GEN` (R106). -/
def prbsTaps (kind : Nat) : Nat × Nat := if kind = 1 then (5, 6) else if kind = 2 then (13, 14) else (27, 30)

/-- The next bit of a pattern from its last 31 bits, newest in bit 0. -/
def prbsNext (kind h : Nat) : Bool := bit h (prbsTaps kind).1 ^^ bit h (prbsTaps kind).2

/-- The next `n` bits of a pattern, and its history after them. -/
def prbsRun (kind : Nat) : Nat → Nat → List Bool × Nat
  | 0, h => ([], h)
  | n + 1, h =>
    let x := prbsNext kind h
    let r := prbsRun kind n (pushBit 31 h x)
    (x :: r.1, r.2)

/-! ## The transmitter -/

/-- The FIR setting that the device applies: MAIN at least 24, and no more than PRE and POST leave of 63 (R103). -/
def Dev.firOf (d : Dev) (l : Nat) : Nat × Nat × Nat :=
  let pre := d.get (R.LNE.TXFIR.PRE l)
  let post := d.get (R.LNE.TXFIR.POST l)
  let main := max 24 (d.get (R.LNE.TXFIR.MAIN l))
  (pre, if 63 < pre + main + post then 63 - pre - post else main, post)

/-- The transmitter's output goes to the lane's own receiver, and the ball gets nothing (R106). -/
def Dev.looped (d : Dev) (l : Nat) : Bool := d.get (R.LNE.CTL.LPBK l) == 1 || d.get (R.LNE.CTL.LPBK l) == 2

/-- The transmitter of a lane takes a new state. -/
def setTx (l : Nat) (t : TxS) (d : Dev) : Dev := setLane l { d.laneS l with tx := t } d

/-- A block leaves a lane. A FIR setting takes effect at the block's boundary (R103); polarity acts at the ball, behind
the near-end loopbacks (R112; the manual does not place it against them, log entry 80). -/
def txLeave (l : Nat) (b : Blk) (d : Dev) : Dev :=
  let t := (d.laneS l).tx
  lnePerf l 0xa 1 (setTx l { t with
    fir := d.firOf l
    line := if d.looped l then t.line else polarity (d.on (R.LNE.CTL.TX_INV l)) b :: t.line } d)

/-- One injected error in a block: one payload bit, which bit is free, or an invalid header (R106, R112). -/
def injectInto (free k : Nat) (b : Blk) : Blk :=
  if k = 1 then { b with body := b.body ^^^ BitVec.ofNat 64 (2 ^ (free % 64)) } else if k = 2 then { b with hdr := 3#2 } else b

/-- A coded block takes the errors that wait for a block, and leaves. Its BIP is that of the block before the errors (log
entry 80). -/
def txCoded (l : Nat) (b : Blk) (d : Dev) : Blk × Dev :=
  let t := (d.laneS l).tx
  let ks := t.inj.filter (fun k => k == 1 || k == 2)
  let sent := ks.foldl (fun x k => injectInto d.fresh k x) b
  let d := when (ks.contains 1) takeFree d
  (sent, txLeave l sent (setTx l { t with since := t.since + 1, bip := t.bip ^^^ bipOf b, inj := t.inj.filter (fun k => k != 1 && k != 2) } d))

/-- A block of the stream is scrambled and leaves (R95). -/
def txBlock (l : Nat) (b : Blk) (d : Dev) : Blk × Dev :=
  let t := (d.laneS l).tx
  let xs := scramble t.scr (payloadBits b)
  txCoded l { b with body := bodyOf xs } (setTx l { t with scr := pushBits 58 t.scr xs } d)

/-- The marker of the running period leaves as the 16,384th block, unless an injected error omits it or inverts its BIP
(R97, R106). The scrambler does not advance over it (R95). -/
def txMarker (l : Nat) (d : Dev) : Option Blk × Dev :=
  let t := (d.laneS l).tx
  let t' : TxS := { t with since := 0, bip := 0, count := (t.count + 1) % 65536, inj := t.inj.filter (fun k => k != 3 && k != 4) }
  if t.inj.contains 4 then (none, setTx l t' d)
  else
    let m := markerBlk (if isUplink l then l % 4 else 0) t.count (if t.inj.contains 3 then 255 - t.bip else t.bip)
    (some m, txLeave l m (setTx l t' d))

/-- The next slot of the lane is the marker's (R97). -/
def Dev.markerDue (d : Dev) (l : Nat) : Bool := decide (16383 ≤ (d.laneS l).tx.since)

/-- A block of the stream leaves, behind the marker whose slot comes first. -/
def txStream (l : Nat) (b : Blk) (d : Dev) : Dev := (txBlock l b (if d.markerDue l then (txMarker l d).2 else d)).2

/-- The block that a lane sends of its own: the PCS generator's, else an idle block (R106, R114). -/
def txSource (l : Nat) (d : Dev) : Blk × Dev :=
  let t := (d.laneS l).tx
  let g := d.get (R.LNE.PAT_CTL.PCS_GEN l)
  if g = 2 then ({ hdr := 1#2, body := 0#64 }, d)
  else if g = 3 then
    let r := prbsRun 3 64 t.gen
    ({ hdr := 1#2, body := bodyOf r.1 }, setTx l { t with gen := r.2 } d)
  else (idleBlk, d)

/-- What the lane sends in its next block slot: the PMA generator's bits where it drives the lane, the marker in its slot,
else the lane's own block (R97, R106). -/
def txSlot (l : Nat) (d : Dev) : Blk × Dev :=
  let g := d.get (R.LNE.PAT_CTL.PMA_GEN l)
  if g ≠ 0 then
    let t := (d.laneS l).tx
    let r := prbsRun g 66 t.gen
    (blkOfBits r.1, txLeave l (blkOfBits r.1) (setTx l { t with gen := r.2 } d))
  else
    let own := fun (d : Dev) => let s := txSource l d; txBlock l s.1 s.2
    if d.markerDue l then
      match txMarker l d with
      | (some m, d) => (m, d)
      | (none, d) => own d
    else own d

/-- Injects the selected error into what the lane transmits (R106): it waits for the next block, or the next marker. -/
def inject (l : Nat) (d : Dev) : Dev :=
  let k := d.get (R.LNE.INJ.KIND l)
  if k = 0 then d
  else
    let t := (d.laneS l).tx
    lnePerf l 0xb 1 (emit (.downInj l k) (setTx l { t with inj := k :: t.inj } d))

/-- The lane transmits: it is enabled, its quad PLL is locked, and it is a downlink or under test (R104). -/
def Dev.transmits (d : Dev) (l : Nat) : Bool :=
  d.on (R.LNE.CTL.EN l) && flag d.quadLock (l / 4) && (!isUplink l || d.get (R.LNE.STATUS.STATE l) == 8)

end Sys2Proof.Machine
end

