-- ==== Sys2Proof/Machine/Taps.lean ====
section
/-!
DEFINITION. Taps (R191 to R193, R223, R237): the tap lines that go to a DMA channel and those that go to the
recorder's input.
-/

namespace Sys2Proof.Machine

def Dev.lthS (d : Dev) (n : Nat) : LthS := KMap.get (fun _ => {}) d.lth n
def setLth (n : Nat) (x : LthS) (d : Dev) : Dev := { d with lth := KMap.put (fun _ => {}) d.lth n x }
def LthS.ctxS (x : LthS) (c : Nat) : LthCtx := KMap.get (fun _ => {}) x.ctx c
def setCtx (n c : Nat) (k : LthCtx) (d : Dev) : Dev :=
  setLth n { d.lthS n with ctx := KMap.put (fun _ => {}) (d.lthS n).ctx c k } d

/-- Base address of a lathe's instance. -/
def lthBase (n : Nat) : Nat := 0x400000 + 0x80000 * n

/-- Bytes padded with zeros to a multiple of 64. -/
def pad64 (bs : List Byte) : List Byte := bs ++ List.replicate ((64 - bs.length % 64) % 64) 0#8

/-- The tap lines in a DMA channel's slices. -/
def Dev.streamQ (d : Dev) (ch : Nat) : List (List Byte) := KMap.get (fun _ => []) d.stream ch

/-- The slices of the DMA buffer that an owner holds (R382). -/
def Dev.slicesOf (d : Dev) (owner : Nat) : Nat := ((List.range 16).filter (fun i => d.holder 4 i == some owner)).length

/-- A channel is enabled. -/
def Dev.chOn (d : Dev) (ch : Nat) : Bool := d.on R.DMA.CTL.EN && d.on (R.DMA.CH_CTL.EN ch)

/-- `BUF` shows the slices in use (R401). -/
def showBuf (d : Dev) : Dev :=
  put R.DMA.BUF.USED (min 16 (sumNat (d.stream.map (fun e => cdiv (sumNat (e.2.map List.length)) 16384)))) d

/-- A tap line finds room in a channel's slices (R382, R384). DESIGN CHOICE (log entry 21): an empty channel that
has a slice takes any line as it forms; else the lines waiting and the new one fit in its slices. -/
def Dev.streamRoom (d : Dev) (ch n : Nat) : Bool :=
  let k := min (d.get (R.DMA.CH_CTL.QUOTA ch) + 1) (d.slicesOf 13)
  d.chOn ch && decide (0 < k)
    && ((d.streamQ ch).isEmpty || decide (sumNat ((d.streamQ ch).map List.length) + n ≤ k * 16384))

/-- A tap line enters a DMA channel. -/
def streamPut (ch : Nat) (bs : List Byte) (d : Dev) : Dev :=
  showBuf { d with stream := KMap.put (fun _ => []) d.stream ch (d.streamQ ch ++ [bs]) }

/-- The recorder runs and takes tap `t` (R413). -/
def Dev.recTakes (d : Dev) (t : Nat) : Bool :=
  d.on R.CMP.CTL.EN && d.get R.CMP.STATUS.STATE != 0 && d.get R.TOP.PROFILE_ACT.REC_TAP == t

/-- A tap line reaches the recorder's input. -/
def recPut (l : TapLine) (d : Dev) : Dev := { d with recQ := d.recQ ++ [l] }

/-- A lathe drops a tap line (R192). -/
def tapDrop (n : Nat) (d : Dev) : Dev :=
  perf 10 (lthBase n) 0xe 1 (inc (R.LTH.TAP_DROPS.COUNT n) 1 (event 10 (R.LTH.STATUS.SEQ n) [R.LTH.STATUS.TAP_DROP n] d))

/-- A tap line of a lathe in the form of R193. -/
def tapBytes (l : CamLine) (en n t ctx bin first seq : Nat) (planes : List (List Nat)) : List Byte :=
  let h := leBytes 4 l.lsn ++ leBytes 2 l.flags ++ leBytes 1 en ++ leBytes 1 l.port ++ leBytes 8 l.dtExp ++ leBytes 8 l.dtDone
    ++ (List.range 4).flatMap (fun q => leBytes 2 (nth [] planes q).length)
    ++ (List.range 4).flatMap (fun q => leBytes 1 (nth 0 l.pflags q)) ++ leBytes 4 seq
    ++ leBytes 1 t ++ leBytes 1 n ++ leBytes 1 ctx ++ leBytes 1 bin ++ leBytes 2 first ++ List.replicate 14 0#8
  pad64 (h ++ leBytes 4 (crc32c h) ++ planes.flatMap (fun xs => xs.flatMap (leBytes 2)))

/-- One tap of a lathe's line: the recorder's path and the DMA path (R191, R192). `ctx` is 3 for a line of a
ROUTE 0x2 port. `firsts` are the columns of sample 0 of each slot. -/
def lathTap (n ctx t : Nat) (l : CamLine) (en bin first : Nat) (firsts : List Nat) (planes : List (List Nat)) (d : Dev) : Dev :=
  let d :=
    if d.recTakes t then
      let x := d.lthS n
      let line : TapLine :=
        { tap := t, src := l.port, lathe := n, lsn := l.lsn, dtExp := l.dtExp, flags := l.flags
          pieces := ((List.range 4).filter (fun q => bit en q)).map (fun q =>
            { plane := q, first := nth 0 firsts q, pflag := nth 0 l.pflags q, samples := nth [] planes q }) }
      recPut line (setLth n { x with tapRec := (x.tapRec + 1) % 2 ^ 32 } d)
    else d
  if d.on (R.LTH.TAP_CTL.EN n) && d.get (R.LTH.TAP_CTL.TAP n) == t && (ctx == 3 || bit (d.get (R.LTH.TAP_CTL.CTX n)) ctx) then
    let k := (d.lthS n).ctxS ctx
    if k.tapN < d.get (R.LTH.TAP_CTL.DECIM n) then setCtx n ctx { k with tapN := k.tapN + 1 } d
    else
      let d := setCtx n ctx { k with tapN := 0 } d
      let x := d.lthS n
      let bs := tapBytes l en n t (if ctx = 3 then 0xff else ctx) bin first x.tapDma planes
      let d := setLth n { x with tapDma := (x.tapDma + 1) % 2 ^ 32 } d
      let ch := d.get (R.LTH.TAP_CTL.DMA_CH n)
      if d.streamRoom ch bs.length then streamPut ch bs d else tapDrop n d
  else d

/-- Enabled plane slots of a port as bits (R163). -/
def Dev.planesOn (d : Dev) (p : Nat) : Nat :=
  (List.range 4).foldl (fun m q => if d.on (R.EKL.PLANE_CTL.EN p q) then m + 2 ^ q else m) 0

/-- A line of a port with ROUTE 0x2 goes to the tap path of the lathe that HOME names, as T0 (R191). -/
def rawTap (p : Nat) (l : CamLine) (d : Dev) : Dev :=
  lathTap (d.get (R.EKL.CTL.HOME p)) 3 0 l (d.planesOn p) 0 0 [0, 0, 0, 0] l.planes d

end Sys2Proof.Machine
end

