-- ==== Sys2Proof/Machine/Link.lean ====
section
/-!
DEFINITION. What lanes, camera ports and the Spindle share: downlink messages (R127, R128), forwarding of
camera lines (R152 to R155, R162), lane states (R104) and the down event of a port (R160).
-/

namespace Sys2Proof.Machine

/-- Base address of the EKL instance of a port. -/
def ekl (p : Nat) : Nat := 0x300000 + 0x10000 * p

/-- A statistics counter and a performance event of a port. -/
def eklStat (p c n : Nat) (d : Dev) : Dev := inc (R.EKL.STAT.COUNT p c) n d
def eklPerf (p code n : Nat) (d : Dev) : Dev := perf 9 (ekl p) code n d

/-- The downlink of a port carries messages: its lane is UP and does not resend lane 4p (R104, R106), the port is not HELD
(R159), and the device is not in STANDBY (R105). -/
def Dev.downlinkUp (d : Dev) (p : Nat) : Bool :=
  d.get (R.LNE.STATUS.STATE (48 + p)) == 6 && d.get (R.LNE.CTL.LPBK (4 * p)) != 3 && d.get (R.EKL.STATUS.STATE p) != 5
    && d.get R.PWR.STATUS.STATE != 3

/-- The 24 bytes of a downlink message (R127). -/
def message (code mseq : Nat) (body : List Byte) : List Byte :=
  let h := [0x2d#8, BitVec.ofNat 8 code, BitVec.ofNat 8 mseq, 0#8] ++ (body ++ List.replicate 16 0#8).take 16 ++ [0#8, 0#8]
  h ++ leBytes 2 (crc16 h)

/-- The three blocks of a message: a MSG control block and two data blocks (R127). -/
def msgBlocks (m : List Byte) : List Blk :=
  [(2#2, 0), (1#2, 8), (1#2, 16)].map (fun x => { hdr := x.1, body := BitVec.ofNat 64 (leVal ((m.drop x.2).take 8)) })

/-- Sends a message on the downlink of a port while that downlink transmits; MSEQ counts on (R127). The three blocks leave
in one clock, so that no TRIGGER begins between the blocks of another message (R129; log entry 80). -/
def sendMsg (p code : Nat) (body : List Byte) (d : Dev) : Dev :=
  if d.downlinkUp p then
    let s := d.portS p
    let m := message code s.mseq body
    setPort p { s with mseq := (s.mseq + 1) % 256 } (emit (.downlink p m) (each (txStream (48 + p)) (msgBlocks m) d))
  else d

/-! ## Lanes -/

/-- Puts an uplink lane in a phase of R104; a REMOVED or TEST lane keeps showing its state. -/
def lanePhase (l ph : Nat) (d : Dev) : Dev :=
  let d := setLane l { d.laneS l with phase := ph } d
  let st := d.get (R.LNE.STATUS.STATE l)
  if st = 7 ∨ st = 8 then d else put (R.LNE.STATUS.STATE l) ph d

/-- Returns an uplink lane to WAIT: it looks for signal, CDR and block lock again (R104, R105). -/
def laneToWait (l : Nat) (d : Dev) : Dev :=
  let s := d.laneS l
  let d := setLane l
    { s with signal := false, run := 0, window := [], blockLock := false, amLock := false,
             lastAm := none, amSlot := none, skipBip := true, missed := 0, badPeriods := 0, aligned := false, train := {},
             loss := none, lossCause := 0, cleanSince := none, eligible := false, restoring := false } d
  let d := put (R.LNE.PAT_STATUS.LOCK l) (b2n (s.chkLock && d.get (R.LNE.PAT_CTL.PMA_CHK l) != 0)) d
  lanePhase l (if d.on (R.LNE.CTL.EN l) && d.get (R.LNE.STATUS.STATE l) != 8 then 1 else 0) d

/-- Uplink lanes of a port by physical index. -/
def lanesOf (p : Nat) : List Nat := [4 * p, 4 * p + 1, 4 * p + 2, 4 * p + 3]

/-- The port of an uplink lane. -/
def portOf (l : Nat) : Nat := l / 4

/-- The logical index of an uplink lane: the LANE of its markers (R100). DESIGN CHOICE (log entry 25): before its first
marker, its place in the port, as the balls are wired when no lanes are crossed. -/
def Dev.logical (d : Dev) (l : Nat) : Nat :=
  match (d.laneS l).lastAm with
  | some (_, k) => k
  | none => l % 4

/-- The lanes of a port that carry a logical lane named in LANES (R137, R166). -/
def Dev.named (d : Dev) (p : Nat) : List Nat :=
  (lanesOf p).filter (fun l => d.on (R.LNE.CTL.EN l) && bit (d.get (R.EKL.CTL.LANES p)) (d.logical l))

/-- Every logical lane named in LANES has an aligned lane (R137 step 8). -/
def Dev.allAligned (d : Dev) (p : Nat) : Bool :=
  (List.range 4).all (fun k => !bit (d.get (R.EKL.CTL.LANES p)) k
    || (lanesOf p).any (fun l => (d.laneS l).aligned && d.logical l == k))

/-- The mask of the port's UP lanes, by logical index (R108, R137); a lane that was restored counts from the block boundary
on that sends the mask (R111). -/
def Dev.upMask (d : Dev) (p : Nat) : Nat :=
  (lanesOf p).foldl (fun m l =>
    if d.get (R.LNE.STATUS.STATE l) = 6 ∧ (d.laneS l).restoring = false then m ||| 2 ^ d.get (R.LNE.ALIGN.LOGICAL l) else m) 0

/-- Sends LANE_MASK and remembers it until its MASK_MARK row (R142, R143). -/
def sendMask (p mask : Nat) (d : Dev) : Dev :=
  let ms := (d.portS p).mseq
  let up := d.downlinkUp p
  let d := sendMsg p 7 [BitVec.ofNat 8 mask] d
  when up (fun d => setPort p { d.portS p with maskSent := (d.portS p).maskSent ++ [(mask, ms)] } d) d

/-- The port is linked up: LOCKING, WAIT_BLOCK or RUN (R159). -/
def Dev.linked (d : Dev) (p : Nat) : Bool := decide (2 ≤ d.get (R.EKL.STATUS.STATE p) ∧ d.get (R.EKL.STATUS.STATE p) ≤ 4)

/-- The port's next block boundary after a restore sends the widened mask (R111). -/
def maskAtBoundary (p : Nat) (d : Dev) : Dev :=
  if (d.portS p).maskDue then
    let d := setPort p { d.portS p with maskDue := false } d
    let d := each (fun l d => setLane l { d.laneS l with restoring := false } d) (lanesOf p) d
    when (d.linked p) (sendMask p (d.upMask p)) d
  else d

/-! ## Lines leaving a port -/

/-- Background-filled pixels of an enabled slot (R152): the first piece that covers a pixel gives it. -/
def planePixel (bg : Nat) (segs : List (Nat × List Nat)) (i : Nat) : Nat :=
  match segs with
  | [] => bg
  | (o, xs) :: rest => if o ≤ i ∧ i < o + xs.length then nth bg xs (i - o) else planePixel bg rest i

/-- A pixel has been received. -/
def planeHas (segs : List (Nat × List Nat)) (i : Nat) : Bool :=
  segs.any (fun s => decide (s.1 ≤ i ∧ i < s.1 + s.2.length))

/-- The accumulator of a slot of a line. -/
def LineRec.plane (r : LineRec) (q : Nat) : PlaneAcc := KMap.get (fun _ => {}) r.planes q

/-- Enabled plane slots of a port (R146). -/
def Dev.slots (d : Dev) (p : Nat) : List Nat := (List.range 4).filter (fun q => d.on (R.EKL.PLANE_CTL.EN p q))

/-- A slot of a line got no packet (R154). -/
def planeAbsent (r : LineRec) (q : Nat) : Bool := (r.plane q).segs.isEmpty && !(r.plane q).closed

/-- A slot of a line that got a packet is short: pixels are missing, a packet was truncated, or the line was closed without
its EOL (R152, R154). -/
def planeShort (d : Dev) (p : Nat) (r : LineRec) (q : Nat) : Bool :=
  let a := r.plane q
  !planeAbsent r q
    && (a.short || !a.closed || (List.range (d.get (R.EKL.PLANE_CTL.WIDTH p q))).any (fun i => !planeHas a.segs i))

/-- The plane-flag byte of a slot (R153). -/
def planeFlags (d : Dev) (p : Nat) (r : LineRec) (q : Nat) : Nat :=
  let a := r.plane q
  b2n (planeAbsent r q) + 2 * b2n (planeShort d p r q) + 4 * b2n a.long + 8 * b2n a.crc

/-- Background value of a plane slot for a line: that of the line's own block (R37, R147). -/
def LineRec.bgOf (d : Dev) (p q : Nat) (r : LineRec) : Nat := nth (d.get (R.EKL.PLANE_BG.VALUE p q)) r.bg q

/-- Background value for an issued line of a port by its LSN. -/
def Dev.lineBg (d : Dev) (p lsn q : Nat) : Nat :=
  match (d.portS p).lines.find? (fun r => r.lsn == lsn) with
  | some r => r.bgOf d p q
  | none => d.get (R.EKL.PLANE_BG.VALUE p q)

/-- The line flags of a line with samples (R153). -/
def lineFlags (d : Dev) (p : Nat) (r : LineRec) : Nat :=
  let qs := d.slots p
  r.flags ||| (2 * b2n (qs.any (fun q => planeShort d p r q || planeAbsent r q)))
    ||| (4 * b2n (qs.any (fun q => (r.plane q).long))) ||| (8 * b2n (qs.any (fun q => (r.plane q).crc)))

/-- The camera line made of an issued line's samples (R152, R153). -/
def buildLine (d : Dev) (p : Nat) (r : LineRec) : CamLine :=
  { port := p, lsn := r.lsn, e := r.e, flags := lineFlags d p r
    pflags := (List.range 4).map (fun q => if d.on (R.EKL.PLANE_CTL.EN p q) then planeFlags d p r q else 0)
    dtExp := r.dtExp.getD r.e, dtDone := d.dt, token := false
    planes := (List.range 4).map (fun q =>
      if d.on (R.EKL.PLANE_CTL.EN p q) then
        (List.range (d.get (R.EKL.PLANE_CTL.WIDTH p q))).map
          (planePixel (r.bgOf d p q) (r.plane q).segs)
      else []) }

/-- A missing-line token (R155). -/
def tokenLine (p lsn e : Nat) (d : Dev) : CamLine :=
  { port := p, lsn, e, flags := 1, pflags := [0, 0, 0, 0], dtExp := e, dtDone := d.dt, token := true, planes := [[], [], [], []] }

/-- A line or token enters the ones that wait, which go on in line order (R155, R163). -/
def lineIn (l : CamLine) : List CamLine → List CamLine
  | [] => [l]
  | x :: xs => if lsnDiff l.lsn x.lsn < 0 then l :: x :: xs else x :: lineIn l xs

/-- Hands a line to the place that the route in force names (R162), and counts it (R166). -/
def forwardLine (p : Nat) (l : CamLine) (d : Dev) : Dev :=
  let d := put (R.EKL.LAST_DT.DT p) l.dtDone (put (R.EKL.LAST_LSN.LSN p) l.lsn d)
  let d :=
    if l.token then eklPerf p 3 1 d
    else
      let d := eklStat p 0 1 d
      let d := when (bit l.flags 1) (fun d => eklPerf p 4 1 (eklStat p 2 1 d)) d
      let d := when (bit l.flags 2) (fun d => eklPerf p 5 1 (eklStat p 3 1 d)) d
      when (bit l.flags 6) (fun d => eklPerf p 0x10 1 (eklStat p 12 1 d)) d
  let s := d.portS p
  if s.loseLsn = some l.lsn then setPort p { s with loseLsn := none } d
  else if s.moved || d.get (R.EKL.STATUS.ROUTE_ACT p) == 1 then setPort p { s with ringOut := lineIn l s.ringOut } d
  else if d.get (R.EKL.STATUS.ROUTE_ACT p) = 0 then
    let h := d.get (R.EKL.CTL.HOME p)
    { d with homeQ := KMap.put (fun _ => []) d.homeQ h (lineIn l (KMap.get (fun _ => []) d.homeQ h)) }
  else rawTap p l d

/-- Keeps the last 64 issued lines of a port and every open one (R149). -/
def keepLines (ls : List LineRec) : List LineRec := ls.take 64 ++ (ls.drop 64).filter (fun r => r.st == .isOpen)

/-- The issued line with this LSN takes a new record. -/
def setLine (p : Nat) (r : LineRec) (d : Dev) : Dev :=
  let s := d.portS p
  setPort p { s with lines := s.lines.map (fun x => if x.lsn = r.lsn then r else x) } d

/-- Samples of a line that the camera sent and that it lacks (R167). -/
def fillCount (d : Dev) (p : Nat) (r : LineRec) : Nat :=
  sumNat ((d.slots p).map (fun q =>
    ((List.range (d.get (R.EKL.PLANE_CTL.WIDTH p q))).filter (fun i => !planeHas (r.plane q).segs i)).length))

/-- Closes an issued line and forwards it with its samples (R152, R154); a line whose every slot is closed is forwarded
complete (R167). -/
def closeLine (p : Nat) (r : LineRec) (d : Dev) : Dev :=
  let line := buildLine d p r
  let fill := fillCount d p r
  let all := sumNat (line.planes.map List.length)
  let d := when ((d.slots p).all (fun q => (r.plane q).closed)) (eklPerf p 2 1) d
  let d := setLine p { r with st := .isComplete, eols := (d.slots p).filter (fun q => (r.plane q).eol) } d
  forwardLine p line (slot 9 (ekl p) 1 fill (slot 9 (ekl p) 0 (all - fill) d))

/-- Declares an issued line missing and forwards its token (R154, R155). -/
def missLine (p : Nat) (r : LineRec) (d : Dev) : Dev :=
  let d := setLine p { r with st := .isMissing } d
  let d := when (d.get (R.EKL.STATUS.STATE p) == 4) (eklStat p 1 1) d
  let d := setPort p { d.portS p with missCount := (d.portS p).missCount + 1 } d
  forwardLine p (tokenLine p r.lsn r.e d) d

/-- A line has received at least one sample (R154). -/
def LineRec.hasSample (r : LineRec) : Bool := r.planes.any (fun e => e.2.segs.any (fun s => !s.2.isEmpty))

/-- Puts a port in a state of R159. -/
def portState (p st : Nat) (d : Dev) : Dev := put (R.EKL.STATUS.STATE p) st d

/-- Returns a lane of a port that links up anew to WAIT, also one that was REMOVED (R160). -/
def laneAnew (l : Nat) (d : Dev) : Dev :=
  let d := laneToWait l d
  let d := setLane l { d.laneS l with commanded := false } d
  when (d.get (R.LNE.STATUS.STATE l) == 7) (put (R.LNE.STATUS.STATE l) (d.laneS l).phase) d

/-- Enters LINKING: the lanes of the port return to WAIT and link-up starts anew (R159, R160). -/
def enterLinking (p : Nat) (d : Dev) : Dev :=
  let d := each laneAnew (lanesOf p) d
  let s := d.portS p
  let d := setPort p { s with signalAt := none, pkt := none, mask := 0, maskSent := [], maskDue := false, echo := none, echoAt := none
                              timeAt := none, mseq := 0, releasing := false } d
  portState p 1 d

/-- An outstanding register request of a window ends with TIMEOUT (R165). -/
def cregTimeout (p w : Nat) (d : Dev) : Dev :=
  let s := d.portS p
  let d := setPort p { s with creg := KMap.put (fun _ => none) s.creg w none } d
  let d := put (R.EKL.CREG_STATUS.BUSY p w) 0 d
  eklPerf p 0xf 1 (event 9 (R.EKL.CREG_STATUS.SEQ p w) [R.EKL.CREG_STATUS.TIMEOUT p w] d)

/-- Forwards the line in progress and declares every other open line missing, oldest first (R160). -/
def dropLines (p : Nat) (d : Dev) : Dev :=
  let opens := ((d.portS p).lines.filter (fun r => r.st == .isOpen)).reverse
  let prog := (opens.find? LineRec.hasSample).map LineRec.lsn
  each (fun r d => if prog = some r.lsn then closeLine p r d else missLine p r d) opens d

/-- A port goes down with a cause of R157 (R160). -/
def downEvent (p cause : Nat) (d : Dev) : Dev :=
  let held := d.get (R.EKL.STATUS.STATE p) == 5
  let d := put (R.EKL.DOWN_CAUSE.CAUSE p) cause d
  let d := eklPerf p 0x11 1 (event 9 (R.EKL.STATUS.SEQ p) [R.EKL.STATUS.DOWN p] d)
  let d := dropLines p d
  let d := each (fun w d => if (KMap.get (fun _ => (none : Option (Nat × Nat))) (d.portS p).creg w).isSome then cregTimeout p w d else d) [0, 1] d
  let d := when (!held) (sendMsg p 10 [1#8]) d
  if d.on (R.EKL.CTL.AUTO_RELINK p) ∨ cause = 5 then enterLinking p (eklStat p 15 1 d)
  else portState p 5 (setPort p { d.portS p with pkt := none, echo := none } d)

/-- A lane at step 8 of R137: UP when it is aligned; else REMOVED, unless an aligned lane carries its logical index. -/
def joinLane (l : Nat) (d : Dev) : Dev :=
  if (d.laneS l).aligned then put (R.LNE.STATUS.STATE l) 6 (setLane l { d.laneS l with phase := 6 } d)
  else if (lanesOf (portOf l)).any (fun k => (d.laneS k).aligned && d.logical k == d.logical l) then d
  else lnePerf l 7 1 (event 8 (R.LNE.STATUS.SEQ l) [R.LNE.STATUS.REMOVED l]
    (put (R.LNE.STATUS.STATE l) 7 (setLane l { d.laneS l with commanded := false } d)))

/-- Step 8 of R137: LINK_STATE run, LANE_MASK with the aligned lanes, the others REMOVED, the port to LOCKING. The port reads
rows from the MASK_MARK row of that mask on (R142, R143). -/
def linkUp (p : Nat) (d : Dev) : Dev :=
  let d := each joinLane (d.named p) d
  let d := sendMask p (d.upMask p) (sendMsg p 10 [0#8] d)
  portState p 2 (setPort p { d.portS p with linkedOnce := true, mask := 0, pseq := 0 } d)

end Sys2Proof.Machine
end

