-- ==== Sys2Proof/Machine/Arrive.lean ====
section
/-!
DEFINITION. Time passes: Device Time moves to a later value (R60, R61), and on its way every issued line reaches its
exposure time E, where it reaches the ports of its generator (R37, R67, R155, R156, R159) and the composite (R69,
R327).
-/

namespace Sys2Proof.Machine

def timPerf (code n : Nat) (d : Dev) : Dev := perf 7 0x100000 code n d

/-! ## What a line does at its exposure time -/

/-- The block watchdog at a port block boundary (R156). -/
def blockWatchdog (p : Nat) (d : Dev) : Dev :=
  let s := d.portS p
  let over' := decide (d.get (R.EKL.BLOCK.MISS_MAX p) < s.missCount)
  let d := setPort p { s with missCount := 0 } d
  if over' then
    let d := logEv 0x0901 p 2 s.missCount (event 9 (R.EKL.STATUS.SEQ p) [R.EKL.STATUS.BLK_FAULT p] d)
    if d.on (R.EKL.CTL.BLK_DOWN p) && decide (1 ≤ d.get (R.EKL.STATUS.STATE p) ∧ d.get (R.EKL.STATUS.STATE p) ≤ 4) then downEvent p 2 d else d
  else d

/-- The LSN of the next composite line to be formed. -/
def Dev.nextForm (d : Dev) : Nat :=
  match d.fus.issued, d.tim.coming.find? (fun c => c.g == 0) with
  | (n, _) :: _, _ => n
  | [], some c => c.lsn
  | [], none => if (d.tgS 0).issued then (d.get (R.TIM.TG_LSN.LSN 0) + 1) % 2 ^ 32 else 0

/-- The first LSN of the batch that a batch event has made due: that of the next composite block (R68). -/
def Dev.nextBatch (d : Dev) : Option Nat :=
  if d.tim.batchPending then some ((d.nextForm + (if d.atBoundary then 0 else d.compBlock - d.fus.blk)) % 2 ^ 32) else none

/-- A line of the composite's numbering belongs to the batch that is due. -/
def Dev.inNextBatch (d : Dev) (lsn : Nat) : Bool :=
  match d.nextBatch with
  | some l => decide (0 ≤ lsnDiff lsn l)
  | none => false

/-- The first line of a batch reaches a port, which applies its pending BATCH fields (R37). -/
def portBatch (g p lsn : Nat) (d : Dev) : Dev :=
  when (g == 0 && d.inNextBatch lsn) (applyPend (inRange (ekl p) 0x10000 .batch)) d

/-- A port block boundary: the watchdog, the pending BLOCK fields, a route change, the mask of a restore, and the release of
a waiting port, which a down event of the watchdog prevents (R37, R111, R156, R159, R161, R162). -/
def portBoundary (p : Nat) (first : Bool) (d : Dev) : Dev :=
  let d := if first then setPort p { d.portS p with missCount := 0 } d else blockWatchdog p d
  let d := applyPend (inRange (ekl p) 0x10000 .block) d
  let d := match (d.portS p).routeNext with
    | some r => put (R.EKL.STATUS.ROUTE_ACT p) r (setPort p { d.portS p with routeNext := none, moved := false } d)
    | none => d
  let d := maskAtBoundary p d
  if d.get (R.EKL.STATUS.STATE p) = 3 then event 9 (R.EKL.STATUS.SEQ p) [R.EKL.STATUS.UP p] (portState p 4 d) else d

/-- The line that a replay job gives in place of a token takes the LSN and E of the issued line (R422). -/
def replayFor (lsn e : Nat) (l : CamLine) : CamLine := { l with lsn, e, dtExp := e }

/-- A port that is not in RUN forwards a token for an issued line, or a replay line while a replay job runs
(R155, R422). -/
def standIn (p lsn e : Nat) (d : Dev) : Dev :=
  let s := d.portS p
  if (s.replayOn || !s.replay.isEmpty) && d.get (R.EKL.STATUS.STATE p) == 5 then
    match s.replay with
    | l :: rest =>
      forwardLine p { replayFor lsn e l with dtDone := d.dt }
        (eklPerf p 2 1 <| perf 0x15 0x1d80000 0xa 1 (inc (R.CMP.STAT.COUNT 10) 1 (setPort p { s with replay := rest } d)))
    | [] => setPort p { s with replayWait := s.replayWait ++ [(lsn, e)] } d
  else forwardLine p (tokenLine p lsn e d) d

/-- A port released at a line whose trigger message did not leave (R74). -/
def portLate (g : Nat) (d : Dev) : Dev :=
  timPerf 3 1 (event 7 (R.TIM.TG_STATUS.SEQ g) [R.TIM.TG_STATUS.PORT_LATE g] d)

/-- An issued line reaches a port at its E: the block boundary of the port, then an open line, or a stand-in while
the port is not in RUN (R67, R149, R155, R159). A line that was declared missing before its E is done with. -/
def portArrive (c : Coming) (x : Nat × Bool × Bool) (d : Dev) : Dev :=
  let p := x.1
  if d.get (R.EKL.STATUS.STATE p) = 0 then d
  else
    let n := (d.portS p).blkLines
    let d := portBatch c.g p c.lsn (when x.2.1 (portBoundary p (n == 0)) d)
    let d := setPort p { d.portS p with blkLines := if x.2.1 then 1 else n + 1, releasing := (d.portS p).releasing && !x.2.1 } d
    let s := d.portS p
    let own (r : LineRec) : LineRec :=
      { r with bg := (List.range 4).map (fun q => d.get (R.EKL.PLANE_BG.VALUE p q)), lineTo := some (d.get (R.EKL.LINE_TO.NS p)) }
    if s.lines.any (fun r => r.lsn == c.lsn && r.e == c.e) then
      setPort p { s with lines := s.lines.map (fun r => if r.lsn = c.lsn ∧ r.e = c.e then own r else r) } d
    else if d.get (R.EKL.STATUS.STATE p) = 4 then
      let d := setPort p { s with lines := keepLines (own { lsn := c.lsn, e := c.e } :: s.lines) } d
      when (d.on (R.TIM.PT_CTL.DL_EN p) && !x.2.2) (portLate c.g) d
    else standIn p c.lsn c.e (setPort p { s with lines := keepLines ({ lsn := c.lsn, e := c.e, st := .isToken } :: s.lines) } d)

/-- Both SP values latched at E of TG0 (R327). -/
def latchSp (lsn : Nat) (d : Dev) : Dev :=
  { d with spLatch := KMap.put (fun _ => none) d.spLatch (lsn % 65536) (some (lsn, d.get (R.TIM.ENC_SP.SP 0) % 2 ^ 48, d.get (R.TIM.ENC_SP.SP 1) % 2 ^ 48))
           spNewest := some lsn }

/-- A composite line waits to be formed (R69, R208). -/
def compositeIssue (lsn e : Nat) (d : Dev) : Dev :=
  when (d.on R.FUS.CTL.EN) (fun d => { d with fus := { d.fus with issued := d.fus.issued ++ [(lsn, e)] } }) d

/-- An issued line reaches its E. -/
def arrive (c : Coming) (d : Dev) : Dev :=
  let d := when (c.g == 0) (fun d => compositeIssue c.lsn c.e (latchSp c.lsn d)) d
  each (portArrive c) c.ports d

/-! ## Time -/

/-- The issued lines whose E is not later than `t` reach it, each at its own DT. -/
def arrivals (t : Nat) : Nat → Dev → Dev
  | 0, d => d
  | k + 1, d =>
    match d.tim.coming with
    | [] => d
    | c :: rest =>
      if dtGe t c.e then
        let d := dtSteps (d.stepsTo c.e) d
        arrivals t k (arrive c { d with tim := { d.tim with coming := rest } })
      else d

/-- Advances DT to `t`, if it is not there yet. -/
def reach (t : Nat) (d : Dev) : Dev :=
  let d := arrivals t d.tim.coming.length d
  dtSteps (d.stepsTo t) d

/-- Advances DT by integer nanoseconds from a start, if it is not there yet. -/
def reachNs (start ns : Nat) (d : Dev) : Dev := reach (dtAddNs start ns) d

/-- The lines whose E is now past have reached it. -/
def settleLines (d : Dev) : Dev := arrivals d.dt d.tim.coming.length d

/-- A line enters the list of those to come, which is ordered by E. -/
def comingIn (c : Coming) : List Coming → List Coming
  | [] => [c]
  | x :: xs => if 0 < dtDiff x.e c.e then c :: x :: xs else x :: comingIn c xs

end Sys2Proof.Machine
end

