-- ==== Sys2Proof/Machine/Journal.lean ====
section
/-!
DEFINITION. Strips, run records and the run journal in DRAM (R238 to R246, R522).
-/

namespace Sys2Proof.Machine

def Dev.stripS (d : Dev) (s : Nat) : StripS := KMap.get (fun _ => {}) d.cls.strip s
def setStrip (s : Nat) (x : StripS) (d : Dev) : Dev :=
  { d with cls := { d.cls with strip := KMap.put (fun _ => {}) d.cls.strip s x } }
def Dev.gouS (d : Dev) (g : Nat) : GouS := KMap.get (fun _ => {}) d.gou g
def setGou (g : Nat) (x : GouS) (d : Dev) : Dev := { d with gou := KMap.put (fun _ => {}) d.gou g x }

/-- Base address of a gouge's instance. -/
def ggeBase (g : Nat) : Nat := 0x1000000 + 0x2000 * g
def ggePerf (g code n : Nat) (d : Dev) : Dev := perf 13 (ggeBase g) code n d
def ggeStat (g c n : Nat) (d : Dev) : Dev := inc (R.GGE.STAT.COUNT g c) n d
def clsPerf (code n : Nat) (d : Dev) : Dev := perf 12 0xc00000 code n d
def clsStat (c n : Nat) (d : Dev) : Dev := inc (R.CLS.STAT.COUNT c) n d

/-- Columns of a full strip (R238). -/
def Dev.stripW (d : Dev) : Nat := 64 * d.get R.CLS.STRIP.W
/-- Composite width. -/
def Dev.width (d : Dev) : Nat := d.get R.FUS.WIDTH.COLS
/-- Number of strips (R238). -/
def Dev.nstrips (d : Dev) : Nat := if d.stripW = 0 then 0 else cdiv d.width d.stripW
/-- Columns of strip s. -/
def Dev.stripCols (d : Dev) (s : Nat) : Nat := min ((s + 1) * d.stripW) d.width - s * d.stripW

/-- The gouge that serves a strip (R428). -/
def Dev.placed (d : Dev) (s : Nat) : Option Nat := if d.on (R.RAS.PLACE.VALID s) then some (d.get (R.RAS.PLACE.GOUGE s)) else none
/-- The strip that a gouge serves. -/
def Dev.servedBy (d : Dev) (g : Nat) : Option Nat := if d.on (R.GGE.STRIP.VALID g) then some (d.get (R.GGE.STRIP.STRIP g)) else none

/-! ## The journal (R245) -/

/-- The journal region exists and owner 0x06 holds it (R245). -/
def Dev.jrnOk (d : Dev) : Bool :=
  let r := d.get R.CLS.JRN_CTL.RGN
  decide (0 < (d.region r).2) && d.mayUse 3 r 6 && decide (0 < d.nstrips)

/-- Bytes of a sub-ring (R245). -/
def Dev.subBytes (d : Dev) : Nat := (d.region (d.get R.CLS.JRN_CTL.RGN)).2 / (max 1 d.nstrips) / 4096 * 4096
/-- Records of a sub-ring. -/
def Dev.subRecs (d : Dev) : Nat := d.subBytes / 32
/-- Device address of record i of strip s. -/
def Dev.recAddr (d : Dev) (s i : Nat) : Nat :=
  (d.region (d.get R.CLS.JRN_CTL.RGN)).1 + s * d.subBytes + 32 * (i % max 1 d.subRecs)

/-- Four entries of a list of numbers. -/
def four (xs : List Nat) : List Nat := (List.range 4).map (nth 0 xs)

/-- The 32 bytes of a run record, with its extremes record when it has one (R240, R522). -/
def runBytes (strip : Nat) (r : RunRec) : List (List Byte) :=
  let a := leBytes 4 r.lsn ++ leBytes 1 strip
  (a ++ leBytes 1 r.cf ++ leBytes 2 r.start ++ leBytes 2 r.len ++ leBytes 2 r.chPres ++ leBytes 4 r.leadT
    ++ (four r.sum).flatMap (leBytes 4)) ::
  match r.ext with
  | none => []
  | some (mn, mx) =>
    [a ++ [0#8] ++ leBytes 2 r.start ++ leBytes 2 0xffff ++ List.replicate 6 0#8
      ++ (four mn).flatMap (leBytes 2) ++ (four mx).flatMap (leBytes 2)]

/-- The 32 bytes of an END record (R241). -/
def endBytes (strip : Nat) (r : EndRec) : List Byte :=
  leBytes 4 r.lsn ++ leBytes 1 strip ++ leBytes 1 r.lf ++ leBytes 2 r.nruns ++ leBytes 2 0 ++ List.replicate 6 0#8
    ++ leBytes 8 r.e ++ leBytes 2 r.cflags ++ List.replicate 6 0#8

/-- The journal records of an entry. -/
def grecBytes (strip : Nat) : GRec → List (List Byte)
  | .run r => runBytes strip r
  | .fin r => [endBytes strip r]

/-- Record i of strip s as it stands in DRAM. -/
def Dev.rawRec (d : Dev) (m : Mem) (s i : Nat) : List Byte := (d.dramRead m (d.recAddr s i) 32).1

/-- The entry that starts at record i, and the records it takes (R522). -/
def Dev.readRec (d : Dev) (m : Mem) (s i : Nat) : GRec × Nat :=
  let b := d.rawRec m s i
  if fieldAt b 8 2 = 0 then
    (.fin { lsn := fieldAt b 0 4, lf := fieldAt b 5 1, nruns := fieldAt b 6 2, e := fieldAt b 16 8, cflags := fieldAt b 24 2 }, 1)
  else
    let r : RunRec :=
      { lsn := fieldAt b 0 4, cf := fieldAt b 5 1, start := fieldAt b 6 2, len := fieldAt b 8 2, chPres := fieldAt b 10 2
        leadT := fieldAt b 12 4, sum := (List.range 4).map (fun k => fieldAt b (16 + 4 * k) 4) }
    let x := d.rawRec m s (i + 1)
    if fieldAt x 8 2 ≠ 0xffff then (.run r, 1)
    else
      (.run { r with ext := some ((List.range 4).map (fun k => fieldAt x (16 + 2 * k) 2),
                                  (List.range 4).map (fun k => fieldAt x (24 + 2 * k) 2)) }, 2)

/-- The oldest END record at or after record i, up to the write position (R246, R431). -/
def Dev.findEnd (d : Dev) (m : Mem) (s : Nat) : Nat → Nat → Option Nat
  | 0, _ => none
  | fuel + 1, i => if fieldAt (d.rawRec m s i) 8 2 = 0 then some i else d.findEnd m s fuel (i + 1)

/-- The oldest END record still held in the sub-ring of strip s. -/
def Dev.oldestEnd (d : Dev) (m : Mem) (s : Nat) : Option Nat :=
  let w := (d.stripS s).wr
  let lo := max (d.stripS s).lo (w - d.subRecs)
  d.findEnd m s (w - lo) lo

/-- KEEP of a strip in force: WR while no component is open (R246). -/
def Dev.keepOf (d : Dev) (s : Nat) : Nat := ((d.stripS s).keep).getD (d.stripS s).wr

/-- `JRN_PTRs` shows the pointers of a strip. -/
def showPtrs (s : Nat) (d : Dev) : Dev :=
  put (R.CLS.JRN_PTR.WR s) ((d.stripS s).wr % 2 ^ 32) (put (R.CLS.JRN_PTR.KEEP s) (d.keepOf s % 2 ^ 32) d)

/-- KEEP of a strip takes a new value; an advance ends the overrun episode (R246). -/
def setKeep (s : Nat) (k : Option Nat) (d : Dev) : Dev :=
  let x := d.stripS s
  let adv := decide (d.keepOf s < k.getD x.wr)
  showPtrs s (setStrip s { x with keep := k, episode := x.episode && !adv } d)

/-- One record is appended to a strip's sub-ring (R245, R246). -/
def appendRec (s : Nat) (bs : List Byte) (d : Dev) : Dev :=
  let x := d.stripS s
  let unread := match d.placed s with
    | some g => (d.gouS g).spill && decide ((d.gouS g).rd + d.subRecs ≤ x.wr)
    | none => false
  let hit := (x.keep.isSome && decide (d.keepOf s + d.subRecs ≤ x.wr)) || unread
  let d := meterUser 1 bs.length (dramWrite (d.recAddr s x.wr) bs d)
  let d := when hit (clsStat 8 1) d
  let d := when (hit && !x.episode) (fun d =>
      let d := event 12 R.CLS.STATUS.SEQ [R.CLS.STATUS.JRN_OVR] d
      let d := match d.placed s with
        | some g => event 13 (R.GGE.STATUS.SEQ g) [R.GGE.STATUS.JRN_LOST g] d
        | none => d
      logEv 0x0c8b s 2 s d) d
  showPtrs s (clsPerf 6 1 (setStrip s { d.stripS s with wr := x.wr + 1, episode := x.episode || hit } d))

end Sys2Proof.Machine
end

