-- ==== Sys2Proof/Machine/Faults.lean ====
section
/-!
DEFINITION. What the RAS unit does in hardware: the repair map's new entries (R440), gouge migration and group
restart (R428 to R432), and lathe migration (R433, R434, R16).
-/

namespace Sys2Proof.Machine

def rasPerf (code n : Nat) (d : Dev) : Dev := perf 6 0xc0000 code n d
def rasStat (c n : Nat) (d : Dev) : Dev := inc (R.RAS.STAT.COUNT c) n d

/-! ## Power domains (R487) -/

def pwrPerf (code n : Nat) (d : Dev) : Dev := perf 4 0x80000 code n d
def pwrStat (c n : Nat) (d : Dev) : Dev := inc (R.PWR.STAT.COUNT c) n d

/-- The domains that are on, as a 41-bit mask. -/
def Dev.domains (d : Dev) : Nat := d.get R.PWR.DOM_ON_LO.ON + 2 ^ 32 * d.get R.PWR.DOM_ON_HI.ON

/-- Set bits of a mask of domains. -/
def onesIn (m : Nat) : Nat := ((List.range 41).filter (bit m)).length

/-- The domains are switched to a mask, each switch counted (R497, R498). -/
def setDomains (m : Nat) (d : Dev) : Dev :=
  let up := onesIn (m &&& (2 ^ 41 - 1 - d.domains))
  let down := onesIn (d.domains &&& (2 ^ 41 - 1 - m))
  pwrPerf 1 up (pwrPerf 2 down (pwrStat 3 (up + down)
    (put R.PWR.DOM_ON_LO.ON m (put R.PWR.DOM_ON_HI.ON (m / 2 ^ 32) d))))

/-- Domain n is switched. -/
def setDomain (n : Nat) (on : Bool) (d : Dev) : Dev :=
  setDomains (if on then d.domains ||| 2 ^ n else d.domains &&& (2 ^ 41 - 1 - 2 ^ n)) d

/-! ## Repairs (R440) -/

/-- ALERT_N is asserted: a status bit of RAS or of MGT that the `ALERT_MASK` of its block selects is set (R444, R454). -/
def Dev.alertAsserted (d : Dev) : Bool :=
  (List.range 12).any (fun i => bit (d.get R.RAS.ALERT_MASK.MASK) i && d.on ⟨0xc0004, 8 + i, 1⟩)
    || (List.range 8).any (fun i => bit (d.get R.MGT.ALERT_MASK.MASK) i && d.on ⟨0x40004, 8 + i, 1⟩)

/-- A repair is recorded: its entry waits to be written to both NVM devices, unless the map is full (R440, R441). -/
def recordRepair (kind block inst data : Nat) (d : Dev) : Dev :=
  let e : RepEntry := { kind, flags := b2n d.ras.markInjected, block, inst, dt := d.dt, epoch := d.tim.epoch, data }
  let n := d.get R.RAS.MAP_INFO.ENTRIES + d.ras.mapQ.length
  let d := { d with ras := { d.ras with repairs := d.ras.repairs ++ [e] } }
  if n < 2046 then { d with ras := { d.ras with mapQ := d.ras.mapQ ++ [e] } }
  else event 6 R.RAS.STATUS.SEQ [R.RAS.STATUS.MAP_FULL] d

/-- An event raised in handling an injected fault carries INJECTED (R454). -/
def logRas (code inst sev data : Nat) (d : Dev) : Dev := logEntry code inst sev (b2n d.ras.markInjected) data d

/-! ## Spare gouges (R428, R429) -/

/-- The spare gouges of a profile. -/
def spareList (code : Nat) : List Nat :=
  match code with
  | 1 => [33, 67, 101, 135]
  | 2 => [16, 33, 50, 67, 84, 101, 118, 135]
  | _ => []

/-- A gouge is retired. -/
def Dev.gouRetired (d : Dev) (g : Nat) : Bool := d.get (R.GGE.STATUS.STATE g) == 7

/-- The free spare gouges. -/
def Dev.freeSpares (d : Dev) : List Nat :=
  (spareList (d.get R.TOP.PROFILE_ACT.GG_SPARES)).filter (fun g => !d.gouRetired g && (d.servedBy g).isNone)

/-- Distance of two group numbers, the lower group first on a tie. -/
def groupRank (g h : Nat) : Nat := if h ≤ g then 2 * (g - h) else 2 * (h - g) + 1

/-- The spare for a gouge: the lowest free one of its group, else of the nearest group (R429). -/
def Dev.spareFor (d : Dev) (g : Nat) : Option Nat :=
  minBy (fun h => groupRank (g / 17) (h / 17) * 256 + h) d.freeSpares

/-- `SPARES` shows the free and retired gouges. -/
def showSpares (d : Dev) : Dev :=
  put R.RAS.SPARES.GG_FREE d.freeSpares.length
    (put R.RAS.SPARES.GG_RETIRED ((List.range 136).filter (fun g => d.gouRetired g)).length d)

/-- Strip s is placed on gouge g, or on none. -/
def place (s : Nat) (g : Option Nat) (d : Dev) : Dev :=
  match g with
  | none => put (R.RAS.PLACE.VALID s) 0 d
  | some g => puts [(R.RAS.PLACE.GOUGE s, g), (R.RAS.PLACE.VALID s, 1), (R.GGE.STRIP.STRIP g, s), (R.GGE.STRIP.VALID g, 1)] d

/-- A gouge with its component table cleared, serving nothing yet. -/
def clearGouge (g : Nat) (d : Dev) : Dev :=
  setGou g { ({} : GouS) with gens := (d.gouS g).gens, out := (d.gouS g).out } d

/-- The gouges of a group. -/
def groupOf (g : Nat) : List Nat := (List.range 17).map (fun i => 17 * g + i)

/-! ## Groups and their power (R261) -/

/-- A gouge group is power-gated. -/
def Dev.groupOff (d : Dev) (grp : Nat) : Bool := (groupOf grp).any (fun g => d.get (R.GGE.STATUS.STATE g) == 3)

/-- A power-gated group is powered again: its domain is on, its gouges serve their strips or are spares (R261, R487). -/
def wakeGroup (grp : Nat) (d : Dev) : Dev :=
  let d := setDomain (3 + grp) true d
  each (fun g d =>
    let d := ggePerf g 0xd 1 d
    if d.get (R.GGE.STATUS.STATE g) = 3 then
      let st := if (d.gouS g).replay then 5 else if (d.servedBy g).isSome then (if (d.gouS g).spill then 6 else 1)
        else if (spareList (d.get R.TOP.PROFILE_ACT.GG_SPARES)).contains g then 4 else 0
      setGou g { d.gouS g with idle := 0, gatedFor := 0 } (put (R.GGE.STATUS.STATE g) st d)
    else d) (groupOf grp) d

/-! ## Gouge migration (R430, R431) -/

/-- The first journal record that gouge g has not taken. -/
def Dev.firstUntaken (d : Dev) (g s : Nat) : Nat :=
  let x := d.gouS g
  match x.fifo with
  | (i, _) :: _ => i
  | [] => if x.spill then x.rd else (d.stripS s).wr

/-- Where the spare starts to read a strip's journal (R430): KEEP, and no later than the first record that the
faulty gouge has not taken. DEDUCED (log entry 24). -/
def Dev.replayFrom (d : Dev) (g s : Nat) : Nat := min (d.keepOf s) (d.firstUntaken g s)

/-- Step 1: the faulty gouge takes nothing more; its strip's records go to the journal only. -/
def stopGouge (g s : Nat) (d : Dev) : Dev :=
  let x := d.gouS g
  let d := setGou g { ({} : GouS) with gens := x.gens, epoch := x.epoch, out := x.out ++ x.owed } d
  let d := puts [(R.GGE.FIFO.LEVEL g, 0), (R.GGE.OPEN.COUNT g, 0)] d
  setStrip s { d.stripS s with journalOnly := true } d

/-- A gouge is fed again (R244); the end of a strip's replay (R430 step 4). -/
def feedAgain (g s : Nat) (d : Dev) : Dev :=
  let x := d.gouS g
  let d := setGou g { x with spill := false, replay := false, partRebuild := false, idle := 0 } d
  let d := put (R.GGE.STATUS.STATE g) 1 d
  when x.replay (fun d =>
    let d := setStrip s { d.stripS s with journalOnly := false } d
    let d := puts [(R.MRG.STRIP_EPOCH.REPLAY s, 0), (R.RAS.MIG_RESUME.DT, d.dt)] d
    event 6 R.RAS.STATUS.SEQ [R.RAS.STATUS.MIGRATED] d) d

/-- Steps 2 and 3: the spare is loaded, the epoch and C are written, and the replay starts (R430). With no
journal there is no line to replay: the strip is fed at once (R245). -/
def startReplay (s spare start cut : Nat) (lost : Bool) (m : Mem) (d : Dev) : Dev :=
  let e := (d.get (R.MRG.STRIP_EPOCH.EPOCH s) + 1) % 65536
  let at' := if lost then (d.oldestEnd m s).getD (d.stripS s).wr else start
  let d := if d.groupOff (spare / 17) then wakeGroup (spare / 17) d else d
  let d := clearGouge spare d
  let d := setGou spare { d.gouS spare with epoch := e, spill := true, replay := true, rd := at', partRebuild := lost } d
  let d := puts [(R.MRG.STRIP_EPOCH.EPOCH s, e), (R.MRG.STRIP_CUT.LSN s, cut), (R.MRG.STRIP_EPOCH.REPLAY s, 1),
                 (R.GGE.STATUS.STATE spare, 5), (R.RAS.MIG_REPLAY.COUNT, 0)] d
  let d := showSpares (place s (some spare) d)
  if d.jrnOk then { d with ras := { d.ras with migs := d.ras.migs.filter (· != s) ++ [s] } }
  else { feedAgain spare s d with ras := { d.ras with migs := d.ras.migs.filter (· != s) } }

/-- A strip without a gouge yields no objects until a rebase (R431). -/
def noSpare (g s : Nat) (d : Dev) : Dev :=
  let d := place s none d
  logRas 0x0603 g 3 s (event 6 R.RAS.STATUS.SEQ [R.RAS.STATUS.MIG_FAIL] d)

/-- The identification of the last repair. -/
def migInfo (kind from' to' unit' cut : Nat) (d : Dev) : Dev :=
  puts [(R.RAS.MIG_INFO.KIND, kind), (R.RAS.MIG_INFO.FROM, from'), (R.RAS.MIG_INFO.TO, to'),
        (R.RAS.MIG_INFO.UNIT, unit'), (R.RAS.MIG_CUT.LSN, cut), (R.RAS.MIG_DT.DT, d.dt)] d

/-- The strip of a stopped gouge moves to the spare of R429, or to none. -/
def moveStrip (g s start cut : Nat) (m : Mem) (d : Dev) : Dev :=
  let lost := d.on (R.GGE.STATUS.JRN_LOST g) || !d.jrnOk || decide (start < (d.stripS s).lo)
  match d.spareFor g with
  | none => noSpare g s (migInfo 1 g 0xff s cut d)
  | some h => startReplay s h start cut lost m (migInfo 1 g h s cut d)

/-- C of a migration: D_s + 1, the value that the collector found, or the C of the replay that failed (R284, R443). -/
def Dev.cutFor (d : Dev) (s : Nat) (found : Option Nat) : Nat :=
  if d.on (R.MRG.STRIP_EPOCH.REPLAY s) then d.get (R.MRG.STRIP_CUT.LSN s)
  else (found.getD ((d.get (R.MRG.STRIP_DONE.LSN s)) + 1)) % 2 ^ 32

/-- A gouge fault (R430): retirement, and the migration of its strip unless another runs (R443). -/
def gougeFault (g : Nat) (found : Option Nat) (m : Mem) (d : Dev) : Dev :=
  if d.gouRetired g || !d.on R.RAS.CTL.GG_AUTO then d
  else
    let s := d.servedBy g
    let start := match s with
      | some s => d.replayFrom g s
      | none => 0
    let d := put (R.GGE.STATUS.STATE g) 7 d
    let d := recordRepair 1 13 g 0 d
    match s with
    | none => showSpares (clearGouge g d)
    | some s =>
      let cut := d.cutFor s found
      let d := put (R.GGE.STRIP.VALID g) 0 (stopGouge g s d)
      let d := rasPerf 2 1 (rasStat 2 1 (errEvent 5 (showSpares d)))
      let again := d.ras.migs.contains s
      if d.ras.migs.isEmpty || again then moveStrip g s start cut m d
      else
        let d := setGou g { d.gouS g with rd := start } d
        { d with ras := { d.ras with waitQ := d.ras.waitQ ++ [(g, cut)] } }

/-! ## Group restart (R432) -/

/-- A gouge of a restarted group takes its own strip again. -/
def restartGouge (m : Mem) (g : Nat) (d : Dev) : Dev :=
  match d.servedBy g with
  | none => d
  | some s =>
    let start := d.replayFrom g s
    let cut := d.cutFor s none
    let lost := d.on (R.GGE.STATUS.JRN_LOST g) || !d.jrnOk || decide (start < (d.stripS s).lo)
    startReplay s g start cut lost m (migInfo 2 g g s cut (stopGouge g s d))

/-- A gouge of a retired group gives its strip away. -/
def retireGouge (m : Mem) (g : Nat) (d : Dev) : Dev :=
  match d.servedBy g with
  | none => put (R.GGE.STATUS.STATE g) 7 d
  | some s =>
    let start := d.replayFrom g s
    let cut := d.cutFor s none
    let d := put (R.GGE.STATUS.STATE g) 7 (put (R.GGE.STRIP.VALID g) 0 (stopGouge g s d))
    moveStrip g s start cut m d

/-- A fault of a gouge group domain (R432). -/
def groupFault (grp : Nat) (m : Mem) (d : Dev) : Dev :=
  if !d.on R.RAS.CTL.DOM_RESTART || bit (d.get R.RAS.SPARES.GRP_RETIRED) grp then d
  else
    let again := match KMap.get (fun _ => (none : Option Nat)) d.ras.grpTrip grp with
      | some t => decide (dtDiff d.dt t ≤ 1000000000 * 65536)
      | none => false
    let d := errEvent 5 d
    if again then
      let d := put R.RAS.SPARES.GRP_RETIRED (d.get R.RAS.SPARES.GRP_RETIRED ||| 2 ^ grp) d
      let d := recordRepair 2 13 grp 0 d
      -- the members are retired before any spare is chosen, so that no strip stays in the group
      let free := (groupOf grp).filter (fun g => (d.servedBy g).isNone)
      let used := (groupOf grp).filter (fun g => (d.servedBy g).isSome)
      showSpares (each (retireGouge m) used (each (fun g d => put (R.GGE.STATUS.STATE g) 7 d) free d))
    else
      let d := rasPerf 3 1 (rasStat 3 1 (event 6 R.RAS.STATUS.SEQ [R.RAS.STATUS.GRP_RESTART] d))
      let d := { d with ras := { d.ras with grpTrip := KMap.put (fun _ => none) d.ras.grpTrip grp (some d.dt) } }
      each (restartGouge m) (groupOf grp) (setDomain (3 + grp) true (setDomain (3 + grp) false d))

/-! ## Lathe migration (R433, R434) -/

/-- The lathes in service. -/
def Dev.lathesUp (d : Dev) : List Nat :=
  (List.range 8).filter (fun n => d.get (R.LTH.STATUS.STATE n) == 1 || d.get (R.LTH.STATUS.STATE n) == 2)

/-- The share of a context, before the clip to a plane's width (R170). -/
def Dev.shareOf (d : Dev) (n c : Nat) : Nat × Nat :=
  if c = 0 then (0, 16384) else (d.get (R.LTH.CTX_SHARE.FIRST n c), d.get (R.LTH.CTX_SHARE.FIRST n c) + d.get (R.LTH.CTX_SHARE.COUNT n c))

/-- Two column ranges meet. -/
def rangesMeet (a b : Nat × Nat) : Bool := decide (a.1 < b.2 ∧ b.1 < a.2)

/-- A standby context takes over: it starts with the first line that completes from now on (R433). -/
def activate (n c : Nat) (d : Dev) : Dev :=
  let p := d.get (R.LTH.CTX_CTL.PORT n c)
  let s := d.portS p
  let lines := d.get (R.EKL.BLOCK.LINES p)
  let opens := (s.lines.filter (fun r => r.st == .isOpen && dtGe d.dt r.e && s.loseLsn != some r.lsn)).length
  let blk := if opens ≤ s.blkLines then s.blkLines - opens else s.blkLines + lines - opens
  let d := setCtx n c { (d.lthS n).ctxS c with taken := s.ringSeq + s.ringOut.length, blk, hist := [] } d
  let d := puts [(R.LTH.CTX_CTL.STANDBY n c, 0), (R.LTH.CTX_CTL.ACTIVE n c, 1)] d
  put (R.LTH.STATUS.STATE n) 1 d

/-- Strips that hold a composite column covered by a view of a port (R16). -/
def Dev.stripsOfPort (d : Dev) (p : Nat) : List Nat :=
  (List.range d.nstrips).filter (fun s => (List.range 4).any (fun q =>
    let v := 4 * p + q
    d.on (R.FUS.VIEW_CTL.EN v) && rangesMeet (s * d.stripW, s * d.stripW + d.stripCols s)
      (d.get (R.FUS.VIEW_U0.COL v), d.get (R.FUS.VIEW_U1.COL v))))

/-- LATE of every strip that a moved port feeds, under in-line only with lathe reserve N+1 (R16). -/
def markLate (p : Nat) (d : Dev) : Dev :=
  if d.get R.TOP.PROFILE_ACT.LAT_CLASS = 0 ∧ d.get R.TOP.PROFILE_ACT.LATHE_RES = 1 then
    each (fun s d => put (R.MRG.STRIP_EPOCH.LATE s) 1 d) (d.stripsOfPort p) d
  else d

/-- The ports in line on a lathe. -/
def Dev.homePorts (d : Dev) (n : Nat) : List Nat :=
  (List.range 12).filter (fun p => d.get (R.EKL.STATUS.STATE p) != 0 && d.get (R.EKL.CTL.HOME p) == n
    && d.get (R.EKL.STATUS.ROUTE_ACT p) == 0 && !(d.portS p).moved)

/-- Step 2 of R433: the home port writes its ring from the first line that completes after detection. -/
def movePort (p : Nat) (d : Dev) : Dev :=
  let s := d.portS p
  let prog := ((s.lines.reverse.filter (fun r => r.st == .isOpen)).find? LineRec.hasSample).map LineRec.lsn
  markLate p (setPort p { s with moved := true, routeNext := some 1, loseLsn := prog } d)

/-- A lathe fault (R195, R433, R434). -/
def latheFault (n : Nat) (d : Dev) : Dev :=
  if d.get (R.LTH.STATUS.STATE n) = 3 || !d.on R.RAS.CTL.LTH_AUTO then d
  else
    let homes := d.homePorts n
    let guests := [1, 2].filter (fun c => d.on (R.LTH.CTX_CTL.ACTIVE n c))
    let lostShares := homes.map (fun p => (p, ((0, 16384) : Nat × Nat)))
      ++ guests.map (fun c => (d.get (R.LTH.CTX_CTL.PORT n c), d.shareOf n c))
    let d := setLth n { d.lthS n with guest := none } d
    let d := { d with homeQ := KMap.put (fun _ => []) d.homeQ n [] }
    let d := put (R.LTH.STATUS.STATE n) 3 d
    let d := each (fun c d => put (R.LTH.CTX_CTL.ACTIVE n c) 0 d) [0, 1, 2] d
    let d := put R.RAS.SPARES.LTH_RETIRED (d.get R.RAS.SPARES.LTH_RETIRED ||| 2 ^ n) d
    let d := recordRepair 3 10 n 0 d
    let d := puts [(R.RAS.MIG_INFO.KIND, 3), (R.RAS.MIG_INFO.FROM, n), (R.RAS.MIG_INFO.TO, 0xff),
                   (R.RAS.MIG_INFO.UNIT, homes.headD 0), (R.RAS.MIG_DT.DT, d.dt)] d
    let d := each movePort homes d
    let d := each (fun m d => each (fun c d =>
        if d.on (R.LTH.CTX_CTL.EN m c) && d.on (R.LTH.CTX_CTL.STANDBY m c)
            && lostShares.any (fun l => l.1 == d.get (R.LTH.CTX_CTL.PORT m c) && rangesMeet l.2 (d.shareOf m c))
        then activate m c d else d) [1, 2] d) (d.lathesUp) d
    let d := setDomain (11 + n) false { d with ras := { d.ras with resume := homes.head? } }
    rasPerf 4 1 (rasStat 4 1 (event 6 R.RAS.STATUS.SEQ [R.RAS.STATUS.LTH_MOVED] (errEvent 5 d)))

end Sys2Proof.Machine
end

