-- ==== Sys2Proof/Machine/Nvm.lean ====
section
/-!
DEFINITION. The two NVM devices (R439, R457, R458, R440): reads that turn from A to B, writes that go to both, the
slot table, the repair map and the persisted log.
-/

namespace Sys2Proof.Machine

/-! ## Accesses (R439) -/

def Dev.nvmS (d : Dev) (i : Nat) : NvmDev := KMap.get (fun _ => {}) d.nvm i
def setNvm (i : Nat) (x : NvmDev) (d : Dev) : Dev := { d with nvm := KMap.put (fun _ => {}) d.nvm i x }

/-- The access of a command fails at device i. -/
def ioFails (io : NvmIo) (i : Nat) : Bool := if i = 0 then io.a else io.b

/-- `MAP_INFO.A_OK` and `B_OK`. -/
def nvmOk (i : Nat) : Fld := if i = 0 then R.RAS.MAP_INFO.A_OK else R.RAS.MAP_INFO.B_OK

/-- A device is marked failed until the next start-up, and the failure is logged (R439). -/
def nvmFail (i : Nat) (d : Dev) : Dev :=
  let d := setNvm i { d.nvmS i with failed := true, errs := 0 } d
  logEv 0x0690 i 2 i (event 6 R.RAS.STATUS.SEQ [R.RAS.STATUS.NVM_FAIL] (put (nvmOk i) 0 d))

/-- A write goes to both devices in service; one whose verification fails keeps its old content and is marked failed. -/
def nvmWrite (part : Nat) (io : NvmIo) (f : NvmDev → NvmDev) (d : Dev) : Dev :=
  each (fun i d =>
    if (d.nvmS i).failed then d
    else if ioFails io i then nvmFail i (rasStat 9 1 d)
    else emit (.nvmWrite i part 0) (setNvm i (f (d.nvmS i)) d)) [0, 1] d

/-- One read of a device: whether it succeeded, and the device after it. Two failures in a row mark it failed. -/
def nvmTry (io : NvmIo) (i : Nat) (d : Dev) : Bool × Dev :=
  let x := d.nvmS i
  if x.failed then (false, d)
  else if ioFails io i then
    let d := rasStat 9 1 (setNvm i { x with errs := x.errs + 1 } d)
    (false, if 2 ≤ x.errs + 1 then nvmFail i d else d)
  else (true, setNvm i { x with errs := 0 } d)

/-- A read starts at NVM_A and turns to NVM_B: the device that answers, if one does. -/
def nvmRead (io : NvmIo) (d : Dev) : Option Nat × Dev :=
  match nvmTry io 0 d with
  | (true, d) => (some 0, d)
  | (false, d) =>
    match nvmTry io 1 d with
    | (true, d) => (some 1, d)
    | (false, d) => (none, d)

/-- No NVM device is in service. -/
def Dev.nvmDown (d : Dev) : Bool := (d.nvmS 0).failed && (d.nvmS 1).failed

/-- The device that the boot ROM and the cores work from: A while it is in service. -/
def Dev.nvmMain (d : Dev) : NvmDev := if (d.nvmS 0).failed then d.nvmS 1 else d.nvmS 0

/-- The slot table in force: the copy with the higher GEN (R458). -/
def Dev.slotTab (d : Dev) : SlotTab := d.nvmMain.slots.getD {}

/-- The slot table is written, to its two sectors in turn (R458). -/
def slotWrite (io : NvmIo) (f : SlotTab → SlotTab) (d : Dev) : Dev :=
  let t := f d.slotTab
  nvmWrite 0 io (fun x => { x with slots := some { t with gen := (d.slotTab.gen + 1) % 2 ^ 32 } }) d

/-- The bytes of an image slot; an unlisted byte is erased. -/
def NvmDev.img (x : NvmDev) (n : Nat) : KMap Byte := if n = 0 then x.img0 else x.img1

def NvmDev.setImg (x : NvmDev) (n : Nat) (v : KMap Byte) : NvmDev := if n = 0 then { x with img0 := v } else { x with img1 := v }

/-- Bytes of an image slot from an offset. -/
def NvmDev.imgBytes (x : NvmDev) (n off len : Nat) : List Byte :=
  (List.range len).map (fun i => KMap.get (fun _ => 0xff#8) (x.img n) (off + i))

/-- Bytes written over a slot. -/
def imgPut (m : KMap Byte) (key : Nat) : List Byte → KMap Byte
  | [] => m
  | b :: bs => imgPut (KMap.put (fun _ => 0xff#8) m key b) (key + 1) bs

/-! ## The persisted log (R457) -/

/-- Entries that the 144 sectors of the partition hold when the next sector must be erased. -/
def logFull : Nat := 143 * 127 + 126

/-- One entry is appended to the log partition of a device. -/
def NvmDev.addLog (x : NvmDev) (e : LogEntry) : NvmDev :=
  { x with log := (if logFull ≤ x.log.length then x.log.drop 127 else x.log) ++ [e] }

/-- An entry is written to the log partition of both devices. -/
def persist (io : NvmIo) (e : LogEntry) (d : Dev) : Dev :=
  let d := nvmWrite 2 io (fun x => x.addLog e) d
  mgtPerf 2 1 (inc (R.MGT.STAT.COUNT 2) 1 { d with mgt := { d.mgt with persisted := some (e.lseq, d.dt) } })

/-- An entry that stays in the ring only (R457). -/
def suppress (d : Dev) : Dev :=
  mgtPerf 4 1 (event 3 R.MGT.STATUS.SEQ [R.MGT.STATUS.LOG_SUPPR]
    (inc R.MGT.LOG_SUPPR.COUNT 1 { d with mgt := { d.mgt with suppressed := d.mgt.suppressed + 1 } }))

/-- The oldest entry that waits is persisted, or suppressed when the bucket is empty (R457). -/
def logPersist (io : NvmIo) (d : Dev) : Dev :=
  if d.ras.coresDown then d
  else
    match d.persistQ with
    | [] => d
    | l :: rest =>
      let d := { d with persistQ := rest }
      let e := KMap.get (fun _ => ({} : LogEntry)) d.log (l % 8192)
      if d.mgt.tokens = 0 ∨ e.lseq ≠ l ∨ e.count = 0 then suppress d
      else persist io e { d with mgt := { d.mgt with tokens := d.mgt.tokens - 1 } }

/-- `LOG_PERSIST` (R457). -/
def execLogPersist (io : NvmIo) (s : State) : Host.Outcome State Fault Refusal := total (fun _ d => logPersist io d) s

/-- The bucket gains a token; what was suppressed is reported by one entry, which takes it (R457). -/
def logRefill (io : NvmIo) (d : Dev) : Dev :=
  let at' := dtAddNs d.mgt.refillAt 500000000
  let d := reach at' d
  let d := { d with mgt := { d.mgt with refillAt := at', tokens := min 4096 (d.mgt.tokens + 1) } }
  if d.mgt.suppressed = 0 ∨ d.ras.coresDown then d
  else
    let n := d.mgt.suppressed
    let d := logFw 0x0301 0 1 n { d with mgt := { d.mgt with suppressed := 0, tokens := d.mgt.tokens - 1 } }
    match d.logNewest with
    | none => d
    | some k =>
      let e := KMap.get (fun _ => ({} : LogEntry)) d.log k
      persist io { e with data := n } { d with persistQ := d.persistQ.filter (fun l => l != e.lseq) }

/-- `LOG_BUCKET_REFILL` (R457). -/
def execLogBucketRefill (io : NvmIo) (s : State) : Host.Outcome State Fault Refusal := total (fun _ d => logRefill io d) s

/-! ## The repair map (R440, R441) -/

/-- The repair map in use: that of the device in service with the higher GEN, A on a tie. -/
def Dev.mapDev (d : Dev) : NvmDev :=
  let a := d.nvmS 0
  let b := d.nvmS 1
  if a.failed then b else if b.failed then a else if a.mapGen < b.mapGen then b else a

/-- A map was written, and for another serial number (R440). -/
def NvmDev.foreign (x : NvmDev) : Bool := x.mapGen != 0 && x.mapSerial != Config.serial

/-- The entries of the map in use; none when it is another serial's. -/
def Dev.mapEntries (d : Dev) : List RepEntry := if d.mapDev.foreign then [] else d.mapDev.repairs

/-- The map is written to both devices with the next GEN. -/
def mapWrite (io : NvmIo) (es : List RepEntry) (d : Dev) : Dev :=
  let g := (max (d.nvmS 0).mapGen (d.nvmS 1).mapGen + 1) % 2 ^ 32
  put R.RAS.MAP_INFO.ENTRIES es.length
    (nvmWrite 1 io (fun x => { x with mapSerial := Config.serial, mapGen := g, repairs := es }) d)

/-- The oldest repair that waits is written to the map (R440). -/
def mapPersist (io : NvmIo) (d : Dev) : Dev :=
  if d.ras.coresDown || d.ras.service then d
  else
    match d.ras.mapQ with
    | [] => d
    | e :: rest =>
      rasPerf 8 1 (rasStat 10 1 (mapWrite io (d.mapEntries ++ [e]) { d with ras := { d.ras with mapQ := rest } }))

/-- `REPAIR_MAP_WRITE` (R440). -/
def execRepairMapWrite (io : NvmIo) (s : State) : Host.Outcome State Fault Refusal := total (fun _ d => mapPersist io d) s

end Sys2Proof.Machine
end

