-- ==== Sys2Proof/Machine/Caliper.lean ====
section
/-!
DEFINITION. The Caliper (R464 to R467): which runs are due, what a run gives, and the steps of the codes.
-/

namespace Sys2Proof.Machine

def calPerf (code n : Nat) (d : Dev) : Dev := perf 5 0xa0000 code n d
def setCal (x : CalS) (d : Dev) : Dev := { d with cal := x }

/-- The sensor of a target (R464). -/
def calSensor (t : Nat) : Nat :=
  if t < 15 then (if t ≤ 5 then 12 else 13) else if t < 17 then 14 else if t < 27 then 15 else t - 27

/-- The number of codes of a target and the largest value of code i (R464). -/
def calMax (t i : Nat) : Option Nat :=
  if t < 15 then (match i with | 0 => some 31 | 1 => some 63 | _ => none)
  else if t < 19 then (if i < 3 then some 63 else none)
  else if t < 27 then (if i = 0 then some 31 else none)
  else if i = 0 then some 255 else none

/-- The temperature that a target's sensor shows. -/
def Dev.calTemp (d : Dev) (t : Nat) : Int := sgn 16 (d.get (R.MGT.TS.TEMP (calSensor t)))

/-- A run of a target is due to temperature. -/
def Dev.dueTemp (d : Dev) (t : Nat) : Bool :=
  decide (16 * (d.get R.CAL.CTL.DELTA_T : Int) < ((d.calTemp t - sgn 16 (d.get (R.CAL.INFO.T_LAST t))).natAbs : Nat))

/-- A run of a target is due to its interval. -/
def Dev.dueTime (d : Dev) (t : Nat) : Bool :=
  match KMap.get (fun _ => (none : Option Nat)) d.cal.ranAt t with
  | some r => decide ((d.get R.CAL.MAX_INT.S : Int) * 1000000000 * 65536 ≤ dtDiff d.dt r)
  | none => true

/-- A run of a target is due (R465); after a fault of `CAL_RES` only a command makes one due (R467). -/
def Dev.due (d : Dev) (t : Nat) : Bool := d.cal.asked.contains t || (!d.cal.resBad && (d.dueTemp t || d.dueTime t))

/-- Targets named by a command: 0x3F names all. -/
def calAsk (target : Nat) (d : Dev) : Dev :=
  let ts := if target = 0x3f then List.range 43 else if target < 43 then [target] else []
  setCal { d.cal with asked := (d.cal.asked ++ ts).eraseDups } d

/-- `CAL_CMD_RUN` (R465). -/
def execCalCmdRun (target : BitVec 6) (s : State) : Host.Outcome State Fault Refusal := total (fun _ d => calAsk target.toNat d) s

/-- Runs may start and codes may move (R466). -/
def Dev.calMoves (d : Dev) : Bool := !d.on R.CAL.CTL.HOLD && !d.ras.coresDown

/-- Codes may move: with a CAL_RES fault every code in force is kept (R466, R467). -/
def Dev.codesMove (d : Dev) : Bool := d.calMoves && !d.cal.resBad

/-- The next due run starts (R465). -/
def calStart (d : Dev) : Dev :=
  if !d.calMoves || !d.on R.CAL.CTL.EN || d.get R.CAL.STATUS.ACTIVE != 0x3f then d
  else
    match (List.range 43).find? d.due with
    | none => d
    | some t =>
      let temp := d.dueTemp t
      let time := d.dueTime t
      let d := setCal { d.cal with asked := d.cal.asked.filter (· != t), startAt := d.dt } d
      let d := put R.CAL.STATUS.ACTIVE t d
      calPerf 1 1 (when temp (calPerf 4 1) (when time (calPerf 5 1) d))

/-- `CALIPER_RUN` (R465). -/
def execCaliperRun (s : State) : Host.Outcome State Fault Refusal := total (fun _ d => calStart d) s

/-- Code i of a codes word. -/
def codeOf (v i : Nat) : Nat := bits v (8 * i) 8

/-- Measured codes held to the range of a target (R465). -/
def calClip (t : Nat) (codes : List Int) : Nat :=
  (List.range 4).foldl (fun v i =>
    match calMax t i with
    | some m => setBits v (8 * i) 8 (clampI 0 m (nth 0 codes i)).toNat
    | none => v) 0

/-- A measured code lies outside its range. -/
def calLimit (t : Nat) (codes : List Int) : Bool :=
  (List.range 4).any (fun i =>
    match calMax t i with
    | some m => decide (nth 0 codes i < 0 ∨ (m : Int) < nth 0 codes i)
    | none => false)

/-- `CAL_RES` carries a current within 237.5 to 262.5 µA, in 10 nA (R467). -/
def resOk (res : Nat) : Bool := decide (23750 ≤ res ∧ res ≤ 26250)

/-- The CAL_RES fault (R467). -/
def resFault (d : Dev) : Dev := logEv 0x0501 0 3 (d.get R.CAL.RES_MEAS.I) (event 5 R.CAL.STATUS.SEQ [R.CAL.STATUS.RES_FAULT] (setCal { d.cal with resBad := true } d))

/-- What one run leaves: its target codes, or a CAL_RES fault (R464, R465, R467). -/
def calResult (t res : Nat) (codes : List Int) (d : Dev) : Dev :=
  let d := put R.CAL.RES_MEAS.I res d
  let d := put (R.CAL.INFO.T_LAST t) (d.get (R.MGT.TS.TEMP (calSensor t))) (put (R.CAL.INFO.RUNS t) (d.get (R.CAL.INFO.RUNS t) + 1) d)
  let d := setCal { d.cal with ranAt := KMap.put (fun _ => none) d.cal.ranAt t (some d.dt) } d
  if !resOk res then resFault d
  else
    let d := put (R.CAL.TGT.ABCD t) (calClip t codes) (setCal { d.cal with resBad := false } d)
    if calLimit t codes then logEv 0x0502 t 2 t (event 5 R.CAL.STATUS.SEQ [R.CAL.STATUS.LIMIT] d) else d

/-- `CALIPER_RUN_DONE` (R464, R467): the current through `CAL_RES` in 10 nA and the measured codes. -/
def execCaliperRunDone (res : BitVec 16) (codes : List Int) (s : State) : Host.Outcome State Fault Refusal :=
  total (fun _ d =>
    let t := d.get R.CAL.STATUS.ACTIVE
    if t = 0x3f then d
    else event 5 R.CAL.STATUS.SEQ [R.CAL.STATUS.RUN_DONE] (put R.CAL.STATUS.ACTIVE 0x3f (calResult t res.toNat codes d))) s

/-- One code moves one LSB towards its target (R466). -/
def calStep (t i : Nat) (d : Dev) : Dev :=
  let c := codeOf (d.get (R.CAL.CODE.ABCD t)) i
  let g := codeOf (d.get (R.CAL.TGT.ABCD t)) i
  if c = g then d
  else
    let d := put (R.CAL.CODE.ABCD t) (setBits (d.get (R.CAL.CODE.ABCD t)) (8 * i) 8 (if c < g then c + 1 else c - 1)) d
    calPerf 2 1 (setCal { d.cal with stepAt := KMap.put (fun _ => none) d.cal.stepAt (4 * t + i) (some d.dt) } d)

/-- The DT at which a code may move again, when it has moved before. -/
def Dev.stepDue (d : Dev) (t i : Nat) : Option Nat :=
  (KMap.get (fun _ => (none : Option Nat)) d.cal.stepAt (4 * t + i)).map (fun x => dtAddNs x (1000 * d.get R.CAL.CTL.STEP_US : Nat))

/-- `CODE_STEP` (R466): a DDR code waits for a PHY update window. -/
def execCodeStep (t : Fin 43) (i : Fin 4) (s : State) : Host.Outcome State Fault Refusal :=
  total (fun _ d =>
    let t := t.val
    let i := i.val
    if !d.codesMove || codeOf (d.get (R.CAL.CODE.ABCD t)) i == codeOf (d.get (R.CAL.TGT.ABCD t)) i then d
    else if 15 ≤ t ∧ t ≤ 18 then calPerf 3 1 d
    else
      match d.stepDue t i with
      | some x => calStep t i (reach x d)
      | none => calStep t i d) s

/-- The codes of a DDR channel that are due move inside a PHY update window (R368, R466). -/
def calWindow (ch : Nat) (d : Dev) : Dev :=
  if !d.codesMove then d
  else each (fun i d =>
    match d.stepDue (15 + ch) i with
    | some x => if dtGe d.dt x then calStep (15 + ch) i d else d
    | none => calStep (15 + ch) i d) [0, 1, 2] d

end Sys2Proof.Machine
end

