-- ==== Sys2Proof/Machine/Dma.lean ====
section
/-!
DEFINITION. The DMA engine and the host port: descriptor rings, programs, report channels, MSI-X, the BAR2 window
and the link (R379 to R399).
-/

namespace Sys2Proof.Machine

def dmaPerf (code n : Nat) (d : Dev) : Dev := perf 0x13 0x1c00000 code n d
def hstPerf (code n : Nat) (d : Dev) : Dev := perf 0x14 0x1d00000 code n d
def dmaStat (c i n : Nat) (d : Dev) : Dev := inc (R.DMA.STAT.COUNT c i) n d
def hstStat (i n : Nat) (d : Dev) : Dev := inc (R.HST.STAT.COUNT i) n d
def Dev.chS (d : Dev) (c : Nat) : ChS := KMap.get (fun _ => {}) d.dma.ch c
def setCh (c : Nat) (x : ChS) (d : Dev) : Dev := { d with dma := { d.dma with ch := KMap.put (fun _ => {}) d.dma.ch c x } }
def Dev.chState (d : Dev) (c : Nat) : Nat := d.get (R.DMA.CH_STATUS.STATE c)
def chState (c st : Nat) (d : Dev) : Dev := put (R.DMA.CH_STATUS.STATE c) st d
def Dev.chMode (d : Dev) (c : Nat) : Nat := d.get (R.DMA.CH_CTL.MODE c)

/-- The host can be reached (R381). -/
def Dev.hostOk (d : Dev) : Bool := d.on R.HST.LINK.UP && d.on R.HST.LINK.BME

/-- The owner class of a channel has a slice of the buffer (R382). -/
def Dev.sliceOk (d : Dev) (c : Nat) : Bool := decide (0 < d.slicesOf (if d.chMode c = 2 then 7 else 13))

/-- The DRAM user of a channel's traffic: the report rings, or host image traffic (R11, R382). -/
def Dev.chUser (d : Dev) (c : Nat) : Nat := if d.chMode c = 2 then 2 else 3

/-- A channel's access to a space is metered when it reaches DRAM (R13, R384). -/
def meterCh (c space n : Nat) (d : Dev) : Dev := if space = 1 then meterUser (d.chUser c) n d else d

/-- New DRAM requests of a channel wait: the grant of host image traffic is spent (R13, R384). -/
def Dev.chStalls (d : Dev) (c : Nat) : Bool := d.chUser c == 3 && d.yields 3

/-- A channel waits for the next window (R13, R384, R402). -/
def stallCh (d : Dev) : Dev :=
  let d := holdUser 3 d
  { d with yielding := setFlag 6 true d.yielding }

/-- The taps that name a DMA channel (R384). -/
def Dev.tapsOn (d : Dev) (c : Nat) : Nat :=
  ((List.range 8).filter (fun n => d.on (R.LTH.TAP_CTL.EN n) && d.get (R.LTH.TAP_CTL.DMA_CH n) == c)).length
    + b2n (d.on R.FUS.TAP_CTL.EN && d.get R.FUS.TAP_CTL.DMA_CH == c)
    + b2n (d.on R.CLS.TAP_CTL.EN && d.get R.CLS.TAP_CTL.DMA_CH == c)

/-- A host error in the settings of a channel (R34, R384, R385, R395, R401). -/
def Dev.chErr (d : Dev) (c : Nat) : Option String :=
  let log2 := d.get (R.DMA.CH_RING.LOG2 c)
  if d.chMode c = 3 then some "DMA CTL.MODE is reserved"
  else if d.chMode c ≠ 2 ∧ 2 ≤ d.get (R.DMA.CH_CTL.FSPACE c) then some "DMA CTL.FSPACE is reserved"
  else if d.chMode c = 0 ∧ ¬ (2 ≤ log2 ∧ log2 ≤ 16) then some "DMA RING.LOG2 out of range"
  else if d.chMode c = 2 ∧ ¬ (2 ≤ log2 ∧ log2 ≤ 24) then some "DMA RING.LOG2 out of range"
  else if d.chMode c = 2 ∧ d.get (R.DMA.CH_CTL.RPT_SRC c) ≠ 1 ∧ d.get (R.DMA.CH_CTL.RPT_SRC c) ≠ 2 then some "DMA CTL.RPT_SRC is reserved"
  else if 2 ≤ d.tapsOn c then some "two taps name one DMA channel"
  else none

/-- A command of a channel: a host error in its settings takes effect in it. -/
def onCh (c : Nat) (f : Mem → Dev → Host.Outcome Dev Fault Refusal) (s : State) : Host.Outcome State Fault Refusal :=
  run (fun m d =>
    match (if d.chOn c then d.chErr c else none) with
    | some e => .fault (.hostError e)
    | none => f m d) s

/-! ## States of a channel (R381, R387, R394, R399, R401) -/

/-- A channel halts with a cause; its error event is raised (R394, R397). -/
def halt (c cause : Nat) (d : Dev) : Dev :=
  let d := chState c 4 (put (R.DMA.CH_STATUS.CAUSE c) cause d)
  let d := setCh c { d.chS c with haltReq := false, wait := none } d
  let d := event 0x13 (R.DMA.CH_STATUS.SEQ c) [R.DMA.CH_STATUS.HALTED c] d
  let d := event 0x13 R.DMA.STATUS.SEQ [R.DMA.STATUS.HALT] d
  dmaPerf 8 1 (raise (32 + c) (when (cause != 6) (dmaStat c 2 1) d))

/-- A channel enters LINK_WAIT (R381). DEDUCED (log entry 21): the CAUSE code 0x7 of R401 is shown there, since no halt has it. -/
def linkWait (c : Nat) (d : Dev) : Dev := chState c 5 (put (R.DMA.CH_STATUS.CAUSE c) 7 d)

/-- A channel is to run; a HALT that waits for its next step halts it (R399). -/
def toRun (c : Nat) (d : Dev) : Dev := if (d.chS c).haltReq then halt c 6 d else chState c 2 d

/-- A channel that is enabled leaves state off, and one that is disabled enters it. -/
def chEnable (c : Nat) (d : Dev) : Dev :=
  if d.chOn c then (if d.chState c = 0 then chState c (if d.chMode c = 2 then 2 else 1) d else d)
  else setCh c {} (chState c 0 d)

/-- The done event of a channel (R391, R397). -/
def chDone (c : Nat) (d : Dev) : Dev := raise c (event 0x13 (R.DMA.CH_STATUS.SEQ c) [R.DMA.CH_STATUS.DONE c] d)

/-- Bytes moved by a channel, counted in units of 64 (R401). -/
def countBytes (c n : Nat) (d : Dev) : Dev :=
  let x := d.chS c
  let t := x.rem + n
  dmaPerf 4 (t / 64) (dmaPerf 3 (t / 64) (dmaStat c 1 (t / 64) (setCh c { x with rem := t % 64 } d)))

/-! ## Transfers (R383, R384, R391, R392) -/

/-- A write to host memory, split at Max Payload Size and at 4 KiB boundaries (R383). -/
def hostPieces (mps : Nat) : Nat → Nat → List Byte → List (Nat × List Byte)
  | 0, _, _ => []
  | fuel + 1, a, bs =>
    if bs.isEmpty then []
    else
      let n := min (max 1 mps) (4096 - a % 4096)
      (a, bs.take n) :: hostPieces mps fuel (a + n) (bs.drop n)

/-- Bytes written to a space (R383). -/
def writeSpace (space a : Nat) (bs : List Byte) (d : Dev) : Dev :=
  if space = 0 then each (fun p d => emit (.hostWrite p.1 p.2) d) (hostPieces d.dma.mps (bs.length + 1) (a % 2 ^ 64) bs) d
  else dramWrite a bs d

/-- A read of host memory, split at Max Read Request Size and at 4 KiB boundaries (R383). -/
def readHost (mrrs : Nat) : Nat → Nat → Nat → Dev → Dev
  | 0, _, _, d => d
  | fuel + 1, a, n, d =>
    if n = 0 then d
    else
      let k := min n (min (max 1 mrrs) (4096 - a % 4096))
      readHost mrrs fuel (a + k) (n - k) (emit (.hostRead a k) d)

/-- What a source gives: its bytes, those before a read that fails, or nothing yet. -/
inductive Source' where
  | bytes (bs : List Byte) (trunc : Bool)
  | failed (got : List Byte)
  | notYet
deriving DecidableEq, Repr

/-- The bytes before the first poisoned granule of a DRAM range. -/
def Dev.goodBytes (d : Dev) (m : Mem) (a n : Nat) : List Byte :=
  if d.channels.isEmpty || decide (d.dramEnd < a + n) then []
  else
    let v := d.view m
    let gs := (granules (n / 64 + 2) a n).takeWhile (fun p => v.mark (d.physKey p.1 / 64) == .written)
    gs.flatMap (fun p => (List.range p.2).map (fun i => v.byte (d.physKey p.1 + i)))

/-- The source of a transfer of `n` bytes: host data come with the command, a stream gives one tap line. -/
def sourceOf (m : Mem) (c space a n : Nat) (host : List Byte) (d : Dev) : Source' :=
  match space with
  | 0 => if host.length = n then .bytes host false else .notYet
  | 1 => if (d.dramRead m a n).2 && n != 0 then .failed (d.goodBytes m a n) else .bytes (d.dramRead m a n).1 false
  | _ =>
    match d.streamQ c with
    | [] => .notYet
    | l :: _ => .bytes (l.take n) (decide (n < l.length))

/-- The tap line that a transfer took leaves the stream (R384). -/
def takeStream (c space : Nat) (trunc : Bool) (d : Dev) : Dev :=
  if space = 2 then
    let d := showBuf { d with stream := KMap.put (fun _ => []) d.stream c (d.streamQ c).tail }
    let d := dmaPerf 0xc 1 d
    when trunc (fun d => dmaStat c 6 1 (event 0x13 (R.DMA.CH_STATUS.SEQ c) [R.DMA.CH_STATUS.TRUNC c] d)) d
  else d

/-- The ones'-complement sum of little-endian 16-bit words (R392). -/
def sum16 (s : Nat) : List Byte → Nat
  | [] => s
  | [b] => let t := s + b.toNat; t % 65536 + t / 65536
  | b :: c :: rest => let t := s + b.toNat + 256 * c.toNat; sum16 (t % 65536 + t / 65536) rest

/-- A running check taken on over more bytes: 1 CRC-32C, 2 the sum (R392). -/
def checkOn (kind v : Nat) (bs : List Byte) : Nat :=
  match kind with
  | 1 => (~~~ (bs.foldl (crcByte 0x82f63b78#32) (~~~ (BitVec.ofNat 32 v)))).toNat
  | 2 => sum16 v bs
  | _ => 0

/-- Bytes of a check value as it is stored. -/
def checkBytes (kind v : Nat) : List Byte := match kind with | 1 => leBytes 4 v | 2 => leBytes 2 v | _ => []

/-- The zero-length read of a barrier on a host destination (R391). -/
def barrierRead (a : Nat) (d : Dev) : Dev := dmaPerf 5 1 (emit (.hostRead (a % 2 ^ 64) 0) d)

/-- A destination that a channel can write: the host, or device DRAM below its end. -/
def Dev.dstOk (d : Dev) (space a n : Nat) : Bool := space == 0 || (!d.channels.isEmpty && decide (a + n ≤ d.dramEnd))

/-- A channel can write `n` bytes at `a` and, where it stores a check, its bytes at `a + len` (R392, R394). -/
def Dev.dstOk' (d : Dev) (space a n len chk : Nat) : Bool :=
  (n == 0 || d.dstOk space a n) && (chk == 0 || d.dstOk space (a + len) chk)

/-! ## Descriptor rings (R385, R386) -/

/-- Address of descriptor i of a ring. -/
def Dev.descAddr (d : Dev) (c i : Nat) : Nat := d.get (R.DMA.CH_FBASE.ADDR c) + 32 * (i % 2 ^ d.get (R.DMA.CH_RING.LOG2 c))

/-- The doorbell: a channel that is idle runs (R385). -/
def tail (c n : Nat) (d : Dev) : Dev :=
  let d := put (R.DMA.CH_TAIL.COUNT c) n d
  let d := setCh c { d.chS c with noOwn := false } d
  if d.chOn c && d.chMode c == 0 && d.chState c == 1 && d.get (R.DMA.CH_HEAD.COUNT c) != d.get (R.DMA.CH_TAIL.COUNT c) then toRun c d else d

/-- `TAIL` (R385). -/
def execTail (c : Fin 32) (count : BitVec 32) (s : State) : Host.Outcome State Fault Refusal :=
  total (fun _ d => tail c.val count.toNat d) s

/-- A ring channel with nothing left to do goes idle. -/
def ringIdle (c : Nat) (d : Dev) : Dev :=
  let x := d.chS c
  if d.chState c = 2 ∧ x.fetched.isEmpty ∧ (x.noOwn ∨ d.get (R.DMA.CH_HEAD.COUNT c) = d.get (R.DMA.CH_TAIL.COUNT c)) then chState c 1 d else d

/-- The descriptor that a ring channel fetches next; none when it fetches nothing. -/
def Dev.nextDesc (d : Dev) (c : Nat) : Option Nat :=
  let x := d.chS c
  let i := (d.get (R.DMA.CH_HEAD.COUNT c) + x.fetched.length) % 2 ^ 32
  if d.chMode c = 0 ∧ d.chState c = 2 ∧ x.noOwn = false ∧ x.fetched.length < 4 ∧ i ≠ d.get (R.DMA.CH_TAIL.COUNT c) then some i else none

/-- The next descriptor of a ring is fetched (R385). -/
def descFetch (c : Nat) (host : List Byte) (m : Mem) (d : Dev) : Dev :=
    match d.nextDesc c with
    | none => d
    | some i =>
      let space := d.get (R.DMA.CH_CTL.FSPACE c)
      let a := d.descAddr c i
      if space = 0 ∧ d.hostOk = false then linkWait c d
      else if space = 1 ∧ d.chStalls c = true then stallCh d
      else
        match sourceOf m c space a 32 host d with
        | .notYet => d
        | .failed _ => halt c 9 d
        | .bytes b _ =>
          let d := meterCh c space 32 (when (space == 0) (readHost d.dma.mrrs 64 a 32) d)
          let ctl := fieldAt b 20 4
          if bit ctl 31 then
            setCh c { d.chS c with fetched := (d.chS c).fetched ++
              [{ index := i, src := fieldAt b 0 8, dst := fieldAt b 8 8, len := fieldAt b 16 4 % 2 ^ 24, ctl }] } d
          else ringIdle c (setCh c { d.chS c with noOwn := true } (dmaStat c 5 1 d))

/-- `DESCRIPTOR_FETCH` (R385): `host` is what host memory holds at the descriptor when the ring lies there. -/
def execDescriptorFetch (c : Fin 32) (host : List Byte) (s : State) : Host.Outcome State Fault Refusal :=
  onCh c.val (fun m d => .next (descFetch c.val host m d)) s

/-- The write-back of a descriptor, and HEAD (R385, R386). -/
def writeBack (c : Nat) (x : Desc) (moved cause chk : Nat) (trunc : Bool) (d : Dev) : Dev :=
  let bs := leBytes 4 moved ++ leBytes 4 (x.ctl % 2 ^ 31) ++ leBytes 2 (cause + 256 * b2n trunc) ++ leBytes 2 0 ++ leBytes 4 chk
  let d := meterCh c (d.get (R.DMA.CH_CTL.FSPACE c)) 16 (writeSpace (d.get (R.DMA.CH_CTL.FSPACE c)) (d.descAddr c x.index + 16) bs d)
  let d := setCh c { d.chS c with fetched := (d.chS c).fetched.tail } d
  put (R.DMA.CH_HEAD.COUNT c) (x.index + 1) d

/-- A descriptor needs the host (R381). -/
def Desc.needsHost (x : Desc) (fspace : Nat) : Bool := fspace == 0 || (x.len != 0 && (bits x.ctl 0 2 == 0 || bits x.ctl 2 2 == 0))

/-- A descriptor fails with a cause after some bytes (R394). -/
def descFail (c : Nat) (x : Desc) (got : List Byte) (cause : Nat) (d : Dev) : Dev :=
  let d := meterCh c (bits x.ctl 2 2) got.length (writeSpace (bits x.ctl 2 2) x.dst got d)
  halt c cause (writeBack c x got.length cause 0 false (countBytes c got.length d))

/-- The first fetched descriptor is carried out (R385, R386, R391, R392). -/
def descRun (c : Nat) (x : Desc) (host : List Byte) (m : Mem) (d : Dev) : Dev :=
  let ss := bits x.ctl 0 2
  let ds := bits x.ctl 2 2
  let chk := bits x.ctl 6 2
  match (if x.len = 0 then Source'.bytes [] false else sourceOf m c ss x.src x.len host d) with
  | .notYet => d
  | .failed got => descFail c x got 4 d
  | .bytes bs trunc =>
    let v := checkOn chk 0 bs
    let app := if bit x.ctl 8 && x.len != 0 then checkBytes chk v else []
    if !d.dstOk' ds x.dst bs.length x.len app.length && x.len != 0 then descFail c x [] 5 d
    else
      let d := when (ss == 0 && x.len != 0) (readHost d.dma.mrrs (x.len + 2) x.src x.len) d
      let d := takeStream c (if x.len = 0 then 0 else ss) trunc (meterCh c ss bs.length d)
      let d := writeSpace ds x.dst bs d
      let d := meterCh c ds (bs.length + app.length) (writeSpace ds (x.dst + x.len) app d)
      let d := when (bit x.ctl 4 && ds == 0 && x.len != 0) (barrierRead (x.dst + bs.length + app.length - 1)) d
      let d := writeBack c x bs.length 0 v trunc (countBytes c bs.length d)
      let d := dmaPerf 1 1 (dmaStat c 0 1 d)
      ringIdle c (when (bit x.ctl 5) (chDone c) d)

/-- A response to a request whose timeout has been declared, or that a link-down abandoned, is dropped and counted; it
changes nothing of the channel's present request (R43, R381, R402). LATE_CPL counts those of the host (R400). -/
def lateResponse (c : Nat) (host : Bool) (d : Dev) : Dev :=
  let x := d.chS c
  if host then
    if x.late = 0 then d else dmaPerf 7 1 (hstStat 5 1 (dmaStat c 3 1 (setCh c { x with late := x.late - 1 } d)))
  else if x.lateDram = 0 then d
  else dmaPerf 7 1 (dmaStat c 3 1 (setCh c { x with lateDram := x.lateDram - 1 } d))

/-- The first fetched descriptor needs DRAM: for its ring, its source or its destination. -/
def Desc.needsDram (x : Desc) (fspace : Nat) : Bool := fspace == 1 || (x.len != 0 && (bits x.ctl 0 2 == 1 || bits x.ctl 2 2 == 1))

/-- `DESCRIPTOR_COMPLETE` (R391): `host.bytes` is what a host source returned; `host.answers` tells a response
to a request of the channel that is no longer awaited (R43). A reserved code in a descriptor is a host error (R34). -/
def execDescriptorComplete (c : Fin 32) (host : HostResp) (s : State) : Host.Outcome State Fault Refusal :=
  onCh c.val (fun m d =>
    let c := c.val
    if host.answers ≠ .present then .next (lateResponse c (host.answers == .lateHost) d) else
    match (d.chS c).fetched with
    | [] => .next d
    | x :: _ =>
      if d.chMode c != 0 || d.chState c != 2 || !d.sliceOk c then .next d
      else if x.needsHost (d.get (R.DMA.CH_CTL.FSPACE c)) && !d.hostOk then .next (linkWait c d)
      else if x.needsDram (d.get (R.DMA.CH_CTL.FSPACE c)) && d.chStalls c then .next (stallCh d)
      else if bits x.ctl 0 2 = 3 ∨ 2 ≤ bits x.ctl 2 2 ∨ bits x.ctl 6 2 = 3 then .fault (.hostError "reserved code in a descriptor (R386)")
      else .next (descRun c x host.bytes m d)) s

/-! ## Programs (R387 to R390) -/

/-- `DMA_START` (R387). -/
def dmaStart (c : Nat) (d : Dev) : Dev :=
  if d.chOn c && d.chMode c == 1 then
    let x : ChS := { haltReq := (d.chS c).haltReq, space := d.get (R.DMA.CH_CTL.FSPACE c), rem := (d.chS c).rem, late := (d.chS c).late
                     lateDram := (d.chS c).lateDram }
    toRun c (setCh c x (put (R.DMA.CH_PC.ADDR c) (d.get (R.DMA.CH_FBASE.ADDR c)) d))
  else d
def execDmaStart (c : Fin 32) (s : State) : Host.Outcome State Fault Refusal := total (fun _ d => dmaStart c.val d) s

/-- `DMA_HALT` (R399, R401): a channel in the middle of its work halts, another at its next step. -/
def dmaHalt (c : Nat) (d : Dev) : Dev :=
  match d.chState c with
  | 2 | 3 => halt c 6 d
  | 0 | 4 => d
  | _ => setCh c { d.chS c with haltReq := true } d
def execDmaHalt (c : Fin 32) (s : State) : Host.Outcome State Fault Refusal := total (fun _ d => dmaHalt c.val d) s

/-- `DMA_RESUME` (R381, R394): on a channel neither halted nor in LINK_WAIT it is ignored (R399). -/
def dmaResume (c : Nat) (d : Dev) : Dev :=
  let idle := d.chMode c == 0 && (d.chS c).fetched.isEmpty && d.get (R.DMA.CH_HEAD.COUNT c) == d.get (R.DMA.CH_TAIL.COUNT c)
  if d.chState c == 4 || (d.chState c == 5 && d.hostOk) then
    if !d.sliceOk c && d.get (R.DMA.CH_STATUS.CAUSE c) == 8 && d.chState c == 4 then d
    else if idle then chState c 1 d else toRun c d
  else d
def execDmaResume (c : Fin 32) (s : State) : Host.Outcome State Fault Refusal := total (fun _ d => dmaResume c.val d) s

/-- An instruction of a program (R387). -/
structure Ins where
  op : Nat
  flags : Nat
  arg : Nat
  n : Nat
  a : Nat
  b : Nat
  c : Int
  d : Int
deriving DecidableEq, Repr

/-- The instruction in 32 bytes. -/
def insOf (x : List Byte) : Ins :=
  { op := fieldAt x 0 1, flags := fieldAt x 1 1, arg := fieldAt x 2 2, n := fieldAt x 4 4, a := fieldAt x 8 8, b := fieldAt x 16 8
    c := sgn 32 (fieldAt x 24 4), d := sgn 32 (fieldAt x 28 4) }

/-- An instruction with a known OP and no reserved value in a field that it uses (R388). -/
def Ins.valid (i : Ins) : Bool :=
  match i.op with
  | 0 => true
  | 1 => bits i.arg 0 2 != 3 && decide (bits i.arg 2 2 < 2) && bits i.arg 4 2 != 3
  | 2 => true
  | 3 => decide (1 ≤ bits i.arg 0 3 ∧ bits i.arg 0 3 ≤ 4)
  | 4 => !bit i.flags 2 || decide (bits i.arg 0 2 < 2)
  | 5 => decide (bits i.arg 0 2 < 2)
  | _ => false

/-- The program goes on at an address. -/
def goPc (c a : Nat) (d : Dev) : Dev :=
  let x := d.chS c
  put (R.DMA.CH_PC.ADDR c) (a % 2 ^ 64) (dmaPerf 2 1 (setCh c { x with count := x.count + 1, index := x.index + 1 } d))
def stepPc (c : Nat) (d : Dev) : Dev := goPc c (d.get (R.DMA.CH_PC.ADDR c) + 32) d

/-- A program channel takes the instruction at its PC: `f` when it is a valid one of this OP (R387, R388). An invalid
one halts the channel, and so does a failed fetch. -/
def progStep (c op : Nat) (ins : List Byte) (m : Mem) (f : Ins → Dev → Dev) (d : Dev) : Dev :=
  let x := d.chS c
  if d.chMode c != 1 || (d.chState c != 2 && !(d.chState c == 3 && op == 3)) || decide (65536 ≤ x.count) then d
  else if x.space = 0 ∧ d.hostOk = false then linkWait c d
  else if x.space = 1 ∧ d.chStalls c = true then stallCh d
  else
    let pc := d.get (R.DMA.CH_PC.ADDR c)
    match sourceOf m c x.space pc 32 ins d with
    | .notYet => d
    | .failed _ => halt c 9 d
    | .bytes b _ =>
      let d := meterCh c x.space 32 (when (x.space == 0) (readHost d.dma.mrrs 64 pc 32) d)
      let i := insOf b
      if !i.valid then halt c 3 d else if i.op = op then f i d else d

/-- MOVE (R388, R389, R392). -/
def moveRun (c : Nat) (host : List Byte) (m : Mem) (i : Ins) (d : Dev) : Dev :=
  let x := d.chS c
  let sa := if bit i.flags 0 then i.a else x.sa
  let da := if bit i.flags 1 then i.b else x.da
  let ss := bits i.arg 0 2
  let ds := bits i.arg 2 2
  let chk := bits i.arg 4 2
  if (ss = 0 ∨ ds = 0) ∧ d.hostOk = false ∧ i.n ≠ 0 then linkWait c d
  else if !d.sliceOk c then d
  else if (ss = 1 ∨ ds = 1) ∧ i.n ≠ 0 ∧ d.chStalls c = true then stallCh d
  else
    match (if i.n = 0 then Source'.bytes [] false else sourceOf m c ss sa i.n host d) with
    | .notYet => d
    | .failed got => halt c 4 (countBytes c got.length (meterCh c ds got.length (writeSpace ds da got d)))
    | .bytes bs trunc =>
      let v := if bit i.flags 3 then checkOn chk (d.get (R.DMA.CH_CHK.VALUE c)) bs else d.get (R.DMA.CH_CHK.VALUE c)
      let st := if bit i.flags 4 then checkBytes chk v else []
      if !d.dstOk' ds da bs.length i.n st.length then halt c 5 d
      else
        let d := when (ss == 0 && i.n != 0) (readHost d.dma.mrrs (i.n + 2) sa i.n) d
        let d := takeStream c (if i.n = 0 then 0 else ss) trunc (meterCh c ss bs.length d)
        let d := meterCh c ds (bs.length + st.length) (writeSpace ds (da + i.n) st (writeSpace ds da bs d))
        let d := put (R.DMA.CH_CHK.VALUE c) (if bit i.flags 4 then 0 else v) d
        let d := when (bit i.flags 2 && ds == 0 && i.n != 0) (barrierRead (da + bs.length + st.length - 1)) d
        let d := countBytes c bs.length d
        let d := setCh c { d.chS c with sa := unsgn 64 (sa + i.c), da := unsgn 64 ((da + st.length : Nat) + i.d)
                                        count := if bs.isEmpty then x.count else 0 } d
        let d := stepPc c d
        when (!bs.isEmpty) (fun d => setCh c { d.chS c with count := 0 } d) d

/-- A MOVE at the PC writes into the 8 instructions that the channel has fetched ahead, which is a host error (R387). -/
def Dev.selfWrite (d : Dev) (c : Nat) (ins : List Byte) (m : Mem) : Bool :=
  let x := d.chS c
  let pc := d.get (R.DMA.CH_PC.ADDR c)
  if d.chMode c != 1 || d.chState c != 2 then false
  else
    match sourceOf m c x.space pc 32 ins d with
    | .bytes b _ =>
      let i := insOf b
      let da := if bit i.flags 1 then i.b else x.da
      i.op == 1 && i.valid && bits i.arg 2 2 == x.space && i.n != 0 && decide (pc + 32 < da + i.n ∧ da < pc + 32 * 9)
    | _ => false

/-- `MOVE` (R388): `ins` is the instruction when the program lies in host memory, `host` what a host source returned. -/
def execMove (c : Fin 32) (ins : List Byte) (host : List Byte) (s : State) : Host.Outcome State Fault Refusal :=
  onCh c.val (fun m d =>
    if d.selfWrite c.val ins m then .fault (.hostError "a program writes into the instructions that it has fetched ahead (R387)")
    else .next (progStep c.val 1 ins m (moveRun c.val host m) d)) s

/-- `LOOP` (R388). -/
def loopRun (c : Nat) (i : Ins) (d : Dev) : Dev :=
  let x := d.chS c
  let r := bits i.arg 0 2
  let l := (if nth 0 x.loops r = 0 then max i.n 1 else nth 0 x.loops r) - 1
  let d := setCh c { x with loops := setNth x.loops r l } d
  if l = 0 then stepPc c d else goPc c (unsgn 64 ((d.get (R.DMA.CH_PC.ADDR c) : Int) + 32 * i.c)) d
def execLoopInstr (c : Fin 32) (ins : List Byte) (s : State) : Host.Outcome State Fault Refusal :=
  total (fun m d => progStep c.val 2 ins m (loopRun c.val) d) s

/-- The wait of a channel has ended; the flag that it waited for is cleared (R388). -/
def waitOver (c : Nat) (w : WaitOn) (d : Dev) : Dev :=
  let d := match w with
    | .flag i => put R.DMA.FLAGS.F (d.get R.DMA.FLAGS.F - (if bit (d.get R.DMA.FLAGS.F) i then 2 ^ i else 0)) d
    | _ => d
  stepPc c (chState c 2 (setCh c { d.chS c with wait := none } d))

/-- A condition of WAIT holds (R388). -/
def Dev.waitMet (d : Dev) (c : Nat) : WaitOn → Bool
  | .dt t | .ns t => dtGe d.dt t
  | .stream => !(d.streamQ c).isEmpty
  | .flag i => bit (d.get R.DMA.FLAGS.F) i

/-- `WAIT` (R388): the channel waits, or goes on when its condition holds; on a waiting channel it looks again. -/
def waitRun (c : Nat) (i : Ins) (d : Dev) : Dev :=
  let w := (d.chS c).wait.getD (match bits i.arg 0 3 with
    | 1 => .dt i.a
    | 2 => .stream
    | 3 => .flag (bits i.arg 8 5)
    | _ => .ns (dtAddNs d.dt i.n))
  if d.waitMet c w then waitOver c w d else chState c 3 (setCh c { d.chS c with wait := some w } d)
def execWaitInstr (c : Fin 32) (ins : List Byte) (s : State) : Host.Outcome State Fault Refusal :=
  total (fun m d => progStep c.val 3 ins m (waitRun c.val) d) s

/-- `WAIT_DONE` (R388): DT reaches the end of a wait on time. -/
def execWaitDone (c : Fin 32) (s : State) : Host.Outcome State Fault Refusal :=
  total (fun _ d =>
    match d.chState c.val, (d.chS c.val).wait with
    | 3, some (.dt t) => waitOver c.val (.dt t) (reach t d)
    | 3, some (.ns t) => waitOver c.val (.ns t) (reach t d)
    | _, _ => d) s

/-- `SIGNAL` (R388). -/
def signalRun (c : Nat) (i : Ins) (d : Dev) : Dev :=
  let sp := bits i.arg 0 2
  if bit i.flags 2 && sp == 0 && !d.hostOk then linkWait c d
  else if bit i.flags 2 && sp == 1 && d.chStalls c then stallCh d
  else if bit i.flags 2 && !d.dstOk sp i.a 4 then halt c 5 d
  else
    let d := when (bit i.flags 2) (fun d => meterCh c sp 4 (writeSpace sp i.a (leBytes 4 i.n) d)) d
    let d := when (bit i.flags 1) (fun d => put R.DMA.FLAGS.F (d.get R.DMA.FLAGS.F ||| 2 ^ bits i.arg 8 5) d) d
    stepPc c (when (bit i.flags 0) (chDone c) d)
def execSignal (c : Fin 32) (ins : List Byte) (s : State) : Host.Outcome State Fault Refusal :=
  total (fun m d => progStep c.val 4 ins m (signalRun c.val) d) s

/-- `NEXT` (R388). -/
def nextRun (c : Nat) (i : Ins) (d : Dev) : Dev := goPc c i.a (setCh c { d.chS c with space := bits i.arg 0 2 } d)
def execNextInstr (c : Fin 32) (ins : List Byte) (s : State) : Host.Outcome State Fault Refusal :=
  total (fun m d => progStep c.val 5 ins m (nextRun c.val) d) s

/-- `END` (R388): it sets DONE; the done event is raised by SIGNAL and by completions alone. -/
def endRun (c : Nat) (_ : Ins) (d : Dev) : Dev := event 0x13 (R.DMA.CH_STATUS.SEQ c) [R.DMA.CH_STATUS.DONE c] (chState c 1 (dmaPerf 2 1 d))
def execEndProgram (c : Fin 32) (ins : List Byte) (s : State) : Host.Outcome State Fault Refusal :=
  total (fun m d => progStep c.val 0 ins m (endRun c.val) d) s

/-- `RUNAWAY` (R390): the count of instructions without data has reached 65,536. -/
def execRunaway (c : Fin 32) (s : State) : Host.Outcome State Fault Refusal :=
  total (fun _ d =>
    if d.chMode c.val = 1 ∧ d.chState c.val = 2 ∧ 65536 ≤ (d.chS c.val).count then logEv 0x1388 c.val 2 2 (halt c.val 2 d) else d) s

/-- Flags of channels are set (R388). -/
def flagSet (f : Nat) (d : Dev) : Dev := put R.DMA.FLAGS.F (d.get R.DMA.FLAGS.F ||| f) d

/-- `FLAG_SET` (R388). -/
def execFlagSet (f : BitVec 32) (s : State) : Host.Outcome State Fault Refusal := total (fun _ d => flagSet f.toNat d) s

/-! ## Errors (R393, R394) -/

/-- A request of a channel fails with a cause: in ring mode its descriptor is written back, unless the request was a
fetch; in program mode the PC stays (R394). -/
def reqFail (c : Nat) (fetch : Bool) (got : List Byte) (cause : Nat) (d : Dev) : Dev :=
  match d.chMode c, fetch, (d.chS c).fetched with
  | 0, false, x :: _ => descFail c x (got.take x.len) cause d
  | _, _, _ => halt c cause d

/-- `DMA_TIMEOUT` (R393): a request issued now expires; `got` are the bytes that had arrived. -/
def execDmaTimeout (c : Fin 32) (fetch : Bool) (space : Fin 2) (addr : BitVec 64) (got : List Byte) (s : State) : Host.Outcome State Fault Refusal :=
  total (fun _ d =>
    let c := c.val
    if d.chState c != 2 then d
    else
      let t := clamp 1 16000 (d.get (R.DMA.CH_TMO.US c))
      let d := reachNs d.dt (1000 * t : Nat) d
      let d := logEv 0x1388 (c + 256 * space.val) 2 addr.toNat (dmaPerf 6 1 (reqFail c fetch got 1 d))
      let x := d.chS c
      setCh c (if space = 0 then { x with late := x.late + 1 } else { x with lateDram := x.lateDram + 1 }) d) s

/-- `ERROR_RESPONSE` (R394): cause 4 from a source, 5 from a destination, 9 to a fetch; or a DRAM write's error on
the last beat after completion was signalled. -/
def execErrorResponse (c : Fin 32) (what : DmaErr) (got : List Byte) (s : State) : Host.Outcome State Fault Refusal :=
  total (fun _ d =>
    let c := c.val
    let busy := d.chState c == 2
    match what with
    | .source => if busy then reqFail c false got 4 d else d
    | .destination => if busy then reqFail c false got 5 d else d
    | .fetch => if busy then reqFail c true [] 9 d else d
    | .late =>
      if d.chState c = 0 then d
      else
        let idx := if d.chMode c = 1 then (d.chS c).index else d.get (R.DMA.CH_HEAD.COUNT c)
        let d := puts [(R.DMA.CH_LATE.CAUSE c, 5), (R.DMA.CH_LATE.INDEX c, idx)] (event 0x13 (R.DMA.CH_LATE.SEQ c) [] d)
        halt c 5 (event 0x13 R.DMA.STATUS.SEQ [R.DMA.STATUS.LATE_ERR] d)) s

/-! ## Report channels (R395, R396) -/

/-- The source ring of a report channel: its number, region, entry bytes and write count; none for another code. -/
def Dev.rptSource (d : Dev) (c : Nat) : Option (Nat × Nat × Nat × Nat) :=
  match d.get (R.DMA.CH_CTL.RPT_SRC c) with
  | 1 => some (0, d.get R.MRG.ORING_CTL.RGN, 128, d.get R.MRG.ORING_WR.COUNT)
  | 2 => some (1, d.get R.VRD.TAG_CTL.RGN, 32, d.get R.VRD.TAG_WR.COUNT)
  | _ => none

/-- The entries of a batch go to the host ring. -/
def forward (c base size n : Nat) (m : Mem) : Nat → Nat → Dev → Dev
  | 0, _, d => d
  | k + 1, j, d =>
    let hwr := d.get (R.DMA.CH_RPT_HWR.COUNT c)
    let a := base + size * (j % n)
    let d := writeSpace 0 (d.get (R.DMA.CH_FBASE.ADDR c) + size * (hwr % 2 ^ d.get (R.DMA.CH_RING.LOG2 c))) (d.dramRead m a size).1 d
    forward c base size n m k ((j + 1) % 2 ^ 32) (put (R.DMA.CH_RPT_HWR.COUNT c) (hwr + 1) d)

/-- Bytes that the reads of all report channels may move in a window (R384). -/
def Dev.reportPace (d : Dev) : Nat := windowBudget (d.get (R.TOP.DRAM_GRANT.CEIL 2)) / 2

/-- A report channel moves a batch (R395, R396), unless its reads have to wait for the next window (R384). -/
def reportBatch (c : Nat) (m : Mem) (d : Dev) : Dev :=
  match d.rptSource c with
  | none => d
  | some (ring, rgn, size, w) =>
    let drd := d.get (R.DMA.CH_RPT_DRD.COUNT c)
    let unread := (w + 2 ^ 32 - drd) % 2 ^ 32
    let batch := max 1 (d.get (R.DMA.CH_RPT_CTL.BATCH c))
    let n := (d.region rgn).2 / size
    if d.chMode c != 2 || (d.chState c != 2 && d.chState c != 3) || unread == 0 || n == 0 || !d.sliceOk c then d
    else if !d.hostOk then linkWait c d
    else if d.reportPace ≤ d.ddr.reports then d
    else
      let d := if unread < batch then
          reach (dtAddNs (num d.dma.ringAt (2 ^ 32 * ring + drd % n)) (1000 * d.get (R.DMA.CH_RPT_CTL.MAX_US c) : Nat)) d
        else d
      let used := (d.get (R.DMA.CH_RPT_HWR.COUNT c) + 2 ^ 32 - d.get (R.DMA.CH_RPT_HRD.COUNT c)) % 2 ^ 32
      let k := min (min batch unread) (2 ^ d.get (R.DMA.CH_RING.LOG2 c) - used)
      if k = 0 then chState c 3 d
      else
        -- the entries that the ring has overwritten are lost
        let lost := if n ≤ unread then unread - n + 1 else 0
        let from' := (drd + lost) % 2 ^ 32
        let send := k - min k lost
        let base := (d.region rgn).1
        if (List.range send).any (fun i => (d.dramRead m (base + size * ((from' + i) % 2 ^ 32 % n)) size).2) then halt c 4 d
        else
          let d := forward c base size n m send from' d
          let d := meterUser 2 (size * send) { d with ddr := { d.ddr with reports := d.ddr.reports + size * send } }
          let d := put (R.DMA.CH_RPT_DRD.COUNT c) (from' + send) d
          let d := dmaPerf 0xb lost (dmaStat c 4 lost d)
          let d := writeSpace 0 (d.get (R.DMA.CH_WB.ADDR c)) (leBytes 4 (d.get (R.DMA.CH_RPT_HWR.COUNT c))) d
          chDone c (chState c 2 (dmaPerf 0xa send (countBytes c (size * send) d)))

/-- `REPORT_BATCH` (R395). -/
def execReportBatch (c : Fin 32) (s : State) : Host.Outcome State Fault Refusal :=
  onCh c.val (fun m d => .next (reportBatch c.val m d)) s

/-- At a channel retirement and at a rebase every report channel starts again (R396, R486). -/
def reportRestart (zero : Bool) (d : Dev) : Dev :=
  each (fun c d =>
    match (if d.chMode c = 2 then d.rptSource c else none) with
    | none => d
    | some (_, _, _, w) =>
      let skipped := (w + 2 ^ 32 - d.get (R.DMA.CH_RPT_DRD.COUNT c)) % 2 ^ 32
      let d := if zero then put (R.DMA.CH_RPT_DRD.COUNT c) 0 d
        else dmaPerf 0xb skipped (dmaStat c 4 skipped (put (R.DMA.CH_RPT_DRD.COUNT c) w d))
      event 0x13 (R.DMA.CH_STATUS.SEQ c) [R.DMA.CH_STATUS.RESTART c] d) (List.range 32) d

/-! ## Interrupts (R397, R398) -/

/-- A word of the MSI-X table; every vector is masked until the host unmasks it. -/
def Dev.msixWord (d : Dev) (w : Nat) : Nat := KMap.get (fun k => if k % 4 = 3 then 1 else 0) d.dma.msix w

/-- `MSIX_MESSAGE` (R398): a vector that owes a message sends it after its holdoff, or sets its pending bit. -/
def msixMessage (v : Nat) (d : Dev) : Dev :=
  if !flag d.vecOwed v || !d.hostOk || !d.on R.HST.LINK.MSIX_EN then d
  else
    let hold := d.get (R.HST.VMOD.HOLDOFF_US v)
    let d := match KMap.get (fun _ => (none : Option Nat)) d.dma.sentAt v with
      | some t => if hold = 0 then d else reachNs t (1000 * hold : Nat) d
      | none => d
    let n := num d.dma.coal v
    let d := hstPerf 4 n { d with vecOwed := setFlag v false d.vecOwed, dma := { d.dma with coal := setNum v 0 d.dma.coal } }
    if bit (d.msixWord (4 * v + 3)) 0 || d.dma.fmask then { d with dma := { d.dma with pba := setFlag v true d.dma.pba } }
    else
      let d := { d with dma := { d.dma with pba := setFlag v false d.dma.pba, sentAt := KMap.put (fun _ => none) d.dma.sentAt v (some d.dt) } }
      hstPerf 3 1 (hstStat 0 1 (emit (.msix v (d.msixWord (4 * v) + 2 ^ 32 * d.msixWord (4 * v + 1)) (d.msixWord (4 * v + 2))) d))
def execMsixMessage (v : Fin 64) (s : State) : Host.Outcome State Fault Refusal := total (fun _ d => msixMessage v.val d) s

/-- A pending vector that is unmasked owes its message (PCI Express). -/
def msixUnmask (v : Nat) (d : Dev) : Dev :=
  if flag d.dma.pba v && !bit (d.msixWord (4 * v + 3)) 0 && !d.dma.fmask then
    { d with vecOwed := setFlag v true d.vecOwed, dma := { d.dma with pba := setFlag v false d.dma.pba } }
  else d

/-- The host writes a word of the MSI-X table. -/
def msixWrite (w x : Nat) (d : Dev) : Dev :=
  msixUnmask (w / 4) { d with dma := { d.dma with msix := KMap.put (fun k => if k % 4 = 3 then 1 else 0) d.dma.msix w (x % 2 ^ 32) } }

/-! ## The link (R381) -/

/-- A channel has a host request outstanding or due. -/
def Dev.hostDue (d : Dev) (c : Nat) : Bool :=
  match d.chState c, d.chMode c with
  | 2, 0 => d.get (R.DMA.CH_CTL.FSPACE c) == 0 || ((d.chS c).fetched.head?.map (Desc.needsHost · 1)).getD false
  | 2, 1 => (d.chS c).space == 0
  | 2, 2 | 3, 2 => true
  | _, _ => false

/-- A read of host memory is outstanding on a channel (R381): of a descriptor or an instruction, or of a source. -/
def Dev.hostReads (d : Dev) (c : Nat) : Bool :=
  match d.chMode c with
  | 0 => match (d.chS c).fetched with
    | [] => d.get (R.DMA.CH_CTL.FSPACE c) == 0
    | x :: _ => bits x.ctl 0 2 == 0 && x.len != 0
  | 1 => (d.chS c).space == 0
  | _ => false

/-- A link-down (R381); `busMaster` when only Bus Master Enable was cleared. -/
def linkDown (busMaster : Bool) (d : Dev) : Dev :=
  let d := if busMaster then put R.HST.LINK.BME 0 d
    else
      let d := puts [(R.HST.LINK.SPEED, 0), (R.HST.LINK.WIDTH, 0), (R.HST.LINK.UP, 0), (R.HST.LINK.BME, 0), (R.HST.LINK.MSIX_EN, 0)] d
      { d with vecOwed := [], tim := { d.tim with ptmOn := false }
               dma := { d.dma with msix := [], pba := [], coal := [], fmask := false, mps := 128, mrrs := 512 } }
  let d := hstPerf 5 1 (hstStat 6 1 (event 0x14 R.HST.STATUS.SEQ [R.HST.STATUS.DOWN] d))
  each (fun c d => if d.hostDue c then setCh c { d.chS c with late := (d.chS c).late + b2n (d.hostReads c) } (linkWait c d) else d) (List.range 32) d

/-- `LINK_DOWN` (R381). -/
def execLinkDown (busMaster : Bool) (s : State) : Host.Outcome State Fault Refusal :=
  total (fun _ d => if d.on R.HST.LINK.UP && (!busMaster || d.on R.HST.LINK.BME) then linkDown busMaster d else d) s

/-- `LINK_UP` (R400, R475): the data link is up at a speed and width, once the endpoint trains. -/
def execLinkUp (speed : Fin 4) (width : BitVec 4) (s : State) : Host.Outcome State Fault Refusal :=
  total (fun _ d =>
    if d.on R.HST.LINK.UP || !d.aon.trains then d
    else
      event 0x14 R.HST.STATUS.SEQ [R.HST.STATUS.UP]
        (puts [(R.HST.LINK.SPEED, speed.val + 1), (R.HST.LINK.WIDTH, width.toNat), (R.HST.LINK.UP, 1)] d)) s

/-! ## BAR2 (R380) -/

/-- Memory requests are served: start-up has reached step 7 (R475). -/
def Dev.served (d : Dev) : Bool := decide (7 ≤ d.get R.TOP.STATE.STEP) || d.get R.TOP.STATE.MODE == 3 || d.get R.TOP.STATE.MODE == 2

/-- A range of device DRAM meets a region in force that a unit of the data path uses (R24, R380). -/
def Dev.dataPath (d : Dev) (a n : Nat) : Bool :=
  (List.range 64).any (fun i =>
    let u := d.get (R.TOP.RGN.USE i)
    decide (1 ≤ u ∧ u ≤ 6) && decide (a < (d.region i).1 + (d.region i).2 ∧ (d.region i).1 < a + n) && decide (0 < (d.region i).2))

/-- `BAR2_ACCESS` (R380): a write with its bytes, or a read of a length; `err` is the controller's error answer to a
write. -/
def execBar2Access (off : BitVec 28) (data : Option (List Byte)) (len : Nat) (err : Bool) (s : State) : Host.Outcome State Fault Refusal :=
  run (fun m d =>
    let a := d.get R.HST.APER_BASE.BASE * 2 ^ 20 + off.toNat
    if d.aon.off then .next d else
    let d := hstPerf 2 1 d
    if !d.served then .next (emit (.unsupported 1 off.toNat) d)
    else
      match data with
      | some bs =>
        if d.dramEnd < a + bs.length then .next (busError 1 off.toNat 7 true d)
        else if d.dataPath a bs.length then .fault (.hostError "BAR2 write into a region of the data path (R380)")
        else if err then .next (logEv 0x1401 0 2 a (hstStat 4 1 d))
        else .next (hstStat 3 1 (meterUser 3 bs.length (dramWrite a bs d)))
      | none =>
        if d.dramEnd < a + len then .next (emit (.readAbort 1 off.toNat) (busError 1 off.toNat 7 false d))
        else
          let r := d.dramRead m a len
          .next (hstStat 2 1 (emit (.readDone 1 off.toNat len (leVal r.1) r.2) (meterUser 3 len d)))) s

end Sys2Proof.Machine
end

