-- ==== Sys2Proof/Machine/Classify.lean ====
section
/-!
DEFINITION. The classifier, the run encoder, the distribution of records to the gouges, and the tile store
(R229 to R251).
-/

namespace Sys2Proof.Machine

/-- A composite line on its way to the classifier: its pixels and the padding positions of its last group (R215,
R217). -/
structure CompLine where
  lsn : Nat
  e : Nat
  flags : Nat
  px : List Px
  pad : List Px := []
deriving DecidableEq, Repr

/-- First word of each table window of the classifier within its bank (R264). -/
def clsRules : Nat := 1024
def clsNodes : Nat := 2048
def clsLeaves : Nat := 2112
def clsLut : Nat := 4096

/-! ## The class of a pixel (R230 to R235) -/

/-- A channel value of a pixel; 0 at or beyond NCH + 1. -/
def Px.chan (p : Px) (nc k : Nat) : Nat := if k < nc then nth 0 p.ch k else 0

/-- Projection j of a pixel (R230). -/
def project (d : Dev) (nc : Nat) (p : Px) (j : Nat) : Nat :=
  let acc := sumInt ((List.range 16).map (fun k => sgn 16 (d.actHalf 9 (16 * j + k / 2) (k % 2)) * (p.chan nc k : Int)))
  let sh := d.actWord 9 (16 * j + 9) % 32
  let acc := if sh = 0 then acc else acc + (2 ^ (sh - 1) : Nat)
  (clampI 0 65535 (fdiv acc (2 ^ sh) + sgn 32 (d.actWord 9 (16 * j + 8)))).toNat

/-- The class of the 3D LUT (R232). -/
def lutClass (d : Dev) (pr : List Nat) : Nat :=
  let n := 4096 * (nth 0 pr (d.get R.CLS.DEC_CTL.LUT_A) / 1024) + 64 * (nth 0 pr (d.get R.CLS.DEC_CTL.LUT_B) / 1024)
    + nth 0 pr (d.get R.CLS.DEC_CTL.LUT_C) / 1024
  bits (d.actWord 9 (clsLut + n / 8)) (4 * (n % 8)) 4

/-- One axis of a rule: projection, centre, half-width and scale, when it is enabled (R264). -/
def ruleAxis (d : Dev) (r i : Nat) : Option (Nat × Nat × Nat × Nat) :=
  let w := clsRules + 16 * r + 4 + 3 * i
  let a := d.actWord 9 w
  if bit a 7 then some (a % 8, bits a 16 16, d.actHalf 9 (w + 1) 0, d.actWord 9 (w + 2)) else none

/-- The enabled axes of a rule. -/
def ruleAxes (d : Dev) (r : Nat) : List (Nat × Nat × Nat × Nat) := (List.range 4).filterMap (ruleAxis d r)

/-- A rule matches (R233). -/
def ruleMatches (d : Dev) (pr : List Nat) (r : Nat) : Bool :=
  let w := d.actWord 9 (clsRules + 16 * r)
  let dist (a : Nat × Nat × Nat × Nat) : Nat :=
    let p := nth 0 pr a.1
    if a.2.1 ≤ p then p - a.2.1 else a.2.1 - p
  bit w 0 &&
    (if bit w 1 then
      decide (sumNat ((ruleAxes d r).map (fun a => dist a * dist a * a.2.2.2 / 65536)) ≤ 65536)
    else (ruleAxes d r).all (fun a => decide (dist a ≤ a.2.2.1)))

/-- The class of the threshold tree from node n (R234). -/
def treeClass (d : Dev) (pr : List Nat) : Nat → Nat → Nat
  | 0, n => d.actWord 9 (clsLeaves + (n - 63)) % 16
  | k + 1, n =>
    let w := d.actWord 9 (clsNodes + n)
    if bit w 19 then bits w 20 4
    else if nth 0 pr (bits w 16 3) < w % 65536 then treeClass d pr k (2 * n + 1)
    else treeClass d pr k (2 * n + 2)

/-- The better of two candidates: higher rank, then lower class (R235). -/
def better (d : Dev) (a b : Nat) : Nat :=
  let ra := bits (d.get R.CLS.PRIO.RANK) (4 * a) 4
  let rb := bits (d.get R.CLS.PRIO.RANK) (4 * b) 4
  if ra < rb then b else if rb < ra then a else min a b

/-- Candidates of a pixel and the number of rules that matched (R235). -/
def candidates (d : Dev) (pr : List Nat) : List Nat × Nat :=
  let hits := if d.on R.CLS.DEC_CTL.RULE_EN then (List.range 32).filter (ruleMatches d pr) else []
  ((if d.on R.CLS.DEC_CTL.LUT_EN then [lutClass d pr] else [])
    ++ (if d.on R.CLS.DEC_CTL.TREE_EN then [treeClass d pr 6 0] else [])
    ++ hits.map (fun r => bits (d.actWord 9 (clsRules + 16 * r)) 4 4), hits.length)

/-- Class of a pixel, with the rule matches it counted and whether MISS_MODE decided (R231, R235). -/
def classOf (d : Dev) (nc : Nat) (p : Px) : Nat × Nat × Bool :=
  if bit p.flags 0 && d.on R.CLS.CTL.MISS_MODE then (d.get R.CLS.CTL.MISS_CLASS, 0, true)
  else
    let pr := (List.range 8).map (project d nc p)
    let c := candidates d pr
    match c.1 with
    | [] => (d.get R.CLS.DEC_CTL.DEFAULT, c.2, false)
    | x :: xs => (xs.foldl (better d) x, c.2, false)

/-- An enabled rule in force has fewer than two axes: a host error (R233). -/
def Dev.badRule (d : Dev) : Bool :=
  d.on R.CLS.DEC_CTL.RULE_EN
    && (List.range 32).any (fun r => bit (d.actWord 9 (clsRules + 16 * r)) 0 && decide ((ruleAxes d r).length < 2))

/-! ## Runs (R239 to R242) -/

/-- A class is foreground (R239). -/
def Dev.isFg (d : Dev) (c : Nat) : Bool := c != 0 && bit (d.get R.CLS.RUN_CTL.FG) c

/-- Spans of equal foreground class: start column, class and pixels, leftmost first. -/
def spans (d : Dev) : Nat → List (Px × Nat) → List (Nat × Nat × List Px)
  | _, [] => []
  | col, (p, c) :: rest =>
    let more := spans d (col + 1) rest
    if d.isFg c then
      match more with
      | (s, k, ps) :: tl => if s = col + 1 ∧ k = c then (col, c, p :: ps) :: tl else (col, c, [p]) :: more
      | [] => [(col, c, [p])]
    else more

/-- The run record of a span (R240, R522). -/
def runOf (d : Dev) (lsn nc : Nat) (sp : Nat × Nat × List Px) : RunRec :=
  let ps := sp.2.2
  let or' (i : Nat) : Bool := ps.any (fun p => bit p.flags i)
  let ch (i : Nat) : Nat := bits (d.get R.CLS.SUM_CTL.CH) (4 * i) 4
  let en (i : Nat) : Bool := bit (d.get R.CLS.SUM_CTL.EN) i
  let vals (i : Nat) : List Nat := ps.map (fun p => p.chan nc (ch i))
  { lsn, start := sp.1, len := ps.length
    cf := sp.2.1 + 16 * b2n (or' 1) + 32 * b2n (or' 3) + 64 * b2n (or' 0) + 128 * b2n (or' 2)
    chPres := (List.range nc).foldl (fun m k => if ps.any (fun p => !bit p.miss k) then m + 2 ^ k else m) 0
    leadT := match ps.find? (fun p => bit p.flags 3) with
      | some p => p.leadT
      | none => 0
    sum := (List.range 4).map (fun i => if en i then sumNat (vals i) % 2 ^ 32 else 0)
    ext := if d.get R.CLS.SUM_CTL.EN = 0 then none
      else some ((List.range 4).map (fun i => if en i then (vals i).foldl min 65535 else 0),
                 (List.range 4).map (fun i => if en i then (vals i).foldl max 0 else 0)) }

/-! ## Distribution, spill and journal (R243 to R246) -/

/-- FIFO level of a gouge in its register. -/
def showFifo (g : Nat) (d : Dev) : Dev :=
  let n := (d.gouS g).fifo.length
  peak (R.GGE.FIFO.PEAK g) n (put (R.GGE.FIFO.LEVEL g) n d)

/-- The done line of a strip (R270). -/
def setDone (s lsn : Nat) (d : Dev) : Dev :=
  put (R.MRG.STRIP_DONE.LSN s) lsn { d with mrg := { d.mrg with done := KMap.put (fun _ => none) d.mrg.done s (some lsn) } }

/-- Records of an entry that go to the journal only are counted (R244). -/
def journalOnlyCount (r : GRec) (d : Dev) : Dev :=
  match r with
  | .run x => clsPerf 5 (if x.ext.isSome then 2 else 1) (clsStat 4 1 d)
  | .fin _ => clsPerf 5 1 d

/-- Every open component of a gouge is marked CAPPED (R245, R246). -/
def capOpen (g : Nat) (d : Dev) : Dev :=
  let x := d.gouS g
  setGou g { x with comps := x.comps.map (fun c => { c with flags := c.flags ||| 32 }) } d

/-- A record reaches the FIFO of a gouge; a clock-gated gouge restarts (R244, R260). -/
def pushFifo (g idx : Nat) (r : GRec) (d : Dev) : Dev :=
  let x := d.gouS g
  let d := setGou g { x with fifo := x.fifo ++ [(idx, r)], idle := 0, gatedFor := 0 } d
  let d := when (d.get (R.GGE.STATUS.STATE g) == 2) (put (R.GGE.STATUS.STATE g) 1) d
  showFifo g d

/-- A record of strip s that a fed gouge cannot take without a journal is dropped (R245). -/
def dropRec (s g : Nat) (r : GRec) (d : Dev) : Dev :=
  let x := d.stripS s
  let d := when (!x.dropping) (capOpen g) d
  let d := setStrip s { d.stripS s with dropping := true } d
  match r with
  | .run _ => clsStat 4 1 d
  | .fin _ => d

/-- One line passes a gouge that sleeps or has nothing to do (R260, R261). -/
def idleLine (g : Nat) (d : Dev) : Dev :=
  let x := d.gouS g
  let gated := d.get (R.GGE.STATUS.STATE g) == 2 || d.get (R.GGE.STATUS.STATE g) == 3
  setGou g { x with idle := x.idle + 1, gatedFor := if gated then x.gatedFor + 1 else x.gatedFor } d

/-- A gouge has no open component and an empty FIFO: it skips END records (R260). -/
def GouS.asleep (x : GouS) : Bool := x.fifo.isEmpty && x.comps.isEmpty && x.owed.isEmpty && x.cur.isEmpty

/-- One record of a strip goes to its gouge (R244, R260). A power-gated gouge that spills stays gated until its group
wakes (R261); a spilling gouge whose journal is no longer kept takes nothing new until it is fed again (R245). -/
def deliver (s idx : Nat) (r : GRec) (d : Dev) : Dev :=
  let x := d.stripS s
  match d.placed s with
  | none => journalOnlyCount r d
  | some g =>
    let y := d.gouS g
    if x.journalOnly && !y.replay then journalOnlyCount r d
    else if y.spill then
      if d.jrnOk then journalOnlyCount r (setGou g { y with idle := 0 } d) else dropRec s g r d
    else
      match r, y.asleep with
      | .fin f, true => setDone s f.lsn (idleLine g (setGou g { y with lastEnd := some idx } d))
      | _, _ =>
        let full := decide (2048 ≤ y.fifo.length)
        if d.jrnOk then
          if full then
            journalOnlyCount r (when (d.get (R.GGE.STATUS.STATE g) != 3) (put (R.GGE.STATUS.STATE g) 6) (setGou g { y with spill := true, rd := idx } d))
          else pushFifo g idx r d
        else if full || (x.dropping && (match r with | .run _ => true | .fin _ => false)) then dropRec s g r d
        else pushFifo g idx r (setStrip s { x with dropping := false } d)

/-- The journal became unavailable: status and log, once (R245). -/
def noteNoJournal (d : Dev) : Dev :=
  if d.jrnOk then { d with cls := { d.cls with noJournal := false } }
  else if d.cls.noJournal then d
  else logEv 0x0c8b 0 2 0 (event 12 R.CLS.STATUS.SEQ [R.CLS.STATUS.JRN_OVR] { d with cls := { d.cls with noJournal := true } })

/-- One record is distributed: it is appended to the journal and delivered (R243, R245). -/
def distribute (s : Nat) (r : GRec) (d : Dev) : Dev :=
  let d := noteNoJournal d
  let idx := (d.stripS s).wr
  let d := if d.jrnOk then each (appendRec s) (grecBytes s r) d else d
  let d := deliver s idx r d
  showPtrs s d

/-- The runs and the END record of one strip, given how many runs the line may still emit and whether a run
was dropped before (R241, R242). Answers runs left and RUN_CAP. -/
def emitStrip (l : CompLine) (nc s : Nat) (cs : List (Px × Nat)) (st : Nat × Bool) (d : Dev) : Dev × (Nat × Bool) :=
  let rs := spans d 0 cs
  let kept := rs.take st.1
  let cut := rs.length - kept.length
  let cap := st.2 || decide (0 < cut)
  let d := clsPerf 2 kept.length (clsStat 1 kept.length d)
  let d := clsPerf 3 cut (clsStat 2 cut d)
  let d := each (fun r => distribute s (.run (runOf d l.lsn nc r))) kept d
  let f : EndRec := { lsn := l.lsn, lf := 16 * b2n cap, nruns := kept.length, e := l.e, cflags := l.flags }
  (distribute s (.fin f) (clsPerf 4 1 d), (st.1 - kept.length, cap))

/-- All strips of a line in ascending order. -/
def emitStrips (l : CompLine) (nc : Nat) : Nat → Nat → List (Px × Nat) → Nat × Bool → Dev → Dev × Bool
  | 0, _, _, st, d => (d, st.2)
  | k + 1, s, cs, st, d =>
    let w := d.stripCols s
    let r := emitStrip l nc s (cs.take w) st d
    emitStrips l nc k (s + 1) (cs.drop w) r.2 r.1

/-! ## The tile store (R247 to R251) -/

/-- Bytes per pixel of a tile. -/
def Dev.bpp (d : Dev) : Nat := d.get R.CLS.TILE_CTL.BPP + 1
/-- Slots per tile row. -/
def Dev.tpr (d : Dev) : Nat := cdiv d.width 32
/-- Bytes of the tag array. -/
def Dev.tagBytes (d : Dev) : Nat := cdiv (8 * (d.get R.CLS.TILE_CTL.ROWS * d.tpr)) 4096 * 4096
/-- Slot number of tile row r and tile column t (R250). -/
def Dev.tileSlot (d : Dev) (r t : Nat) : Nat := r % max 1 (d.get R.CLS.TILE_CTL.ROWS) * d.tpr + t

/-- Tile byte b of a pixel with its class (R247). -/
def tileByte (d : Dev) (nc b : Nat) (p : Px × Nat) : Byte :=
  let src := bits (d.get R.CLS.TILE_SRC.SRC) (8 * b) 8
  let v := p.1.chan nc (src % 16)
  BitVec.ofNat 8 (match bits src 4 2 with
    | 0 => v / 256
    | 1 => v / 16
    | 2 => v
    | _ => p.2 % 16)

/-- The tile bytes of a line, per tile column. -/
def tileLine (d : Dev) (nc : Nat) (cs : List (Px × Nat)) : List (List Byte) :=
  (piecesOf 32 (cs.length + 1) cs).map (fun g => g.flatMap (fun p => (List.range d.bpp).map (fun b => tileByte d nc b p)))

/-- ROW and LINES of a slot's tag. -/
def Dev.tileTag (d : Dev) (k : Nat) : Option (Nat × Nat) := KMap.get (fun _ => none) d.cls.tileRow k

/-- The slice of line n is already stored. -/
def Dev.tileHas (d : Dev) (n t : Nat) : Bool :=
  match d.tileTag (d.tileSlot (n / 32) t) with
  | some (r, ls) => r == n / 32 % 2 ^ 32 && bit ls (n % 32)
  | none => false

/-- The slice of line n in tile column t is written, its tag after it; skipped while the store yields (R250,
R251). -/
def writeSlice (n t : Nat) (bs : List Byte) (d : Dev) : Dev :=
  let k := d.tileSlot (n / 32) t
  let skipped := KMap.get (fun _ => (none : Option Nat)) d.cls.tileSkip k == some (n / 32)
  if skipped then clsPerf 9 1 (clsStat 7 1 d)
  else if d.yields 4 || !d.mayUse 3 (d.get R.CLS.TILE_CTL.RGN) 6 || (d.region (d.get R.CLS.TILE_CTL.RGN)).2 == 0 then
    let d := when (d.yields 4) (holdUser 4) d
    clsPerf 9 1 (clsStat 7 1 { d with cls := { d.cls with tileSkip := KMap.put (fun _ => none) d.cls.tileSkip k (some (n / 32)) } })
  else
    let base := (d.region (d.get R.CLS.TILE_CTL.RGN)).1
    let row := n / 32 % 2 ^ 32
    let old := match d.tileTag k with
      | some (r, ls) => if r = row then ls else 0
      | none => 0
    let ls := old ||| 2 ^ (n % 32)
    let d := dramWrite (base + d.tagBytes + k * 1024 * d.bpp + 32 * (n % 32) * d.bpp) bs d
    let d := meterUser 4 (bs.length + 8) (dramWrite (base + 8 * k) (leBytes 4 row ++ leBytes 4 ls) d)
    clsPerf 7 1 (clsStat 5 1 { d with cls := { d.cls with tileRow := KMap.put (fun _ => none) d.cls.tileRow k (some (row, ls)) } })

/-- A tile column at line n: it may become active, write what its history holds, and write its slice (R248). -/
def tileColumn (n : Nat) (fg : List Nat) (bytes : List (List Byte)) (t : Nat) (d : Dev) : Dev :=
  let near := fg.any (fun u => decide (u ≤ t + 1 ∧ t ≤ u + 1))
  let last := KMap.get (fun _ => (none : Option Nat)) d.cls.tileFg t
  let was := match last with
    | some l => decide (n / 32 ≤ l / 32 + 1)
    | none => false
  let d :=
    if near && !was then
      let from' := 32 * (n / 32 - 1)
      each (fun l d =>
        match d.cls.hist.find? (fun h => h.1 == l) with
        | some h => if d.tileHas l t then d else clsPerf 8 1 (clsStat 6 1 (writeSlice l t (nth [] h.2 t) d))
        | none => d) ((List.range (n - from')).map (· + from')) d
    else d
  let d := if near then { d with cls := { d.cls with tileFg := KMap.put (fun _ => none) d.cls.tileFg t (some n) } } else d
  if near || was then writeSlice n t (nth [] bytes t) d else d

/-- The tile store takes a classified line. -/
def tileStore (n nc : Nat) (cs : List (Px × Nat)) (d : Dev) : Dev :=
  if d.on R.CLS.TILE_CTL.EN then
    let bytes := tileLine d nc cs
    let fg := (List.range d.tpr).filter (fun t => ((cs.drop (32 * t)).take 32).any (fun p => d.isFg p.2))
    let d := each (tileColumn n fg bytes) (List.range d.tpr) d
    { d with cls := { d.cls with hist := ((n, bytes) :: d.cls.hist).take 64 } }
  else d

/-! ## Tap T5 and a whole line -/

/-- The header of a T4 or T5 tap line (R223). -/
def compHeader (l : CompLine) (nch tap done first count seq : Nat) : List Byte :=
  let h := leBytes 4 l.lsn ++ leBytes 2 l.flags ++ leBytes 1 nch ++ leBytes 1 tap ++ leBytes 8 l.e ++ leBytes 8 done
    ++ leBytes 4 first ++ leBytes 4 count ++ leBytes 4 seq ++ List.replicate 24 0#8
  h ++ leBytes 4 (crc32c h)

/-- Classes two to a byte (R237). -/
def nibbles : List Nat → List Byte
  | [] => []
  | [a] => [BitVec.ofNat 8 a]
  | a :: b :: rest => BitVec.ofNat 8 (a + 16 * b) :: nibbles rest

/-- The classifier drops a T5 line (R237). -/
def clsTapDrop (d : Dev) : Dev := clsPerf 0xc 1 (clsStat 10 1 (event 12 R.CLS.STATUS.SEQ [R.CLS.STATUS.TAP_DROP] d))

/-- Tap T5 (R237). -/
def tapT5 (l : CompLine) (cs : List Nat) (d : Dev) : Dev :=
  let d :=
    if d.recTakes 5 then
      recPut { tap := 5, src := 0xff, lathe := 0, lsn := l.lsn, dtExp := l.e, flags := l.flags
               pieces := [{ plane := 0, first := 0, pflag := 0, samples := cs }] } d
    else d
  if d.on R.CLS.TAP_CTL.EN then
    if d.cls.tapN < d.get R.CLS.TAP_CTL.DECIM then { d with cls := { d.cls with tapN := d.cls.tapN + 1 } }
    else
      let first := min (d.get R.CLS.TAP_WIN.FIRST) cs.length
      let xs := (cs.drop first).take (d.get R.CLS.TAP_CNT.COUNT)
      let bs := pad64 (compHeader l 0 5 d.dt first xs.length d.cls.tapSeq ++ nibbles xs)
      let d := { d with cls := { d.cls with tapN := 0, tapSeq := (d.cls.tapSeq + 1) % 2 ^ 32 } }
      let ch := d.get R.CLS.TAP_CTL.DMA_CH
      if d.streamRoom ch bs.length then streamPut ch bs d else clsTapDrop d
  else d

/-- The first line n of a composite block reaches the classifier (R37, R236). The gouges take GG_MAX with the lines of
its block. -/
def clsBoundary (n : Nat) (d : Dev) : Dev :=
  let was := d.get R.CLS.GG_MAX.LINES
  let d := applyPend (inRange 0xc00000 0x1000 .block) (boundarySwap .cls d)
  if d.get R.CLS.GG_MAX.LINES = was then d else { d with cls := { d.cls with maxWas := ((n, was) :: d.cls.maxWas).take 64 } }

/-- GG_MAX for line n: the value of its own block (R37, R257). -/
def Dev.maxLines (d : Dev) (n : Nat) : Nat :=
  match (d.cls.maxWas.filter (fun e => decide (lsnDiff n e.1 < 0))).getLast? with
  | some e => e.2
  | none => d.get R.CLS.GG_MAX.LINES

/-- A composite line passes the classifier and the run encoder (R229 to R251). -/
def classifyLine (l : CompLine) (d : Dev) : Dev :=
  if !d.on R.CLS.CTL.EN then d
  else
    let n := d.cls.lines
    let nc := d.get R.FUS.CTL.NCH + 1
    let lost := d.cls.badPx
    let res := (l.px.zip (List.range l.px.length)).map (fun p =>
      if lost.any (fun b => decide (b.1 ≤ p.2 ∧ p.2 < b.1 + b.2)) then (0, (classOf d nc p.1).2) else classOf d nc p.1)
    let d := { d with cls := { d.cls with badPx := [] } }
    let cls := res.map (·.1)
    let cs := l.px.zip cls
    let miss := (res.filter (·.2.2)).length
    let d := clsPerf 1 1 (clsStat 0 1 d)
    let d := clsPerf 0xa miss (clsStat 9 miss d)
    let d := clsPerf 0xb (sumNat (res.map (·.2.1))) d
    let d := slot 12 0xc00000 1 (l.pad.filter (fun p => bit p.flags 4)).length (slot 12 0xc00000 0 l.px.length d)
    let d := { d with cls := { d.cls with lines := n + 1 } }
    let r := emitStrips l nc d.nstrips 0 cs (max 1 (d.get R.CLS.RUN_CTL.LINE_MAX), false) d
    let d := when r.2 (fun d => clsStat 3 1 (event 12 R.CLS.STATUS.SEQ [R.CLS.STATUS.RUN_CAP] d)) r.1
    tapT5 l cls (tileStore (n % 2 ^ 32) nc cs d)

end Sys2Proof.Machine
end

