-- ==== Sys2Proof/Machine/Codec.lean ====
section
/-!
DEFINITION. The line codec (R403 to R409): prediction, residuals, blocks of 64 samples, and the form of a coded
record (R410).
-/

namespace Sys2Proof.Machine

/-- The neighbours a, b and c of a sample of depth `dp` (R404): `prev` is the sample before it, `ref` the sample of
the reference line at its place, `refPrev` the one before that. -/
def neighbours (dp : Nat) (prev ref refPrev : Option Nat) : Nat × Nat × Nat :=
  match prev, ref with
  | none, some b => (b, b, b)
  | none, none => (2 ^ (dp - 1), 2 ^ (dp - 1), 2 ^ (dp - 1))
  | some a, some b => (a, b, refPrev.getD b)
  | some a, none => (a, a, a)

/-- The predictor (R404). -/
def predictor (pred : Nat) (n : Nat × Nat × Nat) : Int :=
  let a : Int := n.1
  let b : Int := n.2.1
  let c : Int := n.2.2
  match pred with
  | 0 => a
  | 1 => b
  | _ => if max a b ≤ c then min a b else if c ≤ min a b then max a b else a + b - c

/-- The residual of a sample, wrapped into `dp` bits and mapped (R405). -/
def residual (dp : Nat) (p : Int) (s : Nat) : Nat :=
  let e := sgn dp (unsgn dp ((s : Int) - p))
  if 0 ≤ e then (2 * e).toNat else (-2 * e - 1).toNat

/-- A sample from its prediction and its mapped residual (R405). -/
def restore (dp : Nat) (p : Int) (m : Nat) : Nat :=
  let e : Int := if m % 2 = 0 then (m / 2 : Nat) else -(((m + 1) / 2 : Nat) : Int)
  unsgn dp (p + e)

/-- The samples of a line with their mapped residuals. `ref` is what is left of the reference line, if there is
one. -/
def residuals (dp pred : Nat) : Option Nat → Option Nat → Option (List Nat) → List Nat → List (Nat × Nat)
  | _, _, _, [] => []
  | prev, refPrev, ref, s :: xs =>
    let b := ref.bind List.head?
    (s, residual dp (predictor pred (neighbours dp prev b refPrev)) s) ::
      residuals dp pred (some s) b (ref.map List.tail) xs

/-- The low `n` bits of a value, least significant first. -/
def lowBits : Nat → Nat → List Bool
  | 0, _ => []
  | n + 1, v => (v % 2 == 1) :: lowBits n (v / 2)

/-- The value of bits, least significant first. -/
def bitsVal : List Bool → Nat
  | [] => 0
  | b :: bs => b2n b + 2 * bitsVal bs

/-- Bits packed from bit 0 of each byte, with 0 bits at the end (R406). -/
def packBits (bs : List Bool) : List Byte :=
  (piecesOf 8 (bs.length / 8 + 1) bs).map (fun p => BitVec.ofNat 8 (bitsVal p))

/-- The Rice code of a sample (R407). -/
def riceBits (dp k : Nat) (e : Nat × Nat) : List Bool :=
  let q := e.2 / 2 ^ k
  if q ≤ 3 then List.replicate q true ++ [false] ++ lowBits k e.2
  else List.replicate 4 true ++ lowBits dp e.1

/-- K of a block of n samples whose mapped residuals sum to S: the smallest k from `k` on, at most `top` (R408). -/
def riceK (n S top : Nat) : Nat → Nat → Nat
  | 0, k => k
  | fuel + 1, k => if top ≤ k ∨ S ≤ n * 2 ^ k then k else riceK n S top fuel (k + 1)

/-- What a coded block counts: escapes, flat blocks, raw blocks. -/
structure Coded where
  bytes : List Byte := []
  escapes : Nat := 0
  flat : Nat := 0
  raw : Nat := 0
deriving DecidableEq, Repr

def Coded.add (x y : Coded) : Coded :=
  { bytes := x.bytes ++ y.bytes, escapes := x.escapes + y.escapes, flat := x.flat + y.flat, raw := x.raw + y.raw }

/-- The header byte of a block (R406). -/
def blockHead (pred k mode : Nat) : Byte := BitVec.ofNat 8 (pred + 4 * k + 64 * mode)

/-- One block (R406 to R408). -/
def codeBlock (dp pred : Nat) (raw : Bool) (xs : List (Nat × Nat)) : Coded :=
  let S := sumNat (xs.map Prod.snd)
  if raw then { bytes := blockHead 0 0 1 :: packBits (xs.flatMap (fun e => lowBits dp e.1)), raw := 1 }
  else if S = 0 then { bytes := [blockHead pred 0 2], flat := 1 }
  else
    let k := riceK xs.length S (min 14 dp) 15 0
    { bytes := blockHead pred k 0 :: packBits (xs.flatMap (riceBits dp k))
      escapes := (xs.filter (fun e => decide (4 ≤ e.2 / 2 ^ k))).length }

/-- A coded line of samples of depth `dp`. -/
def codeLine (dp pred : Nat) (raw : Bool) (ref : Option (List Nat)) (xs : List Nat) : Coded :=
  ((piecesOf 64 (xs.length / 64 + 1) (residuals dp pred none none ref xs)).map (codeBlock dp pred raw)).foldl Coded.add {}

/-- The bound of R409 on a coded line of n samples. -/
def codedBound (dp n : Nat) (raw : Bool) : Nat :=
  cdiv n 64 + cdiv (n * (if raw then dp else dp + 4)) 8

/-! ## The decoder -/

/-- The bits of bytes, bit 0 of each first. -/
def bitsOf (bs : List Byte) : List Bool := bs.flatMap (fun b => lowBits 8 b.toNat)

/-- One-bits at the front, up to four. -/
def leadOnes : Nat → List Bool → Nat
  | fuel + 1, true :: bs => leadOnes fuel bs + 1
  | _, _ => 0

/-- Takes a value of n bits. -/
def takeBits (n : Nat) (bs : List Bool) : Option (Nat × List Bool) :=
  if bs.length < n then none else some (bitsVal (bs.take n), bs.drop n)

/-- One sample of a block: `p` is its prediction. -/
def decodeSample (dp k mode : Nat) (p : Int) (bs : List Bool) : Option (Nat × List Bool) :=
  match mode with
  | 1 => takeBits dp bs
  | 2 => some (restore dp p 0, bs)
  | _ =>
    let q := leadOnes 4 bs
    if q = 4 then takeBits dp (bs.drop 4)
    else
      match bs.drop q with
      | false :: rest => (takeBits k rest).map (fun r => (restore dp p (q * 2 ^ k + r.1), r.2))
      | _ => none

/-- Where the decoder stands in a line: samples so far, newest first, and what is left of the reference line. -/
structure DecPos where
  done : List Nat := []
  refPrev : Option Nat := none
  ref : Option (List Nat) := none
deriving DecidableEq, Repr

/-- The samples of one block. -/
def decodeSamples (dp pred k mode : Nat) : Nat → DecPos → List Bool → Option (DecPos × List Bool)
  | 0, x, bs => some (x, bs)
  | n + 1, x, bs =>
    let b := x.ref.bind List.head?
    let p := predictor pred (neighbours dp x.done.head? b x.refPrev)
    match decodeSample dp k mode p bs with
    | none => none
    | some (s, rest) => decodeSamples dp pred k mode n { done := s :: x.done, refPrev := b, ref := x.ref.map List.tail } rest

/-- The blocks of a line of `n` samples; none for a reserved MODE or PRED, for a K beyond 14, or when the bytes end
before the samples do (R420). -/
def decodeBlocks (dp : Nat) : Nat → Nat → DecPos → List Byte → Option (List Nat)
  | 0, _, _, _ => none
  | fuel + 1, n, x, bs =>
    if n = 0 then some x.done.reverse
    else
      match bs with
      | [] => none
      | h :: rest =>
        let pred := h.toNat % 4
        let k := h.toNat / 4 % 16
        let mode := h.toNat / 64
        if pred = 3 ∨ mode = 3 ∨ 14 < k then none
        else
          let m := min 64 n
          let field := rest.take (m * (max dp k + 4) / 8 + 1)
          match decodeSamples dp pred k mode m x (bitsOf field) with
          | none => none
          | some (y, left) => decodeBlocks dp fuel (n - m) y (rest.drop (field.length - left.length / 8))

/-- The samples of a coded line. -/
def decodeLine (dp n : Nat) (ref : Option (List Nat)) (bs : List Byte) : Option (List Nat) :=
  decodeBlocks dp (n / 64 + 2) n { ref := ref } bs

/-! ## Records (R410) -/

/-- The header of a record. -/
structure RecHead where
  lsn : Nat
  tap : Nat
  src : Nat
  plane : Nat
  depth : Nat
  first : Nat
  count : Nat
  dt : Nat
  lflags : Nat
  pflag : Nat
  rflags : Nat
  clen : Nat := 0
deriving DecidableEq, Repr

/-- The first 32 bytes of a header. -/
def RecHead.front (h : RecHead) (clen : Nat) : List Byte :=
  leBytes 4 h.lsn ++ leBytes 1 h.tap ++ leBytes 1 h.src ++ leBytes 1 h.plane ++ leBytes 1 h.depth ++ leBytes 4 h.first
    ++ leBytes 4 h.count ++ leBytes 8 h.dt ++ leBytes 2 h.lflags ++ leBytes 1 h.pflag ++ leBytes 1 h.rflags ++ leBytes 4 clen

/-- Bytes padded with zeros to a multiple of 8. -/
def pad8 (bs : List Byte) : List Byte := bs ++ List.replicate ((8 - bs.length % 8) % 8) 0#8

/-- A record: its header, its blocks, zeros to a multiple of 8. -/
def recordBytes (h : RecHead) (blocks : List Byte) : List Byte :=
  let f := h.front blocks.length ++ leBytes 4 (crc32c blocks)
  f ++ leBytes 4 (crc32c f) ++ pad8 blocks

/-- The header that 40 bytes hold. -/
def readHead (b : List Byte) : RecHead :=
  { lsn := fieldAt b 0 4, tap := fieldAt b 4 1, src := fieldAt b 5 1, plane := fieldAt b 6 1, depth := fieldAt b 7 1, first := fieldAt b 8 4
    count := fieldAt b 12 4, dt := fieldAt b 16 8, lflags := fieldAt b 24 2, pflag := fieldAt b 26 1, rflags := fieldAt b 27 1, clen := fieldAt b 28 4 }

/-- HCRC holds. -/
def headCrcOk (b : List Byte) : Bool := fieldAt b 36 4 == crc32c (b.take 36)

/-- Every field of a header lies in its range (R410). -/
def RecHead.ok (h : RecHead) : Bool :=
  (decide (h.tap ≤ 5) || h.tap == 7)
    && (if h.tap ≤ 3 then decide (h.src ≤ 11 ∧ h.plane ≤ 3) else h.src == 0xff && (if h.tap = 4 then decide (h.plane ≤ 15) else h.plane == 0))
    && decide (4 ≤ h.depth ∧ h.depth ≤ 16 ∧ 1 ≤ h.count ∧ h.count ≤ 8192 ∧ h.rflags ≤ 3)
    && decide (h.clen ≤ codedBound h.depth h.count false)

end Sys2Proof.Machine
end

