-- ==== Sys2Proof/Machine/Lanes.lean ====
section
/-!
DEFINITION. Serial lanes: block lock, alignment markers (R94 to R101), bring-up and training (R104, R137 to R140), pattern
tests and injection (R106), lane loss and restore (R107 to R111).
-/

namespace Sys2Proof.Machine

/-! ## Loss and removal (R107 to R109) -/

/-- PAT_STATUS.LOCK follows the PMA checker, else block and alignment lock while PCS_CHK is set (R106). -/
def patLock (l : Nat) (d : Dev) : Dev :=
  let s := d.laneS l
  let v := if d.get (R.LNE.PAT_CTL.PMA_CHK l) ≠ 0 then s.chkLock
    else d.get (R.LNE.PAT_CTL.PCS_CHK l) != 0 && s.blockLock && s.amLock
  put (R.LNE.PAT_STATUS.LOCK l) (b2n v) d

/-- An UP lane goes to REMOVED and retrains in the background (R108 step 1, R111). -/
def takeOut (commanded : Bool) (l : Nat) (d : Dev) : Dev :=
  let d := laneToWait l (put (R.LNE.STATUS.STATE l) 7 d)
  let d := setLane l { d.laneS l with commanded } d
  errEvent 3 (lnePerf l 7 1 (event 8 (R.LNE.STATUS.SEQ l) [R.LNE.STATUS.REMOVED l] d))

/-- A port that has lost lanes degrades to the remaining ones with one mask, or goes down with cause 0x1 when none remains
(R108, R109). -/
def degrade (p : Nat) (d : Dev) : Dev :=
  if d.linked p then
    let m := d.upMask p
    if m = 0 then downEvent p 1 d else sendMask p m d
  else d

/-- Removes an UP lane from service (R108, R109). -/
def removeLane (l : Nat) (commanded : Bool) (d : Dev) : Dev := degrade (portOf l) (takeOut commanded l d)

/-- Lanes of a port whose loss is confirmed by now: those in one clock are removed together (R107, R109). -/
def Dev.lostNow (d : Dev) (p : Nat) : List Nat :=
  (lanesOf p).filter (fun l => d.get (R.LNE.STATUS.STATE l) == 6
    && (d.laneS l).loss.any (fun t => dtGe d.dt (dtAddNs t (1000 * d.get (R.LNE.DEG_CTL.CONFIRM_US l)))))

/-- A cause of lane loss appears on an UP uplink lane: its confirmation wait starts (R107). DESIGN CHOICE (log entry 25): a
second cause that appears before the first has ended does not start the wait anew; it runs from the first cause's DT. -/
def lossAppears (l cause : Nat) (d : Dev) : Dev :=
  if isUplink l && d.get (R.LNE.STATUS.STATE l) == 6 then
    let s := d.laneS l
    setLane l { s with loss := some (s.loss.getD d.dt), lossCause := s.lossCause ||| 2 ^ cause } d
  else d

/-- A cause of lane loss goes away: with the last one the event was a glitch (R107). -/
def lossClears (l cause : Nat) (d : Dev) : Dev :=
  let s := d.laneS l
  let c := if bit s.lossCause cause then s.lossCause - 2 ^ cause else s.lossCause
  if s.loss.isSome && decide (c = 0) then lnePerf l 6 1 (setLane l { s with loss := none, lossCause := 0 } d)
  else setLane l { s with lossCause := c } d

/-- `LANE_LOSS` (R107): a cause appears, or ends within the confirmation time. -/
def execLaneLoss (l : Fin 48) (cause : Fin 5) (ends : Bool) (s : State) : Host.Outcome State Fault Refusal :=
  total (fun _ d => if ends then lossClears l.val cause.val d else lossAppears l.val cause.val d) s

/-- The losses of a port that are confirmed by now (R108, R109). -/
def confirmLosses (p : Nat) (d : Dev) : Dev := degrade p (each (takeOut false) (d.lostNow p) d)

/-- `LANE_LOSS_CONFIRM` (R108): the lane's confirmation time ends, and with it that of every lane of the port whose loss is
confirmed in the same clock (R109). -/
def execLaneLossConfirm (l : Fin 48) (s : State) : Host.Outcome State Fault Refusal :=
  total (fun _ d =>
    match (d.laneS l.val).loss with
    | none => d
    | some t =>
      if d.get (R.LNE.STATUS.STATE l.val) = 6 then
        confirmLosses (portOf l.val) (reachNs t (1000 * d.get (R.LNE.DEG_CTL.CONFIRM_US l.val)) d)
      else d) s

/-- A commanded removal takes an UP lane out at once (R107). -/
def commandRemove (l : Nat) (d : Dev) : Dev :=
  if isUplink l && d.get (R.LNE.STATUS.STATE l) == 6 then removeLane l true d else d

/-- `REMOVE` (R107). -/
def execRemove (l : Fin 60) (s : State) : Host.Outcome State Fault Refusal :=
  total (fun _ d => commandRemove l.val d) s

/-- A lane takes service at a linked port: it is UP, and the widened mask leaves at the port's next block boundary (R111). -/
def widen (l : Nat) (d : Dev) : Dev :=
  let p := portOf l
  let d := put (R.LNE.STATUS.STATE l) 6 (setLane l { d.laneS l with phase := 6, restoring := d.linked p } d)
  when (d.linked p) (fun d => setPort p { d.portS p with maskDue := true } d) d

/-- Restores an eligible REMOVED lane (R111). -/
def restoreLane (l : Nat) (d : Dev) : Dev :=
  let s := d.laneS l
  if d.get (R.LNE.STATUS.STATE l) = 7 ∧ s.eligible then
    let d := widen l (setLane l { s with eligible := false, commanded := false, cleanSince := none } d)
    lnePerf l 8 1 (event 8 (R.LNE.STATUS.SEQ l) [R.LNE.STATUS.RESTORED l] d)
  else d

/-- `RESTORE` (R111). -/
def execRestore (l : Fin 48) (s : State) : Host.Outcome State Fault Refusal :=
  total (fun _ d => restoreLane l.val d) s

/-- `RESTORE_ELIGIBLE` (R111): error-free with alignment lock for 1 s. -/
def execRestoreEligible (l : Fin 48) (s : State) : Host.Outcome State Fault Refusal :=
  total (fun _ d =>
    let x := d.laneS l.val
    match x.cleanSince with
    | none => d
    | some t =>
      if d.get (R.LNE.STATUS.STATE l.val) = 7 ∧ x.amLock then
        let d := reachNs t 1000000000 d
        let d := setLane l.val { d.laneS l.val with eligible := true } d
        when (d.on (R.LNE.DEG_CTL.AUTO l.val) && !x.commanded) (restoreLane l.val) d
      else d) s

/-! ## Block lock (R96) -/

/-- Block lock is lost: alignment goes with it; an UP lane suffers a loss cause, another returns to BLOCK
(R96, R104, R107). -/
def loseBlockLock (l : Nat) (d : Dev) : Dev :=
  let s := d.laneS l
  let d := setLane l { s with blockLock := false, amLock := false, run := 0, window := [], lastAm := none, amSlot := none, badPeriods := 0
                              aligned := false, skipBip := true, missed := 0, cleanSince := none, eligible := false } d
  let d := patLock l (lnePerf l 5 1 (event 8 (R.LNE.STATUS.SEQ l) [R.LNE.STATUS.LOCK_LOST l] d))
  if d.get (R.LNE.STATUS.STATE l) = 6 then lossAppears l 1 (lossAppears l 0 d)
  else if 2 ≤ s.phase then lanePhase l 3 d
  else d

/-- A lane in BLOCK that has block lock goes on to TRAIN, where the starting setting is evaluated (R104, R139). -/
def blockDone (l : Nat) (d : Dev) : Dev :=
  let s := d.laneS l
  if s.blockLock ∧ s.phase = 3 ∧ d.get (R.LNE.STATUS.STATE l) ≠ 6 then lanePhase l 4 (setLane l { s with train := {} } d) else d

/-- Block lock is gained (R96, R104). -/
def gainBlockLock (l : Nat) (d : Dev) : Dev :=
  let d := setLane l { d.laneS l with blockLock := true, window := [], skipBip := true, rxAt := 0, rxBip := 0, hdrErrs := 0 } d
  blockDone l (patLock l (lossClears l 0 d))

/-- The receiver seeks block lock: an uplink lane in bring-up once its CDR is locked, any other enabled lane always (R96,
R104). -/
def Dev.seeksLock (d : Dev) (l : Nat) : Bool :=
  d.on (R.LNE.CTL.EN l) && (!isUplink l || decide (3 ≤ (d.laneS l).phase) || d.get (R.LNE.STATUS.STATE l) == 8)

/-- One received sync header (R96). A lane that alignment loss returned to BLOCK leaves it at the next block, since it has
block lock still (R104). -/
def feedHeader (l : Nat) (h : BitVec 2) (d : Dev) : Dev :=
  let ok := h == 1#2 || h == 2#2
  let d := when (!ok) (fun d => setLane l { d.laneS l with hdrErrs := (d.laneS l).hdrErrs + 1 }
    (lnePerf l 2 1 (inc (R.LNE.ERR_HDR.COUNT l) 1 d))) d
  let s := d.laneS l
  if s.blockLock then
    let w := (ok :: s.window).take 64
    let d := setLane l { s with window := w, cleanSince := if ok then s.cleanSince else s.cleanSince.map (fun _ => d.dt) } d
    if 16 ≤ (w.filter (fun x => !x)).length then loseBlockLock l d else blockDone l d
  else
    let run := if ok then s.run + 1 else 0
    let d := setLane l { s with run } d
    if run = 64 ∧ d.seeksLock l then gainBlockLock l d else d

/-! ## Bring-up (R104, R137) -/

/-- `SIGNAL_DETECT` (R104): a lane in WAIT moves to CDR. -/
def execSignalDetect (l : Fin 48) (s : State) : Host.Outcome State Fault Refusal :=
  total (fun _ d =>
    let x := d.laneS l.val
    if x.phase = 1 then
      let d := setLane l.val { x with signal := true, signalAt := d.dt } d
      let p := portOf l.val
      let ps := d.portS p
      let d := setPort p { ps with signalAt := some (ps.signalAt.getD d.dt) } d
      lanePhase l.val 2 d
    else d) s

/-- `CDR_LOCK` (R104, R102): CDR locks and the CTLE adapts, or takes its fixed code. -/
def execCdrLock (l : Fin 48) (ctle : BitVec 4) (s : State) : Host.Outcome State Fault Refusal :=
  total (fun _ d =>
    if (d.laneS l.val).phase = 2 then
      let code := if d.on (R.LNE.CTL.CTLE_FIX l.val) then d.get (R.LNE.CTL.CTLE_CODE l.val) else ctle.toNat
      lanePhase l.val 3 (put (R.LNE.EQ_CTLE.CODE l.val) code (setLane l.val { d.laneS l.val with run := 0 } d))
    else d) s

/-- The limit of a state of R104 in ns from signal detect. -/
def stateLimit (ph : Nat) : Option Nat :=
  match ph with
  | 2 => some 250000
  | 3 => some 1500000
  | 4 => some 22000000
  | 5 => some 23500000
  | _ => none

/-- `LANE_STATE_TIMEOUT` (R104): a lane that is aligned has met the last limit, and waits for its port. -/
def execLaneStateTimeout (l : Fin 48) (s : State) : Host.Outcome State Fault Refusal :=
  total (fun _ d =>
    let x := d.laneS l.val
    match stateLimit x.phase with
    | none => d
    | some n =>
      if x.aligned then d
      else laneToWait l.val (setLane l.val { x with fails := x.fails + 1 } (reachNs x.signalAt n d))) s

/-! ## Training (R138, R139) -/

/-- The starting setting of a lane: the preset, or the last agreed one at a later link-up (R137, R138). -/
def Dev.firStart (d : Dev) (l : Nat) : Nat × Nat × Nat :=
  if (d.portS (portOf l)).linkedOnce then (d.laneS l).agreed.getD (0, 63, 0) else (0, 63, 0)

/-- Setting `i` of R139: 0 is the starting setting, 1 to 21 the grid in its order. -/
def Dev.firSetting (d : Dev) (l i : Nat) : Nat × Nat × Nat :=
  if i = 0 then d.firStart l
  else
    let pre := (i - 1) / 7 * 4
    let pst := (i - 1) % 7 * 4
    (pre, 63 - pre - pst, pst)

/-- Sends TRAIN_REQ for a setting, with the logical index of the lane, and waits for its TRAIN block (R100, R139). -/
def trainAsk (l i : Nat) (d : Dev) : Dev :=
  let x := d.laneS l
  let f := d.firSetting l i
  let ms := (d.portS (portOf l)).mseq
  let d := sendMsg (portOf l) 8 [BitVec.ofNat 8 (d.logical l), BitVec.ofNat 8 f.1, BitVec.ofNat 8 f.2.1, BitVec.ofNat 8 f.2.2] d
  setLane l { d.laneS l with train := { x.train with asked := some (ms, d.dt), measuring := false } } d

/-- `EYE_MARGIN` (R139): the margin of the setting under evaluation is measured. -/
def execEyeMargin (l : Fin 48) (margin : BitVec 6) (s : State) : Host.Outcome State Fault Refusal :=
  total (fun _ d =>
    let d := put (R.LNE.EYE.MARGIN l.val) margin.toNat d
    let x := d.laneS l.val
    let t := x.train
    if x.phase = 4 ∧ t.measuring ∧ t.next < 22 then
      let better := t.next == 0 || decide (t.bestMargin < margin.toNat)
      let t' : TrainS := { t with best := if better then t.next else t.best
                                  bestMargin := if better then margin.toNat else t.bestMargin }
      let fin := (t.next == 0 && decide (d.get (R.LNE.DEG_CTL.EYE_TGT l.val) ≤ margin.toNat)) || t.next == 21
      if fin then trainAsk l.val t'.best (setLane l.val { x with train := { t' with next := 22, repeated := false } } d)
      else trainAsk l.val (t.next + 1) (setLane l.val { x with train := { t' with next := t.next + 1, repeated := false } } d)
    else d) s

/-- `TRAIN` (R138): a TRAIN block on a lane; once it reflects the request outstanding, the setting is
measured, or after the final request training ends with TRAIN_DONE (R139). -/
def execTrain (l : Fin 48) (b : Blk) (s : State) : Host.Outcome State Fault Refusal :=
  total (fun _ d =>
    let x := d.laneS l.val
    let by' := fun k => bits b.body.toNat (8 * k) 8
    match x.train.asked with
    | none => d
    | some (ms, _) =>
      if x.phase = 4 ∧ b.hdr = 2#2 ∧ by' 0 = 0x55 ∧ by' 1 = ms then
        if x.train.next = 22 then
          let d := setLane l.val { x with train := { x.train with asked := none }, agreed := some (by' 2, by' 3, by' 4) } d
          lanePhase l.val 5 (sendMsg (portOf l.val) 9 [BitVec.ofNat 8 (d.logical l.val)] d)
        else setLane l.val { x with train := { x.train with asked := none, measuring := true } } d
      else d) s

/-- `TRAIN_REQ_TIMEOUT` (R139): 200 µs without the reflected request; repeated once, then a failure. -/
def execTrainReqTimeout (l : Fin 48) (s : State) : Host.Outcome State Fault Refusal :=
  total (fun _ d =>
    let x := d.laneS l.val
    match x.train.asked with
    | none => d
    | some (_, t) =>
      let d := reachNs t 200000 d
      if x.train.repeated then laneToWait l.val (setLane l.val { x with fails := x.fails + 1 } d)
      else trainAsk l.val (if x.train.next = 22 then x.train.best else x.train.next)
        (setLane l.val { x with train := { x.train with repeated := true } } d)) s

/-! ## Alignment markers (R97 to R101) -/

/-- The fields of a marker that R99 recognises: LANE, COUNT, BIP. -/
def markerOf (b : Blk) : Option (Nat × Nat × Nat) :=
  let f := fun k n => bits b.body.toNat (8 * k) (8 * n)
  if b.hdr = 2#2 ∧ f 0 1 = 0xa5 ∧ f 7 1 = 0x5a ∧ f 4 1 + f 5 1 = 255 ∧ f 1 1 + f 6 1 = 255 ∧ f 1 1 < 4 then
    some (f 1 1, f 2 2, f 4 1)
  else none

/-- Alignment lock is lost: a lane in bring-up returns to BLOCK (R99, R104, R107). -/
def loseAlign (l : Nat) (d : Dev) : Dev :=
  let s := d.laneS l
  let d := setLane l { s with amLock := false, lastAm := none, aligned := false, missed := 0, cleanSince := none, eligible := false } d
  let d := patLock l (event 8 (R.LNE.STATUS.SEQ l) [R.LNE.STATUS.ALIGN_LOST l] d)
  if d.get (R.LNE.STATUS.STATE l) = 6 then lossAppears l 1 d
  else if 2 ≤ s.phase then lanePhase l 3 d
  else d

/-- The end of a marker period: more than BER_LIMIT invalid headers in each of two consecutive periods are a loss cause
(R107). -/
def berPeriod (l : Nat) (d : Dev) : Dev :=
  let s := d.laneS l
  let bad := decide (d.get (R.LNE.DEG_CTL.BER_LIMIT l) < s.hdrErrs)
  let n := if bad then s.badPeriods + 1 else 0
  let d := setLane l { s with hdrErrs := 0, badPeriods := n } d
  if 2 ≤ n ∧ d.get (R.LNE.STATUS.STATE l) = 6 then
    lossAppears l 2 (event 8 (R.LNE.STATUS.SEQ l) [R.LNE.STATUS.BER_HIGH l] d)
  else if bad then d
  else lossClears l 2 d

/-- One expected marker is missing or not recognised: its place and its COUNT pass, and the fourth in a row loses alignment
lock (R99). -/
def missMarker (l : Nat) (d : Dev) : Dev :=
  let s := d.laneS l
  let d := berPeriod l (setLane l { s with missed := s.missed + 1, rxAt := 0, rxBip := 0, skipBip := true
                                           lastAm := s.lastAm.map (fun x => ((x.1 + 1) % 65536, x.2)) } d)
  if s.amLock ∧ 4 ≤ s.missed + 1 then loseAlign l d else d

/-- `ALIGNMENT_LOCK_LOSS` (R99): `n` expected markers in a row do not arrive. -/
def execAlignmentLockLoss (l : Fin 60) (n : Nat) (s : State) : Host.Outcome State Fault Refusal :=
  total (fun _ d => each (fun _ => missMarker l.val) (List.range n) d) s

/-- The other lanes of the port that carry a LANE value with alignment (R100). -/
def Dev.sameLogical (d : Dev) (l lane : Nat) : List Nat :=
  (lanesOf (portOf l)).filter (fun m => m != l && (d.laneS m).amLock && d.get (R.LNE.ALIGN.LOGICAL m) == lane)

/-- Blocks by which a lane's marker is behind the earliest lane of the port with the same COUNT (R101). -/
def Dev.skewOf (d : Dev) (l count slotNo : Nat) : Nat :=
  (lanesOf (portOf l)).foldl (fun m k =>
    if k = l then m
    else match (d.laneS k).amSlot with
      | some (c, t) => if c = count ∧ t < slotNo then max m (slotNo - t) else m
      | none => m) 0

/-- An aligned lane takes service: with its port's link-up once every logical lane of LANES is aligned (R137 step 8), or, at a
port that is linked already, of its own; a REMOVED lane waits for its restore (R111). DEDUCED (log entry 25): the manual
gives no row to a lane that finishes bring-up behind the link-up without having been REMOVED; its mask is that of R111. -/
def serve (l : Nat) (d : Dev) : Dev :=
  let p := portOf l
  if (d.laneS l).phase ≠ 5 ∨ d.get (R.LNE.STATUS.STATE l) = 7 then
    (if d.get (R.EKL.STATUS.STATE p) = 1 ∧ d.allAligned p then linkUp p d else d)
  else
    let d := put (R.LNE.STATUS.STATE l) 5 d
    if d.get (R.EKL.STATUS.STATE p) = 1 then (if d.allAligned p then linkUp p d else d)
    else if d.linked p then widen l d
    else d

/-- An uplink lane with alignment lock is deskewed against its port. A skew beyond 15 blocks sets SKEW_LIMIT and keeps the
lane out of service; on an UP lane, a skew that differs by more than one block from that at which the lane was aligned is a
loss cause (R101, R107). -/
def deskew (l skew : Nat) (d : Dev) : Dev :=
  let s := d.laneS l
  let d := put (R.LNE.ALIGN.SKEW l) (min 15 skew) d
  let d := when (decide (15 < skew)) (event 8 (R.LNE.STATUS.SEQ l) [R.LNE.STATUS.SKEW_LIMIT l]) d
  if d.get (R.LNE.STATUS.STATE l) = 6 then
    let off := decide (s.skew + 1 < skew ∨ skew + 1 < s.skew)
    let d := if off then lossAppears l 3 d else lossClears l 3 d
    lossClears l 1 (setLane l { d.laneS l with aligned := !off } d)
  else if 15 < skew then setLane l { s with aligned := false } d
  else serve l (setLane l { s with aligned := true, skew, cleanSince := some (s.cleanSince.getD d.dt) } d)

/-- A recognised marker (R99): in its place and sequence it is checked for BIP and gives LANE, COUNT and skew, or gains
alignment lock; out of them it is ignored and counted in ERR_AM, and where it stands in a marker's place, that marker is
missing (DEDUCED, log entry 22). -/
def rxMarker (l slotNo : Nat) (m : Nat × Nat × Nat) (d : Dev) : Dev :=
  let x := d.laneS l
  let lane := m.1
  let count := m.2.1
  let inPlace := decide (x.rxAt = 16383)
  let follows := match x.lastAm with
    | some (c, k) => inPlace && decide (count = (c + 1) % 65536) && decide (lane = k)
    | none => false
  let d := lnePerf l 4 1 d
  if x.amLock && !follows then
    let d := inc (R.LNE.ERR_AM.COUNT l) 1 d
    if inPlace then missMarker l d else setLane l { d.laneS l with rxAt := x.rxAt + 1 } d
  else
    let errs := if x.skipBip then 0 else ones8 (x.rxBip ^^^ m.2.2)
    let d := lnePerf l 3 errs (inc (R.LNE.ERR_BIP.COUNT l) errs d)
    let d := setLane l { d.laneS l with lastAm := some (count, lane), skipBip := false, missed := 0, amSlot := some (count, slotNo)
                                        amLock := x.amLock || follows, rxAt := 0, rxBip := 0
                                        cleanSince := if errs = 0 then x.cleanSince else x.cleanSince.map (fun _ => d.dt) } d
    let d := put (R.LNE.ALIGN.AM_COUNT l) count (put (R.LNE.ALIGN.LOGICAL l) lane d)
    let d := patLock l (berPeriod l d)
    if !(d.laneS l).amLock || !isUplink l then d
    else if !(d.sameLogical l lane).isEmpty then each loseAlign (l :: d.sameLogical l lane) d
    else if x.phase ≥ 5 ∨ d.get (R.LNE.STATUS.STATE l) = 6 then deskew l (d.skewOf l count slotNo) d
    else d

/-! ## Received blocks -/

/-- One compared bit of the PMA checker; true is an error (R106). DESIGN CHOICE (log entry 80): only bits compared while the
checker is locked are counted in PAT_BITS and PAT_ERR, and the window of 256 bits starts anew at lock. -/
def feedPattern (l : Nat) (err : Bool) (d : Dev) : Dev :=
  let s := d.laneS l
  if d.get (R.LNE.PAT_CTL.PMA_CHK l) = 0 then d
  else if s.chkLock then
    let w := (err :: s.chkWin).take 256
    let d := when err (inc (R.LNE.PAT_ERR.COUNT l) 1) (inc (R.LNE.PAT_BITS.COUNT l) 1 d)
    if 32 ≤ (w.filter (fun x => x)).length then
      patLock l (event 8 (R.LNE.PAT_STATUS.SEQ l) [R.LNE.PAT_STATUS.LOCK_LOST l]
        (setLane l { s with chkLock := false, chkRun := 0, chkWin := [] } d))
    else setLane l { s with chkWin := w } d
  else
    let n := if err then 0 else s.chkRun + 1
    patLock l (setLane l { s with chkRun := n, chkLock := decide (64 ≤ n), chkWin := [] } d)

/-- A received bit differs from the checker's pattern (R106). -/
def Dev.bitErr (d : Dev) (l : Nat) (x : Bool) : Bool := x != prbsNext (d.get (R.LNE.PAT_CTL.PMA_CHK l)) (d.laneS l).chkHist

/-- One received bit at the PMA checker: until it locks its reference is what it receives, from then on the pattern itself
(R106; DEDUCED, log entry 80: each wrong bit is counted once). -/
def feedBit (l : Nat) (x : Bool) (d : Dev) : Dev :=
  if d.get (R.LNE.PAT_CTL.PMA_CHK l) = 0 then d
  else
    let e := d.bitErr l x
    let s := d.laneS l
    feedPattern l e (setLane l { s with chkHist := pushBit 31 s.chkHist (if s.chkLock then x != e else x) } d)

/-- Blocks of the running pattern that differ from what the PCS checker expects (R106). -/
def pcsMismatch (kind : Nat) (prbs : Nat) (b : Blk) : Bool × Nat :=
  match kind with
  | 1 => (b != idleBlk, prbs)
  | 2 => (b != { hdr := 1#2, body := 0#64 }, prbs)
  | _ =>
    (payloadBits b).foldl (fun (acc : Bool × Nat) x => (acc.1 || (x != prbsNext 3 acc.2), pushBit 31 acc.2 x)) (b.hdr != 1#2, prbs)

/-- The PCS checker compares a descrambled block while it is locked and the PMA checker is off (R106). -/
def pcsCheck (l : Nat) (plain : Blk) (d : Dev) : Dev :=
  let s := d.laneS l
  let kind := d.get (R.LNE.PAT_CTL.PCS_CHK l)
  if kind = 0 then d
  else
    let r := pcsMismatch kind s.prbs plain
    let d := setLane l { s with prbs := r.2 } d
    if d.get (R.LNE.PAT_CTL.PMA_CHK l) = 0 ∧ s.blockLock ∧ s.amLock then
      when r.1 (inc (R.LNE.PAT_ERR.COUNT l) 1) (inc (R.LNE.PAT_BITS.COUNT l) 1 d)
    else d

/-- The block that a receiver gets in the place of one that a command brings: under a near-end loopback what the lane's own
transmitter sends, else the one at the ball, which a far-end loopback resends on the downlink (R106, R112). -/
def rxIn (l : Nat) (b : Blk) (d : Dev) : Blk × Dev :=
  if d.looped l then txSlot l d
  else
    let d := if d.get (R.LNE.CTL.LPBK l) = 3 ∧ isUplink l ∧ l % 4 = 0 then txLeave (48 + portOf l) b d else d
    (polarity (d.on (R.LNE.CTL.RX_INV l)) b, d)

/-- A block that no marker is: its header, its bits at the PMA checker, its parity, and its payload descrambled (R95, R96, R98,
R106); none while the lane has no block lock. -/
def rxPlain (l : Nat) (b : Blk) (d : Dev) : Option Blk × Dev :=
  let d := feedHeader l b.hdr (lnePerf l 1 1 d)
  let s := d.laneS l
  let raw := payloadBits b
  let plain : Blk := { b with body := bodyOf (descramble s.descr raw) }
  let d := setLane l { s with descr := pushBits 58 s.descr raw, rxAt := s.rxAt + 1, rxBip := s.rxBip ^^^ bipOf b } d
  let d := pcsCheck l plain (each (feedBit l) (if d.get (R.LNE.PAT_CTL.PMA_CHK l) = 0 then [] else blockBits b) d)
  (if s.blockLock then some plain else none, d)

/-- A block that a receiver gets, a marker among them: a recognised one, or another block in a marker's place (R95, R99). -/
def rxBlock (l slotNo : Nat) (b : Blk) (d : Dev) : Dev :=
  let r := rxIn l b d
  let s := r.2.laneS l
  if s.blockLock && ((markerOf r.1).isSome || (decide (s.rxAt = 16383) && s.lastAm.isSome)) then
    let d := each (feedBit l) (if r.2.get (R.LNE.PAT_CTL.PMA_CHK l) = 0 then [] else blockBits r.1) (lnePerf l 1 1 r.2)
    let d := feedHeader l r.1.hdr d
    if !(d.laneS l).blockLock then d
    else match markerOf r.1 with
      | some m => rxMarker l slotNo m d
      | none => missMarker l d
  else (rxPlain l r.1 r.2).2

/-- `ALIGNMENT_MARKER` (R99): the blocks received since the last command that brought some, the block in a marker's place, and
the block slot of its arrival. -/
def execAlignmentMarker (l : Fin 60) (b : Blk) (rx : List Blk) (slotNo : Nat) (s : State) : Host.Outcome State Fault Refusal :=
  total (fun _ d => rxBlock l.val slotNo b (each (rxBlock l.val slotNo) rx d)) s

/-- `BLOCK_LOCK` (R96): received blocks at one bit position. A lane in bring-up that gains lock by them shows the DFE taps to
which it has adapted (R102). -/
def execBlockLock (l : Fin 60) (blks : List Blk) (dfe : BitVec 30) (s : State) : Host.Outcome State Fault Refusal :=
  total (fun _ d =>
    let d' := each (rxBlock l.val 0) blks d
    when (!(d.laneS l.val).blockLock && (d'.laneS l.val).blockLock && d.get (R.LNE.STATUS.STATE l.val) != 6)
      (put (R.LNE.EQ_DFE.TAPS l.val) dfe.toNat) d') s

/-- `BLOCK_LOCK_LOSS` (R96): received blocks. -/
def execBlockLockLoss (l : Fin 60) (blks : List Blk) (s : State) : Host.Outcome State Fault Refusal :=
  total (fun _ d => each (rxBlock l.val 0) blks d) s

/-- `LANE_ALIGN_DEADLINE` (R137): 25 ms after signal, the port runs with the lanes aligned so far. -/
def execLaneAlignDeadline (p : Fin 12) (s : State) : Host.Outcome State Fault Refusal :=
  total (fun _ d =>
    match (d.portS p.val).signalAt with
    | none => d
    | some t =>
      if d.get (R.EKL.STATUS.STATE p.val) = 1 ∧ (d.named p.val).any (fun k => (d.laneS k).aligned) then
        linkUp p.val (reachNs t 25000000 d)
      else d) s

/-- `LINK_CFG` (R137 step 3): while no lane of the port detects signal; the camera starts no other lanes than those of LANES.
DESIGN CHOICE (log entry 25): where the enabled lanes of the port stand at different rates of one family, contradictory
settings whose results R34 leaves unpredictable, RATE is that of the lowest one; 0 where no lane is enabled. -/
def execLinkCfg (p : Fin 12) (s : State) : Host.Outcome State Fault Refusal :=
  total (fun _ d =>
    let ls := lanesOf p.val
    if d.get (R.EKL.STATUS.STATE p.val) = 1 ∧ ls.all (fun l => !(d.laneS l).signal) then
      let rate := match (lanesOf p.val).find? (fun l => d.on (R.LNE.CTL.EN l)) with
        | some l => d.get (R.LNE.CTL.RATE l)
        | none => 0
      sendMsg p.val 6 [BitVec.ofNat 8 rate, BitVec.ofNat 8 (d.get (R.EKL.CTL.LANES p.val)),
        BitVec.ofNat 8 (b2n (d.portS p.val).linkedOnce)] d
    else d) s

/-! ## Commands and tests of a lane -/

/-- A loopback or a pattern generator is set on a lane (R106); the far-end loopback acts on lane 0 of a port
only. -/
def Dev.underTest (d : Dev) (l : Nat) : Bool :=
  (d.get (R.LNE.CTL.LPBK l) != 0 && (d.get (R.LNE.CTL.LPBK l) != 3 || (isUplink l && l % 4 == 0)))
    || d.get (R.LNE.PAT_CTL.PMA_GEN l) != 0 || d.get (R.LNE.PAT_CTL.PCS_GEN l) != 0

/-- A lane enters TEST: a commanded removal when it is UP, and its receiver starts anew (R106). -/
def laneToTest (l : Nat) (d : Dev) : Dev := laneToWait l (put (R.LNE.STATUS.STATE l) 8 (commandRemove l d))

/-- The state that a lane takes from its enable, its tests and its quad PLL (R104, R106), and its fixed CTLE code (R102).
DESIGN CHOICE (log entry 25): the table of R104 does not say where a lane goes when its test ends (an uplink lane to WAIT, a
downlink lane to UP or OFF) nor what clearing EN does (an UP lane is removed by command, then shows OFF). -/
def laneRefresh (l : Nat) (d : Dev) : Dev :=
  let st := d.get (R.LNE.STATUS.STATE l)
  let d := when (d.on (R.LNE.CTL.CTLE_FIX l)) (put (R.LNE.EQ_CTLE.CODE l) (d.get (R.LNE.CTL.CTLE_CODE l))) d
  if !d.on (R.LNE.CTL.EN l) then
    let d := commandRemove l d
    put (R.LNE.STATUS.STATE l) 0 (setLane l { d.laneS l with phase := 0 } d)
  else if d.underTest l then (if st = 8 then d else laneToTest l d)
  else if isUplink l then
    if st = 8 ∨ st = 0 then laneToWait l (put (R.LNE.STATUS.STATE l) 1 d) else d
  else put (R.LNE.STATUS.STATE l) (if flag d.quadLock (l / 4) then 6 else 0) d

/-- Returns a lane to WAIT by command: a commanded removal when it is UP (R105). -/
def retrainLane (l : Nat) (d : Dev) : Dev :=
  if !isUplink l then laneRefresh l d
  else if d.get (R.LNE.STATUS.STATE l) = 6 then removeLane l true d
  else laneToWait l d

/-- `RETRAIN` (R105). -/
def execRetrain (l : Fin 60) (s : State) : Host.Outcome State Fault Refusal :=
  total (fun _ d => retrainLane l.val d) s

/-- The enabled lanes of a lane's quad run in both rate families: a host error (R92). -/
def Dev.mixedQuad (d : Dev) (l : Nat) : Bool :=
  let rs := ((List.range 4).map (fun i => l / 4 * 4 + i)).filter (fun k => d.on (R.LNE.CTL.EN k))
  rs.any (fun k => d.get (R.LNE.CTL.RATE k) == 2) && rs.any (fun k => d.get (R.LNE.CTL.RATE k) != 2)

/-- `RATE_WRITE` (R105): a quad with enabled lanes of both families is a host error (R92, R34). -/
def execRateWrite (l : Fin 60) (rate : BitVec 2) (s : State) : Host.Outcome State Fault Refusal :=
  run (fun _ d =>
    let d := retrainLane l.val (put (R.LNE.CTL.RATE l.val) rate.toNat d)
    if d.mixedQuad l.val then .fault (.hostError "lanes of both rate families in one quad") else .next d) s

/-- The lanes of a quad (R91). -/
def quadLanes (q : Nat) : List Nat := [4 * q, 4 * q + 1, 4 * q + 2, 4 * q + 3]

/-- `QUAD_PLL_UNLOCK` (R107). -/
def execQuadPllUnlock (q : Fin 15) (s : State) : Host.Outcome State Fault Refusal :=
  total (fun _ d =>
    let d := { d with quadLock := setFlag q.val false d.quadLock }
    each (fun l d =>
      if d.on (R.LNE.CTL.EN l) then
        let d := event 8 (R.LNE.STATUS.SEQ l) [R.LNE.STATUS.PLL_UNLOCK l] d
        if isUplink l then lossAppears l 4 d else laneRefresh l d
      else d) (quadLanes q.val) d) s

/-- `QUAD_PLL_LOCK` (R92). -/
def execQuadPllLock (q : Fin 15) (s : State) : Host.Outcome State Fault Refusal :=
  total (fun _ d =>
    let d := { d with quadLock := setFlag q.val true d.quadLock }
    each (fun l d => laneRefresh l (if isUplink l then lossClears l 4 d else d)) (quadLanes q.val) d) s

/-- `EQ_STEP` (R102): a background code moves by one, 0 the CTLE, 1 to 6 a DFE tap, unless adaptation is frozen, by FREEZE or
in STANDBY (R105). -/
def execEqStep (l : Fin 48) (code : Fin 7) (up : Bool) (s : State) : Host.Outcome State Fault Refusal :=
  total (fun _ d =>
    let l := l.val
    let x := d.laneS l
    if d.on (R.LNE.CTL.FREEZE l) || d.get R.PWR.STATUS.STATE == 3 || x.phase < 5 then d
    else
      let d := match x.lastEq with
        | some t => reachNs t 10000 d
        | none => d
      let d := setLane l { d.laneS l with lastEq := some d.dt } d
      if code.val = 0 then
        if d.on (R.LNE.CTL.CTLE_FIX l) then d
        else
          let c := d.get (R.LNE.EQ_CTLE.CODE l)
          let v := if up then min 15 (c + 1) else c - 1
          lnePerf l 9 (b2n (v != c)) (put (R.LNE.EQ_CTLE.CODE l) v d)
      else
        let t := d.get (R.LNE.EQ_DFE.TAPS l)
        let lo := 5 * (code.val - 1)
        let v := clampI (-16) 15 (sgn 5 (bits t lo 5) + (if up then 1 else -1))
        lnePerf l 9 (b2n (v != sgn 5 (bits t lo 5))) (put (R.LNE.EQ_DFE.TAPS l) (setBits t lo 5 (unsgn 5 v)) d)) s

/-- `INJ_ONCE` (R106). -/
def execInjOnce (l : Fin 60) (s : State) : Host.Outcome State Fault Refusal := total (fun _ d => inject l.val d) s

/-- The lane sends in its next block slot; under a near-end loopback its own receiver gets it (R106). -/
def sendSlot (l : Nat) (d : Dev) : Dev := if d.looped l then rxBlock l 0 idleBlk d else (txSlot l d).2

/-- `INJECTION_INTERVAL` (R106): INTERVAL blocks have passed in which the lane sends what it sends of its own, and the selected
error is injected; never with INTERVAL 0. -/
def execInjectionInterval (l : Fin 60) (s : State) : Host.Outcome State Fault Refusal :=
  total (fun _ d =>
    let n := d.get (R.LNE.INJ.INTERVAL l.val)
    if n = 0 then d
    else inject l.val (when (d.transmits l.val) (each (fun _ => sendSlot l.val) (List.range n)) d)) s

/-- What the PMA checker receives in the place of the bits that a command brings: under a near-end loopback, what the lane's
own transmitter sends (R106). -/
def rxBits (l : Nat) : Nat → List Bool → Dev → List Bool × Dev
  | 0, xs, d => (xs, d)
  | k + 1, xs, d =>
    if d.looped l then
      let r := txSlot l d
      let t := rxBits l k xs r.2
      (blockBits r.1 ++ t.1, t.2)
    else (xs.map (fun x => x != d.on (R.LNE.CTL.RX_INV l)), d)

/-- Raw bits at a lane's PMA checker (R106, R112). -/
def feedBits (l : Nat) (xs : List Bool) (d : Dev) : Dev :=
  let r := rxBits l (cdiv xs.length 66) xs d
  each (feedBit l) (r.1.take xs.length) r.2

/-- `PMA_CHECKER_LOCK` (R106): received raw bits. -/
def execPmaCheckerLock (l : Fin 60) (rx : List Bool) (s : State) : Host.Outcome State Fault Refusal :=
  total (fun _ d => feedBits l.val rx d) s
/-- `PMA_CHECKER_LOCK_LOSS` (R106): received raw bits. -/
def execPmaCheckerLockLoss (l : Fin 60) (rx : List Bool) (s : State) : Host.Outcome State Fault Refusal :=
  total (fun _ d => feedBits l.val rx d) s

end Sys2Proof.Machine
end

