-- ==== Sys2Proof/Machine/Ports.lean ====
section
/-!
DEFINITION. Camera ports: rows of blocks become packets (R115 to R125), packets become camera lines (R146 to
R155), and the port's watchdogs, time messages and register windows (R156 to R165).
-/

namespace Sys2Proof.Machine

/-! ## Rows and blocks -/

/-- The physical lane of a port in service under a logical index. -/
def Dev.laneFor (d : Dev) (p k : Nat) : Option Nat :=
  (lanesOf p).find? (fun l => d.get (R.LNE.STATUS.STATE l) == 6 && d.get (R.LNE.ALIGN.LOGICAL l) == k)

/-- Logical lanes that the port reads in a row: those of the mask in force that are in service (R115, R143). -/
def Dev.rowLanes (d : Dev) (p : Nat) : List Nat :=
  (List.range 4).filter (fun k => bit (d.portS p).mask k && (d.laneFor p k).isSome)

/-- The lane of a port that carries a logical index: the one in service, else one that has block lock (R100, R116). -/
def Dev.laneOf (d : Dev) (p k : Nat) : Option Nat :=
  match d.laneFor p k with
  | some l => some l
  | none => (lanesOf p).find? (fun l => (d.laneS l).blockLock && d.logical l == k)

/-- A lane's block of a row is received and descrambled (R95, R115). -/
def rowLane (p : Nat) (row : List Blk) (k : Nat) (x : List (Nat × Blk) × Dev) : List (Nat × Blk) × Dev :=
  match row[k]?, x.2.laneOf p k with
  | some b, some l =>
    let i := rxIn l b x.2
    let r := rxPlain l i.1 i.2
    match r.1 with
    | some y => (x.1 ++ [(k, y)], r.2)
    | none => (x.1, r.2)
  | _, _ => x

/-- The blocks of a row by logical index, as the port's lanes deliver them, and the device with them received. -/
def rxRow (p : Nat) (row : List Blk) (d : Dev) : List (Nat × Blk) × Dev := [0, 1, 2, 3].foldl (fun x k => rowLane p row k x) ([], d)

/-- Byte `k` of a block's payload (R94). -/
def blkByte (b : Blk) (k : Nat) : Nat := bits b.body.toNat (8 * k) 8

/-- The eight payload bytes of a block. -/
def bodyBytes (w : BitVec 64) : List Byte := leBytes 8 w.toNat

/-- The header and payload of a received packet, after framing (R118). -/
structure Pkt where
  vc : Nat
  dtype : Nat
  flags : Nat
  line : Nat
  dtExp : Nat
  length : Nat
  pxOfs : Nat
  pseq : Nat
  payload : List Byte
  truncated : Bool
  pcrcBad : Bool
deriving DecidableEq, Repr

/-- A framing error (R122, R166). -/
def framing (p : Nat) (d : Dev) : Dev := eklPerf p 0xb 1 (eklStat p 9 1 d)

/-- Samples of a RAWn payload, widened to 16 bits (R124, R147). -/
def rawSamples (n : Nat) (payload : List Byte) (len : Nat) : List Nat :=
  let v := leVal payload
  (List.range (8 * len / n)).map (fun i => bits v (n * i) n * 2 ^ (16 - n))

/-- Bits per sample of a RAWn data type (R123). -/
def rawBits (dtype : Nat) : Option Nat :=
  match dtype with
  | 0x10 => some 8
  | 0x11 => some 10
  | 0x12 => some 12
  | 0x13 => some 14
  | 0x14 => some 16
  | _ => none

/-! ## Lines (R149 to R152) -/

/-- The issued line that a packet belongs to: by LSN, or by DT_EXP when the camera numbers its lines (R149, R150). DESIGN
CHOICE (log entry 19): where several open lines lie within EXP_TOL of DT_EXP, the one issued last is taken. -/
def matchLine (d : Dev) (p : Nat) (k : Pkt) : Option LineRec :=
  let ls := (d.portS p).lines
  if bit k.flags 2 then
    if bit k.flags 3 then none
    else
      let tol : Int := (d.get (R.EKL.EXP_TOL.NS p) : Int) * 65536
      let near := ls.filter (fun r => decide (-tol ≤ dtDiff k.dtExp r.e ∧ dtDiff k.dtExp r.e ≤ tol))
      match near.find? (fun r => r.st == .isOpen) with
      | some r => some r
      | none => near.head?
  else ls.find? (fun r => r.lsn == k.line)

/-- Adds a packet's samples to a slot of an open line (R152); also the number of samples discarded beyond
WIDTH or in overlaps, and whether any overlapped. -/
def joinPlane (d : Dev) (p q bg : Nat) (k : Pkt) (xs : List Nat) (a : PlaneAcc) : PlaneAcc × Nat × Bool :=
  let w := d.get (R.EKL.PLANE_CTL.WIDTH p q)
  let xs := if k.pcrcBad && !d.on (R.EKL.CTL.CRC_POL p) then xs.map (fun _ => bg) else xs
  let idx := (List.range xs.length).map (fun i => k.pxOfs + i)
  let beyond := idx.filter (fun i => decide (w ≤ i))
  let lap := idx.filter (fun i => decide (i < w) && planeHas a.segs i)
  let kept := if k.pxOfs < w then xs.take (w - k.pxOfs) else []
  ({ segs := a.segs ++ [(k.pxOfs, kept)]
     closed := a.closed || bit k.flags 1 || k.truncated
     eol := a.eol || bit k.flags 1
     short := a.short || k.truncated
     long := a.long || !beyond.isEmpty
     crc := a.crc || k.pcrcBad }, beyond.length + lap.length, !lap.isEmpty)

/-- Line flags that a packet sets (R153). -/
def packetLineFlags (k : Pkt) : Nat :=
  16 * b2n (bit k.flags 4) + 32 * b2n (bit k.flags 3) + 128 * b2n (bit k.flags 2)

/-- Every enabled slot of a line is closed (R152). -/
def lineDone (d : Dev) (p : Nat) (r : LineRec) : Bool := (d.slots p).all (fun q => (r.plane q).closed)

/-- A packet joins its open line, which is forwarded once complete (R149 rule 1, R151, R152). -/
def joinLine (p q : Nat) (k : Pkt) (xs : List Nat) (r : LineRec) (d : Dev) : Dev :=
  let tol : Int := (d.get (R.EKL.EXP_TOL.NS p) : Int) * 65536
  let j := joinPlane d p q (r.bgOf d p q) k xs (r.plane q)
  let off := decide (dtDiff k.dtExp r.e < -tol ∨ tol < dtDiff k.dtExp r.e)
  let r' : LineRec :=
    { r with planes := KMap.put (fun _ => {}) r.planes q j.1
             dtExp := some (r.dtExp.getD k.dtExp)
             flags := r.flags ||| packetLineFlags k ||| (if r.dtExp.isNone && off then 64 else 0) }
  let d := setLine p r' (slot 9 (ekl p) 1 j.2.1 (when j.2.2 (framing p) d))
  if lineDone d p r' then closeLine p r' d else d

/-- Places a RAWn packet whose slot is known by the rules of R149 and R150. -/
def placePacket (p q : Nat) (k : Pkt) (xs : List Nat) (d : Dev) : Dev :=
  let stray := fun (d : Dev) => eklPerf p 8 1 (eklStat p 6 1 d)
  if d.get (R.EKL.STATUS.STATE p) ≠ 4 then stray d
  else
    match matchLine d p k with
    | none => stray d
    | some r =>
      match r.st with
      | .isOpen => joinLine p q k xs r d
      | .isMissing =>
        let d := slot 9 (ekl p) 1 xs.length d
        if r.lateCounted then d
        else setLine p { r with lateCounted := true } (eklPerf p 7 1 (eklStat p 5 1 d))
      | .isToken => stray d
      | .isComplete =>
        if r.eols.contains q then
          let d := slot 9 (ekl p) 1 xs.length d
          if r.dupCounted then d
          else setLine p { r with dupCounted := true } (eklPerf p 6 1 (eklStat p 4 1 d))
        else stray d

/-- The enabled slot that takes a VC and data type (R146). -/
def Dev.slotFor (d : Dev) (p : Nat) (k : Pkt) : Option Nat :=
  (d.slots p).find? (fun q => d.get (R.EKL.PLANE_CTL.VC p q) == k.vc && d.get (R.EKL.PLANE_CTL.DTYPE p q) == k.dtype)

/-- A METADATA packet is copied into its window (R148). -/
def takeMeta (p : Nat) (k : Pkt) (d : Dev) : Dev :=
  let d := setPort p { d.portS p with metaBytes := k.payload.take 256 } d
  put (R.EKL.META_LINE.LINE p) k.line (put (R.EKL.META_INFO.LENGTH p) k.length d)

/-- A CAM_STATUS packet is copied and acted on (R148, R158, R159, R161). -/
def takeStatus (p : Nat) (k : Pkt) (d : Dev) : Dev :=
  let d := setPort p { d.portS p with camstat := k.payload.take 32, lastStat := d.dt, statFull := d.fullNs, statSeen := true } d
  let st := leVal ((k.payload.drop 2).take 1)
  let locked := bit (leVal ((k.payload.drop 3).take 1)) 0
  let d := when (st == 3) (event 9 (R.EKL.STATUS.SEQ p) [R.EKL.STATUS.CAM_FAULT p]) d
  let s := d.get (R.EKL.STATUS.STATE p)
  if s = 2 ∧ locked then portState p 3 d
  else if s = 4 ∧ !locked then eklPerf p 0x12 1 (inc (R.EKL.CAM_UNLOCKED.COUNT p) 1 d)
  else d

/-- A REG_RESP packet completes the request with its MSEQ (R165); without one it is a late response (R43). -/
def takeResp (p : Nat) (k : Pkt) (d : Dev) : Dev :=
  let ms := leVal (k.payload.take 1)
  let s := d.portS p
  match [0, 1].find? (fun w => (KMap.get (fun _ => (none : Option (Nat × Nat))) s.creg w).map Prod.fst == some ms) with
  | none => d
  | some w =>
    let d := setPort p { s with creg := KMap.put (fun _ => none) s.creg w none } d
    let d := put (R.EKL.CREG_DATA.DATA p w) (leVal ((k.payload.drop 8).take 4)) d
    let d := put (R.EKL.CREG_STATUS.RESP p w) (leVal ((k.payload.drop 1).take 1)) (put (R.EKL.CREG_STATUS.BUSY p w) 0 d)
    event 9 (R.EKL.CREG_STATUS.SEQ p w) [R.EKL.CREG_STATUS.DONE p w] d

/-- What becomes of a packet by its data type (R123, R146, R148). FILLER packets and packets of reserved types are counted in
the port; R166 gives that count no register. DESIGN CHOICE (log entry 22): a truncated METADATA, CAM_STATUS or REG_RESP
packet is dropped, and one whose PCRC fails is acted on as a good one; the manual settles both for plane lines only. -/
def takePacket (p : Nat) (k : Pkt) (d : Dev) : Dev :=
  let d := eklPerf p 1 1 d
  let d := when k.pcrcBad (fun d => eklPerf p 9 1 (eklStat p 7 1 d)) d
  match rawBits k.dtype with
  | some n =>
    match d.slotFor p k with
    | some q => placePacket p q k (rawSamples n k.payload (min k.length k.payload.length)) d
    | none => eklStat p 11 1 d
  | none =>
    if k.dtype ≠ 0x20 ∧ k.dtype ≠ 0x21 ∧ k.dtype ≠ 0x22 then setPort p { d.portS p with discards := (d.portS p).discards + 1 } d
    else if k.truncated then d
    else if k.dtype = 0x20 then takeMeta p k d
    else if k.dtype = 0x21 then takeStatus p k d
    else takeResp p k d

/-! ## Framing (R118 to R122) -/

/-- The 24 header bytes of a packet: its SOP body and its first two data blocks (R118, R119). -/
def OpenPkt.head (o : OpenPkt) : List Byte := bodyBytes o.sop ++ (o.data.reverse.take 2).flatMap bodyBytes

/-- A little-endian field of a packet's header. -/
def OpenPkt.field (o : OpenPkt) (a n : Nat) : Nat := fieldAt (o.head.take 24) a n

/-- The payload bytes received, with their padding. -/
def OpenPkt.body (o : OpenPkt) : List Byte := (o.data.reverse.drop 2).flatMap bodyBytes

/-- HCRC is right (R121). -/
def OpenPkt.headOk (o : OpenPkt) : Bool := decide (crc16 (o.head.take 22) = o.field 22 2)

/-- The EOP agrees with the header and with the number of data blocks (R122). `eop` is its body, none where something
else ended the packet. -/
def OpenPkt.agrees (o : OpenPkt) : Option (BitVec 64) → Bool
  | none => false
  | some e =>
    let len := o.field 16 2
    decide (o.data.length - 2 = cdiv len 8) && decide (bits e.toNat 8 8 = if len = 0 then 0 else (len - 1) % 8 + 1)
      && decide (bits e.toNat 48 8 = o.field 20 1)

/-- PCRC is wrong (R121, R122). -/
def OpenPkt.crcBad (o : OpenPkt) : Option (BitVec 64) → Bool
  | none => false
  | some e => o.agrees (some e) && decide (crc32c (o.body.take (o.field 16 2)) ≠ bits e.toNat 16 32)

/-- The packet as its header describes it (R119). -/
def OpenPkt.packet (o : OpenPkt) (eop : Option (BitVec 64)) : Pkt :=
  { vc := o.field 1 1 % 16, dtype := o.field 2 1 % 64, flags := o.field 3 1, line := o.field 4 4, dtExp := o.field 8 8
    length := o.field 16 2, pxOfs := o.field 18 2, pseq := o.field 20 1, payload := o.body.take (o.field 16 2)
    truncated := !o.agrees eop, pcrcBad := o.crcBad eop }

/-- The end of a packet: HCRC, the agreement of counts, and PCRC are checked (R119, R122). DESIGN CHOICE (log entry 22): a
packet discarded for its HCRC leaves the expected PSEQ as it is, so that the next packet counts it as lost too. -/
def endPacket (p : Nat) (o : OpenPkt) (eop : Option (BitVec 64)) (d : Dev) : Dev :=
  let d := setPort p { d.portS p with pkt := none } d
  if o.data.length < 2 then framing p d
  else if !o.headOk then eklPerf p 0xa 1 (eklStat p 8 1 d)
  else
    let k := o.packet eop
    let s := d.portS p
    let gap := (k.pseq + 256 - s.pseq) % 256
    let d := setPort p { s with pseq := (k.pseq + 1) % 256 } d
    let d := eklPerf p 0xc gap (eklStat p 10 gap d)
    takePacket p k (when k.truncated (framing p) d)

/-- An echo has not been answered 100 µs after T1 (R133, R164). -/
def echoLost (p : Nat) (d : Dev) : Dev :=
  eklPerf p 0xe 1 (eklStat p 14 1 (setPort p { d.portS p with echo := none } d))

/-- The answer to an echo request, which arrives at DT T4: PT_DELAY from the round trip (R88, R133). The turnaround is in ps.
An answer more than 100 µs after T1 is late, and is dropped (R43). -/
def echoResp (p t4 : Nat) (b : Blk) (d : Dev) : Dev :=
  let id := bits b.body.toNat 8 16
  let turn : Int := (bits b.body.toNat 24 32 : Nat)
  match (d.portS p).echo with
  | some (i, t1) =>
    if 100000 * 65536 < dtDiff t4 t1 then echoLost p d
    else if i = id then
      let ps := fdiv (dtDiff t4 t1 * 1000 + (sgn 32 (d.get (R.TIM.PT_DLASYM.PS p)) - turn) * 65536) 131072
      put (R.TIM.PT_DELAY.PS p) (unsgn 32 ps) (setPort p { d.portS p with echo := none } d)
    else d
  | none => d

/-- A control block of a type that R114 does not list for an uplink is discarded and counted as a framing error; it ends an
open packet as truncated, and the two are one case of R122 (DESIGN CHOICE, log entry 22, which also says that MSG, a type of
the other direction, is such a block). -/
def unknownBlock (p : Nat) (d : Dev) : Dev :=
  match (d.portS p).pkt with
  | some o =>
    let bad := decide (2 ≤ o.data.length) && !o.headOk
    when bad (framing p) (endPacket p o none d)
  | none => framing p d

/-- One block of the rebuilt stream, at DT `t` (R114, R117, R122). In STANDBY a receiver discards data blocks (R105). DESIGN
CHOICE (log entry 22): a TRAIN block, which never stands in the stream, is passed over without a count, and so is a block
with an invalid header, which ERR_HDR has counted. -/
def feedBlock (p t4 : Nat) (b : Blk) (d : Dev) : Dev :=
  let s := d.portS p
  if b.hdr = 1#2 then
    if d.get R.PWR.STATUS.STATE = 3 then d
    else match s.pkt with
    | some o => setPort p { s with pkt := some { o with data := b.body :: o.data } } d
    | none => framing p d
  else if b.hdr = 2#2 then
    let t := blkByte b 0
    if t = 0x1e ∨ t = 0x55 ∨ t = 0xa5 then d
    else if t = 0x33 then echoResp p t4 b d
    else if t = 0x87 then
      match s.pkt with
      | some o => endPacket p o (some b.body) d
      | none => framing p d
    else if t = 0x78 ∨ t = 0x66 then
      let d := match s.pkt with
        | some o => endPacket p o none d
        | none => d
      if t = 0x78 then setPort p { d.portS p with pkt := some { sop := b.body } } d else d
    else unknownBlock p d
  else d

/-- A row of MASK_MARK blocks agrees on every lane of a mask with a LANE_MASK that was sent (R142, R143). -/
def marksMask (bs : List (Nat × Blk)) (x : Nat × Nat) : Bool :=
  (List.range 4).all (fun k => !bit x.1 k || bs.any (fun y => y.1 == k && y.2.hdr == 2#2 && blkByte y.2 0 == 0x66
    && blkByte y.2 1 % 16 == x.1 && blkByte y.2 2 == x.2))

/-- The mask of a MASK_MARK row is in force from the next row on; what was sent before it is replaced (R143). -/
def takeMask (p : Nat) (bs : List (Nat × Blk)) (d : Dev) : Dev :=
  let s := d.portS p
  match s.maskSent.find? (marksMask bs) with
  | some x => setPort p { s with mask := x.1, maskSent := (s.maskSent.dropWhile (fun y => y != x)).drop 1 } d
  | none => d

/-- One row that arrives at DT `t`: the blocks of logical lanes 0 to 3, aligned by the deskew buffers (R101, R115). The port
takes those of the mask in force, in ascending order (R115, R143). -/
def feedRow (p t : Nat) (row : List Blk) (d : Dev) : Dev :=
  let ks := d.rowLanes p
  let r := rxRow p row d
  takeMask p r.1 (each (fun (x : Nat × Blk) => feedBlock p t x.2) (r.1.filter (fun x => ks.contains x.1)) r.2)

/-- A camera port, as it is set, contradicts R146 or R162: its results are unpredictable (R34). -/
def Dev.portErr (d : Dev) (p : Nat) : Option String :=
  let qs := d.slots p
  if qs.any (fun q => qs.any (fun r => q != r && d.get (R.EKL.PLANE_CTL.VC p q) == d.get (R.EKL.PLANE_CTL.VC p r))) then
    some "two plane slots take one virtual channel"
  else if qs.any (fun q => d.get (R.EKL.PLANE_CTL.WIDTH p q) == 0 || decide (16384 < d.get (R.EKL.PLANE_CTL.WIDTH p q))) then
    some "a plane slot has a WIDTH outside 1 to 16384"
  else if qs.any (fun q => (rawBits (d.get (R.EKL.PLANE_CTL.DTYPE p q))).isNone) then some "a plane slot has a DTYPE that is no RAW type"
  else if d.get (R.EKL.STATUS.ROUTE_ACT p) = 3 then some "a port has the reserved ROUTE"
  else if d.get (R.EKL.STATUS.ROUTE_ACT p) = 0 ∧ (List.range 12).any (fun o => o != p && d.get (R.EKL.STATUS.STATE o) != 0
      && d.get (R.EKL.STATUS.ROUTE_ACT o) == 0 && d.get (R.EKL.CTL.HOME o) == d.get (R.EKL.CTL.HOME p)) then
    some "two ports in line have one home lathe"
  else none

/-- Rows of blocks from the lanes of a port that arrive at DT `t` (R115). -/
def feedRows (p t : Nat) (rows : List (List Blk)) (d : Dev) : Dev := each (feedRow p t) rows d

/-- Rows that a command brings at the present DT; a RUN port whose settings contradict each other stops the model (R34). -/
def rowsNow (p : Nat) (rows : List (List Blk)) (s : State) : Host.Outcome State Fault Refusal :=
  run (fun _ d =>
    match (if d.get (R.EKL.STATUS.STATE p) = 4 then d.portErr p else none) with
    | some w => .fault (.hostError w)
    | none => .next (feedRows p d.dt rows d)) s

/-! ## The commands of the block stream -/

/-- `RAW_PACKET` (R149). -/
def execRawPacket (p : Fin 12) (rows : List (List Blk)) (s : State) : Host.Outcome State Fault Refusal :=
  rowsNow p.val rows s
/-- `METADATA` (R148). -/
def execMetadata (p : Fin 12) (rows : List (List Blk)) (s : State) : Host.Outcome State Fault Refusal :=
  rowsNow p.val rows s
/-- `CAM_STATUS` (R158). -/
def execCamStatus (p : Fin 12) (rows : List (List Blk)) (s : State) : Host.Outcome State Fault Refusal :=
  rowsNow p.val rows s
/-- `FILLER` (R123). -/
def execFiller (p : Fin 12) (rows : List (List Blk)) (s : State) : Host.Outcome State Fault Refusal :=
  rowsNow p.val rows s
/-- `REG_RESP` (R165). -/
def execRegResp (p : Fin 12) (rows : List (List Blk)) (s : State) : Host.Outcome State Fault Refusal :=
  rowsNow p.val rows s
/-- `ECHO_RESP` (R133): the row that carries the block arrives at DT T4. -/
def execEchoResp (p : Fin 12) (t4 : BitVec 64) (rows : List (List Blk)) (s : State) : Host.Outcome State Fault Refusal :=
  run (fun _ d =>
    match (if d.get (R.EKL.STATUS.STATE p.val) = 4 then d.portErr p.val else none) with
    | some w => .fault (.hostError w)
    | none => .next (feedRows p.val t4.toNat rows (reach t4.toNat d))) s
/-- `MASK_MARK` (R143). -/
def execMaskMark (p : Fin 12) (rows : List (List Blk)) (s : State) : Host.Outcome State Fault Refusal :=
  rowsNow p.val rows s

/-! ## The ring (R163) -/

/-- Bytes of a slot of the port's ring, padded to 64 (R163). -/
def Dev.ringSlotSize (d : Dev) (p : Nat) : Nat :=
  cdiv (64 + 2 * sumNat ((d.slots p).map (fun q => d.get (R.EKL.PLANE_CTL.WIDTH p q)))) 64 * 64

/-- Slots of the port's ring. -/
def Dev.ringSlots (d : Dev) (p : Nat) : Nat := (d.region (d.get (R.EKL.CTL.RING_RGN p))).2 / d.ringSlotSize p

/-- Device address of a slot of the port's ring. -/
def Dev.ringAddr (d : Dev) (p i : Nat) : Nat :=
  (d.region (d.get (R.EKL.CTL.RING_RGN p))).1 + i * d.ringSlotSize p

/-- The 64-byte line header of a ring slot (R163). -/
def ringHeader (d : Dev) (p : Nat) (l : CamLine) (seq : Nat) : List Byte :=
  let en := (List.range 4).foldl (fun m q => if d.on (R.EKL.PLANE_CTL.EN p q) then m + 2 ^ q else m) 0
  let h := leBytes 4 l.lsn ++ leBytes 2 l.flags ++ leBytes 1 en ++ leBytes 1 p ++ leBytes 8 l.dtExp ++ leBytes 8 l.dtDone
    ++ (List.range 4).flatMap (fun q => leBytes 2 (d.get (R.EKL.PLANE_CTL.WIDTH p q)))
    ++ (List.range 4).flatMap (fun q => leBytes 1 (nth 0 l.pflags q)) ++ leBytes 4 seq ++ List.replicate 20 0#8
  h ++ leBytes 4 (crc32c h)

/-- The oldest line being written lands in its slot; an unread slot is overwritten, and its line is lost (R163). The bytes
count as DRAM user 0 (R11); a region that another owner holds than 0x04 takes none of them (R162). -/
def ringSlotWritten (p : Nat) (m : Mem) (d : Dev) : Dev :=
  let s := d.portS p
  match s.ringOut with
  | [] => d
  | l :: rest =>
    let n := d.ringSlots p
    if n = 0 then setPort p { s with ringOut := rest } d
    else
      let a := d.ringAddr p (s.ringSeq % n)
      let old := (d.dramRead m a 24).1
      let body := if l.token then [] else l.planes.flatMap (fun xs => xs.flatMap (leBytes 2))
      let bs := ringHeader d p l (s.ringSeq % 2 ^ 32) ++ body
      let d := meterUser 0 bs.length (when (d.mayUse 3 (d.get (R.EKL.CTL.RING_RGN p)) 4) (dramWrite a bs) d)
      let lost := decide (s.ringRd + n ≤ s.ringSeq)
      let gone : Option (Nat × Nat × Nat) := some (leVal (old.take 4), leVal ((old.drop 8).take 8), leVal ((old.drop 16).take 8))
      let d := setPort p { s with
        ringOut := rest, ringSeq := s.ringSeq + 1
        ringLost := if lost then KMap.put (fun _ => none) s.ringLost (s.ringSeq - n) gone else s.ringLost } d
      let d := put (R.EKL.RING_WR.SLOT p) ((s.ringSeq + 1) % n) d
      when lost (fun d => eklPerf p 0xd 1 (eklStat p 13 1 (event 9 (R.EKL.STATUS.SEQ p) [R.EKL.STATUS.RING_OVR p] d))) d

/-- A port's ring cannot be used: it has fewer than 64 slots, or its region is no port ring (R163, R24, R34). -/
def Dev.ringErr (d : Dev) (p : Nat) : Option String :=
  if d.get (R.TOP.RGN.USE (d.get (R.EKL.CTL.RING_RGN p))) ≠ 1 then some "the ring of a port lies in a region of another USE"
  else if d.ringSlots p < 64 then some "the ring of a port has fewer than 64 slots"
  else none

/-- `RING_SLOT_WRITTEN` (R163): a ring that is a host error stops the model (R34). -/
def execRingSlotWritten (p : Fin 12) (s : State) : Host.Outcome State Fault Refusal :=
  run (fun m d =>
    if (d.portS p.val).ringOut.isEmpty then .next d
    else match d.ringErr p.val with
    | some w => .fault (.hostError w)
    | none => .next (ringSlotWritten p.val m d)) s

/-! ## Watchdogs and down events -/

/-- The oldest open line of a port. -/
def Dev.oldestOpen (d : Dev) (p : Nat) : Option LineRec :=
  ((d.portS p).lines.reverse).find? (fun r => r.st == .isOpen)

/-- The line watchdog expires for the oldest open line (R154), or for the oldest issued line that waits for a
replay line, which becomes a token (R422). -/
def lineWatchdog (p : Nat) (d : Dev) : Dev :=
  match d.oldestOpen p with
  | none =>
    match (d.portS p).replayWait with
    | [] => d
    | (lsn, e) :: rest =>
      let d := reachNs e (max 5000 (d.get (R.EKL.LINE_TO.NS p))) d
      forwardLine p (tokenLine p lsn e d) (perf 0x15 0x1d80000 0xb 1 (setPort p { d.portS p with replayWait := rest } d))
  | some r =>
    let d := reachNs r.e (max 5000 (r.lineTo.getD (d.get (R.EKL.LINE_TO.NS p)))) d
    if r.hasSample then closeLine p r d else missLine p r d

/-- `LINE_WATCHDOG` (R154). -/
def execLineWatchdog (p : Fin 12) (s : State) : Host.Outcome State Fault Refusal :=
  total (fun _ d => lineWatchdog p.val d) s

/-- `CAM_STATUS_TIMEOUT` (R157): no CAM_STATUS for 300 ms in RUN, cause 0x3. -/
def execCamStatusTimeout (p : Fin 12) (s : State) : Host.Outcome State Fault Refusal :=
  total (fun _ d =>
    if d.get (R.EKL.STATUS.STATE p.val) = 4 then
      let d := reachNs (d.portS p.val).lastStat 300000000 d
      downEvent p.val 3 (event 9 (R.EKL.STATUS.SEQ p.val) [R.EKL.STATUS.STAT_TO p.val] d)
    else d) s

/-- The port is enabled and has left OFF (R159). -/
def Dev.portOn (d : Dev) (p : Nat) : Bool := d.get (R.EKL.STATUS.STATE p) != 0

/-- `CMD.HOLD` takes the port down with cause 0x4 (R157). -/
def holdPort (p : Nat) (d : Dev) : Dev :=
  if d.portOn p && d.get (R.EKL.STATUS.STATE p) != 5 then downEvent p 4 d else d
/-- `CMD.RELINK` takes the port down with cause 0x5 and relinks it (R157, R160). -/
def relinkPort (p : Nat) (d : Dev) : Dev := if d.portOn p then downEvent p 5 d else d

/-- `HOLD` (R157). -/
def execHold (p : Fin 12) (s : State) : Host.Outcome State Fault Refusal := total (fun _ d => holdPort p.val d) s
/-- `RELINK` (R160). -/
def execRelink (p : Fin 12) (s : State) : Host.Outcome State Fault Refusal := total (fun _ d => relinkPort p.val d) s

/-! ## Time messages and register windows -/

/-- ECHO_REQ leaves at the present DT, which is T1 (R133). -/
def sendEcho (p : Nat) (d : Dev) : Dev :=
  let s := d.portS p
  if d.downlinkUp p then
    let d := setPort p { s with echo := some (s.echoId, d.dt), echoId := (s.echoId + 1) % 65536, echoAt := some d.dt } d
    sendMsg p 3 (leBytes 2 s.echoId) d
  else d

/-- DT moves on to the end of an interval in ms that began at `t`; at once where none began. -/
def reachMs (t : Option Nat) (ms : Nat) (d : Dev) : Dev :=
  match t with
  | some t => reachNs t (1000000 * ms) d
  | none => d

/-- `ECHO_REQ` (R159, R164): in LOCKING, WAIT_BLOCK and RUN, ECHO_MS after the one before; 0 is applied as 1. -/
def execEchoReq (p : Fin 12) (s : State) : Host.Outcome State Fault Refusal :=
  total (fun _ d =>
    when (d.linked p.val) (fun d => sendEcho p.val (reachMs (d.portS p.val).echoAt (max 1 (d.get (R.EKL.TIME_CTL.ECHO_MS p.val))) d)) d) s

/-- `ECHO_TIMEOUT` (R133, R164): 100 µs after T1; the previous PT_DELAY stays. -/
def execEchoTimeout (p : Fin 12) (s : State) : Host.Outcome State Fault Refusal :=
  total (fun _ d =>
    match (d.portS p.val).echo with
    | none => d
    | some (_, t1) =>
      echoLost p.val (reachNs t1 100000 d)) s

/-- TIME_SET carries DT_TX and EPOCH of its leaving, and PT_DELAY (R134). -/
def sendTimeSet (p : Nat) (d : Dev) : Dev :=
  sendMsg p 2 (leBytes 4 d.tim.epoch ++ leBytes 8 d.dt ++ leBytes 4 (d.get (R.TIM.PT_DELAY.PS p)))
    (when (d.downlinkUp p) (fun d => setPort p { d.portS p with timeAt := some d.dt } d) d)

/-- The TIME_SET interval in ms: 1 in LOCKING, else TS_MS, where 0 is applied as 1 and more than 10 as 10 (R135, R159, R164). -/
def Dev.timeMs (d : Dev) (p : Nat) : Nat :=
  if d.get (R.EKL.STATUS.STATE p) = 2 then 1 else min 10 (max 1 (d.get (R.EKL.TIME_CTL.TS_MS p)))

/-- A TIME_SET may leave: in LOCKING, WAIT_BLOCK and RUN; in LOCKING the first one stands behind the first echo (R159). -/
def Dev.timeReady (d : Dev) (p : Nat) : Bool :=
  d.linked p && (d.get (R.EKL.STATUS.STATE p) != 2 || (d.portS p).timeAt.isSome
    || ((d.portS p).echoAt.isSome && (d.portS p).echo.isNone))

/-- `TIME_SET` (R164): one interval after the one before. -/
def execTimeSet (p : Fin 12) (s : State) : Host.Outcome State Fault Refusal :=
  total (fun _ d =>
    when (d.timeReady p.val) (fun d => sendTimeSet p.val (reachMs (d.portS p.val).timeAt (d.timeMs p.val) d)) d) s

/-- A register request of a window leaves and sets BUSY; one given while BUSY is a framing error (R165). DESIGN CHOICE (log
entry 81): where the downlink carries no messages (HELD, STANDBY, a lane that is not UP), the request does not leave and ends
with TIMEOUT 2 ms after its command. -/
def cregRequest (p w code : Nat) (d : Dev) : Dev :=
  if d.on (R.EKL.CREG_STATUS.BUSY p w) then framing p d
  else
    let s := d.portS p
    let d := setPort p { s with creg := KMap.put (fun _ => none) s.creg w (some (s.mseq, d.dt)) } d
    let body := leBytes 4 (d.get (R.EKL.CREG_ADDR.ADDR p w)) ++
      (if code = 4 then leBytes 4 (d.get (R.EKL.CREG_DATA.DATA p w)) else [])
    put (R.EKL.CREG_STATUS.BUSY p w) 1 (sendMsg p code body d)

/-- `CREG_RD` (R165). -/
def execCregRd (p : Fin 12) (w : Fin 2) (s : State) : Host.Outcome State Fault Refusal :=
  total (fun _ d => cregRequest p.val w.val 5 d) s
/-- `CREG_WR` (R165). -/
def execCregWr (p : Fin 12) (w : Fin 2) (s : State) : Host.Outcome State Fault Refusal :=
  total (fun _ d => cregRequest p.val w.val 4 d) s

/-- `CREG_TIMEOUT` (R165): 2 ms after the request left. -/
def execCregTimeout (p : Fin 12) (w : Fin 2) (s : State) : Host.Outcome State Fault Refusal :=
  total (fun _ d =>
    match KMap.get (fun _ => (none : Option (Nat × Nat))) (d.portS p.val).creg w.val with
    | none => d
    | some (_, t) => cregTimeout p.val w.val (reachNs t 2000000 d)) s

end Sys2Proof.Machine
end

