-- ==== Sys2Proof/Machine/Lathes.lean ====
section
/-!
DEFINITION. The lathes: contexts and shares, the five stages, background tracking, guest scheduling and the
lathe's self-test (R168 to R195).
-/

namespace Sys2Proof.Machine

def lthPerf (n code k : Nat) (d : Dev) : Dev := perf 10 (lthBase n) code k d

/-! ## Ranges and pool entries (R170 to R172) -/

/-- The columns of a plane slot that a context handles: read range [lo, hi) and share [s0, s1). -/
structure Span where
  lo : Nat
  hi : Nat
  s0 : Nat
  s1 : Nat
deriving DecidableEq, Repr

/-- Port of a context. -/
def Dev.ctxPort (d : Dev) (n c : Nat) : Nat := d.get (R.LTH.CTX_CTL.PORT n c)

/-- Share and read range of a plane slot: the halo is 4 columns on each side, clipped (R170, R171). -/
def Dev.span (d : Dev) (n c q : Nat) : Span :=
  let w := d.get (R.EKL.PLANE_CTL.WIDTH (d.ctxPort n c) q)
  if c = 0 then ⟨0, w, 0, w⟩
  else
    let sh := d.shareOf n c
    let s0 := min sh.1 w
    let s1 := min sh.2 w
    if s0 < s1 then ⟨s0 - 4, min (s1 + 4) w, s0, s1⟩ else ⟨s0, s0, s0, s0⟩

/-- Pool entries before a plane slot within its context (R172). -/
def Dev.slotBase (d : Dev) (n c q : Nat) : Nat :=
  sumNat (((d.slots (d.ctxPort n c)).filter (· < q)).map (fun r => (d.span n c r).hi - (d.span n c r).lo))

/-- LEN of a context. -/
def Dev.ctxLen (d : Dev) (n c : Nat) : Nat :=
  sumNat ((d.slots (d.ctxPort n c)).map (fun r => (d.span n c r).hi - (d.span n c r).lo))

/-- The pixel index of a column of a plane slot (R172). -/
def Dev.pixel (d : Dev) (n c q col : Nat) : Nat :=
  d.get (R.LTH.CTX_POOL.BASE n c) + d.slotBase n c q + (col - (d.span n c q).lo)

/-- Fields of a pool entry in the active bank (R185). -/
structure PoolEnt where
  dark : Nat
  gain : Nat
  plate : Nat
  defect : Nat
  noTrk : Bool
deriving DecidableEq, Repr

def Dev.pool (d : Dev) (n i : Nat) : PoolEnt :=
  let code := d.actHalf n (2 * i + 1) 1
  { dark := d.actHalf n (2 * i) 0, gain := d.actHalf n (2 * i) 1, plate := d.actHalf n (2 * i + 1) 0
    defect := code % 4, noTrk := bit code 2 }

/-! ## The stages (R173 to R182) -/

/-- A mean of two samples (R173). -/
def mean2 (a b : Nat) : Nat := (a + b + 1) / 2

/-- A clip to 16 bits. -/
def clip16 (x : Int) : Nat := (clampI 0 65535 x).toNat

/-- A value was set to a limit by the clip of R175 or R176. -/
def wasClipped (x : Int) : Bool := decide (x < 0 ∨ 65535 < x)

/-- The history line with LSN `k` less than the current one (R186). -/
def histLine (h : List (Nat × List (List Nat))) (lsn k : Nat) : Option (List (List Nat)) :=
  (h.find? (fun e => e.1 == (lsn + 2 ^ 32 - k) % 2 ^ 32)).map (·.2)

/-- A sample of a line by its column, when the column lies in the read range. -/
def colOf (sp : Span) (xs : List Nat) (col : Nat) : Nat := nth 0 xs (col - sp.lo)

/-- The replacement of a defective sample (R173); `code` gives the DEFECT of a column of the plane. -/
def fillValue (sp : Span) (bg : Nat) (raw : List Nat) (code : Nat → Nat) (line1 : Option (List Nat)) (col : Nat) : Nat :=
  let side (k : Nat) : Nat :=
    let l := decide (sp.lo + k ≤ col) && code (col - k) == 0
    let r := decide (col + k < sp.hi) && code (col + k) == 0
    if l && r then mean2 (colOf sp raw (col - k)) (colOf sp raw (col + k))
    else if l then colOf sp raw (col - k)
    else if r then colOf sp raw (col + k)
    else bg
  match code col with
  | 0 => colOf sp raw col
  | 1 => side 1
  | 2 =>
    match line1 with
    | some xs => colOf sp xs col
    | none => bg
  | _ => side 2

/-- Stage 1 fill of one plane slot over its read range (R173). -/
def fillPlane (d : Dev) (n c q bg : Nat) (raw : List Nat) (line1 : Option (List Nat)) : List Nat :=
  let sp := d.span n c q
  if d.on (R.LTH.NR_CTL.FILL_EN n c) then
    let code (col : Nat) : Nat := (d.pool n (d.pixel n c q col)).defect
    (List.range (sp.hi - sp.lo)).map (fun i => fillValue sp bg raw code line1 (sp.lo + i))
  else raw

/-- The noise filter at one column (R174). Taps are (line, column offset + 2). With FILL_EN = 0 stage 1 ignores the DEFECT
codes (R173). -/
def filterAt (d : Dev) (n c q : Nat) (lines : List (Option (List Nat))) (col : Nat) : Nat :=
  let sp := d.span n c q
  let x := colOf sp ((nth none lines 0).getD []) col
  let lim := 16 * d.get (R.LTH.NR_CTL.STRENGTH n c)
  let w := d.get (R.LTH.NR_W.W n c)
  let tap (acc : Nat × Nat) (j : Nat) : Nat × Nat :=
    let l := j / 5
    let k := j % 5
    let cc := col + k - 2
    let inside := decide (sp.lo + 2 ≤ col + k ∧ cc < sp.hi)
    let usable := j == 2 || (inside && (!d.on (R.LTH.NR_CTL.FILL_EN n c) || (d.pool n (d.pixel n c q cc)).defect == 0)
      && (l == 0 || (d.on (R.LTH.NR_CTL.TIME_EN n c) && (nth none lines l).isSome)))
    if usable then
      let y := colOf sp ((nth none lines l).getD []) cc
      let wj := if j = 2 then max 1 (bits w (4 * j) 4) else bits w (4 * j) 4
      if (if x ≤ y then y - x else x - y) ≤ lim then (acc.1 + wj * y, acc.2 + wj) else acc
    else acc
  let nd := (List.range 15).foldl tap (0, 0)
  (nd.1 + nd.2 / 2) / max 1 nd.2

/-- Stage 2 before its clip (R175). -/
def flatRaw (p : PoolEnt) (y1 : Nat) : Int := fdiv (((y1 : Int) - p.dark) * p.gain + 8192) 16384

/-- The tracking gain of a zone (R176, R185). -/
def Dev.tgain (d : Dev) (n z : Nat) : Nat := KMap.get (fun _ => 0x4000) (d.lthS n).tg z

/-- Stage 3 before its clip (R176). -/
def trackRaw (g y2 : Nat) : Int := fdiv ((y2 * g + 8192 : Nat) : Int) 16384

/-- Entry j of the LUT of a context and slot in the active bank. -/
def Dev.lutEntry (d : Dev) (n c q j : Nat) : Nat := d.actHalf n (lutWord c q (j / 2)) (j % 2)

/-- Stage 4 (R181). -/
def linearise (d : Dev) (n c q y3 : Nat) : Nat :=
  if bit (d.get (R.LTH.LIN_CTL.EN n c)) q then
    let j := y3 / 16
    let a : Int := d.lutEntry n c q j
    let b : Int := d.lutEntry n c q (j + 1)
    (a + fdiv ((b - a) * (y3 - 16 * j : Nat) + 8) 16).toNat
  else y3

/-- The binning factor of a slot (R182). -/
def Dev.binOf (d : Dev) (n c q : Nat) : Nat := 2 ^ bits (d.get (R.LTH.BIN_CTL.BIN n c)) (2 * q) 2

/-- Stage 5 (R182). -/
def binPlane (d : Dev) (n c q : Nat) (xs : List Nat) : List Nat :=
  let k := d.binOf n c q
  if k = 1 then xs
  else (piecesOf k (xs.length + 1) xs).map (fun g =>
    if d.on (R.LTH.BIN_CTL.MODE n c) then min (sumNat g) 65535 else (sumNat g + k / 2) / k)

/-- What the five stages give for one plane slot of a line. -/
structure StageOut where
  t1 : List Nat := []
  t2 : List Nat := []
  y3 : List Nat := []
  out : List Nat := []
  filled : Nat := 0
  clip2 : Nat := 0
  clip3 : Nat := 0
deriving DecidableEq, Repr

/-- The stages over one plane slot; `fill` holds the filled samples of lines 0, 1 and 2. -/
def stagesOf (d : Dev) (n c q : Nat) (fill : List (Option (List Nat))) : StageOut :=
  let sp := d.span n c q
  let cols := (List.range (sp.s1 - sp.s0)).map (· + sp.s0)
  let t1 := cols.map (filterAt d n c q fill)
  let ents := cols.map (fun col => d.pixel n c q col)
  let r2 := (ents.zip t1).map (fun e => flatRaw (d.pool n e.1) e.2)
  let t2 := r2.map clip16
  let r3 := (ents.zip t2).map (fun e => trackRaw (d.tgain n (e.1 / 16)) e.2)
  let y3 := r3.map clip16
  { t1, t2, y3, out := binPlane d n c q (y3.map (linearise d n c q))
    filled := if d.on (R.LTH.NR_CTL.FILL_EN n c) then
        ((List.range (sp.hi - sp.lo)).filter (fun i => (d.pool n (d.pixel n c q (sp.lo + i))).defect != 0)).length else 0
    clip2 := (r2.filter wasClipped).length, clip3 := (r3.filter wasClipped).length }

/-! ## Background tracking (R177 to R180) -/

/-- One sample in the accumulators of its zone (R177). -/
def trackSample (d0 : Dev) (n c : Nat) (acc : KMap (Nat × Nat × Nat)) (e : Nat × Nat × Nat) : KMap (Nat × Nat × Nat) :=
  let p := d0.pool n e.1
  let y2 := e.2.1
  let y3 := e.2.2
  let dist := if p.plate ≤ y3 then y3 - p.plate else p.plate - y3
  if p.defect = 0 ∧ p.noTrk = false ∧ dist ≤ 16 * d0.get (R.LTH.TRK_CTL.TOL n c) then
    let z := e.1 / 16
    let a := KMap.get (fun _ => ((0 : Nat), (0 : Nat), (0 : Nat))) acc z
    KMap.put (fun _ => (0, 0, 0)) acc z (a.1 + y2, a.2.1 + p.plate, a.2.2 + 1)
  else acc

/-- The zones of a context's pool entries. -/
def Dev.ownsZone (d : Dev) (n c z : Nat) : Bool :=
  let b := d.get (R.LTH.CTX_POOL.BASE n c)
  let l := d.get (R.LTH.CTX_LEN.LEN n c)
  decide (b / 16 ≤ z ∧ 16 * z < b + l)

/-- The new gain of a zone (R178). -/
def slewGain (d : Dev) (n c g : Nat) (a : Nat × Nat × Nat) : Nat :=
  let target : Int := min 65535 ((a.2.1 * 16384 + a.1 / 2) / max 1 a.1 : Nat)
  let slew : Int := d.get (R.LTH.TRK_CTL.SLEW n c)
  ((g : Int) + clampI (-slew) slew (target - g)).toNat

/-- One zone at the end of a window (R178, R180). -/
def updateZone (n c : Nat) (e : Nat × (Nat × Nat × Nat)) (d : Dev) : Dev :=
  let z := e.1
  let a := e.2
  let x := d.lthS n
  if !d.ownsZone n c z then d
  else
    let held := (KMap.get (fun _ => (none : Option Nat)) x.tgNew z).isSome
    let g := d.tgain n z
    let g' := slewGain d n c g a
    let d := setLth n { x with acc := KMap.put (fun _ => (0, 0, 0)) x.acc z (0, 0, 0) } d
    if !held && decide (16 * d.get (R.LTH.TRK_CTL.MINCNT n c) ≤ a.2.2) && decide (0 < a.1) then
      let d := setLth n { d.lthS n with tg := KMap.put (fun _ => 0x4000) (d.lthS n).tg z g' } d
      when (g' != g) (lthPerf n 0xd 1) d
    else d

/-- The end of a context's tracking window (R178). -/
def windowEnd (n c : Nat) (d : Dev) : Dev :=
  let k := (d.lthS n).ctxS c
  if k.winDue then
    let d := setCtx n c { k with winDue := false } d
    lthPerf n 0xb 1 (each (updateZone n c) (d.lthS n).acc d)
  else d

/-- `TRACKING_WINDOW_END` (R178). -/
def execTrackingWindowEnd (n : Fin 8) (c : Fin 3) (s : State) : Host.Outcome State Fault Refusal :=
  total (fun _ d => windowEnd n.val c.val d) s

/-- A gain written lands at a line boundary of its context, and its zone restarts (R180). -/
def landGain (n c : Nat) (e : Nat × Option Nat) (d : Dev) : Dev :=
  match e.2 with
  | none => d
  | some v =>
    if d.ownsZone n c e.1 then
      let x := d.lthS n
      setLth n { x with tg := KMap.put (fun _ => 0x4000) x.tg e.1 v, tgNew := KMap.put (fun _ => none) x.tgNew e.1 none
                        acc := KMap.put (fun _ => (0, 0, 0)) x.acc e.1 (0, 0, 0) } d
    else d

/-- A firing of compare unit `u` with action 0x5 opens the windows of the contexts that name it, or is missed
(R179, R81). -/
def trackFire (u : Nat) (owned : Bool) (n c : Nat) (d : Dev) : Dev :=
  if d.on (R.LTH.CTX_CTL.ACTIVE n c) && d.get (R.LTH.TRK_CTL.MODE n c) == 2 && d.get (R.LTH.TRK_WIN.CMP n c) == u then
    let k := (d.lthS n).ctxS c
    if owned && k.win.isNone then
      setCtx n c { k with win := some (d.dt, max 1 (d.get (R.LTH.TRK_WIN.LINES n c))) } d
    else lthPerf n 0xc 1 (event 10 (R.LTH.CTX_STATUS.SEQ n c) [R.LTH.CTX_STATUS.TRK_MISS n c] d)
  else d

/-- A firing over all contexts. -/
def trackFireAll (u : Nat) (owned : Bool) (d : Dev) : Dev :=
  each (fun n d => each (trackFire u owned n) [0, 1, 2] d) (List.range 8) d

/-! ## Boundaries of a context (R37, R183, R184) -/

/-- Addresses of a context's registers. -/
def ctxRegs (n c : Nat) : Nat := lthBase n + 0x100 + 0x80 * c

/-- The context as a table unit. -/
def lthUnit (n c : Nat) : TblUnit := .lth (Fin.ofNat 8 n) (Fin.ofNat 3 c)

/-- A line of its port reaches a context: the update of a window that has ended, block boundary, line boundary. -/
def ctxLine (n c : Nat) (d : Dev) : Dev :=
  let k := (d.lthS n).ctxS c
  let len := d.get (R.EKL.BLOCK.LINES (d.ctxPort n c))
  let first := k.blk == 0 || decide (len ≤ k.blk)
  let d := windowEnd n c d
  let d := if first then applyPend (inRange (ctxRegs n c) 0x80 .block) (boundarySwap (lthUnit n c) d) else d
  let d := each (landGain n c) (d.lthS n).tgNew d
  setCtx n c { (d.lthS n).ctxS c with blk := if first then 1 else k.blk + 1 } d

/-- The line that has passed closes a window when it was its last one (R179). -/
def windowCount (n c e : Nat) (d : Dev) : Dev :=
  let k := (d.lthS n).ctxS c
  match d.get (R.LTH.TRK_CTL.MODE n c) with
  | 1 => setCtx n c { k with winDue := k.winDue || k.blk == d.get (R.EKL.BLOCK.LINES (d.ctxPort n c)) } d
  | 2 =>
    match k.win with
    | none => d
    | some (t, left) =>
      if dtGe e t then
        if left ≤ 1 then setCtx n c { k with win := none, winDue := true } d else setCtx n c { k with win := some (t, left - 1) } d
      else d
  | _ => d

/-- The line lies in a tracking window of its context (R179). -/
def Dev.tracking (d : Dev) (n c e : Nat) : Bool :=
  match d.get (R.LTH.TRK_CTL.MODE n c) with
  | 1 => true
  | 2 =>
    match ((d.lthS n).ctxS c).win with
    | some (t, _) => dtGe e t
    | none => false
  | _ => false

/-! ## A line through the lathe -/

/-- The piece of a token (R186). -/
def tokenPiece (d : Dev) (n c : Nat) (l : CamLine) : Piece :=
  { port := l.port, lsn := l.lsn, e := l.e, flags := l.flags, pflags := l.pflags, token := true
    segs := (d.slots l.port).map (fun q =>
      let sp := d.span n c q
      let k := d.binOf n c q
      (q, sp.s0 / k, (sp.s1 - sp.s0) / k, [])) }

/-- A piece goes to the fusion unit. -/
def toFusion (p : Piece) (d : Dev) : Dev := { d with fus := { d.fus with queue := d.fus.queue ++ [p] } }

/-- The four taps of a line (R191). -/
def lineTaps (n c : Nat) (l : CamLine) (t0 : List (List Nat)) (st : List StageOut) (d : Dev) : Dev :=
  let en := d.planesOn l.port
  let first := if c = 0 then 0 else d.get (R.LTH.CTX_SHARE.FIRST n c)
  let f := (List.range 4).map (fun q => (d.span n c q).s0)
  let fb := (List.range 4).map (fun q => (d.span n c q).s0 / d.binOf n c q)
  let d := lathTap n c 0 l en 0 first f t0 d
  let d := lathTap n c 1 l en 0 first f (st.map (·.t1)) d
  let d := lathTap n c 2 l en 0 first f (st.map (·.t2)) d
  lathTap n c 3 l en (d.get (R.LTH.BIN_CTL.BIN n c)) first fb (st.map (·.out)) d

/-- Cuts output columns that had not left when a poisoned response ended the line: they are background (R188). -/
def cutOut (bg : List Nat) : Nat → List (List Nat) → List (List Nat)
  | _, [] => []
  | sent, xs :: rest =>
    (xs.take sent ++ List.replicate (xs.length - sent) (bg.headD 0)) :: cutOut bg.tail (sent - xs.length) rest

/-- A token passes the lathe (R186). -/
def passToken (n c : Nat) (l : CamLine) (d : Dev) : Dev :=
  let d := windowCount n c l.e d
  let d := lineTaps n c l [[], [], [], []] [] d
  lthPerf n 3 1 (put (R.LTH.LAST_LSN.LSN n c) l.lsn (toFusion (tokenPiece d n c l) d))

/-- A line with samples over its read range passes the five stages (R168 to R182); `sent` is the number of
output columns that had left when a poisoned response ended the line. -/
def passLine (n c : Nat) (l : CamLine) (sent : Option Nat) (d : Dev) : Dev :=
  let k := (d.lthS n).ctxS c
  let h1 := histLine k.hist l.lsn 1
  let h2 := histLine k.hist l.lsn 2
  let qs := d.slots l.port
  let fills := (List.range 4).map (fun q =>
    if qs.contains q then fillPlane d n c q (d.lineBg l.port l.lsn q) (nth [] l.planes q) (h1.map (fun h => nth [] h q)) else [])
  let st := (List.range 4).map (fun q =>
    if qs.contains q then
      stagesOf d n c q [some (nth [] fills q), h1.map (fun h => nth [] h q), h2.map (fun h => nth [] h q)]
    else {})
  let l := match sent with
    | some _ => { l with flags := l.flags ||| 2 }
    | none => l
  let bgs := (List.range 4).map (d.lineBg l.port l.lsn)
  let outs := match sent with
    | some k => cutOut bgs k (st.map (·.out))
    | none => st.map (·.out)
  let ok := !(bit l.flags 0 || bit l.flags 1 || bit l.flags 3 || bit l.flags 4 || bit l.flags 8)
  let samples := qs.flatMap (fun q =>
    let sp := d.span n c q
    let s := nth {} st q
    ((List.range (sp.s1 - sp.s0)).map (fun i => d.pixel n c q (sp.s0 + i))).zip (s.t2.zip s.y3))
  let d1 := if ok && d.tracking n c l.e then
      setLth n { d.lthS n with acc := samples.foldl (trackSample d n c) (d.lthS n).acc } d
    else d
  let d1 := setCtx n c { (d1.lthS n).ctxS c with hist := ((l.lsn, fills) :: k.hist).take 2 } d1
  let d1 := windowCount n c l.e d1
  let t0 := (List.range 4).map (fun q =>
    let sp := d.span n c q
    ((nth [] l.planes q).drop (sp.s0 - sp.lo)).take (sp.s1 - sp.s0))
  let d1 := lineTaps n c l t0 (st.zip outs |>.map (fun e => { e.1 with out := e.2 })) d1
  let share := sumNat (qs.map (fun q => (d.span n c q).s1 - (d.span n c q).s0))
  let d1 := slot 10 (lthBase n) 1 (d.ctxLen n c - share) (slot 10 (lthBase n) 0 share d1)
  let d1 := lthPerf n 8 (sumNat (st.map (·.filled))) d1
  let d1 := lthPerf n 9 (sumNat (st.map (·.clip2))) d1
  let d1 := lthPerf n 0xa (sumNat (st.map (·.clip3))) d1
  let d1 := lthPerf n (if c = 0 then 1 else 2) 1 (put (R.LTH.LAST_LSN.LSN n c) l.lsn d1)
  toFusion
    { port := l.port, lsn := l.lsn, e := l.e, flags := l.flags, pflags := l.pflags, token := false
      segs := qs.map (fun q =>
        let k := d.binOf n c q
        (q, (d.span n c q).s0 / k, (nth [] outs q).length, nth [] outs q)) } d1

/-- The lathe takes groups: it is in service and the context is active. -/
def Dev.serves (d : Dev) (n c : Nat) : Bool :=
  (d.get (R.LTH.STATUS.STATE n) == 1 || d.get (R.LTH.STATUS.STATE n) == 2) && d.on (R.LTH.CTX_CTL.ACTIVE n c)

/-- No clock of the selector goes to a home line: none waits at the hand-off (R187). -/
def Dev.homeIdle (d : Dev) (n : Nat) : Bool := (KMap.get (fun _ => ([] : List CamLine)) d.homeQ n).isEmpty

/-- The configured shares of a port in guest contexts, standby contexts apart, on any lathe (R170). -/
def Dev.sharesOf (d : Dev) (p : Nat) : List (Nat × Nat) :=
  (List.range 8).flatMap (fun n => ([1, 2].filter (fun c => d.on (R.LTH.CTX_CTL.EN n c) && !d.on (R.LTH.CTX_CTL.STANDBY n c)
    && d.ctxPort n c == p)).map (d.shareOf n))

/-- Column ranges cover [0, w) exactly once: no two meet, and together they are as wide. -/
def tilesColumns (w : Nat) (rs : List (Nat × Nat)) : Bool :=
  let cut := (rs.map (fun r => (min r.1 w, min r.2 w))).filter (fun r => decide (r.1 < r.2))
  decide (sumNat (cut.map (fun r => r.2 - r.1)) = w)
    && (List.range cut.length).all (fun i => (List.range i).all (fun j => !rangesMeet (nth (0, 0) cut i) (nth (0, 0) cut j)))

/-- A context's settings contradict R170, R172 or R182: its results are unpredictable (R34). -/
def Dev.ctxErr (d : Dev) (n c : Nat) : Option String :=
  let p := d.ctxPort n c
  let base := d.get (R.LTH.CTX_POOL.BASE n c)
  let ent (k : Nat) : Nat × Nat := (d.get (R.LTH.CTX_POOL.BASE n k), d.get (R.LTH.CTX_POOL.BASE n k) + d.ctxLen n k)
  if 11 < p then some "a lathe context names no port"
  else if base % 16 ≠ 0 then some "the pool base of a context is no multiple of 16"
  else if 131072 < base + d.ctxLen n c then some "the pool entries of a context exceed the pool"
  else if [0, 1, 2].any (fun k => k != c && d.on (R.LTH.CTX_CTL.EN n k) && rangesMeet (ent c) (ent k)) then
    some "the pool entries of two contexts overlap"
  else if (d.slots p).any (fun q => bits (d.get (R.LTH.BIN_CTL.BIN n c)) (2 * q) 2 == 3) then some "a reserved binning factor"
  else if (d.slots p).any (fun q => d.get (R.EKL.PLANE_CTL.WIDTH p q) % d.binOf n c q != 0
      || (c != 0 && (d.get (R.LTH.CTX_SHARE.FIRST n c) % d.binOf n c q != 0 || d.get (R.LTH.CTX_SHARE.COUNT n c) % d.binOf n c q != 0))) then
    some "a share that is no multiple of its binning factor"
  else if c != 0 && (d.get (R.LTH.CTX_SHARE.COUNT n c) == 0 || decide (16384 < d.get (R.LTH.CTX_SHARE.COUNT n c))) then
    some "a share COUNT outside 1 to 16384"
  else if c != 0 && d.get (R.EKL.CTL.ROUTE p) == 1
      && (d.slots p).any (fun q => !tilesColumns (d.get (R.EKL.PLANE_CTL.WIDTH p q)) (d.sharesOf p)) then
    some "the shares of a port leave a gap or overlap"
  else none

/-- The home line at the hand-off meets a context 0 that points at another port, or one that `ctxErr` names (R169). -/
def Dev.homeErr (d : Dev) (n : Nat) : Option String :=
  match KMap.get (fun _ => ([] : List CamLine)) d.homeQ n with
  | [] => none
  | l :: _ =>
    if !d.serves n 0 then none
    else if d.ctxPort n 0 ≠ l.port then some "context 0 of a lathe points at another port than its home port"
    else d.ctxErr n 0

/-- The home line at the port hand-off passes the lathe. -/
def homeLine (n : Nat) (d : Dev) : Dev :=
  match KMap.get (fun _ => ([] : List CamLine)) d.homeQ n with
  | [] => d
  | l :: rest =>
    let d := { d with homeQ := KMap.put (fun _ => []) d.homeQ n rest }
    if d.serves n 0 then
      let d := setLth n { d.lthS n with gated := false } d
      let d := ctxLine n 0 d
      if l.token then passToken n 0 l d else passLine n 0 l none d
    else d

/-- The guest line in progress leaves the lathe; `clocks` is D of R189. -/
def guestLine (n c clocks : Nat) (sent : Option Nat) (d : Dev) : Dev :=
  match (d.lthS n).guest with
  | none => d
  | some (k, l) =>
    if k = c then
      let d := setLth n { d.lthS n with guest := none } d
      let d := passLine n c l sent d
      when (decide (3832 < clocks))
        (fun d => lthPerf n 7 1 (event 10 (R.LTH.CTX_STATUS.SEQ n c) [R.LTH.CTX_STATUS.LATE n c] d)) d
    else d

/-- `LATHE_LINE_OUTPUT` (R168): the home line at the hand-off or the guest line in progress leaves; `clocks` is
D of R189 for a guest line, which waits while a home line is due (R187). A home line into a context that is a host error
stops the model (R34). -/
def execLatheLineOutput (n : Fin 8) (c : Fin 3) (clocks : Nat) (s : State) : Host.Outcome State Fault Refusal :=
  run (fun _ d =>
    if c.val = 0 then
      match d.homeErr n.val with
      | some w => .fault (.hostError w)
      | none => .next (homeLine n.val d)
    else .next (if d.homeIdle n.val then guestLine n.val c.val clocks none d else d)) s

/-- `POISONED_RESPONSE` (R188): after `sent` output columns of the guest line have left; it ends the line at once. -/
def execPoisonedResponse (n : Fin 8) (sent : Nat) (addr : Nat) (s : State) : Host.Outcome State Fault Refusal :=
  total (fun _ d =>
    match (d.lthS n.val).guest with
    | none => d
    | some (c, _) =>
      let d := logEv 0x0a82 n.val 2 addr (event 10 (R.LTH.CTX_STATUS.SEQ n.val c) [R.LTH.CTX_STATUS.POISON n.val c] d)
      guestLine n.val c 0 (some sent) (lthPerf n.val 6 1 d)) s

/-! ## Guest lines from the ring (R187, R188) -/

/-- The context has a readable slot that it has not yet taken. -/
def Dev.readable (d : Dev) (n c : Nat) : Bool :=
  d.serves n c && decide (((d.lthS n).ctxS c).taken < (d.portS (d.ctxPort n c)).ringSeq)

/-- The slot header that a context takes next: DT_DONE, and the line as a token. -/
def Dev.nextSlot (d : Dev) (m : Mem) (n c : Nat) : List Byte :=
  let p := d.ctxPort n c
  (d.dramRead m (d.ringAddr p (((d.lthS n).ctxS c).taken % max 1 (d.ringSlots p))) 64).1

/-- The context that starts the next guest line: the earliest DT_DONE, the lower context on a tie (R187). -/
def Dev.pickGuest (d : Dev) (m : Mem) (n : Nat) : Option Nat :=
  let done (c : Nat) : Nat := fieldAt (d.nextSlot m n c) 16 8
  match d.readable n 1, d.readable n 2 with
  | false, false => none
  | true, false => some 1
  | false, true => some 2
  | true, true => if dtGe (done 2) (done 1) then some 1 else some 2

/-- `RING_RD` advances past the slots that every active share of the port has taken (R188). -/
def ringAdvance (p : Nat) (d : Dev) : Dev :=
  let takers := (d.lathesUp).flatMap (fun n => ([1, 2].filter (fun c => d.on (R.LTH.CTX_CTL.ACTIVE n c) && d.ctxPort n c == p)).map
    (fun c => ((d.lthS n).ctxS c).taken))
  match takers with
  | [] => d
  | t :: ts =>
    let rd := ts.foldl min t
    let s := d.portS p
    let d := setPort p { s with ringRd := max s.ringRd rd, ringLost := s.ringLost.filter (fun e => decide (rd ≤ e.1)) } d
    put (R.EKL.RING_RD.SLOT p) ((d.portS p).ringRd % max 1 (d.ringSlots p)) d

/-- A guest line taken as a token (R188). -/
def guestToken (n c lsn e done : Nat) (d : Dev) : Dev :=
  passToken n c { port := d.ctxPort n c, lsn, e, flags := 1, pflags := [0, 0, 0, 0], dtExp := e, dtDone := done
                  token := true, planes := [[], [], [], []] } d

/-- A case of R188 that turns the slot into a token: status, counts. -/
def skipCase (n c code : Nat) (st : Fld) (d : Dev) : Dev :=
  lthPerf n code 1 (inc (R.LTH.SKIPS.COUNT n c) 1 (event 10 (R.LTH.CTX_STATUS.SEQ n c) [st] d))

/-- The samples of the read range of each slot from a ring slot; with them the address of the first poisoned response. -/
def Dev.ringSamples (d : Dev) (m : Mem) (n c base : Nat) : List (List Nat) × Option Nat :=
  let p := d.ctxPort n c
  let one (q : Nat) : List Nat × Option Nat :=
    if d.on (R.EKL.PLANE_CTL.EN p q) then
      let sp := d.span n c q
      let before := sumNat (((d.slots p).filter (· < q)).map (fun r => d.get (R.EKL.PLANE_CTL.WIDTH p r)))
      let a := base + 64 + 2 * (before + sp.lo)
      let r := d.dramRead m a (2 * (sp.hi - sp.lo))
      ((List.range (sp.hi - sp.lo)).map (fun i => fieldAt r.1 (2 * i) 2), if r.2 then d.poisonAt m a (2 * (sp.hi - sp.lo)) else none)
    else ([], none)
  let rs := (List.range 4).map one
  (rs.map (·.1), (rs.filterMap (·.2)).head?)

/-- A context takes its next slot (R188). What it reads counts as DRAM user 0, the halo included (R171). -/
def takeSlot (n c : Nat) (m : Mem) (d : Dev) : Dev :=
  let p := d.ctxPort n c
  let k := (d.lthS n).ctxS c
  let seq := k.taken
  let base := d.ringAddr p (seq % max 1 (d.ringSlots p))
  let hr := d.dramRead m base 64
  let h := hr.1
  let lsn := fieldAt h 0 4
  let e := match (d.portS p).lines.find? (fun r => r.lsn == lsn) with
    | some r => r.e
    | none => fieldAt h 8 8
  let done := fieldAt h 16 8
  let gone := KMap.get (fun _ => (none : Option (Nat × Nat × Nat))) (d.portS p).ringLost seq
  let d := setCtx n c { k with taken := seq + 1 } d
  let d := setLth n { d.lthS n with gated := false } d
  let d := when (d.ras.resume == some p)
    (fun d => put R.RAS.MIG_RESUME.DT d.dt { d with ras := { d.ras with resume := none } }) d
  let d := ctxLine n c d
  let d :=
    match gone with
    | some (l, e, t) => guestToken n c l e t d
    | none =>
      if crc32c (h.take 60) != fieldAt h 60 4 then
        guestToken n c lsn e done (skipCase n c 5 (R.LTH.CTX_STATUS.HDR_CRC n c) d)
      else if decide ((d.get (R.LTH.GSCHED.SKIP_NS n) : Int) * 65536 < dtDiff d.dt done) then
        guestToken n c lsn e done (skipCase n c 4 (R.LTH.CTX_STATUS.SKIP n c) d)
      else
        let tok := bit (fieldAt h 4 2) 0
        let r := d.ringSamples m n c base
        let d := meterUser 0 (if tok then 64 else 64 + 2 * d.ctxLen n c) d
        let bad := if hr.2 then some base else if tok then none else r.2
        if bad.isSome then
          guestToken n c lsn e done (logEv 0x0a82 n 2 (bad.getD base) (skipCase n c 6 (R.LTH.CTX_STATUS.POISON n c) d))
        else if tok then guestToken n c lsn e done d
        else
          let line : CamLine :=
            { port := p, lsn, e, flags := fieldAt h 4 2, pflags := (List.range 4).map (fun q => fieldAt h (32 + q) 1)
              dtExp := fieldAt h 8 8, dtDone := done, token := false, planes := r.1 }
          setLth n { d.lthS n with guest := some (c, line) } d
  ringAdvance p d

/-- `GUEST_LINE_START` (R187, R188): no guest line is in progress and no home line waits. A ring or a context that is a host
error stops the model (R34). -/
def execGuestLineStart (n : Fin 8) (s : State) : Host.Outcome State Fault Refusal :=
  run (fun m d =>
    if (d.lthS n.val).guest.isSome || !d.homeIdle n.val then .next d
    else
      match d.pickGuest m n.val with
      | none => .next d
      | some c =>
        match (d.ringErr (d.ctxPort n.val c)).orElse (fun _ => d.ctxErr n.val c) with
        | some w => .fault (.hostError w)
        | none => .next (takeSlot n.val c m d)) s

/-! ## Clock gating, self-test and SRAM errors (R168, R194, R195) -/

/-- `LATHE_CLOCK_GATE` (R168): 64 clocks without input. -/
def execLatheClockGate (n : Fin 8) (s : State) : Host.Outcome State Fault Refusal :=
  total (fun _ d =>
    let idle := (KMap.get (fun _ => ([] : List CamLine)) d.homeQ n.val).isEmpty && (d.lthS n.val).guest.isNone
    if d.on (R.LTH.CTL.CLK_GATE n.val) && idle then
      let pf := d.perfS (lthBase n.val)
      setPerf (lthBase n.val) { pf with gated := true } (setLth n.val { d.lthS n.val with gated := true } d)
    else d) s

/-- `LATHE_SELF_TEST` (R194): the signature of a test line agrees or not. -/
def execLatheSelfTest (n : Fin 8) (ok : Bool) (s : State) : Host.Outcome State Fault Refusal :=
  total (fun _ d =>
    if d.get (R.LTH.STATUS.STATE n.val) = 1 ∨ d.get (R.LTH.STATUS.STATE n.val) = 2 then
      let d := slot 10 (lthBase n.val) 1 1024 (lthPerf n.val 0xf 1 d)
      if ok then inc (R.LTH.ST_COUNT.COUNT n.val) 1 d
      else latheFault n.val (rasStat 11 1 (event 10 (R.LTH.STATUS.SEQ n.val) [R.LTH.STATUS.ST_FAIL n.val] d))
    else d) s

/-- An uncorrectable error in a lathe's SRAM (R195). -/
def latheSramUe (n : Nat) (d : Dev) : Dev :=
  latheFault n (errEvent 1 (event 10 (R.LTH.STATUS.SEQ n) [R.LTH.STATUS.SRAM_UE n] d))

end Sys2Proof.Machine
end

