-- ==== Sys2Proof/Machine/Fusion.lean ====
section
/-!
DEFINITION. The fusion unit: views, column maps, seams, composite lines, seam tracking and the lead view (R200 to
R225).
-/

namespace Sys2Proof.Machine

def fusPerf (code n : Nat) (d : Dev) : Dev := perf 11 0x800000 code n d
def fusStat (c n : Nat) (d : Dev) : Dev := inc (R.FUS.STAT.COUNT c) n d
def Dev.viewS (d : Dev) (v : Nat) : ViewS := KMap.get (fun _ => {}) d.fus.view v
def setView (v : Nat) (x : ViewS) (d : Dev) : Dev :=
  { d with fus := { d.fus with view := KMap.put (fun _ => {}) d.fus.view v x } }

/-! ## Views (R200, R201, R210) -/

/-- The binning factor of a view: that of a context that serves its port. -/
def Dev.viewBin (d : Dev) (v : Nat) : Nat :=
  let p := v / 4
  let ctxs := (List.range 8).flatMap (fun n => [0, 1, 2].map (fun c => (n, c)))
  match ctxs.find? (fun x => d.on (R.LTH.CTX_CTL.EN x.1 x.2) && d.ctxPort x.1 x.2 == p) with
  | some x => d.binOf x.1 x.2 (v % 4)
  | none => 1

/-- The binned width of a view. -/
def Dev.viewW (d : Dev) (v : Nat) : Nat := d.get (R.EKL.PLANE_CTL.WIDTH (v / 4) (v % 4)) / d.viewBin v

/-- A view is enabled (R200). -/
def Dev.viewOn (d : Dev) (v : Nat) : Bool := d.on (R.FUS.VIEW_CTL.EN v)
/-- The view is the lead view (R222). -/
def Dev.isLead (d : Dev) (v : Nat) : Bool := d.on R.FUS.LEAD_CTL.EN && d.get R.FUS.LEAD_CTL.VIEW == v
/-- The enabled feature views. -/
def Dev.featViews (d : Dev) : List Nat := (List.range 48).filter (fun v => d.viewOn v && !d.isLead v)
/-- Delay of a view in lines (R208). -/
def Dev.dly (d : Dev) (v : Nat) : Nat := d.get (R.FUS.VIEW_VREG.DLY v)
def Dev.vfrac (d : Dev) : Bool := d.on R.FUS.CTL.VFRAC

/-- A sample of a view line and the flags of the line it came from; none when it was not received. -/
def VLine.sample (l : VLine) (i : Nat) : Option (Nat × Nat) :=
  match l.segs.find? (fun s => s.got && decide (s.first ≤ i ∧ i < s.first + s.len)) with
  | some s => some (nth 0 s.xs (i - s.first), s.flags)
  | none => none

/-- Every share of a view line has answered, with samples or as a token. -/
def VLine.complete (l : VLine) (w : Nat) : Bool := decide (w ≤ sumNat (l.segs.map (·.len)))
/-- Every sample of a view line was received. -/
def VLine.whole (l : VLine) (w : Nat) : Bool := decide (w ≤ sumNat ((l.segs.filter (·.got)).map (·.len)))
/-- A view line of which no sample was received. -/
def VLine.isToken (l : VLine) : Bool := l.segs.all (fun s => !s.got)

/-- The line of a view with an LSN in the line store. -/
def ViewS.line (x : ViewS) (lsn : Nat) : Option VLine := x.lines.find? (fun l => l.lsn == lsn)

/-! ## The value of a view at a column (R202 to R205, R207, R209, R213) -/

/-- A coefficient of a column map in the active bank. -/
def mapCoef (d : Dev) (v s i : Nat) : Int := sgn 32 (d.actWord 8 (128 + 2048 * v + 4 * s + i))

/-- The view position of a composite column, in 2^-16 view columns (R202). -/
def viewPos (d : Dev) (v u : Nat) : Int :=
  let s := u / 256
  let j : Int := 64 * (u - 256 * s : Nat) + sgn 9 (d.get (R.FUS.VIEW_TRIM.TRIM v))
  mapCoef d v s 0 + fdiv (mapCoef d v s 1 * j * 2 ^ 28 + mapCoef d v s 2 * j ^ 2 * 2 ^ 14 + mapCoef d v s 3 * j ^ 3) (2 ^ 42)

/-- Kernel tap t (0 to 3) of a phase in the active bank (R204). -/
def kernelTap (d : Dev) (p t : Nat) : Int := sgn 16 (d.actHalf 8 (2 * p + t / 2) (t % 2))

/-- Sample index of a tap after the clamp to the view, mirrored when the view is (R203, R204). -/
def tapIndex (mirror : Bool) (w : Nat) (i : Int) : Nat :=
  let k := (clampI 0 ((w : Int) - 1) i).toNat
  if mirror then w - 1 - k else k

/-- The resampled value of four samples (R204). -/
def resample (d : Dev) (phase : Nat) (xs : List Nat) : Nat :=
  clip16 (fdiv (sumInt ((List.range 4).map (fun t => kernelTap d phase t * ((nth 0 xs t : Nat) : Int))) + 8192) 16384)

/-- The matched value of a view (R205). -/
def matched (d : Dev) (v r : Nat) : Nat :=
  clip16 (fdiv ((r * d.get (R.FUS.VIEW_MATCH.GM v) + 8192 : Nat) : Int) 16384 + sgn 16 (d.get (R.FUS.VIEW_MATCH.OM v)))

/-- The words of the column map and of the kernel that a view uses at a column stand: none was lost to an
uncorrectable error (R225). -/
def Dev.wordsStand (d : Dev) (v u phase : Nat) : Bool :=
  (d.bankS 8).lost.all (fun k => k / 2 != phase && (k < 128 || (k - 128) / 4 != 512 * v + u / 256))

/-- What a view gives at a column (R207). -/
inductive ViewVal where
  | good (x flags : Nat)
  | held (x flags : Nat)
  | absent
deriving DecidableEq, Repr

/-- A sample of the registered lines k and k + 1 of a view (R209). -/
def regSample (vfrac : Bool) (phase : Nat) (a b : Option VLine) (i : Nat) : Option (Nat × Nat) :=
  let x := match a with | some l => l.sample i | none => none
  if !vfrac then x
  else
    let y := match b with | some l => l.sample i | none => none
    match x, y with
    | some p, some q => some (((64 - phase) * p.1 + phase * q.1 + 32) / 64, p.2 ||| q.2)
    | some p, none => some p
    | none, q => q

/-- The lines k and k + 1 that a view gives to composite line n. -/
def Dev.regLines (d : Dev) (v n : Nat) : Option VLine × Option VLine :=
  let k := (n + 2 ^ 32 - d.dly v) % 2 ^ 32
  ((d.viewS v).line k, if d.vfrac then (d.viewS v).line ((k + 1) % 2 ^ 32) else none)

/-- The value of view v at column u of composite line n; `hold` allows its held line. -/
def viewVal (d : Dev) (v n u : Nat) (hold : Bool) : ViewVal :=
  let w := d.viewW v
  let x := viewPos d v u
  let c := fdiv x 65536
  let phase := ((x - 65536 * c) / 1024).toNat
  let ls := d.regLines v n
  let idx := [-1, 0, 1, 2].map (fun o => tapIndex (d.on (R.FUS.VIEW_CTL.MIRROR v)) w (c + o))
  let ss := idx.map (regSample d.vfrac (d.get (R.FUS.VIEW_VREG.PHASE v)) ls.1 ls.2)
  let x := d.viewS v
  if !d.wordsStand v u phase then .absent
  else if ss.all (·.isSome) then
    let ys := ss.filterMap id
    .good (matched d v (resample d phase (ys.map (·.1)))) (ys.foldl (fun m y => m ||| y.2) 0)
  else
    match x.wholeFlags with
    | some f =>
      if hold && idx.all (fun i => x.wholeCut.all (fun c => !decide (c.1 ≤ i ∧ i < c.1 + c.2))) then
        .held (matched d v (resample d phase (idx.map (nth 0 x.whole)))) f
      else .absent
    | none => .absent

/-! ## Seams and channels (R201, R206, R207) -/

/-- The views of a channel that cover a column, view A first (R201). -/
def Dev.covering (d : Dev) (ch u : Nat) : List Nat :=
  let vs := d.featViews.filter (fun v => d.get (R.FUS.VIEW_CTL.CH v) == ch
    && decide (d.get (R.FUS.VIEW_U0.COL v) ≤ u ∧ u < d.get (R.FUS.VIEW_U1.COL v)))
  match vs with
  | [a, b] => if d.get (R.FUS.VIEW_U0.COL b) < d.get (R.FUS.VIEW_U0.COL a) then [b, a] else [a, b]
  | _ => vs

/-- Two values at a column of a seam (R206), with the flags of the samples they came from. -/
def seamMix (d : Dev) (a b u : Nat) (x y : Nat × Nat) : Nat × Nat :=
  if d.on (R.FUS.VIEW_CTL.FEATHER b) then
    let u0 := d.get (R.FUS.VIEW_U0.COL b)
    let len := d.get (R.FUS.VIEW_U1.COL a) - u0
    let w := (2 * (u - u0) + 1) * 16384 / (2 * max 1 len)
    ((x.1 * (16384 - w) + y.1 * w + 8192) / 16384, x.2 ||| y.2)
  else if u < d.get (R.FUS.VIEW_SEAM.COL b) then x else y

/-- What a channel gives at a column: value, flags, substituted, seam fallback. -/
structure ChanVal where
  x : Nat
  flags : Nat
  miss : Bool
  fallback : Bool
deriving DecidableEq, Repr

/-- The value of a channel at a column (R207). -/
def chanVal (d : Dev) (n ch u : Nat) (hold : Nat → Bool) : ChanVal :=
  let fill : Nat := d.get (R.FUS.CH_FILL.VALUE ch)
  match d.covering ch u with
  | [] => ⟨fill, 0, false, false⟩
  | [v] =>
    match viewVal d v n u (hold v) with
    | .good x f => ⟨x, f, false, false⟩
    | .held x f => ⟨x, f, true, false⟩
    | .absent => ⟨fill, 0, true, false⟩
  | a :: b :: _ =>
    match viewVal d a n u (hold a), viewVal d b n u (hold b) with
    | .good x f, .good y g => let r := seamMix d a b u (x, f) (y, g); ⟨r.1, r.2, false, false⟩
    | .good x f, _ => ⟨x, f, false, true⟩
    | _, .good y g => ⟨y, g, false, true⟩
    | .held x f, .held y g => let r := seamMix d a b u (x, f) (y, g); ⟨r.1, r.2, true, false⟩
    | .held x f, .absent => ⟨x, f, true, false⟩
    | .absent, .held y g => ⟨y, g, true, false⟩
    | .absent, .absent => ⟨fill, 0, true, false⟩

/-- A composite pixel, and whether a channel of it is a seam fallback (R207, R218, R222). -/
def pixelOf (d : Dev) (n e nc : Nat) (hold : Nat → Bool) (u : Nat) : Px × Bool :=
  let cs := (List.range nc).map (fun k => chanVal d n k u hold)
  let miss := (List.range nc).foldl (fun m k => if (nth ⟨0, 0, false, false⟩ cs k).miss then m + 2 ^ k else m) 0
  let fl := cs.foldl (fun m c => m ||| c.flags) 0
  let lead := (KMap.get (fun _ => ({} : LeadCol)) d.fus.lead u).stored
  let age (t : Nat) : Nat := (e / 65536 % 2 ^ 32 + 2 ^ 32 - t) % 2 ^ 32
  let lt := match lead with
    | some t => if age t ≤ d.get R.FUS.LEAD_MAX.NS then some t else none
    | none => none
  ({ ch := cs.map (·.x), miss
     flags := b2n (miss != 0) + 2 * b2n (bits fl 1 6 != 0) + 4 * b2n (bit fl 8) + 8 * b2n lt.isSome
     leadT := lt.getD 0 }, cs.any (·.fallback))

/-- The padding positions of the last group of a line: PAD, with values that nothing uses (R215, R229). -/
def padPx (w nc v : Nat) : List Px :=
  List.replicate ((16 - w % 16) % 16) { ch := List.replicate nc (v % 65536), flags := 16 }

/-! ## Seam tracking (R219, R220) -/

/-- The seams of the composite: views A and B of one channel whose ranges overlap. -/
def Dev.seams (d : Dev) : List (Nat × Nat) :=
  d.featViews.flatMap (fun a => (d.featViews.filter (fun b =>
    a != b && d.get (R.FUS.VIEW_CTL.CH a) == d.get (R.FUS.VIEW_CTL.CH b)
      && (decide (d.get (R.FUS.VIEW_U0.COL a) < d.get (R.FUS.VIEW_U0.COL b))
        || (d.get (R.FUS.VIEW_U0.COL a) == d.get (R.FUS.VIEW_U0.COL b) && decide (a < b)))
      && decide (d.get (R.FUS.VIEW_U0.COL b) < d.get (R.FUS.VIEW_U1.COL a)))).map (fun b => (a, b)))

/-- The edges of one view over the overlap: position in 1/64 column and sign of the step (R219). `xs` holds the
matched values of consecutive columns from u0, none where a view is not good. -/
def edgesOf (thr u0 : Nat) (xs : List (Option Nat)) : List (Int × Bool) :=
  (List.range xs.length).filterMap (fun i =>
    if i = 0 then none
    else
      match nth none xs (i - 1), nth none xs i, nth none xs (i + 1), nth none xs (i + 2) with
      | some a, some b, some c, some e =>
        let g0 : Int := (b : Int) - a
        let g1 : Int := (c : Int) - b
        let g2 : Int := (e : Int) - c
        if 16 * thr ≤ g1.natAbs ∧ g0.natAbs < g1.natAbs ∧ g2.natAbs ≤ g1.natAbs then
          some (64 * ((u0 + i : Nat) : Int) + 32
            + fdiv (64 * ((g2.natAbs : Int) - g0.natAbs)) (g0.natAbs + g1.natAbs + g2.natAbs), decide (0 < g1))
        else none
      | _, _, _, _ => none)

/-- The nearest of a list of edges to a position, the first on a tie. -/
def nearest (p : Int) (es : List (Int × Bool)) : Option (Int × Bool) := minBy (fun e => (e.1 - p).natAbs) es

/-- Pairs of edges of A and B: sum of pB − pA and their number (R219). -/
def edgePairs (ea eb : List (Int × Bool)) : Int × Nat :=
  let ps := eb.filterMap (fun b =>
    match nearest b.1 (ea.filter (fun a => a.2 == b.2)) with
    | some a =>
      let dist := (b.1 - a.1).natAbs
      if dist ≤ 256 ∧ !(eb.any (fun o => o != b && decide ((o.1 - a.1).natAbs < dist))) then some (b.1 - a.1) else none
    | none => none)
  (sumInt ps, ps.length)

/-- One composite line of a tracked seam (R219, R220). -/
def seamLine (n : Nat) (ab : Nat × Nat) (d : Dev) : Dev :=
  let a := ab.1
  let b := ab.2
  if !d.on (R.FUS.VIEW_CTL.TRK_EN b) then d
  else
    let u0 := d.get (R.FUS.VIEW_U0.COL b)
    let u1 := min (d.get (R.FUS.VIEW_U1.COL a)) (d.get (R.FUS.VIEW_U1.COL b))
    let vals := ((List.range (u1 - u0)).map (fun i =>
      match viewVal d a n (u0 + i) false, viewVal d b n (u0 + i) false with
      | .good x _, .good y _ => some (x, y)
      | _, _ => none))
    let thr := d.get R.FUS.SEAM_CTL.EDGE_THR
    let pr := edgePairs (edgesOf thr u0 (vals.map (Option.map Prod.fst))) (edgesOf thr u0 (vals.map (Option.map Prod.snd)))
    let good := vals.filterMap id
    let x := d.viewS b
    setView b { x with sum := x.sum + pr.1, pairs := x.pairs + pr.2, lvlA := x.lvlA + sumNat (good.map (·.1))
                       lvlB := x.lvlB + sumNat (good.map (·.2)), lvlN := x.lvlN + good.length } d

/-- A mean rounded to nearest, ties away from zero. -/
def roundMean (s : Int) (n : Nat) : Int :=
  if 0 ≤ s then fdiv (2 * s + n) (2 * max 1 n) else -(fdiv (2 * (-s) + n) (2 * max 1 n))

/-- A seam at the end of a window (R220, R221). A window without pairs has no mean: it moves nothing, whatever
MINPAIRS. -/
def seamUpdate (ab : Nat × Nat) (d : Dev) : Dev :=
  let b := ab.2
  let x := d.viewS b
  let d := put (R.FUS.VIEW_TRK.PAIRS b) (min x.pairs 0xffff) d
  if x.pairs < max 1 (d.get R.FUS.SEAM_CTL.MINPAIRS) then d
  else
    let m := roundMean x.sum x.pairs
    let d := puts [(R.FUS.VIEW_TRK.MEAS b, unsgn 9 m), (R.FUS.VIEW_LVL.LVL_A b, x.lvlA / max 1 x.lvlN),
                   (R.FUS.VIEW_LVL.LVL_B b, x.lvlB / max 1 x.lvlN)] d
    let written := (KMap.get (fun _ => (none : Option Nat)) d.rwb (R.FUS.VIEW_TRIM.TRIM b).key).isSome
    if d.get R.FUS.SEAM_CTL.MODE = 2 ∧ written = false then
      let step : Int := d.get R.FUS.SEAM_CTL.STEP
      let t := sgn 9 (d.get (R.FUS.VIEW_TRIM.TRIM b))
      let t' := clampI (-128) 128 (t + clampI (-step) step m)
      let d := put (R.FUS.VIEW_TRIM.TRIM b) (unsgn 9 t') d
      let d := when (t' != t) (fun d => fusPerf 0xa 1 (fusStat 10 1 d)) d
      when ((t == 128 && decide (0 < m)) || (t == -128 && decide (m < 0))) (fun d =>
        logEv 0x0b01 b 2 (unsgn 64 t) (fusStat 11 1 (event 11 R.FUS.STATUS.SEQ [R.FUS.STATUS.TRK_LIMIT]
          (event 11 (R.FUS.VIEW_STATUS.SEQ b) [R.FUS.VIEW_STATUS.LIMIT b] d)))) d
    else d

/-- The sums of a view restart (R220). -/
def restartSums (v : Nat) (d : Dev) : Dev :=
  setView v { d.viewS v with sum := 0, pairs := 0, lvlA := 0, lvlB := 0, lvlN := 0 } d

/-- The end of a seam window: every seam is updated, then all sums restart (R220). -/
def seamWindow (d : Dev) : Dev :=
  if d.fus.winDue then
    let d := { d with fus := { d.fus with winDue := false } }
    fusPerf 9 1 (fusStat 9 1 (each restartSums (List.range 48) (each seamUpdate d.seams d)))
  else d

/-- `SEAM_TRACKING_WINDOW` (R220). -/
def execSeamTrackingWindow (s : State) : Host.Outcome State Fault Refusal := total (fun _ d => seamWindow d) s

/-! ## The lead view (R222) -/

/-- One column of a lead line. -/
def leadColumn (w e : Nat) (l : VLine) (v u : Nat) (d : Dev) : Dev :=
  let x := viewPos d v u
  let c := fdiv x 65536
  let phase := ((x - 65536 * c) / 1024).toNat
  let ss := [-1, 0, 1, 2].map (fun o => l.sample (tapIndex (d.on (R.FUS.VIEW_CTL.MIRROR v)) w (c + o)))
  if !ss.all (·.isSome) || !d.wordsStand v u phase then d
  else
    let y := resample d phase ((ss.filterMap id).map (·.1))
    let lvl := d.get R.FUS.LEAD_LVL.LEVEL
    let product := if d.on R.FUS.LEAD_CTL.POL then decide (lvl < y) else decide (y < lvl)
    let k := KMap.get (fun _ => ({} : LeadCol)) d.fus.lead u
    let ns := e / 65536 % 2 ^ 32
    let k' : LeadCol :=
      if k.disarmed then
        if product then { k with clear := 0 }
        else if d.get R.FUS.LEAD_CTL.CLRLINES ≤ k.clear + 1 then { k with disarmed := false, clear := 0, run := 0 }
        else { k with clear := k.clear + 1 }
      else if product then
        let start := if k.run = 0 then ns else k.start
        if d.get R.FUS.LEAD_CTL.MINLINES ≤ k.run + 1 then { k with run := 0, start, clear := 0, disarmed := true, stored := some start }
        else { k with run := k.run + 1, start }
      else { k with run := 0 }
    let onset := !k.disarmed && k'.disarmed
    let d := { d with fus := { d.fus with lead := KMap.put (fun _ => {}) d.fus.lead u k' } }
    when onset (fun d => fusPerf 0xb 1 (fusStat 12 1 d)) d

/-- A complete line of the lead view. -/
def leadLine (v : Nat) (l : VLine) (d : Dev) : Dev :=
  let u0 := d.get (R.FUS.VIEW_U0.COL v)
  let u1 := d.get (R.FUS.VIEW_U1.COL v)
  if l.isToken then fusStat 13 1 d
  else each (leadColumn (d.viewW v) l.e l v) ((List.range (u1 - u0)).map (· + u0)) d

/-! ## Forming a composite line (R208 to R218) -/

/-- The first composite line waiting to be formed, with the exposure time that its deadline counts from (R211). -/
def Dev.nextComp (d : Dev) : Option (Nat × Nat × Option Nat) :=
  match d.fus.issued with
  | [] => none
  | (n, e) :: rest => some (n, e, if d.vfrac then rest.head?.map (·.2) else some e)

/-- A needed line of a view is complete or known to be a token (R211). -/
def Dev.haveLine (d : Dev) (v n off : Nat) : Bool :=
  match (d.viewS v).line ((n + off + 2 ^ 32 - d.dly v) % 2 ^ 32) with
  | some l => l.complete (d.viewW v)
  | none => false

/-- Every needed line of composite line n is complete or known to be a token (R211). -/
def Dev.formable (d : Dev) (n : Nat) : Bool :=
  d.featViews.all (fun v => d.haveLine v n 0 && (!d.vfrac || d.haveLine v n 1))

/-- A view at the forming of line n: absence, hold, and the last whole line (R212, R213). -/
def viewAtForm (n : Nat) (v : Nat) (d : Dev) : Dev :=
  let x := d.viewS v
  let w := d.viewW v
  let l := x.line ((n + 2 ^ 32 - d.dly v) % 2 ^ 32)
  match l with
  | some l =>
    if l.whole w then
      setView v { x with absent := 0, whole := (List.range w).map (fun i => ((l.sample i).getD (0, 0)).1)
                         wholeCut := [], wholeFlags := some (l.segs.foldl (fun m s => m ||| s.flags) 0) } d
    else setView v { x with absent := x.absent + 1 } d
  | none => setView v { x with absent := x.absent + 1 } d

/-- Status and counts of an absent view line (R212, R213). -/
def noteAbsent (v : Nat) (d : Dev) : Dev :=
  let x := d.viewS v
  if x.absent = 0 then d
  else
    let d := fusPerf 5 1 (fusStat 4 1 (event 11 (R.FUS.VIEW_STATUS.SEQ v) [R.FUS.VIEW_STATUS.ABSENT v] d))
    if d.get (R.FUS.VIEW_CTL.SUBST v) = 1 then
      let m := d.get (R.FUS.VIEW_CTL.HOLD_MAX v)
      if x.absent ≤ m then when x.wholeFlags.isSome (fun d => fusPerf 6 1 (fusStat 5 1 d)) d
      else when (x.absent == m + 1) (event 11 (R.FUS.VIEW_STATUS.SEQ v) [R.FUS.VIEW_STATUS.HELD_OUT v]) d
    else d

/-- A view holds: R213. -/
def Dev.holds (d : Dev) (v : Nat) : Bool :=
  d.get (R.FUS.VIEW_CTL.SUBST v) == 1 && decide ((d.viewS v).absent ≤ d.get (R.FUS.VIEW_CTL.HOLD_MAX v))

/-- Samples for which only one of the two registered lines was received (R209). -/
def pairFallbacks (d : Dev) (n v : Nat) : Nat :=
  if !d.vfrac then 0
  else
    let ls := d.regLines v n
    let has (l : Option VLine) (i : Nat) : Bool := match l with | some l => (l.sample i).isSome | none => false
    ((List.range (d.viewW v)).filter (fun i => has ls.1 i != has ls.2 i)).length

/-- Bytes of a pixel in a T4 tap line (R218). -/
def pxBytes (nc : Nat) (p : Px) : List Byte :=
  ((List.range nc).flatMap (fun k => leBytes 2 (nth 0 p.ch k))) ++ leBytes 2 p.miss ++ leBytes 1 p.flags ++ [0#8] ++ leBytes 4 p.leadT

/-- The fusion unit drops a T4 line (R223). -/
def fusTapDrop (d : Dev) : Dev := fusPerf 0xc 1 (fusStat 14 1 (event 11 R.FUS.STATUS.SEQ [R.FUS.STATUS.TAP_DROP] d))

/-- Tap T4 (R223). -/
def tapT4 (l : CompLine) (nc : Nat) (d : Dev) : Dev :=
  let d :=
    if d.recTakes 4 then
      recPut { tap := 4, src := 0xff, lathe := 0, lsn := l.lsn, dtExp := l.e, flags := l.flags
               pieces := (List.range nc).map (fun k => { plane := k, first := 0, pflag := 0, samples := l.px.map (fun p => nth 0 p.ch k) }) } d
    else d
  if d.on R.FUS.TAP_CTL.EN then
    if d.fus.tapN < d.get R.FUS.TAP_CTL.DECIM then { d with fus := { d.fus with tapN := d.fus.tapN + 1 } }
    else
      let first := min (d.get R.FUS.TAP_WIN.FIRST) l.px.length
      let xs := (l.px.drop first).take (d.get R.FUS.TAP_CNT.COUNT)
      let bs := pad64 (compHeader l nc 4 d.dt first xs.length d.fus.tapSeq ++ xs.flatMap (pxBytes nc))
      let d := { d with fus := { d.fus with tapN := 0, tapSeq := (d.fus.tapSeq + 1) % 2 ^ 32 } }
      let ch := d.get R.FUS.TAP_CTL.DMA_CH
      if d.streamRoom ch bs.length then streamPut ch bs d else fusTapDrop d
  else d

/-- The first line of a composite block reaches the fusion unit (R37, R224). -/
def fusBoundary (d : Dev) : Dev := applyPend (inRange 0x800000 0x2000 .block) (boundarySwap .fus d)

/-- The first line of a composite block is formed: every unit that follows the composite applies its pending BLOCK
fields, and released resources return to their static holders (R37, R20, R224, R236). -/
def compBoundary (n : Nat) (d : Dev) : Dev :=
  returnAll (each unitBoundary [7, 14, 15] (when (d.on R.CLS.CTL.EN) (clsBoundary n) (fusBoundary d)))

/-- Why a line is formed: complete, at its deadline, or by a full line store. -/
inductive Why where
  | whole | deadline | buffer
deriving DecidableEq, Repr

/-- Composite line n is formed and passed on (R211 to R218). -/
def formLine (why : Why) (d : Dev) : Dev :=
  match d.fus.issued with
  | [] => d
  | (n, e) :: rest =>
    let d := seamWindow d
    let first := d.atBoundary
    let d := when first (compBoundary n) d
    let d := applyPend (inRange 0x800000 0x2000 .line) d
    let nc := d.get R.FUS.CTL.NCH + 1
    let fv := d.featViews
    let d := each (viewAtForm n) fv d
    let forced := why != .whole
    let hold (v : Nat) : Bool := d.holds v
    let res := (List.range d.width).map (pixelOf d n e nc hold)
    let px := res.map (·.1)
    let replay := fv.any (fun v =>
      let ls := d.regLines v n
      let r (l : Option VLine) : Bool := match l with | some l => l.segs.any (fun s => bit s.flags 8) | none => false
      r ls.1 || r ls.2)
    let l : CompLine :=
      { lsn := n, e, px, pad := padPx d.width nc d.fresh, flags := b2n (px.any (fun p => p.miss != 0)) + 2 * b2n forced + 4 * b2n d.vfrac + 8 * b2n replay }
    let d := each noteAbsent fv (when (!l.pad.isEmpty) takeFree d)
    let nsub := (px.filter (fun p => p.miss != 0)).length
    let nfall := (res.filter (·.2)).length
    let d := fusPerf 7 nsub (fusStat 6 nsub d)
    let d := fusPerf 8 nfall (fusStat 7 nfall d)
    let d := fusStat 8 (sumNat (fv.map (pairFallbacks d n))) d
    let d := match why with
      | .whole => d
      | .deadline => errEvent 4 (fusPerf 2 1 (fusStat 1 1 (event 11 R.FUS.STATUS.SEQ [R.FUS.STATUS.FORCED] d)))
      | .buffer => fusPerf 3 1 (fusStat 2 1 (event 11 R.FUS.STATUS.SEQ [R.FUS.STATUS.FORCED] d))
    let d := if d.get R.FUS.SEAM_CTL.MODE ≠ 0 ∧ forced = false then each (seamLine n) d.seams d else d
    let d : Dev := { d with fus := { d.fus with issued := rest, count := d.fus.count + 1, blk := if first then 1 else d.fus.blk + 1 } }
    let wl : Nat := d.fus.winLines + 1
    let d := if d.get R.FUS.SEAM_WIN.LINES ≤ wl then { d with fus := { d.fus with winLines := 0, winDue := true } }
      else { d with fus := { d.fus with winLines := wl } }
    let d := each (fun v d =>
      let x := d.viewS v
      setView v { x with lines := x.lines.filter (fun y => decide (0 < lsnDiff (y.lsn + d.dly v) n)) } d) fv d
    let d := puts [(R.FUS.LAST_LSN.LSN, n), (R.FUS.LAST_DT.DT, d.dt)] d
    let d := fusPerf 1 1 (fusStat 0 1 d)
    let d := slot 11 0x800000 1 l.pad.length (slot 11 0x800000 0 px.length d)
    classifyLine l (tapT4 l nc d)

/-- Forms every line that needs nothing more, in LSN order (R211). -/
def formReady : Nat → Dev → Dev
  | 0, d => d
  | k + 1, d =>
    match d.fus.issued with
    | [] => d
    | (n, _) :: _ => if d.formable n then formReady k (formLine .whole d) else d

/-- Complete lines of a view that wait in the line store (R214). -/
def Dev.waitingLines (d : Dev) (v : Nat) : Nat :=
  (((d.viewS v).lines).filter (fun l => l.complete (d.viewW v) && !l.isToken)).length

/-- A line store without room for a complete line forces the oldest waiting composite line (R214). -/
def forceFull (v : Nat) : Nat → Dev → Dev
  | 0, d => d
  | k + 1, d =>
    if d.dly v + 1 + b2n d.vfrac < d.waitingLines v ∧ d.fus.issued ≠ [] then forceFull v k (formLine .buffer d) else d

/-! ## Arrival of a piece (R200, R212, R222) -/

/-- The composite line that a view line belongs to was formed (R212). -/
def Dev.formedAlready (d : Dev) (v lsn : Nat) : Bool :=
  let n := (lsn + d.dly v) % 2 ^ 32
  match d.fus.issued with
  | (next, _) :: _ => decide (lsnDiff n next < 0)
  | [] => decide (0 < d.fus.count) && decide (lsnDiff n (d.get R.FUS.LAST_LSN.LSN) ≤ 0)

/-- One slot of a piece reaches its view. A line that arrives late is counted once, whatever its shares (R212). -/
def viewPiece (p : Piece) (seg : Nat × Nat × Nat × List Nat) (d : Dev) : Dev :=
  let v := 4 * p.port + seg.1
  if !d.viewOn v then d
  else if !d.isLead v && d.formedAlready v p.lsn then
    if p.token || (d.viewS v).late.contains p.lsn then d
    else
      let d := setView v { d.viewS v with late := (p.lsn :: (d.viewS v).late).take 64 } d
      fusPerf 4 1 (fusStat 3 1 (event 11 R.FUS.STATUS.SEQ [R.FUS.STATUS.LATE_VIEW]
        (event 11 (R.FUS.VIEW_STATUS.SEQ v) [R.FUS.VIEW_STATUS.LATE v] d)))
  else
    let s : VSeg := { first := seg.2.1, len := seg.2.2.1, got := !p.token, flags := p.flags, pflags := nth 0 p.pflags seg.1, xs := seg.2.2.2 }
    let x := d.viewS v
    let d := match x.line p.lsn with
      | some _ => setView v { x with lines := x.lines.map (fun (y : VLine) => if y.lsn = p.lsn then { y with segs := y.segs ++ [s] } else y) } d
      | none => setView v { x with lines := x.lines ++ [({ lsn := p.lsn, e := p.e, segs := [s] } : VLine)] } d
    match (d.viewS v).line p.lsn with
    | none => d
    | some l =>
      if !l.complete (d.viewW v) then d
      else if d.isLead v then
        leadLine v l (setView v { d.viewS v with lines := (d.viewS v).lines.filter (fun y => decide (0 < lsnDiff y.lsn p.lsn)) } d)
      else if l.isToken then d
      else forceFull v d.fus.issued.length d

/-- The oldest piece from the lathes reaches the fusion unit. -/
def takePiece (d : Dev) : Dev :=
  match d.fus.queue with
  | [] => d
  | p :: rest =>
    let d := { d with fus := { d.fus with queue := rest } }
    if !d.on R.FUS.CTL.EN then d
    else
      let d := each (viewPiece p) p.segs d
      formReady d.fus.issued.length d

/-! ## Host errors of the image path -/

/-- The line period of the composite, in 2^-16 ns, is too short for its width (R216): the period of a generator in
period mode, else the time between two exposures that wait. -/
def Dev.tooFast (d : Dev) : Bool :=
  let least := 5120 * d.width
  if d.get (R.TIM.TG_CTL.MODE 0) = 1 then
    decide (max (d.get (R.TIM.TG_PERIOD.PERIOD 0)) (65536 * max 5000 (d.get (R.TIM.TG_MIN.NS 0))) < least)
  else (d.fus.issued.zip d.fus.issued.tail).any (fun p => decide ((p.2.2 + 2 ^ 64 - p.1.2) % 2 ^ 64 < least))

/-- A setting of the image path in force that the spec calls a host error. -/
def imageErr (d : Dev) : Option String :=
  if !d.on R.FUS.CTL.EN then none
  else
    let nc := d.get R.FUS.CTL.NCH + 1
    let fv := d.featViews
    let on := (List.range 48).filter d.viewOn
    let store := sumNat (on.map (fun v =>
      (if d.isLead v then 2 else d.dly v + 2 + b2n d.vfrac + (if d.get (R.FUS.VIEW_CTL.SUBST v) = 1 then 1 else 0)) * d.viewW v * 2))
    if d.width = 0 ∨ 131072 < d.width then some "FUS.WIDTH out of range"
    else if on.any (fun v => !d.on (R.EKL.CTL.EN (v / 4)) || !d.on (R.EKL.PLANE_CTL.EN (v / 4) (v % 4))) then
      some "view of a port or slot that is not enabled (R200)"
    else if fv.any (fun v => decide (nc ≤ d.get (R.FUS.VIEW_CTL.CH v))) then some "view with CH at or beyond NC (R201)"
    else if fv.any (fun v => (List.range nc).any (fun k => decide (2 < (d.covering k (d.get (R.FUS.VIEW_U0.COL v))).length))) then
      some "three views on one column (R201)"
    else if fv.all (fun v => d.dly v != 0) then some "no view without delay (R208)"
    else if 8388608 < store then some "line store exceeded (R210)"
    else if fv.any (fun v => d.get (R.TIM.PT_CTL.TG (v / 4)) != 0) then some "composite port on another generator (R69)"
    else if d.get R.FUS.DEADLINE.NS < 5000 then some "DEADLINE below its range (R226)"
    else if d.tooFast then some "width times line rate above 12.8e9 (R216)"
    else if on.any (fun v => decide (128 < (sgn 9 (d.get (R.FUS.VIEW_TRIM.TRIM v))).natAbs)) then some "TRIM beyond its range (R226)"
    else if d.on R.FUS.LEAD_CTL.EN && decide (47 < d.get R.FUS.LEAD_CTL.VIEW) then some "LEAD_CTL.VIEW beyond 47 (R226)"
    else if d.on R.FUS.LEAD_CTL.EN && (d.get R.FUS.LEAD_CTL.MINLINES == 0 || d.get R.FUS.LEAD_CTL.CLRLINES == 0) then
      some "LEAD_CTL.MINLINES or CLRLINES 0 (R226)"
    else if d.get R.FUS.SEAM_CTL.MODE = 3 then some "reserved SEAM_CTL.MODE (R226)"
    else if d.get R.FUS.SEAM_WIN.LINES < 16 ∨ 65536 < d.get R.FUS.SEAM_WIN.LINES then some "SEAM_WIN out of range (R226)"
    else if d.on R.CLS.CTL.EN then
      if d.get R.CLS.STRIP.W = 0 ∨ 16 < d.get R.CLS.STRIP.W then some "STRIP.W out of range (R238)"
      else if 136 - (spareList (d.get R.TOP.PROFILE_ACT.GG_SPARES)).length < d.nstrips then some "more strips than active gouges (R238)"
      else if d.badRule then some "rule with fewer than two axes (R233)"
      else if d.on R.CLS.TILE_CTL.EN ∧ 131072 < d.width * d.bpp then some "tile history exceeded (R249)"
      else if d.on R.CLS.TILE_CTL.EN ∧ d.get R.CLS.TILE_CTL.ROWS < 2 then some "TILE_CTL.ROWS out of range (R250)"
      else if d.on R.CLS.TILE_CTL.EN
          ∧ (d.region (d.get R.CLS.TILE_CTL.RGN)).2 < d.tagBytes + d.get R.CLS.TILE_CTL.ROWS * d.tpr * 1024 * d.bpp then
        some "tile region too small (R250)"
      else none
    else none

/-- A command of the image path: a host error in force stops it. -/
def imageCmd (f : Mem → Dev → Dev) (s : State) : Host.Outcome State Fault Refusal :=
  run (fun m d =>
    match imageErr d with
    | some w => .fault (.hostError w)
    | none => .next (f m d)) s

/-- `VIEW_LINE` (R212). -/
def execViewLine (s : State) : Host.Outcome State Fault Refusal := imageCmd (fun _ d => takePiece d) s

/-- `FUSION_DEADLINE` (R211): E of line n + VFRAC plus the deadline. -/
def execFusionDeadline (s : State) : Host.Outcome State Fault Refusal :=
  imageCmd (fun _ d =>
    match d.nextComp with
    | some (_, _, some e) =>
      let d := reachNs e (d.get R.FUS.DEADLINE.NS) d
      let d := formLine .deadline d
      formReady d.fus.issued.length d
    | _ => d) s

end Sys2Proof.Machine
end

