-- ==== Sys2Proof/Machine/Spindle.lean ====
section
/-!
DEFINITION. The Spindle: Device Time's wrap (R60), line triggers and their delivery (R66 to R75), encoders (R76, R77), event captures (R82) and Host Time (R83).
-/

namespace Sys2Proof.Machine

/-- `DT_WRAP` (R60, R454): the clock in which the integer part of DT passes to 0. -/
def execDtWrap (s : State) : Host.Outcome State Fault Refusal :=
  total (fun _ d =>
    if 2 ^ 63 ≤ d.dt then reach 0 d
    else settleLines (dtSteps (cdiv (2 ^ 96 - d.tim.acc % 2 ^ 96) (max d.dtStep 1)) d)) s

/-! ## Lines (R66 to R73) -/

/-- The trigger lead in force: values below 1,000 ns are applied as 1,000 (R70). -/
def Dev.lead (d : Dev) (g : Nat) : Nat := max 1000 (d.get (R.TIM.TG_CTL.LEAD_NS g))

/-- The first period-mode line that lies at least LEAD ahead (R70). -/
def Dev.firstK (d : Dev) (g : Nat) : Nat :=
  let t := dtAddNs d.dt (d.lead g)
  let x := dtDiff t (d.get (R.TIM.TG_START.S g))
  if x ≤ 0 then 0 else cdiv x.toNat (max 1 (d.get (R.TIM.TG_PERIOD.PERIOD g)))

/-- SP of an encoder on the grid of the threshold: 48 integer and 16 fraction bits (R71). -/
def Dev.spGrid (d : Dev) (e : Nat) : Nat := d.get (R.TIM.ENC_SP.SP e) * 65536 % 2 ^ 64

/-- The mode of a generator is applied: its grid starts anew (R70, R71). -/
def tgApply (g : Nat) (d : Dev) : Dev :=
  let t := d.tgS g
  let e := d.get (R.TIM.TG_CTL.ENC g)
  let pitch : Int := max 65536 (d.get (R.TIM.TG_PITCH.PITCH g))
  let h := unsgn 64 ((d.spGrid e : Int) + (if d.on (R.TIM.TG_CTL.DIR g) then -pitch else pitch))
  setTg g { t with k := d.firstK g, h, due := [] } d

/-- The next candidate exposure time of a generator and the generator after taking it (R70). -/
def Dev.candidate (d : Dev) (g : Nat) : Option (Nat × TgS) :=
  let t := d.tgS g
  match d.get (R.TIM.TG_CTL.MODE g) with
  | 1 => some ((d.get (R.TIM.TG_START.S g) + t.k * d.get (R.TIM.TG_PERIOD.PERIOD g)) % 2 ^ 64, { t with k := t.k + 1 })
  | 0 => none
  | _ =>
    match t.due with
    | [] => none
    | e :: rest => some (e, { t with due := rest })

/-- The minimum distance of successive exposure times in DT units (R72). -/
def Dev.minPeriod (d : Dev) (g : Nat) : Int := (max 5000 (d.get (R.TIM.TG_MIN.NS g)) : Nat) * 65536

/-- A port with PIN_EN owes one pulse per line, whatever its state (R75). -/
def pulseOwed (p : Nat) (q : TrigLine) (d : Dev) : Dev :=
  when (d.on (R.TIM.PT_CTL.PIN_EN p))
    (fun d => { d with tim := { d.tim with pulse := KMap.put (fun _ => []) d.tim.pulse p (KMap.get (fun _ => []) d.tim.pulse p ++ [q]) } }) d

/-- A line is issued to a port: its place in the port's blocks, its trigger message and its pulse, and the open line
in RUN (R67, R74, R75, R149). A port that waits for a block gets messages from the first line of that block on (R159). -/
def portIssue (lsn e : Nat) (p : Nat) (x : List (Nat × Bool × Bool) × Dev) : List (Nat × Bool × Bool) × Dev :=
  let d := x.2
  let st := d.get (R.EKL.STATUS.STATE p)
  if st = 0 then (x.1, pulseOwed p { lsn, e } d)
  else
    let s := d.portS p
    let first := s.issLines == 0 || s.issLines == d.get (R.EKL.BLOCK.LINES p)
    let rel := decide (st = 3) && (first || s.releasing)
    let sent := d.on (R.TIM.PT_CTL.DL_EN p) && (decide (st = 4) || rel)
    let q : TrigLine := { lsn, e }
    let d := setPort p { s with issLines := if first then 1 else s.issLines + 1, releasing := rel
                                lines := if st = 4 then keepLines (({ lsn, e } : LineRec) :: s.lines) else s.lines } d
    let d := when sent
      (fun d => { d with tim := { d.tim with trig := KMap.put (fun _ => []) d.tim.trig p (KMap.get (fun _ => []) d.tim.trig p ++ [q]) } }) d
    (x.1 ++ [(p, first, sent)], pulseOwed p q d)

/-- The ports that take their triggers from a generator (R69). -/
def Dev.portsOf (d : Dev) (g : Nat) : List Nat := (List.range 12).filter (fun p => d.get (R.TIM.PT_CTL.TG p) == g)

/-- The device is in RUN (R473, R489). -/
def Dev.inRun (d : Dev) : Bool := d.get R.TOP.STATE.MODE == 1 && d.get R.PWR.STATUS.STATE == 1

/-- A generator issues its next line, or drops it when it is closer than the minimum period to the last
issued one (R66, R70, R72). -/
def lineIssue (g : Nat) (d : Dev) : Dev :=
  match (if d.inRun then d.candidate g else none) with
  | none => d
  | some (e, t) =>
    let d := setTg g t d
    let close := t.count != 0 && decide (dtDiff e (d.get (R.TIM.TG_LAST.E g)) < d.minPeriod g)
    if close then
      timPerf 2 1 (inc (R.TIM.TG_DROPS.COUNT g) 1 (event 7 (R.TIM.TG_STATUS.SEQ g) [R.TIM.TG_STATUS.DROP g] d))
    else
      let d := reach (dtAddNs e (-(d.lead g : Int))) d
      let lsn := if t.issued then (d.get (R.TIM.TG_LSN.LSN g) + 1) % 2 ^ 32 else 0
      let d := setTg g { t with issued := true, count := t.count + 1 } d
      let d := put (R.TIM.TG_LAST.E g) e (put (R.TIM.TG_LSN.LSN g) lsn d)
      let d := when (g == 0) (timPerf 1 1) d
      let x := (d.portsOf g).foldl (fun x p => portIssue lsn e p x) ([], d)
      let c : Coming := { g, lsn, e, ports := x.1 }
      settleLines { x.2 with tim := { x.2.tim with coming := comingIn c x.2.tim.coming } }

/-- `LINE_ISSUE` (R70). A composite port on another generator than TG0 is a host error (R69), which the
fusion unit meets. -/
def execLineIssue (g : Fin 4) (s : State) : Host.Outcome State Fault Refusal :=
  total (fun _ d => lineIssue g.val d) s

/-! ## Delivery (R74, R75) -/

/-- `TRIGGER_MESSAGE` (R74): the oldest line owed leaves at E − LEAD, or is late. -/
def triggerMessage (p : Nat) (d : Dev) : Dev :=
  match KMap.get (fun _ => ([] : List TrigLine)) d.tim.trig p with
  | [] => d
  | q :: rest =>
    let g := d.get (R.TIM.PT_CTL.TG p)
    let d := { d with tim := { d.tim with trig := KMap.put (fun _ => []) d.tim.trig p rest } }
    let d := reach (dtAddNs q.e (-(d.lead g : Int))) d
    if d.downlinkUp p && decide (dtDiff d.dt q.e < 0) then
      sendMsg p 1 (leBytes 4 q.lsn ++ leBytes 8 q.e) d
    else portLate g d

/-- `TRIGGER_MESSAGE` (R74). -/
def execTriggerMessage (p : Fin 12) (s : State) : Host.Outcome State Fault Refusal :=
  total (fun _ d => triggerMessage p.val d) s

/-- The level of a TRIG_OUT pin while its pulse is active, or between pulses: POL 1 is active high (R75). -/
def Dev.trigLevel (d : Dev) (p : Nat) (active : Bool) : Bool := d.on (R.TIM.PT_CTL.POL p) == active

/-- The end of a pulse on a TRIG_OUT pin at the present DT. -/
def trigEnd (p : Nat) (d : Dev) : Dev :=
  emit (.trigPin p (d.trigLevel p false) d.dt) { d with tim := { d.tim with pulseEnd := KMap.put (fun _ => none) d.tim.pulseEnd p none } }

/-- `TRIG_OUT_PULSE` (R75): at E + OFS, not before the trigger message has left; a running pulse is cut off. -/
def trigPulse (p : Nat) (d : Dev) : Dev :=
  match KMap.get (fun _ => ([] : List TrigLine)) d.tim.pulse p with
  | [] => d
  | q :: rest =>
    let g := d.get (R.TIM.PT_CTL.TG p)
    let ofs := max (sgn 16 (d.get (R.TIM.PT_CTL.OFS p))) (-((d.lead g : Int) - 100))
    let d := { d with tim := { d.tim with pulse := KMap.put (fun _ => []) d.tim.pulse p rest } }
    let d := reach (dtAddNs q.e ofs) d
    if d.drivesPrimary p then
      let d := if (KMap.get (fun _ => (none : Option Nat)) d.tim.pulseEnd p).isSome then trigEnd p d else d
      let d := emit (.trigPin p (d.trigLevel p true) d.dt) d
      { d with tim := { d.tim with pulseEnd := KMap.put (fun _ => none) d.tim.pulseEnd p (some (dtAddNs d.dt (10 * d.get (R.TIM.PT_CTL.WIDTH p)))) } }
    else d

/-- `TRIG_OUT_PULSE` (R75). -/
def execTrigOutPulse (p : Fin 12) (s : State) : Host.Outcome State Fault Refusal :=
  total (fun _ d => trigPulse p.val d) s

/-- `TRIG_OUT_PULSE_END` (R75). -/
def execTrigOutPulseEnd (p : Fin 12) (s : State) : Host.Outcome State Fault Refusal :=
  total (fun _ d =>
    match KMap.get (fun _ => (none : Option Nat)) d.tim.pulseEnd p.val with
    | none => d
    | some t => trigEnd p.val (reach t d)) s

/-! ## Batch events (R68) -/

/-- A batch event: it ends the batch at the next composite block boundary. -/
def batchEvent (d : Dev) : Dev := { d with tim := { d.tim with batchPending := true } }

/-- `BATCH_CTL_END` (R68). -/
def execBatchCtlEnd (s : State) : Host.Outcome State Fault Refusal := total (fun _ d => batchEvent d) s

/-! ## Encoders (R76, R77) -/

/-- A pin presents its level to its primary input function (R514). -/
def Dev.reads (d : Dev) (i : Nat) : Bool := d.get (R.TOP.PINMUX.FUNC i) == 0

/-- SP is counted: not in STANDBY or OFF (R78). -/
def Dev.spRuns (d : Dev) : Bool := d.get R.PWR.STATUS.STATE != 3 && !d.aon.off

/-- The register form of a 48-bit position, sign-extended to 64 bits (R89). -/
def spWord (x : Int) : Nat := unsgn 64 (sgn 48 (unsgn 48 x))

/-- An encoder-mode generator meets the new SP: one line when a threshold is reached or passed, and the
threshold moves past SP by whole pitches (R70, R71). -/
def tgEncoder (g : Nat) (d : Dev) : Dev :=
  let t := d.tgS g
  let e := d.get (R.TIM.TG_CTL.ENC g)
  let pitch := max 65536 (d.get (R.TIM.TG_PITCH.PITCH g))
  let dir : Int := if d.on (R.TIM.TG_CTL.DIR g) then -1 else 1
  let past := dir * sgn 64 ((d.spGrid e + 2 ^ 64 - t.h % 2 ^ 64) % 2 ^ 64)
  if past < 0 then d
  else
    let n : Int := past / (pitch : Int) + 1
    setTg g { t with h := unsgn 64 ((t.h : Int) + dir * n * pitch), due := t.due ++ [dtAddNs d.dt (d.lead g)] } d

/-- The generators in encoder mode on an encoder. -/
def Dev.encTgs (d : Dev) (e : Nat) : List Nat :=
  (List.range 4).filter (fun g => d.get (R.TIM.TG_CTL.MODE g) == 2 && d.get (R.TIM.TG_CTL.ENC g) == e)

/-- An input that stays at its new level for `stable` ns passes an edge filter of FILT × 4 ns (R76, R82). -/
def filtered (filt stable : Nat) : Bool := decide (4 * filt ≤ stable)

/-- The least distance in ns of two edges of an encoder that the counter takes (R76). -/
def Dev.edgeGap (d : Dev) (e : Nat) : Nat := max 40 (4 * d.get (R.TIM.ENC_CTL.FILT e) + 4)

/-- An edge comes closer to the last one of its encoder than the encoder interface allows (R76). -/
def Dev.edgeClose (d : Dev) (e : Nat) : Bool :=
  match KMap.get (fun _ => (none : Option Nat)) d.tim.encAt e with
  | some t => decide (0 ≤ dtDiff d.dt t ∧ dtDiff d.dt t < ((d.edgeGap e * 65536 : Nat) : Int))
  | none => false

/-- SP moves by a number of counts, and may pass a threshold or, in the forward direction of increasing SP, the batch
position (R68, R71; DESIGN CHOICE, log entry 20). -/
def spMove (e : Nat) (step : Int) (d : Dev) : Dev :=
  let old := sgn 48 (d.get (R.TIM.ENC_SP.SP e))
  let d := put (R.TIM.ENC_SP.SP e) (spWord (old + step)) d
  let d := each tgEncoder (d.encTgs e) d
  let pos := sgn 48 (d.get R.TIM.BATCH_POS.SP)
  let new := sgn 48 (d.get (R.TIM.ENC_SP.SP e))
  let passed := if step = 1 then decide (new = pos) else decide (old < pos ∧ pos ≤ new)
  when (d.on R.TIM.BATCH_CTL.SP_EN && d.get R.TIM.BATCH_CTL.SP_ENC == e && passed) batchEvent d

/-- An accepted edge counts SP by one (R76); the count of an edge that comes too close after another one is free. -/
def encoderCount (e : Nat) (up : Bool) (d : Dev) : Dev :=
  if !d.spRuns then d
  else
    let close := d.edgeClose e
    let d := { d with tim := { d.tim with encAt := KMap.put (fun _ => none) d.tim.encAt e (some d.dt) } }
    if close then spMove e (sgn 48 (d.fresh % 2 ^ 48)) (takeFree d)
    else spMove e (if up != d.on (R.TIM.ENC_CTL.INV e) then 1 else -1) d

/-- `ENCODER_EDGE` (R76, R77): an edge whose input stays stable for `edge.stable` ns counts if it passes the filter; A and B
changing in one sample are not counted. -/
def execEncoderEdge (e : Fin 2) (edge : EncEdge) (s : State) : Host.Outcome State Fault Refusal :=
  total (fun _ d =>
    let a := d.reads (37 + 3 * e.val)
    let b := d.reads (38 + 3 * e.val)
    let ok := filtered (d.get (R.TIM.ENC_CTL.FILT e.val)) edge.stable
    match edge.move with
    | .up => when ((a || b) && ok) (encoderCount e.val true) d
    | .down => when ((a || b) && ok) (encoderCount e.val false) d
    | .illegal =>
      if d.spRuns && a && b then timPerf 8 1 (event 7 (R.TIM.ENC_STATUS.SEQ e.val) [R.TIM.ENC_STATUS.ILLEGAL e.val] d) else d) s

/-- SP loads its preset, and the thresholds shift by the same amount (R71, R77). -/
def encoderLoad (e : Nat) (d : Dev) : Dev :=
  let old := sgn 48 (d.get (R.TIM.ENC_SP.SP e))
  let new := sgn 48 (d.get (R.TIM.ENC_PRESET.VALUE e))
  let d := put (R.TIM.ENC_SP.SP e) (spWord new) d
  let d := each (fun g d => setTg g { d.tgS g with h := unsgn 64 (((d.tgS g).h : Int) + (new - old) * 65536) } d) (d.encTgs e) d
  { d with tim := { d.tim with zLoaded := setFlag e true d.tim.zLoaded } }

/-- `ENCODER_INDEX` (R77): SP is held, and no index is sampled, in STANDBY and OFF (R78, R489). -/
def execEncoderIndex (e : Fin 2) (s : State) : Host.Outcome State Fault Refusal :=
  total (fun _ d =>
    let e := e.val
    if !d.reads (39 + 3 * e) || !d.spRuns then d else
    let d := event 7 (R.TIM.ENC_STATUS.SEQ e) [R.TIM.ENC_STATUS.Z_SEEN e] d
    let m := d.get (R.TIM.ENC_CTL.Z_MODE e)
    let d := when (m != 0) (fun d => put (R.TIM.ENC_ZCAP.SP e) (d.get (R.TIM.ENC_SP.SP e)) d) d
    when (m == 3 || (m == 2 && !flag d.tim.zLoaded e)) (encoderLoad e) d) s

/-! ## Event captures (R82) -/

/-- An edge of an event pin is one that `EVT_CTL.EDGE` chooses. -/
def Dev.edgeActive (d : Dev) (i : Nat) (rising : Bool) : Bool := bit (d.get (R.TIM.EVT_CTL.EDGE i)) (if rising then 0 else 1)

/-- `EVENT_CAPTURE` (R82): an edge whose input stays stable for `stable` ns, through the filter of R76; also a line of the generators in pin mode and a batch event (R68, R70). -/
def eventCapture (i : Nat) (rising : Bool) (stable : Nat) (d : Dev) : Dev :=
  if !d.edgeActive i rising || !d.reads (28 + i) || !filtered (d.get (R.TIM.EVT_CTL.FILT i)) stable || !d.spRuns then d
  else
    let q := KMap.get (fun _ => ([] : List Capture)) d.tim.evt i
    let d :=
      if q.length < 16 then
        let c : Capture := { rising, dt := d.dt, sp0 := d.get (R.TIM.ENC_SP.SP 0), sp1 := d.get (R.TIM.ENC_SP.SP 1) }
        put (R.TIM.EVT_STATUS.LEVEL i) (q.length + 1)
          { d with tim := { d.tim with evt := KMap.put (fun _ => []) d.tim.evt i (q ++ [c]) } }
      else timPerf 9 1 (event 7 (R.TIM.EVT_STATUS.SEQ i) [R.TIM.EVT_STATUS.OVF i] d)
    let tgs := (List.range 4).filter (fun g => d.get (R.TIM.TG_CTL.MODE g) == 3 && d.get (R.TIM.TG_CTL.EVT g) == i)
    let d := each (fun g d => setTg g { d.tgS g with due := (d.tgS g).due ++ [dtAddNs d.dt (d.lead g)] } d) tgs d
    when (d.on R.TIM.BATCH_CTL.EVT_EN && d.get R.TIM.BATCH_CTL.EVT == i) batchEvent d

/-- `EVENT_CAPTURE` (R82). -/
def execEventCapture (i : Fin 8) (edge : PinEdge) (s : State) : Host.Outcome State Fault Refusal :=
  total (fun _ d => eventCapture i.val edge.rising edge.stable d) s

/-- The oldest capture moves into the visible registers (R82). -/
def evtPop (i : Nat) (d : Dev) : Dev :=
  match KMap.get (fun _ => ([] : List Capture)) d.tim.evt i with
  | [] => put (R.TIM.EVT_STATUS.VALID i) 0 d
  | c :: rest =>
    puts [(R.TIM.EVT_DT.DT i, c.dt), (R.TIM.EVT_SP0.SP i, c.sp0), (R.TIM.EVT_SP1.SP i, c.sp1),
          (R.TIM.EVT_STATUS.EDGE i, b2n c.rising), (R.TIM.EVT_STATUS.VALID i, 1), (R.TIM.EVT_STATUS.LEVEL i, rest.length)]
      { d with tim := { d.tim with evt := KMap.put (fun _ => []) d.tim.evt i rest } }

/-- `POP` (R82). -/
def execPop (i : Fin 8) (s : State) : Host.Outcome State Fault Refusal := total (fun _ d => evtPop i.val d) s

/-! ## Host Time (R83) -/

/-- A PTM dialogue starts, or UNAVAIL is set (R83). -/
def ptmStart (d : Dev) : Dev :=
  if d.tim.ptmOn then timPerf 4 1 (emit (.ptmRequest d.dt) { d with tim := { d.tim with ptmAt := some d.dt } })
  else event 7 R.TIM.PTM_STATUS.SEQ [R.TIM.PTM_STATUS.UNAVAIL] d

/-- Periodic dialogues begin when EN becomes 1: the first one is due a period later (R83; DESIGN CHOICE, log entry 80). -/
def ptmEnable (was : Bool) (d : Dev) : Dev :=
  if d.on R.TIM.PTM_CTL.EN && !was then { d with tim := { d.tim with ptmFrom := d.dt } } else d

/-- `PTM_DIALOGUE` (R83): while EN is 1, a period of PERIOD_MS after the last periodic dialogue; a period of 0 or above
1,000 ms is a host error (R34, R89). -/
def execPtmDialogue (s : State) : Host.Outcome State Fault Refusal :=
  run (fun _ d =>
    let ms := d.get R.TIM.PTM_CTL.PERIOD_MS
    if !d.on R.TIM.PTM_CTL.EN then .next d
    else if ms = 0 ∨ 1000 < ms then .fault (.hostError "PTM_CTL.PERIOD_MS out of range")
    else
      let d := reachNs d.tim.ptmFrom (1000000 * ms : Nat) d
      .next (ptmStart { d with tim := { d.tim with ptmFrom := d.dt } })) s

/-- One more dialogue, while EN is 1 (R83). -/
def ptmNow (d : Dev) : Dev := when (d.on R.TIM.PTM_CTL.EN) ptmStart d
/-- `PTM_NOW` (R83). -/
def execPtmNow (s : State) : Host.Outcome State Fault Refusal := total (fun _ d => ptmNow d) s

/-- `PTM_RESPONSE` (R83): the master time of the request's arrival and the propagation delay; one without a
request outstanding is dropped (R43). -/
def execPtmResponse (master : BitVec 64) (delay : BitVec 32) (s : State) : Host.Outcome State Fault Refusal :=
  total (fun _ d =>
    match d.tim.ptmAt with
    | none => d
    | some t =>
      let d := { d with tim := { d.tim with ptmAt := none } }
      let d := puts [(R.TIM.PTM_DT.DT, t), (R.TIM.PTM_HT.HT, unsgn 64 ((master.toNat : Int) - delay.toNat)), (R.TIM.PTM_DELAY.NS, delay.toNat)] d
      event 7 R.TIM.PTM_STATUS.SEQ [R.TIM.PTM_STATUS.NEW] d) s

/-- `PTM_TIMEOUT` (R83): 100 µs after the request. -/
def execPtmTimeout (s : State) : Host.Outcome State Fault Refusal :=
  total (fun _ d =>
    match d.tim.ptmAt with
    | none => d
    | some t =>
      let d := reachNs t 100000 d
      timPerf 5 1 (event 7 R.TIM.PTM_STATUS.SEQ [R.TIM.PTM_STATUS.TIMEOUT] { d with tim := { d.tim with ptmAt := none } })) s

end Sys2Proof.Machine
end

