-- ==== Sys2Proof/Machine/Recorder.lean ====
section
/-!
DEFINITION. The recorder: records, chunks, trigger and freeze (R410 to R417), and the jobs of the two engines with
replay into a port (R418 to R423).
-/

namespace Sys2Proof.Machine

def cmpPerf (code n : Nat) (d : Dev) : Dev := perf 0x15 0x1d80000 code n d
def cmpStat (c n : Nat) (d : Dev) : Dev := inc (R.CMP.STAT.COUNT c) n d
def setRec (x : RecS) (d : Dev) : Dev := { d with cmp := { d.cmp with recorder := x } }
def Dev.jobS (d : Dev) (e : Nat) : JobS := KMap.get (fun _ => {}) d.cmp.job e
def setJob (e : Nat) (x : JobS) (d : Dev) : Dev := { d with cmp := { d.cmp with job := KMap.put (fun _ => {}) d.cmp.job e x } }

/-! ## Reference lines (R411) -/

/-- Two reference lines have one key. -/
def RefLine.same (a b : RefLine) : Bool :=
  a.tap == b.tap && a.src == b.src && a.plane == b.plane && a.first == b.first && a.samples.length == b.samples.length

/-- The reference line for a record of a key: the latest one, when its LSN is one less. -/
def refFor (refs : List RefLine) (r : RefLine) : Option (List Nat) :=
  match refs.find? (RefLine.same r) with
  | some x => if (x.lsn + 1) % 2 ^ 32 = r.lsn then some x.samples else none
  | none => none

/-- A record's samples enter the reference store, which keeps 64 keys and 524,288 samples. -/
def keepRef (refs : List RefLine) (r : RefLine) : List RefLine :=
  if refs.any (RefLine.same r) then refs.map (fun x => if x.same r then r else x)
  else if refs.length < 64 ∧ sumNat (refs.map (fun x => x.samples.length)) + r.samples.length ≤ 524288 then refs ++ [r]
  else refs

/-- Codes one piece: its record, what it counts, and the reference store after it. -/
def codeRecord (h : RecHead) (pred : Nat) (raw : Bool) (refs : List RefLine) (xs : List Nat) : List Byte × Coded × List RefLine :=
  let key : RefLine := { tap := h.tap, src := h.src, plane := h.plane, first := h.first, lsn := h.lsn, samples := xs }
  let ref := refFor refs key
  let c := codeLine h.depth pred raw ref xs
  let prev := match ref with | some _ => 1 | none => 0
  (recordBytes { h with count := xs.length, rflags := prev + 2 * b2n raw } c.bytes, c, keepRef refs key)

/-- Performance events of coded blocks, and the escapes counted (R425). -/
def countCoded (c : Coded) (d : Dev) : Dev :=
  cmpPerf 7 c.raw (cmpPerf 6 c.flat (cmpPerf 5 c.escapes (cmpStat 7 c.escapes d)))

/-! ## Chunks (R412, R414) -/

/-- Ring depth in bytes of a REC_DEPTH code (R18). -/
def depthBytes (code : Nat) : Nat := if code = 0 then 0 else 2 ^ 26 * 2 ^ (code - 1)

/-- The recorder's region can be used (R414). -/
def Dev.recRegionOk (d : Dev) : Bool :=
  let r := d.get R.CMP.CTL.REC_RGN
  decide (0 < (d.region r).2) && d.mayUse 3 r 12

/-- NCH of the profile and the region in force. -/
def Dev.nch (d : Dev) : Nat := min (depthBytes (d.get R.TOP.PROFILE_ACT.REC_DEPTH)) (d.region (d.get R.CMP.CTL.REC_RGN)).2 / 65536

/-- The recorder stops when its region is denied, preempted or of size 0 (R414). -/
def recDenied (d : Dev) : Dev :=
  event 0x15 R.CMP.STATUS.SEQ [R.CMP.STATUS.DENIED] (put R.CMP.STATUS.STATE 0 (setRec { d.cmp.recorder with chunk := [], count := 0, opened := none } d))

/-- The 64-byte header of a chunk (R412). -/
def chunkHead (d : Dev) (last : Bool) : List Byte :=
  let x := d.cmp.recorder
  let t := d.get R.CMP.REC_TDT.DT
  let trig := d.get R.CMP.STATUS.STATE == 2 && dtGe t x.dtFirst && dtGe x.dtLast t
  let h := leBytes 4 0x4352584c ++ leBytes 2 1 ++ leBytes 2 (b2n x.chunkGap + 2 * b2n trig + 4 * b2n last)
    ++ leBytes 4 (d.get R.CMP.REC_WR.CSEQ) ++ leBytes 4 x.chunk.length ++ leBytes 4 x.count ++ leBytes 4 x.chunkDropped
    ++ leBytes 8 x.dtFirst ++ leBytes 8 x.dtLast ++ leBytes 8 Config.serial ++ leBytes 12 0
  h ++ leBytes 4 (crc32c h)

/-- The open chunk closes and is written to the ring; the bytes after its records are free values (R412, R414). -/
def closeChunk (last : Bool) (d : Dev) : Dev :=
  let x := d.cmp.recorder
  if x.opened.isNone then d
  else if !d.recRegionOk then recDenied d
  else
    let k := d.get R.CMP.REC_WR.CSEQ
    let base := (d.region (d.get R.CMP.CTL.REC_RGN)).1 + 65536 * (k % max 1 (d.get R.CMP.REC_CHUNKS.NCH))
    let fill := 65472 - x.chunk.length
    let tail' := (List.range fill).map (fun i => BitVec.ofNat 8 (Config.free (d.free + i)))
    let d := meterUser 5 65536 (dramWrite base (chunkHead d last ++ x.chunk ++ tail') { d with free := d.free + fill })
    let bytes := x.rem + x.chunk.length
    let d := setRec { x with chunk := [], count := 0, opened := none, refs := [], written := x.written + 1, rem := bytes % 64 } d
    let d := put R.CMP.REC_WR.CSEQ (k + 1) d
    let d := when x.chunkGap (cmpStat 3 1) d
    cmpPerf 2 (bytes / 64) (cmpPerf 4 1 (cmpStat 4 1 d))

/-- A record enters the open chunk, or opens one. -/
def addRecord (dt : Nat) (bs : List Byte) (refs : List RefLine) (d : Dev) : Dev :=
  let x := d.cmp.recorder
  if x.opened.isSome then setRec { x with chunk := x.chunk ++ bs, count := x.count + 1, dtLast := dt, refs } d
  else
    setRec { x with chunk := bs, count := 1, opened := some d.dt, dtFirst := dt, dtLast := dt, refs
                    chunkGap := x.gap, chunkDropped := x.dropped, gap := false, dropped := 0 } d

/-- The predictor of a tap line: that of the batch of its LSN, which is told by the composite's lines (R37, R413). A port
on another generator counts its own lines and follows the setting in force. -/
def Dev.predFor (d : Dev) (tap src lsn : Nat) : Nat :=
  let now := d.get R.CMP.CTL.PRED
  if tap ≤ 3 ∧ d.get (R.TIM.PT_CTL.TG src) ≠ 0 then now
  else if d.inNextBatch lsn then d.lastWritten R.CMP.CTL.PRED
  else
    match d.cmp.recorder.predWas with
    | some (l, old) => if lsnDiff lsn l < 0 then old else now
    | none => now

/-- One piece of a tap line is coded and recorded; a chunk that it does not fit closes first (R413, R414). -/
def recPiece (h : RecHead) (d : Dev) (xs : List Nat) : Dev :=
  let pred := d.predFor h.tap h.src h.lsn
  let raw := d.on R.CMP.CTL.RAW || d.cmp.recorder.raw
  let r := codeRecord h pred raw d.cmp.recorder.refs xs
  let full := d.cmp.recorder.opened.isSome && decide (65472 < d.cmp.recorder.chunk.length + r.1.length)
  let d := if full then closeChunk false d else d
  let r := if full || d.cmp.recorder.opened.isNone then codeRecord h pred raw [] xs else r
  let d := cmpPerf 1 xs.length (cmpStat 0 1 (countCoded r.2.1 d))
  addRecord h.dt r.1 r.2.2 (when raw (cmpStat 1 1) d)

/-- The samples of a tap piece as the codec takes them (R403). -/
def codecSamples (tap dp : Nat) (xs : List Nat) : List Nat := if tap = 5 then xs else xs.map (· / 2 ^ (16 - dp))

/-- Depth of a tap piece (R403). -/
def Dev.tapDepth (d : Dev) (l : TapLine) (plane : Nat) : Nat :=
  match l.tap with
  | 0 => (rawBits (d.get (R.EKL.PLANE_CTL.DTYPE l.src plane))).getD 16
  | 5 => 4
  | _ => 16

/-- A plane slot, channel or class map of a tap line: pieces of at most 8,192 samples (R410). -/
def recTapPiece (l : TapLine) (p : TapPiece) (d : Dev) : Dev :=
  let dp := d.tapDepth l p.plane
  let xs := codecSamples l.tap dp p.samples
  let cuts := piecesOf 8192 (xs.length / 8192 + 1) xs
  each (fun (c : Nat × List Nat) d =>
    recPiece { lsn := l.lsn, tap := l.tap, src := l.src, plane := p.plane, depth := dp, first := p.first + 8192 * c.1
               count := c.2.length, dt := l.dtExp, lflags := l.flags, pflag := p.pflag, rflags := 0 } d c.2)
    ((List.range cuts.length).zip cuts) d

/-- The staging buffers that the recorder may use (R414). -/
def Dev.stagingBufs (d : Dev) : Nat := ([16, 17, 18, 19].filter (fun i => d.mayUse 4 i 12)).length

/-- A staging buffer is at hand (R414). -/
def Dev.staging (d : Dev) : Bool := d.stagingBufs != 0

/-- Every staging buffer but the open one is taken by a chunk whose write waits for the grant of DRAM user 5, which counts
what it has still to write (R13, R414; log entry 47). -/
def Dev.stagingFull (d : Dev) : Bool :=
  d.get (R.TOP.DRAM_GRANT.GRANT 5) == 0
    || decide (windowBudget (d.get (R.TOP.DRAM_GRANT.GRANT 5)) + 65536 * (d.stagingBufs - 1) ≤ num d.ddr.meter 5)

/-- A tap line is refused: its tap drops it (R192, R413). -/
def refuseLine (l : TapLine) (d : Dev) : Dev :=
  let x := d.cmp.recorder
  let d := setRec { x with gap := true, dropped := x.dropped + 1 } d
  let d := cmpPerf 3 1 (cmpStat 2 1 d)
  if l.tap ≤ 3 then tapDrop l.lathe d else if l.tap = 4 then fusTapDrop d else clsTapDrop d

/-- The freeze (R416). -/
def freeze (d : Dev) : Dev :=
  let d := closeChunk true d
  if d.get R.CMP.STATUS.STATE = 0 then d
  else
    let k := d.get R.CMP.REC_WR.CSEQ
    let n := min d.cmp.recorder.written (d.get R.CMP.REC_CHUNKS.NCH)
    event 0x15 R.CMP.STATUS.SEQ [R.CMP.STATUS.FROZEN]
      (puts [(R.CMP.REC_FRZ_FIRST.CSEQ, k + 2 ^ 32 - n), (R.CMP.REC_FRZ_LAST.CSEQ, k + 2 ^ 32 - 1), (R.CMP.STATUS.STATE, 3)] d)

/-- A tap line at the recorder's input; `refuse`: no staging buffer is free as it forms (R413, R414, R416). -/
def recLine (refuse : Bool) (d : Dev) : Dev :=
  match d.recQ with
  | [] => d
  | l :: rest =>
    let d := { d with recQ := rest }
    let st := d.get R.CMP.STATUS.STATE
    if st = 0 then refuseLine l d
    else if !d.recRegionOk then refuseLine l (recDenied d)
    else
      let t := dtAddNs (d.get R.CMP.REC_TDT.DT) (1000000 * d.get R.CMP.REC_WIN.POST_MS : Nat)
      if st = 2 && dtGe l.dtExp t then refuseLine l (freeze d)
      else if st = 3 then refuseLine l d
      else if d.stagingFull then refuseLine l (holdUser 5 d)
      else if refuse || !d.staging then refuseLine l d
      else each (recTapPiece l) l.pieces d

/-- `RECORDER_TAP_LINE` (R413): the oldest tap line at the recorder's input. -/
def execRecorderTapLine (refuse : Bool) (s : State) : Host.Outcome State Fault Refusal := total (fun _ d => recLine refuse d) s

/-- `CHUNK_CLOSE` (R414): 1 ms after its first record. -/
def execChunkClose (s : State) : Host.Outcome State Fault Refusal :=
  total (fun _ d =>
    match d.cmp.recorder.opened with
    | none => d
    | some t => closeChunk false (reachNs t 1000000 d)) s

/-- `RECORDER_TRIGGER` (R416). -/
def execRecorderTrigger (s : State) : Host.Outcome State Fault Refusal := total (fun _ d => recTrigger d) s

/-- A frozen recorder records again (R417). -/
def recRelease (d : Dev) : Dev :=
  if d.get R.CMP.STATUS.STATE = 3 then put R.CMP.STATUS.STATE 1 (setRec { d.cmp.recorder with gap := true } d) else d

/-- `RECORDER_RELEASE` (R417). -/
def execRecorderRelease (s : State) : Host.Outcome State Fault Refusal := total (fun _ d => recRelease d) s

/-- `CODEC_SELF_TEST` (R415): whether the signature matched. -/
def execCodecSelfTest (ok : Bool) (s : State) : Host.Outcome State Fault Refusal :=
  total (fun _ d =>
    if !d.on R.CMP.CTL.EN then d
    else
      let d := cmpPerf 0xc 1 (setRec { d.cmp.recorder with raw := !ok } d)
      if ok then d else logEv 0x158a 0 2 0 (event 0x15 R.CMP.STATUS.SEQ [R.CMP.STATUS.ST_FAIL] d)) s

/-- The recorder and its ring start empty at start-up and at a rebase (R414, R415, R486). -/
def recStart (d : Dev) : Dev :=
  let d := setRec {} { d with recQ := [] }
  let d := puts [(R.CMP.REC_WR.CSEQ, 0), (R.CMP.STATUS.STATE, 0), (R.CMP.REC_CHUNKS.NCH, 0)] d
  if !d.on R.CMP.CTL.EN || decide (6 ≤ d.get R.TOP.PROFILE_ACT.REC_TAP) || d.get R.TOP.PROFILE_ACT.REC_DEPTH == 0 then d
  else if !d.recRegionOk then recDenied d
  else puts [(R.CMP.REC_CHUNKS.NCH, d.nch), (R.CMP.STATUS.STATE, 1)] d

/-- The ring starts again empty at a channel retirement; a freeze in force is lost and logged (R414). -/
def recRestart (d : Dev) : Dev :=
  let st := d.get R.CMP.STATUS.STATE
  if st = 0 then d
  else
    let d := when (st == 3) (logEv 0x1501 0 2 (d.get R.CMP.REC_FRZ_LAST.CSEQ)) d
    let x := d.cmp.recorder
    let d := setRec { x with chunk := [], count := 0, opened := none, refs := [], written := 0 } d
    if !d.recRegionOk then recDenied d
    else puts [(R.CMP.REC_WR.CSEQ, 0), (R.CMP.REC_CHUNKS.NCH, d.nch), (R.CMP.STATUS.STATE, if st = 3 then 1 else st)] d

/-! ## Jobs (R418 to R421) -/

/-- The write-back of a job's descriptor (R418). -/
def jobWriteBack (x : JobS) (d : Dev) : Dev :=
  dramWrite (x.desc + 40) (leBytes 4 x.inUsed ++ leBytes 4 x.outUsed ++ leBytes 4 x.records ++ leBytes 2 x.status) d

/-- Issued lines that wait for a replay line become tokens when no more will come. -/
def replayEnd (p : Nat) (drop : Bool) (d : Dev) : Dev :=
  let s := d.portS p
  let d := setPort p { s with replayOn := false, replayWait := [], replay := if drop then [] else s.replay } d
  each (fun (w : Nat × Nat) d => forwardLine p (tokenLine p w.1 w.2 d) d) s.replayWait d

/-- A job ends with a STATUS (R420, R421). -/
def jobEnd (e status : Nat) (d : Dev) : Dev :=
  let x := { d.jobS e with status := status }
  let d := jobWriteBack x (setJob e x d)
  let d := if x.kind = 3 then replayEnd x.param (status == 6) d else d
  if status = 0 then
    event 0x15 (R.CMP.JOB_STATUS.SEQ e) [R.CMP.JOB_STATUS.DONE e] (put (R.CMP.JOB_STATUS.STATE e) 0 d)
  else
    cmpStat 9 1 (event 0x15 (R.CMP.JOB_STATUS.SEQ e) [R.CMP.JOB_STATUS.STOP e] (put (R.CMP.JOB_STATUS.STATE e) 2 d))

/-- A descriptor that the spec's table admits for an engine (R418, R419). -/
def descOk (e : Nat) (b : List Byte) : Bool :=
  let kind := fieldAt b 0 1
  if e = 0 then
    kind == 1 && decide (fieldAt b 1 1 ≤ 1) && decide (4 ≤ fieldAt b 2 1 ∧ fieldAt b 2 1 ≤ 16 ∧ fieldAt b 3 1 ≤ 2)
      && decide (1 ≤ fieldAt b 4 4 ∧ fieldAt b 4 4 ≤ 131072) && fieldAt b 16 4 % (2 * fieldAt b 4 4) == 0
  else (kind == 2 || (kind == 3 && decide (fieldAt b 3 1 ≤ 11))) && (fieldAt b 1 1 == 0 || fieldAt b 1 1 == 2)

/-- `JOBe_CMD.START` (R418): ignored on an engine that runs (R423). A reserved code in the descriptor is a host
error. -/
def jobStart (e : Nat) (m : Mem) (d : Dev) : Host.Outcome Dev Fault Refusal :=
  if !d.on R.CMP.CTL.EN || d.get (R.CMP.JOB_STATUS.STATE e) == 1 then .next d
  else
    let a := d.get (R.CMP.JOB_DESC.ADDR e)
    let r := d.dramRead m a 64
    let b := r.1
    let d := cmpStat 8 1 (setJob e { desc := a } d)
    if r.2 then .next (jobEnd e 4 d)
    else if a % 64 ≠ 0 || !descOk e b then .fault (.hostError "job descriptor")
    else
      let x : JobS :=
        { desc := a, kind := fieldAt b 0 1, flags := fieldAt b 1 1, depth := fieldAt b 2 1, param := fieldAt b 3 1, width := fieldAt b 4 4
          inAddr := fieldAt b 8 8, inLen := fieldAt b 16 4, lsn0 := fieldAt b 20 4, outAddr := fieldAt b 24 8, outLimit := fieldAt b 32 4 }
      let d := put (R.CMP.JOB_STATUS.STATE e) 1 (setJob e x d)
      if x.kind = 3 then
        if d.get (R.EKL.STATUS.STATE x.param) = 5 then .next (setPort x.param { d.portS x.param with replayOn := true } d)
        else .next (jobEnd e 6 d)
      else .next d

/-- `JOB_START` (R418). -/
def execJobStart (e : Fin 2) (s : State) : Host.Outcome State Fault Refusal := run (fun m d => jobStart e.val m d) s

/-- A device address range exists. -/
def Dev.dramHas (d : Dev) (a n : Nat) : Bool := !d.channels.isEmpty && decide (a + n ≤ d.dramEnd)

/-- The next piece of an encode job (R419). -/
def encodeRecord (m : Mem) (d : Dev) : Dev :=
  let x := d.jobS 0
  if x.inLen ≤ x.inUsed then jobEnd 0 0 d
  else
    let i := x.inUsed / 2
    let off := i % x.width
    let n := min 8192 (x.width - off)
    let raw := bit x.flags 0
    let need := cdiv (codedBound x.depth n raw + 40) 8 * 8
    if x.outLimit < x.outUsed + need then jobEnd 0 1 d
    else
      let r := d.dramRead m (x.inAddr + x.inUsed) (2 * n)
      if r.2 then jobEnd 0 4 d
      else
        let xs := (List.range n).map (fun k => fieldAt r.1 (2 * k) 2 / 2 ^ (16 - x.depth))
        let h : RecHead := { lsn := (x.lsn0 + i / x.width) % 2 ^ 32, tap := 7, src := 0xff, plane := 0, depth := x.depth, first := off
                             count := n, dt := 0, lflags := 0, pflag := 0, rflags := 0 }
        let c := codeRecord h x.param raw x.refs xs
        if !d.dramHas (x.outAddr + x.outUsed) c.1.length then jobEnd 0 4 d
        else
          let d := dramWrite (x.outAddr + x.outUsed) c.1 (cmpPerf 8 n (countCoded c.2.1 d))
          let y := { x with inUsed := x.inUsed + 2 * n, outUsed := x.outUsed + c.1.length, records := x.records + 1, refs := c.2.2 }
          let d := setJob 0 y d
          if x.inLen ≤ y.inUsed then jobEnd 0 0 d else d

/-- Where the input of a decode job stands: at a record with the bytes left for it, at its end, or at an input that
stops the job. -/
inductive InPos where
  | at' (used avail : Nat) (fresh : Bool)
  | done
  | stop (status : Nat)
deriving DecidableEq, Repr

/-- The next record of a decode job: with CHUNKED the chunk headers are checked and passed over (R420). -/
def inputPos (m : Mem) (d : Dev) (x : JobS) : Nat → Nat → Bool → InPos
  | 0, _, _ => .stop 3
  | fuel + 1, used, fresh =>
    if x.inLen ≤ used then .done
    else if !bit x.flags 1 then .at' used (x.inLen - used) fresh
    else
      let c := used / 65536 * 65536
      if x.inLen < c + 65536 then .stop 3
      else
        let r := d.dramRead m (x.inAddr + c) 64
        if r.2 then .stop 4
        else if fieldAt r.1 0 4 ≠ 0x4352584c ∨ fieldAt r.1 4 2 ≠ 1 ∨ fieldAt r.1 60 4 ≠ crc32c (r.1.take 60) then .stop 3
        else
          let o := if used = c then 64 else used - c
          let e := 64 + fieldAt r.1 12 4
          if e ≤ o then inputPos m d x fuel (c + 65536) false
          else .at' (c + o) (min e 65536 - o) (fresh || used == c)

/-- The camera line that the records of a replay line give (R422, R152, R153). -/
def replayLine (p : Nat) (lsn : Nat) (rs : List DecRec) (d : Dev) : CamLine :=
  let segs (q : Nat) : List (Nat × List Nat) := (rs.filter (fun r => r.plane == q)).map (fun r => (r.first, r.samples))
  let short (q : Nat) : Bool := (List.range (d.get (R.EKL.PLANE_CTL.WIDTH p q))).any (fun i => !planeHas (segs q) i)
  let lf := rs.foldl (fun a r => a ||| r.lflags) 256
  { port := p, lsn, e := 0
    flags := lf ||| (2 * b2n ((d.slots p).any short))
    pflags := (List.range 4).map (fun q =>
      if d.on (R.EKL.PLANE_CTL.EN p q) then
        (rs.filter (fun r => r.plane == q)).foldl (fun a r => a ||| r.pflag) (b2n (segs q).isEmpty + 2 * b2n (short q)) else 0)
    dtExp := 0, dtDone := 0, token := false
    planes := (List.range 4).map (fun q =>
      if d.on (R.EKL.PLANE_CTL.EN p q) then
        (List.range (d.get (R.EKL.PLANE_CTL.WIDTH p q))).map (planePixel (d.get (R.EKL.PLANE_BG.VALUE p q)) (segs q)) else []) }

/-- A complete replay line waits for the next issued line, or serves one that waits (R422). -/
def replayPut (p : Nat) (l : CamLine) (d : Dev) : Dev :=
  let s := d.portS p
  match s.replayWait with
  | [] => setPort p { s with replay := s.replay ++ [l] } d
  | (lsn, e) :: rest =>
    forwardLine p { replayFor lsn e l with dtDone := d.dt } (cmpPerf 0xa 1 (cmpStat 10 1 (setPort p { s with replayWait := rest } d)))

/-- The replay line under assembly is complete. -/
def replayFlush (d : Dev) : Dev :=
  let x := d.jobS 1
  match x.line with
  | none => d
  | some (lsn, rs) => replayPut x.param (replayLine x.param lsn rs d) (setJob 1 { x with line := none } d)

/-- A decoded record joins its replay line (R422). -/
def replayRecord (h : RecHead) (vs : List Nat) (d : Dev) : Dev :=
  let d := match (d.jobS 1).line with
    | some (lsn, _) => if lsn = h.lsn then d else replayFlush d
    | none => d
  let x := d.jobS 1
  let rs := match x.line with | some (_, rs) => rs | none => []
  setJob 1 { x with line := some (h.lsn, rs ++ [{ plane := h.plane, first := h.first, lflags := h.lflags, pflag := h.pflag, samples := vs }]) } d

/-- A job of the decoder engine has consumed its input. -/
def decodeEnd (d : Dev) : Dev := jobEnd 1 0 (if (d.jobS 1).kind = 3 then replayFlush d else d)

/-- The next record of a decode job (R420). -/
def decodeRecord (m : Mem) (d : Dev) : Dev :=
  let x := d.jobS 1
  if x.kind = 3 ∧ d.get (R.EKL.STATUS.STATE x.param) ≠ 5 then jobEnd 1 6 d
  else
    match inputPos m d x (x.inLen / 65536 + 2) x.inUsed false with
    | .done => decodeEnd d
    | .stop st => jobEnd 1 st d
    | .at' used avail fresh =>
      let x := { x with inUsed := used, refs := if fresh then [] else x.refs }
      let d := setJob 1 x d
      let a := x.inAddr + used
      if avail < 40 then jobEnd 1 2 d
      else
        let hd := d.dramRead m a 40
        let h := readHead hd.1
        let size := 40 + cdiv h.clen 8 * 8
        let produced := cdiv (40 + 2 * h.count) 8 * 8
        if hd.2 then jobEnd 1 4 d
        else if !headCrcOk hd.1 || !h.ok || (x.kind == 3 && h.tap != 0) then jobEnd 1 2 d
        else if x.outLimit < x.outUsed + produced then jobEnd 1 1 d
        else if avail < size then jobEnd 1 2 d
        else
          let bl := d.dramRead m (a + 40) h.clen
          let key : RefLine := { tap := h.tap, src := h.src, plane := h.plane, first := h.first, lsn := h.lsn, samples := List.replicate h.count 0 }
          let ref := if bit h.rflags 0 then refFor x.refs key else none
          let got := decodeLine h.depth h.count ref bl.1
          if bl.2 && h.clen != 0 then jobEnd 1 4 d
          else if fieldAt hd.1 32 4 ≠ crc32c bl.1 ∨ (bit h.rflags 0 = true ∧ ref = none) then jobEnd 1 2 d
          else
            match got with
            | none => jobEnd 1 2 d
            | some xs =>
              let vs := xs.map (· * 2 ^ (16 - h.depth))
              if x.kind = 2 ∧ !d.dramHas (x.outAddr + x.outUsed) produced then jobEnd 1 4 d
              else
                let d := if x.kind = 2 then dramWrite (x.outAddr + x.outUsed) (pad8 (hd.1 ++ vs.flatMap (leBytes 2))) d else replayRecord h vs d
                let y := d.jobS 1
                let y := { y with inUsed := used + size, outUsed := y.outUsed + produced, records := y.records + 1
                                  refs := keepRef y.refs { key with samples := xs } }
                let d := cmpPerf 9 h.count (setJob 1 y d)
                match inputPos m d y (y.inLen / 65536 + 2) y.inUsed false with
                | .done => decodeEnd d
                | _ => d

/-- DRAM bytes that the engines have moved for their jobs, as their positions show them (R418). -/
def jobBytes (x : JobS) : Nat := x.inUsed + (if x.kind = 3 then 0 else x.outUsed)

/-- A step of a job, its traffic metered as host image traffic (R13, R418). -/
def jobMetered (e : Nat) (f : Dev → Dev) (d : Dev) : Dev :=
  let y := f d
  meterUser 3 (jobBytes (y.jobS e) - jobBytes (d.jobS e)) y

/-- `JOB_RECORD` (R419, R420): the next record of the job that an engine runs; it waits while the grant of host image
traffic is spent (R418). -/
def execJobRecord (e : Fin 2) (s : State) : Host.Outcome State Fault Refusal :=
  total (fun m d =>
    if d.get (R.CMP.JOB_STATUS.STATE e.val) ≠ 1 then d
    else if d.yields 3 then holdUser 3 d
    else jobMetered e.val (if e.val = 0 then encodeRecord m else decodeRecord m) d) s

/-- A job stopped at its output limit continues (R421). -/
def jobResume (e : Nat) (m : Mem) (d : Dev) : Dev :=
  let x := d.jobS e
  if d.get (R.CMP.JOB_STATUS.STATE e) = 2 ∧ x.status = 1 then
    let r := d.dramRead m (x.desc + 24) 12
    if r.2 then jobEnd e 4 d
    else
      let d := put (R.CMP.JOB_STATUS.STATE e) 1 (setJob e { x with outAddr := fieldAt r.1 0 8, outLimit := fieldAt r.1 8 4 } d)
      when (x.kind == 3) (fun d => setPort x.param { d.portS x.param with replayOn := true } d) d
  else d

/-- `JOB_RESUME` (R421). -/
def execJobResume (e : Fin 2) (s : State) : Host.Outcome State Fault Refusal := total (fun m d => jobResume e.val m d) s

/-- A job is aborted: one that runs, or one that a RESUME of the same write would continue (R423). -/
def jobAbort (e : Nat) (resume : Bool) (d : Dev) : Dev :=
  let st := d.get (R.CMP.JOB_STATUS.STATE e)
  if st = 1 ∨ (resume = true ∧ st = 2 ∧ (d.jobS e).status = 1) then jobEnd e 5 d else d

/-- `JOB_ABORT` (R423). -/
def execJobAbort (e : Fin 2) (s : State) : Host.Outcome State Fault Refusal := total (fun _ d => jobAbort e.val false d) s

end Sys2Proof.Machine
end

