-- ==== Sys2Proof/Machine/Dram.lean ====
section
/-!
DEFINITION. The DRAM controller: coordinates, banks and buffers, refresh and self-refresh, errors and row repair,
channel retirement with its layout, and the DRAM budget (R10 to R14, R359 to R376).
-/

namespace Sys2Proof.Machine

def ddrPerf (code n : Nat) (d : Dev) : Dev := perf 0x12 0x1b00000 code n d
def ddrStat (c i n : Nat) (d : Dev) : Dev := inc (R.DDR.STAT.COUNT c i) n d
def Dev.ddrS (d : Dev) (c : Nat) : DdrCh := KMap.get (fun _ => {}) d.ddr.ch c
def setDdr (c : Nat) (x : DdrCh) (d : Dev) : Dev := { d with ddr := { d.ddr with ch := KMap.put (fun _ => {}) d.ddr.ch c x } }

/-! ## Capacity and coordinates (R359 to R363) -/

/-- Data rate in MT/s. -/
def Dev.dramRate (d : Dev) : Nat := 3200 + 400 * d.get R.DDR.CFG.RATE

/-- MiB of one rank of one channel (R360). -/
def rankMib (dens : Nat) : Nat := match dens with | 0 => 16384 | 1 => 16384 | 2 => 24576 | _ => 32768

/-- Usable MiB of a channel (R361). -/
def Dev.chanMib (d : Dev) : Nat := rankMib (d.get R.DDR.CFG.DENS) * (d.get R.DDR.CFG.RANKS + 1) - 1

/-- The device address of a channel-local address of a channel in service: the inverse of R362. -/
def Dev.deviceAddr (d : Dev) (ch l : Nat) : Nat :=
  let n := max 1 d.channels.length
  let g := 2 ^ (8 + d.get R.DDR.MAP.GRAIN)
  let h := if d.on R.DDR.MAP.HASH then (bits l 20 2 + bits l 28 2 + bits l 32 2) % n else 0
  let i := (d.channels.filter (· < ch)).length
  (l / g * n + (i + n - h) % n) * g + l % g

/-- DDR5 coordinates of a channel-local address. -/
structure Coord where
  rank : Nat
  sc : Nat
  bg : Nat
  bank : Nat
  row : Nat
  col : Nat
deriving DecidableEq, Repr

/-- The decoding of a channel-local address (R363). -/
def Dev.coord (d : Dev) (l : Nat) : Coord :=
  let b := if d.get R.DDR.CFG.DENS = 0 then 1 else 2
  let c := if d.on R.TOP.PROFILE_ACT.DRAM_PROT then 6 else 7
  let w := if d.get R.DDR.CFG.DENS ≤ 1 then 16 else 17
  { bg := bits l 6 3, sc := bits l 9 1, bank := bits l 10 b, col := bits l (10 + b) c, row := bits l (10 + b + c) w
    rank := if d.on R.DDR.CFG.RANKS then bits l (10 + b + c + w) 1 else 0 }

/-- The number of a bank in its channel. -/
def Coord.key (x : Coord) : Nat := x.bank + 4 * x.bg + 32 * x.sc + 64 * x.rank

/-- ROWID in the layout of `UE_LOC` bits [25:0] (R377). -/
def Coord.rowId (x : Coord) (ch : Nat) : Nat := ch + 4 * x.rank + 8 * x.sc + 16 * x.bg + 128 * x.bank + 512 * x.row

/-! ## Banks (R365) -/

def Dev.bankAt (d : Dev) (ch k : Nat) : BankS := KMap.get (fun _ => {}) (d.ddrS ch).bank k
def setBankAt (ch k : Nat) (b : BankS) (d : Dev) : Dev :=
  setDdr ch { d.ddrS ch with bank := KMap.put (fun _ => {}) (d.ddrS ch).bank k b } d

/-- An access to a row of a bank: page events, the predictor, and the precharge that it decides (R365). -/
def bankAccess (ch : Nat) (x : Coord) (d : Dev) : Dev :=
  let b := d.bankAt ch x.key
  let hit := b.row == some x.row
  let pred := match b.row with
    | some r => if r = x.row then min 3 (b.pred + 1) else b.pred - 1
    | none => if b.last = some x.row then min 3 (b.pred + 1) else b.pred
  let last := match b.row with
    | some r => if r = x.row then b.last else some r
    | none => b.last
  let d := if hit then ddrPerf 4 1 (ddrStat ch 9 1 d)
    else ddrPerf 3 1 (if b.row.isSome then ddrStat ch 11 1 d else ddrStat ch 10 1 d)
  let remapped := (List.range 64).any (fun e => d.on (R.DDR.REMAP.EN ch e) && d.get (R.DDR.REMAP.ROWID ch e) == x.rowId ch)
  let d := when remapped (ddrPerf 0xd 1) d
  setBankAt ch x.key (if 2 ≤ pred then { row := some x.row, last, pred, hitAt := d.dt } else { row := none, last := some x.row, pred, hitAt := d.dt }) d

/-- A bank is precharged; its predictor stays (R365). -/
def closeBank (ch k : Nat) (d : Dev) : Dev :=
  let b := d.bankAt ch k
  match b.row with
  | some r => setBankAt ch k { b with row := none, last := some r } d
  | none => d

/-- `PRECHARGE` (R365): a row open with no request for 256 DRAM clocks. -/
def execPrecharge (ch : Fin 4) (bank : Fin 128) (s : State) : Host.Outcome State Fault Refusal :=
  total (fun _ d =>
    let b := d.bankAt ch.val bank.val
    if b.row.isNone then d
    else closeBank ch.val bank.val (reach ((b.hitAt + cdiv (256 * 2000 * 65536) d.dramRate) % 2 ^ 64) d)) s

/-! ## The budget (R10 to R14) -/

/-- The planning figure in 0.1 GB/s (R10). -/
def Dev.planFigure (d : Dev) : Nat := 1500 * d.channels.length * d.dramRate / (4 * 6400)

/-- The grants of R12. -/
def computeGrants (d : Dev) : Dev :=
  let c (k : Nat) : Nat := d.get (R.TOP.DRAM_GRANT.CEIL k)
  let plan := d.get R.TOP.DRAM_PLAN.PLAN
  let r3 : Int := (plan : Int) - (c 0 + c 1 + c 2 : Nat)
  let g3 := (max 0 (min (c 3 : Int) r3)).toNat
  let r4 : Int := r3 - g3
  let g4 := (max 0 (min (c 4 : Int) r4)).toNat
  let r5 : Int := r4 - g4
  let g5 := (max 0 (min (c 5 : Int) r5)).toNat
  puts [(R.TOP.DRAM_GRANT.GRANT 0, c 0), (R.TOP.DRAM_GRANT.GRANT 1, c 1), (R.TOP.DRAM_GRANT.GRANT 2, c 2),
        (R.TOP.DRAM_GRANT.GRANT 3, g3), (R.TOP.DRAM_GRANT.GRANT 4, g4), (R.TOP.DRAM_GRANT.GRANT 5, g5)] d

/-- The non-yielding ceilings exceed the planning figure (R14). -/
def Dev.overBudget (d : Dev) : Bool :=
  decide (d.get R.TOP.DRAM_PLAN.PLAN < d.get (R.TOP.DRAM_GRANT.CEIL 0) + d.get (R.TOP.DRAM_GRANT.CEIL 1) + d.get (R.TOP.DRAM_GRANT.CEIL 2))

/-- PLAN and CHANNELS for the channels in service (R10, R25). -/
def showPlan (d : Dev) : Dev :=
  puts [(R.TOP.DRAM_PLAN.PLAN, d.planFigure), (R.TOP.DRAM_PLAN.CHANNELS, d.channels.length)] d

/-- What the meters of a new window start with: the bytes that a unit of a yielding user moved in one command beyond
the grant count against the windows that follow (log entry 47). -/
def Dev.nextMeter (d : Dev) : KMap Nat :=
  [3, 4, 5].foldl (fun m u => setNum u (num d.ddr.meter u - windowBudget (d.get (R.TOP.DRAM_GRANT.GRANT u))) m) []

/-- `ARBITER_WINDOW` (R13): the excess of the window is counted, and a new window starts. -/
def execArbiterWindow (s : State) : Host.Outcome State Fault Refusal :=
  total (fun _ d =>
    let d := each (fun k d => when (decide (windowBudget (d.get (R.TOP.DRAM_GRANT.CEIL k)) < num d.ddr.meter k)) (ddrPerf (0x10 + k) 1) d) [0, 1, 2] d
    let d := when (flag d.yielding 3) (ddrPerf 0x13 1) d
    let d := when (flag d.yielding 6) (perf 0x13 0x1c00000 9 1) d
    let d := when (flag d.yielding 7) (perf 15 0x1300000 6 1) d
    { d with ddr := { d.ddr with meter := d.nextMeter, reports := d.ddr.reports - d.reportPace }, yielding := [] }) s

/-! ## Layout and retirement (R375, R376) -/

/-- Regions of the first pass from MiB `at'` on: none once one does not fit. -/
def firstPass (d : Dev) (cap : Nat) : List Nat → Nat → Bool → List (Nat × Nat × Nat) × Nat × Bool
  | [], at', ok => ([], at', ok)
  | i :: is, at', ok =>
    let n := d.get (R.TOP.RGN.SIZE_MIB i)
    let fits := ok && decide (at' + n ≤ cap)
    let r := firstPass d cap is (if fits then at' + n else at') fits
    ((i, if fits then at' else 0, if fits then n else 0) :: r.1, r.2)

/-- Regions of the second pass share what remains in proportion to their sizes. -/
def secondPass (d : Dev) (left all : Nat) : List Nat → Nat → List (Nat × Nat × Nat)
  | [], _ => []
  | i :: is, at' =>
    let n := left * d.get (R.TOP.RGN.SIZE_MIB i) / max 1 all
    (i, at', n) :: secondPass d left all is (at' + n)

/-- A region of the second pass: recorder or BAR2 scratch. -/
def Dev.shrinks (d : Dev) (i : Nat) : Bool := d.get (R.TOP.RGN.USE i) == 4 || d.get (R.TOP.RGN.USE i) == 7

/-- The regions that the configuration uses. -/
def Dev.regionsUsed (d : Dev) : List Nat := (List.range 64).filter (fun i => d.get (R.TOP.RGN.SIZE_MIB i) != 0)

/-- The layout of R376 in the channels in service. -/
def applyLayout (d : Dev) : Dev :=
  let cap := d.get R.DDR.CAP.MIB
  let p1 := firstPass d cap (d.regionsUsed.filter (fun i => !d.shrinks i)) 0 true
  let second := d.regionsUsed.filter d.shrinks
  let all := sumNat (second.map (fun i => d.get (R.TOP.RGN.SIZE_MIB i)))
  let p2 := secondPass d (cap - p1.2.1) all second p1.2.1
  let d := each (fun r d => puts [(R.DDR.RGN_ACT.BASE_MIB r.1, r.2.1), (R.DDR.RGN_ACT.SIZE_MIB r.1, r.2.2)] d) (p1.1 ++ p2) d
  if p1.2.2 then d else logEv 0x0003 0 3 cap d

/-- The layout that the image configures. -/
def configuredLayout (d : Dev) : Dev :=
  each (fun i d => puts [(R.DDR.RGN_ACT.BASE_MIB i, d.get (R.TOP.RGN.BASE_MIB i)), (R.DDR.RGN_ACT.SIZE_MIB i, d.get (R.TOP.RGN.SIZE_MIB i))] d) (List.range 64) d

/-- Two regions share a byte. -/
def regionsMeet (a b : Nat × Nat) : Bool := decide (a.1 < b.1 + b.2 ∧ b.1 < a.1 + a.2)

/-- Some two regions of a list share a byte. -/
def anyMeet : List (Nat × Nat) → Bool
  | [] => false
  | r :: rs => rs.any (regionsMeet r) || anyMeet rs

/-- The channels that the image configures. -/
def Dev.configured (d : Dev) : List Nat := List.range (min 4 (d.get R.DDR.CFG.CHANNELS))

/-- A channel is retired by an entry of the repair map (R370, R441). -/
def Dev.chRetired (d : Dev) (c : Nat) : Bool := d.ras.repairs.any (fun e => e.kind == 6 && !bit e.flags 1 && e.inst == c)

/-- What is wrong with the DRAM layout that the image configures: regions that overlap (R24), or that reach beyond the device
space of the configured channels while each of them comes into service (R361); `fails` names the channels that do not train. -/
def Dev.layoutErr (d : Dev) (fails : List (Nat × Nat)) : Option String :=
  let rs := d.regionsUsed.map (fun i => (d.get (R.TOP.RGN.BASE_MIB i), d.get (R.TOP.RGN.SIZE_MIB i)))
  if anyMeet rs then some "regions overlap (R24)"
  else if d.configured.all (fun c => !d.chRetired c && !fails.any (fun f => f.1 == c))
      && rs.any (fun r => decide (d.configured.length * d.chanMib < r.1 + r.2)) then
    some "a region reaches beyond the device space (R361)"
  else if d.on R.DDR.CFG.RANKS ∧ 2 ≤ d.get R.DDR.CFG.DENS then some "two ranks of 24 or 32 Gb devices (R359)"
  else none

/-- ACTIVE and CAP for a set of channels in service (R361). -/
def showChannels (mask : Nat) (d : Dev) : Dev :=
  let d := put R.DDR.CAP.ACTIVE mask d
  put R.DDR.CAP.MIB (d.channels.length * d.chanMib) d

/-- The lines of a port's ring that no share has taken are lost with the ring: each is read as a token (R375). -/
def ringLostAll (p : Nat) (m : Mem) (d : Dev) : Dev :=
  let s := d.portS p
  let n := max 1 (d.ringSlots p)
  let lost (mp : KMap (Option (Nat × Nat × Nat))) (k : Nat) : KMap (Option (Nat × Nat × Nat)) :=
    if (KMap.get (fun _ => (none : Option (Nat × Nat × Nat))) mp k).isSome then mp
    else
      let b := (d.dramRead m (d.ringAddr p (k % n)) 24).1
      KMap.put (fun _ => none) mp k (some (fieldAt b 0 4, fieldAt b 8 8, fieldAt b 16 8))
  setPort p { s with
    ringLost := ((List.range (s.ringSeq - s.ringRd)).map (s.ringRd + ·)).foldl lost s.ringLost
    ringOut := s.ringOut.map (fun l => if l.token then l else { tokenLine p l.lsn l.e d with dtDone := l.dtDone }) } d

/-- A strip's journal starts again empty: what its gouge still needed from it is lost (R375). -/
def journalLost (st : Nat) (d : Dev) : Dev :=
  let x := d.stripS st
  let needs := x.keep.isSome || (match d.placed st with | some g => (d.gouS g).spill | none => false)
  let d := setStrip st { x with lo := x.wr } d
  match d.placed st with
  | some g => if needs then logEv 0x0d88 g 2 st (event 13 (R.GGE.STATUS.SEQ g) [R.GGE.STATUS.JRN_LOST g] d) else d
  | none => d

/-- Every tile reads as missing (R375). -/
def tilesLost (d : Dev) : Dev :=
  let r := d.region (d.get R.CLS.TILE_CTL.RGN)
  let d := { d with cls := { d.cls with tileRow := [], tileSkip := [] } }
  if r.2 = 0 ∨ !d.on R.CLS.TILE_CTL.EN then d else dramWrite r.1 (List.replicate (min d.tagBytes r.2) 0#8) d

/-- Channel `ch` retires (R375): the interleave, the layout, the plan and the grants for the channels left, and
every region restarts empty. -/
def retire (ch : Nat) (m : Mem) (d : Dev) : Dev :=
  let d := each (fun p => ringLostAll p m) (List.range 12) d
  let d := setDomain (34 + ch) false (put (R.DDR.CH_STATUS.STATE ch) 4 (setDdr ch {} d))
  let mask := d.get R.DDR.CAP.ACTIVE
  let d := showChannels (mask - (if bit mask ch then 2 ^ ch else 0)) d
  let d := computeGrants (showPlan (applyLayout d))
  let d := when d.overBudget (logEv 0x0001 0 3 (d.get R.TOP.DRAM_PLAN.PLAN)) d
  let d := tilesLost (each journalLost (List.range d.nstrips) d)
  let d := puts [(R.PRF.RING_WR.OFFSET, 0), (R.PRF.RING_RD.OFFSET, 0)] d
  let d := recRestart (reportRestart false d)
  recordRepair 6 0x12 ch 0 (event 0x12 R.DDR.STATUS.SEQ [R.DDR.STATUS.RETIRED] d)

/-- A channel fault (R375): retirement, or a log entry when AUTO is 0. -/
def channelFault (ch : Nat) (retrain : Bool) (m : Mem) (d : Dev) : Dev :=
  if !bit (d.get R.DDR.CAP.ACTIVE) ch then d
  else
    let d := when retrain (event 0x12 R.DDR.STATUS.SEQ [R.DDR.STATUS.RETRAIN_FAIL]) d
    if d.on R.DDR.RET_CTL.AUTO then
      if d.ras.coresDown then { d with ddr := { d.ddr with retireQ := (d.ddr.retireQ ++ [ch]).eraseDups } } else retire ch m d
    else if retrain then logEv 0x1288 ch 3 ch d else logEv 0x127f ch 2 ch d

/-- `DRAM_PHY_FAULT` (R375). -/
def execDramPhyFault (ch : Fin 4) (s : State) : Host.Outcome State Fault Refusal := total (fun m d => channelFault ch.val false m d) s

/-! ## Row relocation (R373) -/

/-- A remap entry is in use. -/
def Dev.remapUsed (d : Dev) (ch e : Nat) : Bool := d.on (R.DDR.REMAP.EN ch e) || (d.ddrS ch).copying.contains e

/-- A row is relocated: an entry and a spare row are taken and the copy starts (R373). -/
def relocate (ch : Nat) (x : Coord) (d : Dev) : Dev :=
  let id := x.rowId ch
  let used := (List.range 64).filter (d.remapUsed ch)
  if !d.on R.DDR.PPR_CTL.EN || used.any (fun e => d.get (R.DDR.REMAP.ROWID ch e) == id) then d
  else
    match (List.range 64).find? (fun e => !d.remapUsed ch e) with
    | none => event 0x12 R.DDR.STATUS.SEQ [R.DDR.STATUS.REMAP_FULL] d
    | some e =>
      let spare := ((List.range 65).find? (fun k => used.all (fun u => d.get (R.DDR.REMAP.SPARE ch u) != k))).getD 0
      let d := puts [(R.DDR.REMAP.ROWID ch e, id), (R.DDR.REMAP.SPARE ch e, spare), (R.DDR.REMAP.HPPR ch e, 0)] d
      setDdr ch { d.ddrS ch with copying := (d.ddrS ch).copying ++ [e] } d

/-- The `REMAPe` pair of an entry. -/
def Dev.remapPair (d : Dev) (ch e : Nat) : Nat :=
  d.get (R.DDR.REMAP.ROWID ch e) + 2 ^ 32 * d.get (R.DDR.REMAP.SPARE ch e) + 2 ^ 62 * d.get (R.DDR.REMAP.HPPR ch e) + 2 ^ 63 * d.get (R.DDR.REMAP.EN ch e)

/-- `REMAP_ENTRY_ENABLE` (R373): the oldest copy of a channel has ended. -/
def execRemapEntryEnable (ch : Fin 4) (s : State) : Host.Outcome State Fault Refusal :=
  total (fun _ d =>
    let ch := ch.val
    match (d.ddrS ch).copying with
    | [] => d
    | e :: rest =>
      let d := put (R.DDR.REMAP.EN ch e) 1 (setDdr ch { d.ddrS ch with copying := rest } d)
      let d := ddrStat ch 4 1 (put (R.DDR.CH_STATUS.REMAPS ch) (d.get (R.DDR.CH_STATUS.REMAPS ch) + 1) d)
      recordRepair 5 0x12 ch (d.remapPair ch e) d) s

/-! ## Errors (R372) -/

/-- A corrected error in a row; at its limit the row is relocated (R373). -/
def rowError (ch : Nat) (x : Coord) (d : Dev) : Dev :=
  let k := x.rowId ch
  let n := num (d.ddrS ch).rowCe k + 1
  let d := ddrPerf 7 1 (setDdr ch { d.ddrS ch with rowCe := setNum k n (d.ddrS ch).rowCe } d)
  when (decide (d.get R.DDR.PPR_CTL.CE_ROW ≤ n)) (relocate ch x) d

/-- A corrected read (R372). -/
def corrected (ch a : Nat) (x : Coord) (d : Dev) : Dev :=
  rowError ch x (logEv 0x1289 ch 1 a (event 0x12 R.DDR.STATUS.SEQ [R.DDR.STATUS.CE] (ddrStat ch 0 1 d)))

/-- An uncorrectable read (R372), and the channel fault that too many of them are (R375). -/
def uncorrectable (ch a : Nat) (x : Coord) (syn : Nat) (scrub : Bool) (m : Mem) (d : Dev) : Dev :=
  let d := puts [(R.DDR.UE_ADDR.A, a), (R.DDR.UE_LOC.CH, ch), (R.DDR.UE_LOC.RANK, x.rank), (R.DDR.UE_LOC.SC, x.sc), (R.DDR.UE_LOC.BG, x.bg),
                 (R.DDR.UE_LOC.BANK, x.bank), (R.DDR.UE_LOC.ROW, x.row), (R.DDR.UE_LOC.COL, x.col), (R.DDR.UE_SYN.SYN, syn),
                 (R.DDR.UE_SYN.SCRUB, b2n scrub)] d
  let d := ddrPerf 8 1 (ddrStat ch 1 1 (event 0x12 R.DDR.STATUS.SEQ [R.DDR.STATUS.UE] d))
  let d := relocate ch x (errEvent 0 (logEv 0x128a ch 3 a d))
  let recent := (d.ddrS ch).ueAt.filter (fun t => decide (dtDiff d.dt t ≤ 1000000000 * 65536)) ++ [d.dt]
  let d := setDdr ch { d.ddrS ch with ueAt := recent } d
  if d.get R.DDR.RET_CTL.UE_MAX ≤ recent.length then channelFault ch false m d else d

/-! ## Requests (R364, R366, R367) -/

/-- The granule of a channel's oldest buffered write is issued to DRAM. -/
def issueWrite (ch g : Nat) (d : Dev) : Dev :=
  bankAccess ch (d.coord (64 * g)) (setDdr ch { d.ddrS ch with wbuf := (d.ddrS ch).wbuf.filter (· != g), busyAt := d.dt } d)

/-- A channel's write buffer is drained to a number of entries. -/
def drainTo (ch n : Nat) (d : Dev) : Dev :=
  let q := (d.ddrS ch).wbuf
  each (issueWrite ch) (q.take (q.length - n)) d

/-- `WRITE_BATCH` (R364): runs until 16 entries remain; a batch that starts with 16 or fewer issues them all. -/
def execWriteBatch (ch : Fin 4) (s : State) : Host.Outcome State Fault Refusal :=
  total (fun _ d => drainTo ch.val (if 16 < (d.ddrS ch.val).wbuf.length then 16 else 0) d) s

/-- A write within one granule (R366, R367); a merge that finds its granule uncorrectable has the row relocated (R373). -/
def writeRequest (ch a : Nat) (bs : List Byte) (err : DramErr) (m : Mem) (d : Dev) : Dev :=
  let l := (d.locate a).2
  let x := d.coord l
  let d := ddrPerf 2 1 d
  let mark := (d.view m).mark (d.physKey a / 64)
  let part := decide (bs.length < 64)
  let d := when part (ddrPerf 6 1) d
  let bad := part && (mark == .poison || (mark == .written && (match err with | .uncorrectable _ => true | _ => false)))
  let d := when (part && !bad && err == .corrected && mark == .written) (corrected ch a x) d
  let d := if bad then relocate ch x <| logEv 0x1201 ch 2 a (ddrStat ch 2 1 (post (.poison (d.physKey a / 64)) d)) else dramWrite a bs d
  let q := (d.ddrS ch).wbuf
  if q.contains (l / 64) then d
  else
    let d := if 64 ≤ q.length then drainTo ch 16 d else d
    setDdr ch { d.ddrS ch with wbuf := (d.ddrS ch).wbuf ++ [l / 64] } d

/-- A read of a granule (R366, R370, R372). -/
def readRequest (ch a : Nat) (err : DramErr) (m : Mem) (d : Dev) : Dev :=
  let l := (d.locate a).2
  let x := d.coord l
  let d := ddrPerf 1 1 d
  let d := if (d.ddrS ch).wbuf.contains (l / 64) then issueWrite ch (l / 64) (ddrPerf 5 1 (ddrStat ch 8 1 d)) else d
  let d := bankAccess ch x d
  match (d.view m).mark (d.physKey a / 64) with
  | .initial => d
  | .poison => uncorrectable ch a x (match err with | .uncorrectable syn => syn.toNat | _ => d.fresh % 65536) false m (takeFree d)
  | .written =>
    match err with
    | .clean => d
    | .corrected => corrected ch a x d
    | .uncorrectable syn => uncorrectable ch a x syn.toNat false m (post (.poison (d.physKey a / 64)) d)

/-- A request of a DRAM user within one granule: a read, or a write with its bytes (R13, R364). -/
def dramRequest (user a : Nat) (data : Option (List Byte)) (err : DramErr) (m : Mem) (d : Dev) : Dev :=
  let n := match data with | some bs => bs.length | none => 64 - a % 64
  if !d.dramHas a n || n == 0 || decide (64 < a % 64 + n) then d
  else if d.atGrant user 64 then holdUser user d
  else
    let ch := (d.locate a).1
    let d := meterUser user 64 d
    let d := when (d.get (R.DDR.CH_STATUS.STATE ch) == 3) (put (R.DDR.CH_STATUS.STATE ch) 2) d
    let d := setDdr ch { d.ddrS ch with busyAt := d.dt } d
    match data with
    | some bs => writeRequest ch a bs err m d
    | none => readRequest ch a err m d

/-- `DRAM_REQUEST` (R364): the user by its number of R11, the device address, the bytes of a write, and what the
ECC finds in the burst. -/
def execDramRequest (user : Fin 6) (a : BitVec 37) (data : Option (List Byte)) (err : DramErr) (s : State) : Host.Outcome State Fault Refusal :=
  total (fun m d => dramRequest user.val a.toNat data err m d) s

/-! ## Refresh and service (R360, R368, R369, R371, R372) -/

/-- A channel is in service and awake. -/
def Dev.chRuns (d : Dev) (ch : Nat) : Bool := d.get (R.DDR.CH_STATUS.STATE ch) == 2

/-- Bank indices of the devices (R368). -/
def Dev.bankIdx (d : Dev) : Nat := if d.get R.DDR.CFG.DENS = 0 then 2 else 4

/-- The banks of an index are precharged for their refresh. -/
def refreshBanks (ch i : Nat) (d : Dev) : Dev := each (closeBank ch) ((List.range 128).filter (fun k => k % 4 == i)) d

/-- `REFSB` (R368): the refresh of the next bank index falls due; it is postponed while its bank has requests, at
most four times. -/
def execRefsb (ch : Fin 4) (busy : Bool) (s : State) : Host.Outcome State Fault Refusal :=
  total (fun _ d =>
    let ch := ch.val
    if !d.chRuns ch then d
    else
      let x := d.ddrS ch
      let i := x.refIdx
      let owed := num x.owed i
      let next := (i + 1) % d.bankIdx
      if busy ∧ owed < 4 then ddrPerf 9 1 (setDdr ch { x with refIdx := next, owed := setNum i (owed + 1) x.owed } d)
      else refreshBanks ch i (setDdr ch { x with refIdx := next, owed := setNum i 0 x.owed } d)) s

/-- One write DQS delay moves by one code towards its new value (R371). -/
def dqsStep (ch k : Nat) (d : Dev) : Dev :=
  let x := d.ddrS ch
  let v := KMap.get (fun _ => (0 : Int)) x.dqs k
  if v = 0 then d
  else ddrStat ch 5 1 (setDdr ch { x with dqs := KMap.put (fun _ => 0) x.dqs k (if 0 < v then v - 1 else v + 1) } d)

/-- `PHY_UPDATE_WINDOW` (R368): every PERIOD_US a REFab per rank, and the code changes that are due. -/
def execPhyUpdateWindow (ch : Fin 4) (s : State) : Host.Outcome State Fault Refusal :=
  total (fun _ d =>
    let ch := ch.val
    if !d.chRuns ch then d
    else
      let d := reachNs (d.ddrS ch).updAt (1000 * d.get R.DDR.PHY_UPD.PERIOD_US) d
      let d := ddrPerf 0xc 1 (each (closeBank ch) (List.range 128) d)
      let d := setDdr ch { d.ddrS ch with owed := [], updAt := d.dt } d
      calWindow ch (each (dqsStep ch) ((d.ddrS ch).dqs.map Prod.fst) d)) s

/-- `SELF_REFRESH_ENTRY` (R369); `cancel`: a request arrives before the SRE command. -/
def execSelfRefreshEntry (ch : Fin 4) (cancel : Bool) (s : State) : Host.Outcome State Fault Refusal :=
  total (fun _ d =>
    let ch := ch.val
    let x := d.ddrS ch
    if !d.chRuns ch || !d.on R.DDR.SR_CTL.EN || !x.wbuf.isEmpty || !x.owed.isEmpty then d
    else
      let d := reachNs x.busyAt (d.get R.DDR.SR_CTL.IDLE_NS) d
      let d := each (closeBank ch) (List.range 128) d
      if cancel then ddrPerf 0xb 1 (ddrStat ch 7 1 d)
      else ddrPerf 0xa 1 (ddrStat ch 6 1 (put (R.DDR.CH_STATUS.STATE ch) 3 d))) s

/-- `MR4_READ` (R360): the rate that a rank reports, every 32 ms; the most demanding one is applied. -/
def execMr4Read (ch : Fin 4) (rank : Fin 2) (fast : Bool) (s : State) : Host.Outcome State Fault Refusal :=
  total (fun _ d =>
    let ch := ch.val
    if !bit (d.get R.DDR.CAP.ACTIVE) ch then d
    else
      let d := reachNs (num (d.ddrS ch).mr4At rank.val) 32000000 d
      let x := d.ddrS ch
      let mr4 := setNum rank.val (b2n fast) x.mr4
      put (R.DDR.CH_STATUS.RATE_MR4 ch) (max (num mr4 0) (num mr4 1)) (setDdr ch { x with mr4, mr4At := setNum rank.val d.dt x.mr4At } d)) s

/-- `DQS_OSCILLATOR` (R371): every OSC_MS, the change of each device in delay codes since training; `fail`: a change beyond the
delay range, or a failure of the read tracking. -/
def execDqsOscillator (ch : Fin 4) (change : List Int) (fail : Bool) (s : State) : Host.Outcome State Fault Refusal :=
  total (fun m d =>
    let ch := ch.val
    let d := when (d.chRuns ch) (fun d =>
      let d := reachNs (d.ddrS ch).oscAt (1000000 * d.get R.DDR.RETRAIN.OSC_MS) d
      setDdr ch { d.ddrS ch with oscAt := d.dt } d) d
    if !d.chRuns ch then d
    else if fail then channelFault ch true m d
    else
      each (fun (e : Nat × Int) d =>
        let x := d.ddrS ch
        if d.get R.DDR.RETRAIN.THR ≤ e.2.natAbs then setDdr ch { x with dqs := KMap.put (fun _ => 0) x.dqs e.1 e.2 } d else d)
        ((List.range change.length).zip change) d) s

/-- A pass of the patrol scrub over a channel starts, HOURS after the one before (R372). -/
def patrolPass (ch : Nat) (d : Dev) : Dev :=
  let d := reachNs (d.ddrS ch).passAt (3600000000000 * d.get R.DDR.SCRUB.HOURS) d
  setDdr ch { d.ddrS ch with passAt := d.dt } d

/-- `PATROL_SCRUB` (R372): the next granule of a channel is read. -/
def execPatrolScrub (ch : Fin 4) (err : DramErr) (s : State) : Host.Outcome State Fault Refusal :=
  total (fun m d =>
    let ch := ch.val
    if !d.chRuns ch || !d.on R.DDR.SCRUB.EN then d
    else
      let g := (d.ddrS ch).patrol
      let next := (g + 1) % max 1 (d.chanMib * 16384)
      let d := setDdr ch { d.ddrS ch with patrol := next } d
      let d := when (next == 0) (patrolPass ch) d
      let x := d.coord (64 * g)
      let key := ch * 2 ^ 36 / 64 + g
      let a := d.deviceAddr ch (64 * g)
      match (d.view m).mark key with
      | .initial => d
      | .poison => uncorrectable ch a x (d.fresh % 65536) true m (takeFree d)
      | .written =>
        match err with
        | .clean => d
        | .corrected => rowError ch x (ddrStat ch 3 1 d)
        | .uncorrectable syn => uncorrectable ch a x syn.toNat true m (post (.poison key) d)) s

/-! ## Training (R370, R373) -/

/-- A channel just trained: its intervals start. -/
def trainedCh (t : Nat) : DdrCh := { busyAt := t, updAt := t, oscAt := t, passAt := t, mr4At := setNum 0 t (setNum 1 t []) }

/-- One channel is trained, or fails at a step. -/
def trainChannel (fails : List (Nat × Nat)) (ch : Nat) (d : Dev) : Dev :=
  match fails.find? (fun f => f.1 == ch) with
  | some f => logEv 0x1202 ch 3 f.2 (put (R.DDR.CH_STATUS.STATE ch) 4 d)
  | none => post (.train ch) (put (R.DDR.CH_STATUS.STATE ch) 2 (setDdr ch (trainedCh d.dt) d))

/-- A DRAM entry of the repair map at start-up: hPPR frees it, or it stays in force for good (R373). -/
def applyRemap (bad : List (Nat × Nat)) (e : RepEntry) (d : Dev) : Dev :=
  let ch := e.inst
  let id := e.data % 2 ^ 26
  let k := (List.range 64).find? (fun k => !d.remapUsed ch k)
  match k with
  | some k =>
    if bad.any (fun b => b.1 == ch && b.2 == id) then
      put (R.DDR.CH_STATUS.REMAPS ch) (d.get (R.DDR.CH_STATUS.REMAPS ch) + 1)
        (puts [(R.DDR.REMAP.ROWID ch k, id), (R.DDR.REMAP.SPARE ch k, bits e.data 32 16), (R.DDR.REMAP.HPPR ch k, 1), (R.DDR.REMAP.EN ch k, 1)] d)
    else d
  | none => d

/-- No remap entry of a channel is in use. -/
def clearRemaps (ch : Nat) (d : Dev) : Dev :=
  put (R.DDR.CH_STATUS.REMAPS ch) 0
    (each (fun e d => puts [(R.DDR.REMAP.ROWID ch e, 0), (R.DDR.REMAP.SPARE ch e, 0), (R.DDR.REMAP.HPPR ch e, 0), (R.DDR.REMAP.EN ch e, 0)] d) (List.range 64) d)

/-- Step 9 of R473: the configured channels that are not retired are trained; `fails` gives the channels that fail
with their step, `hpprBad` the rows whose hPPR fails. Channels that stay out of service may leave the non-yielding ceilings
above the planning figure, which is logged as at a retirement (R14). -/
def ddrStart (fails hpprBad : List (Nat × Nat)) (d : Dev) : Dev :=
  let entries := d.ras.repairs
  let conf := d.configured
  let tried := conf.filter (fun c => !d.chRetired c)
  let d := each (fun c d => clearRemaps c (put (R.DDR.CH_STATUS.STATE c) (if conf.contains c then 4 else 0) (setDdr c {} d))) [0, 1, 2, 3] d
  let d := each (trainChannel fails) tried d
  let up := tried.filter (fun c => !fails.any (fun f => f.1 == c))
  let d := showChannels (sumNat (up.map (fun c => 2 ^ c))) d
  let d := if up.length = conf.length then configuredLayout d else applyLayout d
  let d := each (applyRemap hpprBad) (entries.filter (fun e => e.kind == 5 && !bit e.flags 1 && up.contains e.inst)) d
  let d := computeGrants (showPlan { d with ddr := { d.ddr with meter := [] }, yielding := [] })
  when (decide (up.length < conf.length) && d.overBudget) (logEv 0x0001 0 3 (d.get R.TOP.DRAM_PLAN.PLAN)) d

end Sys2Proof.Machine
end

