-- ==== Sys2Proof/Machine/Carver.lean ====
section
/-!
DEFINITION. The Carver: selection, patches, network blobs, layers and requantisation, unscored objects, self-test
and slices (R295 to R317).
-/

namespace Sys2Proof.Machine

def crvPerf (code n : Nat) (d : Dev) : Dev := perf 15 0x1300000 code n d
def crvStat (c n : Nat) (d : Dev) : Dev := inc (R.CRV.STAT.COUNT c) n d

/-! ## Weight SRAM and blobs (R302 to R304) -/

/-- A byte of weight SRAM. -/
def Dev.wByte (d : Dev) (a : Nat) : Nat := bits (num d.crv.weights (a / 4)) (8 * (a % 4)) 8
/-- An n-byte little-endian field of weight SRAM. -/
def Dev.wField (d : Dev) : Nat → Nat → Nat
  | _, 0 => 0
  | a, n + 1 => d.wByte a + 256 * d.wField (a + 1) n

/-- One layer of a network (R303); `wb` is the offset of its weights in weight SRAM. -/
structure Layer where
  op : Nat
  stride : Nat
  act : Nat
  clipHi : Nat
  inH : Nat
  inW : Nat
  inC : Nat
  outH : Nat
  outW : Nat
  outC : Nat
  wOfs : Nat
  wLen : Nat
  outBits : Nat
  wb : Nat
deriving DecidableEq, Repr

/-- A blob header (R302). -/
structure Blob where
  base : Nat
  nLayers : Nat
  nScores : Nat
  inW : Nat
  inH : Nat
  inC : Nat
  wBytes : Nat
deriving DecidableEq, Repr

def Dev.blob (d : Dev) (n : Nat) : Blob :=
  let b := d.get (R.CRV.NET_BASE.OFFSET n)
  { base := b, nLayers := d.wByte (b + 6), nScores := d.wByte (b + 7), inW := d.wByte (b + 8), inH := d.wByte (b + 9)
    inC := d.wByte (b + 10), wBytes := d.wField (b + 12) 4 }

/-- Layer k of a blob. -/
def Dev.layer (d : Dev) (x : Blob) (k : Nat) : Layer :=
  let o := x.base + 64 + 32 * k
  let wOfs := d.wField (o + 12) 4
  { op := d.wByte o, stride := d.wByte (o + 1), act := d.wByte (o + 2), clipHi := d.wByte (o + 3), inH := d.wByte (o + 4)
    inW := d.wByte (o + 5), inC := d.wField (o + 6) 2, outH := d.wByte (o + 8), outW := d.wByte (o + 9)
    outC := d.wField (o + 10) 2, wOfs, wLen := d.wField (o + 16) 4, outBits := d.wByte (o + 20)
    wb := x.base + 64 + 32 * x.nLayers + wOfs }

def Dev.layers (d : Dev) (x : Blob) : List Layer := (List.range x.nLayers).map (d.layer x)

/-- Inputs of an output channel: the K of R310. -/
def Layer.k (l : Layer) : Nat :=
  match l.op with
  | 1 => 9 * l.inC
  | 2 => l.inC
  | 3 => 9
  | 6 => l.inH * l.inW * l.inC
  | _ => 0

/-- The layer has parameters. -/
def Layer.hasParams (l : Layer) : Bool := l.op == 1 || l.op == 2 || l.op == 3 || l.op == 6

/-- Weight bytes before padding. -/
def Layer.weightBytes (l : Layer) : Nat := l.outC * l.k

/-- W_LEN by R304. -/
def Layer.wLenDue (l : Layer) : Nat := if l.hasParams then cdiv l.weightBytes 16 * 16 + 8 * l.outC else 0

/-- Array clocks of a layer with P positions at once (R310). -/
def Layer.clocks (l : Layer) (p : Nat) : Nat :=
  match l.op with
  | 1 => cdiv (l.outH * l.outW) p * cdiv l.outC 16 * cdiv l.k 8
  | 2 => cdiv (l.outH * l.outW) p * cdiv l.outC 16 * cdiv l.k 8
  | 3 => cdiv (l.outH * l.outW) p * cdiv l.outC 16 * 2
  | 6 => cdiv l.outC 16 * cdiv l.k (8 * p)
  | _ => cdiv (l.outH * l.outW * l.outC) 256

/-- N_P of a network with a number of active slices. -/
def Dev.netClocks (d : Dev) (x : Blob) (slices : Nat) : Nat := sumNat ((d.layers x).map (fun l => l.clocks (max 1 (4 * slices))))

/-! ## Validation (R308) -/

/-- Bytes of weight SRAM. -/
def Dev.wBytesAt (d : Dev) (a n : Nat) : List Byte := (List.range n).map (fun i => BitVec.ofNat 8 (d.wByte (a + i)))

/-- Check 0x1: MAGIC, VERSION, HCRC and DCRC. -/
def blobCrcOk (d : Dev) (x : Blob) : Bool :=
  d.wField x.base 4 == 0x4b524356 && d.wField (x.base + 4) 2 == 1
    && d.wField (x.base + 60) 4 == crc32c (d.wBytesAt x.base 60)
    && decide (32 * x.nLayers + x.wBytes ≤ 4194304)
    && d.wField (x.base + 44) 4 == crc32c (d.wBytesAt (x.base + 64) (32 * x.nLayers + x.wBytes))

/-- A number lies in a range. -/
def between (lo hi x : Nat) : Bool := decide (lo ≤ x ∧ x ≤ hi)

/-- The fields of a layer lie in the ranges of R303. -/
def layerFieldsOk (last : Bool) (l : Layer) : Bool :=
  between 1 6 l.op && (if l.op ≤ 3 then between 1 2 l.stride else l.stride == 0)
    && between 0 2 l.act
    && (l.act != 2 || between 1 127 l.clipHi) && between 1 64 l.inH && between 1 64 l.inW && between 1 256 l.inC
    && between 1 256 l.outC && l.wOfs % 16 == 0 && l.outBits == (if last then 16 else 8)

/-- The reserved bytes of the header and of the layer descriptors are 0 (R302, R303). -/
def blobReservedOk (d : Dev) (x : Blob) : Bool :=
  d.wByte (x.base + 11) == 0 && (List.range 12).all (fun i => d.wByte (x.base + 48 + i) == 0)
    && (List.range x.nLayers).all (fun k => (List.range 11).all (fun i => d.wByte (x.base + 85 + 32 * k + i) == 0))

/-- Check 0x2. -/
def blobFieldsOk (d : Dev) (x : Blob) : Bool :=
  let ls := d.layers x
  blobReservedOk d x &&
  between 1 12 x.nLayers && between 1 16 x.nScores && between 4 64 x.inW && x.inW % 2 == 0 && between 4 64 x.inH && x.inH % 2 == 0
    && between 1 8 x.inC && (ls.zip (List.range ls.length)).all (fun e => layerFieldsOk (e.2 + 1 == ls.length) e.1)

/-- The output shape of a layer follows R305. -/
def layerShapeOk (l : Layer) : Bool :=
  match l.op with
  | 4 => l.inH % 2 == 0 && l.inW % 2 == 0 && l.outH * 2 == l.inH && l.outW * 2 == l.inW && l.outC == l.inC
  | 5 => l.inH % 2 == 0 && l.inW % 2 == 0 && l.outH * 2 == l.inH && l.outW * 2 == l.inW && l.outC == l.inC
  | 6 => l.outH == 1 && l.outW == 1 && decide (l.k ≤ 16384)
  | _ => l.outH == cdiv l.inH (max 1 l.stride) && l.outW == cdiv l.inW (max 1 l.stride) && (l.op != 3 || l.outC == l.inC)

/-- Each layer's input is the output of the one before. -/
def chainOk : List Layer → Nat → Nat → Nat → Bool
  | [], _, _, _ => true
  | l :: ls, h, w, c => l.inH == h && l.inW == w && l.inC == c && chainOk ls l.outH l.outW l.outC

/-- Check 0x3. -/
def blobShapesOk (d : Dev) (x : Blob) : Bool :=
  let ls := d.layers x
  chainOk ls x.inH x.inW x.inC && ls.all layerShapeOk
    && (match ls.getLast? with
        | some l => l.outH == 1 && l.outW == 1 && l.outC == x.nScores && l.outBits == 16
        | none => false)

/-- The two checks 0x4. -/
def blobSizesOk (d : Dev) (x : Blob) : Bool :=
  let ls := d.layers x
  ls.all (fun l => l.wLen == l.wLenDue && decide (l.wOfs + l.wLen ≤ x.wBytes)
    && decide (l.inH * l.inW * l.inC + l.outH * l.outW * l.outC * (l.outBits / 8) ≤ 262144))
    && decide (x.base + 64 + 32 * x.nLayers + x.wBytes ≤ 4194304)

/-- The ERR code of a blob, 0 when it is valid. -/
def blobErr (d : Dev) (n : Nat) : Nat :=
  let x := d.blob n
  if !blobCrcOk d x then 1
  else if !blobFieldsOk d x then 2
  else if !blobShapesOk d x then 3
  else if !blobSizesOk d x then 4
  else 0

/-- `VALIDATE` (R308): the parse of the blob starts. -/
def validateStart (n : Nat) (d : Dev) : Dev := { d with crv := { d.crv with validating := setFlag n true d.crv.validating } }

/-- `VALIDATE` (R308). -/
def execValidate (n : Fin 4) (s : State) : Host.Outcome State Fault Refusal := total (fun _ d => validateStart n.val d) s

/-- The end of a validation (R308). -/
def validateEnd (n : Nat) (d : Dev) : Dev :=
  let d := { d with crv := { d.crv with validating := setFlag n false d.crv.validating, tainted := setFlag n false d.crv.tainted } }
  let e := blobErr d n
  if e = 0 then
    let x := d.blob n
    puts [(R.CRV.NET_CTL.VALID n, 1), (R.CRV.NET_CTL.ERR n, 0), (R.CRV.NET_INFO.NLAYERS n, x.nLayers),
          (R.CRV.NET_INFO.NSCORES n, x.nScores), (R.CRV.NET_INFO.CLOCKS n, d.netClocks x 16)] d
  else
    event 15 R.CRV.STATUS.SEQ [R.CRV.STATUS.NET_ERR] (puts [(R.CRV.NET_CTL.VALID n, 0), (R.CRV.NET_CTL.ERR n, e)] d)

/-- `VALIDATION_DONE` (R308). -/
def execValidationDone (n : Fin 4) (s : State) : Host.Outcome State Fault Refusal :=
  total (fun _ d => if flag d.crv.validating n.val then validateEnd n.val d else d) s

/-! ## Selection, requests and unscored objects (R295 to R297, R313) -/

/-- A network slot selects an object (R295). -/
def netSelects (d : Dev) (o : ObjRec) (n : Nat) : Bool :=
  d.on (R.CRV.NET_CTL.EN n) && d.on (R.CRV.NET_CTL.VALID n)
    && decide (d.get (R.CRV.NET_AMIN.AREA n) ≤ o.area ∧ o.area ≤ d.get (R.CRV.NET_AMAX.AREA n))
    && (List.range 15).any (fun i => bit (d.get (R.CRV.NET_CLS.CMASK n)) (i + 1) && decide (0 < nth 0 o.cls i))
    && o.flags &&& d.get (R.CRV.NET_CLS.XFLAGS n) == 0

/-- `QUEUE` and `PENDING` in their registers. -/
def showQueue (d : Dev) : Dev :=
  let q := d.crv.queue.length
  let d := peak R.CRV.QUEUE.PEAK q (put R.CRV.QUEUE.LEVEL q d)
  each (fun n d => put (R.CRV.NET_CTL.PENDING n)
    ((d.crv.queue.filter (fun r => r.net == n)).length + (d.crv.patches.filter (fun r => r.net == n)).length) d) [0, 1, 2, 3] d

/-- A held object completes as unscored for a cause of R313. -/
def unscore (id cause : Nat) (d : Dev) : Dev :=
  match d.held.find? (fun o => o.id == id) with
  | none => d
  | some o =>
    let d := { d with held := d.held.filter (fun x => x.id != id)
                      objQ := d.objQ ++ [{ o with waiting := false, flags := o.flags ||| 1024, score := [0, 0, 0, 0], scores := [] }] }
    let d := crvPerf 3 1 (crvStat cause 1 d)
    if cause = 6 then crvPerf 4 1 d else d

/-- The Carver serves requests. -/
def Dev.crvRuns (d : Dev) : Bool := d.on R.CRV.CTL.EN && (d.get R.CRV.STATUS.STATE == 1 || d.get R.CRV.STATUS.STATE == 2)

/-- The collector hands an object over (R282, R295, R296). -/
def handOver (o : ObjRec) (d : Dev) : Dev :=
  match [0, 1, 2, 3].find? (netSelects d o) with
  | none => { d with objQ := d.objQ ++ [o] }
  | some n =>
    let o := { o with handed := d.dt, waiting := true, net := some n }
    let d := crvStat 0 1 { d with held := d.held ++ [o] }
    if !d.crvRuns then unscore o.id 7 d
    else if 4096 ≤ d.crv.queue.length then unscore o.id 2 (event 15 R.CRV.STATUS.SEQ [R.CRV.STATUS.QUEUE_FULL] d)
    else showQueue (crvPerf 1 1 { d with crv := { d.crv with queue := d.crv.queue ++ [{ obj := o, net := n }] } })

/-! ## The patch (R298 to R301) -/

/-- The scale factor and whether the window crops the object (R298). -/
def scaleOf (mode : Nat) (x : Blob) (o : ObjRec) : Nat × Bool :=
  let wb := o.x1 - o.x0 + 1
  let fits (f : Nat) : Bool := decide (wb ≤ f * x.inW ∧ o.lines ≤ f * x.inH)
  match mode with
  | 0 => if fits 1 then (1, false) else if fits 2 then (2, false) else (4, !fits 4)
  | m => let f := 2 ^ (m - 1); (f, !fits f)

/-- The tag of a tile as DRAM holds it: ROW, LINES, and whether the read was poisoned. -/
def Dev.readTag (d : Dev) (m : Mem) (r t : Nat) : Nat × Nat × Bool :=
  let base := (d.region (d.get R.CLS.TILE_CTL.RGN)).1
  let b := d.dramRead m (base + 8 * d.tileSlot r t) 8
  (fieldAt b.1 0 4, fieldAt b.1 4 4, b.2)

/-- How a source pixel of the window is resolved (R299): the tile bytes, a pad value, or the loss of the
object by cause TILE or OVERWRITE. -/
inductive SrcPx where
  | bytes (b : List Nat)
  | pad
  | lost (cause : Nat)
deriving DecidableEq, Repr

/-- The pixel is lost. -/
def SrcPx.isLost : SrcPx → Bool
  | .lost _ => true
  | _ => false

/-- The bytes of one line of a tile as DRAM holds them, and whether the read was poisoned (R250, R311). -/
def Dev.readTileLine (d : Dev) (m : Mem) (r t l : Nat) : List Byte × Bool :=
  let base := (d.region (d.get R.CLS.TILE_CTL.RGN)).1
  d.dramRead m (base + d.tagBytes + d.tileSlot r t * 1024 * d.bpp + 32 * l * d.bpp) (32 * d.bpp)

/-- One source pixel; `col` and `k` are its column and its line after FIRST. `changed` names the tiles whose tag
changed between the two reads of R300. The reads of the window are its tags and whole tile lines (R299, R311). -/
def sourcePx (d : Dev) (m : Mem) (o : ObjRec) (changed : List (Nat × Nat)) (col k : Int) : SrcPx :=
  if col < 0 ∨ (d.width : Int) ≤ col ∨ (o.lines : Int) ≤ k then .pad
  else
    let line := unsgn 32 ((o.first : Int) + k)
    let r := line / 32
    let t := col.toNat / 32
    let tag := d.readTag m r t
    let row := k - (line % 32 : Nat)
    let core := decide (o.x0 / 32 ≤ t ∧ t ≤ o.x1 / 32 ∧ 0 ≤ row + 31 ∧ row < o.lines)
    let data := d.readTileLine m r t (line % 32)
    if tag.2.2 || data.2 then .lost 4
    else if changed.contains (r, t) then (if core then .lost 5 else .pad)
    else if tag.1 = r ∧ bit tag.2.1 (line % 32) = true then
      .bytes (((data.1.drop (col.toNat % 32 * d.bpp)).take d.bpp).map (·.toNat))
    else if core then .lost 4
    else .pad

/-- A source pixel's value for a patch channel (R301). -/
def chanSource (d : Dev) (x : Blob) (c : Nat) (p : SrcPx) : Nat :=
  let src := d.wByte (x.base + 20 + c)
  let padv := d.wByte (x.base + 28 + c)
  match src / 64 with
  | 0 => match p with | .bytes b => nth 0 b (src % 4) | _ => padv
  | 1 =>
    match p with
    | .bytes b => if bit (d.wField (x.base + 36 + 2 * bits src 2 2) 2) (nth 0 b (src % 4) % 16) then 127 else 0
    | _ => 0
  | 2 => padv
  | _ => 0

/-- The source pixels of a window, row by row; their number is (f * IN_H) * (f * IN_W). -/
def windowPx (d : Dev) (m : Mem) (x : Blob) (f : Nat) (o : ObjRec) (changed : List (Nat × Nat)) : List (List SrcPx) :=
  let cx : Int := ((o.x0 + o.x1 + 1) / 2 : Nat)
  let ky : Int := ((o.lines / 2 : Nat) : Int) - ((f * x.inH / 2 : Nat) : Int)
  let kx : Int := cx - ((f * x.inW / 2 : Nat) : Int)
  (List.range (f * x.inH)).map (fun (i : Nat) => (List.range (f * x.inW)).map (fun (j : Nat) => sourcePx d m o changed (kx + j) (ky + i)))

/-- A held object is given up for its age: its request is abandoned (R297, R314). -/
def giveUp (id : Nat) (d : Dev) : Dev :=
  let d := { d with crv := { d.crv with queue := d.crv.queue.filter (fun r => r.obj.id != id)
                                        patches := d.crv.patches.filter (fun p => p.obj.id != id) } }
  showQueue (unscore id 6 d)

/-- A held object is older than AGE. -/
def Dev.aged (d : Dev) (o : ObjRec) : Bool := decide ((d.get R.CRV.AGE.NS : Int) * 65536 < dtDiff d.dt o.handed)

/-- Every held object older than AGE is complete as unscored before anything else of the Carver happens (R297, R43). -/
def dropAged (d : Dev) : Dev := each giveUp ((d.held.filter d.aged).map (·.id)) d

/-- The patch in HWC order (R301, R305). -/
def patchOf (d : Dev) (x : Blob) (f : Nat) (win : List (List SrcPx)) : List Int :=
  (List.range x.inH).flatMap (fun i => (List.range x.inW).flatMap (fun j =>
    let px := (List.range f).flatMap (fun a => (List.range f).map (fun b => nth .pad (nth [] win (f * i + a)) (f * j + b)))
    (List.range x.inC).map (fun c =>
      let a := (sumNat (px.map (chanSource d x c)) + f * f / 2) / (f * f)
      let kind := d.wByte (x.base + 20 + c) / 64
      if kind = 0 ∨ kind = 2 then (a : Int) - 128 else a)))

/-- Bytes that the tile reader reads for a window (R311). -/
def windowBytes (d : Dev) (x : Blob) (f : Nat) (o : ObjRec) : Nat :=
  let cx : Int := ((o.x0 + o.x1 + 1) / 2 : Nat)
  let lo := (max 0 (cx - ((f * x.inW / 2 : Nat) : Int))).toNat
  let hi := min ((cx + ((f * x.inW / 2 : Nat) : Int)).toNat) d.width
  let ky : Int := ((o.lines / 2 : Nat) : Int) - ((f * x.inH / 2 : Nat) : Int)
  let rows := ((List.range (f * x.inH)).filter (fun (i : Nat) => decide (ky + i < o.lines))).length
  rows * (if lo < hi then (hi - 1) / 32 - lo / 32 + 1 else 0) * 32 * d.bpp

/-- Tile reads wait for the grant of user 4 in the next window (R312). -/
def holdReads (d : Dev) : Dev := holdUser 4 { d with yielding := setFlag 7 true d.yielding }

/-- The head of the queue is fetched into a free patch slot (R299 to R301), within the grant of user 4 (R312). -/
def patchFetch (changed : List (Nat × Nat)) (m : Mem) (d : Dev) : Dev :=
  match d.crv.queue with
  | [] => d
  | r :: rest =>
    if 8 ≤ d.crv.patches.length then d
    else if d.yields 4 then holdReads d
    else
      let d := { d with crv := { d.crv with queue := rest } }
      let o := r.obj
      if !d.held.any (fun h => h.id == o.id) then showQueue d
      else if !d.crvRuns then showQueue (unscore o.id 7 d)
      else if !d.on (R.CRV.NET_CTL.VALID r.net) then showQueue (unscore o.id 3 d)
      else
        let x := d.blob r.net
        let sc := scaleOf (d.get (R.CRV.NET_RS.MODE r.net)) x o
        let win := windowPx d m x sc.1 o changed
        let patch : CrvPatch := { obj := o, net := r.net, data := patchOf d x sc.1 win }
        let d := when sc.2 (fun d => crvPerf 7 1 (crvStat 9 1 d)) d
        let d := meterUser 4 (windowBytes d x sc.1 o) (crvPerf 5 (windowBytes d x sc.1 o / 64) d)
        let bad := win.flatMap (fun row => row.filterMap (fun p => match p with | .lost c => some c | _ => none))
        match bad with
        | c :: _ => showQueue (unscore o.id c d)
        | [] => showQueue { d with crv := { d.crv with patches := d.crv.patches ++ [patch] } }

/-- `PATCH_FETCH` (R309): `changed` names the tiles whose tag changed between the two reads. -/
def execPatchFetch (changed : List (Nat × Nat)) (s : State) : Host.Outcome State Fault Refusal :=
  total (fun m d => patchFetch changed m (dropAged d)) s

/-! ## The network (R305 to R307) -/

/-- An activation of a layer's input in HWC order; 0 outside the input. -/
def actAt (l : Layer) (xs : List Int) (y x : Int) (c : Nat) : Int :=
  if 0 ≤ y ∧ y < l.inH ∧ 0 ≤ x ∧ x < l.inW then nth 0 xs ((y.toNat * l.inW + x.toNat) * l.inC + c) else 0

/-- An int8 weight of a layer. -/
def Dev.weight (d : Dev) (l : Layer) (i : Nat) : Int := sgn 8 (d.wByte (l.wb + i))

/-- The accumulator of an output (R305). -/
def accAt (d : Dev) (l : Layer) (xs : List Int) (y x oc : Nat) : Int :=
  match l.op with
  | 2 => sumInt ((List.range l.inC).map (fun ic =>
      d.weight l (oc * l.inC + ic) * actAt l xs (l.stride * y : Nat) (l.stride * x : Nat) ic))
  | 6 => sumInt ((List.range l.k).map (fun k => d.weight l (oc * l.k + k) * nth 0 xs k))
  | op => sumInt ((List.range 9).map (fun t =>
      let yy : Int := (l.stride * y + t / 3 : Nat) - 1
      let xx : Int := (l.stride * x + t % 3 : Nat) - 1
      if op = 3 then d.weight l (oc * 9 + t) * actAt l xs yy xx oc
      else sumInt ((List.range l.inC).map (fun ic => d.weight l ((oc * 9 + t) * l.inC + ic) * actAt l xs yy xx ic))))

/-- Requantisation of an accumulator (R306). -/
def requant (d : Dev) (l : Layer) (oc : Nat) (acc : Int) : Int :=
  let r := l.wb + cdiv l.weightBytes 16 * 16 + 8 * oc
  let v := acc + sgn 32 (d.wField r 4)
  let scale : Int := d.wField (r + 4) 2
  let sh := d.wByte (r + 6)
  let y := if sh = 0 then v * scale else fdiv (v * scale + (2 ^ (sh - 1) : Nat)) (2 ^ sh)
  let hi : Int := if l.outBits = 16 then 32767 else 127
  let lo : Int := if l.outBits = 16 then -32768 else -128
  match l.act with
  | 0 => clampI lo hi y
  | 1 => clampI 0 hi y
  | _ => clampI 0 l.clipHi y

/-- The output of a pool at one place (R305). -/
def poolAt (l : Layer) (xs : List Int) (y x c : Nat) : Int :=
  let vs := [actAt l xs (2 * y : Nat) (2 * x : Nat) c, actAt l xs (2 * y : Nat) (2 * x + 1 : Nat) c,
             actAt l xs (2 * y + 1 : Nat) (2 * x : Nat) c, actAt l xs (2 * y + 1 : Nat) (2 * x + 1 : Nat) c]
  if l.op = 4 then vs.foldl max (-128) else fdiv (sumInt vs + 2) 4

/-- A layer over its input. -/
def runLayer (d : Dev) (xs : List Int) (l : Layer) : List Int :=
  (List.range l.outH).flatMap (fun y => (List.range l.outW).flatMap (fun x => (List.range l.outC).map (fun oc =>
    if l.hasParams then requant d l oc (accAt d l xs y x oc) else poolAt l xs y x oc)))

/-- A network over a patch (R307). -/
def runNet (d : Dev) (x : Blob) (patch : List Int) : List Int := (d.layers x).foldl (runLayer d) patch

/-- The scores of a patch; free values where the blob was written while in use (R307, R308). -/
def Dev.scoresOf (d : Dev) (p : CrvPatch) : List Int :=
  let x := d.blob p.net
  if flag d.crv.tainted p.net then (List.range x.nScores).map (fun i => sgn 16 (Config.free (d.free + i))) else runNet d x p.data

/-- The array runs the network of the next resampled patch (R309). -/
def patchCompute (d : Dev) : Dev :=
  match d.crv.patches with
  | [] => d
  | p :: rest =>
    let out : CrvResult :=
      { id := p.obj.id, net := p.net, clocks := d.netClocks (d.blob p.net) (d.get R.CRV.SLICES.ACTIVE), scores := d.scoresOf p }
    let used := if flag d.crv.tainted p.net then (d.blob p.net).nScores else 0
    let d := showQueue { d with crv := { d.crv with patches := rest } }
    if !d.held.any (fun h => h.id == p.obj.id) then d
    else if !d.crvRuns then unscore p.obj.id 7 d
    else if !d.on (R.CRV.NET_CTL.VALID p.net) then unscore p.obj.id 3 d
    else { d with crv := { d.crv with results := d.crv.results ++ [out] }, free := d.free + used }

/-- Bytes of weight SRAM that a blob covers (R302, R308). -/
def Blob.span (x : Blob) : Nat := 64 + 32 * x.nLayers + x.wBytes

/-- The blob of the next patch's network overlaps that of another slot in use (R308, R34). -/
def Dev.blobsMeet (d : Dev) : Bool :=
  match d.crv.patches with
  | [] => false
  | p :: _ =>
    let x := d.blob p.net
    (List.range 4).any (fun m => m != p.net && d.on (R.CRV.NET_CTL.EN m) && d.on (R.CRV.NET_CTL.VALID m)
      && decide (x.base < (d.blob m).base + (d.blob m).span ∧ (d.blob m).base < x.base + x.span))

/-- `PATCH_COMPUTE` (R309): blobs of two slots that overlap are a host error (R308, R34). -/
def execPatchCompute (s : State) : Host.Outcome State Fault Refusal :=
  run (fun _ d => if d.blobsMeet then .fault (.hostError "blobs of different slots overlap (R308)") else .next (patchCompute (dropAged d))) s

/-- The scores of a computed patch reach the verdict unit (R297, R307); later than AGE, the object is complete without
them. -/
def deliverScores (d : Dev) : Dev :=
  match d.crv.results with
  | [] => d
  | r :: rest =>
    let d := { d with crv := { d.crv with results := rest } }
    let d := dropAged d
    match d.held.find? (fun o => o.id == r.id) with
    | none => slot 15 0x1300000 1 r.clocks (crvPerf 8 1 (crvStat 8 1 d))
    | some o =>
      let idx (i : Nat) : Int := nth 0 r.scores (bits (d.get (R.CRV.NET_SCORE.IDX r.net)) (4 * i) 4)
      let o := { o with waiting := false, scores := r.scores, score := [idx 0, idx 1, idx 2, idx 3] }
      slot 15 0x1300000 0 r.clocks (crvPerf 2 1 (crvStat 1 1
        { d with held := d.held.filter (fun x => x.id != r.id), objQ := d.objQ ++ [o] }))

/-- `SCORES` (R307). -/
def execScores (s : State) : Host.Outcome State Fault Refusal := total (fun _ d => deliverScores d) s

/-- The oldest held object reaches its AGE (R297, R314). -/
def ageExpiry (d : Dev) : Dev :=
  match d.held with
  | [] => d
  | o :: _ =>
    giveUp o.id (reachNs o.handed (d.get R.CRV.AGE.NS) d)

/-- `AGE_EXPIRY` (R297). -/
def execAgeExpiry (s : State) : Host.Outcome State Fault Refusal := total (fun _ d => ageExpiry d) s

/-! ## Slices, self-test and SRAM errors (R315 to R317) -/

/-- Every request is given up with cause FAULT. -/
def faultAll (d : Dev) : Dev :=
  let ids := d.crv.results.map (·.id) ++ d.crv.patches.map (·.obj.id) ++ d.crv.queue.map (·.obj.id)
  let d := { d with crv := { d.crv with results := [], patches := [], queue := [] } }
  showQueue (each (fun id d => unscore id 7 d) ids d)

/-- The RAS unit fences a slice (R316). -/
def fenceSlice (i : Nat) (d : Dev) : Dev :=
  if bit (d.get R.CRV.SLICES.FENCED) i then d
  else
    let d := put R.CRV.SLICES.FENCED (d.get R.CRV.SLICES.FENCED ||| 2 ^ i) d
    let d := put R.CRV.SLICES.ACTIVE (d.get R.CRV.SLICES.ACTIVE - 1) d
    let d := recordRepair 7 15 i 0 (crvPerf 0xa 1 (crvStat 11 1 (event 15 R.CRV.STATUS.SEQ [R.CRV.STATUS.FENCE] d)))
    let run := d.crv.results
    let d := { d with crv := { d.crv with results := [] } }
    let d := each (fun r d => slot 15 0x1300000 1 r.clocks (unscore r.id 7 d)) run d
    if d.get R.CRV.SLICES.ACTIVE ≤ 11 then faultAll (put R.CRV.STATUS.STATE 3 d)
    else put R.CRV.STATUS.STATE 2 d

/-- `CARVER_SELF_TEST` (R315): the slices whose signature disagrees. -/
def execCarverSelfTest (bad : BitVec 16) (s : State) : Host.Outcome State Fault Refusal :=
  total (fun _ d =>
    if !d.crvRuns then d
    else
      let d := slot 15 0x1300000 1 512 (crvPerf 9 1 d)
      let failed := (List.range 16).filter (fun i => bad.getLsbD i && !bit (d.get R.CRV.SLICES.FENCED) i)
      match failed with
      | [] => inc R.CRV.ST_COUNT.COUNT 1 d
      | _ => each fenceSlice failed (rasStat 11 1 (event 15 R.CRV.STATUS.SEQ [R.CRV.STATUS.ST_FAIL] d))) s

/-- An uncorrectable error in the Carver's SRAM (R317). -/
def carverSramUe (w : CrvSram) (d : Dev) : Dev :=
  let d := logEv 0x0f8c 0 3 0 (errEvent 1 (event 15 R.CRV.STATUS.SEQ [R.CRV.STATUS.SRAM_UE] d))
  match w with
  | .weights n =>
    if n < 4 then event 15 R.CRV.STATUS.SEQ [R.CRV.STATUS.NET_ERR] (puts [(R.CRV.NET_CTL.VALID n, 0), (R.CRV.NET_CTL.ERR n, 5)] d) else d
  | .patch i =>
    match d.crv.patches[i]? with
    | some p => showQueue (unscore p.obj.id 7 { d with crv := { d.crv with patches := d.crv.patches.eraseIdx i } })
    | none => d
  | .queue i => showQueue { d with crv := { d.crv with queue := d.crv.queue.eraseIdx i } }

end Sys2Proof.Machine
end

