-- ==== Sys2Proof/Machine/Gouges.lean ====
section
/-!
DEFINITION. The gouges: labelling, closure, component records, sleep and self-test (R252 to R262, R268).
-/

namespace Sys2Proof.Machine

/-! ## The next record (R244, R246, R252) -/

/-- The gouge takes records: fed, spilling or replaying, and not held back. -/
def Dev.gouTakes (d : Dev) (g : Nat) : Bool :=
  let st := d.get (R.GGE.STATUS.STATE g)
  (st == 1 || st == 5 || st == 6) && (d.gouS g).owed.isEmpty

/-- A gouge that is held back by a full output FIFO counts each gouge clock: how many have passed is free, and at least
one (R280). -/
def countHold (g : Nat) (d : Dev) : Dev :=
  if (d.gouS g).owed.isEmpty then d
  else
    let n := max 1 (d.fresh % 2 ^ 32)
    takeFree (perf 14 0x1200000 0xd n (inc (R.MRG.STAT.COUNT 15) n d))

/-- Unread journal records were overwritten: the gouge resumes after the oldest END record held, and its open
components are CAPPED (R246). -/
def skipLost (g : Nat) (m : Mem) (d : Dev) : Dev :=
  match d.servedBy g with
  | none => d
  | some s =>
    let x := d.gouS g
    if x.spill && x.fifo.isEmpty && (decide (x.rd + d.subRecs < (d.stripS s).wr) || decide (x.rd < (d.stripS s).lo)) then
      match d.oldestEnd m s with
      | some i => capOpen g (setGou g { x with rd := i + 1, lastEnd := some i } d)
      | none => capOpen g (setGou g { x with rd := (d.stripS s).wr } d)
    else d

/-- The record that a gouge takes next: its journal count, the record and the journal records it covers; true
when it comes from the journal. -/
def Dev.nextRec (d : Dev) (m : Mem) (g : Nat) : Option (Nat × GRec × Nat × Bool) :=
  let x := d.gouS g
  match x.fifo with
  | (i, r) :: _ => some (i, r, 1, false)
  | [] =>
    match d.servedBy g with
    | none => none
    | some s =>
      if x.spill && decide (x.rd < (d.stripS s).wr) then
        let r := d.readRec m s x.rd
        some (x.rd, r.1, r.2, true)
      else none

/-- The record leaves the FIFO or the journal's read position moves past it. -/
def consume (g n : Nat) (jrn : Bool) (d : Dev) : Dev :=
  let x := d.gouS g
  if jrn then
    let d := ggePerf g 0xb n (meterUser 1 (32 * n) (setGou g { x with rd := x.rd + n } d))
    when x.replay (fun d => rasPerf 5 n (inc R.RAS.MIG_REPLAY.COUNT n d)) d
  else showFifo g (setGou g { x with fifo := x.fifo.tail } d)

/-! ## Output FIFO (R268, R280) -/

/-- Records are written to the output FIFO of 32; the rest waits and holds the gouge. -/
def writeOut (g : Nat) (rs : List CompRec) (d : Dev) : Dev :=
  let x := d.gouS g
  let all := x.owed ++ rs
  let room := 32 - x.out.length
  setGou g { x with out := x.out ++ all.take room, owed := all.drop room } d

/-! ## Runs (R253 to R255) -/

/-- Columns that two runs share. -/
def overlapCols (a la b lb : Nat) : Nat := min (a + la) (b + lb) - max a b

/-- A run of the line above joins a run under the connectivity in force (R253). -/
def joinsAbove (conn : Bool) (a la b lb : Nat) : Bool :=
  if conn then decide (b ≤ a + la ∧ a ≤ b + lb) else decide (b < a + la ∧ a < b + lb)

/-- The open component with a label. -/
def GouS.comp (x : GouS) (l : Nat) : Option Comp := x.comps.find? (fun c => c.label == l)

/-- A component whose sums are taken from an earlier first line. -/
def rebaseComp (c : Comp) (first : Nat) : Comp :=
  let k := (lsnDiff c.first first).toNat
  { c with first, m01 := c.m01 + k * c.area, m02 := c.m02 + 2 * k * c.m01 + k * k * c.area, m11 := c.m11 + k * c.m10 }

/-- The earlier of two lead entries: line, then column or strip. -/
def leadMin (a b : Option (Nat × Nat × Nat)) : Option (Nat × Nat × Nat) :=
  match a, b with
  | none, b => b
  | a, none => a
  | some x, some y => if lsnDiff x.1 y.1 < 0 ∨ (x.1 = y.1 ∧ x.2.1 ≤ y.2.1) then some x else some y

/-- Element-wise combination of two lists of numbers. -/
def zipNat (f : Nat → Nat → Nat) (a b : List Nat) : List Nat := List.zipWith f a b

/-- A merge of component b into the survivor a, which has the earlier or equal first line (R253, R255). -/
def mergeComp (a b : Comp) : Comp :=
  let dt := if a.first = b.first then (if a.dtFirst = 0 then b.dtFirst else a.dtFirst) else a.dtFirst
  let b := rebaseComp b a.first
  { a with
    last := if lsnDiff a.last b.last < 0 then b.last else a.last, dtFirst := dt
    x0 := min a.x0 b.x0, x1 := max a.x1 b.x1, area := a.area + b.area, cls := zipNat (· + ·) a.cls b.cls
    m10 := a.m10 + b.m10, m01 := a.m01 + b.m01, m20 := a.m20 + b.m20, m02 := a.m02 + b.m02, m11 := a.m11 + b.m11
    fsum := zipNat (· + ·) a.fsum b.fsum, fmin := zipNat min a.fmin b.fmin, fmax := zipNat max a.fmax b.fmax
    edgeH := a.edgeH + b.edgeH, edgeV := a.edgeV + b.edgeV, views := a.views ||| b.views
    lead := leadMin a.lead b.lead, flags := a.flags ||| b.flags, keep := min a.keep b.keep
    contacted := a.contacted || b.contacted, rebuilt := a.rebuilt || b.rebuilt, capped := a.capped || b.capped }

/-- The survivor of a merge: earlier first line, then the lower label (R253). -/
def survivor (a b : Comp) : Comp :=
  if lsnDiff a.first b.first < 0 then a
  else if a.first = b.first then (if a.label ≤ b.label then a else b)
  else b

/-- Sum of `start`, `start + 1`, … over `len` columns, and of their squares. -/
def sumCols (start len : Nat) : Nat := len * start + len * (len - 1) / 2
def sumSquares (start len : Nat) : Nat :=
  len * start * start + start * (len * (len - 1)) + (len - 1) * len * (2 * len - 1) / 6

/-- A component takes a run (R255); `above` is the number of its pixels under a pixel of the component. -/
def addRun (c : Comp) (r : RunRec) (above edges : Nat) (rebuilt : Bool) : Comp :=
  let y := (lsnDiff r.lsn c.first).toNat
  let sx := sumCols r.start r.len
  let k := r.cf % 16
  let ext := r.ext.getD ([65535, 65535, 65535, 65535], [0, 0, 0, 0])
  { c with
    last := r.lsn, x0 := min c.x0 r.start, x1 := max c.x1 (r.start + r.len - 1), area := c.area + r.len
    cls := setNth c.cls k (nth 0 c.cls k + r.len)
    m10 := c.m10 + sx, m01 := c.m01 + y * r.len, m20 := c.m20 + sumSquares r.start r.len
    m02 := c.m02 + y * y * r.len, m11 := c.m11 + y * sx
    fsum := zipNat (· + ·) c.fsum (four r.sum), fmin := zipNat min c.fmin ext.1, fmax := zipNat max c.fmax ext.2
    edgeH := c.edgeH + 2, edgeV := c.edgeV + (r.len - above), views := c.views ||| r.chPres
    lead := if bit r.cf 5 then leadMin c.lead (some (r.lsn, r.start, r.leadT)) else c.lead
    flags := c.flags ||| b2n (bit r.cf 4) ||| (2 * b2n (bit r.cf 6)) ||| (4 * b2n (bit r.cf 7)) ||| edges
    rebuilt := c.rebuilt || rebuilt }

/-- Lowest free slot of a gouge (R256). -/
def GouS.freeSlot (x : GouS) : Option Nat := (List.range 512).find? (fun k => !x.comps.any (fun c => c.label % 512 == k))

/-- A loser's label gives way to the survivor's in the runs and contacts of the lines at hand. -/
def relabel (a b : Nat) (x : GouS) : GouS :=
  let f (e : Nat × Nat × Nat) : Nat × Nat × Nat := if e.2.2 = b then (e.1, e.2.1, a) else e
  { x with prev := x.prev.map f, cur := x.cur.map f, closing := x.closing.map (fun e => if e.1 = b then (a, e.2) else e) }

/-- Merges the components with the given labels; answers the survivor's label and the alias records. -/
def mergeAll (s line : Nat) : List Nat → Nat → GouS → GouS × Nat × List CompRec
  | [], a, x => (x, a, [])
  | b :: rest, a, x =>
    match x.comp a, x.comp b with
    | some ca, some cb =>
      let w := survivor ca cb
      let l := if w.label = ca.label then cb else ca
      let merged := mergeComp w l
      let x := { x with comps := (x.comps.filter (fun c => c.label != l.label)).map (fun c => if c.label = w.label then merged else c) }
      let x := relabel w.label l.label x
      let al : List CompRec := if l.contacted then
          [{ kind := .merge, strip := s, epoch := x.epoch, label := w.label, line, other := l.label }] else []
      let r := mergeAll s line rest w.label x
      (r.1, r.2.1, al ++ r.2.2)
    | _, _ => mergeAll s line rest a x

/-- KEEP of the strip follows the gouge's oldest open component (R246). -/
def reportKeep (g s : Nat) (d : Dev) : Dev :=
  let x := d.gouS g
  setKeep s (minBy id (x.comps.map (·.keep))) d

/-- `OPEN` of a gouge. -/
def showOpen (g : Nat) (d : Dev) : Dev :=
  let n := (d.gouS g).comps.length
  peak (R.GGE.OPEN.PEAK g) n (put (R.GGE.OPEN.COUNT g) n d)

/-- A component takes the pixels of its line above that have none of its own below (R255). -/
def closeBelow (prev cur : List (Nat × Nat × Nat)) (follows : Bool) (c : Comp) : Comp :=
  let mine := prev.filter (fun e => e.2.2 == c.label)
  let bare := sumNat (mine.map (fun e =>
    e.2.1 - (if follows then sumNat (cur.map (fun f => overlapCols e.1 e.2.1 f.1 f.2.1)) else 0)))
  { c with edgeV := c.edgeV + bare }

/-- A gouge meets a record of line n. Where the END record of the line before it was lost or dropped, that line's runs are
the ones above now: the pixels over them are closed, and the E of that line, which no record gave, is `e` (R245, R246,
R255). -/
def GouS.atLine (x : GouS) (n e : Nat) : GouS :=
  match x.curLsn with
  | none => { x with curLsn := some n }
  | some k =>
    if k = n then x
    else
      let follows := x.prevLsn == some ((k + 2 ^ 32 - 1) % 2 ^ 32)
      { x with
        comps := x.comps.map (fun c =>
          let c := closeBelow x.prev x.cur follows c
          if c.first = k then { c with dtFirst := e } else c)
        prev := x.cur, prevLsn := some k, cur := [], closing := [], curLsn := some n }

/-- A gouge labels a run (R253, R254). -/
def labelRun (g s idx : Nat) (r : RunRec) (d : Dev) : Dev :=
  let x := (d.gouS g).atLine r.lsn (d.fresh % 2 ^ 64)
  let d := when ((d.gouS g).curLsn.any (· != r.lsn)) takeFree d
  let conn := d.on R.CLS.GG_CTL.CONN
  let above := if x.prevLsn = some ((r.lsn + 2 ^ 32 - 1) % 2 ^ 32) then x.prev.filter (fun e => (x.comp e.2.2).isSome) else []
  let hits := (above.filter (fun e => joinsAbove conn r.start r.len e.1 e.2.1)) ++ (x.cur.filter (fun e => e.1 + e.2.1 == r.start))
  let labels := (hits.map (·.2.2)).eraseDups
  let cut := d.get (R.MRG.STRIP_CUT.LSN s)
  let old := x.replay && decide (lsnDiff r.lsn cut < 0)
  let edges := (if r.start = 0 ∧ 0 < s then 8 else 0) + (if r.start + r.len = d.stripCols s ∧ s + 1 < d.nstrips then 16 else 0)
  let d := slot 13 (ggeBase g) (if x.replay then 1 else 0) 1 d
  match labels with
  | [] =>
    match x.freeSlot with
    | none =>
      let d := setGou g x d
      ggePerf g 0xa 1 (ggeStat g 7 1 (event 13 (R.GGE.STATUS.SEQ g) [R.GGE.STATUS.CC_FULL g] d))
    | some k =>
      let gen := num x.gens k
      let label := k + 512 * gen
      let keep := x.lastEnd.getD idx
      let c : Comp := { label, first := r.lsn, last := r.lsn, x0 := r.start, x1 := r.start + r.len - 1, keep
                        capped := x.partRebuild && old }
      let c := addRun c r 0 edges old
      let x := { x with comps := x.comps ++ [c], gens := setNum k ((gen + 1) % 128) x.gens
                        cur := x.cur ++ [(r.start, r.len, label)]
                        closing := x.closing ++ (if bit edges 3 then [(label, 0)] else []) ++ (if bit edges 4 then [(label, 1)] else []) }
      let d := setGou g x d
      showOpen g (reportKeep g s (ggePerf g 3 1 (ggeStat g 1 1 (ggePerf g 1 1 (ggeStat g 0 1 d)))))
  | a :: rest =>
    let mg := mergeAll s r.lsn rest a x
    let x := mg.1
    let label := mg.2.1
    let over' := sumNat (above.map (fun e => overlapCols r.start r.len e.1 e.2.1))
    let x := { x with comps := x.comps.map (fun c => if c.label = label then addRun c r over' edges old else c)
                      cur := x.cur ++ [(r.start, r.len, label)]
                      closing := x.closing ++ (if bit edges 3 then [(label, 0)] else []) ++ (if bit edges 4 then [(label, 1)] else []) }
    let d := writeOut g mg.2.2 (setGou g x d)
    let d := ggePerf g 8 mg.2.2.length (ggePerf g 4 rest.length (ggeStat g 2 rest.length d))
    showOpen g (reportKeep g s (ggePerf g 1 1 (ggeStat g 0 1 d)))

/-! ## END records (R256 to R259) -/

/-- The residues of R259 hold. -/
def residuesHold (c : Comp) : Bool :=
  let h := (lsnDiff c.last c.first).toNat
  decide (sumNat c.cls = c.area ∧ c.x0 * c.area ≤ c.m10 ∧ c.m10 ≤ c.x1 * c.area ∧ c.m01 ≤ h * c.area
    ∧ c.x0 * c.m10 ≤ c.m20 ∧ c.m20 ≤ c.x1 * c.m10 ∧ c.m02 ≤ h * c.m01
    ∧ c.x0 * c.m01 ≤ c.m11 ∧ c.m11 ≤ c.x1 * c.m01 ∧ c.edgeH % 2 = 0 ∧ c.edgeH ≤ 2 * c.area)

/-- A component at its closure: RESIDUE, and the record it is handed on in (R258, R259, R268). -/
def closeRec (s epoch n e : Nat) (forced : Bool) (c : Comp) : CompRec :=
  let fl := c.flags ||| (if forced then 64 else 0) ||| (if residuesHold c then 0 else 128)
  { kind := if bit fl 3 || bit fl 4 then .part else .closure, strip := s, epoch, label := c.label
    line := if forced then n else (c.last + 1) % 2 ^ 32, e, comp := some { c with flags := fl } }

/-- A fault that `RAS.TEST` injects: handled as a detected one, with INJECTED set until its repair ends (R444, R454). -/
def injectFault (kind idx : Nat) (m : Mem) (d : Dev) : Dev :=
  let d := { d with injecting := true, ras := { d.ras with markInjected := true } }
  let d := match kind with
    | 1 => gougeFault idx none m d
    | 2 => groupFault idx m d
    | 3 => latheFault idx d
    | _ => fenceSlice idx d
  { d with injecting := false, ras := { d.ras with markInjected := !d.ras.migs.isEmpty } }

/-- Injected faults run in the order of their commands, each after the migration before it (R443). -/
def runTests (m : Mem) : List (Nat × Nat) → Dev → Dev
  | [], d => { d with ras := { d.ras with testQ := [] } }
  | (k, i) :: ts, d =>
    if d.ras.migs.isEmpty then runTests m ts (injectFault k i m d)
    else { d with ras := { d.ras with testQ := (k, i) :: ts } }

/-- The migrations that wait: the next one starts, and with no journal all of them (R443, R245). -/
def nextMigs (m : Mem) : List (Nat × Nat) → Dev → Dev
  | [], d => runTests m d.ras.testQ { d with ras := { d.ras with waitQ := [], markInjected := false } }
  | w :: ws, d =>
    if d.ras.migs.isEmpty then
      nextMigs m ws (moveStrip w.1 (d.get (R.GGE.STRIP.STRIP w.1)) (d.gouS w.1).rd w.2 m { d with ras := { d.ras with markInjected := false } })
    else { d with ras := { d.ras with waitQ := w :: ws } }

/-- The end of a strip's spill or replay: the strip is fed again (R430 step 4). -/
def endReplay (g s : Nat) (m : Mem) (d : Dev) : Dev :=
  let was := (d.gouS g).replay
  let d := feedAgain g s d
  if !was then d
  else
    let d := { d with ras := { d.ras with migs := d.ras.migs.filter (· != s) } }
    if d.ras.migs.isEmpty then nextMigs m d.ras.waitQ d else d

/-- A gouge that reads a journal that is no longer kept is fed again once nothing is left to read (R245). -/
def leaveJournal (g : Nat) (m : Mem) (d : Dev) : Dev :=
  match d.servedBy g with
  | some s =>
    if (d.gouS g).spill && (d.gouS g).fifo.isEmpty && !d.jrnOk && decide ((d.stripS s).wr ≤ (d.gouS g).rd) then endReplay g s m d else d
  | none => d

/-- A gouge takes an END record (R256 to R259). -/
def takeEnd (g s idx : Nat) (f : EndRec) (m : Mem) (d : Dev) : Dev :=
  let n := f.lsn
  let x := (d.gouS g).atLine n (d.fresh % 2 ^ 64)
  let d := when ((d.gouS g).curLsn.any (· != n)) takeFree d
  let follows := x.prevLsn == some ((n + 2 ^ 32 - 1) % 2 ^ 32)
  let cap := bit f.lf 4
  let comps := x.comps.map (fun c =>
    let c := closeBelow x.prev x.cur follows c
    let c := if c.first = n then { c with dtFirst := f.e } else c
    let c := if x.closing.any (fun e => e.1 == c.label) then { c with contacted := true } else c
    if cap then { c with flags := c.flags ||| 32 } else c)
  let conts : List CompRec := x.closing.map (fun e =>
    { kind := .contact, strip := s, epoch := x.epoch, label := e.1, line := n, other := e.2 })
  let tooLong (c : Comp) : Bool := decide ((d.maxLines n : Int) ≤ lsnDiff n c.first)
  let closes (c : Comp) : Bool := c.last != n || tooLong c
  let going := ((List.range 512).flatMap (fun k => comps.filter (fun c => c.label % 512 == k && closes c))).map (fun c =>
    if c.last = n then { c with edgeV := c.edgeV + sumNat ((x.cur.filter (fun e => e.2.2 == c.label)).map (·.2.1)) } else c)
  let recs := going.map (fun c => closeRec s x.epoch n f.e (tooLong c) c)
  let bad := going.any (fun c => !residuesHold c)
  let x := { x with comps := comps.filter (fun c => !closes c), prev := x.cur, prevLsn := some n, cur := [], closing := []
                    curLsn := none, lastEnd := some idx }
  let d := writeOut g (conts ++ recs) (setGou g x d)
  let parts := (recs.filter (fun r => r.kind == .part)).length
  let d := ggePerf g 2 1 (ggePerf g 7 conts.length (ggeStat g 5 conts.length d))
  let d := ggePerf g 5 (recs.length - parts) (ggeStat g 3 (recs.length - parts) d)
  let d := ggePerf g 6 parts (ggeStat g 4 parts d)
  let nf := (going.filter tooLong).length
  let d := ggePerf g 9 nf (ggeStat g 6 nf d)
  let lost := (going.filter (·.capped)).length
  let d := when (decide (0 < lost)) (fun d => logRas 0x0605 s 2 n (inc R.RAS.MIG_REPLAY.COUNT lost d)) d
  let d := slot 13 (ggeBase g) (if x.replay then 1 else 0) 1 d
  let d := showOpen g (setDone s n (reportKeep g s d))
  let d := if x.spill && x.fifo.isEmpty && (d.gouS g).rd == (d.stripS s).wr then endReplay g s m d else d
  if bad then gougeFault g none m (errEvent 2 (event 13 (R.GGE.STATUS.SEQ g) [R.GGE.STATUS.RESIDUE g] d)) else d

/-- `RUN_RECORD` (R253): the gouge takes its next record when that is a run record. -/
def execRunRecord (g : Fin 136) (s : State) : Host.Outcome State Fault Refusal :=
  total (fun m d =>
    let g := g.val
    if !d.gouTakes g then countHold g d
    else
      let d := leaveJournal g m (skipLost g m d)
      match d.servedBy g, d.nextRec m g with
      | some st, some (idx, .run r, k, jrn) => labelRun g st idx r (consume g k jrn d)
      | _, _ => d) s

/-- `END_RECORD` (R256): the gouge takes its next record when that is an END record. -/
def execEndRecord (g : Fin 136) (s : State) : Host.Outcome State Fault Refusal :=
  total (fun m d =>
    let g := g.val
    if !d.gouTakes g then countHold g d
    else
      let d := leaveJournal g m (skipLost g m d)
      match d.servedBy g, d.nextRec m g with
      | some st, some (idx, .fin f, k, jrn) => takeEnd g st idx f m (consume g k jrn d)
      | _, _ => d) s

/-! ## Sleep, power gating and self-test (R260 to R262) -/

/-- The block instance was gated for part of the running interval. -/
def markGated (base : Nat) (d : Dev) : Dev := setPerf base { d.perfS base with gated := true } d

/-- `GOUGE_CLOCK_GATE` (R260). -/
def execGougeClockGate (g : Fin 136) (s : State) : Host.Outcome State Fault Refusal :=
  total (fun _ d =>
    let x := d.gouS g.val
    if d.get (R.GGE.STATUS.STATE g.val) = 1 ∧ x.asleep = true ∧ max 1 (d.get R.CLS.GG_CTL.SLEEP_LINES) ≤ x.idle then
      markGated (ggeBase g.val) (ggePerf g.val 0xc 1 (put (R.GGE.STATUS.STATE g.val) 2 d))
    else d) s

/-- `GROUP_POWER_GATE` (R261). -/
def execGroupPowerGate (grp : Fin 8) (s : State) : Host.Outcome State Fault Refusal :=
  total (fun _ d =>
    let gs := groupOf grp.val
    let quiet := gs.all (fun g => (d.servedBy g).isNone
      || (d.get (R.GGE.STATUS.STATE g) == 2 && decide (d.get R.CLS.GG_DOZE.LINES ≤ (d.gouS g).gatedFor)))
    if d.on R.CLS.GG_DOZE.EN && quiet then
      setDomain (3 + grp.val) false <| each (fun g d =>
        if d.get (R.GGE.STATUS.STATE g) = 2 ∨ d.get (R.GGE.STATUS.STATE g) = 4 then
          markGated (ggeBase g) (put (R.GGE.STATUS.STATE g) 3 d) else d) gs d
    else d) s

/-- `GROUP_WAKE` (R261): a record waits for a gouge of the group. -/
def execGroupWake (grp : Fin 8) (s : State) : Host.Outcome State Fault Refusal :=
  total (fun _ d =>
    if d.groupOff grp.val && (groupOf grp.val).any (fun g => !(d.gouS g).fifo.isEmpty || (d.gouS g).spill) then wakeGroup grp.val d else d) s

/-- `GOUGE_SELF_TEST` (R262): the signature of the test strip agrees or not. -/
def execGougeSelfTest (g : Fin 136) (ok : Bool) (s : State) : Host.Outcome State Fault Refusal :=
  total (fun m d =>
    let st := d.get (R.GGE.STATUS.STATE g.val)
    if st = 0 ∨ st = 3 ∨ st = 7 then d
    else
      let d := slot 13 (ggeBase g.val) 1 256 (ggePerf g.val 0xe 1 d)
      if ok then inc (R.GGE.ST_COUNT.COUNT g.val) 1 d
      else gougeFault g.val none m (rasStat 11 1 (event 13 (R.GGE.STATUS.SEQ g.val) [R.GGE.STATUS.ST_FAIL g.val] d))) s

/-- An uncorrectable error in a gouge's component table (R262). -/
def gougeSramUe (g : Nat) (m : Mem) (d : Dev) : Dev :=
  gougeFault g none m (errEvent 1 (event 13 (R.GGE.STATUS.SEQ g) [R.GGE.STATUS.SRAM_UE g] d))

end Sys2Proof.Machine
end

