-- ==== Sys2Proof/Machine/Merge.lean ====
section
/-!
DEFINITION. The merge unit and the object collector: record selection, placement epochs, edge maps, pairing,
sets, and the object record (R268 to R291).
-/

namespace Sys2Proof.Machine

def mrgPerf (code n : Nat) (d : Dev) : Dev := perf 14 0x1200000 code n d
def mrgStat (c n : Nat) (d : Dev) : Dev := inc (R.MRG.STAT.COUNT c) n d
/-- Connectivity as a line count (R272). -/
def Dev.conn (d : Dev) : Nat := d.get R.CLS.GG_CTL.CONN

/-! ## Quantities of a set (R278) -/

/-- A component's quantities on composite columns, from its own first line. -/
def accOf (d : Dev) (r : CompRec) (c : Comp) : Acc :=
  let o : Int := r.strip * d.stripW
  let a : Int := c.area
  { area := c.area, cls := c.cls
    m10 := c.m10 + o * a, m01 := c.m01, m20 := c.m20 + 2 * o * c.m10 + o * o * a, m02 := c.m02, m11 := c.m11 + o * c.m01
    fsum := c.fsum, fmin := c.fmin, fmax := c.fmax, edgeH := c.edgeH, edgeV := c.edgeV
    x0 := r.strip * d.stripW + c.x0, x1 := r.strip * d.stripW + c.x1, views := c.views, flags := c.flags
    lead := c.lead.map (fun l => (l.1, r.strip, l.2.2)), first := c.first, last := c.last, dtFirst := c.dtFirst
    eClose := r.e, closeLine := r.line, members := 1, rebuilt := c.rebuilt, inPart := c.capped }

/-- Sums taken from an earlier first line. -/
def rebaseAcc (a : Acc) (first : Nat) : Acc :=
  let k := lsnDiff a.first first
  { a with first, m01 := a.m01 + k * a.area, m02 := a.m02 + 2 * k * a.m01 + k * k * a.area, m11 := a.m11 + k * a.m10 }

/-- Two parts of a set together. -/
def addAcc (a b : Acc) : Acc :=
  let early := if lsnDiff b.first a.first < 0 then b else a
  let late := if lsnDiff a.closeLine b.closeLine < 0 then b else a
  let x := rebaseAcc a early.first
  let y := rebaseAcc b early.first
  { area := x.area + y.area, cls := zipNat (· + ·) x.cls y.cls
    m10 := x.m10 + y.m10, m01 := x.m01 + y.m01, m20 := x.m20 + y.m20, m02 := x.m02 + y.m02, m11 := x.m11 + y.m11
    fsum := zipNat (· + ·) x.fsum y.fsum, fmin := zipNat min x.fmin y.fmin, fmax := zipNat max x.fmax y.fmax
    edgeH := x.edgeH + y.edgeH, edgeV := x.edgeV + y.edgeV, x0 := min x.x0 y.x0, x1 := max x.x1 y.x1
    views := x.views ||| y.views, flags := x.flags ||| y.flags, lead := leadMin x.lead y.lead
    first := early.first, last := if lsnDiff x.last y.last < 0 then y.last else x.last, dtFirst := early.dtFirst
    eClose := late.eClose, closeLine := late.closeLine, members := x.members + y.members
    rebuilt := x.rebuilt || y.rebuilt, inPart := x.inPart || y.inPart, split := x.split || y.split }

/-! ## The object record (R286 to R288) -/

/-- A saturated value and whether it saturated. -/
def sat (w : Nat) (x : Int) : Nat × Bool := if x < 0 then (0, false) else if (2 ^ w : Nat) ≤ x.toNat then (2 ^ w - 1, true) else (x.toNat, false)

/-- The object of a set's quantities, before its ID (R286 to R288). -/
def objectOf (d : Dev) (a : Acc) (forced : Bool) : ObjRec :=
  let n : Int := max 1 a.area
  let lines := sat 16 (lsnDiff a.last a.first + 1)
  let area := sat 32 a.area
  let perim := sat 32 (a.edgeH + a.edgeV)
  let cls := (List.range 15).map (fun i => sat 16 ((nth 0 a.cls (i + 1) : Nat) : Int))
  let cx := sat 32 (256 * a.m10 / n)
  let cy := sat 32 (256 * a.m01 / n)
  let m20 := sat 32 (256 * (n * a.m20 - a.m10 * a.m10) / (n * n))
  let m02 := sat 32 (256 * (n * a.m02 - a.m01 * a.m01) / (n * n))
  let raw11 := 256 * (n * a.m11 - a.m10 * a.m01) / (n * n)
  let m11 := clampI (-2147483647) 2147483647 raw11
  let en (i : Nat) : Bool := bit (d.get R.CLS.SUM_CTL.EN) i
  let keep (xs : List Nat) : List Nat := (List.range 4).map (fun i => if en i then nth 0 xs i else 0)
  let csat := (List.range 15).foldl (fun m i => if (nth (0, false) cls i).2 then m + 2 ^ (i + 1) else m) 0
  let saturated := lines.2 || area.2 || perim.2 || cls.any (·.2) || cx.2 || cy.2 || m20.2 || m02.2 || m11 != raw11
  let w := max 1 d.stripW
  let lateStrip := (List.range (a.x1 / w + 1 - a.x0 / w)).any (fun i => d.on (R.MRG.STRIP_EPOCH.LATE (a.x0 / w + i)))
  let late := lateStrip || decide ((d.get R.MRG.LATE.NS : Int) * 65536 < dtDiff d.dt a.eClose)
  let epoch := d.get (R.MRG.STRIP_EPOCH.EPOCH (a.x0 / w))
  let flags := bits a.flags 0 1 + 2 * bits a.flags 1 1 + 4 * bits a.flags 2 1 + 8 * bits a.flags 5 1
    + 16 * b2n (bit a.flags 6 || forced) + 32 * bits a.flags 7 1 + 64 * b2n (decide (1 < a.members))
    + 128 * b2n (a.x0 == 0 || a.x1 + 1 == d.width) + 256 * b2n a.rebuilt + 512 * b2n late + 2048 * b2n a.split
    + 4096 * b2n a.lead.isSome + 8192 * b2n saturated
  { id := 0, epoch, flags, first := a.first, lines := lines.1, views := a.views % 65536, dtFirst := a.dtFirst
    leadT := (a.lead.map (·.2.2)).getD 0, x0 := a.x0, x1 := a.x1, area := area.1, perim := perim.1, csat
    cls := cls.map (·.1), cx := cx.1, cy := cy.1, mu20 := m20.1, mu02 := m02.1, mu11 := m11
    fmean := keep (a.fsum.map (· / max 1 a.area)), fmin := keep a.fmin, fmax := keep a.fmax
    full := [lsnDiff a.last a.first + 1, a.area, a.edgeH + a.edgeV, 256 * a.m10 / n,
             256 * (n * a.m20 - a.m10 * a.m10) / (n * n), 256 * (n * a.m02 - a.m01 * a.m01) / (n * n), raw11]
    fullCls := (List.range 15).map (fun i => nth 0 a.cls (i + 1)) }

/-- The collector emits an object with the next ID (R282). -/
def emitObject (a : Acc) (forced merged : Bool) (d : Dev) : Dev :=
  let id := d.get R.MRG.NEXT_ID.ID
  let o := { objectOf d a forced with id }
  let d := put R.MRG.NEXT_ID.ID (id + 1) d
  let d := mrgPerf 2 1 (mrgStat 0 1 d)
  let d := if merged then mrgPerf 3 1 (mrgStat 2 1 d) else mrgStat 1 1 d
  let d := when (bit o.flags 9) (fun d => mrgPerf 0x10 1 (mrgStat 13 1 d)) d
  let d := when (bit o.flags 11) (mrgStat 7 1) d
  handOver o d

/-! ## Nodes and sets (R271 to R277) -/

def Dev.node (d : Dev) (i : Nat) : Option Node := KMap.get (fun _ => none) d.mrg.nodes i
def setNode (i : Nat) (n : Option Node) (d : Dev) : Dev :=
  let d := { d with mrg := { d.mrg with nodes := KMap.put (fun _ => none) d.mrg.nodes i n } }
  let k := d.mrg.nodes.length
  peak R.MRG.NODE_PEAK.PEAK k (put R.MRG.NODES.COUNT k d)

/-- The node of a key (R274). -/
def Dev.nodeOf (d : Dev) (strip epoch label : Nat) : Option Nat :=
  (d.mrg.nodes.find? (fun e => match e.2 with
    | some n => n.strip == strip && n.epoch == epoch && n.label == label
    | none => false)).map (·.1)

/-- The lowest free place of the node table. -/
def freePlace : KMap (Option Node) → Nat → Nat
  | [], k => k
  | e :: es, k => if e.1 = k then freePlace es (k + 1) else k

/-- The node of a key, allocated when it has none; no node when the table is full (R274, R275). -/
def nodeFor (strip epoch label line : Nat) (d : Dev) : Dev × Option Nat :=
  match d.nodeOf strip epoch label with
  | some i => (d, some i)
  | none =>
    if 65536 ≤ d.mrg.nodes.length then
      (mrgPerf 8 1 (event 14 R.MRG.STATUS.SEQ [R.MRG.STATUS.NODE_FULL] d), none)
    else
      let i := freePlace d.mrg.nodes 0
      let s := d.mrg.nextSet
      let n : Node := { strip, epoch, label, set := s, early := line }
      (mrgPerf 7 1 (setNode i (some n) { d with mrg := { d.mrg with nextSet := s + 1 } }), some i)

/-- The members of a set with their node numbers. -/
def Dev.members (d : Dev) (s : Nat) : List (Nat × Node) :=
  d.mrg.nodes.filterMap (fun e => match e.2 with
    | some n => if n.set = s then some (e.1, n) else none
    | none => none)

/-- A set is marked SPLIT. -/
def markSplit (s : Nat) (d : Dev) : Dev :=
  if d.mrg.splitSets.contains s then d else { d with mrg := { d.mrg with splitSets := s :: d.mrg.splitSets } }

/-- A union of the sets of two nodes (R272, R273). -/
def union (i j : Nat) (d : Dev) : Dev :=
  match d.node i, d.node j with
  | some a, some b =>
    if a.set = b.set then d
    else
      let d := { d with mrg := { d.mrg with
          nodes := d.mrg.nodes.map (fun (e : Nat × Option Node) => (e.1, e.2.map (fun (n : Node) => if n.set = b.set then { n with set := a.set } else n))) } }
      if d.mrg.splitSets.contains b.set then
        markSplit a.set { d with mrg := { d.mrg with splitSets := d.mrg.splitSets.filter (· != b.set) } }
      else d
  | _, _ => d

/-- A node becomes closed and empty (R273, R285). -/
def closeEmpty (i : Nat) (d : Dev) : Dev :=
  match d.node i with
  | some n => setNode i (some { n with isOpen := false, empty := true }) d
  | none => d

/-- A node's earliest line takes in another line (R274). -/
def nodeEarly (i line : Nat) (d : Dev) : Dev :=
  match d.node i with
  | some n => if lsnDiff line n.early < 0 then setNode i (some { n with early := line }) d else d
  | none => d

/-- The node that counts for an edge entry: the survivor of the aliases it lost to. -/
def Dev.resolve (d : Dev) : Nat → Nat → Nat
  | 0, i => i
  | k + 1, i =>
    match d.node i with
    | some n => match n.into with
      | some j => d.resolve k j
      | none => i
    | none => i

/-! ## The selector (R279, R280, R283, R284) -/

/-- Where a head of the selector stands: a gouge's output FIFO, or the merge output FIFO. -/
inductive Source where
  | gouge (g : Nat)
  | merged
deriving DecidableEq, Repr

/-- The eligible heads with key line and source rank, but that of a FIFO that gave its record in this clock (R279). -/
def Dev.heads (d : Dev) (but : Option Source) : List (Nat × Nat × Source) :=
  let room := decide (d.mrg.inQ.length < 1024)
  let gs := d.gou.filterMap (fun e => match e.2.out with
    | r :: _ => if r.kind == .closure || room then some (r.line, r.strip, Source.gouge e.1) else none
    | [] => none)
  let all := match d.mrg.outQ with
    | m :: _ => gs ++ [((m.acc.last + 1) % 2 ^ 32, 136, Source.merged)]
    | [] => gs
  all.filter (fun h => but != some h.2.2)

/-- The first of a list of heads: lowest key line, then lowest rank. -/
def firstHead : List (Nat × Nat × Source) → Option (Nat × Nat × Source)
  | [] => none
  | h :: hs =>
    match firstHead hs with
    | none => some h
    | some k => if lsnDiff h.1 k.1 < 0 ∨ (h.1 = k.1 ∧ h.2.1 ≤ k.2.1) then some h else some k

/-- The head of a gouge's output FIFO leaves; what the gouge owed is written (R280). -/
def popOut (g : Nat) (d : Dev) : Dev :=
  let x := d.gouS g
  let d := countHold g d
  writeOut g [] (setGou g { d.gouS g with out := x.out.tail } d)

/-- How a record is judged by its epoch and line (R283). -/
inductive Judged where
  | taken | oldDrop | newDrop
deriving DecidableEq, Repr

/-- A record of strip s with epoch e and its line (R283). A strip that never moved has no cut-over. -/
def judge (d : Dev) (r : CompRec) : Judged :=
  let es := d.get (R.MRG.STRIP_EPOCH.EPOCH r.strip)
  let before := decide (lsnDiff r.line (d.get (R.MRG.STRIP_CUT.LSN r.strip)) < 0)
  let whole := r.kind == .closure || r.kind == .part
  if r.epoch = es then
    if whole && es != 0 && before then .newDrop else .taken
  else if (r.epoch + 1) % 65536 = es then
    if before then .taken else .oldDrop
  else .oldDrop

/-- A record that fails its CRC check (R269, R284). -/
def crcFail (g : Nat) (r : CompRec) (m : Mem) (d : Dev) : Dev :=
  let d := slot 14 0x1200000 1 1 (mrgPerf 0xc 1 (mrgStat 12 1 (event 14 R.MRG.STATUS.SEQ [R.MRG.STATUS.CRC_ERR] d)))
  let last := KMap.get (fun _ => (none : Option Nat)) d.mrg.lastTaken r.strip
  let same := (r.kind == .closure || r.kind == .part) && last == some r.line
  let d := when same (fun d => logEv 0x0e8a r.strip 2 r.line (mrgStat 11 1 (event 14 R.MRG.STATUS.SEQ [R.MRG.STATUS.LOST] d))) d
  gougeFault g (last.map (· + 1)) m d

/-- A record dropped by its epoch (R283, R285, R443). Of a new-epoch partial record only the close of its node goes on,
in its turn behind the node's contacts. -/
def epochDrop (r : CompRec) (j : Judged) (d : Dev) : Dev :=
  let d := slot 14 0x1200000 1 1 (mrgPerf 0xa 1 (mrgStat (if j = .newDrop then 9 else 8) 1 d))
  let es := d.get (R.MRG.STRIP_EPOCH.EPOCH r.strip)
  let older := j == .oldDrop && (r.epoch + 1) % 65536 != es
  let d := when older (inc R.RAS.MIG_REPLAY.COUNT 1) d
  if j = .newDrop ∧ r.kind = .part then { d with mrg := { d.mrg with inQ := d.mrg.inQ ++ [{ r with comp := none }] } }
  else d

/-- A record that the collector keeps. -/
def keepRec (r : CompRec) (d : Dev) : Dev :=
  let d := slot 14 0x1200000 0 1 d
  let d := if r.kind == .closure || r.kind == .part then
      { d with mrg := { d.mrg with lastTaken := KMap.put (fun _ => none) d.mrg.lastTaken r.strip (some r.line) } }
    else d
  match r.kind, r.comp with
  | .closure, some c => emitObject (accOf d r c) false false d
  | _, _ => { d with mrg := { d.mrg with inQ := d.mrg.inQ ++ [r] } }

/-! ## Contacts, aliases and partial records (R271, R273, R274, R278) -/

/-- Key of an edge map entry. -/
def edgeKey (strip side line : Nat) : Nat := (2 * strip + side) * 4096 + line % 4096

/-- The edge entry of a strip side at a line. -/
def Dev.edgeAt (d : Dev) (strip side line : Nat) : Option EdgeEnt :=
  match KMap.get (fun _ => (none : Option EdgeEnt)) d.mrg.edge (edgeKey strip side line) with
  | some e => if e.line = line then some e else none
  | none => none

/-- The boundary of a strip side, if it exists. -/
def Dev.boundaryOf (d : Dev) (strip side : Nat) : Option Nat :=
  if side = 1 then (if strip + 1 < d.nstrips then some strip else none) else if strip = 0 then none else some (strip - 1)

/-- The boundary is paired for a line (R272). -/
def Dev.pairedTo (d : Dev) (b line : Nat) : Bool :=
  match KMap.get (fun _ => (none : Option Nat)) d.mrg.paired b with
  | some p => decide (0 ≤ lsnDiff p line)
  | none => false

/-- The set of the entry at a place is marked SPLIT. -/
def splitAt (e : Option EdgeEnt) (d : Dev) : Dev :=
  match e with
  | some e => match d.node e.node with
    | some n => markSplit n.set d
    | none => d
  | none => d

/-- An accepted contact goes to the edge map, or serves adoption (R271, R275, R285). -/
def contactIn (r : CompRec) (d : Dev) : Dev :=
  let d := mrgPerf 4 1 (mrgStat 4 1 d)
  let side := r.other
  let nf := nodeFor r.strip r.epoch r.label r.line d
  let es := d.get (R.MRG.STRIP_EPOCH.EPOCH r.strip)
  let cut := d.get (R.MRG.STRIP_CUT.LSN r.strip)
  let adopts := decide (r.epoch = es ∧ es ≠ 0 ∧ lsnDiff r.line cut < 0)
  match nf.2 with
  | none =>
    if adopts then
      splitAt ((nf.1.edgeAt r.strip side r.line).filter (fun e => (e.epoch + 1) % 65536 == es)) nf.1
    else
      let far := if side = 1 then (r.strip + 1, 0) else (r.strip - 1, 1)
      let d := splitAt (nf.1.edgeAt far.1 far.2 r.line) nf.1
      let d := if d.conn = 1 then
          splitAt (d.edgeAt far.1 far.2 ((r.line + 1) % 2 ^ 32)) (splitAt (d.edgeAt far.1 far.2 ((r.line + 2 ^ 32 - 1) % 2 ^ 32)) d)
        else d
      { d with mrg := { d.mrg with dropped := (r.strip, side, r.line) :: d.mrg.dropped } }
  | some i =>
    let d := nodeEarly i r.line nf.1
    if adopts then
      if 4096 < lsnDiff cut r.line then splitAt (some { line := r.line, epoch := r.epoch, node := i }) d
      else
        match d.edgeAt r.strip side r.line with
        | some e => if (e.epoch + 1) % 65536 = es then union i e.node d else d
        | none => d
    else
      let k := edgeKey r.strip side r.line
      let old := KMap.get (fun _ => (none : Option EdgeEnt)) d.mrg.edge k
      let over' := match old, d.boundaryOf r.strip side with
        | some e, some b => e.line != r.line && !d.pairedTo b e.line
        | _, _ => false
      let d := when over' (fun d => splitAt old (mrgPerf 9 1 (event 14 R.MRG.STATUS.SEQ [R.MRG.STATUS.EDGE_OVR] d))) d
      { d with mrg := { d.mrg with edge := KMap.put (fun _ => none) d.mrg.edge k (some { line := r.line, epoch := r.epoch, node := i }) } }

/-- An accepted alias unions the nodes of its labels (R273). -/
def aliasIn (r : CompRec) (d : Dev) : Dev :=
  let d := mrgPerf 6 1 (mrgStat 5 1 d)
  let a := nodeFor r.strip r.epoch r.label r.line d
  let b := nodeFor r.strip r.epoch r.other r.line a.1
  match a.2, b.2 with
  | some i, some j =>
    let d := union i j (nodeEarly i r.line b.1)
    match d.node i, d.node j with
    | some x, some y =>
      setNode j (some { y with isOpen := false, empty := true, into := some i, edgeSub := 0 })
        (setNode i (some { x with edgeSub := x.edgeSub + y.edgeSub, early := if lsnDiff y.early x.early < 0 then y.early else x.early }) d)
    | _, _ => d
  | none, some j => closeEmpty j b.1
  | _, none => b.1

/-- An accepted partial record joins its node (R274, R275, R278). -/
def partialIn (r : CompRec) (c : Comp) (d : Dev) : Dev :=
  let d := mrgStat 3 1 d
  let a := accOf d r c
  let nf := nodeFor r.strip r.epoch r.label c.first d
  match nf.2 with
  | none => emitObject { a with split := true } false false nf.1
  | some i =>
    match nf.1.node i with
    | some n => setNode i (some { n with isOpen := false, acc := some a, early := c.first }) nf.1
    | none => nf.1

/-- The head of the merge input FIFO when it is of a kind. -/
def takeIn (k : CompKind) (f : CompRec → Dev → Dev) (d : Dev) : Dev :=
  match d.mrg.inQ with
  | [] => d
  | r :: rest => if r.kind = k then f r { d with mrg := { d.mrg with inQ := rest } } else d

/-! ## Pairing and completion (R272, R276, R277) -/

/-- A contact record of strips b and b + 1 for a line up to `m` still waits (R272). -/
def Dev.contactWaits (d : Dev) (b m : Nat) : Bool :=
  let w (r : CompRec) : Bool := r.kind == .contact && (r.strip == b || r.strip == b + 1) && decide (0 ≤ lsnDiff m r.line)
  d.mrg.inQ.any w || d.gou.any (fun e => e.2.out.any w || e.2.owed.any w)

/-- The strip is done with a line. -/
def Dev.doneTo (d : Dev) (s m : Nat) : Bool :=
  match KMap.get (fun _ => (none : Option Nat)) d.mrg.done s with
  | some p => decide (0 ≤ lsnDiff p m)
  | none => false

/-- One pair of edge entries is joined (R272); a same-line pair takes 1 from the EDGE_H of each member. -/
def joinPair (a b : Option EdgeEnt) (sameLine : Bool) (d : Dev) : Dev :=
  match a, b with
  | some x, some y =>
    let d := union x.node y.node (mrgPerf 5 1 (mrgStat 6 1 d))
    if sameLine then
      let cut (e : EdgeEnt) (d : Dev) : Dev :=
        let i := d.resolve 64 e.node
        match d.node i with
        | some n => setNode i (some { n with edgeSub := n.edgeSub + 1 }) d
        | none => d
      cut y (cut x d)
    else d
  | _, _ => d

/-- A contact of one side that was dropped for want of a node would have joined the entry of the other: its set is
SPLIT (R275). -/
def splitDropped (x y : Nat × Nat × Nat) (d : Dev) : Dev :=
  if d.mrg.dropped.contains x then splitAt (d.edgeAt y.1 y.2.1 y.2.2) d else d

/-- The entries of a boundary that meet at line m, and so the joins that dropped contacts lost there (R272, R275). -/
def lostJoins (b m : Nat) (d : Dev) : Dev :=
  if d.mrg.dropped.isEmpty then d
  else
    let m1 := (m + 1) % 2 ^ 32
    let pairs : List ((Nat × Nat × Nat) × (Nat × Nat × Nat)) :=
      ((b, 1, m), (b + 1, 0, m)) :: (if d.conn = 1 then [((b, 1, m), (b + 1, 0, m1)), ((b, 1, m1), (b + 1, 0, m))] else [])
    let d := each (fun p d => splitDropped p.2 p.1 (splitDropped p.1 p.2 d)) pairs d
    { d with mrg := { d.mrg with dropped := d.mrg.dropped.filter (fun x =>
        !((x.1 == b && x.2.1 == 1 || x.1 == b + 1 && x.2.1 == 0) && decide (lsnDiff x.2.2 m ≤ 0))) } }

/-- Boundaries on either side of the members' strips. -/
def Dev.setBoundaries (d : Dev) (ms : List (Nat × Node)) : List Nat :=
  (ms.flatMap (fun e => (d.boundaryOf e.2.strip 0).toList ++ (d.boundaryOf e.2.strip 1).toList)).eraseDups

/-- LAST_MAX of a set: the latest LAST of its accepted partial records (R274). -/
def lastMax (ms : List (Nat × Node)) : Option Nat :=
  ms.foldl (fun r e => match e.2.acc, r with
    | some a, some l => some (if lsnDiff l a.last < 0 then a.last else l)
    | some a, none => some a.last
    | none, r => r) none

/-- FIRST_SET of a set (R274). -/
def firstSet (ms : List (Nat × Node)) : Option Nat :=
  ms.foldl (fun r e => if e.2.empty then r else match r with
    | some l => some (if lsnDiff e.2.early l < 0 then e.2.early else l)
    | none => some e.2.early) none

/-- The quantities of some members of a set, with their EDGE_H subtractions. -/
def combine (split : Bool) (ms : List (Nat × Node)) : Option Acc :=
  let sub := sumNat (ms.map (fun e => e.2.edgeSub))
  let r := ms.foldl (fun r e => match e.2.acc, r with
    | some a, some b => some (addAcc b a)
    | some a, none => some a
    | none, r => r) (none : Option Acc)
  r.map (fun a => { a with edgeH := a.edgeH - (sub : Int), split })

/-- A node is freed. Its edge entries name the node that it lost to, if any, and else no node: 65,536 is the number of
none. -/
def freeNode (e : Nat × Node) (d : Dev) : Dev :=
  let k := e.2.into.getD 65536
  let edge := d.mrg.edge.map (fun (x : Nat × Option EdgeEnt) => (x.1, x.2.map (fun (y : EdgeEnt) => if y.node = e.1 then { y with node := k } else y)))
  setNode e.1 none { d with mrg := { d.mrg with edge := edge } }

/-- Nodes are freed. -/
def freeNodes (ms : List (Nat × Node)) (d : Dev) : Dev := each freeNode ms d

/-- A number put into an ascending list. -/
def insertAsc (x : Nat) : List Nat → List Nat
  | [] => [x]
  | y :: ys => if x ≤ y then x :: y :: ys else y :: insertAsc x ys

/-- The numbers of the sets in the table, lowest first. -/
def Dev.sets (d : Dev) : List Nat :=
  ((d.mrg.nodes.filterMap (fun e => e.2.map (·.set))).eraseDups).foldr insertAsc []

/-- A set completes (R276). -/
def Dev.completes (d : Dev) (s : Nat) : Bool :=
  let ms := d.members s
  ms.all (fun e => !e.2.isOpen) &&
    (match lastMax ms with
     | some l => (d.setBoundaries ms).all (fun b => d.pairedTo b l)
     | none => true)

/-- A complete set enters the merge output FIFO, or is discarded when all its members are empty (R276). -/
def completeSet (s : Nat) (d : Dev) : Dev :=
  let ms := d.members s
  let sp := d.mrg.splitSets.contains s
  let d := freeNodes ms { d with mrg := { d.mrg with splitSets := d.mrg.splitSets.filter (· != s) } }
  match combine sp ms with
  | some a => { d with mrg := { d.mrg with outQ := d.mrg.outQ ++ [{ acc := a, forced := false }] } }
  | none => d

/-- `SET_COMPLETE` (R276): the first complete set, while the merge output FIFO has room. -/
def execSetComplete (s : State) : Host.Outcome State Fault Refusal :=
  total (fun _ d =>
    if d.mrg.outQ.length < 256 then
      match d.sets.find? d.completes with
      | some k => completeSet k d
      | none => d
    else d) s

/-- A set with open members that a boundary has passed by MAX_LINES is forced, once the merge output FIFO has room
(R276, R277). -/
def forceSet (s : Nat) (d : Dev) : Dev :=
  let ms := d.members s
  let late := match firstSet ms with
    | some f => (d.setBoundaries ms).any (fun b => match KMap.get (fun _ => (none : Option Nat)) d.mrg.paired b with
        | some p => decide ((d.get R.MRG.MAX_LINES.LINES : Int) ≤ lsnDiff p f)
        | none => false)
    | none => false
  let closed := ms.filter (fun e => !e.2.isOpen)
  if late && ms.any (fun e => e.2.isOpen) && decide (d.mrg.outQ.length < 256) then
    match combine (d.mrg.splitSets.contains s) closed with
    | some a =>
      let d := freeNodes closed d
      mrgPerf 0xf 1 (mrgStat 14 1 { d with mrg := { d.mrg with outQ := d.mrg.outQ ++ [{ acc := a, forced := true }] } })
    | none => d
  else d

/-- Every set that R277 forces. -/
def forceSets (d : Dev) : Dev := each forceSet d.sets d

/-! ## The selector at work (R279) -/

/-- The record of one head is taken: a merged record becomes an object; one of a gouge is checked and judged (R269,
R283). -/
def takeHead (crcOk : Bool) (src : Source) (m : Mem) (d : Dev) : Dev :=
  match src with
  | .merged =>
    match d.mrg.outQ with
    | [] => d
    | x :: rest =>
      forceSets (emitObject x.acc x.forced true (slot 14 0x1200000 0 1 { d with mrg := { d.mrg with outQ := rest } }))
  | .gouge g =>
    match (d.gouS g).out with
    | [] => d
    | r :: _ =>
      let d := mrgPerf 1 1 (popOut g d)
      if !crcOk then crcFail g r m d
      else
        match judge d r with
        | .taken => keepRec r d
        | j => epochDrop r j d

/-- One clock of the selector: up to two records, of different FIFOs (R279). -/
def selectorClock (crcOk crcOk2 : Bool) (m : Mem) (d : Dev) : Dev :=
  match firstHead (d.heads none) with
  | none => d
  | some h =>
    let d := takeHead crcOk h.2.2 m d
    match firstHead (d.heads (some h.2.2)) with
    | none => d
    | some k => takeHead crcOk2 k.2.2 m d

/-- `COMPONENT_RECORD` (R279): a clock of the selector; `crcs` are the outcomes of the CRC checks of the records it
takes. -/
def execComponentRecord (crcs : RecCrcs) (s : State) : Host.Outcome State Fault Refusal :=
  total (fun m d => if d.on R.MRG.CTL.EN then selectorClock crcs.first crcs.second m d else d) s

/-- `CONTACT` (R271). -/
def execContact (s : State) : Host.Outcome State Fault Refusal := total (fun _ d => takeIn .contact contactIn d) s
/-- `ALIAS` (R273). -/
def execAliasRecord (s : State) : Host.Outcome State Fault Refusal := total (fun _ d => takeIn .merge aliasIn d) s
/-- `PARTIAL` (R278); without quantities it only closes its node (R285). -/
def execPartialRecord (s : State) : Host.Outcome State Fault Refusal :=
  total (fun _ d => takeIn .part (fun r d => match r.comp with
    | some c => forceSets (partialIn r c d)
    | none => match d.nodeOf r.strip r.epoch r.label with
      | some i => closeEmpty i d
      | none => d) d) s

/-- The next line of a boundary is paired (R272). -/
def pairLine (b : Nat) (d : Dev) : Dev :=
  let m := match KMap.get (fun _ => (none : Option Nat)) d.mrg.paired b with
    | some p => (p + 1) % 2 ^ 32
    | none => 0
  let m1 := (m + 1) % 2 ^ 32
  let need := (m + d.conn) % 2 ^ 32
  if b + 1 < d.nstrips && d.doneTo b need && d.doneTo (b + 1) need && !d.contactWaits b need then
    let d := joinPair (d.edgeAt b 1 m) (d.edgeAt (b + 1) 0 m) true (lostJoins b m d)
    let d := if d.conn = 1 then
        joinPair (d.edgeAt (b + 1) 0 m) (d.edgeAt b 1 m1) false (joinPair (d.edgeAt b 1 m) (d.edgeAt (b + 1) 0 m1) false d)
      else d
    let d := put (R.MRG.STRIP_PAIRED.LSN b) m { d with mrg := { d.mrg with paired := KMap.put (fun _ => none) d.mrg.paired b (some m) } }
    forceSets d
  else d

/-- `PAIRING` (R272). -/
def execPairing (b : Fin 136) (s : State) : Host.Outcome State Fault Refusal := total (fun _ d => pairLine b.val d) s

/-- `ORPHANS` (R285): no old-epoch record of the strip waits any more. -/
def execOrphans (strip : Fin 136) (s : State) : Host.Outcome State Fault Refusal :=
  total (fun _ d =>
    let es := d.get (R.MRG.STRIP_EPOCH.EPOCH strip.val)
    let old (r : CompRec) : Bool := r.strip == strip.val && (r.epoch + 1) % 65536 == es
    if d.mrg.inQ.any old || d.gou.any (fun e => e.2.out.any old || e.2.owed.any old) then d
    else
      let ids := d.mrg.nodes.filterMap (fun e => match e.2 with
        | some n => if n.strip = strip.val ∧ n.isOpen = true ∧ (n.epoch + 1) % 65536 = es then some e.1 else none
        | none => none)
      mrgPerf 0xb ids.length (mrgStat 10 ids.length (each closeEmpty ids d))) s

/-- A record of a FIFO is lost (R291). -/
def fifoLost (d : Dev) : Dev := errEvent 1 (mrgStat 11 1 (event 14 R.MRG.STATUS.SEQ [R.MRG.STATUS.LOST] d))

/-- An uncorrectable error of the merge unit's SRAM: in the node table or the edge map, or in a FIFO (R291). -/
def mergeSramUe (w : MrgSram) (d : Dev) : Dev :=
  match w with
  | .set k => markSplit k (logEv 0x0e8c 0 3 k (errEvent 1 (event 14 R.MRG.STATUS.SEQ [R.MRG.STATUS.SRAM_UE] d)))
  | .input i =>
    if i < d.mrg.inQ.length then fifoLost { d with mrg := { d.mrg with inQ := d.mrg.inQ.eraseIdx i } } else d
  | .output i =>
    if i < d.mrg.outQ.length then fifoLost { d with mrg := { d.mrg with outQ := d.mrg.outQ.eraseIdx i } } else d
  | .gouge g i =>
    let x := d.gouS g.val
    if i < x.out.length then fifoLost (writeOut g.val [] (setGou g.val { x with out := x.out.eraseIdx i } d)) else d

end Sys2Proof.Machine
end

