-- ==== Sys2Proof/Machine/Ranges.lean ====
section
/-!
DEFINITION. The ranges and reserved codes that the register tables state for their fields without a clamp or another
effect (R34).
-/

namespace Sys2Proof.Machine

/-- The values that the table of a block states for the field at bit `lo` of the register at offset `o` of its instance: lowest
and highest; none where it states no range, or a clamp, or an effect of every value. -/
def statedRange (code o lo : Nat) : Option (Nat × Nat) :=
  let all : List (Nat × Nat × Nat × Nat) := match code with
    | 0 => if 0x1000 ≤ o ∧ o < 0x1400 then [(o, 28, 0, 4)]
        else if 0x2000 ≤ o ∧ o < 0x2200 then [(o, 52, 0, 7)]
        else if 0x3000 ≤ o ∧ o < 0x30c0 then [(o, 0, 0, 2), (o, 6, 0, 2), (o, 8, 0, 2)]
        else [(0x200, 0, 0, 2), (0x200, 5, 0, 2), (0x200, 12, 0, 10)]
    | 3 => [(0xa0, 0, 0, 2)]
    | 5 => [(0, 8, 1, 31), (0, 16, 1, 1023)]
    | 6 => [(0x10, 8, 1, 4)]
    | 7 => [(0x40, 0, 1, 1000), (0x700, 0, 16, 65536)]
    | 8 => [(0, 12, 0, 3), (0x30, 4, 0, 3), (0x30, 8, 0, 3), (0x48, 0, 0, 4)]
    | 9 => if 0x20 ≤ o ∧ o < 0x40 then [(o / 8 * 8, 8, 0x10, 0x14), (o / 8 * 8, 16, 1, 16384)]
        else [(0, 1, 0, 2), (0x10, 0, 16, 65536)]
    | 10 => if o = 0x10 then [(0x10, 0, 0, 2)]
        else if 0x100 ≤ o ∧ o < 0x280 then
          (match o % 0x80 with | 0 => [(o, 4, 0, 11)] | 4 => [(o, 16, 1, 16384)] | _ => [])
        else []
    | 11 => [(4, 0, 1, 131072), (8, 0, 5000, 1048575), (0x20, 0, 0, 2), (0x24, 0, 16, 65536), (0x40, 2, 0, 47), (0x40, 8, 1, 255), (0x40, 16, 1, 255)]
    | 12 => [(0x10, 0, 1, 16), (0x1c, 8, 1, 255), (0x20, 0, 16, 65535), (0x28, 16, 2, 65535)]
    | 14 => [(4, 0, 16, 65535)]
    | 16 => if 0x400 ≤ o ∧ o < 0x600 then (if o % 0x20 = 0 then [(o, 0, 0, 2)] else []) else [(0x38, 16, 1, 64), (0x58, 16, 0, 4096)]
    | 17 => [(0, 8, 2, 32), (4, 16, 64, 1518)]
    | 18 => [(0, 0, 0, 8), (0, 8, 1, 4), (4, 0, 0, 8), (0x10, 0, 1, 255), (0x1c, 0, 16, 4095), (0x20, 0, 1, 255)]
    | 21 => [(0, 2, 0, 2)]
    | 19 => if 0x1000 ≤ o ∧ o % 0x100 = 0 then [(o, 1, 0, 2)] else []
    | _ => []
  (all.find? (fun e => e.1 == o && e.2.1 == lo)).map (fun e => e.2.2)

/-- A value is a code or a number that the field's table describes. DEDUCED (log entry 6): a field's reset value is no
setting that the host made, whatever the range. `TOP.PROFILE.REC_TAP` and `CAL.CMD.TARGET` have a gap instead of a range. -/
def settingOk (code o lo reset v : Nat) : Bool :=
  v == reset ||
    (match statedRange code o lo with
     | some r => decide (r.1 ≤ v ∧ v ≤ r.2)
     | none =>
       if code = 15 ∧ 0x200 ≤ o ∧ o < 0x280 ∧ o % 0x20 = 4 ∧ lo = 0 then v % 64 == 0
       else if code = 0 ∧ o = 0x200 ∧ lo = 9 then v != 6
       else if code = 5 ∧ o = 8 ∧ lo = 0 then decide (v ≤ 42)
       else if code = 10 ∧ 0x100 ≤ o ∧ o < 0x280 ∧ o % 0x80 = 0x2c ∧ lo = 0 then (List.range 4).all (fun q => bits v (2 * q) 2 != 3)
       else true)

end Sys2Proof.Machine
end

