-- ==== Sys2Proof/Machine/Real.lean ====
section
/-!
DEFINITION. The non-negative part of IEEE 754 binary64 that the ballistic fire time uses (R333): every operation
is exact and then rounded to nearest even at 53 bits. No value of R333 comes near the ends of the exponent range.
-/

namespace Sys2Proof.Machine

/-- A non-negative binary64 value: `m * 2^e`, infinity, or no number. -/
inductive F64 where
  | fin (m : Nat) (e : Int)
  | inf
  | nan
deriving DecidableEq, Repr

/-- `num / den` rounded to nearest, ties to even, for a natural quotient. -/
def roundDiv (num den : Nat) : Nat :=
  let q := num / den
  let r := 2 * (num % den)
  if den < r ∨ (den = r ∧ q % 2 = 1) then q + 1 else q

/-- `num / den * 2^e` rounded to 53 bits; `den` is not 0. -/
def F64.ofRatio (num den : Nat) (e : Int) : F64 :=
  if num = 0 then .fin 0 0
  else
    -- first a quotient of 53 or 54 bits, then one of 53
    let s : Int := (53 : Int) - (Nat.log2 num : Int) + (Nat.log2 den : Int)
    let scaled (t : Int) : Nat × Nat := if 0 ≤ t then (num * 2 ^ t.toNat, den) else (num, den * 2 ^ (-t).toNat)
    let a := scaled s
    let t : Int := if 2 ^ 53 ≤ a.1 / a.2 then s - 1 else s
    let b := scaled t
    .fin (roundDiv b.1 b.2) (e - t)

/-- A natural number. -/
def F64.ofNat (n : Nat) : F64 := .ofRatio n 1 0

/-- Sum. -/
def F64.add : F64 → F64 → F64
  | .nan, _ | _, .nan => .nan
  | .inf, _ | _, .inf => .inf
  | .fin m e, .fin n f =>
    let g := min e f
    .ofRatio (m * 2 ^ (e - g).toNat + n * 2 ^ (f - g).toNat) 1 g

/-- Difference of a value and one that is not larger. -/
def F64.sub : F64 → F64 → F64
  | .nan, _ | _, .nan => .nan
  | .inf, .inf => .nan
  | .inf, _ => .inf
  | _, .inf => .nan
  | .fin m e, .fin n f =>
    let g := min e f
    .ofRatio (m * 2 ^ (e - g).toNat - n * 2 ^ (f - g).toNat) 1 g

/-- Product. -/
def F64.mul : F64 → F64 → F64
  | .nan, _ | _, .nan => .nan
  | .inf, .fin 0 _ | .fin 0 _, .inf => .nan
  | .inf, _ | _, .inf => .inf
  | .fin m e, .fin n f => .ofRatio (m * n) 1 (e + f)

/-- Quotient. -/
def F64.div : F64 → F64 → F64
  | .nan, _ | _, .nan => .nan
  | .inf, .inf => .nan
  | .inf, _ => .inf
  | .fin _ _, .inf => .fin 0 0
  | .fin 0 _, .fin 0 _ => .nan
  | .fin _ _, .fin 0 _ => .inf
  | .fin m e, .fin n f => .ofRatio m n (e - f)

/-- Square root: an integer root of at least 60 bits and a sticky bit, rounded once. -/
def F64.sqrt : F64 → F64
  | .fin 0 _ => .fin 0 0
  | .fin m e =>
    let k : Nat := 128 + (e % 2).toNat
    let x := m * 2 ^ k
    let r := isqrt 100 x 0
    .ofRatio (2 * r + (if r * r = x then 0 else 1)) 1 ((e - k) / 2 - 1)
  | x => x

/-- Rounded to the nearest integer, ties away from zero; none for infinity and no number. -/
def F64.round : F64 → Option Nat
  | .fin m e => some (if 0 ≤ e then m * 2 ^ e.toNat else (m + 2 ^ ((-e).toNat - 1)) / 2 ^ (-e).toNat)
  | _ => none

end Sys2Proof.Machine
end

