-- ==== Sys2Proof/Machine/Verdict.lean ====
section
/-!
DEFINITION. The verdict unit: rules, defect tags, valve sets, fire times, the entry of fire commands, the object
and tag rings, and the FIRE_OUT pins (R321 to R338, R351 to R353).
-/

namespace Sys2Proof.Machine

def vrdPerf (code n : Nat) (d : Dev) : Dev := perf 0x10 0x1800000 code n d
def vrdStat (c n : Nat) (d : Dev) : Dev := inc (R.VRD.STAT.COUNT c) n d
/-- Base address of a segment's instance. -/
def t1sBase (k : Nat) : Nat := 0x1a00000 + 0x20000 * k
def t1sPerf (k code n : Nat) (d : Dev) : Dev := perf 0x11 (t1sBase k) code n d
def t1sStat (k c n : Nat) (d : Dev) : Dev := inc (R.T1S.STAT.COUNT k c) n d
def Dev.segS (d : Dev) (k : Nat) : SegS := KMap.get (fun _ => {}) d.vrd.seg k
def setSeg (k : Nat) (x : SegS) (d : Dev) : Dev := { d with vrd := { d.vrd with seg := KMap.put (fun _ => {}) d.vrd.seg k x } }

/-! ## The tables of the active bank (R322, R329, R332, R353, R355) -/

/-- Words of a table: 0 rules, 1 ejector map, 2 zones; its first key and the words of an entry. -/
def vrdKey (table index : Nat) : Nat :=
  match table with
  | 0 => 16 * index
  | 1 => 1024 + 4 * index
  | _ => 17408 + 2 * index
def vrdWords (table : Nat) : Nat := match table with | 0 => 16 | 1 => 4 | _ => 2

/-- A word of a table entry in the active bank. -/
def Dev.vWord (d : Dev) (table index w : Nat) : Nat := d.actWord 10 (vrdKey table index + w)

/-- An entry of the active bank reads as disabled after an uncorrectable error (R353). -/
def Dev.vBad (d : Dev) (table index : Nat) : Bool := d.vrd.bad.contains { active := true, table, index }

/-- A rule is enabled. -/
def Dev.ruleOn (d : Dev) (r : Nat) : Bool := bit (d.vWord 0 r 0) 0 && !d.vBad 0 r

/-- A term of a rule: operand, operator, K and K2 (R355). -/
structure Term where
  opnd : Nat
  op : Nat
  k : Int
  k2 : Int
deriving DecidableEq, Repr

/-- The enabled terms of a rule (R323). -/
def Dev.terms (d : Dev) (r : Nat) : List Term :=
  ((List.range 4).map (fun t =>
    let w := d.vWord 0 r (4 + 3 * t)
    ({ opnd := bits w 0 8, op := bits w 8 8, k := sgn 32 (d.vWord 0 r (5 + 3 * t)), k2 := sgn 32 (d.vWord 0 r (6 + 3 * t)) } : Term))).filter
    (fun t => t.op != 0)

/-- An entry of the ejector map (R329). -/
structure Valve where
  index : Nat
  c0 : Nat
  c1 : Nat
  seg : Nat
  direct : Bool
  node : Nat
  out : Nat
  zone : Nat
  lead : Int
deriving DecidableEq, Repr

/-- A valve of the map; none when it is not enabled. -/
def Dev.valve (d : Dev) (i : Nat) : Option Valve :=
  if bit (d.vWord 1 i 0) 31 && !d.vBad 1 i then
    let w := d.vWord 1 i 2
    some { index := i, c0 := bits (d.vWord 1 i 0) 0 17, c1 := bits (d.vWord 1 i 1) 0 17, seg := bits w 0 3, direct := bit w 7
           node := bits w 8 8, out := bits w 16 8, zone := bits w 24 4, lead := sgn 16 (d.vWord 1 i 3) }
  else none

/-- The enabled valves of an index range. -/
def Dev.valves (d : Dev) (lo hi : Nat) : List Valve := (List.range (hi - lo)).filterMap (fun i => d.valve (lo + i))

/-! ## The speed of an object (R333) -/

/-- The interval between lead line and scan line in ns, when it is measured and within its limits. -/
def Dev.leadNs (d : Dev) (o : ObjRec) : Option Nat :=
  let n := (o.dtFirst / 65536 + 2 ^ 32 - o.leadT) % 2 ^ 32
  if bit o.flags 12 && decide (d.get R.VRD.BAL_DTMIN.NS ≤ n) && decide (n ≤ d.get R.VRD.BAL_DTMAX.NS) then some n else none

/-- Speed at the scan line in m/s (R333). -/
def Dev.speed (d : Dev) (n : Nat) : F64 :=
  let dt := (F64.ofNat n).div (.ofNat 1000000000)
  let x := (F64.ofNat (d.get R.VRD.BAL_DIST.UM)).div (.ofNat 1000000)
  let g := (F64.ofNat (d.get R.VRD.BAL_G.UMS2)).div (.ofNat 1000000)
  (x.div dt).add ((g.mul dt).div (.ofNat 2))

/-- Time of flight in ns from the scan line to a valve line (R333). -/
def Dev.flight (d : Dev) (v : F64) (zone : Nat) : F64 :=
  let g := (F64.ofNat (d.get R.VRD.BAL_G.UMS2)).div (.ofNat 1000000)
  let s := (F64.ofNat (d.vWord 2 zone 1)).div (.ofNat 1000000)
  let t := if d.get R.VRD.BAL_G.UMS2 = 0 then s.div v
    else ((((v.mul v).add (((F64.ofNat 2).mul g).mul s)).sqrt).sub v).div g
  t.mul (.ofNat 1000000000)

/-- The operand SPEED in mm/s (R323, R333); the free value `f` where the expression has no number. -/
def Dev.speedOp (d : Dev) (o : ObjRec) (f : Nat) : Nat :=
  if !d.on R.VRD.CTL.BAL then 0
  else
    match d.leadNs o with
    | none => 0
    | some n =>
      match (d.speed n).mul (.ofNat 1000) with
      | .nan => f % 65536
      | x => min 65535 ((x.round).getD 65535)

/-! ## Rules (R322 to R324) -/

/-- An operand of a term; none for a reserved code. -/
def operandOf (o : ObjRec) (speed code : Nat) : Option Int :=
  let full (i : Nat) : Int := nth 0 o.full i
  let cls (i : Nat) : Nat := nth 0 o.fullCls i
  if code = 1 then some (full 1)
  else if code = 2 then some (full 0)
  else if code = 3 then some ((o.x1 : Int) - o.x0 + 1)
  else if code = 4 then some (full 2)
  else if code = 5 then some o.x0
  else if code = 6 then some o.x1
  else if code = 7 then some (full 3)
  else if code = 8 then some (full 4)
  else if code = 9 then some (full 5)
  else if code = 10 then some (full 6)
  else if code = 11 then some o.flags
  else if code = 12 then some o.views
  else if code = 13 then some speed
  else if 0x11 ≤ code ∧ code ≤ 0x1f then some (cls (code - 0x11))
  else if 0x21 ≤ code ∧ code ≤ 0x2f then some (min 65535 (65536 * cls (code - 0x21) / max 1 (full 1).toNat) : Nat)
  else if 0x30 ≤ code ∧ code ≤ 0x33 then some (((nth 0 o.fmean (code - 0x30) : Nat) : Int))
  else if 0x34 ≤ code ∧ code ≤ 0x37 then some (((nth 0 o.fmin (code - 0x34) : Nat) : Int))
  else if 0x38 ≤ code ∧ code ≤ 0x3b then some (((nth 0 o.fmax (code - 0x38) : Nat) : Int))
  else if 0x40 ≤ code ∧ code ≤ 0x4f then some (nth 0 o.scores (code - 0x40))
  else none

/-- Whether a term holds; none for a reserved operator (R323). -/
def termHolds (v : Int) (t : Term) : Option Bool :=
  let s := sgn 64 (unsgn 64 v)
  let both := Nat.land (unsgn 64 s) (unsgn 64 t.k)
  match t.op with
  | 1 => some (decide (t.k ≤ s))
  | 2 => some (decide (s < t.k))
  | 3 => some (decide (t.k ≤ s ∧ s ≤ t.k2))
  | 4 => some (decide (s < t.k ∨ t.k2 < s))
  | 5 => some (both != 0)
  | 6 => some (both == 0)
  | _ => none

/-- How a rule meets an object. -/
inductive RuleMeet where
  | holds | fails | skipped | reserved
deriving DecidableEq, Repr

/-- All terms of a rule hold. -/
def termsMeet (o : ObjRec) (speed : Nat) : List Term → RuleMeet
  | [] => .holds
  | t :: ts =>
    match operandOf o speed t.opnd with
    | none => .reserved
    | some v =>
      match termHolds v t, termsMeet o speed ts with
      | none, _ => .reserved
      | _, .reserved => .reserved
      | some true, r => r
      | some false, _ => .fails

/-- A rule against an object (R322, R324). -/
def Dev.ruleMeet (d : Dev) (o : ObjRec) (speed r : Nat) : RuleMeet :=
  if !d.ruleOn r then .fails
  else
    let ts := d.terms r
    let score := ts.any (fun t => decide (0x40 ≤ t.opnd ∧ t.opnd ≤ 0x4f))
    match termsMeet o speed ts with
    | .reserved => .reserved
    | m => if score && bit o.flags 10 then .skipped else if score && o.net.isNone then .fails else m

/-- The deciding entry among rules r and after, and the score rules skipped on the way; none where a reserved
term is met. -/
def Dev.decideRule (d : Dev) (o : ObjRec) (speed : Nat) : Nat → Nat → Nat → Option (Nat × Nat)
  | 0, _, skips => some (0, skips)
  | fuel + 1, r, skips =>
    match d.ruleMeet o speed r with
    | .holds => some (r, skips)
    | .fails => d.decideRule o speed fuel (r + 1) skips
    | .skipped => d.decideRule o speed fuel (r + 1) (skips + 1)
    | .reserved => none

/-! ## The valve set (R329, R330) -/

/-- Distance of a valve's columns from a column. -/
def valveGap (col : Nat) (v : Valve) : Nat := if col < v.c0 then v.c0 - col else col - v.c1

/-- The valve set of a reject: the valves, and whether the range was clipped (R330). -/
def Dev.valveSet (d : Dev) (o : ObjRec) (bank : Nat) : List Valve × Bool :=
  let na := d.get R.VRD.VMAP_CTL.NA
  let a : Nat := o.x0 - d.get R.VRD.MARGIN.ML
  let b := min (d.width - 1) (o.x1 + d.get R.VRD.MARGIN.MR)
  let all := if bank = 1 then d.valves 0 na else d.valves na 4096
  let range := all.filter (fun v => decide (v.c0 ≤ b ∧ a ≤ v.c1))
  let vmax := d.get R.VRD.VMAP_CTL.VMAX
  if range.length ≤ vmax then (range, false)
  else
    match minBy (valveGap (o.cx / 256)) range with
    | none => ([], false)
    | some c =>
      let rank (v : Valve) : Nat := if v.index ≤ c.index then 2 * (c.index - v.index) else 2 * (v.index - c.index) + 1
      let near := (sortBy (fun u v => decide (rank u < rank v)) range).take vmax
      (range.filter (fun v => near.any (fun u => u.index == v.index)), true)

/-- Consecutive valves of a bank are in the order of R329. -/
def ordered : List Valve → Bool
  | u :: v :: vs => decide (u.c0 ≤ v.c0 ∧ u.c1 ≤ v.c1) && ordered (v :: vs)
  | _ => true

/-- No two of the valves share an output. -/
def distinctOuts : List Valve → Bool
  | [] => true
  | v :: vs => vs.all (fun u => u.seg != v.seg || u.direct != v.direct || u.node != v.node || u.out != v.out) && distinctOuts vs

/-- A host error in the ejector map or its settings: their order, their outputs, or a value outside its range (R329,
R34). -/
def Dev.mapErr (d : Dev) : Bool :=
  let na := d.get R.VRD.VMAP_CTL.NA
  let a := d.valves 0 na
  let b := d.valves na 4096
  decide (4096 < na) || decide (d.get R.VRD.VMAP_CTL.VMAX = 0 ∨ 64 < d.get R.VRD.VMAP_CTL.VMAX)
    || !ordered a || !ordered b || !distinctOuts (a ++ b)
    || (a ++ b).any (fun v => if v.direct then decide (15 < v.node) else v.node == 0 || decide (31 < v.node ∨ 63 < v.out))
    || (d.on R.TOP.PROFILE_ACT.T1S_MODE && (a ++ b).any (fun v => !v.direct && decide (4 ≤ v.seg)))

/-! ## Fire times (R331 to R334) -/

/-- How a fire time came about. -/
inductive How where
  | zone | ballistic | fallback
deriving DecidableEq, Repr

/-- Delay in ns from DT_FIRST to the fire time of a valve; none where it is a host error (R332 to R334). `f` is
the free value for an expression without a number. -/
def Dev.delayOf (d : Dev) (o : ObjRec) (f : Nat) (v : Valve) : Option Int × How :=
  let zone : Int := if d.vBad 2 v.zone then 0 else 1000 * d.vWord 2 v.zone 0
  let within (t : Int) : Option Int := if t + 1000 * v.lead < 2 ^ 47 then some (t + 1000 * v.lead) else none
  if !d.on R.VRD.CTL.BAL then (within zone, .zone)
  else
    match d.leadNs o with
    | none => (within zone, .fallback)
    | some n =>
      if d.vBad 2 v.zone then (within 0, .ballistic)
      else
        match d.flight (d.speed n) v.zone with
        | .inf => (none, .ballistic)
        | .nan => (within (f % 2 ^ 46 : Nat), .ballistic)
        | x => (within ((x.round).getD 0 : Nat), .ballistic)

/-- A fire time: DT_FIRST plus the delay, down to a whole µs, modulo 2^48 (R334). -/
def fireAt (o : ObjRec) (delay : Int) : Nat :=
  let t := unsgn 48 ((o.dtFirst / 65536 : Nat) + delay)
  t - t % 1000

/-- Duration of an object's commands in µs (R331). -/
def Dev.fireDur (d : Dev) (o : ObjRec) : Nat :=
  min 65535 (max 1 (d.get R.VRD.DUR.BASE_US + o.lines * d.get R.VRD.DUR_LINE.LINE / 256))

/-- Signed distance in DT units from DT to a time in integer ns modulo 2^48. -/
def Dev.until' (d : Dev) (t : Nat) : Int := dtDiff (t * 65536) d.dt

/-! ## Entry of fire commands (R335, R338, R343, R347, R348) -/

/-- The pair or segment that a segment's commands belong to (R348). -/
def Dev.lane' (d : Dev) (k : Nat) : Nat := if d.on R.TOP.PROFILE_ACT.T1S_MODE then k % 4 else k

/-- The segments that can carry a command (R347, R348). -/
def Dev.carriers (d : Dev) (k : Nat) : List Nat :=
  let all := if d.on R.TOP.PROFILE_ACT.T1S_MODE then [k % 4, k % 4 + 4] else [k]
  all.filter (fun j => d.get (R.T1S.SEG_STATUS.STATE j) == 1 || d.get (R.T1S.SEG_STATUS.STATE j) == 2)

/-- A command that is not sent (R338, R347). -/
def cmdMissed (d : Dev) : Dev := vrdPerf 5 1 (vrdStat 13 1 (event 0x10 R.VRD.STATUS.SEQ [R.VRD.STATUS.MISSED] d))

/-- A command takes the next SEQ of its segment or pair and enters the pending table (R343). -/
def enterCmd (c : FireCmd) (d : Dev) : Dev :=
  let g := d.segS c.seg
  let d := setSeg c.seg { g with seq := (g.seq + 1) % 65536 } d
  { d with vrd := { d.vrd with pend := d.vrd.pend ++ [{ c with seq := g.seq }] } }

/-- A fire command is late: counted, and an error event (R44, R48, R338). -/
def fireLate (d : Dev) : Dev := errEvent 6 (vrdPerf 4 1 (vrdStat 12 1 d))

/-- The flags that a command leaves in the tag: bit 3 LATE_FIRE, bit 4 DROPPED. -/
def fireCmd (c : FireCmd) (d : Dev) : Dev × Nat :=
  let k := d.lane' c.seg
  let left := d.until' c.time
  if (d.carriers k).isEmpty then (cmdMissed d, 16)
  else if 16384 ≤ d.vrd.pend.length then
    (vrdStat 11 1 (event 0x10 R.VRD.STATUS.SEQ [R.VRD.STATUS.CMD_FULL] d), 16)
  else if left < (d.get R.VRD.RETX_MIN.US : Int) * 65536000 then (cmdMissed d, 16)
  else
    let late := decide (left < (d.get R.VRD.LEAD.US : Int) * 65536000)
    let d := vrdPerf 3 1 (vrdStat 10 1 (enterCmd { c with seg := k, flags := c.flags ||| (if late then 2 else 0) } d))
    if late then (fireLate d, 8) else (d, 0)

/-! ## FIRE_OUT pins (R351, R352) -/

def Dev.pinQ (d : Dev) (i : Nat) : List Pulse := KMap.get (fun _ => []) d.vrd.pins i
def setPinQ (i : Nat) (q : List Pulse) (d : Dev) : Dev :=
  put (R.VRD.FO_STATUS.LEVEL i) q.length { d with vrd := { d.vrd with pins := KMap.put (fun _ => []) d.vrd.pins i q } }

/-- A pulse enters a pin's queue, or is dropped (R351, R352): the tag flags it leaves. -/
def pulseIn (i : Nat) (p : Pulse) (d : Dev) : Dev × Nat :=
  let passed := p.sp.isNone && decide (d.until' p.start < 0)
  if !d.drivesPrimary (12 + i) || decide (64 ≤ (d.pinQ i).length) || passed then (vrdStat 14 1 d, 16)
  else (setPinQ i (d.pinQ i ++ [p]) d, 0)

/-- The SP latch of an encoder at a line; none when it is stale (R327). -/
def Dev.spAt (d : Dev) (enc lsn : Nat) : Option Nat :=
  match d.spNewest, KMap.get (fun _ => (none : Option (Nat × Nat × Nat))) d.spLatch (lsn % 65536) with
  | some n, some (l, a, b) => if l = lsn ∧ lsnDiff n lsn ≤ 65535 ∧ 0 ≤ lsnDiff n lsn then some (if enc = 0 then a else b) else none
  | _, _ => none

/-- The marker pulse of a pin for an object with a verdict (R351). -/
def viewMarker (o : ObjRec) (v i : Nat) (d : Dev) : Dev × Nat :=
  if d.get (R.VRD.FO_CTL.MODE i) == 2 && bit (d.get (R.VRD.FO_CTL.VMASK i)) v
      && decide (o.x0 ≤ d.get (R.VRD.FO_C1.COL i) ∧ d.get (R.VRD.FO_C0.COL i) ≤ o.x1) then
    let dur := d.get (R.VRD.FO_DUR.US i)
    let delay := sgn 32 (d.get (R.VRD.FO_DELAY.DELAY i))
    let r :=
      if d.on (R.VRD.FO_CTL.BASE i) then
        match d.spAt (d.get (R.VRD.FO_CTL.ENC i)) o.first with
        | none => (vrdStat 14 1 d, 16)
        | some p => pulseIn i { sp := some (d.get (R.VRD.FO_CTL.ENC i), unsgn 48 ((p : Int) + delay)), dur, obj := o.id } d
      else pulseIn i { start := fireAt o (1000 * delay), dur, obj := o.id } d
    (if r.2 = 0 then vrdPerf 0xa 1 r.1 else r.1, r.2)
  else (d, 0)

/-- Effects for each element, with the union of the tag flags that they leave. -/
def eachFlag {α : Type} (f : α → Dev → Dev × Nat) : List α → Dev → Nat → Dev × Nat
  | [], d, fl => (d, fl)
  | x :: xs, d, fl => let r := f x d; eachFlag f xs r.1 (fl ||| r.2)

/-- The command or the direct pulse of one valve of a set. -/
def fireValve (o : ObjRec) (dur : Nat) (v : Valve × Int) (d : Dev) : Dev × Nat :=
  let t := fireAt o v.2
  if v.1.direct then
    if v.1.node < 16 ∧ d.get (R.VRD.FO_CTL.MODE v.1.node) = 1 then
      pulseIn v.1.node { start := t, dur, obj := o.id, valve := v.1.index } d
    else (d, 0)
  else fireCmd { kind := 1, seg := v.1.seg, node := v.1.node, out := v.1.out, seq := 0, dur, time := t, obj := o.id, valve := v.1.index } d

/-! ## The rings (R289, R328) -/

/-- The 128 bytes of an object record (R286). -/
def objBytes (o : ObjRec) : List Byte :=
  leBytes 4 o.id ++ leBytes 2 o.epoch ++ leBytes 2 o.flags ++ leBytes 4 o.first ++ leBytes 2 o.lines ++ leBytes 2 o.views
    ++ leBytes 8 o.dtFirst ++ leBytes 4 o.leadT ++ leBytes 3 o.x0 ++ leBytes 3 o.x1 ++ leBytes 1 o.verdict ++ [0#8]
    ++ leBytes 4 o.area ++ leBytes 4 o.perim ++ leBytes 2 o.csat ++ (List.range 15).flatMap (fun i => leBytes 2 (nth 0 o.cls i))
    ++ leBytes 4 o.cx ++ leBytes 4 o.cy ++ leBytes 4 o.mu20 ++ leBytes 4 o.mu02 ++ leBytes 4 (unsgn 32 o.mu11)
    ++ (List.range 4).flatMap (fun i => leBytes 2 (nth 0 o.fmean i)) ++ (List.range 4).flatMap (fun i => leBytes 2 (nth 0 o.fmin i))
    ++ (List.range 4).flatMap (fun i => leBytes 2 (nth 0 o.fmax i)) ++ (List.range 4).flatMap (fun i => leBytes 2 (unsgn 16 (nth 0 o.score i)))

/-- A ring of owner 0x07 can be written: it has a region, and owner 0x07 holds it. -/
def Dev.ringOk (d : Dev) (rgn : Nat) : Bool := decide (0 < (d.region rgn).2) && d.mayUse 3 rgn 7

/-- The time at which a slot of a report ring was written (R395). -/
def ringStamp (ring slotNo : Nat) (d : Dev) : Dev := { d with dma := { d.dma with ringAt := setNum (2 ^ 32 * ring + slotNo) d.dt d.dma.ringAt } }

/-- The record enters the object report ring (R289). -/
def objRing (o : ObjRec) (room : Bool) (d : Dev) : Dev :=
  let r := d.get R.MRG.ORING_CTL.RGN
  if !bit (d.get R.MRG.ORING_CTL.VMASK) (o.verdict % 4) then d
  else if room && d.ringOk r then
    let k := d.get R.MRG.ORING_WR.COUNT
    meterUser 2 128 <| ringStamp 0 (k % ((d.region r).2 / 128)) (put R.MRG.ORING_WR.COUNT (k + 1) (dramWrite ((d.region r).1 + 128 * (k % ((d.region r).2 / 128))) (objBytes o) d))
  else mrgPerf 0xe 1 (inc R.MRG.ORING_DROP.COUNT 1 (event 14 R.MRG.STATUS.SEQ [R.MRG.STATUS.ORING_DROP] d))

/-- A defect tag enters the tag ring (R328). -/
def tagRing (v : Nat) (bs : List Byte) (room : Bool) (d : Dev) : Dev :=
  let r := d.get R.VRD.TAG_CTL.RGN
  if !bit (d.get R.VRD.TAG_CTL.VMASK) v then d
  else if room && d.ringOk r then
    let k := d.get R.VRD.TAG_WR.COUNT
    meterUser 2 32 <| ringStamp 1 (k % ((d.region r).2 / 32)) (vrdPerf 8 1 (put R.VRD.TAG_WR.COUNT (k + 1) (dramWrite ((d.region r).1 + 32 * (k % ((d.region r).2 / 32))) bs d)))
  else vrdPerf 9 1 (inc R.VRD.TAG_DROP.COUNT 1 (event 0x10 R.VRD.STATUS.SEQ [R.VRD.STATUS.TAG_DROP] d))

/-! ## The verdict (R321, R326, R327) -/

/-- CLS of the tag: the largest class, the lower on a tie, and the number of classes present (R326). -/
def tagCls (o : ObjRec) : Nat :=
  let cs := (List.range 15).map (fun i => (i + 1, nth 0 o.fullCls i))
  let best := (cs.filter (fun c => c.2 != 0)).foldl (fun b c => if b.2 < c.2 then c else b) (0, 0)
  best.1 + 16 * (cs.filter (fun c => c.2 != 0)).length

/-- X_UM of the tag (R327). -/
def Dev.tagX (d : Dev) (o : ObjRec) : Int :=
  sgn 32 (d.get R.VRD.TAG_XORG.UM)
    + fdiv (((o.cx : Int) - 256 * d.get R.VRD.TAG_X0.COL) * sgn 32 (d.get R.VRD.TAG_PITCH.NM) + 128000) 256000

/-- What a verdict decides before its effects: the VERDICT byte, the score rules skipped, the valve set with its
delays, whether it was clipped, and how its times came about; or a host error. -/
def Dev.judge' (d : Dev) (o : ObjRec) (f : Nat) : Except String (Nat × Nat × List (Valve × Int) × Bool × How) :=
  if (List.range 16).any (fun i => d.get (R.VRD.FO_CTL.MODE i) == 3) then .error "reserved FO_CTL.MODE (R354)"
  else
  match d.decideRule o (d.speedOp o f) 63 1 0 with
  | none => .error "reserved operand or operator in a rule (R323)"
  | some (r, skips) =>
    let v := if r = 0 ∧ d.vBad 0 0 then f % 4 else bits (d.vWord 0 r 0) 1 2
    let vb := 4 * r + v
    if v = 1 ∨ v = 2 then
      if d.mapErr then .error "ejector map or its settings (R329)"
      else
        let set := d.valveSet o v
        let times := set.1.map (fun x => (x, d.delayOf o f x))
        if times.any (fun x => x.2.1.isNone) then .error "fire time 2^47 ns or more after DT_FIRST (R334)"
        else .ok (vb, skips, times.map (fun x => (x.1, x.2.1.getD 0)), set.2, (times.head?.map (·.2.2)).getD .zone)
    else .ok (vb, skips, [], false, .zone)

/-- The oldest complete record is judged; `objRoom` and `tagRoom` say whether the ring writers had room on chip. -/
def verdict (objRoom tagRoom : Bool) (d : Dev) : Host.Outcome Dev Fault Refusal :=
  match d.objQ with
  | [] => .next d
  | o :: rest =>
    let d := { d with objQ := rest }
    if !d.on R.VRD.CTL.EN then .next d
    else
      let f := d.fresh
      match d.judge' o f with
      | .error w => .fault (.hostError w)
      | .ok (vb, skips, set, clipped, how) =>
        let d := takeFree d
        let v := vb % 4
        let reject := v == 1 || v == 2
        let o := { o with verdict := vb }
        let d := vrdPerf 1 1 (vrdStat (1 + v) 1 (vrdStat 0 1 (vrdStat 5 skips d)))
        let d := when reject (vrdPerf 2 1) d
        let noValve := reject && set.isEmpty
        let d := when noValve (vrdStat 6 1) d
        let d := when clipped (vrdStat 7 1) d
        let d := when (how = .ballistic) (fun d => vrdPerf 6 1 (vrdStat 8 1 d)) d
        let d := when (how = .fallback) (fun d => vrdPerf 7 1 (vrdStat 9 1 d)) d
        let dur := d.fireDur o
        let r := eachFlag (fireValve o dur) set d 0
        let r := eachFlag (viewMarker o v) (List.range 16) r.1 r.2
        let d := r.1
        let sp := d.spAt (d.get R.VRD.TAG_CTL.ENC) o.first
        let flags := b2n (bit o.flags 10) + 2 * b2n (decide (how = .ballistic)) + 4 * b2n (decide (how = .fallback))
          + 32 * b2n clipped + 64 * b2n noValve + 128 * b2n sp.isNone + r.2
        let ofs (x : Valve × Int) : Int := dtDiff (fireAt o x.2 * 65536) (o.dtFirst / 65536 * 65536) / 65536
        let first := (set.map ofs).foldl (fun m x => match m with | none => some x | some y => some (min x y)) (none : Option Int)
        let tag := leBytes 4 o.id ++ leBytes 1 vb ++ leBytes 1 (tagCls o) ++ leBytes 2 flags ++ leBytes 4 (unsgn 32 (d.tagX o))
          ++ leBytes 2 ((set.head?.map (fun x => x.1.index)).getD 0) ++ leBytes 2 set.length ++ leBytes 8 o.dtFirst
          ++ leBytes 4 (unsgn 32 (first.getD 0)) ++ leBytes 4 (sp.getD 0)
        .next (tagRing v tag tagRoom (objRing o objRoom d))

/-- `VERDICT` (R321). -/
def execVerdict (objRoom tagRoom : Bool) (s : State) : Host.Outcome State Fault Refusal :=
  run (fun _ d => verdict objRoom tagRoom d) s

/-! ## Pulses (R351) -/

/-- SP of an encoder has reached a threshold in the forward direction of TG0 (R71, R351). -/
def Dev.spReached (d : Dev) (e t : Nat) : Bool :=
  let x := sgn 48 (unsgn 48 ((d.get (R.TIM.ENC_SP.SP e) : Int) - t))
  decide (0 ≤ (if d.on (R.TIM.TG_CTL.DIR 0) then -x else x))

/-- The level of a pin that is active or not (R351). -/
def Dev.pinLevel (d : Dev) (i : Nat) (active : Bool) : Bool := active == d.on (R.VRD.FO_CTL.POL i)

/-- A pulse starts on a pin; the pin stays active over the union of its pulses (R350, R351). -/
def pulseStart (i : Nat) (p : Pulse) (d : Dev) : Dev :=
  if !d.drivesPrimary (12 + i) then vrdStat 14 1 d
  else
    let e := dtAddNs d.dt (1000 * p.dur)
    let stop' := match KMap.get (fun _ => (none : Option Nat)) d.vrd.pinEnd i with
      | some x => if dtGe x e then x else e
      | none => e
    emit (.firePin i (d.pinLevel i true) d.dt)
      { d with vrd := { d.vrd with pinEnd := KMap.put (fun _ => none) d.vrd.pinEnd i (some stop') } }

/-- The first pulse with a start time, by its start. -/
def firstTimed (d : Dev) (q : List Pulse) : Option Pulse :=
  minBy (fun p => (d.until' p.start + 2 ^ 63).toNat) (q.filter (fun p => p.sp.isNone))

/-- `FIRE_OUT_PULSE` (R351): the next timed pulse of a pin, or its first pulse whose encoder has reached its threshold. -/
def execFireOutPulse (i : Fin 16) (sp : Bool) (s : State) : Host.Outcome State Fault Refusal :=
  total (fun _ d =>
    let q := d.pinQ i.val
    if sp then
      match q.find? (fun p => match p.sp with | some (e, t) => d.spReached e t | none => false) with
      | some p => pulseStart i.val p (setPinQ i.val (q.erase p) d)
      | none => d
    else
      match firstTimed d q with
      | some p => pulseStart i.val p (reach (p.start * 65536) (setPinQ i.val (q.erase p) d))
      | none => d) s

/-- `FIRE_OUT_PULSE_END` (R351). -/
def execFireOutPulseEnd (i : Fin 16) (s : State) : Host.Outcome State Fault Refusal :=
  total (fun _ d =>
    match KMap.get (fun _ => (none : Option Nat)) d.vrd.pinEnd i.val with
    | none => d
    | some t =>
      let d := reach t d
      emit (.firePin i.val (d.pinLevel i.val false) d.dt)
        { d with vrd := { d.vrd with pinEnd := KMap.put (fun _ => none) d.vrd.pinEnd i.val none } }) s

/-! ## SRAM errors (R353) -/

/-- An uncorrectable error in the VRD SRAMs (R353). -/
def vrdSramUe (w : VrdSram) (d : Dev) : Dev :=
  match w with
  | .table active t i =>
    let d := logEv 0x108b 0 3 (65536 * t + i) (errEvent 1 (event 0x10 R.VRD.STATUS.SEQ [R.VRD.STATUS.SRAM_UE] d))
    let b : VrdBad := { active, table := t, index := i }
    if d.vrd.bad.contains b then d else { d with vrd := { d.vrd with bad := b :: d.vrd.bad } }
  | .pending i =>
    match d.vrd.pend[i]? with
    | none => d
    | some c => logEv 0x108a 0 2 c.valve (errEvent 1 (cmdMissed { d with vrd := { d.vrd with pend := d.vrd.pend.eraseIdx i } }))
  | .pin i j =>
    match (d.pinQ i)[j]? with
    | none => d
    | some p => logEv 0x108a 0 2 p.valve (errEvent 1 (cmdMissed (setPinQ i ((d.pinQ i).eraseIdx j) d)))

/-- The word that the configuration image gives a table word of the verdict unit. -/
def Dev.vrdImage (d : Dev) (table index w : Nat) : Nat :=
  let base := match table with | 0 => 0x1810000 | 1 => 0x1820000 | _ => 0x1830000
  (KMap.get (fun _ => (none : Option Nat)) d.imgWord (base + 4 * (vrdWords table * index + w))).getD 0

/-- `VRD_TABLE_RESTORE` (R353): the entry takes the words of the image again. -/
def execVrdTableRestore (active : Bool) (table : Fin 3) (index : Nat) (s : State) : Host.Outcome State Fault Refusal :=
  total (fun _ d =>
    let x : VrdBad := { active, table := table.val, index }
    if !d.vrd.bad.contains x || d.ras.coresDown then d
    else
      let d := each (fun w d =>
          let b := d.bankS 10
          let k := vrdKey table.val index + w
          let v := d.vrdImage table.val index w
          if active then setBank 10 { b with act := KMap.put (bankDefault 10) b.act k v } d
          else setBank 10 { b with shd := KMap.put (bankDefault 10) b.shd k v } d) (List.range (vrdWords table.val)) d
      { d with vrd := { d.vrd with bad := d.vrd.bad.filter (· != x) } }) s

/-- The exchange of the verdict unit's banks: entries that read as disabled travel with their bank. -/
def vrdSwap (d : Dev) : Dev :=
  if d.on R.VRD.TBL_CTL.PEND && !d.on R.VRD.TBL_CTL.COPY_BUSY then
    let d := boundarySwap .vrd d
    { d with vrd := { d.vrd with bad := d.vrd.bad.map (fun b => ({ b with active := !b.active } : VrdBad)) } }
  else d

end Sys2Proof.Machine
end

