-- ==== Sys2Proof/Machine/Segments.lean ====
section
/-!
DEFINITION. The T1S segments: fire frames and their acknowledgement, cancels, sweeps, Segment Time, and the states
of a segment (R84 to R87, R335 to R348).
-/

namespace Sys2Proof.Machine

/-! ## Addresses and frames (R86, R342, R343) -/

/-- The MAC address of a segment (R86): the OUI and 24 bits of the serial number, first byte first. -/
def segMac (k : Nat) : List Byte := beBytes 3 Config.oui ++ beBytes 3 (Config.serial % 2 ^ 21 * 8 + k)

/-- The clockIdentity and the portNumber of a segment (R86). -/
def clockId : List Byte := beBytes 3 Config.oui ++ beBytes 5 Config.serial
def portIdent (k : Nat) : List Byte := clockId ++ beBytes 2 (k + 1)

/-- An Ethernet frame: addresses, EtherType, payload padded to 46 bytes, FCS. -/
def ethFrame (dst src : List Byte) (etype : Nat) (payload : List Byte) : List Byte :=
  let f := dst ++ src ++ beBytes 2 etype ++ payload ++ List.replicate (46 - payload.length) 0#8
  f ++ leBytes 4 (crc32 f)

/-- The 16 bytes of a command (R343). `retx` is its RETX flag. -/
def cmdBytes (c : FireCmd) (retx : Bool) : List Byte :=
  leBytes 1 c.kind ++ leBytes 1 c.node ++ leBytes 1 c.out ++ leBytes 1 (b2n retx + c.flags) ++ leBytes 2 c.seq ++ leBytes 2 c.dur
    ++ leBytes 8 (if c.kind = 1 then c.time * 65536 else 0)

/-- A fire frame (R342). -/
def fireFrame (d : Dev) (k : Nat) (cs : List FireCmd) : List Byte :=
  let h := leBytes 1 0x47 ++ leBytes 1 1 ++ leBytes 1 1 ++ leBytes 1 cs.length
    ++ leBytes 1 (k % 8 + 128 * b2n (d.on R.TOP.PROFILE_ACT.T1S_MODE)) ++ leBytes 3 0 ++ leBytes 4 (d.segS k).fseq ++ leBytes 4 0
  ethFrame (leBytes 6 (d.get (R.T1S.FIRE_DA.MAC k))) (segMac k) 0x88b5 (h ++ cs.flatMap (fun c => cmdBytes c (c.sent.contains k)))

/-! ## Segment Time (R84, R85, R87)

The message layouts are those of IEEE 802.1AS (PRESUMED); the fields that the spec fixes are the spec's. -/

/-- Full time N of a DT stamp in ns: the one next to the present full time, on either side of a DT wrap (R60, R85). -/
def Dev.fullOf (d : Dev) (dt : Nat) : Nat :=
  unsgn 80 ((d.fullNs : Int) + sgn 48 ((dt / 65536 + 2 ^ 48 - d.ns % 2 ^ 48) % 2 ^ 48))

/-- DT as seconds and nanoseconds of a PTP timestamp (R85). -/
def Dev.ptpTime (d : Dev) (dt : Nat) : List Byte :=
  let n := d.fullOf dt
  beBytes 6 (n / 1000000000) ++ beBytes 4 (n % 1000000000)

/-- The common header of a PTP message. Of its flags only twoStepFlag is ever set: ptpTimescale is 0 (R84). -/
def ptpHeader (k type' len flags : Nat) (corr : Int) (seqId control : Nat) (interval : Int) : List Byte :=
  beBytes 1 (0x10 + type') ++ beBytes 1 2 ++ beBytes 2 len ++ beBytes 1 0 ++ beBytes 1 0 ++ beBytes 2 flags
    ++ beBytes 8 (unsgn 64 corr) ++ beBytes 4 0 ++ portIdent k ++ beBytes 2 seqId ++ beBytes 1 control ++ beBytes 1 (unsgn 8 interval)

/-- The frame of a PTP message. -/
def ptpFrame (k : Nat) (msg : List Byte) : List Byte := ethFrame [0x01#8, 0x80#8, 0xc2#8, 0#8, 0#8, 0x0e#8] (segMac k) 0x88f7 msg

/-- Half the asymmetry of a segment in 2^-16 ns (R87): exact, or one of the two neighbours. -/
def Dev.asym (d : Dev) (k : Nat) : Int :=
  let x := sgn 32 (d.get (R.TIM.SEG_ASYM.PS k)) * 65536
  fdiv x 2000 + (if x % 2000 = 0 then 0 else ((d.fresh % 2 : Nat) : Int))

/-! ## What an opportunity sends (R335, R337 to R339) -/

/-- A frame sent in an opportunity, with its length on the wire in bit times. -/
def wireBits (f : List Byte) : Nat := 8 * (f.length + 20)

/-- DT at which a frame leaves the MDI after some bit times, within ±10 ns (R84). -/
def Dev.leaveAt (d : Dev) (bitsBefore : Nat) : Nat :=
  dtAddNs (unsgn 64 ((d.dt : Int) + (d.fresh % 1310721 : Nat) - 655360)) (100 * (bitsBefore + 64) : Nat)

/-- A frame of PTP leaves. -/
def sendPtp (k : Nat) (msg : List Byte) (d : Dev) : Dev :=
  t1sPerf k 0xc 1 (t1sPerf k 1 1 (t1sStat k 14 1 (t1sStat k 0 1 (emit (.t1s k (ptpFrame k msg)) (takeFree d)))))

/-- A command of the table belongs to a segment. -/
def Dev.onSeg (d : Dev) (k : Nat) (c : FireCmd) : Bool := c.seg == d.lane' k

/-- The commands that segment k may send now: not yet sent in this opportunity, and no fire command for a node with
a pending cancel (R335) or with less than RETX_MIN left (R338, R339). -/
def Dev.sendable (d : Dev) (k : Nat) (done : List Nat) : List FireCmd :=
  let mine := d.vrd.pend.filter (d.onSeg k)
  let free (c : FireCmd) : Bool := !mine.any (fun x => x.kind != 1 && x.node == c.node)
    && decide ((d.get R.VRD.RETX_MIN.US : Int) * 65536000 ≤ d.until' c.time)
  mine.filter (fun c => !done.contains c.seq && (c.kind != 1 || free c))

/-- A command is due for retransmission on a segment, or its send deadline lies within 2 × C_max (R337, R339). -/
def Dev.urgent (d : Dev) (k : Nat) (c : FireCmd) : Bool :=
  c.sent.contains k
    || (c.kind == 1 && decide (d.until' c.time - (d.get R.VRD.LEAD.US : Int) * 65536000 ≤ 2 * ((d.segS k).cmax : Int) * 6553600))

/-- The order of commands in an opportunity (R335). -/
def cmdBefore (d : Dev) (k : Nat) (a b : FireCmd) : Bool :=
  let key (c : FireCmd) : Nat × Nat × Nat × Nat :=
    (b2n (!c.sent.contains k), b2n (c.kind == 1), if c.kind = 1 then (d.until' c.time + 2 ^ 63).toNat else 0,
     (c.seq + 65536 - (d.segS (d.lane' k)).seq) % 65536)
  let x := key a
  let y := key b
  x.1 < y.1 || (x.1 == y.1 && (x.2.1 < y.2.1 || (x.2.1 == y.2.1 && (x.2.2.1 < y.2.2.1 || (x.2.2.1 == y.2.2.1 && x.2.2.2 < y.2.2.2)))))

/-- A fire frame leaves (R342): its commands count as sent on the segment. -/
def sendFire (k : Nat) (cs : List FireCmd) (d : Dev) : Dev :=
  let n := (cs.filter (fun c => c.sent.contains k)).length
  let d := emit (.t1s k (fireFrame d k cs)) d
  let d := setSeg k { d.segS k with fseq := ((d.segS k).fseq + 1) % 2 ^ 32 } d
  let hit (c : FireCmd) : Bool := cs.any (fun x => x.seq == c.seq && x.seg == c.seg)
  let now := d.dt
  let d := { d with vrd := { d.vrd with pend := d.vrd.pend.map (fun (c : FireCmd) =>
    if hit c then { c with sent := if c.sent.contains k then c.sent else k :: c.sent, first := some (c.first.getD now) } else c) } }
  let d := t1sStat k 3 n (t1sStat k 2 cs.length (t1sStat k 1 1 (t1sStat k 0 1 d)))
  t1sPerf k 4 n (t1sPerf k 3 cs.length (t1sPerf k 2 1 (t1sPerf k 1 1 d)))

/-- An opportunity's frames in the order of R337: `left` frames are left, `bitsBefore` have passed. -/
def fillFrames (k : Nat) : Nat → Nat → List Nat → Dev → Dev
  | 0, _, _, d => d
  | left + 1, bitsBefore, done, d =>
    let cs := sortBy (cmdBefore d k) (d.sendable k done)
    let g := d.segS k
    let fire (d : Dev) : Dev :=
      let pick := cs.take 32
      fillFrames k left (bitsBefore + wireBits (fireFrame d k pick)) (done ++ pick.map FireCmd.seq) (sendFire k pick d)
    let ptp (msg : List Byte) (d : Dev) : Dev := fillFrames k left (bitsBefore + wireBits (ptpFrame k msg)) done (sendPtp k msg d)
    if cs.any (d.urgent k) then fire d
    else
      match g.followUp, g.respFu, g.resp with
      | some (sid, t), _, _ =>
        let tlv := beBytes 2 3 ++ beBytes 2 28 ++ beBytes 3 0x0080c2 ++ beBytes 3 1 ++ beBytes 4 0 ++ beBytes 2 0 ++ beBytes 12 0 ++ beBytes 4 0
        ptp (ptpHeader k 8 76 0 ((t % 65536 : Nat) + d.asym k) sid 2 (-(d.get (R.TIM.SEG_CTL.SYNC_N k) : Int)) ++ d.ptpTime t ++ tlv)
          (setSeg k { g with followUp := none } d)
      | none, (q, t) :: rest, _ =>
        ptp (ptpHeader k 0xa 54 0 (t % 65536 : Nat) q.seqId 5 0x7f ++ d.ptpTime t ++ beBytes 10 q.ident) (setSeg k { g with respFu := rest } d)
      | none, [], q :: rest =>
        let t := d.leaveAt bitsBefore
        let d := perf 7 0x100000 7 1 d
        ptp (ptpHeader k 3 54 0x200 (q.dt % 65536 : Nat) q.seqId 5 0x7f ++ d.ptpTime q.dt ++ beBytes 10 q.ident)
          (setSeg k { g with resp := rest, respFu := g.respFu ++ [(q, t)] } d)
      | none, [], [] =>
        if g.syncDue then
          let t := d.leaveAt bitsBefore
          let d := perf 7 0x100000 6 1 d
          ptp (ptpHeader k 0 44 0x200 0 g.syncId 0 (-(d.get (R.TIM.SEG_CTL.SYNC_N k) : Int)) ++ beBytes 10 0)
            (setSeg k { g with syncDue := false, followUp := some (g.syncId, t), syncId := (g.syncId + 1) % 65536 } d)
        else if g.annDue then
          ptp (ptpHeader k 0xb 76 0 0 g.annId 5 0 ++ beBytes 10 0 ++ beBytes 2 0 ++ beBytes 1 0 ++ beBytes 1 (d.get (R.TIM.SEG_CTL.PRIO1 k))
              ++ beBytes 1 248 ++ beBytes 1 0xfe ++ beBytes 2 0xffff ++ beBytes 1 (d.get (R.TIM.SEG_CTL.PRIO2 k)) ++ clockId ++ beBytes 2 0
              ++ beBytes 1 0xa0 ++ beBytes 2 8 ++ beBytes 2 8 ++ clockId)
            (setSeg k { g with annDue := false, annId := (g.annId + 1) % 65536 } d)
        else if cs.isEmpty then d
        else fire d

/-- A command leaves the pending table. -/
def dropCmd (c : FireCmd) (d : Dev) : Dev := { d with vrd := { d.vrd with pend := d.vrd.pend.filter (fun x => !(x.seq == c.seq && x.seg == c.seg)) } }

/-- A command freed without acknowledgement (R339, R340). -/
def unconfirmed (k : Nat) (c : FireCmd) (d : Dev) : Dev :=
  logEv 0x1103 k 2 (c.obj % 2 ^ 32 + c.node * 2 ^ 32 + c.out * 2 ^ 40 + k * 2 ^ 48) (t1sPerf k 6 1 (t1sStat k 6 1 (dropCmd c d)))

/-- A command that is given up unsent (R338, R347). -/
def missed (c : FireCmd) (d : Dev) : Dev := logEv 0x108a 0 2 c.obj (cmdMissed (dropCmd c d))

/-- One command at the start of an opportunity of segment k (R338, R339). -/
def checkCmd (k : Nat) (c : FireCmd) (d : Dev) : Dev :=
  if c.kind != 1 then d
  else
    let left := d.until' c.time
    if left < (d.get R.VRD.RETX_MIN.US : Int) * 65536000 then
      if c.sent.contains k then unconfirmed k c d else if c.sent.isEmpty then missed c d else d
    else if c.sent.isEmpty && decide (left < (d.get R.VRD.LEAD.US : Int) * 65536000) && !bit c.flags 1 then
      let d := { d with vrd := { d.vrd with pend := d.vrd.pend.map (fun (x : FireCmd) =>
        if x.seq = c.seq ∧ x.seg = c.seg then { x with flags := x.flags ||| 2 } else x) } }
      fireLate d
    else d

/-- What an opportunity of a segment does (R337 to R339). -/
def opportunity (k : Nat) (d : Dev) : Dev :=
  let d := each (checkCmd k) (d.vrd.pend.filter (d.onSeg k)) d
  fillFrames k (d.get (R.T1S.SEG_CTL.MAX_BC k) + 1) 0 [] d

/-- A beacon, and the cycle that it ends (R336). -/
def beacon (k : Nat) (d : Dev) : Dev :=
  let g := d.segS k
  let d := match g.beaconAt with
    | none => d
    | some t =>
      let bt := (dtDiff d.dt t).toNat / 6553600
      let d := peak (R.T1S.CYCLE.PEAK_US k) (min 65535 (cdiv bt 10)) d
      when (decide (g.cmax < bt)) (fun d => t1sPerf k 7 1 (t1sStat k 7 1 (event 0x11 (R.T1S.SEG_STATUS.SEQ k) [R.T1S.SEG_STATUS.CYCLE_OVR k] d))) d
  emit (.beacon k) (setSeg k { d.segS k with beaconAt := some d.dt } d)

/-- `TRANSMIT_OPPORTUNITY` (R337); in STANDBY a segment sends only its beacon (R489). -/
def execTransmitOpportunity (k : Fin 8) (s : State) : Host.Outcome State Fault Refusal :=
  total (fun _ d =>
    if d.get (R.T1S.SEG_STATUS.STATE k.val) = 1 then
      let d := beacon k.val d
      if d.get R.PWR.STATUS.STATE = 3 then d else opportunity k.val d
    else d) s

/-- `CSMA_TRANSMIT` (R347). -/
def execCsmaTransmit (k : Fin 8) (s : State) : Host.Outcome State Fault Refusal :=
  total (fun _ d =>
    if d.get (R.T1S.SEG_STATUS.STATE k.val) = 2 ∧ d.get R.PWR.STATUS.STATE ≠ 3 then opportunity k.val d else d) s

/-! ## Received frames (R339, R344, R346, R347) -/

/-- A segment receives: it is in PLCA or CSMA. -/
def Dev.segUp (d : Dev) (k : Nat) : Bool := d.get (R.T1S.SEG_STATUS.STATE k) == 1 || d.get (R.T1S.SEG_STATUS.STATE k) == 2

/-- A stranger (R346). -/
def stranger (k src : Nat) (d : Dev) : Dev :=
  let d := t1sPerf k 0xa 1 (t1sStat k 12 1 (event 0x11 (R.T1S.SEG_STATUS.SEQ k) [R.T1S.SEG_STATUS.STRANGER k] d))
  let quiet := match (d.segS k).strangerAt with
    | none => true
    | some t => decide (1000000000 * 65536 < dtDiff d.dt t)
  if quiet then logEv 0x118c k 2 src (setSeg k { d.segS k with strangerAt := some d.dt } d) else d

/-- One acknowledged SEQ (R339). -/
def ackSeq (k q : Nat) (d : Dev) : Dev :=
  match d.vrd.pend.find? (fun c => d.onSeg k c && c.seq == q && !c.sent.isEmpty) with
  | some c => t1sPerf k 5 1 (t1sStat k 4 1 (dropCmd c d))
  | none => t1sStat k 5 1 d

/-- A valid status frame of a node (R339, R344). -/
def statusFrame (k n : Nat) (p : List Byte) (d : Dev) : Dev :=
  let d := t1sStat k 15 1 d
  let d := puts [(R.T1S.NODE.ST_LOCKED k n, fieldAt p 6 1 % 2), (R.T1S.NODE.SILENT k n, 0)] d
  let g := d.segS k
  let d := setSeg k { g with rxAt := KMap.put (fun _ => none) g.rxAt n (some d.dt), nstat := KMap.put (fun _ => []) g.nstat n (p.take 64) } d
  each (ackSeq k) ((List.range (min 16 (fieldAt p 3 1))).map (fun i => fieldAt p (32 + 2 * i) 2)) d

/-- A frame of EtherType 0x88B5 reaches a segment: a status frame of an enabled node entry, else a stranger (R346). -/
def rxStatus (k src : Nat) (p : List Byte) (d : Dev) : Dev :=
  let n := fieldAt p 4 1
  let form := decide (64 ≤ p.length) && fieldAt p 0 1 == 0x47 && fieldAt p 1 1 == 0x81 && decide (1 ≤ n ∧ n ≤ 31)
  if form && d.on (R.T1S.NODE.EN k n) then
    let d := when (d.get (R.T1S.NODE.MAC k n) == 0) (put (R.T1S.NODE.MAC k n) src) d
    if d.get (R.T1S.NODE.MAC k n) = src then statusFrame k n p d else stranger k src d
  else stranger k src d

/-- `STATUS_FRAME` (R339): the source MAC, first byte in bits [7:0], and the payload of a received frame. -/
def execStatusFrame (k : Fin 8) (src : BitVec 48) (payload : List Byte) (s : State) : Host.Outcome State Fault Refusal :=
  total (fun _ d => if d.segUp k.val then rxStatus k.val src.toNat payload d else d) s

/-- `STRANGER` (R346): a received Announce of another clock also sets FOREIGN where the device is grandmaster (R84). -/
def execStranger (k : Fin 8) (src : BitVec 48) (announce : Bool) (s : State) : Host.Outcome State Fault Refusal :=
  total (fun _ d =>
    let k := k.val
    if d.segUp k then
      stranger k src.toNat (when (announce && d.on (R.TIM.SEG_CTL.EN k)) (event 7 (R.TIM.SEG_STATUS.SEQ k) [R.TIM.SEG_STATUS.FOREIGN k]) d)
    else d) s

/-- `PDELAY_REQ` (R84): a Pdelay_Req with its port identity and sequence number; its answers are owed. -/
def execPdelayReq (k : Fin 8) (ident : BitVec 80) (seqId : BitVec 16) (s : State) : Host.Outcome State Fault Refusal :=
  total (fun _ d =>
    if d.segUp k.val && d.on (R.TIM.SEG_CTL.EN k.val) then
      let g := d.segS k.val
      let q : PdReq := { ident := ident.toNat, seqId := seqId.toNat, dt := unsgn 64 ((d.dt : Int) + (d.fresh % 1310721 : Nat) - 655360) }
      takeFree (setSeg k.val { g with resp := g.resp ++ [q] } d)
    else d) s

/-- Sync and Announce are sent: the segment runs and the device is in RUN (R84). -/
def Dev.ptpOn (d : Dev) (k : Nat) : Bool := d.segUp k && d.on (R.TIM.SEG_CTL.EN k) && d.get R.PWR.STATUS.STATE == 1

/-- `SYNC` (R84): at the interval of 2^-n s. -/
def execSync (k : Fin 8) (s : State) : Host.Outcome State Fault Refusal :=
  total (fun _ d =>
    if !d.ptpOn k.val then d
    else
      let d := match (d.segS k.val).syncAt with
        | none => d
        | some t => reach (unsgn 64 ((t : Int) + (1000000000 * 65536 / 2 ^ d.get (R.TIM.SEG_CTL.SYNC_N k.val) : Nat))) d
      setSeg k.val { d.segS k.val with syncDue := true, syncAt := some d.dt } d) s

/-- `ANNOUNCE` (R84): every second. -/
def execAnnounce (k : Fin 8) (s : State) : Host.Outcome State Fault Refusal :=
  total (fun _ d =>
    if !d.ptpOn k.val then d
    else
      let d := match (d.segS k.val).annAt with
        | none => d
        | some t => reachNs t 1000000000 d
      setSeg k.val { d.segS k.val with annDue := true, annAt := some d.dt } d) s

/-! ## Cancels and sweeps (R340, R341) -/

/-- The enabled nodes that a segment or pair serves. -/
def Dev.nodesOf (d : Dev) (k : Nat) : List Nat :=
  ((List.range 31).map (· + 1)).filter (fun n => (d.carriers k).any (fun j => d.on (R.T1S.NODE.EN j n)))

/-- Every pending command is freed, and one cancel-all goes to every enabled node (R340). -/
def cancelAll (d : Dev) : Dev :=
  let d := { d with vrd := { d.vrd with pend := [] } }
  let segs := if d.on R.TOP.PROFILE_ACT.T1S_MODE then [0, 1, 2, 3] else List.range 8
  each (fun k d => each (fun n d => enterCmd { kind := 3, seg := k, node := n, out := 0, seq := 0 } d) (d.nodesOf k) d) segs d

/-- `CANCEL_ALL` (R340). -/
def execCancelAll (s : State) : Host.Outcome State Fault Refusal := total (fun _ d => cancelAll d) s

/-- The cancel that was first sent earliest is abandoned 10 ms after that (R340). -/
def cancelAbandon (d : Dev) : Dev :=
  let cs := d.vrd.pend.filterMap (fun c => if c.kind = 1 then none else c.first.map (fun t => (t, c)))
  match minBy (fun x => (dtDiff x.1 d.dt + 2 ^ 63).toNat) cs with
  | none => d
  | some (t, c) => unconfirmed (c.sent.getLastD c.seg) c (reachNs t 10000000 d)

/-- `CANCEL_ABANDON` (R340). -/
def execCancelAbandon (s : State) : Host.Outcome State Fault Refusal := total (fun _ d => cancelAbandon d) s

/-- One command for each enabled valve of the cleaning range (R341); a direct valve pulses its pin. -/
def sweepFrom (t : Nat) : List Valve → Nat → Dev → Dev
  | [], _, d => d
  | v :: vs, j, d =>
    let time := unsgn 48 ((t / 65536 : Nat) + (1000 * (d.get R.VRD.LEAD.US + j * d.get R.VRD.CLEAN.GAP_US) : Nat))
    let dur := d.get R.VRD.CLEAN.DUR_US
    let d := if v.direct then
        (if v.node < 16 ∧ d.get (R.VRD.FO_CTL.MODE v.node) = 1 then (pulseIn v.node { start := time - time % 1000, dur, obj := 0, valve := v.index } d).1 else d)
      else (fireCmd { kind := 1, seg := v.seg, node := v.node, out := v.out, flags := 4, seq := 0, dur, time := time - time % 1000, valve := v.index } d).1
    sweepFrom t vs (j + 1) d

/-- A cleaning sweep starts at a firing DT (R341). -/
def cleanSweep (t : Nat) (d : Dev) : Dev :=
  let lo := d.get R.VRD.CLEAN_RNG.FIRST
  sweepFrom t (d.valves lo (min 4096 (lo + d.get R.VRD.CLEAN_RNG.COUNT))) 0 d

/-! ## States of a segment (R336, R347) -/

/-- C_max of a segment in bit times (R336). -/
def Dev.cycleBound (d : Dev) (k : Nat) : Nat :=
  let bc := d.get (R.T1S.SEG_CTL.MAX_BC k)
  20 + (bc + 1) * 4528 + bc * d.get (R.T1S.SEG_CTL2.BURST_TMR k)
    + (d.get (R.T1S.SEG_CTL.NC k) - 1) * max (d.get (R.T1S.SEG_CTL.TO_TMR k)) (8 * (d.get (R.T1S.SEG_CTL2.NODE_MAX k) + 20))

/-- A segment starts at start-up or a rebase (R336, R347). -/
def segStart (k : Nat) (d : Dev) : Dev :=
  let d := setSeg k { startAt := d.dt } d
  if !d.on (R.T1S.SEG_CTL.EN k) then put (R.T1S.SEG_STATUS.STATE k) 0 d
  else
    let c := d.cycleBound k
    let d := setSeg k { d.segS k with cmax := c } d
    let d := puts [(R.T1S.CYCLE.MAX_US k, min 65535 (cdiv c 10)), (R.T1S.SEG_STATUS.STATE k, 1)] d
    when (decide (d.get R.VRD.LEAD.US * 10 < 2 * c + 1000))
      (fun d => logEv 0x1101 k 2 c (event 0x11 (R.T1S.SEG_STATUS.SEQ k) [R.T1S.SEG_STATUS.SHORT_LEAD k] d)) d

/-- `FOREIGN_BEACON` (R347): a foreign beacon, or a collision in the device's own opportunity. -/
def execForeignBeacon (k : Fin 8) (collision : Bool) (s : State) : Host.Outcome State Fault Refusal :=
  total (fun _ d =>
    let k := k.val
    if !d.segUp k then d
    else
      let d := if collision then t1sPerf k 8 1 (t1sStat k 8 1 d)
        else t1sStat k 13 1 (event 0x11 (R.T1S.SEG_STATUS.SEQ k) [R.T1S.SEG_STATUS.FOREIGN_BCN k] d)
      let d := when (d.get (R.T1S.SEG_STATUS.STATE k) == 1) (fun d => t1sPerf k 0xb 1 (put (R.T1S.SEG_STATUS.STATE k) 2 d)) d
      setSeg k { d.segS k with causeAt := some d.dt, beaconAt := none } d) s

/-- `CSMA_RETURN` (R347): 10 ms without a cause. -/
def execCsmaReturn (k : Fin 8) (s : State) : Host.Outcome State Fault Refusal :=
  total (fun _ d =>
    match d.get (R.T1S.SEG_STATUS.STATE k.val), (d.segS k.val).causeAt with
    | 2, some t => put (R.T1S.SEG_STATUS.STATE k.val) 1 (setSeg k.val { d.segS k.val with causeAt := none } (reachNs t 10000000 d))
    | _, _ => d) s

/-- `SEGMENT_DOWN` (R347): the commands of a segment that nothing carries any more are missed. -/
def execSegmentDown (k : Fin 8) (s : State) : Host.Outcome State Fault Refusal :=
  total (fun _ d =>
    let k := k.val
    if !d.segUp k then d
    else
      let d := logEv 0x1102 k 3 0 (put (R.T1S.SEG_STATUS.STATE k) 3 d)
      if (d.carriers k).isEmpty then each missed (d.vrd.pend.filter (d.onSeg k)) d else d) s

/-- `SILENT` (R347): 300 ms without a status frame of a node. -/
def execSilent (k : Fin 8) (n : Fin 32) (s : State) : Host.Outcome State Fault Refusal :=
  total (fun _ d =>
    let k := k.val
    let n := n.val
    if !d.segUp k || n == 0 || !d.on (R.T1S.NODE.EN k n) || d.on (R.T1S.NODE.SILENT k n) then d
    else
      let t := (KMap.get (fun _ => (none : Option Nat)) (d.segS k).rxAt n).getD (d.segS k).startAt
      event 0x11 (R.T1S.SEG_STATUS.SEQ k) [R.T1S.SEG_STATUS.SILENT k] (put (R.T1S.NODE.SILENT k n) 1 (reachNs t 300000000 d))) s

/-- `PHY_ERROR` (R346): counter 8 collisions, 9 symbol errors, 10 jabber, 11 false carriers. -/
def execPhyError (k : Fin 8) (kind : Fin 4) (s : State) : Host.Outcome State Fault Refusal :=
  total (fun _ d =>
    let d := t1sStat k.val (8 + kind.val) 1 d
    when (decide (kind.val < 2)) (t1sPerf k.val (8 + kind.val) 1) d) s

end Sys2Proof.Machine
end

