-- ==== Sys2Proof/Machine/Registers.lean ====
section
/-!
DEFINITION. BAR0: where an access lands, which accesses are bus errors, how each field type takes a write and
answers a read, the table windows, and what a write of a unit's registers makes the unit do (R28 to R42).
-/

namespace Sys2Proof.Machine

/-! ## Where an access lands (R29 to R32) -/

/-- The windows of BAR0 that are not registers. -/
inductive WinId where
  | mailbox | logWin | metaWin | camstat | lut | track | pool | fusKernel | fusMap | clsProj | clsRules | clsNodes | clsLeaves
  | clsLut | vrdRules | vrdMap | vrdZones | weights | nodeStat | msixTable | pba
deriving DecidableEq, Repr

/-- The windows of an instance of the block with this code: first offset and bytes. -/
def windowsOf (code : Nat) : List (WinId × Nat × Nat) :=
  match code with
  | 3 => [(.mailbox, 0x4000, 0x4000), (.logWin, 0x10000, 0x10000)]
  | 9 => [(.metaWin, 0x400, 0x100), (.camstat, 0x500, 0x20)]
  | 10 => [(.lut, 0x8000, 0x2004), (.track, 0x10000, 0x4000), (.pool, 0x20000, 0x20000)]
  | 11 => [(.fusKernel, 0x80000, 0x200), (.fusMap, 0x100000, 0x60000)]
  | 12 => [(.clsProj, 0x10000, 0x200), (.clsRules, 0x20000, 0x800), (.clsNodes, 0x30000, 252), (.clsLeaves, 0x30100, 0x100), (.clsLut, 0x40000, 0x20000)]
  | 15 => [(.weights, 0x100000, 0x100000)]
  | 16 => [(.vrdRules, 0x10000, 0x1000), (.vrdMap, 0x20000, 0x10000), (.vrdZones, 0x30000, 0x80)]
  | 17 => [(.nodeStat, 0x1040, 31 * 0x40)]
  | 20 => [(.msixTable, 0x20000, 0x400), (.pba, 0x21000, 8)]
  | _ => []

/-- Where the word at a BAR0 offset lies. -/
inductive Site where
  | reg (base : Nat) (blk : BlockDef) (inst : Nat) (r : RegDef) (addr : Nat)  -- `addr`: BAR0 offset of the register
  | win (base : Nat) (blk : BlockDef) (inst : Nat) (w : WinId) (off : Nat)    -- `off`: byte offset in the window
  | snap (base : Nat) (r : Option (RegDef × Nat))                            -- snapshot window: the register and its offset
  | none
deriving DecidableEq, Repr

/-- The site of the word at a 4-byte aligned BAR0 offset. -/
def siteOf (a : Nat) : Site :=
  match findBlock blocks a with
  | .none => .none
  | some (b, inst, off) =>
    let base := instBase b inst
    if b.stride / 2 ≤ off then
      .snap base (((findReg b.regs (off - b.stride / 2)).filter (fun r => r.1.snap)).map (fun r => (r.1, a - b.stride / 2 - r.2)))
    else
      match findReg b.regs off with
      | some (r, at') => .reg base b inst r (a - at')
      | .none =>
        match (windowsOf b.code).find? (fun w => decide (w.2.1 ≤ off ∧ off < w.2.1 + w.2.2)) with
        | some w => .win base b inst w.1 (off - w.2.1)
        | .none => .none

/-- The first address of the block instance in which a site lies. -/
def Site.base : Site → Option Nat
  | .reg b .. => some b
  | .win b .. => some b
  | .snap b _ => some b
  | .none => .none

/-- The site is an aligned 64-bit pair that starts at this offset. -/
def Site.pairAt (a : Nat) : Site → Bool
  | .reg _ _ _ r addr => r.pair && addr == a
  | .snap base (some (r, addr)) => r.pair && decide (base ≤ addr) && a % 8 == 0 && (match siteHalf base a with | some x => x == addr | .none => false)
  | _ => false
where
  /-- The offset of the register that a snapshot offset copies. -/
  siteHalf (base a : Nat) : Option Nat :=
    (findBlock blocks base).map (fun b => a - b.1.stride / 2)

/-- The PWR or CAL block: RWP, in the slow domain. -/
def slowBusy (code : Nat) : Option Fld := if code = 4 then some R.PWR.BUSY.BUSY else if code = 5 then some R.CAL.BUSY.BUSY else none

/-- The bus error kind of a BAR0 write, if it is one (R32, R33). -/
def writeErr (d : Dev) (a size : Nat) : Option Nat :=
  if size < 4 then some 1
  else if size ≠ 4 ∧ size ≠ 8 then some 3
  else if a % size ≠ 0 then some 2
  else
    let s := siteOf a
    if size = 8 ∧ !s.pairAt a then some 3
    else
      match s with
      | .none => some 4
      | .snap .. => some 8
      | .reg _ b .. =>
        match slowBusy b.code with
        | some f => if d.on f then some 6 else none
        | .none => none
      | .win .. => none

/-- The bus error kind of a BAR0 read, if it is one (R30, R32). DESIGN CHOICE (log entry 79): R47 lets other locations of a
snapshot window read 0 without a bus error, and R32 makes every 8-byte access to a location that is no aligned pair one;
an 8-byte read of a snapshot window where no pair is copied is taken as the latter. -/
def readErr (a size : Nat) : Option Nat :=
  if size ≠ 1 ∧ size ≠ 2 ∧ size ≠ 4 ∧ size ≠ 8 then some 3
  else if a % size ≠ 0 then some 2
  else
    let s := siteOf (a / 4 * 4)
    if size = 8 ∧ !s.pairAt a then some 3
    else match s with | .none => some 4 | _ => none

/-! ## Reading (R30, R31, R35) -/

/-- STANDBY of context 0 of a lathe, which reads 0 (R196). -/
def Dev.latheHomeStandby (_ : Dev) (addr lo : Nat) : Bool :=
  decide (0x400000 ≤ addr ∧ addr < 0x800000 ∧ addr % 0x80000 = 0x100 ∧ lo = 1)

/-- What a read of a field shows (R35, R38): an RWB field its last written value, an RWP field its landed one. -/
def Dev.showField (d : Dev) (addr : Nat) (f : FieldDef) : Nat :=
  match f.ty with
  | .wo | .cmd => 0
  | .rwb => if d.latheHomeStandby addr f.lo then 0 else d.lastWritten ⟨addr, f.lo, f.w⟩
  | _ => d.get ⟨addr, f.lo, f.w⟩

/-- A register whose value comes from outside the model: the pins that GPIO_IN samples (R516), or a count of clocks, which
are those of LOAD of a lathe, of a counter with event code 0 and the front-starved and back-bound slots of a pipeline block (R49 to R51).
Its value is free. -/
def Dev.countsClocks (d : Dev) (addr : Nat) : Bool :=
  if addr = 0x3110 then true else
  match findBlock blocks addr with
  | none => false
  | some (b, _, o) =>
    (decide (0xf40 ≤ o ∧ o < 0xf80) && perfSel d (addr - o) ((o - 0xf40) / 8) == 1024)
      || (b.code == 10 && o == 0x1c) || ((o == 0xf90 || o == 0xf98) && decide (9 ≤ b.code ∧ b.code ≤ 15))

/-- The level at the ball of a pin that GPIO drives; none where another driver sets it (R513 to R516). -/
def Dev.gpioLevel (d : Dev) (i : Nat) : Option Bool :=
  let f := d.get (R.TOP.PINMUX.FUNC i)
  if (f = 1 ∨ (f = 0 ∧ 43 ≤ i)) ∧ bit (d.get R.TOP.GPIO_OE.OE) i = true ∧ d.pinHolder i = some 14 then
    some (bit (d.get R.TOP.GPIO_OUT.OUT) i)
  else none

/-- The levels of all pins; those that GPIO does not drive are free. -/
def Dev.gpioIn (d : Dev) : Nat :=
  sumNat ((List.range 48).map (fun i => if (d.gpioLevel i).getD (bit d.fresh i) then 2 ^ i else 0))

/-- Registers whose value other state gives: DT (R60), its epoch, and the age of CAM_STATUS (R166). -/
def Dev.liveReg (d : Dev) (addr : Nat) : Option Nat :=
  if addr = 0x100000 then some d.dt
  else if addr = 0x100008 then some d.tim.epoch
  else if 0x300000 ≤ addr ∧ addr < 0x3c0000 ∧ addr % 0x10000 = 0x210 then
    let p := d.portS ((addr - 0x300000) / 0x10000)
    some (if p.statSeen then min (2 ^ 32 - 1) ((d.fullNs - p.statFull) / 1000) else 0)
  else if addr = 0x3110 then some d.gpioIn
  else if d.countsClocks addr then some (d.fresh % (if addr % 0x80000 = 0x1c then 2 ^ 16 else 2 ^ 48))
  else none

/-- The value of a register: 64 bits for a pair. -/
def Dev.regValue (d : Dev) (r : RegDef) (addr : Nat) : Nat :=
  match d.liveReg addr with
  | some v => v
  | none => sumNat (r.fields.map (fun f => d.showField addr f * 2 ^ f.lo))

/-- The 32 bytes of a log entry (R454). -/
def LogEntry.bytes (e : LogEntry) : List Byte :=
  let b := leBytes 8 e.dt ++ leBytes 4 e.lseq ++ leBytes 2 e.code ++ leBytes 2 e.inst ++ leBytes 1 e.sev ++ leBytes 1 e.flags ++ leBytes 2 e.count ++ leBytes 8 e.data
  b ++ leBytes 4 (crc32c b)

/-- An entry of the on-die log ring. -/
def Dev.logAt (d : Dev) (slotNo : Nat) : Option LogEntry := (d.log.find? (fun e => e.1 == slotNo)).map Prod.snd

/-- A word of a list of bytes; 0 beyond its end. -/
def wordAt (bs : List Byte) (off : Nat) : Nat := fieldAt bs off 4

/-- Bank unit and word key of a table window at a word offset; none where `TBL_SEL` names no context. -/
def Dev.tableKey (d : Dev) (w : WinId) (inst off : Nat) : Option (Nat × Nat) :=
  match w with
  | .lut => if d.get (R.LTH.TBL_SEL.CTX inst) < 3 then some (inst, lutWord (d.get (R.LTH.TBL_SEL.CTX inst)) (d.get (R.LTH.TBL_SEL.PLANE inst)) (off / 4)) else none
  | .pool => some (inst, 32768 * d.get (R.LTH.TBL_SEL.PAGE inst) + off / 4)
  | .fusKernel => some (8, off / 4)
  | .fusMap => some (8, 128 + off / 4)
  | .clsProj => some (9, off / 4)
  | .clsRules => some (9, 1024 + off / 4)
  | .clsNodes => some (9, 2048 + off / 4)
  | .clsLeaves => some (9, 2112 + off / 4)
  | .clsLut => some (9, 4096 + off / 4)
  | .vrdRules => some (10, off / 4)
  | .vrdMap => some (10, 1024 + off / 4)
  | .vrdZones => some (10, 17408 + off / 4)
  | _ => none

/-- `TBL_SEL.BANK` of a unit: 1 reads the active bank. -/
def tblBank (u : Nat) : Fld :=
  if u < 8 then R.LTH.TBL_SEL.BANK u else if u = 8 then R.FUS.TBL_SEL.BANK else if u = 9 then R.CLS.TBL_SEL.BANK else R.VRD.TBL_SEL.BANK

/-- A word of a window. -/
def Dev.winWord (d : Dev) (w : WinId) (inst off : Nat) : Nat :=
  match w with
  | .mailbox => leVal ((List.range 4).map (fun i => KMap.get (fun _ => 0#8) d.mgt.mbx (off + i)))
  | .logWin =>
    match d.logAt (2048 * d.get R.MGT.LOG_CTL.PAGE + off / 32) with
    | some e => wordAt e.bytes (off % 32)
    | none => 0
  | .metaWin => wordAt (d.portS inst).metaBytes off
  | .camstat => wordAt (d.portS inst).camstat off
  | .track => (List.range 2).foldl (fun v i => v + 65536 ^ i * d.tgain inst (off / 2 + i)) 0
  | .weights => num d.crv.weights (262144 * d.get R.CRV.WPAGE.PAGE + off / 4)
  | .nodeStat => wordAt (KMap.get (fun _ => ([] : List Byte)) (d.segS inst).nstat (1 + off / 64)) (off % 64)
  | .msixTable => d.msixWord (off / 4)
  | .pba => sumNat ((List.range 32).map (fun i => b2n (flag d.dma.pba (8 * off + i)) * 2 ^ i))
  | _ =>
    match d.tableKey w inst off with
    | some (u, k) => if d.on (tblBank u) then d.actWord u k else d.shdWord u k
    | none => 0

/-- A word of the snapshot copy of a register. -/
def Dev.copyWord (d : Dev) (r : RegDef) (addr hi : Nat) : Nat :=
  let v := sumNat (r.fields.map (fun f => num d.snap.copies (Fld.key ⟨addr, f.lo, f.w⟩) * 2 ^ f.lo))
  bits v (32 * hi) 32

/-- In service mode only domains 0, 1, 2 and 38 are up: registers of the others read 0 (R474, R475). -/
def Dev.dark (d : Dev) (code : Nat) : Bool :=
  d.get R.TOP.STATE.MODE == 3 && decide (8 ≤ code) && code != 0x13 && code != 0x14

/-- The value that a read of `size` bytes finds. -/
def Dev.peekAt (d : Dev) (a size : Nat) : Nat :=
  let w := a / 4 * 4
  let word := match siteOf w with
    | .reg _ b _ r addr => if d.dark b.code then 0 else if size = 8 then d.regValue r addr else bits (d.regValue r addr) (8 * (w - addr)) 32
    | .win _ b inst id off => if d.dark b.code then 0 else d.winWord id inst off
    | .snap base (some (r, addr)) =>
      let lowAt := match findBlock blocks base with | some b => addr + b.1.stride / 2 | none => w
      if size = 8 then d.copyWord r addr 0 + 2 ^ 32 * d.copyWord r addr 1 else d.copyWord r addr ((w - lowAt) / 4)
    | _ => 0
  if size = 8 then word else word / 2 ^ (8 * (a - w)) % 2 ^ (8 * size)

/-- The latch of a block instance. -/
def Dev.latchOf (d : Dev) (base : Nat) : Option (Nat × Nat) := KMap.get (fun _ => (none : Option (Nat × Nat))) d.latch base

/-- Sets or discards the latch of a block instance. -/
def setLatch (base : Nat) (v : Option (Nat × Nat)) (d : Dev) : Dev := { d with latch := KMap.put (fun _ => none) d.latch base v }

/-- An access to a block instance discards its latches (R31, R89). -/
def dropLatch (base : Nat) (d : Dev) : Dev :=
  let d := setLatch base none d
  if base = 0x100000 then { d with epochLatch := none } else d

/-- An access at a BAR0 offset that ends in a bus error discards the latches of the block instance that it addresses (R31). -/
def dropLatchAt (a : Nat) (d : Dev) : Dev :=
  match findBlock blocks a with
  | some (b, inst, _) => dropLatch (instBase b inst) d
  | none => d

/-- The low word of a pair at `w`, in a register or in its snapshot copy. -/
def lowOfPair (w : Nat) : Bool := (siteOf w).pairAt w

/-- A BAR0 read: what it returns and which latches it takes, uses and discards (R30, R31, R89). -/
def readAt (a size : Nat) (d : Dev) : Nat × Dev :=
  let w := a / 4 * 4
  match (siteOf w).base with
  | none => (0, d)
  | some base =>
    let old := d.latchOf base
    let epoch := d.epochLatch
    let d0 := when (d.countsClocks w) takeFree (dropLatch base d)
    let keepEpoch (d : Dev) : Dev := if w = 0x100000 then { d with epochLatch := some d.tim.epoch } else d
    if size = 8 then (d.peekAt a 8, keepEpoch d0)
    else if lowOfPair w then (d.peekAt a size, keepEpoch (setLatch base (some (w + 4, d.peekAt (w + 4) 4)) d0))
    else if w = 0x100004 then
      let v := match old with | some (x, v) => if x = w then v else d.peekAt w 4 | none => d.peekAt w 4
      (v / 2 ^ (8 * (a - w)) % 2 ^ (8 * size), { d0 with epochLatch := epoch })
    else if w = 0x100008 then ((epoch.getD d.tim.epoch) / 2 ^ (8 * (a - w)) % 2 ^ (8 * size), d0)
    else
      match old with
      | some (x, v) => if x = w then (v / 2 ^ (8 * (a - w)) % 2 ^ (8 * size), d0) else (d.peekAt a size, d0)
      | none => (d.peekAt a size, d0)

/-! ## Writing a field (R35 to R40) -/

/-- A write of a value with given bits over what a field holds. -/
def mixField (old : Nat) (f : FieldDef) (lo n v : Nat) : Nat := bits (setBits (old * 2 ^ f.lo) lo n v) f.lo f.w

/-- Bits `[lo, lo + n)` of a register reach a field. -/
def touches (f : FieldDef) (lo n : Nat) : Bool := decide (f.lo < lo + n ∧ lo < f.lo + f.w)

/-- One field takes a write by its type; `now` applies an RWB or RWP field at once (R480). -/
def writeField (now : Bool) (addr lo n v : Nat) (f : FieldDef) (d : Dev) : Dev :=
  if !touches f lo n then d
  else
    let x : Fld := ⟨addr, f.lo, f.w⟩
    let y := mixField (d.lastWritten x) f lo n v
    match f.ty with
    | .rw => put x y d
    | .rwb => if now || f.bnd == .imm then put x y { d with rwb := KMap.put (fun _ => none) d.rwb x.key none }
              else { d with rwb := KMap.put (fun _ => none) d.rwb x.key (some y) }
    | .rwp => if now then put x y d else { d with rwp := KMap.put (fun _ => none) d.rwp x.key (some y) }
    | _ => d

/-- Writing back SEQ clears the status fields of an RSQ register if SEQ still matches (R40). -/
def rsqWrite (r : RegDef) (addr lo n v : Nat) (d : Dev) : Dev :=
  let rsq := r.fields.filter (fun f => f.ty == .rsq)
  if rsq.isEmpty || !decide (lo ≤ 24 ∧ 32 ≤ lo + n) then d
  else if d.get ⟨addr, 24, 8⟩ = bits (setBits 0 lo n v) 24 8 then
    each (fun (f : FieldDef) => put ⟨addr, f.lo, f.w⟩ 0) (rsq.filter (fun f => f.lo != 24)) d
  else d

/-- A register takes a write of `n` bits from bit `lo`. -/
def writeReg (now : Bool) (r : RegDef) (addr lo n v : Nat) (d : Dev) : Dev :=
  rsqWrite r addr lo n v (each (writeField now addr lo n v) r.fields d)

/-- The posted writes of a slow-domain block land (R38). -/
def landPosted (base : Nat) (d : Dev) : Dev :=
  let hit (k : Nat) : Bool := decide (base ≤ k / 64 ∧ k / 64 < base + 0x20000)
  { d with
      regs := d.rwp.foldl (fun r e =>
        match e.2 with
        | some v => if hit e.1 then KMap.put resetOf r e.1 v else r
        | none => r) d.regs
      rwp := d.rwp.filter (fun e => !hit e.1) }

/-! ## Writing a window -/

/-- A copy that covers a table word is running. -/
def Dev.copyCovers (d : Dev) (u key : Nat) : Bool :=
  if u < 8 then [0, 1, 2].any (fun c => d.on (R.LTH.TBL_CTL.COPY_BUSY u c) && tblCovers d (lthUnit u c) key)
  else if u = 8 then d.on R.FUS.TBL_CTL.COPY_BUSY
  else if u = 9 then d.on R.CLS.TBL_CTL.COPY_BUSY
  else d.on R.VRD.TBL_CTL.COPY_BUSY

/-- Two tracking gains are written: they land at the next line of their context, or at once from an image (R180, R185). -/
def writeTrack (image : Bool) (n off v : Nat) (d : Dev) : Dev :=
  let x := d.lthS n
  let two (f : Nat → Nat → LthS → LthS) : LthS := (List.range 2).foldl (fun x i => f (off / 2 + i) (bits v (16 * i) 16) x) x
  if image then setLth n (two (fun z g x => { x with tg := KMap.put (fun _ => 0x4000) x.tg z g })) d
  else setLth n (two (fun z g x => { x with tgNew := KMap.put (fun _ => none) x.tgNew z (some g) })) d

/-- Network slots whose blob covers a weight SRAM byte while the slot is in use: their scores are unpredictable from
then on (R308). -/
def taintBlobs (a : Nat) (d : Dev) : Dev :=
  each (fun n d =>
    let x := d.blob n
    let b := d.get (R.CRV.NET_BASE.OFFSET n)
    if d.get (R.CRV.NET_CTL.PENDING n) ≠ 0 ∧ b ≤ a ∧ a < b + 64 + 32 * x.nLayers + x.wBytes then
      { d with crv := { d.crv with tainted := setFlag n true d.crv.tainted } }
    else d) [0, 1, 2, 3] d

/-- A word of a window is written; read-only windows ignore it. -/
def writeWin (image : Bool) (w : WinId) (inst off v : Nat) (d : Dev) : Host.Outcome Dev Fault Refusal :=
  match w with
  | .mailbox => .next { d with mgt := { d.mgt with mbx := putBytes d.mgt.mbx off (leBytes 4 v) } }
  | .track => .next (writeTrack image inst off v d)
  | .weights =>
    let k := 262144 * d.get R.CRV.WPAGE.PAGE + off / 4
    .next { taintBlobs (4 * k) d with crv := { (taintBlobs (4 * k) d).crv with weights := setNum k (v % 2 ^ 32) d.crv.weights } }
  | .msixTable => .next (msixWrite (off / 4) v d)
  | .logWin | .metaWin | .camstat | .nodeStat | .pba => .next d
  | _ =>
    match d.tableKey w inst off with
    | some (u, k) =>
      let v := if w = .lut ∧ off = 0x2000 then v % 65536 else v % 2 ^ 32
      .next (if image then bankImage u k v d else bankWrite u (d.copyCovers u k) k v d)
    | none => .fault (.hostError "TBL_SEL.CTX names no context")

/-! ## Commands of TOP, SNP, MGT and RAS that a write gives -/

/-- `SNP.CMD.ARM` is taken while STATE is idle (R45, R46). -/
def snapArm (d : Dev) : Dev :=
  if d.get R.SNP.STATUS.STATE = 0 then put R.SNP.STATUS.STATE 1 (put R.SNP.ID.DROPPED 0 d) else d

/-- `SNP.RELEASE.GO` releases a held snapshot (R45). -/
def snapRelease (d : Dev) : Dev := if d.get R.SNP.STATUS.STATE = 3 then put R.SNP.STATUS.STATE 0 d else d

/-- A write of `SNP.CMD`: a trigger in the clock of an ARM is dropped and counted (R46). DESIGN CHOICE (log entry 79): also
where the ARM itself is ignored because STATE is armed, pending or held, the trigger of the same write is counted in
DROPPED, though R46 says of an ignored ARM write that it leaves DROPPED unchanged. -/
def snapCmd (arm trig : Bool) (d : Dev) : Dev :=
  if arm then when (trig && bit (d.get R.SNP.CTL.SRC_EN) 0) (incSat R.SNP.ID.DROPPED 1) (snapArm d)
  else when trig (snapTrigger 0) d

/-- Bytes of the mailbox buffer. -/
def Dev.mbxBytes (d : Dev) (off n : Nat) : List Byte := (List.range n).map (fun i => KMap.get (fun _ => 0#8) d.mgt.mbx (off + i))

/-- A little-endian field of the mailbox buffer. -/
def Dev.mbxField (d : Dev) (off n : Nat) : Nat := leVal (d.mbxBytes off n)

/-- The response to the mailbox command under way (R460). -/
def mbxRespond (status : Nat) (payload : List Byte) (d : Dev) : Dev :=
  let bs := leBytes 2 (d.mbxField 0 2) ++ leBytes 2 status ++ leBytes 4 (d.mbxField 4 4) ++ leBytes 4 payload.length ++ leBytes 4 0 ++ payload
  let d := { d with mgt := { d.mgt with mbx := putBytes d.mgt.mbx 0 bs } }
  event 3 R.MGT.STATUS.SEQ [R.MGT.STATUS.MBX_DONE] (put R.MGT.MBX_STATUS.BUSY 0 d)

/-- The mailbox commands of R461. -/
def mbxCodes : List Nat := [0x01, 0x02, 0x03, 0x10, 0x11, 0x12, 0x13, 0x14, 0x20, 0x21, 0x22, 0x30, 0x31, 0x40]

/-- `MBX_CTL.GO` (R460): BUSY, until the row of the command runs; a command that R461 does not list is answered at
once. A GO while BUSY is ignored and counted. -/
def mbxGo (d : Dev) : Dev :=
  let d := inc (R.MGT.STAT.COUNT 0) 1 d
  if d.on R.MGT.MBX_STATUS.BUSY then d
  else
    let d := mgtPerf 5 1 (put R.MGT.MBX_STATUS.BUSY 1 d)
    if mbxCodes.contains (d.mbxField 0 2) then d else mbxRespond 1 [] d

/-- The addresses that a record reaches (R479). -/
def ImgRec.addrs (r : ImgRec) : List Nat := (List.range (if r.op = 1 ∨ r.op = 2 then r.count else 1)).map (fun i => r.addr + 4 * i)

/-- The units whose banks stand under an address; none outside the table windows of LTH, FUS, CLS and VRD (R482). -/
def tableUnits (a : Nat) : List TblUnit :=
  match siteOf a with
  | .win _ b inst _ _ =>
    match b.code with
    | 10 => [lthUnit inst 0, lthUnit inst 1, lthUnit inst 2]
    | 11 => [.fus]
    | 12 => [.cls]
    | 16 => [.vrd]
    | _ => []
  | _ => []

/-- The units whose tables a recipe writes. -/
def recipeUnits (rs : List ImgRec) : List TblUnit := (rs.flatMap (fun r => r.addrs.flatMap tableUnits)).eraseDups

/-- A recipe of the store. -/
def Dev.recipe (d : Dev) (r : Nat) : List ImgRec := KMap.get (fun _ => []) d.rcp.store r

/-- A write of `TOP.RECIPE.NEXT` (R484, R485): the recipe in progress is abandoned; the new one loads, or is refused. -/
def recipeNext (d : Dev) : Dev :=
  let r := d.get R.TOP.RECIPE.NEXT
  let d := { d with rcp := { d.rcp with kept := [], loading := r } }
  if bit (d.get R.TOP.RECIPE.VALID) r then
    perf 4 0x80000 5 1 (each copyStart (recipeUnits (d.recipe r)) (put R.TOP.RECIPE.STATE 1 d))
  else event 0 R.TOP.RECIPE_STATUS.SEQ [R.TOP.RECIPE_STATUS.REFUSED] (put R.TOP.RECIPE.STATE 0 d)

/-- The unit that a `RAS.TEST` names exists (R444). -/
def testUnit (kind idx : Nat) : Bool :=
  match kind with
  | 1 => decide (idx < 136)
  | 2 | 3 => decide (idx < 8)
  | 4 => decide (idx < 16)
  | _ => false

/-- `RAS.TEST.GO`: the fault is injected, after a migration that runs (R443, R444). -/
def testGo (m : Mem) (d : Dev) : Host.Outcome Dev Fault Refusal :=
  let k := d.get R.RAS.TEST.KIND
  let i := d.get R.RAS.TEST.INDEX
  if !testUnit k i then .fault (.hostError "RAS.TEST names no unit")
  else
    let d := rasPerf 9 1 d
    .next (runTests m (d.ras.testQ ++ [(k, i)]) d)

/-! ## What a write makes a unit do -/

/-- The written bit i of a word, when the write reaches it. -/
def wroteBit (lo n v i : Nat) : Bool := decide (lo ≤ i ∧ i < lo + n) && bit (setBits 0 lo n v) i

/-- A compare unit is armed, or re-armed by a write of its time; a time that is not later than DT makes it fire late
in the next clock (R79). -/
def cmpArm (u : Nat) (d : Dev) : Dev :=
  { d with tim := { d.tim with cmpArmed := setFlag u (d.on (R.TIM.CMP_CTL.EN u) && dtGe d.dt (d.get (R.TIM.CMP_TIME.T u))) d.tim.cmpArmed } }

/-- `PRF.CTL.EN` starts or stops collection (R52). -/
def prfEnable (was : Bool) (d : Dev) : Dev :=
  if d.on R.PRF.CTL.EN then
    if was then d
    else { d with prf := { d.prf with nextDt := some (dtAddNs d.dt (clamp 1000 1000000000 (d.get R.PRF.PERIOD.NS) : Nat)) } }
  else { d with prf := { d.prf with nextDt := none } }

/-- A performance counter selection is written: it waits for the next taken boundary (R52). -/
def perfWritten (base n : Nat) (d : Dev) : Dev :=
  let p := d.perfS base
  setPerf base { p with rewritten := setFlag n true p.rewritten } d

/-- `TBL_CTL` of a unit: SWAP and COPY (R183). -/
def tblCtl (t : TblUnit) (lo n v : Nat) (d : Dev) : Dev :=
  when (wroteBit lo n v 1) (copyStart t) (when (wroteBit lo n v 0) (put (tblPend t) 1) d)

/-- What a write of the registers of one block instance starts, after the fields have taken it. `o` is the register's
offset in its instance, `old` the device before the write. -/
def unitEffect (code inst base o lo n v : Nat) (old d : Dev) : Host.Outcome Dev Fault Refusal :=
  let cmd (i : Nat) : Bool := wroteBit lo n v i
  if 0xf00 ≤ o ∧ o < 0xf20 then .next (perfWritten base ((o - 0xf00) / 4) d)
  else
    match code with
    | 0 => .next (if o = 0x270 ∧ lo = 0 then recipeNext d else d)
    | 1 => .next (if o = 4 then snapCmd (cmd 0) (cmd 1) d else if o = 8 ∧ cmd 0 then snapRelease d else d)
    | 2 => .next (if o = 0 then prfEnable (old.on R.PRF.CTL.EN) d else d)
    | 3 => .next (if o = 8 ∧ cmd 0 then mbxGo d else d)
    | 5 => .next (if o = 8 ∧ cmd 8 then calAsk (bits (setBits (old.lastWritten R.CAL.CMD.TARGET) lo n v) 0 6) d else d)
    | 7 =>
      .next (if o = 0x40 then ptmEnable (old.on R.TIM.PTM_CTL.EN) d
        else if o = 0x44 ∧ cmd 0 then ptmNow d
        else if o = 0x704 ∧ cmd 0 then batchEvent d
        else if 0x1000 ≤ o ∧ o < 0x1200 then
          (if o % 0x20 = 0 then (if old.on (R.TIM.CMP_CTL.EN ((o - 0x1000) / 0x20)) && d.on (R.TIM.CMP_CTL.EN ((o - 0x1000) / 0x20)) then d else cmpArm ((o - 0x1000) / 0x20) d)
           else if o % 0x20 = 8 then cmpArm ((o - 0x1000) / 0x20) d else d)
        else if 0x2000 ≤ o ∧ o < 0x2200 ∧ o % 0x40 = 4 ∧ cmd 0 then evtPop ((o - 0x2000) / 0x40) d
        else d)
    | 8 =>
      if o = 0 then
        let d := if old.get (R.LNE.CTL.RATE inst) = d.get (R.LNE.CTL.RATE inst) then laneRefresh inst d else retrainLane inst (laneRefresh inst d)
        let d := when (d.get R.PWR.STATUS.STATE == 1) (setDomain (29 + inst / 12) ((List.range 12).any (fun i => d.on (R.LNE.CTL.EN (inst / 12 * 12 + i))))) d
        if d.mixedQuad inst then .fault (.hostError "lanes of both rate families in one quad") else .next d
      else .next (if o = 4 then when (cmd 2) (commandRemove inst) (when (cmd 1 && isUplink inst) (restoreLane inst) (when (cmd 0) (retrainLane inst) d))
        else if o = 0x30 then laneRefresh inst d
        else if o = 0x48 ∧ cmd 3 then inject inst d
        else d)
    | 9 =>
      .next (if o = 4 then (if cmd 0 then relinkPort inst d else if cmd 1 then holdPort inst d else d)
        else if o = 0x48 ∨ o = 0x58 then (if cmd 0 then cregRequest inst ((o - 0x48) / 16) 5 d else if cmd 1 then cregRequest inst ((o - 0x48) / 16) 4 d else d)
        else d)
    | 10 => .next (if 0x100 ≤ o ∧ o < 0x280 ∧ o % 0x80 = 0x30 then tblCtl (lthUnit inst ((o - 0x100) / 0x80)) lo n v d else d)
    | 11 => .next (if o = 0x34 then tblCtl .fus lo n v d else d)
    | 12 => .next (if o = 0x44 then tblCtl .cls lo n v d else d)
    | 15 => .next (if 0x200 ≤ o ∧ o < 0x280 ∧ o % 0x20 = 0 ∧ cmd 1 then validateStart ((o - 0x200) / 0x20) d else d)
    | 16 => .next (if o = 0x48 then tblCtl .vrd lo n v d else if o = 0x50 ∧ cmd 0 then cancelAll d else d)
    | 0x13 =>
      let c := (o - 0x1000) / 0x100
      .next (if o = 0xc then flagSet (setBits 0 lo n v) d
        else if o < 0x1000 then d
        else match o % 0x100 with
          | 0 => if old.on (R.DMA.CH_CTL.EN c) == d.on (R.DMA.CH_CTL.EN c) then d else chEnable c d
          | 4 => when (cmd 1) (dmaHalt c) (when (cmd 2 && !cmd 1) (dmaStart c) (when (cmd 0) (dmaResume c) d))
          | 0x1c => tail c (d.get (R.DMA.CH_TAIL.COUNT c)) d
          | _ => d)
    | 0x15 =>
      if o = 8 then .next (when (cmd 1) recRelease (when (cmd 0) recTrigger d))
      else if o = 0x108 ∨ o = 0x128 then
        let e := (o - 0x108) / 0x20
        .next (when (cmd 2) (jobAbort e (cmd 1)) d)
      else .next d
    | _ => .next d

/-- The next outcome after one that went on. -/
def andThen (x : Host.Outcome Dev Fault Refusal) (f : Dev → Host.Outcome Dev Fault Refusal) : Host.Outcome Dev Fault Refusal :=
  match x with
  | .next d => f d
  | .fault r => .fault r
  | .refused r => .refused r

/-- Commands that read DRAM: START and RESUME of a job (R418), and an injected fault (R444). -/
def jobEffect (code o lo n v : Nat) (m : Mem) (d : Dev) : Host.Outcome Dev Fault Refusal :=
  if code = 0x15 ∧ (o = 0x108 ∨ o = 0x128) then
    let e := (o - 0x108) / 0x20
    if wroteBit lo n v 0 then jobStart e m d
    else if wroteBit lo n v 1 && !wroteBit lo n v 2 then .next (jobResume e m d)
    else .next d
  else if code = 6 ∧ o = 0x10 ∧ wroteBit lo n v 16 then testGo m d
  else .next d

/-- A write gives a field of a register a reserved code or a value outside its stated range (R34). -/
def outOfRange (code o : Nat) (r : RegDef) (addr lo n v : Nat) (d : Dev) : Bool :=
  r.fields.any (fun f => touches f lo n && (f.ty == .rw || f.ty == .rwb || f.ty == .rwp)
    && !settingOk code o f.lo f.reset (mixField (d.lastWritten ⟨addr, f.lo, f.w⟩) f lo n v))

/-- A write that is no bus error: the fields by their types, the table windows, and what the unit then does. `image`
marks a record of an image: RWB fields and tables take it at once, in both banks (R185, R480). -/
def writeAt (image : Bool) (a size v : Nat) (m : Mem) (d : Dev) : Host.Outcome Dev Fault Refusal :=
  match siteOf a with
  | .reg base b inst r addr =>
    let lo := 8 * (a - addr)
    let n := 8 * size
    let new := writeReg image r addr lo n v d
    if outOfRange b.code (addr - base) r addr lo n v d then .fault (.hostError "a reserved code, or a value outside the range of its field (R34)")
    else
    let new := if !image && r.fields.any (fun f => f.ty == .rwp && touches f lo n) then
        (match slowBusy b.code with | some f => put f 1 new | none => new) else new
    andThen (unitEffect b.code inst base (addr - base) lo n v d new) (jobEffect b.code (addr - base) lo n v m)
  | .win _ _ inst w off => writeWin image w inst off v d
  | _ => .next d

end Sys2Proof.Machine
end

