-- ==== Sys2Proof/Machine/Image.lean ====
section
/-!
DEFINITION. The configuration image: its layout (R476 to R479), its checks (R459), and the record applier
(R480 to R483).
-/

namespace Sys2Proof.Machine

/-! ## Layout (R476 to R479) -/

/-- Bytes of a sparse map from a key on; an unlisted byte is erased. -/
def sliceOf : Nat → Nat → KMap Byte → List Byte
  | 0, _, _ => []
  | n + 1, k, [] => 0xff#8 :: sliceOf n (k + 1) []
  | n + 1, k, (j, v) :: r => if j = k then v :: sliceOf n (k + 1) r else 0xff#8 :: sliceOf n (k + 1) ((j, v) :: r)

/-- The image of a slot: as many bytes as the slot table gives it. -/
def NvmDev.image (x : NvmDev) (n len : Nat) : List Byte := sliceOf len 0 (x.img n)

/-- One entry of the section table (R477). -/
structure Sect where
  ty : Nat
  off : Nat
  len : Nat
  crc : Nat
deriving DecidableEq, Repr

/-- The section table of an image. -/
def sectionsOf (b : List Byte) : List Sect :=
  (List.range (fieldAt b 6 2)).map (fun i =>
    let e := (b.drop (64 + 16 * i)).take 16
    { ty := fieldAt e 0 2, off := fieldAt e 4 4, len := fieldAt e 8 4, crc := fieldAt e 12 4 })

/-- The bytes of a section. -/
def Sect.bytes (b : List Byte) (s : Sect) : List Byte := (b.drop s.off).take s.len

/-- The bytes of the section of a type; none for an image without it. -/
def sectionOf (b : List Byte) (ty : Nat) : List Byte :=
  match (sectionsOf b).find? (fun s => s.ty == ty) with
  | some s => s.bytes b
  | none => []

/-- The records of a section (R479); false with them where a record has a reserved OP or is cut off. -/
def recordsOf : Nat → List Byte → List ImgRec × Bool
  | 0, b => ([], b.isEmpty)
  | fuel + 1, b =>
    if b.length < 8 then ([], true)
    else
      let op := fieldAt b 6 1
      let count := fieldAt b 4 2
      let words := if op = 1 then count else if op = 2 then 1 else 2
      let size := (8 + 4 * words + 7) / 8 * 8
      if op = 0 ∨ 4 < op ∨ b.length < 8 + 4 * words then ([], false)
      else
        let r : ImgRec := { addr := fieldAt b 0 4 % 2 ^ 25, count, op, cls := fieldAt b 7 1 % 8, words := (List.range words).map (fun i => fieldAt b (8 + 4 * i) 4) }
        let (rs, ok) := recordsOf fuel (b.drop size)
        (r :: rs, ok)

/-- The records of the section of a type. -/
def recordsIn (b : List Byte) (ty : Nat) : List ImgRec × Bool :=
  let s := sectionOf b ty
  recordsOf (s.length / 8 + 1) s

/-! ## The checks of R459 -/

/-- All zero: an unprogrammed root key hash. -/
def allZero (b : List Byte) : Bool := b.all (fun x => x == 0#8)

/-- The failing check of R459, or 0. `hash` is the fused root key hash. -/
def imageFails (hash : List Byte) (b : List Byte) : Nat :=
  let n := b.length
  let sig := b.drop (n - 136)
  let body := b.take (n - 136)
  if n < 200 ∨ 2 ^ 25 < n ∨ fieldAt b 0 4 ≠ 0x474d494c ∨ fieldAt b 4 2 ≠ 1 ∨ fieldAt b 8 4 ≠ n
      ∨ fieldAt sig 0 4 ≠ 0x4749534c then 1
  else if fieldAt b 12 4 ≠ 0x1248 ∨ (bit (fieldAt b 29 1) 0 ∧ fieldAt b 16 8 ≠ Config.serial) then 2
  else if !(sectionsOf b).all (fun s => decide (s.off + s.len ≤ n - 136) && crc32 (s.bytes b) == s.crc) then 3
  else if allZero hash || sha256 ((sig.drop 8).take 64) != hash then 4
  else if !ecdsaOk (beVal ((sig.drop 8).take 32)) (beVal ((sig.drop 40).take 32)) (beVal ((sig.drop 72).take 32))
      (beVal ((sig.drop 104).take 32)) (beVal (sha256 body)) then 5
  else 0

/-- The image bytes recorded for a slot. -/
def SlotTab.len (t : SlotTab) (n : Nat) : Nat := if n = 0 then t.len0 else t.len1

/-- The failing check of a slot's image as a device holds it. -/
def Dev.slotFails (d : Dev) (dev n : Nat) : Nat := imageFails d.rootHash ((d.nvmS dev).image n (d.slotTab.len n))

/-! ## The record applier (R480, R481) -/

/-- What a record leaves: the device, with true when a POLL timed out. -/
structure Applied where
  dev : Dev
  timeout : Bool := false
deriving DecidableEq, Repr

/-- A record that would raise a bus error is skipped and logged (R481). -/
def skipRecord (r : ImgRec) (d : Dev) : Dev := logFw 0x0309 0 2 r.addr d

/-- The busy flag of the slow-domain block under an address. -/
def busyAt (a : Nat) : Option Fld :=
  match siteOf a with
  | .reg _ b .. => slowBusy b.code
  | _ => none

/-- The posted write before has landed. -/
def settle (a : Nat) (d : Dev) : Dev :=
  match busyAt a with
  | some f => put f 0 d
  | none => d

/-- A write of `TOP.CMD` with REBASE = 1 and a KEY other than 0x4C58 (R32, R486). -/
def wrongKey (a v : Nat) : Bool := a == 0x264 && bit v 0 && bits v 16 16 != 0x4c58

/-- The words of a WRITE or FILL record. A WRITE does not wait for the busy flag of an RWP block: a word that meets
it raises a bus error, and whether the write before has landed by then is a free value. -/
def writeWords (r : ImgRec) (m : Mem) : Nat → List Nat → Dev → Host.Outcome Dev Fault Refusal
  | _, [], d => .next d
  | a, w :: ws, d =>
    let meets := r.op == 1 && (match busyAt a with | some f => d.on f | none => false)
    let late := meets && d.fresh % 2 == 0
    let d := if meets then takeFree d else d
    if late || wrongKey a w then .next (skipRecord r d)
    else
      let d := { settle a d with imgWord := KMap.put (fun _ => none) d.imgWord a (some w) }
      andThen (writeAt true a 4 w m d) (fun d =>
        writeWords r m (a + 4) ws (match busyAt a with | some f => put f 1 d | none => d))

/-- One record of an image or of a recipe that is applied as image records. -/
def applyRec (m : Mem) (r : ImgRec) (x : Applied) : Host.Outcome Applied Fault Refusal :=
  let d := x.dev
  if x.timeout then .next x
  else
    let bad := r.addrs.any (fun a => if r.op = 4 then (readErr a 4).isSome else (writeErr (settle a d) a 4).isSome)
    if bad then .next { x with dev := skipRecord r d }
    else
      let w0 := nth 0 r.words 0
      let w1 := nth 0 r.words 1
      let on (o : Host.Outcome Dev Fault Refusal) : Host.Outcome Applied Fault Refusal :=
        match o with
        | .next d => .next { x with dev := d }
        | .fault f => .fault f
        | .refused f => .refused f
      match r.op with
      | 1 => on (writeWords r m r.addr r.words d)
      | 2 => on (writeWords r m r.addr (List.replicate r.count w0) d)
      | 3 =>
        let d := settle r.addr d
        on (writeWords { r with op := 2 } m r.addr [(d.peekAt r.addr 4 &&& (2 ^ 32 - 1 - w0)) ||| (w1 &&& w0)] d)
      | _ =>
        let d := settle r.addr d
        if d.peekAt r.addr 4 &&& w0 = w1 then .next { x with dev := d }
        else
          let d := reachNs d.dt (1000 * r.count : Nat) d
          .next { dev := d, timeout := d.peekAt r.addr 4 &&& w0 != w1 }

/-- Records in order. -/
def applyRecs (m : Mem) : List ImgRec → Applied → Host.Outcome Applied Fault Refusal
  | [], x => .next { x with dev := put R.PWR.BUSY.BUSY 0 (put R.CAL.BUSY.BUSY 0 x.dev) }
  | r :: rs, x =>
    match applyRec m r x with
    | .next x => applyRecs m rs x
    | .fault f => .fault f
    | .refused f => .refused f

/-- The records of a section; a reserved OP in it is a host error. -/
def applySection (m : Mem) (b : List Byte) (ty : Nat) (x : Applied) : Host.Outcome Applied Fault Refusal :=
  let (rs, ok) := recordsIn b ty
  if ok then applyRecs m rs x else .fault (.hostError "an image record with a reserved OP")

/-- The blobs of a NET section: network slot, weight SRAM offset and bytes (R479). -/
def netBlobs : Nat → List Byte → List (Nat × Nat × List Byte)
  | 0, _ => []
  | fuel + 1, b =>
    if b.length < 16 then []
    else
      let len := fieldAt b 8 4
      (fieldAt b 0 1 % 4, fieldAt b 4 4, (b.drop 16).take len) :: netBlobs fuel (b.drop (16 + (len + 15) / 16 * 16))

/-- The blobs of an image. -/
def blobsOf (b : List Byte) : List (Nat × Nat × List Byte) :=
  let s := sectionOf b 0x20
  netBlobs (s.length / 16 + 1) s

/-- The words of bytes. -/
def wordsOf : Nat → List Byte → List Nat
  | 0, _ => []
  | fuel + 1, b => if b.isEmpty then [] else leVal (b.take 4) :: wordsOf fuel (b.drop 4)

/-- A blob is written to weight SRAM from an offset, and validated (R308, R480). -/
def loadBlob (x : Nat × Nat × List Byte) (d : Dev) : Dev :=
  let ws := wordsOf (x.2.2.length / 4 + 1) x.2.2
  let d := (List.range ws.length).foldl (fun (d : Dev) i =>
    { d with crv := { d.crv with weights := setNum (x.2.1 / 4 + i) (nth 0 ws i) d.crv.weights } }) d
  validateEnd x.1 (put (R.CRV.NET_BASE.OFFSET x.1) x.2.1 d)

/-! ## Recipes (R482, R483) -/

/-- A table record: its ADDR lies in a table window of LTH, FUS, CLS or VRD (R482). -/
def ImgRec.isTable (r : ImgRec) : Bool := !(tableUnits r.addr).isEmpty

/-- A batch record. -/
def ImgRec.isBatch (r : ImgRec) : Bool := r.cls == 3

/-- A held record. -/
def ImgRec.isHeld (r : ImgRec) : Bool := !r.isTable && (r.cls == 0 || r.cls == 2)

/-- The CLASS code of a boundary (R479). -/
def clsCode : Bnd → Nat
  | .line => 1
  | .block => 2
  | .batch => 3
  | .rebase => 4
  | _ => 0

/-- A record of a recipe has the class of the fields it writes (R482): at each address some field of the register, or a
register without fields, is of its class. DEDUCED (log entry 6): a word may also hold fields of another class. -/
def ImgRec.classOk (r : ImgRec) : Bool :=
  r.addrs.all (fun a =>
    match siteOf a with
    | .reg _ _ _ g addr =>
      let fs := g.fields.filter (fun f => decide (f.lo < 8 * (a - addr) + 32 ∧ 8 * (a - addr) < f.lo + f.w))
      fs.isEmpty || fs.any (fun f => clsCode f.bnd == r.cls)
    | _ => r.cls == 0)

/-- A recipe that is not invalid (R482). -/
def recipeOk (rs : List ImgRec) : Bool :=
  rs.all (fun r => r.cls != 1 && decide (r.cls < 4) && r.op != 4 && (!r.isHeld || (r.op == 1 && r.count == 1)))
    && decide ((rs.filter ImgRec.isHeld).length ≤ 256)

/-- The RECIPE sections go to the store in ascending recipe number while they fit (R483). -/
def storeRecipes (b : List Byte) : Nat → List Nat → Dev → Dev
  | _, [], d => d
  | used, r :: rest, d =>
    let s := sectionOf b (0x10 + r)
    let (rs, ok) := recordsIn b (0x10 + r)
    if s.isEmpty || !ok || !recipeOk rs || decide (2 ^ 20 < used + s.length) then storeRecipes b used rest d
    else
      let d := { d with rcp := { d.rcp with store := KMap.put (fun _ => []) d.rcp.store r rs } }
      storeRecipes b (used + s.length) rest (put R.TOP.RECIPE.VALID (d.get R.TOP.RECIPE.VALID ||| 2 ^ r) d)

/-- Step 6 of R473: the image is applied in the order of R480. -/
def applyImage (m : Mem) (b : List Byte) (d : Dev) : Host.Outcome Applied Fault Refusal :=
  let d := { d with imgWord := [] }
  let prof : ImgRec := { addr := 0x200, count := 1, op := 1, cls := 0, words := [fieldAt b 24 4] }
  let rcp := fieldAt b 28 1
  let next (x : Host.Outcome Applied Fault Refusal) (f : Applied → Host.Outcome Applied Fault Refusal) : Host.Outcome Applied Fault Refusal :=
    match x with
    | .next x => if x.timeout then .next x else f x
    | .fault e => .fault e
    | .refused e => .refused e
  next (applyRecs m [prof] { dev := d }) (fun x =>
    next (applySection m b 1 x) (fun x =>
      next (applySection m b 2 x) (fun x =>
        let x := { x with dev := each loadBlob (blobsOf b) x.dev }
        let recipe := if rcp < 8 then applySection m b (0x10 + rcp) x
          else if rcp = 255 then .next x else .fault (.hostError "a reserved RECIPE in the image header")
        next recipe (fun x =>
          let d := if rcp < 8 then puts [(R.TOP.RECIPE.CUR, rcp), (R.TOP.RECIPE.NONE, 0)] x.dev else x.dev
          .next { x with dev := storeRecipes b 0 (List.range 8) (put R.TOP.RECIPE.VALID 0 { d with rcp := {} }) }))))

end Sys2Proof.Machine
end

