-- ==== Sys2Proof/Machine/Ownership.lean ====
section
/-!
DEFINITION. The ownership table (R19 to R23, R514): static resolution, run-time claims, preemption and release.
-/

namespace Sys2Proof.Machine

/-- A denial or a preemption is recorded and logged (R20, R23). `entry` is the losing entry, if it has one. -/
def ownEvent (preempted : Bool) (ty idx claimant : Nat) (entry : Option Nat) (d : Dev) : Dev :=
  let d := event 0 R.TOP.OWN_EVT.SEQ [] d
  let d := puts [(R.TOP.OWN_EVT.KIND, b2n preempted), (R.TOP.OWN_EVT.NOENT, b2n entry.isNone), (R.TOP.OWN_EVT.TYPE, ty),
                 (R.TOP.OWN_EVT.ENTRY, entry.getD 0), (R.TOP.OWN_EVT.CLAIMANT, claimant)] d
  logEv (if preempted then 5 else 4) idx 2 (claimant + 256 * ty) d

/-- Resolution of one entry at start-up or rebase (R19, R20, R22). -/
def resolveEntry (n : Nat) (d : Dev) : Dev :=
  let ty := d.get (R.TOP.OWN.TYPE n)
  let idx := d.get (R.TOP.OWN.INDEX n)
  let o := d.get (R.TOP.OWN.OWNER n)
  let cls := if ty = 0 ∧ (o = 0 ∨ 14 < o) then 0 else ownerClass o
  let part := ty != 0 && decide (1 ≤ o ∧ o ≤ 14)
  let held := part && d.ownWinner ty idx == some n
  let d := puts [(R.TOP.OWN.CLASS n, cls), (R.TOP.OWN.HELD n, b2n held), (R.TOP.OWN.DENIED n, b2n (part && !held))] d
  when (part && !held) (ownEvent false ty idx o (some n)) d

/-- Static claims are resolved; run-time holders of the run before are gone (R20). -/
def resolveAll (d : Dev) : Dev := each resolveEntry (List.range 256) { d with rtHold := [], rtFree := [], rtAt := [] }

/-- The present holder: for a pin, by R514. -/
def Dev.holderNow (d : Dev) (ty idx : Nat) : Option Nat := if ty = 1 then d.pinHolder idx else d.holder ty idx

/-- The channels that use slices of an owner, once for each slice in use: those with tap lines waiting, as many slices as
the lines fill, and one for each other channel of the owner's class that runs a transfer (R382). -/
def Dev.sliceUsers (d : Dev) (owner : Nat) : List Nat :=
  (List.range 32).flatMap (fun c =>
    if (d.chMode c == 2) != (owner == 7) then []
    else
      let lines := cdiv (sumNat ((d.streamQ c).map List.length)) 16384
      List.replicate (if d.chState c = 2 then max 1 lines else lines) c)

/-- The channel that has a slice: the slices of an owner go to the channels that use them, in ascending channel and
slice (DESIGN CHOICE, log entry 21). -/
def Dev.sliceChannel (d : Dev) (i : Nat) : Option Nat :=
  match d.holder 4 i with
  | none => none
  | some o => ((((List.range 16).filter (fun j => d.holder 4 j == some o)).zip (d.sliceUsers o)).find? (fun x => x.1 == i)).map Prod.snd

/-- A staging buffer of the recorder is preempted: it reports so, and closes its chunk when no other buffer is left
(R21, R414). -/
def stagingLost (d : Dev) : Dev :=
  if d.get R.CMP.STATUS.STATE = 0 then d
  else
    let d := event 0x15 R.CMP.STATUS.SEQ [R.CMP.STATUS.DENIED] d
    when (!d.staging) (closeChunk false) d

/-- What the previous holder of a resource loses (R21). -/
def preemptEffect (ty idx : Nat) (ch : Option Nat) (d : Dev) : Dev :=
  match ty with
  | 1 =>
    if idx < 12 then
      (if (KMap.get (fun _ => (none : Option Nat)) d.tim.pulseEnd idx).isSome then trigEnd idx d else d)
    else if idx < 28 then
      let i := idx - 12
      if (KMap.get (fun _ => (none : Option Nat)) d.vrd.pinEnd i).isSome then
        emit (.firePin i (d.pinLevel i false) d.dt) { d with vrd := { d.vrd with pinEnd := KMap.put (fun _ => none) d.vrd.pinEnd i none } }
      else d
    else d
  | 2 =>
    let d := { d with tim := { d.tim with cmpArmed := setFlag idx false d.tim.cmpArmed } }
    event 7 (R.TIM.CMP_STATUS.SEQ idx) [R.TIM.CMP_STATUS.PREEMPT idx] (put (R.TIM.CMP_CTL.EN idx) 0 d)
  | 3 =>
    let d := when (d.get R.CMP.STATUS.STATE != 0 && d.get R.CMP.CTL.REC_RGN == idx) recDenied d
    when (d.on R.PRF.CTL.EN && d.get R.PRF.RING.RGN == idx) (event 2 R.PRF.STATUS.SEQ [R.PRF.STATUS.DENIED]) d
  | _ =>
    if 16 ≤ idx then stagingLost d
    else
      match ch with
      | some c => halt c 8 d
      | none => d

/-- The entry of an owner for a resource. -/
def Dev.entryOf (d : Dev) (ty idx o : Nat) : Option Nat := (d.ownEntries ty idx).find? (fun n => d.get (R.TOP.OWN.OWNER n) == o)

/-- The instant of the present clock: the DT accumulator with its epoch. -/
def Dev.clockNow (d : Dev) : Nat := d.tim.epoch * 2 ^ 96 + d.tim.acc

/-- A resource is granted to a run-time claim. -/
def grantRt (ty idx o : Nat) (d : Dev) : Dev :=
  { d with rtHold := KMap.put (fun _ => none) d.rtHold (4096 * ty + idx) (some o), rtFree := d.rtFree.filter (· != 4096 * ty + idx) }

/-- Of two run-time claims the one of lower class wins; between equal classes, the one of lower owner code (R20). -/
def claimWins (o h : Nat) : Bool := decide (ownerClass o < ownerClass h ∨ (ownerClass o = ownerClass h ∧ o < h))

/-- A run-time claim (R20): granted on a free resource, preempting a holder of higher class number, else denied. Of two
claims on a free resource in one clock, the one that wins holds it and the other one is denied. -/
def claim (ty idx o : Nat) (d : Dev) : Dev :=
  match d.holderNow ty idx with
  | none =>
    let d := grantRt ty idx o d
    { d with rtAt := KMap.put (fun _ => none) d.rtAt (4096 * ty + idx) (some d.clockNow) }
  | some h =>
    if h = o then { d with rtFree := d.rtFree.filter (· != 4096 * ty + idx) }
    else if KMap.get (fun _ => (none : Option Nat)) d.rtAt (4096 * ty + idx) = some d.clockNow then
      if claimWins o h then ownEvent false ty idx h (d.entryOf ty idx h) (grantRt ty idx o d)
      else ownEvent false ty idx o (d.entryOf ty idx o) d
    else if ownerClass o < ownerClass h then
      let grant := grantRt ty idx o
      let ch := if ty = 4 then d.sliceChannel idx else none
      let e := d.entryOf ty idx h
      let d := match e with
        | some n => puts [(R.TOP.OWN.HELD n, 0), (R.TOP.OWN.DENIED n, 1)] d
        | none => d
      ownEvent true ty idx h e (preemptEffect ty idx ch (grant d))
    else ownEvent false ty idx o (d.entryOf ty idx o) d

/-- A run-time holder releases a resource: a free one at once, a preempted one at the next composite block boundary. -/
def release (ty idx o : Nat) (d : Dev) : Dev :=
  let k := 4096 * ty + idx
  if KMap.get (fun _ => (none : Option Nat)) d.rtHold k != some o then d
  else if (d.ownEntries ty idx).isEmpty && ty != 1 then returnStatic k d
  else if d.rtFree.contains k then d
  else { d with rtFree := d.rtFree ++ [k] }

/-- A resource of R22: type and index in range. -/
def resourceOk (ty idx : Nat) : Bool :=
  match ty with
  | 1 => decide (idx < 48)
  | 2 => decide (idx < 16)
  | 3 => decide (idx < 64)
  | 4 => decide (idx < 20)
  | _ => false

/-- `RUN_TIME_CLAIM` (R20): an owner claims a resource, or releases it. -/
def execRunTimeClaim (ty : Fin 5) (idx : Fin 64) (owner : Fin 15) (free : Bool) (s : State) : Host.Outcome State Fault Refusal :=
  total (fun _ d =>
    if !resourceOk ty.val idx.val || owner.val == 0 then d
    else if free then release ty.val idx.val owner.val d
    else claim ty.val idx.val owner.val d) s

/-- `FO_CTL.MODE` in force claims and releases its pin (R514). -/
def foClaims (d : Dev) : Dev :=
  each (fun i d =>
    if d.get (R.VRD.FO_CTL.MODE i) = 0 then release 1 (12 + i) 2 d
    else claim 1 (12 + i) 2 d) (List.range 16) d

/-! ## Block boundaries (R37) -/

/-- The next composite line begins a block, and its E has come. -/
def Dev.blockWaits (d : Dev) : Bool := d.atBoundary && !d.fus.issued.isEmpty

/-- A line of a context's port waits at the lathe. -/
def Dev.lineWaits (d : Dev) (n c : Nat) : Bool :=
  if c = 0 then !(KMap.get (fun _ => ([] : List CamLine)) d.homeQ n).isEmpty
  else decide (((d.lthS n).ctxS c).taken < (d.portS (d.ctxPort n c)).ringSeq)

/-- `BLOCK_BOUNDARY` (R37): the first line of a new block reaches a unit, which applies its pending BLOCK fields as one
set. A port and a lathe context count their own blocks; the other units follow the composite. -/
def blockBoundary (code inst : Nat) (d : Dev) : Dev :=
  match code with
  | 9 =>
    match d.tim.coming.find? (fun c => c.ports.any (fun x => x.1 == inst && x.2.1)) with
    | some c => reach c.e d
    | none => d
  | 10 =>
    if 8 ≤ inst then d
    else each (fun c d =>
      let b := ((d.lthS inst).ctxS c).blk
      if (b = 0 ∨ d.get (R.EKL.BLOCK.LINES (d.ctxPort inst c)) ≤ b) ∧ d.lineWaits inst c then
        applyPend (inRange (lthBase inst + 0x100 + 0x80 * c) 0x80 .block) d
      else d) [0, 1, 2] d
  | 11 => when d.blockWaits fusBoundary d
  | 12 => when d.blockWaits (clsBoundary ((d.fus.issued.map Prod.fst).headD 0)) d
  | 0 => when d.blockWaits returnAll d
  | 7 | 14 | 15 => when d.blockWaits (unitBoundary code) d
  | _ => d

/-- `BLOCK_BOUNDARY` (R37, R20). -/
def execBlockBoundary (block : Fin 22) (inst : Fin 12) (s : State) : Host.Outcome State Fault Refusal :=
  total (fun _ d => blockBoundary block.val inst.val d) s

end Sys2Proof.Machine
end

