-- ==== Sys2Proof/Machine/Boot.lean ====
section
/-!
DEFINITION. Start-up, wake from OFF and rebase (R472 to R475, R480, R486, R62, R428, R434): the steps of R473, from
the image to RUN.
-/

namespace Sys2Proof.Machine

/-! ## Domains, PLLs and clocks (R487, R488, R492) -/

/-- A lane of a quad is enabled. -/
def Dev.quadUsed (d : Dev) (q : Nat) : Bool := (quadLanes q).any (fun l => d.on (R.LNE.CTL.EN l))

/-- A domain is needed by the configuration in RUN (R487). -/
def Dev.domNeeded (d : Dev) (n : Nat) : Bool :=
  if n < 3 ∨ n = 38 ∨ n = 40 ∨ n = 28 ∨ n = 27 ∨ (19 ≤ n ∧ n < 22) then true
  else if n < 11 then !bit (d.get R.RAS.SPARES.GRP_RETIRED) (n - 3)
  else if n < 19 then d.on (R.LTH.CTL.EN (n - 11)) && !bit (d.get R.RAS.SPARES.LTH_RETIRED) (n - 11)
  else if n < 27 then d.on R.CRV.CTL.EN
  else if n < 33 then [0, 1, 2].any (fun i => d.quadUsed (3 * (n - 29) + i))
  else if n = 33 then [12, 13, 14].any (fun q => d.quadUsed q)
  else if n < 38 then decide (n - 34 < d.get R.DDR.CFG.CHANNELS) && !(d.ras.repairs.any (fun e => e.kind == 6 && e.inst == n - 34))
  else d.on R.CMP.CTL.EN

/-- The mask of the domains for which a test holds. -/
def domMask (p : Nat → Bool) : Nat := sumNat ((List.range 41).map (fun n => if p n then 2 ^ n else 0))

/-- The Carver clock in MHz: the cap of the power ceiling in steps of 10 % of it, down to 25 % (R15, R17). -/
def Dev.carverMhz (d : Dev) : Nat :=
  let cap := match d.get R.TOP.PROFILE_ACT.PWR_CEIL with
    | 0 => 1000
    | 1 => 750
    | _ => 500
  let steps := max d.mgt.hotSteps d.mgt.powerSteps
  if !d.on R.CRV.CTL.EN || d.get R.CRV.STATUS.STATE == 3 then 0 else cap * max 25 (100 - 10 * steps) / 100

/-- `CRV.CLK` shows the clock in force. -/
def showClock (d : Dev) : Dev := put R.CRV.CLK.MHZ d.carverMhz d

/-- The PLLs that the configuration uses: CORE, GOUGE, CARVER, TIME, DRAM, MGMT (R492). -/
def Dev.pllMask (d : Dev) : Nat :=
  0x2b + (if d.carverMhz = 0 then 0 else 4) + (if d.get R.DDR.CFG.CHANNELS = 0 then 0 else 16)

/-- A change of QUAL is logged (R65). -/
def setQual (q : Nat) (d : Dev) : Dev :=
  if d.get R.TIM.DT_QUAL.QUAL = q then d else logEv 0x0702 0 2 q (put R.TIM.DT_QUAL.QUAL q d)

/-- QUAL with a locked `PLL_TIME`: 1 in holdover (R65). -/
def Dev.lockedQual (d : Dev) : Nat := b2n d.tim.holdover

/-- QUAL while DT is kept without `PLL_TIME` (R64, R65). -/
def Dev.coarseQual (d : Dev) : Nat := if flag d.tim.refRun 0 || flag d.tim.refRun 1 then 2 else 3

/-- DT is kept coarse: from a REFCLK that runs, else from the RC oscillator (R64, R65). -/
def goCoarse (d : Dev) : Dev := setQual d.coarseQual { d with tim := { d.tim with rcOnly := d.coarseQual == 3 } }

/-- The PLLs lock; the SerDes PLLs of the quads in use lock with them (R492). -/
def lockPlls (d : Dev) : Dev :=
  let m := d.pllMask
  let d := setQual d.lockedQual (put R.PWR.PLL.RUN m (put R.PWR.PLL.LOCK m d))
  each (fun q d => { d with quadLock := setFlag q (d.quadUsed q) d.quadLock }) (List.range 15) (showClock d)

/-! ## DT load (R62) -/

/-- DT and the epoch are loaded, with the log entry of R454. -/
def loadDt (d : Dev) : Dev :=
  if d.on R.TIM.DT_LOAD_CTL.EN then
    let d := { d with tim := { d.tim with acc := d.get R.TIM.DT_LOAD.VALUE * 2 ^ 32, epoch := d.get R.TIM.DT_LOAD_EPOCH.EPOCH } }
    logEv 0x0701 0 0 d.tim.epoch { d with mgt := { d.mgt with refillAt := d.dt } }
  else d

/-! ## Step 6: repairs and placement (R440, R428, R316) -/

/-- One entry of the repair map that applies before the domains are raised. -/
def applyRepair (e : RepEntry) (d : Dev) : Dev :=
  match e.kind with
  | 1 => put (R.GGE.STATUS.STATE e.inst) 7 d
  | 2 =>
    let d := each (fun g d => put (R.GGE.STATUS.STATE g) 7 d) (groupOf e.inst) d
    put R.RAS.SPARES.GRP_RETIRED (d.get R.RAS.SPARES.GRP_RETIRED ||| 2 ^ e.inst) d
  | 3 => put (R.LTH.STATUS.STATE e.inst) 3 (put R.RAS.SPARES.LTH_RETIRED (d.get R.RAS.SPARES.LTH_RETIRED ||| 2 ^ e.inst) d)
  | 4 =>
    let k := (256 * e.block + e.inst) * 65536 + e.data % 65536
    { d with ras := { d.ras with rowSpare := setNum k (num d.ras.rowSpare k + 1) d.ras.rowSpare } }
  | 7 => put R.CRV.SLICES.FENCED (d.get R.CRV.SLICES.FENCED ||| 2 ^ e.inst) d
  | _ => d

/-- The repair map is read and applied; a map of another serial is ignored and logged (R440). -/
def applyMap (d : Dev) : Dev :=
  let d := when d.mapDev.foreign (logFw 0x0606 0 2 d.mapDev.mapSerial) d
  let es := d.mapEntries.filter (fun e => !bit e.flags 1)
  let d := put R.RAS.MAP_INFO.ENTRIES d.mapEntries.length d
  let d := { d with ras := { d.ras with repairs := es ++ d.ras.mapQ, rowSpare := [] } }
  let d := puts [(R.RAS.SPARES.GRP_RETIRED, 0), (R.RAS.SPARES.LTH_RETIRED, 0), (R.CRV.SLICES.FENCED, 0)] d
  let d := each applyRepair d.ras.repairs d
  let n := ((List.range 16).filter (bit (d.get R.CRV.SLICES.FENCED))).length
  puts [(R.CRV.SLICES.ACTIVE, 16 - n), (R.CRV.STATUS.STATE, if !d.on R.CRV.CTL.EN then 0 else if n = 0 then 1 else if n ≤ 4 then 2 else 3)] d

/-- The gouges that are neither spare nor retired, ascending (R428). -/
def Dev.plainGouges (d : Dev) : List Nat :=
  (List.range 136).filter (fun g => !(spareList (d.get R.TOP.PROFILE_ACT.GG_SPARES)).contains g && !d.gouRetired g)

/-- Strip s is placed (R428, R429); where its gouge does not exist, the spare nearest to the group of gouge s is taken.
DESIGN CHOICE (log entry 40). -/
def placeStrip (plain : List Nat) (s : Nat) (d : Dev) : Dev :=
  match plain[s]? with
  | some g => place s (some g) d
  | none => place s (d.spareFor s) d

/-- All strips are placed; with a strip left over the device stays out of RUN (R428). -/
def placeAll (d : Dev) : Dev :=
  let d := each (fun s d => put (R.RAS.PLACE.VALID s) 0 d) (List.range 136) d
  let d := each (placeStrip d.plainGouges) (List.range (min 136 d.nstrips)) d
  let spares := spareList (d.get R.TOP.PROFILE_ACT.GG_SPARES)
  let d := each (fun g d =>
    if d.gouRetired g then d
    else put (R.GGE.STATUS.STATE g) (if (d.servedBy g).isSome then 1 else if spares.contains g then 4 else 0) d) (List.range 136) d
  showSpares d

/-- A strip has no gouge. -/
def Dev.unplaced (d : Dev) : Bool := (List.range d.nstrips).any (fun s => (d.placed s).isNone)

/-! ## Steps 8 to 10 -/

/-- The Caliper runs every target; codes in force start at the result, or at the fused default (R464, R467). -/
def calAll (env : BootEnv) (d : Dev) : Dev :=
  if resOk env.res.toNat then
    each (fun t d =>
      let d := calResult t env.res.toNat (nth [] env.codes t) (calPerf 1 1 d)
      let d := put (R.CAL.CODE.ABCD t) (d.get (R.CAL.TGT.ABCD t)) d
      event 5 R.CAL.STATUS.SEQ [R.CAL.STATUS.RUN_DONE] d) (List.range 43) d
  else
    let d := resFault (put R.CAL.RES_MEAS.I env.res.toNat d)
    each (fun t d => puts [(R.CAL.CODE.ABCD t, Config.calDefault t), (R.CAL.TGT.ABCD t, Config.calDefault t)] d) (List.range 43) d

/-- A lathe starts: its enabled contexts that are not standby take lines (R189, R190); a retired one stays off (R434). -/
def latheStart (n : Nat) (d : Dev) : Dev :=
  if d.get (R.LTH.STATUS.STATE n) = 3 then d
  else if !d.on (R.LTH.CTL.EN n) then put (R.LTH.STATUS.STATE n) 0 d
  else
    let act (c : Nat) : Bool := d.on (R.LTH.CTX_CTL.EN n c) && (c == 0 || !d.on (R.LTH.CTX_CTL.STANDBY n c))
    let d := each (fun c d => put (R.LTH.CTX_CTL.ACTIVE n c) (b2n (act c)) d) [0, 1, 2] d
    put (R.LTH.STATUS.STATE n) (if act 0 || act 1 || act 2 || !(d.homePorts n).isEmpty then 1 else 2) d

/-- `CTX_LEN` of the enabled contexts of a lathe (R172). -/
def latheLens (n : Nat) (d : Dev) : Dev :=
  each (fun c d =>
    let l := if d.on (R.LTH.CTX_CTL.EN n c) then d.ctxLen n c else 0
    puts [(R.LTH.CTX_LEN.LEN n c, l), (R.LTH.CTX_LEN.OVER n c, b2n (decide (131072 < d.get (R.LTH.CTX_POOL.BASE n c) + l)))] d)
    [0, 1, 2] d

/-- The shares of a retired lathe go to the standby contexts that cover them; its home ports run through memory from the
first line, with LATE set (R434, R16). -/
def latheCover (n : Nat) (d : Dev) : Dev :=
  if d.get (R.LTH.STATUS.STATE n) != 3 || !d.on (R.LTH.CTL.EN n) then d
  else
    let homes := d.homePorts n
    let guests := [1, 2].filter (fun c => d.on (R.LTH.CTX_CTL.EN n c) && !d.on (R.LTH.CTX_CTL.STANDBY n c))
    let lost := homes.map (fun p => (p, ((0, 16384) : Nat × Nat))) ++ guests.map (fun c => (d.get (R.LTH.CTX_CTL.PORT n c), d.shareOf n c))
    let d := each (fun p d => markLate p (put (R.EKL.STATUS.ROUTE_ACT p) 1 (setPort p { d.portS p with moved := true } d))) homes d
    each (fun m d => each (fun c d =>
      if d.on (R.LTH.CTX_CTL.EN m c) && d.on (R.LTH.CTX_CTL.STANDBY m c)
          && lost.any (fun l => l.1 == d.get (R.LTH.CTX_CTL.PORT m c) && rangesMeet l.2 (d.shareOf m c))
      then activate m c d else d) [1, 2] d) d.lathesUp d

/-- Step 10: the ports that are enabled enter LINKING, and the lanes and the units start (R473). -/
def startUnits (d : Dev) : Dev :=
  let d := each laneRefresh (List.range 60) d
  let d := each (fun p d =>
    if d.on (R.EKL.CTL.EN p) then enterLinking p (put (R.EKL.STATUS.ROUTE_ACT p) (d.get (R.EKL.CTL.ROUTE p)) d)
    else put (R.EKL.STATUS.STATE p) 0 d) (List.range 12) d
  let d := each latheStart (List.range 8) d
  let d := each latheCover (List.range 8) d
  let d := each segStart (List.range 8) d
  let d := each chEnable (List.range 32) (recStart d)
  foClaims d

/-! ## The sequence -/

/-- How the sequence was entered: by the release of PORST_N, by a wake from OFF, or by a rebase. -/
inductive BootKind where
  | start | wake | rebase
deriving DecidableEq, Repr

/-- A step that cannot complete: service mode (R474). -/
def bootFail (step : Nat) (d : Dev) : Dev :=
  let d := puts [(R.TOP.STATE.STEP, step), (R.TOP.STATE.FAIL, step), (R.TOP.STATE.MODE, 3), (R.MGT.STATUS.STATE, 3), (R.PWR.STATUS.STATE, 0)] d
  let d := { d with ras := { d.ras with service := true } }
  logFw 0x0308 0 3 step (setDomains 0x4000000007 d)

/-- Steps 3 and 4: NVM devices that failed are tried again, the log continues, PENDING becomes ACTIVE (R439, R455, R458). -/
def bootNvm (kind : BootKind) (nvm : NvmIo) (d : Dev) : Dev :=
  let d := each (fun i d => put (nvmOk i) 1 (setNvm i { d.nvmS i with failed := false, errs := 0 } d)) [0, 1] d
  match nvmRead nvm d with
  | (none, d) => d
  | (some i, d) =>
    let d := if kind = .rebase then d
      else match (d.nvmS i).log.getLast? with
        | some e => put R.MGT.LOG_WR.LSEQ (e.lseq + 1) { d with lseq := (e.lseq + 1) % 2 ^ 32 }
        | none => d
    let t := d.slotTab
    if t.pending' < 2 then slotWrite nvm (fun t => { t with active := t.pending', pending' := 0xff }) d else d

/-- A device that holds a slot's image intact: NVM_A, or NVM_B where a section CRC of A's copy fails (R439); else the
failing check. -/
def bootRead (nvm : NvmIo) (slot : Nat) (d : Dev) : (Option Nat × Nat) × Dev :=
  match nvmRead nvm d with
  | (none, d) => ((none, 0), d)
  | (some i, d) =>
    let f := d.slotFails i slot
    if f = 0 then ((some i, 0), d)
    else if f = 3 ∧ i = 0 ∧ !(d.nvmS 1).failed ∧ d.slotFails 1 slot = 0 then ((some 1, 0), rasStat 9 1 d)
    else ((none, f), d)

/-- Steps 3 to 5: the image in force, or the failing step with the device as it is then. -/
def bootImage (kind : BootKind) (nvm : NvmIo) (d : Dev) : (List Byte × Nat) × Dev :=
  let d := bootNvm kind nvm (put R.TOP.STATE.STEP 3 d)
  if d.nvmDown then (([], 3), d)
  else
    let a := d.slotTab.active
    match bootRead nvm a (put R.TOP.STATE.STEP 4 d) with
    | ((some i, _), d) => (((d.nvmS i).image a (d.slotTab.len a), 0), puts [(R.TOP.STATE.NVM_B, i), (R.TOP.STATE.SLOT, a), (R.TOP.STATE.STEP, 5)] d)
    | ((none, f), d) =>
      if f = 0 then (([], 4), d)
      else
        let b := 1 - a
        match bootRead nvm b (put R.TOP.STATE.STEP 5 d) with
        | ((some i, _), d) =>
          let d := logFw 0x0307 b 2 f (slotWrite nvm (fun t => { t with active := b }) d)
          (((d.nvmS i).image b (d.slotTab.len b), 0), puts [(R.TOP.STATE.NVM_B, i), (R.TOP.STATE.SLOT, b)] d)
        | ((none, _), d) => (([], 5), d)

/-- The firmware that the cores run, from the MGMT section of slot FWSLOT (R481). -/
def showFirmware (d : Dev) : Dev :=
  let n := d.slotTab.fwslot
  let b := d.nvmMain.image n (d.slotTab.len n)
  put R.MGT.ID.FW_VER (Config.fwVersion (fieldAt (sectionOf b 0x30) 16 4)) d

/-- The planning figure with every configured channel is below the non-yielding ceilings (R14). -/
def Dev.budgetFails (d : Dev) : Bool :=
  decide (1500 * min 4 (d.get R.DDR.CFG.CHANNELS) * d.dramRate / (4 * 6400)
    < d.get (R.TOP.DRAM_GRANT.CEIL 0) + d.get (R.TOP.DRAM_GRANT.CEIL 1) + d.get (R.TOP.DRAM_GRANT.CEIL 2))

/-- A wake is complete (R491, R497, R498); SP was held, and may have missed edges (R78). -/
def woke (d : Dev) : Dev :=
  let d := event 4 R.PWR.STATUS.SEQ [R.PWR.STATUS.WOKE] { d with aon := { d.aon with wakeOff := false } }
  let d := pwrPerf 3 1 (pwrStat 0 1 d)
  each (fun e d => event 7 (R.TIM.ENC_STATUS.SEQ e) [R.TIM.ENC_STATUS.GAP e] d) [0, 1] d

/-- Steps 7 to 11, after the image is applied; the trigger generators start with RUN (R70, R473). -/
def bootRun (kind : BootKind) (env : BootEnv) (start : Nat) (d : Dev) : Dev :=
  let d := put R.TOP.PROFILE_ACT.GG_SPARES (d.get R.TOP.PROFILE.GG_SPARES) d
  let d := puts [(R.TOP.PROFILE_ACT.LATHE_RES, d.get R.TOP.PROFILE.LATHE_RES), (R.TOP.PROFILE_ACT.DRAM_PROT, d.get R.TOP.PROFILE.DRAM_PROT),
    (R.TOP.PROFILE_ACT.LAT_CLASS, d.get R.TOP.PROFILE.LAT_CLASS), (R.TOP.PROFILE_ACT.PWR_CEIL, d.get R.TOP.PROFILE.PWR_CEIL),
    (R.TOP.PROFILE_ACT.T1S_MODE, d.get R.TOP.PROFILE.T1S_MODE), (R.TOP.PROFILE_ACT.REF_MODE, d.get R.TOP.PROFILE.REF_MODE),
    (R.TOP.PROFILE_ACT.REC_TAP, d.get R.TOP.PROFILE.REC_TAP), (R.TOP.PROFILE_ACT.REC_DEPTH, d.get R.TOP.PROFILE.REC_DEPTH)] d
  let d := resolveAll (placeAll (applyMap (each latheLens (List.range 8) (put R.CLS.STRIP.NSTRIPS (d.nstrips % 256) d))))
  let d := setDomains (domMask d.domNeeded) (put R.TOP.STATE.STEP 7 d)
  let d := calAll env (lockPlls (put R.TOP.STATE.STEP 8 d))
  let d := ddrStart env.trainFails env.hpprFails (put R.TOP.STATE.STEP 9 d)
  let d := if kind = .rebase then reportRestart true d else showFirmware d
  let d := startUnits (put R.TOP.STATE.STEP 0xa d)
  let d := reachNs start env.ns.toNat d
  let d := put R.MGT.STATUS.STATE 1 d
  let d := if d.on R.PWR.TRIP.VALID && !d.aon.tripLogged then
      logFw 0x0306 (d.get R.PWR.TRIP.SENSOR) 3 (d.get R.PWR.TRIP.TEMP + 65536 * d.get R.PWR.TRIP.SENSOR + 2 ^ 31)
        (pwrStat 5 1 (event 4 R.PWR.STATUS.SEQ [R.PWR.STATUS.TRIP_SEEN] { d with aon := { d.aon with tripLogged := true } }))
    else d
  let d := if kind = .wake then d else loadDt d
  let d := if kind = .rebase then d else logEv 0x0701 0 0 d.tim.epoch d
  let d := when d.budgetFails (logEv 0x0001 0 3 (d.get R.TOP.DRAM_PLAN.PLAN)) d
  let d := when d.unplaced (logEv 0x0604 0 3 d.nstrips) d
  if d.budgetFails || d.unplaced then d
  else
    let d := each tgApply [0, 1, 2, 3] (puts [(R.TOP.STATE.STEP, 0xb), (R.TOP.STATE.MODE, 1), (R.PWR.STATUS.STATE, 1)] d)
    when (kind == .wake) woke d

/-- Steps 3 to 11; a DRAM layout that is a host error stops the model (R24, R34, R361). -/
def bootFrom3 (kind : BootKind) (env : BootEnv) (m : Mem) (d : Dev) : Host.Outcome Dev Fault Refusal :=
  let start := d.dt
  match bootImage kind env.nvm d with
  | ((b, f), d) =>
    let d := if kind = .rebase then d else setQual 2 d
    if f ≠ 0 then .next (bootFail f d)
    else
      match applyImage m b (put R.TOP.STATE.STEP 6 d) with
      | .next x => 
        if x.timeout then .next (bootFail 6 x.dev)
        else match x.dev.layoutErr env.trainFails with
          | some w => .fault (.hostError w)
          | none => .next (bootRun kind env start x.dev)
      | .fault r => .fault r
      | .refused r => .refused r

/-- The device in step 2: the reference inputs as they are found (R473). -/
def bootWait (kind : BootKind) (env : BootEnv) (d : Dev) : Dev :=
  let d := { d with tim := { d.tim with refRun := setFlag 0 env.refA (setFlag 1 env.refB []), refElig := setFlag 0 env.refA (setFlag 1 env.refB []),
                                         rcOnly := !env.refA && !env.refB } }
  let d := puts [(R.TOP.STATE.STEP, 2), (R.TOP.STATE.MODE, 0), (R.PWR.STATUS.STATE, 0)] d
  when (kind == .wake) (put R.TIM.DT_TRIM.PPB 0) d

/-- The end of step 2: the RC oscillator is trimmed, a reference is in use, and `PLL_MGMT` has locked (R473). -/
def bootClocks (env : BootEnv) (d : Dev) : Dev :=
  let d := puts [(R.PWR.RC_TRIM.CODE, env.trim.toNat), (R.TIM.DT_QUAL.REF_B, b2n (!env.refA)), (R.PWR.PLL.RUN, 32), (R.PWR.PLL.LOCK, 32)] d
  { d with aon := { d.aon with off := false, trains := d.aon.perstN } }

/-- Steps 2 to 11: step 2 waits for a REFCLK input (R473). -/
def bootFrom2 (kind : BootKind) (env : BootEnv) (m : Mem) (d : Dev) : Host.Outcome Dev Fault Refusal :=
  if !env.refA && !env.refB then .next (bootWait kind env d)
  else bootFrom3 kind env m (bootClocks env (bootWait kind env d))

/-- DT and the epoch start at 0 (R62). -/
def dtStart (d : Dev) : Dev := { d with tim := { d.tim with acc := 0, epoch := 0 } }

/-- `START_UP` (R473): the release of PORST_N. -/
def execStartUp (env : BootEnv) (s : State) : Host.Outcome State Fault Refusal :=
  run (fun m d => if d.get R.TOP.STATE.STEP = 1 ∧ d.get R.TOP.STATE.MODE = 0 ∧ d.aon.off = false then
      bootFrom2 .start env m (dtStart d)
    else .next d) s

/-- `REFCLK_DETECTED` (R473): step 2 ends with the first REFCLK input that runs. -/
def execRefclkDetected (env : BootEnv) (s : State) : Host.Outcome State Fault Refusal :=
  run (fun m d =>
    if d.get R.TOP.STATE.STEP = 2 ∧ d.get R.TOP.STATE.MODE = 0 then
      bootFrom2 (if d.aon.wakeOff then .wake else .start) env m d
    else .next d) s

/-! ## Reset (R472) -/

/-- The device after a reset: what NVM and the fuses hold stays, `PWR.TRIP` where it is to be kept, and the level of
PERST_N, which is an input. -/
def resetDev (trip perst : Bool) (d : Dev) : Dev :=
  let n : Dev := { ({} : Dev) with
    nvm := d.nvm, rootHash := d.rootHash, out := d.out, free := d.free, posted := d.posted
    aon := { ({} : AonS) with perstN := perst } }
  if trip then
    puts [(R.PWR.TRIP.TEMP, d.get R.PWR.TRIP.TEMP), (R.PWR.TRIP.SENSOR, d.get R.PWR.TRIP.SENSOR), (R.PWR.TRIP.VALID, d.get R.PWR.TRIP.VALID)] n
  else n

/-- `PORST_N_ASSERT` (R472, R494). -/
def execPorstNAssert (s : State) : Host.Outcome State Fault Refusal :=
  total (fun _ d => resetDev (d.on R.PWR.TRIP.VALID && !d.aon.tripLogged) d.aon.perstN d) s

/-- `SUPPLY_REMOVAL` (R472): all state is lost, `PWR.TRIP` included; NVM and the fuses keep theirs. -/
def execSupplyRemoval (s : State) : Host.Outcome State Fault Refusal :=
  run (fun _ d => .next (resetDev false false { d with posted := [] })) { s with mem := {} }

/-! ## Rebase (R486) -/

/-- Statistics counters by block code and offset in the instance. -/
def isCounter (code o : Nat) : Bool :=
  match code with
  | 4 | 6 | 9 | 11 | 12 | 13 | 15 | 17 => decide (0x100 ≤ o ∧ o ≤ 0x140)
  | 8 => o == 0x20 || o == 0x24 || o == 0x28 || o == 0x38
  | 10 => o == 0x14 || (decide (0x100 ≤ o) && o % 0x80 == 0x3c)
  | 14 => o == 0x28 || decide (0x100 ≤ o ∧ o < 0x140)
  | 16 => o == 0x24 || decide (0x100 ≤ o ∧ o < 0x140)
  | 18 => decide (0x1000 ≤ o) && decide (0x100 ≤ o % 0x1000 ∧ o % 0x1000 < 0x130)
  | 21 => decide (0x200 ≤ o ∧ o < 0x230)
  | _ => false

/-- A register field keeps its value over a rebase until the image writes it. DEDUCED (log entry 41). -/
def keepField (k : Nat) : Bool :=
  match findBlock blocks (k / 64) with
  | none => false
  | some (b, _, o) =>
    [1, 2, 3, 0x13, 0x14].contains b.code || decide (0xf00 ≤ o ∧ o < 0x1000) || isCounter b.code o
      || (match fieldOf k with
          | some f => f.ty == .rsq || (f.ty == .ro && [0, 4, 5, 6, 7].contains b.code)
          | none => false)

/-- What lanes keep through a rebase: the FIR settings agreed since power-up (R138), and their transmitters. -/
def Dev.keptLanes (d : Dev) : KMap LaneS :=
  (List.range 60).foldl (fun m l => KMap.put (fun _ => {}) m l { agreed := (d.laneS l).agreed, tx := (d.laneS l).tx }) []

/-- What ports keep through a rebase: that they have linked up since start-up (R137). -/
def Dev.keptPorts (d : Dev) : KMap PortS :=
  (List.range 12).foldl (fun m p => KMap.put (fun _ => {}) m p { linkedOnce := (d.portS p).linkedOnce }) []

/-- Every unit of the chain, DRAM and the outputs lose what they hold (R486 steps 2 to 6). -/
def stopUnits (d : Dev) : Dev :=
  { d with
      spLatch := [], spNewest := none, lane := d.keptLanes, port := d.keptPorts, homeQ := [], rtHold := [], rtFree := [], lth := [], fus := {}, stream := []
      recQ := [], cls := {}, gou := [], mrg := {}, yielding := [], objQ := [], held := [], crv := {}, vrd := {}, cmp := {}, ddr := {}
      ras := { d.ras with migs := [], waitQ := [], testQ := [], resume := none, tLost := [], markInjected := false }
      tim := { d.tim with tg := [], coming := [], trig := [], pulse := [], pulseEnd := [], batchPending := false, cmpArmed := [], zLoaded := [] } }

/-- The cancel-all of R340 and what comes of it: acknowledged, or abandoned after 10 ms. -/
def cancelsOut (acked : Bool) (d : Dev) : Dev :=
  let d := cancelAll d
  let d := each (fun k d => if d.segUp k then opportunity k d else d) (List.range 8) d
  let d := if acked then d
    else each (fun (c : FireCmd) d => unconfirmed (c.sent.getLastD c.seg) c d) (d.vrd.pend.filter (fun c => c.kind != 1)) (reachNs d.dt 10000000 d)
  { d with vrd := { d.vrd with pend := [] } }

/-- Every port that is not OFF sends LINK_STATE standby. -/
def portsStandby (d : Dev) : Dev :=
  each (fun p d => if d.get (R.EKL.STATUS.STATE p) = 0 then d else sendMsg p 10 [1#8] d) (List.range 12) d

/-- The device that a rebase has stopped: the chain is idle, and the registers that the image writes are back at their
reset values (R486). -/
def rebaseStop (env : BootEnv) (d : Dev) : Dev :=
  let d := puts [(R.TOP.STATE.MODE, 2), (R.PWR.STATUS.STATE, 0), (R.TOP.RECIPE.STATE, 0)] { d with rcp := { d.rcp with kept := [] } }
  let d := portsStandby (cancelsOut env.acked d)
  let d := stopUnits d
  let d := { d with regs := d.regs.filter (fun e => keepField e.1), bank := [] }
  let d := applyPend (fun _ => true) (landPosted 0x80000 (landPosted 0xa0000 d))
  let d := puts [(R.PWR.BUSY.BUSY, 0), (R.CAL.BUSY.BUSY, 0), (R.TOP.RECIPE.NONE, 1), (R.TOP.RECIPE.CUR, 0)] d
  each (fun c d => if d.get (R.DMA.CH_CTL.MODE c) = 2 then chState c 0 d else d) (List.range 32) d

/-- The sequence of R486 from a command with the right KEY. -/
def rebase (env : BootEnv) (m : Mem) (d : Dev) : Host.Outcome Dev Fault Refusal := bootFrom3 .rebase env m (rebaseStop env d)

/-- The device takes a rebase command: it has come up, and its management cores serve. -/
def Dev.takesRebase (d : Dev) : Bool :=
  d.get R.TOP.STATE.MODE != 3 && decide (0xa ≤ d.get R.TOP.STATE.STEP) && !d.ras.coresDown && !d.ras.service && d.get R.PWR.STATUS.STATE != 3

/-- A write of `TOP.CMD` with REBASE = 1 (R486). -/
def rebaseCmd (key : Nat) (env : BootEnv) (m : Mem) (d : Dev) : Host.Outcome Dev Fault Refusal :=
  if key ≠ 0x4c58 then .next (busError 0 0x264 9 true d)
  else if d.takesRebase then rebase env m d
  else .next d

/-- `REBASE` (R486, R32). -/
def execRebase (key : BitVec 16) (env : BootEnv) (s : State) : Host.Outcome State Fault Refusal :=
  run (fun m d => if d.served then rebaseCmd key.toNat env m d else .next (emit (.unsupported 0 0x264) d)) s

end Sys2Proof.Machine
end

