-- ==== Sys2Proof/Machine/Power.lean ====
section
/-!
DEFINITION. Power states and clocks (R487 to R495): entry to STANDBY and OFF, wakes, the thermal trip, PERST_N, loss of
lock of a PLL, and the reference inputs (R65, R438).
-/

namespace Sys2Proof.Machine

/-! ## Entry to STANDBY and OFF (R490) -/

/-- Steps 1 to 4 of R490 from RUN: cancels, 2 ms for the lines in the chain, the batches of the report channels,
LINK_STATE standby. `st` is the state shown during the entry. -/
def quiesce (st : Nat) (acked : Bool) (m : Mem) (d : Dev) : Dev :=
  let d := cancelsOut acked (put R.PWR.STATUS.STATE st d)
  let d := reachNs d.dt 2000000 d
  let d := each (fun c d => if d.chMode c = 2 ∧ d.chState c = 2 then reportBatch c m d else d) (List.range 32) d
  portsStandby d

/-- The units of the chain whose domains STANDBY switches off, as base addresses of their instances. -/
def standbyOff : List Nat :=
  (List.range 136).map ggeBase ++ (List.range 8).map lthBase
    ++ [0x800000, 0xc00000, 0x1200000, 0x1300000, 0x1800000, 0x1d80000]

/-- What the units lose when their domains are switched off. Registers, banked tables, weights and tracking gains keep
their values, as do the counts that place the next line in its blocks (R491). DESIGN CHOICE (log entry 52). -/
def dropChain (d : Dev) : Dev :=
  let last : Option Nat := if (d.tgS 0).issued then some (d.get (R.TIM.TG_LSN.LSN 0)) else none
  let ends := (List.range 12).filter (fun p => (KMap.get (fun _ => (none : Option Nat)) d.tim.pulseEnd p).isSome)
  let pins := (List.range 16).filter (fun i => (KMap.get (fun _ => (none : Option Nat)) d.vrd.pinEnd i).isSome)
  let d := each trigEnd ends d
  let d := each (fun i d => emit (.firePin i (d.pinLevel i false) d.dt) d) pins d
  let d := each (fun i d => put (R.CMP.JOB_STATUS.STATE i) 0 d) [0, 1] d
  let d := each (fun s d => put (R.MRG.STRIP_EPOCH.REPLAY s) 0 d) (List.range 136) d
  let d := each markGated standbyOff d
  { d with
      port := d.port.map (fun (e : Nat × PortS) =>
        (e.1, { e.2 with lines := [], pkt := none, ringOut := [], loseLsn := none, replayOn := false, replay := [], replayWait := [] }))
      homeQ := []
      lth := d.lth.map (fun (e : Nat × LthS) =>
        (e.1, { e.2 with acc := [], guest := none, gated := false, tgNew := []
                         ctx := e.2.ctx.map (fun (c : Nat × LthCtx) => (c.1, { c.2 with hist := [], win := none, winDue := false })) }))
      fus := { count := d.fus.count, blk := d.fus.blk, tapSeq := d.fus.tapSeq, tapN := d.fus.tapN }
      stream := [], recQ := []
      cls := { lines := d.cls.lines, tapN := d.cls.tapN, tapSeq := d.cls.tapSeq
               strip := d.cls.strip.map (fun (e : Nat × StripS) => (e.1, { wr := e.2.wr, lo := e.2.wr, journalOnly := e.2.journalOnly })) }
      gou := d.gou.map (fun (e : Nat × GouS) => (e.1, { gens := e.2.gens, epoch := e.2.epoch }))
      mrg := { nextSet := d.mrg.nextSet
               paired := last.elim [] (fun l => (List.range 135).map (fun b => (b, some l)))
               done := last.elim [] (fun l => (List.range 136).map (fun s => (s, some l))) }
      objQ := [], held := []
      crv := { weights := d.crv.weights, tainted := d.crv.tainted }
      vrd := { d.vrd with pend := [], pins := [], pinEnd := [], bad := [] }
      cmp := { recorder := { raw := d.cmp.recorder.raw, written := d.cmp.recorder.written } }
      ras := { d.ras with migs := [], waitQ := [], testQ := [], resume := none, markInjected := false }
      tim := { d.tim with coming := [], trig := [], pulse := [], pulseEnd := []
                          tg := d.tim.tg.map (fun (e : Nat × TgS) => (e.1, { e.2 with due := [] })) } }

/-- The domains that are powered in STANDBY (R489). -/
def standbyDomains : Nat := 0x17ff0000007

/-- A channel in service enters self-refresh with the device: its write buffer drains and a REFab goes to every rank (R369). -/
def refreshItself (ch : Nat) (d : Dev) : Dev :=
  when (d.chRuns ch) (fun d =>
    let d := each (closeBank ch) (List.range 128) (drainTo ch 0 d)
    ddrPerf 0xa 1 (ddrStat ch 6 1 (put (R.DDR.CH_STATUS.STATE ch) 3 d))) d

/-- Entry to STANDBY (R490, R369, R489). -/
def standby (acked : Bool) (m : Mem) (d : Dev) : Dev :=
  let d := dropChain (quiesce 2 acked m d)
  let d := setDomains (d.domains &&& standbyDomains) d
  let d := { puts [(R.PWR.PLL.RUN, 0), (R.PWR.PLL.LOCK, 0), (R.CRV.CLK.MHZ, 0), (R.PWR.STATUS.STATE, 3)] d with quadLock := [] }
  let d := goCoarse d
  pwrStat 1 1 (each refreshItself [0, 1, 2, 3] d)

/-- The device is in RUN and takes a power command. -/
def Dev.takesPower (d : Dev) : Bool := d.get R.TOP.STATE.MODE == 1 && d.get R.PWR.STATUS.STATE == 1

/-- A write of `PWR.CMD.GO` with STATE = 0x1 (R490); a wake source before step 5 abandons the entry (R495). -/
def goStandby (acked wake : Bool) (m : Mem) (d : Dev) : Dev :=
  if !d.takesPower then d
  else if wake then put R.PWR.STATUS.STATE 1 (cancelsOut acked d)
  else standby acked m d

/-- `STANDBY` (R490). -/
def execStandby (acked wake : Bool) (s : State) : Host.Outcome State Fault Refusal := total (goStandby acked wake) s

/-- The device in OFF: the registers of AON, DT and its trim, the held SP and what NVM and the fuses hold are left; all pins
but `ALERT_N` are at their reset levels (R490, R64, R78, R497). -/
def offDev (d : Dev) : Dev :=
  let keep : List Fld :=
    [R.PWR.WAKE_EN.HOST, R.PWR.WAKE_EN.EVT, R.PWR.WAKE_EN.ALARM, R.PWR.WAKE_EN.PERST, R.PWR.WAKE_EN.EVT_MASK, R.PWR.WAKE_EN.EVT_POL,
     R.PWR.WAKE_DT.DT, R.PWR.TRIP.TEMP, R.PWR.TRIP.SENSOR, R.PWR.TRIP.VALID, R.TIM.DT_TRIM.PPB, R.TIM.ENC_SP.SP 0, R.TIM.ENC_SP.SP 1]
  let n : Dev := { ({} : Dev) with
    nvm := d.nvm, rootHash := d.rootHash, out := d.out, free := d.free, posted := d.posted
    tim := { ({} : TimS) with acc := d.tim.acc, epoch := d.tim.epoch, refRun := d.tim.refRun, refElig := d.tim.refElig
                              rcOnly := !(flag d.tim.refRun 0 || flag d.tim.refRun 1) }
    aon := { ({} : AonS) with off := true, perstN := d.aon.perstN, tripLogged := d.aon.tripLogged, alert := d.aon.alert || d.alertAsserted } }
  puts [(R.PWR.DOM_ON_LO.ON, 1), (R.PWR.DOM_ON_HI.ON, 0)] (puts (keep.map (fun f => (f, d.get f))) n)

/-- A write of `PWR.CMD.GO` with STATE = 0x2, from RUN or from STANDBY (R490). -/
def goOff (acked wake : Bool) (m : Mem) (d : Dev) : Dev :=
  if d.get R.TOP.STATE.MODE = 1 ∧ d.get R.PWR.STATUS.STATE = 3 then offDev d
  else if !d.takesPower then d
  else if wake then put R.PWR.STATUS.STATE 1 (cancelsOut acked d)
  else offDev (linkDown false (quiesce 5 acked m d))

/-- `OFF` (R490, R381). -/
def execOff (acked wake : Bool) (s : State) : Host.Outcome State Fault Refusal := total (goOff acked wake) s

/-! ## Wakes (R491, R495) -/

/-- A wake from STANDBY: domains, PLLs, DRAM and ports resume (R491, R369, R159, R70). -/
def wakeStandby (src trim : Nat) (d : Dev) : Dev :=
  let d := puts [(R.PWR.WAKE_SRC.SRC, src), (R.PWR.RC_TRIM.CODE, trim), (R.PWR.STATUS.STATE, 1)] d
  let d := lockPlls (setDomains (domMask d.domNeeded) d)
  let d := each (fun ch d => if d.get (R.DDR.CH_STATUS.STATE ch) = 3 then put (R.DDR.CH_STATUS.STATE ch) 2 d else d) [0, 1, 2, 3] d
  let d := each (fun g d =>
    if d.gouRetired g then d
    else put (R.GGE.STATUS.STATE g) (if (d.servedBy g).isSome then 1
      else if (spareList (d.get R.TOP.PROFILE_ACT.GG_SPARES)).contains g then 4 else 0) d) (List.range 136) d
  let d := each (fun p d =>
    if 2 ≤ d.get (R.EKL.STATUS.STATE p) ∧ d.get (R.EKL.STATUS.STATE p) ≤ 4 then portState p 2 (sendMsg p 10 [0#8] d) else d) (List.range 12) d
  let d := each (fun g d => if d.get (R.TIM.TG_CTL.MODE g) = 1 then setTg g { d.tgS g with k := d.firstK g } d else d) [0, 1, 2, 3] d
  woke d

/-- A wake from OFF is a start-up from step 2 (R491). -/
def wakeOff (src : Nat) (env : BootEnv) (m : Mem) (d : Dev) : Host.Outcome Dev Fault Refusal :=
  bootFrom2 .wake env m (put R.PWR.WAKE_SRC.SRC src { d with aon := { d.aon with wakeOff := true, alert := false } })

/-- A wake source acts in the state that the device is in: STANDBY or OFF, but not after a thermal trip (R494). -/
def wake (src : Nat) (env : BootEnv) (m : Mem) (d : Dev) : Host.Outcome Dev Fault Refusal :=
  if d.aon.tripped then .next d
  else if d.aon.off then wakeOff src env m d
  else if d.get R.PWR.STATUS.STATE = 3 then .next (wakeStandby src env.trim.toNat d)
  else .next d

/-- A write of `PWR.CMD.WAKE` (R491): the host wakes the device from STANDBY. -/
def hostWake (trim : Nat) (d : Dev) : Dev :=
  if d.get R.PWR.STATUS.STATE = 3 ∧ d.on R.PWR.WAKE_EN.HOST = true then wakeStandby 1 trim d else d

/-- `WAKE` (R491): with the RC trim that AON reaches. -/
def execWake (trim : BitVec 8) (s : State) : Host.Outcome State Fault Refusal := total (fun _ d => hostWake trim.toNat d) s

/-- The device is asleep: in STANDBY or OFF. -/
def Dev.asleep (d : Dev) : Bool := (d.aon.off && !d.aon.wakeOff) || d.get R.PWR.STATUS.STATE == 3

/-- `WAKE_ALARM` (R491): integer DT reaches `PWR.WAKE_DT` at the resolution of the coarse step. -/
def execWakeAlarm (env : BootEnv) (s : State) : Host.Outcome State Fault Refusal :=
  run (fun m d =>
    if d.asleep && d.on R.PWR.WAKE_EN.ALARM && !d.aon.tripped then wake 4 env m (reach (d.get R.PWR.WAKE_DT.DT / 65536 * 65536) d)
    else .next d) s

/-- The wake alarm fires in the coarse step that follows the present DT. -/
def Dev.alarmNow (d : Dev) : Bool :=
  d.on R.PWR.WAKE_EN.ALARM
    && decide ((dtDiff (d.get R.PWR.WAKE_DT.DT) d.dt).natAbs * 2 ^ 32 < d.dtStep)

/-- `WAKE_EVENT` (R491, R495): an edge of an event pin that `WAKE_EN` takes. -/
def execWakeEvent (i : Fin 8) (rising : Bool) (env : BootEnv) (s : State) : Host.Outcome State Fault Refusal :=
  run (fun m d =>
    if d.asleep && d.reads (28 + i.val) && d.on R.PWR.WAKE_EN.EVT && bit (d.get R.PWR.WAKE_EN.EVT_MASK) i.val && rising == d.on R.PWR.WAKE_EN.EVT_POL then
      wake (if d.alarmNow then 6 else 2) env m d
    else .next d) s

/-- `PERST_N_RELEASE` (R475, R489): the endpoint starts link training once step 2 has ended; from OFF it may wake. -/
def execPerstNRelease (env : BootEnv) (s : State) : Host.Outcome State Fault Refusal :=
  run (fun m d =>
    let was := d.aon.perstN
    let d := { d with aon := { d.aon with perstN := true, trains := !d.aon.off && decide (3 ≤ d.get R.TOP.STATE.STEP) } }
    if !was && d.aon.off && !d.aon.wakeOff && d.on R.PWR.WAKE_EN.PERST then wake 8 env m d else .next d) s

/-! ## Thermal trip (R494) -/

/-- `THERMAL_TRIP` (R494): a sensor has read above the trip reading for 1 ms. -/
def execThermalTrip (sensor : Fin 16) (temp : BitVec 16) (s : State) : Host.Outcome State Fault Refusal :=
  total (fun _ d =>
    if d.aon.off || decide (sgn 16 temp.toNat ≤ Config.tripReading) then d
    else
      let d := puts [(R.PWR.TRIP.TEMP, temp.toNat), (R.PWR.TRIP.SENSOR, sensor.val), (R.PWR.TRIP.VALID, 1)] d
      let d := offDev { d with aon := { d.aon with tripLogged := false, alert := true } }
      emit .trip (emit .alert { d with aon := { d.aon with tripped := true } })) s

/-! ## PLLs and references (R65, R438, R493) -/

/-- The reference in use: REFCLK_B or REFCLK_A. -/
def Dev.refInUse (d : Dev) : Nat := d.get R.TIM.DT_QUAL.REF_B

/-- A PLL of the order CORE, GOUGE, CARVER, TIME, DRAM, MGMT loses lock (R493). -/
def pllUnlock (i : Nat) (d : Dev) : Dev :=
  if !bit (d.get R.PWR.PLL.LOCK) i then d
  else
    let d := put R.PWR.PLL.LOCK (d.get R.PWR.PLL.LOCK - 2 ^ i) d
    let d := pwrPerf 4 1 (pwrStat 4 1 (event 4 R.PWR.STATUS.SEQ [R.PWR.STATUS.PLL_UNLOCK] d))
    let d := logEv 0x0488 0 2 i d
    let d := when (i == 2) (put R.CRV.CLK.MHZ 0) d
    if i = 3 then goCoarse d else d

/-- `PLL_UNLOCK` (R493). -/
def execPllUnlock (i : Fin 6) (s : State) : Host.Outcome State Fault Refusal := total (fun _ d => pllUnlock i.val d) s

/-- `PLL_RELOCK` (R493): a PLL that runs locks again. -/
def execPllRelock (i : Fin 6) (s : State) : Host.Outcome State Fault Refusal :=
  total (fun _ d =>
    if !bit (d.get R.PWR.PLL.RUN) i.val || bit (d.get R.PWR.PLL.LOCK) i.val then d
    else
      let d := put R.PWR.PLL.LOCK (d.get R.PWR.PLL.LOCK + 2 ^ i.val) d
      let d := if i.val = 2 then showClock d else d
      if i.val = 3 then setQual d.lockedQual d else d) s

/-- QUAL after the set of running references changed, while DT is kept coarse or by `PLL_TIME`. -/
def showQual (d : Dev) : Dev :=
  if d.aon.off then { d with tim := { d.tim with rcOnly := d.coarseQual == 3 } }
  else if bit (d.get R.PWR.PLL.LOCK) 3 then setQual d.lockedQual d
  else if d.get R.PWR.STATUS.STATE = 3 ∨ d.get R.PWR.STATUS.STATE = 1 then goCoarse d
  else d

/-- `REFCLK_LOSS` (R438, R65): in dual mode a loss of the input in use switches to the other one, if it is eligible; else
`PLL_TIME` runs on in holdover. -/
def execRefclkLoss (i : Fin 2) (s : State) : Host.Outcome State Fault Refusal :=
  total (fun _ d =>
    let t := { d.tim with refRun := setFlag i.val false d.tim.refRun, refElig := setFlag i.val false d.tim.refElig }
    let d := { d with tim := t }
    if d.refInUse ≠ i.val then showQual d
    else if d.on R.TOP.PROFILE_ACT.REF_MODE && flag d.tim.refElig (1 - i.val) then
      let d := put R.TIM.DT_QUAL.REF_B (1 - i.val) d
      let d := rasStat 8 1 (event 6 R.RAS.STATUS.SEQ [R.RAS.STATUS.REF_SWITCH] d)
      showQual (logEv 0x068f 0 2 (1 - i.val) d)
    else showQual { d with tim := { d.tim with holdover := true } }) s

/-- `REFCLK_ELIGIBLE` (R438): an input has run for 1 s without a loss. A device in holdover takes it: the input in use, or
in dual mode either one. -/
def execRefclkEligible (i : Fin 2) (s : State) : Host.Outcome State Fault Refusal :=
  total (fun _ d =>
    let t := { d.tim with refRun := setFlag i.val true d.tim.refRun, refElig := setFlag i.val true d.tim.refElig }
    let d := { d with tim := t }
    if d.tim.holdover && (d.refInUse == i.val || d.on R.TOP.PROFILE_ACT.REF_MODE) then
      showQual (put R.TIM.DT_QUAL.REF_B i.val { d with tim := { d.tim with holdover := false } })
    else showQual d) s

end Sys2Proof.Machine
end

