-- ==== Sys2Proof/Machine/Management.lean ====
section
/-!
DEFINITION. The management controller: restarts (R437), sensors and the temperature loop (R447 to R449, R17), PMBus and
adaptive voltage scaling (R450 to R453), and the mailbox commands (R460 to R463).
-/

namespace Sys2Proof.Machine

/-! ## Restarts (R437) -/

/-- The cores serve their work: they run their firmware, not the service mode (R446). -/
def Dev.mgtUp (d : Dev) : Bool := d.get R.MGT.STATUS.STATE == 1 && !d.ras.coresDown && !d.ras.service

/-- The cores are held in reset and restart; a mailbox command under way will end with a status (R437, R460). -/
def coresReset (status : Nat) (d : Dev) : Dev :=
  let owed := if d.on R.MGT.MBX_STATUS.BUSY then some (d.mgt.owedStatus.getD status) else none
  emit .resetCores (put R.MGT.STATUS.STATE 2 { d with ras := { d.ras with coresDown := true }, mgt := { d.mgt with owedStatus := owed } })

/-- The restarts of the last 10 min. -/
def Dev.recentRestarts (d : Dev) : List Nat := d.ras.restarts.filter (fun t => decide (dtDiff d.dt t ≤ 600 * 1000000000 * 65536))

/-- A lockstep mismatch, or a watchdog that was not served (R437). -/
def coresFail (d : Dev) : Dev :=
  if d.ras.coresDown || d.aon.off || d.get R.TOP.STATE.STEP < 3 then d
  else
    let d := coresReset 9 d
    rasStat 7 1 { d with ras := { d.ras with restarts := d.dt :: d.recentRestarts } }

/-- `LOCKSTEP_MISMATCH` (R437). -/
def execLockstepMismatch (s : State) : Host.Outcome State Fault Refusal := total (fun _ d => coresFail d) s
/-- `MANAGEMENT_WATCHDOG` (R437). -/
def execManagementWatchdog (s : State) : Host.Outcome State Fault Refusal := total (fun _ d => coresFail d) s

/-- One relocation of an SRAM row (R436): the next of its array's two spare rows takes over, or none is left. -/
def relocateRow (block inst arr row : Nat) (d : Dev) : Dev :=
  let k := (256 * block + inst) * 65536 + arr
  let n := num d.ras.rowSpare k
  if n < 2 then
    let d := { d with ras := { d.ras with rowSpare := setNum k (n + 1) d.ras.rowSpare, rowCe := setNum (k * 65536 + row) 0 d.ras.rowCe } }
    let d := rasPerf 6 1 (rasStat 5 1 (event 6 R.RAS.STATUS.SEQ [R.RAS.STATUS.SRAM_REPAIR] d))
    recordRepair 4 block inst (arr + row * 65536 + n * 2 ^ 32) d
  else logRas 0x068d inst 2 (arr + row * 65536 + block * 2 ^ 32) (event 6 R.RAS.STATUS.SEQ [R.RAS.STATUS.SRAM_EXHAUST] d)

/-- The restarted cores serve again, or stay in service mode after four restarts in 10 min (R437); what waited for them is
done (R442). -/
def coresServe (m : Mem) (d : Dev) : Dev :=
  let d := { d with ras := { d.ras with coresDown := false, restarts := d.recentRestarts } }
  let stay := d.ras.service || decide (4 ≤ d.ras.restarts.length)
  let d := inc (R.MGT.STAT.COUNT 6) 1 (event 3 R.MGT.STATUS.SEQ [R.MGT.STATUS.RESTART] d)
  let d := logFw 0x0302 0 2 d.ras.restarts.length (showFirmware d)
  let d := if stay && !d.ras.service then event 6 R.RAS.STATUS.SEQ [R.RAS.STATUS.LOCKSTEP] { d with ras := { d.ras with service := true } } else d
  let d := put R.MGT.STATUS.STATE (if stay then 3 else 1) d
  let d := match d.mgt.owedStatus with
    | some st => mbxRespond st [] { d with mgt := { d.mgt with owedStatus := none } }
    | none => d
  if stay then d
  else
    let q := d.ras.relocQ
    let d := each (fun (x : Nat × Nat × Nat × Nat) d => relocateRow x.1 x.2.1 x.2.2.1 x.2.2.2 d) q { d with ras := { d.ras with relocQ := [] } }
    let chs := d.ddr.retireQ
    each (fun ch d => retire ch m d) chs { d with ddr := { d.ddr with retireQ := [] } }

/-- `MANAGEMENT_RESTART` (R437). -/
def execManagementRestart (s : State) : Host.Outcome State Fault Refusal :=
  total (fun m d => if d.ras.coresDown then coresServe m d else d) s

/-! ## Sensors and the Carver clock (R447, R449, R17) -/

/-- A sensor's last reading in 1/16 °C; none before its first conversion. -/
def Dev.sensor (d : Dev) (n : Nat) : Option Int := if d.on (R.MGT.TS.VALID n) then some (sgn 16 (d.get (R.MGT.TS.TEMP n))) else none

/-- The hottest sensor and its reading. -/
def Dev.hottest (d : Dev) : Option (Nat × Int) :=
  (List.range 16).foldl (fun (b : Option (Nat × Int)) n =>
    match b, d.sensor n with
    | none, some t => some (n, t)
    | some x, some t => if x.2 < t then some (n, t) else b
    | b, none => b) none

/-- `TEMP_HOT` in 1/16 °C. -/
def Dev.hotLimit (d : Dev) : Int := 16 * (d.get R.MGT.TEMP_HOT.C : Int)

/-- A conversion (R447): the reading, the hottest one, and since when it is hot or all are cool. -/
def conversion (n temp : Nat) (d : Dev) : Dev :=
  let d := puts [(R.MGT.TS.TEMP n, temp), (R.MGT.TS.VALID n, 1)] d
  let d := match d.hottest with
    | some x => puts [(R.MGT.TEMP_MAX.TEMP, unsgn 16 x.2), (R.MGT.TEMP_MAX.SENSOR, x.1)] d
    | none => d
  let old := KMap.get (fun _ => (none : Option Nat)) d.mgt.hotAt n
  let hot := if d.hotLimit < sgn 16 temp then some (old.getD d.dt) else none
  let cool := (List.range 16).all (fun i => match d.sensor i with
    | some t => decide (t < d.hotLimit - 80)
    | none => true)
  { d with mgt := { d.mgt with hotAt := KMap.put (fun _ => none) d.mgt.hotAt n hot, coolAt := if cool then some (d.mgt.coolAt.getD d.dt) else none } }

/-- `SENSOR_CONVERSION` (R447). -/
def execSensorConversion (n : Fin 16) (temp : BitVec 16) (s : State) : Host.Outcome State Fault Refusal :=
  total (fun _ d => if d.aon.off then d else conversion n.val temp.toNat d) s

/-- The clock after a step of either loop is shown, and the step is logged (R17). -/
def showStep (d : Dev) : Dev := let d := showClock d; logFw 0x037f 0 2 d.carverMhz d

/-- The temperature loop lowers the Carver clock 10 ms after a sensor became hot; the next step waits 10 ms more. -/
def hotStep (n : Nat) (d : Dev) : Dev :=
  match (if d.mgtUp then KMap.get (fun _ => (none : Option Nat)) d.mgt.hotAt n else none) with
  | none => d
  | some t =>
    let d := reachNs t 10000000 d
    let d := { d with mgt := { d.mgt with hotSteps := min 8 (d.mgt.hotSteps + 1), hotAt := KMap.put (fun _ => none) d.mgt.hotAt n (some d.dt) } }
    let d := event 3 R.MGT.STATUS.SEQ [R.MGT.STATUS.THERM_HOT] d
    showStep (logFw 0x0303 n 2 (d.get (R.MGT.TS.TEMP n)) d)

/-- `THERMAL_HOT` (R449). -/
def execThermalHot (n : Fin 16) (s : State) : Host.Outcome State Fault Refusal := total (fun _ d => hotStep n.val d) s

/-- The power loop lowers the clock when power has exceeded the ceiling for 10 ms, and raises it when power has stayed below
95 % of it for 100 ms; the temperature loop raises it when every sensor has been cool for 100 ms (R17, R449). -/
def clockStep (thermal up : Bool) (d : Dev) : Dev :=
  if !d.mgtUp then d
  else
    match thermal, up with
    | true, false =>
      match (List.range 16).find? (fun n => (KMap.get (fun _ => (none : Option Nat)) d.mgt.hotAt n).isSome) with
      | some n => hotStep n d
      | none => d
    | true, true =>
      match (if d.mgt.hotSteps = 0 then none else d.mgt.coolAt) with
      | some t =>
        let d := reachNs t 100000000 d
        showStep { d with mgt := { d.mgt with hotSteps := d.mgt.hotSteps - 1, coolAt := some d.dt } }
      | none => d
    | false, false =>
      match (if d.mgt.powerSteps = 8 then none else d.mgt.highAt) with
      | some t =>
        let d := reachNs t 10000000 d
        showStep { d with mgt := { d.mgt with powerSteps := d.mgt.powerSteps + 1, highAt := some d.dt } }
      | none => d
    | false, true =>
      match (if d.mgt.powerSteps = 0 then none else d.mgt.lowAt) with
      | some t =>
        let d := reachNs t 100000000 d
        showStep { d with mgt := { d.mgt with powerSteps := d.mgt.powerSteps - 1, lowAt := some d.dt } }
      | none => d

/-- `CARVER_CLOCK_STEP` (R17, R449): a step of the power loop or the temperature loop. -/
def execCarverClockStep (thermal up : Bool) (s : State) : Host.Outcome State Fault Refusal := total (fun _ d => clockStep thermal up d) s

/-! ## Power readings (R450 to R452, R17) -/

def Dev.railS (d : Dev) (r : Nat) : RailS := KMap.get (fun _ => {}) d.mgt.rail r
def setRail (r : Nat) (x : RailS) (d : Dev) : Dev := { d with mgt := { d.mgt with rail := KMap.put (fun _ => {}) d.mgt.rail r x } }

/-- A transaction with a rail, at its slave address and page (R450). -/
def pmb (r cmd v : Nat) (d : Dev) : Dev := emit (.pmbus (d.get (R.MGT.PMB_RAIL.ADDR r)) (d.get (R.MGT.PMB_RAIL.PAGE r)) cmd v) d

/-- A loop that acts every 1 ms of DT: its next turn. -/
def everyMs (last : Option Nat) (d : Dev) : Dev := last.elim d (fun t => reachNs t 1000000 d)

/-- PMBus transactions, and those that failed. -/
def xfers (n bad : Nat) (d : Dev) : Dev := mgtPerf 6 n (mgtPerf 7 bad (inc (R.MGT.STAT.COUNT 3) n (inc (R.MGT.STAT.COUNT 4) bad d)))

/-- A third failure marks a rail FAULT for 1 s (R452). -/
def railFault (r : Nat) (d : Dev) : Dev :=
  let d := setRail r { d.railS r with faultAt := some d.dt } (put (R.MGT.PMB_POUT.FAULT r) 1 d)
  logFw 0x0304 r 2 r (event 3 R.MGT.STATUS.SEQ [R.MGT.STATUS.PMB_FAULT] d)

/-- The readings of one rail; the transactions that fail come first (R451, R452). -/
def readRail (x : RailRead) (d : Dev) : Dev :=
  let r := x.rail.val
  if !d.on (R.MGT.PMB_RAIL.EN r) || (d.railS r).faultAt.isSome then d
  else
    let bad := min 3 x.fails
    if bad = 3 then railFault r (xfers 3 3 d)
    else
      let good := b2n x.pout.isSome + b2n x.vin.isSome + b2n x.vout.isSome + b2n x.iout.isSome + b2n x.temp.isSome + b2n x.mode.isSome
      let d := xfers (bad + good) bad d
      let d := match x.pout with
        | some v => pmb r 0x96 v.toNat (put (R.MGT.PMB_POUT.POUT r) v.toNat d)
        | none => d
      let s := d.railS r
      let val (o : Option (BitVec 16)) (v : Nat) : Nat := (o.map BitVec.toNat).getD v
      setRail r { s with vin := val x.vin s.vin, vout := val x.vout s.vout, iout := val x.iout s.iout, temp := val x.temp s.temp
                         linear := match x.mode with
                           | some v => v.toNat / 32 == 0
                           | none => s.linear } d

/-- The rails whose READ_POUT makes up the rail power. -/
def Dev.powerRails (d : Dev) : List Nat := (List.range 8).filter (fun r => d.on (R.MGT.PMB_RAIL.EN r) && d.on (R.MGT.PMB_RAIL.POWER r))

/-- The rail power in units of 10 mW, from last good readings where a rail is FAULT. -/
def Dev.railPower (d : Dev) : Nat := sumNat (d.powerRails.map (fun r => d.get (R.MGT.PMB_POUT.POUT r)))

/-- The power ceiling in units of 10 mW (R18). -/
def Dev.powerCeiling (d : Dev) : Nat :=
  match d.get R.TOP.PROFILE_ACT.PWR_CEIL with
  | 0 => 11800
  | 1 => 9500
  | _ => 7000

/-- Rails with POWER that the PMBus clock allows (R451). -/
def Dev.powerRailLimit (d : Dev) : Nat := match d.get R.MGT.PMB_CTL.SPEED with | 0 => 1 | 1 => 4 | _ => 8

/-- The readings of one millisecond. -/
def powerRead (rs : List RailRead) (d : Dev) : Dev :=
  let d := everyMs d.mgt.powAt d
  let d := each readRail rs { d with mgt := { d.mgt with powAt := some d.dt } }
  let p := d.railPower
  let high := if d.powerCeiling < p then some (d.mgt.highAt.getD d.dt) else none
  let low := if 100 * p < 95 * d.powerCeiling then some (d.mgt.lowAt.getD d.dt) else none
  { d with mgt := { d.mgt with highAt := high, lowAt := low } }

/-- `POWER_READ` (R451, R452, R17): more rails with POWER than the clock allows are a host error. -/
def execPowerRead (rails : List RailRead) (s : State) : Host.Outcome State Fault Refusal :=
  run (fun _ d =>
    if !d.mgtUp || !d.on R.MGT.PMB_CTL.EN then .next d
    else if d.powerRailLimit < d.powerRails.length then .fault (.hostError "too many rails with POWER for PMB_CTL.SPEED")
    else .next (powerRead rails d)) s

/-- `RAIL_FAULT_END` (R452). -/
def execRailFaultEnd (r : Fin 8) (s : State) : Host.Outcome State Fault Refusal :=
  total (fun _ d =>
    match (d.railS r.val).faultAt with
    | none => d
    | some t => setRail r.val { d.railS r.val with faultAt := none } (put (R.MGT.PMB_POUT.FAULT r.val) 0 (reachNs t 1000000000 d))) s

/-- `SMBALERT` (R450): the STATUS_WORD of every enabled rail is read, and logged when it is not zero. -/
def execSmbalert (words : List (Fin 8 × BitVec 16)) (s : State) : Host.Outcome State Fault Refusal :=
  total (fun _ d =>
    if !d.mgtUp || !d.on R.MGT.PMB_CTL.EN then d
    else each (fun (x : Fin 8 × BitVec 16) d =>
      if !d.on (R.MGT.PMB_RAIL.EN x.1.val) then d
      else
        let d := pmb x.1.val 0x79 x.2.toNat (xfers 1 0 d)
        when (x.2.toNat != 0) (logFw 0x037f x.1.val 2 x.2.toNat) d) words d) s

/-! ## Adaptive voltage scaling (R453) -/

/-- The rail that the loop sets. -/
def Dev.avsRail (d : Dev) : Option Nat := (List.range 8).find? (fun r => d.on (R.MGT.PMB_RAIL.EN r) && d.on (R.MGT.PMB_RAIL.AVS r))

/-- A new setting, clipped to the limits (R453). -/
def setVout (r : Nat) (mv : Int) (d : Dev) : Dev :=
  let v := (clampI (max 700 (d.get R.MGT.AVS_LIM.VMIN)) (min 800 (d.get R.MGT.AVS_LIM.VMAX)) mv).toNat
  if v = d.get R.MGT.AVS.MV then d
  else
    pmb r 0x21 v (mgtPerf 8 1 (inc (R.MGT.STAT.COUNT 5) 1 (xfers 1 0 (put R.MGT.AVS.MV v d))))

/-- The loop acts on a rail: it is on, the cores serve, and the rail is neither FAULT nor non-linear, which is logged. -/
def avsOn (f : Nat → Dev → Dev) (d : Dev) : Dev :=
  if !d.mgtUp || !d.on R.MGT.PMB_CTL.EN || !d.on R.MGT.AVS.EN then d
  else
    match d.avsRail with
    | none => d
    | some r => if (d.railS r).faultAt.isSome || !(d.railS r).linear then logFw 0x030a r 2 (b2n (d.railS r).linear) d else f r d

/-- The hottest sensor has moved by at most 3 °C over the last 60 ms. -/
def tempsCalm (ts : List (Nat × Int)) : Bool := ts.all (fun a => ts.all (fun b => decide ((a.2 - b.2).natAbs ≤ 48)))

/-- One evaluation with the smallest slack of the 24 monitors. -/
def avsEvaluate (slack : Nat) (r : Nat) (d : Dev) : Dev :=
  let d := everyMs d.mgt.avsAt d
  let d := { d with mgt := { d.mgt with avsAt := some d.dt } }
  let now := match d.hottest with
    | some x => [(d.dt, x.2)]
    | none => []
  let ts := now ++ d.mgt.temps.filter (fun (x : Nat × Int) => decide (dtDiff d.dt x.1 ≤ 60000000 * 65536))
  let calm := if 8 < slack then min 100 (d.mgt.calm + 1) else 0
  let d := { d with mgt := { d.mgt with temps := ts, calm } }
  let mv : Int := d.get R.MGT.AVS.MV
  if slack < 4 then setVout r (mv + 10) d
  else if 100 ≤ calm ∧ tempsCalm ts = true then setVout r (mv - 5) { d with mgt := { d.mgt with calm := 0 } }
  else d

/-- `AVS_EVALUATION` (R453). -/
def execAvsEvaluation (slack : BitVec 8) (s : State) : Host.Outcome State Fault Refusal := total (fun _ d => avsOn (avsEvaluate slack.toNat) d) s

/-- `AVS_IMMEDIATE_RAISE` (R453): a slack below 2 codes between evaluations. -/
def execAvsImmediateRaise (s : State) : Host.Outcome State Fault Refusal :=
  total (fun _ d => avsOn (fun r d => setVout r ((d.get R.MGT.AVS.MV : Int) + 10) { d with mgt := { d.mgt with calm := 0 } }) d) s

/-! ## The mailbox (R460, R461) -/

/-- A field of the request's payload. -/
def Dev.arg (d : Dev) (off n : Nat) : Nat := d.mbxField (16 + off) n

/-- The controller executes the request that waits, if it is this command; a payload shorter than the command's is a bad
argument. -/
def mbxRow (cmd need : Nat) (f : Dev → Dev) (d : Dev) : Dev :=
  if !d.on R.MGT.MBX_STATUS.BUSY || d.ras.coresDown || d.mgt.owedStatus.isSome || d.mbxField 0 2 != cmd then d
  else if d.mbxField 8 4 < need ∨ 16368 < d.mbxField 8 4 then mbxRespond 2 [] d
  else f d

/-- The 64 bytes of the slot table record (R458). -/
def SlotTab.bytes (t : SlotTab) : List Byte :=
  let b := leBytes 4 0x544f4c53 ++ leBytes 2 1 ++ leBytes 1 t.active ++ leBytes 1 t.pending' ++ leBytes 4 t.gen ++ leBytes 4 t.len0 ++ leBytes 4 t.len1
    ++ leBytes 1 t.state0 ++ leBytes 1 t.state1 ++ leBytes 1 t.fwslot ++ leBytes 37 0
  b ++ leBytes 4 (crc32c b)

/-- `INFO` (R461). -/
def execInfo (s : State) : Host.Outcome State Fault Refusal :=
  total (fun _ d => mbxRow 1 0 (fun d =>
    mbxRespond 0 (leBytes 2 (d.get R.MGT.ID.FW_VER) ++ leBytes 2 (d.get R.MGT.ID.ROM_VER) ++ leBytes 8 Config.serial ++ leBytes 8 Config.dieId
      ++ d.slotTab.bytes ++ leBytes 4 (d.get (R.MGT.STAT.COUNT 6))) d) d) s

/-- The response of LOG_READ from the entries of a device (R461). -/
def logRead (from' count : Nat) (log : List LogEntry) : List Byte :=
  let oldest := match log with
    | e :: _ => e.lseq
    | [] => 0
  let es := (log.filter (fun e => decide (max from' oldest ≤ e.lseq))).take count
  let first := match es with
    | e :: _ => e.lseq
    | [] => max from' oldest
  leBytes 8 Config.serial ++ leBytes 4 first ++ leBytes 4 oldest ++ leBytes 2 es.length ++ leBytes 14 0 ++ es.flatMap LogEntry.bytes

/-- `LOG_READ` (R461): entries of the log partition. -/
def execLogRead (io : NvmIo) (s : State) : Host.Outcome State Fault Refusal :=
  total (fun _ d => mbxRow 2 6 (fun d =>
    if 500 < d.arg 4 2 then mbxRespond 2 [] d
    else
      match nvmRead io d with
      | (none, d) => mbxRespond 3 [] d
      | (some i, d) => mbxRespond 0 (logRead (d.arg 0 4) (d.arg 4 2) (d.nvmS i).log) d) d) s

/-- `LOG_WRITE` (R461): a host entry of the log. -/
def execLogWrite (s : State) : Host.Outcome State Fault Refusal :=
  total (fun _ d => mbxRow 3 12 (fun d =>
    if d.arg 0 2 < 0xff00 ∨ 3 < d.arg 2 1 then mbxRespond 2 [] d
    else mbxRespond 0 [] (logFw (d.arg 0 2) 0 (d.arg 2 1) (d.arg 4 8) d)) d) s

/-! ### Image update (R462) -/

/-- The slot that an update writes: the one other than ACTIVE. -/
def Dev.target (d : Dev) : Nat := 1 - d.slotTab.active % 2

def SlotTab.setState (t : SlotTab) (n v : Nat) : SlotTab := if n = 0 then { t with state0 := v } else { t with state1 := v }
def SlotTab.setLen (t : SlotTab) (n v : Nat) : SlotTab := if n = 0 then { t with len0 := v } else { t with len1 := v }
def SlotTab.stateOf (t : SlotTab) (n : Nat) : Nat := if n = 0 then t.state0 else t.state1

/-- A write command answers: done while an NVM device took it, else NVM error. -/
def mbxWrote (payload : List Byte) (d : Dev) : Dev := if d.nvmDown then mbxRespond 3 [] d else mbxRespond 0 payload d

/-- `IMG_BEGIN` (R462). -/
def execImgBegin (io : NvmIo) (s : State) : Host.Outcome State Fault Refusal :=
  total (fun _ d => mbxRow 0x10 4 (fun d =>
    let len := d.arg 0 4
    let n := d.target
    if 2 ^ 25 < len then mbxRespond 2 [] d
    else
      let d := nvmWrite 3 io (fun x => x.setImg n []) d
      let d := slotWrite {} (fun t => (t.setState n 0).setLen n len) d
      let c := if d.mgt.committed = some n then none else d.mgt.committed
      mbxWrote (leBytes 1 n) { d with mgt := { d.mgt with imgLen := some len, imgOk := false, committed := c } }) d) s

/-- `IMG_WRITE` (R462). -/
def execImgWrite (io : NvmIo) (s : State) : Host.Outcome State Fault Refusal :=
  total (fun _ d => mbxRow 0x11 4 (fun d =>
    let n := d.target
    let data := d.mbxBytes 20 (d.mbxField 8 4 - 4)
    match d.mgt.imgLen with
    | none => mbxRespond 8 [] d
    | some len =>
      if len < d.arg 0 4 + data.length then mbxRespond 2 [] d
      else
        let d := nvmWrite 3 io (fun x => x.setImg n (imgPut (x.img n) (d.arg 0 4) data)) d
        let d := when (d.slotTab.stateOf n == 0) (slotWrite {} (fun t => t.setState n 1)) d
        mbxWrote [] { d with mgt := { d.mgt with imgOk := false } }) d) s

/-- The status of a failing check (R460): CRC, signature, target part, serial binding. -/
def verifyStatus (f : Nat) (img : List Byte) : Nat :=
  match f with
  | 0 => 0
  | 1 => 2
  | 2 => if fieldAt img 12 4 = 0x1248 then 7 else 6
  | 3 => 4
  | _ => 5

/-- `IMG_VERIFY` (R462, R459). -/
def execImgVerify (io : NvmIo) (s : State) : Host.Outcome State Fault Refusal :=
  total (fun _ d => mbxRow 0x12 0 (fun d =>
    let n := d.target
    match bootRead io n d with
    | ((some _, _), d) => mbxRespond 0 (leBytes 4 0) { d with mgt := { d.mgt with imgOk := true } }
    | ((none, f), d) =>
      let d := { d with mgt := { d.mgt with imgOk := false } }
      if f = 0 then mbxRespond 3 [] d
      else mbxRespond (verifyStatus f (d.nvmMain.image n (d.slotTab.len n))) (leBytes 4 f) d) d) s

/-- `IMG_COMMIT` (R462). -/
def execImgCommit (io : NvmIo) (s : State) : Host.Outcome State Fault Refusal :=
  total (fun _ d => mbxRow 0x13 0 (fun d =>
    let n := d.target
    if !d.mgt.imgOk then mbxRespond 8 [] d
    else
      let d := slotWrite io (fun t => { t.setState n 2 with pending' := n }) d
      if d.nvmDown then mbxRespond 3 [] d
      else mbxRespond 0 [] (logFw 0x0305 n 0 n { d with mgt := { d.mgt with committed := some n } })) d) s

/-- `FW_ACTIVATE` (R462): the cores restart from the committed slot; the response is sent after the restart. -/
def execFwActivate (io : NvmIo) (s : State) : Host.Outcome State Fault Refusal :=
  total (fun _ d => mbxRow 0x14 0 (fun d =>
    match d.mgt.committed with
    | none => mbxRespond 8 [] d
    | some n =>
      let d := slotWrite io (fun t => { t with fwslot := n }) d
      if d.nvmDown then mbxRespond 3 [] d
      else
        let d := if d.ras.service && d.get R.TOP.STATE.MODE != 3 then { d with ras := { d.ras with service := false, restarts := [] } } else d
        coresReset 0 (inc (R.MGT.STAT.COUNT 7) 1 d)) d) s

/-! ### Repair map (R463) -/

/-- The 32 bytes of a repair map entry (R441). -/
def RepEntry.bytes (e : RepEntry) : List Byte :=
  let b := leBytes 1 e.kind ++ leBytes 1 e.flags ++ leBytes 1 e.block ++ leBytes 1 0 ++ leBytes 2 e.inst ++ leBytes 2 0 ++ leBytes 8 e.dt ++ leBytes 4 e.epoch ++ leBytes 8 e.data
  b ++ leBytes 4 (crc32c b)

/-- The 64 bytes of the repair map's header (R440). -/
def NvmDev.mapHeader (x : NvmDev) : List Byte :=
  let b := leBytes 4 0x50414d52 ++ leBytes 2 1 ++ leBytes 2 x.repairs.length ++ leBytes 8 x.mapSerial ++ leBytes 4 x.mapGen ++ leBytes 40 0
  b ++ leBytes 4 (crc32c b)

/-- `REPAIR_READ` (R461). -/
def execRepairRead (io : NvmIo) (s : State) : Host.Outcome State Fault Refusal :=
  total (fun _ d => mbxRow 0x20 4 (fun d =>
    if 500 < d.arg 2 2 then mbxRespond 2 [] d
    else
      match nvmRead io d with
      | (none, d) => mbxRespond 3 [] d
      | (some _, d) => mbxRespond 0 (d.mapDev.mapHeader ++ ((d.mapDev.repairs.drop (d.arg 0 2)).take (d.arg 2 2)).flatMap RepEntry.bytes) d) d) s

/-- `REPAIR_CLEAR` (R463). -/
def execRepairClear (io : NvmIo) (s : State) : Host.Outcome State Fault Refusal :=
  total (fun _ d => mbxRow 0x21 8 (fun d =>
    let lo := d.arg 0 2
    let n := d.arg 2 2
    let es := d.mapEntries
    if d.arg 4 4 ≠ Config.serial % 2 ^ 32 ∨ es.length < lo + n then mbxRespond 2 [] d
    else
      let cleared := ((es.drop lo).take n).map (fun (e : RepEntry) => { e with flags := e.flags ||| 2 })
      mbxWrote [] (mapWrite io (es.take lo ++ cleared ++ es.drop (lo + n)) d)) d) s

/-- `REPAIR_COMPACT` (R463). -/
def execRepairCompact (io : NvmIo) (s : State) : Host.Outcome State Fault Refusal :=
  total (fun _ d => mbxRow 0x22 4 (fun d =>
    let es := d.mapEntries.filter (fun (e : RepEntry) => !bit e.flags 1)
    if d.arg 0 4 ≠ Config.serial % 2 ^ 32 then mbxRespond 2 [] d
    else mbxWrote (leBytes 4 es.length) (mapWrite io es d)) d) s

/-! ### Caliper, sensors, root key -/

/-- `CAL_RUN` (R461, R465): refused in service mode. -/
def execCalRun (s : State) : Host.Outcome State Fault Refusal :=
  total (fun _ d => mbxRow 0x30 2 (fun d =>
    let t := d.arg 0 2
    if d.ras.service then mbxRespond 0xa [] d
    else if t = 0xffff then mbxRespond 0 [] (calAsk 0x3f d)
    else if t < 43 then mbxRespond 0 [] (calAsk t d)
    else mbxRespond 2 [] d) d) s

/-- `SENSORS` (R461). -/
def execSensors (s : State) : Host.Outcome State Fault Refusal :=
  total (fun _ d => mbxRow 0x31 0 (fun d =>
    let rail (r : Nat) : List Byte :=
      let x := d.railS r
      leBytes 2 x.vin ++ leBytes 2 x.vout ++ leBytes 2 x.iout ++ leBytes 2 x.temp ++ leBytes 2 (d.get (R.MGT.PMB_POUT.POUT r))
    mbxRespond 0 ((List.range 16).flatMap (fun n => leBytes 2 (d.get (R.MGT.TS.TEMP n)))
      ++ leBytes 4 (d.get R.MGT.VMON_LO.OUT) ++ leBytes 4 (d.get R.MGT.VMON_HI.OUT) ++ (List.range 8).flatMap rail) d) d) s

/-- `ROOT_PROG` (R459): accepted once. -/
def execRootProg (s : State) : Host.Outcome State Fault Refusal :=
  total (fun _ d => mbxRow 0x40 36 (fun d =>
    if d.arg 32 4 ≠ Config.serial % 2 ^ 32 then mbxRespond 2 [] d
    else if !d.rootHash.isEmpty then mbxRespond 8 [] d
    else mbxRespond 0 [] { d with rootHash := d.mbxBytes 16 32 }) d) s

end Sys2Proof.Machine
end

