-- ==== Sys2Proof/Machine/Ras.lean ====
section
/-!
DEFINITION. Errors found outside the data path's own checks: the scrub of SRAMs (R436, R225, R262, R317, R353) and of
triplicated fields (R39), voltage monitors (R448), injected faults (R444) and the restore of blobs (R317).
-/

namespace Sys2Proof.Machine

/-! ## SRAM (R436) -/

/-- A part of a view line without the columns of a lost word (R225, R207). -/
def cutSeg (a n : Nat) (v : VSeg) : List VSeg :=
  let b := min (a + n) (v.first + v.len)
  let a := max a v.first
  if b ≤ a then [v]
  else
    ([{ v with len := a - v.first, xs := v.xs.take (a - v.first) },
      { v with first := a, len := b - a, got := false, xs := [] },
      { v with first := b, len := v.first + v.len - b, xs := v.xs.drop (b - v.first) }] : List VSeg).filter (fun s => 0 < s.len)

/-- An uncorrectable error in the line store of the fusion unit (R225). -/
def fusSramUe (view lsn first len : Nat) (d : Dev) : Dev :=
  let d := logEv 0x0b8c 0 3 (lsn + first * 2 ^ 32 + view * 2 ^ 48) (errEvent 1 (event 11 R.FUS.STATUS.SEQ [R.FUS.STATUS.SRAM_UE] d))
  let v := KMap.get (fun _ => ({} : ViewS)) d.fus.view view
  let v := { v with lines := v.lines.map (fun (l : VLine) => if l.lsn = lsn then { l with segs := l.segs.flatMap (cutSeg first len) } else l) }
  { d with fus := { d.fus with view := KMap.put (fun _ => {}) d.fus.view view v } }

/-- An uncorrectable error in the kernel or a column map: the samples of every column that uses the word are not received
until it is written again or the banks are exchanged (R225). -/
def fusTableUe (key : Nat) (d : Dev) : Dev :=
  let d := logEv 0x0b8c 0 3 key (errEvent 1 (event 11 R.FUS.STATUS.SEQ [R.FUS.STATUS.SRAM_UE] d))
  setBank 8 { d.bankS 8 with lost := key :: (d.bankS 8).lost } d

/-- An uncorrectable error in the held line of a view (R213, R225). -/
def fusHeldUe (view first len : Nat) (d : Dev) : Dev :=
  let d := logEv 0x0b8c 0 3 (first * 2 ^ 32 + view * 2 ^ 48) (errEvent 1 (event 11 R.FUS.STATUS.SEQ [R.FUS.STATUS.SRAM_UE] d))
  setView view { d.viewS view with wholeCut := (first, len) :: (d.viewS view).wholeCut } d

/-- An uncorrectable error in a table of the classifier: the pixels of the next line that read it take class 0 (R263). -/
def clsSramUe (first count : Nat) (d : Dev) : Dev :=
  let d := logEv 0x0c8c 0 3 first (errEvent 1 (event 12 R.CLS.STATUS.SEQ [R.CLS.STATUS.SRAM_UE] d))
  { d with cls := { d.cls with badPx := d.cls.badPx ++ [(first, count)] } }

/-- What the unit that owns a lost word does (R436). -/
def lostWord (w : SramAt) (m : Mem) (d : Dev) : Dev :=
  match w with
  | .gouge g => gougeSramUe g.val m d
  | .lathe n => latheSramUe n.val d
  | .fusion v lsn first len => fusSramUe v.val lsn.toNat first len d
  | .classifier first count => clsSramUe first count d
  | .fusionTable key => fusTableUe key d
  | .fusionHeld v first len => fusHeldUe v.val first len d
  | .merge w => mergeSramUe w d
  | .carver x => carverSramUe x d
  | .verdict x => vrdSramUe x d
  | .elsewhere => errEvent 1 d

/-- A corrected SRAM error is counted by the unit that owns the array (R195, R225, R262, R263, R291, R317, R353,
R425). -/
def sramCorrected (block inst : Nat) (d : Dev) : Dev :=
  match block with
  | 10 => lthPerf inst 0x11 1 d
  | 11 => fusPerf 0xd 1 (fusStat 15 1 d)
  | 12 => clsPerf 0xd 1 (clsStat 11 1 d)
  | 13 => ggePerf inst 0xf 1 d
  | 14 => mrgPerf 0x11 1 d
  | 15 => crvPerf 0xb 1 (crvStat 10 1 d)
  | 16 => vrdPerf 0xb 1 (vrdStat 15 1 d)
  | 21 => cmpPerf 0xd 1 (cmpStat 11 1 d)
  | _ => d

/-- A relocation that is due runs now, or waits for the cores (R436, R442). -/
def relocDue (block inst arr row : Nat) (d : Dev) : Dev :=
  if !d.on R.RAS.CTL.SRAM_AUTO then d
  else if d.ras.coresDown then
    if d.ras.relocQ.contains (block, inst, arr, row) then d
    else { d with ras := { d.ras with relocQ := d.ras.relocQ ++ [(block, inst, arr, row)] } }
  else relocateRow block inst arr row d

/-- A word found in error: corrected and counted, or lost. -/
def sramHit (h : SramHit) (m : Mem) (d : Dev) : Dev :=
  let b := h.block.val
  let a := h.arr.toNat
  let r := h.row.toNat
  match h.lost with
  | some w => relocDue b h.inst a r (lostWord w m (rasStat 6 1 d))
  | none =>
    let k := ((256 * b + h.inst) * 65536 + a) * 65536 + r
    let n := num d.ras.rowCe k + 1
    let d := sramCorrected b h.inst { d with ras := { d.ras with rowCe := setNum k n d.ras.rowCe } }
    if d.get R.RAS.CTL.SRAM_CE_ROW ≤ n then relocDue b h.inst a r d else d

/-- `SRAM_SCRUB` (R436): words in units of 1,024, and a word found in error by the scrub or an access. -/
def execSramScrub (kwords : Nat) (hit : Option SramHit) (s : State) : Host.Outcome State Fault Refusal :=
  total (fun m d =>
    let d := rasPerf 7 kwords d
    match hit with
    | some h => sramHit h m d
    | none => d) s

/-! ## Triplicated fields (R39) -/

/-- The fields of a register lose their value: what it is until the restore is free. -/
def loseFields (addr : Nat) (d : Dev) : Dev :=
  match siteOf addr with
  | .reg _ _ _ r a =>
    each (fun (f : FieldDef) d =>
      if f.ty = .rw ∨ f.ty = .rwb ∨ f.ty = .rwp then takeFree (put { addr := a, lo := f.lo, w := f.w } d.fresh d) else d) r.fields d
  | _ => d

/-- The internal fault of the unit that owns a lost field (R39, R426). -/
def ownerFault (addr : Nat) (m : Mem) (d : Dev) : Dev :=
  match findBlock blocks addr with
  | some (b, inst, _) => if b.code = 13 then gougeFault inst none m d else if b.code = 10 then latheFault inst d else d
  | none => d

/-- A field whose copies disagree (R39). -/
def tHit (h : THit) (m : Mem) (d : Dev) : Dev :=
  let a := h.addr.toNat
  if h.lost then
    let d := logRas 0x0602 0 3 a (rasStat 1 1 (event 6 R.RAS.STATUS.SEQ [R.RAS.STATUS.T_LOST] d))
    let d := loseFields a { d with ras := { d.ras with tLost := d.ras.tLost ++ [a] } }
    ownerFault a m d
  else logRas 0x0601 0 1 a (rasPerf 1 1 (rasStat 0 1 (event 6 R.RAS.STATUS.SEQ [R.RAS.STATUS.T_CORR] d)))

/-- `T_FIELD_SCRUB` (R39). -/
def execTFieldScrub (hits : List THit) (s : State) : Host.Outcome State Fault Refusal :=
  total (fun m d => each (fun h d => tHit h m d) hits d) s

/-- The fields of a register take the value of an image word, or their reset values where the image wrote none. -/
def restoreFields (addr : Nat) (d : Dev) : Dev :=
  match siteOf addr with
  | .reg _ _ _ r a =>
    each (fun (f : FieldDef) d =>
      if f.ty = .rw ∨ f.ty = .rwb ∨ f.ty = .rwp then
        let v := match KMap.get (fun _ => (none : Option Nat)) d.imgWord (a + 4 * (f.lo / 32)) with
          | some w => bits w (f.lo % 32) f.w
          | none => f.reset
        put { addr := a, lo := f.lo, w := f.w } v d
      else d) r.fields d
  | _ => d

/-- `T_FIELD_RESTORE` (R39, R442): the field lost longest ago, once the cores serve. -/
def execTFieldRestore (s : State) : Host.Outcome State Fault Refusal :=
  total (fun _ d =>
    if d.ras.coresDown then d
    else
      match d.ras.tLost with
      | [] => d
      | a :: rest => restoreFields a { d with ras := { d.ras with tLost := rest } }) s

/-! ## Voltage monitors (R448) -/

/-- A domain leaves its window, or is in it again. -/
def vmon (n : Nat) (out : Bool) (m : Mem) (d : Dev) : Dev :=
  let f : Fld := if n < 32 then R.MGT.VMON_LO.OUT else R.MGT.VMON_HI.OUT
  let i := n % 32
  let was := bit (d.get f) i
  if was == out || !bit d.domains n then d
  else
    let d := put f (setBits (d.get f) i 1 (b2n out)) d
    if !out then d
    else if 3 ≤ n ∧ n < 11 then groupFault (n - 3) m d
    else if 11 ≤ n ∧ n < 19 then latheFault (n - 11) d
    else logFw 0x038c n 3 n (event 3 R.MGT.STATUS.SEQ [R.MGT.STATUS.VMON] d)

/-- `VMON_OUT_OF_WINDOW` (R448). -/
def execVmonOutOfWindow (domain : Fin 41) (out : Bool) (s : State) : Host.Outcome State Fault Refusal :=
  total (fun m d => vmon domain.val out m d) s

/-! ## Injected faults and blobs -/

/-- `TEST_GO` (R444): the host writes `RAS.TEST` with GO. -/
def execTestGo (kind : BitVec 3) (index : BitVec 8) (s : State) : Host.Outcome State Fault Refusal :=
  run (fun m d => testGo m (puts [(R.RAS.TEST.KIND, kind.toNat), (R.RAS.TEST.INDEX, index.toNat)] d)) s

/-- `BLOB_RESTORE` (R317): a blob lost to a weight SRAM error is written again from the image, and validated. -/
def execBlobRestore (n : Fin 4) (s : State) : Host.Outcome State Fault Refusal :=
  total (fun _ d =>
    if d.ras.coresDown || d.on (R.CRV.NET_CTL.VALID n.val) || d.get (R.CRV.NET_CTL.ERR n.val) != 5 then d
    else
      let a := d.get R.TOP.STATE.SLOT
      match (blobsOf (d.nvmMain.image a (d.slotTab.len a))).find? (fun x => x.1 == n.val) with
      | some x => loadBlob x d
      | none => d) s

end Sys2Proof.Machine
end

