-- ==== Sys2Proof/Machine/Snapshot.lean ====
section
/-!
DEFINITION. Snapshots (R44 to R47) and the collection of the performance counters into the dump ring and the user page
(R52 to R59).
-/

namespace Sys2Proof.Machine

/-- The domain of a block instance (R487). -/
def domainOf (code inst : Nat) : Nat :=
  match code with
  | 8 => if inst < 48 then 29 + inst / 12 else 33
  | 9 => 40
  | 10 => 11 + inst
  | 11 => 19
  | 12 => 20
  | 13 => 3 + inst / 17
  | 14 => 21
  | 15 => 26
  | 16 => 27
  | 17 => 28
  | 19 | 20 => 38
  | 21 => 39
  | 3 => 1
  | _ => 2

/-- A block instance is powered: its domain is on, and its gouge group is not power-gated. The controller of DDR is powered
with any channel. -/
def Dev.powered (d : Dev) (code inst : Nat) : Bool :=
  if code = 18 then [34, 35, 36, 37].any (bit d.domains)
  else bit d.domains (domainOf code inst) && !(code == 13 && d.groupOff (inst / 17))

/-- Offsets of a register's repetitions in its instance. -/
def RegDef.offsets (r : RegDef) : List Nat := r.reps.foldl (fun acc x => acc.flatMap (fun o => (List.range x.2).map (fun i => o + x.1 * i))) [r.off]

/-- The block of a code. -/
def blockOf (code : Nat) : Option BlockDef := blocks.find? (fun b => b.code == code)

/-! ## Snapshots (R44 to R47) -/

/-- `ARM` (R46). -/
def execArm (s : State) : Host.Outcome State Fault Refusal := total (fun _ d => snapArm d) s

/-- `SNAPSHOT_TRIGGER` (R44): by `SNP.CMD.TRIG`, or by a request of the management controller. -/
def execSnapshotTrigger (mgmt : Bool) (s : State) : Host.Outcome State Fault Refusal := total (fun _ d => snapTrigger (if mgmt then 4 else 0) d) s

/-- `SNAP_IN` (R44): an edge on the pin while it carries its input. -/
def execSnapIn (rising : Bool) (s : State) : Host.Outcome State Fault Refusal :=
  total (fun _ d =>
    if d.get (R.TOP.PINMUX.FUNC 36) = 0 ∧ rising = d.on R.SNP.CTL.SNAP_IN_POL then snapTrigger 1 d else d) s

/-- The copy of one register at an address. -/
def copyReg (r : RegDef) (addr : Nat) (d : Dev) : Dev :=
  let v := d.regValue r addr
  { d with snap := { d.snap with copies := r.fields.foldl (fun m f => setNum (Fld.key ⟨addr, f.lo, f.w⟩) (bits v f.lo f.w) m) d.snap.copies } }

/-- A block instance latches its copies; a power-gated one does not, and its window reads 0 (R45, R47). -/
def latchBlock (code inst : Nat) (d : Dev) : Dev :=
  match blockOf code with
  | none => d
  | some b =>
    let base := b.base + b.stride * inst
    if d.powered code inst then
      each (fun r d => each (fun o d => copyReg r (base + o) d) r.offsets d) (b.regs.filter (fun r => r.snap)) d
    else
      { d with snap := { d.snap with copies := d.snap.copies.filter (fun e => e.1 / 64 < base || base + b.stride ≤ e.1 / 64) } }

/-- `SNAPSHOT_LATCH` (R45): when DT reaches the latch time. -/
def execSnapshotLatch (block : Fin 22) (inst : Fin 136) (s : State) : Host.Outcome State Fault Refusal :=
  total (fun _ d =>
    let x := (block.val, inst.val)
    if d.get R.SNP.STATUS.STATE = 2 ∧ d.snap.waiting.contains x = true then
      let d := latchBlock block.val inst.val (reach d.snap.t d)
      { d with snap := { d.snap with waiting := d.snap.waiting.filter (fun y => y != x) } }
    else d) s

/-- `SNAPSHOT_HELD` (R45, R416): all blocks have confirmed. -/
def execSnapshotHeld (s : State) : Host.Outcome State Fault Refusal :=
  total (fun _ d =>
    if d.get R.SNP.STATUS.STATE = 2 ∧ d.snap.waiting = [] then
      let d := puts [(R.SNP.STATUS.STATE, 3), (R.SNP.ID.ID, d.get R.SNP.ID.ID + 1), (R.SNP.T.T, d.snap.t), (R.SNP.STATUS.SRC, d.snap.src)] d
      let d := event 1 R.SNP.STATUS.SEQ [] d
      when (d.on R.CMP.REC_TRIG.SNAP) recTrigger d
    else d) s

/-- `SNAPSHOT_RELEASE` (R45). -/
def execSnapshotRelease (s : State) : Host.Outcome State Fault Refusal := total (fun _ d => snapRelease d) s

/-! ## Collection (R52 to R58) -/

/-- The clock of a gouge or a lathe is gated now (R168, R260). -/
def Dev.clockGated (d : Dev) (code inst : Nat) : Bool :=
  (code == 10 && (d.lthS inst).gated) || (code == 13 && [2, 3].contains (d.get (R.GGE.STATUS.STATE inst)))

/-- A block that gates its own clock while it has no work, of which no command tells when: FUS, CLS, MRG and CRV with
CLK_GATE set. Whether it was gated for part of an interval is free (log entry 9). -/
def Dev.mayGate (d : Dev) (code : Nat) : Bool :=
  match code with
  | 11 => d.on R.FUS.CTL.CLK_GATE
  | 12 => d.on R.CLS.CTL.CLK_GATE
  | 14 => d.on R.MRG.CTL.CLK_GATE
  | 15 => d.on R.CRV.CTL.CLK_GATE
  | _ => false

/-- The entry of an instance at a taken boundary (R57). -/
def dumpEntry (code inst base : Nat) (d : Dev) : DumpEntry :=
  let p := d.perfS base
  let pipeline := decide (9 ≤ code ∧ code ≤ 15)
  let sel (n : Nat) : Nat := perfSel d base n % 1024 + 32768 * (perfSel d base n / 1024)
  let cnt (n : Nat) : Nat := (d.liveReg (base + 0xf40 + 8 * n)).getD (d.get (R.PERF.CNT.COUNT base n))
  let slotN (n : Nat) : Nat := (d.liveReg (base + 0xf80 + 8 * n)).getD (d.get (R.PERF.SLOT.COUNT base n))
  let on := d.powered code inst
  { block := code, inst, ovf := p.ovf, reprog := sumNat ((List.range 8).map (fun n => if flag p.rewritten n then 2 ^ n else 0)), slotOvf := p.slotOvf
    flags := b2n pipeline + 2 * b2n (p.gated || !on || d.clockGated code inst || (d.mayGate code && bit d.fresh (16 + code))) + 4 * b2n (code == 13 && d.get (R.GGE.STATUS.STATE inst) == 5) + 8 * b2n (!on)
    sel := (List.range 8).map sel, cnt := (List.range 8).map cnt
    slot := if pipeline then (List.range 4).map slotN else [0, 0, 0, 0] }

/-- An instance at a taken boundary: the intervals' marks start anew, that of gating as the clock stands now, and selections
written since apply to counters that are zeroed (R52, R57). -/
def newInterval (code inst base : Nat) (d : Dev) : Dev :=
  let p := d.perfS base
  let hit := (List.range 8).filter (flag p.rewritten)
  let d := each (fun n d => put (R.PERF.CNT.COUNT base n) 0 d) hit d
  let sel := hit.foldl (fun m n => setNum n (d.get (R.PERF.SEL.EVENT base n) + 1024 * d.get (R.PERF.SEL.EN base n)) m) p.sel
  setPerf base { p with sel, rewritten := [], ovf := 0, slotOvf := 0, gated := d.clockGated code inst } d

/-- The region of the dump ring: its base and size, unless the ownership table denies it to the reader. -/
def Dev.dumpRing (d : Dev) : Option (Nat × Nat) :=
  let r := d.get R.PRF.RING.RGN
  if 0 < (d.region r).2 ∧ d.mayUse 3 r 11 then some (d.region r) else none

/-- An offset lies in the bytes from RING_RD up to RING_WR that are not yet read. -/
def unread (rd wr x : Nat) : Bool := if rd ≤ wr then decide (rd ≤ x ∧ x < wr) else decide (rd ≤ x) || decide (x < wr)

/-- Where a dump of `n` bytes starts, and whether it overwrites unread bytes (R55). -/
def dumpPlace (size rd wr n : Nat) : Nat × Bool :=
  let at' := if wr + n ≤ size then wr else 0
  let hits := (List.range (n / 64)).any (fun i => unread rd wr (at' + 64 * i))
  let skips := at' < wr && wr < rd
  (at', hits || skips)

/-- Entries of the next dump. -/
def Dev.dumpSet (d : Dev) : List (Nat × Nat) := allInstances.filter (fun x => bit (d.get R.PRF.DUMP_MASK.MASK) x.1)

/-- A boundary is skipped (R54). -/
def skipBoundary (d : Dev) : Dev :=
  inc R.PRF.SKIP_CNT.COUNT 1 (event 2 R.PRF.STATUS.SEQ [R.PRF.STATUS.SKIP] { d with prf := { d.prf with skipped := d.prf.skipped + 1 } })

/-- What the ring says to a dump of n bytes: it cannot take it, or it does, with FULL set when unread bytes are in the way. -/
def ringAnswer (n : Nat) (d : Dev) : Bool × Dev :=
  match d.dumpRing with
  | none => (true, event 2 R.PRF.STATUS.SEQ [R.PRF.STATUS.DENIED] { d with prf := { d.prf with denied := true } })
  | some (_, size) =>
    let d := { d with prf := { d.prf with denied := false } }
    if size < n then (false, d)
    else if (dumpPlace size (d.get R.PRF.RING_RD.OFFSET) (d.get R.PRF.RING_WR.OFFSET) n).2 then
      (!d.on R.PRF.CTL.STOP_FULL, event 2 R.PRF.STATUS.SEQ [R.PRF.STATUS.FULL] d)
    else (true, d)

/-- A collection boundary (R52, R54). -/
def collect (d : Dev) : Dev :=
  match d.prf.nextDt with
  | none => d
  | some t =>
    let d := reach t d
    let period : Nat := clamp 1000 1000000000 (d.get R.PRF.PERIOD.NS)
    let d := { d with prf := { d.prf with nextDt := some (dtAddNs t period) } }
    if d.prf.busy then skipBoundary d
    else
      let set := d.dumpSet
      match ringAnswer (64 + 128 * set.length) d with
      | (false, d) => skipBoundary d
      | (true, d) =>
        let base (x : Nat × Nat) : Nat := (blockOf x.1).elim 0 (fun b => b.base + b.stride * x.2)
        let entries := set.map (fun x => dumpEntry x.1 x.2 (base x) d)
        let d := takeFree { d with prf := { d.prf with busy := true, latched := entries, latchDt := t, latchEpoch := d.tim.epoch, latchSkipped := d.prf.skipped, latchPeriod := period, skipped := 0 } }
        each (fun x d => newInterval x.1 x.2 (base x) d) allInstances d

/-- `COLLECTION_BOUNDARY` (R52). -/
def execCollectionBoundary (s : State) : Host.Outcome State Fault Refusal := total (fun _ d => collect d) s

/-- The 128 bytes of a dump entry (R57). -/
def DumpEntry.bytes (e : DumpEntry) : List Byte :=
  let b := leBytes 1 e.block ++ leBytes 1 0 ++ leBytes 2 e.inst ++ leBytes 1 e.ovf ++ leBytes 1 e.reprog ++ leBytes 1 e.slotOvf ++ leBytes 1 e.flags
    ++ e.sel.flatMap (leBytes 2) ++ e.cnt.flatMap (leBytes 8) ++ e.slot.flatMap (leBytes 8) ++ leBytes 4 0
  b ++ leBytes 4 (crc32c b)

/-- A dump header (R56). -/
def dumpHeader (d : Dev) (entries seqNo flags : Nat) : List Byte :=
  let b := leBytes 4 0x4450584c ++ leBytes 2 1 ++ leBytes 2 entries ++ leBytes 4 seqNo ++ leBytes 4 d.prf.latchSkipped ++ leBytes 8 d.prf.latchDt
    ++ leBytes 4 d.prf.latchEpoch ++ leBytes 4 d.prf.latchPeriod ++ leBytes 8 Config.serial ++ leBytes 4 flags ++ leBytes 16 0
  b ++ leBytes 4 (crc32c b)

/-- A dump is written to its ring within the grant of host image traffic, for which it waits, and becomes the latest complete
dump (R54 to R56, R59). -/
def dumpDone (d : Dev) : Dev :=
  if !d.prf.busy then d
  else if !d.prf.denied && d.yields 3 then holdUser 3 d
  else
    let seqNo := (d.get R.PRF.DUMP_SEQ.SEQ + 1) % 2 ^ 32
    let n := 64 + 128 * d.prf.latched.length
    let mirrored := 2 * d.get R.PRF.USER_EN.EN
    let wr := d.get R.PRF.RING_WR.OFFSET
    let (place', d) := match (if d.prf.denied then none else d.dumpRing) with
      | none => ((0, false), d)
      | some (base, size) =>
        let p := dumpPlace size (d.get R.PRF.RING_RD.OFFSET) wr n
        let bytes := dumpHeader d d.prf.latched.length seqNo (b2n p.2 + mirrored) ++ d.prf.latched.flatMap DumpEntry.bytes
        let d := if p.1 < wr ∧ wr + 64 ≤ size then meterUser 3 64 (dramWrite (base + wr) (dumpHeader d 0xffff seqNo mirrored) d) else d
        (p, put R.PRF.RING_WR.OFFSET (p.1 + n) (meterUser 3 n (dramWrite (base + p.1) bytes d)))
    let header := dumpHeader d d.prf.latched.length seqNo (b2n place'.2 + mirrored)
    put R.PRF.DUMP_SEQ.SEQ seqNo
      { d with prf := { d.prf with busy := false, lastDump := d.prf.latched, lastHeader := header, latched := [] } }

/-- `DUMP_COMPLETE` (R54). -/
def execDumpComplete (s : State) : Host.Outcome State Fault Refusal := total (fun _ d => dumpDone d) s

/-- The user page of BAR4 (R59): 4,096 bytes. -/
def Dev.userPage (d : Dev) : List Byte :=
  if !d.on R.PRF.USER_EN.EN || d.prf.lastHeader.isEmpty then List.replicate 4096 0#8
  else
    let valid := ((List.range 31).filter (fun i => d.on (R.PRF.USER_MAP.VALID i))).length
    let h := d.prf.lastHeader
    let h := h.take 6 ++ leBytes 2 valid ++ (h.drop 8).take 52
    let entry (i : Nat) : List Byte :=
      match (if d.on (R.PRF.USER_MAP.VALID i) then
          d.prf.lastDump.find? (fun e => e.block == d.get (R.PRF.USER_MAP.BLOCK i) && e.inst == d.get (R.PRF.USER_MAP.INSTANCE i)) else none) with
      | some e => e.bytes
      | none => List.replicate 128 0#8
    h ++ leBytes 4 (crc32c h) ++ (List.range 31).flatMap entry ++ List.replicate 60 0#8 ++ (h.drop 8).take 4

end Sys2Proof.Machine
end

