-- ==== Sys2Proof/Machine/Batch.lean ====
section
/-!
DEFINITION. Batches and recipes (R68, R37, R73, R484, R485), and the DT compare units (R79 to R81).
-/

namespace Sys2Proof.Machine

/-! ## Recipes (R482 to R485) -/

/-- `RECIPE_NEXT` (R484, R485): a write of `TOP.RECIPE.NEXT`. -/
def execRecipeNext (r : Fin 8) (s : State) : Host.Outcome State Fault Refusal :=
  total (fun _ d => recipeNext (put R.TOP.RECIPE.NEXT r.val d)) s

/-- The words that a record writes with their addresses; a MASK mixes its word with what a read finds (R479). -/
def Dev.recWords (d : Dev) (r : ImgRec) : List (Nat × Nat) :=
  let w0 := nth 0 r.words 0
  match r.op with
  | 1 => r.addrs.zip r.words
  | 2 => r.addrs.map (fun a => (a, w0))
  | 3 => [(r.addr, (d.peekAt r.addr 4 &&& (2 ^ 32 - 1 - w0)) ||| (nth 0 r.words 1 &&& w0))]
  | _ => []

/-- A record of a recipe is written; one whose access would raise a bus error is skipped and logged (R481). `now` makes an
RWB field take its word at once. -/
def recipeRec (now : Bool) (m : Mem) (r : ImgRec) (d : Dev) : Host.Outcome Dev Fault Refusal :=
  if r.addrs.any (fun a => (writeErr (settle a d) a 4).isSome) then .next (skipRecord r d)
  else (d.recWords r).foldl (fun o x => andThen o (fun d => writeAt now x.1 4 x.2 m (settle x.1 d))) (.next d)

/-- Records in order. -/
def recipeRecs (now : ImgRec → Bool) (m : Mem) (rs : List ImgRec) (d : Dev) : Host.Outcome Dev Fault Refusal :=
  rs.foldl (fun o r => andThen o (recipeRec (now r) m r)) (.next d)

/-- A unit's copy runs. -/
def Dev.copyRuns (d : Dev) (t : TblUnit) : Bool := d.on (tblBusy t)

/-- The load ends (R484 steps 2 and 3): table records are in the shadow banks, batch records in the pending copies. -/
def recipeArmed (m : Mem) (d : Dev) : Host.Outcome Dev Fault Refusal :=
  let rs := d.recipe d.rcp.loading
  if d.get R.TOP.RECIPE.STATE ≠ 1 ∨ (recipeUnits rs).any d.copyRuns = true then .next d
  else if !rs.all ImgRec.classOk then .fault (.hostError "a recipe record whose CLASS is not that of its fields (R482)")
  else
    andThen (recipeRecs (fun _ => false) m (rs.filter (fun r => r.isTable || r.isBatch)) d) (fun d =>
      .next (put R.TOP.RECIPE.STATE 2 { d with rcp := { d.rcp with kept := rs.filter ImgRec.isHeld } }))

/-- `RECIPE_ARMED` (R484). -/
def execRecipeArmed (s : State) : Host.Outcome State Fault Refusal := run recipeArmed s

/-- The words of a recipe become the image values that restores use (R39, R353). -/
def keepWords (rs : List ImgRec) (d : Dev) : Dev :=
  each (fun r d => { d with imgWord := (d.recWords r).foldl (fun w x => KMap.put (fun _ => none) w x.1 (some x.2)) d.imgWord }) rs d

/-- The armed recipe takes effect at a batch start (R484): held records in order; those of a lathe follow its contexts'
port block boundaries. -/
def recipeApply (m : Mem) (d : Dev) : Host.Outcome Dev Fault Refusal :=
  let r := d.rcp.loading
  andThen (recipeRecs (fun x => x.addr < 0x400000 || decide (0x800000 ≤ x.addr)) m d.rcp.kept d) (fun d =>
    let d := keepWords (d.recipe r) d
    let d := puts [(R.TOP.RECIPE.CUR, r), (R.TOP.RECIPE.NONE, 0), (R.TOP.RECIPE.STATE, 0),
                   (R.TOP.RECIPE_AT.BATCH, d.get R.TIM.BATCH_STATUS.NUMBER)] { d with rcp := { d.rcp with kept := [] } }
    .next (logFw 0x0088 0 2 r (event 0 R.TOP.RECIPE_STATUS.SEQ [R.TOP.RECIPE_STATUS.APPLIED] d)))

/-! ## Batches (R68) -/

/-- A batch field of a block of registers is pending. -/
def Dev.pendsIn (d : Dev) (lo n : Nat) : Bool := d.rwb.any (fun e => inRange lo n .batch e.1 && e.2.isSome)

/-- All pending BATCH fields apply, with what they start: trigger modes (R70, R73), index modes (R77), the power ceiling
(R17), the DRAM grants (R12) and the claims of the fire pins (R514). -/
def batchFields (d : Dev) : Dev :=
  let tgs := (List.range 4).filter (fun g => d.pendsIn (0x100400 + 0x40 * g) 4)
  let grids := (List.range 4).filter (fun g => d.pendsIn (0x100408 + 0x40 * g) 8 || d.pendsIn (0x100418 + 0x40 * g) 8)
  let zs := (List.range 2).filter (fun e => d.pendsIn (0x100200 + 0x40 * e) 8)
  let d := applyPend (fun k => keyBnd k == .batch) d
  let d := showClock (put R.TOP.PROFILE_ACT.PWR_CEIL (d.get R.TOP.PROFILE.PWR_CEIL) d)
  let d := each tgApply ((List.range 4).filter (fun g => tgs.contains g || (grids.contains g && d.get (R.TIM.TG_CTL.MODE g) == 1))) d
  let d := { d with tim := { d.tim with zLoaded := zs.foldl (fun z e => setFlag e false z) d.tim.zLoaded } }
  foClaims (computeGrants d)

/-- The first clock of a batch, before its recipe: the number, the event, and the BATCH fields (R68, R37). -/
def batchOpen (d : Dev) : Dev :=
  let d := setRec { d.cmp.recorder with predWas := d.nextBatch.map (fun l => (l, d.get R.CMP.CTL.PRED)) } d
  let d := inc R.TIM.BATCH_STATUS.NUMBER 1 { d with tim := { d.tim with batchPending := false } }
  batchFields (event 7 R.TIM.BATCH_STATUS.SEQ [R.TIM.BATCH_STATUS.NEW] d)

/-- The next batch starts (R68): at the composite block boundary after a batch event. -/
def batchStart (m : Mem) (d : Dev) : Host.Outcome Dev Fault Refusal :=
  if !d.tim.batchPending || !d.atBoundary then .next d
  else
    let d := batchOpen d
    let o := if d.get R.TOP.RECIPE.STATE = 2 then recipeApply m d
      else .next (when (d.get R.TOP.RECIPE.STATE == 1) (event 0 R.TOP.RECIPE_STATUS.SEQ [R.TOP.RECIPE_STATUS.LATE]) d)
    andThen o (fun d => .next (vrdSwap d))

/-- `BATCH_START` (R68, R37, R484). -/
def execBatchStart (s : State) : Host.Outcome State Fault Refusal := run batchStart s

/-! ## DT compare units (R79 to R81) -/

/-- Pins that carry a compare unit whose holder also holds them (R514). -/
def Dev.cmpPins (d : Dev) (n o : Nat) : List Nat :=
  (List.range 48).filter (fun i => d.get (R.TOP.PINMUX.FUNC i) == 2 && d.get (R.TOP.PINMUX.CMP i) == n && d.pinHolder i == some o)

/-- The action of a firing, for the owner that R81 names. -/
def cmpAction (n : Nat) (d : Dev) : Dev :=
  let h := d.holder 2 n
  match d.get (R.TIM.CMP_CTL.ACTION n) with
  | 1 =>
    if h = some 2 ∨ h = some 14 then
      each (fun i d => emit (.cmpPin i n (d.get (R.TIM.CMP_CTL.WIDTH n)) (d.get (R.TIM.CMP_CTL.POL n))) d) (d.cmpPins n (h.getD 0)) d
    else d
  | 2 => when (h == some 10 && d.get R.SNP.CTL.CMP_SEL == n) (snapTrigger 2) d
  | 3 => when (h == some 3) batchEvent d
  | 4 => when (h == some 1) (cleanSweep d.dt) d
  | 5 => trackFireAll n (h == some 5) d
  | _ => d

/-- After a firing (R80): a one-shot unit is off; a periodic one moves its time on, and counts the periods passed over. -/
def cmpNext (n : Nat) (d : Dev) : Dev :=
  let p := d.get (R.TIM.CMP_PERIOD.P n)
  if p = 0 then put (R.TIM.CMP_CTL.EN n) 0 d
  else
    let p := max (1000 * 65536) p
    let t := (d.get (R.TIM.CMP_TIME.T n) + p) % 2 ^ 64
    let late := dtDiff d.dt t
    let k := if late < 0 then 0 else late.toNat / p + 1
    let d := put (R.TIM.CMP_TIME.T n) (t + k * p) d
    timPerf 0xb k (incSat (R.TIM.CMP_STATUS.MISSED n) k d)

/-- A firing, in a clock of `PLL_TIME` (R79 to R81). -/
def cmpFire (n : Nat) (d : Dev) : Dev :=
  if !d.on (R.TIM.CMP_CTL.EN n) || !d.pllTime then d
  else
    let late := flag d.tim.cmpArmed n
    let d := reach (d.get (R.TIM.CMP_TIME.T n)) { d with tim := { d.tim with cmpArmed := setFlag n false d.tim.cmpArmed } }
    let d := event 7 (R.TIM.CMP_STATUS.SEQ n) [R.TIM.CMP_STATUS.FIRED n] (when late (put (R.TIM.CMP_STATUS.LATE n) 1) d)
    cmpNext n (cmpAction n (timPerf 0xa 1 d))

/-- `COMPARE_FIRE` (R79). -/
def execCompareFire (n : Fin 16) (s : State) : Host.Outcome State Fault Refusal := total (fun _ d => cmpFire n.val d) s

/-- `CMP_TIME_WRITE` (R79): one 8-byte write, or one of the low (0) or the high (1) word, re-arms an enabled unit. -/
def execCmpTimeWrite (n : Fin 16) (half : Option (Fin 2)) (value : BitVec 64) (s : State) : Host.Outcome State Fault Refusal :=
  run (fun m d =>
    let a := 0x101008 + 0x20 * n.val
    match half with
    | none => writeAt false a 8 value.toNat m d
    | some w => writeAt false (a + 4 * w.val) 4 (value.toNat % 2 ^ 32) m d) s

end Sys2Proof.Machine
end

