-- ==== Sys2Proof/Machine/Host.lean ====
section
/-!
DEFINITION. The host's accesses: reads and writes of BAR0 and BAR4 (R28, R30 to R40, R59), posted writes landing (R38) and
configuration requests (R475).
-/

namespace Sys2Proof.Machine

/-- The BAR code of `TOP.BUSERR_ADDR`. -/
def barCode (user : Bool) : Nat := if user then 2 else 0

/-! ## Reads -/

/-- The bus error of a read of the user page: it holds no 64-bit pair (R32). -/
def userErr (a size : Nat) : Option Nat :=
  if size ≠ 1 ∧ size ≠ 2 ∧ size ≠ 4 then some 3 else if a % size ≠ 0 then some 2 else if 4096 ≤ a then some 4 else none

/-- A read of BAR0, or of BAR4 for `user` (R30, R31, R32, R59, R475). -/
def hostRead (user : Bool) (a size : Nat) (d : Dev) : Dev :=
  if d.aon.off then d
  else
    let d := when (!user) (hstPerf 1 1) d
    if !d.served then emit (.unsupported (barCode user) a) d
    else
      match (if user then userErr a size else readErr a size) with
      | some k => emit (.readAbort (barCode user) a) (busError (barCode user) a k false (when (!user) (dropLatchAt a) d))
      | none =>
        if user then emit (.readDone 2 a size (leVal ((d.userPage.drop a).take size)) false) d
        else
          let x := readAt a size d
          emit (.readDone 0 a size x.1 false) x.2

/-- `REGISTER_READ` (R31): of BAR0, or of BAR4 for `user`. -/
def execRegisterRead (user : Bool) (addr : BitVec 25) (size : Nat) (s : State) : Host.Outcome State Fault Refusal :=
  total (fun _ d => hostRead user addr.toNat size d) s

/-! ## Writes -/

/-- A write of `PWR.CMD` (R490, R491, R497): GO takes the STATE of the same write; a host wake in it abandons an entry. -/
def powerCmd (v : Nat) (env : BootEnv) (m : Mem) (d : Dev) : Dev :=
  let wake := bit v 9 && d.on R.PWR.WAKE_EN.HOST
  let d' := if !bit v 8 then d
    else if v % 4 = 1 then goStandby env.acked wake m d
    else if v % 4 = 2 then goOff env.acked wake m d
    else d
  if bit v 9 && d.get R.PWR.STATUS.STATE == 3 && d'.get R.PWR.STATUS.STATE == 3 then hostWake env.trim.toNat d' else d'

/-- The recipe that loads writes the shadow bank behind this window, or the pending fields of this register (R485). -/
def Dev.recipeTouches (d : Dev) (a : Nat) : Bool :=
  d.get R.TOP.RECIPE.STATE == 1
    && (d.recipe d.rcp.loading).any (fun r =>
      if r.isTable then (tableUnits r.addr).any (fun u => (tableUnits a).contains u)
      else r.isBatch && r.addrs.contains (a / 4 * 4))

/-- A write of BAR0 that is no bus error; `env` is what a rebase or a power command finds. -/
def bar0Write (a size v : Nat) (env : BootEnv) (m : Mem) (d : Dev) : Host.Outcome Dev Fault Refusal :=
  let dark := match siteOf a with
    | .reg _ b .. => d.dark b.code
    | .win _ b .. => d.dark b.code
    | _ => false
  if dark then .fault (.hostError "write to a register of a domain that is not raised")
  else if d.recipeTouches a then .fault (.hostError "write to a bank or a field that the loading recipe writes (R485)")
  else
    let d := match (siteOf a).base with
      | some base => dropLatch base d
      | none => d
    if a = 0x264 ∧ bit v 0 = true then rebaseCmd (bits v 16 16) env m d
    else andThen (writeAt false a size v m d) (fun d => .next (if a = 0x80000 then powerCmd v env m d else d))

/-- A write of BAR0, or of BAR4 for `user` (R30, R32, R35 to R40, R475). -/
def hostWrite (user : Bool) (a size v : Nat) (env : BootEnv) (m : Mem) (d : Dev) : Host.Outcome Dev Fault Refusal :=
  if d.aon.off then .next d
  else
    let d := when (!user) (hstPerf 1 1) d
    if !d.served then .next (emit (.unsupported (barCode user) a) d)
    else if user then .next (busError 2 a 5 true d)
    else
      match writeErr d a size with
      | some k => .next (busError 0 a k true (dropLatchAt a d))
      | none => bar0Write a size (v % 2 ^ (8 * size)) env m d

/-- `REGISTER_WRITE` (R35): of BAR0, or of BAR4 for `user`. -/
def execRegisterWrite (user : Bool) (addr : BitVec 25) (size : Nat) (value : BitVec 64) (env : BootEnv) (s : State) : Host.Outcome State Fault Refusal :=
  run (hostWrite user addr.toNat size value.toNat env) s

/-- The register at an offset has a sequence number. -/
def hasSeq (a : Nat) : Bool :=
  match siteOf a with
  | .reg _ _ _ r addr => addr == a && r.fields.any (fun f => f.ty == .rsq && f.lo == 24)
  | _ => false

/-- `RSQ_CLEAR` (R40): the host writes back the SEQ that it read. -/
def execRsqClear (addr : BitVec 25) (value : BitVec 32) (s : State) : Host.Outcome State Fault Refusal :=
  run (fun m d => if hasSeq addr.toNat then hostWrite false addr.toNat 4 value.toNat {} m d else .next d) s

/-- `RWP_WRITE_LANDS` (R38): at PWR, or at CAL. -/
def execRwpWriteLands (cal : Bool) (s : State) : Host.Outcome State Fault Refusal :=
  total (fun _ d =>
    let busy := if cal then R.CAL.BUSY.BUSY else R.PWR.BUSY.BUSY
    if d.on busy then put busy 0 (landPosted (if cal then 0xa0000 else 0x80000) d) else d) s

/-! ## Configuration requests (R475, R379) -/

/-- What a configuration read returns: the identity that R379 gives; the rest is free. -/
def Dev.cfgWord (d : Dev) (off : Nat) : Nat :=
  if off / 4 = 0 then 0x1248 * 65536 + d.fresh % 65536
  else if off / 4 = 2 then 0x118000 * 256 + d.fresh % 256
  else d.fresh % 2 ^ 32

/-- The MSI-X control word is written (R398). -/
def msixControl (enable mask : Bool) (d : Dev) : Dev :=
  let d := put R.HST.LINK.MSIX_EN (b2n enable) { d with dma := { d.dma with fmask := mask } }
  each msixUnmask (List.range 64) d

/-- A configuration request that is completed normally. -/
def cfgRequest (r : CfgReq) (d : Dev) : Dev :=
  match r with
  | .read off => takeFree (emit (.cfgDone off.toNat (d.cfgWord off.toNat)) d)
  | .busMaster on =>
    emit (.cfgDone 4 0) (if on then put R.HST.LINK.BME 1 d else if d.on R.HST.LINK.BME then linkDown true d else d)
  | .msix enable mask => emit (.cfgDone 0 0) (msixControl enable mask d)
  | .ptm on => emit (.cfgDone 0 0) { d with tim := { d.tim with ptmOn := on } }
  | .devCtl mps mrrs =>
    emit (.cfgDone 0 0) { d with dma := { d.dma with mps := min 512 (128 * 2 ^ mps.val), mrrs := 128 * 2 ^ mrrs.val } }
  | .other off => emit (.cfgDone off.toNat 0) d

/-- The offset that a request names, where the model keeps one. -/
def cfgOff : CfgReq → Nat
  | .read o => o.toNat
  | .busMaster _ => 4
  | .other o => o.toNat
  | _ => 0

/-- `CONFIGURATION_REQUEST` (R475). -/
def execConfigurationRequest (r : CfgReq) (s : State) : Host.Outcome State Fault Refusal :=
  total (fun _ d =>
    if !d.aon.trains then d
    else if d.served then cfgRequest r d
    else emit (.cfgRetry (cfgOff r)) d) s

end Sys2Proof.Machine
end

