-- ==== Sys2Proof/Machine/Dispatch.lean ====
section
/-!
DEFINITION. One arm for each command: a direct call of its meaning.
-/

namespace Sys2Proof.Machine

def exec (i : Instr) (s : State) : Host.Outcome State Fault Refusal :=
  match i with
  | .porstNAssert => Sys2Proof.Machine.execPorstNAssert s
  | .startUp env => Sys2Proof.Machine.execStartUp env s
  | .perstNRelease env => Sys2Proof.Machine.execPerstNRelease env s
  | .rebase key env => Sys2Proof.Machine.execRebase key env s
  | .arbiterWindow => Sys2Proof.Machine.execArbiterWindow s
  | .runTimeClaim ty idx owner free => Sys2Proof.Machine.execRunTimeClaim ty idx owner free s
  | .registerWrite user addr size value env => Sys2Proof.Machine.execRegisterWrite user addr size value env s
  | .rwpWriteLands cal => Sys2Proof.Machine.execRwpWriteLands cal s
  | .rsqClear addr value => Sys2Proof.Machine.execRsqClear addr value s
  | .blockBoundary block inst => Sys2Proof.Machine.execBlockBoundary block inst s
  | .tFieldScrub hits => Sys2Proof.Machine.execTFieldScrub hits s
  | .tFieldRestore => Sys2Proof.Machine.execTFieldRestore s
  | .arm => Sys2Proof.Machine.execArm s
  | .snapshotTrigger mgmt => Sys2Proof.Machine.execSnapshotTrigger mgmt s
  | .snapIn rising => Sys2Proof.Machine.execSnapIn rising s
  | .snapshotLatch block inst => Sys2Proof.Machine.execSnapshotLatch block inst s
  | .snapshotHeld => Sys2Proof.Machine.execSnapshotHeld s
  | .snapshotRelease => Sys2Proof.Machine.execSnapshotRelease s
  | .collectionBoundary => Sys2Proof.Machine.execCollectionBoundary s
  | .dumpComplete => Sys2Proof.Machine.execDumpComplete s
  | .dtWrap => Sys2Proof.Machine.execDtWrap s
  | .refclkLoss i1 => Sys2Proof.Machine.execRefclkLoss i1 s
  | .refclkEligible i1 => Sys2Proof.Machine.execRefclkEligible i1 s
  | .pllUnlock i1 => Sys2Proof.Machine.execPllUnlock i1 s
  | .pllRelock i1 => Sys2Proof.Machine.execPllRelock i1 s
  | .batchCtlEnd => Sys2Proof.Machine.execBatchCtlEnd s
  | .batchStart => Sys2Proof.Machine.execBatchStart s
  | .lineIssue g => Sys2Proof.Machine.execLineIssue g s
  | .triggerMessage p => Sys2Proof.Machine.execTriggerMessage p s
  | .trigOutPulse p => Sys2Proof.Machine.execTrigOutPulse p s
  | .trigOutPulseEnd p => Sys2Proof.Machine.execTrigOutPulseEnd p s
  | .encoderEdge e edge => Sys2Proof.Machine.execEncoderEdge e edge s
  | .encoderIndex e => Sys2Proof.Machine.execEncoderIndex e s
  | .compareFire n => Sys2Proof.Machine.execCompareFire n s
  | .cmpTimeWrite n half value => Sys2Proof.Machine.execCmpTimeWrite n half value s
  | .eventCapture i1 edge => Sys2Proof.Machine.execEventCapture i1 edge s
  | .pop i1 => Sys2Proof.Machine.execPop i1 s
  | .ptmDialogue => Sys2Proof.Machine.execPtmDialogue s
  | .ptmNow => Sys2Proof.Machine.execPtmNow s
  | .ptmResponse master delay => Sys2Proof.Machine.execPtmResponse master delay s
  | .ptmTimeout => Sys2Proof.Machine.execPtmTimeout s
  | .sync k => Sys2Proof.Machine.execSync k s
  | .announce k => Sys2Proof.Machine.execAnnounce k s
  | .pdelayReq k ident seqId => Sys2Proof.Machine.execPdelayReq k ident seqId s
  | .signalDetect l => Sys2Proof.Machine.execSignalDetect l s
  | .cdrLock l ctle => Sys2Proof.Machine.execCdrLock l ctle s
  | .blockLock l blks dfe => Sys2Proof.Machine.execBlockLock l blks dfe s
  | .blockLockLoss l blks => Sys2Proof.Machine.execBlockLockLoss l blks s
  | .alignmentMarker l b rx slotNo => Sys2Proof.Machine.execAlignmentMarker l b rx slotNo s
  | .alignmentLockLoss l n => Sys2Proof.Machine.execAlignmentLockLoss l n s
  | .laneStateTimeout l => Sys2Proof.Machine.execLaneStateTimeout l s
  | .train l b => Sys2Proof.Machine.execTrain l b s
  | .eyeMargin l margin => Sys2Proof.Machine.execEyeMargin l margin s
  | .trainReqTimeout l => Sys2Proof.Machine.execTrainReqTimeout l s
  | .retrain l => Sys2Proof.Machine.execRetrain l s
  | .rateWrite l rate => Sys2Proof.Machine.execRateWrite l rate s
  | .remove l => Sys2Proof.Machine.execRemove l s
  | .restore l => Sys2Proof.Machine.execRestore l s
  | .quadPllUnlock q => Sys2Proof.Machine.execQuadPllUnlock q s
  | .laneLoss l cause ends => Sys2Proof.Machine.execLaneLoss l cause ends s
  | .laneLossConfirm l => Sys2Proof.Machine.execLaneLossConfirm l s
  | .restoreEligible l => Sys2Proof.Machine.execRestoreEligible l s
  | .eqStep l code up => Sys2Proof.Machine.execEqStep l code up s
  | .injOnce l => Sys2Proof.Machine.execInjOnce l s
  | .linkCfg p => Sys2Proof.Machine.execLinkCfg p s
  | .rawPacket p rows => Sys2Proof.Machine.execRawPacket p rows s
  | .ringSlotWritten p => Sys2Proof.Machine.execRingSlotWritten p s
  | .metadata p rows => Sys2Proof.Machine.execMetadata p rows s
  | .camStatus p rows => Sys2Proof.Machine.execCamStatus p rows s
  | .filler p rows => Sys2Proof.Machine.execFiller p rows s
  | .regResp p rows => Sys2Proof.Machine.execRegResp p rows s
  | .echoResp p t4 rows => Sys2Proof.Machine.execEchoResp p t4 rows s
  | .maskMark p rows => Sys2Proof.Machine.execMaskMark p rows s
  | .lineWatchdog p => Sys2Proof.Machine.execLineWatchdog p s
  | .camStatusTimeout p => Sys2Proof.Machine.execCamStatusTimeout p s
  | .hold p => Sys2Proof.Machine.execHold p s
  | .relink p => Sys2Proof.Machine.execRelink p s
  | .echoReq p => Sys2Proof.Machine.execEchoReq p s
  | .echoTimeout p => Sys2Proof.Machine.execEchoTimeout p s
  | .timeSet p => Sys2Proof.Machine.execTimeSet p s
  | .cregRd p w => Sys2Proof.Machine.execCregRd p w s
  | .cregWr p w => Sys2Proof.Machine.execCregWr p w s
  | .cregTimeout p w => Sys2Proof.Machine.execCregTimeout p w s
  | .guestLineStart n => Sys2Proof.Machine.execGuestLineStart n s
  | .poisonedResponse n sent addr => Sys2Proof.Machine.execPoisonedResponse n sent addr s
  | .latheLineOutput n c clocks => Sys2Proof.Machine.execLatheLineOutput n c clocks s
  | .latheClockGate n => Sys2Proof.Machine.execLatheClockGate n s
  | .trackingWindowEnd n c => Sys2Proof.Machine.execTrackingWindowEnd n c s
  | .swap t => Sys2Proof.Machine.execSwap t s
  | .copy t => Sys2Proof.Machine.execCopy t s
  | .copyDone t => Sys2Proof.Machine.execCopyDone t s
  | .latheSelfTest n ok => Sys2Proof.Machine.execLatheSelfTest n ok s
  | .viewLine => Sys2Proof.Machine.execViewLine s
  | .fusionDeadline => Sys2Proof.Machine.execFusionDeadline s
  | .seamTrackingWindow => Sys2Proof.Machine.execSeamTrackingWindow s
  | .runRecord g => Sys2Proof.Machine.execRunRecord g s
  | .endRecord g => Sys2Proof.Machine.execEndRecord g s
  | .gougeClockGate g => Sys2Proof.Machine.execGougeClockGate g s
  | .groupPowerGate grp => Sys2Proof.Machine.execGroupPowerGate grp s
  | .groupWake grp => Sys2Proof.Machine.execGroupWake grp s
  | .gougeSelfTest g ok => Sys2Proof.Machine.execGougeSelfTest g ok s
  | .componentRecord crcs => Sys2Proof.Machine.execComponentRecord crcs s
  | .contact => Sys2Proof.Machine.execContact s
  | .aliasRecord => Sys2Proof.Machine.execAliasRecord s
  | .partialRecord => Sys2Proof.Machine.execPartialRecord s
  | .pairing b => Sys2Proof.Machine.execPairing b s
  | .setComplete => Sys2Proof.Machine.execSetComplete s
  | .orphans strip => Sys2Proof.Machine.execOrphans strip s
  | .patchFetch changed => Sys2Proof.Machine.execPatchFetch changed s
  | .patchCompute => Sys2Proof.Machine.execPatchCompute s
  | .scores => Sys2Proof.Machine.execScores s
  | .ageExpiry => Sys2Proof.Machine.execAgeExpiry s
  | .validate n => Sys2Proof.Machine.execValidate n s
  | .validationDone n => Sys2Proof.Machine.execValidationDone n s
  | .carverSelfTest bad => Sys2Proof.Machine.execCarverSelfTest bad s
  | .blobRestore n => Sys2Proof.Machine.execBlobRestore n s
  | .verdict objRoom tagRoom => Sys2Proof.Machine.execVerdict objRoom tagRoom s
  | .transmitOpportunity k => Sys2Proof.Machine.execTransmitOpportunity k s
  | .statusFrame k src payload => Sys2Proof.Machine.execStatusFrame k src payload s
  | .cancelAll => Sys2Proof.Machine.execCancelAll s
  | .cancelAbandon => Sys2Proof.Machine.execCancelAbandon s
  | .stranger k src announce => Sys2Proof.Machine.execStranger k src announce s
  | .foreignBeacon k collision => Sys2Proof.Machine.execForeignBeacon k collision s
  | .csmaReturn k => Sys2Proof.Machine.execCsmaReturn k s
  | .segmentDown k => Sys2Proof.Machine.execSegmentDown k s
  | .silent k n => Sys2Proof.Machine.execSilent k n s
  | .fireOutPulse i1 sp => Sys2Proof.Machine.execFireOutPulse i1 sp s
  | .fireOutPulseEnd i1 => Sys2Proof.Machine.execFireOutPulseEnd i1 s
  | .vrdTableRestore active table index => Sys2Proof.Machine.execVrdTableRestore active table index s
  | .dramRequest user a data err => Sys2Proof.Machine.execDramRequest user a data err s
  | .remapEntryEnable ch => Sys2Proof.Machine.execRemapEntryEnable ch s
  | .writeBatch ch => Sys2Proof.Machine.execWriteBatch ch s
  | .precharge ch bank => Sys2Proof.Machine.execPrecharge ch bank s
  | .refsb ch busy => Sys2Proof.Machine.execRefsb ch busy s
  | .phyUpdateWindow ch => Sys2Proof.Machine.execPhyUpdateWindow ch s
  | .selfRefreshEntry ch cancel => Sys2Proof.Machine.execSelfRefreshEntry ch cancel s
  | .mr4Read ch rank fast => Sys2Proof.Machine.execMr4Read ch rank fast s
  | .dqsOscillator ch change fail => Sys2Proof.Machine.execDqsOscillator ch change fail s
  | .patrolScrub ch err => Sys2Proof.Machine.execPatrolScrub ch err s
  | .bar2Access off data len err => Sys2Proof.Machine.execBar2Access off data len err s
  | .linkDown busMaster => Sys2Proof.Machine.execLinkDown busMaster s
  | .linkUp speed width => Sys2Proof.Machine.execLinkUp speed width s
  | .tail c count => Sys2Proof.Machine.execTail c count s
  | .descriptorFetch c host => Sys2Proof.Machine.execDescriptorFetch c host s
  | .descriptorComplete c host => Sys2Proof.Machine.execDescriptorComplete c host s
  | .dmaStart c => Sys2Proof.Machine.execDmaStart c s
  | .dmaResume c => Sys2Proof.Machine.execDmaResume c s
  | .dmaHalt c => Sys2Proof.Machine.execDmaHalt c s
  | .move c ins host => Sys2Proof.Machine.execMove c ins host s
  | .loopInstr c ins => Sys2Proof.Machine.execLoopInstr c ins s
  | .waitInstr c ins => Sys2Proof.Machine.execWaitInstr c ins s
  | .signal c ins => Sys2Proof.Machine.execSignal c ins s
  | .nextInstr c ins => Sys2Proof.Machine.execNextInstr c ins s
  | .endProgram c ins => Sys2Proof.Machine.execEndProgram c ins s
  | .runaway c => Sys2Proof.Machine.execRunaway c s
  | .flagSet f => Sys2Proof.Machine.execFlagSet f s
  | .dmaTimeout c fetch space addr got => Sys2Proof.Machine.execDmaTimeout c fetch space addr got s
  | .errorResponse c what got => Sys2Proof.Machine.execErrorResponse c what got s
  | .reportBatch c => Sys2Proof.Machine.execReportBatch c s
  | .msixMessage v => Sys2Proof.Machine.execMsixMessage v s
  | .recorderTapLine refuse => Sys2Proof.Machine.execRecorderTapLine refuse s
  | .chunkClose => Sys2Proof.Machine.execChunkClose s
  | .recorderTrigger => Sys2Proof.Machine.execRecorderTrigger s
  | .recorderRelease => Sys2Proof.Machine.execRecorderRelease s
  | .codecSelfTest ok => Sys2Proof.Machine.execCodecSelfTest ok s
  | .jobStart e => Sys2Proof.Machine.execJobStart e s
  | .jobRecord e => Sys2Proof.Machine.execJobRecord e s
  | .jobResume e => Sys2Proof.Machine.execJobResume e s
  | .jobAbort e => Sys2Proof.Machine.execJobAbort e s
  | .testGo kind index => Sys2Proof.Machine.execTestGo kind index s
  | .vmonOutOfWindow domain out => Sys2Proof.Machine.execVmonOutOfWindow domain out s
  | .lockstepMismatch => Sys2Proof.Machine.execLockstepMismatch s
  | .managementWatchdog => Sys2Proof.Machine.execManagementWatchdog s
  | .managementRestart => Sys2Proof.Machine.execManagementRestart s
  | .sramScrub kwords hit => Sys2Proof.Machine.execSramScrub kwords hit s
  | .repairMapWrite io => Sys2Proof.Machine.execRepairMapWrite io s
  | .sensorConversion n temp => Sys2Proof.Machine.execSensorConversion n temp s
  | .thermalHot n => Sys2Proof.Machine.execThermalHot n s
  | .thermalTrip sensor temp => Sys2Proof.Machine.execThermalTrip sensor temp s
  | .powerRead rails => Sys2Proof.Machine.execPowerRead rails s
  | .railFaultEnd r => Sys2Proof.Machine.execRailFaultEnd r s
  | .carverClockStep thermal up => Sys2Proof.Machine.execCarverClockStep thermal up s
  | .avsEvaluation slack => Sys2Proof.Machine.execAvsEvaluation slack s
  | .avsImmediateRaise => Sys2Proof.Machine.execAvsImmediateRaise s
  | .smbalert words => Sys2Proof.Machine.execSmbalert words s
  | .logPersist io => Sys2Proof.Machine.execLogPersist io s
  | .logBucketRefill io => Sys2Proof.Machine.execLogBucketRefill io s
  | .info => Sys2Proof.Machine.execInfo s
  | .logRead io => Sys2Proof.Machine.execLogRead io s
  | .logWrite => Sys2Proof.Machine.execLogWrite s
  | .imgBegin io => Sys2Proof.Machine.execImgBegin io s
  | .imgWrite io => Sys2Proof.Machine.execImgWrite io s
  | .imgVerify io => Sys2Proof.Machine.execImgVerify io s
  | .imgCommit io => Sys2Proof.Machine.execImgCommit io s
  | .fwActivate io => Sys2Proof.Machine.execFwActivate io s
  | .repairRead io => Sys2Proof.Machine.execRepairRead io s
  | .repairClear io => Sys2Proof.Machine.execRepairClear io s
  | .repairCompact io => Sys2Proof.Machine.execRepairCompact io s
  | .calRun => Sys2Proof.Machine.execCalRun s
  | .sensors => Sys2Proof.Machine.execSensors s
  | .rootProg => Sys2Proof.Machine.execRootProg s
  | .calCmdRun target => Sys2Proof.Machine.execCalCmdRun target s
  | .caliperRun => Sys2Proof.Machine.execCaliperRun s
  | .caliperRunDone res codes => Sys2Proof.Machine.execCaliperRunDone res codes s
  | .codeStep t i1 => Sys2Proof.Machine.execCodeStep t i1 s
  | .recipeNext r => Sys2Proof.Machine.execRecipeNext r s
  | .recipeArmed => Sys2Proof.Machine.execRecipeArmed s
  | .standby acked wake => Sys2Proof.Machine.execStandby acked wake s
  | .off acked wake => Sys2Proof.Machine.execOff acked wake s
  | .wake trim => Sys2Proof.Machine.execWake trim s
  | .wakeAlarm env => Sys2Proof.Machine.execWakeAlarm env s
  | .wakeEvent i1 rising env => Sys2Proof.Machine.execWakeEvent i1 rising env s
  | .quadPllLock q => Sys2Proof.Machine.execQuadPllLock q s
  | .laneAlignDeadline p => Sys2Proof.Machine.execLaneAlignDeadline p s
  | .pmaCheckerLock l rx => Sys2Proof.Machine.execPmaCheckerLock l rx s
  | .pmaCheckerLockLoss l rx => Sys2Proof.Machine.execPmaCheckerLockLoss l rx s
  | .injectionInterval l => Sys2Proof.Machine.execInjectionInterval l s
  | .phyError k kind => Sys2Proof.Machine.execPhyError k kind s
  | .csmaTransmit k => Sys2Proof.Machine.execCsmaTransmit k s
  | .dramPhyFault ch => Sys2Proof.Machine.execDramPhyFault ch s
  | .configurationRequest r => Sys2Proof.Machine.execConfigurationRequest r s
  | .registerRead user addr size => Sys2Proof.Machine.execRegisterRead user addr size s
  | .waitDone c => Sys2Proof.Machine.execWaitDone c s
  | .refclkDetected env => Sys2Proof.Machine.execRefclkDetected env s
  | .supplyRemoval => Sys2Proof.Machine.execSupplyRemoval s

end Sys2Proof.Machine
end

