-- ==== Sys2Proof/Machine/Idle.lean ====
section
/-!
DEFINITION. What the block does when no command waits.
-/

namespace Sys2Proof.Machine

/-- One tick of Device Time (R60, R61): the DT accumulator takes one step, and the lines whose E has come reach
it. -/
def tick (d : Dev) : Dev := settleLines (dtSteps 1 d)

/-- The step on an empty queue. DESIGN CHOICE (log entry 2): the block idles for one tick of Device Time. -/
def idle (s : State) : Host.Outcome State Fault Refusal := total (fun _ d => tick d) s

end Sys2Proof.Machine
end

