-- ==== Sys2Proof/WellFormed.lean ====
section
/-!
DEFINITION. The commands that an interface can carry: the shapes of operands that the types leave too wide.
-/

namespace Sys2Proof

/-- Rows of blocks of a port: one block for each of its four lanes. -/
def rowsOk (rows : List (List Blk)) : Bool := rows.all (fun r => r.length == 4)

/-- Sizes of a host access in bytes: a PCI Express request of at least one byte and at most 4,096. -/
def sizeOk (n : Nat) : Bool := decide (1 ≤ n ∧ n ≤ 4096)

/-- Bytes that an answer or an instruction brings: none, or exactly `n`. -/
def bytesOk (n : Nat) (bs : List Byte) : Bool := bs.isEmpty || bs.length == n

/-- The command's operands have the shapes of their interface. -/
def Instr.wf : Instr → Bool
  | .rawPacket _ rows | .metadata _ rows | .camStatus _ rows | .filler _ rows | .regResp _ rows | .echoResp _ _ rows
  | .maskMark _ rows => rowsOk rows
  | .registerWrite _ _ size _ _ => sizeOk size
  | .registerRead _ _ size => sizeOk size
  | .bar2Access _ data len _ =>
    match data with
    | some bs => sizeOk bs.length && bs.length == len
    | none => sizeOk len
  | .dramRequest _ a data _ =>
    match data with
    | some bs => decide (1 ≤ bs.length ∧ a.toNat % 64 + bs.length ≤ 64)
    | none => true
  | .descriptorFetch _ host => bytesOk 32 host
  | .move _ ins _ | .loopInstr _ ins | .waitInstr _ ins | .signal _ ins | .nextInstr _ ins | .endProgram _ ins => bytesOk 32 ins
  | .statusFrame _ _ payload => decide (payload.length ≤ 1500)
  | .powerRead rails => decide (rails.length ≤ 8)
  | .smbalert words => decide (words.length ≤ 8)
  | _ => true

end Sys2Proof
end

