-- ==== Sys2Proof/Safety.lean ====
section
/-!
DEFINITION. What counts as a run without a stop, and the words in which statements say what a command leaves as it
was.
-/

namespace Sys2Proof.Machine

/-- The command runs to a next state that has the property, and the commands that wait still wait. -/
def Completes (c : Instr) (s : State) (post : State → Prop) : Prop :=
  ∃ t, exec c s = .next t ∧ t.pending = s.pending ∧ post t

/-- Nothing posted by an earlier command is still to land in DRAM: a command's DRAM effects land when it ends. -/
def State.settled (s : State) : Prop := s.dev.posted = []

/-- What every step keeps: DRAM is in its canonical form, and no DRAM effect of a command outlives it. -/
def State.Inv (s : State) : Prop := s.mem.wf = true ∧ s.settled

/-- A step from which the block goes on. -/
def safeStep (s : State) : Prop := ∃ t, step s = .next t

/-- Registers that keep the books of whatever happens: the performance counters of a block instance (R49; the DMA channels
have other registers there), the count of coalesced interrupts (R398), and the count and newest number of the event log
(R455). -/
def bookKey (k : Nat) : Bool :=
  (decide (0xf20 ≤ k / 64 % 0x1000) && !decide (0x1c01000 ≤ k / 64 ∧ k / 64 < 0x1c03000))
    || [(R.HST.STAT.COUNT 1).key, (R.MGT.STAT.COUNT 1).key, R.MGT.LOG_WR.LSEQ.key].contains k

/-- The device without its registers and without the books: the counters' side state, the event log, and the interrupts
owed. -/
def Dev.body (d : Dev) : Dev :=
  { d with regs := [], vecOwed := [], perf := [], log := [], lseq := 0, logNewest := none, persistQ := []
           dma := { d.dma with coal := [] } }

/-- From `d` to `e` no register but the named fields and the books has changed, and nothing of the device beside its
registers and the books. -/
def Leaves (fs : List Fld) (d e : Dev) : Prop :=
  (∀ f : Fld, bookKey f.key = false → f.key ∉ fs.map Fld.key → e.get f = d.get f) ∧ e.body = d.body

/-- The block after a command whose effect on the device is `d`: the DRAM effects that it posted land. -/
def State.after (s : State) (d : Dev) : State := { s with mem := s.mem.applyAll d.posted, dev := { d with posted := [] } }

/-- The command changes the device at most as `Leaves` says, counted from the device `e`, and DRAM no further than `e`
does: no byte of it where `e` posts nothing. -/
def Frame (fs : List Fld) (e : Dev) (s t : State) : Prop := Leaves fs (s.after e).dev t.dev ∧ t.mem = (s.after e).mem

/-- From `d` to `e` an RSQ register has had one new event with these flags (R40). -/
def Raised (seq : Fld) (flags : List Fld) (d e : Dev) : Prop :=
  e.get seq = nextSeq (d.get seq) % 2 ^ seq.w ∧ ∀ f ∈ flags, e.on f = true

/-- From `d` to `e` a counter that wraps has counted `n`. -/
def Counted (f : Fld) (n : Nat) (d e : Dev) : Prop := e.get f = (d.get f + n) % 2 ^ f.w

/-- A register whose write starts nothing: no command of its unit, and no setting that the unit takes up at once (the registers
named in the tables as commands, enables, selections and table controls are the others). `o` is its offset in its instance. -/
def plainReg (code o : Nat) : Bool :=
  !decide (0xf00 ≤ o ∧ o < 0xf20) &&
    (match code with
     | 0 => o != 0x264 && o != 0x270
     | 1 => o != 4 && o != 8
     | 2 => o != 0
     | 3 => o != 8
     | 4 => o != 0
     | 5 => o != 8
     | 6 => o != 0x10
     | 7 => !([0x40, 0x44, 0x704] : List Nat).contains o && !(decide (0x1000 ≤ o ∧ o < 0x1200) && [0, 8].contains (o % 0x20))
         && !(decide (0x2000 ≤ o ∧ o < 0x2200) && o % 0x40 == 4)
     | 8 => !([0, 4, 0x30, 0x48] : List Nat).contains o
     | 9 => !([4, 0x48, 0x58] : List Nat).contains o
     | 10 => !(decide (0x100 ≤ o ∧ o < 0x280) && o % 0x80 == 0x30)
     | 11 => o != 0x34
     | 12 => o != 0x44
     | 15 => !(decide (0x200 ≤ o ∧ o < 0x280) && o % 0x20 == 0)
     | 16 => o != 0x48 && o != 0x50
     | 19 => o != 0xc && !(decide (0x1000 ≤ o) && [0, 4, 0x1c].contains (o % 0x100))
     | 21 => !([8, 0x108, 0x128] : List Nat).contains o
     | _ => true)

/-- A full-word BAR0 write that a plain register takes: the device serves the host, no access rule and no setting is broken,
and no posted field is among its fields (R32, R34, R475, R485). -/
def Dev.takesWord (d : Dev) (a : Nat) (base : Nat) (b : BlockDef) (r : RegDef) (v : Nat) : Prop :=
  d.aon.off = false ∧ d.served = true ∧ writeErr d a 4 = none ∧ d.dark b.code = false ∧ d.recipeTouches a = false ∧
    plainReg b.code (a - base) = true ∧ outOfRange b.code (a - base) r a 0 32 v d = false ∧ r.fields.all (fun g => g.ty != .rwp) = true

/-- The fields of an RSQ register that a new event sets: its sequence number and the flags. -/
def seqAnd (seq : Fld) (flags : List Fld) : List Fld := seq :: flags

/-- A row of which a port reads one block, descrambled (R95, R115), while no LANE_MASK waits for its row (R143); `e` is the
device with the row received on its lanes. -/
def Dev.rowGives (d e : Dev) (p : Nat) (row : List Blk) (b : Blk) : Prop :=
  (∃ k, d.rowLanes p = [k] ∧ (rxRow p row d).1 = [(k, b)]) ∧ (rxRow p row d).2 = e ∧ (e.portS p).maskSent = []

/-- The settings of a port in RUN contradict no rule (R146, R162). -/
def Dev.portFine (d : Dev) (p : Nat) : Prop := d.get (R.EKL.STATUS.STATE p) = 4 → d.portErr p = none

/-- A row that ends the packet under reception at a port with an EOP block of this body, where the packet's header is
whole and its HCRC is right (R118, R121). -/
def Dev.rowCloses (d rx : Dev) (p : Nat) (o : OpenPkt) (e : BitVec 64) (row : List Blk) : Prop :=
  d.rowGives rx p row { hdr := 2#2, body := e } ∧ bits e.toNat 0 8 = 0x87 ∧ (rx.portS p).pkt = some o ∧
    2 ≤ o.data.length ∧ o.headOk = true

/-- Where a lathe context finds its next ring slot (R163, R188). -/
def Dev.nextSlotAt (d : Dev) (n c : Nat) : Nat :=
  d.ringAddr (d.ctxPort n c) (((d.lthS n).ctxS c).taken % max 1 (d.ringSlots (d.ctxPort n c)))

/-- A lathe that starts a guest line finds its next slot in place, with this header, read without poison: no line is in
progress, no home line and no setting waits, and the ring and the context are no host error (R163, R172, R187, R188). -/
def Dev.startsGuest (d : Dev) (m : Mem) (n c : Nat) (h : List Byte) : Prop :=
  (d.lthS n).guest = none ∧ d.homeIdle n = true ∧ d.pickGuest m n = some c ∧ d.ringErr (d.ctxPort n c) = none ∧
    d.ctxErr n c = none ∧ d.rwb = [] ∧ d.dramRead m (d.nextSlotAt n c) 64 = (h, false) ∧
    KMap.get (fun _ => (none : Option (Nat × Nat × Nat))) (d.portS (d.ctxPort n c)).ringLost ((d.lthS n).ctxS c).taken = none

/-- The register request outstanding in a window of a port: its MSEQ and the DT at which it left (R165). -/
def Dev.cregS (d : Dev) (p w : Nat) : Option (Nat × Nat) := KMap.get (fun _ => (none : Option (Nat × Nat))) (d.portS p).creg w

/-- The settings of a channel in use are no host error, and the grant of its DRAM user is not spent (R34, R384). -/
def Dev.chFree (d : Dev) (c : Nat) : Prop := (d.chOn c = true → d.chErr c = none) ∧ d.chStalls c = false

/-- A program channel stands before a valid instruction that its space, device DRAM, holds at the PC (R387). -/
def Dev.atIns (d : Dev) (m : Mem) (c : Nat) (i : Ins) : Prop :=
  d.chFree c ∧ d.chMode c = 1 ∧ d.chState c = 2 ∧ (d.chS c).count < 65536 ∧ (d.chS c).space = 1 ∧
    (d.dramRead m (d.get (R.DMA.CH_PC.ADDR c)) 32).2 = false ∧ insOf (d.dramRead m (d.get (R.DMA.CH_PC.ADDR c)) 32).1 = i ∧ i.valid = true

/-- The first descriptor of a running ring channel copies from device DRAM to device DRAM, its ring lies there, and it asks
for no check (R385, R386, R392). -/
def Dev.ringCopies (d : Dev) (c : Nat) (x : Desc) (rest : List Desc) : Prop :=
  d.chFree c ∧ (d.chS c).fetched = x :: rest ∧ d.chMode c = 0 ∧ d.chState c = 2 ∧ d.sliceOk c = true ∧ d.get (R.DMA.CH_CTL.FSPACE c) = 1 ∧
    bits x.ctl 0 2 = 1 ∧ bits x.ctl 2 2 = 1 ∧ bits x.ctl 6 2 = 0 ∧ x.len ≠ 0 ∧ d.dstOk 1 x.dst x.len = true

/-- No held object is past its AGE (R297). -/
def Dev.noneAged (d : Dev) : Prop := ∀ o ∈ d.held, d.aged o = false

/-- The scale factor of a request's patch (R298). -/
def Dev.patchScale (d : Dev) (r : CrvReq) : Nat := (scaleOf (d.get (R.CRV.NET_RS.MODE r.net)) (d.blob r.net) r.obj).1

/-- The source pixels of a request's window (R298, R299). -/
def Dev.patchWindow (d : Dev) (m : Mem) (r : CrvReq) (changed : List (Nat × Nat)) : List (List SrcPx) :=
  windowPx d m (d.blob r.net) (d.patchScale r) r.obj changed

/-- What a mailbox command with this code finds: the request waits, the cores serve, and its payload is long enough (R460). -/
def Dev.mbxAsks (d : Dev) (cmd need : Nat) : Prop :=
  d.on R.MGT.MBX_STATUS.BUSY = true ∧ d.ras.coresDown = false ∧ d.mgt.owedStatus = none ∧ d.mbxField 0 2 = cmd ∧
    need ≤ d.mbxField 8 4 ∧ d.mbxField 8 4 ≤ 16368

/-- The mailbox command under way has been answered with a status and a payload (R460). -/
def Answered (d e : Dev) (status : Nat) (payload : List Byte) : Prop :=
  e.on R.MGT.MBX_STATUS.BUSY = false ∧ e.mbxField 2 2 = status ∧ e.mbxField 8 4 = payload.length ∧ e.mbxBytes 16 payload.length = payload ∧
    Raised R.MGT.STATUS.SEQ [R.MGT.STATUS.MBX_DONE] d e

/-- Both NVM devices are in service (R439). -/
def Dev.bothNvm (d : Dev) : Prop := (d.nvmS 0).failed = false ∧ (d.nvmS 1).failed = false

/-- The adaptive voltage loop acts on a rail (R453). -/
def Dev.avsActs (d : Dev) (r : Nat) : Prop :=
  d.mgtUp = true ∧ d.on R.MGT.PMB_CTL.EN = true ∧ d.on R.MGT.AVS.EN = true ∧ d.avsRail = some r ∧
    (d.railS r).faultAt = none ∧ (d.railS r).linear = true

end Sys2Proof.Machine
end

