-- ==== Sys2Proof/Certificates/Slice0/Obligations.lean ====
section
/-!
DEFINITION. The statements about the block: the queue and its steps, then the commands chapter by chapter.
A command's statement says under which conditions the command has its own effect, what the next state holds then, and
what it leaves as it was (`Frame`).
-/

open Sys2Proof Sys2Proof.Machine

/-- For every command c and state s, the step of s with c put at the front of its queue is exec of c on s. -/
def Obligations.StepRunsFrontCommand : Prop :=
  ∀ (c : Instr) (s : State), step { s with pending := c :: s.pending } = exec c s

/-- With no command waiting and no issued line on its way, a step goes on to a state in which the DT accumulator has
taken one step of R61, the epoch counts its wrap (R60), and nothing else has changed but the books (a wrap makes a
log entry). That an empty queue means one tick is the model's own choice (log entry 2). -/
def Obligations.IdleStepTicksDeviceTime : Prop :=
  ∀ s : State, s.pending = [] → s.dev.tim.coming = [] →
    ∃ t, step s = .next t ∧ t.pending = [] ∧
      t.dev.tim.acc = (s.dev.tim.acc + s.dev.dtStep) % 2 ^ 96 ∧
      t.dev.tim.epoch = (s.dev.tim.epoch + (s.dev.tim.acc + s.dev.dtStep) / 2 ^ 96) % 2 ^ 32 ∧
      Frame [] { s.dev with tim := { s.dev.tim with acc := t.dev.tim.acc, epoch := t.dev.tim.epoch } } s t

/-- At State.reset DRAM is in its canonical form and no DRAM effect of a command is outstanding. -/
def Obligations.ResetMeetsInvariant : Prop :=
  State.reset.Inv

/-- From every state that meets the invariant (DRAM in its canonical form, no DRAM effect posted and not yet landed),
reachable or not, every step that goes on leads to a state that meets it: every command's DRAM effects have landed
in the canonical map when the command ends. -/
def Obligations.StepKeepsInvariant : Prop :=
  ∀ s t : State, s.Inv → step s = .next t → t.Inv

/-- For every command and every state: exec never refuses, and where it goes on, the commands that wait are the same and
no DRAM effect is outstanding. The whole instruction table has meanings. -/
def Obligations.CommandsLeaveTheQueue : Prop :=
  ∀ (c : Instr) (s : State),
    (∀ r, exec c s ≠ .refused r) ∧ (∀ t, exec c s = .next t → t.pending = s.pending ∧ t.settled)

/-- At State.reset every field of the register map reads the reset value that its table gives, DT and its epoch are 0
(R62), DRAM lists nothing, no NVM content is listed, the queue is empty and nothing has left the device; and a few
values that the tables give stand as literals: TOP.STATE.STEP 1 and MODE 0, PWR.RC_TRIM 0x80, every port and every
lane in state 0, the SEQ of every port and of TOP.BUSERR 0, the snapshot idle. -/
def Obligations.ResetLeavesTheResetValues : Prop :=
  (∀ f : Fld, State.reset.dev.get f = resetOf f.key) ∧
  State.reset.dev.dt = 0 ∧ State.reset.dev.tim.epoch = 0 ∧
  State.reset.mem = {} ∧ State.reset.pending = [] ∧ State.reset.dev.out = [] ∧ State.reset.dev.nvm = [] ∧
  State.reset.dev.get R.TOP.STATE.STEP = 1 ∧ State.reset.dev.get R.TOP.STATE.MODE = 0 ∧
  (∀ p : Fin 12, State.reset.dev.get (R.EKL.STATUS.STATE p.val) = 0 ∧ State.reset.dev.get (R.EKL.STATUS.SEQ p.val) = 0) ∧
  (∀ l : Fin 60, State.reset.dev.get (R.LNE.STATUS.STATE l.val) = 0) ∧ State.reset.dev.get R.PWR.RC_TRIM.CODE = 0x80 ∧
  State.reset.dev.get R.TOP.BUSERR.SEQ = 0 ∧ State.reset.dev.get R.SNP.STATUS.STATE = 0

/-- PORST_N_ASSERT and SUPPLY_REMOVAL complete in every state. After either, every register field reads its reset value,
DT and its epoch are 0, and what NVM and the fuses hold stays. PORST_N keeps the level of the PERST_N input, and
keeps PWR.TRIP where it is valid and not yet logged (R472). The removal of the supply loses DRAM and PWR.TRIP with
everything else. -/
def Obligations.ResetCommandsReset : Prop :=
  (∀ s : State, (s.dev.on R.PWR.TRIP.VALID && !s.dev.aon.tripLogged) = false →
    Completes .porstNAssert s (fun t =>
      (∀ f, t.dev.get f = resetOf f.key) ∧ t.dev.tim = {} ∧ t.dev.nvm = s.dev.nvm ∧ t.dev.rootHash = s.dev.rootHash ∧
      t.dev.aon = { ({} : AonS) with perstN := s.dev.aon.perstN } ∧ t.mem = (s.after s.dev).mem)) ∧
  (∀ s : State, s.dev.on R.PWR.TRIP.VALID = true → s.dev.aon.tripLogged = false →
    Completes .porstNAssert s (fun t =>
      t.dev.get R.PWR.TRIP.TEMP = s.dev.get R.PWR.TRIP.TEMP % 2 ^ 16 ∧
      t.dev.get R.PWR.TRIP.SENSOR = s.dev.get R.PWR.TRIP.SENSOR % 2 ^ R.PWR.TRIP.SENSOR.w ∧
      t.dev.on R.PWR.TRIP.VALID = true ∧
      (∀ f, f.key ∉ [R.PWR.TRIP.TEMP, R.PWR.TRIP.SENSOR, R.PWR.TRIP.VALID].map Fld.key → t.dev.get f = resetOf f.key) ∧
      t.dev.tim = {} ∧ t.dev.nvm = s.dev.nvm)) ∧
  (∀ s : State, Completes .supplyRemoval s (fun t =>
    (∀ f, t.dev.get f = resetOf f.key) ∧ t.dev.tim = {} ∧ t.dev.nvm = s.dev.nvm ∧ t.dev.rootHash = s.dev.rootHash ∧
    t.mem = {}))

/-- Start-up after PORST_N with a running reference, the first reference that appears in step 2, and a rebase command
with the right KEY: where steps 3 to 5 find an image that passes its checks, the image applies without a poll that
times out, and the DRAM layout that it makes is no host error (R24, R361), the command completes, the device is the
one that steps 7 to 11 make of the applied image, and the management cores serve (MGT.STATUS.STATE = 1). -/
def Obligations.StartUpWithImageServes : Prop :=
  (∀ (env : BootEnv) (s : State) (b : List Byte) (d : Dev) (x : Applied),
    s.dev.get R.TOP.STATE.STEP = 1 → s.dev.get R.TOP.STATE.MODE = 0 → s.dev.aon.off = false → (env.refA || env.refB) = true →
    bootImage .start env.nvm (bootClocks env (bootWait .start env (dtStart s.dev))) = ((b, 0), d) →
    applyImage s.mem b (put R.TOP.STATE.STEP 6 (setQual 2 d)) = .next x → x.timeout = false →
    x.dev.layoutErr env.trainFails = none →
    Completes (.startUp env) s (fun t =>
      t = s.after (bootRun .start env (bootClocks env (bootWait .start env (dtStart s.dev))).dt x.dev) ∧
      t.dev.get R.MGT.STATUS.STATE = 1)) ∧
  (∀ (env : BootEnv) (s : State) (b : List Byte) (d : Dev) (x : Applied),
    s.dev.get R.TOP.STATE.STEP = 2 → s.dev.get R.TOP.STATE.MODE = 0 → s.dev.aon.wakeOff = false → (env.refA || env.refB) = true →
    bootImage .start env.nvm (bootClocks env (bootWait .start env s.dev)) = ((b, 0), d) →
    applyImage s.mem b (put R.TOP.STATE.STEP 6 (setQual 2 d)) = .next x → x.timeout = false →
    x.dev.layoutErr env.trainFails = none →
    Completes (.refclkDetected env) s (fun t =>
      t = s.after (bootRun .start env (bootClocks env (bootWait .start env s.dev)).dt x.dev) ∧ t.dev.get R.MGT.STATUS.STATE = 1)) ∧
  (∀ (env : BootEnv) (s : State) (b : List Byte) (d : Dev) (x : Applied),
    s.dev.served = true → s.dev.takesRebase = true →
    bootImage .rebase env.nvm (rebaseStop env s.dev) = ((b, 0), d) →
    applyImage s.mem b (put R.TOP.STATE.STEP 6 d) = .next x → x.timeout = false →
    x.dev.layoutErr env.trainFails = none →
    Completes (.rebase 0x4c58#16 env) s (fun t =>
      t = s.after (bootRun .rebase env (rebaseStop env s.dev).dt x.dev) ∧ t.dev.get R.MGT.STATUS.STATE = 1))

/-- Whatever the applied image left: where the device that steps 7 to 11 make meets the DRAM budget of R14 and has a
gouge for every strip (R428), it is in RUN: STEP 0xB, MODE 1, power state RUN; where it does not, it stays in step
0xA. -/
def Obligations.StartUpEntersRun : Prop :=
  ∀ (kind : BootKind) (env : BootEnv) (start : Nat) (d : Dev),
    if (bootRun kind env start d).budgetFails || (bootRun kind env start d).unplaced then (bootRun kind env start d).get R.TOP.STATE.STEP = 0xa
    else (bootRun kind env start d).get R.TOP.STATE.STEP = 0xb ∧ (bootRun kind env start d).get R.TOP.STATE.MODE = 1 ∧
      (bootRun kind env start d).get R.PWR.STATUS.STATE = 1

/-- Without a running reference START_UP and REFCLK_DETECTED leave the device in step 2, with DT on the RC oscillator
and nothing else of R473 done but the start of DT and the epoch at 0 by START_UP. With a reference and no NVM device
that answers, START_UP ends in service mode: the failing step 4 stands in STEP and FAIL, MODE is 3 and the
management state is service. A rebase command with another KEY is a bus error of kind 9. -/
def Obligations.StartUpWaitsOrFails : Prop :=
  (∀ (env : BootEnv) (s : State), s.dev.get R.TOP.STATE.STEP = 1 → s.dev.get R.TOP.STATE.MODE = 0 → s.dev.aon.off = false →
    env.refA = false → env.refB = false →
    Completes (.startUp env) s (fun t =>
      t.dev.get R.TOP.STATE.STEP = 2 ∧ t.dev.tim.rcOnly = true ∧ t.dev.tim.acc = 0 ∧ t.dev.tim.epoch = 0 ∧
      Frame [R.TOP.STATE.STEP, R.TOP.STATE.MODE, R.PWR.STATUS.STATE] { s.dev with tim := t.dev.tim } s t)) ∧
  (∀ (env : BootEnv) (s : State), s.dev.get R.TOP.STATE.STEP = 2 → s.dev.get R.TOP.STATE.MODE = 0 → s.dev.aon.wakeOff = false →
    env.refA = false → env.refB = false →
    Completes (.refclkDetected env) s (fun t =>
      t.dev.get R.TOP.STATE.STEP = 2 ∧ t.dev.tim.rcOnly = true ∧
      Frame [R.TOP.STATE.STEP, R.TOP.STATE.MODE, R.PWR.STATUS.STATE] { s.dev with tim := t.dev.tim } s t)) ∧
  (∀ (env : BootEnv) (s : State), s.dev.get R.TOP.STATE.STEP = 1 → s.dev.get R.TOP.STATE.MODE = 0 → s.dev.aon.off = false →
    (env.refA || env.refB) = true → env.nvm = { a := true, b := true } →
    Completes (.startUp env) s (fun t =>
      t.dev.get R.TOP.STATE.STEP = 4 ∧ t.dev.get R.TOP.STATE.FAIL = 4 ∧ t.dev.get R.TOP.STATE.MODE = 3 ∧
      t.dev.get R.MGT.STATUS.STATE = 3 ∧ t.dev.ras.service = true)) ∧
  (∀ (key : BitVec 16) (env : BootEnv) (s : State), key ≠ 0x4c58#16 → s.dev.served = true →
    Completes (.rebase key env) s (fun t => t.dev.get R.TOP.BUSERR.KIND = 9 ∧ t.dev.get R.TOP.BUSERR_ADDR.ADDR = 0x264))

/-- Outside OFF, PERST_N_RELEASE records the released input and lets the endpoint train exactly when start-up has left
step 2 (R475, R489); nothing else changes. -/
def Obligations.EndpointTrainsAfterPerst : Prop :=
  ∀ (env : BootEnv) (s : State), s.dev.aon.off = false →
    Completes (.perstNRelease env) s (fun t =>
      t.dev.aon.perstN = true ∧ t.dev.aon.trains = decide (3 ≤ s.dev.get R.TOP.STATE.STEP) ∧
      Frame [] { s.dev with aon := { s.dev.aon with perstN := true, trains := decide (3 ≤ s.dev.get R.TOP.STATE.STEP) } } s t)

/-- ARBITER_WINDOW completes in every state. No user is held any more; the meters of users 3 to 5 start with what they
moved beyond the budget of their grant (the debt of log entry 47, the model's choice), every other meter at 0; a
user 3 to 5 whose computed grant is 0 yields from the first clock on; the pace of the report channels moves on; and
beside the performance counters nothing else changes. -/
def Obligations.EndsOfArbiterWindows : Prop :=
  ∀ s : State, Completes .arbiterWindow s (fun t =>
    t.dev.yielding = [] ∧
    (∀ k, num t.dev.ddr.meter k =
      if 3 ≤ k ∧ k ≤ 5 then num s.dev.ddr.meter k - 200 * s.dev.get (R.TOP.DRAM_GRANT.GRANT k) else 0) ∧
    (∀ k, 3 ≤ k → k ≤ 5 → s.dev.get (R.TOP.DRAM_GRANT.GRANT k) = 0 → t.dev.yields k = true) ∧
    Frame [] { s.dev with ddr := { s.dev.ddr with meter := t.dev.ddr.meter, reports := s.dev.ddr.reports - s.dev.reportPace }, yielding := [] } s t)

/-- For a resource of R22 and an owner code of R19: a claim on a resource that nobody holds makes the claimant its run-
time holder; a claim on one that the owner holds already changes nothing but a release that waits; where the
resource was not claimed in this clock, a claim by an owner of a class that is not lower than the holder's is
denied: OWN_EVT shows a denial with the claimant, the resource type and the claimant's entry or that it has none,
its SEQ moves on and the holders stay; a claimant of lower class becomes the run-time holder, and OWN_EVT shows a
preemption that names the losing holder's owner code. Of two claims in one clock the one of lower class, or of equal
class and lower owner code, holds the resource, and OWN_EVT shows the other one denied. A run-time holder that
releases a resource without an entry in the table leaves it without a run-time holder; one that releases a pin or a
resource with an entry gives it back at the next composite block boundary. A claim that names no resource or owner 0
changes nothing. -/
def Obligations.RunTimeClaimsFollowTheClasses : Prop :=
  (∀ (ty : Fin 5) (idx : Fin 64) (o : Fin 15) (s : State), resourceOk ty.val idx.val = true → o.val ≠ 0 →
    s.dev.holderNow ty.val idx.val = none →
    Completes (.runTimeClaim ty idx o false) s (fun t =>
      KMap.get (fun _ => none) t.dev.rtHold (4096 * ty.val + idx.val) = some o.val ∧
      Frame [] { s.dev with rtHold := t.dev.rtHold, rtFree := t.dev.rtFree, rtAt := t.dev.rtAt } s t)) ∧
  (∀ (ty : Fin 5) (idx : Fin 64) (o : Fin 15) (s : State), resourceOk ty.val idx.val = true → o.val ≠ 0 →
    s.dev.holderNow ty.val idx.val = some o.val →
    Completes (.runTimeClaim ty idx o false) s (fun t => Frame [] { s.dev with rtFree := t.dev.rtFree } s t)) ∧
  (∀ (ty : Fin 5) (idx : Fin 64) (o : Fin 15) (h : Nat) (s : State), resourceOk ty.val idx.val = true → o.val ≠ 0 →
    s.dev.holderNow ty.val idx.val = some h → h ≠ o.val →
    KMap.get (fun _ => none) s.dev.rtAt (4096 * ty.val + idx.val) ≠ some s.dev.clockNow → ownerClass h ≤ ownerClass o.val →
    Completes (.runTimeClaim ty idx o false) s (fun t =>
      t.dev.get R.TOP.OWN_EVT.KIND = 0 ∧ t.dev.get R.TOP.OWN_EVT.TYPE = ty.val ∧ t.dev.get R.TOP.OWN_EVT.CLAIMANT = o.val ∧
      t.dev.get R.TOP.OWN_EVT.NOENT = b2n (s.dev.entryOf ty.val idx.val o.val).isNone ∧
      t.dev.get R.TOP.OWN_EVT.ENTRY = ((s.dev.entryOf ty.val idx.val o.val).getD 0) % 2 ^ R.TOP.OWN_EVT.ENTRY.w ∧
      t.dev.get R.TOP.OWN_EVT.SEQ = nextSeq (s.dev.get R.TOP.OWN_EVT.SEQ) % 256 ∧
      Frame [R.TOP.OWN_EVT.SEQ, R.TOP.OWN_EVT.KIND, R.TOP.OWN_EVT.NOENT, R.TOP.OWN_EVT.TYPE, R.TOP.OWN_EVT.ENTRY, R.TOP.OWN_EVT.CLAIMANT]
        s.dev s t)) ∧
  (∀ (ty : Fin 5) (idx : Fin 64) (o : Fin 15) (h : Nat) (s : State), resourceOk ty.val idx.val = true → o.val ≠ 0 →
    s.dev.holderNow ty.val idx.val = some h → h ≠ o.val →
    KMap.get (fun _ => none) s.dev.rtAt (4096 * ty.val + idx.val) ≠ some s.dev.clockNow → ownerClass o.val < ownerClass h →
    Completes (.runTimeClaim ty idx o false) s (fun t =>
      KMap.get (fun _ => none) t.dev.rtHold (4096 * ty.val + idx.val) = some o.val ∧
      t.dev.get R.TOP.OWN_EVT.KIND = 1 ∧ t.dev.get R.TOP.OWN_EVT.TYPE = ty.val ∧ t.dev.get R.TOP.OWN_EVT.CLAIMANT = h % 2 ^ R.TOP.OWN_EVT.CLAIMANT.w)) ∧
  (∀ (ty : Fin 5) (idx : Fin 64) (o : Fin 15) (h : Nat) (s : State), resourceOk ty.val idx.val = true → o.val ≠ 0 →
    s.dev.holderNow ty.val idx.val = some h → h ≠ o.val →
    KMap.get (fun _ => none) s.dev.rtAt (4096 * ty.val + idx.val) = some s.dev.clockNow →
    Completes (.runTimeClaim ty idx o false) s (fun t =>
      (claimWins o.val h = true → KMap.get (fun _ => none) t.dev.rtHold (4096 * ty.val + idx.val) = some o.val ∧
        t.dev.get R.TOP.OWN_EVT.CLAIMANT = h % 2 ^ R.TOP.OWN_EVT.CLAIMANT.w) ∧
      (claimWins o.val h = false → t.dev.rtHold = s.dev.rtHold ∧ t.dev.get R.TOP.OWN_EVT.CLAIMANT = o.val) ∧
      t.dev.get R.TOP.OWN_EVT.KIND = 0 ∧ t.dev.get R.TOP.OWN_EVT.TYPE = ty.val)) ∧
  (∀ (ty : Fin 5) (idx : Fin 64) (o : Fin 15) (s : State), resourceOk ty.val idx.val = true → o.val ≠ 0 →
    KMap.get (fun _ => none) s.dev.rtHold (4096 * ty.val + idx.val) = some o.val →
    (s.dev.ownEntries ty.val idx.val).isEmpty = true → ty.val ≠ 1 →
    Completes (.runTimeClaim ty idx o true) s (fun t =>
      KMap.get (fun _ => none) t.dev.rtHold (4096 * ty.val + idx.val) = none ∧
      Frame [] { s.dev with rtHold := t.dev.rtHold, rtFree := t.dev.rtFree } s t)) ∧
  (∀ (ty : Fin 5) (idx : Fin 64) (o : Fin 15) (s : State), resourceOk ty.val idx.val = true → o.val ≠ 0 →
    KMap.get (fun _ => none) s.dev.rtHold (4096 * ty.val + idx.val) = some o.val →
    (s.dev.ownEntries ty.val idx.val).isEmpty = false ∨ ty.val = 1 →
    Completes (.runTimeClaim ty idx o true) s (fun t =>
      4096 * ty.val + idx.val ∈ t.dev.rtFree ∧ Frame [] { s.dev with rtFree := t.dev.rtFree } s t)) ∧
  (∀ (ty : Fin 5) (idx : Fin 64) (o : Fin 15) (free : Bool) (s : State), resourceOk ty.val idx.val = false ∨ o.val = 0 →
    Completes (.runTimeClaim ty idx o free) s (fun t => t = s.after s.dev))

/-- While the device serves the host, a BAR0 read that breaks no access rule leaves as a completion with the value that
the read finds, and changes nothing else but the latches of 64-bit pairs; one that breaks a rule leaves as a
Completer Abort with the kind and the address recorded in BUSERR. A read of the user page that breaks no rule
answers with bytes of that page. Before the device serves, a read is an Unsupported Request. In OFF nothing answers. -/
def Obligations.RegisterReadsComplete : Prop :=
  (∀ (addr : BitVec 25) (size : Nat) (s : State), s.dev.aon.off = false → s.dev.served = true → readErr addr.toNat size = none →
    Completes (.registerRead false addr size) s (fun t =>
      t.dev.out = .readDone 0 addr.toNat size (readAt addr.toNat size (hstPerf 1 1 s.dev)).1 false :: s.dev.out ∧
      Frame [] { s.dev with out := t.dev.out, latch := t.dev.latch, epochLatch := t.dev.epochLatch, free := t.dev.free } s t)) ∧
  (∀ (addr : BitVec 25) (size k : Nat) (s : State), s.dev.aon.off = false → s.dev.served = true → readErr addr.toNat size = some k →
    Completes (.registerRead false addr size) s (fun t =>
      t.dev.out = .readAbort 0 addr.toNat :: s.dev.out ∧ t.dev.get R.TOP.BUSERR.KIND = k % 2 ^ R.TOP.BUSERR.KIND.w ∧
      t.dev.get R.TOP.BUSERR_ADDR.ADDR = addr.toNat % 2 ^ R.TOP.BUSERR_ADDR.ADDR.w)) ∧
  (∀ (addr : BitVec 25) (size : Nat) (s : State), s.dev.aon.off = false → s.dev.served = true → userErr addr.toNat size = none →
    Completes (.registerRead true addr size) s (fun t =>
      t.dev.out = .readDone 2 addr.toNat size (leVal ((s.dev.userPage.drop addr.toNat).take size)) false :: s.dev.out ∧
      Frame [] { s.dev with out := t.dev.out } s t)) ∧
  (∀ (user : Bool) (addr : BitVec 25) (size : Nat) (s : State), s.dev.aon.off = false → s.dev.served = false →
    Completes (.registerRead user addr size) s (fun t =>
      t.dev.out = .unsupported (barCode user) addr.toNat :: s.dev.out ∧ Frame [] { s.dev with out := t.dev.out } s t)) ∧
  (∀ (user : Bool) (addr : BitVec 25) (size : Nat) (s : State), s.dev.aon.off = true →
    Completes (.registerRead user addr size) s (fun t => t = s.after s.dev))

/-- A full-word write that breaks no access rule and no setting, to any register whose write starts nothing beside its
fields, completes: each RW field holds the written bits, each RWB field that waits for a boundary keeps its value
and waits with the written one, RO fields keep theirs, and no field of another register changes but the books. A
word written to a table window of FUS, CLS or VRD while no copy covers it is in the shadow bank, and the active bank
keeps its words; one written to the mailbox stands there. A write that breaks a rule, or that goes to the user page,
is recorded with its kind and reported by an AER message. A write to a register of a domain that service mode leaves
dark (R475), or of a value that the field's table does not state (R34), stops as a host error. -/
def Obligations.RegisterWritesReachTheFields : Prop :=
  (∀ (addr : BitVec 25) (value : BitVec 64) (env : BootEnv) (s : State) (base inst : Nat) (b : BlockDef) (r : RegDef) (f : FieldDef),
    siteOf addr.toNat = .reg base b inst r addr.toNat → s.dev.takesWord addr.toNat base b r (value.toNat % 2 ^ 32) →
    f ∈ r.fields → f.lo + f.w ≤ 32 → (∀ g ∈ r.fields, g.lo = f.lo → g = f) →
    Completes (.registerWrite false addr 4 value env) s (fun t =>
      (f.ty = .rw → t.dev.get ⟨addr.toNat, f.lo, f.w⟩ = bits value.toNat f.lo f.w) ∧
      (f.ty = .rwb → f.bnd ≠ .imm → bookKey (Fld.key ⟨addr.toNat, f.lo, f.w⟩) = false →
        t.dev.get ⟨addr.toNat, f.lo, f.w⟩ = s.dev.get ⟨addr.toNat, f.lo, f.w⟩ ∧
        KMap.get (fun _ => none) t.dev.rwb (Fld.key ⟨addr.toNat, f.lo, f.w⟩) = some (bits value.toNat f.lo f.w)) ∧
      (f.ty = .ro → bookKey (Fld.key ⟨addr.toNat, f.lo, f.w⟩) = false →
        t.dev.get ⟨addr.toNat, f.lo, f.w⟩ = s.dev.get ⟨addr.toNat, f.lo, f.w⟩) ∧
      (∀ g : Fld, g.key / 64 ≠ addr.toNat → bookKey g.key = false → t.dev.get g = s.dev.get g))) ∧
  (∀ (addr : BitVec 25) (value : BitVec 64) (env : BootEnv) (s : State) (base inst off u k : Nat) (b : BlockDef) (w : WinId),
    s.dev.aon.off = false → s.dev.served = true → writeErr s.dev addr.toNat 4 = none → s.dev.dark b.code = false →
    s.dev.recipeTouches addr.toNat = false → siteOf addr.toNat = .win base b inst w off → b.code ∈ [11, 12, 16] →
    s.dev.tableKey w inst off = some (u, k) → s.dev.copyCovers u k = false →
    Completes (.registerWrite false addr 4 value env) s (fun t =>
      t.dev.shdWord u k = value.toNat % 2 ^ 32 ∧ (∀ j, t.dev.actWord u j = s.dev.actWord u j) ∧
      ∀ f, bookKey f.key = false → t.dev.get f = s.dev.get f)) ∧
  (∀ (addr : BitVec 25) (value : BitVec 64) (env : BootEnv) (s : State) (base inst off : Nat) (b : BlockDef),
    s.dev.aon.off = false → s.dev.served = true → writeErr s.dev addr.toNat 4 = none → s.dev.dark b.code = false →
    s.dev.recipeTouches addr.toNat = false → siteOf addr.toNat = .win base b inst .mailbox off →
    Completes (.registerWrite false addr 4 value env) s (fun t =>
      t.dev.mbxField off 4 = value.toNat % 2 ^ 32 ∧ Frame [] { s.dev with latch := t.dev.latch, mgt := t.dev.mgt } s t)) ∧
  (∀ (addr : BitVec 25) (size : Nat) (value : BitVec 64) (env : BootEnv) (s : State), s.dev.aon.off = false → s.dev.served = true →
    Completes (.registerWrite true addr size value env) s (fun t =>
      t.dev.get R.TOP.BUSERR.KIND = 5 ∧ t.dev.get R.TOP.BUSERR_ADDR.BAR = 2 ∧ .aer 2 addr.toNat ∈ t.dev.out)) ∧
  (∀ (addr : BitVec 25) (size : Nat) (value : BitVec 64) (env : BootEnv) (s : State) (k : Nat),
    s.dev.aon.off = false → s.dev.served = true → writeErr s.dev addr.toNat size = some k →
    Completes (.registerWrite false addr size value env) s (fun t =>
      t.dev.get R.TOP.BUSERR.KIND = k % 2 ^ R.TOP.BUSERR.KIND.w ∧ .aer 0 addr.toNat ∈ t.dev.out)) ∧
  (∀ (addr : BitVec 25) (size : Nat) (value : BitVec 64) (env : BootEnv) (s : State) (base inst : Nat) (b : BlockDef) (r : RegDef) (a : Nat),
    s.dev.aon.off = false → s.dev.served = true → writeErr s.dev addr.toNat size = none →
    siteOf addr.toNat = .reg base b inst r a → s.dev.dark b.code = true →
    ∃ w, exec (.registerWrite false addr size value env) s = .fault (.hostError w)) ∧
  (∀ (addr : BitVec 25) (size : Nat) (value : BitVec 64) (env : BootEnv) (s : State) (base inst : Nat) (b : BlockDef) (r : RegDef) (a : Nat),
    s.dev.aon.off = false → s.dev.served = true → writeErr s.dev addr.toNat size = none → s.dev.dark b.code = false →
    siteOf addr.toNat = .reg base b inst r a → addr.toNat ≠ 0x264 →
    outOfRange b.code (a - base) r a (8 * (addr.toNat - a)) (8 * size) (value.toNat % 2 ^ (8 * size)) s.dev = true →
    ∃ w, exec (.registerWrite false addr size value env) s = .fault (.hostError w))

/-- For every register with a SEQ in bits 31:24 whose fields are RSQ and RO fields: RSQ_CLEAR with the SEQ in force sets
every other RSQ field of the register to 0 and leaves SEQ as it is; with another SEQ every RSQ field keeps its
value. At an offset without a SEQ the command changes nothing. And for an event of any 8-bit SEQ field: the new SEQ
is the next one, which is never 0 (0xFF wraps to 0x01), and the event's flags are set. -/
def Obligations.SequenceNumberClears : Prop :=
  (∀ (addr : BitVec 25) (value : BitVec 32) (s : State) (base inst : Nat) (b : BlockDef) (r : RegDef) (f : FieldDef),
    siteOf addr.toNat = .reg base b inst r addr.toNat → s.dev.takesWord addr.toNat base b r value.toNat → hasSeq addr.toNat = true →
    r.fields.all (fun g => g.ty == .rsq || g.ty == .ro) = true →
    f ∈ r.fields → f.ty = .rsq → bookKey (Fld.key ⟨addr.toNat, f.lo, f.w⟩) = false →
    Completes (.rsqClear addr value) s (fun t =>
      t.dev.get ⟨addr.toNat, f.lo, f.w⟩ =
        if s.dev.get ⟨addr.toNat, 24, 8⟩ = bits value.toNat 24 8 ∧ f.lo ≠ 24 then 0 else s.dev.get ⟨addr.toNat, f.lo, f.w⟩)) ∧
  (∀ (addr : BitVec 25) (value : BitVec 32) (s : State), hasSeq addr.toNat = false →
    Completes (.rsqClear addr value) s (fun t => t = s.after s.dev)) ∧
  (∀ (code : Nat) (seq : Fld) (fs : List Fld) (d : Dev), seq.w = 8 → d.get seq < 256 → bookKey seq.key = false →
    (∀ f ∈ fs, f.w = 1 ∧ f.key ≠ seq.key ∧ bookKey f.key = false) →
    (event code seq fs d).get seq = nextSeq (d.get seq) ∧ nextSeq (d.get seq) ≠ 0 ∧
      nextSeq (d.get seq) = (if d.get seq = 255 then 1 else d.get seq + 1) ∧ ∀ f ∈ fs, (event code seq fs d).on f = true)

/-- RWP_WRITE_LANDS with a posted write under way ends BUSY, and every value posted to the slow-domain block is in
force, with none left posted. BLOCK_BOUNDARY at TIM, MRG or CRV, when the next composite line begins a block and its
E has come, puts every pending BLOCK field of that unit in force as one set; at TOP it ends the run-time holding of
the resources that were released. A register field that was not pending keeps its value. -/
def Obligations.PendingValuesLand : Prop :=
  (∀ (cal : Bool) (s : State), s.dev.on (if cal then R.CAL.BUSY.BUSY else R.PWR.BUSY.BUSY) = true →
    KMap.wf (fun _ => none) s.dev.rwp = true →
    Completes (.rwpWriteLands cal) s (fun t =>
      t.dev.on (if cal then R.CAL.BUSY.BUSY else R.PWR.BUSY.BUSY) = false ∧
      (∀ f : Fld, f.key ≠ (if cal then R.CAL.BUSY.BUSY else R.PWR.BUSY.BUSY).key →
        (if cal then 0xa0000 else 0x80000) ≤ f.key / 64 → f.key / 64 < (if cal then 0xa0000 else 0x80000) + 0x20000 →
        t.dev.get f = (KMap.get (fun _ => none) s.dev.rwp f.key).getD (s.dev.get f) ∧ KMap.get (fun _ => none) t.dev.rwp f.key = none) ∧
      (∀ f : Fld, f.key / 64 < (if cal then 0xa0000 else 0x80000) ∨ (if cal then 0xa0000 else 0x80000) + 0x20000 ≤ f.key / 64 →
        t.dev.get f = s.dev.get f))) ∧
  (∀ (code : Fin 22) (inst : Fin 12) (base n : Nat) (s : State),
    (code.val, base, n) ∈ [(7, 0x100000, 0x100000), (14, 0x1200000, 0x100000), (15, 0x1300000, 0x500000)] →
    s.dev.blockWaits = true → KMap.wf (fun _ => none) s.dev.rwb = true →
    Completes (.blockBoundary code inst) s (fun t =>
      ∀ f : Fld, t.dev.get f =
        if inRange base n .block f.key then (KMap.get (fun _ => none) s.dev.rwb f.key).getD (s.dev.get f) else s.dev.get f)) ∧
  (∀ (inst : Fin 12) (s : State), s.dev.blockWaits = true →
    Completes (.blockBoundary 0 inst) s (fun t => ∀ k ∈ s.dev.rtFree, KMap.get (fun _ => none) t.dev.rtHold k = none))

/-- T_FIELD_SCRUB with one copy in disagreement sets RAS.STATUS.T_CORR with the next SEQ and counts it, and no other
register changes; with all copies in disagreement, in a register outside the gouges and lathes, it sets T_LOST,
counts it, and the register waits for its restore; with no hit nothing changes. T_FIELD_RESTORE while the cores
serve takes the field lost longest ago off the list, and gives each RW field of its register (one whose field widths
fit a word) the bits of the word that the image or a recipe last wrote there. -/
def Obligations.TriplicatedFieldsScrubAndRestore : Prop :=
  (∀ (a : BitVec 25) (s : State),
    Completes (.tFieldScrub [{ addr := a, lost := false }]) s (fun t =>
      t.dev.on R.RAS.STATUS.T_CORR = true ∧ t.dev.get R.RAS.STATUS.SEQ = nextSeq (s.dev.get R.RAS.STATUS.SEQ) % 256 ∧
      t.dev.get (R.RAS.STAT.COUNT 0) = (s.dev.get (R.RAS.STAT.COUNT 0) + 1) % 2 ^ 32 ∧
      Frame [R.RAS.STATUS.SEQ, R.RAS.STATUS.T_CORR, R.RAS.STAT.COUNT 0] s.dev s t)) ∧
  (∀ (a : BitVec 25) (s : State) (base inst : Nat) (b : BlockDef) (r : RegDef) (a' : Nat),
    siteOf a.toNat = .reg base b inst r a' → b.code ∉ [6, 10, 13] →
    Completes (.tFieldScrub [{ addr := a, lost := true }]) s (fun t =>
      t.dev.on R.RAS.STATUS.T_LOST = true ∧ t.dev.get R.RAS.STATUS.SEQ = nextSeq (s.dev.get R.RAS.STATUS.SEQ) % 256 ∧
      t.dev.get (R.RAS.STAT.COUNT 1) = (s.dev.get (R.RAS.STAT.COUNT 1) + 1) % 2 ^ 32 ∧ t.dev.ras.tLost = s.dev.ras.tLost ++ [a.toNat])) ∧
  (∀ s : State, Completes (.tFieldScrub []) s (fun t => t = s.after s.dev)) ∧
  (∀ (a : Nat) (rest : List Nat) (s : State) (base inst : Nat) (b : BlockDef) (r : RegDef) (f : FieldDef) (w : Nat),
    s.dev.ras.coresDown = false → s.dev.ras.tLost = a :: rest → siteOf a = .reg base b inst r a →
    f ∈ r.fields → f.ty = .rw → f.lo + f.w ≤ 32 → (∀ g ∈ r.fields, g.lo = f.lo → g = f) →
    KMap.get (fun _ => none) s.dev.imgWord a = some w →
    Completes .tFieldRestore s (fun t =>
      t.dev.ras.tLost = rest ∧ t.dev.get ⟨a, f.lo, f.w⟩ = bits w f.lo f.w))

/-- ARM while idle arms and zeroes DROPPED, and otherwise changes nothing. A trigger from an enabled source while armed
moves to latching with the lead time added to DT, at least 2,000 ns; from a source that is not enabled it changes
nothing. SNAP_IN triggers on its edge polarity while the pin carries the input. SNAPSHOT_LATCH of a block instance
that has yet to confirm takes it off the list. SNAPSHOT_HELD with all confirmed holds the snapshot, with the next
ID, its time and its sources, and a new event. SNAPSHOT_RELEASE of a held snapshot returns to idle. -/
def Obligations.SnapshotStates : Prop :=
  (∀ s : State, s.dev.get R.SNP.STATUS.STATE = 0 →
    Completes .arm s (fun t => t.dev.get R.SNP.STATUS.STATE = 1 ∧ t.dev.get R.SNP.ID.DROPPED = 0 ∧
      Frame [R.SNP.STATUS.STATE, R.SNP.ID.DROPPED] s.dev s t)) ∧
  (∀ s : State, s.dev.get R.SNP.STATUS.STATE ≠ 0 → Completes .arm s (fun t => t = s.after s.dev)) ∧
  (∀ (mgmt : Bool) (s : State), bit (s.dev.get R.SNP.CTL.SRC_EN) (if mgmt then 4 else 0) = true → s.dev.get R.SNP.STATUS.STATE = 1 →
    Completes (.snapshotTrigger mgmt) s (fun t =>
      t.dev.get R.SNP.STATUS.STATE = 2 ∧ t.dev.snap.t = dtAddNs s.dev.dt (max 2000 (s.dev.get R.SNP.LEAD.LEAD_NS)) ∧
      t.dev.snap.src = 2 ^ (if mgmt then 4 else 0) ∧ t.dev.snap.waiting = allInstances ∧
      Frame [R.SNP.STATUS.STATE] { s.dev with snap := t.dev.snap } s t)) ∧
  (∀ (mgmt : Bool) (s : State), bit (s.dev.get R.SNP.CTL.SRC_EN) (if mgmt then 4 else 0) = false →
    Completes (.snapshotTrigger mgmt) s (fun t => t = s.after s.dev)) ∧
  (∀ (rising : Bool) (s : State), s.dev.get (R.TOP.PINMUX.FUNC 36) = 0 → rising = s.dev.on R.SNP.CTL.SNAP_IN_POL →
    bit (s.dev.get R.SNP.CTL.SRC_EN) 1 = true → s.dev.get R.SNP.STATUS.STATE = 1 →
    Completes (.snapIn rising) s (fun t =>
      t.dev.get R.SNP.STATUS.STATE = 2 ∧ t.dev.snap.src = 2 ∧ Frame [R.SNP.STATUS.STATE] { s.dev with snap := t.dev.snap } s t)) ∧
  (∀ (block : Fin 22) (inst : Fin 136) (s : State), s.dev.tim.coming = [] → s.dev.get R.SNP.STATUS.STATE = 2 →
    (block.val, inst.val) ∈ s.dev.snap.waiting →
    Completes (.snapshotLatch block inst) s (fun t =>
      t.dev.snap.waiting = s.dev.snap.waiting.filter (fun y => y != (block.val, inst.val)) ∧
      Frame [] { dtSteps (s.dev.stepsTo s.dev.snap.t) s.dev with snap := t.dev.snap } s t)) ∧
  (∀ s : State, s.dev.get R.SNP.STATUS.STATE = 2 → s.dev.snap.waiting = [] →
    Completes .snapshotHeld s (fun t =>
      t.dev.get R.SNP.STATUS.STATE = 3 ∧ t.dev.get R.SNP.ID.ID = (s.dev.get R.SNP.ID.ID + 1) % 2 ^ R.SNP.ID.ID.w ∧
      t.dev.get R.SNP.T.T = s.dev.snap.t % 2 ^ 64 ∧ t.dev.get R.SNP.STATUS.SRC = s.dev.snap.src % 2 ^ R.SNP.STATUS.SRC.w ∧
      t.dev.get R.SNP.STATUS.SEQ = nextSeq (s.dev.get R.SNP.STATUS.SEQ) % 256)) ∧
  (∀ s : State, s.dev.get R.SNP.STATUS.STATE = 3 →
    Completes .snapshotRelease s (fun t => t.dev.get R.SNP.STATUS.STATE = 0 ∧ Frame [R.SNP.STATUS.STATE] s.dev s t))

/-- With collection running and no line on its way: a boundary while the last dump is not complete is skipped and
counted, and its period starts anew. A boundary with no dump under way, and a ring that the reader is denied,
latches one entry for every block instance in the mask, with the boundary's time, and the dump is under way.
DUMP_COMPLETE ends a dump: DUMP_SEQ moves on by one and the latched entries are the latest dump; while host image
traffic yields (R13) it waits, and DRAM_YIELD shows so. -/
def Obligations.CollectionTakesAndDumps : Prop :=
  (∀ (t0 : Nat) (s : State), s.dev.tim.coming = [] → s.dev.prf.nextDt = some t0 → s.dev.prf.busy = true →
    Completes .collectionBoundary s (fun t =>
      t.dev.get R.PRF.SKIP_CNT.COUNT = (s.dev.get R.PRF.SKIP_CNT.COUNT + 1) % 2 ^ R.PRF.SKIP_CNT.COUNT.w ∧
      t.dev.on R.PRF.STATUS.SKIP = true ∧ t.dev.prf.skipped = s.dev.prf.skipped + 1 ∧
      t.dev.prf.nextDt = some (dtAddNs t0 (clamp 1000 1000000000 (s.dev.get R.PRF.PERIOD.NS) : Nat)))) ∧
  (∀ (t0 : Nat) (s : State), s.dev.tim.coming = [] → s.dev.prf.nextDt = some t0 → s.dev.prf.busy = false → s.dev.dumpRing = none →
    Completes .collectionBoundary s (fun t =>
      t.dev.prf.busy = true ∧ t.dev.prf.latchDt = t0 ∧ t.dev.prf.latched.map (fun e => (e.block, e.inst)) = s.dev.dumpSet ∧
      t.dev.on R.PRF.STATUS.DENIED = true)) ∧
  (∀ s : State, s.dev.prf.busy = true → s.dev.prf.denied = false → s.dev.yields 3 = true →
    Completes .dumpComplete s (fun t =>
      t.dev.prf.busy = true ∧ Raised R.TOP.DRAM_YIELD.SEQ [R.TOP.DRAM_YIELD.HOST_IMG] s.dev t.dev ∧
      Frame [R.TOP.DRAM_YIELD.SEQ, R.TOP.DRAM_YIELD.HOST_IMG] { s.dev with yielding := t.dev.yielding } s t)) ∧
  (∀ s : State, s.dev.prf.busy = true → (!s.dev.prf.denied && s.dev.yields 3) = false →
    Completes .dumpComplete s (fun t =>
      t.dev.get R.PRF.DUMP_SEQ.SEQ = (s.dev.get R.PRF.DUMP_SEQ.SEQ + 1) % 2 ^ 32 ∧ t.dev.prf.busy = false ∧
      t.dev.prf.lastDump = s.dev.prf.latched))

/-- With no issued line on its way, DT_WRAP completes from every DT accumulator in range: the epoch moves on by one
modulo 2^32, and the accumulator stands less than one step of R61 after the wrap. -/
def Obligations.DeviceTimeWraps : Prop :=
  ∀ s : State, s.dev.tim.coming = [] → s.dev.tim.acc < 2 ^ 96 → 0 < s.dev.dtStep → s.dev.dtStep < 2 ^ 96 →
    Completes .dtWrap s (fun t =>
      t.dev.tim.epoch = (s.dev.tim.epoch + 1) % 2 ^ 32 ∧ t.dev.tim.acc < s.dev.dtStep ∧
      Frame [] { s.dev with tim := { s.dev.tim with acc := t.dev.tim.acc, epoch := t.dev.tim.epoch } } s t)

/-- For full 64-bit DT values A and B, the difference d of R63 is the one that the device computes: it lies from -2^63
to 2^63 - 1, is congruent to A - B modulo 2^64, so that A is later than B exactly when d > 0 and equals B exactly
when d = 0; and every comparison for a time that is due holds exactly when d is not negative. -/
def Obligations.WrapSafeComparison : Prop :=
  ∀ a b : Nat, a < 2 ^ 64 → b < 2 ^ 64 →
    ((a + 2 ^ 64 - b) % 2 ^ 64 < 2 ^ 63 → dtDiff a b = ((a + 2 ^ 64 - b) % 2 ^ 64 : Nat)) ∧
    (2 ^ 63 ≤ (a + 2 ^ 64 - b) % 2 ^ 64 → dtDiff a b = (((a + 2 ^ 64 - b) % 2 ^ 64 : Nat) : Int) - 2 ^ 64) ∧
    (dtDiff a b = 0 ↔ a = b) ∧ (dtGe a b = true ↔ 0 < dtDiff a b ∨ a = b)

/-- REFCLK_LOSS of the input in use: in dual mode with the other input eligible the device switches to it, counts and
flags the switch; else PLL_TIME goes into holdover, and QUAL shows 1 while it is locked. REFCLK_ELIGIBLE in holdover
takes the input in use again and ends holdover. PLL_UNLOCK of a locked PLL clears its lock bit, flags and counts it;
PLL_RELOCK of a running PLL without lock sets the bit. -/
def Obligations.ReferencesAndPllsChange : Prop :=
  (∀ (i : Fin 2) (s : State), s.dev.refInUse = i.val → s.dev.aon.off = false →
    (s.dev.on R.TOP.PROFILE_ACT.REF_MODE && flag s.dev.tim.refElig (1 - i.val)) = true →
    Completes (.refclkLoss i) s (fun t =>
      t.dev.get R.TIM.DT_QUAL.REF_B = 1 - i.val ∧ Raised R.RAS.STATUS.SEQ [R.RAS.STATUS.REF_SWITCH] s.dev t.dev ∧
      Counted (R.RAS.STAT.COUNT 8) 1 s.dev t.dev ∧ flag t.dev.tim.refRun i.val = false ∧
      Frame [R.TIM.DT_QUAL.REF_B, R.TIM.DT_QUAL.QUAL, R.RAS.STATUS.SEQ, R.RAS.STATUS.REF_SWITCH, R.RAS.STAT.COUNT 8]
        { s.dev with tim := t.dev.tim } s t)) ∧
  (∀ (i : Fin 2) (s : State), s.dev.refInUse = i.val → s.dev.aon.off = false → bit (s.dev.get R.PWR.PLL.LOCK) 3 = true →
    (s.dev.on R.TOP.PROFILE_ACT.REF_MODE && flag s.dev.tim.refElig (1 - i.val)) = false →
    Completes (.refclkLoss i) s (fun t =>
      t.dev.tim.holdover = true ∧ t.dev.get R.TIM.DT_QUAL.QUAL = 1 ∧ flag t.dev.tim.refRun i.val = false ∧
      flag t.dev.tim.refElig i.val = false ∧ Frame [R.TIM.DT_QUAL.QUAL] { s.dev with tim := t.dev.tim } s t)) ∧
  (∀ (i : Fin 2) (s : State), s.dev.refInUse = i.val → s.dev.aon.off = false → bit (s.dev.get R.PWR.PLL.LOCK) 3 = true →
    s.dev.tim.holdover = true →
    Completes (.refclkEligible i) s (fun t =>
      t.dev.tim.holdover = false ∧ t.dev.get R.TIM.DT_QUAL.QUAL = 0 ∧ t.dev.get R.TIM.DT_QUAL.REF_B = i.val ∧
      flag t.dev.tim.refElig i.val = true ∧
      Frame [R.TIM.DT_QUAL.QUAL, R.TIM.DT_QUAL.REF_B] { s.dev with tim := t.dev.tim } s t)) ∧
  (∀ (i : Fin 6) (s : State), bit (s.dev.get R.PWR.PLL.LOCK) i.val = true →
    Completes (.pllUnlock i) s (fun t =>
      bit (t.dev.get R.PWR.PLL.LOCK) i.val = false ∧ Raised R.PWR.STATUS.SEQ [R.PWR.STATUS.PLL_UNLOCK] s.dev t.dev ∧
      Counted (R.PWR.STAT.COUNT 4) 1 s.dev t.dev ∧
      Frame [R.PWR.PLL.LOCK, R.PWR.STATUS.SEQ, R.PWR.STATUS.PLL_UNLOCK, R.PWR.STAT.COUNT 4, R.CRV.CLK.MHZ, R.TIM.DT_QUAL.QUAL]
        { s.dev with tim := t.dev.tim } s t)) ∧
  (∀ (i : Fin 6) (s : State), bit (s.dev.get R.PWR.PLL.RUN) i.val = true → bit (s.dev.get R.PWR.PLL.LOCK) i.val = false →
    Completes (.pllRelock i) s (fun t =>
      bit (t.dev.get R.PWR.PLL.LOCK) i.val = true ∧
      Frame [R.PWR.PLL.LOCK, R.CRV.CLK.MHZ, R.TIM.DT_QUAL.QUAL] { s.dev with tim := t.dev.tim } s t))

/-- BATCH_CTL_END leaves a batch event pending and changes nothing else. BATCH_START with an event pending at a
composite block boundary, and no recipe that is armed, takes the event, moves the batch number on by one, sets NEW
with the next SEQ, and every BATCH field that waited has its value and waits no more; a recipe that still loads is
marked LATE. With an armed recipe whose records are no host error, the device of the batch's first clock takes the
recipe (R484): it is the current one, the engine is idle, and the batch number and event are the same. Without a
pending event or off the boundary BATCH_START changes nothing. -/
def Obligations.BatchesEndAndStart : Prop :=
  (∀ s : State, Completes .batchCtlEnd s (fun t =>
    t.dev.tim.batchPending = true ∧ Frame [] { s.dev with tim := { s.dev.tim with batchPending := true } } s t)) ∧
  (∀ s : State, s.dev.tim.batchPending = true → s.dev.atBoundary = true → s.dev.get R.TOP.RECIPE.STATE ≠ 2 →
    KMap.wf (fun _ => none) s.dev.rwb = true →
    Completes .batchStart s (fun t =>
      t.dev.tim.batchPending = false ∧ Counted R.TIM.BATCH_STATUS.NUMBER 1 s.dev t.dev ∧
      Raised R.TIM.BATCH_STATUS.SEQ [R.TIM.BATCH_STATUS.NEW] s.dev t.dev ∧
      (∀ f : Fld, keyBnd f.key = .batch → t.dev.get f = (KMap.get (fun _ => none) s.dev.rwb f.key).getD (s.dev.get f)) ∧
      (∀ k, keyBnd k = .batch → KMap.get (fun _ => none) t.dev.rwb k = none) ∧
      (s.dev.get R.TOP.RECIPE.STATE = 1 → t.dev.on R.TOP.RECIPE_STATUS.LATE = true))) ∧
  (∀ s : State, (s.dev.tim.batchPending && s.dev.atBoundary) = false → Completes .batchStart s (fun t => t = s.after s.dev)) ∧
  (∀ s : State, s.dev.tim.batchPending = true → s.dev.atBoundary = true → s.dev.get R.TOP.RECIPE.STATE = 2 →
    ∀ e : Dev, recipeApply s.mem (batchOpen s.dev) = .next e →
    Completes .batchStart s (fun t =>
      t = s.after (vrdSwap e) ∧
      t.dev.tim.batchPending = false ∧ Counted R.TIM.BATCH_STATUS.NUMBER 1 s.dev t.dev ∧
      t.dev.get R.TOP.RECIPE.CUR = s.dev.rcp.loading % 2 ^ R.TOP.RECIPE.CUR.w ∧ t.dev.get R.TOP.RECIPE.STATE = 0))

/-- In RUN with a candidate exposure time E: LINE_ISSUE drops a line closer than the minimum period to the last issued
one, and counts it; else, from DT at E - LEAD, the line is issued with the next LSN (0 for the first) and E, and it
is on its way to its ports before the lines whose E has come reach them. TRIGGER_MESSAGE takes the oldest line owed
and, from DT at E - LEAD with E still to come and the downlink up, sends message code 1; else the port is released
late. TRIG_OUT_PULSE at E + OFS puts the pin that drives its primary function to its active level by POL and cuts
off a pulse that still runs, and WIDTH later TRIG_OUT_PULSE_END puts it back; a pin that does not drive it takes the
pulse and shows nothing. -/
def Obligations.LinesAreIssuedWithTheirTriggers : Prop :=
  (∀ (g : Fin 4) (s : State) (e : Nat) (q : TgS), s.dev.inRun = true → s.dev.candidate g.val = some (e, q) →
    (q.count != 0 && decide (dtDiff e (s.dev.get (R.TIM.TG_LAST.E g.val)) < s.dev.minPeriod g.val)) = true →
    Completes (.lineIssue g) s (fun t =>
      Counted (R.TIM.TG_DROPS.COUNT g.val) 1 s.dev t.dev ∧ Raised (R.TIM.TG_STATUS.SEQ g.val) [R.TIM.TG_STATUS.DROP g.val] s.dev t.dev ∧
      Frame [R.TIM.TG_DROPS.COUNT g.val, R.TIM.TG_STATUS.SEQ g.val, R.TIM.TG_STATUS.DROP g.val] (setTg g.val q s.dev) s t)) ∧
  (∀ (g : Fin 4) (s : State) (e : Nat) (q : TgS), s.dev.inRun = true → s.dev.candidate g.val = some (e, q) → e < 2 ^ 64 →
    (q.count != 0 && decide (dtDiff e (s.dev.get (R.TIM.TG_LAST.E g.val)) < s.dev.minPeriod g.val)) = false →
    Completes (.lineIssue g) s (fun t => ∃ d1 d2 : Dev,
      d1 = reach (dtAddNs e (-(s.dev.lead g.val : Int))) (setTg g.val q s.dev) ∧ t = s.after (settleLines d2) ∧
      d2.get (R.TIM.TG_LSN.LSN g.val) = (if q.issued then (d1.get (R.TIM.TG_LSN.LSN g.val) + 1) % 2 ^ 32 else 0) ∧
      d2.get (R.TIM.TG_LAST.E g.val) = e ∧ (d2.tgS g.val).count = q.count + 1 ∧ (d2.tgS g.val).issued = true ∧
      (∃ c ∈ d2.tim.coming, c.g = g.val ∧ c.lsn = d2.get (R.TIM.TG_LSN.LSN g.val) ∧ c.e = e))) ∧
  (∀ (p : Fin 12) (s : State) (q : TrigLine) (rest : List TrigLine) (d : Dev),
    KMap.get (fun _ => []) s.dev.tim.trig p.val = q :: rest →
    d = reach (dtAddNs q.e (-(s.dev.lead (s.dev.get (R.TIM.PT_CTL.TG p.val)) : Int)))
      { s.dev with tim := { s.dev.tim with trig := KMap.put (fun _ => []) s.dev.tim.trig p.val rest } } →
    Completes (.triggerMessage p) s (fun t =>
      if d.downlinkUp p.val && decide (dtDiff d.dt q.e < 0) then
        t.dev.out = .downlink p.val (message 1 (d.portS p.val).mseq (leBytes 4 q.lsn ++ leBytes 8 q.e)) :: d.out ∧
        Frame [] { d with out := t.dev.out, port := t.dev.port, lane := t.dev.lane, free := t.dev.free } s t
      else
        Raised (R.TIM.TG_STATUS.SEQ (s.dev.get (R.TIM.PT_CTL.TG p.val))) [R.TIM.TG_STATUS.PORT_LATE (s.dev.get (R.TIM.PT_CTL.TG p.val))] d t.dev ∧
        t.dev.out = d.out)) ∧
  (∀ (p : Fin 12) (s : State) (q : TrigLine) (rest : List TrigLine) (d : Dev),
    KMap.get (fun _ => []) s.dev.tim.pulse p.val = q :: rest →
    d = reach (dtAddNs q.e (max (sgn 16 (s.dev.get (R.TIM.PT_CTL.OFS p.val))) (-((s.dev.lead (s.dev.get (R.TIM.PT_CTL.TG p.val)) : Int) - 100))))
      { s.dev with tim := { s.dev.tim with pulse := KMap.put (fun _ => []) s.dev.tim.pulse p.val rest } } →
    Completes (.trigOutPulse p) s (fun t =>
      (d.drivesPrimary p.val = true → KMap.get (fun _ => none) d.tim.pulseEnd p.val = none →
        t.dev.out = .trigPin p.val (d.on (R.TIM.PT_CTL.POL p.val)) d.dt :: d.out) ∧
      (d.drivesPrimary p.val = true → KMap.get (fun _ => none) d.tim.pulseEnd p.val ≠ none →
        t.dev.out = .trigPin p.val (d.on (R.TIM.PT_CTL.POL p.val)) d.dt :: .trigPin p.val (!d.on (R.TIM.PT_CTL.POL p.val)) d.dt :: d.out) ∧
      (d.drivesPrimary p.val = true →
        KMap.get (fun _ => none) t.dev.tim.pulseEnd p.val = some (dtAddNs d.dt (10 * d.get (R.TIM.PT_CTL.WIDTH p.val) : Nat))) ∧
      (d.drivesPrimary p.val = false → t = s.after d) ∧
      Frame [] { d with out := t.dev.out, tim := t.dev.tim } s t)) ∧
  (∀ (p : Fin 12) (s : State) (x : Nat), KMap.get (fun _ => none) s.dev.tim.pulseEnd p.val = some x →
    Completes (.trigOutPulseEnd p) s (fun t =>
      t.dev.out = .trigPin p.val (!(reach x s.dev).on (R.TIM.PT_CTL.POL p.val)) (reach x s.dev).dt :: (reach x s.dev).out ∧
      KMap.get (fun _ => none) t.dev.tim.pulseEnd p.val = none ∧
      Frame [] { reach x s.dev with out := t.dev.out, tim := t.dev.tim } s t))

/-- With the encoder's pins on their primary function and SP running: an edge whose input stays stable for FILT × 4 ns
and that comes no closer to the last one than the encoder interface allows moves SP by one in its direction,
inverted by INV, and changes no other register; one that is not stable for that long changes nothing; after one that
comes closer the count of SP is a free value. A and B changing in one sample set ILLEGAL with a new event and leave
SP. ENCODER_INDEX sets Z_SEEN, captures SP when Z_MODE is not 0, and loads the preset when Z_MODE is 3, or when it
is 2 and no index has loaded it since. -/
def Obligations.EncodersCount : Prop :=
  (∀ (e : Fin 2) (up : Bool) (m : EncMove) (stable : Nat) (s : State), (m = if up then .up else .down) → s.dev.spRuns = true →
    (s.dev.reads (37 + 3 * e.val) || s.dev.reads (38 + 3 * e.val)) = true →
    4 * s.dev.get (R.TIM.ENC_CTL.FILT e.val) ≤ stable → s.dev.edgeClose e.val = false →
    Completes (.encoderEdge e ⟨m, stable⟩) s (fun t =>
      t.dev.get (R.TIM.ENC_SP.SP e.val) =
        spWord (sgn 48 (s.dev.get (R.TIM.ENC_SP.SP e.val)) + (if up != s.dev.on (R.TIM.ENC_CTL.INV e.val) then 1 else -1)) ∧
      Frame [R.TIM.ENC_SP.SP e.val] { s.dev with tim := t.dev.tim } s t)) ∧
  (∀ (e : Fin 2) (m : EncMove) (stable : Nat) (s : State), m ≠ .illegal → stable < 4 * s.dev.get (R.TIM.ENC_CTL.FILT e.val) →
    Completes (.encoderEdge e ⟨m, stable⟩) s (fun t => t = s.after s.dev)) ∧
  (∀ (e : Fin 2) (m : EncMove) (stable : Nat) (s : State), m ≠ .illegal → s.dev.spRuns = true →
    (s.dev.reads (37 + 3 * e.val) || s.dev.reads (38 + 3 * e.val)) = true →
    4 * s.dev.get (R.TIM.ENC_CTL.FILT e.val) ≤ stable → s.dev.edgeClose e.val = true →
    Completes (.encoderEdge e ⟨m, stable⟩) s (fun t =>
      t.dev.get (R.TIM.ENC_SP.SP e.val) = spWord (sgn 48 (s.dev.get (R.TIM.ENC_SP.SP e.val)) + sgn 48 (s.dev.fresh % 2 ^ 48)) ∧
      t.dev.free = s.dev.free + 1 ∧ Frame [R.TIM.ENC_SP.SP e.val] { s.dev with tim := t.dev.tim, free := t.dev.free } s t)) ∧
  (∀ (e : Fin 2) (stable : Nat) (s : State), s.dev.spRuns = true → s.dev.reads (37 + 3 * e.val) = true → s.dev.reads (38 + 3 * e.val) = true →
    Completes (.encoderEdge e ⟨.illegal, stable⟩) s (fun t =>
      Raised (R.TIM.ENC_STATUS.SEQ e.val) [R.TIM.ENC_STATUS.ILLEGAL e.val] s.dev t.dev ∧
      Frame [R.TIM.ENC_STATUS.SEQ e.val, R.TIM.ENC_STATUS.ILLEGAL e.val] s.dev s t)) ∧
  (∀ (e : Fin 2) (s : State), s.dev.spRuns = true → s.dev.reads (39 + 3 * e.val) = true →
    Completes (.encoderIndex e) s (fun t =>
      Raised (R.TIM.ENC_STATUS.SEQ e.val) [R.TIM.ENC_STATUS.Z_SEEN e.val] s.dev t.dev ∧
      (s.dev.get (R.TIM.ENC_CTL.Z_MODE e.val) ≠ 0 → t.dev.get (R.TIM.ENC_ZCAP.SP e.val) = s.dev.get (R.TIM.ENC_SP.SP e.val) % 2 ^ 64) ∧
      (s.dev.get (R.TIM.ENC_CTL.Z_MODE e.val) = 3 ∨ s.dev.get (R.TIM.ENC_CTL.Z_MODE e.val) = 2 ∧ flag s.dev.tim.zLoaded e.val = false → t.dev.get (R.TIM.ENC_SP.SP e.val) = spWord (sgn 48 (s.dev.get (R.TIM.ENC_PRESET.VALUE e.val)))) ∧
      Frame [R.TIM.ENC_STATUS.SEQ e.val, R.TIM.ENC_STATUS.Z_SEEN e.val, R.TIM.ENC_ZCAP.SP e.val, R.TIM.ENC_SP.SP e.val]
        { s.dev with tim := t.dev.tim } s t))

/-- COMPARE_FIRE of an enabled unit while PLL_TIME runs: from the device that has reached its time and raised FIRED, its
action runs and then the unit moves on; a one-shot unit is then off, and a periodic one has a time later than DT.
CMP_TIME_WRITE in one 8-byte write or of one word sets the time, or its half, and re-arms the unit exactly when it
is enabled and the time is not later than DT. EVENT_CAPTURE of a chosen edge that passes the filter enters the FIFO
with DT and both positions, or sets OVF when 16 are waiting; one that does not pass it changes nothing. POP moves
the oldest capture to the visible registers, or shows that none is valid. -/
def Obligations.CompareUnitsAndCaptures : Prop :=
  (∀ (n : Fin 16) (s : State), s.dev.on (R.TIM.CMP_CTL.EN n.val) = true → s.dev.pllTime = true →
    Completes (.compareFire n) s (fun t => ∃ d e : Dev,
      d = reach (s.dev.get (R.TIM.CMP_TIME.T n.val)) { s.dev with tim := { s.dev.tim with cmpArmed := setFlag n.val false s.dev.tim.cmpArmed } } ∧
      Raised (R.TIM.CMP_STATUS.SEQ n.val) [R.TIM.CMP_STATUS.FIRED n.val] d e ∧
      Leaves [R.TIM.CMP_STATUS.SEQ n.val, R.TIM.CMP_STATUS.FIRED n.val, R.TIM.CMP_STATUS.LATE n.val] d e ∧
      t = s.after (cmpNext n.val (cmpAction n.val e)))) ∧
  (∀ (n : Fin 16) (d : Dev), d.get (R.TIM.CMP_PERIOD.P n.val) = 0 → (cmpNext n.val d).on (R.TIM.CMP_CTL.EN n.val) = false) ∧
  (∀ (n : Fin 16) (d : Dev), d.get (R.TIM.CMP_PERIOD.P n.val) ≠ 0 → d.get (R.TIM.CMP_PERIOD.P n.val) < 2 ^ 62 →
    dtGe d.dt ((d.get (R.TIM.CMP_TIME.T n.val) + max (1000 * 65536) (d.get (R.TIM.CMP_PERIOD.P n.val))) % 2 ^ 64) = true →
    0 < dtDiff ((cmpNext n.val d).get (R.TIM.CMP_TIME.T n.val)) d.dt) ∧
  (∀ (n : Fin 16) (half : Option (Fin 2)) (v : BitVec 64) (s : State),
    Completes (.cmpTimeWrite n half v) s (fun t =>
      t.dev.get (R.TIM.CMP_TIME.T n.val) =
        (match half with
          | none => v.toNat
          | some 0 => s.dev.get (R.TIM.CMP_TIME.T n.val) / 2 ^ 32 % 2 ^ 32 * 2 ^ 32 + v.toNat % 2 ^ 32
          | some _ => s.dev.get (R.TIM.CMP_TIME.T n.val) % 2 ^ 32 + v.toNat % 2 ^ 32 * 2 ^ 32) ∧
      flag t.dev.tim.cmpArmed n.val = (s.dev.on (R.TIM.CMP_CTL.EN n.val) && dtGe s.dev.dt (t.dev.get (R.TIM.CMP_TIME.T n.val))) ∧
      Frame [R.TIM.CMP_TIME.T n.val] { s.dev with tim := t.dev.tim } s t)) ∧
  (∀ (i : Fin 8) (rising : Bool) (stable : Nat) (s : State), stable < 4 * s.dev.get (R.TIM.EVT_CTL.FILT i.val) →
    Completes (.eventCapture i ⟨rising, stable⟩) s (fun t => t = s.after s.dev)) ∧
  (∀ (i : Fin 8) (rising : Bool) (stable : Nat) (s : State), s.dev.edgeActive i.val rising = true → s.dev.reads (28 + i.val) = true →
    s.dev.spRuns = true → 4 * s.dev.get (R.TIM.EVT_CTL.FILT i.val) ≤ stable →
    Completes (.eventCapture i ⟨rising, stable⟩) s (fun t =>
      if (KMap.get (fun _ => []) s.dev.tim.evt i.val).length < 16 then
        KMap.get (fun _ => []) t.dev.tim.evt i.val = KMap.get (fun _ => []) s.dev.tim.evt i.val ++
          [{ rising, dt := s.dev.dt, sp0 := s.dev.get (R.TIM.ENC_SP.SP 0), sp1 := s.dev.get (R.TIM.ENC_SP.SP 1) }] ∧
        Frame [R.TIM.EVT_STATUS.LEVEL i.val] { s.dev with tim := t.dev.tim } s t
      else
        t.dev.tim.evt = s.dev.tim.evt ∧ Raised (R.TIM.EVT_STATUS.SEQ i.val) [R.TIM.EVT_STATUS.OVF i.val] s.dev t.dev)) ∧
  (∀ (i : Fin 8) (s : State) (c : Capture) (rest : List Capture), KMap.get (fun _ => []) s.dev.tim.evt i.val = c :: rest →
    Completes (.pop i) s (fun t =>
      t.dev.get (R.TIM.EVT_DT.DT i.val) = c.dt % 2 ^ 64 ∧ t.dev.get (R.TIM.EVT_SP0.SP i.val) = c.sp0 % 2 ^ 64 ∧
      t.dev.get (R.TIM.EVT_SP1.SP i.val) = c.sp1 % 2 ^ 64 ∧ t.dev.get (R.TIM.EVT_STATUS.EDGE i.val) = b2n c.rising ∧
      t.dev.on (R.TIM.EVT_STATUS.VALID i.val) = true ∧ KMap.get (fun _ => []) t.dev.tim.evt i.val = rest)) ∧
  (∀ (i : Fin 8) (s : State), KMap.get (fun _ => []) s.dev.tim.evt i.val = [] →
    Completes (.pop i) s (fun t => t.dev.on (R.TIM.EVT_STATUS.VALID i.val) = false ∧ Frame [R.TIM.EVT_STATUS.VALID i.val] s.dev s t))

/-- While EN is 1 and the host has enabled PTM, PTM_NOW, and PTM_DIALOGUE from PERIOD_MS after the last periodic
dialogue, send a request and hold its DT; without PTM of the host UNAVAIL is set; with EN 0 nothing happens. A
PERIOD_MS of 0 or above 1,000 stops PTM_DIALOGUE as a host error. PTM_RESPONSE to a request outstanding shows its
DT, the master time less the delay, and the delay, with a new event. PTM_TIMEOUT ends a request with TIMEOUT, from
100 µs after it. SYNC and ANNOUNCE make their message due on a running segment with PTP on, and PDELAY_REQ on one
that receives is answered: its answer is owed with its identity and sequence number. -/
def Obligations.HostAndSegmentTimes : Prop :=
  (∀ s : State, s.dev.on R.TIM.PTM_CTL.EN = false → Completes .ptmNow s (fun t => t = s.after s.dev)) ∧
  (∀ s : State, s.dev.on R.TIM.PTM_CTL.EN = true → s.dev.tim.ptmOn = true →
    Completes .ptmNow s (fun t =>
      t.dev.tim.ptmAt = some s.dev.dt ∧ t.dev.out = .ptmRequest s.dev.dt :: s.dev.out ∧
      Frame [] { s.dev with out := t.dev.out, tim := { s.dev.tim with ptmAt := some s.dev.dt } } s t)) ∧
  (∀ s : State, s.dev.on R.TIM.PTM_CTL.EN = true → s.dev.tim.ptmOn = false →
    Completes .ptmNow s (fun t => Raised R.TIM.PTM_STATUS.SEQ [R.TIM.PTM_STATUS.UNAVAIL] s.dev t.dev ∧
      Frame [R.TIM.PTM_STATUS.SEQ, R.TIM.PTM_STATUS.UNAVAIL] s.dev s t)) ∧
  (∀ (s : State) (d : Dev), s.dev.on R.TIM.PTM_CTL.EN = true → 0 < s.dev.get R.TIM.PTM_CTL.PERIOD_MS → s.dev.get R.TIM.PTM_CTL.PERIOD_MS ≤ 1000 →
    d = reachNs s.dev.tim.ptmFrom (1000000 * s.dev.get R.TIM.PTM_CTL.PERIOD_MS : Nat) s.dev → d.tim.ptmOn = true →
    Completes .ptmDialogue s (fun t => t.dev.tim.ptmAt = some d.dt ∧ t.dev.out = .ptmRequest d.dt :: d.out ∧
      Frame [] { d with out := t.dev.out, tim := { d.tim with ptmAt := some d.dt, ptmFrom := d.dt } } s t)) ∧
  (∀ s : State, s.dev.on R.TIM.PTM_CTL.EN = true → s.dev.get R.TIM.PTM_CTL.PERIOD_MS = 0 ∨ 1000 < s.dev.get R.TIM.PTM_CTL.PERIOD_MS →
    ∃ w, exec .ptmDialogue s = .fault (.hostError w)) ∧
  (∀ s : State, s.dev.on R.TIM.PTM_CTL.EN = false → Completes .ptmDialogue s (fun t => t = s.after s.dev)) ∧
  (∀ (master : BitVec 64) (delay : BitVec 32) (x : Nat) (s : State), s.dev.tim.ptmAt = some x →
    Completes (.ptmResponse master delay) s (fun t =>
      t.dev.tim.ptmAt = none ∧ t.dev.get R.TIM.PTM_DT.DT = x % 2 ^ 64 ∧ t.dev.get R.TIM.PTM_DELAY.NS = delay.toNat ∧
      t.dev.get R.TIM.PTM_HT.HT = unsgn 64 ((master.toNat : Int) - delay.toNat) ∧
      Raised R.TIM.PTM_STATUS.SEQ [R.TIM.PTM_STATUS.NEW] s.dev t.dev ∧
      Frame [R.TIM.PTM_DT.DT, R.TIM.PTM_HT.HT, R.TIM.PTM_DELAY.NS, R.TIM.PTM_STATUS.SEQ, R.TIM.PTM_STATUS.NEW]
        { s.dev with tim := { s.dev.tim with ptmAt := none } } s t)) ∧
  (∀ (x : Nat) (s : State), s.dev.tim.ptmAt = some x →
    Completes .ptmTimeout s (fun t =>
      t.dev.tim.ptmAt = none ∧ Raised R.TIM.PTM_STATUS.SEQ [R.TIM.PTM_STATUS.TIMEOUT] (reachNs x 100000 s.dev) t.dev)) ∧
  (∀ (k : Fin 8) (s : State), s.dev.ptpOn k.val = true →
    Completes (.sync k) s (fun t => (t.dev.segS k.val).syncDue = true ∧ (t.dev.segS k.val).syncAt = some t.dev.dt)) ∧
  (∀ (k : Fin 8) (s : State), s.dev.ptpOn k.val = true →
    Completes (.announce k) s (fun t => (t.dev.segS k.val).annDue = true ∧ (t.dev.segS k.val).annAt = some t.dev.dt)) ∧
  (∀ (k : Fin 8) (ident : BitVec 80) (q : BitVec 16) (s : State), (s.dev.segUp k.val && s.dev.on (R.TIM.SEG_CTL.EN k.val)) = true →
    Completes (.pdelayReq k ident q) s (fun t =>
      (∃ x : PdReq, x.ident = ident.toNat ∧ x.seqId = q.toNat ∧ (t.dev.segS k.val).resp = (s.dev.segS k.val).resp ++ [x]) ∧
      t.dev.free = s.dev.free + 1 ∧ Frame [] { s.dev with vrd := t.dev.vrd, free := t.dev.free } s t))

/-- For every sequence of payload bits: descrambling with the transmitter's own history gives the bits back from the
first one, and a descrambler that starts from any other history gives them back from the 59th received payload bit
on (the self-synchronous scrambler x^58 + x^39 + 1 of R95). -/
def Obligations.ScramblerSynchronises : Prop :=
  (∀ (h : Nat) (xs : List Bool), descramble h (scramble h xs) = xs) ∧
  (∀ (h g : Nat) (xs : List Bool), (descramble g (scramble h xs)).drop 58 = xs.drop 58) ∧
  (∀ (h : Nat) (x : Bool), scrambleBit h x = ((x ^^ bit h 38) ^^ bit h 57))

/-- SIGNAL_DETECT moves a lane in WAIT to CDR at the present DT. CDR_LOCK moves it to BLOCK with the adapted or the
fixed CTLE code. 64 received blocks with valid headers in a row give a lane that seeks block lock the lock, and
BLOCK_LOCK then shows the DFE taps, but on an UP lane; 16 blocks with invalid headers in a fresh window lose it,
with LOCK_LOST and each counted in ERR_HDR. A first marker on a lane with block lock is remembered with its LANE and
COUNT, which ALIGN shows; a second one, behind exactly 16,383 other blocks, with the same LANE and the next COUNT
gives alignment lock where no other lane of the port carries that LANE. Of markers that do not arrive, the fourth in
a row loses alignment lock with ALIGN_LOST. A lane whose state outlasts its limit counts a failure and returns to
WAIT, unless it is aligned already. Under a near-end loopback the blocks that count are the lane's own; those
statements are for a lane without one. -/
def Obligations.LanesComeUp : Prop :=
  (∀ (l : Fin 48) (s : State), (s.dev.laneS l.val).phase = 1 →
    Completes (.signalDetect l) s (fun t =>
      (t.dev.laneS l.val).phase = 2 ∧ (t.dev.laneS l.val).signal = true ∧ (t.dev.laneS l.val).signalAt = s.dev.dt ∧
      (s.dev.get (R.LNE.STATUS.STATE l.val) = 1 → t.dev.get (R.LNE.STATUS.STATE l.val) = 2) ∧
      Frame [R.LNE.STATUS.STATE l.val] { s.dev with lane := t.dev.lane, port := t.dev.port } s t)) ∧
  (∀ (l : Fin 48) (ctle : BitVec 4) (s : State), (s.dev.laneS l.val).phase = 2 →
    Completes (.cdrLock l ctle) s (fun t =>
      (t.dev.laneS l.val).phase = 3 ∧ (t.dev.laneS l.val).run = 0 ∧
      t.dev.get (R.LNE.EQ_CTLE.CODE l.val) = (if s.dev.on (R.LNE.CTL.CTLE_FIX l.val) then s.dev.get (R.LNE.CTL.CTLE_CODE l.val) % 16 else ctle.toNat) ∧
      Frame [R.LNE.STATUS.STATE l.val, R.LNE.EQ_CTLE.CODE l.val] { s.dev with lane := t.dev.lane } s t)) ∧
  (∀ (l : Fin 60) (blks : List Blk) (dfe : BitVec 30) (s : State), blks.length = 64 → (∀ b ∈ blks, b.hdr = 1#2 ∨ b.hdr = 2#2) →
    (s.dev.laneS l.val).blockLock = false → (s.dev.laneS l.val).run = 0 → s.dev.seeksLock l.val = true → s.dev.looped l.val = false →
    Completes (.blockLock l blks dfe) s (fun t =>
      (t.dev.laneS l.val).blockLock = true ∧
      (s.dev.get (R.LNE.STATUS.STATE l.val) ≠ 6 → t.dev.get (R.LNE.EQ_DFE.TAPS l.val) = dfe.toNat) ∧
      (s.dev.get (R.LNE.STATUS.STATE l.val) = 6 → t.dev.get (R.LNE.EQ_DFE.TAPS l.val) = s.dev.get (R.LNE.EQ_DFE.TAPS l.val)))) ∧
  (∀ (l : Fin 60) (blks : List Blk) (s : State), blks.length = 16 → (∀ b ∈ blks, b.hdr ≠ 1#2 ∧ b.hdr ≠ 2#2) →
    (s.dev.laneS l.val).blockLock = true → (s.dev.laneS l.val).window = [] → s.dev.looped l.val = false →
    (s.dev.laneS l.val).lastAm = none ∨ (s.dev.laneS l.val).rxAt + 16 ≤ 16383 →
    Completes (.blockLockLoss l blks) s (fun t =>
      (t.dev.laneS l.val).blockLock = false ∧ (t.dev.laneS l.val).amLock = false ∧
      Raised (R.LNE.STATUS.SEQ l.val) [R.LNE.STATUS.LOCK_LOST l.val] s.dev t.dev ∧ Counted (R.LNE.ERR_HDR.COUNT l.val) 16 s.dev t.dev)) ∧
  (∀ (l : Fin 60) (b : Blk) (slotNo lane count bip : Nat) (s : State),
    (s.dev.laneS l.val).blockLock = true → (s.dev.laneS l.val).amLock = false → (s.dev.laneS l.val).lastAm = none →
    ((s.dev.laneS l.val).window.filter (fun x => !x)).length < 16 → s.dev.looped l.val = false →
    markerOf (polarity (s.dev.on (R.LNE.CTL.RX_INV l.val)) b) = some (lane, count, bip) →
    Completes (.alignmentMarker l b [] slotNo) s (fun t =>
      (t.dev.laneS l.val).lastAm = some (count, lane) ∧ (t.dev.laneS l.val).amLock = false ∧
      t.dev.get (R.LNE.ALIGN.LOGICAL l.val) = lane ∧ t.dev.get (R.LNE.ALIGN.AM_COUNT l.val) = count)) ∧
  (∀ (l : Fin 60) (b : Blk) (rx : List Blk) (slotNo lane count bip : Nat) (s : State),
    (s.dev.laneS l.val).blockLock = true → (s.dev.laneS l.val).amLock = false → (s.dev.laneS l.val).rxAt = 0 → rx.length = 16383 →
    (∀ x ∈ rx, (x.hdr = 1#2 ∨ x.hdr = 2#2) ∧ markerOf (polarity (s.dev.on (R.LNE.CTL.RX_INV l.val)) x) = none) →
    ((s.dev.laneS l.val).window.filter (fun x => !x)).length < 16 → s.dev.looped l.val = false →
    (s.dev.laneS l.val).lastAm = some (count, lane) →
    markerOf (polarity (s.dev.on (R.LNE.CTL.RX_INV l.val)) b) = some (lane, (count + 1) % 65536, bip) →
    (48 ≤ l.val ∨ s.dev.sameLogical l.val lane = []) →
    Completes (.alignmentMarker l b rx slotNo) s (fun t =>
      (t.dev.laneS l.val).amLock = true ∧ (t.dev.laneS l.val).lastAm = some ((count + 1) % 65536, lane))) ∧
  (∀ (l : Fin 60) (n : Nat) (s : State), (s.dev.laneS l.val).amLock = true → (s.dev.laneS l.val).missed < 4 →
    Completes (.alignmentLockLoss l n) s (fun t =>
      (4 ≤ (s.dev.laneS l.val).missed + n → (t.dev.laneS l.val).amLock = false ∧ t.dev.on (R.LNE.STATUS.ALIGN_LOST l.val) = true) ∧
      ((s.dev.laneS l.val).missed + n < 4 →
        (t.dev.laneS l.val).amLock = true ∧ (t.dev.laneS l.val).missed = (s.dev.laneS l.val).missed + n))) ∧
  (∀ (l : Fin 48) (n : Nat) (s : State) (e : Dev), stateLimit (s.dev.laneS l.val).phase = some n → (s.dev.laneS l.val).aligned = false →
    e = reachNs (s.dev.laneS l.val).signalAt n s.dev →
    Completes (.laneStateTimeout l) s (fun t =>
      (t.dev.laneS l.val).fails = (s.dev.laneS l.val).fails + 1 ∧
      (t.dev.laneS l.val).phase = (if e.on (R.LNE.CTL.EN l.val) && e.get (R.LNE.STATUS.STATE l.val) != 8 then 1 else 0) ∧
      (t.dev.laneS l.val).signal = false)) ∧
  (∀ (l : Fin 48) (s : State), (s.dev.laneS l.val).aligned = true → Completes (.laneStateTimeout l) s (fun t => t = s.after s.dev))

/-- A TRAIN block that reflects the request outstanding makes the lane measure the setting, or, after the final request,
records the agreed setting and moves to ALIGN. EYE_MARGIN shows the margin; while a grid setting is measured it asks
for the next one, and it asks for the final one when the starting setting meets the target or the grid ends.
TRAIN_REQ_TIMEOUT repeats the request once, then counts a failure. LINK_CFG with the rate of the port's enabled
lanes, LANES and FIR_START is sent by a port in LINKING that sees no signal. LANE_ALIGN_DEADLINE brings a port in
LINKING with an aligned lane to LOCKING. -/
def Obligations.LanesTrain : Prop :=
  (∀ (l : Fin 48) (b : Blk) (x : Nat × Nat) (s : State), (s.dev.laneS l.val).phase = 4 → (s.dev.laneS l.val).train.asked = some x →
    b.hdr = 2#2 → bits b.body.toNat 0 8 = 0x55 → bits b.body.toNat 8 8 = x.1 →
    Completes (.train l b) s (fun t =>
      (t.dev.laneS l.val).train.asked = none ∧
      (if (s.dev.laneS l.val).train.next = 22 then
        (t.dev.laneS l.val).phase = 5 ∧
        (t.dev.laneS l.val).agreed = some (bits b.body.toNat 16 8, bits b.body.toNat 24 8, bits b.body.toNat 32 8)
      else (t.dev.laneS l.val).train.measuring = true ∧ Frame [] { s.dev with lane := t.dev.lane } s t))) ∧
  (∀ (l : Fin 48) (m : BitVec 6) (s : State), Completes (.eyeMargin l m) s (fun t =>
    t.dev.get (R.LNE.EYE.MARGIN l.val) = m.toNat ∧
    ((s.dev.laneS l.val).phase = 4 → (s.dev.laneS l.val).train.measuring = true → (s.dev.laneS l.val).train.next < 22 →
      (t.dev.laneS l.val).train.next =
        (if ((s.dev.laneS l.val).train.next == 0 && decide (s.dev.get (R.LNE.DEG_CTL.EYE_TGT l.val) ≤ m.toNat)) || (s.dev.laneS l.val).train.next == 21
          then 22 else (s.dev.laneS l.val).train.next + 1) ∧
      (t.dev.laneS l.val).train.asked = some ((s.dev.portS (portOf l.val)).mseq, s.dev.dt)) ∧
    Frame [R.LNE.EYE.MARGIN l.val] { s.dev with lane := t.dev.lane, port := t.dev.port, out := t.dev.out, free := t.dev.free } s t)) ∧
  (∀ (l : Fin 48) (x : Nat × Nat) (s : State), (s.dev.laneS l.val).train.asked = some x →
    Completes (.trainReqTimeout l) s (fun t =>
      if (s.dev.laneS l.val).train.repeated then
        (t.dev.laneS l.val).fails = (s.dev.laneS l.val).fails + 1 ∧ (t.dev.laneS l.val).signal = false
      else (t.dev.laneS l.val).train.repeated = true ∧ (t.dev.laneS l.val).train.asked.isSome = true)) ∧
  (∀ (p : Fin 12) (rate : Nat) (s : State), s.dev.get (R.EKL.STATUS.STATE p.val) = 1 →
    (lanesOf p.val).all (fun l => !(s.dev.laneS l).signal) = true → s.dev.downlinkUp p.val = true →
    (∃ l ∈ lanesOf p.val, s.dev.on (R.LNE.CTL.EN l) = true) →
    (∀ l ∈ lanesOf p.val, s.dev.on (R.LNE.CTL.EN l) = true → s.dev.get (R.LNE.CTL.RATE l) = rate) →
    Completes (.linkCfg p) s (fun t =>
      t.dev.out = .downlink p.val (message 6 (s.dev.portS p.val).mseq
        [BitVec.ofNat 8 rate, BitVec.ofNat 8 (s.dev.get (R.EKL.CTL.LANES p.val)), BitVec.ofNat 8 (b2n (s.dev.portS p.val).linkedOnce)]) :: s.dev.out ∧
      Frame [] { s.dev with port := t.dev.port, out := t.dev.out, lane := t.dev.lane, free := t.dev.free } s t)) ∧
  (∀ (p : Fin 12) (x : Nat) (s : State), (s.dev.portS p.val).signalAt = some x → s.dev.get (R.EKL.STATUS.STATE p.val) = 1 →
    (s.dev.named p.val).any (fun k => (s.dev.laneS k).aligned) = true →
    Completes (.laneAlignDeadline p) s (fun t =>
      t = s.after (linkUp p.val (reachNs x 25000000 s.dev)) ∧ t.dev.get (R.EKL.STATUS.STATE p.val) = 2))

/-- LANE_LOSS starts the confirmation wait of an UP lane, and the end of the last cause ends it. REMOVE, RETRAIN, and
LANE_LOSS_CONFIRM for every lane of the port whose loss is confirmed in that clock, take an UP uplink lane out of
service: where another lane of the port stays UP or the port is not linked, it shows REMOVED, flagged; on the last
UP lane of a linked port the port goes down with cause 1. RETRAIN returns an uplink lane to WAIT: its receiver looks
for signal and block lock anew; a downlink lane without a test shows UP or OFF by its quad PLL. RESTORE_ELIGIBLE
marks a removed lane, or restores it when AUTO is set and it was not removed by command; RESTORE puts an eligible
one back to UP, and on a linked port its mask is due at the next block boundary. RATE_WRITE sets RATE and returns an
uplink lane to WAIT, and is a host error where the quad then mixes the rate families. The quad PLL lock follows
QUAD_PLL_LOCK and QUAD_PLL_UNLOCK; the unlock is flagged on each enabled lane, and a lock brings the enabled
downlinks without a test UP. -/
def Obligations.LanesLeaveAndReturn : Prop :=
  (∀ (l : Fin 48) (c : Fin 5) (s : State), s.dev.get (R.LNE.STATUS.STATE l.val) = 6 →
    Completes (.laneLoss l c false) s (fun t =>
      (t.dev.laneS l.val).loss = some ((s.dev.laneS l.val).loss.getD s.dev.dt) ∧ bit (t.dev.laneS l.val).lossCause c.val = true ∧
      Frame [] { s.dev with lane := t.dev.lane } s t)) ∧
  (∀ (l : Fin 48) (c : Fin 5) (x : Nat) (s : State), (s.dev.laneS l.val).loss = some x → (s.dev.laneS l.val).lossCause = 2 ^ c.val →
    Completes (.laneLoss l c true) s (fun t =>
      (t.dev.laneS l.val).loss = none ∧ (t.dev.laneS l.val).lossCause = 0 ∧ Frame [] { s.dev with lane := t.dev.lane } s t)) ∧
  (∀ (l : Fin 48) (c : Bool) (d : Dev),
    (∃ k ∈ lanesOf (portOf l.val), k ≠ l.val ∧ d.get (R.LNE.STATUS.STATE k) = 6 ∧ (d.laneS k).restoring = false) ∨
      d.get (R.EKL.STATUS.STATE (portOf l.val)) < 2 ∨ 4 < d.get (R.EKL.STATUS.STATE (portOf l.val)) →
    (removeLane l.val c d).get (R.LNE.STATUS.STATE l.val) = 7 ∧ (removeLane l.val c d).on (R.LNE.STATUS.REMOVED l.val) = true ∧
    ((removeLane l.val c d).laneS l.val).commanded = c) ∧
  (∀ (l : Fin 48) (c : Bool) (d : Dev), d.linked (portOf l.val) = true →
    (∀ k ∈ lanesOf (portOf l.val), k ≠ l.val → d.get (R.LNE.STATUS.STATE k) ≠ 6) →
    (removeLane l.val c d).get (R.EKL.DOWN_CAUSE.CAUSE (portOf l.val)) = 1 ∧
    (removeLane l.val c d).on (R.EKL.STATUS.DOWN (portOf l.val)) = true) ∧
  (∀ (l k : Fin 48) (x : Nat) (e : Dev) (s : State), (s.dev.laneS l.val).loss = some x → s.dev.get (R.LNE.STATUS.STATE l.val) = 6 →
    e = reachNs x (1000 * s.dev.get (R.LNE.DEG_CTL.CONFIRM_US l.val)) s.dev → k.val ∈ e.lostNow (portOf l.val) →
    (∃ j ∈ lanesOf (portOf l.val), j ∉ e.lostNow (portOf l.val) ∧ e.get (R.LNE.STATUS.STATE j) = 6 ∧ (e.laneS j).restoring = false) ∨
      e.linked (portOf l.val) = false →
    Completes (.laneLossConfirm l) s (fun t =>
      t.dev.get (R.LNE.STATUS.STATE k.val) = 7 ∧ t.dev.on (R.LNE.STATUS.REMOVED k.val) = true ∧ (t.dev.laneS k.val).commanded = false)) ∧
  (∀ (l : Fin 60) (s : State), l.val < 48 → s.dev.get (R.LNE.STATUS.STATE l.val) = 6 →
    Completes (.remove l) s (fun t => t = s.after (removeLane l.val true s.dev))) ∧
  (∀ (l : Fin 60) (s : State), l.val < 48 →
    Completes (.retrain l) s (fun t =>
      (t.dev.laneS l.val).signal = false ∧ (t.dev.laneS l.val).blockLock = false ∧ (t.dev.laneS l.val).amLock = false ∧
      (s.dev.get (R.LNE.STATUS.STATE l.val) = 6 → t = s.after (removeLane l.val true s.dev)) ∧
      (s.dev.get (R.LNE.STATUS.STATE l.val) < 6 → s.dev.on (R.LNE.CTL.EN l.val) = true →
        (t.dev.laneS l.val).phase = 1 ∧ t.dev.get (R.LNE.STATUS.STATE l.val) = 1))) ∧
  (∀ (l : Fin 60) (s : State), 48 ≤ l.val → s.dev.on (R.LNE.CTL.EN l.val) = true → s.dev.underTest l.val = false →
    Completes (.retrain l) s (fun t =>
      t.dev.get (R.LNE.STATUS.STATE l.val) = (if flag s.dev.quadLock (l.val / 4) then 6 else 0))) ∧
  (∀ (l : Fin 48) (s : State), s.dev.get (R.LNE.STATUS.STATE l.val) = 7 → (s.dev.laneS l.val).eligible = true →
    Completes (.restore l) s (fun t =>
      t.dev.get (R.LNE.STATUS.STATE l.val) = 6 ∧ (t.dev.laneS l.val).eligible = false ∧
      (s.dev.linked (portOf l.val) = true → (t.dev.portS (portOf l.val)).maskDue = true) ∧
      Raised (R.LNE.STATUS.SEQ l.val) [R.LNE.STATUS.RESTORED l.val] s.dev t.dev)) ∧
  (∀ (l : Fin 48) (x : Nat) (s : State), s.dev.get (R.LNE.STATUS.STATE l.val) = 7 → (s.dev.laneS l.val).amLock = true →
    (s.dev.laneS l.val).cleanSince = some x → s.dev.tim.coming = [] →
    Completes (.restoreEligible l) s (fun t =>
      if s.dev.on (R.LNE.DEG_CTL.AUTO l.val) && !(s.dev.laneS l.val).commanded then t.dev.get (R.LNE.STATUS.STATE l.val) = 6
      else (t.dev.laneS l.val).eligible = true ∧ t.dev.get (R.LNE.STATUS.STATE l.val) = 7)) ∧
  (∀ (l : Fin 60) (rate : BitVec 2) (s : State), (put (R.LNE.CTL.RATE l.val) rate.toNat s.dev).mixedQuad l.val = false →
    Completes (.rateWrite l rate) s (fun t =>
      t.dev.get (R.LNE.CTL.RATE l.val) = rate.toNat ∧
      (l.val < 48 → (t.dev.laneS l.val).signal = false ∧ (t.dev.laneS l.val).blockLock = false ∧ (t.dev.laneS l.val).amLock = false))) ∧
  (∀ (l : Fin 60) (rate : BitVec 2) (s : State), (put (R.LNE.CTL.RATE l.val) rate.toNat s.dev).mixedQuad l.val = true →
    ∃ w, exec (.rateWrite l rate) s = .fault (.hostError w)) ∧
  (∀ (q : Fin 15) (s : State), Completes (.quadPllUnlock q) s (fun t => flag t.dev.quadLock q.val = false ∧
    ∀ i : Fin 4, s.dev.on (R.LNE.CTL.EN (4 * q.val + i.val)) = true → t.dev.on (R.LNE.STATUS.PLL_UNLOCK (4 * q.val + i.val)) = true)) ∧
  (∀ (q : Fin 15) (s : State), 12 ≤ q.val → Completes (.quadPllLock q) s (fun t => flag t.dev.quadLock q.val = true ∧
    ∀ i : Fin 4, s.dev.on (R.LNE.CTL.EN (4 * q.val + i.val)) = true → s.dev.underTest (4 * q.val + i.val) = false →
      t.dev.get (R.LNE.STATUS.STATE (4 * q.val + i.val)) = 6)) ∧
  (∀ (q : Fin 15) (s : State), q.val < 12 → (∀ i : Fin 4, s.dev.get (R.LNE.STATUS.STATE (4 * q.val + i.val)) ≠ 6) →
    Completes (.quadPllLock q) s (fun t => flag t.dev.quadLock q.val = true))

/-- EQ_STEP on an adapting lane, 10 µs after its last step, moves the CTLE code by one within 0 to 15 unless it is
fixed, or one DFE tap by one within -16 to 15; while FREEZE is set or in STANDBY it changes nothing. INJ_ONCE
injects the selected kind, and so does INJECTION_INTERVAL behind the INTERVAL blocks that a transmitting lane sends
meanwhile; with kind 0, or interval 0, nothing is injected. 64 received bits in the pattern that PMA_CHK selects
lock the PMA checker; 32 bits against the pattern in a fresh window lose the lock with LOCK_LOST, every bit and
error counted. A lane with inverted polarity checks the inverted bits; under a near-end loopback the bits are the
lane's own, and those statements are for a lane without one. -/
def Obligations.LanesAdaptAndTest : Prop :=
  (∀ (l : Fin 48) (code : Fin 7) (up : Bool) (s : State), s.dev.on (R.LNE.CTL.FREEZE l.val) = true ∨ s.dev.get R.PWR.STATUS.STATE = 3 →
    Completes (.eqStep l code up) s (fun t => t = s.after s.dev)) ∧
  (∀ (l : Fin 48) (up : Bool) (s : State) (e : Dev), s.dev.on (R.LNE.CTL.FREEZE l.val) = false → s.dev.get R.PWR.STATUS.STATE ≠ 3 → 5 ≤ (s.dev.laneS l.val).phase →
    e = (match (s.dev.laneS l.val).lastEq with | some x => reachNs x 10000 s.dev | none => s.dev) → e.on (R.LNE.CTL.CTLE_FIX l.val) = false →
    Completes (.eqStep l 0 up) s (fun t =>
      t.dev.get (R.LNE.EQ_CTLE.CODE l.val) =
        (if up then min 15 (e.get (R.LNE.EQ_CTLE.CODE l.val) + 1) else e.get (R.LNE.EQ_CTLE.CODE l.val) - 1) % 16 ∧
      Frame [R.LNE.EQ_CTLE.CODE l.val] { e with lane := t.dev.lane } s t)) ∧
  (∀ (l : Fin 48) (code : Fin 7) (up : Bool) (s : State) (e : Dev), code.val ≠ 0 → s.dev.on (R.LNE.CTL.FREEZE l.val) = false →
    s.dev.get R.PWR.STATUS.STATE ≠ 3 → 5 ≤ (s.dev.laneS l.val).phase → e = (match (s.dev.laneS l.val).lastEq with | some x => reachNs x 10000 s.dev | none => s.dev) →
    e.get (R.LNE.EQ_DFE.TAPS l.val) < 2 ^ 30 →
    Completes (.eqStep l code up) s (fun t =>
      sgn 5 (bits (t.dev.get (R.LNE.EQ_DFE.TAPS l.val)) (5 * (code.val - 1)) 5) =
        clampI (-16) 15 (sgn 5 (bits (e.get (R.LNE.EQ_DFE.TAPS l.val)) (5 * (code.val - 1)) 5) + (if up then 1 else -1)) ∧
      Frame [R.LNE.EQ_DFE.TAPS l.val] { e with lane := t.dev.lane } s t)) ∧
  (∀ (l : Fin 60) (s : State), Completes (.injOnce l) s (fun t =>
    t.dev.out = (if s.dev.get (R.LNE.INJ.KIND l.val) = 0 then s.dev.out else .downInj l.val (s.dev.get (R.LNE.INJ.KIND l.val)) :: s.dev.out) ∧
    (t.dev.laneS l.val).tx.inj = (if s.dev.get (R.LNE.INJ.KIND l.val) = 0 then [] else [s.dev.get (R.LNE.INJ.KIND l.val)]) ++ (s.dev.laneS l.val).tx.inj ∧
    Frame [] { s.dev with out := t.dev.out, lane := t.dev.lane } s t)) ∧
  (∀ (l : Fin 60) (s : State), s.dev.get (R.LNE.INJ.INTERVAL l.val) = 0 → Completes (.injectionInterval l) s (fun t => t = s.after s.dev)) ∧
  (∀ (l : Fin 60) (s : State), s.dev.get (R.LNE.INJ.INTERVAL l.val) ≠ 0 → s.dev.transmits l.val = false →
    Completes (.injectionInterval l) s (fun t =>
      t.dev.out = (if s.dev.get (R.LNE.INJ.KIND l.val) = 0 then s.dev.out else .downInj l.val (s.dev.get (R.LNE.INJ.KIND l.val)) :: s.dev.out) ∧
      Frame [] { s.dev with out := t.dev.out, lane := t.dev.lane } s t)) ∧
  (∀ (l : Fin 60) (s : State), s.dev.get (R.LNE.INJ.INTERVAL l.val) ≠ 0 → s.dev.transmits l.val = true → s.dev.looped l.val = false →
    Completes (.injectionInterval l) s (fun t =>
      t.dev.out = (if s.dev.get (R.LNE.INJ.KIND l.val) = 0 then s.dev.out else .downInj l.val (s.dev.get (R.LNE.INJ.KIND l.val)) :: s.dev.out) ∧
      (t.dev.laneS l.val).tx.line.length = (s.dev.laneS l.val).tx.line.length + s.dev.get (R.LNE.INJ.INTERVAL l.val) ∧
      Frame [] { s.dev with out := t.dev.out, lane := t.dev.lane, free := t.dev.free } s t)) ∧
  (∀ (l : Fin 60) (rx : List Bool) (s : State),
    rx.map (fun x => x != s.dev.on (R.LNE.CTL.RX_INV l.val)) = (prbsRun (s.dev.get (R.LNE.PAT_CTL.PMA_CHK l.val)) 64 (s.dev.laneS l.val).chkHist).1 →
    s.dev.get (R.LNE.PAT_CTL.PMA_CHK l.val) ≠ 0 → s.dev.looped l.val = false →
    (s.dev.laneS l.val).chkLock = false → (s.dev.laneS l.val).chkRun = 0 →
    Completes (.pmaCheckerLock l rx) s (fun t =>
      (t.dev.laneS l.val).chkLock = true ∧ t.dev.on (R.LNE.PAT_STATUS.LOCK l.val) = true ∧
      Frame [R.LNE.PAT_STATUS.LOCK l.val] { s.dev with lane := t.dev.lane } s t)) ∧
  (∀ (l : Fin 60) (rx : List Bool) (s : State),
    rx.map (fun x => x == s.dev.on (R.LNE.CTL.RX_INV l.val)) = (prbsRun (s.dev.get (R.LNE.PAT_CTL.PMA_CHK l.val)) 32 (s.dev.laneS l.val).chkHist).1 →
    s.dev.get (R.LNE.PAT_CTL.PMA_CHK l.val) ≠ 0 → s.dev.looped l.val = false →
    (s.dev.laneS l.val).chkLock = true → (s.dev.laneS l.val).chkWin = [] →
    Completes (.pmaCheckerLockLoss l rx) s (fun t =>
      (t.dev.laneS l.val).chkLock = false ∧ t.dev.on (R.LNE.PAT_STATUS.LOCK l.val) = false ∧
      Raised (R.LNE.PAT_STATUS.SEQ l.val) [R.LNE.PAT_STATUS.LOCK_LOST l.val] s.dev t.dev ∧
      Counted (R.LNE.PAT_ERR.COUNT l.val) 32 s.dev t.dev ∧ Counted (R.LNE.PAT_BITS.COUNT l.val) 32 s.dev t.dev))

/-- For a row of which the port reads one block, the EOP of the packet under reception, with a right HCRC: where the
counts agree, a METADATA packet is copied with its line number and length; a CAM_STATUS packet is copied, stamped,
takes a LOCKING port with a locked camera to WAIT_BLOCK, and flags a camera fault; a REG_RESP packet completes the
request with its MSEQ; a FILLER packet or one of a reserved type is only counted. A RAWn packet of a plane slot in
RUN whose line is open joins its samples to that line; one of a missing line is counted late and one of a complete
line whose slot had its EOL is counted duplicate, once a line; outside RUN it is counted stray, and without a slot
unmapped. All is counted from the device that has received the row on its lanes; beside what is named only the next
PSEQ and the counts of CRC failures, framing errors and lost packets move. -/
def Obligations.PacketsAreTaken : Prop :=
  (∀ (p : Fin 12) (o : OpenPkt) (e : BitVec 64) (row : List Blk) (d : Dev) (s : State), s.dev.portFine p.val → s.dev.rowCloses d p.val o e row →
    (o.packet (some e)).dtype = 0x20 → (o.packet (some e)).truncated = false →
    Completes (.metadata p [row]) s (fun t =>
      (t.dev.portS p.val).metaBytes = (o.packet (some e)).payload.take 256 ∧
      t.dev.get (R.EKL.META_LINE.LINE p.val) = (o.packet (some e)).line % 2 ^ 32 ∧
      t.dev.get (R.EKL.META_INFO.LENGTH p.val) = (o.packet (some e)).length % 2 ^ (R.EKL.META_INFO.LENGTH p.val).w ∧
      Frame [R.EKL.META_LINE.LINE p.val, R.EKL.META_INFO.LENGTH p.val, R.EKL.STAT.COUNT p.val 7, R.EKL.STAT.COUNT p.val 10]
        { d with port := t.dev.port } s t)) ∧
  (∀ (p : Fin 12) (o : OpenPkt) (e : BitVec 64) (row : List Blk) (d : Dev) (s : State), s.dev.portFine p.val → s.dev.rowCloses d p.val o e row →
    (o.packet (some e)).dtype = 0x21 → (o.packet (some e)).truncated = false →
    Completes (.camStatus p [row]) s (fun t =>
      (t.dev.portS p.val).camstat = (o.packet (some e)).payload.take 32 ∧ (t.dev.portS p.val).lastStat = d.dt ∧
      (d.get (R.EKL.STATUS.STATE p.val) = 2 → bit (fieldAt (o.packet (some e)).payload 3 1) 0 = true →
        t.dev.get (R.EKL.STATUS.STATE p.val) = 3) ∧
      (d.get (R.EKL.STATUS.STATE p.val) ≠ 2 → t.dev.get (R.EKL.STATUS.STATE p.val) = d.get (R.EKL.STATUS.STATE p.val)) ∧
      (fieldAt (o.packet (some e)).payload 2 1 = 3 →
        Raised (R.EKL.STATUS.SEQ p.val) [R.EKL.STATUS.CAM_FAULT p.val] d t.dev) ∧
      Frame [R.EKL.STATUS.STATE p.val, R.EKL.STATUS.SEQ p.val, R.EKL.STATUS.CAM_FAULT p.val, R.EKL.CAM_UNLOCKED.COUNT p.val,
        R.EKL.STAT.COUNT p.val 7, R.EKL.STAT.COUNT p.val 10] { d with port := t.dev.port } s t)) ∧
  (∀ (p : Fin 12) (w : Fin 2) (ms x : Nat) (o : OpenPkt) (e : BitVec 64) (row : List Blk) (d : Dev) (s : State), s.dev.portFine p.val → s.dev.rowCloses d p.val o e row →
    (o.packet (some e)).dtype = 0x22 → (o.packet (some e)).truncated = false → fieldAt (o.packet (some e)).payload 0 1 = ms →
    d.cregS p.val w.val = some (ms, x) → (w.val = 1 → (d.cregS p.val 0).map Prod.fst ≠ some ms) →
    Completes (.regResp p [row]) s (fun t =>
      t.dev.cregS p.val w.val = none ∧ t.dev.get (R.EKL.CREG_STATUS.BUSY p.val w.val) = 0 ∧
      t.dev.get (R.EKL.CREG_DATA.DATA p.val w.val) = fieldAt (o.packet (some e)).payload 8 4 % 2 ^ 32 ∧
      t.dev.get (R.EKL.CREG_STATUS.RESP p.val w.val) =
        fieldAt (o.packet (some e)).payload 1 1 % 2 ^ (R.EKL.CREG_STATUS.RESP p.val w.val).w ∧
      Raised (R.EKL.CREG_STATUS.SEQ p.val w.val) [R.EKL.CREG_STATUS.DONE p.val w.val] d t.dev ∧
      Frame [R.EKL.CREG_STATUS.BUSY p.val w.val, R.EKL.CREG_DATA.DATA p.val w.val, R.EKL.CREG_STATUS.RESP p.val w.val,
        R.EKL.CREG_STATUS.SEQ p.val w.val, R.EKL.CREG_STATUS.DONE p.val w.val, R.EKL.STAT.COUNT p.val 7, R.EKL.STAT.COUNT p.val 10]
        { d with port := t.dev.port } s t)) ∧
  (∀ (p : Fin 12) (o : OpenPkt) (e : BitVec 64) (row : List Blk) (d : Dev) (s : State), s.dev.portFine p.val → s.dev.rowCloses d p.val o e row →
    rawBits (o.packet (some e)).dtype = none → (o.packet (some e)).dtype ∉ [0x20, 0x21, 0x22] →
    Completes (.filler p [row]) s (fun t =>
      (t.dev.portS p.val).pkt = none ∧ (t.dev.portS p.val).pseq = ((o.packet (some e)).pseq + 1) % 256 ∧
      (t.dev.portS p.val).lines = (d.portS p.val).lines ∧ (t.dev.portS p.val).discards = (d.portS p.val).discards + 1 ∧
      Frame [R.EKL.STAT.COUNT p.val 7, R.EKL.STAT.COUNT p.val 9, R.EKL.STAT.COUNT p.val 10] { d with port := t.dev.port } s t)) ∧
  (∀ (p : Fin 12) (n q : Nat) (r : LineRec) (o : OpenPkt) (e : BitVec 64) (row : List Blk) (d : Dev) (s : State), s.dev.portFine p.val → s.dev.rowCloses d p.val o e row →
    rawBits (o.packet (some e)).dtype = some n → d.slotFor p.val (o.packet (some e)) = some q → q < 4 →
    d.get (R.EKL.STATUS.STATE p.val) = 4 → matchLine d p.val (o.packet (some e)) = some r → r.st = .isOpen →
    Completes (.rawPacket p [row]) s (fun t => ∃ r' ∈ (t.dev.portS p.val).lines,
      r'.lsn = r.lsn ∧ r'.e = r.e ∧
      r'.plane q = (joinPlane d p.val q (r.bgOf d p.val q) (o.packet (some e))
        (rawSamples n (o.packet (some e)).payload (min (o.packet (some e)).length (o.packet (some e)).payload.length)) (r.plane q)).1 ∧
      (r'.st = .isOpen → Frame [R.EKL.STAT.COUNT p.val 7, R.EKL.STAT.COUNT p.val 9, R.EKL.STAT.COUNT p.val 10]
        { d with port := t.dev.port } s t))) ∧
  (∀ (p : Fin 12) (n q : Nat) (r : LineRec) (o : OpenPkt) (e : BitVec 64) (row : List Blk) (d : Dev) (s : State), s.dev.portFine p.val → s.dev.rowCloses d p.val o e row →
    rawBits (o.packet (some e)).dtype = some n → d.slotFor p.val (o.packet (some e)) = some q → d.get (R.EKL.STATUS.STATE p.val) = 4 →
    matchLine d p.val (o.packet (some e)) = some r →
    (r.st = .isMissing ∧ r.lateCounted = false) ∨ (r.st = .isComplete ∧ r.eols.contains q = true ∧ r.dupCounted = false) →
    Completes (.rawPacket p [row]) s (fun t =>
      Counted (R.EKL.STAT.COUNT p.val (if r.st = .isMissing then 5 else 4)) 1 d t.dev ∧
      Frame [R.EKL.STAT.COUNT p.val (if r.st = .isMissing then 5 else 4), R.EKL.STAT.COUNT p.val 7, R.EKL.STAT.COUNT p.val 9,
        R.EKL.STAT.COUNT p.val 10] { d with port := t.dev.port } s t)) ∧
  (∀ (p : Fin 12) (n q : Nat) (o : OpenPkt) (e : BitVec 64) (row : List Blk) (d : Dev) (s : State), s.dev.portFine p.val → s.dev.rowCloses d p.val o e row →
    rawBits (o.packet (some e)).dtype = some n → d.slotFor p.val (o.packet (some e)) = some q →
    d.get (R.EKL.STATUS.STATE p.val) ≠ 4 →
    Completes (.rawPacket p [row]) s (fun t =>
      Counted (R.EKL.STAT.COUNT p.val 6) 1 d t.dev ∧ (t.dev.portS p.val).lines = (d.portS p.val).lines ∧
      Frame [R.EKL.STAT.COUNT p.val 6, R.EKL.STAT.COUNT p.val 7, R.EKL.STAT.COUNT p.val 9, R.EKL.STAT.COUNT p.val 10]
        { d with port := t.dev.port } s t)) ∧
  (∀ (p : Fin 12) (n : Nat) (o : OpenPkt) (e : BitVec 64) (row : List Blk) (d : Dev) (s : State), s.dev.portFine p.val → s.dev.rowCloses d p.val o e row →
    rawBits (o.packet (some e)).dtype = some n → d.slotFor p.val (o.packet (some e)) = none →
    Completes (.rawPacket p [row]) s (fun t =>
      Counted (R.EKL.STAT.COUNT p.val 11) 1 d t.dev ∧ (t.dev.portS p.val).lines = (d.portS p.val).lines))

/-- With the downlink up: ECHO_REQ in LOCKING, WAIT_BLOCK or RUN sends message 3 with the next ECHO_ID and keeps T1,
ECHO_MS after the one before; TIME_SET, when one may leave, sends message 2 with the epoch, DT and PT_DELAY, one
interval after the one before; CREG_RD and CREG_WR of an idle window send messages 5 and 4 with the address, and the
data of a write, and set BUSY, while a busy window only counts a framing error. An ECHO_RESP block with the
outstanding ECHO_ID that arrives at T4 within 100 µs of T1 gives PT_DELAY from the round trip less the turnaround
and the downlink asymmetry; a later one, or none within 100 µs, gives the echo up and counts it. A row of MASK_MARK
blocks that agrees with a LANE_MASK sent puts that mask in force, and those sent before it are replaced. A register
request without an answer within 2 ms ends with TIMEOUT. -/
def Obligations.PortsAskAndAreAnswered : Prop :=
  (∀ (p : Fin 12) (d : Dev) (s : State), 2 ≤ s.dev.get (R.EKL.STATUS.STATE p.val) → s.dev.get (R.EKL.STATUS.STATE p.val) ≤ 4 →
    d = reachMs (s.dev.portS p.val).echoAt (max 1 (s.dev.get (R.EKL.TIME_CTL.ECHO_MS p.val))) s.dev → d.downlinkUp p.val = true →
    Completes (.echoReq p) s (fun t =>
      (t.dev.portS p.val).echo = some ((d.portS p.val).echoId, d.dt) ∧
      (t.dev.portS p.val).echoId = ((d.portS p.val).echoId + 1) % 65536 ∧
      t.dev.out = .downlink p.val (message 3 (d.portS p.val).mseq (leBytes 2 (d.portS p.val).echoId)) :: d.out ∧
      Frame [] { d with port := t.dev.port, out := t.dev.out, lane := t.dev.lane, free := t.dev.free } s t)) ∧
  (∀ (p : Fin 12) (d : Dev) (s : State), s.dev.timeReady p.val = true →
    d = reachMs (s.dev.portS p.val).timeAt (s.dev.timeMs p.val) s.dev → d.downlinkUp p.val = true →
    Completes (.timeSet p) s (fun t =>
      t.dev.out = .downlink p.val (message 2 (d.portS p.val).mseq
        (leBytes 4 d.tim.epoch ++ leBytes 8 d.dt ++ leBytes 4 (d.get (R.TIM.PT_DELAY.PS p.val)))) :: d.out ∧
      (t.dev.portS p.val).mseq = ((d.portS p.val).mseq + 1) % 256 ∧ (t.dev.portS p.val).timeAt = some d.dt ∧
      Frame [] { d with port := t.dev.port, out := t.dev.out, lane := t.dev.lane, free := t.dev.free } s t)) ∧
  (∀ (p : Fin 12) (w : Fin 2) (s : State), s.dev.downlinkUp p.val = true → s.dev.on (R.EKL.CREG_STATUS.BUSY p.val w.val) = false →
    Completes (.cregRd p w) s (fun t =>
      t.dev.on (R.EKL.CREG_STATUS.BUSY p.val w.val) = true ∧ t.dev.cregS p.val w.val = some ((s.dev.portS p.val).mseq, s.dev.dt) ∧
      t.dev.out = .downlink p.val (message 5 (s.dev.portS p.val).mseq (leBytes 4 (s.dev.get (R.EKL.CREG_ADDR.ADDR p.val w.val)))) :: s.dev.out ∧
      Frame [R.EKL.CREG_STATUS.BUSY p.val w.val] { s.dev with port := t.dev.port, out := t.dev.out, lane := t.dev.lane, free := t.dev.free } s t)) ∧
  (∀ (p : Fin 12) (w : Fin 2) (s : State), s.dev.downlinkUp p.val = true → s.dev.on (R.EKL.CREG_STATUS.BUSY p.val w.val) = false →
    Completes (.cregWr p w) s (fun t =>
      t.dev.on (R.EKL.CREG_STATUS.BUSY p.val w.val) = true ∧ t.dev.cregS p.val w.val = some ((s.dev.portS p.val).mseq, s.dev.dt) ∧
      t.dev.out = .downlink p.val (message 4 (s.dev.portS p.val).mseq (leBytes 4 (s.dev.get (R.EKL.CREG_ADDR.ADDR p.val w.val)) ++
        leBytes 4 (s.dev.get (R.EKL.CREG_DATA.DATA p.val w.val)))) :: s.dev.out ∧
      Frame [R.EKL.CREG_STATUS.BUSY p.val w.val] { s.dev with port := t.dev.port, out := t.dev.out, lane := t.dev.lane, free := t.dev.free } s t)) ∧
  (∀ (p : Fin 12) (w : Fin 2) (s : State), s.dev.on (R.EKL.CREG_STATUS.BUSY p.val w.val) = true →
    Completes (.cregRd p w) s (fun t =>
      Counted (R.EKL.STAT.COUNT p.val 9) 1 s.dev t.dev ∧ Frame [R.EKL.STAT.COUNT p.val 9] s.dev s t) ∧
    Completes (.cregWr p w) s (fun t =>
      Counted (R.EKL.STAT.COUNT p.val 9) 1 s.dev t.dev ∧ Frame [R.EKL.STAT.COUNT p.val 9] s.dev s t)) ∧
  (∀ (p : Fin 12) (t4 : BitVec 64) (id t1 : Nat) (row : List Blk) (e : BitVec 64) (d : Dev) (s : State), s.dev.portFine p.val →
    (reach t4.toNat s.dev).rowGives d p.val row { hdr := 2#2, body := e } → bits e.toNat 0 8 = 0x33 → (d.portS p.val).echo = some (id, t1) →
    100000 * 65536 < dtDiff t4.toNat t1 →
    Completes (.echoResp p t4 [row]) s (fun t =>
      (t.dev.portS p.val).echo = none ∧ Counted (R.EKL.STAT.COUNT p.val 14) 1 d t.dev ∧
      Frame [R.EKL.STAT.COUNT p.val 14] { d with port := t.dev.port } s t)) ∧
  (∀ (p : Fin 12) (t4 : BitVec 64) (id t1 : Nat) (row : List Blk) (e : BitVec 64) (d : Dev) (s : State), s.dev.portFine p.val →
    (reach t4.toNat s.dev).rowGives d p.val row { hdr := 2#2, body := e } → bits e.toNat 0 8 = 0x33 → (d.portS p.val).echo = some (id, t1) →
    dtDiff t4.toNat t1 ≤ 100000 * 65536 → bits e.toNat 8 16 = id →
    Completes (.echoResp p t4 [row]) s (fun t =>
      (t.dev.portS p.val).echo = none ∧
      t.dev.get (R.TIM.PT_DELAY.PS p.val) = unsgn 32 (fdiv (dtDiff t4.toNat t1 * 1000 +
        (sgn 32 (d.get (R.TIM.PT_DLASYM.PS p.val)) - (bits e.toNat 24 32 : Nat)) * 65536) 131072) ∧
      Frame [R.TIM.PT_DELAY.PS p.val] { d with port := t.dev.port } s t)) ∧
  (∀ (p : Fin 12) (id t1 : Nat) (s : State), (s.dev.portS p.val).echo = some (id, t1) →
    Completes (.echoTimeout p) s (fun t =>
      (t.dev.portS p.val).echo = none ∧ Counted (R.EKL.STAT.COUNT p.val 14) 1 (reachNs t1 100000 s.dev) t.dev ∧
      Frame [R.EKL.STAT.COUNT p.val 14] { reachNs t1 100000 s.dev with port := t.dev.port } s t)) ∧
  (∀ (p : Fin 12) (mask ms : Nat) (before rest : List (Nat × Nat)) (row : List Blk) (bs : List (Nat × Blk)) (d : Dev) (s : State),
    s.dev.portFine p.val → rxRow p.val row s.dev = (bs, d) → (d.portS p.val).pkt = none →
    (∀ b ∈ bs, b.2.hdr = 2#2 ∧ blkByte b.2 0 = 0x66) →
    (d.portS p.val).maskSent = before ++ (mask, ms) :: rest → (∀ x ∈ before, marksMask bs x = false) → marksMask bs (mask, ms) = true →
    Completes (.maskMark p [row]) s (fun t =>
      (t.dev.portS p.val).mask = mask ∧ (t.dev.portS p.val).maskSent = rest ∧ Frame [] { d with port := t.dev.port } s t)) ∧
  (∀ (p : Fin 12) (w : Fin 2) (x : Nat × Nat) (s : State), s.dev.cregS p.val w.val = some x →
    Completes (.cregTimeout p w) s (fun t =>
      t.dev.cregS p.val w.val = none ∧ t.dev.get (R.EKL.CREG_STATUS.BUSY p.val w.val) = 0 ∧
      Raised (R.EKL.CREG_STATUS.SEQ p.val w.val) [R.EKL.CREG_STATUS.TIMEOUT p.val w.val] (reachNs x.2 2000000 s.dev) t.dev ∧
      Frame [R.EKL.CREG_STATUS.BUSY p.val w.val, R.EKL.CREG_STATUS.SEQ p.val w.val, R.EKL.CREG_STATUS.TIMEOUT p.val w.val]
        { reachNs x.2 2000000 s.dev with port := t.dev.port } s t))

/-- RING_SLOT_WRITTEN writes the oldest line, header and samples, into the next slot of the ring, counts the bytes for
DRAM user 0 and moves WR on; over a slot not yet taken it flags and counts the overrun; in a region that another
owner holds it writes nothing; with no line it changes nothing, and a ring that is a host error (R162, R163) stops
it. LINE_WATCHDOG takes the oldest open line at E plus the time-out: with samples it is closed and forwarded as it
is, without it is declared missing; either way it is the last line forwarded. CAM_STATUS_TIMEOUT in RUN, HOLD and
RELINK take the port down with causes 3, 4 and 5: it relinks where AUTO_RELINK is set or on RELINK, else it is held. -/
def Obligations.PortsLoseLinesAndGoDown : Prop :=
  (∀ (p : Fin 12) (s : State), (s.dev.portS p.val).ringOut = [] → Completes (.ringSlotWritten p) s (fun t => t = s.after s.dev)) ∧
  (∀ (p : Fin 12) (w : String) (s : State), (s.dev.portS p.val).ringOut ≠ [] → s.dev.ringErr p.val = some w →
    exec (.ringSlotWritten p) s = .fault (.hostError w)) ∧
  (∀ (p : Fin 12) (l : CamLine) (rest : List CamLine) (bs : List Byte) (s : State), (s.dev.portS p.val).ringOut = l :: rest → s.dev.ringErr p.val = none →
    bs = ringHeader s.dev p.val l ((s.dev.portS p.val).ringSeq % 2 ^ 32) ++ (if l.token then [] else l.planes.flatMap (fun xs => xs.flatMap (leBytes 2))) →
    Completes (.ringSlotWritten p) s (fun t =>
      (t.dev.portS p.val).ringOut = rest ∧ (t.dev.portS p.val).ringSeq = (s.dev.portS p.val).ringSeq + 1 ∧
      t.dev.get (R.EKL.RING_WR.SLOT p.val) =
        ((s.dev.portS p.val).ringSeq + 1) % s.dev.ringSlots p.val % 2 ^ (R.EKL.RING_WR.SLOT p.val).w ∧
      ((s.dev.portS p.val).ringRd + s.dev.ringSlots p.val ≤ (s.dev.portS p.val).ringSeq →
        Raised (R.EKL.STATUS.SEQ p.val) [R.EKL.STATUS.RING_OVR p.val] s.dev t.dev ∧ Counted (R.EKL.STAT.COUNT p.val 13) 1 s.dev t.dev) ∧
      Frame [R.EKL.RING_WR.SLOT p.val, R.EKL.STATUS.SEQ p.val, R.EKL.STATUS.RING_OVR p.val, R.EKL.STAT.COUNT p.val 13]
        (meterUser 0 bs.length (when (s.dev.mayUse 3 (s.dev.get (R.EKL.CTL.RING_RGN p.val)) 4)
          (dramWrite (s.dev.ringAddr p.val ((s.dev.portS p.val).ringSeq % s.dev.ringSlots p.val)) bs) { s.dev with port := t.dev.port })) s t)) ∧
  (∀ (p : Fin 12) (r : LineRec) (d : Dev) (s : State), s.dev.oldestOpen p.val = some r →
    d = reachNs r.e (max 5000 (r.lineTo.getD (s.dev.get (R.EKL.LINE_TO.NS p.val)))) s.dev →
    Completes (.lineWatchdog p) s (fun t =>
      t = s.after (if r.hasSample then closeLine p.val r d else missLine p.val r d) ∧
      t.dev.get (R.EKL.LAST_LSN.LSN p.val) = r.lsn % 2 ^ 32 ∧ t.dev.get (R.EKL.LAST_DT.DT p.val) = d.dt)) ∧
  (∀ (p : Fin 12) (d : Dev) (s : State), s.dev.get (R.EKL.STATUS.STATE p.val) = 4 →
    d = reachNs (s.dev.portS p.val).lastStat 300000000 s.dev →
    Completes (.camStatusTimeout p) s (fun t =>
      t.dev.get (R.EKL.STATUS.STATE p.val) = (if d.on (R.EKL.CTL.AUTO_RELINK p.val) then 1 else 5) ∧
      t.dev.get (R.EKL.DOWN_CAUSE.CAUSE p.val) = 3 ∧ t.dev.on (R.EKL.STATUS.STAT_TO p.val) = true ∧ t.dev.on (R.EKL.STATUS.DOWN p.val) = true)) ∧
  (∀ (p : Fin 12) (s : State), s.dev.get (R.EKL.STATUS.STATE p.val) ≠ 0 → s.dev.get (R.EKL.STATUS.STATE p.val) ≠ 5 →
    Completes (.hold p) s (fun t =>
      t.dev.get (R.EKL.STATUS.STATE p.val) = (if s.dev.on (R.EKL.CTL.AUTO_RELINK p.val) then 1 else 5) ∧
      t.dev.get (R.EKL.DOWN_CAUSE.CAUSE p.val) = 4 ∧ t.dev.on (R.EKL.STATUS.DOWN p.val) = true)) ∧
  (∀ (p : Fin 12) (s : State), s.dev.get (R.EKL.STATUS.STATE p.val) = 0 ∨ s.dev.get (R.EKL.STATUS.STATE p.val) = 5 →
    Completes (.hold p) s (fun t => t = s.after s.dev)) ∧
  (∀ (p : Fin 12) (s : State), s.dev.get (R.EKL.STATUS.STATE p.val) ≠ 0 →
    Completes (.relink p) s (fun t =>
      t.dev.get (R.EKL.STATUS.STATE p.val) = 1 ∧ t.dev.get (R.EKL.DOWN_CAUSE.CAUSE p.val) = 5 ∧
      (t.dev.portS p.val).mseq = 0 ∧ (t.dev.portS p.val).echo = none))

/-- With the lathe's settings no host error: LATHE_LINE_OUTPUT takes the oldest home line of a serving lathe, or, while
no home line waits, the guest line in progress, and appends one piece with its port, LSN and E to the fusion unit's
queue; a guest line of more than 3,832 clocks is flagged LATE. GUEST_LINE_START, with no line in progress and no
home line waiting, takes the next slot of the readable context: a sound slot that is young enough becomes the guest
line in progress, with the header's LSN and flags; one whose header CRC fails leaves as a token and is flagged
HDR_CRC, one too old as a token flagged SKIP. POISONED_RESPONSE ends the guest line early as a short line, with
POISON. A tracking window's end moves no zone's gain by more than SLEW. An idle lathe with CLK_GATE is gated. A
passed self-test counts; a failed one flags ST_FAIL, and with LTH_AUTO the lathe is retired. -/
def Obligations.LathesPassLines : Prop :=
  (∀ (n : Fin 8) (clocks : Nat) (l : CamLine) (rest : List CamLine) (s : State),
    KMap.get (fun _ => ([] : List CamLine)) s.dev.homeQ n.val = l :: rest → s.dev.serves n.val 0 = true → s.dev.homeErr n.val = none →
    Completes (.latheLineOutput n 0 clocks) s (fun t =>
      KMap.get (fun _ => ([] : List CamLine)) t.dev.homeQ n.val = rest ∧ t.dev.get (R.LTH.LAST_LSN.LSN n.val 0) = l.lsn % 2 ^ 32 ∧
      (∃ x : Piece, t.dev.fus.queue = s.dev.fus.queue ++ [x] ∧ x.port = l.port ∧ x.lsn = l.lsn ∧ x.e = l.e ∧ x.token = l.token))) ∧
  (∀ (n : Fin 8) (c : Fin 3) (clocks : Nat) (l : CamLine) (s : State), c ≠ 0 → (s.dev.lthS n.val).guest = some (c.val, l) →
    s.dev.homeIdle n.val = true →
    Completes (.latheLineOutput n c clocks) s (fun t =>
      (t.dev.lthS n.val).guest = none ∧ (3832 < clocks → t.dev.on (R.LTH.CTX_STATUS.LATE n.val c.val) = true) ∧
      (∃ x : Piece, t.dev.fus.queue = s.dev.fus.queue ++ [x] ∧ x.port = l.port ∧ x.lsn = l.lsn ∧ x.e = l.e ∧ x.token = false))) ∧
  (∀ (n : Fin 8) (c : Fin 3) (h : List Byte) (s : State), s.dev.startsGuest s.mem n.val c.val h →
    crc32c (h.take 60) = fieldAt h 60 4 → dtDiff s.dev.dt (fieldAt h 16 8) ≤ (s.dev.get (R.LTH.GSCHED.SKIP_NS n.val) : Int) * 65536 →
    bit (fieldAt h 4 2) 0 = false → (s.dev.ringSamples s.mem n.val c.val (s.dev.nextSlotAt n.val c.val)).2 = none →
    Completes (.guestLineStart n) s (fun t =>
      ((t.dev.lthS n.val).ctxS c.val).taken = ((s.dev.lthS n.val).ctxS c.val).taken + 1 ∧
      (∃ l : CamLine, (t.dev.lthS n.val).guest = some (c.val, l) ∧ l.port = s.dev.ctxPort n.val c.val ∧
        l.lsn = fieldAt h 0 4 ∧ l.flags = fieldAt h 4 2 ∧ l.token = false) ∧
      t.dev.fus.queue = s.dev.fus.queue)) ∧
  (∀ (n : Fin 8) (c : Fin 3) (h : List Byte) (s : State), s.dev.startsGuest s.mem n.val c.val h →
    crc32c (h.take 60) ≠ fieldAt h 60 4 ∨
      (crc32c (h.take 60) = fieldAt h 60 4 ∧ (s.dev.get (R.LTH.GSCHED.SKIP_NS n.val) : Int) * 65536 < dtDiff s.dev.dt (fieldAt h 16 8)) →
    Completes (.guestLineStart n) s (fun t =>
      ((t.dev.lthS n.val).ctxS c.val).taken = ((s.dev.lthS n.val).ctxS c.val).taken + 1 ∧ (t.dev.lthS n.val).guest = none ∧
      Raised (R.LTH.CTX_STATUS.SEQ n.val c.val)
        [if crc32c (h.take 60) = fieldAt h 60 4 then R.LTH.CTX_STATUS.SKIP n.val c.val else R.LTH.CTX_STATUS.HDR_CRC n.val c.val]
        s.dev t.dev ∧
      Counted (R.LTH.SKIPS.COUNT n.val c.val) 1 s.dev t.dev ∧
      (∃ x : Piece, t.dev.fus.queue = s.dev.fus.queue ++ [x] ∧ x.lsn = fieldAt h 0 4 ∧ x.token = true))) ∧
  (∀ (n : Fin 8) (sent addr : Nat) (c : Fin 3) (l : CamLine) (s : State), (s.dev.lthS n.val).guest = some (c.val, l) →
    Completes (.poisonedResponse n sent addr) s (fun t =>
      (t.dev.lthS n.val).guest = none ∧
      Raised (R.LTH.CTX_STATUS.SEQ n.val c.val) [R.LTH.CTX_STATUS.POISON n.val c.val] s.dev t.dev ∧
      (∃ x : Piece, t.dev.fus.queue = s.dev.fus.queue ++ [x] ∧ x.lsn = l.lsn ∧ x.flags = l.flags ||| 2))) ∧
  (∀ (n : Fin 8) (c : Fin 3) (s : State), ((s.dev.lthS n.val).ctxS c.val).winDue = true →
    KMap.wf (fun _ => (0, 0, 0)) (s.dev.lthS n.val).acc = true →
    Completes (.trackingWindowEnd n c) s (fun t =>
      ((t.dev.lthS n.val).ctxS c.val).winDue = false ∧
      (∀ z, ((t.dev.tgain n.val z : Int) - s.dev.tgain n.val z).natAbs ≤ s.dev.get (R.LTH.TRK_CTL.SLEW n.val c.val)) ∧
      (∀ z, s.dev.ownsZone n.val c.val z = false → t.dev.tgain n.val z = s.dev.tgain n.val z) ∧
      Frame [] { s.dev with lth := t.dev.lth } s t)) ∧
  (∀ (n : Fin 8) (s : State), s.dev.on (R.LTH.CTL.CLK_GATE n.val) = true →
    KMap.get (fun _ => ([] : List CamLine)) s.dev.homeQ n.val = [] → (s.dev.lthS n.val).guest = none →
    Completes (.latheClockGate n) s (fun t =>
      (t.dev.lthS n.val).gated = true ∧ (t.dev.perfS (lthBase n.val)).gated = true ∧ Frame [] { s.dev with lth := t.dev.lth } s t)) ∧
  (∀ (n : Fin 8) (s : State), s.dev.get (R.LTH.STATUS.STATE n.val) = 1 ∨ s.dev.get (R.LTH.STATUS.STATE n.val) = 2 →
    Completes (.latheSelfTest n true) s (fun t =>
      Counted (R.LTH.ST_COUNT.COUNT n.val) 1 s.dev t.dev ∧ Frame [R.LTH.ST_COUNT.COUNT n.val] s.dev s t)) ∧
  (∀ (n : Fin 8) (s : State), s.dev.get (R.LTH.STATUS.STATE n.val) = 1 ∨ s.dev.get (R.LTH.STATUS.STATE n.val) = 2 →
    s.dev.on R.RAS.CTL.LTH_AUTO = false →
    Completes (.latheSelfTest n false) s (fun t =>
      Raised (R.LTH.STATUS.SEQ n.val) [R.LTH.STATUS.ST_FAIL n.val] s.dev t.dev ∧ Counted (R.RAS.STAT.COUNT 11) 1 s.dev t.dev ∧
      Frame [R.LTH.STATUS.SEQ n.val, R.LTH.STATUS.ST_FAIL n.val, R.RAS.STAT.COUNT 11] s.dev s t))

/-- SWAP sets PEND and COPY sets COPY_BUSY, and neither changes anything else. COPY_DONE of a running copy in which no
covered word was written clears COPY_BUSY, and every word that the unit covers reads in the shadow bank as it reads
in the active bank; every other word, and the active bank, stay. At a boundary of the unit a pending exchange swaps
the covered words and clears PEND, and leaves the other words; while a copy runs it waits. -/
def Obligations.TableBanksSwapAndCopy : Prop :=
  (∀ (u : TblUnit) (s : State), Completes (.swap u) s (fun t => t.dev.on (tblPend u) = true ∧ Frame [tblPend u] s.dev s t)) ∧
  (∀ (u : TblUnit) (s : State), Completes (.copy u) s (fun t => t.dev.on (tblBusy u) = true ∧ Frame [tblBusy u] s.dev s t)) ∧
  (∀ (u : TblUnit) (s : State), s.dev.on (tblBusy u) = true → (s.dev.bankS (tblIndex u)).raced.filter (tblCovers s.dev u) = [] →
    KMap.wf (bankDefault (tblIndex u)) (s.dev.bankS (tblIndex u)).act = true →
    Completes (.copyDone u) s (fun t =>
      t.dev.on (tblBusy u) = false ∧
      (∀ k, tblCovers s.dev u k = true → t.dev.shdWord (tblIndex u) k = s.dev.actWord (tblIndex u) k) ∧
      (∀ k, tblCovers s.dev u k = false → t.dev.shdWord (tblIndex u) k = s.dev.shdWord (tblIndex u) k) ∧
      (∀ k, t.dev.actWord (tblIndex u) k = s.dev.actWord (tblIndex u) k) ∧
      Frame [tblBusy u] { s.dev with bank := t.dev.bank } s t)) ∧
  (∀ (u : TblUnit) (d : Dev), d.on (tblPend u) = true → d.on (tblBusy u) = false →
    KMap.wf (bankDefault (tblIndex u)) (d.bankS (tblIndex u)).act = true → KMap.wf (bankDefault (tblIndex u)) (d.bankS (tblIndex u)).shd = true →
    (boundarySwap u d).on (tblPend u) = false ∧
    (∀ k, tblCovers d u k = true → (boundarySwap u d).actWord (tblIndex u) k = d.shdWord (tblIndex u) k ∧
      (boundarySwap u d).shdWord (tblIndex u) k = d.actWord (tblIndex u) k) ∧
    (∀ k, tblCovers d u k = false → (boundarySwap u d).actWord (tblIndex u) k = d.actWord (tblIndex u) k ∧
      (boundarySwap u d).shdWord (tblIndex u) k = d.shdWord (tblIndex u) k)) ∧
  (∀ (u : TblUnit) (d : Dev), d.on (tblBusy u) = true → boundarySwap u d = d)

/-- With the fusion unit enabled and no host error of the image path in force: VIEW_LINE takes the oldest piece off the
queue. Its slot of an enabled feature view joins the view's line in the line store; when that makes the one line
that waits formable, the line is formed; a slot of a line whose composite line was formed is dropped, counted once
in VIEW_LATE and flagged LATE. FUSION_DEADLINE, with a line waiting whose deadline's E is known, runs at E plus
DEADLINE and forms that line, which is flagged FORCED and counted in FORCED_DL, and the lines after it that need
nothing more. With the unit disabled VIEW_LINE drops the piece. SEAM_TRACKING_WINDOW at the end of a window sets
MEAS of a seam with enough pairs to their mean, moves TRIM in MODE 2 by the mean clipped to STEP, and restarts the
sums; a seam with too few keeps TRIM, MEAS and LVL. With a host error of the image path in force the two commands of
the path stop. -/
def Obligations.CompositeLinesAreFormed : Prop :=
  (∀ (p : Piece) (rest : List Piece) (s : State), imageErr s.dev = none → s.dev.fus.queue = p :: rest → s.dev.on R.FUS.CTL.EN = false →
    Completes .viewLine s (fun t => t.dev.fus.queue = rest ∧ Frame [] { s.dev with fus := t.dev.fus } s t)) ∧
  (∀ (p : Piece) (rest : List Piece) (q first len : Nat) (xs : List Nat) (s : State), imageErr s.dev = none →
    s.dev.fus.queue = p :: rest → s.dev.on R.FUS.CTL.EN = true → s.dev.fus.issued = [] → p.segs = [(q, first, len, xs)] →
    s.dev.viewOn (4 * p.port + q) = true → s.dev.isLead (4 * p.port + q) = false → s.dev.formedAlready (4 * p.port + q) p.lsn = false →
    Completes .viewLine s (fun t =>
      t.dev.fus.queue = rest ∧
      (∃ l : VLine, (t.dev.viewS (4 * p.port + q)).line p.lsn = some l ∧
        l.segs = (((s.dev.viewS (4 * p.port + q)).line p.lsn).elim [] VLine.segs) ++
          [{ first, len, got := !p.token, flags := p.flags, pflags := nth 0 p.pflags q, xs }]) ∧
      Frame [] { s.dev with fus := t.dev.fus } s t)) ∧
  (∀ (p : Piece) (rest : List Piece) (q first len : Nat) (xs : List Nat) (s : State), imageErr s.dev = none →
    s.dev.fus.queue = p :: rest → s.dev.on R.FUS.CTL.EN = true → s.dev.fus.issued = [] → p.segs = [(q, first, len, xs)] →
    s.dev.viewOn (4 * p.port + q) = true → s.dev.isLead (4 * p.port + q) = false → s.dev.formedAlready (4 * p.port + q) p.lsn = true →
    p.token = false → (s.dev.viewS (4 * p.port + q)).late.contains p.lsn = false →
    Completes .viewLine s (fun t =>
      t.dev.fus.queue = rest ∧ (t.dev.viewS (4 * p.port + q)).lines = (s.dev.viewS (4 * p.port + q)).lines ∧
      Raised (R.FUS.VIEW_STATUS.SEQ (4 * p.port + q)) [R.FUS.VIEW_STATUS.LATE (4 * p.port + q)] s.dev t.dev ∧
      Raised R.FUS.STATUS.SEQ [R.FUS.STATUS.LATE_VIEW] s.dev t.dev ∧ Counted (R.FUS.STAT.COUNT 3) 1 s.dev t.dev ∧
      Frame [R.FUS.VIEW_STATUS.SEQ (4 * p.port + q), R.FUS.VIEW_STATUS.LATE (4 * p.port + q), R.FUS.STATUS.SEQ,
        R.FUS.STATUS.LATE_VIEW, R.FUS.STAT.COUNT 3] { s.dev with fus := t.dev.fus } s t)) ∧
  (∀ (p : Piece) (rest : List Piece) (q first len : Nat) (xs : List Nat) (n e : Nat) (s : State), imageErr s.dev = none →
    s.dev.fus.queue = p :: rest → s.dev.on R.FUS.CTL.EN = true → s.dev.fus.issued = [(n, e)] → p.segs = [(q, first, len, xs)] →
    s.dev.viewOn (4 * p.port + q) = true → s.dev.isLead (4 * p.port + q) = false →
    (viewPiece p (q, first, len, xs) { s.dev with fus := { s.dev.fus with queue := rest } }).formable n = true →
    Completes .viewLine s (fun t =>
      t.dev.fus.queue = rest ∧ t.dev.fus.issued = [] ∧ t.dev.fus.count = s.dev.fus.count + 1 ∧
      t.dev.get R.FUS.LAST_LSN.LSN = n % 2 ^ 32)) ∧
  (∀ (x y e : Nat) (rest : List (Nat × Nat)) (d : Dev) (s : State), imageErr s.dev = none → s.dev.nextComp = some (x, y, some e) →
    d = reachNs e (s.dev.get R.FUS.DEADLINE.NS) s.dev → d.fus.issued = (x, y) :: rest →
    Completes .fusionDeadline s (fun t =>
      (∃ k, k ≤ rest.length ∧ t.dev.fus.issued = rest.drop k ∧ t.dev.fus.count = s.dev.fus.count + 1 + k) ∧
      t.dev.on R.FUS.STATUS.FORCED = true ∧ Counted (R.FUS.STAT.COUNT 1) 1 s.dev t.dev ∧
      t.dev.get R.FUS.LAST_DT.DT = d.dt % 2 ^ 64)) ∧
  (∀ (a b : Nat) (s : State), s.dev.fus.winDue = true → s.dev.seams = [(a, b)] → s.dev.rwb = [] → s.dev.get R.FUS.SEAM_CTL.MODE = 2 →
    max 1 (s.dev.get R.FUS.SEAM_CTL.MINPAIRS) ≤ (s.dev.viewS b).pairs →
    Completes .seamTrackingWindow s (fun t =>
      t.dev.fus.winDue = false ∧ t.dev.fus.issued = s.dev.fus.issued ∧ t.dev.fus.queue = s.dev.fus.queue ∧
      t.dev.get (R.FUS.VIEW_TRK.MEAS b) = unsgn 9 (roundMean (s.dev.viewS b).sum (s.dev.viewS b).pairs) ∧
      t.dev.get (R.FUS.VIEW_TRIM.TRIM b) = unsgn 9 (clampI (-128) 128 (sgn 9 (s.dev.get (R.FUS.VIEW_TRIM.TRIM b)) +
        clampI (-(s.dev.get R.FUS.SEAM_CTL.STEP : Int)) (s.dev.get R.FUS.SEAM_CTL.STEP)
          (roundMean (s.dev.viewS b).sum (s.dev.viewS b).pairs))) ∧
      (∀ v < 48, (t.dev.viewS v).pairs = 0 ∧ (t.dev.viewS v).sum = 0))) ∧
  (∀ (a b : Nat) (s : State), s.dev.fus.winDue = true → s.dev.seams = [(a, b)] →
    (s.dev.viewS b).pairs < max 1 (s.dev.get R.FUS.SEAM_CTL.MINPAIRS) →
    Completes .seamTrackingWindow s (fun t =>
      t.dev.fus.winDue = false ∧ (∀ v < 48, (t.dev.viewS v).pairs = 0 ∧ (t.dev.viewS v).sum = 0) ∧
      Frame [R.FUS.VIEW_TRK.PAIRS b, R.FUS.STAT.COUNT 9] { s.dev with fus := t.dev.fus } s t)) ∧
  (∀ s : State, s.dev.fus.winDue = false → Completes .seamTrackingWindow s (fun t => t = s.after s.dev)) ∧
  (∀ (w : String) (s : State), imageErr s.dev = some w →
    exec .viewLine s = .fault (.hostError w) ∧ exec .fusionDeadline s = .fault (.hostError w))

/-- Whatever the reason for which it is formed, forming the next composite line takes it, and only it, off the list of
issued lines, counts one line, and moves on by one, or back to one, within the composite block. -/
def Obligations.FormedLinesAreCounted : Prop :=
  ∀ (why : Why) (x : Nat × Nat) (rest : List (Nat × Nat)) (d : Dev), d.fus.issued = x :: rest →
    (formLine why d).fus.issued = rest ∧ (formLine why d).fus.count = d.fus.count + 1 ∧
    (formLine why d).fus.blk = if d.atBoundary then 1 else d.fus.blk + 1

/-- For a serving gouge that reads its FIFO: a RUN_RECORD without an open component starts one with the run's line,
columns, area and class count; a run that joins the one open component's run on the line above adds to it; an
END_RECORD of a line without runs closes the open component (on earlier lines, within the line limit, its residues
right), with one record of its label, a partial record at an edge of the strip, on the output FIFO, and the strip is
done with the line. A gouge asleep for SLEEP_LINES lines is clock-gated; a quiet group is power-gated with its
domain, and wakes with it for a waiting record. A passed self-test counts; a failed one flags ST_FAIL, and with
GG_AUTO retires a gouge without a strip. A gouge that its full output FIFO holds takes nothing and counts clocks of
hold, at least one. -/
def Obligations.GougesLabelRuns : Prop :=
  (∀ (g : Fin 136) (i st : Nat) (r : RunRec) (rest : List (Nat × GRec)) (s : State), s.dev.gouTakes g.val = true →
    s.dev.servedBy g.val = some st → (s.dev.gouS g.val).spill = false → (s.dev.gouS g.val).fifo = (i, .run r) :: rest →
    (s.dev.gouS g.val).comps = [] → (s.dev.gouS g.val).cur = [] →
    Completes (.runRecord g) s (fun t => (t.dev.gouS g.val).fifo = rest ∧
      ∃ c : Comp, (t.dev.gouS g.val).comps = [c] ∧ c.first = r.lsn ∧ c.last = r.lsn ∧ c.area = r.len ∧ c.x0 = r.start ∧
        c.x1 = r.start + r.len - 1 ∧ c.label % 512 = 0 ∧ c.m10 = sumCols r.start r.len ∧ c.edgeH = 2 ∧ nth 0 c.cls (r.cf % 16) = r.len)) ∧
  (∀ (g : Fin 136) (i st : Nat) (r : RunRec) (rest : List (Nat × GRec)) (c : Comp) (a la : Nat) (s : State), s.dev.gouTakes g.val = true →
    s.dev.servedBy g.val = some st → (s.dev.gouS g.val).spill = false → (s.dev.gouS g.val).fifo = (i, .run r) :: rest →
    (s.dev.gouS g.val).comps = [c] → (s.dev.gouS g.val).cur = [] → (s.dev.gouS g.val).curLsn = none →
    (s.dev.gouS g.val).prevLsn = some ((r.lsn + 2 ^ 32 - 1) % 2 ^ 32) → (s.dev.gouS g.val).prev = [(a, la, c.label)] →
    joinsAbove (s.dev.on R.CLS.GG_CTL.CONN) r.start r.len a la = true →
    Completes (.runRecord g) s (fun t => (t.dev.gouS g.val).fifo = rest ∧
      ∃ k : Comp, (t.dev.gouS g.val).comps = [k] ∧ k.label = c.label ∧ k.first = c.first ∧ k.last = r.lsn ∧ k.area = c.area + r.len ∧
        k.x0 = min c.x0 r.start ∧ k.x1 = max c.x1 (r.start + r.len - 1) ∧ k.edgeH = c.edgeH + 2)) ∧
  (∀ (g : Fin 136) (i st : Nat) (f : EndRec) (c : Comp) (rest : List (Nat × GRec)) (s : State), s.dev.gouTakes g.val = true →
    s.dev.servedBy g.val = some st → (s.dev.gouS g.val).spill = false → (s.dev.gouS g.val).fifo = (i, .fin f) :: rest →
    (s.dev.gouS g.val).comps = [c] → (s.dev.gouS g.val).curLsn = none → (s.dev.gouS g.val).closing = [] → c.last ≠ f.lsn → c.first ≠ f.lsn →
    lsnDiff f.lsn c.first < s.dev.maxLines f.lsn → residuesHold c = true →
    (s.dev.gouS g.val).owed = [] → (s.dev.gouS g.val).out.length < 32 →
    Completes (.endRecord g) s (fun t =>
      (t.dev.gouS g.val).fifo = rest ∧ (t.dev.gouS g.val).comps = [] ∧ (t.dev.gouS g.val).prevLsn = some f.lsn ∧
      (∃ r : CompRec, (t.dev.gouS g.val).out = (s.dev.gouS g.val).out ++ [r] ∧ r.label = c.label ∧ r.line = (c.last + 1) % 2 ^ 32 ∧
        r.e = f.e ∧ r.comp.map Comp.area = some c.area ∧
        r.kind = (if bit c.flags 3 || bit c.flags 4 then .part else .closure)) ∧
      KMap.get (fun _ => (none : Option Nat)) t.dev.mrg.done st = some f.lsn)) ∧
  (∀ (g : Fin 136) (s : State), s.dev.gouTakes g.val = false → (s.dev.gouS g.val).owed ≠ [] →
    Completes (.runRecord g) s (fun t => (∃ n, 0 < n ∧ Counted (R.MRG.STAT.COUNT 15) n s.dev t.dev) ∧
      Frame [R.MRG.STAT.COUNT 15] { s.dev with free := t.dev.free } s t)) ∧
  (∀ (g : Fin 136) (s : State), s.dev.get (R.GGE.STATUS.STATE g.val) = 1 → (s.dev.gouS g.val).asleep = true →
    max 1 (s.dev.get R.CLS.GG_CTL.SLEEP_LINES) ≤ (s.dev.gouS g.val).idle →
    Completes (.gougeClockGate g) s (fun t =>
      t.dev.get (R.GGE.STATUS.STATE g.val) = 2 ∧ Frame [R.GGE.STATUS.STATE g.val] s.dev s t)) ∧
  (∀ (grp : Fin 8) (s : State), s.dev.on R.CLS.GG_DOZE.EN = true →
    (groupOf grp.val).all (fun g => (s.dev.servedBy g).isNone
      || (s.dev.get (R.GGE.STATUS.STATE g) == 2 && decide (s.dev.get R.CLS.GG_DOZE.LINES ≤ (s.dev.gouS g).gatedFor))) = true →
    Completes (.groupPowerGate grp) s (fun t =>
      (∀ g ∈ groupOf grp.val, s.dev.get (R.GGE.STATUS.STATE g) = 2 ∨ s.dev.get (R.GGE.STATUS.STATE g) = 4 →
        t.dev.get (R.GGE.STATUS.STATE g) = 3) ∧ bit t.dev.domains (3 + grp.val) = false ∧
      Frame (R.PWR.STAT.COUNT 3 :: R.PWR.DOM_ON_LO.ON :: R.PWR.DOM_ON_HI.ON :: (groupOf grp.val).map R.GGE.STATUS.STATE)
        s.dev s t)) ∧
  (∀ (grp : Fin 8) (s : State), s.dev.groupOff grp.val = true →
    (groupOf grp.val).any (fun g => !(s.dev.gouS g).fifo.isEmpty || (s.dev.gouS g).spill) = true →
    Completes (.groupWake grp) s (fun t => t.dev.groupOff grp.val = false ∧ bit t.dev.domains (3 + grp.val) = true ∧
      Frame (R.PWR.STAT.COUNT 3 :: R.PWR.DOM_ON_LO.ON :: R.PWR.DOM_ON_HI.ON :: (groupOf grp.val).map R.GGE.STATUS.STATE)
        { s.dev with gou := t.dev.gou } s t)) ∧
  (∀ (g : Fin 136) (s : State), s.dev.get (R.GGE.STATUS.STATE g.val) ∉ [0, 3, 7] →
    Completes (.gougeSelfTest g true) s (fun t =>
      Counted (R.GGE.ST_COUNT.COUNT g.val) 1 s.dev t.dev ∧ Frame [R.GGE.ST_COUNT.COUNT g.val] s.dev s t)) ∧
  (∀ (g : Fin 136) (s : State), s.dev.get (R.GGE.STATUS.STATE g.val) ∉ [0, 3, 7] → s.dev.on R.RAS.CTL.GG_AUTO = false →
    Completes (.gougeSelfTest g false) s (fun t =>
      Raised (R.GGE.STATUS.SEQ g.val) [R.GGE.STATUS.ST_FAIL g.val] s.dev t.dev ∧ Counted (R.RAS.STAT.COUNT 11) 1 s.dev t.dev ∧
      Frame [R.GGE.STATUS.SEQ g.val, R.GGE.STATUS.ST_FAIL g.val, R.RAS.STAT.COUNT 11] s.dev s t)) ∧
  (∀ (g : Fin 136) (s : State), s.dev.get (R.GGE.STATUS.STATE g.val) ∉ [0, 3, 7] → s.dev.on R.RAS.CTL.GG_AUTO = true →
    s.dev.servedBy g.val = none →
    Completes (.gougeSelfTest g false) s (fun t => t.dev.get (R.GGE.STATUS.STATE g.val) = 7 ∧ (t.dev.gouS g.val).comps = []))

/-- COMPONENT_RECORD with the merge unit on takes the record of the only head, and of two heads in different FIFOs both,
the first head first: a contact, alias or partial record judged good enters the merge input FIFO; a closure becomes
an object with the next ID; a record of an old epoch is dropped and counted; one with a bad CRC flags CRC_ERR and is
counted; a merged set becomes an object. CONTACT puts its node under its strip side and line into the edge map;
ALIAS puts both nodes into one set and closes the loser as empty; PARTIAL gives the node its quantities and closes
it; PAIRING moves the paired line of a boundary on by one, and a pair of entries that meet on one line puts their
nodes into one set and takes 1 from the EDGE_H of each; SET_COMPLETE moves the first complete set to the output FIFO
and frees its nodes; ORPHANS closes the old-epoch nodes of the strip. -/
def Obligations.RecordsAreMerged : Prop :=
  (∀ (x y g : Nat) (r : CompRec) (rest : List CompRec) (ok2 : Bool) (s : State), s.dev.on R.MRG.CTL.EN = true →
    s.dev.heads none = [(x, y, .gouge g)] → (s.dev.gouS g).out = r :: rest → r.strip < 136 → judge s.dev r = .taken → r.kind ≠ .closure →
    Completes (.componentRecord ⟨true, ok2⟩) s (fun t =>
      t.dev.mrg.inQ = s.dev.mrg.inQ ++ [r] ∧ (t.dev.gouS g).out = rest ++ (s.dev.gouS g).owed.take (32 - rest.length) ∧
      Frame [R.MRG.STAT.COUNT 15] { s.dev with gou := t.dev.gou, mrg := t.dev.mrg, free := t.dev.free } s t)) ∧
  (∀ (x y g : Nat) (r : CompRec) (c : Comp) (rest : List CompRec) (ok2 : Bool) (s : State), s.dev.on R.MRG.CTL.EN = true →
    s.dev.heads none = [(x, y, .gouge g)] → (s.dev.gouS g).out = r :: rest → r.strip < 136 → judge s.dev r = .taken →
    r.kind = .closure → r.comp = some c → (∀ k : Fin 4, s.dev.on (R.CRV.NET_CTL.EN k.val) = false) →
    Completes (.componentRecord ⟨true, ok2⟩) s (fun t =>
      Counted R.MRG.NEXT_ID.ID 1 s.dev t.dev ∧ Counted (R.MRG.STAT.COUNT 0) 1 s.dev t.dev ∧ Counted (R.MRG.STAT.COUNT 1) 1 s.dev t.dev ∧
      (∃ o : ObjRec, o.id = s.dev.get R.MRG.NEXT_ID.ID ∧ o.first = c.first ∧ o.area = min c.area (2 ^ 32 - 1) ∧
        t.dev.objQ = s.dev.objQ ++ [o] ∧ t.dev.held = s.dev.held))) ∧
  (∀ (x y g : Nat) (r : CompRec) (rest : List CompRec) (ok2 : Bool) (s : State), s.dev.on R.MRG.CTL.EN = true →
    s.dev.heads none = [(x, y, .gouge g)] → (s.dev.gouS g).out = r :: rest → r.strip < 136 → judge s.dev r = .oldDrop →
    Completes (.componentRecord ⟨true, ok2⟩) s (fun t =>
      Counted (R.MRG.STAT.COUNT 8) 1 s.dev t.dev ∧ t.dev.mrg.inQ = s.dev.mrg.inQ ∧
      Frame [R.MRG.STAT.COUNT 8, R.MRG.STAT.COUNT 15, R.RAS.MIG_REPLAY.COUNT] { s.dev with gou := t.dev.gou, free := t.dev.free } s t)) ∧
  (∀ (x y g : Nat) (r : CompRec) (rest : List CompRec) (ok2 : Bool) (s : State), s.dev.on R.MRG.CTL.EN = true →
    s.dev.heads none = [(x, y, .gouge g)] → (s.dev.gouS g).out = r :: rest → s.dev.on R.RAS.CTL.GG_AUTO = false →
    Completes (.componentRecord ⟨false, ok2⟩) s (fun t =>
      t.dev.on R.MRG.STATUS.CRC_ERR = true ∧ Counted (R.MRG.STAT.COUNT 12) 1 s.dev t.dev ∧ t.dev.mrg.inQ = s.dev.mrg.inQ)) ∧
  (∀ (x y : Nat) (b : MergedSet) (rest : List MergedSet) (ok ok2 : Bool) (s : State), s.dev.on R.MRG.CTL.EN = true →
    s.dev.heads none = [(x, y, .merged)] → s.dev.mrg.outQ = b :: rest →
    Completes (.componentRecord ⟨ok, ok2⟩) s (fun t =>
      (∃ more, t.dev.mrg.outQ = rest ++ more ∧ more.all MergedSet.forced = true) ∧ Counted R.MRG.NEXT_ID.ID 1 s.dev t.dev ∧ Counted (R.MRG.STAT.COUNT 2) 1 s.dev t.dev)) ∧
  (∀ (x y x' y' g g' : Nat) (r r' : CompRec) (rest rest' : List CompRec) (s : State), s.dev.on R.MRG.CTL.EN = true → g ≠ g' →
    s.dev.heads none = [(x, y, .gouge g), (x', y', .gouge g')] ∨ s.dev.heads none = [(x', y', .gouge g'), (x, y, .gouge g)] →
    firstHead (s.dev.heads none) = some (x, y, .gouge g) → (s.dev.gouS g).out = r :: rest → (s.dev.gouS g').out = r' :: rest' →
    r.strip < 136 → r'.strip < 136 → judge s.dev r = .taken → judge s.dev r' = .taken → r.kind = .contact → r'.kind = .contact →
    s.dev.mrg.inQ.length < 1023 →
    Completes (.componentRecord ⟨true, true⟩) s (fun t => t.dev.mrg.inQ = s.dev.mrg.inQ ++ [r, r'])) ∧
  (∀ (r : CompRec) (rest : List CompRec) (i : Nat) (n : Node) (s : State), s.dev.mrg.inQ = r :: rest → r.kind = .contact → r.strip < 136 →
    s.dev.nodeOf r.strip r.epoch r.label = some i → s.dev.node i = some n →
    (r.epoch = s.dev.get (R.MRG.STRIP_EPOCH.EPOCH r.strip) → r.epoch ≠ 0 →
      0 ≤ lsnDiff r.line (s.dev.get (R.MRG.STRIP_CUT.LSN r.strip))) →
    KMap.get (fun _ => (none : Option EdgeEnt)) s.dev.mrg.edge (edgeKey r.strip r.other r.line) = none →
    Completes .contact s (fun t =>
      t.dev.mrg.inQ = rest ∧ t.dev.edgeAt r.strip r.other r.line = some { line := r.line, epoch := r.epoch, node := i } ∧
      (t.dev.node i).map Node.set = some n.set ∧ Counted (R.MRG.STAT.COUNT 4) 1 s.dev t.dev ∧
      Frame [R.MRG.STAT.COUNT 4, R.MRG.NODES.COUNT, R.MRG.NODE_PEAK.PEAK] { s.dev with mrg := t.dev.mrg } s t)) ∧
  (∀ (r : CompRec) (rest : List CompRec) (i j : Nat) (x y : Node) (s : State), s.dev.mrg.inQ = r :: rest → r.kind = .merge →
    s.dev.nodeOf r.strip r.epoch r.label = some i → s.dev.nodeOf r.strip r.epoch r.other = some j → i ≠ j →
    s.dev.node i = some x → s.dev.node j = some y →
    Completes .aliasRecord s (fun t =>
      t.dev.mrg.inQ = rest ∧
      (∃ a b, t.dev.node i = some a ∧ t.dev.node j = some b ∧ a.set = x.set ∧ b.set = x.set ∧ b.isOpen = false ∧ b.empty = true ∧
        b.into = some i ∧ a.isOpen = x.isOpen ∧ a.edgeSub = x.edgeSub + y.edgeSub) ∧
      Counted (R.MRG.STAT.COUNT 5) 1 s.dev t.dev ∧
      Frame [R.MRG.STAT.COUNT 5, R.MRG.NODES.COUNT, R.MRG.NODE_PEAK.PEAK] { s.dev with mrg := t.dev.mrg } s t)) ∧
  (∀ (r : CompRec) (rest : List CompRec) (c : Comp) (i : Nat) (n : Node) (s : State), s.dev.mrg.inQ = r :: rest → r.kind = .part →
    r.comp = some c → s.dev.nodeOf r.strip r.epoch r.label = some i → s.dev.node i = some n → s.dev.mrg.paired = [] →
    Completes .partialRecord s (fun t =>
      t.dev.node i = some { n with isOpen := false, acc := some (accOf s.dev r c), early := c.first } ∧
      t.dev.mrg.inQ = rest ∧ Counted (R.MRG.STAT.COUNT 3) 1 s.dev t.dev ∧
      Frame [R.MRG.STAT.COUNT 3, R.MRG.NODES.COUNT, R.MRG.NODE_PEAK.PEAK] { s.dev with mrg := t.dev.mrg } s t)) ∧
  (∀ (b : Fin 136) (m need : Nat) (s : State),
    m = (match KMap.get (fun _ => (none : Option Nat)) s.dev.mrg.paired b.val with | some p => (p + 1) % 2 ^ 32 | none => 0) →
    need = (m + s.dev.conn) % 2 ^ 32 → b.val + 1 < s.dev.nstrips → s.dev.doneTo b.val need = true → s.dev.doneTo (b.val + 1) need = true →
    s.dev.contactWaits b.val need = false →
    Completes (.pairing b) s (fun t =>
      KMap.get (fun _ => (none : Option Nat)) t.dev.mrg.paired b.val = some m ∧ t.dev.get (R.MRG.STRIP_PAIRED.LSN b.val) = m ∧
      Frame [R.MRG.STRIP_PAIRED.LSN b.val, R.MRG.STAT.COUNT 6, R.MRG.STAT.COUNT 14, R.MRG.NODES.COUNT, R.MRG.NODE_PEAK.PEAK]
        { s.dev with mrg := t.dev.mrg } s t)) ∧
  (∀ (x y : EdgeEnt) (a b : Node) (d : Dev), d.node x.node = some a → d.node y.node = some b → x.node ≠ y.node → a.into = none →
    b.into = none →
    ∃ a' b', (joinPair (some x) (some y) true d).node x.node = some a' ∧ (joinPair (some x) (some y) true d).node y.node = some b' ∧
      a'.set = a.set ∧ b'.set = a.set ∧ a'.edgeSub = a.edgeSub + 1 ∧ b'.edgeSub = b.edgeSub + 1) ∧
  (∀ (k : Nat) (a : Acc) (s : State), s.dev.mrg.outQ.length < 256 → s.dev.sets.find? s.dev.completes = some k →
    combine (s.dev.mrg.splitSets.contains k) (s.dev.members k) = some a →
    Completes .setComplete s (fun t =>
      t.dev.mrg.outQ = s.dev.mrg.outQ ++ [{ acc := a, forced := false }] ∧ t.dev.members k = [] ∧
      Frame [R.MRG.NODES.COUNT, R.MRG.NODE_PEAK.PEAK] { s.dev with mrg := t.dev.mrg } s t)) ∧
  (∀ (strip : Fin 136) (s : State),
    s.dev.mrg.inQ.any (fun r => r.strip == strip.val && (r.epoch + 1) % 65536 == s.dev.get (R.MRG.STRIP_EPOCH.EPOCH strip.val)) = false →
    s.dev.gou.any (fun e =>
      e.2.out.any (fun r => r.strip == strip.val && (r.epoch + 1) % 65536 == s.dev.get (R.MRG.STRIP_EPOCH.EPOCH strip.val)) ||
      e.2.owed.any (fun r => r.strip == strip.val && (r.epoch + 1) % 65536 == s.dev.get (R.MRG.STRIP_EPOCH.EPOCH strip.val))) = false →
    Completes (.orphans strip) s (fun t =>
      (∀ i n, t.dev.node i = some n → n.strip = strip.val →
        (n.epoch + 1) % 65536 = s.dev.get (R.MRG.STRIP_EPOCH.EPOCH strip.val) → n.isOpen = false) ∧
      Frame [R.MRG.STAT.COUNT 10, R.MRG.NODES.COUNT, R.MRG.NODE_PEAK.PEAK] { s.dev with mrg := t.dev.mrg } s t))

/-- With no held object past its AGE, while the Carver runs and the network slot is valid: PATCH_FETCH of the head
request of a held object, within the grant of its DRAM user, makes a patch where no sample of its window is lost;
where one is, the object completes unscored with its cause counted; with the grant spent the request waits and TILES
is flagged; with an invalid slot the object completes unscored. PATCH_COMPUTE of the oldest patch gives the scores
of its network, whose blob overlaps no other one in use (R308). SCORES hands the held object on with them.
AGE_EXPIRY completes the oldest held object unscored at its age. VALIDATE starts a check, and VALIDATION_DONE leaves
VALID or the ERR code of R308. A self-test without a failing slice counts, and each failing slice is fenced.
BLOB_RESTORE loads the image's blob of a slot that an SRAM error took. -/
def Obligations.TheCarverScoresObjects : Prop :=
  (∀ (ch : List (Nat × Nat)) (r : CrvReq) (rest : List CrvReq) (s : State), s.dev.crv.queue = r :: rest →
    s.dev.crv.patches.length < 8 → s.dev.noneAged → s.dev.yields 4 = false → s.dev.held.any (fun h => h.id == r.obj.id) = true →
    s.dev.crvRuns = true → s.dev.on (R.CRV.NET_CTL.VALID r.net) = true →
    (s.dev.patchWindow s.mem r ch).all (fun row => row.all (fun p => !p.isLost)) = true →
    Completes (.patchFetch ch) s (fun t =>
      t.dev.crv.queue = rest ∧
      t.dev.crv.patches = s.dev.crv.patches ++
        [{ obj := r.obj, net := r.net, data := patchOf s.dev (s.dev.blob r.net) (s.dev.patchScale r) (s.dev.patchWindow s.mem r ch) }] ∧
      t.dev.held = s.dev.held ∧ t.dev.objQ = s.dev.objQ)) ∧
  (∀ (ch : List (Nat × Nat)) (r : CrvReq) (rest : List CrvReq) (o : ObjRec) (c : Nat) (s : State), s.dev.crv.queue = r :: rest →
    s.dev.crv.patches.length < 8 → s.dev.noneAged → s.dev.yields 4 = false → s.dev.held.find? (fun h => h.id == r.obj.id) = some o →
    s.dev.crvRuns = true → s.dev.on (R.CRV.NET_CTL.VALID r.net) = true →
    (s.dev.patchWindow s.mem r ch).flatten.find? SrcPx.isLost = some (.lost c) →
    Completes (.patchFetch ch) s (fun t =>
      t.dev.objQ = s.dev.objQ ++ [{ o with waiting := false, flags := o.flags ||| 1024, score := [0, 0, 0, 0], scores := [] }] ∧
      t.dev.held = s.dev.held.filter (fun x => x.id != r.obj.id) ∧ t.dev.crv.patches = s.dev.crv.patches ∧
      ((c = 4 ∨ c = 5) → Counted (R.CRV.STAT.COUNT c) 1 s.dev t.dev))) ∧
  (∀ (ch : List (Nat × Nat)) (r : CrvReq) (rest : List CrvReq) (s : State), s.dev.crv.queue = r :: rest →
    s.dev.crv.patches.length < 8 → s.dev.noneAged → s.dev.yields 4 = true →
    Completes (.patchFetch ch) s (fun t =>
      Raised R.TOP.DRAM_YIELD.SEQ [R.TOP.DRAM_YIELD.TILES] s.dev t.dev ∧
      Frame [R.TOP.DRAM_YIELD.SEQ, R.TOP.DRAM_YIELD.TILES] { s.dev with yielding := t.dev.yielding } s t)) ∧
  (∀ (ch : List (Nat × Nat)) (r : CrvReq) (rest : List CrvReq) (o : ObjRec) (s : State), s.dev.crv.queue = r :: rest →
    s.dev.crv.patches.length < 8 → s.dev.noneAged → s.dev.yields 4 = false → s.dev.held.find? (fun h => h.id == r.obj.id) = some o → s.dev.crvRuns = true →
    s.dev.on (R.CRV.NET_CTL.VALID r.net) = false →
    Completes (.patchFetch ch) s (fun t =>
      t.dev.objQ = s.dev.objQ ++ [{ o with waiting := false, flags := o.flags ||| 1024, score := [0, 0, 0, 0], scores := [] }] ∧
      t.dev.held = s.dev.held.filter (fun x => x.id != r.obj.id) ∧ Counted (R.CRV.STAT.COUNT 3) 1 s.dev t.dev)) ∧
  (∀ (p : CrvPatch) (rest : List CrvPatch) (s : State), s.dev.crv.patches = p :: rest → s.dev.held.any (fun h => h.id == p.obj.id) = true →
    s.dev.noneAged → s.dev.crvRuns = true → s.dev.on (R.CRV.NET_CTL.VALID p.net) = true → p.net < 4 → s.dev.blobsMeet = false →
    Completes .patchCompute s (fun t =>
      t.dev.crv.patches = rest ∧
      t.dev.crv.results = s.dev.crv.results ++ [{ id := p.obj.id, net := p.net,
                                                   clocks := s.dev.netClocks (s.dev.blob p.net) (s.dev.get R.CRV.SLICES.ACTIVE),
                                                   scores := s.dev.scoresOf p }] ∧
      (flag s.dev.crv.tainted p.net = false → s.dev.scoresOf p = runNet s.dev (s.dev.blob p.net) p.data) ∧
      (flag s.dev.crv.tainted p.net = true → (s.dev.scoresOf p).length = (s.dev.blob p.net).nScores))) ∧
  (∀ (r : CrvResult) (rest : List CrvResult) (o : ObjRec) (s : State), s.dev.crv.results = r :: rest →
    s.dev.noneAged → s.dev.held.find? (fun o => o.id == r.id) = some o →
    Completes .scores s (fun t =>
      t.dev.crv.results = rest ∧ t.dev.held = s.dev.held.filter (fun x => x.id != r.id) ∧
      (∃ q : ObjRec, t.dev.objQ = s.dev.objQ ++ [q] ∧ q.id = o.id ∧ q.scores = r.scores ∧ q.waiting = false ∧ q.flags = o.flags ∧
        (∀ i < 4, nth 0 q.score i = nth 0 r.scores (bits (s.dev.get (R.CRV.NET_SCORE.IDX r.net)) (4 * i) 4))) ∧
      Counted (R.CRV.STAT.COUNT 1) 1 s.dev t.dev ∧
      Frame [R.CRV.STAT.COUNT 1] { s.dev with crv := t.dev.crv, held := t.dev.held, objQ := t.dev.objQ } s t)) ∧
  (∀ (o h : ObjRec) (rest : List ObjRec) (e : Dev) (s : State), s.dev.held = o :: rest → e = reachNs o.handed (s.dev.get R.CRV.AGE.NS) s.dev →
    e.held.find? (fun x => x.id == o.id) = some h →
    Completes .ageExpiry s (fun t =>
      t.dev.objQ = e.objQ ++ [{ h with waiting := false, flags := h.flags ||| 1024, score := [0, 0, 0, 0], scores := [] }] ∧
      t.dev.held = e.held.filter (fun x => x.id != o.id) ∧ t.dev.crv.queue = e.crv.queue.filter (fun r => r.obj.id != o.id) ∧
      Counted (R.CRV.STAT.COUNT 6) 1 e t.dev)) ∧
  (∀ (n : Fin 4) (s : State), Completes (.validate n) s (fun t =>
    flag t.dev.crv.validating n.val = true ∧ Frame [] { s.dev with crv := t.dev.crv } s t)) ∧
  (∀ (n : Fin 4) (s : State), flag s.dev.crv.validating n.val = true → blobErr s.dev n.val = 0 →
    Completes (.validationDone n) s (fun t =>
      t.dev.on (R.CRV.NET_CTL.VALID n.val) = true ∧ t.dev.get (R.CRV.NET_CTL.ERR n.val) = 0 ∧
      flag t.dev.crv.validating n.val = false ∧
      Frame [R.CRV.NET_CTL.VALID n.val, R.CRV.NET_CTL.ERR n.val, R.CRV.NET_INFO.NLAYERS n.val, R.CRV.NET_INFO.NSCORES n.val,
        R.CRV.NET_INFO.CLOCKS n.val] { s.dev with crv := t.dev.crv } s t)) ∧
  (∀ (n : Fin 4) (s : State), flag s.dev.crv.validating n.val = true → blobErr s.dev n.val ≠ 0 →
    Completes (.validationDone n) s (fun t =>
      t.dev.on (R.CRV.NET_CTL.VALID n.val) = false ∧ t.dev.get (R.CRV.NET_CTL.ERR n.val) = blobErr s.dev n.val ∧
      Raised R.CRV.STATUS.SEQ [R.CRV.STATUS.NET_ERR] s.dev t.dev ∧
      Frame [R.CRV.NET_CTL.VALID n.val, R.CRV.NET_CTL.ERR n.val, R.CRV.STATUS.SEQ, R.CRV.STATUS.NET_ERR]
        { s.dev with crv := t.dev.crv } s t)) ∧
  (∀ (bad : BitVec 16) (s : State), s.dev.crvRuns = true →
    (∀ i : Fin 16, bad.getLsbD i.val = true → bit (s.dev.get R.CRV.SLICES.FENCED) i.val = true) →
    Completes (.carverSelfTest bad) s (fun t =>
      Counted R.CRV.ST_COUNT.COUNT 1 s.dev t.dev ∧ Frame [R.CRV.ST_COUNT.COUNT] s.dev s t)) ∧
  (∀ (bad : BitVec 16) (s : State), s.dev.crvRuns = true →
    (∃ i : Fin 16, bad.getLsbD i.val = true ∧ bit (s.dev.get R.CRV.SLICES.FENCED) i.val = false) →
    Completes (.carverSelfTest bad) s (fun t =>
      (∀ i : Fin 16, bad.getLsbD i.val = true → bit (t.dev.get R.CRV.SLICES.FENCED) i.val = true) ∧
      t.dev.on R.CRV.STATUS.ST_FAIL = true)) ∧
  (∀ (n : Fin 4) (x : Nat × Nat × List Byte) (s : State), s.dev.ras.coresDown = false → s.dev.on (R.CRV.NET_CTL.VALID n.val) = false →
    s.dev.get (R.CRV.NET_CTL.ERR n.val) = 5 →
    (blobsOf (s.dev.nvmMain.image (s.dev.get R.TOP.STATE.SLOT) (s.dev.slotTab.len (s.dev.get R.TOP.STATE.SLOT)))).find?
      (fun x => x.1 == n.val) = some x →
    Completes (.blobRestore n) s (fun t =>
      t = s.after (loadBlob x s.dev) ∧
      (∀ i, 4 * i + 4 ≤ x.2.2.length → num t.dev.crv.weights (x.2.1 / 4 + i) = fieldAt x.2.2 (4 * i) 4) ∧
      t.dev.get (R.CRV.NET_BASE.OFFSET n.val) = x.2.1 % 2 ^ (R.CRV.NET_BASE.OFFSET n.val).w ∧
      (t.dev.on (R.CRV.NET_CTL.VALID n.val) = true ↔ blobErr t.dev n.val = 0)))

/-- With the verdict unit on and no host error in the rules or the ejector map, VERDICT takes the oldest complete
object, counts it and its verdict, and puts its record into the object ring where that takes it; a reject without a
valve is counted as such; one valve of a segment that carries commands gets a fire command at its time. With such a
host error it stops; with the unit off it only takes the record. FIRE_OUT_PULSE starts the next pulse of a pin, from
its start on or at its encoder threshold, where the pin drives its primary function, else counts it;
FIRE_OUT_PULSE_END ends it. CANCEL_ALL empties the pending table and enters one cancel for every enabled node of
every segment or pair that carries commands. CANCEL_ABANDON frees the cancel sent first, 10 ms after that.
VRD_TABLE_RESTORE gives an entry lost to an SRAM error the image's words again, in its own bank only. -/
def Obligations.VerdictsAreGivenAndPulsesFire : Prop :=
  (∀ (objRoom tagRoom : Bool) (o : ObjRec) (rest : List ObjRec) (vb skips : Nat) (set : List (Valve × Int)) (clipped : Bool) (how : How) (s : State),
    s.dev.objQ = o :: rest → s.dev.on R.VRD.CTL.EN = true →
    ({ s.dev with objQ := rest } : Dev).judge' o s.dev.fresh = .ok (vb, skips, set, clipped, how) →
    Completes (.verdict objRoom tagRoom) s (fun t =>
      t.dev.objQ = rest ∧ Counted (R.VRD.STAT.COUNT 0) 1 s.dev t.dev ∧ Counted (R.VRD.STAT.COUNT (1 + vb % 4)) 1 s.dev t.dev ∧
      ((vb % 4 = 1 ∨ vb % 4 = 2) → set = [] → Counted (R.VRD.STAT.COUNT 6) 1 s.dev t.dev) ∧
      (objRoom = true → bit (s.dev.get R.MRG.ORING_CTL.VMASK) (vb % 4) = true → s.dev.ringOk (s.dev.get R.MRG.ORING_CTL.RGN) = true →
        Counted R.MRG.ORING_WR.COUNT 1 s.dev t.dev) ∧ t.dev.free = s.dev.free + 1)) ∧
  (∀ (objRoom tagRoom : Bool) (o : ObjRec) (rest : List ObjRec) (vb skips : Nat) (v : Valve) (delay : Int) (clipped : Bool) (how : How) (s : State),
    s.dev.objQ = o :: rest → s.dev.on R.VRD.CTL.EN = true →
    ({ s.dev with objQ := rest } : Dev).judge' o s.dev.fresh = .ok (vb, skips, [(v, delay)], clipped, how) → v.direct = false →
    s.dev.carriers (s.dev.lane' v.seg) ≠ [] → s.dev.vrd.pend.length < 16384 →
    (s.dev.get R.VRD.RETX_MIN.US : Int) * 65536000 ≤ s.dev.until' (fireAt o delay) →
    (s.dev.get R.VRD.LEAD.US : Int) * 65536000 ≤ s.dev.until' (fireAt o delay) →
    Completes (.verdict objRoom tagRoom) s (fun t =>
      t.dev.vrd.pend = s.dev.vrd.pend ++ [{ kind := 1, seg := s.dev.lane' v.seg, node := v.node, out := v.out,
                                            seq := (s.dev.segS (s.dev.lane' v.seg)).seq, dur := s.dev.fireDur o,
                                            time := fireAt o delay, obj := o.id, valve := v.index }] ∧
      Counted (R.VRD.STAT.COUNT 10) 1 s.dev t.dev)) ∧
  (∀ (objRoom tagRoom : Bool) (o : ObjRec) (rest : List ObjRec) (w : String) (s : State),
    s.dev.objQ = o :: rest → s.dev.on R.VRD.CTL.EN = true → ({ s.dev with objQ := rest } : Dev).judge' o s.dev.fresh = .error w →
    exec (.verdict objRoom tagRoom) s = .fault (.hostError w)) ∧
  (∀ (objRoom tagRoom : Bool) (o : ObjRec) (rest : List ObjRec) (s : State), s.dev.objQ = o :: rest → s.dev.on R.VRD.CTL.EN = false →
    Completes (.verdict objRoom tagRoom) s (fun t => t.dev.objQ = rest ∧ Frame [] { s.dev with objQ := rest } s t)) ∧
  (∀ (i : Fin 16) (p : Pulse) (e : Dev) (s : State), firstTimed s.dev (s.dev.pinQ i.val) = some p →
    e = reach (p.start * 65536) (setPinQ i.val ((s.dev.pinQ i.val).erase p) s.dev) → e.drivesPrimary (12 + i.val) = true →
    Completes (.fireOutPulse i false) s (fun t =>
      t.dev.out = .firePin i.val (e.pinLevel i.val true) e.dt :: e.out ∧
      (KMap.get (fun _ => (none : Option Nat)) t.dev.vrd.pinEnd i.val).isSome = true ∧
      Frame [] { e with vrd := t.dev.vrd, out := t.dev.out } s t)) ∧
  (∀ (i : Fin 16) (p : Pulse) (e : Dev) (s : State), firstTimed s.dev (s.dev.pinQ i.val) = some p →
    e = reach (p.start * 65536) (setPinQ i.val ((s.dev.pinQ i.val).erase p) s.dev) → e.drivesPrimary (12 + i.val) = false →
    Completes (.fireOutPulse i false) s (fun t => Counted (R.VRD.STAT.COUNT 14) 1 e t.dev ∧ Frame [R.VRD.STAT.COUNT 14] e s t)) ∧
  (∀ (i : Fin 16) (p : Pulse) (n x : Nat) (rest : List Pulse) (s : State), s.dev.pinQ i.val = p :: rest → p.sp = some (n, x) →
    s.dev.spReached n x = true → s.dev.drivesPrimary (12 + i.val) = true →
    Completes (.fireOutPulse i true) s (fun t =>
      t.dev.pinQ i.val = rest ∧ t.dev.out = .firePin i.val (s.dev.pinLevel i.val true) s.dev.dt :: s.dev.out ∧
      Frame [R.VRD.FO_STATUS.LEVEL i.val] { s.dev with vrd := t.dev.vrd, out := t.dev.out } s t)) ∧
  (∀ (i : Fin 16) (x : Nat) (s : State), KMap.get (fun _ => (none : Option Nat)) s.dev.vrd.pinEnd i.val = some x →
    Completes (.fireOutPulseEnd i) s (fun t =>
      t.dev.out = .firePin i.val ((reach x s.dev).pinLevel i.val false) (reach x s.dev).dt :: (reach x s.dev).out ∧
      KMap.get (fun _ => (none : Option Nat)) t.dev.vrd.pinEnd i.val = none ∧
      Frame [] { reach x s.dev with vrd := t.dev.vrd, out := t.dev.out } s t)) ∧
  (∀ s : State, Completes .cancelAll s (fun t =>
    (∀ c ∈ t.dev.vrd.pend, c.kind = 3) ∧
    (∀ k, k < (if s.dev.on R.TOP.PROFILE_ACT.T1S_MODE then 4 else 8) → ∀ n ∈ s.dev.nodesOf k,
      (t.dev.vrd.pend.filter (fun c => c.seg == k && c.node == n)).length = 1) ∧
    Frame [] { s.dev with vrd := t.dev.vrd } s t)) ∧
  (∀ (c : FireCmd) (x : Nat) (s : State), s.dev.vrd.pend = [c] → c.kind ≠ 1 → c.first = some x →
    Completes .cancelAbandon s (fun t => t.dev.vrd.pend = [] ∧ t.dev.dt = (reachNs x 10000000 s.dev).dt ∧
      Counted (R.T1S.STAT.COUNT (c.sent.getLastD c.seg) 6) 1 s.dev t.dev)) ∧
  (∀ (table : Fin 3) (index : Nat) (s : State), s.dev.ras.coresDown = false →
    s.dev.vrd.bad.contains { active := true, table := table.val, index } = true →
    Completes (.vrdTableRestore true table index) s (fun t =>
      (∀ w, w < vrdWords table.val → t.dev.actWord 10 (vrdKey table.val index + w) = s.dev.vrdImage table.val index w) ∧
      (∀ k, t.dev.shdWord 10 k = s.dev.shdWord 10 k) ∧ t.dev.vBad table.val index = false ∧
      Frame [] { s.dev with bank := t.dev.bank, vrd := t.dev.vrd } s t)) ∧
  (∀ (table : Fin 3) (index : Nat) (s : State), s.dev.ras.coresDown = false →
    s.dev.vrd.bad.contains { active := false, table := table.val, index } = true →
    Completes (.vrdTableRestore false table index) s (fun t =>
      (∀ w, w < vrdWords table.val → t.dev.shdWord 10 (vrdKey table.val index + w) = s.dev.vrdImage table.val index w) ∧
      (∀ k, t.dev.actWord 10 k = s.dev.actWord 10 k) ∧
      Frame [] { s.dev with bank := t.dev.bank, vrd := t.dev.vrd } s t))

/-- TRANSMIT_OPPORTUNITY of a segment in PLCA sends the beacon; a pending fire command that is in time, with no frame of
Segment Time owed, goes out in it, as in CSMA_TRANSMIT of a segment in CSMA. STATUS_FRAME of an enabled node with
its MAC, or the first one, which is learned, clears SILENT and frees every sent command that it acknowledges.
STRANGER flags and counts, and an Announce of another clock sets FOREIGN; SILENT flags; PHY_ERROR counts.
FOREIGN_BEACON moves a PLCA segment to CSMA, and CSMA_RETURN moves it back 10 ms after the last cause. SEGMENT_DOWN
takes the segment down; without a paired segment its commands are given up, with one that runs they stay. -/
def Obligations.SegmentsCarryCommands : Prop :=
  (∀ (k : Fin 8) (s : State), s.dev.get (R.T1S.SEG_STATUS.STATE k.val) = 1 → s.dev.get R.PWR.STATUS.STATE = 3 →
    Completes (.transmitOpportunity k) s (fun t =>
      t.dev.out = .beacon k.val :: s.dev.out ∧ (t.dev.segS k.val).beaconAt = some s.dev.dt ∧
      Frame [R.T1S.CYCLE.PEAK_US k.val, R.T1S.SEG_STATUS.SEQ k.val, R.T1S.SEG_STATUS.CYCLE_OVR k.val, R.T1S.STAT.COUNT k.val 7]
        { s.dev with vrd := t.dev.vrd, out := t.dev.out } s t)) ∧
  (∀ (k : Fin 8) (s : State), s.dev.get (R.T1S.SEG_STATUS.STATE k.val) = 1 → s.dev.vrd.pend = [] →
    (s.dev.segS k.val).followUp = none → (s.dev.segS k.val).respFu = [] → (s.dev.segS k.val).resp = [] →
    (s.dev.segS k.val).syncDue = false → (s.dev.segS k.val).annDue = false →
    Completes (.transmitOpportunity k) s (fun t => t.dev.out = .beacon k.val :: s.dev.out ∧ t.dev.vrd.pend = [])) ∧
  (∀ (k : Fin 8) (c : FireCmd) (s : State), s.dev.get (R.T1S.SEG_STATUS.STATE k.val) = 1 →
    s.dev.get R.PWR.STATUS.STATE ≠ 3 → s.dev.vrd.pend = [c] → s.dev.onSeg k.val c = true → c.kind = 1 → c.sent = [] →
    (s.dev.get R.VRD.RETX_MIN.US : Int) * 65536000 ≤ s.dev.until' c.time →
    (s.dev.segS k.val).followUp = none → (s.dev.segS k.val).respFu = [] → (s.dev.segS k.val).resp = [] →
    (s.dev.segS k.val).syncDue = false → (s.dev.segS k.val).annDue = false →
    Completes (.transmitOpportunity k) s (fun t =>
      (∃ f, t.dev.out.head? = some (.t1s k.val f)) ∧
      (∃ c' : FireCmd, t.dev.vrd.pend = [c'] ∧ c'.sent = [k.val] ∧ c'.first = some (c.first.getD s.dev.dt) ∧ c'.seq = c.seq ∧ c'.time = c.time) ∧
      Counted (R.T1S.STAT.COUNT k.val 1) 1 s.dev t.dev ∧ Counted (R.T1S.STAT.COUNT k.val 2) 1 s.dev t.dev)) ∧
  (∀ (k : Fin 8) (c : FireCmd) (s : State), s.dev.get (R.T1S.SEG_STATUS.STATE k.val) = 2 →
    s.dev.get R.PWR.STATUS.STATE ≠ 3 → s.dev.vrd.pend = [c] → s.dev.onSeg k.val c = true → c.kind = 1 → c.sent = [] →
    (s.dev.get R.VRD.RETX_MIN.US : Int) * 65536000 ≤ s.dev.until' c.time →
    (s.dev.segS k.val).followUp = none → (s.dev.segS k.val).respFu = [] → (s.dev.segS k.val).resp = [] →
    (s.dev.segS k.val).syncDue = false → (s.dev.segS k.val).annDue = false →
    Completes (.csmaTransmit k) s (fun t =>
      (∃ f, t.dev.out.head? = some (.t1s k.val f)) ∧
      (∃ c' : FireCmd, t.dev.vrd.pend = [c'] ∧ c'.sent = [k.val] ∧ c'.first = some (c.first.getD s.dev.dt) ∧ c'.seq = c.seq ∧ c'.time = c.time) ∧
      Counted (R.T1S.STAT.COUNT k.val 1) 1 s.dev t.dev ∧ Counted (R.T1S.STAT.COUNT k.val 2) 1 s.dev t.dev)) ∧
  (∀ (k : Fin 8) (src : BitVec 48) (p : List Byte) (s : State), s.dev.segUp k.val = true → 64 ≤ p.length → fieldAt p 0 1 = 0x47 →
    fieldAt p 1 1 = 0x81 → 1 ≤ fieldAt p 4 1 → fieldAt p 4 1 ≤ 31 → s.dev.on (R.T1S.NODE.EN k.val (fieldAt p 4 1)) = true →
    s.dev.get (R.T1S.NODE.MAC k.val (fieldAt p 4 1)) = 0 ∨ s.dev.get (R.T1S.NODE.MAC k.val (fieldAt p 4 1)) = src.toNat →
    Completes (.statusFrame k src p) s (fun t =>
      t.dev.on (R.T1S.NODE.SILENT k.val (fieldAt p 4 1)) = false ∧ t.dev.get (R.T1S.NODE.MAC k.val (fieldAt p 4 1)) = src.toNat ∧
      t.dev.get (R.T1S.NODE.ST_LOCKED k.val (fieldAt p 4 1)) = fieldAt p 6 1 % 2 ∧
      Counted (R.T1S.STAT.COUNT k.val 15) 1 s.dev t.dev ∧
      (∀ i, i < min 16 (fieldAt p 3 1) → ∀ c ∈ t.dev.vrd.pend, s.dev.onSeg k.val c = true → c.seq = fieldAt p (32 + 2 * i) 2 → c.sent = []) ∧
      (∀ c ∈ t.dev.vrd.pend, c ∈ s.dev.vrd.pend))) ∧
  (∀ (k : Fin 8) (src : BitVec 48) (s : State), s.dev.segUp k.val = true →
    Completes (.stranger k src false) s (fun t =>
      Raised (R.T1S.SEG_STATUS.SEQ k.val) [R.T1S.SEG_STATUS.STRANGER k.val] s.dev t.dev ∧
      Counted (R.T1S.STAT.COUNT k.val 12) 1 s.dev t.dev ∧
      Frame [R.T1S.SEG_STATUS.SEQ k.val, R.T1S.SEG_STATUS.STRANGER k.val, R.T1S.STAT.COUNT k.val 12]
        { s.dev with vrd := t.dev.vrd } s t)) ∧
  (∀ (k : Fin 8) (src : BitVec 48) (s : State), s.dev.segUp k.val = true → s.dev.on (R.TIM.SEG_CTL.EN k.val) = true →
    Completes (.stranger k src true) s (fun t =>
      Raised (R.TIM.SEG_STATUS.SEQ k.val) [R.TIM.SEG_STATUS.FOREIGN k.val] s.dev t.dev ∧ Counted (R.T1S.STAT.COUNT k.val 12) 1 s.dev t.dev)) ∧
  (∀ (k : Fin 8) (s : State), s.dev.get (R.T1S.SEG_STATUS.STATE k.val) = 1 →
    Completes (.foreignBeacon k false) s (fun t =>
      t.dev.get (R.T1S.SEG_STATUS.STATE k.val) = 2 ∧ (t.dev.segS k.val).causeAt = some s.dev.dt ∧
      Raised (R.T1S.SEG_STATUS.SEQ k.val) [R.T1S.SEG_STATUS.FOREIGN_BCN k.val] s.dev t.dev ∧
      Counted (R.T1S.STAT.COUNT k.val 13) 1 s.dev t.dev)) ∧
  (∀ (k : Fin 8) (s : State), s.dev.get (R.T1S.SEG_STATUS.STATE k.val) = 1 →
    Completes (.foreignBeacon k true) s (fun t =>
      t.dev.get (R.T1S.SEG_STATUS.STATE k.val) = 2 ∧ Counted (R.T1S.STAT.COUNT k.val 8) 1 s.dev t.dev)) ∧
  (∀ (k : Fin 8) (x : Nat) (s : State), s.dev.get (R.T1S.SEG_STATUS.STATE k.val) = 2 → (s.dev.segS k.val).causeAt = some x →
    Completes (.csmaReturn k) s (fun t =>
      t.dev.get (R.T1S.SEG_STATUS.STATE k.val) = 1 ∧
      Frame [R.T1S.SEG_STATUS.STATE k.val] { reachNs x 10000000 s.dev with vrd := t.dev.vrd } s t)) ∧
  (∀ (k : Fin 8) (s : State), s.dev.segUp k.val = true → s.dev.on R.TOP.PROFILE_ACT.T1S_MODE = false →
    Completes (.segmentDown k) s (fun t =>
      t.dev.get (R.T1S.SEG_STATUS.STATE k.val) = 3 ∧ (∀ c ∈ t.dev.vrd.pend, s.dev.onSeg k.val c = false))) ∧
  (∀ (k : Fin 8) (s : State), s.dev.segUp k.val = true → s.dev.on R.TOP.PROFILE_ACT.T1S_MODE = true → s.dev.segUp ((k.val + 4) % 8) = true →
    Completes (.segmentDown k) s (fun t => t.dev.get (R.T1S.SEG_STATUS.STATE k.val) = 3 ∧ t.dev.vrd.pend = s.dev.vrd.pend ∧
      Frame [R.T1S.SEG_STATUS.STATE k.val] s.dev s t)) ∧
  (∀ (k : Fin 8) (n : Fin 32) (s : State), s.dev.segUp k.val = true → n.val ≠ 0 → s.dev.on (R.T1S.NODE.EN k.val n.val) = true →
    s.dev.on (R.T1S.NODE.SILENT k.val n.val) = false →
    Completes (.silent k n) s (fun t =>
      t.dev.on (R.T1S.NODE.SILENT k.val n.val) = true ∧ t.dev.on (R.T1S.SEG_STATUS.SILENT k.val) = true)) ∧
  (∀ (k : Fin 8) (kind : Fin 4) (s : State), Completes (.phyError k kind) s (fun t =>
    Counted (R.T1S.STAT.COUNT k.val (8 + kind.val)) 1 s.dev t.dev ∧ Frame [R.T1S.STAT.COUNT k.val (8 + kind.val)] s.dev s t))

/-- For a write of 1 to 64 bytes within one granule that lies in DRAM, with nothing else outstanding: reading the same
place back gives the bytes, without poison, unless the granule is poisoned and the write is partial; then DRAM does
not change and the read is poisoned. Every byte outside the written ones, and the mark of every other granule, stay.
And two device addresses that the map sends to the same channel and channel-local address are equal (R362). -/
def Obligations.DramKeepsWhatIsWritten : Prop :=
  (∀ (a : Nat) (bs : List Byte) (d : Dev) (m : Mem), d.posted = [] → d.channels ≠ [] → a + bs.length ≤ d.dramEnd → bs ≠ [] →
    a % 64 + bs.length ≤ 64 → (m.mark (d.physKey a / 64) = .poison → bs.length = 64) →
    (dramWrite a bs d).dramRead m a bs.length = (bs, false)) ∧
  (∀ (a : Nat) (bs : List Byte) (d : Dev) (m : Mem), d.posted = [] → d.channels ≠ [] → a + bs.length ≤ d.dramEnd → bs ≠ [] →
    a % 64 + bs.length ≤ 64 → m.mark (d.physKey a / 64) = .poison → bs.length < 64 →
    (dramWrite a bs d).view m = m ∧ ((dramWrite a bs d).dramRead m a bs.length).2 = true) ∧
  (∀ (a : Nat) (bs : List Byte) (d : Dev) (m : Mem) (k : Nat), d.posted = [] → a % 64 + bs.length ≤ 64 →
    (k < d.physKey a ∨ d.physKey a + bs.length ≤ k → ((dramWrite a bs d).view m).byte k = m.byte k) ∧
    (k ≠ d.physKey a / 64 → ((dramWrite a bs d).view m).mark k = m.mark k)) ∧
  (∀ (a b : Nat) (d : Dev), d.channels ≠ [] → d.locate a = d.locate b → a = b)

/-- A request within one granule that exists: at the grant of a yielding user it is held for the window, and the user is
flagged in DRAM_YIELD. A clean write of a granule lands in DRAM, and stands in the write buffer. A clean read of a
written granule changes no byte of DRAM. A read with an uncorrectable error poisons the granule, and reports the
error with its address. WRITE_BATCH drains the buffer to 16 entries, or empties one that holds no more; PRECHARGE
closes an open row. -/
def Obligations.DramRequestsAreServed : Prop :=
  (∀ (u : Fin 6) (a : BitVec 37) (data : Option (List Byte)) (err : DramErr) (n : Nat) (s : State),
    n = (match data with | some bs => bs.length | none => 64 - a.toNat % 64) → s.dev.dramHas a.toNat n = true → n ≠ 0 → a.toNat % 64 + n ≤ 64 →
    s.dev.atGrant u.val 64 = true →
    Completes (.dramRequest u a data err) s (fun t =>
      flag t.dev.yielding u.val = true ∧ (u.val = 3 → Raised R.TOP.DRAM_YIELD.SEQ [R.TOP.DRAM_YIELD.HOST_IMG] s.dev t.dev) ∧
      (u.val = 4 → Raised R.TOP.DRAM_YIELD.SEQ [R.TOP.DRAM_YIELD.TILES] s.dev t.dev) ∧
      (u.val = 5 → Raised R.TOP.DRAM_YIELD.SEQ [R.TOP.DRAM_YIELD.RECORDER] s.dev t.dev) ∧
      Frame [R.TOP.DRAM_YIELD.SEQ, R.TOP.DRAM_YIELD.HOST_IMG, R.TOP.DRAM_YIELD.TILES, R.TOP.DRAM_YIELD.RECORDER]
        { s.dev with yielding := t.dev.yielding } s t)) ∧
  (∀ (u : Fin 6) (a : BitVec 37) (bs : List Byte) (s : State), s.dev.dramHas a.toNat bs.length = true → bs.length = 64 → a.toNat % 64 = 0 →
    s.dev.atGrant u.val 64 = false →
    Completes (.dramRequest u a (some bs) .clean) s (fun t =>
      num t.dev.ddr.meter u.val = num s.dev.ddr.meter u.val + 64 ∧
      (t.dev.ddrS (s.dev.locate a.toNat).1).wbuf.contains ((s.dev.locate a.toNat).2 / 64) = true ∧
      t.mem = (s.after (dramWrite a.toNat bs s.dev)).mem)) ∧
  (∀ (u : Fin 6) (a : BitVec 37) (s : State), s.settled → s.dev.dramHas a.toNat (64 - a.toNat % 64) = true → s.dev.atGrant u.val 64 = false →
    s.mem.mark (s.dev.physKey a.toNat / 64) = .written →
    Completes (.dramRequest u a none .clean) s (fun t =>
      num t.dev.ddr.meter u.val = num s.dev.ddr.meter u.val + 64 ∧
      Frame [R.DDR.CH_STATUS.STATE (s.dev.locate a.toNat).1, R.DDR.STAT.COUNT (s.dev.locate a.toNat).1 8,
        R.DDR.STAT.COUNT (s.dev.locate a.toNat).1 9, R.DDR.STAT.COUNT (s.dev.locate a.toNat).1 10, R.DDR.STAT.COUNT (s.dev.locate a.toNat).1 11]
        { s.dev with ddr := t.dev.ddr } s t)) ∧
  (∀ (u : Fin 6) (a : BitVec 37) (syn : BitVec 16) (s : State), s.settled → s.dev.dramHas a.toNat (64 - a.toNat % 64) = true →
    s.dev.atGrant u.val 64 = false → s.mem.mark (s.dev.physKey a.toNat / 64) = .written → s.dev.on R.DDR.RET_CTL.AUTO = false →
    Completes (.dramRequest u a none (.uncorrectable syn)) s (fun t =>
      t.dev.on R.DDR.STATUS.UE = true ∧ t.dev.get R.DDR.UE_ADDR.A = a.toNat ∧ t.dev.get R.DDR.UE_LOC.CH = (s.dev.locate a.toNat).1 ∧
      t.mem.mark (s.dev.physKey a.toNat / 64) = .poison)) ∧
  (∀ (ch : Fin 4) (s : State), Completes (.writeBatch ch) s (fun t =>
    (t.dev.ddrS ch.val).wbuf.length ≤ 16 ∧ ((s.dev.ddrS ch.val).wbuf.length ≤ 16 → (t.dev.ddrS ch.val).wbuf = []) ∧
    (∀ g ∈ (t.dev.ddrS ch.val).wbuf, g ∈ (s.dev.ddrS ch.val).wbuf) ∧
    Frame [R.DDR.STAT.COUNT ch.val 9, R.DDR.STAT.COUNT ch.val 10, R.DDR.STAT.COUNT ch.val 11] { s.dev with ddr := t.dev.ddr } s t)) ∧
  (∀ (ch : Fin 4) (b : Fin 128) (r : Nat) (e : Dev) (s : State), (s.dev.bankAt ch.val b.val).row = some r →
    e = reach (((s.dev.bankAt ch.val b.val).hitAt + cdiv (256 * 2000 * 65536) s.dev.dramRate) % 2 ^ 64) s.dev →
    Completes (.precharge ch b) s (fun t =>
      (t.dev.bankAt ch.val b.val).row = none ∧ (t.dev.bankAt ch.val b.val).pred = (e.bankAt ch.val b.val).pred ∧
      Frame [] { e with ddr := t.dev.ddr } s t))

/-- For a channel in service and awake: REFSB postpones the refresh of a busy bank up to four times, else closes the
banks of its index; PHY_UPDATE_WINDOW, PERIOD_US after the one before, closes every bank and settles the postponed
refreshes; SELF_REFRESH_ENTRY after the idle time enters self-refresh, or counts the cancelled entry; MR4_READ, 32
ms after the rank's read before, applies the more demanding rate; DQS_OSCILLATOR, OSC_MS after the one before, notes
a change at or above the threshold, and a failure is a channel fault; PATROL_SCRUB moves to the next granule, and a
new pass starts HOURS after the one before. REMAP_ENTRY_ENABLE puts the copied row's entry in force and records the
repair. DRAM_PHY_FAULT retires the channel with AUTO set, waits for the cores while they are down, and only makes a
log entry with AUTO clear. -/
def Obligations.ChannelsAreMaintained : Prop :=
  (∀ (ch : Fin 4) (s : State), s.dev.chRuns ch.val = true → num (s.dev.ddrS ch.val).owed (s.dev.ddrS ch.val).refIdx < 4 →
    Completes (.refsb ch true) s (fun t =>
      num (t.dev.ddrS ch.val).owed (s.dev.ddrS ch.val).refIdx = num (s.dev.ddrS ch.val).owed (s.dev.ddrS ch.val).refIdx + 1 ∧
      (t.dev.ddrS ch.val).refIdx = ((s.dev.ddrS ch.val).refIdx + 1) % s.dev.bankIdx ∧
      Frame [] { s.dev with ddr := t.dev.ddr } s t)) ∧
  (∀ (ch : Fin 4) (busy : Bool) (s : State), s.dev.chRuns ch.val = true →
    busy = false ∨ 4 ≤ num (s.dev.ddrS ch.val).owed (s.dev.ddrS ch.val).refIdx →
    Completes (.refsb ch busy) s (fun t =>
      num (t.dev.ddrS ch.val).owed (s.dev.ddrS ch.val).refIdx = 0 ∧
      (∀ k, k < 128 → k % 4 = (s.dev.ddrS ch.val).refIdx → (t.dev.bankAt ch.val k).row = none) ∧
      Frame [] { s.dev with ddr := t.dev.ddr } s t)) ∧
  (∀ (ch : Fin 4) (s : State), s.dev.chRuns ch.val = true →
    Completes (.phyUpdateWindow ch) s (fun t =>
      (t.dev.ddrS ch.val).updAt = (reachNs (s.dev.ddrS ch.val).updAt (1000 * s.dev.get R.DDR.PHY_UPD.PERIOD_US) s.dev).dt ∧
      (t.dev.ddrS ch.val).owed = [] ∧ (∀ k, k < 128 → (t.dev.bankAt ch.val k).row = none) ∧
      (∀ k, (KMap.get (fun _ => (0 : Int)) (t.dev.ddrS ch.val).dqs k).natAbs ≤
        (KMap.get (fun _ => (0 : Int)) (s.dev.ddrS ch.val).dqs k).natAbs))) ∧
  (∀ (ch : Fin 4) (cancel : Bool) (e : Dev) (s : State), s.dev.chRuns ch.val = true → s.dev.on R.DDR.SR_CTL.EN = true →
    (s.dev.ddrS ch.val).wbuf = [] → (s.dev.ddrS ch.val).owed = [] →
    e = reachNs (s.dev.ddrS ch.val).busyAt (s.dev.get R.DDR.SR_CTL.IDLE_NS) s.dev →
    Completes (.selfRefreshEntry ch cancel) s (fun t =>
      (cancel = false → t.dev.get (R.DDR.CH_STATUS.STATE ch.val) = 3 ∧ Counted (R.DDR.STAT.COUNT ch.val 6) 1 e t.dev) ∧
      (cancel = true → t.dev.get (R.DDR.CH_STATUS.STATE ch.val) = e.get (R.DDR.CH_STATUS.STATE ch.val) ∧
        Counted (R.DDR.STAT.COUNT ch.val 7) 1 e t.dev) ∧
      Frame [R.DDR.CH_STATUS.STATE ch.val, R.DDR.STAT.COUNT ch.val 6, R.DDR.STAT.COUNT ch.val 7] { e with ddr := t.dev.ddr } s t)) ∧
  (∀ (ch : Fin 4) (rank : Fin 2) (fast : Bool) (e : Dev) (s : State), bit (s.dev.get R.DDR.CAP.ACTIVE) ch.val = true →
    e = reachNs (num (s.dev.ddrS ch.val).mr4At rank.val) 32000000 s.dev → num (s.dev.ddrS ch.val).mr4 (1 - rank.val) ≤ 1 →
    Completes (.mr4Read ch rank fast) s (fun t =>
      t.dev.get (R.DDR.CH_STATUS.RATE_MR4 ch.val) = max (b2n fast) (num (s.dev.ddrS ch.val).mr4 (1 - rank.val)) ∧
      Frame [R.DDR.CH_STATUS.RATE_MR4 ch.val] { e with ddr := t.dev.ddr } s t)) ∧
  (∀ (ch : Fin 4) (x : Int) (e : Dev) (s : State), s.dev.chRuns ch.val = true →
    e = reachNs (s.dev.ddrS ch.val).oscAt (1000000 * s.dev.get R.DDR.RETRAIN.OSC_MS) s.dev →
    Completes (.dqsOscillator ch [x] false) s (fun t =>
      KMap.get (fun _ => (0 : Int)) (t.dev.ddrS ch.val).dqs 0 =
        (if s.dev.get R.DDR.RETRAIN.THR ≤ x.natAbs then x else KMap.get (fun _ => (0 : Int)) (s.dev.ddrS ch.val).dqs 0) ∧
      Frame [] { e with ddr := t.dev.ddr } s t)) ∧
  (∀ (ch : Fin 4) (change : List Int) (e : Dev) (s : State), s.dev.chRuns ch.val = true →
    e = reachNs (s.dev.ddrS ch.val).oscAt (1000000 * s.dev.get R.DDR.RETRAIN.OSC_MS) s.dev → bit (s.dev.get R.DDR.CAP.ACTIVE) ch.val = true →
    s.dev.on R.DDR.RET_CTL.AUTO = false →
    Completes (.dqsOscillator ch change true) s (fun t =>
      Raised R.DDR.STATUS.SEQ [R.DDR.STATUS.RETRAIN_FAIL] s.dev t.dev ∧
      Frame [R.DDR.STATUS.SEQ, R.DDR.STATUS.RETRAIN_FAIL] { e with ddr := t.dev.ddr } s t)) ∧
  (∀ (ch : Fin 4) (next : Nat) (e : Dev) (s : State), next = ((s.dev.ddrS ch.val).patrol + 1) % max 1 (s.dev.chanMib * 16384) →
    e = (if next = 0 then reachNs (s.dev.ddrS ch.val).passAt (3600000000000 * s.dev.get R.DDR.SCRUB.HOURS) s.dev else s.dev) → s.settled → s.dev.chRuns ch.val = true → s.dev.on R.DDR.SCRUB.EN = true →
    s.mem.mark (ch.val * 2 ^ 36 / 64 + (s.dev.ddrS ch.val).patrol) ≠ .poison →
    Completes (.patrolScrub ch .clean) s (fun t =>
      (t.dev.ddrS ch.val).patrol = next ∧ Frame [] { e with ddr := t.dev.ddr } s t)) ∧
  (∀ (ch : Fin 4) (e : Nat) (rest : List Nat) (s : State), (s.dev.ddrS ch.val).copying = e :: rest → e < 64 →
    Completes (.remapEntryEnable ch) s (fun t =>
      t.dev.on (R.DDR.REMAP.EN ch.val e) = true ∧ (t.dev.ddrS ch.val).copying = rest ∧
      Counted (R.DDR.CH_STATUS.REMAPS ch.val) 1 s.dev t.dev ∧ Counted (R.DDR.STAT.COUNT ch.val 4) 1 s.dev t.dev ∧
      (∃ r : RepEntry, t.dev.ras.repairs = s.dev.ras.repairs ++ [r] ∧ r.kind = 5 ∧ r.inst = ch.val))) ∧
  (∀ (ch : Fin 4) (s : State), bit (s.dev.get R.DDR.CAP.ACTIVE) ch.val = true → s.dev.on R.DDR.RET_CTL.AUTO = false →
    Completes (.dramPhyFault ch) s (fun t => Frame [] s.dev s t)) ∧
  (∀ (ch : Fin 4) (s : State), bit (s.dev.get R.DDR.CAP.ACTIVE) ch.val = true → s.dev.on R.DDR.RET_CTL.AUTO = true →
    s.dev.ras.coresDown = true →
    Completes (.dramPhyFault ch) s (fun t => ch.val ∈ t.dev.ddr.retireQ ∧ Frame [] { s.dev with ddr := t.dev.ddr } s t)) ∧
  (∀ (ch : Fin 4) (s : State), bit (s.dev.get R.DDR.CAP.ACTIVE) ch.val = true → s.dev.on R.DDR.RET_CTL.AUTO = true →
    s.dev.ras.coresDown = false → s.dev.nstrips ≤ 136 → (∀ st, st < 136 → ∀ g, s.dev.placed st = some g → g < 136) →
    Completes (.dramPhyFault ch) s (fun t =>
      t.dev.get (R.DDR.CH_STATUS.STATE ch.val) = 4 ∧ bit (t.dev.get R.DDR.CAP.ACTIVE) ch.val = false ∧ t.dev.on R.DDR.STATUS.RETIRED = true))

/-- Once requests are served, a BAR2 write that ends within DRAM and meets no region of the data path lands there and is
counted; a read answers the bytes, or a completion marked poisoned where it meets poisoned data; both count as DRAM
user 3; one beyond its end is a bus error of kind 7. LINK_UP shows speed and width and raises UP once the endpoint
trains. LINK_DOWN clears UP, and moves every channel with a host request due to LINK_WAIT (whose CAUSE 7 is the
model's reading, log entry 21). A configuration request gets Retry Status before step 7; then a read answers the
device identity, and requests set Bus Master Enable, MSI-X Enable and PTM. A vector that owes a message, with no
holdoff under way, sends it with its table entry's address and data, or sets its pending bit while it is masked. -/
def Obligations.HostReachesDramAndTheLink : Prop :=
  (∀ (off : BitVec 28) (bs : List Byte) (n : Nat) (s : State), s.dev.aon.off = false → s.dev.served = true →
    s.dev.get R.HST.APER_BASE.BASE * 2 ^ 20 + off.toNat + bs.length ≤ s.dev.dramEnd →
    s.dev.dataPath (s.dev.get R.HST.APER_BASE.BASE * 2 ^ 20 + off.toNat) bs.length = false →
    Completes (.bar2Access off (some bs) n false) s (fun t =>
      t.mem = (s.after (dramWrite (s.dev.get R.HST.APER_BASE.BASE * 2 ^ 20 + off.toNat) bs s.dev)).mem ∧
      Counted (R.HST.STAT.COUNT 3) 1 s.dev t.dev ∧ num t.dev.ddr.meter 3 = num s.dev.ddr.meter 3 + bs.length ∧ t.dev.out = s.dev.out)) ∧
  (∀ (off : BitVec 28) (n : Nat) (err : Bool) (bs : List Byte) (s : State), s.dev.aon.off = false → s.dev.served = true →
    s.dev.get R.HST.APER_BASE.BASE * 2 ^ 20 + off.toNat + n ≤ s.dev.dramEnd →
    s.dev.dramRead s.mem (s.dev.get R.HST.APER_BASE.BASE * 2 ^ 20 + off.toNat) n = (bs, false) →
    Completes (.bar2Access off none n err) s (fun t =>
      t.dev.out = .readDone 1 off.toNat n (leVal bs) false :: s.dev.out ∧
      num t.dev.ddr.meter 3 = num s.dev.ddr.meter 3 + n ∧
      Frame [R.HST.STAT.COUNT 2] { s.dev with out := t.dev.out, ddr := t.dev.ddr } s t)) ∧
  (∀ (off : BitVec 28) (n : Nat) (err : Bool) (s : State), s.dev.aon.off = false → s.dev.served = true →
    s.dev.get R.HST.APER_BASE.BASE * 2 ^ 20 + off.toNat + n ≤ s.dev.dramEnd →
    (s.dev.dramRead s.mem (s.dev.get R.HST.APER_BASE.BASE * 2 ^ 20 + off.toNat) n).2 = true →
    Completes (.bar2Access off none n err) s (fun t =>
      (∃ v : Nat, t.dev.out = .readDone 1 off.toNat n v true :: s.dev.out) ∧
      num t.dev.ddr.meter 3 = num s.dev.ddr.meter 3 + n ∧
      Frame [R.HST.STAT.COUNT 2] { s.dev with out := t.dev.out, ddr := t.dev.ddr } s t)) ∧
  (∀ (off : BitVec 28) (n : Nat) (err : Bool) (s : State), s.dev.aon.off = false → s.dev.served = true →
    s.dev.dramEnd < s.dev.get R.HST.APER_BASE.BASE * 2 ^ 20 + off.toNat + n →
    Completes (.bar2Access off none n err) s (fun t =>
      t.dev.out = .readAbort 1 off.toNat :: s.dev.out ∧ t.dev.get R.TOP.BUSERR.KIND = 7 ∧ t.dev.get R.TOP.BUSERR_ADDR.BAR = 1 ∧
      t.dev.get R.TOP.BUSERR_ADDR.ADDR = off.toNat % 2 ^ R.TOP.BUSERR_ADDR.ADDR.w ∧ Raised R.TOP.BUSERR.SEQ [] s.dev t.dev)) ∧
  (∀ (speed : Fin 4) (width : BitVec 4) (s : State), s.dev.on R.HST.LINK.UP = false → s.dev.aon.trains = true →
    Completes (.linkUp speed width) s (fun t =>
      t.dev.on R.HST.LINK.UP = true ∧ t.dev.get R.HST.LINK.SPEED = speed.val + 1 ∧ t.dev.get R.HST.LINK.WIDTH = width.toNat ∧
      Raised R.HST.STATUS.SEQ [R.HST.STATUS.UP] s.dev t.dev ∧
      Frame [R.HST.LINK.UP, R.HST.LINK.SPEED, R.HST.LINK.WIDTH, R.HST.STATUS.SEQ, R.HST.STATUS.UP] s.dev s t)) ∧
  (∀ s : State, s.dev.on R.HST.LINK.UP = true →
    Completes (.linkDown false) s (fun t =>
      t.dev.on R.HST.LINK.UP = false ∧ t.dev.on R.HST.LINK.BME = false ∧ t.dev.on R.HST.LINK.MSIX_EN = false ∧ t.dev.vecOwed = [] ∧
      Raised R.HST.STATUS.SEQ [R.HST.STATUS.DOWN] s.dev t.dev ∧ Counted (R.HST.STAT.COUNT 6) 1 s.dev t.dev ∧
      (∀ c : Fin 32, s.dev.hostDue c.val = true → t.dev.chState c.val = 5 ∧ t.dev.get (R.DMA.CH_STATUS.CAUSE c.val) = 7) ∧
      (∀ c : Fin 32, s.dev.hostDue c.val = false → t.dev.chState c.val = s.dev.chState c.val) ∧ t.mem = (s.after s.dev).mem)) ∧
  (∀ s : State, s.dev.on R.HST.LINK.UP = true → s.dev.on R.HST.LINK.BME = true →
    Completes (.linkDown true) s (fun t =>
      t.dev.on R.HST.LINK.UP = true ∧ t.dev.on R.HST.LINK.BME = false ∧
      (∀ c : Fin 32, s.dev.hostDue c.val = true → t.dev.chState c.val = 5 ∧ t.dev.get (R.DMA.CH_STATUS.CAUSE c.val) = 7))) ∧
  (∀ (r : CfgReq) (s : State), s.dev.aon.trains = true → s.dev.served = false →
    Completes (.configurationRequest r) s (fun t =>
      t.dev.out = .cfgRetry (cfgOff r) :: s.dev.out ∧ Frame [] { s.dev with out := t.dev.out } s t)) ∧
  (∀ (off : BitVec 12) (s : State), s.dev.aon.trains = true → s.dev.served = true →
    Completes (.configurationRequest (.read off)) s (fun t =>
      (∃ v, t.dev.out = .cfgDone off.toNat v :: s.dev.out ∧ (off.toNat = 0 → v / 65536 = 0x1248) ∧ (off.toNat = 8 → v / 256 = 0x118000)) ∧
      Frame [] { s.dev with out := t.dev.out, free := s.dev.free + 1 } s t)) ∧
  (∀ (en mask on : Bool) (s : State), s.dev.aon.trains = true → s.dev.served = true →
    Completes (.configurationRequest (.busMaster true)) s (fun t => t.dev.on R.HST.LINK.BME = true) ∧
    Completes (.configurationRequest (.msix en mask)) s (fun t => t.dev.on R.HST.LINK.MSIX_EN = en ∧ t.dev.dma.fmask = mask) ∧
    Completes (.configurationRequest (.ptm on)) s (fun t => t.dev.tim.ptmOn = on)) ∧
  (∀ (v : Fin 64) (s : State), flag s.dev.vecOwed v.val = true → s.dev.hostOk = true → s.dev.on R.HST.LINK.MSIX_EN = true →
    s.dev.get (R.HST.VMOD.HOLDOFF_US v.val) = 0 ∨ KMap.get (fun _ => (none : Option Nat)) s.dev.dma.sentAt v.val = none →
    (bit (s.dev.msixWord (4 * v.val + 3)) 0 = false → s.dev.dma.fmask = false →
      Completes (.msixMessage v) s (fun t =>
        t.dev.out = .msix v.val (s.dev.msixWord (4 * v.val) + 2 ^ 32 * s.dev.msixWord (4 * v.val + 1)) (s.dev.msixWord (4 * v.val + 2)) :: s.dev.out ∧
        Counted (R.HST.STAT.COUNT 0) 1 s.dev t.dev ∧ (s.dev.perf = [] → flag t.dev.vecOwed v.val = false))) ∧
    (bit (s.dev.msixWord (4 * v.val + 3)) 0 = true → Completes (.msixMessage v) s (fun t =>
        t.dev.out = s.dev.out ∧ flag t.dev.dma.pba v.val = true ∧ (s.dev.perf = [] → flag t.dev.vecOwed v.val = false))))

/-- TAIL posts a count, and an idle ring channel with work runs. DESCRIPTOR_FETCH takes the next posted descriptor, or
notes that OWN = 0 and counts it. DESCRIPTOR_COMPLETE of a copy within device DRAM moves the bytes, writes the
descriptor back, moves HEAD on and raises done when it is asked; a poisoned source halts the channel with cause 4,
and a response that is no longer awaited is dropped and counted. REPORT_BATCH forwards a full batch from its ring as
far as the host ring has room, moves its read and write counts and raises done, within the pace of R384; without
room it waits. -/
def Obligations.RingsAndReportsMoveData : Prop :=
  (∀ (c : Fin 32) (n : BitVec 32) (s : State), Completes (.tail c n) s (fun t => t.dev.get (R.DMA.CH_TAIL.COUNT c.val) = n.toNat ∧
    (s.dev.chOn c.val = true → s.dev.chMode c.val = 0 → s.dev.chState c.val = 1 → s.dev.get (R.DMA.CH_HEAD.COUNT c.val) ≠ n.toNat →
      (s.dev.chS c.val).haltReq = false → t.dev.chState c.val = 2) ∧
    (s.dev.chState c.val ≠ 1 → t.dev.chState c.val = s.dev.chState c.val))) ∧
  (∀ (c : Fin 32) (i : Nat) (host b : List Byte) (s : State), s.dev.chFree c.val → s.dev.nextDesc c.val = some i →
    (s.dev.get (R.DMA.CH_CTL.FSPACE c.val) = 0 ∧ s.dev.hostOk = true ∧ host.length = 32 ∧ b = host) ∨
      (s.dev.get (R.DMA.CH_CTL.FSPACE c.val) = 1 ∧ s.dev.dramRead s.mem (s.dev.descAddr c.val i) 32 = (b, false)) →
    Completes (.descriptorFetch c host) s (fun t =>
      (bit (fieldAt b 20 4) 31 = true → t.dev.chState c.val = 2 ∧ (t.dev.chS c.val).fetched = (s.dev.chS c.val).fetched ++
        [{ index := i, src := fieldAt b 0 8, dst := fieldAt b 8 8, len := fieldAt b 16 4 % 2 ^ 24, ctl := fieldAt b 20 4 }]) ∧
      (bit (fieldAt b 20 4) 31 = false → (t.dev.chS c.val).noOwn = true ∧ (t.dev.chS c.val).fetched = (s.dev.chS c.val).fetched ∧
        Counted (R.DMA.STAT.COUNT c.val 5) 1 s.dev t.dev ∧ ((s.dev.chS c.val).fetched = [] → t.dev.chState c.val = 1)))) ∧
  (∀ (c : Fin 32) (i : Nat) (host : List Byte) (s : State), s.dev.chFree c.val → s.dev.nextDesc c.val = some i → s.dev.get (R.DMA.CH_CTL.FSPACE c.val) = 0 →
    s.dev.hostOk = false → Completes (.descriptorFetch c host) s (fun t => t.dev.chState c.val = 5 ∧
      Frame [R.DMA.CH_STATUS.STATE c.val, R.DMA.CH_STATUS.CAUSE c.val] s.dev s t)) ∧
  (∀ (c : Fin 32) (x : Desc) (rest : List Desc) (host bs : List Byte) (s : State), s.dev.ringCopies c.val x rest →
    s.dev.dramRead s.mem x.src x.len = (bs, false) →
    Completes (.descriptorComplete c ⟨.present, host⟩) s (fun t =>
      t.mem = (s.after (dramWrite (s.dev.descAddr c.val x.index + 16)
        (leBytes 4 x.len ++ leBytes 4 (x.ctl % 2 ^ 31) ++ leBytes 8 0) (dramWrite x.dst bs s.dev))).mem ∧
      t.dev.get (R.DMA.CH_HEAD.COUNT c.val) = (x.index + 1) % 2 ^ 32 ∧ (t.dev.chS c.val).fetched = rest ∧
      Counted (R.DMA.STAT.COUNT c.val 0) 1 s.dev t.dev ∧
      (bit x.ctl 5 = true → Raised (R.DMA.CH_STATUS.SEQ c.val) [R.DMA.CH_STATUS.DONE c.val] s.dev t.dev))) ∧
  (∀ (c : Fin 32) (x : Desc) (rest : List Desc) (host : List Byte) (s : State), s.dev.ringCopies c.val x rest →
    (s.dev.dramRead s.mem x.src x.len).2 = true →
    Completes (.descriptorComplete c ⟨.present, host⟩) s (fun t =>
      t.dev.chState c.val = 4 ∧ t.dev.get (R.DMA.CH_STATUS.CAUSE c.val) = 4 ∧
      Raised (R.DMA.CH_STATUS.SEQ c.val) [R.DMA.CH_STATUS.HALTED c.val] s.dev t.dev ∧
      t.dev.get (R.DMA.CH_HEAD.COUNT c.val) = (x.index + 1) % 2 ^ 32)) ∧
  (∀ (c : Fin 32) (host : List Byte) (s : State), s.dev.chFree c.val → (s.dev.chS c.val).late ≠ 0 →
    Completes (.descriptorComplete c ⟨.lateHost, host⟩) s (fun t =>
      (t.dev.chS c.val).late + 1 = (s.dev.chS c.val).late ∧ Counted (R.DMA.STAT.COUNT c.val 3) 1 s.dev t.dev ∧
      Counted (R.HST.STAT.COUNT 5) 1 s.dev t.dev ∧ (t.dev.chS c.val).fetched = (s.dev.chS c.val).fetched ∧
      Frame [R.DMA.STAT.COUNT c.val 3, R.HST.STAT.COUNT 5] { s.dev with dma := t.dev.dma } s t)) ∧
  (∀ (c : Fin 32) (ring rgn size w unread used k : Nat) (s : State), s.dev.chFree c.val → s.dev.ddr.reports < s.dev.reportPace → s.dev.chMode c.val = 2 → s.dev.chState c.val = 2 → s.dev.sliceOk c.val = true →
    s.dev.hostOk = true → s.dev.rptSource c.val = some (ring, rgn, size, w) →
    unread = (w + 2 ^ 32 - s.dev.get (R.DMA.CH_RPT_DRD.COUNT c.val)) % 2 ^ 32 → max 1 (s.dev.get (R.DMA.CH_RPT_CTL.BATCH c.val)) ≤ unread →
    unread < (s.dev.region rgn).2 / size →
    used = (s.dev.get (R.DMA.CH_RPT_HWR.COUNT c.val) + 2 ^ 32 - s.dev.get (R.DMA.CH_RPT_HRD.COUNT c.val)) % 2 ^ 32 →
    k = min (max 1 (s.dev.get (R.DMA.CH_RPT_CTL.BATCH c.val))) (2 ^ s.dev.get (R.DMA.CH_RING.LOG2 c.val) - used) →
    (k = 0 → Completes (.reportBatch c) s (fun t => t.dev.chState c.val = 3 ∧ Frame [R.DMA.CH_STATUS.STATE c.val] s.dev s t)) ∧
    (k ≠ 0 → (∀ i, i < k → (s.dev.dramRead s.mem ((s.dev.region rgn).1 +
        size * ((s.dev.get (R.DMA.CH_RPT_DRD.COUNT c.val) % 2 ^ 32 + i) % 2 ^ 32 % ((s.dev.region rgn).2 / size))) size).2 = false) →
      Completes (.reportBatch c) s (fun t =>
        t.dev.get (R.DMA.CH_RPT_DRD.COUNT c.val) = (s.dev.get (R.DMA.CH_RPT_DRD.COUNT c.val) + k) % 2 ^ 32 ∧
        t.dev.get (R.DMA.CH_RPT_HWR.COUNT c.val) = (s.dev.get (R.DMA.CH_RPT_HWR.COUNT c.val) + k) % 2 ^ 32 ∧
        Raised (R.DMA.CH_STATUS.SEQ c.val) [R.DMA.CH_STATUS.DONE c.val] s.dev t.dev ∧ t.dev.chState c.val = 2 ∧
        t.mem = (s.after s.dev).mem)))

/-- DMA_START of an enabled program channel sets PC to FBASE and runs. At a valid instruction in device DRAM: MOVE
copies between DRAM addresses, elsewhere than into the instructions fetched ahead, and moves its addresses on; LOOP
counts its register down and branches until it is 0; WAIT on a flag takes a flag that is set and else waits, and a
WAIT for a time ends with WAIT_DONE; SIGNAL sets a flag and raises done; NEXT goes on at an address and space; END
idles the channel and sets DONE. FLAG_SET sets flags. DMA_HALT halts a busy channel with cause 6, and RESUME runs a
halted program channel, or one in LINK_WAIT once the host is there. RUNAWAY, DMA_TIMEOUT and ERROR_RESPONSE halt
with causes 2, 1, and 4 or 5. -/
def Obligations.ChannelProgramsRun : Prop :=
  (∀ (c : Fin 32) (s : State), s.dev.chOn c.val = true → s.dev.chMode c.val = 1 → (s.dev.chS c.val).haltReq = false →
    Completes (.dmaStart c) s (fun t =>
      t.dev.chState c.val = 2 ∧ t.dev.get (R.DMA.CH_PC.ADDR c.val) = s.dev.get (R.DMA.CH_FBASE.ADDR c.val) % 2 ^ 64 ∧
      (t.dev.chS c.val).space = s.dev.get (R.DMA.CH_CTL.FSPACE c.val) ∧ (t.dev.chS c.val).loops = [0, 0, 0, 0] ∧
      Frame [R.DMA.CH_STATUS.STATE c.val, R.DMA.CH_PC.ADDR c.val] { s.dev with dma := t.dev.dma } s t)) ∧
  (∀ (c : Fin 32) (i : Ins) (ins host bs : List Byte) (s : State), s.dev.atIns s.mem c.val i → i.op = 1 → bits i.flags 0 5 = 3 →
    bits i.arg 0 4 = 5 → i.n ≠ 0 → s.dev.sliceOk c.val = true → s.dev.dramRead s.mem i.a i.n = (bs, false) → s.dev.dstOk 1 i.b i.n = true →
    s.dev.selfWrite c.val ins s.mem = false →
    Completes (.move c ins host) s (fun t =>
      t.mem = (s.after (dramWrite i.b bs s.dev)).mem ∧ t.dev.get (R.DMA.CH_PC.ADDR c.val) = (s.dev.get (R.DMA.CH_PC.ADDR c.val) + 32) % 2 ^ 64 ∧
      (t.dev.chS c.val).sa = unsgn 64 (i.a + i.c) ∧ (t.dev.chS c.val).da = unsgn 64 (i.b + i.d) ∧ (t.dev.chS c.val).count = 0 ∧
      t.dev.chState c.val = 2)) ∧
  (∀ (c : Fin 32) (i : Ins) (l : Nat) (ins : List Byte) (s : State), s.dev.atIns s.mem c.val i → i.op = 2 →
    l = (if nth 0 (s.dev.chS c.val).loops (bits i.arg 0 2) = 0 then max i.n 1 else nth 0 (s.dev.chS c.val).loops (bits i.arg 0 2)) - 1 →
    Completes (.loopInstr c ins) s (fun t =>
      (t.dev.chS c.val).loops = setNth (s.dev.chS c.val).loops (bits i.arg 0 2) l ∧
      t.dev.get (R.DMA.CH_PC.ADDR c.val) = (if l = 0 then (s.dev.get (R.DMA.CH_PC.ADDR c.val) + 32) % 2 ^ 64
        else unsgn 64 (s.dev.get (R.DMA.CH_PC.ADDR c.val) + 32 * i.c)) ∧
      Frame [R.DMA.CH_PC.ADDR c.val] { s.dev with dma := t.dev.dma, ddr := t.dev.ddr } s t)) ∧
  (∀ (c : Fin 32) (i : Ins) (ins : List Byte) (s : State), s.dev.atIns s.mem c.val i → i.op = 3 → bits i.arg 0 3 = 3 →
    (s.dev.chS c.val).wait = none →
    Completes (.waitInstr c ins) s (fun t =>
      (bit (s.dev.get R.DMA.FLAGS.F) (bits i.arg 8 5) = true → bit (t.dev.get R.DMA.FLAGS.F) (bits i.arg 8 5) = false ∧ t.dev.chState c.val = 2 ∧
        t.dev.get (R.DMA.CH_PC.ADDR c.val) = (s.dev.get (R.DMA.CH_PC.ADDR c.val) + 32) % 2 ^ 64 ∧
        Frame [R.DMA.FLAGS.F, R.DMA.CH_STATUS.STATE c.val, R.DMA.CH_PC.ADDR c.val] { s.dev with dma := t.dev.dma, ddr := t.dev.ddr } s t) ∧
      (bit (s.dev.get R.DMA.FLAGS.F) (bits i.arg 8 5) = false → t.dev.chState c.val = 3 ∧
        (t.dev.chS c.val).wait = some (.flag (bits i.arg 8 5)) ∧
        Frame [R.DMA.CH_STATUS.STATE c.val] { s.dev with dma := t.dev.dma, ddr := t.dev.ddr } s t))) ∧
  (∀ (c : Fin 32) (x : Nat) (s : State), s.dev.chState c.val = 3 → (s.dev.chS c.val).wait = some (.ns x) →
    Completes (.waitDone c) s (fun t =>
      t.dev.chState c.val = 2 ∧ (t.dev.chS c.val).wait = none ∧
      t.dev.get (R.DMA.CH_PC.ADDR c.val) = ((reach x s.dev).get (R.DMA.CH_PC.ADDR c.val) + 32) % 2 ^ 64 ∧
      Frame [R.DMA.CH_STATUS.STATE c.val, R.DMA.CH_PC.ADDR c.val] { reach x s.dev with dma := t.dev.dma } s t)) ∧
  (∀ (c : Fin 32) (i : Ins) (ins : List Byte) (s : State), s.dev.atIns s.mem c.val i → i.op = 4 → bits i.flags 0 3 = 3 →
    Completes (.signal c ins) s (fun t =>
      bit (t.dev.get R.DMA.FLAGS.F) (bits i.arg 8 5) = true ∧ t.dev.get (R.DMA.CH_PC.ADDR c.val) = (s.dev.get (R.DMA.CH_PC.ADDR c.val) + 32) % 2 ^ 64 ∧
      Raised (R.DMA.CH_STATUS.SEQ c.val) [R.DMA.CH_STATUS.DONE c.val] s.dev t.dev ∧
      Frame [R.DMA.FLAGS.F, R.DMA.CH_PC.ADDR c.val, R.DMA.CH_STATUS.SEQ c.val, R.DMA.CH_STATUS.DONE c.val] { s.dev with dma := t.dev.dma, ddr := t.dev.ddr } s t)) ∧
  (∀ (c : Fin 32) (i : Ins) (ins : List Byte) (s : State), s.dev.atIns s.mem c.val i → i.op = 5 →
    Completes (.nextInstr c ins) s (fun t =>
      t.dev.get (R.DMA.CH_PC.ADDR c.val) = i.a % 2 ^ 64 ∧ (t.dev.chS c.val).space = bits i.arg 0 2 ∧
      Frame [R.DMA.CH_PC.ADDR c.val] { s.dev with dma := t.dev.dma, ddr := t.dev.ddr } s t)) ∧
  (∀ (c : Fin 32) (i : Ins) (ins : List Byte) (s : State), s.dev.atIns s.mem c.val i → i.op = 0 →
    Completes (.endProgram c ins) s (fun t =>
      t.dev.chState c.val = 1 ∧ Raised (R.DMA.CH_STATUS.SEQ c.val) [R.DMA.CH_STATUS.DONE c.val] s.dev t.dev ∧
      Frame [R.DMA.CH_STATUS.STATE c.val, R.DMA.CH_STATUS.SEQ c.val, R.DMA.CH_STATUS.DONE c.val] { s.dev with ddr := t.dev.ddr } s t)) ∧
  (∀ (f : BitVec 32) (s : State), Completes (.flagSet f) s (fun t =>
    t.dev.get R.DMA.FLAGS.F = (s.dev.get R.DMA.FLAGS.F ||| f.toNat) % 2 ^ 32 ∧ Frame [R.DMA.FLAGS.F] s.dev s t)) ∧
  (∀ (c : Fin 32) (s : State), s.dev.chState c.val = 2 ∨ s.dev.chState c.val = 3 →
    Completes (.dmaHalt c) s (fun t =>
      t.dev.chState c.val = 4 ∧ t.dev.get (R.DMA.CH_STATUS.CAUSE c.val) = 6 ∧
      Raised (R.DMA.CH_STATUS.SEQ c.val) [R.DMA.CH_STATUS.HALTED c.val] s.dev t.dev ∧ Raised R.DMA.STATUS.SEQ [R.DMA.STATUS.HALT] s.dev t.dev)) ∧
  (∀ (c : Fin 32) (s : State), s.dev.chState c.val = 1 → Completes (.dmaHalt c) s (fun t =>
    (t.dev.chS c.val).haltReq = true ∧ Frame [] { s.dev with dma := t.dev.dma } s t)) ∧
  (∀ (c : Fin 32) (s : State), s.dev.chState c.val = 4 → s.dev.get (R.DMA.CH_STATUS.CAUSE c.val) ≠ 8 → s.dev.chMode c.val = 1 →
    (s.dev.chS c.val).haltReq = false →
    Completes (.dmaResume c) s (fun t => t.dev.chState c.val = 2 ∧ Frame [R.DMA.CH_STATUS.STATE c.val] s.dev s t)) ∧
  (∀ (c : Fin 32) (s : State), s.dev.chState c.val = 5 → s.dev.hostOk = true → s.dev.chMode c.val = 1 → (s.dev.chS c.val).haltReq = false →
    Completes (.dmaResume c) s (fun t => t.dev.chState c.val = 2 ∧ Frame [R.DMA.CH_STATUS.STATE c.val] s.dev s t)) ∧
  (∀ (c : Fin 32) (s : State), s.dev.chMode c.val = 1 → s.dev.chState c.val = 2 → 65536 ≤ (s.dev.chS c.val).count →
    Completes (.runaway c) s (fun t =>
      t.dev.chState c.val = 4 ∧ t.dev.get (R.DMA.CH_STATUS.CAUSE c.val) = 2 ∧
      Raised (R.DMA.CH_STATUS.SEQ c.val) [R.DMA.CH_STATUS.HALTED c.val] s.dev t.dev)) ∧
  (∀ (c : Fin 32) (fetch : Bool) (space : Fin 2) (a : BitVec 64) (got : List Byte) (e : Dev) (s : State), s.dev.chState c.val = 2 →
    e = reachNs s.dev.dt (1000 * clamp 1 16000 (s.dev.get (R.DMA.CH_TMO.US c.val))) s.dev → e.chMode c.val = 1 →
    Completes (.dmaTimeout c fetch space a got) s (fun t =>
      t.dev.chState c.val = 4 ∧ t.dev.get (R.DMA.CH_STATUS.CAUSE c.val) = 1 ∧
      Raised (R.DMA.CH_STATUS.SEQ c.val) [R.DMA.CH_STATUS.HALTED c.val] e t.dev ∧ t.dev.dt = e.dt)) ∧
  (∀ (c : Fin 32) (dst : Bool) (got : List Byte) (s : State), s.dev.chMode c.val = 1 → s.dev.chState c.val = 2 →
    Completes (.errorResponse c (if dst then .destination else .source) got) s (fun t =>
      t.dev.chState c.val = 4 ∧ t.dev.get (R.DMA.CH_STATUS.CAUSE c.val) = (if dst then 5 else 4) ∧
      Raised (R.DMA.CH_STATUS.SEQ c.val) [R.DMA.CH_STATUS.HALTED c.val] s.dev t.dev)) ∧
  (∀ (c : Fin 32) (got : List Byte) (s : State), s.dev.chState c.val ≠ 0 →
    Completes (.errorResponse c .late got) s (fun t =>
      t.dev.get (R.DMA.CH_LATE.CAUSE c.val) = 5 ∧ t.dev.chState c.val = 4 ∧ t.dev.get (R.DMA.CH_STATUS.CAUSE c.val) = 5 ∧
      Raised (R.DMA.CH_LATE.SEQ c.val) [] s.dev t.dev ∧ t.dev.on R.DMA.STATUS.LATE_ERR = true))

/-- RECORDER_TAP_LINE takes the oldest line: a stopped recorder refuses it, notes the gap and counts it; a recording one
with its region and a staging buffer codes a one-piece line, with RAW or before a passed self-test as raw, with the
predictor of its batch, into the open chunk, or into a new one that carries the gap; with its buffers full behind
the spent grant of DRAM user 5 it refuses the line and flags RECORDER. In POST, a line past the post window freezes
the recorder. CHUNK_CLOSE writes the open chunk at its place in the ring. RECORDER_TRIGGER notes DT in RECORDING,
and is dropped in POST and FROZEN. RELEASE returns a frozen recorder to RECORDING. The self-test decides whether
blocks are coded raw, and its failure is reported. -/
def Obligations.TheRecorderKeepsLines : Prop :=
  (∀ (refuse : Bool) (l : TapLine) (rest : List TapLine) (s : State), s.dev.recQ = l :: rest → l.lathe < 8 → s.dev.get R.CMP.STATUS.STATE = 0 →
    Completes (.recorderTapLine refuse) s (fun t =>
      t.dev.recQ = rest ∧ t.dev.cmp.recorder.gap = true ∧ t.dev.cmp.recorder.dropped = s.dev.cmp.recorder.dropped + 1 ∧
      t.dev.cmp.recorder.chunk = s.dev.cmp.recorder.chunk ∧ Counted (R.CMP.STAT.COUNT 2) 1 s.dev t.dev)) ∧
  (∀ (l : TapLine) (p : TapPiece) (rest : List TapLine) (h : RecHead) (rs : List RefLine) (r : List Byte × Coded × List RefLine) (s : State),
    s.dev.recQ = l :: rest → s.dev.get R.CMP.STATUS.STATE = 1 → s.dev.recRegionOk = true → s.dev.staging = true → s.dev.stagingFull = false →
    l.pieces = [p] → 1 ≤ p.samples.length → p.samples.length ≤ 8192 →
    h = { lsn := l.lsn, tap := l.tap, src := l.src, plane := p.plane, depth := s.dev.tapDepth l p.plane, first := p.first,
          count := p.samples.length, dt := l.dtExp, lflags := l.flags, pflag := p.pflag, rflags := 0 } →
    rs = (if s.dev.cmp.recorder.opened.isSome then s.dev.cmp.recorder.refs else []) →
    r = codeRecord h (s.dev.predFor l.tap l.src l.lsn) (s.dev.on R.CMP.CTL.RAW || s.dev.cmp.recorder.raw) rs
      (codecSamples l.tap (s.dev.tapDepth l p.plane) p.samples) →
    (s.dev.cmp.recorder.opened.isSome = true → s.dev.cmp.recorder.chunk.length + r.1.length ≤ 65472) →
    Completes (.recorderTapLine false) s (fun t =>
      t.dev.recQ = rest ∧ t.dev.cmp.recorder.opened.isSome = true ∧ t.dev.cmp.recorder.refs = r.2.2 ∧
      t.dev.cmp.recorder.chunk = (if s.dev.cmp.recorder.opened.isSome then s.dev.cmp.recorder.chunk else []) ++ r.1 ∧
      (s.dev.cmp.recorder.opened = none → t.dev.cmp.recorder.count = 1 ∧ t.dev.cmp.recorder.chunkGap = s.dev.cmp.recorder.gap ∧
        t.dev.cmp.recorder.chunkDropped = s.dev.cmp.recorder.dropped ∧ t.dev.cmp.recorder.dropped = 0) ∧
      Counted (R.CMP.STAT.COUNT 0) 1 s.dev t.dev ∧ t.mem = (s.after s.dev).mem)) ∧
  (∀ (refuse : Bool) (l : TapLine) (rest : List TapLine) (s : State), s.dev.recQ = l :: rest → l.lathe < 8 → s.dev.get R.CMP.STATUS.STATE = 1 →
    s.dev.recRegionOk = true → s.dev.stagingFull = true →
    Completes (.recorderTapLine refuse) s (fun t =>
      t.dev.recQ = rest ∧ t.dev.cmp.recorder.gap = true ∧ t.dev.cmp.recorder.dropped = s.dev.cmp.recorder.dropped + 1 ∧
      Counted (R.CMP.STAT.COUNT 2) 1 s.dev t.dev ∧ Raised R.TOP.DRAM_YIELD.SEQ [R.TOP.DRAM_YIELD.RECORDER] s.dev t.dev)) ∧
  (∀ (refuse : Bool) (l : TapLine) (rest : List TapLine) (s : State), s.dev.recQ = l :: rest → l.lathe < 8 → s.dev.get R.CMP.STATUS.STATE = 2 →
    s.dev.recRegionOk = true → s.dev.cmp.recorder.opened = none →
    dtGe l.dtExp (dtAddNs (s.dev.get R.CMP.REC_TDT.DT) (1000000 * s.dev.get R.CMP.REC_WIN.POST_MS : Nat)) = true →
    Completes (.recorderTapLine refuse) s (fun t =>
      t.dev.get R.CMP.STATUS.STATE = 3 ∧ t.dev.cmp.recorder.gap = true ∧
      t.dev.get R.CMP.REC_FRZ_LAST.CSEQ = (s.dev.get R.CMP.REC_WR.CSEQ + 2 ^ 32 - 1) % 2 ^ 32 ∧
      t.dev.on R.CMP.STATUS.FROZEN = true ∧ t.mem = (s.after s.dev).mem)) ∧
  (∀ (x : Nat) (e : Dev) (s : State), s.dev.cmp.recorder.opened = some x → e = reachNs x 1000000 s.dev → e.recRegionOk = true →
    e.cmp.recorder.opened.isSome = true →
    Completes .chunkClose s (fun t =>
      t.dev.cmp.recorder.opened = none ∧ t.dev.get R.CMP.REC_WR.CSEQ = (e.get R.CMP.REC_WR.CSEQ + 1) % 2 ^ 32 ∧
      Counted (R.CMP.STAT.COUNT 4) 1 e t.dev ∧
      (∃ tl : List Byte, tl.length = 65472 - e.cmp.recorder.chunk.length ∧
        t.mem = (s.after (dramWrite ((e.region (e.get R.CMP.CTL.REC_RGN)).1 + 65536 * (e.get R.CMP.REC_WR.CSEQ % max 1 (e.get R.CMP.REC_CHUNKS.NCH)))
          (chunkHead e false ++ e.cmp.recorder.chunk ++ tl) e)).mem))) ∧
  (∀ s : State, s.dev.get R.CMP.STATUS.STATE = 1 → Completes .recorderTrigger s (fun t =>
    t.dev.get R.CMP.STATUS.STATE = 2 ∧ t.dev.get R.CMP.REC_TDT.DT = s.dev.dt ∧ Counted (R.CMP.STAT.COUNT 5) 1 s.dev t.dev ∧
    Frame [R.CMP.STATUS.STATE, R.CMP.REC_TDT.DT, R.CMP.STAT.COUNT 5] s.dev s t)) ∧
  (∀ s : State, 2 ≤ s.dev.get R.CMP.STATUS.STATE → Completes .recorderTrigger s (fun t =>
    Raised R.CMP.STATUS.SEQ [R.CMP.STATUS.TRIG_DROP] s.dev t.dev ∧ Counted (R.CMP.STAT.COUNT 6) 1 s.dev t.dev ∧
    Frame [R.CMP.STATUS.SEQ, R.CMP.STATUS.TRIG_DROP, R.CMP.STAT.COUNT 6] s.dev s t)) ∧
  (∀ s : State, s.dev.get R.CMP.STATUS.STATE = 3 → Completes .recorderRelease s (fun t =>
    t.dev.get R.CMP.STATUS.STATE = 1 ∧ t.dev.cmp.recorder = { s.dev.cmp.recorder with gap := true } ∧
    Frame [R.CMP.STATUS.STATE] { s.dev with cmp := t.dev.cmp } s t)) ∧
  (∀ (ok : Bool) (s : State), s.dev.on R.CMP.CTL.EN = true → Completes (.codecSelfTest ok) s (fun t =>
    t.dev.cmp.recorder = { s.dev.cmp.recorder with raw := !ok } ∧
    (ok = false → Raised R.CMP.STATUS.SEQ [R.CMP.STATUS.ST_FAIL] s.dev t.dev) ∧
    Frame (if ok then [] else [R.CMP.STATUS.SEQ, R.CMP.STATUS.ST_FAIL]) { s.dev with cmp := t.dev.cmp } s t))

/-- JOB_START of an enabled, idle engine runs an admissible encode or decode descriptor, and a poisoned one stops with
status 4. JOB_RECORD, while the grant of host image traffic lasts, codes the next line piece of an encode job into
the output and moves its counts on; of a decode job it checks the next record and writes it with its samples widened
to 16 bits; with the grant spent the job waits. A job whose input is consumed ends with DONE. Without output room it
stops with status 1, from which JOB_RESUME takes the descriptor's output address and limit again. JOB_ABORT stops a
running job with status 5. -/
def Obligations.JobsCodeAndDecode : Prop :=
  (∀ (e : Fin 2) (a : Nat) (b : List Byte) (s : State), s.dev.on R.CMP.CTL.EN = true → s.dev.get (R.CMP.JOB_STATUS.STATE e.val) ≠ 1 →
    a = s.dev.get (R.CMP.JOB_DESC.ADDR e.val) → a % 64 = 0 → s.dev.dramRead s.mem a 64 = (b, false) → descOk e.val b = true → fieldAt b 0 1 ≠ 3 →
    Completes (.jobStart e) s (fun t =>
      t.dev.get (R.CMP.JOB_STATUS.STATE e.val) = 1 ∧ (t.dev.jobS e.val).desc = a ∧ (t.dev.jobS e.val).inAddr = fieldAt b 8 8 ∧
      (t.dev.jobS e.val).inLen = fieldAt b 16 4 ∧ (t.dev.jobS e.val).outAddr = fieldAt b 24 8 ∧ (t.dev.jobS e.val).outLimit = fieldAt b 32 4 ∧
      (t.dev.jobS e.val).inUsed = 0 ∧ (t.dev.jobS e.val).records = 0 ∧ Counted (R.CMP.STAT.COUNT 8) 1 s.dev t.dev ∧
      Frame [R.CMP.JOB_STATUS.STATE e.val, R.CMP.STAT.COUNT 8] { s.dev with cmp := t.dev.cmp } s t)) ∧
  (∀ (e : Fin 2) (s : State), s.dev.on R.CMP.CTL.EN = true → s.dev.get (R.CMP.JOB_STATUS.STATE e.val) ≠ 1 →
    (s.dev.dramRead s.mem (s.dev.get (R.CMP.JOB_DESC.ADDR e.val)) 64).2 = true →
    Completes (.jobStart e) s (fun t =>
      t.dev.get (R.CMP.JOB_STATUS.STATE e.val) = 2 ∧ (t.dev.jobS e.val).status = 4 ∧
      Raised (R.CMP.JOB_STATUS.SEQ e.val) [R.CMP.JOB_STATUS.STOP e.val] s.dev t.dev)) ∧
  (∀ (x : JobS) (n off : Nat) (xs : List Nat) (r : List Byte × Coded × List RefLine) (s : State), s.dev.get (R.CMP.JOB_STATUS.STATE 0) = 1 → s.dev.yields 3 = false →
    s.dev.jobS 0 = x → x.inUsed + 2 * n < x.inLen → off = x.inUsed / 2 % x.width → n = min 8192 (x.width - off) →
    x.outUsed + cdiv (codedBound x.depth n (bit x.flags 0) + 40) 8 * 8 ≤ x.outLimit →
    (s.dev.dramRead s.mem (x.inAddr + x.inUsed) (2 * n)).2 = false →
    xs = (List.range n).map (fun k => fieldAt (s.dev.dramRead s.mem (x.inAddr + x.inUsed) (2 * n)).1 (2 * k) 2 / 2 ^ (16 - x.depth)) →
    r = codeRecord { lsn := (x.lsn0 + x.inUsed / 2 / x.width) % 2 ^ 32, tap := 7, src := 0xff, plane := 0, depth := x.depth, first := off,
                     count := n, dt := 0, lflags := 0, pflag := 0, rflags := 0 } x.param (bit x.flags 0) x.refs xs →
    s.dev.dramHas (x.outAddr + x.outUsed) r.1.length = true →
    Completes (.jobRecord 0) s (fun t =>
      t.mem = (s.after (dramWrite (x.outAddr + x.outUsed) r.1 s.dev)).mem ∧
      t.dev.jobS 0 = { x with inUsed := x.inUsed + 2 * n, outUsed := x.outUsed + r.1.length, records := x.records + 1, refs := r.2.2 } ∧
      t.dev.get (R.CMP.JOB_STATUS.STATE 0) = 1)) ∧
  (∀ (x : JobS) (hd bl : List Byte) (h : RecHead) (xs : List Nat) (s : State), s.dev.get (R.CMP.JOB_STATUS.STATE 1) = 1 → s.dev.yields 3 = false →
    s.dev.jobS 1 = x → x.kind = 2 → bit x.flags 1 = false → x.inUsed + 40 + cdiv h.clen 8 * 8 < x.inLen →
    s.dev.dramRead s.mem (x.inAddr + x.inUsed) 40 = (hd, false) → h = readHead hd → headCrcOk hd = true → h.ok = true → bit h.rflags 0 = false →
    x.outUsed + cdiv (40 + 2 * h.count) 8 * 8 ≤ x.outLimit →
    s.dev.dramRead s.mem (x.inAddr + x.inUsed + 40) h.clen = (bl, false) → fieldAt hd 32 4 = crc32c bl →
    decodeLine h.depth h.count none bl = some xs → s.dev.dramHas (x.outAddr + x.outUsed) (cdiv (40 + 2 * h.count) 8 * 8) = true →
    Completes (.jobRecord 1) s (fun t =>
      t.mem = (s.after (dramWrite (x.outAddr + x.outUsed) (pad8 (hd ++ (xs.map (· * 2 ^ (16 - h.depth))).flatMap (leBytes 2))) s.dev)).mem ∧
      (t.dev.jobS 1).inUsed = x.inUsed + 40 + cdiv h.clen 8 * 8 ∧ (t.dev.jobS 1).outUsed = x.outUsed + cdiv (40 + 2 * h.count) 8 * 8 ∧
      (t.dev.jobS 1).records = x.records + 1 ∧ t.dev.get (R.CMP.JOB_STATUS.STATE 1) = 1)) ∧
  (∀ (e : Fin 2) (s : State), s.dev.get (R.CMP.JOB_STATUS.STATE e.val) = 1 → s.dev.yields 3 = true →
    Completes (.jobRecord e) s (fun t =>
      Raised R.TOP.DRAM_YIELD.SEQ [R.TOP.DRAM_YIELD.HOST_IMG] s.dev t.dev ∧
      Frame [R.TOP.DRAM_YIELD.SEQ, R.TOP.DRAM_YIELD.HOST_IMG] { s.dev with yielding := t.dev.yielding } s t)) ∧
  (∀ (e : Fin 2) (s : State), s.dev.get (R.CMP.JOB_STATUS.STATE e.val) = 1 → s.dev.yields 3 = false → (s.dev.jobS e.val).inLen ≤ (s.dev.jobS e.val).inUsed →
    (s.dev.jobS e.val).kind ≠ 3 →
    Completes (.jobRecord e) s (fun t =>
      t.dev.get (R.CMP.JOB_STATUS.STATE e.val) = 0 ∧ t.dev.jobS e.val = { s.dev.jobS e.val with status := 0 } ∧
      Raised (R.CMP.JOB_STATUS.SEQ e.val) [R.CMP.JOB_STATUS.DONE e.val] s.dev t.dev ∧
      t.mem = (s.after (jobWriteBack { s.dev.jobS e.val with status := 0 } s.dev)).mem)) ∧
  (∀ (x : JobS) (s : State), s.dev.get (R.CMP.JOB_STATUS.STATE 0) = 1 → s.dev.yields 3 = false → s.dev.jobS 0 = x → x.kind = 1 → x.inUsed < x.inLen →
    x.outLimit < x.outUsed + 8 →
    Completes (.jobRecord 0) s (fun t => t.dev.get (R.CMP.JOB_STATUS.STATE 0) = 2 ∧ t.dev.jobS 0 = { x with status := 1 } ∧
      Raised (R.CMP.JOB_STATUS.SEQ 0) [R.CMP.JOB_STATUS.STOP 0] s.dev t.dev ∧ Counted (R.CMP.STAT.COUNT 9) 1 s.dev t.dev)) ∧
  (∀ (e : Fin 2) (b : List Byte) (s : State), s.dev.get (R.CMP.JOB_STATUS.STATE e.val) = 2 → (s.dev.jobS e.val).status = 1 →
    (s.dev.jobS e.val).kind ≠ 3 → s.dev.dramRead s.mem ((s.dev.jobS e.val).desc + 24) 12 = (b, false) →
    Completes (.jobResume e) s (fun t =>
      t.dev.get (R.CMP.JOB_STATUS.STATE e.val) = 1 ∧
      t.dev.jobS e.val = { s.dev.jobS e.val with outAddr := fieldAt b 0 8, outLimit := fieldAt b 8 4 } ∧
      Frame [R.CMP.JOB_STATUS.STATE e.val] { s.dev with cmp := t.dev.cmp } s t)) ∧
  (∀ (e : Fin 2) (s : State), s.dev.get (R.CMP.JOB_STATUS.STATE e.val) = 1 → (s.dev.jobS e.val).kind ≠ 3 →
    Completes (.jobAbort e) s (fun t =>
      t.dev.get (R.CMP.JOB_STATUS.STATE e.val) = 2 ∧ t.dev.jobS e.val = { s.dev.jobS e.val with status := 5 } ∧
      Raised (R.CMP.JOB_STATUS.SEQ e.val) [R.CMP.JOB_STATUS.STOP e.val] s.dev t.dev ∧ Counted (R.CMP.STAT.COUNT 9) 1 s.dev t.dev))

/-- For every depth d, prediction p and sample s within the depth: the residual is s minus p, wrapped into the signed
range of d bits by adding or subtracting 2^d, and mapped to 2e or to minus 2e minus 1; and from every residual in
that range the decoder restores p plus e modulo 2^d. -/
def Obligations.ResidualsAreWrapped : Prop :=
  ∀ (d p s : Nat), 4 ≤ d → d ≤ 16 → p < 2 ^ d → s < 2 ^ d →
    (∃ e : Int, -(2 ^ (d - 1) : Int) ≤ e ∧ e ≤ (2 ^ (d - 1) : Int) - 1 ∧
      (e = (s : Int) - p ∨ e = (s : Int) - p + 2 ^ d ∨ e = (s : Int) - p - 2 ^ d) ∧
      (residual d p s : Int) = (if 0 ≤ e then 2 * e else -2 * e - 1)) ∧
    (∀ e : Int, -(2 ^ (d - 1) : Int) ≤ e → e ≤ (2 ^ (d - 1) : Int) - 1 →
      (restore d p (if 0 ≤ e then 2 * e else -2 * e - 1).toNat : Int) = (p + e) % 2 ^ d) ∧
    restore d p (residual d p s) = s

/-- A coded line of COUNT samples of depth d in B blocks of up to 64 samples has at most B + ceil(COUNT × (d + 4) / 8)
bytes, and with all blocks raw at most B + ceil(COUNT × d / 8). -/
def Obligations.CodedLinesAreBounded : Prop :=
  ∀ (d pred : Nat) (ref : Option (List Nat)) (xs : List Nat), 4 ≤ d → d ≤ 16 → (∀ x ∈ xs, x < 2 ^ d) →
    (codeLine d pred false ref xs).bytes.length ≤ (xs.length + 63) / 64 + (xs.length * (d + 4) + 7) / 8 ∧
    (codeLine d pred true ref xs).bytes.length ≤ (xs.length + 63) / 64 + (xs.length * d + 7) / 8

/-- For every depth from 4 to 16, every predictor, raw or not, with or without a reference line, and every line of
samples within the depth: decoding the coded bytes with the same reference line gives the samples back. No sample is
lost to the prediction, the wrapped residual, the Rice codes, the escapes, the flat blocks or the packing of bits
into bytes. -/
def Obligations.DecodingUndoesCoding : Prop :=
  ∀ (d pred : Nat) (raw : Bool) (ref : Option (List Nat)) (xs : List Nat), 4 ≤ d → d ≤ 16 → pred ≤ 2 → (∀ x ∈ xs, x < 2 ^ d) →
    decodeLine d xs.length ref (codeLine d pred raw ref xs).bytes = some xs

/-- TEST_GO for a unit that exists waits while a migration runs; a lathe that it names is retired, and so is an unplaced
gouge; another unit is a host error. A domain that is on and leaves its window shows in VMON and is reported, and
its return clears the bit. LOCKSTEP_MISMATCH and MANAGEMENT_WATCHDOG hold the cores in reset and count;
MANAGEMENT_RESTART lets them serve, or from the fourth restart in 10 min on leaves the service mode. SRAM_SCRUB
counts a corrected error for its row and its unit, and an uncorrectable one at once; at the limit, or for an
uncorrectable one, the row is relocated while a spare row is left. REPAIR_MAP_WRITE writes the oldest waiting repair
to both NVM devices. -/
def Obligations.FaultsAreCountedAndRepaired : Prop :=
  (∀ (kind : BitVec 3) (idx : BitVec 8) (s : State), testUnit kind.toNat idx.toNat = true → s.dev.ras.migs ≠ [] →
    Completes (.testGo kind idx) s (fun t => t.dev.ras.testQ = s.dev.ras.testQ ++ [(kind.toNat, idx.toNat)] ∧
      Frame [R.RAS.TEST.KIND, R.RAS.TEST.INDEX] { s.dev with ras := t.dev.ras } s t)) ∧
  (∀ (n : Fin 8) (s : State), s.dev.ras.migs = [] → s.dev.ras.testQ = [] → s.dev.get (R.LTH.STATUS.STATE n.val) ≠ 3 →
    s.dev.on R.RAS.CTL.LTH_AUTO = true → s.dev.nstrips ≤ 136 →
    Completes (.testGo 3#3 (BitVec.ofNat 8 n.val)) s (fun t =>
      t.dev.get (R.LTH.STATUS.STATE n.val) = 3 ∧ bit (t.dev.get R.RAS.SPARES.LTH_RETIRED) n.val = true ∧ t.dev.get R.RAS.MIG_INFO.KIND = 3 ∧
      t.dev.on R.RAS.STATUS.LTH_MOVED = true ∧ Counted (R.RAS.STAT.COUNT 4) 1 s.dev t.dev)) ∧
  (∀ (g : Fin 136) (s : State), s.dev.ras.migs = [] → s.dev.ras.testQ = [] → s.dev.gouRetired g.val = false → s.dev.servedBy g.val = none →
    s.dev.on R.RAS.CTL.GG_AUTO = true →
    Completes (.testGo 1#3 (BitVec.ofNat 8 g.val)) s (fun t => t.dev.gouRetired g.val = true ∧
      (∃ r : RepEntry, t.dev.ras.repairs = s.dev.ras.repairs ++ [r] ∧ r.kind = 1 ∧ r.inst = g.val ∧ r.flags = 1))) ∧
  (∀ (kind : BitVec 3) (idx : BitVec 8) (s : State), testUnit kind.toNat idx.toNat = false → ∃ w, exec (.testGo kind idx) s = .fault (.hostError w)) ∧
  (∀ (n : Fin 41) (f : Fld) (s : State), f = (if n.val < 32 then R.MGT.VMON_LO.OUT else R.MGT.VMON_HI.OUT) → bit s.dev.domains n.val = true →
    bit (s.dev.get f) (n.val % 32) = false → n.val < 3 ∨ 19 ≤ n.val →
    Completes (.vmonOutOfWindow n true) s (fun t => bit (t.dev.get f) (n.val % 32) = true ∧
      Raised R.MGT.STATUS.SEQ [R.MGT.STATUS.VMON] s.dev t.dev ∧ Frame [f, R.MGT.STATUS.SEQ, R.MGT.STATUS.VMON] s.dev s t)) ∧
  (∀ (n : Fin 41) (f : Fld) (s : State), f = (if n.val < 32 then R.MGT.VMON_LO.OUT else R.MGT.VMON_HI.OUT) → bit s.dev.domains n.val = true →
    bit (s.dev.get f) (n.val % 32) = true →
    Completes (.vmonOutOfWindow n false) s (fun t => bit (t.dev.get f) (n.val % 32) = false ∧ Frame [f] s.dev s t)) ∧
  (∀ s : State, s.dev.ras.coresDown = false → s.dev.aon.off = false → 3 ≤ s.dev.get R.TOP.STATE.STEP →
    Completes .lockstepMismatch s (fun t =>
      t.dev.ras.coresDown = true ∧ t.dev.get R.MGT.STATUS.STATE = 2 ∧ t.dev.ras.restarts = s.dev.dt :: s.dev.recentRestarts ∧
      t.dev.out = .resetCores :: s.dev.out ∧ Counted (R.RAS.STAT.COUNT 7) 1 s.dev t.dev ∧
      Frame [R.MGT.STATUS.STATE, R.RAS.STAT.COUNT 7] { s.dev with ras := t.dev.ras, mgt := t.dev.mgt, out := t.dev.out } s t)) ∧
  (∀ s : State, s.dev.ras.coresDown = false → s.dev.aon.off = false → 3 ≤ s.dev.get R.TOP.STATE.STEP →
    Completes .managementWatchdog s (fun t =>
      t.dev.ras.coresDown = true ∧ t.dev.get R.MGT.STATUS.STATE = 2 ∧ t.dev.ras.restarts = s.dev.dt :: s.dev.recentRestarts ∧
      t.dev.out = .resetCores :: s.dev.out ∧ Counted (R.RAS.STAT.COUNT 7) 1 s.dev t.dev ∧
      Frame [R.MGT.STATUS.STATE, R.RAS.STAT.COUNT 7] { s.dev with ras := t.dev.ras, mgt := t.dev.mgt, out := t.dev.out } s t)) ∧
  (∀ s : State, s.dev.ras.coresDown = true → s.dev.ras.service = false → s.dev.mgt.owedStatus = none → s.dev.ras.relocQ = [] → s.dev.ddr.retireQ = [] →
    Completes .managementRestart s (fun t =>
      t.dev.ras.coresDown = false ∧ Raised R.MGT.STATUS.SEQ [R.MGT.STATUS.RESTART] s.dev t.dev ∧ Counted (R.MGT.STAT.COUNT 6) 1 s.dev t.dev ∧
      (s.dev.recentRestarts.length < 4 → t.dev.get R.MGT.STATUS.STATE = 1 ∧ t.dev.ras.service = false) ∧
      (4 ≤ s.dev.recentRestarts.length → t.dev.get R.MGT.STATUS.STATE = 3 ∧ t.dev.ras.service = true ∧ t.dev.on R.RAS.STATUS.LOCKSTEP = true))) ∧
  (∀ (n : Nat) (s : State), Completes (.sramScrub n none) s (fun t => Frame [] s.dev s t)) ∧
  (∀ (n k : Nat) (h : SramHit) (s : State), h.lost = none → k = ((256 * h.block.val + h.inst) * 65536 + h.arr.toNat) * 65536 + h.row.toNat →
    (num s.dev.ras.rowCe k + 1 < s.dev.get R.RAS.CTL.SRAM_CE_ROW →
      Completes (.sramScrub n (some h)) s (fun t => num t.dev.ras.rowCe k = num s.dev.ras.rowCe k + 1 ∧
        (∀ x ∈ ([(11, R.FUS.STAT.COUNT 15), (12, R.CLS.STAT.COUNT 11), (15, R.CRV.STAT.COUNT 10), (16, R.VRD.STAT.COUNT 15),
            (21, R.CMP.STAT.COUNT 11)] : List (Nat × Fld)), h.block.val = x.1 → Counted x.2 1 s.dev t.dev) ∧
        Frame [R.FUS.STAT.COUNT 15, R.CLS.STAT.COUNT 11, R.CRV.STAT.COUNT 10, R.VRD.STAT.COUNT 15, R.CMP.STAT.COUNT 11]
          { s.dev with ras := t.dev.ras } s t)) ∧
    (s.dev.get R.RAS.CTL.SRAM_CE_ROW ≤ num s.dev.ras.rowCe k + 1 → s.dev.on R.RAS.CTL.SRAM_AUTO = true → s.dev.ras.coresDown = false →
      s.dev.get R.RAS.MAP_INFO.ENTRIES + s.dev.ras.mapQ.length < 2046 →
      (num s.dev.ras.rowSpare (k / 65536) < 2 → Completes (.sramScrub n (some h)) s (fun t =>
        num t.dev.ras.rowSpare (k / 65536) = num s.dev.ras.rowSpare (k / 65536) + 1 ∧ Raised R.RAS.STATUS.SEQ [R.RAS.STATUS.SRAM_REPAIR] s.dev t.dev ∧
        Counted (R.RAS.STAT.COUNT 5) 1 s.dev t.dev ∧ ∃ r : RepEntry, t.dev.ras.mapQ = s.dev.ras.mapQ ++ [r] ∧ r.kind = 4 ∧ r.block = h.block.val ∧ r.inst = h.inst)) ∧
      (2 ≤ num s.dev.ras.rowSpare (k / 65536) → Completes (.sramScrub n (some h)) s (fun t =>
        Raised R.RAS.STATUS.SEQ [R.RAS.STATUS.SRAM_EXHAUST] s.dev t.dev)))) ∧
  (∀ (n k : Nat) (h : SramHit) (s : State), h.lost = some .elsewhere → k = (256 * h.block.val + h.inst) * 65536 + h.arr.toNat →
    s.dev.on R.RAS.CTL.SRAM_AUTO = true → s.dev.ras.coresDown = false → num s.dev.ras.rowSpare k < 2 →
    s.dev.get R.RAS.MAP_INFO.ENTRIES + s.dev.ras.mapQ.length < 2046 →
    Completes (.sramScrub n (some h)) s (fun t => Counted (R.RAS.STAT.COUNT 6) 1 s.dev t.dev ∧
      num t.dev.ras.rowSpare k = num s.dev.ras.rowSpare k + 1 ∧ Raised R.RAS.STATUS.SEQ [R.RAS.STATUS.SRAM_REPAIR] s.dev t.dev ∧
      Counted (R.RAS.STAT.COUNT 5) 1 s.dev t.dev)) ∧
  (∀ (e : RepEntry) (rest : List RepEntry) (s : State), s.dev.ras.mapQ = e :: rest → s.dev.ras.coresDown = false → s.dev.ras.service = false →
    s.dev.bothNvm →
    Completes (.repairMapWrite {}) s (fun t => t.dev.ras.mapQ = rest ∧ (t.dev.nvmS 0).repairs = s.dev.mapEntries ++ [e] ∧
      (t.dev.nvmS 1).repairs = s.dev.mapEntries ++ [e] ∧ Counted (R.RAS.STAT.COUNT 10) 1 s.dev t.dev))

/-- A conversion shows its reading and the hottest sensor. THERMAL_HOT and CARVER_CLOCK_STEP lower the Carver clock by
one step once the time has passed, and raise it again; CRV.CLK shows it. THERMAL_TRIP above the trip reading records
it and leaves AON only, with DT kept. POWER_READ, every 1 ms, shows a rail's power and notes since when the sum is
above the ceiling or below 95 % of it; a third failure marks the rail until RAIL_FAULT_END. SMBALERT reads the
status words of the enabled rails. A slack below 4 codes, or an immediate raise, raises VDD_CORE by 10 mV within its
limits; 100 calm evaluations lower it by 5 mV. LOG_PERSIST writes the oldest waiting entry to both NVM devices for a
token, or suppresses it, and the bucket regains tokens. -/
def Obligations.SensorsRailsAndLogAreServed : Prop :=
  (∀ (n : Fin 16) (v : BitVec 16) (s : State), s.dev.aon.off = false →
    Completes (.sensorConversion n v) s (fun t =>
      t.dev.get (R.MGT.TS.TEMP n.val) = v.toNat ∧ t.dev.on (R.MGT.TS.VALID n.val) = true ∧
      (∀ x, t.dev.hottest = some x → t.dev.get R.MGT.TEMP_MAX.TEMP = unsgn 16 x.2) ∧
      (s.dev.hotLimit < sgn 16 v.toNat → (KMap.get (fun _ => (none : Option Nat)) t.dev.mgt.hotAt n.val).isSome = true) ∧
      (sgn 16 v.toNat ≤ s.dev.hotLimit → KMap.get (fun _ => (none : Option Nat)) t.dev.mgt.hotAt n.val = none) ∧
      Frame [R.MGT.TS.TEMP n.val, R.MGT.TS.VALID n.val, R.MGT.TEMP_MAX.TEMP, R.MGT.TEMP_MAX.SENSOR] { s.dev with mgt := t.dev.mgt } s t)) ∧
  (∀ (n : Fin 16) (x : Nat) (e : Dev) (s : State), s.dev.mgtUp = true → KMap.get (fun _ => (none : Option Nat)) s.dev.mgt.hotAt n.val = some x →
    e = reachNs x 10000000 s.dev →
    Completes (.thermalHot n) s (fun t =>
      t.dev.mgt.hotSteps = min 8 (e.mgt.hotSteps + 1) ∧ t.dev.get R.CRV.CLK.MHZ = t.dev.carverMhz ∧
      Raised R.MGT.STATUS.SEQ [R.MGT.STATUS.THERM_HOT] e t.dev ∧
      Frame [R.MGT.STATUS.SEQ, R.MGT.STATUS.THERM_HOT, R.CRV.CLK.MHZ] { e with mgt := t.dev.mgt } s t)) ∧
  (∀ (n x : Nat) (e : Dev) (s : State), s.dev.mgtUp = true →
    (List.range 16).find? (fun i => (KMap.get (fun _ => (none : Option Nat)) s.dev.mgt.hotAt i).isSome) = some n →
    KMap.get (fun _ => (none : Option Nat)) s.dev.mgt.hotAt n = some x → e = reachNs x 10000000 s.dev →
    Completes (.carverClockStep true false) s (fun t =>
      t.dev.mgt.hotSteps = min 8 (e.mgt.hotSteps + 1) ∧ t.dev.get R.CRV.CLK.MHZ = t.dev.carverMhz ∧
      Frame [R.MGT.STATUS.SEQ, R.MGT.STATUS.THERM_HOT, R.CRV.CLK.MHZ] { e with mgt := t.dev.mgt } s t)) ∧
  (∀ (x : Nat) (s : State), s.dev.mgtUp = true →
    (s.dev.mgt.powerSteps ≠ 8 → s.dev.mgt.highAt = some x → Completes (.carverClockStep false false) s (fun t =>
      t.dev.mgt.powerSteps = (reachNs x 10000000 s.dev).mgt.powerSteps + 1 ∧ t.dev.get R.CRV.CLK.MHZ = t.dev.carverMhz ∧
      Frame [R.CRV.CLK.MHZ] { reachNs x 10000000 s.dev with mgt := t.dev.mgt } s t)) ∧
    (s.dev.mgt.powerSteps ≠ 0 → s.dev.mgt.lowAt = some x → Completes (.carverClockStep false true) s (fun t =>
      t.dev.mgt.powerSteps = (reachNs x 100000000 s.dev).mgt.powerSteps - 1 ∧ t.dev.get R.CRV.CLK.MHZ = t.dev.carverMhz ∧
      Frame [R.CRV.CLK.MHZ] { reachNs x 100000000 s.dev with mgt := t.dev.mgt } s t)) ∧
    (s.dev.mgt.hotSteps ≠ 0 → s.dev.mgt.coolAt = some x → Completes (.carverClockStep true true) s (fun t =>
      t.dev.mgt.hotSteps = (reachNs x 100000000 s.dev).mgt.hotSteps - 1 ∧ t.dev.get R.CRV.CLK.MHZ = t.dev.carverMhz ∧
      Frame [R.CRV.CLK.MHZ] { reachNs x 100000000 s.dev with mgt := t.dev.mgt } s t))) ∧
  (∀ (n : Fin 16) (v : BitVec 16) (s : State), s.dev.aon.off = false → Config.tripReading < sgn 16 v.toNat →
    Completes (.thermalTrip n v) s (fun t =>
      t.dev.aon.off = true ∧ t.dev.aon.tripped = true ∧ t.dev.domains = 1 ∧ t.dev.get R.PWR.TRIP.TEMP = v.toNat ∧
      t.dev.get R.PWR.TRIP.SENSOR = n.val ∧ t.dev.on R.PWR.TRIP.VALID = true ∧ t.dev.dt = s.dev.dt ∧ t.dev.nvm = s.dev.nvm ∧
      t.dev.out = .trip :: .alert :: s.dev.out ∧ t.mem = (s.after s.dev).mem)) ∧
  (∀ (rs : List RailRead) (e : Dev) (s : State), s.dev.mgtUp = true → s.dev.on R.MGT.PMB_CTL.EN = true →
    s.dev.powerRails.length ≤ s.dev.powerRailLimit → e = everyMs s.dev.mgt.powAt s.dev →
    Completes (.powerRead rs) s (fun t => t.dev.mgt.powAt = some e.dt ∧
      t.dev.mgt.highAt = (if s.dev.powerCeiling < t.dev.railPower then some (s.dev.mgt.highAt.getD e.dt) else none) ∧
      t.dev.mgt.lowAt = (if 100 * t.dev.railPower < 95 * s.dev.powerCeiling then some (s.dev.mgt.lowAt.getD e.dt) else none))) ∧
  (∀ (x : RailRead) (v : BitVec 16) (e : Dev) (s : State), s.dev.mgtUp = true → s.dev.on R.MGT.PMB_CTL.EN = true →
    s.dev.powerRails.length ≤ s.dev.powerRailLimit → e = everyMs s.dev.mgt.powAt s.dev →
    s.dev.on (R.MGT.PMB_RAIL.EN x.rail.val) = true → (s.dev.railS x.rail.val).faultAt = none →
    (x.pout = some v → x.fails < 3 → Completes (.powerRead [x]) s (fun t =>
      t.dev.get (R.MGT.PMB_POUT.POUT x.rail.val) = v.toNat ∧ 
      t.dev.out = .pmbus (s.dev.get (R.MGT.PMB_RAIL.ADDR x.rail.val)) (s.dev.get (R.MGT.PMB_RAIL.PAGE x.rail.val)) 0x96 v.toNat :: s.dev.out ∧
      Frame [R.MGT.PMB_POUT.POUT x.rail.val, R.MGT.STAT.COUNT 3, R.MGT.STAT.COUNT 4] { e with mgt := t.dev.mgt, out := t.dev.out } s t)) ∧
    (3 ≤ x.fails → Completes (.powerRead [x]) s (fun t =>
      t.dev.on (R.MGT.PMB_POUT.FAULT x.rail.val) = true ∧ (t.dev.railS x.rail.val).faultAt = some e.dt ∧
      Raised R.MGT.STATUS.SEQ [R.MGT.STATUS.PMB_FAULT] s.dev t.dev))) ∧
  (∀ (rs : List RailRead) (s : State), s.dev.mgtUp = true → s.dev.on R.MGT.PMB_CTL.EN = true → s.dev.powerRailLimit < s.dev.powerRails.length →
    ∃ w, exec (.powerRead rs) s = .fault (.hostError w)) ∧
  (∀ (r : Fin 8) (x : Nat) (s : State), (s.dev.railS r.val).faultAt = some x →
    Completes (.railFaultEnd r) s (fun t =>
      t.dev.on (R.MGT.PMB_POUT.FAULT r.val) = false ∧ (t.dev.railS r.val).faultAt = none ∧
      Frame [R.MGT.PMB_POUT.FAULT r.val] { reachNs x 1000000000 s.dev with mgt := t.dev.mgt } s t)) ∧
  (∀ (ws on : List (Fin 8 × BitVec 16)) (s : State), s.dev.mgtUp = true → s.dev.on R.MGT.PMB_CTL.EN = true →
    on = ws.filter (fun x => s.dev.on (R.MGT.PMB_RAIL.EN x.1.val)) →
    Completes (.smbalert ws) s (fun t =>
      t.dev.out = (on.map (fun x => Out.pmbus (s.dev.get (R.MGT.PMB_RAIL.ADDR x.1.val)) (s.dev.get (R.MGT.PMB_RAIL.PAGE x.1.val)) 0x79 x.2.toNat)).reverse
        ++ s.dev.out ∧ Counted (R.MGT.STAT.COUNT 3) on.length s.dev t.dev ∧
      Frame [R.MGT.STAT.COUNT 3, R.MGT.STAT.COUNT 4] { s.dev with out := t.dev.out } s t)) ∧
  (∀ (slack : BitVec 8) (r : Nat) (o : Out) (e : Dev) (s : State), s.dev.avsActs r → e = everyMs s.dev.mgt.avsAt s.dev →
    o = .pmbus (s.dev.get (R.MGT.PMB_RAIL.ADDR r)) (s.dev.get (R.MGT.PMB_RAIL.PAGE r)) 0x21 (s.dev.get R.MGT.AVS.MV + 10) → 690 ≤ s.dev.get R.MGT.AVS.MV → s.dev.get R.MGT.AVS.MV ≤ 790 →
    s.dev.get R.MGT.AVS_LIM.VMIN ≤ s.dev.get R.MGT.AVS.MV + 10 → s.dev.get R.MGT.AVS.MV + 10 ≤ s.dev.get R.MGT.AVS_LIM.VMAX →
    (slack.toNat < 4 → Completes (.avsEvaluation slack) s (fun t => t.dev.get R.MGT.AVS.MV = s.dev.get R.MGT.AVS.MV + 10 ∧
      t.dev.out = o :: s.dev.out ∧ Counted (R.MGT.STAT.COUNT 5) 1 s.dev t.dev ∧
      Frame [R.MGT.AVS.MV, R.MGT.STAT.COUNT 3, R.MGT.STAT.COUNT 4, R.MGT.STAT.COUNT 5] { e with mgt := t.dev.mgt, out := t.dev.out } s t)) ∧
    (4 ≤ slack.toNat → slack.toNat ≤ 8 → Completes (.avsEvaluation slack) s (fun t => t.dev.mgt.calm = 0 ∧
      Frame [] { e with mgt := t.dev.mgt } s t)) ∧
    (8 < slack.toNat → s.dev.mgt.calm < 99 → Completes (.avsEvaluation slack) s (fun t => t.dev.mgt.calm = s.dev.mgt.calm + 1 ∧
      Frame [] { e with mgt := t.dev.mgt } s t)) ∧
    Completes .avsImmediateRaise s (fun t => t.dev.get R.MGT.AVS.MV = s.dev.get R.MGT.AVS.MV + 10 ∧ t.dev.mgt.calm = 0 ∧
      t.dev.out = o :: s.dev.out ∧ Counted (R.MGT.STAT.COUNT 5) 1 s.dev t.dev ∧
      Frame [R.MGT.AVS.MV, R.MGT.STAT.COUNT 3, R.MGT.STAT.COUNT 4, R.MGT.STAT.COUNT 5] { s.dev with mgt := t.dev.mgt, out := t.dev.out } s t)) ∧
  (∀ (slack : BitVec 8) (r : Nat) (s : State), s.dev.avsActs r → 99 ≤ s.dev.mgt.calm → 8 < slack.toNat →
    705 ≤ s.dev.get R.MGT.AVS.MV → s.dev.get R.MGT.AVS.MV ≤ 800 → s.dev.get R.MGT.AVS_LIM.VMIN + 5 ≤ s.dev.get R.MGT.AVS.MV →
    s.dev.get R.MGT.AVS.MV ≤ s.dev.get R.MGT.AVS_LIM.VMAX + 5 → s.dev.mgt.temps = [] →
    Completes (.avsEvaluation slack) s (fun t => t.dev.get R.MGT.AVS.MV = s.dev.get R.MGT.AVS.MV - 5 ∧ t.dev.mgt.calm = 0 ∧
      Counted (R.MGT.STAT.COUNT 5) 1 s.dev t.dev)) ∧
  (∀ (l : Nat) (rest : List Nat) (e : LogEntry) (s : State), s.dev.ras.coresDown = false → s.dev.persistQ = l :: rest →
    KMap.get (fun _ => ({} : LogEntry)) s.dev.log (l % 8192) = e →
    (e.lseq = l → e.count ≠ 0 → s.dev.mgt.tokens ≠ 0 → s.dev.bothNvm → Completes (.logPersist {}) s (fun t =>
      t.dev.persistQ = rest ∧ (t.dev.nvmS 0).log = ((s.dev.nvmS 0).addLog e).log ∧ (t.dev.nvmS 1).log = ((s.dev.nvmS 1).addLog e).log ∧
      t.dev.mgt.tokens = s.dev.mgt.tokens - 1 ∧ Counted (R.MGT.STAT.COUNT 2) 1 s.dev t.dev)) ∧
    (s.dev.mgt.tokens = 0 → Completes (.logPersist {}) s (fun t =>
      t.dev.persistQ = rest ∧ t.dev.mgt.suppressed = s.dev.mgt.suppressed + 1 ∧ t.dev.nvm = s.dev.nvm ∧
      Raised R.MGT.STATUS.SEQ [R.MGT.STATUS.LOG_SUPPR] s.dev t.dev))) ∧
  (∀ (io : NvmIo) (e : Dev) (s : State), e = reach (dtAddNs s.dev.mgt.refillAt 500000000) s.dev → e.mgt.suppressed = 0 →
    Completes (.logBucketRefill io) s (fun t => t.dev.mgt.tokens = min 4096 (e.mgt.tokens + 1) ∧
      t.dev.mgt.refillAt = dtAddNs s.dev.mgt.refillAt 500000000 ∧ Frame [] { e with mgt := t.dev.mgt } s t))

/-- With a request waiting, serving cores and working NVM devices: INFO, LOG_READ, REPAIR_READ and SENSORS answer what
they name; LOG_WRITE logs an entry; IMG_BEGIN erases the target slot, IMG_WRITE writes it, IMG_VERIFY checks it, and
IMG_COMMIT makes it PENDING; FW_ACTIVATE restarts the cores from the committed slot; REPAIR_CLEAR and REPAIR_COMPACT
rewrite the map for the right serial number; CAL_RUN makes a run due; ROOT_PROG programs the root hash once. An
answer clears BUSY, stores status, length and payload, and raises MBX_DONE. -/
def Obligations.MailboxCommandsAreAnswered : Prop :=
  (∀ s : State, s.dev.mbxAsks 1 0 → Completes .info s (fun t => Answered s.dev t.dev 0
    (leBytes 2 (s.dev.get R.MGT.ID.FW_VER) ++ leBytes 2 (s.dev.get R.MGT.ID.ROM_VER) ++ leBytes 8 Config.serial ++ leBytes 8 Config.dieId
      ++ s.dev.slotTab.bytes ++ leBytes 4 (s.dev.get (R.MGT.STAT.COUNT 6))))) ∧
  (∀ s : State, s.dev.mbxAsks 2 6 → s.dev.bothNvm → s.dev.arg 4 2 ≤ 500 → Completes (.logRead {}) s (fun t =>
    Answered s.dev t.dev 0 (logRead (s.dev.arg 0 4) (s.dev.arg 4 2) (s.dev.nvmS 0).log))) ∧
  (∀ s : State, s.dev.mbxAsks 3 12 → 0xff00 ≤ s.dev.arg 0 2 → s.dev.arg 2 1 ≤ 3 → Completes .logWrite s (fun t =>
    Answered s.dev t.dev 0 [] ∧ (s.dev.logNewest = none → t.dev.lseq = (s.dev.lseq + 1) % 2 ^ 32))) ∧
  (∀ s : State, s.dev.mbxAsks 3 0 → s.dev.mbxField 8 4 < 12 → Completes .logWrite s (fun t => Answered s.dev t.dev 2 [] ∧ t.dev.lseq = s.dev.lseq)) ∧
  (∀ (n : Nat) (s : State), s.dev.mbxAsks 0x10 4 → s.dev.bothNvm → n = s.dev.target → s.dev.arg 0 4 ≤ 2 ^ 25 → Completes (.imgBegin {}) s (fun t =>
    Answered s.dev t.dev 0 (leBytes 1 n) ∧ (t.dev.nvmS 0).img n = [] ∧ (t.dev.nvmS 1).img n = [] ∧ t.dev.slotTab.stateOf n = 0 ∧
    t.dev.mgt.imgLen = some (s.dev.arg 0 4) ∧ t.dev.mgt.imgOk = false)) ∧
  (∀ (n len : Nat) (data : List Byte) (s : State), s.dev.mbxAsks 0x11 4 → s.dev.bothNvm → n = s.dev.target → s.dev.mgt.imgLen = some len →
    data = s.dev.mbxBytes 20 (s.dev.mbxField 8 4 - 4) → s.dev.arg 0 4 + data.length ≤ len → Completes (.imgWrite {}) s (fun t =>
    Answered s.dev t.dev 0 [] ∧ (t.dev.nvmS 0).img n = imgPut ((s.dev.nvmS 0).img n) (s.dev.arg 0 4) data ∧
    (t.dev.nvmS 1).img n = imgPut ((s.dev.nvmS 1).img n) (s.dev.arg 0 4) data ∧ t.dev.mgt.imgOk = false)) ∧
  (∀ (n : Nat) (s : State), s.dev.mbxAsks 0x12 0 → s.dev.bothNvm → n = s.dev.target →
    (s.dev.slotFails 0 n = 0 → Completes (.imgVerify {}) s (fun t => Answered s.dev t.dev 0 (leBytes 4 0) ∧ t.dev.mgt.imgOk = true)) ∧
    (s.dev.slotFails 0 n ≠ 0 → s.dev.slotFails 0 n ≠ 3 → Completes (.imgVerify {}) s (fun t =>
      Answered s.dev t.dev (verifyStatus (s.dev.slotFails 0 n) ((s.dev.nvmS 0).image n (s.dev.slotTab.len n))) (leBytes 4 (s.dev.slotFails 0 n)) ∧
      t.dev.mgt.imgOk = false))) ∧
  (∀ (n : Nat) (s : State), s.dev.mbxAsks 0x13 0 → s.dev.bothNvm → n = s.dev.target →
    (s.dev.mgt.imgOk = true → Completes (.imgCommit {}) s (fun t => Answered s.dev t.dev 0 [] ∧ t.dev.slotTab.stateOf n = 2 ∧
      t.dev.slotTab.pending' = n ∧ t.dev.mgt.committed = some n)) ∧
    (s.dev.mgt.imgOk = false → Completes (.imgCommit {}) s (fun t => Answered s.dev t.dev 8 [] ∧ t.dev.nvm = s.dev.nvm))) ∧
  (∀ (n : Nat) (s : State), s.dev.mbxAsks 0x14 0 → s.dev.bothNvm → s.dev.mgt.committed = some n → Completes (.fwActivate {}) s (fun t =>
    t.dev.ras.coresDown = true ∧ t.dev.get R.MGT.STATUS.STATE = 2 ∧ t.dev.mgt.owedStatus = some 0 ∧ t.dev.slotTab.fwslot = n ∧
    t.dev.on R.MGT.MBX_STATUS.BUSY = true ∧ Counted (R.MGT.STAT.COUNT 7) 1 s.dev t.dev)) ∧
  (∀ s : State, s.dev.mbxAsks 0x20 4 → s.dev.bothNvm → s.dev.arg 2 2 ≤ 500 → Completes (.repairRead {}) s (fun t => Answered s.dev t.dev 0
    (s.dev.mapDev.mapHeader ++ ((s.dev.mapDev.repairs.drop (s.dev.arg 0 2)).take (s.dev.arg 2 2)).flatMap RepEntry.bytes))) ∧
  (∀ (lo n : Nat) (s : State), s.dev.mbxAsks 0x21 8 → s.dev.bothNvm → lo = s.dev.arg 0 2 → n = s.dev.arg 2 2 →
    s.dev.arg 4 4 = Config.serial % 2 ^ 32 → lo + n ≤ s.dev.mapEntries.length → Completes (.repairClear {}) s (fun t =>
    Answered s.dev t.dev 0 [] ∧ (t.dev.nvmS 0).repairs = s.dev.mapEntries.take lo ++
      ((s.dev.mapEntries.drop lo).take n).map (fun (e : RepEntry) => { e with flags := e.flags ||| 2 }) ++ s.dev.mapEntries.drop (lo + n) ∧
    (t.dev.nvmS 1).repairs = (t.dev.nvmS 0).repairs)) ∧
  (∀ s : State, s.dev.mbxAsks 0x22 4 → s.dev.bothNvm → s.dev.arg 0 4 = Config.serial % 2 ^ 32 → Completes (.repairCompact {}) s (fun t =>
    Answered s.dev t.dev 0 (leBytes 4 (s.dev.mapEntries.filter (fun (e : RepEntry) => !bit e.flags 1)).length) ∧
    (t.dev.nvmS 0).repairs = s.dev.mapEntries.filter (fun (e : RepEntry) => !bit e.flags 1) ∧ (t.dev.nvmS 1).repairs = (t.dev.nvmS 0).repairs)) ∧
  (∀ s : State, s.dev.mbxAsks 0x30 2 → (s.dev.ras.service = false → s.dev.arg 0 2 < 43 → Completes .calRun s (fun t =>
      Answered s.dev t.dev 0 [] ∧ s.dev.arg 0 2 ∈ t.dev.cal.asked)) ∧
    (s.dev.ras.service = true → Completes .calRun s (fun t => Answered s.dev t.dev 0xa [] ∧ t.dev.cal = s.dev.cal))) ∧
  (∀ s : State, s.dev.mbxAsks 0x31 0 → Completes .sensors s (fun t => Answered s.dev t.dev 0
    ((List.range 16).flatMap (fun n => leBytes 2 (s.dev.get (R.MGT.TS.TEMP n))) ++ leBytes 4 (s.dev.get R.MGT.VMON_LO.OUT)
      ++ leBytes 4 (s.dev.get R.MGT.VMON_HI.OUT) ++ (List.range 8).flatMap (fun r => leBytes 2 (s.dev.railS r).vin ++ leBytes 2 (s.dev.railS r).vout
      ++ leBytes 2 (s.dev.railS r).iout ++ leBytes 2 (s.dev.railS r).temp ++ leBytes 2 (s.dev.get (R.MGT.PMB_POUT.POUT r)))))) ∧
  (∀ s : State, s.dev.mbxAsks 0x40 36 → s.dev.arg 32 4 = Config.serial % 2 ^ 32 →
    (s.dev.rootHash = [] → Completes .rootProg s (fun t => Answered s.dev t.dev 0 [] ∧ t.dev.rootHash = s.dev.mbxBytes 16 32)) ∧
    (s.dev.rootHash ≠ [] → Completes .rootProg s (fun t => Answered s.dev t.dev 8 [] ∧ t.dev.rootHash = s.dev.rootHash)))

/-- A named or all targets are made due, the lowest due target runs, and its run stores the clipped target codes, or
reports a CAL_RES fault and keeps them; a code outside its range sets LIMIT. A code steps by one towards its target;
a DDR code is held for its window. A valid recipe number starts a load, another is refused; a load that ends is
ARMED with its held records, and a record of another class is a host error. STANDBY leaves the PLLs off and the
chain empty, and a wake source before its end returns to RUN; OFF leaves AON with DT and NVM. The host, the alarm or
an event pin wakes a device in STANDBY, and the source is shown. -/
def Obligations.CalibrationRecipesAndPowerStates : Prop :=
  (∀ (n : BitVec 6) (s : State), Completes (.calCmdRun n) s (fun t =>
    (∀ k, k < 43 → (n.toNat = k ∨ n.toNat = 63) → k ∈ t.dev.cal.asked) ∧ (∀ k, k ∈ s.dev.cal.asked → k ∈ t.dev.cal.asked) ∧
    Frame [] { s.dev with cal := t.dev.cal } s t)) ∧
  (∀ (x : Nat) (s : State), s.dev.calMoves = true → s.dev.on R.CAL.CTL.EN = true → s.dev.get R.CAL.STATUS.ACTIVE = 0x3f →
    (List.range 43).find? s.dev.due = some x →
    Completes .caliperRun s (fun t => t.dev.get R.CAL.STATUS.ACTIVE = x ∧ x ∉ t.dev.cal.asked ∧
      Frame [R.CAL.STATUS.ACTIVE] { s.dev with cal := t.dev.cal } s t)) ∧
  (∀ (x : Nat) (res : BitVec 16) (codes : List Int) (s : State), s.dev.get R.CAL.STATUS.ACTIVE = x → x < 43 →
    (resOk res.toNat = true → calLimit x codes = false → Completes (.caliperRunDone res codes) s (fun t =>
      t.dev.get R.CAL.STATUS.ACTIVE = 0x3f ∧ t.dev.get (R.CAL.TGT.ABCD x) = calClip x codes ∧ Counted (R.CAL.INFO.RUNS x) 1 s.dev t.dev ∧
      Raised R.CAL.STATUS.SEQ [R.CAL.STATUS.RUN_DONE] s.dev t.dev ∧
      Frame [R.CAL.STATUS.ACTIVE, R.CAL.TGT.ABCD x, R.CAL.INFO.RUNS x, R.CAL.INFO.T_LAST x, R.CAL.RES_MEAS.I, R.CAL.STATUS.SEQ, R.CAL.STATUS.RUN_DONE]
        { s.dev with cal := t.dev.cal } s t)) ∧
    (resOk res.toNat = true → calLimit x codes = true → Completes (.caliperRunDone res codes) s (fun t =>
      t.dev.get R.CAL.STATUS.ACTIVE = 0x3f ∧ t.dev.get (R.CAL.TGT.ABCD x) = calClip x codes ∧ t.dev.on R.CAL.STATUS.LIMIT = true)) ∧
    (resOk res.toNat = false → Completes (.caliperRunDone res codes) s (fun t =>
      t.dev.get R.CAL.STATUS.ACTIVE = 0x3f ∧ t.dev.get (R.CAL.TGT.ABCD x) = s.dev.get (R.CAL.TGT.ABCD x) ∧ t.dev.cal.resBad = true ∧
      t.dev.on R.CAL.STATUS.RES_FAULT = true ∧ t.dev.get R.CAL.RES_MEAS.I = res.toNat))) ∧
  (∀ (x : Fin 43) (i : Fin 4) (c g : Nat) (e : Dev) (s : State), s.dev.codesMove = true → c = codeOf (s.dev.get (R.CAL.CODE.ABCD x.val)) i.val →
    g = codeOf (s.dev.get (R.CAL.TGT.ABCD x.val)) i.val → c ≠ g →
    e = (s.dev.stepDue x.val i.val).elim s.dev (fun y => reach y s.dev) →
    (x.val < 15 ∨ 18 < x.val → Completes (.codeStep x i) s (fun t =>
      codeOf (t.dev.get (R.CAL.CODE.ABCD x.val)) i.val = (if c < g then c + 1 else c - 1) ∧
      (∀ j : Fin 4, j ≠ i → codeOf (t.dev.get (R.CAL.CODE.ABCD x.val)) j.val = codeOf (s.dev.get (R.CAL.CODE.ABCD x.val)) j.val) ∧
      Frame [R.CAL.CODE.ABCD x.val] { e with cal := t.dev.cal } s t)) ∧
    (15 ≤ x.val → x.val ≤ 18 → Completes (.codeStep x i) s (fun t => Frame [] s.dev s t))) ∧
  (∀ (r : Fin 8) (s : State),
    (bit (s.dev.get R.TOP.RECIPE.VALID) r.val = true → Completes (.recipeNext r) s (fun t =>
      t.dev.get R.TOP.RECIPE.NEXT = r.val ∧ t.dev.get R.TOP.RECIPE.STATE = 1 ∧ t.dev.rcp.loading = r.val ∧ t.dev.rcp.kept = [] ∧
      (∀ u ∈ recipeUnits (s.dev.recipe r.val), t.dev.on (tblBusy u) = true))) ∧
    (bit (s.dev.get R.TOP.RECIPE.VALID) r.val = false → Completes (.recipeNext r) s (fun t =>
      t.dev.get R.TOP.RECIPE.STATE = 0 ∧ t.dev.rcp.kept = [] ∧ Raised R.TOP.RECIPE_STATUS.SEQ [R.TOP.RECIPE_STATUS.REFUSED] s.dev t.dev))) ∧
  (∀ (rs : List ImgRec) (e : Dev) (s : State), s.dev.get R.TOP.RECIPE.STATE = 1 → rs = s.dev.recipe s.dev.rcp.loading →
    (recipeUnits rs).any s.dev.copyRuns = false → rs.all ImgRec.classOk = true →
    recipeRecs (fun _ => false) s.mem (rs.filter (fun r => r.isTable || r.isBatch)) s.dev = .next e →
    Completes .recipeArmed s (fun t => t.dev.get R.TOP.RECIPE.STATE = 2 ∧ t.dev.rcp.kept = rs.filter ImgRec.isHeld ∧
      Frame [R.TOP.RECIPE.STATE] { e with rcp := t.dev.rcp } s t)) ∧
  (∀ s : State, s.dev.get R.TOP.RECIPE.STATE = 1 → (recipeUnits (s.dev.recipe s.dev.rcp.loading)).any s.dev.copyRuns = false →
    (s.dev.recipe s.dev.rcp.loading).all ImgRec.classOk = false → ∃ w, exec .recipeArmed s = .fault (.hostError w)) ∧
  (∀ (acked : Bool) (s : State), s.dev.takesPower = true →
    Completes (.standby acked false) s (fun t => t.dev.get R.PWR.STATUS.STATE = 3 ∧ t.dev.get R.PWR.PLL.RUN = 0 ∧ t.dev.get R.PWR.PLL.LOCK = 0 ∧
      t.dev.vrd.pend = [] ∧ t.dev.objQ = [] ∧ t.dev.homeQ = []) ∧
    Completes (.standby acked true) s (fun t => t.dev.get R.PWR.STATUS.STATE = 1 ∧ t.dev.vrd.pend = []) ∧
    Completes (.off acked false) s (fun t => t.dev.aon.off = true ∧ t.dev.domains = 1 ∧ t.dev.nvm = s.dev.nvm ∧ t.dev.rootHash = s.dev.rootHash)) ∧
  (∀ (acked wk : Bool) (s : State), s.dev.get R.TOP.STATE.MODE = 1 → s.dev.get R.PWR.STATUS.STATE = 3 →
    Completes (.off acked wk) s (fun t => t.dev.aon.off = true ∧ t.dev.domains = 1 ∧ t.dev.nvm = s.dev.nvm ∧ t.dev.dt = s.dev.dt ∧
      t.dev.tim.epoch = s.dev.tim.epoch)) ∧
  (∀ (trim : BitVec 8) (s : State), s.dev.get R.PWR.STATUS.STATE = 3 → s.dev.on R.PWR.WAKE_EN.HOST = true →
    Completes (.wake trim) s (fun t => t.dev.get R.PWR.STATUS.STATE = 1 ∧ t.dev.get R.PWR.WAKE_SRC.SRC = 1 ∧
      t.dev.get R.PWR.RC_TRIM.CODE = trim.toNat ∧ t.dev.on R.PWR.STATUS.WOKE = true)) ∧
  (∀ (env : BootEnv) (e : Dev) (s : State), s.dev.aon.off = false → s.dev.get R.PWR.STATUS.STATE = 3 → s.dev.on R.PWR.WAKE_EN.ALARM = true →
    s.dev.aon.tripped = false → e = reach (s.dev.get R.PWR.WAKE_DT.DT / 65536 * 65536) s.dev → e.aon.tripped = false → e.aon.off = false →
    e.get R.PWR.STATUS.STATE = 3 →
    Completes (.wakeAlarm env) s (fun t => t.dev.get R.PWR.STATUS.STATE = 1 ∧ t.dev.get R.PWR.WAKE_SRC.SRC = 4)) ∧
  (∀ (i : Fin 8) (rising : Bool) (env : BootEnv) (s : State), s.dev.aon.off = false → s.dev.get R.PWR.STATUS.STATE = 3 →
    s.dev.reads (28 + i.val) = true → s.dev.on R.PWR.WAKE_EN.EVT = true → bit (s.dev.get R.PWR.WAKE_EN.EVT_MASK) i.val = true →
    rising = s.dev.on R.PWR.WAKE_EN.EVT_POL → s.dev.aon.tripped = false →
    Completes (.wakeEvent i rising env) s (fun t => t.dev.get R.PWR.STATUS.STATE = 1 ∧
      t.dev.get R.PWR.WAKE_SRC.SRC = (if s.dev.alarmNow then 6 else 2)))
end

