-- ==== Sys2Proof/Laws/Exec.lean ====
section
/-!
SUPPORT. `exec` at each command: the meaning that its arm calls.
-/

namespace Sys2Proof.Machine

@[simp] theorem exec_porstNAssert (s : State) : exec (.porstNAssert) s = execPorstNAssert s := rfl
@[simp] theorem exec_startUp (env : BootEnv) (s : State) : exec (.startUp env) s = execStartUp env s := rfl
@[simp] theorem exec_perstNRelease (env : BootEnv) (s : State) : exec (.perstNRelease env) s = execPerstNRelease env s := rfl
@[simp] theorem exec_rebase (key : BitVec 16) (env : BootEnv) (s : State) : exec (.rebase key env) s = execRebase key env s := rfl
@[simp] theorem exec_arbiterWindow (s : State) : exec (.arbiterWindow) s = execArbiterWindow s := rfl
@[simp] theorem exec_runTimeClaim (ty : Fin 5) (idx : Fin 64) (owner : Fin 15) (free : Bool) (s : State) : exec (.runTimeClaim ty idx owner free) s = execRunTimeClaim ty idx owner free s := rfl
@[simp] theorem exec_registerWrite (user : Bool) (addr : BitVec 25) (size : Nat) (value : BitVec 64) (env : BootEnv) (s : State) : exec (.registerWrite user addr size value env) s = execRegisterWrite user addr size value env s := rfl
@[simp] theorem exec_rwpWriteLands (cal : Bool) (s : State) : exec (.rwpWriteLands cal) s = execRwpWriteLands cal s := rfl
@[simp] theorem exec_rsqClear (addr : BitVec 25) (value : BitVec 32) (s : State) : exec (.rsqClear addr value) s = execRsqClear addr value s := rfl
@[simp] theorem exec_blockBoundary (block : Fin 22) (inst : Fin 12) (s : State) : exec (.blockBoundary block inst) s = execBlockBoundary block inst s := rfl
@[simp] theorem exec_tFieldScrub (hits : List THit) (s : State) : exec (.tFieldScrub hits) s = execTFieldScrub hits s := rfl
@[simp] theorem exec_tFieldRestore (s : State) : exec (.tFieldRestore) s = execTFieldRestore s := rfl
@[simp] theorem exec_arm (s : State) : exec (.arm) s = execArm s := rfl
@[simp] theorem exec_snapshotTrigger (mgmt : Bool) (s : State) : exec (.snapshotTrigger mgmt) s = execSnapshotTrigger mgmt s := rfl
@[simp] theorem exec_snapIn (rising : Bool) (s : State) : exec (.snapIn rising) s = execSnapIn rising s := rfl
@[simp] theorem exec_snapshotLatch (block : Fin 22) (inst : Fin 136) (s : State) : exec (.snapshotLatch block inst) s = execSnapshotLatch block inst s := rfl
@[simp] theorem exec_snapshotHeld (s : State) : exec (.snapshotHeld) s = execSnapshotHeld s := rfl
@[simp] theorem exec_snapshotRelease (s : State) : exec (.snapshotRelease) s = execSnapshotRelease s := rfl
@[simp] theorem exec_collectionBoundary (s : State) : exec (.collectionBoundary) s = execCollectionBoundary s := rfl
@[simp] theorem exec_dumpComplete (s : State) : exec (.dumpComplete) s = execDumpComplete s := rfl
@[simp] theorem exec_dtWrap (s : State) : exec (.dtWrap) s = execDtWrap s := rfl
@[simp] theorem exec_refclkLoss (i : Fin 2) (s : State) : exec (.refclkLoss i) s = execRefclkLoss i s := rfl
@[simp] theorem exec_refclkEligible (i : Fin 2) (s : State) : exec (.refclkEligible i) s = execRefclkEligible i s := rfl
@[simp] theorem exec_pllUnlock (i : Fin 6) (s : State) : exec (.pllUnlock i) s = execPllUnlock i s := rfl
@[simp] theorem exec_pllRelock (i : Fin 6) (s : State) : exec (.pllRelock i) s = execPllRelock i s := rfl
@[simp] theorem exec_batchCtlEnd (s : State) : exec (.batchCtlEnd) s = execBatchCtlEnd s := rfl
@[simp] theorem exec_batchStart (s : State) : exec (.batchStart) s = execBatchStart s := rfl
@[simp] theorem exec_lineIssue (g : Fin 4) (s : State) : exec (.lineIssue g) s = execLineIssue g s := rfl
@[simp] theorem exec_triggerMessage (p : Fin 12) (s : State) : exec (.triggerMessage p) s = execTriggerMessage p s := rfl
@[simp] theorem exec_trigOutPulse (p : Fin 12) (s : State) : exec (.trigOutPulse p) s = execTrigOutPulse p s := rfl
@[simp] theorem exec_trigOutPulseEnd (p : Fin 12) (s : State) : exec (.trigOutPulseEnd p) s = execTrigOutPulseEnd p s := rfl
@[simp] theorem exec_encoderEdge (e : Fin 2) (edge : EncEdge) (s : State) : exec (.encoderEdge e edge) s = execEncoderEdge e edge s := rfl
@[simp] theorem exec_encoderIndex (e : Fin 2) (s : State) : exec (.encoderIndex e) s = execEncoderIndex e s := rfl
@[simp] theorem exec_compareFire (n : Fin 16) (s : State) : exec (.compareFire n) s = execCompareFire n s := rfl
@[simp] theorem exec_cmpTimeWrite (n : Fin 16) (half : Option (Fin 2)) (value : BitVec 64) (s : State) : exec (.cmpTimeWrite n half value) s = execCmpTimeWrite n half value s := rfl
@[simp] theorem exec_eventCapture (i : Fin 8) (edge : PinEdge) (s : State) : exec (.eventCapture i edge) s = execEventCapture i edge s := rfl
@[simp] theorem exec_pop (i : Fin 8) (s : State) : exec (.pop i) s = execPop i s := rfl
@[simp] theorem exec_ptmDialogue (s : State) : exec (.ptmDialogue) s = execPtmDialogue s := rfl
@[simp] theorem exec_ptmNow (s : State) : exec (.ptmNow) s = execPtmNow s := rfl
@[simp] theorem exec_ptmResponse (master : BitVec 64) (delay : BitVec 32) (s : State) : exec (.ptmResponse master delay) s = execPtmResponse master delay s := rfl
@[simp] theorem exec_ptmTimeout (s : State) : exec (.ptmTimeout) s = execPtmTimeout s := rfl
@[simp] theorem exec_sync (k : Fin 8) (s : State) : exec (.sync k) s = execSync k s := rfl
@[simp] theorem exec_announce (k : Fin 8) (s : State) : exec (.announce k) s = execAnnounce k s := rfl
@[simp] theorem exec_pdelayReq (k : Fin 8) (ident : BitVec 80) (seqId : BitVec 16) (s : State) : exec (.pdelayReq k ident seqId) s = execPdelayReq k ident seqId s := rfl
@[simp] theorem exec_signalDetect (l : Fin 48) (s : State) : exec (.signalDetect l) s = execSignalDetect l s := rfl
@[simp] theorem exec_cdrLock (l : Fin 48) (ctle : BitVec 4) (s : State) : exec (.cdrLock l ctle) s = execCdrLock l ctle s := rfl
@[simp] theorem exec_blockLock (l : Fin 60) (blks : List Blk) (dfe : BitVec 30) (s : State) : exec (.blockLock l blks dfe) s = execBlockLock l blks dfe s := rfl
@[simp] theorem exec_blockLockLoss (l : Fin 60) (blks : List Blk) (s : State) : exec (.blockLockLoss l blks) s = execBlockLockLoss l blks s := rfl
@[simp] theorem exec_alignmentMarker (l : Fin 60) (b : Blk) (rx : List Blk) (slotNo : Nat) (s : State) : exec (.alignmentMarker l b rx slotNo) s = execAlignmentMarker l b rx slotNo s := rfl
@[simp] theorem exec_alignmentLockLoss (l : Fin 60) (n : Nat) (s : State) : exec (.alignmentLockLoss l n) s = execAlignmentLockLoss l n s := rfl
@[simp] theorem exec_laneStateTimeout (l : Fin 48) (s : State) : exec (.laneStateTimeout l) s = execLaneStateTimeout l s := rfl
@[simp] theorem exec_train (l : Fin 48) (b : Blk) (s : State) : exec (.train l b) s = execTrain l b s := rfl
@[simp] theorem exec_eyeMargin (l : Fin 48) (margin : BitVec 6) (s : State) : exec (.eyeMargin l margin) s = execEyeMargin l margin s := rfl
@[simp] theorem exec_trainReqTimeout (l : Fin 48) (s : State) : exec (.trainReqTimeout l) s = execTrainReqTimeout l s := rfl
@[simp] theorem exec_retrain (l : Fin 60) (s : State) : exec (.retrain l) s = execRetrain l s := rfl
@[simp] theorem exec_rateWrite (l : Fin 60) (rate : BitVec 2) (s : State) : exec (.rateWrite l rate) s = execRateWrite l rate s := rfl
@[simp] theorem exec_remove (l : Fin 60) (s : State) : exec (.remove l) s = execRemove l s := rfl
@[simp] theorem exec_restore (l : Fin 48) (s : State) : exec (.restore l) s = execRestore l s := rfl
@[simp] theorem exec_quadPllUnlock (q : Fin 15) (s : State) : exec (.quadPllUnlock q) s = execQuadPllUnlock q s := rfl
@[simp] theorem exec_laneLoss (l : Fin 48) (cause : Fin 5) (ends : Bool) (s : State) : exec (.laneLoss l cause ends) s = execLaneLoss l cause ends s := rfl
@[simp] theorem exec_laneLossConfirm (l : Fin 48) (s : State) : exec (.laneLossConfirm l) s = execLaneLossConfirm l s := rfl
@[simp] theorem exec_restoreEligible (l : Fin 48) (s : State) : exec (.restoreEligible l) s = execRestoreEligible l s := rfl
@[simp] theorem exec_eqStep (l : Fin 48) (code : Fin 7) (up : Bool) (s : State) : exec (.eqStep l code up) s = execEqStep l code up s := rfl
@[simp] theorem exec_injOnce (l : Fin 60) (s : State) : exec (.injOnce l) s = execInjOnce l s := rfl
@[simp] theorem exec_linkCfg (p : Fin 12) (s : State) : exec (.linkCfg p) s = execLinkCfg p s := rfl
@[simp] theorem exec_rawPacket (p : Fin 12) (rows : List (List Blk)) (s : State) : exec (.rawPacket p rows) s = execRawPacket p rows s := rfl
@[simp] theorem exec_ringSlotWritten (p : Fin 12) (s : State) : exec (.ringSlotWritten p) s = execRingSlotWritten p s := rfl
@[simp] theorem exec_metadata (p : Fin 12) (rows : List (List Blk)) (s : State) : exec (.metadata p rows) s = execMetadata p rows s := rfl
@[simp] theorem exec_camStatus (p : Fin 12) (rows : List (List Blk)) (s : State) : exec (.camStatus p rows) s = execCamStatus p rows s := rfl
@[simp] theorem exec_filler (p : Fin 12) (rows : List (List Blk)) (s : State) : exec (.filler p rows) s = execFiller p rows s := rfl
@[simp] theorem exec_regResp (p : Fin 12) (rows : List (List Blk)) (s : State) : exec (.regResp p rows) s = execRegResp p rows s := rfl
@[simp] theorem exec_echoResp (p : Fin 12) (t4 : BitVec 64) (rows : List (List Blk)) (s : State) : exec (.echoResp p t4 rows) s = execEchoResp p t4 rows s := rfl
@[simp] theorem exec_maskMark (p : Fin 12) (rows : List (List Blk)) (s : State) : exec (.maskMark p rows) s = execMaskMark p rows s := rfl
@[simp] theorem exec_lineWatchdog (p : Fin 12) (s : State) : exec (.lineWatchdog p) s = execLineWatchdog p s := rfl
@[simp] theorem exec_camStatusTimeout (p : Fin 12) (s : State) : exec (.camStatusTimeout p) s = execCamStatusTimeout p s := rfl
@[simp] theorem exec_hold (p : Fin 12) (s : State) : exec (.hold p) s = execHold p s := rfl
@[simp] theorem exec_relink (p : Fin 12) (s : State) : exec (.relink p) s = execRelink p s := rfl
@[simp] theorem exec_echoReq (p : Fin 12) (s : State) : exec (.echoReq p) s = execEchoReq p s := rfl
@[simp] theorem exec_echoTimeout (p : Fin 12) (s : State) : exec (.echoTimeout p) s = execEchoTimeout p s := rfl
@[simp] theorem exec_timeSet (p : Fin 12) (s : State) : exec (.timeSet p) s = execTimeSet p s := rfl
@[simp] theorem exec_cregRd (p : Fin 12) (w : Fin 2) (s : State) : exec (.cregRd p w) s = execCregRd p w s := rfl
@[simp] theorem exec_cregWr (p : Fin 12) (w : Fin 2) (s : State) : exec (.cregWr p w) s = execCregWr p w s := rfl
@[simp] theorem exec_cregTimeout (p : Fin 12) (w : Fin 2) (s : State) : exec (.cregTimeout p w) s = execCregTimeout p w s := rfl
@[simp] theorem exec_guestLineStart (n : Fin 8) (s : State) : exec (.guestLineStart n) s = execGuestLineStart n s := rfl
@[simp] theorem exec_poisonedResponse (n : Fin 8) (sent : Nat) (addr : Nat) (s : State) : exec (.poisonedResponse n sent addr) s = execPoisonedResponse n sent addr s := rfl
@[simp] theorem exec_latheLineOutput (n : Fin 8) (c : Fin 3) (clocks : Nat) (s : State) : exec (.latheLineOutput n c clocks) s = execLatheLineOutput n c clocks s := rfl
@[simp] theorem exec_latheClockGate (n : Fin 8) (s : State) : exec (.latheClockGate n) s = execLatheClockGate n s := rfl
@[simp] theorem exec_trackingWindowEnd (n : Fin 8) (c : Fin 3) (s : State) : exec (.trackingWindowEnd n c) s = execTrackingWindowEnd n c s := rfl
@[simp] theorem exec_swap (t : TblUnit) (s : State) : exec (.swap t) s = execSwap t s := rfl
@[simp] theorem exec_copy (t : TblUnit) (s : State) : exec (.copy t) s = execCopy t s := rfl
@[simp] theorem exec_copyDone (t : TblUnit) (s : State) : exec (.copyDone t) s = execCopyDone t s := rfl
@[simp] theorem exec_latheSelfTest (n : Fin 8) (ok : Bool) (s : State) : exec (.latheSelfTest n ok) s = execLatheSelfTest n ok s := rfl
@[simp] theorem exec_viewLine (s : State) : exec (.viewLine) s = execViewLine s := rfl
@[simp] theorem exec_fusionDeadline (s : State) : exec (.fusionDeadline) s = execFusionDeadline s := rfl
@[simp] theorem exec_seamTrackingWindow (s : State) : exec (.seamTrackingWindow) s = execSeamTrackingWindow s := rfl
@[simp] theorem exec_runRecord (g : Fin 136) (s : State) : exec (.runRecord g) s = execRunRecord g s := rfl
@[simp] theorem exec_endRecord (g : Fin 136) (s : State) : exec (.endRecord g) s = execEndRecord g s := rfl
@[simp] theorem exec_gougeClockGate (g : Fin 136) (s : State) : exec (.gougeClockGate g) s = execGougeClockGate g s := rfl
@[simp] theorem exec_groupPowerGate (grp : Fin 8) (s : State) : exec (.groupPowerGate grp) s = execGroupPowerGate grp s := rfl
@[simp] theorem exec_groupWake (grp : Fin 8) (s : State) : exec (.groupWake grp) s = execGroupWake grp s := rfl
@[simp] theorem exec_gougeSelfTest (g : Fin 136) (ok : Bool) (s : State) : exec (.gougeSelfTest g ok) s = execGougeSelfTest g ok s := rfl
@[simp] theorem exec_componentRecord (crcs : RecCrcs) (s : State) : exec (.componentRecord crcs) s = execComponentRecord crcs s := rfl
@[simp] theorem exec_contact (s : State) : exec (.contact) s = execContact s := rfl
@[simp] theorem exec_aliasRecord (s : State) : exec (.aliasRecord) s = execAliasRecord s := rfl
@[simp] theorem exec_partialRecord (s : State) : exec (.partialRecord) s = execPartialRecord s := rfl
@[simp] theorem exec_pairing (b : Fin 136) (s : State) : exec (.pairing b) s = execPairing b s := rfl
@[simp] theorem exec_setComplete (s : State) : exec (.setComplete) s = execSetComplete s := rfl
@[simp] theorem exec_orphans (strip : Fin 136) (s : State) : exec (.orphans strip) s = execOrphans strip s := rfl
@[simp] theorem exec_patchFetch (changed : List (Nat × Nat)) (s : State) : exec (.patchFetch changed) s = execPatchFetch changed s := rfl
@[simp] theorem exec_patchCompute (s : State) : exec (.patchCompute) s = execPatchCompute s := rfl
@[simp] theorem exec_scores (s : State) : exec (.scores) s = execScores s := rfl
@[simp] theorem exec_ageExpiry (s : State) : exec (.ageExpiry) s = execAgeExpiry s := rfl
@[simp] theorem exec_validate (n : Fin 4) (s : State) : exec (.validate n) s = execValidate n s := rfl
@[simp] theorem exec_validationDone (n : Fin 4) (s : State) : exec (.validationDone n) s = execValidationDone n s := rfl
@[simp] theorem exec_carverSelfTest (bad : BitVec 16) (s : State) : exec (.carverSelfTest bad) s = execCarverSelfTest bad s := rfl
@[simp] theorem exec_blobRestore (n : Fin 4) (s : State) : exec (.blobRestore n) s = execBlobRestore n s := rfl
@[simp] theorem exec_verdict (objRoom tagRoom : Bool) (s : State) : exec (.verdict objRoom tagRoom) s = execVerdict objRoom tagRoom s := rfl
@[simp] theorem exec_transmitOpportunity (k : Fin 8) (s : State) : exec (.transmitOpportunity k) s = execTransmitOpportunity k s := rfl
@[simp] theorem exec_statusFrame (k : Fin 8) (src : BitVec 48) (payload : List Byte) (s : State) : exec (.statusFrame k src payload) s = execStatusFrame k src payload s := rfl
@[simp] theorem exec_cancelAll (s : State) : exec (.cancelAll) s = execCancelAll s := rfl
@[simp] theorem exec_cancelAbandon (s : State) : exec (.cancelAbandon) s = execCancelAbandon s := rfl
@[simp] theorem exec_stranger (k : Fin 8) (src : BitVec 48) (announce : Bool) (s : State) : exec (.stranger k src announce) s = execStranger k src announce s := rfl
@[simp] theorem exec_foreignBeacon (k : Fin 8) (collision : Bool) (s : State) : exec (.foreignBeacon k collision) s = execForeignBeacon k collision s := rfl
@[simp] theorem exec_csmaReturn (k : Fin 8) (s : State) : exec (.csmaReturn k) s = execCsmaReturn k s := rfl
@[simp] theorem exec_segmentDown (k : Fin 8) (s : State) : exec (.segmentDown k) s = execSegmentDown k s := rfl
@[simp] theorem exec_silent (k : Fin 8) (n : Fin 32) (s : State) : exec (.silent k n) s = execSilent k n s := rfl
@[simp] theorem exec_fireOutPulse (i : Fin 16) (sp : Bool) (s : State) : exec (.fireOutPulse i sp) s = execFireOutPulse i sp s := rfl
@[simp] theorem exec_fireOutPulseEnd (i : Fin 16) (s : State) : exec (.fireOutPulseEnd i) s = execFireOutPulseEnd i s := rfl
@[simp] theorem exec_vrdTableRestore (active : Bool) (table : Fin 3) (index : Nat) (s : State) : exec (.vrdTableRestore active table index) s = execVrdTableRestore active table index s := rfl
@[simp] theorem exec_dramRequest (user : Fin 6) (a : BitVec 37) (data : Option (List Byte)) (err : DramErr) (s : State) : exec (.dramRequest user a data err) s = execDramRequest user a data err s := rfl
@[simp] theorem exec_remapEntryEnable (ch : Fin 4) (s : State) : exec (.remapEntryEnable ch) s = execRemapEntryEnable ch s := rfl
@[simp] theorem exec_writeBatch (ch : Fin 4) (s : State) : exec (.writeBatch ch) s = execWriteBatch ch s := rfl
@[simp] theorem exec_precharge (ch : Fin 4) (bank : Fin 128) (s : State) : exec (.precharge ch bank) s = execPrecharge ch bank s := rfl
@[simp] theorem exec_refsb (ch : Fin 4) (busy : Bool) (s : State) : exec (.refsb ch busy) s = execRefsb ch busy s := rfl
@[simp] theorem exec_phyUpdateWindow (ch : Fin 4) (s : State) : exec (.phyUpdateWindow ch) s = execPhyUpdateWindow ch s := rfl
@[simp] theorem exec_selfRefreshEntry (ch : Fin 4) (cancel : Bool) (s : State) : exec (.selfRefreshEntry ch cancel) s = execSelfRefreshEntry ch cancel s := rfl
@[simp] theorem exec_mr4Read (ch : Fin 4) (rank : Fin 2) (fast : Bool) (s : State) : exec (.mr4Read ch rank fast) s = execMr4Read ch rank fast s := rfl
@[simp] theorem exec_dqsOscillator (ch : Fin 4) (change : List Int) (fail : Bool) (s : State) : exec (.dqsOscillator ch change fail) s = execDqsOscillator ch change fail s := rfl
@[simp] theorem exec_patrolScrub (ch : Fin 4) (err : DramErr) (s : State) : exec (.patrolScrub ch err) s = execPatrolScrub ch err s := rfl
@[simp] theorem exec_bar2Access (off : BitVec 28) (data : Option (List Byte)) (len : Nat) (err : Bool) (s : State) : exec (.bar2Access off data len err) s = execBar2Access off data len err s := rfl
@[simp] theorem exec_linkDown (busMaster : Bool) (s : State) : exec (.linkDown busMaster) s = execLinkDown busMaster s := rfl
@[simp] theorem exec_linkUp (speed : Fin 4) (width : BitVec 4) (s : State) : exec (.linkUp speed width) s = execLinkUp speed width s := rfl
@[simp] theorem exec_tail (c : Fin 32) (count : BitVec 32) (s : State) : exec (.tail c count) s = execTail c count s := rfl
@[simp] theorem exec_descriptorFetch (c : Fin 32) (host : List Byte) (s : State) : exec (.descriptorFetch c host) s = execDescriptorFetch c host s := rfl
@[simp] theorem exec_descriptorComplete (c : Fin 32) (host : HostResp) (s : State) : exec (.descriptorComplete c host) s = execDescriptorComplete c host s := rfl
@[simp] theorem exec_dmaStart (c : Fin 32) (s : State) : exec (.dmaStart c) s = execDmaStart c s := rfl
@[simp] theorem exec_dmaResume (c : Fin 32) (s : State) : exec (.dmaResume c) s = execDmaResume c s := rfl
@[simp] theorem exec_dmaHalt (c : Fin 32) (s : State) : exec (.dmaHalt c) s = execDmaHalt c s := rfl
@[simp] theorem exec_move (c : Fin 32) (ins : List Byte) (host : List Byte) (s : State) : exec (.move c ins host) s = execMove c ins host s := rfl
@[simp] theorem exec_loopInstr (c : Fin 32) (ins : List Byte) (s : State) : exec (.loopInstr c ins) s = execLoopInstr c ins s := rfl
@[simp] theorem exec_waitInstr (c : Fin 32) (ins : List Byte) (s : State) : exec (.waitInstr c ins) s = execWaitInstr c ins s := rfl
@[simp] theorem exec_signal (c : Fin 32) (ins : List Byte) (s : State) : exec (.signal c ins) s = execSignal c ins s := rfl
@[simp] theorem exec_nextInstr (c : Fin 32) (ins : List Byte) (s : State) : exec (.nextInstr c ins) s = execNextInstr c ins s := rfl
@[simp] theorem exec_endProgram (c : Fin 32) (ins : List Byte) (s : State) : exec (.endProgram c ins) s = execEndProgram c ins s := rfl
@[simp] theorem exec_runaway (c : Fin 32) (s : State) : exec (.runaway c) s = execRunaway c s := rfl
@[simp] theorem exec_flagSet (f : BitVec 32) (s : State) : exec (.flagSet f) s = execFlagSet f s := rfl
@[simp] theorem exec_dmaTimeout (c : Fin 32) (fetch : Bool) (space : Fin 2) (addr : BitVec 64) (got : List Byte) (s : State) : exec (.dmaTimeout c fetch space addr got) s = execDmaTimeout c fetch space addr got s := rfl
@[simp] theorem exec_errorResponse (c : Fin 32) (what : DmaErr) (got : List Byte) (s : State) : exec (.errorResponse c what got) s = execErrorResponse c what got s := rfl
@[simp] theorem exec_reportBatch (c : Fin 32) (s : State) : exec (.reportBatch c) s = execReportBatch c s := rfl
@[simp] theorem exec_msixMessage (v : Fin 64) (s : State) : exec (.msixMessage v) s = execMsixMessage v s := rfl
@[simp] theorem exec_recorderTapLine (refuse : Bool) (s : State) : exec (.recorderTapLine refuse) s = execRecorderTapLine refuse s := rfl
@[simp] theorem exec_chunkClose (s : State) : exec (.chunkClose) s = execChunkClose s := rfl
@[simp] theorem exec_recorderTrigger (s : State) : exec (.recorderTrigger) s = execRecorderTrigger s := rfl
@[simp] theorem exec_recorderRelease (s : State) : exec (.recorderRelease) s = execRecorderRelease s := rfl
@[simp] theorem exec_codecSelfTest (ok : Bool) (s : State) : exec (.codecSelfTest ok) s = execCodecSelfTest ok s := rfl
@[simp] theorem exec_jobStart (e : Fin 2) (s : State) : exec (.jobStart e) s = execJobStart e s := rfl
@[simp] theorem exec_jobRecord (e : Fin 2) (s : State) : exec (.jobRecord e) s = execJobRecord e s := rfl
@[simp] theorem exec_jobResume (e : Fin 2) (s : State) : exec (.jobResume e) s = execJobResume e s := rfl
@[simp] theorem exec_jobAbort (e : Fin 2) (s : State) : exec (.jobAbort e) s = execJobAbort e s := rfl
@[simp] theorem exec_testGo (kind : BitVec 3) (index : BitVec 8) (s : State) : exec (.testGo kind index) s = execTestGo kind index s := rfl
@[simp] theorem exec_vmonOutOfWindow (domain : Fin 41) (out : Bool) (s : State) : exec (.vmonOutOfWindow domain out) s = execVmonOutOfWindow domain out s := rfl
@[simp] theorem exec_lockstepMismatch (s : State) : exec (.lockstepMismatch) s = execLockstepMismatch s := rfl
@[simp] theorem exec_managementWatchdog (s : State) : exec (.managementWatchdog) s = execManagementWatchdog s := rfl
@[simp] theorem exec_managementRestart (s : State) : exec (.managementRestart) s = execManagementRestart s := rfl
@[simp] theorem exec_sramScrub (kwords : Nat) (hit : Option SramHit) (s : State) : exec (.sramScrub kwords hit) s = execSramScrub kwords hit s := rfl
@[simp] theorem exec_repairMapWrite (io : NvmIo) (s : State) : exec (.repairMapWrite io) s = execRepairMapWrite io s := rfl
@[simp] theorem exec_sensorConversion (n : Fin 16) (temp : BitVec 16) (s : State) : exec (.sensorConversion n temp) s = execSensorConversion n temp s := rfl
@[simp] theorem exec_thermalHot (n : Fin 16) (s : State) : exec (.thermalHot n) s = execThermalHot n s := rfl
@[simp] theorem exec_thermalTrip (sensor : Fin 16) (temp : BitVec 16) (s : State) : exec (.thermalTrip sensor temp) s = execThermalTrip sensor temp s := rfl
@[simp] theorem exec_powerRead (rails : List RailRead) (s : State) : exec (.powerRead rails) s = execPowerRead rails s := rfl
@[simp] theorem exec_railFaultEnd (r : Fin 8) (s : State) : exec (.railFaultEnd r) s = execRailFaultEnd r s := rfl
@[simp] theorem exec_carverClockStep (thermal up : Bool) (s : State) : exec (.carverClockStep thermal up) s = execCarverClockStep thermal up s := rfl
@[simp] theorem exec_avsEvaluation (slack : BitVec 8) (s : State) : exec (.avsEvaluation slack) s = execAvsEvaluation slack s := rfl
@[simp] theorem exec_avsImmediateRaise (s : State) : exec (.avsImmediateRaise) s = execAvsImmediateRaise s := rfl
@[simp] theorem exec_smbalert (words : List (Fin 8 × BitVec 16)) (s : State) : exec (.smbalert words) s = execSmbalert words s := rfl
@[simp] theorem exec_logPersist (io : NvmIo) (s : State) : exec (.logPersist io) s = execLogPersist io s := rfl
@[simp] theorem exec_logBucketRefill (io : NvmIo) (s : State) : exec (.logBucketRefill io) s = execLogBucketRefill io s := rfl
@[simp] theorem exec_info (s : State) : exec (.info) s = execInfo s := rfl
@[simp] theorem exec_logRead (io : NvmIo) (s : State) : exec (.logRead io) s = execLogRead io s := rfl
@[simp] theorem exec_logWrite (s : State) : exec (.logWrite) s = execLogWrite s := rfl
@[simp] theorem exec_imgBegin (io : NvmIo) (s : State) : exec (.imgBegin io) s = execImgBegin io s := rfl
@[simp] theorem exec_imgWrite (io : NvmIo) (s : State) : exec (.imgWrite io) s = execImgWrite io s := rfl
@[simp] theorem exec_imgVerify (io : NvmIo) (s : State) : exec (.imgVerify io) s = execImgVerify io s := rfl
@[simp] theorem exec_imgCommit (io : NvmIo) (s : State) : exec (.imgCommit io) s = execImgCommit io s := rfl
@[simp] theorem exec_fwActivate (io : NvmIo) (s : State) : exec (.fwActivate io) s = execFwActivate io s := rfl
@[simp] theorem exec_repairRead (io : NvmIo) (s : State) : exec (.repairRead io) s = execRepairRead io s := rfl
@[simp] theorem exec_repairClear (io : NvmIo) (s : State) : exec (.repairClear io) s = execRepairClear io s := rfl
@[simp] theorem exec_repairCompact (io : NvmIo) (s : State) : exec (.repairCompact io) s = execRepairCompact io s := rfl
@[simp] theorem exec_calRun (s : State) : exec (.calRun) s = execCalRun s := rfl
@[simp] theorem exec_sensors (s : State) : exec (.sensors) s = execSensors s := rfl
@[simp] theorem exec_rootProg (s : State) : exec (.rootProg) s = execRootProg s := rfl
@[simp] theorem exec_calCmdRun (target : BitVec 6) (s : State) : exec (.calCmdRun target) s = execCalCmdRun target s := rfl
@[simp] theorem exec_caliperRun (s : State) : exec (.caliperRun) s = execCaliperRun s := rfl
@[simp] theorem exec_caliperRunDone (res : BitVec 16) (codes : List Int) (s : State) : exec (.caliperRunDone res codes) s = execCaliperRunDone res codes s := rfl
@[simp] theorem exec_codeStep (t : Fin 43) (i : Fin 4) (s : State) : exec (.codeStep t i) s = execCodeStep t i s := rfl
@[simp] theorem exec_recipeNext (r : Fin 8) (s : State) : exec (.recipeNext r) s = execRecipeNext r s := rfl
@[simp] theorem exec_recipeArmed (s : State) : exec (.recipeArmed) s = execRecipeArmed s := rfl
@[simp] theorem exec_standby (acked wake : Bool) (s : State) : exec (.standby acked wake) s = execStandby acked wake s := rfl
@[simp] theorem exec_off (acked wake : Bool) (s : State) : exec (.off acked wake) s = execOff acked wake s := rfl
@[simp] theorem exec_wake (trim : BitVec 8) (s : State) : exec (.wake trim) s = execWake trim s := rfl
@[simp] theorem exec_wakeAlarm (env : BootEnv) (s : State) : exec (.wakeAlarm env) s = execWakeAlarm env s := rfl
@[simp] theorem exec_wakeEvent (i : Fin 8) (rising : Bool) (env : BootEnv) (s : State) : exec (.wakeEvent i rising env) s = execWakeEvent i rising env s := rfl
@[simp] theorem exec_quadPllLock (q : Fin 15) (s : State) : exec (.quadPllLock q) s = execQuadPllLock q s := rfl
@[simp] theorem exec_laneAlignDeadline (p : Fin 12) (s : State) : exec (.laneAlignDeadline p) s = execLaneAlignDeadline p s := rfl
@[simp] theorem exec_pmaCheckerLock (l : Fin 60) (rx : List Bool) (s : State) : exec (.pmaCheckerLock l rx) s = execPmaCheckerLock l rx s := rfl
@[simp] theorem exec_pmaCheckerLockLoss (l : Fin 60) (rx : List Bool) (s : State) : exec (.pmaCheckerLockLoss l rx) s = execPmaCheckerLockLoss l rx s := rfl
@[simp] theorem exec_injectionInterval (l : Fin 60) (s : State) : exec (.injectionInterval l) s = execInjectionInterval l s := rfl
@[simp] theorem exec_phyError (k : Fin 8) (kind : Fin 4) (s : State) : exec (.phyError k kind) s = execPhyError k kind s := rfl
@[simp] theorem exec_csmaTransmit (k : Fin 8) (s : State) : exec (.csmaTransmit k) s = execCsmaTransmit k s := rfl
@[simp] theorem exec_dramPhyFault (ch : Fin 4) (s : State) : exec (.dramPhyFault ch) s = execDramPhyFault ch s := rfl
@[simp] theorem exec_configurationRequest (r : CfgReq) (s : State) : exec (.configurationRequest r) s = execConfigurationRequest r s := rfl
@[simp] theorem exec_registerRead (user : Bool) (addr : BitVec 25) (size : Nat) (s : State) : exec (.registerRead user addr size) s = execRegisterRead user addr size s := rfl
@[simp] theorem exec_waitDone (c : Fin 32) (s : State) : exec (.waitDone c) s = execWaitDone c s := rfl
@[simp] theorem exec_refclkDetected (env : BootEnv) (s : State) : exec (.refclkDetected env) s = execRefclkDetected env s := rfl
@[simp] theorem exec_supplyRemoval (s : State) : exec (.supplyRemoval) s = execSupplyRemoval s := rfl

end Sys2Proof.Machine
end

