-- ==== Sys2Proof/Laws/Map.lean ====
section
/-!
SUPPORT. The key maps: what a read finds after a write, and that every operation keeps the canonical form.
-/

namespace Sys2Proof

theorem KMap.get_filter_ne {α : Type} (d : Nat → α) (k j : Nat) (h : j ≠ k) :
    ∀ m : KMap α, KMap.get d (m.filter (fun e => e.1 != k)) j = KMap.get d m j
  | [] => rfl
  | (i, v) :: m => by
    by_cases hi : i = k
    · subst hi
      simp [KMap.get, KMap.get_filter_ne d i j h m, Ne.symm h]
    · by_cases hj : i = j
      · subst hj; simp [KMap.get, hi]
      · simp [KMap.get, hi, hj, KMap.get_filter_ne d k j h m]

theorem KMap.get_filter_self {α : Type} (d : Nat → α) (k : Nat) :
    ∀ m : KMap α, KMap.get d (m.filter (fun e => e.1 != k)) k = d k
  | [] => rfl
  | (i, v) :: m => by
    by_cases hi : i = k
    · subst hi; simp [KMap.get_filter_self d i m]
    · simp [KMap.get, hi, KMap.get_filter_self d k m]

theorem KMap.get_ins_self {α : Type} (d : Nat → α) (k : Nat) (v : α) :
    ∀ m : KMap α, m.all (fun e => e.1 != k) = true → KMap.get d (KMap.ins k v m) k = v
  | [], _ => by simp [KMap.ins, KMap.get]
  | (i, w) :: m, h => by
    simp only [List.all_cons, Bool.and_eq_true, bne_iff_ne, ne_eq] at h
    by_cases hk : k < i
    · simp [KMap.ins, hk, KMap.get]
    · simp [KMap.ins, hk, KMap.get, h.1, KMap.get_ins_self d k v m h.2]

theorem KMap.get_ins_ne {α : Type} (d : Nat → α) (k j : Nat) (v : α) (h : j ≠ k) :
    ∀ m : KMap α, KMap.get d (KMap.ins k v m) j = KMap.get d m j
  | [] => by simp [KMap.ins, KMap.get, Ne.symm h]
  | (i, w) :: m => by
    by_cases hk : k < i
    · simp [KMap.ins, hk, KMap.get, Ne.symm h]
    · by_cases hj : i = j
      · subst hj; simp [KMap.ins, hk, KMap.get]
      · simp [KMap.ins, hk, KMap.get, hj, KMap.get_ins_ne d k j v h m]

/-- A read at the key that was written finds the value written. -/
@[simp] theorem KMap.get_put_self {α : Type} [DecidableEq α] (d : Nat → α) (m : KMap α) (k : Nat) (v : α) :
    KMap.get d (KMap.put d m k v) k = v := by
  unfold KMap.put
  split
  · next h => rw [KMap.get_filter_self, h]
  · exact KMap.get_ins_self d k v _ (by simp)

/-- A write leaves every other key as it was. -/
theorem KMap.get_put_ne {α : Type} [DecidableEq α] (d : Nat → α) (m : KMap α) (k j : Nat) (v : α) (h : j ≠ k) :
    KMap.get d (KMap.put d m k v) j = KMap.get d m j := by
  unfold KMap.put
  split
  · exact KMap.get_filter_ne d k j h m
  · rw [KMap.get_ins_ne d k j v h, KMap.get_filter_ne d k j h m]

theorem KMap.get_put {α : Type} [DecidableEq α] (d : Nat → α) (m : KMap α) (k j : Nat) (v : α) :
    KMap.get d (KMap.put d m k v) j = if j = k then v else KMap.get d m j := by
  by_cases h : j = k
  · simp [h]
  · simp [h, KMap.get_put_ne d m k j v h]

@[simp] theorem KMap.get_nil {α : Type} (d : Nat → α) (k : Nat) : KMap.get d [] k = d k := rfl

/-! ## The canonical form -/

theorem KMap.rising_cons {α : Type} (lo : Option Nat) (e : Nat × α) (m : KMap α) :
    KMap.rising lo (e :: m) = ((match lo with | none => true | some l => decide (l < e.1)) && KMap.rising (some e.1) m) := rfl

theorem KMap.rising_weaken {α : Type} (a b : Nat) (h : a ≤ b) :
    ∀ m : KMap α, KMap.rising (some b) m = true → KMap.rising (some a) m = true
  | [], _ => rfl
  | (j, v) :: m, hr => by
    simp only [KMap.rising_cons, Bool.and_eq_true, decide_eq_true_eq] at hr ⊢
    exact ⟨by omega, hr.2⟩

theorem KMap.rising_none {α : Type} (a : Nat) (m : KMap α) (h : KMap.rising (some a) m = true) : KMap.rising none m = true := by
  cases m with
  | nil => rfl
  | cons e m => simp only [KMap.rising_cons, Bool.and_eq_true] at h ⊢; exact ⟨trivial, h.2⟩

theorem KMap.rising_filter {α : Type} (p : Nat × α → Bool) :
    ∀ (m : KMap α) (lo : Option Nat), KMap.rising lo m = true → KMap.rising lo (m.filter p) = true
  | [], _, _ => rfl
  | (j, v) :: m, lo, h => by
    simp only [KMap.rising_cons, Bool.and_eq_true] at h
    by_cases hp : p (j, v) = true
    · simp only [List.filter_cons, hp, if_true, KMap.rising_cons, Bool.and_eq_true]
      exact ⟨h.1, KMap.rising_filter p m _ h.2⟩
    · simp only [List.filter_cons, hp, Bool.false_eq_true, if_false]
      have hr := KMap.rising_filter p m (some j) h.2
      cases lo with
      | none => exact KMap.rising_none j _ hr
      | some l =>
        have hl : l < j := by simpa using h.1
        exact KMap.rising_weaken l j (by omega) _ hr

theorem KMap.rising_ins {α : Type} (k : Nat) (v : α) :
    ∀ (m : KMap α) (lo : Option Nat), (match lo with | none => true | some l => decide (l < k)) = true →
      m.all (fun e => e.1 != k) = true → KMap.rising lo m = true → KMap.rising lo (KMap.ins k v m) = true
  | [], lo, hlo, _, _ => by simp only [KMap.ins, KMap.rising_cons, KMap.rising, Bool.and_true]; exact hlo
  | (j, w) :: m, lo, hlo, ha, h => by
    simp only [List.all_cons, Bool.and_eq_true, bne_iff_ne, ne_eq] at ha
    simp only [KMap.rising_cons, Bool.and_eq_true] at h
    by_cases hk : k < j
    · rw [KMap.ins, if_pos hk, KMap.rising_cons, KMap.rising_cons]
      simp [hlo, hk, h.2]
    · simp only [KMap.ins, hk, if_false, KMap.rising_cons, Bool.and_eq_true]
      refine ⟨h.1, KMap.rising_ins k v m (some j) ?_ ha.2 h.2⟩
      have := ha.1
      exact decide_eq_true (by omega)

theorem KMap.mem_ins {α : Type} (k : Nat) (v : α) (e : Nat × α) : ∀ m : KMap α, e ∈ KMap.ins k v m → e = (k, v) ∨ e ∈ m
  | [], h => by simpa [KMap.ins] using h
  | (j, w) :: m, h => by
    by_cases hk : k < j
    · simpa [KMap.ins, hk] using h
    · simp only [KMap.ins, hk, if_false, List.mem_cons] at h ⊢
      rcases h with h | h
      · exact .inr (.inl h)
      · rcases KMap.mem_ins k v e m h with h | h
        · exact .inl h
        · exact .inr (.inr h)

theorem KMap.wf_iff {α : Type} [DecidableEq α] (d : Nat → α) (m : KMap α) :
    KMap.wf d m = true ↔ KMap.rising none m = true ∧ ∀ e ∈ m, e.2 ≠ d e.1 := by
  simp [KMap.wf, List.all_eq_true]

/-- Dropping entries keeps the canonical form. -/
theorem KMap.wf_filter {α : Type} [DecidableEq α] (d : Nat → α) (m : KMap α) (p : Nat × α → Bool) (h : KMap.wf d m = true) :
    KMap.wf d (m.filter p) = true := by
  rw [KMap.wf_iff] at h ⊢
  exact ⟨KMap.rising_filter p m none h.1, fun e he => h.2 e (List.mem_filter.mp he).1⟩

/-- A write keeps the canonical form. -/
theorem KMap.wf_put {α : Type} [DecidableEq α] (d : Nat → α) (m : KMap α) (k : Nat) (v : α) (h : KMap.wf d m = true) :
    KMap.wf d (KMap.put d m k v) = true := by
  have hf := KMap.wf_filter d m (fun e => e.1 != k) h
  unfold KMap.put
  split
  · exact hf
  · next hv =>
    rw [KMap.wf_iff] at hf ⊢
    refine ⟨KMap.rising_ins k v _ none rfl (by simp) hf.1, fun e he => ?_⟩
    rcases KMap.mem_ins k v e _ he with h | h
    · subst h; exact hv
    · exact hf.2 e h

@[simp] theorem KMap.wf_nil {α : Type} [DecidableEq α] (d : Nat → α) : KMap.wf d ([] : KMap α) = true := rfl

/-- A canonical map lists nothing at a key below its first one. -/
theorem KMap.get_of_lt {α : Type} (d : Nat → α) (k : Nat) :
    ∀ (m : KMap α) (l : Nat), KMap.rising (some l) m = true → k ≤ l → KMap.get d m k = d k
  | [], _, _, _ => rfl
  | (j, v) :: m, l, h, hk => by
    simp only [KMap.rising_cons, Bool.and_eq_true, decide_eq_true_eq] at h
    have : ¬ j = k := by omega
    simp [KMap.get, this, KMap.get_of_lt d k m j h.2 (by omega)]

end Sys2Proof
end

