-- ==== Sys2Proof/Laws/State.lean ====
section
/-!
SUPPORT. What each update of the device leaves: one lemma for each field that an update does not write.
-/

namespace Sys2Proof.Machine

/-! ## `put` -/

@[simp] theorem put_rwb (f : Fld) (v : Nat) (d : Dev) : (put f v d).rwb = d.rwb := rfl
@[simp] theorem put_rwp (f : Fld) (v : Nat) (d : Dev) : (put f v d).rwp = d.rwp := rfl
@[simp] theorem put_latch (f : Fld) (v : Nat) (d : Dev) : (put f v d).latch = d.latch := rfl
@[simp] theorem put_epochLatch (f : Fld) (v : Nat) (d : Dev) : (put f v d).epochLatch = d.epochLatch := rfl
@[simp] theorem put_snap (f : Fld) (v : Nat) (d : Dev) : (put f v d).snap = d.snap := rfl
@[simp] theorem put_prf (f : Fld) (v : Nat) (d : Dev) : (put f v d).prf = d.prf := rfl
@[simp] theorem put_perf (f : Fld) (v : Nat) (d : Dev) : (put f v d).perf = d.perf := rfl
@[simp] theorem put_log (f : Fld) (v : Nat) (d : Dev) : (put f v d).log = d.log := rfl
@[simp] theorem put_lseq (f : Fld) (v : Nat) (d : Dev) : (put f v d).lseq = d.lseq := rfl
@[simp] theorem put_logNewest (f : Fld) (v : Nat) (d : Dev) : (put f v d).logNewest = d.logNewest := rfl
@[simp] theorem put_injecting (f : Fld) (v : Nat) (d : Dev) : (put f v d).injecting = d.injecting := rfl
@[simp] theorem put_persistQ (f : Fld) (v : Nat) (d : Dev) : (put f v d).persistQ = d.persistQ := rfl
@[simp] theorem put_vecOwed (f : Fld) (v : Nat) (d : Dev) : (put f v d).vecOwed = d.vecOwed := rfl
@[simp] theorem put_posted (f : Fld) (v : Nat) (d : Dev) : (put f v d).posted = d.posted := rfl
@[simp] theorem put_out (f : Fld) (v : Nat) (d : Dev) : (put f v d).out = d.out := rfl
@[simp] theorem put_free (f : Fld) (v : Nat) (d : Dev) : (put f v d).free = d.free := rfl
@[simp] theorem put_tim (f : Fld) (v : Nat) (d : Dev) : (put f v d).tim = d.tim := rfl
@[simp] theorem put_quadLock (f : Fld) (v : Nat) (d : Dev) : (put f v d).quadLock = d.quadLock := rfl
@[simp] theorem put_lane (f : Fld) (v : Nat) (d : Dev) : (put f v d).lane = d.lane := rfl
@[simp] theorem put_port (f : Fld) (v : Nat) (d : Dev) : (put f v d).port = d.port := rfl
@[simp] theorem put_homeQ (f : Fld) (v : Nat) (d : Dev) : (put f v d).homeQ = d.homeQ := rfl
@[simp] theorem put_rtHold (f : Fld) (v : Nat) (d : Dev) : (put f v d).rtHold = d.rtHold := rfl
@[simp] theorem put_rtAt (f : Fld) (v : Nat) (d : Dev) : (put f v d).rtAt = d.rtAt := rfl
@[simp] theorem put_spLatch (f : Fld) (v : Nat) (d : Dev) : (put f v d).spLatch = d.spLatch := rfl
@[simp] theorem put_spNewest (f : Fld) (v : Nat) (d : Dev) : (put f v d).spNewest = d.spNewest := rfl
@[simp] theorem put_bank (f : Fld) (v : Nat) (d : Dev) : (put f v d).bank = d.bank := rfl
@[simp] theorem put_lth (f : Fld) (v : Nat) (d : Dev) : (put f v d).lth = d.lth := rfl
@[simp] theorem put_fus (f : Fld) (v : Nat) (d : Dev) : (put f v d).fus = d.fus := rfl
@[simp] theorem put_stream (f : Fld) (v : Nat) (d : Dev) : (put f v d).stream = d.stream := rfl
@[simp] theorem put_recQ (f : Fld) (v : Nat) (d : Dev) : (put f v d).recQ = d.recQ := rfl
@[simp] theorem put_cls (f : Fld) (v : Nat) (d : Dev) : (put f v d).cls = d.cls := rfl
@[simp] theorem put_gou (f : Fld) (v : Nat) (d : Dev) : (put f v d).gou = d.gou := rfl
@[simp] theorem put_mrg (f : Fld) (v : Nat) (d : Dev) : (put f v d).mrg = d.mrg := rfl
@[simp] theorem put_ras (f : Fld) (v : Nat) (d : Dev) : (put f v d).ras = d.ras := rfl
@[simp] theorem put_yielding (f : Fld) (v : Nat) (d : Dev) : (put f v d).yielding = d.yielding := rfl
@[simp] theorem put_objQ (f : Fld) (v : Nat) (d : Dev) : (put f v d).objQ = d.objQ := rfl
@[simp] theorem put_held (f : Fld) (v : Nat) (d : Dev) : (put f v d).held = d.held := rfl
@[simp] theorem put_crv (f : Fld) (v : Nat) (d : Dev) : (put f v d).crv = d.crv := rfl
@[simp] theorem put_vrd (f : Fld) (v : Nat) (d : Dev) : (put f v d).vrd = d.vrd := rfl
@[simp] theorem put_imgWord (f : Fld) (v : Nat) (d : Dev) : (put f v d).imgWord = d.imgWord := rfl
@[simp] theorem put_dma (f : Fld) (v : Nat) (d : Dev) : (put f v d).dma = d.dma := rfl
@[simp] theorem put_cmp (f : Fld) (v : Nat) (d : Dev) : (put f v d).cmp = d.cmp := rfl
@[simp] theorem put_ddr (f : Fld) (v : Nat) (d : Dev) : (put f v d).ddr = d.ddr := rfl
@[simp] theorem put_nvm (f : Fld) (v : Nat) (d : Dev) : (put f v d).nvm = d.nvm := rfl
@[simp] theorem put_rootHash (f : Fld) (v : Nat) (d : Dev) : (put f v d).rootHash = d.rootHash := rfl
@[simp] theorem put_rcp (f : Fld) (v : Nat) (d : Dev) : (put f v d).rcp = d.rcp := rfl
@[simp] theorem put_mgt (f : Fld) (v : Nat) (d : Dev) : (put f v d).mgt = d.mgt := rfl
@[simp] theorem put_cal (f : Fld) (v : Nat) (d : Dev) : (put f v d).cal = d.cal := rfl
@[simp] theorem put_rtFree (f : Fld) (v : Nat) (d : Dev) : (put f v d).rtFree = d.rtFree := rfl
@[simp] theorem put_aon (f : Fld) (v : Nat) (d : Dev) : (put f v d).aon = d.aon := rfl

/-! ## `emit` -/

@[simp] theorem emit_regs (o : Out) (d : Dev) : (emit o d).regs = d.regs := rfl
@[simp] theorem emit_rwb (o : Out) (d : Dev) : (emit o d).rwb = d.rwb := rfl
@[simp] theorem emit_rwp (o : Out) (d : Dev) : (emit o d).rwp = d.rwp := rfl
@[simp] theorem emit_latch (o : Out) (d : Dev) : (emit o d).latch = d.latch := rfl
@[simp] theorem emit_epochLatch (o : Out) (d : Dev) : (emit o d).epochLatch = d.epochLatch := rfl
@[simp] theorem emit_snap (o : Out) (d : Dev) : (emit o d).snap = d.snap := rfl
@[simp] theorem emit_prf (o : Out) (d : Dev) : (emit o d).prf = d.prf := rfl
@[simp] theorem emit_perf (o : Out) (d : Dev) : (emit o d).perf = d.perf := rfl
@[simp] theorem emit_log (o : Out) (d : Dev) : (emit o d).log = d.log := rfl
@[simp] theorem emit_lseq (o : Out) (d : Dev) : (emit o d).lseq = d.lseq := rfl
@[simp] theorem emit_logNewest (o : Out) (d : Dev) : (emit o d).logNewest = d.logNewest := rfl
@[simp] theorem emit_injecting (o : Out) (d : Dev) : (emit o d).injecting = d.injecting := rfl
@[simp] theorem emit_persistQ (o : Out) (d : Dev) : (emit o d).persistQ = d.persistQ := rfl
@[simp] theorem emit_vecOwed (o : Out) (d : Dev) : (emit o d).vecOwed = d.vecOwed := rfl
@[simp] theorem emit_posted (o : Out) (d : Dev) : (emit o d).posted = d.posted := rfl
@[simp] theorem emit_free (o : Out) (d : Dev) : (emit o d).free = d.free := rfl
@[simp] theorem emit_tim (o : Out) (d : Dev) : (emit o d).tim = d.tim := rfl
@[simp] theorem emit_quadLock (o : Out) (d : Dev) : (emit o d).quadLock = d.quadLock := rfl
@[simp] theorem emit_lane (o : Out) (d : Dev) : (emit o d).lane = d.lane := rfl
@[simp] theorem emit_port (o : Out) (d : Dev) : (emit o d).port = d.port := rfl
@[simp] theorem emit_homeQ (o : Out) (d : Dev) : (emit o d).homeQ = d.homeQ := rfl
@[simp] theorem emit_rtHold (o : Out) (d : Dev) : (emit o d).rtHold = d.rtHold := rfl
@[simp] theorem emit_rtAt (o : Out) (d : Dev) : (emit o d).rtAt = d.rtAt := rfl
@[simp] theorem emit_spLatch (o : Out) (d : Dev) : (emit o d).spLatch = d.spLatch := rfl
@[simp] theorem emit_spNewest (o : Out) (d : Dev) : (emit o d).spNewest = d.spNewest := rfl
@[simp] theorem emit_bank (o : Out) (d : Dev) : (emit o d).bank = d.bank := rfl
@[simp] theorem emit_lth (o : Out) (d : Dev) : (emit o d).lth = d.lth := rfl
@[simp] theorem emit_fus (o : Out) (d : Dev) : (emit o d).fus = d.fus := rfl
@[simp] theorem emit_stream (o : Out) (d : Dev) : (emit o d).stream = d.stream := rfl
@[simp] theorem emit_recQ (o : Out) (d : Dev) : (emit o d).recQ = d.recQ := rfl
@[simp] theorem emit_cls (o : Out) (d : Dev) : (emit o d).cls = d.cls := rfl
@[simp] theorem emit_gou (o : Out) (d : Dev) : (emit o d).gou = d.gou := rfl
@[simp] theorem emit_mrg (o : Out) (d : Dev) : (emit o d).mrg = d.mrg := rfl
@[simp] theorem emit_ras (o : Out) (d : Dev) : (emit o d).ras = d.ras := rfl
@[simp] theorem emit_yielding (o : Out) (d : Dev) : (emit o d).yielding = d.yielding := rfl
@[simp] theorem emit_objQ (o : Out) (d : Dev) : (emit o d).objQ = d.objQ := rfl
@[simp] theorem emit_held (o : Out) (d : Dev) : (emit o d).held = d.held := rfl
@[simp] theorem emit_crv (o : Out) (d : Dev) : (emit o d).crv = d.crv := rfl
@[simp] theorem emit_vrd (o : Out) (d : Dev) : (emit o d).vrd = d.vrd := rfl
@[simp] theorem emit_imgWord (o : Out) (d : Dev) : (emit o d).imgWord = d.imgWord := rfl
@[simp] theorem emit_dma (o : Out) (d : Dev) : (emit o d).dma = d.dma := rfl
@[simp] theorem emit_cmp (o : Out) (d : Dev) : (emit o d).cmp = d.cmp := rfl
@[simp] theorem emit_ddr (o : Out) (d : Dev) : (emit o d).ddr = d.ddr := rfl
@[simp] theorem emit_nvm (o : Out) (d : Dev) : (emit o d).nvm = d.nvm := rfl
@[simp] theorem emit_rootHash (o : Out) (d : Dev) : (emit o d).rootHash = d.rootHash := rfl
@[simp] theorem emit_rcp (o : Out) (d : Dev) : (emit o d).rcp = d.rcp := rfl
@[simp] theorem emit_mgt (o : Out) (d : Dev) : (emit o d).mgt = d.mgt := rfl
@[simp] theorem emit_cal (o : Out) (d : Dev) : (emit o d).cal = d.cal := rfl
@[simp] theorem emit_rtFree (o : Out) (d : Dev) : (emit o d).rtFree = d.rtFree := rfl
@[simp] theorem emit_aon (o : Out) (d : Dev) : (emit o d).aon = d.aon := rfl

/-! ## `takeFree` -/

@[simp] theorem takeFree_regs (d : Dev) : (takeFree d).regs = d.regs := rfl
@[simp] theorem takeFree_rwb (d : Dev) : (takeFree d).rwb = d.rwb := rfl
@[simp] theorem takeFree_rwp (d : Dev) : (takeFree d).rwp = d.rwp := rfl
@[simp] theorem takeFree_latch (d : Dev) : (takeFree d).latch = d.latch := rfl
@[simp] theorem takeFree_epochLatch (d : Dev) : (takeFree d).epochLatch = d.epochLatch := rfl
@[simp] theorem takeFree_snap (d : Dev) : (takeFree d).snap = d.snap := rfl
@[simp] theorem takeFree_prf (d : Dev) : (takeFree d).prf = d.prf := rfl
@[simp] theorem takeFree_perf (d : Dev) : (takeFree d).perf = d.perf := rfl
@[simp] theorem takeFree_log (d : Dev) : (takeFree d).log = d.log := rfl
@[simp] theorem takeFree_lseq (d : Dev) : (takeFree d).lseq = d.lseq := rfl
@[simp] theorem takeFree_logNewest (d : Dev) : (takeFree d).logNewest = d.logNewest := rfl
@[simp] theorem takeFree_injecting (d : Dev) : (takeFree d).injecting = d.injecting := rfl
@[simp] theorem takeFree_persistQ (d : Dev) : (takeFree d).persistQ = d.persistQ := rfl
@[simp] theorem takeFree_vecOwed (d : Dev) : (takeFree d).vecOwed = d.vecOwed := rfl
@[simp] theorem takeFree_posted (d : Dev) : (takeFree d).posted = d.posted := rfl
@[simp] theorem takeFree_out (d : Dev) : (takeFree d).out = d.out := rfl
@[simp] theorem takeFree_tim (d : Dev) : (takeFree d).tim = d.tim := rfl
@[simp] theorem takeFree_quadLock (d : Dev) : (takeFree d).quadLock = d.quadLock := rfl
@[simp] theorem takeFree_lane (d : Dev) : (takeFree d).lane = d.lane := rfl
@[simp] theorem takeFree_port (d : Dev) : (takeFree d).port = d.port := rfl
@[simp] theorem takeFree_homeQ (d : Dev) : (takeFree d).homeQ = d.homeQ := rfl
@[simp] theorem takeFree_rtHold (d : Dev) : (takeFree d).rtHold = d.rtHold := rfl
@[simp] theorem takeFree_rtAt (d : Dev) : (takeFree d).rtAt = d.rtAt := rfl
@[simp] theorem takeFree_spLatch (d : Dev) : (takeFree d).spLatch = d.spLatch := rfl
@[simp] theorem takeFree_spNewest (d : Dev) : (takeFree d).spNewest = d.spNewest := rfl
@[simp] theorem takeFree_bank (d : Dev) : (takeFree d).bank = d.bank := rfl
@[simp] theorem takeFree_lth (d : Dev) : (takeFree d).lth = d.lth := rfl
@[simp] theorem takeFree_fus (d : Dev) : (takeFree d).fus = d.fus := rfl
@[simp] theorem takeFree_stream (d : Dev) : (takeFree d).stream = d.stream := rfl
@[simp] theorem takeFree_recQ (d : Dev) : (takeFree d).recQ = d.recQ := rfl
@[simp] theorem takeFree_cls (d : Dev) : (takeFree d).cls = d.cls := rfl
@[simp] theorem takeFree_gou (d : Dev) : (takeFree d).gou = d.gou := rfl
@[simp] theorem takeFree_mrg (d : Dev) : (takeFree d).mrg = d.mrg := rfl
@[simp] theorem takeFree_ras (d : Dev) : (takeFree d).ras = d.ras := rfl
@[simp] theorem takeFree_yielding (d : Dev) : (takeFree d).yielding = d.yielding := rfl
@[simp] theorem takeFree_objQ (d : Dev) : (takeFree d).objQ = d.objQ := rfl
@[simp] theorem takeFree_held (d : Dev) : (takeFree d).held = d.held := rfl
@[simp] theorem takeFree_crv (d : Dev) : (takeFree d).crv = d.crv := rfl
@[simp] theorem takeFree_vrd (d : Dev) : (takeFree d).vrd = d.vrd := rfl
@[simp] theorem takeFree_imgWord (d : Dev) : (takeFree d).imgWord = d.imgWord := rfl
@[simp] theorem takeFree_dma (d : Dev) : (takeFree d).dma = d.dma := rfl
@[simp] theorem takeFree_cmp (d : Dev) : (takeFree d).cmp = d.cmp := rfl
@[simp] theorem takeFree_ddr (d : Dev) : (takeFree d).ddr = d.ddr := rfl
@[simp] theorem takeFree_nvm (d : Dev) : (takeFree d).nvm = d.nvm := rfl
@[simp] theorem takeFree_rootHash (d : Dev) : (takeFree d).rootHash = d.rootHash := rfl
@[simp] theorem takeFree_rcp (d : Dev) : (takeFree d).rcp = d.rcp := rfl
@[simp] theorem takeFree_mgt (d : Dev) : (takeFree d).mgt = d.mgt := rfl
@[simp] theorem takeFree_cal (d : Dev) : (takeFree d).cal = d.cal := rfl
@[simp] theorem takeFree_rtFree (d : Dev) : (takeFree d).rtFree = d.rtFree := rfl
@[simp] theorem takeFree_aon (d : Dev) : (takeFree d).aon = d.aon := rfl

/-! ## `post` -/

@[simp] theorem post_regs (o : MemOp) (d : Dev) : (post o d).regs = d.regs := rfl
@[simp] theorem post_rwb (o : MemOp) (d : Dev) : (post o d).rwb = d.rwb := rfl
@[simp] theorem post_rwp (o : MemOp) (d : Dev) : (post o d).rwp = d.rwp := rfl
@[simp] theorem post_latch (o : MemOp) (d : Dev) : (post o d).latch = d.latch := rfl
@[simp] theorem post_epochLatch (o : MemOp) (d : Dev) : (post o d).epochLatch = d.epochLatch := rfl
@[simp] theorem post_snap (o : MemOp) (d : Dev) : (post o d).snap = d.snap := rfl
@[simp] theorem post_prf (o : MemOp) (d : Dev) : (post o d).prf = d.prf := rfl
@[simp] theorem post_perf (o : MemOp) (d : Dev) : (post o d).perf = d.perf := rfl
@[simp] theorem post_log (o : MemOp) (d : Dev) : (post o d).log = d.log := rfl
@[simp] theorem post_lseq (o : MemOp) (d : Dev) : (post o d).lseq = d.lseq := rfl
@[simp] theorem post_logNewest (o : MemOp) (d : Dev) : (post o d).logNewest = d.logNewest := rfl
@[simp] theorem post_injecting (o : MemOp) (d : Dev) : (post o d).injecting = d.injecting := rfl
@[simp] theorem post_persistQ (o : MemOp) (d : Dev) : (post o d).persistQ = d.persistQ := rfl
@[simp] theorem post_vecOwed (o : MemOp) (d : Dev) : (post o d).vecOwed = d.vecOwed := rfl
@[simp] theorem post_out (o : MemOp) (d : Dev) : (post o d).out = d.out := rfl
@[simp] theorem post_free (o : MemOp) (d : Dev) : (post o d).free = d.free := rfl
@[simp] theorem post_tim (o : MemOp) (d : Dev) : (post o d).tim = d.tim := rfl
@[simp] theorem post_quadLock (o : MemOp) (d : Dev) : (post o d).quadLock = d.quadLock := rfl
@[simp] theorem post_lane (o : MemOp) (d : Dev) : (post o d).lane = d.lane := rfl
@[simp] theorem post_port (o : MemOp) (d : Dev) : (post o d).port = d.port := rfl
@[simp] theorem post_homeQ (o : MemOp) (d : Dev) : (post o d).homeQ = d.homeQ := rfl
@[simp] theorem post_rtHold (o : MemOp) (d : Dev) : (post o d).rtHold = d.rtHold := rfl
@[simp] theorem post_rtAt (o : MemOp) (d : Dev) : (post o d).rtAt = d.rtAt := rfl
@[simp] theorem post_spLatch (o : MemOp) (d : Dev) : (post o d).spLatch = d.spLatch := rfl
@[simp] theorem post_spNewest (o : MemOp) (d : Dev) : (post o d).spNewest = d.spNewest := rfl
@[simp] theorem post_bank (o : MemOp) (d : Dev) : (post o d).bank = d.bank := rfl
@[simp] theorem post_lth (o : MemOp) (d : Dev) : (post o d).lth = d.lth := rfl
@[simp] theorem post_fus (o : MemOp) (d : Dev) : (post o d).fus = d.fus := rfl
@[simp] theorem post_stream (o : MemOp) (d : Dev) : (post o d).stream = d.stream := rfl
@[simp] theorem post_recQ (o : MemOp) (d : Dev) : (post o d).recQ = d.recQ := rfl
@[simp] theorem post_cls (o : MemOp) (d : Dev) : (post o d).cls = d.cls := rfl
@[simp] theorem post_gou (o : MemOp) (d : Dev) : (post o d).gou = d.gou := rfl
@[simp] theorem post_mrg (o : MemOp) (d : Dev) : (post o d).mrg = d.mrg := rfl
@[simp] theorem post_ras (o : MemOp) (d : Dev) : (post o d).ras = d.ras := rfl
@[simp] theorem post_yielding (o : MemOp) (d : Dev) : (post o d).yielding = d.yielding := rfl
@[simp] theorem post_objQ (o : MemOp) (d : Dev) : (post o d).objQ = d.objQ := rfl
@[simp] theorem post_held (o : MemOp) (d : Dev) : (post o d).held = d.held := rfl
@[simp] theorem post_crv (o : MemOp) (d : Dev) : (post o d).crv = d.crv := rfl
@[simp] theorem post_vrd (o : MemOp) (d : Dev) : (post o d).vrd = d.vrd := rfl
@[simp] theorem post_imgWord (o : MemOp) (d : Dev) : (post o d).imgWord = d.imgWord := rfl
@[simp] theorem post_dma (o : MemOp) (d : Dev) : (post o d).dma = d.dma := rfl
@[simp] theorem post_cmp (o : MemOp) (d : Dev) : (post o d).cmp = d.cmp := rfl
@[simp] theorem post_ddr (o : MemOp) (d : Dev) : (post o d).ddr = d.ddr := rfl
@[simp] theorem post_nvm (o : MemOp) (d : Dev) : (post o d).nvm = d.nvm := rfl
@[simp] theorem post_rootHash (o : MemOp) (d : Dev) : (post o d).rootHash = d.rootHash := rfl
@[simp] theorem post_rcp (o : MemOp) (d : Dev) : (post o d).rcp = d.rcp := rfl
@[simp] theorem post_mgt (o : MemOp) (d : Dev) : (post o d).mgt = d.mgt := rfl
@[simp] theorem post_cal (o : MemOp) (d : Dev) : (post o d).cal = d.cal := rfl
@[simp] theorem post_rtFree (o : MemOp) (d : Dev) : (post o d).rtFree = d.rtFree := rfl
@[simp] theorem post_aon (o : MemOp) (d : Dev) : (post o d).aon = d.aon := rfl

/-! ## `setLane` -/

@[simp] theorem setLane_regs (l : Nat) (x : LaneS) (d : Dev) : (setLane l x d).regs = d.regs := rfl
@[simp] theorem setLane_rwb (l : Nat) (x : LaneS) (d : Dev) : (setLane l x d).rwb = d.rwb := rfl
@[simp] theorem setLane_rwp (l : Nat) (x : LaneS) (d : Dev) : (setLane l x d).rwp = d.rwp := rfl
@[simp] theorem setLane_latch (l : Nat) (x : LaneS) (d : Dev) : (setLane l x d).latch = d.latch := rfl
@[simp] theorem setLane_epochLatch (l : Nat) (x : LaneS) (d : Dev) : (setLane l x d).epochLatch = d.epochLatch := rfl
@[simp] theorem setLane_snap (l : Nat) (x : LaneS) (d : Dev) : (setLane l x d).snap = d.snap := rfl
@[simp] theorem setLane_prf (l : Nat) (x : LaneS) (d : Dev) : (setLane l x d).prf = d.prf := rfl
@[simp] theorem setLane_perf (l : Nat) (x : LaneS) (d : Dev) : (setLane l x d).perf = d.perf := rfl
@[simp] theorem setLane_log (l : Nat) (x : LaneS) (d : Dev) : (setLane l x d).log = d.log := rfl
@[simp] theorem setLane_lseq (l : Nat) (x : LaneS) (d : Dev) : (setLane l x d).lseq = d.lseq := rfl
@[simp] theorem setLane_logNewest (l : Nat) (x : LaneS) (d : Dev) : (setLane l x d).logNewest = d.logNewest := rfl
@[simp] theorem setLane_injecting (l : Nat) (x : LaneS) (d : Dev) : (setLane l x d).injecting = d.injecting := rfl
@[simp] theorem setLane_persistQ (l : Nat) (x : LaneS) (d : Dev) : (setLane l x d).persistQ = d.persistQ := rfl
@[simp] theorem setLane_vecOwed (l : Nat) (x : LaneS) (d : Dev) : (setLane l x d).vecOwed = d.vecOwed := rfl
@[simp] theorem setLane_posted (l : Nat) (x : LaneS) (d : Dev) : (setLane l x d).posted = d.posted := rfl
@[simp] theorem setLane_out (l : Nat) (x : LaneS) (d : Dev) : (setLane l x d).out = d.out := rfl
@[simp] theorem setLane_free (l : Nat) (x : LaneS) (d : Dev) : (setLane l x d).free = d.free := rfl
@[simp] theorem setLane_tim (l : Nat) (x : LaneS) (d : Dev) : (setLane l x d).tim = d.tim := rfl
@[simp] theorem setLane_quadLock (l : Nat) (x : LaneS) (d : Dev) : (setLane l x d).quadLock = d.quadLock := rfl
@[simp] theorem setLane_port (l : Nat) (x : LaneS) (d : Dev) : (setLane l x d).port = d.port := rfl
@[simp] theorem setLane_homeQ (l : Nat) (x : LaneS) (d : Dev) : (setLane l x d).homeQ = d.homeQ := rfl
@[simp] theorem setLane_rtHold (l : Nat) (x : LaneS) (d : Dev) : (setLane l x d).rtHold = d.rtHold := rfl
@[simp] theorem setLane_rtAt (l : Nat) (x : LaneS) (d : Dev) : (setLane l x d).rtAt = d.rtAt := rfl
@[simp] theorem setLane_spLatch (l : Nat) (x : LaneS) (d : Dev) : (setLane l x d).spLatch = d.spLatch := rfl
@[simp] theorem setLane_spNewest (l : Nat) (x : LaneS) (d : Dev) : (setLane l x d).spNewest = d.spNewest := rfl
@[simp] theorem setLane_bank (l : Nat) (x : LaneS) (d : Dev) : (setLane l x d).bank = d.bank := rfl
@[simp] theorem setLane_lth (l : Nat) (x : LaneS) (d : Dev) : (setLane l x d).lth = d.lth := rfl
@[simp] theorem setLane_fus (l : Nat) (x : LaneS) (d : Dev) : (setLane l x d).fus = d.fus := rfl
@[simp] theorem setLane_stream (l : Nat) (x : LaneS) (d : Dev) : (setLane l x d).stream = d.stream := rfl
@[simp] theorem setLane_recQ (l : Nat) (x : LaneS) (d : Dev) : (setLane l x d).recQ = d.recQ := rfl
@[simp] theorem setLane_cls (l : Nat) (x : LaneS) (d : Dev) : (setLane l x d).cls = d.cls := rfl
@[simp] theorem setLane_gou (l : Nat) (x : LaneS) (d : Dev) : (setLane l x d).gou = d.gou := rfl
@[simp] theorem setLane_mrg (l : Nat) (x : LaneS) (d : Dev) : (setLane l x d).mrg = d.mrg := rfl
@[simp] theorem setLane_ras (l : Nat) (x : LaneS) (d : Dev) : (setLane l x d).ras = d.ras := rfl
@[simp] theorem setLane_yielding (l : Nat) (x : LaneS) (d : Dev) : (setLane l x d).yielding = d.yielding := rfl
@[simp] theorem setLane_objQ (l : Nat) (x : LaneS) (d : Dev) : (setLane l x d).objQ = d.objQ := rfl
@[simp] theorem setLane_held (l : Nat) (x : LaneS) (d : Dev) : (setLane l x d).held = d.held := rfl
@[simp] theorem setLane_crv (l : Nat) (x : LaneS) (d : Dev) : (setLane l x d).crv = d.crv := rfl
@[simp] theorem setLane_vrd (l : Nat) (x : LaneS) (d : Dev) : (setLane l x d).vrd = d.vrd := rfl
@[simp] theorem setLane_imgWord (l : Nat) (x : LaneS) (d : Dev) : (setLane l x d).imgWord = d.imgWord := rfl
@[simp] theorem setLane_dma (l : Nat) (x : LaneS) (d : Dev) : (setLane l x d).dma = d.dma := rfl
@[simp] theorem setLane_cmp (l : Nat) (x : LaneS) (d : Dev) : (setLane l x d).cmp = d.cmp := rfl
@[simp] theorem setLane_ddr (l : Nat) (x : LaneS) (d : Dev) : (setLane l x d).ddr = d.ddr := rfl
@[simp] theorem setLane_nvm (l : Nat) (x : LaneS) (d : Dev) : (setLane l x d).nvm = d.nvm := rfl
@[simp] theorem setLane_rootHash (l : Nat) (x : LaneS) (d : Dev) : (setLane l x d).rootHash = d.rootHash := rfl
@[simp] theorem setLane_rcp (l : Nat) (x : LaneS) (d : Dev) : (setLane l x d).rcp = d.rcp := rfl
@[simp] theorem setLane_mgt (l : Nat) (x : LaneS) (d : Dev) : (setLane l x d).mgt = d.mgt := rfl
@[simp] theorem setLane_cal (l : Nat) (x : LaneS) (d : Dev) : (setLane l x d).cal = d.cal := rfl
@[simp] theorem setLane_rtFree (l : Nat) (x : LaneS) (d : Dev) : (setLane l x d).rtFree = d.rtFree := rfl
@[simp] theorem setLane_aon (l : Nat) (x : LaneS) (d : Dev) : (setLane l x d).aon = d.aon := rfl

/-! ## `setPort` -/

@[simp] theorem setPort_regs (p : Nat) (x : PortS) (d : Dev) : (setPort p x d).regs = d.regs := rfl
@[simp] theorem setPort_rwb (p : Nat) (x : PortS) (d : Dev) : (setPort p x d).rwb = d.rwb := rfl
@[simp] theorem setPort_rwp (p : Nat) (x : PortS) (d : Dev) : (setPort p x d).rwp = d.rwp := rfl
@[simp] theorem setPort_latch (p : Nat) (x : PortS) (d : Dev) : (setPort p x d).latch = d.latch := rfl
@[simp] theorem setPort_epochLatch (p : Nat) (x : PortS) (d : Dev) : (setPort p x d).epochLatch = d.epochLatch := rfl
@[simp] theorem setPort_snap (p : Nat) (x : PortS) (d : Dev) : (setPort p x d).snap = d.snap := rfl
@[simp] theorem setPort_prf (p : Nat) (x : PortS) (d : Dev) : (setPort p x d).prf = d.prf := rfl
@[simp] theorem setPort_perf (p : Nat) (x : PortS) (d : Dev) : (setPort p x d).perf = d.perf := rfl
@[simp] theorem setPort_log (p : Nat) (x : PortS) (d : Dev) : (setPort p x d).log = d.log := rfl
@[simp] theorem setPort_lseq (p : Nat) (x : PortS) (d : Dev) : (setPort p x d).lseq = d.lseq := rfl
@[simp] theorem setPort_logNewest (p : Nat) (x : PortS) (d : Dev) : (setPort p x d).logNewest = d.logNewest := rfl
@[simp] theorem setPort_injecting (p : Nat) (x : PortS) (d : Dev) : (setPort p x d).injecting = d.injecting := rfl
@[simp] theorem setPort_persistQ (p : Nat) (x : PortS) (d : Dev) : (setPort p x d).persistQ = d.persistQ := rfl
@[simp] theorem setPort_vecOwed (p : Nat) (x : PortS) (d : Dev) : (setPort p x d).vecOwed = d.vecOwed := rfl
@[simp] theorem setPort_posted (p : Nat) (x : PortS) (d : Dev) : (setPort p x d).posted = d.posted := rfl
@[simp] theorem setPort_out (p : Nat) (x : PortS) (d : Dev) : (setPort p x d).out = d.out := rfl
@[simp] theorem setPort_free (p : Nat) (x : PortS) (d : Dev) : (setPort p x d).free = d.free := rfl
@[simp] theorem setPort_tim (p : Nat) (x : PortS) (d : Dev) : (setPort p x d).tim = d.tim := rfl
@[simp] theorem setPort_quadLock (p : Nat) (x : PortS) (d : Dev) : (setPort p x d).quadLock = d.quadLock := rfl
@[simp] theorem setPort_lane (p : Nat) (x : PortS) (d : Dev) : (setPort p x d).lane = d.lane := rfl
@[simp] theorem setPort_homeQ (p : Nat) (x : PortS) (d : Dev) : (setPort p x d).homeQ = d.homeQ := rfl
@[simp] theorem setPort_rtHold (p : Nat) (x : PortS) (d : Dev) : (setPort p x d).rtHold = d.rtHold := rfl
@[simp] theorem setPort_rtAt (p : Nat) (x : PortS) (d : Dev) : (setPort p x d).rtAt = d.rtAt := rfl
@[simp] theorem setPort_spLatch (p : Nat) (x : PortS) (d : Dev) : (setPort p x d).spLatch = d.spLatch := rfl
@[simp] theorem setPort_spNewest (p : Nat) (x : PortS) (d : Dev) : (setPort p x d).spNewest = d.spNewest := rfl
@[simp] theorem setPort_bank (p : Nat) (x : PortS) (d : Dev) : (setPort p x d).bank = d.bank := rfl
@[simp] theorem setPort_lth (p : Nat) (x : PortS) (d : Dev) : (setPort p x d).lth = d.lth := rfl
@[simp] theorem setPort_fus (p : Nat) (x : PortS) (d : Dev) : (setPort p x d).fus = d.fus := rfl
@[simp] theorem setPort_stream (p : Nat) (x : PortS) (d : Dev) : (setPort p x d).stream = d.stream := rfl
@[simp] theorem setPort_recQ (p : Nat) (x : PortS) (d : Dev) : (setPort p x d).recQ = d.recQ := rfl
@[simp] theorem setPort_cls (p : Nat) (x : PortS) (d : Dev) : (setPort p x d).cls = d.cls := rfl
@[simp] theorem setPort_gou (p : Nat) (x : PortS) (d : Dev) : (setPort p x d).gou = d.gou := rfl
@[simp] theorem setPort_mrg (p : Nat) (x : PortS) (d : Dev) : (setPort p x d).mrg = d.mrg := rfl
@[simp] theorem setPort_ras (p : Nat) (x : PortS) (d : Dev) : (setPort p x d).ras = d.ras := rfl
@[simp] theorem setPort_yielding (p : Nat) (x : PortS) (d : Dev) : (setPort p x d).yielding = d.yielding := rfl
@[simp] theorem setPort_objQ (p : Nat) (x : PortS) (d : Dev) : (setPort p x d).objQ = d.objQ := rfl
@[simp] theorem setPort_held (p : Nat) (x : PortS) (d : Dev) : (setPort p x d).held = d.held := rfl
@[simp] theorem setPort_crv (p : Nat) (x : PortS) (d : Dev) : (setPort p x d).crv = d.crv := rfl
@[simp] theorem setPort_vrd (p : Nat) (x : PortS) (d : Dev) : (setPort p x d).vrd = d.vrd := rfl
@[simp] theorem setPort_imgWord (p : Nat) (x : PortS) (d : Dev) : (setPort p x d).imgWord = d.imgWord := rfl
@[simp] theorem setPort_dma (p : Nat) (x : PortS) (d : Dev) : (setPort p x d).dma = d.dma := rfl
@[simp] theorem setPort_cmp (p : Nat) (x : PortS) (d : Dev) : (setPort p x d).cmp = d.cmp := rfl
@[simp] theorem setPort_ddr (p : Nat) (x : PortS) (d : Dev) : (setPort p x d).ddr = d.ddr := rfl
@[simp] theorem setPort_nvm (p : Nat) (x : PortS) (d : Dev) : (setPort p x d).nvm = d.nvm := rfl
@[simp] theorem setPort_rootHash (p : Nat) (x : PortS) (d : Dev) : (setPort p x d).rootHash = d.rootHash := rfl
@[simp] theorem setPort_rcp (p : Nat) (x : PortS) (d : Dev) : (setPort p x d).rcp = d.rcp := rfl
@[simp] theorem setPort_mgt (p : Nat) (x : PortS) (d : Dev) : (setPort p x d).mgt = d.mgt := rfl
@[simp] theorem setPort_cal (p : Nat) (x : PortS) (d : Dev) : (setPort p x d).cal = d.cal := rfl
@[simp] theorem setPort_rtFree (p : Nat) (x : PortS) (d : Dev) : (setPort p x d).rtFree = d.rtFree := rfl
@[simp] theorem setPort_aon (p : Nat) (x : PortS) (d : Dev) : (setPort p x d).aon = d.aon := rfl

/-! ## `setTg` -/

@[simp] theorem setTg_regs (g : Nat) (x : TgS) (d : Dev) : (setTg g x d).regs = d.regs := rfl
@[simp] theorem setTg_rwb (g : Nat) (x : TgS) (d : Dev) : (setTg g x d).rwb = d.rwb := rfl
@[simp] theorem setTg_rwp (g : Nat) (x : TgS) (d : Dev) : (setTg g x d).rwp = d.rwp := rfl
@[simp] theorem setTg_latch (g : Nat) (x : TgS) (d : Dev) : (setTg g x d).latch = d.latch := rfl
@[simp] theorem setTg_epochLatch (g : Nat) (x : TgS) (d : Dev) : (setTg g x d).epochLatch = d.epochLatch := rfl
@[simp] theorem setTg_snap (g : Nat) (x : TgS) (d : Dev) : (setTg g x d).snap = d.snap := rfl
@[simp] theorem setTg_prf (g : Nat) (x : TgS) (d : Dev) : (setTg g x d).prf = d.prf := rfl
@[simp] theorem setTg_perf (g : Nat) (x : TgS) (d : Dev) : (setTg g x d).perf = d.perf := rfl
@[simp] theorem setTg_log (g : Nat) (x : TgS) (d : Dev) : (setTg g x d).log = d.log := rfl
@[simp] theorem setTg_lseq (g : Nat) (x : TgS) (d : Dev) : (setTg g x d).lseq = d.lseq := rfl
@[simp] theorem setTg_logNewest (g : Nat) (x : TgS) (d : Dev) : (setTg g x d).logNewest = d.logNewest := rfl
@[simp] theorem setTg_injecting (g : Nat) (x : TgS) (d : Dev) : (setTg g x d).injecting = d.injecting := rfl
@[simp] theorem setTg_persistQ (g : Nat) (x : TgS) (d : Dev) : (setTg g x d).persistQ = d.persistQ := rfl
@[simp] theorem setTg_vecOwed (g : Nat) (x : TgS) (d : Dev) : (setTg g x d).vecOwed = d.vecOwed := rfl
@[simp] theorem setTg_posted (g : Nat) (x : TgS) (d : Dev) : (setTg g x d).posted = d.posted := rfl
@[simp] theorem setTg_out (g : Nat) (x : TgS) (d : Dev) : (setTg g x d).out = d.out := rfl
@[simp] theorem setTg_free (g : Nat) (x : TgS) (d : Dev) : (setTg g x d).free = d.free := rfl
@[simp] theorem setTg_quadLock (g : Nat) (x : TgS) (d : Dev) : (setTg g x d).quadLock = d.quadLock := rfl
@[simp] theorem setTg_lane (g : Nat) (x : TgS) (d : Dev) : (setTg g x d).lane = d.lane := rfl
@[simp] theorem setTg_port (g : Nat) (x : TgS) (d : Dev) : (setTg g x d).port = d.port := rfl
@[simp] theorem setTg_homeQ (g : Nat) (x : TgS) (d : Dev) : (setTg g x d).homeQ = d.homeQ := rfl
@[simp] theorem setTg_rtHold (g : Nat) (x : TgS) (d : Dev) : (setTg g x d).rtHold = d.rtHold := rfl
@[simp] theorem setTg_rtAt (g : Nat) (x : TgS) (d : Dev) : (setTg g x d).rtAt = d.rtAt := rfl
@[simp] theorem setTg_spLatch (g : Nat) (x : TgS) (d : Dev) : (setTg g x d).spLatch = d.spLatch := rfl
@[simp] theorem setTg_spNewest (g : Nat) (x : TgS) (d : Dev) : (setTg g x d).spNewest = d.spNewest := rfl
@[simp] theorem setTg_bank (g : Nat) (x : TgS) (d : Dev) : (setTg g x d).bank = d.bank := rfl
@[simp] theorem setTg_lth (g : Nat) (x : TgS) (d : Dev) : (setTg g x d).lth = d.lth := rfl
@[simp] theorem setTg_fus (g : Nat) (x : TgS) (d : Dev) : (setTg g x d).fus = d.fus := rfl
@[simp] theorem setTg_stream (g : Nat) (x : TgS) (d : Dev) : (setTg g x d).stream = d.stream := rfl
@[simp] theorem setTg_recQ (g : Nat) (x : TgS) (d : Dev) : (setTg g x d).recQ = d.recQ := rfl
@[simp] theorem setTg_cls (g : Nat) (x : TgS) (d : Dev) : (setTg g x d).cls = d.cls := rfl
@[simp] theorem setTg_gou (g : Nat) (x : TgS) (d : Dev) : (setTg g x d).gou = d.gou := rfl
@[simp] theorem setTg_mrg (g : Nat) (x : TgS) (d : Dev) : (setTg g x d).mrg = d.mrg := rfl
@[simp] theorem setTg_ras (g : Nat) (x : TgS) (d : Dev) : (setTg g x d).ras = d.ras := rfl
@[simp] theorem setTg_yielding (g : Nat) (x : TgS) (d : Dev) : (setTg g x d).yielding = d.yielding := rfl
@[simp] theorem setTg_objQ (g : Nat) (x : TgS) (d : Dev) : (setTg g x d).objQ = d.objQ := rfl
@[simp] theorem setTg_held (g : Nat) (x : TgS) (d : Dev) : (setTg g x d).held = d.held := rfl
@[simp] theorem setTg_crv (g : Nat) (x : TgS) (d : Dev) : (setTg g x d).crv = d.crv := rfl
@[simp] theorem setTg_vrd (g : Nat) (x : TgS) (d : Dev) : (setTg g x d).vrd = d.vrd := rfl
@[simp] theorem setTg_imgWord (g : Nat) (x : TgS) (d : Dev) : (setTg g x d).imgWord = d.imgWord := rfl
@[simp] theorem setTg_dma (g : Nat) (x : TgS) (d : Dev) : (setTg g x d).dma = d.dma := rfl
@[simp] theorem setTg_cmp (g : Nat) (x : TgS) (d : Dev) : (setTg g x d).cmp = d.cmp := rfl
@[simp] theorem setTg_ddr (g : Nat) (x : TgS) (d : Dev) : (setTg g x d).ddr = d.ddr := rfl
@[simp] theorem setTg_nvm (g : Nat) (x : TgS) (d : Dev) : (setTg g x d).nvm = d.nvm := rfl
@[simp] theorem setTg_rootHash (g : Nat) (x : TgS) (d : Dev) : (setTg g x d).rootHash = d.rootHash := rfl
@[simp] theorem setTg_rcp (g : Nat) (x : TgS) (d : Dev) : (setTg g x d).rcp = d.rcp := rfl
@[simp] theorem setTg_mgt (g : Nat) (x : TgS) (d : Dev) : (setTg g x d).mgt = d.mgt := rfl
@[simp] theorem setTg_cal (g : Nat) (x : TgS) (d : Dev) : (setTg g x d).cal = d.cal := rfl
@[simp] theorem setTg_rtFree (g : Nat) (x : TgS) (d : Dev) : (setTg g x d).rtFree = d.rtFree := rfl
@[simp] theorem setTg_aon (g : Nat) (x : TgS) (d : Dev) : (setTg g x d).aon = d.aon := rfl

/-! ## `setPerf` -/

@[simp] theorem setPerf_regs (b : Nat) (x : PerfS) (d : Dev) : (setPerf b x d).regs = d.regs := rfl
@[simp] theorem setPerf_rwb (b : Nat) (x : PerfS) (d : Dev) : (setPerf b x d).rwb = d.rwb := rfl
@[simp] theorem setPerf_rwp (b : Nat) (x : PerfS) (d : Dev) : (setPerf b x d).rwp = d.rwp := rfl
@[simp] theorem setPerf_latch (b : Nat) (x : PerfS) (d : Dev) : (setPerf b x d).latch = d.latch := rfl
@[simp] theorem setPerf_epochLatch (b : Nat) (x : PerfS) (d : Dev) : (setPerf b x d).epochLatch = d.epochLatch := rfl
@[simp] theorem setPerf_snap (b : Nat) (x : PerfS) (d : Dev) : (setPerf b x d).snap = d.snap := rfl
@[simp] theorem setPerf_prf (b : Nat) (x : PerfS) (d : Dev) : (setPerf b x d).prf = d.prf := rfl
@[simp] theorem setPerf_log (b : Nat) (x : PerfS) (d : Dev) : (setPerf b x d).log = d.log := rfl
@[simp] theorem setPerf_lseq (b : Nat) (x : PerfS) (d : Dev) : (setPerf b x d).lseq = d.lseq := rfl
@[simp] theorem setPerf_logNewest (b : Nat) (x : PerfS) (d : Dev) : (setPerf b x d).logNewest = d.logNewest := rfl
@[simp] theorem setPerf_injecting (b : Nat) (x : PerfS) (d : Dev) : (setPerf b x d).injecting = d.injecting := rfl
@[simp] theorem setPerf_persistQ (b : Nat) (x : PerfS) (d : Dev) : (setPerf b x d).persistQ = d.persistQ := rfl
@[simp] theorem setPerf_vecOwed (b : Nat) (x : PerfS) (d : Dev) : (setPerf b x d).vecOwed = d.vecOwed := rfl
@[simp] theorem setPerf_posted (b : Nat) (x : PerfS) (d : Dev) : (setPerf b x d).posted = d.posted := rfl
@[simp] theorem setPerf_out (b : Nat) (x : PerfS) (d : Dev) : (setPerf b x d).out = d.out := rfl
@[simp] theorem setPerf_free (b : Nat) (x : PerfS) (d : Dev) : (setPerf b x d).free = d.free := rfl
@[simp] theorem setPerf_tim (b : Nat) (x : PerfS) (d : Dev) : (setPerf b x d).tim = d.tim := rfl
@[simp] theorem setPerf_quadLock (b : Nat) (x : PerfS) (d : Dev) : (setPerf b x d).quadLock = d.quadLock := rfl
@[simp] theorem setPerf_lane (b : Nat) (x : PerfS) (d : Dev) : (setPerf b x d).lane = d.lane := rfl
@[simp] theorem setPerf_port (b : Nat) (x : PerfS) (d : Dev) : (setPerf b x d).port = d.port := rfl
@[simp] theorem setPerf_homeQ (b : Nat) (x : PerfS) (d : Dev) : (setPerf b x d).homeQ = d.homeQ := rfl
@[simp] theorem setPerf_rtHold (b : Nat) (x : PerfS) (d : Dev) : (setPerf b x d).rtHold = d.rtHold := rfl
@[simp] theorem setPerf_rtAt (b : Nat) (x : PerfS) (d : Dev) : (setPerf b x d).rtAt = d.rtAt := rfl
@[simp] theorem setPerf_spLatch (b : Nat) (x : PerfS) (d : Dev) : (setPerf b x d).spLatch = d.spLatch := rfl
@[simp] theorem setPerf_spNewest (b : Nat) (x : PerfS) (d : Dev) : (setPerf b x d).spNewest = d.spNewest := rfl
@[simp] theorem setPerf_bank (b : Nat) (x : PerfS) (d : Dev) : (setPerf b x d).bank = d.bank := rfl
@[simp] theorem setPerf_lth (b : Nat) (x : PerfS) (d : Dev) : (setPerf b x d).lth = d.lth := rfl
@[simp] theorem setPerf_fus (b : Nat) (x : PerfS) (d : Dev) : (setPerf b x d).fus = d.fus := rfl
@[simp] theorem setPerf_stream (b : Nat) (x : PerfS) (d : Dev) : (setPerf b x d).stream = d.stream := rfl
@[simp] theorem setPerf_recQ (b : Nat) (x : PerfS) (d : Dev) : (setPerf b x d).recQ = d.recQ := rfl
@[simp] theorem setPerf_cls (b : Nat) (x : PerfS) (d : Dev) : (setPerf b x d).cls = d.cls := rfl
@[simp] theorem setPerf_gou (b : Nat) (x : PerfS) (d : Dev) : (setPerf b x d).gou = d.gou := rfl
@[simp] theorem setPerf_mrg (b : Nat) (x : PerfS) (d : Dev) : (setPerf b x d).mrg = d.mrg := rfl
@[simp] theorem setPerf_ras (b : Nat) (x : PerfS) (d : Dev) : (setPerf b x d).ras = d.ras := rfl
@[simp] theorem setPerf_yielding (b : Nat) (x : PerfS) (d : Dev) : (setPerf b x d).yielding = d.yielding := rfl
@[simp] theorem setPerf_objQ (b : Nat) (x : PerfS) (d : Dev) : (setPerf b x d).objQ = d.objQ := rfl
@[simp] theorem setPerf_held (b : Nat) (x : PerfS) (d : Dev) : (setPerf b x d).held = d.held := rfl
@[simp] theorem setPerf_crv (b : Nat) (x : PerfS) (d : Dev) : (setPerf b x d).crv = d.crv := rfl
@[simp] theorem setPerf_vrd (b : Nat) (x : PerfS) (d : Dev) : (setPerf b x d).vrd = d.vrd := rfl
@[simp] theorem setPerf_imgWord (b : Nat) (x : PerfS) (d : Dev) : (setPerf b x d).imgWord = d.imgWord := rfl
@[simp] theorem setPerf_dma (b : Nat) (x : PerfS) (d : Dev) : (setPerf b x d).dma = d.dma := rfl
@[simp] theorem setPerf_cmp (b : Nat) (x : PerfS) (d : Dev) : (setPerf b x d).cmp = d.cmp := rfl
@[simp] theorem setPerf_ddr (b : Nat) (x : PerfS) (d : Dev) : (setPerf b x d).ddr = d.ddr := rfl
@[simp] theorem setPerf_nvm (b : Nat) (x : PerfS) (d : Dev) : (setPerf b x d).nvm = d.nvm := rfl
@[simp] theorem setPerf_rootHash (b : Nat) (x : PerfS) (d : Dev) : (setPerf b x d).rootHash = d.rootHash := rfl
@[simp] theorem setPerf_rcp (b : Nat) (x : PerfS) (d : Dev) : (setPerf b x d).rcp = d.rcp := rfl
@[simp] theorem setPerf_mgt (b : Nat) (x : PerfS) (d : Dev) : (setPerf b x d).mgt = d.mgt := rfl
@[simp] theorem setPerf_cal (b : Nat) (x : PerfS) (d : Dev) : (setPerf b x d).cal = d.cal := rfl
@[simp] theorem setPerf_rtFree (b : Nat) (x : PerfS) (d : Dev) : (setPerf b x d).rtFree = d.rtFree := rfl
@[simp] theorem setPerf_aon (b : Nat) (x : PerfS) (d : Dev) : (setPerf b x d).aon = d.aon := rfl

/-! ## `advance` -/

@[simp] theorem advance_regs (n : Nat) (d : Dev) : (advance n d).regs = d.regs := rfl
@[simp] theorem advance_rwb (n : Nat) (d : Dev) : (advance n d).rwb = d.rwb := rfl
@[simp] theorem advance_rwp (n : Nat) (d : Dev) : (advance n d).rwp = d.rwp := rfl
@[simp] theorem advance_latch (n : Nat) (d : Dev) : (advance n d).latch = d.latch := rfl
@[simp] theorem advance_epochLatch (n : Nat) (d : Dev) : (advance n d).epochLatch = d.epochLatch := rfl
@[simp] theorem advance_snap (n : Nat) (d : Dev) : (advance n d).snap = d.snap := rfl
@[simp] theorem advance_prf (n : Nat) (d : Dev) : (advance n d).prf = d.prf := rfl
@[simp] theorem advance_perf (n : Nat) (d : Dev) : (advance n d).perf = d.perf := rfl
@[simp] theorem advance_log (n : Nat) (d : Dev) : (advance n d).log = d.log := rfl
@[simp] theorem advance_lseq (n : Nat) (d : Dev) : (advance n d).lseq = d.lseq := rfl
@[simp] theorem advance_logNewest (n : Nat) (d : Dev) : (advance n d).logNewest = d.logNewest := rfl
@[simp] theorem advance_injecting (n : Nat) (d : Dev) : (advance n d).injecting = d.injecting := rfl
@[simp] theorem advance_persistQ (n : Nat) (d : Dev) : (advance n d).persistQ = d.persistQ := rfl
@[simp] theorem advance_vecOwed (n : Nat) (d : Dev) : (advance n d).vecOwed = d.vecOwed := rfl
@[simp] theorem advance_posted (n : Nat) (d : Dev) : (advance n d).posted = d.posted := rfl
@[simp] theorem advance_out (n : Nat) (d : Dev) : (advance n d).out = d.out := rfl
@[simp] theorem advance_free (n : Nat) (d : Dev) : (advance n d).free = d.free := rfl
@[simp] theorem advance_quadLock (n : Nat) (d : Dev) : (advance n d).quadLock = d.quadLock := rfl
@[simp] theorem advance_lane (n : Nat) (d : Dev) : (advance n d).lane = d.lane := rfl
@[simp] theorem advance_port (n : Nat) (d : Dev) : (advance n d).port = d.port := rfl
@[simp] theorem advance_homeQ (n : Nat) (d : Dev) : (advance n d).homeQ = d.homeQ := rfl
@[simp] theorem advance_rtHold (n : Nat) (d : Dev) : (advance n d).rtHold = d.rtHold := rfl
@[simp] theorem advance_rtAt (n : Nat) (d : Dev) : (advance n d).rtAt = d.rtAt := rfl
@[simp] theorem advance_spLatch (n : Nat) (d : Dev) : (advance n d).spLatch = d.spLatch := rfl
@[simp] theorem advance_spNewest (n : Nat) (d : Dev) : (advance n d).spNewest = d.spNewest := rfl
@[simp] theorem advance_bank (n : Nat) (d : Dev) : (advance n d).bank = d.bank := rfl
@[simp] theorem advance_lth (n : Nat) (d : Dev) : (advance n d).lth = d.lth := rfl
@[simp] theorem advance_fus (n : Nat) (d : Dev) : (advance n d).fus = d.fus := rfl
@[simp] theorem advance_stream (n : Nat) (d : Dev) : (advance n d).stream = d.stream := rfl
@[simp] theorem advance_recQ (n : Nat) (d : Dev) : (advance n d).recQ = d.recQ := rfl
@[simp] theorem advance_cls (n : Nat) (d : Dev) : (advance n d).cls = d.cls := rfl
@[simp] theorem advance_gou (n : Nat) (d : Dev) : (advance n d).gou = d.gou := rfl
@[simp] theorem advance_mrg (n : Nat) (d : Dev) : (advance n d).mrg = d.mrg := rfl
@[simp] theorem advance_ras (n : Nat) (d : Dev) : (advance n d).ras = d.ras := rfl
@[simp] theorem advance_yielding (n : Nat) (d : Dev) : (advance n d).yielding = d.yielding := rfl
@[simp] theorem advance_objQ (n : Nat) (d : Dev) : (advance n d).objQ = d.objQ := rfl
@[simp] theorem advance_held (n : Nat) (d : Dev) : (advance n d).held = d.held := rfl
@[simp] theorem advance_crv (n : Nat) (d : Dev) : (advance n d).crv = d.crv := rfl
@[simp] theorem advance_vrd (n : Nat) (d : Dev) : (advance n d).vrd = d.vrd := rfl
@[simp] theorem advance_imgWord (n : Nat) (d : Dev) : (advance n d).imgWord = d.imgWord := rfl
@[simp] theorem advance_dma (n : Nat) (d : Dev) : (advance n d).dma = d.dma := rfl
@[simp] theorem advance_cmp (n : Nat) (d : Dev) : (advance n d).cmp = d.cmp := rfl
@[simp] theorem advance_ddr (n : Nat) (d : Dev) : (advance n d).ddr = d.ddr := rfl
@[simp] theorem advance_nvm (n : Nat) (d : Dev) : (advance n d).nvm = d.nvm := rfl
@[simp] theorem advance_rootHash (n : Nat) (d : Dev) : (advance n d).rootHash = d.rootHash := rfl
@[simp] theorem advance_rcp (n : Nat) (d : Dev) : (advance n d).rcp = d.rcp := rfl
@[simp] theorem advance_mgt (n : Nat) (d : Dev) : (advance n d).mgt = d.mgt := rfl
@[simp] theorem advance_cal (n : Nat) (d : Dev) : (advance n d).cal = d.cal := rfl
@[simp] theorem advance_rtFree (n : Nat) (d : Dev) : (advance n d).rtFree = d.rtFree := rfl
@[simp] theorem advance_aon (n : Nat) (d : Dev) : (advance n d).aon = d.aon := rfl

end Sys2Proof.Machine
end

