-- ==== Sys2Proof/Laws/Ops.lean ====
section
/-!
SUPPORT. What each shared operation can do, once: the register file, the books, DRAM, and how a command's
effect on the device becomes a step of the block.
-/

namespace Sys2Proof.Machine

/-! ## The register file -/

/-- A field reads alike in two devices with the same register file. -/
theorem get_congr {d e : Dev} (h : d.regs = e.regs) (f : Fld) : d.get f = e.get f := by
  simp [Dev.get, h]

/-- A field reads what was last put there, in the field's width. -/
@[simp] theorem get_put_self (f : Fld) (v : Nat) (d : Dev) : (put f v d).get f = v % 2 ^ f.w := by
  simp [Dev.get, put]

/-- A field under the same key reads the same value. -/
theorem get_put_key {f g : Fld} (h : g.key = f.key) (v : Nat) (d : Dev) : (put f v d).get g = v % 2 ^ f.w := by
  simp [Dev.get, put, h]

/-- A put leaves every other field. -/
theorem get_put_ne {f g : Fld} (h : g.key ≠ f.key) (v : Nat) (d : Dev) : (put f v d).get g = d.get g := by
  simp [Dev.get, put, KMap.get_put_ne _ _ _ _ _ h]

theorem get_puts_ne {g : Fld} : ∀ (fs : List (Fld × Nat)) (d : Dev), g.key ∉ fs.map (fun p => p.1.key) →
    (puts fs d).get g = d.get g
  | [], _, _ => rfl
  | (f, v) :: fs, d, h => by
    simp only [List.map_cons, List.mem_cons, not_or] at h
    rw [puts, get_puts_ne fs _ h.2, get_put_ne h.1]

@[simp] theorem get_emit (o : Out) (d : Dev) (f : Fld) : (emit o d).get f = d.get f := rfl
@[simp] theorem get_takeFree (d : Dev) (f : Fld) : (takeFree d).get f = d.get f := rfl
@[simp] theorem get_post (o : MemOp) (d : Dev) (f : Fld) : (post o d).get f = d.get f := rfl
@[simp] theorem get_setLane (l : Nat) (x : LaneS) (d : Dev) (f : Fld) : (setLane l x d).get f = d.get f := rfl
@[simp] theorem get_setPort (p : Nat) (x : PortS) (d : Dev) (f : Fld) : (setPort p x d).get f = d.get f := rfl
@[simp] theorem get_setTg (g : Nat) (x : TgS) (d : Dev) (f : Fld) : (setTg g x d).get f = d.get f := rfl
@[simp] theorem get_setPerf (b : Nat) (x : PerfS) (d : Dev) (f : Fld) : (setPerf b x d).get f = d.get f := rfl
@[simp] theorem get_advance (n : Nat) (d : Dev) (f : Fld) : (advance n d).get f = d.get f := rfl

/-! ## `when` -/

@[simp] theorem when_true (f : Dev → Dev) (d : Dev) : when true f d = f d := rfl
@[simp] theorem when_false (f : Dev → Dev) (d : Dev) : when false f d = d := rfl

/-! ## Frames -/

theorem Leaves.refl (d : Dev) : Leaves [] d d := ⟨fun _ _ _ => rfl, rfl⟩

theorem Leaves.get {fs : List Fld} {d e : Dev} (h : Leaves fs d e) {f : Fld} (hb : bookKey f.key = false)
    (hf : f.key ∉ fs.map Fld.key) : e.get f = d.get f := h.1 f hb hf

theorem Leaves.trans {fs gs : List Fld} {d e g : Dev} (h : Leaves fs d e) (h' : Leaves gs e g) : Leaves (fs ++ gs) d g := by
  refine ⟨fun f hb hf => ?_, h'.2.trans h.2⟩
  simp only [List.map_append, List.mem_append, not_or] at hf
  rw [h'.1 f hb hf.2, h.1 f hb hf.1]

theorem Leaves.mono {fs gs : List Fld} {d e : Dev} (h : Leaves fs d e) (hs : ∀ f ∈ fs, f.key ∈ gs.map Fld.key) : Leaves gs d e := by
  refine ⟨fun f hb hf => h.1 f hb fun hm => hf ?_, h.2⟩
  obtain ⟨g, hg, hk⟩ := List.mem_map.mp hm
  exact hk ▸ hs g hg

/-- A put changes its own field alone. -/
theorem leaves_put (f : Fld) (v : Nat) (d : Dev) : Leaves [f] d (put f v d) :=
  ⟨fun _ _ hg => get_put_ne (by simpa using hg) v d, rfl⟩

/-- A put to a register of the books changes nothing else. -/
theorem leaves_put_book {f : Fld} (h : bookKey f.key = true) (v : Nat) (d : Dev) : Leaves [] d (put f v d) :=
  ⟨fun g hg _ => get_put_ne (fun e => by rw [e, h] at hg; cases hg) v d, rfl⟩

theorem leaves_puts : ∀ (fs : List (Fld × Nat)) (d : Dev), Leaves (fs.map Prod.fst) d (puts fs d)
  | [], d => Leaves.refl d
  | (f, v) :: fs, d => (leaves_put f v d).trans (leaves_puts fs (put f v d))

theorem leaves_when {fs : List Fld} (c : Bool) (f : Dev → Dev) (d : Dev) (h : Leaves fs d (f d)) : Leaves fs d (when c f d) := by
  cases c with
  | true => exact h
  | false => exact ⟨fun _ _ _ => rfl, rfl⟩

theorem leaves_each {α : Type} (f : α → Dev → Dev) :
    ∀ (xs : List α) (d : Dev), (∀ x ∈ xs, ∀ e, Leaves [] e (f x e)) → Leaves [] d (each f xs d)
  | [], d, _ => Leaves.refl d
  | x :: xs, d, h => (h x (by simp) d).trans (leaves_each f xs (f x d) fun y hy => h y (by simp [hy]))

/-! ## The books -/

/-- A base address under which the performance counters of a block instance lie. -/
def PerfBase (base : Nat) : Prop := base % 0x1000 = 0 ∧ base ≠ 0x1c01000 ∧ base ≠ 0x1c02000

theorem book_page {base off n lo : Nat} (hb : PerfBase base) (ho : 0xf20 ≤ off + n) (h : off + n < 0x1000) (hl : lo < 64) :
    bookKey ((⟨base + off + n, lo, 0⟩ : Fld).key) = true := by
  have h1 : (base + off + n) * 64 + lo = lo + 64 * (base + off + n) := by omega
  have h2 : ((base + off + n) * 64 + lo) / 64 = base + off + n := by
    rw [h1, Nat.add_mul_div_left _ _ (by decide), Nat.div_eq_of_lt hl, Nat.zero_add]
  obtain ⟨hb, h3, h4⟩ := hb
  simp only [bookKey, Fld.key, h2, Bool.or_eq_true, Bool.and_eq_true, Bool.not_eq_true', decide_eq_true_eq, decide_eq_false_iff_not]
  left
  omega

theorem book_cnt {base n : Nat} (hb : PerfBase base) (hn : n < 8) : bookKey (R.PERF.CNT.COUNT base n).key = true :=
  book_page (off := 0xf40) (lo := 0) hb (by omega) (by omega) (by omega)

theorem book_slot {base n : Nat} (hb : PerfBase base) (hn : n < 16) : bookKey (R.PERF.SLOT.COUNT base n).key = true :=
  book_page (off := 0xf80) (lo := 0) hb (by omega) (by omega) (by omega)

theorem book_ovf {base lo : Nat} (w : Nat) (hb : PerfBase base) (hl : lo < 64) : bookKey (⟨base + 0xf20, lo, w⟩ : Fld).key = true :=
  book_page (n := 0) (off := 0xf20) hb (by omega) (by omega) hl

/-- An interrupt event touches the books alone. -/
theorem leaves_raise (e : Nat) (d : Dev) : Leaves [] d (raise e d) := by
  unfold raise
  dsimp only
  split
  · split
    · refine ⟨fun f hb _ => ?_, rfl⟩
      rw [inc, get_put_ne (fun h => by rw [h] at hb; revert hb; decide)]
      rfl
    · exact ⟨fun _ _ _ => rfl, rfl⟩
  · exact Leaves.refl d

/-- A new event changes its sequence number and its flags alone. -/
theorem leaves_event (code : Nat) (seq : Fld) (flags : List Fld) (d : Dev) : Leaves (seqAnd seq flags) d (event code seq flags d) := by
  have h := ((leaves_put seq (nextSeq (d.get seq)) d).trans (leaves_puts (flags.map (fun f => (f, 1))) _)).trans (leaves_raise (64 + code) _)
  exact h.mono fun f hf => by simpa [seqAnd] using Or.imp (congrArg Fld.key) (fun h => ⟨f, h, rfl⟩) (by simpa using hf)

theorem leaves_event_book (code : Nat) {seq : Fld} (h : bookKey seq.key = true) (d : Dev) : Leaves [] d (event code seq [] d) :=
  (leaves_put_book h _ d).trans (leaves_raise (64 + code) _)

theorem leaves_setPerf (b : Nat) (x : PerfS) (d : Dev) : Leaves [] d (setPerf b x d) := ⟨fun _ _ _ => rfl, rfl⟩

theorem leaves_perfOne (blk : Nat) {base : Nat} (hb : PerfBase base) (code k : Nat) {n : Nat} (hn : n < 8) (d : Dev) :
    Leaves [] d (perfOne blk base code k n d) := by
  unfold perfOne
  split
  · simp only []
    split
    · exact leaves_put_book (book_cnt hb hn) _ d
    · exact (((leaves_put_book (book_cnt hb hn) _ d).trans (leaves_setPerf _ _ _)).trans
        (leaves_event_book blk (book_ovf 8 hb (by decide)) _)).trans (leaves_put_book (book_ovf 8 hb (by decide)) _ _)
  · exact Leaves.refl d

/-- A performance event touches the books alone. -/
theorem leaves_perf (blk : Nat) {base : Nat} (hb : PerfBase base) (code k : Nat) (d : Dev) : Leaves [] d (perf blk base code k d) := by
  unfold perf
  split
  · exact Leaves.refl d
  · exact leaves_each _ _ d fun n hn => leaves_perfOne blk hb code k (List.mem_range.mp hn)

/-- Slots of a category touch the books alone. -/
theorem leaves_slot (blk : Nat) {base : Nat} (hb : PerfBase base) {cat : Nat} (hc : cat < 16) (k : Nat) (d : Dev) :
    Leaves [] d (slot blk base cat k d) := by
  unfold slot
  split
  · exact Leaves.refl d
  · simp only []
    split
    · exact leaves_put_book (book_slot hb hc) _ d
    · exact (((leaves_put_book (book_slot hb hc) _ d).trans (leaves_setPerf _ _ _)).trans
        (leaves_event_book blk (book_ovf 8 hb (by decide)) _)).trans (leaves_put_book (book_ovf 4 hb (by decide)) _ _)

theorem leaves_mgtPerf (code n : Nat) (d : Dev) : Leaves [] d (mgtPerf code n d) := leaves_perf 3 (by unfold PerfBase; decide) code n d

theorem leaves_logFresh (code inst sev flags data : Nat) (d : Dev) : Leaves [] d (logFresh code inst sev flags data d) := by
  have h0 : Leaves [] d (logPlace code inst sev flags data d) := ⟨fun _ _ _ => rfl, rfl⟩
  exact ((h0.trans (leaves_put_book (by decide) _ _)).trans (leaves_put_book (by decide) _ _)).trans (leaves_mgtPerf 1 1 _)

/-- A log entry touches the books alone. -/
theorem leaves_logEntry (code inst sev flags data : Nat) (d : Dev) : Leaves [] d (logEntry code inst sev flags data d) := by
  have again (k : Nat) (e : LogEntry) : Leaves [] d (logAgain k e d) := ⟨fun _ _ _ => rfl, rfl⟩
  unfold logEntry
  split
  · exact leaves_logFresh ..
  · dsimp only
    split
    · exact (again _ _).trans (leaves_mgtPerf 3 1 _)
    · exact leaves_logFresh ..

theorem leaves_logEv (code inst sev data : Nat) (d : Dev) : Leaves [] d (logEv code inst sev data d) := leaves_logEntry ..
theorem leaves_logFw (code inst sev data : Nat) (d : Dev) : Leaves [] d (logFw code inst sev data d) := leaves_logEntry ..

/-! ## Device Time -/

/-- Steps of Device Time change no register but the books. -/
theorem dtSteps_get (n : Nat) (d : Dev) {f : Fld} (hb : bookKey f.key = false) : (dtSteps n d).get f = d.get f := by
  unfold dtSteps
  simp only []
  split
  · rfl
  · rw [(leaves_logEntry ..).get hb (by simp)]; rfl

/-- Device Time reaches a time with no line on its way: only DT moves. -/
theorem reach_quiet {d : Dev} (h : d.tim.coming = []) (t : Nat) : reach t d = dtSteps (d.stepsTo t) d := by
  simp [reach, h, arrivals]

/-- Integer nanoseconds pass with no line on its way. -/
theorem reachNs_quiet {d : Dev} (h : d.tim.coming = []) (start ns : Nat) :
    reachNs start ns d = dtSteps (d.stepsTo (dtAddNs start ns)) d := reach_quiet h _

/-- Then no register but the books has changed. -/
theorem get_reachNs_quiet {d : Dev} (h : d.tim.coming = []) (start ns : Nat) {f : Fld} (hb : bookKey f.key = false) :
    (reachNs start ns d).get f = d.get f := by
  rw [reachNs_quiet h, dtSteps_get _ _ hb]

/-- A tick with no line on its way. -/
theorem settleLines_quiet {d : Dev} (h : d.tim.coming = []) : settleLines d = d := by
  simp [settleLines, h, arrivals]

/-! ## DRAM -/

theorem putBytes_wf : ∀ (bs : List Byte) (m : KMap Byte) (k : Nat), KMap.wf (fun _ => 0#8) m = true →
    KMap.wf (fun _ => 0#8) (putBytes m k bs) = true
  | [], _, _, h => h
  | b :: bs, m, k, h => putBytes_wf bs _ (k + 1) (KMap.wf_put _ m k b h)

/-- One DRAM effect keeps the canonical form. -/
theorem Mem.apply_wf (m : Mem) (h : m.wf = true) (o : MemOp) : (m.apply o).wf = true := by
  simp only [Mem.wf, Bool.and_eq_true] at h
  cases o with
  | write key bs =>
    simp only [Mem.apply]
    split
    · simpa only [Mem.wf, Bool.and_eq_true] using h
    · simp only [Mem.wf, Bool.and_eq_true]
      exact ⟨putBytes_wf _ _ _ h.1, KMap.wf_put _ _ _ _ h.2⟩
  | poison g =>
    simp only [Mem.apply, Mem.wf, Bool.and_eq_true]
    exact ⟨KMap.wf_filter _ _ _ h.1, KMap.wf_put _ _ _ _ h.2⟩
  | train c =>
    simp only [Mem.apply, Mem.wf, Bool.and_eq_true]
    exact ⟨KMap.wf_filter _ _ _ h.1, KMap.wf_filter _ _ _ h.2⟩

/-- Every memory operation keeps the canonical form. -/
theorem Mem.applyAll_wf : ∀ (os : List MemOp) (m : Mem), m.wf = true → (m.applyAll os).wf = true
  | [], _, h => h
  | o :: os, m, h => Mem.applyAll_wf os (m.apply o) (m.apply_wf h o)

/-! ## From the device to the block -/

/-- What a command can do at all: its device, with its DRAM effects landed, and the queue untouched. -/
theorem run_next {f : Mem → Dev → Host.Outcome Dev Fault Refusal} {s t : State} (h : run f s = .next t) :
    ∃ d, f s.mem s.dev = .next d ∧
      t = { s with mem := s.mem.applyAll d.posted, dev := { d with posted := [] } } := by
  unfold run at h
  split at h
  · next d hd => exact ⟨d, hd, by cases h; rfl⟩
  · cases h
  · cases h

/-- A command that always completes, and what it leaves. -/
theorem total_next (f : Mem → Dev → Dev) (s : State) : total f s = .next (s.after (f s.mem s.dev)) := rfl

@[simp] theorem get_after (s : State) (d : Dev) (f : Fld) : (s.after d).dev.get f = d.get f := rfl
@[simp] theorem after_pending (s : State) (d : Dev) : (s.after d).pending = s.pending := rfl
@[simp] theorem after_settled (s : State) (d : Dev) : (s.after d).settled := rfl

/-- Clearing the posted effects changes no field. -/
@[simp] theorem get_posted (d : Dev) (os : List MemOp) (f : Fld) : ({ d with posted := os } : Dev).get f = d.get f := rfl

/-- The queue of waiting commands is no concern of a command. -/
theorem run_pending {f : Mem → Dev → Host.Outcome Dev Fault Refusal} {s t : State} (h : run f s = .next t) :
    t.pending = s.pending := by
  obtain ⟨d, -, rfl⟩ := run_next h
  rfl

/-- Nothing posted outlives a command, and DRAM keeps its canonical form. -/
theorem run_inv {f : Mem → Dev → Host.Outcome Dev Fault Refusal} {s t : State} (h : run f s = .next t) (hw : s.mem.wf = true) :
    t.Inv := by
  obtain ⟨d, -, rfl⟩ := run_next h
  exact ⟨Mem.applyAll_wf _ _ hw, rfl⟩

/-- What `Leaves` says of the DRAM effects: none is posted. -/
theorem Leaves.posted {fs : List Fld} {d e : Dev} (h : Leaves fs d e) : e.posted = d.posted := by
  have := congrArg Dev.posted h.2
  simpa [Dev.body] using this

/-- A frame on the device is a frame of the command. -/
theorem frame_of_leaves {fs : List Fld} {e d : Dev} (h : Leaves fs e d) (s : State) : Frame fs e s (s.after d) := by
  refine ⟨⟨fun f hb hf => ?_, ?_⟩, ?_⟩
  · simpa using h.get hb hf
  · have := congrArg (fun x : Dev => { x with posted := [] }) h.2
    simpa [State.after, Dev.body] using this
  · simp [State.after, h.posted]

/-- A command that always completes, with what holds of the device that it leaves. -/
theorem completes_total {f : Mem → Dev → Dev} {c : Instr} {s : State} {post : State → Prop} (hc : exec c s = total f s)
    (h : post (s.after (f s.mem s.dev))) : Completes c s post := ⟨_, hc, rfl, h⟩

/-- A command that completes, with what holds of the device that it leaves. -/
theorem completes_run {f : Mem → Dev → Host.Outcome Dev Fault Refusal} {c : Instr} {s : State} {d : Dev} {post : State → Prop}
    (hc : exec c s = run f s) (hd : f s.mem s.dev = .next d) (h : post (s.after d)) : Completes c s post :=
  ⟨s.after d, by rw [hc, run, hd]; rfl, rfl, h⟩

end Sys2Proof.Machine
end

