-- ==== Sys2Proof/Laws/Units.lean ====
section
/-!
SUPPORT. The state of a unit behind its registers: what was last stored for it is read back, the other units of its
kind keep theirs, and no register changes.
-/

namespace Sys2Proof.Machine

/-! ## A group -/

@[simp] theorem tgS_setTg (i : Nat) (x : TgS) (d : Dev) : (setTg i x d).tgS i = x := KMap.get_put_self ..
theorem tgS_setTg_ne (i : Nat) (x : TgS) (d : Dev) (j : Nat) (h : j ≠ i) : (setTg i x d).tgS j = d.tgS j := KMap.get_put_ne _ _ _ _ _ h

/-! ## A table unit -/

@[simp] theorem bankS_setBank (i : Nat) (x : Bank) (d : Dev) : (setBank i x d).bankS i = x := KMap.get_put_self ..
theorem bankS_setBank_ne (i : Nat) (x : Bank) (d : Dev) (j : Nat) (h : j ≠ i) : (setBank i x d).bankS j = d.bankS j := KMap.get_put_ne _ _ _ _ _ h
@[simp] theorem get_setBank (i : Nat) (x : Bank) (d : Dev) (f : Fld) : (setBank i x d).get f = d.get f := rfl

/-! ## A DMA channel -/

@[simp] theorem chS_setCh (i : Nat) (x : ChS) (d : Dev) : (setCh i x d).chS i = x := KMap.get_put_self ..
theorem chS_setCh_ne (i : Nat) (x : ChS) (d : Dev) (j : Nat) (h : j ≠ i) : (setCh i x d).chS j = d.chS j := KMap.get_put_ne _ _ _ _ _ h
@[simp] theorem get_setCh (i : Nat) (x : ChS) (d : Dev) (f : Fld) : (setCh i x d).get f = d.get f := rfl

/-! ## A DRAM channel -/

@[simp] theorem ddrS_setDdr (i : Nat) (x : DdrCh) (d : Dev) : (setDdr i x d).ddrS i = x := KMap.get_put_self ..
theorem ddrS_setDdr_ne (i : Nat) (x : DdrCh) (d : Dev) (j : Nat) (h : j ≠ i) : (setDdr i x d).ddrS j = d.ddrS j := KMap.get_put_ne _ _ _ _ _ h
@[simp] theorem get_setDdr (i : Nat) (x : DdrCh) (d : Dev) (f : Fld) : (setDdr i x d).get f = d.get f := rfl

/-! ## A view -/

@[simp] theorem viewS_setView (i : Nat) (x : ViewS) (d : Dev) : (setView i x d).viewS i = x := KMap.get_put_self ..
theorem viewS_setView_ne (i : Nat) (x : ViewS) (d : Dev) (j : Nat) (h : j ≠ i) : (setView i x d).viewS j = d.viewS j := KMap.get_put_ne _ _ _ _ _ h
@[simp] theorem get_setView (i : Nat) (x : ViewS) (d : Dev) (f : Fld) : (setView i x d).get f = d.get f := rfl

/-! ## A strip -/

@[simp] theorem stripS_setStrip (i : Nat) (x : StripS) (d : Dev) : (setStrip i x d).stripS i = x := KMap.get_put_self ..
theorem stripS_setStrip_ne (i : Nat) (x : StripS) (d : Dev) (j : Nat) (h : j ≠ i) : (setStrip i x d).stripS j = d.stripS j := KMap.get_put_ne _ _ _ _ _ h
@[simp] theorem get_setStrip (i : Nat) (x : StripS) (d : Dev) (f : Fld) : (setStrip i x d).get f = d.get f := rfl

/-! ## A gouge -/

@[simp] theorem gouS_setGou (i : Nat) (x : GouS) (d : Dev) : (setGou i x d).gouS i = x := KMap.get_put_self ..
theorem gouS_setGou_ne (i : Nat) (x : GouS) (d : Dev) (j : Nat) (h : j ≠ i) : (setGou i x d).gouS j = d.gouS j := KMap.get_put_ne _ _ _ _ _ h
@[simp] theorem get_setGou (i : Nat) (x : GouS) (d : Dev) (f : Fld) : (setGou i x d).get f = d.get f := rfl

/-! ## A rail -/

@[simp] theorem railS_setRail (i : Nat) (x : RailS) (d : Dev) : (setRail i x d).railS i = x := KMap.get_put_self ..
theorem railS_setRail_ne (i : Nat) (x : RailS) (d : Dev) (j : Nat) (h : j ≠ i) : (setRail i x d).railS j = d.railS j := KMap.get_put_ne _ _ _ _ _ h
@[simp] theorem get_setRail (i : Nat) (x : RailS) (d : Dev) (f : Fld) : (setRail i x d).get f = d.get f := rfl

/-! ## A NVM device -/

@[simp] theorem nvmS_setNvm (i : Nat) (x : NvmDev) (d : Dev) : (setNvm i x d).nvmS i = x := KMap.get_put_self ..
theorem nvmS_setNvm_ne (i : Nat) (x : NvmDev) (d : Dev) (j : Nat) (h : j ≠ i) : (setNvm i x d).nvmS j = d.nvmS j := KMap.get_put_ne _ _ _ _ _ h
@[simp] theorem get_setNvm (i : Nat) (x : NvmDev) (d : Dev) (f : Fld) : (setNvm i x d).get f = d.get f := rfl

/-! ## A codec engine -/

@[simp] theorem jobS_setJob (i : Nat) (x : JobS) (d : Dev) : (setJob i x d).jobS i = x := KMap.get_put_self ..
theorem jobS_setJob_ne (i : Nat) (x : JobS) (d : Dev) (j : Nat) (h : j ≠ i) : (setJob i x d).jobS j = d.jobS j := KMap.get_put_ne _ _ _ _ _ h
@[simp] theorem get_setJob (i : Nat) (x : JobS) (d : Dev) (f : Fld) : (setJob i x d).get f = d.get f := rfl

/-! ## A lathe -/

@[simp] theorem lthS_setLth (i : Nat) (x : LthS) (d : Dev) : (setLth i x d).lthS i = x := KMap.get_put_self ..
theorem lthS_setLth_ne (i : Nat) (x : LthS) (d : Dev) (j : Nat) (h : j ≠ i) : (setLth i x d).lthS j = d.lthS j := KMap.get_put_ne _ _ _ _ _ h
@[simp] theorem get_setLth (i : Nat) (x : LthS) (d : Dev) (f : Fld) : (setLth i x d).get f = d.get f := rfl

/-! ## A segment -/

@[simp] theorem segS_setSeg (i : Nat) (x : SegS) (d : Dev) : (setSeg i x d).segS i = x := KMap.get_put_self ..
theorem segS_setSeg_ne (i : Nat) (x : SegS) (d : Dev) (j : Nat) (h : j ≠ i) : (setSeg i x d).segS j = d.segS j := KMap.get_put_ne _ _ _ _ _ h
@[simp] theorem get_setSeg (i : Nat) (x : SegS) (d : Dev) (f : Fld) : (setSeg i x d).get f = d.get f := rfl

/-! ## A lane -/

@[simp] theorem laneS_setLane (i : Nat) (x : LaneS) (d : Dev) : (setLane i x d).laneS i = x := KMap.get_put_self ..
theorem laneS_setLane_ne (i : Nat) (x : LaneS) (d : Dev) (j : Nat) (h : j ≠ i) : (setLane i x d).laneS j = d.laneS j := KMap.get_put_ne _ _ _ _ _ h

/-! ## A port -/

@[simp] theorem portS_setPort (i : Nat) (x : PortS) (d : Dev) : (setPort i x d).portS i = x := KMap.get_put_self ..
theorem portS_setPort_ne (i : Nat) (x : PortS) (d : Dev) (j : Nat) (h : j ≠ i) : (setPort i x d).portS j = d.portS j := KMap.get_put_ne _ _ _ _ _ h

/-! ## A performance block -/

@[simp] theorem perfS_setPerf (i : Nat) (x : PerfS) (d : Dev) : (setPerf i x d).perfS i = x := KMap.get_put_self ..
theorem perfS_setPerf_ne (i : Nat) (x : PerfS) (d : Dev) (j : Nat) (h : j ≠ i) : (setPerf i x d).perfS j = d.perfS j := KMap.get_put_ne _ _ _ _ _ h

end Sys2Proof.Machine
end

