-- ==== Sys2Proof/Tests/Slice0.lean ====
section
/-!
SUPPORT. Tests: for each obligation with hypotheses a witness theorem, which gives for each of its clauses a state and
operands that meet the hypotheses together; an operand that each check of WellFormed refuses; and values that
the spec works out. Everything is evaluated by the kernel.
-/

open Sys2Proof Sys2Proof.Machine

namespace Sys2Proof.Tests

/-! ## States to test with -/

set_option Elab.async false

/-- A device with these fields, and what `f` makes of it. -/
def dw (fs : List (Fld × Nat)) (f : Dev → Dev := id) : Dev := f (puts fs {})

/-- A block with this device. -/
def w (fs : List (Fld × Nat)) (f : Dev → Dev := id) : State := { dev := dw fs f }

/-- The parts of a register's site. -/
def sBase (a : Nat) : Nat := match siteOf a with | .reg b _ _ _ _ => b | _ => 0
def sBlk (a : Nat) : BlockDef := match siteOf a with | .reg _ b _ _ _ => b | _ => ⟨0, 0, 0, 0, []⟩
def sInst (a : Nat) : Nat := match siteOf a with | .reg _ _ i _ _ => i | _ => 0
def sReg (a : Nat) : RegDef := match siteOf a with | .reg _ _ _ r _ => r | _ => ⟨0, [], false, false, []⟩

/-- The parts of a window's site. -/
def wBase (a : Nat) : Nat := match siteOf a with | .win b _ _ _ _ => b | _ => 0
def wBlk (a : Nat) : BlockDef := match siteOf a with | .win _ b _ _ _ => b | _ => ⟨0, 0, 0, 0, []⟩
def wInst (a : Nat) : Nat := match siteOf a with | .win _ _ i _ _ => i | _ => 0
def wOff (a : Nat) : Nat := match siteOf a with | .win _ _ _ _ o => o | _ => 0

def wId (a : Nat) : Option WinId := match siteOf a with | .win _ _ _ w _ => some w | _ => none
/-- The window of an address, from its name alone. -/
theorem win_site {a : Nat} {w : WinId} (h : wId a = some w) : siteOf a = .win (wBase a) (wBlk a) (wInst a) w (wOff a) := by
  unfold wId at h; unfold wBase wBlk wInst wOff; split at h <;> simp_all

/-- A control block as a lane first sends it: its scrambler starts at 0 (R95). -/
def scr (b : BitVec 64) : Blk := { hdr := 2#2, body := bodyOf (scramble 0 (payloadBits { hdr := 2#2, body := b })) }

/-- A ring slot header with a right checksum (R163). -/
def goodHead : List Byte := leBytes 4 9 ++ List.replicate 56 0#8 ++ leBytes 4 (crc32c (leBytes 4 9 ++ List.replicate 56 0#8))

/-- A packet under reception whose header is whole and right (R118, R121), and the body of the EOP that closes it (R119). -/
def pkHead (dtype len : Nat) : List Byte :=
  let h := leBytes 4 (0x78 + 65536 * dtype + 2 ^ 24 * 3) ++ List.replicate 12 0#8 ++ leBytes 2 len ++ List.replicate 4 0#8
  h ++ leBytes 2 (crc16 h)
def pk (dtype : Nat) (pay : List Byte) : OpenPkt :=
  let h := pkHead dtype pay.length
  let f : List Byte → BitVec 64 := fun x => BitVec.ofNat 64 (leVal x)
  { sop := f (h.take 8), data := f pay :: [f (h.drop 16), f ((h.drop 8).take 8)] }
def pkEop (pay : List Byte) : BitVec 64 := BitVec.ofNat 64 (0x87 + 256 * pay.length + 65536 * crc32c pay)

/-- An object record. -/
def obj : ObjRec :=
  { id := 7, epoch := 0, flags := 0, first := 0, lines := 4, views := 1, dtFirst := 0, leadT := 0, x0 := 8, x1 := 11, area := 16, perim := 16
    csat := 0, cls := [16, 0, 0, 0, 0, 0, 0, 0, 0, 0, 0, 0, 0, 0, 0], cx := 0, cy := 0, mu20 := 0, mu02 := 0, mu11 := 0
    fmean := [0, 0, 0, 0], fmin := [0, 0, 0, 0], fmax := [0, 0, 0, 0] }

/-- The blob of a network of one fully connected layer over a patch of 4 x 4 x 1 (R302 to R304). -/
def blobBytes : List Byte :=
  let rest := [6#8, 0#8, 0#8, 0#8, 4#8, 4#8, 1#8, 0#8, 1#8, 1#8, 1#8, 0#8] ++ leBytes 4 0 ++ leBytes 4 24 ++ [16#8] ++ List.replicate 11 0#8
    ++ List.replicate 16 1#8 ++ leBytes 4 0 ++ leBytes 2 1 ++ [0#8, 0#8]
  let h := leBytes 4 0x4b524356 ++ [1#8, 0#8, 1#8, 1#8, 4#8, 4#8, 1#8, 0#8] ++ leBytes 4 24 ++ List.replicate 28 0#8 ++ leBytes 4 (crc32c rest)
    ++ List.replicate 12 0#8
  h ++ leBytes 4 (crc32c h) ++ rest
/-- Weight SRAM that holds the blob at offset 0. -/
def blobWords : KMap Nat := (List.range 30).map (fun i => (i, fieldAt blobBytes (4 * i) 4))
/-- A Carver that runs with that network in slot 0. -/
def crv (fs : List (Fld × Nat)) (c : CrvS) (held : List ObjRec := [obj]) : State :=
  w ([(R.CRV.CTL.EN, 1), (R.CRV.STATUS.STATE, 1)] ++ fs) (fun d => { d with crv := { c with weights := blobWords }, held })

/-- An image of one section of networks, with the blob above for slot 2 (R477, R479). -/
def netImage : KMap Byte :=
  let b := List.replicate 6 0#8 ++ [1#8, 0#8] ++ List.replicate 56 0#8
    ++ leBytes 4 0x20 ++ leBytes 4 80 ++ leBytes 4 136 ++ leBytes 4 0 ++ leBytes 4 2 ++ leBytes 4 0 ++ leBytes 8 120 ++ blobBytes
  (List.range b.length).map (fun i => (i, nth 0#8 b i))

/-- DRAM that holds these bytes at these ascending addresses of channel 0. -/
def ram (xs : List (Nat × List Byte)) : Mem :=
  { bytes := (xs.flatMap (fun x => (List.range x.2.length).map (fun i => (x.1 + i, nth 0#8 x.2 i)))).filter (fun e => e.2 != 0#8)
    marks := xs.flatMap (fun x => (List.range ((x.1 + x.2.length + 63) / 64 - x.1 / 64)).map (fun i => (x.1 / 64 + i, Mark.written))) }
/-- A block with channel 0 in service. -/
def dram (xs : List (Nat × List Byte)) (fs : List (Fld × Nat)) (f : Dev → Dev := id) : State :=
  { w ([(R.DDR.CAP.ACTIVE, 1), (R.DDR.CAP.MIB, 16383), (R.TOP.DRAM_GRANT.GRANT 3, 10)] ++ fs) f with mem := ram xs }
/-- The static owner of a resource (R20), in entry 0. -/
def owns (ty idx owner : Nat) : List (Fld × Nat) :=
  [(R.TOP.OWN.TYPE 0, ty), (R.TOP.OWN.INDEX 0, idx), (R.TOP.OWN.OWNER 0, owner), (R.TOP.OWN.HELD 0, 1)]

/-- Static owners of whole kinds of resource: type, owner, and how many of them (R20). -/
def ownsAll (xs : List (Nat × Nat × Nat)) : List (Fld × Nat) :=
  ((xs.flatMap (fun x => (List.range x.2.2).map (fun i => (x.1, i, x.2.1)))).zip (List.range 64)).flatMap (fun e =>
    [(R.TOP.OWN.TYPE e.2, e.1.1), (R.TOP.OWN.INDEX e.2, e.1.2.1), (R.TOP.OWN.OWNER e.2, e.1.2.2), (R.TOP.OWN.HELD e.2, 1)])

/-- An instruction of a channel program (R388). -/
def insB (op flags arg n a b : Nat) : List Byte :=
  leBytes 1 op ++ leBytes 1 flags ++ leBytes 2 arg ++ leBytes 4 n ++ leBytes 8 a ++ leBytes 8 b ++ List.replicate 8 0#8
/-- Channel 0 runs a program that holds this instruction at address 0. -/
def prog (b : List Byte) (x : ChS := {}) : State :=
  dram [(0, b)] ([(R.DMA.CH_CTL.MODE 0, 1), (R.DMA.CH_STATUS.STATE 0, 2)] ++ owns 4 0 13) (setCh 0 { x with space := 1 })
/-- A tap line. -/
def tline : TapLine := ⟨4, 0xff, 0, 5, 9, 0, [⟨0, 0, 0, [1, 2, 3]⟩]⟩
/-- A job descriptor to encode two lines of four samples (R418). -/
def jobDesc : List Byte := [1#8, 0#8, 8#8, 0#8] ++ leBytes 4 4 ++ leBytes 8 0x100 ++ leBytes 4 16 ++ List.replicate 44 0#8
/-- One record with its block (R406, R407). -/
def record : List Byte :=
  (codeRecord { lsn := 5, tap := 7, src := 0xff, plane := 0, depth := 8, first := 0, count := 4, dt := 0, lflags := 0, pflag := 0, rflags := 0 } 0 false []
    [1, 2, 3, 200]).1

/-- A request in the mailbox: its command and payload (R460). -/
def asks (cmd : Nat) (payload : List Byte) (fs : List (Fld × Nat)) (f : Dev → Dev := id) : State :=
  let b := leBytes 2 cmd ++ List.replicate 6 0#8 ++ leBytes 4 payload.length ++ List.replicate 4 0#8 ++ payload
  w ((R.MGT.MBX_STATUS.BUSY, 1) :: fs) (fun d => f { d with mgt := { d.mgt with mbx := (List.range b.length).map (fun i => (i, nth 0#8 b i)) } })
theorem leVal_four (n : Nat) : leVal (leBytes 4 n) = n % 2 ^ 32 := by
  simp [leVal, leBytes]; omega
/-- An image without a section and with no recipe, and a key and a signature that verify it: with R = S and both equal to
the hash, the check asks that G plus the key be the point whose x is the hash (R459, R476, R477). -/
def goodImage : List Byte :=
  let r := beBytes 32 0x7c0576769adc64d1b6b01f629b8d928c89de71dc7f01c78c06505b7d97b8864b
  leBytes 4 0x474d494c ++ leBytes 4 1 ++ leBytes 4 200 ++ leBytes 4 0x1248 ++ leBytes 12 0 ++ [0xff#8] ++ List.replicate 35 0#8
    ++ leBytes 8 0x4749534c ++ beBytes 32 0x565dd94361777f683311a6a7de7f31a4becca73aea318780f8844e64e28b66d7
    ++ beBytes 32 0xfcf711d88a45c6cbc5a4b860a78f0d8c8f6d75ad210811db70b1cea85328920c ++ r ++ r
/-- The image in slot 0, with the hash of its key fused. -/
def goodNvm (d : Dev) : Dev :=
  setNvm 0 { slots := some { len0 := 200 }, img0 := (List.range 200).map (fun i => (i, nth 0#8 goodImage i)) }
    { d with rootHash := beBytes 32 0x7632ba2fb5e88416d10b6c1e87e2a09d212dcf9a64ad1b77dd37de789e0d72c9 }

theorem boot_of {r : (List Byte × Nat) × Dev} (h : r.1.2 = 0) : r = ((r.1.1, 0), r.2) := by
  rw [← h]
theorem join4 {A B C D E : Prop} (h : A ∧ B ∧ C ∧ D) (r : E) : A ∧ B ∧ C ∧ D ∧ E := ⟨h.1, h.2.1, h.2.2.1, h.2.2.2, r⟩
theorem next_of (P : Applied → Bool) {o : Host.Outcome Applied Fault Refusal}
    (h : (match o with | .next x => !x.timeout && P x | _ => false) = true) : ∃ x, o = .next x ∧ x.timeout = false ∧ P x = true := by
  cases o <;> simp_all
def judgedIs (x : Except String (Nat × Nat × List (Valve × Int) × Bool × How)) (a : Nat × Nat × List (Valve × Int) × Bool × How) : Bool :=
  match x with
  | .ok (p, q, l, b, h) => decide (p = a.1) && decide (q = a.2.1) && decide (l = a.2.2.1) && decide (b = a.2.2.2.1) && decide (h = a.2.2.2.2)
  | .error _ => false
theorem judged_ok {x : Except String (Nat × Nat × List (Valve × Int) × Bool × How)} {a : Nat × Nat × List (Valve × Int) × Bool × How}
    (h : judgedIs x a = true) : x = .ok a := by
  obtain ⟨p, q, l, b, v⟩ := a
  cases x with
  | error => cases h
  | ok y => obtain ⟨p', q', l', b', v'⟩ := y; simp_all [judgedIs]
theorem step_of {o : Host.Outcome Dev Fault Refusal} (h : (match o with | .next _ => true | _ => false) = true) : ∃ x, o = .next x := by
  cases o <;> simp_all

/-! ## Witnesses of the obligations -/

theorem witness_IdleStepTicksDeviceTime :
    ∃ (s : State), s.pending = [] ∧ s.dev.tim.coming = [] :=
  ⟨{}, by decide +kernel⟩

theorem witness_StepKeepsInvariant :
    ∃ (s t : State), s.Inv ∧ step s = .next t :=
  ⟨{}, _, ⟨by decide +kernel, rfl⟩, rfl⟩

theorem witness_CommandsLeaveTheQueue :
    ∃ (c : Instr) (s : State) (t : _), exec c s = .next t :=
  ⟨.arbiterWindow, {}, _, rfl⟩

theorem witness_ResetCommandsReset :
    (∃ (s : State), (s.dev.on R.PWR.TRIP.VALID && !s.dev.aon.tripLogged) = false) ∧
    (∃ (s : State), s.dev.on R.PWR.TRIP.VALID = true ∧ s.dev.aon.tripLogged = false) :=
  ⟨⟨{}, by decide +kernel⟩,
   ⟨w [(R.PWR.TRIP.VALID, 1)], by decide +kernel⟩⟩

theorem witness_StartUpWithImageServes :
    (∃ (env : BootEnv) (s : State) (b : List Byte) (d : Dev) (x : Applied), s.dev.get R.TOP.STATE.STEP = 1 ∧ s.dev.get R.TOP.STATE.MODE = 0 ∧ s.dev.aon.off = false ∧ (env.refA || env.refB) = true ∧ bootImage .start env.nvm (bootClocks env (bootWait .start env (dtStart s.dev))) = ((b, 0), d) ∧ applyImage s.mem b (put R.TOP.STATE.STEP 6 (setQual 2 d)) = .next x ∧ x.timeout = false ∧ x.dev.layoutErr env.trainFails = none) ∧
    (∃ (env : BootEnv) (s : State) (b : List Byte) (d : Dev) (x : Applied), s.dev.get R.TOP.STATE.STEP = 2 ∧ s.dev.get R.TOP.STATE.MODE = 0 ∧ s.dev.aon.wakeOff = false ∧ (env.refA || env.refB) = true ∧ bootImage .start env.nvm (bootClocks env (bootWait .start env s.dev)) = ((b, 0), d) ∧ applyImage s.mem b (put R.TOP.STATE.STEP 6 (setQual 2 d)) = .next x ∧ x.timeout = false ∧ x.dev.layoutErr env.trainFails = none) ∧
    (∃ (env : BootEnv) (s : State) (b : List Byte) (d : Dev) (x : Applied), s.dev.served = true ∧ s.dev.takesRebase = true ∧ bootImage .rebase env.nvm (rebaseStop env s.dev) = ((b, 0), d) ∧ applyImage s.mem b (put R.TOP.STATE.STEP 6 d) = .next x ∧ x.timeout = false ∧ x.dev.layoutErr env.trainFails = none) :=
  ⟨by
    have h := boot_of (r := (bootImage .start ({} : BootEnv).nvm (bootClocks {} (bootWait .start {} (dtStart (w [(R.TOP.STATE.STEP, 1)] goodNvm).dev))))) (by decide +kernel)
    obtain ⟨x, hx, ht, hp⟩ := next_of (fun x => decide (x.dev.layoutErr ({} : BootEnv).trainFails = none)) (o := applyImage (w [(R.TOP.STATE.STEP, 1)] goodNvm).mem (bootImage .start ({} : BootEnv).nvm (bootClocks {} (bootWait .start {} (dtStart (w [(R.TOP.STATE.STEP, 1)] goodNvm).dev)))).1.1 (put R.TOP.STATE.STEP 6 (setQual 2 (bootImage .start ({} : BootEnv).nvm (bootClocks {} (bootWait .start {} (dtStart (w [(R.TOP.STATE.STEP, 1)] goodNvm).dev)))).2))) (by decide +kernel)
    exact ⟨{}, (w [(R.TOP.STATE.STEP, 1)] goodNvm), _, _, x, by decide +kernel, by decide +kernel, by decide +kernel, by decide +kernel, h, hx, ht, of_decide_eq_true hp⟩,
   by
    have h := boot_of (r := (bootImage .start ({} : BootEnv).nvm (bootClocks {} (bootWait .start {} (w [(R.TOP.STATE.STEP, 2)] goodNvm).dev)))) (by decide +kernel)
    obtain ⟨x, hx, ht, hp⟩ := next_of (fun x => decide (x.dev.layoutErr ({} : BootEnv).trainFails = none)) (o := applyImage (w [(R.TOP.STATE.STEP, 2)] goodNvm).mem (bootImage .start ({} : BootEnv).nvm (bootClocks {} (bootWait .start {} (w [(R.TOP.STATE.STEP, 2)] goodNvm).dev))).1.1 (put R.TOP.STATE.STEP 6 (setQual 2 (bootImage .start ({} : BootEnv).nvm (bootClocks {} (bootWait .start {} (w [(R.TOP.STATE.STEP, 2)] goodNvm).dev))).2))) (by decide +kernel)
    exact ⟨{}, (w [(R.TOP.STATE.STEP, 2)] goodNvm), _, _, x, by decide +kernel, by decide +kernel, by decide +kernel, by decide +kernel, h, hx, ht, of_decide_eq_true hp⟩,
   by
    have h := boot_of (r := (bootImage .rebase ({} : BootEnv).nvm (rebaseStop {} (w [(R.TOP.STATE.STEP, 11), (R.TOP.STATE.MODE, 1), (R.PWR.STATUS.STATE, 1)] goodNvm).dev))) (by decide +kernel)
    obtain ⟨x, hx, ht, hp⟩ := next_of (fun x => decide (x.dev.layoutErr ({} : BootEnv).trainFails = none)) (o := applyImage (w [(R.TOP.STATE.STEP, 11), (R.TOP.STATE.MODE, 1), (R.PWR.STATUS.STATE, 1)] goodNvm).mem (bootImage .rebase ({} : BootEnv).nvm (rebaseStop {} (w [(R.TOP.STATE.STEP, 11), (R.TOP.STATE.MODE, 1), (R.PWR.STATUS.STATE, 1)] goodNvm).dev)).1.1 (put R.TOP.STATE.STEP 6 (bootImage .rebase ({} : BootEnv).nvm (rebaseStop {} (w [(R.TOP.STATE.STEP, 11), (R.TOP.STATE.MODE, 1), (R.PWR.STATUS.STATE, 1)] goodNvm).dev)).2)) (by decide +kernel)
    exact ⟨{}, (w [(R.TOP.STATE.STEP, 11), (R.TOP.STATE.MODE, 1), (R.PWR.STATUS.STATE, 1)] goodNvm), _, _, x, by decide +kernel, by decide +kernel, h, hx, ht, of_decide_eq_true hp⟩⟩

theorem witness_StartUpWaitsOrFails :
    (∃ (env : BootEnv) (s : State), s.dev.get R.TOP.STATE.STEP = 1 ∧ s.dev.get R.TOP.STATE.MODE = 0 ∧ s.dev.aon.off = false ∧ env.refA = false ∧ env.refB = false) ∧
    (∃ (env : BootEnv) (s : State), s.dev.get R.TOP.STATE.STEP = 2 ∧ s.dev.get R.TOP.STATE.MODE = 0 ∧ s.dev.aon.wakeOff = false ∧ env.refA = false ∧ env.refB = false) ∧
    (∃ (env : BootEnv) (s : State), s.dev.get R.TOP.STATE.STEP = 1 ∧ s.dev.get R.TOP.STATE.MODE = 0 ∧ s.dev.aon.off = false ∧ (env.refA || env.refB) = true ∧ env.nvm = { a := true, b := true }) ∧
    (∃ (key : BitVec 16) (s : State), key ≠ 0x4c58#16 ∧ s.dev.served = true) :=
  ⟨⟨{ refA := false }, w [(R.TOP.STATE.STEP, 1)], by decide +kernel⟩,
   ⟨{ refA := false }, w [(R.TOP.STATE.STEP, 2)], by decide +kernel⟩,
   ⟨{ nvm := { a := true, b := true } }, w [(R.TOP.STATE.STEP, 1)], by decide +kernel⟩,
   ⟨0x4c57, w [(R.TOP.STATE.STEP, 0xb)], by decide +kernel⟩⟩

theorem witness_EndpointTrainsAfterPerst :
    ∃ (s : State), s.dev.aon.off = false :=
  ⟨{}, by decide +kernel⟩

theorem witness_RunTimeClaimsFollowTheClasses :
    (∃ (ty : Fin 5) (idx : Fin 64) (o : Fin 15) (s : State), resourceOk ty.val idx.val = true ∧ o.val ≠ 0 ∧ s.dev.holderNow ty.val idx.val = none) ∧
    (∃ (ty : Fin 5) (idx : Fin 64) (o : Fin 15) (s : State), resourceOk ty.val idx.val = true ∧ o.val ≠ 0 ∧ s.dev.holderNow ty.val idx.val = some o.val) ∧
    (∃ (ty : Fin 5) (idx : Fin 64) (o : Fin 15) (h : Nat) (s : State), resourceOk ty.val idx.val = true ∧ o.val ≠ 0 ∧ s.dev.holderNow ty.val idx.val = some h ∧ h ≠ o.val ∧ KMap.get (fun _ => none) s.dev.rtAt (4096 * ty.val + idx.val) ≠ some s.dev.clockNow ∧ ownerClass h ≤ ownerClass o.val) ∧
    (∃ (ty : Fin 5) (idx : Fin 64) (o : Fin 15) (h : Nat) (s : State), resourceOk ty.val idx.val = true ∧ o.val ≠ 0 ∧ s.dev.holderNow ty.val idx.val = some h ∧ h ≠ o.val ∧ KMap.get (fun _ => none) s.dev.rtAt (4096 * ty.val + idx.val) ≠ some s.dev.clockNow ∧ ownerClass o.val < ownerClass h) ∧
    (∃ (ty : Fin 5) (idx : Fin 64) (o : Fin 15) (h : Nat) (s : State), resourceOk ty.val idx.val = true ∧ o.val ≠ 0 ∧ s.dev.holderNow ty.val idx.val = some h ∧ h ≠ o.val ∧ KMap.get (fun _ => none) s.dev.rtAt (4096 * ty.val + idx.val) = some s.dev.clockNow) ∧
    (∃ (ty : Fin 5) (idx : Fin 64) (o : Fin 15) (s : State), resourceOk ty.val idx.val = true ∧ o.val ≠ 0 ∧ KMap.get (fun _ => none) s.dev.rtHold (4096 * ty.val + idx.val) = some o.val ∧ (s.dev.ownEntries ty.val idx.val).isEmpty = true ∧ ty.val ≠ 1) ∧
    (∃ (ty : Fin 5) (idx : Fin 64) (o : Fin 15) (s : State), resourceOk ty.val idx.val = true ∧ o.val ≠ 0 ∧ KMap.get (fun _ => none) s.dev.rtHold (4096 * ty.val + idx.val) = some o.val ∧ ((s.dev.ownEntries ty.val idx.val).isEmpty = false ∨ ty.val = 1)) ∧
    (∃ (ty : Fin 5) (idx : Fin 64) (o : Fin 15), (resourceOk ty.val idx.val = false ∨ o.val = 0)) :=
  ⟨⟨2, 15, 14, {}, by decide +kernel⟩,
   ⟨2, 15, 5, w [(R.TOP.OWN.TYPE 0, 2), (R.TOP.OWN.INDEX 0, 15), (R.TOP.OWN.OWNER 0, 5), (R.TOP.OWN.HELD 0, 1)], by decide +kernel⟩,
   ⟨2, 15, 6, 5, w [(R.TOP.OWN.TYPE 0, 2), (R.TOP.OWN.INDEX 0, 15), (R.TOP.OWN.OWNER 0, 5), (R.TOP.OWN.HELD 0, 1)], by decide +kernel⟩,
   ⟨2, 15, 1, 5, w [(R.TOP.OWN.TYPE 0, 2), (R.TOP.OWN.INDEX 0, 15), (R.TOP.OWN.OWNER 0, 5), (R.TOP.OWN.HELD 0, 1)], by decide +kernel⟩,
   ⟨2, 15, 6, 5, w [(R.TOP.OWN.TYPE 0, 2), (R.TOP.OWN.INDEX 0, 15), (R.TOP.OWN.OWNER 0, 5), (R.TOP.OWN.HELD 0, 1)] (fun d => { d with rtAt := [(8192 + 15, some d.clockNow)] }), by decide +kernel⟩,
   ⟨2, 15, 14, w [] (fun d => { d with rtHold := [(8192 + 15, some 14)] }), by decide +kernel⟩,
   ⟨2, 15, 14, w [(R.TOP.OWN.TYPE 0, 2), (R.TOP.OWN.INDEX 0, 15), (R.TOP.OWN.OWNER 0, 5), (R.TOP.OWN.HELD 0, 1)] (fun d => { d with rtHold := [(8192 + 15, some 14)] }), by decide +kernel⟩,
   ⟨2, 15, 0, by decide +kernel⟩⟩

theorem witness_RegisterReadsComplete :
    (∃ (addr : BitVec 25) (size : Nat) (s : State), s.dev.aon.off = false ∧ s.dev.served = true ∧ readErr addr.toNat size = none) ∧
    (∃ (addr : BitVec 25) (size k : Nat) (s : State), s.dev.aon.off = false ∧ s.dev.served = true ∧ readErr addr.toNat size = some k) ∧
    (∃ (addr : BitVec 25) (size : Nat) (s : State), s.dev.aon.off = false ∧ s.dev.served = true ∧ userErr addr.toNat size = none) ∧
    (∃ (s : State), s.dev.aon.off = false ∧ s.dev.served = false) ∧
    (∃ (s : State), s.dev.aon.off = true) :=
  ⟨⟨0x260, 4, w [(R.TOP.STATE.STEP, 0xb), (R.TOP.STATE.MODE, 1)], by decide +kernel⟩,
   ⟨0x6, 4, 2, w [(R.TOP.STATE.STEP, 0xb), (R.TOP.STATE.MODE, 1)], by decide +kernel⟩,
   ⟨0xffc, 4, w [(R.TOP.STATE.STEP, 0xb), (R.TOP.STATE.MODE, 1)], by decide +kernel⟩,
   ⟨{}, by decide +kernel⟩,
   ⟨w [] (fun d => { d with aon := { d.aon with off := true } }), by decide +kernel⟩⟩

theorem witness_RegisterWritesReachTheFields :
    (∃ (addr : BitVec 25) (value : BitVec 64) (s : State) (base inst : Nat) (b : BlockDef) (r : RegDef) (f : FieldDef), siteOf addr.toNat = .reg base b inst r addr.toNat ∧ s.dev.takesWord addr.toNat base b r (value.toNat % 2 ^ 32) ∧ f ∈ r.fields ∧ f.lo + f.w ≤ 32 ∧ ((∀ g ∈ r.fields, g.lo = f.lo → g = f))) ∧
    (∃ (addr : BitVec 25) (s : State) (base inst off u k : Nat) (b : BlockDef) (w : WinId), s.dev.aon.off = false ∧ s.dev.served = true ∧ writeErr s.dev addr.toNat 4 = none ∧ s.dev.dark b.code = false ∧ s.dev.recipeTouches addr.toNat = false ∧ siteOf addr.toNat = .win base b inst w off ∧ b.code ∈ [11, 12, 16] ∧ s.dev.tableKey w inst off = some (u, k) ∧ s.dev.copyCovers u k = false) ∧
    (∃ (addr : BitVec 25) (s : State) (base inst off : Nat) (b : BlockDef), s.dev.aon.off = false ∧ s.dev.served = true ∧ writeErr s.dev addr.toNat 4 = none ∧ s.dev.dark b.code = false ∧ s.dev.recipeTouches addr.toNat = false ∧ siteOf addr.toNat = .win base b inst .mailbox off) ∧
    (∃ (s : State), s.dev.aon.off = false ∧ s.dev.served = true) ∧
    (∃ (addr : BitVec 25) (size : Nat) (s : State) (k : Nat), s.dev.aon.off = false ∧ s.dev.served = true ∧ writeErr s.dev addr.toNat size = some k) ∧
    (∃ (addr : BitVec 25) (size : Nat) (s : State) (base inst : Nat) (b : BlockDef) (r : RegDef) (a : Nat), s.dev.aon.off = false ∧ s.dev.served = true ∧ writeErr s.dev addr.toNat size = none ∧ siteOf addr.toNat = .reg base b inst r a ∧ s.dev.dark b.code = true) ∧
    (∃ (addr : BitVec 25) (size : Nat) (value : BitVec 64) (s : State) (base inst : Nat) (b : BlockDef) (r : RegDef) (a : Nat), s.dev.aon.off = false ∧ s.dev.served = true ∧ writeErr s.dev addr.toNat size = none ∧ s.dev.dark b.code = false ∧ siteOf addr.toNat = .reg base b inst r a ∧ addr.toNat ≠ 0x264 ∧ outOfRange b.code (a - base) r a (8 * (addr.toNat - a)) (8 * size) (value.toNat % 2 ^ (8 * size)) s.dev = true) :=
  ⟨⟨0x1b01100, 1, w [(R.TOP.STATE.STEP, 0xb), (R.TOP.STATE.MODE, 1)], sBase 0x1b01100, sInst 0x1b01100, sBlk 0x1b01100, sReg 0x1b01100, ⟨0, 32, .rw, 0, .none⟩, by decide +kernel, ⟨by decide +kernel, by decide +kernel⟩, by decide +kernel⟩,
   ⟨0x880004, w [(R.TOP.STATE.STEP, 0xb), (R.TOP.STATE.MODE, 1)], wBase 0x880004, wInst 0x880004, wOff 0x880004, 8, 1, wBlk 0x880004, .fusKernel, by decide +kernel⟩,
   ⟨0x44000, w [(R.TOP.STATE.STEP, 0xb), (R.TOP.STATE.MODE, 1)], wBase 0x44000, wInst 0x44000, wOff 0x44000, wBlk 0x44000, join4 (by decide +kernel) ⟨by decide +kernel, win_site (by decide +kernel)⟩⟩,
   ⟨w [(R.TOP.STATE.STEP, 0xb), (R.TOP.STATE.MODE, 1)], by decide +kernel⟩,
   ⟨0x1b01101, 4, w [(R.TOP.STATE.STEP, 0xb), (R.TOP.STATE.MODE, 1)], 2, by decide +kernel⟩,
   ⟨0x1b01100, 4, w [(R.TOP.STATE.STEP, 0xb), (R.TOP.STATE.MODE, 3)], sBase 0x1b01100, sInst 0x1b01100, sBlk 0x1b01100, sReg 0x1b01100, 0x1b01100, by decide +kernel⟩,
   ⟨0x800004, 4, 0x20001, w [(R.TOP.STATE.STEP, 0xb), (R.TOP.STATE.MODE, 1)], sBase 0x800004, sInst 0x800004, sBlk 0x800004, sReg 0x800004, 0x800004, by decide +kernel⟩⟩

theorem witness_SequenceNumberClears :
    (∃ (addr : BitVec 25) (value : BitVec 32) (s : State) (base inst : Nat) (b : BlockDef) (r : RegDef) (f : FieldDef), siteOf addr.toNat = .reg base b inst r addr.toNat ∧ s.dev.takesWord addr.toNat base b r value.toNat ∧ hasSeq addr.toNat = true ∧ r.fields.all (fun g => g.ty == .rsq || g.ty == .ro) = true ∧ f ∈ r.fields ∧ f.ty = .rsq ∧ bookKey (Fld.key ⟨addr.toNat, f.lo, f.w⟩) = false) ∧
    (∃ (addr : BitVec 25), hasSeq addr.toNat = false) ∧
    (∃ (seq : Fld) (fs : List Fld) (d : Dev), seq.w = 8 ∧ d.get seq < 256 ∧ bookKey seq.key = false ∧ (∀ f ∈ fs, f.w = 1 ∧ f.key ≠ seq.key ∧ bookKey f.key = false)) ∧
    (∃ (seq : Fld) (fs : List Fld) (d : Dev), seq.w = 8 ∧ d.get seq < 256 ∧ bookKey seq.key = false ∧ (∀ f ∈ fs, f.w = 1 ∧ f.key ≠ seq.key ∧ bookKey f.key = false)) ∧
    (∃ (seq : Fld) (fs : List Fld) (d : Dev), seq.w = 8 ∧ d.get seq < 256 ∧ bookKey seq.key = false ∧ (∀ f ∈ fs, f.w = 1 ∧ f.key ≠ seq.key ∧ bookKey f.key = false)) ∧
    (∃ (seq : Fld) (fs : List Fld) (d : Dev), seq.w = 8 ∧ d.get seq < 256 ∧ bookKey seq.key = false ∧ (∀ f ∈ fs, f.w = 1 ∧ f.key ≠ seq.key ∧ bookKey f.key = false)) :=
  ⟨⟨0x1b00024, 0, w [(R.TOP.STATE.STEP, 0xb), (R.TOP.STATE.MODE, 1)], sBase 0x1b00024, sInst 0x1b00024, sBlk 0x1b00024, sReg 0x1b00024, ⟨24, 8, .rsq, 0, .none⟩, by decide +kernel, ⟨by decide +kernel, by decide +kernel⟩, by decide +kernel⟩,
   ⟨0x1b01100, by decide +kernel⟩,
   ⟨R.RAS.STATUS.SEQ, [R.RAS.STATUS.T_LOST], dw [(R.RAS.STATUS.SEQ, 255)], by decide +kernel⟩,
   ⟨R.RAS.STATUS.SEQ, [R.RAS.STATUS.T_LOST], dw [(R.RAS.STATUS.SEQ, 255)], by decide +kernel⟩,
   ⟨R.RAS.STATUS.SEQ, [R.RAS.STATUS.T_LOST], dw [(R.RAS.STATUS.SEQ, 255)], by decide +kernel⟩,
   ⟨R.RAS.STATUS.SEQ, [R.RAS.STATUS.T_LOST], dw [(R.RAS.STATUS.SEQ, 255)], by decide +kernel⟩⟩

theorem witness_PendingValuesLand :
    (∃ (cal : Bool) (s : State), s.dev.on (if cal then R.CAL.BUSY.BUSY else R.PWR.BUSY.BUSY) = true ∧ KMap.wf (fun _ => none) s.dev.rwp = true) ∧
    (∃ (code : Fin 22) (base n : Nat) (s : State), (code.val, base, n) ∈ [(7, 0x100000, 0x100000), (14, 0x1200000, 0x100000), (15, 0x1300000, 0x500000)] ∧ s.dev.blockWaits = true ∧ KMap.wf (fun _ => none) s.dev.rwb = true) ∧
    (∃ (s : State), s.dev.blockWaits = true) :=
  ⟨⟨false, w [(R.PWR.BUSY.BUSY, 1)], by decide +kernel⟩,
   ⟨7, 0x100000, 0x100000, w [] (fun d => { d with fus := { d.fus with issued := [(0, 0)] } }), by decide +kernel⟩,
   ⟨w [] (fun d => { d with fus := { d.fus with issued := [(0, 0)] } }), by decide +kernel⟩⟩

theorem witness_TriplicatedFieldsScrubAndRestore :
    (∃ (a : BitVec 25) (base inst : Nat) (b : BlockDef) (r : RegDef) (a' : Nat), siteOf a.toNat = .reg base b inst r a' ∧ b.code ∉ [6, 10, 13]) ∧
    (∃ (a : Nat) (rest : List Nat) (s : State) (base inst : Nat) (b : BlockDef) (r : RegDef) (f : FieldDef) (w : Nat), s.dev.ras.coresDown = false ∧ s.dev.ras.tLost = a :: rest ∧ siteOf a = .reg base b inst r a ∧ f ∈ r.fields ∧ f.ty = .rw ∧ f.lo + f.w ≤ 32 ∧ ((∀ g ∈ r.fields, g.lo = f.lo → g = f)) ∧ KMap.get (fun _ => none) s.dev.imgWord a = some w) :=
  ⟨⟨0x1b01100, sBase 0x1b01100, sInst 0x1b01100, sBlk 0x1b01100, sReg 0x1b01100, 0x1b01100, by decide +kernel⟩,
   ⟨0x1b01100, [], w [] (fun d => { d with ras := { d.ras with tLost := [0x1b01100] }, imgWord := [(0x1b01100, some 5)] }), sBase 0x1b01100, sInst 0x1b01100, sBlk 0x1b01100, sReg 0x1b01100, ⟨0, 32, .rw, 0, .none⟩, 5, by decide +kernel⟩⟩

theorem witness_SnapshotStates :
    (∃ (s : State), s.dev.get R.SNP.STATUS.STATE = 0) ∧
    (∃ (s : State), s.dev.get R.SNP.STATUS.STATE ≠ 0) ∧
    (∃ (mgmt : Bool) (s : State), bit (s.dev.get R.SNP.CTL.SRC_EN) (if mgmt then 4 else 0) = true ∧ s.dev.get R.SNP.STATUS.STATE = 1) ∧
    (∃ (mgmt : Bool) (s : State), bit (s.dev.get R.SNP.CTL.SRC_EN) (if mgmt then 4 else 0) = false) ∧
    (∃ (rising : Bool) (s : State), s.dev.get (R.TOP.PINMUX.FUNC 36) = 0 ∧ rising = s.dev.on R.SNP.CTL.SNAP_IN_POL ∧ bit (s.dev.get R.SNP.CTL.SRC_EN) 1 = true ∧ s.dev.get R.SNP.STATUS.STATE = 1) ∧
    (∃ (block : Fin 22) (inst : Fin 136) (s : State), s.dev.tim.coming = [] ∧ s.dev.get R.SNP.STATUS.STATE = 2 ∧ (block.val, inst.val) ∈ s.dev.snap.waiting) ∧
    (∃ (s : State), s.dev.get R.SNP.STATUS.STATE = 2 ∧ s.dev.snap.waiting = []) ∧
    (∃ (s : State), s.dev.get R.SNP.STATUS.STATE = 3) :=
  ⟨⟨w [(R.SNP.STATUS.STATE, 0), (R.SNP.CTL.SRC_EN, 0x1f)], by decide +kernel⟩,
   ⟨w [(R.SNP.STATUS.STATE, 1), (R.SNP.CTL.SRC_EN, 0x1f)], by decide +kernel⟩,
   ⟨true, w [(R.SNP.STATUS.STATE, 1), (R.SNP.CTL.SRC_EN, 0x1f)], by decide +kernel⟩,
   ⟨true, w [(R.SNP.CTL.SRC_EN, 0xf)], by decide +kernel⟩,
   ⟨true, w [(R.SNP.STATUS.STATE, 1), (R.SNP.CTL.SRC_EN, 0x1f), (R.SNP.CTL.SNAP_IN_POL, 1)], by decide +kernel⟩,
   ⟨21, 0, w [(R.SNP.STATUS.STATE, 2), (R.SNP.CTL.SRC_EN, 0x1f)] (fun d => { d with snap := { d.snap with waiting := [(21, 0)] } }), by decide +kernel⟩,
   ⟨w [(R.SNP.STATUS.STATE, 2), (R.SNP.CTL.SRC_EN, 0x1f)], by decide +kernel⟩,
   ⟨w [(R.SNP.STATUS.STATE, 3), (R.SNP.CTL.SRC_EN, 0x1f)], by decide +kernel⟩⟩

theorem witness_CollectionTakesAndDumps :
    (∃ (t0 : Nat) (s : State), s.dev.tim.coming = [] ∧ s.dev.prf.nextDt = some t0 ∧ s.dev.prf.busy = true) ∧
    (∃ (t0 : Nat) (s : State), s.dev.tim.coming = [] ∧ s.dev.prf.nextDt = some t0 ∧ s.dev.prf.busy = false ∧ s.dev.dumpRing = none) ∧
    (∃ (s : State), s.dev.prf.busy = true ∧ s.dev.prf.denied = false ∧ s.dev.yields 3 = true) ∧
    (∃ (s : State), s.dev.prf.busy = true ∧ (!s.dev.prf.denied && s.dev.yields 3) = false) :=
  ⟨⟨0, w [] (fun d => { d with prf := { d.prf with nextDt := some 0, busy := true } }), by decide +kernel⟩,
   ⟨0, w [] (fun d => { d with prf := { d.prf with nextDt := some 0, busy := false } }), by decide +kernel⟩,
   ⟨w [] (fun d => { d with prf := { d.prf with busy := true }, yielding := [(3, true)] }), by decide +kernel⟩,
   ⟨w [(R.TOP.DRAM_GRANT.GRANT 3, 1)] (fun d => { d with prf := { d.prf with busy := true } }), by decide +kernel⟩⟩

theorem witness_DeviceTimeWraps :
    ∃ (s : State), s.dev.tim.coming = [] ∧ s.dev.tim.acc < 2 ^ 96 ∧ 0 < s.dev.dtStep ∧ s.dev.dtStep < 2 ^ 96 :=
  ⟨{}, by decide +kernel⟩

theorem witness_WrapSafeComparison :
    ∃ (a b : Nat), a < 2 ^ 64 ∧ b < 2 ^ 64 :=
  ⟨0, 2 ^ 63, by decide +kernel⟩

theorem witness_ReferencesAndPllsChange :
    (∃ (i : Fin 2) (s : State), s.dev.refInUse = i.val ∧ s.dev.aon.off = false ∧ (s.dev.on R.TOP.PROFILE_ACT.REF_MODE && flag s.dev.tim.refElig (1 - i.val)) = true) ∧
    (∃ (i : Fin 2) (s : State), s.dev.refInUse = i.val ∧ s.dev.aon.off = false ∧ bit (s.dev.get R.PWR.PLL.LOCK) 3 = true ∧ (s.dev.on R.TOP.PROFILE_ACT.REF_MODE && flag s.dev.tim.refElig (1 - i.val)) = false) ∧
    (∃ (i : Fin 2) (s : State), s.dev.refInUse = i.val ∧ s.dev.aon.off = false ∧ bit (s.dev.get R.PWR.PLL.LOCK) 3 = true ∧ s.dev.tim.holdover = true) ∧
    (∃ (i : Fin 6) (s : State), bit (s.dev.get R.PWR.PLL.LOCK) i.val = true) ∧
    (∃ (i : Fin 6) (s : State), bit (s.dev.get R.PWR.PLL.RUN) i.val = true ∧ bit (s.dev.get R.PWR.PLL.LOCK) i.val = false) :=
  ⟨⟨0, w [(R.TOP.PROFILE_ACT.REF_MODE, 1)] (fun d => { d with tim := { d.tim with refElig := [(1, true)] } }), by decide +kernel⟩,
   ⟨0, w [(R.PWR.PLL.LOCK, 0x3f)], by decide +kernel⟩,
   ⟨0, w [(R.PWR.PLL.LOCK, 0x3f)] (fun d => { d with tim := { d.tim with holdover := true } }), by decide +kernel⟩,
   ⟨5, w [(R.PWR.PLL.LOCK, 0x3f)], by decide +kernel⟩,
   ⟨5, w [(R.PWR.PLL.RUN, 0x3f)], by decide +kernel⟩⟩

theorem witness_BatchesEndAndStart :
    (∃ (s : State), s.dev.tim.batchPending = true ∧ s.dev.atBoundary = true ∧ s.dev.get R.TOP.RECIPE.STATE ≠ 2 ∧ KMap.wf (fun _ => none) s.dev.rwb = true) ∧
    (∃ (s : State), (s.dev.tim.batchPending && s.dev.atBoundary) = false) ∧
    (∃ (s : State) (e : Dev), s.dev.tim.batchPending = true ∧ s.dev.atBoundary = true ∧ s.dev.get R.TOP.RECIPE.STATE = 2 ∧ recipeApply s.mem (batchOpen s.dev) = .next e) :=
  ⟨⟨w [] (fun d => { d with tim := { d.tim with batchPending := true } }), by decide +kernel⟩,
   ⟨{}, by decide +kernel⟩,
   by
    obtain ⟨e, he⟩ := step_of (o := recipeApply (w [(R.TOP.RECIPE.STATE, 2)] (fun d => { d with tim := { d.tim with batchPending := true } })).mem (batchOpen (w [(R.TOP.RECIPE.STATE, 2)] (fun d => { d with tim := { d.tim with batchPending := true } })).dev)) (by decide +kernel)
    exact ⟨(w [(R.TOP.RECIPE.STATE, 2)] (fun d => { d with tim := { d.tim with batchPending := true } })), e, by decide +kernel, by decide +kernel, by decide +kernel, he⟩⟩

theorem witness_LinesAreIssuedWithTheirTriggers :
    (∃ (g : Fin 4) (s : State) (e : Nat) (q : TgS), s.dev.inRun = true ∧ s.dev.candidate g.val = some (e, q) ∧ (q.count != 0 && decide (dtDiff e (s.dev.get (R.TIM.TG_LAST.E g.val)) < s.dev.minPeriod g.val)) = true) ∧
    (∃ (g : Fin 4) (s : State) (e : Nat) (q : TgS), s.dev.inRun = true ∧ s.dev.candidate g.val = some (e, q) ∧ e < 2 ^ 64 ∧ (q.count != 0 && decide (dtDiff e (s.dev.get (R.TIM.TG_LAST.E g.val)) < s.dev.minPeriod g.val)) = false) ∧
    (∃ (p : Fin 12) (s : State) (q : TrigLine) (rest : List TrigLine) (d : Dev), KMap.get (fun _ => []) s.dev.tim.trig p.val = q :: rest ∧ d = reach (dtAddNs q.e (-(s.dev.lead (s.dev.get (R.TIM.PT_CTL.TG p.val)) : Int))) { s.dev with tim := { s.dev.tim with trig := KMap.put (fun _ => []) s.dev.tim.trig p.val rest } }) ∧
    (∃ (p : Fin 12) (s : State) (q : TrigLine) (rest : List TrigLine) (d : Dev), KMap.get (fun _ => []) s.dev.tim.pulse p.val = q :: rest ∧ d = reach (dtAddNs q.e (max (sgn 16 (s.dev.get (R.TIM.PT_CTL.OFS p.val))) (-((s.dev.lead (s.dev.get (R.TIM.PT_CTL.TG p.val)) : Int) - 100)))) { s.dev with tim := { s.dev.tim with pulse := KMap.put (fun _ => []) s.dev.tim.pulse p.val rest } }) ∧
    (∃ (p : Fin 12) (s : State) (x : Nat), KMap.get (fun _ => none) s.dev.tim.pulseEnd p.val = some x) :=
  ⟨⟨0, w [(R.TOP.STATE.MODE, 1), (R.PWR.STATUS.STATE, 1), (R.TIM.TG_CTL.MODE 0, 1)] (setTg 0 { count := 1 }), 0, { k := 1, count := 1 }, by decide +kernel⟩,
   ⟨0, w [(R.TOP.STATE.MODE, 1), (R.PWR.STATUS.STATE, 1), (R.TIM.TG_CTL.MODE 0, 1)] (setTg 0 { count := 0 }), 0, { k := 1, count := 0 }, by decide +kernel⟩,
   ⟨0, w [] (fun d => { d with tim := { d.tim with trig := [(0, [⟨3, 655360000⟩])] } }), ⟨3, 655360000⟩, [], _, by decide +kernel, rfl⟩,
   ⟨0, w [] (fun d => { d with tim := { d.tim with pulse := [(0, [⟨3, 655360000⟩])] } }), ⟨3, 655360000⟩, [], _, by decide +kernel, rfl⟩,
   ⟨0, w [] (fun d => { d with tim := { d.tim with pulseEnd := [(0, some 7)] } }), 7, by decide +kernel⟩⟩

theorem witness_EncodersCount :
    (∃ (e : Fin 2) (up : Bool) (m : EncMove) (stable : Nat) (s : State), (m = if up then .up else .down) ∧ s.dev.spRuns = true ∧ (s.dev.reads (37 + 3 * e.val) || s.dev.reads (38 + 3 * e.val)) = true ∧ 4 * s.dev.get (R.TIM.ENC_CTL.FILT e.val) ≤ stable ∧ s.dev.edgeClose e.val = false) ∧
    (∃ (e : Fin 2) (m : EncMove) (stable : Nat) (s : State), m ≠ .illegal ∧ stable < 4 * s.dev.get (R.TIM.ENC_CTL.FILT e.val)) ∧
    (∃ (e : Fin 2) (m : EncMove) (stable : Nat) (s : State), m ≠ .illegal ∧ s.dev.spRuns = true ∧ (s.dev.reads (37 + 3 * e.val) || s.dev.reads (38 + 3 * e.val)) = true ∧ 4 * s.dev.get (R.TIM.ENC_CTL.FILT e.val) ≤ stable ∧ s.dev.edgeClose e.val = true) ∧
    (∃ (e : Fin 2) (s : State), s.dev.spRuns = true ∧ s.dev.reads (37 + 3 * e.val) = true ∧ s.dev.reads (38 + 3 * e.val) = true) ∧
    (∃ (e : Fin 2) (s : State), s.dev.spRuns = true ∧ s.dev.reads (39 + 3 * e.val) = true) :=
  ⟨⟨0, true, .up, 4, {}, by decide +kernel⟩,
   ⟨0, .up, 3, w [(R.TIM.ENC_CTL.FILT 0, 1)], by decide +kernel⟩,
   ⟨0, .down, 0, w [] (fun d => { d with tim := { d.tim with encAt := [(0, some 0)] } }), by decide +kernel⟩,
   ⟨0, {}, by decide +kernel⟩,
   ⟨0, {}, by decide +kernel⟩⟩

theorem witness_CompareUnitsAndCaptures :
    (∃ (n : Fin 16) (s : State), s.dev.on (R.TIM.CMP_CTL.EN n.val) = true ∧ s.dev.pllTime = true) ∧
    (∃ (n : Fin 16) (d : Dev), d.get (R.TIM.CMP_PERIOD.P n.val) = 0) ∧
    (∃ (n : Fin 16) (d : Dev), d.get (R.TIM.CMP_PERIOD.P n.val) ≠ 0 ∧ d.get (R.TIM.CMP_PERIOD.P n.val) < 2 ^ 62 ∧ dtGe d.dt ((d.get (R.TIM.CMP_TIME.T n.val) + max (1000 * 65536) (d.get (R.TIM.CMP_PERIOD.P n.val))) % 2 ^ 64) = true) ∧
    (∃ (i : Fin 8) (stable : Nat) (s : State), stable < 4 * s.dev.get (R.TIM.EVT_CTL.FILT i.val)) ∧
    (∃ (i : Fin 8) (rising : Bool) (stable : Nat) (s : State), s.dev.edgeActive i.val rising = true ∧ s.dev.reads (28 + i.val) = true ∧ s.dev.spRuns = true ∧ 4 * s.dev.get (R.TIM.EVT_CTL.FILT i.val) ≤ stable) ∧
    (∃ (i : Fin 8) (s : State) (c : Capture) (rest : List Capture), KMap.get (fun _ => []) s.dev.tim.evt i.val = c :: rest) ∧
    (∃ (i : Fin 8) (s : State), KMap.get (fun _ => []) s.dev.tim.evt i.val = []) :=
  ⟨⟨0, w [(R.TIM.CMP_CTL.EN 0, 1), (R.PWR.PLL.LOCK, 0x3f)], by decide +kernel⟩,
   ⟨0, {}, by decide +kernel⟩,
   ⟨0, dw [(R.TIM.CMP_PERIOD.P 0, 65536000)] (fun d => { d with tim := { d.tim with acc := 10 ^ 20 } }), by decide +kernel⟩,
   ⟨0, 3, w [(R.TIM.EVT_CTL.FILT 0, 1)], by decide +kernel⟩,
   ⟨0, true, 0, w [(R.TIM.EVT_CTL.EDGE 0, 1)], by decide +kernel⟩,
   ⟨0, w [] (fun d => { d with tim := { d.tim with evt := [(0, [⟨true, 1, 2, 3⟩])] } }), ⟨true, 1, 2, 3⟩, [], by decide +kernel⟩,
   ⟨0, {}, by decide +kernel⟩⟩

theorem witness_HostAndSegmentTimes :
    (∃ (s : State), s.dev.on R.TIM.PTM_CTL.EN = false) ∧
    (∃ (s : State), s.dev.on R.TIM.PTM_CTL.EN = true ∧ s.dev.tim.ptmOn = true) ∧
    (∃ (s : State), s.dev.on R.TIM.PTM_CTL.EN = true ∧ s.dev.tim.ptmOn = false) ∧
    (∃ (s : State) (d : Dev), s.dev.on R.TIM.PTM_CTL.EN = true ∧ 0 < s.dev.get R.TIM.PTM_CTL.PERIOD_MS ∧ s.dev.get R.TIM.PTM_CTL.PERIOD_MS ≤ 1000 ∧ d = reachNs s.dev.tim.ptmFrom (1000000 * s.dev.get R.TIM.PTM_CTL.PERIOD_MS : Nat) s.dev ∧ d.tim.ptmOn = true) ∧
    (∃ (s : State), s.dev.on R.TIM.PTM_CTL.EN = true ∧ (s.dev.get R.TIM.PTM_CTL.PERIOD_MS = 0 ∨ 1000 < s.dev.get R.TIM.PTM_CTL.PERIOD_MS)) ∧
    (∃ (s : State), s.dev.on R.TIM.PTM_CTL.EN = false) ∧
    (∃ (x : Nat) (s : State), s.dev.tim.ptmAt = some x) ∧
    (∃ (x : Nat) (s : State), s.dev.tim.ptmAt = some x) ∧
    (∃ (k : Fin 8) (s : State), s.dev.ptpOn k.val = true) ∧
    (∃ (k : Fin 8) (s : State), s.dev.ptpOn k.val = true) ∧
    (∃ (k : Fin 8) (s : State), (s.dev.segUp k.val && s.dev.on (R.TIM.SEG_CTL.EN k.val)) = true) :=
  ⟨⟨{}, by decide +kernel⟩,
   ⟨w [(R.TIM.PTM_CTL.EN, 1)] (fun d => { d with tim := { d.tim with ptmOn := true } }), by decide +kernel⟩,
   ⟨w [(R.TIM.PTM_CTL.EN, 1)], by decide +kernel⟩,
   ⟨w [(R.TIM.PTM_CTL.EN, 1), (R.TIM.PTM_CTL.PERIOD_MS, 10)] (fun d => { d with tim := { d.tim with ptmOn := true } }), _, by decide +kernel, by decide +kernel, by decide +kernel, rfl, by decide +kernel⟩,
   ⟨w [(R.TIM.PTM_CTL.EN, 1), (R.TIM.PTM_CTL.PERIOD_MS, 0)], by decide +kernel⟩,
   ⟨{}, by decide +kernel⟩,
   ⟨5, w [] (fun d => { d with tim := { d.tim with ptmAt := some 5 } }), by decide +kernel⟩,
   ⟨5, w [] (fun d => { d with tim := { d.tim with ptmAt := some 5 } }), by decide +kernel⟩,
   ⟨0, w [(R.T1S.SEG_STATUS.STATE 0, 1), (R.TIM.SEG_CTL.EN 0, 1), (R.PWR.STATUS.STATE, 1)], by decide +kernel⟩,
   ⟨0, w [(R.T1S.SEG_STATUS.STATE 0, 1), (R.TIM.SEG_CTL.EN 0, 1), (R.PWR.STATUS.STATE, 1)], by decide +kernel⟩,
   ⟨0, w [(R.T1S.SEG_STATUS.STATE 0, 1), (R.TIM.SEG_CTL.EN 0, 1), (R.PWR.STATUS.STATE, 1)], by decide +kernel⟩⟩

theorem witness_LanesComeUp :
    (∃ (l : Fin 48) (s : State), (s.dev.laneS l.val).phase = 1) ∧
    (∃ (l : Fin 48) (s : State), (s.dev.laneS l.val).phase = 2) ∧
    (∃ (l : Fin 60) (blks : List Blk) (s : State), blks.length = 64 ∧ ((∀ b ∈ blks, b.hdr = 1#2 ∨ b.hdr = 2#2)) ∧ (s.dev.laneS l.val).blockLock = false ∧ (s.dev.laneS l.val).run = 0 ∧ s.dev.seeksLock l.val = true ∧ s.dev.looped l.val = false) ∧
    (∃ (l : Fin 60) (blks : List Blk) (s : State), blks.length = 16 ∧ (∀ b ∈ blks, b.hdr ≠ 1#2 ∧ b.hdr ≠ 2#2) ∧ (s.dev.laneS l.val).blockLock = true ∧ (s.dev.laneS l.val).window = [] ∧ s.dev.looped l.val = false ∧ ((s.dev.laneS l.val).lastAm = none ∨ (s.dev.laneS l.val).rxAt + 16 ≤ 16383)) ∧
    (∃ (l : Fin 60) (b : Blk) (lane count bip : Nat) (s : State), (s.dev.laneS l.val).blockLock = true ∧ (s.dev.laneS l.val).amLock = false ∧ (s.dev.laneS l.val).lastAm = none ∧ ((s.dev.laneS l.val).window.filter (fun x => !x)).length < 16 ∧ s.dev.looped l.val = false ∧ markerOf (polarity (s.dev.on (R.LNE.CTL.RX_INV l.val)) b) = some (lane, count, bip)) ∧
    (∃ (l : Fin 60) (b : Blk) (rx : List Blk) (lane count bip : Nat) (s : State), (s.dev.laneS l.val).blockLock = true ∧ (s.dev.laneS l.val).amLock = false ∧ (s.dev.laneS l.val).rxAt = 0 ∧ rx.length = 16383 ∧ ((∀ x ∈ rx, (x.hdr = 1#2 ∨ x.hdr = 2#2) ∧ markerOf (polarity (s.dev.on (R.LNE.CTL.RX_INV l.val)) x) = none)) ∧ ((s.dev.laneS l.val).window.filter (fun x => !x)).length < 16 ∧ s.dev.looped l.val = false ∧ (s.dev.laneS l.val).lastAm = some (count, lane) ∧ markerOf (polarity (s.dev.on (R.LNE.CTL.RX_INV l.val)) b) = some (lane, (count + 1) % 65536, bip) ∧ ((48 ≤ l.val ∨ s.dev.sameLogical l.val lane = []))) ∧
    (∃ (l : Fin 60) (s : State), (s.dev.laneS l.val).amLock = true ∧ (s.dev.laneS l.val).missed < 4) ∧
    (∃ (l : Fin 48) (n : Nat) (s : State) (e : Dev), stateLimit (s.dev.laneS l.val).phase = some n ∧ (s.dev.laneS l.val).aligned = false ∧ e = reachNs (s.dev.laneS l.val).signalAt n s.dev) ∧
    (∃ (l : Fin 48) (s : State), (s.dev.laneS l.val).aligned = true) :=
  ⟨⟨0, w [] (setLane 0 { phase := 1 }), by decide +kernel⟩,
   ⟨0, w [] (setLane 0 { phase := 2 }), by decide +kernel⟩,
   ⟨0, List.replicate 64 ⟨1, 0⟩, w [(R.LNE.CTL.EN 0, 1)] (setLane 0 { phase := 3 }), by decide +kernel⟩,
   ⟨0, List.replicate 16 ⟨0, 0⟩, w [] (setLane 0 { blockLock := true }), by decide +kernel⟩,
   ⟨0, ⟨2, 0x5affff00000300a5⟩, 0, 3, 0, w [] (setLane 0 { blockLock := true }), by decide +kernel⟩,
   ⟨0, ⟨2, 0x5affff00000300a5⟩, List.replicate 16383 ⟨1, 0⟩, 0, 2, 0, w [] (setLane 0 { blockLock := true, lastAm := some (2, 0) }), by decide +kernel, by decide +kernel, by decide +kernel, List.length_replicate, fun x hx => by obtain rfl := List.eq_of_mem_replicate hx; decide +kernel, by decide +kernel⟩,
   ⟨0, w [] (setLane 0 { amLock := true }), by decide +kernel⟩,
   ⟨0, 250000, w [] (setLane 0 { phase := 2 }), _, by decide +kernel, by decide +kernel, rfl⟩,
   ⟨0, w [] (setLane 0 { aligned := true }), by decide +kernel⟩⟩

theorem witness_LanesTrain :
    (∃ (l : Fin 48) (b : Blk) (x : Nat × Nat) (s : State), (s.dev.laneS l.val).phase = 4 ∧ (s.dev.laneS l.val).train.asked = some x ∧ b.hdr = 2#2 ∧ bits b.body.toNat 0 8 = 0x55 ∧ bits b.body.toNat 8 8 = x.1) ∧
    (∃ (l : Fin 48) (x : Nat × Nat) (s : State), (s.dev.laneS l.val).train.asked = some x) ∧
    (∃ (p : Fin 12) (rate : Nat) (s : State), s.dev.get (R.EKL.STATUS.STATE p.val) = 1 ∧ (lanesOf p.val).all (fun l => !(s.dev.laneS l).signal) = true ∧ s.dev.downlinkUp p.val = true ∧ (∃ l ∈ lanesOf p.val, s.dev.on (R.LNE.CTL.EN l) = true) ∧ ((∀ l ∈ lanesOf p.val, s.dev.on (R.LNE.CTL.EN l) = true → s.dev.get (R.LNE.CTL.RATE l) = rate))) ∧
    (∃ (p : Fin 12) (x : Nat) (s : State), (s.dev.portS p.val).signalAt = some x ∧ s.dev.get (R.EKL.STATUS.STATE p.val) = 1 ∧ (s.dev.named p.val).any (fun k => (s.dev.laneS k).aligned) = true) :=
  ⟨⟨0, ⟨2, 0x355⟩, (3, 7), w [] (setLane 0 { phase := 4, train := { asked := some (3, 7) } }), by decide +kernel⟩,
   ⟨0, (3, 7), w [] (setLane 0 { train := { asked := some (3, 7) } }), by decide +kernel⟩,
   ⟨0, 0, w [(R.EKL.STATUS.STATE 0, 1), (R.LNE.STATUS.STATE 48, 6), (R.LNE.CTL.EN 0, 1)], by decide +kernel⟩,
   ⟨0, 7, w [(R.EKL.STATUS.STATE 0, 1), (R.EKL.CTL.LANES 0, 1), (R.LNE.CTL.EN 0, 1)] (fun d => setLane 0 { aligned := true } (setPort 0 { signalAt := some 7 } d)), by decide +kernel⟩⟩

theorem witness_LanesLeaveAndReturn :
    (∃ (l : Fin 48) (s : State), s.dev.get (R.LNE.STATUS.STATE l.val) = 6) ∧
    (∃ (l : Fin 48) (c : Fin 5) (x : Nat) (s : State), (s.dev.laneS l.val).loss = some x ∧ (s.dev.laneS l.val).lossCause = 2 ^ c.val) ∧
    (∃ (l : Fin 48) (d : Dev), ((∃ k ∈ lanesOf (portOf l.val), k ≠ l.val ∧ d.get (R.LNE.STATUS.STATE k) = 6 ∧ (d.laneS k).restoring = false) ∨ d.get (R.EKL.STATUS.STATE (portOf l.val)) < 2 ∨ 4 < d.get (R.EKL.STATUS.STATE (portOf l.val)))) ∧
    (∃ (l : Fin 48) (d : Dev), d.linked (portOf l.val) = true ∧ ((∀ k ∈ lanesOf (portOf l.val), k ≠ l.val → d.get (R.LNE.STATUS.STATE k) ≠ 6))) ∧
    (∃ (l k : Fin 48) (x : Nat) (e : Dev) (s : State), (s.dev.laneS l.val).loss = some x ∧ s.dev.get (R.LNE.STATUS.STATE l.val) = 6 ∧ e = reachNs x (1000 * s.dev.get (R.LNE.DEG_CTL.CONFIRM_US l.val)) s.dev ∧ k.val ∈ e.lostNow (portOf l.val) ∧ ((∃ j ∈ lanesOf (portOf l.val), j ∉ e.lostNow (portOf l.val) ∧ e.get (R.LNE.STATUS.STATE j) = 6 ∧ (e.laneS j).restoring = false) ∨ e.linked (portOf l.val) = false)) ∧
    (∃ (l : Fin 60) (s : State), l.val < 48 ∧ s.dev.get (R.LNE.STATUS.STATE l.val) = 6) ∧
    (∃ (l : Fin 60), l.val < 48) ∧
    (∃ (l : Fin 60) (s : State), 48 ≤ l.val ∧ s.dev.on (R.LNE.CTL.EN l.val) = true ∧ s.dev.underTest l.val = false) ∧
    (∃ (l : Fin 48) (s : State), s.dev.get (R.LNE.STATUS.STATE l.val) = 7 ∧ (s.dev.laneS l.val).eligible = true) ∧
    (∃ (l : Fin 48) (x : Nat) (s : State), s.dev.get (R.LNE.STATUS.STATE l.val) = 7 ∧ (s.dev.laneS l.val).amLock = true ∧ (s.dev.laneS l.val).cleanSince = some x ∧ s.dev.tim.coming = []) ∧
    (∃ (l : Fin 60) (rate : BitVec 2) (s : State), (put (R.LNE.CTL.RATE l.val) rate.toNat s.dev).mixedQuad l.val = false) ∧
    (∃ (l : Fin 60) (rate : BitVec 2) (s : State), (put (R.LNE.CTL.RATE l.val) rate.toNat s.dev).mixedQuad l.val = true) ∧
    (∃ (q : Fin 15), 12 ≤ q.val) ∧
    (∃ (q : Fin 15) (s : State), q.val < 12 ∧ (∀ i : Fin 4, s.dev.get (R.LNE.STATUS.STATE (4 * q.val + i.val)) ≠ 6)) :=
  ⟨⟨0, w [(R.LNE.STATUS.STATE 0, 6)], by decide +kernel⟩,
   ⟨0, 2, 9, w [] (setLane 0 { loss := some 9, lossCause := 4 }), by decide +kernel⟩,
   ⟨0, dw [], by decide +kernel⟩,
   ⟨0, dw [(R.EKL.STATUS.STATE 0, 4)], by decide +kernel⟩,
   ⟨0, 0, 9, _, w [(R.LNE.STATUS.STATE 0, 6)] (setLane 0 { loss := some 9 }), by decide +kernel, by decide +kernel, rfl, by decide +kernel⟩,
   ⟨0, w [(R.LNE.STATUS.STATE 0, 6)], by decide +kernel⟩,
   ⟨0, by decide +kernel⟩,
   ⟨48, w [(R.LNE.CTL.EN 48, 1)], by decide +kernel⟩,
   ⟨0, w [(R.LNE.STATUS.STATE 0, 7)] (setLane 0 { eligible := true }), by decide +kernel⟩,
   ⟨0, 9, w [(R.LNE.STATUS.STATE 0, 7)] (setLane 0 { amLock := true, cleanSince := some 9 }), by decide +kernel⟩,
   ⟨0, 1, {}, by decide +kernel⟩,
   ⟨0, 2, w [(R.LNE.CTL.EN 0, 1), (R.LNE.CTL.EN 1, 1)], by decide +kernel⟩,
   ⟨12, by decide +kernel⟩,
   ⟨0, {}, by decide +kernel⟩⟩

theorem witness_LanesAdaptAndTest :
    (∃ (l : Fin 48) (s : State), (s.dev.on (R.LNE.CTL.FREEZE l.val) = true ∨ s.dev.get R.PWR.STATUS.STATE = 3)) ∧
    (∃ (l : Fin 48) (s : State) (e : Dev), s.dev.on (R.LNE.CTL.FREEZE l.val) = false ∧ s.dev.get R.PWR.STATUS.STATE ≠ 3 ∧ 5 ≤ (s.dev.laneS l.val).phase ∧ e = (match (s.dev.laneS l.val).lastEq with | some x => reachNs x 10000 s.dev | none => s.dev) ∧ e.on (R.LNE.CTL.CTLE_FIX l.val) = false) ∧
    (∃ (l : Fin 48) (code : Fin 7) (s : State) (e : Dev), code.val ≠ 0 ∧ s.dev.on (R.LNE.CTL.FREEZE l.val) = false ∧ s.dev.get R.PWR.STATUS.STATE ≠ 3 ∧ 5 ≤ (s.dev.laneS l.val).phase ∧ e = (match (s.dev.laneS l.val).lastEq with | some x => reachNs x 10000 s.dev | none => s.dev) ∧ e.get (R.LNE.EQ_DFE.TAPS l.val) < 2 ^ 30) ∧
    (∃ (l : Fin 60) (s : State), s.dev.get (R.LNE.INJ.INTERVAL l.val) = 0) ∧
    (∃ (l : Fin 60) (s : State), s.dev.get (R.LNE.INJ.INTERVAL l.val) ≠ 0 ∧ s.dev.transmits l.val = false) ∧
    (∃ (l : Fin 60) (s : State), s.dev.get (R.LNE.INJ.INTERVAL l.val) ≠ 0 ∧ s.dev.transmits l.val = true ∧ s.dev.looped l.val = false) ∧
    (∃ (l : Fin 60) (rx : List Bool) (s : State), rx.map (fun x => x != s.dev.on (R.LNE.CTL.RX_INV l.val)) = (prbsRun (s.dev.get (R.LNE.PAT_CTL.PMA_CHK l.val)) 64 (s.dev.laneS l.val).chkHist).1 ∧ s.dev.get (R.LNE.PAT_CTL.PMA_CHK l.val) ≠ 0 ∧ s.dev.looped l.val = false ∧ (s.dev.laneS l.val).chkLock = false ∧ (s.dev.laneS l.val).chkRun = 0) ∧
    (∃ (l : Fin 60) (rx : List Bool) (s : State), rx.map (fun x => x == s.dev.on (R.LNE.CTL.RX_INV l.val)) = (prbsRun (s.dev.get (R.LNE.PAT_CTL.PMA_CHK l.val)) 32 (s.dev.laneS l.val).chkHist).1 ∧ s.dev.get (R.LNE.PAT_CTL.PMA_CHK l.val) ≠ 0 ∧ s.dev.looped l.val = false ∧ (s.dev.laneS l.val).chkLock = true ∧ (s.dev.laneS l.val).chkWin = []) :=
  ⟨⟨0, w [(R.LNE.CTL.FREEZE 0, 1)], by decide +kernel⟩,
   ⟨0, w [] (setLane 0 { phase := 5 }), _, by decide +kernel, by decide +kernel, by decide +kernel, rfl, by decide +kernel⟩,
   ⟨0, 1, w [] (setLane 0 { phase := 5 }), _, join4 (by decide +kernel) ⟨rfl, by decide +kernel⟩⟩,
   ⟨0, {}, by decide +kernel⟩,
   ⟨0, w [(R.LNE.INJ.INTERVAL 0, 5)], by decide +kernel⟩,
   ⟨48, w [(R.LNE.INJ.INTERVAL 48, 5), (R.LNE.CTL.EN 48, 1)] (fun d => { d with quadLock := [(12, true)] }), by decide +kernel⟩,
   ⟨0, (prbsRun 1 64 5).1, w [(R.LNE.PAT_CTL.PMA_CHK 0, 1)] (setLane 0 { chkHist := 5 }), by decide +kernel⟩,
   ⟨0, (prbsRun 1 32 5).1.map (fun x => !x), w [(R.LNE.PAT_CTL.PMA_CHK 0, 1)] (setLane 0 { chkHist := 5, chkLock := true }), by decide +kernel⟩⟩

theorem witness_PacketsAreTaken :
    (∃ (p : Fin 12) (o : OpenPkt) (e : BitVec 64) (row : List Blk) (d : Dev) (s : State), s.dev.portFine p.val ∧ s.dev.rowCloses d p.val o e row ∧ (o.packet (some e)).dtype = 0x20 ∧ (o.packet (some e)).truncated = false) ∧
    (∃ (p : Fin 12) (o : OpenPkt) (e : BitVec 64) (row : List Blk) (d : Dev) (s : State), s.dev.portFine p.val ∧ s.dev.rowCloses d p.val o e row ∧ (o.packet (some e)).dtype = 0x21 ∧ (o.packet (some e)).truncated = false) ∧
    (∃ (p : Fin 12) (w : Fin 2) (ms x : Nat) (o : OpenPkt) (e : BitVec 64) (row : List Blk) (d : Dev) (s : State), s.dev.portFine p.val ∧ s.dev.rowCloses d p.val o e row ∧ (o.packet (some e)).dtype = 0x22 ∧ (o.packet (some e)).truncated = false ∧ fieldAt (o.packet (some e)).payload 0 1 = ms ∧ d.cregS p.val w.val = some (ms, x) ∧ ((w.val = 1 → (d.cregS p.val 0).map Prod.fst ≠ some ms))) ∧
    (∃ (p : Fin 12) (o : OpenPkt) (e : BitVec 64) (row : List Blk) (d : Dev) (s : State), s.dev.portFine p.val ∧ s.dev.rowCloses d p.val o e row ∧ rawBits (o.packet (some e)).dtype = none ∧ (o.packet (some e)).dtype ∉ [0x20, 0x21, 0x22]) ∧
    (∃ (p : Fin 12) (n q : Nat) (r : LineRec) (o : OpenPkt) (e : BitVec 64) (row : List Blk) (d : Dev) (s : State), s.dev.portFine p.val ∧ s.dev.rowCloses d p.val o e row ∧ rawBits (o.packet (some e)).dtype = some n ∧ d.slotFor p.val (o.packet (some e)) = some q ∧ q < 4 ∧ d.get (R.EKL.STATUS.STATE p.val) = 4 ∧ matchLine d p.val (o.packet (some e)) = some r ∧ r.st = .isOpen) ∧
    (∃ (p : Fin 12) (n q : Nat) (r : LineRec) (o : OpenPkt) (e : BitVec 64) (row : List Blk) (d : Dev) (s : State), s.dev.portFine p.val ∧ s.dev.rowCloses d p.val o e row ∧ rawBits (o.packet (some e)).dtype = some n ∧ d.slotFor p.val (o.packet (some e)) = some q ∧ d.get (R.EKL.STATUS.STATE p.val) = 4 ∧ matchLine d p.val (o.packet (some e)) = some r ∧ ((r.st = .isMissing ∧ r.lateCounted = false) ∨ (r.st = .isComplete ∧ r.eols.contains q = true ∧ r.dupCounted = false))) ∧
    (∃ (p : Fin 12) (n q : Nat) (o : OpenPkt) (e : BitVec 64) (row : List Blk) (d : Dev) (s : State), s.dev.portFine p.val ∧ s.dev.rowCloses d p.val o e row ∧ rawBits (o.packet (some e)).dtype = some n ∧ d.slotFor p.val (o.packet (some e)) = some q ∧ d.get (R.EKL.STATUS.STATE p.val) ≠ 4) ∧
    (∃ (p : Fin 12) (n : Nat) (o : OpenPkt) (e : BitVec 64) (row : List Blk) (d : Dev) (s : State), s.dev.portFine p.val ∧ s.dev.rowCloses d p.val o e row ∧ rawBits (o.packet (some e)).dtype = some n ∧ d.slotFor p.val (o.packet (some e)) = none) :=
  ⟨⟨0, pk 0x20 [1, 2], pkEop [1, 2], [scr (pkEop [1, 2])], (rxRow 0 [scr (pkEop [1, 2])] (w ([(R.LNE.STATUS.STATE 0, 6)]) (fun d => setLane 0 { blockLock := true } (setPort 0 { mask := 1, pkt := some (pk 0x20 [1, 2]) } d))).dev).2, w ([(R.LNE.STATUS.STATE 0, 6)]) (fun d => setLane 0 { blockLock := true } (setPort 0 { mask := 1, pkt := some (pk 0x20 [1, 2]) } d)), by unfold Dev.portFine; decide +kernel, ⟨⟨⟨0, by decide +kernel, by decide +kernel⟩, rfl, by decide +kernel⟩, by decide +kernel, by decide +kernel, by decide +kernel, by decide +kernel⟩, by decide +kernel⟩,
   ⟨0, pk 0x21 [1, 2], pkEop [1, 2], [scr (pkEop [1, 2])], (rxRow 0 [scr (pkEop [1, 2])] (w ([(R.LNE.STATUS.STATE 0, 6)]) (fun d => setLane 0 { blockLock := true } (setPort 0 { mask := 1, pkt := some (pk 0x21 [1, 2]) } d))).dev).2, w ([(R.LNE.STATUS.STATE 0, 6)]) (fun d => setLane 0 { blockLock := true } (setPort 0 { mask := 1, pkt := some (pk 0x21 [1, 2]) } d)), by unfold Dev.portFine; decide +kernel, ⟨⟨⟨0, by decide +kernel, by decide +kernel⟩, rfl, by decide +kernel⟩, by decide +kernel, by decide +kernel, by decide +kernel, by decide +kernel⟩, by decide +kernel⟩,
   ⟨0, 1, 1, 9, pk 0x22 [1, 2], pkEop [1, 2], [scr (pkEop [1, 2])], (rxRow 0 [scr (pkEop [1, 2])] (w ([(R.LNE.STATUS.STATE 0, 6)]) (fun d => setLane 0 { blockLock := true } (setPort 0 { mask := 1, pkt := some (pk 0x22 [1, 2]), creg := [(1, some (1, 9))] } d))).dev).2, w ([(R.LNE.STATUS.STATE 0, 6)]) (fun d => setLane 0 { blockLock := true } (setPort 0 { mask := 1, pkt := some (pk 0x22 [1, 2]), creg := [(1, some (1, 9))] } d)), by unfold Dev.portFine; decide +kernel, ⟨⟨⟨0, by decide +kernel, by decide +kernel⟩, rfl, by decide +kernel⟩, by decide +kernel, by decide +kernel, by decide +kernel, by decide +kernel⟩, by decide +kernel⟩,
   ⟨0, pk 1 [1, 2], pkEop [1, 2], [scr (pkEop [1, 2])], (rxRow 0 [scr (pkEop [1, 2])] (w ([(R.LNE.STATUS.STATE 0, 6)]) (fun d => setLane 0 { blockLock := true } (setPort 0 { mask := 1, pkt := some (pk 1 [1, 2]) } d))).dev).2, w ([(R.LNE.STATUS.STATE 0, 6)]) (fun d => setLane 0 { blockLock := true } (setPort 0 { mask := 1, pkt := some (pk 1 [1, 2]) } d)), by unfold Dev.portFine; decide +kernel, ⟨⟨⟨0, by decide +kernel, by decide +kernel⟩, rfl, by decide +kernel⟩, by decide +kernel, by decide +kernel, by decide +kernel, by decide +kernel⟩, by decide +kernel⟩,
   ⟨0, 8, 0, { lsn := 0, e := 0 }, pk 0x10 [1, 2], pkEop [1, 2], [scr (pkEop [1, 2])], (rxRow 0 [scr (pkEop [1, 2])] (w ([(R.LNE.STATUS.STATE 0, 6)] ++ [(R.EKL.PLANE_CTL.EN 0 0, 1), (R.EKL.PLANE_CTL.DTYPE 0 0, 0x10), (R.EKL.PLANE_CTL.WIDTH 0 0, 4), (R.EKL.STATUS.STATE 0, 4)]) (fun d => setLane 0 { blockLock := true } (setPort 0 { mask := 1, pkt := some (pk 0x10 [1, 2]), lines := [{ lsn := 0, e := 0 }] } d))).dev).2, w ([(R.LNE.STATUS.STATE 0, 6)] ++ [(R.EKL.PLANE_CTL.EN 0 0, 1), (R.EKL.PLANE_CTL.DTYPE 0 0, 0x10), (R.EKL.PLANE_CTL.WIDTH 0 0, 4), (R.EKL.STATUS.STATE 0, 4)]) (fun d => setLane 0 { blockLock := true } (setPort 0 { mask := 1, pkt := some (pk 0x10 [1, 2]), lines := [{ lsn := 0, e := 0 }] } d)), by unfold Dev.portFine; decide +kernel, ⟨⟨⟨0, by decide +kernel, by decide +kernel⟩, rfl, by decide +kernel⟩, by decide +kernel, by decide +kernel, by decide +kernel, by decide +kernel⟩, by decide +kernel⟩,
   ⟨0, 8, 0, { lsn := 0, e := 0, st := .isMissing }, pk 0x10 [1, 2], pkEop [1, 2], [scr (pkEop [1, 2])], (rxRow 0 [scr (pkEop [1, 2])] (w ([(R.LNE.STATUS.STATE 0, 6)] ++ [(R.EKL.PLANE_CTL.EN 0 0, 1), (R.EKL.PLANE_CTL.DTYPE 0 0, 0x10), (R.EKL.PLANE_CTL.WIDTH 0 0, 4), (R.EKL.STATUS.STATE 0, 4)]) (fun d => setLane 0 { blockLock := true } (setPort 0 { mask := 1, pkt := some (pk 0x10 [1, 2]), lines := [{ lsn := 0, e := 0, st := .isMissing }] } d))).dev).2, w ([(R.LNE.STATUS.STATE 0, 6)] ++ [(R.EKL.PLANE_CTL.EN 0 0, 1), (R.EKL.PLANE_CTL.DTYPE 0 0, 0x10), (R.EKL.PLANE_CTL.WIDTH 0 0, 4), (R.EKL.STATUS.STATE 0, 4)]) (fun d => setLane 0 { blockLock := true } (setPort 0 { mask := 1, pkt := some (pk 0x10 [1, 2]), lines := [{ lsn := 0, e := 0, st := .isMissing }] } d)), by unfold Dev.portFine; decide +kernel, ⟨⟨⟨0, by decide +kernel, by decide +kernel⟩, rfl, by decide +kernel⟩, by decide +kernel, by decide +kernel, by decide +kernel, by decide +kernel⟩, by decide +kernel⟩,
   ⟨0, 8, 0, pk 0x10 [1, 2], pkEop [1, 2], [scr (pkEop [1, 2])], (rxRow 0 [scr (pkEop [1, 2])] (w ([(R.LNE.STATUS.STATE 0, 6)] ++ [(R.EKL.PLANE_CTL.EN 0 0, 1), (R.EKL.PLANE_CTL.DTYPE 0 0, 0x10), (R.EKL.PLANE_CTL.WIDTH 0 0, 4)]) (fun d => setLane 0 { blockLock := true } (setPort 0 { mask := 1, pkt := some (pk 0x10 [1, 2]) } d))).dev).2, w ([(R.LNE.STATUS.STATE 0, 6)] ++ [(R.EKL.PLANE_CTL.EN 0 0, 1), (R.EKL.PLANE_CTL.DTYPE 0 0, 0x10), (R.EKL.PLANE_CTL.WIDTH 0 0, 4)]) (fun d => setLane 0 { blockLock := true } (setPort 0 { mask := 1, pkt := some (pk 0x10 [1, 2]) } d)), by unfold Dev.portFine; decide +kernel, ⟨⟨⟨0, by decide +kernel, by decide +kernel⟩, rfl, by decide +kernel⟩, by decide +kernel, by decide +kernel, by decide +kernel, by decide +kernel⟩, by decide +kernel⟩,
   ⟨0, 8, pk 0x10 [1, 2], pkEop [1, 2], [scr (pkEop [1, 2])], (rxRow 0 [scr (pkEop [1, 2])] (w ([(R.LNE.STATUS.STATE 0, 6)]) (fun d => setLane 0 { blockLock := true } (setPort 0 { mask := 1, pkt := some (pk 0x10 [1, 2]) } d))).dev).2, w ([(R.LNE.STATUS.STATE 0, 6)]) (fun d => setLane 0 { blockLock := true } (setPort 0 { mask := 1, pkt := some (pk 0x10 [1, 2]) } d)), by unfold Dev.portFine; decide +kernel, ⟨⟨⟨0, by decide +kernel, by decide +kernel⟩, rfl, by decide +kernel⟩, by decide +kernel, by decide +kernel, by decide +kernel, by decide +kernel⟩, by decide +kernel⟩⟩

theorem witness_PortsAskAndAreAnswered :
    (∃ (p : Fin 12) (d : Dev) (s : State), 2 ≤ s.dev.get (R.EKL.STATUS.STATE p.val) ∧ s.dev.get (R.EKL.STATUS.STATE p.val) ≤ 4 ∧ d = reachMs (s.dev.portS p.val).echoAt (max 1 (s.dev.get (R.EKL.TIME_CTL.ECHO_MS p.val))) s.dev ∧ d.downlinkUp p.val = true) ∧
    (∃ (p : Fin 12) (d : Dev) (s : State), s.dev.timeReady p.val = true ∧ d = reachMs (s.dev.portS p.val).timeAt (s.dev.timeMs p.val) s.dev ∧ d.downlinkUp p.val = true) ∧
    (∃ (p : Fin 12) (w : Fin 2) (s : State), s.dev.downlinkUp p.val = true ∧ s.dev.on (R.EKL.CREG_STATUS.BUSY p.val w.val) = false) ∧
    (∃ (p : Fin 12) (w : Fin 2) (s : State), s.dev.downlinkUp p.val = true ∧ s.dev.on (R.EKL.CREG_STATUS.BUSY p.val w.val) = false) ∧
    (∃ (p : Fin 12) (w : Fin 2) (s : State), s.dev.on (R.EKL.CREG_STATUS.BUSY p.val w.val) = true) ∧
    (∃ (p : Fin 12) (t4 : BitVec 64) (id t1 : Nat) (row : List Blk) (e : BitVec 64) (d : Dev) (s : State), s.dev.portFine p.val ∧ (reach t4.toNat s.dev).rowGives d p.val row { hdr := 2#2, body := e } ∧ bits e.toNat 0 8 = 0x33 ∧ (d.portS p.val).echo = some (id, t1) ∧ 100000 * 65536 < dtDiff t4.toNat t1) ∧
    (∃ (p : Fin 12) (t4 : BitVec 64) (id t1 : Nat) (row : List Blk) (e : BitVec 64) (d : Dev) (s : State), s.dev.portFine p.val ∧ (reach t4.toNat s.dev).rowGives d p.val row { hdr := 2#2, body := e } ∧ bits e.toNat 0 8 = 0x33 ∧ (d.portS p.val).echo = some (id, t1) ∧ dtDiff t4.toNat t1 ≤ 100000 * 65536 ∧ bits e.toNat 8 16 = id) ∧
    (∃ (p : Fin 12) (id t1 : Nat) (s : State), (s.dev.portS p.val).echo = some (id, t1)) ∧
    (∃ (p : Fin 12) (mask ms : Nat) (before rest : List (Nat × Nat)) (row : List Blk) (bs : List (Nat × Blk)) (d : Dev) (s : State), s.dev.portFine p.val ∧ rxRow p.val row s.dev = (bs, d) ∧ (d.portS p.val).pkt = none ∧ (∀ b ∈ bs, b.2.hdr = 2#2 ∧ blkByte b.2 0 = 0x66) ∧ (d.portS p.val).maskSent = before ++ (mask, ms) :: rest ∧ (∀ x ∈ before, marksMask bs x = false) ∧ marksMask bs (mask, ms) = true) ∧
    (∃ (p : Fin 12) (w : Fin 2) (x : Nat × Nat) (s : State), s.dev.cregS p.val w.val = some x) :=
  ⟨⟨0, _, w [(R.LNE.STATUS.STATE 48, 6), (R.EKL.STATUS.STATE 0, 2)], by decide +kernel, by decide +kernel, rfl, by decide +kernel⟩,
   ⟨0, _, w [(R.LNE.STATUS.STATE 48, 6), (R.EKL.STATUS.STATE 0, 4)], by decide +kernel, rfl, by decide +kernel⟩,
   ⟨0, 1, w [(R.LNE.STATUS.STATE 48, 6), (R.EKL.STATUS.STATE 0, 2)], by decide +kernel⟩,
   ⟨0, 1, w [(R.LNE.STATUS.STATE 48, 6), (R.EKL.STATUS.STATE 0, 2)], by decide +kernel⟩,
   ⟨0, 1, w [(R.EKL.CREG_STATUS.BUSY 0 1, 1)], by decide +kernel⟩,
   ⟨0, 7000000000, 5, 7, [scr 0x533], 0x533, (rxRow 0 [scr 0x533] (reach (7000000000#64 : BitVec 64).toNat (w [(R.LNE.STATUS.STATE 0, 6)] (fun d => setLane 0 { blockLock := true } (setPort 0 { mask := 1, echo := some (5, 7) } d))).dev)).2, w [(R.LNE.STATUS.STATE 0, 6)] (fun d => setLane 0 { blockLock := true } (setPort 0 { mask := 1, echo := some (5, 7) } d)), by unfold Dev.portFine; decide +kernel, ⟨⟨0, by decide +kernel, by decide +kernel⟩, rfl, by decide +kernel⟩, by decide +kernel⟩,
   ⟨0, 100, 5, 7, [scr 0x533], 0x533, (rxRow 0 [scr 0x533] (reach (100#64 : BitVec 64).toNat (w [(R.LNE.STATUS.STATE 0, 6)] (fun d => setLane 0 { blockLock := true } (setPort 0 { mask := 1, echo := some (5, 7) } d))).dev)).2, w [(R.LNE.STATUS.STATE 0, 6)] (fun d => setLane 0 { blockLock := true } (setPort 0 { mask := 1, echo := some (5, 7) } d)), by unfold Dev.portFine; decide +kernel, ⟨⟨0, by decide +kernel, by decide +kernel⟩, rfl, by decide +kernel⟩, by decide +kernel⟩,
   ⟨0, 5, 7, w [] (setPort 0 { echo := some (5, 7) }), by decide +kernel⟩,
   ⟨0, 3, 9, [(1, 8)], [], [scr 0x090366, scr 0x090366], (rxRow 0 [scr 0x090366, scr 0x090366] (w [(R.LNE.STATUS.STATE 0, 6), (R.LNE.STATUS.STATE 1, 6), (R.LNE.ALIGN.LOGICAL 1, 1)] (fun d => setLane 0 { blockLock := true } (setLane 1 { blockLock := true } (setPort 0 { mask := 1, maskSent := [(1, 8), (3, 9)] } d)))).dev).1, (rxRow 0 [scr 0x090366, scr 0x090366] (w [(R.LNE.STATUS.STATE 0, 6), (R.LNE.STATUS.STATE 1, 6), (R.LNE.ALIGN.LOGICAL 1, 1)] (fun d => setLane 0 { blockLock := true } (setLane 1 { blockLock := true } (setPort 0 { mask := 1, maskSent := [(1, 8), (3, 9)] } d)))).dev).2, w [(R.LNE.STATUS.STATE 0, 6), (R.LNE.STATUS.STATE 1, 6), (R.LNE.ALIGN.LOGICAL 1, 1)] (fun d => setLane 0 { blockLock := true } (setLane 1 { blockLock := true } (setPort 0 { mask := 1, maskSent := [(1, 8), (3, 9)] } d))), by unfold Dev.portFine; decide +kernel, (Prod.mk.eta).symm, by decide +kernel⟩,
   ⟨0, 1, (1, 9), w [] (setPort 0 { creg := [(1, some (1, 9))] }), by decide +kernel⟩⟩

theorem witness_PortsLoseLinesAndGoDown :
    (∃ (p : Fin 12) (s : State), (s.dev.portS p.val).ringOut = []) ∧
    (∃ (p : Fin 12) (w : String) (s : State), (s.dev.portS p.val).ringOut ≠ [] ∧ s.dev.ringErr p.val = some w) ∧
    (∃ (p : Fin 12) (l : CamLine) (rest : List CamLine) (bs : List Byte) (s : State), (s.dev.portS p.val).ringOut = l :: rest ∧ s.dev.ringErr p.val = none ∧ bs = ringHeader s.dev p.val l ((s.dev.portS p.val).ringSeq % 2 ^ 32) ++ (if l.token then [] else l.planes.flatMap (fun xs => xs.flatMap (leBytes 2)))) ∧
    (∃ (p : Fin 12) (r : LineRec) (d : Dev) (s : State), s.dev.oldestOpen p.val = some r ∧ d = reachNs r.e (max 5000 (r.lineTo.getD (s.dev.get (R.EKL.LINE_TO.NS p.val)))) s.dev) ∧
    (∃ (p : Fin 12) (d : Dev) (s : State), s.dev.get (R.EKL.STATUS.STATE p.val) = 4 ∧ d = reachNs (s.dev.portS p.val).lastStat 300000000 s.dev) ∧
    (∃ (p : Fin 12) (s : State), s.dev.get (R.EKL.STATUS.STATE p.val) ≠ 0 ∧ s.dev.get (R.EKL.STATUS.STATE p.val) ≠ 5) ∧
    (∃ (p : Fin 12) (s : State), (s.dev.get (R.EKL.STATUS.STATE p.val) = 0 ∨ s.dev.get (R.EKL.STATUS.STATE p.val) = 5)) ∧
    (∃ (p : Fin 12) (s : State), s.dev.get (R.EKL.STATUS.STATE p.val) ≠ 0) :=
  ⟨⟨0, {}, by decide +kernel⟩,
   ⟨0, "the ring of a port has fewer than 64 slots", w [(R.EKL.CTL.RING_RGN 0, 3), (R.TOP.RGN.USE 3, 1)] (setPort 0 { ringOut := [({} : CamLine)] }), by decide +kernel⟩,
   ⟨0, ({} : CamLine), [], _, w ([(R.EKL.CTL.RING_RGN 0, 3), (R.TOP.RGN.USE 3, 1), (R.DDR.RGN_ACT.SIZE_MIB 3, 5)]) (setPort 0 { ringOut := [({} : CamLine)] }), by decide +kernel, by decide +kernel, rfl⟩,
   ⟨0, { lsn := 0, e := 0 }, _, w [] (setPort 0 { lines := [{ lsn := 0, e := 0 }] }), by decide +kernel, rfl⟩,
   ⟨0, _, w [(R.EKL.STATUS.STATE 0, 4)], by decide +kernel, rfl⟩,
   ⟨0, w [(R.EKL.STATUS.STATE 0, 4)], by decide +kernel⟩,
   ⟨0, {}, by decide +kernel⟩,
   ⟨0, w [(R.EKL.STATUS.STATE 0, 4)], by decide +kernel⟩⟩

theorem witness_LathesPassLines :
    (∃ (n : Fin 8) (l : CamLine) (rest : List CamLine) (s : State), KMap.get (fun _ => ([] : List CamLine)) s.dev.homeQ n.val = l :: rest ∧ s.dev.serves n.val 0 = true ∧ s.dev.homeErr n.val = none) ∧
    (∃ (n : Fin 8) (c : Fin 3) (l : CamLine) (s : State), c ≠ 0 ∧ (s.dev.lthS n.val).guest = some (c.val, l) ∧ s.dev.homeIdle n.val = true) ∧
    (∃ (n : Fin 8) (c : Fin 3) (h : List Byte) (s : State), s.dev.startsGuest s.mem n.val c.val h ∧ crc32c (h.take 60) = fieldAt h 60 4 ∧ dtDiff s.dev.dt (fieldAt h 16 8) ≤ (s.dev.get (R.LTH.GSCHED.SKIP_NS n.val) : Int) * 65536 ∧ bit (fieldAt h 4 2) 0 = false ∧ (s.dev.ringSamples s.mem n.val c.val (s.dev.nextSlotAt n.val c.val)).2 = none) ∧
    (∃ (n : Fin 8) (c : Fin 3) (h : List Byte) (s : State), s.dev.startsGuest s.mem n.val c.val h ∧ (crc32c (h.take 60) ≠ fieldAt h 60 4 ∨ (crc32c (h.take 60) = fieldAt h 60 4 ∧ (s.dev.get (R.LTH.GSCHED.SKIP_NS n.val) : Int) * 65536 < dtDiff s.dev.dt (fieldAt h 16 8)))) ∧
    (∃ (n : Fin 8) (c : Fin 3) (l : CamLine) (s : State), (s.dev.lthS n.val).guest = some (c.val, l)) ∧
    (∃ (n : Fin 8) (c : Fin 3) (s : State), ((s.dev.lthS n.val).ctxS c.val).winDue = true ∧ KMap.wf (fun _ => (0, 0, 0)) (s.dev.lthS n.val).acc = true) ∧
    (∃ (n : Fin 8) (s : State), s.dev.on (R.LTH.CTL.CLK_GATE n.val) = true ∧ KMap.get (fun _ => ([] : List CamLine)) s.dev.homeQ n.val = [] ∧ (s.dev.lthS n.val).guest = none) ∧
    (∃ (n : Fin 8) (s : State), (s.dev.get (R.LTH.STATUS.STATE n.val) = 1 ∨ s.dev.get (R.LTH.STATUS.STATE n.val) = 2)) ∧
    (∃ (n : Fin 8) (s : State), (s.dev.get (R.LTH.STATUS.STATE n.val) = 1 ∨ s.dev.get (R.LTH.STATUS.STATE n.val) = 2) ∧ s.dev.on R.RAS.CTL.LTH_AUTO = false) :=
  ⟨⟨0, ({} : CamLine), [], w [(R.LTH.STATUS.STATE 0, 1), (R.LTH.CTX_CTL.ACTIVE 0 0, 1)] (fun d => { d with homeQ := [(0, [({} : CamLine)])] }), by decide +kernel⟩,
   ⟨0, 1, ({} : CamLine), w [] (setLth 0 { guest := some (1, ({} : CamLine)) }), by decide +kernel⟩,
   ⟨0, 1, goodHead, dram [(0, goodHead)] [(R.LTH.STATUS.STATE 0, 1), (R.LTH.CTX_CTL.EN 0 1, 1), (R.LTH.CTX_CTL.ACTIVE 0 1, 1), (R.LTH.CTX_SHARE.COUNT 0 1, 4), (R.TOP.RGN.USE 0, 1), (R.DDR.RGN_ACT.SIZE_MIB 0, 5)] (setPort 0 { ringSeq := 1 }), ⟨by decide +kernel, by decide +kernel⟩, by decide +kernel⟩,
   ⟨0, 1, List.replicate 64 5, dram [(0, List.replicate 64 5)] [(R.LTH.STATUS.STATE 0, 1), (R.LTH.CTX_CTL.EN 0 1, 1), (R.LTH.CTX_CTL.ACTIVE 0 1, 1), (R.LTH.CTX_SHARE.COUNT 0 1, 4), (R.TOP.RGN.USE 0, 1), (R.DDR.RGN_ACT.SIZE_MIB 0, 5)] (setPort 0 { ringSeq := 1 }), ⟨by decide +kernel, by decide +kernel⟩, by decide +kernel⟩,
   ⟨0, 1, ({} : CamLine), w [] (setLth 0 { guest := some (1, ({} : CamLine)) }), by decide +kernel⟩,
   ⟨0, 1, w [] (setLth 0 { ctx := [(1, { winDue := true })] }), by decide +kernel⟩,
   ⟨0, w [(R.LTH.CTL.CLK_GATE 0, 1)], by decide +kernel⟩,
   ⟨0, w [(R.LTH.STATUS.STATE 0, 1)], by decide +kernel⟩,
   ⟨0, w [(R.LTH.STATUS.STATE 0, 1), (R.RAS.CTL.LTH_AUTO, 0)], by decide +kernel⟩⟩

theorem witness_TableBanksSwapAndCopy :
    (∃ (u : TblUnit) (s : State), s.dev.on (tblBusy u) = true ∧ (s.dev.bankS (tblIndex u)).raced.filter (tblCovers s.dev u) = [] ∧ KMap.wf (bankDefault (tblIndex u)) (s.dev.bankS (tblIndex u)).act = true) ∧
    (∃ (u : TblUnit) (d : Dev), d.on (tblPend u) = true ∧ d.on (tblBusy u) = false ∧ KMap.wf (bankDefault (tblIndex u)) (d.bankS (tblIndex u)).act = true ∧ KMap.wf (bankDefault (tblIndex u)) (d.bankS (tblIndex u)).shd = true) ∧
    (∃ (u : TblUnit) (d : Dev) (k : _), d.on (tblPend u) = true ∧ d.on (tblBusy u) = false ∧ KMap.wf (bankDefault (tblIndex u)) (d.bankS (tblIndex u)).act = true ∧ KMap.wf (bankDefault (tblIndex u)) (d.bankS (tblIndex u)).shd = true ∧ tblCovers d u k = true) ∧
    (∃ (u : TblUnit) (d : Dev) (k : _), d.on (tblPend u) = true ∧ d.on (tblBusy u) = false ∧ KMap.wf (bankDefault (tblIndex u)) (d.bankS (tblIndex u)).act = true ∧ KMap.wf (bankDefault (tblIndex u)) (d.bankS (tblIndex u)).shd = true ∧ tblCovers d u k = false) ∧
    (∃ (u : TblUnit) (d : Dev), d.on (tblBusy u) = true) :=
  ⟨⟨.fus, w [(R.FUS.TBL_CTL.COPY_BUSY, 1)], by decide +kernel⟩,
   ⟨.fus, dw [(R.FUS.TBL_CTL.PEND, 1)], by decide +kernel⟩,
   ⟨.fus, dw [(R.FUS.TBL_CTL.PEND, 1)], 0, by decide +kernel⟩,
   ⟨.lth 0 1, dw [(R.LTH.TBL_CTL.PEND 0 1, 1)], 0, by decide +kernel⟩,
   ⟨.fus, dw [(R.FUS.TBL_CTL.COPY_BUSY, 1)], by decide +kernel⟩⟩

theorem witness_CompositeLinesAreFormed :
    (∃ (p : Piece) (rest : List Piece) (s : State), imageErr s.dev = none ∧ s.dev.fus.queue = p :: rest ∧ s.dev.on R.FUS.CTL.EN = false) ∧
    (∃ (p : Piece) (rest : List Piece) (q first len : Nat) (xs : List Nat) (s : State), imageErr s.dev = none ∧ s.dev.fus.queue = p :: rest ∧ s.dev.on R.FUS.CTL.EN = true ∧ s.dev.fus.issued = [] ∧ p.segs = [(q, first, len, xs)] ∧ s.dev.viewOn (4 * p.port + q) = true ∧ s.dev.isLead (4 * p.port + q) = false ∧ s.dev.formedAlready (4 * p.port + q) p.lsn = false) ∧
    (∃ (p : Piece) (rest : List Piece) (q first len : Nat) (xs : List Nat) (s : State), imageErr s.dev = none ∧ s.dev.fus.queue = p :: rest ∧ s.dev.on R.FUS.CTL.EN = true ∧ s.dev.fus.issued = [] ∧ p.segs = [(q, first, len, xs)] ∧ s.dev.viewOn (4 * p.port + q) = true ∧ s.dev.isLead (4 * p.port + q) = false ∧ s.dev.formedAlready (4 * p.port + q) p.lsn = true ∧ p.token = false ∧ (s.dev.viewS (4 * p.port + q)).late.contains p.lsn = false) ∧
    (∃ (p : Piece) (rest : List Piece) (q first len : Nat) (xs : List Nat) (n e : Nat) (s : State), imageErr s.dev = none ∧ s.dev.fus.queue = p :: rest ∧ s.dev.on R.FUS.CTL.EN = true ∧ s.dev.fus.issued = [(n, e)] ∧ p.segs = [(q, first, len, xs)] ∧ s.dev.viewOn (4 * p.port + q) = true ∧ s.dev.isLead (4 * p.port + q) = false ∧ (viewPiece p (q, first, len, xs) { s.dev with fus := { s.dev.fus with queue := rest } }).formable n = true) ∧
    (∃ (x y e : Nat) (rest : List (Nat × Nat)) (d : Dev) (s : State), imageErr s.dev = none ∧ s.dev.nextComp = some (x, y, some e) ∧ d = reachNs e (s.dev.get R.FUS.DEADLINE.NS) s.dev ∧ d.fus.issued = (x, y) :: rest) ∧
    (∃ (a b : Nat) (s : State), s.dev.fus.winDue = true ∧ s.dev.seams = [(a, b)] ∧ s.dev.rwb = [] ∧ s.dev.get R.FUS.SEAM_CTL.MODE = 2 ∧ max 1 (s.dev.get R.FUS.SEAM_CTL.MINPAIRS) ≤ (s.dev.viewS b).pairs) ∧
    (∃ (a b : Nat) (s : State), s.dev.fus.winDue = true ∧ s.dev.seams = [(a, b)] ∧ (s.dev.viewS b).pairs < max 1 (s.dev.get R.FUS.SEAM_CTL.MINPAIRS)) ∧
    (∃ (s : State), s.dev.fus.winDue = false) ∧
    (∃ (w : String) (s : State), imageErr s.dev = some w) :=
  ⟨⟨⟨0, 3, 7, 0, [], true, []⟩, [], w [(R.FUS.CTL.EN, 0)] (fun d => { d with fus := { d.fus with queue := [⟨0, 3, 7, 0, [], true, []⟩] } }), by decide +kernel⟩,
   ⟨⟨0, 3, 7, 0, [], false, [(0, 0, 16, List.replicate 16 9)]⟩, [], 0, 0, 16, List.replicate 16 9, w ([(R.FUS.CTL.EN, 1), (R.FUS.WIDTH.COLS, 16), (R.FUS.VIEW_CTL.EN 0, 1), (R.FUS.VIEW_U1.COL 0, 16), (R.EKL.CTL.EN 0, 1), (R.EKL.PLANE_CTL.EN 0 0, 1), (R.EKL.PLANE_CTL.WIDTH 0 0, 16), (R.FUS.DEADLINE.NS, 5000), (R.FUS.SEAM_WIN.LINES, 16)] ++ []) (fun d => { d with fus := { d.fus with queue := [⟨0, 3, 7, 0, [], false, [(0, 0, 16, List.replicate 16 9)]⟩] } }), by decide +kernel⟩,
   ⟨⟨0, 3, 7, 0, [], false, [(0, 0, 16, List.replicate 16 9)]⟩, [], 0, 0, 16, List.replicate 16 9, w ([(R.FUS.CTL.EN, 1), (R.FUS.WIDTH.COLS, 16), (R.FUS.VIEW_CTL.EN 0, 1), (R.FUS.VIEW_U1.COL 0, 16), (R.EKL.CTL.EN 0, 1), (R.EKL.PLANE_CTL.EN 0 0, 1), (R.EKL.PLANE_CTL.WIDTH 0 0, 16), (R.FUS.DEADLINE.NS, 5000), (R.FUS.SEAM_WIN.LINES, 16)] ++ [(R.FUS.LAST_LSN.LSN, 9)]) (fun d => { d with fus := { d.fus with queue := [⟨0, 3, 7, 0, [], false, [(0, 0, 16, List.replicate 16 9)]⟩], count := 5 } }), by decide +kernel⟩,
   ⟨⟨0, 3, 7, 0, [], false, [(0, 0, 16, List.replicate 16 9)]⟩, [], 0, 0, 16, List.replicate 16 9, 3, 7, w ([(R.FUS.CTL.EN, 1), (R.FUS.WIDTH.COLS, 16), (R.FUS.VIEW_CTL.EN 0, 1), (R.FUS.VIEW_U1.COL 0, 16), (R.EKL.CTL.EN 0, 1), (R.EKL.PLANE_CTL.EN 0 0, 1), (R.EKL.PLANE_CTL.WIDTH 0 0, 16), (R.FUS.DEADLINE.NS, 5000), (R.FUS.SEAM_WIN.LINES, 16)] ++ []) (fun d => { d with fus := { d.fus with queue := [⟨0, 3, 7, 0, [], false, [(0, 0, 16, List.replicate 16 9)]⟩], issued := [(3, 7)] } }), by decide +kernel⟩,
   ⟨3, 7, 7, [], _, w ([(R.FUS.CTL.EN, 1), (R.FUS.WIDTH.COLS, 16), (R.FUS.VIEW_CTL.EN 0, 1), (R.FUS.VIEW_U1.COL 0, 16), (R.EKL.CTL.EN 0, 1), (R.EKL.PLANE_CTL.EN 0 0, 1), (R.EKL.PLANE_CTL.WIDTH 0 0, 16), (R.FUS.DEADLINE.NS, 5000), (R.FUS.SEAM_WIN.LINES, 16)] ++ []) (fun d => { d with fus := { d.fus with issued := [(3, 7)] } }), by decide +kernel, by decide +kernel, rfl, by decide +kernel⟩,
   ⟨0, 1, w [(R.FUS.VIEW_CTL.EN 0, 1), (R.FUS.VIEW_U1.COL 0, 16), (R.FUS.VIEW_CTL.EN 1, 1), (R.FUS.VIEW_U0.COL 1, 8), (R.FUS.VIEW_U1.COL 1, 24), (R.FUS.SEAM_CTL.MODE, 2), (R.FUS.SEAM_CTL.MINPAIRS, 2)] (fun d => { setView 1 { pairs := 5, sum := 10 } { d with fus := { d.fus with winDue := true } } with rwb := [] }), by decide +kernel⟩,
   ⟨0, 1, w [(R.FUS.VIEW_CTL.EN 0, 1), (R.FUS.VIEW_U1.COL 0, 16), (R.FUS.VIEW_CTL.EN 1, 1), (R.FUS.VIEW_U0.COL 1, 8), (R.FUS.VIEW_U1.COL 1, 24), (R.FUS.SEAM_CTL.MODE, 2), (R.FUS.SEAM_CTL.MINPAIRS, 2)] (fun d => { d with fus := { d.fus with winDue := true } }), by decide +kernel⟩,
   ⟨{}, by decide +kernel⟩,
   ⟨"FUS.WIDTH out of range", w [(R.FUS.CTL.EN, 1)], by decide +kernel⟩⟩

theorem witness_FormedLinesAreCounted :
    ∃ (x : Nat × Nat) (rest : List (Nat × Nat)) (d : Dev), d.fus.issued = x :: rest :=
  ⟨(3, 7), [], dw [] (fun d => { d with fus := { d.fus with issued := [(3, 7)] } }), by decide +kernel⟩

theorem witness_GougesLabelRuns :
    (∃ (g : Fin 136) (i st : Nat) (r : RunRec) (rest : List (Nat × GRec)) (s : State), s.dev.gouTakes g.val = true ∧ s.dev.servedBy g.val = some st ∧ (s.dev.gouS g.val).spill = false ∧ (s.dev.gouS g.val).fifo = (i, .run r) :: rest ∧ (s.dev.gouS g.val).comps = [] ∧ (s.dev.gouS g.val).cur = []) ∧
    (∃ (g : Fin 136) (i st : Nat) (r : RunRec) (rest : List (Nat × GRec)) (c : Comp) (a la : Nat) (s : State), s.dev.gouTakes g.val = true ∧ s.dev.servedBy g.val = some st ∧ (s.dev.gouS g.val).spill = false ∧ (s.dev.gouS g.val).fifo = (i, .run r) :: rest ∧ (s.dev.gouS g.val).comps = [c] ∧ (s.dev.gouS g.val).cur = [] ∧ (s.dev.gouS g.val).curLsn = none ∧ (s.dev.gouS g.val).prevLsn = some ((r.lsn + 2 ^ 32 - 1) % 2 ^ 32) ∧ (s.dev.gouS g.val).prev = [(a, la, c.label)] ∧ joinsAbove (s.dev.on R.CLS.GG_CTL.CONN) r.start r.len a la = true) ∧
    (∃ (g : Fin 136) (i st : Nat) (f : EndRec) (c : Comp) (rest : List (Nat × GRec)) (s : State), s.dev.gouTakes g.val = true ∧ s.dev.servedBy g.val = some st ∧ (s.dev.gouS g.val).spill = false ∧ (s.dev.gouS g.val).fifo = (i, .fin f) :: rest ∧ (s.dev.gouS g.val).comps = [c] ∧ (s.dev.gouS g.val).curLsn = none ∧ (s.dev.gouS g.val).closing = [] ∧ c.last ≠ f.lsn ∧ c.first ≠ f.lsn ∧ lsnDiff f.lsn c.first < s.dev.maxLines f.lsn ∧ residuesHold c = true ∧ (s.dev.gouS g.val).owed = [] ∧ (s.dev.gouS g.val).out.length < 32) ∧
    (∃ (g : Fin 136) (s : State), s.dev.gouTakes g.val = false ∧ (s.dev.gouS g.val).owed ≠ []) ∧
    (∃ (g : Fin 136) (s : State), s.dev.get (R.GGE.STATUS.STATE g.val) = 1 ∧ (s.dev.gouS g.val).asleep = true ∧ max 1 (s.dev.get R.CLS.GG_CTL.SLEEP_LINES) ≤ (s.dev.gouS g.val).idle) ∧
    (∃ (grp : Fin 8) (s : State), s.dev.on R.CLS.GG_DOZE.EN = true ∧ (groupOf grp.val).all (fun g => (s.dev.servedBy g).isNone || (s.dev.get (R.GGE.STATUS.STATE g) == 2 && decide (s.dev.get R.CLS.GG_DOZE.LINES ≤ (s.dev.gouS g).gatedFor))) = true) ∧
    (∃ (grp : Fin 8) (s : State), s.dev.groupOff grp.val = true ∧ (groupOf grp.val).any (fun g => !(s.dev.gouS g).fifo.isEmpty || (s.dev.gouS g).spill) = true) ∧
    (∃ (g : Fin 136) (s : State), s.dev.get (R.GGE.STATUS.STATE g.val) ∉ [0, 3, 7]) ∧
    (∃ (g : Fin 136) (s : State), s.dev.get (R.GGE.STATUS.STATE g.val) ∉ [0, 3, 7] ∧ s.dev.on R.RAS.CTL.GG_AUTO = false) ∧
    (∃ (g : Fin 136) (s : State), s.dev.get (R.GGE.STATUS.STATE g.val) ∉ [0, 3, 7] ∧ s.dev.on R.RAS.CTL.GG_AUTO = true ∧ s.dev.servedBy g.val = none) :=
  ⟨⟨0, 0, 0, { lsn := 3, cf := 1, start := 0, len := 4, chPres := 1, leadT := 0, sum := [] }, [], w [(R.GGE.STATUS.STATE 0, 1), (R.GGE.STRIP.VALID 0, 1), (R.FUS.WIDTH.COLS, 64), (R.CLS.GG_MAX.LINES, 100)] (setGou 0 { fifo := [(0, .run { lsn := 3, cf := 1, start := 0, len := 4, chPres := 1, leadT := 0, sum := [] })] }), by decide +kernel⟩,
   ⟨0, 0, 0, { lsn := 3, cf := 1, start := 0, len := 4, chPres := 1, leadT := 0, sum := [] }, [], { label := 1, first := 0, last := 0, x0 := 0, x1 := 0 }, 0, 4, w [(R.GGE.STATUS.STATE 0, 1), (R.GGE.STRIP.VALID 0, 1), (R.FUS.WIDTH.COLS, 64), (R.CLS.GG_MAX.LINES, 100)] (setGou 0 { fifo := [(0, .run { lsn := 3, cf := 1, start := 0, len := 4, chPres := 1, leadT := 0, sum := [] })], comps := [{ label := 1, first := 0, last := 0, x0 := 0, x1 := 0 }], prev := [(0, 4, 1)], prevLsn := some 2 }), by decide +kernel⟩,
   ⟨0, 0, 0, { lsn := 5, lf := 0, nruns := 0, e := 7, cflags := 0 }, { label := 1, first := 0, last := 0, x0 := 0, x1 := 0 }, [], w [(R.GGE.STATUS.STATE 0, 1), (R.GGE.STRIP.VALID 0, 1), (R.FUS.WIDTH.COLS, 64), (R.CLS.GG_MAX.LINES, 100)] (setGou 0 { fifo := [(0, .fin { lsn := 5, lf := 0, nruns := 0, e := 7, cflags := 0 })], comps := [{ label := 1, first := 0, last := 0, x0 := 0, x1 := 0 }] }), by decide +kernel⟩,
   ⟨0, w [(R.GGE.STATUS.STATE 0, 1), (R.GGE.STRIP.VALID 0, 1)] (setGou 0 { owed := [{ kind := .contact, strip := 0, epoch := 0, label := 1, line := 5 }] }), by decide +kernel⟩,
   ⟨0, w [(R.GGE.STATUS.STATE 0, 1)] (setGou 0 { idle := 2 ^ 32 }), by decide +kernel⟩,
   ⟨0, w [(R.CLS.GG_DOZE.EN, 1)], by decide +kernel⟩,
   ⟨0, w [(R.GGE.STATUS.STATE 0, 3)] (setGou 0 { spill := true }), by decide +kernel⟩,
   ⟨0, w [(R.GGE.STATUS.STATE 0, 1)], by decide +kernel⟩,
   ⟨0, w [(R.GGE.STATUS.STATE 0, 1), (R.RAS.CTL.GG_AUTO, 0)], by decide +kernel⟩,
   ⟨0, w [(R.GGE.STATUS.STATE 0, 1), (R.RAS.CTL.GG_AUTO, 1)], by decide +kernel⟩⟩

theorem witness_RecordsAreMerged :
    (∃ (x y g : Nat) (r : CompRec) (rest : List CompRec) (s : State), s.dev.on R.MRG.CTL.EN = true ∧ s.dev.heads none = [(x, y, .gouge g)] ∧ (s.dev.gouS g).out = r :: rest ∧ r.strip < 136 ∧ judge s.dev r = .taken ∧ r.kind ≠ .closure) ∧
    (∃ (x y g : Nat) (r : CompRec) (c : Comp) (rest : List CompRec) (s : State), s.dev.on R.MRG.CTL.EN = true ∧ s.dev.heads none = [(x, y, .gouge g)] ∧ (s.dev.gouS g).out = r :: rest ∧ r.strip < 136 ∧ judge s.dev r = .taken ∧ r.kind = .closure ∧ r.comp = some c ∧ (∀ k : Fin 4, s.dev.on (R.CRV.NET_CTL.EN k.val) = false)) ∧
    (∃ (x y g : Nat) (r : CompRec) (rest : List CompRec) (s : State), s.dev.on R.MRG.CTL.EN = true ∧ s.dev.heads none = [(x, y, .gouge g)] ∧ (s.dev.gouS g).out = r :: rest ∧ r.strip < 136 ∧ judge s.dev r = .oldDrop) ∧
    (∃ (x y g : Nat) (r : CompRec) (rest : List CompRec) (s : State), s.dev.on R.MRG.CTL.EN = true ∧ s.dev.heads none = [(x, y, .gouge g)] ∧ (s.dev.gouS g).out = r :: rest ∧ s.dev.on R.RAS.CTL.GG_AUTO = false) ∧
    (∃ (x y : Nat) (b : MergedSet) (rest : List MergedSet) (s : State), s.dev.on R.MRG.CTL.EN = true ∧ s.dev.heads none = [(x, y, .merged)] ∧ s.dev.mrg.outQ = b :: rest) ∧
    (∃ (x y x' y' g g' : Nat) (r r' : CompRec) (rest rest' : List CompRec) (s : State), s.dev.on R.MRG.CTL.EN = true ∧ g ≠ g' ∧ (s.dev.heads none = [(x, y, .gouge g), (x', y', .gouge g')] ∨ s.dev.heads none = [(x', y', .gouge g'), (x, y, .gouge g)]) ∧ firstHead (s.dev.heads none) = some (x, y, .gouge g) ∧ (s.dev.gouS g).out = r :: rest ∧ (s.dev.gouS g').out = r' :: rest' ∧ r.strip < 136 ∧ r'.strip < 136 ∧ judge s.dev r = .taken ∧ judge s.dev r' = .taken ∧ r.kind = .contact ∧ r'.kind = .contact ∧ s.dev.mrg.inQ.length < 1023) ∧
    (∃ (r : CompRec) (rest : List CompRec) (i : Nat) (n : Node) (s : State), s.dev.mrg.inQ = r :: rest ∧ r.kind = .contact ∧ r.strip < 136 ∧ s.dev.nodeOf r.strip r.epoch r.label = some i ∧ s.dev.node i = some n ∧ ((r.epoch = s.dev.get (R.MRG.STRIP_EPOCH.EPOCH r.strip) → r.epoch ≠ 0 → 0 ≤ lsnDiff r.line (s.dev.get (R.MRG.STRIP_CUT.LSN r.strip)))) ∧ KMap.get (fun _ => (none : Option EdgeEnt)) s.dev.mrg.edge (edgeKey r.strip r.other r.line) = none) ∧
    (∃ (r : CompRec) (rest : List CompRec) (i j : Nat) (x y : Node) (s : State), s.dev.mrg.inQ = r :: rest ∧ r.kind = .merge ∧ s.dev.nodeOf r.strip r.epoch r.label = some i ∧ s.dev.nodeOf r.strip r.epoch r.other = some j ∧ i ≠ j ∧ s.dev.node i = some x ∧ s.dev.node j = some y) ∧
    (∃ (r : CompRec) (rest : List CompRec) (c : Comp) (i : Nat) (n : Node) (s : State), s.dev.mrg.inQ = r :: rest ∧ r.kind = .part ∧ r.comp = some c ∧ s.dev.nodeOf r.strip r.epoch r.label = some i ∧ s.dev.node i = some n ∧ s.dev.mrg.paired = []) ∧
    (∃ (b : Fin 136) (m need : Nat) (s : State), m = (match KMap.get (fun _ => (none : Option Nat)) s.dev.mrg.paired b.val with | some p => (p + 1) % 2 ^ 32 | none => 0) ∧ need = (m + s.dev.conn) % 2 ^ 32 ∧ b.val + 1 < s.dev.nstrips ∧ s.dev.doneTo b.val need = true ∧ s.dev.doneTo (b.val + 1) need = true ∧ s.dev.contactWaits b.val need = false) ∧
    (∃ (x y : EdgeEnt) (a b : Node) (d : Dev), d.node x.node = some a ∧ d.node y.node = some b ∧ x.node ≠ y.node ∧ a.into = none ∧ b.into = none) ∧
    (∃ (k : Nat) (a : Acc) (s : State), s.dev.mrg.outQ.length < 256 ∧ s.dev.sets.find? s.dev.completes = some k ∧ combine (s.dev.mrg.splitSets.contains k) (s.dev.members k) = some a) ∧
    (∃ (strip : Fin 136) (s : State), s.dev.mrg.inQ.any (fun r => r.strip == strip.val && (r.epoch + 1) % 65536 == s.dev.get (R.MRG.STRIP_EPOCH.EPOCH strip.val)) = false ∧ s.dev.gou.any (fun e => e.2.out.any (fun r => r.strip == strip.val && (r.epoch + 1) % 65536 == s.dev.get (R.MRG.STRIP_EPOCH.EPOCH strip.val)) || e.2.owed.any (fun r => r.strip == strip.val && (r.epoch + 1) % 65536 == s.dev.get (R.MRG.STRIP_EPOCH.EPOCH strip.val))) = false) :=
  ⟨⟨5, 0, 0, { kind := .contact, strip := 0, epoch := 0, label := 1, line := 5 }, [], w ([(R.MRG.CTL.EN, 1)] ++ []) (setGou 0 { out := [{ kind := .contact, strip := 0, epoch := 0, label := 1, line := 5 }] }), by decide +kernel⟩,
   ⟨5, 0, 0, { kind := .closure, strip := 0, epoch := 0, label := 1, line := 5, comp := some { label := 1, first := 0, last := 0, x0 := 0, x1 := 0 } }, { label := 1, first := 0, last := 0, x0 := 0, x1 := 0 }, [], w ([(R.MRG.CTL.EN, 1)] ++ []) (setGou 0 { out := [{ kind := .closure, strip := 0, epoch := 0, label := 1, line := 5, comp := some { label := 1, first := 0, last := 0, x0 := 0, x1 := 0 } }] }), by decide +kernel⟩,
   ⟨5, 0, 0, { kind := .contact, strip := 0, epoch := 7, label := 1, line := 5 }, [], w ([(R.MRG.CTL.EN, 1)] ++ []) (setGou 0 { out := [{ kind := .contact, strip := 0, epoch := 7, label := 1, line := 5 }] }), by decide +kernel⟩,
   ⟨5, 0, 0, { kind := .contact, strip := 0, epoch := 0, label := 1, line := 5 }, [], w ([(R.MRG.CTL.EN, 1)] ++ [(R.RAS.CTL.GG_AUTO, 0)]) (setGou 0 { out := [{ kind := .contact, strip := 0, epoch := 0, label := 1, line := 5 }] }), by decide +kernel⟩,
   ⟨1, 136, { acc := {}, forced := false }, [], w ([(R.MRG.CTL.EN, 1)] ++ []) (fun d => { d with mrg := { d.mrg with outQ := [{ acc := {}, forced := false }] } }), by decide +kernel⟩,
   ⟨5, 0, 9, 1, 0, 1, { kind := .contact, strip := 0, epoch := 0, label := 1, line := 5 }, { kind := .contact, strip := 1, epoch := 0, label := 1, line := 9 }, [], [], w ([(R.MRG.CTL.EN, 1)] ++ []) (fun d => setGou 1 { out := [{ kind := .contact, strip := 1, epoch := 0, label := 1, line := 9 }] } (setGou 0 { out := [{ kind := .contact, strip := 0, epoch := 0, label := 1, line := 5 }] } d)), by decide +kernel⟩,
   ⟨{ kind := .contact, strip := 0, epoch := 0, label := 1, line := 5 }, [], 0, { strip := 0, epoch := 0, label := 1, set := 0, early := 0 }, w [] (fun d => { d with mrg := { d.mrg with inQ := [{ kind := .contact, strip := 0, epoch := 0, label := 1, line := 5 }], nodes := [(0, some { strip := 0, epoch := 0, label := 1, set := 0, early := 0 })] } }), by decide +kernel⟩,
   ⟨{ kind := .merge, strip := 0, epoch := 0, label := 1, line := 5, other := 2 }, [], 0, 1, { strip := 0, epoch := 0, label := 1, set := 0, early := 0 }, { strip := 0, epoch := 0, label := 2, set := 0, early := 0 }, w [] (fun d => { d with mrg := { d.mrg with inQ := [{ kind := .merge, strip := 0, epoch := 0, label := 1, line := 5, other := 2 }], nodes := [(0, some { strip := 0, epoch := 0, label := 1, set := 0, early := 0 }), (1, some { strip := 0, epoch := 0, label := 2, set := 0, early := 0 })] } }), by decide +kernel⟩,
   ⟨{ kind := .part, strip := 0, epoch := 0, label := 1, line := 5, comp := some { label := 1, first := 0, last := 0, x0 := 0, x1 := 0 } }, [], { label := 1, first := 0, last := 0, x0 := 0, x1 := 0 }, 0, { strip := 0, epoch := 0, label := 1, set := 0, early := 0 }, w [] (fun d => { d with mrg := { d.mrg with inQ := [{ kind := .part, strip := 0, epoch := 0, label := 1, line := 5, comp := some { label := 1, first := 0, last := 0, x0 := 0, x1 := 0 } }], nodes := [(0, some { strip := 0, epoch := 0, label := 1, set := 0, early := 0 })] } }), by decide +kernel⟩,
   ⟨0, _, _, w [(R.FUS.WIDTH.COLS, 128), (R.CLS.STRIP.W, 1)] (fun d => { d with mrg := { d.mrg with done := [(0, some 5), (1, some 5)] } }), rfl, rfl, by decide +kernel⟩,
   ⟨⟨5, 0, 0⟩, ⟨5, 0, 1⟩, { strip := 0, epoch := 0, label := 1, set := 0, early := 0 }, { strip := 0, epoch := 0, label := 1, set := 0, early := 0 }, dw [] (fun d => { d with mrg := { d.mrg with nodes := [(0, some { strip := 0, epoch := 0, label := 1, set := 0, early := 0 }), (1, some { strip := 0, epoch := 0, label := 1, set := 0, early := 0 })] } }), by decide +kernel⟩,
   ⟨0, {}, w [] (fun d => { d with mrg := { d.mrg with nodes := [(0, some { strip := 0, epoch := 0, label := 1, set := 0, early := 0, isOpen := false, acc := some {} })] } }), by decide +kernel⟩,
   ⟨0, {}, by decide +kernel⟩⟩

theorem witness_TheCarverScoresObjects :
    (∃ (ch : List (Nat × Nat)) (r : CrvReq) (rest : List CrvReq) (s : State), s.dev.crv.queue = r :: rest ∧ s.dev.crv.patches.length < 8 ∧ s.dev.noneAged ∧ s.dev.yields 4 = false ∧ s.dev.held.any (fun h => h.id == r.obj.id) = true ∧ s.dev.crvRuns = true ∧ s.dev.on (R.CRV.NET_CTL.VALID r.net) = true ∧ (s.dev.patchWindow s.mem r ch).all (fun row => row.all (fun p => !p.isLost)) = true) ∧
    (∃ (ch : List (Nat × Nat)) (r : CrvReq) (rest : List CrvReq) (o : ObjRec) (c : Nat) (s : State), s.dev.crv.queue = r :: rest ∧ s.dev.crv.patches.length < 8 ∧ s.dev.noneAged ∧ s.dev.yields 4 = false ∧ s.dev.held.find? (fun h => h.id == r.obj.id) = some o ∧ s.dev.crvRuns = true ∧ s.dev.on (R.CRV.NET_CTL.VALID r.net) = true ∧ (s.dev.patchWindow s.mem r ch).flatten.find? SrcPx.isLost = some (.lost c)) ∧
    (∃ (r : CrvReq) (rest : List CrvReq) (s : State), s.dev.crv.queue = r :: rest ∧ s.dev.crv.patches.length < 8 ∧ s.dev.noneAged ∧ s.dev.yields 4 = true) ∧
    (∃ (r : CrvReq) (rest : List CrvReq) (o : ObjRec) (s : State), s.dev.crv.queue = r :: rest ∧ s.dev.crv.patches.length < 8 ∧ s.dev.noneAged ∧ s.dev.yields 4 = false ∧ s.dev.held.find? (fun h => h.id == r.obj.id) = some o ∧ s.dev.crvRuns = true ∧ s.dev.on (R.CRV.NET_CTL.VALID r.net) = false) ∧
    (∃ (p : CrvPatch) (rest : List CrvPatch) (s : State), s.dev.crv.patches = p :: rest ∧ s.dev.held.any (fun h => h.id == p.obj.id) = true ∧ s.dev.noneAged ∧ s.dev.crvRuns = true ∧ s.dev.on (R.CRV.NET_CTL.VALID p.net) = true ∧ p.net < 4 ∧ s.dev.blobsMeet = false) ∧
    (∃ (r : CrvResult) (rest : List CrvResult) (o : ObjRec) (s : State), s.dev.crv.results = r :: rest ∧ s.dev.noneAged ∧ s.dev.held.find? (fun o => o.id == r.id) = some o) ∧
    (∃ (o h : ObjRec) (rest : List ObjRec) (e : Dev) (s : State), s.dev.held = o :: rest ∧ e = reachNs o.handed (s.dev.get R.CRV.AGE.NS) s.dev ∧ e.held.find? (fun x => x.id == o.id) = some h) ∧
    (∃ (n : Fin 4) (s : State), flag s.dev.crv.validating n.val = true ∧ blobErr s.dev n.val = 0) ∧
    (∃ (n : Fin 4) (s : State), flag s.dev.crv.validating n.val = true ∧ blobErr s.dev n.val ≠ 0) ∧
    (∃ (bad : BitVec 16) (s : State), s.dev.crvRuns = true ∧ ((∀ i : Fin 16, bad.getLsbD i.val = true → bit (s.dev.get R.CRV.SLICES.FENCED) i.val = true))) ∧
    (∃ (bad : BitVec 16) (s : State), s.dev.crvRuns = true ∧ (∃ i : Fin 16, bad.getLsbD i.val = true ∧ bit (s.dev.get R.CRV.SLICES.FENCED) i.val = false)) ∧
    (∃ (n : Fin 4) (x : Nat × Nat × List Byte) (s : State), s.dev.ras.coresDown = false ∧ s.dev.on (R.CRV.NET_CTL.VALID n.val) = false ∧ s.dev.get (R.CRV.NET_CTL.ERR n.val) = 5 ∧ (blobsOf (s.dev.nvmMain.image (s.dev.get R.TOP.STATE.SLOT) (s.dev.slotTab.len (s.dev.get R.TOP.STATE.SLOT)))).find? (fun x => x.1 == n.val) = some x) :=
  ⟨⟨[], ⟨obj, 0⟩, [], crv [(R.CRV.NET_CTL.VALID 0, 1), (R.TOP.DRAM_GRANT.GRANT 4, 10)] { queue := [⟨obj, 0⟩] }, by decide +kernel, by decide +kernel, by unfold Dev.noneAged; decide +kernel, by decide +kernel⟩,
   ⟨[], ⟨obj, 0⟩, [], obj, 4, crv [(R.CRV.NET_CTL.VALID 0, 1), (R.FUS.WIDTH.COLS, 64), (R.TOP.DRAM_GRANT.GRANT 4, 10)] { queue := [⟨obj, 0⟩] }, by decide +kernel, by decide +kernel, by unfold Dev.noneAged; decide +kernel, by decide +kernel⟩,
   ⟨⟨obj, 0⟩, [], crv [] { queue := [⟨obj, 0⟩] }, by decide +kernel, by decide +kernel, by unfold Dev.noneAged; decide +kernel, by decide +kernel⟩,
   ⟨⟨obj, 0⟩, [], obj, crv [(R.TOP.DRAM_GRANT.GRANT 4, 10)] { queue := [⟨obj, 0⟩] }, by decide +kernel, by decide +kernel, by unfold Dev.noneAged; decide +kernel, by decide +kernel⟩,
   ⟨⟨obj, 0, List.replicate 16 0⟩, [], crv [(R.CRV.NET_CTL.VALID 0, 1)] { patches := [⟨obj, 0, List.replicate 16 0⟩] }, by decide +kernel, by decide +kernel, by unfold Dev.noneAged; decide +kernel, by decide +kernel⟩,
   ⟨⟨7, 0, 100, [61]⟩, [], obj, crv [] { results := [⟨7, 0, 100, [61]⟩] }, by decide +kernel, by unfold Dev.noneAged; decide +kernel, by decide +kernel⟩,
   ⟨obj, obj, [], _, crv [] {}, by decide +kernel, rfl, by decide +kernel⟩,
   ⟨0, crv [] { validating := [(0, true)] }, by decide +kernel⟩,
   ⟨1, crv [(R.CRV.NET_BASE.OFFSET 1, 64)] { validating := [(1, true)] }, by decide +kernel⟩,
   ⟨1, crv [(R.CRV.SLICES.FENCED, 3)] {}, by decide +kernel⟩,
   ⟨2, crv [(R.CRV.SLICES.FENCED, 1)] {}, by decide +kernel⟩,
   ⟨2, (2, 0, blobBytes), w [(R.CRV.NET_CTL.ERR 2, 5), (R.TOP.STATE.SLOT, 0)] (setNvm 0 { slots := some { len0 := 216 }, img0 := netImage }), by decide +kernel⟩⟩

theorem witness_VerdictsAreGivenAndPulsesFire :
    (∃ (o : ObjRec) (rest : List ObjRec) (vb skips : Nat) (set : List (Valve × Int)) (clipped : Bool) (how : How) (s : State), s.dev.objQ = o :: rest ∧ s.dev.on R.VRD.CTL.EN = true ∧ ({ s.dev with objQ := rest } : Dev).judge' o s.dev.fresh = .ok (vb, skips, set, clipped, how)) ∧
    (∃ (o : ObjRec) (rest : List ObjRec) (vb skips : Nat) (v : Valve) (delay : Int) (clipped : Bool) (how : How) (s : State), s.dev.objQ = o :: rest ∧ s.dev.on R.VRD.CTL.EN = true ∧ ({ s.dev with objQ := rest } : Dev).judge' o s.dev.fresh = .ok (vb, skips, [(v, delay)], clipped, how) ∧ v.direct = false ∧ s.dev.carriers (s.dev.lane' v.seg) ≠ [] ∧ s.dev.vrd.pend.length < 16384 ∧ (s.dev.get R.VRD.RETX_MIN.US : Int) * 65536000 ≤ s.dev.until' (fireAt o delay) ∧ (s.dev.get R.VRD.LEAD.US : Int) * 65536000 ≤ s.dev.until' (fireAt o delay)) ∧
    (∃ (o : ObjRec) (rest : List ObjRec) (w : String) (s : State), s.dev.objQ = o :: rest ∧ s.dev.on R.VRD.CTL.EN = true ∧ ({ s.dev with objQ := rest } : Dev).judge' o s.dev.fresh = .error w) ∧
    (∃ (o : ObjRec) (rest : List ObjRec) (s : State), s.dev.objQ = o :: rest ∧ s.dev.on R.VRD.CTL.EN = false) ∧
    (∃ (i : Fin 16) (p : Pulse) (e : Dev) (s : State), firstTimed s.dev (s.dev.pinQ i.val) = some p ∧ e = reach (p.start * 65536) (setPinQ i.val ((s.dev.pinQ i.val).erase p) s.dev) ∧ e.drivesPrimary (12 + i.val) = true) ∧
    (∃ (i : Fin 16) (p : Pulse) (e : Dev) (s : State), firstTimed s.dev (s.dev.pinQ i.val) = some p ∧ e = reach (p.start * 65536) (setPinQ i.val ((s.dev.pinQ i.val).erase p) s.dev) ∧ e.drivesPrimary (12 + i.val) = false) ∧
    (∃ (i : Fin 16) (p : Pulse) (n x : Nat) (rest : List Pulse) (s : State), s.dev.pinQ i.val = p :: rest ∧ p.sp = some (n, x) ∧ s.dev.spReached n x = true ∧ s.dev.drivesPrimary (12 + i.val) = true) ∧
    (∃ (i : Fin 16) (x : Nat) (s : State), KMap.get (fun _ => (none : Option Nat)) s.dev.vrd.pinEnd i.val = some x) ∧
    (∃ (c : FireCmd) (x : Nat) (s : State), s.dev.vrd.pend = [c] ∧ c.kind ≠ 1 ∧ c.first = some x) ∧
    (∃ (table : Fin 3) (index : Nat) (s : State), s.dev.ras.coresDown = false ∧ s.dev.vrd.bad.contains { active := true, table := table.val, index } = true) ∧
    (∃ (table : Fin 3) (index : Nat) (s : State), s.dev.ras.coresDown = false ∧ s.dev.vrd.bad.contains { active := false, table := table.val, index } = true) :=
  ⟨⟨obj, [], 0, 0, [], false, .zone, w [(R.VRD.CTL.EN, 1)] (fun d => { d with objQ := [obj] }), by decide +kernel, by decide +kernel, by rfl⟩,
   ⟨obj, [], 1, 0, { index := 0, c0 := 0, c1 := 63, seg := 0, direct := false, node := 1, out := 0, zone := 0, lead := 0 }, 1000000000, false, .zone, w [(R.VRD.CTL.EN, 1), (R.VRD.VMAP_CTL.NA, 1), (R.VRD.VMAP_CTL.VMAX, 4), (R.FUS.WIDTH.COLS, 64), (R.T1S.SEG_STATUS.STATE 0, 1)] (fun d => { setBank 10 { d.bankS 10 with act := [(vrdKey 0 0, 2), (vrdKey 1 0, 2 ^ 31), (vrdKey 1 0 + 1, 63), (vrdKey 1 0 + 2, 256), (vrdKey 2 0, 10 ^ 6)] } d with objQ := [obj] }), by decide +kernel, by decide +kernel, judged_ok (by decide +kernel), by decide +kernel⟩,
   ⟨obj, [], "reserved operand or operator in a rule (R323)", w [(R.VRD.CTL.EN, 1)] (fun d => { d with objQ := [obj], bank := [(10, { act := [(16, 1), (20, 0x901)] })] }), by decide +kernel, by decide +kernel, by rfl⟩,
   ⟨obj, [], w [(R.VRD.CTL.EN, 0)] (fun d => { d with objQ := [obj] }), by decide +kernel⟩,
   ⟨0, { start := 100, dur := 5, obj := 7 }, _, w [] (setPinQ 0 [{ start := 100, dur := 5, obj := 7 }]), by decide +kernel, rfl, by decide +kernel⟩,
   ⟨0, { start := 100, dur := 5, obj := 7 }, _, w [(R.TOP.PINMUX.FUNC 12, 1)] (setPinQ 0 [{ start := 100, dur := 5, obj := 7 }]), by decide +kernel, rfl, by decide +kernel⟩,
   ⟨0, { sp := some (0, 0), dur := 5, obj := 7 }, 0, 0, [], w [] (setPinQ 0 [{ sp := some (0, 0), dur := 5, obj := 7 }]), by decide +kernel⟩,
   ⟨0, 9, w [] (fun d => { d with vrd := { d.vrd with pinEnd := [(0, some 9)] } }), by decide +kernel⟩,
   ⟨⟨3, 0, 1, 0, 0, 4, 0, 0, 0, 0, [], some 9⟩, 9, w [] (fun d => { d with vrd := { d.vrd with pend := [⟨3, 0, 1, 0, 0, 4, 0, 0, 0, 0, [], some 9⟩] } }), by decide +kernel⟩,
   ⟨1, 3, w [] (fun d => { d with vrd := { d.vrd with bad := [⟨true, 1, 3⟩] } }), by decide +kernel⟩,
   ⟨1, 3, w [] (fun d => { d with vrd := { d.vrd with bad := [⟨false, 1, 3⟩] } }), by decide +kernel⟩⟩

theorem witness_SegmentsCarryCommands :
    (∃ (k : Fin 8) (s : State), s.dev.get (R.T1S.SEG_STATUS.STATE k.val) = 1 ∧ s.dev.get R.PWR.STATUS.STATE = 3) ∧
    (∃ (k : Fin 8) (s : State), s.dev.get (R.T1S.SEG_STATUS.STATE k.val) = 1 ∧ s.dev.vrd.pend = [] ∧ (s.dev.segS k.val).followUp = none ∧ (s.dev.segS k.val).respFu = [] ∧ (s.dev.segS k.val).resp = [] ∧ (s.dev.segS k.val).syncDue = false ∧ (s.dev.segS k.val).annDue = false) ∧
    (∃ (k : Fin 8) (c : FireCmd) (s : State), s.dev.get (R.T1S.SEG_STATUS.STATE k.val) = 1 ∧ s.dev.get R.PWR.STATUS.STATE ≠ 3 ∧ s.dev.vrd.pend = [c] ∧ s.dev.onSeg k.val c = true ∧ c.kind = 1 ∧ c.sent = [] ∧ (s.dev.get R.VRD.RETX_MIN.US : Int) * 65536000 ≤ s.dev.until' c.time ∧ (s.dev.segS k.val).followUp = none ∧ (s.dev.segS k.val).respFu = [] ∧ (s.dev.segS k.val).resp = [] ∧ (s.dev.segS k.val).syncDue = false ∧ (s.dev.segS k.val).annDue = false) ∧
    (∃ (k : Fin 8) (c : FireCmd) (s : State), s.dev.get (R.T1S.SEG_STATUS.STATE k.val) = 2 ∧ s.dev.get R.PWR.STATUS.STATE ≠ 3 ∧ s.dev.vrd.pend = [c] ∧ s.dev.onSeg k.val c = true ∧ c.kind = 1 ∧ c.sent = [] ∧ (s.dev.get R.VRD.RETX_MIN.US : Int) * 65536000 ≤ s.dev.until' c.time ∧ (s.dev.segS k.val).followUp = none ∧ (s.dev.segS k.val).respFu = [] ∧ (s.dev.segS k.val).resp = [] ∧ (s.dev.segS k.val).syncDue = false ∧ (s.dev.segS k.val).annDue = false) ∧
    (∃ (k : Fin 8) (src : BitVec 48) (p : List Byte) (s : State), s.dev.segUp k.val = true ∧ 64 ≤ p.length ∧ fieldAt p 0 1 = 0x47 ∧ fieldAt p 1 1 = 0x81 ∧ 1 ≤ fieldAt p 4 1 ∧ fieldAt p 4 1 ≤ 31 ∧ s.dev.on (R.T1S.NODE.EN k.val (fieldAt p 4 1)) = true ∧ (s.dev.get (R.T1S.NODE.MAC k.val (fieldAt p 4 1)) = 0 ∨ s.dev.get (R.T1S.NODE.MAC k.val (fieldAt p 4 1)) = src.toNat)) ∧
    (∃ (k : Fin 8) (s : State), s.dev.segUp k.val = true) ∧
    (∃ (k : Fin 8) (s : State), s.dev.segUp k.val = true ∧ s.dev.on (R.TIM.SEG_CTL.EN k.val) = true) ∧
    (∃ (k : Fin 8) (s : State), s.dev.get (R.T1S.SEG_STATUS.STATE k.val) = 1) ∧
    (∃ (k : Fin 8) (s : State), s.dev.get (R.T1S.SEG_STATUS.STATE k.val) = 1) ∧
    (∃ (k : Fin 8) (x : Nat) (s : State), s.dev.get (R.T1S.SEG_STATUS.STATE k.val) = 2 ∧ (s.dev.segS k.val).causeAt = some x) ∧
    (∃ (k : Fin 8) (s : State), s.dev.segUp k.val = true ∧ s.dev.on R.TOP.PROFILE_ACT.T1S_MODE = false) ∧
    (∃ (k : Fin 8) (s : State), s.dev.segUp k.val = true ∧ s.dev.on R.TOP.PROFILE_ACT.T1S_MODE = true ∧ s.dev.segUp ((k.val + 4) % 8) = true) ∧
    (∃ (k : Fin 8) (n : Fin 32) (s : State), s.dev.segUp k.val = true ∧ n.val ≠ 0 ∧ s.dev.on (R.T1S.NODE.EN k.val n.val) = true ∧ s.dev.on (R.T1S.NODE.SILENT k.val n.val) = false) :=
  ⟨⟨0, w [(R.T1S.SEG_STATUS.STATE 0, 1), (R.PWR.STATUS.STATE, 3)], by decide +kernel⟩,
   ⟨0, w [(R.T1S.SEG_STATUS.STATE 0, 1)], by decide +kernel⟩,
   ⟨0, { kind := 1, seg := 0, node := 1, out := 0, seq := 0, time := 10 ^ 9 }, w [(R.T1S.SEG_STATUS.STATE 0, 1), (R.PWR.STATUS.STATE, 1)] (fun d => { d with vrd := { d.vrd with pend := [{ kind := 1, seg := 0, node := 1, out := 0, seq := 0, time := 10 ^ 9 }] } }), by decide +kernel⟩,
   ⟨0, { kind := 1, seg := 0, node := 1, out := 0, seq := 0, time := 10 ^ 9 }, w [(R.T1S.SEG_STATUS.STATE 0, 2), (R.PWR.STATUS.STATE, 1)] (fun d => { d with vrd := { d.vrd with pend := [{ kind := 1, seg := 0, node := 1, out := 0, seq := 0, time := 10 ^ 9 }] } }), by decide +kernel⟩,
   ⟨0, 5, [0x47#8, 0x81#8, 0#8, 0#8, 1#8] ++ List.replicate 59 0#8, w [(R.T1S.SEG_STATUS.STATE 0, 1), (R.T1S.NODE.EN 0 1, 1)], by decide +kernel⟩,
   ⟨0, w [(R.T1S.SEG_STATUS.STATE 0, 1)], by decide +kernel⟩,
   ⟨0, w [(R.T1S.SEG_STATUS.STATE 0, 1), (R.TIM.SEG_CTL.EN 0, 1)], by decide +kernel⟩,
   ⟨0, w [(R.T1S.SEG_STATUS.STATE 0, 1)], by decide +kernel⟩,
   ⟨0, w [(R.T1S.SEG_STATUS.STATE 0, 1)], by decide +kernel⟩,
   ⟨0, 9, w [(R.T1S.SEG_STATUS.STATE 0, 2)] (setSeg 0 { causeAt := some 9 }), by decide +kernel⟩,
   ⟨0, w [(R.T1S.SEG_STATUS.STATE 0, 1), (R.TOP.PROFILE_ACT.T1S_MODE, 0)], by decide +kernel⟩,
   ⟨0, w [(R.T1S.SEG_STATUS.STATE 0, 1), (R.T1S.SEG_STATUS.STATE 4, 1), (R.TOP.PROFILE_ACT.T1S_MODE, 1)], by decide +kernel⟩,
   ⟨0, 1, w [(R.T1S.SEG_STATUS.STATE 0, 1), (R.T1S.NODE.EN 0 1, 1)], by decide +kernel⟩⟩

theorem witness_DramKeepsWhatIsWritten :
    (∃ (a : Nat) (bs : List Byte) (d : Dev) (m : Mem), d.posted = [] ∧ d.channels ≠ [] ∧ a + bs.length ≤ d.dramEnd ∧ bs ≠ [] ∧ a % 64 + bs.length ≤ 64 ∧ ((m.mark (d.physKey a / 64) = .poison → bs.length = 64))) ∧
    (∃ (a : Nat) (bs : List Byte) (d : Dev) (m : Mem), d.posted = [] ∧ d.channels ≠ [] ∧ a + bs.length ≤ d.dramEnd ∧ bs ≠ [] ∧ a % 64 + bs.length ≤ 64 ∧ m.mark (d.physKey a / 64) = .poison ∧ bs.length < 64) ∧
    (∃ (a : Nat) (bs : List Byte) (d : Dev), d.posted = [] ∧ a % 64 + bs.length ≤ 64) ∧
    (∃ (a b : Nat) (d : Dev), d.channels ≠ [] ∧ d.locate a = d.locate b) :=
  ⟨⟨0, [1], dw [(R.DDR.CAP.ACTIVE, 1), (R.DDR.CAP.MIB, 16383)], {}, by decide +kernel⟩,
   ⟨0, [1], dw [(R.DDR.CAP.ACTIVE, 1), (R.DDR.CAP.MIB, 16383)], { marks := [(0, .poison)] }, by decide +kernel⟩,
   ⟨0, [1], dw [], by decide +kernel⟩,
   ⟨5, 5, dw [(R.DDR.CAP.ACTIVE, 1), (R.DDR.CAP.MIB, 16383)], by decide +kernel⟩⟩

theorem witness_DramRequestsAreServed :
    (∃ (u : Fin 6) (a : BitVec 37) (data : Option (List Byte)) (n : Nat) (s : State), n = (match data with | some bs => bs.length | none => 64 - a.toNat % 64) ∧ s.dev.dramHas a.toNat n = true ∧ n ≠ 0 ∧ a.toNat % 64 + n ≤ 64 ∧ s.dev.atGrant u.val 64 = true) ∧
    (∃ (u : Fin 6) (a : BitVec 37) (bs : List Byte) (s : State), s.dev.dramHas a.toNat bs.length = true ∧ bs.length = 64 ∧ a.toNat % 64 = 0 ∧ s.dev.atGrant u.val 64 = false) ∧
    (∃ (u : Fin 6) (a : BitVec 37) (s : State), s.settled ∧ s.dev.dramHas a.toNat (64 - a.toNat % 64) = true ∧ s.dev.atGrant u.val 64 = false ∧ s.mem.mark (s.dev.physKey a.toNat / 64) = .written) ∧
    (∃ (u : Fin 6) (a : BitVec 37) (s : State), s.settled ∧ s.dev.dramHas a.toNat (64 - a.toNat % 64) = true ∧ s.dev.atGrant u.val 64 = false ∧ s.mem.mark (s.dev.physKey a.toNat / 64) = .written ∧ s.dev.on R.DDR.RET_CTL.AUTO = false) ∧
    (∃ (ch : Fin 4) (b : Fin 128) (r : Nat) (e : Dev) (s : State), (s.dev.bankAt ch.val b.val).row = some r ∧ e = reach (((s.dev.bankAt ch.val b.val).hitAt + cdiv (256 * 2000 * 65536) s.dev.dramRate) % 2 ^ 64) s.dev) :=
  ⟨⟨3, 0, none, _, dram [] [(R.TOP.DRAM_GRANT.GRANT 3, 0)], rfl, by decide +kernel⟩,
   ⟨0, 0, List.replicate 64 1, dram [(0, [1])] [], by decide +kernel⟩,
   ⟨0, 0, dram [(0, [1])] [], rfl, by decide +kernel⟩,
   ⟨0, 0, dram [(0, [1])] [(R.DDR.RET_CTL.AUTO, 0)], rfl, by decide +kernel⟩,
   ⟨0, 0, 5, _, dram [] [] (setBankAt 0 0 { row := some 5 }), by decide +kernel, rfl⟩⟩

theorem witness_ChannelsAreMaintained :
    (∃ (ch : Fin 4) (s : State), s.dev.chRuns ch.val = true ∧ num (s.dev.ddrS ch.val).owed (s.dev.ddrS ch.val).refIdx < 4) ∧
    (∃ (ch : Fin 4) (busy : Bool) (s : State), s.dev.chRuns ch.val = true ∧ (busy = false ∨ 4 ≤ num (s.dev.ddrS ch.val).owed (s.dev.ddrS ch.val).refIdx)) ∧
    (∃ (ch : Fin 4) (s : State), s.dev.chRuns ch.val = true) ∧
    (∃ (ch : Fin 4) (e : Dev) (s : State), s.dev.chRuns ch.val = true ∧ s.dev.on R.DDR.SR_CTL.EN = true ∧ (s.dev.ddrS ch.val).wbuf = [] ∧ (s.dev.ddrS ch.val).owed = [] ∧ e = reachNs (s.dev.ddrS ch.val).busyAt (s.dev.get R.DDR.SR_CTL.IDLE_NS) s.dev) ∧
    (∃ (ch : Fin 4) (rank : Fin 2) (e : Dev) (s : State), bit (s.dev.get R.DDR.CAP.ACTIVE) ch.val = true ∧ e = reachNs (num (s.dev.ddrS ch.val).mr4At rank.val) 32000000 s.dev ∧ num (s.dev.ddrS ch.val).mr4 (1 - rank.val) ≤ 1) ∧
    (∃ (ch : Fin 4) (e : Dev) (s : State), s.dev.chRuns ch.val = true ∧ e = reachNs (s.dev.ddrS ch.val).oscAt (1000000 * s.dev.get R.DDR.RETRAIN.OSC_MS) s.dev) ∧
    (∃ (ch : Fin 4) (e : Dev) (s : State), s.dev.chRuns ch.val = true ∧ e = reachNs (s.dev.ddrS ch.val).oscAt (1000000 * s.dev.get R.DDR.RETRAIN.OSC_MS) s.dev ∧ bit (s.dev.get R.DDR.CAP.ACTIVE) ch.val = true ∧ s.dev.on R.DDR.RET_CTL.AUTO = false) ∧
    (∃ (ch : Fin 4) (next : Nat) (e : Dev) (s : State), next = ((s.dev.ddrS ch.val).patrol + 1) % max 1 (s.dev.chanMib * 16384) ∧ e = (if next = 0 then reachNs (s.dev.ddrS ch.val).passAt (3600000000000 * s.dev.get R.DDR.SCRUB.HOURS) s.dev else s.dev) ∧ s.settled ∧ s.dev.chRuns ch.val = true ∧ s.dev.on R.DDR.SCRUB.EN = true ∧ s.mem.mark (ch.val * 2 ^ 36 / 64 + (s.dev.ddrS ch.val).patrol) ≠ .poison) ∧
    (∃ (ch : Fin 4) (e : Nat) (rest : List Nat) (s : State), (s.dev.ddrS ch.val).copying = e :: rest ∧ e < 64) ∧
    (∃ (ch : Fin 4) (s : State), bit (s.dev.get R.DDR.CAP.ACTIVE) ch.val = true ∧ s.dev.on R.DDR.RET_CTL.AUTO = false) ∧
    (∃ (ch : Fin 4) (s : State), bit (s.dev.get R.DDR.CAP.ACTIVE) ch.val = true ∧ s.dev.on R.DDR.RET_CTL.AUTO = true ∧ s.dev.ras.coresDown = true) ∧
    (∃ (ch : Fin 4) (s : State), bit (s.dev.get R.DDR.CAP.ACTIVE) ch.val = true ∧ s.dev.on R.DDR.RET_CTL.AUTO = true ∧ s.dev.ras.coresDown = false ∧ s.dev.nstrips ≤ 136 ∧ ((∀ st, st < 136 → ∀ g, s.dev.placed st = some g → g < 136))) :=
  ⟨⟨0, w [(R.DDR.CH_STATUS.STATE 0, 2)], by decide +kernel⟩,
   ⟨0, false, w [(R.DDR.CH_STATUS.STATE 0, 2)], by decide +kernel⟩,
   ⟨0, w [(R.DDR.CH_STATUS.STATE 0, 2)], by decide +kernel⟩,
   ⟨0, _, w [(R.DDR.CH_STATUS.STATE 0, 2), (R.DDR.SR_CTL.EN, 1)], join4 (by decide +kernel) (rfl)⟩,
   ⟨0, 0, _, dram [] [], by decide +kernel, rfl, by decide +kernel⟩,
   ⟨0, _, w [(R.DDR.CH_STATUS.STATE 0, 2)], by decide +kernel, rfl⟩,
   ⟨0, _, dram [] [(R.DDR.CH_STATUS.STATE 0, 2), (R.DDR.RET_CTL.AUTO, 0)], by decide +kernel, rfl, by decide +kernel⟩,
   ⟨0, _, _, dram [] [(R.DDR.CH_STATUS.STATE 0, 2), (R.DDR.SCRUB.EN, 1)], rfl, rfl, rfl, by decide +kernel⟩,
   ⟨0, 3, [], dram [] [] (setDdr 0 { copying := [3] }), by decide +kernel⟩,
   ⟨0, dram [] [(R.DDR.RET_CTL.AUTO, 0)], by decide +kernel⟩,
   ⟨0, dram [] [(R.DDR.RET_CTL.AUTO, 1)] (fun d => { d with ras := { d.ras with coresDown := true } }), by decide +kernel⟩,
   ⟨0, dram [] [(R.DDR.RET_CTL.AUTO, 1)], join4 (by decide +kernel) (fun st h g e => absurd (((by decide +kernel : ∀ st < 136, (dram [] [(R.DDR.RET_CTL.AUTO, 1)]).dev.placed st = none) st h).symm.trans e) (by simp))⟩⟩

theorem witness_HostReachesDramAndTheLink :
    (∃ (off : BitVec 28) (bs : List Byte) (s : State), s.dev.aon.off = false ∧ s.dev.served = true ∧ s.dev.get R.HST.APER_BASE.BASE * 2 ^ 20 + off.toNat + bs.length ≤ s.dev.dramEnd ∧ s.dev.dataPath (s.dev.get R.HST.APER_BASE.BASE * 2 ^ 20 + off.toNat) bs.length = false) ∧
    (∃ (off : BitVec 28) (n : Nat) (bs : List Byte) (s : State), s.dev.aon.off = false ∧ s.dev.served = true ∧ s.dev.get R.HST.APER_BASE.BASE * 2 ^ 20 + off.toNat + n ≤ s.dev.dramEnd ∧ s.dev.dramRead s.mem (s.dev.get R.HST.APER_BASE.BASE * 2 ^ 20 + off.toNat) n = (bs, false)) ∧
    (∃ (off : BitVec 28) (n : Nat) (s : State), s.dev.aon.off = false ∧ s.dev.served = true ∧ s.dev.get R.HST.APER_BASE.BASE * 2 ^ 20 + off.toNat + n ≤ s.dev.dramEnd ∧ (s.dev.dramRead s.mem (s.dev.get R.HST.APER_BASE.BASE * 2 ^ 20 + off.toNat) n).2 = true) ∧
    (∃ (off : BitVec 28) (n : Nat) (s : State), s.dev.aon.off = false ∧ s.dev.served = true ∧ s.dev.dramEnd < s.dev.get R.HST.APER_BASE.BASE * 2 ^ 20 + off.toNat + n) ∧
    (∃ (s : State), s.dev.on R.HST.LINK.UP = false ∧ s.dev.aon.trains = true) ∧
    (∃ (s : State), s.dev.on R.HST.LINK.UP = true) ∧
    (∃ (s : State), s.dev.on R.HST.LINK.UP = true ∧ s.dev.on R.HST.LINK.BME = true) ∧
    (∃ (s : State), s.dev.aon.trains = true ∧ s.dev.served = false) ∧
    (∃ (s : State), s.dev.aon.trains = true ∧ s.dev.served = true) ∧
    (∃ (s : State), s.dev.aon.trains = true ∧ s.dev.served = true) ∧
    (∃ (v : Fin 64) (s : State), flag s.dev.vecOwed v.val = true ∧ s.dev.hostOk = true ∧ s.dev.on R.HST.LINK.MSIX_EN = true ∧ (s.dev.get (R.HST.VMOD.HOLDOFF_US v.val) = 0 ∨ KMap.get (fun _ => (none : Option Nat)) s.dev.dma.sentAt v.val = none) ∧ bit (s.dev.msixWord (4 * v.val + 3)) 0 = false ∧ s.dev.dma.fmask = false) ∧
    (∃ (v : Fin 64) (s : State), flag s.dev.vecOwed v.val = true ∧ s.dev.hostOk = true ∧ s.dev.on R.HST.LINK.MSIX_EN = true ∧ (s.dev.get (R.HST.VMOD.HOLDOFF_US v.val) = 0 ∨ KMap.get (fun _ => (none : Option Nat)) s.dev.dma.sentAt v.val = none) ∧ bit (s.dev.msixWord (4 * v.val + 3)) 0 = true) :=
  ⟨⟨0, [1], dram [] [(R.TOP.STATE.STEP, 11)], by decide +kernel⟩,
   ⟨0, 1, [1], dram [(0, [1])] [(R.TOP.STATE.STEP, 11)], by decide +kernel⟩,
   ⟨0, 1, dram [] [(R.TOP.STATE.STEP, 11)], by decide +kernel⟩,
   ⟨0, 1, w [(R.TOP.STATE.STEP, 11)], by decide +kernel⟩,
   ⟨w [] (fun d => { d with aon := { d.aon with trains := true } }), by decide +kernel⟩,
   ⟨w [(R.HST.LINK.UP, 1), (R.HST.LINK.BME, 1)], by decide +kernel⟩,
   ⟨w [(R.HST.LINK.UP, 1), (R.HST.LINK.BME, 1)], by decide +kernel⟩,
   ⟨w [] (fun d => { d with aon := { d.aon with trains := true } }), by decide +kernel⟩,
   ⟨w [(R.TOP.STATE.STEP, 11)] (fun d => { d with aon := { d.aon with trains := true } }), by decide +kernel⟩,
   ⟨w [(R.TOP.STATE.STEP, 11)] (fun d => { d with aon := { d.aon with trains := true } }), by decide +kernel⟩,
   ⟨3, w [(R.HST.LINK.UP, 1), (R.HST.LINK.BME, 1), (R.HST.LINK.MSIX_EN, 1)] (fun d => { d with vecOwed := [(3, true)], dma := { d.dma with msix := [(15, 0)] } }), by decide +kernel⟩,
   ⟨3, w [(R.HST.LINK.UP, 1), (R.HST.LINK.BME, 1), (R.HST.LINK.MSIX_EN, 1)] (fun d => { d with vecOwed := [(3, true)], dma := { d.dma with msix := [] } }), by decide +kernel⟩⟩

theorem witness_RingsAndReportsMoveData :
    (∃ (c : Fin 32) (i : Nat) (host b : List Byte) (s : State), s.dev.chFree c.val ∧ s.dev.nextDesc c.val = some i ∧ ((s.dev.get (R.DMA.CH_CTL.FSPACE c.val) = 0 ∧ s.dev.hostOk = true ∧ host.length = 32 ∧ b = host) ∨ (s.dev.get (R.DMA.CH_CTL.FSPACE c.val) = 1 ∧ s.dev.dramRead s.mem (s.dev.descAddr c.val i) 32 = (b, false)))) ∧
    (∃ (c : Fin 32) (i : Nat) (s : State), s.dev.chFree c.val ∧ s.dev.nextDesc c.val = some i ∧ s.dev.get (R.DMA.CH_CTL.FSPACE c.val) = 0 ∧ s.dev.hostOk = false) ∧
    (∃ (c : Fin 32) (x : Desc) (rest : List Desc) (bs : List Byte) (s : State), s.dev.ringCopies c.val x rest ∧ s.dev.dramRead s.mem x.src x.len = (bs, false)) ∧
    (∃ (c : Fin 32) (x : Desc) (rest : List Desc) (s : State), s.dev.ringCopies c.val x rest ∧ (s.dev.dramRead s.mem x.src x.len).2 = true) ∧
    (∃ (c : Fin 32) (s : State), s.dev.chFree c.val ∧ (s.dev.chS c.val).late ≠ 0) ∧
    (∃ (c : Fin 32) (ring rgn size w unread used k : Nat) (s : State), s.dev.chFree c.val ∧ s.dev.ddr.reports < s.dev.reportPace ∧ s.dev.chMode c.val = 2 ∧ s.dev.chState c.val = 2 ∧ s.dev.sliceOk c.val = true ∧ s.dev.hostOk = true ∧ s.dev.rptSource c.val = some (ring, rgn, size, w) ∧ unread = (w + 2 ^ 32 - s.dev.get (R.DMA.CH_RPT_DRD.COUNT c.val)) % 2 ^ 32 ∧ max 1 (s.dev.get (R.DMA.CH_RPT_CTL.BATCH c.val)) ≤ unread ∧ unread < (s.dev.region rgn).2 / size ∧ used = (s.dev.get (R.DMA.CH_RPT_HWR.COUNT c.val) + 2 ^ 32 - s.dev.get (R.DMA.CH_RPT_HRD.COUNT c.val)) % 2 ^ 32 ∧ k = min (max 1 (s.dev.get (R.DMA.CH_RPT_CTL.BATCH c.val))) (2 ^ s.dev.get (R.DMA.CH_RING.LOG2 c.val) - used) ∧ k = 0) ∧
    (∃ (c : Fin 32) (ring rgn size w unread used k : Nat) (s : State), s.dev.chFree c.val ∧ s.dev.ddr.reports < s.dev.reportPace ∧ s.dev.chMode c.val = 2 ∧ s.dev.chState c.val = 2 ∧ s.dev.sliceOk c.val = true ∧ s.dev.hostOk = true ∧ s.dev.rptSource c.val = some (ring, rgn, size, w) ∧ unread = (w + 2 ^ 32 - s.dev.get (R.DMA.CH_RPT_DRD.COUNT c.val)) % 2 ^ 32 ∧ max 1 (s.dev.get (R.DMA.CH_RPT_CTL.BATCH c.val)) ≤ unread ∧ unread < (s.dev.region rgn).2 / size ∧ used = (s.dev.get (R.DMA.CH_RPT_HWR.COUNT c.val) + 2 ^ 32 - s.dev.get (R.DMA.CH_RPT_HRD.COUNT c.val)) % 2 ^ 32 ∧ k = min (max 1 (s.dev.get (R.DMA.CH_RPT_CTL.BATCH c.val))) (2 ^ s.dev.get (R.DMA.CH_RING.LOG2 c.val) - used) ∧ k ≠ 0 ∧ ((∀ i, i < k → (s.dev.dramRead s.mem ((s.dev.region rgn).1 + size * ((s.dev.get (R.DMA.CH_RPT_DRD.COUNT c.val) % 2 ^ 32 + i) % 2 ^ 32 % ((s.dev.region rgn).2 / size))) size).2 = false))) :=
  ⟨⟨0, 0, List.replicate 32 0, List.replicate 32 0, w [(R.DMA.CH_STATUS.STATE 0, 2), (R.HST.LINK.UP, 1), (R.HST.LINK.BME, 1), (R.TOP.DRAM_GRANT.GRANT 3, 10), (R.DMA.CH_TAIL.COUNT 0, 3)], by unfold Dev.chFree; decide +kernel, by decide +kernel⟩,
   ⟨0, 0, w [(R.DMA.CH_STATUS.STATE 0, 2), (R.DMA.CH_TAIL.COUNT 0, 3), (R.TOP.DRAM_GRANT.GRANT 3, 10)], by unfold Dev.chFree; decide +kernel, by decide +kernel⟩,
   ⟨0, ⟨0, 0, 0x1000, 64, 5⟩, [], List.replicate 64 1, dram [(0, List.replicate 64 1)] ([(R.DMA.CH_STATUS.STATE 0, 2), (R.DMA.CH_CTL.FSPACE 0, 1)] ++ owns 4 0 13) (setCh 0 { fetched := [⟨0, 0, 0x1000, 64, 5⟩] }), by unfold Dev.ringCopies Dev.chFree; decide +kernel, by decide +kernel⟩,
   ⟨0, ⟨0, 0x2000, 0x1000, 64, 5⟩, [], dram [] ([(R.DMA.CH_STATUS.STATE 0, 2), (R.DMA.CH_CTL.FSPACE 0, 1)] ++ owns 4 0 13) (setCh 0 { fetched := [⟨0, 0x2000, 0x1000, 64, 5⟩] }), by unfold Dev.ringCopies Dev.chFree; decide +kernel, by decide +kernel⟩,
   ⟨0, w [(R.TOP.DRAM_GRANT.GRANT 3, 10)] (setCh 0 { late := 1 }), by unfold Dev.chFree; decide +kernel, by decide +kernel⟩,
   ⟨0, 0, 0, 128, 4, 4, 1, 0, dram [(0, List.replicate 128 1)] ([(R.DMA.CH_STATUS.STATE 0, 2), (R.HST.LINK.UP, 1), (R.HST.LINK.BME, 1), (R.DMA.CH_CTL.MODE 0, 2), (R.DMA.CH_CTL.RPT_SRC 0, 1), (R.MRG.ORING_CTL.RGN, 0), (R.MRG.ORING_WR.COUNT, 4), (R.DMA.CH_RPT_CTL.BATCH 0, 1), (R.DDR.RGN_ACT.SIZE_MIB 0, 1), (R.TOP.DRAM_GRANT.CEIL 2, 10), (R.DMA.CH_RING.LOG2 0, 0), (R.DMA.CH_RPT_HWR.COUNT 0, 1)] ++ owns 4 0 7), by unfold Dev.chFree; decide +kernel, by decide +kernel⟩,
   ⟨0, 0, 0, 128, 4, 4, 0, 1, dram [(0, List.replicate 128 1)] ([(R.DMA.CH_STATUS.STATE 0, 2), (R.HST.LINK.UP, 1), (R.HST.LINK.BME, 1), (R.DMA.CH_CTL.MODE 0, 2), (R.DMA.CH_CTL.RPT_SRC 0, 1), (R.MRG.ORING_CTL.RGN, 0), (R.MRG.ORING_WR.COUNT, 4), (R.DMA.CH_RPT_CTL.BATCH 0, 1), (R.DDR.RGN_ACT.SIZE_MIB 0, 1), (R.TOP.DRAM_GRANT.CEIL 2, 10), (R.DMA.CH_RING.LOG2 0, 4), (R.DMA.CH_RPT_HWR.COUNT 0, 0)] ++ owns 4 0 7), by unfold Dev.chFree; decide +kernel, join4 (by decide +kernel) (join4 (by decide +kernel) (join4 (by decide +kernel) (by intro i h; obtain rfl : i = 0 := (by omega); decide +kernel)))⟩⟩

theorem witness_ChannelProgramsRun :
    (∃ (c : Fin 32) (s : State), s.dev.chOn c.val = true ∧ s.dev.chMode c.val = 1 ∧ (s.dev.chS c.val).haltReq = false) ∧
    (∃ (c : Fin 32) (i : Ins) (ins bs : List Byte) (s : State), s.dev.atIns s.mem c.val i ∧ i.op = 1 ∧ bits i.flags 0 5 = 3 ∧ bits i.arg 0 4 = 5 ∧ i.n ≠ 0 ∧ s.dev.sliceOk c.val = true ∧ s.dev.dramRead s.mem i.a i.n = (bs, false) ∧ s.dev.dstOk 1 i.b i.n = true ∧ s.dev.selfWrite c.val ins s.mem = false) ∧
    (∃ (c : Fin 32) (i : Ins) (l : Nat) (s : State), s.dev.atIns s.mem c.val i ∧ i.op = 2 ∧ l = (if nth 0 (s.dev.chS c.val).loops (bits i.arg 0 2) = 0 then max i.n 1 else nth 0 (s.dev.chS c.val).loops (bits i.arg 0 2)) - 1) ∧
    (∃ (c : Fin 32) (i : Ins) (s : State), s.dev.atIns s.mem c.val i ∧ i.op = 3 ∧ bits i.arg 0 3 = 3 ∧ (s.dev.chS c.val).wait = none) ∧
    (∃ (c : Fin 32) (x : Nat) (s : State), s.dev.chState c.val = 3 ∧ (s.dev.chS c.val).wait = some (.ns x)) ∧
    (∃ (c : Fin 32) (i : Ins) (s : State), s.dev.atIns s.mem c.val i ∧ i.op = 4 ∧ bits i.flags 0 3 = 3) ∧
    (∃ (c : Fin 32) (i : Ins) (s : State), s.dev.atIns s.mem c.val i ∧ i.op = 5) ∧
    (∃ (c : Fin 32) (i : Ins) (s : State), s.dev.atIns s.mem c.val i ∧ i.op = 0) ∧
    (∃ (c : Fin 32) (s : State), (s.dev.chState c.val = 2 ∨ s.dev.chState c.val = 3)) ∧
    (∃ (c : Fin 32) (s : State), s.dev.chState c.val = 1) ∧
    (∃ (c : Fin 32) (s : State), s.dev.chState c.val = 4 ∧ s.dev.get (R.DMA.CH_STATUS.CAUSE c.val) ≠ 8 ∧ s.dev.chMode c.val = 1 ∧ (s.dev.chS c.val).haltReq = false) ∧
    (∃ (c : Fin 32) (s : State), s.dev.chState c.val = 5 ∧ s.dev.hostOk = true ∧ s.dev.chMode c.val = 1 ∧ (s.dev.chS c.val).haltReq = false) ∧
    (∃ (c : Fin 32) (s : State), s.dev.chMode c.val = 1 ∧ s.dev.chState c.val = 2 ∧ 65536 ≤ (s.dev.chS c.val).count) ∧
    (∃ (c : Fin 32) (e : Dev) (s : State), s.dev.chState c.val = 2 ∧ e = reachNs s.dev.dt (1000 * clamp 1 16000 (s.dev.get (R.DMA.CH_TMO.US c.val))) s.dev ∧ e.chMode c.val = 1) ∧
    (∃ (c : Fin 32) (s : State), s.dev.chMode c.val = 1 ∧ s.dev.chState c.val = 2) ∧
    (∃ (c : Fin 32) (s : State), s.dev.chState c.val ≠ 0) :=
  ⟨⟨0, w [(R.DMA.CTL.EN, 1), (R.DMA.CH_CTL.EN 0, 1), (R.DMA.CH_CTL.MODE 0, 1)], by decide +kernel⟩,
   ⟨0, insOf (insB 1 3 5 32 0 0x1000), [], insB 1 3 5 32 0 0x1000, prog (insB 1 3 5 32 0 0x1000), by unfold Dev.atIns Dev.chFree; decide +kernel, by decide +kernel⟩,
   ⟨0, insOf (insB 2 0 1 3 64 0), _, prog (insB 2 0 1 3 64 0), by unfold Dev.atIns Dev.chFree; decide +kernel, by decide +kernel, rfl⟩,
   ⟨0, insOf (insB 3 0 3 7 0 0), prog (insB 3 0 3 7 0 0), by unfold Dev.atIns Dev.chFree; decide +kernel, by decide +kernel⟩,
   ⟨0, 9, w [(R.DMA.CH_STATUS.STATE 0, 3)] (setCh 0 { wait := some (.ns 9) }), by decide +kernel⟩,
   ⟨0, insOf (insB 4 3 0 0 0 0), prog (insB 4 3 0 0 0 0), by unfold Dev.atIns Dev.chFree; decide +kernel, by decide +kernel⟩,
   ⟨0, insOf (insB 5 0 1 0 64 0), prog (insB 5 0 1 0 64 0), by unfold Dev.atIns Dev.chFree; decide +kernel, by decide +kernel⟩,
   ⟨0, insOf (insB 0 0 0 0 0 0), prog (insB 0 0 0 0 0 0), by unfold Dev.atIns Dev.chFree; decide +kernel, by decide +kernel⟩,
   ⟨0, w [(R.DMA.CH_STATUS.STATE 0, 2)], by decide +kernel⟩,
   ⟨0, w [(R.DMA.CH_STATUS.STATE 0, 1)], by decide +kernel⟩,
   ⟨0, w [(R.DMA.CH_STATUS.STATE 0, 4), (R.DMA.CH_STATUS.CAUSE 0, 2), (R.DMA.CH_CTL.MODE 0, 1)], by decide +kernel⟩,
   ⟨0, w [(R.DMA.CTL.EN, 1), (R.DMA.CH_CTL.EN 0, 1), (R.DMA.CH_CTL.MODE 0, 1), (R.DMA.CH_STATUS.STATE 0, 5), (R.HST.LINK.UP, 1), (R.HST.LINK.BME, 1)], by decide +kernel⟩,
   ⟨0, w [(R.DMA.CH_STATUS.STATE 0, 2), (R.DMA.CH_CTL.MODE 0, 1)] (setCh 0 { count := 65536 }), by decide +kernel⟩,
   ⟨0, _, w [(R.DMA.CH_STATUS.STATE 0, 2), (R.DMA.CH_CTL.MODE 0, 1)], by decide +kernel, rfl, by decide +kernel⟩,
   ⟨0, w [(R.DMA.CH_STATUS.STATE 0, 2), (R.DMA.CH_CTL.MODE 0, 1)], by decide +kernel⟩,
   ⟨0, w [(R.DMA.CH_STATUS.STATE 0, 2)], by decide +kernel⟩⟩

theorem witness_TheRecorderKeepsLines :
    (∃ (l : TapLine) (rest : List TapLine) (s : State), s.dev.recQ = l :: rest ∧ l.lathe < 8 ∧ s.dev.get R.CMP.STATUS.STATE = 0) ∧
    (∃ (l : TapLine) (p : TapPiece) (rest : List TapLine) (h : RecHead) (rs : List RefLine) (r : List Byte × Coded × List RefLine) (s : State), s.dev.recQ = l :: rest ∧ s.dev.get R.CMP.STATUS.STATE = 1 ∧ s.dev.recRegionOk = true ∧ s.dev.staging = true ∧ s.dev.stagingFull = false ∧ l.pieces = [p] ∧ 1 ≤ p.samples.length ∧ p.samples.length ≤ 8192 ∧ h = { lsn := l.lsn, tap := l.tap, src := l.src, plane := p.plane, depth := s.dev.tapDepth l p.plane, first := p.first, count := p.samples.length, dt := l.dtExp, lflags := l.flags, pflag := p.pflag, rflags := 0 } ∧ rs = (if s.dev.cmp.recorder.opened.isSome then s.dev.cmp.recorder.refs else []) ∧ r = codeRecord h (s.dev.predFor l.tap l.src l.lsn) (s.dev.on R.CMP.CTL.RAW || s.dev.cmp.recorder.raw) rs (codecSamples l.tap (s.dev.tapDepth l p.plane) p.samples) ∧ ((s.dev.cmp.recorder.opened.isSome = true → s.dev.cmp.recorder.chunk.length + r.1.length ≤ 65472))) ∧
    (∃ (l : TapLine) (rest : List TapLine) (s : State), s.dev.recQ = l :: rest ∧ l.lathe < 8 ∧ s.dev.get R.CMP.STATUS.STATE = 1 ∧ s.dev.recRegionOk = true ∧ s.dev.stagingFull = true) ∧
    (∃ (l : TapLine) (rest : List TapLine) (s : State), s.dev.recQ = l :: rest ∧ l.lathe < 8 ∧ s.dev.get R.CMP.STATUS.STATE = 2 ∧ s.dev.recRegionOk = true ∧ s.dev.cmp.recorder.opened = none ∧ dtGe l.dtExp (dtAddNs (s.dev.get R.CMP.REC_TDT.DT) (1000000 * s.dev.get R.CMP.REC_WIN.POST_MS : Nat)) = true) ∧
    (∃ (x : Nat) (e : Dev) (s : State), s.dev.cmp.recorder.opened = some x ∧ e = reachNs x 1000000 s.dev ∧ e.recRegionOk = true ∧ e.cmp.recorder.opened.isSome = true) ∧
    (∃ (s : State), s.dev.get R.CMP.STATUS.STATE = 1) ∧
    (∃ (s : State), 2 ≤ s.dev.get R.CMP.STATUS.STATE) ∧
    (∃ (s : State), s.dev.get R.CMP.STATUS.STATE = 3) ∧
    (∃ (s : State), s.dev.on R.CMP.CTL.EN = true) :=
  ⟨⟨tline, [], w [] (fun d => { d with recQ := [tline] }), by decide +kernel⟩,
   ⟨tline, ⟨0, 0, 0, [1, 2, 3]⟩, [], _, _, _, w ([(R.CMP.STATUS.STATE, 1), (R.DDR.RGN_ACT.SIZE_MIB 0, 1), (R.CMP.CTL.REC_RGN, 0), (R.TOP.DRAM_GRANT.GRANT 5, 100)] ++ ownsAll [(4, 16, 16), (3, 0, 16)]) (fun d => { d with recQ := [tline] }), join4 (by decide +kernel) (join4 (by decide +kernel) ⟨rfl, rfl, rfl, by decide +kernel⟩)⟩,
   ⟨tline, [], w ([(R.CMP.STATUS.STATE, 1), (R.DDR.RGN_ACT.SIZE_MIB 0, 1), (R.CMP.CTL.REC_RGN, 0)] ++ ownsAll [(4, 16, 16), (3, 0, 16)]) (fun d => { d with recQ := [tline] }), by decide +kernel⟩,
   ⟨tline, [], w [(R.CMP.STATUS.STATE, 2), (R.CMP.REC_WIN.POST_MS, 0), (R.DDR.RGN_ACT.SIZE_MIB 0, 1), (R.CMP.CTL.REC_RGN, 0)] (fun d => { d with recQ := [tline] }), by decide +kernel⟩,
   ⟨7, _, w [(R.DDR.RGN_ACT.SIZE_MIB 0, 1), (R.CMP.CTL.REC_RGN, 0)] (fun d => { d with cmp := { d.cmp with recorder := { d.cmp.recorder with opened := some 7 } } }), by decide +kernel, rfl, by decide +kernel⟩,
   ⟨w [(R.CMP.STATUS.STATE, 1)], by decide +kernel⟩,
   ⟨w [(R.CMP.STATUS.STATE, 2)], by decide +kernel⟩,
   ⟨w [(R.CMP.STATUS.STATE, 3)], by decide +kernel⟩,
   ⟨w [(R.CMP.CTL.EN, 1)], by decide +kernel⟩⟩

theorem witness_JobsCodeAndDecode :
    (∃ (e : Fin 2) (a : Nat) (b : List Byte) (s : State), s.dev.on R.CMP.CTL.EN = true ∧ s.dev.get (R.CMP.JOB_STATUS.STATE e.val) ≠ 1 ∧ a = s.dev.get (R.CMP.JOB_DESC.ADDR e.val) ∧ a % 64 = 0 ∧ s.dev.dramRead s.mem a 64 = (b, false) ∧ descOk e.val b = true ∧ fieldAt b 0 1 ≠ 3) ∧
    (∃ (e : Fin 2) (s : State), s.dev.on R.CMP.CTL.EN = true ∧ s.dev.get (R.CMP.JOB_STATUS.STATE e.val) ≠ 1 ∧ (s.dev.dramRead s.mem (s.dev.get (R.CMP.JOB_DESC.ADDR e.val)) 64).2 = true) ∧
    (∃ (x : JobS) (n off : Nat) (xs : List Nat) (r : List Byte × Coded × List RefLine) (s : State), s.dev.get (R.CMP.JOB_STATUS.STATE 0) = 1 ∧ s.dev.yields 3 = false ∧ s.dev.jobS 0 = x ∧ x.inUsed + 2 * n < x.inLen ∧ off = x.inUsed / 2 % x.width ∧ n = min 8192 (x.width - off) ∧ x.outUsed + cdiv (codedBound x.depth n (bit x.flags 0) + 40) 8 * 8 ≤ x.outLimit ∧ (s.dev.dramRead s.mem (x.inAddr + x.inUsed) (2 * n)).2 = false ∧ xs = (List.range n).map (fun k => fieldAt (s.dev.dramRead s.mem (x.inAddr + x.inUsed) (2 * n)).1 (2 * k) 2 / 2 ^ (16 - x.depth)) ∧ r = codeRecord { lsn := (x.lsn0 + x.inUsed / 2 / x.width) % 2 ^ 32, tap := 7, src := 0xff, plane := 0, depth := x.depth, first := off, count := n, dt := 0, lflags := 0, pflag := 0, rflags := 0 } x.param (bit x.flags 0) x.refs xs ∧ s.dev.dramHas (x.outAddr + x.outUsed) r.1.length = true) ∧
    (∃ (x : JobS) (hd bl : List Byte) (h : RecHead) (xs : List Nat) (s : State), s.dev.get (R.CMP.JOB_STATUS.STATE 1) = 1 ∧ s.dev.yields 3 = false ∧ s.dev.jobS 1 = x ∧ x.kind = 2 ∧ bit x.flags 1 = false ∧ x.inUsed + 40 + cdiv h.clen 8 * 8 < x.inLen ∧ s.dev.dramRead s.mem (x.inAddr + x.inUsed) 40 = (hd, false) ∧ h = readHead hd ∧ headCrcOk hd = true ∧ h.ok = true ∧ bit h.rflags 0 = false ∧ x.outUsed + cdiv (40 + 2 * h.count) 8 * 8 ≤ x.outLimit ∧ s.dev.dramRead s.mem (x.inAddr + x.inUsed + 40) h.clen = (bl, false) ∧ fieldAt hd 32 4 = crc32c bl ∧ decodeLine h.depth h.count none bl = some xs ∧ s.dev.dramHas (x.outAddr + x.outUsed) (cdiv (40 + 2 * h.count) 8 * 8) = true) ∧
    (∃ (e : Fin 2) (s : State), s.dev.get (R.CMP.JOB_STATUS.STATE e.val) = 1 ∧ s.dev.yields 3 = true) ∧
    (∃ (e : Fin 2) (s : State), s.dev.get (R.CMP.JOB_STATUS.STATE e.val) = 1 ∧ s.dev.yields 3 = false ∧ (s.dev.jobS e.val).inLen ≤ (s.dev.jobS e.val).inUsed ∧ (s.dev.jobS e.val).kind ≠ 3) ∧
    (∃ (x : JobS) (s : State), s.dev.get (R.CMP.JOB_STATUS.STATE 0) = 1 ∧ s.dev.yields 3 = false ∧ s.dev.jobS 0 = x ∧ x.kind = 1 ∧ x.inUsed < x.inLen ∧ x.outLimit < x.outUsed + 8) ∧
    (∃ (e : Fin 2) (b : List Byte) (s : State), s.dev.get (R.CMP.JOB_STATUS.STATE e.val) = 2 ∧ (s.dev.jobS e.val).status = 1 ∧ (s.dev.jobS e.val).kind ≠ 3 ∧ s.dev.dramRead s.mem ((s.dev.jobS e.val).desc + 24) 12 = (b, false)) ∧
    (∃ (e : Fin 2) (s : State), s.dev.get (R.CMP.JOB_STATUS.STATE e.val) = 1 ∧ (s.dev.jobS e.val).kind ≠ 3) :=
  ⟨⟨0, _, jobDesc, dram [(0, jobDesc)] [(R.CMP.CTL.EN, 1)], by decide +kernel, by decide +kernel, rfl, by decide +kernel⟩,
   ⟨0, dram [] [(R.CMP.CTL.EN, 1)], by decide +kernel⟩,
   ⟨{ kind := 1, depth := 8, width := 4, inLen := 16, outAddr := 0x1000, outLimit := 4096 }, _, _, _, _, dram [(0, List.replicate 16 7)] [(R.CMP.JOB_STATUS.STATE 0, 1), (R.TOP.DRAM_GRANT.GRANT 3, 10)] (setJob 0 { kind := 1, depth := 8, width := 4, inLen := 16, outAddr := 0x1000, outLimit := 4096 }), join4 (by decide +kernel) ⟨rfl, rfl, by decide +kernel, by decide +kernel, rfl, rfl, by decide +kernel⟩⟩,
   ⟨{ kind := 2, inLen := 4096, outAddr := 0x1000, outLimit := 4096 }, record.take 40, (record.drop 40).take (readHead (record.take 40)).clen, _, [1, 2, 3, 200], dram [(0, record)] [(R.CMP.JOB_STATUS.STATE 1, 1), (R.TOP.DRAM_GRANT.GRANT 3, 10)] (setJob 1 { kind := 2, inLen := 4096, outAddr := 0x1000, outLimit := 4096 }), join4 (by decide +kernel) ⟨by decide +kernel, by decide +kernel, by decide +kernel, rfl, by decide +kernel⟩⟩,
   ⟨0, w [(R.CMP.JOB_STATUS.STATE 0, 1)] (setJob 0 { kind := 1 }), by decide +kernel⟩,
   ⟨0, w [(R.CMP.JOB_STATUS.STATE 0, 1), (R.TOP.DRAM_GRANT.GRANT 3, 10)] (setJob 0 { kind := 1 }), by decide +kernel⟩,
   ⟨{ kind := 1, inLen := 8 }, w [(R.CMP.JOB_STATUS.STATE 0, 1), (R.TOP.DRAM_GRANT.GRANT 3, 10)] (setJob 0 { kind := 1, inLen := 8 }), by decide +kernel⟩,
   ⟨0, List.replicate 12 0, dram [(0, List.replicate 64 0)] [(R.CMP.JOB_STATUS.STATE 0, 2)] (setJob 0 { kind := 1, status := 1 }), by decide +kernel⟩,
   ⟨0, w [(R.CMP.JOB_STATUS.STATE 0, 1)] (setJob 0 { kind := 1 }), by decide +kernel⟩⟩

theorem witness_ResidualsAreWrapped :
    (∃ (d p s : Nat), 4 ≤ d ∧ d ≤ 16 ∧ p < 2 ^ d ∧ s < 2 ^ d) ∧
    (∃ (d p s : Nat) (e : Int), 4 ≤ d ∧ d ≤ 16 ∧ p < 2 ^ d ∧ s < 2 ^ d ∧ -(2 ^ (d - 1) : Int) ≤ e ∧ e ≤ (2 ^ (d - 1) : Int) - 1) ∧
    (∃ (d p s : Nat), 4 ≤ d ∧ d ≤ 16 ∧ p < 2 ^ d ∧ s < 2 ^ d) :=
  ⟨⟨8, 3, 255, by decide +kernel⟩,
   ⟨8, 3, 255, -128, by decide +kernel⟩,
   ⟨16, 3, 65535, by decide +kernel⟩⟩

theorem witness_CodedLinesAreBounded :
    ∃ (d : Nat) (xs : List Nat), 4 ≤ d ∧ d ≤ 16 ∧ (∀ x ∈ xs, x < 2 ^ d) :=
  ⟨4, [0, 15], by decide +kernel⟩

theorem witness_DecodingUndoesCoding :
    ∃ (d pred : Nat) (xs : List Nat), 4 ≤ d ∧ d ≤ 16 ∧ pred ≤ 2 ∧ (∀ x ∈ xs, x < 2 ^ d) :=
  ⟨4, 2, [0, 15], by decide +kernel⟩

theorem witness_FaultsAreCountedAndRepaired :
    (∃ (kind : BitVec 3) (idx : BitVec 8) (s : State), testUnit kind.toNat idx.toNat = true ∧ s.dev.ras.migs ≠ []) ∧
    (∃ (n : Fin 8) (s : State), s.dev.ras.migs = [] ∧ s.dev.ras.testQ = [] ∧ s.dev.get (R.LTH.STATUS.STATE n.val) ≠ 3 ∧ s.dev.on R.RAS.CTL.LTH_AUTO = true ∧ s.dev.nstrips ≤ 136) ∧
    (∃ (g : Fin 136) (s : State), s.dev.ras.migs = [] ∧ s.dev.ras.testQ = [] ∧ s.dev.gouRetired g.val = false ∧ s.dev.servedBy g.val = none ∧ s.dev.on R.RAS.CTL.GG_AUTO = true) ∧
    (∃ (kind : BitVec 3) (idx : BitVec 8), testUnit kind.toNat idx.toNat = false) ∧
    (∃ (n : Fin 41) (f : Fld) (s : State), f = (if n.val < 32 then R.MGT.VMON_LO.OUT else R.MGT.VMON_HI.OUT) ∧ bit s.dev.domains n.val = true ∧ bit (s.dev.get f) (n.val % 32) = false ∧ (n.val < 3 ∨ 19 ≤ n.val)) ∧
    (∃ (n : Fin 41) (f : Fld) (s : State), f = (if n.val < 32 then R.MGT.VMON_LO.OUT else R.MGT.VMON_HI.OUT) ∧ bit s.dev.domains n.val = true ∧ bit (s.dev.get f) (n.val % 32) = true) ∧
    (∃ (s : State), s.dev.ras.coresDown = false ∧ s.dev.aon.off = false ∧ 3 ≤ s.dev.get R.TOP.STATE.STEP) ∧
    (∃ (s : State), s.dev.ras.coresDown = false ∧ s.dev.aon.off = false ∧ 3 ≤ s.dev.get R.TOP.STATE.STEP) ∧
    (∃ (s : State), s.dev.ras.coresDown = true ∧ s.dev.ras.service = false ∧ s.dev.mgt.owedStatus = none ∧ s.dev.ras.relocQ = [] ∧ s.dev.ddr.retireQ = []) ∧
    (∃ (k : Nat) (h : SramHit) (s : State), h.lost = none ∧ k = ((256 * h.block.val + h.inst) * 65536 + h.arr.toNat) * 65536 + h.row.toNat ∧ num s.dev.ras.rowCe k + 1 < s.dev.get R.RAS.CTL.SRAM_CE_ROW) ∧
    (∃ (k : Nat) (h : SramHit) (s : State), h.lost = none ∧ k = ((256 * h.block.val + h.inst) * 65536 + h.arr.toNat) * 65536 + h.row.toNat ∧ s.dev.get R.RAS.CTL.SRAM_CE_ROW ≤ num s.dev.ras.rowCe k + 1 ∧ s.dev.on R.RAS.CTL.SRAM_AUTO = true ∧ s.dev.ras.coresDown = false ∧ s.dev.get R.RAS.MAP_INFO.ENTRIES + s.dev.ras.mapQ.length < 2046 ∧ num s.dev.ras.rowSpare (k / 65536) < 2) ∧
    (∃ (k : Nat) (h : SramHit) (s : State), h.lost = none ∧ k = ((256 * h.block.val + h.inst) * 65536 + h.arr.toNat) * 65536 + h.row.toNat ∧ s.dev.get R.RAS.CTL.SRAM_CE_ROW ≤ num s.dev.ras.rowCe k + 1 ∧ s.dev.on R.RAS.CTL.SRAM_AUTO = true ∧ s.dev.ras.coresDown = false ∧ s.dev.get R.RAS.MAP_INFO.ENTRIES + s.dev.ras.mapQ.length < 2046 ∧ 2 ≤ num s.dev.ras.rowSpare (k / 65536)) ∧
    (∃ (k : Nat) (h : SramHit) (s : State), h.lost = some .elsewhere ∧ k = (256 * h.block.val + h.inst) * 65536 + h.arr.toNat ∧ s.dev.on R.RAS.CTL.SRAM_AUTO = true ∧ s.dev.ras.coresDown = false ∧ num s.dev.ras.rowSpare k < 2 ∧ s.dev.get R.RAS.MAP_INFO.ENTRIES + s.dev.ras.mapQ.length < 2046) ∧
    (∃ (e : RepEntry) (rest : List RepEntry) (s : State), s.dev.ras.mapQ = e :: rest ∧ s.dev.ras.coresDown = false ∧ s.dev.ras.service = false ∧ s.dev.bothNvm) :=
  ⟨⟨1, 5, w [] (fun d => { d with ras := { d.ras with migs := [3] } }), by decide +kernel⟩,
   ⟨0, w [(R.RAS.CTL.LTH_AUTO, 1)], by decide +kernel⟩,
   ⟨0, w [(R.RAS.CTL.GG_AUTO, 1)], by decide +kernel⟩,
   ⟨1, 136, by decide +kernel⟩,
   ⟨20, _, w [(R.PWR.DOM_ON_LO.ON, 0x100000)], rfl, by decide +kernel⟩,
   ⟨20, _, w [(R.PWR.DOM_ON_LO.ON, 0x100000), (R.MGT.VMON_LO.OUT, 0x100000)], rfl, by decide +kernel⟩,
   ⟨w [(R.TOP.STATE.STEP, 11)], by decide +kernel⟩,
   ⟨w [(R.TOP.STATE.STEP, 11)], by decide +kernel⟩,
   ⟨w [] (fun d => { d with ras := { d.ras with coresDown := true } }), by decide +kernel⟩,
   ⟨_, ⟨14, 0, 1, 2, none⟩, w [(R.RAS.CTL.SRAM_CE_ROW, 9)], by decide +kernel, rfl, by decide +kernel⟩,
   ⟨_, ⟨14, 0, 1, 2, none⟩, w [(R.RAS.CTL.SRAM_CE_ROW, 1), (R.RAS.CTL.SRAM_AUTO, 1)], by decide +kernel, rfl, by decide +kernel⟩,
   ⟨_, ⟨14, 0, 1, 2, none⟩, w [(R.RAS.CTL.SRAM_CE_ROW, 1), (R.RAS.CTL.SRAM_AUTO, 1)] (fun d => { d with ras := { d.ras with rowSpare := [((256 * 14 * 65536 + 1), 2)] } }), by decide +kernel, rfl, by decide +kernel⟩,
   ⟨_, ⟨14, 0, 1, 2, some .elsewhere⟩, w [(R.RAS.CTL.SRAM_AUTO, 1)], by decide +kernel, rfl, by decide +kernel⟩,
   ⟨{ kind := 1 }, [], w [] (fun d => { d with ras := { d.ras with mapQ := [{ kind := 1 }] } }), by decide +kernel, by decide +kernel, by decide +kernel, by unfold Dev.bothNvm; decide +kernel⟩⟩

theorem witness_SensorsRailsAndLogAreServed :
    (∃ (s : State), s.dev.aon.off = false) ∧
    (∃ (n : Fin 16) (x : Nat) (e : Dev) (s : State), s.dev.mgtUp = true ∧ KMap.get (fun _ => (none : Option Nat)) s.dev.mgt.hotAt n.val = some x ∧ e = reachNs x 10000000 s.dev) ∧
    (∃ (n x : Nat) (e : Dev) (s : State), s.dev.mgtUp = true ∧ (List.range 16).find? (fun i => (KMap.get (fun _ => (none : Option Nat)) s.dev.mgt.hotAt i).isSome) = some n ∧ KMap.get (fun _ => (none : Option Nat)) s.dev.mgt.hotAt n = some x ∧ e = reachNs x 10000000 s.dev) ∧
    (∃ (x : Nat) (s : State), s.dev.mgtUp = true ∧ s.dev.mgt.powerSteps ≠ 8 ∧ s.dev.mgt.highAt = some x) ∧
    (∃ (x : Nat) (s : State), s.dev.mgtUp = true ∧ s.dev.mgt.powerSteps ≠ 0 ∧ s.dev.mgt.lowAt = some x) ∧
    (∃ (x : Nat) (s : State), s.dev.mgtUp = true ∧ s.dev.mgt.hotSteps ≠ 0 ∧ s.dev.mgt.coolAt = some x) ∧
    (∃ (v : BitVec 16) (s : State), s.dev.aon.off = false ∧ Config.tripReading < sgn 16 v.toNat) ∧
    (∃ (e : Dev) (s : State), s.dev.mgtUp = true ∧ s.dev.on R.MGT.PMB_CTL.EN = true ∧ s.dev.powerRails.length ≤ s.dev.powerRailLimit ∧ e = everyMs s.dev.mgt.powAt s.dev) ∧
    (∃ (x : RailRead) (v : BitVec 16) (e : Dev) (s : State), s.dev.mgtUp = true ∧ s.dev.on R.MGT.PMB_CTL.EN = true ∧ s.dev.powerRails.length ≤ s.dev.powerRailLimit ∧ e = everyMs s.dev.mgt.powAt s.dev ∧ s.dev.on (R.MGT.PMB_RAIL.EN x.rail.val) = true ∧ (s.dev.railS x.rail.val).faultAt = none ∧ x.pout = some v ∧ x.fails < 3) ∧
    (∃ (x : RailRead) (e : Dev) (s : State), s.dev.mgtUp = true ∧ s.dev.on R.MGT.PMB_CTL.EN = true ∧ s.dev.powerRails.length ≤ s.dev.powerRailLimit ∧ e = everyMs s.dev.mgt.powAt s.dev ∧ s.dev.on (R.MGT.PMB_RAIL.EN x.rail.val) = true ∧ (s.dev.railS x.rail.val).faultAt = none ∧ 3 ≤ x.fails) ∧
    (∃ (s : State), s.dev.mgtUp = true ∧ s.dev.on R.MGT.PMB_CTL.EN = true ∧ s.dev.powerRailLimit < s.dev.powerRails.length) ∧
    (∃ (r : Fin 8) (x : Nat) (s : State), (s.dev.railS r.val).faultAt = some x) ∧
    (∃ (ws on : List (Fin 8 × BitVec 16)) (s : State), s.dev.mgtUp = true ∧ s.dev.on R.MGT.PMB_CTL.EN = true ∧ on = ws.filter (fun x => s.dev.on (R.MGT.PMB_RAIL.EN x.1.val))) ∧
    (∃ (slack : BitVec 8) (r : Nat) (o : Out) (e : Dev) (s : State), s.dev.avsActs r ∧ e = everyMs s.dev.mgt.avsAt s.dev ∧ o = .pmbus (s.dev.get (R.MGT.PMB_RAIL.ADDR r)) (s.dev.get (R.MGT.PMB_RAIL.PAGE r)) 0x21 (s.dev.get R.MGT.AVS.MV + 10) ∧ 690 ≤ s.dev.get R.MGT.AVS.MV ∧ s.dev.get R.MGT.AVS.MV ≤ 790 ∧ s.dev.get R.MGT.AVS_LIM.VMIN ≤ s.dev.get R.MGT.AVS.MV + 10 ∧ s.dev.get R.MGT.AVS.MV + 10 ≤ s.dev.get R.MGT.AVS_LIM.VMAX ∧ slack.toNat < 4) ∧
    (∃ (slack : BitVec 8) (r : Nat) (o : Out) (e : Dev) (s : State), s.dev.avsActs r ∧ e = everyMs s.dev.mgt.avsAt s.dev ∧ o = .pmbus (s.dev.get (R.MGT.PMB_RAIL.ADDR r)) (s.dev.get (R.MGT.PMB_RAIL.PAGE r)) 0x21 (s.dev.get R.MGT.AVS.MV + 10) ∧ 690 ≤ s.dev.get R.MGT.AVS.MV ∧ s.dev.get R.MGT.AVS.MV ≤ 790 ∧ s.dev.get R.MGT.AVS_LIM.VMIN ≤ s.dev.get R.MGT.AVS.MV + 10 ∧ s.dev.get R.MGT.AVS.MV + 10 ≤ s.dev.get R.MGT.AVS_LIM.VMAX ∧ 4 ≤ slack.toNat ∧ slack.toNat ≤ 8) ∧
    (∃ (slack : BitVec 8) (r : Nat) (o : Out) (e : Dev) (s : State), s.dev.avsActs r ∧ e = everyMs s.dev.mgt.avsAt s.dev ∧ o = .pmbus (s.dev.get (R.MGT.PMB_RAIL.ADDR r)) (s.dev.get (R.MGT.PMB_RAIL.PAGE r)) 0x21 (s.dev.get R.MGT.AVS.MV + 10) ∧ 690 ≤ s.dev.get R.MGT.AVS.MV ∧ s.dev.get R.MGT.AVS.MV ≤ 790 ∧ s.dev.get R.MGT.AVS_LIM.VMIN ≤ s.dev.get R.MGT.AVS.MV + 10 ∧ s.dev.get R.MGT.AVS.MV + 10 ≤ s.dev.get R.MGT.AVS_LIM.VMAX ∧ 8 < slack.toNat ∧ s.dev.mgt.calm < 99) ∧
    (∃ (r : Nat) (o : Out) (e : Dev) (s : State), s.dev.avsActs r ∧ e = everyMs s.dev.mgt.avsAt s.dev ∧ o = .pmbus (s.dev.get (R.MGT.PMB_RAIL.ADDR r)) (s.dev.get (R.MGT.PMB_RAIL.PAGE r)) 0x21 (s.dev.get R.MGT.AVS.MV + 10) ∧ 690 ≤ s.dev.get R.MGT.AVS.MV ∧ s.dev.get R.MGT.AVS.MV ≤ 790 ∧ s.dev.get R.MGT.AVS_LIM.VMIN ≤ s.dev.get R.MGT.AVS.MV + 10 ∧ s.dev.get R.MGT.AVS.MV + 10 ≤ s.dev.get R.MGT.AVS_LIM.VMAX) ∧
    (∃ (slack : BitVec 8) (r : Nat) (s : State), s.dev.avsActs r ∧ 99 ≤ s.dev.mgt.calm ∧ 8 < slack.toNat ∧ 705 ≤ s.dev.get R.MGT.AVS.MV ∧ s.dev.get R.MGT.AVS.MV ≤ 800 ∧ s.dev.get R.MGT.AVS_LIM.VMIN + 5 ≤ s.dev.get R.MGT.AVS.MV ∧ s.dev.get R.MGT.AVS.MV ≤ s.dev.get R.MGT.AVS_LIM.VMAX + 5 ∧ s.dev.mgt.temps = []) ∧
    (∃ (l : Nat) (rest : List Nat) (e : LogEntry) (s : State), s.dev.ras.coresDown = false ∧ s.dev.persistQ = l :: rest ∧ KMap.get (fun _ => ({} : LogEntry)) s.dev.log (l % 8192) = e ∧ e.lseq = l ∧ e.count ≠ 0 ∧ s.dev.mgt.tokens ≠ 0 ∧ s.dev.bothNvm) ∧
    (∃ (l : Nat) (rest : List Nat) (e : LogEntry) (s : State), s.dev.ras.coresDown = false ∧ s.dev.persistQ = l :: rest ∧ KMap.get (fun _ => ({} : LogEntry)) s.dev.log (l % 8192) = e ∧ s.dev.mgt.tokens = 0) ∧
    (∃ (e : Dev) (s : State), e = reach (dtAddNs s.dev.mgt.refillAt 500000000) s.dev ∧ e.mgt.suppressed = 0) :=
  ⟨⟨{}, by decide +kernel⟩,
   ⟨0, 9, _, w [(R.MGT.STATUS.STATE, 1)] (fun d => { d with mgt := { d.mgt with hotAt := [(0, some 9)] } }), by decide +kernel, by decide +kernel, rfl⟩,
   ⟨3, 9, _, w [(R.MGT.STATUS.STATE, 1)] (fun d => { d with mgt := { d.mgt with hotAt := [(3, some 9)] } }), by decide +kernel, by decide +kernel, by decide +kernel, rfl⟩,
   ⟨9, w [(R.MGT.STATUS.STATE, 1)] (fun d => { d with mgt := { d.mgt with highAt := some 9 } }), by decide +kernel⟩,
   ⟨9, w [(R.MGT.STATUS.STATE, 1)] (fun d => { d with mgt := { d.mgt with lowAt := some 9, powerSteps := 1 } }), by decide +kernel⟩,
   ⟨9, w [(R.MGT.STATUS.STATE, 1)] (fun d => { d with mgt := { d.mgt with coolAt := some 9, hotSteps := 1 } }), by decide +kernel⟩,
   ⟨0x7fff, {}, by decide +kernel, by unfold Config.tripReading; split <;> decide⟩,
   ⟨_, w [(R.MGT.STATUS.STATE, 1), (R.MGT.PMB_CTL.EN, 1), (R.MGT.PMB_RAIL.EN 0, 1), (R.MGT.PMB_RAIL.POWER 0, 1), (R.MGT.PMB_RAIL.AVS 0, 1)], by decide +kernel, by decide +kernel, by decide +kernel, rfl⟩,
   ⟨{ rail := 0, pout := some 5 }, 5, _, w [(R.MGT.STATUS.STATE, 1), (R.MGT.PMB_CTL.EN, 1), (R.MGT.PMB_RAIL.EN 0, 1), (R.MGT.PMB_RAIL.POWER 0, 1), (R.MGT.PMB_RAIL.AVS 0, 1)], by decide +kernel, by decide +kernel, by decide +kernel, rfl, by decide +kernel⟩,
   ⟨{ rail := 0, pout := some 5, fails := 3 }, _, w [(R.MGT.STATUS.STATE, 1), (R.MGT.PMB_CTL.EN, 1), (R.MGT.PMB_RAIL.EN 0, 1), (R.MGT.PMB_RAIL.POWER 0, 1), (R.MGT.PMB_RAIL.AVS 0, 1)], by decide +kernel, by decide +kernel, by decide +kernel, rfl, by decide +kernel⟩,
   ⟨w [(R.MGT.STATUS.STATE, 1), (R.MGT.PMB_CTL.EN, 1), (R.MGT.PMB_RAIL.EN 0, 1), (R.MGT.PMB_RAIL.POWER 0, 1), (R.MGT.PMB_RAIL.AVS 0, 1), (R.MGT.PMB_CTL.SPEED, 0), (R.MGT.PMB_RAIL.EN 1, 1), (R.MGT.PMB_RAIL.POWER 1, 1)], by decide +kernel⟩,
   ⟨0, 9, w [] (setRail 0 { faultAt := some 9 }), by decide +kernel⟩,
   ⟨[(0, 5), (1, 6)], _, w [(R.MGT.STATUS.STATE, 1), (R.MGT.PMB_CTL.EN, 1), (R.MGT.PMB_RAIL.EN 0, 1), (R.MGT.PMB_RAIL.POWER 0, 1), (R.MGT.PMB_RAIL.AVS 0, 1)], by decide +kernel, by decide +kernel, rfl⟩,
   ⟨3, 0, _, _, w ([(R.MGT.STATUS.STATE, 1), (R.MGT.PMB_CTL.EN, 1), (R.MGT.PMB_RAIL.EN 0, 1), (R.MGT.PMB_RAIL.POWER 0, 1), (R.MGT.PMB_RAIL.AVS 0, 1)] ++ [(R.MGT.AVS.EN, 1), (R.MGT.AVS.MV, 750), (R.MGT.AVS_LIM.VMIN, 700), (R.MGT.AVS_LIM.VMAX, 800)]), by unfold Dev.avsActs; decide +kernel, rfl, rfl, by decide +kernel⟩,
   ⟨8, 0, _, _, w ([(R.MGT.STATUS.STATE, 1), (R.MGT.PMB_CTL.EN, 1), (R.MGT.PMB_RAIL.EN 0, 1), (R.MGT.PMB_RAIL.POWER 0, 1), (R.MGT.PMB_RAIL.AVS 0, 1)] ++ [(R.MGT.AVS.EN, 1), (R.MGT.AVS.MV, 750), (R.MGT.AVS_LIM.VMIN, 700), (R.MGT.AVS_LIM.VMAX, 800)]), by unfold Dev.avsActs; decide +kernel, rfl, rfl, by decide +kernel⟩,
   ⟨9, 0, _, _, w ([(R.MGT.STATUS.STATE, 1), (R.MGT.PMB_CTL.EN, 1), (R.MGT.PMB_RAIL.EN 0, 1), (R.MGT.PMB_RAIL.POWER 0, 1), (R.MGT.PMB_RAIL.AVS 0, 1)] ++ [(R.MGT.AVS.EN, 1), (R.MGT.AVS.MV, 750), (R.MGT.AVS_LIM.VMIN, 700), (R.MGT.AVS_LIM.VMAX, 800)]), by unfold Dev.avsActs; decide +kernel, rfl, rfl, by decide +kernel⟩,
   ⟨0, _, _, w ([(R.MGT.STATUS.STATE, 1), (R.MGT.PMB_CTL.EN, 1), (R.MGT.PMB_RAIL.EN 0, 1), (R.MGT.PMB_RAIL.POWER 0, 1), (R.MGT.PMB_RAIL.AVS 0, 1)] ++ [(R.MGT.AVS.EN, 1), (R.MGT.AVS.MV, 750), (R.MGT.AVS_LIM.VMIN, 700), (R.MGT.AVS_LIM.VMAX, 800)]), by unfold Dev.avsActs; decide +kernel, rfl, rfl, by decide +kernel⟩,
   ⟨9, 0, w ([(R.MGT.STATUS.STATE, 1), (R.MGT.PMB_CTL.EN, 1), (R.MGT.PMB_RAIL.EN 0, 1), (R.MGT.PMB_RAIL.POWER 0, 1), (R.MGT.PMB_RAIL.AVS 0, 1)] ++ [(R.MGT.AVS.EN, 1), (R.MGT.AVS.MV, 750), (R.MGT.AVS_LIM.VMIN, 700), (R.MGT.AVS_LIM.VMAX, 800)]) (fun d => { d with mgt := { d.mgt with calm := 99 } }), by unfold Dev.avsActs; decide +kernel, by decide +kernel⟩,
   ⟨5, [], { lseq := 5, count := 1 }, w [] (fun d => { d with persistQ := [5], log := [(5, { lseq := 5, count := 1 })], mgt := { d.mgt with tokens := 7 } }), join4 (by decide +kernel) ⟨by decide +kernel, by decide +kernel, by unfold Dev.bothNvm; decide +kernel⟩⟩,
   ⟨5, [], { lseq := 5, count := 1 }, w [] (fun d => { d with persistQ := [5], log := [(5, { lseq := 5, count := 1 })], mgt := { d.mgt with tokens := 0 } }), by decide +kernel⟩,
   ⟨_, {}, rfl, by decide +kernel⟩⟩

theorem witness_MailboxCommandsAreAnswered :
    (∃ (s : State), s.dev.mbxAsks 1 0) ∧
    (∃ (s : State), s.dev.mbxAsks 2 6 ∧ s.dev.bothNvm ∧ s.dev.arg 4 2 ≤ 500) ∧
    (∃ (s : State), s.dev.mbxAsks 3 12 ∧ 0xff00 ≤ s.dev.arg 0 2 ∧ s.dev.arg 2 1 ≤ 3) ∧
    (∃ (s : State), s.dev.mbxAsks 3 0 ∧ s.dev.mbxField 8 4 < 12) ∧
    (∃ (n : Nat) (s : State), s.dev.mbxAsks 0x10 4 ∧ s.dev.bothNvm ∧ n = s.dev.target ∧ s.dev.arg 0 4 ≤ 2 ^ 25) ∧
    (∃ (n len : Nat) (data : List Byte) (s : State), s.dev.mbxAsks 0x11 4 ∧ s.dev.bothNvm ∧ n = s.dev.target ∧ s.dev.mgt.imgLen = some len ∧ data = s.dev.mbxBytes 20 (s.dev.mbxField 8 4 - 4) ∧ s.dev.arg 0 4 + data.length ≤ len) ∧
    (∃ (n : Nat) (s : State), s.dev.mbxAsks 0x12 0 ∧ s.dev.bothNvm ∧ n = s.dev.target ∧ s.dev.slotFails 0 n = 0) ∧
    (∃ (n : Nat) (s : State), s.dev.mbxAsks 0x12 0 ∧ s.dev.bothNvm ∧ n = s.dev.target ∧ s.dev.slotFails 0 n ≠ 0 ∧ s.dev.slotFails 0 n ≠ 3) ∧
    (∃ (n : Nat) (s : State), s.dev.mbxAsks 0x13 0 ∧ s.dev.bothNvm ∧ n = s.dev.target ∧ s.dev.mgt.imgOk = true) ∧
    (∃ (n : Nat) (s : State), s.dev.mbxAsks 0x13 0 ∧ s.dev.bothNvm ∧ n = s.dev.target ∧ s.dev.mgt.imgOk = false) ∧
    (∃ (n : Nat) (s : State), s.dev.mbxAsks 0x14 0 ∧ s.dev.bothNvm ∧ s.dev.mgt.committed = some n) ∧
    (∃ (s : State), s.dev.mbxAsks 0x20 4 ∧ s.dev.bothNvm ∧ s.dev.arg 2 2 ≤ 500) ∧
    (∃ (lo n : Nat) (s : State), s.dev.mbxAsks 0x21 8 ∧ s.dev.bothNvm ∧ lo = s.dev.arg 0 2 ∧ n = s.dev.arg 2 2 ∧ s.dev.arg 4 4 = Config.serial % 2 ^ 32 ∧ lo + n ≤ s.dev.mapEntries.length) ∧
    (∃ (s : State), s.dev.mbxAsks 0x22 4 ∧ s.dev.bothNvm ∧ s.dev.arg 0 4 = Config.serial % 2 ^ 32) ∧
    (∃ (s : State), s.dev.mbxAsks 0x30 2 ∧ s.dev.ras.service = false ∧ s.dev.arg 0 2 < 43) ∧
    (∃ (s : State), s.dev.mbxAsks 0x30 2 ∧ s.dev.ras.service = true) ∧
    (∃ (s : State), s.dev.mbxAsks 0x31 0) ∧
    (∃ (s : State), s.dev.mbxAsks 0x40 36 ∧ s.dev.arg 32 4 = Config.serial % 2 ^ 32 ∧ s.dev.rootHash = []) ∧
    (∃ (s : State), s.dev.mbxAsks 0x40 36 ∧ s.dev.arg 32 4 = Config.serial % 2 ^ 32 ∧ s.dev.rootHash ≠ []) :=
  ⟨⟨asks 1 ([]) [], by unfold Dev.mbxAsks; decide +kernel⟩,
   ⟨asks 2 (leBytes 6 0) [], by unfold Dev.mbxAsks; decide +kernel, by unfold Dev.bothNvm; decide +kernel, by decide +kernel⟩,
   ⟨asks 3 (leBytes 4 0x1ff01 ++ leBytes 8 0) [], by unfold Dev.mbxAsks; decide +kernel, by decide +kernel⟩,
   ⟨asks 3 ([]) [], by unfold Dev.mbxAsks; decide +kernel, by decide +kernel⟩,
   ⟨_, asks 0x10 (leBytes 4 200) [], by unfold Dev.mbxAsks; decide +kernel, by unfold Dev.bothNvm; decide +kernel, rfl, by decide +kernel⟩,
   ⟨_, 200, _, asks 0x11 (leBytes 4 0 ++ [7#8]) [] (fun d => { d with mgt := { d.mgt with imgLen := some 200 } }), by unfold Dev.mbxAsks; decide +kernel, by unfold Dev.bothNvm; decide +kernel, rfl, by decide +kernel, rfl, by decide +kernel⟩,
   ⟨_, asks 0x12 ([]) [] (fun d => { goodNvm d with nvm := [(0, { (d |> goodNvm).nvmS 0 with slots := some { active := 1, len0 := 200 } })] }), by unfold Dev.mbxAsks; decide +kernel, by unfold Dev.bothNvm; decide +kernel, rfl, by decide +kernel⟩,
   ⟨_, asks 0x12 ([]) [], by unfold Dev.mbxAsks; decide +kernel, by unfold Dev.bothNvm; decide +kernel, rfl, by decide +kernel⟩,
   ⟨_, asks 0x13 ([]) [] (fun d => { d with mgt := { d.mgt with imgOk := true } }), by unfold Dev.mbxAsks; decide +kernel, by unfold Dev.bothNvm; decide +kernel, rfl, by decide +kernel⟩,
   ⟨_, asks 0x13 ([]) [], by unfold Dev.mbxAsks; decide +kernel, by unfold Dev.bothNvm; decide +kernel, rfl, by decide +kernel⟩,
   ⟨1, asks 0x14 ([]) [] (fun d => { d with mgt := { d.mgt with committed := some 1 } }), by unfold Dev.mbxAsks; decide +kernel, by unfold Dev.bothNvm; decide +kernel, by decide +kernel⟩,
   ⟨asks 0x20 (leBytes 4 0) [], by unfold Dev.mbxAsks; decide +kernel, by unfold Dev.bothNvm; decide +kernel, by decide +kernel⟩,
   ⟨_, _, asks 0x21 (leBytes 4 0 ++ leBytes 4 Config.serial) [], by unfold Dev.mbxAsks; decide +kernel, by unfold Dev.bothNvm; decide +kernel, rfl, rfl, Eq.trans (b := leVal (leBytes 4 Config.serial)) (by rfl) (leVal_four _), by decide +kernel⟩,
   ⟨asks 0x22 (leBytes 4 Config.serial) [], by unfold Dev.mbxAsks; decide +kernel, by unfold Dev.bothNvm; decide +kernel, Eq.trans (b := leVal (leBytes 4 Config.serial)) (by rfl) (leVal_four _)⟩,
   ⟨asks 0x30 (leBytes 2 42) [], by unfold Dev.mbxAsks; decide +kernel, by decide +kernel⟩,
   ⟨asks 0x30 (leBytes 2 0) [] (fun d => { d with ras := { d.ras with service := true } }), by unfold Dev.mbxAsks; decide +kernel, by decide +kernel⟩,
   ⟨asks 0x31 ([]) [], by unfold Dev.mbxAsks; decide +kernel⟩,
   ⟨asks 0x40 (List.replicate 32 0#8 ++ leBytes 4 Config.serial) [], by unfold Dev.mbxAsks; decide +kernel, Eq.trans (b := leVal (leBytes 4 Config.serial)) (by rfl) (leVal_four _), by decide +kernel⟩,
   ⟨asks 0x40 (List.replicate 32 0#8 ++ leBytes 4 Config.serial) [] (fun d => { d with rootHash := [7] }), by unfold Dev.mbxAsks; decide +kernel, Eq.trans (b := leVal (leBytes 4 Config.serial)) (by rfl) (leVal_four _), by decide +kernel⟩⟩

theorem witness_CalibrationRecipesAndPowerStates :
    (∃ (x : Nat) (s : State), s.dev.calMoves = true ∧ s.dev.on R.CAL.CTL.EN = true ∧ s.dev.get R.CAL.STATUS.ACTIVE = 0x3f ∧ (List.range 43).find? s.dev.due = some x) ∧
    (∃ (x : Nat) (res : BitVec 16) (codes : List Int) (s : State), s.dev.get R.CAL.STATUS.ACTIVE = x ∧ x < 43 ∧ resOk res.toNat = true ∧ calLimit x codes = false) ∧
    (∃ (x : Nat) (res : BitVec 16) (codes : List Int) (s : State), s.dev.get R.CAL.STATUS.ACTIVE = x ∧ x < 43 ∧ resOk res.toNat = true ∧ calLimit x codes = true) ∧
    (∃ (x : Nat) (res : BitVec 16) (s : State), s.dev.get R.CAL.STATUS.ACTIVE = x ∧ x < 43 ∧ resOk res.toNat = false) ∧
    (∃ (x : Fin 43) (i : Fin 4) (c g : Nat) (e : Dev) (s : State), s.dev.codesMove = true ∧ c = codeOf (s.dev.get (R.CAL.CODE.ABCD x.val)) i.val ∧ g = codeOf (s.dev.get (R.CAL.TGT.ABCD x.val)) i.val ∧ c ≠ g ∧ e = (s.dev.stepDue x.val i.val).elim s.dev (fun y => reach y s.dev) ∧ (x.val < 15 ∨ 18 < x.val)) ∧
    (∃ (x : Fin 43) (i : Fin 4) (c g : Nat) (e : Dev) (s : State), s.dev.codesMove = true ∧ c = codeOf (s.dev.get (R.CAL.CODE.ABCD x.val)) i.val ∧ g = codeOf (s.dev.get (R.CAL.TGT.ABCD x.val)) i.val ∧ c ≠ g ∧ e = (s.dev.stepDue x.val i.val).elim s.dev (fun y => reach y s.dev) ∧ 15 ≤ x.val ∧ x.val ≤ 18) ∧
    (∃ (r : Fin 8) (s : State), bit (s.dev.get R.TOP.RECIPE.VALID) r.val = true) ∧
    (∃ (r : Fin 8) (s : State), bit (s.dev.get R.TOP.RECIPE.VALID) r.val = false) ∧
    (∃ (rs : List ImgRec) (e : Dev) (s : State), s.dev.get R.TOP.RECIPE.STATE = 1 ∧ rs = s.dev.recipe s.dev.rcp.loading ∧ (recipeUnits rs).any s.dev.copyRuns = false ∧ rs.all ImgRec.classOk = true ∧ recipeRecs (fun _ => false) s.mem (rs.filter (fun r => r.isTable || r.isBatch)) s.dev = .next e) ∧
    (∃ (s : State), s.dev.get R.TOP.RECIPE.STATE = 1 ∧ (recipeUnits (s.dev.recipe s.dev.rcp.loading)).any s.dev.copyRuns = false ∧ (s.dev.recipe s.dev.rcp.loading).all ImgRec.classOk = false) ∧
    (∃ (s : State), s.dev.takesPower = true) ∧
    (∃ (s : State), s.dev.get R.TOP.STATE.MODE = 1 ∧ s.dev.get R.PWR.STATUS.STATE = 3) ∧
    (∃ (s : State), s.dev.get R.PWR.STATUS.STATE = 3 ∧ s.dev.on R.PWR.WAKE_EN.HOST = true) ∧
    (∃ (e : Dev) (s : State), s.dev.aon.off = false ∧ s.dev.get R.PWR.STATUS.STATE = 3 ∧ s.dev.on R.PWR.WAKE_EN.ALARM = true ∧ s.dev.aon.tripped = false ∧ e = reach (s.dev.get R.PWR.WAKE_DT.DT / 65536 * 65536) s.dev ∧ e.aon.tripped = false ∧ e.aon.off = false ∧ e.get R.PWR.STATUS.STATE = 3) ∧
    (∃ (i : Fin 8) (rising : Bool) (s : State), s.dev.aon.off = false ∧ s.dev.get R.PWR.STATUS.STATE = 3 ∧ s.dev.reads (28 + i.val) = true ∧ s.dev.on R.PWR.WAKE_EN.EVT = true ∧ bit (s.dev.get R.PWR.WAKE_EN.EVT_MASK) i.val = true ∧ rising = s.dev.on R.PWR.WAKE_EN.EVT_POL ∧ s.dev.aon.tripped = false) :=
  ⟨⟨5, w [(R.CAL.CTL.EN, 1), (R.CAL.STATUS.ACTIVE, 0x3f)] (fun d => setCal { d.cal with asked := [5], resBad := true } d), by decide +kernel⟩,
   ⟨5, 25000, [], w [(R.CAL.STATUS.ACTIVE, 5)], by decide +kernel⟩,
   ⟨5, 25000, [99], w [(R.CAL.STATUS.ACTIVE, 5)], by decide +kernel⟩,
   ⟨5, 1, w [(R.CAL.STATUS.ACTIVE, 5)], by decide +kernel⟩,
   ⟨5, 0, _, _, _, w [(R.CAL.CODE.ABCD 5, 1), (R.CAL.TGT.ABCD 5, 2)], by decide +kernel, rfl, rfl, by decide +kernel, rfl, by decide +kernel⟩,
   ⟨15, 0, _, _, _, w [(R.CAL.CODE.ABCD 15, 1), (R.CAL.TGT.ABCD 15, 2)], by decide +kernel, rfl, rfl, by decide +kernel, rfl, by decide +kernel⟩,
   ⟨2, w [(R.TOP.RECIPE.VALID, 4)], by decide +kernel⟩,
   ⟨2, w [], by decide +kernel⟩,
   ⟨_, _, w [(R.TOP.RECIPE.STATE, 1)], by decide +kernel, rfl, by decide +kernel, by decide +kernel, rfl⟩,
   ⟨w [(R.TOP.RECIPE.STATE, 1)] (fun d => { d with rcp := { d.rcp with store := [(0, [{ addr := 0x1b01100, count := 1, op := 1, cls := 3, words := [4] }])] } }), by decide +kernel⟩,
   ⟨w [(R.TOP.STATE.MODE, 1), (R.PWR.STATUS.STATE, 1)], by decide +kernel⟩,
   ⟨w [(R.TOP.STATE.MODE, 1), (R.PWR.STATUS.STATE, 3)], by decide +kernel⟩,
   ⟨w [(R.PWR.STATUS.STATE, 3), (R.PWR.WAKE_EN.HOST, 1)], by decide +kernel⟩,
   ⟨_, w [(R.PWR.STATUS.STATE, 3), (R.PWR.WAKE_EN.ALARM, 1), (R.PWR.WAKE_DT.DT, 65536)], join4 (by decide +kernel) ⟨rfl, by decide +kernel⟩⟩,
   ⟨0, _, w [(R.PWR.STATUS.STATE, 3), (R.PWR.WAKE_EN.EVT, 1), (R.PWR.WAKE_EN.EVT_MASK, 1)], join4 (by decide +kernel) ⟨by decide +kernel, rfl, by decide +kernel⟩⟩⟩

/-! ## Operands that no interface carries (WellFormed) -/

theorem test_wf_rows : (Instr.filler 0 [[]]).wf = false := by decide
theorem test_wf_row_of_four : (Instr.filler 0 [List.replicate 4 ⟨1, 0⟩]).wf = true := by decide
theorem test_wf_write_size : (Instr.registerWrite false 0 0 0 {}).wf = false := by decide
theorem test_wf_read_size : (Instr.registerRead false 0 4097).wf = false := by decide
theorem test_wf_bar2_write_length : (Instr.bar2Access 0 (some [1]) 2 false).wf = false := by decide
theorem test_wf_bar2_read_length : (Instr.bar2Access 0 none 0 false).wf = false := by decide
theorem test_wf_dram_granule : (Instr.dramRequest 0 63 (some [1, 2]) .clean).wf = false := by decide
theorem test_wf_descriptor : (Instr.descriptorFetch 0 [1]).wf = false := by decide
theorem test_wf_instruction : (Instr.move 0 [1] []).wf = false := by decide
theorem test_wf_status_frame : (Instr.statusFrame 0 0 (List.replicate 1501 0)).wf = false := by decide +kernel
theorem test_wf_rails : (Instr.powerRead (List.replicate 9 { rail := 0, pout := none })).wf = false := by decide
theorem test_wf_alerts : (Instr.smbalert (List.replicate 9 (0, 0))).wf = false := by decide

/-! ## Values that the spec works out -/

/-- The check values over the ASCII digits 1 to 9 (R121). -/
def digits : List Byte := (List.range 9).map (fun i => BitVec.ofNat 8 (0x31 + i))
theorem test_crc16 : crc16 digits = 0x29b1 := by decide +kernel
theorem test_crc32c : crc32c digits = 0xe3069283 := by decide +kernel

/-- The reset kernel at p = 8 (R204). -/
theorem test_kernel_phase_8 : resetKernel 8 = [-784, 15792, 1488, -112] := by decide +kernel

/-- The example of decoding an address, with four channels and after the retirement of CH1 (R362). -/
theorem test_dram_address : (dw [(R.DDR.CAP.ACTIVE, 15)]).locate 0x123456780 = (3, 0x48d15780) := by decide +kernel
theorem test_dram_address_three_channels : (dw [(R.DDR.CAP.ACTIVE, 13)]).locate 0x123456780 = (0, 0x61172780) := by decide +kernel

/-- The example of R407: prediction 414, m = 3, and the code 1, 0, 1 with K = 1. -/
theorem test_median_prediction : predictor 2 (415, 409, 410) = 414 := by decide
theorem test_residual : residual 10 414 412 = 3 := by decide +kernel
theorem test_rice_code : riceBits 10 1 (412, 3) = [true, false, true] := by decide +kernel

/-- The example of R306: acc = 12,345 gives 61. -/
theorem test_requantise :
    requant (dw [] (fun d => { d with crv := { d.crv with weights := [(4, 2 ^ 32 - 2000), (5, 0x6000 + 22 * 65536)] } }))
      ⟨6, 0, 0, 0, 4, 4, 1, 1, 1, 1, 0, 24, 8, 0⟩ 0 12345 = 61 := by decide +kernel

/-- The echo of reference machine A: PT_DELAY is 11,500 ps (R88, R133). -/
theorem test_echo_delay :
    (echoResp 0 (5000001420 * 65536 + 32768) ⟨2, BitVec.ofNat 64 (0x33 + 256 * 5 + 2 ^ 24 * 1398000)⟩
      (dw [(R.TIM.PT_DLASYM.PS 0, 500)] (fun d => setPort 0 { echo := some (5, 5000000000 * 65536) } d))).get
        (R.TIM.PT_DELAY.PS 0) = 11500 := by
  decide +kernel

/-- The kernel of the ejection example (chapter 12): its object and the tables of reference machine A. -/
def kernelA : ObjRec :=
  { obj with flags := 4096, first := 0, lines := 175, x0 := 3018, x1 := 3087, area := 9180, dtFirst := 3600000021000 * 65536
             leadT := (3600000021000 - 7980000) % 2 ^ 32, cls := [8640, 540, 0, 0, 0, 0, 0, 0, 0, 0, 0, 0, 0, 0, 0]
             full := [175, 9180, 0, 0, 0, 0, 0], fullCls := [8640, 540, 0, 0, 0, 0, 0, 0, 0, 0, 0, 0, 0, 0, 0], net := some 0, scores := [0, 4210] }
def machineA : Dev :=
  dw [(R.VRD.CTL.BAL, 1), (R.VRD.BAL_DIST.UM, 30000), (R.VRD.BAL_G.UMS2, 9810000), (R.VRD.BAL_DTMIN.NS, 0), (R.VRD.BAL_DTMAX.NS, 2 ^ 30),
      (R.VRD.DUR.BASE_US, 1000), (R.VRD.DUR_LINE.LINE, 6723)] (fun d => { d with bank := [(10, { act :=
    [(16, 3), (20, 0x141), (21, 12000), (32, 3), (36, 0x123), (37, 655), (48, 3), (52, 0x122), (53, 3277), (17408, 35917), (17409, 150000)] })] })
theorem test_verdict_of_rule_3 : machineA.decideRule kernelA 0 63 1 0 = some (3, 0) := by decide +kernel
theorem test_fire_duration : machineA.fireDur kernelA = 5595 := by decide +kernel
theorem test_fire_time :
    (machineA.delayOf kernelA 0 ⟨102, 2988, 3016, 0, false, 7, 6, 0, -1217⟩).1.map (fun t => fireAt kernelA t) =
      some ((3600000021000 + 36440000) % 2 ^ 48) := by decide +kernel

/-- State.reset: nothing pending, memory with nothing listed. -/
theorem test_reset_is_empty : State.reset.mem.wf = true ∧ State.reset.pending = [] ∧ State.reset.mem.bytes = [] := by decide

end Sys2Proof.Tests
end

section
/-!
The wrap-safe difference of R63: what the signed reading of a field gives in each half of its range, and the
comparisons of two DT values that follow from it.
-/
namespace Sys2Proof.Proofs
open Sys2Proof Sys2Proof.Machine

theorem sgn_of_mod_lt {w v : Nat} (h : v % 2 ^ w < 2 ^ (w - 1)) : sgn w v = (v % 2 ^ w : Nat) :=
  if_pos h

theorem sgn_of_le_mod {w v : Nat} (h : 2 ^ (w - 1) ≤ v % 2 ^ w) :
    sgn w v = ((v % 2 ^ w : Nat) : Int) - (2 ^ w : Nat) :=
  if_neg (Nat.not_lt.mpr h)

/-- A field in its upper half reads as negative, so only the zero field reads as 0. -/
theorem sgn_eq_zero_iff (w v : Nat) : sgn w v = 0 ↔ v % 2 ^ w = 0 := by
  have hlt : v % 2 ^ w < 2 ^ w := Nat.mod_lt v (Nat.two_pow_pos w)
  rcases Nat.lt_or_ge (v % 2 ^ w) (2 ^ (w - 1)) with hlow | hhigh
  · rw [sgn_of_mod_lt hlow, Int.natCast_eq_zero]
  · have hpos : 0 < 2 ^ (w - 1) := Nat.two_pow_pos (w - 1)
    rw [sgn_of_le_mod hhigh]
    omega

/-- For a DT value B the device reads (A - B) modulo 2^64 as a signed 64-bit field (R63). -/
theorem dtDiff_of_lt (a : Nat) {b : Nat} (hb : b < 2 ^ 64) : dtDiff a b = sgn 64 (a + 2 ^ 64 - b) := by
  rw [dtDiff, Nat.mod_eq_of_lt hb, sgn, sgn, Nat.mod_mod]

theorem dtDiff_eq_zero_iff {a b : Nat} (ha : a < 2 ^ 64) (hb : b < 2 ^ 64) : dtDiff a b = 0 ↔ a = b := by
  rw [dtDiff_of_lt a hb, sgn_eq_zero_iff]
  omega

theorem dtGe_iff (a b : Nat) : dtGe a b = true ↔ 0 ≤ dtDiff a b :=
  decide_eq_true_iff

/-- Settles O22, from the signed reading of each half of the 64-bit range. -/
theorem wrapSafeComparison : Obligations.WrapSafeComparison := by
  unfold Obligations.WrapSafeComparison
  intro a b ha hb
  have hdiff := dtDiff_of_lt a hb
  have hzero := dtDiff_eq_zero_iff ha hb
  refine ⟨fun hlow => ?_, fun hhigh => ?_, hzero, ?_⟩
  · rw [hdiff, sgn_of_mod_lt hlow]
  · rw [hdiff, sgn_of_le_mod hhigh]
    rfl
  · rw [dtGe_iff, le_iff_lt_or_eq, eq_comm (a := (0 : Int)), hzero]

end Sys2Proof.Proofs
end

section
/-!
The residual of R405: the `w`-bit field of an integer and its signed reading, the mapping of a signed residual to a
number, and the decoder's way back to the sample.
-/
namespace Sys2Proof.Proofs
open Sys2Proof Sys2Proof.Machine

theorem natCast_unsgn (w : Nat) (x : Int) : (unsgn w x : Int) = x % 2 ^ w := by
  rw [unsgn, Nat.cast_pow, Nat.cast_ofNat]
  exact Int.toNat_of_nonneg (Int.emod_nonneg x (by positivity))

theorem unsgn_lt (w : Nat) (x : Int) : unsgn w x < 2 ^ w := by
  have h := Int.emod_lt_of_pos x (b := 2 ^ w) (by positivity)
  rw [← natCast_unsgn] at h
  exact_mod_cast h

theorem unsgn_natCast {w v : Nat} (h : v < 2 ^ w) : unsgn w v = v := by
  rw [unsgn, ← Int.natCast_mod, Int.toNat_natCast, Nat.mod_eq_of_lt h]

theorem unsgn_congr {w : Nat} {x y : Int} (h : x ≡ y [ZMOD 2 ^ w]) : unsgn w x = unsgn w y := by
  zify
  rw [natCast_unsgn, natCast_unsgn, h]

/-- Read back as signed, the field of an integer keeps its value or, in the upper half, loses 2^w. -/
theorem sgn_unsgn_cases (w : Nat) (x : Int) :
    sgn w (unsgn w x) = x % 2 ^ w ∨ sgn w (unsgn w x) = x % 2 ^ w - 2 ^ w := by
  have hmod : unsgn w x % 2 ^ w = unsgn w x := Nat.mod_eq_of_lt (unsgn_lt w x)
  rcases Nat.lt_or_ge (unsgn w x % 2 ^ w) (2 ^ (w - 1)) with hlow | hhigh
  · rw [sgn_of_mod_lt hlow, hmod, natCast_unsgn]
    exact .inl rfl
  · rw [sgn_of_le_mod hhigh, hmod, natCast_unsgn, Nat.cast_pow, Nat.cast_ofNat]
    exact .inr rfl

theorem sgn_unsgn_modEq (w : Nat) (x : Int) : sgn w (unsgn w x) ≡ x [ZMOD 2 ^ w] := by
  rcases sgn_unsgn_cases w x with h | h <;> rw [h]
  · exact Int.mod_modEq x _
  · exact Int.sub_modulus_modEq_iff.mpr (Int.mod_modEq x _)

theorem sgn_mem_range {w : Nat} (hw : 0 < w) (v : Nat) :
    -(2 ^ (w - 1) : Int) ≤ sgn w v ∧ sgn w v ≤ (2 ^ (w - 1) : Int) - 1 := by
  have hdouble : 2 ^ w = 2 * 2 ^ (w - 1) := (mul_pow_sub_one hw.ne' 2).symm
  have hlt : v % 2 ^ w < 2 ^ w := Nat.mod_lt v (Nat.two_pow_pos w)
  have hcast : ((2 ^ (w - 1) : Nat) : Int) = 2 ^ (w - 1) := by norm_cast
  rw [← hcast]
  rcases Nat.lt_or_ge (v % 2 ^ w) (2 ^ (w - 1)) with hlow | hhigh
  · rw [sgn_of_mod_lt hlow]
    omega
  · rw [sgn_of_le_mod hhigh]
    omega

/-- The field of a difference below 2^w on either side reads as that difference or as its wrap by one 2^w. -/
theorem sgn_unsgn_wraps_once {w : Nat} {x : Int} (hlo : -2 ^ w < x) (hhi : x < 2 ^ w) :
    sgn w (unsgn w x) = x ∨ sgn w (unsgn w x) = x + 2 ^ w ∨ sgn w (unsgn w x) = x - 2 ^ w := by
  have hread := sgn_unsgn_cases w x
  rcases lt_or_ge x 0 with hneg | hnonneg
  · rw [← Int.add_emod_right, Int.emod_eq_of_lt (by omega) (by omega)] at hread
    omega
  · rw [Int.emod_eq_of_lt hnonneg hhi] at hread
    omega

/-- The mapping of a signed residual (R405). -/
def mapResidual (e : Int) : Nat := (if 0 ≤ e then 2 * e else -2 * e - 1).toNat

theorem natCast_mapResidual (e : Int) : (mapResidual e : Int) = if 0 ≤ e then 2 * e else -2 * e - 1 := by
  rw [mapResidual]
  split <;> omega

theorem residual_eq_mapResidual (dp : Nat) (p : Int) (s : Nat) :
    residual dp p s = mapResidual (sgn dp (unsgn dp (s - p))) :=
  (apply_ite Int.toNat _ _ _).symm

/-- An even number maps back to its half, an odd one to a negative residual. -/
theorem restore_mapResidual (dp : Nat) (p e : Int) : restore dp p (mapResidual e) = unsgn dp (p + e) := by
  have hmap := natCast_mapResidual e
  rw [restore]
  congr 2
  split at hmap
  · rw [if_pos (by omega)]
    omega
  · rw [if_neg (by omega)]
    omega

theorem restore_residual {dp s : Nat} (p : Int) (hs : s < 2 ^ dp) : restore dp p (residual dp p s) = s := by
  rw [residual_eq_mapResidual, restore_mapResidual]
  calc unsgn dp (p + sgn dp (unsgn dp (s - p)))
    _ = unsgn dp (p + (s - p)) := unsgn_congr ((sgn_unsgn_modEq dp (s - p)).add_left p)
    _ = s := by rw [add_sub_cancel, unsgn_natCast hs]

/-- Settles O54: the residual is the signed reading of the field of s - p, and restoring undoes its mapping. -/
theorem residualsAreWrapped : Obligations.ResidualsAreWrapped := by
  unfold Obligations.ResidualsAreWrapped
  intro d p s hd _ hp hs
  have hp' : (p : Int) < 2 ^ d := by exact_mod_cast hp
  have hs' : (s : Int) < 2 ^ d := by exact_mod_cast hs
  refine ⟨⟨sgn d (unsgn d (s - p)), ?_, ?_, ?_, ?_⟩, fun e _ _ => ?_, restore_residual p hs⟩
  · exact (sgn_mem_range (by omega) _).1
  · exact (sgn_mem_range (by omega) _).2
  · exact sgn_unsgn_wraps_once (by omega) (by omega)
  · rw [residual_eq_mapResidual, natCast_mapResidual]
  · rw [← mapResidual, restore_mapResidual, natCast_unsgn]

end Sys2Proof.Proofs
end

section
/-!
The length of a coded line (R406 to R409): the code of each sample, the bytes of a block, and the sum over the
blocks of a line.
-/
namespace Sys2Proof.Proofs
open Sys2Proof Sys2Proof.Machine

@[simp] theorem length_lowBits (n v : Nat) : (lowBits n v).length = n := by
  induction n generalizing v with
  | zero => rfl
  | succ n ih => rw [lowBits, List.length_cons, ih]

@[simp] theorem length_residuals (dp pred : Nat) (prev refPrev : Option Nat) (ref : Option (List Nat)) (xs : List Nat) :
    (residuals dp pred prev refPrev ref xs).length = xs.length := by
  induction xs generalizing prev refPrev ref with
  | nil => rfl
  | cons s xs ih => rw [residuals, List.length_cons, ih, List.length_cons]

theorem cdiv_zero {n : Nat} (hn : 0 < n) : cdiv 0 n = 0 :=
  Nat.div_eq_of_lt (by omega)

/-- A ceiling counts one more for each started n. -/
theorem cdiv_sub_add_one {a n : Nat} (hn : 0 < n) (ha : 0 < a) : cdiv (a - n) n + 1 = cdiv a n := by
  have hstart : cdiv a n = (a - 1) / n + 1 := by
    rw [cdiv, ← Nat.add_div_right (a - 1) hn, show a + n - 1 = a - 1 + n by omega]
  rw [hstart]
  rcases Nat.le_total a n with hle | hge
  · rw [Nat.sub_eq_zero_of_le hle, cdiv_zero hn, Nat.div_eq_of_lt (by omega)]
  · rw [cdiv, show a - n + n - 1 = a - 1 by omega]

theorem length_piecesOf {α : Type} {n : Nat} (hn : 0 < n) {fuel : Nat} {xs : List α} (hfuel : xs.length ≤ n * fuel) :
    (piecesOf n fuel xs).length = cdiv xs.length n := by
  induction fuel generalizing xs with
  | zero =>
    rw [Nat.le_zero.mp hfuel, cdiv_zero hn]
    rfl
  | succ fuel ih =>
    cases xs with
    | nil => exact (cdiv_zero hn).symm
    | cons x xs =>
      have hrest : ((x :: xs).drop n).length ≤ n * fuel := by
        rw [List.length_drop]
        exact Nat.sub_le_iff_le_add.mpr hfuel
      rw [piecesOf, if_neg (by simp), List.length_cons, ih hrest, List.length_drop,
        cdiv_sub_add_one hn (List.length_pos_of_ne_nil (List.cons_ne_nil x xs))]

theorem length_packBits (bs : List Bool) : (packBits bs).length = cdiv bs.length 8 := by
  rw [packBits, List.length_map, length_piecesOf (by decide) (by omega)]

/-- No code is longer than the escape, four bits and the sample, as long as K is within the depth. -/
theorem length_riceBits_le {dp k : Nat} (hk : k ≤ dp) (e : Nat × Nat) : (riceBits dp k e).length ≤ dp + 4 := by
  rw [riceBits]
  split
  · simp only [List.length_append, List.length_replicate, List.length_singleton, length_lowBits]
    omega
  · simp

theorem riceK_le {n S top fuel k : Nat} (hk : k ≤ top) : riceK n S top fuel k ≤ top := by
  induction fuel generalizing k with
  | zero => exact hk
  | succ fuel ih =>
    rw [riceK]
    split
    · exact hk
    · exact ih (by omega)

/-- The bits that one sample takes at most (R409). -/
def sampleBits (dp : Nat) (raw : Bool) : Nat := if raw then dp else dp + 4

theorem codedBound_block (dp : Nat) (raw : Bool) {n : Nat} (hpos : 0 < n) (hle : n ≤ 64) :
    codedBound dp n raw = 1 + cdiv (n * sampleBits dp raw) 8 := by
  rw [codedBound, show cdiv n 64 = 1 by rw [cdiv]; omega, sampleBits]

/-- A full block takes a whole number of bytes within the bound, so cutting blocks off a line adds nothing. -/
theorem codedBound_cut_block (dp n : Nat) (raw : Bool) :
    codedBound dp (min 64 n) raw + codedBound dp (n - 64) raw = codedBound dp n raw := by
  rcases Nat.le_total n 64 with hle | hge
  · rw [min_eq_right hle, Nat.sub_eq_zero_of_le hle]
    simp [codedBound, cdiv_zero]
  · obtain ⟨m, rfl⟩ := Nat.exists_eq_add_of_le hge
    rw [min_eq_left hge, Nat.add_sub_cancel_left]
    simp only [codedBound, cdiv, Nat.add_mul]
    omega

theorem cdiv_le_cdiv {a b : Nat} (h : a ≤ b) (n : Nat) : cdiv a n ≤ cdiv b n :=
  Nat.div_le_div_right (by omega)

theorem length_packBits_flatMap_le {α : Type} {f : α → List Bool} {w : Nat} {xs : List α}
    (hf : ∀ x ∈ xs, (f x).length ≤ w) : (packBits (xs.flatMap f)).length ≤ cdiv (xs.length * w) 8 := by
  rw [length_packBits, List.length_flatMap]
  refine cdiv_le_cdiv ?_ 8
  simpa using List.sum_le_card_nsmul (xs.map fun x => (f x).length) w (by simpa using hf)

theorem length_codeBlock_le (dp pred : Nat) (raw : Bool) {xs : List (Nat × Nat)} (hpos : 0 < xs.length)
    (hle : xs.length ≤ 64) : (codeBlock dp pred raw xs).bytes.length ≤ codedBound dp xs.length raw := by
  rw [codedBound_block dp raw hpos hle, codeBlock, sampleBits, Nat.add_comm]
  cases raw with
  | true => exact Nat.succ_le_succ (length_packBits_flatMap_le fun e _ => (length_lowBits dp e.1).le)
  | false =>
    rw [if_neg Bool.false_ne_true]
    split
    · exact Nat.succ_le_succ (Nat.zero_le _)
    · have hk : riceK xs.length (sumNat (xs.map Prod.snd)) (min 14 dp) 15 0 ≤ dp :=
        (riceK_le (Nat.zero_le _)).trans (min_le_right 14 dp)
      exact Nat.succ_le_succ (length_packBits_flatMap_le fun e _ => length_riceBits_le hk e)

theorem bytes_foldl_add (c : Coded) (cs : List Coded) :
    (cs.foldl Coded.add c).bytes = c.bytes ++ cs.flatMap Coded.bytes := by
  induction cs generalizing c with
  | nil => simp
  | cons x cs ih => rw [List.foldl_cons, ih, Coded.add, List.flatMap_cons, List.append_assoc]

theorem length_flatMap_codeBlock_le (dp pred : Nat) (raw : Bool) (fuel : Nat) (xs : List (Nat × Nat)) :
    (((piecesOf 64 fuel xs).map (codeBlock dp pred raw)).flatMap Coded.bytes).length ≤ codedBound dp xs.length raw := by
  induction fuel generalizing xs with
  | zero => exact Nat.zero_le _
  | succ fuel ih =>
    cases xs with
    | nil => exact Nat.zero_le _
    | cons x xs =>
      have hhead := length_codeBlock_le dp pred raw (xs := (x :: xs).take 64) (by simp) (by simp)
      have htail := ih ((x :: xs).drop 64)
      rw [List.length_take] at hhead
      rw [List.length_drop] at htail
      rw [piecesOf, if_neg (by simp), List.map_cons, List.flatMap_cons, List.length_append,
        ← codedBound_cut_block dp (x :: xs).length raw]
      exact Nat.add_le_add hhead htail

theorem length_codeLine_le (dp pred : Nat) (raw : Bool) (ref : Option (List Nat)) (xs : List Nat) :
    (codeLine dp pred raw ref xs).bytes.length ≤ codedBound dp xs.length raw := by
  rw [codeLine, bytes_foldl_add]
  have hblocks := length_flatMap_codeBlock_le dp pred raw (xs.length / 64 + 1) (residuals dp pred none none ref xs)
  rwa [length_residuals] at hblocks

/-- Settles O55, block by block: the bound of R409 grows by a whole number of bytes with each full block. -/
theorem codedLinesAreBounded : Obligations.CodedLinesAreBounded := by
  unfold Obligations.CodedLinesAreBounded
  intro d pred ref xs _ _ _
  exact ⟨length_codeLine_le d pred false ref xs, length_codeLine_le d pred true ref xs⟩

end Sys2Proof.Proofs
end

section
/-!
The queue and its steps: every command is a `run` of a meaning that never refuses, so that what `run` keeps every
step keeps (Architecture and flow of work; DRAM controller, Address map).
-/
namespace Sys2Proof.Proofs
open Sys2Proof Sys2Proof.Machine

/-- An outcome that is no refusal. -/
inductive Meant {σ : Type} : Host.Outcome σ Fault Refusal → Prop
  | next (d : σ) : Meant (.next d)
  | fault (e : Fault) : Meant (.fault e)

@[simp] theorem meant_next {σ : Type} (d : σ) : Meant (.next d : Host.Outcome σ Fault Refusal) := .next d
@[simp] theorem meant_fault {σ : Type} (e : Fault) : Meant (.fault e : Host.Outcome σ Fault Refusal) := .fault e

theorem not_meant_refused {σ : Type} (r : Refusal) : ¬ Meant (.refused r : Host.Outcome σ Fault Refusal) := nofun

theorem Meant.ne_refused {σ : Type} {o : Host.Outcome σ Fault Refusal} (h : Meant o) (r : Refusal) : o ≠ .refused r :=
  fun hr => not_meant_refused r (hr ▸ h)

theorem meant_ite {σ : Type} {c : Prop} [Decidable c] {x y : Host.Outcome σ Fault Refusal} (hx : Meant x) (hy : Meant y) :
    Meant (if c then x else y) := by
  split <;> assumption

theorem meant_andThen {x : Host.Outcome Dev Fault Refusal} {f : Dev → Host.Outcome Dev Fault Refusal} (hx : Meant x)
    (hf : ∀ d, Meant (f d)) : Meant (andThen x f) := by
  cases x with
  | next d => exact hf d
  | fault e => exact meant_fault e
  | refused r => exact absurd hx (not_meant_refused r)

/-- The command is a `run` of a meaning that never refuses, on a DRAM that is canonical where the block's is. -/
def Runs (o : Host.Outcome State Fault Refusal) (s : State) : Prop :=
  ∃ f m, o = run f { s with mem := m } ∧ (s.mem.wf = true → m.wf = true) ∧ ∀ m d, Meant (f m d)

theorem runs_run {f : Mem → Dev → Host.Outcome Dev Fault Refusal} (hf : ∀ m d, Meant (f m d)) (s : State) : Runs (run f s) s :=
  ⟨f, s.mem, rfl, id, hf⟩

theorem runs_total (f : Mem → Dev → Dev) (s : State) : Runs (total f s) s := runs_run (fun _ _ => meant_next _) s

theorem runs_onCh {f : Mem → Dev → Host.Outcome Dev Fault Refusal} (c : Nat) (hf : ∀ m d, Meant (f m d)) (s : State) :
    Runs (onCh c f s) s := by
  refine runs_run (fun m d => ?_) s
  split
  · exact meant_fault _
  · exact hf m d

theorem runs_imageCmd (f : Mem → Dev → Dev) (s : State) : Runs (imageCmd f s) s := by
  refine runs_run (fun m d => ?_) s
  split
  · exact meant_fault _
  · exact meant_next _

/-! ## The meanings that can stop -/

theorem meant_jobStart (e : Nat) (m : Mem) (d : Dev) : Meant (jobStart e m d) := by
  simp only [jobStart]
  repeat' apply meant_ite
  all_goals simp

theorem meant_testGo (m : Mem) (d : Dev) : Meant (testGo m d) :=
  meant_ite (meant_fault _) (meant_next _)

theorem meant_verdict (objRoom tagRoom : Bool) (d : Dev) : Meant (verdict objRoom tagRoom d) := by
  unfold verdict
  split
  · exact meant_next d
  · refine meant_ite (meant_next _) ?_
    dsimp only
    split
    · exact meant_fault _
    · exact meant_next _

theorem meant_writeWin (image : Bool) (w : WinId) (inst off v : Nat) (d : Dev) : Meant (writeWin image w inst off v d) := by
  unfold writeWin
  split
  case h_10 => split <;> simp
  all_goals simp

theorem meant_unitEffect (code inst base o lo n v : Nat) (old d : Dev) : Meant (unitEffect code inst base o lo n v old d) := by
  unfold unitEffect
  refine meant_ite (meant_next _) ?_
  split
  case h_7 => exact meant_ite (meant_ite (meant_fault _) (meant_next _)) (meant_next _)
  case h_15 => exact meant_ite (meant_next _) (meant_ite (meant_next _) (meant_next _))
  all_goals simp

theorem meant_jobEffect (code o lo n v : Nat) (m : Mem) (d : Dev) : Meant (jobEffect code o lo n v m d) :=
  meant_ite (meant_ite (meant_jobStart ..) (meant_ite (meant_next _) (meant_next _)))
    (meant_ite (meant_testGo ..) (meant_next _))

theorem meant_writeAt (image : Bool) (a size v : Nat) (m : Mem) (d : Dev) : Meant (writeAt image a size v m d) := by
  unfold writeAt
  split
  · exact meant_ite (meant_fault _) (meant_andThen (meant_unitEffect ..) fun _ => meant_jobEffect ..)
  · exact meant_writeWin ..
  · exact meant_next d

theorem meant_writeWords (r : ImgRec) (m : Mem) (ws : List Nat) (a : Nat) (d : Dev) : Meant (writeWords r m a ws d) := by
  induction ws generalizing a d with
  | nil => exact meant_next d
  | cons w ws ih => exact meant_ite (meant_next _) (meant_andThen (meant_writeAt ..) fun d => ih _ _)

/-! ## Images and recipes -/

theorem meant_applyRec (m : Mem) (r : ImgRec) (x : Applied) : Meant (applyRec m r x) := by
  have words (a : Nat) (ws : List Nat) (q : ImgRec) (d : Dev) := meant_writeWords q m ws a d
  unfold applyRec
  refine meant_ite (meant_next x) (meant_ite (meant_next _) ?_)
  dsimp only
  split
  case h_4 => exact meant_ite (meant_next _) (meant_next _)
  all_goals
    split
    · exact meant_next _
    · exact meant_fault _
    · next h => exact absurd h ((words _ _ _ _).ne_refused _)

theorem meant_applyRecs (m : Mem) (rs : List ImgRec) (x : Applied) : Meant (applyRecs m rs x) := by
  induction rs generalizing x with
  | nil => exact meant_next _
  | cons r rs ih =>
    unfold applyRecs
    split
    · exact ih _
    · exact meant_fault _
    · next h => exact absurd h ((meant_applyRec m r x).ne_refused _)

theorem meant_applySection (m : Mem) (b : List Byte) (ty : Nat) (x : Applied) : Meant (applySection m b ty x) :=
  meant_ite (meant_applyRecs ..) (meant_fault _)

/-- The parts of an image follow each other as long as no poll times out. -/
theorem meant_nextApplied {o : Host.Outcome Applied Fault Refusal} {f : Applied → Host.Outcome Applied Fault Refusal}
    (ho : Meant o) (hf : ∀ x, Meant (f x)) :
    Meant (match o with
      | .next x => if x.timeout then .next x else f x
      | .fault e => .fault e
      | .refused e => .refused e) := by
  cases o with
  | next x => exact meant_ite (meant_next x) (hf x)
  | fault e => exact meant_fault e
  | refused r => exact absurd ho (not_meant_refused r)

theorem meant_applyImage (m : Mem) (b : List Byte) (d : Dev) : Meant (applyImage m b d) := by
  generalize hF : @applyImage = F
  delta applyImage at hF
  subst hF
  beta_reduce
  lift_lets
  intro d0 prof rcp next
  have hprof := meant_applyRecs m [{ addr := 0x200, count := 1, op := 1, cls := 0, words := [fieldAt b 24 4] }]
    { dev := { d with imgWord := [] } }
  generalize applyRecs m _ _ = o at hprof
  exact meant_nextApplied hprof fun _ => meant_nextApplied (meant_applySection ..) fun _ =>
    meant_nextApplied (meant_applySection ..) fun _ =>
      meant_nextApplied (meant_ite (meant_applySection ..) (meant_ite (meant_next _) (meant_fault _))) fun _ => meant_next _

theorem meant_recipeRec (now : Bool) (m : Mem) (r : ImgRec) (d : Dev) : Meant (recipeRec now m r d) := by
  have fold (xs : List (Nat × Nat)) (o : Host.Outcome Dev Fault Refusal) (ho : Meant o) :
      Meant (xs.foldl (fun o x => andThen o (fun d => writeAt now x.1 4 x.2 m (settle x.1 d))) o) := by
    induction xs generalizing o with
    | nil => exact ho
    | cons x xs ih => exact ih _ (meant_andThen ho fun d => meant_writeAt ..)
  exact meant_ite (meant_next _) (fold _ _ (meant_next d))

theorem meant_recipeRecs (now : ImgRec → Bool) (m : Mem) (rs : List ImgRec) (d : Dev) : Meant (recipeRecs now m rs d) := by
  have fold (o : Host.Outcome Dev Fault Refusal) (ho : Meant o) :
      Meant (rs.foldl (fun o r => andThen o (recipeRec (now r) m r)) o) := by
    induction rs generalizing o with
    | nil => exact ho
    | cons r rs ih => exact ih _ (meant_andThen ho fun d => meant_recipeRec ..)
  exact fold _ (meant_next d)

theorem meant_recipeArmed (m : Mem) (d : Dev) : Meant (recipeArmed m d) :=
  meant_ite (meant_next d) (meant_ite (meant_fault _) (meant_andThen (meant_recipeRecs ..) fun _ => meant_next _))

theorem meant_recipeApply (m : Mem) (d : Dev) : Meant (recipeApply m d) :=
  meant_andThen (meant_recipeRecs ..) fun _ => meant_next _

theorem meant_batchStart (m : Mem) (d : Dev) : Meant (batchStart m d) :=
  meant_ite (meant_next d) (meant_andThen (meant_ite (meant_recipeApply ..) (meant_next _)) fun _ => meant_next _)

/-! ## Start-up -/

/-- Steps 3 to 11 by what step 4 finds and step 6 makes of the image. The kernel compares two matches by evaluating what
they match on, so `bootFrom3` is unfolded as a constant here, and never again. -/
theorem bootFrom3_eq {kind : BootKind} {env : BootEnv} {m : Mem} {d d' : Dev} {b : List Byte} {f : Nat}
    {o : Host.Outcome Applied Fault Refusal} (hb : bootImage kind env.nvm d = ((b, f), d'))
    (ho : applyImage m b (put R.TOP.STATE.STEP 6 (if kind = .rebase then d' else setQual 2 d')) = o) :
    bootFrom3 kind env m d =
      if f ≠ 0 then .next (bootFail f (if kind = .rebase then d' else setQual 2 d'))
      else match (generalizing := false) o with
        | .next x =>
          if x.timeout then .next (bootFail 6 x.dev)
          else match x.dev.layoutErr env.trainFails with
            | some w => .fault (.hostError w)
            | none => .next (bootRun kind env d.dt x.dev)
        | .fault r => .fault r
        | .refused r => .refused r := by
  have key : ∀ F, F = @bootFrom3 → F kind env m d = bootFrom3 kind env m d := fun F hF => hF ▸ rfl
  rw [← key _ rfl]
  generalize hF : @bootFrom3 = F
  delta bootFrom3 at hF
  subst hF
  beta_reduce
  rw [hb]
  dsimp only
  rw [ho] <;> rfl

theorem meant_bootFrom3 (kind : BootKind) (env : BootEnv) (m : Mem) (d : Dev) : Meant (bootFrom3 kind env m d) := by
  rcases hb : bootImage kind env.nvm d with ⟨⟨b, f⟩, d'⟩
  have ho := meant_applyImage m b (put R.TOP.STATE.STEP 6 (if kind = .rebase then d' else setQual 2 d'))
  rw [bootFrom3_eq hb rfl]
  generalize applyImage m b _ = o at ho ⊢
  cases ho with
  | fault e => exact meant_ite (meant_next _) (meant_fault e)
  | next x =>
    refine meant_ite (meant_next _) (meant_ite (meant_next _) ?_)
    split <;> simp

theorem meant_bootFrom2 (kind : BootKind) (env : BootEnv) (m : Mem) (d : Dev) : Meant (bootFrom2 kind env m d) :=
  meant_ite (meant_next _) (meant_bootFrom3 ..)

theorem meant_rebaseCmd (key : Nat) (env : BootEnv) (m : Mem) (d : Dev) : Meant (rebaseCmd key env m d) :=
  meant_ite (meant_next _) (meant_ite (meant_bootFrom3 ..) (meant_next _))

theorem meant_wake (src : Nat) (env : BootEnv) (m : Mem) (d : Dev) : Meant (wake src env m d) :=
  meant_ite (meant_next _) (meant_ite (meant_bootFrom2 ..) (meant_ite (meant_next _) (meant_next _)))

/-! ## Host writes -/

theorem meant_bar0Write (a size v : Nat) (env : BootEnv) (m : Mem) (d : Dev) : Meant (bar0Write a size v env m d) :=
  meant_ite (meant_fault _) (meant_ite (meant_fault _) (meant_ite (meant_rebaseCmd ..)
    (meant_andThen (meant_writeAt ..) fun _ => meant_next _)))

theorem meant_hostWrite (user : Bool) (a size v : Nat) (env : BootEnv) (m : Mem) (d : Dev) :
    Meant (hostWrite user a size v env m d) := by
  refine meant_ite (meant_next _) (meant_ite (meant_next _) (meant_ite (meant_next _) ?_))
  split
  · exact meant_next _
  · exact meant_bar0Write ..

/-! ## Every command -/

theorem runs_rowsNow (p : Nat) (rows : List (List Blk)) (s : State) : Runs (rowsNow p rows s) s := by
  refine runs_run (fun m d => ?_) s
  split <;> simp

/-- Every command of the instruction table is such a run. The commands without a branch that stops are `total`. -/
theorem exec_runs (c : Instr) (s : State) : Runs (exec c s) s := by
  cases c
  all_goals dsimp only [exec]
  case descriptorFetch => exact runs_onCh _ (fun _ _ => meant_next _) s
  case reportBatch => exact runs_onCh _ (fun _ _ => meant_next _) s
  case move => exact runs_onCh _ (fun _ _ => meant_ite (meant_fault _) (meant_next _)) s
  case descriptorComplete =>
    refine runs_onCh _ (fun m d => meant_ite (meant_next _) ?_) s
    split
    · exact meant_next d
    · exact meant_ite (meant_next _) (meant_ite (meant_next _) (meant_ite (meant_next _)
        (meant_ite (meant_fault _) (meant_next _))))
  case bar2Access =>
    refine runs_run (fun m d => meant_ite (meant_next _) (meant_ite (meant_next _) ?_)) s
    split
    · exact meant_ite (meant_next _) (meant_ite (meant_fault _) (meant_ite (meant_next _) (meant_next _)))
    · exact meant_ite (meant_next _) (meant_next _)
  case rateWrite => exact runs_run (fun _ _ => meant_ite (meant_fault _) (meant_next _)) s
  case rawPacket p rows => exact runs_rowsNow p.val rows s
  case metadata p rows => exact runs_rowsNow p.val rows s
  case camStatus p rows => exact runs_rowsNow p.val rows s
  case filler p rows => exact runs_rowsNow p.val rows s
  case regResp p rows => exact runs_rowsNow p.val rows s
  case maskMark p rows => exact runs_rowsNow p.val rows s
  case echoResp =>
    refine runs_run (fun m d => ?_) s
    split <;> simp
  case ringSlotWritten =>
    refine runs_run (fun m d => meant_ite (meant_next _) ?_) s
    split <;> simp
  case latheLineOutput =>
    refine runs_run (fun m d => meant_ite ?_ (meant_next _)) s
    split <;> simp
  case guestLineStart =>
    refine runs_run (fun m d => meant_ite (meant_next _) ?_) s
    split
    · exact meant_next d
    · split <;> simp
  case viewLine => exact runs_imageCmd _ s
  case fusionDeadline => exact runs_imageCmd _ s
  case ptmDialogue => exact runs_run (fun _ _ => meant_ite (meant_next _) (meant_ite (meant_fault _) (meant_next _))) s
  case jobStart e => exact runs_run (meant_jobStart e.val) s
  case patchCompute => exact runs_run (fun _ _ => meant_ite (meant_fault _) (meant_next _)) s
  case verdict => exact runs_run (fun _ _ => meant_verdict ..) s
  case startUp => exact runs_run (fun _ _ => meant_ite (meant_bootFrom2 ..) (meant_next _)) s
  case refclkDetected => exact runs_run (fun _ _ => meant_ite (meant_bootFrom2 ..) (meant_next _)) s
  case supplyRemoval => exact ⟨_, {}, rfl, fun _ => rfl, fun _ _ => meant_next _⟩
  case rebase => exact runs_run (fun _ _ => meant_ite (meant_rebaseCmd ..) (meant_next _)) s
  case wakeAlarm => exact runs_run (fun _ _ => meant_ite (meant_wake ..) (meant_next _)) s
  case wakeEvent => exact runs_run (fun _ _ => meant_ite (meant_wake ..) (meant_next _)) s
  case perstNRelease => exact runs_run (fun _ _ => meant_ite (meant_wake ..) (meant_next _)) s
  case powerRead => exact runs_run (fun _ _ => meant_ite (meant_next _) (meant_ite (meant_fault _) (meant_next _))) s
  case testGo => exact runs_run (fun _ _ => meant_testGo ..) s
  case recipeArmed => exact runs_run meant_recipeArmed s
  case batchStart => exact runs_run meant_batchStart s
  case cmpTimeWrite n half value =>
    refine runs_run (fun m d => ?_) s
    cases half with
    | none => exact meant_writeAt ..
    | some w => exact meant_writeAt ..
  case registerWrite user addr size value env => exact runs_run (meant_hostWrite user addr.toNat size value.toNat env) s
  case rsqClear => exact runs_run (fun _ _ => meant_ite (meant_hostWrite ..) (meant_next _)) s
  all_goals exact runs_total _ s

/-- What every such run keeps: the queue, the canonical DRAM, and no effect outstanding. -/
theorem Runs.next {o : Host.Outcome State Fault Refusal} {s t : State} (ho : Runs o s) (h : o = .next t) :
    t.pending = s.pending ∧ t.settled ∧ (s.mem.wf = true → t.Inv) := by
  obtain ⟨f, m, rfl, hm, -⟩ := ho
  obtain ⟨d, -, ht⟩ := run_next h
  exact ⟨by rw [ht], by rw [ht]; rfl, fun hw => run_inv h (hm hw)⟩

theorem Runs.meant {o : Host.Outcome State Fault Refusal} {s : State} (ho : Runs o s) : Meant o := by
  obtain ⟨f, m, rfl, -, hf⟩ := ho
  unfold run
  split
  · exact meant_next _
  · exact meant_fault _
  · next hr => exact absurd hr ((hf _ _).ne_refused _)

/-- Settles O5, from the form that every command has. -/
theorem commandsLeaveTheQueue : Obligations.CommandsLeaveTheQueue := by
  unfold Obligations.CommandsLeaveTheQueue
  intro c s
  refine ⟨(exec_runs c s).meant.ne_refused, fun t h => ?_⟩
  obtain ⟨hq, hs, -⟩ := (exec_runs c s).next h
  exact ⟨hq, hs⟩

theorem step_runs (s : State) : Runs (step s) { s with pending := s.pending.tail } := by
  obtain ⟨q, m, d⟩ := s
  cases q with
  | nil => exact runs_total (fun _ d => tick d) _
  | cons c rest => exact exec_runs c _

/-- Settles O4, from the form that every step has. -/
theorem stepKeepsInvariant : Obligations.StepKeepsInvariant := by
  unfold Obligations.StepKeepsInvariant
  rintro s t ⟨hw, -⟩ h
  obtain ⟨-, -, hinv⟩ := (step_runs s).next h
  exact hinv hw

/-- Settles O3: the canonical empty DRAM, and nothing posted. -/
theorem resetMeetsInvariant : Obligations.ResetMeetsInvariant := ⟨rfl, rfl⟩

/-- Settles O1: the front command is taken off the queue before it runs. -/
theorem stepRunsFrontCommand : Obligations.StepRunsFrontCommand := fun _ _ => rfl

/-- `n` steps of DT are what `advance` makes of it; beside it only the log entry of a wrap is in the books. -/
theorem leaves_dtSteps (n : Nat) (d : Dev) : Leaves [] (advance n d) (dtSteps n d) := by
  unfold dtSteps
  dsimp only
  split
  · exact Leaves.refl _
  · exact leaves_logEntry ..

/-- What `Leaves` says of the time bases: they stay. -/
theorem tim_of_leaves {fs : List Fld} {d e : Dev} (h : Leaves fs d e) : e.tim = d.tim :=
  show e.body.tim = d.body.tim by rw [h.2]

theorem tim_dtSteps (n : Nat) (d : Dev) : (dtSteps n d).tim = (advance n d).tim := tim_of_leaves (leaves_dtSteps n d)

theorem frame_dtSteps (n : Nat) (s : State) :
    Frame [] { s.dev with tim := { s.dev.tim with acc := (dtSteps n s.dev).tim.acc, epoch := (dtSteps n s.dev).tim.epoch } }
      s (s.after (dtSteps n s.dev)) := by
  rw [tim_dtSteps]
  exact frame_of_leaves (leaves_dtSteps n s.dev) s

/-- Settles O2: with no line on its way a tick is one step of the accumulator and its log entry. -/
theorem idleStepTicksDeviceTime : Obligations.IdleStepTicksDeviceTime := by
  unfold Obligations.IdleStepTicksDeviceTime
  intro s hq hc
  have htick : tick s.dev = dtSteps 1 s.dev := settleLines_quiet (by rw [tim_dtSteps]; exact hc)
  have hstep : step s = .next (s.after (dtSteps 1 s.dev)) := by
    rw [step, hq, ← htick]
    rfl
  have htim := tim_dtSteps 1 s.dev
  refine ⟨_, hstep, hq, ?_, ?_, frame_dtSteps 1 s⟩
  · exact (congrArg TimS.acc htim).trans (by rw [advance, Nat.one_mul])
  · exact (congrArg TimS.epoch htim).trans (by rw [advance, Nat.one_mul])

end Sys2Proof.Proofs
end

section
/-!
The codec read back (R404 to R409, R420): bits and bytes, one sample, one block, and a line block by block.
-/
namespace Sys2Proof.Proofs
open Sys2Proof Sys2Proof.Machine

/-! ## Bits and bytes -/

theorem bitsVal_lowBits (n v : Nat) : bitsVal (lowBits n v) = v % 2 ^ n := by
  induction n generalizing v with
  | zero => simp [lowBits, bitsVal, Nat.mod_one]
  | succ n ih =>
    rw [lowBits, bitsVal, ih, Nat.pow_succ', Nat.mod_mul]
    rcases Nat.mod_two_eq_zero_or_one v with h | h <;> simp [h, b2n]

theorem bitsVal_lt (bs : List Bool) : bitsVal bs < 2 ^ bs.length := by
  induction bs with
  | nil => decide
  | cons b bs ih =>
    rw [bitsVal, List.length_cons, Nat.pow_succ]
    cases b <;> simp [b2n] <;> omega

theorem lowBits_zero (n : Nat) : lowBits n 0 = List.replicate n false := by
  induction n with
  | zero => rfl
  | succ n ih => rw [lowBits, Nat.zero_div, ih, List.replicate_succ]; rfl

/-- The bits of a value of bits are those bits, and 0 bits above them. -/
theorem lowBits_bitsVal {n : Nat} {bs : List Bool} (h : bs.length ≤ n) :
    lowBits n (bitsVal bs) = bs ++ List.replicate (n - bs.length) false := by
  induction bs generalizing n with
  | nil => simpa [bitsVal] using lowBits_zero n
  | cons b bs ih =>
    cases n with
    | zero => simp at h
    | succ n =>
      have hdiv : bitsVal (b :: bs) / 2 = bitsVal bs := by
        rw [bitsVal]
        cases b <;> simp [b2n]
        omega
      have hmod : (bitsVal (b :: bs) % 2 == 1) = b := by
        rw [bitsVal]
        cases b <;> simp [b2n]
      rw [lowBits, hdiv, hmod, ih (by simpa using h)]
      simp

theorem takeBits_append (n v : Nat) (rest : List Bool) : takeBits n (lowBits n v ++ rest) = some (v % 2 ^ n, rest) := by
  rw [takeBits, if_neg (by simp), List.take_left' (length_lowBits n v), List.drop_left' (length_lowBits n v), bitsVal_lowBits]

@[simp] theorem length_bitsOf (bs : List Byte) : (bitsOf bs).length = 8 * bs.length := by
  simp [bitsOf, List.length_flatMap, Nat.mul_comm]

theorem bitsOf_append (bs cs : List Byte) : bitsOf (bs ++ cs) = bitsOf bs ++ bitsOf cs := List.flatMap_append

/-- Packed bits read back, with the padding of the last byte behind them (R406). -/
theorem bitsOf_packBits (bs : List Bool) : ∃ pad, bitsOf (packBits bs) = bs ++ pad := by
  have pieces (fuel : Nat) (bs : List Bool) (h : bs.length < 8 * fuel) :
      ∃ pad, bitsOf ((piecesOf 8 fuel bs).map fun p => BitVec.ofNat 8 (bitsVal p)) = bs ++ pad := by
    induction fuel generalizing bs with
    | zero => omega
    | succ fuel ih =>
      cases bs with
      | nil => exact ⟨_, rfl⟩
      | cons b bs =>
        have hlen : ((b :: bs).take 8).length ≤ 8 := List.length_take_le ..
        have hval : bitsVal ((b :: bs).take 8) < 2 ^ 8 :=
          (bitsVal_lt _).trans_le (Nat.pow_le_pow_right (by decide) hlen)
        have hbyte : bitsOf [BitVec.ofNat 8 (bitsVal ((b :: bs).take 8))] =
            (b :: bs).take 8 ++ List.replicate (8 - ((b :: bs).take 8).length) false := by
          simp only [bitsOf, List.flatMap_cons, List.flatMap_nil, List.append_nil, BitVec.toNat_ofNat, Nat.mod_eq_of_lt hval]
          exact lowBits_bitsVal hlen
        rw [piecesOf, if_neg (by simp), List.map_cons, ← List.singleton_append, bitsOf_append, hbyte]
        rcases Nat.lt_or_ge (b :: bs).length 8 with hshort | hlong
        · have hdrop : (b :: bs).drop 8 = [] := List.drop_eq_nil_of_le hshort.le
          rw [List.take_of_length_le hshort.le]
          exact ⟨_, List.append_assoc ..⟩
        · obtain ⟨pad, hpad⟩ := ih ((b :: bs).drop 8) (by rw [List.length_drop]; omega)
          rw [hpad, List.length_take, min_eq_left hlong, Nat.sub_self, List.replicate_zero, List.append_nil, ← List.append_assoc,
            List.take_append_drop]
          exact ⟨pad, rfl⟩
  exact pieces _ bs (by omega)

/-! ## One sample -/

theorem leadOnes_replicate {q fuel : Nat} (h : q < fuel) (rest : List Bool) :
    leadOnes fuel (List.replicate q true ++ false :: rest) = q := by
  induction q generalizing fuel with
  | zero => cases fuel <;> rfl
  | succ q ih =>
    cases fuel with
    | zero => omega
    | succ fuel => rw [List.replicate_succ, List.cons_append, leadOnes, ih (by omega)]

/-- A Rice code within the length limit gives the mapped residual back (R407). -/
theorem decodeSample_rice {dp k s m : Nat} {p : Int} (hs : s < 2 ^ dp) (hm : restore dp p m = s) (rest : List Bool) :
    decodeSample dp k 0 p (riceBits dp k (s, m) ++ rest) = some (s, rest) := by
  rw [riceBits]
  dsimp only
  split
  · next hq =>
    have hlead := leadOnes_replicate (fuel := 4) (q := m / 2 ^ k) (by omega) (lowBits k m ++ rest)
    have hdrop : (List.replicate (m / 2 ^ k) true ++ false :: (lowBits k m ++ rest)).drop (m / 2 ^ k) =
        false :: (lowBits k m ++ rest) := List.drop_left' (by simp)
    simp only [decodeSample, List.append_assoc, List.cons_append, List.nil_append, hlead, hdrop]
    rw [if_neg (by omega), takeBits_append, Option.map_some, Nat.mul_comm, Nat.div_add_mod, hm]
  · have hlead : leadOnes 4 (List.replicate 4 true ++ (lowBits dp s ++ rest)) = 4 := rfl
    simp only [decodeSample, List.append_assoc, hlead, if_true]
    rw [List.drop_left' (by simp), takeBits_append, Nat.mod_eq_of_lt hs]

theorem decodeSample_raw {dp k s : Nat} {p : Int} (hs : s < 2 ^ dp) (rest : List Bool) :
    decodeSample dp k 1 p (lowBits dp s ++ rest) = some (s, rest) := by
  rw [decodeSample, takeBits_append, Nat.mod_eq_of_lt hs]

/-! ## One block -/

/-- The prediction of the sample that follows a place in a line (R404). -/
def predictAt (dp pred : Nat) (x : DecPos) : Int :=
  predictor pred (neighbours dp x.done.head? (x.ref.bind List.head?) x.refPrev)

/-- The place in a line behind one more sample. -/
def posNext (x : DecPos) (s : Nat) : DecPos :=
  { done := s :: x.done, refPrev := x.ref.bind List.head?, ref := x.ref.map List.tail }

/-- The place in a line behind these samples. -/
def posAfter (x : DecPos) (xs : List Nat) : DecPos := xs.foldl posNext x

theorem done_posAfter (x : DecPos) (xs : List Nat) : (posAfter x xs).done = xs.reverse ++ x.done := by
  induction xs generalizing x with
  | nil => rfl
  | cons s xs ih =>
    rw [posAfter, List.foldl_cons, ← posAfter, ih]
    simp [posNext]

/-- The samples that follow a place in a line, with their residuals. -/
def residualsAt (dp pred : Nat) (x : DecPos) (xs : List Nat) : List (Nat × Nat) :=
  residuals dp pred x.done.head? x.refPrev x.ref xs

@[simp] theorem length_residualsAt (dp pred : Nat) (x : DecPos) (xs : List Nat) :
    (residualsAt dp pred x xs).length = xs.length := length_residuals ..

theorem residualsAt_cons (dp pred : Nat) (x : DecPos) (s : Nat) (xs : List Nat) :
    residualsAt dp pred x (s :: xs) = (s, residual dp (predictAt dp pred x) s) :: residualsAt dp pred (posNext x s) xs := rfl

theorem take_residualsAt (dp pred n : Nat) (x : DecPos) (xs : List Nat) :
    (residualsAt dp pred x xs).take n = residualsAt dp pred x (xs.take n) := by
  induction xs generalizing x n with
  | nil => simp [residualsAt, residuals]
  | cons s xs ih =>
    cases n with
    | zero => rfl
    | succ n => rw [residualsAt_cons, List.take_succ_cons, ih, List.take_succ_cons, residualsAt_cons]

theorem drop_residualsAt (dp pred n : Nat) (x : DecPos) (xs : List Nat) :
    (residualsAt dp pred x xs).drop n = residualsAt dp pred (posAfter x (xs.take n)) (xs.drop n) := by
  induction xs generalizing x n with
  | nil => simp [residualsAt, residuals]
  | cons s xs ih =>
    cases n with
    | zero => rfl
    | succ n => rw [residualsAt_cons, List.drop_succ_cons, ih]; rfl

theorem lt_of_mem_residualsAt {dp pred : Nat} {x : DecPos} {xs : List Nat} (hxs : ∀ s ∈ xs, s < 2 ^ dp) {e : Nat × Nat}
    (he : e ∈ residualsAt dp pred x xs) : e.1 < 2 ^ dp := by
  induction xs generalizing x with
  | nil => cases he
  | cons s xs ih =>
    rw [residualsAt_cons, List.mem_cons] at he
    rcases he with rfl | he
    · exact hxs s List.mem_cons_self
    · exact ih (fun t ht => hxs t (List.mem_cons_of_mem _ ht)) he

/-- In this mode, and with the decoder's own predictor, the code of each sample gives it back. -/
def CodeOk (dp pred pred' k mode : Nat) (code : Nat × Nat → List Bool) (es : List (Nat × Nat)) : Prop :=
  ∀ x s rest, (s, residual dp (predictAt dp pred x) s) ∈ es →
    decodeSample dp k mode (predictAt dp pred' x) (code (s, residual dp (predictAt dp pred x) s) ++ rest) = some (s, rest)

theorem decodeSamples_residualsAt {dp pred pred' k mode : Nat} {code : Nat × Nat → List Bool} (x : DecPos) (xs : List Nat)
    (rest : List Bool) (hcode : CodeOk dp pred pred' k mode code (residualsAt dp pred x xs)) :
    decodeSamples dp pred' k mode xs.length x ((residualsAt dp pred x xs).flatMap code ++ rest) = some (posAfter x xs, rest) := by
  induction xs generalizing x with
  | nil => rfl
  | cons s xs ih =>
    rw [residualsAt_cons] at hcode ⊢
    have hhead := hcode x s ((residualsAt dp pred (posNext x s) xs).flatMap code ++ rest) List.mem_cons_self
    rw [predictAt] at hhead
    rw [List.flatMap_cons, List.append_assoc, List.length_cons, decodeSamples]
    simp only [hhead]
    exact ih (posNext x s) fun y t rest hm => hcode y t rest (List.mem_cons_of_mem _ hm)

theorem blockHead_fields {pred k mode : Nat} (hp : pred ≤ 2) (hk : k ≤ 14) (hm : mode ≤ 2) :
    (blockHead pred k mode).toNat % 4 = pred ∧ (blockHead pred k mode).toNat / 4 % 16 = k ∧
      (blockHead pred k mode).toNat / 64 = mode := by
  rw [blockHead, BitVec.toNat_ofNat]
  omega

/-- The decoder takes one block off the bytes: it leaves the line behind the block's samples, and the bytes behind it. -/
theorem decodeBlocks_block {dp pred pred' k mode n : Nat} {code : Nat × Nat → List Bool} {x : DecPos} {xs : List Nat}
    (fuel : Nat) (more : List Byte) (hp : pred' ≤ 2) (hk : k ≤ 14) (hm : mode ≤ 2) (hpos : 0 < xs.length)
    (hn : min 64 n = xs.length) (hcode : CodeOk dp pred pred' k mode code (residualsAt dp pred x xs))
    (hlen : ((residualsAt dp pred x xs).flatMap code).length ≤ xs.length * (max dp k + 4)) :
    decodeBlocks dp (fuel + 1) n x (blockHead pred' k mode :: packBits ((residualsAt dp pred x xs).flatMap code) ++ more) =
      decodeBlocks dp fuel (n - xs.length) (posAfter x xs) more := by
  obtain ⟨hpred, hkk, hmode⟩ := blockHead_fields hp hk hm
  generalize hbits : (residualsAt dp pred x xs).flatMap code = bs at hlen ⊢
  have hfit : (packBits bs).length ≤ xs.length * (max dp k + 4) / 8 + 1 := by
    rw [length_packBits, cdiv]
    omega
  have hfield : (packBits bs ++ more).take (xs.length * (max dp k + 4) / 8 + 1) =
      packBits bs ++ more.take (xs.length * (max dp k + 4) / 8 + 1 - (packBits bs).length) := by
    rw [List.take_append, List.take_of_length_le hfit]
  generalize more.take (xs.length * (max dp k + 4) / 8 + 1 - (packBits bs).length) = ahead at hfield
  obtain ⟨pad, hpad⟩ := bitsOf_packBits bs
  have hsamples : decodeSamples dp pred' k mode xs.length x (bitsOf (packBits bs ++ ahead)) =
      some (posAfter x xs, pad ++ bitsOf ahead) := by
    rw [bitsOf_append, hpad, List.append_assoc, ← hbits]
    exact decodeSamples_residualsAt x xs _ hcode
  have hpadlen : 8 * (packBits bs).length = bs.length + pad.length := by
    rw [← length_bitsOf, hpad, List.length_append]
  have htaken : (packBits bs ++ ahead).length - (pad ++ bitsOf ahead).length / 8 = (packBits bs).length := by
    have hdiv := length_packBits bs
    rw [cdiv] at hdiv
    rw [List.length_append, List.length_append, length_bitsOf]
    omega
  rw [List.cons_append, decodeBlocks, if_neg (by omega)]
  dsimp only
  rw [hpred, hkk, hmode, if_neg (by omega), hn, hfield]
  simp only [hsamples]
  rw [htaken, List.drop_left' rfl]

/-- A coded block decodes to its samples, whatever its mode (R406 to R408). -/
theorem decodeBlocks_codeBlock {dp pred n : Nat} (raw : Bool) {x : DecPos} {xs : List Nat} (fuel : Nat) (more : List Byte)
    (hp : pred ≤ 2) (hpos : 0 < xs.length) (hn : min 64 n = xs.length) (hxs : ∀ s ∈ xs, s < 2 ^ dp) :
    decodeBlocks dp (fuel + 1) n x ((codeBlock dp pred raw (residualsAt dp pred x xs)).bytes ++ more) =
      decodeBlocks dp fuel (n - xs.length) (posAfter x xs) more := by
  have hsum {f : Nat × Nat → List Bool} {w : Nat} (hf : ∀ e, (f e).length ≤ w) :
      ((residualsAt dp pred x xs).flatMap f).length ≤ xs.length * w := by
    rw [List.length_flatMap]
    simpa using List.sum_le_card_nsmul ((residualsAt dp pred x xs).map fun e => (f e).length) w
      (List.forall_mem_map.mpr fun e _ => hf e)
  rw [codeBlock]
  cases raw with
  | true =>
    refine decodeBlocks_block fuel more (by omega) (by omega) (by omega) hpos hn (fun y s rest hm => ?_) (hsum fun e => ?_)
    · exact decodeSample_raw (lt_of_mem_residualsAt hxs hm) rest
    · rw [length_lowBits]
      omega
  | false =>
    rw [if_neg Bool.false_ne_true]
    dsimp only
    split
    · next hzero =>
      have hflat : (residualsAt dp pred x xs).flatMap (fun _ => ([] : List Bool)) = [] := by simp
      have hblock := decodeBlocks_block (pred := pred) (pred' := pred) (k := 0) (mode := 2) (code := fun _ => []) fuel more hp
        (by omega) (by omega) hpos hn (fun y s rest hm => ?_) (by rw [hflat]; exact Nat.zero_le _)
      · rwa [hflat] at hblock
      · have hres : residual dp (predictAt dp pred y) s = 0 := by
          rw [sumNat, ← List.sum_eq_foldl, List.sum_eq_zero_iff] at hzero
          exact hzero _ (List.mem_map_of_mem (f := Prod.snd) hm)
        rw [decodeSample, ← hres, restore_residual _ (lt_of_mem_residualsAt hxs hm)]
        rfl
    · have hk : riceK (residualsAt dp pred x xs).length (sumNat ((residualsAt dp pred x xs).map Prod.snd)) (min 14 dp) 15 0 ≤ min 14 dp :=
        riceK_le (Nat.zero_le _)
      refine decodeBlocks_block fuel more hp (by omega) (by omega) hpos hn (fun y s rest hm => ?_) (hsum fun e => ?_)
      · have hs : s < 2 ^ dp := lt_of_mem_residualsAt hxs hm
        exact decodeSample_rice hs (restore_residual _ hs) rest
      · have := length_riceBits_le (dp := dp) (k := riceK (residualsAt dp pred x xs).length (sumNat ((residualsAt dp pred x xs).map Prod.snd)) (min 14 dp) 15 0) (by omega) e
        omega

/-! ## A line -/

theorem decodeBlocks_codeBlocks {dp pred : Nat} (raw : Bool) {x : DecPos} {xs : List Nat} (fuel : Nat) (hp : pred ≤ 2)
    (hfuel : xs.length ≤ 64 * fuel) (hxs : ∀ s ∈ xs, s < 2 ^ dp) :
    decodeBlocks dp (fuel + 1) xs.length x
      (((piecesOf 64 fuel (residualsAt dp pred x xs)).map (codeBlock dp pred raw)).flatMap Coded.bytes) =
      some (posAfter x xs).done.reverse := by
  induction fuel generalizing x xs with
  | zero =>
    obtain rfl : xs = [] := List.eq_nil_of_length_eq_zero (by omega)
    rfl
  | succ fuel ih =>
    rcases Nat.eq_zero_or_pos xs.length with hzero | hpos
    · obtain rfl : xs = [] := List.eq_nil_of_length_eq_zero hzero
      rfl
    · have hlen : (xs.take 64).length = min 64 xs.length := List.length_take
      have hblock := decodeBlocks_codeBlock (dp := dp) (pred := pred) (n := xs.length) raw (x := x) (xs := xs.take 64) (fuel + 1)
        (((piecesOf 64 fuel (residualsAt dp pred (posAfter x (xs.take 64)) (xs.drop 64))).map (codeBlock dp pred raw)).flatMap
          Coded.bytes) hp (by omega) hlen.symm fun s hs => hxs s (List.mem_of_mem_take hs)
      have htail := ih (x := posAfter x (xs.take 64)) (xs := xs.drop 64) (by rw [List.length_drop]; omega)
        fun s hs => hxs s (List.mem_of_mem_drop hs)
      have hrest : xs.length - (xs.take 64).length = (xs.drop 64).length := by
        rw [List.length_drop]
        omega
      have hdone : posAfter (posAfter x (xs.take 64)) (xs.drop 64) = posAfter x xs := by
        rw [posAfter, posAfter, ← List.foldl_append, List.take_append_drop, ← posAfter]
      rw [hrest, htail, hdone] at hblock
      have hne : ¬ (residualsAt dp pred x xs).isEmpty = true := by
        rw [List.isEmpty_iff_length_eq_zero, length_residualsAt]
        omega
      rw [← hblock, piecesOf, if_neg hne, take_residualsAt, drop_residualsAt, List.map_cons, List.flatMap_cons]

/-- Settles O56, block by block: each block's bytes leave the decoder behind the block's samples. -/
theorem decodingUndoesCoding : Obligations.DecodingUndoesCoding := by
  unfold Obligations.DecodingUndoesCoding
  intro d pred raw ref xs _ _ hp hxs
  have hline := decodeBlocks_codeBlocks raw (x := { ref := ref }) (xs := xs) (xs.length / 64 + 1) hp (by omega) hxs
  rw [done_posAfter, List.append_nil, List.reverse_reverse] at hline
  rw [decodeLine, codeLine, bytes_foldl_add]
  exact hline

end Sys2Proof.Proofs
end

section
/-!
The self-synchronous scrambler of R95: what the descrambler delivers from its own history and from any other.
-/
namespace Sys2Proof.Proofs
open Sys2Proof Sys2Proof.Machine

theorem bit_eq_testBit (v i : Nat) : bit v i = v.testBit i := by
  rw [bit, Nat.testBit_eq_decide_div_mod_eq]
  rfl

theorem bit_congr {h g n i : Nat} (hhg : h % 2 ^ n = g % 2 ^ n) (hi : i < n) : bit h i = bit g i := by
  have hmod (v : Nat) : bit v i = (v % 2 ^ n).testBit i := by simp [bit_eq_testBit, Nat.testBit_mod_two_pow, hi]
  rw [hmod, hmod, hhg]

theorem scrambleBit_scrambleBit (h : Nat) (x : Bool) : scrambleBit h (scrambleBit h x) = x := by
  simp only [scrambleBit, Bool.xor_assoc, Bool.xor_left_comm (bit h 57), Bool.xor_self, Bool.xor_false]

/-- Only the last 58 bits of a history matter. -/
theorem scrambleBit_congr {h g : Nat} (hhg : h % 2 ^ 58 = g % 2 ^ 58) (x : Bool) : scrambleBit h x = scrambleBit g x := by
  rw [scrambleBit, scrambleBit, bit_congr hhg (by decide : 38 < 58), bit_congr hhg (by decide : 57 < 58)]

/-- Histories that agree in their last k bits agree in one more after the same bit. -/
theorem pushBit_congr {h g k : Nat} (hk : k < 58) (hhg : h % 2 ^ k = g % 2 ^ k) (x : Bool) :
    pushBit 58 h x % 2 ^ (k + 1) = pushBit 58 g x % 2 ^ (k + 1) := by
  have hdvd : 2 ^ (k + 1) ∣ 2 ^ 58 := Nat.pow_dvd_pow 2 hk
  rw [pushBit, pushBit, Nat.mod_mod_of_dvd _ hdvd, Nat.mod_mod_of_dvd _ hdvd, Nat.pow_succ']
  have hmul : 2 * h ≡ 2 * g [MOD 2 * 2 ^ k] := Nat.ModEq.mul_left' 2 hhg
  exact hmul.add_right _

theorem drop_descramble_scramble {k : Nat} (hk : k ≤ 58) {h g : Nat} (hhg : h % 2 ^ k = g % 2 ^ k) (xs : List Bool) :
    (descramble g (scramble h xs)).drop (58 - k) = xs.drop (58 - k) := by
  induction xs generalizing k h g with
  | nil => rfl
  | cons x xs ih =>
    rw [scramble, descramble]
    rcases Nat.lt_or_eq_of_le hk with hlt | rfl
    · rw [show 58 - k = 58 - (k + 1) + 1 by omega, List.drop_succ_cons, List.drop_succ_cons]
      exact ih hlt (pushBit_congr hlt hhg _)
    · have hless : h % 2 ^ 57 = g % 2 ^ 57 := Nat.ModEq.of_dvd (Nat.pow_dvd_pow 2 (by decide)) hhg
      rw [← scrambleBit_congr hhg, scrambleBit_scrambleBit]
      exact congrArg (x :: ·) (ih (k := 58) hk (pushBit_congr (by decide) hless _))

/-- Settles O29: after k received bits the two histories agree in their last k bits. -/
theorem scramblerSynchronises : Obligations.ScramblerSynchronises := by
  unfold Obligations.ScramblerSynchronises
  refine ⟨fun h xs => ?_, fun h g xs => ?_, fun _ _ => rfl⟩
  · exact drop_descramble_scramble (k := 58) le_rfl rfl xs
  · exact drop_descramble_scramble (k := 0) (Nat.zero_le _) (by rw [Nat.pow_zero, Nat.mod_one, Nat.mod_one]) xs

end Sys2Proof.Proofs
end

section
/-!
Device Time at its wrap (R60, R61).
-/
namespace Sys2Proof.Proofs
open Sys2Proof Sys2Proof.Machine

/-- The steps that take the accumulator to 2^96 or beyond take it less than one step beyond. -/
theorem cdiv_mul_bounds {x n : Nat} (hn : 0 < n) : x ≤ cdiv x n * n ∧ cdiv x n * n < x + n := by
  have hdiv := Nat.div_add_mod' (x + n - 1) n
  have hmod := Nat.mod_lt (x + n - 1) hn
  rw [cdiv]
  omega

theorem acc_after_wrap {acc step : Nat} (hacc : acc < 2 ^ 96) (hpos : 0 < step) (hstep : step < 2 ^ 96) :
    (acc + cdiv (2 ^ 96 - acc) step * step) / 2 ^ 96 = 1 ∧ (acc + cdiv (2 ^ 96 - acc) step * step) % 2 ^ 96 < step := by
  obtain ⟨hlo, hhi⟩ := cdiv_mul_bounds (x := 2 ^ 96 - acc) hpos
  omega

/-- In the upper half of its range DT has as many steps to 0 as the accumulator has to its wrap (R63). -/
theorem stepsTo_zero {d : Dev} (hdt : 2 ^ 63 ≤ d.dt) (hacc : d.tim.acc < 2 ^ 96) (hpos : 0 < d.dtStep) :
    d.stepsTo 0 = cdiv (2 ^ 96 - d.tim.acc) d.dtStep := by
  have hval : d.dt = d.tim.acc / 2 ^ 32 := Nat.mod_eq_of_lt (by omega)
  have hlt : d.dt < 2 ^ 64 := Nat.mod_lt _ (by decide)
  have hneg : dtGe d.dt 0 = false := by
    rw [Bool.eq_false_iff, Ne, dtGe_iff, dtDiff_of_lt _ (by decide), sgn_of_le_mod (by omega)]
    omega
  have hdist : (0 + 2 ^ 64 - d.dt % 2 ^ 64) % 2 ^ 64 * 2 ^ 32 - d.tim.acc % 2 ^ 32 = 2 ^ 96 - d.tim.acc := by omega
  rw [Dev.stepsTo, hneg, if_neg Bool.false_ne_true, max_eq_left hpos, hdist]

/-- Settles O21: both ways to count the steps take the accumulator just beyond its wrap. -/
theorem deviceTimeWraps : Obligations.DeviceTimeWraps := by
  unfold Obligations.DeviceTimeWraps
  intro s hc hacc hpos hlt
  obtain ⟨hwrap, hrest⟩ := acc_after_wrap hacc hpos hlt
  have hdev : (if 2 ^ 63 ≤ s.dev.dt then reach 0 s.dev
      else settleLines (dtSteps (cdiv (2 ^ 96 - s.dev.tim.acc % 2 ^ 96) (max s.dev.dtStep 1)) s.dev)) =
      dtSteps (cdiv (2 ^ 96 - s.dev.tim.acc) s.dev.dtStep) s.dev := by
    split
    · next hdt => rw [reach_quiet hc, stepsTo_zero hdt hacc hpos]
    · rw [settleLines_quiet (by rw [tim_dtSteps]; exact hc), Nat.mod_eq_of_lt hacc, max_eq_left hpos]
  have hexec : exec .dtWrap s = total (fun _ d => if 2 ^ 63 ≤ d.dt then reach 0 d
      else settleLines (dtSteps (cdiv (2 ^ 96 - d.tim.acc % 2 ^ 96) (max d.dtStep 1)) d)) s := rfl
  refine completes_total hexec ?_
  dsimp only
  rw [hdev]
  have htim := tim_dtSteps (cdiv (2 ^ 96 - s.dev.tim.acc) s.dev.dtStep) s.dev
  refine ⟨?_, ?_, frame_dtSteps _ s⟩
  · exact (congrArg TimS.epoch htim).trans (by rw [advance, hwrap])
  · exact (congrArg TimS.acc htim).trans_lt hrest

end Sys2Proof.Proofs
end

section
/-!
What the shared operations leave as they were: a register that they do not write, one lemma for each operation, in the
order of the model.
-/
namespace Sys2Proof.Proofs
open Sys2Proof Sys2Proof.Machine

/-- A device with the registers of another one reads them alike, whatever else it holds. -/
@[simp] theorem get_mk (d : Dev) (f : Fld)
    (rwb rwp latch epochLatch snap prf perf log lseq logNewest injecting persistQ vecOwed posted out free tim
    quadLock lane port homeQ rtHold rtAt spLatch spNewest bank lth fus stream recQ cls gou mrg ras yielding objQ held
    crv vrd imgWord dma cmp ddr nvm rootHash rcp mgt cal rtFree aon) :
    Dev.get (Dev.mk d.regs
      rwb rwp latch epochLatch snap prf perf log lseq logNewest injecting persistQ vecOwed posted out free tim
      quadLock lane port homeQ rtHold rtAt spLatch spNewest bank lth fus stream recQ cls gou mrg ras yielding objQ
      held crv vrd imgWord dma cmp ddr nvm rootHash rcp mgt cal rtFree aon) f = d.get f := rfl

/-! ## The device of the block after a command -/

@[simp] theorem after_regs (s : State) (d : Dev) : (s.after d).dev.regs = d.regs := rfl
@[simp] theorem after_rwb (s : State) (d : Dev) : (s.after d).dev.rwb = d.rwb := rfl
@[simp] theorem after_rwp (s : State) (d : Dev) : (s.after d).dev.rwp = d.rwp := rfl
@[simp] theorem after_latch (s : State) (d : Dev) : (s.after d).dev.latch = d.latch := rfl
@[simp] theorem after_epochLatch (s : State) (d : Dev) : (s.after d).dev.epochLatch = d.epochLatch := rfl
@[simp] theorem after_snap (s : State) (d : Dev) : (s.after d).dev.snap = d.snap := rfl
@[simp] theorem after_prf (s : State) (d : Dev) : (s.after d).dev.prf = d.prf := rfl
@[simp] theorem after_perf (s : State) (d : Dev) : (s.after d).dev.perf = d.perf := rfl
@[simp] theorem after_log (s : State) (d : Dev) : (s.after d).dev.log = d.log := rfl
@[simp] theorem after_lseq (s : State) (d : Dev) : (s.after d).dev.lseq = d.lseq := rfl
@[simp] theorem after_logNewest (s : State) (d : Dev) : (s.after d).dev.logNewest = d.logNewest := rfl
@[simp] theorem after_persistQ (s : State) (d : Dev) : (s.after d).dev.persistQ = d.persistQ := rfl
@[simp] theorem after_vecOwed (s : State) (d : Dev) : (s.after d).dev.vecOwed = d.vecOwed := rfl
@[simp] theorem after_injecting (s : State) (d : Dev) : (s.after d).dev.injecting = d.injecting := rfl
@[simp] theorem after_out (s : State) (d : Dev) : (s.after d).dev.out = d.out := rfl
@[simp] theorem after_free (s : State) (d : Dev) : (s.after d).dev.free = d.free := rfl
@[simp] theorem after_tim (s : State) (d : Dev) : (s.after d).dev.tim = d.tim := rfl
@[simp] theorem after_quadLock (s : State) (d : Dev) : (s.after d).dev.quadLock = d.quadLock := rfl
@[simp] theorem after_lane (s : State) (d : Dev) : (s.after d).dev.lane = d.lane := rfl
@[simp] theorem after_port (s : State) (d : Dev) : (s.after d).dev.port = d.port := rfl
@[simp] theorem after_homeQ (s : State) (d : Dev) : (s.after d).dev.homeQ = d.homeQ := rfl
@[simp] theorem after_rtHold (s : State) (d : Dev) : (s.after d).dev.rtHold = d.rtHold := rfl
@[simp] theorem after_rtAt (s : State) (d : Dev) : (s.after d).dev.rtAt = d.rtAt := rfl
@[simp] theorem after_spLatch (s : State) (d : Dev) : (s.after d).dev.spLatch = d.spLatch := rfl
@[simp] theorem after_spNewest (s : State) (d : Dev) : (s.after d).dev.spNewest = d.spNewest := rfl
@[simp] theorem after_bank (s : State) (d : Dev) : (s.after d).dev.bank = d.bank := rfl
@[simp] theorem after_lth (s : State) (d : Dev) : (s.after d).dev.lth = d.lth := rfl
@[simp] theorem after_fus (s : State) (d : Dev) : (s.after d).dev.fus = d.fus := rfl
@[simp] theorem after_stream (s : State) (d : Dev) : (s.after d).dev.stream = d.stream := rfl
@[simp] theorem after_recQ (s : State) (d : Dev) : (s.after d).dev.recQ = d.recQ := rfl
@[simp] theorem after_cls (s : State) (d : Dev) : (s.after d).dev.cls = d.cls := rfl
@[simp] theorem after_gou (s : State) (d : Dev) : (s.after d).dev.gou = d.gou := rfl
@[simp] theorem after_mrg (s : State) (d : Dev) : (s.after d).dev.mrg = d.mrg := rfl
@[simp] theorem after_ras (s : State) (d : Dev) : (s.after d).dev.ras = d.ras := rfl
@[simp] theorem after_yielding (s : State) (d : Dev) : (s.after d).dev.yielding = d.yielding := rfl
@[simp] theorem after_objQ (s : State) (d : Dev) : (s.after d).dev.objQ = d.objQ := rfl
@[simp] theorem after_held (s : State) (d : Dev) : (s.after d).dev.held = d.held := rfl
@[simp] theorem after_crv (s : State) (d : Dev) : (s.after d).dev.crv = d.crv := rfl
@[simp] theorem after_vrd (s : State) (d : Dev) : (s.after d).dev.vrd = d.vrd := rfl
@[simp] theorem after_imgWord (s : State) (d : Dev) : (s.after d).dev.imgWord = d.imgWord := rfl
@[simp] theorem after_dma (s : State) (d : Dev) : (s.after d).dev.dma = d.dma := rfl
@[simp] theorem after_cmp (s : State) (d : Dev) : (s.after d).dev.cmp = d.cmp := rfl
@[simp] theorem after_ddr (s : State) (d : Dev) : (s.after d).dev.ddr = d.ddr := rfl
@[simp] theorem after_nvm (s : State) (d : Dev) : (s.after d).dev.nvm = d.nvm := rfl
@[simp] theorem after_rootHash (s : State) (d : Dev) : (s.after d).dev.rootHash = d.rootHash := rfl
@[simp] theorem after_rcp (s : State) (d : Dev) : (s.after d).dev.rcp = d.rcp := rfl
@[simp] theorem after_mgt (s : State) (d : Dev) : (s.after d).dev.mgt = d.mgt := rfl
@[simp] theorem after_cal (s : State) (d : Dev) : (s.after d).dev.cal = d.cal := rfl
@[simp] theorem after_rtFree (s : State) (d : Dev) : (s.after d).dev.rtFree = d.rtFree := rfl
@[simp] theorem after_aon (s : State) (d : Dev) : (s.after d).dev.aon = d.aon := rfl

/-- A command that goes on to what its effect on the device makes of the block, and what holds of that. -/
theorem completes_of_exec {c : Instr} {s : State} {d : Dev} {post : State → Prop} (h : exec c s = .next (s.after d))
    (hpost : post (s.after d)) : Completes c s post := ⟨_, h, rfl, hpost⟩

/-! ## What `Leaves` says of the parts of the device beside the registers -/

section
variable {fs : List Fld} {d e : Dev} (h : Leaves fs d e)
include h

theorem rwb_of_leaves : e.rwb = d.rwb := show e.body.rwb = d.body.rwb by rw [h.2]
theorem rwp_of_leaves : e.rwp = d.rwp := show e.body.rwp = d.body.rwp by rw [h.2]
theorem latch_of_leaves : e.latch = d.latch := show e.body.latch = d.body.latch by rw [h.2]
theorem epochLatch_of_leaves : e.epochLatch = d.epochLatch := show e.body.epochLatch = d.body.epochLatch by rw [h.2]
theorem snap_of_leaves : e.snap = d.snap := show e.body.snap = d.body.snap by rw [h.2]
theorem prf_of_leaves : e.prf = d.prf := show e.body.prf = d.body.prf by rw [h.2]
theorem injecting_of_leaves : e.injecting = d.injecting := show e.body.injecting = d.body.injecting by rw [h.2]
theorem out_of_leaves : e.out = d.out := show e.body.out = d.body.out by rw [h.2]
theorem free_of_leaves : e.free = d.free := show e.body.free = d.body.free by rw [h.2]
theorem quadLock_of_leaves : e.quadLock = d.quadLock := show e.body.quadLock = d.body.quadLock by rw [h.2]
theorem lane_of_leaves : e.lane = d.lane := show e.body.lane = d.body.lane by rw [h.2]
theorem port_of_leaves : e.port = d.port := show e.body.port = d.body.port by rw [h.2]
theorem homeQ_of_leaves : e.homeQ = d.homeQ := show e.body.homeQ = d.body.homeQ by rw [h.2]
theorem rtHold_of_leaves : e.rtHold = d.rtHold := show e.body.rtHold = d.body.rtHold by rw [h.2]
theorem rtAt_of_leaves : e.rtAt = d.rtAt := show e.body.rtAt = d.body.rtAt by rw [h.2]
theorem spLatch_of_leaves : e.spLatch = d.spLatch := show e.body.spLatch = d.body.spLatch by rw [h.2]
theorem spNewest_of_leaves : e.spNewest = d.spNewest := show e.body.spNewest = d.body.spNewest by rw [h.2]
theorem bank_of_leaves : e.bank = d.bank := show e.body.bank = d.body.bank by rw [h.2]
theorem lth_of_leaves : e.lth = d.lth := show e.body.lth = d.body.lth by rw [h.2]
theorem fus_of_leaves : e.fus = d.fus := show e.body.fus = d.body.fus by rw [h.2]
theorem stream_of_leaves : e.stream = d.stream := show e.body.stream = d.body.stream by rw [h.2]
theorem recQ_of_leaves : e.recQ = d.recQ := show e.body.recQ = d.body.recQ by rw [h.2]
theorem cls_of_leaves : e.cls = d.cls := show e.body.cls = d.body.cls by rw [h.2]
theorem gou_of_leaves : e.gou = d.gou := show e.body.gou = d.body.gou by rw [h.2]
theorem mrg_of_leaves : e.mrg = d.mrg := show e.body.mrg = d.body.mrg by rw [h.2]
theorem ras_of_leaves : e.ras = d.ras := show e.body.ras = d.body.ras by rw [h.2]
theorem yielding_of_leaves : e.yielding = d.yielding := show e.body.yielding = d.body.yielding by rw [h.2]
theorem objQ_of_leaves : e.objQ = d.objQ := show e.body.objQ = d.body.objQ by rw [h.2]
theorem held_of_leaves : e.held = d.held := show e.body.held = d.body.held by rw [h.2]
theorem crv_of_leaves : e.crv = d.crv := show e.body.crv = d.body.crv by rw [h.2]
theorem vrd_of_leaves : e.vrd = d.vrd := show e.body.vrd = d.body.vrd by rw [h.2]
theorem imgWord_of_leaves : e.imgWord = d.imgWord := show e.body.imgWord = d.body.imgWord by rw [h.2]
theorem cmp_of_leaves : e.cmp = d.cmp := show e.body.cmp = d.body.cmp by rw [h.2]
theorem ddr_of_leaves : e.ddr = d.ddr := show e.body.ddr = d.body.ddr by rw [h.2]
theorem nvm_of_leaves : e.nvm = d.nvm := show e.body.nvm = d.body.nvm by rw [h.2]
theorem rootHash_of_leaves : e.rootHash = d.rootHash := show e.body.rootHash = d.body.rootHash by rw [h.2]
theorem rcp_of_leaves : e.rcp = d.rcp := show e.body.rcp = d.body.rcp by rw [h.2]
theorem mgt_of_leaves : e.mgt = d.mgt := show e.body.mgt = d.body.mgt by rw [h.2]
theorem cal_of_leaves : e.cal = d.cal := show e.body.cal = d.body.cal by rw [h.2]
theorem rtFree_of_leaves : e.rtFree = d.rtFree := show e.body.rtFree = d.body.rtFree by rw [h.2]
theorem aon_of_leaves : e.aon = d.aon := show e.body.aon = d.body.aon by rw [h.2]

end

/-- The same change on both sides of `Leaves`, where it concerns no register and nothing of the books. -/
theorem leaves_map (g : Dev → Dev) (hregs : ∀ d, (g d).regs = d.regs) (hbody : ∀ d, (g d).body = (g d.body).body)
    {fs : List Fld} {d e : Dev} (h : Leaves fs d e) : Leaves fs (g d) (g e) := by
  refine ⟨fun f hb hf => ?_, by rw [hbody, h.2, ← hbody]⟩
  rw [get_congr (hregs e), get_congr (hregs d), h.get hb hf]

/-! ## The books and the error events -/

theorem get_raise {f : Fld} (hb : bookKey f.key = false) (e : Nat) (d : Dev) : (raise e d).get f = d.get f :=
  (leaves_raise e d).get hb (List.not_mem_nil)

theorem get_event {f seq : Fld} {fs : List Fld} (hb : bookKey f.key = false) (hs : f.key ≠ seq.key) (hfs : f.key ∉ fs.map Fld.key)
    (code : Nat) (d : Dev) : (event code seq fs d).get f = d.get f := by
  refine (leaves_event code seq fs d).get hb ?_
  simpa [seqAnd] using ⟨hs, fun g hg h => hfs (List.mem_map.mpr ⟨g, hg, h⟩)⟩

/-- An event moves its SEQ on. -/
theorem get_event_seq {seq : Fld} {fs : List Fld} (hb : bookKey seq.key = false) (hfs : seq.key ∉ fs.map Fld.key) (code : Nat) (d : Dev) :
    (event code seq fs d).get seq = nextSeq (d.get seq) % 2 ^ seq.w := by
  rw [event, get_raise hb, get_puts_ne _ _ (by simpa using hfs), get_put_self]

theorem puts_append (xs ys : List (Fld × Nat)) (d : Dev) : puts (xs ++ ys) d = puts ys (puts xs d) := by
  induction xs generalizing d with
  | nil => rfl
  | cons x xs ih => exact ih _

/-- Flags that are set one after the other are all set. -/
theorem get_puts_flag {f : Fld} {fs : List Fld} (hw : ∀ g ∈ fs, g.w = 1) (hmem : f ∈ fs) (d : Dev) :
    (puts (fs.map (fun g => (g, 1))) d).get f = 1 := by
  induction fs using List.reverseRecOn generalizing d with
  | nil => simp at hmem
  | append_singleton fs g ih =>
    rw [List.map_append, puts_append, List.map_singleton, puts, puts]
    by_cases hkey : f.key = g.key
    · rw [get_put_key hkey, hw g (by simp), pow_one]
    · rw [get_put_ne hkey]
      refine ih (fun g' hg' => hw g' (by simp [hg'])) ((List.mem_append.mp hmem).resolve_right fun h => hkey ?_) d
      rw [List.mem_singleton.mp h]

/-- An event sets its flags. -/
theorem get_event_flag {f seq : Fld} {fs : List Fld} (hb : bookKey f.key = false) (hw : ∀ g ∈ fs, g.w = 1) (hmem : f ∈ fs)
    (code : Nat) (d : Dev) : (event code seq fs d).get f = 1 := by
  rw [event, get_raise hb, get_puts_flag hw hmem]

theorem get_logEv {f : Fld} (hb : bookKey f.key = false) (code inst sev data : Nat) (d : Dev) :
    (logEv code inst sev data d).get f = d.get f :=
  (leaves_logEv ..).get hb List.not_mem_nil

theorem get_logFw {f : Fld} (hb : bookKey f.key = false) (code inst sev data : Nat) (d : Dev) :
    (logFw code inst sev data d).get f = d.get f :=
  (leaves_logFw ..).get hb List.not_mem_nil

theorem get_perf {f : Fld} {base : Nat} (hbase : base % 0x1000 = 0 ∧ base ≠ 0x1c01000 ∧ base ≠ 0x1c02000) (hb : bookKey f.key = false) (blk code k : Nat) (d : Dev) :
    (perf blk base code k d).get f = d.get f :=
  (leaves_perf blk hbase code k d).get hb List.not_mem_nil

theorem get_when (c : Bool) {F : Dev → Dev} {d : Dev} {f : Fld} (h : (F d).get f = d.get f) : (when c F d).get f = d.get f := by
  cases c with
  | true => exact h
  | false => rfl

theorem get_when_eq (c : Bool) (F : Dev → Dev) (d : Dev) (f : Fld) : (when c F d).get f = if c then (F d).get f else d.get f := by
  cases c <;> rfl

theorem get_ite (c : Prop) [Decidable c] (d e : Dev) (f : Fld) : (if c then d else e).get f = if c then d.get f else e.get f :=
  apply_ite (Dev.get · f) c d e

theorem get_each {α : Type} {F : α → Dev → Dev} {xs : List α} {f : Fld} (h : ∀ x ∈ xs, ∀ d, (F x d).get f = d.get f) (d : Dev) :
    (each F xs d).get f = d.get f := by
  induction xs generalizing d with
  | nil => rfl
  | cons x xs ih =>
    rw [each, ih fun y hy => h y (List.mem_cons_of_mem _ hy)]
    exact h x List.mem_cons_self d

/-- A snapshot trigger writes the snapshot's state and its count of dropped triggers. -/
theorem get_snapTrigger {f : Fld} (hs : f.key ≠ R.SNP.STATUS.STATE.key) (hd : f.key ≠ R.SNP.ID.DROPPED.key) (src : Nat) (d : Dev) :
    (snapTrigger src d).get f = d.get f := by
  unfold snapTrigger incSat
  repeat' split
  all_goals simp [get_put_ne, hs, hd]

/-- A recorder trigger writes the recorder's state, its time, its counts and its flag of dropped triggers. -/
theorem get_recTrigger {f : Fld} (hb : bookKey f.key = false)
    (h : f.key ∉ [R.CMP.STAT.COUNT 5, R.CMP.STAT.COUNT 6, R.CMP.STATUS.STATE, R.CMP.REC_TDT.DT, R.CMP.STATUS.SEQ,
      R.CMP.STATUS.TRIG_DROP].map Fld.key) (d : Dev) : (recTrigger d).get f = d.get f := by
  simp only [List.map_cons, List.map_nil, List.mem_cons, List.not_mem_nil, or_false, not_or] at h
  obtain ⟨h5, h6, hst, hdt, hseq, hdrop⟩ := h
  unfold recTrigger inc
  repeat' split
  all_goals simp [get_put_ne, get_event, h5, h6, hst, hdt, hseq, hdrop, hb]

/-- An error event writes what the snapshot trigger and the recorder trigger write. -/
theorem get_errEvent {f : Fld} (hb : bookKey f.key = false)
    (h : f.key ∉ [R.SNP.STATUS.STATE, R.SNP.ID.DROPPED, R.CMP.STAT.COUNT 5, R.CMP.STAT.COUNT 6, R.CMP.STATUS.STATE, R.CMP.REC_TDT.DT,
      R.CMP.STATUS.SEQ, R.CMP.STATUS.TRIG_DROP].map Fld.key) (b : Nat) (d : Dev) : (errEvent b d).get f = d.get f := by
  rw [List.map_cons, List.map_cons, List.mem_cons, List.mem_cons, not_or, not_or] at h
  obtain ⟨hst, hdrop, hrec⟩ := h
  unfold errEvent
  dsimp only
  rw [get_when _ (get_recTrigger hb hrec _), get_when _ (get_snapTrigger hst hdrop _ _)]

end Sys2Proof.Proofs
end

section
/-!
Reset, start-up and the endpoint (R472 to R475).
-/
namespace Sys2Proof.Proofs
open Sys2Proof Sys2Proof.Machine

/-- Settles O6: the empty register file reads the reset values of the tables. -/
theorem resetLeavesTheResetValues : Obligations.ResetLeavesTheResetValues := by
  unfold Obligations.ResetLeavesTheResetValues
  have hreset (f : Fld) : State.reset.dev.get f = resetOf f.key := rfl
  refine ⟨hreset, rfl, rfl, rfl, rfl, rfl, rfl, ?_, ?_, ?_, ?_, ?_, ?_, ?_⟩
  all_goals simp only [hreset]
  all_goals decide +kernel

/-- Settles O7: the device of a reset holds no register but the trip record that it keeps. -/
theorem resetCommandsReset : Obligations.ResetCommandsReset := by
  unfold Obligations.ResetCommandsReset
  refine ⟨fun s htrip => ?_, fun s hvalid hlogged => ?_, fun s => ?_⟩
  · refine completes_total (exec_porstNAssert s) ?_
    rw [htrip]
    exact ⟨fun _ => rfl, rfl, rfl, rfl, rfl, rfl⟩
  · have hkeep : (s.dev.on R.PWR.TRIP.VALID && !s.dev.aon.tripLogged) = true := by rw [hvalid, hlogged]; rfl
    have hone : s.dev.get R.PWR.TRIP.VALID = 1 := by simpa [Dev.on] using hvalid
    refine completes_total (exec_porstNAssert s) ?_
    rw [hkeep]
    refine ⟨?_, ?_, ?_, fun f hf => ?_, rfl, rfl⟩
    · simp (disch := decide) [resetDev, puts, get_put_ne]
      rfl
    · simp (disch := decide) [resetDev, puts, get_put_ne]
    · simp (disch := decide) [resetDev, puts, Dev.on, hone]
    · exact get_puts_ne _ _ hf
  · refine ⟨_, rfl, rfl, ?_⟩
    exact ⟨fun _ => rfl, rfl, rfl, rfl, rfl⟩

/-- Settles O11: outside OFF the released input is only recorded. -/
theorem endpointTrainsAfterPerst : Obligations.EndpointTrainsAfterPerst := by
  unfold Obligations.EndpointTrainsAfterPerst
  intro env s hoff
  have hdev : execPerstNRelease env s = .next (s.after { s.dev with aon := { s.dev.aon with
      perstN := true, trains := decide (3 ≤ s.dev.get R.TOP.STATE.STEP) } }) := by
    simp [execPerstNRelease, run, State.after, hoff]
  exact ⟨_, hdev, rfl, rfl, rfl, frame_of_leaves (Leaves.refl _) s⟩

/-! ## The arbiter's window -/

theorem num_setNum (m : KMap Nat) (k v j : Nat) : num (setNum k v m) j = if j = k then v else num m j := KMap.get_put ..

@[simp] theorem num_nil (k : Nat) : num [] k = 0 := rfl

theorem num_nextMeter (d : Dev) (k : Nat) :
    num d.nextMeter k = if 3 ≤ k ∧ k ≤ 5 then num d.ddr.meter k - 200 * d.get (R.TOP.DRAM_GRANT.GRANT k) else 0 := by
  simp only [Dev.nextMeter, List.foldl_cons, List.foldl_nil, num_setNum, windowBudget, num_nil]
  split
  · next h => subst h; rfl
  · split
    · next h => subst h; rfl
    · split
      · next h => subst h; rfl
      · rw [if_neg (by omega)]

theorem Dev.nextMeter_congr {d e : Dev} (hm : d.ddr.meter = e.ddr.meter)
    (hg : ∀ k, 3 ≤ k → k ≤ 5 → d.get (R.TOP.DRAM_GRANT.GRANT k) = e.get (R.TOP.DRAM_GRANT.GRANT k)) : d.nextMeter = e.nextMeter := by
  simp only [Dev.nextMeter, List.foldl_cons, List.foldl_nil, hm]
  rw [hg 3 (by decide) (by decide), hg 4 (by decide) (by decide), hg 5 (by decide) (by decide)]

/-- The counts of the users that went over their ceiling or were held, at the end of a window. -/
def windowCounts (d : Dev) : Dev :=
  let d := each (fun k d => when (decide (windowBudget (d.get (R.TOP.DRAM_GRANT.CEIL k)) < num d.ddr.meter k)) (ddrPerf (0x10 + k) 1) d) [0, 1, 2] d
  let d := when (flag d.yielding 3) (ddrPerf 0x13 1) d
  let d := when (flag d.yielding 6) (perf 0x13 0x1c00000 9 1) d
  when (flag d.yielding 7) (perf 15 0x1300000 6 1) d

theorem execArbiterWindow_eq (s : State) : exec .arbiterWindow s = total (fun _ d => { windowCounts d with
    ddr := { (windowCounts d).ddr with meter := (windowCounts d).nextMeter
                                       reports := (windowCounts d).ddr.reports - (windowCounts d).reportPace }
    yielding := [] }) s := by
  simp only [exec_arbiterWindow, execArbiterWindow, windowCounts]

theorem leaves_windowCounts (d : Dev) : Leaves [] d (windowCounts d) := by
  have hceil := leaves_each (fun k d => when (decide (windowBudget (d.get (R.TOP.DRAM_GRANT.CEIL k)) < num d.ddr.meter k))
    (ddrPerf (0x10 + k) 1) d) [0, 1, 2] d fun k _ d => leaves_when _ _ d (leaves_perf _ (by unfold PerfBase; decide) ..)
  exact ((hceil.trans (leaves_when _ _ _ (leaves_perf _ (by unfold PerfBase; decide) ..))).trans
    (leaves_when _ _ _ (leaves_perf _ (by unfold PerfBase; decide) ..))).trans
    (leaves_when _ _ _ (leaves_perf _ (by unfold PerfBase; decide) ..))

theorem Dev.get_grant_of_leaves {d e : Dev} (h : Leaves [] d e) {k : Nat} (hlo : 3 ≤ k) (hhi : k ≤ 5) :
    e.get (R.TOP.DRAM_GRANT.GRANT k) = d.get (R.TOP.DRAM_GRANT.GRANT k) := by
  interval_cases k <;> exact h.get (by decide) List.not_mem_nil

/-- Settles O12: the counts of the window touch the books alone, and the new meters are those of `nextMeter`. -/
theorem endsOfArbiterWindows : Obligations.EndsOfArbiterWindows := by
  unfold Obligations.EndsOfArbiterWindows
  intro s
  have hcounts := leaves_windowCounts s.dev
  have hddr := ddr_of_leaves hcounts
  have hgrant {k : Nat} := Dev.get_grant_of_leaves (k := k) hcounts
  have hmeter : (windowCounts s.dev).nextMeter = s.dev.nextMeter :=
    Dev.nextMeter_congr (congrArg DdrS.meter hddr) fun k => hgrant
  have hpace : (windowCounts s.dev).reportPace = s.dev.reportPace := by
    rw [Dev.reportPace, hcounts.get (by decide) List.not_mem_nil, Dev.reportPace]
  refine completes_total (execArbiterWindow_eq s) ?_
  dsimp only
  rw [hmeter, hpace, hddr]
  simp only [after_yielding, after_ddr]
  refine ⟨trivial, num_nextMeter s.dev, fun k hlo hhi hzero => ?_, frame_of_leaves ?_ s⟩
  · have hk : (windowCounts s.dev).get (R.TOP.DRAM_GRANT.GRANT k) = 0 := (hgrant hlo hhi).trans hzero
    simp [Dev.yields, hk, hlo, windowBudget]
  · exact leaves_map (fun e => { e with
      ddr := { s.dev.ddr with meter := s.dev.nextMeter, reports := s.dev.ddr.reports - s.dev.reportPace }, yielding := [] })
      (fun _ => rfl) (fun _ => rfl) hcounts

/-! ## NVM devices that do not answer -/

/-- The NVM accesses of a command that reaches neither device. -/
def noNvm : NvmIo := { a := true, b := true }

@[simp] theorem ioFails_noNvm (i : Nat) : ioFails noNvm i = true := by
  unfold ioFails
  split <;> rfl

theorem nvmTry_noNvm (i : Nat) (d : Dev) : nvmTry noNvm i d = (false, (nvmTry noNvm i d).2) := by
  refine Prod.ext ?_ rfl
  unfold nvmTry
  rw [ioFails_noNvm]
  dsimp only
  split <;> rfl

theorem nvmRead_noNvm (d : Dev) : nvmRead noNvm d = (none, (nvmTry noNvm 1 (nvmTry noNvm 0 d).2).2) := by
  rw [nvmRead, nvmTry_noNvm 0 d]
  dsimp only
  rw [nvmTry_noNvm 1]

/-- The first failure of a device only counts. -/
theorem nvmTry_first {i : Nat} {d : Dev} (hf : (d.nvmS i).failed = false) (he : (d.nvmS i).errs = 0) :
    nvmTry noNvm i d = (false, rasStat 9 1 (setNvm i { d.nvmS i with errs := 1 } d)) := by
  simp [nvmTry, hf, he]

theorem nvmS_put (f : Fld) (v i : Nat) (d : Dev) : (put f v d).nvmS i = d.nvmS i := rfl

theorem nvmS_rasStat (k n i : Nat) (d : Dev) : (rasStat k n d).nvmS i = d.nvmS i := rfl

/-- Two devices that have just been tried again and now fail once are both still in service. -/
theorem nvmRead_first {d : Dev} (h0 : (d.nvmS 0).failed = false ∧ (d.nvmS 0).errs = 0)
    (h1 : (d.nvmS 1).failed = false ∧ (d.nvmS 1).errs = 0) : (nvmRead noNvm d).2.nvmDown = false := by
  have hstep : ((rasStat 9 1 (setNvm 0 { d.nvmS 0 with errs := 1 } d)).nvmS 1) = d.nvmS 1 := by
    rw [nvmS_rasStat, nvmS_setNvm_ne _ _ _ _ (by decide)]
  rw [← hstep] at h1
  rw [nvmRead_noNvm, nvmTry_first h0.1 h0.2, nvmTry_first h1.1 h1.2]
  simp [Dev.nvmDown, nvmS_rasStat, nvmS_setNvm_ne, h0.1]

/-- Step 4 is the failing one where neither device answers. -/
theorem bootImage_noNvm (kind : BootKind) (d : Dev) : ∃ d', bootImage kind noNvm d = (([], 4), d') := by
  have hup : (bootNvm kind noNvm (put R.TOP.STATE.STEP 3 d)).nvmDown = false := by
    rw [bootNvm]
    generalize hd : each _ _ (put R.TOP.STATE.STEP 3 d) = e
    have h0 : (e.nvmS 0).failed = false ∧ (e.nvmS 0).errs = 0 := by
      subst hd
      simp [each, nvmS_put, nvmS_setNvm_ne]
    have h1 : (e.nvmS 1).failed = false ∧ (e.nvmS 1).errs = 0 := by
      subst hd
      simp [each, nvmS_put]
    have hread := nvmRead_first h0 h1
    have hnone := nvmRead_noNvm e
    rw [hnone] at hread ⊢
    exact hread
  rw [bootImage]
  dsimp only
  rw [if_neg (by simp [hup]), bootRead, nvmRead_noNvm]
  exact ⟨_, rfl⟩

/-! ## Service mode -/

theorem leaves_pwrPerf (code n : Nat) (d : Dev) : Leaves [] d (pwrPerf code n d) := leaves_perf 4 (by unfold PerfBase; decide) code n d

/-- A change of the domains shows in the domain registers and their count alone. -/
theorem leaves_setDomains (m : Nat) (d : Dev) :
    Leaves [R.PWR.DOM_ON_HI.ON, R.PWR.DOM_ON_LO.ON, R.PWR.STAT.COUNT 3] d (setDomains m d) :=
  (((leaves_put _ _ d).trans (leaves_put _ _ _)).trans (leaves_put _ _ _)).trans
    ((leaves_pwrPerf ..).trans (leaves_pwrPerf ..))

theorem bootFail_shows (step : Nat) (d : Dev) (hstep : step < 16) :
    (bootFail step d).get R.TOP.STATE.STEP = step ∧ (bootFail step d).get R.TOP.STATE.FAIL = step ∧
      (bootFail step d).get R.TOP.STATE.MODE = 3 ∧ (bootFail step d).get R.MGT.STATUS.STATE = 3 ∧
      (bootFail step d).ras.service = true := by
  unfold bootFail
  dsimp only
  refine ⟨?_, ?_, ?_, ?_, ?_⟩
  rotate_right
  · rw [ras_of_leaves (leaves_logFw ..), ras_of_leaves (leaves_setDomains ..)]
  all_goals
    rw [get_logFw (by decide), (leaves_setDomains _ _).get (by decide) (by decide)]
    simp (disch := decide) [puts, get_put_ne]
  · exact Nat.mod_eq_of_lt hstep
  · exact Nat.mod_eq_of_lt hstep
  · rfl
  · rfl

/-! ## Step 2 without a reference -/

/-- What step 2 of a start does beside the time bases. -/
theorem bootWait_start (env : BootEnv) (d : Dev) :
    bootWait .start env d =
      puts [(R.TOP.STATE.STEP, 2), (R.TOP.STATE.MODE, 0), (R.PWR.STATUS.STATE, 0)] { d with tim := (bootWait .start env d).tim } := rfl

theorem leaves_bootWait_start (env : BootEnv) (d : Dev) :
    Leaves [R.TOP.STATE.STEP, R.TOP.STATE.MODE, R.PWR.STATUS.STATE] { d with tim := (bootWait .start env d).tim } (bootWait .start env d) := by
  rw [bootWait_start]
  exact leaves_puts [(R.TOP.STATE.STEP, 2), (R.TOP.STATE.MODE, 0), (R.PWR.STATUS.STATE, 0)] _

theorem bootWait_start_step (env : BootEnv) (d : Dev) : (bootWait .start env d).get R.TOP.STATE.STEP = 2 := by
  rw [bootWait_start]
  simp (disch := decide) [puts, get_put_ne]
  rfl

theorem bootWait_start_rcOnly {env : BootEnv} (ha : env.refA = false) (hb : env.refB = false) (d : Dev) :
    (bootWait .start env d).tim.rcOnly = true :=
  show (!env.refA && !env.refB) = true by rw [ha, hb]; rfl

theorem bootFrom2_noRef {env : BootEnv} (ha : env.refA = false) (hb : env.refB = false) (kind : BootKind) (m : Mem) (d : Dev) :
    bootFrom2 kind env m d = .next (bootWait kind env d) := by
  rw [bootFrom2, ha, hb]
  rfl

theorem bootFrom2_ref {env : BootEnv} (href : (env.refA || env.refB) = true) (kind : BootKind) (m : Mem) (d : Dev) :
    bootFrom2 kind env m d = bootFrom3 kind env m (bootClocks env (bootWait kind env d)) := by
  rw [bootFrom2, if_neg]
  rw [← Bool.not_or, href]
  decide

/-! ## The commands -/

theorem execStartUp_run {env : BootEnv} {s : State} {d : Dev} (hstep : s.dev.get R.TOP.STATE.STEP = 1)
    (hmode : s.dev.get R.TOP.STATE.MODE = 0) (hoff : s.dev.aon.off = false)
    (h : bootFrom2 .start env s.mem (dtStart s.dev) = .next d) : exec (.startUp env) s = .next (s.after d) := by
  rw [exec_startUp, execStartUp, run, if_pos ⟨hstep, hmode, hoff⟩, h]
  rfl

theorem execRefclkDetected_run {env : BootEnv} {s : State} {d : Dev} (hstep : s.dev.get R.TOP.STATE.STEP = 2)
    (hmode : s.dev.get R.TOP.STATE.MODE = 0) (hoff : s.dev.aon.wakeOff = false)
    (h : bootFrom2 .start env s.mem s.dev = .next d) : exec (.refclkDetected env) s = .next (s.after d) := by
  rw [exec_refclkDetected, execRefclkDetected, run, if_pos ⟨hstep, hmode⟩, hoff, if_neg Bool.false_ne_true, h]
  rfl

theorem busError_shows (bar addr kind : Nat) (write : Bool) (d : Dev) :
    (busError bar addr kind write d).get R.TOP.BUSERR.KIND = kind % 2 ^ 4 ∧
      (busError bar addr kind write d).get R.TOP.BUSERR_ADDR.ADDR = addr % 2 ^ 28 := by
  unfold busError
  dsimp only
  cases write <;> simp (disch := decide) [get_errEvent, get_logEv, get_perf, get_event, get_put_ne]
  all_goals exact ⟨rfl, rfl⟩

/-- Settles O10, from the equations of step 2, of `bootImage` and of a rebase command without its KEY. -/
theorem startUpWaitsOrFails : Obligations.StartUpWaitsOrFails := by
  unfold Obligations.StartUpWaitsOrFails
  refine ⟨fun env s hstep hmode hoff ha hb => ?_, fun env s hstep hmode hoff ha hb => ?_, fun env s hstep hmode hoff href hnvm => ?_,
    fun key env s hkey hserved => ?_⟩
  · refine ⟨_, execStartUp_run hstep hmode hoff (bootFrom2_noRef ha hb ..), rfl, bootWait_start_step .., bootWait_start_rcOnly ha hb _,
      rfl, rfl, ?_⟩
    exact frame_of_leaves (leaves_bootWait_start env (dtStart s.dev)) s
  · refine ⟨_, execRefclkDetected_run hstep hmode hoff (bootFrom2_noRef ha hb ..), rfl, bootWait_start_step ..,
      bootWait_start_rcOnly ha hb _, ?_⟩
    exact frame_of_leaves (leaves_bootWait_start env s.dev) s
  · have hrun := bootFrom2_ref href .start s.mem (dtStart s.dev)
    obtain ⟨d', himg⟩ := bootImage_noNvm .start (bootClocks env (bootWait .start env (dtStart s.dev)))
    have hnvm' : env.nvm = noNvm := hnvm
    rw [← hnvm'] at himg
    rw [bootFrom3_eq himg rfl, if_pos (by decide)] at hrun
    exact ⟨_, execStartUp_run hstep hmode hoff hrun, rfl, bootFail_shows 4 _ (by decide)⟩
  · have hne : key.toNat ≠ 0x4c58 := fun h => hkey (BitVec.eq_of_toNat_eq h)
    refine completes_run (exec_rebase key env s) (d := busError 0 0x264 9 true s.dev) ?_ (busError_shows 0 0x264 9 true s.dev)
    rw [hserved, if_pos rfl, rebaseCmd, if_pos hne]

/-! ## The end of a start-up -/

/-- Steps 7 to 11 until the cores serve: the units are started, and the time of the start-up has passed. -/
def bootUp (kind : BootKind) (env : BootEnv) (start : Nat) (d : Dev) : Dev :=
  let d := put R.TOP.PROFILE_ACT.GG_SPARES (d.get R.TOP.PROFILE.GG_SPARES) d
  let d := puts [(R.TOP.PROFILE_ACT.LATHE_RES, d.get R.TOP.PROFILE.LATHE_RES), (R.TOP.PROFILE_ACT.DRAM_PROT, d.get R.TOP.PROFILE.DRAM_PROT),
    (R.TOP.PROFILE_ACT.LAT_CLASS, d.get R.TOP.PROFILE.LAT_CLASS), (R.TOP.PROFILE_ACT.PWR_CEIL, d.get R.TOP.PROFILE.PWR_CEIL),
    (R.TOP.PROFILE_ACT.T1S_MODE, d.get R.TOP.PROFILE.T1S_MODE), (R.TOP.PROFILE_ACT.REF_MODE, d.get R.TOP.PROFILE.REF_MODE),
    (R.TOP.PROFILE_ACT.REC_TAP, d.get R.TOP.PROFILE.REC_TAP), (R.TOP.PROFILE_ACT.REC_DEPTH, d.get R.TOP.PROFILE.REC_DEPTH)] d
  let d := resolveAll (placeAll (applyMap (each latheLens (List.range 8) (put R.CLS.STRIP.NSTRIPS (d.nstrips % 256) d))))
  let d := setDomains (domMask d.domNeeded) (put R.TOP.STATE.STEP 7 d)
  let d := calAll env (lockPlls (put R.TOP.STATE.STEP 8 d))
  let d := ddrStart env.trainFails env.hpprFails (put R.TOP.STATE.STEP 9 d)
  let d := if kind = .rebase then reportRestart true d else showFirmware d
  reachNs start env.ns.toNat (startUnits (put R.TOP.STATE.STEP 0xa d))

/-- The cores serve: the trip record and DT are taken over, and the faults of the budget and the placement are logged. -/
def bootServe (kind : BootKind) (d : Dev) : Dev :=
  let d := put R.MGT.STATUS.STATE 1 d
  let d := if d.on R.PWR.TRIP.VALID && !d.aon.tripLogged then
      logFw 0x0306 (d.get R.PWR.TRIP.SENSOR) 3 (d.get R.PWR.TRIP.TEMP + 65536 * d.get R.PWR.TRIP.SENSOR + 2 ^ 31)
        (pwrStat 5 1 (event 4 R.PWR.STATUS.SEQ [R.PWR.STATUS.TRIP_SEEN] { d with aon := { d.aon with tripLogged := true } }))
    else d
  let d := if kind = .wake then d else loadDt d
  let d := if kind = .rebase then d else logEv 0x0701 0 0 d.tim.epoch d
  let d := when d.budgetFails (logEv 0x0001 0 3 (d.get R.TOP.DRAM_PLAN.PLAN)) d
  when d.unplaced (logEv 0x0604 0 3 d.nstrips) d

/-- RUN begins. -/
def enterRun (kind : BootKind) (d : Dev) : Dev :=
  let d := each tgApply [0, 1, 2, 3] (puts [(R.TOP.STATE.STEP, 0xb), (R.TOP.STATE.MODE, 1), (R.PWR.STATUS.STATE, 1)] d)
  when (kind == .wake) woke d

theorem bootRun_eq (kind : BootKind) (env : BootEnv) (start : Nat) (d : Dev) :
    bootRun kind env start d =
      if (bootServe kind (bootUp kind env start d)).budgetFails || (bootServe kind (bootUp kind env start d)).unplaced then
        bootServe kind (bootUp kind env start d)
      else enterRun kind (bootServe kind (bootUp kind env start d)) := rfl

theorem get_loadDt {f : Fld} (hb : bookKey f.key = false) (d : Dev) : (loadDt d).get f = d.get f := by
  unfold loadDt
  split
  · exact get_logEv hb ..
  · rfl

theorem get_tgApply (g : Nat) (f : Fld) (d : Dev) : (tgApply g d).get f = d.get f := rfl

/-- What happens once the cores serve touches the flag and the count of a trip, and the books. -/
theorem get_bootServe {f : Fld} (hb : bookKey f.key = false)
    (h : f.key ∉ [R.PWR.STATUS.SEQ, R.PWR.STATUS.TRIP_SEEN, R.PWR.STAT.COUNT 5].map Fld.key) (kind : BootKind) (d : Dev) :
    (bootServe kind d).get f = (put R.MGT.STATUS.STATE 1 d).get f := by
  simp only [List.map_cons, List.map_nil, List.mem_cons, List.not_mem_nil, or_false, not_or] at h
  obtain ⟨hseq, hseen, hcount⟩ := h
  simp [bootServe, get_when_eq, get_ite, get_logEv, get_logFw, get_loadDt, get_event, get_put_ne, pwrStat, inc, hb, hseq, hseen, hcount]

theorem bootServe_state (kind : BootKind) (d : Dev) : (bootServe kind d).get R.MGT.STATUS.STATE = 1 := by
  rw [get_bootServe (by decide) (by decide), get_put_self]
  rfl

/-- RUN writes its state, and what shows a wake. -/
theorem get_enterRun {f : Fld} (hb : bookKey f.key = false)
    (h : f.key ∉ [R.PWR.STATUS.SEQ, R.PWR.STATUS.WOKE, R.PWR.STAT.COUNT 0, R.TIM.ENC_STATUS.SEQ 0, R.TIM.ENC_STATUS.GAP 0,
      R.TIM.ENC_STATUS.SEQ 1, R.TIM.ENC_STATUS.GAP 1].map Fld.key) (kind : BootKind) (d : Dev) :
    (enterRun kind d).get f = (puts [(R.TOP.STATE.STEP, 0xb), (R.TOP.STATE.MODE, 1), (R.PWR.STATUS.STATE, 1)] d).get f := by
  simp only [List.map_cons, List.map_nil, List.mem_cons, List.not_mem_nil, or_false, not_or] at h
  obtain ⟨hseq, hwoke, hcount, hseq0, hgap0, hseq1, hgap1⟩ := h
  simp [enterRun, woke, each, get_tgApply, get_when_eq, (leaves_pwrPerf ..).get, get_event, get_put_ne, pwrStat, inc, hb,
    hseq, hwoke, hcount, hseq0, hgap0, hseq1, hgap1]

theorem bootRun_state (kind : BootKind) (env : BootEnv) (start : Nat) (d : Dev) :
    (bootRun kind env start d).get R.MGT.STATUS.STATE = 1 := by
  rw [bootRun_eq, get_ite, get_enterRun (by decide) (by decide), get_puts_ne _ _ (by decide), ite_self, bootServe_state]

/-- A start-up, first reference or rebase whose image is good runs to its end. -/
theorem bootFrom3_good {kind : BootKind} {env : BootEnv} {m : Mem} {d d' : Dev} {b : List Byte} {x : Applied}
    (himg : bootImage kind env.nvm d = ((b, 0), d'))
    (happly : applyImage m b (put R.TOP.STATE.STEP 6 (if kind = .rebase then d' else setQual 2 d')) = .next x)
    (htime : x.timeout = false) (hlayout : x.dev.layoutErr env.trainFails = none) :
    bootFrom3 kind env m d = .next (bootRun kind env d.dt x.dev) := by
  rw [bootFrom3_eq himg happly, if_neg (by decide)]
  simp [htime, hlayout]

/-- Settles O8: the three ways into step 3 end in the same run of steps 7 to 11, which lets the cores serve. -/
theorem startUpWithImageServes : Obligations.StartUpWithImageServes := by
  unfold Obligations.StartUpWithImageServes
  refine ⟨fun env s b d x hstep hmode hoff href himg happly htime hlayout => ?_,
    fun env s b d x hstep hmode hoff href himg happly htime hlayout => ?_,
    fun env s b d x hserved htakes himg happly htime hlayout => ?_⟩
  · have hrun := bootFrom2_ref href .start s.mem (dtStart s.dev)
    rw [bootFrom3_good himg happly htime hlayout] at hrun
    exact completes_of_exec (execStartUp_run hstep hmode hoff hrun) ⟨rfl, (get_after ..).trans (bootRun_state ..)⟩
  · have hrun := bootFrom2_ref href .start s.mem s.dev
    rw [bootFrom3_good himg happly htime hlayout] at hrun
    exact completes_of_exec (execRefclkDetected_run hstep hmode hoff hrun) ⟨rfl, (get_after ..).trans (bootRun_state ..)⟩
  · refine completes_run (exec_rebase 0x4c58#16 env s) (d := bootRun .rebase env (rebaseStop env s.dev).dt x.dev) ?_
      ⟨rfl, (get_after ..).trans (bootRun_state ..)⟩
    have hrun : rebase env s.mem s.dev = _ := bootFrom3_good himg happly htime hlayout
    rw [hserved, if_pos rfl, rebaseCmd, if_neg (by decide), if_pos htakes, hrun]

end Sys2Proof.Proofs
end

section
/-!
The owner of a resource: what a run-time claim, a preemption and a release change.
-/
namespace Sys2Proof.Proofs
open Sys2Proof Sys2Proof.Machine

/-! ## A part of the device that no effect of a preemption touches -/

/-- A part of the device that every turn leaves is left by all of them. -/
theorem proj_each {α β : Type} (π : Dev → β) {F : α → Dev → Dev} {xs : List α} (h : ∀ x ∈ xs, ∀ d, π (F x d) = π d) (d : Dev) :
    π (each F xs d) = π d := by
  induction xs generalizing d with
  | nil => rfl
  | cons x xs ih =>
    rw [each, ih fun y hy => h y (List.mem_cons_of_mem _ hy)]
    exact h x List.mem_cons_self d

/-- A part of the device that the effect leaves is left where it happens and where it does not. -/
theorem proj_when {β : Type} (π : Dev → β) (c : Bool) {F : Dev → Dev} {d : Dev} (h : π (F d) = π d) : π (when c F d) = π d := by
  cases c with
  | true => exact h
  | false => rfl

theorem rtHold_dramWrite (a : Nat) (bs : List Byte) (d : Dev) : (dramWrite a bs d).rtHold = d.rtHold := by
  unfold dramWrite
  split
  · rfl
  · exact proj_each (·.rtHold) (by intros; rfl) d

theorem rtHold_recDenied (d : Dev) : (recDenied d).rtHold = d.rtHold :=
  (rtHold_of_leaves (leaves_event ..)).trans rfl

theorem rtHold_closeChunk (last : Bool) (d : Dev) : (closeChunk last d).rtHold = d.rtHold := by
  unfold closeChunk
  dsimp only
  split
  · rfl
  split
  · exact rtHold_recDenied d
  · simp only [cmpPerf, cmpStat, inc, rtHold_of_leaves (leaves_perf _ (by unfold PerfBase; decide : PerfBase 0x1d80000) _ _ _), put_rtHold]
    rw [proj_when (·.rtHold) _ rfl, put_rtHold]
    exact (rtHold_dramWrite _ _ _).trans rfl

theorem rtHold_stagingLost (d : Dev) : (stagingLost d).rtHold = d.rtHold := by
  unfold stagingLost
  split
  · rfl
  · exact (proj_when (·.rtHold) _ (rtHold_closeChunk ..)).trans (rtHold_of_leaves (leaves_event ..))

theorem rtHold_halt (c cause : Nat) (d : Dev) : (halt c cause d).rtHold = d.rtHold := by
  unfold halt dmaPerf
  dsimp only
  rw [rtHold_of_leaves (leaves_perf _ (by unfold PerfBase; decide) _ _ _), rtHold_of_leaves (leaves_raise _ _),
    proj_when (·.rtHold) _ (F := dmaStat c 2 1) (put_rtHold _ _ _), rtHold_of_leaves (leaves_event ..), rtHold_of_leaves (leaves_event ..)]
  rfl

/-- What the loser of a resource suffers leaves the run-time holders. -/
theorem rtHold_preemptEffect (ty idx : Nat) (ch : Option Nat) (d : Dev) : (preemptEffect ty idx ch d).rtHold = d.rtHold := by
  unfold preemptEffect
  split
  · dsimp only
    repeat' split
    all_goals rfl
  · exact (rtHold_of_leaves (leaves_event ..)).trans rfl
  · exact (proj_when (·.rtHold) _ (rtHold_of_leaves (leaves_event ..))).trans (proj_when (·.rtHold) _ (rtHold_recDenied d))
  · repeat' split
    · exact rtHold_stagingLost d
    · exact rtHold_halt ..
    · rfl

/-! ## The report of a denial or a preemption -/

/-- The fields of `TOP.OWN_EVT`. -/
def ownEvtFlds : List Fld :=
  [R.TOP.OWN_EVT.SEQ, R.TOP.OWN_EVT.KIND, R.TOP.OWN_EVT.NOENT, R.TOP.OWN_EVT.TYPE, R.TOP.OWN_EVT.ENTRY, R.TOP.OWN_EVT.CLAIMANT]

theorem leaves_ownEvent (p : Bool) (ty idx c : Nat) (e : Option Nat) (d : Dev) :
    Leaves ownEvtFlds d (ownEvent p ty idx c e d) := by
  refine (((leaves_event 0 R.TOP.OWN_EVT.SEQ [] d).trans (leaves_puts _ _)).trans (leaves_logEv ..)).mono ?_
  simp only [List.map_cons, List.map_nil]
  decide

/-- The event shows its kind, the resource's type, the claimant and its entry, and moves SEQ on. -/
theorem ownEvent_shows (p : Bool) (ty idx c : Nat) (e : Option Nat) (d : Dev) (hty : ty < 5) :
    (ownEvent p ty idx c e d).get R.TOP.OWN_EVT.KIND = b2n p ∧ (ownEvent p ty idx c e d).get R.TOP.OWN_EVT.TYPE = ty ∧
    (ownEvent p ty idx c e d).get R.TOP.OWN_EVT.CLAIMANT = c % 2 ^ R.TOP.OWN_EVT.CLAIMANT.w ∧
    (ownEvent p ty idx c e d).get R.TOP.OWN_EVT.NOENT = b2n e.isNone ∧
    (ownEvent p ty idx c e d).get R.TOP.OWN_EVT.ENTRY = (e.getD 0) % 2 ^ R.TOP.OWN_EVT.ENTRY.w ∧
    (ownEvent p ty idx c e d).get R.TOP.OWN_EVT.SEQ = nextSeq (d.get R.TOP.OWN_EVT.SEQ) % 256 := by
  have hb : ∀ b : Bool, b2n b % 2 = b2n b := by decide
  refine ⟨?_, ?_, ?_, ?_, ?_, ?_⟩ <;> unfold ownEvent <;>
    simp (disch := decide) only [get_logEv, puts, get_put_ne, get_put_self, get_event_seq]
  · exact hb p
  · exact Nat.mod_eq_of_lt (by simp only [R.TOP.OWN_EVT.TYPE]; omega)
  · exact hb _
  · rfl

/-! ## A claim by what it finds, and a release -/

section
variable {ty idx o h : Nat} {d : Dev}

theorem claim_free (hh : d.holderNow ty idx = none) :
    claim ty idx o d = { grantRt ty idx o d with rtAt := KMap.put (fun _ => none) d.rtAt (4096 * ty + idx) (some d.clockNow) } := by
  rw [claim, hh]
  rfl

theorem claim_own (hh : d.holderNow ty idx = some o) :
    claim ty idx o d = { d with rtFree := d.rtFree.filter (· != 4096 * ty + idx) } := by
  rw [claim, hh]
  exact if_pos rfl

theorem claim_denied (hh : d.holderNow ty idx = some h) (hne : h ≠ o)
    (hat : KMap.get (fun _ => none) d.rtAt (4096 * ty + idx) ≠ some d.clockNow) (hc : ownerClass h ≤ ownerClass o) :
    claim ty idx o d = ownEvent false ty idx o (d.entryOf ty idx o) d := by
  rw [claim, hh]
  dsimp only
  rw [if_neg hne, if_neg hat, if_neg (by omega)]

/-- The device on which a preemption runs its effect on the loser: its entry shows that it is denied. -/
def loserDenied (ty idx h : Nat) (d : Dev) : Dev :=
  match d.entryOf ty idx h with
  | some n => puts [(R.TOP.OWN.HELD n, 0), (R.TOP.OWN.DENIED n, 1)] d
  | none => d

theorem rtHold_loserDenied (ty idx h : Nat) (d : Dev) : (loserDenied ty idx h d).rtHold = d.rtHold := by
  unfold loserDenied
  split <;> rfl

theorem claim_preempts (hh : d.holderNow ty idx = some h) (hne : h ≠ o)
    (hat : KMap.get (fun _ => none) d.rtAt (4096 * ty + idx) ≠ some d.clockNow) (hc : ownerClass o < ownerClass h) :
    claim ty idx o d = ownEvent true ty idx h (d.entryOf ty idx h)
      (preemptEffect ty idx (if ty = 4 then d.sliceChannel idx else none) (grantRt ty idx o (loserDenied ty idx h d))) := by
  rw [claim, hh]
  dsimp only
  rw [if_neg hne, if_neg hat, if_pos hc]
  rfl

theorem claim_contended (hh : d.holderNow ty idx = some h) (hne : h ≠ o)
    (hat : KMap.get (fun _ => none) d.rtAt (4096 * ty + idx) = some d.clockNow) :
    claim ty idx o d = if claimWins o h then ownEvent false ty idx h (d.entryOf ty idx h) (grantRt ty idx o d)
      else ownEvent false ty idx o (d.entryOf ty idx o) d := by
  rw [claim, hh]
  dsimp only
  rw [if_neg hne, if_pos hat]

theorem rtHold_grantRt : KMap.get (fun _ => none) (grantRt ty idx o d).rtHold (4096 * ty + idx) = some o := by
  rw [grantRt, KMap.get_put_self]

/-- A resource without an entry goes back to nobody: the return of a run-time holding writes no entry. -/
theorem release_unlisted (hidx : idx < 4096) (hh : KMap.get (fun _ => none) d.rtHold (4096 * ty + idx) = some o)
    (he : (d.ownEntries ty idx).isEmpty = true) (hty : ty ≠ 1) :
    release ty idx o d = { d with rtHold := KMap.put (fun _ => none) d.rtHold (4096 * ty + idx) none,
                                  rtFree := d.rtFree.filter (· != 4096 * ty + idx) } := by
  have hdiv : (4096 * ty + idx) / 4096 = ty := by omega
  have hmod : (4096 * ty + idx) % 4096 = idx := by omega
  have hwin : ∀ rh rf, Dev.ownWinner { d with rtHold := rh, rtFree := rf } ty idx = none := fun rh rf =>
    show minBy _ (d.ownEntries ty idx) = none by rw [List.isEmpty_iff.mp he]; rfl
  unfold release returnStatic
  simp only [hh, he, hdiv, hmod, hwin]
  simp [hty]

/-- A pin, or a resource with an entry, waits for the next composite block boundary. -/
theorem release_listed (hh : KMap.get (fun _ => none) d.rtHold (4096 * ty + idx) = some o)
    (he : (d.ownEntries ty idx).isEmpty = false ∨ ty = 1) :
    ∃ rf, release ty idx o d = { d with rtFree := rf } ∧ 4096 * ty + idx ∈ rf := by
  have hif : ((d.ownEntries ty idx).isEmpty && ty != 1) = false := by
    rcases he with he | he <;> simp [he]
  unfold release
  simp only [hh, hif, bne_self_eq_false, Bool.false_eq_true, if_false]
  split
  · next hc => exact ⟨_, rfl, by simpa using hc⟩
  · exact ⟨_, rfl, by simp⟩

end

theorem exec_claim {ty : Fin 5} {idx : Fin 64} {o : Fin 15} {s : State} (free : Bool)
    (hr : resourceOk ty.val idx.val = true) (ho : o.val ≠ 0) {post : State → Prop} :
    post (s.after (if free then release ty.val idx.val o.val s.dev else claim ty.val idx.val o.val s.dev)) →
    Completes (.runTimeClaim ty idx o free) s post := by
  intro hpost
  refine completes_total (exec_runTimeClaim ..) ?_
  rwa [if_neg (by simp [hr, ho])]

theorem fin_claimant (o : Fin 15) : o.val % 2 ^ R.TOP.OWN_EVT.CLAIMANT.w = o.val :=
  Nat.mod_eq_of_lt (by simp only [R.TOP.OWN_EVT.CLAIMANT]; omega)

/-- Settles O13: a claim by what it finds (`claim_free` to `claim_contended`), and a release by whether the resource is listed. -/
theorem runTimeClaimsFollowTheClasses : Obligations.RunTimeClaimsFollowTheClasses := by
  unfold Obligations.RunTimeClaimsFollowTheClasses
  refine ⟨?free, ?own, ?denied, ?preempts, ?contended, ?unlisted, ?listed, ?nothing⟩
  case free =>
    intro ty idx o s hr ho hh
    refine exec_claim false hr ho ?_
    rw [if_neg Bool.false_ne_true, claim_free hh]
    exact ⟨rtHold_grantRt, frame_of_leaves (Leaves.refl _) s⟩
  case own =>
    intro ty idx o s hr ho hh
    refine exec_claim false hr ho ?_
    rw [if_neg Bool.false_ne_true, claim_own hh]
    exact frame_of_leaves (Leaves.refl _) s
  case denied =>
    intro ty idx o h s hr ho hh hne hat hc
    refine exec_claim false hr ho ?_
    rw [if_neg Bool.false_ne_true, claim_denied hh hne hat hc]
    obtain ⟨hkind, htype, hclaim, hnoent, hentry, hseq⟩ :=
      ownEvent_shows false ty.val idx.val o.val (s.dev.entryOf ty.val idx.val o.val) s.dev ty.isLt
    exact ⟨(get_after ..).trans hkind, (get_after ..).trans htype, (get_after ..).trans (hclaim.trans (fin_claimant o)),
      (get_after ..).trans hnoent, (get_after ..).trans hentry, (get_after ..).trans hseq, frame_of_leaves (leaves_ownEvent ..) s⟩
  case preempts =>
    intro ty idx o h s hr ho hh hne hat hc
    refine exec_claim false hr ho ?_
    rw [if_neg Bool.false_ne_true, claim_preempts hh hne hat hc]
    obtain ⟨hkind, htype, hclaim, -⟩ := ownEvent_shows true ty.val idx.val h (s.dev.entryOf ty.val idx.val h)
      (preemptEffect ty.val idx.val (if ty.val = 4 then s.dev.sliceChannel idx.val else none)
        (grantRt ty.val idx.val o.val (loserDenied ty.val idx.val h s.dev))) ty.isLt
    refine ⟨?_, (get_after ..).trans hkind, (get_after ..).trans htype, (get_after ..).trans hclaim⟩
    rw [after_rtHold, rtHold_of_leaves (leaves_ownEvent ..), rtHold_preemptEffect]
    exact rtHold_grantRt
  case contended =>
    intro ty idx o h s hr ho hh hne hat
    refine exec_claim false hr ho ?_
    rw [if_neg Bool.false_ne_true, claim_contended hh hne hat]
    cases hw : claimWins o.val h with
    | true =>
      rw [if_pos rfl]
      obtain ⟨hkind, htype, hclaim, -⟩ := ownEvent_shows false ty.val idx.val h (s.dev.entryOf ty.val idx.val h)
        (grantRt ty.val idx.val o.val s.dev) ty.isLt
      refine ⟨fun _ => ⟨?_, (get_after ..).trans hclaim⟩, fun h => Bool.noConfusion h, (get_after ..).trans hkind, (get_after ..).trans htype⟩
      rw [after_rtHold, rtHold_of_leaves (leaves_ownEvent ..)]
      exact rtHold_grantRt
    | false =>
      rw [if_neg Bool.false_ne_true]
      obtain ⟨hkind, htype, hclaim, -⟩ :=
        ownEvent_shows false ty.val idx.val o.val (s.dev.entryOf ty.val idx.val o.val) s.dev ty.isLt
      exact ⟨fun h => Bool.noConfusion h, fun _ => ⟨(after_rtHold ..).trans (rtHold_of_leaves (leaves_ownEvent ..)), (get_after ..).trans (hclaim.trans (fin_claimant o))⟩,
        (get_after ..).trans hkind, (get_after ..).trans htype⟩
  case unlisted =>
    intro ty idx o s hr ho hh he hty
    refine exec_claim true hr ho ?_
    rw [if_pos rfl, release_unlisted (by omega) hh he hty]
    exact ⟨by rw [after_rtHold, KMap.get_put_self], frame_of_leaves (Leaves.refl _) s⟩
  case listed =>
    intro ty idx o s hr ho hh he
    refine exec_claim true hr ho ?_
    obtain ⟨rf, hrel, hmem⟩ := release_listed hh he
    rw [if_pos rfl, hrel]
    exact ⟨hmem, frame_of_leaves (Leaves.refl _) s⟩
  case nothing =>
    intro ty idx o free s h
    refine completes_total (exec_runTimeClaim ..) ?_
    rw [if_pos (by rcases h with h | h <;> simp [h])]

end Sys2Proof.Proofs
end

section
/-!
The snapshot network, and the reads of the host.
-/
namespace Sys2Proof.Proofs
open Sys2Proof Sys2Proof.Machine

section
variable {fs : List Fld} {d e : Dev} (h : Leaves fs d e)
include h

theorem leaves_withSnap {x : SnapS} : Leaves fs { d with snap := x } { e with snap := x } :=
  leaves_map (fun d => { d with snap := x }) (fun _ => rfl) (fun _ => rfl) h

theorem leaves_withOut {x : List Out} : Leaves fs { d with out := x } { e with out := x } :=
  leaves_map (fun d => { d with out := x }) (fun _ => rfl) (fun _ => rfl) h

theorem leaves_withRead {x : List Out} {l : KMap (Option (Nat × Nat))} {p : Option Nat} {n : Nat} :
    Leaves fs { d with out := x, latch := l, epochLatch := p, free := n } { e with out := x, latch := l, epochLatch := p, free := n } :=
  leaves_map (fun d => { d with out := x, latch := l, epochLatch := p, free := n }) (fun _ => rfl) (fun _ => rfl) h

end

/-! ## The snapshot -/

/-- A change of the snapshot's copies, and of nothing else: the instances that have yet to confirm stay. -/
def OnlyCopies (d e : Dev) : Prop := ∃ copies, e = { d with snap := { d.snap with copies := copies } }

theorem OnlyCopies.refl (d : Dev) : OnlyCopies d d := ⟨d.snap.copies, rfl⟩

theorem OnlyCopies.trans {d e g : Dev} (h : OnlyCopies d e) (h' : OnlyCopies e g) : OnlyCopies d g := by
  obtain ⟨c, rfl⟩ := h
  obtain ⟨c', rfl⟩ := h'
  exact ⟨c', rfl⟩

theorem onlyCopies_each {α : Type} {F : α → Dev → Dev} (h : ∀ x d, OnlyCopies d (F x d)) (xs : List α) (d : Dev) :
    OnlyCopies d (each F xs d) := by
  induction xs generalizing d with
  | nil => exact OnlyCopies.refl d
  | cons x xs ih => exact (h x d).trans (ih _)

theorem snap_dtSteps (n : Nat) (d : Dev) : (dtSteps n d).snap = d.snap := (snap_of_leaves (leaves_dtSteps n d)).trans rfl

theorem onlyCopies_copyReg (r : RegDef) (addr : Nat) (d : Dev) : OnlyCopies d (copyReg r addr d) := by
  unfold copyReg
  exact ⟨_, rfl⟩

/-- A unit that confirms changes only the copies. -/
theorem onlyCopies_latchBlock (code inst : Nat) (d : Dev) : OnlyCopies d (latchBlock code inst d) := by
  unfold latchBlock
  split
  · exact OnlyCopies.refl d
  · dsimp only
    split
    · exact onlyCopies_each (fun r => onlyCopies_each (fun o d => onlyCopies_copyReg r _ d) _) _ d
    · exact ⟨_, rfl⟩

/-- The snapshot that a trigger of a source has started: its time, its source, and that every unit has yet to confirm. -/
def snapStarted (src : Nat) (d : Dev) : SnapS :=
  { d.snap with t := dtAddNs d.dt (max 2000 (d.get R.SNP.LEAD.LEAD_NS)), src := 2 ^ src, waiting := allInstances }

/-- A trigger from an enabled source while the snapshot is armed. -/
theorem snapTrigger_armed {src : Nat} {d : Dev} (hen : bit (d.get R.SNP.CTL.SRC_EN) src = true) (hst : d.get R.SNP.STATUS.STATE = 1) :
    snapTrigger src d = { put R.SNP.STATUS.STATE 2 d with snap := snapStarted src d } := by
  rw [snapTrigger, if_pos hen, if_pos hst]
  dsimp only
  rw [get_put_ne (by decide)]
  rfl

theorem snapStarted_shows (src : Nat) (d : Dev) :
    (snapStarted src d).t = dtAddNs d.dt (max 2000 (d.get R.SNP.LEAD.LEAD_NS)) ∧ (snapStarted src d).src = 2 ^ src ∧
    (snapStarted src d).waiting = allInstances := ⟨rfl, rfl, rfl⟩

theorem snapTrigger_disabled {src : Nat} {d : Dev} (hen : bit (d.get R.SNP.CTL.SRC_EN) src = false) : snapTrigger src d = d := by
  rw [snapTrigger, if_neg (by simp [hen])]

/-- The device of a snapshot that all instances have confirmed. -/
def snapHeld (d : Dev) : Dev :=
  event 1 R.SNP.STATUS.SEQ [] (puts [(R.SNP.STATUS.STATE, 3), (R.SNP.ID.ID, d.get R.SNP.ID.ID + 1), (R.SNP.T.T, d.snap.t),
    (R.SNP.STATUS.SRC, d.snap.src)] d)

theorem execSnapshotHeld_all {s : State} (hst : s.dev.get R.SNP.STATUS.STATE = 2) (hw : s.dev.snap.waiting = []) :
    execSnapshotHeld s = total (fun _ d => when ((snapHeld d).on R.CMP.REC_TRIG.SNAP) recTrigger (snapHeld d)) s := by
  simp only [execSnapshotHeld, total, run, hst, hw, and_self, if_true, snapHeld]

/-- The device of a snapshot in which one more unit confirms. -/
def confirmed (code inst : Nat) (d : Dev) : Dev :=
  { latchBlock code inst d with snap :=
    { (latchBlock code inst d).snap with waiting := (latchBlock code inst d).snap.waiting.filter (fun y => y != (code, inst)) } }

theorem confirmed_eq (code inst : Nat) (d : Dev) : ∃ sn, sn.waiting = d.snap.waiting.filter (fun y => y != (code, inst)) ∧
    confirmed code inst d = { d with snap := sn } := by
  obtain ⟨copies, hl⟩ := onlyCopies_latchBlock code inst d
  exact ⟨_, rfl, by rw [confirmed, hl]⟩

theorem execSnapshotLatch_waiting {block : Fin 22} {inst : Fin 136} {s : State} (hst : s.dev.get R.SNP.STATUS.STATE = 2)
    (hw : (block.val, inst.val) ∈ s.dev.snap.waiting) :
    execSnapshotLatch block inst s = total (fun _ d => confirmed block.val inst.val (reach d.snap.t d)) s := by
  have hc : s.dev.snap.waiting.contains (block.val, inst.val) = true := List.contains_iff_mem.mpr hw
  simp only [execSnapshotLatch, total, run, hst, hc, and_self, if_true, confirmed]

/-- Settles O19: the snapshot's states, a case for each command in each of its states. -/
theorem snapshotStates : Obligations.SnapshotStates := by
  unfold Obligations.SnapshotStates
  refine ⟨fun s hst => ?arm, fun s hst => ?armed, fun mgmt s hen hst => ?trigger, fun mgmt s hen => ?ignored,
    fun rising s hpin hpol hen hst => ?snapIn, fun block inst s hc hst hw => ?latch, fun s hst hw => ?held, fun s hst => ?release⟩
  case arm =>
    refine completes_total (exec_arm ..) ?_
    rw [snapArm, if_pos hst]
    refine ⟨(get_after ..).trans (get_put_self ..), (get_after ..).trans ?_, frame_of_leaves ?_ s⟩
    · rw [get_put_ne (by decide), get_put_self, Nat.zero_mod]
    · exact ((leaves_put ..).trans (leaves_put ..)).mono (by decide)
  case armed =>
    refine completes_total (exec_arm ..) ?_
    rw [snapArm, if_neg hst]
  case trigger =>
    refine completes_total (exec_snapshotTrigger ..) ?_
    rw [snapTrigger_armed hen hst]
    obtain ⟨ht, hsrc, hwait⟩ := snapStarted_shows (if mgmt then 4 else 0) s.dev
    exact ⟨(get_after ..).trans ((get_congr (e := put R.SNP.STATUS.STATE 2 s.dev) rfl _).trans (get_put_self ..)),
      ht, hsrc, hwait, frame_of_leaves (leaves_withSnap (leaves_put R.SNP.STATUS.STATE 2 s.dev)) s⟩
  case ignored =>
    refine completes_total (exec_snapshotTrigger ..) ?_
    rw [snapTrigger_disabled hen]
  case snapIn =>
    refine completes_total (exec_snapIn ..) ?_
    rw [if_pos ⟨hpin, hpol⟩, snapTrigger_armed hen hst]
    exact ⟨(get_after ..).trans ((get_congr (e := put R.SNP.STATUS.STATE 2 s.dev) rfl _).trans (get_put_self ..)),
      (snapStarted_shows 1 s.dev).2.1, frame_of_leaves (leaves_withSnap (leaves_put R.SNP.STATUS.STATE 2 s.dev)) s⟩
  case latch =>
    refine completes_total ((exec_snapshotLatch ..).trans (execSnapshotLatch_waiting hst hw)) ?_
    rw [reach_quiet hc]
    have hsnap := snap_dtSteps (s.dev.stepsTo s.dev.snap.t) s.dev
    generalize dtSteps (s.dev.stepsTo s.dev.snap.t) s.dev = d at hsnap ⊢
    obtain ⟨sn, hwait, he⟩ := confirmed_eq block.val inst.val d
    rw [he]
    exact ⟨by rw [after_snap, hwait, hsnap], frame_of_leaves (Leaves.refl _) s⟩
  case held =>
    refine completes_total ((exec_snapshotHeld s).trans (execSnapshotHeld_all hst hw)) ?_
    refine ⟨?_, ?_, ?_, ?_, ?_⟩ <;> rw [get_after, get_when _ (get_recTrigger (by decide) (by decide) _), snapHeld]
    case refine_5 =>
      rw [get_event_seq (by decide) (by decide)]
      simp (disch := decide) only [puts, get_put_ne]
      rfl
    all_goals
      rw [get_event (by decide) (by decide) (by decide)]
      simp (disch := decide) only [puts, get_put_ne, get_put_self]
    all_goals rfl
  case release =>
    refine completes_total (exec_snapshotRelease ..) ?_
    rw [snapRelease, if_pos hst]
    exact ⟨(get_after ..).trans (get_put_self ..), frame_of_leaves (leaves_put ..) s⟩

/-! ## Host reads -/

/-- The books leave what says whether the device serves the host. -/
theorem served_of_leaves {d e : Dev} (h : Leaves [] d e) : e.served = d.served := by
  unfold Dev.served
  rw [h.get (f := R.TOP.STATE.STEP) (by decide) List.not_mem_nil, h.get (f := R.TOP.STATE.MODE) (by decide) List.not_mem_nil]

theorem leaves_hstPerf (code n : Nat) (d : Dev) : Leaves [] d (hstPerf code n d) := leaves_perf _ (by unfold PerfBase; decide) code n d

/-- A register read changes the latches of 64-bit pairs and takes free values, and nothing else. -/
theorem readAt_changes (a size : Nat) (d : Dev) : ∃ l e n, (readAt a size d).2 = { d with latch := l, epochLatch := e, free := n } := by
  have h0 : ∀ base, ∃ l e n, when (d.countsClocks (a / 4 * 4)) takeFree (dropLatch base d) =
      { d with latch := l, epochLatch := e, free := n } := by
    intro base
    unfold dropLatch
    by_cases hbase : base = 0x100000 <;> simp only [hbase, if_true, if_false] <;> cases d.countsClocks (a / 4 * 4) <;>
      exact ⟨_, _, _, rfl⟩
  unfold readAt
  dsimp only
  split
  · exact ⟨d.latch, d.epochLatch, d.free, rfl⟩
  · next base _ =>
    obtain ⟨l, e, n, h⟩ := h0 base
    rw [h]
    repeat' split
    all_goals exact ⟨_, _, _, rfl⟩

theorem out_event (code : Nat) (seq : Fld) (fs : List Fld) (d : Dev) : (event code seq fs d).out = d.out :=
  out_of_leaves (leaves_event ..)

theorem out_recTrigger (d : Dev) : (recTrigger d).out = d.out := by
  unfold recTrigger inc
  repeat' split
  · rfl
  · rfl
  · rw [put_out, out_event]

theorem out_snapTrigger (src : Nat) (d : Dev) : (snapTrigger src d).out = d.out := by
  unfold snapTrigger
  repeat' split
  all_goals rfl

theorem out_errEvent (b : Nat) (d : Dev) : (errEvent b d).out = d.out := by
  unfold errEvent
  dsimp only
  rw [proj_when (·.out) _ (F := recTrigger) (out_recTrigger _), proj_when (·.out) _ (F := snapTrigger 3) (out_snapTrigger _ _)]

theorem out_busError_read (bar addr kind : Nat) (d : Dev) : (busError bar addr kind false d).out = d.out := by
  unfold busError incSat
  simp only [when, Bool.false_eq_true, if_false, out_errEvent, put_out, out_event]

theorem out_dropLatchAt (a : Nat) (d : Dev) : (dropLatchAt a d).out = d.out := by
  unfold dropLatchAt dropLatch setLatch
  repeat' split
  all_goals rfl

theorem out_emit (o : Out) (d : Dev) : (emit o d).out = o :: d.out := rfl

section
variable {user : Bool} {a size : Nat} {d : Dev} (hoff : d.aon.off = false)
include hoff

/-- A read that breaks no rule of BAR0. -/
theorem hostRead_value (hserved : d.served = true) (herr : readErr a size = none) :
    hostRead false a size d =
      emit (.readDone 0 a size (readAt a size (hstPerf 1 1 d)).1 false) (readAt a size (hstPerf 1 1 d)).2 := by
  have hs : (hstPerf 1 1 d).served = true := (served_of_leaves (leaves_hstPerf ..)).trans hserved
  simp only [hostRead, hoff, when, hs, herr, Bool.not_false, Bool.not_true, Bool.false_eq_true, if_false, if_true]

theorem hostRead_abort {k : Nat} (hserved : d.served = true) (herr : readErr a size = some k) :
    hostRead false a size d = emit (.readAbort 0 a) (busError 0 a k false (dropLatchAt a (hstPerf 1 1 d))) := by
  have hs : (hstPerf 1 1 d).served = true := (served_of_leaves (leaves_hstPerf ..)).trans hserved
  simp only [hostRead, hoff, when, hs, herr, Bool.not_false, Bool.not_true, Bool.false_eq_true, if_false, if_true, barCode]

theorem hostRead_user (hserved : d.served = true) (herr : userErr a size = none) :
    hostRead true a size d = emit (.readDone 2 a size (leVal ((d.userPage.drop a).take size)) false) d := by
  simp only [hostRead, hoff, when, hserved, herr, Bool.not_true, Bool.false_eq_true, if_false, if_true]

theorem hostRead_unsupported (hserved : d.served = false) :
    hostRead user a size d = emit (.unsupported (barCode user) a) (when (!user) (hstPerf 1 1) d) := by
  have hs : (when (!user) (hstPerf 1 1) d).served = false :=
    (proj_when Dev.served _ (F := hstPerf 1 1) (served_of_leaves (leaves_hstPerf ..))).trans hserved
  simp only [hostRead, hoff, hs, Bool.not_false, Bool.false_eq_true, if_false, if_true]

end

/-- Settles O14: a read by where it goes and whether it breaks a rule. -/
theorem registerReadsComplete : Obligations.RegisterReadsComplete := by
  unfold Obligations.RegisterReadsComplete
  refine ⟨fun addr size s hoff hserved herr => ?value, fun addr size k s hoff hserved herr => ?abort, fun addr size s hoff hserved herr => ?user,
    fun user addr size s hoff hserved => ?unsupported, fun user addr size s hoff => ?off⟩ <;>
    refine completes_total (exec_registerRead ..) ?_
  case value =>
    obtain ⟨l, e, n, hread⟩ := readAt_changes addr.toNat size (hstPerf 1 1 s.dev)
    rw [hostRead_value hoff hserved herr, hread]
    have hl := leaves_hstPerf 1 1 s.dev
    generalize hstPerf 1 1 s.dev = d at hl ⊢
    refine ⟨?_, frame_of_leaves (leaves_withRead hl) s⟩
    rw [after_out, out_emit]
    dsimp only
    rw [out_of_leaves hl]
  case abort =>
    rw [hostRead_abort hoff hserved herr]
    obtain ⟨hkind, haddr⟩ := busError_shows 0 addr.toNat k false (dropLatchAt addr.toNat (hstPerf 1 1 s.dev))
    refine ⟨?_, (get_after ..).trans hkind, (get_after ..).trans haddr⟩
    rw [after_out, out_emit, out_busError_read, out_dropLatchAt, out_of_leaves (leaves_hstPerf 1 1 s.dev)]
  case user =>
    rw [hostRead_user hoff hserved herr]
    exact ⟨by rw [after_out, out_emit], frame_of_leaves (leaves_withOut (Leaves.refl _)) s⟩
  case unsupported =>
    rw [hostRead_unsupported hoff hserved]
    have hl : Leaves [] s.dev (when (!user) (hstPerf 1 1) s.dev) := leaves_when _ _ _ (leaves_hstPerf ..)
    exact ⟨by rw [after_out, out_emit, out_of_leaves hl], frame_of_leaves (leaves_withOut hl) s⟩
  case off => rw [hostRead, if_pos hoff]

end Sys2Proof.Proofs
end

section
/-!
What a command changes beside named registers and one part of the device, and what an event raises.
-/
namespace Sys2Proof.Proofs
open Sys2Proof Sys2Proof.Machine

/-- A command that completes, by the device to which its effect comes down. -/
theorem completes_to {f : Mem → Dev → Dev} {c : Instr} {s : State} {post : State → Prop} (hc : exec c s = total f s) (d : Dev)
    (hd : f s.mem s.dev = d) (hpost : post (s.after d)) : Completes c s post := by
  subst hd
  exact completes_total hc hpost

/-! ## Changes up to a part of the device -/

/-- `G x` sets a part of the device, which holds no register and is none of the books. -/
def SetsPart {α : Type} (G : α → Dev → Dev) : Prop := ∀ x d, (G x d).regs = d.regs ∧ (G x d).body = (G x d.body).body

/-- From `d` to `e` only these registers, the books, and the part that `G` sets may have changed. -/
structure Upto {α : Type} (G : α → Dev → Dev) (fs : List Fld) (d e : Dev) : Prop where
  leaves : ∀ x, Leaves fs (G x d) (G x e)

section
variable {α : Type} {G : α → Dev → Dev} {fs gs : List Fld} {d e g : Dev}

theorem upto_of_leaves (hG : SetsPart G) (h : Leaves fs d e) : Upto G fs d e :=
  ⟨fun x => leaves_map (G x) (fun d => (hG x d).1) (fun d => (hG x d).2) h⟩

theorem upto_of_eq (h : ∀ x, G x e = G x d) : Upto G [] d e :=
  ⟨fun x => by rw [h]; exact Leaves.refl _⟩

theorem Upto.trans (h : Upto G fs d e) (h' : Upto G gs e g) : Upto G (fs ++ gs) d g := ⟨fun x => (h.leaves x).trans (h'.leaves x)⟩

theorem Upto.mono (h : Upto G fs d e) (hs : ∀ f ∈ fs, f.key ∈ gs.map Fld.key) : Upto G gs d e := ⟨fun x => (h.leaves x).mono hs⟩

/-- A frame whose part is the one that the command left. -/
theorem frame_of_upto (h : Upto G fs d e) (s : State) (x : α) (hx : G x e = e) : Frame fs (G x d) s (s.after e) := by
  have hl := h.leaves x
  rw [hx] at hl
  exact frame_of_leaves hl s

end

/-- The device with other time bases. -/
def withTim (x : TimS) (d : Dev) : Dev := { d with tim := x }

theorem setsPart_withTim : SetsPart withTim := fun _ _ => ⟨rfl, rfl⟩

theorem upto_setTim (x : TimS) (d : Dev) : Upto withTim [] d { d with tim := x } := upto_of_eq fun _ => rfl

theorem get_of_uptoTim {fs : List Fld} {d e : Dev} (h : Upto withTim fs d e) {f : Fld} (hb : bookKey f.key = false)
    (hf : f.key ∉ fs.map Fld.key) : e.get f = d.get f := (h.leaves d.tim).get hb hf

theorem frame_tim {fs : List Fld} {d e : Dev} (h : Upto withTim fs d e) (s : State) :
    Frame fs { d with tim := (s.after e).dev.tim } s (s.after e) := frame_of_upto h s e.tim rfl

theorem get_withTim (x : TimS) (d : Dev) (f : Fld) : (withTim x d).get f = d.get f := rfl

/-! ## Events -/

/-- Between `d0` and `e` an RSQ register had one event: what came before it left its SEQ, and what came after left it and its flags. -/
theorem raised_of_event {seq : Fld} {fs : List Fld} {code : Nat} {d0 d e : Dev} (hb : ∀ f ∈ seq :: fs, bookKey f.key = false)
    (hw : ∀ f ∈ fs, f.w = 1) (hfs : seq.key ∉ fs.map Fld.key) (h0 : d.get seq = d0.get seq)
    (he : ∀ f ∈ seq :: fs, e.get f = (event code seq fs d).get f) : Raised seq fs d0 e := by
  constructor
  · rw [he seq List.mem_cons_self, get_event_seq (hb seq List.mem_cons_self) hfs, h0]
  · intro f hf
    rw [Dev.on, he f (List.mem_cons_of_mem _ hf), get_event_flag (hb f (List.mem_cons_of_mem _ hf)) hw hf]
    rfl

theorem raised_after {seq : Fld} {fs : List Fld} {d e : Dev} (h : Raised seq fs d e) (s : State) : Raised seq fs d (s.after e).dev :=
  ⟨(get_after ..).trans h.1, fun f hf => (congrArg (· == 1) (get_after ..)).trans (h.2 f hf)⟩

/-- An event, where what came before it left its SEQ. -/
theorem raised_event {seq : Fld} {fs : List Fld} {code : Nat} {d0 d : Dev} (hb : ∀ f ∈ seq :: fs, bookKey f.key = false)
    (hw : ∀ f ∈ fs, f.w = 1) (hfs : seq.key ∉ fs.map Fld.key) (h0 : d.get seq = d0.get seq) : Raised seq fs d0 (event code seq fs d) :=
  raised_of_event hb hw hfs h0 fun _ _ => rfl

/-- What comes after an event leaves its SEQ and its flags. -/
theorem raised_then {seq : Fld} {fs gs : List Fld} {d e e' : Dev} (h : Raised seq fs d e) (hl : Leaves gs e e')
    (hb : ∀ f ∈ seq :: fs, bookKey f.key = false) (hgs : ∀ f ∈ seq :: fs, f.key ∉ gs.map Fld.key) : Raised seq fs d e' :=
  ⟨(hl.get (hb _ List.mem_cons_self) (hgs _ List.mem_cons_self)).trans h.1, fun f hf =>
    (congrArg (· == 1) (hl.get (hb _ (List.mem_cons_of_mem _ hf)) (hgs _ (List.mem_cons_of_mem _ hf)))).trans (h.2 f hf)⟩

theorem raised_thenTim {seq : Fld} {fs gs : List Fld} {d e e' : Dev} (h : Raised seq fs d e) (hl : Upto withTim gs e e')
    (hb : ∀ f ∈ seq :: fs, bookKey f.key = false) (hgs : ∀ f ∈ seq :: fs, f.key ∉ gs.map Fld.key) : Raised seq fs d e' :=
  ⟨(get_of_uptoTim hl (hb _ List.mem_cons_self) (hgs _ List.mem_cons_self)).trans h.1, fun f hf =>
    (congrArg (· == 1) (get_of_uptoTim hl (hb _ (List.mem_cons_of_mem _ hf)) (hgs _ (List.mem_cons_of_mem _ hf)))).trans (h.2 f hf)⟩

theorem segS_after (s : State) (d : Dev) (k : Nat) : (s.after d).dev.segS k = d.segS k := rfl
theorem dt_after (s : State) (d : Dev) : (s.after d).dev.dt = d.dt := rfl

end Sys2Proof.Proofs
end

section
/-!
References and PLLs: what the quality shows, and what a loss, a return, an unlock and a relock change.
-/
namespace Sys2Proof.Proofs
open Sys2Proof Sys2Proof.Machine

/-! ## The quality of Device Time -/

theorem leaves_setQual (q : Nat) (d : Dev) : Leaves [R.TIM.DT_QUAL.QUAL] d (setQual q d) := by
  unfold setQual
  split
  · exact (Leaves.refl d).mono (by simp)
  · exact ((leaves_put ..).trans (leaves_logEv ..)).mono (by simp)

theorem get_setQual {q : Nat} (hq : q < 4) (d : Dev) : (setQual q d).get R.TIM.DT_QUAL.QUAL = q := by
  unfold setQual
  split
  · assumption
  · rw [get_logEv (by decide), get_put_self]
    exact Nat.mod_eq_of_lt hq

theorem upto_goCoarse (d : Dev) : Upto withTim [R.TIM.DT_QUAL.QUAL] d (goCoarse d) :=
  (upto_setTim _ d).trans (upto_of_leaves setsPart_withTim (leaves_setQual ..))

theorem upto_showQual (d : Dev) : Upto withTim [R.TIM.DT_QUAL.QUAL] d (showQual d) := by
  unfold showQual
  split
  · exact (upto_setTim _ d).mono (by simp)
  split
  · exact upto_of_leaves setsPart_withTim (leaves_setQual ..)
  split
  · exact upto_goCoarse d
  · exact (upto_of_eq (fun _ => rfl)).mono (by simp)

/-- Showing the quality leaves the references as they are. -/
theorem refRun_showQual (d : Dev) : (showQual d).tim.refRun = d.tim.refRun := by
  have hset : ∀ q d, (setQual q d).tim = d.tim := fun q d => tim_of_leaves (leaves_setQual q d)
  unfold showQual goCoarse
  repeat' split
  all_goals simp [hset]

theorem showQual_locked {d : Dev} (hoff : d.aon.off = false) (hlock : bit (d.get R.PWR.PLL.LOCK) 3 = true) :
    showQual d = setQual d.lockedQual d := by
  rw [showQual, if_neg (by simp [hoff]), if_pos hlock]

/-! ## A reference is lost or is eligible again -/

/-- The device that has lost a reference input. -/
def refGone (i : Nat) (d : Dev) : Dev :=
  { d with tim := { d.tim with refRun := setFlag i false d.tim.refRun, refElig := setFlag i false d.tim.refElig } }

/-- The device for which a reference input is eligible. -/
def refBack (i : Nat) (d : Dev) : Dev :=
  { d with tim := { d.tim with refRun := setFlag i true d.tim.refRun, refElig := setFlag i true d.tim.refElig } }

theorem flag_setFlag (k : Nat) (b : Bool) (m : KMap Bool) : flag (setFlag k b m) k = b := KMap.get_put_self ..

theorem flag_setFlag_ne {j k : Nat} (h : j ≠ k) (b : Bool) (m : KMap Bool) : flag (setFlag k b m) j = flag m j :=
  KMap.get_put_ne _ _ _ _ _ h

/-- The switch to the other reference. -/
def refSwitch (j : Nat) (d : Dev) : Dev :=
  logEv 0x068f 0 2 j (rasStat 8 1 (event 6 R.RAS.STATUS.SEQ [R.RAS.STATUS.REF_SWITCH] (put R.TIM.DT_QUAL.REF_B j d)))

/-- The device whose time base holds over after the loss. -/
def refHeld (i : Nat) (d : Dev) : Dev := { refGone i d with tim := { (refGone i d).tim with holdover := true } }

/-- The device that takes its reference in use again. -/
def refTaken (i : Nat) (d : Dev) : Dev := { refBack i d with tim := { (refBack i d).tim with holdover := false } }

theorem upto_refHeld (i : Nat) (d : Dev) : Upto withTim [] d (refHeld i d) := upto_of_eq fun _ => rfl
theorem upto_refTaken (i : Nat) (d : Dev) : Upto withTim [] d (refTaken i d) := upto_of_eq fun _ => rfl
theorem tim_refHeld (i : Nat) (d : Dev) : (refHeld i d).tim = { (refGone i d).tim with holdover := true } := rfl
theorem tim_refTaken (i : Nat) (d : Dev) : (refTaken i d).tim = { (refBack i d).tim with holdover := false } := rfl
theorem get_refHeld (i : Nat) (d : Dev) (f : Fld) : (refHeld i d).get f = d.get f := rfl
theorem get_refTaken (i : Nat) (d : Dev) (f : Fld) : (refTaken i d).get f = d.get f := rfl
theorem aon_refHeld (i : Nat) (d : Dev) : (refHeld i d).aon = d.aon := rfl
theorem aon_refTaken (i : Nat) (d : Dev) : (refTaken i d).aon = d.aon := rfl
theorem refElig_refBack (i : Nat) (d : Dev) : (refBack i d).tim.refElig = setFlag i true d.tim.refElig := rfl
theorem refRun_refGone (i : Nat) (d : Dev) : (refGone i d).tim.refRun = setFlag i false d.tim.refRun := rfl
theorem refElig_refGone (i : Nat) (d : Dev) : (refGone i d).tim.refElig = setFlag i false d.tim.refElig := rfl

theorem flag_other (i : Fin 2) (d : Dev) : flag (refGone i.val d).tim.refElig (1 - i.val) = flag d.tim.refElig (1 - i.val) := by
  rw [refElig_refGone, flag_setFlag_ne (by omega)]

theorem upto_refGone (i : Nat) (d : Dev) : Upto withTim [] d (refGone i d) := upto_of_eq fun _ => rfl
theorem upto_refBack (i : Nat) (d : Dev) : Upto withTim [] d (refBack i d) := upto_of_eq fun _ => rfl

/-- The fields that a switch of the reference writes. -/
def refSwitchFlds : List Fld := [R.TIM.DT_QUAL.REF_B, R.RAS.STATUS.SEQ, R.RAS.STATUS.REF_SWITCH, R.RAS.STAT.COUNT 8]

theorem leaves_refSwitch (j : Nat) (d : Dev) : Leaves refSwitchFlds d (refSwitch j d) :=
  (((leaves_put ..).trans (leaves_event ..)).trans ((leaves_put ..).trans (leaves_logEv ..))).mono (by decide)

theorem upto_switched (i j : Nat) (d : Dev) :
    Upto withTim (refSwitchFlds ++ [R.TIM.DT_QUAL.QUAL]) d (showQual (refSwitch j (refGone i d))) :=
  ((upto_refGone i d).trans (upto_of_leaves setsPart_withTim (leaves_refSwitch j _))).trans (upto_showQual _)

/-- What the device shows after a switch, whatever the quality then shows. -/
theorem get_showQual {f : Fld} (hb : bookKey f.key = false) (hf : f.key ≠ R.TIM.DT_QUAL.QUAL.key) (d : Dev) :
    (showQual d).get f = d.get f :=
  get_of_uptoTim (upto_showQual d) hb (by simpa using hf)

theorem get_refSwitch {f : Fld} (hb : bookKey f.key = false) (hf : f.key ∉ refSwitchFlds.map Fld.key) (j : Nat) (d : Dev) :
    (refSwitch j d).get f = d.get f :=
  (leaves_refSwitch j d).get hb hf

theorem execRefclkLoss_switches {i : Fin 2} {s : State} {post : State → Prop} (hi : s.dev.refInUse = i.val)
    (h : (s.dev.on R.TOP.PROFILE_ACT.REF_MODE && flag s.dev.tim.refElig (1 - i.val)) = true)
    (hpost : post (s.after (showQual (refSwitch (1 - i.val) (refGone i.val s.dev))))) : Completes (.refclkLoss i) s post := by
  have h' : ((refGone i.val s.dev).on R.TOP.PROFILE_ACT.REF_MODE && flag (refGone i.val s.dev).tim.refElig (1 - i.val)) = true := by
    rw [flag_other]
    exact h
  refine completes_to (exec_refclkLoss i s) _ ?_ hpost
  exact (if_neg (c := (refGone i.val s.dev).refInUse ≠ i.val) (not_not.mpr hi)).trans (if_pos h')

theorem execRefclkLoss_holds {i : Fin 2} {s : State} {post : State → Prop} (hi : s.dev.refInUse = i.val)
    (h : (s.dev.on R.TOP.PROFILE_ACT.REF_MODE && flag s.dev.tim.refElig (1 - i.val)) = false)
    (hpost : post (s.after (showQual (refHeld i.val s.dev)))) :
    Completes (.refclkLoss i) s post := by
  have h' : ((refGone i.val s.dev).on R.TOP.PROFILE_ACT.REF_MODE && flag (refGone i.val s.dev).tim.refElig (1 - i.val)) = false := by
    rw [flag_other]
    exact h
  refine completes_to (exec_refclkLoss i s) _ ?_ hpost
  exact (if_neg (c := (refGone i.val s.dev).refInUse ≠ i.val) (not_not.mpr hi)).trans (if_neg ((Bool.not_eq_true _).mpr h'))

theorem execRefclkEligible_ends {i : Fin 2} {s : State} {post : State → Prop} (hi : s.dev.refInUse = i.val)
    (h : s.dev.tim.holdover = true)
    (hpost : post (s.after (showQual (put R.TIM.DT_QUAL.REF_B i.val (refTaken i.val s.dev))))) :
    Completes (.refclkEligible i) s post := by
  refine completes_to (exec_refclkEligible i s) _ ?_ hpost
  refine if_pos ?_
  have hi' : ((refBack i.val s.dev).refInUse == i.val) = true := beq_iff_eq.mpr hi
  have hh : (refBack i.val s.dev).tim.holdover = true := h
  change ((refBack i.val s.dev).tim.holdover && ((refBack i.val s.dev).refInUse == i.val || _)) = true
  rw [hh, hi']
  rfl

/-! ## A PLL loses its lock or has it again -/

theorem bit_sub {v i w : Nat} (h : bit v i = true) (hi : i < w) : bit ((v - 2 ^ i) % 2 ^ w) i = false := by
  have hv : v / 2 ^ i % 2 = 1 := by simpa [bit] using h
  have hsub : (v - 2 ^ i) / 2 ^ i = v / 2 ^ i - 1 := by
    simpa using Nat.sub_mul_div v (2 ^ i) 1
  rw [bit_congr (Nat.mod_mod_of_dvd _ (dvd_refl _)) hi, bit, hsub]
  simp only [beq_eq_false_iff_ne]
  omega

theorem bit_add {v i w : Nat} (h : bit v i = false) (hi : i < w) : bit ((v + 2 ^ i) % 2 ^ w) i = true := by
  have hv : v / 2 ^ i % 2 ≠ 1 := by simpa [bit] using h
  have hadd : (v + 2 ^ i) / 2 ^ i = v / 2 ^ i + 1 := Nat.add_div_right v (Nat.two_pow_pos i)
  rw [bit_congr (Nat.mod_mod_of_dvd _ (dvd_refl _)) hi, bit, hadd]
  simp only [beq_iff_eq]
  omega

/-- The device of a PLL that has lost its lock, before what its loss does elsewhere. -/
def pllLost (i : Nat) (d : Dev) : Dev :=
  logEv 0x0488 0 2 i (pwrPerf 4 1 (pwrStat 4 1 (event 4 R.PWR.STATUS.SEQ [R.PWR.STATUS.PLL_UNLOCK]
    (put R.PWR.PLL.LOCK (d.get R.PWR.PLL.LOCK - 2 ^ i) d))))

/-- The effects elsewhere: the Carver's clock stops, or Device Time has its coarse quality. -/
def pllLostElse (i : Nat) (d : Dev) : Dev :=
  if i = 3 then goCoarse (when (i == 2) (put R.CRV.CLK.MHZ 0) d) else when (i == 2) (put R.CRV.CLK.MHZ 0) d

/-- The fields that the effects of a PLL's lock elsewhere write. -/
def clockFlds : List Fld := [R.CRV.CLK.MHZ, R.TIM.DT_QUAL.QUAL]

theorem upto_pllLostElse (i : Nat) (d : Dev) : Upto withTim clockFlds d (pllLostElse i d) := by
  have hmhz : Upto withTim [R.CRV.CLK.MHZ] d (when (i == 2) (put R.CRV.CLK.MHZ 0) d) :=
    upto_of_leaves setsPart_withTim (leaves_when _ _ _ (leaves_put ..))
  unfold pllLostElse
  split
  · exact (hmhz.trans (upto_goCoarse _)).mono (by decide)
  · exact hmhz.mono (by decide)

theorem leaves_pllLost (i : Nat) (d : Dev) :
    Leaves [R.PWR.PLL.LOCK, R.PWR.STATUS.SEQ, R.PWR.STATUS.PLL_UNLOCK, R.PWR.STAT.COUNT 4] d (pllLost i d) :=
  ((leaves_put ..).trans ((leaves_event ..).trans ((leaves_put ..).trans ((leaves_pwrPerf ..).trans (leaves_logEv ..))))).mono (by decide)

theorem pllUnlock_locked {i : Nat} {d : Dev} (h : bit (d.get R.PWR.PLL.LOCK) i = true) :
    pllUnlock i d = pllLostElse i (pllLost i d) := by
  rw [pllUnlock, if_neg (by simp [h])]
  rfl

/-- The device of a PLL that has its lock again, and the effects elsewhere. -/
def pllBack (i : Nat) (d : Dev) : Dev := put R.PWR.PLL.LOCK (d.get R.PWR.PLL.LOCK + 2 ^ i) d

def pllBackElse (i : Nat) (d : Dev) : Dev :=
  if i = 3 then setQual (if i = 2 then showClock d else d).lockedQual (if i = 2 then showClock d else d) else if i = 2 then showClock d else d

theorem leaves_pllBackElse (i : Nat) (d : Dev) : Leaves clockFlds d (pllBackElse i d) := by
  have hmhz : Leaves [R.CRV.CLK.MHZ] d (if i = 2 then showClock d else d) := by
    split
    · exact leaves_put ..
    · exact (Leaves.refl d).mono (by simp)
  unfold pllBackElse
  split
  · exact (hmhz.trans (leaves_setQual ..)).mono (by decide)
  · exact hmhz.mono (by decide)

/-- Settles O23: the devices of a lost and of an eligible reference, and of a PLL without and with its lock. -/
theorem referencesAndPllsChange : Obligations.ReferencesAndPllsChange := by
  unfold Obligations.ReferencesAndPllsChange
  refine ⟨fun i s hi hoff h => execRefclkLoss_switches hi h ?switch, fun i s hi hoff hlock h => execRefclkLoss_holds hi h ?holdover,
    fun i s hi hoff hlock hh => execRefclkEligible_ends hi hh ?back, fun i s h => ?unlock, fun i s hrun h => ?relock⟩
  case switch =>
    refine ⟨?_, ?_, ?_, ?_, ?_⟩
    · rw [get_after, get_showQual (by decide) (by decide), refSwitch, rasStat, inc]
      simp (disch := decide) only [get_logEv, get_put_ne, get_event, get_put_self]
      exact Nat.mod_eq_of_lt (by simp only [R.TIM.DT_QUAL.REF_B]; omega)
    · refine raised_of_event (code := 6) (d := put R.TIM.DT_QUAL.REF_B (1 - i.val) (refGone i.val s.dev)) (by decide) (by decide) (by decide)
        (get_put_ne (by decide) _ _) fun f hf => ?_
      have hk : bookKey f.key = false ∧ f.key ≠ R.TIM.DT_QUAL.QUAL.key ∧ f.key ≠ (R.RAS.STAT.COUNT 8).key := by
        revert f; decide
      rw [get_after, get_showQual hk.1 hk.2.1, refSwitch, get_logEv hk.1, rasStat, inc, get_put_ne hk.2.2]
    · rw [Counted, get_after, get_showQual (by decide) (by decide), refSwitch, rasStat, inc]
      simp (disch := decide) only [get_logEv, get_put_ne, get_event, get_put_self]
      rfl
    · rw [after_tim, refRun_showQual, tim_of_leaves (leaves_refSwitch ..), refRun_refGone, flag_setFlag]
    · exact frame_tim ((upto_switched i.val (1 - i.val) s.dev).mono (by decide)) s
  case holdover =>
    rw [showQual_locked (by rw [aon_refHeld, hoff]) (by rw [get_refHeld, hlock])]
    have ht := tim_of_leaves (leaves_setQual (refHeld i.val s.dev).lockedQual (refHeld i.val s.dev))
    refine ⟨?_, ?_, ?_, ?_, ?_⟩
    · rw [after_tim, ht, tim_refHeld]
    · rw [get_after, Dev.lockedQual, tim_refHeld, get_setQual (by simp [b2n])]
      rfl
    · rw [after_tim, ht, tim_refHeld, refRun_refGone, flag_setFlag]
    · rw [after_tim, ht, tim_refHeld, refElig_refGone, flag_setFlag]
    · exact frame_tim ((upto_refHeld i.val s.dev).trans (upto_of_leaves setsPart_withTim (leaves_setQual ..))) s
  case back =>
    rw [showQual_locked (by rw [put_aon, aon_refTaken, hoff]) (by rw [get_put_ne (by decide), get_refTaken, hlock])]
    have hl := leaves_setQual (put R.TIM.DT_QUAL.REF_B i.val (refTaken i.val s.dev)).lockedQual (put R.TIM.DT_QUAL.REF_B i.val (refTaken i.val s.dev))
    refine ⟨?_, ?_, ?_, ?_, ?_⟩
    · rw [after_tim, tim_of_leaves hl, put_tim, tim_refTaken]
    · rw [get_after, Dev.lockedQual, put_tim, tim_refTaken, get_setQual (by simp [b2n])]
      rfl
    · rw [get_after, hl.get (by decide) (by decide), get_put_self]
      exact Nat.mod_eq_of_lt (by simp only [R.TIM.DT_QUAL.REF_B]; omega)
    · rw [after_tim, tim_of_leaves hl, put_tim, tim_refTaken, refElig_refBack, flag_setFlag]
    · exact frame_tim (((upto_refTaken i.val s.dev).trans (upto_of_leaves setsPart_withTim ((leaves_put ..).trans hl))).mono (by decide)) s
  case unlock =>
    refine completes_to (exec_pllUnlock i s) _ (pllUnlock_locked h) ?_
    have hget : ∀ {f : Fld}, bookKey f.key = false → f.key ∉ clockFlds.map Fld.key →
        (pllLostElse i.val (pllLost i.val s.dev)).get f = (pllLost i.val s.dev).get f := fun hb hf =>
      get_of_uptoTim (upto_pllLostElse ..) hb hf
    refine ⟨?_, ?_, ?_, ?_⟩
    · rw [get_after, hget (by decide) (by decide), pllLost, pwrStat, inc, pwrPerf]
      simp (disch := decide) only [get_logEv, get_perf, get_put_ne, get_event, get_put_self]
      exact bit_sub h i.isLt
    · refine raised_of_event (code := 4) (d := put R.PWR.PLL.LOCK (s.dev.get R.PWR.PLL.LOCK - 2 ^ i.val) s.dev) (by decide) (by decide)
        (by decide) (get_put_ne (by decide) _ _) fun f hf => ?_
      have hk : bookKey f.key = false ∧ f.key ∉ clockFlds.map Fld.key ∧ f.key ≠ (R.PWR.STAT.COUNT 4).key := by
        revert f; decide
      rw [get_after, hget hk.1 hk.2.1, pllLost, get_logEv hk.1, pwrPerf, get_perf (by decide) hk.1, pwrStat, inc, get_put_ne hk.2.2]
    · rw [Counted, get_after, hget (by decide) (by decide), pllLost, pwrStat, inc, pwrPerf]
      simp (disch := decide) only [get_logEv, get_perf, get_put_ne, get_event, get_put_self]
    · exact frame_tim (((upto_of_leaves setsPart_withTim (leaves_pllLost ..)).trans (upto_pllLostElse ..)).mono (by decide)) s
  case relock =>
    refine completes_to (exec_pllRelock i s) (pllBackElse i.val (pllBack i.val s.dev)) ?_ ?_
    · exact if_neg (by simp [hrun, h])
    · have hl := leaves_pllBackElse i.val (pllBack i.val s.dev)
      refine ⟨?_, ?_⟩
      · rw [get_after, hl.get (by decide) (by decide), pllBack, get_put_self]
        exact bit_add h i.isLt
      · exact frame_tim ((upto_of_leaves setsPart_withTim ((leaves_put ..).trans hl)).mono (by decide)) s

end Sys2Proof.Proofs
end

section
/-!
The first clock of a batch with an armed recipe: a held record can raise the next batch event.
-/
namespace Sys2Proof.Proofs
open Sys2Proof Sys2Proof.Machine

/-- A batch event is pending at a composite block boundary, and recipe 1 is armed with one held record, which writes 1 to
`TIM.BATCH_CTL`, whose bit 0 is END (R68). -/
def recipeEndsBatch : State :=
  { State.reset with dev := { put R.TOP.RECIPE.STATE 2 State.reset.dev with
      tim := { State.reset.dev.tim with batchPending := true }
      rcp := { State.reset.dev.rcp with loading := 1, kept := [{ addr := 0x100704, count := 1, op := 1, cls := 0, words := [1] }] } } }

/-- The outcome is a device that, with the verdict tables exchanged, has a batch event pending. -/
def leavesPending (o : Host.Outcome Dev Fault Refusal) : Bool :=
  match o with
  | .next e => (vrdSwap e).tim.batchPending
  | _ => false

theorem next_of_leavesPending {o : Host.Outcome Dev Fault Refusal} (h : leavesPending o = true) :
    ∃ e, o = .next e ∧ (vrdSwap e).tim.batchPending = true := by
  cases o with
  | next e => exact ⟨e, rfl, h⟩
  | fault r => exact absurd h Bool.false_ne_true
  | refused r => exact absurd h Bool.false_ne_true

/-- The recipe applies, and its record leaves a batch event pending again. -/
theorem recipeEndsBatch_pending : leavesPending (recipeApply recipeEndsBatch.mem (batchOpen recipeEndsBatch.dev)) = true := by
  decide +kernel

/-- Refutes O24: an armed recipe may hold a record that writes `BATCH_CTL.END`; the event that BATCH_START takes is then pending
again in the same clock, so `batchPending` is not false after it. -/
theorem not_batchesEndAndStart : ¬ Obligations.BatchesEndAndStart := by
  unfold Obligations.BatchesEndAndStart
  rintro ⟨-, -, -, h⟩
  obtain ⟨e, he, hpending⟩ := next_of_leavesPending recipeEndsBatch_pending
  have hready : recipeEndsBatch.dev.tim.batchPending = true ∧ recipeEndsBatch.dev.atBoundary = true ∧
      recipeEndsBatch.dev.get R.TOP.RECIPE.STATE = 2 := by decide +kernel
  obtain ⟨hevent, hboundary, hstate⟩ := hready
  generalize recipeEndsBatch = s at he hevent hboundary hstate
  obtain ⟨t, -, -, ht, hclear, -⟩ := h s hevent hboundary hstate e he
  rw [ht, after_tim, hpending] at hclear
  exact Bool.noConfusion hclear

end Sys2Proof.Proofs
end

section
/-!
Host Time and the Segment Times: the PTM dialogue, and the PTP messages that fall due.
-/
namespace Sys2Proof.Proofs
open Sys2Proof Sys2Proof.Machine

/-! ## The PTM dialogue -/

theorem leaves_timPerf (code n : Nat) (d : Dev) : Leaves [] d (timPerf code n d) := leaves_perf _ (by unfold PerfBase; decide) code n d

/-- A request leaves: its DT is held until its answer. -/
def ptmAsked (d : Dev) : Dev := emit (.ptmRequest d.dt) { d with tim := { d.tim with ptmAt := some d.dt } }

theorem ptmStart_on {d : Dev} (h : d.tim.ptmOn = true) : ptmStart d = timPerf 4 1 (ptmAsked d) := by
  rw [ptmStart, if_pos h]
  rfl

theorem ptmStart_off {d : Dev} (h : d.tim.ptmOn = false) :
    ptmStart d = event 7 R.TIM.PTM_STATUS.SEQ [R.TIM.PTM_STATUS.UNAVAIL] d := by
  rw [ptmStart, if_neg (by simp [h])]

theorem ptmStart_shows {d : Dev} (h : d.tim.ptmOn = true) :
    (ptmStart d).tim = { d.tim with ptmAt := some d.dt } ∧ (ptmStart d).out = .ptmRequest d.dt :: d.out ∧
    ∀ o, o = .ptmRequest d.dt :: d.out → Leaves [] { d with out := o, tim := { d.tim with ptmAt := some d.dt } } (ptmStart d) := by
  rw [ptmStart_on h]
  have hl := leaves_timPerf 4 1 (ptmAsked d)
  refine ⟨(tim_of_leaves hl).trans rfl, (out_of_leaves hl).trans rfl, ?_⟩
  rintro o rfl
  exact hl

/-- The device that starts a periodic dialogue. -/
def ptmFrom (d : Dev) : Dev := { d with tim := { d.tim with ptmFrom := d.dt } }

theorem run_fault {f : Mem → Dev → Host.Outcome Dev Fault Refusal} {s : State} {r : Fault} (h : f s.mem s.dev = .fault r) :
    run f s = .fault r := by
  rw [run, h]

/-- The device without a request outstanding. -/
def ptmForgot (d : Dev) : Dev := { d with tim := { d.tim with ptmAt := none } }

/-- The device that has the answer to the request sent at `x`. -/
def ptmAnswered (x : Nat) (master : BitVec 64) (delay : BitVec 32) (d : Dev) : Dev :=
  event 7 R.TIM.PTM_STATUS.SEQ [R.TIM.PTM_STATUS.NEW] (puts [(R.TIM.PTM_DT.DT, x),
    (R.TIM.PTM_HT.HT, unsgn 64 ((master.toNat : Int) - delay.toNat)), (R.TIM.PTM_DELAY.NS, delay.toNat)] (ptmForgot d))

theorem leaves_ptmAnswered (x : Nat) (master : BitVec 64) (delay : BitVec 32) (d : Dev) :
    Leaves [R.TIM.PTM_DT.DT, R.TIM.PTM_HT.HT, R.TIM.PTM_DELAY.NS, R.TIM.PTM_STATUS.SEQ, R.TIM.PTM_STATUS.NEW] (ptmForgot d)
      (ptmAnswered x master delay d) :=
  ((leaves_puts ..).trans (leaves_event ..)).mono (by simp [seqAnd])

theorem ptmAnswered_shows (x : Nat) (master : BitVec 64) (delay : BitVec 32) (d : Dev) :
    (ptmAnswered x master delay d).get R.TIM.PTM_DT.DT = x % 2 ^ 64 ∧ (ptmAnswered x master delay d).get R.TIM.PTM_DELAY.NS = delay.toNat ∧
    (ptmAnswered x master delay d).get R.TIM.PTM_HT.HT = unsgn 64 ((master.toNat : Int) - delay.toNat) := by
  refine ⟨?_, ?_, ?_⟩ <;> rw [ptmAnswered, get_event (by decide) (by decide) (by decide)] <;>
    simp (disch := decide) only [puts, get_put_ne, get_put_self]
  · rfl
  · exact Nat.mod_eq_of_lt delay.isLt
  · exact Nat.mod_eq_of_lt (unsgn_lt ..)

theorem get_ptmForgot (d : Dev) (f : Fld) : (ptmForgot d).get f = d.get f := rfl

theorem raised_ptmAnswered (x : Nat) (master : BitVec 64) (delay : BitVec 32) (d : Dev) :
    Raised R.TIM.PTM_STATUS.SEQ [R.TIM.PTM_STATUS.NEW] d (ptmAnswered x master delay d) := by
  refine raised_event (by decide) (by decide) (by decide) ?_
  rw [get_puts_ne _ _ (by simp only [List.map_cons, List.map_nil]; decide), get_ptmForgot]

/-- The device that gives the request up. -/
def ptmGivenUp (d : Dev) : Dev := timPerf 5 1 (event 7 R.TIM.PTM_STATUS.SEQ [R.TIM.PTM_STATUS.TIMEOUT] (ptmForgot d))

theorem raised_ptmGivenUp (d : Dev) : Raised R.TIM.PTM_STATUS.SEQ [R.TIM.PTM_STATUS.TIMEOUT] d (ptmGivenUp d) :=
  raised_then (raised_event (by decide) (by decide) (by decide) (get_ptmForgot d _)) (leaves_timPerf 5 1 _) (by decide) (by decide)

theorem leaves_ptmGivenUp (d : Dev) : Leaves [R.TIM.PTM_STATUS.SEQ, R.TIM.PTM_STATUS.TIMEOUT] (ptmForgot d) (ptmGivenUp d) :=
  ((leaves_event ..).trans (leaves_timPerf ..)).mono (by decide)

/-- The device at the time of a segment's next Sync or Announce. -/
def syncReached (k : Nat) (d : Dev) : Dev :=
  match (d.segS k).syncAt with
  | none => d
  | some t => reach (unsgn 64 ((t : Int) + (1000000000 * 65536 / 2 ^ d.get (R.TIM.SEG_CTL.SYNC_N k) : Nat))) d

def announceReached (k : Nat) (d : Dev) : Dev :=
  match (d.segS k).annAt with
  | none => d
  | some t => reachNs t 1000000000 d

/-- The message is due, at the present time. -/
def syncDue (k : Nat) (d : Dev) : Dev := setSeg k { d.segS k with syncDue := true, syncAt := some d.dt } d

def announceDue (k : Nat) (d : Dev) : Dev := setSeg k { d.segS k with annDue := true, annAt := some d.dt } d

theorem segS_takeFree (k : Nat) (d : Dev) : (takeFree d).segS k = d.segS k := rfl

/-- A peer delay request, taken at about the present time. -/
def pdelayAsked (ident : BitVec 80) (q : BitVec 16) (d : Dev) : PdReq :=
  { ident := ident.toNat, seqId := q.toNat, dt := unsgn 64 ((d.dt : Int) + (d.fresh % 1310721 : Nat) - 655360) }

theorem pdelayAsked_names (ident : BitVec 80) (q : BitVec 16) (d : Dev) :
    (pdelayAsked ident q d).ident = ident.toNat ∧ (pdelayAsked ident q d).seqId = q.toNat := ⟨rfl, rfl⟩

/-- The device that owes its answer. -/
def pdelayOwed (k : Nat) (q : PdReq) (d : Dev) : Dev := takeFree (setSeg k { d.segS k with resp := (d.segS k).resp ++ [q] } d)

/-- The upto-frame of an answer owed: the segment and one free value. -/
theorem leaves_owed (k : Nat) (x : SegS) (d : Dev) (v : VrdS) (n : Nat) (hv : (setSeg k x d).vrd = v) (hn : d.free + 1 = n) :
    Leaves [] { d with vrd := v, free := n } (takeFree (setSeg k x d)) := by
  subst hv hn
  exact Leaves.refl _

/-- Settles O28: the dialogue by whether it is enabled and the host has it, and the messages of a segment. -/
theorem hostAndSegmentTimes : Obligations.HostAndSegmentTimes := by
  unfold Obligations.HostAndSegmentTimes
  refine ⟨fun s hen => ?nowOff, fun s hen hon => ?nowOn, fun s hen hon => ?nowUnavail, fun s d hen hlo hhi hd hon => ?dialogue,
    fun s hen hms => ?range, fun s hen => ?dialogueOff, fun master delay x s hx => ?response, fun x s hx => ?timeout,
    fun k s hon => ?sync, fun k s hon => ?announce, fun k ident q s hup => ?pdelay⟩
  case nowOff =>
    refine completes_to (exec_ptmNow s) s.dev ?_ rfl
    rw [ptmNow, hen]
    rfl
  case nowOn =>
    refine completes_to (exec_ptmNow s) (ptmStart s.dev) (by rw [ptmNow, hen]; rfl) ?_
    obtain ⟨htim, hout, hl⟩ := ptmStart_shows hon
    exact ⟨by rw [after_tim, htim], hout, frame_of_leaves (hl _ hout) s⟩
  case nowUnavail =>
    refine completes_to (exec_ptmNow s) (event 7 R.TIM.PTM_STATUS.SEQ [R.TIM.PTM_STATUS.UNAVAIL] s.dev)
      (by rw [ptmNow, hen]; exact ptmStart_off hon) ?_
    exact ⟨raised_of_event (by decide) (by decide) (by decide) rfl fun _ _ => get_after .., frame_of_leaves (leaves_event ..) s⟩
  case dialogue =>
    refine completes_run (exec_ptmDialogue s) (d := ptmStart (ptmFrom d)) ?_ ?_
    · refine (if_neg (by simp [hen])).trans ((if_neg (by omega)).trans ?_)
      rw [hd]
      rfl
    · obtain ⟨htim, hout, hl⟩ := ptmStart_shows (d := ptmFrom d) hon
      exact ⟨by rw [after_tim, htim]; rfl, hout, frame_of_leaves (hl _ hout) s⟩
  case range =>
    exact ⟨_, (exec_ptmDialogue s).trans (run_fault ((if_neg (by simp [hen])).trans (if_pos hms)))⟩
  case dialogueOff =>
    refine completes_run (exec_ptmDialogue s) (d := s.dev) (if_pos (by simp [hen])) rfl
  case response =>
    refine completes_to (exec_ptmResponse ..) (ptmAnswered x master delay s.dev) (by rw [hx]; rfl) ?_
    obtain ⟨hdt, hdelay, hht⟩ := ptmAnswered_shows x master delay s.dev
    have hl := leaves_ptmAnswered x master delay s.dev
    refine ⟨?_, (get_after ..).trans hdt, (get_after ..).trans hdelay, (get_after ..).trans hht, ?_, frame_of_leaves hl s⟩
    · rw [after_tim, tim_of_leaves hl]
      rfl
    · exact raised_after (raised_ptmAnswered ..) s
  case timeout =>
    refine completes_to (exec_ptmTimeout ..) (ptmGivenUp (reachNs x 100000 s.dev)) (by rw [hx]; rfl) ?_
    generalize reachNs x 100000 s.dev = d
    refine ⟨?_, raised_after (raised_ptmGivenUp d) s⟩
    rw [after_tim, tim_of_leaves (leaves_ptmGivenUp d)]
    rfl
  case sync =>
    refine completes_to (exec_sync ..) (syncDue k.val (syncReached k.val s.dev)) (if_neg (by simp [hon])) ?_
    rw [segS_after, dt_after, syncDue, segS_setSeg]
    exact ⟨rfl, rfl⟩
  case announce =>
    refine completes_to (exec_announce ..) (announceDue k.val (announceReached k.val s.dev)) (if_neg (by simp [hon])) ?_
    rw [segS_after, dt_after, announceDue, segS_setSeg]
    exact ⟨rfl, rfl⟩
  case pdelay =>
    refine completes_to (exec_pdelayReq ..) (pdelayOwed k.val (pdelayAsked ident q s.dev) s.dev) (if_pos hup) ?_
    obtain ⟨hident, hseq⟩ := pdelayAsked_names ident q s.dev
    refine ⟨⟨pdelayAsked ident q s.dev, hident, hseq, ?_⟩, rfl, frame_of_leaves (leaves_owed _ _ _ _ _ rfl rfl) s⟩
    rw [segS_after, pdelayOwed, segS_takeFree, segS_setSeg]

end Sys2Proof.Proofs
end

section
/-!
The encoders: an edge moves its position, an illegal one is flagged, and an index captures and loads.
-/
namespace Sys2Proof.Proofs
open Sys2Proof Sys2Proof.Machine

theorem spWord_lt (x : Int) : spWord x < 2 ^ 64 := unsgn_lt ..

/-! ## The registers and the parts that a move of the position touches -/

theorem upto_each {α β : Type} {G : α → Dev → Dev} {F : β → Dev → Dev} (h : ∀ x d, Upto G [] d (F x d)) (xs : List β) (d : Dev) :
    Upto G [] d (each F xs d) := by
  induction xs generalizing d with
  | nil => exact upto_of_eq fun _ => rfl
  | cons x xs ih => exact (h x d).trans (ih _)

theorem upto_when {α : Type} {G : α → Dev → Dev} {fs : List Fld} (c : Bool) {F : Dev → Dev} {d : Dev} (h : Upto G fs d (F d)) :
    Upto G fs d (when c F d) := by
  cases c with
  | true => exact h
  | false => exact (upto_of_eq fun _ => rfl : Upto G [] d d).mono (by simp)

theorem upto_setTg (g : Nat) (x : TgS) (d : Dev) : Upto withTim [] d (setTg g x d) := upto_of_eq fun _ => rfl

theorem upto_tgEncoder (g : Nat) (d : Dev) : Upto withTim [] d (tgEncoder g d) := by
  unfold tgEncoder
  dsimp only
  repeat' split
  all_goals exact upto_of_eq fun _ => rfl

theorem upto_spMove (e : Nat) (step : Int) (d : Dev) : Upto withTim [R.TIM.ENC_SP.SP e] d (spMove e step d) :=
  ((upto_of_leaves setsPart_withTim (leaves_put ..)).trans ((upto_each upto_tgEncoder _ _).trans
    (upto_when _ (upto_setTim _ _)))).mono (by simp)

/-- The move of the position by one step. -/
theorem get_spMove (e : Fin 2) (step : Int) (d : Dev) :
    (spMove e.val step d).get (R.TIM.ENC_SP.SP e.val) = spWord (sgn 48 (d.get (R.TIM.ENC_SP.SP e.val)) + step) := by
  have hb : ∀ e : Fin 2, bookKey (R.TIM.ENC_SP.SP e.val).key = false := by decide
  have hrest : Upto withTim [] (put (R.TIM.ENC_SP.SP e.val) (spWord (sgn 48 (d.get (R.TIM.ENC_SP.SP e.val)) + step)) d) (spMove e.val step d) :=
    (upto_each upto_tgEncoder _ _).trans (upto_when _ (upto_setTim _ _))
  rw [get_of_uptoTim hrest (hb e) List.not_mem_nil, get_put_self]
  exact Nat.mod_eq_of_lt (spWord_lt _)

theorem upto_encoderLoad (e : Nat) (d : Dev) : Upto withTim [R.TIM.ENC_SP.SP e] d (encoderLoad e d) :=
  ((upto_of_leaves setsPart_withTim (leaves_put ..)).trans ((upto_each (fun g d => upto_setTg g _ d) _ _).trans
    (upto_setTim _ _))).mono (by simp)

theorem get_encoderLoad (e : Fin 2) (d : Dev) :
    (encoderLoad e.val d).get (R.TIM.ENC_SP.SP e.val) = spWord (sgn 48 (d.get (R.TIM.ENC_PRESET.VALUE e.val))) := by
  have hb : ∀ e : Fin 2, bookKey (R.TIM.ENC_SP.SP e.val).key = false := by decide
  have hrest : Upto withTim [] (put (R.TIM.ENC_SP.SP e.val) (spWord (sgn 48 (d.get (R.TIM.ENC_PRESET.VALUE e.val)))) d) (encoderLoad e.val d) :=
    (upto_each (fun g d => upto_setTg g _ d) _ _).trans (upto_setTim _ _)
  rw [get_of_uptoTim hrest (hb e) List.not_mem_nil, get_put_self]
  exact Nat.mod_eq_of_lt (spWord_lt _)

/-! ## An accepted edge -/

/-- The device that notes the time of an edge. -/
def edgeNoted (e : Nat) (d : Dev) : Dev := { d with tim := { d.tim with encAt := KMap.put (fun _ => none) d.tim.encAt e (some d.dt) } }

theorem get_edgeNoted (e : Nat) (d : Dev) (f : Fld) : (edgeNoted e d).get f = d.get f := rfl
theorem on_edgeNoted (e : Nat) (d : Dev) (f : Fld) : (edgeNoted e d).on f = d.on f := rfl

theorem encoderCount_apart {e : Nat} {up : Bool} {d : Dev} (hrun : d.spRuns = true) (hclose : d.edgeClose e = false) :
    encoderCount e up d = spMove e (if up != d.on (R.TIM.ENC_CTL.INV e) then 1 else -1) (edgeNoted e d) := by
  rw [encoderCount, if_neg (by simp [hrun])]
  dsimp only
  rw [if_neg (by simp [hclose])]
  rfl

theorem encoderCount_close {e : Nat} {up : Bool} {d : Dev} (hrun : d.spRuns = true) (hclose : d.edgeClose e = true) :
    encoderCount e up d = spMove e (sgn 48 (d.fresh % 2 ^ 48)) (takeFree (edgeNoted e d)) := by
  rw [encoderCount, if_neg (by simp [hrun])]
  dsimp only
  rw [if_pos hclose]
  rfl

/-- The command of an edge that counts. -/
theorem exec_edge {e : Fin 2} {up : Bool} {m : EncMove} {stable : Nat} {s : State} {post : State → Prop} (hm : m = if up then .up else .down)
    (hreads : (s.dev.reads (37 + 3 * e.val) || s.dev.reads (38 + 3 * e.val)) = true) (hok : 4 * s.dev.get (R.TIM.ENC_CTL.FILT e.val) ≤ stable)
    (hpost : post (s.after (encoderCount e.val up s.dev))) : Completes (.encoderEdge e ⟨m, stable⟩) s post := by
  have hgate : ((s.dev.reads (37 + 3 * e.val) || s.dev.reads (38 + 3 * e.val)) &&
      filtered (s.dev.get (R.TIM.ENC_CTL.FILT e.val)) stable) = true := by
    rw [hreads, filtered, decide_eq_true hok]
    rfl
  refine completes_to (exec_encoderEdge ..) _ ?_ hpost
  subst hm
  cases up <;> exact (congrArg (fun c => when c _ s.dev) hgate).trans rfl

/-- The device with other time bases and another free value. -/
def withTimFree (x : TimS × Nat) (d : Dev) : Dev := { d with tim := x.1, free := x.2 }

theorem setsPart_withTimFree : SetsPart withTimFree := fun _ _ => ⟨rfl, rfl⟩

theorem upto_timFree {fs : List Fld} {d e : Dev} (h : Upto withTim fs d e) : Upto withTimFree fs d e :=
  ⟨fun x => leaves_map (fun d => { d with free := x.2 }) (fun _ => rfl) (fun _ => rfl) (h.leaves x.1)⟩

theorem frame_timFree {fs : List Fld} {d e : Dev} (h : Upto withTimFree fs d e) (s : State) :
    Frame fs { d with tim := (s.after e).dev.tim, free := (s.after e).dev.free } s (s.after e) := frame_of_upto h s (e.tim, e.free) rfl

theorem free_of_uptoTim {fs : List Fld} {d e : Dev} (h : Upto withTim fs d e) : e.free = d.free := by
  have hfree := free_of_leaves (h.leaves d.tim)
  exact hfree

/-! ## An index -/

/-- The device that has seen an index: flagged, and captured where the mode says so. -/
def indexSeen (e : Nat) (d : Dev) : Dev :=
  event 7 (R.TIM.ENC_STATUS.SEQ e) [R.TIM.ENC_STATUS.Z_SEEN e] d

def indexCaptured (e m : Nat) (d : Dev) : Dev := when (m != 0) (fun d => put (R.TIM.ENC_ZCAP.SP e) (d.get (R.TIM.ENC_SP.SP e)) d) d

def indexLoaded (e m : Nat) (d : Dev) : Dev := when (m == 3 || (m == 2 && !flag d.tim.zLoaded e)) (encoderLoad e) d

/-- What an index does in the mode `m`. -/
def indexed (e m : Nat) (d : Dev) : Dev := indexLoaded e m (indexCaptured e m (indexSeen e d))

theorem leaves_indexSeen (e : Nat) (d : Dev) :
    Leaves [R.TIM.ENC_STATUS.SEQ e, R.TIM.ENC_STATUS.Z_SEEN e] d (indexSeen e d) := leaves_event ..

theorem leaves_indexCaptured (e m : Nat) (d : Dev) : Leaves [R.TIM.ENC_ZCAP.SP e] d (indexCaptured e m d) :=
  leaves_when _ _ _ (leaves_put ..)

theorem upto_indexLoaded (e m : Nat) (d : Dev) : Upto withTim [R.TIM.ENC_SP.SP e] d (indexLoaded e m d) := upto_when _ (upto_encoderLoad ..)

theorem upto_indexed (e m : Nat) (d : Dev) : Upto withTim [R.TIM.ENC_STATUS.SEQ e, R.TIM.ENC_STATUS.Z_SEEN e, R.TIM.ENC_ZCAP.SP e, R.TIM.ENC_SP.SP e] d
    (indexed e m d) :=
  ((upto_of_leaves setsPart_withTim ((leaves_indexSeen ..).trans (leaves_indexCaptured ..))).trans (upto_indexLoaded ..)).mono (by simp)

/-- An index captures the position in every mode but 0, and loads the preset in mode 3, and in mode 2 where none has loaded it. -/
theorem indexed_shows (e : Fin 2) (m : Nat) (d : Dev) :
    Raised (R.TIM.ENC_STATUS.SEQ e.val) [R.TIM.ENC_STATUS.Z_SEEN e.val] d (indexed e.val m d) ∧
    (m ≠ 0 → (indexed e.val m d).get (R.TIM.ENC_ZCAP.SP e.val) = d.get (R.TIM.ENC_SP.SP e.val) % 2 ^ 64) ∧
    (m = 3 ∨ m = 2 ∧ flag d.tim.zLoaded e.val = false →
      (indexed e.val m d).get (R.TIM.ENC_SP.SP e.val) = spWord (sgn 48 (d.get (R.TIM.ENC_PRESET.VALUE e.val)))) := by
  have hseq : ∀ e : Fin 2, ∀ f ∈ [R.TIM.ENC_STATUS.SEQ e.val, R.TIM.ENC_STATUS.Z_SEEN e.val], bookKey f.key = false := by decide
  have hpos : ∀ e : Fin 2, bookKey (R.TIM.ENC_SP.SP e.val).key = false ∧ bookKey (R.TIM.ENC_ZCAP.SP e.val).key = false := by decide
  have hevent : Raised (R.TIM.ENC_STATUS.SEQ e.val) [R.TIM.ENC_STATUS.Z_SEEN e.val] d (indexSeen e.val d) :=
    raised_event (hseq e) (by clear * -; decide +revert) (by clear * -; decide +revert) rfl
  have hload := upto_indexLoaded e.val m (indexCaptured e.val m (indexSeen e.val d))
  have hseen {f : Fld} (hb : bookKey f.key = false) (hs : f.key ≠ (R.TIM.ENC_STATUS.SEQ e.val).key) (hz : f.key ≠ (R.TIM.ENC_STATUS.Z_SEEN e.val).key) :
      (indexSeen e.val d).get f = d.get f := get_event hb hs (by simpa using hz) ..
  refine ⟨?_, fun hm => ?_, fun hm => ?_⟩
  · have hrest := (upto_of_leaves setsPart_withTim (leaves_indexCaptured e.val m (indexSeen e.val d))).trans hload
    exact raised_thenTim hevent hrest (hseq e) (by clear * -; decide +revert)
  · rw [indexed, get_of_uptoTim hload (hpos e).2 (by clear * -; decide +revert), indexCaptured, show (m != 0) = true by simpa using hm, when, if_pos rfl,
      get_put_self, hseen (hpos e).1 (by clear * -; decide +revert) (by clear * -; decide +revert)]
    rfl
  · have hgate : (m == 3 || (m == 2 && !flag (indexCaptured e.val m (indexSeen e.val d)).tim.zLoaded e.val)) = true := by
      rw [tim_of_leaves (leaves_indexCaptured ..), tim_of_leaves (leaves_indexSeen ..)]
      rcases hm with rfl | ⟨rfl, hz⟩
      · rfl
      · simp [hz]
    have hb : ∀ e : Fin 2, bookKey (R.TIM.ENC_PRESET.VALUE e.val).key = false := by decide
    rw [indexed, indexLoaded, hgate, when, if_pos rfl, get_encoderLoad, (leaves_indexCaptured ..).get (hb e) (by clear * -; decide +revert),
      hseen (hb e) (by clear * -; decide +revert) (by clear * -; decide +revert)]

/-- Settles O26: an edge by whether it counts, is close to the last one, or is illegal, and the three effects of an index. -/
theorem encodersCount : Obligations.EncodersCount := by
  unfold Obligations.EncodersCount
  refine ⟨fun e up m stable s hm hrun hreads hok hclose => exec_edge hm hreads hok ?apart, fun e m stable s hm hshort => ?short,
    fun e m stable s hm hrun hreads hok hclose => ?close, fun e stable s hrun ha hb => ?illegal, fun e s hrun hreads => ?index⟩
  case apart =>
    rw [encoderCount_apart hrun hclose]
    refine ⟨?_, frame_tim (((upto_setTim _ s.dev).trans (upto_spMove ..)).mono (by simp)) s⟩
    rw [get_after, get_spMove, get_edgeNoted]
  case short =>
    refine completes_to (exec_encoderEdge ..) s.dev ?_ rfl
    have hgate : ∀ b, (b && filtered (s.dev.get (R.TIM.ENC_CTL.FILT e.val)) stable) = false := by
      intro b
      rw [filtered, decide_eq_false (by omega), Bool.and_false]
    cases m with
    | up => exact (congrArg (fun c => when c _ s.dev) (hgate _)).trans rfl
    | down => exact (congrArg (fun c => when c _ s.dev) (hgate _)).trans rfl
    | illegal => exact absurd rfl hm
  case close =>
    obtain ⟨up, hup⟩ : ∃ up : Bool, m = if up then EncMove.up else EncMove.down := by
      cases m with
      | up => exact ⟨true, rfl⟩
      | down => exact ⟨false, rfl⟩
      | illegal => exact absurd rfl hm
    refine exec_edge hup hreads hok ?_
    rw [encoderCount_close hrun hclose]
    refine ⟨?_, ?_, ?_⟩
    · rw [get_after, get_spMove]
      rfl
    · rw [after_free, free_of_uptoTim (upto_spMove ..)]
      rfl
    · have htaken : Upto withTimFree [] s.dev (takeFree (edgeNoted e.val s.dev)) := upto_of_eq fun _ => rfl
      exact frame_timFree ((htaken.trans (upto_timFree (upto_spMove ..))).mono (by simp)) s
  case illegal =>
    have hseq : ∀ e : Fin 2, ∀ f ∈ [R.TIM.ENC_STATUS.SEQ e.val, R.TIM.ENC_STATUS.ILLEGAL e.val], bookKey f.key = false := by decide
    have hevent : Raised (R.TIM.ENC_STATUS.SEQ e.val) [R.TIM.ENC_STATUS.ILLEGAL e.val] s.dev
        (event 7 (R.TIM.ENC_STATUS.SEQ e.val) [R.TIM.ENC_STATUS.ILLEGAL e.val] s.dev) :=
      raised_event (hseq e) (by clear * -; decide +revert) (by clear * -; decide +revert) rfl
    refine completes_to (exec_encoderEdge ..)
      (timPerf 8 1 (event 7 (R.TIM.ENC_STATUS.SEQ e.val) [R.TIM.ENC_STATUS.ILLEGAL e.val] s.dev)) (if_pos (by rw [hrun, ha, hb]; rfl)) ?_
    have hperf := raised_then hevent (leaves_timPerf 8 1 _) (hseq e) (by simp)
    exact ⟨raised_after hperf s, frame_of_leaves (((leaves_event ..).trans (leaves_timPerf ..)).mono (by simp [seqAnd])) s⟩
  case index =>
    have hmode : ∀ e : Fin 2, bookKey (R.TIM.ENC_CTL.Z_MODE e.val).key = false := by decide
    have hget : (indexSeen e.val s.dev).get (R.TIM.ENC_CTL.Z_MODE e.val) = s.dev.get (R.TIM.ENC_CTL.Z_MODE e.val) :=
      (leaves_indexSeen ..).get (hmode e) (by clear * -; decide +revert)
    refine completes_to (exec_encoderIndex ..) (indexed e.val (s.dev.get (R.TIM.ENC_CTL.Z_MODE e.val)) s.dev) ?_ ?_
    · rw [← hget]
      exact if_neg (by simp [hrun, hreads])
    · obtain ⟨hraised, hcap, hload⟩ := indexed_shows e (s.dev.get (R.TIM.ENC_CTL.Z_MODE e.val)) s.dev
      exact ⟨raised_after hraised s, fun h => (get_after ..).trans (hcap h), fun h => (get_after ..).trans (hload h),
        frame_tim (upto_indexed ..) s⟩

end Sys2Proof.Proofs
end

section
/-!
Line triggers: a generator drops or issues its line, and its messages and pulses leave.
-/
namespace Sys2Proof.Proofs
open Sys2Proof Sys2Proof.Machine

/-! ## A generator's line -/

theorem lineIssue_candidate {g : Nat} {d : Dev} {e : Nat} {q : TgS} (hrun : d.inRun = true) (hc : d.candidate g = some (e, q)) :
    (if d.inRun then d.candidate g else none) = some (e, q) := (if_pos hrun).trans hc

/-- The line is dropped: counted and flagged. -/
def lineDropped (g : Nat) (q : TgS) (d : Dev) : Dev :=
  timPerf 2 1 (inc (R.TIM.TG_DROPS.COUNT g) 1 (event 7 (R.TIM.TG_STATUS.SEQ g) [R.TIM.TG_STATUS.DROP g] (setTg g q d)))

theorem lineIssue_close {g : Nat} {d : Dev} {e : Nat} {q : TgS} (hrun : d.inRun = true) (hc : d.candidate g = some (e, q))
    (hclose : (q.count != 0 && decide (dtDiff e (d.get (R.TIM.TG_LAST.E g)) < d.minPeriod g)) = true) :
    lineIssue g d = lineDropped g q d := by
  rw [lineIssue, lineIssue_candidate hrun hc]
  exact if_pos hclose

theorem get_setTg (g : Nat) (q : TgS) (d : Dev) (f : Fld) : (setTg g q d).get f = d.get f := rfl

theorem lineDropped_shows (g : Fin 4) (q : TgS) (d : Dev) :
    Counted (R.TIM.TG_DROPS.COUNT g.val) 1 d (lineDropped g.val q d) ∧
    Raised (R.TIM.TG_STATUS.SEQ g.val) [R.TIM.TG_STATUS.DROP g.val] d (lineDropped g.val q d) ∧
    Leaves [R.TIM.TG_DROPS.COUNT g.val, R.TIM.TG_STATUS.SEQ g.val, R.TIM.TG_STATUS.DROP g.val] (setTg g.val q d) (lineDropped g.val q d) := by
  have hkeys : ∀ g : Fin 4, (∀ f ∈ [R.TIM.TG_STATUS.SEQ g.val, R.TIM.TG_STATUS.DROP g.val], bookKey f.key = false ∧
      f.key ∉ [R.TIM.TG_DROPS.COUNT g.val].map Fld.key) ∧ bookKey (R.TIM.TG_DROPS.COUNT g.val).key = false ∧
      (R.TIM.TG_STATUS.SEQ g.val).key ∉ [R.TIM.TG_STATUS.DROP g.val].map Fld.key ∧
      (R.TIM.TG_DROPS.COUNT g.val).key ≠ (R.TIM.TG_STATUS.SEQ g.val).key ∧
      (R.TIM.TG_DROPS.COUNT g.val).key ∉ [R.TIM.TG_STATUS.DROP g.val].map Fld.key := by decide
  obtain ⟨hflags, hcount, hseq, hdrops, hdrops'⟩ := hkeys g
  have hperf := leaves_timPerf 2 1 (inc (R.TIM.TG_DROPS.COUNT g.val) 1
    (event 7 (R.TIM.TG_STATUS.SEQ g.val) [R.TIM.TG_STATUS.DROP g.val] (setTg g.val q d)))
  refine ⟨?_, ?_, ?_⟩
  · rw [Counted, lineDropped, hperf.get hcount List.not_mem_nil, inc, get_put_self, get_event hcount hdrops hdrops', get_setTg]
  · have hevent : Raised (R.TIM.TG_STATUS.SEQ g.val) [R.TIM.TG_STATUS.DROP g.val] d
        (event 7 (R.TIM.TG_STATUS.SEQ g.val) [R.TIM.TG_STATUS.DROP g.val] (setTg g.val q d)) :=
      raised_event (fun f hf => (hflags f hf).1) (fun f hf => by rw [List.mem_singleton.mp hf, R.TIM.TG_STATUS.DROP]) hseq (get_setTg ..)
    exact raised_then hevent ((leaves_put ..).trans hperf) (fun f hf => (hflags f hf).1) fun f hf => (hflags f hf).2
  · exact ((leaves_event ..).trans ((leaves_put ..).trans hperf)).mono (by simp [seqAnd])

/-- The line is issued: its number, its time and the state of its generator, before its ports are told. -/
def lineNumbered (g e : Nat) (q : TgS) (d : Dev) : Dev :=
  when (g == 0) (timPerf 1 1) (put (R.TIM.TG_LAST.E g) e
    (put (R.TIM.TG_LSN.LSN g) (if q.issued then (d.get (R.TIM.TG_LSN.LSN g) + 1) % 2 ^ 32 else 0)
      (setTg g { q with issued := true, count := q.count + 1 } d)))

/-- The ports of a generator with what each one shall see, and the device that has told them. -/
def portsTold (g lsn e : Nat) (d : Dev) : List (Nat × Bool × Bool) × Dev :=
  (d.portsOf g).foldl (fun x p => portIssue lsn e p x) ([], d)

/-- The line on its way. -/
def lineComing (g lsn e : Nat) (x : List (Nat × Bool × Bool) × Dev) : Dev :=
  { x.2 with tim := { x.2.tim with coming := comingIn { g, lsn, e, ports := x.1 } x.2.tim.coming } }

/-- The number of the line that a generator issues next. -/
def nextLsn (g : Nat) (q : TgS) (d : Dev) : Nat := if q.issued then (d.get (R.TIM.TG_LSN.LSN g) + 1) % 2 ^ 32 else 0

theorem lineIssue_issues {g : Nat} {d : Dev} {e : Nat} {q : TgS} (hrun : d.inRun = true) (hc : d.candidate g = some (e, q))
    (hclose : (q.count != 0 && decide (dtDiff e (d.get (R.TIM.TG_LAST.E g)) < d.minPeriod g)) = false) :
    ∃ d1, d1 = reach (dtAddNs e (-(d.lead g : Int))) (setTg g q d) ∧
      lineIssue g d = settleLines (lineComing g (nextLsn g q d1) e (portsTold g (nextLsn g q d1) e (lineNumbered g e q d1))) := by
  refine ⟨_, rfl, ?_⟩
  rw [lineIssue, lineIssue_candidate hrun hc]
  exact if_neg (Bool.eq_false_iff.mp hclose)

/-- What the ports are told changes no register and no generator. -/
theorem portIssue_keeps (lsn e p : Nat) (x : List (Nat × Bool × Bool) × Dev) :
    (portIssue lsn e p x).2.regs = x.2.regs ∧ (portIssue lsn e p x).2.tim.tg = x.2.tim.tg := by
  have howed : ∀ q d, (pulseOwed p q d).regs = d.regs ∧ (pulseOwed p q d).tim.tg = d.tim.tg := by
    intro q d
    unfold pulseOwed
    cases d.on (R.TIM.PT_CTL.PIN_EN p) <;> exact ⟨rfl, rfl⟩
  unfold portIssue
  dsimp only
  split
  · exact howed _ _
  · rw [(howed _ _).1, (howed _ _).2]
    generalize (x.2.on (R.TIM.PT_CTL.DL_EN p) && _) = sent
    cases sent <;> exact ⟨rfl, rfl⟩

theorem portsTold_keeps (g lsn e : Nat) (d : Dev) :
    (portsTold g lsn e d).2.regs = d.regs ∧ (portsTold g lsn e d).2.tim.tg = d.tim.tg := by
  unfold portsTold
  have hfold : ∀ (ps : List Nat) (x : List (Nat × Bool × Bool) × Dev),
      (ps.foldl (fun x p => portIssue lsn e p x) x).2.regs = x.2.regs ∧ (ps.foldl (fun x p => portIssue lsn e p x) x).2.tim.tg = x.2.tim.tg := by
    intro ps
    induction ps with
    | nil => exact fun _ => ⟨rfl, rfl⟩
    | cons p ps ih => exact fun x => ⟨(ih _).1.trans (portIssue_keeps ..).1, (ih _).2.trans (portIssue_keeps ..).2⟩
  exact hfold _ _

theorem mem_comingIn (c : Coming) : ∀ xs : List Coming, c ∈ comingIn c xs
  | [] => List.mem_singleton.mpr rfl
  | x :: xs => by
    rw [comingIn]
    split
    · exact List.mem_cons_self
    · exact List.mem_cons_of_mem _ (mem_comingIn c xs)

theorem tgS_of_tg {d e : Dev} (h : e.tim.tg = d.tim.tg) (n : Nat) : e.tgS n = d.tgS n := by
  rw [Dev.tgS, Dev.tgS, h]

theorem get_lineComing (g lsn e : Nat) (d : Dev) (f : Fld) : (lineComing g lsn e (portsTold g lsn e d)).get f = d.get f :=
  get_congr (portsTold_keeps g lsn e d).1 f

theorem tgS_lineComing (g lsn e n : Nat) (d : Dev) : (lineComing g lsn e (portsTold g lsn e d)).tgS n = d.tgS n :=
  tgS_of_tg (portsTold_keeps g lsn e d).2 n

theorem coming_lineComing (g lsn e : Nat) (x : List (Nat × Bool × Bool) × Dev) :
    ∃ c ∈ (lineComing g lsn e x).tim.coming, c.g = g ∧ c.lsn = lsn ∧ c.e = e :=
  ⟨_, mem_comingIn _ _, rfl, rfl, rfl⟩

/-- The number, the time and the count of an issued line. -/
theorem lineNumbered_shows (g : Fin 4) {e : Nat} (he : e < 2 ^ 64) (q : TgS) (d : Dev) :
    (lineNumbered g.val e q d).get (R.TIM.TG_LSN.LSN g.val) = nextLsn g.val q d ∧ (lineNumbered g.val e q d).get (R.TIM.TG_LAST.E g.val) = e ∧
    (lineNumbered g.val e q d).tgS g.val = { q with issued := true, count := q.count + 1 } := by
  have hb : ∀ g : Fin 4, bookKey (R.TIM.TG_LSN.LSN g.val).key = false ∧ bookKey (R.TIM.TG_LAST.E g.val).key = false ∧
      (R.TIM.TG_LSN.LSN g.val).key ≠ (R.TIM.TG_LAST.E g.val).key := by decide
  obtain ⟨blsn, blast, hne⟩ := hb g
  have hlsn : nextLsn g.val q d < 2 ^ 32 := by
    unfold nextLsn
    split
    · exact Nat.mod_lt _ (by decide)
    · decide
  have hperf := leaves_when (g.val == 0) (timPerf 1 1) (put (R.TIM.TG_LAST.E g.val) e (put (R.TIM.TG_LSN.LSN g.val) (nextLsn g.val q d)
    (setTg g.val { q with issued := true, count := q.count + 1 } d))) (leaves_timPerf ..)
  refine ⟨(hperf.get blsn List.not_mem_nil).trans ?_, (hperf.get blast List.not_mem_nil).trans ?_, ?_⟩
  · rw [get_put_ne hne, get_put_self]
    exact Nat.mod_eq_of_lt hlsn
  · rw [get_put_self]
    exact Nat.mod_eq_of_lt he
  · exact (tgS_of_tg (congrArg TimS.tg (tim_of_leaves hperf)) g.val).trans (tgS_setTg ..)

/-! ## A port's message -/

/-- A register between the places that the performance counters use is none of theirs. -/
theorem get_perf_between {f : Fld} {base : Nat} (hbase : base % 8 = 0) (hlo : f.lo < 64) (haddr : f.addr % 8 = 4)
    (hmsi : f.lo ≠ 0) (blk code k : Nat) (d : Dev) : (perf blk base code k d).get f = d.get f := by
  have hput : ∀ {g : Fld} (v : Nat) (d : Dev), g.addr % 8 = 0 → g.lo < 64 → (put g v d).get f = d.get f := by
    intro g v d hg hglo
    exact get_put_ne (by simp only [Fld.key]; omega) v d
  have hraise : ∀ e d, (raise e d).get f = d.get f := by
    intro e d
    unfold raise
    dsimp only
    repeat' split
    · exact (get_put_ne (f := R.HST.STAT.COUNT 1) (g := f) (by simp only [Fld.key, R.HST.STAT.COUNT]; omega) _ _).trans rfl
    all_goals rfl
  have hone : ∀ n d, (perfOne blk base code k n d).get f = d.get f := by
    intro n d
    unfold perfOne
    split
    · dsimp only
      split
      · exact hput _ _ (by simp only [R.PERF.CNT.COUNT]; omega) (by simp only [R.PERF.CNT.COUNT]; decide)
      · rw [hput _ _ (by simp only [R.PERF.OVF.CNT_OVF]; omega) (by simp only [R.PERF.OVF.CNT_OVF]; decide), event, hraise]
        exact (hput _ _ (by simp only [R.PERF.OVF.SEQ]; omega) (by simp only [R.PERF.OVF.SEQ]; decide)).trans
          (hput _ _ (by simp only [R.PERF.CNT.COUNT]; omega) (by simp only [R.PERF.CNT.COUNT]; decide))
    · rfl
  unfold perf
  split
  · rfl
  · exact get_each (fun n _ => hone n) d

theorem get_raise_of_ne {f : Fld} (hf : f.key ≠ (R.HST.STAT.COUNT 1).key) (e : Nat) (d : Dev) : (raise e d).get f = d.get f := by
  unfold raise
  dsimp only
  repeat' split
  · exact (get_put_ne (f := R.HST.STAT.COUNT 1) (g := f) hf _ _).trans rfl
  all_goals rfl

/-- Whatever generator the port names, its flag is raised. -/
theorem raised_portLate (g : Nat) (d : Dev) : Raised (R.TIM.TG_STATUS.SEQ g) [R.TIM.TG_STATUS.PORT_LATE g] d (portLate g d) := by
  have hperf : ∀ f, f = R.TIM.TG_STATUS.SEQ g ∨ f = R.TIM.TG_STATUS.PORT_LATE g → ∀ d, (timPerf 3 1 d).get f = d.get f := by
    rintro f (rfl | rfl) d
    · exact get_perf_between (by decide) (by simp only [R.TIM.TG_STATUS.SEQ]; decide) (by simp only [R.TIM.TG_STATUS.SEQ]; omega)
        (by simp only [R.TIM.TG_STATUS.SEQ]; decide) ..
    · exact get_perf_between (by decide) (by simp only [R.TIM.TG_STATUS.PORT_LATE]; decide) (by simp only [R.TIM.TG_STATUS.PORT_LATE]; omega)
        (by simp only [R.TIM.TG_STATUS.PORT_LATE]; decide) ..
  have hkey : (R.TIM.TG_STATUS.SEQ g).key ≠ (R.TIM.TG_STATUS.PORT_LATE g).key := by
    simp only [Fld.key, R.TIM.TG_STATUS.SEQ, R.TIM.TG_STATUS.PORT_LATE]
    omega
  constructor
  · rw [portLate, hperf _ (.inl rfl), event, get_raise_of_ne (by simp only [Fld.key, R.TIM.TG_STATUS.SEQ, R.HST.STAT.COUNT]; omega)]
    simp only [List.map_cons, List.map_nil, puts]
    rw [get_put_ne hkey, get_put_self]
  · intro f hf
    rw [List.mem_singleton.mp hf, Dev.on, portLate, hperf _ (.inr rfl), event,
      get_raise_of_ne (by simp only [Fld.key, R.TIM.TG_STATUS.PORT_LATE, R.HST.STAT.COUNT]; omega)]
    simp only [List.map_cons, List.map_nil, puts]
    rw [get_put_self]
    rfl

theorem out_portLate (g : Nat) (d : Dev) : (portLate g d).out = d.out :=
  out_of_leaves ((leaves_event ..).trans (leaves_timPerf 3 1 _))

/-- The device whose oldest owed message is taken, at its time. -/
def messageTaken (p : Nat) (q : TrigLine) (rest : List TrigLine) (d : Dev) : Dev :=
  reach (dtAddNs q.e (-(d.lead (d.get (R.TIM.PT_CTL.TG p)) : Int)))
    { d with tim := { d.tim with trig := KMap.put (fun _ => []) d.tim.trig p rest } }

theorem triggerMessage_owed {p : Nat} {d : Dev} {q : TrigLine} {rest : List TrigLine} (h : KMap.get (fun _ => []) d.tim.trig p = q :: rest) :
    triggerMessage p d = if (messageTaken p q rest d).downlinkUp p && decide (dtDiff (messageTaken p q rest d).dt q.e < 0) then
      sendMsg p 1 (leBytes 4 q.lsn ++ leBytes 8 q.e) (messageTaken p q rest d)
    else portLate (d.get (R.TIM.PT_CTL.TG p)) (messageTaken p q rest d) := by
  rw [triggerMessage, h]
  rfl

/-- The device with other lanes, ports, outputs and free values. -/
def withSent (x : KMap LaneS × KMap PortS × List Out × Nat) (d : Dev) : Dev :=
  { d with lane := x.1, port := x.2.1, out := x.2.2.1, free := x.2.2.2 }

theorem setsPart_withSent : SetsPart withSent := fun _ _ => ⟨rfl, rfl⟩

theorem frame_sent {fs : List Fld} {d e : Dev} (h : Upto withSent fs d e) (s : State) :
    Frame fs { d with out := (s.after e).dev.out, port := (s.after e).dev.port, lane := (s.after e).dev.lane, free := (s.after e).dev.free } s
      (s.after e) := frame_of_upto h s (e.lane, e.port, e.out, e.free) rfl

/-- What a block sent changes: its lane and the free values. -/
structure LaneOnly (d e : Dev) : Prop where
  upto : Upto withSent [] d e
  out : e.out = d.out
  port : e.port = d.port

theorem LaneOnly.trans {d e g : Dev} (h : LaneOnly d e) (h' : LaneOnly e g) : LaneOnly d g :=
  ⟨(h.upto.trans h'.upto).mono (by simp), h'.out.trans h.out, h'.port.trans h.port⟩

theorem laneOnly_setTx (l : Nat) (t : TxS) (d : Dev) : LaneOnly d (setTx l t d) := ⟨upto_of_eq fun _ => rfl, rfl, rfl⟩

theorem laneOnly_takeFree (d : Dev) : LaneOnly d (takeFree d) := ⟨upto_of_eq fun _ => rfl, rfl, rfl⟩

theorem laneOnly_refl (d : Dev) : LaneOnly d d := ⟨upto_of_eq fun _ => rfl, rfl, rfl⟩

theorem laneOnly_of_leaves {d e : Dev} (h : Leaves [] d e) : LaneOnly d e :=
  ⟨upto_of_leaves setsPart_withSent h, out_of_leaves h, port_of_leaves h⟩

theorem perfBase_lne {l : Nat} (hl : l < 60) : PerfBase (lne l) := by
  unfold PerfBase lne
  omega

theorem leaves_lnePerf {l : Nat} (hl : l < 60) (code n : Nat) (d : Dev) : Leaves [] d (lnePerf l code n d) :=
  leaves_perf 8 (perfBase_lne hl) code n d

theorem laneOnly_txLeave {l : Nat} (hl : l < 60) (b : Blk) (d : Dev) : LaneOnly d (txLeave l b d) :=
  (laneOnly_setTx l _ d).trans (laneOnly_of_leaves (leaves_lnePerf hl ..))

theorem laneOnly_txMarker {l : Nat} (hl : l < 60) (d : Dev) : LaneOnly d (txMarker l d).2 := by
  unfold txMarker
  dsimp only
  split <;> dsimp only
  · exact laneOnly_setTx ..
  · exact (laneOnly_setTx ..).trans (laneOnly_txLeave hl ..)

theorem laneOnly_when (c : Bool) {F : Dev → Dev} {d : Dev} (h : LaneOnly d (F d)) : LaneOnly d (when c F d) := by
  cases c with
  | true => exact h
  | false => exact laneOnly_refl d

theorem laneOnly_txCoded {l : Nat} (hl : l < 60) (b : Blk) (d : Dev) : LaneOnly d (txCoded l b d).2 := by
  unfold txCoded
  dsimp only
  exact ((laneOnly_when _ (laneOnly_takeFree d)).trans (laneOnly_setTx ..)).trans (laneOnly_txLeave hl ..)

theorem laneOnly_txBlock {l : Nat} (hl : l < 60) (b : Blk) (d : Dev) : LaneOnly d (txBlock l b d).2 := by
  unfold txBlock
  exact (laneOnly_setTx ..).trans (laneOnly_txCoded hl ..)

theorem laneOnly_txStream {l : Nat} (hl : l < 60) (b : Blk) (d : Dev) : LaneOnly d (txStream l b d) := by
  unfold txStream
  split
  · exact (laneOnly_txMarker hl d).trans (laneOnly_txBlock hl ..)
  · exact laneOnly_txBlock hl ..

theorem laneOnly_each {α : Type} {F : α → Dev → Dev} (h : ∀ x d, LaneOnly d (F x d)) (xs : List α) (d : Dev) : LaneOnly d (each F xs d) := by
  induction xs generalizing d with
  | nil => exact laneOnly_refl d
  | cons x xs ih => exact (h x d).trans (ih _)

/-- A message that leaves: the blocks on the downlink lane, the message itself, and the next sequence number of the port. -/
theorem sendMsg_up {p : Nat} (hp : p < 12) {d : Dev} (hup : d.downlinkUp p = true) (code : Nat) (body : List Byte) :
    (sendMsg p code body d).out = .downlink p (message code (d.portS p).mseq body) :: d.out ∧ Upto withSent [] d (sendMsg p code body d) := by
  have hblocks := laneOnly_each (laneOnly_txStream (l := 48 + p) (by omega)) (msgBlocks (message code (d.portS p).mseq body)) d
  rw [sendMsg, if_pos hup]
  dsimp only
  generalize each (txStream (48 + p)) (msgBlocks (message code (d.portS p).mseq body)) d = e at hblocks
  have hmsg : Upto withSent [] e (setPort p { d.portS p with mseq := ((d.portS p).mseq + 1) % 256 }
      (emit (.downlink p (message code (d.portS p).mseq body)) e)) := upto_of_eq fun _ => rfl
  exact ⟨by rw [setPort_out, out_emit, hblocks.out], (hblocks.upto.trans hmsg).mono (by simp)⟩

/-! ## A port's pulse -/

/-- The device whose oldest owed pulse is taken, at its time. -/
def pulseTaken (p : Nat) (q : TrigLine) (rest : List TrigLine) (d : Dev) : Dev :=
  reach (dtAddNs q.e (max (sgn 16 (d.get (R.TIM.PT_CTL.OFS p))) (-((d.lead (d.get (R.TIM.PT_CTL.TG p)) : Int) - 100))))
    { d with tim := { d.tim with pulse := KMap.put (fun _ => []) d.tim.pulse p rest } }

/-- The pin goes to its active level, until the end of the pulse. -/
def pulseOn (p : Nat) (d : Dev) : Dev :=
  let d := emit (.trigPin p (d.trigLevel p true) d.dt) d
  { d with tim := { d.tim with pulseEnd := KMap.put (fun _ => none) d.tim.pulseEnd p (some (dtAddNs d.dt (10 * d.get (R.TIM.PT_CTL.WIDTH p)))) } }

/-- A pulse that still runs is cut off. -/
def pulseCut (p : Nat) (d : Dev) : Dev :=
  if (KMap.get (fun _ => (none : Option Nat)) d.tim.pulseEnd p).isSome then trigEnd p d else d

theorem trigPulse_owed {p : Nat} {d : Dev} {q : TrigLine} {rest : List TrigLine} (h : KMap.get (fun _ => []) d.tim.pulse p = q :: rest) :
    trigPulse p d = if (pulseTaken p q rest d).drivesPrimary p then pulseOn p (pulseCut p (pulseTaken p q rest d)) else pulseTaken p q rest d := by
  rw [trigPulse, h]
  rfl

/-- The device with other outputs and time bases. -/
def withOutTim (x : List Out × TimS) (d : Dev) : Dev := { d with out := x.1, tim := x.2 }

theorem frame_outTim {fs : List Fld} {d e : Dev} (h : Upto withOutTim fs d e) (s : State) :
    Frame fs { d with out := (s.after e).dev.out, tim := (s.after e).dev.tim } s (s.after e) := frame_of_upto h s (e.out, e.tim) rfl

theorem upto_pulseOn (p : Nat) (d : Dev) : Upto withOutTim [] d (pulseOn p d) := upto_of_eq fun _ => rfl

theorem upto_trigEnd (p : Nat) (d : Dev) : Upto withOutTim [] d (trigEnd p d) := upto_of_eq fun _ => rfl

theorem upto_pulseCut (p : Nat) (d : Dev) : Upto withOutTim [] d (pulseCut p d) := by
  unfold pulseCut
  split
  · exact upto_trigEnd p d
  · exact upto_of_eq fun _ => rfl

theorem trigEnd_shows (p : Nat) (d : Dev) :
    (trigEnd p d).out = .trigPin p (!d.on (R.TIM.PT_CTL.POL p)) d.dt :: d.out ∧ KMap.get (fun _ => none) (trigEnd p d).tim.pulseEnd p = none := by
  have hend : (trigEnd p d).tim.pulseEnd = KMap.put (fun _ => none) d.tim.pulseEnd p none := rfl
  refine ⟨?_, by rw [hend, KMap.get_put_self]⟩
  rw [trigEnd, out_emit, Dev.trigLevel]
  cases d.on (R.TIM.PT_CTL.POL p) <;> rfl

theorem pulseOn_shows (p : Nat) (d : Dev) :
    (pulseOn p d).out = .trigPin p (d.on (R.TIM.PT_CTL.POL p)) d.dt :: d.out ∧
    KMap.get (fun _ => none) (pulseOn p d).tim.pulseEnd p = some (dtAddNs d.dt (10 * d.get (R.TIM.PT_CTL.WIDTH p) : Nat)) := by
  have hend : (pulseOn p d).tim.pulseEnd =
      KMap.put (fun _ => none) d.tim.pulseEnd p (some (dtAddNs d.dt (10 * d.get (R.TIM.PT_CTL.WIDTH p) : Nat))) := rfl
  refine ⟨?_, by rw [hend, KMap.get_put_self]⟩
  have hlevel : d.trigLevel p true = d.on (R.TIM.PT_CTL.POL p) := beq_true _
  rw [← hlevel]
  rfl

/-- A cut pulse leaves the registers and the time. -/
theorem pulseCut_keeps (p : Nat) (d : Dev) : (pulseCut p d).dt = d.dt ∧ (∀ f, (pulseCut p d).get f = d.get f) := by
  unfold pulseCut
  split <;> exact ⟨rfl, fun _ => rfl⟩

/-- Settles O25: a line by whether it is close to the last one, a message by whether it can leave in time, and a pulse. -/
theorem linesAreIssuedWithTheirTriggers : Obligations.LinesAreIssuedWithTheirTriggers := by
  unfold Obligations.LinesAreIssuedWithTheirTriggers
  refine ⟨fun g s e q hrun hc hclose => ?drop, fun g s e q hrun hc he hclose => ?issue, fun p s q rest d hq hd => ?message,
    fun p s q rest d hq hd => ?pulse, fun p s x hx => ?pulseEnd⟩
  case drop =>
    obtain ⟨hcount, hraised, hl⟩ := lineDropped_shows g q s.dev
    exact completes_to (exec_lineIssue g s) _ (lineIssue_close hrun hc hclose)
      ⟨(get_after ..).trans hcount, raised_after hraised s, frame_of_leaves hl s⟩
  case issue =>
    obtain ⟨d1, hd1, hissue⟩ := lineIssue_issues hrun hc hclose
    obtain ⟨hlsn, hlast, htg⟩ := lineNumbered_shows g he q d1
    refine completes_to (exec_lineIssue g s) _ hissue ⟨d1, _, hd1, rfl, ?_, ?_, ?_, ?_, ?_⟩
    · rw [get_lineComing, hlsn, nextLsn]
    · rw [get_lineComing, hlast]
    · rw [tgS_lineComing, htg]
    · rw [tgS_lineComing, htg]
    · rw [get_lineComing, hlsn]
      exact coming_lineComing ..
  case message =>
    have hd' : d = messageTaken p.val q rest s.dev := hd
    refine completes_to (exec_triggerMessage p s) _ (triggerMessage_owed hq) ?_
    rw [← hd']
    cases hgate : d.downlinkUp p.val && decide (dtDiff d.dt q.e < 0) with
    | true =>
      obtain ⟨hout, hup⟩ := sendMsg_up p.isLt ((Bool.and_eq_true _ _).mp hgate).1 1 (leBytes 4 q.lsn ++ leBytes 8 q.e)
      rw [if_pos rfl, if_pos rfl]
      exact ⟨by rw [after_out, hout], frame_sent hup s⟩
    | false =>
      rw [if_neg Bool.false_ne_true, if_neg Bool.false_ne_true]
      exact ⟨raised_after (raised_portLate ..) s, by rw [after_out, out_portLate]⟩
  case pulse =>
    have hd' : d = pulseTaken p.val q rest s.dev := hd
    refine completes_to (exec_trigOutPulse p s) _ (trigPulse_owed hq) ?_
    rw [← hd']
    cases hdrives : d.drivesPrimary p.val with
    | false =>
      rw [if_neg Bool.false_ne_true]
      exact ⟨fun h => Bool.noConfusion h, fun h => Bool.noConfusion h, fun h => Bool.noConfusion h, fun _ => rfl,
        frame_outTim (upto_of_eq fun _ => rfl) s⟩
    | true =>
      rw [if_pos rfl]
      obtain ⟨hout, hend⟩ := pulseOn_shows p.val (pulseCut p.val d)
      obtain ⟨hdt, hget⟩ := pulseCut_keeps p.val d
      rw [Dev.on, hget, hdt] at hout
      rw [hget, hdt] at hend
      refine ⟨fun _ hnone => ?_, fun _ hsome => ?_, fun _ => hend, fun h => Bool.noConfusion h,
        frame_outTim ((upto_pulseCut ..).trans (upto_pulseOn ..)) s⟩
      · rw [after_out, hout, pulseCut, hnone]
        rfl
      · rw [after_out, hout, pulseCut, if_pos (Option.isSome_iff_ne_none.mpr hsome), (trigEnd_shows ..).1]
        rfl
  case pulseEnd =>
    refine completes_to (exec_trigOutPulseEnd p s) (trigEnd p.val (reach x s.dev)) (by rw [hx]) ?_
    obtain ⟨hout, hend⟩ := trigEnd_shows p.val (reach x s.dev)
    exact ⟨by rw [after_out, hout], by rw [after_tim, hend], frame_outTim (upto_trigEnd ..) s⟩

end Sys2Proof.Proofs
end

section
/-!
The compare units: a write of half of a time keeps the other half of the value last written, which a pending value hides.
-/
namespace Sys2Proof.Proofs
open Sys2Proof Sys2Proof.Machine

/-- The reset state with a value 2^32 that waits for a boundary in `TIM.CMP_TIME` of unit 0, whose value in force is 0. -/
def timePending : State :=
  { State.reset with dev := { State.reset.dev with rwb := [((R.TIM.CMP_TIME.T 0).key, some (2 ^ 32))] } }

/-- The value of `TIM.CMP_TIME` of unit 0 after a step. -/
def timeAfter (o : Host.Outcome State Fault Refusal) : Option Nat :=
  match o with
  | .next t => some (t.dev.get (R.TIM.CMP_TIME.T 0))
  | _ => none

theorem timePending_written : timeAfter (execCmpTimeWrite 0 (some 0) 0 timePending) = some (2 ^ 32) := by decide +kernel

theorem timePending_inForce : timePending.dev.get (R.TIM.CMP_TIME.T 0) = 0 := by decide +kernel

/-- Refutes O27: a write of the low half of CMP_TIME takes the high half from the value last written (`Dev.lastWritten`), not from the
value in force; where one waits for a boundary the two differ. -/
theorem not_compareUnitsAndCaptures : ¬ Obligations.CompareUnitsAndCaptures := by
  unfold Obligations.CompareUnitsAndCaptures
  rintro ⟨-, -, -, h, -⟩
  obtain ⟨t, hstep, -, htime, -⟩ := h 0 (some 0) 0 timePending
  have hwritten : t.dev.get (R.TIM.CMP_TIME.T 0) = 2 ^ 32 := by
    have hafter := timePending_written
    rw [exec_cmpTimeWrite] at hstep
    rw [hstep] at hafter
    exact Option.some.inj hafter
  have hold := timePending_inForce
  simp only [Fin.val_zero, hwritten, hold] at htime
  exact absurd htime (by decide)

end Sys2Proof.Proofs
end

section
/-!
The writes of registers: where a BAR0 offset leads, what a write of a register does to its fields, and the fields that are lost and
restored.
-/
namespace Sys2Proof.Proofs
open Sys2Proof Sys2Proof.Machine

/-! ## The register map -/

theorem repOffset_le {reps : List (Nat × Nat)} {o k : Nat} (h : repOffset reps o = some k) : k ≤ o := by
  induction reps generalizing o with
  | nil => exact (Option.some.inj h).ge
  | cons r reps ih =>
    obtain ⟨stride, count⟩ := r
    rw [repOffset] at h
    split at h
    · exact (ih h).trans (Nat.mod_le _ _)
    · exact absurd h (by simp)

theorem findReg_some {rs : List RegDef} {o : Nat} {r : RegDef} {k : Nat} (h : findReg rs o = some (r, k)) :
    r ∈ rs ∧ k ≤ o ∧ k < 8 := by
  induction rs with
  | nil => exact absurd h (by simp [findReg])
  | cons x rs ih =>
    have hrest : findReg rs o = some (r, k) → r ∈ x :: rs ∧ k ≤ o ∧ k < 8 := fun h =>
      ⟨List.mem_cons_of_mem _ (ih h).1, (ih h).2⟩
    rw [findReg] at h
    split at h
    · split at h
      · next k' hrep =>
        by_cases hlt : k' < if x.pair then 8 else 4
        · rw [if_pos hlt] at h
          obtain ⟨rfl, rfl⟩ := Prod.mk.inj (Option.some.inj h)
          refine ⟨List.mem_cons_self, (repOffset_le hrep).trans (Nat.sub_le _ _), ?_⟩
          split at hlt <;> omega
        · rw [if_neg hlt] at h
          exact hrest h
      · exact hrest h
    · exact hrest h

theorem findBlock_some {bs : List BlockDef} {a : Nat} {b : BlockDef} {inst off : Nat} (h : findBlock bs a = some (b, inst, off)) :
    b ∈ bs ∧ b.base ≤ a ∧ a < b.base + b.count * b.stride ∧ inst = (a - b.base) / b.stride ∧ off = (a - b.base) % b.stride := by
  induction bs with
  | nil => exact absurd h (by simp [findBlock])
  | cons x bs ih =>
    rw [findBlock] at h
    split at h
    · next hin =>
      obtain ⟨rfl, hrest⟩ := Prod.mk.inj (Option.some.inj h)
      obtain ⟨rfl, rfl⟩ := Prod.mk.inj hrest
      exact ⟨List.mem_cons_self, hin.1, hin.2, rfl, rfl⟩
    · exact ⟨List.mem_cons_of_mem _ (ih h).1, (ih h).2⟩

/-- Where a BAR0 offset leads to a register: the register of its block, at most 7 bytes before the offset and within it. -/
theorem siteOf_reg {a base inst a' : Nat} {b : BlockDef} {r : RegDef} (h : siteOf a = .reg base b inst r a') :
    b ∈ blocks ∧ r ∈ b.regs ∧ base = instBase b inst ∧ b.base ≤ base ∧ base ≤ a' ∧ a' ≤ a ∧ a < a' + 8 ∧ a < b.base + b.count * b.stride := by
  unfold siteOf at h
  split at h
  · exact absurd h (by simp)
  · next b' inst' off hb =>
    obtain ⟨hmem, hlo, hhi, hinst, hoff⟩ := findBlock_some hb
    dsimp only at h
    split at h
    · exact absurd h (by simp)
    · split at h
      · next r' k hr =>
        obtain ⟨hrmem, hk, hk8⟩ := findReg_some hr
        simp only [Site.reg.injEq] at h
        obtain ⟨rfl, rfl, rfl, rfl, rfl⟩ := h
        have hdiv := Nat.div_add_mod (a - b'.base) b'.stride
        rw [← hinst, ← hoff, Nat.mul_comm] at hdiv
        simp only [instBase]
        refine ⟨hmem, hrmem, trivial, ?_, ?_, ?_, ?_, hhi⟩ <;> omega
      · split at h <;> exact absurd h (by simp)

/-- Every field of the register map has a width and lies in a word of 64 bits. -/
theorem blocks_fields : ∀ b ∈ blocks, ∀ r ∈ b.regs, ∀ f ∈ r.fields, 0 < f.w ∧ f.lo + f.w ≤ 64 := by
  have h : blocks.all (fun b => b.regs.all fun r => r.fields.all fun f => decide (0 < f.w ∧ f.lo + f.w ≤ 64)) = true := by decide +kernel
  simpa only [List.all_eq_true, decide_eq_true_eq] using h

theorem field_of_site {a base inst a' : Nat} {b : BlockDef} {r : RegDef} {f : FieldDef} (h : siteOf a = .reg base b inst r a')
    (hf : f ∈ r.fields) : 0 < f.w ∧ f.lo + f.w ≤ 64 := by
  obtain ⟨hb, hr, -⟩ := siteOf_reg h
  exact blocks_fields b hb r hr f hf

/-- The field of a register, as its place in the map. -/
abbrev fld (a : Nat) (f : FieldDef) : Fld := ⟨a, f.lo, f.w⟩

theorem fld_key (a : Nat) (f : FieldDef) : (fld a f).key = a * 64 + f.lo := rfl

theorem fld_key_ne {a : Nat} {f g : FieldDef} (h : f.lo ≠ g.lo) : (fld a f).key ≠ (fld a g).key := by
  simp only [fld_key]
  omega

theorem fld_key_div {a : Nat} {f : FieldDef} (h : f.lo + f.w ≤ 64) (hw : 0 < f.w) : (fld a f).key / 64 = a := by
  rw [fld_key]
  omega

/-! ## One field, and all fields of a register -/

theorem each_id {α : Type} {F : α → Dev → Dev} {xs : List α} (h : ∀ x ∈ xs, ∀ d, F x d = d) (d : Dev) : each F xs d = d := by
  induction xs generalizing d with
  | nil => rfl
  | cons x xs ih => exact (ih (fun y hy => h y (List.mem_cons_of_mem _ hy)) _).trans (h x List.mem_cons_self d)

/-- What the turn of one element establishes, and no other turn undoes, holds in the end. -/
theorem each_establishes {α : Type} {F : α → Dev → Dev} {Q : Dev → Prop} {xs : List α} {x : α} (hx : x ∈ xs) (hset : ∀ d, Q (F x d))
    (hkeep : ∀ y ∈ xs, ∀ d, Q d → Q (F y d)) (d : Dev) : Q (each F xs d) := by
  have hall : ∀ ys : List α, (∀ y ∈ ys, ∀ d, Q d → Q (F y d)) → ∀ d, Q d → Q (each F ys d) := by
    intro ys
    induction ys with
    | nil => exact fun _ _ h => h
    | cons y ys ih => exact fun hk d h => ih (fun z hz => hk z (List.mem_cons_of_mem _ hz)) _ (hk y List.mem_cons_self d h)
  induction xs generalizing d with
  | nil => exact absurd hx List.not_mem_nil
  | cons y ys ih =>
    rcases List.mem_cons.mp hx with rfl | hx
    · exact hall ys (fun z hz => hkeep z (List.mem_cons_of_mem _ hz)) _ (hset d)
    · exact ih hx (fun z hz => hkeep z (List.mem_cons_of_mem _ hz)) _

/-- The bits of a word below a bound are those of what was last written below it. -/
theorem bits_setBits_low {lo w n : Nat} (hw : lo + w ≤ n) (old v : Nat) : bits (setBits old 0 n v) lo w = bits v lo w := by
  refine Nat.eq_of_testBit_eq fun i => ?_
  simp only [bits, setBits, Nat.pow_zero, Nat.mod_one, Nat.zero_add, Nat.mul_one, Nat.testBit_mod_two_pow, Nat.testBit_div_two_pow]
  by_cases hi : i < w
  · have hlow : i + lo < n := by omega
    rw [Nat.add_comm, Nat.mul_comm, Nat.testBit_two_pow_mul_add _ (Nat.mod_lt _ (Nat.two_pow_pos n)), if_pos hlow, Nat.testBit_mod_two_pow,
      decide_eq_true hlow, Bool.true_and]
  · rw [decide_eq_false hi, Bool.false_and, Bool.false_and]

/-- A word written whole gives the bits of a field that lies in it. -/
theorem mixField_whole {f : FieldDef} (hf : f.lo + f.w ≤ 32) (old v : Nat) : mixField old f 0 32 v = bits v f.lo f.w :=
  bits_setBits_low hf _ v

theorem get_writeField_ne {g : Fld} {a : Nat} {f : FieldDef} (hne : g.key ≠ (fld a f).key) (now : Bool) (lo n v : Nat) (d : Dev) :
    (writeField now a lo n v f d).get g = d.get g := by
  unfold writeField
  split
  · rfl
  · dsimp only
    split
    · exact get_put_ne hne ..
    · split
      · exact (get_put_ne hne ..).trans rfl
      · rfl
    · split
      · exact get_put_ne hne ..
      · rfl
    · rfl

theorem get_put_rwb (m : KMap (Option Nat)) {k j : Nat} (h : k ≠ j) (v : Option Nat) :
    KMap.get (fun _ => none) (KMap.put (fun _ => none) m j v) k = KMap.get (fun _ => none) m k := KMap.get_put_ne _ _ _ _ _ h

/-- A value that waits in another field goes on waiting. -/
theorem rwb_writeField_ne {k : Nat} {a : Nat} {f : FieldDef} (hne : k ≠ (fld a f).key) (now : Bool) (lo n v : Nat) (d : Dev) :
    KMap.get (fun _ => none) (writeField now a lo n v f d).rwb k = KMap.get (fun _ => none) d.rwb k := by
  unfold writeField
  split
  · rfl
  · dsimp only
    split
    · rfl
    · split
      · exact get_put_rwb d.rwb (j := Fld.key ⟨a, f.lo, f.w⟩) hne none
      · exact get_put_rwb d.rwb (j := Fld.key ⟨a, f.lo, f.w⟩) hne (some _)
    · split <;> rfl
    · rfl

/-- The write of a whole word to a field of a register, by the field's type. -/
theorem writeField_rw {a v : Nat} {f : FieldDef} (hw : 0 < f.w) (hf : f.lo + f.w ≤ 32) (hty : f.ty = .rw) (d : Dev) :
    (writeField false a 0 32 v f d).get (fld a f) = bits v f.lo f.w := by
  have ht : touches f 0 32 = true := decide_eq_true (by omega)
  simp only [writeField, ht, hty, mixField_whole hf]
  exact (get_put_self ..).trans (Nat.mod_eq_of_lt (Nat.mod_lt _ (Nat.two_pow_pos _)))

theorem writeField_rwb {a v : Nat} {f : FieldDef} (hw : 0 < f.w) (hf : f.lo + f.w ≤ 32) (hty : f.ty = .rwb) (hbnd : f.bnd ≠ .imm) (d : Dev) :
    KMap.get (fun _ => none) (writeField false a 0 32 v f d).rwb (fld a f).key = some (bits v f.lo f.w) ∧
    ∀ g, (writeField false a 0 32 v f d).get g = d.get g := by
  have ht : touches f 0 32 = true := decide_eq_true (by omega)
  have hb : (f.bnd == .imm) = false := by simpa using hbnd
  simp only [writeField, ht, hty, hb, mixField_whole hf, Bool.not_true, Bool.or_self, Bool.false_eq_true, if_false]
  exact ⟨KMap.get_put_self (α := Option Nat) _ d.rwb _ _, fun _ => rfl⟩

theorem writeField_ro {a lo n v : Nat} {f : FieldDef} (hty : f.ty = .ro ∨ f.ty = .rsq) (now : Bool) (d : Dev) :
    writeField now a lo n v f d = d := by
  unfold writeField
  split
  · rfl
  · rcases hty with hty | hty <;> simp only [hty]

/-- The clearing of a register's RSQ fields writes nothing but them. -/
theorem get_rsqWrite_ne {g : Fld} {r : RegDef} {a : Nat} (hne : ∀ f ∈ r.fields, f.ty = .rsq → g.key ≠ (fld a f).key) (lo n v : Nat) (d : Dev) :
    (rsqWrite r a lo n v d).get g = d.get g := by
  unfold rsqWrite
  dsimp only
  split
  · rfl
  split
  · refine get_each (fun f hf d => get_put_ne ?_ ..) d
    simp only [List.mem_filter, beq_iff_eq] at hf
    exact hne f hf.1.1 hf.1.2
  · rfl

theorem body_rwb (d : Dev) : d.body.rwb = d.rwb := rfl

theorem body_rsqWrite (r : RegDef) (a lo n v : Nat) (d : Dev) : (rsqWrite r a lo n v d).body = d.body := by
  unfold rsqWrite
  dsimp only
  split
  · rfl
  split
  · exact proj_each (F := fun f : FieldDef => put ⟨a, f.lo, f.w⟩ 0) Dev.body (fun _ _ _ => rfl) d
  · rfl

theorem rwb_rsqWrite (r : RegDef) (a lo n v : Nat) (d : Dev) : (rsqWrite r a lo n v d).rwb = d.rwb := by
  rw [← body_rwb, body_rsqWrite, body_rwb]

/-! ## Settings and the books -/

theorem find_none_of_ne {o lo : Nat} {l : List (Nat × Nat × Nat × Nat)} (h : ∀ e ∈ l, e.1 ≠ o) :
    (l.find? (fun e => e.1 == o && e.2.1 == lo)).map (fun e => e.2.2) = none := by
  rw [Option.map_eq_none_iff, List.find?_eq_none]
  intro e he
  simp [h e he]

/-- At the offsets of the performance counters no range is stated. -/
theorem statedRange_of_perf {code o lo : Nat} (ho : 0xf20 ≤ o % 0x1000) : statedRange code o lo = none := by
  unfold statedRange
  refine find_none_of_ne fun e he => ?_
  split at he
  all_goals
    repeat' split at he
    all_goals (simp only [List.mem_cons, List.not_mem_nil, or_false, Prod.ext_iff] at he) <;> omega

/-- A setting is in order at the offsets of the performance counters, in HST, and in MGT but for one register. -/
theorem settingOk_of_book {code o : Nat} (h : 0xf20 ≤ o % 0x1000 ∨ code = 20 ∨ code = 3 ∧ o ≠ 0xa0) (lo reset v : Nat) :
    settingOk code o lo reset v = true := by
  have hstated : statedRange code o lo = none := by
    rcases h with h | rfl | ⟨rfl, h⟩
    · exact statedRange_of_perf h
    · rfl
    · exact find_none_of_ne fun e he => (List.mem_singleton.mp he).symm ▸ h.symm
  unfold settingOk
  rw [hstated, Bool.or_eq_true]
  refine .inr ?_
  dsimp only
  rw [if_neg (by omega), if_neg (by omega), if_neg (by omega), if_neg (by omega)]

/-- The unit of a BAR0 offset. -/
def siteCode (a : Nat) : Option Nat :=
  match siteOf a with
  | .reg _ b .. => some b.code
  | .win _ b .. => some b.code
  | _ => none

theorem siteCode_reg {a base inst a' : Nat} {b : BlockDef} {r : RegDef} (h : siteOf a = .reg base b inst r a') : siteCode a = some b.code := by
  rw [siteCode, h]

theorem siteBase_reg {a base inst a' : Nat} {b : BlockDef} {r : RegDef} (h : siteOf a = .reg base b inst r a') : (siteOf a).base = some base := by
  rw [h, Site.base]

theorem siteCode_win {a base inst off : Nat} {b : BlockDef} {w : WinId} (h : siteOf a = .win base b inst w off) : siteCode a = some b.code := by
  rw [siteCode, h]

/-- Blocks begin at multiples of 4 KB, in order. -/
theorem blocks_aligned : ∀ b ∈ blocks, b.base % 0x1000 = 0 ∧ b.stride % 0x1000 = 0 := by decide

theorem instBase_aligned {b : BlockDef} (hb : b ∈ blocks) (inst : Nat) : instBase b inst % 0x1000 = 0 := by
  obtain ⟨hbase, hstride⟩ := blocks_aligned b hb
  rw [instBase, Nat.add_mod, hbase, Nat.zero_add, Nat.mod_mod, Nat.mul_mod, hstride, Nat.mul_zero, Nat.zero_mod]

/-- The settings at the books' places are always in order. -/
theorem settingOk_of_bookKey {a base inst a' : Nat} {b : BlockDef} {r : RegDef} {f : FieldDef} (h : siteOf a = .reg base b inst r a')
    (hf : f ∈ r.fields) (hbook : bookKey (fld a' f).key = true) (v : Nat) : settingOk b.code (a' - base) f.lo f.reset v = true := by
  obtain ⟨hmem, hr, hbase, hlo, hle, hle', hlt, hhi⟩ := siteOf_reg h
  obtain ⟨hw, hw64⟩ := blocks_fields b hmem r hr f hf
  have hal := instBase_aligned hmem inst
  rw [← hbase] at hal
  have hdiv := fld_key_div (a := a') hw64 hw
  have hin : b.base ≤ a' ∧ a' < b.base + b.count * b.stride := by omega
  refine settingOk_of_book ?_ _ _ _
  simp only [bookKey, hdiv, Bool.or_eq_true, Bool.and_eq_true, decide_eq_true_eq, List.contains_iff_mem, List.mem_cons, List.not_mem_nil,
    or_false] at hbook
  rcases hbook with ⟨hbook, -⟩ | hbook | hbook | hbook
  · exact .inl (by omega)
  · have ha : a' = 0x1d00604 := by rw [← hdiv, hbook]; decide
    exact .inr (.inl ((by decide : ∀ b ∈ blocks, b.base ≤ 0x1d00604 ∧ 0x1d00604 < b.base + b.count * b.stride → b.code = 20) b hmem (ha ▸ hin)))
  · have ha : a' = 0x40104 := by rw [← hdiv, hbook]; decide
    exact .inr (.inr ⟨(by decide : ∀ b ∈ blocks, b.base ≤ 0x40104 ∧ 0x40104 < b.base + b.count * b.stride → b.code = 3) b hmem (ha ▸ hin), by omega⟩)
  · have ha : a' = 0x40010 := by rw [← hdiv, hbook]; decide
    exact .inr (.inr ⟨(by decide : ∀ b ∈ blocks, b.base ≤ 0x40010 ∧ 0x40010 < b.base + b.count * b.stride → b.code = 3) b hmem (ha ▸ hin), by omega⟩)

theorem lastWritten_of_leaves {d e : Dev} (h : Leaves [] d e) {f : Fld} (hb : bookKey f.key = false) : e.lastWritten f = d.lastWritten f := by
  unfold Dev.lastWritten
  rw [rwb_of_leaves h, rwp_of_leaves h, h.get hb List.not_mem_nil]

/-- Whether a write is within the ranges of its fields does not depend on the books. -/
theorem outOfRange_of_leaves {a base inst a' : Nat} {b : BlockDef} {r : RegDef} (h : siteOf a = .reg base b inst r a') {d e : Dev}
    (hl : Leaves [] d e) (lo n v : Nat) : outOfRange b.code (a' - base) r a' lo n v e = outOfRange b.code (a' - base) r a' lo n v d := by
  unfold outOfRange
  refine Bool.eq_iff_iff.mpr (List.any_eq_true.trans (Iff.trans (exists_congr fun f => and_congr_right fun hf => ?_) List.any_eq_true.symm))
  by_cases hb : bookKey (fld a' f).key = true
  · rw [settingOk_of_bookKey h hf hb, settingOk_of_bookKey h hf hb]
  · rw [lastWritten_of_leaves hl (eq_false_of_ne_true hb)]

/-! ## A word that the host writes to a plain register -/

/-- The latches of a 64-bit pair leave every register. -/
theorem leaves_dropLatch (base : Nat) (d : Dev) : ∃ l e, dropLatch base d = { d with latch := l, epochLatch := e } := by
  unfold dropLatch setLatch
  dsimp only
  split <;> exact ⟨_, _, rfl⟩

theorem get_dropLatch (base : Nat) (d : Dev) (f : Fld) : (dropLatch base d).get f = d.get f := by
  obtain ⟨l, e, h⟩ := leaves_dropLatch base d
  rw [h]
  rfl

theorem lastWritten_dropLatch (base : Nat) (d : Dev) (f : Fld) : (dropLatch base d).lastWritten f = d.lastWritten f := by
  obtain ⟨l, e, h⟩ := leaves_dropLatch base d
  rw [h]
  rfl

theorem outOfRange_dropLatch (k code o : Nat) (r : RegDef) (a lo n v : Nat) (d : Dev) :
    outOfRange code o r a lo n v (dropLatch k d) = outOfRange code o r a lo n v d := by
  simp only [outOfRange, lastWritten_dropLatch]

/-- A write to a plain register starts nothing in its unit. -/
theorem unitEffect_plain {code o : Nat} (h : plainReg code o = true) (inst base lo n v : Nat) (old d : Dev) :
    unitEffect code inst base o lo n v old d = .next d := by
  unfold plainReg at h
  unfold unitEffect
  obtain ⟨hperf, hcode⟩ := Bool.and_eq_true_iff.mp h
  have hperf : ¬ (0xf00 ≤ o ∧ o < 0xf20) := by simpa [imp_iff_not_or] using hperf
  rw [if_neg hperf]
  split at hcode <;> simp at hcode <;> simp [hcode]
  case h_8 =>
    by_cases hcmp : 0x1000 ≤ o ∧ o < 0x1200
    · rw [if_pos hcmp, if_neg (by omega), if_neg (by omega)]
    · rw [if_neg hcmp, if_neg (by omega)]
  case h_11 | h_14 =>
    intros
    omega
  case h_16 =>
    intro hch
    split
    · omega
    · omega
    · omega
    · rfl

/-- Neither does it start a job or a test. -/
theorem jobEffect_plain {code o : Nat} (h : plainReg code o = true) (lo n v : Nat) (m : Mem) (d : Dev) :
    jobEffect code o lo n v m d = .next d := by
  have hjob : ¬ (code = 0x15 ∧ (o = 0x108 ∨ o = 0x128)) := by
    rintro ⟨rfl, rfl | rfl⟩ <;> exact absurd h (by decide)
  have htest : ¬ (code = 6 ∧ o = 0x10 ∧ wroteBit lo n v 16 = true) := by
    rintro ⟨rfl, rfl, -⟩
    exact absurd h (by decide)
  rw [jobEffect, if_neg hjob, if_neg htest]

theorem recipeTouches_of_leaves {d e : Dev} (h : Leaves [] d e) (a : Nat) : e.recipeTouches a = d.recipeTouches a := by
  unfold Dev.recipeTouches Dev.recipe
  rw [h.get (f := R.TOP.RECIPE.STATE) (by decide) List.not_mem_nil, rcp_of_leaves h]

theorem dark_of_leaves {d e : Dev} (h : Leaves [] d e) (code : Nat) : e.dark code = d.dark code := by
  unfold Dev.dark
  rw [h.get (f := R.TOP.STATE.MODE) (by decide) List.not_mem_nil]

theorem writeErr_of_leaves {d e : Dev} (h : Leaves [] d e) (a size : Nat) : writeErr e a size = writeErr d a size := by
  unfold writeErr
  refine ite_congr rfl (fun _ => rfl) fun _ => ite_congr rfl (fun _ => rfl) fun _ => ite_congr rfl (fun _ => rfl) fun _ =>
    ite_congr rfl (fun _ => rfl) fun _ => ?_
  cases siteOf a with
  | reg base b inst r a' =>
    dsimp only [slowBusy]
    by_cases h4 : b.code = 4
    · rw [if_pos h4]
      dsimp only
      rw [Dev.on, h.get (f := R.PWR.BUSY.BUSY) (by decide) List.not_mem_nil, ← Dev.on]
    · rw [if_neg h4]
      by_cases h5 : b.code = 5
      · rw [if_pos h5]
        dsimp only
        rw [Dev.on, h.get (f := R.CAL.BUSY.BUSY) (by decide) List.not_mem_nil, ← Dev.on]
      · rw [if_neg h5]
  | win | snap | none => rfl

/-- What the write of a whole word to a register leaves, before its unit acts. -/
def wordWritten (base : Nat) (r : RegDef) (a v : Nat) (d : Dev) : Dev := writeReg false r a 0 32 v (dropLatch base (hstPerf 1 1 d))

theorem hostWrite_word {a base inst v : Nat} {b : BlockDef} {r : RegDef} {d : Dev} (h : siteOf a = .reg base b inst r a)
    (ht : d.takesWord a base b r (v % 2 ^ 32)) (env : BootEnv) (m : Mem) :
    hostWrite false a 4 v env m d = .next (wordWritten base r a (v % 2 ^ 32) d) := by
  obtain ⟨hoff, hserved, herr, hdark, hrecipe, hplain, hrange, hrwp⟩ := ht
  have hl := leaves_hstPerf 1 1 d
  have hs : (hstPerf 1 1 d).served = true := (served_of_leaves hl).trans hserved
  have hcmd : a ≠ 0x264 := by
    rintro rfl
    rw [Option.some.inj ((siteCode_reg h).symm.trans (by decide : siteCode 0x264 = some 0)),
      Option.some.inj ((siteBase_reg h).symm.trans (by decide : (siteOf 0x264).base = some 0))] at hplain
    exact absurd hplain (by decide)
  have hpwr : a ≠ 0x80000 := by
    rintro rfl
    rw [Option.some.inj ((siteCode_reg h).symm.trans (by decide : siteCode 0x80000 = some 4)),
      Option.some.inj ((siteBase_reg h).symm.trans (by decide : (siteOf 0x80000).base = some 0x80000))] at hplain
    exact absurd hplain (by decide)
  have hany : (r.fields.any fun f => f.ty == .rwp && touches f 0 32) = false := by
    simp only [List.all_eq_true, bne_iff_ne] at hrwp
    simpa using fun f hf hty => absurd hty (hrwp f hf)
  have hwrite : writeAt false a 4 (v % 2 ^ 32) m (dropLatch base (hstPerf 1 1 d)) = .next (wordWritten base r a (v % 2 ^ 32) d) := by
    simp only [writeAt, h, Nat.sub_self, Nat.mul_zero, Nat.reduceMul, outOfRange_dropLatch, outOfRange_of_leaves h hl, hrange, hany, Bool.and_false,
      Bool.false_eq_true, if_false, unitEffect_plain hplain, andThen, jobEffect_plain hplain]
    rfl
  simp only [hostWrite, hoff, when, hs, writeErr_of_leaves hl, herr, bar0Write, h, dark_of_leaves hl, hdark, recipeTouches_of_leaves hl, hrecipe,
    Site.base, hcmd, hpwr, hwrite, andThen, Bool.not_false, Bool.not_true, Bool.false_eq_true, if_false, if_true, false_and, Nat.reduceMul]

theorem bits_mod {lo w n : Nat} (hw : lo + w ≤ n) (v : Nat) : bits (v % 2 ^ n) lo w = bits v lo w := by
  refine Nat.eq_of_testBit_eq fun i => ?_
  simp only [bits, Nat.testBit_mod_two_pow, Nat.testBit_div_two_pow]
  by_cases hi : i < w
  · rw [decide_eq_true (show i + lo < n by omega), Bool.true_and]
  · rw [decide_eq_false hi, Bool.false_and, Bool.false_and]

section
variable {r : RegDef} {f : FieldDef} {base a v : Nat} (huniq : ∀ g ∈ r.fields, g.lo = f.lo → g = f)
include huniq

/-- The clearing of RSQ fields leaves a field of another type. -/
theorem get_rsqWrite_of_type (hty : f.ty ≠ .rsq) (lo n v : Nat) (d : Dev) : (rsqWrite r a lo n v d).get (fld a f) = d.get (fld a f) :=
  get_rsqWrite_ne (fun g hg hgty => fld_key_ne fun heq => hty (huniq g hg heq.symm ▸ hgty)) lo n v d

theorem get_wordWritten_rw (hf : f ∈ r.fields) (hpos : 0 < f.w) (hword : f.lo + f.w ≤ 32) (hty : f.ty = .rw) (d : Dev) :
    (wordWritten base r a v d).get (fld a f) = bits v f.lo f.w := by
  rw [wordWritten, writeReg, get_rsqWrite_of_type huniq (by rw [hty]; decide)]
  refine each_establishes (Q := fun d => d.get (fld a f) = bits v f.lo f.w) hf (writeField_rw hpos hword hty) (fun g hg d hd => ?_) _
  by_cases heq : g.lo = f.lo
  · rw [huniq g hg heq]
    exact writeField_rw hpos hword hty d
  · exact (get_writeField_ne (fld_key_ne (Ne.symm heq)) ..).trans hd

/-- A field keeps its value where its own turn keeps it. -/
theorem get_wordWritten_of_keeps (hty : f.ty ≠ .rsq) (hkeep : ∀ d, (writeField false a 0 32 v f d).get (fld a f) = d.get (fld a f)) (d : Dev) :
    (wordWritten base r a v d).get (fld a f) = (hstPerf 1 1 d).get (fld a f) := by
  rw [wordWritten, writeReg, get_rsqWrite_of_type huniq hty]
  refine (get_each (fun g hg d => ?_) _).trans (get_dropLatch ..)
  by_cases heq : g.lo = f.lo
  · rw [huniq g hg heq]
    exact hkeep d
  · exact get_writeField_ne (fld_key_ne (Ne.symm heq)) ..

theorem rwb_wordWritten (hf : f ∈ r.fields) (hpos : 0 < f.w) (hword : f.lo + f.w ≤ 32) (hty : f.ty = .rwb) (hbnd : f.bnd ≠ .imm) (d : Dev) :
    KMap.get (fun _ => none) (wordWritten base r a v d).rwb (fld a f).key = some (bits v f.lo f.w) := by
  rw [wordWritten, writeReg, rwb_rsqWrite]
  refine each_establishes (Q := fun d => KMap.get (fun _ => none) d.rwb (fld a f).key = some (bits v f.lo f.w)) hf
    (fun d => (writeField_rwb hpos hword hty hbnd d).1) (fun g hg d hd => ?_) _
  by_cases heq : g.lo = f.lo
  · rw [huniq g hg heq]
    exact (writeField_rwb hpos hword hty hbnd d).1
  · exact (rwb_writeField_ne (fld_key_ne (Ne.symm heq)) ..).trans hd

end

/-- No field of another register changes. -/
theorem get_wordWritten_other {r : RegDef} {base a v : Nat} {g : Fld} (hfields : ∀ f ∈ r.fields, 0 < f.w ∧ f.lo + f.w ≤ 64)
    (hg : g.key / 64 ≠ a) (d : Dev) : (wordWritten base r a v d).get g = (hstPerf 1 1 d).get g := by
  have hne : ∀ f ∈ r.fields, g.key ≠ (fld a f).key := fun f hf heq =>
    hg (by rw [heq]; exact fld_key_div (hfields f hf).2 (hfields f hf).1)
  rw [wordWritten, writeReg, get_rsqWrite_ne (fun f hf _ => hne f hf)]
  exact (get_each (fun f hf d => get_writeField_ne (hne f hf) ..) _).trans (get_dropLatch ..)

/-! ## A register with a sequence number -/

/-- The clearing write of a register whose fields are all RSQ or RO. -/
theorem get_wordWritten_rsq {r : RegDef} {f : FieldDef} {base a v : Nat} (hall : ∀ g ∈ r.fields, g.ty = .rsq ∨ g.ty = .ro) (hf : f ∈ r.fields)
    (hty : f.ty = .rsq) (d : Dev) :
    (wordWritten base r a v d).get (fld a f) =
      if (hstPerf 1 1 d).get ⟨a, 24, 8⟩ = bits v 24 8 ∧ f.lo ≠ 24 then 0 else (hstPerf 1 1 d).get (fld a f) := by
  have hid : each (writeField false a 0 32 v) r.fields (dropLatch base (hstPerf 1 1 d)) = dropLatch base (hstPerf 1 1 d) :=
    each_id (fun g hg e => writeField_ro (hall g hg).symm false e) _
  have hmem : f ∈ r.fields.filter (fun f => f.ty == .rsq) := List.mem_filter.mpr ⟨hf, by rw [hty]; decide⟩
  have hsome : (r.fields.filter (fun f => f.ty == .rsq)).isEmpty = false := by
    rw [List.isEmpty_eq_false_iff]
    exact List.ne_nil_of_mem hmem
  rw [wordWritten, writeReg, hid]
  generalize hstPerf 1 1 d = e
  rw [← get_dropLatch base e, ← get_dropLatch base e]
  generalize dropLatch base e = e
  unfold rsqWrite
  dsimp only
  rw [hsome, bits_setBits_low (by decide), if_neg (by decide)]
  by_cases hseq : e.get ⟨a, 24, 8⟩ = bits v 24 8
  · rw [if_pos hseq]
    by_cases h24 : f.lo = 24
    · rw [if_neg fun h => h.2 h24]
      refine get_each (fun g hg e => get_put_ne (fld_key_ne fun heq => ?_) ..) e
      exact absurd (heq.symm.trans h24) (by simpa using (List.mem_filter.mp hg).2)
    · rw [if_pos ⟨hseq, h24⟩]
      refine each_establishes (F := fun g : FieldDef => put (fld a g) 0) (Q := fun e => e.get (fld a f) = 0)
        (List.mem_filter.mpr ⟨hmem, by simpa using h24⟩) (fun e => ?_) (fun g _ e he => ?_) e
      · rw [get_put_self, Nat.zero_mod]
      · by_cases heq : (fld a f).key = (fld a g).key
        · rw [get_put_key heq, Nat.zero_mod]
        · exact (get_put_ne heq ..).trans he
  · rw [if_neg hseq, if_neg fun h => hseq h.1]

end Sys2Proof.Proofs
end

section
/-!
What the writes of the host do: a word of a register, a word of a window, and the writes that break a rule.
-/
namespace Sys2Proof.Proofs
open Sys2Proof Sys2Proof.Machine

/-! ## Windows -/

/-- Whether a BAR0 offset leads to a window. -/
def siteIsWin : Site → Bool
  | .win .. => true
  | _ => false

/-- Where a BAR0 offset leads to a window: a window of its block. -/
theorem siteOf_win {a base inst off : Nat} {b : BlockDef} {w : WinId} (h : siteOf a = .win base b inst w off) :
    b ∈ blocks ∧ base = instBase b inst ∧ inst < b.count ∧ ∃ lo n, (w, lo, n) ∈ windowsOf b.code := by
  unfold siteOf at h
  split at h
  · exact absurd h (by simp)
  · next b' inst' off hb =>
    obtain ⟨hmem, hlo, hhi, hinst, hoff⟩ := findBlock_some hb
    dsimp only at h
    split at h
    · exact absurd h (by simp)
    · split at h
      · exact absurd h (by simp)
      · split at h
        · next w' hw =>
          simp only [Site.win.injEq] at h
          obtain ⟨rfl, rfl, rfl, rfl, rfl⟩ := h
          refine ⟨hmem, rfl, ?_, w'.2.1, w'.2.2, List.mem_of_find?_eq_some hw⟩
          rw [hinst]
          exact Nat.div_lt_of_lt_mul (by rw [Nat.mul_comm]; omega)
        · exact absurd h (by simp)

/-- A register that is none of the books has no book in the upper bits of its word. -/
theorem bookKey_of_sameReg {a lo lo' w w' : Nat} (hlo : lo < 64) (hpos : 0 < lo') (hlo' : lo' < 64) (h : bookKey (Fld.key ⟨a, lo, w⟩) = false) :
    bookKey (Fld.key ⟨a, lo', w'⟩) = false := by
  have hdiv : (a * 64 + lo') / 64 = a := by omega
  have hdiv' : (a * 64 + lo) / 64 = a := by omega
  simp only [bookKey, Fld.key, hdiv, hdiv', Bool.or_eq_false_iff] at h ⊢
  refine ⟨h.1, ?_⟩
  simp only [R.HST.STAT.COUNT, R.MGT.STAT.COUNT, R.MGT.LOG_WR.LSEQ, List.contains_eq_any_beq, List.any_cons, List.any_nil, Bool.or_eq_false_iff,
    beq_eq_false_iff_ne]
  refine ⟨?_, ?_, ?_, trivial⟩ <;> omega

/-- The next number of an 8-bit SEQ is an 8-bit number, and not 0. -/
theorem nextSeq_of_lt {n : Nat} (h : n < 256) : nextSeq n < 256 ∧ nextSeq n ≠ 0 := by
  unfold nextSeq
  split <;> omega

/-- Settles O16: the write of a plain word, and an event. -/
theorem sequenceNumberClears : Obligations.SequenceNumberClears := by
  unfold Obligations.SequenceNumberClears
  refine ⟨fun addr value s base inst b r f hsite htakes hseq hall hf hty hbook => ?_, fun addr value s hseq => ?_,
    fun code seq fs d hw hlt hbook hfs => ?_⟩
  · have hv : value.toNat % 2 ^ 32 = value.toNat := Nat.mod_eq_of_lt value.isLt
    have hall : ∀ g ∈ r.fields, g.ty = .rsq ∨ g.ty = .ro := by simpa using hall
    have hwrite := hostWrite_word hsite (hv ▸ htakes) {} s.mem
    refine completes_run (exec_rsqClear ..) (show _ = Host.Outcome.next _ by rw [if_pos hseq]; exact hwrite) ?_
    have hl := leaves_hstPerf 1 1 s.dev
    rw [get_after, hv, get_wordWritten_rsq hall hf hty, hl.get hbook List.not_mem_nil, hl.get (f := ⟨addr.toNat, 24, 8⟩) ?_ List.not_mem_nil]
    have hw := field_of_site hsite hf
    exact bookKey_of_sameReg (by omega) (by decide) (by decide) hbook
  · refine completes_run (exec_rsqClear ..) (show _ = Host.Outcome.next _ by rw [hseq]; rfl) rfl
  · obtain ⟨hnext, hne⟩ := nextSeq_of_lt hlt
    have hkey : seq.key ∉ fs.map Fld.key := fun h => by
      obtain ⟨f, hf, heq⟩ := List.mem_map.mp h
      exact (hfs f hf).2.1 heq
    refine ⟨?_, hne, rfl, fun f hf => ?_⟩
    · rw [get_event_seq hbook hkey, hw]
      exact Nat.mod_eq_of_lt hnext
    · rw [Dev.on, get_event_flag (hfs f hf).2.2 (fun g hg => (hfs g hg).1) hf]
      rfl

/-! ## The writes of windows -/

/-- What the write of a table word leaves. -/
theorem bankWrite_shows (u k v : Nat) (d : Dev) :
    (bankWrite u false k v d).shdWord u k = v % 2 ^ 32 ∧ (∀ j, (bankWrite u false k v d).actWord u j = d.actWord u j) ∧
    ∀ f, (bankWrite u false k v d).get f = d.get f := by
  unfold bankWrite Dev.shdWord Dev.actWord
  dsimp only
  rw [bankS_setBank]
  exact ⟨KMap.get_put_self .., fun _ => rfl, fun _ => rfl⟩

section
variable {a base inst off v : Nat} {b : BlockDef} {w : WinId} {d : Dev} (h : siteOf a = .win base b inst w off) (hoff : d.aon.off = false)
  (hserved : d.served = true) (herr : writeErr d a 4 = none) (hdark : d.dark b.code = false) (hrecipe : d.recipeTouches a = false)
include h hoff hserved herr hdark hrecipe

/-- A word that the host writes to a window. -/
theorem hostWrite_win {e : Dev} (hwin : writeWin false w inst off (v % 2 ^ 32) (dropLatch base (hstPerf 1 1 d)) = .next e) (env : BootEnv) (m : Mem) :
    hostWrite false a 4 v env m d = .next e := by
  have hl := leaves_hstPerf 1 1 d
  have hs : (hstPerf 1 1 d).served = true := (served_of_leaves hl).trans hserved
  have hcmd : a ≠ 0x264 := by
    rintro rfl
    exact absurd (show siteIsWin (siteOf 0x264) = true from congrArg siteIsWin h) (by decide)
  have hpwr : a ≠ 0x80000 := by
    rintro rfl
    exact absurd (show siteIsWin (siteOf 0x80000) = true from congrArg siteIsWin h) (by decide)
  simp only [hostWrite, hoff, when, hs, writeErr_of_leaves hl, herr, bar0Write, h, dark_of_leaves hl, hdark, recipeTouches_of_leaves hl, hrecipe,
    Site.base, hcmd, hpwr, writeAt, hwin, andThen, Bool.not_false, Bool.not_true, Bool.false_eq_true, if_false, if_true, false_and, Nat.reduceMul]

end

/-- The table windows of FUS, CLS and VRD. -/
def tableWindows : List WinId := [.fusKernel, .fusMap, .clsProj, .clsRules, .clsNodes, .clsLeaves, .clsLut, .vrdRules, .vrdMap, .vrdZones]

theorem mem_tableWindows {code lo n : Nat} {w : WinId} (hcode : code ∈ [11, 12, 16]) (hw : (w, lo, n) ∈ windowsOf code) : w ∈ tableWindows := by
  have hall : ∀ c ∈ [11, 12, 16], ∀ x ∈ windowsOf c, x.1 ∈ tableWindows := by decide
  exact hall code hcode _ hw

/-- Which word such a window names does not depend on the registers, and lies in a bank of those units. -/
theorem tableKey_tableWindows {w : WinId} (hw : w ∈ tableWindows) {inst off u k : Nat} {d : Dev} (h : d.tableKey w inst off = some (u, k)) (e : Dev) :
    e.tableKey w inst off = some (u, k) ∧ 8 ≤ u := by
  fin_cases hw <;> exact ⟨h, (Prod.mk.inj (Option.some.inj h)).1 ▸ (by decide)⟩

theorem writeWin_tableWindows {w : WinId} (hw : w ∈ tableWindows) {inst off u k : Nat} {d : Dev} (h : d.tableKey w inst off = some (u, k)) (v : Nat) :
    writeWin false w inst off v d = .next (bankWrite u (d.copyCovers u k) k (v % 2 ^ 32) d) := by
  fin_cases hw <;> simp only [writeWin, h] <;> rfl

theorem copyCovers_of_get {u k : Nat} (hu : 8 ≤ u) {d e : Dev} (h : ∀ f, bookKey f.key = false → e.get f = d.get f) :
    e.copyCovers u k = d.copyCovers u k := by
  have hlt : ¬ u < 8 := by omega
  simp only [Dev.copyCovers, Dev.on, hlt, if_false, h R.FUS.TBL_CTL.COPY_BUSY (by decide), h R.CLS.TBL_CTL.COPY_BUSY (by decide),
    h R.VRD.TBL_CTL.COPY_BUSY (by decide)]

/-- Bytes that are written to a map read back. -/
theorem get_putBytes_lt (bs : List Byte) {m : KMap Byte} {k j : Nat} (h : j < k) :
    KMap.get (fun _ => 0#8) (putBytes m k bs) j = KMap.get (fun _ => 0#8) m j := by
  induction bs generalizing m k with
  | nil => rfl
  | cons b bs ih => exact (ih (by omega)).trans (KMap.get_put_ne _ _ _ _ _ (by omega))

theorem range_map_putBytes (bs : List Byte) (m : KMap Byte) (k : Nat) :
    (List.range bs.length).map (fun i => KMap.get (fun _ => 0#8) (putBytes m k bs) (k + i)) = bs := by
  induction bs generalizing m k with
  | nil => rfl
  | cons b bs ih =>
    rw [List.length_cons, List.range_succ_eq_map, List.map_cons, List.map_map]
    refine congrArg₂ _ ?_ (Eq.trans (List.map_congr_left fun i _ => ?_) (ih (KMap.put (fun _ => 0#8) m k b) (k + 1)))
    · exact (get_putBytes_lt bs (by omega)).trans (KMap.get_put_self ..)
    · simp only [Function.comp, putBytes, Nat.succ_eq_add_one, Nat.add_assoc, Nat.add_comm 1]

/-- The error of a write is reported, with the window and the offset. -/
theorem busError_write (bar addr kind : Nat) (d : Dev) :
    (busError bar addr kind true d).get R.TOP.BUSERR_ADDR.BAR = bar % 2 ^ R.TOP.BUSERR_ADDR.BAR.w ∧
      .aer bar addr ∈ (busError bar addr kind true d).out := by
  unfold busError
  simp only [when, if_true]
  refine ⟨?_, ?_⟩
  · simp (disch := decide) only [get_errEvent, get_logEv, get_perf, get_event, get_emit, get_put_self]
  · rw [out_errEvent, out_of_leaves (leaves_logEv ..),
      out_of_leaves (leaves_perf 0x14 (by unfold PerfBase; decide) 6 1 _), out_event, out_emit]
    exact List.mem_cons_self

section
variable {user : Bool} {a size v : Nat} {env : BootEnv} {m : Mem} {d : Dev} (hoff : d.aon.off = false) (hserved : d.served = true)
include hoff hserved

theorem hostWrite_user : hostWrite true a size v env m d = .next (busError 2 a 5 true d) := by
  simp only [hostWrite, hoff, when, hserved, Bool.not_true, Bool.false_eq_true, if_false, if_true]

theorem hostWrite_error {k : Nat} (herr : writeErr d a size = some k) :
    hostWrite false a size v env m d = .next (busError 0 a k true (dropLatchAt a (hstPerf 1 1 d))) := by
  have hl := leaves_hstPerf 1 1 d
  have hs : (hstPerf 1 1 d).served = true := (served_of_leaves hl).trans hserved
  simp only [hostWrite, hoff, when, hs, writeErr_of_leaves hl, herr, Bool.not_true, Bool.not_false, Bool.false_eq_true, if_false, if_true]

theorem hostWrite_bar0 (herr : writeErr d a size = none) :
    hostWrite false a size v env m d = bar0Write a size (v % 2 ^ (8 * size)) env m (hstPerf 1 1 d) := by
  have hl := leaves_hstPerf 1 1 d
  have hs : (hstPerf 1 1 d).served = true := (served_of_leaves hl).trans hserved
  simp only [hostWrite, hoff, when, hs, writeErr_of_leaves hl, herr, Bool.not_true, Bool.not_false, Bool.false_eq_true, if_false, if_true]

end

section
variable {a base inst a' size v : Nat} {b : BlockDef} {r : RegDef} {env : BootEnv} {m : Mem} {d : Dev} (h : siteOf a = .reg base b inst r a')
include h

theorem bar0Write_dark (hdark : d.dark b.code = true) : ∃ w, bar0Write a size v env m d = .fault (.hostError w) := by
  simp only [bar0Write, h, hdark, if_true]
  exact ⟨_, rfl⟩

/-- A value that the field's table does not state stops as a host error, unless the loading recipe holds the register. -/
theorem bar0Write_outOfRange (hcmd : a ≠ 0x264)
    (hrange : outOfRange b.code (a' - base) r a' (8 * (a - a')) (8 * size) v d = true) (hdark : d.dark b.code = false) :
    ∃ w, bar0Write a size v env m d = .fault (.hostError w) := by
  simp only [bar0Write, h, hdark, Bool.false_eq_true, if_false, Site.base]
  split
  · exact ⟨_, rfl⟩
  · simp only [hcmd, false_and, if_false, writeAt, h, outOfRange_dropLatch, hrange, if_true, andThen]
    exact ⟨_, rfl⟩

end

theorem leVal_leBytes (n v : Nat) : leVal (leBytes n v) = v % 256 ^ n := by
  induction n generalizing v with
  | zero => rw [Nat.pow_zero, Nat.mod_one]; rfl
  | succ n ih =>
    rw [leBytes, leVal, ih, BitVec.toNat_ofNat]
    exact ((congrArg (v % ·) (Nat.pow_succ' (m := 256) (n := n))).trans (Nat.mod_mul (x := v) (a := 256))).symm

theorem mailbox_of_putBytes (off v : Nat) (d : Dev) :
    ({ d with mgt := { d.mgt with mbx := putBytes d.mgt.mbx off (leBytes 4 v) } } : Dev).mbxField off 4 = v % 2 ^ 32 := by
  refine Eq.trans ?_ (leVal_leBytes 4 v)
  exact congrArg leVal (range_map_putBytes (leBytes 4 v) d.mgt.mbx off)

theorem dropLatch_ne {base : Nat} (h : base ≠ 0x100000) (d : Dev) : ∃ l, dropLatch base d = { d with latch := l } := by
  unfold dropLatch setLatch
  exact ⟨_, if_neg h⟩

/-- The mailbox window is in the management unit. -/
theorem base_of_mailbox {a base inst off : Nat} {b : BlockDef} (h : siteOf a = .win base b inst .mailbox off) : base ≠ 0x100000 := by
  obtain ⟨hmem, hbase, hinst, lo, n, hwin⟩ := siteOf_win h
  have hblk : ∀ b ∈ blocks, (windowsOf b.code).any (fun w => w.1 == .mailbox) = true → b.base = 0x40000 ∧ b.count = 1 := by decide
  obtain ⟨h1, h2⟩ := hblk b hmem (List.any_eq_true.mpr ⟨_, hwin, rfl⟩)
  have h0 : inst = 0 := by omega
  rw [hbase, h0, instBase, h1, Nat.zero_mul]
  decide

/-- A word of a table, and a word of the mailbox, that the host writes from a device that differs in the books. -/
theorem bankWrite_of_leaves {d e : Dev} (hl : Leaves [] d e) (base u k v : Nat) :
    (bankWrite u false k v (dropLatch base e)).shdWord u k = v % 2 ^ 32 ∧
    (∀ j, (bankWrite u false k v (dropLatch base e)).actWord u j = d.actWord u j) ∧
    ∀ f, bookKey f.key = false → (bankWrite u false k v (dropLatch base e)).get f = d.get f := by
  obtain ⟨hshd, hact, hregs⟩ := bankWrite_shows u k v (dropLatch base e)
  refine ⟨hshd, fun j => (hact j).trans ?_, fun f hb => (hregs f).trans ((get_dropLatch ..).trans (hl.get hb List.not_mem_nil))⟩
  obtain ⟨l, p, hdrop⟩ := leaves_dropLatch base e
  rw [hdrop]
  exact congrArg (fun m => KMap.get (bankDefault u) (KMap.get (fun _ => {}) m u).act j) (bank_of_leaves hl)

theorem leaves_mailbox {d e : Dev} (hl : Leaves [] d e) (l : KMap (Option (Nat × Nat))) (x : MgtS) :
    Leaves [] { d with latch := l, mgt := x } { e with latch := l, mgt := x } :=
  leaves_map (fun d => { d with latch := l, mgt := x }) (fun _ => rfl) (fun _ => rfl) hl

/-- Settles O15: a word of a register, a word of a window, and the writes that break a rule. -/
theorem registerWritesReachTheFields : Obligations.RegisterWritesReachTheFields := by
  unfold Obligations.RegisterWritesReachTheFields
  refine ⟨fun addr value env s base inst b r f hsite htakes hf hword huniq => ?word,
    fun addr value env s base inst off u k b w hoff hserved herr hdark hrecipe hsite hcode hkey hcopy => ?table,
    fun addr value env s base inst off b hoff hserved herr hdark hrecipe hsite => ?mailbox,
    fun addr size value env s hoff hserved => ?user, fun addr size value env s k hoff hserved herr => ?rule,
    fun addr size value env s base inst b r a hoff hserved herr hsite hdark => ?dark,
    fun addr size value env s base inst b r a hoff hserved herr hdark hsite hcmd hrange => ?range⟩
  case word =>
    refine completes_run (exec_registerWrite ..) (hostWrite_word hsite htakes env s.mem) ?_
    have hl := leaves_hstPerf 1 1 s.dev
    obtain ⟨hpos, -⟩ := field_of_site hsite hf
    refine ⟨fun hty => ?_, fun hty hbnd hbook => ⟨?_, ?_⟩, fun hty hbook => ?_, fun g hg hbook => ?_⟩
    · rw [get_after, get_wordWritten_rw huniq hf hpos hword hty, bits_mod hword]
    · rw [get_after, get_wordWritten_of_keeps huniq (by rw [hty]; decide) fun d => (writeField_rwb hpos hword hty hbnd d).2 _,
        hl.get hbook List.not_mem_nil]
    · rw [after_rwb, rwb_wordWritten huniq hf hpos hword hty hbnd, bits_mod hword]
    · rw [get_after, get_wordWritten_of_keeps huniq (by rw [hty]; decide) fun d => by rw [writeField_ro (.inl hty)],
        hl.get hbook List.not_mem_nil]
    · rw [get_after, get_wordWritten_other (fun g hg => field_of_site hsite hg) hg, hl.get hbook List.not_mem_nil]
  case table =>
    obtain ⟨-, -, -, lo, n, hwin⟩ := siteOf_win hsite
    have hw := mem_tableWindows hcode hwin
    have hl := leaves_hstPerf 1 1 s.dev
    obtain ⟨hkey', hu⟩ := tableKey_tableWindows hw hkey (dropLatch base (hstPerf 1 1 s.dev))
    have hwrite := writeWin_tableWindows hw hkey' (value.toNat % 2 ^ 32)
    rw [copyCovers_of_get hu fun f hb => (get_dropLatch base _ f).trans (hl.get hb List.not_mem_nil), hcopy] at hwrite
    refine completes_run (exec_registerWrite ..) (hostWrite_win hsite hoff hserved herr hdark hrecipe hwrite env s.mem) ?_
    obtain ⟨hshd, hact, hregs⟩ := bankWrite_of_leaves hl base u k (value.toNat % 2 ^ 32 % 2 ^ 32)
    exact ⟨hshd.trans (by rw [Nat.mod_mod, Nat.mod_mod]), hact, fun f hb => (get_after ..).trans (hregs f hb)⟩
  case mailbox =>
    have hl := leaves_hstPerf 1 1 s.dev
    refine completes_run (exec_registerWrite ..) (hostWrite_win hsite hoff hserved herr hdark hrecipe rfl env s.mem) ?_
    generalize hstPerf 1 1 s.dev = d at hl
    obtain ⟨l, hdrop⟩ := dropLatch_ne (base_of_mailbox hsite) d
    rw [hdrop]
    exact ⟨(mailbox_of_putBytes off _ _).trans (Nat.mod_mod ..), frame_of_leaves (leaves_mailbox hl l _) s⟩
  case user =>
    refine completes_run (exec_registerWrite ..) (hostWrite_user hoff hserved) ?_
    obtain ⟨hbar, hout⟩ := busError_write 2 addr.toNat 5 s.dev
    exact ⟨(get_after ..).trans (busError_shows ..).1, (get_after ..).trans hbar, hout⟩
  case rule =>
    refine completes_run (exec_registerWrite ..) (hostWrite_error hoff hserved herr) ?_
    exact ⟨(get_after ..).trans (busError_shows ..).1, (busError_write ..).2⟩
  case dark =>
    obtain ⟨w, hw⟩ := bar0Write_dark hsite ((dark_of_leaves (leaves_hstPerf 1 1 s.dev) _).trans hdark) (size := size)
      (v := value.toNat % 2 ^ (8 * size)) (env := env) (m := s.mem)
    exact ⟨w, (exec_registerWrite ..).trans (run_fault ((hostWrite_bar0 hoff hserved herr).trans hw))⟩
  case range =>
    have hl := leaves_hstPerf 1 1 s.dev
    obtain ⟨w, hw⟩ := bar0Write_outOfRange hsite hcmd ((outOfRange_of_leaves hsite hl ..).trans hrange) ((dark_of_leaves hl _).trans hdark)
      (env := env) (m := s.mem)
    exact ⟨w, (exec_registerWrite ..).trans (run_fault ((hostWrite_bar0 hoff hserved herr).trans hw))⟩

end Sys2Proof.Proofs
end

section
/-!
Values that wait for a boundary or are posted, and where they land.
-/
namespace Sys2Proof.Proofs
open Sys2Proof Sys2Proof.Machine

/-- The values of a list of pending writes that a boundary takes, written one after the other. -/
def landed (hit : Nat → Bool) (pend : KMap (Option Nat)) (regs : KMap Nat) : KMap Nat :=
  pend.foldl (fun r e =>
    match e.2 with
    | some v => if hit e.1 then KMap.put resetOf r e.1 v else r
    | none => r) regs

/-- One pending write that lands, or not. -/
def landOne (hit : Nat → Bool) (regs : KMap Nat) (k : Nat) (v : Option Nat) : KMap Nat :=
  match v with
  | some v => if hit k then KMap.put resetOf regs k v else regs
  | none => regs

theorem landed_cons (hit : Nat → Bool) (k : Nat) (v : Option Nat) (pend : KMap (Option Nat)) (regs : KMap Nat) :
    landed hit ((k, v) :: pend) regs = landed hit pend (landOne hit regs k v) := by
  cases v <;> rfl

theorem get_landOne_ne {hit : Nat → Bool} {j k : Nat} (h : j ≠ k) (regs : KMap Nat) (v : Option Nat) :
    KMap.get resetOf (landOne hit regs k v) j = KMap.get resetOf regs j := by
  unfold landOne
  split
  · split
    · exact KMap.get_put_ne _ _ _ _ _ h
    · rfl
  · rfl

theorem get_landOne_self {hit : Nat → Bool} {k : Nat} (regs : KMap Nat) (v : Option Nat) :
    KMap.get resetOf (landOne hit regs k v) k = if hit k then v.getD (KMap.get resetOf regs k) else KMap.get resetOf regs k := by
  cases v with
  | none => exact (ite_self _).symm
  | some v =>
    by_cases hk : hit k = true
    · rw [landOne, if_pos hk, if_pos hk, KMap.get_put_self, Option.getD_some]
    · rw [landOne, if_neg hk, if_neg hk]

/-- In a map that lists each key once, the value that waits at a key is the one that lands there. -/
theorem get_landed {hit : Nat → Bool} {pend : KMap (Option Nat)} (hwf : KMap.rising none pend = true) (regs : KMap Nat) (k : Nat) :
    KMap.get resetOf (landed hit pend regs) k =
      if hit k then (KMap.get (fun _ => none) pend k).getD (KMap.get resetOf regs k) else KMap.get resetOf regs k := by
  induction pend generalizing regs with
  | nil => exact (ite_self _).symm
  | cons e pend ih =>
    obtain ⟨j, v⟩ := e
    rw [KMap.rising_cons, Bool.true_and] at hwf
    rw [landed_cons, ih (KMap.rising_none _ _ hwf)]
    by_cases hjk : j = k
    · subst hjk
      rw [KMap.get_of_lt _ _ _ _ hwf le_rfl, KMap.get, if_pos rfl, get_landOne_self, Option.getD_none, ite_self]
    · rw [KMap.get, if_neg hjk, get_landOne_ne (Ne.symm hjk)]

theorem get_filter_key {α : Type} (d : Nat → α) (p : Nat → Bool) (m : KMap α) (k : Nat) :
    KMap.get d (m.filter (fun e => p e.1)) k = if p k then KMap.get d m k else d k := by
  induction m with
  | nil => exact (ite_self _).symm
  | cons e m ih =>
    obtain ⟨j, v⟩ := e
    rw [List.filter_cons]
    by_cases hjk : j = k
    · subst hjk
      by_cases hp : p j = true
      · simp only [hp, if_true, KMap.get]
      · rw [if_neg hp, if_neg hp, ih, if_neg hp]
    · by_cases hp : p j = true
      · simp only [hp, if_true, KMap.get, hjk, if_false, ih]
      · rw [if_neg hp, ih, KMap.get, if_neg hjk]

theorem get_applyPend {hit : Nat → Bool} {d : Dev} (hwf : KMap.wf (fun _ => none) d.rwb = true) (f : Fld) :
    (applyPend hit d).get f = if hit f.key then (KMap.get (fun _ => none) d.rwb f.key).getD (d.get f) else d.get f :=
  get_landed ((KMap.wf_iff _ _).mp hwf).1 d.regs f.key

/-- The addresses of a slow-domain block. -/
def postedAt (base k : Nat) : Bool := decide (base ≤ k / 64 ∧ k / 64 < base + 0x20000)

theorem get_landPosted {base : Nat} {d : Dev} (hwf : KMap.wf (fun _ => none) d.rwp = true) (f : Fld) :
    (landPosted base d).get f = if postedAt base f.key then (KMap.get (fun _ => none) d.rwp f.key).getD (d.get f) else d.get f :=
  get_landed (hit := postedAt base) ((KMap.wf_iff _ _).mp hwf).1 d.regs f.key

theorem rwp_landPosted {base k : Nat} (h : postedAt base k = true) (d : Dev) :
    KMap.get (fun _ => none) (landPosted base d).rwp k = none := by
  refine (get_filter_key (fun _ => none) (fun k => !postedAt base k) d.rwp k).trans ?_
  rw [h]
  rfl

/-! ## Run-time holders -/

theorem rtHold_returnStatic (k j : Nat) (d : Dev) :
    KMap.get (fun _ => none) (returnStatic k d).rtHold j = if j = k then none else KMap.get (fun _ => none) d.rtHold j := by
  have hput : (returnStatic k d).rtHold = KMap.put (fun _ => none) d.rtHold k none := by
    unfold returnStatic
    dsimp only
    split <;> rfl
  rw [hput, KMap.get_put]

/-- The end of the run-time holding of all that was released. -/
theorem rtHold_returnAll {d : Dev} {k : Nat} (hk : k ∈ d.rtFree) : KMap.get (fun _ => none) (returnAll d).rtHold k = none := by
  refine each_establishes (Q := fun d => KMap.get (fun _ => none) d.rtHold k = none) hk (fun e => ?_) (fun j _ e he => ?_) d
  · rw [rtHold_returnStatic, if_pos rfl]
  · rw [rtHold_returnStatic, he, ite_self]

/-- The posted write of a slow-domain block that lands. -/
theorem landed_shows {base : Nat} {busy : Fld} (hin : postedAt base busy.key = true) {d : Dev} (hwf : KMap.wf (fun _ => none) d.rwp = true) :
    (put busy 0 (landPosted base d)).on busy = false ∧
    (∀ f : Fld, f.key ≠ busy.key → base ≤ f.key / 64 → f.key / 64 < base + 0x20000 →
      (put busy 0 (landPosted base d)).get f = (KMap.get (fun _ => none) d.rwp f.key).getD (d.get f) ∧
      KMap.get (fun _ => none) (put busy 0 (landPosted base d)).rwp f.key = none) ∧
    (∀ f : Fld, f.key / 64 < base ∨ base + 0x20000 ≤ f.key / 64 → (put busy 0 (landPosted base d)).get f = d.get f) := by
  refine ⟨?_, fun f hne hlo hhi => ?_, fun f hf => ?_⟩
  · rw [Dev.on, get_put_self, Nat.zero_mod]
    rfl
  · have hhit : postedAt base f.key = true := decide_eq_true ⟨hlo, hhi⟩
    exact ⟨by rw [get_put_ne hne, get_landPosted hwf, if_pos hhit], rwp_landPosted hhit d⟩
  · have hmiss : ¬ postedAt base f.key = true := fun h => absurd (of_decide_eq_true h) (by omega)
    rw [get_put_ne (f := busy) fun heq => hmiss (heq ▸ hin), get_landPosted hwf, if_neg hmiss]

/-- The boundary of the time base, the merge unit and the Carver. -/
theorem blockBoundary_unit {code base n : Nat} (h : (code, base, n) ∈ [(7, 0x100000, 0x100000), (14, 0x1200000, 0x100000), (15, 0x1300000, 0x500000)])
    (inst : Nat) {d : Dev} (hwaits : d.blockWaits = true) : blockBoundary code inst d = applyPend (inRange base n .block) d := by
  simp only [List.mem_cons, List.not_mem_nil, or_false, Prod.mk.injEq] at h
  rcases h with ⟨rfl, rfl, rfl⟩ | ⟨rfl, rfl, rfl⟩ | ⟨rfl, rfl, rfl⟩ <;> exact if_pos hwaits

/-- Settles O17: what lands at a boundary is what waited there. -/
theorem pendingValuesLand : Obligations.PendingValuesLand := by
  unfold Obligations.PendingValuesLand
  refine ⟨fun cal s hbusy hwf => ?_, fun code inst base n s hcode hwaits hwf => ?_, fun inst s hwaits => ?_⟩
  · refine completes_to (exec_rwpWriteLands ..) _ (if_pos hbusy) ?_
    cases cal
    · exact landed_shows (base := 0x80000) (busy := R.PWR.BUSY.BUSY) (by decide) hwf
    · exact landed_shows (base := 0xa0000) (busy := R.CAL.BUSY.BUSY) (by decide) hwf
  · exact completes_to (exec_blockBoundary ..) _ (blockBoundary_unit hcode inst.val hwaits) fun f => (get_after ..).trans (get_applyPend hwf f)
  · exact completes_to (exec_blockBoundary ..) (returnAll s.dev) (if_pos hwaits) fun k hk => rtHold_returnAll hk

end Sys2Proof.Proofs
end

section
/-!
Triplicated fields: a corrected one, a lost one, and its restoring.
-/
namespace Sys2Proof.Proofs
open Sys2Proof Sys2Proof.Machine

/-- What one element's turn establishes while an invariant of all turns holds, and no other turn undoes, holds in the end. -/
theorem each_establishes_inv {α : Type} {F : α → Dev → Dev} {I Q : Dev → Prop} {xs : List α} {x : α} (hx : x ∈ xs) {d : Dev} (hI : I d)
    (hinv : ∀ y d, I d → I (F y d)) (hset : ∀ d, I d → Q (F x d)) (hkeep : ∀ y ∈ xs, ∀ d, I d → Q d → Q (F y d)) : Q (each F xs d) := by
  have hall : ∀ ys : List α, (∀ y ∈ ys, ∀ d, I d → Q d → Q (F y d)) → ∀ d, I d → Q d → Q (each F ys d) := by
    intro ys
    induction ys with
    | nil => exact fun _ _ _ h => h
    | cons y ys ih => exact fun hk d hd h => ih (fun z hz => hk z (List.mem_cons_of_mem _ hz)) _ (hinv y d hd) (hk y List.mem_cons_self d hd h)
  induction xs generalizing d with
  | nil => exact absurd hx List.not_mem_nil
  | cons y ys ih =>
    rcases List.mem_cons.mp hx with rfl | hx
    · exact hall ys (fun z hz => hkeep z (List.mem_cons_of_mem _ hz)) _ (hinv x d hI) (hset d hI)
    · exact ih hx (hinv y d hI) (fun z hz => hkeep z (List.mem_cons_of_mem _ hz))

/-- A field that has been counted as corrected. -/
def tCorrected (a : Nat) (d : Dev) : Dev :=
  logRas 0x0601 0 1 a (rasPerf 1 1 (rasStat 0 1 (event 6 R.RAS.STATUS.SEQ [R.RAS.STATUS.T_CORR] d)))

theorem leaves_rasPerf (code n : Nat) (d : Dev) : Leaves [] d (rasPerf code n d) := leaves_perf _ (by unfold PerfBase; decide) code n d

theorem leaves_logRas (code inst sev data : Nat) (d : Dev) : Leaves [] d (logRas code inst sev data d) := leaves_logEntry ..

theorem get_logRas {f : Fld} (hb : bookKey f.key = false) (code inst sev data : Nat) (d : Dev) : (logRas code inst sev data d).get f = d.get f :=
  (leaves_logRas ..).get hb List.not_mem_nil

theorem get_rasPerf {f : Fld} (hb : bookKey f.key = false) (code n : Nat) (d : Dev) : (rasPerf code n d).get f = d.get f :=
  (leaves_rasPerf ..).get hb List.not_mem_nil

theorem tCorrected_shows (a : Nat) (d : Dev) :
    (tCorrected a d).on R.RAS.STATUS.T_CORR = true ∧ (tCorrected a d).get R.RAS.STATUS.SEQ = nextSeq (d.get R.RAS.STATUS.SEQ) % 256 ∧
    (tCorrected a d).get (R.RAS.STAT.COUNT 0) = (d.get (R.RAS.STAT.COUNT 0) + 1) % 2 ^ 32 ∧
    Leaves [R.RAS.STATUS.SEQ, R.RAS.STATUS.T_CORR, R.RAS.STAT.COUNT 0] d (tCorrected a d) := by
  unfold tCorrected rasStat inc
  refine ⟨?_, ?_, ?_, ?_⟩
  · rw [Dev.on, get_logRas (by decide), get_rasPerf (by decide), get_put_ne (by decide), get_event_flag (by decide) (by decide) (by decide)]
    rfl
  · rw [get_logRas (by decide), get_rasPerf (by decide), get_put_ne (by decide), get_event_seq (by decide) (by decide)]
    rfl
  · rw [get_logRas (by decide), get_rasPerf (by decide), get_put_self, get_event (by decide) (by decide) (by decide)]
    rfl
  · exact (((leaves_event ..).trans (leaves_put ..)).trans ((leaves_rasPerf ..).trans (leaves_logRas ..))).mono (by decide)

theorem each_tHit (h : THit) (m : Mem) (d : Dev) : each (fun h d => tHit h m d) [h] d = tHit h m d := rfl

theorem tHit_corrected (a : BitVec 25) (m : Mem) (d : Dev) : tHit { addr := a, lost := false } m d = tCorrected a.toNat d := by
  rw [tHit, if_neg Bool.false_ne_true, tCorrected]

/-- A field that has been counted as lost. -/
def tLostCounted (a : Nat) (d : Dev) : Dev :=
  logRas 0x0602 0 3 a (rasStat 1 1 (event 6 R.RAS.STATUS.SEQ [R.RAS.STATUS.T_LOST] d))

theorem tLostCounted_shows (a : Nat) (d : Dev) :
    (tLostCounted a d).on R.RAS.STATUS.T_LOST = true ∧ (tLostCounted a d).get R.RAS.STATUS.SEQ = nextSeq (d.get R.RAS.STATUS.SEQ) % 256 ∧
    (tLostCounted a d).get (R.RAS.STAT.COUNT 1) = (d.get (R.RAS.STAT.COUNT 1) + 1) % 2 ^ 32 ∧ (tLostCounted a d).ras = d.ras := by
  unfold tLostCounted rasStat inc
  refine ⟨?_, ?_, ?_, ?_⟩
  · rw [Dev.on, get_logRas (by decide), get_put_ne (by decide), get_event_flag (by decide) (by decide) (by decide)]
    rfl
  · rw [get_logRas (by decide), get_put_ne (by decide), get_event_seq (by decide) (by decide)]
    rfl
  · rw [get_logRas (by decide), get_put_self, get_event (by decide) (by decide) (by decide)]
    rfl
  · exact ras_of_leaves ((leaves_event ..).trans ((leaves_put ..).trans (leaves_logRas ..)))

/-- A register that waits for its restore. -/
def tListed (a : Nat) (d : Dev) : Dev := { d with ras := { d.ras with tLost := d.ras.tLost ++ [a] } }

theorem tHit_lost (a : BitVec 25) (m : Mem) (d : Dev) :
    tHit { addr := a, lost := true } m d = ownerFault a.toNat m (loseFields a.toNat (tListed a.toNat (tLostCounted a.toNat d))) := rfl

/-- Fields of a register that take free values. -/
theorem loseFields_reg {a base inst a' : Nat} {b : BlockDef} {r : RegDef} (h : siteOf a = .reg base b inst r a') (d : Dev) :
    (loseFields a d).ras = d.ras ∧ ∀ g : Fld, g.key / 64 ≠ a' → (loseFields a d).get g = d.get g := by
  rw [loseFields, h]
  dsimp only
  refine ⟨proj_each (·.ras) (fun f _ d => ?_) d, fun g hg => get_each (fun f hf d => ?_) d⟩
  · split <;> rfl
  · obtain ⟨hw, hw64⟩ := field_of_site h hf
    split
    · exact get_put_ne (f := fld a' f) (fun heq => hg (by rw [heq, fld_key_div hw64 hw])) _ _
    · rfl

theorem findBlock_of_site {a base inst a' : Nat} {b : BlockDef} {r : RegDef} (h : siteOf a = .reg base b inst r a') :
    ∃ off, findBlock blocks a = some (b, inst, off) := by
  unfold siteOf at h
  split at h
  · exact absurd h (by simp)
  · next b' inst' off hb =>
    dsimp only at h
    split at h
    · exact absurd h (by simp)
    · split at h
      · simp only [Site.reg.injEq] at h
        obtain ⟨-, rfl, rfl, -, -⟩ := h
        exact ⟨off, hb⟩
      · split at h <;> exact absurd h (by simp)

/-- A lost field outside the gouges and the lathes takes no unit with it. -/
theorem ownerFault_other {a base inst a' : Nat} {b : BlockDef} {r : RegDef} (h : siteOf a = .reg base b inst r a') (h13 : b.code ≠ 13)
    (h10 : b.code ≠ 10) (m : Mem) (d : Dev) : ownerFault a m d = d := by
  obtain ⟨off, hblk⟩ := findBlock_of_site h
  rw [ownerFault, hblk]
  dsimp only
  rw [if_neg h13, if_neg h10]

/-- The registers of the other units lie outside RAS. -/
theorem site_outside_ras {a base inst a' : Nat} {b : BlockDef} {r : RegDef} (h : siteOf a = .reg base b inst r a') (h6 : b.code ≠ 6) :
    a' < 0xc0000 ∨ 0x100000 ≤ a' := by
  obtain ⟨hmem, -, -, hlo, hle, hle', -, hhi⟩ := siteOf_reg h
  have hout : ∀ b ∈ blocks, b.code ≠ 6 → b.base + b.count * b.stride ≤ 0xc0000 ∨ 0x100000 ≤ b.base := by decide
  have := hout b hmem h6
  omega

/-- The restoring of a register from the words of the image. -/
theorem restoreFields_rw {a base inst w : Nat} {b : BlockDef} {r : RegDef} {f : FieldDef} (h : siteOf a = .reg base b inst r a) (hf : f ∈ r.fields)
    (hty : f.ty = .rw) (hword : f.lo + f.w ≤ 32) (huniq : ∀ g ∈ r.fields, g.lo = f.lo → g = f) {d : Dev}
    (himg : KMap.get (fun _ => none) d.imgWord a = some w) :
    (restoreFields a d).get (fld a f) = bits w f.lo f.w ∧ (restoreFields a d).ras = d.ras := by
  obtain ⟨hpos, -⟩ := field_of_site h hf
  rw [restoreFields, h]
  dsimp only
  refine ⟨?_, proj_each (·.ras) (fun g _ d => by split <;> rfl) d⟩
  have hself : ∀ e : Dev, e.imgWord = d.imgWord → (if f.ty = .rw ∨ f.ty = .rwb ∨ f.ty = .rwp then
      put (fld a f) (match KMap.get (fun _ => (none : Option Nat)) e.imgWord (a + 4 * (f.lo / 32)) with
        | some w => bits w (f.lo % 32) f.w
        | none => f.reset) e else e).get (fld a f) = bits w f.lo f.w := by
    intro e he
    rw [if_pos (.inl hty), get_put_self, he, Nat.div_eq_of_lt (by omega), Nat.mul_zero, Nat.add_zero, himg, show f.lo % 32 = f.lo by omega]
    exact Nat.mod_mod _ _
  refine each_establishes_inv (I := fun e => e.imgWord = d.imgWord) (Q := fun e => e.get (fld a f) = bits w f.lo f.w) hf rfl
    (fun g e he => ?_) hself (fun g hg e he hq => ?_)
  · split
    · exact he
    · exact he
  · by_cases heq : g.lo = f.lo
    · rw [huniq g hg heq]
      exact hself e he
    · split
      · exact (get_put_ne (fld_key_ne (Ne.symm heq)) ..).trans hq
      · exact hq

/-- Settles O18: a corrected field, a lost one, and the restoring. -/
theorem triplicatedFieldsScrubAndRestore : Obligations.TriplicatedFieldsScrubAndRestore := by
  unfold Obligations.TriplicatedFieldsScrubAndRestore
  refine ⟨fun a s => ?corrected, fun a s base inst b r a' hsite hcode => ?lost, fun s => ?none,
    fun a rest s base inst b r f w hcores hlost hsite hf hty hword huniq himg => ?restore⟩
  case corrected =>
    refine completes_to (exec_tFieldScrub ..) (tCorrected a.toNat s.dev) ((each_tHit ..).trans (tHit_corrected a s.mem s.dev)) ?_
    obtain ⟨hflag, hseq, hcount, hl⟩ := tCorrected_shows a.toNat s.dev
    generalize tCorrected a.toNat s.dev = e at hflag hseq hcount hl ⊢
    exact ⟨hflag, hseq, hcount, frame_of_leaves hl s⟩
  case lost =>
    simp only [List.mem_cons, List.not_mem_nil, or_false, not_or] at hcode
    obtain ⟨h6, h10, h13⟩ := hcode
    have hout := site_outside_ras hsite h6
    obtain ⟨hflag, hseq, hcount, hras⟩ := tLostCounted_shows a.toNat s.dev
    refine completes_to (exec_tFieldScrub ..) (loseFields a.toNat (tListed a.toNat (tLostCounted a.toNat s.dev)))
      ((each_tHit ..).trans ((tHit_lost a s.mem s.dev).trans (ownerFault_other hsite h13 h10 ..))) ?_
    generalize tLostCounted a.toNat s.dev = d at hflag hseq hcount hras ⊢
    obtain ⟨hras', hget⟩ := loseFields_reg hsite (tListed a.toNat d)
    have hkeep : ∀ g : Fld, 0xc0000 ≤ g.key / 64 → g.key / 64 < 0x100000 → _ := fun g hlo hhi => hget g (by omega)
    refine ⟨?_, ?_, ?_, ?_⟩
    · exact (congrArg (· == 1) (hkeep R.RAS.STATUS.T_LOST (by decide) (by decide))).trans hflag
    · exact (hkeep R.RAS.STATUS.SEQ (by decide) (by decide)).trans hseq
    · exact (hkeep (R.RAS.STAT.COUNT 1) (by decide) (by decide)).trans hcount
    · rw [after_ras, hras', tListed, hras]
  case none => exact completes_to (exec_tFieldScrub ..) s.dev rfl rfl
  case restore =>
    refine completes_to (exec_tFieldRestore ..) (restoreFields a { s.dev with ras := { s.dev.ras with tLost := rest } }) ?_ ?_
    · simp only [hcores, hlost, Bool.false_eq_true, if_false]
    · obtain ⟨hget, hras⟩ := restoreFields_rw hsite hf hty hword huniq (d := { s.dev with ras := { s.dev.ras with tLost := rest } }) himg
      exact ⟨by rw [after_ras, hras], (get_after ..).trans hget⟩

end Sys2Proof.Proofs
end

section
/-!
The collection of the performance counters.
-/
namespace Sys2Proof.Proofs
open Sys2Proof Sys2Proof.Machine

/-! ## What time leaves: also the sizes of regions, whatever their number -/

section
variable {f : Fld} (h : f.key % 64 = 32)
include h

theorem key_ne_of_half {g : Fld} (hg : g.key % 64 ≠ 32) : f.key ≠ g.key := fun heq => hg (heq ▸ h)

theorem get_raise_half (e : Nat) (d : Dev) : (raise e d).get f = d.get f := by
  unfold raise inc
  dsimp only
  repeat' split
  · exact get_put_ne (key_ne_of_half h (by decide)) ..
  · rfl
  · rfl

theorem get_perfOne_half {blk base : Nat} (code k n : Nat) (d : Dev) : (perfOne blk base code k n d).get f = d.get f := by
  have hcnt : f.key ≠ (R.PERF.CNT.COUNT base n).key := key_ne_of_half h (by simp only [Fld.key, R.PERF.CNT.COUNT]; omega)
  have hovf : f.key ≠ (R.PERF.OVF.CNT_OVF base).key := key_ne_of_half h (by simp only [Fld.key, R.PERF.OVF.CNT_OVF]; omega)
  have hseq : f.key ≠ (R.PERF.OVF.SEQ base).key := key_ne_of_half h (by simp only [Fld.key, R.PERF.OVF.SEQ]; omega)
  unfold perfOne
  dsimp only
  split
  · split
    · rw [get_put_ne hcnt]
    · rw [get_put_ne hovf, event, get_raise_half h, List.map_nil, puts, get_put_ne hseq, get_setPerf, get_put_ne hcnt]
  · rfl

theorem get_logEntry_half (code inst sev flags data : Nat) (d : Dev) : (logEntry code inst sev flags data d).get f = d.get f := by
  have hperf : ∀ c n d, (mgtPerf c n d).get f = d.get f := fun c n d => by
    unfold mgtPerf perf
    split
    · rfl
    · exact get_each (fun n _ d => get_perfOne_half h ..) d
  have hfresh : (logFresh code inst sev flags data d).get f = d.get f := by
    unfold logFresh inc
    rw [hperf, get_put_ne (key_ne_of_half h (by decide)), get_put_ne (key_ne_of_half h (by decide))]
    rfl
  unfold logEntry
  split
  · exact hfresh
  · dsimp only
    split
    · rw [hperf]
      rfl
    · exact hfresh

theorem get_dtSteps_half (n : Nat) (d : Dev) : (dtSteps n d).get f = d.get f := by
  unfold dtSteps
  dsimp only
  split
  · rfl
  · exact (get_logEntry_half h ..).trans rfl

end

/-! ## Who holds a resource -/

/-- A place at an offset below the counters of its 4 KB, in the upper bits of its word, is none of the books. -/
theorem bookKey_low {a lo w : Nat} (ha : a % 0x1000 < 0xf20) (hlo : 0 < lo) (hlo' : lo < 64) : bookKey (Fld.key ⟨a, lo, w⟩) = false := by
  have hdiv : (a * 64 + lo) / 64 = a := by omega
  have hlow : ¬ 0xf20 ≤ a % 0x1000 := by omega
  simp only [bookKey, Fld.key, hdiv, hlow, decide_false, Bool.false_and, Bool.false_or, R.HST.STAT.COUNT, R.MGT.STAT.COUNT, R.MGT.LOG_WR.LSEQ,
    List.contains_eq_any_beq, List.any_cons, List.any_nil, Bool.or_eq_false_iff, beq_eq_false_iff_ne]
  refine ⟨?_, ?_, ?_, trivial⟩ <;> omega

section
variable {d e : Dev} (hown : ∀ n < 256, ∀ lo w, 0 < lo → lo < 64 → e.get ⟨0x1000 + 0x4 * n, lo, w⟩ = d.get ⟨0x1000 + 0x4 * n, lo, w⟩) (hrt : e.rtHold = d.rtHold)
include hown

theorem ownEntries_congr (ty idx : Nat) : e.ownEntries ty idx = d.ownEntries ty idx := by
  refine List.filter_congr fun n hn => ?_
  have hn := hown n (List.mem_range.mp hn)
  simp only [R.TOP.OWN.TYPE, R.TOP.OWN.INDEX, R.TOP.OWN.OWNER, hn 28 4 (by decide) (by decide), hn 16 12 (by decide) (by decide), hn 8 6 (by decide) (by decide)]
  rfl

include hrt

theorem holder_congr (ty idx : Nat) : e.holder ty idx = d.holder ty idx := by
  unfold Dev.holder
  rw [hrt, ownEntries_congr hown]
  have hmem : ∀ n ∈ d.ownEntries ty idx, n < 256 := fun n hn => List.mem_range.mp (List.mem_filter.mp hn).1
  have hfind : (d.ownEntries ty idx).find? (fun n => e.on (R.TOP.OWN.HELD n)) = (d.ownEntries ty idx).find? (fun n => d.on (R.TOP.OWN.HELD n)) :=
    List.find?_congr fun n hn => congrArg (· == 1) (hown n (hmem n hn) 7 1 (by decide) (by decide))
  rw [hfind]
  split
  · rfl
  · exact Option.map_congr fun n hn => hown n (hmem n (List.mem_of_find?_eq_some hn)) 8 6 (by decide) (by decide)

theorem mayUse_congr (ty idx owner : Nat) : e.mayUse ty idx owner = d.mayUse ty idx owner := by
  rw [Dev.mayUse, holder_congr hown hrt]
  rfl

end

section
variable {d e : Dev} (hget : ∀ f, bookKey f.key = false → e.get f = d.get f) (hrt : e.rtHold = d.rtHold)
include hget

theorem get_own_of_get {n : Nat} (_ : n < 256) (lo w : Nat) (hlo : 0 < lo) (hlo' : lo < 64) :
    e.get ⟨0x1000 + 0x4 * n, lo, w⟩ = d.get ⟨0x1000 + 0x4 * n, lo, w⟩ := hget _ (bookKey_low (by omega) hlo hlo')

theorem ownEntries_of_get (ty idx : Nat) : e.ownEntries ty idx = d.ownEntries ty idx := ownEntries_congr (fun _ hn => get_own_of_get hget hn) ty idx

include hrt

theorem holder_of_get (ty idx : Nat) : e.holder ty idx = d.holder ty idx := holder_congr (fun _ hn => get_own_of_get hget hn) hrt ty idx

theorem mayUse_of_get (ty idx owner : Nat) : e.mayUse ty idx owner = d.mayUse ty idx owner := mayUse_congr (fun _ hn => get_own_of_get hget hn) hrt ty idx owner

end

/-! ## Users that yield -/

/-- The device with other users that yield. -/
def withYielding (x : KMap Bool) (d : Dev) : Dev := { d with yielding := x }

theorem setsPart_withYielding : SetsPart withYielding := fun _ _ => ⟨rfl, rfl⟩

theorem upto_hold {flag : Fld} (x : KMap Bool) (d : Dev) :
    Upto withYielding [R.TOP.DRAM_YIELD.SEQ, flag] d (event 0 R.TOP.DRAM_YIELD.SEQ [flag] (withYielding x d)) :=
  (upto_of_eq (d := d) (e := withYielding x d) fun _ => rfl).trans
    (upto_of_leaves setsPart_withYielding (leaves_event 0 R.TOP.DRAM_YIELD.SEQ [flag] (withYielding x d)))

/-- What a hold of host image traffic shows. -/
theorem holdUser_three (d : Dev) : holdUser 3 d = event 0 R.TOP.DRAM_YIELD.SEQ [R.TOP.DRAM_YIELD.HOST_IMG] (withYielding (setFlag 3 true d.yielding) d) := rfl

theorem holdUser_image (d : Dev) :
    Upto withYielding [R.TOP.DRAM_YIELD.SEQ, R.TOP.DRAM_YIELD.HOST_IMG] d (holdUser 3 d) ∧
    Raised R.TOP.DRAM_YIELD.SEQ [R.TOP.DRAM_YIELD.HOST_IMG] d (holdUser 3 d) :=
  holdUser_three d ▸ ⟨upto_hold .., raised_event (by decide) (by decide) (by decide) rfl⟩

theorem prf_of_yield {fs : List Fld} {d e : Dev} (h : Upto withYielding fs d e) : e.prf = d.prf :=
  prf_of_leaves (d := withYielding [] d) (e := withYielding [] e) (h.leaves [])

/-! ## The ring of the dumps -/

theorem rtHold_advance (n : Nat) (d : Dev) : (advance n d).rtHold = d.rtHold := rfl

/-- Time passes no region by: where the reader has no ring it has none later. -/
theorem dumpRing_dtSteps {n : Nat} {d : Dev} (h : d.dumpRing = none) : (dtSteps n d).dumpRing = none := by
  have hl := leaves_dtSteps n d
  have hget : ∀ f, bookKey f.key = false → (dtSteps n d).get f = d.get f := fun f hb => hl.get hb List.not_mem_nil
  have hrgn := hget R.PRF.RING.RGN (by decide)
  have hsize : ((dtSteps n d).region (d.get R.PRF.RING.RGN)).2 = (d.region (d.get R.PRF.RING.RGN)).2 :=
    congrArg (· * 2 ^ 20) (get_dtSteps_half (by simp only [Fld.key, R.DDR.RGN_ACT.SIZE_MIB]; omega) n d)
  unfold Dev.dumpRing at h ⊢
  dsimp only at h ⊢
  rw [hrgn, hsize, mayUse_of_get hget ((rtHold_of_leaves hl).trans (rtHold_advance n d))]
  split at h
  · exact absurd h (by simp)
  · next hno => rw [if_neg hno]

/-- The counters that a boundary starts anew lie in the books. -/
theorem newInterval_shows {base : Nat} (hbase : base % 0x1000 = 0) (code inst : Nat) (d : Dev) :
    (newInterval code inst base d).prf = d.prf ∧ (newInterval code inst base d).get R.PRF.STATUS.DENIED = d.get R.PRF.STATUS.DENIED := by
  unfold newInterval
  dsimp only
  refine ⟨proj_each (F := fun n => put (R.PERF.CNT.COUNT base n) 0) (·.prf) (fun _ _ _ => rfl) d, get_each (fun n hn d => ?_) d⟩
  have hn := List.mem_range.mp (List.mem_filter.mp hn).1
  refine get_put_ne (fun heq => ?_) ..
  have hkey := congrArg (· / 64) heq
  simp only [Fld.key, R.PRF.STATUS.DENIED, R.PERF.CNT.COUNT] at hkey
  omega

theorem on_after (s : State) (d : Dev) (f : Fld) : (s.after d).dev.on f = d.on f := rfl

/-! ## A boundary of the collection -/

/-- The time of the next boundary is set. -/
def noteNext (t : Nat) (d : Dev) : Dev :=
  { d with prf := { d.prf with nextDt := some (dtAddNs t (clamp 1000 1000000000 (d.get R.PRF.PERIOD.NS) : Nat)) } }

theorem get_noteNext (t : Nat) (d : Dev) (f : Fld) : (noteNext t d).get f = d.get f := rfl

theorem prf_noteNext (t : Nat) (d : Dev) : (noteNext t d).prf =
    { d.prf with nextDt := some (dtAddNs t (clamp 1000 1000000000 (d.get R.PRF.PERIOD.NS) : Nat)) } := rfl

theorem prf_dtSteps (n : Nat) (d : Dev) : (dtSteps n d).prf = d.prf := (prf_of_leaves (leaves_dtSteps n d)).trans rfl

theorem get_dtSteps {f : Fld} (hb : bookKey f.key = false) (n : Nat) (d : Dev) : (dtSteps n d).get f = d.get f :=
  ((leaves_dtSteps n d).get hb List.not_mem_nil).trans rfl

theorem dumpRing_noteNext (t : Nat) (d : Dev) : (noteNext t d).dumpRing = d.dumpRing := rfl

section
variable {d : Dev} (hq : d.tim.coming = []) (t : Nat)
include hq

/-- The collection at a boundary that time has reached. -/
theorem prf_boundary : (noteNext t (reach t d)).prf =
    { d.prf with nextDt := some (dtAddNs t (clamp 1000 1000000000 (d.get R.PRF.PERIOD.NS) : Nat)) } := by
  rw [reach_quiet hq, prf_noteNext, prf_dtSteps, get_dtSteps (by decide)]

theorem get_boundary {f : Fld} (hb : bookKey f.key = false) : (noteNext t (reach t d)).get f = d.get f := by
  rw [get_noteNext, reach_quiet hq, get_dtSteps hb]

theorem dumpRing_boundary (h : d.dumpRing = none) : (noteNext t (reach t d)).dumpRing = none := by
  rw [dumpRing_noteNext, reach_quiet hq]
  exact dumpRing_dtSteps h

end

/-- Where the registers of a unit begin. -/
def instanceBase (x : Nat × Nat) : Nat := (blockOf x.1).elim 0 (fun b => b.base + b.stride * x.2)

theorem instanceBase_aligned (x : Nat × Nat) : instanceBase x % 0x1000 = 0 := by
  unfold instanceBase blockOf
  cases hb : blocks.find? (fun b => b.code == x.1) with
  | none => rfl
  | some b =>
    have h := instBase_aligned (List.mem_of_find?_eq_some hb) x.2
    rw [instBase, Nat.mul_comm] at h
    exact h

/-- The entries of a boundary that is taken, and what starts anew. -/
def latchDump (t period : Nat) (set : List (Nat × Nat)) (d : Dev) : Dev :=
  each (fun x d => newInterval x.1 x.2 (instanceBase x) d) allInstances
    (takeFree { d with prf := { d.prf with
      busy := true, latched := set.map (fun x => dumpEntry x.1 x.2 (instanceBase x) d), latchDt := t, latchEpoch := d.tim.epoch,
      latchSkipped := d.prf.skipped, latchPeriod := period, skipped := 0 } })

/-- The ring that the reader is denied. -/
def ringDenied (d : Dev) : Dev := event 2 R.PRF.STATUS.SEQ [R.PRF.STATUS.DENIED] { d with prf := { d.prf with denied := true } }

theorem ringAnswer_denied {d : Dev} (h : d.dumpRing = none) (n : Nat) : ringAnswer n d = (true, ringDenied d) := by
  generalize hF : ringAnswer = F
  delta ringAnswer at hF
  subst hF
  beta_reduce
  rw [h, ringDenied]

theorem collect_skips {t : Nat} {d : Dev} (hnext : d.prf.nextDt = some t) (hbusy : (noteNext t (reach t d)).prf.busy = true) :
    collect d = skipBoundary (noteNext t (reach t d)) := by
  generalize hF : collect = F
  delta collect at hF
  subst hF
  beta_reduce
  rw [hnext]
  exact if_pos hbusy

theorem noteNext_eq (t : Nat) (d : Dev) :
    { d with prf := { d.prf with nextDt := some (dtAddNs t (clamp 1000 1000000000 (d.get R.PRF.PERIOD.NS) : Nat)) } } = noteNext t d := rfl

theorem collect_denied {t : Nat} {d : Dev} (hnext : d.prf.nextDt = some t) (hbusy : (noteNext t (reach t d)).prf.busy = false)
    (hring : (noteNext t (reach t d)).dumpRing = none) :
    collect d = latchDump t (clamp 1000 1000000000 ((reach t d).get R.PRF.PERIOD.NS)) (noteNext t (reach t d)).dumpSet
      (ringDenied (noteNext t (reach t d))) := by
  generalize hF : collect = F
  delta collect at hF
  subst hF
  beta_reduce
  rw [hnext]
  refine (if_neg fun h => Bool.false_ne_true (hbusy.symm.trans h)).trans ?_
  rw [noteNext_eq]
  have hans := ringAnswer_denied hring
  generalize ringAnswer = F at hans ⊢
  simp only [hans]
  generalize ringDenied (noteNext t (reach t d)) = e
  rfl

/-- What a boundary latches stands until the dump is complete. -/
theorem latchDump_shows (t period : Nat) (set : List (Nat × Nat)) (d : Dev) :
    (latchDump t period set d).prf.busy = true ∧ (latchDump t period set d).prf.latchDt = t ∧
    (latchDump t period set d).prf.latched.map (fun e => (e.block, e.inst)) = set ∧
    (latchDump t period set d).get R.PRF.STATUS.DENIED = d.get R.PRF.STATUS.DENIED := by
  have hprf : ∀ e, (each (fun x d => newInterval x.1 x.2 (instanceBase x) d) allInstances e).prf = e.prf :=
    proj_each (·.prf) (fun x _ d => (newInterval_shows (instanceBase_aligned x) ..).1)
  unfold latchDump
  rw [hprf, get_each (fun x _ d => (newInterval_shows (instanceBase_aligned x) ..).2)]
  refine ⟨rfl, rfl, ?_, rfl⟩
  exact (List.map_map ..).trans (List.map_id set)

theorem skipBoundary_shows (d : Dev) :
    (skipBoundary d).get R.PRF.SKIP_CNT.COUNT = (d.get R.PRF.SKIP_CNT.COUNT + 1) % 2 ^ R.PRF.SKIP_CNT.COUNT.w ∧
    (skipBoundary d).on R.PRF.STATUS.SKIP = true ∧ (skipBoundary d).prf = { d.prf with skipped := d.prf.skipped + 1 } := by
  unfold skipBoundary inc
  refine ⟨?_, ?_, ?_⟩
  · rw [get_put_self, get_event (by decide) (by decide) (by decide)]
    rfl
  · rw [Dev.on, get_put_ne (by decide), get_event_flag (by decide) (by decide) (by decide)]
    rfl
  · rw [put_prf, prf_of_leaves (leaves_event ..)]

/-! ## The end of a dump -/

theorem get_dramWrite (a : Nat) (bs : List Byte) (d : Dev) (f : Fld) : (dramWrite a bs d).get f = d.get f := by
  unfold dramWrite
  split
  · rfl
  · exact get_each (F := fun p : Nat × Nat => post (.write (d.physKey p.1) ((bs.drop (p.1 - a)).take p.2))) (fun _ _ _ => rfl) d

theorem prf_dramWrite (a : Nat) (bs : List Byte) (d : Dev) : (dramWrite a bs d).prf = d.prf := by
  unfold dramWrite
  split
  · rfl
  · exact proj_each (F := fun p : Nat × Nat => post (.write (d.physKey p.1) ((bs.drop (p.1 - a)).take p.2))) (·.prf) (fun _ _ _ => rfl) d

theorem prf_meterUser (u n : Nat) (d : Dev) : (meterUser u n d).prf = d.prf := rfl

theorem dumpDone_shows {d : Dev} (hbusy : d.prf.busy = true) (hgo : (!d.prf.denied && d.yields 3) = false) :
    (dumpDone d).get R.PRF.DUMP_SEQ.SEQ = (d.get R.PRF.DUMP_SEQ.SEQ + 1) % 2 ^ 32 ∧ (dumpDone d).prf.busy = false ∧
    (dumpDone d).prf.lastDump = d.prf.latched := by
  generalize hF : dumpDone = F
  delta dumpDone at hF
  subst hF
  beta_reduce
  rw [if_neg (by rw [hbusy]; decide), if_neg (by rw [hgo]; decide)]
  extract_lets seqNo n mirrored wr
  generalize (if d.prf.denied then none else d.dumpRing) = o
  split
  next place' e heq =>
    have he : e.prf = d.prf := by
      cases o with
      | none => rw [← (Prod.mk.inj heq).2]
      | some x =>
        rw [← (Prod.mk.inj heq).2, put_prf, prf_meterUser, prf_dramWrite]
        split
        · rw [prf_meterUser, prf_dramWrite]
        · rfl
    exact ⟨(get_put_self ..).trans (Nat.mod_mod ..), rfl, congrArg PrfS.latched he⟩

/-- Settles O20: a boundary, and the completion of a dump. -/
theorem collectionTakesAndDumps : Obligations.CollectionTakesAndDumps := by
  unfold Obligations.CollectionTakesAndDumps
  refine ⟨fun t0 s hq hnext hbusy => ?skip, fun t0 s hq hnext hbusy hring => ?take, fun s hbusy hdenied hyields => ?held, fun s hbusy hgo => ?done⟩
  case skip =>
    have hprf := prf_boundary hq t0
    have hskip := collect_skips hnext (by rw [hprf]; exact hbusy)
    refine completes_to (exec_collectionBoundary s) _ hskip ?_
    have hcount := get_boundary hq t0 (f := R.PRF.SKIP_CNT.COUNT) (by decide)
    generalize noteNext t0 (reach t0 s.dev) = e at hprf hcount ⊢
    obtain ⟨hskips, hflag, hafter⟩ := skipBoundary_shows e
    rw [hcount] at hskips
    rw [hprf] at hafter
    exact ⟨(get_after ..).trans hskips, (on_after ..).trans hflag, by rw [after_prf, hafter], by rw [after_prf, hafter]⟩
  case take =>
    have hprf := prf_boundary hq t0
    have hset : (noteNext t0 (reach t0 s.dev)).dumpSet = s.dev.dumpSet := by
      unfold Dev.dumpSet
      rw [get_boundary hq t0 (by decide)]
    refine completes_to (exec_collectionBoundary s) _ (collect_denied hnext (by rw [hprf]; exact hbusy) (dumpRing_boundary hq t0 hring)) ?_
    rw [hset]
    generalize noteNext t0 (reach t0 s.dev) = e
    generalize clamp 1000 1000000000 ((reach t0 s.dev).get R.PRF.PERIOD.NS) = period
    obtain ⟨hdump, ht, hentries, hden⟩ := latchDump_shows t0 period s.dev.dumpSet (ringDenied e)
    have hflag : (ringDenied e).get R.PRF.STATUS.DENIED = 1 := get_event_flag (by decide) (by decide) (by decide) ..
    refine ⟨?_, ?_, ?_, ?_⟩
    · rw [after_prf, hdump]
    · rw [after_prf, ht]
    · rw [after_prf, hentries]
    · rw [on_after, Dev.on, hden, hflag]
      rfl
  case held =>
    refine completes_to (exec_dumpComplete s) (holdUser 3 s.dev) ?_ ?_
    · generalize hF : dumpDone = F
      delta dumpDone at hF
      subst hF
      beta_reduce
      rw [if_neg (by rw [hbusy]; decide), if_pos (by rw [hdenied, hyields]; rfl)]
    · obtain ⟨hup, hraised⟩ := holdUser_image s.dev
      refine ⟨?_, raised_after hraised s, frame_of_upto hup s (holdUser 3 s.dev).yielding rfl⟩
      rw [after_prf, prf_of_yield hup]
      exact hbusy
  case done =>
    obtain ⟨hseq, hdump, hlast⟩ := dumpDone_shows hbusy hgo
    refine completes_to (exec_dumpComplete s) (dumpDone s.dev) rfl ?_
    exact ⟨(get_after ..).trans hseq, by rw [after_prf, hdump], by rw [after_prf, hlast]⟩

end Sys2Proof.Proofs
end

section
/-!
What the receive path of a lane changes: its lane, its registers, and nothing of the other uplink lanes.
-/
namespace Sys2Proof.Proofs
open Sys2Proof Sys2Proof.Machine

/-! ## Steps of one lane -/

/-- The device with other lanes. -/
def withLane (x : KMap LaneS) (d : Dev) : Dev := { d with lane := x }

theorem setsPart_withLane : SetsPart withLane := fun _ _ => ⟨rfl, rfl⟩

/-- From `d` to `e` only these registers, the books and the lanes have changed, and of the other uplink lanes none. -/
structure LaneStep (l : Nat) (fs : List Fld) (d e : Dev) : Prop where
  upto : Upto withLane fs d e
  others : ∀ k, k < 48 → k ≠ l → e.laneS k = d.laneS k

section
variable {l : Nat} {fs gs : List Fld} {d e k : Dev}

theorem LaneStep.trans (h : LaneStep l fs d e) (h' : LaneStep l gs e g) : LaneStep l (fs ++ gs) d g :=
  ⟨h.upto.trans h'.upto, fun k hk hne => (h'.others k hk hne).trans (h.others k hk hne)⟩

theorem LaneStep.mono (h : LaneStep l fs d e) (hs : ∀ f ∈ fs, f.key ∈ gs.map Fld.key) : LaneStep l gs d e := ⟨h.upto.mono hs, h.others⟩

theorem LaneStep.append (h : LaneStep l fs d e) (h' : LaneStep l fs e g) : LaneStep l fs d g :=
  (h.trans h').mono fun f hf => List.mem_map_of_mem ((List.mem_append.mp hf).elim id id)

theorem laneStep_refl (l : Nat) (fs : List Fld) (d : Dev) : LaneStep l fs d d :=
  ⟨(upto_of_eq fun _ => rfl : Upto withLane [] d d).mono (by simp), fun _ _ _ => rfl⟩

theorem laneStep_setLane (l : Nat) (x : LaneS) (d : Dev) : LaneStep l [] d (setLane l x d) :=
  ⟨upto_of_eq fun _ => rfl, fun k _ hne => laneS_setLane_ne l x d k hne⟩

theorem laneS_of_leaves (h : Leaves fs d e) (k : Nat) : e.laneS k = d.laneS k := by
  rw [Dev.laneS, lane_of_leaves h]
  rfl

theorem laneStep_of_leaves (h : Leaves fs d e) : LaneStep l fs d e :=
  ⟨upto_of_leaves setsPart_withLane h, fun k _ _ => laneS_of_leaves h k⟩

theorem laneStep_put (l : Nat) (f : Fld) (v : Nat) (d : Dev) : LaneStep l [f] d (put f v d) := laneStep_of_leaves (leaves_put ..)

theorem laneStep_event (l code : Nat) (seq : Fld) (flags : List Fld) (d : Dev) : LaneStep l (seq :: flags) d (event code seq flags d) :=
  laneStep_of_leaves (leaves_event ..)

theorem laneStep_lnePerf {l : Nat} (hl : l < 60) (code n : Nat) (d : Dev) : LaneStep l [] d (lnePerf l code n d) :=
  laneStep_of_leaves (leaves_lnePerf hl ..)

theorem laneStep_when (c : Bool) {F : Dev → Dev} (h : LaneStep l fs d (F d)) : LaneStep l fs d (when c F d) := by
  cases c with
  | true => exact h
  | false => exact laneStep_refl ..

theorem laneStep_ite {c : Prop} [Decidable c] {a b : Dev} (ha : LaneStep l fs d a) (hb : LaneStep l fs d b) : LaneStep l fs d (if c then a else b) := by
  split
  · exact ha
  · exact hb

theorem laneStep_each {α : Type} {F : α → Dev → Dev} (h : ∀ x d, LaneStep l fs d (F x d)) (xs : List α) (d : Dev) : LaneStep l fs d (each F xs d) := by
  induction xs generalizing d with
  | nil => exact laneStep_refl ..
  | cons x xs ih => exact (h x d).append (ih _)

theorem LaneStep.get (h : LaneStep l fs d e) {f : Fld} (hb : bookKey f.key = false) (hf : f.key ∉ fs.map Fld.key) : e.get f = d.get f :=
  (h.upto.leaves d.lane).get hb hf

theorem LaneStep.on (h : LaneStep l fs d e) {f : Fld} (hb : bookKey f.key = false) (hf : f.key ∉ fs.map Fld.key) : e.on f = d.on f :=
  congrArg (· == 1) (h.get hb hf)

theorem LaneStep.tim (h : LaneStep l fs d e) : e.tim = d.tim := tim_of_leaves (d := withLane [] d) (e := withLane [] e) (h.upto.leaves [])

theorem LaneStep.dt (h : LaneStep l fs d e) : e.dt = d.dt := by
  rw [Dev.dt, h.tim]
  rfl

theorem frame_lane (h : Upto withLane fs d e) (s : State) : Frame fs { d with lane := (s.after e).dev.lane } s (s.after e) :=
  frame_of_upto h s e.lane rfl

end

/-! ## The checkers of a lane -/

/-- A lane beside its pattern checkers. -/
def core (x : LaneS) : LaneS := { x with chkLock := false, chkRun := 0, chkWin := [], chkHist := 0, descr := 0, prbs := 0 }

/-- The registers of the pattern checkers. -/
def chkRegs (l : Nat) : List Fld :=
  [R.LNE.PAT_STATUS.SEQ l, R.LNE.PAT_STATUS.LOCK_LOST l, R.LNE.PAT_STATUS.LOCK l, R.LNE.PAT_ERR.COUNT l, R.LNE.PAT_BITS.COUNT l]

/-- A step of the pattern checkers alone. -/
structure Checks (l : Nat) (d e : Dev) : Prop where
  step : LaneStep l (chkRegs l) d e
  lane : core (e.laneS l) = core (d.laneS l)

section
variable {l : Nat} {d e g : Dev}

theorem Checks.trans (h : Checks l d e) (h' : Checks l e g) : Checks l d g := ⟨h.step.append h'.step, h'.lane.trans h.lane⟩

theorem checks_refl (l : Nat) (d : Dev) : Checks l d d := ⟨laneStep_refl .., rfl⟩

theorem checks_setLane {x : LaneS} (h : core x = core (d.laneS l)) : Checks l d (setLane l x d) :=
  ⟨(laneStep_setLane l x d).mono (by simp), by rw [laneS_setLane, h]⟩

theorem checks_of_leaves {fs : List Fld} (h : Leaves fs d e) (hs : ∀ f ∈ fs, f.key ∈ (chkRegs l).map Fld.key) : Checks l d e :=
  ⟨(laneStep_of_leaves h).mono hs, by rw [laneS_of_leaves h]⟩

theorem checks_put {f : Fld} (hf : f ∈ chkRegs l) (v : Nat) (d : Dev) : Checks l d (put f v d) :=
  checks_of_leaves (leaves_put ..) fun g hg => List.mem_map_of_mem (List.mem_singleton.mp hg ▸ hf)

theorem checks_inc {f : Fld} (hf : f ∈ chkRegs l) (n : Nat) (d : Dev) : Checks l d (inc f n d) := checks_put hf ..

theorem checks_when (c : Bool) {F : Dev → Dev} (h : Checks l d (F d)) : Checks l d (when c F d) := by
  cases c with
  | true => exact h
  | false => exact checks_refl ..

theorem checks_each {α : Type} {F : α → Dev → Dev} (h : ∀ x d, Checks l d (F x d)) (xs : List α) (d : Dev) : Checks l d (each F xs d) := by
  induction xs generalizing d with
  | nil => exact checks_refl ..
  | cons x xs ih => exact (h x d).trans (ih _)

end

theorem checks_patLock (l : Nat) (d : Dev) : Checks l d (patLock l d) := checks_put (by simp [chkRegs]) _ d

theorem checks_feedPattern (l : Nat) (err : Bool) (d : Dev) : Checks l d (feedPattern l err d) := by
  unfold feedPattern
  dsimp only
  split
  · exact checks_refl ..
  split
  · have hcount := (checks_inc (l := l) (f := R.LNE.PAT_BITS.COUNT l) (by simp [chkRegs]) 1 d).trans
      (checks_when err (checks_inc (f := R.LNE.PAT_ERR.COUNT l) (by simp [chkRegs]) 1 _))
    split
    · refine ((hcount.trans (checks_setLane ?_)).trans (checks_of_leaves (leaves_event ..) (by simp [chkRegs, seqAnd]))).trans (checks_patLock ..)
      exact hcount.lane.symm
    · exact hcount.trans (checks_setLane hcount.lane.symm)
  · refine Checks.trans ?_ (checks_patLock ..)
    exact checks_setLane rfl

theorem checks_feedBit (l : Nat) (x : Bool) (d : Dev) : Checks l d (feedBit l x d) := by
  unfold feedBit
  split
  · exact checks_refl ..
  · dsimp only
    refine Checks.trans ?_ (checks_feedPattern ..)
    exact checks_setLane rfl

theorem checks_pcsCheck (l : Nat) (b : Blk) (d : Dev) : Checks l d (pcsCheck l b d) := by
  unfold pcsCheck
  dsimp only
  split
  · exact checks_refl ..
  split
  · refine Checks.trans ?_ ((checks_inc (by simp [chkRegs]) 1 _).trans (checks_when _ (checks_inc (by simp [chkRegs]) 1 _)))
    exact checks_setLane rfl
  · exact checks_setLane rfl

end Sys2Proof.Proofs
end

section
/-!
Lanes come up: signal, clock, block lock, markers, and their loss.
-/
namespace Sys2Proof.Proofs
open Sys2Proof Sys2Proof.Machine

theorem each_append {α : Type} (F : α → Dev → Dev) (xs ys : List α) (d : Dev) : each F (xs ++ ys) d = each F ys (each F xs d) := by
  induction xs generalizing d with
  | nil => rfl
  | cons x xs ih => exact ih (F x d)

theorem counted_trans {f : Fld} {m n : Nat} {d e g : Dev} (h : Counted f m d e) (h' : Counted f n e g) : Counted f (m + n) d g := by
  unfold Counted at *
  rw [h', h, Nat.mod_add_mod, Nat.add_assoc]

/-- A register of a lane below its counters is none of the books. -/
theorem bookKey_lane {a lo w : Nat} (ha : 0x200000 ≤ a ∧ a < 0x300000 ∧ a % 0x1000 < 0xf20) (hlo : lo < 64) : bookKey (Fld.key ⟨a, lo, w⟩) = false := by
  have hdiv : (a * 64 + lo) / 64 = a := by omega
  have hlow : ¬ 0xf20 ≤ a % 0x1000 := by omega
  simp only [bookKey, Fld.key, hdiv, hlow, decide_false, Bool.false_and, Bool.false_or, R.HST.STAT.COUNT, R.MGT.STAT.COUNT, R.MGT.LOG_WR.LSEQ,
    List.contains_eq_any_beq, List.any_cons, List.any_nil, Bool.or_eq_false_iff, beq_eq_false_iff_ne]
  refine ⟨?_, ?_, ?_, trivial⟩ <;> omega

theorem book_lne {o l lo w : Nat} (hl : l < 60) (ho : o < 0xf20) (hlo : lo < 64) :
    bookKey (Fld.key ⟨o + 0x200000 + 0x4000 * l, lo, w⟩) = false := bookKey_lane (by omega) hlo

/-- The registers of the checkers are at offsets 0x34 to 0x40. -/
theorem not_chkRegs {o l lo w : Nat} (ho : o < 0x34 ∨ 0x40 < o) (hlo : lo < 64) :
    Fld.key ⟨o + 0x200000 + 0x4000 * l, lo, w⟩ ∉ (chkRegs l).map Fld.key := by
  simp only [chkRegs, List.map_cons, List.map_nil, List.mem_cons, List.not_mem_nil, or_false, Fld.key, R.LNE.PAT_STATUS.SEQ,
    R.LNE.PAT_STATUS.LOCK_LOST, R.LNE.PAT_STATUS.LOCK, R.LNE.PAT_ERR.COUNT, R.LNE.PAT_BITS.COUNT]
  omega

theorem counted_of_get {f : Fld} {n : Nat} {d0 d e e' : Dev} (h : Counted f n d e) (h0 : d.get f = d0.get f) (h1 : e'.get f = e.get f) :
    Counted f n d0 e' := h1.trans (h0 ▸ h)

/-! ## The phase of a lane -/

theorem laneS_lanePhase (l ph : Nat) (d : Dev) : (lanePhase l ph d).laneS l = { d.laneS l with phase := ph } := by
  unfold lanePhase
  dsimp only
  split
  · exact laneS_setLane ..
  · exact laneS_setLane ..

theorem laneStep_lanePhase (l ph : Nat) (d : Dev) : LaneStep l [R.LNE.STATUS.STATE l] d (lanePhase l ph d) := by
  unfold lanePhase
  exact laneStep_ite ((laneStep_setLane ..).mono (by simp)) ((laneStep_setLane ..).trans (laneStep_put ..))

theorem state_lanePhase (l ph : Nat) (d : Dev) : (lanePhase l ph d).get (R.LNE.STATUS.STATE l) =
    if d.get (R.LNE.STATUS.STATE l) = 7 ∨ d.get (R.LNE.STATUS.STATE l) = 8 then d.get (R.LNE.STATUS.STATE l) else ph % 16 := by
  unfold lanePhase
  dsimp only
  rw [get_setLane]
  split
  · rfl
  · exact get_put_self ..

theorem checks_lane {l : Nat} {d e : Dev} (h : Checks l d e) {α : Type} (π : LaneS → α) (hπ : ∀ x, π (core x) = π x) :
    π (e.laneS l) = π (d.laneS l) := by
  rw [← hπ, h.lane, hπ]

/-! ## Received blocks -/

/-- What a block that is not a marker makes of a lane whose header has been taken. -/
theorem rxPlain_checks (l : Nat) (b : Blk) (d : Dev) :
    ∃ bip, Checks l (setLane l { (feedHeader l b.hdr (lnePerf l 1 1 d)).laneS l with
      rxAt := ((feedHeader l b.hdr (lnePerf l 1 1 d)).laneS l).rxAt + 1, rxBip := bip } (feedHeader l b.hdr (lnePerf l 1 1 d)))
      (rxPlain l b d).2 := by
  unfold rxPlain
  dsimp only
  generalize feedHeader l b.hdr (lnePerf l 1 1 d) = e
  refine ⟨(e.laneS l).rxBip ^^^ bipOf b, Checks.trans ?_ ((checks_each (checks_feedBit l) _ _).trans (checks_pcsCheck ..))⟩
  refine ⟨⟨⟨fun x => ?_⟩, fun k _ hne => ?_⟩, ?_⟩
  · exact (Leaves.refl _).mono (by simp)
  · rw [laneS_setLane_ne _ _ _ _ hne, laneS_setLane_ne _ _ _ _ hne]
  · rw [laneS_setLane, laneS_setLane]
    rfl

theorem laneS_txLeave_ne {k l : Nat} (hk : k < 60) (hne : l ≠ k) (b : Blk) (d : Dev) : (txLeave k b d).laneS l = d.laneS l := by
  unfold txLeave setTx
  exact (laneS_of_leaves (leaves_lnePerf hk ..) l).trans (laneS_setLane_ne _ _ _ _ hne)

theorem laneStep_txLeave {k l : Nat} (hk : k < 60) (hne : 48 ≤ k) (b : Blk) (d : Dev) : LaneStep l [] d (txLeave k b d) :=
  ⟨(upto_of_eq (d := d) (e := setLane k { d.laneS k with tx := _ } d) fun _ => rfl).trans (upto_of_leaves setsPart_withLane (leaves_lnePerf hk 0xa 1 _)),
    fun j hj _ => laneS_txLeave_ne hk (by omega) b d⟩

/-- A block that arrives at a lane without a loopback. -/
theorem rxIn_plain {l : Nat} (hl : l < 60) (b : Blk) {d : Dev} (hloop : d.looped l = false) :
    (rxIn l b d).1 = polarity (d.on (R.LNE.CTL.RX_INV l)) b ∧ LaneStep l [] d (rxIn l b d).2 ∧ (rxIn l b d).2.laneS l = d.laneS l := by
  unfold rxIn
  rw [if_neg (by rw [hloop]; decide)]
  dsimp only
  split
  · next hlp =>
    obtain ⟨-, hup, -⟩ := hlp
    have hl48 : l < 48 := of_decide_eq_true hup
    have hport : 48 + portOf l < 60 := by unfold portOf; omega
    have hleave := laneStep_txLeave hport (by omega) (l := l) b d
    exact ⟨by rw [hleave.on (f := R.LNE.CTL.RX_INV l) (book_lne (o := 0) hl (by decide) (by decide)) (by simp)], hleave, laneS_txLeave_ne hport (by omega) b d⟩
  · exact ⟨rfl, laneStep_refl .., rfl⟩

/-! ## The header of a block -/

section
variable {l : Nat} {h : BitVec 2} {d : Dev}

/-- A valid header at a lane that looks for block lock. -/
theorem feedHeader_seek (hok : h = 1#2 ∨ h = 2#2) (hlock : (d.laneS l).blockLock = false) (hrun : (d.laneS l).run + 1 ≠ 64) :
    feedHeader l h d = setLane l { d.laneS l with run := (d.laneS l).run + 1 } d := by
  have hv : (h == 1#2 || h == 2#2) = true := by simpa using hok
  unfold feedHeader
  simp only [hv, Bool.not_true, when, Bool.false_eq_true, if_false, hlock, if_true, hrun, false_and]

theorem feedHeader_gain (hok : h = 1#2 ∨ h = 2#2) (hlock : (d.laneS l).blockLock = false) (hrun : (d.laneS l).run + 1 = 64)
    (hseek : d.seeksLock l = true) :
    feedHeader l h d = gainBlockLock l (setLane l { d.laneS l with run := (d.laneS l).run + 1 } d) := by
  have hv : (h == 1#2 || h == 2#2) = true := by simpa using hok
  have hs : (setLane l { d.laneS l with run := (d.laneS l).run + 1 } d).seeksLock l = true := by
    unfold Dev.seeksLock at hseek ⊢
    rw [laneS_setLane]
    exact hseek
  unfold feedHeader
  simp only [hv, Bool.not_true, when, Bool.false_eq_true, if_false, if_true]
  rw [if_neg (by rw [hlock]; decide), if_pos ⟨hrun, hs⟩]

/-- A valid header at a lane with block lock that keeps it. -/
theorem feedHeader_keep (hok : h = 1#2 ∨ h = 2#2) (hlock : (d.laneS l).blockLock = true)
    (hfew : ((d.laneS l).window.filter (fun x => !x)).length < 16) :
    feedHeader l h d = blockDone l (setLane l { d.laneS l with window := (true :: (d.laneS l).window).take 64 } d) ∧
    (((true :: (d.laneS l).window).take 64).filter (fun x => !x)).length < 16 := by
  have hv : (h == 1#2 || h == 2#2) = true := by simpa using hok
  have hw : (((true :: (d.laneS l).window).take 64).filter (fun x => !x)).length < 16 := by
    rw [List.take_succ_cons, List.filter_cons_of_neg (by decide)]
    exact ((List.Sublist.filter _ (List.take_sublist _ _)).length_le).trans_lt hfew
  refine ⟨?_, hw⟩
  unfold feedHeader
  simp only [hv, Bool.not_true, when, Bool.false_eq_true, if_false, hlock, if_true]
  rw [if_neg (by omega)]

end

/-! ## Causes of a loss -/

theorem lossClears_lane {l : Nat} (hl : l < 60) (c : Nat) (d : Dev) :
    LaneStep l [] d (lossClears l c d) ∧ ∃ a b, (lossClears l c d).laneS l = { d.laneS l with loss := a, lossCause := b } := by
  unfold lossClears
  dsimp only
  generalize (if bit (d.laneS l).lossCause c = true then (d.laneS l).lossCause - 2 ^ c else (d.laneS l).lossCause) = k
  split
  · exact ⟨(laneStep_setLane ..).trans (laneStep_lnePerf hl ..), _, _, (laneS_of_leaves (leaves_lnePerf hl ..) l).trans (laneS_setLane ..)⟩
  · exact ⟨laneStep_setLane .., (d.laneS l).loss, _, laneS_setLane ..⟩

theorem lossAppears_lane (l c : Nat) (d : Dev) :
    LaneStep l [] d (lossAppears l c d) ∧ ∃ a b, (lossAppears l c d).laneS l = { d.laneS l with loss := a, lossCause := b } := by
  unfold lossAppears
  dsimp only
  split
  · exact ⟨laneStep_setLane .., _, _, laneS_setLane ..⟩
  · exact ⟨laneStep_refl .., (d.laneS l).loss, (d.laneS l).lossCause, rfl⟩

theorem patLock_lane (l : Nat) (d : Dev) : LaneStep l [R.LNE.PAT_STATUS.LOCK l] d (patLock l d) ∧ (patLock l d).laneS l = d.laneS l :=
  ⟨laneStep_put .., rfl⟩

/-- After a good block a locked lane may go on to training. -/
theorem blockDone_lane (l : Nat) (d : Dev) :
    LaneStep l [R.LNE.STATUS.STATE l] d (blockDone l d) ∧ ∃ a b, (blockDone l d).laneS l = { d.laneS l with phase := a, train := b } := by
  unfold blockDone
  dsimp only
  split
  · exact ⟨(laneStep_setLane ..).trans (laneStep_lanePhase ..), 4, {}, by rw [laneS_lanePhase, laneS_setLane]⟩
  · exact ⟨laneStep_refl .., (d.laneS l).phase, (d.laneS l).train, rfl⟩

/-! ## Block lock -/

/-- The registers that a plain block of an uplink lane can change. -/
def blockRegs (l : Nat) : List Fld := R.LNE.STATUS.STATE l :: chkRegs l

theorem gainBlockLock_lane {l : Nat} (hl : l < 60) (d : Dev) :
    LaneStep l (blockRegs l) d (gainBlockLock l d) ∧ ((gainBlockLock l d).laneS l).blockLock = true := by
  unfold gainBlockLock
  dsimp only
  obtain ⟨h1, a, b, hx1⟩ := lossClears_lane hl 0
    (setLane l { d.laneS l with blockLock := true, window := [], skipBip := true, rxAt := 0, rxBip := 0, hdrErrs := 0 } d)
  rw [laneS_setLane] at hx1
  have h0 := laneStep_setLane l { d.laneS l with blockLock := true, window := [], skipBip := true, rxAt := 0, rxBip := 0, hdrErrs := 0 } d
  generalize lossClears l 0 _ = e1 at h1 hx1 ⊢
  obtain ⟨h2, hx2⟩ := patLock_lane l e1
  obtain ⟨h3, p, t, hx3⟩ := blockDone_lane l (patLock l e1)
  refine ⟨((h0.trans h1).trans (h2.trans h3)).mono (by simp [blockRegs, chkRegs]), ?_⟩
  rw [hx3, hx2, hx1]

/-! ## A lane that looks for block lock -/

theorem rxBlock_plain {l : Nat} (hl : l < 60) (slotNo : Nat) {b : Blk} {d : Dev} (hloop : d.looped l = false)
    (hplain : (d.laneS l).blockLock = false ∨ markerOf (polarity (d.on (R.LNE.CTL.RX_INV l)) b) = none ∧
      ((d.laneS l).rxAt ≠ 16383 ∨ (d.laneS l).lastAm = none)) :
    ∃ d', LaneStep l [] d d' ∧ d'.laneS l = d.laneS l ∧
      rxBlock l slotNo b d = (rxPlain l (polarity (d.on (R.LNE.CTL.RX_INV l)) b) d').2 := by
  obtain ⟨hb, hstep, hx⟩ := rxIn_plain hl b hloop
  refine ⟨(rxIn l b d).2, hstep, hx, ?_⟩
  unfold rxBlock
  dsimp only
  rw [hx, hb]
  refine if_neg fun hc => ?_
  rcases hplain with h | ⟨hm, hplace⟩
  · rw [h] at hc
    exact absurd hc (by simp)
  · rw [hm] at hc
    rcases hplace with h | h
    · simp [h] at hc
    · simp [h] at hc

/-- A step that keeps what decides whether a lane looks for block lock. -/
theorem header_of_polarity {inv : Bool} {b : Blk} (h : b.hdr = 1#2 ∨ b.hdr = 2#2) :
    (polarity inv b).hdr = 1#2 ∨ (polarity inv b).hdr = 2#2 := by
  cases inv with
  | false => exact h
  | true =>
    rcases h with h | h
    · exact .inr (by rw [polarity, if_pos rfl, h]; rfl)
    · exact .inl (by rw [polarity, if_pos rfl, h]; rfl)

/-- A block that is not a marker: its header, then the counts of the blocks since the last marker, then the checkers. -/
theorem rxBlock_checks {l : Nat} (hl : l < 60) (slotNo : Nat) {b : Blk} {d : Dev} (hloop : d.looped l = false)
    (hplain : (d.laneS l).blockLock = false ∨ markerOf (polarity (d.on (R.LNE.CTL.RX_INV l)) b) = none ∧
      ((d.laneS l).rxAt ≠ 16383 ∨ (d.laneS l).lastAm = none)) :
    ∃ d' e bip, LaneStep l [] d d' ∧ d'.laneS l = d.laneS l ∧ e = feedHeader l (polarity (d.on (R.LNE.CTL.RX_INV l)) b).hdr d' ∧
      Checks l (setLane l { e.laneS l with rxAt := (e.laneS l).rxAt + 1, rxBip := bip } e) (rxBlock l slotNo b d) := by
  obtain ⟨d', hstep, hx, he⟩ := rxBlock_plain hl slotNo hloop hplain
  obtain ⟨bip, hc⟩ := rxPlain_checks l (polarity (d.on (R.LNE.CTL.RX_INV l)) b) d'
  rw [he]
  exact ⟨lnePerf l 1 1 d', _, bip, hstep.trans (laneStep_lnePerf hl ..), (laneS_of_leaves (leaves_lnePerf hl ..) l).trans hx, rfl, hc⟩

section
variable {l : Nat} (hl : l < 60) (slotNo : Nat) {b : Blk} {d : Dev} (hloop : d.looped l = false) (hok : b.hdr = 1#2 ∨ b.hdr = 2#2)
  (hlock : (d.laneS l).blockLock = false)
include hl hloop hok hlock

/-- One more valid header. -/
theorem rxBlock_seek (hrun : (d.laneS l).run + 1 ≠ 64) :
    LaneStep l (chkRegs l) d (rxBlock l slotNo b d) ∧ ((rxBlock l slotNo b d).laneS l).blockLock = false ∧
    ((rxBlock l slotNo b d).laneS l).run = (d.laneS l).run + 1 ∧ ((rxBlock l slotNo b d).laneS l).phase = (d.laneS l).phase := by
  obtain ⟨d', e, bip, hstep, hx, he, hc⟩ := rxBlock_checks hl slotNo hloop (.inl hlock)
  rw [← hx] at hlock hrun
  rw [feedHeader_seek (header_of_polarity hok) hlock hrun] at he
  have hxe : e.laneS l = { d'.laneS l with run := (d'.laneS l).run + 1 } := he ▸ laneS_setLane ..
  have hse : LaneStep l [] d' e := he ▸ laneStep_setLane ..
  refine ⟨((hstep.trans hse).trans ((laneStep_setLane ..).trans hc.step)).mono fun _ => List.mem_map_of_mem, ?_, ?_, ?_⟩
  · rw [checks_lane hc LaneS.blockLock (fun _ => rfl), laneS_setLane, hxe]
    exact hlock
  · rw [checks_lane hc LaneS.run (fun _ => rfl), laneS_setLane, hxe, hx]
  · rw [checks_lane hc LaneS.phase (fun _ => rfl), laneS_setLane, hxe, hx]

/-- The last valid header that block lock needs. -/
theorem rxBlock_gain (hrun : (d.laneS l).run + 1 = 64) (hseek : d.seeksLock l = true) :
    LaneStep l (blockRegs l) d (rxBlock l slotNo b d) ∧ ((rxBlock l slotNo b d).laneS l).blockLock = true := by
  obtain ⟨d', e, bip, hstep, hx, he, hc⟩ := rxBlock_checks hl slotNo hloop (.inl hlock)
  have hseek' : d'.seeksLock l = true := by
    rw [← hseek, Dev.seeksLock, Dev.seeksLock, hx, hstep.on (f := R.LNE.CTL.EN l) (book_lne (o := 0) hl (by decide) (by decide)) (by simp),
      hstep.get (f := R.LNE.STATUS.STATE l) (book_lne (o := 8) hl (by decide) (by decide)) (by simp)]
  rw [← hx] at hlock hrun
  rw [feedHeader_gain (header_of_polarity hok) hlock hrun hseek'] at he
  obtain ⟨hgain, hlocked⟩ := gainBlockLock_lane hl (setLane l { d'.laneS l with run := (d'.laneS l).run + 1 } d')
  rw [← he] at hgain hlocked
  refine ⟨((hstep.trans ((laneStep_setLane ..).trans hgain)).trans ((laneStep_setLane ..).trans hc.step)).mono ?_, ?_⟩
  · intro f hf
    simp only [List.nil_append, List.mem_append, blockRegs, List.mem_cons, List.map_cons] at hf ⊢
    rcases hf with (rfl | hf) | hf
    · exact .inl rfl
    · exact .inr (List.mem_map_of_mem hf)
    · exact .inr (List.mem_map_of_mem hf)
  · rw [checks_lane hc LaneS.blockLock (fun _ => rfl), laneS_setLane, hlocked]

end

/-- Valid headers in a row, short of block lock. -/
theorem each_seek {l : Nat} (hl : l < 60) (slotNo : Nat) {blks : List Blk} (hok : ∀ b ∈ blks, b.hdr = 1#2 ∨ b.hdr = 2#2) {d : Dev}
    (hloop : d.looped l = false) (hlock : (d.laneS l).blockLock = false) (hrun : (d.laneS l).run + blks.length < 64) :
    LaneStep l (chkRegs l) d (each (rxBlock l slotNo) blks d) ∧ ((each (rxBlock l slotNo) blks d).laneS l).blockLock = false ∧
    ((each (rxBlock l slotNo) blks d).laneS l).run = (d.laneS l).run + blks.length ∧
    ((each (rxBlock l slotNo) blks d).laneS l).phase = (d.laneS l).phase := by
  induction blks generalizing d with
  | nil => exact ⟨laneStep_refl .., hlock, rfl, rfl⟩
  | cons b blks ih =>
    rw [List.length_cons] at hrun
    obtain ⟨hs, hl1, hr1, hp1⟩ := rxBlock_seek hl slotNo hloop (hok b List.mem_cons_self) hlock (by omega)
    have hloop' : (rxBlock l slotNo b d).looped l = false := by
      rw [← hloop, Dev.looped, Dev.looped, hs.get (f := R.LNE.CTL.LPBK l) (book_lne (o := 0) hl (by decide) (by decide)) (not_chkRegs (o := 0) (.inl (by decide)) (by decide))]
    obtain ⟨hs2, hl2, hr2, hp2⟩ := ih (fun x hx => hok x (List.mem_cons_of_mem _ hx)) hloop' hl1 (by omega)
    refine ⟨hs.append hs2, hl2, ?_, hp2.trans hp1⟩
    rw [each, hr2, hr1, List.length_cons]
    omega

/-! ## The loss of block lock -/

theorem raised_of_get {seq : Fld} {fs : List Fld} {d g e : Dev} (h : Raised seq fs g e) (h0 : g.get seq = d.get seq) : Raised seq fs d e :=
  ⟨h.1.trans (by rw [h0]), h.2⟩

theorem raised_lane {l : Nat} {seq : Fld} {fs gs : List Fld} {d e e' : Dev} (h : Raised seq fs d e) (hl : LaneStep l gs e e')
    (hb : ∀ f ∈ seq :: fs, bookKey f.key = false) (hgs : ∀ f ∈ seq :: fs, f.key ∉ gs.map Fld.key) : Raised seq fs d e' :=
  ⟨(hl.get (hb _ List.mem_cons_self) (hgs _ List.mem_cons_self)).trans h.1, fun f hf =>
    (hl.on (hb _ (List.mem_cons_of_mem _ hf)) (hgs _ (List.mem_cons_of_mem _ hf))).trans (h.2 f hf)⟩

/-- The registers of the status of a lane. -/
theorem status_book {l : Nat} (hl : l < 60) : ∀ f ∈ [R.LNE.STATUS.SEQ l, R.LNE.STATUS.LOCK_LOST l], bookKey f.key = false := by
  simp only [List.mem_cons, List.not_mem_nil, or_false, forall_eq_or_imp, forall_eq]
  exact ⟨book_lne (o := 8) hl (by decide) (by decide), book_lne (o := 8) hl (by decide) (by decide)⟩

/-- The device of a lane whose block lock has been lost and reported. -/
def lockLost (l : Nat) (d : Dev) : Dev :=
  patLock l (lnePerf l 5 1 (event 8 (R.LNE.STATUS.SEQ l) [R.LNE.STATUS.LOCK_LOST l] (setLane l { d.laneS l with
    blockLock := false, amLock := false, run := 0, window := [], lastAm := none, amSlot := none, badPeriods := 0
    aligned := false, skipBip := true, missed := 0, cleanSince := none, eligible := false } d)))

theorem loseBlockLock_eq (l : Nat) (d : Dev) : loseBlockLock l d =
    if (lockLost l d).get (R.LNE.STATUS.STATE l) = 6 then lossAppears l 1 (lossAppears l 0 (lockLost l d))
    else if 2 ≤ (d.laneS l).phase then lanePhase l 3 (lockLost l d) else lockLost l d := rfl

/-- What the end of block lock leaves in the lane, whether it was in service or not. -/
theorem loseBlockLock_rest {l : Nat} (d e : Dev) :
    LaneStep l [R.LNE.STATUS.STATE l] e (if e.get (R.LNE.STATUS.STATE l) = 6 then lossAppears l 1 (lossAppears l 0 e)
      else if 2 ≤ (d.laneS l).phase then lanePhase l 3 e else e) ∧
    ∃ a b c, (if e.get (R.LNE.STATUS.STATE l) = 6 then lossAppears l 1 (lossAppears l 0 e)
      else if 2 ≤ (d.laneS l).phase then lanePhase l 3 e else e).laneS l = { e.laneS l with loss := a, lossCause := b, phase := c } := by
  split
  · obtain ⟨h1, a1, b1, hx1⟩ := lossAppears_lane l 0 e
    obtain ⟨h2, a2, b2, hx2⟩ := lossAppears_lane l 1 (lossAppears l 0 e)
    exact ⟨(h1.trans h2).mono (by simp), a2, b2, (e.laneS l).phase, by rw [hx2, hx1]⟩
  split
  · exact ⟨laneStep_lanePhase .., (e.laneS l).loss, (e.laneS l).lossCause, 3, laneS_lanePhase ..⟩
  · exact ⟨laneStep_refl .., (e.laneS l).loss, (e.laneS l).lossCause, (e.laneS l).phase, rfl⟩

theorem lockLost_lane {l : Nat} (hl : l < 60) (d : Dev) :
    LaneStep l [R.LNE.STATUS.SEQ l, R.LNE.STATUS.LOCK_LOST l, R.LNE.PAT_STATUS.LOCK l] d (lockLost l d) ∧
    ((lockLost l d).laneS l).blockLock = false ∧ ((lockLost l d).laneS l).amLock = false ∧
    Raised (R.LNE.STATUS.SEQ l) [R.LNE.STATUS.LOCK_LOST l] d (lockLost l d) := by
  unfold lockLost
  generalize hx : ({ d.laneS l with
    blockLock := false, amLock := false, run := 0, window := [], lastAm := none, amSlot := none, badPeriods := 0
    aligned := false, skipBip := true, missed := 0, cleanSince := none, eligible := false } : LaneS) = x
  have hev := laneStep_event l 8 (R.LNE.STATUS.SEQ l) [R.LNE.STATUS.LOCK_LOST l] (setLane l x d)
  have hraised : Raised (R.LNE.STATUS.SEQ l) [R.LNE.STATUS.LOCK_LOST l] d
      (event 8 (R.LNE.STATUS.SEQ l) [R.LNE.STATUS.LOCK_LOST l] (setLane l x d)) :=
    raised_event (status_book hl) (by simp [R.LNE.STATUS.LOCK_LOST]) (by simp [Fld.key, R.LNE.STATUS.SEQ, R.LNE.STATUS.LOCK_LOST]) rfl
  have hlane := (laneS_of_leaves (leaves_event 8 (R.LNE.STATUS.SEQ l) [R.LNE.STATUS.LOCK_LOST l] (setLane l x d)) l).trans (laneS_setLane ..)
  generalize event 8 _ _ (setLane l x d) = e at hev hraised hlane ⊢
  have hp := laneStep_lnePerf hl 5 1 e
  obtain ⟨hpat, hpatx⟩ := patLock_lane l (lnePerf l 5 1 e)
  have hlast : (patLock l (lnePerf l 5 1 e)).laneS l = x := hpatx.trans ((laneS_of_leaves (leaves_lnePerf hl ..) l).trans hlane)
  refine ⟨((laneStep_setLane ..).trans (hev.trans (hp.trans hpat))).mono (by simp), ?_, ?_, ?_⟩
  · rw [hlast, ← hx]
  · rw [hlast, ← hx]
  · refine raised_lane (raised_lane hraised hp (status_book hl) (by simp)) hpat (status_book hl) ?_
    simp [Fld.key, R.LNE.STATUS.SEQ, R.LNE.STATUS.LOCK_LOST, R.LNE.PAT_STATUS.LOCK]
    omega

theorem loseBlockLock_lane {l : Nat} (hl : l < 60) (d : Dev) :
    LaneStep l [R.LNE.STATUS.SEQ l, R.LNE.STATUS.LOCK_LOST l, R.LNE.PAT_STATUS.LOCK l, R.LNE.STATUS.STATE l] d (loseBlockLock l d) ∧
    ((loseBlockLock l d).laneS l).blockLock = false ∧ ((loseBlockLock l d).laneS l).amLock = false ∧
    Raised (R.LNE.STATUS.SEQ l) [R.LNE.STATUS.LOCK_LOST l] d (loseBlockLock l d) := by
  obtain ⟨h1, hb, ha, hr⟩ := lockLost_lane hl d
  rw [loseBlockLock_eq]
  generalize lockLost l d = e at h1 hb ha hr ⊢
  obtain ⟨h2, a, b, c, hx⟩ := loseBlockLock_rest (l := l) d e
  refine ⟨(h1.trans h2).mono (by simp), by rw [hx]; exact hb, by rw [hx]; exact ha, raised_lane hr h2 (status_book hl) ?_⟩
  simp [Fld.key, R.LNE.STATUS.SEQ, R.LNE.STATUS.LOCK_LOST, R.LNE.STATUS.STATE]

/-! ## Invalid headers -/

/-- An invalid header at a lane with block lock: counted, in the window, and the lock is lost when the window holds 16 of them. -/
theorem feedHeader_bad {l : Nat} (hl : l < 60) {h : BitVec 2} {d : Dev} (hbad : h ≠ 1#2 ∧ h ≠ 2#2) (hlock : (d.laneS l).blockLock = true) :
    ∃ e, LaneStep l [R.LNE.ERR_HDR.COUNT l] d e ∧ Counted (R.LNE.ERR_HDR.COUNT l) 1 d e ∧
      ((e.laneS l).blockLock = true ∧ (e.laneS l).window = (false :: (d.laneS l).window).take 64 ∧ (e.laneS l).rxAt = (d.laneS l).rxAt ∧
        (e.laneS l).lastAm = (d.laneS l).lastAm) ∧
      feedHeader l h d = if 16 ≤ (((false :: (d.laneS l).window).take 64).filter (fun x => !x)).length then loseBlockLock l e else blockDone l e := by
  have hv : (h == 1#2 || h == 2#2) = false := by simpa using hbad
  have hcount := laneStep_put l (R.LNE.ERR_HDR.COUNT l) (d.get (R.LNE.ERR_HDR.COUNT l) + 1) d
  have hx : (lnePerf l 2 1 (inc (R.LNE.ERR_HDR.COUNT l) 1 d)).laneS l = d.laneS l := laneS_of_leaves (leaves_lnePerf hl ..) l
  have hn : Counted (R.LNE.ERR_HDR.COUNT l) 1 d (lnePerf l 2 1 (inc (R.LNE.ERR_HDR.COUNT l) 1 d)) :=
    ((laneStep_lnePerf hl ..).get (book_lne (o := 0x20) hl (by decide) (by decide)) (by simp)).trans (get_put_self ..)
  have hs : LaneStep l [R.LNE.ERR_HDR.COUNT l] d (lnePerf l 2 1 (inc (R.LNE.ERR_HDR.COUNT l) 1 d)) :=
    (hcount.trans (laneStep_lnePerf hl ..)).mono (by simp)
  unfold feedHeader
  simp only [hv, Bool.not_false, when, if_true]
  generalize lnePerf l 2 1 (inc (R.LNE.ERR_HDR.COUNT l) 1 d) = e1 at hs hx hn ⊢
  simp only [laneS_setLane]
  rw [if_pos hlock]
  refine ⟨_, ?step, ?count, ?lane, rfl⟩
  case lane =>
    rw [laneS_setLane]
    exact ⟨hlock, rfl, rfl, rfl⟩
  case step => exact ((hs.trans (laneStep_setLane ..)).trans (laneStep_setLane ..)).mono (by simp)
  case count => exact hn

theorem bad_of_polarity {inv : Bool} {b : Blk} (h : b.hdr ≠ 1#2 ∧ b.hdr ≠ 2#2) : (polarity inv b).hdr ≠ 1#2 ∧ (polarity inv b).hdr ≠ 2#2 := by
  cases inv with
  | false => exact h
  | true =>
    rw [polarity, if_pos rfl]
    dsimp only
    revert h
    generalize b.hdr = x
    revert x
    decide

theorem markerOf_bad {b : Blk} (h : b.hdr ≠ 1#2 ∧ b.hdr ≠ 2#2) : markerOf b = none := by
  unfold markerOf
  exact if_neg fun hc => h.2 hc.1

theorem filter_bad_replicate (n : Nat) : ((List.replicate n false).filter (fun x => !x)).length = n := by
  rw [List.filter_replicate_of_pos (by decide), List.length_replicate]

/-- The registers that an invalid block of a locked lane can change while the lock holds. -/
def badRegs (l : Nat) : List Fld := R.LNE.ERR_HDR.COUNT l :: blockRegs l

theorem errHdr_not_state_chk (l : Nat) : (R.LNE.ERR_HDR.COUNT l).key ∉ (R.LNE.STATUS.STATE l :: chkRegs l).map Fld.key := by
  rw [List.map_cons, List.mem_cons, not_or]
  exact ⟨by simp only [Fld.key, R.LNE.ERR_HDR.COUNT, R.LNE.STATUS.STATE]; omega, not_chkRegs (o := 0x20) (.inl (by decide)) (by decide)⟩

section
variable {l : Nat} (hl : l < 60) {b : Blk} {d : Dev} (hloop : d.looped l = false) (hbad : b.hdr ≠ 1#2 ∧ b.hdr ≠ 2#2)
  (hlock : (d.laneS l).blockLock = true) {n : Nat} (hwin : (d.laneS l).window = List.replicate n false)
  (hplace : (d.laneS l).lastAm = none ∨ (d.laneS l).rxAt + 1 ≤ 16383)
include hl hloop hbad hlock hwin hplace

/-- An invalid block, before its header's window is full of them. -/
theorem rxBlock_bad (hn : n < 15) :
    LaneStep l (badRegs l) d (rxBlock l 0 b d) ∧ Counted (R.LNE.ERR_HDR.COUNT l) 1 d (rxBlock l 0 b d) ∧
    ((rxBlock l 0 b d).laneS l).blockLock = true ∧ ((rxBlock l 0 b d).laneS l).window = List.replicate (n + 1) false ∧
    ((rxBlock l 0 b d).laneS l).rxAt = (d.laneS l).rxAt + 1 ∧ ((rxBlock l 0 b d).laneS l).lastAm = (d.laneS l).lastAm := by
  have hm := markerOf_bad (bad_of_polarity (inv := d.on (R.LNE.CTL.RX_INV l)) hbad)
  obtain ⟨d', e, bip, hstep, hx, he, hc⟩ := rxBlock_checks hl 0 hloop (.inr ⟨hm, hplace.elim .inr fun h => .inl (by omega)⟩)
  rw [← hx] at hlock hwin
  obtain ⟨g, hg, hcount, ⟨hgl, hgw, hgr, hga⟩, hfeed⟩ := feedHeader_bad hl (bad_of_polarity hbad) hlock
  have hw : (false :: (d'.laneS l).window).take 64 = List.replicate (n + 1) false := by
    rw [hwin, ← List.replicate_succ, List.take_replicate, min_eq_right (by omega)]
  rw [hw] at hgw
  rw [hw, filter_bad_replicate, if_neg (by omega), ← he] at hfeed
  obtain ⟨hdone, p, t, hdx⟩ := blockDone_lane l g
  rw [← hfeed] at hdone hdx
  have hrest := (laneStep_setLane l { e.laneS l with rxAt := (e.laneS l).rxAt + 1, rxBip := bip } e).trans hc.step
  have hbook : bookKey (R.LNE.ERR_HDR.COUNT l).key = false := book_lne (o := 0x20) hl (by decide) (by decide)
  refine ⟨?_, ?_, ?_, ?_, ?_, ?_⟩
  · exact ((hstep.trans hg).trans (hdone.trans hrest)).mono fun f hf => List.mem_map_of_mem (by simpa [badRegs, blockRegs] using hf)
  · exact counted_of_get hcount (hstep.get hbook (by simp)) ((hdone.trans hrest).get hbook (errHdr_not_state_chk l))
  · rw [checks_lane hc LaneS.blockLock (fun _ => rfl), laneS_setLane, hdx]
    exact hgl
  · rw [checks_lane hc LaneS.window (fun _ => rfl), laneS_setLane, hdx]
    exact hgw
  · rw [checks_lane hc LaneS.rxAt (fun _ => rfl), laneS_setLane, hdx]
    exact congrArg (· + 1) (hgr.trans (by rw [hx]))
  · rw [checks_lane hc LaneS.lastAm (fun _ => rfl), laneS_setLane, hdx]
    exact hga.trans (by rw [hx])

/-- The invalid block that fills the window loses the lock. -/
theorem rxBlock_loses (hn : n = 15) :
    ((rxBlock l 0 b d).laneS l).blockLock = false ∧ ((rxBlock l 0 b d).laneS l).amLock = false ∧
    Raised (R.LNE.STATUS.SEQ l) [R.LNE.STATUS.LOCK_LOST l] d (rxBlock l 0 b d) ∧ Counted (R.LNE.ERR_HDR.COUNT l) 1 d (rxBlock l 0 b d) := by
  have hm := markerOf_bad (bad_of_polarity (inv := d.on (R.LNE.CTL.RX_INV l)) hbad)
  obtain ⟨d', e, bip, hstep, hx, he, hc⟩ := rxBlock_checks hl 0 hloop (.inr ⟨hm, hplace.elim .inr fun h => .inl (by omega)⟩)
  rw [← hx] at hlock hwin
  obtain ⟨g, hg, hcount, -, hfeed⟩ := feedHeader_bad hl (bad_of_polarity hbad) hlock
  have hw : (false :: (d'.laneS l).window).take 64 = List.replicate (n + 1) false := by
    rw [hwin, ← List.replicate_succ, List.take_replicate, min_eq_right (by omega)]
  rw [hw, filter_bad_replicate, if_pos (by omega), ← he] at hfeed
  obtain ⟨hlose, hb, ha, hr⟩ := loseBlockLock_lane hl g
  rw [← hfeed] at hlose hb ha hr
  have hrest := (laneStep_setLane l { e.laneS l with rxAt := (e.laneS l).rxAt + 1, rxBip := bip } e).trans hc.step
  have hbook : bookKey (R.LNE.ERR_HDR.COUNT l).key = false := book_lne (o := 0x20) hl (by decide) (by decide)
  have hchk : ∀ f ∈ [R.LNE.STATUS.SEQ l, R.LNE.STATUS.LOCK_LOST l], f.key ∉ (chkRegs l).map Fld.key := by
    simp only [List.mem_cons, List.not_mem_nil, or_false, forall_eq_or_imp, forall_eq]
    exact ⟨not_chkRegs (o := 8) (.inl (by decide)) (by decide), not_chkRegs (o := 8) (.inl (by decide)) (by decide)⟩
  refine ⟨?_, ?_, ?_, ?_⟩
  · rw [checks_lane hc LaneS.blockLock (fun _ => rfl), laneS_setLane, ← hb]
  · rw [checks_lane hc LaneS.amLock (fun _ => rfl), laneS_setLane, ← ha]
  · refine raised_lane (raised_of_get hr ?_) hrest (status_book hl) hchk
    refine (hstep.trans hg).get (status_book hl _ List.mem_cons_self) ?_
    simp [Fld.key, R.LNE.STATUS.SEQ, R.LNE.ERR_HDR.COUNT]
    omega
  · refine counted_of_get hcount (hstep.get hbook (by simp)) ((hlose.trans hrest).get hbook ?_)
    rw [List.map_append, List.mem_append, not_or]
    refine ⟨?_, not_chkRegs (o := 0x20) (.inl (by decide)) (by decide)⟩
    simp [Fld.key, R.LNE.STATUS.SEQ, R.LNE.STATUS.LOCK_LOST, R.LNE.STATUS.STATE, R.LNE.PAT_STATUS.LOCK, R.LNE.ERR_HDR.COUNT]
    omega

end

theorem lpbk_not_bad (l : Nat) : (R.LNE.CTL.LPBK l).key ∉ (badRegs l).map Fld.key := by
  rw [badRegs, blockRegs, List.map_cons, List.map_cons, List.mem_cons, List.mem_cons, not_or, not_or]
  refine ⟨?_, ?_, not_chkRegs (o := 0) (.inl (by decide)) (by decide)⟩
  · simp only [Fld.key, R.LNE.CTL.LPBK, R.LNE.ERR_HDR.COUNT]
    omega
  · simp only [Fld.key, R.LNE.CTL.LPBK, R.LNE.STATUS.STATE]
    omega

/-- Invalid blocks in a row, short of the loss. -/
theorem each_bad {l : Nat} (hl : l < 60) {blks : List Blk} (hbad : ∀ b ∈ blks, b.hdr ≠ 1#2 ∧ b.hdr ≠ 2#2) {d : Dev} {n : Nat}
    (hloop : d.looped l = false) (hlock : (d.laneS l).blockLock = true) (hwin : (d.laneS l).window = List.replicate n false)
    (hplace : (d.laneS l).lastAm = none ∨ (d.laneS l).rxAt + blks.length ≤ 16383) (hn : n + blks.length < 16) :
    LaneStep l (badRegs l) d (each (rxBlock l 0) blks d) ∧
    (blks ≠ [] → Counted (R.LNE.ERR_HDR.COUNT l) blks.length d (each (rxBlock l 0) blks d)) ∧
    ((each (rxBlock l 0) blks d).laneS l).blockLock = true ∧
    ((each (rxBlock l 0) blks d).laneS l).window = List.replicate (n + blks.length) false ∧
    ((each (rxBlock l 0) blks d).laneS l).rxAt = (d.laneS l).rxAt + blks.length ∧
    ((each (rxBlock l 0) blks d).laneS l).lastAm = (d.laneS l).lastAm := by
  induction blks generalizing d n with
  | nil => exact ⟨laneStep_refl .., fun h => absurd rfl h, hlock, hwin, rfl, rfl⟩
  | cons b blks ih =>
    rw [List.length_cons] at hplace hn
    obtain ⟨hs, hc, hl1, hw1, hr1, ha1⟩ := rxBlock_bad hl hloop (hbad b List.mem_cons_self) hlock hwin (hplace.imp_right fun h => by omega) (by omega)
    have hloop' : (rxBlock l 0 b d).looped l = false := by
      rw [← hloop, Dev.looped, Dev.looped, hs.get (f := R.LNE.CTL.LPBK l) (book_lne (o := 0) hl (by decide) (by decide)) (lpbk_not_bad l)]
    obtain ⟨hs2, hc2, hl2, hw2, hr2, ha2⟩ := ih (fun x hx => hbad x (List.mem_cons_of_mem _ hx)) hloop' hl1 hw1
      (hplace.imp (fun h => ha1.trans h) fun h => by omega) (by omega)
    refine ⟨hs.append hs2, fun _ => ?_, hl2, ?_, ?_, ha2.trans ha1⟩
    · by_cases hnil : blks = []
      · rw [hnil]
        exact hc
      · rw [List.length_cons, Nat.add_comm]
        exact counted_trans hc (hc2 hnil)
    · rw [each, hw2, List.length_cons]
      exact congrArg (List.replicate · false) (by omega)
    · rw [each, hr2, hr1, List.length_cons]
      omega

end Sys2Proof.Proofs
end

section
/-!
Alignment markers, their loss, and the bring-up of the uplink lanes.
-/
namespace Sys2Proof.Proofs
open Sys2Proof Sys2Proof.Machine

/-! ## What a marker changes -/

/-- The registers that the receive path of a lane can change. -/
def laneRegs (l : Nat) : List Fld :=
  [R.LNE.STATUS.SEQ l, R.LNE.STATUS.STATE l, R.LNE.STATUS.LOCK_LOST l, R.LNE.STATUS.ALIGN_LOST l, R.LNE.STATUS.BER_HIGH l,
    R.LNE.ERR_HDR.COUNT l, R.LNE.ERR_BIP.COUNT l, R.LNE.ERR_AM.COUNT l, R.LNE.ALIGN.LOGICAL l, R.LNE.ALIGN.AM_COUNT l] ++ chkRegs l

/-- They lie within the lane. -/
theorem laneRegs_in {l : Nat} : ∀ f ∈ laneRegs l, f.key / 64 / 0x4000 = 0x80 + l := by
  simp only [laneRegs, chkRegs, List.cons_append, List.nil_append, List.mem_cons, List.not_mem_nil, or_false, forall_eq_or_imp, forall_eq, Fld.key,
    R.LNE.STATUS.SEQ, R.LNE.STATUS.STATE, R.LNE.STATUS.LOCK_LOST, R.LNE.STATUS.ALIGN_LOST, R.LNE.STATUS.BER_HIGH, R.LNE.ERR_HDR.COUNT,
    R.LNE.ERR_BIP.COUNT, R.LNE.ERR_AM.COUNT, R.LNE.ALIGN.LOGICAL, R.LNE.ALIGN.AM_COUNT, R.LNE.PAT_STATUS.SEQ, R.LNE.PAT_STATUS.LOCK_LOST,
    R.LNE.PAT_STATUS.LOCK, R.LNE.PAT_ERR.COUNT, R.LNE.PAT_BITS.COUNT]
  refine ⟨?_, ?_, ?_, ?_, ?_, ?_, ?_, ?_, ?_, ?_, ?_, ?_, ?_, ?_, ?_⟩ <;> omega

/-- A step of one lane leaves the registers of the others. -/
theorem LaneStep.get_other {l : Nat} {d e : Dev} (h : LaneStep l (laneRegs l) d e) {f : Fld} (hb : bookKey f.key = false)
    (hf : f.key / 64 / 0x4000 ≠ 0x80 + l) : e.get f = d.get f := by
  refine h.get hb fun hmem => ?_
  obtain ⟨g, hg, heq⟩ := List.mem_map.mp hmem
  exact hf (heq ▸ laneRegs_in g hg)

theorem berPeriod_lane {l : Nat} (hl : l < 60) (d : Dev) :
    LaneStep l [R.LNE.STATUS.SEQ l, R.LNE.STATUS.BER_HIGH l] d (berPeriod l d) ∧
    ∃ a b x y, (berPeriod l d).laneS l = { d.laneS l with hdrErrs := a, badPeriods := b, loss := x, lossCause := y } := by
  unfold berPeriod
  dsimp only
  generalize (if decide (d.get (R.LNE.DEG_CTL.BER_LIMIT l) < (d.laneS l).hdrErrs) = true then (d.laneS l).badPeriods + 1 else 0) = n
  have h0 := laneStep_setLane l { d.laneS l with hdrErrs := 0, badPeriods := n } d
  have hx0 := laneS_setLane l { d.laneS l with hdrErrs := 0, badPeriods := n } d
  generalize setLane l { d.laneS l with hdrErrs := 0, badPeriods := n } d = e at h0 hx0 ⊢
  split
  · have hev := laneStep_event l 8 (R.LNE.STATUS.SEQ l) [R.LNE.STATUS.BER_HIGH l] e
    have hex := laneS_of_leaves (leaves_event 8 (R.LNE.STATUS.SEQ l) [R.LNE.STATUS.BER_HIGH l] e) l
    obtain ⟨h1, x, y, hx⟩ := lossAppears_lane l 2 (event 8 (R.LNE.STATUS.SEQ l) [R.LNE.STATUS.BER_HIGH l] e)
    exact ⟨(h0.trans (hev.trans h1)).mono (by simp), 0, n, x, y, by rw [hx, hex, hx0]⟩
  split
  · exact ⟨h0.mono (by simp), 0, n, (d.laneS l).loss, (d.laneS l).lossCause, hx0⟩
  · obtain ⟨h1, x, y, hx⟩ := lossClears_lane hl 2 e
    exact ⟨(h0.trans h1).mono (by simp), 0, n, x, y, by rw [hx, hx0]⟩

/-- The device of a lane whose alignment lock has been lost and reported. -/
def alignLost (l : Nat) (d : Dev) : Dev :=
  patLock l (event 8 (R.LNE.STATUS.SEQ l) [R.LNE.STATUS.ALIGN_LOST l] (setLane l { d.laneS l with
    amLock := false, lastAm := none, aligned := false, missed := 0, cleanSince := none, eligible := false } d))

theorem loseAlign_eq (l : Nat) (d : Dev) : loseAlign l d =
    if (alignLost l d).get (R.LNE.STATUS.STATE l) = 6 then lossAppears l 1 (alignLost l d)
    else if 2 ≤ (d.laneS l).phase then lanePhase l 3 (alignLost l d) else alignLost l d := rfl

theorem loseAlign_rest {l : Nat} (d e : Dev) :
    LaneStep l [R.LNE.STATUS.STATE l] e (if e.get (R.LNE.STATUS.STATE l) = 6 then lossAppears l 1 e
      else if 2 ≤ (d.laneS l).phase then lanePhase l 3 e else e) ∧
    ∃ a b c, (if e.get (R.LNE.STATUS.STATE l) = 6 then lossAppears l 1 e
      else if 2 ≤ (d.laneS l).phase then lanePhase l 3 e else e).laneS l = { e.laneS l with loss := a, lossCause := b, phase := c } := by
  split
  · obtain ⟨h1, a, b, hx⟩ := lossAppears_lane l 1 e
    exact ⟨h1.mono (by simp), a, b, (e.laneS l).phase, hx⟩
  split
  · exact ⟨laneStep_lanePhase .., (e.laneS l).loss, (e.laneS l).lossCause, 3, laneS_lanePhase ..⟩
  · exact ⟨laneStep_refl .., (e.laneS l).loss, (e.laneS l).lossCause, (e.laneS l).phase, rfl⟩

theorem align_book {l : Nat} (hl : l < 60) : ∀ f ∈ [R.LNE.STATUS.SEQ l, R.LNE.STATUS.ALIGN_LOST l], bookKey f.key = false := by
  simp only [List.mem_cons, List.not_mem_nil, or_false, forall_eq_or_imp, forall_eq]
  exact ⟨book_lne (o := 8) hl (by decide) (by decide), book_lne (o := 8) hl (by decide) (by decide)⟩

theorem loseAlign_lane {l : Nat} (hl : l < 60) (d : Dev) :
    LaneStep l (laneRegs l) d (loseAlign l d) ∧ ((loseAlign l d).laneS l).amLock = false ∧ ((loseAlign l d).laneS l).missed = 0 ∧
    (loseAlign l d).on (R.LNE.STATUS.ALIGN_LOST l) = true := by
  rw [loseAlign_eq]
  have hlost : LaneStep l [R.LNE.STATUS.SEQ l, R.LNE.STATUS.ALIGN_LOST l, R.LNE.PAT_STATUS.LOCK l] d (alignLost l d) ∧
      ((alignLost l d).laneS l).amLock = false ∧ ((alignLost l d).laneS l).missed = 0 ∧
      (alignLost l d).on (R.LNE.STATUS.ALIGN_LOST l) = true := by
    unfold alignLost
    generalize hx : ({ d.laneS l with
      amLock := false, lastAm := none, aligned := false, missed := 0, cleanSince := none, eligible := false } : LaneS) = x
    have hlane := (laneS_of_leaves (leaves_event 8 (R.LNE.STATUS.SEQ l) [R.LNE.STATUS.ALIGN_LOST l] (setLane l x d)) l).trans (laneS_setLane ..)
    have hev := laneStep_event l 8 (R.LNE.STATUS.SEQ l) [R.LNE.STATUS.ALIGN_LOST l] (setLane l x d)
    have hflag : (event 8 (R.LNE.STATUS.SEQ l) [R.LNE.STATUS.ALIGN_LOST l] (setLane l x d)).get (R.LNE.STATUS.ALIGN_LOST l) = 1 :=
      get_event_flag (align_book hl _ (by simp)) (by simp [R.LNE.STATUS.ALIGN_LOST]) (by simp) ..
    generalize event 8 _ _ (setLane l x d) = e at hev hflag hlane ⊢
    obtain ⟨hpat, hpatx⟩ := patLock_lane l e
    refine ⟨((laneStep_setLane ..).trans (hev.trans hpat)).mono (by simp), ?_, ?_, ?_⟩
    · rw [hpatx, hlane, ← hx]
    · rw [hpatx, hlane, ← hx]
    · rw [hpat.on (align_book hl _ (by simp)) (by simp [Fld.key, R.LNE.STATUS.ALIGN_LOST, R.LNE.PAT_STATUS.LOCK]; omega), Dev.on, hflag]
      rfl
  obtain ⟨h1, ha, hm, ho⟩ := hlost
  generalize alignLost l d = e at h1 ha hm ho ⊢
  obtain ⟨h2, a, b, c, hx⟩ := loseAlign_rest (l := l) d e
  refine ⟨(h1.trans h2).mono ?_, by rw [hx]; exact ha, by rw [hx]; exact hm, ?_⟩
  · exact fun f hf => List.mem_map_of_mem (by simp [laneRegs, chkRegs] at hf ⊢; rcases hf with h | h | h | h <;> simp [h])
  · rw [h2.on (align_book hl _ (by simp)) (by simp [Fld.key, R.LNE.STATUS.ALIGN_LOST, R.LNE.STATUS.STATE]), ho]

/-! ## Missing markers -/

/-- A marker that is missed but does not lose the lock, and one that does. -/
theorem missMarker_lane {l : Nat} (hl : l < 60) (d : Dev) :
    LaneStep l (laneRegs l) d (missMarker l d) ∧
    (if (d.laneS l).amLock = true ∧ 4 ≤ (d.laneS l).missed + 1 then
      ((missMarker l d).laneS l).amLock = false ∧ (missMarker l d).on (R.LNE.STATUS.ALIGN_LOST l) = true
    else ((missMarker l d).laneS l).amLock = (d.laneS l).amLock ∧ ((missMarker l d).laneS l).missed = (d.laneS l).missed + 1 ∧
      (missMarker l d).on (R.LNE.STATUS.ALIGN_LOST l) = d.on (R.LNE.STATUS.ALIGN_LOST l)) := by
  unfold missMarker
  dsimp only
  generalize hx : ({ d.laneS l with missed := (d.laneS l).missed + 1, rxAt := 0, rxBip := 0, skipBip := true
                                    lastAm := (d.laneS l).lastAm.map (fun x => ((x.1 + 1) % 65536, x.2)) } : LaneS) = x
  obtain ⟨h1, a, b, y, z, hbx⟩ := berPeriod_lane hl (setLane l x d)
  rw [laneS_setLane] at hbx
  have hs : LaneStep l [R.LNE.STATUS.SEQ l, R.LNE.STATUS.BER_HIGH l] d (berPeriod l (setLane l x d)) := (laneStep_setLane l x d).trans h1
  have hs' : LaneStep l (laneRegs l) d (berPeriod l (setLane l x d)) := hs.mono fun f hf =>
    List.mem_map_of_mem (by simp at hf; rcases hf with rfl | rfl <;> simp [laneRegs])
  have hon := hs.on (f := R.LNE.STATUS.ALIGN_LOST l) (align_book hl _ (by simp))
    (by simp [Fld.key, R.LNE.STATUS.ALIGN_LOST, R.LNE.STATUS.SEQ, R.LNE.STATUS.BER_HIGH])
  generalize berPeriod l (setLane l x d) = e at hbx hs' hon ⊢
  by_cases hc : (d.laneS l).amLock = true ∧ 4 ≤ (d.laneS l).missed + 1
  · rw [if_pos hc, if_pos hc]
    obtain ⟨h2, ha, -, ho⟩ := loseAlign_lane hl e
    exact ⟨hs'.append h2, ha, ho⟩
  · rw [if_neg hc, if_neg hc]
    exact ⟨hs', by rw [hbx, ← hx], by rw [hbx, ← hx], hon⟩

/-- Markers that are missed in a row. -/
theorem each_missMarker {l : Nat} (hl : l < 60) {xs : List Nat} {d : Dev} :
    ((d.laneS l).amLock = false ∧ d.on (R.LNE.STATUS.ALIGN_LOST l) = true →
      ((each (fun _ => missMarker l) xs d).laneS l).amLock = false ∧ (each (fun _ => missMarker l) xs d).on (R.LNE.STATUS.ALIGN_LOST l) = true) ∧
    ((d.laneS l).amLock = true → (d.laneS l).missed < 4 →
      (4 ≤ (d.laneS l).missed + xs.length → ((each (fun _ => missMarker l) xs d).laneS l).amLock = false ∧
        (each (fun _ => missMarker l) xs d).on (R.LNE.STATUS.ALIGN_LOST l) = true) ∧
      ((d.laneS l).missed + xs.length < 4 → ((each (fun _ => missMarker l) xs d).laneS l).amLock = true ∧
        ((each (fun _ => missMarker l) xs d).laneS l).missed = (d.laneS l).missed + xs.length)) := by
  induction xs generalizing d with
  | nil => exact ⟨id, fun ha hm => ⟨fun h => absurd h (by simp; omega), fun _ => ⟨ha, rfl⟩⟩⟩
  | cons x xs ih =>
    obtain ⟨-, hstep⟩ := missMarker_lane hl d
    obtain ⟨hoff, hrun⟩ := ih (d := missMarker l d)
    rw [each, List.length_cons]
    refine ⟨fun ⟨ha, ho⟩ => ?_, fun ha hm => ?_⟩
    · rw [if_neg (by rw [ha]; simp)] at hstep
      exact hoff ⟨hstep.1.trans ha, hstep.2.2.trans ho⟩
    · by_cases h4 : 4 ≤ (d.laneS l).missed + 1
      · rw [if_pos ⟨ha, h4⟩] at hstep
        exact ⟨fun _ => hoff hstep, fun h => absurd h (by omega)⟩
      · rw [if_neg fun h => h4 h.2] at hstep
        obtain ⟨ha', hm', -⟩ := hstep
        obtain ⟨hlong, hshort⟩ := hrun (ha'.trans ha) (by omega)
        rw [hm'] at hlong hshort
        exact ⟨fun h => hlong (by omega), fun h => (hshort (by omega)).imp_right fun h => by rw [h]; omega⟩

/-! ## What linking up a port leaves of the alignment -/

/-- The alignment lock and the last marker of every lane stay. -/
structure KeepsAm (d e : Dev) : Prop where
  lane : ∀ k, (e.laneS k).amLock = (d.laneS k).amLock ∧ (e.laneS k).lastAm = (d.laneS k).lastAm

section
variable {d e g : Dev}

theorem keepsAm_refl (d : Dev) : KeepsAm d d := ⟨fun _ => ⟨rfl, rfl⟩⟩

theorem keepsAm_trans (h : KeepsAm d e) (h' : KeepsAm e g) : KeepsAm d g :=
  ⟨fun k => ⟨(h'.lane k).1.trans (h.lane k).1, (h'.lane k).2.trans (h.lane k).2⟩⟩

theorem keepsAm_of_lane (h : e.lane = d.lane) : KeepsAm d e := ⟨fun k => by
  rw [Dev.laneS, Dev.laneS, h]
  exact ⟨rfl, rfl⟩⟩

theorem keepsAm_setLane {l : Nat} {x : LaneS} (ha : x.amLock = (d.laneS l).amLock) (hm : x.lastAm = (d.laneS l).lastAm) : KeepsAm d (setLane l x d) := by
  refine ⟨fun k => ?_⟩
  by_cases hk : k = l
  · rw [hk, laneS_setLane]
    exact ⟨ha, hm⟩
  · rw [laneS_setLane_ne _ _ _ _ hk]
    exact ⟨rfl, rfl⟩

theorem keepsAm_when (c : Bool) {F : Dev → Dev} (h : KeepsAm d (F d)) : KeepsAm d (when c F d) := by
  cases c with
  | true => exact h
  | false => exact keepsAm_refl d

theorem keepsAm_each {α : Type} {F : α → Dev → Dev} (h : ∀ x d, KeepsAm d (F x d)) (xs : List α) (d : Dev) : KeepsAm d (each F xs d) := by
  induction xs generalizing d with
  | nil => exact keepsAm_refl d
  | cons x xs ih => exact keepsAm_trans (h x d) (ih _)

end

theorem keepsAm_put (f : Fld) (v : Nat) (d : Dev) : KeepsAm d (put f v d) := keepsAm_of_lane rfl

theorem keepsAm_takeFree (d : Dev) : KeepsAm d (takeFree d) := keepsAm_of_lane rfl

theorem keepsAm_setPort (p : Nat) (x : PortS) (d : Dev) : KeepsAm d (setPort p x d) := keepsAm_of_lane rfl

theorem keepsAm_emit (o : Out) (d : Dev) : KeepsAm d (emit o d) := keepsAm_of_lane rfl

theorem keepsAm_lnePerf {l : Nat} (hl : l < 60) (code n : Nat) (d : Dev) : KeepsAm d (lnePerf l code n d) :=
  keepsAm_of_lane (lane_of_leaves (leaves_lnePerf hl ..))

theorem keepsAm_setTx (l : Nat) (t : TxS) (d : Dev) : KeepsAm d (setTx l t d) := keepsAm_setLane rfl rfl

theorem keepsAm_txLeave {l : Nat} (hl : l < 60) (b : Blk) (d : Dev) : KeepsAm d (txLeave l b d) :=
  keepsAm_trans (keepsAm_setTx l _ d) (keepsAm_lnePerf hl ..)

theorem keepsAm_txCoded {l : Nat} (hl : l < 60) (b : Blk) (d : Dev) : KeepsAm d (txCoded l b d).2 := by
  unfold txCoded
  dsimp only
  refine keepsAm_trans (keepsAm_trans ?_ (keepsAm_setTx ..)) (keepsAm_txLeave hl ..)
  exact keepsAm_when _ (keepsAm_takeFree d)

theorem keepsAm_txBlock {l : Nat} (hl : l < 60) (b : Blk) (d : Dev) : KeepsAm d (txBlock l b d).2 := by
  unfold txBlock
  dsimp only
  exact keepsAm_trans (keepsAm_setTx l _ d) (keepsAm_txCoded hl _ _)

theorem keepsAm_txMarker {l : Nat} (hl : l < 60) (d : Dev) : KeepsAm d (txMarker l d).2 := by
  unfold txMarker
  dsimp only
  split
  · exact keepsAm_setTx ..
  · generalize markerBlk _ _ _ = m
    dsimp only
    have hset := fun t => keepsAm_setTx l t d
    generalize setTx l = F at hset ⊢
    exact keepsAm_trans (hset _) (keepsAm_txLeave hl m _)

theorem keepsAm_txStream {l : Nat} (hl : l < 60) (b : Blk) (d : Dev) : KeepsAm d (txStream l b d) := by
  unfold txStream
  split
  · exact keepsAm_trans (keepsAm_txMarker hl d) (keepsAm_txBlock hl ..)
  · exact keepsAm_txBlock hl ..

theorem keepsAm_sendMsg {p : Nat} (hp : p < 12) (code : Nat) (body : List Byte) (d : Dev) : KeepsAm d (sendMsg p code body d) := by
  unfold sendMsg
  split
  · exact keepsAm_trans (keepsAm_each (keepsAm_txStream (by omega)) _ d) (keepsAm_trans (keepsAm_emit ..) (keepsAm_setPort ..))
  · exact keepsAm_refl d

theorem keepsAm_sendMask {p : Nat} (hp : p < 12) (mask : Nat) (d : Dev) : KeepsAm d (sendMask p mask d) := by
  unfold sendMask
  exact keepsAm_trans (keepsAm_sendMsg hp ..) (keepsAm_when _ (keepsAm_setPort ..))

theorem keepsAm_joinLane {l : Nat} (hl : l < 60) (d : Dev) : KeepsAm d (joinLane l d) := by
  unfold joinLane
  split
  · refine keepsAm_trans ?_ (keepsAm_put ..)
    exact keepsAm_setLane rfl rfl
  split
  · exact keepsAm_refl d
  · refine keepsAm_trans (keepsAm_trans (keepsAm_trans ?_ (keepsAm_put ..)) (keepsAm_of_lane (lane_of_leaves (leaves_event ..)))) (keepsAm_lnePerf hl ..)
    exact keepsAm_setLane rfl rfl

theorem named_lt {d : Dev} {p l : Nat} (hp : p < 12) (h : l ∈ d.named p) : l < 48 := by
  have hl := (List.mem_filter.mp h).1
  simp only [lanesOf, List.mem_cons, List.not_mem_nil, or_false] at hl
  omega

theorem keepsAm_linkUp {p : Nat} (hp : p < 12) (d : Dev) : KeepsAm d (linkUp p d) := by
  have hjoin : ∀ xs : List Nat, (∀ l ∈ xs, l < 48) → ∀ d, KeepsAm d (each joinLane xs d) := by
    intro xs
    induction xs with
    | nil => exact fun _ d => keepsAm_refl d
    | cons x xs ih =>
      exact fun h d => keepsAm_trans (keepsAm_joinLane (by have := h x List.mem_cons_self; omega) d)
        (ih (fun l hl => h l (List.mem_cons_of_mem _ hl)) _)
  unfold linkUp portState
  dsimp only
  exact keepsAm_trans (keepsAm_trans (keepsAm_trans (hjoin _ (fun l hl => named_lt hp hl) d) (keepsAm_sendMsg hp ..)) (keepsAm_sendMask hp ..))
    (keepsAm_trans (keepsAm_setPort ..) (keepsAm_put ..))

theorem keepsAm_serve {l : Nat} (hl : l < 48) (d : Dev) : KeepsAm d (serve l d) := by
  have hp : portOf l < 12 := by unfold portOf; omega
  unfold serve widen
  dsimp only
  split
  · split
    · exact keepsAm_linkUp hp d
    · exact keepsAm_refl d
  · have hput : KeepsAm d (put (R.LNE.STATUS.STATE l) 5 d) := keepsAm_of_lane rfl
    refine keepsAm_trans hput ?_
    generalize put (R.LNE.STATUS.STATE l) 5 d = e
    split
    · split
      · exact keepsAm_linkUp hp e
      · exact keepsAm_refl e
    split
    · refine keepsAm_trans (keepsAm_trans ?_ (keepsAm_put ..)) (keepsAm_when _ (keepsAm_setPort ..))
      exact keepsAm_setLane rfl rfl
    · exact keepsAm_refl e

end Sys2Proof.Proofs
end

section
/-!
A lane takes alignment markers, and comes up.
-/
namespace Sys2Proof.Proofs
open Sys2Proof Sys2Proof.Machine

/-! ## A marker that is taken -/

/-- The device of a lane that has taken a marker, before what alignment lock brings. -/
def markerTaken (l slotNo : Nat) (m : Nat × Nat × Nat) (lock : Bool) (d : Dev) : Dev :=
  let x := d.laneS l
  let errs := if x.skipBip then 0 else ones8 (x.rxBip ^^^ m.2.2)
  let d := lnePerf l 3 errs (inc (R.LNE.ERR_BIP.COUNT l) errs (lnePerf l 4 1 d))
  let d := setLane l { d.laneS l with
    lastAm := some (m.2.1, m.1), skipBip := false, missed := 0, amSlot := some (m.2.1, slotNo), amLock := lock, rxAt := 0, rxBip := 0
    cleanSince := if errs = 0 then x.cleanSince else x.cleanSince.map (fun _ => d.dt) } d
  patLock l (berPeriod l (put (R.LNE.ALIGN.AM_COUNT l) m.2.1 (put (R.LNE.ALIGN.LOGICAL l) m.1 d)))

/-- What alignment lock brings. -/
def markerLocks (l slotNo : Nat) (m : Nat × Nat × Nat) (phase : Nat) (d : Dev) : Dev :=
  if !(d.laneS l).amLock || !isUplink l then d
  else if !(d.sameLogical l m.1).isEmpty then each loseAlign (l :: d.sameLogical l m.1) d
  else if phase ≥ 5 ∨ d.get (R.LNE.STATUS.STATE l) = 6 then deskew l (d.skewOf l m.2.1 slotNo) d
  else d

theorem rxMarker_first {l slotNo : Nat} {m : Nat × Nat × Nat} {d : Dev} (ha : (d.laneS l).amLock = false) (hm : (d.laneS l).lastAm = none) :
    rxMarker l slotNo m d = markerLocks l slotNo m (d.laneS l).phase (markerTaken l slotNo m false d) := by
  unfold rxMarker markerLocks markerTaken
  simp only [ha, hm, Bool.false_and, Bool.false_eq_true, if_false, Bool.or_self]

theorem rxMarker_follows {l slotNo lane count bip : Nat} {d : Dev} (ha : (d.laneS l).amLock = false) (hm : (d.laneS l).lastAm = some (count, lane))
    (hat : (d.laneS l).rxAt = 16383) :
    rxMarker l slotNo (lane, (count + 1) % 65536, bip) d =
      markerLocks l slotNo (lane, (count + 1) % 65536, bip) (d.laneS l).phase (markerTaken l slotNo (lane, (count + 1) % 65536, bip) true d) := by
  unfold rxMarker markerLocks markerTaken
  simp only [ha, hm, hat, decide_true, Bool.and_self, Bool.false_and, Bool.false_eq_true, if_false, Bool.or_true]

theorem markerTaken_lane {l : Nat} (hl : l < 60) (slotNo : Nat) (m : Nat × Nat × Nat) (lock : Bool) (d : Dev) :
    LaneStep l (laneRegs l) d (markerTaken l slotNo m lock d) ∧
    ((markerTaken l slotNo m lock d).laneS l).lastAm = some (m.2.1, m.1) ∧ ((markerTaken l slotNo m lock d).laneS l).amLock = lock ∧
    (markerTaken l slotNo m lock d).get (R.LNE.ALIGN.LOGICAL l) = m.1 % 4 ∧
    (markerTaken l slotNo m lock d).get (R.LNE.ALIGN.AM_COUNT l) = m.2.1 % 65536 := by
  unfold markerTaken
  dsimp only
  generalize (if (d.laneS l).skipBip = true then 0 else ones8 ((d.laneS l).rxBip ^^^ m.2.2)) = errs
  have hbip : LaneStep l [R.LNE.ERR_BIP.COUNT l] d (lnePerf l 3 errs (inc (R.LNE.ERR_BIP.COUNT l) errs (lnePerf l 4 1 d))) :=
    ((laneStep_lnePerf hl ..).trans ((laneStep_put ..).trans (laneStep_lnePerf hl ..))).mono (by simp)
  generalize lnePerf l 3 errs (inc (R.LNE.ERR_BIP.COUNT l) errs (lnePerf l 4 1 d)) = e at hbip ⊢
  generalize hx : ({ e.laneS l with
    lastAm := some (m.2.1, m.1), skipBip := false, missed := 0, amSlot := some (m.2.1, slotNo), amLock := lock, rxAt := 0, rxBip := 0
    cleanSince := if errs = 0 then (d.laneS l).cleanSince else (d.laneS l).cleanSince.map (fun _ => e.dt) } : LaneS) = x
  have hput : LaneStep l [R.LNE.ALIGN.LOGICAL l, R.LNE.ALIGN.AM_COUNT l] e
      (put (R.LNE.ALIGN.AM_COUNT l) m.2.1 (put (R.LNE.ALIGN.LOGICAL l) m.1 (setLane l x e))) :=
    ((laneStep_setLane ..).trans ((laneStep_put ..).trans (laneStep_put ..))).mono (by simp)
  have hlane : (put (R.LNE.ALIGN.AM_COUNT l) m.2.1 (put (R.LNE.ALIGN.LOGICAL l) m.1 (setLane l x e))).laneS l = x := laneS_setLane ..
  have hcount : (put (R.LNE.ALIGN.AM_COUNT l) m.2.1 (put (R.LNE.ALIGN.LOGICAL l) m.1 (setLane l x e))).get (R.LNE.ALIGN.AM_COUNT l) = m.2.1 % 65536 :=
    get_put_self ..
  have hlogical : (put (R.LNE.ALIGN.AM_COUNT l) m.2.1 (put (R.LNE.ALIGN.LOGICAL l) m.1 (setLane l x e))).get (R.LNE.ALIGN.LOGICAL l) = m.1 % 4 :=
    (get_put_ne (by simp [Fld.key, R.LNE.ALIGN.LOGICAL, R.LNE.ALIGN.AM_COUNT]) ..).trans (get_put_self ..)
  generalize put (R.LNE.ALIGN.AM_COUNT l) m.2.1 _ = g at hput hlane hcount hlogical ⊢
  obtain ⟨hber, a, b, y, z, hberx⟩ := berPeriod_lane hl g
  obtain ⟨hpat, hpatx⟩ := patLock_lane l (berPeriod l g)
  have hbx : (patLock l (berPeriod l g)).laneS l = { x with hdrErrs := a, badPeriods := b, loss := y, lossCause := z } := by
    rw [hpatx, hberx, hlane]
  have hrest := hber.trans hpat
  have hkeep : ∀ f ∈ [R.LNE.ALIGN.LOGICAL l, R.LNE.ALIGN.AM_COUNT l], (patLock l (berPeriod l g)).get f = g.get f := by
    simp only [List.mem_cons, List.not_mem_nil, or_false, forall_eq_or_imp, forall_eq]
    refine ⟨hrest.get (book_lne (o := 0x1c) hl (by decide) (by decide)) ?_, hrest.get (book_lne (o := 0x1c) hl (by decide) (by decide)) ?_⟩ <;>
      simp [Fld.key, R.LNE.ALIGN.LOGICAL, R.LNE.ALIGN.AM_COUNT, R.LNE.PAT_STATUS.LOCK, R.LNE.STATUS.SEQ, R.LNE.STATUS.BER_HIGH] <;> omega
  refine ⟨((hbip.trans hput).trans hrest).mono fun f hf => List.mem_map_of_mem ?_, ?_, ?_, ?_, ?_⟩
  · simp at hf
    simp [laneRegs, chkRegs]
    rcases hf with h | h | h | h | h | h <;> simp [h]
  · rw [hbx, ← hx]
  · rw [hbx, ← hx]
  · exact (hkeep _ (by simp)).trans hlogical
  · exact (hkeep _ (by simp)).trans hcount

theorem keepsAm_lossClears {l : Nat} (hl : l < 60) (c : Nat) (d : Dev) : KeepsAm d (lossClears l c d) := by
  unfold lossClears
  dsimp only
  generalize (if bit (d.laneS l).lossCause c = true then (d.laneS l).lossCause - 2 ^ c else (d.laneS l).lossCause) = k
  split
  · refine keepsAm_trans ?_ (keepsAm_lnePerf hl ..)
    exact keepsAm_setLane rfl rfl
  · exact keepsAm_setLane rfl rfl

theorem keepsAm_lossAppears (l c : Nat) (d : Dev) : KeepsAm d (lossAppears l c d) := by
  unfold lossAppears
  dsimp only
  split
  · exact keepsAm_setLane rfl rfl
  · exact keepsAm_refl d

theorem keepsAm_deskew {l : Nat} (hl : l < 48) (skew : Nat) (d : Dev) : KeepsAm d (deskew l skew d) := by
  unfold deskew
  dsimp only
  have hshow : KeepsAm d (when (decide (15 < skew)) (event 8 (R.LNE.STATUS.SEQ l) [R.LNE.STATUS.SKEW_LIMIT l]) (put (R.LNE.ALIGN.SKEW l) (min 15 skew) d)) :=
    keepsAm_trans (keepsAm_put ..) (keepsAm_when _ (keepsAm_of_lane (lane_of_leaves (leaves_event ..))))
  have hlane := hshow.lane l
  generalize when _ _ (put (R.LNE.ALIGN.SKEW l) (min 15 skew) d) = e at hshow hlane ⊢
  refine keepsAm_trans hshow ?_
  split
  · have hloss : KeepsAm e (if decide ((d.laneS l).skew + 1 < skew ∨ skew + 1 < (d.laneS l).skew) = true then lossAppears l 3 e else lossClears l 3 e) := by
      split
      · exact keepsAm_lossAppears ..
      · exact keepsAm_lossClears (by omega) ..
    generalize (if decide ((d.laneS l).skew + 1 < skew ∨ skew + 1 < (d.laneS l).skew) = true then lossAppears l 3 e else lossClears l 3 e) = g at hloss ⊢
    refine keepsAm_trans hloss (keepsAm_trans ?_ (keepsAm_lossClears (by omega) ..))
    exact keepsAm_setLane rfl rfl
  split
  · exact keepsAm_setLane hlane.1.symm hlane.2.symm
  · refine keepsAm_trans ?_ (keepsAm_serve hl ..)
    exact keepsAm_setLane hlane.1.symm hlane.2.symm

/-- Alignment lock keeps the marker where no other lane of the port carries its LANE. -/
theorem keepsAm_markerLocks {l : Nat} (slotNo : Nat) {m : Nat × Nat × Nat} (phase : Nat) {d : Dev} (hsame : 48 ≤ l ∨ d.sameLogical l m.1 = []) :
    KeepsAm d (markerLocks l slotNo m phase d) := by
  unfold markerLocks
  by_cases hup : l < 48
  · have hnone : d.sameLogical l m.1 = [] := hsame.resolve_left (by omega)
    rw [hnone]
    simp only [List.isEmpty_nil, Bool.not_true, Bool.false_eq_true, if_false]
    split
    · exact keepsAm_refl d
    split
    · exact keepsAm_deskew hup ..
    · exact keepsAm_refl d
  · rw [if_pos (by simp [isUplink, hup])]
    exact keepsAm_refl d

/-! ## Blocks of a locked lane -/

theorem header_of_marker {b : Blk} {m : Nat × Nat × Nat} (h : markerOf b = some m) : b.hdr = 1#2 ∨ b.hdr = 2#2 := by
  unfold markerOf at h
  dsimp only at h
  split at h
  · next hc => exact .inr hc.1
  · exact absurd h (by simp)

theorem lane_of_marker {b : Blk} {lane count bip : Nat} (h : markerOf b = some (lane, count, bip)) : lane < 4 ∧ count < 65536 := by
  unfold markerOf at h
  dsimp only at h
  split at h
  · next hc =>
    simp only [Option.some.injEq, Prod.mk.injEq] at h
    obtain ⟨hlane, hcount, -⟩ := h
    exact ⟨hlane ▸ hc.2.2.2.2.2, hcount ▸ Nat.mod_lt _ (by decide)⟩
  · exact absurd h (by simp)

theorem blockRegs_in_laneRegs {l : Nat} : ∀ f ∈ blockRegs l, f.key ∈ (laneRegs l).map Fld.key := by
  intro f hf
  refine List.mem_map_of_mem ?_
  simp only [blockRegs, laneRegs, List.mem_cons, List.mem_append] at hf ⊢
  rcases hf with rfl | hf
  · exact .inl (.inr (.inl rfl))
  · exact .inr hf

theorem not_blockRegs {o l lo w : Nat} (ho : o < 8 ∨ 8 < o ∧ o < 0x34 ∨ 0x40 < o) (hlo : lo < 64) :
    Fld.key ⟨o + 0x200000 + 0x4000 * l, lo, w⟩ ∉ (blockRegs l).map Fld.key := by
  rw [blockRegs, List.map_cons, List.mem_cons, not_or]
  refine ⟨?_, not_chkRegs (by omega) hlo⟩
  simp only [Fld.key, R.LNE.STATUS.STATE]
  omega

section
variable {l : Nat} (hl : l < 60) (slotNo : Nat) {b : Blk} {d : Dev} (hloop : d.looped l = false)
  (hlock : (d.laneS l).blockLock = true) (hfew : ((d.laneS l).window.filter (fun x => !x)).length < 16)
include hl hloop hlock hfew

/-- A marker at a locked lane: its header is good, then the marker is looked at. -/
theorem rxBlock_marker {m : Nat × Nat × Nat} (hm : markerOf (polarity (d.on (R.LNE.CTL.RX_INV l)) b) = some m) :
    ∃ e, LaneStep l (blockRegs l) d e ∧ (e.laneS l).amLock = (d.laneS l).amLock ∧ (e.laneS l).lastAm = (d.laneS l).lastAm ∧
      (e.laneS l).rxAt = (d.laneS l).rxAt ∧ rxBlock l slotNo b d = rxMarker l slotNo m e := by
  obtain ⟨hb, hstep, hx⟩ := rxIn_plain hl b hloop
  unfold rxBlock
  dsimp only
  rw [hx, hb, if_pos (by rw [hlock, hm]; rfl), hm]
  generalize (rxIn l b d).2 = d1 at hstep hx ⊢
  generalize polarity (d.on (R.LNE.CTL.RX_INV l)) b = b' at hm ⊢
  have hfeed : Checks l (lnePerf l 1 1 d1) (each (feedBit l) (if d1.get (R.LNE.PAT_CTL.PMA_CHK l) = 0 then [] else blockBits b') (lnePerf l 1 1 d1)) :=
    checks_each (checks_feedBit l) ..
  have hperf := laneStep_lnePerf hl 1 1 d1
  have hx2 : (lnePerf l 1 1 d1).laneS l = d.laneS l := (laneS_of_leaves (leaves_lnePerf hl ..) l).trans hx
  generalize lnePerf l 1 1 d1 = d2 at hfeed hperf hx2 ⊢
  generalize each (feedBit l) _ d2 = d3 at hfeed ⊢
  have hkeep : ∀ {α : Type} (π : LaneS → α), (∀ x, π (core x) = π x) → π (d3.laneS l) = π (d.laneS l) := fun π h =>
    (checks_lane hfeed π h).trans (congrArg π hx2)
  obtain ⟨heq, -⟩ := feedHeader_keep (d := d3) (l := l) (header_of_marker hm) ((hkeep LaneS.blockLock fun _ => rfl).trans hlock)
    (by rw [hkeep LaneS.window fun _ => rfl]; exact hfew)
  obtain ⟨hdone, p, t, hdx⟩ := blockDone_lane l (setLane l { d3.laneS l with window := (true :: (d3.laneS l).window).take 64 } d3)
  rw [laneS_setLane, ← heq] at hdx
  rw [← heq] at hdone
  generalize feedHeader l b'.hdr d3 = e at hdone hdx ⊢
  refine ⟨e, (((hstep.trans hperf).trans hfeed.step).trans ((laneStep_setLane ..).trans hdone)).mono ?_, ?_, ?_, ?_, ?_⟩
  · intro f hf
    refine List.mem_map_of_mem ?_
    simp only [List.nil_append, List.mem_append, blockRegs, List.mem_cons, List.not_mem_nil, or_false] at hf ⊢
    exact hf.symm
  · rw [hdx]
    exact hkeep LaneS.amLock fun _ => rfl
  · rw [hdx]
    exact hkeep LaneS.lastAm fun _ => rfl
  · rw [hdx]
    exact hkeep LaneS.rxAt fun _ => rfl
  · rw [if_neg (by rw [hdx]; simp only [hkeep LaneS.blockLock fun _ => rfl, hlock]; decide)]

/-- A good block of a locked lane that is no marker and does not stand in the place of one. -/
theorem rxBlock_good (hok : b.hdr = 1#2 ∨ b.hdr = 2#2) (hm : markerOf (polarity (d.on (R.LNE.CTL.RX_INV l)) b) = none)
    (hplace : (d.laneS l).rxAt ≠ 16383) :
    LaneStep l (blockRegs l) d (rxBlock l slotNo b d) ∧ ((rxBlock l slotNo b d).laneS l).blockLock = true ∧
    (((rxBlock l slotNo b d).laneS l).window.filter (fun x => !x)).length < 16 ∧
    ((rxBlock l slotNo b d).laneS l).amLock = (d.laneS l).amLock ∧ ((rxBlock l slotNo b d).laneS l).lastAm = (d.laneS l).lastAm ∧
    ((rxBlock l slotNo b d).laneS l).rxAt = (d.laneS l).rxAt + 1 := by
  obtain ⟨d', e, bip, hstep, hx, he, hc⟩ := rxBlock_checks hl slotNo hloop (.inr ⟨hm, .inl hplace⟩)
  rw [← hx] at hlock hfew
  obtain ⟨heq, hw⟩ := feedHeader_keep (header_of_polarity (inv := d.on (R.LNE.CTL.RX_INV l)) hok) hlock hfew
  obtain ⟨hdone, p, t, hdx⟩ := blockDone_lane l (setLane l { d'.laneS l with window := (true :: (d'.laneS l).window).take 64 } d')
  rw [laneS_setLane, ← heq, ← he] at hdx
  rw [← heq, ← he] at hdone
  refine ⟨((hstep.trans ((laneStep_setLane ..).trans hdone)).trans ((laneStep_setLane ..).trans hc.step)).mono ?_, ?_, ?_, ?_, ?_, ?_⟩
  · exact fun f hf => List.mem_map_of_mem (by simpa [blockRegs] using hf)
  · rw [checks_lane hc LaneS.blockLock (fun _ => rfl), laneS_setLane, hdx]
    exact hlock
  · rw [checks_lane hc LaneS.window (fun _ => rfl), laneS_setLane, hdx]
    exact hw
  · rw [checks_lane hc LaneS.amLock (fun _ => rfl), laneS_setLane, hdx, hx]
  · rw [checks_lane hc LaneS.lastAm (fun _ => rfl), laneS_setLane, hdx, hx]
  · rw [checks_lane hc LaneS.rxAt (fun _ => rfl), laneS_setLane, hdx, hx]

end

/-- Good blocks between two markers. -/
theorem each_good {l : Nat} (hl : l < 60) (slotNo : Nat) {rx : List Blk} {d : Dev} (hloop : d.looped l = false)
    (hlock : (d.laneS l).blockLock = true) (hfew : ((d.laneS l).window.filter (fun x => !x)).length < 16)
    (hrx : ∀ x ∈ rx, (x.hdr = 1#2 ∨ x.hdr = 2#2) ∧ markerOf (polarity (d.on (R.LNE.CTL.RX_INV l)) x) = none)
    (hlen : (d.laneS l).rxAt + rx.length ≤ 16383) :
    LaneStep l (blockRegs l) d (each (rxBlock l slotNo) rx d) ∧ ((each (rxBlock l slotNo) rx d).laneS l).blockLock = true ∧
    (((each (rxBlock l slotNo) rx d).laneS l).window.filter (fun x => !x)).length < 16 ∧
    ((each (rxBlock l slotNo) rx d).laneS l).amLock = (d.laneS l).amLock ∧
    ((each (rxBlock l slotNo) rx d).laneS l).lastAm = (d.laneS l).lastAm ∧
    ((each (rxBlock l slotNo) rx d).laneS l).rxAt = (d.laneS l).rxAt + rx.length := by
  induction rx generalizing d with
  | nil => exact ⟨laneStep_refl .., hlock, hfew, rfl, rfl, rfl⟩
  | cons x rx ih =>
    rw [List.length_cons] at hlen
    obtain ⟨hok, hm⟩ := hrx x List.mem_cons_self
    obtain ⟨hs, hl1, hw1, ha1, hm1, hr1⟩ := rxBlock_good hl slotNo hloop hlock hfew hok hm (by omega)
    have hctl : (rxBlock l slotNo x d).on (R.LNE.CTL.RX_INV l) = d.on (R.LNE.CTL.RX_INV l) :=
      hs.on (book_lne (o := 0) hl (by decide) (by decide)) (not_blockRegs (o := 0) (by decide) (by decide))
    have hloop' : (rxBlock l slotNo x d).looped l = false := by
      rw [← hloop, Dev.looped, Dev.looped, hs.get (f := R.LNE.CTL.LPBK l) (book_lne (o := 0) hl (by decide) (by decide)) (not_blockRegs (o := 0) (by decide) (by decide))]
    obtain ⟨hs2, hl2, hw2, ha2, hm2, hr2⟩ := ih hloop' hl1 hw1 (by rw [hctl]; exact fun y hy => hrx y (List.mem_cons_of_mem _ hy)) (by omega)
    refine ⟨hs.append hs2, hl2, hw2, ha2.trans ha1, hm2.trans hm1, ?_⟩
    rw [each, hr2, hr1, List.length_cons]
    omega

/-! ## The commands of bring-up -/

theorem looped_of_blockRegs {l : Nat} (hl : l < 60) {d e : Dev} (h : LaneStep l (blockRegs l) d e) : e.looped l = d.looped l := by
  rw [Dev.looped, Dev.looped, h.get (f := R.LNE.CTL.LPBK l) (book_lne (o := 0) hl (by decide) (by decide)) (not_blockRegs (o := 0) (by decide) (by decide))]

theorem sameLogical_of_step {l lane : Nat} (hl : l < 48) {d e : Dev} (h : LaneStep l (laneRegs l) d e) : e.sameLogical l lane = d.sameLogical l lane := by
  refine List.filter_congr fun k hk => ?_
  by_cases hkl : k = l
  · simp [hkl]
  · have hk48 : k < 48 := by
      simp only [lanesOf, portOf, List.mem_cons, List.not_mem_nil, or_false] at hk
      omega
    rw [h.others k hk48 hkl, h.get_other (f := R.LNE.ALIGN.LOGICAL k) (book_lne (o := 0x1c) (by omega) (by decide) (by decide))]
    simp only [Fld.key, R.LNE.ALIGN.LOGICAL]
    omega

theorem laneS_after (s : State) (d : Dev) (l : Nat) : (s.after d).dev.laneS l = d.laneS l := rfl

theorem signalDetect_completes (l : Fin 48) (s : State) (hp : (s.dev.laneS l.val).phase = 1) :
    Completes (.signalDetect l) s (fun t =>
      (t.dev.laneS l.val).phase = 2 ∧ (t.dev.laneS l.val).signal = true ∧ (t.dev.laneS l.val).signalAt = s.dev.dt ∧
      (s.dev.get (R.LNE.STATUS.STATE l.val) = 1 → t.dev.get (R.LNE.STATUS.STATE l.val) = 2) ∧
      Frame [R.LNE.STATUS.STATE l.val] { s.dev with lane := t.dev.lane, port := t.dev.port } s t) := by
  refine completes_to (exec_signalDetect ..) _ (if_pos hp) ?_
  dsimp only
  generalize hx : ({ s.dev.laneS l.val with signal := true, signalAt := s.dev.dt } : LaneS) = x
  generalize hg : setPort (portOf l.val) _ (setLane l.val x s.dev) = g
  have hxg : g.laneS l.val = x := by rw [← hg]; exact laneS_setLane ..
  have hget : g.get (R.LNE.STATUS.STATE l.val) = s.dev.get (R.LNE.STATUS.STATE l.val) := by rw [← hg]; rfl
  have hstep := laneStep_lanePhase l.val 2 g
  have hlane := laneS_lanePhase l.val 2 g
  have hstate := state_lanePhase l.val 2 g
  have hport : (lanePhase l.val 2 g).port = g.port := port_of_leaves (d := withLane [] g) (e := withLane [] (lanePhase l.val 2 g)) (hstep.upto.leaves [])
  have hframe := hstep.upto.leaves (lanePhase l.val 2 g).lane
  generalize lanePhase l.val 2 g = e at hstep hlane hstate hport hframe ⊢
  rw [laneS_after, hlane, hxg, ← hx]
  refine ⟨rfl, rfl, rfl, fun h => ?_, ?_⟩
  · rw [hget, h] at hstate
    exact (get_after ..).trans hstate
  · refine frame_of_leaves (?_ : Leaves _ { s.dev with lane := e.lane, port := e.port } e) s
    rw [hport, ← hg]
    rw [← hg] at hframe
    exact hframe

theorem cdrLock_completes (l : Fin 48) (ctle : BitVec 4) (s : State) (hp : (s.dev.laneS l.val).phase = 2) :
    Completes (.cdrLock l ctle) s (fun t =>
      (t.dev.laneS l.val).phase = 3 ∧ (t.dev.laneS l.val).run = 0 ∧
      t.dev.get (R.LNE.EQ_CTLE.CODE l.val) = (if s.dev.on (R.LNE.CTL.CTLE_FIX l.val) then s.dev.get (R.LNE.CTL.CTLE_CODE l.val) % 16 else ctle.toNat) ∧
      Frame [R.LNE.STATUS.STATE l.val, R.LNE.EQ_CTLE.CODE l.val] { s.dev with lane := t.dev.lane } s t) := by
  refine completes_to (exec_cdrLock ..) _ (if_pos hp) ?_
  dsimp only
  generalize hc : (if s.dev.on (R.LNE.CTL.CTLE_FIX l.val) = true then s.dev.get (R.LNE.CTL.CTLE_CODE l.val) else ctle.toNat) = code
  have hcode : code % 16 = (if s.dev.on (R.LNE.CTL.CTLE_FIX l.val) then s.dev.get (R.LNE.CTL.CTLE_CODE l.val) % 16 else ctle.toNat) := by
    rw [← hc]
    split
    · rfl
    · exact Nat.mod_eq_of_lt ctle.isLt
  generalize hg : put (R.LNE.EQ_CTLE.CODE l.val) code (setLane l.val { s.dev.laneS l.val with run := 0 } s.dev) = g
  have hgx : g.laneS l.val = { s.dev.laneS l.val with run := 0 } := by rw [← hg]; exact laneS_setLane ..
  have hgc : g.get (R.LNE.EQ_CTLE.CODE l.val) = code % 16 := by rw [← hg]; exact get_put_self ..
  have hgs : LaneStep l.val [R.LNE.EQ_CTLE.CODE l.val] s.dev g := by
    rw [← hg]
    exact (laneStep_setLane ..).trans (laneStep_put ..)
  have hstep := laneStep_lanePhase l.val 3 g
  have hlane := laneS_lanePhase l.val 3 g
  generalize lanePhase l.val 3 g = e at hstep hlane ⊢
  rw [laneS_after, hlane, hgx]
  refine ⟨rfl, rfl, ?_, frame_lane ((hgs.trans hstep).mono (by simp)).upto s⟩
  refine (get_after ..).trans ((hstep.get (book_lne (o := 0x10) (by omega) (by decide) (by decide)) ?_).trans (hgc.trans hcode))
  simp [Fld.key, R.LNE.STATUS.STATE]

theorem blockLock_completes (l : Fin 60) (blks : List Blk) (dfe : BitVec 30) (s : State) (hlen : blks.length = 64)
    (hok : ∀ b ∈ blks, b.hdr = 1#2 ∨ b.hdr = 2#2) (hlock : (s.dev.laneS l.val).blockLock = false) (hrun : (s.dev.laneS l.val).run = 0)
    (hseek : s.dev.seeksLock l.val = true) (hloop : s.dev.looped l.val = false) :
    Completes (.blockLock l blks dfe) s (fun t =>
      (t.dev.laneS l.val).blockLock = true ∧
      (s.dev.get (R.LNE.STATUS.STATE l.val) ≠ 6 → t.dev.get (R.LNE.EQ_DFE.TAPS l.val) = dfe.toNat) ∧
      (s.dev.get (R.LNE.STATUS.STATE l.val) = 6 → t.dev.get (R.LNE.EQ_DFE.TAPS l.val) = s.dev.get (R.LNE.EQ_DFE.TAPS l.val))) := by
  have hl : l.val < 60 := l.isLt
  obtain ⟨xs, b, hxs⟩ : ∃ xs b, blks = xs ++ [b] := ⟨blks.dropLast, blks.getLast (by intro h; simp [h] at hlen),
    (List.dropLast_append_getLast _).symm⟩
  have hlen63 : xs.length = 63 := by
    rw [hxs, List.length_append] at hlen
    simpa using hlen
  obtain ⟨hs, hl1, hr1, hp1⟩ := each_seek hl 0 (blks := xs) (fun x hx => hok x (by rw [hxs]; exact List.mem_append_left _ hx)) hloop hlock (by omega)
  have hd : each (rxBlock l.val 0) blks s.dev = rxBlock l.val 0 b (each (rxBlock l.val 0) xs s.dev) := by rw [hxs, each_append]; rfl
  generalize each (rxBlock l.val 0) xs s.dev = e at hs hl1 hr1 hp1 hd
  have hctl : e.get (R.LNE.CTL.LPBK l.val) = s.dev.get (R.LNE.CTL.LPBK l.val) := hs.get (book_lne (o := 0) hl (by decide) (by decide)) (not_chkRegs (o := 0) (by decide) (by decide))
  have hseek' : e.seeksLock l.val = true := by
    rw [← hseek, Dev.seeksLock, Dev.seeksLock, hp1,
      hs.on (f := R.LNE.CTL.EN l.val) (book_lne (o := 0) hl (by decide) (by decide)) (not_chkRegs (o := 0) (by decide) (by decide)),
      hs.get (f := R.LNE.STATUS.STATE l.val) (book_lne (o := 8) hl (by decide) (by decide)) (not_chkRegs (o := 8) (by decide) (by decide))]
  obtain ⟨hgain, hgl⟩ := rxBlock_gain hl 0 (b := b) (d := e) (by rw [← hloop, Dev.looped, Dev.looped, hctl])
    (hok b (by rw [hxs]; simp)) hl1 (by rw [hr1, hrun, hlen63]) hseek'
  have htaps : (rxBlock l.val 0 b e).get (R.LNE.EQ_DFE.TAPS l.val) = s.dev.get (R.LNE.EQ_DFE.TAPS l.val) :=
    (hgain.get (book_lne (o := 0x14) hl (by decide) (by decide)) (not_blockRegs (o := 0x14) (by decide) (by decide))).trans
      (hs.get (book_lne (o := 0x14) hl (by decide) (by decide)) (not_chkRegs (o := 0x14) (by decide) (by decide)))
  generalize rxBlock l.val 0 b e = g at hgl htaps hd
  refine completes_to (exec_blockLock ..) (when (s.dev.get (R.LNE.STATUS.STATE l.val) != 6) (put (R.LNE.EQ_DFE.TAPS l.val) dfe.toNat) g) ?_ ?_
  · dsimp only
    rw [hd, hlock, hgl]
    rfl
  · refine ⟨?_, fun hne => ?_, fun heq => ?_⟩
    · rw [laneS_after, ← hgl]
      cases s.dev.get (R.LNE.STATUS.STATE l.val) != 6 <;> rfl
    · refine (get_after ..).trans ?_
      rw [bne_iff_ne.mpr hne, when, if_pos rfl, get_put_self]
      exact Nat.mod_eq_of_lt dfe.isLt
    · refine (get_after ..).trans ?_
      rw [heq]
      exact htaps

theorem blockLockLoss_completes (l : Fin 60) (blks : List Blk) (s : State) (hlen : blks.length = 16) (hbad : ∀ b ∈ blks, b.hdr ≠ 1#2 ∧ b.hdr ≠ 2#2)
    (hlock : (s.dev.laneS l.val).blockLock = true) (hwin : (s.dev.laneS l.val).window = []) (hloop : s.dev.looped l.val = false)
    (hplace : (s.dev.laneS l.val).lastAm = none ∨ (s.dev.laneS l.val).rxAt + 16 ≤ 16383) :
    Completes (.blockLockLoss l blks) s (fun t =>
      (t.dev.laneS l.val).blockLock = false ∧ (t.dev.laneS l.val).amLock = false ∧
      Raised (R.LNE.STATUS.SEQ l.val) [R.LNE.STATUS.LOCK_LOST l.val] s.dev t.dev ∧ Counted (R.LNE.ERR_HDR.COUNT l.val) 16 s.dev t.dev) := by
  have hl : l.val < 60 := l.isLt
  obtain ⟨xs, b, hxs⟩ : ∃ xs b, blks = xs ++ [b] := ⟨blks.dropLast, blks.getLast (by intro h; simp [h] at hlen),
    (List.dropLast_append_getLast _).symm⟩
  have hlen15 : xs.length = 15 := by
    rw [hxs, List.length_append] at hlen
    simpa using hlen
  obtain ⟨hs, hc, hl1, hw1, hr1, ha1⟩ := each_bad hl (blks := xs) (n := 0) (fun x hx => hbad x (by rw [hxs]; exact List.mem_append_left _ hx))
    hloop hlock hwin (hplace.imp_right fun h => by omega) (by omega)
  have hd : each (rxBlock l.val 0) blks s.dev = rxBlock l.val 0 b (each (rxBlock l.val 0) xs s.dev) := by rw [hxs, each_append]; rfl
  have hc := hc (by intro h; simp [h] at hlen15)
  generalize each (rxBlock l.val 0) xs s.dev = e at hs hc hl1 hw1 hr1 ha1 hd
  obtain ⟨hb2, ha2, hr2, hc2⟩ := rxBlock_loses hl (b := b) (d := e) (n := 15)
    (by rw [← hloop, Dev.looped, Dev.looped, hs.get (f := R.LNE.CTL.LPBK l.val) (book_lne (o := 0) hl (by decide) (by decide)) (lpbk_not_bad l.val)])
    (hbad b (by rw [hxs]; simp)) hl1 (by rw [hw1, hlen15]) (hplace.imp (fun h => ha1.trans h) fun h => by omega) rfl
  generalize rxBlock l.val 0 b e = g at hb2 ha2 hr2 hc2 hd
  refine completes_to (exec_blockLockLoss ..) g hd ⟨hb2, ha2, raised_after (raised_of_get hr2 ?_) s, ?_⟩
  · refine hs.get (book_lne (o := 8) hl (by decide) (by decide)) ?_
    rw [badRegs, blockRegs, List.map_cons, List.map_cons, List.mem_cons, List.mem_cons, not_or, not_or]
    refine ⟨?_, ?_, not_chkRegs (o := 8) (by decide) (by decide)⟩
    · simp only [Fld.key, R.LNE.STATUS.SEQ, R.LNE.ERR_HDR.COUNT]
      omega
    · simp [Fld.key, R.LNE.STATUS.SEQ, R.LNE.STATUS.STATE]
  · have h16 := counted_trans hc hc2
    rw [hlen15] at h16
    exact h16

theorem firstMarker_completes (l : Fin 60) (b : Blk) (slotNo lane count bip : Nat) (s : State) (hlock : (s.dev.laneS l.val).blockLock = true)
    (ha : (s.dev.laneS l.val).amLock = false) (hm : (s.dev.laneS l.val).lastAm = none)
    (hfew : ((s.dev.laneS l.val).window.filter (fun x => !x)).length < 16) (hloop : s.dev.looped l.val = false)
    (hmark : markerOf (polarity (s.dev.on (R.LNE.CTL.RX_INV l.val)) b) = some (lane, count, bip)) :
    Completes (.alignmentMarker l b [] slotNo) s (fun t =>
      (t.dev.laneS l.val).lastAm = some (count, lane) ∧ (t.dev.laneS l.val).amLock = false ∧
      t.dev.get (R.LNE.ALIGN.LOGICAL l.val) = lane ∧ t.dev.get (R.LNE.ALIGN.AM_COUNT l.val) = count) := by
  have hl : l.val < 60 := l.isLt
  obtain ⟨hlane4, hcount⟩ := lane_of_marker hmark
  obtain ⟨e, hs, hea, hem, -, heq⟩ := rxBlock_marker hl slotNo hloop hlock hfew hmark
  rw [rxMarker_first (hea.trans ha) (hem.trans hm)] at heq
  obtain ⟨-, htm, hta, htl, htc⟩ := markerTaken_lane hl slotNo (lane, count, bip) false e
  generalize markerTaken l.val slotNo (lane, count, bip) false e = g at heq htm hta htl htc
  rw [markerLocks, hta, Bool.not_false, Bool.true_or, if_pos rfl] at heq
  refine completes_to (exec_alignmentMarker ..) g heq ⟨htm, hta, ?_, ?_⟩
  · exact (get_after ..).trans (htl.trans (Nat.mod_eq_of_lt hlane4))
  · exact (get_after ..).trans (htc.trans (Nat.mod_eq_of_lt hcount))

theorem nextMarker_completes (l : Fin 60) (b : Blk) (rx : List Blk) (slotNo lane count bip : Nat) (s : State)
    (hlock : (s.dev.laneS l.val).blockLock = true) (ha : (s.dev.laneS l.val).amLock = false) (hat : (s.dev.laneS l.val).rxAt = 0)
    (hlen : rx.length = 16383)
    (hrx : ∀ x ∈ rx, (x.hdr = 1#2 ∨ x.hdr = 2#2) ∧ markerOf (polarity (s.dev.on (R.LNE.CTL.RX_INV l.val)) x) = none)
    (hfew : ((s.dev.laneS l.val).window.filter (fun x => !x)).length < 16) (hloop : s.dev.looped l.val = false)
    (hm : (s.dev.laneS l.val).lastAm = some (count, lane))
    (hmark : markerOf (polarity (s.dev.on (R.LNE.CTL.RX_INV l.val)) b) = some (lane, (count + 1) % 65536, bip))
    (hsame : 48 ≤ l.val ∨ s.dev.sameLogical l.val lane = []) :
    Completes (.alignmentMarker l b rx slotNo) s (fun t =>
      (t.dev.laneS l.val).amLock = true ∧ (t.dev.laneS l.val).lastAm = some ((count + 1) % 65536, lane)) := by
  have hl : l.val < 60 := l.isLt
  obtain ⟨hs1, hl1, hw1, ha1, hm1, hr1⟩ := each_good hl slotNo hloop hlock hfew hrx (by omega)
  generalize hd : each (rxBlock l.val slotNo) rx s.dev = d1 at hs1 hl1 hw1 ha1 hm1 hr1
  have hctl : d1.on (R.LNE.CTL.RX_INV l.val) = s.dev.on (R.LNE.CTL.RX_INV l.val) :=
    hs1.on (book_lne (o := 0) hl (by decide) (by decide)) (not_blockRegs (o := 0) (by decide) (by decide))
  obtain ⟨e, hs, hea, hem, her, heq⟩ := rxBlock_marker hl slotNo ((looped_of_blockRegs hl hs1).trans hloop) hl1 hw1 (by rw [hctl]; exact hmark)
  rw [rxMarker_follows (hea.trans (ha1.trans ha)) (hem.trans (hm1.trans hm)) (her.trans (by rw [hr1, hat, hlen]))] at heq
  obtain ⟨hts, htm, hta, -, -⟩ := markerTaken_lane hl slotNo (lane, (count + 1) % 65536, bip) true e
  have hstep : LaneStep l.val (laneRegs l.val) s.dev (markerTaken l.val slotNo (lane, (count + 1) % 65536, bip) true e) :=
    ((hs1.append hs).mono blockRegs_in_laneRegs).append hts
  generalize markerTaken l.val slotNo (lane, (count + 1) % 65536, bip) true e = g at heq hts htm hta hstep
  have hkeep := (keepsAm_markerLocks (l := l.val) slotNo (m := (lane, (count + 1) % 65536, bip)) (e.laneS l.val).phase (d := g)
    (by_cases (p := l.val < 48) (fun h => .inr ((sameLogical_of_step h hstep).trans (hsame.resolve_left (by omega)))) fun h => .inl (by omega))).lane l.val
  generalize markerLocks l.val slotNo _ _ g = k at heq hkeep
  refine completes_to (exec_alignmentMarker ..) k ?_ ⟨hkeep.1.trans hta, hkeep.2.trans htm⟩
  rw [hd]
  exact heq

theorem alignmentLockLoss_completes (l : Fin 60) (n : Nat) (s : State) (ha : (s.dev.laneS l.val).amLock = true) (hm : (s.dev.laneS l.val).missed < 4) :
    Completes (.alignmentLockLoss l n) s (fun t =>
      (4 ≤ (s.dev.laneS l.val).missed + n → (t.dev.laneS l.val).amLock = false ∧ t.dev.on (R.LNE.STATUS.ALIGN_LOST l.val) = true) ∧
      ((s.dev.laneS l.val).missed + n < 4 →
        (t.dev.laneS l.val).amLock = true ∧ (t.dev.laneS l.val).missed = (s.dev.laneS l.val).missed + n)) := by
  obtain ⟨-, hrun⟩ := each_missMarker l.isLt (xs := List.range n) (d := s.dev)
  have hrun := hrun ha hm
  rw [List.length_range] at hrun
  generalize hd : each (fun _ => missMarker l.val) (List.range n) s.dev = e at hrun
  exact completes_to (exec_alignmentLockLoss ..) e hd hrun

/-- A lane that is put back to WAIT or, where it is not enabled or is in TEST, to OFF. -/
theorem laneToWait_lane (l : Nat) (d : Dev) :
    LaneStep l [R.LNE.PAT_STATUS.LOCK l, R.LNE.STATUS.STATE l] d (laneToWait l d) ∧
    ∃ x : LaneS, (laneToWait l d).laneS l = { x with phase := if d.on (R.LNE.CTL.EN l) && d.get (R.LNE.STATUS.STATE l) != 8 then 1 else 0 } ∧
      x.signal = false ∧ x.blockLock = false ∧ x.amLock = false ∧ x.fails = (d.laneS l).fails := by
  unfold laneToWait
  dsimp only
  generalize hx : ({ d.laneS l with
    signal := false, run := 0, window := [], blockLock := false, amLock := false, lastAm := none, amSlot := none, skipBip := true, missed := 0
    badPeriods := 0, aligned := false, train := {}, loss := none, lossCause := 0, cleanSince := none, eligible := false, restoring := false } : LaneS) = x
  generalize hg : put (R.LNE.PAT_STATUS.LOCK l) _ (setLane l x d) = g
  have hs : LaneStep l [R.LNE.PAT_STATUS.LOCK l] d g := by
    rw [← hg]
    exact (laneStep_setLane ..).trans (laneStep_put ..)
  have hgx : g.laneS l = x := by rw [← hg]; exact laneS_setLane ..
  have hen : g.on (R.LNE.CTL.EN l) = d.on (R.LNE.CTL.EN l) := by
    rw [← hg]
    exact congrArg (· == 1) (get_put_ne (by simp only [Fld.key, R.LNE.CTL.EN, R.LNE.PAT_STATUS.LOCK]; omega) ..)
  have hst : g.get (R.LNE.STATUS.STATE l) = d.get (R.LNE.STATUS.STATE l) := by
    rw [← hg]
    exact get_put_ne (by simp only [Fld.key, R.LNE.STATUS.STATE, R.LNE.PAT_STATUS.LOCK]; omega) ..
  rw [hen, hst]
  refine ⟨hs.trans (laneStep_lanePhase ..), x, ?_, ?_, ?_, ?_, ?_⟩
  · rw [laneS_lanePhase, hgx]
  all_goals rw [← hx]

theorem laneStateTimeout_completes (l : Fin 48) (n : Nat) (s : State) (e : Dev) (hn : stateLimit (s.dev.laneS l.val).phase = some n)
    (hal : (s.dev.laneS l.val).aligned = false) (he : e = reachNs (s.dev.laneS l.val).signalAt n s.dev) :
    Completes (.laneStateTimeout l) s (fun t =>
      (t.dev.laneS l.val).fails = (s.dev.laneS l.val).fails + 1 ∧
      (t.dev.laneS l.val).phase = (if e.on (R.LNE.CTL.EN l.val) && e.get (R.LNE.STATUS.STATE l.val) != 8 then 1 else 0) ∧
      (t.dev.laneS l.val).signal = false) := by
  obtain ⟨-, x, hx, hsig, -, -, hfails⟩ := laneToWait_lane l.val (setLane l.val { s.dev.laneS l.val with fails := (s.dev.laneS l.val).fails + 1 } e)
  rw [laneS_setLane] at hfails
  generalize hg : laneToWait l.val (setLane l.val { s.dev.laneS l.val with fails := (s.dev.laneS l.val).fails + 1 } e) = g at hx
  refine completes_to (exec_laneStateTimeout ..) g ?_ ?_
  · simp only [hn]
    rw [if_neg (by rw [hal]; decide), ← hg, he]
  · rw [laneS_after, hx]
    exact ⟨hfails, rfl, hsig⟩

theorem laneStateTimeout_aligned (l : Fin 48) (s : State) (hal : (s.dev.laneS l.val).aligned = true) :
    Completes (.laneStateTimeout l) s (fun t => t = s.after s.dev) := by
  refine completes_to (exec_laneStateTimeout ..) s.dev ?_ rfl
  dsimp only
  split
  · rfl
  · rw [if_pos hal]

/-- Settles O30. -/
theorem lanesComeUp : Obligations.LanesComeUp := by
  unfold Obligations.LanesComeUp
  exact ⟨signalDetect_completes, cdrLock_completes, blockLock_completes, blockLockLoss_completes, firstMarker_completes, nextMarker_completes,
    alignmentLockLoss_completes, laneStateTimeout_completes, laneStateTimeout_aligned⟩

end Sys2Proof.Proofs
end

section
/-!
What a message that a port sends leaves alone, and the training of its lanes.
-/
namespace Sys2Proof.Proofs
open Sys2Proof Sys2Proof.Machine

/-! ## The lanes that a lane's own blocks leave alone -/

/-- Only one lane has changed. -/
structure OneLane (k : Nat) (d e : Dev) : Prop where
  lane : ∀ l, l ≠ k → e.laneS l = d.laneS l

section
variable {k : Nat} {d e g : Dev}

theorem oneLane_refl (k : Nat) (d : Dev) : OneLane k d d := ⟨fun _ _ => rfl⟩

theorem oneLane_trans (h : OneLane k d e) (h' : OneLane k e g) : OneLane k d g := ⟨fun l hl => (h'.lane l hl).trans (h.lane l hl)⟩

theorem oneLane_setLane (k : Nat) (x : LaneS) (d : Dev) : OneLane k d (setLane k x d) := ⟨fun l hl => laneS_setLane_ne k x d l hl⟩

theorem oneLane_of_lane (h : e.lane = d.lane) : OneLane k d e := ⟨fun l _ => by
  rw [Dev.laneS, Dev.laneS, h]⟩

theorem oneLane_of_leaves {fs : List Fld} (h : Leaves fs d e) : OneLane k d e := oneLane_of_lane (lane_of_leaves h)

theorem oneLane_when (c : Bool) {F : Dev → Dev} (h : OneLane k d (F d)) : OneLane k d (when c F d) := by
  cases c with
  | true => exact h
  | false => exact oneLane_refl k d

theorem oneLane_each {α : Type} {F : α → Dev → Dev} (h : ∀ x d, OneLane k d (F x d)) (xs : List α) (d : Dev) : OneLane k d (each F xs d) := by
  induction xs generalizing d with
  | nil => exact oneLane_refl k d
  | cons x xs ih => exact oneLane_trans (h x d) (ih _)

end

theorem oneLane_setTx (l : Nat) (t : TxS) (d : Dev) : OneLane l d (setTx l t d) := oneLane_setLane ..

section
variable {l : Nat} (hl : l < 60)
include hl

theorem oneLane_txLeave (b : Blk) (d : Dev) : OneLane l d (txLeave l b d) :=
  oneLane_trans (oneLane_setTx l _ d) (oneLane_of_leaves (leaves_lnePerf hl ..))

theorem oneLane_txMarker (d : Dev) : OneLane l d (txMarker l d).2 := by
  unfold txMarker
  dsimp only
  split
  · exact oneLane_setTx ..
  · generalize markerBlk _ _ _ = m
    dsimp only
    have hset := fun t => oneLane_setTx l t d
    generalize setTx l = F at hset ⊢
    exact oneLane_trans (hset _) (oneLane_txLeave hl m _)

theorem oneLane_txCoded (b : Blk) (d : Dev) : OneLane l d (txCoded l b d).2 := by
  unfold txCoded
  dsimp only
  refine oneLane_trans (oneLane_trans ?_ (oneLane_setTx ..)) (oneLane_txLeave hl ..)
  exact oneLane_when _ (oneLane_of_lane rfl)

theorem oneLane_txBlock (b : Blk) (d : Dev) : OneLane l d (txBlock l b d).2 := by
  unfold txBlock
  exact oneLane_trans (oneLane_setTx l _ d) (oneLane_txCoded hl _ _)

theorem oneLane_txStream (b : Blk) (d : Dev) : OneLane l d (txStream l b d) := by
  unfold txStream
  split
  · exact oneLane_trans (oneLane_txMarker hl d) (oneLane_txBlock hl ..)
  · exact oneLane_txBlock hl ..

end

/-! ## A message -/

/-- What sending a message leaves: the uplink lanes, the other ports, and all of the port but its sequence number. -/
structure Sends (p : Nat) (d e : Dev) : Prop where
  upto : Upto withSent [] d e
  lane : ∀ l, l < 48 → e.laneS l = d.laneS l
  port : e.portS p = { d.portS p with mseq := (e.portS p).mseq }
  ports : ∀ q, q ≠ p → e.portS q = d.portS q

section
variable {p : Nat} {d e g : Dev}

theorem sends_refl (p : Nat) (d : Dev) : Sends p d d := ⟨upto_of_eq fun _ => rfl, fun _ _ => rfl, rfl, fun _ _ => rfl⟩

theorem Sends.get (h : Sends p d e) {f : Fld} (hb : bookKey f.key = false) : e.get f = d.get f :=
  (h.upto.leaves (d.lane, d.port, d.out, d.free)).get hb (by simp)

theorem Sends.on (h : Sends p d e) {f : Fld} (hb : bookKey f.key = false) : e.on f = d.on f := congrArg (· == 1) (h.get hb)

theorem Sends.tim (h : Sends p d e) : e.tim = d.tim :=
  tim_of_leaves (d := withSent (d.lane, d.port, d.out, d.free) d) (e := withSent (d.lane, d.port, d.out, d.free) e) (h.upto.leaves _)

theorem Sends.dt (h : Sends p d e) : e.dt = d.dt := by
  rw [Dev.dt, h.tim]
  rfl

end

/-- The port after a message of it. -/
def portSent (p : Nat) (d : Dev) : PortS := { d.portS p with mseq := ((d.portS p).mseq + 1) % 256 }

theorem sendMsg_eq {p : Nat} {d : Dev} (hup : d.downlinkUp p = true) (code : Nat) (body : List Byte) : sendMsg p code body d =
    setPort p (portSent p d) (emit (.downlink p (message code (d.portS p).mseq body))
      (each (txStream (48 + p)) (msgBlocks (message code (d.portS p).mseq body)) d)) := if_pos hup

theorem sendMsg_sends {p : Nat} (hp : p < 12) (code : Nat) (body : List Byte) (d : Dev) : Sends p d (sendMsg p code body d) ∧
    (d.downlinkUp p = true → (sendMsg p code body d).portS p = portSent p d ∧
      (sendMsg p code body d).out = .downlink p (message code (d.portS p).mseq body) :: d.out) := by
  by_cases hup : d.downlinkUp p = true
  · obtain ⟨hout, hupto⟩ := sendMsg_up hp hup code body
    have hone := oneLane_each (oneLane_txStream (l := 48 + p) (by omega)) (msgBlocks (message code (d.portS p).mseq body)) d
    have honly := laneOnly_each (laneOnly_txStream (l := 48 + p) (by omega)) (msgBlocks (message code (d.portS p).mseq body)) d
    rw [sendMsg_eq hup] at hout hupto ⊢
    generalize each (txStream (48 + p)) (msgBlocks (message code (d.portS p).mseq body)) d = e at hone honly hout hupto ⊢
    generalize message code (d.portS p).mseq body = m at hout hupto ⊢
    refine ⟨⟨hupto, fun l hl => hone.lane l (by omega), ?_, fun q hq => ?_⟩, fun _ => ⟨portS_setPort .., hout⟩⟩
    · rw [portS_setPort]
      rfl
    · refine (portS_setPort_ne _ _ _ _ hq).trans ?_
      exact congrArg (fun x => KMap.get (fun _ => ({} : PortS)) x q) honly.port
  · rw [sendMsg, if_neg hup]
    exact ⟨sends_refl p d, fun h => absurd h hup⟩

/-! ## Training -/

theorem portS_after (s : State) (d : Dev) (p : Nat) : (s.after d).dev.portS p = d.portS p := rfl

theorem portOf_lt {l : Nat} (hl : l < 48) : portOf l < 12 := by
  unfold portOf
  omega

/-- A request for a setting: it is outstanding from the present DT on, under the sequence number of its message. -/
theorem trainAsk_lane {l : Nat} (hl : l < 48) (i : Nat) (d : Dev) : Upto withSent [] d (trainAsk l i d) ∧
    (trainAsk l i d).laneS l = { d.laneS l with train := { (d.laneS l).train with
      asked := some ((d.portS (portOf l)).mseq, d.dt), measuring := false } } := by
  unfold trainAsk
  dsimp only
  generalize [BitVec.ofNat 8 (d.logical l), BitVec.ofNat 8 (d.firSetting l i).1, BitVec.ofNat 8 (d.firSetting l i).2.1, BitVec.ofNat 8 (d.firSetting l i).2.2] = body
  obtain ⟨hs, -⟩ := sendMsg_sends (portOf_lt hl) 8 body d
  generalize sendMsg (portOf l) 8 body d = e at hs ⊢
  rw [laneS_setLane, hs.lane l hl, hs.dt]
  exact ⟨(hs.upto.trans (upto_of_eq (e := setLane l _ e) fun _ => rfl)).mono (by simp), rfl⟩

/-- The lane whose request has been reflected. -/
def trainReflected (x : LaneS) : LaneS := { x with train := { x.train with asked := none, measuring := true } }

/-- The lane whose final request has been reflected. -/
def trainAgreed (b : Blk) (x : LaneS) : LaneS :=
  { x with train := { x.train with asked := none }
           agreed := some (bits b.body.toNat 16 8, bits b.body.toNat 24 8, bits b.body.toNat 32 8) }

theorem train_completes (l : Fin 48) (b : Blk) (x : Nat × Nat) (s : State) (hp : (s.dev.laneS l.val).phase = 4)
    (ha : (s.dev.laneS l.val).train.asked = some x) (hh : b.hdr = 2#2) (h0 : bits b.body.toNat 0 8 = 0x55) (h1 : bits b.body.toNat 8 8 = x.1) :
    Completes (.train l b) s (fun t =>
      (t.dev.laneS l.val).train.asked = none ∧
      (if (s.dev.laneS l.val).train.next = 22 then
        (t.dev.laneS l.val).phase = 5 ∧
        (t.dev.laneS l.val).agreed = some (bits b.body.toNat 16 8, bits b.body.toNat 24 8, bits b.body.toNat 32 8)
      else (t.dev.laneS l.val).train.measuring = true ∧ Frame [] { s.dev with lane := t.dev.lane } s t)) := by
  by_cases hn : (s.dev.laneS l.val).train.next = 22
  · obtain ⟨hs, -⟩ := sendMsg_sends (portOf_lt l.isLt) 9 [BitVec.ofNat 8 ((setLane l.val (trainAgreed b (s.dev.laneS l.val)) s.dev).logical l.val)]
      (setLane l.val (trainAgreed b (s.dev.laneS l.val)) s.dev)
    have hx := hs.lane l.val l.isLt
    rw [laneS_setLane] at hx
    generalize hg : sendMsg (portOf l.val) 9 [BitVec.ofNat 8 ((setLane l.val (trainAgreed b (s.dev.laneS l.val)) s.dev).logical l.val)]
      (setLane l.val (trainAgreed b (s.dev.laneS l.val)) s.dev) = g at hx
    refine completes_to (exec_train ..) (lanePhase l.val 5 g) ?_ ?_
    · simp only [ha]
      rw [if_pos ⟨hp, hh, h0, h1⟩, if_pos hn, ← hg]
      rfl
    · rw [laneS_after, laneS_lanePhase, hx, if_pos hn]
      exact ⟨rfl, rfl, rfl⟩
  · refine completes_to (exec_train ..) (setLane l.val (trainReflected (s.dev.laneS l.val)) s.dev) ?_ ?_
    · simp only [ha]
      rw [if_pos ⟨hp, hh, h0, h1⟩, if_neg hn]
      rfl
    · rw [laneS_after, laneS_setLane, if_neg hn]
      exact ⟨rfl, rfl, frame_lane (laneStep_setLane ..).upto s⟩

/-- A setting is asked for after a measurement. -/
theorem eyeMargin_asks {l : Nat} (hl : l < 48) (i margin : Nat) (t : TrainS) (s : State) :
    let e := trainAsk l i (setLane l { s.dev.laneS l with train := t } (put (R.LNE.EYE.MARGIN l) margin s.dev))
    e.get (R.LNE.EYE.MARGIN l) = margin % 64 ∧ (e.laneS l).train.next = t.next ∧
    (e.laneS l).train.asked = some ((s.dev.portS (portOf l)).mseq, s.dev.dt) ∧
    Upto withSent [R.LNE.EYE.MARGIN l] s.dev e := by
  intro e
  obtain ⟨hs, hx⟩ := trainAsk_lane hl i (setLane l { s.dev.laneS l with train := t } (put (R.LNE.EYE.MARGIN l) margin s.dev))
  have hget : e.get (R.LNE.EYE.MARGIN l) = margin % 64 :=
    ((hs.leaves (s.dev.lane, s.dev.port, s.dev.out, s.dev.free)).get (book_lne (o := 0x2c) (by omega) (by decide) (by decide)) (by simp)).trans (get_put_self ..)
  have hupto : Upto withSent [R.LNE.EYE.MARGIN l] s.dev (setLane l { s.dev.laneS l with train := t } (put (R.LNE.EYE.MARGIN l) margin s.dev)) :=
    (upto_of_leaves setsPart_withSent (leaves_put (R.LNE.EYE.MARGIN l) margin s.dev)).trans (upto_of_eq fun _ => rfl)
  have hall := hupto.trans hs
  rw [laneS_setLane] at hx
  change e.laneS l = _ at hx
  change Upto withSent _ s.dev e at hall
  refine ⟨hget, ?_, ?_, hall⟩
  · rw [hx]
  · rw [hx]
    rfl

theorem eyeMargin_completes (l : Fin 48) (m : BitVec 6) (s : State) : Completes (.eyeMargin l m) s (fun t =>
    t.dev.get (R.LNE.EYE.MARGIN l.val) = m.toNat ∧
    ((s.dev.laneS l.val).phase = 4 → (s.dev.laneS l.val).train.measuring = true → (s.dev.laneS l.val).train.next < 22 →
      (t.dev.laneS l.val).train.next =
        (if ((s.dev.laneS l.val).train.next == 0 && decide (s.dev.get (R.LNE.DEG_CTL.EYE_TGT l.val) ≤ m.toNat)) || (s.dev.laneS l.val).train.next == 21
          then 22 else (s.dev.laneS l.val).train.next + 1) ∧
      (t.dev.laneS l.val).train.asked = some ((s.dev.portS (portOf l.val)).mseq, s.dev.dt)) ∧
    Frame [R.LNE.EYE.MARGIN l.val] { s.dev with lane := t.dev.lane, port := t.dev.port, out := t.dev.out, free := t.dev.free } s t) := by
  have hm : m.toNat % 64 = m.toNat := Nat.mod_eq_of_lt m.isLt
  have htgt : (put (R.LNE.EYE.MARGIN l.val) m.toNat s.dev).get (R.LNE.DEG_CTL.EYE_TGT l.val) = s.dev.get (R.LNE.DEG_CTL.EYE_TGT l.val) :=
    get_put_ne (by simp only [Fld.key, R.LNE.EYE.MARGIN, R.LNE.DEG_CTL.EYE_TGT]; omega) ..
  have hx : (put (R.LNE.EYE.MARGIN l.val) m.toNat s.dev).laneS l.val = s.dev.laneS l.val := rfl
  refine completes_to (exec_eyeMargin ..) _ rfl ?_
  simp only [htgt, hx]
  by_cases hc : (s.dev.laneS l.val).phase = 4 ∧ (s.dev.laneS l.val).train.measuring = true ∧ (s.dev.laneS l.val).train.next < 22
  · rw [if_pos hc]
    generalize hn : (if (((s.dev.laneS l.val).train.next == 0 && decide (s.dev.get (R.LNE.DEG_CTL.EYE_TGT l.val) ≤ m.toNat)) ||
      (s.dev.laneS l.val).train.next == 21) = true then 22 else (s.dev.laneS l.val).train.next + 1) = n
    generalize he : (if (((s.dev.laneS l.val).train.next == 0 && decide (s.dev.get (R.LNE.DEG_CTL.EYE_TGT l.val) ≤ m.toNat)) ||
      (s.dev.laneS l.val).train.next == 21) = true then (_ : Dev) else _) = e
    obtain ⟨hg, hnext, ha, hu⟩ : e.get (R.LNE.EYE.MARGIN l.val) = m.toNat % 64 ∧ (e.laneS l.val).train.next = n ∧
        (e.laneS l.val).train.asked = some ((s.dev.portS (portOf l.val)).mseq, s.dev.dt) ∧ Upto withSent [R.LNE.EYE.MARGIN l.val] s.dev e := by
      rw [← he, ← hn]
      split
      · exact eyeMargin_asks l.isLt ..
      · exact eyeMargin_asks l.isLt ..
    exact ⟨(get_after ..).trans (hg.trans hm), fun _ _ _ => ⟨hnext, ha⟩, frame_sent hu s⟩
  · rw [if_neg hc]
    refine ⟨(get_after ..).trans ((get_put_self ..).trans hm), fun h1 h2 h3 => absurd ⟨h1, h2, h3⟩ hc, ?_⟩
    exact frame_sent (upto_of_leaves setsPart_withSent (leaves_put ..)) s

theorem trainReqTimeout_completes (l : Fin 48) (x : Nat × Nat) (s : State) (ha : (s.dev.laneS l.val).train.asked = some x) :
    Completes (.trainReqTimeout l) s (fun t =>
      if (s.dev.laneS l.val).train.repeated then
        (t.dev.laneS l.val).fails = (s.dev.laneS l.val).fails + 1 ∧ (t.dev.laneS l.val).signal = false
      else (t.dev.laneS l.val).train.repeated = true ∧ (t.dev.laneS l.val).train.asked.isSome = true) := by
  refine completes_to (exec_trainReqTimeout ..) _ rfl ?_
  simp only [ha]
  generalize reachNs x.2 200000 s.dev = d
  by_cases hr : (s.dev.laneS l.val).train.repeated = true
  · rw [if_pos hr, if_pos hr, laneS_after]
    obtain ⟨-, y, hy, hsig, -, -, hfails⟩ := laneToWait_lane l.val (setLane l.val { s.dev.laneS l.val with fails := (s.dev.laneS l.val).fails + 1 } d)
    rw [laneS_setLane] at hfails
    rw [hy]
    exact ⟨hfails, hsig⟩
  · rw [if_neg hr, if_neg hr, laneS_after, (trainAsk_lane l.isLt _ _).2, laneS_setLane]
    exact ⟨rfl, rfl⟩

theorem find_rate {d : Dev} {p rate : Nat} (hen : ∃ l ∈ lanesOf p, d.on (R.LNE.CTL.EN l) = true)
    (hrate : ∀ l ∈ lanesOf p, d.on (R.LNE.CTL.EN l) = true → d.get (R.LNE.CTL.RATE l) = rate) :
    ∃ l, (lanesOf p).find? (fun l => d.on (R.LNE.CTL.EN l)) = some l ∧ d.get (R.LNE.CTL.RATE l) = rate := by
  obtain ⟨l, hl, hon⟩ := hen
  obtain ⟨k, hk⟩ := Option.isSome_iff_exists.mp
    (List.find?_isSome (p := fun l => d.on (R.LNE.CTL.EN l)) |>.mpr ⟨l, hl, hon⟩)
  exact ⟨k, hk, hrate k (List.mem_of_find?_eq_some hk) (List.find?_some (p := fun l => d.on (R.LNE.CTL.EN l)) hk)⟩

theorem linkCfg_completes (p : Fin 12) (rate : Nat) (s : State) (hst : s.dev.get (R.EKL.STATUS.STATE p.val) = 1)
    (hsig : (lanesOf p.val).all (fun l => !(s.dev.laneS l).signal) = true) (hup : s.dev.downlinkUp p.val = true)
    (hen : ∃ l ∈ lanesOf p.val, s.dev.on (R.LNE.CTL.EN l) = true)
    (hrate : ∀ l ∈ lanesOf p.val, s.dev.on (R.LNE.CTL.EN l) = true → s.dev.get (R.LNE.CTL.RATE l) = rate) :
    Completes (.linkCfg p) s (fun t =>
      t.dev.out = .downlink p.val (message 6 (s.dev.portS p.val).mseq
        [BitVec.ofNat 8 rate, BitVec.ofNat 8 (s.dev.get (R.EKL.CTL.LANES p.val)), BitVec.ofNat 8 (b2n (s.dev.portS p.val).linkedOnce)]) :: s.dev.out ∧
      Frame [] { s.dev with port := t.dev.port, out := t.dev.out, lane := t.dev.lane, free := t.dev.free } s t) := by
  obtain ⟨l, hfind, hr⟩ := find_rate hen hrate
  generalize hbody : [BitVec.ofNat 8 rate, BitVec.ofNat 8 (s.dev.get (R.EKL.CTL.LANES p.val)), BitVec.ofNat 8 (b2n (s.dev.portS p.val).linkedOnce)] = body
  obtain ⟨hout, hu⟩ := sendMsg_up p.isLt hup 6 body
  refine completes_to (exec_linkCfg ..) (sendMsg p.val 6 body s.dev) ?_ ?_
  · dsimp only
    rw [if_pos ⟨hst, hsig⟩, hfind, ← hbody, ← hr]
  · generalize sendMsg p.val 6 body s.dev = e at hout hu ⊢
    exact ⟨hout, frame_sent hu s⟩

theorem laneAlignDeadline_completes (p : Fin 12) (x : Nat) (s : State) (hsig : (s.dev.portS p.val).signalAt = some x)
    (hst : s.dev.get (R.EKL.STATUS.STATE p.val) = 1) (hal : (s.dev.named p.val).any (fun k => (s.dev.laneS k).aligned) = true) :
    Completes (.laneAlignDeadline p) s (fun t =>
      t = s.after (linkUp p.val (reachNs x 25000000 s.dev)) ∧ t.dev.get (R.EKL.STATUS.STATE p.val) = 2) := by
  refine completes_to (exec_laneAlignDeadline ..) (linkUp p.val (reachNs x 25000000 s.dev)) ?_ ⟨rfl, ?_⟩
  · simp only [hsig]
    exact if_pos ⟨hst, hal⟩
  · unfold linkUp portState
    exact (get_after ..).trans (get_put_self ..)

/-- Settles O31. -/
theorem lanesTrain : Obligations.LanesTrain := by
  unfold Obligations.LanesTrain
  exact ⟨train_completes, eyeMargin_completes, trainReqTimeout_completes, linkCfg_completes, laneAlignDeadline_completes⟩

end Sys2Proof.Proofs
end

section
/-!
A port goes down: what its down event leaves of its control registers and of its lanes.
-/
namespace Sys2Proof.Proofs
open Sys2Proof Sys2Proof.Machine

/-! ## Registers that stay -/

/-- The control registers of a port (CTL, STATUS, DOWN_CAUSE) and of every lane (CTL). -/
def ctlKey (p k : Nat) : Prop :=
  (k / 64 = ekl p ∨ k / 64 = ekl p + 8 ∨ k / 64 = ekl p + 0xc) ∨ (0x200000 ≤ k / 64 ∧ k / 64 < 0x2f0000 ∧ k / 64 % 0x4000 = 0)

theorem ctlKey_not_book {p k : Nat} (h : ctlKey p k) : bookKey k = false := by
  have hlow : ¬ 0xf20 ≤ k / 64 % 0x1000 := by
    unfold ctlKey ekl at h
    omega
  have hne : k ≠ (R.HST.STAT.COUNT 1).key ∧ k ≠ (R.MGT.STAT.COUNT 1).key ∧ k ≠ R.MGT.LOG_WR.LSEQ.key := by
    unfold ctlKey ekl at h
    simp only [Fld.key, R.HST.STAT.COUNT, R.MGT.STAT.COUNT, R.MGT.LOG_WR.LSEQ]
    omega
  simp only [bookKey, hlow, decide_false, Bool.false_and, Bool.false_or, List.contains_eq_any_beq, List.any_cons, List.any_nil,
    Bool.or_eq_false_iff, beq_eq_false_iff_ne]
  exact ⟨hne.1, hne.2.1, hne.2.2, trivial⟩

/-- The control registers, and, with `last`, the port's record of its last line. -/
def keptKey (p : Nat) (last : Bool) (k : Nat) : Prop := ctlKey p k ∨ (last = true ∧ (k / 64 = ekl p + 0x80 ∨ k / 64 = ekl p + 0x88))

theorem keptKey_not_book {p k : Nat} {last : Bool} (h : keptKey p last k) : bookKey k = false := by
  rcases h with h | ⟨-, h⟩
  · exact ctlKey_not_book h
  have hlow : ¬ 0xf20 ≤ k / 64 % 0x1000 := by
    unfold ekl at h
    omega
  have hne : k ≠ (R.HST.STAT.COUNT 1).key ∧ k ≠ (R.MGT.STAT.COUNT 1).key ∧ k ≠ R.MGT.LOG_WR.LSEQ.key := by
    unfold ekl at h
    simp only [Fld.key, R.HST.STAT.COUNT, R.MGT.STAT.COUNT, R.MGT.LOG_WR.LSEQ]
    omega
  simp only [bookKey, hlow, decide_false, Bool.false_and, Bool.false_or, List.contains_eq_any_beq, List.any_cons, List.any_nil,
    Bool.or_eq_false_iff, beq_eq_false_iff_ne]
  exact ⟨hne.1, hne.2.1, hne.2.2, trivial⟩

/-- These registers stay, and the uplink lanes. -/
structure KeepsCtl (p : Nat) (last : Bool) (d e : Dev) : Prop where
  get : ∀ f : Fld, keptKey p last f.key → e.get f = d.get f
  lane : ∀ l, l < 48 → e.laneS l = d.laneS l

section
variable {p : Nat} {last : Bool} {d e k : Dev}

theorem keepsCtl_refl (p : Nat) (last : Bool) (d : Dev) : KeepsCtl p last d d := ⟨fun _ _ => rfl, fun _ _ => rfl⟩

theorem KeepsCtl.trans (h : KeepsCtl p last d e) (h' : KeepsCtl p last e k) : KeepsCtl p last d k :=
  ⟨fun f hf => (h'.get f hf).trans (h.get f hf), fun l hl => (h'.lane l hl).trans (h.lane l hl)⟩

theorem KeepsCtl.on (h : KeepsCtl p last d e) {f : Fld} (hf : keptKey p last f.key) : e.on f = d.on f := congrArg (· == 1) (h.get f hf)

theorem keepsCtl_of_regs (h : e.regs = d.regs) (hl : e.lane = d.lane) : KeepsCtl p last d e := ⟨fun f _ => get_congr h f, fun l _ => by
  rw [Dev.laneS, Dev.laneS, hl]⟩

theorem keepsCtl_of_leaves {fs : List Fld} (h : Leaves fs d e) (hfs : ∀ f ∈ fs, ¬ keptKey p last f.key) : KeepsCtl p last d e :=
  ⟨fun f hf => h.get (keptKey_not_book hf) fun hmem => by
    obtain ⟨g, hg, heq⟩ := List.mem_map.mp hmem
    exact hfs g hg (heq ▸ hf), fun l _ => laneS_of_leaves h l⟩

theorem keepsCtl_put {f : Fld} (hf : ¬ keptKey p last f.key) (v : Nat) (d : Dev) : KeepsCtl p last d (put f v d) :=
  ⟨fun _ hg => get_put_ne (fun h => hf (h ▸ hg)) .., fun _ _ => rfl⟩

theorem keepsCtl_when (c : Bool) {F : Dev → Dev} (h : KeepsCtl p last d (F d)) : KeepsCtl p last d (when c F d) := by
  cases c with
  | true => exact h
  | false => exact keepsCtl_refl p last d

theorem keepsCtl_ite {c : Prop} [Decidable c] {a b : Dev} (ha : KeepsCtl p last d a) (hb : KeepsCtl p last d b) : KeepsCtl p last d (if c then a else b) := by
  split
  · exact ha
  · exact hb

theorem keepsCtl_each {α : Type} {F : α → Dev → Dev} (h : ∀ x d, KeepsCtl p last d (F x d)) (xs : List α) (d : Dev) : KeepsCtl p last d (each F xs d) := by
  induction xs generalizing d with
  | nil => exact keepsCtl_refl p last d
  | cons x xs ih => exact (h x d).trans (ih _)

end

/-! ## Lines that leave a port -/

theorem perfBase_ekl (p : Nat) : PerfBase (ekl p) ∨ ekl p = 0x1c01000 ∨ ekl p = 0x1c02000 := by
  unfold PerfBase ekl
  omega

theorem leaves_eklPerf (p code n : Nat) (d : Dev) : Leaves [] d (eklPerf p code n d) :=
  leaves_perf 9 (by unfold PerfBase ekl; omega) code n d

theorem perfBase_lth (n : Nat) : PerfBase (lthBase n) := by
  unfold PerfBase lthBase
  omega

section
variable {p : Nat} {last : Bool}

theorem keepsCtl_eklPerf (q code n : Nat) (d : Dev) : KeepsCtl p last d (eklPerf q code n d) := keepsCtl_of_leaves (leaves_eklPerf ..) (by simp)

theorem keepsCtl_setPort (q : Nat) (x : PortS) (d : Dev) : KeepsCtl p last d (setPort q x d) := keepsCtl_of_regs rfl rfl

theorem keepsCtl_setLth (n : Nat) (x : LthS) (d : Dev) : KeepsCtl p last d (setLth n x d) := keepsCtl_of_regs rfl rfl

theorem keepsCtl_eklStat {c : Nat} (hc : c < 64) (n : Nat) (d : Dev) : KeepsCtl p last d (eklStat p c n d) :=
  keepsCtl_put (by simp only [keptKey, ctlKey, ekl, Fld.key, R.EKL.STAT.COUNT]; omega) _ d

theorem keepsCtl_tapDrop (n : Nat) (d : Dev) : KeepsCtl p last d (tapDrop n d) := by
  unfold tapDrop
  have hnot : ∀ f ∈ [R.LTH.STATUS.SEQ n, R.LTH.STATUS.TAP_DROP n, R.LTH.TAP_DROPS.COUNT n], ¬ keptKey p last f.key := by
    simp only [List.mem_cons, List.not_mem_nil, or_false, forall_eq_or_imp, forall_eq, keptKey, ctlKey, ekl, Fld.key, R.LTH.STATUS.SEQ, R.LTH.STATUS.TAP_DROP,
      R.LTH.TAP_DROPS.COUNT]
    omega
  exact keepsCtl_of_leaves (((leaves_event ..).trans (leaves_put ..)).trans (leaves_perf 10 (perfBase_lth n) ..)) (by simpa [seqAnd] using hnot)

theorem keepsCtl_streamPut (ch : Nat) (bs : List Byte) (d : Dev) : KeepsCtl p last d (streamPut ch bs d) := by
  unfold streamPut showBuf
  refine KeepsCtl.trans ?_ (keepsCtl_put ?_ _ _)
  · exact keepsCtl_of_regs rfl rfl
  · simp only [keptKey, ctlKey, ekl, Fld.key, R.DMA.BUF.USED]
    omega

theorem keepsCtl_lathTap (n ctx t : Nat) (l : CamLine) (en bin first : Nat) (firsts : List Nat) (planes : List (List Nat)) (d : Dev) :
    KeepsCtl p last d (lathTap n ctx t l en bin first firsts planes d) := by
  unfold lathTap
  dsimp only
  generalize he : (if d.recTakes t = true then (_ : Dev) else d) = e
  have hrec : KeepsCtl p last d e := by
    rw [← he]
    split
    · exact keepsCtl_of_regs rfl rfl
    · exact keepsCtl_refl p last d
  refine hrec.trans (keepsCtl_ite (keepsCtl_ite ?_ (keepsCtl_ite ?_ ?_)) (keepsCtl_refl p last e))
  · exact keepsCtl_of_regs rfl rfl
  · refine KeepsCtl.trans ?_ (keepsCtl_streamPut ..)
    exact keepsCtl_of_regs rfl rfl
  · refine KeepsCtl.trans ?_ (keepsCtl_tapDrop ..)
    exact keepsCtl_of_regs rfl rfl

theorem keepsCtl_counted (l : CamLine) (d : Dev) : KeepsCtl p last d
    (if l.token then eklPerf p 3 1 d
    else
      let d := eklStat p 0 1 d
      let d := when (bit l.flags 1) (fun d => eklPerf p 4 1 (eklStat p 2 1 d)) d
      let d := when (bit l.flags 2) (fun d => eklPerf p 5 1 (eklStat p 3 1 d)) d
      when (bit l.flags 6) (fun d => eklPerf p 0x10 1 (eklStat p 12 1 d)) d) := by
  have hboth : ∀ c, c < 64 → ∀ code d, KeepsCtl p last d (eklPerf p code 1 (eklStat p c 1 d)) := fun c hc code d =>
    (keepsCtl_eklStat hc 1 d).trans (keepsCtl_eklPerf p code 1 _)
  split
  · exact keepsCtl_eklPerf ..
  · dsimp only
    have h0 := keepsCtl_eklStat (p := p) (last := last) (c := 0) (by decide) 1 d
    generalize eklStat p 0 1 d = e at h0 ⊢
    have h2 := keepsCtl_when (bit l.flags 1) (F := fun d => eklPerf p 4 1 (eklStat p 2 1 d)) (hboth 2 (by decide) 4 e)
    generalize when (bit l.flags 1) _ e = e at h2 ⊢
    have h3 := keepsCtl_when (bit l.flags 2) (F := fun d => eklPerf p 5 1 (eklStat p 3 1 d)) (hboth 3 (by decide) 5 e)
    generalize when (bit l.flags 2) _ e = e at h3 ⊢
    have h12 := keepsCtl_when (bit l.flags 6) (F := fun d => eklPerf p 0x10 1 (eklStat p 12 1 d)) (hboth 12 (by decide) 0x10 e)
    exact ((h0.trans h2).trans h3).trans h12

end

section
variable {p : Nat} {last : Bool}

theorem keepsCtl_rawTap (q : Nat) (l : CamLine) (d : Dev) : KeepsCtl p last d (rawTap q l d) := keepsCtl_lathTap ..

/-- A line that is forwarded is the port's last one, whatever becomes of it. -/
theorem keepsCtl_forwardRest (l : CamLine) (d : Dev) :
    KeepsCtl p last (put (R.EKL.LAST_DT.DT p) l.dtDone (put (R.EKL.LAST_LSN.LSN p) l.lsn d)) (forwardLine p l d) := by
  unfold forwardLine
  dsimp only
  generalize put (R.EKL.LAST_DT.DT p) l.dtDone _ = e
  have hcount := keepsCtl_counted (p := p) (last := last) l e
  dsimp only at hcount
  generalize (if l.token = true then _ else _) = g at hcount ⊢
  refine hcount.trans (keepsCtl_ite ?_ (keepsCtl_ite ?_ (keepsCtl_ite ?_ (keepsCtl_rawTap ..))))
  · exact keepsCtl_setPort ..
  · exact keepsCtl_setPort ..
  · exact keepsCtl_of_regs rfl rfl

theorem keepsCtl_forwardLine (l : CamLine) (d : Dev) : KeepsCtl p false d (forwardLine p l d) :=
  ((keepsCtl_put (by simp only [keptKey, ctlKey, ekl, Fld.key, R.EKL.LAST_LSN.LSN, Bool.false_eq_true, false_and, or_false]; omega) _ d).trans
    (keepsCtl_put (by simp only [keptKey, ctlKey, ekl, Fld.key, R.EKL.LAST_DT.DT, Bool.false_eq_true, false_and, or_false]; omega) _ _)).trans (keepsCtl_forwardRest l d)

/-- The last line of a port. -/
theorem forwardLine_last (l : CamLine) (d : Dev) : (forwardLine p l d).get (R.EKL.LAST_LSN.LSN p) = l.lsn % 2 ^ 32 ∧
    (forwardLine p l d).get (R.EKL.LAST_DT.DT p) = l.dtDone % 2 ^ 64 := by
  have h := keepsCtl_forwardRest (p := p) (last := true) l d
  constructor
  · rw [h.get _ (by simp only [keptKey, true_and, ekl, Fld.key, R.EKL.LAST_LSN.LSN]; omega), get_put_ne (by
      simp only [Fld.key, R.EKL.LAST_LSN.LSN, R.EKL.LAST_DT.DT]; omega), get_put_self]
    rfl
  · rw [h.get _ (by simp only [keptKey, true_and, ekl, Fld.key, R.EKL.LAST_DT.DT]; omega), get_put_self]
    rfl

theorem keepsCtl_slot {cat : Nat} (hc : cat < 16) (n : Nat) (d : Dev) : KeepsCtl p last d (slot 9 (ekl p) cat n d) :=
  keepsCtl_of_leaves (leaves_slot 9 (by unfold PerfBase ekl; omega) hc n d) (by simp)

theorem keepsCtl_closeLine (r : LineRec) (d : Dev) : KeepsCtl p false d (closeLine p r d) := by
  unfold closeLine
  dsimp only
  generalize sumNat (List.map List.length (buildLine d p r).planes) - fillCount d p r = rest
  refine KeepsCtl.trans ?_ (keepsCtl_forwardLine ..)
  refine KeepsCtl.trans ?_ (keepsCtl_slot (by decide) ..)
  refine KeepsCtl.trans ?_ (keepsCtl_slot (by decide) ..)
  exact (keepsCtl_when _ (keepsCtl_eklPerf p 2 1 d)).trans (keepsCtl_of_regs rfl rfl)

theorem keepsCtl_missLine (r : LineRec) (d : Dev) : KeepsCtl p false d (missLine p r d) := by
  unfold missLine
  dsimp only
  refine KeepsCtl.trans ?_ (keepsCtl_forwardLine ..)
  refine KeepsCtl.trans ?_ (keepsCtl_setPort ..)
  refine KeepsCtl.trans ?_ (keepsCtl_when _ (keepsCtl_eklStat (by decide) 1 _))
  exact keepsCtl_of_regs rfl rfl

theorem keepsCtl_dropLines (d : Dev) : KeepsCtl p false d (dropLines p d) :=
  keepsCtl_each (fun r d => keepsCtl_ite (keepsCtl_closeLine r d) (keepsCtl_missLine r d)) _ d

theorem keepsCtl_cregTimeout {w : Nat} (hw : w < 2) (d : Dev) : KeepsCtl p last d (cregTimeout p w d) := by
  unfold cregTimeout
  dsimp only
  have hnot : ∀ f ∈ [R.EKL.CREG_STATUS.SEQ p w, R.EKL.CREG_STATUS.TIMEOUT p w, R.EKL.CREG_STATUS.BUSY p w], ¬ keptKey p last f.key := by
    simp only [List.mem_cons, List.not_mem_nil, or_false, forall_eq_or_imp, forall_eq, keptKey, ctlKey, ekl, Fld.key, R.EKL.CREG_STATUS.SEQ,
      R.EKL.CREG_STATUS.TIMEOUT, R.EKL.CREG_STATUS.BUSY]
    omega
  refine KeepsCtl.trans ?_ (keepsCtl_eklPerf ..)
  refine KeepsCtl.trans ?_ (keepsCtl_of_leaves (leaves_event ..) fun f hf => hnot f (by simp [seqAnd] at hf; rcases hf with h | h <;> simp [h]))
  refine KeepsCtl.trans ?_ (keepsCtl_put (hnot _ (by simp)) _ _)
  exact keepsCtl_setPort ..

theorem keepsCtl_sends {q : Nat} {d e : Dev} (h : Sends q d e) : KeepsCtl p last d e := ⟨fun _ hf => h.get (keptKey_not_book hf), h.lane⟩

theorem lane_not_ctl {l : Nat} (hl : l < 60) (hp : p < 12) :
    ¬ ctlKey p (R.LNE.PAT_STATUS.LOCK l).key ∧ ¬ ctlKey p (R.LNE.STATUS.STATE l).key := by
  simp only [ctlKey, ekl, Fld.key, R.LNE.PAT_STATUS.LOCK, R.LNE.STATUS.STATE]
  omega

end

/-! ## The down event -/

/-- A lane looks for signal anew. -/
def laneQuiet (x : LaneS) : Prop := x.signal = false ∧ x.blockLock = false ∧ x.amLock = false

theorem laneToWait_quiet (l : Nat) (d : Dev) : laneQuiet ((laneToWait l d).laneS l) := by
  obtain ⟨-, x, hx, hsig, hb, ha, -⟩ := laneToWait_lane l d
  rw [hx]
  exact ⟨hsig, hb, ha⟩

/-- A lane of a port that links up anew: it is quiet, and the control registers and the other lanes stay. -/
theorem laneAnew_facts (l : Nat) (d : Dev) : LaneStep l [R.LNE.PAT_STATUS.LOCK l, R.LNE.STATUS.STATE l] d (laneAnew l d) ∧
    laneQuiet ((laneAnew l d).laneS l) := by
  obtain ⟨hs, -⟩ := laneToWait_lane l d
  have hq := laneToWait_quiet l d
  unfold laneAnew
  generalize laneToWait l d = e at hs hq
  dsimp only
  generalize hg : setLane l { e.laneS l with commanded := false } e = g
  have hgs : LaneStep l [] e g := hg ▸ laneStep_setLane ..
  have hgx : laneQuiet (g.laneS l) := by
    rw [← hg, laneS_setLane]
    exact hq
  have hput : LaneStep l [R.LNE.STATUS.STATE l] g (put (R.LNE.STATUS.STATE l) (g.laneS l).phase g) := laneStep_put ..
  refine ⟨((hs.trans hgs).trans (laneStep_when _ hput)).mono (by simp), ?_⟩
  cases g.get (R.LNE.STATUS.STATE l) == 7 <;> exact hgx

/-- Quiet lanes stay quiet, and the control registers stay. -/
structure Restarts (p : Nat) (d e : Dev) : Prop where
  get : ∀ f : Fld, ctlKey p f.key → e.get f = d.get f
  quiet : ∀ l, l < 48 → laneQuiet (d.laneS l) → laneQuiet (e.laneS l)

section
variable {p : Nat} {d e k : Dev}

theorem Restarts.trans (h : Restarts p d e) (h' : Restarts p e k) : Restarts p d k :=
  ⟨fun f hf => (h'.get f hf).trans (h.get f hf), fun l hl hq => h'.quiet l hl (h.quiet l hl hq)⟩

theorem KeepsCtl.restarts (h : KeepsCtl p false d e) : Restarts p d e := ⟨fun f hf => h.get f (.inl hf), fun l hl hq => (h.lane l hl).symm ▸ hq⟩

theorem restarts_laneAnew (hp : p < 12) {l : Nat} (hl : l < 60) (d : Dev) : Restarts p d (laneAnew l d) := by
  obtain ⟨hs, hq⟩ := laneAnew_facts l d
  refine ⟨fun f hf => hs.get (ctlKey_not_book hf) ?_, fun k hk hkq => ?_⟩
  · simp only [List.map_cons, List.map_nil, List.mem_cons, List.not_mem_nil, or_false, not_or]
    unfold ctlKey ekl at hf
    simp only [Fld.key, R.LNE.PAT_STATUS.LOCK, R.LNE.STATUS.STATE] at hf ⊢
    omega
  · by_cases h : k = l
    · rw [h]
      exact hq
    · rw [hs.others k hk h]
      exact hkq

end

/-- What a down event makes of its port, its control registers and its lanes. -/
structure WentDown (p cause : Nat) (d e : Dev) : Prop where
  state : e.get (R.EKL.STATUS.STATE p) = if d.on (R.EKL.CTL.AUTO_RELINK p) ∨ cause = 5 then 1 else 5
  why : e.get (R.EKL.DOWN_CAUSE.CAUSE p) = cause % 16
  down : e.on (R.EKL.STATUS.DOWN p) = true
  get : ∀ f : Fld, ctlKey p f.key → f.key ∉ [R.EKL.STATUS.STATE p, R.EKL.DOWN_CAUSE.CAUSE p, R.EKL.STATUS.SEQ p, R.EKL.STATUS.DOWN p].map Fld.key →
    e.get f = d.get f
  quiet : ∀ l, l < 48 → laneQuiet (d.laneS l) → laneQuiet (e.laneS l)
  relinked : d.on (R.EKL.CTL.AUTO_RELINK p) = true ∨ cause = 5 → (e.portS p).mseq = 0 ∧ (e.portS p).echo = none

/-- The lines and requests of a port that goes down are done with. -/
theorem downDrops_keeps {p : Nat} (hp : p < 12) (held : Bool) (d : Dev) : KeepsCtl p false d (when (!held) (sendMsg p 10 [1#8])
    (each (fun w d => if (KMap.get (fun _ => (none : Option (Nat × Nat))) (d.portS p).creg w).isSome then cregTimeout p w d else d) [0, 1] (dropLines p d))) := by
  have hreq : ∀ w, w < 2 → ∀ d, KeepsCtl p false d (if (KMap.get (fun _ => (none : Option (Nat × Nat))) (d.portS p).creg w).isSome then cregTimeout p w d else d) :=
    fun w hw d => keepsCtl_ite (keepsCtl_cregTimeout hw d) (keepsCtl_refl p false d)
  refine ((keepsCtl_dropLines d).trans ?_).trans (keepsCtl_when _ (keepsCtl_sends (sendMsg_sends hp ..).1))
  exact (hreq 0 (by decide) _).trans (hreq 1 (by decide) _)

theorem ctl_ctlKey (p : Nat) : ∀ f ∈ [R.EKL.STATUS.STATE p, R.EKL.DOWN_CAUSE.CAUSE p, R.EKL.STATUS.SEQ p, R.EKL.STATUS.DOWN p, R.EKL.CTL.AUTO_RELINK p],
    ctlKey p f.key := by
  simp only [List.mem_cons, List.not_mem_nil, or_false, forall_eq_or_imp, forall_eq, ctlKey, ekl, Fld.key, R.EKL.STATUS.STATE, R.EKL.DOWN_CAUSE.CAUSE,
    R.EKL.STATUS.SEQ, R.EKL.STATUS.DOWN, R.EKL.CTL.AUTO_RELINK]
  omega

/-- The port's lanes restart, and the port with them. -/
theorem enterLinking_facts {p : Nat} (hp : p < 12) (d : Dev) : (enterLinking p d).get (R.EKL.STATUS.STATE p) = 1 ∧
    (∀ f : Fld, ctlKey p f.key → f.key ≠ (R.EKL.STATUS.STATE p).key → (enterLinking p d).get f = d.get f) ∧
    (∀ l, l < 48 → laneQuiet (d.laneS l) → laneQuiet ((enterLinking p d).laneS l)) ∧
    ((enterLinking p d).portS p).mseq = 0 ∧ ((enterLinking p d).portS p).echo = none := by
  unfold enterLinking portState lanesOf
  dsimp only [each]
  have h : Restarts p d (laneAnew (4 * p + 3) (laneAnew (4 * p + 2) (laneAnew (4 * p + 1) (laneAnew (4 * p) d)))) :=
    (((restarts_laneAnew hp (by omega) d).trans (restarts_laneAnew hp (by omega) _)).trans (restarts_laneAnew hp (by omega) _)).trans
      (restarts_laneAnew hp (by omega) _)
  generalize laneAnew (4 * p + 3) _ = e at h ⊢
  refine ⟨get_put_self .., fun f hf hne => ?_, h.quiet, ?_⟩
  · exact (get_put_ne hne ..).trans (h.get f hf)
  · have hport : (put (R.EKL.STATUS.STATE p) 1 (setPort p { e.portS p with
        signalAt := none, pkt := none, mask := 0, maskSent := [], maskDue := false, echo := none, echoAt := none
        timeAt := none, mseq := 0, releasing := false } e)).portS p = _ := portS_setPort ..
    rw [hport]
    exact ⟨rfl, rfl⟩

/-- The device of a port whose down event has been noted. -/
def downNoted (p cause : Nat) (d : Dev) : Dev :=
  eklPerf p 0x11 1 (event 9 (R.EKL.STATUS.SEQ p) [R.EKL.STATUS.DOWN p] (put (R.EKL.DOWN_CAUSE.CAUSE p) cause d))

theorem downNoted_facts (p cause : Nat) (d : Dev) : (downNoted p cause d).get (R.EKL.DOWN_CAUSE.CAUSE p) = cause % 16 ∧
    (downNoted p cause d).on (R.EKL.STATUS.DOWN p) = true ∧
    (∀ f : Fld, ctlKey p f.key → f.key ∉ [R.EKL.DOWN_CAUSE.CAUSE p, R.EKL.STATUS.SEQ p, R.EKL.STATUS.DOWN p].map Fld.key →
      (downNoted p cause d).get f = d.get f) ∧
    (downNoted p cause d).lane = d.lane := by
  have hbook : ∀ f ∈ [R.EKL.STATUS.STATE p, R.EKL.DOWN_CAUSE.CAUSE p, R.EKL.STATUS.SEQ p, R.EKL.STATUS.DOWN p, R.EKL.CTL.AUTO_RELINK p],
      bookKey f.key = false := fun f hf => ctlKey_not_book (ctl_ctlKey p f hf)
  have hev := leaves_event 9 (R.EKL.STATUS.SEQ p) [R.EKL.STATUS.DOWN p] (put (R.EKL.DOWN_CAUSE.CAUSE p) cause d)
  have hall := hev.trans (leaves_eklPerf p 0x11 1 _)
  unfold downNoted
  refine ⟨?_, ?_, fun f hf hne => ?_, ?_⟩
  · refine (hall.get (hbook _ (by simp)) ?_).trans (get_put_self ..)
    simp only [seqAnd, List.append_nil, List.map_cons, List.map_nil, List.mem_cons, List.not_mem_nil, or_false, Fld.key, R.EKL.DOWN_CAUSE.CAUSE, R.EKL.STATUS.SEQ,
      R.EKL.STATUS.DOWN]
    omega
  · have hflag := get_event_flag (f := R.EKL.STATUS.DOWN p) (seq := R.EKL.STATUS.SEQ p) (fs := [R.EKL.STATUS.DOWN p]) (hbook _ (by simp))
      (by simp [R.EKL.STATUS.DOWN]) (by simp) 9 (put (R.EKL.DOWN_CAUSE.CAUSE p) cause d)
    rw [Dev.on, (leaves_eklPerf p 0x11 1 _).get (hbook _ (by simp)) (by simp), hflag]
    rfl
  · refine (hall.get (ctlKey_not_book hf) ?_).trans (get_put_ne (fun h => hne (by simp [h])) ..)
    simp only [seqAnd, List.append_nil, List.map_cons, List.map_nil, List.mem_cons, List.not_mem_nil, or_false] at hne ⊢
    exact fun h => hne (.inr h)
  · exact (lane_of_leaves hall).trans rfl

/-- What a down event of R160 makes of the port. -/
theorem downEvent_facts {p : Nat} (hp : p < 12) (cause : Nat) (d : Dev) : WentDown p cause d (downEvent p cause d) := by
  unfold downEvent
  dsimp only
  obtain ⟨hc, hd, hk, hl⟩ := downNoted_facts p cause d
  unfold downNoted at hc hd hk hl
  generalize eklPerf p 0x11 1 _ = e at hc hd hk hl ⊢
  have hdrop := downDrops_keeps hp (d.get (R.EKL.STATUS.STATE p) == 5) e
  generalize when (!(d.get (R.EKL.STATUS.STATE p) == 5)) (sendMsg p 10 [1#8]) _ = g at hdrop ⊢
  have hauto : g.on (R.EKL.CTL.AUTO_RELINK p) = d.on (R.EKL.CTL.AUTO_RELINK p) :=
    congrArg (· == 1) ((hdrop.get _ (.inl (ctl_ctlKey p _ (by simp)))).trans (hk _ (ctl_ctlKey p _ (by simp)) (by
      simp only [List.map_cons, List.map_nil, List.mem_cons, List.not_mem_nil, or_false, Fld.key, R.EKL.DOWN_CAUSE.CAUSE, R.EKL.STATUS.SEQ,
        R.EKL.STATUS.DOWN, R.EKL.CTL.AUTO_RELINK]
      omega)))
  have hquiet : ∀ l, l < 48 → laneQuiet (d.laneS l) → laneQuiet (g.laneS l) := fun l hl48 hq => by
    rw [hdrop.lane l hl48, Dev.laneS, hl]
    exact hq
  rw [hauto]
  have hne : ∀ f ∈ [R.EKL.DOWN_CAUSE.CAUSE p, R.EKL.STATUS.DOWN p], f.key ≠ (R.EKL.STATUS.STATE p).key := by
    simp only [List.mem_cons, List.not_mem_nil, or_false, forall_eq_or_imp, forall_eq, Fld.key, R.EKL.DOWN_CAUSE.CAUSE, R.EKL.STATUS.DOWN, R.EKL.STATUS.STATE]
    omega
  -- Whether the port links up anew or is held, only STATE is written after that.
  have hfinish : ∀ k : Dev, (∀ f : Fld, ctlKey p f.key → f.key ≠ (R.EKL.STATUS.STATE p).key → k.get f = g.get f) →
      k.get (R.EKL.DOWN_CAUSE.CAUSE p) = cause % 16 ∧ k.on (R.EKL.STATUS.DOWN p) = true ∧
      ∀ f : Fld, ctlKey p f.key → f.key ∉ [R.EKL.STATUS.STATE p, R.EKL.DOWN_CAUSE.CAUSE p, R.EKL.STATUS.SEQ p, R.EKL.STATUS.DOWN p].map Fld.key →
        k.get f = d.get f := fun k hkeep => by
    refine ⟨?_, ?_, fun f hf hnot => ?_⟩
    · exact (hkeep _ (ctl_ctlKey p _ (by simp)) (hne _ (by simp))).trans ((hdrop.get _ (.inl (ctl_ctlKey p _ (by simp)))).trans hc)
    · exact (congrArg (· == 1) ((hkeep _ (ctl_ctlKey p _ (by simp)) (hne _ (by simp))).trans (hdrop.get _ (.inl (ctl_ctlKey p _ (by simp)))))).trans hd
    · rw [List.map_cons, List.mem_cons, not_or] at hnot
      exact (hkeep f hf hnot.1).trans ((hdrop.get f (.inl hf)).trans (hk f hf hnot.2))
  by_cases hre : d.on (R.EKL.CTL.AUTO_RELINK p) = true ∨ cause = 5
  · rw [if_pos hre]
    have hstat := keepsCtl_eklStat (p := p) (last := false) (c := 15) (by decide) 1 g
    obtain ⟨hs, hkeep, hq, hm⟩ := enterLinking_facts hp (eklStat p 15 1 g)
    obtain ⟨h1, h2, h3⟩ := hfinish (enterLinking p (eklStat p 15 1 g)) fun f hf hnot => (hkeep f hf hnot).trans (hstat.get f (.inl hf))
    exact ⟨hs.trans (if_pos hre).symm, h1, h2, h3, fun l hl hx => hq l hl (by rw [hstat.lane l hl]; exact hquiet l hl hx), fun _ => hm⟩
  · rw [if_neg hre]
    obtain ⟨h1, h2, h3⟩ := hfinish (portState p 5 (setPort p { g.portS p with pkt := none, echo := none } g)) fun f _ hnot => get_put_ne hnot ..
    refine ⟨?_, h1, h2, h3, hquiet, fun h => absurd h hre⟩
    rw [if_neg hre]
    exact get_put_self ..

end Sys2Proof.Proofs
end

section
/-!
Lanes that leave service and come back (R109 to R115): a removal, the mask of the lanes that stay, and the quad's lanes together.
-/
namespace Sys2Proof.Proofs
open Sys2Proof Sys2Proof.Machine

/-! ## An error event -/

/-- The device with another snapshot. -/
def withSnap (x : SnapS) (d : Dev) : Dev := { d with snap := x }

theorem setsPart_withSnap : SetsPart withSnap := fun _ _ => ⟨rfl, rfl⟩

/-- The registers that an error event can write. -/
def errFlds : List Fld :=
  [R.SNP.STATUS.STATE, R.SNP.ID.DROPPED, R.CMP.STAT.COUNT 5, R.CMP.STAT.COUNT 6, R.CMP.STATUS.STATE, R.CMP.REC_TDT.DT, R.CMP.STATUS.SEQ,
    R.CMP.STATUS.TRIG_DROP]

theorem errFlds_low : ∀ f ∈ errFlds, f.key / 64 < 0x200000 ∨ 0x3c0000 ≤ f.key / 64 := by decide

theorem upto_refl {α : Type} (G : α → Dev → Dev) (fs : List Fld) (d : Dev) : Upto G fs d d :=
  (upto_of_eq fun _ => rfl : Upto G [] d d).mono (by simp)

theorem snapTrigger_upto (src : Nat) (d : Dev) : Upto withSnap errFlds d (snapTrigger src d) := by
  unfold snapTrigger
  split
  · split
    · refine Upto.mono ((upto_of_leaves setsPart_withSnap (leaves_put R.SNP.STATUS.STATE 2 d)).trans (gs := []) (upto_of_eq fun _ => rfl)) ?_
      decide
    · split
      · exact Upto.mono (fs := []) (upto_of_eq fun _ => rfl) (by simp)
      · exact (upto_of_leaves setsPart_withSnap (leaves_put R.SNP.ID.DROPPED _ d)).mono (by decide)
  · exact upto_refl ..

theorem recTrigger_leaves (d : Dev) : Leaves errFlds d (recTrigger d) := by
  unfold recTrigger inc
  split
  · exact (((leaves_put ..).trans (leaves_put ..)).trans (leaves_put ..)).mono (by decide)
  · split
    · exact (Leaves.refl d).mono (by simp)
    · exact ((leaves_event ..).trans (leaves_put ..)).mono (by decide)

/-- An error event writes the snapshot and these registers. -/
theorem errEvent_upto (b : Nat) (d : Dev) : Upto withSnap errFlds d (errEvent b d) := by
  unfold errEvent
  dsimp only
  have h := upto_when (bit (d.get R.SNP.ERR_MASK.MASK) b) (snapTrigger_upto 3 d)
  exact (h.trans (upto_when _ (upto_of_leaves setsPart_withSnap (recTrigger_leaves _)))).mono fun f hf => List.mem_map_of_mem ((List.mem_append.mp hf).elim id id)

theorem errEvent_lane (b : Nat) (d : Dev) : (errEvent b d).lane = d.lane ∧ (errEvent b d).port = d.port := by
  have h := (errEvent_upto b d).leaves d.snap
  have hl := lane_of_leaves h
  have hp := port_of_leaves h
  exact ⟨hl, hp⟩

theorem errEvent_get {f : Fld} (hb : bookKey f.key = false) (h1 : 0x200000 ≤ f.key / 64) (h2 : f.key / 64 < 0x3c0000) (b : Nat) (d : Dev) :
    (errEvent b d).get f = d.get f := by
  refine ((errEvent_upto b d).leaves d.snap).get hb fun hmem => ?_
  obtain ⟨g, hg, heq⟩ := List.mem_map.mp hmem
  have := errFlds_low g hg
  rw [heq] at this
  omega

/-! ## A lane taken out -/

/-- The registers of a lane that is taken out. -/
def outRegs (l : Nat) : List Fld := [R.LNE.STATUS.STATE l, R.LNE.PAT_STATUS.LOCK l, R.LNE.STATUS.SEQ l, R.LNE.STATUS.REMOVED l]

/-- A lane is taken out of service: its registers say so, and the other lanes and their registers stay. -/
structure TakenOut (l : Nat) (c : Bool) (d e : Dev) : Prop where
  state : e.get (R.LNE.STATUS.STATE l) = 7
  removed : e.on (R.LNE.STATUS.REMOVED l) = true
  commanded : (e.laneS l).commanded = c
  quiet : laneQuiet (e.laneS l)
  others : ∀ k, k < 48 → k ≠ l → e.laneS k = d.laneS k
  get : ∀ f : Fld, bookKey f.key = false → 0x200000 ≤ f.key / 64 → f.key / 64 < 0x3c0000 → f.key ∉ (outRegs l).map Fld.key → e.get f = d.get f
  port : e.port = d.port

theorem outRegs_book {l : Nat} (hl : l < 60) : ∀ f ∈ outRegs l, bookKey f.key = false := by
  simp only [outRegs, List.mem_cons, List.not_mem_nil, or_false, forall_eq_or_imp, forall_eq]
  exact ⟨book_lne (o := 8) hl (by decide) (by decide), book_lne (o := 0x34) hl (by decide) (by decide), book_lne (o := 8) hl (by decide) (by decide),
    book_lne (o := 8) hl (by decide) (by decide)⟩

theorem outRegs_range {l : Nat} (hl : l < 60) : ∀ f ∈ outRegs l, 0x200000 ≤ f.key / 64 ∧ f.key / 64 < 0x3c0000 := by
  simp only [outRegs, List.mem_cons, List.not_mem_nil, or_false, forall_eq_or_imp, forall_eq, Fld.key, R.LNE.STATUS.STATE, R.LNE.PAT_STATUS.LOCK,
    R.LNE.STATUS.SEQ, R.LNE.STATUS.REMOVED]
  omega

/-- STATE of a lane that is put back follows its phase, but where it shows REMOVED or TEST. -/
theorem laneToWait_state (l : Nat) (d : Dev) : (laneToWait l d).get (R.LNE.STATUS.STATE l) =
    if d.get (R.LNE.STATUS.STATE l) = 7 ∨ d.get (R.LNE.STATUS.STATE l) = 8 then d.get (R.LNE.STATUS.STATE l) else b2n (d.on (R.LNE.CTL.EN l)) := by
  unfold laneToWait
  dsimp only
  generalize hg : put (R.LNE.PAT_STATUS.LOCK l) _ _ = g
  have hst : g.get (R.LNE.STATUS.STATE l) = d.get (R.LNE.STATUS.STATE l) := by
    rw [← hg]
    exact get_put_ne (by simp only [Fld.key, R.LNE.STATUS.STATE, R.LNE.PAT_STATUS.LOCK]; omega) ..
  have hen : g.on (R.LNE.CTL.EN l) = d.on (R.LNE.CTL.EN l) := by
    rw [← hg]
    exact congrArg (· == 1) (get_put_ne (by simp only [Fld.key, R.LNE.CTL.EN, R.LNE.PAT_STATUS.LOCK]; omega) ..)
  rw [state_lanePhase, hst, hen]
  split
  · rfl
  · next h =>
    have h8 : (d.get (R.LNE.STATUS.STATE l) != 8) = true := by simpa using fun h8 => h (.inr h8)
    rw [h8]
    cases d.on (R.LNE.CTL.EN l) <;> rfl

theorem takeOut_facts {l : Nat} (hl : l < 60) (c : Bool) (d : Dev) : TakenOut l c d (takeOut c l d) := by
  unfold takeOut
  dsimp only
  have hput := laneStep_put l (R.LNE.STATUS.STATE l) 7 d
  have hport0 : (put (R.LNE.STATUS.STATE l) 7 d).port = d.port := rfl
  have hst0 : (put (R.LNE.STATUS.STATE l) 7 d).get (R.LNE.STATUS.STATE l) = 7 := get_put_self ..
  generalize put (R.LNE.STATUS.STATE l) 7 d = e0 at hput hport0 hst0 ⊢
  have hwait := (laneToWait_lane l e0).1
  have hq := laneToWait_quiet l e0
  have hport1 := port_of_leaves (hwait.upto.leaves [])
  replace hport1 : (laneToWait l e0).port = e0.port := hport1
  have hst1 : (laneToWait l e0).get (R.LNE.STATUS.STATE l) = 7 := by
    rw [laneToWait_state, hst0]
    rfl
  generalize laneToWait l e0 = e1 at hwait hq hport1 hst1 ⊢
  generalize hg : setLane l { e1.laneS l with commanded := c } e1 = e2
  have hset : LaneStep l [] e1 e2 := hg ▸ laneStep_setLane ..
  have hx : e2.laneS l = { e1.laneS l with commanded := c } := by rw [← hg, laneS_setLane]
  have hst2 : e2.get (R.LNE.STATUS.STATE l) = 7 := by rw [← hg]; exact hst1
  have hport2 : e2.port = d.port := by rw [← hg]; exact hport1.trans hport0
  have hev := (leaves_event 8 (R.LNE.STATUS.SEQ l) [R.LNE.STATUS.REMOVED l] e2).trans (leaves_lnePerf hl 7 1 _)
  have hflag : (lnePerf l 7 1 (event 8 (R.LNE.STATUS.SEQ l) [R.LNE.STATUS.REMOVED l] e2)).get (R.LNE.STATUS.REMOVED l) = 1 :=
    ((leaves_lnePerf hl 7 1 _).get (outRegs_book hl _ (by simp [outRegs])) (by simp)).trans
      (get_event_flag (outRegs_book hl _ (by simp [outRegs])) (by simp [R.LNE.STATUS.REMOVED]) (by simp) 8 e2)
  generalize lnePerf l 7 1 _ = e3 at hev hflag ⊢
  have hget3 : ∀ f : Fld, bookKey f.key = false → f.key ∉ [R.LNE.STATUS.SEQ l, R.LNE.STATUS.REMOVED l].map Fld.key → e3.get f = e2.get f :=
    fun f hb hf => hev.get hb (by simpa [seqAnd] using hf)
  have hrange := outRegs_range hl
  have herr : ∀ f ∈ outRegs l, (errEvent 3 e3).get f = e3.get f := fun f hf =>
    errEvent_get (outRegs_book hl f hf) (hrange f hf).1 (hrange f hf).2 3 e3
  have hlane : ∀ k, (errEvent 3 e3).laneS k = e2.laneS k := fun k => by
    rw [Dev.laneS, (errEvent_lane 3 e3).1]
    exact laneS_of_leaves hev k
  refine ⟨?_, ?_, ?_, ?_, fun k hk hne => ?_, fun f hb h1 h2 hf => ?_, ?_⟩
  · rw [herr _ (by simp [outRegs]), hget3 _ (outRegs_book hl _ (by simp [outRegs])), hst2]
    simp only [List.map_cons, List.map_nil, List.mem_cons, List.not_mem_nil, or_false, Fld.key, R.LNE.STATUS.SEQ, R.LNE.STATUS.REMOVED, R.LNE.STATUS.STATE]
    omega
  · rw [Dev.on, herr _ (by simp [outRegs]), hflag]
    rfl
  · rw [hlane, hx]
  · rw [hlane, hx]
    exact hq
  · rw [hlane]
    exact (hset.others k hk hne).trans ((hwait.others k hk hne).trans (hput.others k hk hne))
  · simp only [outRegs, List.map_cons, List.map_nil, List.mem_cons, List.not_mem_nil, or_false, not_or] at hf
    obtain ⟨hs, hp, hseq, hr⟩ := hf
    rw [errEvent_get hb h1 h2, hget3 f hb (by simp [hseq, hr]), hset.get hb (by simp), hwait.get hb (by simp [hs, hp]), hput.get hb (by simp [hs])]
  · rw [(errEvent_lane 3 e3).2, port_of_leaves hev]
    exact hport2

/-! ## The lanes that stay -/

theorem foldl_or_eq_zero {c : Nat → Prop} [DecidablePred c] {b : Nat → Nat} {xs : List Nat} {m : Nat} :
    xs.foldl (fun m l => if c l then m ||| 2 ^ b l else m) m = 0 ↔ m = 0 ∧ ∀ l ∈ xs, ¬ c l := by
  induction xs generalizing m with
  | nil => simp
  | cons x xs ih =>
    rw [List.foldl_cons, ih]
    by_cases hx : c x
    · simp [hx, Nat.or_eq_zero_iff]
    · simp [hx]

/-- The mask of a port is empty where no lane of it is UP. -/
theorem upMask_eq_zero {d : Dev} {p : Nat} :
    d.upMask p = 0 ↔ ∀ l ∈ lanesOf p, ¬ (d.get (R.LNE.STATUS.STATE l) = 6 ∧ (d.laneS l).restoring = false) := by
  unfold Dev.upMask
  rw [foldl_or_eq_zero (c := fun l => d.get (R.LNE.STATUS.STATE l) = 6 ∧ (d.laneS l).restoring = false)]
  simp

theorem mem_lanesOf {p l : Nat} : l ∈ lanesOf p ↔ portOf l = p := by
  simp only [lanesOf, portOf, List.mem_cons, List.not_mem_nil, or_false]
  omega

/-- Nothing but the books, the transmitted stream and a port changes. -/
structure Settled (d e : Dev) : Prop where
  get : ∀ f : Fld, bookKey f.key = false → e.get f = d.get f
  lane : ∀ l, l < 48 → e.laneS l = d.laneS l

theorem sendMask_settled {p : Nat} (hp : p < 12) (mask : Nat) (d : Dev) : Settled d (sendMask p mask d) := by
  have h := (sendMsg_sends hp 7 [BitVec.ofNat 8 mask] d).1
  unfold sendMask
  dsimp only
  generalize sendMsg p 7 [BitVec.ofNat 8 mask] d = e at h ⊢
  cases d.downlinkUp p with
  | true => exact ⟨fun f hb => h.get hb, fun l hl => h.lane l hl⟩
  | false => exact ⟨fun f hb => h.get hb, fun l hl => h.lane l hl⟩

/-- A port that keeps a lane, or is not linked, stays as it is but for its mask. -/
theorem degrade_settled {p : Nat} (hp : p < 12) {d : Dev} (h : d.upMask p ≠ 0 ∨ d.linked p = false) : Settled d (degrade p d) := by
  unfold degrade
  dsimp only
  split
  · next hlink =>
    rw [if_neg (h.resolve_right (by simp [hlink]))]
    exact sendMask_settled hp ..
  · exact ⟨fun _ _ => rfl, fun _ _ => rfl⟩

/-- A linked port without a lane goes down. -/
theorem degrade_down {p : Nat} {d : Dev} (hlink : d.linked p = true) (h : d.upMask p = 0) : degrade p d = downEvent p 1 d := by
  rw [degrade, if_pos hlink]
  exact if_pos h

/-- Whatever becomes of the port, its lanes' control registers stay, and a quiet lane stays quiet. -/
theorem degrade_restarts {p : Nat} (hp : p < 12) (d : Dev) : (∀ l, l < 48 → laneQuiet (d.laneS l) → laneQuiet ((degrade p d).laneS l)) ∧
    ∀ f : Fld, ctlKey p f.key → f.key / 64 < 0x2f0000 → (degrade p d).get f = d.get f := by
  by_cases h : d.upMask p ≠ 0 ∨ d.linked p = false
  · obtain ⟨hget, hlane⟩ := degrade_settled hp h
    exact ⟨fun l hl hq => by rw [hlane l hl]; exact hq, fun f hf _ => hget f (ctlKey_not_book hf)⟩
  · rw [not_or, not_not, Bool.not_eq_false] at h
    have hd := downEvent_facts hp 1 d
    rw [degrade_down h.2 h.1]
    refine ⟨hd.quiet, fun f hf hlt => hd.get f hf ?_⟩
    simp only [List.map_cons, List.map_nil, List.mem_cons, List.not_mem_nil, or_false, Fld.key, R.EKL.STATUS.STATE, R.EKL.DOWN_CAUSE.CAUSE,
      R.EKL.STATUS.SEQ, R.EKL.STATUS.DOWN] at hlt ⊢
    omega

/-! ## A removal -/

section
variable {l : Nat} {c : Bool} {d e : Dev}

theorem linkState_book (p : Nat) : bookKey (R.EKL.STATUS.STATE p).key = false := ctlKey_not_book (ctl_ctlKey p _ (by simp))

theorem TakenOut.linkState (h : TakenOut l c d e) (hl : l < 60) {p : Nat} (hp : p < 12) :
    e.get (R.EKL.STATUS.STATE p) = d.get (R.EKL.STATUS.STATE p) := by
  refine h.get _ (linkState_book p) ?_ ?_ ?_
  all_goals
    simp only [outRegs, List.map_cons, List.map_nil, List.mem_cons, List.not_mem_nil, or_false, Fld.key, R.EKL.STATUS.STATE, R.LNE.STATUS.STATE,
      R.LNE.PAT_STATUS.LOCK, R.LNE.STATUS.SEQ, R.LNE.STATUS.REMOVED]
    omega

theorem TakenOut.linked (h : TakenOut l c d e) (hl : l < 60) {p : Nat} (hp : p < 12) : e.linked p = d.linked p := by
  rw [Dev.linked, h.linkState hl hp, Dev.linked]

/-- The registers of another lane stay. -/
theorem TakenOut.other (h : TakenOut l c d e) {k : Nat} (hk : k < 60) (hne : k ≠ l) {f : Fld} (hf : f ∈ outRegs k) : e.get f = d.get f := by
  refine h.get f (outRegs_book hk f hf) (outRegs_range hk f hf).1 (outRegs_range hk f hf).2 ?_
  revert f
  simp only [outRegs, List.map_cons, List.map_nil, List.mem_cons, List.not_mem_nil, or_false, forall_eq_or_imp, forall_eq, Fld.key, R.LNE.STATUS.STATE,
    R.LNE.PAT_STATUS.LOCK, R.LNE.STATUS.SEQ, R.LNE.STATUS.REMOVED]
  omega

theorem ctl_not_outRegs {p : Nat} {f : Fld} (hf : ctlKey p f.key) (hlt : f.key / 64 < 0x2f0000) :
    0x200000 ≤ f.key / 64 ∧ f.key ∉ (outRegs l).map Fld.key := by
  unfold ctlKey ekl at hf
  simp only [outRegs, List.map_cons, List.map_nil, List.mem_cons, List.not_mem_nil, or_false, Fld.key, R.LNE.STATUS.STATE, R.LNE.PAT_STATUS.LOCK,
    R.LNE.STATUS.SEQ, R.LNE.STATUS.REMOVED] at hf hlt ⊢
  omega

/-- A removal leaves the lane quiet and the lanes' control registers as they are. -/
theorem removeLane_quiet (hl : l < 48) : laneQuiet ((removeLane l c d).laneS l) ∧
    ∀ f : Fld, ctlKey (portOf l) f.key → f.key / 64 < 0x2f0000 → (removeLane l c d).get f = d.get f := by
  have h := takeOut_facts (l := l) (by omega) c d
  unfold removeLane
  generalize takeOut c l d = e at h ⊢
  obtain ⟨hq, hget⟩ := degrade_restarts (portOf_lt hl) e
  refine ⟨hq l hl h.quiet, fun f hf hlt => (hget f hf hlt).trans (h.get f (ctlKey_not_book hf) ?_ (by omega) ?_)⟩
  · exact (ctl_not_outRegs (l := l) hf hlt).1
  · exact (ctl_not_outRegs hf hlt).2

end

theorem removeLane_stays (l : Fin 48) (c : Bool) (d : Dev)
    (h : (∃ k ∈ lanesOf (portOf l.val), k ≠ l.val ∧ d.get (R.LNE.STATUS.STATE k) = 6 ∧ (d.laneS k).restoring = false) ∨
      d.get (R.EKL.STATUS.STATE (portOf l.val)) < 2 ∨ 4 < d.get (R.EKL.STATUS.STATE (portOf l.val))) :
    (removeLane l.val c d).get (R.LNE.STATUS.STATE l.val) = 7 ∧ (removeLane l.val c d).on (R.LNE.STATUS.REMOVED l.val) = true ∧
    ((removeLane l.val c d).laneS l.val).commanded = c := by
  have hp := portOf_lt l.isLt
  have hout := takeOut_facts (l := l.val) (by omega) c d
  unfold removeLane
  generalize takeOut c l.val d = e at hout ⊢
  have hset : Settled e (degrade (portOf l.val) e) := degrade_settled hp <| by
    rcases h with ⟨k, hk, hne, hst, hre⟩ | h
    · have hk48 : k < 48 := by
        have := mem_lanesOf.mp hk
        simp only [portOf] at this
        omega
      refine .inl fun h0 => upMask_eq_zero.mp h0 k hk ⟨?_, ?_⟩
      · rw [hout.other (by omega) hne (by simp [outRegs]), hst]
      · rw [hout.others k hk48 hne, hre]
    · refine .inr ?_
      rw [hout.linked (by omega) hp, Dev.linked, decide_eq_false_iff_not]
      omega
  have hbook := outRegs_book (l := l.val) (by omega)
  refine ⟨?_, ?_, ?_⟩
  · rw [hset.get _ (hbook _ (by simp [outRegs])), hout.state]
  · rw [Dev.on, hset.get _ (hbook _ (by simp [outRegs]))]
    exact hout.removed
  · rw [hset.lane _ l.isLt, hout.commanded]

theorem removeLane_last (l : Fin 48) (c : Bool) (d : Dev) (hlink : d.linked (portOf l.val) = true)
    (hup : ∀ k ∈ lanesOf (portOf l.val), k ≠ l.val → d.get (R.LNE.STATUS.STATE k) ≠ 6) :
    (removeLane l.val c d).get (R.EKL.DOWN_CAUSE.CAUSE (portOf l.val)) = 1 ∧
    (removeLane l.val c d).on (R.EKL.STATUS.DOWN (portOf l.val)) = true := by
  have hp := portOf_lt l.isLt
  have hout := takeOut_facts (l := l.val) (by omega) c d
  unfold removeLane
  generalize takeOut c l.val d = e at hout ⊢
  have hmask : e.upMask (portOf l.val) = 0 := by
    refine upMask_eq_zero.mpr fun k hk => not_and_of_not_left _ ?_
    by_cases hkl : k = l.val
    · rw [hkl, hout.state]
      decide
    · have := mem_lanesOf.mp hk
      simp only [portOf] at this
      rw [hout.other (by omega) hkl (by simp [outRegs])]
      exact hup k hk hkl
  rw [degrade_down ((hout.linked (by omega) hp).trans hlink) hmask]
  exact ⟨(downEvent_facts hp 1 e).why, (downEvent_facts hp 1 e).down⟩

end Sys2Proof.Proofs
end

section
/-!
The commands by which lanes leave service and come back.
-/
namespace Sys2Proof.Proofs
open Sys2Proof Sys2Proof.Machine

/-! ## Losses -/

theorem laneLoss_appears (l : Fin 48) (c : Fin 5) (s : State) (hst : s.dev.get (R.LNE.STATUS.STATE l.val) = 6) :
    Completes (.laneLoss l c false) s (fun t =>
      (t.dev.laneS l.val).loss = some ((s.dev.laneS l.val).loss.getD s.dev.dt) ∧ bit (t.dev.laneS l.val).lossCause c.val = true ∧
      Frame [] { s.dev with lane := t.dev.lane } s t) := by
  have heq : lossAppears l.val c.val s.dev = setLane l.val { s.dev.laneS l.val with
      loss := some ((s.dev.laneS l.val).loss.getD s.dev.dt), lossCause := (s.dev.laneS l.val).lossCause ||| 2 ^ c.val } s.dev := by
    unfold lossAppears
    rw [if_pos (by rw [hst]; simp [isUplink])]
  refine completes_to (exec_laneLoss ..) _ heq ⟨?_, ?_, frame_lane (upto_of_eq fun _ => rfl) s⟩
  · rw [laneS_after, laneS_setLane]
  · rw [laneS_after, laneS_setLane, bit_eq_testBit, Nat.testBit_or, Nat.testBit_two_pow_self, Bool.or_true]

/-- A lane whose loss is over. -/
def lossOver (x : LaneS) : LaneS := { x with loss := none, lossCause := 0 }

theorem lossClears_last {l c x : Nat} {d : Dev} (hloss : (d.laneS l).loss = some x) (hcause : (d.laneS l).lossCause = 2 ^ c) :
    lossClears l c d = lnePerf l 6 1 (setLane l (lossOver (d.laneS l)) d) := by
  unfold lossClears lossOver
  have hbit : bit (2 ^ c) c = true := by rw [bit_eq_testBit, Nat.testBit_two_pow_self]
  simp only [hcause, hbit, if_true, Nat.sub_self, hloss, Option.isSome_some, decide_true, Bool.and_self]

theorem laneLoss_ends (l : Fin 48) (c : Fin 5) (x : Nat) (s : State) (hloss : (s.dev.laneS l.val).loss = some x)
    (hcause : (s.dev.laneS l.val).lossCause = 2 ^ c.val) :
    Completes (.laneLoss l c true) s (fun t =>
      (t.dev.laneS l.val).loss = none ∧ (t.dev.laneS l.val).lossCause = 0 ∧ Frame [] { s.dev with lane := t.dev.lane } s t) := by
  have hl : l.val < 60 := by omega
  have hlane := laneS_of_leaves (leaves_lnePerf hl 6 1 (setLane l.val (lossOver (s.dev.laneS l.val)) s.dev)) l.val
  rw [laneS_setLane] at hlane
  have hstep : LaneStep l.val [] s.dev (lnePerf l.val 6 1 (setLane l.val (lossOver (s.dev.laneS l.val)) s.dev)) :=
    (laneStep_setLane ..).trans (laneStep_lnePerf hl ..)
  have heq := lossClears_last hloss hcause
  generalize lnePerf l.val 6 1 _ = e at heq hlane hstep
  refine completes_to (exec_laneLoss ..) e heq ⟨?_, ?_, frame_lane hstep.upto s⟩
  · rw [laneS_after, hlane]
    rfl
  · rw [laneS_after, hlane]
    rfl

/-- What taking several lanes out leaves. -/
theorem each_takeOut {xs : List Nat} (hx : ∀ k ∈ xs, k < 48) (d : Dev) :
    (∀ k ∈ xs, (each (takeOut false) xs d).get (R.LNE.STATUS.STATE k) = 7 ∧ (each (takeOut false) xs d).on (R.LNE.STATUS.REMOVED k) = true ∧
      ((each (takeOut false) xs d).laneS k).commanded = false) ∧
    (∀ j, j < 48 → j ∉ xs → (∀ f ∈ outRegs j, (each (takeOut false) xs d).get f = d.get f) ∧ (each (takeOut false) xs d).laneS j = d.laneS j) ∧
    (∀ p, p < 12 → (each (takeOut false) xs d).linked p = d.linked p) := by
  induction xs generalizing d with
  | nil => exact ⟨by simp, fun _ _ _ => ⟨fun _ _ => rfl, rfl⟩, fun _ _ => rfl⟩
  | cons x xs ih =>
    have hout := takeOut_facts (l := x) (by have := hx x (by simp); omega) false d
    obtain ⟨hin, hkeep, hlink⟩ := ih (fun k hk => hx k (by simp [hk])) (takeOut false x d)
    change (∀ k ∈ x :: xs, (each (takeOut false) xs (takeOut false x d)).get (R.LNE.STATUS.STATE k) = 7 ∧ _) ∧ _
    rw [show each (takeOut false) (x :: xs) d = each (takeOut false) xs (takeOut false x d) from rfl]
    generalize each (takeOut false) xs (takeOut false x d) = e at hin hkeep hlink ⊢
    refine ⟨fun k hk => ?_, fun j hj hnot => ?_, fun p hp => (hlink p hp).trans (hout.linked (by have := hx x (by simp); omega) hp)⟩
    · by_cases hmem : k ∈ xs
      · exact hin k hmem
      · have hkx : k = x := (List.mem_cons.mp hk).resolve_right hmem
        subst hkx
        obtain ⟨hget, hlane⟩ := hkeep k (hx k (by simp)) hmem
        rw [Dev.on, hget _ (by simp [outRegs]), hget _ (by simp [outRegs]), hlane]
        exact ⟨hout.state, hout.removed, hout.commanded⟩
    · rw [List.mem_cons, not_or] at hnot
      obtain ⟨hget, hlane⟩ := hkeep j hj hnot.2
      exact ⟨fun f hf => (hget f hf).trans (hout.other (by omega) hnot.1 hf), hlane.trans (hout.others j hj hnot.1)⟩

theorem lostNow_lt {d : Dev} {p k : Nat} (hp : p < 12) (h : k ∈ d.lostNow p) : k < 48 := by
  have := mem_lanesOf.mp (List.mem_filter.mp h).1
  simp only [portOf] at this
  omega

theorem laneLossConfirm_completes (l k : Fin 48) (x : Nat) (e : Dev) (s : State) (hloss : (s.dev.laneS l.val).loss = some x)
    (hst : s.dev.get (R.LNE.STATUS.STATE l.val) = 6) (he : e = reachNs x (1000 * s.dev.get (R.LNE.DEG_CTL.CONFIRM_US l.val)) s.dev)
    (hk : k.val ∈ e.lostNow (portOf l.val))
    (h : (∃ j ∈ lanesOf (portOf l.val), j ∉ e.lostNow (portOf l.val) ∧ e.get (R.LNE.STATUS.STATE j) = 6 ∧ (e.laneS j).restoring = false) ∨
      e.linked (portOf l.val) = false) :
    Completes (.laneLossConfirm l) s (fun t =>
      t.dev.get (R.LNE.STATUS.STATE k.val) = 7 ∧ t.dev.on (R.LNE.STATUS.REMOVED k.val) = true ∧ (t.dev.laneS k.val).commanded = false) := by
  have hp := portOf_lt l.isLt
  refine completes_to (exec_laneLossConfirm ..) (confirmLosses (portOf l.val) e) ?_ ?_
  · simp only [hloss]
    rw [if_pos hst, he]
  obtain ⟨hin, hkeep, hlink⟩ := each_takeOut (fun k hk => lostNow_lt hp hk) e
  rw [confirmLosses]
  generalize each (takeOut false) (e.lostNow (portOf l.val)) e = g at hin hkeep hlink ⊢
  have hset : Settled g (degrade (portOf l.val) g) := degrade_settled hp <| by
    rcases h with ⟨j, hj, hnot, hj6, hre⟩ | h
    · have hj48 : j < 48 := by
        have := mem_lanesOf.mp hj
        simp only [portOf] at this
        omega
      obtain ⟨hget, hlane⟩ := hkeep j hj48 hnot
      refine .inl fun h0 => upMask_eq_zero.mp h0 j hj ⟨?_, ?_⟩
      · rw [hget _ (by simp [outRegs]), hj6]
      · rw [hlane, hre]
    · exact .inr ((hlink _ hp).trans h)
  obtain ⟨h7, hrem, hcom⟩ := hin k.val hk
  have hbook := outRegs_book (l := k.val) (by omega)
  rw [get_after, on_after, laneS_after, Dev.on, hset.get _ (hbook _ (by simp [outRegs])), hset.get _ (hbook _ (by simp [outRegs])), hset.lane _ k.isLt]
  exact ⟨h7, hrem, hcom⟩

theorem remove_completes (l : Fin 60) (s : State) (hl : l.val < 48) (hst : s.dev.get (R.LNE.STATUS.STATE l.val) = 6) :
    Completes (.remove l) s (fun t => t = s.after (removeLane l.val true s.dev)) := by
  refine completes_to (exec_remove ..) _ ?_ rfl
  rw [commandRemove, if_pos (by rw [hst]; simp [isUplink, hl])]

/-! ## Retraining -/

theorem isUplink_of_lt {l : Nat} (h : l < 48) : isUplink l = true := decide_eq_true h
theorem isUplink_of_ge {l : Nat} (h : 48 ≤ l) : isUplink l = false := decide_eq_false (by omega)

theorem retrainLane_quiet {l : Nat} (hl : l < 48) (d : Dev) : laneQuiet ((retrainLane l d).laneS l) ∧
    ∀ f : Fld, ctlKey (portOf l) f.key → f.key / 64 < 0x2f0000 → (retrainLane l d).get f = d.get f := by
  unfold retrainLane
  rw [isUplink_of_lt hl, if_neg (by decide)]
  split
  · exact removeLane_quiet hl
  · refine ⟨laneToWait_quiet l d, fun f hf hlt => (laneToWait_lane l d).1.get (ctlKey_not_book hf) ?_⟩
    have := (ctl_not_outRegs (l := l) hf hlt).2
    simp only [outRegs, List.map_cons, List.map_nil, List.mem_cons, List.not_mem_nil, or_false, not_or] at this ⊢
    exact ⟨this.2.1, this.1⟩

theorem retrain_uplink (l : Fin 60) (s : State) (hl : l.val < 48) :
    Completes (.retrain l) s (fun t =>
      (t.dev.laneS l.val).signal = false ∧ (t.dev.laneS l.val).blockLock = false ∧ (t.dev.laneS l.val).amLock = false ∧
      (s.dev.get (R.LNE.STATUS.STATE l.val) = 6 → t = s.after (removeLane l.val true s.dev)) ∧
      (s.dev.get (R.LNE.STATUS.STATE l.val) < 6 → s.dev.on (R.LNE.CTL.EN l.val) = true →
        (t.dev.laneS l.val).phase = 1 ∧ t.dev.get (R.LNE.STATUS.STATE l.val) = 1)) := by
  obtain ⟨⟨h1, h2, h3⟩, -⟩ := retrainLane_quiet hl s.dev
  have hup := isUplink_of_lt hl
  refine completes_to (exec_retrain ..) _ rfl ⟨h1, h2, h3, fun h6 => ?_, fun h6 hen => ?_⟩
  · rw [retrainLane, hup, if_neg (by decide), if_pos h6]
  · have h8 : (s.dev.get (R.LNE.STATUS.STATE l.val) != 8) = true := by
      simp only [bne_iff_ne]
      omega
    obtain ⟨-, x, hx, -⟩ := laneToWait_lane l.val s.dev
    have hst := laneToWait_state l.val s.dev
    rw [hen, h8] at hx
    rw [hen, if_neg (by omega)] at hst
    rw [get_after, laneS_after, retrainLane, hup, if_neg (by decide), if_neg h6.ne, hx, hst]
    exact ⟨rfl, rfl⟩

/-- The registers of a lane that is refreshed. -/
def freshRegs (l : Nat) : List Fld := [R.LNE.EQ_CTLE.CODE l, R.LNE.STATUS.STATE l, R.LNE.PAT_STATUS.LOCK l]

theorem laneToWait_fresh (l : Nat) (d : Dev) : LaneStep l (freshRegs l) d (laneToWait l d) := (laneToWait_lane l d).1.mono (by simp [freshRegs])

theorem state_fresh (l v : Nat) (d : Dev) : LaneStep l (freshRegs l) d (put (R.LNE.STATUS.STATE l) v d) := (laneStep_put ..).mono (by simp [freshRegs])

theorem get_code_state (l v : Nat) (c : Bool) (d : Dev) : (when c (put (R.LNE.EQ_CTLE.CODE l) v) d).get (R.LNE.STATUS.STATE l) =
    d.get (R.LNE.STATUS.STATE l) := by
  cases c with
  | true => exact get_put_ne (by simp only [Fld.key, R.LNE.EQ_CTLE.CODE, R.LNE.STATUS.STATE]; omega) ..
  | false => rfl

/-- A lane that is not an UP uplink lane is not removed by its refresh. -/
theorem commandRemove_none {l : Nat} {d : Dev} (h : 48 ≤ l ∨ d.get (R.LNE.STATUS.STATE l) ≠ 6) : commandRemove l d = d := by
  rw [commandRemove, if_neg]
  rcases h with h | h
  · simp [isUplink_of_ge h]
  · simp [h]

theorem laneRefresh_lane {l : Nat} {d : Dev} (h : 48 ≤ l ∨ d.get (R.LNE.STATUS.STATE l) ≠ 6) : LaneStep l (freshRegs l) d (laneRefresh l d) := by
  unfold laneRefresh
  dsimp only
  have hcode : LaneStep l (freshRegs l) d (when (d.on (R.LNE.CTL.CTLE_FIX l)) (put (R.LNE.EQ_CTLE.CODE l) (d.get (R.LNE.CTL.CTLE_CODE l))) d) :=
    (laneStep_when _ (laneStep_put ..)).mono (by simp [freshRegs])
  have hst := get_code_state l (d.get (R.LNE.CTL.CTLE_CODE l)) (d.on (R.LNE.CTL.CTLE_FIX l)) d
  generalize when _ (put _ _) d = e at hcode hst ⊢
  rw [← hst] at h
  refine hcode.append ?_
  unfold laneToTest
  rw [commandRemove_none h]
  split
  · refine LaneStep.append ?_ (state_fresh ..)
    exact (laneStep_setLane ..).mono (by simp)
  split
  · split
    · exact laneStep_refl ..
    · exact (state_fresh ..).append (laneToWait_fresh ..)
  split
  · split
    · exact (state_fresh ..).append (laneToWait_fresh ..)
    · exact laneStep_refl ..
  · exact state_fresh ..

/-- The registers that say whether a lane is enabled and under test. -/
def testKey (l : Nat) (f : Fld) : Prop := f ∈ [R.LNE.CTL.EN l, R.LNE.CTL.LPBK l, R.LNE.PAT_CTL.PMA_GEN l, R.LNE.PAT_CTL.PCS_GEN l]

theorem underTest_congr {l : Nat} {d e : Dev} (h : ∀ f, testKey l f → e.get f = d.get f) : e.underTest l = d.underTest l := by
  unfold Dev.underTest
  rw [h _ (by simp [testKey]), h (R.LNE.PAT_CTL.PMA_GEN l) (by simp [testKey]), h (R.LNE.PAT_CTL.PCS_GEN l) (by simp [testKey])]

/-- A downlink lane that is enabled and not under test follows the lock of its quad PLL. -/
theorem laneRefresh_downlink {l : Nat} (hl : 48 ≤ l) {d : Dev} (hen : d.on (R.LNE.CTL.EN l) = true) (ht : d.underTest l = false) :
    (laneRefresh l d).get (R.LNE.STATUS.STATE l) = if flag d.quadLock (l / 4) then 6 else 0 := by
  unfold laneRefresh
  dsimp only
  have hq : (when (d.on (R.LNE.CTL.CTLE_FIX l)) (put (R.LNE.EQ_CTLE.CODE l) (d.get (R.LNE.CTL.CTLE_CODE l))) d).quadLock = d.quadLock :=
    proj_when (·.quadLock) _ rfl
  have hkeep : ∀ f, testKey l f → (when (d.on (R.LNE.CTL.CTLE_FIX l)) (put (R.LNE.EQ_CTLE.CODE l) (d.get (R.LNE.CTL.CTLE_CODE l))) d).get f = d.get f :=
    fun f hf => proj_when (·.get f) _ (get_put_ne (by
      simp only [testKey, List.mem_cons, List.not_mem_nil, or_false] at hf
      rcases hf with rfl | rfl | rfl | rfl
      all_goals
        simp only [Fld.key, R.LNE.CTL.EN, R.LNE.CTL.LPBK, R.LNE.PAT_CTL.PMA_GEN, R.LNE.PAT_CTL.PCS_GEN, R.LNE.EQ_CTLE.CODE]
        omega) ..)
  generalize when _ (put _ _) d = e at hq hkeep ⊢
  have hen' : e.on (R.LNE.CTL.EN l) = true := (congrArg (· == 1) (hkeep _ (by simp [testKey]))).trans hen
  rw [hen', underTest_congr hkeep, ht, isUplink_of_ge hl, if_neg (by decide), if_neg (by decide), if_neg (by decide), get_put_self, hq]
  split <;> rfl

theorem retrain_downlink (l : Fin 60) (s : State) (hl : 48 ≤ l.val) (hen : s.dev.on (R.LNE.CTL.EN l.val) = true) (ht : s.dev.underTest l.val = false) :
    Completes (.retrain l) s (fun t => t.dev.get (R.LNE.STATUS.STATE l.val) = (if flag s.dev.quadLock (l.val / 4) then 6 else 0)) := by
  refine completes_to (exec_retrain ..) (laneRefresh l.val s.dev) ?_ ?_
  · rw [retrainLane, isUplink_of_ge hl]
    rfl
  · rw [get_after, laneRefresh_downlink hl hen ht]

/-! ## Returning to service -/

theorem lane_book {l : Nat} (hl : l < 60) : ∀ f ∈ [R.LNE.STATUS.STATE l, R.LNE.STATUS.SEQ l, R.LNE.STATUS.RESTORED l], bookKey f.key = false := by
  simp only [List.mem_cons, List.not_mem_nil, or_false, forall_eq_or_imp, forall_eq]
  exact ⟨book_lne (o := 8) hl (by decide) (by decide), book_lne (o := 8) hl (by decide) (by decide), book_lne (o := 8) hl (by decide) (by decide)⟩

/-- A lane that is UP again. -/
def widened (linked : Bool) (x : LaneS) : LaneS := { x with phase := 6, restoring := linked }

/-- A port with a mask due. -/
def masksDue (p : Nat) (d : Dev) : Dev := setPort p { d.portS p with maskDue := true } d

theorem widen_eq (l : Nat) (d : Dev) : widen l d =
    when ((put (R.LNE.STATUS.STATE l) 6 (setLane l (widened (d.linked (portOf l)) (d.laneS l)) d)).linked (portOf l)) (masksDue (portOf l))
      (put (R.LNE.STATUS.STATE l) 6 (setLane l (widened (d.linked (portOf l)) (d.laneS l)) d)) := rfl

/-- A lane that is widened shows UP, and a linked port has a mask due. -/
theorem widen_facts (l : Nat) (d : Dev) : (widen l d).get (R.LNE.STATUS.STATE l) = 6 ∧ ((widen l d).laneS l).eligible = (d.laneS l).eligible ∧
    (d.linked (portOf l) = true → ((widen l d).portS (portOf l)).maskDue = true) ∧
    ∀ f : Fld, f.key ≠ (R.LNE.STATUS.STATE l).key → (widen l d).get f = d.get f := by
  rw [widen_eq]
  generalize hx : widened (d.linked (portOf l)) (d.laneS l) = x
  have helig : x.eligible = (d.laneS l).eligible := by rw [← hx, widened]
  generalize he : put (R.LNE.STATUS.STATE l) 6 (setLane l x d) = e
  have hlink : e.linked (portOf l) = d.linked (portOf l) := by
    rw [← he]
    unfold Dev.linked
    rw [get_put_ne (by simp only [Fld.key, R.LNE.STATUS.STATE, R.EKL.STATUS.STATE, portOf]; omega)]
    rfl
  have hlane : (e.laneS l).eligible = (d.laneS l).eligible := by
    rw [← helig, ← he]
    exact congrArg LaneS.eligible (laneS_setLane l x d)
  have hst : e.get (R.LNE.STATUS.STATE l) = 6 := by
    rw [← he]
    exact get_put_self ..
  have hget : ∀ f : Fld, f.key ≠ (R.LNE.STATUS.STATE l).key → e.get f = d.get f := fun f hf => by
    rw [← he]
    exact get_put_ne hf ..
  rw [hlink]
  cases d.linked (portOf l) with
  | true => exact ⟨hst, hlane, fun _ => congrArg PortS.maskDue (portS_setPort ..), hget⟩
  | false => exact ⟨hst, hlane, fun h => absurd h (by decide), hget⟩

theorem restoreLane_facts {l : Nat} (hl : l < 48) {d : Dev} (hst : d.get (R.LNE.STATUS.STATE l) = 7) (he : (d.laneS l).eligible = true) :
    (restoreLane l d).get (R.LNE.STATUS.STATE l) = 6 ∧ ((restoreLane l d).laneS l).eligible = false ∧
    (d.linked (portOf l) = true → ((restoreLane l d).portS (portOf l)).maskDue = true) ∧
    Raised (R.LNE.STATUS.SEQ l) [R.LNE.STATUS.RESTORED l] d (restoreLane l d) := by
  have hbook := lane_book (l := l) (by omega)
  unfold restoreLane
  dsimp only
  rw [if_pos ⟨hst, he⟩]
  generalize hg : setLane l { d.laneS l with eligible := false, commanded := false, cleanSince := none } d = g
  have hgl : (g.laneS l).eligible = false := by rw [← hg, laneS_setLane]
  have hgk : g.linked (portOf l) = d.linked (portOf l) ∧ g.get (R.LNE.STATUS.SEQ l) = d.get (R.LNE.STATUS.SEQ l) := by
    rw [← hg]
    exact ⟨rfl, rfl⟩
  obtain ⟨hw6, hwe, hwm, hwk⟩ := widen_facts l g
  rw [hgk.1] at hwm
  generalize widen l g = w at hw6 hwe hwm hwk ⊢
  have hseq : w.get (R.LNE.STATUS.SEQ l) = d.get (R.LNE.STATUS.SEQ l) := (hwk _ (by
    simp only [Fld.key, R.LNE.STATUS.SEQ, R.LNE.STATUS.STATE]
    omega)).trans hgk.2
  have hev := leaves_event 8 (R.LNE.STATUS.SEQ l) [R.LNE.STATUS.RESTORED l] w
  have hperf := leaves_lnePerf (l := l) (by omega) 8 1 (event 8 (R.LNE.STATUS.SEQ l) [R.LNE.STATUS.RESTORED l] w)
  refine ⟨?_, ?_, fun hlink => ?_, ?_⟩
  · rw [(hev.trans hperf).get (hbook _ (by simp)) ?_, hw6]
    simp only [seqAnd, List.append_nil, List.map_cons, List.map_nil, List.mem_cons, List.not_mem_nil, or_false, Fld.key, R.LNE.STATUS.SEQ, R.LNE.STATUS.RESTORED, R.LNE.STATUS.STATE]
    omega
  · rw [laneS_of_leaves (hev.trans hperf), hwe, hgl]
  · rw [Dev.portS, port_of_leaves (hev.trans hperf)]
    exact hwm hlink
  · refine raised_then (raised_event (fun f hf => hbook f (by simp at hf ⊢; exact .inr hf)) (by simp [R.LNE.STATUS.RESTORED]) ?_ hseq) hperf
      (fun f hf => hbook f (by simp at hf ⊢; exact .inr hf)) (by simp)
    simp only [List.map_cons, List.map_nil, List.mem_cons, List.not_mem_nil, or_false, Fld.key, R.LNE.STATUS.SEQ, R.LNE.STATUS.RESTORED]
    omega

theorem restore_completes (l : Fin 48) (s : State) (hst : s.dev.get (R.LNE.STATUS.STATE l.val) = 7) (he : (s.dev.laneS l.val).eligible = true) :
    Completes (.restore l) s (fun t =>
      t.dev.get (R.LNE.STATUS.STATE l.val) = 6 ∧ (t.dev.laneS l.val).eligible = false ∧
      (s.dev.linked (portOf l.val) = true → (t.dev.portS (portOf l.val)).maskDue = true) ∧
      Raised (R.LNE.STATUS.SEQ l.val) [R.LNE.STATUS.RESTORED l.val] s.dev t.dev) := by
  obtain ⟨h6, hel, hm, hr⟩ := restoreLane_facts l.isLt hst he
  exact completes_to (exec_restore ..) _ rfl ⟨(get_after ..).trans h6, hel, hm, raised_after hr s⟩

/-- The device in which a lane has become eligible. -/
def madeEligible (l : Nat) (d : Dev) : Dev := setLane l { d.laneS l with eligible := true } d

theorem get_madeEligible (l : Nat) (d : Dev) (f : Fld) : (madeEligible l d).get f = d.get f := rfl

theorem madeEligible_eligible (l : Nat) (d : Dev) : ((madeEligible l d).laneS l).eligible = true := congrArg LaneS.eligible (laneS_setLane ..)

theorem execRestoreEligible_eq (l : Fin 48) (s : State) : execRestoreEligible l s = total (fun _ d =>
    match (d.laneS l.val).cleanSince with
    | none => d
    | some t =>
      if d.get (R.LNE.STATUS.STATE l.val) = 7 ∧ (d.laneS l.val).amLock then
        when ((madeEligible l.val (reachNs t 1000000000 d)).on (R.LNE.DEG_CTL.AUTO l.val) && !(d.laneS l.val).commanded) (restoreLane l.val)
          (madeEligible l.val (reachNs t 1000000000 d))
      else d) s := rfl

/-- An eligible lane is restored, or waits. -/
theorem restoredWhen {l : Nat} (hl : l < 48) {d : Dev} (hst : d.get (R.LNE.STATUS.STATE l) = 7) (he : (d.laneS l).eligible = true) (c : Bool) (s : State) :
    if c then (s.after (when c (restoreLane l) d)).dev.get (R.LNE.STATUS.STATE l) = 6
    else ((s.after (when c (restoreLane l) d)).dev.laneS l).eligible = true ∧ (s.after (when c (restoreLane l) d)).dev.get (R.LNE.STATUS.STATE l) = 7 := by
  cases c with
  | true => exact (get_after ..).trans (restoreLane_facts hl hst he).1
  | false => exact ⟨he, (get_after ..).trans hst⟩

theorem restoreEligible_completes (l : Fin 48) (x : Nat) (s : State) (hst : s.dev.get (R.LNE.STATUS.STATE l.val) = 7)
    (ham : (s.dev.laneS l.val).amLock = true) (hx : (s.dev.laneS l.val).cleanSince = some x) (hq : s.dev.tim.coming = []) :
    Completes (.restoreEligible l) s (fun t =>
      if s.dev.on (R.LNE.DEG_CTL.AUTO l.val) && !(s.dev.laneS l.val).commanded then t.dev.get (R.LNE.STATUS.STATE l.val) = 6
      else (t.dev.laneS l.val).eligible = true ∧ t.dev.get (R.LNE.STATUS.STATE l.val) = 7) := by
  have hl : l.val < 60 := by omega
  have hreach : ∀ f : Fld, bookKey f.key = false → (madeEligible l.val (reachNs x 1000000000 s.dev)).get f = s.dev.get f :=
    fun f hb => (get_madeEligible ..).trans (get_reachNs_quiet hq _ _ hb)
  have hst' := (hreach _ (lane_book hl _ (by simp))).trans hst
  have hauto : (madeEligible l.val (reachNs x 1000000000 s.dev)).on (R.LNE.DEG_CTL.AUTO l.val) = s.dev.on (R.LNE.DEG_CTL.AUTO l.val) :=
    congrArg (· == 1) (hreach _ (book_lne (o := 0x50) hl (by decide) (by decide)))
  have helig : ((madeEligible l.val (reachNs x 1000000000 s.dev)).laneS l.val).eligible = true := madeEligible_eligible ..
  refine completes_to ((exec_restoreEligible ..).trans (execRestoreEligible_eq l s)) (when (s.dev.on (R.LNE.DEG_CTL.AUTO l.val) && !(s.dev.laneS l.val).commanded)
    (restoreLane l.val) (madeEligible l.val (reachNs x 1000000000 s.dev))) ?_ ?_
  · simp only [hx]
    rw [if_pos ⟨hst, ham⟩, hauto]
  exact restoredWhen l.isLt hst' helig _ s

/-! ## Rates -/

theorem mixedQuad_congr {l : Nat} {d e : Dev} (h : ∀ i, i < 4 → e.get (R.LNE.CTL.EN (l / 4 * 4 + i)) = d.get (R.LNE.CTL.EN (l / 4 * 4 + i)) ∧
    e.get (R.LNE.CTL.RATE (l / 4 * 4 + i)) = d.get (R.LNE.CTL.RATE (l / 4 * 4 + i))) : e.mixedQuad l = d.mixedQuad l := by
  have hlanes : ((List.range 4).map (fun i => l / 4 * 4 + i)).filter (fun k => e.on (R.LNE.CTL.EN k)) =
      ((List.range 4).map (fun i => l / 4 * 4 + i)).filter (fun k => d.on (R.LNE.CTL.EN k)) :=
    List.filter_congr fun k hk => by
      obtain ⟨i, hi, rfl⟩ := List.mem_map.mp hk
      rw [Dev.on, (h i (List.mem_range.mp hi)).1, Dev.on]
  have hrate : ∀ (c : Nat → Bool), (((List.range 4).map (fun i => l / 4 * 4 + i)).filter (fun k => d.on (R.LNE.CTL.EN k))).any (fun k => c (e.get (R.LNE.CTL.RATE k))) =
      (((List.range 4).map (fun i => l / 4 * 4 + i)).filter (fun k => d.on (R.LNE.CTL.EN k))).any (fun k => c (d.get (R.LNE.CTL.RATE k))) := fun c => by
    rw [Bool.eq_iff_iff, List.any_eq_true, List.any_eq_true]
    refine exists_congr fun k => and_congr_right fun hk => ?_
    obtain ⟨i, hi, rfl⟩ := List.mem_map.mp (List.mem_filter.mp hk).1
    rw [(h i (List.mem_range.mp hi)).2]
  unfold Dev.mixedQuad
  dsimp only
  rw [hlanes, hrate (· == 2), hrate (· != 2)]

/-- A retrained lane keeps the rates and enables of its quad. -/
theorem retrainLane_ctl (l : Nat) {k : Nat} (hk : k < 60) (d : Dev) :
    (retrainLane l d).get (R.LNE.CTL.EN k) = d.get (R.LNE.CTL.EN k) ∧ (retrainLane l d).get (R.LNE.CTL.RATE k) = d.get (R.LNE.CTL.RATE k) := by
  by_cases hup : l < 48
  · obtain ⟨-, hget⟩ := retrainLane_quiet hup d
    constructor
    · exact hget _ (by simp only [ctlKey, Fld.key, R.LNE.CTL.EN]; omega) (by simp only [Fld.key, R.LNE.CTL.EN]; omega)
    · exact hget _ (by simp only [ctlKey, Fld.key, R.LNE.CTL.RATE]; omega) (by simp only [Fld.key, R.LNE.CTL.RATE]; omega)
  · have hstep := laneRefresh_lane (d := d) (.inl (Nat.le_of_not_lt hup))
    rw [retrainLane, isUplink_of_ge (Nat.le_of_not_lt hup), if_pos (by decide)]
    constructor
    · refine hstep.get (book_lne (o := 0) hk (by decide) (by decide)) ?_
      simp only [freshRegs, List.map_cons, List.map_nil, List.mem_cons, List.not_mem_nil, or_false, Fld.key, R.LNE.CTL.EN, R.LNE.EQ_CTLE.CODE, R.LNE.STATUS.STATE, R.LNE.PAT_STATUS.LOCK]
      omega
    · refine hstep.get (book_lne (o := 0) hk (by decide) (by decide)) ?_
      simp only [freshRegs, List.map_cons, List.map_nil, List.mem_cons, List.not_mem_nil, or_false, Fld.key, R.LNE.CTL.RATE, R.LNE.EQ_CTLE.CODE, R.LNE.STATUS.STATE, R.LNE.PAT_STATUS.LOCK]
      omega

theorem retrainLane_mixedQuad {l : Nat} (hl : l < 60) (d : Dev) : (retrainLane l d).mixedQuad l = d.mixedQuad l :=
  mixedQuad_congr fun _ _ => retrainLane_ctl l (by omega) d

theorem rateWrite_completes (l : Fin 60) (rate : BitVec 2) (s : State) (hmix : (put (R.LNE.CTL.RATE l.val) rate.toNat s.dev).mixedQuad l.val = false) :
    Completes (.rateWrite l rate) s (fun t =>
      t.dev.get (R.LNE.CTL.RATE l.val) = rate.toNat ∧
      (l.val < 48 → (t.dev.laneS l.val).signal = false ∧ (t.dev.laneS l.val).blockLock = false ∧ (t.dev.laneS l.val).amLock = false)) := by
  have hget := (retrainLane_ctl l.val l.isLt (put (R.LNE.CTL.RATE l.val) rate.toNat s.dev)).2
  rw [get_put_self] at hget
  have hmix' := (retrainLane_mixedQuad l.isLt _).trans hmix
  have hq : l.val < 48 → laneQuiet ((retrainLane l.val (put (R.LNE.CTL.RATE l.val) rate.toNat s.dev)).laneS l.val) := fun h => (retrainLane_quiet h _).1
  generalize he : retrainLane l.val (put (R.LNE.CTL.RATE l.val) rate.toNat s.dev) = e at hget hmix' hq
  refine completes_run (exec_rateWrite ..) (d := e) ?_ ⟨(get_after ..).trans (hget.trans (Nat.mod_eq_of_lt rate.isLt)), hq⟩
  dsimp only
  rw [he, if_neg (by rw [hmix']; decide)]

theorem rateWrite_mixed (l : Fin 60) (rate : BitVec 2) (s : State) (hmix : (put (R.LNE.CTL.RATE l.val) rate.toNat s.dev).mixedQuad l.val = true) :
    ∃ w, exec (.rateWrite l rate) s = .fault (.hostError w) := by
  have hmix' := (retrainLane_mixedQuad l.isLt _).trans hmix
  exact ⟨"lanes of both rate families in one quad", (exec_rateWrite ..).trans (run_fault (if_pos hmix'))⟩

/-! ## The lanes of a quad -/

/-- From `d` to `e` the registers of a lane and its quad's PLL lock have stayed. -/
structure SameLane (l : Nat) (d e : Dev) : Prop where
  get : ∀ f : Fld, bookKey f.key = false → f.key / 64 / 0x4000 = 0x80 + l → e.get f = d.get f
  quadLock : e.quadLock = d.quadLock

theorem SameLane.trans {l : Nat} {d e g : Dev} (h : SameLane l d e) (h' : SameLane l e g) : SameLane l d g :=
  ⟨fun f hb hf => (h'.get f hb hf).trans (h.get f hb hf), h'.quadLock.trans h.quadLock⟩

/-- A step of one lane leaves the registers of every other one. -/
theorem LaneStep.sameLane {l k : Nat} {fs : List Fld} {d e : Dev} (h : LaneStep l fs d e) (hne : k ≠ l)
    (hfs : ∀ f ∈ fs, f.key / 64 / 0x4000 = 0x80 + l) : SameLane k d e := by
  have hq := quadLock_of_leaves (h.upto.leaves [])
  refine ⟨fun f hb hf => h.get hb fun hmem => ?_, hq⟩
  obtain ⟨g, hg, heq⟩ := List.mem_map.mp hmem
  have := hfs g hg
  rw [heq] at this
  omega

section
variable {G : Nat → Dev → Dev} {ok : Nat → Dev → Prop} {regs : Nat → List Fld}

/-- What is done to one lane after the other: each is done from a device in which its own registers have stayed. -/
theorem each_lanes (hregs : ∀ l, ∀ f ∈ regs l, f.key / 64 / 0x4000 = 0x80 + l) (hok : ∀ l d e, l < 60 → SameLane l d e → ok l d → ok l e)
    (hG : ∀ l d, l < 60 → ok l d → LaneStep l (regs l) d (G l d)) {xs : List Nat} (hnd : xs.Nodup) (hxs : ∀ l ∈ xs, l < 60) (d : Dev)
    (hall : ∀ l ∈ xs, ok l d) :
    (∀ k, k ∉ xs → SameLane k d (each G xs d)) ∧ ∀ l ∈ xs, ∃ e, SameLane l d e ∧ SameLane l (G l e) (each G xs d) := by
  induction xs generalizing d with
  | nil => exact ⟨fun _ _ => ⟨fun _ _ _ => rfl, rfl⟩, by simp⟩
  | cons x xs ih =>
    obtain ⟨hx, hnd⟩ := List.nodup_cons.mp hnd
    have hstep := hG x d (hxs x (by simp)) (hall x (by simp))
    have hother : ∀ k, k ≠ x → SameLane k d (G x d) := fun k hk => hstep.sameLane hk (hregs x)
    obtain ⟨hout, hin⟩ := ih hnd (fun l hl => hxs l (by simp [hl])) (G x d) fun l hl =>
      hok l d _ (hxs l (by simp [hl])) (hother l fun h => hx (h ▸ hl)) (hall l (by simp [hl]))
    rw [show each G (x :: xs) d = each G xs (G x d) from rfl]
    refine ⟨fun k hk => ?_, fun l hl => ?_⟩
    · rw [List.mem_cons, not_or] at hk
      exact (hother k hk.1).trans (hout k hk.2)
    · rcases List.mem_cons.mp hl with rfl | hl
      · exact ⟨d, ⟨fun _ _ _ => rfl, rfl⟩, hout l hx⟩
      · obtain ⟨e, he, heG⟩ := hin l hl
        exact ⟨e, (hother l fun h => hx (h ▸ hl)).trans he, heG⟩

end

theorem quadLanes_mem {q k : Nat} : k ∈ quadLanes q ↔ k / 4 = q := by
  simp only [quadLanes, List.mem_cons, List.not_mem_nil, or_false]
  omega

theorem quadLanes_nodup (q : Nat) : (quadLanes q).Nodup := by
  simp [quadLanes]

/-- What the unlock of a quad PLL does to one lane. -/
def pllUnlocked (l : Nat) (d : Dev) : Dev :=
  if d.on (R.LNE.CTL.EN l) then
    let d := event 8 (R.LNE.STATUS.SEQ l) [R.LNE.STATUS.PLL_UNLOCK l] d
    if isUplink l then lossAppears l 4 d else laneRefresh l d
  else d

/-- What the lock of a quad PLL does to one lane. -/
def pllLocked (l : Nat) (d : Dev) : Dev := laneRefresh l (if isUplink l then lossClears l 4 d else d)

def unlockRegs (l : Nat) : List Fld := [R.LNE.STATUS.SEQ l, R.LNE.STATUS.PLL_UNLOCK l] ++ freshRegs l

theorem unlockRegs_lane (l : Nat) : ∀ f ∈ unlockRegs l, f.key / 64 / 0x4000 = 0x80 + l := by
  simp only [unlockRegs, freshRegs, List.cons_append, List.nil_append, List.mem_cons, List.not_mem_nil, or_false, forall_eq_or_imp, forall_eq, Fld.key,
    R.LNE.STATUS.SEQ, R.LNE.STATUS.PLL_UNLOCK, R.LNE.EQ_CTLE.CODE, R.LNE.STATUS.STATE, R.LNE.PAT_STATUS.LOCK]
  omega

theorem freshRegs_lane (l : Nat) : ∀ f ∈ freshRegs l, f.key / 64 / 0x4000 = 0x80 + l := fun f hf => unlockRegs_lane l f (by simp [unlockRegs, hf])

theorem pllUnlock_book {l : Nat} (hl : l < 60) : bookKey (R.LNE.STATUS.PLL_UNLOCK l).key = false := book_lne (o := 8) hl (by decide) (by decide)

theorem pllUnlocked_lane {l : Nat} (hl : l < 60) (d : Dev) : LaneStep l (unlockRegs l) d (pllUnlocked l d) ∧
    (d.on (R.LNE.CTL.EN l) = true → (pllUnlocked l d).on (R.LNE.STATUS.PLL_UNLOCK l) = true) := by
  unfold pllUnlocked
  dsimp only
  split
  · have hev := laneStep_event l 8 (R.LNE.STATUS.SEQ l) [R.LNE.STATUS.PLL_UNLOCK l] d
    have hflag : (event 8 (R.LNE.STATUS.SEQ l) [R.LNE.STATUS.PLL_UNLOCK l] d).get (R.LNE.STATUS.PLL_UNLOCK l) = 1 :=
      get_event_flag (pllUnlock_book hl) (by simp [R.LNE.STATUS.PLL_UNLOCK]) (by simp) 8 d
    generalize event 8 (R.LNE.STATUS.SEQ l) [R.LNE.STATUS.PLL_UNLOCK l] d = e at hev hflag ⊢
    have hafter : LaneStep l (freshRegs l) e (if isUplink l = true then lossAppears l 4 e else laneRefresh l e) := by
      split
      · exact (lossAppears_lane l 4 e).1.mono (by simp)
      · next hup => exact laneRefresh_lane (.inl (by simpa [isUplink] using hup))
    refine ⟨hev.trans hafter, fun _ => ?_⟩
    rw [Dev.on, hafter.get (pllUnlock_book hl), hflag]
    · rfl
    · simp only [freshRegs, List.map_cons, List.map_nil, List.mem_cons, List.not_mem_nil, or_false, Fld.key, R.LNE.STATUS.PLL_UNLOCK, R.LNE.EQ_CTLE.CODE, R.LNE.STATUS.STATE,
        R.LNE.PAT_STATUS.LOCK]
      omega
  · next hen => exact ⟨laneStep_refl .., fun h => absurd h hen⟩

theorem pllLocked_lane {l : Nat} (hl : l < 60) {d : Dev} (h : 48 ≤ l ∨ d.get (R.LNE.STATUS.STATE l) ≠ 6) : LaneStep l (freshRegs l) d (pllLocked l d) := by
  unfold pllLocked
  have hclear : LaneStep l (freshRegs l) d (if isUplink l = true then lossClears l 4 d else d) :=
    laneStep_ite ((lossClears_lane hl 4 d).1.mono (by simp)) (laneStep_refl ..)
  have hst : (if isUplink l = true then lossClears l 4 d else d).get (R.LNE.STATUS.STATE l) = d.get (R.LNE.STATUS.STATE l) := by
    split
    · exact (lossClears_lane hl 4 d).1.get (outRegs_book hl _ (by simp [outRegs])) (by simp)
    · rfl
  generalize (if isUplink l = true then lossClears l 4 d else d) = e at hclear hst ⊢
  exact hclear.append (laneRefresh_lane (by rw [hst]; exact h))

theorem quadPllUnlock_completes (q : Fin 15) (s : State) : Completes (.quadPllUnlock q) s (fun t => flag t.dev.quadLock q.val = false ∧
    ∀ i : Fin 4, s.dev.on (R.LNE.CTL.EN (4 * q.val + i.val)) = true → t.dev.on (R.LNE.STATUS.PLL_UNLOCK (4 * q.val + i.val)) = true) := by
  have hlt : ∀ l ∈ quadLanes q.val, l < 60 := fun l hl => by
    have := quadLanes_mem.mp hl
    omega
  obtain ⟨hout, hin⟩ := each_lanes (G := pllUnlocked) (ok := fun _ _ => True) unlockRegs_lane (fun _ _ _ _ _ _ => trivial)
    (fun l d hl _ => (pllUnlocked_lane hl d).1) (quadLanes_nodup q.val) hlt { s.dev with quadLock := setFlag q.val false s.dev.quadLock } (fun _ _ => trivial)
  refine completes_to (exec_quadPllUnlock ..) (each pllUnlocked (quadLanes q.val) { s.dev with quadLock := setFlag q.val false s.dev.quadLock }) rfl ?_
  generalize each pllUnlocked _ _ = g at hout hin ⊢
  refine ⟨?_, fun i hen => ?_⟩
  · have h60 : 60 ∉ quadLanes q.val := fun h => absurd (hlt 60 h) (by decide)
    rw [after_quadLock, (hout 60 h60).quadLock]
    exact flag_setFlag q.val false s.dev.quadLock
  · have hl : 4 * q.val + i.val < 60 := by omega
    obtain ⟨e, he, hg⟩ := hin (4 * q.val + i.val) (quadLanes_mem.mpr (by omega))
    have hen' : e.on (R.LNE.CTL.EN (4 * q.val + i.val)) = true := by
      refine (congrArg (· == 1) (he.get _ (book_lne (o := 0) hl (by decide) (by decide)) ?_)).trans hen
      simp only [Fld.key]
      omega
    refine (on_after ..).trans ((congrArg (· == 1) (hg.get _ (pllUnlock_book hl) ?_)).trans ((pllUnlocked_lane hl e).2 hen'))
    simp only [Fld.key, R.LNE.STATUS.PLL_UNLOCK]
    omega

theorem testKey_lane {l : Nat} (hl : l < 60) : ∀ f, testKey l f → bookKey f.key = false ∧ f.key / 64 / 0x4000 = 0x80 + l := by
  intro f hf
  simp only [testKey, List.mem_cons, List.not_mem_nil, or_false] at hf
  rcases hf with rfl | rfl | rfl | rfl
  · exact ⟨book_lne (o := 0) hl (by decide) (by decide), by simp only [Fld.key, R.LNE.CTL.EN]; omega⟩
  · exact ⟨book_lne (o := 0) hl (by decide) (by decide), by simp only [Fld.key, R.LNE.CTL.LPBK]; omega⟩
  · exact ⟨book_lne (o := 0x30) hl (by decide) (by decide), by simp only [Fld.key, R.LNE.PAT_CTL.PMA_GEN]; omega⟩
  · exact ⟨book_lne (o := 0x30) hl (by decide) (by decide), by simp only [Fld.key, R.LNE.PAT_CTL.PCS_GEN]; omega⟩

/-- The lock of a quad PLL reaches its lanes, where none of them is an UP uplink lane. -/
theorem quadPllLock_lanes {q : Nat} (hq : q < 15) {d : Dev} (hok : ∀ l ∈ quadLanes q, 48 ≤ l ∨ d.get (R.LNE.STATUS.STATE l) ≠ 6) :
    (each pllLocked (quadLanes q) d).quadLock = d.quadLock ∧
    ∀ l ∈ quadLanes q, ∃ e, SameLane l d e ∧ SameLane l (pllLocked l e) (each pllLocked (quadLanes q) d) := by
  have hlt : ∀ l ∈ quadLanes q, l < 60 := fun l hl => by
    have := quadLanes_mem.mp hl
    omega
  obtain ⟨hout, hin⟩ := each_lanes (G := pllLocked) (ok := fun l d => 48 ≤ l ∨ d.get (R.LNE.STATUS.STATE l) ≠ 6) freshRegs_lane
    (fun l d e hl h hd => by
      rwa [h.get _ (outRegs_book hl _ (by simp [outRegs])) (freshRegs_lane l _ (by simp [freshRegs]))])
    (fun l d hl h => pllLocked_lane hl h) (quadLanes_nodup q) hlt d hok
  exact ⟨(hout 60 fun h => absurd (hlt 60 h) (by decide)).quadLock, hin⟩

theorem quadPllLock_downlinks (q : Fin 15) (s : State) (hq : 12 ≤ q.val) : Completes (.quadPllLock q) s (fun t => flag t.dev.quadLock q.val = true ∧
    ∀ i : Fin 4, s.dev.on (R.LNE.CTL.EN (4 * q.val + i.val)) = true → s.dev.underTest (4 * q.val + i.val) = false →
      t.dev.get (R.LNE.STATUS.STATE (4 * q.val + i.val)) = 6) := by
  obtain ⟨hlock, hin⟩ := quadPllLock_lanes q.isLt (d := { s.dev with quadLock := setFlag q.val true s.dev.quadLock }) fun l hl => .inl (by
    have := quadLanes_mem.mp hl
    omega)
  refine completes_to (exec_quadPllLock ..) (each pllLocked (quadLanes q.val) { s.dev with quadLock := setFlag q.val true s.dev.quadLock }) rfl ?_
  generalize each pllLocked _ _ = g at hlock hin ⊢
  have hflag : flag (setFlag q.val true s.dev.quadLock) q.val = true := flag_setFlag ..
  refine ⟨?_, fun i hen ht => ?_⟩
  · rw [after_quadLock, hlock]
    exact hflag
  · have hl : 4 * q.val + i.val < 60 := by omega
    have hdown : 48 ≤ 4 * q.val + i.val := by omega
    obtain ⟨e, he, hg⟩ := hin (4 * q.val + i.val) (quadLanes_mem.mpr (by omega))
    have hkeep : ∀ f, testKey (4 * q.val + i.val) f → e.get f = s.dev.get f := fun f hf =>
      he.get f (testKey_lane hl f hf).1 (testKey_lane hl f hf).2
    have hst := laneRefresh_downlink hdown (d := e) ((congrArg (· == 1) (hkeep _ (by simp [testKey]))).trans hen) ((underTest_congr hkeep).trans ht)
    rw [he.quadLock, show (4 * q.val + i.val) / 4 = q.val by omega, if_pos hflag] at hst
    rw [get_after, hg.get _ (outRegs_book hl _ (by simp [outRegs])) (freshRegs_lane _ _ (by simp [freshRegs])), pllLocked, if_neg (by
      rw [isUplink_of_ge hdown]; decide), hst]

theorem quadPllLock_uplinks (q : Fin 15) (s : State) (_ : q.val < 12) (hst : ∀ i : Fin 4, s.dev.get (R.LNE.STATUS.STATE (4 * q.val + i.val)) ≠ 6) :
    Completes (.quadPllLock q) s (fun t => flag t.dev.quadLock q.val = true) := by
  obtain ⟨hlock, -⟩ := quadPllLock_lanes q.isLt (d := { s.dev with quadLock := setFlag q.val true s.dev.quadLock }) fun l hl => .inr (by
    have hq := quadLanes_mem.mp hl
    have := hst ⟨l % 4, Nat.mod_lt _ (by decide)⟩
    rwa [show 4 * q.val + l % 4 = l by omega] at this)
  refine completes_to (exec_quadPllLock ..) (each pllLocked (quadLanes q.val) { s.dev with quadLock := setFlag q.val true s.dev.quadLock }) rfl ?_
  generalize each pllLocked _ _ = g at hlock ⊢
  rw [after_quadLock, hlock]
  exact flag_setFlag q.val true s.dev.quadLock

/-- Settles O32. -/
theorem lanesLeaveAndReturn : Obligations.LanesLeaveAndReturn := by
  unfold Obligations.LanesLeaveAndReturn
  exact ⟨laneLoss_appears, laneLoss_ends, removeLane_stays, removeLane_last, laneLossConfirm_completes, remove_completes, retrain_uplink,
    retrain_downlink, restore_completes, restoreEligible_completes, rateWrite_completes, rateWrite_mixed, quadPllUnlock_completes,
    quadPllLock_downlinks, quadPllLock_uplinks⟩

end Sys2Proof.Proofs
end

section
/-!
What a DRAM write of the device posts, a line written to its ring slot, and how a port loses lines and goes down (R150 to R163).
-/
namespace Sys2Proof.Proofs
open Sys2Proof Sys2Proof.Machine

/-! ## Posted writes -/

/-- The device with other effects posted. -/
def withPosted (w : List MemOp) (d : Dev) : Dev := { d with posted := w }

/-- What a write posts. -/
def writePosts (a : Nat) (bs : List Byte) (d : Dev) : List MemOp :=
  if d.channels.isEmpty || decide (d.dramEnd < a + bs.length) then []
  else (granules (bs.length / 64 + 2) a bs.length).map (fun p => .write (d.physKey p.1) ((bs.drop (p.1 - a)).take p.2))

theorem each_post {α : Type} (f : α → MemOp) (xs : List α) (d : Dev) : each (fun x => post (f x)) xs d = withPosted (d.posted ++ xs.map f) d := by
  induction xs generalizing d with
  | nil => rw [List.map_nil, List.append_nil]; rfl
  | cons x xs ih =>
    refine (ih (post (f x) d)).trans ?_
    rw [List.map_cons]
    change withPosted ((d.posted ++ [f x]) ++ xs.map f) d = _
    rw [List.append_assoc, List.singleton_append]

/-- A write posts, and changes nothing else. -/
theorem dramWrite_eq (a : Nat) (bs : List Byte) (d : Dev) : dramWrite a bs d = withPosted (d.posted ++ writePosts a bs d) d := by
  unfold dramWrite writePosts
  split
  · rw [List.append_nil]; rfl
  · exact each_post ..

theorem dramWrite_port (a : Nat) (bs : List Byte) (x : KMap PortS) (d : Dev) : dramWrite a bs { d with port := x } = { dramWrite a bs d with port := x } := by
  rw [dramWrite_eq, dramWrite_eq]
  rfl

/-- A register below the counters of its block, outside MGT and HST, is none of the books. -/
theorem bookKey_area {k : Nat} (h : k / 64 % 0x1000 < 0xf20 ∧ (k / 64 < 0x40000 ∨ 0x41000 ≤ k / 64 ∧ k / 64 < 0x1d00000 ∨ 0x1d01000 ≤ k / 64)) :
    bookKey k = false := by
  have hlow : ¬ 0xf20 ≤ k / 64 % 0x1000 := by omega
  have hne : k ≠ (R.HST.STAT.COUNT 1).key ∧ k ≠ (R.MGT.STAT.COUNT 1).key ∧ k ≠ R.MGT.LOG_WR.LSEQ.key := by
    simp only [Fld.key, R.HST.STAT.COUNT, R.MGT.STAT.COUNT, R.MGT.LOG_WR.LSEQ]
    omega
  simp only [bookKey, hlow, decide_false, Bool.false_and, Bool.false_or, List.contains_eq_any_beq, List.any_cons, List.any_nil,
    Bool.or_eq_false_iff, beq_eq_false_iff_ne]
  exact ⟨hne.1, hne.2.1, hne.2.2, trivial⟩

/-! ## Ring slots -/

/-- The flag, and the count, of a ring slot that is overwritten. -/
def ringOverrun (p : Nat) (d : Dev) : Dev := eklPerf p 0xd 1 (eklStat p 13 1 (event 9 (R.EKL.STATUS.SEQ p) [R.EKL.STATUS.RING_OVR p] d))

def ringRegs (p : Nat) : List Fld := [R.EKL.RING_WR.SLOT p, R.EKL.STATUS.SEQ p, R.EKL.STATUS.RING_OVR p, R.EKL.STAT.COUNT p 13]

theorem ringRegs_book {p : Nat} (hp : p < 12) : ∀ f ∈ ringRegs p, bookKey f.key = false := by
  intro f hf
  refine bookKey_area ?_
  simp only [ringRegs, List.mem_cons, List.not_mem_nil, or_false] at hf
  rcases hf with rfl | rfl | rfl | rfl
  all_goals
    simp only [Fld.key, R.EKL.RING_WR.SLOT, R.EKL.STATUS.SEQ, R.EKL.STATUS.RING_OVR, R.EKL.STAT.COUNT]
    omega

theorem ringOverrun_facts {p : Nat} (hp : p < 12) (d : Dev) :
    Leaves [R.EKL.STATUS.SEQ p, R.EKL.STATUS.RING_OVR p, R.EKL.STAT.COUNT p 13] d (ringOverrun p d) ∧
    Raised (R.EKL.STATUS.SEQ p) [R.EKL.STATUS.RING_OVR p] d (ringOverrun p d) ∧ Counted (R.EKL.STAT.COUNT p 13) 1 d (ringOverrun p d) := by
  have hbook := ringRegs_book hp
  have hb : ∀ f ∈ R.EKL.STATUS.SEQ p :: [R.EKL.STATUS.RING_OVR p], bookKey f.key = false := fun f hf => hbook f (by
    simp only [List.mem_cons, List.not_mem_nil, or_false] at hf
    rcases hf with rfl | rfl <;> simp [ringRegs])
  have hne : ∀ f ∈ R.EKL.STATUS.SEQ p :: [R.EKL.STATUS.RING_OVR p], f.key ≠ (R.EKL.STAT.COUNT p 13).key := by
    simp only [List.mem_cons, List.not_mem_nil, or_false, forall_eq_or_imp, forall_eq, Fld.key, R.EKL.STATUS.SEQ, R.EKL.STATUS.RING_OVR, R.EKL.STAT.COUNT]
    omega
  have hev := leaves_event 9 (R.EKL.STATUS.SEQ p) [R.EKL.STATUS.RING_OVR p] d
  have hraise : Raised (R.EKL.STATUS.SEQ p) [R.EKL.STATUS.RING_OVR p] d (event 9 (R.EKL.STATUS.SEQ p) [R.EKL.STATUS.RING_OVR p] d) :=
    raised_event hb (by simp [R.EKL.STATUS.RING_OVR]) (by
      simp only [List.map_cons, List.map_nil, List.mem_cons, List.not_mem_nil, or_false, Fld.key, R.EKL.STATUS.SEQ, R.EKL.STATUS.RING_OVR]
      omega) rfl
  unfold ringOverrun eklStat inc
  generalize event 9 (R.EKL.STATUS.SEQ p) [R.EKL.STATUS.RING_OVR p] d = e at hev hraise ⊢
  have hrest := (leaves_put (R.EKL.STAT.COUNT p 13) (e.get (R.EKL.STAT.COUNT p 13) + 1) e).trans (leaves_eklPerf p 0xd 1 _)
  refine ⟨(hev.trans hrest).mono (by simp [seqAnd]), raised_then hraise hrest hb fun f hf => ?_, ?_⟩
  · simpa using hne f hf
  · rw [Counted, (leaves_eklPerf p 0xd 1 _).get (hbook _ (by simp [ringRegs])) (by simp), get_put_self,
      hev.get (hbook _ (by simp [ringRegs]))]
    simp only [seqAnd, List.map_cons, List.map_nil, List.mem_cons, List.not_mem_nil, or_false, not_or]
    exact ⟨(hne _ (by simp)).symm, (hne _ (by simp)).symm⟩

/-- The line of a slot is posted, where the region's owner is the port, and metered. -/
def slotPosted (bs : List Byte) (c : Bool) (a : Nat) (d : Dev) : Dev := meterUser 0 bs.length (when c (dramWrite a bs) d)

theorem slotPosted_port (bs : List Byte) (c : Bool) (a : Nat) (x : KMap PortS) (d : Dev) :
    slotPosted bs c a { d with port := x } = { slotPosted bs c a d with port := x } := by
  unfold slotPosted
  cases c with
  | true => exact congrArg (meterUser 0 bs.length) (dramWrite_port ..)
  | false => rfl

theorem get_slotPosted (bs : List Byte) (c : Bool) (a : Nat) (d : Dev) (f : Fld) : (slotPosted bs c a d).get f = d.get f := by
  unfold slotPosted
  cases c with
  | true => exact get_dramWrite ..
  | false => rfl

theorem port_slot (f : Fld) (v p : Nat) (x : PortS) (d : Dev) : { d with port := (put f v (setPort p x d)).port } = setPort p x d := rfl

theorem when_of {c : Bool} (h : c = true) (F : Dev → Dev) (d : Dev) : when c F d = F d := by rw [h]; rfl

theorem portS_put (f : Fld) (v : Nat) (d : Dev) (p : Nat) : (put f v d).portS p = d.portS p := rfl

theorem get_setPort (p : Nat) (x : PortS) (d : Dev) (f : Fld) : (setPort p x d).get f = d.get f := rfl

/-- A port whose oldest line for the ring is written. -/
def ringMoved (rest : List CamLine) (lost : KMap (Option (Nat × Nat × Nat))) (x : PortS) : PortS :=
  { x with ringOut := rest, ringSeq := x.ringSeq + 1, ringLost := lost }

theorem ringSlotWritten_eq {p : Nat} {l : CamLine} {rest : List CamLine} {d : Dev} (m : Mem) (hout : (d.portS p).ringOut = l :: rest) (hn : d.ringSlots p ≠ 0)
    {bs : List Byte} (hbs : bs = ringHeader d p l ((d.portS p).ringSeq % 2 ^ 32) ++
      (if l.token then [] else l.planes.flatMap (fun xs => xs.flatMap (leBytes 2)))) :
    ∃ lost, ringSlotWritten p m d = when (decide ((d.portS p).ringRd + d.ringSlots p ≤ (d.portS p).ringSeq)) (ringOverrun p)
      (put (R.EKL.RING_WR.SLOT p) (((d.portS p).ringSeq + 1) % d.ringSlots p) (setPort p (ringMoved rest lost (d.portS p))
        (slotPosted bs (d.mayUse 3 (d.get (R.EKL.CTL.RING_RGN p)) 4) (d.ringAddr p ((d.portS p).ringSeq % d.ringSlots p)) d))) := by
  subst hbs
  unfold ringSlotWritten
  simp only [hout]
  rw [if_neg hn]
  exact ⟨_, rfl⟩

theorem ringSlotWritten_none (p : Fin 12) (s : State) (h : (s.dev.portS p.val).ringOut = []) :
    Completes (.ringSlotWritten p) s (fun t => t = s.after s.dev) :=
  completes_run (exec_ringSlotWritten ..) (if_pos (by rw [h]; rfl)) rfl

theorem ringSlotWritten_err (p : Fin 12) (w : String) (s : State) (h : (s.dev.portS p.val).ringOut ≠ []) (he : s.dev.ringErr p.val = some w) :
    exec (.ringSlotWritten p) s = .fault (.hostError w) := by
  refine (exec_ringSlotWritten ..).trans (run_fault ?_)
  rw [if_neg (by simpa using h), he]

theorem ringSlots_of_ringErr {d : Dev} {p : Nat} (h : d.ringErr p = none) : d.ringSlots p ≠ 0 := by
  unfold Dev.ringErr at h
  split at h
  · cases h
  · split at h
    · cases h
    · omega

theorem ringSlotWritten_completes (p : Fin 12) (l : CamLine) (rest : List CamLine) (bs : List Byte) (s : State)
    (hout : (s.dev.portS p.val).ringOut = l :: rest) (herr : s.dev.ringErr p.val = none)
    (hbs : bs = ringHeader s.dev p.val l ((s.dev.portS p.val).ringSeq % 2 ^ 32) ++
      (if l.token then [] else l.planes.flatMap (fun xs => xs.flatMap (leBytes 2)))) :
    Completes (.ringSlotWritten p) s (fun t =>
      (t.dev.portS p.val).ringOut = rest ∧ (t.dev.portS p.val).ringSeq = (s.dev.portS p.val).ringSeq + 1 ∧
      t.dev.get (R.EKL.RING_WR.SLOT p.val) =
        ((s.dev.portS p.val).ringSeq + 1) % s.dev.ringSlots p.val % 2 ^ (R.EKL.RING_WR.SLOT p.val).w ∧
      ((s.dev.portS p.val).ringRd + s.dev.ringSlots p.val ≤ (s.dev.portS p.val).ringSeq →
        Raised (R.EKL.STATUS.SEQ p.val) [R.EKL.STATUS.RING_OVR p.val] s.dev t.dev ∧ Counted (R.EKL.STAT.COUNT p.val 13) 1 s.dev t.dev) ∧
      Frame [R.EKL.RING_WR.SLOT p.val, R.EKL.STATUS.SEQ p.val, R.EKL.STATUS.RING_OVR p.val, R.EKL.STAT.COUNT p.val 13]
        (meterUser 0 bs.length (when (s.dev.mayUse 3 (s.dev.get (R.EKL.CTL.RING_RGN p.val)) 4)
          (dramWrite (s.dev.ringAddr p.val ((s.dev.portS p.val).ringSeq % s.dev.ringSlots p.val)) bs) { s.dev with port := t.dev.port })) s t) := by
  obtain ⟨lost, heq⟩ := ringSlotWritten_eq s.mem hout (ringSlots_of_ringErr herr) hbs
  generalize hx : ringMoved rest lost (s.dev.portS p.val) = x at heq
  have hxo : x.ringOut = rest ∧ x.ringSeq = (s.dev.portS p.val).ringSeq + 1 := by rw [← hx]; exact ⟨rfl, rfl⟩
  generalize s.dev.ringAddr p.val _ = a at heq ⊢
  generalize s.dev.mayUse 3 _ 4 = c at heq ⊢
  generalize hg : put (R.EKL.RING_WR.SLOT p.val) _ (setPort p.val x _) = g at heq
  have hslot : g.get (R.EKL.RING_WR.SLOT p.val) = ((s.dev.portS p.val).ringSeq + 1) % s.dev.ringSlots p.val % 2 ^ (R.EKL.RING_WR.SLOT p.val).w := by
    rw [← hg]
    exact get_put_self ..
  have hgx : g.portS p.val = x := by
    rw [← hg, portS_put, portS_setPort]
  have hgget : ∀ f : Fld, f.key ≠ (R.EKL.RING_WR.SLOT p.val).key → g.get f = s.dev.get f := fun f hf => by
    rw [← hg, get_put_ne hf, get_setPort, get_slotPosted]
  have hbase : Leaves [R.EKL.RING_WR.SLOT p.val] (slotPosted bs c a { s.dev with port := g.port }) g := by
    rw [slotPosted_port, ← hg, port_slot]
    exact leaves_put ..
  have hover := ringOverrun_facts p.isLt g
  have hbook := ringRegs_book p.isLt
  have hne : ∀ f ∈ [R.EKL.STATUS.SEQ p.val, R.EKL.STAT.COUNT p.val 13], f.key ≠ (R.EKL.RING_WR.SLOT p.val).key := by
    simp only [List.mem_cons, List.not_mem_nil, or_false, forall_eq_or_imp, forall_eq, Fld.key, R.EKL.STATUS.SEQ, R.EKL.STAT.COUNT, R.EKL.RING_WR.SLOT]
    omega
  generalize hf : when (decide ((s.dev.portS p.val).ringRd + s.dev.ringSlots p.val ≤ (s.dev.portS p.val).ringSeq)) (ringOverrun p.val) g = e at heq
  have hge : Leaves [R.EKL.STATUS.SEQ p.val, R.EKL.STATUS.RING_OVR p.val, R.EKL.STAT.COUNT p.val 13] g e := hf ▸ leaves_when _ _ _ hover.1
  have hport := port_of_leaves hge
  refine completes_run (exec_ringSlotWritten ..) (d := e) ?_ ⟨?_, ?_, ?_, fun hlost => ?_, ?_⟩
  · rw [if_neg (by simp [hout]), herr]
    exact congrArg Host.Outcome.next heq
  · rw [portS_after, Dev.portS, hport]
    exact (congrArg PortS.ringOut hgx).trans hxo.1
  · rw [portS_after, Dev.portS, hport]
    exact (congrArg PortS.ringSeq hgx).trans hxo.2
  · rw [get_after, hge.get (hbook _ (by simp [ringRegs])), hslot]
    simp only [List.map_cons, List.map_nil, List.mem_cons, List.not_mem_nil, or_false, Fld.key, R.EKL.STATUS.SEQ, R.EKL.STATUS.RING_OVR, R.EKL.STAT.COUNT,
      R.EKL.RING_WR.SLOT]
    omega
  · have hgone : e = ringOverrun p.val g := hf.symm.trans (when_of (decide_eq_true hlost) ..)
    rw [hgone]
    have hseq : g.get (R.EKL.STATUS.SEQ p.val) = s.dev.get (R.EKL.STATUS.SEQ p.val) := hgget _ (hne _ (by simp))
    have hcount : g.get (R.EKL.STAT.COUNT p.val 13) = s.dev.get (R.EKL.STAT.COUNT p.val 13) := hgget _ (hne _ (by simp))
    have h1 := raised_after (raised_of_get hover.2.1 hseq) s
    have h2 := counted_of_get hover.2.2 hcount (get_after s (ringOverrun p.val g) _)
    exact ⟨h1, h2⟩
  · rw [after_port, hport]
    rw [slotPosted] at hbase
    exact frame_of_leaves (hbase.trans hge) s

/-! ## The line watchdog -/

theorem dt_lt (d : Dev) : d.dt < 2 ^ 64 := Nat.mod_lt _ (by decide)

theorem closeLine_last (p : Nat) (r : LineRec) (d : Dev) : (closeLine p r d).get (R.EKL.LAST_LSN.LSN p) = r.lsn % 2 ^ 32 ∧
    (closeLine p r d).get (R.EKL.LAST_DT.DT p) = d.dt := by
  unfold closeLine
  dsimp only
  generalize slot 9 (ekl p) 1 _ _ = e
  have hlast := forwardLine_last (p := p) (buildLine d p r) e
  rw [show (buildLine d p r).lsn = r.lsn from rfl, show (buildLine d p r).dtDone = d.dt from rfl, Nat.mod_eq_of_lt (dt_lt d)] at hlast
  exact hlast

theorem missLine_last (p : Nat) (r : LineRec) (d : Dev) : (missLine p r d).get (R.EKL.LAST_LSN.LSN p) = r.lsn % 2 ^ 32 ∧
    (missLine p r d).get (R.EKL.LAST_DT.DT p) = d.dt := by
  unfold missLine
  dsimp only
  generalize hg : setLine p { r with st := .isMissing } d = g
  have hgt : g.tim = d.tim := by rw [← hg]; rfl
  generalize hk : when (g.get (R.EKL.STATUS.STATE p) == 4) (eklStat p 1 1) g = k
  have hkt : k.tim = d.tim := by
    rw [← hk, proj_when (·.tim) _ rfl, hgt]
  generalize hn : setPort p { k.portS p with missCount := (k.portS p).missCount + 1 } k = n
  have hnt : n.dt = d.dt := by
    rw [← hn, Dev.dt, Dev.dt]
    exact congrArg (fun t : TimS => t.acc / 2 ^ 32 % 2 ^ 64) hkt
  obtain ⟨h1, h2⟩ := forwardLine_last (p := p) (tokenLine p r.lsn r.e n) n
  exact ⟨h1, h2.trans ((Nat.mod_eq_of_lt (dt_lt n)).trans hnt)⟩

theorem lineWatchdog_completes (p : Fin 12) (r : LineRec) (d : Dev) (s : State) (hr : s.dev.oldestOpen p.val = some r)
    (hd : d = reachNs r.e (max 5000 (r.lineTo.getD (s.dev.get (R.EKL.LINE_TO.NS p.val)))) s.dev) :
    Completes (.lineWatchdog p) s (fun t =>
      t = s.after (if r.hasSample then closeLine p.val r d else missLine p.val r d) ∧
      t.dev.get (R.EKL.LAST_LSN.LSN p.val) = r.lsn % 2 ^ 32 ∧ t.dev.get (R.EKL.LAST_DT.DT p.val) = d.dt) := by
  refine completes_to (exec_lineWatchdog ..) (if r.hasSample then closeLine p.val r d else missLine p.val r d) ?_ ⟨rfl, ?_⟩
  · rw [lineWatchdog, hr, hd]
  · rw [get_after, get_after]
    split
    · exact closeLine_last ..
    · exact missLine_last ..

/-! ## A port goes down -/

theorem stateIf {p : Nat} {cause : Nat} {d e : Dev} (h : WentDown p cause d e) (hc : cause ≠ 5) :
    e.get (R.EKL.STATUS.STATE p) = if d.on (R.EKL.CTL.AUTO_RELINK p) then 1 else 5 := by
  rw [h.state]
  simp only [hc, or_false]

theorem camStatusTimeout_completes (p : Fin 12) (d : Dev) (s : State) (hst : s.dev.get (R.EKL.STATUS.STATE p.val) = 4)
    (hd : d = reachNs (s.dev.portS p.val).lastStat 300000000 s.dev) :
    Completes (.camStatusTimeout p) s (fun t =>
      t.dev.get (R.EKL.STATUS.STATE p.val) = (if d.on (R.EKL.CTL.AUTO_RELINK p.val) then 1 else 5) ∧
      t.dev.get (R.EKL.DOWN_CAUSE.CAUSE p.val) = 3 ∧ t.dev.on (R.EKL.STATUS.STAT_TO p.val) = true ∧ t.dev.on (R.EKL.STATUS.DOWN p.val) = true) := by
  have hbook : ∀ f ∈ [R.EKL.STATUS.STAT_TO p.val, R.EKL.CTL.AUTO_RELINK p.val], ctlKey p.val f.key := by
    simp only [List.mem_cons, List.not_mem_nil, or_false, forall_eq_or_imp, forall_eq, ctlKey, ekl, Fld.key, R.EKL.STATUS.STAT_TO, R.EKL.CTL.AUTO_RELINK]
    omega
  have hflag : (event 9 (R.EKL.STATUS.SEQ p.val) [R.EKL.STATUS.STAT_TO p.val] d).get (R.EKL.STATUS.STAT_TO p.val) = 1 :=
    get_event_flag (ctlKey_not_book (hbook _ (by simp))) (by simp [R.EKL.STATUS.STAT_TO]) (by simp) 9 d
  have hauto : (event 9 (R.EKL.STATUS.SEQ p.val) [R.EKL.STATUS.STAT_TO p.val] d).on (R.EKL.CTL.AUTO_RELINK p.val) = d.on (R.EKL.CTL.AUTO_RELINK p.val) := by
    refine congrArg (· == 1) ((leaves_event ..).get (ctlKey_not_book (hbook _ (by simp))) ?_)
    simp only [seqAnd, List.map_cons, List.map_nil, List.mem_cons, List.not_mem_nil, or_false, Fld.key, R.EKL.STATUS.SEQ, R.EKL.STATUS.STAT_TO, R.EKL.CTL.AUTO_RELINK]
    omega
  have hdown := downEvent_facts p.isLt 3 (event 9 (R.EKL.STATUS.SEQ p.val) [R.EKL.STATUS.STAT_TO p.val] d)
  refine completes_to (exec_camStatusTimeout ..) (downEvent p.val 3 (event 9 (R.EKL.STATUS.SEQ p.val) [R.EKL.STATUS.STAT_TO p.val] d)) ?_ ?_
  · dsimp only
    rw [if_pos hst, hd]
  generalize event 9 (R.EKL.STATUS.SEQ p.val) [R.EKL.STATUS.STAT_TO p.val] d = g at hflag hauto hdown ⊢
  generalize downEvent p.val 3 g = e at hdown ⊢
  refine ⟨?_, (get_after ..).trans hdown.why, ?_, (on_after ..).trans hdown.down⟩
  · rw [get_after, stateIf hdown (by decide), hauto]
  · rw [on_after, Dev.on, hdown.get _ (hbook _ (by simp)), hflag]
    · rfl
    · simp only [List.map_cons, List.map_nil, List.mem_cons, List.not_mem_nil, or_false, Fld.key, R.EKL.STATUS.SEQ, R.EKL.STATUS.STAT_TO, R.EKL.STATUS.STATE,
        R.EKL.DOWN_CAUSE.CAUSE, R.EKL.STATUS.DOWN]
      omega

theorem hold_completes (p : Fin 12) (s : State) (h0 : s.dev.get (R.EKL.STATUS.STATE p.val) ≠ 0) (h5 : s.dev.get (R.EKL.STATUS.STATE p.val) ≠ 5) :
    Completes (.hold p) s (fun t =>
      t.dev.get (R.EKL.STATUS.STATE p.val) = (if s.dev.on (R.EKL.CTL.AUTO_RELINK p.val) then 1 else 5) ∧
      t.dev.get (R.EKL.DOWN_CAUSE.CAUSE p.val) = 4 ∧ t.dev.on (R.EKL.STATUS.DOWN p.val) = true) := by
  have hdown := downEvent_facts p.isLt 4 s.dev
  refine completes_to (exec_hold ..) (downEvent p.val 4 s.dev) ?_ ⟨(get_after ..).trans (stateIf hdown (by decide)), (get_after ..).trans hdown.why,
    (on_after ..).trans hdown.down⟩
  rw [holdPort, if_pos (by simp [Dev.portOn, h0, h5])]

theorem hold_none (p : Fin 12) (s : State) (h : s.dev.get (R.EKL.STATUS.STATE p.val) = 0 ∨ s.dev.get (R.EKL.STATUS.STATE p.val) = 5) :
    Completes (.hold p) s (fun t => t = s.after s.dev) := by
  refine completes_to (exec_hold ..) s.dev ?_ rfl
  rw [holdPort, if_neg]
  rcases h with h | h <;> simp [Dev.portOn, h]

theorem relink_completes (p : Fin 12) (s : State) (h0 : s.dev.get (R.EKL.STATUS.STATE p.val) ≠ 0) :
    Completes (.relink p) s (fun t =>
      t.dev.get (R.EKL.STATUS.STATE p.val) = 1 ∧ t.dev.get (R.EKL.DOWN_CAUSE.CAUSE p.val) = 5 ∧
      (t.dev.portS p.val).mseq = 0 ∧ (t.dev.portS p.val).echo = none) := by
  have hdown := downEvent_facts p.isLt 5 s.dev
  refine completes_to (exec_relink ..) (downEvent p.val 5 s.dev) ?_ ⟨(get_after ..).trans (hdown.state.trans (if_pos (.inr rfl))),
    (get_after ..).trans hdown.why, hdown.relinked (.inr rfl)⟩
  rw [relinkPort, if_pos (by simp [Dev.portOn, h0])]

/-- Settles O36. -/
theorem portsLoseLinesAndGoDown : Obligations.PortsLoseLinesAndGoDown := by
  unfold Obligations.PortsLoseLinesAndGoDown
  exact ⟨ringSlotWritten_none, ringSlotWritten_err, ringSlotWritten_completes, lineWatchdog_completes, camStatusTimeout_completes, hold_completes,
    hold_none, relink_completes⟩

end Sys2Proof.Proofs
end

section
/-!
Equaliser steps, injected errors and the PMA checker of a lane (R105, R118 to R124).
-/
namespace Sys2Proof.Proofs
open Sys2Proof Sys2Proof.Machine

/-! ## Equaliser steps -/

theorem bits_setBits_same (v lo w x : Nat) : bits (setBits v lo w x) lo w = x % 2 ^ w := by
  have hlow : v % 2 ^ lo < 2 ^ lo := Nat.mod_lt _ (Nat.two_pow_pos lo)
  have hsplit : setBits v lo w x = v % 2 ^ lo + (x % 2 ^ w + v / 2 ^ (lo + w) * 2 ^ w) * 2 ^ lo := by
    rw [setBits, Nat.pow_add]
    ring
  rw [bits, hsplit, Nat.add_mul_div_right _ _ (Nat.two_pow_pos lo), Nat.div_eq_of_lt hlow, Nat.zero_add, Nat.add_mul_mod_self_right, Nat.mod_mod]

theorem sgn_unsgn_tap {x : Int} (hlo : -16 ≤ x) (hhi : x ≤ 15) : sgn 5 (unsgn 5 x) = x := by
  unfold sgn unsgn
  omega

theorem clampI_mem {lo hi : Int} (h : lo ≤ hi) (x : Int) : lo ≤ clampI lo hi x ∧ clampI lo hi x ≤ hi := by
  unfold clampI
  split
  · exact ⟨le_refl _, h⟩
  · split
    · exact ⟨h, le_refl _⟩
    · omega

/-- The lane notes when its equaliser last stepped. -/
def eqStamped (l : Nat) (d : Dev) : Dev := setLane l { d.laneS l with lastEq := some d.dt } d

/-- A CTLE step. -/
def ctleStep (l : Nat) (up : Bool) (d : Dev) : Dev :=
  lnePerf l 9 (b2n ((if up then min 15 (d.get (R.LNE.EQ_CTLE.CODE l) + 1) else d.get (R.LNE.EQ_CTLE.CODE l) - 1) != d.get (R.LNE.EQ_CTLE.CODE l)))
    (put (R.LNE.EQ_CTLE.CODE l) (if up then min 15 (d.get (R.LNE.EQ_CTLE.CODE l) + 1) else d.get (R.LNE.EQ_CTLE.CODE l) - 1) d)

/-- Where a tap goes. -/
def tapTo (t lo : Nat) (up : Bool) : Int := clampI (-16) 15 (sgn 5 (bits t lo 5) + (if up then 1 else -1))

/-- A step of a DFE tap. -/
def tapStep (l lo : Nat) (up : Bool) (d : Dev) : Dev :=
  lnePerf l 9 (b2n (tapTo (d.get (R.LNE.EQ_DFE.TAPS l)) lo up != sgn 5 (bits (d.get (R.LNE.EQ_DFE.TAPS l)) lo 5)))
    (put (R.LNE.EQ_DFE.TAPS l) (setBits (d.get (R.LNE.EQ_DFE.TAPS l)) lo 5 (unsgn 5 (tapTo (d.get (R.LNE.EQ_DFE.TAPS l)) lo up))) d)

theorem execEqStep_eq (l : Fin 48) (code : Fin 7) (up : Bool) (s : State) : execEqStep l code up s = total (fun _ d =>
    if d.on (R.LNE.CTL.FREEZE l.val) || d.get R.PWR.STATUS.STATE == 3 || (d.laneS l.val).phase < 5 then d
    else
      if code.val = 0 then
        if (eqStamped l.val (match (d.laneS l.val).lastEq with | some t => reachNs t 10000 d | none => d)).on (R.LNE.CTL.CTLE_FIX l.val) then
          eqStamped l.val (match (d.laneS l.val).lastEq with | some t => reachNs t 10000 d | none => d)
        else ctleStep l.val up (eqStamped l.val (match (d.laneS l.val).lastEq with | some t => reachNs t 10000 d | none => d))
      else tapStep l.val (5 * (code.val - 1)) up (eqStamped l.val (match (d.laneS l.val).lastEq with | some t => reachNs t 10000 d | none => d))) s := rfl

theorem eqStep_idle (l : Fin 48) (code : Fin 7) (up : Bool) (s : State)
    (h : s.dev.on (R.LNE.CTL.FREEZE l.val) = true ∨ s.dev.get R.PWR.STATUS.STATE = 3) : Completes (.eqStep l code up) s (fun t => t = s.after s.dev) := by
  refine completes_to ((exec_eqStep ..).trans (execEqStep_eq ..)) s.dev (if_pos ?_) rfl
  rcases h with h | h <;> simp [h]

theorem eqStamped_lane (l : Nat) (d : Dev) : LaneStep l [] d (eqStamped l d) := laneStep_setLane ..

theorem get_eqStamped (l : Nat) (d : Dev) (f : Fld) : (eqStamped l d).get f = d.get f := rfl

theorem eqGoes {l : Nat} {d : Dev} (hf : d.on (R.LNE.CTL.FREEZE l) = false) (h3 : d.get R.PWR.STATUS.STATE ≠ 3) (hp : 5 ≤ (d.laneS l).phase) :
    ¬ ((d.on (R.LNE.CTL.FREEZE l) || d.get R.PWR.STATUS.STATE == 3 || decide ((d.laneS l).phase < 5)) = true) := by
  simp [hf, h3]
  omega

theorem eqStep_ctle (l : Fin 48) (up : Bool) (s : State) (e : Dev) (hf : s.dev.on (R.LNE.CTL.FREEZE l.val) = false)
    (h3 : s.dev.get R.PWR.STATUS.STATE ≠ 3) (hp : 5 ≤ (s.dev.laneS l.val).phase)
    (he : e = (match (s.dev.laneS l.val).lastEq with | some x => reachNs x 10000 s.dev | none => s.dev)) (hfix : e.on (R.LNE.CTL.CTLE_FIX l.val) = false) :
    Completes (.eqStep l 0 up) s (fun t =>
      t.dev.get (R.LNE.EQ_CTLE.CODE l.val) =
        (if up then min 15 (e.get (R.LNE.EQ_CTLE.CODE l.val) + 1) else e.get (R.LNE.EQ_CTLE.CODE l.val) - 1) % 16 ∧
      Frame [R.LNE.EQ_CTLE.CODE l.val] { e with lane := t.dev.lane } s t) := by
  have hl : l.val < 60 := by omega
  have hget := get_eqStamped l.val e (R.LNE.EQ_CTLE.CODE l.val)
  have hon : (eqStamped l.val e).on (R.LNE.CTL.CTLE_FIX l.val) = false := hfix
  have hstep := eqStamped_lane l.val e
  refine completes_to ((exec_eqStep ..).trans (execEqStep_eq ..)) (ctleStep l.val up (eqStamped l.val e)) ?_ ?_
  · rw [if_neg (eqGoes hf h3 hp), if_pos (by rfl), ← he, if_neg (by rw [hon]; decide)]
  generalize eqStamped l.val e = g at hget hstep ⊢
  unfold ctleStep
  rw [hget]
  generalize (if up then min 15 (e.get (R.LNE.EQ_CTLE.CODE l.val) + 1) else e.get (R.LNE.EQ_CTLE.CODE l.val) - 1) = v
  have hall := (hstep.trans (laneStep_put l.val (R.LNE.EQ_CTLE.CODE l.val) v g)).trans (laneStep_lnePerf hl 9 (b2n (v != e.get (R.LNE.EQ_CTLE.CODE l.val))) _)
  refine ⟨?_, frame_lane (hall.mono (by simp)).upto s⟩
  rw [get_after, (leaves_lnePerf hl ..).get (f := R.LNE.EQ_CTLE.CODE l.val) (book_lne (o := 0x10) hl (by decide) (by decide)) (by simp), get_put_self]
  rfl

theorem eqStep_tap (l : Fin 48) (code : Fin 7) (up : Bool) (s : State) (e : Dev) (hc : code.val ≠ 0) (hf : s.dev.on (R.LNE.CTL.FREEZE l.val) = false)
    (h3 : s.dev.get R.PWR.STATUS.STATE ≠ 3) (hp : 5 ≤ (s.dev.laneS l.val).phase)
    (he : e = (match (s.dev.laneS l.val).lastEq with | some x => reachNs x 10000 s.dev | none => s.dev)) (_ : e.get (R.LNE.EQ_DFE.TAPS l.val) < 2 ^ 30) :
    Completes (.eqStep l code up) s (fun t =>
      sgn 5 (bits (t.dev.get (R.LNE.EQ_DFE.TAPS l.val)) (5 * (code.val - 1)) 5) =
        clampI (-16) 15 (sgn 5 (bits (e.get (R.LNE.EQ_DFE.TAPS l.val)) (5 * (code.val - 1)) 5) + (if up then 1 else -1)) ∧
      Frame [R.LNE.EQ_DFE.TAPS l.val] { e with lane := t.dev.lane } s t) := by
  have hl : l.val < 60 := by omega
  have hget := get_eqStamped l.val e (R.LNE.EQ_DFE.TAPS l.val)
  have hstep := eqStamped_lane l.val e
  refine completes_to ((exec_eqStep ..).trans (execEqStep_eq ..)) (tapStep l.val (5 * (code.val - 1)) up (eqStamped l.val e)) ?_ ?_
  · rw [if_neg (eqGoes hf h3 hp), if_neg hc, ← he]
  generalize eqStamped l.val e = g at hget hstep ⊢
  unfold tapStep
  rw [hget]
  have hmem := clampI_mem (by decide : (-16 : Int) ≤ 15) (sgn 5 (bits (e.get (R.LNE.EQ_DFE.TAPS l.val)) (5 * (code.val - 1)) 5) + (if up then 1 else -1))
  have hall := (hstep.trans (laneStep_put l.val (R.LNE.EQ_DFE.TAPS l.val) (setBits (e.get (R.LNE.EQ_DFE.TAPS l.val)) (5 * (code.val - 1)) 5
    (unsgn 5 (tapTo (e.get (R.LNE.EQ_DFE.TAPS l.val)) (5 * (code.val - 1)) up))) g)).trans (laneStep_lnePerf hl 9 (b2n (tapTo (e.get (R.LNE.EQ_DFE.TAPS l.val))
      (5 * (code.val - 1)) up != sgn 5 (bits (e.get (R.LNE.EQ_DFE.TAPS l.val)) (5 * (code.val - 1)) 5))) _)
  refine ⟨?_, frame_lane (hall.mono (by simp)).upto s⟩
  rw [get_after, (leaves_lnePerf hl ..).get (f := R.LNE.EQ_DFE.TAPS l.val) (book_lne (o := 0x14) hl (by decide) (by decide)) (by simp), get_put_self,
    bits_mod (n := (R.LNE.EQ_DFE.TAPS l.val).w) (by change _ ≤ 30; omega), bits_setBits_same, Nat.mod_eq_of_lt (unsgn_lt ..)]
  exact sgn_unsgn_tap hmem.1 hmem.2

/-! ## Injected errors -/

/-- The lane's transmitter with one more error to inject. -/
def injected (l k : Nat) (d : Dev) : Dev := setTx l { (d.laneS l).tx with inj := k :: (d.laneS l).tx.inj } d

/-- The lane's next injection, as it leaves the device. -/
def injectedOut (l k : Nat) (d : Dev) : Dev := lnePerf l 0xb 1 (emit (.downInj l k) (injected l k d))

theorem injectedOut_facts {l : Nat} (hl : l < 60) (k : Nat) (d : Dev) :
    (injectedOut l k d).out = .downInj l k :: d.out ∧ ((injectedOut l k d).laneS l).tx.inj = k :: (d.laneS l).tx.inj ∧
    ((injectedOut l k d).laneS l).tx.line = (d.laneS l).tx.line ∧
    (injectedOut l k d).port = d.port ∧ (injectedOut l k d).free = d.free ∧ Upto withSent [] d (injectedOut l k d) := by
  have hperf := leaves_lnePerf hl 0xb 1 (emit (.downInj l k) (injected l k d))
  have hupto : Upto withSent [] d (emit (.downInj l k) (injected l k d)) := upto_of_eq fun _ => rfl
  have hlane : (emit (.downInj l k) (injected l k d)).laneS l = { d.laneS l with tx := { (d.laneS l).tx with inj := k :: (d.laneS l).tx.inj } } :=
    laneS_setLane ..
  unfold injectedOut
  and_intros
  · exact (out_of_leaves hperf).trans rfl
  · rw [laneS_of_leaves hperf, hlane]
  · rw [laneS_of_leaves hperf, hlane]
  · exact (port_of_leaves hperf).trans rfl
  · exact (free_of_leaves hperf).trans rfl
  · exact hupto.trans (upto_of_leaves setsPart_withSent hperf)

theorem inject_eq (l : Nat) (d : Dev) : inject l d = if d.get (R.LNE.INJ.KIND l) = 0 then d else injectedOut l (d.get (R.LNE.INJ.KIND l)) d := rfl

theorem inject_facts {l : Nat} (hl : l < 60) (d : Dev) :
    (inject l d).out = (if d.get (R.LNE.INJ.KIND l) = 0 then d.out else .downInj l (d.get (R.LNE.INJ.KIND l)) :: d.out) ∧
    ((inject l d).laneS l).tx.inj = (if d.get (R.LNE.INJ.KIND l) = 0 then [] else [d.get (R.LNE.INJ.KIND l)]) ++ (d.laneS l).tx.inj ∧
    ((inject l d).laneS l).tx.line = (d.laneS l).tx.line ∧
    (inject l d).port = d.port ∧ (inject l d).free = d.free ∧ Upto withSent [] d (inject l d) := by
  rw [inject_eq]
  generalize d.get (R.LNE.INJ.KIND l) = k
  split
  · exact ⟨rfl, rfl, rfl, rfl, rfl, upto_of_eq fun _ => rfl⟩
  · exact injectedOut_facts hl k d

theorem injOnce_completes (l : Fin 60) (s : State) : Completes (.injOnce l) s (fun t =>
    t.dev.out = (if s.dev.get (R.LNE.INJ.KIND l.val) = 0 then s.dev.out else .downInj l.val (s.dev.get (R.LNE.INJ.KIND l.val)) :: s.dev.out) ∧
    (t.dev.laneS l.val).tx.inj = (if s.dev.get (R.LNE.INJ.KIND l.val) = 0 then [] else [s.dev.get (R.LNE.INJ.KIND l.val)]) ++ (s.dev.laneS l.val).tx.inj ∧
    Frame [] { s.dev with out := t.dev.out, lane := t.dev.lane } s t) := by
  obtain ⟨hout, hinj, -, hport, hfree, hupto⟩ := inject_facts l.isLt s.dev
  refine completes_to (exec_injOnce ..) _ rfl ?_
  generalize inject l.val s.dev = e at hout hinj hport hfree hupto ⊢
  refine ⟨hout, hinj, ?_⟩
  have h := frame_of_upto hupto s (e.lane, e.port, e.out, e.free) rfl
  rw [hport, hfree] at h
  exact h

theorem injectionInterval_zero (l : Fin 60) (s : State) (h : s.dev.get (R.LNE.INJ.INTERVAL l.val) = 0) :
    Completes (.injectionInterval l) s (fun t => t = s.after s.dev) := completes_to (exec_injectionInterval ..) s.dev (if_pos h) rfl

theorem injectionInterval_quiet (l : Fin 60) (s : State) (hn : s.dev.get (R.LNE.INJ.INTERVAL l.val) ≠ 0) (ht : s.dev.transmits l.val = false) :
    Completes (.injectionInterval l) s (fun t =>
      t.dev.out = (if s.dev.get (R.LNE.INJ.KIND l.val) = 0 then s.dev.out else .downInj l.val (s.dev.get (R.LNE.INJ.KIND l.val)) :: s.dev.out) ∧
      Frame [] { s.dev with out := t.dev.out, lane := t.dev.lane } s t) := by
  obtain ⟨hout, -, -, hport, hfree, hupto⟩ := inject_facts l.isLt s.dev
  refine completes_to (exec_injectionInterval ..) (inject l.val s.dev) ?_ ?_
  · rw [if_neg hn, ht]
    rfl
  generalize inject l.val s.dev = e at hout hport hfree hupto ⊢
  refine ⟨hout, ?_⟩
  have h := frame_of_upto hupto s (e.lane, e.port, e.out, e.free) rfl
  rw [hport, hfree] at h
  exact h

/-! ## Blocks that a lane sends -/

/-- The lane sends this many blocks, and nothing else leaves the device or reaches a port. -/
structure Slots (l n : Nat) (d e : Dev) : Prop where
  only : LaneOnly d e
  line : (e.laneS l).tx.line.length = (d.laneS l).tx.line.length + n

section
variable {l m n : Nat} {d e g : Dev}

theorem Slots.trans (h : Slots l m d e) (h' : Slots l n e g) : Slots l (m + n) d g :=
  ⟨h.only.trans h'.only, by rw [h'.line, h.line, Nat.add_assoc]⟩

theorem slots_setTx {t : TxS} (h : t.line.length = (d.laneS l).tx.line.length + n) : Slots l n d (setTx l t d) :=
  ⟨laneOnly_setTx .., by rw [setTx, laneS_setLane]; exact h⟩

theorem slots_of_leaves (h : Leaves [] d e) : Slots l 0 d e := ⟨laneOnly_of_leaves h, by rw [laneS_of_leaves h]; rfl⟩

theorem Slots.get (h : Slots l n d e) {f : Fld} (hb : bookKey f.key = false) : e.get f = d.get f :=
  (h.only.upto.leaves (d.lane, d.port, d.out, d.free)).get hb (by simp)

theorem Slots.looped (h : Slots l n d e) (hl : l < 60) : e.looped l = d.looped l := by
  rw [Dev.looped, h.get (f := R.LNE.CTL.LPBK l) (book_lne (o := 0) hl (by decide) (by decide)), Dev.looped]

end

section
variable {l : Nat} (hl : l < 60) {d : Dev} (hloop : d.looped l = false)
include hl hloop

theorem slots_txLeave (b : Blk) : Slots l 1 d (txLeave l b d) := by
  unfold txLeave
  dsimp only
  rw [hloop, if_neg (by decide)]
  exact Slots.trans (m := 1) (n := 0) (slots_setTx rfl) (slots_of_leaves (leaves_lnePerf hl ..))

theorem slots_txMarker : ∃ n, Slots l n d (txMarker l d).2 ∧ n = if (txMarker l d).1.isSome then 1 else 0 := by
  unfold txMarker
  dsimp only
  split
  · exact ⟨0, slots_setTx rfl, rfl⟩
  · generalize markerBlk _ _ _ = b
    generalize ht : ({ (d.laneS l).tx with
      since := 0, bip := 0, count := ((d.laneS l).tx.count + 1) % 65536, inj := (d.laneS l).tx.inj.filter (fun k => k != 3 && k != 4) } : TxS) = t
    have hset : Slots l 0 d (setTx l t d) := slots_setTx (by rw [← ht]; rfl)
    dsimp only
    refine ⟨1, ?_, rfl⟩
    generalize setTx l t d = e at hset ⊢
    exact Slots.trans (m := 0) hset (slots_txLeave hl ((hset.looped hl).trans hloop) b)

theorem slots_txCoded (b : Blk) : Slots l 1 d (txCoded l b d).2 := by
  unfold txCoded
  dsimp only
  generalize List.foldl _ b _ = b'
  have hfree : Slots l 0 d (when (((d.laneS l).tx.inj.filter (fun k => k == 1 || k == 2)).contains 1) takeFree d) := by
    cases ((d.laneS l).tx.inj.filter (fun k => k == 1 || k == 2)).contains 1 with
    | true => exact ⟨laneOnly_takeFree d, rfl⟩
    | false => exact ⟨laneOnly_refl d, rfl⟩
  generalize when _ takeFree d = e at hfree ⊢
  generalize ht : ({ (d.laneS l).tx with
    since := (d.laneS l).tx.since + 1, bip := (d.laneS l).tx.bip ^^^ bipOf b, inj := (d.laneS l).tx.inj.filter (fun k => k != 1 && k != 2) } : TxS) = t
  have hset : Slots l 0 e (setTx l t e) := slots_setTx (by
    rw [← ht]
    exact hfree.line.symm)
  have hall := Slots.trans (m := 0) hfree hset
  exact Slots.trans (m := 0) hall (slots_txLeave hl ((hall.looped hl).trans hloop) b')

theorem slots_txBlock (b : Blk) : Slots l 1 d (txBlock l b d).2 := by
  unfold txBlock
  dsimp only
  generalize ht : ({ (d.laneS l).tx with scr := pushBits 58 (d.laneS l).tx.scr (scramble (d.laneS l).tx.scr (payloadBits b)) } : TxS) = t
  have hset : Slots l 0 d (setTx l t d) := slots_setTx (by rw [← ht]; rfl)
  exact Slots.trans (m := 0) hset (slots_txCoded hl ((hset.looped hl).trans hloop) _)

omit hl hloop in
theorem slots_txSource : Slots l 0 d (txSource l d).2 := by
  unfold txSource
  dsimp only
  split
  · exact ⟨laneOnly_refl d, rfl⟩
  split
  · exact slots_setTx rfl
  · exact ⟨laneOnly_refl d, rfl⟩

theorem slots_txOwn : Slots l 1 d (txBlock l (txSource l d).1 (txSource l d).2).2 := by
  have h := slots_txSource (l := l) (d := d)
  exact Slots.trans (m := 0) h (slots_txBlock hl ((h.looped hl).trans hloop) _)

/-- One block, whatever it carries, leaves in each slot. -/
theorem slots_txSlot : Slots l 1 d (txSlot l d).2 := by
  unfold txSlot
  dsimp only
  split
  · generalize ht : ({ (d.laneS l).tx with gen := (prbsRun (d.get (R.LNE.PAT_CTL.PMA_GEN l)) 66 (d.laneS l).tx.gen).2 } : TxS) = t
    have hset : Slots l 0 d (setTx l t d) := slots_setTx (by rw [← ht]; rfl)
    dsimp only
    generalize setTx l t d = e at hset ⊢
    exact Slots.trans (m := 0) hset (slots_txLeave hl ((hset.looped hl).trans hloop) _)
  split
  · obtain ⟨n, hm, hn⟩ := slots_txMarker hl hloop
    generalize txMarker l d = r at hm hn
    obtain ⟨o, e⟩ := r
    cases o with
    | some b =>
      replace hn : n = 1 := hn
      exact hn ▸ hm
    | none =>
      replace hn : n = 0 := hn
      subst hn
      exact Slots.trans (m := 0) hm (slots_txOwn hl ((hm.looped hl).trans hloop))
  · exact slots_txOwn hl hloop

theorem slots_sendSlot : Slots l 1 d (sendSlot l d) := by
  rw [sendSlot, if_neg (by rw [hloop]; decide)]
  exact slots_txSlot hl hloop

theorem slots_each (n : Nat) : Slots l n d (each (fun _ => sendSlot l) (List.range n) d) := by
  have hall : ∀ (xs : List Nat) (d : Dev), d.looped l = false → Slots l xs.length d (each (fun _ => sendSlot l) xs d) := fun xs => by
    induction xs with
    | nil => exact fun d _ => ⟨laneOnly_refl d, rfl⟩
    | cons x xs ih =>
      intro d h
      have h1 := slots_sendSlot hl h
      have h2 := ih _ ((h1.looped hl).trans h)
      rw [List.length_cons, Nat.add_comm]
      exact h1.trans h2
  have h := hall (List.range n) d hloop
  rwa [List.length_range] at h

end

theorem injectionInterval_sends (l : Fin 60) (s : State) (hn : s.dev.get (R.LNE.INJ.INTERVAL l.val) ≠ 0) (ht : s.dev.transmits l.val = true)
    (hloop : s.dev.looped l.val = false) :
    Completes (.injectionInterval l) s (fun t =>
      t.dev.out = (if s.dev.get (R.LNE.INJ.KIND l.val) = 0 then s.dev.out else .downInj l.val (s.dev.get (R.LNE.INJ.KIND l.val)) :: s.dev.out) ∧
      (t.dev.laneS l.val).tx.line.length = (s.dev.laneS l.val).tx.line.length + s.dev.get (R.LNE.INJ.INTERVAL l.val) ∧
      Frame [] { s.dev with out := t.dev.out, lane := t.dev.lane, free := t.dev.free } s t) := by
  have hslots := slots_each l.isLt hloop (s.dev.get (R.LNE.INJ.INTERVAL l.val))
  refine completes_to (exec_injectionInterval ..)
    (inject l.val (each (fun _ => sendSlot l.val) (List.range (s.dev.get (R.LNE.INJ.INTERVAL l.val))) s.dev)) ?_ ?_
  · rw [if_neg hn, ht]
    rfl
  generalize each _ _ s.dev = g at hslots ⊢
  obtain ⟨hout, -, hline, hport, -, hupto⟩ := inject_facts l.isLt g
  rw [hslots.get (f := R.LNE.INJ.KIND l.val) (book_lne (o := 0x48) l.isLt (by decide) (by decide)), hslots.only.out] at hout
  generalize inject l.val g = e at hout hline hport hupto ⊢
  refine ⟨hout, ?_, ?_⟩
  · rw [laneS_after, hline, hslots.line]
  · have h := frame_of_upto (hslots.only.upto.trans hupto) s (e.lane, e.port, e.out, e.free) rfl
    rw [hport, hslots.only.port] at h
    exact h

/-! ## The PMA checker -/

theorem rxBits_plain {l : Nat} {d : Dev} (hloop : d.looped l = false) (n : Nat) (xs : List Bool) :
    rxBits l (n + 1) xs d = (xs.map (fun x => x != d.on (R.LNE.CTL.RX_INV l)), d) := by
  rw [rxBits, if_neg (by rw [hloop]; decide)]

/-- Bits that arrive at a lane without a loopback. -/
theorem feedBits_plain {l : Nat} {d : Dev} (hloop : d.looped l = false) {xs : List Bool} (hlen : 0 < xs.length) (h66 : xs.length ≤ 66) :
    feedBits l xs d = each (feedBit l) (xs.map (fun x => x != d.on (R.LNE.CTL.RX_INV l))) d := by
  have hc : cdiv xs.length 66 = 0 + 1 := by
    unfold cdiv
    omega
  rw [feedBits, hc, rxBits_plain hloop]
  dsimp only
  rw [List.take_of_length_le (by rw [List.length_map])]

theorem length_prbsRun (kind n h : Nat) : (prbsRun kind n h).1.length = n := by
  induction n generalizing h with
  | zero => rfl
  | succ n ih => exact congrArg (· + 1) (ih _)

/-- The history of a checker after one more bit. -/
def chkPushed (b : Bool) (x : LaneS) : LaneS := { x with chkHist := pushBit 31 x.chkHist b }

/-- A checker after one more right bit before its lock. -/
def chkRan (x : LaneS) : LaneS := { x with chkRun := x.chkRun + 1, chkLock := decide (64 ≤ x.chkRun + 1), chkWin := [] }

/-- A locked checker after one more wrong bit. -/
def chkErred (x : LaneS) : LaneS := { x with chkWin := (true :: x.chkWin).take 256 }

/-- A checker that has lost its lock. -/
def chkLost (x : LaneS) : LaneS := { x with chkLock := false, chkRun := 0, chkWin := [] }

section
variable {l : Nat} {d : Dev} (hchk : d.get (R.LNE.PAT_CTL.PMA_CHK l) ≠ 0)
include hchk

theorem patLock_pma : patLock l d = put (R.LNE.PAT_STATUS.LOCK l) (b2n (d.laneS l).chkLock) d := by
  unfold patLock
  dsimp only
  rw [if_pos hchk]

theorem feedBit_eq (x : Bool) : feedBit l x d = feedPattern l (d.bitErr l x)
    (setLane l (chkPushed (if (d.laneS l).chkLock then x != d.bitErr l x else x) (d.laneS l)) d) := if_neg hchk

theorem feedPattern_right (hlock : (d.laneS l).chkLock = false) : feedPattern l false d = patLock l (setLane l (chkRan (d.laneS l)) d) := by
  unfold feedPattern
  dsimp only
  rw [if_neg hchk, hlock, if_neg (by decide)]
  rfl

/-- The counts of a wrong bit under lock. -/
def errCounted (l : Nat) (d : Dev) : Dev := inc (R.LNE.PAT_ERR.COUNT l) 1 (inc (R.LNE.PAT_BITS.COUNT l) 1 d)

/-- The lock is lost. -/
def patLost (l : Nat) (x : LaneS) (d : Dev) : Dev := event 8 (R.LNE.PAT_STATUS.SEQ l) [R.LNE.PAT_STATUS.LOCK_LOST l] (setLane l x d)

theorem feedPattern_wrong (hlock : (d.laneS l).chkLock = true) : feedPattern l true d =
    if 32 ≤ (((true :: (d.laneS l).chkWin).take 256).filter (fun x => x)).length then patLock l (patLost l (chkLost (d.laneS l)) (errCounted l d))
    else setLane l (chkErred (d.laneS l)) (errCounted l d) := by
  unfold feedPattern
  dsimp only
  rw [if_neg hchk, if_pos hlock]
  rfl

end

theorem patLock_book {l : Nat} (hl : l < 60) : ∀ f ∈ chkRegs l, bookKey f.key = false := by
  simp only [chkRegs, List.mem_cons, List.not_mem_nil, or_false, forall_eq_or_imp, forall_eq]
  exact ⟨book_lne (o := 0x34) hl (by decide) (by decide), book_lne (o := 0x34) hl (by decide) (by decide), book_lne (o := 0x34) hl (by decide) (by decide),
    book_lne (o := 0x38) hl (by decide) (by decide), book_lne (o := 0x40) hl (by decide) (by decide)⟩

theorem pmaChk_book {l : Nat} (hl : l < 60) : bookKey (R.LNE.PAT_CTL.PMA_CHK l).key = false ∧ (R.LNE.PAT_CTL.PMA_CHK l).key ∉ (chkRegs l).map Fld.key :=
  ⟨book_lne (o := 0x30) hl (by decide) (by decide), not_chkRegs (o := 0x30) (.inl (by decide)) (by decide)⟩

/-- A right bit before the lock. -/
theorem feedBit_right {l : Nat} {d : Dev} (hchk : d.get (R.LNE.PAT_CTL.PMA_CHK l) ≠ 0) (hlock : (d.laneS l).chkLock = false) {x : Bool}
    (hx : x = prbsNext (d.get (R.LNE.PAT_CTL.PMA_CHK l)) (d.laneS l).chkHist) :
    LaneStep l [R.LNE.PAT_STATUS.LOCK l] d (feedBit l x d) ∧ (feedBit l x d).laneS l = chkRan (chkPushed x (d.laneS l)) ∧
    (feedBit l x d).on (R.LNE.PAT_STATUS.LOCK l) = decide (64 ≤ (d.laneS l).chkRun + 1) := by
  have herr : d.bitErr l x = false := by
    rw [Dev.bitErr, hx]
    simp
  rw [feedBit_eq hchk, herr, hlock, if_neg Bool.false_ne_true]
  have hpush : LaneStep l [] d (setLane l (chkPushed x (d.laneS l)) d) := laneStep_setLane ..
  have hpx : (setLane l (chkPushed x (d.laneS l)) d).laneS l = chkPushed x (d.laneS l) := laneS_setLane ..
  have hpc : (setLane l (chkPushed x (d.laneS l)) d).get (R.LNE.PAT_CTL.PMA_CHK l) ≠ 0 := hchk
  generalize setLane l (chkPushed x (d.laneS l)) d = e at hpush hpx hpc ⊢
  rw [feedPattern_right hpc (by rw [hpx]; exact hlock), hpx]
  have hran : LaneStep l [] e (setLane l (chkRan (chkPushed x (d.laneS l))) e) := laneStep_setLane ..
  have hrx : (setLane l (chkRan (chkPushed x (d.laneS l))) e).laneS l = chkRan (chkPushed x (d.laneS l)) := laneS_setLane ..
  have hrc : (setLane l (chkRan (chkPushed x (d.laneS l))) e).get (R.LNE.PAT_CTL.PMA_CHK l) ≠ 0 := hpc
  generalize setLane l (chkRan (chkPushed x (d.laneS l))) e = g at hran hrx hrc ⊢
  rw [patLock_pma hrc]
  refine ⟨(hpush.trans (hran.trans (laneStep_put ..))).mono (by simp), hrx, ?_⟩
  rw [Dev.on, get_put_self, hrx]
  change (b2n (decide (64 ≤ (d.laneS l).chkRun + 1)) % 2 ^ 1 == 1) = decide (64 ≤ (d.laneS l).chkRun + 1)
  cases decide (64 ≤ (d.laneS l).chkRun + 1) <;> rfl

/-- Right bits up to the lock. -/
theorem feedBits_lock {l kind : Nat} (hl : l < 60) (hk : kind ≠ 0) (n : Nat) {d : Dev} (hchk : d.get (R.LNE.PAT_CTL.PMA_CHK l) = kind)
    (hlock : (d.laneS l).chkLock = false) (hrun : (d.laneS l).chkRun + (n + 1) = 64) :
    LaneStep l [R.LNE.PAT_STATUS.LOCK l] d (each (feedBit l) (prbsRun kind (n + 1) (d.laneS l).chkHist).1 d) ∧
    ((each (feedBit l) (prbsRun kind (n + 1) (d.laneS l).chkHist).1 d).laneS l).chkLock = true ∧
    (each (feedBit l) (prbsRun kind (n + 1) (d.laneS l).chkHist).1 d).on (R.LNE.PAT_STATUS.LOCK l) = true := by
  induction n generalizing d with
  | zero =>
    obtain ⟨hs, hx, hon⟩ := feedBit_right (l := l) (d := d) (by rw [hchk]; exact hk) hlock rfl
    rw [hchk] at hs hx hon
    change LaneStep _ _ d (feedBit l (prbsNext kind (d.laneS l).chkHist) d) ∧ ((feedBit l (prbsNext kind (d.laneS l).chkHist) d).laneS l).chkLock = true ∧
      (feedBit l (prbsNext kind (d.laneS l).chkHist) d).on (R.LNE.PAT_STATUS.LOCK l) = true
    rw [hx, hon]
    exact ⟨hs, decide_eq_true (by change 64 ≤ (d.laneS l).chkRun + 1; omega), decide_eq_true (by omega)⟩
  | succ n ih =>
    obtain ⟨hs, hx, -⟩ := feedBit_right (l := l) (d := d) (by rw [hchk]; exact hk) hlock rfl
    rw [hchk] at hs hx
    rw [show each (feedBit l) (prbsRun kind (n + 1 + 1) (d.laneS l).chkHist).1 d = each (feedBit l)
      (prbsRun kind (n + 1) (pushBit 31 (d.laneS l).chkHist (prbsNext kind (d.laneS l).chkHist))).1 (feedBit l (prbsNext kind (d.laneS l).chkHist) d) from rfl]
    have hc := hs.get (pmaChk_book hl).1 (fun h => (pmaChk_book hl).2 (by simp [chkRegs] at h ⊢; exact .inr (.inr (.inl h))))
    generalize feedBit l (prbsNext kind (d.laneS l).chkHist) d = e at hs hx hc ⊢
    have hhist : (e.laneS l).chkHist = pushBit 31 (d.laneS l).chkHist (prbsNext kind (d.laneS l).chkHist) := by rw [hx]; rfl
    have hrun' : (e.laneS l).chkRun = (d.laneS l).chkRun + 1 := by rw [hx]; rfl
    have hlock' : (e.laneS l).chkLock = false := by
      rw [hx]
      exact decide_eq_false (by change ¬ 64 ≤ (d.laneS l).chkRun + 1; omega)
    obtain ⟨h1, h2, h3⟩ := ih (hc.trans hchk) hlock' (by omega)
    rw [← hhist]
    exact ⟨hs.append h1, h2, h3⟩

theorem pmaCheckerLock_completes (l : Fin 60) (rx : List Bool) (s : State)
    (hrx : rx.map (fun x => x != s.dev.on (R.LNE.CTL.RX_INV l.val)) = (prbsRun (s.dev.get (R.LNE.PAT_CTL.PMA_CHK l.val)) 64 (s.dev.laneS l.val).chkHist).1)
    (hchk : s.dev.get (R.LNE.PAT_CTL.PMA_CHK l.val) ≠ 0) (hloop : s.dev.looped l.val = false) (hlock : (s.dev.laneS l.val).chkLock = false)
    (hrun : (s.dev.laneS l.val).chkRun = 0) :
    Completes (.pmaCheckerLock l rx) s (fun t =>
      (t.dev.laneS l.val).chkLock = true ∧ t.dev.on (R.LNE.PAT_STATUS.LOCK l.val) = true ∧
      Frame [R.LNE.PAT_STATUS.LOCK l.val] { s.dev with lane := t.dev.lane } s t) := by
  have hlen : rx.length = 64 := by
    have h := congrArg List.length hrx
    rwa [List.length_map, length_prbsRun] at h
  obtain ⟨hs, hl, hon⟩ := feedBits_lock l.isLt hchk 63 rfl hlock (by omega)
  refine completes_to (exec_pmaCheckerLock ..) _ ((feedBits_plain hloop (by omega) (by omega)).trans (by rw [hrx])) ?_
  generalize each _ _ s.dev = e at hs hl hon ⊢
  exact ⟨hl, (on_after ..).trans hon, frame_lane hs.upto s⟩

/-! ## The loss of the checker's lock -/

/-- The counters of the pattern checker. -/
def errRegs (l : Nat) : List Fld := [R.LNE.PAT_ERR.COUNT l, R.LNE.PAT_BITS.COUNT l]

theorem errCounted_facts {l : Nat} (d : Dev) : Leaves (errRegs l) d (errCounted l d) ∧ Counted (R.LNE.PAT_ERR.COUNT l) 1 d (errCounted l d) ∧
    Counted (R.LNE.PAT_BITS.COUNT l) 1 d (errCounted l d) := by
  have hne : (R.LNE.PAT_ERR.COUNT l).key ≠ (R.LNE.PAT_BITS.COUNT l).key := by
    simp only [Fld.key, R.LNE.PAT_ERR.COUNT, R.LNE.PAT_BITS.COUNT]
    omega
  unfold errCounted inc
  refine ⟨((leaves_put ..).trans (leaves_put ..)).mono (by simp [errRegs]), ?_, ?_⟩
  · rw [Counted, get_put_self, get_put_ne hne]
  · rw [Counted, get_put_ne hne.symm, get_put_self]

/-- The window of wrong bits of a checker. -/
theorem errWindow {w : List Bool} {k : Nat} (hw : w = List.replicate k true) (hk : k < 32) :
    (true :: w).take 256 = List.replicate (k + 1) true ∧ (((true :: w).take 256).filter (fun x => x)).length = k + 1 := by
  have h : (true :: w).take 256 = List.replicate (k + 1) true := by
    rw [hw, ← List.replicate_succ, List.take_replicate, min_eq_right (by omega)]
  refine ⟨h, ?_⟩
  rw [h, List.filter_replicate_of_pos (by decide), List.length_replicate]

/-- What the loss of the lock leaves. -/
theorem patLost_facts {l : Nat} (hl : l < 60) {x : LaneS} (hx : x.chkLock = false) {d : Dev} (hchk : d.get (R.LNE.PAT_CTL.PMA_CHK l) ≠ 0) :
    ((patLock l (patLost l x d)).laneS l).chkLock = false ∧ (patLock l (patLost l x d)).on (R.LNE.PAT_STATUS.LOCK l) = false ∧
    Raised (R.LNE.PAT_STATUS.SEQ l) [R.LNE.PAT_STATUS.LOCK_LOST l] d (patLock l (patLost l x d)) ∧
    ∀ f ∈ errRegs l, (patLock l (patLost l x d)).get f = d.get f := by
  have hbook := patLock_book hl
  have hb : ∀ f ∈ R.LNE.PAT_STATUS.SEQ l :: [R.LNE.PAT_STATUS.LOCK_LOST l], bookKey f.key = false := fun f hf => hbook f (by
    simp only [List.mem_cons, List.not_mem_nil, or_false] at hf
    rcases hf with rfl | rfl <;> simp [chkRegs])
  have hlane : (patLost l x d).laneS l = x := (laneS_of_leaves (leaves_event ..) l).trans (laneS_setLane ..)
  have hev : Leaves [R.LNE.PAT_STATUS.SEQ l, R.LNE.PAT_STATUS.LOCK_LOST l] (setLane l x d) (patLost l x d) := leaves_event ..
  have hraise : Raised (R.LNE.PAT_STATUS.SEQ l) [R.LNE.PAT_STATUS.LOCK_LOST l] d (patLost l x d) :=
    raised_event hb (by simp [R.LNE.PAT_STATUS.LOCK_LOST]) (by simp [Fld.key, R.LNE.PAT_STATUS.SEQ, R.LNE.PAT_STATUS.LOCK_LOST]) rfl
  have hget : ∀ f : Fld, bookKey f.key = false → f.key ∉ [R.LNE.PAT_STATUS.SEQ l, R.LNE.PAT_STATUS.LOCK_LOST l].map Fld.key →
      (patLost l x d).get f = d.get f := fun f hb hf => hev.get hb hf
  generalize patLost l x d = e at hlane hraise hget ⊢
  have hc : e.get (R.LNE.PAT_CTL.PMA_CHK l) ≠ 0 := by
    rw [hget _ (pmaChk_book hl).1]
    · exact hchk
    · simp [Fld.key, R.LNE.PAT_STATUS.SEQ, R.LNE.PAT_STATUS.LOCK_LOST, R.LNE.PAT_CTL.PMA_CHK]
      omega
  rw [patLock_pma hc, hlane, hx]
  refine ⟨?_, ?_, ?_, fun f hf => ?_⟩
  · exact (congrArg LaneS.chkLock hlane).trans hx
  · rw [Dev.on, get_put_self]
    rfl
  · refine raised_then hraise (leaves_put ..) hb ?_
    simp [Fld.key, R.LNE.PAT_STATUS.SEQ, R.LNE.PAT_STATUS.LOCK_LOST, R.LNE.PAT_STATUS.LOCK]
  · have hne : f.key ∉ [R.LNE.PAT_STATUS.LOCK l, R.LNE.PAT_STATUS.SEQ l, R.LNE.PAT_STATUS.LOCK_LOST l].map Fld.key := by
      simp only [errRegs, List.mem_cons, List.not_mem_nil, or_false] at hf
      rcases hf with rfl | rfl
      all_goals
        simp [Fld.key, R.LNE.PAT_STATUS.SEQ, R.LNE.PAT_STATUS.LOCK_LOST, R.LNE.PAT_STATUS.LOCK, R.LNE.PAT_ERR.COUNT, R.LNE.PAT_BITS.COUNT]
        omega
    rw [List.map_cons, List.mem_cons, not_or] at hne
    rw [get_put_ne hne.1]
    exact hget f (hbook f (by simp only [errRegs, List.mem_cons, List.not_mem_nil, or_false] at hf; rcases hf with rfl | rfl <;> simp [chkRegs])) hne.2

section
variable {l : Nat} (hl : l < 60) {d : Dev} (hchk : d.get (R.LNE.PAT_CTL.PMA_CHK l) ≠ 0) (hlock : (d.laneS l).chkLock = true) {x : Bool}
  (hx : (!x) = prbsNext (d.get (R.LNE.PAT_CTL.PMA_CHK l)) (d.laneS l).chkHist)
include hchk hlock hx

theorem feedBit_err : feedBit l x d = feedPattern l true (setLane l (chkPushed (!x) (d.laneS l)) d) := by
  have herr : d.bitErr l x = true := by
    rw [Dev.bitErr, ← hx]
    cases x <;> rfl
  rw [feedBit_eq hchk, herr, hlock, if_pos rfl, Bool.bne_true]

/-- A wrong bit, short of the loss. -/
theorem feedBit_wrong {k : Nat} (hw : (d.laneS l).chkWin = List.replicate k true) (hk : k < 31) :
    LaneStep l (errRegs l) d (feedBit l x d) ∧ Counted (R.LNE.PAT_ERR.COUNT l) 1 d (feedBit l x d) ∧ Counted (R.LNE.PAT_BITS.COUNT l) 1 d (feedBit l x d) ∧
    ((feedBit l x d).laneS l).chkLock = true ∧ ((feedBit l x d).laneS l).chkWin = List.replicate (k + 1) true ∧
    ((feedBit l x d).laneS l).chkHist = pushBit 31 (d.laneS l).chkHist (!x) := by
  rw [feedBit_err hchk hlock hx]
  have hpush : LaneStep l [] d (setLane l (chkPushed (!x) (d.laneS l)) d) := laneStep_setLane ..
  have hpx : (setLane l (chkPushed (!x) (d.laneS l)) d).laneS l = chkPushed (!x) (d.laneS l) := laneS_setLane ..
  have hpc : (setLane l (chkPushed (!x) (d.laneS l)) d).get (R.LNE.PAT_CTL.PMA_CHK l) ≠ 0 := hchk
  have hpe : ∀ f, (setLane l (chkPushed (!x) (d.laneS l)) d).get f = d.get f := fun _ => rfl
  generalize setLane l (chkPushed (!x) (d.laneS l)) d = e at hpush hpx hpc hpe ⊢
  have hwin := errWindow (w := (e.laneS l).chkWin) (k := k) (by rw [hpx]; exact hw) (by omega)
  rw [feedPattern_wrong (d := e) hpc (by rw [hpx]; exact hlock), if_neg (by rw [hwin.2]; omega)]
  obtain ⟨hc, herr, hbits⟩ := errCounted_facts (l := l) e
  have hset : LaneStep l [] (errCounted l e) (setLane l (chkErred (e.laneS l)) (errCounted l e)) := laneStep_setLane ..
  have hsx : (setLane l (chkErred (e.laneS l)) (errCounted l e)).laneS l = chkErred (e.laneS l) := laneS_setLane ..
  generalize errCounted l e = g at hc herr hbits hset hsx ⊢
  have hsg : ∀ f, (setLane l (chkErred (e.laneS l)) g).get f = g.get f := fun _ => rfl
  generalize setLane l (chkErred (e.laneS l)) g = k' at hset hsx hsg ⊢
  refine ⟨(hpush.trans ((laneStep_of_leaves hc).trans hset)).mono fun f hf => List.mem_map_of_mem (by simpa using hf), counted_of_get herr (hpe _) (hsg _), counted_of_get hbits (hpe _) (hsg _), ?_, ?_, ?_⟩
  · rw [hsx, hpx]
    exact hlock
  · rw [hsx]
    exact hwin.1
  · rw [hsx, hpx]
    rfl

include hl in
/-- The wrong bit that loses the lock. -/
theorem feedBit_loses (hw : (d.laneS l).chkWin = List.replicate 31 true) :
    ((feedBit l x d).laneS l).chkLock = false ∧ (feedBit l x d).on (R.LNE.PAT_STATUS.LOCK l) = false ∧
    Raised (R.LNE.PAT_STATUS.SEQ l) [R.LNE.PAT_STATUS.LOCK_LOST l] d (feedBit l x d) ∧
    Counted (R.LNE.PAT_ERR.COUNT l) 1 d (feedBit l x d) ∧ Counted (R.LNE.PAT_BITS.COUNT l) 1 d (feedBit l x d) := by
  rw [feedBit_err hchk hlock hx]
  have hpx : (setLane l (chkPushed (!x) (d.laneS l)) d).laneS l = chkPushed (!x) (d.laneS l) := laneS_setLane ..
  have hpc : (setLane l (chkPushed (!x) (d.laneS l)) d).get (R.LNE.PAT_CTL.PMA_CHK l) ≠ 0 := hchk
  have hpe : ∀ f, (setLane l (chkPushed (!x) (d.laneS l)) d).get f = d.get f := fun _ => rfl
  generalize setLane l (chkPushed (!x) (d.laneS l)) d = e at hpx hpc hpe ⊢
  have hwin := errWindow (w := (e.laneS l).chkWin) (k := 31) (by rw [hpx]; exact hw) (by omega)
  rw [feedPattern_wrong (d := e) hpc (by rw [hpx]; exact hlock), if_pos (by rw [hwin.2])]
  obtain ⟨hc, herr, hbits⟩ := errCounted_facts (l := l) e
  have hbook := patLock_book hl
  have hcn : ∀ f ∈ [R.LNE.PAT_STATUS.SEQ l, R.LNE.PAT_CTL.PMA_CHK l], f.key ∉ (errRegs l).map Fld.key := by
    simp only [errRegs, List.map_cons, List.map_nil, List.mem_cons, List.not_mem_nil, or_false, forall_eq_or_imp, forall_eq, Fld.key,
      R.LNE.PAT_STATUS.SEQ, R.LNE.PAT_CTL.PMA_CHK, R.LNE.PAT_ERR.COUNT, R.LNE.PAT_BITS.COUNT]
    omega
  have hseq := hc.get (hbook (R.LNE.PAT_STATUS.SEQ l) (by simp [chkRegs])) (hcn _ (by simp))
  have hgc := hc.get (pmaChk_book hl).1 (hcn _ (by simp))
  generalize errCounted l e = g at hc herr hbits hseq hgc ⊢
  obtain ⟨h1, h2, h3, h4⟩ := patLost_facts hl (x := chkLost (e.laneS l)) rfl (d := g) (by rw [hgc]; exact hpc)
  generalize patLock l (patLost l (chkLost (e.laneS l)) g) = k' at h1 h2 h3 h4 ⊢
  exact ⟨h1, h2, raised_of_get h3 (hseq.trans (hpe _)), counted_of_get herr (hpe _) (h4 _ (by simp [errRegs])),
    counted_of_get hbits (hpe _) (h4 _ (by simp [errRegs]))⟩

end

/-- Wrong bits up to the loss of the lock. -/
theorem feedBits_lose {l kind : Nat} (hl : l < 60) (hk : kind ≠ 0) (n : Nat) {xs : List Bool} {d : Dev} (hchk : d.get (R.LNE.PAT_CTL.PMA_CHK l) = kind)
    (hlock : (d.laneS l).chkLock = true) (hxs : xs.map (fun x => !x) = (prbsRun kind (n + 1) (d.laneS l).chkHist).1) {k : Nat}
    (hw : (d.laneS l).chkWin = List.replicate k true) (hkn : k + n = 31) :
    ((each (feedBit l) xs d).laneS l).chkLock = false ∧ (each (feedBit l) xs d).on (R.LNE.PAT_STATUS.LOCK l) = false ∧
    Raised (R.LNE.PAT_STATUS.SEQ l) [R.LNE.PAT_STATUS.LOCK_LOST l] d (each (feedBit l) xs d) ∧
    Counted (R.LNE.PAT_ERR.COUNT l) (n + 1) d (each (feedBit l) xs d) ∧ Counted (R.LNE.PAT_BITS.COUNT l) (n + 1) d (each (feedBit l) xs d) := by
  induction n generalizing d k xs with
  | zero =>
    obtain ⟨x, rfl⟩ : ∃ x, xs = [x] := List.length_eq_one_iff.mp (by
      have h := congrArg List.length hxs
      rwa [List.length_map, length_prbsRun] at h)
    have hx : (!x) = prbsNext (d.get (R.LNE.PAT_CTL.PMA_CHK l)) (d.laneS l).chkHist := by
      rw [hchk]
      exact (List.cons.inj hxs).1
    exact feedBit_loses hl (by rw [hchk]; exact hk) hlock hx (by rw [hw, show k = 31 by omega])
  | succ n ih =>
    cases xs with
    | nil => exact absurd (congrArg List.length hxs) (by rw [length_prbsRun]; exact fun h => absurd h.symm (Nat.succ_ne_zero _))
    | cons x xs =>
      obtain ⟨hx, hxs⟩ := List.cons.inj hxs
      obtain ⟨hs, herr, hbits, hlock', hw', hhist⟩ := feedBit_wrong (x := x) (by rw [hchk]; exact hk) hlock (by rw [hchk]; exact hx) hw (by omega)
      rw [show each (feedBit l) (x :: xs) d = each (feedBit l) xs (feedBit l x d) from rfl]
      have hcn : (R.LNE.PAT_CTL.PMA_CHK l).key ∉ (errRegs l).map Fld.key ∧ (R.LNE.PAT_STATUS.SEQ l).key ∉ (errRegs l).map Fld.key := by
        simp only [errRegs, List.map_cons, List.map_nil, List.mem_cons, List.not_mem_nil, or_false, Fld.key, R.LNE.PAT_STATUS.SEQ, R.LNE.PAT_CTL.PMA_CHK,
          R.LNE.PAT_ERR.COUNT, R.LNE.PAT_BITS.COUNT]
        omega
      have hc := (hs.get (pmaChk_book hl).1 hcn.1).trans hchk
      have hseq := hs.get (patLock_book hl _ (by simp [chkRegs])) hcn.2
      generalize feedBit l x d = e at hs herr hbits hlock' hw' hhist hc hseq ⊢
      obtain ⟨h1, h2, h3, h4, h5⟩ := ih (xs := xs) hc hlock' (by rw [hhist, show (!x) = _ from hx]; exact hxs) hw' (by omega)
      rw [Nat.add_comm (n + 1) 1]
      exact ⟨h1, h2, raised_of_get h3 hseq, counted_trans herr h4, counted_trans hbits h5⟩

theorem pmaCheckerLockLoss_completes (l : Fin 60) (rx : List Bool) (s : State)
    (hrx : rx.map (fun x => x == s.dev.on (R.LNE.CTL.RX_INV l.val)) = (prbsRun (s.dev.get (R.LNE.PAT_CTL.PMA_CHK l.val)) 32 (s.dev.laneS l.val).chkHist).1)
    (hchk : s.dev.get (R.LNE.PAT_CTL.PMA_CHK l.val) ≠ 0) (hloop : s.dev.looped l.val = false) (hlock : (s.dev.laneS l.val).chkLock = true)
    (hwin : (s.dev.laneS l.val).chkWin = []) :
    Completes (.pmaCheckerLockLoss l rx) s (fun t =>
      (t.dev.laneS l.val).chkLock = false ∧ t.dev.on (R.LNE.PAT_STATUS.LOCK l.val) = false ∧
      Raised (R.LNE.PAT_STATUS.SEQ l.val) [R.LNE.PAT_STATUS.LOCK_LOST l.val] s.dev t.dev ∧
      Counted (R.LNE.PAT_ERR.COUNT l.val) 32 s.dev t.dev ∧ Counted (R.LNE.PAT_BITS.COUNT l.val) 32 s.dev t.dev) := by
  have hlen : rx.length = 32 := by
    have h := congrArg List.length hrx
    rwa [List.length_map, length_prbsRun] at h
  have hxs : (rx.map (fun x => x != s.dev.on (R.LNE.CTL.RX_INV l.val))).map (fun x => !x) =
      (prbsRun (s.dev.get (R.LNE.PAT_CTL.PMA_CHK l.val)) (31 + 1) (s.dev.laneS l.val).chkHist).1 := by
    rw [List.map_map, ← hrx]
    refine List.map_congr_left fun x _ => ?_
    change (!(x != s.dev.on (R.LNE.CTL.RX_INV l.val))) = (x == s.dev.on (R.LNE.CTL.RX_INV l.val))
    rw [bne, Bool.not_not]
  obtain ⟨h1, h2, h3, h4, h5⟩ := feedBits_lose l.isLt hchk 31 rfl hlock hxs (k := 0) hwin (by omega)
  refine completes_to (exec_pmaCheckerLockLoss ..) _ (feedBits_plain hloop (by omega) (by omega)) ?_
  generalize each _ _ s.dev = e at h1 h2 h3 h4 h5 ⊢
  exact ⟨h1, (on_after ..).trans h2, raised_after h3 s, (get_after ..).trans h4, (get_after ..).trans h5⟩

/-- Settles O33. -/
theorem lanesAdaptAndTest : Obligations.LanesAdaptAndTest := by
  unfold Obligations.LanesAdaptAndTest
  exact ⟨eqStep_idle, eqStep_ctle, eqStep_tap, injOnce_completes, injectionInterval_zero, injectionInterval_quiet, injectionInterval_sends,
    pmaCheckerLock_completes, pmaCheckerLockLoss_completes⟩

end Sys2Proof.Proofs
end

section
/-!
The banks of a unit's tables (R183): what an exchange and a copy leave in each word.
-/
namespace Sys2Proof.Proofs
open Sys2Proof Sys2Proof.Machine

/-! ## Entries taken from another map -/

section
variable {α : Type} {dflt : Nat → α}

theorem rising_nodup {m : KMap α} {lo : Option Nat} (h : KMap.rising lo m = true) :
    (∀ l, lo = some l → ∀ k ∈ m.map Prod.fst, l < k) ∧ (m.map Prod.fst).Nodup := by
  induction m generalizing lo with
  | nil => simp
  | cons e m ih =>
    rw [KMap.rising_cons, Bool.and_eq_true] at h
    obtain ⟨hlt, hnd⟩ := ih h.2
    have hall := hlt e.1 rfl
    refine ⟨fun l hl k hk => ?_, ?_⟩
    · subst hl
      have hle : l < e.1 := of_decide_eq_true h.1
      rcases List.mem_cons.mp hk with rfl | hk
      · exact hle
      · exact hle.trans (hall k hk)
    · rw [List.map_cons, List.nodup_cons]
      exact ⟨fun hmem => absurd (hall _ hmem) (Nat.lt_irrefl _), hnd⟩

theorem kmap_get_filter (p : Nat → Bool) (m : KMap α) (k : Nat) :
    KMap.get dflt (m.filter (fun e => p e.1)) k = if p k then KMap.get dflt m k else dflt k := by
  induction m with
  | nil => simp
  | cons e m ih =>
    rw [List.filter_cons]
    by_cases hp : p e.1 = true
    · rw [if_pos hp, KMap.get, KMap.get, ih]
      by_cases hk : e.1 = k
      · rw [if_pos hk, if_pos hk, ← hk, if_pos hp]
      · rw [if_neg hk, if_neg hk]
    · rw [if_neg hp, ih, KMap.get]
      by_cases hk : e.1 = k
      · rw [← hk, if_neg hp, if_neg hp]
      · rw [if_neg hk]

theorem kmap_get_of_not_mem {m : KMap α} {k : Nat} (h : k ∉ m.map Prod.fst) : KMap.get dflt m k = dflt k := by
  induction m with
  | nil => rfl
  | cons e m ih =>
    rw [List.map_cons, List.mem_cons, not_or] at h
    rw [KMap.get, if_neg (Ne.symm h.1), ih h.2]

/-- Entries put one after the other: each key reads what the last map holds there. -/
theorem kmap_get_foldl_put [DecidableEq α] {xs m : KMap α} (h : (xs.map Prod.fst).Nodup) (k : Nat) :
    KMap.get dflt (xs.foldl (fun m e => KMap.put dflt m e.1 e.2) m) k = if k ∈ xs.map Prod.fst then KMap.get dflt xs k else KMap.get dflt m k := by
  induction xs generalizing m with
  | nil => rfl
  | cons e xs ih =>
    rw [List.map_cons, List.nodup_cons] at h
    rw [List.foldl_cons, ih h.2, List.map_cons, KMap.get]
    by_cases hk : e.1 = k
    · subst hk
      rw [if_neg h.1, if_pos (by simp), if_pos rfl, KMap.get_put_self]
    · rw [if_neg hk, KMap.get_put_ne _ _ _ _ _ (Ne.symm hk)]
      simp only [List.mem_cons, Ne.symm hk, false_or]

end

/-- The covered words are those of the other map. -/
theorem get_takeCovered {u : Nat} {cov : Nat → Bool} {into from' : KMap Nat} (h : KMap.wf (bankDefault u) from' = true) (k : Nat) :
    KMap.get (bankDefault u) (takeCovered u cov into from') k =
      if cov k then KMap.get (bankDefault u) from' k else KMap.get (bankDefault u) into k := by
  have hrise := ((KMap.wf_iff _ _).mp h).1
  have hnd := (rising_nodup (KMap.rising_filter (fun e => cov e.1) from' none hrise)).2
  rw [takeCovered, kmap_get_foldl_put hnd, kmap_get_filter cov, kmap_get_filter (fun k => !cov k)]
  by_cases hc : cov k = true
  · rw [if_pos hc, if_pos hc]
    split
    · rfl
    · next hmem =>
      rw [hc, Bool.not_true, if_neg Bool.false_ne_true]
      have hget := kmap_get_of_not_mem (dflt := bankDefault u) hmem
      rw [kmap_get_filter cov, if_pos hc] at hget
      exact hget.symm
  · rw [if_neg hc, if_neg fun hmem => ?_, if_pos (by simp [hc]), if_neg hc]
    obtain ⟨e, he, rfl⟩ := List.mem_map.mp hmem
    exact hc (List.mem_filter.mp he).2

/-! ## Banks -/

theorem bankS_setBank (u : Nat) (b : Bank) (d : Dev) : (setBank u b d).bankS u = b := KMap.get_put_self ..

theorem swap_completes (u : TblUnit) (s : State) : Completes (.swap u) s (fun t => t.dev.on (tblPend u) = true ∧ Frame [tblPend u] s.dev s t) := by
  refine completes_to (exec_swap ..) (put (tblPend u) 1 s.dev) rfl ⟨?_, frame_of_leaves (leaves_put ..) s⟩
  rw [on_after, Dev.on, get_put_self]
  cases u <;> rfl

theorem copy_completes (u : TblUnit) (s : State) : Completes (.copy u) s (fun t => t.dev.on (tblBusy u) = true ∧ Frame [tblBusy u] s.dev s t) := by
  refine completes_to (exec_copy ..) (put (tblBusy u) 1 s.dev) rfl ⟨?_, frame_of_leaves (leaves_put ..) s⟩
  rw [on_after, Dev.on, get_put_self]
  cases u <;> rfl

/-- The banks after a copy in which no covered word was written. -/
def copied (u : TblUnit) (cov : Nat → Bool) (b : Bank) : Bank :=
  { b with shd := takeCovered (tblIndex u) cov b.shd b.act, raced := b.raced.filter (fun k => !cov k)
           lostShd := b.lostShd.filter (fun k => !cov k) ++ b.lost.filter cov }

theorem copyDone_quiet {u : TblUnit} {d : Dev} (hbusy : d.on (tblBusy u) = true) (hraced : (d.bankS (tblIndex u)).raced.filter (tblCovers d u) = []) :
    copyDone u d = put (tblBusy u) 0 (setBank (tblIndex u) (copied u (tblCovers d u) (d.bankS (tblIndex u))) d) := by
  rw [copyDone, if_neg (by rw [hbusy]; decide)]
  dsimp only
  rw [hraced]
  rfl

theorem copyDone_completes (u : TblUnit) (s : State) (hbusy : s.dev.on (tblBusy u) = true)
    (hraced : (s.dev.bankS (tblIndex u)).raced.filter (tblCovers s.dev u) = [])
    (hwf : KMap.wf (bankDefault (tblIndex u)) (s.dev.bankS (tblIndex u)).act = true) :
    Completes (.copyDone u) s (fun t =>
      t.dev.on (tblBusy u) = false ∧
      (∀ k, tblCovers s.dev u k = true → t.dev.shdWord (tblIndex u) k = s.dev.actWord (tblIndex u) k) ∧
      (∀ k, tblCovers s.dev u k = false → t.dev.shdWord (tblIndex u) k = s.dev.shdWord (tblIndex u) k) ∧
      (∀ k, t.dev.actWord (tblIndex u) k = s.dev.actWord (tblIndex u) k) ∧
      Frame [tblBusy u] { s.dev with bank := t.dev.bank } s t) := by
  refine completes_to (exec_copyDone ..) _ (copyDone_quiet hbusy hraced) ?_
  generalize hb : copied u (tblCovers s.dev u) (s.dev.bankS (tblIndex u)) = b
  have hact : b.act = (s.dev.bankS (tblIndex u)).act := by rw [← hb]; rfl
  have hshd : ∀ k, KMap.get (bankDefault (tblIndex u)) b.shd k = if tblCovers s.dev u k then s.dev.actWord (tblIndex u) k else s.dev.shdWord (tblIndex u) k := by
    rw [← hb]
    exact get_takeCovered hwf
  have hbank : (s.after (put (tblBusy u) 0 (setBank (tblIndex u) b s.dev))).dev.bankS (tblIndex u) = b := bankS_setBank ..
  refine ⟨?_, fun k hk => ?_, fun k hk => ?_, fun k => ?_, ?_⟩
  · rw [on_after, Dev.on, get_put_self, Nat.zero_mod]
    rfl
  · rw [Dev.shdWord, hbank, hshd, if_pos hk]
  · rw [Dev.shdWord, hbank, hshd, hk, if_neg Bool.false_ne_true]
  · rw [Dev.actWord, hbank, hact, Dev.actWord]
  · exact frame_of_leaves (leaves_put (tblBusy u) 0 (setBank (tblIndex u) b s.dev)) s

/-- The banks after their exchange. -/
def exchanged (u : TblUnit) (cov : Nat → Bool) (b : Bank) : Bank :=
  { b with act := takeCovered (tblIndex u) cov b.act b.shd, shd := takeCovered (tblIndex u) cov b.shd b.act
           lost := b.lost.filter (fun k => !cov k) ++ b.lostShd.filter cov, lostShd := b.lostShd.filter (fun k => !cov k) ++ b.lost.filter cov }

theorem tblPend_book (u : TblUnit) : bookKey (tblPend u).key = false := by
  cases u with
  | lth n c =>
    refine bookKey_area ?_
    simp only [tblPend, Fld.key, R.LTH.TBL_CTL.PEND]
    omega
  | fus | cls | vrd => decide

/-- An exchange changes the banks and PEND, and what it counts. -/
theorem exchange_leaves (u : TblUnit) (d : Dev) :
    Leaves [] (put (tblPend u) 0 (setBank (tblIndex u) (exchanged u (tblCovers d u) (d.bankS (tblIndex u))) d)) (exchange u d) := by
  unfold exchange
  cases u with
  | lth n c => exact leaves_perf 10 (perfBase_lth n.val) 0x10 1 _
  | fus | cls | vrd => exact Leaves.refl _

theorem boundarySwap_exchanges (u : TblUnit) (d : Dev) (hpend : d.on (tblPend u) = true) (hbusy : d.on (tblBusy u) = false)
    (hact : KMap.wf (bankDefault (tblIndex u)) (d.bankS (tblIndex u)).act = true) (hshd : KMap.wf (bankDefault (tblIndex u)) (d.bankS (tblIndex u)).shd = true) :
    (boundarySwap u d).on (tblPend u) = false ∧
    (∀ k, tblCovers d u k = true → (boundarySwap u d).actWord (tblIndex u) k = d.shdWord (tblIndex u) k ∧
      (boundarySwap u d).shdWord (tblIndex u) k = d.actWord (tblIndex u) k) ∧
    (∀ k, tblCovers d u k = false → (boundarySwap u d).actWord (tblIndex u) k = d.actWord (tblIndex u) k ∧
      (boundarySwap u d).shdWord (tblIndex u) k = d.shdWord (tblIndex u) k) := by
  have hswap : boundarySwap u d = exchange u d := when_of (by rw [hpend, hbusy]; rfl) ..
  have hl := exchange_leaves u d
  have hoff := hl.get (tblPend_book u) (by simp)
  rw [get_put_self, Nat.zero_mod] at hoff
  have hbank : (exchange u d).bankS (tblIndex u) = exchanged u (tblCovers d u) (d.bankS (tblIndex u)) := by
    rw [Dev.bankS, bank_of_leaves hl]
    exact bankS_setBank ..
  rw [hswap]
  have ha : ∀ k, (exchange u d).actWord (tblIndex u) k = if tblCovers d u k then d.shdWord (tblIndex u) k else d.actWord (tblIndex u) k := fun k => by
    rw [Dev.actWord, hbank]
    exact get_takeCovered hshd k
  have hs : ∀ k, (exchange u d).shdWord (tblIndex u) k = if tblCovers d u k then d.actWord (tblIndex u) k else d.shdWord (tblIndex u) k := fun k => by
    rw [Dev.shdWord, hbank]
    exact get_takeCovered hact k
  refine ⟨by rw [Dev.on, hoff]; rfl, fun k hk => ?_, fun k hk => ?_⟩
  · rw [ha, hs, if_pos hk, if_pos hk]
    exact ⟨rfl, rfl⟩
  · rw [ha, hs, hk, if_neg Bool.false_ne_true, if_neg Bool.false_ne_true]
    exact ⟨rfl, rfl⟩

theorem boundarySwap_waits (u : TblUnit) (d : Dev) (hbusy : d.on (tblBusy u) = true) : boundarySwap u d = d := by
  rw [boundarySwap, hbusy, Bool.not_true, Bool.and_false]
  rfl

/-- Settles O38. -/
theorem tableBanksSwapAndCopy : Obligations.TableBanksSwapAndCopy := by
  unfold Obligations.TableBanksSwapAndCopy
  exact ⟨swap_completes, copy_completes, copyDone_completes, boundarySwap_exchanges, boundarySwap_waits⟩

end Sys2Proof.Proofs
end

section
/-!
Packets that a port takes (R118 to R123, R146 to R152): the end of a packet, and what becomes of it by its data type.
-/
namespace Sys2Proof.Proofs
open Sys2Proof Sys2Proof.Machine

/-! ## Steps of the ports -/

/-- The device with other ports. -/
def withPort (x : KMap PortS) (d : Dev) : Dev := { d with port := x }

theorem setsPart_withPort : SetsPart withPort := fun _ _ => ⟨rfl, rfl⟩

/-- From `d` to `e` only these registers, the books and the ports have changed. -/
def PortStep (fs : List Fld) (d e : Dev) : Prop := Upto withPort fs d e

section
variable {fs gs : List Fld} {d e g : Dev}

theorem portStep_refl (fs : List Fld) (d : Dev) : PortStep fs d d := upto_refl ..

theorem portStep_setPort (p : Nat) (x : PortS) (d : Dev) : PortStep [] d (setPort p x d) := upto_of_eq fun _ => rfl

theorem portStep_of_leaves (h : Leaves fs d e) : PortStep fs d e := upto_of_leaves setsPart_withPort h

theorem PortStep.trans (h : PortStep fs d e) (h' : PortStep gs e g) : PortStep (fs ++ gs) d g := Upto.trans h h'

theorem PortStep.mono (h : PortStep fs d e) (hs : ∀ f ∈ fs, f ∈ gs) : PortStep gs d e := Upto.mono h fun f hf => List.mem_map_of_mem (hs f hf)

theorem PortStep.get (h : PortStep fs d e) {f : Fld} (hb : bookKey f.key = false) (hf : f.key ∉ fs.map Fld.key) : e.get f = d.get f :=
  (Upto.leaves h d.port).get hb hf

theorem PortStep.tim (h : PortStep fs d e) : e.tim = d.tim :=
  tim_of_leaves (d := withPort [] d) (e := withPort [] e) (Upto.leaves h [])

theorem PortStep.dt (h : PortStep fs d e) : e.dt = d.dt := by
  rw [Dev.dt, h.tim]
  rfl

theorem PortStep.frame (h : PortStep fs d e) (s : State) : Frame fs { d with port := (s.after e).dev.port } s (s.after e) :=
  frame_of_upto h s e.port rfl

theorem portS_of_leaves (h : Leaves fs d e) (p : Nat) : e.portS p = d.portS p := by
  rw [Dev.portS, port_of_leaves h]
  rfl

end

/-! ## The registers of a port -/

/-- A register of a port below its counters. -/
def portReg (k : Nat) : Prop := 0x300000 ≤ k / 64 ∧ k / 64 < 0x3c0000 ∧ k / 64 % 0x10000 < 0x100

theorem portReg_book {k : Nat} (h : portReg k) : bookKey k = false := bookKey_area (by unfold portReg at h; omega)

theorem count_book {p : Nat} (hp : p < 12) {c : Nat} (hc : c < 16) : bookKey (R.EKL.STAT.COUNT p c).key = false :=
  bookKey_area (by simp only [Fld.key, R.EKL.STAT.COUNT]; omega)

/-- A register of the port is none of its counters. -/
theorem portReg_ne_count {k p c : Nat} (h : portReg k) (hc : c < 16) : k ≠ (R.EKL.STAT.COUNT p c).key := by
  unfold portReg at h
  simp only [Fld.key, R.EKL.STAT.COUNT]
  omega

theorem count_ne {p a b : Nat} (h : a ≠ b) : (R.EKL.STAT.COUNT p a).key ≠ (R.EKL.STAT.COUNT p b).key := by
  simp only [Fld.key, R.EKL.STAT.COUNT]
  omega

/-- Counters of a port. -/
def counts (p : Nat) (cs : List Nat) : List Fld := cs.map (R.EKL.STAT.COUNT p)

theorem count_not_mem {p a : Nat} {cs : List Nat} (h : a ∉ cs) : (R.EKL.STAT.COUNT p a).key ∉ (counts p cs).map Fld.key := by
  intro hmem
  simp only [counts, List.map_map, List.mem_map, Function.comp] at hmem
  obtain ⟨c, hc, heq⟩ := hmem
  exact count_ne (fun h' : c = a => h (h' ▸ hc)) heq

theorem portReg_not_mem {k p : Nat} (hk : portReg k) {cs : List Nat} (hcs : ∀ c ∈ cs, c < 16) : k ∉ (counts p cs).map Fld.key := by
  intro hmem
  simp only [counts, List.map_map, List.mem_map, Function.comp] at hmem
  obtain ⟨c, hc, heq⟩ := hmem
  exact portReg_ne_count hk (hcs c hc) heq.symm

theorem leaves_eklStat (p c n : Nat) (d : Dev) : Leaves [R.EKL.STAT.COUNT p c] d (eklStat p c n d) := leaves_put ..

/-- A count in a register and in a performance counter. -/
theorem leaves_counted (p c code n : Nat) (d : Dev) : Leaves [R.EKL.STAT.COUNT p c] d (eklPerf p code n (eklStat p c n d)) :=
  (leaves_eklStat ..).trans (leaves_eklPerf ..)

theorem counted_eklPerf {p : Nat} (hp : p < 12) {c : Nat} (hc : c < 16) (code n : Nat) (d : Dev) :
    Counted (R.EKL.STAT.COUNT p c) n d (eklPerf p code n (eklStat p c n d)) := by
  rw [Counted, (leaves_eklPerf ..).get (count_book hp hc) (by simp), eklStat, inc, get_put_self]

/-! ## The end of a packet -/

/-- The counts that a packet can move whatever its type. -/
def packetCounts (k : Pkt) : List Nat := if k.truncated then [7, 9, 10] else [7, 10]

theorem packetCounts_lt (k : Pkt) : ∀ c ∈ packetCounts k, c < 16 := by
  unfold packetCounts
  cases k.truncated <;> decide

/-- The port after the end of a packet. -/
def packetEnded (k : Pkt) (x : PortS) : PortS := { x with pkt := none, pseq := (k.pseq + 1) % 256 }

/-- The device that has counted a packet, before it is taken. -/
def packetNoted (p : Nat) (k : Pkt) (d : Dev) : Dev :=
  when k.pcrcBad (fun d => eklPerf p 9 1 (eklStat p 7 1 d)) (eklPerf p 1 1 (when k.truncated (framing p)
    (eklPerf p 0xc ((k.pseq + 256 - ((setPort p { d.portS p with pkt := none } d).portS p).pseq) % 256)
      (eklStat p 10 ((k.pseq + 256 - ((setPort p { d.portS p with pkt := none } d).portS p).pseq) % 256)
        (setPort p { (setPort p { d.portS p with pkt := none } d).portS p with pseq := (k.pseq + 1) % 256 }
          (setPort p { d.portS p with pkt := none } d))))))

/-- What becomes of a packet that is counted. -/
def packetTaken (p : Nat) (k : Pkt) (d : Dev) : Dev :=
  match rawBits k.dtype with
  | some n =>
    match d.slotFor p k with
    | some q => placePacket p q k (rawSamples n k.payload (min k.length k.payload.length)) d
    | none => eklStat p 11 1 d
  | none =>
    if k.dtype ≠ 0x20 ∧ k.dtype ≠ 0x21 ∧ k.dtype ≠ 0x22 then setPort p { d.portS p with discards := (d.portS p).discards + 1 } d
    else if k.truncated then d
    else if k.dtype = 0x20 then takeMeta p k d
    else if k.dtype = 0x21 then takeStatus p k d
    else takeResp p k d

theorem endPacket_eq {p : Nat} {o : OpenPkt} {e : BitVec 64} {d : Dev} (hlen : 2 ≤ o.data.length) (hok : o.headOk = true) :
    endPacket p o (some e) d = packetTaken p (o.packet (some e)) (packetNoted p (o.packet (some e)) d) := by
  unfold endPacket
  dsimp only
  rw [if_neg (by omega), hok, if_neg (by decide)]
  rfl

/-- What the end of a packet leaves, before the packet is taken. -/
structure Noted (p : Nat) (k : Pkt) (d g : Dev) : Prop where
  step : PortStep (counts p (packetCounts k)) d g
  port : g.portS p = packetEnded k (d.portS p)

theorem packetNoted_facts (p : Nat) (k : Pkt) (d : Dev) : Noted p k d (packetNoted p k d) := by
  unfold packetNoted
  have h1 := portStep_setPort p { d.portS p with pkt := none } d
  have hx1 : (setPort p { d.portS p with pkt := none } d).portS p = { d.portS p with pkt := none } := portS_setPort ..
  generalize setPort p { d.portS p with pkt := none } d = e1 at h1 hx1 ⊢
  have h2 := portStep_setPort p { e1.portS p with pseq := (k.pseq + 1) % 256 } e1
  have hx2 : (setPort p { e1.portS p with pseq := (k.pseq + 1) % 256 } e1).portS p = packetEnded k (d.portS p) := by
    rw [portS_setPort, hx1]
    rfl
  generalize setPort p { e1.portS p with pseq := (k.pseq + 1) % 256 } e1 = e2 at h2 hx2 ⊢
  have h3 := leaves_counted p 10 0xc ((k.pseq + 256 - (e1.portS p).pseq) % 256) e2
  generalize eklPerf p 0xc _ (eklStat p 10 _ e2) = e3 at h3 ⊢
  have h4 : Leaves (counts p (if k.truncated then [9] else [])) e3 (when k.truncated (framing p) e3) := by
    cases k.truncated with
    | true => exact leaves_counted p 9 0xb 1 e3
    | false => exact Leaves.refl e3
  generalize when k.truncated (framing p) e3 = e4 at h4 ⊢
  have h5 := leaves_eklPerf p 1 1 e4
  generalize eklPerf p 1 1 e4 = e5 at h5 ⊢
  have h6 := leaves_when k.pcrcBad (fun d => eklPerf p 9 1 (eklStat p 7 1 d)) e5 (leaves_counted p 7 9 1 e5)
  have hall := ((h3.trans h4).trans h5).trans h6
  refine ⟨((h1.trans h2).trans (portStep_of_leaves hall)).mono ?_, ?_⟩
  · unfold packetCounts
    cases k.truncated <;> simp [counts]
  · rw [portS_of_leaves hall, hx2]

section
variable {p : Nat} {k : Pkt} {d g : Dev} (h : Noted p k d g)
include h

theorem Noted.get {f : Fld} (hf : portReg f.key) : g.get f = d.get f :=
  h.step.get (portReg_book hf) (portReg_not_mem hf (packetCounts_lt k))

theorem Noted.lines : (g.portS p).lines = (d.portS p).lines := by rw [h.port]; rfl

theorem Noted.maskSent : (g.portS p).maskSent = (d.portS p).maskSent := by rw [h.port]; rfl

/-- A counter outside those of every packet. -/
theorem Noted.count (hp : p < 12) {c : Nat} (hc : c < 16) (hne : c ∉ [7, 9, 10]) : g.get (R.EKL.STAT.COUNT p c) = d.get (R.EKL.STAT.COUNT p c) :=
  h.step.get (count_book hp hc) (count_not_mem fun hmem => hne (by
    unfold packetCounts at hmem
    split at hmem
    · exact hmem
    · simp only [List.mem_cons, List.not_mem_nil, or_false] at hmem ⊢
      exact hmem.elim .inl (fun h => .inr (.inr h))))

end

/-- The counts of every packet. -/
theorem countsAll {p : Nat} {k : Pkt} {f : Fld} (h : f ∈ counts p (packetCounts k)) :
    f ∈ [R.EKL.STAT.COUNT p 7, R.EKL.STAT.COUNT p 9, R.EKL.STAT.COUNT p 10] := by
  unfold packetCounts counts at h
  split at h
  · exact h
  · simp only [List.map_cons, List.map_nil, List.mem_cons, List.not_mem_nil, or_false] at h ⊢
    exact h.elim .inl fun h => .inr (.inr h)

theorem perfBase_port {p : Nat} (hp : p < 12) : PerfBase (ekl p) := by
  unfold PerfBase ekl
  omega

theorem planeReg {p q : Nat} (hp : p < 12) (hq : q < 4) : ∀ f ∈ [R.EKL.PLANE_CTL.EN p q, R.EKL.PLANE_CTL.VC p q, R.EKL.PLANE_CTL.DTYPE p q,
    R.EKL.PLANE_CTL.WIDTH p q, R.EKL.PLANE_BG.VALUE p q, R.EKL.EXP_TOL.NS p, R.EKL.CTL.CRC_POL p], portReg f.key := by
  simp only [List.mem_cons, List.not_mem_nil, or_false, forall_eq_or_imp, forall_eq, portReg, Fld.key, R.EKL.PLANE_CTL.EN, R.EKL.PLANE_CTL.VC,
    R.EKL.PLANE_CTL.DTYPE, R.EKL.PLANE_CTL.WIDTH, R.EKL.PLANE_BG.VALUE, R.EKL.EXP_TOL.NS, R.EKL.CTL.CRC_POL]
  omega

section
variable {p : Nat} (hp : p < 12) {d g : Dev} (hget : ∀ f, portReg f.key → g.get f = d.get f)
include hp hget

theorem slots_of_get : g.slots p = d.slots p :=
  List.filter_congr fun q hq => congrArg (· == 1) (hget _ (planeReg hp (List.mem_range.mp hq) _ (by simp)))

theorem slotFor_of_get (k : Pkt) : g.slotFor p k = d.slotFor p k := by
  unfold Dev.slotFor
  rw [slots_of_get hp hget]
  refine List.find?_congr fun q hq => ?_
  have hq := List.mem_range.mp (List.mem_filter.mp hq).1
  rw [hget _ (planeReg hp hq (R.EKL.PLANE_CTL.VC p q) (by simp)), hget _ (planeReg hp hq (R.EKL.PLANE_CTL.DTYPE p q) (by simp))]

theorem matchLine_of_get (hl : (g.portS p).lines = (d.portS p).lines) (k : Pkt) : matchLine g p k = matchLine d p k := by
  unfold matchLine
  rw [hl, hget _ (planeReg hp (q := 0) (by decide) (R.EKL.EXP_TOL.NS p) (by simp))]

theorem joinPlane_of_get {q : Nat} (hq : q < 4) (bg : Nat) (k : Pkt) (xs : List Nat) (a : PlaneAcc) : joinPlane g p q bg k xs a = joinPlane d p q bg k xs a := by
  have hon : g.on (R.EKL.CTL.CRC_POL p) = d.on (R.EKL.CTL.CRC_POL p) := congrArg (· == 1) (hget _ (planeReg hp hq _ (by simp)))
  unfold joinPlane
  rw [hon, hget _ (planeReg hp hq (R.EKL.PLANE_CTL.WIDTH p q) (by simp))]

theorem bgOf_of_get {q : Nat} (hq : q < 4) (r : LineRec) : r.bgOf g p q = r.bgOf d p q := by
  unfold LineRec.bgOf
  rw [hget _ (planeReg hp hq (R.EKL.PLANE_BG.VALUE p q) (by simp))]

end

section
variable {p : Nat} {k : Pkt} {d g : Dev} (h : Noted p k d g) (hp : p < 12)
include h hp

theorem Noted.slotFor (k' : Pkt) : g.slotFor p k' = d.slotFor p k' := slotFor_of_get hp (fun _ hf => h.get hf) k'

theorem Noted.matchLine (k' : Pkt) : matchLine g p k' = matchLine d p k' := matchLine_of_get hp (fun _ hf => h.get hf) h.lines k'

end

/-! ## A row that ends a packet -/

theorem takeMask_none {p : Nat} {bs : List (Nat × Blk)} {d : Dev} (h : (d.portS p).maskSent = []) : takeMask p bs d = d := by
  unfold takeMask
  dsimp only
  rw [h]
  rfl

/-- A row that gives one block is that block received. -/
theorem feedRow_one {p t : Nat} {row : List Blk} {b : Blk} {d e : Dev} (h : d.rowGives e p row b)
    (hmask : ((feedBlock p t b e).portS p).maskSent = []) : feedRow p t row d = feedBlock p t b e := by
  obtain ⟨⟨k, hk, hx⟩, he, -⟩ := h
  unfold feedRow
  dsimp only
  have hkeep : List.filter (fun x : Nat × Blk => [k].contains x.1) [(k, b)] = [(k, b)] := by simp
  rw [hk, hx, he, hkeep]
  exact takeMask_none hmask

theorem feedBlock_eop {p t : Nat} {o : OpenPkt} {e : BitVec 64} {d : Dev} (ht : bits e.toNat 0 8 = 0x87) (ho : (d.portS p).pkt = some o) :
    feedBlock p t { hdr := 2#2, body := e } d = endPacket p o (some e) d := by
  unfold feedBlock
  simp only [blkByte, Nat.mul_zero, ht, ho]
  rfl

/-- Rows of a port without a host error complete with what they leave. -/
theorem rows_complete {c : Instr} {p : Nat} {rows : List (List Blk)} {s : State} {post : State → Prop} (hc : exec c s = rowsNow p rows s)
    (hfine : s.dev.portFine p) {g : Dev} (hrows : feedRows p s.dev.dt rows s.dev = g) (hpost : post (s.after g)) : Completes c s post := by
  refine completes_run hc (d := g) ?_ hpost
  have herr : (if s.dev.get (R.EKL.STATUS.STATE p) = 4 then s.dev.portErr p else none) = none := by
    split
    · next h4 => exact hfine h4
    · rfl
  simp only [herr, hrows]

/-- A row that closes a packet completes with what the packet leaves. -/
theorem row_completes {c : Instr} {p : Nat} {o : OpenPkt} {e : BitVec 64} {row : List Blk} {d : Dev} {s : State} {post : State → Prop}
    (hc : exec c s = rowsNow p [row] s) (hfine : s.dev.portFine p) (hrow : s.dev.rowCloses d p o e row) {g : Dev}
    (hg : packetTaken p (o.packet (some e)) (packetNoted p (o.packet (some e)) d) = g) (hmask : (g.portS p).maskSent = [])
    (hpost : post (s.after g)) : Completes c s post := by
  obtain ⟨hgives, ht, ho, hlen, hok⟩ := hrow
  have hend : feedBlock p s.dev.dt { hdr := 2#2, body := e } d = g := by
    rw [feedBlock_eop ht ho, endPacket_eq hlen hok, hg]
  have hrows : feedRows p s.dev.dt [row] s.dev = g := by
    rw [← hend]
    exact feedRow_one hgives (by rw [hend]; exact hmask)
  exact rows_complete hc hfine hrows hpost

section
variable {p : Nat} {o : OpenPkt} {e : BitVec 64} {row : List Blk} {d : Dev} {s : State}

theorem rowMask (hrow : s.dev.rowCloses d p o e row) : (d.portS p).maskSent = [] := hrow.1.2.2

end

/-! ## Packets for the port itself -/

theorem packetTaken_meta {p : Nat} {k : Pkt} {d : Dev} (ht : k.dtype = 0x20) (htr : k.truncated = false) : packetTaken p k d = takeMeta p k d := by
  unfold packetTaken
  rw [ht, htr]
  rfl

theorem packetTaken_status {p : Nat} {k : Pkt} {d : Dev} (ht : k.dtype = 0x21) (htr : k.truncated = false) : packetTaken p k d = takeStatus p k d := by
  unfold packetTaken
  rw [ht, htr]
  rfl

theorem packetTaken_resp {p : Nat} {k : Pkt} {d : Dev} (ht : k.dtype = 0x22) (htr : k.truncated = false) : packetTaken p k d = takeResp p k d := by
  unfold packetTaken
  rw [ht, htr]
  rfl

theorem packetTaken_other {p : Nat} {k : Pkt} {d : Dev} (hraw : rawBits k.dtype = none) (ht : k.dtype ∉ [0x20, 0x21, 0x22]) :
    packetTaken p k d = setPort p { d.portS p with discards := (d.portS p).discards + 1 } d := by
  unfold packetTaken
  rw [hraw]
  refine if_pos ?_
  simpa using ht

theorem packetTaken_unmapped {p n : Nat} {k : Pkt} {d : Dev} (hraw : rawBits k.dtype = some n) (hq : d.slotFor p k = none) :
    packetTaken p k d = eklStat p 11 1 d := by
  unfold packetTaken
  rw [hraw]
  dsimp only
  rw [hq]

theorem packetTaken_placed {p n q : Nat} {k : Pkt} {d : Dev} (hraw : rawBits k.dtype = some n) (hq : d.slotFor p k = some q) :
    packetTaken p k d = placePacket p q k (rawSamples n k.payload (min k.length k.payload.length)) d := by
  unfold packetTaken
  rw [hraw]
  dsimp only
  rw [hq]

theorem metadata_completes (p : Fin 12) (o : OpenPkt) (e : BitVec 64) (row : List Blk) (d : Dev) (s : State) (hfine : s.dev.portFine p.val)
    (hrow : s.dev.rowCloses d p.val o e row) (ht : (o.packet (some e)).dtype = 0x20) (htr : (o.packet (some e)).truncated = false) :
    Completes (.metadata p [row]) s (fun t =>
      (t.dev.portS p.val).metaBytes = (o.packet (some e)).payload.take 256 ∧
      t.dev.get (R.EKL.META_LINE.LINE p.val) = (o.packet (some e)).line % 2 ^ 32 ∧
      t.dev.get (R.EKL.META_INFO.LENGTH p.val) = (o.packet (some e)).length % 2 ^ (R.EKL.META_INFO.LENGTH p.val).w ∧
      Frame [R.EKL.META_LINE.LINE p.val, R.EKL.META_INFO.LENGTH p.val, R.EKL.STAT.COUNT p.val 7, R.EKL.STAT.COUNT p.val 10]
        { d with port := t.dev.port } s t) := by
  have hn := packetNoted_facts p.val (o.packet (some e)) d
  have hcs : packetCounts (o.packet (some e)) = [7, 10] := by rw [packetCounts, htr]; rfl
  refine row_completes (exec_metadata ..) hfine hrow (packetTaken_meta ht htr) ?_ ?_
  all_goals
    generalize packetNoted p.val (o.packet (some e)) d = g at hn ⊢
    generalize o.packet (some e) = k at hn hcs ⊢
    unfold takeMeta
    dsimp only
    generalize hx : setPort p.val { g.portS p.val with metaBytes := k.payload.take 256 } g = g'
    have hp : g'.portS p.val = { g.portS p.val with metaBytes := k.payload.take 256 } := by rw [← hx, portS_setPort]
    have hs : PortStep [] g g' := hx ▸ portStep_setPort ..
  · rw [portS_put, portS_put, hp]
    exact hn.maskSent.trans (rowMask hrow)
  · refine ⟨?_, ?_, ?_, ?_⟩
    · rw [portS_after, portS_put, portS_put, hp]
    · rw [get_after, get_put_self]
      rfl
    · rw [get_after, get_put_ne (by simp only [Fld.key, R.EKL.META_LINE.LINE, R.EKL.META_INFO.LENGTH]; omega), get_put_self]
    · refine PortStep.frame (((hn.step.trans hs).trans (portStep_of_leaves ((leaves_put ..).trans (leaves_put ..)))).mono ?_) s
      rw [hcs]
      simp [counts]

/-- The port with a status packet copied. -/
def statusCopied (p : Nat) (k : Pkt) (d : Dev) : Dev :=
  setPort p { d.portS p with camstat := k.payload.take 32, lastStat := d.dt, statFull := d.fullNs, statSeen := true } d

/-- What a status packet does to the state of its port. -/
def statusActed (p : Nat) (locked : Bool) (d : Dev) : Dev :=
  if d.get (R.EKL.STATUS.STATE p) = 2 ∧ locked then portState p 3 d
  else if d.get (R.EKL.STATUS.STATE p) = 4 ∧ !locked then eklPerf p 0x12 1 (inc (R.EKL.CAM_UNLOCKED.COUNT p) 1 d)
  else d

theorem takeStatus_eq (p : Nat) (k : Pkt) (d : Dev) : takeStatus p k d = statusActed p (bit (fieldAt k.payload 3 1) 0)
    (when (fieldAt k.payload 2 1 == 3) (event 9 (R.EKL.STATUS.SEQ p) [R.EKL.STATUS.CAM_FAULT p]) (statusCopied p k d)) := rfl

/-- The registers that a status packet can change. -/
def statusRegs (p : Nat) : List Fld := [R.EKL.STATUS.STATE p, R.EKL.STATUS.SEQ p, R.EKL.STATUS.CAM_FAULT p, R.EKL.CAM_UNLOCKED.COUNT p]

theorem statusRegs_book {p : Nat} (hp : p < 12) : ∀ f ∈ statusRegs p, bookKey f.key = false := by
  intro f hf
  refine bookKey_area ?_
  simp only [statusRegs, List.mem_cons, List.not_mem_nil, or_false] at hf
  rcases hf with rfl | rfl | rfl | rfl
  all_goals
    simp only [Fld.key, R.EKL.STATUS.STATE, R.EKL.STATUS.SEQ, R.EKL.STATUS.CAM_FAULT, R.EKL.CAM_UNLOCKED.COUNT]
    omega

theorem statusActed_facts {p : Nat} (hp : p < 12) (locked : Bool) (d : Dev) :
    Leaves [R.EKL.STATUS.STATE p, R.EKL.CAM_UNLOCKED.COUNT p] d (statusActed p locked d) ∧
    (d.get (R.EKL.STATUS.STATE p) = 2 → locked = true → (statusActed p locked d).get (R.EKL.STATUS.STATE p) = 3) ∧
    (d.get (R.EKL.STATUS.STATE p) ≠ 2 → (statusActed p locked d).get (R.EKL.STATUS.STATE p) = d.get (R.EKL.STATUS.STATE p)) := by
  unfold statusActed portState inc
  split
  · next h =>
    refine ⟨(leaves_put ..).mono (by simp), fun _ _ => get_put_self .., fun h2 => absurd h.1 h2⟩
  · next h =>
    have hno : d.get (R.EKL.STATUS.STATE p) = 2 → locked = true → False := fun h2 hl => h ⟨h2, hl⟩
    split
    · have hl := (leaves_put (R.EKL.CAM_UNLOCKED.COUNT p) (d.get (R.EKL.CAM_UNLOCKED.COUNT p) + 1) d).trans (leaves_eklPerf p 0x12 1 _)
      refine ⟨hl.mono (by simp), fun h2 hlock => absurd hlock (hno h2), fun _ => hl.get (statusRegs_book hp _ (by simp [statusRegs])) ?_⟩
      simp only [List.append_nil, List.map_cons, List.map_nil, List.mem_cons, List.not_mem_nil, or_false, Fld.key, R.EKL.STATUS.STATE, R.EKL.CAM_UNLOCKED.COUNT]
      omega
    · exact ⟨(Leaves.refl d).mono (by simp), fun h2 hlock => absurd hlock (hno h2), fun _ => rfl⟩

theorem camFault_facts {p : Nat} (hp : p < 12) (c : Bool) (d : Dev) :
    Leaves [R.EKL.STATUS.SEQ p, R.EKL.STATUS.CAM_FAULT p] d (when c (event 9 (R.EKL.STATUS.SEQ p) [R.EKL.STATUS.CAM_FAULT p]) d) ∧
    (c = true → Raised (R.EKL.STATUS.SEQ p) [R.EKL.STATUS.CAM_FAULT p] d (when c (event 9 (R.EKL.STATUS.SEQ p) [R.EKL.STATUS.CAM_FAULT p]) d)) := by
  refine ⟨leaves_when _ _ _ (leaves_event ..), fun hc => ?_⟩
  rw [when_of hc]
  refine raised_event (fun f hf => statusRegs_book hp f ?_) (by simp [R.EKL.STATUS.CAM_FAULT]) ?_ rfl
  · simp only [List.mem_cons, List.not_mem_nil, or_false] at hf
    rcases hf with rfl | rfl <;> simp [statusRegs]
  · simp [Fld.key, R.EKL.STATUS.SEQ, R.EKL.STATUS.CAM_FAULT]

theorem portReg_status (p : Nat) (hp : p < 12) : ∀ f ∈ [R.EKL.STATUS.STATE p, R.EKL.STATUS.SEQ p], portReg f.key := by
  simp only [List.mem_cons, List.not_mem_nil, or_false, forall_eq_or_imp, forall_eq, portReg, Fld.key, R.EKL.STATUS.STATE, R.EKL.STATUS.SEQ]
  omega

theorem camStatus_completes (p : Fin 12) (o : OpenPkt) (e : BitVec 64) (row : List Blk) (d : Dev) (s : State) (hfine : s.dev.portFine p.val)
    (hrow : s.dev.rowCloses d p.val o e row) (ht : (o.packet (some e)).dtype = 0x21) (htr : (o.packet (some e)).truncated = false) :
    Completes (.camStatus p [row]) s (fun t =>
      (t.dev.portS p.val).camstat = (o.packet (some e)).payload.take 32 ∧ (t.dev.portS p.val).lastStat = d.dt ∧
      (d.get (R.EKL.STATUS.STATE p.val) = 2 → bit (fieldAt (o.packet (some e)).payload 3 1) 0 = true →
        t.dev.get (R.EKL.STATUS.STATE p.val) = 3) ∧
      (d.get (R.EKL.STATUS.STATE p.val) ≠ 2 → t.dev.get (R.EKL.STATUS.STATE p.val) = d.get (R.EKL.STATUS.STATE p.val)) ∧
      (fieldAt (o.packet (some e)).payload 2 1 = 3 →
        Raised (R.EKL.STATUS.SEQ p.val) [R.EKL.STATUS.CAM_FAULT p.val] d t.dev) ∧
      Frame [R.EKL.STATUS.STATE p.val, R.EKL.STATUS.SEQ p.val, R.EKL.STATUS.CAM_FAULT p.val, R.EKL.CAM_UNLOCKED.COUNT p.val,
        R.EKL.STAT.COUNT p.val 7, R.EKL.STAT.COUNT p.val 10] { d with port := t.dev.port } s t) := by
  have hn := packetNoted_facts p.val (o.packet (some e)) d
  have hcs : packetCounts (o.packet (some e)) = [7, 10] := by rw [packetCounts, htr]; rfl
  have hbook := statusRegs_book p.isLt
  have hreg := portReg_status p.val p.isLt
  have heq := packetTaken_status (p := p.val) (d := packetNoted p.val (o.packet (some e)) d) ht htr
  rw [takeStatus_eq] at heq
  generalize hN : packetNoted p.val (o.packet (some e)) d = g at hn heq
  generalize hk : o.packet (some e) = k at hn hcs heq ⊢
  have hcopy : PortStep [] g (statusCopied p.val k g) := portStep_setPort ..
  have hport : (statusCopied p.val k g).portS p.val = { g.portS p.val with camstat := k.payload.take 32, lastStat := g.dt, statFull := g.fullNs, statSeen := true } :=
    portS_setPort ..
  generalize statusCopied p.val k g = g1 at hcopy hport heq
  obtain ⟨hf, hraise⟩ := camFault_facts p.isLt (fieldAt k.payload 2 1 == 3) g1
  generalize when (fieldAt k.payload 2 1 == 3) _ g1 = g2 at hf hraise heq
  obtain ⟨ha, h3, hkeep⟩ := statusActed_facts p.isLt (bit (fieldAt k.payload 3 1) 0) g2
  generalize statusActed p.val _ g2 = g3 at ha h3 hkeep heq
  have hall := (hn.step.trans hcopy).trans (portStep_of_leaves (hf.trans ha))
  have hp3 : g3.portS p.val = _ := (portS_of_leaves (hf.trans ha) p.val).trans hport
  have hne : (R.EKL.STATUS.STATE p.val).key ∉ [R.EKL.STATUS.SEQ p.val, R.EKL.STATUS.CAM_FAULT p.val].map Fld.key ∧
      ∀ f ∈ [R.EKL.STATUS.SEQ p.val, R.EKL.STATUS.CAM_FAULT p.val], f.key ∉ [R.EKL.STATUS.STATE p.val, R.EKL.CAM_UNLOCKED.COUNT p.val].map Fld.key := by
    simp only [List.map_cons, List.map_nil, List.mem_cons, List.not_mem_nil, or_false, forall_eq_or_imp, forall_eq, Fld.key, R.EKL.STATUS.STATE, R.EKL.STATUS.SEQ,
      R.EKL.STATUS.CAM_FAULT, R.EKL.CAM_UNLOCKED.COUNT]
    omega
  have hg1 : ∀ f, portReg f.key → g1.get f = d.get f := fun f hf => (hcopy.get (portReg_book hf) (by simp)).trans (hn.get hf)
  have hst : g2.get (R.EKL.STATUS.STATE p.val) = d.get (R.EKL.STATUS.STATE p.val) :=
    (hf.get (hbook _ (by simp [statusRegs])) hne.1).trans (hg1 _ (hreg _ (by simp)))
  refine row_completes (g := g3) (exec_camStatus ..) hfine hrow (by rw [hN, hk, heq]) ?_ ⟨?_, ?_, fun h2 hl => ?_, fun h2 => ?_, fun hc => ?_, ?_⟩
  · rw [hp3]
    exact hn.maskSent.trans (rowMask hrow)
  · rw [portS_after, hp3]
  · rw [portS_after, hp3]
    exact hn.step.dt
  · rw [get_after, h3 (hst.trans h2) hl]
  · rw [get_after, hkeep (by rw [hst]; exact h2), hst]
  · refine raised_after (raised_of_get (raised_then (hraise (by rw [hc]; rfl)) ha (fun f hf => hbook f ?_) hne.2) (hg1 _ (hreg _ (by simp)))) s
    simp only [List.mem_cons, List.not_mem_nil, or_false] at hf
    rcases hf with rfl | rfl <;> simp [statusRegs]
  · refine PortStep.frame (hall.mono ?_) s
    rw [hcs]
    simp [counts]

/-! ## Register answers -/

theorem takeResp_eq {p w : Nat} {k : Pkt} {d : Dev} (hw : w < 2) {x : Nat} (hc : d.cregS p w = some (leVal (k.payload.take 1), x))
    (h1 : w = 1 → (d.cregS p 0).map Prod.fst ≠ some (leVal (k.payload.take 1))) : takeResp p k d =
    event 9 (R.EKL.CREG_STATUS.SEQ p w) [R.EKL.CREG_STATUS.DONE p w] (put (R.EKL.CREG_STATUS.RESP p w) (fieldAt k.payload 1 1)
      (put (R.EKL.CREG_STATUS.BUSY p w) 0 (put (R.EKL.CREG_DATA.DATA p w) (fieldAt k.payload 8 4)
        (setPort p { d.portS p with creg := KMap.put (fun _ => none) (d.portS p).creg w none } d)))) := by
  have hfind : [0, 1].find? (fun w => (KMap.get (fun _ => (none : Option (Nat × Nat))) (d.portS p).creg w).map Prod.fst == some (leVal (k.payload.take 1))) =
      some w := by
    obtain rfl | rfl : w = 0 ∨ w = 1 := by omega
    · rw [List.find?_cons_of_pos]
      rw [show KMap.get _ (d.portS p).creg 0 = _ from hc]
      simp
    · rw [List.find?_cons_of_neg, List.find?_cons_of_pos]
      · rw [show KMap.get _ (d.portS p).creg 1 = _ from hc]
        simp
      · have hne := h1 rfl
        rw [Dev.cregS] at hne
        simpa using hne
  unfold takeResp
  dsimp only
  rw [hfind]
  rfl

/-- The registers that an answer changes. -/
def respRegs (p w : Nat) : List Fld :=
  [R.EKL.CREG_STATUS.BUSY p w, R.EKL.CREG_DATA.DATA p w, R.EKL.CREG_STATUS.RESP p w, R.EKL.CREG_STATUS.SEQ p w, R.EKL.CREG_STATUS.DONE p w]

theorem respRegs_port {p w : Nat} (hp : p < 12) (hw : w < 2) : ∀ f ∈ respRegs p w, portReg f.key := by
  simp only [respRegs, List.mem_cons, List.not_mem_nil, or_false, forall_eq_or_imp, forall_eq, portReg, Fld.key, R.EKL.CREG_STATUS.BUSY, R.EKL.CREG_DATA.DATA,
    R.EKL.CREG_STATUS.RESP, R.EKL.CREG_STATUS.SEQ, R.EKL.CREG_STATUS.DONE]
  omega

theorem regResp_completes (p : Fin 12) (w : Fin 2) (ms x : Nat) (o : OpenPkt) (e : BitVec 64) (row : List Blk) (d : Dev) (s : State)
    (hfine : s.dev.portFine p.val) (hrow : s.dev.rowCloses d p.val o e row) (ht : (o.packet (some e)).dtype = 0x22)
    (htr : (o.packet (some e)).truncated = false) (hms : fieldAt (o.packet (some e)).payload 0 1 = ms)
    (hc : d.cregS p.val w.val = some (ms, x)) (h1 : w.val = 1 → (d.cregS p.val 0).map Prod.fst ≠ some ms) :
    Completes (.regResp p [row]) s (fun t =>
      t.dev.cregS p.val w.val = none ∧ t.dev.get (R.EKL.CREG_STATUS.BUSY p.val w.val) = 0 ∧
      t.dev.get (R.EKL.CREG_DATA.DATA p.val w.val) = fieldAt (o.packet (some e)).payload 8 4 % 2 ^ 32 ∧
      t.dev.get (R.EKL.CREG_STATUS.RESP p.val w.val) =
        fieldAt (o.packet (some e)).payload 1 1 % 2 ^ (R.EKL.CREG_STATUS.RESP p.val w.val).w ∧
      Raised (R.EKL.CREG_STATUS.SEQ p.val w.val) [R.EKL.CREG_STATUS.DONE p.val w.val] d t.dev ∧
      Frame [R.EKL.CREG_STATUS.BUSY p.val w.val, R.EKL.CREG_DATA.DATA p.val w.val, R.EKL.CREG_STATUS.RESP p.val w.val,
        R.EKL.CREG_STATUS.SEQ p.val w.val, R.EKL.CREG_STATUS.DONE p.val w.val, R.EKL.STAT.COUNT p.val 7, R.EKL.STAT.COUNT p.val 10]
        { d with port := t.dev.port } s t) := by
  have hn := packetNoted_facts p.val (o.packet (some e)) d
  have hcs : packetCounts (o.packet (some e)) = [7, 10] := by rw [packetCounts, htr]; rfl
  have heq := packetTaken_resp (p := p.val) (d := packetNoted p.val (o.packet (some e)) d) ht htr
  generalize hN : packetNoted p.val (o.packet (some e)) d = g at hn heq
  generalize hk : o.packet (some e) = k at hn hcs heq hms ⊢
  have hcreg : ∀ w, g.cregS p.val w = d.cregS p.val w := fun w => by
    rw [Dev.cregS, hn.port]
    rfl
  have hval : leVal (k.payload.take 1) = ms := by rw [← hms]; rfl
  rw [takeResp_eq w.isLt (by rw [hcreg, hc, hval]) (by rw [hcreg, hval]; exact h1)] at heq
  generalize hx : setPort p.val { g.portS p.val with creg := KMap.put (fun _ => none) (g.portS p.val).creg w.val none } g = g1 at heq
  have hp1 : g1.portS p.val = { g.portS p.val with creg := KMap.put (fun _ => none) (g.portS p.val).creg w.val none } := by rw [← hx, portS_setPort]
  have hs1 : PortStep [] g g1 := hx ▸ portStep_setPort ..
  have hbook : ∀ f ∈ respRegs p.val w.val, bookKey f.key = false := fun f hf => portReg_book (respRegs_port p.isLt w.isLt f hf)
  have hputs := ((leaves_put (R.EKL.CREG_DATA.DATA p.val w.val) (fieldAt k.payload 8 4) g1).trans (leaves_put (R.EKL.CREG_STATUS.BUSY p.val w.val) 0 _)).trans
    (leaves_put (R.EKL.CREG_STATUS.RESP p.val w.val) (fieldAt k.payload 1 1) _)
  have hbusy : (put (R.EKL.CREG_STATUS.RESP p.val w.val) (fieldAt k.payload 1 1) (put (R.EKL.CREG_STATUS.BUSY p.val w.val) 0
      (put (R.EKL.CREG_DATA.DATA p.val w.val) (fieldAt k.payload 8 4) g1))).get (R.EKL.CREG_STATUS.BUSY p.val w.val) = 0 := by
    rw [get_put_ne (by simp only [Fld.key, R.EKL.CREG_STATUS.BUSY, R.EKL.CREG_STATUS.RESP]; omega), get_put_self, Nat.zero_mod]
  have hdata : (put (R.EKL.CREG_STATUS.RESP p.val w.val) (fieldAt k.payload 1 1) (put (R.EKL.CREG_STATUS.BUSY p.val w.val) 0
      (put (R.EKL.CREG_DATA.DATA p.val w.val) (fieldAt k.payload 8 4) g1))).get (R.EKL.CREG_DATA.DATA p.val w.val) = fieldAt k.payload 8 4 % 2 ^ 32 := by
    rw [get_put_ne (by simp only [Fld.key, R.EKL.CREG_DATA.DATA, R.EKL.CREG_STATUS.RESP]; omega),
      get_put_ne (by simp only [Fld.key, R.EKL.CREG_DATA.DATA, R.EKL.CREG_STATUS.BUSY]; omega), get_put_self]
    rfl
  have hresp : (put (R.EKL.CREG_STATUS.RESP p.val w.val) (fieldAt k.payload 1 1) (put (R.EKL.CREG_STATUS.BUSY p.val w.val) 0
      (put (R.EKL.CREG_DATA.DATA p.val w.val) (fieldAt k.payload 8 4) g1))).get (R.EKL.CREG_STATUS.RESP p.val w.val) =
        fieldAt k.payload 1 1 % 2 ^ (R.EKL.CREG_STATUS.RESP p.val w.val).w := get_put_self ..
  generalize put (R.EKL.CREG_STATUS.RESP p.val w.val) _ _ = g2 at hputs hbusy hdata hresp heq
  have hev := leaves_event 9 (R.EKL.CREG_STATUS.SEQ p.val w.val) [R.EKL.CREG_STATUS.DONE p.val w.val] g2
  have hseq : g2.get (R.EKL.CREG_STATUS.SEQ p.val w.val) = d.get (R.EKL.CREG_STATUS.SEQ p.val w.val) := by
    rw [hputs.get (hbook _ (by simp [respRegs])), hs1.get (hbook _ (by simp [respRegs])) (by simp), hn.get (respRegs_port p.isLt w.isLt _ (by simp [respRegs]))]
    simp only [List.cons_append, List.nil_append, List.map_cons, List.map_nil, List.mem_cons, List.not_mem_nil, or_false, Fld.key,
      R.EKL.CREG_DATA.DATA, R.EKL.CREG_STATUS.BUSY, R.EKL.CREG_STATUS.RESP, R.EKL.CREG_STATUS.SEQ]
    omega
  have hraise : Raised (R.EKL.CREG_STATUS.SEQ p.val w.val) [R.EKL.CREG_STATUS.DONE p.val w.val] d
      (event 9 (R.EKL.CREG_STATUS.SEQ p.val w.val) [R.EKL.CREG_STATUS.DONE p.val w.val] g2) :=
    raised_event (fun f hf => hbook f (by
        simp only [List.mem_cons, List.not_mem_nil, or_false] at hf
        rcases hf with rfl | rfl <;> simp [respRegs])) (by simp [R.EKL.CREG_STATUS.DONE])
      (by simp [Fld.key, R.EKL.CREG_STATUS.SEQ, R.EKL.CREG_STATUS.DONE]) hseq
  generalize event 9 _ _ g2 = g3 at hev hraise heq
  have hnot : ∀ f ∈ [R.EKL.CREG_STATUS.BUSY p.val w.val, R.EKL.CREG_DATA.DATA p.val w.val, R.EKL.CREG_STATUS.RESP p.val w.val],
      f.key ∉ (seqAnd (R.EKL.CREG_STATUS.SEQ p.val w.val) [R.EKL.CREG_STATUS.DONE p.val w.val]).map Fld.key := by
    simp only [seqAnd, List.map_cons, List.map_nil, List.mem_cons, List.not_mem_nil, or_false, forall_eq_or_imp, forall_eq, Fld.key,
      R.EKL.CREG_DATA.DATA, R.EKL.CREG_STATUS.BUSY, R.EKL.CREG_STATUS.RESP, R.EKL.CREG_STATUS.SEQ, R.EKL.CREG_STATUS.DONE]
    omega
  have hp3 : g3.portS p.val = _ := (portS_of_leaves (hputs.trans hev) p.val).trans hp1
  refine row_completes (g := g3) (exec_regResp ..) hfine hrow (by rw [hN, hk, heq]) ?_ ⟨?_, ?_, ?_, ?_, raised_after hraise s, ?_⟩
  · rw [hp3]
    exact hn.maskSent.trans (rowMask hrow)
  · rw [Dev.cregS, portS_after, hp3]
    exact KMap.get_put_self _ (g.portS p.val).creg w.val none
  · rw [get_after, hev.get (hbook _ (by simp [respRegs])) (hnot _ (by simp)), hbusy]
  · rw [get_after, hev.get (hbook _ (by simp [respRegs])) (hnot _ (by simp)), hdata]
  · rw [get_after, hev.get (hbook _ (by simp [respRegs])) (hnot _ (by simp)), hresp]
  · refine PortStep.frame (((hn.step.trans hs1).trans (portStep_of_leaves (hputs.trans hev))).mono ?_) s
    rw [hcs]
    simp [counts, seqAnd]

/-! ## Packets that are only counted -/

theorem filler_completes (p : Fin 12) (o : OpenPkt) (e : BitVec 64) (row : List Blk) (d : Dev) (s : State) (hfine : s.dev.portFine p.val)
    (hrow : s.dev.rowCloses d p.val o e row) (hraw : rawBits (o.packet (some e)).dtype = none) (ht : (o.packet (some e)).dtype ∉ [0x20, 0x21, 0x22]) :
    Completes (.filler p [row]) s (fun t =>
      (t.dev.portS p.val).pkt = none ∧ (t.dev.portS p.val).pseq = ((o.packet (some e)).pseq + 1) % 256 ∧
      (t.dev.portS p.val).lines = (d.portS p.val).lines ∧ (t.dev.portS p.val).discards = (d.portS p.val).discards + 1 ∧
      Frame [R.EKL.STAT.COUNT p.val 7, R.EKL.STAT.COUNT p.val 9, R.EKL.STAT.COUNT p.val 10] { d with port := t.dev.port } s t) := by
  have hn := packetNoted_facts p.val (o.packet (some e)) d
  have heq := packetTaken_other (p := p.val) (d := packetNoted p.val (o.packet (some e)) d) hraw ht
  generalize hN : packetNoted p.val (o.packet (some e)) d = g at hn heq
  generalize hk : o.packet (some e) = k at hn heq ⊢
  generalize hx : setPort p.val { g.portS p.val with discards := (g.portS p.val).discards + 1 } g = g1 at heq
  have hp1 : g1.portS p.val = { packetEnded k (d.portS p.val) with discards := (packetEnded k (d.portS p.val)).discards + 1 } := by
    rw [← hx, portS_setPort, hn.port]
  have hs1 : PortStep [] g g1 := hx ▸ portStep_setPort ..
  refine row_completes (g := g1) (exec_filler ..) hfine hrow (by rw [hN, hk, heq]) ?_ ⟨?_, ?_, ?_, ?_, ?_⟩
  · rw [hp1]
    exact rowMask hrow
  · rw [portS_after, hp1]
    rfl
  · rw [portS_after, hp1]
    rfl
  · rw [portS_after, hp1]
    rfl
  · rw [portS_after, hp1]
    rfl
  · exact ((hn.step.trans hs1).mono (fun f hf => countsAll (by simpa using hf))).frame s

theorem unmapped_completes (p : Fin 12) (n : Nat) (o : OpenPkt) (e : BitVec 64) (row : List Blk) (d : Dev) (s : State) (hfine : s.dev.portFine p.val)
    (hrow : s.dev.rowCloses d p.val o e row) (hraw : rawBits (o.packet (some e)).dtype = some n) (hq : d.slotFor p.val (o.packet (some e)) = none) :
    Completes (.rawPacket p [row]) s (fun t =>
      Counted (R.EKL.STAT.COUNT p.val 11) 1 d t.dev ∧ (t.dev.portS p.val).lines = (d.portS p.val).lines) := by
  have hn := packetNoted_facts p.val (o.packet (some e)) d
  have heq := packetTaken_unmapped (p := p.val) (d := packetNoted p.val (o.packet (some e)) d) hraw ((hn.slotFor p.isLt _).trans hq)
  generalize hN : packetNoted p.val (o.packet (some e)) d = g at hn heq
  have hstat := leaves_eklStat p.val 11 1 g
  have hcount : Counted (R.EKL.STAT.COUNT p.val 11) 1 g (eklStat p.val 11 1 g) := get_put_self ..
  generalize eklStat p.val 11 1 g = g1 at hstat hcount heq
  refine row_completes (g := g1) (exec_rawPacket ..) hfine hrow (by rw [hN, heq]) ?_ ⟨?_, ?_⟩
  · rw [portS_of_leaves hstat]
    exact hn.maskSent.trans (rowMask hrow)
  · exact counted_of_get hcount (hn.count p.isLt (by decide) (by decide)) (get_after ..)
  · rw [portS_after, portS_of_leaves hstat]
    exact hn.lines

/-! ## Packets of plane slots -/

theorem portS_setLine (p : Nat) (r : LineRec) (d : Dev) :
    (setLine p r d).portS p = { d.portS p with lines := (d.portS p).lines.map (fun x => if x.lsn = r.lsn then r else x) } :=
  portS_setPort ..

theorem placePacket_stray {p q : Nat} {k : Pkt} {xs : List Nat} {d : Dev} (h : d.get (R.EKL.STATUS.STATE p) ≠ 4) :
    placePacket p q k xs d = eklPerf p 8 1 (eklStat p 6 1 d) := by
  unfold placePacket
  dsimp only
  rw [if_pos h]

theorem placePacket_open {p q : Nat} {k : Pkt} {xs : List Nat} {d : Dev} {r : LineRec} (h : d.get (R.EKL.STATUS.STATE p) = 4)
    (hr : matchLine d p k = some r) (hst : r.st = .isOpen) : placePacket p q k xs d = joinLine p q k xs r d := by
  unfold placePacket
  dsimp only
  rw [if_neg (not_not.mpr h), hr]
  dsimp only
  rw [hst]

/-- A late packet, or a duplicate, the first of its line. -/
theorem placePacket_counted {p q : Nat} {k : Pkt} {xs : List Nat} {d : Dev} {r : LineRec} (h : d.get (R.EKL.STATUS.STATE p) = 4)
    (hr : matchLine d p k = some r)
    (hst : (r.st = .isMissing ∧ r.lateCounted = false) ∨ (r.st = .isComplete ∧ r.eols.contains q = true ∧ r.dupCounted = false)) :
    ∃ r' code, placePacket p q k xs d = setLine p r' (eklPerf p code 1 (eklStat p (if r.st = .isMissing then 5 else 4) 1 (slot 9 (ekl p) 1 xs.length d))) := by
  unfold placePacket
  dsimp only
  rw [if_neg (not_not.mpr h), hr]
  dsimp only
  rcases hst with ⟨hst, hl⟩ | ⟨hst, hq, hd⟩
  · rw [hst]
    dsimp only
    rw [hl, if_neg Bool.false_ne_true, if_pos rfl]
    exact ⟨_, _, rfl⟩
  · rw [hst]
    dsimp only
    rw [if_pos hq, hd, if_neg Bool.false_ne_true, if_neg (by decide)]
    exact ⟨_, _, rfl⟩

theorem stray_completes (p : Fin 12) (n q : Nat) (o : OpenPkt) (e : BitVec 64) (row : List Blk) (d : Dev) (s : State) (hfine : s.dev.portFine p.val)
    (hrow : s.dev.rowCloses d p.val o e row) (hraw : rawBits (o.packet (some e)).dtype = some n) (hq : d.slotFor p.val (o.packet (some e)) = some q)
    (h4 : d.get (R.EKL.STATUS.STATE p.val) ≠ 4) :
    Completes (.rawPacket p [row]) s (fun t =>
      Counted (R.EKL.STAT.COUNT p.val 6) 1 d t.dev ∧ (t.dev.portS p.val).lines = (d.portS p.val).lines ∧
      Frame [R.EKL.STAT.COUNT p.val 6, R.EKL.STAT.COUNT p.val 7, R.EKL.STAT.COUNT p.val 9, R.EKL.STAT.COUNT p.val 10]
        { d with port := t.dev.port } s t) := by
  have hn := packetNoted_facts p.val (o.packet (some e)) d
  have heq := packetTaken_placed (p := p.val) (d := packetNoted p.val (o.packet (some e)) d) hraw ((hn.slotFor p.isLt _).trans hq)
  generalize hN : packetNoted p.val (o.packet (some e)) d = g at hn heq
  rw [placePacket_stray (by rw [hn.get (portReg_status p.val p.isLt _ (by simp))]; exact h4)] at heq
  have hstat := leaves_counted p.val 6 8 1 g
  have hcount := counted_eklPerf p.isLt (c := 6) (by decide) 8 1 g
  generalize eklPerf p.val 8 1 (eklStat p.val 6 1 g) = g1 at hstat hcount heq
  refine row_completes (g := g1) (exec_rawPacket ..) hfine hrow (by rw [hN, heq]) ?_ ⟨?_, ?_, ?_⟩
  · rw [portS_of_leaves hstat]
    exact hn.maskSent.trans (rowMask hrow)
  · exact counted_of_get hcount (hn.count p.isLt (by decide) (by decide)) (get_after ..)
  · rw [portS_after, portS_of_leaves hstat]
    exact hn.lines
  · refine ((hn.step.trans (portStep_of_leaves hstat)).mono (fun f hf => ?_)).frame s
    rcases List.mem_append.mp hf with hf | hf
    · exact List.mem_cons_of_mem _ (countsAll hf)
    · exact List.mem_cons.mpr (.inl (List.mem_singleton.mp hf))

theorem counted_completes (p : Fin 12) (n q : Nat) (r : LineRec) (o : OpenPkt) (e : BitVec 64) (row : List Blk) (d : Dev) (s : State)
    (hfine : s.dev.portFine p.val) (hrow : s.dev.rowCloses d p.val o e row) (hraw : rawBits (o.packet (some e)).dtype = some n)
    (hq : d.slotFor p.val (o.packet (some e)) = some q) (h4 : d.get (R.EKL.STATUS.STATE p.val) = 4) (hr : matchLine d p.val (o.packet (some e)) = some r)
    (hst : (r.st = .isMissing ∧ r.lateCounted = false) ∨ (r.st = .isComplete ∧ r.eols.contains q = true ∧ r.dupCounted = false)) :
    Completes (.rawPacket p [row]) s (fun t =>
      Counted (R.EKL.STAT.COUNT p.val (if r.st = .isMissing then 5 else 4)) 1 d t.dev ∧
      Frame [R.EKL.STAT.COUNT p.val (if r.st = .isMissing then 5 else 4), R.EKL.STAT.COUNT p.val 7, R.EKL.STAT.COUNT p.val 9,
        R.EKL.STAT.COUNT p.val 10] { d with port := t.dev.port } s t) := by
  have hn := packetNoted_facts p.val (o.packet (some e)) d
  have heq := packetTaken_placed (p := p.val) (d := packetNoted p.val (o.packet (some e)) d) hraw ((hn.slotFor p.isLt _).trans hq)
  have hr' := (hn.matchLine p.isLt (o.packet (some e))).trans hr
  generalize hN : packetNoted p.val (o.packet (some e)) d = g at hn heq hr'
  obtain ⟨r', code, hplace⟩ := placePacket_counted (q := q)
    (xs := rawSamples n (o.packet (some e)).payload (min (o.packet (some e)).length (o.packet (some e)).payload.length))
    (by rw [hn.get (portReg_status p.val p.isLt _ (by simp))]; exact h4) hr' hst
  rw [hplace] at heq
  have hc : (if r.st = .isMissing then 5 else 4) < 16 ∧ (if r.st = .isMissing then 5 else 4) ∉ [7, 9, 10] := by split <;> decide
  generalize (if r.st = .isMissing then 5 else 4) = c at heq hc ⊢
  generalize (rawSamples n (o.packet (some e)).payload (min (o.packet (some e)).length (o.packet (some e)).payload.length)).length = m at heq
  have hslot := leaves_slot 9 (perfBase_port p.isLt) (cat := 1) (by decide) m g
  generalize slot 9 (ekl p.val) 1 m g = g1 at hslot heq
  have hstat := leaves_counted p.val c code 1 g1
  have hcount := counted_eklPerf p.isLt hc.1 code 1 g1
  generalize eklPerf p.val code 1 (eklStat p.val c 1 g1) = g2 at hstat hcount heq
  have hset : PortStep [] g2 (setLine p.val r' g2) := portStep_setPort ..
  have hmask : ((setLine p.val r' g2).portS p.val).maskSent = (g2.portS p.val).maskSent := by rw [portS_setLine]
  have hcnt : (setLine p.val r' g2).get (R.EKL.STAT.COUNT p.val c) = g2.get (R.EKL.STAT.COUNT p.val c) := hset.get (count_book p.isLt hc.1) (by simp)
  generalize setLine p.val r' g2 = g3 at hset hmask hcnt heq
  have hbook := count_book p.isLt hc.1
  refine row_completes (g := g3) (exec_rawPacket ..) hfine hrow (by rw [hN, heq]) ?_ ⟨?_, ?_⟩
  · rw [hmask, portS_of_leaves (hslot.trans hstat)]
    exact hn.maskSent.trans (rowMask hrow)
  · exact counted_of_get hcount ((hslot.get hbook (by simp)).trans (hn.count p.isLt hc.1 hc.2)) ((get_after ..).trans hcnt)
  · refine (((hn.step.trans (portStep_of_leaves (hslot.trans hstat))).trans hset).mono (fun f hf => ?_)).frame s
    simp only [List.append_nil, List.nil_append] at hf
    rcases List.mem_append.mp hf with hf | hf
    · exact List.mem_cons_of_mem _ (countsAll hf)
    · exact List.mem_cons.mpr (.inl (List.mem_singleton.mp hf))

/-! ## Packets of an open line -/

theorem ite_port {c : Prop} [Decidable c] {a b d : Dev} (ha : a.port = d.port) (hb : b.port = d.port) : (if c then a else b).port = d.port := by
  split
  · exact ha
  · exact hb

theorem lathTap_port (n ctx t : Nat) (l : CamLine) (en bin first : Nat) (firsts : List Nat) (planes : List (List Nat)) (d : Dev) :
    (lathTap n ctx t l en bin first firsts planes d).port = d.port := by
  unfold lathTap
  dsimp only
  have hrec : ∀ (c : Bool) (line : TapLine) (x : LthS), (if c = true then recPut line (setLth n x d) else d).port = d.port := by
    intro c line x
    cases c <;> rfl
  generalize hg : (if d.recTakes t = true then _ else d) = g
  have hport : g.port = d.port := by
    rw [← hg]
    exact hrec ..
  have hshow (h : Dev) : (showBuf h).port = h.port := port_of_leaves (leaves_put ..)
  have hdrop (h : Dev) : (tapDrop n h).port = h.port := by
    refine (port_of_leaves (leaves_perf 10 ?_ 0xe 1 _)).trans ((port_of_leaves (leaves_put ..)).trans (port_of_leaves (leaves_event ..)))
    unfold PerfBase lthBase
    omega
  exact ite_port (ite_port hport (ite_port ((hshow _).trans hport) ((hdrop _).trans hport))) hport

/-- A port with its open lines and its pending masks. -/
def SameLines (p : Nat) (d e : Dev) : Prop := (e.portS p).lines = (d.portS p).lines ∧ (e.portS p).maskSent = (d.portS p).maskSent

theorem sameLines_of_port {p : Nat} {d e : Dev} (h : e.port = d.port) : SameLines p d e := by
  unfold SameLines Dev.portS
  rw [h]
  exact ⟨rfl, rfl⟩

theorem sameLines_of_leaves {p : Nat} {fs : List Fld} {d e : Dev} (h : Leaves fs d e) : SameLines p d e := sameLines_of_port (port_of_leaves h)

theorem SameLines.trans {p : Nat} {d e g : Dev} (h : SameLines p d e) (h' : SameLines p e g) : SameLines p d g :=
  ⟨h'.1.trans h.1, h'.2.trans h.2⟩

theorem sameLines_setPort {p : Nat} {x : PortS} {d : Dev} (h : x.lines = (d.portS p).lines) (h' : x.maskSent = (d.portS p).maskSent) :
    SameLines p d (setPort p x d) := by
  unfold SameLines
  rw [portS_setPort]
  exact ⟨h, h'⟩

theorem forwardLine_lines {p : Nat} (l : CamLine) (d : Dev) : SameLines p d (forwardLine p l d) := by
  unfold forwardLine
  dsimp only
  have hputs : SameLines p d (put (R.EKL.LAST_DT.DT p) l.dtDone (put (R.EKL.LAST_LSN.LSN p) l.lsn d)) :=
    (sameLines_of_leaves (leaves_put (R.EKL.LAST_LSN.LSN p) l.lsn d)).trans (sameLines_of_leaves (leaves_put ..))
  generalize put (R.EKL.LAST_DT.DT p) l.dtDone _ = e at hputs ⊢
  have hboth (c code : Nat) (g : Dev) : SameLines p g (eklPerf p code 1 (eklStat p c 1 g)) :=
    sameLines_of_leaves (leaves_counted p c code 1 g)
  have hwhen (b : Bool) (c code : Nat) (g : Dev) : SameLines p g (when b (fun d => eklPerf p code 1 (eklStat p c 1 d)) g) := by
    cases b
    · exact ⟨rfl, rfl⟩
    · exact hboth c code g
  have hcount : SameLines p e (if l.token = true then eklPerf p 3 1 e
      else when (bit l.flags 6) (fun d => eklPerf p 0x10 1 (eklStat p 12 1 d))
        (when (bit l.flags 2) (fun d => eklPerf p 5 1 (eklStat p 3 1 d))
          (when (bit l.flags 1) (fun d => eklPerf p 4 1 (eklStat p 2 1 d)) (eklStat p 0 1 e)))) := by
    split
    · exact sameLines_of_leaves (leaves_eklPerf ..)
    · exact (((sameLines_of_leaves (leaves_eklStat ..)).trans (hwhen ..)).trans (hwhen ..)).trans (hwhen ..)
  generalize (if l.token = true then _ else _) = g at hcount ⊢
  refine hputs.trans (hcount.trans ?_)
  split
  · exact sameLines_setPort rfl rfl
  · split
    · exact sameLines_setPort rfl rfl
    · split
      · exact sameLines_of_port rfl
      · exact sameLines_of_port (lathTap_port ..)

/-- A line that is closed. -/
def lineClosed (p : Nat) (d : Dev) (r : LineRec) : LineRec := { r with st := .isComplete, eols := (d.slots p).filter (fun q => (r.plane q).eol) }

theorem closeLine_lines {p : Nat} (hp : p < 12) (r : LineRec) (d : Dev) :
    ∃ g, ((closeLine p r d).portS p).lines = (d.portS p).lines.map (fun x => if x.lsn = r.lsn then lineClosed p g r else x) ∧
      ((closeLine p r d).portS p).maskSent = (d.portS p).maskSent := by
  unfold closeLine
  dsimp only
  have hw : SameLines p d (when ((d.slots p).all (fun q => (r.plane q).closed)) (eklPerf p 2 1) d) := by
    cases (d.slots p).all (fun q => (r.plane q).closed)
    · exact ⟨rfl, rfl⟩
    · exact sameLines_of_leaves (leaves_eklPerf p 2 1 d)
  generalize when _ _ d = g at hw ⊢
  have hslot (cat : Nat) (hc : cat < 16) (n : Nat) (h : Dev) : SameLines p h (slot 9 (ekl p) cat n h) :=
    sameLines_of_leaves (leaves_slot 9 (perfBase_port hp) hc n h)
  have hslots (m n : Nat) (h : Dev) : SameLines p h (slot 9 (ekl p) 1 m (slot 9 (ekl p) 0 n h)) :=
    (hslot 0 (by decide) n h).trans (hslot 1 (by decide) m _)
  have hset := portS_setLine p (lineClosed p g r) g
  have hrest := (hslots (fillCount d p r) (sumNat ((buildLine d p r).planes.map List.length) - fillCount d p r) (setLine p (lineClosed p g r) g)).trans
    (forwardLine_lines (buildLine d p r) _)
  refine ⟨g, ?_, ?_⟩
  · refine hrest.1.trans ?_
    rw [hset, hw.1]
    rfl
  · refine hrest.2.trans ?_
    rw [hset]
    exact hw.2

/-- A line with a plane's packet joined. -/
def lineJoined (q : Nat) (k : Pkt) (off : Bool) (a : PlaneAcc) (r : LineRec) : LineRec :=
  { r with planes := KMap.put (fun _ => {}) r.planes q a, dtExp := some (r.dtExp.getD k.dtExp)
           flags := r.flags ||| packetLineFlags k ||| (if r.dtExp.isNone && off then 64 else 0) }

theorem plane_lineJoined (q : Nat) (k : Pkt) (off : Bool) (a : PlaneAcc) (r : LineRec) : (lineJoined q k off a r).plane q = a :=
  KMap.get_put_self (fun _ => ({} : PlaneAcc)) r.planes q a

/-- A line that has all its planes is closed. -/
def closeIfDone (p : Nat) (r : LineRec) (d : Dev) : Dev := if lineDone d p r then closeLine p r d else d

theorem joinLine_eq (p q : Nat) (k : Pkt) (xs : List Nat) (r : LineRec) (d : Dev) : ∃ off,
    joinLine p q k xs r d =
      closeIfDone p (lineJoined q k off (joinPlane d p q (r.bgOf d p q) k xs (r.plane q)).1 r)
        (setLine p (lineJoined q k off (joinPlane d p q (r.bgOf d p q) k xs (r.plane q)).1 r)
          (slot 9 (ekl p) 1 (joinPlane d p q (r.bgOf d p q) k xs (r.plane q)).2.1
            (when (joinPlane d p q (r.bgOf d p q) k xs (r.plane q)).2.2 (framing p) d))) :=
  ⟨_, rfl⟩

/-- A line that is set stands in the list; where it has all its planes it is closed there. -/
theorem setLine_or_closed {p : Nat} (hp : p < 12) {r r' : LineRec} {d : Dev} (hr : r ∈ (d.portS p).lines) (hl : r'.lsn = r.lsn) :
    closeIfDone p r' (setLine p r' d) = setLine p r' d ∨
    ∃ g, lineClosed p g r' ∈ ((closeIfDone p r' (setLine p r' d)).portS p).lines ∧
      ((closeIfDone p r' (setLine p r' d)).portS p).maskSent = (d.portS p).maskSent := by
  unfold closeIfDone
  cases hd : lineDone (setLine p r' d) p r'
  · exact .inl (if_neg Bool.false_ne_true)
  · obtain ⟨g, hlines, hmask⟩ := closeLine_lines hp r' (setLine p r' d)
    rw [portS_setLine] at hlines hmask
    refine .inr ⟨g, ?_, ?_⟩
    · rw [if_pos rfl, hlines]
      refine List.mem_map.mpr ⟨r', List.mem_map.mpr ⟨r, hr, if_pos hl.symm⟩, if_pos rfl⟩
    · rw [if_pos rfl, hmask]

theorem mem_of_matchLine {p : Nat} {k : Pkt} {d : Dev} {r : LineRec} (h : matchLine d p k = some r) : r ∈ (d.portS p).lines := by
  unfold matchLine at h
  dsimp only at h
  split at h
  · split at h
    · exact absurd h (by simp)
    · split at h
      next x hx =>
        obtain rfl := Option.some.inj h
        exact (List.mem_filter.mp (List.mem_of_find?_eq_some hx)).1
      next => exact (List.mem_filter.mp (List.mem_of_mem_head? h)).1
  · exact List.mem_of_find?_eq_some h

theorem joined_completes (p : Fin 12) (n q : Nat) (r : LineRec) (o : OpenPkt) (e : BitVec 64) (row : List Blk) (d : Dev) (s : State)
    (hfine : s.dev.portFine p.val) (hrow : s.dev.rowCloses d p.val o e row) (hraw : rawBits (o.packet (some e)).dtype = some n)
    (hq : d.slotFor p.val (o.packet (some e)) = some q) (hq4 : q < 4) (h4 : d.get (R.EKL.STATUS.STATE p.val) = 4)
    (hr : matchLine d p.val (o.packet (some e)) = some r) (hst : r.st = .isOpen) :
    Completes (.rawPacket p [row]) s (fun t => ∃ r' ∈ (t.dev.portS p.val).lines,
      r'.lsn = r.lsn ∧ r'.e = r.e ∧
      r'.plane q = (joinPlane d p.val q (r.bgOf d p.val q) (o.packet (some e))
        (rawSamples n (o.packet (some e)).payload (min (o.packet (some e)).length (o.packet (some e)).payload.length)) (r.plane q)).1 ∧
      (r'.st = .isOpen → Frame [R.EKL.STAT.COUNT p.val 7, R.EKL.STAT.COUNT p.val 9, R.EKL.STAT.COUNT p.val 10]
        { d with port := t.dev.port } s t)) := by
  have hn := packetNoted_facts p.val (o.packet (some e)) d
  have heq := packetTaken_placed (p := p.val) (d := packetNoted p.val (o.packet (some e)) d) hraw ((hn.slotFor p.isLt _).trans hq)
  have hr' := (hn.matchLine p.isLt (o.packet (some e))).trans hr
  generalize hN : packetNoted p.val (o.packet (some e)) d = g at hn heq hr'
  generalize rawSamples n (o.packet (some e)).payload (min (o.packet (some e)).length (o.packet (some e)).payload.length) = xs at heq ⊢
  rw [placePacket_open (by rw [hn.get (portReg_status p.val p.isLt _ (by simp))]; exact h4) hr' hst] at heq
  obtain ⟨off, hjoin⟩ := joinLine_eq p.val q (o.packet (some e)) xs r g
  rw [hjoin, bgOf_of_get p.isLt (fun _ hf => hn.get hf) hq4, joinPlane_of_get p.isLt (fun _ hf => hn.get hf) hq4] at heq
  generalize joinPlane d p.val q (r.bgOf d p.val q) (o.packet (some e)) xs (r.plane q) = j at heq ⊢
  have hframing : Leaves [R.EKL.STAT.COUNT p.val 9] g (when j.2.2 (framing p.val) g) := by
    cases j.2.2
    · exact (Leaves.refl g).mono (by simp)
    · exact leaves_counted p.val 9 0xb 1 g
  generalize when j.2.2 (framing p.val) g = g1 at hframing heq
  have hslot := leaves_slot 9 (perfBase_port p.isLt) (cat := 1) (by decide) j.2.1 g1
  generalize slot 9 (ekl p.val) 1 j.2.1 g1 = g2 at hslot heq
  have hleaves := hframing.trans hslot
  have hport2 := portS_of_leaves hleaves p.val
  have hmem : r ∈ (g2.portS p.val).lines := by
    rw [hport2, hn.lines]
    exact mem_of_matchLine hr
  have hmask : (g2.portS p.val).maskSent = [] := by
    rw [hport2]
    exact hn.maskSent.trans (rowMask hrow)
  have hplane := plane_lineJoined q (o.packet (some e)) off j.1 r
  have hopen : (lineJoined q (o.packet (some e)) off j.1 r).st = .isOpen := hst
  have hlsn : (lineJoined q (o.packet (some e)) off j.1 r).lsn = r.lsn := rfl
  have htime : (lineJoined q (o.packet (some e)) off j.1 r).e = r.e := rfl
  generalize lineJoined q (o.packet (some e)) off j.1 r = r' at heq hplane hopen hlsn htime
  rcases setLine_or_closed p.isLt hmem hlsn with hset | ⟨g', hin, hsent⟩
  · rw [hset] at heq
    have hstep : PortStep [] g2 (setLine p.val r' g2) := portStep_setPort ..
    have hport := portS_setLine p.val r' g2
    generalize setLine p.val r' g2 = g3 at hstep hport heq
    refine row_completes (g := g3) (exec_rawPacket ..) hfine hrow (by rw [hN, heq]) (by rw [hport]; exact hmask) ⟨r', ?_, hlsn, htime, hplane, fun _ => ?_⟩
    · rw [portS_after, hport]
      exact List.mem_map.mpr ⟨r, hmem, if_pos hlsn.symm⟩
    · refine (((hn.step.trans (portStep_of_leaves hleaves)).trans hstep).mono (fun f hf => ?_)).frame s
      simp only [List.append_nil] at hf
      rcases List.mem_append.mp hf with hf | hf
      · exact countsAll hf
      · exact List.mem_cons_of_mem _ (List.mem_cons.mpr (.inl (List.mem_singleton.mp hf)))
  · generalize closeIfDone p.val r' (setLine p.val r' g2) = g3 at hin hsent heq
    refine row_completes (g := g3) (exec_rawPacket ..) hfine hrow (by rw [hN, heq]) (hsent.trans hmask)
      ⟨lineClosed p.val g' r', ?_, hlsn, htime, hplane, fun ho => ?_⟩
    · rw [portS_after]
      exact hin
    · exact absurd ho (by simp [lineClosed])

/-! ## The obligation -/

/-- Settles O34: what becomes of a packet is decided by its data type, its slot and its line. -/
theorem packetsAreTaken : Obligations.PacketsAreTaken :=
  ⟨metadata_completes, camStatus_completes, regResp_completes, filler_completes, joined_completes, counted_completes, stray_completes, unmapped_completes⟩

end Sys2Proof.Proofs
end

section
/-!
The requests of a port and their answers: echoes, times, register requests and masks (R112 to R116, R131 to R136).
-/
namespace Sys2Proof.Proofs
open Sys2Proof Sys2Proof.Machine

/-! ## Messages of a port whose state has been set -/

theorem sendMsg_setPort {p : Nat} (hp : p < 12) {d : Dev} (hup : d.downlinkUp p = true) {x : PortS} (hx : x.mseq = (d.portS p).mseq)
    (code : Nat) (body : List Byte) :
    Upto withSent [] d (sendMsg p code body (setPort p x d)) ∧
    (sendMsg p code body (setPort p x d)).portS p = { x with mseq := ((d.portS p).mseq + 1) % 256 } ∧
    (sendMsg p code body (setPort p x d)).out = .downlink p (message code (d.portS p).mseq body) :: d.out := by
  obtain ⟨hs, h⟩ := sendMsg_sends hp code body (setPort p x d)
  obtain ⟨hport, hout⟩ := h hup
  have hset : Upto withSent [] d (setPort p x d) := upto_of_eq fun _ => rfl
  refine ⟨(hset.trans hs.upto).mono (by simp), ?_, ?_⟩
  · rw [hport, portSent, portS_setPort, hx]
  · rw [hout, portS_setPort, hx]
    rfl

/-! ## Echo requests and time messages -/

/-- A port whose echo leaves at a time. -/
def echoSent (t : Nat) (x : PortS) : PortS := { x with echo := some (x.echoId, t), echoId := (x.echoId + 1) % 65536, echoAt := some t }

theorem sendEcho_eq {p : Nat} {d : Dev} (h : d.downlinkUp p = true) :
    sendEcho p d = sendMsg p 3 (leBytes 2 (d.portS p).echoId) (setPort p (echoSent d.dt (d.portS p)) d) := if_pos h

theorem echoReq_completes (p : Fin 12) (d : Dev) (s : State) (h2 : 2 ≤ s.dev.get (R.EKL.STATUS.STATE p.val))
    (h4 : s.dev.get (R.EKL.STATUS.STATE p.val) ≤ 4)
    (hd : d = reachMs (s.dev.portS p.val).echoAt (max 1 (s.dev.get (R.EKL.TIME_CTL.ECHO_MS p.val))) s.dev) (hup : d.downlinkUp p.val = true) :
    Completes (.echoReq p) s (fun t =>
      (t.dev.portS p.val).echo = some ((d.portS p.val).echoId, d.dt) ∧
      (t.dev.portS p.val).echoId = ((d.portS p.val).echoId + 1) % 65536 ∧
      t.dev.out = .downlink p.val (message 3 (d.portS p.val).mseq (leBytes 2 (d.portS p.val).echoId)) :: d.out ∧
      Frame [] { d with port := t.dev.port, out := t.dev.out, lane := t.dev.lane, free := t.dev.free } s t) := by
  obtain ⟨hsent, hport, hout⟩ := sendMsg_setPort p.isLt hup (x := echoSent d.dt (d.portS p.val)) rfl 3 (leBytes 2 (d.portS p.val).echoId)
  have heq := sendEcho_eq hup
  generalize sendMsg p.val 3 _ _ = e at hsent hport hout heq
  refine completes_to (exec_echoReq ..) e ?_ ⟨?_, ?_, ?_, frame_sent hsent s⟩
  · rw [when_of (show s.dev.linked p.val = true from decide_eq_true ⟨h2, h4⟩), ← hd, heq]
  · rw [portS_after, hport]
    rfl
  · rw [portS_after, hport]
    rfl
  · exact (after_out ..).trans hout

/-- A port whose time leaves at a time. -/
def timeSent (t : Nat) (x : PortS) : PortS := { x with timeAt := some t }

theorem sendTimeSet_eq {p : Nat} {d : Dev} (h : d.downlinkUp p = true) : sendTimeSet p d =
    sendMsg p 2 (leBytes 4 d.tim.epoch ++ leBytes 8 d.dt ++ leBytes 4 (d.get (R.TIM.PT_DELAY.PS p))) (setPort p (timeSent d.dt (d.portS p)) d) := by
  unfold sendTimeSet
  rw [when_of h]
  rfl

theorem timeSet_completes (p : Fin 12) (d : Dev) (s : State) (hready : s.dev.timeReady p.val = true)
    (hd : d = reachMs (s.dev.portS p.val).timeAt (s.dev.timeMs p.val) s.dev) (hup : d.downlinkUp p.val = true) :
    Completes (.timeSet p) s (fun t =>
      t.dev.out = .downlink p.val (message 2 (d.portS p.val).mseq
        (leBytes 4 d.tim.epoch ++ leBytes 8 d.dt ++ leBytes 4 (d.get (R.TIM.PT_DELAY.PS p.val)))) :: d.out ∧
      (t.dev.portS p.val).mseq = ((d.portS p.val).mseq + 1) % 256 ∧ (t.dev.portS p.val).timeAt = some d.dt ∧
      Frame [] { d with port := t.dev.port, out := t.dev.out, lane := t.dev.lane, free := t.dev.free } s t) := by
  obtain ⟨hsent, hport, hout⟩ := sendMsg_setPort p.isLt hup (x := timeSent d.dt (d.portS p.val)) rfl 2
    (leBytes 4 d.tim.epoch ++ leBytes 8 d.dt ++ leBytes 4 (d.get (R.TIM.PT_DELAY.PS p.val)))
  have heq := sendTimeSet_eq hup
  generalize sendMsg p.val 2 _ _ = e at hsent hport hout heq
  refine completes_to (exec_timeSet ..) e ?_ ⟨?_, ?_, ?_, frame_sent hsent s⟩
  · rw [when_of hready, ← hd, heq]
  · exact (after_out ..).trans hout
  · rw [portS_after, hport]
  · rw [portS_after, hport]
    rfl

/-! ## Register requests -/

/-- A port with a register request in a window. -/
def cregSent (w t : Nat) (x : PortS) : PortS := { x with creg := KMap.put (fun _ => none) x.creg w (some (x.mseq, t)) }

/-- The body of a register request. -/
def cregBody (p w code : Nat) (d : Dev) : List Byte :=
  leBytes 4 (d.get (R.EKL.CREG_ADDR.ADDR p w)) ++ (if code = 4 then leBytes 4 (d.get (R.EKL.CREG_DATA.DATA p w)) else [])

theorem cregRequest_idle {p w code : Nat} {d : Dev} (h : d.on (R.EKL.CREG_STATUS.BUSY p w) = false) : cregRequest p w code d =
    put (R.EKL.CREG_STATUS.BUSY p w) 1 (sendMsg p code (cregBody p w code d) (setPort p (cregSent w d.dt (d.portS p)) d)) :=
  if_neg (by rw [h]; exact Bool.false_ne_true)

theorem cregRequest_busy {p w code : Nat} {d : Dev} (h : d.on (R.EKL.CREG_STATUS.BUSY p w) = true) : cregRequest p w code d = framing p d :=
  if_pos h

theorem busy_book {p w : Nat} (hp : p < 12) (hw : w < 2) : bookKey (R.EKL.CREG_STATUS.BUSY p w).key = false :=
  bookKey_area (by simp only [Fld.key, R.EKL.CREG_STATUS.BUSY]; omega)

/-- A request of an idle window leaves and makes it busy. -/
theorem cregRequest_sends {c : Instr} {p : Fin 12} {w : Fin 2} {code : Nat} {s : State} (hc : exec c s = total (fun _ d => cregRequest p.val w.val code d) s)
    (hup : s.dev.downlinkUp p.val = true) (hidle : s.dev.on (R.EKL.CREG_STATUS.BUSY p.val w.val) = false) :
    Completes c s (fun t =>
      t.dev.on (R.EKL.CREG_STATUS.BUSY p.val w.val) = true ∧ t.dev.cregS p.val w.val = some ((s.dev.portS p.val).mseq, s.dev.dt) ∧
      t.dev.out = .downlink p.val (message code (s.dev.portS p.val).mseq (cregBody p.val w.val code s.dev)) :: s.dev.out ∧
      Frame [R.EKL.CREG_STATUS.BUSY p.val w.val] { s.dev with port := t.dev.port, out := t.dev.out, lane := t.dev.lane, free := t.dev.free } s t) := by
  obtain ⟨hsent, hport, hout⟩ := sendMsg_setPort p.isLt hup (x := cregSent w.val s.dev.dt (s.dev.portS p.val)) rfl code (cregBody p.val w.val code s.dev)
  have heq := cregRequest_idle (code := code) hidle
  generalize sendMsg p.val code _ _ = g at hsent hport hout heq
  have hput := leaves_put (R.EKL.CREG_STATUS.BUSY p.val w.val) 1 g
  have hbusy : (put (R.EKL.CREG_STATUS.BUSY p.val w.val) 1 g).get (R.EKL.CREG_STATUS.BUSY p.val w.val) = 1 := get_put_self ..
  generalize put (R.EKL.CREG_STATUS.BUSY p.val w.val) 1 g = e at hput hbusy heq
  refine completes_to hc e heq ⟨?_, ?_, ?_, ?_⟩
  · rw [on_after, Dev.on, hbusy]
    rfl
  · rw [Dev.cregS, portS_after, portS_of_leaves hput, hport]
    exact KMap.get_put_self (fun _ => (none : Option (Nat × Nat))) (s.dev.portS p.val).creg w.val (some ((s.dev.portS p.val).mseq, s.dev.dt))
  · exact (after_out ..).trans ((out_of_leaves hput).trans hout)
  · exact frame_sent ((hsent.trans (upto_of_leaves setsPart_withSent hput)).mono (by simp)) s

theorem cregRd_completes (p : Fin 12) (w : Fin 2) (s : State) (hup : s.dev.downlinkUp p.val = true)
    (hidle : s.dev.on (R.EKL.CREG_STATUS.BUSY p.val w.val) = false) :
    Completes (.cregRd p w) s (fun t =>
      t.dev.on (R.EKL.CREG_STATUS.BUSY p.val w.val) = true ∧ t.dev.cregS p.val w.val = some ((s.dev.portS p.val).mseq, s.dev.dt) ∧
      t.dev.out = .downlink p.val (message 5 (s.dev.portS p.val).mseq (leBytes 4 (s.dev.get (R.EKL.CREG_ADDR.ADDR p.val w.val)))) :: s.dev.out ∧
      Frame [R.EKL.CREG_STATUS.BUSY p.val w.val] { s.dev with port := t.dev.port, out := t.dev.out, lane := t.dev.lane, free := t.dev.free } s t) := by
  have h := cregRequest_sends (exec_cregRd p w s) hup hidle
  rwa [cregBody, if_neg (by decide), List.append_nil] at h

theorem cregWr_completes (p : Fin 12) (w : Fin 2) (s : State) (hup : s.dev.downlinkUp p.val = true)
    (hidle : s.dev.on (R.EKL.CREG_STATUS.BUSY p.val w.val) = false) :
    Completes (.cregWr p w) s (fun t =>
      t.dev.on (R.EKL.CREG_STATUS.BUSY p.val w.val) = true ∧ t.dev.cregS p.val w.val = some ((s.dev.portS p.val).mseq, s.dev.dt) ∧
      t.dev.out = .downlink p.val (message 4 (s.dev.portS p.val).mseq (leBytes 4 (s.dev.get (R.EKL.CREG_ADDR.ADDR p.val w.val)) ++
        leBytes 4 (s.dev.get (R.EKL.CREG_DATA.DATA p.val w.val)))) :: s.dev.out ∧
      Frame [R.EKL.CREG_STATUS.BUSY p.val w.val] { s.dev with port := t.dev.port, out := t.dev.out, lane := t.dev.lane, free := t.dev.free } s t) := by
  have h := cregRequest_sends (exec_cregWr p w s) hup hidle
  rwa [cregBody, if_pos rfl] at h

/-- A request of a busy window is only a framing error. -/
theorem cregRequest_framing {c : Instr} {p : Fin 12} {w : Fin 2} {code : Nat} {s : State} (hc : exec c s = total (fun _ d => cregRequest p.val w.val code d) s)
    (hbusy : s.dev.on (R.EKL.CREG_STATUS.BUSY p.val w.val) = true) :
    Completes c s (fun t => Counted (R.EKL.STAT.COUNT p.val 9) 1 s.dev t.dev ∧ Frame [R.EKL.STAT.COUNT p.val 9] s.dev s t) := by
  have heq := cregRequest_busy (code := code) hbusy
  have hstat : Leaves [R.EKL.STAT.COUNT p.val 9] s.dev (framing p.val s.dev) := leaves_counted p.val 9 0xb 1 s.dev
  have hcount : Counted (R.EKL.STAT.COUNT p.val 9) 1 s.dev (framing p.val s.dev) := counted_eklPerf p.isLt (by decide) 0xb 1 s.dev
  generalize framing p.val s.dev = e at heq hstat hcount
  exact completes_to hc e heq ⟨counted_of_get hcount rfl (get_after ..), frame_of_leaves hstat s⟩

theorem cregBusy_completes (p : Fin 12) (w : Fin 2) (s : State) (hbusy : s.dev.on (R.EKL.CREG_STATUS.BUSY p.val w.val) = true) :
    Completes (.cregRd p w) s (fun t =>
      Counted (R.EKL.STAT.COUNT p.val 9) 1 s.dev t.dev ∧ Frame [R.EKL.STAT.COUNT p.val 9] s.dev s t) ∧
    Completes (.cregWr p w) s (fun t =>
      Counted (R.EKL.STAT.COUNT p.val 9) 1 s.dev t.dev ∧ Frame [R.EKL.STAT.COUNT p.val 9] s.dev s t) :=
  ⟨cregRequest_framing (exec_cregRd p w s) hbusy, cregRequest_framing (exec_cregWr p w s) hbusy⟩

/-! ## Echo responses -/

/-- A port without an echo outstanding. -/
def echoEnded (x : PortS) : PortS := { x with echo := none }

/-- What a lost echo changes. -/
theorem echoLost_facts {p : Nat} (hp : p < 12) (d : Dev) :
    PortStep [R.EKL.STAT.COUNT p 14] d (echoLost p d) ∧ (echoLost p d).portS p = echoEnded (d.portS p) ∧
    Counted (R.EKL.STAT.COUNT p 14) 1 d (echoLost p d) := by
  have hset : PortStep [] d (setPort p (echoEnded (d.portS p)) d) := portStep_setPort ..
  have hport : (setPort p (echoEnded (d.portS p)) d).portS p = echoEnded (d.portS p) := portS_setPort ..
  have heq : echoLost p d = eklPerf p 0xe 1 (eklStat p 14 1 (setPort p (echoEnded (d.portS p)) d)) := rfl
  generalize setPort p (echoEnded (d.portS p)) d = g at hset hport heq
  have hstat := leaves_counted p 14 0xe 1 g
  have hcount := counted_eklPerf hp (c := 14) (by decide) 0xe 1 g
  rw [heq]
  exact ⟨(hset.trans (portStep_of_leaves hstat)).mono (by simp), (portS_of_leaves hstat p).trans hport,
    counted_of_get hcount (hset.get (count_book hp (by decide)) (by simp)) rfl⟩

theorem feedBlock_echo {p t : Nat} {e : BitVec 64} {d : Dev} (ht : bits e.toNat 0 8 = 0x33) :
    feedBlock p t { hdr := 2#2, body := e } d = echoResp p t { hdr := 2#2, body := e } d := by
  unfold feedBlock
  simp only [blkByte, Nat.mul_zero, ht]
  rfl

/-- A row that gives an echo response completes with what the response leaves. -/
theorem echoRow_completes {p : Fin 12} {t4 : BitVec 64} {row : List Blk} {e : BitVec 64} {d : Dev} {s : State} {post : State → Prop}
    (hfine : s.dev.portFine p.val) (hrow : (reach t4.toNat s.dev).rowGives d p.val row { hdr := 2#2, body := e })
    (ht : bits e.toNat 0 8 = 0x33) {g : Dev} (hg : echoResp p.val t4.toNat { hdr := 2#2, body := e } d = g)
    (hmask : (g.portS p.val).maskSent = (d.portS p.val).maskSent) (hpost : post (s.after g)) : Completes (.echoResp p t4 [row]) s post := by
  have hrows : feedRows p.val t4.toNat [row] (reach t4.toNat s.dev) = g := by
    rw [← hg, ← feedBlock_echo ht]
    refine feedRow_one hrow ?_
    rw [feedBlock_echo ht, hg, hmask]
    exact hrow.2.2
  refine completes_run (exec_echoResp ..) (d := g) ?_ hpost
  have herr : (if s.dev.get (R.EKL.STATUS.STATE p.val) = 4 then s.dev.portErr p.val else none) = none := by
    split
    · next h4 => exact hfine h4
    · rfl
  simp only [herr, hrows]

theorem echoResp_late {p t4 id t1 : Nat} {b : Blk} {d : Dev} (h : (d.portS p).echo = some (id, t1)) (hlate : 100000 * 65536 < dtDiff t4 t1) :
    echoResp p t4 b d = echoLost p d := by
  unfold echoResp
  dsimp only
  rw [h]
  exact if_pos hlate

theorem echoResp_fits {p t4 id t1 : Nat} {b : Blk} {d : Dev} (h : (d.portS p).echo = some (id, t1)) (hlate : dtDiff t4 t1 ≤ 100000 * 65536)
    (hid : bits b.body.toNat 8 16 = id) :
    echoResp p t4 b d = put (R.TIM.PT_DELAY.PS p) (unsgn 32 (fdiv (dtDiff t4 t1 * 1000 +
        (sgn 32 (d.get (R.TIM.PT_DLASYM.PS p)) - (bits b.body.toNat 24 32 : Nat)) * 65536) 131072)) (setPort p (echoEnded (d.portS p)) d) := by
  unfold echoResp
  dsimp only
  rw [h]
  dsimp only
  rw [if_neg (Int.not_lt.mpr hlate), if_pos hid.symm]
  rfl

theorem echoLate_completes (p : Fin 12) (t4 : BitVec 64) (id t1 : Nat) (row : List Blk) (e : BitVec 64) (d : Dev) (s : State)
    (hfine : s.dev.portFine p.val) (hrow : (reach t4.toNat s.dev).rowGives d p.val row { hdr := 2#2, body := e })
    (ht : bits e.toNat 0 8 = 0x33) (hecho : (d.portS p.val).echo = some (id, t1)) (hlate : 100000 * 65536 < dtDiff t4.toNat t1) :
    Completes (.echoResp p t4 [row]) s (fun t =>
      (t.dev.portS p.val).echo = none ∧ Counted (R.EKL.STAT.COUNT p.val 14) 1 d t.dev ∧
      Frame [R.EKL.STAT.COUNT p.val 14] { d with port := t.dev.port } s t) := by
  obtain ⟨hstep, hport, hcount⟩ := echoLost_facts p.isLt d
  have heq := echoResp_late (b := { hdr := 2#2, body := e }) hecho hlate
  generalize echoLost p.val d = g at hstep hport hcount heq
  refine echoRow_completes hfine hrow ht heq (by rw [hport]; rfl) ⟨?_, counted_of_get hcount rfl (get_after ..), hstep.frame s⟩
  rw [portS_after, hport]
  rfl

theorem echoFits_completes (p : Fin 12) (t4 : BitVec 64) (id t1 : Nat) (row : List Blk) (e : BitVec 64) (d : Dev) (s : State)
    (hfine : s.dev.portFine p.val) (hrow : (reach t4.toNat s.dev).rowGives d p.val row { hdr := 2#2, body := e })
    (ht : bits e.toNat 0 8 = 0x33) (hecho : (d.portS p.val).echo = some (id, t1)) (hlate : dtDiff t4.toNat t1 ≤ 100000 * 65536)
    (hid : bits e.toNat 8 16 = id) :
    Completes (.echoResp p t4 [row]) s (fun t =>
      (t.dev.portS p.val).echo = none ∧
      t.dev.get (R.TIM.PT_DELAY.PS p.val) = unsgn 32 (fdiv (dtDiff t4.toNat t1 * 1000 +
        (sgn 32 (d.get (R.TIM.PT_DLASYM.PS p.val)) - (bits e.toNat 24 32 : Nat)) * 65536) 131072) ∧
      Frame [R.TIM.PT_DELAY.PS p.val] { d with port := t.dev.port } s t) := by
  have heq := echoResp_fits (b := { hdr := 2#2, body := e }) hecho hlate hid
  dsimp only at heq
  generalize hv : fdiv _ 131072 = v at heq ⊢
  have hset : PortStep [] d (setPort p.val (echoEnded (d.portS p.val)) d) := portStep_setPort ..
  have hport : (setPort p.val (echoEnded (d.portS p.val)) d).portS p.val = echoEnded (d.portS p.val) := portS_setPort ..
  generalize setPort p.val (echoEnded (d.portS p.val)) d = g at hset hport heq
  have hput := leaves_put (R.TIM.PT_DELAY.PS p.val) (unsgn 32 v) g
  have hget : (put (R.TIM.PT_DELAY.PS p.val) (unsgn 32 v) g).get (R.TIM.PT_DELAY.PS p.val) = unsgn 32 v % 2 ^ 32 := get_put_self ..
  generalize put (R.TIM.PT_DELAY.PS p.val) (unsgn 32 v) g = g1 at hput hget heq
  refine echoRow_completes hfine hrow ht heq (by rw [portS_of_leaves hput, hport]; rfl) ⟨?_, ?_, ?_⟩
  · rw [portS_after, portS_of_leaves hput, hport]
    rfl
  · rw [get_after, hget]
    exact Nat.mod_eq_of_lt (unsgn_lt 32 v)
  · exact ((hset.trans (portStep_of_leaves hput)).mono (by simp)).frame s

theorem echoTimeout_completes (p : Fin 12) (id t1 : Nat) (s : State) (hecho : (s.dev.portS p.val).echo = some (id, t1)) :
    Completes (.echoTimeout p) s (fun t =>
      (t.dev.portS p.val).echo = none ∧ Counted (R.EKL.STAT.COUNT p.val 14) 1 (reachNs t1 100000 s.dev) t.dev ∧
      Frame [R.EKL.STAT.COUNT p.val 14] { reachNs t1 100000 s.dev with port := t.dev.port } s t) := by
  generalize hr : reachNs t1 100000 s.dev = d
  obtain ⟨hstep, hport, hcount⟩ := echoLost_facts p.isLt d
  generalize hg : echoLost p.val d = g at hstep hport hcount
  refine completes_to (exec_echoTimeout ..) g ?_ ⟨?_, counted_of_get hcount rfl (get_after ..), hstep.frame s⟩
  · rw [hecho]
    dsimp only
    rw [hr, hg]
  · rw [portS_after, hport]
    rfl

/-! ## Masks -/

theorem feedBlock_mark {p t : Nat} {b : Blk} {d : Dev} (hh : b.hdr = 2#2) (hb : blkByte b 0 = 0x66) (hpkt : (d.portS p).pkt = none) :
    feedBlock p t b d = d := by
  unfold feedBlock
  simp only [hh, hb, hpkt]
  rfl

/-- Marks between packets change nothing but the mask. -/
theorem each_mark {p t : Nat} {d : Dev} (hpkt : (d.portS p).pkt = none) (bs : List (Nat × Blk))
    (h : ∀ b ∈ bs, b.2.hdr = 2#2 ∧ blkByte b.2 0 = 0x66) : each (fun (x : Nat × Blk) => feedBlock p t x.2) bs d = d := by
  induction bs with
  | nil => rfl
  | cons b bs ih =>
    obtain ⟨⟨hh, hb⟩, hrest⟩ := List.forall_mem_cons.mp h
    refine (?_ : each _ bs (feedBlock p t b.2 d) = d)
    rw [feedBlock_mark hh hb hpkt]
    exact ih hrest

/-- A port whose mask sent has come. -/
def maskTaken (mask : Nat) (rest : List (Nat × Nat)) (x : PortS) : PortS := { x with mask := mask, maskSent := rest }

theorem takeMask_first {p mask ms : Nat} {before rest : List (Nat × Nat)} {bs : List (Nat × Blk)} {d : Dev}
    (hsent : (d.portS p).maskSent = before ++ (mask, ms) :: rest) (hbefore : ∀ x ∈ before, marksMask bs x = false)
    (hmarks : marksMask bs (mask, ms) = true) : takeMask p bs d = setPort p (maskTaken mask rest (d.portS p)) d := by
  have hfind : ((d.portS p).maskSent).find? (marksMask bs) = some (mask, ms) := by
    rw [hsent, List.find?_append, List.find?_eq_none.mpr (fun x hx => by rw [hbefore x hx]; exact Bool.false_ne_true), Option.none_or,
      List.find?_cons_of_pos hmarks]
  have hdrop : ((d.portS p).maskSent.dropWhile (fun y => y != (mask, ms))).drop 1 = rest := by
    rw [hsent, List.dropWhile_append_of_pos, List.dropWhile_cons_of_neg (by simp)]
    · rfl
    · intro x hx
      refine bne_iff_ne.mpr fun hxe => ?_
      rw [hxe] at hx
      exact Bool.false_ne_true ((hbefore _ hx).symm.trans hmarks)
  unfold takeMask
  dsimp only
  rw [hfind]
  dsimp only
  rw [hdrop]
  rfl

theorem maskMark_completes (p : Fin 12) (mask ms : Nat) (before rest : List (Nat × Nat)) (row : List Blk) (bs : List (Nat × Blk)) (d : Dev) (s : State)
    (hfine : s.dev.portFine p.val) (hrow : rxRow p.val row s.dev = (bs, d)) (hpkt : (d.portS p.val).pkt = none)
    (hbs : ∀ b ∈ bs, b.2.hdr = 2#2 ∧ blkByte b.2 0 = 0x66) (hsent : (d.portS p.val).maskSent = before ++ (mask, ms) :: rest)
    (hbefore : ∀ x ∈ before, marksMask bs x = false) (hmarks : marksMask bs (mask, ms) = true) :
    Completes (.maskMark p [row]) s (fun t =>
      (t.dev.portS p.val).mask = mask ∧ (t.dev.portS p.val).maskSent = rest ∧ Frame [] { d with port := t.dev.port } s t) := by
  have hstep : PortStep [] d (setPort p.val (maskTaken mask rest (d.portS p.val)) d) := portStep_setPort ..
  have hport : (setPort p.val (maskTaken mask rest (d.portS p.val)) d).portS p.val = maskTaken mask rest (d.portS p.val) := portS_setPort ..
  have htake := takeMask_first hsent hbefore hmarks
  generalize setPort p.val (maskTaken mask rest (d.portS p.val)) d = g at hstep hport htake
  have hrows : feedRows p.val s.dev.dt [row] s.dev = g := by
    refine Eq.trans ?_ htake
    refine (?_ : feedRow p.val s.dev.dt row s.dev = _)
    unfold feedRow
    dsimp only
    rw [hrow, each_mark hpkt _ fun b hb => hbs b (List.mem_filter.mp hb).1]
  refine rows_complete (exec_maskMark ..) hfine hrows ⟨?_, ?_, hstep.frame s⟩
  · rw [portS_after, hport]
    rfl
  · rw [portS_after, hport]
    rfl

/-! ## Register requests without an answer -/

/-- A port whose register request has ended. -/
def cregEnded (w : Nat) (x : PortS) : PortS := { x with creg := KMap.put (fun _ => none) x.creg w none }

theorem cregTimeout_completes (p : Fin 12) (w : Fin 2) (x : Nat × Nat) (s : State) (hx : s.dev.cregS p.val w.val = some x) :
    Completes (.cregTimeout p w) s (fun t =>
      t.dev.cregS p.val w.val = none ∧ t.dev.get (R.EKL.CREG_STATUS.BUSY p.val w.val) = 0 ∧
      Raised (R.EKL.CREG_STATUS.SEQ p.val w.val) [R.EKL.CREG_STATUS.TIMEOUT p.val w.val] (reachNs x.2 2000000 s.dev) t.dev ∧
      Frame [R.EKL.CREG_STATUS.BUSY p.val w.val, R.EKL.CREG_STATUS.SEQ p.val w.val, R.EKL.CREG_STATUS.TIMEOUT p.val w.val]
        { reachNs x.2 2000000 s.dev with port := t.dev.port } s t) := by
  generalize hr : reachNs x.2 2000000 s.dev = d
  have heq : cregTimeout p.val w.val d = eklPerf p.val 0xf 1 (event 9 (R.EKL.CREG_STATUS.SEQ p.val w.val) [R.EKL.CREG_STATUS.TIMEOUT p.val w.val]
    (put (R.EKL.CREG_STATUS.BUSY p.val w.val) 0 (setPort p.val (cregEnded w.val (d.portS p.val)) d))) := rfl
  have hset : PortStep [] d (setPort p.val (cregEnded w.val (d.portS p.val)) d) := portStep_setPort ..
  have hport : (setPort p.val (cregEnded w.val (d.portS p.val)) d).portS p.val = cregEnded w.val (d.portS p.val) := portS_setPort ..
  generalize setPort p.val (cregEnded w.val (d.portS p.val)) d = g at hset hport heq
  have hput := leaves_put (R.EKL.CREG_STATUS.BUSY p.val w.val) 0 g
  have hbusy : (put (R.EKL.CREG_STATUS.BUSY p.val w.val) 0 g).get (R.EKL.CREG_STATUS.BUSY p.val w.val) = 0 := get_put_self ..
  generalize put (R.EKL.CREG_STATUS.BUSY p.val w.val) 0 g = g1 at hput hbusy heq
  have hbook : ∀ f ∈ [R.EKL.CREG_STATUS.SEQ p.val w.val, R.EKL.CREG_STATUS.TIMEOUT p.val w.val], bookKey f.key = false := by
    simp only [List.mem_cons, List.not_mem_nil, or_false, forall_eq_or_imp, forall_eq]
    exact ⟨bookKey_area (by simp only [Fld.key, R.EKL.CREG_STATUS.SEQ]; omega), bookKey_area (by simp only [Fld.key, R.EKL.CREG_STATUS.TIMEOUT]; omega)⟩
  have hev := leaves_event 9 (R.EKL.CREG_STATUS.SEQ p.val w.val) [R.EKL.CREG_STATUS.TIMEOUT p.val w.val] g1
  have hraise : Raised (R.EKL.CREG_STATUS.SEQ p.val w.val) [R.EKL.CREG_STATUS.TIMEOUT p.val w.val] d
      (event 9 (R.EKL.CREG_STATUS.SEQ p.val w.val) [R.EKL.CREG_STATUS.TIMEOUT p.val w.val] g1) := by
    refine raised_event hbook (by simp [R.EKL.CREG_STATUS.TIMEOUT]) (by simp [Fld.key, R.EKL.CREG_STATUS.SEQ, R.EKL.CREG_STATUS.TIMEOUT]) ?_
    rw [hput.get (hbook _ (by simp)) ?_, hset.get (hbook _ (by simp)) (by simp)]
    simp only [List.map_cons, List.map_nil, List.mem_singleton, Fld.key, R.EKL.CREG_STATUS.SEQ, R.EKL.CREG_STATUS.BUSY]
    omega
  generalize event 9 (R.EKL.CREG_STATUS.SEQ p.val w.val) _ g1 = g2 at hev hraise heq
  have hperf := leaves_eklPerf p.val 0xf 1 g2
  generalize eklPerf p.val 0xf 1 g2 = e at hperf heq
  have hrest := (hput.trans hev).trans hperf
  refine completes_to (exec_cregTimeout ..) e ?_ ⟨?_, ?_, raised_after (raised_then hraise hperf hbook (by simp)) s, ?_⟩
  · rw [show KMap.get (fun _ => (none : Option (Nat × Nat))) (s.dev.portS p.val).creg w.val = some x from hx]
    dsimp only
    rw [hr, heq]
  · rw [Dev.cregS, portS_after, portS_of_leaves hrest, hport]
    exact KMap.get_put_self (fun _ => (none : Option (Nat × Nat))) (d.portS p.val).creg w.val none
  · rw [get_after, (hev.trans hperf).get (busy_book p.isLt w.isLt) ?_, hbusy]
    simp only [seqAnd, List.append_nil, List.map_cons, List.map_nil, List.mem_cons, List.not_mem_nil, or_false, Fld.key, R.EKL.CREG_STATUS.SEQ,
      R.EKL.CREG_STATUS.TIMEOUT, R.EKL.CREG_STATUS.BUSY]
    omega
  · exact ((hset.trans (portStep_of_leaves hrest)).mono (by simp [seqAnd])).frame s

/-! ## The obligation -/

/-- Settles O35: what a port asks leaves with the state that its answer, or its time-out, takes away again. -/
theorem portsAskAndAreAnswered : Obligations.PortsAskAndAreAnswered :=
  ⟨echoReq_completes, timeSet_completes, cregRd_completes, cregWr_completes, cregBusy_completes, echoLate_completes, echoFits_completes,
    echoTimeout_completes, maskMark_completes, cregTimeout_completes⟩

end Sys2Proof.Proofs
end

section
/-!
The T1S segments: beacons, fire frames, status frames, and the states of a segment (R84, R335 to R339, R344, R346, R347).
-/
namespace Sys2Proof.Proofs
open Sys2Proof Sys2Proof.Machine

/-! ## Steps of the segments -/

/-- The device with another verdict unit, and other outputs. -/
def withVrd (x : VrdS × List Out) (d : Dev) : Dev := { d with vrd := x.1, out := x.2 }

theorem setsPart_withVrd : SetsPart withVrd := fun _ _ => ⟨rfl, rfl⟩

/-- From `d` to `e` only these registers, the books, the verdict unit's state and the outputs have changed. -/
def SegStep (fs : List Fld) (d e : Dev) : Prop := Upto withVrd fs d e

section
variable {fs gs : List Fld} {d e g : Dev}

theorem segStep_of_leaves (h : Leaves fs d e) : SegStep fs d e := upto_of_leaves setsPart_withVrd h

theorem segStep_of_eq (h : ∀ x, withVrd x e = withVrd x d) : SegStep [] d e := upto_of_eq h

theorem SegStep.trans (h : SegStep fs d e) (h' : SegStep gs e g) : SegStep (fs ++ gs) d g := Upto.trans h h'

theorem SegStep.mono (h : SegStep fs d e) (hs : ∀ f ∈ fs, f ∈ gs) : SegStep gs d e := Upto.mono h fun f hf => List.mem_map_of_mem (hs f hf)

theorem SegStep.get (h : SegStep fs d e) {f : Fld} (hb : bookKey f.key = false) (hf : f.key ∉ fs.map Fld.key) : e.get f = d.get f :=
  (Upto.leaves h (d.vrd, d.out)).get hb hf

theorem SegStep.tim (h : SegStep fs d e) : e.tim = d.tim :=
  tim_of_leaves (d := withVrd ({}, []) d) (e := withVrd ({}, []) e) (Upto.leaves h ({}, []))

theorem SegStep.dt (h : SegStep fs d e) : e.dt = d.dt := by
  rw [Dev.dt, h.tim]
  rfl

theorem SegStep.frameOut (h : SegStep fs d e) (s : State) :
    Frame fs { d with vrd := (s.after e).dev.vrd, out := (s.after e).dev.out } s (s.after e) :=
  frame_of_upto h s (e.vrd, e.out) rfl

theorem SegStep.frame (h : SegStep fs d e) (hout : e.out = d.out) (s : State) : Frame fs { d with vrd := (s.after e).dev.vrd } s (s.after e) := by
  have hf := frame_of_upto h s (e.vrd, e.out) rfl
  rw [hout] at hf
  exact hf

end

/-! ## The registers and counters of a segment -/

/-- A register of a segment below its performance counters. -/
def segReg (k : Nat) : Prop := 0x1a00000 ≤ k / 64 ∧ k / 64 < 0x1b00000 ∧ k / 64 % 0x1000 < 0x400

theorem segReg_book {k : Nat} (h : segReg k) : bookKey k = false := bookKey_area (by unfold segReg at h; omega)

theorem leaves_t1sPerf (k code n : Nat) (d : Dev) : Leaves [] d (t1sPerf k code n d) :=
  leaves_perf 0x11 (by unfold PerfBase t1sBase; omega) code n d

theorem leaves_t1sStat (k c n : Nat) (d : Dev) : Leaves [R.T1S.STAT.COUNT k c] d (t1sStat k c n d) := leaves_put ..

theorem counted_t1sStat (k c n : Nat) (d : Dev) : Counted (R.T1S.STAT.COUNT k c) n d (t1sStat k c n d) := get_put_self ..

theorem t1sCount_reg {k c : Nat} (hk : k < 8) (hc : c < 16) : segReg (R.T1S.STAT.COUNT k c).key := by
  simp only [segReg, Fld.key, R.T1S.STAT.COUNT]
  omega

theorem statusReg {k : Nat} (hk : k < 8) : ∀ f ∈ [R.T1S.SEG_STATUS.SEQ k, R.T1S.SEG_STATUS.STRANGER k, R.T1S.SEG_STATUS.CYCLE_OVR k,
    R.T1S.SEG_STATUS.FOREIGN_BCN k, R.T1S.SEG_STATUS.SILENT k, R.T1S.SEG_STATUS.STATE k, R.T1S.CYCLE.PEAK_US k], segReg f.key := by
  simp only [List.mem_cons, List.not_mem_nil, or_false, forall_eq_or_imp, forall_eq, segReg, Fld.key, R.T1S.SEG_STATUS.SEQ, R.T1S.SEG_STATUS.STRANGER,
    R.T1S.SEG_STATUS.CYCLE_OVR, R.T1S.SEG_STATUS.FOREIGN_BCN, R.T1S.SEG_STATUS.SILENT, R.T1S.SEG_STATUS.STATE, R.T1S.CYCLE.PEAK_US]
  omega

theorem nodeReg {k n : Nat} (hk : k < 8) (hn : n < 32) : ∀ f ∈ [R.T1S.NODE.MAC k n, R.T1S.NODE.EN k n, R.T1S.NODE.ST_LOCKED k n, R.T1S.NODE.SILENT k n],
    segReg f.key := by
  simp only [List.mem_cons, List.not_mem_nil, or_false, forall_eq_or_imp, forall_eq, segReg, Fld.key, R.T1S.NODE.MAC, R.T1S.NODE.EN,
    R.T1S.NODE.ST_LOCKED, R.T1S.NODE.SILENT]
  omega

@[simp] theorem segS_setSeg (k : Nat) (x : SegS) (d : Dev) : (setSeg k x d).segS k = x := KMap.get_put_self (fun _ => ({} : SegS)) d.vrd.seg k x

theorem out_setSeg (k : Nat) (x : SegS) (d : Dev) : (setSeg k x d).out = d.out := rfl

theorem segStep_setSeg (k : Nat) (x : SegS) (d : Dev) : SegStep [] d (setSeg k x d) := segStep_of_eq fun _ => rfl

theorem segS_of_leaves {fs : List Fld} {d e : Dev} (h : Leaves fs d e) (k : Nat) : e.segS k = d.segS k := by
  rw [Dev.segS, vrd_of_leaves h]
  rfl

/-! ## Beacons -/

/-- A cycle that lasted longer than its bound. -/
def cycleOver (k : Nat) (d : Dev) : Dev :=
  t1sPerf k 7 1 (t1sStat k 7 1 (event 0x11 (R.T1S.SEG_STATUS.SEQ k) [R.T1S.SEG_STATUS.CYCLE_OVR k] d))

/-- The cycle that a beacon ends. -/
def cycleEnded (k : Nat) (d : Dev) : Dev :=
  match (d.segS k).beaconAt with
  | none => d
  | some t =>
    when (decide ((d.segS k).cmax < (dtDiff d.dt t).toNat / 6553600)) (cycleOver k)
      (peak (R.T1S.CYCLE.PEAK_US k) (min 65535 (cdiv ((dtDiff d.dt t).toNat / 6553600) 10)) d)

/-- A segment whose beacon leaves at a time. -/
def beaconSent (t : Nat) (x : SegS) : SegS := { x with beaconAt := some t }

theorem beacon_eq (k : Nat) (d : Dev) :
    beacon k d = emit (.beacon k) (setSeg k (beaconSent (cycleEnded k d).dt ((cycleEnded k d).segS k)) (cycleEnded k d)) := rfl

/-- The registers that a beacon can write. -/
def beaconRegs (k : Nat) : List Fld := [R.T1S.CYCLE.PEAK_US k, R.T1S.SEG_STATUS.SEQ k, R.T1S.SEG_STATUS.CYCLE_OVR k, R.T1S.STAT.COUNT k 7]

theorem cycleEnded_leaves (k : Nat) (d : Dev) : Leaves (beaconRegs k) d (cycleEnded k d) := by
  unfold cycleEnded
  split
  · exact (Leaves.refl d).mono (by simp)
  · next t _ =>
    have hpeak : Leaves [R.T1S.CYCLE.PEAK_US k] d (peak (R.T1S.CYCLE.PEAK_US k) (min 65535 (cdiv ((dtDiff d.dt t).toNat / 6553600) 10)) d) := by
      unfold peak
      split
      · exact leaves_put ..
      · exact (Leaves.refl d).mono (by simp)
    generalize peak (R.T1S.CYCLE.PEAK_US k) _ d = e at hpeak ⊢
    have hover (e : Dev) : Leaves [R.T1S.SEG_STATUS.SEQ k, R.T1S.SEG_STATUS.CYCLE_OVR k, R.T1S.STAT.COUNT k 7] e (cycleOver k e) :=
      ((leaves_event 0x11 (R.T1S.SEG_STATUS.SEQ k) [R.T1S.SEG_STATUS.CYCLE_OVR k] e).trans ((leaves_t1sStat k 7 1 _).trans (leaves_t1sPerf k 7 1 _))).mono
        (by simp [seqAnd])
    exact (hpeak.trans (leaves_when _ _ e (hover e))).mono (by simp [beaconRegs])

/-- What a beacon changes. -/
theorem beacon_facts (k : Nat) (d : Dev) : SegStep (beaconRegs k) d (beacon k d) ∧ (beacon k d).out = .beacon k :: d.out ∧
    (beacon k d).segS k = beaconSent d.dt (d.segS k) ∧ (beacon k d).vrd.pend = d.vrd.pend := by
  have hl := cycleEnded_leaves k d
  have heq := beacon_eq k d
  rw [segS_of_leaves hl, (segStep_of_leaves hl).dt] at heq
  generalize cycleEnded k d = e at hl heq
  have hset : SegStep [] e (emit (.beacon k) (setSeg k (beaconSent d.dt (d.segS k)) e)) := segStep_of_eq fun _ => rfl
  rw [heq]
  refine ⟨((segStep_of_leaves hl).trans hset).mono (by simp), congrArg (Out.beacon k :: ·) (show e.out = d.out from out_of_leaves hl), segS_setSeg k _ e, ?_⟩
  have hv : e.vrd = d.vrd := vrd_of_leaves hl
  refine (?_ : e.vrd.pend = d.vrd.pend)
  rw [hv]

theorem standbyBeacon_completes (k : Fin 8) (s : State) (hst : s.dev.get (R.T1S.SEG_STATUS.STATE k.val) = 1)
    (hpwr : s.dev.get R.PWR.STATUS.STATE = 3) :
    Completes (.transmitOpportunity k) s (fun t =>
      t.dev.out = .beacon k.val :: s.dev.out ∧ (t.dev.segS k.val).beaconAt = some s.dev.dt ∧
      Frame [R.T1S.CYCLE.PEAK_US k.val, R.T1S.SEG_STATUS.SEQ k.val, R.T1S.SEG_STATUS.CYCLE_OVR k.val, R.T1S.STAT.COUNT k.val 7]
        { s.dev with vrd := t.dev.vrd, out := t.dev.out } s t) := by
  obtain ⟨hstep, hout, hseg, -⟩ := beacon_facts k.val s.dev
  generalize hb : beacon k.val s.dev = e at hstep hout hseg
  have hp : e.get R.PWR.STATUS.STATE = 3 := by
    rw [hstep.get (by decide) ?_, hpwr]
    clear * -
    decide +revert
  refine completes_to (exec_transmitOpportunity ..) e ?_ ⟨hout, ?_, hstep.frameOut s⟩
  · dsimp only
    rw [if_pos hst, hb, if_pos hp]
  · rw [segS_after, hseg]
    rfl

/-! ## Opportunities -/

/-- Nothing of Segment Time is owed by a segment. -/
def owesNothing (g : SegS) : Prop := g.followUp = none ∧ g.respFu = [] ∧ g.resp = [] ∧ g.syncDue = false ∧ g.annDue = false

/-- An opportunity with nothing to send sends nothing. -/
theorem fillFrames_idle {k : Nat} (left b : Nat) {done : List Nat} {d : Dev} (hnone : d.sendable k done = []) (howes : owesNothing (d.segS k)) :
    fillFrames k left b done d = d := by
  obtain ⟨hfu, hrf, hresp, hsync, hann⟩ := howes
  cases left with
  | zero => rfl
  | succ left =>
    unfold fillFrames
    dsimp only
    rw [hnone, hfu, hrf, hresp, hsync, hann]
    rfl

/-- An opportunity with one command that may leave sends it. -/
theorem fillFrames_one {k : Nat} (left b : Nat) {done : List Nat} {c : FireCmd} {d : Dev} (hone : d.sendable k done = [c]) (howes : owesNothing (d.segS k)) :
    ∃ b', fillFrames k (left + 1) b done d = fillFrames k left b' (done ++ [c.seq]) (sendFire k [c] d) := by
  obtain ⟨hfu, hrf, hresp, hsync, hann⟩ := howes
  refine ⟨b + wireBits (fireFrame d k [c]), ?_⟩
  rw [fillFrames]
  dsimp only
  rw [hone, show sortBy (cmdBefore d k) [c] = [c] from rfl, hfu, hrf, hresp, hsync, hann]
  dsimp only
  by_cases hu : [c].any (d.urgent k) = true
  · rw [if_pos hu]
    rfl
  · rw [if_neg hu]
    rfl

theorem sendable_of_empty {k : Nat} {done : List Nat} {d : Dev} (h : d.vrd.pend = []) : d.sendable k done = [] := by
  unfold Dev.sendable
  rw [h]
  rfl

theorem sendable_one {k : Nat} {done : List Nat} {c : FireCmd} {d : Dev} (h : d.vrd.pend = [c]) (hon : d.onSeg k c = true) (hkind : c.kind = 1)
    (hmin : (d.get R.VRD.RETX_MIN.US : Int) * 65536000 ≤ d.until' c.time) :
    d.sendable k done = if done.contains c.seq then [] else [c] := by
  unfold Dev.sendable
  rw [h]
  cases hc : done.contains c.seq
  · rw [if_neg Bool.false_ne_true]
    simp only [List.filter_cons, hon, List.filter_nil]
    simpa [hkind, hmin] using hc
  · rw [if_pos rfl]
    simp only [List.filter_cons, hon, List.filter_nil]
    simpa using fun h => absurd (by simpa using hc) h

theorem opportunity_idle {k : Nat} {d : Dev} (h : d.vrd.pend = []) (howes : owesNothing (d.segS k)) : opportunity k d = d := by
  unfold opportunity
  rw [h]
  exact fillFrames_idle _ _ (sendable_of_empty h) howes

theorem idleOpportunity_completes (k : Fin 8) (s : State) (hst : s.dev.get (R.T1S.SEG_STATUS.STATE k.val) = 1) (hpend : s.dev.vrd.pend = [])
    (hfu : (s.dev.segS k.val).followUp = none) (hrf : (s.dev.segS k.val).respFu = []) (hresp : (s.dev.segS k.val).resp = [])
    (hsync : (s.dev.segS k.val).syncDue = false) (hann : (s.dev.segS k.val).annDue = false) :
    Completes (.transmitOpportunity k) s (fun t => t.dev.out = .beacon k.val :: s.dev.out ∧ t.dev.vrd.pend = []) := by
  obtain ⟨-, hout, hseg, hsame⟩ := beacon_facts k.val s.dev
  have hidle := opportunity_idle (k := k.val) (d := beacon k.val s.dev) (hsame.trans hpend) (by rw [hseg]; exact ⟨hfu, hrf, hresp, hsync, hann⟩)
  generalize hb : beacon k.val s.dev = e at hout hseg hsame hidle
  refine completes_to (exec_transmitOpportunity ..) e ?_ ⟨hout, hsame.trans hpend⟩
  dsimp only
  rw [if_pos hst, hb, hidle, ite_self]

/-! ## A fire frame -/

/-- The device with other pending commands. -/
def withPend (x : List FireCmd) (d : Dev) : Dev := { d with vrd := { d.vrd with pend := x } }

/-- A command that has left on a segment. -/
def cmdSent (k now : Nat) (c : FireCmd) : FireCmd :=
  { c with sent := if c.sent.contains k then c.sent else k :: c.sent, first := some (c.first.getD now) }

/-- A segment after one more frame of commands. -/
def frameSent (x : SegS) : SegS := { x with fseq := (x.fseq + 1) % 2 ^ 32 }

/-- The counts of a fire frame of `m` commands, `n` of them again. -/
def fireCounts (k m n : Nat) (d : Dev) : Dev :=
  t1sPerf k 4 n (t1sPerf k 3 m (t1sPerf k 2 1 (t1sPerf k 1 1 (t1sStat k 3 n (t1sStat k 2 m (t1sStat k 1 1 (t1sStat k 0 1 d)))))))

theorem sendFire_one {k : Nat} {c : FireCmd} {d : Dev} (h : d.vrd.pend = [c]) : sendFire k [c] d =
    fireCounts k 1 ([c].filter (fun c => c.sent.contains k)).length (withPend [cmdSent k d.dt c]
      (setSeg k (frameSent (d.segS k)) (emit (.t1s k (fireFrame d k [c])) d))) := by
  have hp : (setSeg k (frameSent (d.segS k)) (emit (.t1s k (fireFrame d k [c])) d)).vrd.pend = [c] := h
  have hdt : (setSeg k (frameSent (d.segS k)) (emit (.t1s k (fireFrame d k [c])) d)).dt = d.dt := rfl
  have heq : sendFire k [c] d = (fun e => fireCounts k 1 ([c].filter (fun c => c.sent.contains k)).length (withPend (e.vrd.pend.map (fun x =>
      if [c].any (fun y => y.seq == x.seq && y.seg == x.seg) then cmdSent k e.dt x else x)) e))
      (setSeg k (frameSent (d.segS k)) (emit (.t1s k (fireFrame d k [c])) d)) := rfl
  rw [heq]
  dsimp only
  rw [hp, hdt]
  simp

theorem fireCounts_leaves (k m n : Nat) (d : Dev) :
    Leaves [R.T1S.STAT.COUNT k 0, R.T1S.STAT.COUNT k 1, R.T1S.STAT.COUNT k 2, R.T1S.STAT.COUNT k 3] d (fireCounts k m n d) :=
  ((leaves_t1sStat k 0 1 d).trans ((leaves_t1sStat k 1 1 _).trans ((leaves_t1sStat k 2 m _).trans ((leaves_t1sStat k 3 n _).trans
    ((leaves_t1sPerf k 1 1 _).trans ((leaves_t1sPerf k 2 1 _).trans ((leaves_t1sPerf k 3 m _).trans (leaves_t1sPerf k 4 n _)))))))).mono (by simp)

theorem fireCounts_counted {k : Nat} (hk : k < 8) (m n : Nat) (d : Dev) :
    Counted (R.T1S.STAT.COUNT k 1) 1 d (fireCounts k m n d) ∧ Counted (R.T1S.STAT.COUNT k 2) m d (fireCounts k m n d) := by
  have hb {c : Nat} (hc : c < 16) : bookKey (R.T1S.STAT.COUNT k c).key = false := segReg_book (t1sCount_reg hk hc)
  have hne {a b : Nat} (h : a ≠ b) : (R.T1S.STAT.COUNT k a).key ∉ [R.T1S.STAT.COUNT k b].map Fld.key := by
    simp only [List.map_cons, List.map_nil, List.mem_singleton, Fld.key, R.T1S.STAT.COUNT]
    omega
  have h0 := leaves_t1sStat k 0 1 d
  unfold fireCounts
  generalize t1sStat k 0 1 d = d0 at h0 ⊢
  have h1 := leaves_t1sStat k 1 1 d0
  have c1 := counted_t1sStat k 1 1 d0
  generalize t1sStat k 1 1 d0 = d1 at h1 c1 ⊢
  have h2 := leaves_t1sStat k 2 m d1
  have c2 := counted_t1sStat k 2 m d1
  generalize t1sStat k 2 m d1 = d2 at h2 c2 ⊢
  have h3 := leaves_t1sStat k 3 n d2
  generalize t1sStat k 3 n d2 = d3 at h3 ⊢
  have h4 := (leaves_t1sPerf k 1 1 d3).trans ((leaves_t1sPerf k 2 1 _).trans ((leaves_t1sPerf k 3 m _).trans (leaves_t1sPerf k 4 n _)))
  generalize t1sPerf k 4 n _ = e at h4
  constructor
  · refine counted_of_get c1 (h0.get (hb (by decide)) (hne (by decide))) ?_
    rw [h4.get (hb (by decide)) (by simp), h3.get (hb (by decide)) (hne (by decide)), h2.get (hb (by decide)) (hne (by decide))]
  · refine counted_of_get c2 ?_ ?_
    · rw [h1.get (hb (by decide)) (hne (by decide)), h0.get (hb (by decide)) (hne (by decide))]
    · rw [h4.get (hb (by decide)) (by simp), h3.get (hb (by decide)) (hne (by decide))]

/-- A command whose check at the start of an opportunity leaves it pending, flagged or not. -/
theorem checkCmd_keeps {k : Nat} {c : FireCmd} {d : Dev} (h : d.vrd.pend = [c]) (hkind : c.kind = 1)
    (hmin : (d.get R.VRD.RETX_MIN.US : Int) * 65536000 ≤ d.until' c.time) :
    checkCmd k c d = d ∨ checkCmd k c d = fireLate (withPend [{ c with flags := c.flags ||| 2 }] d) := by
  have hk : (c.kind != 1) = false := by rw [hkind]; rfl
  have hflag : ({ d with vrd := { d.vrd with pend := d.vrd.pend.map (fun (x : FireCmd) =>
      if x.seq = c.seq ∧ x.seg = c.seg then { x with flags := x.flags ||| 2 } else x) } } : Dev) = withPend [{ c with flags := c.flags ||| 2 }] d := by
    rw [h]
    simp [withPend]
  unfold checkCmd
  rw [hk, if_neg Bool.false_ne_true]
  dsimp only
  rw [if_neg (Int.not_lt.mpr hmin), hflag]
  split
  · exact .inr rfl
  · exact .inl rfl

/-- What a late command changes but the trigger of the snapshot. -/
theorem fireLate_facts (d : Dev) : (fireLate d).vrd = d.vrd ∧ (fireLate d).out = d.out ∧ (fireLate d).tim = d.tim ∧
    (∀ f, segReg f.key → (fireLate d).get f = d.get f) ∧ (fireLate d).get R.VRD.RETX_MIN.US = d.get R.VRD.RETX_MIN.US ∧
    (fireLate d).on R.TOP.PROFILE_ACT.T1S_MODE = d.on R.TOP.PROFILE_ACT.T1S_MODE := by
  have hl : Leaves [R.VRD.STAT.COUNT 12] d (vrdPerf 4 1 (vrdStat 12 1 d)) :=
    (leaves_put (R.VRD.STAT.COUNT 12) _ d).trans (leaves_perf 0x10 (by unfold PerfBase; omega) 4 1 _)
  unfold fireLate
  generalize vrdPerf 4 1 (vrdStat 12 1 d) = e at hl ⊢
  have hu := (errEvent_upto 6 e).leaves e.snap
  have he : withSnap e.snap e = e := rfl
  rw [he] at hu
  have hget : ∀ f, f.key ∉ errFlds.map Fld.key → f.key ≠ (R.VRD.STAT.COUNT 12).key → bookKey f.key = false → (errEvent 6 e).get f = d.get f :=
    fun f h1 h2 hb => (hu.get hb h1).trans (hl.get hb (by simpa using h2))
  refine ⟨(vrd_of_leaves hu).trans (vrd_of_leaves hl), (out_of_leaves hu).trans (out_of_leaves hl), (tim_of_leaves hu).trans (tim_of_leaves hl),
    fun f hf => hget f ?_ ?_ (segReg_book hf), hget _ (by decide) (by decide) (by decide), congrArg (· == 1) (hget _ (by decide) (by decide) (by decide))⟩
  · intro hmem
    obtain ⟨g, hg, heq⟩ := List.mem_map.mp hmem
    have hlow : ∀ g ∈ errFlds, g.key / 64 < 0x1a00000 ∨ 0x1b00000 ≤ g.key / 64 := by decide
    have := hlow g hg
    unfold segReg at hf
    rw [heq] at this
    omega
  · unfold segReg at hf
    simp only [R.VRD.STAT.COUNT, Fld.key] at hf ⊢
    omega

/-- An opportunity with one command in time: its frame leaves. -/
theorem opportunity_fires {k : Nat} (hk : k < 8) {c : FireCmd} {d : Dev} (h : d.vrd.pend = [c]) (hon : d.onSeg k c = true) (hkind : c.kind = 1)
    (hsent : c.sent = []) (hmin : (d.get R.VRD.RETX_MIN.US : Int) * 65536000 ≤ d.until' c.time) (howes : owesNothing (d.segS k)) :
    (∃ f, (opportunity k d).out = .t1s k f :: d.out) ∧
    (∃ c' : FireCmd, (opportunity k d).vrd.pend = [c'] ∧ c'.sent = [k] ∧ c'.first = some (c.first.getD d.dt) ∧ c'.seq = c.seq ∧ c'.time = c.time) ∧
    Counted (R.T1S.STAT.COUNT k 1) 1 d (opportunity k d) ∧ Counted (R.T1S.STAT.COUNT k 2) 1 d (opportunity k d) := by
  obtain ⟨c1, d1, hcheck, hout, hvrd, htim, hget, hmin1, hon1, hseq, htime, hsent1, hfirst, hkind1⟩ : ∃ (c1 : FireCmd) (d1 : Dev),
      checkCmd k c d = d1 ∧ d1.out = d.out ∧ d1.vrd = { d.vrd with pend := [c1] } ∧ d1.tim = d.tim ∧ (∀ f, segReg f.key → d1.get f = d.get f) ∧
      d1.get R.VRD.RETX_MIN.US = d.get R.VRD.RETX_MIN.US ∧ d1.onSeg k c1 = d.onSeg k c ∧ c1.seq = c.seq ∧ c1.time = c.time ∧ c1.sent = c.sent ∧
      c1.first = c.first ∧ c1.kind = c.kind := by
    rcases checkCmd_keeps h hkind hmin with hc | hc
    · exact ⟨c, d, hc, rfl, by rw [← h], rfl, fun _ _ => rfl, rfl, rfl, rfl, rfl, rfl, rfl, rfl⟩
    · obtain ⟨hv, ho, ht, hg, hm, hp⟩ := fireLate_facts (withPend [{ c with flags := c.flags ||| 2 }] d)
      refine ⟨{ c with flags := c.flags ||| 2 }, _, hc, ho, hv, ht, hg, hm, ?_, rfl, rfl, rfl, rfl, rfl⟩
      rw [Dev.onSeg, Dev.lane', hp]
      rfl
  have hdt : d1.dt = d.dt := by rw [Dev.dt, htim]; rfl
  have hpend1 : d1.vrd.pend = [c1] := by rw [hvrd]
  have hseg1 : d1.segS k = d.segS k := by rw [Dev.segS, hvrd]; rfl
  have hopp : opportunity k d = fillFrames k (d1.get (R.T1S.SEG_CTL.MAX_BC k) + 1) 0 [] d1 := by
    unfold opportunity
    rw [h, List.filter_cons, if_pos hon, List.filter_nil]
    refine (?_ : fillFrames k ((checkCmd k c d).get (R.T1S.SEG_CTL.MAX_BC k) + 1) 0 [] (checkCmd k c d) = _)
    rw [hcheck]
  have huntil : d1.until' c1.time = d.until' c.time := by rw [Dev.until', hdt, htime]; rfl
  have hsendable : d1.sendable k [] = [c1] := by
    rw [sendable_one hpend1 (hon1.trans hon) (hkind1.trans hkind) (by rw [hmin1, huntil]; exact hmin)]
    rfl
  obtain ⟨b', hfill⟩ := fillFrames_one (d1.get (R.T1S.SEG_CTL.MAX_BC k)) 0 hsendable (by rw [hseg1]; exact howes)
  have hfire := sendFire_one (k := k) hpend1
  have hfields : (withPend [cmdSent k d1.dt c1] (setSeg k (frameSent (d1.segS k)) (emit (.t1s k (fireFrame d1 k [c1])) d1))).out =
      .t1s k (fireFrame d1 k [c1]) :: d1.out := rfl
  have hv2 : (withPend [cmdSent k d1.dt c1] (setSeg k (frameSent (d1.segS k)) (emit (.t1s k (fireFrame d1 k [c1])) d1))).vrd.pend = [cmdSent k d1.dt c1] := rfl
  have hs2 : (withPend [cmdSent k d1.dt c1] (setSeg k (frameSent (d1.segS k)) (emit (.t1s k (fireFrame d1 k [c1])) d1))).segS k = frameSent (d1.segS k) :=
    segS_setSeg k (frameSent (d1.segS k)) (emit (.t1s k (fireFrame d1 k [c1])) d1)
  have hg2 : SegStep [] d1 (withPend [cmdSent k d1.dt c1] (setSeg k (frameSent (d1.segS k)) (emit (.t1s k (fireFrame d1 k [c1])) d1))) :=
    segStep_of_eq fun _ => rfl
  generalize withPend [cmdSent k d1.dt c1] (setSeg k (frameSent (d1.segS k)) (emit (.t1s k (fireFrame d1 k [c1])) d1)) = d2 at hfire hfields hv2 hs2 hg2
  have hl3 := fireCounts_leaves k 1 ([c1].filter (fun c => c.sent.contains k)).length d2
  obtain ⟨hn1, hn2⟩ := fireCounts_counted hk 1 ([c1].filter (fun c => c.sent.contains k)).length d2
  generalize fireCounts k 1 ([c1].filter (fun c => c.sent.contains k)).length d2 = d3 at hl3 hn1 hn2 hfire
  have hpend3 : d3.vrd.pend = [cmdSent k d1.dt c1] := (congrArg VrdS.pend (vrd_of_leaves hl3)).trans hv2
  have hdone : d3.sendable k ([] ++ [c1.seq]) = [] := by
    unfold Dev.sendable
    rw [hpend3]
    have hin : ([] ++ [c1.seq]).contains (cmdSent k d1.dt c1).seq = true := by simp [cmdSent]
    rw [List.filter_filter]
    simp only [List.filter_cons, List.filter_nil, hin]
    simp
  have hend : opportunity k d = d3 := by
    rw [hopp, hfill, hfire]
    refine fillFrames_idle _ _ hdone ?_
    rw [segS_of_leaves hl3, hs2, hseg1]
    exact howes
  have hcount {c : Nat} (hc : c < 16) : d2.get (R.T1S.STAT.COUNT k c) = d.get (R.T1S.STAT.COUNT k c) :=
    (hg2.get (segReg_book (t1sCount_reg hk hc)) (by simp)).trans (hget _ (t1sCount_reg hk hc))
  rw [hend]
  refine ⟨⟨fireFrame d1 k [c1], ?_⟩, ⟨cmdSent k d1.dt c1, hpend3, ?_, ?_, hseq, htime⟩, counted_of_get hn1 (hcount (by decide)) rfl,
    counted_of_get hn2 (hcount (by decide)) rfl⟩
  · rw [out_of_leaves hl3, hfields, hout]
  · rw [cmdSent, hsent1, hsent]
    rfl
  · rw [cmdSent, hfirst, hdt]

theorem fireOpportunity_completes (k : Fin 8) (c : FireCmd) (s : State) (hst : s.dev.get (R.T1S.SEG_STATUS.STATE k.val) = 1)
    (hpwr : s.dev.get R.PWR.STATUS.STATE ≠ 3) (hpend : s.dev.vrd.pend = [c]) (hon : s.dev.onSeg k.val c = true) (hkind : c.kind = 1)
    (hsent : c.sent = []) (hmin : (s.dev.get R.VRD.RETX_MIN.US : Int) * 65536000 ≤ s.dev.until' c.time)
    (hfu : (s.dev.segS k.val).followUp = none) (hrf : (s.dev.segS k.val).respFu = []) (hresp : (s.dev.segS k.val).resp = [])
    (hsync : (s.dev.segS k.val).syncDue = false) (hann : (s.dev.segS k.val).annDue = false) :
    Completes (.transmitOpportunity k) s (fun t =>
      (∃ f, t.dev.out.head? = some (.t1s k.val f)) ∧
      (∃ c' : FireCmd, t.dev.vrd.pend = [c'] ∧ c'.sent = [k.val] ∧ c'.first = some (c.first.getD s.dev.dt) ∧ c'.seq = c.seq ∧ c'.time = c.time) ∧
      Counted (R.T1S.STAT.COUNT k.val 1) 1 s.dev t.dev ∧ Counted (R.T1S.STAT.COUNT k.val 2) 1 s.dev t.dev) := by
  obtain ⟨hstep, -, hseg, hsame⟩ := beacon_facts k.val s.dev
  generalize hb : beacon k.val s.dev = e at hstep hseg hsame
  have hpwr' : e.get R.PWR.STATUS.STATE = s.dev.get R.PWR.STATUS.STATE := hstep.get (by decide) (by clear * -; decide +revert)
  have hmin' : e.get R.VRD.RETX_MIN.US = s.dev.get R.VRD.RETX_MIN.US := hstep.get (by decide) (by clear * -; decide +revert)
  have hmode : e.on R.TOP.PROFILE_ACT.T1S_MODE = s.dev.on R.TOP.PROFILE_ACT.T1S_MODE :=
    congrArg (· == 1) (hstep.get (f := R.TOP.PROFILE_ACT.T1S_MODE) (by decide) (by clear * -; decide +revert))
  have hon' : e.onSeg k.val c = true := by rw [Dev.onSeg, Dev.lane', hmode]; exact hon
  have huntil : e.until' c.time = s.dev.until' c.time := by rw [Dev.until', hstep.dt]; rfl
  obtain ⟨⟨f, hout⟩, hcmd, h1, h2⟩ := opportunity_fires k.isLt (hsame.trans hpend) hon' hkind hsent (by rw [hmin', huntil]; exact hmin)
    (by rw [hseg]; exact ⟨hfu, hrf, hresp, hsync, hann⟩)
  have hcount {i : Nat} (hi : i < 7) : e.get (R.T1S.STAT.COUNT k.val i) = s.dev.get (R.T1S.STAT.COUNT k.val i) := by
    refine hstep.get (segReg_book (t1sCount_reg k.isLt (by omega))) ?_
    simp only [beaconRegs, List.map_cons, List.map_nil, List.mem_cons, List.not_mem_nil, or_false, Fld.key, R.T1S.STAT.COUNT, R.T1S.CYCLE.PEAK_US,
      R.T1S.SEG_STATUS.SEQ, R.T1S.SEG_STATUS.CYCLE_OVR]
    omega
  rw [hstep.dt] at hcmd
  generalize ho : opportunity k.val e = g at hout hcmd h1 h2
  refine completes_to (exec_transmitOpportunity ..) g ?_ ⟨⟨f, by rw [after_out, hout]; rfl⟩, hcmd, counted_of_get h1 (hcount (by decide)) (get_after ..),
    counted_of_get h2 (hcount (by decide)) (get_after ..)⟩
  dsimp only
  rw [if_pos hst, hb, if_neg (by rw [hpwr']; exact hpwr), ho]

theorem csmaTransmit_completes (k : Fin 8) (c : FireCmd) (s : State) (hst : s.dev.get (R.T1S.SEG_STATUS.STATE k.val) = 2)
    (hpwr : s.dev.get R.PWR.STATUS.STATE ≠ 3) (hpend : s.dev.vrd.pend = [c]) (hon : s.dev.onSeg k.val c = true) (hkind : c.kind = 1)
    (hsent : c.sent = []) (hmin : (s.dev.get R.VRD.RETX_MIN.US : Int) * 65536000 ≤ s.dev.until' c.time)
    (hfu : (s.dev.segS k.val).followUp = none) (hrf : (s.dev.segS k.val).respFu = []) (hresp : (s.dev.segS k.val).resp = [])
    (hsync : (s.dev.segS k.val).syncDue = false) (hann : (s.dev.segS k.val).annDue = false) :
    Completes (.csmaTransmit k) s (fun t =>
      (∃ f, t.dev.out.head? = some (.t1s k.val f)) ∧
      (∃ c' : FireCmd, t.dev.vrd.pend = [c'] ∧ c'.sent = [k.val] ∧ c'.first = some (c.first.getD s.dev.dt) ∧ c'.seq = c.seq ∧ c'.time = c.time) ∧
      Counted (R.T1S.STAT.COUNT k.val 1) 1 s.dev t.dev ∧ Counted (R.T1S.STAT.COUNT k.val 2) 1 s.dev t.dev) := by
  obtain ⟨⟨f, hout⟩, hcmd, h1, h2⟩ := opportunity_fires k.isLt hpend hon hkind hsent hmin ⟨hfu, hrf, hresp, hsync, hann⟩
  generalize ho : opportunity k.val s.dev = g at hout hcmd h1 h2
  refine completes_to (exec_csmaTransmit ..) g ?_ ⟨⟨f, by rw [after_out, hout]; rfl⟩, hcmd, counted_of_get h1 rfl (get_after ..),
    counted_of_get h2 rfl (get_after ..)⟩
  rw [if_pos ⟨hst, hpwr⟩, ho]

/-! ## Acknowledgements -/

theorem ackSeq_some {k q : Nat} {c : FireCmd} {d : Dev} (h : d.vrd.pend.find? (fun c => d.onSeg k c && c.seq == q && !c.sent.isEmpty) = some c) :
    ackSeq k q d = t1sPerf k 5 1 (t1sStat k 4 1 (dropCmd c d)) := by
  unfold ackSeq
  rw [h]

theorem ackSeq_none {k q : Nat} {d : Dev} (h : d.vrd.pend.find? (fun c => d.onSeg k c && c.seq == q && !c.sent.isEmpty) = none) :
    ackSeq k q d = t1sStat k 5 1 d := by
  unfold ackSeq
  rw [h]

/-- The acknowledgement of one SEQ: no sent command of the segment has it any more. -/
theorem ackSeq_facts (k q : Nat) (d : Dev) : SegStep [R.T1S.STAT.COUNT k 4, R.T1S.STAT.COUNT k 5] d (ackSeq k q d) ∧
    (∀ c ∈ (ackSeq k q d).vrd.pend, c ∈ d.vrd.pend) ∧
    (∀ c ∈ (ackSeq k q d).vrd.pend, d.onSeg k c = true → c.seq = q → c.sent = []) := by
  cases hf : d.vrd.pend.find? (fun c => d.onSeg k c && c.seq == q && !c.sent.isEmpty) with
  | none =>
    have hl : Leaves [R.T1S.STAT.COUNT k 5] d (t1sStat k 5 1 d) := leaves_t1sStat ..
    rw [ackSeq_none hf]
    generalize t1sStat k 5 1 d = e at hl
    refine ⟨(segStep_of_leaves hl).mono (by simp), fun c hc => by rwa [vrd_of_leaves hl] at hc, fun c hc hon hq => ?_⟩
    rw [vrd_of_leaves hl] at hc
    have := List.find?_eq_none.mp hf c hc
    simpa [hon, hq] using this
  | some a =>
    have hstep : SegStep [] d (dropCmd a d) := segStep_of_eq fun _ => rfl
    have hpend : (dropCmd a d).vrd.pend = d.vrd.pend.filter (fun x => !(x.seq == a.seq && x.seg == a.seg)) := rfl
    rw [ackSeq_some hf]
    generalize dropCmd a d = e at hstep hpend
    have hl : Leaves [R.T1S.STAT.COUNT k 4] e (t1sPerf k 5 1 (t1sStat k 4 1 e)) := (leaves_t1sStat ..).trans (leaves_t1sPerf ..)
    generalize t1sPerf k 5 1 (t1sStat k 4 1 e) = g at hl
    have hmem : ∀ c ∈ g.vrd.pend, c ∈ d.vrd.pend ∧ (c.seq == a.seq && c.seg == a.seg) = false := by
      intro c hc
      rw [vrd_of_leaves hl, hpend] at hc
      have := List.mem_filter.mp hc
      exact ⟨this.1, by simpa only [Bool.not_eq_true'] using this.2⟩
    refine ⟨(hstep.trans (segStep_of_leaves hl)).mono (by simp), fun c hc => (hmem c hc).1, fun c hc hon hq => ?_⟩
    have ha := List.find?_some hf
    simp only [Bool.and_eq_true, beq_iff_eq] at ha
    have hseg : c.seg = a.seg := (eq_of_beq hon).trans (eq_of_beq ha.1.1).symm
    have hno := (hmem c hc).2
    rw [hq, ha.1.2, hseg] at hno
    simp at hno

/-- The acknowledgements of a status frame. -/
theorem ackSeqs_facts {k : Nat} (hk : k < 8) (qs : List Nat) (d : Dev) : SegStep [R.T1S.STAT.COUNT k 4, R.T1S.STAT.COUNT k 5] d (each (ackSeq k) qs d) ∧
    (∀ c ∈ (each (ackSeq k) qs d).vrd.pend, c ∈ d.vrd.pend) ∧
    (∀ q ∈ qs, ∀ c ∈ (each (ackSeq k) qs d).vrd.pend, d.onSeg k c = true → c.seq = q → c.sent = []) := by
  induction qs generalizing d with
  | nil => exact ⟨(segStep_of_eq fun _ => rfl).mono (by simp), fun c hc => hc, by simp⟩
  | cons q qs ih =>
    have heq : each (ackSeq k) (q :: qs) d = each (ackSeq k) qs (ackSeq k q d) := rfl
    obtain ⟨hs, hin, hq⟩ := ackSeq_facts k q d
    have hmode : (ackSeq k q d).on R.TOP.PROFILE_ACT.T1S_MODE = d.on R.TOP.PROFILE_ACT.T1S_MODE := by
      refine congrArg (· == 1) (hs.get (f := R.TOP.PROFILE_ACT.T1S_MODE) (by decide) ?_)
      simp only [List.map_cons, List.map_nil, List.mem_cons, List.not_mem_nil, or_false, Fld.key, R.T1S.STAT.COUNT, R.TOP.PROFILE_ACT.T1S_MODE]
      omega
    have hon (c : FireCmd) : (ackSeq k q d).onSeg k c = d.onSeg k c := by
      rw [Dev.onSeg, Dev.lane', hmode]
      rfl
    rw [heq]
    generalize ackSeq k q d = e at hs hin hq hon
    obtain ⟨hs', hin', hq'⟩ := ih e
    refine ⟨(hs.trans hs').mono (by simp), fun c hc => hin c (hin' c hc), fun x hx c hc hc' hcx => ?_⟩
    rcases List.mem_cons.mp hx with rfl | hx
    · exact hq c (hin' c hc) hc' hcx
    · exact hq' x hx c hc ((hon c).trans hc') hcx

/-! ## Status frames -/

/-- A segment after a node's status frame. -/
def nodeSeen (n t : Nat) (p : List Byte) (g : SegS) : SegS :=
  { g with rxAt := KMap.put (fun _ => none) g.rxAt n (some t), nstat := KMap.put (fun _ => []) g.nstat n (p.take 64) }

theorem statusFrame_eq (k n : Nat) (p : List Byte) (d : Dev) : statusFrame k n p d =
    (fun e => each (ackSeq k) ((List.range (min 16 (fieldAt p 3 1))).map (fun i => fieldAt p (32 + 2 * i) 2))
      (setSeg k (nodeSeen n e.dt p (e.segS k)) e))
      (puts [(R.T1S.NODE.ST_LOCKED k n, fieldAt p 6 1 % 2), (R.T1S.NODE.SILENT k n, 0)] (t1sStat k 15 1 d)) := rfl

theorem rxStatus_known {k src : Nat} {p : List Byte} {d : Dev} (hlen : 64 ≤ p.length) (h0 : fieldAt p 0 1 = 0x47) (h1 : fieldAt p 1 1 = 0x81)
    (hlo : 1 ≤ fieldAt p 4 1) (hhi : fieldAt p 4 1 ≤ 31) (hen : d.on (R.T1S.NODE.EN k (fieldAt p 4 1)) = true) :
    rxStatus k src p d = (fun e => if e.get (R.T1S.NODE.MAC k (fieldAt p 4 1)) = src then statusFrame k (fieldAt p 4 1) p e else stranger k src e)
      (when (d.get (R.T1S.NODE.MAC k (fieldAt p 4 1)) == 0) (put (R.T1S.NODE.MAC k (fieldAt p 4 1)) src) d) := by
  unfold rxStatus
  dsimp only
  rw [if_pos]
  simp [hlen, h0, h1, hlo, hhi, hen]

theorem nodeKey_ne {k n : Nat} : (R.T1S.NODE.MAC k n).key ≠ (R.T1S.NODE.ST_LOCKED k n).key ∧ (R.T1S.NODE.MAC k n).key ≠ (R.T1S.NODE.SILENT k n).key ∧
    (R.T1S.NODE.ST_LOCKED k n).key ≠ (R.T1S.NODE.SILENT k n).key := by
  simp only [Fld.key, R.T1S.NODE.MAC, R.T1S.NODE.ST_LOCKED, R.T1S.NODE.SILENT]
  omega

/-- What a status frame of a known node leaves. -/
theorem statusFrame_facts {k n : Nat} (hk : k < 8) (hn : n < 32) (p : List Byte) (d : Dev) :
    (statusFrame k n p d).get (R.T1S.NODE.SILENT k n) = 0 ∧ (statusFrame k n p d).get (R.T1S.NODE.MAC k n) = d.get (R.T1S.NODE.MAC k n) ∧
    (statusFrame k n p d).get (R.T1S.NODE.ST_LOCKED k n) = fieldAt p 6 1 % 2 ∧ Counted (R.T1S.STAT.COUNT k 15) 1 d (statusFrame k n p d) ∧
    (∀ i, i < min 16 (fieldAt p 3 1) → ∀ c ∈ (statusFrame k n p d).vrd.pend, d.onSeg k c = true → c.seq = fieldAt p (32 + 2 * i) 2 → c.sent = []) ∧
    (∀ c ∈ (statusFrame k n p d).vrd.pend, c ∈ d.vrd.pend) := by
  have hstat := leaves_t1sStat k 15 1 d
  have hc := counted_t1sStat k 15 1 d
  rw [statusFrame_eq]
  generalize t1sStat k 15 1 d = d1 at hstat hc ⊢
  have hputs := leaves_puts [(R.T1S.NODE.ST_LOCKED k n, fieldAt p 6 1 % 2), (R.T1S.NODE.SILENT k n, 0)] d1
  have hlock : (puts [(R.T1S.NODE.ST_LOCKED k n, fieldAt p 6 1 % 2), (R.T1S.NODE.SILENT k n, 0)] d1).get (R.T1S.NODE.ST_LOCKED k n) = fieldAt p 6 1 % 2 := by
    refine (get_put_ne nodeKey_ne.2.2 ..).trans ((get_put_self ..).trans (Nat.mod_mod _ 2))
  have hsilent : (puts [(R.T1S.NODE.ST_LOCKED k n, fieldAt p 6 1 % 2), (R.T1S.NODE.SILENT k n, 0)] d1).get (R.T1S.NODE.SILENT k n) = 0 := get_put_self ..
  generalize puts _ d1 = d2 at hputs hlock hsilent ⊢
  dsimp only
  have hset := segStep_setSeg k (nodeSeen n d2.dt p (d2.segS k)) d2
  have hpend : (setSeg k (nodeSeen n d2.dt p (d2.segS k)) d2).vrd.pend = d2.vrd.pend := rfl
  generalize setSeg k (nodeSeen n d2.dt p (d2.segS k)) d2 = d3 at hset hpend ⊢
  obtain ⟨hs, hin, hq⟩ := ackSeqs_facts hk ((List.range (min 16 (fieldAt p 3 1))).map (fun i => fieldAt p (32 + 2 * i) 2)) d3
  generalize each (ackSeq k) _ d3 = e at hs hin hq ⊢
  have hreg := nodeReg hk hn
  have hcount (c : Nat) : ∀ f ∈ [R.T1S.NODE.MAC k n, R.T1S.NODE.ST_LOCKED k n, R.T1S.NODE.SILENT k n, R.T1S.STAT.COUNT k 15],
      c ∈ [4, 5] → f.key ≠ (R.T1S.STAT.COUNT k c).key := by
    simp only [List.mem_cons, List.not_mem_nil, or_false, forall_eq_or_imp, forall_eq, Fld.key, R.T1S.NODE.MAC, R.T1S.NODE.ST_LOCKED, R.T1S.NODE.SILENT,
      R.T1S.STAT.COUNT]
    omega
  have hrest : ∀ f ∈ [R.T1S.NODE.MAC k n, R.T1S.NODE.ST_LOCKED k n, R.T1S.NODE.SILENT k n, R.T1S.STAT.COUNT k 15], segReg f.key →
      e.get f = d2.get f := by
    intro f hf hf'
    refine (hs.get (segReg_book hf') ?_).trans (hset.get (segReg_book hf') (by simp))
    simp only [List.map_cons, List.map_nil, List.mem_cons, List.not_mem_nil, or_false, not_or]
    exact ⟨hcount 4 f hf (by simp), hcount 5 f hf (by simp)⟩
  have hpend' : d3.vrd.pend = d.vrd.pend := hpend.trans (congrArg VrdS.pend (vrd_of_leaves (hstat.trans hputs)))
  have hmode : d3.on R.TOP.PROFILE_ACT.T1S_MODE = d.on R.TOP.PROFILE_ACT.T1S_MODE := by
    refine congrArg (· == 1) ((((segStep_of_leaves (hstat.trans hputs)).trans hset).get (f := R.TOP.PROFILE_ACT.T1S_MODE) (by decide) ?_))
    simp only [List.cons_append, List.nil_append, List.append_nil, List.map_cons, List.map_nil, List.mem_cons, List.not_mem_nil, or_false, Fld.key,
      R.T1S.STAT.COUNT, R.T1S.NODE.ST_LOCKED, R.T1S.NODE.SILENT, R.TOP.PROFILE_ACT.T1S_MODE]
    omega
  refine ⟨(hrest _ (by simp) (hreg _ (by simp))).trans hsilent, (hrest _ (by simp) (hreg _ (by simp))).trans ?_,
    (hrest _ (by simp) (hreg _ (by simp))).trans hlock, counted_of_get hc rfl ((hrest _ (by simp) (t1sCount_reg hk (by decide))).trans ?_),
    fun i hi c hc' hon => hq _ (List.mem_map.mpr ⟨i, List.mem_range.mpr hi, rfl⟩) c hc' ?_, fun c hc' => hpend' ▸ hin c hc'⟩
  · refine (hputs.get (segReg_book (hreg _ (by simp))) ?_).trans (hstat.get (segReg_book (hreg _ (by simp))) ?_)
    · simp only [List.map_cons, List.map_nil, List.mem_cons, List.not_mem_nil, or_false, not_or]
      exact ⟨nodeKey_ne.1, nodeKey_ne.2.1⟩
    · simp only [List.map_cons, List.map_nil, List.mem_singleton, Fld.key, R.T1S.NODE.MAC, R.T1S.STAT.COUNT]
      omega
  · refine hputs.get (segReg_book (t1sCount_reg hk (by decide))) ?_
    simp only [List.map_cons, List.map_nil, List.mem_cons, List.not_mem_nil, or_false, Fld.key, R.T1S.NODE.ST_LOCKED, R.T1S.NODE.SILENT, R.T1S.STAT.COUNT]
    omega
  · rw [Dev.onSeg, Dev.lane', hmode]
    exact hon

theorem statusFrame_completes (k : Fin 8) (src : BitVec 48) (p : List Byte) (s : State) (hup : s.dev.segUp k.val = true) (hlen : 64 ≤ p.length)
    (h0 : fieldAt p 0 1 = 0x47) (h1 : fieldAt p 1 1 = 0x81) (hlo : 1 ≤ fieldAt p 4 1) (hhi : fieldAt p 4 1 ≤ 31)
    (hen : s.dev.on (R.T1S.NODE.EN k.val (fieldAt p 4 1)) = true)
    (hmac : s.dev.get (R.T1S.NODE.MAC k.val (fieldAt p 4 1)) = 0 ∨ s.dev.get (R.T1S.NODE.MAC k.val (fieldAt p 4 1)) = src.toNat) :
    Completes (.statusFrame k src p) s (fun t =>
      t.dev.on (R.T1S.NODE.SILENT k.val (fieldAt p 4 1)) = false ∧ t.dev.get (R.T1S.NODE.MAC k.val (fieldAt p 4 1)) = src.toNat ∧
      t.dev.get (R.T1S.NODE.ST_LOCKED k.val (fieldAt p 4 1)) = fieldAt p 6 1 % 2 ∧
      Counted (R.T1S.STAT.COUNT k.val 15) 1 s.dev t.dev ∧
      (∀ i, i < min 16 (fieldAt p 3 1) → ∀ c ∈ t.dev.vrd.pend, s.dev.onSeg k.val c = true → c.seq = fieldAt p (32 + 2 * i) 2 → c.sent = []) ∧
      (∀ c ∈ t.dev.vrd.pend, c ∈ s.dev.vrd.pend)) := by
  have hrx := rxStatus_known (src := src.toNat) hlen h0 h1 hlo hhi hen
  generalize hn : fieldAt p 4 1 = n at *
  have hlearn : Leaves [R.T1S.NODE.MAC k.val n] s.dev
      (when (s.dev.get (R.T1S.NODE.MAC k.val n) == 0) (put (R.T1S.NODE.MAC k.val n) src.toNat) s.dev) :=
    leaves_when _ (put (R.T1S.NODE.MAC k.val n) src.toNat) s.dev (leaves_put ..)
  have hknown : (when (s.dev.get (R.T1S.NODE.MAC k.val n) == 0) (put (R.T1S.NODE.MAC k.val n) src.toNat) s.dev).get (R.T1S.NODE.MAC k.val n) =
      src.toNat := by
    have hput : (put (R.T1S.NODE.MAC k.val n) src.toNat s.dev).get (R.T1S.NODE.MAC k.val n) = src.toNat :=
      (get_put_self ..).trans (Nat.mod_eq_of_lt src.isLt)
    rcases hmac with hz | hs
    · rw [hz]
      exact hput
    · cases s.dev.get (R.T1S.NODE.MAC k.val n) == 0
      · exact hs
      · exact hput
  generalize when _ (put (R.T1S.NODE.MAC k.val n) src.toNat) s.dev = d1 at hlearn hknown hrx
  dsimp only at hrx
  rw [if_pos hknown] at hrx
  obtain ⟨hsil, hkeep, hlock, hcount, hack, hin⟩ := statusFrame_facts k.isLt (n := n) (by omega) p d1
  generalize statusFrame k.val n p d1 = e at hsil hkeep hlock hcount hack hin hrx
  have hpend : d1.vrd.pend = s.dev.vrd.pend := congrArg VrdS.pend (vrd_of_leaves hlearn)
  have hmode : d1.on R.TOP.PROFILE_ACT.T1S_MODE = s.dev.on R.TOP.PROFILE_ACT.T1S_MODE := by
    refine congrArg (· == 1) (hlearn.get (f := R.TOP.PROFILE_ACT.T1S_MODE) (by decide) ?_)
    simp only [List.map_cons, List.map_nil, List.mem_singleton, Fld.key, R.T1S.NODE.MAC, R.TOP.PROFILE_ACT.T1S_MODE]
    omega
  refine completes_to (exec_statusFrame ..) e ?_ ⟨?_, (get_after ..).trans (hkeep.trans hknown), (get_after ..).trans hlock,
    counted_of_get hcount ?_ (get_after ..), fun i hi c hc hon => hack i hi c hc ?_, fun c hc => hpend ▸ hin c hc⟩
  · rw [if_pos hup, hrx]
  · rw [on_after, Dev.on, hsil]
    rfl
  · refine hlearn.get (segReg_book (t1sCount_reg k.isLt (by decide))) ?_
    simp only [List.map_cons, List.map_nil, List.mem_singleton, Fld.key, R.T1S.NODE.MAC, R.T1S.STAT.COUNT]
    omega
  · rw [Dev.onSeg, Dev.lane', hmode]
    exact hon

/-! ## Strangers -/

/-- The registers that a stranger writes. -/
def strangerRegs (k : Nat) : List Fld := [R.T1S.SEG_STATUS.SEQ k, R.T1S.SEG_STATUS.STRANGER k, R.T1S.STAT.COUNT k 12]

/-- A stranger that is flagged and counted. -/
def strangerNoted (k : Nat) (d : Dev) : Dev :=
  t1sPerf k 0xa 1 (t1sStat k 12 1 (event 0x11 (R.T1S.SEG_STATUS.SEQ k) [R.T1S.SEG_STATUS.STRANGER k] d))

/-- A segment whose stranger is logged. -/
def strangerLogged (t : Nat) (g : SegS) : SegS := { g with strangerAt := some t }

/-- The log entry of a stranger, where none was logged of late. -/
def strangerLog (k src : Nat) (d : Dev) : Dev :=
  let quiet := match (d.segS k).strangerAt with
    | none => true
    | some t => decide (1000000000 * 65536 < dtDiff d.dt t)
  if quiet then logEv 0x118c k 2 src (setSeg k (strangerLogged d.dt (d.segS k)) d) else d

theorem stranger_eq (k src : Nat) (d : Dev) : stranger k src d = strangerLog k src (strangerNoted k d) := by
  unfold stranger strangerLog strangerNoted
  dsimp only
  generalize t1sPerf k 0xa 1 _ = e
  cases (e.segS k).strangerAt <;> rfl

theorem strangerLog_cases (k src : Nat) (d : Dev) :
    strangerLog k src d = d ∨ strangerLog k src d = logEv 0x118c k 2 src (setSeg k (strangerLogged d.dt (d.segS k)) d) := by
  unfold strangerLog
  dsimp only
  generalize (match (d.segS k).strangerAt with
    | none => true
    | some t => decide (1000000000 * 65536 < dtDiff d.dt t)) = quiet
  cases quiet
  · exact .inl (if_neg Bool.false_ne_true)
  · exact .inr (if_pos rfl)

/-- What a stranger leaves. -/
theorem stranger_facts {k : Nat} (hk : k < 8) (src : Nat) (d : Dev) : SegStep (strangerRegs k) d (stranger k src d) ∧ (stranger k src d).out = d.out ∧
    Raised (R.T1S.SEG_STATUS.SEQ k) [R.T1S.SEG_STATUS.STRANGER k] d (stranger k src d) ∧ Counted (R.T1S.STAT.COUNT k 12) 1 d (stranger k src d) := by
  have hreg := statusReg hk
  have hbook : ∀ f ∈ [R.T1S.SEG_STATUS.SEQ k, R.T1S.SEG_STATUS.STRANGER k], bookKey f.key = false := fun f hf =>
    segReg_book (hreg f (by simp only [List.mem_cons, List.not_mem_nil, or_false] at hf ⊢; rcases hf with rfl | rfl <;> simp))
  have hev := leaves_event 0x11 (R.T1S.SEG_STATUS.SEQ k) [R.T1S.SEG_STATUS.STRANGER k] d
  have hraise : Raised (R.T1S.SEG_STATUS.SEQ k) [R.T1S.SEG_STATUS.STRANGER k] d (event 0x11 (R.T1S.SEG_STATUS.SEQ k) [R.T1S.SEG_STATUS.STRANGER k] d) :=
    raised_event hbook (by simp [R.T1S.SEG_STATUS.STRANGER]) (by simp [Fld.key, R.T1S.SEG_STATUS.SEQ, R.T1S.SEG_STATUS.STRANGER]) rfl
  rw [stranger_eq, strangerNoted]
  generalize event 0x11 (R.T1S.SEG_STATUS.SEQ k) [R.T1S.SEG_STATUS.STRANGER k] d = d1 at hev hraise ⊢
  have hstat : Leaves [R.T1S.STAT.COUNT k 12] d1 (t1sPerf k 0xa 1 (t1sStat k 12 1 d1)) := (leaves_t1sStat ..).trans (leaves_t1sPerf ..)
  have hcount : Counted (R.T1S.STAT.COUNT k 12) 1 d1 (t1sPerf k 0xa 1 (t1sStat k 12 1 d1)) :=
    counted_of_get (counted_t1sStat k 12 1 d1) rfl ((leaves_t1sPerf ..).get (segReg_book (t1sCount_reg hk (by decide))) (by simp))
  generalize t1sPerf k 0xa 1 (t1sStat k 12 1 d1) = d2 at hstat hcount ⊢
  have hkeys : ∀ f ∈ [R.T1S.SEG_STATUS.SEQ k, R.T1S.SEG_STATUS.STRANGER k], f.key ≠ (R.T1S.STAT.COUNT k 12).key := by
    simp only [List.mem_cons, List.not_mem_nil, or_false, forall_eq_or_imp, forall_eq, Fld.key, R.T1S.SEG_STATUS.SEQ, R.T1S.SEG_STATUS.STRANGER,
      R.T1S.STAT.COUNT]
    omega
  have hraise2 := raised_then hraise hstat hbook (fun f hf => by simpa using hkeys f hf)
  have hcount2 : Counted (R.T1S.STAT.COUNT k 12) 1 d d2 :=
    counted_of_get hcount (hev.get (segReg_book (t1sCount_reg hk (by decide))) (by simpa [seqAnd, eq_comm] using hkeys)) rfl
  have hbefore : SegStep (strangerRegs k) d d2 := (segStep_of_leaves (hev.trans hstat)).mono (by simp [seqAnd, strangerRegs])
  have hout : d2.out = d.out := out_of_leaves (hev.trans hstat)
  rcases strangerLog_cases k src d2 with heq | heq
  · rw [heq]
    exact ⟨hbefore, hout, hraise2, hcount2⟩
  · have hset := segStep_setSeg k (strangerLogged d2.dt (d2.segS k)) d2
    have hsetOut : (setSeg k (strangerLogged d2.dt (d2.segS k)) d2).out = d2.out := out_setSeg ..
    generalize setSeg k (strangerLogged d2.dt (d2.segS k)) d2 = d3 at hset hsetOut heq
    have hlog := leaves_logEv 0x118c k 2 src d3
    rw [heq]
    generalize logEv 0x118c k 2 src d3 = e at hlog ⊢
    have hget {f : Fld} (hf : bookKey f.key = false) : e.get f = d2.get f := (hlog.get hf (by simp)).trans (hset.get hf (by simp))
    refine ⟨((hbefore.trans hset).trans (segStep_of_leaves hlog)).mono (by simp), (out_of_leaves hlog).trans (hsetOut.trans hout), ⟨?_, fun f hf => ?_⟩,
      counted_of_get hcount2 rfl (hget (segReg_book (t1sCount_reg hk (by decide))))⟩
    · exact (hget (hbook _ (by simp))).trans hraise2.1
    · exact (congrArg (· == 1) (hget (hbook _ (List.mem_cons_of_mem _ hf)))).trans (hraise2.2 f hf)

theorem stranger_completes (k : Fin 8) (src : BitVec 48) (s : State) (hup : s.dev.segUp k.val = true) :
    Completes (.stranger k src false) s (fun t =>
      Raised (R.T1S.SEG_STATUS.SEQ k.val) [R.T1S.SEG_STATUS.STRANGER k.val] s.dev t.dev ∧
      Counted (R.T1S.STAT.COUNT k.val 12) 1 s.dev t.dev ∧
      Frame [R.T1S.SEG_STATUS.SEQ k.val, R.T1S.SEG_STATUS.STRANGER k.val, R.T1S.STAT.COUNT k.val 12]
        { s.dev with vrd := t.dev.vrd } s t) := by
  obtain ⟨hstep, hout, hraise, hcount⟩ := stranger_facts k.isLt src.toNat s.dev
  generalize hg : stranger k.val src.toNat s.dev = e at hstep hout hraise hcount
  refine completes_to (exec_stranger ..) e ?_ ⟨raised_after hraise s, counted_of_get hcount rfl (get_after ..), hstep.frame hout s⟩
  dsimp only
  rw [if_pos hup, ← hg]
  rfl

theorem foreignAnnounce_completes (k : Fin 8) (src : BitVec 48) (s : State) (hup : s.dev.segUp k.val = true)
    (hen : s.dev.on (R.TIM.SEG_CTL.EN k.val) = true) :
    Completes (.stranger k src true) s (fun t =>
      Raised (R.TIM.SEG_STATUS.SEQ k.val) [R.TIM.SEG_STATUS.FOREIGN k.val] s.dev t.dev ∧ Counted (R.T1S.STAT.COUNT k.val 12) 1 s.dev t.dev) := by
  have hbook : ∀ f ∈ [R.TIM.SEG_STATUS.SEQ k.val, R.TIM.SEG_STATUS.FOREIGN k.val], bookKey f.key = false := by clear * -; decide +revert
  have hraise : Raised (R.TIM.SEG_STATUS.SEQ k.val) [R.TIM.SEG_STATUS.FOREIGN k.val] s.dev
      (event 7 (R.TIM.SEG_STATUS.SEQ k.val) [R.TIM.SEG_STATUS.FOREIGN k.val] s.dev) :=
    raised_event hbook (by simp [R.TIM.SEG_STATUS.FOREIGN]) (by clear * -; decide +revert) rfl
  have hev := leaves_event 7 (R.TIM.SEG_STATUS.SEQ k.val) [R.TIM.SEG_STATUS.FOREIGN k.val] s.dev
  generalize he : event 7 (R.TIM.SEG_STATUS.SEQ k.val) [R.TIM.SEG_STATUS.FOREIGN k.val] s.dev = d at hraise hev
  obtain ⟨hstep, -, -, hcount⟩ := stranger_facts k.isLt src.toNat d
  generalize hg : stranger k.val src.toNat d = e at hstep hcount
  have hkeep : ∀ f ∈ [R.TIM.SEG_STATUS.SEQ k.val, R.TIM.SEG_STATUS.FOREIGN k.val], e.get f = d.get f := by
    intro f hf
    refine hstep.get (hbook f hf) ?_
    have hk : f.key ∉ (strangerRegs k.val).map Fld.key := by
      clear * - hf
      revert f
      decide +revert
    exact hk
  refine completes_to (exec_stranger ..) e ?_ ⟨raised_after ⟨(hkeep _ (by simp)).trans hraise.1, fun f hf =>
    (congrArg (· == 1) (hkeep f (List.mem_cons_of_mem _ hf))).trans (hraise.2 f hf)⟩ s, counted_of_get hcount ?_ (get_after ..)⟩
  · dsimp only
    rw [if_pos hup, hen, ← hg, ← he]
    rfl
  · exact hev.get (segReg_book (t1sCount_reg k.isLt (by decide))) (by clear * -; decide +revert)

/-! ## States of a segment -/

/-- A segment with a cause for CSMA. -/
def causeNoted (t : Nat) (g : SegS) : SegS := { g with causeAt := some t, beaconAt := none }

/-- The segment that a foreign beacon, or a collision, moves to CSMA. -/
def toCsma (k : Nat) (d : Dev) : Dev := t1sPerf k 0xb 1 (put (R.T1S.SEG_STATUS.STATE k) 2 d)

/-- What the move to CSMA leaves. -/
theorem toCsma_facts {k : Nat} (hk : k < 8) (d : Dev) : Leaves [R.T1S.SEG_STATUS.STATE k] d (toCsma k d) ∧
    (toCsma k d).get (R.T1S.SEG_STATUS.STATE k) = 2 := by
  refine ⟨(leaves_put ..).trans (leaves_t1sPerf ..), ?_⟩
  rw [toCsma, (leaves_t1sPerf ..).get (segReg_book (statusReg hk _ (by simp))) (by simp)]
  exact get_put_self ..

/-- A cause for CSMA on a segment in PLCA. -/
theorem cause_completes {k : Fin 8} {s : State} {collision : Bool} {d : Dev}
    (hd : (if collision then t1sPerf k.val 8 1 (t1sStat k.val 8 1 s.dev)
      else t1sStat k.val 13 1 (event 0x11 (R.T1S.SEG_STATUS.SEQ k.val) [R.T1S.SEG_STATUS.FOREIGN_BCN k.val] s.dev)) = d)
    (hst : s.dev.get (R.T1S.SEG_STATUS.STATE k.val) = 1) (hst' : d.get (R.T1S.SEG_STATUS.STATE k.val) = 1) {post : State → Prop}
    (hpost : post (s.after (setSeg k.val (causeNoted (toCsma k.val d).dt ((toCsma k.val d).segS k.val)) (toCsma k.val d)))) :
    Completes (.foreignBeacon k collision) s post := by
  refine completes_to (exec_foreignBeacon ..) _ ?_ hpost
  have hup : (!s.dev.segUp k.val) = false := by rw [Dev.segUp, hst]; rfl
  have hmove : when (d.get (R.T1S.SEG_STATUS.STATE k.val) == 1) (fun d => t1sPerf k.val 0xb 1 (put (R.T1S.SEG_STATUS.STATE k.val) 2 d)) d = toCsma k.val d := by
    rw [hst']
    rfl
  dsimp only
  rw [if_neg (by rw [hup]; exact Bool.false_ne_true), hd, hmove]
  rfl

theorem foreignBeacon_completes (k : Fin 8) (s : State) (hst : s.dev.get (R.T1S.SEG_STATUS.STATE k.val) = 1) :
    Completes (.foreignBeacon k false) s (fun t =>
      t.dev.get (R.T1S.SEG_STATUS.STATE k.val) = 2 ∧ (t.dev.segS k.val).causeAt = some s.dev.dt ∧
      Raised (R.T1S.SEG_STATUS.SEQ k.val) [R.T1S.SEG_STATUS.FOREIGN_BCN k.val] s.dev t.dev ∧
      Counted (R.T1S.STAT.COUNT k.val 13) 1 s.dev t.dev) := by
  have hbook : ∀ f ∈ [R.T1S.SEG_STATUS.SEQ k.val, R.T1S.SEG_STATUS.FOREIGN_BCN k.val, R.T1S.SEG_STATUS.STATE k.val, R.T1S.STAT.COUNT k.val 13],
      bookKey f.key = false := by clear * -; decide +revert
  have hbook2 : ∀ f ∈ [R.T1S.SEG_STATUS.SEQ k.val, R.T1S.SEG_STATUS.FOREIGN_BCN k.val], bookKey f.key = false := by clear * -; decide +revert
  have hev := leaves_event 0x11 (R.T1S.SEG_STATUS.SEQ k.val) [R.T1S.SEG_STATUS.FOREIGN_BCN k.val] s.dev
  have hraise : Raised (R.T1S.SEG_STATUS.SEQ k.val) [R.T1S.SEG_STATUS.FOREIGN_BCN k.val] s.dev
      (event 0x11 (R.T1S.SEG_STATUS.SEQ k.val) [R.T1S.SEG_STATUS.FOREIGN_BCN k.val] s.dev) :=
    raised_event hbook2 (by simp [R.T1S.SEG_STATUS.FOREIGN_BCN]) (by clear * -; decide +revert) rfl
  generalize he : event 0x11 (R.T1S.SEG_STATUS.SEQ k.val) [R.T1S.SEG_STATUS.FOREIGN_BCN k.val] s.dev = d1 at hev hraise
  have hstat := leaves_t1sStat k.val 13 1 d1
  have hcount := counted_t1sStat k.val 13 1 d1
  generalize hd : t1sStat k.val 13 1 d1 = d at hstat hcount
  have hst' : d.get (R.T1S.SEG_STATUS.STATE k.val) = 1 := by
    rw [hstat.get (hbook _ (by simp)) (by clear * -; decide +revert), hev.get (hbook _ (by simp)) (by clear * -; decide +revert), hst]
  obtain ⟨hcsma, hstate⟩ := toCsma_facts k.isLt d
  have hdt : (toCsma k.val d).dt = s.dev.dt := (segStep_of_leaves ((hev.trans hstat).trans hcsma)).dt
  refine cause_completes (d := d) (by rw [if_neg Bool.false_ne_true, he, hd]) hst hst' ?_
  generalize toCsma k.val d = e at hcsma hstate hdt
  refine ⟨hstate, ?_, raised_after (raised_then (raised_then hraise hstat hbook2 (by clear * -; decide +revert)) hcsma hbook2
    (by clear * -; decide +revert)) s, counted_of_get hcount (hev.get (hbook _ (by simp)) (by clear * -; decide +revert)) ?_⟩
  · rw [segS_after, segS_setSeg, hdt]
    rfl
  · exact (get_after ..).trans (hcsma.get (hbook _ (by simp)) (by clear * -; decide +revert))

theorem collision_completes (k : Fin 8) (s : State) (hst : s.dev.get (R.T1S.SEG_STATUS.STATE k.val) = 1) :
    Completes (.foreignBeacon k true) s (fun t =>
      t.dev.get (R.T1S.SEG_STATUS.STATE k.val) = 2 ∧ Counted (R.T1S.STAT.COUNT k.val 8) 1 s.dev t.dev) := by
  have hbook : bookKey (R.T1S.STAT.COUNT k.val 8).key = false := segReg_book (t1sCount_reg k.isLt (by decide))
  have hstat : Leaves [R.T1S.STAT.COUNT k.val 8] s.dev (t1sPerf k.val 8 1 (t1sStat k.val 8 1 s.dev)) := (leaves_t1sStat ..).trans (leaves_t1sPerf ..)
  have hcount : Counted (R.T1S.STAT.COUNT k.val 8) 1 s.dev (t1sPerf k.val 8 1 (t1sStat k.val 8 1 s.dev)) :=
    counted_of_get (counted_t1sStat k.val 8 1 s.dev) rfl ((leaves_t1sPerf ..).get hbook (by simp))
  generalize hd : t1sPerf k.val 8 1 (t1sStat k.val 8 1 s.dev) = d at hstat hcount
  have hst' : d.get (R.T1S.SEG_STATUS.STATE k.val) = 1 := by
    rw [hstat.get (by clear * -; decide +revert) (by clear * -; decide +revert), hst]
  obtain ⟨hcsma, hstate⟩ := toCsma_facts k.isLt d
  refine cause_completes (d := d) (by rw [if_pos rfl, hd]) hst hst' ?_
  generalize toCsma k.val d = e at hcsma hstate
  exact ⟨hstate, counted_of_get hcount rfl ((get_after ..).trans (hcsma.get hbook (by clear * -; decide +revert)))⟩

/-- A segment without a cause for CSMA. -/
def causeOver (g : SegS) : SegS := { g with causeAt := none }

theorem csmaReturn_completes (k : Fin 8) (x : Nat) (s : State) (hst : s.dev.get (R.T1S.SEG_STATUS.STATE k.val) = 2)
    (hx : (s.dev.segS k.val).causeAt = some x) :
    Completes (.csmaReturn k) s (fun t =>
      t.dev.get (R.T1S.SEG_STATUS.STATE k.val) = 1 ∧
      Frame [R.T1S.SEG_STATUS.STATE k.val] { reachNs x 10000000 s.dev with vrd := t.dev.vrd } s t) := by
  generalize hr : reachNs x 10000000 s.dev = d
  have hset := segStep_setSeg k.val (causeOver (s.dev.segS k.val)) d
  have hsetOut : (setSeg k.val (causeOver (s.dev.segS k.val)) d).out = d.out := out_setSeg ..
  generalize hg : setSeg k.val (causeOver (s.dev.segS k.val)) d = d1 at hset hsetOut
  have hput := leaves_put (R.T1S.SEG_STATUS.STATE k.val) 1 d1
  have hstate : (put (R.T1S.SEG_STATUS.STATE k.val) 1 d1).get (R.T1S.SEG_STATUS.STATE k.val) = 1 := get_put_self ..
  generalize he : put (R.T1S.SEG_STATUS.STATE k.val) 1 d1 = e at hput hstate
  refine completes_to (exec_csmaReturn ..) e ?_ ⟨(get_after ..).trans hstate, ((hset.trans (segStep_of_leaves hput)).mono (by simp)).frame
    ((out_of_leaves hput).trans hsetOut) s⟩
  simp only [hst, hx, hr]
  rw [← he, ← hg]
  rfl

theorem silent_completes (k : Fin 8) (n : Fin 32) (s : State) (hup : s.dev.segUp k.val = true) (hn : n.val ≠ 0)
    (hen : s.dev.on (R.T1S.NODE.EN k.val n.val) = true) (hsil : s.dev.on (R.T1S.NODE.SILENT k.val n.val) = false) :
    Completes (.silent k n) s (fun t =>
      t.dev.on (R.T1S.NODE.SILENT k.val n.val) = true ∧ t.dev.on (R.T1S.SEG_STATUS.SILENT k.val) = true) := by
  generalize hr : reachNs ((KMap.get (fun _ => (none : Option Nat)) (s.dev.segS k.val).rxAt n.val).getD (s.dev.segS k.val).startAt) 300000000 s.dev = d
  have hput : (put (R.T1S.NODE.SILENT k.val n.val) 1 d).get (R.T1S.NODE.SILENT k.val n.val) = 1 := get_put_self ..
  generalize hd : put (R.T1S.NODE.SILENT k.val n.val) 1 d = d1 at hput
  have hbook : ∀ f ∈ [R.T1S.SEG_STATUS.SEQ k.val, R.T1S.SEG_STATUS.SILENT k.val], bookKey f.key = false := by clear * -; decide +revert
  have hev := leaves_event 0x11 (R.T1S.SEG_STATUS.SEQ k.val) [R.T1S.SEG_STATUS.SILENT k.val] d1
  have hraise : Raised (R.T1S.SEG_STATUS.SEQ k.val) [R.T1S.SEG_STATUS.SILENT k.val] d1
      (event 0x11 (R.T1S.SEG_STATUS.SEQ k.val) [R.T1S.SEG_STATUS.SILENT k.val] d1) :=
    raised_event hbook (by simp [R.T1S.SEG_STATUS.SILENT]) (by clear * -; decide +revert) rfl
  generalize he : event 0x11 (R.T1S.SEG_STATUS.SEQ k.val) [R.T1S.SEG_STATUS.SILENT k.val] d1 = e at hev hraise
  refine completes_to (exec_silent ..) e ?_ ⟨?_, (on_after ..).trans (hraise.2 _ (by simp))⟩
  · dsimp only
    rw [if_neg (by simp [hup, hn, hen, hsil]), hr, hd, he]
  · rw [on_after, Dev.on, hev.get (segReg_book (nodeReg k.isLt n.isLt _ (by simp))) ?_, hput]
    · rfl
    · simp only [seqAnd, List.map_cons, List.map_nil, List.mem_cons, List.not_mem_nil, or_false, Fld.key, R.T1S.SEG_STATUS.SEQ, R.T1S.SEG_STATUS.SILENT,
        R.T1S.NODE.SILENT]
      omega

theorem phyError_completes (k : Fin 8) (kind : Fin 4) (s : State) : Completes (.phyError k kind) s (fun t =>
    Counted (R.T1S.STAT.COUNT k.val (8 + kind.val)) 1 s.dev t.dev ∧ Frame [R.T1S.STAT.COUNT k.val (8 + kind.val)] s.dev s t) := by
  have hstat := leaves_t1sStat k.val (8 + kind.val) 1 s.dev
  have hcount := counted_t1sStat k.val (8 + kind.val) 1 s.dev
  generalize hd : t1sStat k.val (8 + kind.val) 1 s.dev = d at hstat hcount
  have hperf : Leaves [] d (when (decide (kind.val < 2)) (t1sPerf k.val (8 + kind.val) 1) d) := leaves_when _ _ d (leaves_t1sPerf ..)
  generalize he : when (decide (kind.val < 2)) (t1sPerf k.val (8 + kind.val) 1) d = e at hperf
  refine completes_to (exec_phyError ..) e (by dsimp only; rw [hd, he]) ⟨counted_of_get hcount rfl ((get_after ..).trans
    (hperf.get (segReg_book (t1sCount_reg k.isLt (by omega))) (by simp))), frame_of_leaves ((hstat.trans hperf).mono (by simp)) s⟩

/-! ## A segment that goes down -/

/-- The registers that a missed command writes. -/
def missedRegs : List Fld := [R.VRD.STATUS.SEQ, R.VRD.STATUS.MISSED, R.VRD.STAT.COUNT 13]

theorem leaves_vrdPerf (code n : Nat) (d : Dev) : Leaves [] d (vrdPerf code n d) := leaves_perf 0x10 (by unfold PerfBase; omega) code n d

theorem leaves_vrdStat (c n : Nat) (d : Dev) : Leaves [R.VRD.STAT.COUNT c] d (vrdStat c n d) := leaves_put ..

theorem cmdMissed_leaves (d : Dev) : Leaves missedRegs d (cmdMissed d) := by
  have h1 := leaves_event 0x10 R.VRD.STATUS.SEQ [R.VRD.STATUS.MISSED] d
  unfold cmdMissed
  generalize event 0x10 R.VRD.STATUS.SEQ [R.VRD.STATUS.MISSED] d = e at h1 ⊢
  exact h1.trans ((leaves_vrdStat 13 1 e).trans (leaves_vrdPerf ..))

/-- A missed command leaves the table. -/
theorem missed_facts (c : FireCmd) (d : Dev) : SegStep missedRegs d (missed c d) ∧
    (missed c d).vrd.pend = d.vrd.pend.filter (fun x => !(x.seq == c.seq && x.seg == c.seg)) := by
  have hdrop : SegStep [] d (dropCmd c d) := segStep_of_eq fun _ => rfl
  have hpend : (dropCmd c d).vrd.pend = d.vrd.pend.filter (fun x => !(x.seq == c.seq && x.seg == c.seg)) := rfl
  unfold missed
  generalize dropCmd c d = e at hdrop hpend ⊢
  have hl : Leaves missedRegs e (logEv 0x108a 0 2 c.obj (cmdMissed e)) := ((cmdMissed_leaves e).trans (leaves_logEv ..)).mono
      (fun f hf => List.mem_map_of_mem (by simpa using hf))
  generalize logEv 0x108a 0 2 c.obj (cmdMissed e) = g at hl ⊢
  exact ⟨(hdrop.trans (segStep_of_leaves hl)).mono (by simp), (congrArg VrdS.pend (vrd_of_leaves hl)).trans hpend⟩

theorem missedAll_facts (xs : List FireCmd) (d : Dev) : SegStep missedRegs d (each missed xs d) ∧
    ∀ c ∈ (each missed xs d).vrd.pend, c ∈ d.vrd.pend ∧ c ∉ xs := by
  induction xs generalizing d with
  | nil => exact ⟨(segStep_of_eq fun _ => rfl).mono (by simp), fun c hc => ⟨hc, by simp⟩⟩
  | cons x xs ih =>
    have heq : each missed (x :: xs) d = each missed xs (missed x d) := rfl
    obtain ⟨hs, hp⟩ := missed_facts x d
    rw [heq]
    generalize missed x d = e at hs hp ⊢
    obtain ⟨hs', hp'⟩ := ih e
    refine ⟨(hs.trans hs').mono (by simp), fun c hc => ?_⟩
    obtain ⟨hin, hnot⟩ := hp' c hc
    rw [hp] at hin
    obtain ⟨hd, hne⟩ := List.mem_filter.mp hin
    refine ⟨hd, fun hmem => ?_⟩
    rcases List.mem_cons.mp hmem with rfl | hmem
    · simp at hne
    · exact hnot hmem

/-- A segment in the state of a failed one. -/
def segFailed (k : Nat) (d : Dev) : Dev := logEv 0x1102 k 3 0 (put (R.T1S.SEG_STATUS.STATE k) 3 d)

theorem segFailed_facts {k : Nat} (hk : k < 8) (d : Dev) : Leaves [R.T1S.SEG_STATUS.STATE k] d (segFailed k d) ∧
    (segFailed k d).get (R.T1S.SEG_STATUS.STATE k) = 3 := by
  refine ⟨(leaves_put ..).trans (leaves_logEv ..), ?_⟩
  rw [segFailed, (leaves_logEv ..).get (segReg_book (statusReg hk _ (by simp))) (by simp)]
  exact get_put_self ..

theorem downRegs (k : Fin 8) : R.TOP.PROFILE_ACT.T1S_MODE.key ∉ [R.T1S.SEG_STATUS.STATE k.val].map Fld.key ∧
    (R.T1S.SEG_STATUS.STATE ((k.val + 4) % 8)).key ∉ [R.T1S.SEG_STATUS.STATE k.val].map Fld.key ∧
    (R.T1S.SEG_STATUS.STATE k.val).key ∉ missedRegs.map Fld.key := by
  decide +revert

theorem segmentDown_completes (k : Fin 8) (s : State) (hup : s.dev.segUp k.val = true) (hmode : s.dev.on R.TOP.PROFILE_ACT.T1S_MODE = false) :
    Completes (.segmentDown k) s (fun t =>
      t.dev.get (R.T1S.SEG_STATUS.STATE k.val) = 3 ∧ (∀ c ∈ t.dev.vrd.pend, s.dev.onSeg k.val c = false)) := by
  obtain ⟨hl, hst⟩ := segFailed_facts k.isLt s.dev
  have hexec := exec_segmentDown k s
  unfold execSegmentDown at hexec
  generalize hd : segFailed k.val s.dev = d at hl hst
  have hmode' : d.on R.TOP.PROFILE_ACT.T1S_MODE = s.dev.on R.TOP.PROFILE_ACT.T1S_MODE :=
    congrArg (· == 1) (hl.get (f := R.TOP.PROFILE_ACT.T1S_MODE) (by decide) (downRegs k).1)
  have hon (c : FireCmd) : d.onSeg k.val c = s.dev.onSeg k.val c := by rw [Dev.onSeg, Dev.lane', hmode']; rfl
  have hcar : (d.carriers k.val).isEmpty = true := by
    unfold Dev.carriers
    rw [hmode', hmode]
    simp [hst]
  obtain ⟨hs, hgone⟩ := missedAll_facts (d.vrd.pend.filter (d.onSeg k.val)) d
  generalize he : each missed (d.vrd.pend.filter (d.onSeg k.val)) d = e at hs hgone
  refine completes_to hexec e ?_ ⟨?_, fun c hc => ?_⟩
  · dsimp only
    rw [if_neg (by rw [hup]; decide), show logEv 0x1102 k.val 3 0 (put (R.T1S.SEG_STATUS.STATE k.val) 3 s.dev) = segFailed k.val s.dev from rfl, hd,
      if_pos hcar, he]
  · exact (get_after ..).trans ((hs.get (segReg_book (statusReg k.isLt _ (by simp))) (downRegs k).2.2).trans hst)
  · obtain ⟨hin, hnot⟩ := hgone c hc
    rw [← hon c]
    by_contra hc'
    exact hnot (List.mem_filter.mpr ⟨hin, by simpa using hc'⟩)

theorem pairedDown_completes (k : Fin 8) (s : State) (hup : s.dev.segUp k.val = true) (hmode : s.dev.on R.TOP.PROFILE_ACT.T1S_MODE = true)
    (hother : s.dev.segUp ((k.val + 4) % 8) = true) :
    Completes (.segmentDown k) s (fun t => t.dev.get (R.T1S.SEG_STATUS.STATE k.val) = 3 ∧ t.dev.vrd.pend = s.dev.vrd.pend ∧
      Frame [R.T1S.SEG_STATUS.STATE k.val] s.dev s t) := by
  obtain ⟨hl, hst⟩ := segFailed_facts k.isLt s.dev
  have hexec := exec_segmentDown k s
  unfold execSegmentDown at hexec
  generalize hd : segFailed k.val s.dev = d at hl hst
  have hmode' : d.on R.TOP.PROFILE_ACT.T1S_MODE = s.dev.on R.TOP.PROFILE_ACT.T1S_MODE :=
    congrArg (· == 1) (hl.get (f := R.TOP.PROFILE_ACT.T1S_MODE) (by decide) (downRegs k).1)
  have hstate : d.get (R.T1S.SEG_STATUS.STATE ((k.val + 4) % 8)) = s.dev.get (R.T1S.SEG_STATUS.STATE ((k.val + 4) % 8)) :=
    hl.get (segReg_book (statusReg (k := (k.val + 4) % 8) (Nat.mod_lt _ (by decide)) _ (by simp))) (downRegs k).2.1
  have hcar : (d.carriers k.val).isEmpty = false := by
    refine List.isEmpty_eq_false_iff_exists_mem.mpr ⟨(k.val + 4) % 8, ?_⟩
    unfold Dev.carriers
    rw [hmode', hmode]
    refine List.mem_filter.mpr ⟨?_, ?_⟩
    · simp only [if_true, List.mem_cons, List.not_mem_nil, or_false]
      omega
    · rw [hstate]
      exact hother
  refine completes_to hexec d ?_ ⟨(get_after ..).trans hst, congrArg VrdS.pend (show d.vrd = _ from vrd_of_leaves hl), frame_of_leaves hl s⟩
  dsimp only
  rw [if_neg (by rw [hup]; decide), show logEv 0x1102 k.val 3 0 (put (R.T1S.SEG_STATUS.STATE k.val) 3 s.dev) = segFailed k.val s.dev from rfl, hd,
    if_neg (by rw [hcar]; exact Bool.false_ne_true)]

/-! ## The obligation -/

/-- Settles O45: what a segment sends, takes and loses, each command of its unit with what it leaves. -/
theorem segmentsCarryCommands : Obligations.SegmentsCarryCommands :=
  ⟨standbyBeacon_completes, idleOpportunity_completes, fireOpportunity_completes, csmaTransmit_completes, statusFrame_completes, stranger_completes,
    foreignAnnounce_completes, foreignBeacon_completes, collision_completes, csmaReturn_completes, segmentDown_completes, pairedDown_completes,
    silent_completes, phyError_completes⟩

end Sys2Proof.Proofs
end

section
/-!
The Carver: patches, networks, scores, validation, slices and the restore of a blob (R295 to R317).
-/
namespace Sys2Proof.Proofs
open Sys2Proof Sys2Proof.Machine

/-! ## Steps of the Carver -/

/-- What the Carver and the objects that it holds have of the device. -/
structure CarverPart where
  crv : CrvS := {}
  held : List ObjRec := []
  objQ : List ObjRec := []
  ras : RasS := {}
  ddr : DdrS := {}

/-- The device with another part of the Carver. -/
def withCarver (x : CarverPart) (d : Dev) : Dev := { d with crv := x.crv, held := x.held, objQ := x.objQ, ras := x.ras, ddr := x.ddr }

theorem setsPart_withCarver : SetsPart withCarver := fun _ _ => ⟨rfl, rfl⟩

/-- The Carver's part of a device. -/
def carverOf (d : Dev) : CarverPart := { crv := d.crv, held := d.held, objQ := d.objQ, ras := d.ras, ddr := d.ddr }

/-- From `d` to `e` only these registers, the books and the Carver's part have changed. -/
def CarverStep (fs : List Fld) (d e : Dev) : Prop := Upto withCarver fs d e

section
variable {fs gs : List Fld} {d e g : Dev}

theorem carverStep_of_leaves (h : Leaves fs d e) : CarverStep fs d e := upto_of_leaves setsPart_withCarver h

theorem carverStep_of_eq (h : ∀ x, withCarver x e = withCarver x d) : CarverStep [] d e := upto_of_eq h

theorem CarverStep.trans (h : CarverStep fs d e) (h' : CarverStep gs e g) : CarverStep (fs ++ gs) d g := Upto.trans h h'

theorem CarverStep.mono (h : CarverStep fs d e) (hs : ∀ f ∈ fs, f ∈ gs) : CarverStep gs d e := Upto.mono h fun f hf => List.mem_map_of_mem (hs f hf)

theorem CarverStep.get (h : CarverStep fs d e) {f : Fld} (hb : bookKey f.key = false) (hf : f.key ∉ fs.map Fld.key) : e.get f = d.get f :=
  (Upto.leaves h (carverOf d)).get hb hf

theorem CarverStep.frame (h : CarverStep fs d e) (s : State) : Frame fs (withCarver (carverOf e) d) s (s.after e) := frame_of_upto h s (carverOf e) rfl

theorem carverStep_each {α : Type} {F : α → Dev → Dev} (h : ∀ x d, CarverStep fs d (F x d)) (xs : List α) (d : Dev) : CarverStep fs d (each F xs d) := by
  induction xs generalizing d with
  | nil => exact (carverStep_of_eq fun _ => rfl).mono (by simp)
  | cons x xs ih => exact ((h x d).trans (ih (F x d))).mono (by simp)

theorem carverStep_refl (fs : List Fld) (d : Dev) : CarverStep fs d d := (carverStep_of_eq fun _ => rfl).mono (by simp)

theorem carverOf_of_leaves (h : Leaves fs d e) : carverOf e = carverOf d := by
  rw [carverOf, crv_of_leaves h, held_of_leaves h, objQ_of_leaves h, ras_of_leaves h, ddr_of_leaves h]
  rfl

end

/-! ## Counters and the queue's registers -/

theorem leaves_crvPerf (code n : Nat) (d : Dev) : Leaves [] d (crvPerf code n d) := leaves_perf 15 (by unfold PerfBase; omega) code n d

theorem leaves_crvStat (c n : Nat) (d : Dev) : Leaves [R.CRV.STAT.COUNT c] d (crvStat c n d) := leaves_put ..

theorem counted_crvStat (c n : Nat) (d : Dev) : Counted (R.CRV.STAT.COUNT c) n d (crvStat c n d) := get_put_self ..

theorem leaves_crvSlot {cat : Nat} (hc : cat < 16) (n : Nat) (d : Dev) : Leaves [] d (slot 15 0x1300000 cat n d) :=
  leaves_slot 15 (by unfold PerfBase; omega) hc n d

/-- The registers that show the queue. -/
def queueRegs : List Fld := [R.CRV.QUEUE.LEVEL, R.CRV.QUEUE.PEAK, R.CRV.NET_CTL.PENDING 0, R.CRV.NET_CTL.PENDING 1, R.CRV.NET_CTL.PENDING 2,
  R.CRV.NET_CTL.PENDING 3]

theorem leaves_peak (f : Fld) (v : Nat) (d : Dev) : Leaves [f] d (peak f v d) := by
  unfold peak
  split
  · exact leaves_put ..
  · exact (Leaves.refl d).mono (by simp)

/-- Requests of a network slot. -/
def pendingOf (n : Nat) (d : Dev) : Nat := (d.crv.queue.filter (fun r => r.net == n)).length + (d.crv.patches.filter (fun r => r.net == n)).length

theorem showQueue_eq (d : Dev) : showQueue d = each (fun n d => put (R.CRV.NET_CTL.PENDING n) (pendingOf n d) d) [0, 1, 2, 3]
    (peak R.CRV.QUEUE.PEAK d.crv.queue.length (put R.CRV.QUEUE.LEVEL d.crv.queue.length d)) := rfl

theorem showQueue_leaves (d : Dev) : Leaves queueRegs d (showQueue d) := by
  rw [showQueue_eq]
  generalize d.crv.queue.length = q
  have h0 : Leaves [R.CRV.QUEUE.LEVEL, R.CRV.QUEUE.PEAK] d (peak R.CRV.QUEUE.PEAK q (put R.CRV.QUEUE.LEVEL q d)) := (leaves_put ..).trans (leaves_peak ..)
  generalize peak R.CRV.QUEUE.PEAK q (put R.CRV.QUEUE.LEVEL q d) = e at h0 ⊢
  have hput (n : Nat) (e : Dev) : Leaves [R.CRV.NET_CTL.PENDING n] e (put (R.CRV.NET_CTL.PENDING n) (pendingOf n e) e) := leaves_put ..
  have h1 := hput 0 e
  rw [each]
  generalize put (R.CRV.NET_CTL.PENDING 0) _ e = e1 at h1 ⊢
  have h2 := hput 1 e1
  rw [each]
  generalize put (R.CRV.NET_CTL.PENDING 1) _ e1 = e2 at h2 ⊢
  have h3 := hput 2 e2
  rw [each]
  generalize put (R.CRV.NET_CTL.PENDING 2) _ e2 = e3 at h3 ⊢
  have h4 := hput 3 e3
  rw [each]
  generalize put (R.CRV.NET_CTL.PENDING 3) _ e3 = e4 at h4 ⊢
  exact h0.trans (h1.trans (h2.trans (h3.trans h4)))

/-! ## Unscored objects -/

/-- An object that is complete as unscored. -/
def objUnscored (o : ObjRec) : ObjRec := { o with waiting := false, flags := o.flags ||| 1024, score := [0, 0, 0, 0], scores := [] }

/-- The device after a held object has gone to the verdict unit. -/
def objMoved (id : Nat) (o : ObjRec) (d : Dev) : Dev := { d with held := d.held.filter (fun x => x.id != id), objQ := d.objQ ++ [o] }

/-- The counts of an unscored object. -/
def unscoreCounted (cause : Nat) (d : Dev) : Dev :=
  if cause = 6 then crvPerf 4 1 (crvPerf 3 1 (crvStat cause 1 d)) else crvPerf 3 1 (crvStat cause 1 d)

theorem unscoreCounted_facts (cause : Nat) (d : Dev) : Leaves [R.CRV.STAT.COUNT cause] d (unscoreCounted cause d) ∧
    (cause < 16 → Counted (R.CRV.STAT.COUNT cause) 1 d (unscoreCounted cause d)) := by
  have hl := leaves_crvStat cause 1 d
  have hn := counted_crvStat cause 1 d
  unfold unscoreCounted
  generalize crvStat cause 1 d = e at hl hn ⊢
  have hb (hc : cause < 16) : bookKey (R.CRV.STAT.COUNT cause).key = false := bookKey_area (by simp only [Fld.key, R.CRV.STAT.COUNT]; omega)
  have h3 := leaves_crvPerf 3 1 e
  generalize crvPerf 3 1 e = g at h3 ⊢
  have h4 := leaves_crvPerf 4 1 g
  split
  · exact ⟨hl.trans (h3.trans h4), fun hc => counted_of_get hn rfl ((h3.trans h4).get (hb hc) (by simp))⟩
  · exact ⟨hl.trans h3, fun hc => counted_of_get hn rfl (h3.get (hb hc) (by simp))⟩

theorem unscore_found {id cause : Nat} {o : ObjRec} {d : Dev} (h : d.held.find? (fun o => o.id == id) = some o) :
    unscore id cause d = unscoreCounted cause (objMoved id (objUnscored o) d) := by
  unfold unscore
  rw [h]
  rfl

theorem unscore_none {id cause : Nat} {d : Dev} (h : d.held.find? (fun o => o.id == id) = none) : unscore id cause d = d := by
  unfold unscore
  rw [h]

theorem carverStep_objMoved (id : Nat) (o : ObjRec) (d : Dev) : CarverStep [] d (objMoved id o d) := carverStep_of_eq fun _ => rfl

theorem unscore_step (id cause : Nat) (d : Dev) : CarverStep [R.CRV.STAT.COUNT cause] d (unscore id cause d) := by
  cases h : d.held.find? (fun o => o.id == id) with
  | none =>
    rw [unscore_none h]
    exact carverStep_refl ..
  | some o =>
    have hm := carverStep_objMoved id (objUnscored o) d
    rw [unscore_found h]
    generalize objMoved id (objUnscored o) d = e at hm ⊢
    exact hm.trans (carverStep_of_leaves (unscoreCounted_facts cause e).1)

/-- What an unscored object leaves. -/
structure Unscored (id cause : Nat) (o : ObjRec) (d e : Dev) : Prop where
  objQ : e.objQ = d.objQ ++ [objUnscored o]
  held : e.held = d.held.filter (fun x => x.id != id)
  crv : e.crv = d.crv
  count : cause < 16 → Counted (R.CRV.STAT.COUNT cause) 1 d e

theorem unscored_showQueue {id cause : Nat} {o : ObjRec} {d : Dev} (h : d.held.find? (fun o => o.id == id) = some o) :
    Unscored id cause o d (showQueue (unscore id cause d)) := by
  have hq : (objMoved id (objUnscored o) d).objQ = d.objQ ++ [objUnscored o] := rfl
  have hh : (objMoved id (objUnscored o) d).held = d.held.filter (fun x => x.id != id) := rfl
  have hcrv : (objMoved id (objUnscored o) d).crv = d.crv := rfl
  have hget : (objMoved id (objUnscored o) d).get (R.CRV.STAT.COUNT cause) = d.get (R.CRV.STAT.COUNT cause) := rfl
  rw [unscore_found h]
  generalize objMoved id (objUnscored o) d = e at hq hh hcrv hget ⊢
  obtain ⟨hl, hn⟩ := unscoreCounted_facts cause e
  generalize unscoreCounted cause e = g at hl hn ⊢
  have hs := showQueue_leaves g
  generalize showQueue g = t at hs ⊢
  have hb (hc : cause < 16) : bookKey (R.CRV.STAT.COUNT cause).key = false := bookKey_area (by simp only [Fld.key, R.CRV.STAT.COUNT]; omega)
  have hnot (hc : cause < 16) : (R.CRV.STAT.COUNT cause).key ∉ queueRegs.map Fld.key := by
    simp only [queueRegs, List.map_cons, List.map_nil, List.mem_cons, List.not_mem_nil, or_false, Fld.key, R.CRV.STAT.COUNT, R.CRV.QUEUE.LEVEL,
      R.CRV.QUEUE.PEAK, R.CRV.NET_CTL.PENDING]
    omega
  exact ⟨(objQ_of_leaves (hl.trans hs)).trans hq, (held_of_leaves (hl.trans hs)).trans hh, (crv_of_leaves (hl.trans hs)).trans hcrv,
    fun hc => counted_of_get (hn hc) hget (hs.get (hb hc) (hnot hc))⟩

theorem dropAged_none {d : Dev} (h : d.noneAged) : dropAged d = d := by
  unfold dropAged
  rw [List.filter_eq_nil_iff.mpr fun o ho => by rw [h o ho]; exact Bool.false_ne_true]
  rfl

/-! ## The window of a patch -/

/-- The cause for which a pixel of a window is lost. -/
def lostOf : SrcPx → Option Nat
  | .lost c => some c
  | _ => none

theorem lost_whole {ps : List SrcPx} (h : ps.all (fun p => !p.isLost) = true) : ps.filterMap lostOf = [] := by
  refine List.filterMap_eq_nil_iff.mpr fun p hp => ?_
  have := List.all_eq_true.mp h p hp
  cases p with
  | lost c => exact absurd this (by simp [SrcPx.isLost])
  | bytes b => rfl
  | pad => rfl

theorem lost_first {ps : List SrcPx} {c : Nat} (h : ps.find? SrcPx.isLost = some (.lost c)) : ∃ cs, ps.filterMap lostOf = c :: cs := by
  induction ps with
  | nil => simp at h
  | cons p ps ih =>
    cases p with
    | lost c' =>
      rw [List.find?_cons_of_pos rfl] at h
      obtain rfl := SrcPx.lost.inj (Option.some.inj h)
      exact ⟨_, rfl⟩
    | bytes b => exact ih (by simpa [SrcPx.isLost] using h)
    | pad => exact ih (by simpa [SrcPx.isLost] using h)

/-- The device whose Carver has taken the head of its queue. -/
def headTaken (rest : List CrvReq) (d : Dev) : Dev := { d with crv := { d.crv with queue := rest } }

theorem blob_headTaken (rest : List CrvReq) (d : Dev) (n : Nat) : (headTaken rest d).blob n = d.blob n := rfl

theorem readTag_headTaken (rest : List CrvReq) (d : Dev) (m : Mem) (r t : Nat) : (headTaken rest d).readTag m r t = d.readTag m r t := rfl

theorem readTileLine_headTaken (rest : List CrvReq) (d : Dev) (m : Mem) (r t l : Nat) :
    (headTaken rest d).readTileLine m r t l = d.readTileLine m r t l := rfl

theorem sourcePx_headTaken (rest : List CrvReq) (d : Dev) (m : Mem) (o : ObjRec) (ch : List (Nat × Nat)) (col k : Int) :
    sourcePx (headTaken rest d) m o ch col k = sourcePx d m o ch col k := by
  unfold sourcePx
  simp only [readTag_headTaken, readTileLine_headTaken]
  rfl

theorem windowPx_headTaken (rest : List CrvReq) (d : Dev) (m : Mem) (x : Blob) (f : Nat) (o : ObjRec) (ch : List (Nat × Nat)) :
    windowPx (headTaken rest d) m x f o ch = windowPx d m x f o ch := by
  unfold windowPx
  simp only [sourcePx_headTaken]

theorem wByte_headTaken (rest : List CrvReq) (d : Dev) (a : Nat) : (headTaken rest d).wByte a = d.wByte a := rfl

theorem chanSource_headTaken (rest : List CrvReq) (d : Dev) (x : Blob) (c : Nat) (p : SrcPx) :
    chanSource (headTaken rest d) x c p = chanSource d x c p := rfl

theorem patchOf_headTaken (rest : List CrvReq) (d : Dev) (x : Blob) (f : Nat) (win : List (List SrcPx)) :
    patchOf (headTaken rest d) x f win = patchOf d x f win := rfl

/-! ## Fetching a patch -/

/-- The device after a window's crop has been counted. -/
def cropCounted (crop : Bool) (d : Dev) : Dev := when crop (fun d => crvPerf 7 1 (crvStat 9 1 d)) d

/-- The device after `n` bytes of a window have been read. -/
def windowRead (n : Nat) (d : Dev) : Dev := meterUser 4 n (crvPerf 5 (n / 64) d)

/-- The device with one more patch. -/
def patchAdded (p : CrvPatch) (d : Dev) : Dev := { d with crv := { d.crv with patches := d.crv.patches ++ [p] } }

/-- What becomes of a window that has been read. -/
def windowDone (id : Nat) (p : CrvPatch) (bad : List Nat) (d : Dev) : Dev :=
  match bad with
  | c :: _ => showQueue (unscore id c d)
  | [] => showQueue (patchAdded p d)

/-- The causes for which a window is lost. -/
def lostCauses (win : List (List SrcPx)) : List Nat := win.flatMap (fun row => row.filterMap lostOf)

theorem lostCauses_eq (win : List (List SrcPx)) : lostCauses win = win.flatten.filterMap lostOf := by
  rw [lostCauses, List.filterMap_flatten, List.flatMap_def]

/-- The device after the reads of a request's window, with its scale. -/
def fetchRead (r : CrvReq) (d : Dev) (sc : Nat × Bool) : Dev :=
  windowRead (windowBytes (cropCounted sc.2 d) (d.blob r.net) sc.1 r.obj) (cropCounted sc.2 d)

/-- What becomes of a request that has left the queue. -/
def fetchTail (ch : List (Nat × Nat)) (m : Mem) (r : CrvReq) (d : Dev) : Dev :=
  if !d.held.any (fun h => h.id == r.obj.id) then showQueue d
  else if !d.crvRuns then showQueue (unscore r.obj.id 7 d)
  else if !d.on (R.CRV.NET_CTL.VALID r.net) then showQueue (unscore r.obj.id 3 d)
  else windowDone r.obj.id { obj := r.obj, net := r.net, data := patchOf d (d.blob r.net) (d.patchScale r) (d.patchWindow m r ch) }
    (lostCauses (d.patchWindow m r ch))
    (fetchRead r d (scaleOf (d.get (R.CRV.NET_RS.MODE r.net)) (d.blob r.net) r.obj))

section
variable {ch : List (Nat × Nat)} {m : Mem} {r : CrvReq} {rest : List CrvReq} {d : Dev} (hq : d.crv.queue = r :: rest)
  (hp : d.crv.patches.length < 8)
include hq hp

theorem patchFetch_held (hy : d.yields 4 = true) : patchFetch ch m d = holdReads d := by
  unfold patchFetch
  rw [hq]
  dsimp only
  rw [if_neg (Nat.not_le.mpr hp), if_pos hy]

theorem patchFetch_taken (hy : d.yields 4 = false) : patchFetch ch m d = fetchTail ch m r (headTaken rest d) := by
  unfold patchFetch
  rw [hq]
  dsimp only
  rw [if_neg (Nat.not_le.mpr hp), if_neg (by rw [hy]; exact Bool.false_ne_true)]
  rfl

theorem patchFetch_invalid (hy : d.yields 4 = false) (hh : d.held.any (fun h => h.id == r.obj.id) = true) (hr : d.crvRuns = true)
    (hv : d.on (R.CRV.NET_CTL.VALID r.net) = false) : patchFetch ch m d = showQueue (unscore r.obj.id 3 (headTaken rest d)) := by
  have hh' : (headTaken rest d).held.any (fun h => h.id == r.obj.id) = true := hh
  have hr' : (headTaken rest d).crvRuns = true := hr
  have hv' : (headTaken rest d).on (R.CRV.NET_CTL.VALID r.net) = false := hv
  rw [patchFetch_taken hq hp hy]
  unfold fetchTail
  rw [hh', hr', hv']
  rfl

theorem patchFetch_valid (hy : d.yields 4 = false) (hh : d.held.any (fun h => h.id == r.obj.id) = true) (hr : d.crvRuns = true)
    (hv : d.on (R.CRV.NET_CTL.VALID r.net) = true) : patchFetch ch m d =
      windowDone r.obj.id { obj := r.obj, net := r.net, data := patchOf d (d.blob r.net) (d.patchScale r) (d.patchWindow m r ch) }
        ((d.patchWindow m r ch).flatten.filterMap lostOf) 
        (fetchRead r (headTaken rest d) (scaleOf (d.get (R.CRV.NET_RS.MODE r.net)) (d.blob r.net) r.obj)) := by
  have hh' : (headTaken rest d).held.any (fun h => h.id == r.obj.id) = true := hh
  have hr' : (headTaken rest d).crvRuns = true := hr
  have hv' : (headTaken rest d).on (R.CRV.NET_CTL.VALID r.net) = true := hv
  have hwin : (headTaken rest d).patchWindow m r ch = d.patchWindow m r ch := windowPx_headTaken ..
  have hscale : (headTaken rest d).patchScale r = d.patchScale r := rfl
  have hmode : (headTaken rest d).get (R.CRV.NET_RS.MODE r.net) = d.get (R.CRV.NET_RS.MODE r.net) := rfl
  rw [patchFetch_taken hq hp hy, fetchTail, hh', hr', hv', hwin, hscale, hmode, patchOf_headTaken, blob_headTaken, lostCauses_eq]
  rfl

end

/-- What the reads of a window leave. -/
theorem fetchRead_facts (r : CrvReq) (d : Dev) (sc : Nat × Bool) : (fetchRead r d sc).crv = d.crv ∧ (fetchRead r d sc).held = d.held ∧
    (fetchRead r d sc).objQ = d.objQ ∧ ∀ c, c < 9 → (fetchRead r d sc).get (R.CRV.STAT.COUNT c) = d.get (R.CRV.STAT.COUNT c) := by
  have hcrop : Leaves [R.CRV.STAT.COUNT 9] d (cropCounted sc.2 d) := by
    unfold cropCounted
    cases sc.2
    · exact (Leaves.refl d).mono (by simp)
    · exact (leaves_crvStat 9 1 d).trans (leaves_crvPerf 7 1 _)
  unfold fetchRead windowRead
  generalize windowBytes (cropCounted sc.2 d) (d.blob r.net) sc.1 r.obj = n
  generalize cropCounted sc.2 d = e at hcrop ⊢
  have hperf := leaves_crvPerf 5 (n / 64) e
  generalize crvPerf 5 (n / 64) e = g at hperf ⊢
  have hl := hcrop.trans hperf
  have hcrv : g.crv = d.crv := crv_of_leaves hl
  have hheld : g.held = d.held := held_of_leaves hl
  have hobj : g.objQ = d.objQ := objQ_of_leaves hl
  refine ⟨hcrv, hheld, hobj, fun c hc => hl.get (bookKey_area ?_) ?_⟩
  · simp only [Fld.key, R.CRV.STAT.COUNT]
    omega
  · simp only [List.append_nil, List.map_cons, List.map_nil, List.mem_singleton, Fld.key, R.CRV.STAT.COUNT]
    omega

theorem patch_completes (ch : List (Nat × Nat)) (r : CrvReq) (rest : List CrvReq) (s : State) (hq : s.dev.crv.queue = r :: rest)
    (hp : s.dev.crv.patches.length < 8) (hage : s.dev.noneAged) (hy : s.dev.yields 4 = false)
    (hh : s.dev.held.any (fun h => h.id == r.obj.id) = true) (hr : s.dev.crvRuns = true) (hv : s.dev.on (R.CRV.NET_CTL.VALID r.net) = true)
    (hwin : (s.dev.patchWindow s.mem r ch).all (fun row => row.all (fun p => !p.isLost)) = true) :
    Completes (.patchFetch ch) s (fun t =>
      t.dev.crv.queue = rest ∧
      t.dev.crv.patches = s.dev.crv.patches ++
        [{ obj := r.obj, net := r.net, data := patchOf s.dev (s.dev.blob r.net) (s.dev.patchScale r) (s.dev.patchWindow s.mem r ch) }] ∧
      t.dev.held = s.dev.held ∧ t.dev.objQ = s.dev.objQ) := by
  have heq := patchFetch_valid (ch := ch) (m := s.mem) hq hp hy hh hr hv
  generalize CrvPatch.mk r.obj r.net (patchOf s.dev (s.dev.blob r.net) (s.dev.patchScale r) (s.dev.patchWindow s.mem r ch)) = p at heq ⊢
  have hwhole : (s.dev.patchWindow s.mem r ch).flatten.filterMap lostOf = [] := lost_whole (by rw [List.all_flatten]; exact hwin)
  obtain ⟨hcrv, hheld, hobj, -⟩ := fetchRead_facts r (headTaken rest s.dev) (scaleOf (s.dev.get (R.CRV.NET_RS.MODE r.net)) (s.dev.blob r.net) r.obj)
  generalize fetchRead r (headTaken rest s.dev) _ = g at heq hcrv hheld hobj
  rw [hwhole] at heq
  dsimp only [windowDone] at heq
  have hadd : (patchAdded p g).crv = { g.crv with patches := g.crv.patches ++ [p] } ∧ (patchAdded p g).held = g.held ∧ (patchAdded p g).objQ = g.objQ :=
    ⟨rfl, rfl, rfl⟩
  generalize patchAdded p g = g1 at heq hadd
  have hs := showQueue_leaves g1
  generalize showQueue g1 = e at heq hs
  obtain ⟨hc1, hh1, ho1⟩ := hadd
  have hc : e.crv = { g.crv with patches := g.crv.patches ++ [p] } := (crv_of_leaves hs).trans hc1
  refine completes_to (exec_patchFetch ..) e (by rw [dropAged_none hage, heq]) ⟨?_, ?_, ?_, ?_⟩
  · rw [after_crv, hc, hcrv]
    rfl
  · rw [after_crv, hc, hcrv]
    rfl
  · rw [after_held, held_of_leaves hs, hh1, hheld]
    rfl
  · rw [after_objQ, objQ_of_leaves hs, ho1, hobj]
    rfl

theorem any_of_find {p : ObjRec → Bool} {xs : List ObjRec} {o : ObjRec} (h : xs.find? p = some o) : xs.any p = true :=
  List.any_eq_true.mpr ⟨o, List.mem_of_find?_eq_some h, List.find?_some h⟩

theorem lostPatch_completes (ch : List (Nat × Nat)) (r : CrvReq) (rest : List CrvReq) (o : ObjRec) (c : Nat) (s : State)
    (hq : s.dev.crv.queue = r :: rest) (hp : s.dev.crv.patches.length < 8) (hage : s.dev.noneAged) (hy : s.dev.yields 4 = false)
    (ho : s.dev.held.find? (fun h => h.id == r.obj.id) = some o) (hr : s.dev.crvRuns = true) (hv : s.dev.on (R.CRV.NET_CTL.VALID r.net) = true)
    (hlost : (s.dev.patchWindow s.mem r ch).flatten.find? SrcPx.isLost = some (.lost c)) :
    Completes (.patchFetch ch) s (fun t =>
      t.dev.objQ = s.dev.objQ ++ [{ o with waiting := false, flags := o.flags ||| 1024, score := [0, 0, 0, 0], scores := [] }] ∧
      t.dev.held = s.dev.held.filter (fun x => x.id != r.obj.id) ∧ t.dev.crv.patches = s.dev.crv.patches ∧
      ((c = 4 ∨ c = 5) → Counted (R.CRV.STAT.COUNT c) 1 s.dev t.dev)) := by
  have heq := patchFetch_valid (ch := ch) (m := s.mem) hq hp hy (any_of_find ho) hr hv
  obtain ⟨cs, hcs⟩ := lost_first hlost
  obtain ⟨hcrv, hheld, hobj, hget⟩ := fetchRead_facts r (headTaken rest s.dev) (scaleOf (s.dev.get (R.CRV.NET_RS.MODE r.net)) (s.dev.blob r.net) r.obj)
  generalize fetchRead r (headTaken rest s.dev) _ = g at heq hcrv hheld hobj hget
  rw [hcs] at heq
  dsimp only [windowDone] at heq
  have hfind : g.held.find? (fun h => h.id == r.obj.id) = some o := by rw [hheld]; exact ho
  have hu := unscored_showQueue (cause := c) hfind
  generalize showQueue (unscore r.obj.id c g) = e at heq hu
  refine completes_to (exec_patchFetch ..) e (by rw [dropAged_none hage, heq]) ⟨?_, ?_, ?_, fun hc => ?_⟩
  · rw [after_objQ, hu.objQ, hobj]
    rfl
  · rw [after_held, hu.held, hheld]
    rfl
  · rw [after_crv, hu.crv, hcrv]
    rfl
  · exact counted_of_get (hu.count (by omega)) (hget c (by omega)) (get_after ..)

theorem invalidPatch_completes (ch : List (Nat × Nat)) (r : CrvReq) (rest : List CrvReq) (o : ObjRec) (s : State)
    (hq : s.dev.crv.queue = r :: rest) (hp : s.dev.crv.patches.length < 8) (hage : s.dev.noneAged) (hy : s.dev.yields 4 = false)
    (ho : s.dev.held.find? (fun h => h.id == r.obj.id) = some o) (hr : s.dev.crvRuns = true) (hv : s.dev.on (R.CRV.NET_CTL.VALID r.net) = false) :
    Completes (.patchFetch ch) s (fun t =>
      t.dev.objQ = s.dev.objQ ++ [{ o with waiting := false, flags := o.flags ||| 1024, score := [0, 0, 0, 0], scores := [] }] ∧
      t.dev.held = s.dev.held.filter (fun x => x.id != r.obj.id) ∧ Counted (R.CRV.STAT.COUNT 3) 1 s.dev t.dev) := by
  have heq := patchFetch_invalid (ch := ch) (m := s.mem) hq hp hy (any_of_find ho) hr hv
  have hu := unscored_showQueue (id := r.obj.id) (cause := 3) (d := headTaken rest s.dev) ho
  generalize showQueue (unscore r.obj.id 3 (headTaken rest s.dev)) = e at heq hu
  exact completes_to (exec_patchFetch ..) e (by rw [dropAged_none hage, heq])
    ⟨(after_objQ ..).trans hu.objQ, (after_held ..).trans hu.held, counted_of_get (hu.count (by decide)) rfl (get_after ..)⟩

theorem heldPatch_completes (ch : List (Nat × Nat)) (r : CrvReq) (rest : List CrvReq) (s : State) (hq : s.dev.crv.queue = r :: rest)
    (hp : s.dev.crv.patches.length < 8) (hage : s.dev.noneAged) (hy : s.dev.yields 4 = true) :
    Completes (.patchFetch ch) s (fun t =>
      Raised R.TOP.DRAM_YIELD.SEQ [R.TOP.DRAM_YIELD.TILES] s.dev t.dev ∧
      Frame [R.TOP.DRAM_YIELD.SEQ, R.TOP.DRAM_YIELD.TILES] { s.dev with yielding := t.dev.yielding } s t) := by
  have heq := patchFetch_held (ch := ch) (m := s.mem) hq hp hy
  have hhold : holdReads s.dev = event 0 R.TOP.DRAM_YIELD.SEQ [R.TOP.DRAM_YIELD.TILES]
    (withYielding (setFlag 4 true (setFlag 7 true s.dev.yielding)) s.dev) := rfl
  have hu := upto_hold (flag := R.TOP.DRAM_YIELD.TILES) (setFlag 4 true (setFlag 7 true s.dev.yielding)) s.dev
  have hraise : Raised R.TOP.DRAM_YIELD.SEQ [R.TOP.DRAM_YIELD.TILES] s.dev (event 0 R.TOP.DRAM_YIELD.SEQ [R.TOP.DRAM_YIELD.TILES]
    (withYielding (setFlag 4 true (setFlag 7 true s.dev.yielding)) s.dev)) := raised_event (by decide) (by decide) (by decide) rfl
  generalize event 0 _ _ _ = e at hhold hu hraise
  exact completes_to (exec_patchFetch ..) e (by rw [dropAged_none hage, heq, hhold]) ⟨raised_after hraise s, frame_of_upto hu s e.yielding rfl⟩

/-! ## Computing a patch, and its scores -/

/-- The device without its first patch. -/
def patchTaken (rest : List CrvPatch) (d : Dev) : Dev := { d with crv := { d.crv with patches := rest } }

/-- The result of a patch. -/
def resultOf (p : CrvPatch) (d : Dev) : CrvResult :=
  { id := p.obj.id, net := p.net, clocks := d.netClocks (d.blob p.net) (d.get R.CRV.SLICES.ACTIVE), scores := d.scoresOf p }

/-- The device with one more result. -/
def resultAdded (x : CrvResult) (used : Nat) (d : Dev) : Dev :=
  { d with crv := { d.crv with results := d.crv.results ++ [x] }, free := d.free + used }

/-- What becomes of a patch that has been computed. -/
def computeTail (p : CrvPatch) (x : CrvResult) (used : Nat) (d : Dev) : Dev :=
  if !d.held.any (fun h => h.id == p.obj.id) then d
  else if !d.crvRuns then unscore p.obj.id 7 d
  else if !d.on (R.CRV.NET_CTL.VALID p.net) then unscore p.obj.id 3 d
  else resultAdded x used d

theorem patchCompute_runs {p : CrvPatch} {rest : List CrvPatch} {d : Dev} (hp : d.crv.patches = p :: rest)
    (hh : d.held.any (fun h => h.id == p.obj.id) = true) (hr : d.crvRuns = true) (hv : d.on (R.CRV.NET_CTL.VALID p.net) = true) (hn : p.net < 4) :
    ∃ used, patchCompute d = resultAdded (resultOf p d) used (showQueue (patchTaken rest d)) := by
  have hs := showQueue_leaves (patchTaken rest d)
  have heq : patchCompute d = computeTail p (resultOf p d) (if flag d.crv.tainted p.net then (d.blob p.net).nScores else 0)
      (showQueue (patchTaken rest d)) := by
    unfold patchCompute
    rw [hp]
    rfl
  have h0 : (patchTaken rest d).held = d.held := rfl
  have hg (f : Fld) : (patchTaken rest d).get f = d.get f := rfl
  generalize patchTaken rest d = d1 at hs h0 hg heq ⊢
  generalize showQueue d1 = e at hs heq ⊢
  have hkeep : ∀ f ∈ [R.CRV.CTL.EN, R.CRV.STATUS.STATE, R.CRV.NET_CTL.VALID p.net], e.get f = d.get f := by
    intro f hf
    refine (hs.get ?_ ?_).trans (hg f)
    · revert f
      simp only [List.mem_cons, List.not_mem_nil, or_false, forall_eq_or_imp, forall_eq]
      exact ⟨by decide, by decide, bookKey_area (by simp only [Fld.key, R.CRV.NET_CTL.VALID]; omega)⟩
    · revert f
      simp only [List.mem_cons, List.not_mem_nil, or_false, forall_eq_or_imp, forall_eq, queueRegs, List.map_cons, List.map_nil, Fld.key, R.CRV.CTL.EN,
        R.CRV.STATUS.STATE, R.CRV.NET_CTL.VALID, R.CRV.QUEUE.LEVEL, R.CRV.QUEUE.PEAK, R.CRV.NET_CTL.PENDING]
      omega
  have hr' : e.crvRuns = true := by
    rw [Dev.crvRuns, Dev.on, hkeep _ (by simp), hkeep _ (by simp)]
    exact hr
  have hv' : e.on (R.CRV.NET_CTL.VALID p.net) = true := by
    rw [Dev.on, hkeep _ (by simp)]
    exact hv
  have hh' : e.held.any (fun h => h.id == p.obj.id) = true := by
    rw [held_of_leaves hs, h0]
    exact hh
  refine ⟨if flag d.crv.tainted p.net then (d.blob p.net).nScores else 0, heq.trans ?_⟩
  rw [computeTail, hh', hr', hv']
  rfl

theorem scoresOf_clean {p : CrvPatch} {d : Dev} (h : flag d.crv.tainted p.net = false) : d.scoresOf p = runNet d (d.blob p.net) p.data := by
  unfold Dev.scoresOf
  rw [h]
  rfl

theorem scoresOf_tainted {p : CrvPatch} {d : Dev} (h : flag d.crv.tainted p.net = true) : (d.scoresOf p).length = (d.blob p.net).nScores := by
  unfold Dev.scoresOf
  rw [h]
  simp

theorem patchCompute_completes (p : CrvPatch) (rest : List CrvPatch) (s : State) (hp : s.dev.crv.patches = p :: rest)
    (hh : s.dev.held.any (fun h => h.id == p.obj.id) = true) (hage : s.dev.noneAged) (hr : s.dev.crvRuns = true)
    (hv : s.dev.on (R.CRV.NET_CTL.VALID p.net) = true) (hn : p.net < 4) (hmeet : s.dev.blobsMeet = false) :
    Completes .patchCompute s (fun t =>
      t.dev.crv.patches = rest ∧
      t.dev.crv.results = s.dev.crv.results ++ [{ id := p.obj.id, net := p.net,
                                                   clocks := s.dev.netClocks (s.dev.blob p.net) (s.dev.get R.CRV.SLICES.ACTIVE),
                                                   scores := s.dev.scoresOf p }] ∧
      (flag s.dev.crv.tainted p.net = false → s.dev.scoresOf p = runNet s.dev (s.dev.blob p.net) p.data) ∧
      (flag s.dev.crv.tainted p.net = true → (s.dev.scoresOf p).length = (s.dev.blob p.net).nScores)) := by
  obtain ⟨used, heq⟩ := patchCompute_runs hp hh hr hv hn
  have hs := showQueue_leaves (patchTaken rest s.dev)
  have h0 : (patchTaken rest s.dev).crv = { s.dev.crv with patches := rest } := rfl
  generalize patchTaken rest s.dev = d1 at hs h0 heq
  generalize showQueue d1 = d2 at hs heq
  have hcrv : (resultAdded (resultOf p s.dev) used d2).crv = { d2.crv with results := d2.crv.results ++ [resultOf p s.dev] } := rfl
  generalize hx : resultOf p s.dev = x at heq hcrv
  generalize resultAdded x used d2 = e at heq hcrv
  have hd2 : d2.crv = { s.dev.crv with patches := rest } := (crv_of_leaves hs).trans h0
  refine completes_run (exec_patchCompute ..) (d := e) ?_ ⟨?_, ?_, scoresOf_clean, scoresOf_tainted⟩
  · rw [if_neg (by rw [hmeet]; exact Bool.false_ne_true), dropAged_none hage, heq]
  · rw [after_crv, hcrv, hd2]
  · rw [after_crv, hcrv, hd2, ← hx]
    rfl

/-- The device without its first result. -/
def resultTaken (rest : List CrvResult) (d : Dev) : Dev := { d with crv := { d.crv with results := rest } }

/-- An object with its scores. -/
def objScored (r : CrvResult) (idx : Nat) (o : ObjRec) : ObjRec :=
  { o with waiting := false, scores := r.scores
           score := [nth 0 r.scores (bits idx 0 4), nth 0 r.scores (bits idx 4 4), nth 0 r.scores (bits idx 8 4), nth 0 r.scores (bits idx 12 4)] }

/-- The counts of an object's scores. -/
def scoresCounted (clocks : Nat) (d : Dev) : Dev := slot 15 0x1300000 0 clocks (crvPerf 2 1 (crvStat 1 1 d))

theorem deliverScores_found {r : CrvResult} {rest : List CrvResult} {o : ObjRec} {d : Dev} (hr : d.crv.results = r :: rest) (hage : d.noneAged)
    (ho : d.held.find? (fun o => o.id == r.id) = some o) :
    deliverScores d = scoresCounted r.clocks (objMoved r.id (objScored r (d.get (R.CRV.NET_SCORE.IDX r.net)) o) (resultTaken rest d)) := by
  have hdrop : dropAged (resultTaken rest d) = resultTaken rest d := dropAged_none hage
  have heq : deliverScores d = (fun e : Dev => match e.held.find? (fun o => o.id == r.id) with
      | none => slot 15 0x1300000 1 r.clocks (crvPerf 8 1 (crvStat 8 1 e))
      | some o => scoresCounted r.clocks (objMoved r.id (objScored r (e.get (R.CRV.NET_SCORE.IDX r.net)) o) e)) (dropAged (resultTaken rest d)) := by
    unfold deliverScores
    rw [hr]
    rfl
  have ho' : (resultTaken rest d).held.find? (fun o => o.id == r.id) = some o := ho
  have hidx : (resultTaken rest d).get (R.CRV.NET_SCORE.IDX r.net) = d.get (R.CRV.NET_SCORE.IDX r.net) := rfl
  rw [heq, hdrop]
  dsimp only
  rw [ho', hidx]

theorem objScored_score (r : CrvResult) (idx : Nat) (o : ObjRec) : ∀ i < 4, nth 0 (objScored r idx o).score i = nth 0 r.scores (bits idx (4 * i) 4)
  | 0, _ => rfl
  | 1, _ => rfl
  | 2, _ => rfl
  | 3, _ => rfl
  | i + 4, h => absurd h (by omega)

theorem scores_completes (r : CrvResult) (rest : List CrvResult) (o : ObjRec) (s : State) (hr : s.dev.crv.results = r :: rest)
    (hage : s.dev.noneAged) (ho : s.dev.held.find? (fun o => o.id == r.id) = some o) :
    Completes .scores s (fun t =>
      t.dev.crv.results = rest ∧ t.dev.held = s.dev.held.filter (fun x => x.id != r.id) ∧
      (∃ q : ObjRec, t.dev.objQ = s.dev.objQ ++ [q] ∧ q.id = o.id ∧ q.scores = r.scores ∧ q.waiting = false ∧ q.flags = o.flags ∧
        (∀ i < 4, nth 0 q.score i = nth 0 r.scores (bits (s.dev.get (R.CRV.NET_SCORE.IDX r.net)) (4 * i) 4))) ∧
      Counted (R.CRV.STAT.COUNT 1) 1 s.dev t.dev ∧
      Frame [R.CRV.STAT.COUNT 1] { s.dev with crv := t.dev.crv, held := t.dev.held, objQ := t.dev.objQ } s t) := by
  have heq := deliverScores_found hr hage ho
  have hscore := objScored_score r (s.dev.get (R.CRV.NET_SCORE.IDX r.net)) o
  have hfields : (objScored r (s.dev.get (R.CRV.NET_SCORE.IDX r.net)) o).id = o.id ∧
      (objScored r (s.dev.get (R.CRV.NET_SCORE.IDX r.net)) o).scores = r.scores ∧
      (objScored r (s.dev.get (R.CRV.NET_SCORE.IDX r.net)) o).waiting = false ∧
      (objScored r (s.dev.get (R.CRV.NET_SCORE.IDX r.net)) o).flags = o.flags := ⟨rfl, rfl, rfl, rfl⟩
  generalize objScored r (s.dev.get (R.CRV.NET_SCORE.IDX r.net)) o = q at heq hscore hfields
  obtain ⟨hid, hscores, hwait, hflags⟩ := hfields
  have hstep : CarverStep [] s.dev (objMoved r.id q (resultTaken rest s.dev)) := carverStep_of_eq fun _ => rfl
  have hpart : carverOf (objMoved r.id q (resultTaken rest s.dev)) = { carverOf s.dev with
      crv := { s.dev.crv with results := rest }, held := s.dev.held.filter (fun x => x.id != r.id), objQ := s.dev.objQ ++ [q] } := rfl
  generalize objMoved r.id q (resultTaken rest s.dev) = d1 at heq hstep hpart
  have hl : Leaves [R.CRV.STAT.COUNT 1] d1 (scoresCounted r.clocks d1) :=
    (leaves_crvStat 1 1 d1).trans ((leaves_crvPerf 2 1 _).trans (leaves_crvSlot (by decide) r.clocks _))
  have hcount : Counted (R.CRV.STAT.COUNT 1) 1 d1 (scoresCounted r.clocks d1) :=
    counted_of_get (counted_crvStat 1 1 d1) rfl (((leaves_crvPerf 2 1 _).trans (leaves_crvSlot (by decide) r.clocks _)).get (by decide) (by simp))
  generalize scoresCounted r.clocks d1 = e at heq hl hcount
  have hpart' := (carverOf_of_leaves hl).trans hpart
  have hcrv : e.crv = { s.dev.crv with results := rest } := congrArg CarverPart.crv hpart'
  have hheld : e.held = s.dev.held.filter (fun x => x.id != r.id) := congrArg CarverPart.held hpart'
  have hobj : e.objQ = s.dev.objQ ++ [q] := congrArg CarverPart.objQ hpart'
  have hras : e.ras = s.dev.ras := congrArg CarverPart.ras hpart'
  have hddr : e.ddr = s.dev.ddr := congrArg CarverPart.ddr hpart'
  have hframe := (hstep.trans (carverStep_of_leaves hl)).frame s
  rw [carverOf, hras, hddr] at hframe
  refine completes_to (exec_scores ..) e heq ⟨?_, (after_held ..).trans hheld, ⟨q, (after_objQ ..).trans hobj, hid, hscores, hwait, hflags, hscore⟩,
    counted_of_get hcount (hstep.get (by decide) (by simp)) (get_after ..), hframe⟩
  rw [after_crv, hcrv]

/-! ## Ageing -/

/-- The device without an object's requests and patches. -/
def requestsDropped (id : Nat) (d : Dev) : Dev :=
  { d with crv := { d.crv with queue := d.crv.queue.filter (fun r => r.obj.id != id), patches := d.crv.patches.filter (fun p => p.obj.id != id) } }

theorem ageExpiry_completes (o h : ObjRec) (rest : List ObjRec) (e : Dev) (s : State) (hheld : s.dev.held = o :: rest)
    (he : e = reachNs o.handed (s.dev.get R.CRV.AGE.NS) s.dev) (ho : e.held.find? (fun x => x.id == o.id) = some h) :
    Completes .ageExpiry s (fun t =>
      t.dev.objQ = e.objQ ++ [{ h with waiting := false, flags := h.flags ||| 1024, score := [0, 0, 0, 0], scores := [] }] ∧
      t.dev.held = e.held.filter (fun x => x.id != o.id) ∧ t.dev.crv.queue = e.crv.queue.filter (fun r => r.obj.id != o.id) ∧
      Counted (R.CRV.STAT.COUNT 6) 1 e t.dev) := by
  have hu := unscored_showQueue (id := o.id) (cause := 6) (d := requestsDropped o.id e) ho
  have hq : (requestsDropped o.id e).crv.queue = e.crv.queue.filter (fun r => r.obj.id != o.id) := rfl
  have hgive : giveUp o.id e = showQueue (unscore o.id 6 (requestsDropped o.id e)) := rfl
  generalize showQueue (unscore o.id 6 (requestsDropped o.id e)) = g at hu hgive
  refine completes_to (exec_ageExpiry ..) g ?_ ⟨(after_objQ ..).trans hu.objQ, (after_held ..).trans hu.held, ?_,
    counted_of_get (hu.count (by decide)) rfl (get_after ..)⟩
  · unfold ageExpiry
    rw [hheld]
    dsimp only
    rw [← he, hgive]
  · rw [after_crv, hu.crv, hq]

/-! ## Validation -/

/-- The device with another state of the Carver. -/
def withCrv (x : CrvS) (d : Dev) : Dev := { d with crv := x }

/-- The device with other validations under way. -/
def validatingSet (x y : KMap Bool) (d : Dev) : Dev := withCrv { d.crv with validating := x, tainted := y } d

/-- A frame of the Carver's state alone. -/
theorem carverFrame {fs : List Fld} {x : CrvS} {d e : Dev} (h : Leaves fs (withCrv x d) e) (s : State) :
    Frame fs { d with crv := (s.after e).dev.crv } s (s.after e) := by
  have hcrv : e.crv = x := crv_of_leaves h
  have hf := frame_of_leaves h s
  rw [← hcrv] at hf
  exact hf

theorem validate_completes (n : Fin 4) (s : State) : Completes (.validate n) s (fun t =>
    flag t.dev.crv.validating n.val = true ∧ Frame [] { s.dev with crv := t.dev.crv } s t) := by
  have heq : validateStart n.val s.dev = validatingSet (setFlag n.val true s.dev.crv.validating) s.dev.crv.tainted s.dev := rfl
  have hflag := flag_setFlag n.val true s.dev.crv.validating
  generalize setFlag n.val true s.dev.crv.validating = x at heq hflag
  have hv : (validatingSet x s.dev.crv.tainted s.dev).crv.validating = x := rfl
  have hl : Leaves [] (withCrv { s.dev.crv with validating := x, tainted := s.dev.crv.tainted } s.dev) (validatingSet x s.dev.crv.tainted s.dev) :=
    Leaves.refl _
  generalize validatingSet x s.dev.crv.tainted s.dev = e at heq hv hl
  refine completes_to (exec_validate ..) e heq ⟨?_, carverFrame hl s⟩
  rw [after_crv, hv]
  exact hflag

theorem blobErr_validatingSet (x y : KMap Bool) (d : Dev) (n : Nat) : blobErr (validatingSet x y d) n = blobErr d n := rfl

theorem blobErr_le (d : Dev) (n : Nat) : blobErr d n ≤ 4 := by
  unfold blobErr
  dsimp only
  repeat' split
  all_goals decide

/-- The device at the end of a check. -/
def checkEnded (n : Nat) (d : Dev) : Dev := validatingSet (setFlag n false d.crv.validating) (setFlag n false d.crv.tainted) d

/-- The fields of a valid blob. -/
def validFields (n : Nat) (d : Dev) : List (Fld × Nat) :=
  [(R.CRV.NET_CTL.VALID n, 1), (R.CRV.NET_CTL.ERR n, 0), (R.CRV.NET_INFO.NLAYERS n, (d.blob n).nLayers),
    (R.CRV.NET_INFO.NSCORES n, (d.blob n).nScores), (R.CRV.NET_INFO.CLOCKS n, d.netClocks (d.blob n) 16)]

theorem validateEnd_valid {n : Nat} {d : Dev} (h : blobErr (checkEnded n d) n = 0) :
    validateEnd n d = puts (validFields n (checkEnded n d)) (checkEnded n d) := by
  refine (?_ : (if blobErr (checkEnded n d) n = 0 then puts (validFields n (checkEnded n d)) (checkEnded n d) else _) = _)
  exact if_pos h

theorem validateEnd_invalid {n : Nat} {d : Dev} (h : blobErr (checkEnded n d) n ≠ 0) :
    validateEnd n d = event 15 R.CRV.STATUS.SEQ [R.CRV.STATUS.NET_ERR]
      (puts [(R.CRV.NET_CTL.VALID n, 0), (R.CRV.NET_CTL.ERR n, blobErr (checkEnded n d) n)] (checkEnded n d)) := by
  refine (?_ : (if blobErr (checkEnded n d) n = 0 then _ else event 15 R.CRV.STATUS.SEQ [R.CRV.STATUS.NET_ERR]
      (puts [(R.CRV.NET_CTL.VALID n, 0), (R.CRV.NET_CTL.ERR n, blobErr (checkEnded n d) n)] (checkEnded n d))) = _)
  exact if_neg h

/-- What the check of a valid blob shows. -/
theorem validFields_shown (n : Nat) (d e : Dev) : (puts (validFields n d) e).get (R.CRV.NET_CTL.VALID n) = 1 ∧
    (puts (validFields n d) e).get (R.CRV.NET_CTL.ERR n) = 0 := by
  have hkeys : (R.CRV.NET_CTL.VALID n).key ≠ (R.CRV.NET_CTL.ERR n).key ∧ ∀ f ∈ [R.CRV.NET_CTL.VALID n, R.CRV.NET_CTL.ERR n],
      f.key ≠ (R.CRV.NET_INFO.NLAYERS n).key ∧ f.key ≠ (R.CRV.NET_INFO.NSCORES n).key ∧ f.key ≠ (R.CRV.NET_INFO.CLOCKS n).key := by
    simp only [List.mem_cons, List.not_mem_nil, or_false, forall_eq_or_imp, forall_eq, Fld.key, R.CRV.NET_CTL.VALID, R.CRV.NET_CTL.ERR,
      R.CRV.NET_INFO.NLAYERS, R.CRV.NET_INFO.NSCORES, R.CRV.NET_INFO.CLOCKS]
    omega
  obtain ⟨hne, hinfo⟩ := hkeys
  have hrest : ∀ f ∈ [R.CRV.NET_CTL.VALID n, R.CRV.NET_CTL.ERR n], (puts (validFields n d) e).get f =
      (put (R.CRV.NET_CTL.ERR n) 0 (put (R.CRV.NET_CTL.VALID n) 1 e)).get f := fun f hf =>
    (get_put_ne (hinfo f hf).2.2 ..).trans ((get_put_ne (hinfo f hf).2.1 ..).trans (get_put_ne (hinfo f hf).1 ..))
  exact ⟨(hrest _ (by simp)).trans ((get_put_ne hne ..).trans (get_put_self ..)), (hrest _ (by simp)).trans (get_put_self ..)⟩

theorem validationDone_completes (n : Fin 4) (s : State) (hf : flag s.dev.crv.validating n.val = true) (hb : blobErr s.dev n.val = 0) :
    Completes (.validationDone n) s (fun t =>
      t.dev.on (R.CRV.NET_CTL.VALID n.val) = true ∧ t.dev.get (R.CRV.NET_CTL.ERR n.val) = 0 ∧
      flag t.dev.crv.validating n.val = false ∧
      Frame [R.CRV.NET_CTL.VALID n.val, R.CRV.NET_CTL.ERR n.val, R.CRV.NET_INFO.NLAYERS n.val, R.CRV.NET_INFO.NSCORES n.val,
        R.CRV.NET_INFO.CLOCKS n.val] { s.dev with crv := t.dev.crv } s t) := by
  have heq := validateEnd_valid (n := n.val) (d := s.dev) ((blobErr_validatingSet ..).trans hb)
  obtain ⟨hvalid, herr⟩ := validFields_shown n.val (checkEnded n.val s.dev) (checkEnded n.val s.dev)
  have hl := leaves_puts (validFields n.val (checkEnded n.val s.dev)) (checkEnded n.val s.dev)
  have hflag : flag (checkEnded n.val s.dev).crv.validating n.val = false := flag_setFlag n.val false s.dev.crv.validating
  generalize puts (validFields n.val (checkEnded n.val s.dev)) (checkEnded n.val s.dev) = e at heq hvalid herr hl
  refine completes_to (exec_validationDone ..) e (by rw [if_pos hf, heq]) ⟨?_, (get_after ..).trans herr, ?_, carverFrame hl s⟩
  · rw [on_after, Dev.on, hvalid]
    rfl
  · rw [after_crv, crv_of_leaves hl]
    exact hflag

theorem validationFailed_completes (n : Fin 4) (s : State) (hf : flag s.dev.crv.validating n.val = true) (hb : blobErr s.dev n.val ≠ 0) :
    Completes (.validationDone n) s (fun t =>
      t.dev.on (R.CRV.NET_CTL.VALID n.val) = false ∧ t.dev.get (R.CRV.NET_CTL.ERR n.val) = blobErr s.dev n.val ∧
      Raised R.CRV.STATUS.SEQ [R.CRV.STATUS.NET_ERR] s.dev t.dev ∧
      Frame [R.CRV.NET_CTL.VALID n.val, R.CRV.NET_CTL.ERR n.val, R.CRV.STATUS.SEQ, R.CRV.STATUS.NET_ERR]
        { s.dev with crv := t.dev.crv } s t) := by
  have hb' : blobErr (checkEnded n.val s.dev) n.val = blobErr s.dev n.val := blobErr_validatingSet ..
  have heq := validateEnd_invalid (n := n.val) (d := s.dev) (by rw [hb']; exact hb)
  rw [hb'] at heq
  have hle := blobErr_le s.dev n.val
  generalize blobErr s.dev n.val = c at heq hb hle ⊢
  have hget (f : Fld) : (checkEnded n.val s.dev).get f = s.dev.get f := rfl
  have hl : Leaves [R.CRV.NET_CTL.VALID n.val, R.CRV.NET_CTL.ERR n.val] _ _ :=
    leaves_puts [(R.CRV.NET_CTL.VALID n.val, 0), (R.CRV.NET_CTL.ERR n.val, c)] (checkEnded n.val s.dev)
  have hvalid : (puts [(R.CRV.NET_CTL.VALID n.val, 0), (R.CRV.NET_CTL.ERR n.val, c)] (checkEnded n.val s.dev)).get (R.CRV.NET_CTL.VALID n.val) = 0 := by
    refine (get_put_ne ?_ ..).trans (get_put_self ..)
    clear * -
    decide +revert
  have herr : (puts [(R.CRV.NET_CTL.VALID n.val, 0), (R.CRV.NET_CTL.ERR n.val, c)] (checkEnded n.val s.dev)).get (R.CRV.NET_CTL.ERR n.val) = c :=
    (get_put_self ..).trans (Nat.mod_eq_of_lt (Nat.lt_of_le_of_lt hle (show 4 < 2 ^ 3 by decide)))
  generalize puts _ (checkEnded n.val s.dev) = d1 at heq hl hvalid herr
  have hev := leaves_event 15 R.CRV.STATUS.SEQ [R.CRV.STATUS.NET_ERR] d1
  have hraise : Raised R.CRV.STATUS.SEQ [R.CRV.STATUS.NET_ERR] s.dev (event 15 R.CRV.STATUS.SEQ [R.CRV.STATUS.NET_ERR] d1) :=
    raised_event (by decide) (by decide) (by decide) ((hl.get (by decide) (by clear * -; decide +revert)).trans (hget _))
  generalize event 15 R.CRV.STATUS.SEQ [R.CRV.STATUS.NET_ERR] d1 = e at heq hev hraise
  have hkeep : ∀ f ∈ [R.CRV.NET_CTL.VALID n.val, R.CRV.NET_CTL.ERR n.val], e.get f = d1.get f := by
    intro f hf
    refine hev.get ?_ ?_
    · clear * - hf
      revert f
      decide +revert
    · clear * - hf
      revert f
      decide +revert
  refine completes_to (exec_validationDone ..) e (by rw [if_pos hf, heq]) ⟨?_, ?_, raised_after hraise s, carverFrame (hl.trans hev) s⟩
  · rw [on_after, Dev.on, hkeep _ (by simp), hvalid]
    rfl
  · rw [get_after, hkeep _ (by simp), herr]

/-! ## Slices -/

/-- The registers that a fenced slice writes beside the mask of fenced slices. -/
def fenceRegs : List Fld :=
  [R.CRV.SLICES.ACTIVE, R.CRV.STATUS.SEQ, R.CRV.STATUS.FENCE, R.CRV.STATUS.STATE, R.CRV.STAT.COUNT 11, R.CRV.STAT.COUNT 7, R.RAS.STATUS.SEQ,
    R.RAS.STATUS.MAP_FULL] ++ queueRegs

/-- The device with another state of the repairs. -/
def withRas (x : RasS) (d : Dev) : Dev := { d with ras := x }

theorem carverStep_withRas (x : RasS) (d : Dev) : CarverStep [] d (withRas x d) := carverStep_of_eq fun _ => rfl

theorem carverStep_recordRepair (kind block inst data : Nat) (d : Dev) :
    CarverStep [R.RAS.STATUS.SEQ, R.RAS.STATUS.MAP_FULL] d (recordRepair kind block inst data d) := by
  unfold recordRepair
  dsimp only
  split
  · exact CarverStep.mono (carverStep_withRas _ d) (by simp)
  · exact CarverStep.mono ((carverStep_withRas _ d).trans (carverStep_of_leaves (leaves_event 6 R.RAS.STATUS.SEQ [R.RAS.STATUS.MAP_FULL] _)))
      (by simp [seqAnd])

/-- The Carver without a request. -/
def requestsGone (d : Dev) : Dev := { d with crv := { d.crv with results := [], patches := [], queue := [] } }

theorem carverStep_faultAll (d : Dev) : CarverStep (R.CRV.STAT.COUNT 7 :: queueRegs) d (faultAll d) := by
  have heq : faultAll d = showQueue (each (fun id d => unscore id 7 d)
      (d.crv.results.map (·.id) ++ d.crv.patches.map (·.obj.id) ++ d.crv.queue.map (·.obj.id)) (requestsGone d)) := rfl
  have hgone : CarverStep [] d (requestsGone d) := carverStep_of_eq fun _ => rfl
  rw [heq]
  generalize d.crv.results.map (·.id) ++ d.crv.patches.map (·.obj.id) ++ d.crv.queue.map (·.obj.id) = ids
  generalize requestsGone d = d1 at hgone ⊢
  have hall := carverStep_each (F := fun id d => unscore id 7 d) (fun id d => unscore_step id 7 d) ids d1
  generalize each (fun id d => unscore id 7 d) ids d1 = d2 at hall ⊢
  exact ((hgone.trans hall).trans (carverStep_of_leaves (showQueue_leaves d2))).mono (by simp)

/-- The Carver without a result. -/
def resultsGone (d : Dev) : Dev := { d with crv := { d.crv with results := [] } }

/-- A result that runs on a slice which is fenced. -/
def runFault (r : CrvResult) (d : Dev) : Dev := slot 15 0x1300000 1 r.clocks (unscore r.id 7 d)

/-- What a fenced slice leaves beside the mask. -/
def sliceFenced (i : Nat) (d : Dev) : Dev :=
  recordRepair 7 15 i 0 (crvPerf 0xa 1 (crvStat 11 1 (event 15 R.CRV.STATUS.SEQ [R.CRV.STATUS.FENCE]
    (put R.CRV.SLICES.ACTIVE (d.get R.CRV.SLICES.ACTIVE - 1) d))))

/-- The state of the Carver after a slice has been fenced. -/
def fencedState (d : Dev) : Dev :=
  if d.get R.CRV.SLICES.ACTIVE ≤ 11 then faultAll (put R.CRV.STATUS.STATE 3 d) else put R.CRV.STATUS.STATE 2 d

/-- The end of a slice's fencing: what ran on it is lost. -/
def fenceEnd (d : Dev) : Dev := fencedState (each runFault d.crv.results (resultsGone d))

theorem fenceSlice_eq (i : Nat) (d : Dev) : fenceSlice i d = if bit (d.get R.CRV.SLICES.FENCED) i then d
    else fenceEnd (sliceFenced i (put R.CRV.SLICES.FENCED (d.get R.CRV.SLICES.FENCED ||| 2 ^ i) d)) := by
  unfold fenceSlice
  split
  · rfl
  · dsimp only
    generalize put R.CRV.SLICES.FENCED (d.get R.CRV.SLICES.FENCED ||| 2 ^ i) d = e
    rw [show recordRepair 7 15 i 0 (crvPerf 0xa 1 (crvStat 11 1 (event 15 R.CRV.STATUS.SEQ [R.CRV.STATUS.FENCE]
      (put R.CRV.SLICES.ACTIVE (e.get R.CRV.SLICES.ACTIVE - 1) e)))) = sliceFenced i e from rfl]
    generalize sliceFenced i e = g
    rfl

theorem carverStep_sliceFenced (i : Nat) (d : Dev) : CarverStep fenceRegs d (sliceFenced i d) := by
  have h1 : Leaves [R.CRV.SLICES.ACTIVE] d (put R.CRV.SLICES.ACTIVE (d.get R.CRV.SLICES.ACTIVE - 1) d) := leaves_put ..
  unfold sliceFenced
  generalize put R.CRV.SLICES.ACTIVE (d.get R.CRV.SLICES.ACTIVE - 1) d = d1 at h1 ⊢
  have h2 := leaves_event 15 R.CRV.STATUS.SEQ [R.CRV.STATUS.FENCE] d1
  generalize event 15 R.CRV.STATUS.SEQ [R.CRV.STATUS.FENCE] d1 = d2 at h2 ⊢
  have h3 : Leaves [R.CRV.STAT.COUNT 11] d2 (crvPerf 0xa 1 (crvStat 11 1 d2)) := (leaves_crvStat ..).trans (leaves_crvPerf ..)
  generalize crvPerf 0xa 1 (crvStat 11 1 d2) = d3 at h3 ⊢
  exact ((carverStep_of_leaves ((h1.trans h2).trans h3)).trans (carverStep_recordRepair 7 15 i 0 d3)).mono (by simp [fenceRegs, seqAnd])

theorem carverStep_runFault (r : CrvResult) (d : Dev) : CarverStep [R.CRV.STAT.COUNT 7] d (runFault r d) :=
  (unscore_step r.id 7 d).trans (carverStep_of_leaves (leaves_crvSlot (by decide) r.clocks _))

theorem carverStep_fencedState (d : Dev) : CarverStep fenceRegs d (fencedState d) := by
  have hput (v : Nat) : Leaves [R.CRV.STATUS.STATE] d (put R.CRV.STATUS.STATE v d) := leaves_put ..
  unfold fencedState
  split
  · have h := hput 3
    generalize put R.CRV.STATUS.STATE 3 d = e at h ⊢
    exact ((carverStep_of_leaves h).trans (carverStep_faultAll e)).mono (by simp +contextual [fenceRegs])
  · exact (carverStep_of_leaves (hput 2)).mono (by simp [fenceRegs])

/-- A fenced slice is in the mask, and so is every slice that was; the status flags stay. -/
theorem fenceSlice_facts {i : Nat} (hi : i < 16) (d : Dev) : bit ((fenceSlice i d).get R.CRV.SLICES.FENCED) i = true ∧
    (∀ j, j < 16 → bit (d.get R.CRV.SLICES.FENCED) j = true → bit ((fenceSlice i d).get R.CRV.SLICES.FENCED) j = true) ∧
    (fenceSlice i d).get R.CRV.STATUS.ST_FAIL = d.get R.CRV.STATUS.ST_FAIL := by
  rw [fenceSlice_eq]
  by_cases hb : bit (d.get R.CRV.SLICES.FENCED) i = true
  · rw [if_pos hb]
    exact ⟨hb, fun _ _ h => h, rfl⟩
  · rw [if_neg hb]
    have h0 : Leaves [R.CRV.SLICES.FENCED] d (put R.CRV.SLICES.FENCED (d.get R.CRV.SLICES.FENCED ||| 2 ^ i) d) := leaves_put ..
    have hv : (put R.CRV.SLICES.FENCED (d.get R.CRV.SLICES.FENCED ||| 2 ^ i) d).get R.CRV.SLICES.FENCED =
        (d.get R.CRV.SLICES.FENCED ||| 2 ^ i) % 2 ^ 16 := get_put_self ..
    generalize put R.CRV.SLICES.FENCED (d.get R.CRV.SLICES.FENCED ||| 2 ^ i) d = d1 at h0 hv ⊢
    have h1 := carverStep_sliceFenced i d1
    generalize sliceFenced i d1 = d2 at h1 ⊢
    rw [fenceEnd]
    generalize d2.crv.results = rs
    have h2 : CarverStep [] d2 (resultsGone d2) := carverStep_of_eq fun _ => rfl
    generalize resultsGone d2 = d3 at h2 ⊢
    have h3 := carverStep_each carverStep_runFault rs d3
    generalize each runFault rs d3 = d4 at h3 ⊢
    have h4 := carverStep_fencedState d4
    generalize fencedState d4 = e at h4 ⊢
    have hstep : CarverStep fenceRegs d1 e := (((h1.trans h2).trans h3).trans h4).mono (by simp +contextual [fenceRegs, or_imp])
    have hmask : e.get R.CRV.SLICES.FENCED = (d.get R.CRV.SLICES.FENCED ||| 2 ^ i) % 2 ^ 16 := (hstep.get (by decide) (by decide)).trans hv
    have hbit (j : Nat) (hj : j < 16) : bit (e.get R.CRV.SLICES.FENCED) j = (bit (d.get R.CRV.SLICES.FENCED) j || (2 ^ i).testBit j) := by
      rw [hmask, bit_eq_testBit, Nat.testBit_mod_two_pow, Nat.testBit_or, bit_eq_testBit]
      simp [hj]
    refine ⟨?_, fun j hj h => ?_, (hstep.get (by decide) (by decide)).trans (h0.get (by decide) (by decide))⟩
    · rw [hbit i hi, Nat.testBit_two_pow_self, Bool.or_true]
    · rw [hbit j hj, h, Bool.true_or]

theorem fenceSlices_facts (xs : List Nat) (hxs : ∀ i ∈ xs, i < 16) (d : Dev) :
    (∀ i ∈ xs, bit ((each fenceSlice xs d).get R.CRV.SLICES.FENCED) i = true) ∧
    (∀ j, j < 16 → bit (d.get R.CRV.SLICES.FENCED) j = true → bit ((each fenceSlice xs d).get R.CRV.SLICES.FENCED) j = true) ∧
    (each fenceSlice xs d).get R.CRV.STATUS.ST_FAIL = d.get R.CRV.STATUS.ST_FAIL := by
  induction xs generalizing d with
  | nil => exact ⟨by simp, fun _ _ h => h, rfl⟩
  | cons x xs ih =>
    have hx := hxs x List.mem_cons_self
    obtain ⟨hself, hkeep, hfail⟩ := fenceSlice_facts hx d
    have heq : each fenceSlice (x :: xs) d = each fenceSlice xs (fenceSlice x d) := rfl
    rw [heq]
    generalize fenceSlice x d = e at hself hkeep hfail ⊢
    obtain ⟨hin, hkeep', hfail'⟩ := ih (fun i hi => hxs i (List.mem_cons_of_mem _ hi)) e
    refine ⟨fun i hi => ?_, fun j hj h => hkeep' j hj (hkeep j hj h), hfail'.trans hfail⟩
    rcases List.mem_cons.mp hi with rfl | hi
    · exact hkeep' i hx hself
    · exact hin i hi

/-- The slices that fail a self-test and are not fenced yet. -/
def failedSlices (bad : BitVec 16) (d : Dev) : List Nat := (List.range 16).filter (fun i => bad.getLsbD i && !bit (d.get R.CRV.SLICES.FENCED) i)

/-- The device after the clocks of a self-test. -/
def selfTested (d : Dev) : Dev := slot 15 0x1300000 1 512 (crvPerf 9 1 d)

theorem selfTested_leaves (d : Dev) : Leaves [] d (selfTested d) := (leaves_crvPerf ..).trans (leaves_crvSlot (by decide) ..)

theorem failedSlices_selfTested (bad : BitVec 16) (d : Dev) : failedSlices bad (selfTested d) = failedSlices bad d := by
  unfold failedSlices
  rw [(selfTested_leaves d).get (by decide) (by simp)]

theorem goodSelfTest_completes (bad : BitVec 16) (s : State) (hr : s.dev.crvRuns = true)
    (hgood : ∀ i : Fin 16, bad.getLsbD i.val = true → bit (s.dev.get R.CRV.SLICES.FENCED) i.val = true) :
    Completes (.carverSelfTest bad) s (fun t =>
      Counted R.CRV.ST_COUNT.COUNT 1 s.dev t.dev ∧ Frame [R.CRV.ST_COUNT.COUNT] s.dev s t) := by
  have hnone : failedSlices bad (selfTested s.dev) = [] := by
    rw [failedSlices_selfTested]
    refine List.filter_eq_nil_iff.mpr fun i hi => ?_
    have h := hgood ⟨i, List.mem_range.mp hi⟩
    dsimp only at h
    cases hb : bad.getLsbD i
    · exact Bool.false_ne_true
    · rw [h hb]
      exact Bool.false_ne_true
  have hexec := exec_carverSelfTest bad s
  unfold execCarverSelfTest at hexec
  have hl := selfTested_leaves s.dev
  generalize hd : selfTested s.dev = d at hl hnone
  have hinc : Leaves [R.CRV.ST_COUNT.COUNT] d (inc R.CRV.ST_COUNT.COUNT 1 d) := leaves_put ..
  have hcount : Counted R.CRV.ST_COUNT.COUNT 1 d (inc R.CRV.ST_COUNT.COUNT 1 d) := get_put_self ..
  generalize he : inc R.CRV.ST_COUNT.COUNT 1 d = e at hinc hcount
  refine completes_to hexec e ?_ ⟨counted_of_get hcount (hl.get (by decide) (by simp)) (get_after ..), frame_of_leaves (hl.trans hinc) s⟩
  dsimp only
  rw [if_neg (by rw [hr]; decide), show slot 15 0x1300000 1 512 (crvPerf 9 1 s.dev) = selfTested s.dev from rfl, hd,
    show (List.range 16).filter (fun i => bad.getLsbD i && !bit (d.get R.CRV.SLICES.FENCED) i) = failedSlices bad d from rfl, hnone]
  exact he

theorem badSelfTest_completes (bad : BitVec 16) (s : State) (hr : s.dev.crvRuns = true)
    (hbad : ∃ i : Fin 16, bad.getLsbD i.val = true ∧ bit (s.dev.get R.CRV.SLICES.FENCED) i.val = false) :
    Completes (.carverSelfTest bad) s (fun t =>
      (∀ i : Fin 16, bad.getLsbD i.val = true → bit (t.dev.get R.CRV.SLICES.FENCED) i.val = true) ∧
      t.dev.on R.CRV.STATUS.ST_FAIL = true) := by
  obtain ⟨i0, hi0, hb0⟩ := hbad
  have hsome := failedSlices_selfTested bad s.dev
  have hmem : i0.val ∈ failedSlices bad s.dev := List.mem_filter.mpr ⟨List.mem_range.mpr i0.isLt, by rw [hi0, hb0]; rfl⟩
  have hlt : ∀ i ∈ failedSlices bad s.dev, i < 16 := fun i hi => List.mem_range.mp (List.mem_filter.mp hi).1
  have hcover : ∀ i : Fin 16, bad.getLsbD i.val = true → i.val ∈ failedSlices bad s.dev ∨ bit (s.dev.get R.CRV.SLICES.FENCED) i.val = true := by
    intro i hi
    cases hb : bit (s.dev.get R.CRV.SLICES.FENCED) i.val
    · exact .inl (List.mem_filter.mpr ⟨List.mem_range.mpr i.isLt, by rw [hi, hb]; rfl⟩)
    · exact .inr rfl
  have hexec := exec_carverSelfTest bad s
  unfold execCarverSelfTest at hexec
  have hl := selfTested_leaves s.dev
  generalize hd : selfTested s.dev = d at hl hsome
  generalize hxs : failedSlices bad s.dev = xs at hsome hmem hlt hcover
  have hev := leaves_event 15 R.CRV.STATUS.SEQ [R.CRV.STATUS.ST_FAIL] d
  have hraise : Raised R.CRV.STATUS.SEQ [R.CRV.STATUS.ST_FAIL] d (event 15 R.CRV.STATUS.SEQ [R.CRV.STATUS.ST_FAIL] d) :=
    raised_event (by decide) (by decide) (by decide) rfl
  generalize hd1 : event 15 R.CRV.STATUS.SEQ [R.CRV.STATUS.ST_FAIL] d = d1 at hev hraise
  have hras : Leaves [R.RAS.STAT.COUNT 11] d1 (rasStat 11 1 d1) := leaves_put ..
  generalize hd2 : rasStat 11 1 d1 = d2 at hras
  obtain ⟨hin, hkeep, hfail⟩ := fenceSlices_facts xs hlt d2
  generalize he : each fenceSlice xs d2 = e at hin hkeep hfail
  have hmask : d2.get R.CRV.SLICES.FENCED = s.dev.get R.CRV.SLICES.FENCED :=
    ((hl.trans hev).trans hras).get (by decide) (by decide)
  refine completes_to hexec e ?_ ⟨fun i hi => ?_, ?_⟩
  · dsimp only
    rw [if_neg (by rw [hr]; decide), show slot 15 0x1300000 1 512 (crvPerf 9 1 s.dev) = selfTested s.dev from rfl, hd,
      show (List.range 16).filter (fun i => bad.getLsbD i && !bit (d.get R.CRV.SLICES.FENCED) i) = failedSlices bad d from rfl, hsome, hd1, hd2, ← he]
    cases xs with
    | nil => exact absurd hmem (by simp)
    | cons x xs => rfl
  · rw [get_after]
    rcases hcover i hi with h | h
    · exact hin _ h
    · exact hkeep _ i.isLt (by rw [hmask]; exact h)
  · rw [on_after, Dev.on, hfail, hras.get (by decide) (by decide)]
    exact hraise.2 _ (by simp)

/-! ## The restore of a blob -/

section
variable {d e : Dev} (h : e.crv.weights = d.crv.weights)
include h

theorem wByte_congr (a : Nat) : e.wByte a = d.wByte a := by rw [Dev.wByte, h]; rfl

theorem wField_congr (n a : Nat) : e.wField a n = d.wField a n := by
  induction n generalizing a with
  | zero => rfl
  | succ n ih => rw [Dev.wField, Dev.wField, wByte_congr h, ih]

theorem wBytesAt_congr (a n : Nat) : e.wBytesAt a n = d.wBytesAt a n := by
  unfold Dev.wBytesAt
  simp only [wByte_congr h]

theorem layer_congr (x : Blob) (k : Nat) : e.layer x k = d.layer x k := by
  unfold Dev.layer
  simp only [wByte_congr h, wField_congr h]

theorem layers_congr (x : Blob) : e.layers x = d.layers x := by
  unfold Dev.layers
  exact List.map_congr_left fun k _ => layer_congr h x k

theorem blob_congr {n : Nat} (hb : e.get (R.CRV.NET_BASE.OFFSET n) = d.get (R.CRV.NET_BASE.OFFSET n)) : e.blob n = d.blob n := by
  unfold Dev.blob
  simp only [wByte_congr h, wField_congr h, hb]

/-- The checks of a blob read its base and the weights alone. -/
theorem blobErr_congr {n : Nat} (hb : e.get (R.CRV.NET_BASE.OFFSET n) = d.get (R.CRV.NET_BASE.OFFSET n)) : blobErr e n = blobErr d n := by
  unfold blobErr
  rw [blob_congr h hb]
  unfold blobCrcOk blobFieldsOk blobReservedOk blobShapesOk blobSizesOk
  simp only [wByte_congr h, wField_congr h, wBytesAt_congr h, layers_congr h]

end

/-- What the check of a blob leaves. -/
theorem validateEnd_facts {n : Nat} (hn : n < 4) (d : Dev) : (validateEnd n d).crv.weights = d.crv.weights ∧
    (validateEnd n d).get (R.CRV.NET_BASE.OFFSET n) = d.get (R.CRV.NET_BASE.OFFSET n) ∧
    ((validateEnd n d).on (R.CRV.NET_CTL.VALID n) = true ↔ blobErr (validateEnd n d) n = 0) := by
  have hw : (checkEnded n d).crv.weights = d.crv.weights := rfl
  have hg (f : Fld) : (checkEnded n d).get f = d.get f := rfl
  have hbook : bookKey (R.CRV.NET_BASE.OFFSET n).key = false := bookKey_area (by simp only [Fld.key, R.CRV.NET_BASE.OFFSET]; omega)
  have hvbook : bookKey (R.CRV.NET_CTL.VALID n).key = false := bookKey_area (by simp only [Fld.key, R.CRV.NET_CTL.VALID]; omega)
  by_cases hb : blobErr (checkEnded n d) n = 0
  · have heq := validateEnd_valid hb
    have hl := leaves_puts (validFields n (checkEnded n d)) (checkEnded n d)
    obtain ⟨hvalid, -⟩ := validFields_shown n (checkEnded n d) (checkEnded n d)
    rw [heq]
    generalize puts (validFields n (checkEnded n d)) (checkEnded n d) = e at hl hvalid ⊢
    have hew : e.crv.weights = (checkEnded n d).crv.weights := congrArg CrvS.weights (crv_of_leaves hl)
    have heo : e.get (R.CRV.NET_BASE.OFFSET n) = (checkEnded n d).get (R.CRV.NET_BASE.OFFSET n) := by
      refine hl.get hbook ?_
      simp only [validFields, List.map_cons, List.map_nil, List.mem_cons, List.not_mem_nil, or_false, Fld.key, R.CRV.NET_BASE.OFFSET,
        R.CRV.NET_CTL.VALID, R.CRV.NET_CTL.ERR, R.CRV.NET_INFO.NLAYERS, R.CRV.NET_INFO.NSCORES, R.CRV.NET_INFO.CLOCKS]
      omega
    refine ⟨hew.trans hw, heo.trans (hg _), fun _ => (blobErr_congr hew heo).trans hb, fun _ => ?_⟩
    rw [Dev.on, hvalid]
    rfl
  · have heq := validateEnd_invalid hb
    generalize blobErr (checkEnded n d) n = c at heq
    have hl : Leaves [R.CRV.NET_CTL.VALID n, R.CRV.NET_CTL.ERR n] _ _ :=
      leaves_puts [(R.CRV.NET_CTL.VALID n, 0), (R.CRV.NET_CTL.ERR n, c)] (checkEnded n d)
    have hvalid : (puts [(R.CRV.NET_CTL.VALID n, 0), (R.CRV.NET_CTL.ERR n, c)] (checkEnded n d)).get (R.CRV.NET_CTL.VALID n) = 0 := by
      refine (get_put_ne ?_ ..).trans (get_put_self ..)
      simp only [Fld.key, R.CRV.NET_CTL.VALID, R.CRV.NET_CTL.ERR]
      omega
    generalize puts _ (checkEnded n d) = d1 at heq hl hvalid
    have hev := leaves_event 15 R.CRV.STATUS.SEQ [R.CRV.STATUS.NET_ERR] d1
    rw [heq]
    generalize event 15 R.CRV.STATUS.SEQ [R.CRV.STATUS.NET_ERR] d1 = e at hev ⊢
    have hew : e.crv.weights = (checkEnded n d).crv.weights := congrArg CrvS.weights (crv_of_leaves (hl.trans hev))
    have heo : e.get (R.CRV.NET_BASE.OFFSET n) = (checkEnded n d).get (R.CRV.NET_BASE.OFFSET n) := by
      refine (hl.trans hev).get hbook ?_
      simp only [seqAnd, List.cons_append, List.nil_append, List.map_cons, List.map_nil, List.mem_cons, List.not_mem_nil, or_false, Fld.key,
        R.CRV.NET_BASE.OFFSET, R.CRV.NET_CTL.VALID, R.CRV.NET_CTL.ERR, R.CRV.STATUS.SEQ, R.CRV.STATUS.NET_ERR]
      omega
    have hoff : e.get (R.CRV.NET_CTL.VALID n) = 0 := by
      refine (hev.get hvbook ?_).trans hvalid
      simp only [seqAnd, List.map_cons, List.map_nil, List.mem_cons, List.not_mem_nil, or_false, Fld.key, R.CRV.NET_CTL.VALID, R.CRV.STATUS.SEQ,
        R.CRV.STATUS.NET_ERR]
      omega
    refine ⟨hew.trans hw, heo.trans (hg _), fun hon => ?_, fun h0 => absurd ((blobErr_congr hew heo).symm.trans h0) hb⟩
    rw [Dev.on, hoff] at hon
    exact absurd hon (by decide)

/-- The weights after the first words of a blob. -/
def weightsLoaded (base : Nat) (ws : List Nat) : Nat → KMap Nat → KMap Nat
  | 0, m => m
  | n + 1, m => setNum (base + n) (nth 0 ws n) (weightsLoaded base ws n m)

theorem num_weightsLoaded {base : Nat} {ws : List Nat} {m : KMap Nat} {i n : Nat} (h : i < n) :
    num (weightsLoaded base ws n m) (base + i) = nth 0 ws i := by
  induction n with
  | zero => omega
  | succ n ih =>
    unfold weightsLoaded num setNum
    by_cases hi : i = n
    · rw [hi]
      exact KMap.get_put_self ..
    · rw [KMap.get_put_ne _ _ _ _ _ (by omega)]
      exact ih (by omega)

/-- The device with other weights. -/
def withWeights (x : KMap Nat) (d : Dev) : Dev := withCrv { d.crv with weights := x } d

theorem foldl_weights (base : Nat) (ws : List Nat) (n : Nat) (d : Dev) :
    (List.range n).foldl (fun (d : Dev) i => withWeights (setNum (base + i) (nth 0 ws i) d.crv.weights) d) d =
      withWeights (weightsLoaded base ws n d.crv.weights) d := by
  induction n with
  | zero => rfl
  | succ n ih =>
    rw [List.range_succ, List.foldl_append, ih]
    rfl

theorem loadBlob_eq (x : Nat × Nat × List Byte) (d : Dev) : loadBlob x d =
    validateEnd x.1 (put (R.CRV.NET_BASE.OFFSET x.1) x.2.1 (withWeights
      (weightsLoaded (x.2.1 / 4) (wordsOf (x.2.2.length / 4 + 1) x.2.2) (wordsOf (x.2.2.length / 4 + 1) x.2.2).length d.crv.weights) d)) := by
  rw [← foldl_weights]
  rfl

theorem wordsOf_word (fuel : Nat) (b : List Byte) (i : Nat) (hi : i < fuel) (hb : 4 * i + 4 ≤ b.length) :
    i < (wordsOf fuel b).length ∧ nth 0 (wordsOf fuel b) i = fieldAt b (4 * i) 4 := by
  induction fuel generalizing b i with
  | zero => omega
  | succ fuel ih =>
    have hne : b.isEmpty = false := by
      cases b with
      | nil => simp at hb
      | cons x b => rfl
    rw [wordsOf, hne, if_neg Bool.false_ne_true]
    cases i with
    | zero => exact ⟨by simp, rfl⟩
    | succ i =>
      obtain ⟨hlen, hword⟩ := ih (b.drop 4) i (by omega) (by rw [List.length_drop]; omega)
      refine ⟨by simpa using hlen, hword.trans ?_⟩
      rw [fieldAt, fieldAt, List.drop_drop, Nat.mul_succ, Nat.add_comm 4]

theorem blobRestore_completes (n : Fin 4) (x : Nat × Nat × List Byte) (s : State) (hdown : s.dev.ras.coresDown = false)
    (hv : s.dev.on (R.CRV.NET_CTL.VALID n.val) = false) (herr : s.dev.get (R.CRV.NET_CTL.ERR n.val) = 5)
    (hx : (blobsOf (s.dev.nvmMain.image (s.dev.get R.TOP.STATE.SLOT) (s.dev.slotTab.len (s.dev.get R.TOP.STATE.SLOT)))).find?
      (fun x => x.1 == n.val) = some x) :
    Completes (.blobRestore n) s (fun t =>
      t = s.after (loadBlob x s.dev) ∧
      (∀ i, 4 * i + 4 ≤ x.2.2.length → num t.dev.crv.weights (x.2.1 / 4 + i) = fieldAt x.2.2 (4 * i) 4) ∧
      t.dev.get (R.CRV.NET_BASE.OFFSET n.val) = x.2.1 % 2 ^ (R.CRV.NET_BASE.OFFSET n.val).w ∧
      (t.dev.on (R.CRV.NET_CTL.VALID n.val) = true ↔ blobErr t.dev n.val = 0)) := by
  have hn : x.1 = n.val := eq_of_beq (List.find?_some (p := fun x : Nat × Nat × List Byte => x.1 == n.val) hx)
  have heq := loadBlob_eq x s.dev
  rw [hn] at heq
  generalize hW : weightsLoaded (x.2.1 / 4) (wordsOf (x.2.2.length / 4 + 1) x.2.2) (wordsOf (x.2.2.length / 4 + 1) x.2.2).length s.dev.crv.weights = W at heq
  have hw : (put (R.CRV.NET_BASE.OFFSET n.val) x.2.1 (withWeights W s.dev)).crv.weights = W := rfl
  have ho : (put (R.CRV.NET_BASE.OFFSET n.val) x.2.1 (withWeights W s.dev)).get (R.CRV.NET_BASE.OFFSET n.val) =
      x.2.1 % 2 ^ (R.CRV.NET_BASE.OFFSET n.val).w := get_put_self ..
  generalize put (R.CRV.NET_BASE.OFFSET n.val) x.2.1 (withWeights W s.dev) = d1 at heq hw ho
  obtain ⟨hkeep, hoff, hvalid⟩ := validateEnd_facts n.isLt d1
  generalize validateEnd n.val d1 = e at heq hkeep hoff hvalid
  rw [heq]
  refine completes_to (exec_blobRestore ..) e ?_ ⟨rfl, fun i hi => ?_, (get_after ..).trans (hoff.trans ho), hvalid⟩
  · dsimp only
    rw [if_neg (by rw [hdown, hv, herr]; decide), hx]
    exact heq
  · obtain ⟨hlen, hword⟩ := wordsOf_word (x.2.2.length / 4 + 1) x.2.2 i (by omega) hi
    rw [after_crv, hkeep, hw, ← hW, num_weightsLoaded hlen, hword]

/-! ## The obligation -/

/-- Settles O43: each command of the Carver, from the fetch of a patch to the restore of a blob. -/
theorem theCarverScoresObjects : Obligations.TheCarverScoresObjects :=
  ⟨patch_completes, lostPatch_completes, heldPatch_completes, invalidPatch_completes, patchCompute_completes, scores_completes, ageExpiry_completes,
    validate_completes, validationDone_completes, validationFailed_completes, goodSelfTest_completes, badSelfTest_completes, blobRestore_completes⟩

end Sys2Proof.Proofs
end

section
/-!
Device DRAM: what a write within one granule leaves, and the address map (R362, R367).
-/
namespace Sys2Proof.Proofs
open Sys2Proof Sys2Proof.Machine

/-! ## Addresses -/

theorem granules_one {a n : Nat} (hn : n ≠ 0) (h : a % 64 + n ≤ 64) : granules (n / 64 + 2) a n = [(a, n)] := by
  have hmin : min n (64 - a % 64) = n := by omega
  rw [granules, if_neg hn]
  dsimp only
  rw [hmin, Nat.sub_self]
  have hrest (fuel b : Nat) : granules fuel b 0 = [] := by cases fuel <;> rfl
  rw [hrest]

/-- The bytes of the address within a granule of the map. -/
theorem locate_snd (d : Dev) (a : Nat) : (d.locate a).2 =
    a / 2 ^ (8 + d.get R.DDR.MAP.GRAIN) / d.channels.length * 2 ^ (8 + d.get R.DDR.MAP.GRAIN) + a % 2 ^ (8 + d.get R.DDR.MAP.GRAIN) := by
  unfold Dev.locate
  dsimp only
  rw [Nat.mod_def, Nat.mul_comm (2 ^ (8 + d.get R.DDR.MAP.GRAIN)) (a / _)]

theorem grain_mul (x : Nat) : 2 ^ (8 + x) = 64 * 2 ^ (2 + x) := by
  rw [show 8 + x = 6 + (2 + x) by omega, Nat.pow_add]

theorem locate_mod (d : Dev) (a : Nat) : (d.locate a).2 % 64 = a % 64 := by
  rw [locate_snd, grain_mul]
  generalize 2 ^ (2 + d.get R.DDR.MAP.GRAIN) = g
  rw [Nat.mul_left_comm, Nat.mul_add_mod, Nat.mod_mul_right_mod]

theorem physKey_mod (d : Dev) (a : Nat) : d.physKey a % 64 = a % 64 := by
  unfold Dev.physKey
  dsimp only
  have := locate_mod d a
  omega

/-- Bytes within one granule share its number. -/
theorem physKey_div {d : Dev} {a n i : Nat} (h : a % 64 + n ≤ 64) (hi : i < n) : (d.physKey a + i) / 64 = d.physKey a / 64 := by
  have := physKey_mod d a
  omega

theorem nth_eq_getElem {α : Type} (x : α) {xs : List α} {i : Nat} (h : i < xs.length) : nth x xs i = xs[i] := by
  induction xs generalizing i with
  | nil => exact absurd h (by simp)
  | cons y ys ih =>
    cases i with
    | zero => rfl
    | succ i => exact ih (by simpa using h)

theorem channels_nodup (d : Dev) : d.channels.Nodup := List.Nodup.filter _ List.nodup_range

/-- Two addresses that share a channel and a place in it are equal (R362). -/
theorem locate_injective (a b : Nat) (d : Dev) (hd : d.channels ≠ []) (h : d.locate a = d.locate b) : a = b := by
  have hn : 0 < d.channels.length := List.length_pos_iff.mpr hd
  have hl : (d.locate a).2 = (d.locate b).2 := congrArg Prod.snd h
  have hc : (d.locate a).1 = (d.locate b).1 := congrArg Prod.fst h
  have hfst (x : Nat) : ∃ k, (d.locate x).1 = nth 0 d.channels ((x / 2 ^ (8 + d.get R.DDR.MAP.GRAIN) % d.channels.length + k) % d.channels.length) ∧
      k = (if d.on R.DDR.MAP.HASH then (bits (d.locate x).2 20 2 + bits (d.locate x).2 28 2 + bits (d.locate x).2 32 2) % d.channels.length else 0) := by
    refine ⟨_, ?_, rfl⟩
    rw [Nat.mod_def (x / _)]
    rfl
  obtain ⟨ka, ha, hka⟩ := hfst a
  obtain ⟨kb, hb, hkb⟩ := hfst b
  rw [hl, ← hkb] at hka
  subst hka
  rw [ha, hb, nth_eq_getElem 0 (Nat.mod_lt _ hn), nth_eq_getElem 0 (Nat.mod_lt _ hn)] at hc
  have hidx := (List.Nodup.getElem_inj_iff (channels_nodup d)).mp hc
  clear hc ha hb
  rw [locate_snd, locate_snd] at hl
  have hg : 0 < 2 ^ (8 + d.get R.DDR.MAP.GRAIN) := Nat.two_pow_pos _
  generalize 2 ^ (8 + d.get R.DDR.MAP.GRAIN) = g at hl hidx hg
  generalize d.channels.length = n at hl hidx hn
  have hr : a / g % n = b / g % n := by
    have hmod := Nat.ModEq.add_right_cancel' (n := n) ka hidx
    rw [Nat.ModEq, Nat.mod_mod, Nat.mod_mod] at hmod
    exact hmod
  have hlow : a % g = b % g := by
    have := congrArg (· % g) hl
    simpa [Nat.mul_add_mod_of_lt, Nat.add_mod, Nat.mul_mod_left] using this
  have hq : a / g / n = b / g / n := by
    rw [hlow] at hl
    exact Nat.eq_of_mul_eq_mul_right hg (Nat.add_right_cancel hl)
  have hk : a / g = b / g := by
    rw [← Nat.div_add_mod (a / g) n, ← Nat.div_add_mod (b / g) n, hq, hr]
  rw [← Nat.div_add_mod a g, ← Nat.div_add_mod b g, hk, hlow]

/-! ## One write -/

theorem get_putBytes (bs : List Byte) (m : KMap Byte) (key k : Nat) : KMap.get (fun _ => 0#8) (putBytes m key bs) k =
    if key ≤ k ∧ k < key + bs.length then nth 0#8 bs (k - key) else KMap.get (fun _ => 0#8) m k := by
  induction bs generalizing m key with
  | nil =>
    rw [if_neg (by simp)]
    rfl
  | cons b bs ih =>
    rw [putBytes, ih]
    by_cases hk : k = key
    · rw [if_neg (by omega), if_pos (by simp [hk]), hk, KMap.get_put_self, Nat.sub_self]
      rfl
    · by_cases hin : key + 1 ≤ k ∧ k < key + 1 + bs.length
      · rw [if_pos hin, if_pos (by simp; omega), show k - key = (k - (key + 1)) + 1 by omega]
        rfl
      · rw [if_neg hin, if_neg (by simp; omega), KMap.get_put_ne _ _ _ _ _ hk]

/-- A write within one granule that lies in DRAM is one effect on it. -/
theorem dramWrite_one {a : Nat} {bs : List Byte} {d : Dev} (hch : d.channels ≠ []) (hend : a + bs.length ≤ d.dramEnd) (hne : bs ≠ [])
    (hgran : a % 64 + bs.length ≤ 64) : dramWrite a bs d = post (.write (d.physKey a) bs) d := by
  unfold dramWrite
  rw [if_neg (by simp [hch, hend]), granules_one (by simpa using hne) hgran]
  refine (?_ : post (.write (d.physKey a) ((bs.drop (a - a)).take bs.length)) d = _)
  rw [Nat.sub_self, List.drop_zero, List.take_length]

theorem view_post {d : Dev} (hp : d.posted = []) (o : MemOp) (m : Mem) : (post o d).view m = m.apply o := by
  unfold Dev.view post
  rw [hp]
  rfl

theorem view_of_posted {d : Dev} (hp : d.posted = []) (m : Mem) : d.view m = m := by
  unfold Dev.view
  rw [hp]
  rfl

theorem apply_write {m : Mem} {key : Nat} {bs : List Byte} (h : m.mark (key / 64) = .poison → bs.length = 64 ∨ 64 < bs.length) :
    m.apply (.write key bs) = { bytes := putBytes m.bytes key bs, marks := KMap.put (fun _ => Mark.initial) m.marks (key / 64) .written } := by
  refine if_neg fun hc => ?_
  obtain ⟨hm, hlt⟩ := (Bool.and_eq_true _ _).mp hc
  have := h (eq_of_beq hm)
  have := of_decide_eq_true hlt
  omega

theorem apply_poisoned {m : Mem} {key : Nat} {bs : List Byte} (hm : m.mark (key / 64) = .poison) (hlt : bs.length < 64) :
    m.apply (.write key bs) = m := if_pos (by simp [hm, hlt])

/-- A read within one granule that lies in DRAM. -/
theorem dramRead_one {a n : Nat} {d : Dev} {m : Mem} (hch : d.channels ≠ []) (hend : a + n ≤ d.dramEnd) (hne : n ≠ 0) (hgran : a % 64 + n ≤ 64) :
    d.dramRead m a n = ((List.range n).map (fun i => (d.view m).readByte (d.physKey a + i)), (d.view m).mark (d.physKey a / 64) != .written) := by
  unfold Dev.dramRead
  dsimp only
  rw [if_neg (by simp [hch, hend]), granules_one hne hgran]
  simp

theorem readBack (a : Nat) (bs : List Byte) (d : Dev) (m : Mem) (hp : d.posted = []) (hch : d.channels ≠ []) (hend : a + bs.length ≤ d.dramEnd)
    (hne : bs ≠ []) (hgran : a % 64 + bs.length ≤ 64) (hpoison : m.mark (d.physKey a / 64) = .poison → bs.length = 64) :
    (dramWrite a bs d).dramRead m a bs.length = (bs, false) := by
  have hkey : (post (.write (d.physKey a) bs) d).physKey a = d.physKey a := rfl
  rw [dramWrite_one hch hend hne hgran, dramRead_one (d := post _ d) hch hend (by simpa using hne) hgran, view_post hp, hkey,
    apply_write fun h => .inl (hpoison h)]
  have hmark : ({ bytes := putBytes m.bytes (d.physKey a) bs, marks := KMap.put (fun _ => Mark.initial) m.marks (d.physKey a / 64) .written } : Mem).mark
      (d.physKey a / 64) = .written :=
    KMap.get_put_self (fun _ => Mark.initial) m.marks (d.physKey a / 64) .written
  refine Prod.ext ?_ (by rw [hmark]; rfl)
  refine List.ext_getElem (by simp) fun i h1 h2 => ?_
  have hi : i < bs.length := h2
  simp only [List.getElem_map, List.getElem_range]
  unfold Mem.readByte
  rw [physKey_div hgran hi, hmark]
  refine (get_putBytes ..).trans ?_
  rw [if_pos (by omega), Nat.add_sub_cancel_left, nth_eq_getElem _ hi]

theorem poisonStays (a : Nat) (bs : List Byte) (d : Dev) (m : Mem) (hp : d.posted = []) (hch : d.channels ≠ []) (hend : a + bs.length ≤ d.dramEnd)
    (hne : bs ≠ []) (hgran : a % 64 + bs.length ≤ 64) (hpoison : m.mark (d.physKey a / 64) = .poison) (hlt : bs.length < 64) :
    (dramWrite a bs d).view m = m ∧ ((dramWrite a bs d).dramRead m a bs.length).2 = true := by
  have hkey : (post (.write (d.physKey a) bs) d).physKey a = d.physKey a := rfl
  have hview : (dramWrite a bs d).view m = m := by
    rw [dramWrite_one hch hend hne hgran, view_post hp, apply_poisoned hpoison hlt]
  refine ⟨hview, ?_⟩
  rw [dramWrite_one hch hend hne hgran] at hview ⊢
  rw [dramRead_one (d := post _ d) hch hend (by simpa using hne) hgran, hview, hkey, hpoison]
  rfl

theorem otherPlacesStay (a : Nat) (bs : List Byte) (d : Dev) (m : Mem) (k : Nat) (hp : d.posted = []) (hgran : a % 64 + bs.length ≤ 64) :
    (k < d.physKey a ∨ d.physKey a + bs.length ≤ k → ((dramWrite a bs d).view m).byte k = m.byte k) ∧
    (k ≠ d.physKey a / 64 → ((dramWrite a bs d).view m).mark k = m.mark k) := by
  have hsame : d.view m = m := view_of_posted hp m
  by_cases hout : (d.channels.isEmpty || decide (d.dramEnd < a + bs.length)) = true
  · rw [show dramWrite a bs d = d from if_pos hout, hsame]
    exact ⟨fun _ => rfl, fun _ => rfl⟩
  by_cases hne : bs = []
  · have hnil : dramWrite a bs d = d := by
      unfold dramWrite
      rw [if_neg hout, hne]
      rfl
    rw [hnil, hsame]
    exact ⟨fun _ => rfl, fun _ => rfl⟩
  obtain ⟨hch, hend⟩ : d.channels ≠ [] ∧ a + bs.length ≤ d.dramEnd := by simpa using hout
  rw [dramWrite_one hch hend hne hgran, view_post hp]
  by_cases hpoison : m.mark (d.physKey a / 64) = .poison ∧ bs.length < 64
  · rw [apply_poisoned hpoison.1 hpoison.2]
    exact ⟨fun _ => rfl, fun _ => rfl⟩
  · rw [apply_write fun h => .inl (by have : ¬ bs.length < 64 := fun hlt => hpoison ⟨h, hlt⟩; omega)]
    refine ⟨fun hk => (get_putBytes ..).trans (if_neg (by omega)), fun hk => KMap.get_put_ne (fun _ => Mark.initial) m.marks _ _ .written hk⟩

/-- Settles O46: a write within one granule is one effect on DRAM, and the map sends no two addresses to one place. -/
theorem dramKeepsWhatIsWritten : Obligations.DramKeepsWhatIsWritten := ⟨readBack, poisonStays, otherPlacesStay, locate_injective⟩

end Sys2Proof.Proofs
end

section
/-!
Requests of device DRAM: the grants, the write buffer, the banks, and what the ECC finds (R13, R364 to R367, R372).
-/
namespace Sys2Proof.Proofs
open Sys2Proof Sys2Proof.Machine

/-! ## Steps of the controller -/

/-- The device with another DRAM controller. -/
def withDdr (x : DdrS) (d : Dev) : Dev := { d with ddr := x }

theorem setsPart_withDdr : SetsPart withDdr := fun _ _ => ⟨rfl, rfl⟩

/-- From `d` to `e` only these registers, the books and the DRAM controller's state have changed. -/
def DdrStep (fs : List Fld) (d e : Dev) : Prop := Upto withDdr fs d e

section
variable {fs gs : List Fld} {d e g : Dev}

theorem ddrStep_of_leaves (h : Leaves fs d e) : DdrStep fs d e := upto_of_leaves setsPart_withDdr h

theorem ddrStep_of_eq (h : ∀ x, withDdr x e = withDdr x d) : DdrStep [] d e := upto_of_eq h

theorem ddrStep_refl (d : Dev) : DdrStep [] d d := ddrStep_of_eq fun _ => rfl

theorem DdrStep.trans (h : DdrStep fs d e) (h' : DdrStep gs e g) : DdrStep (fs ++ gs) d g := Upto.trans h h'

theorem DdrStep.mono (h : DdrStep fs d e) (hs : ∀ f ∈ fs, f ∈ gs) : DdrStep gs d e := Upto.mono h fun f hf => List.mem_map_of_mem (hs f hf)

/-- A step that repeats the registers of the one before. -/
theorem DdrStep.again (h : DdrStep fs d e) (h' : DdrStep fs e g) : DdrStep fs d g := (h.trans h').mono fun _ hf => (List.mem_append.mp hf).elim id id

theorem DdrStep.get (h : DdrStep fs d e) {f : Fld} (hb : bookKey f.key = false) (hf : f.key ∉ fs.map Fld.key) : e.get f = d.get f :=
  (Upto.leaves h d.ddr).get hb hf

theorem DdrStep.frame (h : DdrStep fs d e) (s : State) : Frame fs { d with ddr := (s.after e).dev.ddr } s (s.after e) := frame_of_upto h s e.ddr rfl

theorem DdrStep.posted (h : DdrStep fs d e) : e.posted = d.posted :=
  (Upto.leaves h ({} : DdrS)).posted

theorem ddrStep_each {α : Type} {F : α → Dev → Dev} (h : ∀ x d, DdrStep fs d (F x d)) (xs : List α) (d : Dev) : DdrStep fs d (each F xs d) := by
  induction xs generalizing d with
  | nil => exact (ddrStep_refl d).mono (by simp)
  | cons x xs ih => exact (h x d).again (ih (F x d))

theorem ddrS_of_leaves (h : Leaves fs d e) (c : Nat) : e.ddrS c = d.ddrS c := by
  rw [Dev.ddrS, ddr_of_leaves h]
  rfl

end

@[simp] theorem ddrS_setDdr (c : Nat) (x : DdrCh) (d : Dev) : (setDdr c x d).ddrS c = x := KMap.get_put_self (fun _ => ({} : DdrCh)) d.ddr.ch c x

theorem meter_setDdr (c : Nat) (x : DdrCh) (d : Dev) : (setDdr c x d).ddr.meter = d.ddr.meter := rfl

theorem ddrStep_setDdr (c : Nat) (x : DdrCh) (d : Dev) : DdrStep [] d (setDdr c x d) := ddrStep_of_eq fun _ => rfl

theorem leaves_ddrPerf (code n : Nat) (d : Dev) : Leaves [] d (ddrPerf code n d) := leaves_perf 0x12 (by unfold PerfBase; omega) code n d

theorem leaves_ddrStat (c i n : Nat) (d : Dev) : Leaves [R.DDR.STAT.COUNT c i] d (ddrStat c i n d) := leaves_put ..

theorem counted_ddrStat (c i n : Nat) (d : Dev) : Counted (R.DDR.STAT.COUNT c i) n d (ddrStat c i n d) := get_put_self ..

/-! ## Banks -/

/-- The counts of page events of a channel. -/
def pageRegs (ch : Nat) : List Fld := [R.DDR.STAT.COUNT ch 9, R.DDR.STAT.COUNT ch 10, R.DDR.STAT.COUNT ch 11]

/-- A step of a channel's banks: the page counts move, and the channel's buffer and the meters stay. -/
structure BankStep (ch : Nat) (d e : Dev) : Prop where
  step : DdrStep (pageRegs ch) d e
  wbuf : (e.ddrS ch).wbuf = (d.ddrS ch).wbuf
  meter : e.ddr.meter = d.ddr.meter

theorem BankStep.trans {ch : Nat} {d e g : Dev} (h : BankStep ch d e) (h' : BankStep ch e g) : BankStep ch d g :=
  ⟨h.step.again h'.step, h'.wbuf.trans h.wbuf, h'.meter.trans h.meter⟩

theorem bankStep_of_leaves {ch : Nat} {fs : List Fld} {d e : Dev} (h : Leaves fs d e) (hs : ∀ f ∈ fs, f ∈ pageRegs ch) : BankStep ch d e :=
  ⟨(ddrStep_of_leaves h).mono hs, by rw [ddrS_of_leaves h], congrArg DdrS.meter (ddr_of_leaves h)⟩

/-- A channel with another bank. -/
def chBank (k : Nat) (b : BankS) (x : DdrCh) : DdrCh := { x with bank := KMap.put (fun _ => {}) x.bank k b }

theorem setBankAt_eq (ch k : Nat) (b : BankS) (d : Dev) : setBankAt ch k b d = setDdr ch (chBank k b (d.ddrS ch)) d := rfl

theorem bankAt_setBankAt (ch k : Nat) (b : BankS) (d : Dev) : (setBankAt ch k b d).bankAt ch k = b := by
  rw [Dev.bankAt, setBankAt_eq, ddrS_setDdr]
  exact KMap.get_put_self (fun _ => ({} : BankS)) (d.ddrS ch).bank k b

theorem bankStep_setBankAt (ch k : Nat) (b : BankS) (d : Dev) : BankStep ch d (setBankAt ch k b d) := by
  rw [setBankAt_eq]
  exact ⟨(ddrStep_setDdr ..).mono (by simp), by rw [ddrS_setDdr]; rfl, meter_setDdr ..⟩

/-- The page event of an access. -/
def pageEvent (ch : Nat) (hit open' : Bool) (d : Dev) : Dev :=
  if hit then ddrPerf 4 1 (ddrStat ch 9 1 d)
  else ddrPerf 3 1 (if open' then ddrStat ch 11 1 d else ddrStat ch 10 1 d)

theorem pageEvent_step (ch : Nat) (hit open' : Bool) (d : Dev) : BankStep ch d (pageEvent ch hit open' d) := by
  have hstat (i : Nat) (hi : R.DDR.STAT.COUNT ch i ∈ pageRegs ch) : BankStep ch d (ddrStat ch i 1 d) :=
    bankStep_of_leaves (leaves_ddrStat ch i 1 d) (by simpa using hi)
  have hperf (c : Nat) (e : Dev) : BankStep ch e (ddrPerf c 1 e) := bankStep_of_leaves (leaves_ddrPerf c 1 e) (by simp)
  cases hit with
  | true => exact (hstat 9 (by simp [pageRegs])).trans (hperf 4 _)
  | false =>
    cases open' with
    | true => exact (hstat 11 (by simp [pageRegs])).trans (hperf 3 _)
    | false => exact (hstat 10 (by simp [pageRegs])).trans (hperf 3 _)

theorem bankAccess_step (ch : Nat) (x : Coord) (d : Dev) : BankStep ch d (bankAccess ch x d) := by
  unfold bankAccess
  dsimp only
  have hpage := pageEvent_step ch ((d.bankAt ch x.key).row == some x.row) (d.bankAt ch x.key).row.isSome d
  unfold pageEvent at hpage
  generalize (if ((d.bankAt ch x.key).row == some x.row) = true then _ else _ : Dev) = e at hpage ⊢
  have hwhen (c : Bool) : BankStep ch e (when c (ddrPerf 0xd 1) e) := bankStep_of_leaves (leaves_when c _ e (leaves_ddrPerf 0xd 1 e)) (by simp)
  exact (hpage.trans (hwhen _)).trans (bankStep_setBankAt ..)

theorem closeBank_step (ch k : Nat) (d : Dev) : DdrStep [] d (closeBank ch k d) := by
  unfold closeBank
  dsimp only
  split
  · exact ddrStep_of_eq fun _ => rfl
  · exact ddrStep_refl d

/-- A bank that has been precharged. -/
def bankClosed (b : BankS) : BankS := match b.row with
  | some r => { b with row := none, last := some r }
  | none => b

theorem bankAt_closeBank (ch k : Nat) (d : Dev) : (closeBank ch k d).bankAt ch k = bankClosed (d.bankAt ch k) := by
  unfold closeBank bankClosed
  dsimp only
  cases h : (d.bankAt ch k).row with
  | some r => exact bankAt_setBankAt ..
  | none => rfl

/-! ## The write buffer -/

/-- A channel whose granule leaves the write buffer. -/
def chIssued (g t : Nat) (x : DdrCh) : DdrCh := { x with wbuf := x.wbuf.filter (· != g), busyAt := t }

theorem issueWrite_eq (ch g : Nat) (d : Dev) : issueWrite ch g d = bankAccess ch (d.coord (64 * g)) (setDdr ch (chIssued g d.dt (d.ddrS ch)) d) := rfl

theorem issueWrite_facts (ch g : Nat) (d : Dev) : DdrStep (pageRegs ch) d (issueWrite ch g d) ∧
    ((issueWrite ch g d).ddrS ch).wbuf = (d.ddrS ch).wbuf.filter (· != g) ∧ (issueWrite ch g d).ddr.meter = d.ddr.meter := by
  rw [issueWrite_eq]
  have hset := ddrStep_setDdr ch (chIssued g d.dt (d.ddrS ch)) d
  have hch := congrArg DdrCh.wbuf (ddrS_setDdr ch (chIssued g d.dt (d.ddrS ch)) d)
  have hm := meter_setDdr ch (chIssued g d.dt (d.ddrS ch)) d
  generalize setDdr ch (chIssued g d.dt (d.ddrS ch)) d = e at hset hch hm ⊢
  have hb := bankAccess_step ch (d.coord (64 * g)) e
  exact ⟨hset.trans hb.step, hb.wbuf.trans hch, hb.meter.trans hm⟩

theorem eachIssue_facts (ch : Nat) (gs : List Nat) (d : Dev) : DdrStep (pageRegs ch) d (each (issueWrite ch) gs d) ∧
    ((each (issueWrite ch) gs d).ddrS ch).wbuf = (d.ddrS ch).wbuf.filter (fun g => !gs.contains g) ∧
    (each (issueWrite ch) gs d).ddr.meter = d.ddr.meter := by
  induction gs generalizing d with
  | nil => exact ⟨(ddrStep_refl d).mono (by simp), by simp [each], rfl⟩
  | cons g gs ih =>
    obtain ⟨hs, hw, hm⟩ := issueWrite_facts ch g d
    obtain ⟨ihs, ihw, ihm⟩ := ih (issueWrite ch g d)
    refine ⟨hs.again ihs, ?_, ihm.trans hm⟩
    rw [each, ihw, hw, List.filter_filter]
    refine List.filter_congr fun a _ => ?_
    by_cases hag : a = g <;> simp [hag]

theorem drainTo_facts (ch n : Nat) (d : Dev) : DdrStep (pageRegs ch) d (drainTo ch n d) ∧
    ((drainTo ch n d).ddrS ch).wbuf =
      (d.ddrS ch).wbuf.filter (fun g => !((d.ddrS ch).wbuf.take ((d.ddrS ch).wbuf.length - n)).contains g) ∧
    (drainTo ch n d).ddr.meter = d.ddr.meter := eachIssue_facts ..

/-- The entries of a list that are not among its first ones are among its last ones. -/
theorem filter_not_take (q : List Nat) (n : Nat) :
    (q.filter (fun g => !(q.take n).contains g)).length ≤ q.length - n := by
  have hdrop : q.filter (fun g => !(q.take n).contains g) = (q.drop n).filter (fun g => !(q.take n).contains g) := by
    conv_lhs => arg 2; rw [← List.take_append_drop n q]
    rw [List.filter_append, List.filter_eq_nil_iff.mpr (by simp), List.nil_append]
  rw [hdrop, ← List.length_drop]
  exact List.length_filter_le ..

theorem writeBatch_completes (ch : Fin 4) (s : State) : Completes (.writeBatch ch) s (fun t =>
    (t.dev.ddrS ch.val).wbuf.length ≤ 16 ∧ ((s.dev.ddrS ch.val).wbuf.length ≤ 16 → (t.dev.ddrS ch.val).wbuf = []) ∧
    (∀ g ∈ (t.dev.ddrS ch.val).wbuf, g ∈ (s.dev.ddrS ch.val).wbuf) ∧
    Frame [R.DDR.STAT.COUNT ch.val 9, R.DDR.STAT.COUNT ch.val 10, R.DDR.STAT.COUNT ch.val 11] { s.dev with ddr := t.dev.ddr } s t) := by
  obtain ⟨hs, hw, -⟩ := drainTo_facts ch.val (if 16 < (s.dev.ddrS ch.val).wbuf.length then 16 else 0) s.dev
  have hlen := filter_not_take (s.dev.ddrS ch.val).wbuf
    ((s.dev.ddrS ch.val).wbuf.length - if 16 < (s.dev.ddrS ch.val).wbuf.length then 16 else 0)
  rw [← hw] at hlen
  generalize he : drainTo ch.val (if 16 < (s.dev.ddrS ch.val).wbuf.length then 16 else 0) s.dev = e at hs hw hlen
  refine completes_to (exec_writeBatch ch s) e he ?_
  have hch : (s.after e).dev.ddrS ch.val = e.ddrS ch.val := rfl
  rw [hch]
  refine ⟨by split at hlen <;> omega, fun hle => ?_, fun g hg => ?_, hs.frame s⟩
  · rw [if_neg (by omega)] at hlen
    exact List.length_eq_zero_iff.mp (by omega)
  · rw [hw] at hg
    exact (List.mem_filter.mp hg).1

theorem precharge_completes (ch : Fin 4) (b : Fin 128) (r : Nat) (e : Dev) (s : State) (hrow : (s.dev.bankAt ch.val b.val).row = some r)
    (he : e = reach (((s.dev.bankAt ch.val b.val).hitAt + cdiv (256 * 2000 * 65536) s.dev.dramRate) % 2 ^ 64) s.dev) :
    Completes (.precharge ch b) s (fun t =>
      (t.dev.bankAt ch.val b.val).row = none ∧ (t.dev.bankAt ch.val b.val).pred = (e.bankAt ch.val b.val).pred ∧
      Frame [] { e with ddr := t.dev.ddr } s t) := by
  refine completes_to (exec_precharge ch b s) (closeBank ch.val b.val e) ?_ ?_
  · dsimp only
    rw [if_neg (by simp [hrow]), he]
  · have hbank : (s.after (closeBank ch.val b.val e)).dev.bankAt ch.val b.val = bankClosed (e.bankAt ch.val b.val) := bankAt_closeBank ..
    rw [hbank]
    refine ⟨?_, ?_, (closeBank_step ch.val b.val e).frame s⟩ <;> unfold bankClosed <;> split
    · rfl
    · next h => exact h
    · rfl
    · rfl

/-! ## Requests -/

/-- A granule that lies in DRAM lies on one of its channels. -/
theorem locate_mem {d : Dev} (h : d.channels ≠ []) (a : Nat) : (d.locate a).1 ∈ d.channels := by
  have hn : 0 < d.channels.length := List.length_pos_iff.mpr h
  unfold Dev.locate
  dsimp only
  rw [nth_eq_getElem 0 (Nat.mod_lt _ hn)]
  exact List.getElem_mem _

theorem channel_lt {d : Dev} {c : Nat} (h : c ∈ d.channels) : c < 4 := List.mem_range.mp (List.mem_filter.mp h).1

/-- The place of an address rests on these registers. -/
theorem locate_congr {d e : Dev} (h : ∀ f ∈ [R.DDR.CAP.ACTIVE, R.DDR.MAP.GRAIN, R.DDR.MAP.HASH], e.get f = d.get f) (a : Nat) : e.locate a = d.locate a := by
  simp only [List.mem_cons, List.not_mem_nil, or_false, forall_eq_or_imp, forall_eq] at h
  obtain ⟨h1, h2, h3⟩ := h
  unfold Dev.locate Dev.channels Dev.on
  rw [h1, h2, h3]

theorem physKey_congr {d e : Dev} (h : ∀ f ∈ [R.DDR.CAP.ACTIVE, R.DDR.MAP.GRAIN, R.DDR.MAP.HASH], e.get f = d.get f) (a : Nat) :
    e.physKey a = d.physKey a := by rw [Dev.physKey, locate_congr h, Dev.physKey]

/-- A request is in service: its bytes are metered, and its channel wakes. -/
def reqServed (u ch : Nat) (d : Dev) : Dev :=
  let d := when (d.get (R.DDR.CH_STATUS.STATE ch) == 3) (put (R.DDR.CH_STATUS.STATE ch) 2) (meterUser u 64 d)
  setDdr ch { d.ddrS ch with busyAt := d.dt } d

theorem reqServed_facts (u ch : Nat) (d : Dev) : DdrStep [R.DDR.CH_STATUS.STATE ch] d (reqServed u ch d) ∧
    num (reqServed u ch d).ddr.meter u = num d.ddr.meter u + 64 := by
  have hmeter : DdrStep [] d (meterUser u 64 d) := ddrStep_of_eq fun _ => rfl
  have hnum : num (meterUser u 64 d).ddr.meter u = num d.ddr.meter u + 64 :=
    KMap.get_put_self (fun _ => 0) d.ddr.meter u (num d.ddr.meter u + 64)
  have hstate : (meterUser u 64 d).get (R.DDR.CH_STATUS.STATE ch) = d.get (R.DDR.CH_STATUS.STATE ch) := rfl
  unfold reqServed
  dsimp only
  rw [← hstate]
  generalize meterUser u 64 d = e at hmeter hnum ⊢
  have hwake := leaves_when (e.get (R.DDR.CH_STATUS.STATE ch) == 3) (put (R.DDR.CH_STATUS.STATE ch) 2) e (leaves_put ..)
  have hsame : (when (e.get (R.DDR.CH_STATUS.STATE ch) == 3) (put (R.DDR.CH_STATUS.STATE ch) 2) e).ddr = e.ddr := ddr_of_leaves hwake
  generalize when (e.get (R.DDR.CH_STATUS.STATE ch) == 3) (put (R.DDR.CH_STATUS.STATE ch) 2) e = g at hwake hsame ⊢
  refine ⟨(hmeter.trans (ddrStep_of_leaves hwake)).trans (ddrStep_setDdr ..), ?_⟩
  rw [meter_setDdr, hsame, hnum]

theorem dramRequest_served {u a : Nat} {data : Option (List Byte)} {err : DramErr} {m : Mem} {d : Dev} {n : Nat}
    (hn : n = (match data with | some bs => bs.length | none => 64 - a % 64)) (hhas : d.dramHas a n = true) (hne : n ≠ 0) (hgran : a % 64 + n ≤ 64)
    (hgrant : d.atGrant u 64 = false) : dramRequest u a data err m d =
      match data with
      | some bs => writeRequest (d.locate a).1 a bs err m (reqServed u (d.locate a).1 d)
      | none => readRequest (d.locate a).1 a err m (reqServed u (d.locate a).1 d) := by
  cases data with
  | some bs =>
    subst hn
    unfold dramRequest
    dsimp only
    rw [if_neg (by simp [hhas]; simp at hne; exact ⟨hne, by omega⟩), if_neg (by simp [hgrant])]
    rfl
  | none =>
    subst hn
    unfold dramRequest
    dsimp only
    rw [if_neg (by simp [hhas]; omega), if_neg (by simp [hgrant])]
    rfl

theorem dramRequest_atGrant {u a : Nat} {data : Option (List Byte)} {err : DramErr} {m : Mem} {d : Dev} {n : Nat}
    (hn : n = (match data with | some bs => bs.length | none => 64 - a % 64)) (hhas : d.dramHas a n = true) (hne : n ≠ 0) (hgran : a % 64 + n ≤ 64)
    (hgrant : d.atGrant u 64 = true) : dramRequest u a data err m d = holdUser u d := by
  cases data with
  | some bs =>
    subst hn
    unfold dramRequest
    dsimp only
    rw [if_neg (by simp [hhas]; simp at hne; exact ⟨hne, by omega⟩), if_pos hgrant]
  | none =>
    subst hn
    unfold dramRequest
    dsimp only
    rw [if_neg (by simp [hhas]; omega), if_pos hgrant]

theorem dramHas_facts {d : Dev} {a n : Nat} (h : d.dramHas a n = true) : d.channels ≠ [] ∧ a + n ≤ d.dramEnd := by
  simpa [Dev.dramHas] using h

/-! ### At the grant -/

/-- The flag of a user that yields. -/
def yieldFlag (u : Nat) : Fld := match u with
  | 3 => R.TOP.DRAM_YIELD.HOST_IMG
  | 4 => R.TOP.DRAM_YIELD.TILES
  | _ => R.TOP.DRAM_YIELD.RECORDER

theorem holdUser_facts {u : Nat} (hu : u = 3 ∨ u = 4 ∨ u = 5) (d : Dev) :
    Upto withYielding [R.TOP.DRAM_YIELD.SEQ, yieldFlag u] d (holdUser u d) ∧
    Raised R.TOP.DRAM_YIELD.SEQ [yieldFlag u] d (holdUser u d) ∧ flag (holdUser u d).yielding u = true := by
  obtain ⟨f, hf, heq⟩ : ∃ f ∈ [R.TOP.DRAM_YIELD.HOST_IMG, R.TOP.DRAM_YIELD.TILES, R.TOP.DRAM_YIELD.RECORDER], yieldFlag u = f ∧
      holdUser u d = event 0 R.TOP.DRAM_YIELD.SEQ [f] (withYielding (setFlag u true d.yielding) d) := by
    rcases hu with rfl | rfl | rfl
    · exact ⟨R.TOP.DRAM_YIELD.HOST_IMG, by simp, rfl, rfl⟩
    · exact ⟨R.TOP.DRAM_YIELD.TILES, by simp, rfl, rfl⟩
    · exact ⟨R.TOP.DRAM_YIELD.RECORDER, by simp, rfl, rfl⟩
  obtain ⟨hflag, hhold⟩ := heq
  have hfacts : bookKey f.key = false ∧ f.w = 1 ∧ R.TOP.DRAM_YIELD.SEQ.key ≠ f.key := by
    clear hflag hhold
    clear * - hf
    revert f
    decide
  obtain ⟨hb, hw, hne⟩ := hfacts
  rw [hhold, hflag]
  refine ⟨upto_hold .., raised_event (by simpa [hb] using (by decide : bookKey R.TOP.DRAM_YIELD.SEQ.key = false)) (by simpa using hw) (by simpa using hne) rfl, ?_⟩
  have hev := leaves_event 0 R.TOP.DRAM_YIELD.SEQ [f] (withYielding (setFlag u true d.yielding) d)
  rw [yielding_of_leaves hev]
  exact flag_setFlag u true d.yielding

theorem yields_of_atGrant {d : Dev} {u : Fin 6} {n : Nat} (h : d.atGrant u.val n = true) : u.val = 3 ∨ u.val = 4 ∨ u.val = 5 := by
  have hge : 3 ≤ u.val := by
    by_contra hlt
    have : decide (3 ≤ u.val) = false := decide_eq_false hlt
    simp [Dev.atGrant, Dev.yields, this] at h
  have := u.isLt
  omega

theorem dramRequest_held (u : Fin 6) (a : BitVec 37) (data : Option (List Byte)) (err : DramErr) (n : Nat) (s : State)
    (hn : n = (match data with | some bs => bs.length | none => 64 - a.toNat % 64)) (hhas : s.dev.dramHas a.toNat n = true) (hne : n ≠ 0)
    (hgran : a.toNat % 64 + n ≤ 64) (hgrant : s.dev.atGrant u.val 64 = true) :
    Completes (.dramRequest u a data err) s (fun t =>
      flag t.dev.yielding u.val = true ∧ (u.val = 3 → Raised R.TOP.DRAM_YIELD.SEQ [R.TOP.DRAM_YIELD.HOST_IMG] s.dev t.dev) ∧
      (u.val = 4 → Raised R.TOP.DRAM_YIELD.SEQ [R.TOP.DRAM_YIELD.TILES] s.dev t.dev) ∧
      (u.val = 5 → Raised R.TOP.DRAM_YIELD.SEQ [R.TOP.DRAM_YIELD.RECORDER] s.dev t.dev) ∧
      Frame [R.TOP.DRAM_YIELD.SEQ, R.TOP.DRAM_YIELD.HOST_IMG, R.TOP.DRAM_YIELD.TILES, R.TOP.DRAM_YIELD.RECORDER]
        { s.dev with yielding := t.dev.yielding } s t) := by
  have hu := yields_of_atGrant hgrant
  obtain ⟨hup, hr, hf⟩ := holdUser_facts hu s.dev
  refine completes_to (exec_dramRequest u a data err s) (holdUser u.val s.dev) ?_ ?_
  · exact dramRequest_atGrant hn hhas hne hgran hgrant
  · have hr' := raised_after hr s
    have hmono : Upto withYielding [R.TOP.DRAM_YIELD.SEQ, R.TOP.DRAM_YIELD.HOST_IMG, R.TOP.DRAM_YIELD.TILES, R.TOP.DRAM_YIELD.RECORDER] s.dev
        (holdUser u.val s.dev) := hup.mono fun f hf => by
      have hmem : yieldFlag u.val ∈ [R.TOP.DRAM_YIELD.HOST_IMG, R.TOP.DRAM_YIELD.TILES, R.TOP.DRAM_YIELD.RECORDER] := by
        rcases hu with h | h | h <;> rw [h] <;> decide
      rcases List.mem_pair.mp hf with rfl | rfl
      · exact List.mem_map_of_mem List.mem_cons_self
      · exact List.mem_map_of_mem (List.mem_cons_of_mem _ hmem)
    refine ⟨hf, fun h => ?_, fun h => ?_, fun h => ?_, frame_of_upto hmono s (holdUser u.val s.dev).yielding rfl⟩ <;>
      · rw [h] at hr' ⊢
        exact hr'

/-! ### Writes -/

/-- The oldest granules leave a full buffer, and the granule of a write enters it. -/
def buffered (ch g : Nat) (d : Dev) : Dev :=
  if (d.ddrS ch).wbuf.contains g then d
  else
    let e := if 64 ≤ (d.ddrS ch).wbuf.length then drainTo ch 16 d else d
    setDdr ch { e.ddrS ch with wbuf := (e.ddrS ch).wbuf ++ [g] } e

theorem buffered_facts (ch g : Nat) (d : Dev) : DdrStep (pageRegs ch) d (buffered ch g d) ∧
    ((buffered ch g d).ddrS ch).wbuf.contains g = true ∧ (buffered ch g d).ddr.meter = d.ddr.meter := by
  unfold buffered
  dsimp only
  split
  · next h => exact ⟨(ddrStep_refl d).mono (by simp), h, rfl⟩
  · have hdrain : DdrStep (pageRegs ch) d (if 64 ≤ (d.ddrS ch).wbuf.length then drainTo ch 16 d else d) ∧
        (if 64 ≤ (d.ddrS ch).wbuf.length then drainTo ch 16 d else d).ddr.meter = d.ddr.meter := by
      split
      · exact ⟨(drainTo_facts ch 16 d).1, (drainTo_facts ch 16 d).2.2⟩
      · exact ⟨(ddrStep_refl d).mono (by simp), rfl⟩
    generalize (if 64 ≤ (d.ddrS ch).wbuf.length then drainTo ch 16 d else d) = e at hdrain ⊢
    refine ⟨(hdrain.1.trans (ddrStep_setDdr ..)).mono (by simp), ?_, (meter_setDdr ..).trans hdrain.2⟩
    rw [ddrS_setDdr]
    simp

theorem writeRequest_whole {ch a : Nat} {bs : List Byte} {m : Mem} {d : Dev} (h : bs.length = 64) :
    writeRequest ch a bs .clean m d = buffered ch ((d.locate a).2 / 64) (dramWrite a bs (ddrPerf 2 1 d)) := by
  have hpart : decide (bs.length < 64) = false := decide_eq_false (by omega)
  unfold writeRequest
  rw [hpart]
  rfl

theorem dramRequest_writes (u : Fin 6) (a : BitVec 37) (bs : List Byte) (s : State) (hhas : s.dev.dramHas a.toNat bs.length = true)
    (hlen : bs.length = 64) (hal : a.toNat % 64 = 0) (hgrant : s.dev.atGrant u.val 64 = false) :
    Completes (.dramRequest u a (some bs) .clean) s (fun t =>
      num t.dev.ddr.meter u.val = num s.dev.ddr.meter u.val + 64 ∧
      (t.dev.ddrS (s.dev.locate a.toNat).1).wbuf.contains ((s.dev.locate a.toNat).2 / 64) = true ∧
      t.mem = (s.after (dramWrite a.toNat bs s.dev)).mem) := by
  have hdev := dramRequest_served (u := u.val) (a := a.toNat) (data := some bs) (err := .clean) (m := s.mem) (n := bs.length) rfl hhas (by omega) (by omega) hgrant
  dsimp only at hdev
  rw [writeRequest_whole hlen] at hdev
  obtain ⟨hch, hend⟩ := dramHas_facts hhas
  obtain ⟨hserved, hmeter⟩ := reqServed_facts u.val (s.dev.locate a.toNat).1 s.dev
  have hclt := channel_lt (locate_mem hch a.toNat)
  have hkeys : ∀ f ∈ [R.DDR.CAP.ACTIVE, R.DDR.MAP.GRAIN, R.DDR.MAP.HASH, R.DDR.CAP.MIB],
      bookKey f.key = false ∧ f.key ∉ [R.DDR.CH_STATUS.STATE (s.dev.locate a.toNat).1].map Fld.key := by
    generalize (s.dev.locate a.toNat).1 = c at hclt
    clear * - hclt
    decide +revert
  generalize hc : (s.dev.locate a.toNat).1 = c at *
  generalize reqServed u.val c s.dev = e at *
  have hloc : e.locate a.toNat = s.dev.locate a.toNat := locate_congr (fun f hf => hserved.get (hkeys f (by revert hf; simp; tauto)).1 (hkeys f (by revert hf; simp; tauto)).2) _
  have hperf := leaves_ddrPerf 2 1 e
  have hstep := hserved.trans (ddrStep_of_leaves hperf)
  have hm2 : (ddrPerf 2 1 e).ddr.meter = e.ddr.meter := congrArg DdrS.meter (ddr_of_leaves hperf)
  rw [hloc] at hdev
  generalize ddrPerf 2 1 e = e2 at *
  have hget (f : Fld) (hf : f ∈ [R.DDR.CAP.ACTIVE, R.DDR.MAP.GRAIN, R.DDR.MAP.HASH, R.DDR.CAP.MIB]) : e2.get f = s.dev.get f :=
    hstep.get (hkeys f hf).1 (by simpa using (hkeys f hf).2)
  have hkey : e2.physKey a.toNat = s.dev.physKey a.toNat := physKey_congr (fun f hf => hget f (by revert hf; simp; tauto)) _
  have hchan : e2.channels = s.dev.channels := by rw [Dev.channels, hget _ (by simp), Dev.channels]
  have hend2 : e2.dramEnd = s.dev.dramEnd := by rw [Dev.dramEnd, hget _ (by simp), Dev.dramEnd]
  have hne : bs ≠ [] := by
    rintro rfl
    simp at hlen
  have hw2 : dramWrite a.toNat bs e2 = post (.write (s.dev.physKey a.toNat) bs) e2 := by
    rw [dramWrite_one (by rw [hchan]; exact hch) (by rw [hend2]; exact hend) hne (by omega), hkey]
  rw [hw2] at hdev
  have hpost : (post (.write (s.dev.physKey a.toNat) bs) e2).posted = (dramWrite a.toNat bs s.dev).posted := by
    rw [dramWrite_one hch hend hne (by omega)]
    exact congrArg (· ++ [MemOp.write (s.dev.physKey a.toNat) bs]) hstep.posted
  have hm3 : (post (.write (s.dev.physKey a.toNat) bs) e2).ddr.meter = e2.ddr.meter := rfl
  obtain ⟨hbs, hbw, hbm⟩ := buffered_facts c ((s.dev.locate a.toNat).2 / 64) (post (.write (s.dev.physKey a.toNat) bs) e2)
  generalize buffered c ((s.dev.locate a.toNat).2 / 64) (post (.write (s.dev.physKey a.toNat) bs) e2) = e3 at *
  refine completes_to (exec_dramRequest u a (some bs) .clean s) e3 hdev ⟨?_, hbw, ?_⟩
  · refine (?_ : num e3.ddr.meter u.val = _)
    rw [hbm, hm3, hm2, hmeter]
  · refine congrArg s.mem.applyAll (hbs.posted.trans hpost)

/-! ### Reads -/

/-- The counts of a channel that a read can move. -/
def readRegs (ch : Nat) : List Fld := R.DDR.STAT.COUNT ch 8 :: pageRegs ch

/-- A read has taken its granule out of the write buffer and has reached its row. -/
def readReached (ch l : Nat) (x : Coord) (d : Dev) : Dev :=
  let d := ddrPerf 1 1 d
  bankAccess ch x (if (d.ddrS ch).wbuf.contains (l / 64) then issueWrite ch (l / 64) (ddrPerf 5 1 (ddrStat ch 8 1 d)) else d)

theorem readReached_facts (ch l : Nat) (x : Coord) (d : Dev) :
    DdrStep (readRegs ch) d (readReached ch l x d) ∧ (readReached ch l x d).ddr.meter = d.ddr.meter := by
  have hperf := leaves_ddrPerf 1 1 d
  have hm : (ddrPerf 1 1 d).ddr.meter = d.ddr.meter := congrArg DdrS.meter (ddr_of_leaves hperf)
  unfold readReached
  dsimp only
  generalize ddrPerf 1 1 d = e at hperf hm ⊢
  have hbuf : DdrStep (readRegs ch) e (if (e.ddrS ch).wbuf.contains (l / 64) then issueWrite ch (l / 64) (ddrPerf 5 1 (ddrStat ch 8 1 e)) else e) ∧
      (if (e.ddrS ch).wbuf.contains (l / 64) then issueWrite ch (l / 64) (ddrPerf 5 1 (ddrStat ch 8 1 e)) else e).ddr.meter = e.ddr.meter := by
    split
    · have hcount := (leaves_ddrStat ch 8 1 e).trans (leaves_ddrPerf 5 1 _)
      have hc : (ddrPerf 5 1 (ddrStat ch 8 1 e)).ddr.meter = e.ddr.meter := congrArg DdrS.meter (ddr_of_leaves hcount)
      generalize ddrPerf 5 1 (ddrStat ch 8 1 e) = g at hcount hc ⊢
      obtain ⟨hi, -, him⟩ := issueWrite_facts ch (l / 64) g
      exact ⟨((ddrStep_of_leaves hcount).trans hi).mono (by simp [readRegs]), him.trans hc⟩
    · exact ⟨(ddrStep_refl e).mono (by simp), rfl⟩
  generalize (if (e.ddrS ch).wbuf.contains (l / 64) then issueWrite ch (l / 64) (ddrPerf 5 1 (ddrStat ch 8 1 e)) else e) = g at hbuf ⊢
  have hbank := bankAccess_step ch x g
  exact ⟨(((ddrStep_of_leaves hperf).trans hbuf.1).trans hbank.step).mono (by simp [readRegs]), hbank.meter.trans (hbuf.2.trans hm)⟩

theorem readRequest_written {ch a : Nat} {err : DramErr} {m : Mem} {d e : Dev} (he : readReached ch (d.locate a).2 (d.coord (d.locate a).2) d = e)
    (hmark : (e.view m).mark (e.physKey a / 64) = .written) : readRequest ch a err m d =
      match err with
      | .clean => e
      | .corrected => corrected ch a (d.coord (d.locate a).2) e
      | .uncorrectable syn => uncorrectable ch a (d.coord (d.locate a).2) syn.toNat false m (post (.poison (e.physKey a / 64)) e) := by
  unfold readRequest
  subst he
  unfold readReached at hmark ⊢
  dsimp only at hmark ⊢
  rw [hmark] <;> cases err <;> rfl

/-- The registers that place an address, and those of an uncorrectable error that nothing after it writes. -/
def placeRegs : List Fld := [R.DDR.CAP.ACTIVE, R.DDR.MAP.GRAIN, R.DDR.MAP.HASH]

/-- A read of a written granule that is in service, as far as the ECC. -/
theorem readServed (u : Fin 6) (a : BitVec 37) (err : DramErr) (s : State) (hset : s.settled) (hhas : s.dev.dramHas a.toNat (64 - a.toNat % 64) = true)
    (hgrant : s.dev.atGrant u.val 64 = false) (hmark : s.mem.mark (s.dev.physKey a.toNat / 64) = .written) :
    ∃ (e : Dev) (x : Coord), DdrStep (R.DDR.CH_STATUS.STATE (s.dev.locate a.toNat).1 :: readRegs (s.dev.locate a.toNat).1) s.dev e ∧
      num e.ddr.meter u.val = num s.dev.ddr.meter u.val + 64 ∧
      dramRequest u.val a.toNat none err s.mem s.dev = (match err with
        | .clean => e
        | .corrected => corrected (s.dev.locate a.toNat).1 a.toNat x e
        | .uncorrectable syn => uncorrectable (s.dev.locate a.toNat).1 a.toNat x syn.toNat false s.mem (post (.poison (s.dev.physKey a.toNat / 64)) e)) := by
  have hdev := dramRequest_served (u := u.val) (a := a.toNat) (data := none) (err := err) (m := s.mem) (n := 64 - a.toNat % 64) rfl hhas (by omega) (by omega)
    hgrant
  dsimp only at hdev
  obtain ⟨hch, -⟩ := dramHas_facts hhas
  have hclt := channel_lt (locate_mem hch a.toNat)
  obtain ⟨hserved, hmeter⟩ := reqServed_facts u.val (s.dev.locate a.toNat).1 s.dev
  obtain ⟨hread, hrm⟩ := readReached_facts (s.dev.locate a.toNat).1 ((reqServed u.val (s.dev.locate a.toNat).1 s.dev).locate a.toNat).2
    ((reqServed u.val (s.dev.locate a.toNat).1 s.dev).coord ((reqServed u.val (s.dev.locate a.toNat).1 s.dev).locate a.toNat).2)
    (reqServed u.val (s.dev.locate a.toNat).1 s.dev)
  have hkeys : ∀ f ∈ placeRegs, bookKey f.key = false ∧
      f.key ∉ (R.DDR.CH_STATUS.STATE (s.dev.locate a.toNat).1 :: readRegs (s.dev.locate a.toNat).1).map Fld.key := by
    generalize (s.dev.locate a.toNat).1 = c at hclt
    clear * - hclt
    decide +revert
  generalize (s.dev.locate a.toNat).1 = c at *
  generalize reqServed u.val c s.dev = d1 at *
  generalize he : readReached c (d1.locate a.toNat).2 (d1.coord (d1.locate a.toNat).2) d1 = e at *
  have hstep : DdrStep (R.DDR.CH_STATUS.STATE c :: readRegs c) s.dev e := hserved.trans hread
  have hkey : e.physKey a.toNat = s.dev.physKey a.toNat := physKey_congr (fun f hf => hstep.get (hkeys f hf).1 (hkeys f hf).2) _
  have hview : e.view s.mem = s.mem := view_of_posted (hstep.posted.trans hset) s.mem
  rw [readRequest_written he (by rw [hview, hkey, hmark]), hkey] at hdev
  refine ⟨e, _, hstep, by rw [hrm, hmeter], hdev⟩

theorem dramRequest_reads (u : Fin 6) (a : BitVec 37) (s : State) (hset : s.settled) (hhas : s.dev.dramHas a.toNat (64 - a.toNat % 64) = true)
    (hgrant : s.dev.atGrant u.val 64 = false) (hmark : s.mem.mark (s.dev.physKey a.toNat / 64) = .written) :
    Completes (.dramRequest u a none .clean) s (fun t =>
      num t.dev.ddr.meter u.val = num s.dev.ddr.meter u.val + 64 ∧
      Frame [R.DDR.CH_STATUS.STATE (s.dev.locate a.toNat).1, R.DDR.STAT.COUNT (s.dev.locate a.toNat).1 8,
        R.DDR.STAT.COUNT (s.dev.locate a.toNat).1 9, R.DDR.STAT.COUNT (s.dev.locate a.toNat).1 10, R.DDR.STAT.COUNT (s.dev.locate a.toNat).1 11]
        { s.dev with ddr := t.dev.ddr } s t) := by
  obtain ⟨e, x, hstep, hmeter, hdev⟩ := readServed u a .clean s hset hhas hgrant hmark
  exact completes_to (exec_dramRequest u a none .clean s) e hdev ⟨hmeter, hstep.frame s⟩

/-! ### Uncorrectable errors -/

/-- What nothing after an uncorrectable error has been shown writes. -/
def ueKept : List Fld := [R.DDR.UE_ADDR.A, R.DDR.UE_LOC.CH, R.DDR.STATUS.UE, R.DDR.RET_CTL.AUTO]

theorem ueKept_book : ∀ f ∈ ueKept, bookKey f.key = false := by decide

/-- From `d` to `e` the error that is shown stays, and no effect on DRAM is posted. -/
structure KeepsUe (d e : Dev) : Prop where
  get : ∀ f ∈ ueKept, e.get f = d.get f
  posted : e.posted = d.posted

theorem KeepsUe.refl (d : Dev) : KeepsUe d d := ⟨fun _ _ => rfl, rfl⟩

theorem KeepsUe.trans {d e g : Dev} (h : KeepsUe d e) (h' : KeepsUe e g) : KeepsUe d g :=
  ⟨fun f hf => (h'.get f hf).trans (h.get f hf), h'.posted.trans h.posted⟩

theorem keepsUe_of_ddrStep {fs : List Fld} {d e : Dev} (h : DdrStep fs d e) (hs : ∀ f ∈ ueKept, f.key ∉ fs.map Fld.key) : KeepsUe d e :=
  ⟨fun f hf => h.get (ueKept_book f hf) (hs f hf), h.posted⟩

theorem keepsUe_of_leaves {fs : List Fld} {d e : Dev} (h : Leaves fs d e) (hs : ∀ f ∈ ueKept, f.key ∉ fs.map Fld.key) : KeepsUe d e :=
  keepsUe_of_ddrStep (ddrStep_of_leaves h) hs

theorem keepsUe_setDdr (c : Nat) (x : DdrCh) (d : Dev) : KeepsUe d (setDdr c x d) := keepsUe_of_ddrStep (ddrStep_setDdr c x d) (by simp)

theorem keepsUe_errEvent (b : Nat) (d : Dev) : KeepsUe d (errEvent b d) := by
  have hkeys : ∀ f ∈ ueKept, f.key ∉ errFlds.map Fld.key := by decide
  exact ⟨fun f hf => ((errEvent_upto b d).leaves d.snap).get (ueKept_book f hf) (hkeys f hf), ((errEvent_upto b d).leaves d.snap).posted⟩

/-- The registers of a remap entry lie behind those of the controller. -/
theorem remapRegs_kept (ch e : Nat) : ∀ f ∈ ueKept, f.key ∉ [R.DDR.REMAP.ROWID ch e, R.DDR.REMAP.SPARE ch e, R.DDR.REMAP.HPPR ch e].map Fld.key := by
  simp only [ueKept, List.mem_cons, List.not_mem_nil, or_false, forall_eq_or_imp, forall_eq, List.map_cons, List.map_nil, Fld.key, R.DDR.UE_ADDR.A,
    R.DDR.UE_LOC.CH, R.DDR.STATUS.UE, R.DDR.RET_CTL.AUTO, R.DDR.REMAP.ROWID, R.DDR.REMAP.SPARE, R.DDR.REMAP.HPPR]
  omega

theorem relocate_keepsUe (ch : Nat) (x : Coord) (d : Dev) : KeepsUe d (relocate ch x d) := by
  unfold relocate
  dsimp only
  split
  · exact .refl d
  · split
    · exact keepsUe_of_leaves (leaves_event 0x12 R.DDR.STATUS.SEQ [R.DDR.STATUS.REMAP_FULL] d) (by decide)
    · next e _ =>
      refine KeepsUe.trans (keepsUe_of_leaves (leaves_puts [(R.DDR.REMAP.ROWID ch e, _), (R.DDR.REMAP.SPARE ch e, _), (R.DDR.REMAP.HPPR ch e, _)] d) ?_)
        (keepsUe_setDdr ..)
      exact remapRegs_kept ch e

/-- Without AUTO a channel fault makes a log entry at most. -/
theorem channelFault_keepsUe {ch : Nat} {m : Mem} {d : Dev} (h : d.on R.DDR.RET_CTL.AUTO = false) : KeepsUe d (channelFault ch false m d) := by
  unfold channelFault
  split
  · exact .refl d
  · refine (?_ : KeepsUe d (if d.on R.DDR.RET_CTL.AUTO then _ else logEv 0x127f ch 2 ch d))
    rw [if_neg (by simp [h])]
    exact keepsUe_of_leaves (leaves_logEv ..) (by simp)

/-- The registers that show an uncorrectable error are written. -/
def ueShown (ch a : Nat) (x : Coord) (syn : Nat) (d : Dev) : Dev :=
  event 0x12 R.DDR.STATUS.SEQ [R.DDR.STATUS.UE] <|
    puts [(R.DDR.UE_ADDR.A, a), (R.DDR.UE_LOC.CH, ch), (R.DDR.UE_LOC.RANK, x.rank), (R.DDR.UE_LOC.SC, x.sc), (R.DDR.UE_LOC.BG, x.bg),
      (R.DDR.UE_LOC.BANK, x.bank), (R.DDR.UE_LOC.ROW, x.row), (R.DDR.UE_LOC.COL, x.col), (R.DDR.UE_SYN.SYN, syn), (R.DDR.UE_SYN.SCRUB, b2n false)] d

theorem ueShown_facts {ch a : Nat} (hch : ch < 4) (ha : a < 2 ^ 37) (x : Coord) (syn : Nat) (d : Dev) :
    (ueShown ch a x syn d).on R.DDR.STATUS.UE = true ∧ (ueShown ch a x syn d).get R.DDR.UE_ADDR.A = a ∧
    (ueShown ch a x syn d).get R.DDR.UE_LOC.CH = ch ∧ (ueShown ch a x syn d).on R.DDR.RET_CTL.AUTO = d.on R.DDR.RET_CTL.AUTO ∧
    (ueShown ch a x syn d).posted = d.posted := by
  have hget {f : Fld} (hb : bookKey f.key = false) (hne : f.key ∉ (seqAnd R.DDR.STATUS.SEQ [R.DDR.STATUS.UE]).map Fld.key) (g : Dev) :
      (event 0x12 R.DDR.STATUS.SEQ [R.DDR.STATUS.UE] g).get f = g.get f := (leaves_event 0x12 R.DDR.STATUS.SEQ [R.DDR.STATUS.UE] g).get hb hne
  unfold ueShown
  refine ⟨?_, ?_, ?_, ?_, ?_⟩
  · rw [Dev.on, get_event_flag (by decide) (by decide) (by simp)]
    rfl
  · rw [hget (by decide) (by decide), puts, get_puts_ne _ _ (by simp only [List.map]; decide), get_put_self]
    exact Nat.mod_eq_of_lt ha
  · rw [hget (by decide) (by decide), puts, puts, get_puts_ne _ _ (by simp only [List.map]; decide), get_put_self]
    exact Nat.mod_eq_of_lt hch
  · rw [Dev.on, hget (by decide) (by decide), get_puts_ne _ _ (by simp only [List.map]; decide)]
    rfl
  · exact ((leaves_puts _ d).trans (leaves_event 0x12 R.DDR.STATUS.SEQ [R.DDR.STATUS.UE] _)).posted

/-- What follows once an uncorrectable error is shown: counts, the log, the row's relocation, and the channel fault that too many are. -/
def ueFollowed (ch a : Nat) (x : Coord) (m : Mem) (d : Dev) : Dev :=
  let d := relocate ch x (errEvent 0 (logEv 0x128a ch 3 a (ddrPerf 8 1 (ddrStat ch 1 1 d))))
  let recent := (d.ddrS ch).ueAt.filter (fun t => decide (dtDiff d.dt t ≤ 1000000000 * 65536)) ++ [d.dt]
  let d := setDdr ch { d.ddrS ch with ueAt := recent } d
  if d.get R.DDR.RET_CTL.UE_MAX ≤ recent.length then channelFault ch false m d else d

theorem uncorrectable_eq (ch a : Nat) (x : Coord) (syn : Nat) (m : Mem) (d : Dev) :
    uncorrectable ch a x syn false m d = ueFollowed ch a x m (ueShown ch a x syn d) := rfl

theorem ueFollowed_keeps {ch : Nat} (hch : ch < 4) (a : Nat) (x : Coord) (m : Mem) {d : Dev} (hauto : d.on R.DDR.RET_CTL.AUTO = false) :
    KeepsUe d (ueFollowed ch a x m d) := by
  have h0 : KeepsUe d (logEv 0x128a ch 3 a (ddrPerf 8 1 (ddrStat ch 1 1 d))) :=
    keepsUe_of_leaves ((leaves_ddrStat ch 1 1 d).trans ((leaves_ddrPerf 8 1 _).trans (leaves_logEv ..))) (by clear * - hch; decide +revert)
  unfold ueFollowed
  dsimp only
  generalize logEv 0x128a ch 3 a (ddrPerf 8 1 (ddrStat ch 1 1 d)) = e at h0 ⊢
  have h1 := (h0.trans (keepsUe_errEvent 0 e)).trans (relocate_keepsUe ch x (errEvent 0 e))
  generalize relocate ch x (errEvent 0 e) = g at h1 ⊢
  generalize (g.ddrS ch).ueAt.filter (fun t => decide (dtDiff g.dt t ≤ 1000000000 * 65536)) ++ [g.dt] = recent
  have h2 := h1.trans (keepsUe_setDdr ch { g.ddrS ch with ueAt := recent } g)
  generalize setDdr ch { g.ddrS ch with ueAt := recent } g = k at h2 ⊢
  split
  · refine h2.trans (channelFault_keepsUe ?_)
    rw [Dev.on, h2.get _ (by simp [ueKept])]
    exact hauto
  · exact h2

theorem dramRequest_poisons (u : Fin 6) (a : BitVec 37) (syn : BitVec 16) (s : State) (hset : s.settled)
    (hhas : s.dev.dramHas a.toNat (64 - a.toNat % 64) = true) (hgrant : s.dev.atGrant u.val 64 = false)
    (hmark : s.mem.mark (s.dev.physKey a.toNat / 64) = .written) (hauto : s.dev.on R.DDR.RET_CTL.AUTO = false) :
    Completes (.dramRequest u a none (.uncorrectable syn)) s (fun t =>
      t.dev.on R.DDR.STATUS.UE = true ∧ t.dev.get R.DDR.UE_ADDR.A = a.toNat ∧ t.dev.get R.DDR.UE_LOC.CH = (s.dev.locate a.toNat).1 ∧
      t.mem.mark (s.dev.physKey a.toNat / 64) = .poison) := by
  obtain ⟨e, x, hstep, -, hdev⟩ := readServed u a (.uncorrectable syn) s hset hhas hgrant hmark
  have hclt := channel_lt (locate_mem (dramHas_facts hhas).1 a.toNat)
  have hauto' : e.on R.DDR.RET_CTL.AUTO = false := by
    rw [Dev.on, hstep.get (by decide)]
    · exact hauto
    · generalize (s.dev.locate a.toNat).1 = c at hclt
      clear * - hclt
      decide +revert
  generalize (s.dev.locate a.toNat).1 = c at *
  dsimp only at hdev
  rw [uncorrectable_eq] at hdev
  obtain ⟨hue, haddr, hloc, hon, hposted⟩ := ueShown_facts hclt a.isLt x syn.toNat (post (.poison (s.dev.physKey a.toNat / 64)) e)
  have hone : (post (.poison (s.dev.physKey a.toNat / 64)) e).on R.DDR.RET_CTL.AUTO = e.on R.DDR.RET_CTL.AUTO := rfl
  have hpost : (post (.poison (s.dev.physKey a.toNat / 64)) e).posted = [.poison (s.dev.physKey a.toNat / 64)] := by
    rw [post, hstep.posted, hset]
    rfl
  generalize ueShown c a.toNat x syn.toNat (post (.poison (s.dev.physKey a.toNat / 64)) e) = g at *
  have hk := ueFollowed_keeps hclt a.toNat x s.mem (hon.trans (hone.trans hauto'))
  generalize ueFollowed c a.toNat x s.mem g = k at *
  refine completes_to (exec_dramRequest u a none (.uncorrectable syn) s) k hdev ⟨?_, ?_, ?_, ?_⟩
  · rw [on_after, Dev.on, hk.get _ (by simp [ueKept])]
    exact hue
  · rw [get_after, hk.get _ (by simp [ueKept]), haddr]
  · rw [get_after, hk.get _ (by simp [ueKept]), hloc]
  · refine (?_ : (s.mem.applyAll k.posted).mark _ = _)
    rw [hk.posted, hposted, hpost]
    exact KMap.get_put_self (fun _ => Mark.initial) s.mem.marks _ .poison

/-- Settles O47: requests are metered and buffered, a read's error is shown and poisons its granule, and buffers and rows close. -/
theorem dramRequestsAreServed : Obligations.DramRequestsAreServed :=
  ⟨dramRequest_held, dramRequest_writes, dramRequest_reads, dramRequest_poisons, writeBatch_completes, precharge_completes⟩

end Sys2Proof.Proofs
end

section
/-!
The failure of the DQS oscillators: a line that arrives before it can raise an event in the register that shows the failure.
-/
namespace Sys2Proof.Proofs
open Sys2Proof Sys2Proof.Machine

/-- Channel 0 is in service with AUTO clear, and an issued line is on its way to port 0 in RUN, which it reaches late. The line names
0x67ff0 as its generator: `TIM.TG_STATUS` of that number stands at the offset of `DDR.STATUS`. -/
def lineOfNoGenerator : State :=
  { State.reset with dev :=
      { puts [(R.DDR.CH_STATUS.STATE 0, 2), (R.DDR.CAP.ACTIVE, 1), (R.DDR.RET_CTL.AUTO, 0), (R.DDR.RETRAIN.OSC_MS, 0), (R.EKL.STATUS.STATE 0, 4),
          (R.TIM.PT_CTL.DL_EN 0, 1)] State.reset.dev with
        tim := { State.reset.dev.tim with coming := [{ g := 0x67ff0, lsn := 0, e := 0, ports := [(0, false, false)] }] } } }

/-- The SEQ of `DDR.STATUS` after a step. -/
def ddrSeqAfter (o : Host.Outcome State Fault Refusal) : Option Nat :=
  match o with
  | .next t => some (t.dev.get R.DDR.STATUS.SEQ)
  | _ => none

theorem lineOfNoGenerator_twice : ddrSeqAfter (execDqsOscillator 0 [] true lineOfNoGenerator) = some 2 := by decide +kernel

/-- Refutes O48: the statement holds for no range of the lines on their way. A line of a generator beyond the last, whose status register
is `DDR.STATUS`, arrives late before the oscillators run, so the SEQ has moved twice from the device before the command. -/
theorem not_channelsAreMaintained : ¬ Obligations.ChannelsAreMaintained := by
  unfold Obligations.ChannelsAreMaintained
  rintro ⟨-, -, -, -, -, -, h, -⟩
  have hready : lineOfNoGenerator.dev.chRuns 0 = true ∧ bit (lineOfNoGenerator.dev.get R.DDR.CAP.ACTIVE) 0 = true ∧
      lineOfNoGenerator.dev.on R.DDR.RET_CTL.AUTO = false ∧ lineOfNoGenerator.dev.get R.DDR.STATUS.SEQ = 0 := by decide +kernel
  obtain ⟨hruns, hactive, hauto, hseq⟩ := hready
  obtain ⟨t, hstep, -, hraised, -⟩ := h 0 [] _ lineOfNoGenerator hruns rfl hactive hauto
  have htwice := lineOfNoGenerator_twice
  rw [exec_dqsOscillator] at hstep
  rw [hstep] at htwice
  have hnow : t.dev.get R.DDR.STATUS.SEQ = 2 := Option.some.inj htwice
  have hone := hraised.1
  rw [hnow, hseq] at hone
  exact absurd hone (by decide)

end Sys2Proof.Proofs
end

section
/-!
The host port: requests of BAR2, the link, configuration requests and vectors (R379 to R381, R397 to R400).
-/
namespace Sys2Proof.Proofs
open Sys2Proof Sys2Proof.Machine

/-! ## DRAM under a step that leaves its map -/

/-- The registers that say where DRAM's bytes lie, and how many there are. -/
def mapRegs : List Fld := [R.DDR.CAP.ACTIVE, R.DDR.MAP.GRAIN, R.DDR.MAP.HASH, R.DDR.CAP.MIB]

/-- Two devices have the same DRAM behind the same map. -/
structure SameDram (d e : Dev) : Prop where
  get : ∀ f ∈ mapRegs, e.get f = d.get f
  posted : e.posted = d.posted

theorem mapRegs_book : ∀ f ∈ mapRegs, bookKey f.key = false := by decide

theorem sameDram_of_leaves {fs : List Fld} {d e : Dev} (h : Leaves fs d e) (hs : ∀ f ∈ mapRegs, f.key ∉ fs.map Fld.key) : SameDram d e :=
  ⟨fun f hf => h.get (mapRegs_book f hf) (hs f hf), h.posted⟩

theorem SameDram.trans {d e g : Dev} (h : SameDram d e) (h' : SameDram e g) : SameDram d g :=
  ⟨fun f hf => (h'.get f hf).trans (h.get f hf), h'.posted.trans h.posted⟩

section
variable {d e : Dev} (h : SameDram d e)
include h

theorem SameDram.physKey (a : Nat) : e.physKey a = d.physKey a :=
  physKey_congr (fun f hf => h.get f (by revert f; decide)) a

theorem SameDram.channels : e.channels = d.channels := by rw [Dev.channels, h.get _ (by simp [mapRegs]), Dev.channels]

theorem SameDram.dramEnd : e.dramEnd = d.dramEnd := by rw [Dev.dramEnd, h.get _ (by simp [mapRegs]), Dev.dramEnd]

theorem SameDram.dramHas (a n : Nat) : e.dramHas a n = d.dramHas a n := by rw [Dev.dramHas, h.channels, h.dramEnd, Dev.dramHas]

theorem SameDram.view (m : Mem) : e.view m = d.view m := by rw [Dev.view, h.posted, Dev.view]

theorem SameDram.dramRead (m : Mem) (a n : Nat) : e.dramRead m a n = d.dramRead m a n := by
  unfold Dev.dramRead
  simp only [h.channels, h.dramEnd, h.view, h.physKey]

theorem SameDram.writePosts (a : Nat) (bs : List Byte) : writePosts a bs e = writePosts a bs d := by
  unfold Proofs.writePosts
  simp only [h.channels, h.dramEnd, h.physKey]

theorem SameDram.dramWrite (a : Nat) (bs : List Byte) : (dramWrite a bs e).posted = (dramWrite a bs d).posted := by
  rw [dramWrite_eq, dramWrite_eq, h.posted, h.writePosts]
  rfl

end

/-- The DMA channels and the vectors' table but for what the vectors have folded. -/
theorem dma_of_leaves {fs : List Fld} {d e : Dev} (h : Leaves fs d e) : e.dma.ch = d.dma.ch ∧ e.dma.msix = d.dma.msix ∧ e.dma.fmask = d.dma.fmask := by
  have hbody : e.body.dma = d.body.dma := by rw [h.2]
  exact ⟨show e.body.dma.ch = d.body.dma.ch by rw [hbody], show e.body.dma.msix = d.body.dma.msix by rw [hbody],
    show e.body.dma.fmask = d.body.dma.fmask by rw [hbody]⟩

/-! ## Requests of BAR2 -/

/-- What a BAR2 request changes beside registers. -/
def withBar2 (x : List Out × DdrS) (d : Dev) : Dev := { d with out := x.1, ddr := x.2 }

theorem setsPart_withBar2 : SetsPart withBar2 := fun _ _ => ⟨rfl, rfl⟩

/-- The device address of a BAR2 offset. -/
def barAddr (d : Dev) (off : BitVec 28) : Nat := d.get R.HST.APER_BASE.BASE * 2 ^ 20 + off.toNat

theorem meter_hst {fs : List Fld} {d e : Dev} (h : Leaves fs d e) (u n : Nat) : num (meterUser u n e).ddr.meter u = num d.ddr.meter u + n := by
  refine (KMap.get_put_self (fun _ => 0) e.ddr.meter u (num e.ddr.meter u + n)).trans ?_
  rw [ddr_of_leaves h]

theorem leaves_hstStat (i n : Nat) (d : Dev) : Leaves [R.HST.STAT.COUNT i] d (hstStat i n d) := leaves_put ..

theorem counted_hstStat (i n : Nat) (d : Dev) : Counted (R.HST.STAT.COUNT i) n d (hstStat i n d) := get_put_self ..

theorem mapRegs_hst (i : Nat) (hi : i < 16) : ∀ f ∈ mapRegs, f.key ∉ [R.HST.STAT.COUNT i].map Fld.key := by
  decide +revert

theorem dataPath_of_leaves {d e : Dev} (h : Leaves [] d e) (a n : Nat) : e.dataPath a n = d.dataPath a n := by
  unfold Dev.dataPath
  have hany (p q : Nat → Bool) (hpq : ∀ i < 64, p i = q i) : (List.range 64).any p = (List.range 64).any q := by
    rw [Bool.eq_iff_iff, List.any_eq_true, List.any_eq_true]
    exact ⟨fun ⟨i, hi, hp⟩ => ⟨i, hi, (hpq i (List.mem_range.mp hi)) ▸ hp⟩, fun ⟨i, hi, hp⟩ => ⟨i, hi, (hpq i (List.mem_range.mp hi)).symm ▸ hp⟩⟩
  refine hany _ _ fun i hi => ?_
  have hb : bookKey (R.TOP.RGN.USE i).key = false ∧ bookKey (R.DDR.RGN_ACT.BASE_MIB i).key = false ∧ bookKey (R.DDR.RGN_ACT.SIZE_MIB i).key = false := by
    refine ⟨bookKey_area ?_, bookKey_area ?_, bookKey_area ?_⟩ <;> simp only [Fld.key, R.TOP.RGN.USE, R.DDR.RGN_ACT.BASE_MIB, R.DDR.RGN_ACT.SIZE_MIB] <;> omega
  have hreg : e.region i = d.region i := by rw [Dev.region, h.get hb.2.1 (by simp), h.get hb.2.2 (by simp), Dev.region]
  dsimp only
  rw [h.get hb.1 (by simp), hreg]

section
variable {off : BitVec 28} {s : State} (hoff : s.dev.aon.off = false) (hserved : s.dev.served = true)
include hoff hserved

theorem bar2Write_completes (bs : List Byte) (n : Nat) (hend : barAddr s.dev off + bs.length ≤ s.dev.dramEnd)
    (hpath : s.dev.dataPath (barAddr s.dev off) bs.length = false) : Completes (.bar2Access off (some bs) n false) s (fun t =>
      t.mem = (s.after (dramWrite (barAddr s.dev off) bs s.dev)).mem ∧
      Counted (R.HST.STAT.COUNT 3) 1 s.dev t.dev ∧ num t.dev.ddr.meter 3 = num s.dev.ddr.meter 3 + bs.length ∧ t.dev.out = s.dev.out) := by
  have hl := leaves_hstPerf 2 1 s.dev
  have hsame := sameDram_of_leaves hl (by simp)
  have hserved' := (served_of_leaves hl).trans hserved
  have hdata := (dataPath_of_leaves hl (barAddr s.dev off) bs.length).trans hpath
  refine completes_run (exec_bar2Access off (some bs) n false s)
    (d := hstStat 3 1 (meterUser 3 bs.length (dramWrite (barAddr s.dev off) bs (hstPerf 2 1 s.dev)))) ?_ ?_
  · refine (?_ : (if s.dev.aon.off then _ else if !(hstPerf 2 1 s.dev).served then _ else
      if (hstPerf 2 1 s.dev).dramEnd < barAddr s.dev off + bs.length then _ else
        if (hstPerf 2 1 s.dev).dataPath (barAddr s.dev off) bs.length then _ else _ : Host.Outcome Dev Fault Refusal) = _)
    rw [if_neg (by simp [hoff]), if_neg (by simp [hserved']), if_neg (by rw [hsame.dramEnd]; omega), if_neg (by simp [hdata])]
    rfl
  · generalize hstPerf 2 1 s.dev = e at hl hsame ⊢
    have hw : (dramWrite (barAddr s.dev off) bs e).ddr = e.ddr ∧ (dramWrite (barAddr s.dev off) bs e).out = e.out := by
      rw [dramWrite_eq]
      exact ⟨rfl, rfl⟩
    have hget (f : Fld) : (meterUser 3 bs.length (dramWrite (barAddr s.dev off) bs e)).get f = e.get f := by
      rw [dramWrite_eq]
      rfl
    have hpost : (meterUser 3 bs.length (dramWrite (barAddr s.dev off) bs e)).posted = (dramWrite (barAddr s.dev off) bs s.dev).posted :=
      hsame.dramWrite (barAddr s.dev off) bs
    have hmeter : num (meterUser 3 bs.length (dramWrite (barAddr s.dev off) bs e)).ddr.meter 3 = num s.dev.ddr.meter 3 + bs.length := by
      refine (KMap.get_put_self (fun _ => 0) (dramWrite (barAddr s.dev off) bs e).ddr.meter 3 _).trans ?_
      rw [hw.1, ddr_of_leaves hl]
    have hout : (meterUser 3 bs.length (dramWrite (barAddr s.dev off) bs e)).out = s.dev.out := hw.2.trans (out_of_leaves hl)
    generalize meterUser 3 bs.length (dramWrite (barAddr s.dev off) bs e) = g at hget hpost hmeter hout ⊢
    refine ⟨congrArg s.mem.applyAll hpost, counted_of_get (counted_hstStat 3 1 g) ?_ rfl, hmeter, hout⟩
    rw [hget, hl.get (by decide) (by simp)]

/-- A BAR2 read within DRAM answers what the read finds. -/
theorem bar2Read_completes (n : Nat) (err : Bool) (r : List Byte × Bool) (hend : barAddr s.dev off + n ≤ s.dev.dramEnd)
    (hread : s.dev.dramRead s.mem (barAddr s.dev off) n = r) : Completes (.bar2Access off none n err) s (fun t =>
      t.dev.out = .readDone 1 off.toNat n (leVal r.1) r.2 :: s.dev.out ∧ num t.dev.ddr.meter 3 = num s.dev.ddr.meter 3 + n ∧
      Frame [R.HST.STAT.COUNT 2] { s.dev with out := t.dev.out, ddr := t.dev.ddr } s t) := by
  have hl := leaves_hstPerf 2 1 s.dev
  have hsame := sameDram_of_leaves hl (by simp)
  have hserved' := (served_of_leaves hl).trans hserved
  have hread' := (hsame.dramRead s.mem (barAddr s.dev off) n).trans hread
  refine completes_run (exec_bar2Access off none n err s)
    (d := hstStat 2 1 (emit (.readDone 1 off.toNat n (leVal r.1) r.2) (meterUser 3 n (hstPerf 2 1 s.dev)))) ?_ ?_
  · refine (?_ : (if s.dev.aon.off then _ else if !(hstPerf 2 1 s.dev).served then _ else
      if (hstPerf 2 1 s.dev).dramEnd < barAddr s.dev off + n then _ else Host.Outcome.next (hstStat 2 1 (emit
        (.readDone 1 off.toNat n (leVal ((hstPerf 2 1 s.dev).dramRead s.mem (barAddr s.dev off) n).1)
          ((hstPerf 2 1 s.dev).dramRead s.mem (barAddr s.dev off) n).2) (meterUser 3 n (hstPerf 2 1 s.dev)))) : Host.Outcome Dev Fault Refusal) = _)
    rw [if_neg (by simp [hoff]), if_neg (by simp [hserved']), if_neg (by rw [hsame.dramEnd]; omega), hread']
  · generalize hstPerf 2 1 s.dev = e at hl
    have hmeter := meter_hst hl 3 n
    have hup : Upto withBar2 [] s.dev (emit (.readDone 1 off.toNat n (leVal r.1) r.2) (meterUser 3 n e)) :=
      (upto_of_leaves setsPart_withBar2 hl).trans (gs := []) (upto_of_eq fun _ => rfl)
    have hout : (emit (.readDone 1 off.toNat n (leVal r.1) r.2) (meterUser 3 n e)).out = .readDone 1 off.toNat n (leVal r.1) r.2 :: s.dev.out :=
      congrArg (Out.readDone 1 off.toNat n (leVal r.1) r.2 :: ·) (show e.out = s.dev.out from out_of_leaves hl)
    have hm : num (emit (.readDone 1 off.toNat n (leVal r.1) r.2) (meterUser 3 n e)).ddr.meter 3 = num s.dev.ddr.meter 3 + n := hmeter
    generalize emit (.readDone 1 off.toNat n (leVal r.1) r.2) (meterUser 3 n e) = g at hup hout hm ⊢
    have hstat := hup.trans (upto_of_leaves setsPart_withBar2 (leaves_hstStat 2 1 g))
    exact ⟨hout, hm, frame_of_upto hstat s ((hstStat 2 1 g).out, (hstStat 2 1 g).ddr) rfl⟩

/-- A BAR2 read beyond the end of DRAM. -/
theorem bar2Beyond_completes (n : Nat) (err : Bool) (hend : s.dev.dramEnd < barAddr s.dev off + n) : Completes (.bar2Access off none n err) s (fun t =>
      t.dev.out = .readAbort 1 off.toNat :: s.dev.out ∧ t.dev.get R.TOP.BUSERR.KIND = 7 ∧ t.dev.get R.TOP.BUSERR_ADDR.BAR = 1 ∧
      t.dev.get R.TOP.BUSERR_ADDR.ADDR = off.toNat % 2 ^ R.TOP.BUSERR_ADDR.ADDR.w ∧ Raised R.TOP.BUSERR.SEQ [] s.dev t.dev) := by
  have hl := leaves_hstPerf 2 1 s.dev
  have hsame := sameDram_of_leaves hl (by simp)
  have hserved' := (served_of_leaves hl).trans hserved
  refine completes_run (exec_bar2Access off none n err s) (d := emit (.readAbort 1 off.toNat) (busError 1 off.toNat 7 false (hstPerf 2 1 s.dev))) ?_ ?_
  · refine (?_ : (if s.dev.aon.off then _ else if !(hstPerf 2 1 s.dev).served then _ else
      if (hstPerf 2 1 s.dev).dramEnd < barAddr s.dev off + n then _ else _ : Host.Outcome Dev Fault Refusal) = _)
    rw [if_neg (by simp [hoff]), if_neg (by simp [hserved']), if_pos (by rw [hsame.dramEnd]; exact hend)]
  · generalize hstPerf 2 1 s.dev = e at hl
    obtain ⟨hkind, haddr⟩ := busError_shows 1 off.toNat 7 false e
    have hbar : (busError 1 off.toNat 7 false e).get R.TOP.BUSERR_ADDR.BAR = 1 := by
      unfold busError
      dsimp only
      simp (disch := decide) only [when, Bool.false_eq_true, if_false, get_errEvent, get_put_self]
      rfl
    have hseq : (busError 1 off.toNat 7 false e).get R.TOP.BUSERR.SEQ = nextSeq (s.dev.get R.TOP.BUSERR.SEQ) % 2 ^ R.TOP.BUSERR.SEQ.w := by
      unfold busError incSat
      dsimp only
      simp (disch := decide) only [when, Bool.false_eq_true, if_false, get_errEvent, get_put_ne, get_event_seq]
      rw [hl.get (by decide) (by simp)]
    have hout := (out_busError_read 1 off.toNat 7 e).trans (out_of_leaves hl)
    generalize busError 1 off.toNat 7 false e = g at hkind haddr hbar hseq hout ⊢
    exact ⟨congrArg (Out.readAbort 1 off.toNat :: ·) hout, hkind, hbar, haddr, hseq, by simp⟩

end

/-! ## The link -/

theorem linkUp_completes (speed : Fin 4) (width : BitVec 4) (s : State) (hup : s.dev.on R.HST.LINK.UP = false) (htrains : s.dev.aon.trains = true) :
    Completes (.linkUp speed width) s (fun t =>
      t.dev.on R.HST.LINK.UP = true ∧ t.dev.get R.HST.LINK.SPEED = speed.val + 1 ∧ t.dev.get R.HST.LINK.WIDTH = width.toNat ∧
      Raised R.HST.STATUS.SEQ [R.HST.STATUS.UP] s.dev t.dev ∧
      Frame [R.HST.LINK.UP, R.HST.LINK.SPEED, R.HST.LINK.WIDTH, R.HST.STATUS.SEQ, R.HST.STATUS.UP] s.dev s t) := by
  have hl := leaves_puts [(R.HST.LINK.SPEED, speed.val + 1), (R.HST.LINK.WIDTH, width.toNat), (R.HST.LINK.UP, 1)] s.dev
  have hval : (puts [(R.HST.LINK.SPEED, speed.val + 1), (R.HST.LINK.WIDTH, width.toNat), (R.HST.LINK.UP, 1)] s.dev).get R.HST.LINK.UP = 1 ∧
      (puts [(R.HST.LINK.SPEED, speed.val + 1), (R.HST.LINK.WIDTH, width.toNat), (R.HST.LINK.UP, 1)] s.dev).get R.HST.LINK.SPEED = speed.val + 1 ∧
      (puts [(R.HST.LINK.SPEED, speed.val + 1), (R.HST.LINK.WIDTH, width.toNat), (R.HST.LINK.UP, 1)] s.dev).get R.HST.LINK.WIDTH = width.toNat := by
    simp (disch := decide) only [puts, get_put_ne, get_put_self]
    refine ⟨rfl, Nat.mod_eq_of_lt ?_, Nat.mod_eq_of_lt ?_⟩
    · exact Nat.lt_of_lt_of_le (Nat.succ_lt_succ speed.isLt) (by decide)
    · exact Nat.lt_of_lt_of_le width.isLt (by decide)
  refine completes_to (exec_linkUp speed width s) (event 0x14 R.HST.STATUS.SEQ [R.HST.STATUS.UP]
    (puts [(R.HST.LINK.SPEED, speed.val + 1), (R.HST.LINK.WIDTH, width.toNat), (R.HST.LINK.UP, 1)] s.dev)) (if_neg (by simp [hup, htrains])) ?_
  generalize puts [(R.HST.LINK.SPEED, speed.val + 1), (R.HST.LINK.WIDTH, width.toNat), (R.HST.LINK.UP, 1)] s.dev = e at hl hval ⊢
  have hev := leaves_event 0x14 R.HST.STATUS.SEQ [R.HST.STATUS.UP] e
  have hr : Raised R.HST.STATUS.SEQ [R.HST.STATUS.UP] s.dev (event 0x14 R.HST.STATUS.SEQ [R.HST.STATUS.UP] e) :=
    raised_event (by decide) (by decide) (by decide) (hl.get (by decide) (by simp only [List.map]; decide))
  generalize event 0x14 R.HST.STATUS.SEQ [R.HST.STATUS.UP] e = g at hev hr
  refine ⟨?_, ?_, ?_, raised_after hr s, frame_of_leaves ((hl.trans hev).mono (by simp [seqAnd])) s⟩
  · rw [on_after, Dev.on, hev.get (by decide) (by decide), hval.1]
    rfl
  · rw [get_after, hev.get (by decide) (by decide), hval.2.1]
  · rw [get_after, hev.get (by decide) (by decide), hval.2.2]

/-- A channel at a loss of the link: one with a host request due waits for the link. -/
def linkLost (c : Nat) (d : Dev) : Dev :=
  if d.hostDue c then setCh c { d.chS c with late := (d.chS c).late + b2n (d.hostReads c) } (linkWait c d) else d

/-- What a channel at a loss of the link rests on. -/
structure SameChan (c : Nat) (d e : Dev) : Prop where
  chS : e.chS c = d.chS c
  regs : ∀ f ∈ [R.DMA.CH_STATUS.STATE c, R.DMA.CH_STATUS.CAUSE c, R.DMA.CH_CTL.MODE c, R.DMA.CH_CTL.FSPACE c], e.get f = d.get f

theorem SameChan.trans {c : Nat} {d e g : Dev} (h : SameChan c d e) (h' : SameChan c e g) : SameChan c d g :=
  ⟨h'.chS.trans h.chS, fun f hf => (h'.regs f hf).trans (h.regs f hf)⟩

theorem SameChan.state {c : Nat} {d e : Dev} (h : SameChan c d e) : e.chState c = d.chState c := h.regs _ (by simp)

theorem SameChan.hostDue {c : Nat} {d e : Dev} (h : SameChan c d e) : e.hostDue c = d.hostDue c := by
  have hmode : e.chMode c = d.chMode c := h.regs _ (by simp)
  unfold Dev.hostDue
  rw [h.state, hmode, h.chS, h.regs (R.DMA.CH_CTL.FSPACE c) (by simp)]

/-- The registers and the part that a loss of the link writes of a channel. -/
theorem linkLost_facts (c : Nat) (d : Dev) :
    (∀ f, f.key ∉ [R.DMA.CH_STATUS.STATE c, R.DMA.CH_STATUS.CAUSE c].map Fld.key → (linkLost c d).get f = d.get f) ∧
    (∀ k, k ≠ c → (linkLost c d).chS k = d.chS k) ∧ (linkLost c d).vecOwed = d.vecOwed ∧ (linkLost c d).posted = d.posted ∧
    (d.hostDue c = true → (linkLost c d).chState c = 5 ∧ (linkLost c d).get (R.DMA.CH_STATUS.CAUSE c) = 7) ∧
    (d.hostDue c = false → linkLost c d = d) := by
  unfold linkLost
  by_cases hdue : d.hostDue c = true
  · rw [if_pos hdue]
    refine ⟨fun f hf => ?_, fun k hk => KMap.get_put_ne (fun _ => ({} : ChS)) d.dma.ch c k _ hk, rfl, rfl, fun _ => ⟨?_, ?_⟩,
      fun h => absurd (hdue.symm.trans h) (by simp)⟩
    · simp only [List.map_cons, List.map_nil, List.mem_cons, List.not_mem_nil, or_false, not_or] at hf
      exact (get_put_ne hf.1 5 (put (R.DMA.CH_STATUS.CAUSE c) 7 d)).trans (get_put_ne hf.2 7 d)
    · exact get_put_self (R.DMA.CH_STATUS.STATE c) 5 (put (R.DMA.CH_STATUS.CAUSE c) 7 d)
    · have hne : (R.DMA.CH_STATUS.CAUSE c).key ≠ (R.DMA.CH_STATUS.STATE c).key := by simp only [Fld.key, R.DMA.CH_STATUS.CAUSE, R.DMA.CH_STATUS.STATE]; omega
      exact (get_put_ne hne 5 (put (R.DMA.CH_STATUS.CAUSE c) 7 d)).trans (get_put_self (R.DMA.CH_STATUS.CAUSE c) 7 d)
  · rw [if_neg hdue]
    exact ⟨fun _ _ => rfl, fun _ _ => rfl, rfl, rfl, fun h => absurd h hdue, fun _ => rfl⟩

theorem linkLost_other {c k : Nat} (h : k ≠ c) (d : Dev) : SameChan k d (linkLost c d) := by
  obtain ⟨hget, hch, -⟩ := linkLost_facts c d
  refine ⟨hch k h, fun f hf => hget f ?_⟩
  simp only [List.mem_cons, List.not_mem_nil, or_false] at hf
  rcases hf with rfl | rfl | rfl | rfl <;>
    simp only [List.map_cons, List.map_nil, List.mem_cons, List.not_mem_nil, or_false, not_or, Fld.key, R.DMA.CH_STATUS.STATE, R.DMA.CH_STATUS.CAUSE,
      R.DMA.CH_CTL.MODE, R.DMA.CH_CTL.FSPACE] <;> omega

theorem eachLost_other {k : Nat} {cs : List Nat} (h : k ∉ cs) (d : Dev) : SameChan k d (each linkLost cs d) := by
  induction cs generalizing d with
  | nil => exact ⟨rfl, fun _ _ => rfl⟩
  | cons c cs ih =>
    rw [List.mem_cons, not_or] at h
    exact (linkLost_other h.1 d).trans (ih h.2 _)

/-- Each channel with a host request due waits for the link, and the others keep their states. -/
theorem eachLost_chan {cs : List Nat} (hnd : cs.Nodup) {c : Nat} (hc : c ∈ cs) (d : Dev) :
    (d.hostDue c = true → (each linkLost cs d).chState c = 5 ∧ (each linkLost cs d).get (R.DMA.CH_STATUS.CAUSE c) = 7) ∧
    (d.hostDue c = false → (each linkLost cs d).chState c = d.chState c) := by
  induction cs generalizing d with
  | nil => exact absurd hc (by simp)
  | cons k cs ih =>
    obtain ⟨hk, hcs⟩ := List.nodup_cons.mp hnd
    rw [each]
    rcases List.mem_cons.mp hc with rfl | hin
    · have hrest := eachLost_other hk (linkLost c d)
      obtain ⟨-, -, -, -, hdue, hnot⟩ := linkLost_facts c d
      refine ⟨fun h => ⟨hrest.state.trans (hdue h).1, (hrest.regs _ (by simp)).trans (hdue h).2⟩, fun h => hrest.state.trans ?_⟩
      rw [hnot h]
    · have hsame : SameChan c d (linkLost k d) := linkLost_other (fun h => hk (by rw [← h]; exact hin)) d
      obtain ⟨hdue, hnot⟩ := ih hcs hin (linkLost k d)
      exact ⟨fun h => hdue (hsame.hostDue.trans h), fun h => (hnot (hsame.hostDue.trans h)).trans hsame.state⟩

/-- Registers outside the channels stay, with what the vectors owe and what is posted. -/
theorem eachLost_rest (cs : List Nat) (d : Dev) : (∀ f, f.addr < 0x1c01000 ∨ 0x1d00000 ≤ f.addr → f.lo < 64 → (∀ c ∈ cs, c < 32) → (each linkLost cs d).get f = d.get f) ∧
    (each linkLost cs d).vecOwed = d.vecOwed ∧ (each linkLost cs d).posted = d.posted := by
  induction cs generalizing d with
  | nil => exact ⟨fun _ _ _ _ => rfl, rfl, rfl⟩
  | cons c cs ih =>
    obtain ⟨hget, -, hv, hp, -⟩ := linkLost_facts c d
    obtain ⟨ihget, ihv, ihp⟩ := ih (linkLost c d)
    refine ⟨fun f hf hlo hcs => (ihget f hf hlo fun k hk => hcs k (List.mem_cons_of_mem _ hk)).trans (hget f ?_), ihv.trans hv, ihp.trans hp⟩
    have := hcs c List.mem_cons_self
    simp only [List.map_cons, List.map_nil, List.mem_cons, List.not_mem_nil, or_false, not_or, Fld.key, R.DMA.CH_STATUS.STATE, R.DMA.CH_STATUS.CAUSE]
    omega

/-- The endpoint's part of a loss of the link. -/
def endpointLost (d : Dev) : Dev :=
  let d := puts [(R.HST.LINK.SPEED, 0), (R.HST.LINK.WIDTH, 0), (R.HST.LINK.UP, 0), (R.HST.LINK.BME, 0), (R.HST.LINK.MSIX_EN, 0)] d
  { d with vecOwed := [], tim := { d.tim with ptmOn := false }
           dma := { d.dma with msix := [], pba := [], coal := [], fmask := false, mps := 128, mrrs := 512 } }

/-- The event and the counts of a loss of the link. -/
def downCounted (d : Dev) : Dev := hstPerf 5 1 (hstStat 6 1 (event 0x14 R.HST.STATUS.SEQ [R.HST.STATUS.DOWN] d))

theorem linkDown_eq (busMaster : Bool) (d : Dev) :
    linkDown busMaster d = each linkLost (List.range 32) (downCounted (if busMaster then put R.HST.LINK.BME 0 d else endpointLost d)) := rfl

theorem downCounted_facts (d : Dev) : Leaves [R.HST.STATUS.SEQ, R.HST.STATUS.DOWN, R.HST.STAT.COUNT 6] d (downCounted d) ∧
    Raised R.HST.STATUS.SEQ [R.HST.STATUS.DOWN] d (downCounted d) ∧ Counted (R.HST.STAT.COUNT 6) 1 d (downCounted d) := by
  have hev := leaves_event 0x14 R.HST.STATUS.SEQ [R.HST.STATUS.DOWN] d
  have hr : Raised R.HST.STATUS.SEQ [R.HST.STATUS.DOWN] d (event 0x14 R.HST.STATUS.SEQ [R.HST.STATUS.DOWN] d) :=
    raised_event (by decide) (by decide) (by decide) rfl
  unfold downCounted
  generalize event 0x14 R.HST.STATUS.SEQ [R.HST.STATUS.DOWN] d = e at hev hr ⊢
  have hst := leaves_hstStat 6 1 e
  have hn := counted_hstStat 6 1 e
  generalize hstStat 6 1 e = g at hst hn ⊢
  have hp := leaves_hstPerf 5 1 g
  refine ⟨(hev.trans (hst.trans hp)).mono (by simp [seqAnd]), raised_then hr (hst.trans hp) (by decide) (by decide), ?_⟩
  exact counted_of_get hn (hev.get (by decide) (by decide)) (hp.get (by decide) (by simp))

theorem vecOwed_raise {d : Dev} (h : d.on R.HST.LINK.UP = false) (e : Nat) : (raise e d).vecOwed = d.vecOwed := by
  unfold raise
  dsimp only
  rw [if_neg (by simp [h])]

/-- Without a link no vector comes to owe a message. -/
theorem vecOwed_event {d : Dev} (h : d.on R.HST.LINK.UP = false) (code : Nat) {seq : Fld} {fs : List Fld} (hseq : R.HST.LINK.UP.key ≠ seq.key)
    (hfs : R.HST.LINK.UP.key ∉ fs.map Fld.key) : (event code seq fs d).vecOwed = d.vecOwed := by
  have hl := (leaves_put seq (nextSeq (d.get seq)) d).trans (leaves_puts (fs.map (fun f => (f, 1))) (put seq (nextSeq (d.get seq)) d))
  have hv (xs : List (Fld × Nat)) (e : Dev) : (puts xs e).vecOwed = e.vecOwed := by
    induction xs generalizing e with
    | nil => rfl
    | cons x xs ih => exact ih (put x.1 x.2 e)
  unfold event
  rw [vecOwed_raise, hv]
  · rfl
  · rw [Dev.on, hl.get (by decide) (by simpa [Function.comp_def] using ⟨hseq, by simpa using hfs⟩)]
    exact h

theorem vecOwed_perf {d : Dev} (h : d.on R.HST.LINK.UP = false) (code n : Nat) : (hstPerf code n d).vecOwed = d.vecOwed := by
  have hone (k : Nat) (hk : k < 8) (e : Dev) (he : e.on R.HST.LINK.UP = false) :
      (perfOne 0x14 0x1d00000 code n k e).vecOwed = e.vecOwed := by
    unfold perfOne
    dsimp only
    split
    · split
      · rfl
      · refine (?_ : (event 0x14 (R.PERF.OVF.SEQ 0x1d00000) [] _).vecOwed = _)
        rw [vecOwed_event _ _ (by decide) (by simp)]
        · rfl
        · refine (congrArg (· == 1) (get_put_ne (f := R.PERF.CNT.COUNT 0x1d00000 k) ?_ _ e)).trans he
          clear * - hk
          decide +revert
    · rfl
  have hon (k : Nat) (hk : k < 8) (e : Dev) (he : e.on R.HST.LINK.UP = false) : (perfOne 0x14 0x1d00000 code n k e).on R.HST.LINK.UP = false := by
    rw [Dev.on, (leaves_perfOne 0x14 (by unfold PerfBase; omega) code n hk e).get (by decide) (by simp)]
    exact he
  have heach (ks : List Nat) (hks : ∀ k ∈ ks, k < 8) (e : Dev) (he : e.on R.HST.LINK.UP = false) :
      (each (perfOne 0x14 0x1d00000 code n) ks e).vecOwed = e.vecOwed := by
    induction ks generalizing e with
    | nil => rfl
    | cons k ks ih =>
      have hk := hks k List.mem_cons_self
      exact (ih (fun j hj => hks j (List.mem_cons_of_mem _ hj)) _ (hon k hk e he)).trans (hone k hk e he)
  unfold hstPerf perf
  split
  · rfl
  · exact heach (List.range 8) (fun k hk => List.mem_range.mp hk) d h

theorem downCounted_vecOwed {d : Dev} (h : d.on R.HST.LINK.UP = false) : (downCounted d).vecOwed = d.vecOwed := by
  have hev := leaves_event 0x14 R.HST.STATUS.SEQ [R.HST.STATUS.DOWN] d
  have hl := hev.trans (leaves_hstStat 6 1 (event 0x14 R.HST.STATUS.SEQ [R.HST.STATUS.DOWN] d))
  have hup : (hstStat 6 1 (event 0x14 R.HST.STATUS.SEQ [R.HST.STATUS.DOWN] d)).on R.HST.LINK.UP = false := by
    rw [Dev.on, hl.get (by decide) (by decide)]
    exact h
  exact (vecOwed_perf hup 5 1).trans (vecOwed_event h 0x14 (by decide) (by decide))

theorem bookKey_dma {k : Nat} (h : 0x1c01000 ≤ k / 64 ∧ k / 64 < 0x1c03000) : bookKey k = false := by
  have hne : k ≠ (R.HST.STAT.COUNT 1).key ∧ k ≠ (R.MGT.STAT.COUNT 1).key ∧ k ≠ R.MGT.LOG_WR.LSEQ.key := by
    simp only [Fld.key, R.HST.STAT.COUNT, R.MGT.STAT.COUNT, R.MGT.LOG_WR.LSEQ]
    omega
  unfold bookKey
  rw [decide_eq_true h]
  simp [hne]

/-- The registers of a channel on which `SameChan` rests. -/
theorem chanReg_range {c : Nat} (hc : c < 32) : ∀ f ∈ [R.DMA.CH_STATUS.STATE c, R.DMA.CH_STATUS.CAUSE c, R.DMA.CH_CTL.MODE c, R.DMA.CH_CTL.FSPACE c],
    0x1c01000 ≤ f.key / 64 ∧ f.key / 64 < 0x1c03000 := by
  simp only [List.mem_cons, List.not_mem_nil, or_false, forall_eq_or_imp, forall_eq, Fld.key, R.DMA.CH_STATUS.STATE, R.DMA.CH_STATUS.CAUSE,
    R.DMA.CH_CTL.MODE, R.DMA.CH_CTL.FSPACE]
  omega

/-- The channels and the endpoint's registers after the count of a loss of the link and the wait of its channels. -/
theorem eachLost_downCounted {d e : Dev} (hch : ∀ c < 32, SameChan c d e) :
    (∀ c : Fin 32, d.hostDue c.val = true → (each linkLost (List.range 32) (downCounted e)).chState c.val = 5 ∧
      (each linkLost (List.range 32) (downCounted e)).get (R.DMA.CH_STATUS.CAUSE c.val) = 7) ∧
    (∀ c : Fin 32, d.hostDue c.val = false → (each linkLost (List.range 32) (downCounted e)).chState c.val = d.chState c.val) ∧
    (∀ f, 0x1d00000 ≤ f.addr → f.lo < 64 → (each linkLost (List.range 32) (downCounted e)).get f = (downCounted e).get f) ∧
    (each linkLost (List.range 32) (downCounted e)).vecOwed = (downCounted e).vecOwed ∧
    (each linkLost (List.range 32) (downCounted e)).posted = e.posted := by
  obtain ⟨hl, -, -⟩ := downCounted_facts e
  have hsame (c : Fin 32) : SameChan c.val d (downCounted e) := by
    refine (hch c.val c.isLt).trans ⟨?_, fun f hf => ?_⟩
    · rw [Dev.chS, (dma_of_leaves hl).1, Dev.chS]
    · have hrange := chanReg_range c.isLt f hf
      have hout : ∀ f ∈ [R.HST.STATUS.SEQ, R.HST.STATUS.DOWN, R.HST.STAT.COUNT 6], 0x1c03000 ≤ f.key / 64 := by decide
      refine hl.get (bookKey_dma hrange) fun hmem => ?_
      obtain ⟨g, hg, heq⟩ := List.mem_map.mp hmem
      have := hout g hg
      omega
  obtain ⟨hrest, hv, hp⟩ := eachLost_rest (List.range 32) (downCounted e)
  have hin (c : Fin 32) := eachLost_chan List.nodup_range (List.mem_range.mpr c.isLt) (downCounted e)
  refine ⟨fun c h => (hin c).1 ((hsame c).hostDue.trans h), fun c h => ((hin c).2 ((hsame c).hostDue.trans h)).trans (hsame c).state,
    fun f hf hlo => hrest f (.inr hf) hlo fun c hc => List.mem_range.mp hc, hv, hp.trans hl.posted⟩

theorem linkDown_completes (s : State) (hup : s.dev.on R.HST.LINK.UP = true) : Completes (.linkDown false) s (fun t =>
      t.dev.on R.HST.LINK.UP = false ∧ t.dev.on R.HST.LINK.BME = false ∧ t.dev.on R.HST.LINK.MSIX_EN = false ∧ t.dev.vecOwed = [] ∧
      Raised R.HST.STATUS.SEQ [R.HST.STATUS.DOWN] s.dev t.dev ∧ Counted (R.HST.STAT.COUNT 6) 1 s.dev t.dev ∧
      (∀ c : Fin 32, s.dev.hostDue c.val = true → t.dev.chState c.val = 5 ∧ t.dev.get (R.DMA.CH_STATUS.CAUSE c.val) = 7) ∧
      (∀ c : Fin 32, s.dev.hostDue c.val = false → t.dev.chState c.val = s.dev.chState c.val) ∧ t.mem = (s.after s.dev).mem) := by
  refine completes_to (exec_linkDown false s) (linkDown false s.dev) (if_pos (by simp [hup])) ?_
  rw [linkDown_eq]
  have hget (f : Fld) (hf : f.key ∉ [R.HST.LINK.SPEED, R.HST.LINK.WIDTH, R.HST.LINK.UP, R.HST.LINK.BME, R.HST.LINK.MSIX_EN].map Fld.key) :
      (endpointLost s.dev).get f = s.dev.get f :=
    get_puts_ne [(R.HST.LINK.SPEED, 0), (R.HST.LINK.WIDTH, 0), (R.HST.LINK.UP, 0), (R.HST.LINK.BME, 0), (R.HST.LINK.MSIX_EN, 0)] s.dev hf
  have hoff : ∀ f ∈ [R.HST.LINK.UP, R.HST.LINK.BME, R.HST.LINK.MSIX_EN], (endpointLost s.dev).get f = 0 := by
    have hval : ∀ f ∈ [R.HST.LINK.UP, R.HST.LINK.BME, R.HST.LINK.MSIX_EN],
        (puts [(R.HST.LINK.SPEED, 0), (R.HST.LINK.WIDTH, 0), (R.HST.LINK.UP, 0), (R.HST.LINK.BME, 0), (R.HST.LINK.MSIX_EN, 0)] s.dev).get f = 0 := by
      simp (disch := decide) only [List.mem_cons, List.not_mem_nil, or_false, forall_eq_or_imp, forall_eq, puts, get_put_ne, get_put_self]
      decide
    exact hval
  have hch : ∀ c < 32, SameChan c s.dev (endpointLost s.dev) := fun c hc => ⟨rfl, fun f hf => hget f fun hmem => by
    have hrange := chanReg_range hc f hf
    have hout : ∀ f ∈ [R.HST.LINK.SPEED, R.HST.LINK.WIDTH, R.HST.LINK.UP, R.HST.LINK.BME, R.HST.LINK.MSIX_EN], 0x1c03000 ≤ f.key / 64 := by decide
    obtain ⟨g, hg, heq⟩ := List.mem_map.mp hmem
    have := hout g hg
    omega⟩
  have hnone : (endpointLost s.dev).vecOwed = [] := rfl
  have hposted : (endpointLost s.dev).posted = s.dev.posted := rfl
  rw [if_neg (by simp)]
  have hsq := hget R.HST.STATUS.SEQ (by decide)
  have hcount := hget (R.HST.STAT.COUNT 6) (by decide)
  generalize endpointLost s.dev = e at hoff hch hnone hposted hsq hcount ⊢
  obtain ⟨hl, hr, hn⟩ := downCounted_facts e
  obtain ⟨hdue, hnot, hrest, hv, hp⟩ := eachLost_downCounted hch
  have hdown : e.on R.HST.LINK.UP = false := by rw [Dev.on, hoff _ (by simp)]; rfl
  have howed := hv.trans ((downCounted_vecOwed hdown).trans hnone)
  have hzero : ∀ f ∈ [R.HST.LINK.UP, R.HST.LINK.BME, R.HST.LINK.MSIX_EN], (downCounted e).get f = 0 := fun f hf => by
    have hkeys : ∀ f ∈ [R.HST.LINK.UP, R.HST.LINK.BME, R.HST.LINK.MSIX_EN], bookKey f.key = false ∧
      f.key ∉ [R.HST.STATUS.SEQ, R.HST.STATUS.DOWN, R.HST.STAT.COUNT 6].map Fld.key := by decide
    rw [hl.get (hkeys f hf).1 (hkeys f hf).2, hoff f hf]
  generalize downCounted e = g at hl hr hn hdue hnot hrest hv hp howed hzero ⊢
  generalize each linkLost (List.range 32) g = k at hdue hnot hrest hp howed ⊢
  have hlink (f : Fld) (hf : f ∈ [R.HST.LINK.UP, R.HST.LINK.BME, R.HST.LINK.MSIX_EN]) : k.on f = false := by
    have haddr : ∀ f ∈ [R.HST.LINK.UP, R.HST.LINK.BME, R.HST.LINK.MSIX_EN], 0x1d00000 ≤ f.addr ∧ f.lo < 64 := by decide
    rw [Dev.on, hrest f (haddr f hf).1 (haddr f hf).2, hzero f hf]
    rfl
  refine ⟨hlink _ (by simp), hlink _ (by simp), hlink _ (by simp), howed, ⟨?_, fun f hf => ?_⟩, ?_, hdue, hnot,
    congrArg s.mem.applyAll (hp.trans hposted)⟩
  · rw [get_after, hrest _ (by decide) (by decide), hr.1, hsq]
  · rw [List.mem_singleton.mp hf, on_after, Dev.on, hrest _ (by decide) (by decide)]
    exact hr.2 _ (by simp)
  · exact counted_of_get hn hcount (hrest _ (by decide) (by decide))

theorem linkDown_busMaster (s : State) (hup : s.dev.on R.HST.LINK.UP = true) (hbme : s.dev.on R.HST.LINK.BME = true) :
    Completes (.linkDown true) s (fun t =>
      t.dev.on R.HST.LINK.UP = true ∧ t.dev.on R.HST.LINK.BME = false ∧
      (∀ c : Fin 32, s.dev.hostDue c.val = true → t.dev.chState c.val = 5 ∧ t.dev.get (R.DMA.CH_STATUS.CAUSE c.val) = 7)) := by
  refine completes_to (exec_linkDown true s) (linkDown true s.dev) (if_pos (by simp [hup, hbme])) ?_
  rw [linkDown_eq, if_pos rfl]
  have hch : ∀ c < 32, SameChan c s.dev (put R.HST.LINK.BME 0 s.dev) := fun c hc => ⟨rfl, fun f hf => get_put_ne (fun heq => by
    have hrange := chanReg_range hc f hf
    have hout : 0x1c03000 ≤ R.HST.LINK.BME.key / 64 := by decide
    omega) 0 s.dev⟩
  have hbme' : (put R.HST.LINK.BME 0 s.dev).get R.HST.LINK.BME = 0 := get_put_self ..
  have hup' : (put R.HST.LINK.BME 0 s.dev).on R.HST.LINK.UP = true := (congrArg (· == 1) (get_put_ne (by decide) 0 s.dev)).trans hup
  generalize put R.HST.LINK.BME 0 s.dev = e at hch hbme' hup' ⊢
  obtain ⟨hl, -, -⟩ := downCounted_facts e
  obtain ⟨hdue, -, hrest, -, -⟩ := eachLost_downCounted hch
  generalize downCounted e = g at hl hdue hrest ⊢
  generalize each linkLost (List.range 32) g = k at hdue hrest ⊢
  refine ⟨?_, ?_, hdue⟩
  · rw [on_after, Dev.on, hrest _ (by decide) (by decide), hl.get (by decide) (by decide)]
    exact hup'
  · rw [on_after, Dev.on, hrest _ (by decide) (by decide), hl.get (by decide) (by decide), hbme']
    rfl

/-! ## Configuration requests -/

theorem configRetry_completes (r : CfgReq) (s : State) (htrains : s.dev.aon.trains = true) (hserved : s.dev.served = false) :
    Completes (.configurationRequest r) s (fun t =>
      t.dev.out = .cfgRetry (cfgOff r) :: s.dev.out ∧ Frame [] { s.dev with out := t.dev.out } s t) := by
  refine completes_to (exec_configurationRequest r s) (emit (.cfgRetry (cfgOff r)) s.dev) ?_ ⟨rfl, frame_of_leaves (Leaves.refl _) s⟩
  rw [if_neg (by simp [htrains]), if_neg (by simp [hserved])]

theorem configServed {r : CfgReq} {s : State} {post : State → Prop} (htrains : s.dev.aon.trains = true) (hserved : s.dev.served = true)
    (h : post (s.after (cfgRequest r s.dev))) : Completes (.configurationRequest r) s post := by
  refine completes_to (exec_configurationRequest r s) (cfgRequest r s.dev) ?_ h
  rw [if_neg (by simp [htrains]), if_pos hserved]

theorem configRead_completes (off : BitVec 12) (s : State) (htrains : s.dev.aon.trains = true) (hserved : s.dev.served = true) :
    Completes (.configurationRequest (.read off)) s (fun t =>
      (∃ v, t.dev.out = .cfgDone off.toNat v :: s.dev.out ∧ (off.toNat = 0 → v / 65536 = 0x1248) ∧ (off.toNat = 8 → v / 256 = 0x118000)) ∧
      Frame [] { s.dev with out := t.dev.out, free := s.dev.free + 1 } s t) := by
  refine configServed htrains hserved ⟨⟨s.dev.cfgWord off.toNat, rfl, fun h => ?_, fun h => ?_⟩, frame_of_leaves (Leaves.refl _) s⟩
  · rw [h, Dev.cfgWord, if_pos (by decide)]
    omega
  · rw [h, Dev.cfgWord, if_neg (by decide), if_pos (by decide)]
    omega

/-- The device with another function mask of its vectors. -/
def withMask (mask : Bool) (d : Dev) : Dev := { d with dma := { d.dma with fmask := mask } }

theorem msixUnmask_facts (vs : List Nat) (d : Dev) : (each msixUnmask vs d).regs = d.regs ∧ (each msixUnmask vs d).dma.fmask = d.dma.fmask := by
  induction vs generalizing d with
  | nil => exact ⟨rfl, rfl⟩
  | cons v vs ih =>
    have hone : (msixUnmask v d).regs = d.regs ∧ (msixUnmask v d).dma.fmask = d.dma.fmask := by
      unfold msixUnmask
      split
      · exact ⟨rfl, rfl⟩
      · exact ⟨rfl, rfl⟩
    exact ⟨(ih _).1.trans hone.1, (ih _).2.trans hone.2⟩

theorem configWrites_complete (en mask on : Bool) (s : State) (htrains : s.dev.aon.trains = true) (hserved : s.dev.served = true) :
    Completes (.configurationRequest (.busMaster true)) s (fun t => t.dev.on R.HST.LINK.BME = true) ∧
    Completes (.configurationRequest (.msix en mask)) s (fun t => t.dev.on R.HST.LINK.MSIX_EN = en ∧ t.dev.dma.fmask = mask) ∧
    Completes (.configurationRequest (.ptm on)) s (fun t => t.dev.tim.ptmOn = on) := by
  refine ⟨configServed htrains hserved ?_, configServed htrains hserved ?_, configServed htrains hserved rfl⟩
  · exact congrArg (· == 1) (get_put_self R.HST.LINK.BME 1 s.dev)
  · have hdev : cfgRequest (.msix en mask) s.dev = emit (.cfgDone 0 0) (each msixUnmask (List.range 64) (put R.HST.LINK.MSIX_EN (b2n en) (withMask mask s.dev))) :=
      rfl
    obtain ⟨hregs, hmask⟩ := msixUnmask_facts (List.range 64) (put R.HST.LINK.MSIX_EN (b2n en) (withMask mask s.dev))
    have hen := (get_congr hregs R.HST.LINK.MSIX_EN).trans (get_put_self R.HST.LINK.MSIX_EN (b2n en) (withMask mask s.dev))
    rw [hdev]
    generalize each msixUnmask (List.range 64) _ = e at hmask hen ⊢
    refine ⟨(congrArg (· == 1) hen).trans ?_, hmask⟩
    cases en <;> rfl

/-! ## Vectors -/

theorem perf_idle {d : Dev} (h : d.perf = []) (blk base code n : Nat) : perf blk base code n d = d := by
  have hone (k : Nat) : perfOne blk base code n k d = d := by
    unfold perfOne perfSel Dev.perfS
    rw [h]
    refine if_neg ?_
    change ¬ (0 = 1024 + code)
    omega
  have heach (ks : List Nat) : each (perfOne blk base code n) ks d = d := by
    induction ks with
    | nil => rfl
    | cons k ks ih => rw [each, hone, ih]
  unfold perf
  split
  · rfl
  · exact heach _

/-- The vector owes nothing, and has folded nothing. -/
def vecClear (v : Nat) (d : Dev) : Dev := { d with vecOwed := setFlag v false d.vecOwed, dma := { d.dma with coal := setNum v 0 d.dma.coal } }

/-- The vector's debt is paid: the events that it folded are counted. -/
def vecPaid (v : Nat) (d : Dev) : Dev := hstPerf 4 (num d.dma.coal v) (vecClear v d)

/-- The vector's pending bit, and the time of its last message. -/
def vecBits (v : Nat) (pend : Bool) (sent : KMap (Option Nat)) (d : Dev) : Dev :=
  { d with dma := { d.dma with pba := setFlag v pend d.dma.pba, sentAt := sent } }

/-- A vector without holdoff sends its message, or sets its pending bit. -/
def vecSends (v : Nat) (d : Dev) : Dev :=
  if bit (d.msixWord (4 * v + 3)) 0 || d.dma.fmask then vecBits v true d.dma.sentAt d
  else
    let e := vecBits v false (KMap.put (fun _ => none) d.dma.sentAt v (some d.dt)) d
    hstPerf 3 1 (hstStat 0 1 (emit (.msix v (e.msixWord (4 * v) + 2 ^ 32 * e.msixWord (4 * v + 1)) (e.msixWord (4 * v + 2))) e))

/-- The device once the vector's holdoff has passed. -/
def holdoffPassed (v : Nat) (d : Dev) : Dev :=
  match KMap.get (fun _ => (none : Option Nat)) d.dma.sentAt v with
  | some t => if d.get (R.HST.VMOD.HOLDOFF_US v) = 0 then d else reachNs t (1000 * d.get (R.HST.VMOD.HOLDOFF_US v) : Nat) d
  | none => d

theorem holdoffPassed_now {v : Nat} {d : Dev}
    (hnow : d.get (R.HST.VMOD.HOLDOFF_US v) = 0 ∨ KMap.get (fun _ => (none : Option Nat)) d.dma.sentAt v = none) : holdoffPassed v d = d := by
  unfold holdoffPassed
  split
  · next t hsent => exact if_pos (hnow.resolve_right (by simp [hsent]))
  · rfl

theorem msixMessage_eq (v : Nat) (d : Dev) : msixMessage v d =
    if !flag d.vecOwed v || !d.hostOk || !d.on R.HST.LINK.MSIX_EN then d else vecSends v (vecPaid v (holdoffPassed v d)) := rfl

theorem msixMessage_now {v : Nat} {d : Dev} (howed : flag d.vecOwed v = true) (hok : d.hostOk = true) (hen : d.on R.HST.LINK.MSIX_EN = true)
    (hnow : d.get (R.HST.VMOD.HOLDOFF_US v) = 0 ∨ KMap.get (fun _ => (none : Option Nat)) d.dma.sentAt v = none) :
    msixMessage v d = vecSends v (vecPaid v d) := by
  rw [msixMessage_eq, if_neg (by simp [howed, hok, hen]), holdoffPassed_now hnow]

/-- A vector that may send emits its message, and counts it. -/
theorem vecSends_open {v : Nat} {e : Dev} (h : (bit (e.msixWord (4 * v + 3)) 0 || e.dma.fmask) = false) : ∃ g, vecSends v e = hstPerf 3 1 (hstStat 0 1 g) ∧
    g.out = .msix v (e.msixWord (4 * v) + 2 ^ 32 * e.msixWord (4 * v + 1)) (e.msixWord (4 * v + 2)) :: e.out ∧ (∀ f, g.get f = e.get f) ∧
    g.vecOwed = e.vecOwed ∧ g.perf = e.perf := by
  refine ⟨emit (.msix v (e.msixWord (4 * v) + 2 ^ 32 * e.msixWord (4 * v + 1)) (e.msixWord (4 * v + 2)))
    (vecBits v false (KMap.put (fun _ => none) e.dma.sentAt v (some e.dt)) e), ?_, rfl, fun _ => rfl, rfl, rfl⟩
  unfold vecSends
  rw [h, if_neg Bool.false_ne_true]
  rfl

theorem vecPaid_facts (v : Nat) (d : Dev) : (∀ f, bookKey f.key = false → (vecPaid v d).get f = d.get f) ∧ (vecPaid v d).out = d.out ∧
    (∀ w, (vecPaid v d).msixWord w = d.msixWord w) ∧ (vecPaid v d).dma.fmask = d.dma.fmask ∧
    (d.perf = [] → flag (vecPaid v d).vecOwed v = false ∧ (vecPaid v d).perf = []) := by
  have hl := leaves_hstPerf 4 (num d.dma.coal v) (vecClear v d)
  refine ⟨fun f hb => hl.get hb (by simp), out_of_leaves hl, fun w => ?_, ?_, fun hperf => ?_⟩
  · have hm : (vecPaid v d).dma.msix = d.dma.msix := (dma_of_leaves hl).2.1
    rw [Dev.msixWord, hm, Dev.msixWord]
  · exact (dma_of_leaves hl).2.2
  · rw [vecPaid, hstPerf, perf_idle (d := vecClear v d) hperf]
    exact ⟨flag_setFlag v false d.vecOwed, hperf⟩

section
variable {v : Fin 64} {s : State} (howed : flag s.dev.vecOwed v.val = true) (hok : s.dev.hostOk = true)
  (hen : s.dev.on R.HST.LINK.MSIX_EN = true)
  (hnow : s.dev.get (R.HST.VMOD.HOLDOFF_US v.val) = 0 ∨ KMap.get (fun _ => (none : Option Nat)) s.dev.dma.sentAt v.val = none)
include howed hok hen hnow

theorem msixMessage_sends (hmask : bit (s.dev.msixWord (4 * v.val + 3)) 0 = false) (hfmask : s.dev.dma.fmask = false) :
    Completes (.msixMessage v) s (fun t =>
        t.dev.out = .msix v.val (s.dev.msixWord (4 * v.val) + 2 ^ 32 * s.dev.msixWord (4 * v.val + 1)) (s.dev.msixWord (4 * v.val + 2)) :: s.dev.out ∧
        Counted (R.HST.STAT.COUNT 0) 1 s.dev t.dev ∧ (s.dev.perf = [] → flag t.dev.vecOwed v.val = false)) := by
  obtain ⟨hget, hout, hword, hfm, hperf⟩ := vecPaid_facts v.val s.dev
  obtain ⟨g, hdev, hgout, hgget, hgowed, hgperf⟩ := vecSends_open (v := v.val) (e := vecPaid v.val s.dev) (by rw [hword, hmask, hfm, hfmask]; rfl)
  rw [hword, hword, hword, hout] at hgout
  rw [← msixMessage_now howed hok hen hnow] at hdev
  have hcount : g.get (R.HST.STAT.COUNT 0) = s.dev.get (R.HST.STAT.COUNT 0) := (hgget _).trans (hget _ (by decide))
  have hst := leaves_hstStat 0 1 g
  have hn := counted_hstStat 0 1 g
  have howed' : (hstStat 0 1 g).vecOwed = g.vecOwed := rfl
  have hperf' : (hstStat 0 1 g).perf = g.perf := rfl
  generalize hstStat 0 1 g = k at *
  have hp := leaves_hstPerf 3 1 k
  have hidle (h : k.perf = []) : hstPerf 3 1 k = k := perf_idle h ..
  generalize hstPerf 3 1 k = q at *
  refine completes_to (exec_msixMessage v s) q hdev ⟨((out_of_leaves hp).trans (out_of_leaves hst)).trans hgout,
    counted_of_get hn hcount (hp.get (by decide) (by simp)), fun h => ?_⟩
  have hq := hidle (hperf'.trans (hgperf.trans (hperf h).2))
  refine (?_ : flag q.vecOwed v.val = false)
  rw [hq, howed', hgowed]
  exact (hperf h).1

theorem msixMessage_masked (hmask : bit (s.dev.msixWord (4 * v.val + 3)) 0 = true) : Completes (.msixMessage v) s (fun t =>
        t.dev.out = s.dev.out ∧ flag t.dev.dma.pba v.val = true ∧ (s.dev.perf = [] → flag t.dev.vecOwed v.val = false)) := by
  obtain ⟨-, hout, hword, -, hperf⟩ := vecPaid_facts v.val s.dev
  refine completes_to (exec_msixMessage v s) _ (msixMessage_now howed hok hen hnow) ?_
  generalize vecPaid v.val s.dev = e at hout hword hperf ⊢
  unfold vecSends
  dsimp only
  rw [if_pos (by simp [hword, hmask])]
  exact ⟨hout, flag_setFlag v.val true e.dma.pba, fun h => (hperf h).1⟩

end

/-- Settles O49: BAR2 requests reach DRAM, the link goes up and down with its channels, and vectors send what they owe. -/
theorem hostReachesDramAndTheLink : Obligations.HostReachesDramAndTheLink :=
  ⟨fun _ bs n _ hoff hserved => bar2Write_completes hoff hserved bs n,
    fun _ n err bs _ hoff hserved hend hread => bar2Read_completes hoff hserved n err (bs, false) hend hread,
    fun off n err s hoff hserved hend hpoison => by
      obtain ⟨t, hstep, hpend, hout, hmeter, hframe⟩ := bar2Read_completes hoff hserved n err _ hend rfl
      exact ⟨t, hstep, hpend, ⟨_, hpoison ▸ hout⟩, hmeter, hframe⟩,
    fun _ n err _ hoff hserved => bar2Beyond_completes hoff hserved n err, linkUp_completes, linkDown_completes, linkDown_busMaster, configRetry_completes,
    configRead_completes, configWrites_complete, fun _ _ howed hok hen hnow =>
      ⟨msixMessage_sends howed hok hen hnow, msixMessage_masked howed hok hen hnow⟩⟩

end Sys2Proof.Proofs
end

section
/-!
A MOVE whose instruction takes the last of the grant: the fetch of the instruction is metered before the move looks at the grant.
-/
namespace Sys2Proof.Proofs
open Sys2Proof Sys2Proof.Machine

/-- A MOVE of one byte from address 1024 to address 2048, both given, without check or barrier. -/
def moveBytes : List Byte :=
  leBytes 1 1 ++ leBytes 1 3 ++ leBytes 2 5 ++ leBytes 4 1 ++ leBytes 8 1024 ++ leBytes 8 2048 ++ leBytes 4 0 ++ leBytes 4 0

/-- Program channel 0, whose owner class holds a slice of the buffer, stands before that MOVE at device address 0, and one byte is left of the grant of host image traffic. -/
def grantNearlySpent : State :=
  { State.reset with
    mem := { bytes := putBytes (putBytes [] 0 moveBytes) 1024 [7#8], marks := [(0, .written), (16, .written)] }
    dev :=
      { puts [(R.DMA.CH_CTL.MODE 0, 1), (R.DMA.CH_STATUS.STATE 0, 2), (R.DDR.CAP.ACTIVE, 1), (R.DDR.CAP.MIB, 1), (R.TOP.DRAM_GRANT.GRANT 3, 1)]
          State.reset.dev with
        rtHold := [(4096 * 4, some 13)]
        dma := { ch := [(0, { space := 1 })] }
        ddr := { meter := [(3, windowBudget 1 - 1)] } } }

/-- The PC of channel 0 after a step. -/
def pcAfter (o : Host.Outcome State Fault Refusal) : Option Nat :=
  match o with
  | .next t => some (t.dev.get (R.DMA.CH_PC.ADDR 0))
  | _ => none

theorem grantNearlySpent_stays : pcAfter (execMove 0 [] [] grantNearlySpent) = some 0 := by decide +kernel

/-- Refutes O51: the statement asks only that the grant is not spent before the command. The 32 bytes of the instruction are metered first,
and where they take what is left the MOVE waits for the next window: the PC stays. -/
theorem not_channelProgramsRun : ¬ Obligations.ChannelProgramsRun := by
  unfold Obligations.ChannelProgramsRun
  rintro ⟨-, h, -⟩
  have hfree : grantNearlySpent.dev.chFree 0 :=
    ⟨fun hon => absurd hon (by decide +kernel), by decide +kernel⟩
  have hat : grantNearlySpent.dev.atIns grantNearlySpent.mem 0 { op := 1, flags := 3, arg := 5, n := 1, a := 1024, b := 2048, c := 0, d := 0 } :=
    ⟨hfree, by decide +kernel, by decide +kernel, by decide +kernel, by decide +kernel, by decide +kernel, by decide +kernel, by decide +kernel⟩
  obtain ⟨t, hstep, -, -, hpc, -⟩ := h 0 _ [] [] [7#8] grantNearlySpent hat (by decide) (by decide) (by decide) (by decide) (by decide +kernel)
    (by decide +kernel) (by decide +kernel) (by decide +kernel)
  have hstays := grantNearlySpent_stays
  rw [exec_move] at hstep
  rw [hstep] at hstays
  have hzero : t.dev.get (R.DMA.CH_PC.ADDR 0) = 0 := Option.some.inj hstays
  have hold : grantNearlySpent.dev.get (R.DMA.CH_PC.ADDR 0) = 0 := by decide +kernel
  have hnew : t.dev.get (R.DMA.CH_PC.ADDR (0 : Fin 32).val) = (grantNearlySpent.dev.get (R.DMA.CH_PC.ADDR (0 : Fin 32).val) + 32) % 2 ^ 64 := hpc
  rw [Fin.val_zero, hzero, hold] at hnew
  exact absurd hnew (by decide)

end Sys2Proof.Proofs
end

section
/-!
A corrected SRAM error of a unit that no block has: its performance counters lie where no block has any.
-/
namespace Sys2Proof.Proofs
open Sys2Proof Sys2Proof.Machine

/-- A corrected error in an array of gouge 1537; there are 136 gouges. -/
def strayHit : SramHit := { block := 13, inst := 1537, arr := 0, row := 0, lost := none }

/-- The counters of gouge 1537 lie at 0x1c02000, among the DMA channels. Its counter 0 counts corrected SRAM errors. -/
def strayCounter : State :=
  { State.reset with dev := { put R.RAS.CTL.SRAM_CE_ROW 8 State.reset.dev with perf := [(0x1c02000, { sel := [(0, 1024 + 0xf)] })] } }

/-- The value of that counter after a step. -/
def strayCountAfter (o : Host.Outcome State Fault Refusal) : Option Nat :=
  match o with
  | .next t => some (t.dev.get (R.PERF.CNT.COUNT 0x1c02000 0))
  | _ => none

theorem strayCounter_counts : strayCountAfter (execSramScrub 0 (some strayHit) strayCounter) = some 1 := by decide +kernel

/-- Refutes O57: the unit number of an SRAM error is not bounded. A hit of gouge 1537 counts in a register of the DMA's address range, which
the frame of SRAM_SCRUB does not allow. -/
theorem not_faultsAreCountedAndRepaired : ¬ Obligations.FaultsAreCountedAndRepaired := by
  unfold Obligations.FaultsAreCountedAndRepaired
  rintro ⟨-, -, -, -, -, -, -, -, -, -, h, -⟩
  have hfew : num strayCounter.dev.ras.rowCe (((256 * strayHit.block.val + strayHit.inst) * 65536 + strayHit.arr.toNat) * 65536 + strayHit.row.toNat) + 1 <
      strayCounter.dev.get R.RAS.CTL.SRAM_CE_ROW := by decide +kernel
  obtain ⟨t, hstep, -, -, -, hframe⟩ := (h 0 _ strayHit strayCounter rfl rfl).1 hfew
  have hcount := strayCounter_counts
  rw [exec_sramScrub] at hstep
  rw [hstep] at hcount
  have hnow : t.dev.get (R.PERF.CNT.COUNT 0x1c02000 0) = 1 := Option.some.inj hcount
  have hold : strayCounter.dev.get (R.PERF.CNT.COUNT 0x1c02000 0) = 0 := by decide +kernel
  have hkept := hframe.1.1 (R.PERF.CNT.COUNT 0x1c02000 0) (by decide) (by decide)
  rw [get_after] at hkept
  have hsame : t.dev.get (R.PERF.CNT.COUNT 0x1c02000 0) = strayCounter.dev.get (R.PERF.CNT.COUNT 0x1c02000 0) := hkept
  rw [hnow, hold] at hsame
  exact absurd hsame (by decide)

end Sys2Proof.Proofs
end

section
/-!
A block boundary on the way to the next power read: the lines whose time has come reach their ports before POWER_READ reads a rail.
-/
namespace Sys2Proof.Proofs
open Sys2Proof Sys2Proof.Machine

/-- A line of generator 0 that begins a block of port 0. -/
def comingBlock : Coming := { g := 0, lsn := 0, e := 0, ports := [(0, true, true)] }

/-- Port 0 has a lane mask due at its next block boundary, and a line that begins a block is on its way to it; rail 0 is read every millisecond. -/
def maskBeforeRead : State :=
  { State.reset with
    dev :=
      { puts [(R.MGT.STATUS.STATE, 1), (R.MGT.PMB_CTL.EN, 1), (R.MGT.PMB_RAIL.EN 0, 1), (R.EKL.STATUS.STATE 0, 4), (R.LNE.STATUS.STATE 48, 6)]
          (setPort 0 { State.reset.dev.portS 0 with maskDue := true } State.reset.dev) with
        mgt := { State.reset.dev.mgt with powAt := some 0 }
        tim := { State.reset.dev.tim with coming := [comingBlock] } } }

/-- A good answer of rail 0 with 7 W. -/
def goodRead : RailRead := { rail := 0, pout := some 7 }

/-- How much a step sends out. -/
def outLength (o : Host.Outcome State Fault Refusal) : Option Nat :=
  match o with
  | .next t => some t.dev.out.length
  | _ => none

theorem maskBeforeRead_sends_both : outLength (execPowerRead [goodRead] maskBeforeRead) = some 2 := by decide +kernel

/-- Refutes O58: POWER_READ waits for its millisecond, and what is sent on the way to it stands in the output as well. Here the downlink message
with the lane mask leaves before the PMBus transfer; the statement lets only the transfer stand before what had left. -/
theorem not_sensorsRailsAndLogAreServed : ¬ Obligations.SensorsRailsAndLogAreServed := by
  unfold Obligations.SensorsRailsAndLogAreServed
  rintro ⟨-, -, -, -, -, -, h, -⟩
  obtain ⟨t, hstep, -, -, hout, -⟩ := (h goodRead 7#16 _ maskBeforeRead (by decide +kernel) (by decide +kernel) (by decide +kernel) rfl
    (by decide +kernel) (by decide +kernel)).1 rfl (by decide)
  have hsent := maskBeforeRead_sends_both
  rw [exec_powerRead] at hstep
  rw [hstep] at hsent
  have htwo : t.dev.out.length = 2 := Option.some.inj hsent
  have hone : t.dev.out.length = maskBeforeRead.dev.out.length + 1 := by rw [hout, List.length_cons]
  have hnone : maskBeforeRead.dev.out.length = 0 := by decide +kernel
  omega

end Sys2Proof.Proofs
end

section
/-!
The mailbox: a command is executed and answered (R460 to R463).
-/
namespace Sys2Proof.Proofs
open Sys2Proof Sys2Proof.Machine

/-! ## Answers -/

@[simp] theorem length_leBytes (n v : Nat) : (leBytes n v).length = n := by
  induction n generalizing v with
  | zero => rfl
  | succ n ih => rw [leBytes, List.length_cons, ih]

/-- The bytes in the middle of what was put. -/
theorem range_map_putBytes_mid {xs ys zs : List Byte} {m : KMap Byte} {off n : Nat} (hoff : off = xs.length) (hn : n = ys.length) :
    (List.range n).map (fun i => KMap.get (fun _ => 0#8) (putBytes m 0 (xs ++ ys ++ zs)) (off + i)) = ys := by
  subst hoff hn
  refine List.ext_getElem (by simp) fun i hi hi' => ?_
  rw [List.getElem_map, List.getElem_range, get_putBytes, if_pos (by simp; omega), Nat.sub_zero, nth_eq_getElem _ (by simp; omega),
    List.getElem_append_left (by simp; omega), List.getElem_append_right (by omega)]
  congr 1
  omega

/-- What the mailbox holds after an answer. -/
def answerBytes (status : Nat) (payload : List Byte) (d : Dev) : List Byte :=
  leBytes 2 (d.mbxField 0 2) ++ leBytes 2 status ++ leBytes 4 (d.mbxField 4 4) ++ leBytes 4 payload.length ++ leBytes 4 0 ++ payload

/-- The mailbox after an answer, before the answer is shown. -/
def answerPlaced (status : Nat) (payload : List Byte) (d : Dev) : Dev :=
  put R.MGT.MBX_STATUS.BUSY 0 { d with mgt := { d.mgt with mbx := putBytes d.mgt.mbx 0 (answerBytes status payload d) } }

theorem mbxRespond_eq (status : Nat) (payload : List Byte) (d : Dev) :
    mbxRespond status payload d = event 3 R.MGT.STATUS.SEQ [R.MGT.STATUS.MBX_DONE] (answerPlaced status payload d) := rfl

/-- An answer only changes these registers, the books and the mailbox. -/
theorem leaves_mbxRespond (status : Nat) (payload : List Byte) (d : Dev) :
    Leaves [R.MGT.STATUS.SEQ, R.MGT.STATUS.MBX_DONE] (answerPlaced status payload d) (mbxRespond status payload d) := leaves_event ..

theorem get_mbxRespond {f : Fld} (hb : bookKey f.key = false) (hf : f.key ∉ [R.MGT.STATUS.SEQ, R.MGT.STATUS.MBX_DONE, R.MGT.MBX_STATUS.BUSY].map Fld.key)
    (status : Nat) (payload : List Byte) (d : Dev) : (mbxRespond status payload d).get f = d.get f := by
  simp only [List.map_cons, List.map_nil, List.mem_cons, List.not_mem_nil, or_false, not_or] at hf
  rw [(leaves_mbxRespond status payload d).get hb (by simp [hf]), answerPlaced, get_put_ne hf.2.2]
  rfl

theorem mgt_mbxRespond (status : Nat) (payload : List Byte) (d : Dev) :
    (mbxRespond status payload d).mgt = { d.mgt with mbx := putBytes d.mgt.mbx 0 (answerBytes status payload d) } :=
  mgt_of_leaves (leaves_mbxRespond status payload d)

theorem nvm_mbxRespond (status : Nat) (payload : List Byte) (d : Dev) : (mbxRespond status payload d).nvm = d.nvm :=
  (nvm_of_leaves (leaves_mbxRespond status payload d) : _ = (answerPlaced status payload d).nvm)

theorem cal_mbxRespond (status : Nat) (payload : List Byte) (d : Dev) : (mbxRespond status payload d).cal = d.cal :=
  (cal_of_leaves (leaves_mbxRespond status payload d) : _ = (answerPlaced status payload d).cal)

theorem rootHash_mbxRespond (status : Nat) (payload : List Byte) (d : Dev) : (mbxRespond status payload d).rootHash = d.rootHash :=
  (rootHash_of_leaves (leaves_mbxRespond status payload d) : _ = (answerPlaced status payload d).rootHash)

theorem mbxField_congr {d e : Dev} (h : e.mgt.mbx = d.mgt.mbx) (off n : Nat) : e.mbxField off n = d.mbxField off n := by
  unfold Dev.mbxField Dev.mbxBytes
  rw [h]

/-- An answer shows its status and its payload, and the event, where nothing before it moved the SEQ on. -/
theorem answered_mbxRespond {status : Nat} {payload : List Byte} {d0 d : Dev} (hst : status < 2 ^ 16) (hlen : payload.length < 2 ^ 32)
    (hseq : d.get R.MGT.STATUS.SEQ = d0.get R.MGT.STATUS.SEQ) (s : State) :
    Answered d0 (s.after (mbxRespond status payload d)).dev status payload := by
  have hbytes (off n : Nat) : (s.after (mbxRespond status payload d)).dev.mbxBytes off n =
      (List.range n).map (fun i => KMap.get (fun _ => 0#8) (putBytes d.mgt.mbx 0 (answerBytes status payload d)) (off + i)) := by
    unfold Dev.mbxBytes
    rw [after_mgt, mgt_mbxRespond]
  refine ⟨?_, ?_, ?_, ?_, ?_⟩
  · rw [on_after, Dev.on, (leaves_mbxRespond status payload d).get (by decide) (by decide), answerPlaced, get_put_self]
    rfl
  · rw [Dev.mbxField, hbytes, answerBytes, List.append_assoc, List.append_assoc, List.append_assoc,
      range_map_putBytes_mid (by simp) (by simp), leVal_leBytes]
    exact Nat.mod_eq_of_lt hst
  · rw [Dev.mbxField, hbytes, answerBytes, List.append_assoc _ (leBytes 4 0), range_map_putBytes_mid (by simp) (by simp), leVal_leBytes]
    exact Nat.mod_eq_of_lt hlen
  · rw [hbytes, answerBytes, ← List.append_nil (_ ++ payload), range_map_putBytes_mid (by simp) rfl]
  · refine raised_after ?_ s
    rw [mbxRespond_eq]
    exact raised_event (by decide) (by decide) (by decide) ((get_put_ne (by decide) ..).trans hseq)

/-- A command that finds its request runs its arm. -/
theorem completes_asked {c : Instr} {s : State} {cmd need : Nat} {f : Dev → Dev} {post : State → Prop}
    (hc : exec c s = total (fun _ d => mbxRow cmd need f d) s) (hasks : s.dev.mbxAsks cmd need) (e : Dev) (he : f s.dev = e) (h : post (s.after e)) :
    Completes c s post := by
  obtain ⟨hbusy, hup, howed, hcmd, hneed, hmax⟩ := hasks
  refine completes_to hc e ?_ h
  rw [mbxRow, if_neg (by simp [hbusy, hup, howed, hcmd]), if_neg (by omega), he]

/-! ## The NVM devices -/

/-- Both NVM devices after a write that both take. -/
def bothWritten (part : Nat) (f : NvmDev → NvmDev) (d : Dev) : Dev :=
  { d with
    nvm := KMap.put (fun _ => {}) (KMap.put (fun _ => {}) d.nvm 0 (f (d.nvmS 0))) 1 (f (d.nvmS 1))
    out := .nvmWrite 1 part 0 :: .nvmWrite 0 part 0 :: d.out }

theorem nvmS_bothWritten_zero (part : Nat) (f : NvmDev → NvmDev) (d : Dev) : (bothWritten part f d).nvmS 0 = f (d.nvmS 0) := by
  rw [Dev.nvmS, bothWritten, KMap.get_put_ne _ _ _ _ _ (by decide), KMap.get_put_self]

theorem nvmS_bothWritten_one (part : Nat) (f : NvmDev → NvmDev) (d : Dev) : (bothWritten part f d).nvmS 1 = f (d.nvmS 1) := by
  rw [Dev.nvmS, bothWritten, KMap.get_put_self]

theorem nvmWrite_both {d : Dev} (h : d.bothNvm) (part : Nat) (f : NvmDev → NvmDev) : nvmWrite part {} f d = bothWritten part f d := by
  have hne : ((emit (.nvmWrite 0 part 0) (setNvm 0 (f (d.nvmS 0)) d)).nvmS 1) = d.nvmS 1 := nvmS_setNvm_ne 0 _ _ 1 (by decide)
  simp only [nvmWrite, each, h.1, h.2, ioFails, hne, if_true, if_false, Bool.false_eq_true, if_neg (by decide : ¬ (1 = 0))]
  rfl

/-- A write that leaves the devices in service. -/
theorem bothNvm_bothWritten {d : Dev} (h : d.bothNvm) {f : NvmDev → NvmDev} (hf : ∀ x : NvmDev, (f x).failed = x.failed) (part : Nat) :
    (bothWritten part f d).bothNvm := by
  refine ⟨?_, ?_⟩
  · rw [nvmS_bothWritten_zero, hf]
    exact h.1
  · rw [nvmS_bothWritten_one, hf]
    exact h.2

theorem nvmDown_of_both {d : Dev} (h : d.bothNvm) : d.nvmDown = false := by rw [Dev.nvmDown, h.1, Bool.false_and]

theorem nvmMain_of_both {d : Dev} (h : d.bothNvm) : d.nvmMain = d.nvmS 0 := if_neg (by rw [h.1]; decide)

theorem slotTab_of_both {d : Dev} (h : d.bothNvm) : d.slotTab = (d.nvmS 0).slots.getD {} := by rw [Dev.slotTab, nvmMain_of_both h]

theorem slotTab_of_nvm {d e : Dev} (h : e.nvm = d.nvm) : e.slotTab = d.slotTab := by
  unfold Dev.slotTab Dev.nvmMain Dev.nvmS
  rw [h]

theorem nvmS_of_nvm {d e : Dev} (h : e.nvm = d.nvm) (i : Nat) : e.nvmS i = d.nvmS i := by rw [Dev.nvmS, h, Dev.nvmS]

/-- What a write of the slot table stores, besides a generation that moves on. -/
def slotsStored (d : Dev) (f : SlotTab → SlotTab) (x : NvmDev) : NvmDev :=
  { x with slots := some { f d.slotTab with gen := (d.slotTab.gen + 1) % 2 ^ 32 } }

theorem slotWrite_both {d : Dev} (h : d.bothNvm) (f : SlotTab → SlotTab) : slotWrite {} f d = bothWritten 0 (slotsStored d f) d :=
  nvmWrite_both h 0 (slotsStored d f)

theorem slotTab_slotWritten {d : Dev} (h : d.bothNvm) (f : SlotTab → SlotTab) : (bothWritten 0 (slotsStored d f) d).slotTab =
    { f d.slotTab with gen := (d.slotTab.gen + 1) % 2 ^ 32 } := by
  rw [slotTab_of_both (bothNvm_bothWritten (f := slotsStored d f) h (fun _ => rfl) 0), nvmS_bothWritten_zero]
  rfl

/-- The first device after a read that it serves. -/
def nvmTried (d : Dev) : Dev := setNvm 0 { d.nvmS 0 with errs := 0 } d

theorem nvmRead_both {d : Dev} (h : d.bothNvm) : nvmRead {} d = (some 0, nvmTried d) := by
  have htry : nvmTry {} 0 d = (true, nvmTried d) := by
    rw [nvmTry, if_neg (by simp [h.1]), if_neg (by decide)]
    rfl
  rw [nvmRead, htry]

theorem nvmS_tried_zero (d : Dev) : (nvmTried d).nvmS 0 = { d.nvmS 0 with errs := 0 } := nvmS_setNvm ..

theorem bothNvm_tried {d : Dev} (h : d.bothNvm) : (nvmTried d).bothNvm :=
  ⟨by rw [nvmS_tried_zero]; exact h.1, (congrArg NvmDev.failed (nvmS_setNvm_ne 0 _ _ 1 (by decide))).trans h.2⟩

theorem slotTab_tried {d : Dev} (h : d.bothNvm) : (nvmTried d).slotTab = d.slotTab := by
  rw [slotTab_of_both (bothNvm_tried h), nvmS_tried_zero, slotTab_of_both h]

/-- A device that answers a read keeps its repair map. -/
theorem mapDev_tried {d : Dev} (h : d.bothNvm) :
    (nvmTried d).mapDev.mapHeader = d.mapDev.mapHeader ∧ (nvmTried d).mapDev.repairs = d.mapDev.repairs := by
  have h1 : (nvmTried d).nvmS 1 = d.nvmS 1 := nvmS_setNvm_ne 0 _ _ 1 (by decide)
  have hmap {e : Dev} (he : e.bothNvm) : e.mapDev = if (e.nvmS 0).mapGen < (e.nvmS 1).mapGen then e.nvmS 1 else e.nvmS 0 := by
    rw [Dev.mapDev, if_neg (by rw [he.1]; decide), if_neg (by rw [he.2]; decide)]
  rw [hmap (bothNvm_tried h), hmap h, nvmS_tried_zero, h1]
  dsimp only
  split
  · exact ⟨rfl, rfl⟩
  · exact ⟨rfl, rfl⟩

/-! ## Information -/

theorem length_slotTab_bytes (t : SlotTab) : t.bytes.length = 64 := by simp [SlotTab.bytes]

theorem info_completes (s : State) (h : s.dev.mbxAsks 1 0) : Completes .info s (fun t => Answered s.dev t.dev 0
    (leBytes 2 (s.dev.get R.MGT.ID.FW_VER) ++ leBytes 2 (s.dev.get R.MGT.ID.ROM_VER) ++ leBytes 8 Config.serial ++ leBytes 8 Config.dieId
      ++ s.dev.slotTab.bytes ++ leBytes 4 (s.dev.get (R.MGT.STAT.COUNT 6)))) :=
  completes_asked (exec_info s) h _ rfl (answered_mbxRespond (by decide) (by simp [length_slotTab_bytes]) rfl s)

theorem length_logEntry_bytes (e : LogEntry) : e.bytes.length = 32 := by simp [LogEntry.bytes]

theorem length_repEntry_bytes (e : RepEntry) : e.bytes.length = 32 := by simp [RepEntry.bytes]

theorem length_mapHeader (x : NvmDev) : x.mapHeader.length = 64 := by simp [NvmDev.mapHeader]

theorem length_flatMap_le {α : Type} {xs : List α} {f : α → List Byte} {n k : Nat} (hf : ∀ x, (f x).length = n) (hk : xs.length ≤ k) :
    (xs.flatMap f).length ≤ n * k := by
  induction xs generalizing k with
  | nil => exact Nat.zero_le _
  | cons x xs ih =>
    obtain ⟨j, rfl⟩ : ∃ j, k = j + 1 := ⟨k - 1, by simp at hk; omega⟩
    rw [List.flatMap_cons, List.length_append, hf, Nat.mul_succ]
    have := ih (Nat.le_of_succ_le_succ hk)
    omega

theorem length_logRead_le (start count : Nat) (log : List LogEntry) : (logRead start count log).length ≤ 32 + 32 * count := by
  unfold logRead
  dsimp only
  rw [List.length_append]
  refine Nat.add_le_add (by simp) (length_flatMap_le length_logEntry_bytes (List.length_take_le ..))

theorem logRead_completes (s : State) (h : s.dev.mbxAsks 2 6) (hnvm : s.dev.bothNvm) (hn : s.dev.arg 4 2 ≤ 500) : Completes (.logRead {}) s (fun t =>
    Answered s.dev t.dev 0 (logRead (s.dev.arg 0 4) (s.dev.arg 4 2) (s.dev.nvmS 0).log)) := by
  have hlen := length_logRead_le (s.dev.arg 0 4) (s.dev.arg 4 2) (s.dev.nvmS 0).log
  refine completes_asked (exec_logRead {} s) h
    (mbxRespond 0 (logRead (s.dev.arg 0 4) (s.dev.arg 4 2) (s.dev.nvmS 0).log) (nvmTried s.dev)) ?_ ?_
  · rw [if_neg (by omega), nvmRead_both hnvm]
    dsimp only
    rw [nvmS_tried_zero]
    rfl
  · have hseq : (nvmTried s.dev).get R.MGT.STATUS.SEQ = s.dev.get R.MGT.STATUS.SEQ := rfl
    generalize nvmTried s.dev = e at hseq ⊢
    exact answered_mbxRespond (by decide) (by omega) hseq s

theorem repairRead_completes (s : State) (h : s.dev.mbxAsks 0x20 4) (hnvm : s.dev.bothNvm) (hn : s.dev.arg 2 2 ≤ 500) :
    Completes (.repairRead {}) s (fun t => Answered s.dev t.dev 0
    (s.dev.mapDev.mapHeader ++ ((s.dev.mapDev.repairs.drop (s.dev.arg 0 2)).take (s.dev.arg 2 2)).flatMap RepEntry.bytes)) := by
  have hlen := length_flatMap_le length_repEntry_bytes
    (Nat.le_trans (List.length_take_le (s.dev.arg 2 2) (s.dev.mapDev.repairs.drop (s.dev.arg 0 2))) hn)
  refine completes_asked (exec_repairRead {} s) h (mbxRespond 0
    (s.dev.mapDev.mapHeader ++ ((s.dev.mapDev.repairs.drop (s.dev.arg 0 2)).take (s.dev.arg 2 2)).flatMap RepEntry.bytes) (nvmTried s.dev)) ?_ ?_
  · rw [if_neg (by omega), nvmRead_both hnvm]
    dsimp only
    rw [(mapDev_tried hnvm).1, (mapDev_tried hnvm).2]
    rfl
  · have hseq : (nvmTried s.dev).get R.MGT.STATUS.SEQ = s.dev.get R.MGT.STATUS.SEQ := rfl
    generalize nvmTried s.dev = e at hseq ⊢
    exact answered_mbxRespond (by decide) (by rw [List.length_append, length_mapHeader]; omega) hseq s

/-- What SENSORS shows of a rail. -/
def railBytes (d : Dev) (r : Nat) : List Byte :=
  leBytes 2 (d.railS r).vin ++ leBytes 2 (d.railS r).vout ++ leBytes 2 (d.railS r).iout ++ leBytes 2 (d.railS r).temp
    ++ leBytes 2 (d.get (R.MGT.PMB_POUT.POUT r))

theorem length_railBytes (d : Dev) (r : Nat) : (railBytes d r).length = 10 := by simp [railBytes]

theorem sensors_completes (s : State) (h : s.dev.mbxAsks 0x31 0) : Completes .sensors s (fun t => Answered s.dev t.dev 0
    ((List.range 16).flatMap (fun n => leBytes 2 (s.dev.get (R.MGT.TS.TEMP n))) ++ leBytes 4 (s.dev.get R.MGT.VMON_LO.OUT)
      ++ leBytes 4 (s.dev.get R.MGT.VMON_HI.OUT) ++ (List.range 8).flatMap (fun r => leBytes 2 (s.dev.railS r).vin ++ leBytes 2 (s.dev.railS r).vout
      ++ leBytes 2 (s.dev.railS r).iout ++ leBytes 2 (s.dev.railS r).temp ++ leBytes 2 (s.dev.get (R.MGT.PMB_POUT.POUT r))))) := by
  have hts := length_flatMap_le (xs := List.range 16) (f := fun n => leBytes 2 (s.dev.get (R.MGT.TS.TEMP n))) (fun _ => length_leBytes ..)
    (Nat.le_of_eq List.length_range)
  have hrails := length_flatMap_le (xs := List.range 8) (length_railBytes s.dev) (Nat.le_of_eq List.length_range)
  refine completes_asked (exec_sensors s) h _ rfl (answered_mbxRespond (by decide) ?_ rfl s)
  simp only [List.length_append, length_leBytes]
  exact Nat.lt_of_le_of_lt (Nat.add_le_add (Nat.add_le_add_right (Nat.add_le_add_right hts 4) 4) hrails) (by decide)

/-! ## The log -/

theorem lseq_raise (n : Nat) (d : Dev) : (raise n d).lseq = d.lseq := by
  unfold raise
  dsimp only
  split
  · split
    · rfl
    · rfl
  · rfl

theorem lseq_puts (fs : List (Fld × Nat)) (d : Dev) : (puts fs d).lseq = d.lseq := by
  induction fs generalizing d with
  | nil => rfl
  | cons f fs ih => exact (ih _).trans rfl

theorem lseq_event (code : Nat) (seq : Fld) (fs : List Fld) (d : Dev) : (event code seq fs d).lseq = d.lseq := by
  rw [event, lseq_raise, lseq_puts]
  rfl

theorem lseq_perf (blk base code k : Nat) (d : Dev) : (perf blk base code k d).lseq = d.lseq := by
  unfold perf
  split
  · rfl
  · refine proj_each Dev.lseq (fun n _ d => ?_) d
    unfold perfOne
    dsimp only
    split
    · split
      · rfl
      · exact lseq_event ..
    · rfl

/-- An entry that no entry stands before takes the next number. -/
theorem lseq_logFw {d : Dev} (h : d.logNewest = none) (code inst sev data : Nat) : (logFw code inst sev data d).lseq = (d.lseq + 1) % 2 ^ 32 := by
  rw [logFw, logEntry, h]
  dsimp only
  rw [logFresh, mgtPerf, lseq_perf]
  rfl

theorem lseq_mbxRespond (status : Nat) (payload : List Byte) (d : Dev) : (mbxRespond status payload d).lseq = d.lseq := lseq_event ..

/-- The entry that LOG_WRITE makes. -/
def hostLogged (d : Dev) : Dev := logFw (d.arg 0 2) 0 (d.arg 2 1) (d.arg 4 8) d

theorem logWrite_completes (s : State) (h : s.dev.mbxAsks 3 12) (hcode : 0xff00 ≤ s.dev.arg 0 2) (hsev : s.dev.arg 2 1 ≤ 3) :
    Completes .logWrite s (fun t =>
    Answered s.dev t.dev 0 [] ∧ (s.dev.logNewest = none → t.dev.lseq = (s.dev.lseq + 1) % 2 ^ 32)) := by
  have hseq : (hostLogged s.dev).get R.MGT.STATUS.SEQ = s.dev.get R.MGT.STATUS.SEQ := get_logFw (by decide) ..
  have hl : s.dev.logNewest = none → (hostLogged s.dev).lseq = (s.dev.lseq + 1) % 2 ^ 32 := fun hn => lseq_logFw hn ..
  refine completes_asked (exec_logWrite s) h (mbxRespond 0 [] (hostLogged s.dev)) (if_neg (by omega)) ?_
  generalize hostLogged s.dev = e at hseq hl ⊢
  exact ⟨answered_mbxRespond (by decide) (by decide) hseq s, fun hn => (after_lseq s _).trans ((lseq_mbxRespond 0 [] e).trans (hl hn))⟩

theorem logWrite_short (s : State) (h : s.dev.mbxAsks 3 0) (hlen : s.dev.mbxField 8 4 < 12) :
    Completes .logWrite s (fun t => Answered s.dev t.dev 2 [] ∧ t.dev.lseq = s.dev.lseq) := by
  obtain ⟨hbusy, hup, howed, hcmd, -, -⟩ := h
  refine completes_to (exec_logWrite s) (mbxRespond 2 [] s.dev) ?_
    ⟨answered_mbxRespond (by decide) (by decide) rfl s, (after_lseq s _).trans (lseq_mbxRespond 2 [] s.dev)⟩
  rw [mbxRow, if_neg (by simp [hbusy, hup, howed, hcmd]), if_pos (.inl hlen)]

/-! ## Image update -/

/-- What a write of the NVM devices leaves: the registers and the management part. -/
theorem get_bothWritten (f : Fld) (part : Nat) (g : NvmDev → NvmDev) (d : Dev) : (bothWritten part g d).get f = d.get f := rfl

theorem mgt_bothWritten (part : Nat) (g : NvmDev → NvmDev) (d : Dev) : (bothWritten part g d).mgt = d.mgt := rfl

theorem stateOf_setState (t : SlotTab) (n v : Nat) : (t.setState n v).stateOf n = v := by
  unfold SlotTab.setState SlotTab.stateOf
  split
  · rfl
  · rfl

theorem stateOf_setLen (t : SlotTab) (n v : Nat) : (t.setLen n v).stateOf n = t.stateOf n := by
  unfold SlotTab.setLen SlotTab.stateOf
  split
  · rfl
  · rfl

theorem img_setImg (x : NvmDev) (n : Nat) (v : KMap Byte) : (x.setImg n v).img n = v := by
  unfold NvmDev.setImg NvmDev.img
  split
  · rfl
  · rfl

theorem failed_setImg (x : NvmDev) (n : Nat) (v : KMap Byte) : (x.setImg n v).failed = x.failed := by
  unfold NvmDev.setImg
  split
  · rfl
  · rfl

/-- The slot table written to both devices. -/
def slotsWritten (f : SlotTab → SlotTab) (d : Dev) : Dev := bothWritten 0 (slotsStored d f) d

theorem slotWrite_written {d : Dev} (h : d.bothNvm) (f : SlotTab → SlotTab) : slotWrite {} f d = slotsWritten f d := slotWrite_both h f

/-- An image written to both devices. -/
def imgWritten (n : Nat) (g : KMap Byte → KMap Byte) (d : Dev) : Dev := bothWritten 3 (fun x => x.setImg n (g (x.img n))) d

theorem slotsWritten_facts {d : Dev} (h : d.bothNvm) (f : SlotTab → SlotTab) :
    (slotsWritten f d).bothNvm ∧ (∀ n, ((slotsWritten f d).nvmS 0).img n = (d.nvmS 0).img n ∧ ((slotsWritten f d).nvmS 1).img n = (d.nvmS 1).img n) ∧
    (slotsWritten f d).slotTab = { f d.slotTab with gen := (d.slotTab.gen + 1) % 2 ^ 32 } := by
  refine ⟨bothNvm_bothWritten (f := slotsStored d f) h (fun _ => rfl) 0, fun n => ?_, slotTab_slotWritten h f⟩
  rw [slotsWritten, nvmS_bothWritten_zero, nvmS_bothWritten_one]
  exact ⟨rfl, rfl⟩

theorem slots_setImg (x : NvmDev) (n : Nat) (v : KMap Byte) : (x.setImg n v).slots = x.slots := by
  unfold NvmDev.setImg
  split
  · rfl
  · rfl

theorem imgWritten_facts {d : Dev} (h : d.bothNvm) (n : Nat) (g : KMap Byte → KMap Byte) :
    (imgWritten n g d).bothNvm ∧ ((imgWritten n g d).nvmS 0).img n = g ((d.nvmS 0).img n) ∧ ((imgWritten n g d).nvmS 1).img n = g ((d.nvmS 1).img n) ∧
    (imgWritten n g d).slotTab = d.slotTab := by
  have hb : (imgWritten n g d).bothNvm := bothNvm_bothWritten h (fun x => failed_setImg ..) 3
  refine ⟨hb, ?_, ?_, ?_⟩
  · rw [imgWritten, nvmS_bothWritten_zero, img_setImg]
  · rw [imgWritten, nvmS_bothWritten_one, img_setImg]
  · rw [slotTab_of_both hb, slotTab_of_both h, imgWritten, nvmS_bothWritten_zero, slots_setImg]

theorem get_slotsWritten (f : SlotTab → SlotTab) (d : Dev) (r : Fld) : (slotsWritten f d).get r = d.get r := by rw [slotsWritten, get_bothWritten]
theorem get_imgWritten (n : Nat) (g : KMap Byte → KMap Byte) (d : Dev) (r : Fld) : (imgWritten n g d).get r = d.get r := by rw [imgWritten, get_bothWritten]
theorem mgt_slotsWritten (f : SlotTab → SlotTab) (d : Dev) : (slotsWritten f d).mgt = d.mgt := by rw [slotsWritten, mgt_bothWritten]
theorem mgt_imgWritten (n : Nat) (g : KMap Byte → KMap Byte) (d : Dev) : (imgWritten n g d).mgt = d.mgt := by rw [imgWritten, mgt_bothWritten]

/-- What follows the NVM writes of an update: the management part notes it. -/
def imgNoted (len : Option Nat) (ok : Bool) (c : Option Nat) (d : Dev) : Dev :=
  { d with mgt := { d.mgt with imgLen := len, imgOk := ok, committed := c } }

theorem imgNoted_nvm (len : Option Nat) (ok : Bool) (c : Option Nat) (d : Dev) : (imgNoted len ok c d).nvm = d.nvm := rfl
theorem imgNoted_get (len : Option Nat) (ok : Bool) (c : Option Nat) (d : Dev) (f : Fld) : (imgNoted len ok c d).get f = d.get f := rfl

theorem nvmDown_of_nvm {d e : Dev} (h : e.nvm = d.nvm) : e.nvmDown = d.nvmDown := by
  unfold Dev.nvmDown Dev.nvmS
  rw [h]

theorem mbxWrote_both {d : Dev} (h : d.bothNvm) (payload : List Byte) : mbxWrote payload d = mbxRespond 0 payload d :=
  if_neg (by rw [nvmDown_of_both h]; decide)

/-- What stays of the NVM devices and of the management part behind an answer. -/
theorem answer_keeps (status : Nat) (payload : List Byte) (d : Dev) (s : State) :
    (s.after (mbxRespond status payload d)).dev.nvm = d.nvm ∧
    (s.after (mbxRespond status payload d)).dev.mgt = { d.mgt with mbx := putBytes d.mgt.mbx 0 (answerBytes status payload d) } :=
  ⟨nvm_mbxRespond .., mgt_mbxRespond ..⟩

/-- The last part of IMG_BEGIN. -/
def imgBegun (n len : Nat) (d : Dev) : Dev :=
  mbxWrote (leBytes 1 n) (imgNoted (some len) false (if d.mgt.committed = some n then none else d.mgt.committed) d)

theorem execImgBegin_eq (io : NvmIo) (s : State) : exec (.imgBegin io) s = total (fun _ d => mbxRow 0x10 4 (fun d =>
    if 2 ^ 25 < d.arg 0 4 then mbxRespond 2 [] d
    else imgBegun d.target (d.arg 0 4) (slotWrite {} (fun t => (t.setState d.target 0).setLen d.target (d.arg 0 4))
      (nvmWrite 3 io (fun x => x.setImg d.target []) d))) d) s := rfl

theorem imgBegin_completes (n : Nat) (s : State) (h : s.dev.mbxAsks 0x10 4) (hnvm : s.dev.bothNvm) (hn : n = s.dev.target)
    (hlen : s.dev.arg 0 4 ≤ 2 ^ 25) : Completes (.imgBegin {}) s (fun t =>
    Answered s.dev t.dev 0 (leBytes 1 n) ∧ (t.dev.nvmS 0).img n = [] ∧ (t.dev.nvmS 1).img n = [] ∧ t.dev.slotTab.stateOf n = 0 ∧
    t.dev.mgt.imgLen = some (s.dev.arg 0 4) ∧ t.dev.mgt.imgOk = false) := by
  obtain ⟨hb1, hi0, hi1, -⟩ := imgWritten_facts hnvm n (fun _ => [])
  obtain ⟨hb2, hi, htab⟩ := slotsWritten_facts hb1 (fun t => (t.setState n 0).setLen n (s.dev.arg 0 4))
  have h0 := (hi n).1.trans hi0
  have h1 := (hi n).2.trans hi1
  have hget := (get_slotsWritten (fun t => (t.setState n 0).setLen n (s.dev.arg 0 4)) _ R.MGT.STATUS.SEQ).trans
    (get_imgWritten n (fun _ => []) s.dev R.MGT.STATUS.SEQ)
  have hst := (congrArg (SlotTab.stateOf · n) htab).trans ((stateOf_setLen ..).trans (stateOf_setState ..))
  have hdev : (if 2 ^ 25 < s.dev.arg 0 4 then mbxRespond 2 [] s.dev
      else imgBegun s.dev.target (s.dev.arg 0 4) (slotWrite {} (fun t => (t.setState s.dev.target 0).setLen s.dev.target (s.dev.arg 0 4))
      (nvmWrite 3 {} (fun x => x.setImg s.dev.target []) s.dev))) =
      imgBegun n (s.dev.arg 0 4) (slotsWritten (fun t => (t.setState n 0).setLen n (s.dev.arg 0 4)) (imgWritten n (fun _ => []) s.dev)) := by
    rw [if_neg (by omega), ← hn, nvmWrite_both hnvm]
    exact congrArg (imgBegun n (s.dev.arg 0 4)) (slotWrite_written hb1 _)
  refine completes_asked (execImgBegin_eq {} s) h _ hdev ?_
  clear hdev hi htab hi0 hi1
  generalize slotsWritten (fun t => (t.setState n 0).setLen n (s.dev.arg 0 4)) (imgWritten n (fun _ => []) s.dev) = e at hb2 h0 h1 hget hst ⊢
  unfold imgBegun
  generalize (if e.mgt.committed = some n then none else e.mgt.committed) = c
  have hb3 : (imgNoted (some (s.dev.arg 0 4)) false c e).bothNvm := hb2
  rw [mbxWrote_both hb3]
  obtain ⟨hk, hm⟩ := answer_keeps 0 (leBytes 1 n) (imgNoted (some (s.dev.arg 0 4)) false c e) s
  have hans := answered_mbxRespond (status := 0) (payload := leBytes 1 n) (d0 := s.dev) (d := imgNoted (some (s.dev.arg 0 4)) false c e)
    (by decide) (by rw [length_leBytes]; decide) hget s
  generalize (s.after (mbxRespond 0 (leBytes 1 n) (imgNoted (some (s.dev.arg 0 4)) false c e))).dev = g at hk hm hans ⊢
  have hk' : g.nvm = e.nvm := hk
  refine ⟨hans, ?_, ?_, ?_, congrArg MgtS.imgLen hm, congrArg MgtS.imgOk hm⟩
  · rw [nvmS_of_nvm hk', h0]
  · rw [nvmS_of_nvm hk', h1]
  · rw [slotTab_of_nvm hk']
    exact hst

/-- Whether the written image has passed its check is noted. -/
def okNoted (ok : Bool) (d : Dev) : Dev := { d with mgt := { d.mgt with imgOk := ok } }

theorem get_okNoted (ok : Bool) (d : Dev) (f : Fld) : (okNoted ok d).get f = d.get f := rfl

theorem answered_okNoted {status : Nat} {payload : List Byte} {ok : Bool} {d0 d : Dev} (hst : status < 2 ^ 16) (hlen : payload.length < 2 ^ 32)
    (hseq : d.get R.MGT.STATUS.SEQ = d0.get R.MGT.STATUS.SEQ) (s : State) :
    Answered d0 (s.after (mbxRespond status payload (okNoted ok d))).dev status payload ∧
    (s.after (mbxRespond status payload (okNoted ok d))).dev.nvm = d.nvm ∧
    (s.after (mbxRespond status payload (okNoted ok d))).dev.mgt.imgOk = ok := by
  obtain ⟨hk, hm⟩ := answer_keeps status payload (okNoted ok d) s
  exact ⟨answered_mbxRespond hst hlen ((get_okNoted ..).trans hseq) s, hk, congrArg MgtS.imgOk hm⟩

/-- The end of IMG_WRITE, behind the bytes: a slot that was empty is now being written. -/
def imgPlaced (n : Nat) (d : Dev) : Dev :=
  mbxWrote [] (okNoted false (when (d.slotTab.stateOf n == 0) (slotWrite {} (fun t => t.setState n 1)) d))

/-- IMG_WRITE of a request that waits. -/
def imgWriteArm (io : NvmIo) (d : Dev) : Dev :=
  match d.mgt.imgLen with
  | none => mbxRespond 8 [] d
  | some len =>
    if len < d.arg 0 4 + (d.mbxBytes 20 (d.mbxField 8 4 - 4)).length then mbxRespond 2 [] d
    else imgPlaced d.target (nvmWrite 3 io (fun x => x.setImg d.target (imgPut (x.img d.target) (d.arg 0 4) (d.mbxBytes 20 (d.mbxField 8 4 - 4)))) d)

theorem execImgWrite_eq (io : NvmIo) (s : State) : exec (.imgWrite io) s = total (fun _ d => mbxRow 0x11 4 (imgWriteArm io) d) s := rfl

theorem imgPlaced_facts {d0 d : Dev} (h : d.bothNvm) (hseq : d.get R.MGT.STATUS.SEQ = d0.get R.MGT.STATUS.SEQ) (n : Nat) (s : State) :
    Answered d0 (s.after (imgPlaced n d)).dev 0 [] ∧ ((s.after (imgPlaced n d)).dev.nvmS 0).img n = (d.nvmS 0).img n ∧
    ((s.after (imgPlaced n d)).dev.nvmS 1).img n = (d.nvmS 1).img n ∧ (s.after (imgPlaced n d)).dev.mgt.imgOk = false := by
  obtain ⟨hbw, hiw, -⟩ := slotsWritten_facts h (fun t => t.setState n 1)
  have hgw := get_slotsWritten (fun t => t.setState n 1) d R.MGT.STATUS.SEQ
  have hw := slotWrite_written h (fun t => t.setState n 1)
  have hstate : ∃ e : Dev, when (d.slotTab.stateOf n == 0) (slotWrite {} (fun t => t.setState n 1)) d = e ∧ e.bothNvm ∧
      e.get R.MGT.STATUS.SEQ = d.get R.MGT.STATUS.SEQ ∧ (e.nvmS 0).img n = (d.nvmS 0).img n ∧ (e.nvmS 1).img n = (d.nvmS 1).img n := by
    cases d.slotTab.stateOf n == 0 with
    | false => exact ⟨d, rfl, h, rfl, rfl, rfl⟩
    | true =>
      generalize slotsWritten (fun t => t.setState n 1) d = e at hbw hiw hgw hw
      exact ⟨e, hw, hbw, hgw, (hiw n).1, (hiw n).2⟩
  obtain ⟨e, he, hb, hget, hi0, hi1⟩ := hstate
  have hb' : (okNoted false e).bothNvm := hb
  rw [imgPlaced, he, mbxWrote_both hb']
  obtain ⟨hans, hnvm, hok⟩ := answered_okNoted (ok := false) (by decide : 0 < 2 ^ 16) (by decide : ([] : List Byte).length < 2 ^ 32) (hget.trans hseq) s
  generalize (s.after (mbxRespond 0 [] (okNoted false e))).dev = g at hans hnvm hok ⊢
  exact ⟨hans, by rw [nvmS_of_nvm hnvm, hi0], by rw [nvmS_of_nvm hnvm, hi1], hok⟩

theorem imgWrite_completes (n len : Nat) (data : List Byte) (s : State) (h : s.dev.mbxAsks 0x11 4) (hnvm : s.dev.bothNvm) (hn : n = s.dev.target)
    (hlen : s.dev.mgt.imgLen = some len) (hdata : data = s.dev.mbxBytes 20 (s.dev.mbxField 8 4 - 4)) (hfit : s.dev.arg 0 4 + data.length ≤ len) :
    Completes (.imgWrite {}) s (fun t =>
    Answered s.dev t.dev 0 [] ∧ (t.dev.nvmS 0).img n = imgPut ((s.dev.nvmS 0).img n) (s.dev.arg 0 4) data ∧
    (t.dev.nvmS 1).img n = imgPut ((s.dev.nvmS 1).img n) (s.dev.arg 0 4) data ∧ t.dev.mgt.imgOk = false) := by
  obtain ⟨hb, hi0, hi1, -⟩ := imgWritten_facts hnvm n (fun m => imgPut m (s.dev.arg 0 4) data)
  have hget := get_imgWritten n (fun m => imgPut m (s.dev.arg 0 4) data) s.dev R.MGT.STATUS.SEQ
  have hdev : imgWriteArm {} s.dev = imgPlaced n (imgWritten n (fun m => imgPut m (s.dev.arg 0 4) data) s.dev) := by
    rw [imgWriteArm, hlen]
    dsimp only
    rw [← hdata, ← hn, if_neg (by omega), nvmWrite_both hnvm]
    rfl
  refine completes_asked (execImgWrite_eq {} s) h _ hdev ?_
  generalize imgWritten n (fun m => imgPut m (s.dev.arg 0 4) data) s.dev = e at hb hi0 hi1 hget ⊢
  obtain ⟨hans, h0, h1, hok⟩ := imgPlaced_facts hb hget n s
  exact ⟨hans, h0.trans hi0, h1.trans hi1, hok⟩

/-- IMG_VERIFY, with what the check of the slot gave. -/
def imgVerified (n : Nat) (r : (Option Nat × Nat) × Dev) : Dev :=
  match r with
  | ((some _, _), d) => mbxRespond 0 (leBytes 4 0) (okNoted true d)
  | ((none, f), d) =>
    if f = 0 then mbxRespond 3 [] (okNoted false d)
    else mbxRespond (verifyStatus f ((okNoted false d).nvmMain.image n ((okNoted false d).slotTab.len n))) (leBytes 4 f) (okNoted false d)

theorem execImgVerify_eq (io : NvmIo) (s : State) :
    exec (.imgVerify io) s = total (fun _ d => mbxRow 0x12 0 (fun d => imgVerified d.target (bootRead io d.target d)) d) s := rfl

theorem slotFails_tried {d : Dev} (h : d.bothNvm) (n : Nat) : (nvmTried d).slotFails 0 n = d.slotFails 0 n := by
  rw [Dev.slotFails, slotTab_tried h, nvmS_tried_zero]
  rfl

theorem verifyStatus_lt (f : Nat) (img : List Byte) : verifyStatus f img < 2 ^ 16 := by
  unfold verifyStatus
  split
  · decide
  · decide
  · split
    · decide
    · decide
  · decide
  · decide

theorem imgVerify_completes (n : Nat) (s : State) (h : s.dev.mbxAsks 0x12 0) (hnvm : s.dev.bothNvm) (hn : n = s.dev.target) :
    (s.dev.slotFails 0 n = 0 → Completes (.imgVerify {}) s (fun t => Answered s.dev t.dev 0 (leBytes 4 0) ∧ t.dev.mgt.imgOk = true)) ∧
    (s.dev.slotFails 0 n ≠ 0 → s.dev.slotFails 0 n ≠ 3 → Completes (.imgVerify {}) s (fun t =>
      Answered s.dev t.dev (verifyStatus (s.dev.slotFails 0 n) ((s.dev.nvmS 0).image n (s.dev.slotTab.len n))) (leBytes 4 (s.dev.slotFails 0 n)) ∧
      t.dev.mgt.imgOk = false)) := by
  have hseq : (nvmTried s.dev).get R.MGT.STATUS.SEQ = s.dev.get R.MGT.STATUS.SEQ := rfl
  have hfails := slotFails_tried hnvm n
  have hread := nvmRead_both hnvm
  have himg : (nvmTried s.dev).nvmMain.image n ((nvmTried s.dev).slotTab.len n) = (s.dev.nvmS 0).image n (s.dev.slotTab.len n) := by
    rw [slotTab_tried hnvm, nvmMain_of_both (bothNvm_tried hnvm), nvmS_tried_zero]
    rfl
  refine ⟨fun h0 => ?_, fun h0 h3 => ?_⟩
  · refine completes_asked (execImgVerify_eq {} s) h (mbxRespond 0 (leBytes 4 0) (okNoted true (nvmTried s.dev))) ?_ ?_
    · rw [← hn, bootRead, hread]
      dsimp only
      rw [hfails, if_pos h0]
      rfl
    · generalize nvmTried s.dev = e at hseq ⊢
      obtain ⟨hans, -, hok⟩ := answered_okNoted (payload := leBytes 4 0) (ok := true) (by decide : 0 < 2 ^ 16) (by rw [length_leBytes]; decide) hseq s
      exact ⟨hans, hok⟩
  · refine completes_asked (execImgVerify_eq {} s) h (mbxRespond
      (verifyStatus (s.dev.slotFails 0 n) ((s.dev.nvmS 0).image n (s.dev.slotTab.len n))) (leBytes 4 (s.dev.slotFails 0 n)) (okNoted false (nvmTried s.dev))) ?_ ?_
    · rw [← hn, bootRead, hread]
      dsimp only
      rw [hfails, if_neg h0, if_neg (fun hc => h3 hc.1), imgVerified, if_neg h0]
      exact congrArg (fun b => mbxRespond (verifyStatus (s.dev.slotFails 0 n) b) (leBytes 4 (s.dev.slotFails 0 n)) (okNoted false (nvmTried s.dev))) himg
    · generalize nvmTried s.dev = e at hseq ⊢
      obtain ⟨hans, -, hok⟩ := answered_okNoted (payload := leBytes 4 (s.dev.slotFails 0 n)) (ok := false)
        (verifyStatus_lt (s.dev.slotFails 0 n) ((s.dev.nvmS 0).image n (s.dev.slotTab.len n))) (by rw [length_leBytes]; decide) hseq s
      exact ⟨hans, hok⟩

/-- The slot that IMG_COMMIT has committed is noted. -/
def commitNoted (n : Nat) (d : Dev) : Dev := { d with mgt := { d.mgt with committed := some n } }

/-- IMG_COMMIT behind the slot table: the slot is the committed one, and the commit is logged. -/
def imgCommitted (n : Nat) (d : Dev) : Dev := logFw 0x0305 n 0 n (commitNoted n d)

/-- IMG_COMMIT behind the slot table, answered. -/
def commitAnswered (n : Nat) (d : Dev) : Dev := if d.nvmDown then mbxRespond 3 [] d else mbxRespond 0 [] (imgCommitted n d)

theorem imgCommitted_facts (n : Nat) (d : Dev) : (imgCommitted n d).nvm = d.nvm ∧ (imgCommitted n d).mgt.committed = some n ∧
    (imgCommitted n d).get R.MGT.STATUS.SEQ = d.get R.MGT.STATUS.SEQ := by
  have hl : Leaves [] (commitNoted n d) (imgCommitted n d) := leaves_logFw ..
  have hnvm : (commitNoted n d).nvm = d.nvm := rfl
  have hcom : (commitNoted n d).mgt.committed = some n := rfl
  have hget : (commitNoted n d).get R.MGT.STATUS.SEQ = d.get R.MGT.STATUS.SEQ := rfl
  generalize commitNoted n d = e at hl hnvm hcom hget
  exact ⟨(nvm_of_leaves hl).trans hnvm, (congrArg MgtS.committed (mgt_of_leaves hl)).trans hcom, (hl.get (by decide) (by decide)).trans hget⟩

theorem execImgCommit_eq (io : NvmIo) (s : State) : exec (.imgCommit io) s = total (fun _ d => mbxRow 0x13 0 (fun d =>
    if !d.mgt.imgOk then mbxRespond 8 [] d
    else commitAnswered d.target (slotWrite io (fun t => { t.setState d.target 2 with pending' := d.target }) d)) d) s := rfl

theorem imgCommit_completes (n : Nat) (s : State) (h : s.dev.mbxAsks 0x13 0) (hnvm : s.dev.bothNvm) (hn : n = s.dev.target) :
    (s.dev.mgt.imgOk = true → Completes (.imgCommit {}) s (fun t => Answered s.dev t.dev 0 [] ∧ t.dev.slotTab.stateOf n = 2 ∧
      t.dev.slotTab.pending' = n ∧ t.dev.mgt.committed = some n)) ∧
    (s.dev.mgt.imgOk = false → Completes (.imgCommit {}) s (fun t => Answered s.dev t.dev 8 [] ∧ t.dev.nvm = s.dev.nvm)) := by
  refine ⟨fun hok => ?_, fun hok => ?_⟩
  · obtain ⟨hb, -, htab⟩ := slotsWritten_facts hnvm (fun t => { t.setState n 2 with pending' := n })
    have hget := get_slotsWritten (fun t => { t.setState n 2 with pending' := n }) s.dev R.MGT.STATUS.SEQ
    have hw := slotWrite_written hnvm (fun t => { t.setState n 2 with pending' := n })
    have hst := (congrArg (SlotTab.stateOf · n) htab).trans (stateOf_setState s.dev.slotTab n 2)
    have hpend : (slotsWritten (fun t => { t.setState n 2 with pending' := n }) s.dev).slotTab.pending' = n := congrArg SlotTab.pending' htab
    generalize slotsWritten (fun t => { t.setState n 2 with pending' := n }) s.dev = e at hb hget hw hst hpend
    refine completes_asked (execImgCommit_eq {} s) h (mbxRespond 0 [] (imgCommitted n e)) ?_ ?_
    · rw [if_neg (by simp [hok]), ← hn, hw]
      exact if_neg (by rw [nvmDown_of_both hb]; decide)
    · obtain ⟨hnvm', hcom, hseq⟩ := imgCommitted_facts n e
      generalize imgCommitted n e = f at hnvm' hcom hseq ⊢
      have hans := answered_mbxRespond (status := 0) (payload := []) (by decide) (by decide) (hseq.trans hget) s
      obtain ⟨hk, hm⟩ := answer_keeps 0 [] f s
      generalize (s.after (mbxRespond 0 [] f)).dev = g at hans hk hm ⊢
      rw [slotTab_of_nvm (hk.trans hnvm')]
      exact ⟨hans, hst, hpend, (congrArg MgtS.committed hm).trans hcom⟩
  · exact completes_asked (execImgCommit_eq {} s) h (mbxRespond 8 [] s.dev) (if_pos (by simp [hok]))
      ⟨answered_mbxRespond (by decide) (by decide) rfl s, (answer_keeps 8 [] s.dev s).1⟩

/-- FW_ACTIVATE behind the slot table. -/
def fwActivated (d : Dev) : Dev :=
  if d.nvmDown then mbxRespond 3 [] d
  else
    let d := if d.ras.service && d.get R.TOP.STATE.MODE != 3 then { d with ras := { d.ras with service := false, restarts := [] } } else d
    coresReset 0 (inc (R.MGT.STAT.COUNT 7) 1 d)

/-- FW_ACTIVATE of a request that waits. -/
def fwActivateArm (io : NvmIo) (d : Dev) : Dev :=
  match d.mgt.committed with
  | none => mbxRespond 8 [] d
  | some n => fwActivated (slotWrite io (fun t => { t with fwslot := n }) d)

theorem execFwActivate_eq (io : NvmIo) (s : State) : exec (.fwActivate io) s = total (fun _ d => mbxRow 0x14 0 (fwActivateArm io) d) s := rfl

/-- The cores are held, and the command under way owes its answer. -/
def coresHeld (owed : Option Nat) (d : Dev) : Dev :=
  { d with
    ras := { d.ras with coresDown := true }
    mgt := { d.mgt with owedStatus := owed }
    out := .resetCores :: d.out }

/-- A reset of the cores holds them, and leaves the registers but their state, and the NVM devices. -/
theorem coresReset_eq (status : Nat) (d : Dev) : coresReset status d =
    coresHeld (if d.on R.MGT.MBX_STATUS.BUSY then some (d.mgt.owedStatus.getD status) else none) (put R.MGT.STATUS.STATE 2 d) := rfl

theorem coresReset_facts (status : Nat) (d : Dev) :
    (coresReset status d).ras.coresDown = true ∧ (coresReset status d).get R.MGT.STATUS.STATE = 2 ∧
    (∀ f : Fld, f.key ≠ R.MGT.STATUS.STATE.key → (coresReset status d).get f = d.get f) ∧ (coresReset status d).nvm = d.nvm ∧
    (d.on R.MGT.MBX_STATUS.BUSY = true → d.mgt.owedStatus = none → (coresReset status d).mgt.owedStatus = some status) := by
  have hstate := get_put_self R.MGT.STATUS.STATE 2 d
  have hget : ∀ f : Fld, f.key ≠ R.MGT.STATUS.STATE.key → (put R.MGT.STATUS.STATE 2 d).get f = d.get f := fun f hf => get_put_ne hf ..
  have hnvm : (put R.MGT.STATUS.STATE 2 d).nvm = d.nvm := rfl
  rw [coresReset_eq]
  generalize put R.MGT.STATUS.STATE 2 d = e at hstate hget hnvm ⊢
  refine ⟨rfl, hstate, hget, hnvm, fun hbusy howed => ?_⟩
  rw [howed, if_pos hbusy]
  rfl

/-- A restart ends the service mode that the restarts before it entered. -/
def serviceEnded (d : Dev) : Dev :=
  if d.ras.service && d.get R.TOP.STATE.MODE != 3 then { d with ras := { d.ras with service := false, restarts := [] } } else d

theorem serviceEnded_facts (d : Dev) : (∀ f, (serviceEnded d).get f = d.get f) ∧ (serviceEnded d).nvm = d.nvm ∧ (serviceEnded d).mgt = d.mgt := by
  unfold serviceEnded
  split
  · exact ⟨fun _ => rfl, rfl, rfl⟩
  · exact ⟨fun _ => rfl, rfl, rfl⟩

theorem fwActivated_both {d : Dev} (h : d.bothNvm) : fwActivated d = coresReset 0 (inc (R.MGT.STAT.COUNT 7) 1 (serviceEnded d)) :=
  if_neg (by rw [nvmDown_of_both h]; decide)

theorem fwActivate_completes (n : Nat) (s : State) (h : s.dev.mbxAsks 0x14 0) (hnvm : s.dev.bothNvm) (hn : s.dev.mgt.committed = some n) :
    Completes (.fwActivate {}) s (fun t =>
    t.dev.ras.coresDown = true ∧ t.dev.get R.MGT.STATUS.STATE = 2 ∧ t.dev.mgt.owedStatus = some 0 ∧ t.dev.slotTab.fwslot = n ∧
    t.dev.on R.MGT.MBX_STATUS.BUSY = true ∧ Counted (R.MGT.STAT.COUNT 7) 1 s.dev t.dev) := by
  obtain ⟨hb, -, htab⟩ := slotsWritten_facts hnvm (fun t => { t with fwslot := n })
  have hget := get_slotsWritten (fun t => { t with fwslot := n }) s.dev
  have hmgt := mgt_slotsWritten (fun t => { t with fwslot := n }) s.dev
  have hw := slotWrite_written hnvm (fun t => { t with fwslot := n })
  have hfw : (slotsWritten (fun t => { t with fwslot := n }) s.dev).slotTab.fwslot = n := congrArg SlotTab.fwslot htab
  clear htab
  generalize slotsWritten (fun t => { t with fwslot := n }) s.dev = e at hb hget hw hmgt hfw
  obtain ⟨hbusy, -, howed, -⟩ := id h
  have hdev : fwActivateArm {} s.dev = coresReset 0 (inc (R.MGT.STAT.COUNT 7) 1 (serviceEnded e)) := by
    rw [fwActivateArm, hn]
    dsimp only
    rw [hw, fwActivated_both hb]
  refine completes_asked (execFwActivate_eq {} s) h _ hdev ?_
  obtain ⟨hg, hnvm', hm⟩ := serviceEnded_facts e
  generalize serviceEnded e = f at hg hnvm' hm ⊢
  have hinc : (inc (R.MGT.STAT.COUNT 7) 1 f).get (R.MGT.STAT.COUNT 7) = (s.dev.get (R.MGT.STAT.COUNT 7) + 1) % 2 ^ (R.MGT.STAT.COUNT 7).w := by
    rw [inc, get_put_self, hg, hget]
  have hbusy' : (inc (R.MGT.STAT.COUNT 7) 1 f).get R.MGT.MBX_STATUS.BUSY = s.dev.get R.MGT.MBX_STATUS.BUSY := by
    rw [inc, get_put_ne (by decide), hg, hget]
  have howed' : (inc (R.MGT.STAT.COUNT 7) 1 f).mgt.owedStatus = none := (congrArg MgtS.owedStatus (hm.trans hmgt)).trans howed
  have hnvm'' : (inc (R.MGT.STAT.COUNT 7) 1 f).nvm = e.nvm := hnvm'
  generalize inc (R.MGT.STAT.COUNT 7) 1 f = g at hinc hbusy' howed' hnvm'' ⊢
  obtain ⟨hdown, hstate, hrest, hnvm3, howes⟩ := coresReset_facts 0 g
  generalize coresReset 0 g = k at hdown hstate hrest hnvm3 howes ⊢
  refine ⟨hdown, (get_after ..).trans hstate, howes ?_ howed', ?_, ?_, ?_⟩
  · rw [Dev.on, hbusy']
    exact hbusy
  · exact (congrArg SlotTab.fwslot (slotTab_of_nvm (hnvm3.trans hnvm''))).trans hfw
  · rw [on_after, Dev.on, hrest _ (by decide), hbusy']
    exact hbusy
  · exact (get_after ..).trans ((hrest _ (by decide)).trans hinc)

/-! ## The repair map, the Caliper and the root hash -/

theorem mapWrite_both {d : Dev} (h : d.bothNvm) (es : List RepEntry) :
    ∃ g : NvmDev → NvmDev, mapWrite {} es d = put R.RAS.MAP_INFO.ENTRIES es.length (bothWritten 1 g d) ∧ (∀ x, (g x).failed = x.failed ∧ (g x).repairs = es) :=
  ⟨_, congrArg (put R.RAS.MAP_INFO.ENTRIES es.length) (nvmWrite_both h 1 _), fun _ => ⟨rfl, rfl⟩⟩

/-- The repair map written to both devices. -/
theorem mapWritten_facts {d : Dev} (h : d.bothNvm) (es : List RepEntry) : (mapWrite {} es d).bothNvm ∧ ((mapWrite {} es d).nvmS 0).repairs = es ∧
    ((mapWrite {} es d).nvmS 1).repairs = es ∧ (mapWrite {} es d).get R.MGT.STATUS.SEQ = d.get R.MGT.STATUS.SEQ := by
  obtain ⟨g, heq, hg⟩ := mapWrite_both h es
  have hb := bothNvm_bothWritten h (fun x => (hg x).1) 1
  have h0 := (congrArg NvmDev.repairs (nvmS_bothWritten_zero 1 g d)).trans (hg _).2
  have h1 := (congrArg NvmDev.repairs (nvmS_bothWritten_one 1 g d)).trans (hg _).2
  have hget := get_bothWritten R.MGT.STATUS.SEQ 1 g d
  rw [heq]
  generalize bothWritten 1 g d = e at hb h0 h1 hget ⊢
  exact ⟨hb, h0, h1, (get_put_ne (by decide) ..).trans hget⟩

theorem mapWrote_facts {d0 d : Dev} (h : d.bothNvm) (hseq : d.get R.MGT.STATUS.SEQ = d0.get R.MGT.STATUS.SEQ) {payload : List Byte}
    (hlen : payload.length < 2 ^ 32) (es : List RepEntry) (s : State) :
    Answered d0 (s.after (mbxWrote payload (mapWrite {} es d))).dev 0 payload ∧
    ((s.after (mbxWrote payload (mapWrite {} es d))).dev.nvmS 0).repairs = es ∧
    ((s.after (mbxWrote payload (mapWrite {} es d))).dev.nvmS 1).repairs = es := by
  obtain ⟨hb, h0, h1, hget⟩ := mapWritten_facts h es
  generalize mapWrite {} es d = e at hb h0 h1 hget ⊢
  rw [mbxWrote_both hb]
  have hans := answered_mbxRespond (status := 0) (by decide) hlen (hget.trans hseq) s
  have hk := (answer_keeps 0 payload e s).1
  generalize (s.after (mbxRespond 0 payload e)).dev = g at hans hk ⊢
  rw [nvmS_of_nvm hk, nvmS_of_nvm hk]
  exact ⟨hans, h0, h1⟩

theorem repairClear_completes (lo n : Nat) (s : State) (h : s.dev.mbxAsks 0x21 8) (hnvm : s.dev.bothNvm) (hlo : lo = s.dev.arg 0 2)
    (hn : n = s.dev.arg 2 2) (hserial : s.dev.arg 4 4 = Config.serial % 2 ^ 32) (hfit : lo + n ≤ s.dev.mapEntries.length) :
    Completes (.repairClear {}) s (fun t =>
    Answered s.dev t.dev 0 [] ∧ (t.dev.nvmS 0).repairs = s.dev.mapEntries.take lo ++
      ((s.dev.mapEntries.drop lo).take n).map (fun (e : RepEntry) => { e with flags := e.flags ||| 2 }) ++ s.dev.mapEntries.drop (lo + n) ∧
    (t.dev.nvmS 1).repairs = (t.dev.nvmS 0).repairs) := by
  subst hlo hn
  refine completes_asked (exec_repairClear {} s) h _ (if_neg (by simp [hserial]; omega)) ?_
  obtain ⟨hans, h0, h1⟩ := mapWrote_facts hnvm rfl (by decide : ([] : List Byte).length < 2 ^ 32) _ s
  exact ⟨hans, h0, h1.trans h0.symm⟩

theorem repairCompact_completes (s : State) (h : s.dev.mbxAsks 0x22 4) (hnvm : s.dev.bothNvm) (hserial : s.dev.arg 0 4 = Config.serial % 2 ^ 32) :
    Completes (.repairCompact {}) s (fun t =>
    Answered s.dev t.dev 0 (leBytes 4 (s.dev.mapEntries.filter (fun (e : RepEntry) => !bit e.flags 1)).length) ∧
    (t.dev.nvmS 0).repairs = s.dev.mapEntries.filter (fun (e : RepEntry) => !bit e.flags 1) ∧ (t.dev.nvmS 1).repairs = (t.dev.nvmS 0).repairs) := by
  refine completes_asked (exec_repairCompact {} s) h _ (if_neg (by simp [hserial])) ?_
  obtain ⟨hans, h0, h1⟩ := mapWrote_facts hnvm rfl
    (by rw [length_leBytes]; decide : (leBytes 4 (s.dev.mapEntries.filter (fun (e : RepEntry) => !bit e.flags 1)).length).length < 2 ^ 32) _ s
  exact ⟨hans, h0, h1.trans h0.symm⟩

theorem mem_asked_calAsk {t : Nat} (h : t < 43) (d : Dev) : t ∈ (calAsk t d).cal.asked := by
  have ht : (calAsk t d).cal.asked = (d.cal.asked ++ if t = 0x3f then List.range 43 else if t < 43 then [t] else []).eraseDups := rfl
  rw [ht, List.mem_eraseDups, if_neg (by omega), if_pos h]
  exact List.mem_append_right _ (List.mem_singleton_self t)

theorem calRun_completes (s : State) (h : s.dev.mbxAsks 0x30 2) :
    (s.dev.ras.service = false → s.dev.arg 0 2 < 43 → Completes .calRun s (fun t =>
      Answered s.dev t.dev 0 [] ∧ s.dev.arg 0 2 ∈ t.dev.cal.asked)) ∧
    (s.dev.ras.service = true → Completes .calRun s (fun t => Answered s.dev t.dev 0xa [] ∧ t.dev.cal = s.dev.cal)) := by
  refine ⟨fun hsvc ht => ?_, fun hsvc => ?_⟩
  · have hin := mem_asked_calAsk ht s.dev
    have hseq : (calAsk (s.dev.arg 0 2) s.dev).get R.MGT.STATUS.SEQ = s.dev.get R.MGT.STATUS.SEQ := rfl
    refine completes_asked (exec_calRun s) h (mbxRespond 0 [] (calAsk (s.dev.arg 0 2) s.dev)) ?_ ?_
    · rw [if_neg (by simp [hsvc]), if_neg (by omega), if_pos ht]
    · generalize calAsk (s.dev.arg 0 2) s.dev = e at hin hseq ⊢
      refine ⟨answered_mbxRespond (by decide) (by decide) hseq s, ?_⟩
      rw [after_cal, cal_mbxRespond]
      exact hin
  · exact completes_asked (exec_calRun s) h (mbxRespond 0xa [] s.dev) (if_pos hsvc)
      ⟨answered_mbxRespond (by decide) (by decide) rfl s, (after_cal ..).trans (cal_mbxRespond ..)⟩

/-- The root hash of the request is in the fuses. -/
def rootHashed (d : Dev) : Dev := { d with rootHash := d.mbxBytes 16 32 }

theorem rootProg_completes (s : State) (h : s.dev.mbxAsks 0x40 36) (hserial : s.dev.arg 32 4 = Config.serial % 2 ^ 32) :
    (s.dev.rootHash = [] → Completes .rootProg s (fun t => Answered s.dev t.dev 0 [] ∧ t.dev.rootHash = s.dev.mbxBytes 16 32)) ∧
    (s.dev.rootHash ≠ [] → Completes .rootProg s (fun t => Answered s.dev t.dev 8 [] ∧ t.dev.rootHash = s.dev.rootHash)) := by
  refine ⟨fun hempty => ?_, fun hset => ?_⟩
  · have hseq : (rootHashed s.dev).get R.MGT.STATUS.SEQ = s.dev.get R.MGT.STATUS.SEQ := rfl
    have hhash : (rootHashed s.dev).rootHash = s.dev.mbxBytes 16 32 := rfl
    refine completes_asked (exec_rootProg s) h (mbxRespond 0 [] (rootHashed s.dev)) ?_ ?_
    · rw [if_neg (by simp [hserial]), if_neg (by simp [hempty])]
      rfl
    · generalize rootHashed s.dev = e at hseq hhash ⊢
      refine ⟨answered_mbxRespond (by decide) (by decide) hseq s, ?_⟩
      rw [after_rootHash, rootHash_mbxRespond, hhash]
  · refine completes_asked (exec_rootProg s) h (mbxRespond 8 [] s.dev) ?_
      ⟨answered_mbxRespond (by decide) (by decide) rfl s, (after_rootHash ..).trans (rootHash_mbxRespond ..)⟩
    rw [if_neg (by simp [hserial]), if_pos (by simp [hset])]

/-- Settles O59: an answer stands in the mailbox byte for byte, and a write of both NVM devices changes nothing else that a command names. -/
theorem mailboxCommandsAreAnswered : Obligations.MailboxCommandsAreAnswered := by
  unfold Obligations.MailboxCommandsAreAnswered
  exact ⟨info_completes, logRead_completes, logWrite_completes, logWrite_short, imgBegin_completes, imgWrite_completes, imgVerify_completes,
    imgCommit_completes, fwActivate_completes, repairRead_completes, repairClear_completes, repairCompact_completes, calRun_completes,
    sensors_completes, rootProg_completes⟩

end Sys2Proof.Proofs
end

section
/-!
What the lines that arrive on the way to a point in time can change, and what they leave (R70, R131 to R137).
-/
namespace Sys2Proof.Proofs
open Sys2Proof Sys2Proof.Machine

/-! ## The parts and the registers of the line path -/

/-- The registers that a line may write on its way to the ports, beside the books: of lanes, of ports, of generators, of lathes, the fill of the
shared buffer, a count of the codec, and every field that waits for a boundary. -/
def lineKey (k : Nat) : Prop :=
  (0x200000 ≤ k / 64 ∧ (k / 64 % 0x4000 = 8 ∨ k / 64 % 0x4000 = 0x34)) ∨
  (0x300000 ≤ k / 64 ∧ k / 64 % 0x10000 ∈ [8, 0xc, 0x80, 0x88, 0x4c, 0x5c, 0x100, 0x104, 0x108, 0x10c, 0x130, 0x13c]) ∨
  (0x100424 ≤ k / 64 ∧ k / 64 % 0x40 = 0x24) ∨
  (0x400000 ≤ k / 64 ∧ (k / 64 % 0x80000 = 4 ∨ k / 64 % 0x80000 = 0x14)) ∨
  k / 64 = 0x1c00010 ∨ k / 64 = 0x1d80228 ∨ keyBnd k = .block ∨ keyBnd k = .batch

/-- The device without the parts that a line may change on its way. -/
def lineRest (d : Dev) : Dev :=
  { d.body with
    tim := {}, port := [], lane := [], lth := [], stream := [], recQ := [], fus := {}, homeQ := [], spLatch := [], spNewest := none
    out := [], rwb := [], free := 0 }

/-- Lines may have passed from `d` to `e`. -/
structure LineStep (d e : Dev) : Prop where
  get : ∀ f : Fld, bookKey f.key = false → ¬ lineKey f.key → e.get f = d.get f
  rest : lineRest e = lineRest d

section
variable {d e g : Dev}

theorem lineStep_refl (d : Dev) : LineStep d d := ⟨fun _ _ _ => rfl, rfl⟩

theorem LineStep.trans (h : LineStep d e) (h' : LineStep e g) : LineStep d g :=
  ⟨fun f hb hf => (h'.get f hb hf).trans (h.get f hb hf), h'.rest.trans h.rest⟩

theorem LineStep.nvm (h : LineStep d e) : e.nvm = d.nvm := show (lineRest e).nvm = (lineRest d).nvm by rw [h.rest]
theorem LineStep.rootHash (h : LineStep d e) : e.rootHash = d.rootHash := show (lineRest e).rootHash = (lineRest d).rootHash by rw [h.rest]
theorem LineStep.cal (h : LineStep d e) : e.cal = d.cal := show (lineRest e).cal = (lineRest d).cal by rw [h.rest]
theorem LineStep.vrd (h : LineStep d e) : e.vrd = d.vrd := show (lineRest e).vrd = (lineRest d).vrd by rw [h.rest]

theorem lineRest_of_body (h : e.body = d.body) : lineRest e = lineRest d := by
  unfold lineRest
  rw [h]

theorem lineStep_of_leaves {fs : List Fld} (h : Leaves fs d e) (hfs : ∀ f ∈ fs, lineKey f.key) : LineStep d e :=
  ⟨fun f hb hf => h.get hb fun hmem => by
    obtain ⟨r, hr, heq⟩ := List.mem_map.mp hmem
    exact hf (heq ▸ hfs r hr), lineRest_of_body h.2⟩

theorem lineStep_put {r : Fld} (hf : lineKey r.key) (v : Nat) (d : Dev) : LineStep d (put r v d) :=
  ⟨fun g _ hg => by
    refine get_put_ne (fun h => hg ?_) v d
    rw [h]
    exact hf, rfl⟩

/-- A change of the parts only. -/
theorem lineStep_of_regs (h : e.regs = d.regs) (hr : lineRest e = lineRest d) : LineStep d e := ⟨fun f _ _ => get_congr h f, hr⟩

theorem lineStep_when (c : Bool) {F : Dev → Dev} (h : LineStep d (F d)) : LineStep d (when c F d) := by
  cases c with
  | true => exact h
  | false => exact lineStep_refl d

theorem lineStep_ite {c : Prop} [Decidable c] {a b : Dev} (ha : LineStep d a) (hb : LineStep d b) : LineStep d (if c then a else b) := by
  split
  · exact ha
  · exact hb

theorem lineStep_each {α : Type} {F : α → Dev → Dev} (h : ∀ x d, LineStep d (F x d)) (xs : List α) (d : Dev) : LineStep d (each F xs d) := by
  induction xs generalizing d with
  | nil => exact lineStep_refl d
  | cons x xs ih => exact (h x d).trans (ih _)

theorem lineStep_setPort (q : Nat) (x : PortS) (d : Dev) : LineStep d (setPort q x d) := lineStep_of_regs rfl rfl
theorem lineStep_setLane (l : Nat) (x : LaneS) (d : Dev) : LineStep d (setLane l x d) := lineStep_of_regs rfl rfl
theorem lineStep_setLth (n : Nat) (x : LthS) (d : Dev) : LineStep d (setLth n x d) := lineStep_of_regs rfl rfl
theorem lineStep_setTx (l : Nat) (t : TxS) (d : Dev) : LineStep d (setTx l t d) := lineStep_of_regs rfl rfl
theorem lineStep_takeFree (d : Dev) : LineStep d (takeFree d) := lineStep_of_regs rfl rfl
theorem lineStep_emit (o : Out) (d : Dev) : LineStep d (emit o d) := lineStep_of_regs rfl rfl
theorem lineStep_eklPerf (q code n : Nat) (d : Dev) : LineStep d (eklPerf q code n d) := lineStep_of_leaves (leaves_eklPerf ..) (by simp)

end

/-! ## Messages -/

theorem perfBase_lane (l : Nat) : PerfBase (lne l) := by
  unfold PerfBase lne
  omega

theorem lineStep_txLeave (l : Nat) (b : Blk) (d : Dev) : LineStep d (txLeave l b d) := by
  unfold txLeave lnePerf
  dsimp only
  refine LineStep.trans ?_ (lineStep_of_leaves (leaves_perf 8 (perfBase_lane l) 0xa 1 _) (by simp))
  exact lineStep_setTx ..

theorem lineStep_txMarker (l : Nat) (d : Dev) : LineStep d (txMarker l d).2 := by
  unfold txMarker
  dsimp only
  split
  · exact lineStep_setTx ..
  · dsimp only
    generalize markerBlk _ _ _ = m
    refine LineStep.trans ?_ (lineStep_txLeave l m _)
    exact lineStep_setTx ..

theorem lineStep_txCoded (l : Nat) (b : Blk) (d : Dev) : LineStep d (txCoded l b d).2 := by
  unfold txCoded
  dsimp only
  exact ((lineStep_when _ (lineStep_takeFree d)).trans (lineStep_setTx ..)).trans (lineStep_txLeave ..)

theorem lineStep_txBlock (l : Nat) (b : Blk) (d : Dev) : LineStep d (txBlock l b d).2 := by
  unfold txBlock
  exact (lineStep_setTx ..).trans (lineStep_txCoded ..)

theorem lineStep_txStream (l : Nat) (b : Blk) (d : Dev) : LineStep d (txStream l b d) := by
  unfold txStream
  split
  · exact (lineStep_txMarker l d).trans (lineStep_txBlock ..)
  · exact lineStep_txBlock ..

theorem lineStep_sendMsg (p code : Nat) (body : List Byte) (d : Dev) : LineStep d (sendMsg p code body d) := by
  by_cases hup : d.downlinkUp p = true
  · rw [sendMsg_eq hup]
    exact ((lineStep_each (fun b d => lineStep_txStream (48 + p) b d) _ d).trans (lineStep_emit ..)).trans (lineStep_setPort ..)
  · rw [sendMsg, if_neg hup]
    exact lineStep_refl d

theorem lineStep_sendMask (p mask : Nat) (d : Dev) : LineStep d (sendMask p mask d) := by
  unfold sendMask
  dsimp only
  exact (lineStep_sendMsg ..).trans (lineStep_when _ (lineStep_setPort ..))

theorem lineStep_maskAtBoundary (p : Nat) (d : Dev) : LineStep d (maskAtBoundary p d) := by
  unfold maskAtBoundary
  dsimp only
  refine lineStep_ite ?_ (lineStep_refl d)
  exact ((lineStep_setPort ..).trans (lineStep_each (fun l d => lineStep_setLane l _ d) _ _)).trans (lineStep_when _ (lineStep_sendMask ..))

/-! ## Lines that leave a port -/

/-- The registers of a port that a line writes. -/
theorem lineKey_ekl (p : Nat) : ∀ f ∈ [R.EKL.STATUS.STATE p, R.EKL.STATUS.SEQ p, R.EKL.STATUS.DOWN p, R.EKL.STATUS.UP p, R.EKL.STATUS.BLK_FAULT p,
    R.EKL.STATUS.ROUTE_ACT p, R.EKL.DOWN_CAUSE.CAUSE p, R.EKL.LAST_DT.DT p, R.EKL.LAST_LSN.LSN p], lineKey f.key := by
  simp only [List.mem_cons, List.not_mem_nil, or_false, forall_eq_or_imp, forall_eq, lineKey, Fld.key, R.EKL.STATUS.STATE, R.EKL.STATUS.SEQ,
    R.EKL.STATUS.DOWN, R.EKL.STATUS.UP, R.EKL.STATUS.BLK_FAULT, R.EKL.STATUS.ROUTE_ACT, R.EKL.DOWN_CAUSE.CAUSE, R.EKL.LAST_DT.DT, R.EKL.LAST_LSN.LSN]
  omega

theorem lineStep_eklStat {c : Nat} (hc : c ∈ [0, 1, 2, 3, 12, 15]) (p n : Nat) (d : Dev) : LineStep d (eklStat p c n d) := by
  unfold eklStat inc
  have hlt : c < 16 := (by decide : ∀ c ∈ [0, 1, 2, 3, 12, 15], c < 16) c hc
  have hoff : (R.EKL.STAT.COUNT p c).key / 64 % 0x10000 = 0x100 + 4 * c := by
    simp only [Fld.key, R.EKL.STAT.COUNT]
    omega
  have hbase : 0x300000 ≤ (R.EKL.STAT.COUNT p c).key / 64 := by
    simp only [Fld.key, R.EKL.STAT.COUNT]
    omega
  refine lineStep_put (.inr (.inl ⟨hbase, ?_⟩)) _ d
  rw [hoff]
  exact (by decide : ∀ c ∈ [0, 1, 2, 3, 12, 15], 0x100 + 4 * c ∈ [8, 0xc, 0x80, 0x88, 0x4c, 0x5c, 0x100, 0x104, 0x108, 0x10c, 0x130, 0x13c]) c hc

theorem lineStep_tapDrop (n : Nat) (d : Dev) : LineStep d (tapDrop n d) := by
  unfold tapDrop
  have hkey : ∀ f ∈ [R.LTH.STATUS.SEQ n, R.LTH.STATUS.TAP_DROP n, R.LTH.TAP_DROPS.COUNT n], lineKey f.key := by
    simp only [List.mem_cons, List.not_mem_nil, or_false, forall_eq_or_imp, forall_eq, lineKey, Fld.key, R.LTH.STATUS.SEQ, R.LTH.STATUS.TAP_DROP,
      R.LTH.TAP_DROPS.COUNT]
    omega
  exact lineStep_of_leaves (((leaves_event ..).trans (leaves_put ..)).trans (leaves_perf 10 (perfBase_lth n) ..)) (by simpa [seqAnd] using hkey)

theorem lineStep_streamPut (ch : Nat) (bs : List Byte) (d : Dev) : LineStep d (streamPut ch bs d) := by
  unfold streamPut showBuf
  refine LineStep.trans ?_ (lineStep_put ?_ _ _)
  · exact lineStep_of_regs rfl rfl
  · exact .inr (.inr (.inr (.inr (.inl (by decide)))))

theorem lineStep_lathTap (n ctx t : Nat) (l : CamLine) (en bin first : Nat) (firsts : List Nat) (planes : List (List Nat)) (d : Dev) :
    LineStep d (lathTap n ctx t l en bin first firsts planes d) := by
  unfold lathTap
  dsimp only
  generalize he : (if d.recTakes t = true then (_ : Dev) else d) = e
  have hrec : LineStep d e := by
    rw [← he]
    split
    · exact lineStep_of_regs rfl rfl
    · exact lineStep_refl d
  refine hrec.trans (lineStep_ite (lineStep_ite ?_ (lineStep_ite ?_ ?_)) (lineStep_refl e))
  · exact lineStep_of_regs rfl rfl
  · refine LineStep.trans ?_ (lineStep_streamPut ..)
    exact lineStep_of_regs rfl rfl
  · refine LineStep.trans ?_ (lineStep_tapDrop ..)
    exact lineStep_of_regs rfl rfl

theorem lineStep_counted (p : Nat) (l : CamLine) (d : Dev) : LineStep d
    (if l.token then eklPerf p 3 1 d
    else
      let d := eklStat p 0 1 d
      let d := when (bit l.flags 1) (fun d => eklPerf p 4 1 (eklStat p 2 1 d)) d
      let d := when (bit l.flags 2) (fun d => eklPerf p 5 1 (eklStat p 3 1 d)) d
      when (bit l.flags 6) (fun d => eklPerf p 0x10 1 (eklStat p 12 1 d)) d) := by
  have hboth : ∀ c, c ∈ [0, 1, 2, 3, 12, 15] → ∀ code d, LineStep d (eklPerf p code 1 (eklStat p c 1 d)) := fun c hc code d =>
    (lineStep_eklStat hc p 1 d).trans (lineStep_eklPerf p code 1 _)
  split
  · exact lineStep_eklPerf ..
  · dsimp only
    have h0 := lineStep_eklStat (c := 0) (by decide) p 1 d
    generalize eklStat p 0 1 d = e at h0 ⊢
    have h2 := lineStep_when (bit l.flags 1) (F := fun d => eklPerf p 4 1 (eklStat p 2 1 d)) (hboth 2 (by decide) 4 e)
    generalize when (bit l.flags 1) _ e = e at h2 ⊢
    have h3 := lineStep_when (bit l.flags 2) (F := fun d => eklPerf p 5 1 (eklStat p 3 1 d)) (hboth 3 (by decide) 5 e)
    generalize when (bit l.flags 2) _ e = e at h3 ⊢
    have h12 := lineStep_when (bit l.flags 6) (F := fun d => eklPerf p 0x10 1 (eklStat p 12 1 d)) (hboth 12 (by decide) 0x10 e)
    exact ((h0.trans h2).trans h3).trans h12

theorem lineStep_forwardLine (p : Nat) (l : CamLine) (d : Dev) : LineStep d (forwardLine p l d) := by
  unfold forwardLine
  dsimp only
  have hputs : LineStep d (put (R.EKL.LAST_DT.DT p) l.dtDone (put (R.EKL.LAST_LSN.LSN p) l.lsn d)) :=
    (lineStep_put (lineKey_ekl p _ (by simp)) _ d).trans (lineStep_put (lineKey_ekl p _ (by simp)) _ _)
  generalize put (R.EKL.LAST_DT.DT p) l.dtDone _ = e at hputs ⊢
  have hcount := lineStep_counted p l e
  dsimp only at hcount
  generalize (if l.token = true then _ else _) = g at hcount ⊢
  refine hputs.trans (hcount.trans (lineStep_ite ?_ (lineStep_ite ?_ (lineStep_ite ?_ ?_))))
  · exact lineStep_setPort ..
  · exact lineStep_setPort ..
  · exact lineStep_of_regs rfl rfl
  · exact lineStep_lathTap ..

theorem lineStep_slot (p : Nat) {cat : Nat} (hc : cat < 16) (n : Nat) (d : Dev) : LineStep d (slot 9 (ekl p) cat n d) :=
  lineStep_of_leaves (leaves_slot 9 (by unfold PerfBase ekl; omega) hc n d) (by simp)

theorem lineStep_closeLine (p : Nat) (r : LineRec) (d : Dev) : LineStep d (closeLine p r d) := by
  unfold closeLine
  dsimp only
  generalize sumNat (List.map List.length (buildLine d p r).planes) - fillCount d p r = n
  refine LineStep.trans ?_ (lineStep_forwardLine ..)
  refine LineStep.trans ?_ (lineStep_slot p (by decide) ..)
  refine LineStep.trans ?_ (lineStep_slot p (by decide) ..)
  exact (lineStep_when _ (lineStep_eklPerf p 2 1 d)).trans (lineStep_setPort ..)

theorem lineStep_missLine (p : Nat) (r : LineRec) (d : Dev) : LineStep d (missLine p r d) := by
  unfold missLine
  dsimp only
  refine LineStep.trans ?_ (lineStep_forwardLine ..)
  refine LineStep.trans ?_ (lineStep_setPort ..)
  refine LineStep.trans ?_ (lineStep_when _ (lineStep_eklStat (by decide) p 1 _))
  exact lineStep_setPort ..

theorem lineStep_dropLines (p : Nat) (d : Dev) : LineStep d (dropLines p d) :=
  lineStep_each (fun r d => lineStep_ite (lineStep_closeLine p r d) (lineStep_missLine p r d)) _ d

/-! ## Ports that go down -/

theorem lineStep_cregTimeout {w : Nat} (hw : w < 2) (p : Nat) (d : Dev) : LineStep d (cregTimeout p w d) := by
  unfold cregTimeout
  dsimp only
  have hkey : ∀ f ∈ [R.EKL.CREG_STATUS.SEQ p w, R.EKL.CREG_STATUS.TIMEOUT p w, R.EKL.CREG_STATUS.BUSY p w], lineKey f.key := by
    simp only [List.mem_cons, List.not_mem_nil, or_false, forall_eq_or_imp, forall_eq, lineKey, Fld.key, R.EKL.CREG_STATUS.SEQ,
      R.EKL.CREG_STATUS.TIMEOUT, R.EKL.CREG_STATUS.BUSY]
    omega
  refine LineStep.trans ?_ (lineStep_eklPerf ..)
  refine LineStep.trans ?_ (lineStep_of_leaves (leaves_event ..) fun f hf => hkey f (by simp [seqAnd] at hf; rcases hf with h | h <;> simp [h]))
  exact (lineStep_setPort ..).trans (lineStep_put (hkey _ (by simp)) _ _)

/-- The registers of a lane that a port which goes down writes. -/
theorem lineKey_lne (l : Nat) : lineKey (R.LNE.STATUS.STATE l).key ∧ lineKey (R.LNE.PAT_STATUS.LOCK l).key := by
  simp only [lineKey, Fld.key, R.LNE.STATUS.STATE, R.LNE.PAT_STATUS.LOCK]
  omega

theorem lineStep_lanePhase (l ph : Nat) (d : Dev) : LineStep d (lanePhase l ph d) := by
  unfold lanePhase
  dsimp only
  refine LineStep.trans (lineStep_setLane l _ d) (lineStep_ite (lineStep_refl _) ?_)
  exact lineStep_put (lineKey_lne l).1 ..

theorem lineStep_laneToWait (l : Nat) (d : Dev) : LineStep d (laneToWait l d) := by
  unfold laneToWait
  dsimp only
  refine LineStep.trans ?_ (lineStep_lanePhase ..)
  refine LineStep.trans ?_ (lineStep_put (lineKey_lne l).2 _ _)
  exact lineStep_setLane ..

theorem lineStep_laneAnew (l : Nat) (d : Dev) : LineStep d (laneAnew l d) := by
  unfold laneAnew
  dsimp only
  exact ((lineStep_laneToWait ..).trans (lineStep_setLane ..)).trans (lineStep_when _ (lineStep_put (lineKey_lne l).1 _ _))

theorem lineStep_portState (p st : Nat) (d : Dev) : LineStep d (portState p st d) := lineStep_put (lineKey_ekl p _ (by simp)) _ d

theorem lineStep_enterLinking (p : Nat) (d : Dev) : LineStep d (enterLinking p d) := by
  unfold enterLinking
  exact ((lineStep_each (fun l d => lineStep_laneAnew l d) _ d).trans (lineStep_setPort ..)).trans (lineStep_portState ..)

/-- An event of a port's status. -/
theorem lineStep_portEvent (p : Nat) {f : Fld} (hf : f ∈ [R.EKL.STATUS.DOWN p, R.EKL.STATUS.UP p, R.EKL.STATUS.BLK_FAULT p]) (d : Dev) :
    LineStep d (event 9 (R.EKL.STATUS.SEQ p) [f] d) := by
  refine lineStep_of_leaves (leaves_event ..) fun g hg => lineKey_ekl p g ?_
  simp only [seqAnd, List.mem_cons, List.not_mem_nil, or_false] at hg hf ⊢
  rcases hg with rfl | rfl
  · exact .inr (.inl rfl)
  · rcases hf with rfl | rfl | rfl
    · exact .inr (.inr (.inl rfl))
    · exact .inr (.inr (.inr (.inl rfl)))
    · exact .inr (.inr (.inr (.inr (.inl rfl))))

theorem lineStep_downEvent (p cause : Nat) (d : Dev) : LineStep d (downEvent p cause d) := by
  unfold downEvent
  dsimp only
  have hdown := ((lineStep_put (lineKey_ekl p (R.EKL.DOWN_CAUSE.CAUSE p) (by simp)) cause d).trans (lineStep_portEvent p (f := R.EKL.STATUS.DOWN p) (by simp) _)).trans
    (lineStep_eklPerf p 0x11 1 _)
  generalize eklPerf p 0x11 1 _ = e at hdown ⊢
  have hreq : ∀ w, w < 2 → ∀ d, LineStep d (if (KMap.get (fun _ => (none : Option (Nat × Nat))) (d.portS p).creg w).isSome then cregTimeout p w d else d) :=
    fun w hw d => lineStep_ite (lineStep_cregTimeout hw p d) (lineStep_refl d)
  have hdrop := (lineStep_dropLines p e).trans ((hreq 0 (by decide) _).trans (hreq 1 (by decide) _))
  change LineStep e (each (fun w d => if (KMap.get (fun _ => (none : Option (Nat × Nat))) (d.portS p).creg w).isSome then cregTimeout p w d else d) [0, 1] (dropLines p e)) at hdrop
  generalize each _ [0, 1] (dropLines p e) = g at hdrop ⊢
  have hmsg := lineStep_when (!(d.get (R.EKL.STATUS.STATE p) == 5)) (lineStep_sendMsg p 10 [1#8] g)
  generalize when (!(d.get (R.EKL.STATUS.STATE p) == 5)) (sendMsg p 10 [1#8]) g = k at hmsg ⊢
  refine ((hdown.trans hdrop).trans hmsg).trans (lineStep_ite ?_ ?_)
  · exact (lineStep_eklStat (by decide) p 1 k).trans (lineStep_enterLinking ..)
  · exact (lineStep_setPort ..).trans (lineStep_portState ..)

/-! ## Lines at the ports -/

/-- What does not wait for these fields stays, whatever stands in the list of those that wait. -/
theorem get_foldl_landed {hit : Nat → Bool} {k : Nat} (hk : hit k = false) (m : List (Nat × Option Nat)) (r : KMap Nat) :
    KMap.get resetOf (m.foldl (fun r e =>
      match e.2 with
      | some v => if hit e.1 then KMap.put resetOf r e.1 v else r
      | none => r) r) k = KMap.get resetOf r k := by
  induction m generalizing r with
  | nil => rfl
  | cons e m ih =>
    rw [List.foldl_cons, ih]
    split
    · next v _ =>
      by_cases he : hit e.1 = true
      · rw [if_pos he]
        refine KMap.get_put_ne _ _ _ _ _ fun h => ?_
        rw [h, he] at hk
        cases hk
      · rw [if_neg he]
    · rfl

theorem lineStep_applyPend {hit : Nat → Bool} (hhit : ∀ k, hit k = true → lineKey k) (d : Dev) : LineStep d (applyPend hit d) := by
  refine ⟨fun f _ hf => ?_, rfl⟩
  have hno : hit f.key = false := by
    rw [← Bool.not_eq_true]
    exact fun h => hf (hhit _ h)
  rw [Dev.get, applyPend, Dev.get]
  exact get_foldl_landed hno d.rwb d.regs

theorem lineKey_block {lo n k : Nat} (h : inRange lo n .block k = true) : lineKey k := by
  rw [inRange, Bool.and_eq_true, beq_iff_eq] at h
  exact .inr (.inr (.inr (.inr (.inr (.inr (.inl h.2))))))

theorem lineKey_batch {lo n k : Nat} (h : inRange lo n .batch k = true) : lineKey k := by
  rw [inRange, Bool.and_eq_true, beq_iff_eq] at h
  exact .inr (.inr (.inr (.inr (.inr (.inr (.inr h.2))))))

theorem lineStep_blockWatchdog (p : Nat) (d : Dev) : LineStep d (blockWatchdog p d) := by
  unfold blockWatchdog
  dsimp only
  have hset := lineStep_setPort p { d.portS p with missCount := 0 } d
  generalize setPort p { d.portS p with missCount := 0 } d = e at hset ⊢
  refine hset.trans (lineStep_ite ?_ (lineStep_refl e))
  have hev := (lineStep_portEvent p (f := R.EKL.STATUS.BLK_FAULT p) (by simp) e).trans
    (lineStep_of_leaves (leaves_logEv 0x0901 p 2 (d.portS p).missCount _) (by simp))
  generalize logEv 0x0901 p 2 _ _ = g at hev ⊢
  exact hev.trans (lineStep_ite (lineStep_downEvent p 2 g) (lineStep_refl g))

theorem lineStep_portBatch (g p lsn : Nat) (d : Dev) : LineStep d (portBatch g p lsn d) :=
  lineStep_when _ (lineStep_applyPend (fun _ => lineKey_batch) d)

/-- The route that a port takes at its block boundary. -/
def routeTaken (p : Nat) (d : Dev) : Dev :=
  match (d.portS p).routeNext with
  | some r => put (R.EKL.STATUS.ROUTE_ACT p) r (setPort p { d.portS p with routeNext := none, moved := false } d)
  | none => d

theorem lineStep_routeTaken (p : Nat) (d : Dev) : LineStep d (routeTaken p d) := by
  unfold routeTaken
  split
  · exact (lineStep_setPort ..).trans (lineStep_put (lineKey_ekl p _ (by simp)) _ _)
  · exact lineStep_refl d

theorem portBoundary_eq (p : Nat) (first : Bool) (d : Dev) : portBoundary p first d =
    let e := maskAtBoundary p (routeTaken p (applyPend (inRange (ekl p) 0x10000 .block)
      (if first then setPort p { d.portS p with missCount := 0 } d else blockWatchdog p d)))
    if e.get (R.EKL.STATUS.STATE p) = 3 then event 9 (R.EKL.STATUS.SEQ p) [R.EKL.STATUS.UP p] (portState p 4 e) else e := rfl

theorem lineStep_portBoundary (p : Nat) (first : Bool) (d : Dev) : LineStep d (portBoundary p first d) := by
  rw [portBoundary_eq]
  have hstart : LineStep d (if first then setPort p { d.portS p with missCount := 0 } d else blockWatchdog p d) :=
    lineStep_ite (lineStep_setPort ..) (lineStep_blockWatchdog ..)
  generalize (if first = true then setPort p { d.portS p with missCount := 0 } d else blockWatchdog p d) = e at hstart ⊢
  have hrest := ((lineStep_applyPend (hit := inRange (ekl p) 0x10000 .block) (fun _ => lineKey_block) e).trans (lineStep_routeTaken p _)).trans
    (lineStep_maskAtBoundary p _)
  dsimp only
  generalize maskAtBoundary p _ = g at hrest ⊢
  refine (hstart.trans hrest).trans (lineStep_ite ?_ (lineStep_refl g))
  exact (lineStep_portState p 4 g).trans (lineStep_portEvent p (by simp) _)

theorem lineStep_portLate (g : Nat) (d : Dev) : LineStep d (portLate g d) := by
  unfold portLate
  refine LineStep.trans ?_ (lineStep_of_leaves (leaves_timPerf 3 1 _) (by simp))
  refine lineStep_of_leaves (leaves_event ..) ?_
  simp only [seqAnd, List.mem_cons, List.not_mem_nil, or_false, forall_eq_or_imp, forall_eq, lineKey, Fld.key, R.TIM.TG_STATUS.SEQ,
    R.TIM.TG_STATUS.PORT_LATE]
  omega

theorem lineStep_standIn (p lsn t : Nat) (d : Dev) : LineStep d (standIn p lsn t d) := by
  unfold standIn
  dsimp only
  refine lineStep_ite ?_ (lineStep_forwardLine ..)
  split
  · next l rest _ =>
    refine LineStep.trans ?_ (lineStep_forwardLine ..)
    refine LineStep.trans ?_ (lineStep_eklPerf ..)
    refine LineStep.trans ?_ (lineStep_of_leaves (leaves_perf 0x15 (by unfold PerfBase; decide) 0xa 1 _) (by simp))
    refine LineStep.trans (lineStep_setPort p { d.portS p with replay := rest } d) ?_
    exact lineStep_put (.inr (.inr (.inr (.inr (.inr (.inl (by decide))))))) _ _
  · exact lineStep_setPort ..

theorem lineStep_portArrive (c : Coming) (x : Nat × Bool × Bool) (d : Dev) : LineStep d (portArrive c x d) := by
  unfold portArrive
  dsimp only
  refine lineStep_ite (lineStep_refl d) ?_
  have hb := (lineStep_when x.2.1 (lineStep_portBoundary x.1 ((d.portS x.1).blkLines == 0) d)).trans (lineStep_portBatch c.g x.1 c.lsn _)
  generalize portBatch c.g x.1 c.lsn _ = e at hb ⊢
  refine hb.trans ?_
  generalize hset : setPort x.1 _ e = g
  have hg : LineStep e g := hset ▸ lineStep_setPort ..
  refine hg.trans (lineStep_ite (lineStep_setPort ..) (lineStep_ite ?_ ?_))
  · exact (lineStep_setPort ..).trans (lineStep_when _ (lineStep_portLate ..))
  · exact (lineStep_setPort ..).trans (lineStep_standIn ..)

theorem lineStep_arrive (c : Coming) (d : Dev) : LineStep d (arrive c d) := by
  unfold arrive compositeIssue latchSp
  dsimp only
  refine LineStep.trans (lineStep_when _ ?_) (lineStep_each (fun x d => lineStep_portArrive c x d) _ _)
  refine LineStep.trans ?_ (lineStep_when _ ?_)
  · exact lineStep_of_regs rfl rfl
  · exact lineStep_of_regs rfl rfl

theorem lineStep_dtSteps (n : Nat) (d : Dev) : LineStep d (dtSteps n d) := by
  refine LineStep.trans (e := advance n d) ?_ (lineStep_of_leaves (leaves_dtSteps n d) (by simp))
  exact lineStep_of_regs rfl rfl

theorem lineStep_comingSet (cs : List Coming) (d : Dev) : LineStep d { d with tim := { d.tim with coming := cs } } := lineStep_of_regs rfl rfl

theorem lineStep_arrivals (t n : Nat) (d : Dev) : LineStep d (arrivals t n d) := by
  induction n generalizing d with
  | zero => exact lineStep_refl d
  | succ n ih =>
    unfold arrivals
    split
    · exact lineStep_refl d
    · next c rest _ =>
      refine lineStep_ite ?_ (lineStep_refl d)
      refine LineStep.trans ?_ (ih _)
      refine LineStep.trans ?_ (lineStep_arrive ..)
      exact (lineStep_dtSteps (d.stepsTo c.e) d).trans (lineStep_comingSet rest _)

/-- Time passes to a point, with the lines that arrive before it. -/
theorem lineStep_reach (t : Nat) (d : Dev) : LineStep d (reach t d) := (lineStep_arrivals ..).trans (lineStep_dtSteps ..)

theorem lineStep_reachNs (t n : Nat) (d : Dev) : LineStep d (reachNs t n d) := lineStep_reach ..

end Sys2Proof.Proofs
end

section
/-!
The Caliper's runs and codes, and recipes (R465 to R470, R484 to R489).
-/
namespace Sys2Proof.Proofs
open Sys2Proof Sys2Proof.Machine

/-! ## The Caliper -/

theorem leaves_calPerf (code n : Nat) (d : Dev) : Leaves [] d (calPerf code n d) := leaves_perf 5 (by unfold PerfBase; decide) code n d

/-- The device with another Caliper. -/
def withCal (x : CalS) (d : Dev) : Dev := { d with cal := x }

theorem setsPart_withCal : SetsPart withCal := fun _ _ => ⟨rfl, rfl⟩

theorem mem_asked_of_asked {t k : Nat} {d : Dev} (h : k ∈ d.cal.asked) : k ∈ (calAsk t d).cal.asked := by
  have ht : (calAsk t d).cal.asked = (d.cal.asked ++ if t = 0x3f then List.range 43 else if t < 43 then [t] else []).eraseDups := rfl
  rw [ht, List.mem_eraseDups]
  exact List.mem_append_left _ h

theorem mem_asked_all {k : Nat} (h : k < 43) (d : Dev) : k ∈ (calAsk 63 d).cal.asked := by
  have ht : (calAsk 63 d).cal.asked = (d.cal.asked ++ List.range 43).eraseDups := rfl
  rw [ht, List.mem_eraseDups]
  exact List.mem_append_right _ (List.mem_range.mpr h)

theorem calCmdRun_completes (n : BitVec 6) (s : State) : Completes (.calCmdRun n) s (fun t =>
    (∀ k, k < 43 → (n.toNat = k ∨ n.toNat = 63) → k ∈ t.dev.cal.asked) ∧ (∀ k, k ∈ s.dev.cal.asked → k ∈ t.dev.cal.asked) ∧
    Frame [] { s.dev with cal := t.dev.cal } s t) := by
  refine completes_to (exec_calCmdRun n s) (calAsk n.toNat s.dev) rfl ⟨fun k hk hn => ?_, fun k => mem_asked_of_asked, frame_of_leaves (Leaves.refl _) s⟩
  rcases hn with h | h
  · rw [h]
    exact mem_asked_calAsk hk s.dev
  · rw [h]
    exact mem_asked_all hk s.dev

/-- A run has started: its target is no longer due, and shown. -/
def runStarted (x : Nat) (d : Dev) : Dev := put R.CAL.STATUS.ACTIVE x (withCal { d.cal with asked := d.cal.asked.filter (· != x), startAt := d.dt } d)

/-- The counts of a run that starts, by its causes. -/
def runCounted (temp time : Bool) (d : Dev) : Dev := calPerf 1 1 (when temp (calPerf 4 1) (when time (calPerf 5 1) d))

theorem leaves_runCounted (temp time : Bool) (d : Dev) : Leaves [] d (runCounted temp time d) :=
  ((leaves_when time _ d (leaves_calPerf 5 1 d)).trans (leaves_when temp _ _ (leaves_calPerf 4 1 _))).trans (leaves_calPerf 1 1 _)

theorem calStart_due {x : Nat} {d : Dev} (hmoves : d.calMoves = true) (hen : d.on R.CAL.CTL.EN = true) (hidle : d.get R.CAL.STATUS.ACTIVE = 0x3f)
    (hx : (List.range 43).find? d.due = some x) : calStart d = runCounted (d.dueTemp x) (d.dueTime x) (runStarted x d) := by
  unfold calStart
  rw [if_neg (by simp [hmoves, hen, hidle]), hx]
  rfl

theorem caliperRun_completes (x : Nat) (s : State) (hmoves : s.dev.calMoves = true) (hen : s.dev.on R.CAL.CTL.EN = true)
    (hidle : s.dev.get R.CAL.STATUS.ACTIVE = 0x3f) (hx : (List.range 43).find? s.dev.due = some x) :
    Completes .caliperRun s (fun t => t.dev.get R.CAL.STATUS.ACTIVE = x ∧ x ∉ t.dev.cal.asked ∧
      Frame [R.CAL.STATUS.ACTIVE] { s.dev with cal := t.dev.cal } s t) := by
  have hlt : x < 43 := List.mem_range.mp (List.mem_of_find?_eq_some hx)
  have hact : (runStarted x s.dev).get R.CAL.STATUS.ACTIVE = x := (get_put_self ..).trans (Nat.mod_eq_of_lt (Nat.lt_of_lt_of_le hlt (by decide)))
  have hask : x ∉ (runStarted x s.dev).cal.asked := by
    have heq : (runStarted x s.dev).cal.asked = s.dev.cal.asked.filter (· != x) := rfl
    rw [heq]
    simp
  have hup : Upto withCal [R.CAL.STATUS.ACTIVE] s.dev (runStarted x s.dev) :=
    ((upto_of_eq fun _ => rfl : Upto withCal [] s.dev (withCal { s.dev.cal with asked := s.dev.cal.asked.filter (· != x), startAt := s.dev.dt } s.dev)).trans
      (upto_of_leaves setsPart_withCal (leaves_put ..))).mono (by simp)
  refine completes_to (exec_caliperRun s) _ (calStart_due hmoves hen hidle hx) ?_
  generalize s.dev.dueTemp x = temp
  generalize s.dev.dueTime x = time
  generalize runStarted x s.dev = e at hact hask hup ⊢
  have hl := leaves_runCounted temp time e
  generalize runCounted temp time e = g at hl ⊢
  refine ⟨?_, ?_, ?_⟩
  · rw [get_after, hl.get (by decide) (by simp), hact]
  · rw [after_cal, cal_of_leaves hl]
    exact hask
  · exact frame_of_upto ((hup.trans (upto_of_leaves setsPart_withCal hl)).mono (by simp)) s g.cal rfl

/-! ### A run that is done -/

theorem add_mul_lt {a b m n : Nat} (ha : a < m) (hb : b < n) : a + b * m < m * n :=
  calc a + b * m < m + b * m := Nat.add_lt_add_right ha _
    _ = m * (b + 1) := by rw [Nat.mul_succ, Nat.mul_comm b m, Nat.add_comm]
    _ ≤ m * n := Nat.mul_le_mul_left m hb

theorem setBits_lt {v lo w x n : Nat} (hv : v < 2 ^ n) (h : lo + w ≤ n) : setBits v lo w x < 2 ^ n := by
  unfold setBits
  have hlow : v % 2 ^ lo < 2 ^ lo := Nat.mod_lt _ (Nat.two_pow_pos lo)
  have hmid : x % 2 ^ w < 2 ^ w := Nat.mod_lt _ (Nat.two_pow_pos w)
  have hjoin : v % 2 ^ lo + x % 2 ^ w * 2 ^ lo < 2 ^ (lo + w) := by
    rw [Nat.pow_add]
    exact add_mul_lt hlow hmid
  obtain ⟨k, rfl⟩ : ∃ k, n = lo + w + k := ⟨n - (lo + w), by omega⟩
  have hhigh : v / 2 ^ (lo + w) < 2 ^ k := by
    refine Nat.div_lt_of_lt_mul ?_
    rw [← Nat.pow_add]
    exact hv
  rw [Nat.pow_add 2 (lo + w) k]
  exact add_mul_lt hjoin hhigh

theorem calClip_lt (x : Nat) (codes : List Int) : calClip x codes < 2 ^ 32 := by
  have hstep : ∀ v i, i < 4 → v < 2 ^ 32 → (match calMax x i with
      | some m => setBits v (8 * i) 8 (clampI 0 m (nth 0 codes i)).toNat
      | none => v) < 2 ^ 32 := by
    intro v i hi hv
    split
    · exact setBits_lt hv (by omega)
    · exact hv
  unfold calClip
  exact hstep _ 3 (by decide) (hstep _ 2 (by decide) (hstep _ 1 (by decide) (hstep 0 0 (by decide) (by decide))))

/-- The books of a run that is done: its measurement, its number and its temperature. -/
def runNoted (x res : Nat) (d : Dev) : Dev :=
  put (R.CAL.INFO.T_LAST x) ((put R.CAL.RES_MEAS.I res d).get (R.MGT.TS.TEMP (calSensor x)))
    (put (R.CAL.INFO.RUNS x) ((put R.CAL.RES_MEAS.I res d).get (R.CAL.INFO.RUNS x) + 1) (put R.CAL.RES_MEAS.I res d))

/-- The time of the run is kept. -/
def runKept (x : Nat) (d : Dev) : Dev := withCal { d.cal with ranAt := KMap.put (fun _ => none) d.cal.ranAt x (some d.dt) } d

/-- The target codes of a run whose measurement holds. -/
def targetSet (x : Nat) (codes : List Int) (d : Dev) : Dev := put (R.CAL.TGT.ABCD x) (calClip x codes) (withCal { d.cal with resBad := false } d)

/-- A code beyond its range is reported. -/
def limitShown (x : Nat) (d : Dev) : Dev := logEv 0x0502 x 2 x (event 5 R.CAL.STATUS.SEQ [R.CAL.STATUS.LIMIT] d)

theorem calResult_eq (x res : Nat) (codes : List Int) (d : Dev) : calResult x res codes d =
    if !resOk res then resFault (runKept x (runNoted x res d))
    else if calLimit x codes then limitShown x (targetSet x codes (runKept x (runNoted x res d))) else targetSet x codes (runKept x (runNoted x res d)) := rfl

/-- The run is over. -/
def runDone (d : Dev) : Dev := event 5 R.CAL.STATUS.SEQ [R.CAL.STATUS.RUN_DONE] (put R.CAL.STATUS.ACTIVE 0x3f d)

theorem execCaliperRunDone_eq (res : BitVec 16) (codes : List Int) (s : State) : exec (.caliperRunDone res codes) s = total (fun _ d =>
    if d.get R.CAL.STATUS.ACTIVE = 0x3f then d else runDone (calResult (d.get R.CAL.STATUS.ACTIVE) res.toNat codes d)) s := rfl

/-- The registers of one target. -/
theorem calRegs_ne {x : Nat} (hx : x < 43) :
    ((R.CAL.INFO.RUNS x :: R.CAL.INFO.T_LAST x :: R.CAL.TGT.ABCD x :: R.CAL.RES_MEAS.I :: R.CAL.STATUS.ACTIVE :: R.CAL.STATUS.SEQ ::
      R.CAL.STATUS.RUN_DONE :: R.CAL.STATUS.LIMIT :: [R.CAL.STATUS.RES_FAULT]).map Fld.key).Nodup ∧
    ∀ f ∈ [R.CAL.INFO.RUNS x, R.CAL.INFO.T_LAST x, R.CAL.TGT.ABCD x, R.CAL.RES_MEAS.I, R.CAL.STATUS.ACTIVE, R.CAL.STATUS.SEQ, R.CAL.STATUS.RUN_DONE,
      R.CAL.STATUS.LIMIT, R.CAL.STATUS.RES_FAULT], bookKey f.key = false := by
  have h : ∀ x : Fin 43, ((R.CAL.INFO.RUNS x.val :: R.CAL.INFO.T_LAST x.val :: R.CAL.TGT.ABCD x.val :: R.CAL.RES_MEAS.I :: R.CAL.STATUS.ACTIVE :: R.CAL.STATUS.SEQ ::
      R.CAL.STATUS.RUN_DONE :: R.CAL.STATUS.LIMIT :: [R.CAL.STATUS.RES_FAULT]).map Fld.key).Nodup ∧
    ∀ f ∈ [R.CAL.INFO.RUNS x.val, R.CAL.INFO.T_LAST x.val, R.CAL.TGT.ABCD x.val, R.CAL.RES_MEAS.I, R.CAL.STATUS.ACTIVE, R.CAL.STATUS.SEQ, R.CAL.STATUS.RUN_DONE,
      R.CAL.STATUS.LIMIT, R.CAL.STATUS.RES_FAULT], bookKey f.key = false := by decide +kernel
  exact h ⟨x, hx⟩

theorem runNoted_facts {x : Nat} (hx : x < 43) (res : BitVec 16) (d : Dev) :
    Leaves [R.CAL.RES_MEAS.I, R.CAL.INFO.RUNS x, R.CAL.INFO.T_LAST x] d (runNoted x res.toNat d) ∧
    Counted (R.CAL.INFO.RUNS x) 1 d (runNoted x res.toNat d) ∧ (runNoted x res.toNat d).get R.CAL.RES_MEAS.I = res.toNat := by
  have hne := (calRegs_ne hx).1
  simp only [List.map_cons, List.map_nil, List.nodup_cons, List.mem_cons, List.not_mem_nil, or_false, not_or] at hne
  obtain ⟨⟨hrt, -, hri, -⟩, ⟨-, hti, -⟩, -⟩ := hne
  have h1 := leaves_put R.CAL.RES_MEAS.I res.toNat d
  have hres : (put R.CAL.RES_MEAS.I res.toNat d).get R.CAL.RES_MEAS.I = res.toNat := (get_put_self ..).trans (Nat.mod_eq_of_lt res.isLt)
  have hruns : (put R.CAL.RES_MEAS.I res.toNat d).get (R.CAL.INFO.RUNS x) = d.get (R.CAL.INFO.RUNS x) := get_put_ne hri ..
  unfold runNoted
  generalize put R.CAL.RES_MEAS.I res.toNat d = e at h1 hres hruns ⊢
  generalize e.get (R.MGT.TS.TEMP (calSensor x)) = temp
  refine ⟨((h1.trans (leaves_put ..)).trans (leaves_put ..)).mono (by simp), ?_, ?_⟩
  · rw [Counted, get_put_ne hrt, get_put_self, hruns]
  · rw [get_put_ne (Ne.symm hti), get_put_ne (Ne.symm hri), hres]

theorem runDone_facts (d : Dev) : (runDone d).get R.CAL.STATUS.ACTIVE = 0x3f ∧ Leaves [R.CAL.STATUS.ACTIVE, R.CAL.STATUS.SEQ, R.CAL.STATUS.RUN_DONE] d (runDone d) ∧
    Raised R.CAL.STATUS.SEQ [R.CAL.STATUS.RUN_DONE] d (runDone d) := by
  have hact := get_put_self R.CAL.STATUS.ACTIVE 0x3f d
  have hput := leaves_put R.CAL.STATUS.ACTIVE 0x3f d
  unfold runDone
  generalize put R.CAL.STATUS.ACTIVE 0x3f d = e at hact hput ⊢
  exact ⟨(get_event (by decide) (by decide) (by decide) ..).trans hact, hput.trans (leaves_event ..),
    raised_event (by decide) (by decide) (by decide) (hput.get (by decide) (by decide))⟩

theorem targetSet_facts (x : Nat) (codes : List Int) (d : Dev) : (targetSet x codes d).get (R.CAL.TGT.ABCD x) = calClip x codes ∧
    (∀ f : Fld, f.key ≠ (R.CAL.TGT.ABCD x).key → (targetSet x codes d).get f = d.get f) ∧ Upto withCal [R.CAL.TGT.ABCD x] d (targetSet x codes d) := by
  refine ⟨(get_put_self ..).trans (Nat.mod_eq_of_lt (calClip_lt x codes)), fun f hf => get_put_ne hf .., ?_⟩
  exact ((upto_of_eq fun _ => rfl : Upto withCal [] d (withCal { d.cal with resBad := false } d)).trans
    (upto_of_leaves setsPart_withCal (leaves_put ..))).mono (by simp)

theorem limitShown_facts (x : Nat) (d : Dev) : (limitShown x d).on R.CAL.STATUS.LIMIT = true ∧
    Leaves [R.CAL.STATUS.SEQ, R.CAL.STATUS.LIMIT] d (limitShown x d) := by
  have hev := leaves_event 5 R.CAL.STATUS.SEQ [R.CAL.STATUS.LIMIT] d
  have hflag := (raised_event (code := 5) (seq := R.CAL.STATUS.SEQ) (fs := [R.CAL.STATUS.LIMIT]) (d := d) (by decide) (by decide) (by decide) rfl).2
  unfold limitShown
  generalize event 5 R.CAL.STATUS.SEQ [R.CAL.STATUS.LIMIT] d = e at hev hflag ⊢
  refine ⟨?_, (hev.trans (leaves_logEv ..)).mono (by simp [seqAnd])⟩
  rw [Dev.on, get_logEv (by decide)]
  exact hflag _ (by simp)

theorem resFault_facts (d : Dev) : (resFault d).on R.CAL.STATUS.RES_FAULT = true ∧ (resFault d).cal.resBad = true ∧
    (∀ f : Fld, bookKey f.key = false → f.key ∉ [R.CAL.STATUS.SEQ, R.CAL.STATUS.RES_FAULT].map Fld.key → (resFault d).get f = d.get f) := by
  have hset : ∀ f, (setCal { d.cal with resBad := true } d).get f = d.get f := fun _ => rfl
  have hbad : (setCal { d.cal with resBad := true } d).cal.resBad = true := rfl
  unfold resFault
  generalize d.get R.CAL.RES_MEAS.I = res
  generalize setCal { d.cal with resBad := true } d = e at hset hbad ⊢
  have hl := (leaves_event 5 R.CAL.STATUS.SEQ [R.CAL.STATUS.RES_FAULT] e).trans (leaves_logEv 0x0501 0 3 res _)
  have hflag := (raised_event (code := 5) (seq := R.CAL.STATUS.SEQ) (fs := [R.CAL.STATUS.RES_FAULT]) (d := e) (by decide) (by decide) (by decide) rfl).2
  refine ⟨?_, ?_, fun f hb hf => ?_⟩
  · rw [Dev.on, get_logEv (by decide)]
    exact hflag _ (by simp)
  · rw [cal_of_leaves hl]
    exact hbad
  · rw [hl.get hb (by simpa [seqAnd] using hf), hset]

theorem caliperRunDone_completes (x : Nat) (res : BitVec 16) (codes : List Int) (s : State) (hact : s.dev.get R.CAL.STATUS.ACTIVE = x) (hx : x < 43) :
    (resOk res.toNat = true → calLimit x codes = false → Completes (.caliperRunDone res codes) s (fun t =>
      t.dev.get R.CAL.STATUS.ACTIVE = 0x3f ∧ t.dev.get (R.CAL.TGT.ABCD x) = calClip x codes ∧ Counted (R.CAL.INFO.RUNS x) 1 s.dev t.dev ∧
      Raised R.CAL.STATUS.SEQ [R.CAL.STATUS.RUN_DONE] s.dev t.dev ∧
      Frame [R.CAL.STATUS.ACTIVE, R.CAL.TGT.ABCD x, R.CAL.INFO.RUNS x, R.CAL.INFO.T_LAST x, R.CAL.RES_MEAS.I, R.CAL.STATUS.SEQ, R.CAL.STATUS.RUN_DONE]
        { s.dev with cal := t.dev.cal } s t)) ∧
    (resOk res.toNat = true → calLimit x codes = true → Completes (.caliperRunDone res codes) s (fun t =>
      t.dev.get R.CAL.STATUS.ACTIVE = 0x3f ∧ t.dev.get (R.CAL.TGT.ABCD x) = calClip x codes ∧ t.dev.on R.CAL.STATUS.LIMIT = true)) ∧
    (resOk res.toNat = false → Completes (.caliperRunDone res codes) s (fun t =>
      t.dev.get R.CAL.STATUS.ACTIVE = 0x3f ∧ t.dev.get (R.CAL.TGT.ABCD x) = s.dev.get (R.CAL.TGT.ABCD x) ∧ t.dev.cal.resBad = true ∧
      t.dev.on R.CAL.STATUS.RES_FAULT = true ∧ t.dev.get R.CAL.RES_MEAS.I = res.toNat)) := by
  obtain ⟨hne, hbook⟩ := calRegs_ne hx
  simp only [List.map_cons, List.map_nil, List.nodup_cons, List.mem_cons, List.not_mem_nil, or_false, not_or] at hne
  obtain ⟨⟨hrt, hrg, hri, hra, hrs, hrd, hrl, hrf⟩, ⟨htg, hti, hta, hts, htd, htl, htf⟩, ⟨hgi, hga, hgs, hgd, hgl, hgf⟩, -⟩ := hne
  simp only [List.mem_cons, List.not_mem_nil, or_false, forall_eq_or_imp, forall_eq] at hbook
  obtain ⟨hbr, hbt, hbg, -⟩ := hbook
  obtain ⟨hnote, hcount, hres⟩ := runNoted_facts hx res s.dev
  have hset : Upto withCal [] (runNoted x res.toNat s.dev) (runKept x (runNoted x res.toNat s.dev)) := upto_of_eq fun _ => rfl
  have hkeep := ((upto_of_leaves setsPart_withCal hnote).trans hset).mono (gs := [R.CAL.RES_MEAS.I, R.CAL.INFO.RUNS x, R.CAL.INFO.T_LAST x]) (by simp)
  have hgetk (f : Fld) : (runKept x (runNoted x res.toNat s.dev)).get f = (runNoted x res.toNat s.dev).get f := rfl
  have hdev : (if s.dev.get R.CAL.STATUS.ACTIVE = 0x3f then s.dev else runDone (calResult (s.dev.get R.CAL.STATUS.ACTIVE) res.toNat codes s.dev)) =
      runDone (calResult x res.toNat codes s.dev) := by rw [hact, if_neg (by omega)]
  have hcalc := calResult_eq x res.toNat codes s.dev
  generalize runKept x (runNoted x res.toNat s.dev) = e at hkeep hset hgetk hcalc
  have hgr : e.get (R.CAL.INFO.RUNS x) = _ := (hgetk _).trans hcount
  have hgm := (hgetk R.CAL.RES_MEAS.I).trans hres
  have hgs' : e.get R.CAL.STATUS.SEQ = s.dev.get R.CAL.STATUS.SEQ :=
    (hgetk _).trans (hnote.get (by decide) (by
      simp only [List.map_cons, List.map_nil, List.mem_cons, List.not_mem_nil, or_false, not_or]
      exact ⟨by decide, Ne.symm hrs, Ne.symm hts⟩))
  have hgt : e.get (R.CAL.TGT.ABCD x) = s.dev.get (R.CAL.TGT.ABCD x) := (hgetk _).trans (hnote.get hbg (by
    simp only [List.map_cons, List.map_nil, List.mem_cons, List.not_mem_nil, or_false, not_or]
    exact ⟨hgi, Ne.symm hrg, Ne.symm htg⟩))
  clear hset hgetk hres hcount hnote
  refine ⟨fun hok hlim => ?_, fun hok hlim => ?_, fun hbad => ?_⟩
  · rw [if_neg (by simp [hok]), if_neg (by simp [hlim])] at hcalc
    rw [hcalc] at hdev
    refine completes_to (execCaliperRunDone_eq res codes s) _ hdev ?_
    obtain ⟨htgt, hother, hup⟩ := targetSet_facts x codes e
    generalize targetSet x codes e = g at htgt hother hup ⊢
    obtain ⟨hidle, hl, hr⟩ := runDone_facts g
    generalize runDone g = k at hidle hl hr ⊢
    refine ⟨(get_after ..).trans hidle, ?_, ?_, ?_, ?_⟩
    · rw [get_after, hl.get hbg (by simp [hga, hgs, hgd]), htgt]
    · rw [Counted, get_after, hl.get hbr (by simp [hra, hrs, hrd]), hother _ hrg, hgr]
    · exact ⟨(get_after ..).trans (hr.1.trans (by rw [hother _ (Ne.symm hgs), hgs'])), fun f hf => hr.2 f hf⟩
    · exact frame_of_upto (((hkeep.trans hup).trans (upto_of_leaves setsPart_withCal hl)).mono (by simp)) s k.cal rfl
  · rw [if_neg (by simp [hok]), if_pos hlim] at hcalc
    rw [hcalc] at hdev
    refine completes_to (execCaliperRunDone_eq res codes s) _ hdev ?_
    obtain ⟨htgt, hother, -⟩ := targetSet_facts x codes e
    generalize targetSet x codes e = g at htgt hother ⊢
    obtain ⟨hshown, hll⟩ := limitShown_facts x g
    generalize limitShown x g = m at hshown hll ⊢
    obtain ⟨hidle, hl, -⟩ := runDone_facts m
    generalize runDone m = k at hidle hl ⊢
    refine ⟨(get_after ..).trans hidle, ?_, ?_⟩
    · rw [get_after, hl.get hbg (by simp [hga, hgs, hgd]), hll.get hbg (by simp [hgs, hgl]), htgt]
    · rw [on_after, Dev.on, hl.get (by decide) (by decide)]
      exact hshown
  · rw [if_pos (by simp [hbad])] at hcalc
    rw [hcalc] at hdev
    refine completes_to (execCaliperRunDone_eq res codes s) _ hdev ?_
    obtain ⟨hshown, hres', hrest⟩ := resFault_facts e
    generalize resFault e = m at hshown hres' hrest ⊢
    obtain ⟨hidle, hl, -⟩ := runDone_facts m
    generalize runDone m = k at hidle hl ⊢
    refine ⟨(get_after ..).trans hidle, ?_, ?_, ?_, ?_⟩
    · rw [get_after, hl.get hbg (by simp [hga, hgs, hgd]), hrest _ hbg (by simp [hgs, hgf]), hgt]
    · rw [after_cal, cal_of_leaves hl]
      exact hres'
    · rw [on_after, Dev.on, hl.get (by decide) (by decide)]
      exact hshown
    · rw [get_after, hl.get (by decide) (by decide), hrest _ (by decide) (by decide), hgm]

/-! ### A code that steps -/

theorem bits_div {v lo a w : Nat} (h : lo ≤ a) : bits v a w = bits (v / 2 ^ lo) (a - lo) w := by
  unfold bits
  rw [Nat.div_div_eq_div_mul, ← Nat.pow_add, Nat.add_sub_cancel' h]

theorem setBits_mod (v lo w x : Nat) : setBits v lo w x % 2 ^ lo = v % 2 ^ lo := by
  have h : setBits v lo w x = v % 2 ^ lo + 2 ^ lo * (x % 2 ^ w + v / 2 ^ (lo + w) * 2 ^ w) := by
    unfold setBits
    rw [Nat.pow_add]
    ring
  rw [h, Nat.add_mul_mod_self_left, Nat.mod_mod]

theorem setBits_div (v lo w x : Nat) : setBits v lo w x / 2 ^ (lo + w) = v / 2 ^ (lo + w) := by
  have hlow : v % 2 ^ lo + x % 2 ^ w * 2 ^ lo < 2 ^ (lo + w) := by
    rw [Nat.pow_add]
    exact add_mul_lt (Nat.mod_lt _ (Nat.two_pow_pos lo)) (Nat.mod_lt _ (Nat.two_pow_pos w))
  unfold setBits
  rw [Nat.add_mul_div_right _ _ (Nat.two_pow_pos _), Nat.div_eq_of_lt hlow, Nat.zero_add]

/-- The bits beside those that are set stay. -/
theorem bits_setBits_other {v lo w x a n : Nat} (h : a + n ≤ lo ∨ lo + w ≤ a) : bits (setBits v lo w x) a n = bits v a n := by
  rcases h with h | h
  · rw [← bits_mod h, setBits_mod, bits_mod h]
  · rw [bits_div h, setBits_div, ← bits_div h]

/-- A register below the lanes, ports and generators that waits for no boundary. -/
theorem not_lineKey_low {k : Nat} (h : k / 64 < 0x100000) (hb : keyBnd k = .none) : ¬ lineKey k := by
  rintro (h1 | h1 | h1 | h1 | h1 | h1 | h1 | h1)
  · omega
  · omega
  · omega
  · omega
  · omega
  · omega
  · rw [hb] at h1
    cases h1
  · rw [hb] at h1
    cases h1

theorem calKey_quiet (x : Fin 43) : (bookKey (R.CAL.CODE.ABCD x.val).key = false ∧ ¬ lineKey (R.CAL.CODE.ABCD x.val).key) ∧
    bookKey (R.CAL.TGT.ABCD x.val).key = false ∧ ¬ lineKey (R.CAL.TGT.ABCD x.val).key := by
  have hbnd : ∀ x : Fin 43, (bookKey (R.CAL.CODE.ABCD x.val).key = false ∧ (R.CAL.CODE.ABCD x.val).key / 64 < 0x100000 ∧ keyBnd (R.CAL.CODE.ABCD x.val).key = .none) ∧
      bookKey (R.CAL.TGT.ABCD x.val).key = false ∧ (R.CAL.TGT.ABCD x.val).key / 64 < 0x100000 ∧ keyBnd (R.CAL.TGT.ABCD x.val).key = .none := by decide +kernel
  obtain ⟨⟨h1, h2, h3⟩, h4, h5, h6⟩ := hbnd x
  exact ⟨⟨h1, not_lineKey_low h2 h3⟩, h4, not_lineKey_low h5 h6⟩

/-- A code that moves to `v`. -/
def codeMoved (t i v : Nat) (d : Dev) : Dev :=
  calPerf 2 1 (withCal { d.cal with stepAt := KMap.put (fun _ => none) d.cal.stepAt (4 * t + i) (some d.dt) }
    (put (R.CAL.CODE.ABCD t) (setBits (d.get (R.CAL.CODE.ABCD t)) (8 * i) 8 v) d))

theorem calStep_moves {t i : Nat} {d : Dev} (h : codeOf (d.get (R.CAL.CODE.ABCD t)) i ≠ codeOf (d.get (R.CAL.TGT.ABCD t)) i) :
    calStep t i d = codeMoved t i (if codeOf (d.get (R.CAL.CODE.ABCD t)) i < codeOf (d.get (R.CAL.TGT.ABCD t)) i
      then codeOf (d.get (R.CAL.CODE.ABCD t)) i + 1 else codeOf (d.get (R.CAL.CODE.ABCD t)) i - 1) d := if_neg h

theorem codeMoved_facts {t i v : Nat} (hi : i < 4) (hv : v < 256) (hb : bookKey (R.CAL.CODE.ABCD t).key = false) (d : Dev) :
    codeOf ((codeMoved t i v d).get (R.CAL.CODE.ABCD t)) i = v ∧
    (∀ j : Fin 4, j.val ≠ i → codeOf ((codeMoved t i v d).get (R.CAL.CODE.ABCD t)) j.val = codeOf (d.get (R.CAL.CODE.ABCD t)) j.val) ∧
    Upto withCal [R.CAL.CODE.ABCD t] d (codeMoved t i v d) := by
  have hput := leaves_put (R.CAL.CODE.ABCD t) (setBits (d.get (R.CAL.CODE.ABCD t)) (8 * i) 8 v) d
  have hval : (put (R.CAL.CODE.ABCD t) (setBits (d.get (R.CAL.CODE.ABCD t)) (8 * i) 8 v) d).get (R.CAL.CODE.ABCD t) =
      setBits (d.get (R.CAL.CODE.ABCD t)) (8 * i) 8 v % 2 ^ 32 := get_put_self ..
  unfold codeMoved
  generalize put (R.CAL.CODE.ABCD t) _ d = e at hput hval ⊢
  generalize KMap.put (fun _ => (none : Option Nat)) d.cal.stepAt (4 * t + i) (some d.dt) = at'
  have hset : Upto withCal [] e (withCal { d.cal with stepAt := at' } e) := upto_of_eq fun _ => rfl
  have hget : (withCal { d.cal with stepAt := at' } e).get (R.CAL.CODE.ABCD t) = e.get (R.CAL.CODE.ABCD t) := rfl
  generalize withCal { d.cal with stepAt := at' } e = g at hset hget ⊢
  have hl := leaves_calPerf 2 1 g
  have hall : (calPerf 2 1 g).get (R.CAL.CODE.ABCD t) = setBits (d.get (R.CAL.CODE.ABCD t)) (8 * i) 8 v % 2 ^ 32 := by
    rw [hl.get hb (by simp), hget, hval]
  refine ⟨?_, fun j hj => ?_, (((upto_of_leaves setsPart_withCal hput).trans hset).trans (upto_of_leaves setsPart_withCal hl)).mono (by simp)⟩
  · rw [hall, codeOf, bits_mod (by omega), bits_setBits_same]
    exact Nat.mod_eq_of_lt hv
  · have := j.isLt
    rw [hall, codeOf, bits_mod (by omega), bits_setBits_other (by omega), codeOf]

/-- Where the time of a code's next step lies ahead, it passes. -/
theorem lineStep_due (o : Option Nat) (d : Dev) : LineStep d (o.elim d (fun y => reach y d)) := by
  cases o with
  | none =>
    rw [Option.elim_none]
    exact lineStep_refl d
  | some y =>
    rw [Option.elim_some]
    exact lineStep_reach y d

/-- The step of a code, at its time. -/
def codeStepDue (t i : Nat) (o : Option Nat) (d : Dev) : Dev :=
  match o with
  | some y => calStep t i (reach y d)
  | none => calStep t i d

theorem codeStepDue_eq (t i : Nat) (o : Option Nat) (d : Dev) : codeStepDue t i o d = calStep t i (o.elim d (fun y => reach y d)) := by
  cases o with
  | none => rw [Option.elim_none, codeStepDue]
  | some y => rw [Option.elim_some, codeStepDue]

theorem execCodeStep_eq (x : Fin 43) (i : Fin 4) (s : State) : exec (.codeStep x i) s = total (fun _ d =>
    if !d.codesMove || codeOf (d.get (R.CAL.CODE.ABCD x.val)) i.val == codeOf (d.get (R.CAL.TGT.ABCD x.val)) i.val then d
    else if 15 ≤ x.val ∧ x.val ≤ 18 then calPerf 3 1 d
    else codeStepDue x.val i.val (d.stepDue x.val i.val) d) s := rfl

theorem codeStep_completes (x : Fin 43) (i : Fin 4) (c g : Nat) (e : Dev) (s : State) (hmove : s.dev.codesMove = true)
    (hc : c = codeOf (s.dev.get (R.CAL.CODE.ABCD x.val)) i.val) (hg : g = codeOf (s.dev.get (R.CAL.TGT.ABCD x.val)) i.val) (hne : c ≠ g)
    (he : e = (s.dev.stepDue x.val i.val).elim s.dev (fun y => reach y s.dev)) :
    (x.val < 15 ∨ 18 < x.val → Completes (.codeStep x i) s (fun t =>
      codeOf (t.dev.get (R.CAL.CODE.ABCD x.val)) i.val = (if c < g then c + 1 else c - 1) ∧
      (∀ j : Fin 4, j ≠ i → codeOf (t.dev.get (R.CAL.CODE.ABCD x.val)) j.val = codeOf (s.dev.get (R.CAL.CODE.ABCD x.val)) j.val) ∧
      Frame [R.CAL.CODE.ABCD x.val] { e with cal := t.dev.cal } s t)) ∧
    (15 ≤ x.val → x.val ≤ 18 → Completes (.codeStep x i) s (fun t => Frame [] s.dev s t)) := by
  have hgo : ¬ (!s.dev.codesMove || codeOf (s.dev.get (R.CAL.CODE.ABCD x.val)) i.val == codeOf (s.dev.get (R.CAL.TGT.ABCD x.val)) i.val) = true := by
    rw [hmove, ← hc, ← hg]
    simpa using hne
  refine ⟨fun hx => ?_, fun h1 h2 => ?_⟩
  · obtain ⟨⟨hb, hl⟩, hbt, hlt⟩ := calKey_quiet x
    have hstep := lineStep_due (s.dev.stepDue x.val i.val) s.dev
    rw [← he] at hstep
    have hcode := hstep.get _ hb hl
    have htgt := hstep.get _ hbt hlt
    have hce : codeOf (e.get (R.CAL.CODE.ABCD x.val)) i.val = c := by rw [hcode, hc]
    have hge : codeOf (e.get (R.CAL.TGT.ABCD x.val)) i.val = g := by rw [htgt, hg]
    have hmoved := calStep_moves (t := x.val) (i := i.val) (d := e) (by rw [hce, hge]; exact hne)
    rw [hce, hge] at hmoved
    have hlc : c < 256 := hc ▸ Nat.mod_lt _ (by decide)
    have hlg : g < 256 := hg ▸ Nat.mod_lt _ (by decide)
    refine completes_to (execCodeStep_eq x i s) (codeMoved x.val i.val (if c < g then c + 1 else c - 1) e) ?_ ?_
    · rw [if_neg hgo, if_neg (by omega), ← hmoved, he, codeStepDue_eq]
    · obtain ⟨hv, hothers, hup⟩ := codeMoved_facts (t := x.val) (i := i.val) (v := if c < g then c + 1 else c - 1) i.isLt (by split <;> omega) hb e
      generalize codeMoved x.val i.val (if c < g then c + 1 else c - 1) e = k at hv hothers hup ⊢
      exact ⟨hv, fun j hj => (hothers j fun h => hj (Fin.ext h)).trans (by rw [hcode]), frame_of_upto hup s k.cal rfl⟩
  · refine completes_to (execCodeStep_eq x i s) (calPerf 3 1 s.dev) ?_ (frame_of_leaves (leaves_calPerf 3 1 s.dev) s)
    rw [if_neg hgo, if_pos ⟨h1, h2⟩]

/-! ## Recipes -/

/-- The busy flag of a table unit is one bit, none of the books and none of the recipe's registers. -/
theorem tblBusy_apart (u : TblUnit) : (tblBusy u).w = 1 ∧ bookKey (tblBusy u).key = false ∧
    (tblBusy u).key ∉ [R.TOP.RECIPE.STATE, R.TOP.RECIPE.NEXT].map Fld.key := by
  cases u with
  | lth n c => clear * -; decide +revert
  | fus => decide
  | cls => decide
  | vrd => decide

theorem copiesStarted_get (us : List TblUnit) (d : Dev) : (∀ u ∈ us, (each copyStart us d).get (tblBusy u) = 1) ∧
    (∀ f : Fld, (∀ u, f.key ≠ (tblBusy u).key) → (each copyStart us d).get f = d.get f) ∧
    (∀ f : Fld, (∀ u, f.key = (tblBusy u).key → d.get f = 1) → (∃ u, f.key = (tblBusy u).key) → (each copyStart us d).get f = 1) ∧
    (each copyStart us d).rcp = d.rcp := by
  induction us generalizing d with
  | nil => exact ⟨fun u hu => absurd hu List.not_mem_nil, fun _ _ => rfl, fun f h ⟨u, hu⟩ => h u hu, rfl⟩
  | cons v us ih =>
    obtain ⟨hon, hoff, hstay, hrcp⟩ := ih (copyStart v d)
    have hv : (copyStart v d).get (tblBusy v) = 1 := by
      rw [copyStart, get_put_self, (tblBusy_apart v).1]
      rfl
    refine ⟨fun u hu => ?_, fun f hf => (hoff f hf).trans (get_put_ne (hf v) ..), fun f hf hex => ?_, hrcp⟩
    · rcases List.mem_cons.mp hu with rfl | hu
      · refine hstay _ (fun w hw => ?_) ⟨u, rfl⟩
        exact hv
      · exact hon u hu
    · refine hstay f (fun u hu => ?_) hex
      by_cases h : f.key = (tblBusy v).key
      · exact (congrArg (KMap.get resetOf (copyStart v d).regs) h).trans hv
      · exact (get_put_ne h ..).trans (hf u hu)

/-- A recipe is being loaded, from its number. -/
def recipeChosen (d : Dev) : Dev := { d with rcp := { d.rcp with kept := [], loading := d.get R.TOP.RECIPE.NEXT } }

theorem recipeNext_eq (d : Dev) : recipeNext d =
    if bit (d.get R.TOP.RECIPE.VALID) (d.get R.TOP.RECIPE.NEXT) then
      perf 4 0x80000 5 1 (each copyStart (recipeUnits (d.recipe (d.get R.TOP.RECIPE.NEXT))) (put R.TOP.RECIPE.STATE 1 (recipeChosen d)))
    else event 0 R.TOP.RECIPE_STATUS.SEQ [R.TOP.RECIPE_STATUS.REFUSED] (put R.TOP.RECIPE.STATE 0 (recipeChosen d)) := rfl

theorem recipeNext_completes (r : Fin 8) (s : State) :
    (bit (s.dev.get R.TOP.RECIPE.VALID) r.val = true → Completes (.recipeNext r) s (fun t =>
      t.dev.get R.TOP.RECIPE.NEXT = r.val ∧ t.dev.get R.TOP.RECIPE.STATE = 1 ∧ t.dev.rcp.loading = r.val ∧ t.dev.rcp.kept = [] ∧
      (∀ u ∈ recipeUnits (s.dev.recipe r.val), t.dev.on (tblBusy u) = true))) ∧
    (bit (s.dev.get R.TOP.RECIPE.VALID) r.val = false → Completes (.recipeNext r) s (fun t =>
      t.dev.get R.TOP.RECIPE.STATE = 0 ∧ t.dev.rcp.kept = [] ∧ Raised R.TOP.RECIPE_STATUS.SEQ [R.TOP.RECIPE_STATUS.REFUSED] s.dev t.dev)) := by
  have hnext : (put R.TOP.RECIPE.NEXT r.val s.dev).get R.TOP.RECIPE.NEXT = r.val :=
    (get_put_self ..).trans (Nat.mod_eq_of_lt (Nat.lt_of_lt_of_le r.isLt (by decide)))
  have hget : ∀ f : Fld, f.key ≠ R.TOP.RECIPE.NEXT.key → (put R.TOP.RECIPE.NEXT r.val s.dev).get f = s.dev.get f := fun f hf => get_put_ne hf ..
  have hrec : (put R.TOP.RECIPE.NEXT r.val s.dev).recipe r.val = s.dev.recipe r.val := rfl
  have hdev := recipeNext_eq (put R.TOP.RECIPE.NEXT r.val s.dev)
  rw [hnext, hget R.TOP.RECIPE.VALID (by decide), hrec] at hdev
  have hload : (recipeChosen (put R.TOP.RECIPE.NEXT r.val s.dev)).rcp.loading = r.val := hnext
  have hkept : (recipeChosen (put R.TOP.RECIPE.NEXT r.val s.dev)).rcp.kept = [] := rfl
  have hgetc : ∀ f, (recipeChosen (put R.TOP.RECIPE.NEXT r.val s.dev)).get f = (put R.TOP.RECIPE.NEXT r.val s.dev).get f := fun _ => rfl
  generalize recipeChosen (put R.TOP.RECIPE.NEXT r.val s.dev) = e at hdev hload hkept hgetc
  have hnext' := (hgetc _).trans hnext
  have hseq := (hgetc R.TOP.RECIPE_STATUS.SEQ).trans (hget _ (by decide))
  clear hgetc hget hnext hrec
  refine ⟨fun hv => ?_, fun hv => ?_⟩
  · rw [if_pos hv] at hdev
    refine completes_to (exec_recipeNext r s) _ hdev ?_
    obtain ⟨hbusy, hoff, -, hrcp⟩ := copiesStarted_get (recipeUnits (s.dev.recipe r.val)) (put R.TOP.RECIPE.STATE 1 e)
    have hstate := hoff R.TOP.RECIPE.STATE (fun u h => (tblBusy_apart u).2.2 (by rw [← h]; simp))
    have hn := hoff R.TOP.RECIPE.NEXT (fun u h => (tblBusy_apart u).2.2 (by rw [← h]; simp))
    rw [get_put_self] at hstate
    rw [get_put_ne (by decide), hnext'] at hn
    generalize each copyStart (recipeUnits (s.dev.recipe r.val)) (put R.TOP.RECIPE.STATE 1 e) = g at hbusy hrcp hstate hn ⊢
    have hl : Leaves [] g (perf 4 0x80000 5 1 g) := leaves_pwrPerf 5 1 g
    generalize perf 4 0x80000 5 1 g = k at hl ⊢
    have hrcpk : k.rcp = e.rcp := (rcp_of_leaves hl).trans hrcp
    refine ⟨?_, ?_, ?_, ?_, fun u hu => ?_⟩
    · rw [get_after, hl.get (by decide) (by simp), hn]
    · rw [get_after, hl.get (by decide) (by simp), hstate]
      rfl
    · exact (congrArg RcpS.loading hrcpk).trans hload
    · exact (congrArg RcpS.kept hrcpk).trans hkept
    · rw [on_after, Dev.on, hl.get (tblBusy_apart u).2.1 (by simp), hbusy u hu]
      rfl
  · rw [if_neg (by simp [hv])] at hdev
    refine completes_to (exec_recipeNext r s) _ hdev ?_
    have hstate := get_put_self R.TOP.RECIPE.STATE 0 e
    have hs := get_put_ne (f := R.TOP.RECIPE.STATE) (g := R.TOP.RECIPE_STATUS.SEQ) (by decide) 0 e
    have hk : (put R.TOP.RECIPE.STATE 0 e).rcp.kept = [] := hkept
    generalize put R.TOP.RECIPE.STATE 0 e = g at hstate hs hk ⊢
    have hl := leaves_event 0 R.TOP.RECIPE_STATUS.SEQ [R.TOP.RECIPE_STATUS.REFUSED] g
    have hr : Raised R.TOP.RECIPE_STATUS.SEQ [R.TOP.RECIPE_STATUS.REFUSED] s.dev (event 0 R.TOP.RECIPE_STATUS.SEQ [R.TOP.RECIPE_STATUS.REFUSED] g) :=
      raised_event (by decide) (by decide) (by decide) (hs.trans hseq)
    generalize event 0 R.TOP.RECIPE_STATUS.SEQ [R.TOP.RECIPE_STATUS.REFUSED] g = k at hl hr ⊢
    refine ⟨?_, ?_, raised_after hr s⟩
    · rw [get_after, hl.get (by decide) (by decide), hstate]
      rfl
    · exact (congrArg RcpS.kept (rcp_of_leaves hl)).trans hk

/-- The held records of a recipe that has been loaded. -/
def recipeKept (rs : List ImgRec) (d : Dev) : Dev := { d with rcp := { d.rcp with kept := rs.filter ImgRec.isHeld } }

/-- The device with other recipe state. -/
def withRcp (x : RcpS) (d : Dev) : Dev := { d with rcp := x }

theorem setsPart_withRcp : SetsPart withRcp := fun _ _ => ⟨rfl, rfl⟩

theorem recipeArmed_completes (rs : List ImgRec) (e : Dev) (s : State) (hstate : s.dev.get R.TOP.RECIPE.STATE = 1)
    (hrs : rs = s.dev.recipe s.dev.rcp.loading) (hidle : (recipeUnits rs).any s.dev.copyRuns = false) (hok : rs.all ImgRec.classOk = true)
    (hrecs : recipeRecs (fun _ => false) s.mem (rs.filter (fun r => r.isTable || r.isBatch)) s.dev = .next e) :
    Completes .recipeArmed s (fun t => t.dev.get R.TOP.RECIPE.STATE = 2 ∧ t.dev.rcp.kept = rs.filter ImgRec.isHeld ∧
      Frame [R.TOP.RECIPE.STATE] { e with rcp := t.dev.rcp } s t) := by
  have hdev : recipeArmed s.mem s.dev = .next (put R.TOP.RECIPE.STATE 2 (recipeKept rs e)) := by
    unfold recipeArmed
    dsimp only
    rw [← hrs, if_neg (by simp [hstate, hidle]), if_neg (by simp [hok]), hrecs]
    rfl
  have hup : Upto withRcp [] e (recipeKept rs e) := upto_of_eq fun _ => rfl
  have hkept : (recipeKept rs e).rcp.kept = rs.filter ImgRec.isHeld := rfl
  refine completes_run (exec_recipeArmed s) hdev ?_
  generalize recipeKept rs e = g at hup hkept ⊢
  have hl := leaves_put R.TOP.RECIPE.STATE 2 g
  have hval := get_put_self R.TOP.RECIPE.STATE 2 g
  generalize put R.TOP.RECIPE.STATE 2 g = k at hl hval ⊢
  exact ⟨(get_after ..).trans hval, (congrArg RcpS.kept (rcp_of_leaves hl)).trans hkept,
    frame_of_upto ((hup.trans (upto_of_leaves setsPart_withRcp hl)).mono (by simp)) s k.rcp rfl⟩

theorem recipeArmed_faults (s : State) (hstate : s.dev.get R.TOP.RECIPE.STATE = 1)
    (hidle : (recipeUnits (s.dev.recipe s.dev.rcp.loading)).any s.dev.copyRuns = false)
    (hbad : (s.dev.recipe s.dev.rcp.loading).all ImgRec.classOk = false) : ∃ w, exec .recipeArmed s = .fault (.hostError w) := by
  have hfault : ∃ w, recipeArmed s.mem s.dev = .fault (.hostError w) := by
    unfold recipeArmed
    dsimp only
    rw [if_neg (by simp [hstate, hidle]), if_pos (by simp [hbad])]
    exact ⟨_, rfl⟩
  obtain ⟨w, hw⟩ := hfault
  exact ⟨w, (exec_recipeArmed s).trans (run_fault hw)⟩

end Sys2Proof.Proofs
end

section
/-!
The power states: STANDBY, OFF, and what wakes the device (R489 to R491, R495).
-/
namespace Sys2Proof.Proofs
open Sys2Proof Sys2Proof.Machine

/-! ## A wake from STANDBY -/

/-- What a wake shows: its source, the RC trim and the power state. -/
def wakeRegs : List Fld := [R.PWR.WAKE_SRC.SRC, R.PWR.RC_TRIM.CODE, R.PWR.STATUS.STATE]

theorem wakeRegs_quiet : ∀ f ∈ wakeRegs, bookKey f.key = false ∧ f.key / 64 < 0x100000 ∧ keyBnd f.key = .none := by decide +kernel

/-- These registers stay. -/
structure KeepsWake (d e : Dev) : Prop where
  get : ∀ f ∈ wakeRegs, e.get f = d.get f

section
variable {d e g : Dev}

theorem KeepsWake.trans (h : KeepsWake d e) (h' : KeepsWake e g) : KeepsWake d g := ⟨fun f hf => (h'.get f hf).trans (h.get f hf)⟩

theorem keepsWake_refl (d : Dev) : KeepsWake d d := ⟨fun _ _ => rfl⟩

theorem keepsWake_of_leaves {fs : List Fld} (h : Leaves fs d e) (hfs : ∀ f ∈ wakeRegs, f.key ∉ fs.map Fld.key) : KeepsWake d e :=
  ⟨fun f hf => h.get (wakeRegs_quiet f hf).1 (hfs f hf)⟩

theorem keepsWake_of_regs (h : e.regs = d.regs) : KeepsWake d e := ⟨fun f _ => get_congr h f⟩

theorem keepsWake_put {r : Fld} (hr : ∀ f ∈ wakeRegs, f.key ≠ r.key) (v : Nat) (d : Dev) : KeepsWake d (put r v d) :=
  ⟨fun f hf => get_put_ne (hr f hf) v d⟩

/-- A register beyond the slow domains. -/
theorem keepsWake_putHigh {r : Fld} (hr : 0x100000 ≤ r.key / 64) (v : Nat) (d : Dev) : KeepsWake d (put r v d) :=
  keepsWake_put (fun f hf heq => by
    have := (wakeRegs_quiet f hf).2.1
    rw [heq] at this
    omega) v d

theorem keepsWake_lineStep (h : LineStep d e) : KeepsWake d e :=
  ⟨fun f hf => h.get f (wakeRegs_quiet f hf).1 (not_lineKey_low (wakeRegs_quiet f hf).2.1 (wakeRegs_quiet f hf).2.2)⟩

theorem keepsWake_each {α : Type} {F : α → Dev → Dev} (h : ∀ x d, KeepsWake d (F x d)) (xs : List α) (d : Dev) : KeepsWake d (each F xs d) := by
  induction xs generalizing d with
  | nil => exact keepsWake_refl d
  | cons x xs ih => exact (h x d).trans (ih _)

theorem keepsWake_ite {c : Prop} [Decidable c] {a b : Dev} (ha : KeepsWake d a) (hb : KeepsWake d b) : KeepsWake d (if c then a else b) := by
  split
  · exact ha
  · exact hb

end

/-- The PLL of a quad that is in use locks. -/
def quadLocked (q : Nat) (d : Dev) : Dev := { d with quadLock := setFlag q (d.quadUsed q) d.quadLock }

theorem lockPlls_eq (d : Dev) : lockPlls d =
    each quadLocked (List.range 15) (showClock (setQual d.lockedQual (put R.PWR.PLL.RUN d.pllMask (put R.PWR.PLL.LOCK d.pllMask d)))) := rfl

theorem keepsWake_quadLocked (q : Nat) (d : Dev) : KeepsWake d (quadLocked q d) := by
  unfold quadLocked
  exact keepsWake_of_regs rfl

theorem keepsWake_showClock (d : Dev) : KeepsWake d (showClock d) := by
  unfold showClock
  exact keepsWake_putHigh (by decide) ..

theorem keepsWake_setQual (q : Nat) (d : Dev) : KeepsWake d (setQual q d) := keepsWake_of_leaves (leaves_setQual q d) (by decide)

theorem keepsWake_lockPlls (d : Dev) : KeepsWake d (lockPlls d) := by
  rw [lockPlls_eq]
  generalize d.pllMask = m
  generalize d.lockedQual = q
  have hputs : KeepsWake d (put R.PWR.PLL.RUN m (put R.PWR.PLL.LOCK m d)) := (keepsWake_put (by decide) m d).trans (keepsWake_put (by decide) m _)
  generalize put R.PWR.PLL.RUN m (put R.PWR.PLL.LOCK m d) = e at hputs ⊢
  exact ((hputs.trans (keepsWake_setQual q e)).trans (keepsWake_showClock _)).trans (keepsWake_each keepsWake_quadLocked _ _)

/-- The device has woken, before its gouges, channels and ports resume. -/
def wakeShown (src trim : Nat) (d : Dev) : Dev := puts [(R.PWR.WAKE_SRC.SRC, src), (R.PWR.RC_TRIM.CODE, trim), (R.PWR.STATUS.STATE, 1)] d

/-- A channel that slept leaves self-refresh. -/
def channelResumed (ch : Nat) (d : Dev) : Dev :=
  if d.get (R.DDR.CH_STATUS.STATE ch) = 3 then put (R.DDR.CH_STATUS.STATE ch) 2 d else d

/-- A gouge takes its place again. -/
def gougeResumed (g : Nat) (d : Dev) : Dev :=
  if d.gouRetired g then d
  else put (R.GGE.STATUS.STATE g) (if (d.servedBy g).isSome then 1
    else if (spareList (d.get R.TOP.PROFILE_ACT.GG_SPARES)).contains g then 4 else 0) d

/-- A port that was up tells its camera and locks anew. -/
def portResumed (p : Nat) (d : Dev) : Dev :=
  if 2 ≤ d.get (R.EKL.STATUS.STATE p) ∧ d.get (R.EKL.STATUS.STATE p) ≤ 4 then portState p 2 (sendMsg p 10 [0#8] d) else d

/-- A generator that counts time starts from the next line. -/
def generatorResumed (g : Nat) (d : Dev) : Dev :=
  if d.get (R.TIM.TG_CTL.MODE g) = 1 then setTg g { d.tgS g with k := d.firstK g } d else d

/-- What resumes on a wake. -/
def resumed (d : Dev) : Dev :=
  each generatorResumed [0, 1, 2, 3] (each portResumed (List.range 12) (each gougeResumed (List.range 136) (each channelResumed [0, 1, 2, 3]
    (lockPlls (setDomains (domMask d.domNeeded) d)))))

theorem wakeStandby_eq (src trim : Nat) (d : Dev) : wakeStandby src trim d = woke (resumed (wakeShown src trim d)) := rfl

theorem keepsWake_channelResumed (ch : Nat) (d : Dev) : KeepsWake d (channelResumed ch d) := by
  unfold channelResumed
  refine keepsWake_ite (keepsWake_putHigh ?_ 2 d) (keepsWake_refl d)
  simp only [Fld.key, R.DDR.CH_STATUS.STATE]
  omega

theorem keepsWake_gougeResumed (g : Nat) (d : Dev) : KeepsWake d (gougeResumed g d) := by
  unfold gougeResumed
  refine keepsWake_ite (keepsWake_refl d) (keepsWake_putHigh ?_ _ d)
  simp only [Fld.key, R.GGE.STATUS.STATE]
  omega

theorem keepsWake_portResumed (p : Nat) (d : Dev) : KeepsWake d (portResumed p d) := by
  unfold portResumed
  refine keepsWake_ite ?_ (keepsWake_refl d)
  exact (keepsWake_lineStep (lineStep_sendMsg p 10 [0#8] d)).trans (keepsWake_lineStep (lineStep_portState p 2 _))

theorem keepsWake_generatorResumed (g : Nat) (d : Dev) : KeepsWake d (generatorResumed g d) := by
  unfold generatorResumed
  exact keepsWake_ite (keepsWake_of_regs rfl) (keepsWake_refl d)

theorem keepsWake_resumed (d : Dev) : KeepsWake d (resumed d) := by
  unfold resumed
  have hpll := (keepsWake_of_leaves (leaves_setDomains (domMask d.domNeeded) d) (by decide)).trans (keepsWake_lockPlls _)
  generalize lockPlls (setDomains (domMask d.domNeeded) d) = e at hpll ⊢
  exact (((hpll.trans (keepsWake_each keepsWake_channelResumed _ e)).trans (keepsWake_each keepsWake_gougeResumed _ _)).trans
    (keepsWake_each keepsWake_portResumed _ _)).trans (keepsWake_each keepsWake_generatorResumed _ _)

/-- The wake is shown. -/
def wakeNoted (d : Dev) : Dev := event 4 R.PWR.STATUS.SEQ [R.PWR.STATUS.WOKE] { d with aon := { d.aon with wakeOff := false } }

/-- The position of an encoder has a gap. -/
def encoderGap (e : Nat) (d : Dev) : Dev := event 7 (R.TIM.ENC_STATUS.SEQ e) [R.TIM.ENC_STATUS.GAP e] d

/-- The wake is counted, and the encoders' positions have a gap. -/
def wakeCounted (d : Dev) : Dev := each encoderGap [0, 1] (pwrPerf 3 1 (pwrStat 0 1 d))

theorem woke_eq (d : Dev) : woke d = wakeCounted (wakeNoted d) := by
  unfold woke wakeCounted wakeNoted
  rfl

theorem leaves_wakeCounted (d : Dev) : Leaves [R.PWR.STAT.COUNT 0, R.TIM.ENC_STATUS.SEQ 0, R.TIM.ENC_STATUS.GAP 0, R.TIM.ENC_STATUS.SEQ 1, R.TIM.ENC_STATUS.GAP 1]
    d (wakeCounted d) := by
  have hstat : Leaves [R.PWR.STAT.COUNT 0] d (pwrStat 0 1 d) := leaves_put ..
  have hcount := hstat.trans (leaves_pwrPerf 3 1 _)
  have hgap (e : Nat) (d : Dev) : Leaves [R.TIM.ENC_STATUS.SEQ e, R.TIM.ENC_STATUS.GAP e] d (encoderGap e d) := leaves_event ..
  unfold wakeCounted
  generalize pwrPerf 3 1 (pwrStat 0 1 d) = e at hcount ⊢
  have h0 := hgap 0 e
  rw [each, each, each]
  generalize encoderGap 0 e = g at h0 ⊢
  exact (hcount.trans (h0.trans (hgap 1 g))).mono (by simp)

theorem woke_facts (d : Dev) : KeepsWake d (woke d) ∧ (woke d).on R.PWR.STATUS.WOKE = true := by
  have hset : KeepsWake d { d with aon := { d.aon with wakeOff := false } } := keepsWake_of_regs rfl
  rw [woke_eq, wakeNoted]
  generalize ({ d with aon := { d.aon with wakeOff := false } } : Dev) = e at hset
  have hev := keepsWake_of_leaves (leaves_event 4 R.PWR.STATUS.SEQ [R.PWR.STATUS.WOKE] e) (by decide)
  have hwoke : (event 4 R.PWR.STATUS.SEQ [R.PWR.STATUS.WOKE] e).get R.PWR.STATUS.WOKE = 1 := get_event_flag (by decide) (by decide) (by simp) ..
  generalize event 4 R.PWR.STATUS.SEQ [R.PWR.STATUS.WOKE] e = g at hev hwoke ⊢
  have hl := leaves_wakeCounted g
  generalize wakeCounted g = k at hl ⊢
  refine ⟨(hset.trans hev).trans (keepsWake_of_leaves hl (by decide)), ?_⟩
  rw [Dev.on, hl.get (by decide) (by decide), hwoke]
  rfl

theorem wakeShown_facts {src trim : Nat} (hsrc : src < 16) (htrim : trim < 256) (d : Dev) : (wakeShown src trim d).get R.PWR.STATUS.STATE = 1 ∧
    (wakeShown src trim d).get R.PWR.WAKE_SRC.SRC = src ∧ (wakeShown src trim d).get R.PWR.RC_TRIM.CODE = trim := by
  unfold wakeShown
  simp (disch := decide) only [puts, get_put_ne, get_put_self]
  exact ⟨rfl, Nat.mod_eq_of_lt hsrc, Nat.mod_eq_of_lt htrim⟩

/-- A wake shows its source and the trim, in RUN. -/
theorem wakeStandby_facts {src trim : Nat} (hsrc : src < 16) (htrim : trim < 256) (d : Dev) (s : State) :
    (s.after (wakeStandby src trim d)).dev.get R.PWR.STATUS.STATE = 1 ∧ (s.after (wakeStandby src trim d)).dev.get R.PWR.WAKE_SRC.SRC = src ∧
    (s.after (wakeStandby src trim d)).dev.get R.PWR.RC_TRIM.CODE = trim ∧ (s.after (wakeStandby src trim d)).dev.on R.PWR.STATUS.WOKE = true := by
  have hshown := wakeShown_facts hsrc htrim d
  rw [wakeStandby_eq]
  generalize wakeShown src trim d = e at hshown ⊢
  have hres := keepsWake_resumed e
  generalize resumed e = g at hres ⊢
  obtain ⟨hk, hwoke⟩ := woke_facts g
  generalize woke g = k at hk hwoke ⊢
  have hget := (hres.trans hk).get
  refine ⟨?_, ?_, ?_, (on_after ..).trans hwoke⟩
  · rw [get_after, hget _ (by simp [wakeRegs]), hshown.1]
  · rw [get_after, hget _ (by simp [wakeRegs]), hshown.2.1]
  · rw [get_after, hget _ (by simp [wakeRegs]), hshown.2.2]

theorem wake_completes (trim : BitVec 8) (s : State) (hsleep : s.dev.get R.PWR.STATUS.STATE = 3) (hen : s.dev.on R.PWR.WAKE_EN.HOST = true) :
    Completes (.wake trim) s (fun t => t.dev.get R.PWR.STATUS.STATE = 1 ∧ t.dev.get R.PWR.WAKE_SRC.SRC = 1 ∧
      t.dev.get R.PWR.RC_TRIM.CODE = trim.toNat ∧ t.dev.on R.PWR.STATUS.WOKE = true) :=
  completes_to (exec_wake trim s) (wakeStandby 1 trim.toNat s.dev) (if_pos ⟨hsleep, hen⟩) (wakeStandby_facts (by decide) trim.isLt s.dev s)

theorem wake_asleep {src : Nat} {env : BootEnv} {m : Mem} {d : Dev} (ht : d.aon.tripped = false) (ho : d.aon.off = false)
    (hs : d.get R.PWR.STATUS.STATE = 3) : wake src env m d = .next (wakeStandby src env.trim.toNat d) := by
  rw [wake, if_neg (by simp [ht]), if_neg (by simp [ho]), if_pos hs]

theorem wakeAlarm_completes (env : BootEnv) (e : Dev) (s : State) (_hoff : s.dev.aon.off = false) (hsleep : s.dev.get R.PWR.STATUS.STATE = 3)
    (hen : s.dev.on R.PWR.WAKE_EN.ALARM = true) (htrip : s.dev.aon.tripped = false)
    (he : e = reach (s.dev.get R.PWR.WAKE_DT.DT / 65536 * 65536) s.dev) (het : e.aon.tripped = false) (heo : e.aon.off = false)
    (hes : e.get R.PWR.STATUS.STATE = 3) :
    Completes (.wakeAlarm env) s (fun t => t.dev.get R.PWR.STATUS.STATE = 1 ∧ t.dev.get R.PWR.WAKE_SRC.SRC = 4) := by
  obtain ⟨hstate, hsrc, -⟩ := wakeStandby_facts (src := 4) (by decide) env.trim.isLt e s
  refine completes_run (exec_wakeAlarm env s) ?_ ⟨hstate, hsrc⟩
  rw [if_pos (by simp [Dev.asleep, hsleep, hen, htrip]), ← he, wake_asleep het heo hes]

theorem wakeEvent_completes (i : Fin 8) (rising : Bool) (env : BootEnv) (s : State) (hoff : s.dev.aon.off = false)
    (hsleep : s.dev.get R.PWR.STATUS.STATE = 3) (hreads : s.dev.reads (28 + i.val) = true) (hen : s.dev.on R.PWR.WAKE_EN.EVT = true)
    (hmask : bit (s.dev.get R.PWR.WAKE_EN.EVT_MASK) i.val = true) (hpol : rising = s.dev.on R.PWR.WAKE_EN.EVT_POL)
    (htrip : s.dev.aon.tripped = false) :
    Completes (.wakeEvent i rising env) s (fun t => t.dev.get R.PWR.STATUS.STATE = 1 ∧
      t.dev.get R.PWR.WAKE_SRC.SRC = (if s.dev.alarmNow then 6 else 2)) := by
  obtain ⟨hstate, hsrc, -⟩ := wakeStandby_facts (src := if s.dev.alarmNow then 6 else 2) (by split <;> decide) env.trim.isLt s.dev s
  refine completes_run (exec_wakeEvent i rising env s) ?_ ⟨hstate, hsrc⟩
  rw [if_pos (by simp [Dev.asleep, hsleep, hreads, hen, hmask, hpol]), wake_asleep htrip hoff hsleep]

/-! ## STANDBY -/

/-- What a sleeping device shows of its power. -/
def sleepRegs : List Fld := [R.PWR.STATUS.STATE, R.PWR.PLL.RUN, R.PWR.PLL.LOCK]

/-- The registers of a sleeping device and its emptied queues stay. -/
structure KeepsSleep (d e : Dev) : Prop where
  get : ∀ f ∈ sleepRegs, e.get f = d.get f
  vrd : e.vrd = d.vrd
  objQ : e.objQ = d.objQ
  homeQ : e.homeQ = d.homeQ

section
variable {d e g : Dev}

theorem KeepsSleep.trans (h : KeepsSleep d e) (h' : KeepsSleep e g) : KeepsSleep d g :=
  ⟨fun f hf => (h'.get f hf).trans (h.get f hf), h'.vrd.trans h.vrd, h'.objQ.trans h.objQ, h'.homeQ.trans h.homeQ⟩

theorem keepsSleep_refl (d : Dev) : KeepsSleep d d := ⟨fun _ _ => rfl, rfl, rfl, rfl⟩

theorem sleepRegs_quiet : ∀ f ∈ sleepRegs, bookKey f.key = false ∧ f.key / 64 < 0x100000 := by decide

theorem keepsSleep_of_leaves {fs : List Fld} (h : Leaves fs d e) (hfs : ∀ f ∈ sleepRegs, f.key ∉ fs.map Fld.key) : KeepsSleep d e :=
  ⟨fun f hf => h.get (sleepRegs_quiet f hf).1 (hfs f hf), vrd_of_leaves h, objQ_of_leaves h, homeQ_of_leaves h⟩

theorem keepsSleep_each {α : Type} {F : α → Dev → Dev} (h : ∀ x d, KeepsSleep d (F x d)) (xs : List α) (d : Dev) : KeepsSleep d (each F xs d) := by
  induction xs generalizing d with
  | nil => exact keepsSleep_refl d
  | cons x xs ih => exact (h x d).trans (ih _)

theorem keepsSleep_ddrStep {fs : List Fld} (h : DdrStep fs d e) (hfs : ∀ f ∈ fs, 0x100000 ≤ f.key / 64) : KeepsSleep d e := by
  have hl := Upto.leaves h ({} : DdrS)
  have hvrd : (withDdr {} e).vrd = (withDdr {} d).vrd := vrd_of_leaves hl
  have hobj : (withDdr {} e).objQ = (withDdr {} d).objQ := objQ_of_leaves hl
  have hhome : (withDdr {} e).homeQ = (withDdr {} d).homeQ := homeQ_of_leaves hl
  refine ⟨fun f hf => h.get (sleepRegs_quiet f hf).1 fun hmem => ?_, hvrd, hobj, hhome⟩
  obtain ⟨r, hr, heq⟩ := List.mem_map.mp hmem
  have h1 := hfs r hr
  have h2 := (sleepRegs_quiet f hf).2
  rw [heq] at h1
  omega

end

theorem keepsSleep_refreshItself (ch : Nat) (d : Dev) : KeepsSleep d (refreshItself ch d) := by
  unfold refreshItself
  cases d.chRuns ch with
  | false => exact keepsSleep_refl d
  | true =>
    have hdrain : DdrStep (pageRegs ch) d (drainTo ch 0 d) := (drainTo_facts ch 0 d).1
    have hpage : ∀ f ∈ pageRegs ch, 0x100000 ≤ f.key / 64 := by
      simp only [pageRegs, List.mem_cons, List.not_mem_nil, or_false, forall_eq_or_imp, forall_eq, Fld.key, R.DDR.STAT.COUNT]
      omega
    have hclose := (keepsSleep_ddrStep hdrain hpage).trans
      (keepsSleep_each (fun k d => keepsSleep_ddrStep (closeBank_step ch k d) (by simp)) (List.range 128) _)
    rw [when]
    dsimp only
    generalize each (closeBank ch) (List.range 128) (drainTo ch 0 d) = e at hclose ⊢
    have hrest : Leaves [R.DDR.CH_STATUS.STATE ch, R.DDR.STAT.COUNT ch 6] e (ddrPerf 0xa 1 (ddrStat ch 6 1 (put (R.DDR.CH_STATUS.STATE ch) 3 e))) :=
      ((leaves_put ..).trans (leaves_put ..)).trans (leaves_ddrPerf ..)
    refine hclose.trans (keepsSleep_ddrStep (ddrStep_of_leaves hrest) ?_)
    simp only [List.mem_cons, List.not_mem_nil, or_false, forall_eq_or_imp, forall_eq, Fld.key, R.DDR.STAT.COUNT, R.DDR.CH_STATUS.STATE]
    omega

theorem keepsSleep_goCoarse (d : Dev) : KeepsSleep d (goCoarse d) := by
  have hset : KeepsSleep d { d with tim := { d.tim with rcOnly := d.coarseQual == 3 } } := ⟨fun _ _ => rfl, rfl, rfl, rfl⟩
  unfold goCoarse
  exact hset.trans (keepsSleep_of_leaves (leaves_setQual ..) (by decide))

/-- The device has gone to sleep, before its DRAM refreshes itself. -/
def slept (d : Dev) : Dev := { puts [(R.PWR.PLL.RUN, 0), (R.PWR.PLL.LOCK, 0), (R.CRV.CLK.MHZ, 0), (R.PWR.STATUS.STATE, 3)] d with quadLock := [] }

theorem standby_eq (acked : Bool) (m : Mem) (d : Dev) : standby acked m d =
    let e := dropChain (quiesce 2 acked m d)
    pwrStat 1 1 (each refreshItself [0, 1, 2, 3] (goCoarse (slept (setDomains (e.domains &&& standbyDomains) e)))) := by
  unfold standby slept
  rfl

theorem dropChain_empty (d : Dev) : (dropChain d).vrd.pend = [] ∧ (dropChain d).objQ = [] ∧ (dropChain d).homeQ = [] := by
  unfold dropChain
  exact ⟨rfl, rfl, rfl⟩

theorem slept_facts (d : Dev) : (slept d).get R.PWR.STATUS.STATE = 3 ∧ (slept d).get R.PWR.PLL.RUN = 0 ∧ (slept d).get R.PWR.PLL.LOCK = 0 ∧
    (slept d).vrd = d.vrd ∧ (slept d).objQ = d.objQ ∧ (slept d).homeQ = d.homeQ := by
  have hget : ∀ f, (slept d).get f = (puts [(R.PWR.PLL.RUN, 0), (R.PWR.PLL.LOCK, 0), (R.CRV.CLK.MHZ, 0), (R.PWR.STATUS.STATE, 3)] d).get f := fun _ => rfl
  rw [hget, hget, hget]
  refine ⟨?_, ?_, ?_, rfl, rfl, rfl⟩
  · simp only [puts, get_put_self]
    rfl
  · simp (disch := decide) only [puts, get_put_ne, get_put_self]
    rfl
  · simp (disch := decide) only [puts, get_put_ne, get_put_self]
    rfl

theorem standby_facts (acked : Bool) (m : Mem) (d : Dev) : (standby acked m d).get R.PWR.STATUS.STATE = 3 ∧ (standby acked m d).get R.PWR.PLL.RUN = 0 ∧
    (standby acked m d).get R.PWR.PLL.LOCK = 0 ∧ (standby acked m d).vrd.pend = [] ∧ (standby acked m d).objQ = [] ∧ (standby acked m d).homeQ = [] := by
  rw [standby_eq]
  dsimp only
  obtain ⟨hp, ho, hh⟩ := dropChain_empty (quiesce 2 acked m d)
  generalize dropChain (quiesce 2 acked m d) = e at hp ho hh ⊢
  have hdom := leaves_setDomains (e.domains &&& standbyDomains) e
  generalize setDomains (e.domains &&& standbyDomains) e = f at hdom ⊢
  obtain ⟨hs, hr, hl, hv, hob, hho⟩ := slept_facts f
  generalize slept f = g at hs hr hl hv hob hho ⊢
  have hrest := (keepsSleep_goCoarse g).trans (keepsSleep_each keepsSleep_refreshItself [0, 1, 2, 3] _)
  generalize each refreshItself [0, 1, 2, 3] (goCoarse g) = k at hrest ⊢
  have hlast := hrest.trans (keepsSleep_of_leaves (leaves_put (R.PWR.STAT.COUNT 1) (k.get (R.PWR.STAT.COUNT 1) + 1) k) (by decide))
  have hq : pwrStat 1 1 k = put (R.PWR.STAT.COUNT 1) (k.get (R.PWR.STAT.COUNT 1) + 1) k := rfl
  rw [hq]
  generalize put (R.PWR.STAT.COUNT 1) (k.get (R.PWR.STAT.COUNT 1) + 1) k = n at hlast ⊢
  refine ⟨(hlast.get _ (by simp [sleepRegs])).trans hs, (hlast.get _ (by simp [sleepRegs])).trans hr, (hlast.get _ (by simp [sleepRegs])).trans hl, ?_, ?_, ?_⟩
  · rw [hlast.vrd, hv, vrd_of_leaves hdom, hp]
  · rw [hlast.objQ, hob, objQ_of_leaves hdom, ho]
  · rw [hlast.homeQ, hho, homeQ_of_leaves hdom, hh]

end Sys2Proof.Proofs
end

section
/-!
The power-off: what NVM and the fuses hold stays while the device quiesces (R489, R490).
-/
namespace Sys2Proof.Proofs
open Sys2Proof Sys2Proof.Machine

/-- What NVM and the fuses hold stays. -/
structure KeepsNvm (d e : Dev) : Prop where
  nvm : e.nvm = d.nvm
  rootHash : e.rootHash = d.rootHash

section
variable {d e g : Dev}

theorem KeepsNvm.trans (h : KeepsNvm d e) (h' : KeepsNvm e g) : KeepsNvm d g := ⟨h'.nvm.trans h.nvm, h'.rootHash.trans h.rootHash⟩

theorem keepsNvm_refl (d : Dev) : KeepsNvm d d := ⟨rfl, rfl⟩

theorem keepsNvm_of_leaves {fs : List Fld} (h : Leaves fs d e) : KeepsNvm d e := ⟨nvm_of_leaves h, rootHash_of_leaves h⟩

theorem keepsNvm_lineStep (h : LineStep d e) : KeepsNvm d e := ⟨h.nvm, h.rootHash⟩

theorem keepsNvm_each {α : Type} {F : α → Dev → Dev} (h : ∀ x d, KeepsNvm d (F x d)) (xs : List α) (d : Dev) : KeepsNvm d (each F xs d) := by
  induction xs generalizing d with
  | nil => exact keepsNvm_refl d
  | cons x xs ih => exact (h x d).trans (ih _)

theorem keepsNvm_ite {c : Prop} [Decidable c] {a b : Dev} (ha : KeepsNvm d a) (hb : KeepsNvm d b) : KeepsNvm d (if c then a else b) := by
  split
  · exact ha
  · exact hb

end

theorem keepsNvm_put (f : Fld) (v : Nat) (d : Dev) : KeepsNvm d (put f v d) := ⟨rfl, rfl⟩

theorem keepsNvm_inc (f : Fld) (n : Nat) (d : Dev) : KeepsNvm d (inc f n d) := ⟨rfl, rfl⟩

theorem keepsNvm_event (code : Nat) (seq : Fld) (fs : List Fld) (d : Dev) : KeepsNvm d (event code seq fs d) :=
  keepsNvm_of_leaves (leaves_event code seq fs d)

theorem keepsNvm_raise (n : Nat) (d : Dev) : KeepsNvm d (raise n d) := by
  unfold raise
  dsimp only
  split
  · split <;> exact ⟨rfl, rfl⟩
  · exact keepsNvm_refl d

theorem keepsNvm_when (c : Bool) {F : Dev → Dev} {d : Dev} (h : KeepsNvm d (F d)) : KeepsNvm d (when c F d) := by
  unfold when
  split
  · exact h
  · exact keepsNvm_refl d

theorem keepsNvm_perf (blk base code k : Nat) (d : Dev) : KeepsNvm d (perf blk base code k d) := by
  unfold perf
  split
  · exact keepsNvm_refl d
  · refine keepsNvm_each (fun n d => ?_) _ d
    unfold perfOne
    dsimp only
    split
    · split
      · exact ⟨rfl, rfl⟩
      · exact ⟨(keepsNvm_event ..).nvm, (keepsNvm_event ..).rootHash⟩
    · exact keepsNvm_refl d

theorem keepsNvm_logEv (code inst sev data : Nat) (d : Dev) : KeepsNvm d (logEv code inst sev data d) := keepsNvm_of_leaves (leaves_logEv ..)

theorem keepsNvm_errEvent (b : Nat) (d : Dev) : KeepsNvm d (errEvent b d) := by
  have hl := (errEvent_upto b d).leaves d.snap
  generalize errEvent b d = e at hl ⊢
  have hnvm : (withSnap d.snap e).nvm = (withSnap d.snap d).nvm := nvm_of_leaves hl
  have hroot : (withSnap d.snap e).rootHash = (withSnap d.snap d).rootHash := rootHash_of_leaves hl
  exact ⟨hnvm, hroot⟩

theorem keepsNvm_reachNs (t n : Nat) (d : Dev) : KeepsNvm d (reachNs t n d) := keepsNvm_lineStep (lineStep_reachNs t n d)

theorem keepsNvm_reach (t : Nat) (d : Dev) : KeepsNvm d (reach t d) := keepsNvm_lineStep (lineStep_reach t d)

theorem keepsNvm_setSeg (k : Nat) (g : SegS) (d : Dev) : KeepsNvm d (setSeg k g d) := ⟨rfl, rfl⟩

/-! ## The cancels of a quiet device -/

theorem keepsNvm_enterCmd (c : FireCmd) (d : Dev) : KeepsNvm d (enterCmd c d) := ⟨rfl, rfl⟩

theorem keepsNvm_cancelAll (d : Dev) : KeepsNvm d (cancelAll d) := by
  have hset : KeepsNvm d { d with vrd := { d.vrd with pend := [] } } := ⟨rfl, rfl⟩
  unfold cancelAll
  exact hset.trans (keepsNvm_each (fun k d => keepsNvm_each (fun n d => keepsNvm_enterCmd _ d) _ d) _ _)

theorem keepsNvm_dropCmd (c : FireCmd) (d : Dev) : KeepsNvm d (dropCmd c d) := ⟨rfl, rfl⟩

theorem keepsNvm_cmdMissed (d : Dev) : KeepsNvm d (cmdMissed d) :=
  ((keepsNvm_event 0x10 R.VRD.STATUS.SEQ [R.VRD.STATUS.MISSED] d).trans (keepsNvm_inc (R.VRD.STAT.COUNT 13) 1 _)).trans (keepsNvm_perf 0x10 0x1800000 5 1 _)

theorem keepsNvm_missed (c : FireCmd) (d : Dev) : KeepsNvm d (missed c d) :=
  ((keepsNvm_dropCmd c d).trans (keepsNvm_cmdMissed _)).trans (keepsNvm_logEv ..)

theorem keepsNvm_fireLate (d : Dev) : KeepsNvm d (fireLate d) :=
  ((keepsNvm_inc (R.VRD.STAT.COUNT 12) 1 d).trans (keepsNvm_perf 0x10 0x1800000 4 1 _)).trans (keepsNvm_errEvent 6 _)

theorem keepsNvm_unconfirmed (k : Nat) (c : FireCmd) (d : Dev) : KeepsNvm d (unconfirmed k c d) :=
  (((keepsNvm_dropCmd c d).trans (keepsNvm_inc (R.T1S.STAT.COUNT k 6) 1 _)).trans (keepsNvm_perf 0x11 (t1sBase k) 6 1 _)).trans (keepsNvm_logEv ..)

theorem keepsNvm_checkCmd (k : Nat) (c : FireCmd) (d : Dev) : KeepsNvm d (checkCmd k c d) := by
  unfold checkCmd
  dsimp only
  refine keepsNvm_ite (keepsNvm_refl d) (keepsNvm_ite ?_ (keepsNvm_ite ?_ (keepsNvm_refl d)))
  · exact keepsNvm_ite (keepsNvm_unconfirmed k c d) (keepsNvm_ite (keepsNvm_missed c d) (keepsNvm_refl d))
  · refine KeepsNvm.trans ?_ (keepsNvm_fireLate _)
    exact ⟨rfl, rfl⟩

theorem keepsNvm_sendFire (k : Nat) (cs : List FireCmd) (d : Dev) : KeepsNvm d (sendFire k cs d) := by
  unfold sendFire
  dsimp only
  refine KeepsNvm.trans (KeepsNvm.trans (KeepsNvm.trans (KeepsNvm.trans ?_ (keepsNvm_perf ..)) (keepsNvm_perf ..)) (keepsNvm_perf ..)) (keepsNvm_perf ..)
  exact ⟨rfl, rfl⟩

theorem keepsNvm_sendPtp (k : Nat) (msg : List Byte) (d : Dev) : KeepsNvm d (sendPtp k msg d) := by
  unfold sendPtp
  refine KeepsNvm.trans (KeepsNvm.trans ?_ (keepsNvm_perf ..)) (keepsNvm_perf ..)
  exact ⟨rfl, rfl⟩

theorem keepsNvm_fillFrames (k left : Nat) : ∀ (bits : Nat) (done : List Nat) (d : Dev), KeepsNvm d (fillFrames k left bits done d) := by
  induction left with
  | zero => exact fun _ _ d => keepsNvm_refl d
  | succ left ih =>
    intro bits done d
    have hseg (g : SegS) (d : Dev) := keepsNvm_setSeg k g d
    have hfire (cs : List FireCmd) (b : Nat) (done : List Nat) : KeepsNvm d (fillFrames k left b done (sendFire k cs d)) :=
      (keepsNvm_sendFire k cs d).trans (ih ..)
    have hptp (msg : List Byte) (b : Nat) (done : List Nat) {e : Dev} (he : KeepsNvm d e) : KeepsNvm d (fillFrames k left b done (sendPtp k msg e)) :=
      (he.trans (keepsNvm_sendPtp k msg e)).trans (ih ..)
    rw [fillFrames]
    dsimp only
    refine keepsNvm_ite (hfire ..) ?_
    split
    · exact hptp _ _ _ (hseg ..)
    · exact hptp _ _ _ (hseg ..)
    · exact hptp _ _ _ ((keepsNvm_perf ..).trans (hseg ..))
    · refine keepsNvm_ite (hptp _ _ _ ((keepsNvm_perf ..).trans (hseg ..))) (keepsNvm_ite (hptp _ _ _ (hseg ..)) (keepsNvm_ite (keepsNvm_refl d) (hfire ..)))

theorem keepsNvm_opportunity (k : Nat) (d : Dev) : KeepsNvm d (opportunity k d) := by
  unfold opportunity
  exact (keepsNvm_each (keepsNvm_checkCmd k) _ d).trans (keepsNvm_fillFrames ..)

/-- The commands that no node acknowledged are given up, unless all were, and the pending table is emptied. -/
def commandsGone (acked : Bool) (d : Dev) : Dev :=
  let d := if acked then d
    else each (fun (c : FireCmd) d => unconfirmed (c.sent.getLastD c.seg) c d) (d.vrd.pend.filter (fun c => c.kind != 1)) (reachNs d.dt 10000000 d)
  { d with vrd := { d.vrd with pend := [] } }

/-- The cancels leave at the next transmit opportunity of each running segment. -/
def cancelsSent (d : Dev) : Dev := each (fun k d => if d.segUp k then opportunity k d else d) (List.range 8) (cancelAll d)

theorem cancelsOut_eq (acked : Bool) (d : Dev) : cancelsOut acked d = commandsGone acked (cancelsSent d) := by
  unfold cancelsOut commandsGone cancelsSent
  rfl

theorem keepsNvm_cancelsSent (d : Dev) : KeepsNvm d (cancelsSent d) := by
  unfold cancelsSent
  exact (keepsNvm_cancelAll d).trans (keepsNvm_each (fun k d => keepsNvm_ite (keepsNvm_opportunity k d) (keepsNvm_refl d)) _ _)

theorem commandsGone_pend (acked : Bool) (d : Dev) : (commandsGone acked d).vrd.pend = [] := rfl

theorem keepsNvm_commandsGone (acked : Bool) (d : Dev) : KeepsNvm d (commandsGone acked d) := by
  have hgone : KeepsNvm d (if acked then d
      else each (fun (c : FireCmd) d => unconfirmed (c.sent.getLastD c.seg) c d) (d.vrd.pend.filter (fun c => c.kind != 1)) (reachNs d.dt 10000000 d)) :=
    keepsNvm_ite (keepsNvm_refl d) ((keepsNvm_reachNs ..).trans (keepsNvm_each (fun c d => keepsNvm_unconfirmed _ c d) _ _))
  exact ⟨hgone.nvm, hgone.rootHash⟩

theorem keepsNvm_cancelsOut (acked : Bool) (d : Dev) : KeepsNvm d (cancelsOut acked d) := by
  rw [cancelsOut_eq]
  exact (keepsNvm_cancelsSent d).trans (keepsNvm_commandsGone acked _)

/-! ## The report channels of a quiet device -/

theorem keepsNvm_chState (c st : Nat) (d : Dev) : KeepsNvm d (chState c st d) := ⟨rfl, rfl⟩

theorem keepsNvm_setCh (c : Nat) (x : ChS) (d : Dev) : KeepsNvm d (setCh c x d) := ⟨rfl, rfl⟩

theorem keepsNvm_dmaPerf (code n : Nat) (d : Dev) : KeepsNvm d (dmaPerf code n d) := keepsNvm_perf ..

theorem keepsNvm_linkWait (c : Nat) (d : Dev) : KeepsNvm d (linkWait c d) := ⟨rfl, rfl⟩

theorem keepsNvm_halt (c cause : Nat) (d : Dev) : KeepsNvm d (halt c cause d) := by
  have hset : KeepsNvm d (setCh c { (chState c 4 (put (R.DMA.CH_STATUS.CAUSE c) cause d)).chS c with haltReq := false, wait := none }
      (chState c 4 (put (R.DMA.CH_STATUS.CAUSE c) cause d))) := ⟨rfl, rfl⟩
  unfold halt
  dsimp only
  exact (((((hset.trans (keepsNvm_event ..)).trans (keepsNvm_event ..)).trans (keepsNvm_when _ (keepsNvm_inc ..))).trans (keepsNvm_raise ..)).trans
    (keepsNvm_dmaPerf ..))

theorem keepsNvm_hostWrites (a : Nat) (bs : List Byte) (d : Dev) : KeepsNvm d (writeSpace 0 a bs d) := by
  rw [writeSpace, if_pos rfl]
  exact keepsNvm_each (fun (p : Nat × List Byte) d => (⟨rfl, rfl⟩ : KeepsNvm d (emit (.hostWrite p.1 p.2) d))) _ d

theorem keepsNvm_forward (c base size n : Nat) (m : Mem) (k : Nat) : ∀ (j : Nat) (d : Dev), KeepsNvm d (forward c base size n m k j d) := by
  induction k with
  | zero => exact fun _ d => keepsNvm_refl d
  | succ k ih =>
    intro j d
    rw [forward]
    exact ((keepsNvm_hostWrites ..).trans (keepsNvm_put ..)).trans (ih ..)

theorem keepsNvm_countBytes (c n : Nat) (d : Dev) : KeepsNvm d (countBytes c n d) := by
  unfold countBytes
  dsimp only
  refine KeepsNvm.trans (KeepsNvm.trans ?_ (keepsNvm_dmaPerf ..)) (keepsNvm_dmaPerf ..)
  exact ⟨rfl, rfl⟩

theorem keepsNvm_chDone (c : Nat) (d : Dev) : KeepsNvm d (chDone c d) := (keepsNvm_event ..).trans (keepsNvm_raise c _)

/-- The entries of a batch go to the host ring, the counts move on, and done is raised. -/
def entriesForwarded (c base size n lost send from' : Nat) (m : Mem) (d : Dev) : Dev :=
  let d := forward c base size n m send from' d
  let d := meterUser 2 (size * send) { d with ddr := { d.ddr with reports := d.ddr.reports + size * send } }
  let d := put (R.DMA.CH_RPT_DRD.COUNT c) (from' + send) d
  let d := dmaPerf 0xb lost (dmaStat c 4 lost d)
  let d := writeSpace 0 (d.get (R.DMA.CH_WB.ADDR c)) (leBytes 4 (d.get (R.DMA.CH_RPT_HWR.COUNT c))) d
  chDone c (chState c 2 (dmaPerf 0xa send (countBytes c (size * send) d)))

/-- A batch that is due: as many entries as the host ring has room for. -/
def batchTaken (c rgn size unread batch drd n : Nat) (m : Mem) (d : Dev) : Dev :=
  let used := (d.get (R.DMA.CH_RPT_HWR.COUNT c) + 2 ^ 32 - d.get (R.DMA.CH_RPT_HRD.COUNT c)) % 2 ^ 32
  let k := min (min batch unread) (2 ^ d.get (R.DMA.CH_RING.LOG2 c) - used)
  if k = 0 then chState c 3 d
  else
    let lost := if n ≤ unread then unread - n + 1 else 0
    let from' := (drd + lost) % 2 ^ 32
    let send := k - min k lost
    let base := (d.region rgn).1
    if (List.range send).any (fun i => (d.dramRead m (base + size * ((from' + i) % 2 ^ 32 % n)) size).2) then halt c 4 d
    else entriesForwarded c base size n lost send from' m d

/-- A batch that is not full waits for its time. -/
def batchAwaited (c ring drd n : Nat) (d : Dev) : Dev :=
  reach (dtAddNs (num d.dma.ringAt (2 ^ 32 * ring + drd % n)) (1000 * d.get (R.DMA.CH_RPT_CTL.MAX_US c) : Nat)) d

theorem reportBatch_eq {c ring rgn size w unread batch drd n : Nat} (m : Mem) {d : Dev} (hsrc : d.rptSource c = some (ring, rgn, size, w))
    (hdrd : drd = d.get (R.DMA.CH_RPT_DRD.COUNT c)) (hunread : unread = (w + 2 ^ 32 - drd) % 2 ^ 32)
    (hbatch : batch = max 1 (d.get (R.DMA.CH_RPT_CTL.BATCH c))) (hn : n = (d.region rgn).2 / size) : reportBatch c m d =
    if d.chMode c != 2 || (d.chState c != 2 && d.chState c != 3) || unread == 0 || n == 0 || !d.sliceOk c then d
    else if !d.hostOk then linkWait c d
    else if d.reportPace ≤ d.ddr.reports then d
    else batchTaken c rgn size unread batch drd n m (if unread < batch then batchAwaited c ring drd n d else d) := by
  subst hn hbatch hunread hdrd
  rw [reportBatch, hsrc]
  rfl

theorem keepsNvm_entriesForwarded (c base size n lost send from' : Nat) (m : Mem) (d : Dev) :
    KeepsNvm d (entriesForwarded c base size n lost send from' m d) := by
  unfold entriesForwarded
  have hfwd := keepsNvm_forward c base size n m send from' d
  generalize forward c base size n m send from' d = e at hfwd ⊢
  dsimp only
  refine KeepsNvm.trans (KeepsNvm.trans (KeepsNvm.trans (KeepsNvm.trans (KeepsNvm.trans ?_ (keepsNvm_dmaPerf ..)) (keepsNvm_hostWrites ..))
    (keepsNvm_countBytes ..)) (keepsNvm_dmaPerf ..)) ((keepsNvm_chState ..).trans (keepsNvm_chDone ..))
  exact ⟨hfwd.nvm, hfwd.rootHash⟩

theorem keepsNvm_batchTaken (c rgn size unread batch drd n : Nat) (m : Mem) (d : Dev) : KeepsNvm d (batchTaken c rgn size unread batch drd n m d) := by
  unfold batchTaken
  dsimp only
  exact keepsNvm_ite (keepsNvm_chState ..) (keepsNvm_ite (keepsNvm_halt ..) (keepsNvm_entriesForwarded ..))

theorem keepsNvm_reportBatch (c : Nat) (m : Mem) (d : Dev) : KeepsNvm d (reportBatch c m d) := by
  cases hsrc : d.rptSource c with
  | none =>
    rw [reportBatch, hsrc]
    exact keepsNvm_refl d
  | some src =>
    obtain ⟨ring, rgn, size, w⟩ := src
    rw [reportBatch_eq m hsrc rfl rfl rfl rfl]
    refine keepsNvm_ite (keepsNvm_refl d) (keepsNvm_ite (keepsNvm_linkWait c d) (keepsNvm_ite (keepsNvm_refl d) ?_))
    exact (keepsNvm_ite (keepsNvm_reach ..) (keepsNvm_refl d)).trans (keepsNvm_batchTaken ..)

theorem keepsNvm_portsStandby (d : Dev) : KeepsNvm d (portsStandby d) := by
  unfold portsStandby
  exact keepsNvm_each (fun p d => keepsNvm_ite (keepsNvm_refl d) (keepsNvm_lineStep (lineStep_sendMsg p 10 [1#8] d))) _ d

/-- The reports due and not yet forwarded leave. -/
def reportsLeft (m : Mem) (d : Dev) : Dev := each (fun c d => if d.chMode c = 2 ∧ d.chState c = 2 then reportBatch c m d else d) (List.range 32) d

theorem quiesce_eq (st : Nat) (acked : Bool) (m : Mem) (d : Dev) : quiesce st acked m d =
    let e := cancelsOut acked (put R.PWR.STATUS.STATE st d)
    portsStandby (reportsLeft m (reachNs e.dt 2000000 e)) := rfl

theorem keepsNvm_quiesce (st : Nat) (acked : Bool) (m : Mem) (d : Dev) : KeepsNvm d (quiesce st acked m d) := by
  have hreports (d : Dev) : KeepsNvm d (reportsLeft m d) :=
    keepsNvm_each (fun c d => keepsNvm_ite (keepsNvm_reportBatch c m d) (keepsNvm_refl d)) _ d
  rw [quiesce_eq]
  exact ((((keepsNvm_put ..).trans (keepsNvm_cancelsOut ..)).trans (keepsNvm_reachNs ..)).trans (hreports _)).trans (keepsNvm_portsStandby _)

theorem keepsNvm_linkDown (d : Dev) : KeepsNvm d (linkDown false d) := by
  have hlost : KeepsNvm d (endpointLost d) := by
    unfold endpointLost
    exact ⟨(keepsNvm_of_leaves (leaves_puts _ d)).nvm, (keepsNvm_of_leaves (leaves_puts _ d)).rootHash⟩
  have hlink (c : Nat) (d : Dev) : KeepsNvm d (linkLost c d) := by
    unfold linkLost
    exact keepsNvm_ite ⟨rfl, rfl⟩ (keepsNvm_refl d)
  rw [linkDown_eq, if_neg (by decide)]
  exact (hlost.trans (keepsNvm_of_leaves (downCounted_facts _).1)).trans (keepsNvm_each hlink _ _)

/-! ## OFF -/

/-- The device without supply but for AON: what it keeps, before AON's registers. -/
def offKept (d : Dev) : Dev := { ({} : Dev) with
    nvm := d.nvm, rootHash := d.rootHash, out := d.out, free := d.free, posted := d.posted
    tim := { ({} : TimS) with acc := d.tim.acc, epoch := d.tim.epoch, refRun := d.tim.refRun, refElig := d.tim.refElig
                              rcOnly := !(flag d.tim.refRun 0 || flag d.tim.refRun 1) }
    aon := { ({} : AonS) with off := true, perstN := d.aon.perstN, tripLogged := d.aon.tripLogged, alert := d.aon.alert || d.alertAsserted } }

/-- The registers of AON stand, and no domain but AON is on. -/
def offShown (fs : List (Fld × Nat)) (d : Dev) : Dev := puts [(R.PWR.DOM_ON_LO.ON, 1), (R.PWR.DOM_ON_HI.ON, 0)] (puts fs d)

theorem offDev_eq (d : Dev) : ∃ fs, offDev d = offShown fs (offKept d) := ⟨_, rfl⟩

theorem offShown_domains (fs : List (Fld × Nat)) (d : Dev) : (offShown fs d).domains = 1 := by
  unfold offShown Dev.domains
  simp (disch := decide) only [puts, get_put_ne, get_put_self]
  rfl

/-- OFF leaves AON, with DT and NVM. -/
theorem offDev_facts (d : Dev) (s : State) : (s.after (offDev d)).dev.aon.off = true ∧ (s.after (offDev d)).dev.domains = 1 ∧
    (s.after (offDev d)).dev.nvm = d.nvm ∧ (s.after (offDev d)).dev.rootHash = d.rootHash ∧ (s.after (offDev d)).dev.dt = d.dt ∧
    (s.after (offDev d)).dev.tim.epoch = d.tim.epoch := by
  obtain ⟨fs, heq⟩ := offDev_eq d
  have hdom := offShown_domains fs (offKept d)
  have hl : Leaves _ (offKept d) (offShown fs (offKept d)) := (leaves_puts fs _).trans (leaves_puts _ _)
  have htim : (offShown fs (offKept d)).tim = (offKept d).tim := tim_of_leaves hl
  have haon : (offShown fs (offKept d)).aon = (offKept d).aon := aon_of_leaves hl
  have hnvm : (offShown fs (offKept d)).nvm = (offKept d).nvm := nvm_of_leaves hl
  have hroot : (offShown fs (offKept d)).rootHash = (offKept d).rootHash := rootHash_of_leaves hl
  rw [heq]
  generalize offShown fs (offKept d) = e at *
  refine ⟨?_, ?_, (after_nvm ..).trans hnvm, (after_rootHash ..).trans hroot, ?_, ?_⟩
  · rw [after_aon, haon]
    rfl
  · rw [Dev.domains, get_after, get_after]
    exact hdom
  · rw [Dev.dt, after_tim, htim]
    rfl
  · rw [after_tim, htim]
    rfl

theorem standby_completes (acked : Bool) (s : State) (hp : s.dev.takesPower = true) :
    Completes (.standby acked false) s (fun t => t.dev.get R.PWR.STATUS.STATE = 3 ∧ t.dev.get R.PWR.PLL.RUN = 0 ∧ t.dev.get R.PWR.PLL.LOCK = 0 ∧
      t.dev.vrd.pend = [] ∧ t.dev.objQ = [] ∧ t.dev.homeQ = []) := by
  have hgo : goStandby acked false s.mem s.dev = standby acked s.mem s.dev := by
    rw [goStandby, if_neg (by simp [hp]), if_neg (by decide)]
  refine completes_total (exec_standby acked false s) ?_
  rw [hgo]
  obtain ⟨hstate, hrun, hlock, hpend, hobj, hhome⟩ := standby_facts acked s.mem s.dev
  generalize standby acked s.mem s.dev = e at hstate hrun hlock hpend hobj hhome ⊢
  exact ⟨(get_after ..).trans hstate, (get_after ..).trans hrun, (get_after ..).trans hlock, (congrArg VrdS.pend (after_vrd ..)).trans hpend,
    (after_objQ ..).trans hobj, (after_homeQ ..).trans hhome⟩

/-- A wake source before the end of STANDBY returns to RUN. -/
theorem standby_woken (acked : Bool) (s : State) (hp : s.dev.takesPower = true) :
    Completes (.standby acked true) s (fun t => t.dev.get R.PWR.STATUS.STATE = 1 ∧ t.dev.vrd.pend = []) := by
  have hgo : goStandby acked true s.mem s.dev = put R.PWR.STATUS.STATE 1 (commandsGone acked (cancelsSent s.dev)) := by
    rw [goStandby, if_neg (by simp [hp]), if_pos rfl, cancelsOut_eq]
  refine completes_total (exec_standby acked true s) ?_
  rw [hgo]
  have hpend := commandsGone_pend acked (cancelsSent s.dev)
  generalize commandsGone acked (cancelsSent s.dev) = e at hpend ⊢
  exact ⟨(get_after ..).trans ((get_put_self ..).trans rfl), (congrArg VrdS.pend (after_vrd ..)).trans hpend⟩

theorem off_completes (acked : Bool) (s : State) (hp : s.dev.takesPower = true) :
    Completes (.off acked false) s (fun t => t.dev.aon.off = true ∧ t.dev.domains = 1 ∧ t.dev.nvm = s.dev.nvm ∧ t.dev.rootHash = s.dev.rootHash) := by
  have hstate : s.dev.get R.PWR.STATUS.STATE = 1 := by
    rw [Dev.takesPower, Bool.and_eq_true, beq_iff_eq, beq_iff_eq] at hp
    exact hp.2
  have hgo : goOff acked false s.mem s.dev = offDev (linkDown false (quiesce 5 acked s.mem s.dev)) := by
    rw [goOff, if_neg (by simp [hstate]), if_neg (by simp [hp]), if_neg (by decide)]
  have hkeep := (keepsNvm_quiesce 5 acked s.mem s.dev).trans (keepsNvm_linkDown _)
  refine completes_total (exec_off acked false s) ?_
  rw [hgo]
  generalize linkDown false (quiesce 5 acked s.mem s.dev) = e at hkeep ⊢
  obtain ⟨hoff, hdom, hnvm, hroot, -⟩ := offDev_facts e s
  exact ⟨hoff, hdom, hnvm.trans hkeep.nvm, hroot.trans hkeep.rootHash⟩

theorem asleep_off_completes (acked wk : Bool) (s : State) (hm : s.dev.get R.TOP.STATE.MODE = 1) (hs : s.dev.get R.PWR.STATUS.STATE = 3) :
    Completes (.off acked wk) s (fun t => t.dev.aon.off = true ∧ t.dev.domains = 1 ∧ t.dev.nvm = s.dev.nvm ∧ t.dev.dt = s.dev.dt ∧
      t.dev.tim.epoch = s.dev.tim.epoch) := by
  obtain ⟨hoff, hdom, hnvm, -, hdt, hep⟩ := offDev_facts s.dev s
  exact completes_to (exec_off acked wk s) (offDev s.dev) (if_pos ⟨hm, hs⟩) ⟨hoff, hdom, hnvm, hdt, hep⟩

/-- Settles O60: per command, from what `put`, `event`, `standby`, `offDev` and `wakeStandby` leave. -/
theorem calibrationRecipesAndPowerStates : Obligations.CalibrationRecipesAndPowerStates :=
  ⟨calCmdRun_completes, caliperRun_completes, caliperRunDone_completes, codeStep_completes, recipeNext_completes, recipeArmed_completes,
    recipeArmed_faults, fun acked s hp => ⟨standby_completes acked s hp, standby_woken acked s hp, off_completes acked s hp⟩, asleep_off_completes, wake_completes, wakeAlarm_completes, wakeEvent_completes⟩

end Sys2Proof.Proofs
end

section
/-!
The recorder: lines refused or coded into chunks, the freeze, and its commands (R410 to R417).
-/
namespace Sys2Proof.Proofs
open Sys2Proof Sys2Proof.Machine

/-! ## Counters and the state of the recorder -/

theorem leaves_cmpPerf (code n : Nat) (d : Dev) : Leaves [] d (cmpPerf code n d) := leaves_perf _ (by unfold PerfBase; decide) code n d

theorem leaves_cmpStat (c n : Nat) (d : Dev) : Leaves [R.CMP.STAT.COUNT c] d (cmpStat c n d) := leaves_put ..

theorem counted_cmpStat (c n : Nat) (d : Dev) : Counted (R.CMP.STAT.COUNT c) n d (cmpStat c n d) := get_put_self ..

/-- The device with another state of the recorder and its engines. -/
def withCmp (x : CmpS) (d : Dev) : Dev := { d with cmp := x }

theorem setsPart_withCmp : SetsPart withCmp := fun _ _ => ⟨rfl, rfl⟩

/-- From `d` to `e` only these registers, the books and the state of the recorder and its engines have changed. -/
def CmpStep (fs : List Fld) (d e : Dev) : Prop := Upto withCmp fs d e

section
variable {fs gs : List Fld} {d e g : Dev}

theorem CmpStep.trans (h : CmpStep fs d e) (h' : CmpStep gs e g) : CmpStep (fs ++ gs) d g := Upto.trans h h'

theorem cmpStep_of_leaves (h : Leaves fs d e) : CmpStep fs d e := upto_of_leaves setsPart_withCmp h

theorem cmpStep_setRec (x : RecS) (d : Dev) : CmpStep [] d (setRec x d) := upto_of_eq fun _ => rfl

theorem cmpStep_setJob (e : Nat) (x : JobS) (d : Dev) : CmpStep [] d (setJob e x d) := upto_of_eq fun _ => rfl

theorem CmpStep.frame (h : CmpStep fs d e) (s : State) : Frame fs { d with cmp := (s.after e).dev.cmp } s (s.after e) := frame_of_upto h s e.cmp rfl

theorem CmpStep.get (h : CmpStep fs d e) {f : Fld} (hb : bookKey f.key = false) (hf : f.key ∉ fs.map Fld.key) : e.get f = d.get f :=
  (h.leaves d.cmp).get hb hf

end

/-! ## Lines refused -/

/-- The registers that count a refused line, by its lathe. -/
def refuseRegs (n : Nat) : List Fld :=
  [R.CMP.STAT.COUNT 2, R.LTH.STATUS.SEQ n, R.LTH.STATUS.TAP_DROP n, R.LTH.TAP_DROPS.COUNT n, R.FUS.STATUS.SEQ, R.FUS.STATUS.TAP_DROP, R.FUS.STAT.COUNT 14,
    R.CLS.STATUS.SEQ, R.CLS.STATUS.TAP_DROP, R.CLS.STAT.COUNT 10]

/-- What a refused line does beside the recorder's state. -/
def refusalCounted (l : TapLine) (d : Dev) : Dev :=
  let d := cmpPerf 3 1 (cmpStat 2 1 d)
  if l.tap ≤ 3 then tapDrop l.lathe d else if l.tap = 4 then fusTapDrop d else clsTapDrop d

/-- The recorder has refused one more line. -/
def lineRefused (x : RecS) : RecS := { x with gap := true, dropped := x.dropped + 1 }

theorem refuseLine_eq (l : TapLine) (d : Dev) : refuseLine l d = refusalCounted l (setRec (lineRefused d.cmp.recorder) d) := rfl

/-- A flag raised, a counter and a performance event: what a tap drop shows. -/
theorem leaves_dropShown (blk : Nat) {base : Nat} (hb : PerfBase base) (code : Nat) (seq flag count : Fld) (d : Dev) :
    Leaves [seq, flag, count] d (perf blk base code 1 (inc count 1 (event blk seq [flag] d))) := by
  have he : Leaves [seq, flag] d (event blk seq [flag] d) := leaves_event ..
  have hc : Leaves [count] (event blk seq [flag] d) (inc count 1 (event blk seq [flag] d)) := leaves_put ..
  exact (he.trans hc).trans (leaves_perf blk hb ..)

theorem leaves_tapDrops (l : TapLine) (d : Dev) :
    Leaves ((refuseRegs l.lathe).drop 1) d (if l.tap ≤ 3 then tapDrop l.lathe d else if l.tap = 4 then fusTapDrop d else clsTapDrop d) := by
  have hl := leaves_dropShown 10 (perfBase_lth l.lathe) 0xe (R.LTH.STATUS.SEQ l.lathe) (R.LTH.STATUS.TAP_DROP l.lathe) (R.LTH.TAP_DROPS.COUNT l.lathe) d
  have hf := leaves_dropShown 11 (base := 0x800000) (by unfold PerfBase; decide) 0xc R.FUS.STATUS.SEQ R.FUS.STATUS.TAP_DROP (R.FUS.STAT.COUNT 14) d
  have hc := leaves_dropShown 12 (base := 0xc00000) (by unfold PerfBase; decide) 0xc R.CLS.STATUS.SEQ R.CLS.STATUS.TAP_DROP (R.CLS.STAT.COUNT 10) d
  rw [tapDrop, fusTapDrop, fusPerf, fusStat, clsTapDrop, clsPerf, clsStat]
  split
  · exact hl.mono (by simp [refuseRegs])
  · split
    · exact hf.mono (by simp [refuseRegs])
    · exact hc.mono (by simp [refuseRegs])

/-- The registers that a refused line of a lathe leaves. -/
def recorderRegs : List Fld :=
  [R.CMP.STATUS.STATE, R.CMP.STATUS.FROZEN, R.CMP.REC_FRZ_LAST.CSEQ, R.TOP.DRAM_YIELD.SEQ, R.TOP.DRAM_YIELD.RECORDER]

theorem recorderRegs_other {n : Nat} (hn : n < 8) : ∀ f ∈ recorderRegs, bookKey f.key = false ∧ f.key ∉ (refuseRegs n).map Fld.key := by
  decide +revert +kernel

theorem count_tapDrops {n : Nat} (hn : n < 8) : (R.CMP.STAT.COUNT 2).key ∉ ((refuseRegs n).drop 1).map Fld.key := by decide +revert +kernel

theorem refusalCounted_facts {l : TapLine} (hn : l.lathe < 8) (d : Dev) :
    Leaves (refuseRegs l.lathe) d (refusalCounted l d) ∧ Counted (R.CMP.STAT.COUNT 2) 1 d (refusalCounted l d) := by
  have hc := counted_cmpStat 2 1 d
  have hs := (leaves_cmpStat 2 1 d).trans (leaves_cmpPerf 3 1 _)
  have hkeep := (leaves_cmpPerf 3 1 (cmpStat 2 1 d)).get (f := R.CMP.STAT.COUNT 2) (by decide) (by simp)
  unfold refusalCounted
  generalize cmpPerf 3 1 (cmpStat 2 1 d) = e at hs hkeep ⊢
  have ht := leaves_tapDrops l e
  dsimp only
  generalize (if l.tap ≤ 3 then tapDrop l.lathe e else if l.tap = 4 then fusTapDrop e else clsTapDrop e) = g at ht ⊢
  exact ⟨hs.trans ht, counted_of_get hc rfl ((ht.get (by decide) (count_tapDrops hn)).trans hkeep)⟩

/-- What a refused line leaves and notes. -/
structure Refused (d e : Dev) : Prop where
  recQ : e.recQ = d.recQ
  recorder : e.cmp.recorder = lineRefused d.cmp.recorder
  count : Counted (R.CMP.STAT.COUNT 2) 1 d e
  regs : ∀ f ∈ recorderRegs, e.get f = d.get f
  posted : e.posted = d.posted

theorem refuseLine_facts {l : TapLine} (hn : l.lathe < 8) (d : Dev) : Refused d (refuseLine l d) := by
  obtain ⟨hl, hc⟩ := refusalCounted_facts hn (setRec (lineRefused d.cmp.recorder) d)
  rw [refuseLine_eq]
  generalize hx : setRec (lineRefused d.cmp.recorder) d = x at hl hc
  generalize refusalCounted l x = e at hl hc
  subst hx
  exact ⟨(recQ_of_leaves hl).trans rfl, congrArg CmpS.recorder (cmp_of_leaves hl), hc, fun f hf => hl.get (recorderRegs_other hn f hf).1 (recorderRegs_other hn f hf).2,
    hl.posted⟩

/-! ## The oldest tap line -/

/-- The recorder takes a line. -/
def lineTaken (refuse : Bool) (l : TapLine) (d : Dev) : Dev :=
  let st := d.get R.CMP.STATUS.STATE
  if st = 0 then refuseLine l d
  else if !d.recRegionOk then refuseLine l (recDenied d)
  else
    let t := dtAddNs (d.get R.CMP.REC_TDT.DT) (1000000 * d.get R.CMP.REC_WIN.POST_MS : Nat)
    if st = 2 && dtGe l.dtExp t then refuseLine l (freeze d)
    else if st = 3 then refuseLine l d
    else if d.stagingFull then refuseLine l (holdUser 5 d)
    else if refuse || !d.staging then refuseLine l d
    else each (recTapPiece l) l.pieces d

/-- The device with other lines at the recorder's input. -/
def withRecQ (q : List TapLine) (d : Dev) : Dev := { d with recQ := q }

theorem recLine_cons {d : Dev} {l : TapLine} {rest : List TapLine} (h : d.recQ = l :: rest) (refuse : Bool) :
    recLine refuse d = lineTaken refuse l (withRecQ rest d) := by
  unfold recLine
  rw [h]
  rfl

theorem tapLine_stopped (refuse : Bool) (l : TapLine) (rest : List TapLine) (s : State) (hq : s.dev.recQ = l :: rest) (hn : l.lathe < 8)
    (hst : s.dev.get R.CMP.STATUS.STATE = 0) : Completes (.recorderTapLine refuse) s (fun t =>
      t.dev.recQ = rest ∧ t.dev.cmp.recorder.gap = true ∧ t.dev.cmp.recorder.dropped = s.dev.cmp.recorder.dropped + 1 ∧
      t.dev.cmp.recorder.chunk = s.dev.cmp.recorder.chunk ∧ Counted (R.CMP.STAT.COUNT 2) 1 s.dev t.dev) := by
  have hf := refuseLine_facts hn (withRecQ rest s.dev)
  refine completes_to (exec_recorderTapLine refuse s) (refuseLine l (withRecQ rest s.dev)) ((recLine_cons hq refuse).trans (if_pos hst)) ?_
  generalize refuseLine l (withRecQ rest s.dev) = e at hf ⊢
  have hrec : (s.after e).dev.cmp.recorder = lineRefused s.dev.cmp.recorder := (congrArg CmpS.recorder (after_cmp ..)).trans hf.recorder
  rw [hrec]
  exact ⟨(after_recQ ..).trans hf.recQ, rfl, rfl, rfl, counted_of_get hf.count rfl (get_after ..)⟩

theorem tapLine_held (refuse : Bool) (l : TapLine) (rest : List TapLine) (s : State) (hq : s.dev.recQ = l :: rest) (hn : l.lathe < 8)
    (hst : s.dev.get R.CMP.STATUS.STATE = 1) (hrgn : s.dev.recRegionOk = true) (hfull : s.dev.stagingFull = true) :
    Completes (.recorderTapLine refuse) s (fun t =>
      t.dev.recQ = rest ∧ t.dev.cmp.recorder.gap = true ∧ t.dev.cmp.recorder.dropped = s.dev.cmp.recorder.dropped + 1 ∧
      Counted (R.CMP.STAT.COUNT 2) 1 s.dev t.dev ∧ Raised R.TOP.DRAM_YIELD.SEQ [R.TOP.DRAM_YIELD.RECORDER] s.dev t.dev) := by
  have hst' : (withRecQ rest s.dev).get R.CMP.STATUS.STATE = 1 := hst
  have hrgn' : (withRecQ rest s.dev).recRegionOk = true := hrgn
  have hfull' : (withRecQ rest s.dev).stagingFull = true := hfull
  have hline : lineTaken refuse l (withRecQ rest s.dev) = refuseLine l (holdUser 5 (withRecQ rest s.dev)) := by
    rw [lineTaken, if_neg (by simp [hst']), if_neg (by simp [hrgn'])]
    dsimp only
    rw [if_neg (by simp [hst']), if_neg (by simp [hst']), if_pos hfull']
  obtain ⟨hup, hr, -⟩ := holdUser_facts (u := 5) (by decide) (withRecQ rest s.dev)
  have hup := hup.leaves []
  generalize holdUser 5 (withRecQ rest s.dev) = g at hline hup hr
  have hf := refuseLine_facts hn g
  refine completes_to (exec_recorderTapLine refuse s) (refuseLine l g) ((recLine_cons hq refuse).trans hline) ?_
  generalize refuseLine l g = e at hf ⊢
  have hgq : (withYielding [] g).recQ = rest := (recQ_of_leaves hup).trans rfl
  have hgrec : (withYielding [] g).cmp = s.dev.cmp := (cmp_of_leaves hup).trans rfl
  have hgc : (withYielding [] g).get (R.CMP.STAT.COUNT 2) = s.dev.get (R.CMP.STAT.COUNT 2) := hup.get (by decide) (by decide)
  have hrec : (s.after e).dev.cmp.recorder = lineRefused s.dev.cmp.recorder :=
    (congrArg CmpS.recorder (after_cmp ..)).trans (hf.recorder.trans (congrArg (fun x => lineRefused (CmpS.recorder x)) hgrec))
  rw [hrec]
  refine ⟨(after_recQ ..).trans (hf.recQ.trans hgq), rfl, rfl, counted_of_get hf.count hgc (get_after ..), ?_⟩
  exact raised_after ⟨(hf.regs _ (by simp [recorderRegs])).trans hr.1, fun f hf' =>
    (congrArg (· == 1) (hf.regs f (by simp [recorderRegs, List.mem_singleton.mp hf', yieldFlag]))).trans (hr.2 f hf')⟩ s

/-! ## The freeze -/

/-- A recorder frozen at chunk `k` with `n` chunks kept. -/
def frozenAt (k n : Nat) (d : Dev) : Dev :=
  event 0x15 R.CMP.STATUS.SEQ [R.CMP.STATUS.FROZEN]
    (puts [(R.CMP.REC_FRZ_FIRST.CSEQ, k + 2 ^ 32 - n), (R.CMP.REC_FRZ_LAST.CSEQ, k + 2 ^ 32 - 1), (R.CMP.STATUS.STATE, 3)] d)

theorem freeze_closed {d : Dev} (hopen : d.cmp.recorder.opened = none) (hst : d.get R.CMP.STATUS.STATE ≠ 0) :
    freeze d = frozenAt (d.get R.CMP.REC_WR.CSEQ) (min d.cmp.recorder.written (d.get R.CMP.REC_CHUNKS.NCH)) d := by
  have hclose : closeChunk true d = d := by
    unfold closeChunk
    dsimp only
    rw [if_pos (by simp [hopen])]
  unfold freeze frozenAt
  rw [hclose]
  dsimp only
  rw [if_neg hst]

theorem frozenAt_facts (k n : Nat) (d : Dev) :
    Leaves [R.CMP.REC_FRZ_FIRST.CSEQ, R.CMP.REC_FRZ_LAST.CSEQ, R.CMP.STATUS.STATE, R.CMP.STATUS.SEQ, R.CMP.STATUS.FROZEN] d (frozenAt k n d) ∧
    (frozenAt k n d).get R.CMP.STATUS.STATE = 3 ∧ (frozenAt k n d).get R.CMP.REC_FRZ_LAST.CSEQ = (k + 2 ^ 32 - 1) % 2 ^ 32 ∧
    (frozenAt k n d).get R.CMP.STATUS.FROZEN = 1 := by
  have hp := leaves_puts [(R.CMP.REC_FRZ_FIRST.CSEQ, k + 2 ^ 32 - n), (R.CMP.REC_FRZ_LAST.CSEQ, k + 2 ^ 32 - 1), (R.CMP.STATUS.STATE, 3)] d
  have hs : (puts [(R.CMP.REC_FRZ_FIRST.CSEQ, k + 2 ^ 32 - n), (R.CMP.REC_FRZ_LAST.CSEQ, k + 2 ^ 32 - 1), (R.CMP.STATUS.STATE, 3)] d).get R.CMP.STATUS.STATE = 3 := by
    simp only [puts, get_put_self]
    rfl
  have hlast : (puts [(R.CMP.REC_FRZ_FIRST.CSEQ, k + 2 ^ 32 - n), (R.CMP.REC_FRZ_LAST.CSEQ, k + 2 ^ 32 - 1), (R.CMP.STATUS.STATE, 3)] d).get
      R.CMP.REC_FRZ_LAST.CSEQ = (k + 2 ^ 32 - 1) % 2 ^ 32 := by
    simp (disch := decide) only [puts, get_put_ne, get_put_self]
    rfl
  unfold frozenAt
  generalize puts [(R.CMP.REC_FRZ_FIRST.CSEQ, k + 2 ^ 32 - n), (R.CMP.REC_FRZ_LAST.CSEQ, k + 2 ^ 32 - 1), (R.CMP.STATUS.STATE, 3)] d = e at hp hs hlast ⊢
  have hev : Leaves [R.CMP.STATUS.SEQ, R.CMP.STATUS.FROZEN] e (event 0x15 R.CMP.STATUS.SEQ [R.CMP.STATUS.FROZEN] e) := leaves_event ..
  exact ⟨hp.trans hev, (hev.get (by decide) (by decide)).trans hs, (hev.get (by decide) (by decide)).trans hlast,
    get_event_flag (by decide) (by decide) (by simp) ..⟩

theorem tapLine_freezes (refuse : Bool) (l : TapLine) (rest : List TapLine) (s : State) (hq : s.dev.recQ = l :: rest) (hn : l.lathe < 8)
    (hst : s.dev.get R.CMP.STATUS.STATE = 2) (hrgn : s.dev.recRegionOk = true) (hopen : s.dev.cmp.recorder.opened = none)
    (hpost : dtGe l.dtExp (dtAddNs (s.dev.get R.CMP.REC_TDT.DT) (1000000 * s.dev.get R.CMP.REC_WIN.POST_MS : Nat)) = true) :
    Completes (.recorderTapLine refuse) s (fun t =>
      t.dev.get R.CMP.STATUS.STATE = 3 ∧ t.dev.cmp.recorder.gap = true ∧
      t.dev.get R.CMP.REC_FRZ_LAST.CSEQ = (s.dev.get R.CMP.REC_WR.CSEQ + 2 ^ 32 - 1) % 2 ^ 32 ∧
      t.dev.on R.CMP.STATUS.FROZEN = true ∧ t.mem = (s.after s.dev).mem) := by
  have hst' : (withRecQ rest s.dev).get R.CMP.STATUS.STATE = 2 := hst
  have hrgn' : (withRecQ rest s.dev).recRegionOk = true := hrgn
  have hpost' : dtGe l.dtExp (dtAddNs ((withRecQ rest s.dev).get R.CMP.REC_TDT.DT) (1000000 * (withRecQ rest s.dev).get R.CMP.REC_WIN.POST_MS : Nat)) = true := hpost
  have hline : lineTaken refuse l (withRecQ rest s.dev) = refuseLine l (freeze (withRecQ rest s.dev)) := by
    rw [lineTaken, if_neg (by simp [hst']), if_neg (by simp [hrgn'])]
    dsimp only
    rw [if_pos (by simp only [hst', hpost']; rfl)]
  rw [freeze_closed (d := withRecQ rest s.dev) hopen (by simp [hst'])] at hline
  generalize hnn : min (withRecQ rest s.dev).cmp.recorder.written ((withRecQ rest s.dev).get R.CMP.REC_CHUNKS.NCH) = n at hline
  obtain ⟨hl, hs, hlast, hfl⟩ := frozenAt_facts ((withRecQ rest s.dev).get R.CMP.REC_WR.CSEQ) n (withRecQ rest s.dev)
  generalize frozenAt ((withRecQ rest s.dev).get R.CMP.REC_WR.CSEQ) n (withRecQ rest s.dev) = g at hline hl hs hlast hfl
  have hf := refuseLine_facts hn g
  refine completes_to (exec_recorderTapLine refuse s) (refuseLine l g) ((recLine_cons hq refuse).trans hline) ?_
  generalize refuseLine l g = e at hf ⊢
  have hgap : (s.after e).dev.cmp.recorder.gap = true := (congrArg (fun x : CmpS => x.recorder.gap) (after_cmp ..)).trans (congrArg RecS.gap hf.recorder)
  have hposted : e.posted = s.dev.posted := hf.posted.trans (hl.posted.trans rfl)
  refine ⟨(get_after ..).trans ((hf.regs _ (by simp [recorderRegs])).trans hs), hgap, (get_after ..).trans ((hf.regs _ (by simp [recorderRegs])).trans hlast), ?_,
    congrArg s.mem.applyAll hposted⟩
  rw [Dev.on, get_after, hf.regs _ (by simp [recorderRegs]), hfl]
  rfl

/-! ## The recorder's commands -/

theorem recorderTrigger_starts (s : State) (hst : s.dev.get R.CMP.STATUS.STATE = 1) : Completes .recorderTrigger s (fun t =>
    t.dev.get R.CMP.STATUS.STATE = 2 ∧ t.dev.get R.CMP.REC_TDT.DT = s.dev.dt ∧ Counted (R.CMP.STAT.COUNT 5) 1 s.dev t.dev ∧
    Frame [R.CMP.STATUS.STATE, R.CMP.REC_TDT.DT, R.CMP.STAT.COUNT 5] s.dev s t) := by
  have hl : Leaves [R.CMP.REC_TDT.DT, R.CMP.STATUS.STATE, R.CMP.STAT.COUNT 5] s.dev
      (inc (R.CMP.STAT.COUNT 5) 1 (put R.CMP.STATUS.STATE 2 (put R.CMP.REC_TDT.DT s.dev.dt s.dev))) :=
    ((leaves_put ..).trans (leaves_put ..)).trans (leaves_put ..)
  refine completes_to (exec_recorderTrigger s) _ (if_pos hst) ⟨?_, ?_, ?_, frame_of_leaves (hl.mono (by decide)) s⟩
  · rw [get_after, inc]
    simp (disch := decide) only [get_put_ne, get_put_self]
    rfl
  · rw [get_after, inc]
    simp (disch := decide) only [get_put_ne, get_put_self]
    exact Nat.mod_eq_of_lt (dt_lt s.dev)
  · rw [Counted, get_after, inc]
    simp (disch := decide) only [get_put_ne, get_put_self]

theorem recorderTrigger_dropped (s : State) (hst : 2 ≤ s.dev.get R.CMP.STATUS.STATE) : Completes .recorderTrigger s (fun t =>
    Raised R.CMP.STATUS.SEQ [R.CMP.STATUS.TRIG_DROP] s.dev t.dev ∧ Counted (R.CMP.STAT.COUNT 6) 1 s.dev t.dev ∧
    Frame [R.CMP.STATUS.SEQ, R.CMP.STATUS.TRIG_DROP, R.CMP.STAT.COUNT 6] s.dev s t) := by
  have hev : Leaves [R.CMP.STATUS.SEQ, R.CMP.STATUS.TRIG_DROP] s.dev (event 0x15 R.CMP.STATUS.SEQ [R.CMP.STATUS.TRIG_DROP] s.dev) := leaves_event ..
  have hr : Raised R.CMP.STATUS.SEQ [R.CMP.STATUS.TRIG_DROP] s.dev (event 0x15 R.CMP.STATUS.SEQ [R.CMP.STATUS.TRIG_DROP] s.dev) :=
    raised_event (by decide) (by decide) (by decide) rfl
  refine completes_to (exec_recorderTrigger s) (cmpStat 6 1 (event 0x15 R.CMP.STATUS.SEQ [R.CMP.STATUS.TRIG_DROP] s.dev)) ?_ ?_
  · rw [recTrigger, if_neg (by omega), if_neg (by omega)]
    rfl
  generalize event 0x15 R.CMP.STATUS.SEQ [R.CMP.STATUS.TRIG_DROP] s.dev = e at hev hr ⊢
  exact ⟨raised_after (raised_then hr (leaves_cmpStat 6 1 e) (by decide) (by decide)) s,
    counted_of_get (counted_cmpStat 6 1 e) (hev.get (by decide) (by decide)) (get_after ..), frame_of_leaves (hev.trans (leaves_cmpStat 6 1 e)) s⟩

theorem recorderRelease_completes (s : State) (hst : s.dev.get R.CMP.STATUS.STATE = 3) : Completes .recorderRelease s (fun t =>
    t.dev.get R.CMP.STATUS.STATE = 1 ∧ t.dev.cmp.recorder = { s.dev.cmp.recorder with gap := true } ∧
    Frame [R.CMP.STATUS.STATE] { s.dev with cmp := t.dev.cmp } s t) := by
  have hstep : CmpStep [R.CMP.STATUS.STATE] s.dev (put R.CMP.STATUS.STATE 1 (setRec { s.dev.cmp.recorder with gap := true } s.dev)) :=
    (cmpStep_setRec ..).trans (cmpStep_of_leaves (leaves_put ..))
  exact completes_to (exec_recorderRelease s) _ (if_pos hst) ⟨(get_after ..).trans ((get_put_self ..).trans rfl), rfl, hstep.frame s⟩

theorem codecSelfTest_completes (ok : Bool) (s : State) (hen : s.dev.on R.CMP.CTL.EN = true) : Completes (.codecSelfTest ok) s (fun t =>
    t.dev.cmp.recorder = { s.dev.cmp.recorder with raw := !ok } ∧
    (ok = false → Raised R.CMP.STATUS.SEQ [R.CMP.STATUS.ST_FAIL] s.dev t.dev) ∧
    Frame (if ok then [] else [R.CMP.STATUS.SEQ, R.CMP.STATUS.ST_FAIL]) { s.dev with cmp := t.dev.cmp } s t) := by
  have hset := cmpStep_setRec { s.dev.cmp.recorder with raw := !ok } s.dev
  have hp := leaves_cmpPerf 0xc 1 (setRec { s.dev.cmp.recorder with raw := !ok } s.dev)
  have hrec : (cmpPerf 0xc 1 (setRec { s.dev.cmp.recorder with raw := !ok } s.dev)).cmp.recorder = { s.dev.cmp.recorder with raw := !ok } :=
    congrArg CmpS.recorder (cmp_of_leaves hp)
  have hseq : (cmpPerf 0xc 1 (setRec { s.dev.cmp.recorder with raw := !ok } s.dev)).get R.CMP.STATUS.SEQ = s.dev.get R.CMP.STATUS.SEQ :=
    hp.get (by decide) (by simp)
  have hstep := hset.trans (cmpStep_of_leaves hp)
  cases ok with
  | true =>
    refine completes_to (exec_codecSelfTest true s) (cmpPerf 0xc 1 (setRec { s.dev.cmp.recorder with raw := !true } s.dev))
      ((if_neg (by simp [hen])).trans (if_pos rfl)) ?_
    generalize cmpPerf 0xc 1 (setRec { s.dev.cmp.recorder with raw := !true } s.dev) = e at hrec hstep ⊢
    exact ⟨(congrArg CmpS.recorder (after_cmp s e)).trans hrec, by simp, hstep.frame s⟩
  | false =>
    refine completes_to (exec_codecSelfTest false s)
      (logEv 0x158a 0 2 0 (event 0x15 R.CMP.STATUS.SEQ [R.CMP.STATUS.ST_FAIL] (cmpPerf 0xc 1 (setRec { s.dev.cmp.recorder with raw := !false } s.dev))))
      ((if_neg (by simp [hen])).trans (if_neg (by decide))) ?_
    generalize cmpPerf 0xc 1 (setRec { s.dev.cmp.recorder with raw := !false } s.dev) = e at hrec hstep hseq ⊢
    have hr : Raised R.CMP.STATUS.SEQ [R.CMP.STATUS.ST_FAIL] s.dev (event 0x15 R.CMP.STATUS.SEQ [R.CMP.STATUS.ST_FAIL] e) :=
      raised_event (by decide) (by decide) (by decide) hseq
    have hev : Leaves [R.CMP.STATUS.SEQ, R.CMP.STATUS.ST_FAIL] e (event 0x15 R.CMP.STATUS.SEQ [R.CMP.STATUS.ST_FAIL] e) := leaves_event ..
    generalize event 0x15 R.CMP.STATUS.SEQ [R.CMP.STATUS.ST_FAIL] e = g at hr hev ⊢
    have hlog := leaves_logEv 0x158a 0 2 0 g
    generalize logEv 0x158a 0 2 0 g = k at hlog ⊢
    refine ⟨(congrArg CmpS.recorder ((cmp_of_leaves hlog).trans (cmp_of_leaves hev))).trans hrec, fun _ => ?_,
      (hstep.trans (cmpStep_of_leaves (hev.trans hlog))).frame s⟩
    exact raised_after (raised_then hr hlog (by decide) (by simp)) s

/-! ## A chunk written -/

/-- The bytes of a closed chunk. -/
def chunkBytes (last : Bool) (d : Dev) : List Byte :=
  chunkHead d last ++ d.cmp.recorder.chunk ++
    (List.range (65472 - d.cmp.recorder.chunk.length)).map (fun i => BitVec.ofNat 8 (Config.free (d.free + i)))

/-- The place of the open chunk in the ring. -/
def chunkBase (d : Dev) : Nat :=
  (d.region (d.get R.CMP.CTL.REC_RGN)).1 + 65536 * (d.get R.CMP.REC_WR.CSEQ % max 1 (d.get R.CMP.REC_CHUNKS.NCH))

/-- The open chunk is on its way to the ring, and the recorder has none. -/
def chunkStored (last : Bool) (d : Dev) : Dev :=
  setRec { d.cmp.recorder with chunk := [], count := 0, opened := none, refs := [], written := d.cmp.recorder.written + 1
                               rem := (d.cmp.recorder.rem + d.cmp.recorder.chunk.length) % 64 }
    (meterUser 5 65536 (dramWrite (chunkBase d) (chunkBytes last d) { d with free := d.free + (65472 - d.cmp.recorder.chunk.length) }))

/-- The counts of a written chunk. -/
def chunkCounted (n k : Nat) (gap : Bool) (d : Dev) : Dev :=
  cmpPerf 2 n (cmpPerf 4 1 (cmpStat 4 1 (when gap (cmpStat 3 1) (put R.CMP.REC_WR.CSEQ k d))))

theorem setRec_dramWrite (f : RecS → RecS) (u n a : Nat) (bs : List Byte) (d : Dev) :
    setRec (f (meterUser u n (dramWrite a bs d)).cmp.recorder) (meterUser u n (dramWrite a bs d)) =
      setRec (f d.cmp.recorder) (meterUser u n (dramWrite a bs d)) := by
  rw [dramWrite_eq]
  rfl

theorem closeChunk_eq {d : Dev} (hopen : d.cmp.recorder.opened.isSome = true) (hrgn : d.recRegionOk = true) (last : Bool) :
    closeChunk last d = chunkCounted ((d.cmp.recorder.rem + d.cmp.recorder.chunk.length) / 64) (d.get R.CMP.REC_WR.CSEQ + 1) d.cmp.recorder.chunkGap
      (chunkStored last d) := by
  unfold closeChunk
  dsimp only
  rw [if_neg (by simp [Option.isNone_iff_eq_none, Option.isSome_iff_ne_none.mp hopen]), if_neg (by simp [hrgn])]
  rfl

theorem chunkStored_facts (last : Bool) (d : Dev) : (∀ f, (chunkStored last d).get f = d.get f) ∧ (chunkStored last d).cmp.recorder.opened = none ∧
    (chunkStored last d).posted = (dramWrite (chunkBase d) (chunkBytes last d) d).posted := by
  unfold chunkStored
  generalize chunkBytes last d = bs
  generalize chunkBase d = a
  rw [dramWrite_eq, dramWrite_eq]
  exact ⟨fun _ => rfl, rfl, rfl⟩

theorem chunkCounted_facts (n k : Nat) (gap : Bool) (d : Dev) :
    Leaves [R.CMP.REC_WR.CSEQ, R.CMP.STAT.COUNT 3, R.CMP.STAT.COUNT 4] d (chunkCounted n k gap d) ∧
    (chunkCounted n k gap d).get R.CMP.REC_WR.CSEQ = k % 2 ^ 32 ∧ Counted (R.CMP.STAT.COUNT 4) 1 d (chunkCounted n k gap d) := by
  have hput : Leaves [R.CMP.REC_WR.CSEQ] d (put R.CMP.REC_WR.CSEQ k d) := leaves_put ..
  have hk : (put R.CMP.REC_WR.CSEQ k d).get R.CMP.REC_WR.CSEQ = k % 2 ^ 32 := get_put_self ..
  unfold chunkCounted
  generalize put R.CMP.REC_WR.CSEQ k d = e at hput hk ⊢
  have hgap : Leaves [R.CMP.STAT.COUNT 3] e (when gap (cmpStat 3 1) e) := leaves_when gap _ e (leaves_cmpStat 3 1 e)
  generalize when gap (cmpStat 3 1) e = g at hgap ⊢
  have hc := counted_cmpStat 4 1 g
  have hs := leaves_cmpStat 4 1 g
  generalize cmpStat 4 1 g = x at hc hs ⊢
  have hp := (leaves_cmpPerf 4 1 x).trans (leaves_cmpPerf 2 n _)
  generalize cmpPerf 2 n (cmpPerf 4 1 x) = y at hp ⊢
  have hrest := (hgap.trans hs).trans hp
  refine ⟨(hput.trans hrest).mono (by simp), (hrest.get (by decide) (by decide)).trans hk, ?_⟩
  exact counted_of_get hc ((hput.trans hgap).get (by decide) (by decide)) (hp.get (by decide) (by simp))

theorem chunkClose_completes (x : Nat) (e : Dev) (s : State) (hx : s.dev.cmp.recorder.opened = some x) (he : e = reachNs x 1000000 s.dev)
    (hrgn : e.recRegionOk = true) (hopen : e.cmp.recorder.opened.isSome = true) : Completes .chunkClose s (fun t =>
      t.dev.cmp.recorder.opened = none ∧ t.dev.get R.CMP.REC_WR.CSEQ = (e.get R.CMP.REC_WR.CSEQ + 1) % 2 ^ 32 ∧
      Counted (R.CMP.STAT.COUNT 4) 1 e t.dev ∧
      (∃ tl : List Byte, tl.length = 65472 - e.cmp.recorder.chunk.length ∧
        t.mem = (s.after (dramWrite ((e.region (e.get R.CMP.CTL.REC_RGN)).1 + 65536 * (e.get R.CMP.REC_WR.CSEQ % max 1 (e.get R.CMP.REC_CHUNKS.NCH)))
          (chunkHead e false ++ e.cmp.recorder.chunk ++ tl) e)).mem)) := by
  have hdo : (match s.dev.cmp.recorder.opened with | none => s.dev | some t => closeChunk false (reachNs t 1000000 s.dev)) = closeChunk false e := by
    rw [hx, he]
  have hclose := hdo.trans (closeChunk_eq hopen hrgn false)
  obtain ⟨hget, hnone, hposted⟩ := chunkStored_facts false e
  generalize chunkStored false e = g at hclose hget hnone hposted
  obtain ⟨hl, hwr, hn⟩ := chunkCounted_facts ((e.cmp.recorder.rem + e.cmp.recorder.chunk.length) / 64) (e.get R.CMP.REC_WR.CSEQ + 1) e.cmp.recorder.chunkGap g
  refine completes_to (exec_chunkClose s)
    (chunkCounted ((e.cmp.recorder.rem + e.cmp.recorder.chunk.length) / 64) (e.get R.CMP.REC_WR.CSEQ + 1) e.cmp.recorder.chunkGap g)
    (by rw [← hclose] <;> cases s.dev.cmp.recorder.opened <;> rfl) ?_
  generalize chunkCounted ((e.cmp.recorder.rem + e.cmp.recorder.chunk.length) / 64) (e.get R.CMP.REC_WR.CSEQ + 1) e.cmp.recorder.chunkGap g = k at hl hwr hn ⊢
  refine ⟨(congrArg (fun c : CmpS => c.recorder.opened) ((after_cmp ..).trans (cmp_of_leaves hl))).trans hnone, (get_after ..).trans hwr,
    counted_of_get hn (hget _) (get_after ..), (List.range (65472 - e.cmp.recorder.chunk.length)).map (fun i => BitVec.ofNat 8 (Config.free (e.free + i))),
    by simp, congrArg s.mem.applyAll (hl.posted.trans hposted)⟩

/-! ## A line coded -/

theorem piecesOf_one {α : Type} {n : Nat} {xs : List α} (hpos : 1 ≤ xs.length) (hle : xs.length ≤ n) : piecesOf n (xs.length / n + 1) xs = [xs] := by
  have hne : xs.isEmpty = false := by
    cases xs with
    | nil => simp at hpos
    | cons => rfl
  have hdrop : xs.drop n = [] := List.drop_of_length_le hle
  rw [piecesOf, if_neg (by simp [hne]), List.take_of_length_le hle, hdrop]
  cases xs.length / n <;> rfl

theorem length_codecSamples (tap dp : Nat) (xs : List Nat) : (codecSamples tap dp xs).length = xs.length := by
  unfold codecSamples
  split
  · rfl
  · exact List.length_map ..

/-- The head of the record of a tap line's piece. -/
def pieceHead (l : TapLine) (p : TapPiece) (d : Dev) : RecHead :=
  { lsn := l.lsn, tap := l.tap, src := l.src, plane := p.plane, depth := d.tapDepth l p.plane, first := p.first,
    count := p.samples.length, dt := l.dtExp, lflags := l.flags, pflag := p.pflag, rflags := 0 }

theorem recTapPiece_one (l : TapLine) {p : TapPiece} (hpos : 1 ≤ p.samples.length) (hle : p.samples.length ≤ 8192) (d : Dev) :
    recTapPiece l p d = recPiece (pieceHead l p d) d (codecSamples l.tap (d.tapDepth l p.plane) p.samples) := by
  have hlen := length_codecSamples l.tap (d.tapDepth l p.plane) p.samples
  unfold recTapPiece pieceHead
  dsimp only
  rw [piecesOf_one (by omega) (by omega), ← hlen]
  rfl

/-- The counts of a coded piece. -/
def pieceCounted (raw : Bool) (n : Nat) (c : Coded) (d : Dev) : Dev := when raw (cmpStat 1 1) (cmpPerf 1 n (cmpStat 0 1 (countCoded c d)))

theorem recPiece_fits {h : RecHead} {d : Dev} {xs : List Nat} {r : List Byte × Coded × List RefLine} {raw : Bool}
    (hraw : raw = (d.on R.CMP.CTL.RAW || d.cmp.recorder.raw))
    (hr : r = codeRecord h (d.predFor h.tap h.src h.lsn) raw (if d.cmp.recorder.opened.isSome then d.cmp.recorder.refs else []) xs)
    (hfit : d.cmp.recorder.opened.isSome = true → d.cmp.recorder.chunk.length + r.1.length ≤ 65472) :
    recPiece h d xs = addRecord h.dt r.1 r.2.2 (pieceCounted raw xs.length r.2.1 d) := by
  unfold recPiece pieceCounted
  dsimp only
  rw [← hraw]
  cases hopen : d.cmp.recorder.opened with
  | none =>
    rw [hopen, if_neg (by decide)] at hr
    simp only [Option.isSome_none, Bool.false_and, Bool.false_eq_true, if_false, Bool.false_or, hopen, Option.isNone_none, if_true, ← hr]
  | some t =>
    simp only [hopen, Option.isSome_some, if_true] at hr
    have hle := hfit (by rw [hopen]; rfl)
    rw [← hr]
    have hfull : ((some t).isSome && decide (65472 < d.cmp.recorder.chunk.length + r.1.length)) = false := by
      simp only [Option.isSome_some, Bool.true_and, decide_eq_false_iff_not]
      omega
    simp only [hfull, Bool.false_eq_true, if_false, Bool.false_or, hopen, Option.isNone_some]

theorem leaves_countCoded (c : Coded) (d : Dev) : Leaves [R.CMP.STAT.COUNT 7] d (countCoded c d) :=
  (((leaves_cmpStat ..).trans (leaves_cmpPerf ..)).trans (leaves_cmpPerf ..)).trans (leaves_cmpPerf ..)

theorem pieceCounted_facts (raw : Bool) (n : Nat) (c : Coded) (d : Dev) :
    Leaves [R.CMP.STAT.COUNT 7, R.CMP.STAT.COUNT 0, R.CMP.STAT.COUNT 1] d (pieceCounted raw n c d) ∧ Counted (R.CMP.STAT.COUNT 0) 1 d (pieceCounted raw n c d) := by
  have hcoded := leaves_countCoded c d
  unfold pieceCounted
  generalize countCoded c d = e at hcoded ⊢
  have hs := leaves_cmpStat 0 1 e
  have hc := counted_cmpStat 0 1 e
  generalize cmpStat 0 1 e = g at hs hc ⊢
  have hp := leaves_cmpPerf 1 n g
  generalize cmpPerf 1 n g = x at hp ⊢
  have hw : Leaves [R.CMP.STAT.COUNT 1] x (when raw (cmpStat 1 1) x) := leaves_when raw _ x (leaves_cmpStat 1 1 x)
  generalize when raw (cmpStat 1 1) x = y at hw ⊢
  exact ⟨((hcoded.trans hs).trans (hp.trans hw)).mono (by simp),
    counted_of_get hc (hcoded.get (by decide) (by decide)) ((hp.trans hw).get (by decide) (by decide))⟩

/-- What a record added to the open chunk, or to a new one, leaves and shows. -/
structure Recorded (bs : List Byte) (refs : List RefLine) (d e : Dev) : Prop where
  get : ∀ f, e.get f = d.get f
  recQ : e.recQ = d.recQ
  posted : e.posted = d.posted
  opened : e.cmp.recorder.opened.isSome = true
  refs : e.cmp.recorder.refs = refs
  chunk : e.cmp.recorder.chunk = (if d.cmp.recorder.opened.isSome then d.cmp.recorder.chunk else []) ++ bs
  first : d.cmp.recorder.opened = none → e.cmp.recorder.count = 1 ∧ e.cmp.recorder.chunkGap = d.cmp.recorder.gap ∧
    e.cmp.recorder.chunkDropped = d.cmp.recorder.dropped ∧ e.cmp.recorder.dropped = 0

theorem addRecord_facts (dt : Nat) (bs : List Byte) (refs : List RefLine) (d : Dev) : Recorded bs refs d (addRecord dt bs refs d) := by
  unfold addRecord
  dsimp only
  cases hopen : d.cmp.recorder.opened with
  | none =>
    rw [if_neg (by decide)]
    exact ⟨fun _ => rfl, rfl, rfl, rfl, rfl, by rw [hopen]; rfl, fun _ => ⟨rfl, rfl, rfl, rfl⟩⟩
  | some t =>
    rw [if_pos Option.isSome_some]
    exact ⟨fun _ => rfl, rfl, rfl, rfl, rfl, by rw [hopen]; rfl, fun h => by rw [hopen] at h; cases h⟩

theorem tapLine_coded (l : TapLine) (p : TapPiece) (rest : List TapLine) (h : RecHead) (rs : List RefLine) (r : List Byte × Coded × List RefLine) (s : State)
    (hq : s.dev.recQ = l :: rest) (hst : s.dev.get R.CMP.STATUS.STATE = 1) (hrgn : s.dev.recRegionOk = true) (hstaging : s.dev.staging = true)
    (hfull : s.dev.stagingFull = false) (hpieces : l.pieces = [p]) (hpos : 1 ≤ p.samples.length) (hle : p.samples.length ≤ 8192)
    (hh : h = { lsn := l.lsn, tap := l.tap, src := l.src, plane := p.plane, depth := s.dev.tapDepth l p.plane, first := p.first,
                count := p.samples.length, dt := l.dtExp, lflags := l.flags, pflag := p.pflag, rflags := 0 })
    (hrs : rs = (if s.dev.cmp.recorder.opened.isSome then s.dev.cmp.recorder.refs else []))
    (hr : r = codeRecord h (s.dev.predFor l.tap l.src l.lsn) (s.dev.on R.CMP.CTL.RAW || s.dev.cmp.recorder.raw) rs
      (codecSamples l.tap (s.dev.tapDepth l p.plane) p.samples))
    (hfit : s.dev.cmp.recorder.opened.isSome = true → s.dev.cmp.recorder.chunk.length + r.1.length ≤ 65472) :
    Completes (.recorderTapLine false) s (fun t =>
      t.dev.recQ = rest ∧ t.dev.cmp.recorder.opened.isSome = true ∧ t.dev.cmp.recorder.refs = r.2.2 ∧
      t.dev.cmp.recorder.chunk = (if s.dev.cmp.recorder.opened.isSome then s.dev.cmp.recorder.chunk else []) ++ r.1 ∧
      (s.dev.cmp.recorder.opened = none → t.dev.cmp.recorder.count = 1 ∧ t.dev.cmp.recorder.chunkGap = s.dev.cmp.recorder.gap ∧
        t.dev.cmp.recorder.chunkDropped = s.dev.cmp.recorder.dropped ∧ t.dev.cmp.recorder.dropped = 0) ∧
      Counted (R.CMP.STAT.COUNT 0) 1 s.dev t.dev ∧ t.mem = (s.after s.dev).mem) := by
  have hst' : (withRecQ rest s.dev).get R.CMP.STATUS.STATE = 1 := hst
  have hrgn' : (withRecQ rest s.dev).recRegionOk = true := hrgn
  have hfull' : (withRecQ rest s.dev).stagingFull = false := hfull
  have hstaging' : (withRecQ rest s.dev).staging = true := hstaging
  have hline : lineTaken false l (withRecQ rest s.dev) = each (recTapPiece l) l.pieces (withRecQ rest s.dev) := by
    rw [lineTaken, if_neg (by simp [hst']), if_neg (by simp [hrgn'])]
    dsimp only
    rw [if_neg (by simp [hst']), if_neg (by simp [hst']), if_neg (by simp [hfull']), if_neg (by simp [hstaging'])]
  have hhead : pieceHead l p (withRecQ rest s.dev) = h := hh.symm
  have hpiece := (recTapPiece_one l hpos hle (withRecQ rest s.dev)).trans
    (recPiece_fits (raw := s.dev.on R.CMP.CTL.RAW || s.dev.cmp.recorder.raw) (r := r) rfl (by rw [hhead, hr, hh, hrs] <;> rfl) hfit)
  have hone : each (recTapPiece l) l.pieces (withRecQ rest s.dev) = recTapPiece l p (withRecQ rest s.dev) := by
    rw [hpieces]
    rfl
  obtain ⟨hl, hn⟩ := pieceCounted_facts (s.dev.on R.CMP.CTL.RAW || s.dev.cmp.recorder.raw)
    (codecSamples l.tap ((withRecQ rest s.dev).tapDepth l p.plane) p.samples).length r.2.1 (withRecQ rest s.dev)
  generalize pieceCounted (s.dev.on R.CMP.CTL.RAW || s.dev.cmp.recorder.raw)
    (codecSamples l.tap ((withRecQ rest s.dev).tapDepth l p.plane) p.samples).length r.2.1 (withRecQ rest s.dev) = g at hpiece hl hn
  have hf := addRecord_facts (pieceHead l p (withRecQ rest s.dev)).dt r.1 r.2.2 g
  refine completes_to (exec_recorderTapLine false s) (addRecord (pieceHead l p (withRecQ rest s.dev)).dt r.1 r.2.2 g)
    ((recLine_cons hq false).trans (hline.trans (hone.trans hpiece))) ?_
  generalize addRecord (pieceHead l p (withRecQ rest s.dev)).dt r.1 r.2.2 g = e at hf ⊢
  have hcmp : g.cmp = s.dev.cmp := (cmp_of_leaves hl).trans rfl
  have hrec : (s.after e).dev.cmp = e.cmp := after_cmp ..
  rw [hrec, ← hcmp]
  exact ⟨(after_recQ ..).trans (hf.recQ.trans ((recQ_of_leaves hl).trans rfl)), hf.opened, hf.refs, hf.chunk, hf.first,
    counted_of_get hn rfl ((get_after ..).trans (hf.get _)), congrArg s.mem.applyAll (hf.posted.trans (hl.posted.trans rfl))⟩

/-- Settles O52: what a refused line notes, what a coded one adds to its chunk, and what closes, freezes and releases the recorder. -/
theorem theRecorderKeepsLines : Obligations.TheRecorderKeepsLines :=
  ⟨tapLine_stopped, tapLine_coded, tapLine_held, tapLine_freezes, chunkClose_completes, recorderTrigger_starts, recorderTrigger_dropped,
    recorderRelease_completes, codecSelfTest_completes⟩

end Sys2Proof.Proofs
end

section
/-!
The jobs of the two codec engines: start, the next record, resume and abort (R418 to R423).
-/
namespace Sys2Proof.Proofs
open Sys2Proof Sys2Proof.Machine

/-! ## The state of a job -/

theorem jobS_setJob (e : Nat) (x : JobS) (d : Dev) : (setJob e x d).jobS e = x := KMap.get_put_self ..

theorem jobS_after (s : State) (d : Dev) (e : Nat) : (s.after d).dev.jobS e = d.jobS e := rfl

theorem jobS_of_cmp {d g : Dev} (h : g.cmp = d.cmp) (e : Nat) : g.jobS e = d.jobS e := by rw [Dev.jobS, h, Dev.jobS]

theorem jobS_dramWrite (a : Nat) (bs : List Byte) (d : Dev) (e : Nat) : (dramWrite a bs d).jobS e = d.jobS e := by rw [dramWrite_eq]; rfl

theorem sameDram_setJob (e : Nat) (x : JobS) (d : Dev) : SameDram d (setJob e x d) := ⟨fun _ _ => rfl, rfl⟩

theorem get_setJob (e : Nat) (x : JobS) (d : Dev) (f : Fld) : (setJob e x d).get f = d.get f := rfl

/-- The registers of the two engines. -/
theorem jobReg_book {e : Nat} (he : e < 2) : ∀ f ∈ [R.CMP.JOB_STATUS.SEQ e, R.CMP.JOB_STATUS.STATE e, R.CMP.JOB_STATUS.DONE e, R.CMP.JOB_STATUS.STOP e],
    bookKey f.key = false := by decide +revert +kernel

/-! ## The end of a job -/

/-- What the end of a job shows: done, or stopped with a status. -/
def jobShown (e status : Nat) (d : Dev) : Dev :=
  if status = 0 then
    event 0x15 (R.CMP.JOB_STATUS.SEQ e) [R.CMP.JOB_STATUS.DONE e] (put (R.CMP.JOB_STATUS.STATE e) 0 d)
  else
    cmpStat 9 1 (event 0x15 (R.CMP.JOB_STATUS.SEQ e) [R.CMP.JOB_STATUS.STOP e] (put (R.CMP.JOB_STATUS.STATE e) 2 d))

/-- The job with its status, written back to its descriptor. -/
def jobLeft (e status : Nat) (d : Dev) : Dev := jobWriteBack { d.jobS e with status := status } (setJob e { d.jobS e with status := status } d)

theorem jobEnd_eq {e : Nat} {d : Dev} (hk : (d.jobS e).kind ≠ 3) (status : Nat) : jobEnd e status d = jobShown e status (jobLeft e status d) := by
  unfold jobEnd jobShown jobLeft
  dsimp only
  rw [if_neg hk]

theorem jobLeft_facts (e status : Nat) (d : Dev) : (∀ f, (jobLeft e status d).get f = d.get f) ∧
    (jobLeft e status d).jobS e = { d.jobS e with status := status } ∧
    (jobLeft e status d).posted = (jobWriteBack { d.jobS e with status := status } d).posted := by
  unfold jobLeft jobWriteBack
  generalize ({ d.jobS e with status := status } : JobS) = x
  rw [dramWrite_eq, dramWrite_eq]
  exact ⟨fun _ => rfl, jobS_setJob e x d, rfl⟩

theorem jobDone_facts {e : Nat} (he : e < 2) (d : Dev) : (jobShown e 0 d).get (R.CMP.JOB_STATUS.STATE e) = 0 ∧ (jobShown e 0 d).cmp = d.cmp ∧
    Raised (R.CMP.JOB_STATUS.SEQ e) [R.CMP.JOB_STATUS.DONE e] d (jobShown e 0 d) ∧ (jobShown e 0 d).posted = d.posted := by
  have hbook := jobReg_book he
  rw [jobShown, if_pos rfl]
  have hput : Leaves [R.CMP.JOB_STATUS.STATE e] d (put (R.CMP.JOB_STATUS.STATE e) 0 d) := leaves_put ..
  have hst : (put (R.CMP.JOB_STATUS.STATE e) 0 d).get (R.CMP.JOB_STATUS.STATE e) = 0 := get_put_self ..
  generalize put (R.CMP.JOB_STATUS.STATE e) 0 d = g at hput hst ⊢
  have hev : Leaves [R.CMP.JOB_STATUS.SEQ e, R.CMP.JOB_STATUS.DONE e] g (event 0x15 (R.CMP.JOB_STATUS.SEQ e) [R.CMP.JOB_STATUS.DONE e] g) := leaves_event ..
  refine ⟨(hev.get (hbook _ (by simp)) (by clear * - he; decide +revert)).trans hst, (cmp_of_leaves hev).trans (cmp_of_leaves hput), ?_, hev.posted.trans hput.posted⟩
  exact raised_event (fun f hf => hbook f (by simp only [List.mem_cons, List.not_mem_nil, or_false] at hf ⊢; tauto)) (by simp [R.CMP.JOB_STATUS.DONE])
    (by clear * - he; decide +revert) (hput.get (hbook _ (by simp)) (by clear * - he; decide +revert))

theorem jobStop_facts {e status : Nat} (he : e < 2) (hs : status ≠ 0) (d : Dev) : (jobShown e status d).get (R.CMP.JOB_STATUS.STATE e) = 2 ∧
    (jobShown e status d).cmp = d.cmp ∧ Raised (R.CMP.JOB_STATUS.SEQ e) [R.CMP.JOB_STATUS.STOP e] d (jobShown e status d) ∧
    Counted (R.CMP.STAT.COUNT 9) 1 d (jobShown e status d) := by
  have hbook := jobReg_book he
  rw [jobShown, if_neg hs]
  have hput : Leaves [R.CMP.JOB_STATUS.STATE e] d (put (R.CMP.JOB_STATUS.STATE e) 2 d) := leaves_put ..
  have hst : (put (R.CMP.JOB_STATUS.STATE e) 2 d).get (R.CMP.JOB_STATUS.STATE e) = 2 := get_put_self ..
  generalize put (R.CMP.JOB_STATUS.STATE e) 2 d = g at hput hst ⊢
  have hev : Leaves [R.CMP.JOB_STATUS.SEQ e, R.CMP.JOB_STATUS.STOP e] g (event 0x15 (R.CMP.JOB_STATUS.SEQ e) [R.CMP.JOB_STATUS.STOP e] g) := leaves_event ..
  have hsub : ∀ f ∈ [R.CMP.JOB_STATUS.SEQ e, R.CMP.JOB_STATUS.STOP e], bookKey f.key = false := fun f hf => hbook f (by
    simp only [List.mem_cons, List.not_mem_nil, or_false] at hf ⊢
    tauto)
  have hr : Raised (R.CMP.JOB_STATUS.SEQ e) [R.CMP.JOB_STATUS.STOP e] d (event 0x15 (R.CMP.JOB_STATUS.SEQ e) [R.CMP.JOB_STATUS.STOP e] g) :=
    raised_event hsub (by simp [R.CMP.JOB_STATUS.STOP]) (by clear * - he; decide +revert) (hput.get (hbook _ (by simp)) (by clear * - he; decide +revert))
  generalize event 0x15 (R.CMP.JOB_STATUS.SEQ e) [R.CMP.JOB_STATUS.STOP e] g = k at hev hr ⊢
  have hst9 := leaves_cmpStat 9 1 k
  have hc := counted_cmpStat 9 1 k
  generalize cmpStat 9 1 k = q at hst9 hc ⊢
  refine ⟨((hev.trans hst9).get (hbook _ (by simp)) (by clear * - he; decide +revert)).trans hst,
    (cmp_of_leaves hst9).trans ((cmp_of_leaves hev).trans (cmp_of_leaves hput)), raised_then hr hst9 hsub (by clear * - he; decide +revert), ?_⟩
  exact counted_of_get hc ((hput.trans hev).get (by decide) (by clear * - he; decide +revert)) rfl

/-! ## Start -/

/-- The job that a descriptor names. -/
def descJob (a : Nat) (b : List Byte) : JobS :=
  { desc := a, kind := fieldAt b 0 1, flags := fieldAt b 1 1, depth := fieldAt b 2 1, param := fieldAt b 3 1, width := fieldAt b 4 4
    inAddr := fieldAt b 8 8, inLen := fieldAt b 16 4, lsn0 := fieldAt b 20 4, outAddr := fieldAt b 24 8, outLimit := fieldAt b 32 4 }

/-- The start of a job is counted. -/
def jobTaken (e a : Nat) (d : Dev) : Dev := cmpStat 8 1 (setJob e { desc := a } d)

section
variable {e : Nat} {m : Mem} {d : Dev} (hen : d.on R.CMP.CTL.EN = true) (hidle : d.get (R.CMP.JOB_STATUS.STATE e) ≠ 1)
include hen hidle

theorem jobStart_poisoned (hpoison : (d.dramRead m (d.get (R.CMP.JOB_DESC.ADDR e)) 64).2 = true) :
    jobStart e m d = .next (jobEnd e 4 (jobTaken e (d.get (R.CMP.JOB_DESC.ADDR e)) d)) := by
  unfold jobStart
  dsimp only
  rw [if_neg (by simp [hen, hidle]), if_pos hpoison]
  rfl

theorem jobStart_runs {a : Nat} {b : List Byte} (ha : a = d.get (R.CMP.JOB_DESC.ADDR e)) (halign : a % 64 = 0) (hread : d.dramRead m a 64 = (b, false))
    (hok : descOk e b = true) (hk : fieldAt b 0 1 ≠ 3) :
    jobStart e m d = .next (put (R.CMP.JOB_STATUS.STATE e) 1 (setJob e (descJob a b) (jobTaken e a d))) := by
  unfold jobStart
  dsimp only
  rw [← ha, hread, if_neg (by simp [hen, hidle]), if_neg Bool.false_ne_true, if_neg (by simp [halign, hok]), if_neg hk]
  rfl

end

theorem jobTaken_facts (e a : Nat) (d : Dev) : CmpStep [R.CMP.STAT.COUNT 8] d (jobTaken e a d) ∧ Counted (R.CMP.STAT.COUNT 8) 1 d (jobTaken e a d) ∧
    (jobTaken e a d).jobS e = { desc := a } :=
  ⟨(cmpStep_setJob e { desc := a } d).trans (cmpStep_of_leaves (leaves_cmpStat 8 1 _)), counted_cmpStat 8 1 (setJob e { desc := a } d),
    jobS_setJob e { desc := a } d⟩

theorem jobStart_completes (e : Fin 2) (a : Nat) (b : List Byte) (s : State) (hen : s.dev.on R.CMP.CTL.EN = true)
    (hidle : s.dev.get (R.CMP.JOB_STATUS.STATE e.val) ≠ 1) (ha : a = s.dev.get (R.CMP.JOB_DESC.ADDR e.val)) (halign : a % 64 = 0)
    (hread : s.dev.dramRead s.mem a 64 = (b, false)) (hok : descOk e.val b = true) (hk : fieldAt b 0 1 ≠ 3) :
    Completes (.jobStart e) s (fun t =>
      t.dev.get (R.CMP.JOB_STATUS.STATE e.val) = 1 ∧ (t.dev.jobS e.val).desc = a ∧ (t.dev.jobS e.val).inAddr = fieldAt b 8 8 ∧
      (t.dev.jobS e.val).inLen = fieldAt b 16 4 ∧ (t.dev.jobS e.val).outAddr = fieldAt b 24 8 ∧ (t.dev.jobS e.val).outLimit = fieldAt b 32 4 ∧
      (t.dev.jobS e.val).inUsed = 0 ∧ (t.dev.jobS e.val).records = 0 ∧ Counted (R.CMP.STAT.COUNT 8) 1 s.dev t.dev ∧
      Frame [R.CMP.JOB_STATUS.STATE e.val, R.CMP.STAT.COUNT 8] { s.dev with cmp := t.dev.cmp } s t) := by
  obtain ⟨hstep, hn, -⟩ := jobTaken_facts e.val a s.dev
  have hrun := jobStart_runs hen hidle ha halign hread hok hk
  generalize jobTaken e.val a s.dev = g at hstep hn hrun
  have hset := cmpStep_setJob e.val (descJob a b) g
  have hjob := jobS_setJob e.val (descJob a b) g
  have hget := get_setJob e.val (descJob a b) g
  generalize setJob e.val (descJob a b) g = k at hrun hset hjob hget
  have hput : Leaves [R.CMP.JOB_STATUS.STATE e.val] k (put (R.CMP.JOB_STATUS.STATE e.val) 1 k) := leaves_put ..
  have hst : (put (R.CMP.JOB_STATUS.STATE e.val) 1 k).get (R.CMP.JOB_STATUS.STATE e.val) = 1 := get_put_self ..
  have hjob' : (put (R.CMP.JOB_STATUS.STATE e.val) 1 k).jobS e.val = descJob a b := hjob
  generalize put (R.CMP.JOB_STATUS.STATE e.val) 1 k = q at hrun hput hst hjob'
  refine completes_run (exec_jobStart e s) hrun ?_
  rw [jobS_after, hjob']
  refine ⟨(get_after ..).trans hst, rfl, rfl, rfl, rfl, rfl, rfl, rfl, ?_, ?_⟩
  · exact counted_of_get hn rfl ((get_after ..).trans ((hput.get (by decide) (by clear * -; decide +revert)).trans (hget _)))
  · exact CmpStep.frame (((hstep.trans hset).trans (cmpStep_of_leaves hput)).mono (by simp)) s

theorem jobStart_fails (e : Fin 2) (s : State) (hen : s.dev.on R.CMP.CTL.EN = true) (hidle : s.dev.get (R.CMP.JOB_STATUS.STATE e.val) ≠ 1)
    (hpoison : (s.dev.dramRead s.mem (s.dev.get (R.CMP.JOB_DESC.ADDR e.val)) 64).2 = true) :
    Completes (.jobStart e) s (fun t =>
      t.dev.get (R.CMP.JOB_STATUS.STATE e.val) = 2 ∧ (t.dev.jobS e.val).status = 4 ∧
      Raised (R.CMP.JOB_STATUS.SEQ e.val) [R.CMP.JOB_STATUS.STOP e.val] s.dev t.dev) := by
  have hrun := jobStart_poisoned hen hidle hpoison
  obtain ⟨hstep, -, hjob⟩ := jobTaken_facts e.val (s.dev.get (R.CMP.JOB_DESC.ADDR e.val)) s.dev
  generalize jobTaken e.val (s.dev.get (R.CMP.JOB_DESC.ADDR e.val)) s.dev = g at hrun hstep hjob
  rw [jobEnd_eq (hjob ▸ (by decide : (0 : Nat) ≠ 3))] at hrun
  obtain ⟨hget, hleft, -⟩ := jobLeft_facts e.val 4 g
  generalize jobLeft e.val 4 g = k at hrun hget hleft
  obtain ⟨hst, hcmp, hr, -⟩ := jobStop_facts e.isLt (status := 4) (by decide) k
  generalize jobShown e.val 4 k = q at hrun hst hcmp hr
  have hseq : k.get (R.CMP.JOB_STATUS.SEQ e.val) = s.dev.get (R.CMP.JOB_STATUS.SEQ e.val) :=
    (hget _).trans (hstep.get (jobReg_book e.isLt _ (by simp)) (by clear * -; decide +revert))
  refine completes_run (exec_jobStart e s) hrun ⟨(get_after ..).trans hst, ?_, raised_after ⟨hseq ▸ hr.1, hr.2⟩ s⟩
  rw [jobS_after, jobS_of_cmp hcmp, hleft]

/-! ## A job that waits, ends or is aborted -/

theorem jobRecord_waits (e : Fin 2) (s : State) (hst : s.dev.get (R.CMP.JOB_STATUS.STATE e.val) = 1) (hy : s.dev.yields 3 = true) :
    Completes (.jobRecord e) s (fun t =>
      Raised R.TOP.DRAM_YIELD.SEQ [R.TOP.DRAM_YIELD.HOST_IMG] s.dev t.dev ∧
      Frame [R.TOP.DRAM_YIELD.SEQ, R.TOP.DRAM_YIELD.HOST_IMG] { s.dev with yielding := t.dev.yielding } s t) := by
  obtain ⟨hup, hr⟩ := holdUser_image s.dev
  refine completes_to (exec_jobRecord e s) (holdUser 3 s.dev) ((if_neg (by simp [hst])).trans (if_pos hy)) ?_
  generalize holdUser 3 s.dev = q at hup hr ⊢
  exact ⟨raised_after hr s, frame_of_upto hup s q.yielding rfl⟩

theorem jobAbort_completes (e : Fin 2) (s : State) (hst : s.dev.get (R.CMP.JOB_STATUS.STATE e.val) = 1) (hk : (s.dev.jobS e.val).kind ≠ 3) :
    Completes (.jobAbort e) s (fun t =>
      t.dev.get (R.CMP.JOB_STATUS.STATE e.val) = 2 ∧ t.dev.jobS e.val = { s.dev.jobS e.val with status := 5 } ∧
      Raised (R.CMP.JOB_STATUS.SEQ e.val) [R.CMP.JOB_STATUS.STOP e.val] s.dev t.dev ∧ Counted (R.CMP.STAT.COUNT 9) 1 s.dev t.dev) := by
  have hrun := jobEnd_eq hk 5
  obtain ⟨hget, hleft, -⟩ := jobLeft_facts e.val 5 s.dev
  generalize jobLeft e.val 5 s.dev = k at hrun hget hleft
  obtain ⟨hst', hcmp, hr, hn⟩ := jobStop_facts e.isLt (status := 5) (by decide) k
  generalize jobShown e.val 5 k = q at hrun hst' hcmp hr hn
  refine completes_to (exec_jobAbort e s) q ((if_pos (Or.inl hst)).trans hrun) ⟨(get_after ..).trans hst', ?_, raised_after ⟨hget _ ▸ hr.1, hr.2⟩ s,
    counted_of_get hn (hget _) (get_after ..)⟩
  rw [jobS_after, jobS_of_cmp hcmp, hleft]

theorem jobResume_completes (e : Fin 2) (b : List Byte) (s : State) (hst : s.dev.get (R.CMP.JOB_STATUS.STATE e.val) = 2)
    (hstatus : (s.dev.jobS e.val).status = 1) (hk : (s.dev.jobS e.val).kind ≠ 3)
    (hread : s.dev.dramRead s.mem ((s.dev.jobS e.val).desc + 24) 12 = (b, false)) :
    Completes (.jobResume e) s (fun t =>
      t.dev.get (R.CMP.JOB_STATUS.STATE e.val) = 1 ∧
      t.dev.jobS e.val = { s.dev.jobS e.val with outAddr := fieldAt b 0 8, outLimit := fieldAt b 8 4 } ∧
      Frame [R.CMP.JOB_STATUS.STATE e.val] { s.dev with cmp := t.dev.cmp } s t) := by
  have hrun : jobResume e.val s.mem s.dev = put (R.CMP.JOB_STATUS.STATE e.val) 1
      (setJob e.val { s.dev.jobS e.val with outAddr := fieldAt b 0 8, outLimit := fieldAt b 8 4 } s.dev) := by
    unfold jobResume
    dsimp only
    rw [if_pos ⟨hst, hstatus⟩, hread, if_neg Bool.false_ne_true, when, if_neg (by simp [hk])]
  generalize ({ s.dev.jobS e.val with outAddr := fieldAt b 0 8, outLimit := fieldAt b 8 4 } : JobS) = x at hrun ⊢
  have hset := cmpStep_setJob e.val x s.dev
  have hjob := jobS_setJob e.val x s.dev
  generalize setJob e.val x s.dev = k at hrun hset hjob
  have hput : Leaves [R.CMP.JOB_STATUS.STATE e.val] k (put (R.CMP.JOB_STATUS.STATE e.val) 1 k) := leaves_put ..
  refine completes_to (exec_jobResume e s) (put (R.CMP.JOB_STATUS.STATE e.val) 1 k) hrun ⟨(get_after ..).trans (get_put_self ..), hjob,
    CmpStep.frame (hset.trans (cmpStep_of_leaves hput)) s⟩

/-! ## The next record -/

theorem inputPos_plain (m : Mem) (d : Dev) {x : JobS} (hflat : bit x.flags 1 = false) (fuel : Nat) {used : Nat} (h : used < x.inLen) (fresh : Bool) :
    inputPos m d x (fuel + 2) used fresh = .at' used (x.inLen - used) fresh := by
  rw [inputPos, if_neg (by omega), if_pos (by simp [hflat])]

theorem inputPos_done (m : Mem) (d : Dev) {x : JobS} (fuel : Nat) {used : Nat} (h : x.inLen ≤ used) (fresh : Bool) :
    inputPos m d x (fuel + 2) used fresh = .done := by
  rw [inputPos, if_pos h]

/-- The traffic of a step of a job is metered. -/
def jobMeter (e : Nat) (d y : Dev) : Dev := meterUser 3 (jobBytes (y.jobS e) - jobBytes (d.jobS e)) y

theorem jobMeter_facts (e : Nat) (d y : Dev) : (∀ f, (jobMeter e d y).get f = y.get f) ∧ (jobMeter e d y).cmp = y.cmp ∧ (jobMeter e d y).posted = y.posted :=
  ⟨fun _ => rfl, rfl, rfl⟩

/-- A step of a job that ends it with a status. -/
theorem jobRecord_ends {e : Fin 2} {s : State} {status : Nat} (hst : s.dev.get (R.CMP.JOB_STATUS.STATE e.val) = 1) (hy : s.dev.yields 3 = false)
    (hk : (s.dev.jobS e.val).kind ≠ 3) (hend : (if e.val = 0 then encodeRecord s.mem else decodeRecord s.mem) s.dev = jobEnd e.val status s.dev)
    {post : State → Prop}
    (hpost : ∀ k q : Dev, (∀ f, k.get f = s.dev.get f) → k.jobS e.val = { s.dev.jobS e.val with status := status } →
      k.posted = (jobWriteBack { s.dev.jobS e.val with status := status } s.dev).posted → q = jobShown e.val status k → post (s.after (jobMeter e.val s.dev q))) :
    Completes (.jobRecord e) s post := by
  obtain ⟨hget, hleft, hposted⟩ := jobLeft_facts e.val status s.dev
  refine completes_to (exec_jobRecord e s) (jobMeter e.val s.dev (jobShown e.val status (jobLeft e.val status s.dev))) ?_ (hpost _ _ hget hleft hposted rfl)
  rw [if_neg (by simp [hst]), if_neg (by simp [hy]), jobMetered, hend, jobEnd_eq hk]
  rfl

theorem encodeRecord_done {m : Mem} {d : Dev} (hin : (d.jobS 0).inLen ≤ (d.jobS 0).inUsed) : encodeRecord m d = jobEnd 0 0 d := by
  rw [encodeRecord]
  dsimp only
  rw [if_pos hin]

theorem decodeRecord_done {m : Mem} {d : Dev} (hin : (d.jobS 1).inLen ≤ (d.jobS 1).inUsed) (hk : (d.jobS 1).kind ≠ 3) : decodeRecord m d = jobEnd 1 0 d := by
  rw [decodeRecord]
  dsimp only
  rw [if_neg (fun h => hk h.1), inputPos_done m d _ hin false]
  exact congrArg (jobEnd 1 0) (if_neg hk)

theorem jobRecord_consumed (e : Fin 2) (s : State) (hst : s.dev.get (R.CMP.JOB_STATUS.STATE e.val) = 1) (hy : s.dev.yields 3 = false)
    (hin : (s.dev.jobS e.val).inLen ≤ (s.dev.jobS e.val).inUsed) (hk : (s.dev.jobS e.val).kind ≠ 3) :
    Completes (.jobRecord e) s (fun t =>
      t.dev.get (R.CMP.JOB_STATUS.STATE e.val) = 0 ∧ t.dev.jobS e.val = { s.dev.jobS e.val with status := 0 } ∧
      Raised (R.CMP.JOB_STATUS.SEQ e.val) [R.CMP.JOB_STATUS.DONE e.val] s.dev t.dev ∧
      t.mem = (s.after (jobWriteBack { s.dev.jobS e.val with status := 0 } s.dev)).mem) := by
  have hend : (if e.val = 0 then encodeRecord s.mem else decodeRecord s.mem) s.dev = jobEnd e.val 0 s.dev := by
    match e with
    | 0 => exact encodeRecord_done hin
    | 1 => exact decodeRecord_done hin hk
  refine jobRecord_ends hst hy hk hend fun k q hget hleft hposted hq => ?_
  obtain ⟨hst', hcmp, hr, hpq⟩ := jobDone_facts e.isLt k
  rw [← hq] at hst' hcmp hr hpq
  obtain ⟨hmget, hmcmp, hmposted⟩ := jobMeter_facts e.val s.dev q
  generalize jobMeter e.val s.dev q = z at hmget hmcmp hmposted ⊢
  have hraised : Raised (R.CMP.JOB_STATUS.SEQ e.val) [R.CMP.JOB_STATUS.DONE e.val] s.dev z :=
    ⟨(hmget _).trans (hget _ ▸ hr.1), fun f hf => (congrArg (· == 1) (hmget f)).trans (hr.2 f hf)⟩
  refine ⟨(get_after ..).trans ((hmget _).trans hst'), ?_, raised_after hraised s, congrArg s.mem.applyAll (hmposted.trans (hpq.trans hposted))⟩
  rw [jobS_after, jobS_of_cmp (hmcmp.trans hcmp), hleft]

theorem jobRecord_full (x : JobS) (s : State) (hst : s.dev.get (R.CMP.JOB_STATUS.STATE 0) = 1) (hy : s.dev.yields 3 = false) (hx : s.dev.jobS 0 = x)
    (hk : x.kind = 1) (hin : x.inUsed < x.inLen) (hout : x.outLimit < x.outUsed + 8) :
    Completes (.jobRecord 0) s (fun t => t.dev.get (R.CMP.JOB_STATUS.STATE 0) = 2 ∧ t.dev.jobS 0 = { x with status := 1 } ∧
      Raised (R.CMP.JOB_STATUS.SEQ 0) [R.CMP.JOB_STATUS.STOP 0] s.dev t.dev ∧ Counted (R.CMP.STAT.COUNT 9) 1 s.dev t.dev) := by
  have hneed : 8 ≤ cdiv (codedBound x.depth (min 8192 (x.width - x.inUsed / 2 % x.width)) (bit x.flags 0) + 40) 8 * 8 := by
    unfold cdiv
    omega
  have hend : (if (0 : Fin 2).val = 0 then encodeRecord s.mem else decodeRecord s.mem) s.dev = jobEnd (0 : Fin 2).val 1 s.dev := by
    change encodeRecord s.mem s.dev = jobEnd 0 1 s.dev
    rw [encodeRecord]
    dsimp only
    rw [hx, if_neg (by omega), if_pos (by omega)]
  refine jobRecord_ends hst hy (show (s.dev.jobS 0).kind ≠ 3 by rw [hx, hk]; decide) hend fun k q hget hleft _ hq => ?_
  replace hq : q = jobShown 0 1 k := hq
  obtain ⟨hst', hcmp, hr, hn⟩ := jobStop_facts (e := 0) (status := 1) (by decide) (by decide) k
  rw [← hq] at hst' hcmp hr hn
  obtain ⟨hmget, hmcmp, -⟩ := jobMeter_facts (0 : Fin 2).val s.dev q
  generalize jobMeter (0 : Fin 2).val s.dev q = z at hmget hmcmp ⊢
  have hraised : Raised (R.CMP.JOB_STATUS.SEQ 0) [R.CMP.JOB_STATUS.STOP 0] s.dev z :=
    ⟨(hmget _).trans (hget _ ▸ hr.1), fun f hf => (congrArg (· == 1) (hmget f)).trans (hr.2 f hf)⟩
  refine ⟨(get_after ..).trans ((hmget _).trans hst'), ?_, raised_after hraised s, counted_of_get hn (hget _) ((get_after ..).trans (hmget _))⟩
  rw [jobS_after, jobS_of_cmp (hmcmp.trans hcmp), ← hx]
  exact hleft

/-- A step of a job that goes on: its bytes in DRAM, its new state, and counts. -/
structure GoesOn (e a : Nat) (bs : List Byte) (y : JobS) (d z : Dev) : Prop where
  state : z.get (R.CMP.JOB_STATUS.STATE e) = d.get (R.CMP.JOB_STATUS.STATE e)
  job : z.jobS e = y
  posted : z.posted = (dramWrite a bs d).posted

theorem jobRecord_goesOn {e : Fin 2} {s : State} {a : Nat} {bs : List Byte} {y : JobS} {z : Dev} (hst : s.dev.get (R.CMP.JOB_STATUS.STATE e.val) = 1)
    (hy : s.dev.yields 3 = false) (hz : (if e.val = 0 then encodeRecord s.mem else decodeRecord s.mem) s.dev = z) (hgo : GoesOn e.val a bs y s.dev z)
    {post : State → Prop} (hpost : ∀ q : Dev, q.get (R.CMP.JOB_STATUS.STATE e.val) = 1 → q.jobS e.val = y → q.posted = (dramWrite a bs s.dev).posted → post (s.after q)) :
    Completes (.jobRecord e) s post := by
  obtain ⟨hmget, hmcmp, hmposted⟩ := jobMeter_facts e.val s.dev z
  refine completes_to (exec_jobRecord e s) (jobMeter e.val s.dev z) ?_
    (hpost _ ((hmget _).trans (hgo.state.trans hst)) ((jobS_of_cmp hmcmp _).trans hgo.job) (hmposted.trans hgo.posted))
  rw [if_neg (by simp [hst]), if_neg (by simp [hy]), jobMetered, hz]
  rfl

theorem sameDram_counts {c : Nat} (hc : c < 16) {d e : Dev} (h : Leaves [R.CMP.STAT.COUNT c] d e) : SameDram d e :=
  sameDram_of_leaves h (by clear * - hc; decide +revert +kernel)

/-- The piece of an encode job is coded into DRAM. -/
def pieceEncoded (n a : Nat) (c : List Byte × Coded × List RefLine) (y : JobS) (d : Dev) : Dev :=
  setJob 0 y (dramWrite a c.1 (cmpPerf 8 n (countCoded c.2.1 d)))

theorem pieceEncoded_goesOn (n a : Nat) (c : List Byte × Coded × List RefLine) (y : JobS) (d : Dev) : GoesOn 0 a c.1 y d (pieceEncoded n a c y d) := by
  have hl := (leaves_countCoded c.2.1 d).trans (leaves_cmpPerf 8 n _)
  unfold pieceEncoded
  generalize cmpPerf 8 n (countCoded c.2.1 d) = g at hl ⊢
  have hsame : SameDram d g := sameDram_counts (c := 7) (by decide) hl
  have hget : g.get (R.CMP.JOB_STATUS.STATE 0) = d.get (R.CMP.JOB_STATUS.STATE 0) := hl.get (by decide) (by decide)
  have hposted := hsame.dramWrite a c.1
  refine ⟨?_, jobS_setJob .., hposted⟩
  rw [get_setJob, dramWrite_eq]
  exact hget

/-- The state of an encode job after a piece. -/
def encodedJob (n : Nat) (r : List Byte × Coded × List RefLine) (x : JobS) : JobS :=
  { x with inUsed := x.inUsed + 2 * n, outUsed := x.outUsed + r.1.length, records := x.records + 1, refs := r.2.2 }

theorem encodeRecord_goesOn {m : Mem} {d : Dev} {x : JobS} {n off : Nat} {xs : List Nat} {r : List Byte × Coded × List RefLine} (hx : d.jobS 0 = x)
    (hin : x.inUsed + 2 * n < x.inLen) (hoff : off = x.inUsed / 2 % x.width) (hn : n = min 8192 (x.width - off))
    (hroom : x.outUsed + cdiv (codedBound x.depth n (bit x.flags 0) + 40) 8 * 8 ≤ x.outLimit)
    (hread : (d.dramRead m (x.inAddr + x.inUsed) (2 * n)).2 = false)
    (hxs : xs = (List.range n).map (fun k => fieldAt (d.dramRead m (x.inAddr + x.inUsed) (2 * n)).1 (2 * k) 2 / 2 ^ (16 - x.depth)))
    (hr : r = codeRecord { lsn := (x.lsn0 + x.inUsed / 2 / x.width) % 2 ^ 32, tap := 7, src := 0xff, plane := 0, depth := x.depth, first := off,
                           count := n, dt := 0, lflags := 0, pflag := 0, rflags := 0 } x.param (bit x.flags 0) x.refs xs)
    (hhas : d.dramHas (x.outAddr + x.outUsed) r.1.length = true) :
    encodeRecord m d = pieceEncoded n (x.outAddr + x.outUsed) r (encodedJob n r x) d := by
  rw [encodeRecord]
  dsimp only
  rw [hx, ← hoff, ← hn, if_neg (by omega), if_neg (by omega), if_neg (by simp [hread]), ← hxs, ← hr, if_neg (by simp [hhas]), if_neg (by omega)]
  rfl

theorem jobRecord_encodes (x : JobS) (n off : Nat) (xs : List Nat) (r : List Byte × Coded × List RefLine) (s : State)
    (hst : s.dev.get (R.CMP.JOB_STATUS.STATE 0) = 1) (hy : s.dev.yields 3 = false) (hx : s.dev.jobS 0 = x) (hin : x.inUsed + 2 * n < x.inLen)
    (hoff : off = x.inUsed / 2 % x.width) (hn : n = min 8192 (x.width - off))
    (hroom : x.outUsed + cdiv (codedBound x.depth n (bit x.flags 0) + 40) 8 * 8 ≤ x.outLimit)
    (hread : (s.dev.dramRead s.mem (x.inAddr + x.inUsed) (2 * n)).2 = false)
    (hxs : xs = (List.range n).map (fun k => fieldAt (s.dev.dramRead s.mem (x.inAddr + x.inUsed) (2 * n)).1 (2 * k) 2 / 2 ^ (16 - x.depth)))
    (hr : r = codeRecord { lsn := (x.lsn0 + x.inUsed / 2 / x.width) % 2 ^ 32, tap := 7, src := 0xff, plane := 0, depth := x.depth, first := off,
                           count := n, dt := 0, lflags := 0, pflag := 0, rflags := 0 } x.param (bit x.flags 0) x.refs xs)
    (hhas : s.dev.dramHas (x.outAddr + x.outUsed) r.1.length = true) :
    Completes (.jobRecord 0) s (fun t =>
      t.mem = (s.after (dramWrite (x.outAddr + x.outUsed) r.1 s.dev)).mem ∧
      t.dev.jobS 0 = { x with inUsed := x.inUsed + 2 * n, outUsed := x.outUsed + r.1.length, records := x.records + 1, refs := r.2.2 } ∧
      t.dev.get (R.CMP.JOB_STATUS.STATE 0) = 1) :=
  jobRecord_goesOn (e := 0) hst hy (encodeRecord_goesOn hx hin hoff hn hroom hread hxs hr hhas) (pieceEncoded_goesOn ..) fun _ hq hjob hposted =>
    ⟨congrArg s.mem.applyAll hposted, hjob, (get_after ..).trans hq⟩

/-- The record of a decode job is decoded into DRAM. -/
def recordDecoded (n a : Nat) (bs : List Byte) (x y : JobS) (d : Dev) : Dev := cmpPerf 9 n (setJob 1 y (dramWrite a bs (setJob 1 x d)))

theorem recordDecoded_goesOn (n a : Nat) (bs : List Byte) (x y : JobS) (d : Dev) : GoesOn 1 a bs y d (recordDecoded n a bs x y d) := by
  have hposted := (sameDram_setJob 1 x d).dramWrite a bs
  have hget : (setJob 1 y (dramWrite a bs (setJob 1 x d))).get (R.CMP.JOB_STATUS.STATE 1) = d.get (R.CMP.JOB_STATUS.STATE 1) := by
    rw [get_setJob, dramWrite_eq]
    rfl
  have hjob := jobS_setJob 1 y (dramWrite a bs (setJob 1 x d))
  have hposted' : (setJob 1 y (dramWrite a bs (setJob 1 x d))).posted = (dramWrite a bs d).posted := hposted
  unfold recordDecoded
  generalize setJob 1 y (dramWrite a bs (setJob 1 x d)) = g at hget hjob hposted'
  have hl := leaves_cmpPerf 9 n g
  exact ⟨(hl.get (by decide) (by simp)).trans hget, (jobS_of_cmp (cmp_of_leaves hl) 1).trans hjob, hl.posted.trans hposted'⟩

/-- The state of a decode job after a record. -/
def decodedJob (h : RecHead) (xs : List Nat) (x : JobS) : JobS :=
  { x with inUsed := x.inUsed + (40 + cdiv h.clen 8 * 8), outUsed := x.outUsed + cdiv (40 + 2 * h.count) 8 * 8, records := x.records + 1
           refs := keepRef x.refs { tap := h.tap, src := h.src, plane := h.plane, first := h.first, lsn := h.lsn, samples := xs } }

/-- What the decoder does at a record: its head is read and checked, then its blocks. -/
def decodeAt (m : Mem) (used avail : Nat) (x : JobS) (d : Dev) : Dev :=
  let a := x.inAddr + used
  if avail < 40 then jobEnd 1 2 d
  else
    let hd := d.dramRead m a 40
    let h := readHead hd.1
    let size := 40 + cdiv h.clen 8 * 8
    let produced := cdiv (40 + 2 * h.count) 8 * 8
    if hd.2 then jobEnd 1 4 d
    else if !headCrcOk hd.1 || !h.ok || (x.kind == 3 && h.tap != 0) then jobEnd 1 2 d
    else if x.outLimit < x.outUsed + produced then jobEnd 1 1 d
    else if avail < size then jobEnd 1 2 d
    else
      let bl := d.dramRead m (a + 40) h.clen
      let key : RefLine := { tap := h.tap, src := h.src, plane := h.plane, first := h.first, lsn := h.lsn, samples := List.replicate h.count 0 }
      let ref := if bit h.rflags 0 then refFor x.refs key else none
      let got := decodeLine h.depth h.count ref bl.1
      if bl.2 && h.clen != 0 then jobEnd 1 4 d
      else if fieldAt hd.1 32 4 ≠ crc32c bl.1 ∨ (bit h.rflags 0 = true ∧ ref = none) then jobEnd 1 2 d
      else
        match got with
        | none => jobEnd 1 2 d
        | some xs =>
          let vs := xs.map (· * 2 ^ (16 - h.depth))
          if x.kind = 2 ∧ !d.dramHas (x.outAddr + x.outUsed) produced then jobEnd 1 4 d
          else
            let d := if x.kind = 2 then dramWrite (x.outAddr + x.outUsed) (pad8 (hd.1 ++ vs.flatMap (leBytes 2))) d else replayRecord h vs d
            let y := d.jobS 1
            let y := { y with inUsed := used + size, outUsed := y.outUsed + produced, records := y.records + 1
                              refs := keepRef y.refs { key with samples := xs } }
            let d := cmpPerf 9 h.count (setJob 1 y d)
            match inputPos m d y (y.inLen / 65536 + 2) y.inUsed false with
            | .done => decodeEnd d
            | _ => d

theorem decodeRecord_plain {m : Mem} {d : Dev} {x : JobS} (hx : d.jobS 1 = x) (hk : x.kind = 2) (hflat : bit x.flags 1 = false) (hin : x.inUsed < x.inLen) :
    decodeRecord m d = decodeAt m x.inUsed (x.inLen - x.inUsed) x (setJob 1 x d) := by
  rw [decodeRecord]
  dsimp only
  rw [hx, if_neg (by simp [hk]), inputPos_plain m d hflat _ hin false]
  rfl

section
variable {m : Mem} {d : Dev} {x : JobS} {hd bl : List Byte} {h : RecHead} {xs : List Nat} (hx : d.jobS 1 = x) (hk : x.kind = 2)
    (hflat : bit x.flags 1 = false) (hin : x.inUsed + 40 + cdiv h.clen 8 * 8 < x.inLen) (hread : d.dramRead m (x.inAddr + x.inUsed) 40 = (hd, false))
    (hh : h = readHead hd) (hcrc : headCrcOk hd = true) (hok : h.ok = true) (hprev : bit h.rflags 0 = false)
    (hroom : x.outUsed + cdiv (40 + 2 * h.count) 8 * 8 ≤ x.outLimit) (hblocks : d.dramRead m (x.inAddr + x.inUsed + 40) h.clen = (bl, false))
    (hsum : fieldAt hd 32 4 = crc32c bl) (hxs : decodeLine h.depth h.count none bl = some xs)
    (hhas : d.dramHas (x.outAddr + x.outUsed) (cdiv (40 + 2 * h.count) 8 * 8) = true)
include hx hk hflat hin hread hh hcrc hok hprev hroom hblocks hsum hxs hhas

theorem decodeAt_goesOn : decodeAt m x.inUsed (x.inLen - x.inUsed) x d =
    cmpPerf 9 h.count (setJob 1 (decodedJob h xs x) (dramWrite (x.outAddr + x.outUsed) (pad8 (hd ++ (xs.map (· * 2 ^ (16 - h.depth))).flatMap (leBytes 2))) d)) := by
  have hjob := (jobS_dramWrite (x.outAddr + x.outUsed) (pad8 (hd ++ (xs.map (· * 2 ^ (16 - h.depth))).flatMap (leBytes 2))) d 1).trans hx
  unfold decodeAt
  dsimp only
  rw [hread]
  dsimp only
  rw [← hh, if_neg (by omega), if_neg Bool.false_ne_true, if_neg (by simp [hcrc, hok, hk]), if_neg (by omega), if_neg (by omega), hblocks]
  dsimp only
  rw [hprev, if_neg (by simp), if_neg Bool.false_ne_true, if_neg (by simp [hsum]), hxs]
  dsimp only
  rw [if_neg (by simp [hhas]), if_pos hk, hjob]
  rw [inputPos_plain m _ (by exact hflat) _ (by show x.inUsed + (40 + cdiv h.clen 8 * 8) < x.inLen; omega) false]
  rfl

end

theorem jobRecord_decodes (x : JobS) (hd bl : List Byte) (h : RecHead) (xs : List Nat) (s : State) (hst : s.dev.get (R.CMP.JOB_STATUS.STATE 1) = 1)
    (hy : s.dev.yields 3 = false) (hx : s.dev.jobS 1 = x) (hk : x.kind = 2) (hflat : bit x.flags 1 = false)
    (hin : x.inUsed + 40 + cdiv h.clen 8 * 8 < x.inLen) (hread : s.dev.dramRead s.mem (x.inAddr + x.inUsed) 40 = (hd, false)) (hh : h = readHead hd)
    (hcrc : headCrcOk hd = true) (hok : h.ok = true) (hprev : bit h.rflags 0 = false) (hroom : x.outUsed + cdiv (40 + 2 * h.count) 8 * 8 ≤ x.outLimit)
    (hblocks : s.dev.dramRead s.mem (x.inAddr + x.inUsed + 40) h.clen = (bl, false)) (hsum : fieldAt hd 32 4 = crc32c bl)
    (hxs : decodeLine h.depth h.count none bl = some xs) (hhas : s.dev.dramHas (x.outAddr + x.outUsed) (cdiv (40 + 2 * h.count) 8 * 8) = true) :
    Completes (.jobRecord 1) s (fun t =>
      t.mem = (s.after (dramWrite (x.outAddr + x.outUsed) (pad8 (hd ++ (xs.map (· * 2 ^ (16 - h.depth))).flatMap (leBytes 2))) s.dev)).mem ∧
      (t.dev.jobS 1).inUsed = x.inUsed + 40 + cdiv h.clen 8 * 8 ∧ (t.dev.jobS 1).outUsed = x.outUsed + cdiv (40 + 2 * h.count) 8 * 8 ∧
      (t.dev.jobS 1).records = x.records + 1 ∧ t.dev.get (R.CMP.JOB_STATUS.STATE 1) = 1) := by
  have hsame := sameDram_setJob 1 x s.dev
  have hdo : decodeRecord s.mem s.dev =
      recordDecoded h.count (x.outAddr + x.outUsed) (pad8 (hd ++ (xs.map (· * 2 ^ (16 - h.depth))).flatMap (leBytes 2))) x (decodedJob h xs x) s.dev :=
    (decodeRecord_plain hx hk hflat (by omega)).trans
      (decodeAt_goesOn (jobS_setJob 1 x s.dev) hk hflat hin ((hsame.dramRead ..).trans hread) hh hcrc hok hprev hroom ((hsame.dramRead ..).trans hblocks) hsum hxs
        ((hsame.dramHas ..).trans hhas))
  refine jobRecord_goesOn (e := 1) hst hy hdo (recordDecoded_goesOn ..) fun q hq hjob hposted => ?_
  have hused : (q.jobS 1).inUsed = x.inUsed + (40 + cdiv h.clen 8 * 8) := congrArg JobS.inUsed hjob
  exact ⟨congrArg s.mem.applyAll hposted, hused.trans (Nat.add_assoc ..).symm, congrArg JobS.outUsed hjob, congrArg JobS.records hjob, (get_after ..).trans hq⟩

/-- Settles O53: a step of a job goes on with its bytes in DRAM, or ends the job with a status. -/
theorem jobsCodeAndDecode : Obligations.JobsCodeAndDecode :=
  ⟨jobStart_completes, jobStart_fails, jobRecord_encodes, jobRecord_decodes, jobRecord_waits, jobRecord_consumed, jobRecord_full, jobResume_completes,
    jobAbort_completes⟩

end Sys2Proof.Proofs
end

section
/-!
A channel's step: what the rules of the state leave of its registers and its state, and which DRAM effects they post (R381 to R402).
-/
namespace Sys2Proof.Proofs
open Sys2Proof Sys2Proof.Machine

/-- From `d` to `e` no register but these and the books has changed; the state of channel `c` is `g` of the one before, and these
DRAM effects were posted. -/
structure ChanStep (c : Nat) (fs : List Fld) (ops : List MemOp) (g : ChS → ChS) (d e : Dev) : Prop where
  get : ∀ f : Fld, bookKey f.key = false → f.key ∉ fs.map Fld.key → e.get f = d.get f
  chS : e.chS c = g (d.chS c)
  posted : e.posted = d.posted ++ ops

section
variable {c : Nat} {fs fs' : List Fld} {ops ops' : List MemOp} {g g' : ChS → ChS} {d e k : Dev}

theorem ChanStep.trans (h : ChanStep c fs ops g d e) (h' : ChanStep c fs' ops' g' e k) : ChanStep c (fs ++ fs') (ops ++ ops') (g' ∘ g) d k where
  get f hb hf := by
    rw [List.map_append, List.mem_append, not_or] at hf
    exact (h'.get f hb hf.2).trans (h.get f hb hf.1)
  chS := by rw [h'.chS, h.chS, Function.comp]
  posted := by rw [h'.posted, h.posted, List.append_assoc]

theorem ChanStep.mono (h : ChanStep c fs ops g d e) (hsub : ∀ f ∈ fs, f ∈ fs') : ChanStep c fs' ops g d e :=
  ⟨fun f hb hf => h.get f hb fun hmem => hf (by
    obtain ⟨r, hr, heq⟩ := List.mem_map.mp hmem
    exact List.mem_map.mpr ⟨r, hsub r hr, heq⟩), h.chS, h.posted⟩

theorem chanStep_refl (c : Nat) (d : Dev) : ChanStep c [] [] id d d := ⟨fun _ _ _ => rfl, rfl, (List.append_nil _).symm⟩

theorem chanStep_of_leaves (c : Nat) (h : Leaves fs d e) : ChanStep c fs [] id d e :=
  ⟨fun _ hb hf => h.get hb hf, by rw [Dev.chS, (dma_of_leaves h).1, Dev.chS, id], by rw [h.posted, List.append_nil]⟩

/-- Nothing of the channel, of the registers or of what is posted changes. -/
theorem chanStep_same (c : Nat) (hr : e.regs = d.regs) (hc : e.dma.ch = d.dma.ch) (hp : e.posted = d.posted) : ChanStep c [] [] id d e :=
  ⟨fun f _ _ => get_congr hr f, by rw [Dev.chS, hc, Dev.chS, id], by rw [hp, List.append_nil]⟩

theorem ChanStep.when {b : Bool} {F : Dev → Dev} (h : ChanStep c fs [] id d (F d)) : ChanStep c fs [] id d (when b F d) := by
  cases b with
  | true => exact h
  | false => exact (chanStep_refl c d).mono (by simp)

end

/-- The state of a channel is written, as `g` of what it was. -/
theorem chanStep_setCh (c : Nat) (g : ChS → ChS) (d : Dev) : ChanStep c [] [] g d (setCh c (g (d.chS c)) d) :=
  ⟨fun _ _ _ => rfl, KMap.get_put_self .., (List.append_nil _).symm⟩

theorem chanStep_put (c : Nat) (f : Fld) (v : Nat) (d : Dev) : ChanStep c [f] [] id d (put f v d) := chanStep_of_leaves c (leaves_put f v d)

theorem chanStep_event (c code : Nat) (seq : Fld) (fs : List Fld) (d : Dev) : ChanStep c (seq :: fs) [] id d (event code seq fs d) :=
  chanStep_of_leaves c (leaves_event code seq fs d)

theorem leaves_dmaPerf (code n : Nat) (d : Dev) : Leaves [] d (dmaPerf code n d) := leaves_perf _ (by unfold PerfBase; decide) code n d

theorem chanStep_dmaPerf (c code n : Nat) (d : Dev) : ChanStep c [] [] id d (dmaPerf code n d) := chanStep_of_leaves c (leaves_dmaPerf code n d)

theorem chanStep_dmaStat (c i n : Nat) (d : Dev) : ChanStep c [R.DMA.STAT.COUNT c i] [] id d (dmaStat c i n d) := chanStep_of_leaves c (leaves_put ..)

theorem counted_dmaStat (c i n : Nat) (d : Dev) : Counted (R.DMA.STAT.COUNT c i) n d (dmaStat c i n d) := get_put_self ..

theorem chanStep_raise (c n : Nat) (d : Dev) : ChanStep c [] [] id d (raise n d) := chanStep_of_leaves c (leaves_raise n d)

theorem chanStep_meterCh (c k space n : Nat) (d : Dev) : ChanStep c [] [] id d (meterCh k space n d) := by
  unfold meterCh
  split
  · exact chanStep_same c rfl rfl rfl
  · exact chanStep_refl c d

theorem chanStep_readHost (c mrrs fuel : Nat) : ∀ (a n : Nat) (d : Dev), ChanStep c [] [] id d (readHost mrrs fuel a n d) := by
  induction fuel with
  | zero => exact fun _ _ d => chanStep_refl c d
  | succ fuel ih =>
    intro a n d
    rw [readHost]
    split
    · exact chanStep_refl c d
    · have hemit : ChanStep c [] [] id d (emit (.hostRead a (min n (min (max 1 mrrs) (4096 - a % 4096)))) d) := chanStep_same c rfl rfl rfl
      exact hemit.trans (ih _ _ _)

theorem chanStep_hostWrites (c a : Nat) (bs : List Byte) (d : Dev) : ChanStep c [] [] id d (writeSpace 0 a bs d) := by
  have hall (ps : List (Nat × List Byte)) (d : Dev) : ChanStep c [] [] id d (each (fun p d => emit (.hostWrite p.1 p.2) d) ps d) := by
    induction ps generalizing d with
    | nil => exact chanStep_refl c d
    | cons p ps ih =>
      have hone : ChanStep c [] [] id d (emit (.hostWrite p.1 p.2) d) := chanStep_same c rfl rfl rfl
      exact hone.trans (ih _)
  rw [writeSpace, if_pos rfl]
  exact hall ..

theorem chanStep_dramWrite (c a : Nat) (bs : List Byte) (d : Dev) : ChanStep c [] (writePosts a bs d) id d (dramWrite a bs d) := by
  rw [dramWrite_eq]
  exact ⟨fun _ _ _ => rfl, rfl, rfl⟩

/-- What a write posts depends on the map alone. -/
theorem writePosts_congr {d e : Dev} (h : ∀ f ∈ mapRegs, e.get f = d.get f) (a : Nat) (bs : List Byte) : writePosts a bs e = writePosts a bs d :=
  SameDram.writePosts (e := withPosted d.posted e) ⟨h, rfl⟩ a bs

theorem writePosts_nil (a : Nat) (d : Dev) : writePosts a [] d = [] := by
  unfold writePosts
  split
  · rfl
  · rfl

/-! ## The bytes of a read -/

theorem sum_granules (fuel : Nat) : ∀ a n : Nat, n ≤ 64 * (fuel - 1) + (64 - a % 64) → 1 ≤ fuel → ((granules fuel a n).map Prod.snd).sum = n := by
  induction fuel with
  | zero => omega
  | succ fuel ih =>
    intro a n hn _
    rw [granules]
    split
    · next h => simp [h]
    · simp only [List.map_cons, List.sum_cons]
      rcases Nat.le_total n (64 - a % 64) with hle | hle
      · rw [Nat.min_eq_left hle, Nat.sub_self]
        have hnil : granules fuel (a + n) 0 = [] := by cases fuel <;> rfl
        rw [hnil]
        rfl
      · have hpos : 1 ≤ fuel ∨ n = 64 - a % 64 := by omega
        rw [Nat.min_eq_right hle]
        rcases hpos with hpos | heq
        · have hmod : (a + (64 - a % 64)) % 64 = 0 := by omega
          rw [ih _ _ (by rw [hmod]; omega) hpos]
          omega
        · have hnil : granules fuel (a + (64 - a % 64)) (n - (64 - a % 64)) = [] := by
            rw [heq, Nat.sub_self]
            cases fuel <;> rfl
          rw [hnil, heq]
          rfl

theorem dramRead_length (d : Dev) (m : Mem) (a n : Nat) : (d.dramRead m a n).1.length = n := by
  unfold Dev.dramRead
  split
  · simp
  · simp only [List.length_flatMap, List.length_map, List.length_range]
    exact sum_granules (n / 64 + 2) a n (by omega) (by omega)

/-! ## Channels that halt, and done events -/

theorem countBytes_step (c n : Nat) (d : Dev) : ChanStep c [R.DMA.STAT.COUNT c 1] [] (fun x => { x with rem := (x.rem + n) % 64 }) d (countBytes c n d) := by
  unfold countBytes
  dsimp only
  exact (((chanStep_setCh c (fun x => { x with rem := (x.rem + n) % 64 }) d).trans (chanStep_dmaStat ..)).trans (chanStep_dmaPerf ..)).trans (chanStep_dmaPerf ..)

/-- The registers that a halt of a channel writes. -/
def haltRegs (c : Nat) : List Fld :=
  [R.DMA.CH_STATUS.CAUSE c, R.DMA.CH_STATUS.STATE c, R.DMA.CH_STATUS.SEQ c, R.DMA.CH_STATUS.HALTED c, R.DMA.STATUS.SEQ, R.DMA.STATUS.HALT, R.DMA.STAT.COUNT c 2]

theorem haltRegs_apart {c : Nat} (hc : c < 32) :
    (∀ f ∈ [R.DMA.CH_STATUS.CAUSE c, R.DMA.CH_STATUS.STATE c, R.DMA.CH_STATUS.SEQ c, R.DMA.CH_STATUS.HALTED c], bookKey f.key = false) ∧
    (∀ f ∈ [R.DMA.CH_STATUS.SEQ c, R.DMA.CH_STATUS.HALTED c], f.key ∉ [R.DMA.CH_STATUS.CAUSE c, R.DMA.CH_STATUS.STATE c].map Fld.key) ∧
    (∀ f ∈ [R.DMA.CH_STATUS.CAUSE c, R.DMA.CH_STATUS.STATE c], f.key ∉ [R.DMA.CH_STATUS.SEQ c, R.DMA.CH_STATUS.HALTED c].map Fld.key) ∧
    (∀ f ∈ [R.DMA.CH_STATUS.CAUSE c, R.DMA.CH_STATUS.STATE c, R.DMA.CH_STATUS.SEQ c, R.DMA.CH_STATUS.HALTED c],
      f.key ∉ [R.DMA.STATUS.SEQ, R.DMA.STATUS.HALT, R.DMA.STAT.COUNT c 2].map Fld.key) ∧
    (R.DMA.CH_STATUS.CAUSE c).key ≠ (R.DMA.CH_STATUS.STATE c).key ∧ (R.DMA.CH_STATUS.SEQ c).key ∉ [R.DMA.CH_STATUS.HALTED c].map Fld.key := by
  decide +revert +kernel

/-- The channel has stopped with a cause, before its events. -/
def stopped (c cause : Nat) (d : Dev) : Dev :=
  setCh c { (chState c 4 (put (R.DMA.CH_STATUS.CAUSE c) cause d)).chS c with haltReq := false, wait := none } (chState c 4 (put (R.DMA.CH_STATUS.CAUSE c) cause d))

/-- The device's own event of a halt, with its counts. -/
def haltShown (c cause : Nat) (d : Dev) : Dev :=
  dmaPerf 8 1 (raise (32 + c) (when (cause != 6) (dmaStat c 2 1) (event 0x13 R.DMA.STATUS.SEQ [R.DMA.STATUS.HALT] d)))

theorem halt_eq (c cause : Nat) (d : Dev) :
    halt c cause d = haltShown c cause (event 0x13 (R.DMA.CH_STATUS.SEQ c) [R.DMA.CH_STATUS.HALTED c] (stopped c cause d)) := rfl

theorem haltShown_step (c cause : Nat) (d : Dev) : ChanStep c [R.DMA.STATUS.SEQ, R.DMA.STATUS.HALT, R.DMA.STAT.COUNT c 2] [] id d (haltShown c cause d) := by
  have hev := chanStep_event c 0x13 R.DMA.STATUS.SEQ [R.DMA.STATUS.HALT] d
  unfold haltShown
  generalize event 0x13 R.DMA.STATUS.SEQ [R.DMA.STATUS.HALT] d = e at hev ⊢
  have hstat : ChanStep c [R.DMA.STAT.COUNT c 2] [] id e (when (cause != 6) (dmaStat c 2 1) e) := ChanStep.when (chanStep_dmaStat c 2 1 e)
  exact ((hev.trans hstat).trans (chanStep_raise ..)).trans (chanStep_dmaPerf ..)

/-- What a halt shows. -/
theorem halt_facts {c cause : Nat} (hc : c < 32) (hcause : cause < 16) (d : Dev) :
    ChanStep c (haltRegs c) [] (fun x => { x with haltReq := false, wait := none }) d (halt c cause d) ∧ (halt c cause d).chState c = 4 ∧
    (halt c cause d).get (R.DMA.CH_STATUS.CAUSE c) = cause ∧ Raised (R.DMA.CH_STATUS.SEQ c) [R.DMA.CH_STATUS.HALTED c] d (halt c cause d) := by
  obtain ⟨hbook, hev, hput, hshown, hne, hseq⟩ := haltRegs_apart hc
  have hstop : ChanStep c [R.DMA.CH_STATUS.CAUSE c, R.DMA.CH_STATUS.STATE c] [] (fun x => { x with haltReq := false, wait := none }) d (stopped c cause d) :=
    ((chanStep_put c (R.DMA.CH_STATUS.CAUSE c) cause d).trans (chanStep_put c (R.DMA.CH_STATUS.STATE c) 4 _)).trans
      (chanStep_setCh c (fun x => { x with haltReq := false, wait := none }) _)
  have hst : (stopped c cause d).get (R.DMA.CH_STATUS.STATE c) = 4 := get_put_self ..
  have hca : (stopped c cause d).get (R.DMA.CH_STATUS.CAUSE c) = cause :=
    (get_put_ne hne 4 _).trans ((get_put_self ..).trans (Nat.mod_eq_of_lt hcause))
  rw [halt_eq]
  generalize stopped c cause d = e at hstop hst hca ⊢
  have hraise : ChanStep c [R.DMA.CH_STATUS.SEQ c, R.DMA.CH_STATUS.HALTED c] [] id e (event 0x13 (R.DMA.CH_STATUS.SEQ c) [R.DMA.CH_STATUS.HALTED c] e) :=
    chanStep_event ..
  have hr : Raised (R.DMA.CH_STATUS.SEQ c) [R.DMA.CH_STATUS.HALTED c] d (event 0x13 (R.DMA.CH_STATUS.SEQ c) [R.DMA.CH_STATUS.HALTED c] e) :=
    raised_event (fun f hf => hbook f (by simp only [List.mem_cons, List.not_mem_nil, or_false] at hf ⊢; tauto)) (by simp [R.DMA.CH_STATUS.HALTED]) hseq
      (hstop.get _ (hbook _ (by simp)) (hev _ (by simp)))
  generalize event 0x13 (R.DMA.CH_STATUS.SEQ c) [R.DMA.CH_STATUS.HALTED c] e = k at hraise hr ⊢
  have hlast := haltShown_step c cause k
  generalize haltShown c cause k = q at hlast ⊢
  have hkeep (f : Fld) (hf : f ∈ [R.DMA.CH_STATUS.CAUSE c, R.DMA.CH_STATUS.STATE c, R.DMA.CH_STATUS.SEQ c, R.DMA.CH_STATUS.HALTED c]) : q.get f = k.get f :=
    hlast.get f (hbook f hf) (hshown f hf)
  refine ⟨(hstop.trans (hraise.trans hlast)), ?_, ?_, ?_⟩
  · exact ((hkeep _ (by simp)).trans (hraise.get _ (hbook _ (by simp)) (hput _ (by simp)))).trans hst
  · exact ((hkeep _ (by simp)).trans (hraise.get _ (hbook _ (by simp)) (hput _ (by simp)))).trans hca
  · exact ⟨(hkeep _ (by simp)).trans hr.1, fun f hf => (congrArg (· == 1) (hkeep f (by
      simp only [List.mem_singleton] at hf
      simp [hf]))).trans (hr.2 f hf)⟩

theorem doneRegs_apart {c : Nat} (hc : c < 32) :
    (∀ f ∈ [R.DMA.CH_STATUS.SEQ c, R.DMA.CH_STATUS.DONE c], bookKey f.key = false) ∧ (R.DMA.CH_STATUS.SEQ c).key ∉ [R.DMA.CH_STATUS.DONE c].map Fld.key := by
  decide +revert +kernel

theorem chDone_facts {c : Nat} (hc : c < 32) (d : Dev) : ChanStep c [R.DMA.CH_STATUS.SEQ c, R.DMA.CH_STATUS.DONE c] [] id d (chDone c d) ∧
    Raised (R.DMA.CH_STATUS.SEQ c) [R.DMA.CH_STATUS.DONE c] d (chDone c d) := by
  obtain ⟨hbook, hseq⟩ := doneRegs_apart hc
  have hev := chanStep_event c 0x13 (R.DMA.CH_STATUS.SEQ c) [R.DMA.CH_STATUS.DONE c] d
  have hr : Raised (R.DMA.CH_STATUS.SEQ c) [R.DMA.CH_STATUS.DONE c] d (event 0x13 (R.DMA.CH_STATUS.SEQ c) [R.DMA.CH_STATUS.DONE c] d) :=
    raised_event hbook (by simp [R.DMA.CH_STATUS.DONE]) hseq rfl
  unfold chDone
  generalize event 0x13 (R.DMA.CH_STATUS.SEQ c) [R.DMA.CH_STATUS.DONE c] d = e at hev hr ⊢
  exact ⟨hev.trans (chanStep_raise ..), raised_then hr (leaves_raise c e) hbook (by simp)⟩

end Sys2Proof.Proofs
end

section
/-!
The descriptor rings and the report channels (R385, R386, R391, R395, R396).
-/
namespace Sys2Proof.Proofs
open Sys2Proof Sys2Proof.Machine

/-- The registers that the rules of a channel read and show. -/
def chanRegs (c : Nat) : List Fld :=
  [R.DMA.CH_STATUS.STATE c, R.DMA.CH_STATUS.CAUSE c, R.DMA.CH_STATUS.SEQ c, R.DMA.CH_STATUS.DONE c, R.DMA.CH_STATUS.HALTED c, R.DMA.CH_HEAD.COUNT c,
    R.DMA.CH_TAIL.COUNT c, R.DMA.CH_CTL.FSPACE c, R.DMA.CH_FBASE.ADDR c, R.DMA.CH_RING.LOG2 c, R.DMA.CH_RPT_DRD.COUNT c, R.DMA.CH_RPT_HWR.COUNT c,
    R.DMA.STAT.COUNT c 0, R.DMA.STAT.COUNT c 3, R.DMA.STAT.COUNT c 5]

theorem chanRegs_book {c : Nat} (hc : c < 32) : ∀ f ∈ chanRegs c, bookKey f.key = false := by decide +revert +kernel

/-- A command of a channel whose settings are sound. -/
theorem completes_onCh {c : Nat} {f : Mem → Dev → Host.Outcome Dev Fault Refusal} {i : Instr} {s : State} {post : State → Prop}
    (hexec : exec i s = onCh c f s) (h : s.dev.chOn c = true → s.dev.chErr c = none) (d : Dev) (hd : f s.mem s.dev = .next d) (hpost : post (s.after d)) :
    Completes i s post := by
  refine completes_run hexec (d := d) ?_ hpost
  rw [← hd]
  cases hon : s.dev.chOn c with
  | false => rfl
  | true =>
    rw [if_pos rfl, h hon]

/-! ## The doorbell -/

/-- A count posted by the doorbell. -/
def tailPosted (c n : Nat) (d : Dev) : Dev := setCh c { (put (R.DMA.CH_TAIL.COUNT c) n d).chS c with noOwn := false } (put (R.DMA.CH_TAIL.COUNT c) n d)

theorem tail_eq (c n : Nat) (d : Dev) : tail c n d =
    if (tailPosted c n d).chOn c && (tailPosted c n d).chMode c == 0 && (tailPosted c n d).chState c == 1 &&
      (tailPosted c n d).get (R.DMA.CH_HEAD.COUNT c) != (tailPosted c n d).get (R.DMA.CH_TAIL.COUNT c)
    then toRun c (tailPosted c n d) else tailPosted c n d := rfl

theorem tailPosted_apart {c : Nat} (hc : c < 32) :
    ∀ f ∈ [R.DMA.CH_STATUS.STATE c, R.DMA.CH_HEAD.COUNT c, R.DMA.CH_CTL.MODE c, R.DMA.CH_CTL.EN c, R.DMA.CTL.EN], f.key ≠ (R.DMA.CH_TAIL.COUNT c).key := by
  decide +revert +kernel

theorem tail_apart {c : Nat} (hc : c < 32) : (R.DMA.CH_TAIL.COUNT c).key ∉ (haltRegs c).map Fld.key ∧
    (R.DMA.CH_TAIL.COUNT c).key ≠ (R.DMA.CH_STATUS.STATE c).key := by decide +revert +kernel

theorem toRun_tail {c : Nat} (hc : c < 32) (d : Dev) : (toRun c d).get (R.DMA.CH_TAIL.COUNT c) = d.get (R.DMA.CH_TAIL.COUNT c) := by
  unfold toRun
  split
  · exact (halt_facts hc (by decide) d).1.get _ (chanRegs_book hc _ (by simp [chanRegs])) (tail_apart hc).1
  · exact get_put_ne (tail_apart hc).2 2 d

theorem tail_completes (c : Fin 32) (n : BitVec 32) (s : State) : Completes (.tail c n) s (fun t => t.dev.get (R.DMA.CH_TAIL.COUNT c.val) = n.toNat ∧
    (s.dev.chOn c.val = true → s.dev.chMode c.val = 0 → s.dev.chState c.val = 1 → s.dev.get (R.DMA.CH_HEAD.COUNT c.val) ≠ n.toNat →
      (s.dev.chS c.val).haltReq = false → t.dev.chState c.val = 2) ∧
    (s.dev.chState c.val ≠ 1 → t.dev.chState c.val = s.dev.chState c.val)) := by
  have happ := tailPosted_apart c.isLt
  have hkeep (f : Fld) (hf : f ∈ [R.DMA.CH_STATUS.STATE c.val, R.DMA.CH_HEAD.COUNT c.val, R.DMA.CH_CTL.MODE c.val, R.DMA.CH_CTL.EN c.val, R.DMA.CTL.EN]) :
      (tailPosted c.val n.toNat s.dev).get f = s.dev.get f := get_put_ne (happ f hf) n.toNat s.dev
  have htail : (tailPosted c.val n.toNat s.dev).get (R.DMA.CH_TAIL.COUNT c.val) = n.toNat := (get_put_self ..).trans (Nat.mod_eq_of_lt n.isLt)
  have hch : (tailPosted c.val n.toNat s.dev).chS c.val = { s.dev.chS c.val with noOwn := false } := KMap.get_put_self ..
  have heq := tail_eq c.val n.toNat s.dev
  generalize tailPosted c.val n.toNat s.dev = e at hkeep htail hch heq
  have hmode : e.chMode c.val = s.dev.chMode c.val := hkeep _ (by simp)
  have hstate : e.chState c.val = s.dev.chState c.val := hkeep _ (by simp)
  have hon : e.chOn c.val = s.dev.chOn c.val := by
    unfold Dev.chOn Dev.on
    rw [hkeep R.DMA.CTL.EN (by simp), hkeep (R.DMA.CH_CTL.EN c.val) (by simp)]
  rw [hmode, hstate, hon, hkeep (R.DMA.CH_HEAD.COUNT c.val) (by simp), htail] at heq
  refine completes_to (exec_tail c n s) (tail c.val n.toNat s.dev) rfl ⟨?_, fun h1 h2 h3 h4 h5 => ?_, fun h => ?_⟩
  · rw [get_after, heq]
    split
    · exact (toRun_tail c.isLt e).trans htail
    · exact htail
  · have hrun : toRun c.val e = chState c.val 2 e := if_neg (by rw [hch]; simp [h5])
    rw [if_pos (by simp [h1, h2, h3, h4]), hrun] at heq
    rw [heq]
    exact (get_after ..).trans (get_put_self ..)
  · rw [if_neg (by simp [h])] at heq
    rw [heq]
    exact (get_after ..).trans hstate

/-! ## A descriptor fetched -/

/-- The descriptor that 32 bytes hold. -/
def descOf (i : Nat) (b : List Byte) : Desc :=
  { index := i, src := fieldAt b 0 8, dst := fieldAt b 8 8, len := fieldAt b 16 4 % 2 ^ 24, ctl := fieldAt b 20 4 }

/-- A fetch has brought the bytes of a descriptor. -/
def descTaken (c i : Nat) (b : List Byte) (d : Dev) : Dev :=
  if bit (fieldAt b 20 4) 31 then setCh c { d.chS c with fetched := (d.chS c).fetched ++ [descOf i b] } d
  else ringIdle c (setCh c { (dmaStat c 5 1 d).chS c with noOwn := true } (dmaStat c 5 1 d))

/-- The request for a descriptor. -/
def descAsked (c space a : Nat) (d : Dev) : Dev := meterCh c space 32 (when (space == 0) (readHost d.dma.mrrs 64 a 32) d)

theorem descFetch_bytes {c i : Nat} {host b : List Byte} {m : Mem} {d : Dev} {trunc : Bool} (hnext : d.nextDesc c = some i)
    (hhost : ¬ (d.get (R.DMA.CH_CTL.FSPACE c) = 0 ∧ d.hostOk = false)) (hstall : d.chStalls c = false)
    (hsrc : sourceOf m c (d.get (R.DMA.CH_CTL.FSPACE c)) (d.descAddr c i) 32 host d = .bytes b trunc) :
    descFetch c host m d = descTaken c i b (descAsked c (d.get (R.DMA.CH_CTL.FSPACE c)) (d.descAddr c i) d) := by
  unfold descFetch
  rw [hnext]
  dsimp only
  rw [if_neg hhost, if_neg (by simp [hstall]), hsrc]
  rfl

theorem nextDesc_state {d : Dev} {c i : Nat} (h : d.nextDesc c = some i) : d.chState c = 2 := by
  unfold Dev.nextDesc at h
  dsimp only at h
  split at h
  · next hc => exact hc.2.1
  · cases h

theorem descAsked_step (c space a : Nat) (d : Dev) : ChanStep c [] [] id d (descAsked c space a d) :=
  (ChanStep.when (chanStep_readHost c d.dma.mrrs 64 a 32 d)).trans (chanStep_meterCh ..)

theorem stat_apart {c : Nat} (hc : c < 32) : (R.DMA.CH_STATUS.STATE c).key ∉ [R.DMA.STAT.COUNT c 5].map Fld.key := by decide +revert +kernel

theorem ringIdle_facts (c : Nat) (d : Dev) : ChanStep c [R.DMA.CH_STATUS.STATE c] [] id d (ringIdle c d) ∧
    (d.chState c = 2 → (d.chS c).fetched = [] → (d.chS c).noOwn = true → (ringIdle c d).chState c = 1) := by
  unfold ringIdle
  dsimp only
  constructor
  · split
    · exact chanStep_put ..
    · exact (chanStep_refl c d).mono (by simp)
  · intro h1 h2 h3
    rw [if_pos ⟨h1, by simp [h2], Or.inl h3⟩]
    exact get_put_self ..

theorem descTaken_facts {c i : Nat} (hc : c < 32) (b : List Byte) {d : Dev} (hst : d.chState c = 2) :
    (bit (fieldAt b 20 4) 31 = true → (descTaken c i b d).chState c = 2 ∧ ((descTaken c i b d).chS c).fetched = (d.chS c).fetched ++ [descOf i b]) ∧
    (bit (fieldAt b 20 4) 31 = false → ((descTaken c i b d).chS c).noOwn = true ∧ ((descTaken c i b d).chS c).fetched = (d.chS c).fetched ∧
      Counted (R.DMA.STAT.COUNT c 5) 1 d (descTaken c i b d) ∧ ((d.chS c).fetched = [] → (descTaken c i b d).chState c = 1)) := by
  constructor
  · intro hown
    rw [descTaken, if_pos hown]
    have hstep := chanStep_setCh c (fun x => { x with fetched := x.fetched ++ [descOf i b] }) d
    exact ⟨hst, congrArg ChS.fetched hstep.chS⟩
  · intro hown
    rw [descTaken, if_neg (by simp [hown])]
    have hstat := (chanStep_dmaStat c 5 1 d).trans (chanStep_setCh c (fun x => { x with noOwn := true }) (dmaStat c 5 1 d))
    have hn : Counted (R.DMA.STAT.COUNT c 5) 1 d (setCh c { (dmaStat c 5 1 d).chS c with noOwn := true } (dmaStat c 5 1 d)) := counted_dmaStat c 5 1 d
    generalize setCh c { (dmaStat c 5 1 d).chS c with noOwn := true } (dmaStat c 5 1 d) = e at hstat hn ⊢
    obtain ⟨hidle, hone⟩ := ringIdle_facts c e
    generalize ringIdle c e = k at hidle hone ⊢
    have hnone : (e.chS c).noOwn = true := congrArg ChS.noOwn hstat.chS
    have hsame : (e.chS c).fetched = (d.chS c).fetched := (congrArg ChS.fetched hstat.chS).trans rfl
    have hkeep : k.chS c = e.chS c := hidle.chS
    have hstate : e.chState c = 2 := (hstat.get _ (chanRegs_book hc _ (by simp [chanRegs])) (stat_apart hc)).trans hst
    refine ⟨by rw [hkeep, hnone], by rw [hkeep, hsame], counted_of_get hn rfl (hidle.get _ (chanRegs_book hc _ (by simp [chanRegs])) ?_),
      fun h => hone hstate (hsame.trans h) hnone⟩
    clear * - hc
    decide +revert +kernel

theorem descriptorFetch_completes (c : Fin 32) (i : Nat) (host b : List Byte) (s : State) (hfree : s.dev.chFree c.val) (hnext : s.dev.nextDesc c.val = some i)
    (hsrc : (s.dev.get (R.DMA.CH_CTL.FSPACE c.val) = 0 ∧ s.dev.hostOk = true ∧ host.length = 32 ∧ b = host) ∨
      (s.dev.get (R.DMA.CH_CTL.FSPACE c.val) = 1 ∧ s.dev.dramRead s.mem (s.dev.descAddr c.val i) 32 = (b, false))) :
    Completes (.descriptorFetch c host) s (fun t =>
      (bit (fieldAt b 20 4) 31 = true → t.dev.chState c.val = 2 ∧ (t.dev.chS c.val).fetched = (s.dev.chS c.val).fetched ++
        [{ index := i, src := fieldAt b 0 8, dst := fieldAt b 8 8, len := fieldAt b 16 4 % 2 ^ 24, ctl := fieldAt b 20 4 }]) ∧
      (bit (fieldAt b 20 4) 31 = false → (t.dev.chS c.val).noOwn = true ∧ (t.dev.chS c.val).fetched = (s.dev.chS c.val).fetched ∧
        Counted (R.DMA.STAT.COUNT c.val 5) 1 s.dev t.dev ∧ ((s.dev.chS c.val).fetched = [] → t.dev.chState c.val = 1))) := by
  obtain ⟨hsound, hstall⟩ := hfree
  obtain ⟨hhost, trunc, hbytes⟩ : ¬ (s.dev.get (R.DMA.CH_CTL.FSPACE c.val) = 0 ∧ s.dev.hostOk = false) ∧
      ∃ trunc, sourceOf s.mem c.val (s.dev.get (R.DMA.CH_CTL.FSPACE c.val)) (s.dev.descAddr c.val i) 32 host s.dev = .bytes b trunc := by
    rcases hsrc with ⟨hsp, hok, hlen, rfl⟩ | ⟨hsp, hread⟩
    · exact ⟨by simp [hok], false, by rw [hsp, sourceOf, if_pos hlen]⟩
    · exact ⟨by simp [hsp], false, by rw [hsp, sourceOf, hread, if_neg (by simp)]⟩
  have hdo := descFetch_bytes hnext hhost hstall hbytes
  have hask := descAsked_step c.val (s.dev.get (R.DMA.CH_CTL.FSPACE c.val)) (s.dev.descAddr c.val i) s.dev
  generalize descAsked c.val (s.dev.get (R.DMA.CH_CTL.FSPACE c.val)) (s.dev.descAddr c.val i) s.dev = e at hdo hask
  have hbook := chanRegs_book c.isLt
  have hst : e.chState c.val = 2 := (hask.get _ (hbook _ (by simp [chanRegs])) (by simp)).trans (nextDesc_state hnext)
  have hch : e.chS c.val = s.dev.chS c.val := hask.chS
  obtain ⟨htrue, hfalse⟩ := descTaken_facts (i := i) c.isLt b hst
  rw [hch] at htrue hfalse
  refine completes_onCh (exec_descriptorFetch c host s) hsound (descTaken c.val i b e) (congrArg Host.Outcome.next hdo) ?_
  generalize descTaken c.val i b e = k at htrue hfalse ⊢
  refine ⟨fun h => htrue h, fun h => ?_⟩
  obtain ⟨h1, h2, h3, h4⟩ := hfalse h
  exact ⟨h1, h2, counted_of_get h3 (hask.get _ (hbook _ (by simp [chanRegs])) (by simp)) (get_after ..), h4⟩

theorem descriptorFetch_unlinked (c : Fin 32) (i : Nat) (host : List Byte) (s : State) (hfree : s.dev.chFree c.val) (hnext : s.dev.nextDesc c.val = some i)
    (hsp : s.dev.get (R.DMA.CH_CTL.FSPACE c.val) = 0) (hhost : s.dev.hostOk = false) :
    Completes (.descriptorFetch c host) s (fun t => t.dev.chState c.val = 5 ∧
      Frame [R.DMA.CH_STATUS.STATE c.val, R.DMA.CH_STATUS.CAUSE c.val] s.dev s t) := by
  have hdo : descFetch c.val host s.mem s.dev = linkWait c.val s.dev := by
    unfold descFetch
    rw [hnext]
    exact if_pos ⟨hsp, hhost⟩
  have hl : Leaves [R.DMA.CH_STATUS.CAUSE c.val, R.DMA.CH_STATUS.STATE c.val] s.dev (linkWait c.val s.dev) := (leaves_put ..).trans (leaves_put ..)
  exact completes_onCh (exec_descriptorFetch c host s) hfree.1 (linkWait c.val s.dev) (congrArg Host.Outcome.next hdo) ⟨(get_after ..).trans (get_put_self ..), frame_of_leaves (hl.mono (by simp)) s⟩

/-! ## A late response -/

/-- The device with another state of the DMA engine. -/
def withDma (x : DmaS) (d : Dev) : Dev := { d with dma := x }

theorem setsPart_withDma : SetsPart withDma := fun _ _ => ⟨rfl, rfl⟩

/-- A late response of the host, before its performance event. -/
def lateNoted (c : Nat) (d : Dev) : Dev := hstStat 5 1 (dmaStat c 3 1 (setCh c { d.chS c with late := (d.chS c).late - 1 } d))

theorem late_apart {c : Nat} (hc : c < 32) : bookKey (R.DMA.STAT.COUNT c 3).key = false ∧ (R.DMA.STAT.COUNT c 3).key ≠ (R.HST.STAT.COUNT 5).key ∧
    bookKey (R.HST.STAT.COUNT 5).key = false := by decide +revert +kernel

theorem lateNoted_facts {c : Nat} (hc : c < 32) (d : Dev) : Upto withDma [R.DMA.STAT.COUNT c 3, R.HST.STAT.COUNT 5] d (lateNoted c d) ∧
    Counted (R.DMA.STAT.COUNT c 3) 1 d (lateNoted c d) ∧ Counted (R.HST.STAT.COUNT 5) 1 d (lateNoted c d) ∧
    (lateNoted c d).chS c = { d.chS c with late := (d.chS c).late - 1 } := by
  obtain ⟨-, hne, -⟩ := late_apart hc
  have hset : Upto withDma [] d (setCh c { d.chS c with late := (d.chS c).late - 1 } d) := upto_of_eq fun _ => rfl
  have hch : (setCh c { d.chS c with late := (d.chS c).late - 1 } d).chS c = { d.chS c with late := (d.chS c).late - 1 } := KMap.get_put_self ..
  have hget (f : Fld) : (setCh c { d.chS c with late := (d.chS c).late - 1 } d).get f = d.get f := rfl
  unfold lateNoted
  generalize setCh c { d.chS c with late := (d.chS c).late - 1 } d = e at hset hch hget ⊢
  have hstats : Leaves [R.DMA.STAT.COUNT c 3, R.HST.STAT.COUNT 5] e (hstStat 5 1 (dmaStat c 3 1 e)) := (leaves_put ..).trans (leaves_put ..)
  have hdma : (hstStat 5 1 (dmaStat c 3 1 e)).get (R.DMA.STAT.COUNT c 3) = (dmaStat c 3 1 e).get (R.DMA.STAT.COUNT c 3) := get_put_ne hne ..
  have hhst : (dmaStat c 3 1 e).get (R.HST.STAT.COUNT 5) = e.get (R.HST.STAT.COUNT 5) := get_put_ne (Ne.symm hne) ..
  exact ⟨hset.trans (upto_of_leaves setsPart_withDma hstats), counted_of_get (counted_dmaStat c 3 1 e) (hget _) hdma,
    counted_of_get (counted_hstStat 5 1 (dmaStat c 3 1 e)) (hhst.trans (hget _)) rfl, hch⟩

theorem descriptorComplete_late (c : Fin 32) (host : List Byte) (s : State) (hfree : s.dev.chFree c.val) (hlate : (s.dev.chS c.val).late ≠ 0) :
    Completes (.descriptorComplete c ⟨.lateHost, host⟩) s (fun t =>
      (t.dev.chS c.val).late + 1 = (s.dev.chS c.val).late ∧ Counted (R.DMA.STAT.COUNT c.val 3) 1 s.dev t.dev ∧
      Counted (R.HST.STAT.COUNT 5) 1 s.dev t.dev ∧ (t.dev.chS c.val).fetched = (s.dev.chS c.val).fetched ∧
      Frame [R.DMA.STAT.COUNT c.val 3, R.HST.STAT.COUNT 5] { s.dev with dma := t.dev.dma } s t) := by
  obtain ⟨hup, hn3, hn5, hch⟩ := lateNoted_facts c.isLt s.dev
  have hdo : lateResponse c.val true s.dev = dmaPerf 7 1 (lateNoted c.val s.dev) := by
    rw [lateResponse, if_pos rfl, if_neg hlate]
    rfl
  generalize lateNoted c.val s.dev = e at hup hn3 hn5 hch hdo
  have hp := leaves_dmaPerf 7 1 e
  have hkch : (dmaPerf 7 1 e).chS c.val = e.chS c.val := (chanStep_dmaPerf c.val 7 1 e).chS
  generalize dmaPerf 7 1 e = k at hp hkch hdo
  obtain ⟨hb3, -, hb5⟩ := late_apart c.isLt
  refine completes_onCh (exec_descriptorComplete c ⟨.lateHost, host⟩ s) hfree.1 k ((if_pos (by exact (by decide : RespOf.lateHost ≠ .present))).trans (congrArg Host.Outcome.next hdo)) ⟨?_, ?_, ?_, ?_, ?_⟩
  · refine (congrArg (fun x : ChS => x.late + 1) (hkch.trans hch)).trans ?_
    show (s.dev.chS c.val).late - 1 + 1 = (s.dev.chS c.val).late
    omega
  · exact counted_of_get hn3 rfl ((get_after ..).trans (hp.get hb3 (by simp)))
  · exact counted_of_get hn5 rfl ((get_after ..).trans (hp.get hb5 (by simp)))
  · exact (congrArg ChS.fetched hkch).trans ((congrArg ChS.fetched hch).trans rfl)
  · exact frame_of_upto (hup.trans (upto_of_leaves setsPart_withDma hp)) s k.dma rfl

/-! ## A copy within device DRAM -/

/-- The registers that a descriptor's work writes, but for its state and events. -/
def workRegs (c : Nat) : List Fld := [R.DMA.STAT.COUNT c 1, R.DMA.CH_HEAD.COUNT c]

theorem workRegs_apart {c : Nat} (hc : c < 32) :
    (∀ f ∈ [R.DMA.CH_STATUS.STATE c, R.DMA.CH_STATUS.SEQ c, R.DMA.STAT.COUNT c 0, R.DMA.CH_CTL.FSPACE c, R.DMA.CH_FBASE.ADDR c, R.DMA.CH_RING.LOG2 c] ++ mapRegs,
      bookKey f.key = false ∧ f.key ∉ (workRegs c).map Fld.key) := by decide +revert +kernel

theorem bookKey_head {c : Nat} (hc : c < 32) : bookKey (R.DMA.CH_HEAD.COUNT c).key = false := by decide +revert +kernel

/-- The bytes that a descriptor's write-back holds. -/
def backBytes (x : Desc) (moved cause : Nat) : List Byte :=
  leBytes 4 moved ++ leBytes 4 (x.ctl % 2 ^ 31) ++ leBytes 2 (cause + 256 * b2n false) ++ leBytes 2 0 ++ leBytes 4 0

theorem writeBack_facts {c : Nat} (x : Desc) (moved cause : Nat) {d : Dev} (hsp : d.get (R.DMA.CH_CTL.FSPACE c) = 1) :
    ChanStep c [R.DMA.CH_HEAD.COUNT c] (writePosts (d.descAddr c x.index + 16) (backBytes x moved cause) d) (fun y => { y with fetched := y.fetched.tail }) d
      (writeBack c x moved cause 0 false d) ∧ (writeBack c x moved cause 0 false d).get (R.DMA.CH_HEAD.COUNT c) = (x.index + 1) % 2 ^ 32 := by
  refine ⟨?_, get_put_self ..⟩
  unfold writeBack
  dsimp only
  rw [hsp, writeSpace, if_neg (by decide)]
  have hwrite := chanStep_dramWrite c (d.descAddr c x.index + 16) (backBytes x moved cause) d
  unfold backBytes at hwrite ⊢
  generalize dramWrite (d.descAddr c x.index + 16) (leBytes 4 moved ++ leBytes 4 (x.ctl % 2 ^ 31) ++ leBytes 2 (cause + 256 * b2n false) ++ leBytes 2 0 ++
    leBytes 4 0) d = e at hwrite ⊢
  have h := ((hwrite.trans (chanStep_meterCh c c 1 16 e)).trans (chanStep_setCh c (fun y => { y with fetched := y.fetched.tail }) _)).trans
    (chanStep_put c (R.DMA.CH_HEAD.COUNT c) (x.index + 1) _)
  simpa only [List.append_nil, List.nil_append, Function.id_comp, Function.comp_id] using h

/-- The bytes of a copy have reached their destination. -/
def bytesCopied (c : Nat) (x : Desc) (bs : List Byte) (d : Dev) : Dev :=
  countBytes c bs.length (meterCh c 1 bs.length (dramWrite (x.dst + x.len) [] (dramWrite x.dst bs (meterCh c 1 bs.length d))))

theorem bytesCopied_step (c : Nat) (x : Desc) (bs : List Byte) (d : Dev) :
    ChanStep c [R.DMA.STAT.COUNT c 1] (writePosts x.dst bs d) (fun y => { y with rem := (y.rem + bs.length) % 64 }) d (bytesCopied c x bs d) := by
  have hmeter := chanStep_meterCh c c 1 bs.length d
  unfold bytesCopied
  generalize meterCh c 1 bs.length d = e at hmeter ⊢
  have hposts : writePosts x.dst bs e = writePosts x.dst bs d :=
    writePosts_congr (fun f hf => hmeter.get f (mapRegs_book f hf) (by simp)) _ _
  have hwrite := chanStep_dramWrite c x.dst bs e
  rw [hposts] at hwrite
  generalize dramWrite x.dst bs e = k at hwrite ⊢
  have hnil := chanStep_dramWrite c (x.dst + x.len) [] k
  rw [writePosts_nil] at hnil
  generalize dramWrite (x.dst + x.len) [] k = q at hnil ⊢
  have h := (((hmeter.trans hwrite).trans hnil).trans (chanStep_meterCh c c 1 bs.length q)).trans (countBytes_step c bs.length _)
  simpa only [List.append_nil, List.nil_append, Function.id_comp, Function.comp_id] using h

/-- A completed descriptor is counted, and done is raised when it is asked. -/
def copyDone (c : Nat) (x : Desc) (d : Dev) : Dev := ringIdle c (when (bit x.ctl 5) (chDone c) (dmaPerf 1 1 (dmaStat c 0 1 d)))

theorem doneApart {c : Nat} (hc : c < 32) :
    (∀ f ∈ [R.DMA.CH_STATUS.SEQ c, R.DMA.CH_STATUS.DONE c, R.DMA.STAT.COUNT c 0, R.DMA.CH_HEAD.COUNT c],
      bookKey f.key = false ∧ f.key ∉ [R.DMA.CH_STATUS.STATE c].map Fld.key) ∧
    (∀ f ∈ [R.DMA.CH_STATUS.SEQ c, R.DMA.CH_HEAD.COUNT c], f.key ∉ [R.DMA.STAT.COUNT c 0].map Fld.key) ∧
    (∀ f ∈ [R.DMA.STAT.COUNT c 0, R.DMA.CH_HEAD.COUNT c], f.key ∉ [R.DMA.CH_STATUS.SEQ c, R.DMA.CH_STATUS.DONE c].map Fld.key) := by
  decide +revert +kernel

theorem copyDone_facts {c : Nat} (hc : c < 32) (x : Desc) (d : Dev) : (copyDone c x d).chS c = d.chS c ∧ (copyDone c x d).posted = d.posted ∧
    (copyDone c x d).get (R.DMA.CH_HEAD.COUNT c) = d.get (R.DMA.CH_HEAD.COUNT c) ∧ Counted (R.DMA.STAT.COUNT c 0) 1 d (copyDone c x d) ∧
    (bit x.ctl 5 = true → Raised (R.DMA.CH_STATUS.SEQ c) [R.DMA.CH_STATUS.DONE c] d (copyDone c x d)) := by
  obtain ⟨hstate, hstat, hdone⟩ := doneApart hc
  have hn := counted_dmaStat c 0 1 d
  have hs := (chanStep_dmaStat c 0 1 d).trans (chanStep_dmaPerf c 1 1 _)
  have hkeep := (chanStep_dmaPerf c 1 1 (dmaStat c 0 1 d)).get (R.DMA.STAT.COUNT c 0) (hstate _ (by simp)).1 (by simp)
  unfold copyDone
  generalize dmaPerf 1 1 (dmaStat c 0 1 d) = e at hs hkeep ⊢
  obtain ⟨hd, hr⟩ := chDone_facts hc e
  have hw : ChanStep c [R.DMA.CH_STATUS.SEQ c, R.DMA.CH_STATUS.DONE c] [] id e (when (bit x.ctl 5) (chDone c) e) := ChanStep.when hd
  have hraised (h : bit x.ctl 5 = true) : Raised (R.DMA.CH_STATUS.SEQ c) [R.DMA.CH_STATUS.DONE c] e (when (bit x.ctl 5) (chDone c) e) := by
    rw [when, if_pos h]
    exact hr
  generalize when (bit x.ctl 5) (chDone c) e = k at hw hraised ⊢
  obtain ⟨hi, -⟩ := ringIdle_facts c k
  generalize ringIdle c k = q at hi ⊢
  refine ⟨hi.chS.trans (hw.chS.trans hs.chS), ?_, ?_, ?_, fun h => ?_⟩
  · rw [hi.posted, hw.posted, hs.posted]
    simp
  · exact (hi.get _ (hstate _ (by simp)).1 (hstate _ (by simp)).2).trans ((hw.get _ (hstate _ (by simp)).1 (hdone _ (by simp))).trans
      (hs.get _ (hstate _ (by simp)).1 (hstat _ (by simp))))
  · exact counted_of_get hn rfl (((hi.get _ (hstate _ (by simp)).1 (hstate _ (by simp)).2).trans (hw.get _ (hstate _ (by simp)).1 (hdone _ (by simp)))).trans hkeep)
  · have hseq := hs.get (R.DMA.CH_STATUS.SEQ c) (hstate _ (by simp)).1 (hstat _ (by simp))
    obtain ⟨h1, h2⟩ := hraised h
    refine ⟨?_, fun f hf => (congrArg (· == 1) (hi.get f ?_ ?_)).trans (h2 f hf)⟩
    · rw [hi.get _ (hstate _ (by simp)).1 (hstate _ (by simp)).2, h1, hseq]
    · rw [List.mem_singleton.mp hf]
      exact (hstate _ (by simp)).1
    · rw [List.mem_singleton.mp hf]
      exact (hstate _ (by simp)).2

/-- What a descriptor does with the bytes of its source, in DRAM and without a check. -/
theorem moved_bytes {c : Nat} {x : Desc} (bs : List Byte) (d : Dev) (hlen : x.len ≠ 0) :
    (let d := when (1 == 0 && x.len != 0) (readHost d.dma.mrrs (x.len + 2) x.src x.len) d
      let d := takeStream c (if x.len = 0 then 0 else 1) false (meterCh c 1 bs.length d)
      let d := writeSpace 1 x.dst bs d
      let d := meterCh c 1 (bs.length + ([] : List Byte).length) (writeSpace 1 (x.dst + x.len) [] d)
      let d := when (bit x.ctl 4 && 1 == 0 && x.len != 0) (barrierRead (x.dst + bs.length + ([] : List Byte).length - 1)) d
      countBytes c bs.length d) = countBytes c bs.length (meterCh c 1 bs.length (dramWrite (x.dst + x.len) [] (dramWrite x.dst bs (meterCh c 1 bs.length d)))) := by
  dsimp only
  rw [if_neg hlen, show ((1 : Nat) == 0 && x.len != 0) = false from rfl, show (bit x.ctl 4 && (1 : Nat) == 0 && x.len != 0) = false by simp, when, when,
    if_neg Bool.false_ne_true, if_neg Bool.false_ne_true, takeStream, if_neg (by decide), writeSpace, if_neg (by decide), writeSpace, if_neg (by decide),
    List.length_nil, Nat.add_zero]

section
variable {c : Fin 32} {x : Desc} {rest : List Desc} {s : State} (h : s.dev.ringCopies c.val x rest)
include h

/-- The command reaches the descriptor's work. -/
theorem descriptorComplete_runs (host : List Byte) {q : Dev} (hq : descRun c.val x host s.mem s.dev = q) {post : State → Prop} (hpost : post (s.after q)) :
    Completes (.descriptorComplete c ⟨.present, host⟩) s post := by
  obtain ⟨⟨hsound, hstall⟩, hfetched, hmode, hstate, hslice, hfsp, hss, hds, hchk, hlen, hdst⟩ := h
  refine completes_onCh (exec_descriptorComplete c ⟨.present, host⟩ s) hsound q ?_ hpost
  dsimp only
  rw [if_neg (by simp), hfetched]
  dsimp only
  rw [if_neg (by simp [hmode, hstate, hslice]), if_neg (by simp [Desc.needsHost, hfsp, hss, hds]), if_neg (by simp [hstall]),
    if_neg (by simp [hss, hds, hchk]), hq]

theorem descRun_copies {host bs : List Byte} (hread : s.dev.dramRead s.mem x.src x.len = (bs, false)) :
    descRun c.val x host s.mem s.dev = copyDone c.val x (writeBack c.val x x.len 0 0 false (bytesCopied c.val x bs s.dev)) := by
  obtain ⟨-, hfetched, hmode, hstate, hslice, hfsp, hss, hds, hchk, hlen, hdst⟩ := h
  have hbs : bs.length = x.len := (congrArg (fun r : List Byte × Bool => r.1.length) hread).symm.trans (dramRead_length ..)
  have hsrc : sourceOf s.mem c.val 1 x.src x.len host s.dev = .bytes bs false := by rw [sourceOf, hread, if_neg (by simp)]
  unfold descRun
  dsimp only
  rw [hss, hds, hchk, if_neg hlen, hsrc]
  dsimp only
  have happ : (if (bit x.ctl 8 && x.len != 0) = true then checkBytes 0 (checkOn 0 0 bs) else []) = ([] : List Byte) := by
    split <;> rfl
  rw [happ, if_neg (by simp [Dev.dstOk', hbs, hdst]), hbs]
  have hmoved := moved_bytes (c := c.val) (x := x) bs s.dev hlen
  dsimp only at hmoved
  rw [hbs] at hmoved
  rw [hmoved]
  unfold copyDone bytesCopied
  rw [hbs]
  rfl

theorem descRun_poisoned {host : List Byte} (hpoison : (s.dev.dramRead s.mem x.src x.len).2 = true) :
    descRun c.val x host s.mem s.dev = descFail c.val x (s.dev.goodBytes s.mem x.src x.len) 4 s.dev := by
  obtain ⟨-, hfetched, hmode, hstate, hslice, hfsp, hss, hds, hchk, hlen, hdst⟩ := h
  have hsrc : sourceOf s.mem c.val 1 x.src x.len host s.dev = .failed (s.dev.goodBytes s.mem x.src x.len) := by
    rw [sourceOf, if_pos (by simp [hpoison, hlen])]
  unfold descRun
  dsimp only
  rw [hss, if_neg hlen, hsrc]

end

theorem stateApart {c : Nat} (hc : c < 32) : (R.DMA.CH_HEAD.COUNT c).key ∉ (haltRegs c).map Fld.key ∧
    (∀ f ∈ [R.DMA.CH_STATUS.SEQ c, R.DMA.STAT.COUNT c 0], f.key ∉ [R.DMA.STAT.COUNT c 1, R.DMA.CH_HEAD.COUNT c].map Fld.key) ∧
    (∀ f ∈ [R.DMA.CH_CTL.FSPACE c, R.DMA.CH_FBASE.ADDR c, R.DMA.CH_RING.LOG2 c] ++ mapRegs, bookKey f.key = false ∧
      f.key ∉ [R.DMA.STAT.COUNT c 1].map Fld.key) := by decide +revert +kernel

/-- Where a descriptor stands does not depend on what the work before its write-back has changed. -/
theorem descAddr_step {c : Nat} (hc : c < 32) {ops : List MemOp} {g : ChS → ChS} {d e : Dev} (h : ChanStep c [R.DMA.STAT.COUNT c 1] ops g d e) (i : Nat) :
    e.descAddr c i = d.descAddr c i ∧ e.get (R.DMA.CH_CTL.FSPACE c) = d.get (R.DMA.CH_CTL.FSPACE c) ∧
    ∀ a bs, writePosts a bs e = writePosts a bs d := by
  obtain ⟨-, -, hreg⟩ := stateApart hc
  have hkeep (f : Fld) (hf : f ∈ [R.DMA.CH_CTL.FSPACE c, R.DMA.CH_FBASE.ADDR c, R.DMA.CH_RING.LOG2 c] ++ mapRegs) : e.get f = d.get f :=
    h.get f (hreg f hf).1 (hreg f hf).2
  refine ⟨?_, hkeep _ (by simp), writePosts_congr fun f hf => hkeep f (List.mem_append_right _ hf)⟩
  rw [Dev.descAddr, hkeep _ (by simp), hkeep (R.DMA.CH_RING.LOG2 c) (by simp), Dev.descAddr]

theorem backBytes_done (x : Desc) : backBytes x x.len 0 = leBytes 4 x.len ++ leBytes 4 (x.ctl % 2 ^ 31) ++ leBytes 8 0 := by
  have h : leBytes 2 (0 + 256 * b2n false) ++ leBytes 2 0 ++ leBytes 4 0 = leBytes 8 0 := by decide
  unfold backBytes
  rw [← h]
  simp only [List.append_assoc]

theorem descriptorComplete_copies (c : Fin 32) (x : Desc) (rest : List Desc) (host bs : List Byte) (s : State) (h : s.dev.ringCopies c.val x rest)
    (hread : s.dev.dramRead s.mem x.src x.len = (bs, false)) :
    Completes (.descriptorComplete c ⟨.present, host⟩) s (fun t =>
      t.mem = (s.after (dramWrite (s.dev.descAddr c.val x.index + 16)
        (leBytes 4 x.len ++ leBytes 4 (x.ctl % 2 ^ 31) ++ leBytes 8 0) (dramWrite x.dst bs s.dev))).mem ∧
      t.dev.get (R.DMA.CH_HEAD.COUNT c.val) = (x.index + 1) % 2 ^ 32 ∧ (t.dev.chS c.val).fetched = rest ∧
      Counted (R.DMA.STAT.COUNT c.val 0) 1 s.dev t.dev ∧
      (bit x.ctl 5 = true → Raised (R.DMA.CH_STATUS.SEQ c.val) [R.DMA.CH_STATUS.DONE c.val] s.dev t.dev)) := by
  have hdo := descRun_copies h (host := host) hread
  have hbook := chanRegs_book c.isLt
  obtain ⟨-, hwork, -⟩ := stateApart c.isLt
  have hcopy := bytesCopied_step c.val x bs s.dev
  generalize bytesCopied c.val x bs s.dev = e at hdo hcopy
  obtain ⟨haddr, hfsp, hposts⟩ := descAddr_step c.isLt hcopy x.index
  obtain ⟨hback, hhead⟩ := writeBack_facts x x.len 0 (c := c.val) (d := e) (by rw [hfsp]; exact h.2.2.2.2.2.1)
  rw [haddr, hposts, backBytes_done] at hback
  generalize writeBack c.val x x.len 0 0 false e = k at hdo hback hhead
  obtain ⟨hqch, hqposted, hqhead, hqn, hqr⟩ := copyDone_facts c.isLt x k
  generalize copyDone c.val x k = q at hdo hqch hqposted hqhead hqn hqr
  have hsteps := hcopy.trans hback
  have hkeep (f : Fld) (hf : f ∈ [R.DMA.CH_STATUS.SEQ c.val, R.DMA.STAT.COUNT c.val 0]) : k.get f = s.dev.get f :=
    hsteps.get f (hbook f (by
      simp only [List.mem_cons, List.not_mem_nil, or_false] at hf
      rcases hf with rfl | rfl <;> simp [chanRegs])) (hwork f hf)
  refine descriptorComplete_runs h host hdo ⟨?_, (get_after ..).trans (hqhead.trans hhead), ?_, counted_of_get hqn (hkeep _ (by simp)) (get_after ..), fun h5 => ?_⟩
  · refine congrArg s.mem.applyAll (hqposted.trans (hsteps.posted.trans ?_))
    rw [dramWrite_eq, dramWrite_eq]
    exact (List.append_assoc ..).symm
  · have hfetched : (q.chS c.val).fetched = (s.dev.chS c.val).fetched.tail := (congrArg ChS.fetched (hqch.trans hsteps.chS)).trans rfl
    exact hfetched.trans (by rw [h.2.1, List.tail_cons])
  · obtain ⟨h1, h2⟩ := hqr h5
    exact raised_after ⟨by rw [h1, hkeep _ (by simp)], h2⟩ s

theorem descriptorComplete_poisoned (c : Fin 32) (x : Desc) (rest : List Desc) (host : List Byte) (s : State) (h : s.dev.ringCopies c.val x rest)
    (hpoison : (s.dev.dramRead s.mem x.src x.len).2 = true) :
    Completes (.descriptorComplete c ⟨.present, host⟩) s (fun t =>
      t.dev.chState c.val = 4 ∧ t.dev.get (R.DMA.CH_STATUS.CAUSE c.val) = 4 ∧
      Raised (R.DMA.CH_STATUS.SEQ c.val) [R.DMA.CH_STATUS.HALTED c.val] s.dev t.dev ∧
      t.dev.get (R.DMA.CH_HEAD.COUNT c.val) = (x.index + 1) % 2 ^ 32) := by
  have hdo := descRun_poisoned h (host := host) hpoison
  have hbook := chanRegs_book c.isLt
  obtain ⟨hhalt, hwork, -⟩ := stateApart c.isLt
  generalize s.dev.goodBytes s.mem x.src x.len = got at hdo
  have hds : bits x.ctl 2 2 = 1 := h.2.2.2.2.2.2.2.1
  have hwritten : ChanStep c.val [] (writePosts x.dst got s.dev) id s.dev (meterCh c.val 1 got.length (dramWrite x.dst got s.dev)) := by
    simpa only [List.append_nil, Function.id_comp] using (chanStep_dramWrite c.val x.dst got s.dev).trans (chanStep_meterCh c.val c.val 1 got.length _)
  have hfail : descFail c.val x got 4 s.dev =
      halt c.val 4 (writeBack c.val x got.length 4 0 false (countBytes c.val got.length (meterCh c.val 1 got.length (dramWrite x.dst got s.dev)))) := by
    unfold descFail
    dsimp only
    rw [hds, writeSpace, if_neg (by decide)]
  rw [hfail] at hdo
  have hcount := hwritten.trans (countBytes_step c.val got.length (meterCh c.val 1 got.length (dramWrite x.dst got s.dev)))
  generalize countBytes c.val got.length (meterCh c.val 1 got.length (dramWrite x.dst got s.dev)) = e at hdo hcount
  obtain ⟨-, hfsp, -⟩ := descAddr_step c.isLt hcount x.index
  obtain ⟨hback, hhead⟩ := writeBack_facts x got.length 4 (c := c.val) (d := e) (by rw [hfsp]; exact h.2.2.2.2.2.1)
  generalize writeBack c.val x got.length 4 0 false e = k at hdo hback hhead
  obtain ⟨hstep, hstate, hcause, hr⟩ := halt_facts (cause := 4) c.isLt (by decide) k
  generalize halt c.val 4 k = q at hdo hstep hstate hcause hr
  have hseq : k.get (R.DMA.CH_STATUS.SEQ c.val) = s.dev.get (R.DMA.CH_STATUS.SEQ c.val) :=
    (hcount.trans hback).get _ (hbook _ (by simp [chanRegs])) (hwork _ (by simp))
  refine descriptorComplete_runs h host hdo ⟨(get_after ..).trans hstate, (get_after ..).trans hcause, raised_after ⟨by rw [hr.1, hseq], hr.2⟩ s,
    (get_after ..).trans ((hstep.get _ (bookKey_head c.isLt) hhalt).trans hhead)⟩

/-! ## Report channels -/

theorem forward_step (c base size n : Nat) (m : Mem) (k : Nat) : ∀ (j : Nat) (d : Dev),
    ChanStep c [R.DMA.CH_RPT_HWR.COUNT c] [] id d (forward c base size n m k j d) ∧
    (k ≠ 0 → (forward c base size n m k j d).get (R.DMA.CH_RPT_HWR.COUNT c) = (d.get (R.DMA.CH_RPT_HWR.COUNT c) + k) % 2 ^ 32) := by
  induction k with
  | zero => exact fun _ d => ⟨(chanStep_refl c d).mono (by simp), fun h => absurd rfl h⟩
  | succ k ih =>
    intro j d
    rw [forward]
    have hwrite := chanStep_hostWrites c (d.get (R.DMA.CH_FBASE.ADDR c) + size * (d.get (R.DMA.CH_RPT_HWR.COUNT c) % 2 ^ d.get (R.DMA.CH_RING.LOG2 c)))
      (d.dramRead m (base + size * (j % n)) size).1 d
    generalize writeSpace 0 (d.get (R.DMA.CH_FBASE.ADDR c) + size * (d.get (R.DMA.CH_RPT_HWR.COUNT c) % 2 ^ d.get (R.DMA.CH_RING.LOG2 c)))
      (d.dramRead m (base + size * (j % n)) size).1 d = e at hwrite ⊢
    have hput := chanStep_put c (R.DMA.CH_RPT_HWR.COUNT c) (d.get (R.DMA.CH_RPT_HWR.COUNT c) + 1) e
    have hval : (put (R.DMA.CH_RPT_HWR.COUNT c) (d.get (R.DMA.CH_RPT_HWR.COUNT c) + 1) e).get (R.DMA.CH_RPT_HWR.COUNT c) =
      (d.get (R.DMA.CH_RPT_HWR.COUNT c) + 1) % 2 ^ 32 := get_put_self ..
    generalize put (R.DMA.CH_RPT_HWR.COUNT c) (d.get (R.DMA.CH_RPT_HWR.COUNT c) + 1) e = q at hput hval ⊢
    obtain ⟨hrest, hcount⟩ := ih ((j + 1) % 2 ^ 32) q
    refine ⟨((hwrite.trans hput).trans hrest).mono (by simp), fun _ => ?_⟩
    cases k with
    | zero => exact hval
    | succ k => rw [hcount (by omega), hval, Nat.mod_add_mod, Nat.add_assoc, Nat.add_comm 1 (k + 1)]

/-- The batch is on its way, and the channel's counts have moved on. -/
def batchMoved (c base size n send from' : Nat) (m : Mem) (d : Dev) : Dev :=
  let d := forward c base size n m send from' d
  let d := meterUser 2 (size * send) { d with ddr := { d.ddr with reports := d.ddr.reports + size * send } }
  put (R.DMA.CH_RPT_DRD.COUNT c) (from' + send) d

/-- The counts of a batch, and the write count that the host is told. -/
def batchTold (c size lost send : Nat) (d : Dev) : Dev :=
  let d := dmaPerf 0xb lost (dmaStat c 4 lost d)
  let d := writeSpace 0 (d.get (R.DMA.CH_WB.ADDR c)) (leBytes 4 (d.get (R.DMA.CH_RPT_HWR.COUNT c))) d
  chState c 2 (dmaPerf 0xa send (countBytes c (size * send) d))

theorem entriesForwarded_eq (c base size n lost send from' : Nat) (m : Mem) (d : Dev) :
    entriesForwarded c base size n lost send from' m d = chDone c (batchTold c size lost send (batchMoved c base size n send from' m d)) := rfl

theorem rptApart {c : Nat} (hc : c < 32) : (R.DMA.CH_RPT_HWR.COUNT c).key ≠ (R.DMA.CH_RPT_DRD.COUNT c).key ∧
    (∀ f ∈ [R.DMA.CH_RPT_HWR.COUNT c, R.DMA.CH_RPT_DRD.COUNT c, R.DMA.CH_STATUS.SEQ c],
      f.key ∉ [R.DMA.STAT.COUNT c 4, R.DMA.STAT.COUNT c 1, R.DMA.CH_STATUS.STATE c].map Fld.key) ∧
    (∀ f ∈ [R.DMA.CH_RPT_HWR.COUNT c, R.DMA.CH_RPT_DRD.COUNT c, R.DMA.CH_STATUS.STATE c],
      f.key ∉ [R.DMA.CH_STATUS.SEQ c, R.DMA.CH_STATUS.DONE c].map Fld.key) ∧
    (R.DMA.CH_STATUS.SEQ c).key ∉ [R.DMA.CH_RPT_HWR.COUNT c, R.DMA.CH_RPT_DRD.COUNT c].map Fld.key := by decide +revert +kernel

theorem batchMoved_facts {c : Nat} (hc : c < 32) (base size n : Nat) {send : Nat} (hsend : send ≠ 0) (from' : Nat) (m : Mem) (d : Dev) :
    ChanStep c [R.DMA.CH_RPT_HWR.COUNT c, R.DMA.CH_RPT_DRD.COUNT c] [] id d (batchMoved c base size n send from' m d) ∧
    (batchMoved c base size n send from' m d).get (R.DMA.CH_RPT_HWR.COUNT c) = (d.get (R.DMA.CH_RPT_HWR.COUNT c) + send) % 2 ^ 32 ∧
    (batchMoved c base size n send from' m d).get (R.DMA.CH_RPT_DRD.COUNT c) = (from' + send) % 2 ^ 32 := by
  obtain ⟨hf, hcount⟩ := forward_step c base size n m send from' d
  unfold batchMoved
  generalize forward c base size n m send from' d = e at hf hcount ⊢
  dsimp only
  have hmeter : ChanStep c [] [] id e (meterUser 2 (size * send) { e with ddr := { e.ddr with reports := e.ddr.reports + size * send } }) :=
    chanStep_same c rfl rfl rfl
  generalize meterUser 2 (size * send) { e with ddr := { e.ddr with reports := e.ddr.reports + size * send } } = k at hmeter ⊢
  refine ⟨((hf.trans hmeter).trans (chanStep_put ..)).mono (by simp), ?_, get_put_self ..⟩
  exact (get_put_ne (rptApart hc).1 _ k).trans ((hmeter.get _ (chanRegs_book hc _ (by simp [chanRegs])) (by simp)).trans (hcount hsend))

theorem batchTold_facts (c size lost send : Nat) (d : Dev) :
    ChanStep c [R.DMA.STAT.COUNT c 4, R.DMA.STAT.COUNT c 1, R.DMA.CH_STATUS.STATE c] [] (fun x => { x with rem := (x.rem + size * send) % 64 }) d
      (batchTold c size lost send d) ∧ (batchTold c size lost send d).chState c = 2 := by
  unfold batchTold
  dsimp only
  have hstat := (chanStep_dmaStat c 4 lost d).trans (chanStep_dmaPerf c 0xb lost _)
  generalize dmaPerf 0xb lost (dmaStat c 4 lost d) = e at hstat ⊢
  have hwrite := chanStep_hostWrites c (e.get (R.DMA.CH_WB.ADDR c)) (leBytes 4 (e.get (R.DMA.CH_RPT_HWR.COUNT c))) e
  generalize writeSpace 0 (e.get (R.DMA.CH_WB.ADDR c)) (leBytes 4 (e.get (R.DMA.CH_RPT_HWR.COUNT c))) e = k at hwrite ⊢
  have hcount := (countBytes_step c (size * send) k).trans (chanStep_dmaPerf c 0xa send _)
  generalize dmaPerf 0xa send (countBytes c (size * send) k) = q at hcount ⊢
  exact ⟨((hstat.trans hwrite).trans (hcount.trans (chanStep_put c (R.DMA.CH_STATUS.STATE c) 2 q))), get_put_self ..⟩

theorem entriesForwarded_facts {c : Nat} (hc : c < 32) (base size n lost : Nat) {send : Nat} (hsend : send ≠ 0) (from' : Nat) (m : Mem) (d : Dev) {e : Dev}
    (he : e = entriesForwarded c base size n lost send from' m d) : e.get (R.DMA.CH_RPT_DRD.COUNT c) = (from' + send) % 2 ^ 32 ∧
    e.get (R.DMA.CH_RPT_HWR.COUNT c) = (d.get (R.DMA.CH_RPT_HWR.COUNT c) + send) % 2 ^ 32 ∧
    Raised (R.DMA.CH_STATUS.SEQ c) [R.DMA.CH_STATUS.DONE c] d e ∧ e.chState c = 2 ∧ e.posted = d.posted := by
  obtain ⟨-, htold, hdone, hmoved⟩ := rptApart hc
  have hbook := chanRegs_book hc
  obtain ⟨hm, hhwr, hdrd⟩ := batchMoved_facts hc base size n hsend from' m d
  rw [entriesForwarded_eq] at he
  generalize batchMoved c base size n send from' m d = k at he hm hhwr hdrd
  obtain ⟨ht, hstate⟩ := batchTold_facts c size lost send k
  generalize batchTold c size lost send k = q at he ht hstate
  obtain ⟨hd, hr⟩ := chDone_facts hc q
  subst he
  generalize chDone c q = z at hd hr ⊢
  have hseq : q.get (R.DMA.CH_STATUS.SEQ c) = d.get (R.DMA.CH_STATUS.SEQ c) :=
    (ht.get _ (hbook _ (by simp [chanRegs])) (htold _ (by simp))).trans (hm.get _ (hbook _ (by simp [chanRegs])) hmoved)
  refine ⟨?_, ?_, ⟨by rw [hr.1, hseq], hr.2⟩, (hd.get _ (hbook _ (by simp [chanRegs])) (hdone _ (by simp))).trans hstate, ?_⟩
  · exact ((hd.get _ (hbook _ (by simp [chanRegs])) (hdone _ (by simp))).trans (ht.get _ (hbook _ (by simp [chanRegs])) (htold _ (by simp)))).trans hdrd
  · exact ((hd.get _ (hbook _ (by simp [chanRegs])) (hdone _ (by simp))).trans (ht.get _ (hbook _ (by simp [chanRegs])) (htold _ (by simp)))).trans hhwr
  · rw [hd.posted, ht.posted, hm.posted]
    simp

theorem reportBatch_completes (c : Fin 32) (ring rgn size w unread used k : Nat) (s : State) (hfree : s.dev.chFree c.val)
    (hpace : s.dev.ddr.reports < s.dev.reportPace) (hmode : s.dev.chMode c.val = 2) (hstate : s.dev.chState c.val = 2) (hslice : s.dev.sliceOk c.val = true)
    (hhost : s.dev.hostOk = true) (hsrc : s.dev.rptSource c.val = some (ring, rgn, size, w))
    (hunread : unread = (w + 2 ^ 32 - s.dev.get (R.DMA.CH_RPT_DRD.COUNT c.val)) % 2 ^ 32)
    (hbatch : max 1 (s.dev.get (R.DMA.CH_RPT_CTL.BATCH c.val)) ≤ unread) (hring : unread < (s.dev.region rgn).2 / size)
    (hused : used = (s.dev.get (R.DMA.CH_RPT_HWR.COUNT c.val) + 2 ^ 32 - s.dev.get (R.DMA.CH_RPT_HRD.COUNT c.val)) % 2 ^ 32)
    (hk : k = min (max 1 (s.dev.get (R.DMA.CH_RPT_CTL.BATCH c.val))) (2 ^ s.dev.get (R.DMA.CH_RING.LOG2 c.val) - used)) :
    (k = 0 → Completes (.reportBatch c) s (fun t => t.dev.chState c.val = 3 ∧ Frame [R.DMA.CH_STATUS.STATE c.val] s.dev s t)) ∧
    (k ≠ 0 → (∀ i, i < k → (s.dev.dramRead s.mem ((s.dev.region rgn).1 +
        size * ((s.dev.get (R.DMA.CH_RPT_DRD.COUNT c.val) % 2 ^ 32 + i) % 2 ^ 32 % ((s.dev.region rgn).2 / size))) size).2 = false) →
      Completes (.reportBatch c) s (fun t =>
        t.dev.get (R.DMA.CH_RPT_DRD.COUNT c.val) = (s.dev.get (R.DMA.CH_RPT_DRD.COUNT c.val) + k) % 2 ^ 32 ∧
        t.dev.get (R.DMA.CH_RPT_HWR.COUNT c.val) = (s.dev.get (R.DMA.CH_RPT_HWR.COUNT c.val) + k) % 2 ^ 32 ∧
        Raised (R.DMA.CH_STATUS.SEQ c.val) [R.DMA.CH_STATUS.DONE c.val] s.dev t.dev ∧ t.dev.chState c.val = 2 ∧
        t.mem = (s.after s.dev).mem)) := by
  have hdo := reportBatch_eq s.mem hsrc rfl hunread rfl rfl
  have hbpos : 1 ≤ max 1 (s.dev.get (R.DMA.CH_RPT_CTL.BATCH c.val)) := Nat.le_max_left ..
  generalize max 1 (s.dev.get (R.DMA.CH_RPT_CTL.BATCH c.val)) = batch at *
  generalize (s.dev.region rgn).2 / size = n at *
  have hu : unread ≠ 0 := by omega
  have hn : n ≠ 0 := by omega
  have hlost : (if n ≤ unread then unread - n + 1 else 0) = 0 := if_neg (by omega)
  rw [if_neg (by simp [hmode, hstate, hslice, hu, hn]), if_neg (by simp [hhost]), if_neg (by omega), if_neg (by omega)] at hdo
  unfold batchTaken at hdo
  dsimp only at hdo
  rw [Nat.min_eq_left hbatch, ← hused, ← hk, hlost] at hdo
  refine ⟨fun h => ?_, fun h hread => ?_⟩
  · rw [if_pos h] at hdo
    have hl : Leaves [R.DMA.CH_STATUS.STATE c.val] s.dev (chState c.val 3 s.dev) := leaves_put ..
    exact completes_onCh (exec_reportBatch c s) hfree.1 (chState c.val 3 s.dev) (congrArg Host.Outcome.next hdo) ⟨(get_after ..).trans (get_put_self ..), frame_of_leaves hl s⟩
  · have hgood : ¬ ((List.range (k - min k 0)).any (fun i => (s.dev.dramRead s.mem ((s.dev.region rgn).1 +
        size * (((s.dev.get (R.DMA.CH_RPT_DRD.COUNT c.val) + 0) % 2 ^ 32 + i) % 2 ^ 32 % n)) size).2) = true) := by
      simp only [List.any_eq_true, List.mem_range, not_exists, not_and, Bool.not_eq_true]
      exact fun i hi => hread i (by omega)
    rw [if_neg h, if_neg hgood, Nat.min_zero, Nat.sub_zero] at hdo
    obtain ⟨hdrd, hhwr, hr, hst, hposted⟩ := entriesForwarded_facts c.isLt _ _ _ _ h _ _ _ hdo
    refine completes_onCh (exec_reportBatch c s) hfree.1 (reportBatch c.val s.mem s.dev) rfl ?_
    generalize reportBatch c.val s.mem s.dev = q at hdrd hhwr hr hst hposted ⊢
    rw [Nat.add_zero, Nat.mod_add_mod] at hdrd
    exact ⟨(get_after ..).trans hdrd, (get_after ..).trans hhwr, raised_after hr s, (get_after ..).trans hst, congrArg s.mem.applyAll hposted⟩

/-- Settles O50: rings by their doorbell, fetch and completion, report channels by their batches. -/
theorem ringsAndReportsMoveData : Obligations.RingsAndReportsMoveData :=
  ⟨tail_completes, descriptorFetch_completes, descriptorFetch_unlinked, descriptorComplete_copies, descriptorComplete_poisoned, descriptorComplete_late,
    reportBatch_completes⟩

end Sys2Proof.Proofs
end

section
/-!
A line through a lathe: what each step leaves of the guest line in progress, of the slots taken, of the lines that wait and of the
registers (R168 to R193).
-/
namespace Sys2Proof.Proofs
open Sys2Proof Sys2Proof.Machine

/-- Of lathe `n` the guest line in progress and the slots taken stay, and of the device the pieces and lines that wait, DT and what is posted. -/
structure LatheRest (n : Nat) (d e : Dev) : Prop where
  guest : (e.lthS n).guest = (d.lthS n).guest
  taken : ∀ c, ((e.lthS n).ctxS c).taken = ((d.lthS n).ctxS c).taken
  fus : e.fus = d.fus
  homeQ : e.homeQ = d.homeQ
  tim : e.tim = d.tim
  posted : e.posted = d.posted

/-- The same, and no register but these and the books changes. -/
structure LatheStep (n : Nat) (fs : List Fld) (d e : Dev) : Prop where
  get : ∀ f : Fld, bookKey f.key = false → f.key ∉ fs.map Fld.key → e.get f = d.get f
  rest : LatheRest n d e

section
variable {n : Nat} {fs gs : List Fld} {d e k : Dev}

theorem latheRest_refl (n : Nat) (d : Dev) : LatheRest n d d := ⟨rfl, fun _ => rfl, rfl, rfl, rfl, rfl⟩

theorem LatheRest.trans (h : LatheRest n d e) (h' : LatheRest n e k) : LatheRest n d k :=
  ⟨h'.guest.trans h.guest, fun c => (h'.taken c).trans (h.taken c), h'.fus.trans h.fus, h'.homeQ.trans h.homeQ, h'.tim.trans h.tim, h'.posted.trans h.posted⟩

/-- The lathes, the pieces and lines that wait, DT and what is posted stay. -/
theorem latheRest_same (hl : e.lth = d.lth) (hf : e.fus = d.fus) (hq : e.homeQ = d.homeQ) (ht : e.tim = d.tim) (hp : e.posted = d.posted) : LatheRest n d e := by
  have hs : e.lthS n = d.lthS n := by rw [Dev.lthS, hl, Dev.lthS]
  exact ⟨by rw [hs], fun c => by rw [hs], hf, hq, ht, hp⟩

theorem latheRest_of_leaves (h : Leaves fs d e) : LatheRest n d e :=
  latheRest_same (lth_of_leaves h) (fus_of_leaves h) (homeQ_of_leaves h) (tim_of_leaves h) h.posted

theorem latheStep_refl (n : Nat) (d : Dev) : LatheStep n [] d d := ⟨fun _ _ _ => rfl, latheRest_refl n d⟩

theorem LatheStep.trans (h : LatheStep n fs d e) (h' : LatheStep n gs e k) : LatheStep n (fs ++ gs) d k :=
  ⟨fun f hb hf => by
    rw [List.map_append, List.mem_append, not_or] at hf
    exact (h'.get f hb hf.2).trans (h.get f hb hf.1), h.rest.trans h'.rest⟩

theorem LatheStep.mono (h : LatheStep n fs d e) (hsub : ∀ f ∈ fs, f ∈ gs) : LatheStep n gs d e :=
  ⟨fun f hb hf => h.get f hb fun hmem => hf (by
    obtain ⟨r, hr, heq⟩ := List.mem_map.mp hmem
    exact List.mem_map.mpr ⟨r, hsub r hr, heq⟩), h.rest⟩

theorem latheStep_of_leaves (n : Nat) (h : Leaves fs d e) : LatheStep n fs d e := ⟨fun _ hb hf => h.get hb hf, latheRest_of_leaves h⟩

/-- Registers stay. -/
theorem latheStep_of_rest (hr : e.regs = d.regs) (h : LatheRest n d e) : LatheStep n [] d e := ⟨fun f _ _ => get_congr hr f, h⟩

theorem latheStep_when {b : Bool} {F : Dev → Dev} (h : LatheStep n fs d (F d)) : LatheStep n fs d (when b F d) := by
  cases b with
  | true => exact h
  | false => exact (latheStep_refl n d).mono (by simp)

theorem latheStep_ite {p : Prop} [Decidable p] {a b : Dev} (ha : LatheStep n fs d a) (hb : LatheStep n fs d b) : LatheStep n fs d (if p then a else b) := by
  split
  · exact ha
  · exact hb

theorem latheStep_each {α : Type} {F : α → Dev → Dev} (h : ∀ x d, LatheStep n fs d (F x d)) (xs : List α) (d : Dev) : LatheStep n fs d (each F xs d) := by
  induction xs generalizing d with
  | nil => exact (latheStep_refl n d).mono (by simp)
  | cons x xs ih => exact ((h x d).trans (ih _)).mono (by simp)

end

/-! ## The state of a lathe and of its contexts -/

theorem lthS_setLth (n : Nat) (x : LthS) (d : Dev) : (setLth n x d).lthS n = x := KMap.get_put_self ..

theorem ctxS_setCtx (n c : Nat) (k : LthCtx) (d : Dev) (j : Nat) : ((setCtx n c k d).lthS n).ctxS j = if j = c then k else (d.lthS n).ctxS j := by
  unfold setCtx
  rw [lthS_setLth]
  exact KMap.get_put ..

/-- A lathe's state is written, but for its guest line in progress and its contexts. -/
theorem latheRest_setLth {n : Nat} {x : LthS} {d : Dev} (hg : x.guest = (d.lthS n).guest) (hc : x.ctx = (d.lthS n).ctx) : LatheRest n d (setLth n x d) := by
  have hs := lthS_setLth n x d
  exact ⟨by rw [hs, hg], fun c => by rw [hs, LthS.ctxS, hc, LthS.ctxS], rfl, rfl, rfl, rfl⟩

theorem latheStep_setLth {n : Nat} {x : LthS} {d : Dev} (hg : x.guest = (d.lthS n).guest) (hc : x.ctx = (d.lthS n).ctx) : LatheStep n [] d (setLth n x d) :=
  latheStep_of_rest rfl (latheRest_setLth hg hc)

/-- A context's state is written, but for the slots it has taken. -/
theorem latheStep_setCtx {n c : Nat} {k : LthCtx} {d : Dev} (ht : k.taken = ((d.lthS n).ctxS c).taken) : LatheStep n [] d (setCtx n c k d) := by
  refine latheStep_of_rest rfl ⟨?_, fun j => ?_, rfl, rfl, rfl, rfl⟩
  · unfold setCtx
    rw [lthS_setLth]
  · rw [ctxS_setCtx]
    split
    · next h => rw [ht, h]
    · rfl

theorem leaves_lthPerf (n code k : Nat) (d : Dev) : Leaves [] d (lthPerf n code k d) := leaves_perf 10 (perfBase_lth n) code k d

theorem latheStep_lthPerf (n code k : Nat) (d : Dev) : LatheStep n [] d (lthPerf n code k d) := latheStep_of_leaves n (leaves_lthPerf n code k d)

theorem latheStep_put (n : Nat) (f : Fld) (v : Nat) (d : Dev) : LatheStep n [f] d (put f v d) := latheStep_of_leaves n (leaves_put f v d)

/-! ## Tracking windows and boundaries -/

/-- A zone's new gain is set, and counted when it differs. -/
def gainSet (n z g g' : Nat) (d : Dev) : Dev :=
  when (g' != g) (lthPerf n 0xd 1) (setLth n { d.lthS n with tg := KMap.put (fun _ => 0x4000) (d.lthS n).tg z g' } d)

/-- The sums of a zone start anew. -/
def zoneCleared (n z : Nat) (d : Dev) : Dev := setLth n { d.lthS n with acc := KMap.put (fun _ => (0, 0, 0)) (d.lthS n).acc z (0, 0, 0) } d

theorem updateZone_eq (n c : Nat) (e : Nat × (Nat × Nat × Nat)) (d : Dev) : updateZone n c e d =
    if !d.ownsZone n c e.1 then d
    else if !(KMap.get (fun _ => (none : Option Nat)) (d.lthS n).tgNew e.1).isSome && decide (16 * (zoneCleared n e.1 d).get (R.LTH.TRK_CTL.MINCNT n c) ≤ e.2.2.2) &&
        decide (0 < e.2.1) then
      gainSet n e.1 (d.tgain n e.1) (slewGain d n c (d.tgain n e.1) e.2) (zoneCleared n e.1 d)
    else zoneCleared n e.1 d := rfl

theorem latheStep_zoneCleared (n z : Nat) (d : Dev) : LatheStep n [] d (zoneCleared n z d) := latheStep_setLth rfl rfl

theorem latheStep_gainSet (n z g g' : Nat) (d : Dev) : LatheStep n [] d (gainSet n z g g' d) := by
  have hset : LatheStep n [] d (setLth n { d.lthS n with tg := KMap.put (fun _ => 0x4000) (d.lthS n).tg z g' } d) := latheStep_setLth rfl rfl
  unfold gainSet
  generalize setLth n { d.lthS n with tg := KMap.put (fun _ => 0x4000) (d.lthS n).tg z g' } d = e at hset ⊢
  exact hset.trans (latheStep_when (latheStep_lthPerf ..))

theorem latheStep_updateZone (n c : Nat) (z : Nat × (Nat × Nat × Nat)) (d : Dev) : LatheStep n [] d (updateZone n c z d) := by
  rw [updateZone_eq]
  exact latheStep_ite (latheStep_refl n d) (latheStep_ite ((latheStep_zoneCleared ..).trans (latheStep_gainSet ..)) (latheStep_zoneCleared ..))

/-- The update of a window is no longer due. -/
def windowClosed (n c : Nat) (d : Dev) : Dev := setCtx n c { (d.lthS n).ctxS c with winDue := false } d

theorem windowEnd_eq (n c : Nat) (d : Dev) : windowEnd n c d =
    if ((d.lthS n).ctxS c).winDue then lthPerf n 0xb 1 (each (updateZone n c) ((windowClosed n c d).lthS n).acc (windowClosed n c d)) else d := rfl

theorem latheStep_windowClosed (n c : Nat) (d : Dev) : LatheStep n [] d (windowClosed n c d) := latheStep_setCtx rfl

theorem latheStep_windowEnd (n c : Nat) (d : Dev) : LatheStep n [] d (windowEnd n c d) := by
  rw [windowEnd_eq]
  exact latheStep_ite (((latheStep_windowClosed n c d).trans (latheStep_each (latheStep_updateZone n c) _ _)).trans (latheStep_lthPerf ..)) (latheStep_refl n d)

theorem latheStep_landGain (n c : Nat) (z : Nat × Option Nat) (d : Dev) : LatheStep n [] d (landGain n c z d) := by
  unfold landGain
  split
  · exact latheStep_refl n d
  · exact latheStep_ite (latheStep_setLth rfl rfl) (latheStep_refl n d)

theorem latheStep_exchange (n : Nat) (u : TblUnit) (d : Dev) : LatheStep n [tblPend u] d (exchange u d) := by
  have hbank : LatheStep n [] d (setBank (tblIndex u) (exchanged u (tblCovers d u) (d.bankS (tblIndex u))) d) :=
    latheStep_of_rest rfl (latheRest_same rfl rfl rfl rfl rfl)
  exact ((hbank.trans (latheStep_put n (tblPend u) 0 _)).trans (latheStep_of_leaves n (exchange_leaves u d))).mono (by simp)

theorem latheStep_boundarySwap (n : Nat) (u : TblUnit) (d : Dev) : LatheStep n [tblPend u] d (boundarySwap u d) := latheStep_when (latheStep_exchange n u d)

theorem latheRest_applyPend (n : Nat) (hit : Nat → Bool) (d : Dev) : LatheRest n d (applyPend hit d) := latheRest_same rfl rfl rfl rfl rfl

/-- The end of a window, and the boundary of a block that the line begins. -/
def ctxOpened (n c : Nat) (first : Bool) (d : Dev) : Dev :=
  let d := windowEnd n c d
  if first then applyPend (inRange (ctxRegs n c) 0x80 .block) (boundarySwap (lthUnit n c) d) else d

/-- Gains land, and the line is counted in its block. -/
def ctxCounted (n c blk : Nat) (d : Dev) : Dev :=
  let d := each (landGain n c) (d.lthS n).tgNew d
  setCtx n c { (d.lthS n).ctxS c with blk := blk } d

theorem ctxLine_eq (n c : Nat) (d : Dev) : ∃ first blk, ctxLine n c d = ctxCounted n c blk (ctxOpened n c first d) := by
  unfold ctxLine ctxCounted ctxOpened
  exact ⟨_, _, rfl⟩

theorem latheStep_ctxCounted (n c blk : Nat) (d : Dev) : LatheStep n [] d (ctxCounted n c blk d) := by
  unfold ctxCounted
  exact (latheStep_each (latheStep_landGain n c) _ d).trans (latheStep_setCtx rfl)

theorem latheRest_ctxLine (n c : Nat) (d : Dev) : LatheRest n d (ctxLine n c d) := by
  obtain ⟨first, blk, heq⟩ := ctxLine_eq n c d
  rw [heq]
  refine LatheRest.trans ?_ (latheStep_ctxCounted n c blk _).rest
  unfold ctxOpened
  have hwin := (latheStep_windowEnd n c d).rest
  generalize windowEnd n c d = e at hwin ⊢
  cases first with
  | false => exact hwin
  | true => exact hwin.trans ((latheStep_boundarySwap n (lthUnit n c) e).rest.trans (latheRest_applyPend n _ _))

theorem applyPend_nil {hit : Nat → Bool} {d : Dev} (h : d.rwb = []) : (applyPend hit d).regs = d.regs := by
  unfold applyPend
  rw [h]
  rfl

end Sys2Proof.Proofs
end

section
/-!
A line passes a lathe: its taps, and the piece that goes to the fusion unit (R168 to R193).
-/
namespace Sys2Proof.Proofs
open Sys2Proof Sys2Proof.Machine

theorem latheStep_windowCount (n c e : Nat) (d : Dev) : LatheStep n [] d (windowCount n c e d) := by
  unfold windowCount
  dsimp only
  split
  · exact latheStep_setCtx rfl
  · split
    · exact latheStep_refl n d
    · exact latheStep_ite (latheStep_ite (latheStep_setCtx rfl) (latheStep_setCtx rfl)) (latheStep_refl n d)
  · exact latheStep_refl n d

/-! ## Taps -/

/-- The registers that the taps of a lathe write. -/
def tapRegs (n : Nat) : List Fld := [R.DMA.BUF.USED, R.LTH.STATUS.SEQ n, R.LTH.STATUS.TAP_DROP n, R.LTH.TAP_DROPS.COUNT n]

theorem latheStep_tapDrop (n : Nat) (d : Dev) : LatheStep n [R.LTH.STATUS.SEQ n, R.LTH.STATUS.TAP_DROP n, R.LTH.TAP_DROPS.COUNT n] d (tapDrop n d) :=
  latheStep_of_leaves n (leaves_dropShown 10 (perfBase_lth n) 0xe _ _ _ d)

/-- A line for the recorder, with its count. -/
def tapRecorded (n : Nat) (line : TapLine) (d : Dev) : Dev := recPut line (setLth n { d.lthS n with tapRec := ((d.lthS n).tapRec + 1) % 2 ^ 32 } d)

theorem latheStep_tapRecorded (n : Nat) (line : TapLine) (d : Dev) : LatheStep n [] d (tapRecorded n line d) := by
  have hset : LatheStep n [] d (setLth n { d.lthS n with tapRec := ((d.lthS n).tapRec + 1) % 2 ^ 32 } d) := latheStep_setLth rfl rfl
  unfold tapRecorded
  generalize setLth n { d.lthS n with tapRec := ((d.lthS n).tapRec + 1) % 2 ^ 32 } d = e at hset ⊢
  have hput : LatheStep n [] e (recPut line e) := latheStep_of_rest rfl (latheRest_same rfl rfl rfl rfl rfl)
  exact hset.trans hput

/-- The count of lines since the last one that the DMA tap sent. -/
def tapCounted (n ctx k : Nat) (d : Dev) : Dev := setCtx n ctx { (d.lthS n).ctxS ctx with tapN := k } d

/-- A line of the DMA tap is on its way, or dropped. -/
def tapSent (n ch : Nat) (bs : List Byte) (d : Dev) : Dev :=
  let d := setLth n { d.lthS n with tapDma := ((d.lthS n).tapDma + 1) % 2 ^ 32 } d
  if d.streamRoom ch bs.length then streamPut ch bs d else tapDrop n d

theorem latheStep_tapCounted (n ctx k : Nat) (d : Dev) : LatheStep n [] d (tapCounted n ctx k d) := latheStep_setCtx rfl

theorem latheStep_streamPut (n ch : Nat) (bs : List Byte) (d : Dev) : LatheStep n [R.DMA.BUF.USED] d (streamPut ch bs d) := by
  have hset : LatheStep n [] d { d with stream := KMap.put (fun _ => []) d.stream ch (d.streamQ ch ++ [bs]) } :=
    latheStep_of_rest rfl (latheRest_same rfl rfl rfl rfl rfl)
  exact hset.trans (latheStep_put n R.DMA.BUF.USED _ _)

theorem latheStep_tapSent (n ch : Nat) (bs : List Byte) (d : Dev) : LatheStep n (tapRegs n) d (tapSent n ch bs d) := by
  have hset : LatheStep n [] d (setLth n { d.lthS n with tapDma := ((d.lthS n).tapDma + 1) % 2 ^ 32 } d) := latheStep_setLth rfl rfl
  unfold tapSent
  generalize setLth n { d.lthS n with tapDma := ((d.lthS n).tapDma + 1) % 2 ^ 32 } d = e at hset ⊢
  exact hset.trans (latheStep_ite ((latheStep_streamPut n ch bs e).mono (by simp)) ((latheStep_tapDrop n e).mono (by simp)))

/-- The DMA tap of a lathe. -/
def tapOut (n ctx t : Nat) (l : CamLine) (en bin first : Nat) (planes : List (List Nat)) (d : Dev) : Dev :=
  if d.on (R.LTH.TAP_CTL.EN n) && d.get (R.LTH.TAP_CTL.TAP n) == t && (ctx == 3 || bit (d.get (R.LTH.TAP_CTL.CTX n)) ctx) then
    if ((d.lthS n).ctxS ctx).tapN < d.get (R.LTH.TAP_CTL.DECIM n) then tapCounted n ctx (((d.lthS n).ctxS ctx).tapN + 1) d
    else
      tapSent n (d.get (R.LTH.TAP_CTL.DMA_CH n)) (tapBytes l en n t (if ctx = 3 then 0xff else ctx) bin first ((tapCounted n ctx 0 d).lthS n).tapDma planes)
        (tapCounted n ctx 0 d)
  else d

theorem lathTap_eq (n ctx t : Nat) (l : CamLine) (en bin first : Nat) (firsts : List Nat) (planes : List (List Nat)) (d : Dev) :
    ∃ line, lathTap n ctx t l en bin first firsts planes d =
      tapOut n ctx t l en bin first planes (if d.recTakes t then tapRecorded n line d else d) := by
  unfold lathTap tapOut tapSent
  exact ⟨_, rfl⟩

theorem latheStep_lathTap (n ctx t : Nat) (l : CamLine) (en bin first : Nat) (firsts : List Nat) (planes : List (List Nat)) (d : Dev) :
    LatheStep n (tapRegs n) d (lathTap n ctx t l en bin first firsts planes d) := by
  obtain ⟨line, heq⟩ := lathTap_eq n ctx t l en bin first firsts planes d
  rw [heq]
  have hrec : LatheStep n [] d (if d.recTakes t then tapRecorded n line d else d) := latheStep_ite (latheStep_tapRecorded n line d) (latheStep_refl n d)
  generalize (if d.recTakes t then tapRecorded n line d else d) = e at hrec ⊢
  refine hrec.trans ?_
  unfold tapOut
  refine latheStep_ite (latheStep_ite ((latheStep_tapCounted ..).mono (by simp)) ?_) ((latheStep_refl n e).mono (by simp))
  exact (latheStep_tapCounted n ctx 0 e).trans (latheStep_tapSent ..)

theorem latheStep_lineTaps (n c : Nat) (l : CamLine) (t0 : List (List Nat)) (st : List StageOut) (d : Dev) : LatheStep n (tapRegs n) d (lineTaps n c l t0 st d) := by
  unfold lineTaps
  dsimp only
  exact ((((latheStep_lathTap ..).trans (latheStep_lathTap ..)).trans (latheStep_lathTap ..)).trans (latheStep_lathTap ..)).mono (by simp)

/-! ## A line or a token on its way to the fusion unit -/

/-- A piece goes to the fusion unit from `d`, whose other lines and pieces wait as in `d0`: lathe `n` and the device are as they were but for these registers. -/
structure Passed (n c : Nat) (p : Piece) (lsn : Nat) (d0 d : Dev) : Prop where
  guest : (d.lthS n).guest = (d0.lthS n).guest
  taken : ∀ c, ((d.lthS n).ctxS c).taken = ((d0.lthS n).ctxS c).taken
  queue : d.fus.queue = d0.fus.queue ++ [p]
  homeQ : d.homeQ = d0.homeQ
  tim : d.tim = d0.tim
  posted : d.posted = d0.posted
  last : bookKey (R.LTH.LAST_LSN.LSN n c).key = false → d.get (R.LTH.LAST_LSN.LSN n c) = lsn % 2 ^ 32
  get : ∀ f : Fld, bookKey f.key = false → f.key ∉ (R.LTH.LAST_LSN.LSN n c :: tapRegs n).map Fld.key → d.get f = d0.get f

/-- The last line of a context is noted, and its passing counted. -/
def lineNoted (n c code lsn : Nat) (d : Dev) : Dev := lthPerf n code 1 (put (R.LTH.LAST_LSN.LSN n c) lsn d)

theorem lineNoted_facts (n c code lsn : Nat) (d : Dev) : LatheStep n [R.LTH.LAST_LSN.LSN n c] d (lineNoted n c code lsn d) ∧
    (bookKey (R.LTH.LAST_LSN.LSN n c).key = false → (lineNoted n c code lsn d).get (R.LTH.LAST_LSN.LSN n c) = lsn % 2 ^ 32) := by
  have hput := latheStep_put n (R.LTH.LAST_LSN.LSN n c) lsn d
  have hval : (put (R.LTH.LAST_LSN.LSN n c) lsn d).get (R.LTH.LAST_LSN.LSN n c) = lsn % 2 ^ 32 := get_put_self ..
  unfold lineNoted
  generalize put (R.LTH.LAST_LSN.LSN n c) lsn d = e at hput hval ⊢
  have hperf := latheStep_lthPerf n code 1 e
  exact ⟨hput.trans hperf, fun hb => (hperf.get _ hb (by simp)).trans hval⟩

theorem passToken_eq (n c : Nat) (l : CamLine) (d : Dev) : ∃ t0 st, passToken n c l d =
    (let e := lineTaps n c l t0 st (windowCount n c l.e d)
     lineNoted n c 3 l.lsn (toFusion (tokenPiece e n c l) e)) := ⟨_, _, rfl⟩

theorem passToken_passes (n c : Nat) (l : CamLine) (d : Dev) : ∃ p : Piece, p.port = l.port ∧ p.lsn = l.lsn ∧ p.e = l.e ∧ p.token = true ∧
    Passed n c p l.lsn d (passToken n c l d) := by
  obtain ⟨t0, st, heq⟩ := passToken_eq n c l d
  rw [heq]
  dsimp only
  have hline := (latheStep_windowCount n c l.e d).trans (latheStep_lineTaps n c l t0 st _)
  generalize lineTaps n c l t0 st (windowCount n c l.e d) = e at hline ⊢
  refine ⟨tokenPiece e n c l, rfl, rfl, rfl, rfl, ?_⟩
  have hget (f : Fld) : (toFusion (tokenPiece e n c l) e).get f = e.get f := rfl
  have hlth : (toFusion (tokenPiece e n c l) e).lthS n = e.lthS n := rfl
  have hqueue : (toFusion (tokenPiece e n c l) e).fus.queue = e.fus.queue ++ [tokenPiece e n c l] := rfl
  have hhome : (toFusion (tokenPiece e n c l) e).homeQ = e.homeQ := rfl
  have htim : (toFusion (tokenPiece e n c l) e).tim = e.tim := rfl
  have hpost : (toFusion (tokenPiece e n c l) e).posted = e.posted := rfl
  generalize tokenPiece e n c l = p at *
  generalize toFusion p e = k at *
  obtain ⟨hnote, hlast⟩ := lineNoted_facts n c 3 l.lsn k
  generalize lineNoted n c 3 l.lsn k = q at hnote hlast ⊢
  obtain ⟨hr, hn⟩ := And.intro hline.rest hnote.rest
  refine ⟨hn.guest.trans ((congrArg LthS.guest hlth).trans hr.guest), fun c => (hn.taken c).trans ((congrArg (fun x : LthS => (x.ctxS c).taken) hlth).trans (hr.taken c)),
    by rw [hn.fus, hqueue, hr.fus], hn.homeQ.trans (hhome.trans hr.homeQ), hn.tim.trans (htim.trans hr.tim), hn.posted.trans (hpost.trans hr.posted), hlast, fun f hb hf => ?_⟩
  rw [List.map_cons, List.mem_cons, not_or] at hf
  exact (hnote.get f hb (by simpa using hf.1)).trans ((hget f).trans (hline.get f hb hf.2))

/-- What a line with samples changes of a lathe before it leaves. -/
def lineSeen (n c : Nat) (l : CamLine) (track : Bool) (acc : KMap (Nat × Nat × Nat)) (hist : List (Nat × List (List Nat))) (t0 : List (List Nat))
    (st : List StageOut) (d : Dev) : Dev :=
  let d := if track then setLth n { d.lthS n with acc := acc } d else d
  let d := setCtx n c { (d.lthS n).ctxS c with hist := hist } d
  lineTaps n c l t0 st (windowCount n c l.e d)

/-- The counts of a line with samples. -/
def lineCounted (n a b x y z : Nat) (d : Dev) : Dev :=
  lthPerf n 0xa z (lthPerf n 9 y (lthPerf n 8 x (slot 10 (lthBase n) 1 a (slot 10 (lthBase n) 0 b d))))

theorem passLine_eq (n c : Nat) (l : CamLine) (sent : Option Nat) (d : Dev) :
    ∃ (l' : CamLine) (p : Piece) (track : Bool) (acc : KMap (Nat × Nat × Nat)) (hist : List (Nat × List (List Nat))) (t0 : List (List Nat))
      (st : List StageOut) (a b x y z : Nat),
      (p.port = l.port ∧ p.lsn = l.lsn ∧ p.e = l.e ∧ p.token = false ∧ p.flags = if sent.isSome then l.flags ||| 2 else l.flags) ∧
      passLine n c l sent d = toFusion p (lineNoted n c (if c = 0 then 1 else 2) l.lsn (lineCounted n a b x y z (lineSeen n c l' track acc hist t0 st d))) := by
  cases sent with
  | none =>
    refine ⟨_, _, _, _, _, _, _, _, _, _, _, _, ?_, by unfold passLine lineNoted lineCounted lineSeen; rfl⟩
    exact ⟨rfl, rfl, rfl, rfl, rfl⟩
  | some k =>
    refine ⟨_, _, _, _, _, _, _, _, _, _, _, _, ?_, by unfold passLine lineNoted lineCounted lineSeen; rfl⟩
    exact ⟨rfl, rfl, rfl, rfl, rfl⟩

/-- The lathe has seen a line of its samples' zones and history. -/
def lineKept (n c : Nat) (track : Bool) (acc : KMap (Nat × Nat × Nat)) (hist : List (Nat × List (List Nat))) (d : Dev) : Dev :=
  let d := if track then setLth n { d.lthS n with acc := acc } d else d
  setCtx n c { (d.lthS n).ctxS c with hist := hist } d

theorem latheStep_lineKept (n c : Nat) (track : Bool) (acc : KMap (Nat × Nat × Nat)) (hist : List (Nat × List (List Nat))) (d : Dev) :
    LatheStep n [] d (lineKept n c track acc hist d) := by
  have hacc : LatheStep n [] d (if track then setLth n { d.lthS n with acc := acc } d else d) := latheStep_ite (latheStep_setLth rfl rfl) (latheStep_refl n d)
  unfold lineKept
  dsimp only
  generalize (if track then setLth n { d.lthS n with acc := acc } d else d) = e at hacc ⊢
  exact hacc.trans (latheStep_setCtx rfl)

theorem latheStep_lineSeen (n c : Nat) (l : CamLine) (track : Bool) (acc : KMap (Nat × Nat × Nat)) (hist : List (Nat × List (List Nat)))
    (t0 : List (List Nat)) (st : List StageOut) (d : Dev) : LatheStep n (tapRegs n) d (lineSeen n c l track acc hist t0 st d) := by
  have hkept := latheStep_lineKept n c track acc hist d
  have heq : lineSeen n c l track acc hist t0 st d = lineTaps n c l t0 st (windowCount n c l.e (lineKept n c track acc hist d)) := rfl
  rw [heq]
  generalize lineKept n c track acc hist d = e at hkept ⊢
  exact (hkept.trans (latheStep_windowCount ..)).trans (latheStep_lineTaps ..)

theorem latheStep_slot (n : Nat) {cat : Nat} (hc : cat < 16) (k : Nat) (d : Dev) : LatheStep n [] d (slot 10 (lthBase n) cat k d) :=
  latheStep_of_leaves n (leaves_slot 10 (perfBase_lth n) hc k d)

theorem latheStep_lineCounted (n a b x y z : Nat) (d : Dev) : LatheStep n [] d (lineCounted n a b x y z d) := by
  unfold lineCounted
  exact ((((latheStep_slot n (by decide) b d).trans (latheStep_slot n (by decide) a _)).trans (latheStep_lthPerf ..)).trans (latheStep_lthPerf ..)).trans
    (latheStep_lthPerf ..)

theorem passLine_passes (n c : Nat) (l : CamLine) (sent : Option Nat) (d : Dev) : ∃ p : Piece, p.port = l.port ∧ p.lsn = l.lsn ∧ p.e = l.e ∧ p.token = false ∧
    p.flags = (if sent.isSome then l.flags ||| 2 else l.flags) ∧ Passed n c p l.lsn d (passLine n c l sent d) := by
  obtain ⟨l', p, track, acc, hist, t0, st, a, b, x, y, z, ⟨h1, h2, h3, h4, h5⟩, heq⟩ := passLine_eq n c l sent d
  refine ⟨p, h1, h2, h3, h4, h5, ?_⟩
  rw [heq]
  have hseen := latheStep_lineSeen n c l' track acc hist t0 st d
  generalize lineSeen n c l' track acc hist t0 st d = e at hseen ⊢
  have hcount := hseen.trans (latheStep_lineCounted n a b x y z e)
  generalize lineCounted n a b x y z e = k at hcount ⊢
  obtain ⟨hnote, hlast⟩ := lineNoted_facts n c (if c = 0 then 1 else 2) l.lsn k
  generalize lineNoted n c (if c = 0 then 1 else 2) l.lsn k = q at hnote hlast ⊢
  have hall := hcount.trans hnote
  refine ⟨hall.rest.guest, hall.rest.taken, congrArg (· ++ [p]) (congrArg FusS.queue hall.rest.fus), hall.rest.homeQ, hall.rest.tim, hall.rest.posted, hlast,
    fun f hb hf => hall.get f hb ?_⟩
  simp only [List.map_append, List.map_cons, List.map_nil, List.mem_append, List.mem_cons, List.not_mem_nil, or_false, List.append_nil, not_or] at hf ⊢
  exact ⟨hf.2, hf.1⟩

/-! ## Lines that leave a lathe -/

theorem last_book {n c : Nat} (hn : n < 8) (hc : c < 3) : bookKey (R.LTH.LAST_LSN.LSN n c).key = false := by
  have hall : ∀ n < 8, ∀ c < 3, bookKey (R.LTH.LAST_LSN.LSN n c).key = false := by decide +kernel
  exact hall n hn c hc

/-- The oldest home line is taken, and the lathe's clock runs. -/
def homeTaken (n : Nat) (rest : List CamLine) (d : Dev) : Dev :=
  let d := { d with homeQ := KMap.put (fun _ => []) d.homeQ n rest }
  setLth n { d.lthS n with gated := false } d

theorem homeLine_eq {n : Nat} {l : CamLine} {rest : List CamLine} {d : Dev} (hq : KMap.get (fun _ => ([] : List CamLine)) d.homeQ n = l :: rest)
    (hserves : d.serves n 0 = true) : homeLine n d =
      if l.token then passToken n 0 l (ctxLine n 0 (homeTaken n rest d)) else passLine n 0 l none (ctxLine n 0 (homeTaken n rest d)) := by
  unfold homeLine
  rw [hq]
  exact if_pos hserves

/-- A line that passes, be it a token or not. -/
theorem line_passes (n c : Nat) (l : CamLine) (d : Dev) : ∃ p : Piece, p.port = l.port ∧ p.lsn = l.lsn ∧ p.e = l.e ∧ p.token = l.token ∧
    Passed n c p l.lsn d (if l.token then passToken n c l d else passLine n c l none d) := by
  cases htok : l.token with
  | true =>
    obtain ⟨p, h1, h2, h3, h4, h⟩ := passToken_passes n c l d
    exact ⟨p, h1, h2, h3, h4, h⟩
  | false =>
    obtain ⟨p, h1, h2, h3, h4, -, h⟩ := passLine_passes n c l none d
    exact ⟨p, h1, h2, h3, h4, h⟩

theorem latheLineOutput_home (n : Fin 8) (clocks : Nat) (l : CamLine) (rest : List CamLine) (s : State)
    (hq : KMap.get (fun _ => ([] : List CamLine)) s.dev.homeQ n.val = l :: rest) (hserves : s.dev.serves n.val 0 = true) (herr : s.dev.homeErr n.val = none) :
    Completes (.latheLineOutput n 0 clocks) s (fun t =>
      KMap.get (fun _ => ([] : List CamLine)) t.dev.homeQ n.val = rest ∧ t.dev.get (R.LTH.LAST_LSN.LSN n.val 0) = l.lsn % 2 ^ 32 ∧
      (∃ x : Piece, t.dev.fus.queue = s.dev.fus.queue ++ [x] ∧ x.port = l.port ∧ x.lsn = l.lsn ∧ x.e = l.e ∧ x.token = l.token)) := by
  have hdo := homeLine_eq hq hserves
  have hhome : KMap.get (fun _ => ([] : List CamLine)) (homeTaken n.val rest s.dev).homeQ n.val = rest := KMap.get_put_self ..
  have hfus : (homeTaken n.val rest s.dev).fus = s.dev.fus := rfl
  generalize homeTaken n.val rest s.dev = e at hdo hhome hfus
  have hctx := latheRest_ctxLine n.val 0 e
  generalize ctxLine n.val 0 e = k at hdo hctx
  obtain ⟨p, h1, h2, h3, h4, hpass⟩ := line_passes n.val 0 l k
  refine completes_run (d := homeLine n.val s.dev) (exec_latheLineOutput n 0 clocks s) ?_ ?_
  · rw [if_pos (by rfl), herr]
  · rw [hdo]
    generalize (if l.token = true then passToken n.val 0 l k else passLine n.val 0 l none k) = q at hpass ⊢
    refine ⟨?_, (get_after ..).trans (hpass.last (last_book n.isLt (by decide))), p, ?_, h1, h2, h3, h4⟩
    · rw [after_homeQ, hpass.homeQ, hctx.homeQ, hhome]
    · rw [after_fus, hpass.queue, hctx.fus, hfus]

/-- The guest line in progress is taken. -/
def guestTaken (n : Nat) (d : Dev) : Dev := setLth n { d.lthS n with guest := none } d

/-- A guest line that took long is flagged. -/
def guestLate (n c clocks : Nat) (d : Dev) : Dev :=
  when (decide (3832 < clocks)) (fun d => lthPerf n 7 1 (event 10 (R.LTH.CTX_STATUS.SEQ n c) [R.LTH.CTX_STATUS.LATE n c] d)) d

theorem guestLine_eq {n c : Nat} {l : CamLine} {d : Dev} (hg : (d.lthS n).guest = some (c, l)) (clocks : Nat) (sent : Option Nat) :
    guestLine n c clocks sent d = guestLate n c clocks (passLine n c l sent (guestTaken n d)) := by
  unfold guestLine
  rw [hg]
  exact if_pos rfl

theorem guestTaken_facts (n : Nat) (d : Dev) : (∀ f, (guestTaken n d).get f = d.get f) ∧ ((guestTaken n d).lthS n).guest = none ∧
    (guestTaken n d).fus = d.fus := ⟨fun _ => rfl, congrArg LthS.guest (lthS_setLth ..), rfl⟩

/-- The status fields of a context and its count of slots that left as tokens. -/
def ctxStatusRegs (n c : Nat) : List Fld :=
  [R.LTH.CTX_STATUS.SEQ n c, R.LTH.CTX_STATUS.LATE n c, R.LTH.CTX_STATUS.POISON n c, R.LTH.CTX_STATUS.SKIP n c, R.LTH.CTX_STATUS.HDR_CRC n c, R.LTH.SKIPS.COUNT n c]

theorem ctxStatus_books : ∀ n < 8, ∀ c < 3, (∀ f ∈ ctxStatusRegs n c, bookKey f.key = false ∧ f.key ∉ (R.LTH.LAST_LSN.LSN n c :: tapRegs n).map Fld.key) ∧
    (ctxStatusRegs n c).Pairwise (fun f g => f.key ≠ g.key) := by decide +kernel

theorem ctxStatus_book {n c : Nat} (hn : n < 8) (hc : c < 3) :
    ∀ f ∈ ctxStatusRegs n c, bookKey f.key = false ∧ f.key ∉ (R.LTH.LAST_LSN.LSN n c :: tapRegs n).map Fld.key := (ctxStatus_books n hn c hc).1

theorem ctxStatus_seq {n c : Nat} (hn : n < 8) (hc : c < 3) : ∀ f ∈ (ctxStatusRegs n c).tail, (R.LTH.CTX_STATUS.SEQ n c).key ≠ f.key :=
  (List.pairwise_cons.mp (ctxStatus_books n hn c hc).2).1

theorem guestLate_facts {n c : Nat} (hn : n < 8) (hc : c < 3) (clocks : Nat) (d : Dev) :
    LatheStep n [R.LTH.CTX_STATUS.SEQ n c, R.LTH.CTX_STATUS.LATE n c] d (guestLate n c clocks d) ∧
    (3832 < clocks → (guestLate n c clocks d).on (R.LTH.CTX_STATUS.LATE n c) = true) := by
  have hbook := ctxStatus_book hn hc
  have hev : Leaves [R.LTH.CTX_STATUS.SEQ n c, R.LTH.CTX_STATUS.LATE n c] d (event 10 (R.LTH.CTX_STATUS.SEQ n c) [R.LTH.CTX_STATUS.LATE n c] d) := leaves_event ..
  have hflag : (event 10 (R.LTH.CTX_STATUS.SEQ n c) [R.LTH.CTX_STATUS.LATE n c] d).get (R.LTH.CTX_STATUS.LATE n c) = 1 :=
    get_event_flag (hbook _ (by simp [ctxStatusRegs])).1 (by simp [R.LTH.CTX_STATUS.LATE]) (by simp) ..
  have hstep : LatheStep n [R.LTH.CTX_STATUS.SEQ n c, R.LTH.CTX_STATUS.LATE n c] d
      (lthPerf n 7 1 (event 10 (R.LTH.CTX_STATUS.SEQ n c) [R.LTH.CTX_STATUS.LATE n c] d)) :=
    (latheStep_of_leaves n hev).trans (latheStep_lthPerf ..)
  refine ⟨latheStep_when hstep, fun h => ?_⟩
  unfold guestLate
  rw [when, if_pos (by simpa using h)]
  generalize event 10 (R.LTH.CTX_STATUS.SEQ n c) [R.LTH.CTX_STATUS.LATE n c] d = e at hflag ⊢
  rw [Dev.on, (leaves_lthPerf n 7 1 e).get (hbook _ (by simp [ctxStatusRegs])).1 (by simp), hflag]
  rfl

theorem latheLineOutput_guest (n : Fin 8) (c : Fin 3) (clocks : Nat) (l : CamLine) (s : State) (hc : c ≠ 0) (hg : (s.dev.lthS n.val).guest = some (c.val, l))
    (hidle : s.dev.homeIdle n.val = true) :
    Completes (.latheLineOutput n c clocks) s (fun t =>
      (t.dev.lthS n.val).guest = none ∧ (3832 < clocks → t.dev.on (R.LTH.CTX_STATUS.LATE n.val c.val) = true) ∧
      (∃ x : Piece, t.dev.fus.queue = s.dev.fus.queue ++ [x] ∧ x.port = l.port ∧ x.lsn = l.lsn ∧ x.e = l.e ∧ x.token = false)) := by
  have hdo := guestLine_eq hg clocks none
  obtain ⟨-, hnone, hfus⟩ := guestTaken_facts n.val s.dev
  generalize guestTaken n.val s.dev = e at hdo hnone hfus
  obtain ⟨p, h1, h2, h3, h4, -, hpass⟩ := passLine_passes n.val c.val l none e
  generalize passLine n.val c.val l none e = k at hdo hpass
  obtain ⟨hlate, hflag⟩ := guestLate_facts n.isLt c.isLt clocks k
  refine completes_run (d := guestLate n.val c.val clocks k) (exec_latheLineOutput n c clocks s) ?_ ?_
  · rw [if_neg (show ¬ c.val = 0 from fun h => hc (Fin.ext h)), if_pos hidle, hdo]
  · generalize guestLate n.val c.val clocks k = q at hlate hflag ⊢
    refine ⟨?_, fun h => (on_after ..).trans (hflag h), p, ?_, h1, h2, h3, h4⟩
    · exact hlate.rest.guest.trans (hpass.guest.trans hnone)
    · rw [after_fus, hlate.rest.fus, hpass.queue, hfus]

/-- A poisoned response is reported. -/
def poisonNoted (n c addr : Nat) (d : Dev) : Dev :=
  lthPerf n 6 1 (logEv 0x0a82 n 2 addr (event 10 (R.LTH.CTX_STATUS.SEQ n c) [R.LTH.CTX_STATUS.POISON n c] d))

theorem poisonNoted_facts {n c : Nat} (hn : n < 8) (hc : c < 3) (addr : Nat) (d : Dev) :
    LatheStep n [R.LTH.CTX_STATUS.SEQ n c, R.LTH.CTX_STATUS.POISON n c] d (poisonNoted n c addr d) ∧ (poisonNoted n c addr d).lth = d.lth ∧
    Raised (R.LTH.CTX_STATUS.SEQ n c) [R.LTH.CTX_STATUS.POISON n c] d (poisonNoted n c addr d) := by
  have hbook := ctxStatus_book hn hc
  have hsub : ∀ f ∈ [R.LTH.CTX_STATUS.SEQ n c, R.LTH.CTX_STATUS.POISON n c], bookKey f.key = false := fun f hf => (hbook f (by
    simp only [ctxStatusRegs, List.mem_cons, List.not_mem_nil, or_false] at hf ⊢
    tauto)).1
  have hne : (R.LTH.CTX_STATUS.SEQ n c).key ∉ [R.LTH.CTX_STATUS.POISON n c].map Fld.key := by
    simpa using ctxStatus_seq hn hc (R.LTH.CTX_STATUS.POISON n c) (by simp [ctxStatusRegs])
  have hr : Raised (R.LTH.CTX_STATUS.SEQ n c) [R.LTH.CTX_STATUS.POISON n c] d (event 10 (R.LTH.CTX_STATUS.SEQ n c) [R.LTH.CTX_STATUS.POISON n c] d) :=
    raised_event hsub (by simp [R.LTH.CTX_STATUS.POISON]) hne rfl
  have hev : Leaves [R.LTH.CTX_STATUS.SEQ n c, R.LTH.CTX_STATUS.POISON n c] d (event 10 (R.LTH.CTX_STATUS.SEQ n c) [R.LTH.CTX_STATUS.POISON n c] d) := leaves_event ..
  unfold poisonNoted
  generalize event 10 (R.LTH.CTX_STATUS.SEQ n c) [R.LTH.CTX_STATUS.POISON n c] d = e at hr hev ⊢
  have hrest := (leaves_logEv 0x0a82 n 2 addr e).trans (leaves_lthPerf n 6 1 _)
  generalize lthPerf n 6 1 (logEv 0x0a82 n 2 addr e) = k at hrest ⊢
  exact ⟨latheStep_of_leaves n (hev.trans hrest), (lth_of_leaves hrest).trans (lth_of_leaves hev), raised_then hr hrest hsub (by simp)⟩

/-- A poisoned response ends the guest line in progress. -/
def poisonAnswered (n sent addr : Nat) (d : Dev) : Dev :=
  match (d.lthS n).guest with
  | none => d
  | some (c, _) => guestLine n c 0 (some sent) (poisonNoted n c addr d)

theorem execPoisonedResponse_eq (n : Fin 8) (sent addr : Nat) (s : State) :
    exec (.poisonedResponse n sent addr) s = total (fun _ d => poisonAnswered n.val sent addr d) s := by
  rw [exec_poisonedResponse]
  unfold execPoisonedResponse poisonAnswered poisonNoted <;> rfl

theorem poisonAnswered_eq {n c : Nat} {l : CamLine} {d : Dev} (hg : (d.lthS n).guest = some (c, l)) (sent addr : Nat) :
    poisonAnswered n sent addr d = guestLine n c 0 (some sent) (poisonNoted n c addr d) := by
  unfold poisonAnswered
  rw [hg]

theorem poisonedResponse_completes (n : Fin 8) (sent addr : Nat) (c : Fin 3) (l : CamLine) (s : State) (hg : (s.dev.lthS n.val).guest = some (c.val, l)) :
    Completes (.poisonedResponse n sent addr) s (fun t =>
      (t.dev.lthS n.val).guest = none ∧
      Raised (R.LTH.CTX_STATUS.SEQ n.val c.val) [R.LTH.CTX_STATUS.POISON n.val c.val] s.dev t.dev ∧
      (∃ x : Piece, t.dev.fus.queue = s.dev.fus.queue ++ [x] ∧ x.lsn = l.lsn ∧ x.flags = l.flags ||| 2)) := by
  have hbook := ctxStatus_book n.isLt c.isLt
  obtain ⟨hnote, -, hr⟩ := poisonNoted_facts n.isLt c.isLt addr s.dev
  have hdo := poisonAnswered_eq hg sent addr
  refine completes_to (execPoisonedResponse_eq n sent addr s) _ hdo ?_
  generalize poisonNoted n.val c.val addr s.dev = e at hnote hr ⊢
  have hline := guestLine_eq (hnote.rest.guest.trans hg) 0 (some sent)
  obtain ⟨hget, hnone, hfus⟩ := guestTaken_facts n.val e
  generalize guestTaken n.val e = k at hline hget hnone hfus
  obtain ⟨p, -, h2, -, -, h5, hpass⟩ := passLine_passes n.val c.val l (some sent) k
  generalize passLine n.val c.val l (some sent) k = q at hline hpass
  have hlate : guestLate n.val c.val 0 q = q := rfl
  rw [hline, hlate]
  have hkeep (f : Fld) (hf : f ∈ [R.LTH.CTX_STATUS.SEQ n.val c.val, R.LTH.CTX_STATUS.POISON n.val c.val]) : q.get f = e.get f := by
    have hb := hbook f (by
      simp only [ctxStatusRegs, List.mem_cons, List.not_mem_nil, or_false] at hf ⊢
      tauto)
    exact (hpass.get f hb.1 hb.2).trans (hget f)
  refine ⟨hpass.guest.trans hnone, raised_after ⟨(hkeep _ (by simp)).trans hr.1, fun f hf => (congrArg (· == 1) (hkeep f (List.mem_cons_of_mem _ hf))).trans (hr.2 f hf)⟩ s,
    p, ?_, h2, h5⟩
  rw [after_fus, hpass.queue, hfus, hnote.rest.fus]

end Sys2Proof.Proofs
end

section
/-!
The end of a lathe's tracking window, its clock gate and its self-test (R168, R178, R194).
-/
namespace Sys2Proof.Proofs
open Sys2Proof Sys2Proof.Machine

/-- The device with other lathes. -/
def withLth (x : KMap LthS) (d : Dev) : Dev := { d with lth := x }

theorem setsPart_withLth : SetsPart withLth := fun _ _ => ⟨rfl, rfl⟩

theorem upto_setLth (n : Nat) (x : LthS) (d : Dev) : Upto withLth [] d (setLth n x d) := upto_of_eq fun _ => rfl

theorem upto_lthPerf (n code k : Nat) (d : Dev) : Upto withLth [] d (lthPerf n code k d) := upto_of_leaves setsPart_withLth (leaves_lthPerf n code k d)

theorem frame_lth {fs : List Fld} {d e : Dev} (h : Upto withLth fs d e) (s : State) : Frame fs { d with lth := (s.after e).dev.lth } s (s.after e) :=
  frame_of_upto h s e.lth rfl

/-! ## The end of a tracking window -/

/-- The gains of the zones `zs` of a context have moved by no more than SLEW, and no gain of another zone. -/
structure Slewed (n c : Nat) (zs : List Nat) (d e : Dev) : Prop where
  other : ∀ z, z ∉ zs → e.tgain n z = d.tgain n z
  bound : ∀ z, ((e.tgain n z : Int) - d.tgain n z).natAbs ≤ d.get (R.LTH.TRK_CTL.SLEW n c)
  foreign : ∀ z, d.ownsZone n c z = false → e.tgain n z = d.tgain n z

theorem slewed_of_same {n c : Nat} (zs : List Nat) {d e : Dev} (h : ∀ z, e.tgain n z = d.tgain n z) : Slewed n c zs d e :=
  ⟨fun z _ => h z, fun z => by rw [h, Int.sub_self]; exact Nat.zero_le _, fun z _ => h z⟩

theorem slewGain_bound (d : Dev) (n c g : Nat) (a : Nat × Nat × Nat) : ((slewGain d n c g a : Int) - g).natAbs ≤ d.get (R.LTH.TRK_CTL.SLEW n c) := by
  unfold slewGain
  dsimp only
  generalize hm : (min (65535 : Int) (((a.2.1 * 16384 + a.1 / 2) / max 1 a.1 : Nat) : Int)) = target
  have h0 : 0 ≤ target := by
    rw [← hm]
    exact le_min (by decide) (Int.natCast_nonneg _)
  obtain ⟨hlo, hhi⟩ := clampI_mem (lo := -(d.get (R.LTH.TRK_CTL.SLEW n c) : Int)) (hi := d.get (R.LTH.TRK_CTL.SLEW n c)) (by omega) (target - g)
  have hge : target - g ≤ clampI (-(d.get (R.LTH.TRK_CTL.SLEW n c) : Int)) (d.get (R.LTH.TRK_CTL.SLEW n c)) (target - g) ∨
      0 ≤ clampI (-(d.get (R.LTH.TRK_CTL.SLEW n c) : Int)) (d.get (R.LTH.TRK_CTL.SLEW n c)) (target - g) := by
    unfold clampI
    split
    · omega
    · split <;> omega
  omega

theorem tgain_gainSet (n z g g' : Nat) (d : Dev) (z' : Nat) : (gainSet n z g g' d).tgain n z' = if z' = z then g' else d.tgain n z' := by
  have hset : (setLth n { d.lthS n with tg := KMap.put (fun _ => 0x4000) (d.lthS n).tg z g' } d).tgain n z' = if z' = z then g' else d.tgain n z' := by
    unfold Dev.tgain
    rw [lthS_setLth]
    exact KMap.get_put ..
  unfold gainSet
  generalize setLth n { d.lthS n with tg := KMap.put (fun _ => 0x4000) (d.lthS n).tg z g' } d = e at hset ⊢
  rw [← hset]
  exact congrArg (fun m : KMap LthS => KMap.get (fun _ => 0x4000) (KMap.get (fun _ => ({} : LthS)) m n).tg z')
    (lth_of_leaves (leaves_when _ _ _ (leaves_lthPerf n 0xd 1 e)))

theorem tgain_zoneCleared (n z : Nat) (d : Dev) (z' : Nat) : (zoneCleared n z d).tgain n z' = d.tgain n z' := by
  unfold Dev.tgain zoneCleared
  rw [lthS_setLth]

theorem slewed_updateZone (n c : Nat) (e : Nat × (Nat × Nat × Nat)) (d : Dev) : Slewed n c [e.1] d (updateZone n c e d) := by
  rw [updateZone_eq]
  cases howns : d.ownsZone n c e.1 with
  | false => exact slewed_of_same _ fun _ => rfl
  | true =>
    rw [if_neg (by simp)]
    split
    · have hz (z : Nat) := (tgain_gainSet n e.1 (d.tgain n e.1) (slewGain d n c (d.tgain n e.1) e.2) (zoneCleared n e.1 d) z).trans
        (congrArg (fun x => if z = e.1 then slewGain d n c (d.tgain n e.1) e.2 else x) (tgain_zoneCleared n e.1 d z))
      generalize gainSet n e.1 (d.tgain n e.1) (slewGain d n c (d.tgain n e.1) e.2) (zoneCleared n e.1 d) = k at hz ⊢
      refine ⟨fun z h => ?_, fun z => ?_, fun z h => ?_⟩
      · rw [hz, if_neg (by simpa using h)]
      · rw [hz]
        split
        · next h =>
          rw [h]
          exact slewGain_bound ..
        · simp
      · rw [hz, if_neg (fun heq => by rw [heq, howns] at h; cases h)]
    · exact slewed_of_same _ (tgain_zoneCleared n e.1 d)

/-- What the settings of a tracking window read. -/
theorem ctxSettings_book : ∀ n < 8, ∀ c < 3,
    ∀ f ∈ [R.LTH.CTX_POOL.BASE n c, R.LTH.CTX_LEN.LEN n c, R.LTH.TRK_CTL.SLEW n c], bookKey f.key = false := by decide +kernel

theorem slewed_each {n c : Nat} (hn : n < 8) (hc : c < 3) {zs : List (Nat × (Nat × Nat × Nat))} (hz : (zs.map (·.1)).Nodup) (d : Dev) :
    Slewed n c (zs.map (·.1)) d (each (updateZone n c) zs d) := by
  induction zs generalizing d with
  | nil => exact slewed_of_same _ fun _ => rfl
  | cons x xs ih =>
    have h1 := slewed_updateZone n c x d
    have hstep := latheStep_updateZone n c x d
    rw [each]
    rw [List.map_cons, List.nodup_cons] at hz
    generalize updateZone n c x d = k at h1 hstep ⊢
    have hkeep (f : Fld) (hf : f ∈ [R.LTH.CTX_POOL.BASE n c, R.LTH.CTX_LEN.LEN n c, R.LTH.TRK_CTL.SLEW n c]) : k.get f = d.get f :=
      hstep.get f (ctxSettings_book n hn c hc f hf) (by simp)
    have howns (z : Nat) : k.ownsZone n c z = d.ownsZone n c z := by
      rw [Dev.ownsZone, hkeep _ (by simp), hkeep (R.LTH.CTX_LEN.LEN n c) (by simp), Dev.ownsZone]
    have h2 := ih hz.2 k
    generalize each (updateZone n c) xs k = q at h2 ⊢
    refine ⟨fun z h => ?_, fun z => ?_, fun z h => (h2.foreign z ((howns z).trans h)).trans (h1.foreign z h)⟩
    · rw [List.map_cons, List.mem_cons, not_or] at h
      exact (h2.other z h.2).trans (h1.other z (by simpa using h.1))
    · by_cases heq : z = x.1
      · rw [h2.other z (heq ▸ hz.1)]
        exact h1.bound z
      · rw [← h1.other z (by simpa using heq), ← hkeep (R.LTH.TRK_CTL.SLEW n c) (by simp)]
        exact h2.bound z

theorem upto_updateZone (n c : Nat) (e : Nat × (Nat × Nat × Nat)) (d : Dev) : Upto withLth [] d (updateZone n c e d) := by
  have hg (g g' : Nat) (d : Dev) : Upto withLth [] d (gainSet n e.1 g g' d) := by
    have hset := upto_setLth n { d.lthS n with tg := KMap.put (fun _ => 0x4000) (d.lthS n).tg e.1 g' } d
    unfold gainSet
    generalize setLth n { d.lthS n with tg := KMap.put (fun _ => 0x4000) (d.lthS n).tg e.1 g' } d = k at hset ⊢
    exact hset.trans (upto_when _ (upto_lthPerf ..))
  have hz : Upto withLth [] d (zoneCleared n e.1 d) := upto_setLth ..
  rw [updateZone_eq]
  generalize zoneCleared n e.1 d = k at hz ⊢
  split
  · exact upto_of_eq fun _ => rfl
  · split
    · exact hz.trans (hg ..)
    · exact hz

theorem ctx_updateZone (n c : Nat) (e : Nat × (Nat × Nat × Nat)) (d : Dev) : ((updateZone n c e d).lthS n).ctx = (d.lthS n).ctx := by
  have hg (z g g' : Nat) (d : Dev) : ((gainSet n z g g' d).lthS n).ctx = (d.lthS n).ctx := by
    have hset : ((setLth n { d.lthS n with tg := KMap.put (fun _ => 0x4000) (d.lthS n).tg z g' } d).lthS n).ctx = (d.lthS n).ctx := by rw [lthS_setLth]
    unfold gainSet
    generalize setLth n { d.lthS n with tg := KMap.put (fun _ => 0x4000) (d.lthS n).tg z g' } d = k at hset ⊢
    rw [← hset]
    exact congrArg (fun m : KMap LthS => (KMap.get (fun _ => ({} : LthS)) m n).ctx) (lth_of_leaves (leaves_when _ _ _ (leaves_lthPerf n 0xd 1 k)))
  have hz : ((zoneCleared n e.1 d).lthS n).ctx = (d.lthS n).ctx := by rw [zoneCleared, lthS_setLth]
  rw [updateZone_eq]
  generalize zoneCleared n e.1 d = k at hz ⊢
  split
  · rfl
  · split
    · exact (hg ..).trans hz
    · exact hz

theorem winDue_each (n c : Nat) (zs : List (Nat × (Nat × Nat × Nat))) (d : Dev) :
    (((each (updateZone n c) zs d).lthS n).ctxS c).winDue = ((d.lthS n).ctxS c).winDue := by
  have h : ((each (updateZone n c) zs d).lthS n).ctx = (d.lthS n).ctx := proj_each (fun d => (d.lthS n).ctx) (fun x _ d => ctx_updateZone n c x d) d
  rw [LthS.ctxS, h, LthS.ctxS]

theorem trackingWindowEnd_completes (n : Fin 8) (c : Fin 3) (s : State) (hdue : ((s.dev.lthS n.val).ctxS c.val).winDue = true)
    (hwf : KMap.wf (fun _ => (0, 0, 0)) (s.dev.lthS n.val).acc = true) :
    Completes (.trackingWindowEnd n c) s (fun t =>
      ((t.dev.lthS n.val).ctxS c.val).winDue = false ∧
      (∀ z, ((t.dev.tgain n.val z : Int) - s.dev.tgain n.val z).natAbs ≤ s.dev.get (R.LTH.TRK_CTL.SLEW n.val c.val)) ∧
      (∀ z, s.dev.ownsZone n.val c.val z = false → t.dev.tgain n.val z = s.dev.tgain n.val z) ∧
      Frame [] { s.dev with lth := t.dev.lth } s t) := by
  have heq := windowEnd_eq n.val c.val s.dev
  rw [if_pos hdue] at heq
  have hacc : ((windowClosed n.val c.val s.dev).lthS n.val).acc = (s.dev.lthS n.val).acc := by rw [windowClosed, setCtx, lthS_setLth]
  have htg (z : Nat) : (windowClosed n.val c.val s.dev).tgain n.val z = s.dev.tgain n.val z := by
    rw [Dev.tgain, show ((windowClosed n.val c.val s.dev).lthS n.val).tg = (s.dev.lthS n.val).tg by rw [windowClosed, setCtx, lthS_setLth]]
    rfl
  have hwin : (((windowClosed n.val c.val s.dev).lthS n.val).ctxS c.val).winDue = false := by rw [windowClosed, ctxS_setCtx, if_pos rfl]
  have hslew : (windowClosed n.val c.val s.dev).get (R.LTH.TRK_CTL.SLEW n.val c.val) = s.dev.get (R.LTH.TRK_CTL.SLEW n.val c.val) := rfl
  have howns (z : Nat) : (windowClosed n.val c.val s.dev).ownsZone n.val c.val z = s.dev.ownsZone n.val c.val z := rfl
  have hup : Upto withLth [] s.dev (windowClosed n.val c.val s.dev) := upto_setLth ..
  rw [hacc] at heq
  generalize windowClosed n.val c.val s.dev = e at heq htg hwin hslew howns hup
  have hnd := (rising_nodup ((KMap.wf_iff _ _).mp hwf).1).2
  have hs := slewed_each n.isLt c.isLt hnd e
  have hwin' := winDue_each n.val c.val (s.dev.lthS n.val).acc e
  have hup' := hup.trans (upto_each (upto_updateZone n.val c.val) (s.dev.lthS n.val).acc e)
  generalize each (updateZone n.val c.val) (s.dev.lthS n.val).acc e = k at heq hs hwin' hup'
  have hperf := leaves_lthPerf n.val 0xb 1 k
  refine completes_to (exec_trackingWindowEnd n c s) _ heq ?_
  generalize lthPerf n.val 0xb 1 k = q at hperf ⊢
  have hlth (z : Nat) : (s.after q).dev.tgain n.val z = k.tgain n.val z :=
    show q.tgain n.val z = k.tgain n.val z from congrArg (fun m : KMap LthS => KMap.get (fun _ => 0x4000) (KMap.get (fun _ => ({} : LthS)) m n.val).tg z) (lth_of_leaves hperf)
  refine ⟨?_, fun z => ?_, fun z h => ?_, frame_lth (hup'.trans (upto_of_leaves setsPart_withLth hperf)) s⟩
  · rw [← hwin, ← hwin']
    exact congrArg (fun m : KMap LthS => ((KMap.get (fun _ => ({} : LthS)) m n.val).ctxS c.val).winDue) (show q.lth = k.lth from lth_of_leaves hperf)
  · rw [hlth, ← htg, ← hslew]
    exact hs.bound z
  · rw [hlth, ← htg]
    exact hs.foreign z ((howns z).trans h)

/-! ## The clock gate and the self-test -/

theorem latheClockGate_completes (n : Fin 8) (s : State) (hon : s.dev.on (R.LTH.CTL.CLK_GATE n.val) = true)
    (hq : KMap.get (fun _ => ([] : List CamLine)) s.dev.homeQ n.val = []) (hg : (s.dev.lthS n.val).guest = none) :
    Completes (.latheClockGate n) s (fun t =>
      (t.dev.lthS n.val).gated = true ∧ (t.dev.perfS (lthBase n.val)).gated = true ∧ Frame [] { s.dev with lth := t.dev.lth } s t) := by
  refine completes_to (exec_latheClockGate n s)
    (setPerf (lthBase n.val) { s.dev.perfS (lthBase n.val) with gated := true } (setLth n.val { s.dev.lthS n.val with gated := true } s.dev)) ?_ ?_
  · exact if_pos (by rw [hon, hq, hg]; rfl)
  · refine ⟨congrArg LthS.gated (lthS_setLth ..), congrArg PerfS.gated (KMap.get_put_self ..), frame_lth ?_ s⟩
    exact (upto_setLth ..).trans (upto_of_leaves setsPart_withLth (leaves_setPerf ..))

/-- A test line has passed: its clocks and its event are counted. -/
def lineTested (n : Nat) (d : Dev) : Dev := slot 10 (lthBase n) 1 1024 (lthPerf n 0xf 1 d)

theorem leaves_lineTested (n : Nat) (d : Dev) : Leaves [] d (lineTested n d) :=
  (leaves_lthPerf n 0xf 1 d).trans (leaves_slot 10 (perfBase_lth n) (by decide) 1024 _)

theorem latheSelfTest_eq (n : Fin 8) (ok : Bool) (s : State) (hstate : s.dev.get (R.LTH.STATUS.STATE n.val) = 1 ∨ s.dev.get (R.LTH.STATUS.STATE n.val) = 2) :
    (if s.dev.get (R.LTH.STATUS.STATE n.val) = 1 ∨ s.dev.get (R.LTH.STATUS.STATE n.val) = 2 then
      if ok then inc (R.LTH.ST_COUNT.COUNT n.val) 1 (lineTested n.val s.dev)
      else latheFault n.val (rasStat 11 1 (event 10 (R.LTH.STATUS.SEQ n.val) [R.LTH.STATUS.ST_FAIL n.val] (lineTested n.val s.dev)))
    else s.dev) = if ok then inc (R.LTH.ST_COUNT.COUNT n.val) 1 (lineTested n.val s.dev)
      else latheFault n.val (rasStat 11 1 (event 10 (R.LTH.STATUS.SEQ n.val) [R.LTH.STATUS.ST_FAIL n.val] (lineTested n.val s.dev))) := if_pos hstate

/-- The registers of a lathe's self-test are none of the books, and apart. -/
theorem selfTest_book : ∀ n < 8, (∀ f ∈ [R.LTH.ST_COUNT.COUNT n, R.LTH.STATUS.SEQ n, R.LTH.STATUS.ST_FAIL n, R.RAS.STAT.COUNT 11, R.RAS.CTL.LTH_AUTO],
    bookKey f.key = false) ∧
    [R.RAS.STAT.COUNT 11, R.RAS.CTL.LTH_AUTO, R.LTH.STATUS.SEQ n, R.LTH.STATUS.ST_FAIL n].Pairwise (fun f g => f.key ≠ g.key) := by decide +kernel

theorem latheSelfTest_passes (n : Fin 8) (s : State) (hstate : s.dev.get (R.LTH.STATUS.STATE n.val) = 1 ∨ s.dev.get (R.LTH.STATUS.STATE n.val) = 2) :
    Completes (.latheSelfTest n true) s (fun t =>
      Counted (R.LTH.ST_COUNT.COUNT n.val) 1 s.dev t.dev ∧ Frame [R.LTH.ST_COUNT.COUNT n.val] s.dev s t) := by
  have hb := (selfTest_book n.val n.isLt).1 (R.LTH.ST_COUNT.COUNT n.val) (by simp)
  have hl := leaves_lineTested n.val s.dev
  refine completes_to (exec_latheSelfTest n true s) _ (latheSelfTest_eq n true s hstate) ?_
  rw [if_pos rfl]
  generalize lineTested n.val s.dev = e at hl ⊢
  refine ⟨?_, frame_of_leaves (hl.trans (leaves_put ..)) s⟩
  exact counted_of_get (get_put_self ..) (hl.get hb (by simp)) (get_after ..)

theorem latheSelfTest_fails (n : Fin 8) (s : State) (hstate : s.dev.get (R.LTH.STATUS.STATE n.val) = 1 ∨ s.dev.get (R.LTH.STATUS.STATE n.val) = 2)
    (hauto : s.dev.on R.RAS.CTL.LTH_AUTO = false) :
    Completes (.latheSelfTest n false) s (fun t =>
      Raised (R.LTH.STATUS.SEQ n.val) [R.LTH.STATUS.ST_FAIL n.val] s.dev t.dev ∧ Counted (R.RAS.STAT.COUNT 11) 1 s.dev t.dev ∧
      Frame [R.LTH.STATUS.SEQ n.val, R.LTH.STATUS.ST_FAIL n.val, R.RAS.STAT.COUNT 11] s.dev s t) := by
  obtain ⟨hb, hne⟩ := selfTest_book n.val n.isLt
  simp only [List.pairwise_cons, List.mem_cons, List.not_mem_nil, or_false, forall_eq_or_imp, forall_eq] at hne
  obtain ⟨⟨hauto', hseq, hflag⟩, ⟨hs2, hf2⟩, hsf, -⟩ := hne
  have hl := leaves_lineTested n.val s.dev
  refine completes_to (exec_latheSelfTest n false s) _ (latheSelfTest_eq n false s hstate) ?_
  rw [if_neg Bool.false_ne_true]
  generalize lineTested n.val s.dev = e at hl ⊢
  have hev : Leaves [R.LTH.STATUS.SEQ n.val, R.LTH.STATUS.ST_FAIL n.val] e (event 10 (R.LTH.STATUS.SEQ n.val) [R.LTH.STATUS.ST_FAIL n.val] e) := leaves_event ..
  have hr : Raised (R.LTH.STATUS.SEQ n.val) [R.LTH.STATUS.ST_FAIL n.val] s.dev (event 10 (R.LTH.STATUS.SEQ n.val) [R.LTH.STATUS.ST_FAIL n.val] e) :=
    raised_event (fun f hf => hb f (by simp only [List.mem_cons, List.not_mem_nil, or_false] at hf ⊢; tauto)) (by simp [R.LTH.STATUS.ST_FAIL]) (by simpa using hsf)
      (hl.get (hb _ (by simp)) (by simp))
  generalize event 10 (R.LTH.STATUS.SEQ n.val) [R.LTH.STATUS.ST_FAIL n.val] e = k at hev hr ⊢
  have hcount : Leaves [R.RAS.STAT.COUNT 11] k (rasStat 11 1 k) := leaves_put ..
  have hval : Counted (R.RAS.STAT.COUNT 11) 1 k (rasStat 11 1 k) := get_put_self ..
  generalize rasStat 11 1 k = q at hcount hval ⊢
  have hoff : q.on R.RAS.CTL.LTH_AUTO = false := by
    rw [Dev.on, hcount.get (hb _ (by simp)) (by simpa using hauto'.symm), hev.get (hb _ (by simp)) (by simpa using ⟨hs2, hf2⟩), hl.get (hb _ (by simp)) (by simp)]
    exact hauto
  rw [latheFault, if_pos (by simp [hoff])]
  refine ⟨raised_after (raised_then hr hcount (fun f hf => hb f (by simp only [List.mem_cons, List.not_mem_nil, or_false] at hf ⊢; tauto)) ?_) s,
    counted_of_get hval ((hev.get (hb _ (by simp)) (by simpa using ⟨hseq, hflag⟩)).trans (hl.get (hb _ (by simp)) (by simp))) (get_after ..),
    frame_of_leaves ((hl.trans hev).trans hcount) s⟩
  simpa using ⟨hseq.symm, hflag.symm⟩

end Sys2Proof.Proofs
end

section
/-!
A guest line starts from the ring of its port (R187, R188).
-/
namespace Sys2Proof.Proofs
open Sys2Proof Sys2Proof.Machine

/-! ## The next slot -/

/-- Context `c` of lathe `n` has taken its next slot, and the lathe's clock runs. -/
def slotTaken (n c : Nat) (d : Dev) : Dev :=
  let k := (d.lthS n).ctxS c
  let d := setCtx n c { k with taken := k.taken + 1 } d
  setLth n { d.lthS n with gated := false } d

/-- The first line after a migration of port `p` is noted. -/
def slotResumed (p : Nat) (d : Dev) : Dev :=
  when (d.ras.resume == some p) (fun d => put R.RAS.MIG_RESUME.DT d.dt { d with ras := { d.ras with resume := none } }) d

/-- The line in the slot reaches the context. -/
def slotBegun (n c p : Nat) (d : Dev) : Dev := ctxLine n c (slotResumed p (slotTaken n c d))

/-- What becomes of the slot's line: `h` is the header, read with poison or without, and `base` its address. -/
def slotLine (n c p base : Nat) (h : List Byte) (poison : Bool) (e : Nat) (m : Mem) (d : Dev) : Dev :=
  if crc32c (h.take 60) != fieldAt h 60 4 then
    guestToken n c (fieldAt h 0 4) e (fieldAt h 16 8) (skipCase n c 5 (R.LTH.CTX_STATUS.HDR_CRC n c) d)
  else if decide ((d.get (R.LTH.GSCHED.SKIP_NS n) : Int) * 65536 < dtDiff d.dt (fieldAt h 16 8)) then
    guestToken n c (fieldAt h 0 4) e (fieldAt h 16 8) (skipCase n c 4 (R.LTH.CTX_STATUS.SKIP n c) d)
  else
    let tok := bit (fieldAt h 4 2) 0
    let r := d.ringSamples m n c base
    let d := meterUser 0 (if tok then 64 else 64 + 2 * d.ctxLen n c) d
    let bad := if poison then some base else if tok then none else r.2
    if bad.isSome then
      guestToken n c (fieldAt h 0 4) e (fieldAt h 16 8) (logEv 0x0a82 n 2 (bad.getD base) (skipCase n c 6 (R.LTH.CTX_STATUS.POISON n c) d))
    else if tok then guestToken n c (fieldAt h 0 4) e (fieldAt h 16 8) d
    else
      let line : CamLine :=
        { port := p, lsn := fieldAt h 0 4, e, flags := fieldAt h 4 2, pflags := (List.range 4).map (fun q => fieldAt h (32 + q) 1)
          dtExp := fieldAt h 8 8, dtDone := fieldAt h 16 8, token := false, planes := r.1 }
      setLth n { d.lthS n with guest := some (c, line) } d

theorem takeSlot_eq {n c : Nat} {m : Mem} {d : Dev} {h : List Byte} (hr : d.dramRead m (d.nextSlotAt n c) 64 = (h, false))
    (hgone : KMap.get (fun _ => (none : Option (Nat × Nat × Nat))) (d.portS (d.ctxPort n c)).ringLost ((d.lthS n).ctxS c).taken = none) :
    ∃ e, takeSlot n c m d =
      ringAdvance (d.ctxPort n c) (slotLine n c (d.ctxPort n c) (d.nextSlotAt n c) h false e m (slotBegun n c (d.ctxPort n c) d)) := by
  unfold Dev.nextSlotAt at hr
  unfold takeSlot slotLine slotBegun slotResumed slotTaken Dev.nextSlotAt
  dsimp only
  rw [hgone, hr]
  exact ⟨_, rfl⟩

/-! ## What comes before the slot's line -/

theorem rwb_windowEnd (n c : Nat) (d : Dev) : (windowEnd n c d).rwb = d.rwb := by
  rw [windowEnd_eq]
  split
  · have hup : Upto withLth [] d (windowClosed n c d) := upto_setLth ..
    have hall := (hup.trans (upto_each (upto_updateZone n c) ((windowClosed n c d).lthS n).acc _)).trans (upto_lthPerf n 0xb 1 _)
    generalize lthPerf n 0xb 1 (each (updateZone n c) ((windowClosed n c d).lthS n).acc (windowClosed n c d)) = k at hall ⊢
    exact (rwb_of_leaves (hall.leaves d.lth) :)
  · rfl

theorem rwb_boundarySwap (u : TblUnit) (d : Dev) : (boundarySwap u d).rwb = d.rwb := by
  unfold boundarySwap when
  split
  · exact (rwb_of_leaves (exchange_leaves u d)).trans rfl
  · rfl

theorem latheStep_ctxLine (n c : Nat) {d : Dev} (hrwb : d.rwb = []) : LatheStep n [tblPend (lthUnit n c)] d (ctxLine n c d) := by
  obtain ⟨first, blk, heq⟩ := ctxLine_eq n c d
  rw [heq]
  have hopen : LatheStep n [tblPend (lthUnit n c)] d (ctxOpened n c first d) := by
    unfold ctxOpened
    have hwin := latheStep_windowEnd n c d
    have hw : (windowEnd n c d).rwb = [] := (rwb_windowEnd n c d).trans hrwb
    generalize windowEnd n c d = e at hwin hw ⊢
    have hswap := latheStep_boundarySwap n (lthUnit n c) e
    have hs : (boundarySwap (lthUnit n c) e).rwb = [] := (rwb_boundarySwap (lthUnit n c) e).trans hw
    dsimp only
    generalize boundarySwap (lthUnit n c) e = k at hswap hs ⊢
    cases first with
    | false => exact hwin.mono (by simp)
    | true => exact (hwin.trans hswap).trans (latheStep_of_rest (applyPend_nil hs) (latheRest_applyPend ..))
  exact hopen.trans (latheStep_ctxCounted n c blk _)

/-- Context `c` of lathe `n` is one slot further, and beside these registers and the books the settings and what waits are as before. -/
structure SlotBegun (n c : Nat) (d e : Dev) : Prop where
  get : ∀ f : Fld, bookKey f.key = false → f.key ∉ [R.RAS.MIG_RESUME.DT, tblPend (lthUnit n c)].map Fld.key → e.get f = d.get f
  taken : ((e.lthS n).ctxS c).taken = ((d.lthS n).ctxS c).taken + 1
  guest : (e.lthS n).guest = (d.lthS n).guest
  fus : e.fus = d.fus
  tim : e.tim = d.tim
  posted : e.posted = d.posted

theorem slotTaken_facts (n c : Nat) (d : Dev) : (((slotTaken n c d).lthS n).ctxS c).taken = ((d.lthS n).ctxS c).taken + 1 ∧
    ((slotTaken n c d).lthS n).guest = (d.lthS n).guest := by
  have hset := lthS_setLth n { (setCtx n c { (d.lthS n).ctxS c with taken := ((d.lthS n).ctxS c).taken + 1 } d).lthS n with gated := false }
    (setCtx n c { (d.lthS n).ctxS c with taken := ((d.lthS n).ctxS c).taken + 1 } d)
  have hctx := ctxS_setCtx n c { (d.lthS n).ctxS c with taken := ((d.lthS n).ctxS c).taken + 1 } d c
  rw [if_pos rfl] at hctx
  have hg : ((setCtx n c { (d.lthS n).ctxS c with taken := ((d.lthS n).ctxS c).taken + 1 } d).lthS n).guest = (d.lthS n).guest := by rw [setCtx, lthS_setLth]
  exact ⟨(congrArg (fun x : LthS => (x.ctxS c).taken) hset).trans (congrArg LthCtx.taken hctx), (congrArg LthS.guest hset).trans hg⟩

theorem latheStep_slotResumed (n p : Nat) (d : Dev) : LatheStep n [R.RAS.MIG_RESUME.DT] d (slotResumed p d) ∧ (slotResumed p d).rwb = d.rwb := by
  have hset : LatheStep n [] d { d with ras := { d.ras with resume := none } } := latheStep_of_rest rfl (latheRest_same rfl rfl rfl rfl rfl)
  have hput := latheStep_put n R.RAS.MIG_RESUME.DT d.dt { d with ras := { d.ras with resume := none } }
  have hrw : (put R.RAS.MIG_RESUME.DT d.dt { d with ras := { d.ras with resume := none } }).rwb = d.rwb := rfl
  unfold slotResumed when
  split
  · exact ⟨hset.trans hput, hrw⟩
  · exact ⟨(latheStep_refl n d).mono (by simp), rfl⟩

theorem slotBegun_facts (n c p : Nat) {d : Dev} (hrwb : d.rwb = []) : SlotBegun n c d (slotBegun n c p d) := by
  obtain ⟨htaken, hguest⟩ := slotTaken_facts n c d
  have hget (f : Fld) : (slotTaken n c d).get f = d.get f := rfl
  have hw : (slotTaken n c d).rwb = [] := hrwb
  have hfus : (slotTaken n c d).fus = d.fus := rfl
  have htim : (slotTaken n c d).tim = d.tim := rfl
  have hpost : (slotTaken n c d).posted = d.posted := rfl
  unfold slotBegun
  generalize slotTaken n c d = e at *
  obtain ⟨hres, hrw⟩ := latheStep_slotResumed n p e
  generalize slotResumed p e = k at hres hrw ⊢
  have hall := hres.trans (latheStep_ctxLine n c (hrw.trans hw))
  generalize ctxLine n c k = q at hall ⊢
  exact ⟨fun f hb hf => (hall.get f hb hf).trans (hget f), (hall.rest.taken c).trans htaken, hall.rest.guest.trans hguest, hall.rest.fus.trans hfus,
    hall.rest.tim.trans htim, hall.rest.posted.trans hpost⟩

theorem latheStep_ringAdvance (n p : Nat) (d : Dev) : LatheStep n [R.EKL.RING_RD.SLOT p] d (ringAdvance p d) := by
  have hset (x : PortS) : LatheStep n [] d (setPort p x d) := latheStep_of_rest rfl (latheRest_same rfl rfl rfl rfl rfl)
  unfold ringAdvance
  dsimp only
  split
  · exact (latheStep_refl n d).mono (by simp)
  · exact (hset _).trans (latheStep_put ..)

/-! ## The slot as the context reads it -/

/-- The registers that say which samples of a slot a context reads. -/
def shareRegs (n c p : Nat) : List Fld :=
  [R.LTH.CTX_CTL.PORT n c, R.LTH.CTX_SHARE.FIRST n c, R.LTH.CTX_SHARE.COUNT n c] ++ (List.range 4).flatMap (fun q => [R.EKL.PLANE_CTL.EN p q, R.EKL.PLANE_CTL.WIDTH p q])

/-- The settings that a context's next slot meets. -/
def slotRegs (n c p : Nat) : List Fld := R.LTH.GSCHED.SKIP_NS n :: (shareRegs n c p ++ mapRegs)

theorem slotRegs_book : ∀ (n : Fin 8) (c : Fin 3) (p : Fin 12), ∀ f ∈ slotRegs n.val c.val p.val,
    bookKey f.key = false ∧ f.key ∉ [R.RAS.MIG_RESUME.DT, tblPend (lthUnit n.val c.val)].map Fld.key := by decide +kernel

theorem ctxStatus_apart : ∀ n < 8, ∀ c < 3, ∀ f ∈ ctxStatusRegs n c, f.key ∉ [R.RAS.MIG_RESUME.DT, tblPend (lthUnit n c)].map Fld.key ∧
    ∀ p < 12, f.key ≠ (R.EKL.RING_RD.SLOT p).key := by decide +kernel

theorem SameDram.poisonAt {d e : Dev} (h : SameDram d e) (m : Mem) (a n : Nat) : e.poisonAt m a n = d.poisonAt m a n := by
  unfold Dev.poisonAt
  simp only [h.channels, h.dramEnd, h.view, h.physKey]

theorem ringSamples_congr {n c : Nat} {d e : Dev} (hram : SameDram d e) (hget : ∀ f ∈ shareRegs n c (d.ctxPort n c), e.get f = d.get f) (m : Mem) (base : Nat) :
    e.ringSamples m n c base = d.ringSamples m n c base := by
  have hport : e.ctxPort n c = d.ctxPort n c := hget _ (by simp [shareRegs])
  have hen (q : Nat) (hq : q < 4) : e.on (R.EKL.PLANE_CTL.EN (d.ctxPort n c) q) = d.on (R.EKL.PLANE_CTL.EN (d.ctxPort n c) q) :=
    congrArg (· == 1) (hget _ (List.mem_append_right _ (List.mem_flatMap.mpr ⟨q, List.mem_range.mpr hq, by simp⟩)))
  have hw (q : Nat) (hq : q < 4) : e.get (R.EKL.PLANE_CTL.WIDTH (d.ctxPort n c) q) = d.get (R.EKL.PLANE_CTL.WIDTH (d.ctxPort n c) q) :=
    hget _ (List.mem_append_right _ (List.mem_flatMap.mpr ⟨q, List.mem_range.mpr hq, by simp⟩))
  have hslots : e.slots (d.ctxPort n c) = d.slots (d.ctxPort n c) := List.filter_congr fun q hq => hen q (List.mem_range.mp hq)
  have hshare : e.shareOf n c = d.shareOf n c := by
    unfold Dev.shareOf
    rw [hget (R.LTH.CTX_SHARE.FIRST n c) (by simp [shareRegs]), hget (R.LTH.CTX_SHARE.COUNT n c) (by simp [shareRegs])]
  have hspan (q : Nat) (hq : q < 4) : e.span n c q = d.span n c q := by rw [Dev.span, hport, hw q hq, hshare, Dev.span]
  have hbefore (q : Nat) : ((d.slots (d.ctxPort n c)).filter (· < q)).map (fun r => e.get (R.EKL.PLANE_CTL.WIDTH (d.ctxPort n c) r)) =
      ((d.slots (d.ctxPort n c)).filter (· < q)).map (fun r => d.get (R.EKL.PLANE_CTL.WIDTH (d.ctxPort n c) r)) :=
    List.map_congr_left fun r hr => hw r (List.mem_range.mp (List.mem_filter.mp (List.mem_filter.mp hr).1).1)
  unfold Dev.ringSamples
  dsimp only
  rw [hport]
  have hone : (List.range 4).map (fun q => if e.on (R.EKL.PLANE_CTL.EN (d.ctxPort n c) q) = true then
      ((List.range ((e.span n c q).hi - (e.span n c q).lo)).map (fun i => fieldAt (e.dramRead m (base + 64 + 2 *
        (sumNat (((e.slots (d.ctxPort n c)).filter (· < q)).map (fun r => e.get (R.EKL.PLANE_CTL.WIDTH (d.ctxPort n c) r))) + (e.span n c q).lo))
        (2 * ((e.span n c q).hi - (e.span n c q).lo))).1 (2 * i) 2),
       if (e.dramRead m (base + 64 + 2 *
        (sumNat (((e.slots (d.ctxPort n c)).filter (· < q)).map (fun r => e.get (R.EKL.PLANE_CTL.WIDTH (d.ctxPort n c) r))) + (e.span n c q).lo))
        (2 * ((e.span n c q).hi - (e.span n c q).lo))).2 = true then e.poisonAt m (base + 64 + 2 *
        (sumNat (((e.slots (d.ctxPort n c)).filter (· < q)).map (fun r => e.get (R.EKL.PLANE_CTL.WIDTH (d.ctxPort n c) r))) + (e.span n c q).lo))
        (2 * ((e.span n c q).hi - (e.span n c q).lo)) else none)
    else ([], none)) = _ := List.map_congr_left fun q hq => by
      rw [hen q (List.mem_range.mp hq), hspan q (List.mem_range.mp hq), hslots, hbefore, hram.dramRead, hram.poisonAt]
  rw [hone]

/-! ## Clauses -/

/-- The line in a slot with this header. -/
def headedLine (p : Nat) (h : List Byte) (e : Nat) (planes : List (List Nat)) : CamLine :=
  { port := p, lsn := fieldAt h 0 4, e, flags := fieldAt h 4 2, pflags := (List.range 4).map (fun q => fieldAt h (32 + q) 1)
    dtExp := fieldAt h 8 8, dtDone := fieldAt h 16 8, token := false, planes }

/-- The slot's line is the guest line in progress. -/
def slotGuest (n c p : Nat) (h : List Byte) (e : Nat) (planes : List (List Nat)) (d : Dev) : Dev :=
  let d := meterUser 0 (64 + 2 * d.ctxLen n c) d
  setLth n { d.lthS n with guest := some (c, headedLine p h e planes) } d

theorem slotGuest_facts (n c p : Nat) (h : List Byte) (e : Nat) (planes : List (List Nat)) (d : Dev) :
    ((slotGuest n c p h e planes d).lthS n).guest = some (c, headedLine p h e planes) ∧
    (∀ j, (((slotGuest n c p h e planes d).lthS n).ctxS j).taken = ((d.lthS n).ctxS j).taken) ∧ (slotGuest n c p h e planes d).fus = d.fus := by
  unfold slotGuest
  dsimp only
  rw [lthS_setLth]
  exact ⟨rfl, fun _ => rfl, rfl⟩

theorem skipCase_facts {n c : Nat} (hn : n < 8) (hc : c < 3) (code : Nat) {st : Fld} (hst : st = R.LTH.CTX_STATUS.SKIP n c ∨ st = R.LTH.CTX_STATUS.HDR_CRC n c) (d : Dev) :
    LatheStep n [R.LTH.CTX_STATUS.SEQ n c, st, R.LTH.SKIPS.COUNT n c] d (skipCase n c code st d) ∧
    Raised (R.LTH.CTX_STATUS.SEQ n c) [st] d (skipCase n c code st d) ∧ Counted (R.LTH.SKIPS.COUNT n c) 1 d (skipCase n c code st d) := by
  have hbook (f : Fld) (hf : f ∈ ctxStatusRegs n c) : bookKey f.key = false := (ctxStatus_book hn hc f hf).1
  have hmem : st ∈ ctxStatusRegs n c := by rcases hst with rfl | rfl <;> simp [ctxStatusRegs]
  have hpair := (ctxStatus_books n hn c hc).2
  simp only [ctxStatusRegs, List.pairwise_cons, List.mem_cons, List.not_mem_nil, or_false, forall_eq_or_imp, forall_eq] at hpair
  obtain ⟨⟨-, -, hs1, hs2, hs3⟩, -, -, ⟨-, hk1⟩, hk2, -⟩ := hpair
  have hseq : (R.LTH.CTX_STATUS.SEQ n c).key ≠ st.key := by rcases hst with rfl | rfl <;> assumption
  have hcnt : st.key ≠ (R.LTH.SKIPS.COUNT n c).key := by rcases hst with rfl | rfl <;> assumption
  have hw : st.w = 1 := by rcases hst with rfl | rfl <;> rfl
  have hall : ∀ f ∈ [R.LTH.CTX_STATUS.SEQ n c, st], bookKey f.key = false := by
    simp only [List.mem_cons, List.not_mem_nil, or_false, forall_eq_or_imp, forall_eq]
    exact ⟨hbook _ (by simp [ctxStatusRegs]), hbook _ hmem⟩
  have hev : Leaves [R.LTH.CTX_STATUS.SEQ n c, st] d (event 10 (R.LTH.CTX_STATUS.SEQ n c) [st] d) := leaves_event ..
  have hr : Raised (R.LTH.CTX_STATUS.SEQ n c) [st] d (event 10 (R.LTH.CTX_STATUS.SEQ n c) [st] d) :=
    raised_event hall (by simpa using hw) (by simpa using hseq) rfl
  unfold skipCase
  generalize event 10 (R.LTH.CTX_STATUS.SEQ n c) [st] d = e at hev hr ⊢
  have hinc : Leaves [R.LTH.SKIPS.COUNT n c] e (inc (R.LTH.SKIPS.COUNT n c) 1 e) := leaves_put ..
  have hval : Counted (R.LTH.SKIPS.COUNT n c) 1 e (inc (R.LTH.SKIPS.COUNT n c) 1 e) := get_put_self ..
  generalize inc (R.LTH.SKIPS.COUNT n c) 1 e = k at hinc hval ⊢
  have hperf := leaves_lthPerf n code 1 k
  have hrest := hinc.trans hperf
  generalize lthPerf n code 1 k = q at hperf hrest ⊢
  have hkcount : bookKey (R.LTH.SKIPS.COUNT n c).key = false := hbook _ (by simp [ctxStatusRegs])
  refine ⟨latheStep_of_leaves n (hev.trans hrest), raised_then hr hrest hall (by simpa using ⟨hs3, hcnt⟩), ?_⟩
  exact counted_of_get hval (hev.get hkcount (by simpa using ⟨hs3.symm, hcnt.symm⟩)) (hperf.get hkcount (by simp))

/-- A guest line taken as a token. -/
def tokenLine (p lsn e done : Nat) : CamLine :=
  { port := p, lsn, e, flags := 1, pflags := [0, 0, 0, 0], dtExp := e, dtDone := done, token := true, planes := [[], [], [], []] }

theorem guestToken_passes (n c lsn e done : Nat) (d : Dev) : ∃ p : Piece, p.lsn = lsn ∧ p.token = true ∧
    Passed n c p lsn d (guestToken n c lsn e done d) := by
  obtain ⟨p, -, h2, -, h4, h⟩ := passToken_passes n c (tokenLine (d.ctxPort n c) lsn e done) d
  exact ⟨p, h2, h4, h⟩

theorem guestLineStart_takes {n : Fin 8} {c : Fin 3} {h : List Byte} {s : State} (hs : s.dev.startsGuest s.mem n.val c.val h) :
    ∃ e k, SlotBegun n.val c.val s.dev k ∧ s.dev.ctxPort n.val c.val < 12 ∧
      (if (s.dev.lthS n.val).guest.isSome || !s.dev.homeIdle n.val then (.next s.dev : Host.Outcome Dev Fault Refusal)
      else match s.dev.pickGuest s.mem n.val with
        | none => .next s.dev
        | some c =>
          match (s.dev.ringErr (s.dev.ctxPort n.val c)).orElse (fun _ => s.dev.ctxErr n.val c) with
          | some w => .fault (.hostError w)
          | none => .next (takeSlot n.val c s.mem s.dev)) =
        .next (ringAdvance (s.dev.ctxPort n.val c.val)
          (slotLine n.val c.val (s.dev.ctxPort n.val c.val) (s.dev.nextSlotAt n.val c.val) h false e s.mem k)) := by
  obtain ⟨hg, hidle, hpick, hring, hctx, hrwb, hread, hgone⟩ := hs
  obtain ⟨e, heq⟩ := takeSlot_eq hread hgone
  refine ⟨e, slotBegun n.val c.val (s.dev.ctxPort n.val c.val) s.dev, slotBegun_facts _ _ _ hrwb, ?_, ?_⟩
  · unfold Dev.ctxErr at hctx
    by_contra hp
    rw [if_pos (by omega)] at hctx
    cases hctx
  · rw [← heq, hg, hidle, hpick, if_neg (by simp)]
    dsimp only
    rw [hring, hctx] <;> rfl

theorem guestLineStart_begins (n : Fin 8) (c : Fin 3) (h : List Byte) (s : State) (hs : s.dev.startsGuest s.mem n.val c.val h)
    (hcrc : crc32c (h.take 60) = fieldAt h 60 4) (hage : dtDiff s.dev.dt (fieldAt h 16 8) ≤ (s.dev.get (R.LTH.GSCHED.SKIP_NS n.val) : Int) * 65536)
    (htok : bit (fieldAt h 4 2) 0 = false) (hsound : (s.dev.ringSamples s.mem n.val c.val (s.dev.nextSlotAt n.val c.val)).2 = none) :
    Completes (.guestLineStart n) s (fun t =>
      ((t.dev.lthS n.val).ctxS c.val).taken = ((s.dev.lthS n.val).ctxS c.val).taken + 1 ∧
      (∃ l : CamLine, (t.dev.lthS n.val).guest = some (c.val, l) ∧ l.port = s.dev.ctxPort n.val c.val ∧
        l.lsn = fieldAt h 0 4 ∧ l.flags = fieldAt h 4 2 ∧ l.token = false) ∧
      t.dev.fus.queue = s.dev.fus.queue) := by
  obtain ⟨e, k, hk, hp, hdo⟩ := guestLineStart_takes hs
  have hset (f : Fld) (hf : f ∈ slotRegs n.val c.val (s.dev.ctxPort n.val c.val)) : k.get f = s.dev.get f :=
    (slotRegs_book n c ⟨_, hp⟩ f hf).elim (hk.get f)
  have hram : SameDram s.dev k := ⟨fun f hf => hset f (by simp [slotRegs, hf]), hk.posted⟩
  have hring := ringSamples_congr (n := n.val) (c := c.val) hram (fun f hf => hset f (by simp [slotRegs, hf])) s.mem (s.dev.nextSlotAt n.val c.val)
  have hskip : k.get (R.LTH.GSCHED.SKIP_NS n.val) = s.dev.get (R.LTH.GSCHED.SKIP_NS n.val) := hset _ (by simp [slotRegs])
  have hdt : k.dt = s.dev.dt := by rw [Dev.dt, hk.tim, Dev.dt]
  have hline : slotLine n.val c.val (s.dev.ctxPort n.val c.val) (s.dev.nextSlotAt n.val c.val) h false e s.mem k =
      slotGuest n.val c.val (s.dev.ctxPort n.val c.val) h e (k.ringSamples s.mem n.val c.val (s.dev.nextSlotAt n.val c.val)).1 k := by
    unfold slotLine slotGuest
    rw [if_neg (by simpa using hcrc), if_neg (by simpa [hskip, hdt] using hage)]
    dsimp only
    rw [hring, hsound, htok]
    rfl
  rw [hline] at hdo
  obtain ⟨hguest, htaken, hfus⟩ := slotGuest_facts n.val c.val (s.dev.ctxPort n.val c.val) h e
    (k.ringSamples s.mem n.val c.val (s.dev.nextSlotAt n.val c.val)).1 k
  generalize slotGuest n.val c.val (s.dev.ctxPort n.val c.val) h e (k.ringSamples s.mem n.val c.val (s.dev.nextSlotAt n.val c.val)).1 k = q at hdo hguest htaken hfus
  have hadv := (latheStep_ringAdvance n.val (s.dev.ctxPort n.val c.val) q).rest
  refine completes_run (exec_guestLineStart n s) hdo ?_
  generalize ringAdvance (s.dev.ctxPort n.val c.val) q = w at hadv ⊢
  refine ⟨(hadv.taken c.val).trans ((htaken c.val).trans hk.taken), ⟨_, hadv.guest.trans hguest, rfl, rfl, rfl, rfl⟩, ?_⟩
  rw [after_fus, hadv.fus, hfus, hk.fus]

theorem guestLineStart_skips (n : Fin 8) (c : Fin 3) (h : List Byte) (s : State) (hs : s.dev.startsGuest s.mem n.val c.val h)
    (hbad : crc32c (h.take 60) ≠ fieldAt h 60 4 ∨
      (crc32c (h.take 60) = fieldAt h 60 4 ∧ (s.dev.get (R.LTH.GSCHED.SKIP_NS n.val) : Int) * 65536 < dtDiff s.dev.dt (fieldAt h 16 8))) :
    Completes (.guestLineStart n) s (fun t =>
      ((t.dev.lthS n.val).ctxS c.val).taken = ((s.dev.lthS n.val).ctxS c.val).taken + 1 ∧ (t.dev.lthS n.val).guest = none ∧
      Raised (R.LTH.CTX_STATUS.SEQ n.val c.val)
        [if crc32c (h.take 60) = fieldAt h 60 4 then R.LTH.CTX_STATUS.SKIP n.val c.val else R.LTH.CTX_STATUS.HDR_CRC n.val c.val]
        s.dev t.dev ∧
      Counted (R.LTH.SKIPS.COUNT n.val c.val) 1 s.dev t.dev ∧
      (∃ x : Piece, t.dev.fus.queue = s.dev.fus.queue ++ [x] ∧ x.lsn = fieldAt h 0 4 ∧ x.token = true)) := by
  obtain ⟨e, k, hk, hp, hdo⟩ := guestLineStart_takes hs
  have hskip : k.get (R.LTH.GSCHED.SKIP_NS n.val) = s.dev.get (R.LTH.GSCHED.SKIP_NS n.val) :=
    (slotRegs_book n c ⟨_, hp⟩ _ (by simp [slotRegs])).elim (hk.get _)
  have hdt : k.dt = s.dev.dt := by rw [Dev.dt, hk.tim, Dev.dt]
  have hline : ∃ code, slotLine n.val c.val (s.dev.ctxPort n.val c.val) (s.dev.nextSlotAt n.val c.val) h false e s.mem k =
      guestToken n.val c.val (fieldAt h 0 4) e (fieldAt h 16 8) (skipCase n.val c.val code
        (if crc32c (h.take 60) = fieldAt h 60 4 then R.LTH.CTX_STATUS.SKIP n.val c.val else R.LTH.CTX_STATUS.HDR_CRC n.val c.val) k) := by
    unfold slotLine
    by_cases hcrc : crc32c (h.take 60) = fieldAt h 60 4
    · have hold := (hbad.resolve_left (not_not.mpr hcrc)).2
      rw [if_neg (by simpa using hcrc), if_pos (by simpa [hskip, hdt] using hold), if_pos hcrc]
      exact ⟨_, rfl⟩
    · rw [if_pos (by simpa using hcrc), if_neg hcrc]
      exact ⟨_, rfl⟩
  obtain ⟨code, hline⟩ := hline
  rw [hline] at hdo
  generalize hst : (if crc32c (h.take 60) = fieldAt h 60 4 then R.LTH.CTX_STATUS.SKIP n.val c.val else R.LTH.CTX_STATUS.HDR_CRC n.val c.val) = st at hdo ⊢
  have hmem : st = R.LTH.CTX_STATUS.SKIP n.val c.val ∨ st = R.LTH.CTX_STATUS.HDR_CRC n.val c.val := by
    rw [← hst]
    split <;> simp
  clear hline
  obtain ⟨hstep, hr, hcnt⟩ := skipCase_facts n.isLt c.isLt code hmem k
  generalize skipCase n.val c.val code st k = q at hdo hstep hr hcnt
  obtain ⟨p, hlsn, htoken, hpass⟩ := guestToken_passes n.val c.val (fieldAt h 0 4) e (fieldAt h 16 8) q
  generalize guestToken n.val c.val (fieldAt h 0 4) e (fieldAt h 16 8) q = w at hdo hpass
  have hadv := latheStep_ringAdvance n.val (s.dev.ctxPort n.val c.val) w
  refine completes_run (exec_guestLineStart n s) hdo ?_
  generalize ringAdvance (s.dev.ctxPort n.val c.val) w = z at hadv ⊢
  have hbefore (f : Fld) (hf : f ∈ ctxStatusRegs n.val c.val) : k.get f = s.dev.get f :=
    hk.get f (ctxStatus_book n.isLt c.isLt f hf).1 (ctxStatus_apart n.val n.isLt c.val c.isLt f hf).1
  have hafter (f : Fld) (hf : f ∈ ctxStatusRegs n.val c.val) : z.get f = q.get f := by
    obtain ⟨hb, hnot⟩ := ctxStatus_book n.isLt c.isLt f hf
    have hslot := (ctxStatus_apart n.val n.isLt c.val c.isLt f hf).2 _ hp
    exact (hadv.get f hb (by simpa using hslot)).trans (hpass.get f hb hnot)
  have hstm : st ∈ ctxStatusRegs n.val c.val := by rcases hmem with rfl | rfl <;> simp [ctxStatusRegs]
  refine ⟨?_, ?_, raised_after ⟨?_, ?_⟩ s, ?_, p, ?_, hlsn, htoken⟩
  · exact (hadv.rest.taken c.val).trans ((hpass.taken c.val).trans ((hstep.rest.taken c.val).trans hk.taken))
  · exact hadv.rest.guest.trans (hpass.guest.trans (hstep.rest.guest.trans (hk.guest.trans hs.1)))
  · rw [hafter _ (by simp [ctxStatusRegs]), hr.1, hbefore _ (by simp [ctxStatusRegs])]
  · intro f hf
    rw [List.mem_singleton.mp hf]
    exact (congrArg (· == 1) (hafter st hstm)).trans (hr.2 st (by simp))
  · exact counted_of_get hcnt (hbefore _ (by simp [ctxStatusRegs])) ((get_after ..).trans (hafter _ (by simp [ctxStatusRegs])))
  · rw [after_fus, hadv.rest.fus, hpass.queue, hstep.rest.fus, hk.fus]

/-- Settles O37: a line that a lathe passes leaves as one piece behind the pieces that wait, the taps and counts touch no other line, a window's end visits each zone
once and clips its move to SLEW, and a failed self-test with LTH_AUTO 0 only raises and counts. -/
theorem lathesPassLines : Obligations.LathesPassLines :=
  ⟨latheLineOutput_home, latheLineOutput_guest, guestLineStart_begins, guestLineStart_skips, poisonedResponse_completes, trackingWindowEnd_completes,
    latheClockGate_completes, latheSelfTest_passes, latheSelfTest_fails⟩

end Sys2Proof.Proofs
end

section
/-!
What a verdict changes beside the verdict unit: its counters and flags, the pins' levels, an error event (R321 to R338, R351).
-/
namespace Sys2Proof.Proofs
open Sys2Proof Sys2Proof.Machine

/-! ## The sizes of the regions -/

/-- A field that is the size of no region, whatever the region's number. -/
def sizeApart (f : Fld) : Prop := f.key % 64 ≠ 32 ∨ f.key / 64 < 0x1b00000

theorem ne_of_sizeApart {f : Fld} (h : sizeApart f) (i : Nat) : (R.DDR.RGN_ACT.SIZE_MIB i).key ≠ f.key := by
  unfold sizeApart at h
  have hk : (R.DDR.RGN_ACT.SIZE_MIB i).key = (0x1b00100 + 0x8 * i) * 64 + 32 := rfl
  omega

/-- From `d` to `e` no region's size has changed. -/
structure SizesKept (d e : Dev) : Prop where
  kept : ∀ i, e.get (R.DDR.RGN_ACT.SIZE_MIB i) = d.get (R.DDR.RGN_ACT.SIZE_MIB i)

theorem sizesKept_refl (d : Dev) : SizesKept d d := ⟨fun _ => rfl⟩

theorem sizesKept_of_regs {d e : Dev} (h : e.regs = d.regs) : SizesKept d e := ⟨fun _ => get_congr h _⟩

theorem SizesKept.trans {d e g : Dev} (h : SizesKept d e) (h' : SizesKept e g) : SizesKept d g := ⟨fun i => (h'.kept i).trans (h.kept i)⟩

theorem sizesKept_put (f : Fld) (h : sizeApart f) (v : Nat) (d : Dev) : SizesKept d (put f v d) := ⟨fun i => get_put_ne (ne_of_sizeApart h i) v d⟩

theorem sizesKept_puts : ∀ (fs : List (Fld × Nat)) (d : Dev), (∀ f ∈ fs, sizeApart f.1) → SizesKept d (puts fs d)
  | [], d, _ => sizesKept_refl d
  | f :: fs, d, h => (sizesKept_put f.1 (h f List.mem_cons_self) f.2 d).trans (sizesKept_puts fs _ fun g hg => h g (List.mem_cons_of_mem _ hg))

theorem sizesKept_raise (e : Nat) (d : Dev) : SizesKept d (raise e d) := by
  have hinc (x : DmaS) : SizesKept d (inc (R.HST.STAT.COUNT 1) 1 { d with dma := x }) := by
    have hset : SizesKept d { d with dma := x } := sizesKept_of_regs rfl
    exact hset.trans (sizesKept_put (R.HST.STAT.COUNT 1) (.inl (by decide)) _ _)
  unfold raise
  dsimp only
  split
  · split
    · exact hinc _
    · exact sizesKept_of_regs rfl
  · exact sizesKept_refl d

theorem sizesKept_event {seq : Fld} {fs : List Fld} (hs : sizeApart seq) (hfs : ∀ f ∈ fs, sizeApart f) (code : Nat) (d : Dev) :
    SizesKept d (event code seq fs d) := by
  unfold event
  refine ((sizesKept_put seq hs _ d).trans (sizesKept_puts _ _ fun f hf => ?_)).trans (sizesKept_raise ..)
  obtain ⟨g, hg, rfl⟩ := List.mem_map.mp hf
  exact hfs g hg

theorem sizesKept_each {α : Type} {F : α → Dev → Dev} {xs : List α} (h : ∀ x ∈ xs, ∀ d, SizesKept d (F x d)) (d : Dev) : SizesKept d (each F xs d) :=
  ⟨fun i => get_each (fun x hx d => (h x hx d).kept i) d⟩

theorem sizesKept_perfOne {base n : Nat} (hb : base < 0x1a00000) (hn : n < 8) (blk code k : Nat) (d : Dev) : SizesKept d (perfOne blk base code k n d) := by
  have hapart {a lo w : Nat} (ha : a < 0x1b00000) (hlo : lo < 64) : sizeApart ⟨a, lo, w⟩ := .inr (by simp only [Fld.key]; omega)
  have hovf : sizeApart (R.PERF.OVF.CNT_OVF base) := hapart (by omega) (by decide)
  have hseq : sizeApart (R.PERF.OVF.SEQ base) := hapart (by omega) (by decide)
  have hcnt := sizesKept_put (R.PERF.CNT.COUNT base n) (hapart (by omega) (by decide)) (d.get (R.PERF.CNT.COUNT base n) + k) d
  unfold perfOne
  dsimp only
  generalize put (R.PERF.CNT.COUNT base n) (d.get (R.PERF.CNT.COUNT base n) + k) d = e at hcnt ⊢
  split
  · split
    · exact hcnt
    · have hset (x : PerfS) : SizesKept e (setPerf base x e) := sizesKept_of_regs rfl
      exact ((hcnt.trans (hset _)).trans (sizesKept_event hseq (fun _ h => absurd h List.not_mem_nil) ..)).trans (sizesKept_put _ hovf ..)
  · exact sizesKept_refl d

theorem sizesKept_perf {base : Nat} (hb : base < 0x1a00000) (blk code k : Nat) (d : Dev) : SizesKept d (perf blk base code k d) := by
  unfold perf
  split
  · exact sizesKept_refl d
  · exact sizesKept_each (fun n hn d => sizesKept_perfOne hb (List.mem_range.mp hn) blk code k d) d

theorem sizesKept_when {c : Bool} {F : Dev → Dev} {d : Dev} (h : SizesKept d (F d)) : SizesKept d (when c F d) := by
  cases c with
  | true => exact h
  | false => exact sizesKept_refl d

theorem sizesKept_snapTrigger (src : Nat) (d : Dev) : SizesKept d (snapTrigger src d) := by
  have hput := sizesKept_put R.SNP.STATUS.STATE (.inl (by decide)) 2 d
  have hset (x : SnapS) (e : Dev) : SizesKept e { e with snap := x } := sizesKept_of_regs rfl
  unfold snapTrigger
  dsimp only
  split
  · split
    · exact hput.trans (hset _ _)
    · split
      · exact hset _ _
      · exact sizesKept_put R.SNP.ID.DROPPED (.inl (by decide)) ..
  · exact sizesKept_refl d

theorem sizesKept_recTrigger (d : Dev) : SizesKept d (recTrigger d) := by
  have hdrop : ∀ f ∈ [R.CMP.STATUS.TRIG_DROP], sizeApart f := by
    simp only [List.mem_singleton, forall_eq]
    exact .inl (by decide)
  unfold recTrigger
  split
  · exact ((sizesKept_put R.CMP.REC_TDT.DT (.inl (by decide)) _ d).trans (sizesKept_put R.CMP.STATUS.STATE (.inl (by decide)) 2 _)).trans
      (sizesKept_put (R.CMP.STAT.COUNT 5) (.inl (by decide)) ..)
  · split
    · exact sizesKept_refl d
    · exact (sizesKept_event (seq := R.CMP.STATUS.SEQ) (.inl (by decide)) hdrop 0x15 d).trans (sizesKept_put (R.CMP.STAT.COUNT 6) (.inl (by decide)) ..)

theorem sizesKept_errEvent (b : Nat) (d : Dev) : SizesKept d (errEvent b d) :=
  (sizesKept_when (sizesKept_snapTrigger 3 d)).trans (sizesKept_when (sizesKept_recTrigger _))

/-! ## Steps of a verdict -/

/-- The device with another verdict unit and another snapshot. -/
def withFired (x : VrdS × SnapS) (d : Dev) : Dev := { d with vrd := x.1, snap := x.2 }

theorem setsPart_withFired : SetsPart withFired := fun _ _ => ⟨rfl, rfl⟩

/-- From `d` to `e` only these registers, the books, the verdict unit's state and the snapshot's have changed, and no region's size. -/
structure FireStep (fs : List Fld) (d e : Dev) : Prop where
  upto : Upto withFired fs d e
  sizes : SizesKept d e

section
variable {fs gs : List Fld} {d e g : Dev}

theorem fireStep_refl (fs : List Fld) (d : Dev) : FireStep fs d d := ⟨upto_refl .., sizesKept_refl d⟩

theorem FireStep.trans (h : FireStep fs d e) (h' : FireStep gs e g) : FireStep (fs ++ gs) d g := ⟨h.upto.trans h'.upto, h.sizes.trans h'.sizes⟩

theorem FireStep.mono (h : FireStep fs d e) (hs : ∀ f ∈ fs, f ∈ gs) : FireStep gs d e :=
  ⟨h.upto.mono fun f hf => List.mem_map_of_mem (hs f hf), h.sizes⟩

theorem FireStep.get (h : FireStep fs d e) {f : Fld} (hb : bookKey f.key = false) (hf : f.key ∉ fs.map Fld.key) : e.get f = d.get f :=
  (h.upto.leaves (d.vrd, d.snap)).get hb hf

theorem FireStep.same (h : FireStep fs d e) : e.free = d.free ∧ e.objQ = d.objQ ∧ e.rtHold = d.rtHold ∧ e.tim = d.tim := by
  have hl := h.upto.leaves ({}, d.snap)
  have hf : (withFired ({}, d.snap) e).free = (withFired ({}, d.snap) d).free := free_of_leaves hl
  have hq : (withFired ({}, d.snap) e).objQ = (withFired ({}, d.snap) d).objQ := objQ_of_leaves hl
  have hr : (withFired ({}, d.snap) e).rtHold = (withFired ({}, d.snap) d).rtHold := rtHold_of_leaves hl
  have ht : (withFired ({}, d.snap) e).tim = (withFired ({}, d.snap) d).tim := tim_of_leaves hl
  exact ⟨hf, hq, hr, ht⟩

theorem fireStep_of_leaves (h : Leaves fs d e) (hs : SizesKept d e) : FireStep fs d e := ⟨upto_of_leaves setsPart_withFired h, hs⟩

theorem fireStep_of_eq (hr : e.regs = d.regs) (h : ∀ x, withFired x e = withFired x d) : FireStep [] d e := ⟨upto_of_eq h, sizesKept_of_regs hr⟩

theorem fireStep_when {c : Bool} {F : Dev → Dev} (h : FireStep fs d (F d)) : FireStep fs d (when c F d) := ⟨upto_when c h.upto, sizesKept_when h.sizes⟩

end

theorem fireStep_vrdPerf (code n : Nat) (d : Dev) : FireStep [] d (vrdPerf code n d) :=
  fireStep_of_leaves (leaves_vrdPerf code n d) (sizesKept_perf (base := 0x1800000) (by decide) 0x10 code n d)

theorem fireStep_vrdStat {c : Nat} (hc : c < 16) (n : Nat) (d : Dev) : FireStep [R.VRD.STAT.COUNT c] d (vrdStat c n d) :=
  fireStep_of_leaves (leaves_vrdStat c n d) (sizesKept_put (R.VRD.STAT.COUNT c) (.inr (by simp only [Fld.key, R.VRD.STAT.COUNT]; omega)) ..)

theorem fireStep_event {f : Fld} (hf : f.addr = R.VRD.STATUS.SEQ.addr) (hlo : f.lo < 64) (d : Dev) :
    FireStep [R.VRD.STATUS.SEQ, f] d (event 0x10 R.VRD.STATUS.SEQ [f] d) := by
  have hapart : sizeApart f := .inr (by simp only [Fld.key, hf, R.VRD.STATUS.SEQ]; omega)
  exact fireStep_of_leaves (leaves_event ..) (sizesKept_event (seq := R.VRD.STATUS.SEQ) (fs := [f]) (.inr (by decide)) (by simpa using hapart) ..)

/-- The counters and flags of a fire command. -/
def cmdRegs : List Fld :=
  [R.VRD.STAT.COUNT 10, R.VRD.STAT.COUNT 11, R.VRD.STAT.COUNT 12, R.VRD.STAT.COUNT 13, R.VRD.STATUS.SEQ, R.VRD.STATUS.MISSED, R.VRD.STATUS.CMD_FULL] ++ errFlds

theorem fireStep_cmdMissed (d : Dev) : FireStep cmdRegs d (cmdMissed d) := by
  have h := fireStep_event (f := R.VRD.STATUS.MISSED) rfl (by decide) d
  unfold cmdMissed
  generalize event 0x10 R.VRD.STATUS.SEQ [R.VRD.STATUS.MISSED] d = e at h ⊢
  exact ((h.trans (fireStep_vrdStat (c := 13) (by decide) 1 e)).trans (fireStep_vrdPerf ..)).mono (by simp [cmdRegs])

theorem fireStep_fireLate (d : Dev) : FireStep cmdRegs d (fireLate d) := by
  have h := (fireStep_vrdStat (c := 12) (by decide) 1 d).trans (fireStep_vrdPerf 4 1 _)
  unfold fireLate
  generalize vrdPerf 4 1 (vrdStat 12 1 d) = e at h ⊢
  have herr : FireStep errFlds e (errEvent 6 e) := by
    refine ⟨⟨fun x => ?_⟩, sizesKept_errEvent 6 e⟩
    exact leaves_map (fun d => ({ d with vrd := x.1 } : Dev)) (fun _ => rfl) (fun _ => rfl) ((errEvent_upto 6 e).leaves x.2)
  exact (h.trans herr).mono (by
    simp only [cmdRegs, List.mem_append]
    intro f hf
    rcases hf with (hf | hf) | hf
    · left; simp only [List.mem_singleton] at hf; simp [hf]
    · cases hf
    · exact .inr hf)

/-- A command has entered the pending table. -/
def cmdEntered (c : FireCmd) (d : Dev) : Dev := vrdPerf 3 1 (vrdStat 10 1 (enterCmd c d))

theorem fireStep_cmdEntered (c : FireCmd) (d : Dev) : FireStep [R.VRD.STAT.COUNT 10] d (cmdEntered c d) := by
  have h : FireStep [] d (enterCmd c d) := by
    unfold enterCmd
    dsimp only
    exact fireStep_of_eq rfl fun _ => rfl
  unfold cmdEntered
  generalize enterCmd c d = e at h ⊢
  exact (h.trans (fireStep_vrdStat (c := 10) (by decide) 1 e)).trans (fireStep_vrdPerf ..)

/-- A command that finds the pending table full is counted. -/
def cmdFull (d : Dev) : Dev := vrdStat 11 1 (event 0x10 R.VRD.STATUS.SEQ [R.VRD.STATUS.CMD_FULL] d)

theorem fireStep_cmdFull (d : Dev) : FireStep cmdRegs d (cmdFull d) := by
  have h := fireStep_event (f := R.VRD.STATUS.CMD_FULL) rfl (by decide) d
  unfold cmdFull
  generalize event 0x10 R.VRD.STATUS.SEQ [R.VRD.STATUS.CMD_FULL] d = e at h ⊢
  exact (h.trans (fireStep_vrdStat (c := 11) (by decide) 1 e)).mono (by simp [cmdRegs])

/-- A command enters, and is late or not. -/
def cmdTaken (c : FireCmd) (late : Bool) (d : Dev) : Dev × Nat := if late then (fireLate (cmdEntered c d), 8) else (cmdEntered c d, 0)

theorem fireCmd_eq (c : FireCmd) (d : Dev) : fireCmd c d =
    if (d.carriers (d.lane' c.seg)).isEmpty then (cmdMissed d, 16)
    else if 16384 ≤ d.vrd.pend.length then (cmdFull d, 16)
    else if d.until' c.time < (d.get R.VRD.RETX_MIN.US : Int) * 65536000 then (cmdMissed d, 16)
    else cmdTaken { c with seg := d.lane' c.seg, flags := c.flags ||| (if decide (d.until' c.time < (d.get R.VRD.LEAD.US : Int) * 65536000) then 2 else 0) }
      (decide (d.until' c.time < (d.get R.VRD.LEAD.US : Int) * 65536000)) d := rfl

theorem fireStep_ite {fs : List Fld} {d : Dev} {p : Prop} [Decidable p] {a b : Dev × Nat} (ha : FireStep fs d a.1) (hb : FireStep fs d b.1) :
    FireStep fs d (if p then a else b).1 := by
  split
  · exact ha
  · exact hb

theorem fireStep_cmdTaken (c : FireCmd) (late : Bool) (d : Dev) : FireStep cmdRegs d (cmdTaken c late d).1 := by
  have he : FireStep cmdRegs d (cmdEntered c d) := (fireStep_cmdEntered c d).mono (by simp [cmdRegs])
  unfold cmdTaken
  generalize cmdEntered c d = e at he ⊢
  have hlate := fireStep_fireLate e
  generalize fireLate e = k at hlate ⊢
  exact fireStep_ite ((he.trans hlate).mono fun f hf => (List.mem_append.mp hf).elim id id) he

theorem fireStep_fireCmd (c : FireCmd) (d : Dev) : FireStep cmdRegs d (fireCmd c d).1 := by
  rw [fireCmd_eq]
  have hmissed := fireStep_cmdMissed d
  have hfull := fireStep_cmdFull d
  generalize cmdMissed d = m at hmissed ⊢
  generalize cmdFull d = q at hfull ⊢
  exact fireStep_ite hmissed (fireStep_ite hfull (fireStep_ite hmissed (fireStep_cmdTaken ..)))

/-! ## Pulses -/

/-- The counter and the pin levels that pulses change. -/
def pinRegs : List Fld := R.VRD.STAT.COUNT 14 :: (List.range 16).map R.VRD.FO_STATUS.LEVEL

/-- Pulses enter the pins' queues: the pending table stays. -/
structure PulseStep (d e : Dev) : Prop where
  fire : FireStep pinRegs d e
  pend : e.vrd.pend = d.vrd.pend

theorem pulseStep_refl (d : Dev) : PulseStep d d := ⟨fireStep_refl .., rfl⟩

theorem PulseStep.trans {d e g : Dev} (h : PulseStep d e) (h' : PulseStep e g) : PulseStep d g :=
  ⟨(h.fire.trans h'.fire).mono (by simp), h'.pend.trans h.pend⟩

theorem pulseStep_dropped (d : Dev) : PulseStep d (vrdStat 14 1 d) := ⟨(fireStep_vrdStat (by decide) 1 d).mono (by simp [pinRegs]), rfl⟩

theorem pulseStep_setPinQ {i : Nat} (hi : i < 16) (q : List Pulse) (d : Dev) : PulseStep d (setPinQ i q d) := by
  have h1 : FireStep [] d { d with vrd := { d.vrd with pins := KMap.put (fun _ => []) d.vrd.pins i q } } := fireStep_of_eq rfl fun _ => rfl
  have h2 := h1.trans (fireStep_of_leaves (leaves_put (R.VRD.FO_STATUS.LEVEL i) q.length _)
    (sizesKept_put (R.VRD.FO_STATUS.LEVEL i) (.inr (by simp only [Fld.key, R.VRD.FO_STATUS.LEVEL]; omega)) ..))
  refine ⟨h2.mono fun f hf => ?_, rfl⟩
  rw [List.nil_append, List.mem_singleton] at hf
  exact List.mem_cons_of_mem _ (List.mem_map.mpr ⟨i, List.mem_range.mpr hi, hf.symm⟩)

theorem pulseStep_pulseIn {i : Nat} (hi : i < 16) (p : Pulse) (d : Dev) : PulseStep d (pulseIn i p d).1 := by
  unfold pulseIn
  dsimp only
  split
  · exact pulseStep_dropped d
  · exact pulseStep_setPinQ hi _ d

theorem pulseStep_viewMarker (o : ObjRec) (v : Nat) {i : Nat} (hi : i < 16) (d : Dev) : PulseStep d (viewMarker o v i d).1 := by
  have hperf (d : Dev) : PulseStep d (vrdPerf 0xa 1 d) := ⟨(fireStep_vrdPerf 0xa 1 d).mono (by simp), congrArg VrdS.pend (vrd_of_leaves (leaves_vrdPerf 0xa 1 d))⟩
  have hout {r : Dev × Nat} (h : PulseStep d r.1) : PulseStep d (if r.2 = 0 then vrdPerf 0xa 1 r.1 else r.1) := by
    split
    · exact h.trans (hperf _)
    · exact h
  unfold viewMarker
  split
  · dsimp only
    split
    · split
      · exact hout (pulseStep_dropped d)
      · exact hout (pulseStep_pulseIn hi _ d)
    · exact hout (pulseStep_pulseIn hi _ d)
  · exact pulseStep_refl d

theorem pulseStep_markers (o : ObjRec) (v : Nat) {is : List Nat} (hi : ∀ i ∈ is, i < 16) (d : Dev) (fl : Nat) :
    PulseStep d (eachFlag (viewMarker o v) is d fl).1 := by
  induction is generalizing d fl with
  | nil => exact pulseStep_refl d
  | cons i is ih =>
    exact (pulseStep_viewMarker o v (hi i List.mem_cons_self) d).trans (ih (fun j hj => hi j (List.mem_cons_of_mem _ hj)) _ _)

/-- What the commands and pulses of a verdict change. -/
def fireRegs : List Fld := cmdRegs ++ pinRegs

theorem PulseStep.fires {d e : Dev} (h : PulseStep d e) : FireStep fireRegs d e := h.fire.mono fun _ hf => List.mem_append_right _ hf

theorem fireStep_fireValve (o : ObjRec) (dur : Nat) (v : Valve × Int) (d : Dev) : FireStep fireRegs d (fireValve o dur v d).1 := by
  unfold fireValve
  dsimp only
  split
  · split
    · next h => exact (pulseStep_pulseIn h.1 _ d).fires
    · exact fireStep_refl ..
  · exact (fireStep_fireCmd _ d).mono fun f hf => List.mem_append_left _ hf

theorem fireStep_valves (o : ObjRec) (dur : Nat) (set : List (Valve × Int)) (d : Dev) (fl : Nat) : FireStep fireRegs d (eachFlag (fireValve o dur) set d fl).1 := by
  induction set generalizing d fl with
  | nil => exact fireStep_refl ..
  | cons v set ih => exact ((fireStep_fireValve o dur v d).trans (ih _ _)).mono (by simp)

end Sys2Proof.Proofs
end

section
/-!
A verdict: what it counts, the commands and pulses it sends, and the rings (R321, R326 to R328, R289).
-/
namespace Sys2Proof.Proofs
open Sys2Proof Sys2Proof.Machine

/-! ## The counters of the verdict unit -/

theorem vrdCount_book {c : Nat} (hc : c < 16) : bookKey (R.VRD.STAT.COUNT c).key = false := bookKey_area (by simp only [Fld.key, R.VRD.STAT.COUNT]; omega)

theorem vrdCount_ne {b c : Nat} (h : b ≠ c) : (R.VRD.STAT.COUNT b).key ≠ (R.VRD.STAT.COUNT c).key := by
  simp only [Fld.key, R.VRD.STAT.COUNT]
  omega

theorem counted_vrdStat (c n : Nat) (d : Dev) : Counted (R.VRD.STAT.COUNT c) n d (vrdStat c n d) := get_put_self ..

/-- What is counted of how a fire time came about. -/
def howCounted (clipped : Bool) (how : How) (d : Dev) : Dev :=
  let d := when clipped (vrdStat 7 1) d
  let d := when (how = .ballistic) (fun d => vrdPerf 6 1 (vrdStat 8 1 d)) d
  when (how = .fallback) (fun d => vrdPerf 7 1 (vrdStat 9 1 d)) d

theorem howCounted_facts (clipped : Bool) (how : How) (d : Dev) :
    Leaves [R.VRD.STAT.COUNT 7, R.VRD.STAT.COUNT 8, R.VRD.STAT.COUNT 9] d (howCounted clipped how d) ∧ SizesKept d (howCounted clipped how d) := by
  have hpair {c : Nat} (hc : c < 16) (code : Nat) (d : Dev) : Leaves [R.VRD.STAT.COUNT c] d (vrdPerf code 1 (vrdStat c 1 d)) ∧
      SizesKept d (vrdPerf code 1 (vrdStat c 1 d)) :=
    ⟨(leaves_vrdStat c 1 d).trans (leaves_vrdPerf code 1 _), (fireStep_vrdStat hc 1 d).sizes.trans (fireStep_vrdPerf code 1 _).sizes⟩
  unfold howCounted
  dsimp only
  have h7 : Leaves [R.VRD.STAT.COUNT 7] d (when clipped (vrdStat 7 1) d) ∧ SizesKept d (when clipped (vrdStat 7 1) d) :=
    ⟨leaves_when _ _ _ (leaves_vrdStat 7 1 d), sizesKept_when (fireStep_vrdStat (by decide) 1 d).sizes⟩
  generalize when clipped (vrdStat 7 1) d = e at h7 ⊢
  have h8 := hpair (c := 8) (by decide) 6 e
  have hw8 : Leaves [R.VRD.STAT.COUNT 8] e (when (how = .ballistic) (fun d => vrdPerf 6 1 (vrdStat 8 1 d)) e) ∧
      SizesKept e (when (how = .ballistic) (fun d => vrdPerf 6 1 (vrdStat 8 1 d)) e) := ⟨leaves_when _ _ _ h8.1, sizesKept_when h8.2⟩
  generalize when (how = .ballistic) (fun d => vrdPerf 6 1 (vrdStat 8 1 d)) e = k at hw8 ⊢
  have h9 := hpair (c := 9) (by decide) 7 k
  exact ⟨(h7.1.trans hw8.1).trans (leaves_when _ _ _ h9.1), (h7.2.trans hw8.2).trans (sizesKept_when h9.2)⟩

/-- What a verdict counts before its effects. -/
def verdictCounted (v skips : Nat) (noValve clipped : Bool) (how : How) (d : Dev) : Dev :=
  let d := vrdPerf 1 1 (vrdStat (1 + v) 1 (vrdStat 0 1 (vrdStat 5 skips d)))
  let d := when (v == 1 || v == 2) (vrdPerf 2 1) d
  let d := when noValve (vrdStat 6 1) d
  howCounted clipped how d

/-- The counters of verdicts. -/
def verdictRegs : List Fld := (List.range 10).map R.VRD.STAT.COUNT

theorem verdictCounted_facts {v : Nat} (hv : v < 4) (skips : Nat) (noValve clipped : Bool) (how : How) (d : Dev) :
    Leaves verdictRegs d (verdictCounted v skips noValve clipped how d) ∧ SizesKept d (verdictCounted v skips noValve clipped how d) ∧
    Counted (R.VRD.STAT.COUNT 0) 1 d (verdictCounted v skips noValve clipped how d) ∧
    Counted (R.VRD.STAT.COUNT (1 + v)) 1 d (verdictCounted v skips noValve clipped how d) ∧
    (noValve = true → Counted (R.VRD.STAT.COUNT 6) 1 d (verdictCounted v skips noValve clipped how d)) := by
  unfold verdictCounted
  dsimp only
  have l5 := leaves_vrdStat 5 skips d
  have s5 := (fireStep_vrdStat (c := 5) (by decide) skips d).sizes
  generalize vrdStat 5 skips d = d5 at l5 s5 ⊢
  have l0 := leaves_vrdStat 0 1 d5
  have s0 := (fireStep_vrdStat (c := 0) (by decide) 1 d5).sizes
  have c0 := counted_vrdStat 0 1 d5
  generalize vrdStat 0 1 d5 = d0 at l0 s0 c0 ⊢
  have l1 := leaves_vrdStat (1 + v) 1 d0
  have s1 := (fireStep_vrdStat (c := 1 + v) (by omega) 1 d0).sizes
  have c1 := counted_vrdStat (1 + v) 1 d0
  generalize vrdStat (1 + v) 1 d0 = d1 at l1 s1 c1 ⊢
  have lp := leaves_vrdPerf 1 1 d1
  have sp := (fireStep_vrdPerf 1 1 d1).sizes
  generalize vrdPerf 1 1 d1 = d2 at lp sp ⊢
  have lr : Leaves [] d2 (when (v == 1 || v == 2) (vrdPerf 2 1) d2) := leaves_when _ _ _ (leaves_vrdPerf 2 1 d2)
  have sr : SizesKept d2 (when (v == 1 || v == 2) (vrdPerf 2 1) d2) := sizesKept_when (fireStep_vrdPerf 2 1 d2).sizes
  generalize when (v == 1 || v == 2) (vrdPerf 2 1) d2 = d3 at lr sr ⊢
  have l6 : Leaves [R.VRD.STAT.COUNT 6] d3 (when noValve (vrdStat 6 1) d3) := leaves_when _ _ _ (leaves_vrdStat 6 1 d3)
  have s6 : SizesKept d3 (when noValve (vrdStat 6 1) d3) := sizesKept_when (fireStep_vrdStat (by decide) 1 d3).sizes
  have c6 : noValve = true → Counted (R.VRD.STAT.COUNT 6) 1 d3 (when noValve (vrdStat 6 1) d3) := by
    intro h
    rw [h]
    exact counted_vrdStat 6 1 d3
  generalize when noValve (vrdStat 6 1) d3 = d6 at l6 s6 c6 ⊢
  obtain ⟨lh, sh⟩ := howCounted_facts clipped how d6
  generalize howCounted clipped how d6 = e at lh sh ⊢
  have hb {c : Nat} (hc : c < 16) := vrdCount_book hc
  have hne {b c : Nat} (h : b ≠ c) : (R.VRD.STAT.COUNT b).key ∉ [R.VRD.STAT.COUNT c].map Fld.key := by simpa using vrdCount_ne h
  have hne3 {c : Nat} (h : c < 7) : (R.VRD.STAT.COUNT c).key ∉ [R.VRD.STAT.COUNT 7, R.VRD.STAT.COUNT 8, R.VRD.STAT.COUNT 9].map Fld.key := by
    simp only [List.map_cons, List.map_nil, List.mem_cons, List.not_mem_nil, or_false, not_or]
    exact ⟨vrdCount_ne (by omega), vrdCount_ne (by omega), vrdCount_ne (by omega)⟩
  have htail {c : Nat} (hc : c < 6) : e.get (R.VRD.STAT.COUNT c) = d1.get (R.VRD.STAT.COUNT c) := by
    rw [lh.get (hb (by omega)) (hne3 (by omega)), l6.get (hb (by omega)) (hne (by omega)), lr.get (hb (by omega)) (by simp), lp.get (hb (by omega)) (by simp)]
  refine ⟨?_, ?_, ?_, ?_, ?_⟩
  · refine ((((((l5.trans l0).trans l1).trans lp).trans lr).trans l6).trans lh).mono fun f hf => List.mem_map_of_mem ?_
    simp only [List.mem_append, List.mem_cons, List.not_mem_nil, or_false] at hf
    have hmem {c : Nat} (hc : c < 10) : R.VRD.STAT.COUNT c ∈ verdictRegs := List.mem_map_of_mem (List.mem_range.mpr hc)
    rcases hf with ((((rfl | rfl) | rfl)) | rfl) | rfl | rfl | rfl
    · exact hmem (by omega)
    · exact hmem (by omega)
    · exact hmem (by omega)
    · exact hmem (by omega)
    · exact hmem (by omega)
    · exact hmem (by omega)
    · exact hmem (by omega)
  · exact (((((s5.trans s0).trans s1).trans sp).trans sr).trans s6).trans sh
  · exact counted_of_get c0 (l5.get (hb (by decide)) (hne (by decide))) ((htail (by decide)).trans (l1.get (hb (by decide)) (hne (by omega))))
  · exact counted_of_get c1 ((l0.get (hb (by omega)) (hne (by omega))).trans (l5.get (hb (by omega)) (hne (by omega)))) (htail (by omega))
  · intro h
    refine counted_of_get (c6 h) ?_ (lh.get (hb (by decide)) (hne3 (by decide)))
    rw [lr.get (hb (by decide)) (by simp), lp.get (hb (by decide)) (by simp), l1.get (hb (by decide)) (hne (by omega)), l0.get (hb (by decide)) (hne (by decide)),
      l5.get (hb (by decide)) (hne (by decide))]

/-! ## The rings -/

/-- A ring takes or drops an entry: no register but these and the books changes, and the verdict unit, the records that wait and the free values stay. -/
structure RingStep (fs : List Fld) (d e : Dev) : Prop where
  get : ∀ f : Fld, bookKey f.key = false → f.key ∉ fs.map Fld.key → e.get f = d.get f
  vrd : e.vrd = d.vrd
  objQ : e.objQ = d.objQ
  free : e.free = d.free

theorem ringStep_of_leaves {fs : List Fld} {d e : Dev} (h : Leaves fs d e) : RingStep fs d e :=
  ⟨fun _ hb hf => h.get hb hf, vrd_of_leaves h, objQ_of_leaves h, free_of_leaves h⟩

theorem RingStep.trans {fs gs : List Fld} {d e g : Dev} (h : RingStep fs d e) (h' : RingStep gs e g) : RingStep (fs ++ gs) d g :=
  ⟨fun f hb hf => by
    rw [List.map_append, List.mem_append, not_or] at hf
    exact (h'.get f hb hf.2).trans (h.get f hb hf.1), h'.vrd.trans h.vrd, h'.objQ.trans h.objQ, h'.free.trans h.free⟩

theorem RingStep.mono {fs gs : List Fld} {d e : Dev} (h : RingStep fs d e) (hs : ∀ f ∈ fs, f ∈ gs) : RingStep gs d e :=
  ⟨fun f hb hf => h.get f hb fun hm => hf (by
    obtain ⟨g, hg, heq⟩ := List.mem_map.mp hm
    exact List.mem_map.mpr ⟨g, hs g hg, heq⟩), h.vrd, h.objQ, h.free⟩

theorem ringStep_dramWrite (a : Nat) (bs : List Byte) (d : Dev) : RingStep [] d (dramWrite a bs d) := by
  rw [dramWrite_eq]
  exact ⟨fun _ _ _ => rfl, rfl, rfl, rfl⟩

theorem objRing_facts (o : ObjRec) (room : Bool) (d : Dev) :
    RingStep [R.MRG.ORING_WR.COUNT, R.MRG.STATUS.SEQ, R.MRG.STATUS.ORING_DROP, R.MRG.ORING_DROP.COUNT] d (objRing o room d) ∧
    (bit (d.get R.MRG.ORING_CTL.VMASK) (o.verdict % 4) = true → room = true → d.ringOk (d.get R.MRG.ORING_CTL.RGN) = true →
      Counted R.MRG.ORING_WR.COUNT 1 d (objRing o room d)) := by
  have hput (a slotNo : Nat) : RingStep [R.MRG.ORING_WR.COUNT] d (meterUser 2 128 (ringStamp 0 slotNo (put R.MRG.ORING_WR.COUNT (d.get R.MRG.ORING_WR.COUNT + 1)
        (dramWrite a (objBytes o) d)))) ∧
      Counted R.MRG.ORING_WR.COUNT 1 d (meterUser 2 128 (ringStamp 0 slotNo (put R.MRG.ORING_WR.COUNT (d.get R.MRG.ORING_WR.COUNT + 1) (dramWrite a (objBytes o) d)))) := by
    have hw := ringStep_dramWrite a (objBytes o) d
    generalize dramWrite a (objBytes o) d = e at hw ⊢
    have hp := ringStep_of_leaves (leaves_put R.MRG.ORING_WR.COUNT (d.get R.MRG.ORING_WR.COUNT + 1) e)
    have hval : (put R.MRG.ORING_WR.COUNT (d.get R.MRG.ORING_WR.COUNT + 1) e).get R.MRG.ORING_WR.COUNT = (d.get R.MRG.ORING_WR.COUNT + 1) % 2 ^ 32 := get_put_self ..
    generalize put R.MRG.ORING_WR.COUNT (d.get R.MRG.ORING_WR.COUNT + 1) e = k at hp hval ⊢
    have hs : RingStep [] k (meterUser 2 128 (ringStamp 0 slotNo k)) := ⟨fun _ _ _ => rfl, rfl, rfl, rfl⟩
    exact ⟨(hw.trans hp).trans hs, hval⟩
  have hdrop : RingStep [R.MRG.STATUS.SEQ, R.MRG.STATUS.ORING_DROP, R.MRG.ORING_DROP.COUNT] d
      (mrgPerf 0xe 1 (inc R.MRG.ORING_DROP.COUNT 1 (event 14 R.MRG.STATUS.SEQ [R.MRG.STATUS.ORING_DROP] d))) :=
    ringStep_of_leaves (leaves_dropShown 14 (by unfold PerfBase; decide) ..)
  unfold objRing
  dsimp only
  split
  · next h => exact ⟨(ringStep_of_leaves (Leaves.refl d)).mono (by simp), fun hb => by rw [hb] at h; cases h⟩
  · split
    · exact ⟨(hput _ _).1.mono (by simp), fun _ _ _ => (hput _ _).2⟩
    · next h => exact ⟨hdrop.mono (by simp), fun _ hr hok => absurd (by rw [hr, hok]; rfl) h⟩

theorem tagRing_step (v : Nat) (bs : List Byte) (room : Bool) (d : Dev) :
    RingStep [R.VRD.TAG_WR.COUNT, R.VRD.STATUS.SEQ, R.VRD.STATUS.TAG_DROP, R.VRD.TAG_DROP.COUNT] d (tagRing v bs room d) := by
  have hput (a slotNo k : Nat) : RingStep [R.VRD.TAG_WR.COUNT] d (meterUser 2 32 (ringStamp 1 slotNo (vrdPerf 8 1 (put R.VRD.TAG_WR.COUNT k (dramWrite a bs d))))) := by
    have hw := ringStep_dramWrite a bs d
    generalize dramWrite a bs d = e at hw ⊢
    have hp := ringStep_of_leaves ((leaves_put R.VRD.TAG_WR.COUNT k e).trans (leaves_vrdPerf 8 1 _))
    generalize vrdPerf 8 1 (put R.VRD.TAG_WR.COUNT k e) = q at hp ⊢
    have hs : RingStep [] q (meterUser 2 32 (ringStamp 1 slotNo q)) := ⟨fun _ _ _ => rfl, rfl, rfl, rfl⟩
    exact (hw.trans hp).trans hs
  have hdrop : RingStep [R.VRD.STATUS.SEQ, R.VRD.STATUS.TAG_DROP, R.VRD.TAG_DROP.COUNT] d
      (vrdPerf 9 1 (inc R.VRD.TAG_DROP.COUNT 1 (event 0x10 R.VRD.STATUS.SEQ [R.VRD.STATUS.TAG_DROP] d))) :=
    ringStep_of_leaves (leaves_dropShown 0x10 (base := 0x1800000) (by unfold PerfBase; decide) ..)
  unfold tagRing
  dsimp only
  split
  · exact (ringStep_of_leaves (Leaves.refl d)).mono (by simp)
  · split
    · exact (hput _ _ _).mono (by simp)
    · exact hdrop.mono (by simp)

end Sys2Proof.Proofs
end

section
/-!
Clauses of VERDICT (R321 to R338).
-/
namespace Sys2Proof.Proofs
open Sys2Proof Sys2Proof.Machine

/-- The commands and pulses of a verdict have gone out. -/
def verdictFired (o : ObjRec) (v : Nat) (set : List (Valve × Int)) (d : Dev) : Dev × Nat :=
  let r := eachFlag (fireValve o (d.fireDur o)) set d 0
  eachFlag (viewMarker o v) (List.range 16) r.1 r.2

/-- The oldest record is taken, with one free value. -/
def objTaken (rest : List ObjRec) (d : Dev) : Dev := takeFree { d with objQ := rest }

/-- A reject without a valve. -/
def noValve (vb : Nat) (set : List (Valve × Int)) : Bool := (vb % 4 == 1 || vb % 4 == 2) && set.isEmpty

theorem verdict_eq {objRoom tagRoom : Bool} {o : ObjRec} {rest : List ObjRec} {vb skips : Nat} {set : List (Valve × Int)} {clipped : Bool} {how : How} {d : Dev}
    (hq : d.objQ = o :: rest) (hon : d.on R.VRD.CTL.EN = true) (hj : ({ d with objQ := rest } : Dev).judge' o d.fresh = .ok (vb, skips, set, clipped, how)) :
    ∃ tag, verdict objRoom tagRoom d = .next (tagRing (vb % 4) tag tagRoom (objRing { o with verdict := vb } objRoom
      (verdictFired { o with verdict := vb } (vb % 4) set (verdictCounted (vb % 4) skips (noValve vb set) clipped how (objTaken rest d))).1)) := by
  have hon' : ({ d with objQ := rest } : Dev).on R.VRD.CTL.EN = true := hon
  have hj' : ({ d with objQ := rest } : Dev).judge' o ({ d with objQ := rest } : Dev).fresh = .ok (vb, skips, set, clipped, how) := hj
  unfold verdict
  rw [hq]
  dsimp only
  rw [hon', hj']
  exact ⟨_, rfl⟩

/-- The registers that a verdict writes before its rings. -/
def judgedRegs : List Fld := verdictRegs ++ fireRegs

theorem fireStep_verdictFired (o : ObjRec) (v : Nat) (set : List (Valve × Int)) (d : Dev) : FireStep fireRegs d (verdictFired o v set d).1 := by
  have hv := fireStep_valves o (d.fireDur o) set d 0
  unfold verdictFired
  dsimp only
  generalize eachFlag (fireValve o (d.fireDur o)) set d 0 = r at hv ⊢
  have hm := (pulseStep_markers o v (is := List.range 16) (fun _ h => List.mem_range.mp h) r.1 r.2).fires
  exact (hv.trans hm).mono fun f hf => (List.mem_append.mp hf).elim id id

theorem judgedRegs_high : ∀ f ∈ judgedRegs, 0x10000 ≤ f.key / 64 := by decide +kernel

/-- A ring of owner 0x07 can be written after a verdict's counts and commands as before. -/
theorem ringOk_of_fire {d e : Dev} (h : FireStep judgedRegs d e) (rgn : Nat) : e.ringOk rgn = d.ringOk rgn := by
  have hown : ∀ n < 256, ∀ lo w, 0 < lo → lo < 64 → e.get ⟨0x1000 + 0x4 * n, lo, w⟩ = d.get ⟨0x1000 + 0x4 * n, lo, w⟩ := by
    intro n hn lo w hlo hlo'
    refine h.get (bookKey_low (by omega) hlo hlo') fun hmem => ?_
    obtain ⟨f, hf, heq⟩ := List.mem_map.mp hmem
    have hhigh := judgedRegs_high f hf
    rw [heq] at hhigh
    simp only [Fld.key] at hhigh
    omega
  have hsize : (e.region rgn).2 = (d.region rgn).2 := congrArg (· * 2 ^ 20) (h.sizes.kept rgn)
  rw [Dev.ringOk, hsize, mayUse_congr hown h.same.2.2.1, Dev.ringOk]

theorem verdict_completes (objRoom tagRoom : Bool) (o : ObjRec) (rest : List ObjRec) (vb skips : Nat) (set : List (Valve × Int)) (clipped : Bool) (how : How)
    (s : State) (hq : s.dev.objQ = o :: rest) (hon : s.dev.on R.VRD.CTL.EN = true)
    (hj : ({ s.dev with objQ := rest } : Dev).judge' o s.dev.fresh = .ok (vb, skips, set, clipped, how)) :
    Completes (.verdict objRoom tagRoom) s (fun t =>
      t.dev.objQ = rest ∧ Counted (R.VRD.STAT.COUNT 0) 1 s.dev t.dev ∧ Counted (R.VRD.STAT.COUNT (1 + vb % 4)) 1 s.dev t.dev ∧
      ((vb % 4 = 1 ∨ vb % 4 = 2) → set = [] → Counted (R.VRD.STAT.COUNT 6) 1 s.dev t.dev) ∧
      (objRoom = true → bit (s.dev.get R.MRG.ORING_CTL.VMASK) (vb % 4) = true → s.dev.ringOk (s.dev.get R.MRG.ORING_CTL.RGN) = true →
        Counted R.MRG.ORING_WR.COUNT 1 s.dev t.dev) ∧ t.dev.free = s.dev.free + 1) := by
  obtain ⟨tag, hdo⟩ := verdict_eq (objRoom := objRoom) (tagRoom := tagRoom) hq hon hj
  have hget (f : Fld) : (objTaken rest s.dev).get f = s.dev.get f := rfl
  have hobj : (objTaken rest s.dev).objQ = rest := rfl
  have hfree : (objTaken rest s.dev).free = s.dev.free + 1 := rfl
  have hok (rgn : Nat) : (objTaken rest s.dev).ringOk rgn = s.dev.ringOk rgn := rfl
  generalize objTaken rest s.dev = d0 at *
  obtain ⟨hl, hs, c0, c1, c6⟩ := verdictCounted_facts (v := vb % 4) (Nat.mod_lt _ (by decide)) skips (noValve vb set) clipped how d0
  generalize verdictCounted (vb % 4) skips (noValve vb set) clipped how d0 = d1 at *
  have hfire := fireStep_verdictFired { o with verdict := vb } (vb % 4) set d1
  generalize verdictFired { o with verdict := vb } (vb % 4) set d1 = r at *
  have hjudged : FireStep judgedRegs d0 r.1 := (fireStep_of_leaves hl hs).trans hfire
  obtain ⟨hring, hcount⟩ := objRing_facts { o with verdict := vb } objRoom r.1
  generalize objRing { o with verdict := vb } objRoom r.1 = d3 at *
  have htag := tagRing_step (vb % 4) tag tagRoom d3
  refine completes_run (exec_verdict objRoom tagRoom s) hdo ?_
  generalize tagRing (vb % 4) tag tagRoom d3 = e at htag ⊢
  obtain ⟨hfr, hobj', -, -⟩ := hjudged.same
  have hrings := hring.trans htag
  have hstat {c : Nat} (hc : c < 10) : (s.after e).dev.get (R.VRD.STAT.COUNT c) = d1.get (R.VRD.STAT.COUNT c) := by
    have hb := vrdCount_book (c := c) (by omega)
    have hnot : ∀ c < 10, (R.VRD.STAT.COUNT c).key ∉ fireRegs.map Fld.key ∧ (R.VRD.STAT.COUNT c).key ∉ ([R.MRG.ORING_WR.COUNT, R.MRG.STATUS.SEQ, R.MRG.STATUS.ORING_DROP,
        R.MRG.ORING_DROP.COUNT] ++ [R.VRD.TAG_WR.COUNT, R.VRD.STATUS.SEQ, R.VRD.STATUS.TAG_DROP, R.VRD.TAG_DROP.COUNT]).map Fld.key := by decide +kernel
    exact (get_after ..).trans ((hrings.get _ hb (hnot c hc).2).trans (hfire.get hb (hnot c hc).1))
  refine ⟨?_, counted_of_get c0 (hget _) (hstat (by decide)), counted_of_get c1 (hget _) (hstat (by omega)), fun hv hset => ?_, fun hr hb hok' => ?_, ?_⟩
  · rw [after_objQ, hrings.objQ, hobj', hobj]
  · exact counted_of_get (c6 (by rcases hv with h | h <;> simp [noValve, h, hset])) (hget _) (hstat (by decide))
  · have hm : r.1.get R.MRG.ORING_CTL.VMASK = s.dev.get R.MRG.ORING_CTL.VMASK := (hjudged.get (by decide) (by decide +kernel)).trans (hget _)
    have hg : r.1.get R.MRG.ORING_CTL.RGN = s.dev.get R.MRG.ORING_CTL.RGN := (hjudged.get (by decide) (by decide +kernel)).trans (hget _)
    have hw : r.1.get R.MRG.ORING_WR.COUNT = s.dev.get R.MRG.ORING_WR.COUNT := (hjudged.get (by decide) (by decide +kernel)).trans (hget _)
    refine counted_of_get (hcount (by rw [hm]; exact hb) hr ?_) hw ((get_after ..).trans (htag.get _ (by decide) (by decide)))
    rw [hg, ringOk_of_fire hjudged, hok]
    exact hok'
  · rw [after_free, hrings.free, hfr, hfree]

theorem verdict_faults (objRoom tagRoom : Bool) (o : ObjRec) (rest : List ObjRec) (w : String) (s : State) (hq : s.dev.objQ = o :: rest)
    (hon : s.dev.on R.VRD.CTL.EN = true) (hj : ({ s.dev with objQ := rest } : Dev).judge' o s.dev.fresh = .error w) :
    exec (.verdict objRoom tagRoom) s = .fault (.hostError w) := by
  have hon' : ({ s.dev with objQ := rest } : Dev).on R.VRD.CTL.EN = true := hon
  have hj' : ({ s.dev with objQ := rest } : Dev).judge' o ({ s.dev with objQ := rest } : Dev).fresh = .error w := hj
  have hdo : verdict objRoom tagRoom s.dev = .fault (.hostError w) := by
    unfold verdict
    rw [hq]
    dsimp only
    rw [hon', hj'] <;> rfl
  exact (exec_verdict objRoom tagRoom s).trans (run_fault hdo)

theorem verdict_off (objRoom tagRoom : Bool) (o : ObjRec) (rest : List ObjRec) (s : State) (hq : s.dev.objQ = o :: rest) (hoff : s.dev.on R.VRD.CTL.EN = false) :
    Completes (.verdict objRoom tagRoom) s (fun t => t.dev.objQ = rest ∧ Frame [] { s.dev with objQ := rest } s t) := by
  have hoff' : ({ s.dev with objQ := rest } : Dev).on R.VRD.CTL.EN = false := hoff
  refine completes_run (d := { s.dev with objQ := rest }) (exec_verdict objRoom tagRoom s) ?_ ⟨rfl, frame_of_leaves (Leaves.refl _) s⟩
  unfold verdict
  rw [hq]
  dsimp only
  rw [hoff'] <;> rfl

/-! ## A verdict with one fire command -/

/-- A segment's state and its sixth counter are none of the books, whatever the segment's number. -/
theorem segKey_book {key j o : Nat} (ho : o = 0x10 ∨ o = 0x118) (h : key = (0x1a00000 + o + 0x20000 * j) * 64) : bookKey key = false := by
  have hlow : ¬ 0xf20 ≤ key / 64 % 0x1000 := by omega
  simp only [bookKey, hlow, decide_false, Bool.false_and, Bool.false_or, Fld.key, R.HST.STAT.COUNT, R.MGT.STAT.COUNT, R.MGT.LOG_WR.LSEQ,
    List.contains_eq_any_beq, List.any_cons, List.any_nil, Bool.or_eq_false_iff, beq_eq_false_iff_ne]
  refine ⟨?_, ?_, ?_, trivial⟩ <;> omega

/-- What a fire command reads is as before the verdict's counts. -/
theorem carriers_of_counted {d e : Dev} (h : Leaves verdictRegs d e) (k : Nat) : e.lane' k = d.lane' k ∧ e.carriers k = d.carriers k := by
  have hmode : e.on R.TOP.PROFILE_ACT.T1S_MODE = d.on R.TOP.PROFILE_ACT.T1S_MODE := congrArg (· == 1) (h.get (by decide) (by decide))
  have hlow : ∀ f ∈ verdictRegs, f.key / 64 < 0x1900000 := by decide
  have hstate (j : Nat) : e.get (R.T1S.SEG_STATUS.STATE j) = d.get (R.T1S.SEG_STATUS.STATE j) := by
    refine h.get ?_ fun hmem => ?_
    · exact segKey_book (j := j) (o := 0x10) (.inl rfl) (show (0x1a00010 + 0x20000 * j) * 64 + 0 = _ by omega)
    · obtain ⟨f, hf, heq⟩ := List.mem_map.mp hmem
      have := hlow f hf
      rw [heq] at this
      simp only [Fld.key, R.T1S.SEG_STATUS.STATE] at this
      omega
  constructor
  · rw [Dev.lane', hmode, Dev.lane']
  · unfold Dev.carriers
    simp only [hmode, hstate]

theorem cmdTaken_early (c : FireCmd) (d : Dev) : (cmdTaken c false d).1 = cmdEntered c d := by
  unfold cmdTaken
  generalize cmdEntered c d = e
  rw [if_neg Bool.false_ne_true]

theorem fireCmd_enters {c : FireCmd} {d : Dev} (hcar : d.carriers (d.lane' c.seg) ≠ []) (hroom : d.vrd.pend.length < 16384)
    (hmin : (d.get R.VRD.RETX_MIN.US : Int) * 65536000 ≤ d.until' c.time) (hlead : (d.get R.VRD.LEAD.US : Int) * 65536000 ≤ d.until' c.time) (hfl : c.flags = 0) :
    (fireCmd c d).1 = cmdEntered { c with seg := d.lane' c.seg } d := by
  have hlate : decide (d.until' c.time < (d.get R.VRD.LEAD.US : Int) * 65536000) = false := decide_eq_false (Int.not_lt.mpr hlead)
  have hsame : ({ c with seg := d.lane' c.seg, flags := c.flags ||| (if false = true then 2 else 0) } : FireCmd) = { c with seg := d.lane' c.seg } := by rw [hfl]; rfl
  rw [fireCmd_eq, if_neg (by simpa using hcar), if_neg (by omega), if_neg (Int.not_lt.mpr hmin), hlate, hsame, cmdTaken_early]

theorem cmdEntered_facts (c : FireCmd) (d : Dev) : (cmdEntered c d).vrd.pend = d.vrd.pend ++ [{ c with seq := (d.segS c.seg).seq }] ∧
    Counted (R.VRD.STAT.COUNT 10) 1 d (cmdEntered c d) := by
  have hpend : (enterCmd c d).vrd.pend = d.vrd.pend ++ [{ c with seq := (d.segS c.seg).seq }] := rfl
  have hget : (enterCmd c d).get (R.VRD.STAT.COUNT 10) = d.get (R.VRD.STAT.COUNT 10) := rfl
  unfold cmdEntered
  generalize enterCmd c d = e at hpend hget ⊢
  have hs := leaves_vrdStat 10 1 e
  have hc := counted_vrdStat 10 1 e
  generalize vrdStat 10 1 e = k at hs hc ⊢
  have hp := leaves_vrdPerf 3 1 k
  exact ⟨(congrArg VrdS.pend ((vrd_of_leaves hp).trans (vrd_of_leaves hs))).trans hpend, counted_of_get hc hget (hp.get (vrdCount_book (by decide)) (by simp))⟩

/-- The fire command of a valve of a set. -/
def valveCmd (o : ObjRec) (dur : Nat) (v : Valve) (delay : Int) : FireCmd :=
  { kind := 1, seg := v.seg, node := v.node, out := v.out, seq := 0, dur, time := fireAt o delay, obj := o.id, valve := v.index }

theorem verdictFired_one (o : ObjRec) (v' : Nat) {v : Valve} (hdir : v.direct = false) (delay : Int) (d : Dev) : ∃ fl,
    verdictFired o v' [(v, delay)] d = eachFlag (viewMarker o v') (List.range 16) (fireCmd (valveCmd o (d.fireDur o) v delay) d).1 fl := by
  unfold verdictFired eachFlag fireValve
  dsimp only
  rw [hdir]
  exact ⟨_, rfl⟩

theorem verdict_fires (objRoom tagRoom : Bool) (o : ObjRec) (rest : List ObjRec) (vb skips : Nat) (v : Valve) (delay : Int) (clipped : Bool) (how : How) (s : State)
    (hq : s.dev.objQ = o :: rest) (hon : s.dev.on R.VRD.CTL.EN = true)
    (hj : ({ s.dev with objQ := rest } : Dev).judge' o s.dev.fresh = .ok (vb, skips, [(v, delay)], clipped, how)) (hdir : v.direct = false)
    (hcar : s.dev.carriers (s.dev.lane' v.seg) ≠ []) (hroom : s.dev.vrd.pend.length < 16384)
    (hmin : (s.dev.get R.VRD.RETX_MIN.US : Int) * 65536000 ≤ s.dev.until' (fireAt o delay))
    (hlead : (s.dev.get R.VRD.LEAD.US : Int) * 65536000 ≤ s.dev.until' (fireAt o delay)) :
    Completes (.verdict objRoom tagRoom) s (fun t =>
      t.dev.vrd.pend = s.dev.vrd.pend ++ [{ kind := 1, seg := s.dev.lane' v.seg, node := v.node, out := v.out,
                                            seq := (s.dev.segS (s.dev.lane' v.seg)).seq, dur := s.dev.fireDur o,
                                            time := fireAt o delay, obj := o.id, valve := v.index }] ∧
      Counted (R.VRD.STAT.COUNT 10) 1 s.dev t.dev) := by
  obtain ⟨tag, hdo⟩ := verdict_eq (objRoom := objRoom) (tagRoom := tagRoom) hq hon hj
  have hget (f : Fld) : (objTaken rest s.dev).get f = s.dev.get f := rfl
  have hvrd : (objTaken rest s.dev).vrd = s.dev.vrd := rfl
  have htim : (objTaken rest s.dev).tim = s.dev.tim := rfl
  have hlane (k : Nat) : (objTaken rest s.dev).lane' k = s.dev.lane' k ∧ (objTaken rest s.dev).carriers k = s.dev.carriers k := ⟨rfl, rfl⟩
  generalize objTaken rest s.dev = d0 at *
  obtain ⟨hl, -, -⟩ := verdictCounted_facts (v := vb % 4) (Nat.mod_lt _ (by decide)) skips (noValve vb [(v, delay)]) clipped how d0
  generalize verdictCounted (vb % 4) skips (noValve vb [(v, delay)]) clipped how d0 = d1 at *
  obtain ⟨fl, hfired⟩ := verdictFired_one { o with verdict := vb } (vb % 4) hdir delay d1
  have hget1 {f : Fld} (hb : bookKey f.key = false) (hf : f.key ∉ verdictRegs.map Fld.key) : d1.get f = s.dev.get f := (hl.get hb hf).trans (hget f)
  have hdt : d1.dt = s.dev.dt := by rw [Dev.dt, tim_of_leaves hl, htim, Dev.dt]
  have hl1 (k : Nat) : d1.lane' k = s.dev.lane' k := (carriers_of_counted hl k).1.trans (hlane k).1
  have hc1 (k : Nat) : d1.carriers k = s.dev.carriers k := (carriers_of_counted hl k).2.trans (hlane k).2
  have hv1 : d1.vrd = s.dev.vrd := (vrd_of_leaves hl).trans hvrd
  have hdur : d1.fireDur { o with verdict := vb } = s.dev.fireDur o := by
    rw [Dev.fireDur, hget1 (f := R.VRD.DUR.BASE_US) (by decide) (by decide), hget1 (f := R.VRD.DUR_LINE.LINE) (by decide) (by decide)] <;> rfl
  have huntil (t : Nat) : d1.until' t = s.dev.until' t := by rw [Dev.until', hdt, Dev.until']
  have henter := fireCmd_enters (c := valveCmd { o with verdict := vb } (d1.fireDur { o with verdict := vb }) v delay) (d := d1)
    (by rw [hl1, hc1]; exact hcar) (by rw [hv1]; exact hroom)
    (by rw [hget1 (f := R.VRD.RETX_MIN.US) (by decide) (by decide), huntil]; exact hmin)
    (by rw [hget1 (f := R.VRD.LEAD.US) (by decide) (by decide), huntil]; exact hlead) rfl
  rw [henter, hl1, hdur] at hfired
  obtain ⟨hpend, hcount⟩ := cmdEntered_facts { valveCmd { o with verdict := vb } (s.dev.fireDur o) v delay with seg := s.dev.lane' v.seg } d1
  have hpend' : (cmdEntered { valveCmd { o with verdict := vb } (s.dev.fireDur o) v delay with seg := s.dev.lane' v.seg } d1).vrd.pend = _ := hpend
  rw [show (valveCmd { o with verdict := vb } (s.dev.fireDur o) v delay).seg = v.seg from rfl] at hfired
  generalize cmdEntered { valveCmd { o with verdict := vb } (s.dev.fireDur o) v delay with seg := s.dev.lane' v.seg } d1 = d2 at hfired hpend hpend' hcount
  have hmark := pulseStep_markers { o with verdict := vb } (vb % 4) (is := List.range 16) (fun _ h => List.mem_range.mp h) d2 fl
  rw [← hfired] at hmark
  generalize verdictFired { o with verdict := vb } (vb % 4) [(v, delay)] d1 = r at *
  obtain ⟨hring, -⟩ := objRing_facts { o with verdict := vb } objRoom r.1
  generalize objRing { o with verdict := vb } objRoom r.1 = d3 at *
  have hrings := hring.trans (tagRing_step (vb % 4) tag tagRoom d3)
  refine completes_run (exec_verdict objRoom tagRoom s) hdo ?_
  generalize tagRing (vb % 4) tag tagRoom d3 = e at hrings ⊢
  constructor
  · rw [after_vrd, hrings.vrd, hmark.pend, hpend, hv1]
    have hseg : d1.segS (s.dev.lane' v.seg) = s.dev.segS (s.dev.lane' v.seg) := by rw [Dev.segS, hv1, Dev.segS]
    rw [hseg]
    rfl
  · exact counted_of_get hcount (hget1 (by decide) (by decide)) ((get_after ..).trans ((hrings.get _ (by decide) (by decide)).trans
      (hmark.fire.get (by decide) (by decide +kernel))))

end Sys2Proof.Proofs
end

section
/-!
Pulses of the FIRE_OUT pins, the cancels, and the restore of the verdict unit's tables (R340, R351, R353).
-/
namespace Sys2Proof.Proofs
open Sys2Proof Sys2Proof.Machine

/-! ## Pulses -/

/-- A pin takes its active level until `stop`. -/
def pinRaised (i stop : Nat) (d : Dev) : Dev :=
  emit (.firePin i (d.pinLevel i true) d.dt) { d with vrd := { d.vrd with pinEnd := KMap.put (fun _ => none) d.vrd.pinEnd i (some stop) } }

theorem pulseStart_drives {i : Nat} {d : Dev} (h : d.drivesPrimary (12 + i) = true) (p : Pulse) : ∃ stop, pulseStart i p d = pinRaised i stop d := by
  unfold pulseStart
  rw [h]
  exact ⟨_, rfl⟩

theorem pulseStart_dark {i : Nat} {d : Dev} (h : d.drivesPrimary (12 + i) = false) (p : Pulse) : pulseStart i p d = vrdStat 14 1 d := by
  unfold pulseStart
  rw [h]
  exact if_pos rfl

theorem pinRaised_facts (i stop : Nat) (d : Dev) : SegStep [] d (pinRaised i stop d) ∧ (pinRaised i stop d).out = .firePin i (d.pinLevel i true) d.dt :: d.out ∧
    KMap.get (fun _ => (none : Option Nat)) (pinRaised i stop d).vrd.pinEnd i = some stop ∧ (pinRaised i stop d).vrd.pins = d.vrd.pins :=
  ⟨segStep_of_eq fun _ => rfl, rfl, KMap.get_put_self (fun _ => none) d.vrd.pinEnd i (some stop), rfl⟩

theorem fireOutPulse_eq {i : Fin 16} {p : Pulse} {d e k : Dev} (hp : firstTimed d (d.pinQ i.val) = some p)
    (he : e = reach (p.start * 65536) (setPinQ i.val ((d.pinQ i.val).erase p) d)) (hk : pulseStart i.val p e = k) :
    (match firstTimed d (d.pinQ i.val) with
      | some p => pulseStart i.val p (reach (p.start * 65536) (setPinQ i.val ((d.pinQ i.val).erase p) d))
      | none => d) = k := by
  rw [hp]
  dsimp only
  rw [← he]
  exact hk

theorem fireOutPulse_starts (i : Fin 16) (p : Pulse) (e : Dev) (s : State) (hp : firstTimed s.dev (s.dev.pinQ i.val) = some p)
    (he : e = reach (p.start * 65536) (setPinQ i.val ((s.dev.pinQ i.val).erase p) s.dev)) (hdrive : e.drivesPrimary (12 + i.val) = true) :
    Completes (.fireOutPulse i false) s (fun t =>
      t.dev.out = .firePin i.val (e.pinLevel i.val true) e.dt :: e.out ∧
      (KMap.get (fun _ => (none : Option Nat)) t.dev.vrd.pinEnd i.val).isSome = true ∧
      Frame [] { e with vrd := t.dev.vrd, out := t.dev.out } s t) := by
  obtain ⟨stop, hstart⟩ := pulseStart_drives hdrive p
  obtain ⟨hstep, hout, hend, -⟩ := pinRaised_facts i.val stop e
  refine completes_to (exec_fireOutPulse i false s) (pinRaised i.val stop e) (fireOutPulse_eq hp he hstart) ⟨hout, ?_, hstep.frameOut s⟩
  rw [after_vrd, hend]
  rfl

theorem fireOutPulse_drops (i : Fin 16) (p : Pulse) (e : Dev) (s : State) (hp : firstTimed s.dev (s.dev.pinQ i.val) = some p)
    (he : e = reach (p.start * 65536) (setPinQ i.val ((s.dev.pinQ i.val).erase p) s.dev)) (hdark : e.drivesPrimary (12 + i.val) = false) :
    Completes (.fireOutPulse i false) s (fun t => Counted (R.VRD.STAT.COUNT 14) 1 e t.dev ∧ Frame [R.VRD.STAT.COUNT 14] e s t) :=
  completes_to (exec_fireOutPulse i false s) (vrdStat 14 1 e) (fireOutPulse_eq hp he (pulseStart_dark hdark p))
    ⟨counted_of_get (counted_vrdStat 14 1 e) rfl (get_after ..), frame_of_leaves (leaves_vrdStat 14 1 e) s⟩

theorem drivesPrimary_setPinQ (i : Fin 16) (q : List Pulse) (d : Dev) : (setPinQ i.val q d).drivesPrimary (12 + i.val) = d.drivesPrimary (12 + i.val) ∧
    (setPinQ i.val q d).pinLevel i.val true = d.pinLevel i.val true := by
  have hfar : (R.VRD.FO_STATUS.LEVEL i.val).key / 64 = 0x1800414 + 0x20 * i.val := by simp only [Fld.key, R.VRD.FO_STATUS.LEVEL]; omega
  have hget (f : Fld) (hf : f.key / 64 < 0x10000) : (setPinQ i.val q d).get f = d.get f := by
    refine get_put_ne (fun h => ?_) _ _
    rw [h] at hf
    omega
  have hpol : (setPinQ i.val q d).get (R.VRD.FO_CTL.POL i.val) = d.get (R.VRD.FO_CTL.POL i.val) :=
    get_put_ne (by simp only [Fld.key, R.VRD.FO_CTL.POL, R.VRD.FO_STATUS.LEVEL]; omega) _ _
  have hown : ∀ n < 256, ∀ lo w, 0 < lo → lo < 64 → (setPinQ i.val q d).get ⟨0x1000 + 0x4 * n, lo, w⟩ = d.get ⟨0x1000 + 0x4 * n, lo, w⟩ :=
    fun n hn lo w _ hlo => hget _ (by simp only [Fld.key]; omega)
  have hfunc : (setPinQ i.val q d).get (R.TOP.PINMUX.FUNC (12 + i.val)) = d.get (R.TOP.PINMUX.FUNC (12 + i.val)) :=
    hget _ (by simp only [Fld.key, R.TOP.PINMUX.FUNC]; omega)
  have hcmp : (setPinQ i.val q d).get (R.TOP.PINMUX.CMP (12 + i.val)) = d.get (R.TOP.PINMUX.CMP (12 + i.val)) :=
    hget _ (by simp only [Fld.key, R.TOP.PINMUX.CMP]; omega)
  have hpin : (setPinQ i.val q d).pinFunc (12 + i.val) = d.pinFunc (12 + i.val) := by
    unfold Dev.pinFunc
    rw [hfunc, hcmp, holder_congr hown rfl]
  have hholder : (setPinQ i.val q d).pinHolder (12 + i.val) = d.pinHolder (12 + i.val) := by
    unfold Dev.pinHolder
    rw [holder_congr hown rfl, ownEntries_congr hown, hpin]
  exact ⟨by rw [Dev.drivesPrimary, hfunc, hpin, hholder, Dev.drivesPrimary], by rw [Dev.pinLevel, Dev.on, hpol]; rfl⟩

theorem fireOutPulse_encoder (i : Fin 16) (p : Pulse) (n x : Nat) (rest : List Pulse) (s : State) (hq : s.dev.pinQ i.val = p :: rest) (hsp : p.sp = some (n, x))
    (hreach : s.dev.spReached n x = true) (hdrive : s.dev.drivesPrimary (12 + i.val) = true) :
    Completes (.fireOutPulse i true) s (fun t =>
      t.dev.pinQ i.val = rest ∧ t.dev.out = .firePin i.val (s.dev.pinLevel i.val true) s.dev.dt :: s.dev.out ∧
      Frame [R.VRD.FO_STATUS.LEVEL i.val] { s.dev with vrd := t.dev.vrd, out := t.dev.out } s t) := by
  have hfind : (s.dev.pinQ i.val).find? (fun p => match p.sp with | some (e, t) => s.dev.spReached e t | none => false) = some p := by
    rw [hq, List.find?_cons_of_pos (by rw [hsp]; exact hreach)]
  have herase : (s.dev.pinQ i.val).erase p = rest := by rw [hq, List.erase_cons_head]
  obtain ⟨hd, hl⟩ := drivesPrimary_setPinQ i rest s.dev
  have hset : SegStep [R.VRD.FO_STATUS.LEVEL i.val] s.dev (setPinQ i.val rest s.dev) := by
    have h : SegStep [] s.dev { s.dev with vrd := { s.dev.vrd with pins := KMap.put (fun _ => []) s.dev.vrd.pins i.val rest } } := segStep_of_eq fun _ => rfl
    exact h.trans (segStep_of_leaves (leaves_put (R.VRD.FO_STATUS.LEVEL i.val) rest.length _))
  have hpins : (setPinQ i.val rest s.dev).pinQ i.val = rest := KMap.get_put_self (fun _ => []) s.dev.vrd.pins i.val rest
  have hdt : (setPinQ i.val rest s.dev).dt = s.dev.dt := rfl
  have hout : (setPinQ i.val rest s.dev).out = s.dev.out := rfl
  have hexec : (match (s.dev.pinQ i.val).find? (fun p => match p.sp with | some (e, t) => s.dev.spReached e t | none => false) with
      | some p => pulseStart i.val p (setPinQ i.val ((s.dev.pinQ i.val).erase p) s.dev)
      | none => s.dev) = pulseStart i.val p (setPinQ i.val rest s.dev) := by
    rw [hfind, ← herase]
  generalize setPinQ i.val rest s.dev = e at *
  obtain ⟨stop, hstart⟩ := pulseStart_drives (hd.trans hdrive) p
  obtain ⟨hstep, hout', -, hpins'⟩ := pinRaised_facts i.val stop e
  refine completes_to (exec_fireOutPulse i true s) (pinRaised i.val stop e) (hexec.trans hstart) ?_
  generalize pinRaised i.val stop e = k at *
  refine ⟨?_, hout'.trans (by rw [hl, hdt, hout]), (hset.trans hstep).frameOut s⟩
  rw [← hpins]
  exact congrArg (fun m : KMap (List Pulse) => KMap.get (fun _ => []) m i.val) hpins'

/-- A pin takes its idle level, its pulse ended. -/
def pinLowered (i : Nat) (d : Dev) : Dev :=
  emit (.firePin i (d.pinLevel i false) d.dt) { d with vrd := { d.vrd with pinEnd := KMap.put (fun _ => none) d.vrd.pinEnd i none } }

theorem exec_fireOutPulseEnd_lowered (i : Fin 16) (s : State) : exec (.fireOutPulseEnd i) s = total (fun _ d =>
    match KMap.get (fun _ => (none : Option Nat)) d.vrd.pinEnd i.val with
    | none => d
    | some t => pinLowered i.val (reach t d)) s := by
  rw [exec_fireOutPulseEnd]
  unfold execFireOutPulseEnd pinLowered
  rfl

theorem pinEnd_lowers {i : Fin 16} {x : Nat} {s : State} {e : Dev} (hx : KMap.get (fun _ => (none : Option Nat)) s.dev.vrd.pinEnd i.val = some x)
    (he : reach x s.dev = e) : Completes (.fireOutPulseEnd i) s (fun t =>
      t.dev.out = .firePin i.val (e.pinLevel i.val false) e.dt :: e.out ∧ KMap.get (fun _ => (none : Option Nat)) t.dev.vrd.pinEnd i.val = none ∧
      Frame [] { e with vrd := t.dev.vrd, out := t.dev.out } s t) := by
  have hdo : (match KMap.get (fun _ => (none : Option Nat)) s.dev.vrd.pinEnd i.val with
      | none => s.dev
      | some t => pinLowered i.val (reach t s.dev)) = pinLowered i.val e := by
    rw [hx]
    dsimp only
    rw [he]
  exact completes_to (exec_fireOutPulseEnd_lowered i s) (pinLowered i.val e) hdo
    ⟨rfl, KMap.get_put_self (fun _ => none) e.vrd.pinEnd i.val none, (segStep_of_eq fun _ => rfl : SegStep [] e (pinLowered i.val e)).frameOut s⟩

theorem fireOutPulseEnd_completes (i : Fin 16) (x : Nat) (s : State) (hx : KMap.get (fun _ => (none : Option Nat)) s.dev.vrd.pinEnd i.val = some x) :
    Completes (.fireOutPulseEnd i) s (fun t =>
      t.dev.out = .firePin i.val ((reach x s.dev).pinLevel i.val false) (reach x s.dev).dt :: (reach x s.dev).out ∧
      KMap.get (fun _ => (none : Option Nat)) t.dev.vrd.pinEnd i.val = none ∧
      Frame [] { reach x s.dev with vrd := t.dev.vrd, out := t.dev.out } s t) := pinEnd_lowers hx rfl

end Sys2Proof.Proofs
end

section
/-!
The cancels, and the restore of the verdict unit's tables (R340, R353).
-/
namespace Sys2Proof.Proofs
open Sys2Proof Sys2Proof.Machine

/-! ## Cancels to every node -/

/-- A cancel to node `n` of segment or pair `k`. -/
def nodeCancel (k n : Nat) : FireCmd := { kind := 3, seg := k, node := n, out := 0, seq := 0 }

/-- Where a command goes, and its kind. -/
def cmdGoal (c : FireCmd) : Nat × Nat × Nat := (c.kind, c.seg, c.node)

/-- Commands with these goals have entered the pending table, and nothing else has changed but the verdict unit. -/
structure Entered (goals : List (Nat × Nat × Nat)) (d e : Dev) : Prop where
  regs : e.regs = d.regs
  step : SegStep [] d e
  out : e.out = d.out
  pend : e.vrd.pend.map cmdGoal = d.vrd.pend.map cmdGoal ++ goals

theorem Entered.trans {xs ys : List (Nat × Nat × Nat)} {d e g : Dev} (h : Entered xs d e) (h' : Entered ys e g) : Entered (xs ++ ys) d g :=
  ⟨h'.regs.trans h.regs, h.step.trans h'.step, h'.out.trans h.out, by rw [h'.pend, h.pend, List.append_assoc]⟩

theorem entered_none (d : Dev) : Entered [] d d := ⟨rfl, segStep_of_eq fun _ => rfl, rfl, (List.append_nil _).symm⟩

theorem nodesOf_congr {d e : Dev} (h : e.regs = d.regs) (k : Nat) : e.nodesOf k = d.nodesOf k := by
  have hon (f : Fld) : e.on f = d.on f := congrArg (· == 1) (get_congr h f)
  unfold Dev.nodesOf Dev.carriers
  simp only [hon, get_congr h]

theorem entered_enterCmd (c : FireCmd) (d : Dev) : Entered [cmdGoal c] d (enterCmd c d) := by
  unfold enterCmd
  dsimp only
  exact ⟨rfl, segStep_of_eq fun _ => rfl, rfl, List.map_append⟩

theorem entered_nodes (k : Nat) (ns : List Nat) (d : Dev) : Entered (ns.map (fun n => (3, k, n))) d (each (fun n d => enterCmd (nodeCancel k n) d) ns d) := by
  induction ns generalizing d with
  | nil => exact entered_none d
  | cons n ns ih => exact (entered_enterCmd (nodeCancel k n) d).trans (ih _)

theorem entered_segs (ks : List Nat) (d : Dev) : Entered (ks.flatMap (fun k => (d.nodesOf k).map (fun n => (3, k, n)))) d
    (each (fun k d => each (fun n d => enterCmd (nodeCancel k n) d) (d.nodesOf k) d) ks d) := by
  induction ks generalizing d with
  | nil => exact entered_none d
  | cons k ks ih =>
    have h1 := entered_nodes k (d.nodesOf k) d
    have h2 := ih (each (fun n d => enterCmd (nodeCancel k n) d) (d.nodesOf k) d)
    simp only [nodesOf_congr h1.regs] at h2
    exact h1.trans h2

theorem nodesOf_nodup (d : Dev) (k : Nat) : (d.nodesOf k).Nodup :=
  ((List.nodup_range.map (fun _ _ h => Nat.succ.inj h)).filter _)

/-- One goal for each node of each segment. -/
theorem goals_nodup (d : Dev) {ks : List Nat} (hks : ks.Nodup) : (ks.flatMap (fun k => (d.nodesOf k).map (fun n => ((3 : Nat), k, n)))).Nodup := by
  refine List.nodup_flatMap.mpr ⟨fun k _ => (nodesOf_nodup d k).map (fun a b h => by simpa using h), ?_⟩
  refine hks.imp fun {a b} hab => ?_
  intro g ha hb
  obtain ⟨m, -, hm⟩ := List.mem_map.mp ha
  obtain ⟨n, -, hn⟩ := List.mem_map.mp hb
  rw [← hn] at hm
  exact hab (by simpa using (Prod.mk.inj (Prod.mk.inj hm).2).1)

theorem cancelAll_completes (s : State) : Completes .cancelAll s (fun t =>
    (∀ c ∈ t.dev.vrd.pend, c.kind = 3) ∧
    (∀ k, k < (if s.dev.on R.TOP.PROFILE_ACT.T1S_MODE then 4 else 8) → ∀ n ∈ s.dev.nodesOf k,
      (t.dev.vrd.pend.filter (fun c => c.seg == k && c.node == n)).length = 1) ∧
    Frame [] { s.dev with vrd := t.dev.vrd } s t) := by
  have hent := entered_segs (if s.dev.on R.TOP.PROFILE_ACT.T1S_MODE then [0, 1, 2, 3] else List.range 8) { s.dev with vrd := { s.dev.vrd with pend := [] } }
  have hnodes (k : Nat) : ({ s.dev with vrd := { s.dev.vrd with pend := [] } } : Dev).nodesOf k = s.dev.nodesOf k := rfl
  have hnd : (if s.dev.on R.TOP.PROFILE_ACT.T1S_MODE then [0, 1, 2, 3] else List.range 8).Nodup := by split <;> decide
  have hmem (k : Nat) (hk : k < (if s.dev.on R.TOP.PROFILE_ACT.T1S_MODE then 4 else 8)) : k ∈ (if s.dev.on R.TOP.PROFILE_ACT.T1S_MODE then [0, 1, 2, 3] else List.range 8) := by
    split at hk
    · next h => rw [if_pos h]; revert hk; clear * -; decide +revert
    · next h => rw [if_neg h]; exact List.mem_range.mpr hk
  have hdo : cancelAll s.dev = each (fun k d => each (fun n d => enterCmd (nodeCancel k n) d) (d.nodesOf k) d)
      (if s.dev.on R.TOP.PROFILE_ACT.T1S_MODE then [0, 1, 2, 3] else List.range 8) { s.dev with vrd := { s.dev.vrd with pend := [] } } := rfl
  rw [← hdo] at hent
  refine completes_to (exec_cancelAll s) (cancelAll s.dev) rfl ?_
  generalize cancelAll s.dev = e at hent ⊢
  generalize (if s.dev.on R.TOP.PROFILE_ACT.T1S_MODE then [0, 1, 2, 3] else List.range 8) = ks at hent hnd hmem
  have hpend := hent.pend
  simp only [hnodes, List.map_nil, List.nil_append] at hpend
  have hdup := goals_nodup s.dev hnd
  have hall : ∀ c ∈ e.vrd.pend, c.kind = 3 := by
    intro c hc
    have hgoal : cmdGoal c ∈ e.vrd.pend.map cmdGoal := List.mem_map_of_mem hc
    rw [hpend] at hgoal
    obtain ⟨k, -, hg⟩ := List.mem_flatMap.mp hgoal
    obtain ⟨n, -, heq⟩ := List.mem_map.mp hg
    exact (Prod.mk.inj heq).1.symm
  refine ⟨hall, fun k hk n hn => ?_, ?_⟩
  · have hone : (e.vrd.pend.map cmdGoal).count (3, k, n) = 1 := by
      rw [hpend]
      exact List.count_eq_one_of_mem hdup (List.mem_flatMap.mpr ⟨k, hmem k hk, List.mem_map.mpr ⟨n, hn, rfl⟩⟩)
    rw [List.count, List.countP_map, List.countP_eq_length_filter] at hone
    rw [← hone]
    refine congrArg List.length (List.filter_congr fun c hc => ?_)
    rw [Bool.eq_iff_iff]
    simp [cmdGoal, hall c hc]
  · have hset : SegStep [] s.dev { s.dev with vrd := { s.dev.vrd with pend := [] } } := segStep_of_eq fun _ => rfl
    exact (hset.trans hent.step).frame hent.out s

/-! ## A cancel that is given up -/

theorem findBlock_none {a : Nat} {bs : List BlockDef} (h : ∀ b ∈ bs, b.base + b.count * b.stride ≤ a) : findBlock bs a = none := by
  induction bs with
  | nil => rfl
  | cons b bs ih =>
    have hb := h b List.mem_cons_self
    rw [findBlock, if_neg (by omega)]
    exact ih fun c hc => h c (List.mem_cons_of_mem _ hc)

theorem blocks_end : ∀ b ∈ blocks, b.base + b.count * b.stride ≤ 0x2200000 := by decide +kernel

/-- A segment's sixth counter waits for no boundary, whatever the segment's number. -/
theorem keyBnd_segCount (j : Nat) : keyBnd ((0x1a00118 + 0x20000 * j) * 64) = .none := by
  by_cases hj : j < 64
  · have hall : ∀ j < 64, keyBnd ((0x1a00118 + 0x20000 * j) * 64) = .none := by decide +kernel
    exact hall j hj
  · have hdiv : (0x1a00118 + 0x20000 * j) * 64 / 64 = 0x1a00118 + 0x20000 * j := Nat.mul_div_cancel _ (by decide)
    unfold keyBnd fieldOf
    rw [hdiv, findBlock_none fun b hb => (blocks_end b hb).trans (by omega)]

theorem not_lineKey_segCount (j : Nat) : ¬ lineKey (R.T1S.STAT.COUNT j 6).key := by
  have hkey : (R.T1S.STAT.COUNT j 6).key = (0x1a00118 + 0x20000 * j) * 64 := by simp only [Fld.key, R.T1S.STAT.COUNT]; omega
  have hdiv : (0x1a00118 + 0x20000 * j) * 64 / 64 = 0x1a00118 + 0x20000 * j := Nat.mul_div_cancel _ (by decide)
  rw [hkey, lineKey, hdiv, keyBnd_segCount]
  simp only [List.mem_cons, List.not_mem_nil, or_false, reduceCtorEq, not_or]
  omega

theorem segCount_book (j : Nat) : bookKey (R.T1S.STAT.COUNT j 6).key = false :=
  segKey_book (j := j) (o := 0x118) (.inr rfl) (by simp only [Fld.key, R.T1S.STAT.COUNT]; omega)

theorem unconfirmed_facts (k : Nat) (c : FireCmd) (d : Dev) : (unconfirmed k c d).vrd.pend = d.vrd.pend.filter (fun x => !(x.seq == c.seq && x.seg == c.seg)) ∧
    (unconfirmed k c d).tim = d.tim ∧ Counted (R.T1S.STAT.COUNT k 6) 1 d (unconfirmed k c d) := by
  have hpend : (dropCmd c d).vrd.pend = d.vrd.pend.filter (fun x => !(x.seq == c.seq && x.seg == c.seg)) := rfl
  have htim : (dropCmd c d).tim = d.tim := rfl
  have hget : (dropCmd c d).get (R.T1S.STAT.COUNT k 6) = d.get (R.T1S.STAT.COUNT k 6) := rfl
  unfold unconfirmed
  generalize dropCmd c d = e at hpend htim hget ⊢
  have hs := leaves_t1sStat k 6 1 e
  have hc := counted_t1sStat k 6 1 e
  generalize t1sStat k 6 1 e = q at hs hc ⊢
  have hl := (leaves_t1sPerf k 6 1 q).trans (leaves_logEv 0x1103 k 2 (c.obj % 2 ^ 32 + c.node * 2 ^ 32 + c.out * 2 ^ 40 + k * 2 ^ 48) _)
  generalize logEv 0x1103 k 2 (c.obj % 2 ^ 32 + c.node * 2 ^ 32 + c.out * 2 ^ 40 + k * 2 ^ 48) (t1sPerf k 6 1 q) = w at hl ⊢
  exact ⟨(congrArg VrdS.pend ((vrd_of_leaves hl).trans (vrd_of_leaves hs))).trans hpend, ((tim_of_leaves hl).trans (tim_of_leaves hs)).trans htim,
    counted_of_get hc hget (hl.get (segCount_book k) (by simp))⟩

theorem cancelAbandon_eq {c : FireCmd} {x : Nat} {d : Dev} (hp : d.vrd.pend = [c]) (hk : c.kind ≠ 1) (hf : c.first = some x) :
    cancelAbandon d = unconfirmed (c.sent.getLastD c.seg) c (reachNs x 10000000 d) := by
  have hcs : d.vrd.pend.filterMap (fun c => if c.kind = 1 then none else c.first.map (fun t => (t, c))) = [(x, c)] := by
    rw [hp, List.filterMap_cons_some (b := (x, c)) (by rw [if_neg hk, hf]; rfl), List.filterMap_nil]
  unfold cancelAbandon
  rw [hcs]
  rfl

theorem cancelAbandon_completes (c : FireCmd) (x : Nat) (s : State) (hp : s.dev.vrd.pend = [c]) (hk : c.kind ≠ 1) (hf : c.first = some x) :
    Completes .cancelAbandon s (fun t => t.dev.vrd.pend = [] ∧ t.dev.dt = (reachNs x 10000000 s.dev).dt ∧
      Counted (R.T1S.STAT.COUNT (c.sent.getLastD c.seg) 6) 1 s.dev t.dev) := by
  have hreach := lineStep_reachNs x 10000000 s.dev
  refine completes_to (exec_cancelAbandon s) _ (cancelAbandon_eq hp hk hf) ?_
  generalize reachNs x 10000000 s.dev = e at hreach ⊢
  obtain ⟨hpend, htim, hcount⟩ := unconfirmed_facts (c.sent.getLastD c.seg) c e
  generalize unconfirmed (c.sent.getLastD c.seg) c e = q at hpend htim hcount ⊢
  refine ⟨?_, ?_, counted_of_get hcount (hreach.get _ (segCount_book _) (not_lineKey_segCount _)) (get_after ..)⟩
  · rw [after_vrd, hpend, hreach.vrd, hp]
    simp
  · rw [dt_after, Dev.dt, htim, Dev.dt]

/-! ## Tables restored -/

/-- The device with other table banks and another verdict unit. -/
def withBankVrd (x : KMap Bank × VrdS) (d : Dev) : Dev := { d with bank := x.1, vrd := x.2 }

/-- One word of a table of the verdict unit takes the image's value again. -/
def wordRestored (active : Bool) (table index w : Nat) (d : Dev) : Dev :=
  let b := d.bankS 10
  if active then setBank 10 { b with act := KMap.put (bankDefault 10) b.act (vrdKey table index + w) (d.vrdImage table index w) } d
  else setBank 10 { b with shd := KMap.put (bankDefault 10) b.shd (vrdKey table index + w) (d.vrdImage table index w) } d

/-- The words `ws` of an entry read as the image gives them, in one bank; every other word and the other bank stay. -/
structure WordsRestored (active : Bool) (table index : Nat) (ws : List Nat) (d e : Dev) : Prop where
  act : ∀ k, e.actWord 10 k = if active = true ∧ k ∈ ws.map (vrdKey table index + ·) then d.vrdImage table index (k - vrdKey table index) else d.actWord 10 k
  shd : ∀ k, e.shdWord 10 k = if active = false ∧ k ∈ ws.map (vrdKey table index + ·) then d.vrdImage table index (k - vrdKey table index) else d.shdWord 10 k
  image : e.imgWord = d.imgWord
  upto : Upto withBankVrd [] d e

theorem ite_mem_cons {p : Prop} [Decidable p] {k x v : Nat} {xs : List Nat} {f : Nat → Nat} (hv : v = f x) (z : Nat) :
    (if p ∧ k ∈ xs then f k else if p ∧ k = x then v else z) = if p ∧ k ∈ x :: xs then f k else z := by
  by_cases hp : p
  · by_cases hk : k ∈ xs
    · rw [if_pos ⟨hp, hk⟩, if_pos ⟨hp, List.mem_cons_of_mem _ hk⟩]
    · by_cases hx : k = x
      · rw [if_neg (fun h => hk h.2), if_pos ⟨hp, hx⟩, if_pos ⟨hp, hx ▸ List.mem_cons_self⟩, hv, hx]
      · rw [if_neg (fun h => hk h.2), if_neg (fun h => hx h.2), if_neg (fun h => (List.mem_cons.mp h.2).elim hx hk)]
  · rw [if_neg (fun h => hp h.1), if_neg (fun h => hp h.1), if_neg (fun h => hp h.1)]

theorem words_wordRestored (active : Bool) (table index w : Nat) (d : Dev) (k : Nat) :
    (wordRestored active table index w d).actWord 10 k = (if active = true ∧ k = vrdKey table index + w then d.vrdImage table index w else d.actWord 10 k) ∧
    (wordRestored active table index w d).shdWord 10 k = (if active = false ∧ k = vrdKey table index + w then d.vrdImage table index w else d.shdWord 10 k) := by
  unfold wordRestored Dev.actWord Dev.shdWord
  cases active with
  | true => simp [KMap.get_put]
  | false => simp [KMap.get_put]

theorem wordsRestored_each (active : Bool) (table index : Nat) (ws : List Nat) (d : Dev) :
    WordsRestored active table index ws d (each (wordRestored active table index) ws d) := by
  induction ws generalizing d with
  | nil => exact ⟨fun k => by simp [each], fun k => by simp [each], rfl, upto_of_eq fun _ => rfl⟩
  | cons w ws ih =>
    have hw := words_wordRestored active table index w d
    have himg : (wordRestored active table index w d).imgWord = d.imgWord := by unfold wordRestored; dsimp only; split <;> rfl
    have hup : Upto withBankVrd [] d (wordRestored active table index w d) := by unfold wordRestored; dsimp only; split <;> exact upto_of_eq fun _ => rfl
    rw [each]
    generalize wordRestored active table index w d = e at hw himg hup ⊢
    have hi := ih e
    have hv (w : Nat) : e.vrdImage table index w = d.vrdImage table index w := by unfold Dev.vrdImage; rw [himg]
    have hval : d.vrdImage table index w = d.vrdImage table index (vrdKey table index + w - vrdKey table index) := by rw [Nat.add_sub_cancel_left]
    refine ⟨fun k => ?_, fun k => ?_, hi.image.trans himg, hup.trans hi.upto⟩
    · rw [hi.act, (hw k).1, hv, List.map_cons]
      exact ite_mem_cons (p := active = true) (f := fun k => d.vrdImage table index (k - vrdKey table index)) hval _
    · rw [hi.shd, (hw k).2, hv, List.map_cons]
      exact ite_mem_cons (p := active = false) (f := fun k => d.vrdImage table index (k - vrdKey table index)) hval _

/-- An entry of a table restored. -/
def entryRestored (active : Bool) (table : Fin 3) (index : Nat) (d : Dev) : Dev :=
  let d := each (wordRestored active table.val index) (List.range (vrdWords table.val)) d
  { d with vrd := { d.vrd with bad := d.vrd.bad.filter (· != { active, table := table.val, index }) } }

theorem vrdTableRestore_eq (active : Bool) (table : Fin 3) (index : Nat) {d : Dev} (hup : d.ras.coresDown = false)
    (hbad : d.vrd.bad.contains { active, table := table.val, index } = true) :
    (if !d.vrd.bad.contains { active, table := table.val, index } || d.ras.coresDown then d else entryRestored active table index d) = entryRestored active table index d :=
  if_neg (by rw [hup, hbad]; decide)

theorem entryRestored_facts (active : Bool) (table : Fin 3) (index : Nat) (d : Dev) :
    (∀ k, (entryRestored active table index d).actWord 10 k = if active = true ∧ k ∈ (List.range (vrdWords table.val)).map (vrdKey table.val index + ·) then
      d.vrdImage table.val index (k - vrdKey table.val index) else d.actWord 10 k) ∧
    (∀ k, (entryRestored active table index d).shdWord 10 k = if active = false ∧ k ∈ (List.range (vrdWords table.val)).map (vrdKey table.val index + ·) then
      d.vrdImage table.val index (k - vrdKey table.val index) else d.shdWord 10 k) ∧
    (entryRestored active table index d).vrd.bad.contains { active, table := table.val, index } = false ∧ Upto withBankVrd [] d (entryRestored active table index d) := by
  have h := wordsRestored_each active table.val index (List.range (vrdWords table.val)) d
  unfold entryRestored
  dsimp only
  generalize each (wordRestored active table.val index) (List.range (vrdWords table.val)) d = e at h ⊢
  refine ⟨h.act, h.shd, ?_, h.upto.trans (upto_of_eq fun _ => rfl)⟩
  rw [List.contains_eq_mem, decide_eq_false_iff_not, List.mem_filter]
  simp

theorem mem_words (table index : Nat) {w : Nat} (hw : w < vrdWords table) : vrdKey table index + w ∈ (List.range (vrdWords table)).map (vrdKey table index + ·) :=
  List.mem_map.mpr ⟨w, List.mem_range.mpr hw, rfl⟩

theorem vrdTableRestore_active (table : Fin 3) (index : Nat) (s : State) (hup : s.dev.ras.coresDown = false)
    (hbad : s.dev.vrd.bad.contains { active := true, table := table.val, index } = true) :
    Completes (.vrdTableRestore true table index) s (fun t =>
      (∀ w, w < vrdWords table.val → t.dev.actWord 10 (vrdKey table.val index + w) = s.dev.vrdImage table.val index w) ∧
      (∀ k, t.dev.shdWord 10 k = s.dev.shdWord 10 k) ∧ t.dev.vBad table.val index = false ∧
      Frame [] { s.dev with bank := t.dev.bank, vrd := t.dev.vrd } s t) := by
  obtain ⟨hact, hshd, hgone, hupto⟩ := entryRestored_facts true table index s.dev
  refine completes_to (exec_vrdTableRestore true table index s) (entryRestored true table index s.dev) (vrdTableRestore_eq true table index hup hbad) ?_
  generalize entryRestored true table index s.dev = e at *
  refine ⟨fun w hw => ?_, fun k => (hshd k).trans (if_neg (by simp)), hgone, frame_of_upto hupto s (e.bank, e.vrd) rfl⟩
  refine (hact _).trans ?_
  rw [if_pos ⟨rfl, mem_words table.val index hw⟩, Nat.add_sub_cancel_left]

theorem vrdTableRestore_shadow (table : Fin 3) (index : Nat) (s : State) (hup : s.dev.ras.coresDown = false)
    (hbad : s.dev.vrd.bad.contains { active := false, table := table.val, index } = true) :
    Completes (.vrdTableRestore false table index) s (fun t =>
      (∀ w, w < vrdWords table.val → t.dev.shdWord 10 (vrdKey table.val index + w) = s.dev.vrdImage table.val index w) ∧
      (∀ k, t.dev.actWord 10 k = s.dev.actWord 10 k) ∧
      Frame [] { s.dev with bank := t.dev.bank, vrd := t.dev.vrd } s t) := by
  obtain ⟨hact, hshd, -, hupto⟩ := entryRestored_facts false table index s.dev
  refine completes_to (exec_vrdTableRestore false table index s) (entryRestored false table index s.dev) (vrdTableRestore_eq false table index hup hbad) ?_
  generalize entryRestored false table index s.dev = e at *
  refine ⟨fun w hw => ?_, fun k => (hact k).trans (if_neg (by simp)), frame_of_upto hupto s (e.bank, e.vrd) rfl⟩
  refine (hshd _).trans ?_
  rw [if_pos ⟨rfl, mem_words table.val index hw⟩, Nat.add_sub_cancel_left]

/-- Settles O44: a verdict's counts, commands and pulses leave what the object ring's writer reads, cancels enter once for each node, and a restored entry reads as the
image gives it in its own bank. -/
theorem verdictsAreGivenAndPulsesFire : Obligations.VerdictsAreGivenAndPulsesFire :=
  ⟨verdict_completes, verdict_fires, verdict_faults, verdict_off, fireOutPulse_starts, fireOutPulse_drops, fireOutPulse_encoder, fireOutPulseEnd_completes,
    cancelAll_completes, cancelAbandon_completes, vrdTableRestore_active, vrdTableRestore_shadow⟩

end Sys2Proof.Proofs
end

section
/-!
Forming a composite line: what each step leaves of the lines that wait and of the registers that say how far forming has come (R211 to
R218).
-/
namespace Sys2Proof.Proofs
open Sys2Proof Sys2Proof.Machine

/-- The registers that say why a line was formed and which one it was. -/
def formKeys : List Nat := [R.FUS.STATUS.FORCED.key, (R.FUS.STAT.COUNT 1).key, R.FUS.LAST_LSN.LSN.key, R.FUS.LAST_DT.DT.key]

/-- The same, and the length of a composite block. -/
def windowKeys : List Nat := R.TIM.COMP_BLOCK.LINES.key :: formKeys

/-- The lines and pieces that wait, the counts of formed lines, DT and the registers `ks` stay. -/
structure FormStep (ks : List Nat) (d e : Dev) : Prop where
  issued : e.fus.issued = d.fus.issued
  queue : e.fus.queue = d.fus.queue
  count : e.fus.count = d.fus.count
  blk : e.fus.blk = d.fus.blk
  tim : e.tim = d.tim
  get : ∀ f : Fld, f.key ∈ ks → e.get f = d.get f

theorem formKeys_book : ∀ k ∈ windowKeys, bookKey k = false := by decide

theorem formKeys_bnd : ∀ k ∈ formKeys, keyBnd k ≠ .block ∧ keyBnd k ≠ .line := by decide

/-- A field of the views, or beyond the fusion unit. -/
theorem apart_high {f : Fld} (h : 0x801000 * 64 ≤ f.key) : f.key ∉ windowKeys := fun hf => by
  have hlow : ∀ k ∈ windowKeys, k < 0x801000 * 64 := by decide
  have := hlow _ hf
  omega

theorem mem_windowKeys {k : Nat} (h : k ∈ formKeys) : k ∈ windowKeys := List.mem_cons_of_mem _ h

section
variable {ks : List Nat} {fs : List Fld} {d e : Dev}

theorem formStep_refl (ks : List Nat) (d : Dev) : FormStep ks d d := ⟨rfl, rfl, rfl, rfl, rfl, fun _ _ => rfl⟩

theorem FormStep.trans (h : FormStep ks d e) {g : Dev} (h' : FormStep ks e g) : FormStep ks d g :=
  ⟨h'.issued.trans h.issued, h'.queue.trans h.queue, h'.count.trans h.count, h'.blk.trans h.blk, h'.tim.trans h.tim,
    fun f hf => (h'.get f hf).trans (h.get f hf)⟩

theorem FormStep.narrow {js : List Nat} (h : FormStep ks d e) (hsub : ∀ k ∈ js, k ∈ ks) : FormStep js d e :=
  ⟨h.issued, h.queue, h.count, h.blk, h.tim, fun f hf => h.get f (hsub _ hf)⟩

theorem FormStep.dt (h : FormStep ks d e) : e.dt = d.dt := by rw [Dev.dt, h.tim, Dev.dt]

/-- Neither the fusion unit nor DT changes, and no register. -/
theorem formStep_of_same (hf : e.fus = d.fus) (ht : e.tim = d.tim) (hr : e.regs = d.regs) : FormStep ks d e :=
  ⟨by rw [hf], by rw [hf], by rw [hf], by rw [hf], ht, fun f _ => get_congr hr f⟩

theorem formStep_of_leaves (hks : ∀ k ∈ ks, k ∈ windowKeys) (h : Leaves fs d e) (hfs : ∀ f ∈ fs, f.key ∉ ks) : FormStep ks d e := by
  have hf := fus_of_leaves h
  exact ⟨by rw [hf], by rw [hf], by rw [hf], by rw [hf], tim_of_leaves h, fun f hk => h.get (formKeys_book _ (hks _ hk)) fun hmem => by
    obtain ⟨r, hr, heq⟩ := List.mem_map.mp hmem
    exact hfs r hr (heq ▸ hk)⟩

theorem formStep_put {f : Fld} (hf : f.key ∉ ks) (v : Nat) (d : Dev) : FormStep ks d (put f v d) :=
  ⟨rfl, rfl, rfl, rfl, rfl, fun g hg => get_put_ne (fun h => hf (h ▸ hg)) v d⟩

theorem formStep_when {c : Bool} {F : Dev → Dev} (h : FormStep ks d (F d)) : FormStep ks d (when c F d) := by
  cases c with
  | true => exact h
  | false => exact formStep_refl ks d

theorem formStep_ite {c : Prop} [Decidable c] {a b : Dev} (ha : FormStep ks d a) (hb : FormStep ks d b) : FormStep ks d (if c then a else b) := by
  split
  · exact ha
  · exact hb

theorem formStep_each {α : Type} {F : α → Dev → Dev} {xs : List α} (h : ∀ x ∈ xs, ∀ d, FormStep ks d (F x d)) (d : Dev) : FormStep ks d (each F xs d) := by
  induction xs generalizing d with
  | nil => exact formStep_refl ks d
  | cons x xs ih => exact (h x List.mem_cons_self d).trans (ih (fun y hy => h y (List.mem_cons_of_mem _ hy)) _)

theorem formStep_applyPend {hit : Nat → Bool} (h : ∀ k ∈ ks, hit k = false) (d : Dev) : FormStep ks d (applyPend hit d) :=
  ⟨rfl, rfl, rfl, rfl, rfl, fun f hf => get_foldl_landed (h _ hf) d.rwb d.regs⟩

end

theorem inRange_block {k : Nat} (hk : k ∈ formKeys) (lo n : Nat) : inRange lo n .block k = false := by
  rw [inRange, Bool.and_eq_false_iff]
  exact .inr (beq_eq_false_iff_ne.mpr (formKeys_bnd k hk).1)

theorem inRange_line {k : Nat} (hk : k ∈ formKeys) (lo n : Nat) : inRange lo n .line k = false := by
  rw [inRange, Bool.and_eq_false_iff]
  exact .inr (beq_eq_false_iff_ne.mpr (formKeys_bnd k hk).2)

/-! ## Views and seams -/

theorem formStep_setView (ks : List Nat) (v : Nat) (x : ViewS) (d : Dev) : FormStep ks d (setView v x d) := ⟨rfl, rfl, rfl, rfl, rfl, fun _ _ => rfl⟩

theorem perfBase_fus : PerfBase 0x800000 := by
  unfold PerfBase
  decide

theorem perfBase_cls : PerfBase 0xc00000 := by
  unfold PerfBase
  decide

theorem leaves_fusPerf (code n : Nat) (d : Dev) : Leaves [] d (fusPerf code n d) := leaves_perf 11 perfBase_fus code n d

theorem leaves_clsPerf (code n : Nat) (d : Dev) : Leaves [] d (clsPerf code n d) := leaves_perf 12 perfBase_cls code n d

theorem formStep_fusPerf (code n : Nat) (d : Dev) : FormStep windowKeys d (fusPerf code n d) :=
  formStep_of_leaves (fun _ h => h) (leaves_fusPerf code n d) (by simp)

/-- The counts of the fusion unit but the one of forced lines. -/
theorem formStep_fusStat {c : Nat} (hc : c < 16) (h1 : c ≠ 1) (n : Nat) (d : Dev) : FormStep windowKeys d (fusStat c n d) :=
  formStep_put ((by decide : ∀ c < 16, c ≠ 1 → (R.FUS.STAT.COUNT c).key ∉ windowKeys) c hc h1) _ d

theorem formStep_counted {c : Nat} (hc : c < 16) (h1 : c ≠ 1) (code n : Nat) (d : Dev) : FormStep windowKeys d (fusPerf code n (fusStat c n d)) :=
  (formStep_fusStat hc h1 n d).trans (formStep_fusPerf code n _)

theorem formStep_event {seq : Fld} {fs : List Fld} (code : Nat) (h : ∀ f ∈ seqAnd seq fs, f.key ∉ windowKeys) (d : Dev) :
    FormStep windowKeys d (event code seq fs d) := formStep_of_leaves (fun _ h => h) (leaves_event ..) h

/-! ## Seams -/

/-- TRIM of a seam after a window with the mean `m` (R221). -/
def trimAfter (b : Nat) (m : Int) (d : Dev) : Int :=
  clampI (-128) 128 (sgn 9 (d.get (R.FUS.VIEW_TRIM.TRIM b)) + clampI (-(d.get R.FUS.SEAM_CTL.STEP : Int)) (d.get R.FUS.SEAM_CTL.STEP) m)

/-- The events and counts of a TRIM that moves, or that stands at its limit. -/
def trimNoted (b : Nat) (moved limit : Bool) (t : Int) (d : Dev) : Dev :=
  let d := when moved (fun d => fusPerf 0xa 1 (fusStat 10 1 d)) d
  when limit (fun d =>
    logEv 0x0b01 b 2 (unsgn 64 t) (fusStat 11 1 (event 11 R.FUS.STATUS.SEQ [R.FUS.STATUS.TRK_LIMIT]
      (event 11 (R.FUS.VIEW_STATUS.SEQ b) [R.FUS.VIEW_STATUS.LIMIT b] d)))) d

/-- The mean and the levels of a window. -/
def seamMeasured (b : Nat) (x : ViewS) (m : Int) (d : Dev) : Dev :=
  puts [(R.FUS.VIEW_TRK.MEAS b, unsgn 9 m), (R.FUS.VIEW_LVL.LVL_A b, x.lvlA / max 1 x.lvlN), (R.FUS.VIEW_LVL.LVL_B b, x.lvlB / max 1 x.lvlN)] d

/-- The pairs of a window. -/
def seamPaired (b : Nat) (d : Dev) : Dev := put (R.FUS.VIEW_TRK.PAIRS b) (min (d.viewS b).pairs 0xffff) d

/-- TRIM of the seam `b` takes its step. -/
def seamTrimmed (b : Nat) (moved limit : Bool) (t m : Int) (d : Dev) : Dev :=
  trimNoted b moved limit t (put (R.FUS.VIEW_TRIM.TRIM b) (unsgn 9 (trimAfter b m d)) d)

theorem seamUpdate_few {ab : Nat × Nat} {d : Dev} (h : (d.viewS ab.2).pairs < max 1 ((seamPaired ab.2 d).get R.FUS.SEAM_CTL.MINPAIRS)) :
    seamUpdate ab d = seamPaired ab.2 d := if_pos h

theorem seamUpdate_enough {ab : Nat × Nat} {d : Dev} (h : ¬ (d.viewS ab.2).pairs < max 1 ((seamPaired ab.2 d).get R.FUS.SEAM_CTL.MINPAIRS)) :
    ∃ (written moved limit : Bool) (t : Int),
      written = (KMap.get (fun _ => (none : Option Nat)) d.rwb (R.FUS.VIEW_TRIM.TRIM ab.2).key).isSome ∧
      seamUpdate ab d =
        let m := roundMean (d.viewS ab.2).sum (d.viewS ab.2).pairs
        let e := seamMeasured ab.2 (d.viewS ab.2) m (seamPaired ab.2 d)
        if e.get R.FUS.SEAM_CTL.MODE = 2 ∧ written = false then seamTrimmed ab.2 moved limit t m e else e :=
  ⟨_, _, _, _, rfl, if_neg h⟩

/-- The registers of a step of TRIM beside TRIM. -/
def trimRegs (b : Nat) : List Fld :=
  [R.FUS.STAT.COUNT 10, R.FUS.VIEW_STATUS.SEQ b, R.FUS.VIEW_STATUS.LIMIT b, R.FUS.STATUS.SEQ, R.FUS.STATUS.TRK_LIMIT, R.FUS.STAT.COUNT 11]

/-- The registers of a measured seam. -/
def measRegs (b : Nat) : List Fld := [R.FUS.VIEW_TRK.MEAS b, R.FUS.VIEW_LVL.LVL_A b, R.FUS.VIEW_LVL.LVL_B b]

theorem leaves_trimNoted (b : Nat) (moved limit : Bool) (t : Int) (d : Dev) : Leaves (trimRegs b) d (trimNoted b moved limit t d) := by
  unfold trimNoted
  dsimp only
  have hmoved := leaves_when moved (fun d => fusPerf 0xa 1 (fusStat 10 1 d)) d ((leaves_put (R.FUS.STAT.COUNT 10) _ d).trans (leaves_fusPerf ..))
  generalize when moved _ d = e at hmoved ⊢
  have hlimit := leaves_when limit (fun d => logEv 0x0b01 b 2 (unsgn 64 t) (fusStat 11 1 (event 11 R.FUS.STATUS.SEQ [R.FUS.STATUS.TRK_LIMIT]
      (event 11 (R.FUS.VIEW_STATUS.SEQ b) [R.FUS.VIEW_STATUS.LIMIT b] d)))) e
    ((((leaves_event 11 (R.FUS.VIEW_STATUS.SEQ b) [R.FUS.VIEW_STATUS.LIMIT b] e).trans (leaves_event 11 R.FUS.STATUS.SEQ [R.FUS.STATUS.TRK_LIMIT] _)).trans
      (leaves_put (R.FUS.STAT.COUNT 11) _ _)).trans (leaves_logEv ..))
  refine (hmoved.trans hlimit).mono fun k hk => List.mem_map_of_mem ?_
  simpa [trimRegs, seqAnd, or_assoc] using hk

/-- The registers that a seam's window writes. -/
def seamRegs (b : Nat) : List Fld := R.FUS.VIEW_TRK.PAIRS b :: R.FUS.VIEW_TRIM.TRIM b :: (measRegs b ++ trimRegs b)

theorem leaves_seamTrimmed (b : Nat) (moved limit : Bool) (t m : Int) (d : Dev) :
    Leaves (R.FUS.VIEW_TRIM.TRIM b :: trimRegs b) d (seamTrimmed b moved limit t m d) := (leaves_put ..).trans (leaves_trimNoted ..)

theorem leaves_seamMeasured (b : Nat) (x : ViewS) (m : Int) (d : Dev) : Leaves (measRegs b) d (seamMeasured b x m d) := by
  have h := leaves_puts [(R.FUS.VIEW_TRK.MEAS b, unsgn 9 m), (R.FUS.VIEW_LVL.LVL_A b, x.lvlA / max 1 x.lvlN),
    (R.FUS.VIEW_LVL.LVL_B b, x.lvlB / max 1 x.lvlN)] d
  exact h

theorem leaves_seamPaired (b : Nat) (d : Dev) : Leaves [R.FUS.VIEW_TRK.PAIRS b] d (seamPaired b d) := leaves_put ..

theorem leaves_seamUpdate (ab : Nat × Nat) (d : Dev) : Leaves (seamRegs ab.2) d (seamUpdate ab d) := by
  have hpair := leaves_seamPaired ab.2 d
  by_cases hfew : (d.viewS ab.2).pairs < max 1 ((seamPaired ab.2 d).get R.FUS.SEAM_CTL.MINPAIRS)
  · rw [seamUpdate_few hfew]
    exact hpair.mono (by simp [seamRegs])
  · obtain ⟨written, moved, limit, t, -, heq⟩ := seamUpdate_enough hfew
    rw [heq]
    dsimp only
    generalize roundMean _ _ = m
    have hmeas := hpair.trans (leaves_seamMeasured ab.2 (d.viewS ab.2) m _)
    split
    · refine (hmeas.trans (leaves_seamTrimmed ab.2 moved limit t m _)).mono fun k hk => List.mem_map_of_mem ?_
      simp only [List.mem_append, List.mem_cons, List.not_mem_nil, or_false, seamRegs] at hk ⊢
      rcases hk with (h | h) | h | h
      · exact .inl h
      · exact .inr (.inr (.inl h))
      · exact .inr (.inl h)
      · exact .inr (.inr (.inr h))
    · refine hmeas.mono fun k hk => List.mem_map_of_mem ?_
      simp only [List.mem_append, List.mem_cons, List.not_mem_nil, or_false, seamRegs] at hk ⊢
      rcases hk with h | h
      · exact .inl h
      · exact .inr (.inr (.inl h))

theorem seamRegs_apart (b : Nat) : ∀ f ∈ seamRegs b, f.key ∉ windowKeys := by
  have hview {o lo w : Nat} (ho : 0x801000 ≤ o) : (Fld.key ⟨o + 0x40 * b, lo, w⟩) ∉ windowKeys := apart_high (by simp only [Fld.key]; omega)
  simp only [seamRegs, measRegs, trimRegs, List.cons_append, List.nil_append, List.mem_cons, List.not_mem_nil, or_false, forall_eq_or_imp, forall_eq]
  exact ⟨hview (by decide), hview (by decide), hview (by decide), hview (by decide), hview (by decide), by decide, hview (by decide), hview (by decide),
    by decide, by decide, by decide⟩

theorem formStep_seamUpdate (ab : Nat × Nat) (d : Dev) : FormStep windowKeys d (seamUpdate ab d) :=
  formStep_of_leaves (fun _ h => h) (leaves_seamUpdate ab d) (seamRegs_apart ab.2)

/-- The window of the seams is no longer due. -/
def windowTaken (d : Dev) : Dev := { d with fus := { d.fus with winDue := false } }

theorem seamWindow_due {d : Dev} (h : d.fus.winDue = true) : seamWindow d =
    fusPerf 9 1 (fusStat 9 1 (each restartSums (List.range 48) (each seamUpdate d.seams (windowTaken d)))) := by
  unfold seamWindow
  rw [h]
  rfl

theorem seamWindow_idle {d : Dev} (h : d.fus.winDue = false) : seamWindow d = d := by
  unfold seamWindow
  rw [h]
  rfl

theorem formStep_seamWindow (d : Dev) : FormStep windowKeys d (seamWindow d) := by
  by_cases h : d.fus.winDue = true
  · rw [seamWindow_due h]
    have htaken : FormStep windowKeys d (windowTaken d) := ⟨rfl, rfl, rfl, rfl, rfl, fun _ _ => rfl⟩
    have hseams := formStep_each (fun ab _ d => formStep_seamUpdate ab d) (xs := d.seams) (windowTaken d)
    have hsums := formStep_each (F := restartSums) (fun v _ d => formStep_setView windowKeys v _ d) (xs := List.range 48) (each seamUpdate d.seams (windowTaken d))
    exact ((htaken.trans hseams).trans hsums).trans (formStep_counted (by decide) (by decide) 9 1 _)
  · rw [seamWindow_idle (Bool.not_eq_true _ ▸ h)]
    exact formStep_refl ..

/-- Forming begins a composite block or not whatever a seam window did. -/
theorem atBoundary_seamWindow (d : Dev) : (seamWindow d).atBoundary = d.atBoundary := by
  have h := formStep_seamWindow d
  rw [Dev.atBoundary, Dev.atBoundary, Dev.compBlock, Dev.compBlock, h.blk, h.get R.TIM.COMP_BLOCK.LINES (by decide)]

theorem formStep_seamLine (n : Nat) (ab : Nat × Nat) (d : Dev) : FormStep windowKeys d (seamLine n ab d) := by
  unfold seamLine
  exact formStep_ite (formStep_refl ..) (formStep_setView ..)

end Sys2Proof.Proofs
end

section
/-!
The composite line on its way behind the fusion unit: block boundaries, the classifier, the run journals, the tile history and the taps
(R216 to R250).
-/
namespace Sys2Proof.Proofs
open Sys2Proof Sys2Proof.Machine

/-- The lines that wait, the counts, DT and the registers of forming stay. -/
abbrev Formed (d e : Dev) : Prop := FormStep formKeys d e

theorem formed_of_window {d e : Dev} (h : FormStep windowKeys d e) : Formed d e := h.narrow fun _ => mem_windowKeys

theorem formed_of_leaves {fs : List Fld} {d e : Dev} (h : Leaves fs d e) (hfs : ∀ f ∈ fs, f.key ∉ formKeys) : Formed d e :=
  formStep_of_leaves (fun _ => mem_windowKeys) h hfs

theorem formed_of_lathe {n : Nat} {fs : List Fld} {d e : Dev} (h : LatheStep n fs d e) (hfs : ∀ f ∈ fs, f.key ∉ formKeys) : Formed d e := by
  have hf := h.rest.fus
  exact ⟨by rw [hf], by rw [hf], by rw [hf], by rw [hf], h.rest.tim, fun f hk => h.get f (formKeys_book _ (mem_windowKeys hk)) fun hmem => by
    obtain ⟨r, hr, heq⟩ := List.mem_map.mp hmem
    exact hfs r hr (heq ▸ hk)⟩

/-- A field of the views, or beyond the fusion unit. -/
theorem formed_high {f : Fld} (h : 0x801000 * 64 ≤ f.key) : f.key ∉ formKeys := fun hk => apart_high h (mem_windowKeys hk)

theorem formed_put_high {f : Fld} (h : 0x801000 * 64 ≤ f.key) (v : Nat) (d : Dev) : Formed d (put f v d) := formStep_put (formed_high h) v d

/-- Entries of the table of owners. -/
theorem formed_own {f : Fld} (h : f.key % 64 = 6 ∨ f.key % 64 = 7) : f.key ∉ formKeys := fun hk => by
  have hlow : ∀ k ∈ formKeys, k % 64 ≠ 6 ∧ k % 64 ≠ 7 := by decide
  have := hlow _ hk
  omega

theorem formed_event_high {seq : Fld} {fs : List Fld} (code : Nat) (h : ∀ f ∈ seqAnd seq fs, 0x801000 * 64 ≤ f.key) (d : Dev) : Formed d (event code seq fs d) :=
  formed_of_leaves (leaves_event ..) fun f hf => formed_high (h f hf)

theorem formStep_errEvent (b : Nat) (d : Dev) : FormStep windowKeys d (errEvent b d) := by
  have h := formStep_of_leaves (ks := windowKeys) (fun _ h => h) ((errEvent_upto b d).leaves d.snap) (by decide)
  exact ⟨h.issued, h.queue, h.count, h.blk, h.tim, h.get⟩

theorem formed_dramWrite (a : Nat) (bs : List Byte) (d : Dev) : Formed d (dramWrite a bs d) := by
  rw [dramWrite_eq]
  exact formStep_of_same rfl rfl rfl

theorem formed_meterUser (u n : Nat) (d : Dev) : Formed d (meterUser u n d) := formStep_of_same rfl rfl rfl

theorem formed_recPut (l : TapLine) (d : Dev) : Formed d (recPut l d) := formStep_of_same rfl rfl rfl

theorem formed_streamPut (ch : Nat) (bs : List Byte) (d : Dev) : Formed d (streamPut ch bs d) :=
  formed_of_lathe (latheStep_streamPut 0 ch bs d) (by decide)

/-! ## Block boundaries -/

theorem formed_boundarySwap {u : TblUnit} (h : (tblPend u).key ∉ formKeys) (d : Dev) : Formed d (boundarySwap u d) :=
  formed_of_lathe (latheStep_boundarySwap 0 u d) (by simpa using h)

theorem formed_blockFields (lo n : Nat) (d : Dev) : Formed d (applyPend (inRange lo n .block) d) :=
  formStep_applyPend (fun _ hk => inRange_block hk lo n) d

theorem formed_lineFields (lo n : Nat) (d : Dev) : Formed d (applyPend (inRange lo n .line) d) :=
  formStep_applyPend (fun _ hk => inRange_line hk lo n) d

theorem formed_clsBoundary (n : Nat) (d : Dev) : Formed d (clsBoundary n d) := by
  unfold clsBoundary
  dsimp only
  have h := (formed_boundarySwap (u := .cls) (by decide) d).trans (formed_blockFields 0xc00000 0x1000 _)
  generalize applyPend _ _ = e at h ⊢
  exact h.trans (formStep_ite (formStep_refl ..) (formStep_of_same rfl rfl rfl))

theorem formed_unitBoundary (code : Nat) (d : Dev) : Formed d (unitBoundary code d) := by
  unfold unitBoundary
  split
  · exact formed_blockFields ..
  · exact formStep_refl ..

theorem formed_returnStatic (k : Nat) (d : Dev) : Formed d (returnStatic k d) := by
  unfold returnStatic
  dsimp only
  have h : Formed d { d with rtHold := KMap.put (fun _ => none) d.rtHold k none, rtFree := d.rtFree.filter (· != k) } := formStep_of_same rfl rfl rfl
  generalize ({ d with rtHold := _, rtFree := _ } : Dev) = e at h ⊢
  split
  · next n _ =>
    have hkey {lo w : Nat} : (Fld.key ⟨0x1000 + 0x4 * n, lo, w⟩) % 64 = lo % 64 := by
      simp only [Fld.key]
      omega
    exact h.trans ((formStep_put (f := R.TOP.OWN.HELD n) (formed_own (.inr hkey)) 1 e).trans
      (formStep_put (f := R.TOP.OWN.DENIED n) (formed_own (.inl hkey)) 0 _))
  · exact h

theorem formed_compBoundary (n : Nat) (d : Dev) : Formed d (compBoundary n d) := by
  unfold compBoundary returnAll fusBoundary
  have hfus := (formed_boundarySwap (u := .fus) (by decide) d).trans (formed_blockFields 0x800000 0x2000 _)
  generalize applyPend _ _ = e at hfus ⊢
  have hcls := hfus.trans (formStep_when (c := d.on R.CLS.CTL.EN) (formed_clsBoundary n e))
  generalize when (d.on R.CLS.CTL.EN) _ e = e at hcls ⊢
  have hunit := hcls.trans (formStep_each (xs := [7, 14, 15]) (fun c _ d => formed_unitBoundary c d) e)
  exact hunit.trans (formStep_each (fun k _ d => formed_returnStatic k d) _)

/-! ## The classifier -/

theorem formed_clsPerf (code n : Nat) (d : Dev) : Formed d (clsPerf code n d) := formed_of_leaves (leaves_clsPerf ..) (by simp)

theorem formed_clsStat (c n : Nat) (d : Dev) : Formed d (clsStat c n d) :=
  formed_put_high (f := R.CLS.STAT.COUNT c) (by simp only [Fld.key, R.CLS.STAT.COUNT]; omega) ..

theorem formed_clsCount (code n c k : Nat) (d : Dev) : Formed d (clsPerf code n (clsStat c k d)) := (formed_clsStat ..).trans (formed_clsPerf ..)

theorem formed_clsEvent {f : Fld} (hf : f ∈ [R.CLS.STATUS.JRN_OVR, R.CLS.STATUS.TAP_DROP, R.CLS.STATUS.RUN_CAP]) (d : Dev) :
    Formed d (event 12 R.CLS.STATUS.SEQ [f] d) := by
  refine formed_event_high 12 (fun g hg => ?_) d
  simp only [seqAnd, List.mem_cons, List.not_mem_nil, or_false] at hg hf
  rcases hg with rfl | rfl
  · decide
  · rcases hf with rfl | rfl | rfl <;> decide

theorem formed_logEv (code inst sev data : Nat) (d : Dev) : Formed d (logEv code inst sev data d) := formed_of_leaves (leaves_logEv ..) (by simp)

theorem formed_setGou (g : Nat) (x : GouS) (d : Dev) : Formed d (setGou g x d) := formStep_of_same rfl rfl rfl
theorem formed_setStrip (s : Nat) (x : StripS) (d : Dev) : Formed d (setStrip s x d) := formStep_of_same rfl rfl rfl

/-- A register of a gouge. -/
theorem high_gouge (o lo w g : Nat) (ho : 0x1000000 ≤ o) : 0x801000 * 64 ≤ (Fld.key ⟨o + 0x2000 * g, lo, w⟩) := by
  simp only [Fld.key]
  omega

theorem formed_showPtrs (s : Nat) (d : Dev) : Formed d (showPtrs s d) := by
  unfold showPtrs
  have hkey {lo w : Nat} : 0x801000 * 64 ≤ (Fld.key ⟨0xc01000 + 0x8 * s, lo, w⟩) := by
    simp only [Fld.key]
    omega
  exact (formed_put_high (f := R.CLS.JRN_PTR.KEEP s) hkey ..).trans (formed_put_high (f := R.CLS.JRN_PTR.WR s) hkey ..)

theorem formed_setDone (s lsn : Nat) (d : Dev) : Formed d (setDone s lsn d) := by
  unfold setDone
  refine FormStep.trans ?_ (formed_put_high (f := R.MRG.STRIP_DONE.LSN s) (by simp only [Fld.key, R.MRG.STRIP_DONE.LSN]; omega) ..)
  exact formStep_of_same rfl rfl rfl

theorem formed_idleLine (g : Nat) (d : Dev) : Formed d (idleLine g d) := formed_setGou ..

theorem formed_journalOnlyCount (r : GRec) (d : Dev) : Formed d (journalOnlyCount r d) := by
  cases r with
  | run x => exact formed_clsCount ..
  | fin f => exact formed_clsPerf ..

theorem formed_dropRec (s g : Nat) (r : GRec) (d : Dev) : Formed d (dropRec s g r d) := by
  unfold dropRec
  dsimp only
  have h : Formed d (when (!(d.stripS s).dropping) (capOpen g) d) := formStep_when (formed_setGou ..)
  generalize when (!(d.stripS s).dropping) (capOpen g) d = e at h ⊢
  have hs := h.trans (formed_setStrip s { e.stripS s with dropping := true } e)
  cases r with
  | run x => exact hs.trans (formed_clsStat ..)
  | fin f => exact hs

theorem formed_pushFifo (g idx : Nat) (r : GRec) (d : Dev) : Formed d (pushFifo g idx r d) := by
  unfold pushFifo showFifo peak
  dsimp only
  have h := formed_setGou g { d.gouS g with fifo := (d.gouS g).fifo ++ [(idx, r)], idle := 0, gatedFor := 0 } d
  generalize setGou g _ d = e at h ⊢
  have hw := h.trans (formStep_when (c := e.get (R.GGE.STATUS.STATE g) == 2) (formed_put_high (f := R.GGE.STATUS.STATE g) (high_gouge _ _ _ g (by decide)) 1 e))
  generalize when (e.get (R.GGE.STATUS.STATE g) == 2) _ e = e at hw ⊢
  have hl := hw.trans (formed_put_high (f := R.GGE.FIFO.LEVEL g) (high_gouge _ _ _ g (by decide)) (e.gouS g).fifo.length e)
  generalize put (R.GGE.FIFO.LEVEL g) _ e = k at hl ⊢
  exact hl.trans (formStep_ite (formed_put_high (f := R.GGE.FIFO.PEAK g) (high_gouge _ _ _ g (by decide)) ..) (formStep_refl ..))

/-- A record that spills to the journal. -/
theorem formed_spill (g idx : Nat) (x : GouS) (r : GRec) (d : Dev) :
    Formed d (journalOnlyCount r (when (d.get (R.GGE.STATUS.STATE g) != 3) (put (R.GGE.STATUS.STATE g) 6) (setGou g { x with spill := true, rd := idx } d))) :=
  ((formed_setGou ..).trans (formStep_when (formed_put_high (high_gouge _ _ _ g (by decide)) ..))).trans (formed_journalOnlyCount ..)

theorem formed_deliver (s idx : Nat) (r : GRec) (d : Dev) : Formed d (deliver s idx r d) := by
  unfold deliver
  dsimp only
  split
  · exact formed_journalOnlyCount ..
  · next g _ =>
    refine formStep_ite (formed_journalOnlyCount ..) (formStep_ite (formStep_ite ?_ (formed_dropRec ..)) ?_)
    · exact (formed_setGou ..).trans (formed_journalOnlyCount ..)
    · split
      · exact ((formed_setGou ..).trans (formed_idleLine ..)).trans (formed_setDone ..)
      · refine formStep_ite (formStep_ite (formed_spill ..) (formed_pushFifo ..)) (formStep_ite (formed_dropRec ..) ?_)
        exact (formed_setStrip ..).trans (formed_pushFifo ..)

theorem formed_noteNoJournal (d : Dev) : Formed d (noteNoJournal d) := by
  unfold noteNoJournal
  refine formStep_ite (formStep_of_same rfl rfl rfl) (formStep_ite (formStep_refl ..) ?_)
  refine FormStep.trans ?_ (formed_logEv ..)
  refine FormStep.trans ?_ (formed_clsEvent (f := R.CLS.STATUS.JRN_OVR) (by simp) _)
  exact formStep_of_same rfl rfl rfl

theorem formed_lostEvent (g : Nat) (d : Dev) : Formed d (event 13 (R.GGE.STATUS.SEQ g) [R.GGE.STATUS.JRN_LOST g] d) :=
  formed_event_high 13 (fun f hf => by
    simp only [seqAnd, List.mem_cons, List.not_mem_nil, or_false] at hf
    rcases hf with rfl | rfl <;> exact high_gouge _ _ _ g (by decide)) d

theorem formed_appendRec (s : Nat) (bs : List Byte) (d : Dev) : Formed d (appendRec s bs d) := by
  unfold appendRec
  dsimp only
  refine FormStep.trans ?_ (formed_showPtrs ..)
  refine FormStep.trans ?_ (formed_clsPerf ..)
  refine FormStep.trans ?_ (formed_setStrip ..)
  refine FormStep.trans (FormStep.trans ?_ (formStep_when (formed_clsStat ..))) (formStep_when ?_)
  · exact (formed_dramWrite ..).trans (formed_meterUser ..)
  · refine FormStep.trans (formed_clsEvent (f := R.CLS.STATUS.JRN_OVR) (by simp) _) (FormStep.trans ?_ (formed_logEv ..))
    generalize event 12 R.CLS.STATUS.SEQ _ _ = k
    split
    · exact formed_lostEvent ..
    · exact formStep_refl ..

theorem formed_distribute (s : Nat) (r : GRec) (d : Dev) : Formed d (distribute s r d) := by
  unfold distribute
  dsimp only
  have h := formed_noteNoJournal d
  generalize noteNoJournal d = e at h ⊢
  have hj := h.trans (formStep_ite (c := e.jrnOk = true) (formStep_each (fun bs _ d => formed_appendRec s bs d) (xs := grecBytes s r) e) (formStep_refl ..))
  generalize (if e.jrnOk = true then _ else e) = k at hj ⊢
  exact (hj.trans (formed_deliver ..)).trans (formed_showPtrs ..)

theorem formed_emitStrip (l : CompLine) (nc s : Nat) (cs : List (Px × Nat)) (st : Nat × Bool) (d : Dev) : Formed d (emitStrip l nc s cs st d).1 := by
  unfold emitStrip
  dsimp only
  refine FormStep.trans ?_ (formed_distribute ..)
  refine FormStep.trans ?_ (formed_clsPerf ..)
  refine FormStep.trans ?_ (formStep_each (fun _ _ _ => formed_distribute ..) _)
  exact (formed_clsCount ..).trans (formed_clsCount ..)

theorem emitStrips_succ (l : CompLine) (nc k : Nat) : emitStrips l nc (Nat.succ k) = fun s cs st d =>
    emitStrips l nc k (s + 1) (cs.drop (d.stripCols s)) (emitStrip l nc s (cs.take (d.stripCols s)) st d).2
      (emitStrip l nc s (cs.take (d.stripCols s)) st d).1 := rfl

theorem formed_emitStrips (l : CompLine) (nc k s : Nat) (cs : List (Px × Nat)) (st : Nat × Bool) (d : Dev) : Formed d (emitStrips l nc k s cs st d).1 := by
  induction k generalizing s cs st d with
  | zero => exact formStep_refl formKeys d
  | succ k ih =>
    rw [emitStrips_succ]
    exact (formed_emitStrip ..).trans (ih ..)

/-! ## The tile history and tap T5 -/

theorem formed_setCls (x : ClsS) (d : Dev) : Formed d { d with cls := x } := formStep_of_same rfl rfl rfl

theorem formed_holdTiles (d : Dev) : Formed d (holdUser 4 d) := by
  have h : Formed d { d with yielding := setFlag 4 true d.yielding } := formStep_of_same rfl rfl rfl
  exact h.trans (formed_of_leaves (leaves_event 0 R.TOP.DRAM_YIELD.SEQ [R.TOP.DRAM_YIELD.TILES] _) (by decide))

theorem formed_writeSlice (n t : Nat) (bs : List Byte) (d : Dev) : Formed d (writeSlice n t bs d) := by
  unfold writeSlice
  dsimp only
  refine formStep_ite (formed_clsCount ..) (formStep_ite ?_ ?_)
  · have h := formStep_when (c := d.yields 4) (formed_holdTiles d)
    generalize when (d.yields 4) (holdUser 4) d = e at h ⊢
    exact (h.trans (formed_setCls ..)).trans (formed_clsCount ..)
  · refine FormStep.trans ?_ (formed_clsCount ..)
    refine FormStep.trans ?_ (formed_setCls ..)
    refine FormStep.trans ?_ (formed_meterUser ..)
    exact (formed_dramWrite ..).trans (formed_dramWrite ..)

theorem formed_tileColumn (n : Nat) (fg : List Nat) (bytes : List (List Byte)) (t : Nat) (d : Dev) : Formed d (tileColumn n fg bytes t d) := by
  unfold tileColumn
  dsimp only
  have hslice (l : Nat) (d : Dev) : Formed d
      (match d.cls.hist.find? (fun h => h.1 == l) with
      | some h => if d.tileHas l t then d else clsPerf 8 1 (clsStat 6 1 (writeSlice l t (nth [] h.2 t) d))
      | none => d) := by
    split
    · exact formStep_ite (formStep_refl ..) ((formed_writeSlice ..).trans (formed_clsCount ..))
    · exact formStep_refl ..
  generalize hbefore : (if (_ && _) = true then (_ : Dev) else d) = e
  have h : Formed d e := by
    rw [← hbefore]
    exact formStep_ite (formStep_each (fun l _ d => hslice l d) d) (formStep_refl ..)
  generalize hnear : (if fg.any _ = true then (_ : Dev) else e) = k
  have hk : Formed e k := by
    rw [← hnear]
    exact formStep_ite (formed_setCls ..) (formStep_refl ..)
  exact (h.trans hk).trans (formStep_ite (formed_writeSlice ..) (formStep_refl ..))

theorem formed_tileStore (n nc : Nat) (cs : List (Px × Nat)) (d : Dev) : Formed d (tileStore n nc cs d) := by
  unfold tileStore
  dsimp only
  refine formStep_ite (FormStep.trans (formStep_each (fun t _ d => formed_tileColumn ..) _) (formed_setCls ..)) (formStep_refl ..)

theorem formed_tapT5 (l : CompLine) (cs : List Nat) (d : Dev) : Formed d (tapT5 l cs d) := by
  unfold tapT5
  dsimp only
  generalize htap : (if d.recTakes 5 = true then (_ : Dev) else d) = e
  have h : Formed d e := by
    rw [← htap]
    exact formStep_ite (formed_recPut ..) (formStep_refl ..)
  refine h.trans ?_
  refine formStep_ite (formStep_ite (formed_setCls ..) ?_) (formStep_refl ..)
  refine FormStep.trans (formed_setCls ..) (formStep_ite (formed_streamPut ..) ?_)
  exact (formed_clsEvent (f := R.CLS.STATUS.TAP_DROP) (by simp) _).trans (formed_clsCount ..)

theorem formed_classifyLine (l : CompLine) (d : Dev) : Formed d (classifyLine l d) := by
  unfold classifyLine
  dsimp only
  refine formStep_ite (formStep_refl ..) ?_
  refine FormStep.trans ?_ (formed_tapT5 ..)
  refine FormStep.trans ?_ (formed_tileStore ..)
  refine FormStep.trans ?_ (formStep_when ((formed_clsEvent (f := R.CLS.STATUS.RUN_CAP) (by simp) _).trans (formed_clsStat ..)))
  refine FormStep.trans ?_ (formed_emitStrips ..)
  refine FormStep.trans ?_ (formed_setCls ..)
  have hslot (cat k : Nat) (hc : cat < 16) (d : Dev) : Formed d (slot 12 0xc00000 cat k d) := formed_of_leaves (leaves_slot 12 perfBase_cls hc k d) (by simp)
  refine FormStep.trans ?_ (hslot 1 _ (by decide) _)
  refine FormStep.trans ?_ (hslot 0 _ (by decide) _)
  refine FormStep.trans ?_ (formed_clsPerf ..)
  refine FormStep.trans ?_ (formed_clsCount ..)
  exact FormStep.trans (formed_setCls ..) (formed_clsCount ..)

end Sys2Proof.Proofs
end

section
/-!
Forming composite lines: one line takes its place at the head of the list, and the lines behind it that need nothing more follow (R208
to R218).
-/
namespace Sys2Proof.Proofs
open Sys2Proof Sys2Proof.Machine

theorem formed_viewAtForm (n v : Nat) (d : Dev) : Formed d (viewAtForm n v d) := by
  unfold viewAtForm
  dsimp only
  split
  · exact formStep_ite (formStep_setView ..) (formStep_setView ..)
  · exact formStep_setView ..

theorem formed_fusCount {c : Nat} (hc : c < 16) (h1 : c ≠ 1) (code n : Nat) (d : Dev) : Formed d (fusPerf code n (fusStat c n d)) :=
  formed_of_window (formStep_counted hc h1 code n d)

/-- An event of a view's status. -/
theorem formed_viewEvent (v : Nat) {f : Fld} (hf : f ∈ [R.FUS.VIEW_STATUS.ABSENT v, R.FUS.VIEW_STATUS.HELD_OUT v]) (d : Dev) :
    Formed d (event 11 (R.FUS.VIEW_STATUS.SEQ v) [f] d) := by
  refine formed_event_high 11 (fun g hg => ?_) d
  simp only [seqAnd, List.mem_cons, List.not_mem_nil, or_false] at hg hf
  have hview {lo w : Nat} : 0x801000 * 64 ≤ (Fld.key ⟨0x801024 + 0x40 * v, lo, w⟩) := by
    simp only [Fld.key]
    omega
  rcases hg with rfl | rfl
  · exact hview
  · rcases hf with rfl | rfl <;> exact hview

theorem formed_noteAbsent (v : Nat) (d : Dev) : Formed d (noteAbsent v d) := by
  unfold noteAbsent
  extract_lets x e m
  have he : Formed d e := (formed_viewEvent v (by simp) d).trans (formed_fusCount (by decide) (by decide) ..)
  refine formStep_ite (formStep_refl ..) (formStep_ite ?_ he)
  refine formStep_ite (he.trans (formStep_when (formed_fusCount (by decide) (by decide) ..))) (he.trans (formStep_when (formed_viewEvent v (by simp) _)))

theorem formed_tapT4 (l : CompLine) (nc : Nat) (d : Dev) : Formed d (tapT4 l nc d) := by
  unfold tapT4
  dsimp only
  generalize htap : (if d.recTakes 4 = true then (_ : Dev) else d) = e
  have h : Formed d e := by
    rw [← htap]
    exact formStep_ite (formed_recPut ..) (formStep_refl ..)
  have hset (e : Dev) (x : FusS) (hx : x.issued = e.fus.issued ∧ x.queue = e.fus.queue ∧ x.count = e.fus.count ∧ x.blk = e.fus.blk) :
      Formed e { e with fus := x } := ⟨hx.1, hx.2.1, hx.2.2.1, hx.2.2.2, rfl, fun _ _ => rfl⟩
  refine h.trans (formStep_ite (formStep_ite (hset e { e.fus with tapN := e.fus.tapN + 1 } ⟨rfl, rfl, rfl, rfl⟩) ?_) (formStep_refl ..))
  refine FormStep.trans (hset e { e.fus with tapN := 0, tapSeq := (e.fus.tapSeq + 1) % 2 ^ 32 } ⟨rfl, rfl, rfl, rfl⟩) (formStep_ite (formed_streamPut ..) ?_)
  refine FormStep.trans (formed_of_leaves (leaves_event 11 R.FUS.STATUS.SEQ [R.FUS.STATUS.TAP_DROP] _) (by decide)) ?_
  exact formed_fusCount (by decide) (by decide) ..

/-- Why a line was formed shows in the status and the counts (R211, R214). -/
def formNoted (why : Why) (d : Dev) : Dev :=
  match why with
  | .whole => d
  | .deadline => errEvent 4 (fusPerf 2 1 (fusStat 1 1 (event 11 R.FUS.STATUS.SEQ [R.FUS.STATUS.FORCED] d)))
  | .buffer => fusPerf 3 1 (fusStat 2 1 (event 11 R.FUS.STATUS.SEQ [R.FUS.STATUS.FORCED] d))

/-- From `d` to `e` line `n` was formed: it has left the list, is counted, and is the last line formed. -/
structure Forms (why : Why) (n : Nat) (rest : List (Nat × Nat)) (first : Bool) (d e : Dev) : Prop where
  issued : e.fus.issued = rest
  queue : e.fus.queue = d.fus.queue
  count : e.fus.count = d.fus.count + 1
  blk : e.fus.blk = if first then 1 else d.fus.blk + 1
  tim : e.tim = d.tim
  lsn : e.get R.FUS.LAST_LSN.LSN = n % 2 ^ 32
  dt : e.get R.FUS.LAST_DT.DT = d.dt % 2 ^ 64
  whole : why = .whole → e.get R.FUS.STATUS.FORCED = d.get R.FUS.STATUS.FORCED ∧ e.get (R.FUS.STAT.COUNT 1) = d.get (R.FUS.STAT.COUNT 1)
  forced : why = .deadline → e.on R.FUS.STATUS.FORCED = true ∧ Counted (R.FUS.STAT.COUNT 1) 1 d e

section
variable {why : Why} {n : Nat} {rest : List (Nat × Nat)} {first : Bool} {d e g : Dev}

theorem on_of_get {f : Fld} (h : e.get f = d.get f) : e.on f = d.on f := by
  rw [Dev.on, h, Dev.on]

theorem Forms.after (h : Forms why n rest first d e) (h' : Formed e g) : Forms why n rest first d g :=
  have hforced := h'.get R.FUS.STATUS.FORCED (by decide)
  have hcount := h'.get (R.FUS.STAT.COUNT 1) (by decide)
  { issued := h'.issued.trans h.issued, queue := h'.queue.trans h.queue, count := h'.count.trans h.count, blk := h'.blk.trans h.blk
    tim := h'.tim.trans h.tim, lsn := (h'.get R.FUS.LAST_LSN.LSN (by decide)).trans h.lsn, dt := (h'.get R.FUS.LAST_DT.DT (by decide)).trans h.dt
    whole := fun hw => ⟨hforced.trans (h.whole hw).1, hcount.trans (h.whole hw).2⟩
    forced := fun hw => ⟨(on_of_get hforced).trans (h.forced hw).1, hcount.trans (h.forced hw).2⟩ }

theorem Forms.before (h : Forms why n rest first e g) (h' : Formed d e) : Forms why n rest first d g :=
  have hforced := h'.get R.FUS.STATUS.FORCED (by decide)
  have hcount := h'.get (R.FUS.STAT.COUNT 1) (by decide)
  { issued := h.issued, queue := h.queue.trans h'.queue, count := h'.count ▸ h.count, blk := h'.blk ▸ h.blk, tim := h.tim.trans h'.tim
    lsn := h.lsn, dt := h'.dt ▸ h.dt, whole := fun hw => ⟨(h.whole hw).1.trans hforced, (h.whole hw).2.trans hcount⟩
    forced := fun hw => ⟨(h.forced hw).1, by
      have hc := (h.forced hw).2
      rwa [Counted, hcount] at hc⟩ }

end

/-! ## One line -/

/-- The line leaves the list, and counts in its block. -/
def compositeTaken (rest : List (Nat × Nat)) (first : Bool) (d : Dev) : Dev :=
  { d with fus := { d.fus with issued := rest, count := d.fus.count + 1, blk := if first then 1 else d.fus.blk + 1 } }

/-- The line and its time are shown as the last ones. -/
def compositeShown (n : Nat) (d : Dev) : Dev := puts [(R.FUS.LAST_LSN.LSN, n), (R.FUS.LAST_DT.DT, d.dt)] d

/-- The reason of a line is noted from `d` to `e`; the pieces that wait, the counts and DT stay. -/
structure Reasoned (why : Why) (d e : Dev) : Prop where
  step : FormStep [] d e
  whole : why = .whole → e.get R.FUS.STATUS.FORCED = d.get R.FUS.STATUS.FORCED ∧ e.get (R.FUS.STAT.COUNT 1) = d.get (R.FUS.STAT.COUNT 1)
  forced : why = .deadline → e.on R.FUS.STATUS.FORCED = true ∧ Counted (R.FUS.STAT.COUNT 1) 1 d e

theorem Reasoned.after {why : Why} {d e g : Dev} (h : Reasoned why d e) (h' : Formed e g) : Reasoned why d g :=
  have hforced := h'.get R.FUS.STATUS.FORCED (by decide)
  have hcount := h'.get (R.FUS.STAT.COUNT 1) (by decide)
  ⟨h.step.trans (h'.narrow (by simp)), fun hw => ⟨hforced.trans (h.whole hw).1, hcount.trans (h.whole hw).2⟩,
    fun hw => ⟨(on_of_get hforced).trans (h.forced hw).1, hcount.trans (h.forced hw).2⟩⟩

/-- The FORCED event changes only its register. -/
theorem forcedEvent_step (d : Dev) : FormStep [] d (event 11 R.FUS.STATUS.SEQ [R.FUS.STATUS.FORCED] d) :=
  formStep_of_leaves (by simp) (leaves_event ..) (by simp)

theorem formNoted_deadline (d : Dev) : Reasoned .deadline d (formNoted .deadline d) := by
  have hev := forcedEvent_step d
  have hon : (event 11 R.FUS.STATUS.SEQ [R.FUS.STATUS.FORCED] d).on R.FUS.STATUS.FORCED = true := by
    rw [Dev.on, get_event_flag (f := R.FUS.STATUS.FORCED) (by decide) (by decide) (by decide)]
    rfl
  have hkept : (event 11 R.FUS.STATUS.SEQ [R.FUS.STATUS.FORCED] d).get (R.FUS.STAT.COUNT 1) = d.get (R.FUS.STAT.COUNT 1) :=
    (leaves_event ..).get (by decide) (by decide)
  unfold formNoted
  dsimp only
  generalize event 11 R.FUS.STATUS.SEQ [R.FUS.STATUS.FORCED] d = e at hev hon hkept ⊢
  have hstat : FormStep [] e (fusStat 1 1 e) := formStep_put (by simp) _ e
  have hforced : (fusStat 1 1 e).get R.FUS.STATUS.FORCED = e.get R.FUS.STATUS.FORCED := get_put_ne (by decide) _ e
  have hcount : (fusStat 1 1 e).get (R.FUS.STAT.COUNT 1) = (e.get (R.FUS.STAT.COUNT 1) + 1) % 2 ^ 32 := get_put_self ..
  generalize fusStat 1 1 e = k at hstat hforced hcount ⊢
  have hout : Formed k (errEvent 4 (fusPerf 2 1 k)) := formed_of_window ((formStep_fusPerf 2 1 k).trans (formStep_errEvent 4 _))
  have hr : Reasoned .deadline d k := ⟨hev.trans hstat, (fun h => nomatch h), fun _ => ⟨(on_of_get hforced).trans hon, by
    rw [Counted, hcount, hkept]
    rfl⟩⟩
  exact hr.after hout

theorem formNoted_reasoned (why : Why) (d : Dev) : Reasoned why d (formNoted why d) := by
  cases why with
  | whole => exact ⟨formStep_refl .., fun _ => ⟨rfl, rfl⟩, fun h => nomatch h⟩
  | deadline => exact formNoted_deadline d
  | buffer =>
    refine ⟨?_, (fun h => nomatch h), fun h => nomatch h⟩
    refine (forcedEvent_step d).trans ?_
    exact (formStep_put (by simp) _ _).trans ((formStep_fusPerf 3 1 _).narrow (by simp))

theorem forms_shown {why : Why} {n : Nat} {rest : List (Nat × Nat)} {first : Bool} {d e g : Dev} (h : Reasoned why d e)
    (h' : Formed (compositeTaken rest first e) g) : Forms why n rest first d (compositeShown n g) := by
  have hkept : ∀ f : Fld, f.key ≠ R.FUS.LAST_LSN.LSN.key → f.key ≠ R.FUS.LAST_DT.DT.key → (compositeShown n g).get f = g.get f := fun f h1 h2 =>
    get_puts_ne _ g (by simpa using ⟨h1, h2⟩)
  have hforced := (hkept R.FUS.STATUS.FORCED (by decide) (by decide)).trans (h'.get R.FUS.STATUS.FORCED (by decide))
  have hcount := (hkept (R.FUS.STAT.COUNT 1) (by decide) (by decide)).trans (h'.get (R.FUS.STAT.COUNT 1) (by decide))
  have hdt : g.dt = d.dt := by rw [h'.dt, ← h.step.dt, Dev.dt, Dev.dt, compositeTaken]
  exact
    { issued := h'.issued, queue := h'.queue.trans h.step.queue
      count := h'.count.trans (congrArg (· + 1) h.step.count)
      blk := h'.blk.trans (by rw [compositeTaken, h.step.blk])
      tim := h'.tim.trans h.step.tim
      lsn := (get_put_ne (by decide) _ _).trans (get_put_self ..)
      dt := (get_put_self ..).trans (by rw [hdt]; rfl)
      whole := fun hw => ⟨hforced.trans (h.whole hw).1, hcount.trans (h.whole hw).2⟩
      forced := fun hw => ⟨(on_of_get hforced).trans (h.forced hw).1, hcount.trans (h.forced hw).2⟩ }

theorem formed_fusSlot {cat : Nat} (hc : cat < 16) (k : Nat) (d : Dev) : Formed d (slot 11 0x800000 cat k d) :=
  formed_of_leaves (leaves_slot 11 perfBase_fus hc k d) (by simp)

/-- Forming takes the line at the head of the list, and shows it as the last one (R211 to R218). -/
theorem formLine_forms (why : Why) {n e : Nat} {rest : List (Nat × Nat)} {d : Dev} (h : d.fus.issued = (n, e) :: rest) :
    Forms why n rest d.atBoundary d (formLine why d) := by
  unfold formLine
  rw [h]
  dsimp -zeta only
  extract_lets window first bounded lined nc fv viewed forced hold res px r replay l absent nsub nfall missed fallen paired noted seamed src taken wl src' counted
    dropped shown stat slots
  have hfirst : first = d.atBoundary := atBoundary_seamWindow d
  have hlined : Formed d lined :=
    ((formed_of_window (formStep_seamWindow d)).trans (formStep_when (formed_compBoundary n window))).trans (formed_lineFields ..)
  have hpaired : Formed lined paired := by
    have htake : Formed viewed (when (!l.pad.isEmpty) takeFree viewed) := formStep_when (formStep_of_same rfl rfl rfl)
    have habsent : Formed lined absent :=
      ((formStep_each (fun v _ d => formed_viewAtForm n v d) lined).trans htake).trans (formStep_each (fun v _ d => formed_noteAbsent v d) _)
    have hfallen : Formed absent fallen :=
      (formed_fusCount (c := 6) (by decide) (by decide) 7 nsub absent).trans (formed_fusCount (c := 7) (by decide) (by decide) 8 nfall missed)
    exact (habsent.trans hfallen).trans (formed_of_window (formStep_fusStat (c := 8) (by decide) (by decide) _ fallen))
  have hnoted : Reasoned why paired noted := formNoted_reasoned why paired
  have hseamed : Formed noted seamed :=
    formStep_ite (formStep_each (fun ab _ d => formed_of_window (formStep_seamLine n ab d)) noted) (formStep_refl ..)
  have hdropped : Formed (compositeTaken rest first seamed) dropped := by
    have hcounted : Formed taken counted := formStep_ite ⟨rfl, rfl, rfl, rfl, rfl, fun _ _ => rfl⟩ ⟨rfl, rfl, rfl, rfl, rfl, fun _ _ => rfl⟩
    exact hcounted.trans (formStep_each (fun v _ d => formStep_setView ..) counted)
  have hshown : Forms why n rest first paired shown := forms_shown (hnoted.after hseamed) hdropped
  have hslots : Formed shown slots :=
    ((formed_fusCount (c := 0) (by decide) (by decide) 1 1 shown).trans (formed_fusSlot (by decide) ..)).trans (formed_fusSlot (by decide) ..)
  rw [← hfirst]
  exact ((hshown.before (hlined.trans hpaired)).after hslots).after ((formed_tapT4 ..).trans (formed_classifyLine ..))

/-- Settles O40: forming is `Forms`, whatever its reason. -/
theorem formedLinesAreCounted : Obligations.FormedLinesAreCounted := by
  unfold Obligations.FormedLinesAreCounted
  intro why x rest d h
  have hf := formLine_forms why (n := x.1) (e := x.2) (h : d.fus.issued = (x.1, x.2) :: rest)
  exact ⟨hf.issued, hf.count, hf.blk⟩

/-! ## The lines that need nothing more -/

/-- From `d` to `e` some lines at the head of the list were formed because they needed nothing more. -/
structure Followed (d e : Dev) : Prop where
  lines : ∃ j ≤ d.fus.issued.length, e.fus.issued = d.fus.issued.drop j ∧ e.fus.count = d.fus.count + j
  queue : e.fus.queue = d.fus.queue
  tim : e.tim = d.tim
  forced : e.get R.FUS.STATUS.FORCED = d.get R.FUS.STATUS.FORCED
  stat : e.get (R.FUS.STAT.COUNT 1) = d.get (R.FUS.STAT.COUNT 1)
  dt : d.get R.FUS.LAST_DT.DT = d.dt % 2 ^ 64 → e.get R.FUS.LAST_DT.DT = d.dt % 2 ^ 64

theorem followed_refl (d : Dev) : Followed d d := ⟨⟨0, Nat.zero_le _, rfl, rfl⟩, rfl, rfl, rfl, rfl, id⟩

theorem formReady_followed (k : Nat) (d : Dev) : Followed d (formReady k d) := by
  induction k generalizing d with
  | zero => exact followed_refl d
  | succ k ih =>
    rw [formReady]
    split
    · exact followed_refl d
    · next n e rest h =>
      split
      · have hf := formLine_forms .whole h
        generalize formLine .whole d = g at hf ⊢
        obtain ⟨j, hj, hissued, hcount⟩ := (ih g).lines
        obtain ⟨hforced, hstat⟩ := hf.whole rfl
        have hdt : g.dt = d.dt := by rw [Dev.dt, hf.tim, Dev.dt]
        refine ⟨⟨j + 1, ?_, ?_, ?_⟩, (ih g).queue.trans hf.queue, (ih g).tim.trans hf.tim, (ih g).forced.trans hforced, (ih g).stat.trans hstat, fun _ => ?_⟩
        · rw [h, List.length_cons, ← hf.issued]
          exact Nat.succ_le_succ hj
        · rw [hissued, hf.issued, h, List.drop_succ_cons]
        · rw [hcount, hf.count]
          omega
        · rw [← hdt]
          exact (ih g).dt (by rw [hf.dt, hdt])
      · exact followed_refl d

end Sys2Proof.Proofs
end

section
/-!
The deadline of a composite line (R211): the lines on their way reach their ports first, also a port that the device does not have.
-/
namespace Sys2Proof.Proofs
open Sys2Proof Sys2Proof.Machine

/-- A command of the image path without a host error in force. -/
theorem imageCmd_completes {c : Instr} {f : Mem → Dev → Dev} {s : State} {d : Dev} {post : State → Prop} (hc : exec c s = imageCmd f s)
    (hok : imageErr s.dev = none) (hd : f s.mem s.dev = d) (h : post (s.after d)) : Completes c s post := by
  refine completes_run (f := fun m d => match imageErr d with
    | some w => .fault (.hostError w)
    | none => .next (f m d)) hc ?_ h
  rw [hok, hd]

/-- At its deadline a line is counted once beyond what the lines on their way have counted. -/
theorem fusionDeadline_counts (x y e : Nat) (rest : List (Nat × Nat)) (d : Dev) (s : State) (hok : imageErr s.dev = none)
    (hnext : s.dev.nextComp = some (x, y, some e)) (hd : d = reachNs e (s.dev.get R.FUS.DEADLINE.NS) s.dev) (hissued : d.fus.issued = (x, y) :: rest) :
    Completes .fusionDeadline s (fun t => Counted (R.FUS.STAT.COUNT 1) 1 d t.dev) := by
  have hf := formLine_forms .deadline hissued
  have hready := formReady_followed (formLine .deadline d).fus.issued.length (formLine .deadline d)
  have hcmd : (match s.dev.nextComp with
      | some (_, _, some e) => formReady (formLine .deadline (reachNs e (s.dev.get R.FUS.DEADLINE.NS) s.dev)).fus.issued.length
          (formLine .deadline (reachNs e (s.dev.get R.FUS.DEADLINE.NS) s.dev))
      | _ => s.dev) = formReady (formLine .deadline d).fus.issued.length (formLine .deadline d) := by
    rw [hnext, hd]
  generalize formReady (formLine .deadline d).fus.issued.length (formLine .deadline d) = t at hready hcmd
  generalize formLine .deadline d = g at hf hready
  refine imageCmd_completes (exec_fusionDeadline s) hok hcmd ?_
  change t.get (R.FUS.STAT.COUNT 1) = _
  rw [hready.stat]
  exact (hf.forced rfl).2

/-! ## A port beyond the last one -/

/-- A line that begins a block of port 80; there are 12 ports. -/
def strayLine : Coming := { g := 1, lsn := 1, e := 0, ports := [(80, true, true)] }

/-- Port 80 lies in the fusion unit's registers, and its count of missing lines on the count of lines at their deadline. It is in RUN, a line
is open, and more lines are missing in its block than it allows, which takes it down. -/
def strayPort : State :=
  { State.reset with
    dev :=
      { puts [(R.EKL.STATUS.STATE 80, 4), (R.EKL.CTL.BLK_DOWN 80, 1)]
          (setPort 80 { lines := [{ lsn := 0, e := 0 }], blkLines := 1, missCount := 1000 } State.reset.dev) with
        fus := { State.reset.dev.fus with issued := [(0, 0)] }
        tim := { State.reset.dev.tim with coming := [strayLine] } } }

/-- The device at the deadline of the line that waits. -/
def strayReached : Dev := reachNs 0 (strayPort.dev.get R.FUS.DEADLINE.NS) strayPort.dev

theorem strayReached_counts : strayReached.get (R.FUS.STAT.COUNT 1) = 1 := by decide +kernel

theorem strayReached_waits : strayReached.fus.issued = [(0, 0)] := by decide +kernel

theorem strayPort_shows : imageErr strayPort.dev = none ∧ strayPort.dev.nextComp = some (0, 0, some 0) ∧
    strayPort.dev.get (R.FUS.STAT.COUNT 1) = 0 := by decide +kernel

/-- Refutes O39: the ports of a line on its way are not bounded. At the deadline the line of port 80 arrives first and takes that port down;
its missing line counts in the register that counts the lines at their deadline, so one deadline counts two. -/
theorem not_compositeLinesAreFormed : ¬ Obligations.CompositeLinesAreFormed := by
  unfold Obligations.CompositeLinesAreFormed
  rintro ⟨-, -, -, -, h, -⟩
  obtain ⟨hok, hnext, hzero⟩ := strayPort_shows
  obtain ⟨t, hstep, -, -, -, hcounted, -⟩ := h 0 0 0 [] strayReached strayPort hok hnext rfl strayReached_waits
  obtain ⟨t', hstep', -, hcounted'⟩ := fusionDeadline_counts 0 0 0 [] strayReached strayPort hok hnext rfl strayReached_waits
  have hsame : t = t' := Host.Outcome.next.inj (hstep.symm.trans hstep')
  rw [← hsame, Counted, strayReached_counts] at hcounted'
  rw [Counted, hzero, hcounted'] at hcounted
  exact absurd hcounted (by decide)

end Sys2Proof.Proofs
end

section
/-!
Steps 10 and 11 of a start-up (R14, R428): the units start, and the step of the start-up stays until RUN begins.
-/
namespace Sys2Proof.Proofs
open Sys2Proof Sys2Proof.Machine

/-- From `d` to `e` the step of the start-up stays. -/
structure StepKept (d e : Dev) : Prop where
  kept : e.get R.TOP.STATE.STEP = d.get R.TOP.STATE.STEP

section
variable {d e : Dev}

theorem stepKept_refl (d : Dev) : StepKept d d := ⟨rfl⟩

theorem StepKept.trans {g : Dev} (h : StepKept d e) (h' : StepKept e g) : StepKept d g := ⟨h'.kept.trans h.kept⟩

theorem stepKept_of_regs (h : e.regs = d.regs) : StepKept d e := ⟨get_congr h _⟩

/-- A field that lies elsewhere. -/
def elsewhere (f : Fld) : Prop := f.key / 64 ≠ 0x260

theorem elsewhere_at {a lo w : Nat} (hlo : lo < 64) (ha : a ≠ 0x260) : elsewhere ⟨a, lo, w⟩ := by
  simp only [elsewhere, Fld.key]
  omega

theorem step_ne {f : Fld} (hf : elsewhere f) : R.TOP.STATE.STEP.key ≠ f.key := fun h => hf (by rw [← h]; decide)

theorem stepKept_put {f : Fld} (hf : elsewhere f) (v : Nat) (d : Dev) : StepKept d (put f v d) := ⟨get_put_ne (step_ne hf) v d⟩

theorem stepKept_of_leaves {fs : List Fld} (h : Leaves fs d e) (hfs : ∀ f ∈ fs, elsewhere f) : StepKept d e :=
  ⟨h.get (by decide) fun hmem => by
    obtain ⟨f, hf, heq⟩ := List.mem_map.mp hmem
    exact step_ne (hfs f hf) heq.symm⟩

theorem stepKept_of_line (h : LineStep d e) : StepKept d e := ⟨h.get R.TOP.STATE.STEP (by decide) (by unfold lineKey; decide)⟩

theorem stepKept_when {c : Bool} {F : Dev → Dev} (h : StepKept d (F d)) : StepKept d (when c F d) := ⟨get_when c h.kept⟩

theorem stepKept_ite {c : Prop} [Decidable c] {a b : Dev} (ha : StepKept d a) (hb : StepKept d b) : StepKept d (if c then a else b) := by
  split
  · exact ha
  · exact hb

theorem stepKept_each {α : Type} {F : α → Dev → Dev} (h : ∀ x d, StepKept d (F x d)) (xs : List α) (d : Dev) : StepKept d (each F xs d) :=
  ⟨get_each (fun x _ d => (h x d).kept) d⟩

theorem stepKept_event {seq : Fld} {fs : List Fld} (code : Nat) (h : ∀ f ∈ seqAnd seq fs, elsewhere f) (d : Dev) : StepKept d (event code seq fs d) :=
  stepKept_of_leaves (leaves_event ..) h

theorem stepKept_errEvent (b : Nat) (d : Dev) : StepKept d (errEvent b d) := ⟨get_errEvent (by decide) (by decide) b d⟩

end

/-! ## Lanes -/

/-- A field of a lane. -/
theorem elsewhere_lane {a lo w : Nat} (ha : 0x200000 ≤ a) (hlo : lo < 64) (l : Nat) : elsewhere ⟨a + 0x4000 * l, lo, w⟩ := elsewhere_at hlo (by omega)

theorem stepKept_laneToWait (l : Nat) (d : Dev) : StepKept d (laneToWait l d) := stepKept_of_line (lineStep_laneToWait l d)

theorem stepKept_setLane (l : Nat) (x : LaneS) (d : Dev) : StepKept d (setLane l x d) := stepKept_of_regs rfl

theorem stepKept_takeOut (commanded : Bool) (l : Nat) (d : Dev) : StepKept d (takeOut commanded l d) := by
  unfold takeOut
  dsimp only
  have h := (stepKept_put (f := R.LNE.STATUS.STATE l) (elsewhere_lane (by decide) (by decide) l) 7 d).trans (stepKept_laneToWait l _)
  generalize laneToWait l (put (R.LNE.STATUS.STATE l) 7 d) = e at h ⊢
  have hev (d : Dev) : StepKept d (event 8 (R.LNE.STATUS.SEQ l) [R.LNE.STATUS.REMOVED l] d) := by
    refine stepKept_event 8 (fun f hf => ?_) d
    simp only [seqAnd, List.mem_cons, List.not_mem_nil, or_false] at hf
    rcases hf with rfl | rfl <;> exact elsewhere_lane (by decide) (by decide) l
  have hperf (d : Dev) : StepKept d (lnePerf l 7 1 d) := stepKept_of_leaves (leaves_perf 8 (perfBase_lane l) 7 1 d) (by simp)
  exact (h.trans (stepKept_setLane ..)).trans (((hev _).trans (hperf _)).trans (stepKept_errEvent ..))

theorem stepKept_degrade (p : Nat) (d : Dev) : StepKept d (degrade p d) := by
  unfold degrade
  exact stepKept_ite (stepKept_ite (stepKept_of_line (lineStep_downEvent ..)) (stepKept_of_line (lineStep_sendMask ..))) (stepKept_refl d)

theorem stepKept_commandRemove (l : Nat) (d : Dev) : StepKept d (commandRemove l d) := by
  unfold commandRemove removeLane
  exact stepKept_ite ((stepKept_takeOut ..).trans (stepKept_degrade ..)) (stepKept_refl d)

theorem stepKept_laneState (l v : Nat) (d : Dev) : StepKept d (put (R.LNE.STATUS.STATE l) v d) :=
  stepKept_put (elsewhere_lane (by decide) (by decide) l) v d

theorem stepKept_laneRefresh (l : Nat) (d : Dev) : StepKept d (laneRefresh l d) := by
  unfold laneRefresh
  dsimp only
  have h : StepKept d (when (d.on (R.LNE.CTL.CTLE_FIX l)) (put (R.LNE.EQ_CTLE.CODE l) (d.get (R.LNE.CTL.CTLE_CODE l))) d) :=
    stepKept_when (stepKept_put (f := R.LNE.EQ_CTLE.CODE l) (elsewhere_lane (by decide) (by decide) l) _ d)
  generalize when (d.on (R.LNE.CTL.CTLE_FIX l)) _ d = e at h ⊢
  refine h.trans (stepKept_ite ?_ (stepKept_ite ?_ (stepKept_ite ?_ (stepKept_laneState ..))))
  · exact ((stepKept_commandRemove l e).trans (stepKept_setLane ..)).trans (stepKept_laneState ..)
  · exact stepKept_ite (stepKept_refl e) (((stepKept_commandRemove l e).trans (stepKept_laneState ..)).trans (stepKept_laneToWait ..))
  · exact stepKept_ite ((stepKept_laneState ..).trans (stepKept_laneToWait ..)) (stepKept_refl e)

/-! ## Lathes -/

/-- A field of a lathe. -/
theorem elsewhere_lathe {a lo w : Nat} (ha : 0x400000 ≤ a) (hlo : lo < 64) (n c : Nat) : elsewhere ⟨a + 0x80000 * n + 0x80 * c, lo, w⟩ :=
  elsewhere_at hlo (by omega)

theorem stepKept_latheState (n v : Nat) (d : Dev) : StepKept d (put (R.LTH.STATUS.STATE n) v d) := stepKept_put (elsewhere_at (by decide) (by omega)) v d

theorem stepKept_latheStart (n : Nat) (d : Dev) : StepKept d (latheStart n d) := by
  unfold latheStart
  dsimp only
  refine stepKept_ite (stepKept_refl d) (stepKept_ite (stepKept_latheState ..) ?_)
  refine StepKept.trans (stepKept_each (fun c d => ?_) _ d) (stepKept_latheState ..)
  exact stepKept_put (f := R.LTH.CTX_CTL.ACTIVE n c) (elsewhere_lathe (by decide) (by decide) n c) _ d

theorem stepKept_markLate (p : Nat) (d : Dev) : StepKept d (markLate p d) :=
  stepKept_ite (stepKept_each (fun s d => stepKept_put (f := R.MRG.STRIP_EPOCH.LATE s) (elsewhere_at (by decide) (by omega)) 1 d) _ d) (stepKept_refl d)

theorem stepKept_activate (n c : Nat) (d : Dev) : StepKept d (activate n c d) := by
  unfold activate
  dsimp only
  have hactive (d : Dev) : StepKept d (puts [(R.LTH.CTX_CTL.STANDBY n c, 0), (R.LTH.CTX_CTL.ACTIVE n c, 1)] d) :=
    (stepKept_put (f := R.LTH.CTX_CTL.STANDBY n c) (elsewhere_lathe (by decide) (by decide) n c) 0 d).trans
      (stepKept_put (f := R.LTH.CTX_CTL.ACTIVE n c) (elsewhere_lathe (by decide) (by decide) n c) 1 _)
  have hset (k : LthCtx) : StepKept d (setCtx n c k d) := stepKept_of_regs rfl
  exact ((hset _).trans (hactive _)).trans (stepKept_latheState ..)

theorem stepKept_routeAct (p v : Nat) (d : Dev) : StepKept d (put (R.EKL.STATUS.ROUTE_ACT p) v d) := stepKept_put (elsewhere_at (by decide) (by omega)) v d

theorem stepKept_latheCover (n : Nat) (d : Dev) : StepKept d (latheCover n d) := by
  unfold latheCover
  dsimp only
  refine stepKept_ite (stepKept_refl d) ?_
  refine (stepKept_each (fun p d => ?_) (d.homePorts n) d).trans (stepKept_each (fun m d => stepKept_each (fun c d => ?_) _ d) _ _)
  · exact ((stepKept_of_regs rfl : StepKept d (setPort p _ d)).trans (stepKept_routeAct ..)).trans (stepKept_markLate ..)
  · exact stepKept_ite (stepKept_activate ..) (stepKept_refl d)

/-! ## Segments, DMA channels and the recorder -/

theorem stepKept_segStart (k : Nat) (d : Dev) : StepKept d (segStart k d) := by
  unfold segStart
  dsimp only
  have hseg {a lo w : Nat} (ha : 0x1a00000 ≤ a) (hlo : lo < 64) : elsewhere ⟨a + 0x20000 * k, lo, w⟩ := elsewhere_at hlo (by omega)
  have hstate (v : Nat) (d : Dev) : StepKept d (put (R.T1S.SEG_STATUS.STATE k) v d) := stepKept_put (hseg (by decide) (by decide)) v d
  have hset (x : SegS) (d : Dev) : StepKept d (setSeg k x d) := stepKept_of_regs rfl
  have h := hset { startAt := d.dt } d
  generalize setSeg k { startAt := d.dt } d = e at h ⊢
  refine h.trans (stepKept_ite (hstate 0 e) ?_)
  have hm := hset { e.segS k with cmax := e.cycleBound k } e
  generalize setSeg k { e.segS k with cmax := e.cycleBound k } e = g at hm ⊢
  refine (hm.trans ((stepKept_put (f := R.T1S.CYCLE.MAX_US k) (hseg (by decide) (by decide)) _ g).trans (hstate 1 _))).trans (stepKept_when ?_)
  refine StepKept.trans (stepKept_event 0x11 (fun f hf => ?_) _) (stepKept_of_leaves (leaves_logEv ..) (by simp))
  simp only [seqAnd, List.mem_cons, List.not_mem_nil, or_false] at hf
  rcases hf with rfl | rfl <;> exact hseg (by decide) (by decide)

theorem stepKept_chEnable (c : Nat) (d : Dev) : StepKept d (chEnable c d) := by
  unfold chEnable
  have hstate (v : Nat) (d : Dev) : StepKept d (chState c v d) := stepKept_put (f := R.DMA.CH_STATUS.STATE c) (elsewhere_at (by decide) (by omega)) v d
  exact stepKept_ite (stepKept_ite (hstate ..) (stepKept_refl d)) ((hstate 0 d).trans (stepKept_of_regs rfl))

theorem elsewhere_rec : ∀ f ∈ [R.CMP.REC_WR.CSEQ, R.CMP.STATUS.STATE, R.CMP.REC_CHUNKS.NCH, R.CMP.STATUS.SEQ, R.CMP.STATUS.DENIED], elsewhere f := by
  unfold elsewhere
  decide

theorem stepKept_recDenied (d : Dev) : StepKept d (recDenied d) := by
  have hset (x : RecS) : StepKept d (setRec x d) := stepKept_of_regs rfl
  refine ((hset _).trans (stepKept_put (elsewhere_rec R.CMP.STATUS.STATE (by simp)) 0 _)).trans (stepKept_event 0x15 (fun f hf => elsewhere_rec f ?_) _)
  simp only [seqAnd, List.mem_cons, List.not_mem_nil, or_false] at hf ⊢
  rcases hf with rfl | rfl
  · exact .inr (.inr (.inr (.inl rfl)))
  · exact .inr (.inr (.inr (.inr rfl)))

theorem stepKept_recStart (d : Dev) : StepKept d (recStart d) := by
  unfold recStart
  dsimp only
  have hset : StepKept d (setRec {} { d with recQ := [] }) := stepKept_of_regs rfl
  generalize setRec {} { d with recQ := [] } = e at hset ⊢
  have hclear : StepKept e (puts [(R.CMP.REC_WR.CSEQ, 0), (R.CMP.STATUS.STATE, 0), (R.CMP.REC_CHUNKS.NCH, 0)] e) :=
    ((stepKept_put (elsewhere_rec R.CMP.REC_WR.CSEQ (by simp)) 0 e).trans (stepKept_put (elsewhere_rec R.CMP.STATUS.STATE (by simp)) 0 _)).trans
      (stepKept_put (elsewhere_rec R.CMP.REC_CHUNKS.NCH (by simp)) 0 _)
  generalize puts [(R.CMP.REC_WR.CSEQ, 0), (R.CMP.STATUS.STATE, 0), (R.CMP.REC_CHUNKS.NCH, 0)] e = g at hclear ⊢
  refine (hset.trans hclear).trans (stepKept_ite (stepKept_refl g) (stepKept_ite (stepKept_recDenied g) ?_))
  exact (stepKept_put (elsewhere_rec R.CMP.REC_CHUNKS.NCH (by simp)) _ g).trans (stepKept_put (elsewhere_rec R.CMP.STATUS.STATE (by simp)) 1 _)

/-! ## The claims of the fire pins -/

theorem stepKept_owns (n a b : Nat) (d : Dev) : StepKept d (puts [(R.TOP.OWN.HELD n, a), (R.TOP.OWN.DENIED n, b)] d) :=
  (stepKept_put (f := R.TOP.OWN.HELD n) (elsewhere_at (by decide) (by omega)) a d).trans
    (stepKept_put (f := R.TOP.OWN.DENIED n) (elsewhere_at (by decide) (by omega)) b _)

theorem stepKept_returnStatic (k : Nat) (d : Dev) : StepKept d (returnStatic k d) := by
  unfold returnStatic
  dsimp only
  have h : StepKept d { d with rtHold := KMap.put (fun _ => none) d.rtHold k none, rtFree := d.rtFree.filter (· != k) } := stepKept_of_regs rfl
  generalize ({ d with rtHold := _, rtFree := _ } : Dev) = e at h ⊢
  split
  · exact h.trans (stepKept_owns ..)
  · exact h

theorem stepKept_release (ty idx o : Nat) (d : Dev) : StepKept d (release ty idx o d) :=
  stepKept_ite (stepKept_refl d) (stepKept_ite (stepKept_returnStatic ..) (stepKept_ite (stepKept_refl d) (stepKept_of_regs rfl)))

theorem ownEvt_elsewhere : ∀ f ∈ [R.TOP.OWN_EVT.SEQ, R.TOP.OWN_EVT.KIND, R.TOP.OWN_EVT.NOENT, R.TOP.OWN_EVT.TYPE, R.TOP.OWN_EVT.ENTRY,
    R.TOP.OWN_EVT.CLAIMANT], elsewhere f := by
  unfold elsewhere
  decide

theorem stepKept_ownEvent (preempted : Bool) (ty idx claimant : Nat) (entry : Option Nat) (d : Dev) : StepKept d (ownEvent preempted ty idx claimant entry d) := by
  have hputs := leaves_puts [(R.TOP.OWN_EVT.KIND, b2n preempted), (R.TOP.OWN_EVT.NOENT, b2n entry.isNone), (R.TOP.OWN_EVT.TYPE, ty),
    (R.TOP.OWN_EVT.ENTRY, entry.getD 0), (R.TOP.OWN_EVT.CLAIMANT, claimant)] (event 0 R.TOP.OWN_EVT.SEQ [] d)
  have hl := ((leaves_event 0 R.TOP.OWN_EVT.SEQ [] d).trans hputs).trans (leaves_logEv (if preempted then 5 else 4) idx 2 (claimant + 256 * ty) _)
  refine stepKept_of_leaves hl fun f hf => ownEvt_elsewhere f ?_
  simpa [seqAnd] using hf

/-- What a claim of a pin cuts off is a pulse. -/
theorem stepKept_preemptPin (idx : Nat) (ch : Option Nat) (d : Dev) : StepKept d (preemptEffect 1 idx ch d) := by
  change StepKept d (if idx < 12 then _ else _)
  exact stepKept_ite (stepKept_ite (stepKept_of_regs rfl) (stepKept_refl d)) (stepKept_ite (stepKept_ite (stepKept_of_regs rfl) (stepKept_refl d)) (stepKept_refl d))

/-- A claim of a pin that preempts its holder. -/
theorem stepKept_preempts (idx o h : Nat) (ch : Option Nat) (e : Option Nat) (d : Dev) :
    StepKept d (ownEvent true 1 idx h e (preemptEffect 1 idx ch (grantRt 1 idx o d))) := by
  have hgrant : StepKept d (grantRt 1 idx o d) := stepKept_of_regs rfl
  exact (hgrant.trans (stepKept_preemptPin ..)).trans (stepKept_ownEvent ..)

theorem stepKept_claimPin (idx o : Nat) (d : Dev) : StepKept d (claim 1 idx o d) := by
  have hgrant : StepKept d (grantRt 1 idx o d) := stepKept_of_regs rfl
  unfold claim
  split
  · exact stepKept_of_regs rfl
  · next h _ =>
    extract_lets grant ch entry shown
    have hshown : StepKept d shown := by
      unfold shown
      cases entry with
      | none => exact stepKept_refl d
      | some n => exact stepKept_owns ..
    exact stepKept_ite (stepKept_of_regs rfl) (stepKept_ite (stepKept_ite (hgrant.trans (stepKept_ownEvent ..)) (stepKept_ownEvent ..))
      (stepKept_ite (hshown.trans (stepKept_preempts idx o h ch entry shown)) (stepKept_ownEvent ..)))

theorem stepKept_foClaims (d : Dev) : StepKept d (foClaims d) :=
  stepKept_each (fun i d => stepKept_ite (stepKept_release 1 (12 + i) 2 d) (stepKept_claimPin (12 + i) 2 d)) _ d

/-! ## All units -/

theorem stepKept_startUnits (d : Dev) : StepKept d (startUnits d) := by
  unfold startUnits
  dsimp only
  refine StepKept.trans ?_ (stepKept_foClaims _)
  refine StepKept.trans ?_ ((stepKept_recStart _).trans (stepKept_each stepKept_chEnable _ _))
  refine StepKept.trans ?_ (stepKept_each stepKept_segStart _ _)
  refine StepKept.trans ?_ ((stepKept_each stepKept_latheStart _ _).trans (stepKept_each stepKept_latheCover _ _))
  refine (stepKept_each stepKept_laneRefresh _ d).trans (stepKept_each (fun p d => stepKept_ite ?_ ?_) _ _)
  · exact (stepKept_routeAct ..).trans (stepKept_of_line (lineStep_enterLinking ..))
  · exact stepKept_put (f := R.EKL.STATUS.STATE p) (elsewhere_at (by decide) (by omega)) 0 d

/-- Until the cores serve the step stays at 0xA. -/
theorem bootUp_step (kind : BootKind) (env : BootEnv) (start : Nat) (d : Dev) : (bootUp kind env start d).get R.TOP.STATE.STEP = 0xa := by
  unfold bootUp
  extract_lets e1 e2 e3 e4 e5 e6 e7
  have h := (stepKept_startUnits (put R.TOP.STATE.STEP 0xa e7)).trans (stepKept_of_line (lineStep_reachNs start env.ns.toNat _))
  rw [h.kept, get_put_self]
  rfl

/-! ## RUN begins -/

section
variable {f : Fld} (h : f.key % 64 = 31)
include h

/-- A field at another bit is another field. -/
theorem key_ne_of_last {g : Fld} (hg : g.key % 64 ≠ 31) : f.key ≠ g.key := fun heq => hg (heq ▸ h)

theorem get_raise_last (e : Nat) (d : Dev) : (raise e d).get f = d.get f := by
  unfold raise inc
  dsimp only
  split
  · split
    · exact get_put_ne (key_ne_of_last h (by decide)) ..
    · rfl
  · rfl

theorem get_event_last {seq : Fld} {fs : List Fld} (hfs : ∀ g ∈ seqAnd seq fs, g.key % 64 ≠ 31) (code : Nat) (d : Dev) :
    (event code seq fs d).get f = d.get f := by
  rw [event, get_raise_last h, get_puts_ne, get_put_ne (key_ne_of_last h (hfs seq List.mem_cons_self))]
  intro hmem
  simp only [List.map_map, List.mem_map, Function.comp_apply] at hmem
  obtain ⟨g, hg, heq⟩ := hmem
  exact key_ne_of_last h (hfs g (List.mem_cons_of_mem _ hg)) heq.symm

theorem get_perfOne_last {blk base : Nat} (code k n : Nat) (d : Dev) : (perfOne blk base code k n d).get f = d.get f := by
  have hcnt : f.key ≠ (R.PERF.CNT.COUNT base n).key := key_ne_of_last h (by simp only [Fld.key, R.PERF.CNT.COUNT]; omega)
  have hovf : f.key ≠ (R.PERF.OVF.CNT_OVF base).key := key_ne_of_last h (by simp only [Fld.key, R.PERF.OVF.CNT_OVF]; omega)
  have hseq : (R.PERF.OVF.SEQ base).key % 64 ≠ 31 := by simp only [Fld.key, R.PERF.OVF.SEQ]; omega
  have hev (d : Dev) : (event blk (R.PERF.OVF.SEQ base) [] d).get f = d.get f := get_event_last h (by simpa [seqAnd] using hseq) blk d
  unfold perfOne
  dsimp only
  split
  · split
    · rw [get_put_ne hcnt]
    · rw [get_put_ne hovf, hev, get_setPerf, get_put_ne hcnt]
  · rfl

theorem get_woke_last (d : Dev) : (woke d).get f = d.get f := by
  have hperf (d : Dev) : (pwrPerf 3 1 d).get f = d.get f := by
    unfold pwrPerf perf
    split
    · rfl
    · exact get_each (fun n _ d => get_perfOne_last h ..) d
  have hgap (e : Nat) (d : Dev) : (event 7 (R.TIM.ENC_STATUS.SEQ e) [R.TIM.ENC_STATUS.GAP e] d).get f = d.get f := by
    refine get_event_last h (fun g hg => ?_) 7 d
    simp only [seqAnd, List.mem_cons, List.not_mem_nil, or_false] at hg
    rcases hg with rfl | rfl
    · simp only [Fld.key, R.TIM.ENC_STATUS.SEQ]
      omega
    · simp only [Fld.key, R.TIM.ENC_STATUS.GAP]
      omega
  unfold woke
  dsimp only
  refine (get_each (fun e _ d => hgap e d) _).trans ((hperf _).trans ?_)
  rw [pwrStat, inc, get_put_ne (key_ne_of_last h (by decide)), get_event_last h (by decide)]
  rfl

theorem get_enterRun_last (kind : BootKind) (d : Dev) : (enterRun kind d).get f = d.get f := by
  unfold enterRun
  dsimp only
  refine (get_when _ (get_woke_last h _)).trans ((get_each (fun g _ d => get_tgApply g f d) _).trans ?_)
  exact get_puts_ne _ d (by
    simp only [List.map_cons, List.map_nil, List.mem_cons, List.not_mem_nil, or_false, not_or]
    exact ⟨key_ne_of_last h (by decide), key_ne_of_last h (by decide), key_ne_of_last h (by decide)⟩)

end

/-- Settings that RUN leaves. -/
theorem get_enterRun_setting {f : Fld} (hb : bookKey f.key = false)
    (h : f.key ∉ [R.PWR.STATUS.SEQ, R.PWR.STATUS.WOKE, R.PWR.STAT.COUNT 0, R.TIM.ENC_STATUS.SEQ 0, R.TIM.ENC_STATUS.GAP 0,
      R.TIM.ENC_STATUS.SEQ 1, R.TIM.ENC_STATUS.GAP 1].map Fld.key)
    (hs : f.key ∉ [R.TOP.STATE.STEP, R.TOP.STATE.MODE, R.PWR.STATUS.STATE].map Fld.key) (kind : BootKind) (d : Dev) : (enterRun kind d).get f = d.get f :=
  (get_enterRun hb h kind d).trans (get_puts_ne _ d hs)

theorem unplaced_enterRun (kind : BootKind) (d : Dev) : (enterRun kind d).unplaced = d.unplaced := by
  have hplaced (s : Nat) : ((enterRun kind d).placed s).isNone = (d.placed s).isNone := by
    have hkey : (R.RAS.PLACE.VALID s).key % 64 = 31 := by
      simp only [Fld.key, R.RAS.PLACE.VALID]
      omega
    rw [Dev.placed, Dev.placed, on_of_get (get_enterRun_last hkey kind d)]
    cases d.on (R.RAS.PLACE.VALID s) <;> rfl
  have hw : (enterRun kind d).stripW = d.stripW := congrArg (64 * ·) (get_enterRun_setting (f := R.CLS.STRIP.W) (by decide) (by decide) (by decide) kind d)
  have hcols : (enterRun kind d).width = d.width := get_enterRun_setting (f := R.FUS.WIDTH.COLS) (by decide) (by decide) (by decide) kind d
  rw [Dev.unplaced, Dev.unplaced, Dev.nstrips, Dev.nstrips, hw, hcols]
  exact congrArg (List.any _) (funext hplaced)

theorem budgetFails_enterRun (kind : BootKind) (d : Dev) : (enterRun kind d).budgetFails = d.budgetFails := by
  have hget (f : Fld) (hf : f ∈ [R.DDR.CFG.CHANNELS, R.DDR.CFG.RATE, R.TOP.DRAM_GRANT.CEIL 0, R.TOP.DRAM_GRANT.CEIL 1, R.TOP.DRAM_GRANT.CEIL 2]) :
      (enterRun kind d).get f = d.get f := by
    have hfacts : ∀ f ∈ [R.DDR.CFG.CHANNELS, R.DDR.CFG.RATE, R.TOP.DRAM_GRANT.CEIL 0, R.TOP.DRAM_GRANT.CEIL 1, R.TOP.DRAM_GRANT.CEIL 2],
      bookKey f.key = false ∧ f.key ∉ [R.PWR.STATUS.SEQ, R.PWR.STATUS.WOKE, R.PWR.STAT.COUNT 0, R.TIM.ENC_STATUS.SEQ 0, R.TIM.ENC_STATUS.GAP 0,
        R.TIM.ENC_STATUS.SEQ 1, R.TIM.ENC_STATUS.GAP 1].map Fld.key ∧ f.key ∉ [R.TOP.STATE.STEP, R.TOP.STATE.MODE, R.PWR.STATUS.STATE].map Fld.key := by decide
    obtain ⟨hb, h, hs⟩ := hfacts f hf
    exact get_enterRun_setting hb h hs kind d
  rw [Dev.budgetFails, Dev.budgetFails, Dev.dramRate, Dev.dramRate, hget _ (by simp), hget _ (by simp), hget _ (by simp), hget _ (by simp), hget _ (by simp)]

theorem enterRun_shows (kind : BootKind) (d : Dev) : (enterRun kind d).get R.TOP.STATE.STEP = 0xb ∧ (enterRun kind d).get R.TOP.STATE.MODE = 1 ∧
    (enterRun kind d).get R.PWR.STATUS.STATE = 1 := by
  rw [get_enterRun (by decide) (by decide), get_enterRun (by decide) (by decide), get_enterRun (by decide) (by decide)]
  exact ⟨(get_put_ne (by decide) _ _).trans ((get_put_ne (by decide) _ _).trans (get_put_self ..)), (get_put_ne (by decide) _ _).trans (get_put_self ..),
    get_put_self ..⟩

/-- Settles O9: until the cores serve the step is 0xA; RUN, where the budget and the placement allow it, leaves both as they are. -/
theorem startUpEntersRun : Obligations.StartUpEntersRun := by
  unfold Obligations.StartUpEntersRun
  intro kind env start d
  have hstep : (bootServe kind (bootUp kind env start d)).get R.TOP.STATE.STEP = 0xa := by
    rw [get_bootServe (by decide) (by decide), get_put_ne (by decide), bootUp_step]
  have heq := bootRun_eq kind env start d
  generalize bootRun kind env start d = e at heq ⊢
  generalize bootServe kind (bootUp kind env start d) = g at heq hstep
  by_cases hfails : (g.budgetFails || g.unplaced) = true
  · rw [if_pos hfails] at heq
    rw [heq, if_pos hfails]
    exact hstep
  · rw [if_neg hfails] at heq
    rw [heq, budgetFails_enterRun, unplaced_enterRun, if_neg hfails]
    exact enterRun_shows kind g

end Sys2Proof.Proofs
end

section
/-!
Gouges: what their bookkeeping leaves of the gouges and the merge unit, and the commands of sleep, power gating and self-test
(R260 to R262, R280).
-/
namespace Sys2Proof.Proofs
open Sys2Proof Sys2Proof.Machine

/-- The gouges of a device stand as `x` says. -/
def withGou (x : KMap GouS) (d : Dev) : Dev := { d with gou := x }

theorem setsPart_withGou : SetsPart withGou := fun _ _ => ⟨rfl, rfl⟩

theorem upto_setGou (g : Nat) (x : GouS) (d : Dev) : Upto withGou [] d (setGou g x d) := upto_of_eq fun _ => rfl

theorem frame_gou {fs : List Fld} {d e : Dev} (h : Upto withGou fs d e) (s : State) : Frame fs { d with gou := e.gou } s (s.after e) :=
  frame_of_upto h s e.gou rfl

theorem gouS_setGou (g : Nat) (x : GouS) (d : Dev) : (setGou g x d).gouS g = x := KMap.get_put_self ..

theorem perfBase_gge {g : Nat} (hg : g < 136) : PerfBase (ggeBase g) := by
  unfold PerfBase ggeBase
  omega

theorem leaves_ggePerf {g : Nat} (hg : g < 136) (code n : Nat) (d : Dev) : Leaves [] d (ggePerf g code n d) :=
  leaves_perf 13 (perfBase_gge hg) code n d

/-! ## The clock gate -/

/-- The fields of a gouge that its commands show are none of the books. -/
theorem gouge_book : ∀ g < 136, ∀ f ∈ [R.GGE.STATUS.STATE g, R.GGE.ST_COUNT.COUNT g, R.GGE.STATUS.SEQ g, R.GGE.STATUS.ST_FAIL g],
    bookKey f.key = false := by decide +kernel

theorem book_gougeState {g : Nat} (hg : g < 136) : bookKey (R.GGE.STATUS.STATE g).key = false := gouge_book g hg _ (by simp)

theorem gougeState_ne {g h : Nat} (hne : g ≠ h) : (R.GGE.STATUS.STATE g).key ≠ (R.GGE.STATUS.STATE h).key := by
  simp only [Fld.key, R.GGE.STATUS.STATE]
  omega

/-- A gouge that is clock-gated now. -/
def gougeGated (g : Nat) (d : Dev) : Dev := markGated (ggeBase g) (ggePerf g 0xc 1 (put (R.GGE.STATUS.STATE g) 2 d))

theorem leaves_markGated (base : Nat) (d : Dev) : Leaves [] d (markGated base d) := leaves_setPerf ..

theorem gougeClockGate_completes (g : Fin 136) (s : State) (hstate : s.dev.get (R.GGE.STATUS.STATE g.val) = 1) (ha : (s.dev.gouS g.val).asleep = true)
    (hidle : max 1 (s.dev.get R.CLS.GG_CTL.SLEEP_LINES) ≤ (s.dev.gouS g.val).idle) :
    Completes (.gougeClockGate g) s (fun t =>
      t.dev.get (R.GGE.STATUS.STATE g.val) = 2 ∧ Frame [R.GGE.STATUS.STATE g.val] s.dev s t) := by
  refine completes_to (f := fun _ d => if d.get (R.GGE.STATUS.STATE g.val) = 1 ∧ (d.gouS g.val).asleep = true ∧
    max 1 (d.get R.CLS.GG_CTL.SLEEP_LINES) ≤ (d.gouS g.val).idle then gougeGated g.val d else d) rfl (gougeGated g.val s.dev)
    (if_pos ⟨hstate, ha, hidle⟩) ?_
  have hperf := (leaves_ggePerf g.isLt 0xc 1 (put (R.GGE.STATUS.STATE g.val) 2 s.dev)).trans (leaves_markGated (ggeBase g.val) _)
  refine ⟨?_, frame_of_leaves ((leaves_put _ 2 s.dev).trans hperf) s⟩
  rw [get_after, gougeGated, hperf.get (book_gougeState g.isLt) (by simp)]
  exact get_put_self ..

/-! ## Power domains -/

theorem bit_clears (m : Nat) {k : Nat} (hk : k < 41) : bit (m &&& (2 ^ 41 - 1 - 2 ^ k)) k = false := by
  have h : (2 ^ 41 - 1 - 2 ^ k) = (2 ^ 41 - (2 ^ k + 1) : Nat) := by omega
  rw [bit_eq_testBit, Nat.testBit_and, h, Nat.testBit_two_pow_sub_succ (Nat.pow_lt_pow_right (by decide) hk), Nat.testBit_two_pow_self]
  simp

theorem bit_sets (m k : Nat) : bit (m ||| 2 ^ k) k = true := by
  rw [bit_eq_testBit, Nat.testBit_or, Nat.testBit_two_pow_self, Bool.or_true]

/-- The bits of the low word show what the domains were set to. -/
theorem domains_setDomains (m : Nat) {k : Nat} (hk : k < 32) (d : Dev) : bit (setDomains m d).domains k = bit m k := by
  have hlo : (setDomains m d).get R.PWR.DOM_ON_LO.ON = m % 2 ^ 32 := by
    unfold setDomains
    extract_lets up down
    rw [((leaves_pwrPerf 2 down _).trans (leaves_pwrPerf 1 up _)).get (by decide) (by simp), pwrStat, inc, get_put_ne (by decide)]
    exact get_put_self ..
  refine bit_congr (n := 32) ?_ hk
  rw [Dev.domains, hlo]
  omega

/-- What a change of a power domain shows. -/
def domainRegs : List Fld := [R.PWR.DOM_ON_HI.ON, R.PWR.DOM_ON_LO.ON, R.PWR.STAT.COUNT 3]

theorem leaves_setDomain (n : Nat) (on : Bool) (d : Dev) : Leaves domainRegs d (setDomain n on d) := leaves_setDomains ..

/-! ## The power gate and the wake -/

theorem leaves_eachOf {α : Type} {F : α → Dev → Dev} {fs : List Fld} {xs : List α} (h : ∀ x ∈ xs, ∀ d, Leaves fs d (F x d)) (d : Dev) :
    Leaves fs d (each F xs d) := by
  induction xs generalizing d with
  | nil => exact (Leaves.refl d).mono (by simp)
  | cons x xs ih =>
    refine ((h x (by simp) d).trans (ih (fun y hy => h y (by simp [hy])) (F x d))).mono fun f hf => ?_
    exact List.mem_map_of_mem (by simpa using hf)

theorem upto_eachOf {α β : Type} {G : α → Dev → Dev} {F : β → Dev → Dev} {fs : List Fld} {xs : List β} (hG : SetsPart G)
    (h : ∀ x ∈ xs, ∀ d, Upto G fs d (F x d)) (d : Dev) : Upto G fs d (each F xs d) := by
  induction xs generalizing d with
  | nil => exact (upto_of_leaves hG (Leaves.refl d)).mono (by simp)
  | cons x xs ih =>
    refine ((h x (by simp) d).trans (ih (fun y hy => h y (by simp [hy])) (F x d))).mono fun f hf => ?_
    exact List.mem_map_of_mem (by simpa using hf)

theorem mem_groupOf {grp : Fin 8} {g : Nat} (hg : g ∈ groupOf grp.val) : g < 136 := by
  obtain ⟨i, hi, rfl⟩ := List.mem_map.mp hg
  have := List.mem_range.mp hi
  omega

/-- What a change of a group's power shows. -/
def groupRegs (grp : Nat) : List Fld := R.PWR.STAT.COUNT 3 :: R.PWR.DOM_ON_LO.ON :: R.PWR.DOM_ON_HI.ON :: (groupOf grp).map R.GGE.STATUS.STATE

theorem mem_groupRegs {grp g : Nat} (hg : g ∈ groupOf grp) : R.GGE.STATUS.STATE g ∈ groupRegs grp := by
  simp only [groupRegs, List.mem_cons]
  exact Or.inr (Or.inr (Or.inr (List.mem_map_of_mem hg)))

theorem domainRegs_group (grp : Nat) : ∀ f ∈ domainRegs, f.key ∈ (groupRegs grp).map Fld.key := by
  intro f hf
  refine List.mem_map_of_mem ?_
  simp only [domainRegs, groupRegs, List.mem_cons, List.not_mem_nil, or_false] at hf ⊢
  tauto

/-- A gouge of the group lies outside the power registers. -/
theorem gougeState_domain (g : Nat) : ∀ f ∈ domainRegs, (R.GGE.STATUS.STATE g).key ≠ f.key := by
  simp only [domainRegs, List.mem_cons, List.not_mem_nil, or_false, forall_eq_or_imp, forall_eq]
  simp only [Fld.key, R.GGE.STATUS.STATE, R.PWR.DOM_ON_HI.ON, R.PWR.DOM_ON_LO.ON, R.PWR.STAT.COUNT]
  omega

theorem gougeState_setDomain {g : Nat} (hg : g < 136) (n : Nat) (on : Bool) (d : Dev) :
    (setDomain n on d).get (R.GGE.STATUS.STATE g) = d.get (R.GGE.STATUS.STATE g) :=
  (leaves_setDomain n on d).get (book_gougeState hg) fun hmem => by
    obtain ⟨f, hf, heq⟩ := List.mem_map.mp hmem
    exact gougeState_domain g f hf heq.symm

/-- A gouge of a group that is switched off. -/
def gougeOff (g : Nat) (d : Dev) : Dev :=
  if d.get (R.GGE.STATUS.STATE g) = 2 ∨ d.get (R.GGE.STATUS.STATE g) = 4 then markGated (ggeBase g) (put (R.GGE.STATUS.STATE g) 3 d) else d

theorem leaves_gougeOff (g : Nat) (d : Dev) : Leaves [R.GGE.STATUS.STATE g] d (gougeOff g d) := by
  unfold gougeOff
  split
  · exact (leaves_put ..).trans (leaves_markGated ..)
  · exact (Leaves.refl d).mono (by simp)

theorem gougeOff_state {g : Nat} (hg : g < 136) (h : Nat) (d : Dev) : (gougeOff h d).get (R.GGE.STATUS.STATE g) =
    if g = h ∧ (d.get (R.GGE.STATUS.STATE g) = 2 ∨ d.get (R.GGE.STATUS.STATE g) = 4) then 3 else d.get (R.GGE.STATUS.STATE g) := by
  by_cases hgh : g = h
  · subst hgh
    unfold gougeOff
    split
    case isTrue hs =>
      rw [if_pos ⟨rfl, hs⟩, (leaves_markGated ..).get (book_gougeState hg) (by simp)]
      exact get_put_self ..
    case isFalse hs => rw [if_neg fun h => hs h.2]
  · rw [if_neg fun h => hgh h.1]
    exact (leaves_gougeOff h d).get (book_gougeState hg) (by simpa using gougeState_ne hgh)

theorem gougeOff_each {g : Nat} (hg : g < 136) (gs : List Nat) (d : Dev) (hon : d.get (R.GGE.STATUS.STATE g) = 3 ∨
    (g ∈ gs ∧ (d.get (R.GGE.STATUS.STATE g) = 2 ∨ d.get (R.GGE.STATUS.STATE g) = 4))) : (each gougeOff gs d).get (R.GGE.STATUS.STATE g) = 3 := by
  induction gs generalizing d with
  | nil => simpa [each] using hon
  | cons h gs ih =>
    have hs := gougeOff_state hg h d
    refine ih (gougeOff h d) ?_
    rw [hs]
    by_cases hgh : g = h
    · rcases hon with h3 | ⟨-, h24⟩
      · exact Or.inl (by rw [if_neg fun h => by omega]; exact h3)
      · exact Or.inl (if_pos ⟨hgh, h24⟩)
    · rw [if_neg fun h => hgh h.1]
      simpa [hgh] using hon

theorem bit_setDomain_off {n : Nat} (hn : n < 32) (d : Dev) : bit (setDomain n false d).domains n = false :=
  (domains_setDomains _ hn d).trans (bit_clears _ (by omega))

theorem bit_setDomain_on {n : Nat} (hn : n < 32) (d : Dev) : bit (setDomain n true d).domains n = true :=
  (domains_setDomains _ hn d).trans (bit_sets ..)

/-- A group whose gouges are quiet may be switched off. -/
def groupQuiet (grp : Nat) (d : Dev) : Bool :=
  (groupOf grp).all (fun g => (d.servedBy g).isNone || (d.get (R.GGE.STATUS.STATE g) == 2 && decide (d.get R.CLS.GG_DOZE.LINES ≤ (d.gouS g).gatedFor)))

theorem domains_after (s : State) (d : Dev) : (s.after d).dev.domains = d.domains := rfl

theorem groupPowerGate_completes (grp : Fin 8) (s : State) (hen : s.dev.on R.CLS.GG_DOZE.EN = true)
    (hq : (groupOf grp.val).all (fun g => (s.dev.servedBy g).isNone
      || (s.dev.get (R.GGE.STATUS.STATE g) == 2 && decide (s.dev.get R.CLS.GG_DOZE.LINES ≤ (s.dev.gouS g).gatedFor))) = true) :
    Completes (.groupPowerGate grp) s (fun t =>
      (∀ g ∈ groupOf grp.val, s.dev.get (R.GGE.STATUS.STATE g) = 2 ∨ s.dev.get (R.GGE.STATUS.STATE g) = 4 →
        t.dev.get (R.GGE.STATUS.STATE g) = 3) ∧ bit t.dev.domains (3 + grp.val) = false ∧
      Frame (R.PWR.STAT.COUNT 3 :: R.PWR.DOM_ON_LO.ON :: R.PWR.DOM_ON_HI.ON :: (groupOf grp.val).map R.GGE.STATUS.STATE)
        s.dev s t) := by
  refine completes_to (f := fun _ d => if d.on R.CLS.GG_DOZE.EN && groupQuiet grp.val d then
    setDomain (3 + grp.val) false (each gougeOff (groupOf grp.val) d) else d) rfl
    (setDomain (3 + grp.val) false (each gougeOff (groupOf grp.val) s.dev)) (if_pos (Bool.and_eq_true_iff.mpr ⟨hen, hq⟩)) ?_
  have hstate (g : Nat) (hg : g < 136) := gougeOff_each hg (groupOf grp.val) s.dev
  have hl : Leaves (groupRegs grp.val) s.dev (each gougeOff (groupOf grp.val) s.dev) :=
    leaves_eachOf (fun g hg d => (leaves_gougeOff g d).mono fun f hf => by
      rw [List.mem_singleton.mp hf]
      exact List.mem_map_of_mem (mem_groupRegs hg)) s.dev
  generalize each gougeOff (groupOf grp.val) s.dev = e at hstate hl ⊢
  refine ⟨fun g hg h24 => ?_, ?_, ?_⟩
  · rw [get_after, gougeState_setDomain (mem_groupOf hg)]
    exact hstate g (mem_groupOf hg) (Or.inr ⟨hg, h24⟩)
  · rw [domains_after]
    exact bit_setDomain_off (by omega) e
  · refine frame_of_leaves (fs := groupRegs grp.val) ((hl.trans ((leaves_setDomain (3 + grp.val) false e).mono (domainRegs_group grp.val))).mono fun f hf => ?_) s
    exact List.mem_map_of_mem (by simpa using hf)

/-- The state that a gouge takes when its group wakes. -/
def wokenState (g : Nat) (d : Dev) : Nat :=
  if (d.gouS g).replay then 5 else if (d.servedBy g).isSome then (if (d.gouS g).spill then 6 else 1)
  else if (spareList (d.get R.TOP.PROFILE_ACT.GG_SPARES)).contains g then 4 else 0

theorem wokenState_ne (g : Nat) (d : Dev) : wokenState g d % 2 ^ 4 ≠ 3 := by
  unfold wokenState
  split
  · decide
  · split
    · split <;> decide
    · split <;> decide

/-- A gouge that wakes. -/
def gougeWoken (g : Nat) (d : Dev) : Dev :=
  setGou g { d.gouS g with idle := 0, gatedFor := 0 } (put (R.GGE.STATUS.STATE g) (wokenState g d) d)

/-- A gouge as its group wakes. -/
def wakeOne (g : Nat) (d : Dev) : Dev :=
  if (ggePerf g 0xd 1 d).get (R.GGE.STATUS.STATE g) = 3 then gougeWoken g (ggePerf g 0xd 1 d) else ggePerf g 0xd 1 d

theorem wakeGroup_eq (grp : Nat) (d : Dev) : wakeGroup grp d = each wakeOne (groupOf grp) (setDomain (3 + grp) true d) := rfl

theorem upto_wakeOne {g : Nat} (hg : g < 136) (d : Dev) : Upto withGou [R.GGE.STATUS.STATE g] d (wakeOne g d) := by
  have hperf := upto_of_leaves setsPart_withGou (leaves_ggePerf hg 0xd 1 d)
  unfold wakeOne
  generalize ggePerf g 0xd 1 d = e at hperf ⊢
  split
  · exact (hperf.trans (upto_of_leaves setsPart_withGou (leaves_put (R.GGE.STATUS.STATE g) (wokenState g e) e))).trans (upto_setGou ..)
  · exact hperf.mono (by simp)

theorem wakeOne_self {g : Nat} (d : Dev) : (wakeOne g d).get (R.GGE.STATUS.STATE g) ≠ 3 := by
  unfold wakeOne
  split
  · rw [gougeWoken, show ∀ x e, (setGou g x e).get (R.GGE.STATUS.STATE g) = e.get (R.GGE.STATUS.STATE g) from fun _ _ => rfl, get_put_self]
    exact fun h => wokenState_ne _ _ h
  · assumption

theorem get_of_uptoGou {fs : List Fld} {d e : Dev} (h : Upto withGou fs d e) {f : Fld} (hb : bookKey f.key = false) (hf : f.key ∉ fs.map Fld.key) :
    e.get f = d.get f := (h.leaves e.gou).get hb hf

theorem wakeOne_ne {g h : Nat} (hg : g < 136) (hh : h < 136) (hne : g ≠ h) (d : Dev) :
    (wakeOne h d).get (R.GGE.STATUS.STATE g) = d.get (R.GGE.STATUS.STATE g) :=
  get_of_uptoGou (upto_wakeOne hh d) (book_gougeState hg) (by simpa using gougeState_ne hne)

theorem wakeOne_each {g : Nat} (hg : g < 136) {gs : List Nat} (hgs : ∀ h ∈ gs, h < 136) (d : Dev) (hin : g ∈ gs ∨ d.get (R.GGE.STATUS.STATE g) ≠ 3) :
    (each wakeOne gs d).get (R.GGE.STATUS.STATE g) ≠ 3 := by
  induction gs generalizing d with
  | nil => simpa [each] using hin
  | cons h gs ih =>
    refine ih (fun k hk => hgs k (by simp [hk])) (wakeOne h d) ?_
    by_cases hgh : g = h
    · subst hgh
      exact Or.inr (wakeOne_self d)
    · rw [wakeOne_ne hg (hgs h (by simp)) hgh]
      simpa [hgh] using hin

theorem domains_of_get {d e : Dev} (hlo : e.get R.PWR.DOM_ON_LO.ON = d.get R.PWR.DOM_ON_LO.ON) (hhi : e.get R.PWR.DOM_ON_HI.ON = d.get R.PWR.DOM_ON_HI.ON) :
    e.domains = d.domains := by rw [Dev.domains, hlo, hhi, Dev.domains]

theorem wakeGroup_wakes (grp : Fin 8) (d : Dev) : (wakeGroup grp.val d).groupOff grp.val = false ∧
    bit (wakeGroup grp.val d).domains (3 + grp.val) = true ∧ Upto withGou (groupRegs grp.val) d (wakeGroup grp.val d) := by
  rw [wakeGroup_eq]
  have hdom := bit_setDomain_on (n := 3 + grp.val) (by omega) d
  have hl := (leaves_setDomain (3 + grp.val) true d).mono (domainRegs_group grp.val)
  generalize setDomain (3 + grp.val) true d = e at hdom hl ⊢
  have hsub (g : Nat) (hg : g ∈ groupOf grp.val) (d : Dev) : Upto withGou ((groupOf grp.val).map R.GGE.STATUS.STATE) d (wakeOne g d) :=
    (upto_wakeOne (mem_groupOf hg) d).mono fun f hf => by
      rw [List.mem_singleton.mp hf]
      exact List.mem_map_of_mem (List.mem_map_of_mem hg)
  have hup := upto_eachOf setsPart_withGou hsub e
  have hstate (g : Nat) (hg : g ∈ groupOf grp.val) := wakeOne_each (mem_groupOf hg) (fun _ => mem_groupOf) e (Or.inl hg)
  generalize each wakeOne (groupOf grp.val) e = q at hup hstate ⊢
  have hkeep (f : Fld) (hf : f ∈ domainRegs) (hb : bookKey f.key = false) : q.get f = e.get f :=
    get_of_uptoGou hup hb fun hmem => by
      simp only [List.map_map, List.mem_map, Function.comp] at hmem
      obtain ⟨g, -, heq⟩ := hmem
      exact gougeState_domain g f hf heq
  refine ⟨?_, ?_, ?_⟩
  · rw [Dev.groupOff, List.any_eq_false]
    exact fun g hg => by simpa using hstate g hg
  · rw [domains_of_get (hkeep _ (by simp [domainRegs]) (by decide)) (hkeep _ (by simp [domainRegs]) (by decide))]
    exact hdom
  · refine ((upto_of_leaves setsPart_withGou hl).trans hup).mono fun f hf => List.mem_map_of_mem ?_
    simp only [List.mem_append, groupRegs, List.mem_cons] at hf ⊢
    tauto

theorem groupWake_completes (grp : Fin 8) (s : State) (hoff : s.dev.groupOff grp.val = true)
    (hany : (groupOf grp.val).any (fun g => !(s.dev.gouS g).fifo.isEmpty || (s.dev.gouS g).spill) = true) :
    Completes (.groupWake grp) s (fun t => t.dev.groupOff grp.val = false ∧ bit t.dev.domains (3 + grp.val) = true ∧
      Frame (R.PWR.STAT.COUNT 3 :: R.PWR.DOM_ON_LO.ON :: R.PWR.DOM_ON_HI.ON :: (groupOf grp.val).map R.GGE.STATUS.STATE)
        { s.dev with gou := t.dev.gou } s t) := by
  obtain ⟨hg, hb, hup⟩ := wakeGroup_wakes grp s.dev
  refine completes_to (f := fun _ d => if d.groupOff grp.val && (groupOf grp.val).any (fun g => !(d.gouS g).fifo.isEmpty || (d.gouS g).spill) then
    wakeGroup grp.val d else d) rfl (wakeGroup grp.val s.dev) (if_pos (Bool.and_eq_true_iff.mpr ⟨hoff, hany⟩)) ?_
  generalize wakeGroup grp.val s.dev = e at hg hb hup ⊢
  refine ⟨?_, hb, frame_gou hup s⟩
  rw [← hg]
  exact congrArg (fun f : Nat → Bool => (groupOf grp.val).any f) (funext fun g => congrArg (· == 3) (get_after s e _))

end Sys2Proof.Proofs
end

section
/-!
Gouges: the self-test (R262) and the hold by a full output FIFO (R280).
-/
namespace Sys2Proof.Proofs
open Sys2Proof Sys2Proof.Machine

/-! ## The self-test -/

/-- A test strip has passed: its clocks and its event are counted. -/
def stripTested (g : Nat) (d : Dev) : Dev := slot 13 (ggeBase g) 1 256 (ggePerf g 0xe 1 d)

theorem leaves_stripTested {g : Nat} (hg : g < 136) (d : Dev) : Leaves [] d (stripTested g d) :=
  (leaves_ggePerf hg 0xe 1 d).trans (leaves_slot 13 (perfBase_gge hg) (by decide) 256 _)

/-- The failure of a self-test is shown and counted. -/
def testFailed (g : Nat) (d : Dev) : Dev := rasStat 11 1 (event 13 (R.GGE.STATUS.SEQ g) [R.GGE.STATUS.ST_FAIL g] (stripTested g d))

theorem gougeSelfTest_passed {g : Fin 136} {s : State} (hstate : s.dev.get (R.GGE.STATUS.STATE g.val) ∉ [0, 3, 7]) {post : State → Prop}
    (h : post (s.after (inc (R.GGE.ST_COUNT.COUNT g.val) 1 (stripTested g.val s.dev)))) : Completes (.gougeSelfTest g true) s post :=
  completes_to (f := fun _ d => if d.get (R.GGE.STATUS.STATE g.val) = 0 ∨ d.get (R.GGE.STATUS.STATE g.val) = 3 ∨ d.get (R.GGE.STATUS.STATE g.val) = 7
    then d else inc (R.GGE.ST_COUNT.COUNT g.val) 1 (stripTested g.val d)) rfl _ (if_neg (by simpa using hstate)) h

theorem gougeSelfTest_failed {g : Fin 136} {s : State} (hstate : s.dev.get (R.GGE.STATUS.STATE g.val) ∉ [0, 3, 7]) {post : State → Prop}
    (h : post (s.after (gougeFault g.val none s.mem (testFailed g.val s.dev)))) : Completes (.gougeSelfTest g false) s post :=
  completes_to (exec_gougeSelfTest g false s) _ ((if_neg (by simpa using hstate)).trans (if_neg Bool.false_ne_true)) h

theorem gougeSelfTest_passes (g : Fin 136) (s : State) (hstate : s.dev.get (R.GGE.STATUS.STATE g.val) ∉ [0, 3, 7]) :
    Completes (.gougeSelfTest g true) s (fun t =>
      Counted (R.GGE.ST_COUNT.COUNT g.val) 1 s.dev t.dev ∧ Frame [R.GGE.ST_COUNT.COUNT g.val] s.dev s t) := by
  refine gougeSelfTest_passed hstate ?_
  have hl := leaves_stripTested g.isLt s.dev
  generalize stripTested g.val s.dev = e at hl ⊢
  refine ⟨?_, frame_of_leaves (hl.trans (leaves_put ..)) s⟩
  exact counted_of_get (get_put_self ..) (hl.get (gouge_book g.val g.isLt _ (by simp)) (by simp)) (get_after ..)

/-- What a failed self-test shows. -/
def testRegs (g : Nat) : List Fld := [R.GGE.STATUS.SEQ g, R.GGE.STATUS.ST_FAIL g, R.RAS.STAT.COUNT 11]

/-- The status of a gouge lies apart from the repair registers. -/
theorem gougeStatus_ras (g lo w : Nat) (f : Fld) (hf : f.key < 0x1000000 * 64) (hlo : lo < 64) :
    (Fld.key ⟨0x1000000 + 0x2000 * g, lo, w⟩) ≠ f.key := by
  simp only [Fld.key] at hf ⊢
  omega

theorem testFailed_shows {g : Nat} (hg : g < 136) (d : Dev) :
    Raised (R.GGE.STATUS.SEQ g) [R.GGE.STATUS.ST_FAIL g] d (testFailed g d) ∧ Counted (R.RAS.STAT.COUNT 11) 1 d (testFailed g d) ∧
      Leaves (testRegs g) d (testFailed g d) := by
  have hb := gouge_book g hg
  have hl := leaves_stripTested hg d
  have hapart (lo w : Nat) (hlo : lo < 64) : (Fld.key ⟨0x1000000 + 0x2000 * g, lo, w⟩) ≠ (R.RAS.STAT.COUNT 11).key :=
    gougeStatus_ras g lo w _ (by decide) hlo
  have hbs : ∀ f ∈ [R.GGE.STATUS.SEQ g, R.GGE.STATUS.ST_FAIL g], bookKey f.key = false := fun f hf => hb f (by
    simp only [List.mem_cons, List.not_mem_nil, or_false] at hf ⊢; tauto)
  unfold testFailed
  generalize stripTested g d = e at hl ⊢
  have hev : Leaves [R.GGE.STATUS.SEQ g, R.GGE.STATUS.ST_FAIL g] e (event 13 (R.GGE.STATUS.SEQ g) [R.GGE.STATUS.ST_FAIL g] e) := leaves_event ..
  have hr : Raised (R.GGE.STATUS.SEQ g) [R.GGE.STATUS.ST_FAIL g] d (event 13 (R.GGE.STATUS.SEQ g) [R.GGE.STATUS.ST_FAIL g] e) :=
    raised_event hbs (by simp [R.GGE.STATUS.ST_FAIL]) (by simp [Fld.key, R.GGE.STATUS.ST_FAIL, R.GGE.STATUS.SEQ]) (hl.get (hb _ (by simp)) (by simp))
  generalize event 13 (R.GGE.STATUS.SEQ g) [R.GGE.STATUS.ST_FAIL g] e = k at hev hr ⊢
  have hcount : Leaves [R.RAS.STAT.COUNT 11] k (rasStat 11 1 k) := leaves_put ..
  refine ⟨raised_then hr hcount hbs ?_, ?_, (hl.trans hev).trans hcount⟩
  · simpa using ⟨hapart 24 8 (by decide), hapart 12 1 (by decide)⟩
  · refine counted_of_get (get_put_self ..) ((hev.get (by decide) ?_).trans (hl.get (by decide) (by simp))) rfl
    simpa using ⟨(hapart 24 8 (by decide)).symm, (hapart 12 1 (by decide)).symm⟩

theorem testFailed_auto {g : Nat} (hg : g < 136) (d : Dev) : (testFailed g d).on R.RAS.CTL.GG_AUTO = d.on R.RAS.CTL.GG_AUTO := by
  refine on_of_get ((testFailed_shows hg d).2.2.get (by decide) ?_)
  have hapart (lo w : Nat) (hlo : lo < 64) := (gougeStatus_ras g lo w R.RAS.CTL.GG_AUTO (by decide) hlo).symm
  simpa [testRegs] using ⟨hapart 24 8 (by decide), hapart 12 1 (by decide), by decide⟩

theorem gougeSelfTest_fails (g : Fin 136) (s : State) (hstate : s.dev.get (R.GGE.STATUS.STATE g.val) ∉ [0, 3, 7]) (hauto : s.dev.on R.RAS.CTL.GG_AUTO = false) :
    Completes (.gougeSelfTest g false) s (fun t =>
      Raised (R.GGE.STATUS.SEQ g.val) [R.GGE.STATUS.ST_FAIL g.val] s.dev t.dev ∧ Counted (R.RAS.STAT.COUNT 11) 1 s.dev t.dev ∧
      Frame [R.GGE.STATUS.SEQ g.val, R.GGE.STATUS.ST_FAIL g.val, R.RAS.STAT.COUNT 11] s.dev s t) := by
  refine gougeSelfTest_failed hstate ?_
  obtain ⟨hr, hc, hl⟩ := testFailed_shows g.isLt s.dev
  have hoff := (testFailed_auto g.isLt s.dev).trans hauto
  generalize testFailed g.val s.dev = e at hr hc hl hoff ⊢
  rw [gougeFault, if_pos (by simp [hoff])]
  exact ⟨raised_after hr s, hc, frame_of_leaves hl s⟩

theorem get_recordRepair {f : Fld} (hb : bookKey f.key = false) (hs : f.key ≠ R.RAS.STATUS.SEQ.key) (hf : f.key ≠ R.RAS.STATUS.MAP_FULL.key)
    (kind block inst data : Nat) (d : Dev) : (recordRepair kind block inst data d).get f = d.get f := by
  unfold recordRepair
  extract_lets e n d1
  split
  · rfl
  · exact get_event hb hs (by simpa using hf) ..

/-- A gouge without a strip is retired: its state says so, and it holds no components. -/
theorem gougeFault_unplaced {g : Nat} (hg : g < 136) (found : Option Nat) (m : Mem) (d : Dev) (hr : d.gouRetired g = false) (hauto : d.on R.RAS.CTL.GG_AUTO = true)
    (hs : d.servedBy g = none) : (gougeFault g found m d).get (R.GGE.STATUS.STATE g) = 7 ∧ ((gougeFault g found m d).gouS g).comps = [] := by
  have hne (f : Fld) (hf : f.key < 0x1000000 * 64) : (R.GGE.STATUS.STATE g).key ≠ f.key := gougeStatus_ras g 0 4 f hf (by decide)
  rw [gougeFault, if_neg (by simp [hr, hauto]), hs]
  dsimp only
  have hstate : (recordRepair 1 13 g 0 (put (R.GGE.STATUS.STATE g) 7 d)).get (R.GGE.STATUS.STATE g) = 7 := by
    rw [get_recordRepair (book_gougeState hg) (hne _ (by decide)) (hne _ (by decide))]
    exact get_put_self ..
  generalize recordRepair 1 13 g 0 (put (R.GGE.STATUS.STATE g) 7 d) = e at hstate ⊢
  refine ⟨?_, ?_⟩
  · rw [showSpares, get_put_ne (hne _ (by decide)), get_put_ne (hne _ (by decide))]
    exact hstate
  · exact congrArg GouS.comps (gouS_setGou ..)

theorem testFailed_gouge {g : Nat} (hg : g < 136) {lo w : Nat} (hlo : lo < 64) (ha : lo ≠ 12 ∧ lo ≠ 24) {a : Nat} (hn : a = 0x1000000 ∨ a = 0x1000004)
    (hb : bookKey (Fld.key ⟨a + 0x2000 * g, lo, w⟩) = false) (d : Dev) : (testFailed g d).get ⟨a + 0x2000 * g, lo, w⟩ = d.get ⟨a + 0x2000 * g, lo, w⟩ := by
  refine (testFailed_shows hg d).2.2.get hb ?_
  simp only [testRegs, List.map_cons, List.map_nil, List.mem_cons, List.not_mem_nil, or_false, Fld.key, R.GGE.STATUS.SEQ, R.GGE.STATUS.ST_FAIL, R.RAS.STAT.COUNT]
  omega

theorem gougeStrip_book : ∀ g < 136, bookKey (R.GGE.STRIP.VALID g).key = false ∧ bookKey (R.GGE.STRIP.STRIP g).key = false := by decide +kernel

theorem gougeSelfTest_retires (g : Fin 136) (s : State) (hstate : s.dev.get (R.GGE.STATUS.STATE g.val) ∉ [0, 3, 7]) (hauto : s.dev.on R.RAS.CTL.GG_AUTO = true)
    (hs : s.dev.servedBy g.val = none) :
    Completes (.gougeSelfTest g false) s (fun t => t.dev.get (R.GGE.STATUS.STATE g.val) = 7 ∧ (t.dev.gouS g.val).comps = []) := by
  refine gougeSelfTest_failed hstate ?_
  have hst := testFailed_gouge g.isLt (lo := 0) (w := 4) (by decide) (by decide) (.inl rfl) (book_gougeState g.isLt) s.dev
  have hv := testFailed_gouge g.isLt (lo := 31) (w := 1) (by decide) (by decide) (.inr rfl) (gougeStrip_book g.val g.isLt).1 s.dev
  have hst' := testFailed_gouge g.isLt (lo := 0) (w := 8) (by decide) (by decide) (.inr rfl) (gougeStrip_book g.val g.isLt).2 s.dev
  have hon := (testFailed_auto g.isLt s.dev).trans hauto
  generalize testFailed g.val s.dev = e at hst hv hst' hon ⊢
  refine gougeFault_unplaced g.isLt none s.mem e ?_ hon ?_
  · rw [Dev.gouRetired, show e.get (R.GGE.STATUS.STATE g.val) = _ from hst]
    simp only [List.mem_cons, List.not_mem_nil, or_false, not_or] at hstate
    exact beq_eq_false_iff_ne.mpr hstate.2.2
  · rw [← hs, Dev.servedBy, Dev.servedBy, on_of_get (f := R.GGE.STRIP.VALID g.val) hv,
      show e.get (R.GGE.STRIP.STRIP g.val) = s.dev.get (R.GGE.STRIP.STRIP g.val) from hst']

/-! ## The hold -/

/-- The free values of a device start at `x`. -/
def withFree (x : Nat) (d : Dev) : Dev := { d with free := x }

theorem setsPart_withFree : SetsPart withFree := fun _ _ => ⟨rfl, rfl⟩

theorem perfBase_mrg : PerfBase 0x1200000 := by
  unfold PerfBase
  decide

theorem leaves_mrgPerf (code n : Nat) (d : Dev) : Leaves [] d (mrgPerf code n d) := leaves_perf 14 perfBase_mrg code n d

theorem countHold_held {g : Nat} {d : Dev} (ho : (d.gouS g).owed ≠ []) : ∃ n, 0 < n ∧ Counted (R.MRG.STAT.COUNT 15) n d (countHold g d) ∧
    Upto withFree [R.MRG.STAT.COUNT 15] d (countHold g d) := by
  have hl (n : Nat) : Leaves [R.MRG.STAT.COUNT 15] d (mrgPerf 0xd n (inc (R.MRG.STAT.COUNT 15) n d)) := (leaves_put ..).trans (leaves_mrgPerf ..)
  refine ⟨max 1 (d.fresh % 2 ^ 32), by omega, ?_, ?_⟩
  all_goals rw [countHold, if_neg (by simpa using ho)]
  · exact ((leaves_mrgPerf ..).get (f := R.MRG.STAT.COUNT 15) (by decide) (by simp)).trans (get_put_self ..)
  · exact (upto_of_leaves setsPart_withFree (hl _)).trans (upto_of_eq fun _ => rfl)

theorem runRecord_held (g : Fin 136) (s : State) (ht : s.dev.gouTakes g.val = false) (ho : (s.dev.gouS g.val).owed ≠ []) :
    Completes (.runRecord g) s (fun t => (∃ n, 0 < n ∧ Counted (R.MRG.STAT.COUNT 15) n s.dev t.dev) ∧
      Frame [R.MRG.STAT.COUNT 15] { s.dev with free := t.dev.free } s t) := by
  obtain ⟨n, hn, hc, hup⟩ := countHold_held ho
  refine completes_to (exec_runRecord g s) (countHold g.val s.dev) (if_pos (by rw [ht]; rfl)) ?_
  exact ⟨⟨n, hn, hc⟩, frame_of_upto hup s (countHold g.val s.dev).free rfl⟩

end Sys2Proof.Proofs
end

section
/-!
Gouges take run records (R253 to R255): a run without neighbours starts a component, one that joins the open component adds
to it.
-/
namespace Sys2Proof.Proofs
open Sys2Proof Sys2Proof.Machine

/-! ## What the bookkeeping keeps -/

/-- From `d` to `e` the gouges and the merge unit stay. -/
structure GouKept (d e : Dev) : Prop where
  gou : e.gou = d.gou
  mrg : e.mrg = d.mrg

section
variable {d e : Dev}

theorem gouKept_refl (d : Dev) : GouKept d d := ⟨rfl, rfl⟩

theorem GouKept.trans {k : Dev} (h : GouKept d e) (h' : GouKept e k) : GouKept d k := ⟨h'.gou.trans h.gou, h'.mrg.trans h.mrg⟩

theorem GouKept.gouS (h : GouKept d e) (g : Nat) : e.gouS g = d.gouS g := by rw [Dev.gouS, h.gou, Dev.gouS]

theorem gouKept_of_leaves {fs : List Fld} (h : Leaves fs d e) : GouKept d e := ⟨gou_of_leaves h, mrg_of_leaves h⟩

theorem gouKept_when {c : Bool} {F : Dev → Dev} (h : ∀ d, GouKept d (F d)) (d : Dev) : GouKept d (when c F d) := by
  cases c with
  | true => exact h d
  | false => exact gouKept_refl d

theorem gouKept_put (f : Fld) (v : Nat) (d : Dev) : GouKept d (put f v d) := gouKept_of_leaves (leaves_put ..)

theorem gouKept_peak (f : Fld) (v : Nat) (d : Dev) : GouKept d (peak f v d) := by
  unfold peak
  split
  · exact gouKept_put ..
  · exact gouKept_refl d

end

theorem gouKept_ggePerf {g : Nat} (hg : g < 136) (code n : Nat) (d : Dev) : GouKept d (ggePerf g code n d) := gouKept_of_leaves (leaves_ggePerf hg code n d)

theorem gouKept_ggeStat (g c n : Nat) (d : Dev) : GouKept d (ggeStat g c n d) := gouKept_put ..

/-- A count of a gouge and the counter of its performance event. -/
theorem gouKept_ggeCount {g : Nat} (hg : g < 136) (code n c k : Nat) (d : Dev) : GouKept d (ggePerf g code n (ggeStat g c k d)) :=
  (gouKept_ggeStat ..).trans (gouKept_ggePerf hg ..)

theorem gouKept_showPtrs (s : Nat) (d : Dev) : GouKept d (showPtrs s d) := (gouKept_put ..).trans (gouKept_put ..)

theorem gouKept_reportKeep (g s : Nat) (d : Dev) : GouKept d (reportKeep g s d) := by
  unfold reportKeep setKeep
  exact (⟨rfl, rfl⟩ : GouKept d (setStrip s _ d)).trans (gouKept_showPtrs ..)

theorem gouKept_showOpen (g : Nat) (d : Dev) : GouKept d (showOpen g d) := by
  unfold showOpen
  exact (gouKept_put ..).trans (gouKept_peak ..)

theorem gouKept_showFifo (g : Nat) (d : Dev) : GouKept d (showFifo g d) := by
  unfold showFifo
  exact (gouKept_put ..).trans (gouKept_peak ..)

theorem gouKept_gouSlot {g : Nat} (hg : g < 136) (k n : Nat) (hk : k < 16) (d : Dev) : GouKept d (slot 13 (ggeBase g) k n d) :=
  gouKept_of_leaves (leaves_slot 13 (perfBase_gge hg) hk n d)

theorem gouKept_takeFree (d : Dev) : GouKept d (takeFree d) := ⟨rfl, rfl⟩

/-! ## The record that a gouge takes -/

/-- A gouge that its FIFO feeds reads no journal. -/
theorem skipLost_fed {g : Nat} {m : Mem} {d : Dev} (h : (d.gouS g).spill = false) : skipLost g m d = d := by
  unfold skipLost
  cases d.servedBy g with
  | none => rfl
  | some s => exact if_neg (by simp [h])

theorem leaveJournal_fed {g : Nat} {m : Mem} {d : Dev} (h : (d.gouS g).spill = false) : leaveJournal g m d = d := by
  unfold leaveJournal
  cases d.servedBy g with
  | none => rfl
  | some s => exact if_neg (by simp [h])

theorem nextRec_fifo {g i : Nat} {r : GRec} {rest : List (Nat × GRec)} {m : Mem} {d : Dev} (h : (d.gouS g).fifo = (i, r) :: rest) :
    d.nextRec m g = some (i, r, 1, false) := by
  unfold Dev.nextRec
  dsimp only
  rw [h]

theorem execRunRecord_fed {g : Fin 136} {i st : Nat} {r : RunRec} {rest : List (Nat × GRec)} {s : State} (ht : s.dev.gouTakes g.val = true)
    (hs : s.dev.servedBy g.val = some st) (hsp : (s.dev.gouS g.val).spill = false) (hf : (s.dev.gouS g.val).fifo = (i, .run r) :: rest)
    {post : State → Prop} (h : post (s.after (labelRun g.val st i r (consume g.val 1 false s.dev)))) : Completes (.runRecord g) s post := by
  refine completes_to (exec_runRecord g s) _ ?_ h
  rw [if_neg (by simp [ht]), skipLost_fed hsp, leaveJournal_fed hsp]
  dsimp only
  rw [hs, nextRec_fifo hf]

theorem execEndRecord_fed {g : Fin 136} {i st : Nat} {f : EndRec} {rest : List (Nat × GRec)} {s : State} (ht : s.dev.gouTakes g.val = true)
    (hs : s.dev.servedBy g.val = some st) (hsp : (s.dev.gouS g.val).spill = false) (hf : (s.dev.gouS g.val).fifo = (i, .fin f) :: rest)
    {post : State → Prop} (h : post (s.after (takeEnd g.val st i f s.mem (consume g.val 1 false s.dev)))) : Completes (.endRecord g) s post := by
  refine completes_to (exec_endRecord g s) _ ?_ h
  rw [if_neg (by simp [ht]), skipLost_fed hsp, leaveJournal_fed hsp]
  dsimp only
  rw [hs, nextRec_fifo hf]

/-- The gouge without its oldest record. -/
def fifoTaken (g : Nat) (d : Dev) : Dev := setGou g { d.gouS g with fifo := (d.gouS g).fifo.tail } d

theorem consume_fed (g : Nat) (d : Dev) : consume g 1 false d = showFifo g (fifoTaken g d) := by
  unfold consume
  rfl

theorem gouS_consume (g : Nat) (d : Dev) : (consume g 1 false d).gouS g = { d.gouS g with fifo := (d.gouS g).fifo.tail } := by
  rw [consume_fed, (gouKept_showFifo ..).gouS]
  exact gouS_setGou ..

theorem mrg_consume (g : Nat) (d : Dev) : (consume g 1 false d).mrg = d.mrg := (gouKept_showFifo ..).mrg

/-- The record leaves the registers below the gouges as they are. -/
theorem get_consume {f : Fld} (hf : f.key < 0x1000000 * 64) (g : Nat) (d : Dev) : (consume g 1 false d).get f = d.get f := by
  have hne (a lo w : Nat) (ha : 0x1000000 ≤ a) : f.key ≠ Fld.key ⟨a + 0x2000 * g, lo, w⟩ := by
    simp only [Fld.key] at hf ⊢
    omega
  rw [consume_fed, showFifo, peak]
  split
  · exact ((get_put_ne (hne 0x100000c 16 12 (by decide)) _ _).trans (get_put_ne (hne 0x100000c 0 12 (by decide)) _ _)).trans rfl
  · exact (get_put_ne (hne 0x100000c 0 12 (by decide)) _ _).trans rfl

theorem conn_consume (g : Nat) (d : Dev) : (consume g 1 false d).on R.CLS.GG_CTL.CONN = d.on R.CLS.GG_CTL.CONN := on_of_get (get_consume (by decide) g d)

/-- A count of the class of a run's pixels. -/
theorem nth_setNth {k v : Nat} {xs : List Nat} (hk : k < xs.length) : nth 0 (setNth xs k v) k = v := by
  induction xs generalizing k with
  | nil => simp at hk
  | cons x xs ih =>
    cases k with
    | zero => rfl
    | succ k => exact ih (by simpa using hk)

/-- The first count of a class. -/
theorem firstCount (v : Nat) {k : Nat} (hk : k < 16) :
    nth 0 (setNth (List.replicate 16 0) k (nth 0 (List.replicate 16 0) k + v)) k = v := by
  have hzero : ∀ j < 16, nth 0 (List.replicate 16 0) j = 0 := by decide
  rw [nth_setNth (by simpa using hk), hzero k hk, Nat.zero_add]

/-! ## A run without neighbours -/

theorem atLine_first {x : GouS} (h : x.curLsn = none) (n e : Nat) : x.atLine n e = { x with curLsn := some n } := by
  unfold GouS.atLine
  rw [h]

theorem atLine_idle {x : GouS} (hc : x.comps = []) (hr : x.cur = []) (n e : Nat) :
    (x.atLine n e).comps = [] ∧ (x.atLine n e).cur = [] ∧ (x.atLine n e).fifo = x.fifo := by
  cases hk : x.curLsn with
  | none =>
    rw [atLine_first hk]
    exact ⟨hc, hr, rfl⟩
  | some k =>
    unfold GouS.atLine
    rw [hk, hc]
    dsimp only [List.map_nil]
    generalize (x.prevLsn == some ((k + 2 ^ 32 - 1) % 2 ^ 32)) = f
    split
    · exact ⟨hc, hr, rfl⟩
    · exact ⟨rfl, rfl, rfl⟩

/-- A component that a run has started. -/
def Started (r : RunRec) (c : Comp) : Prop :=
  c.first = r.lsn ∧ c.last = r.lsn ∧ c.area = r.len ∧ c.x0 = r.start ∧ c.x1 = r.start + r.len - 1 ∧ c.label % 512 = 0 ∧
    c.m10 = sumCols r.start r.len ∧ c.edgeH = 2 ∧ nth 0 c.cls (r.cf % 16) = r.len

theorem freeSlot_idle {x : GouS} (hc : x.comps = []) : x.freeSlot = some 0 := by
  unfold GouS.freeSlot
  rw [hc, show List.range 512 = 0 :: (List.range 511).map Nat.succ from List.range_succ_eq_map]
  exact List.find?_cons_of_pos rfl

theorem labelRun_starts {g : Nat} (hg : g < 136) (st i : Nat) (r : RunRec) (d : Dev) (hc : (d.gouS g).comps = []) (hr : (d.gouS g).cur = []) :
    ((labelRun g st i r d).gouS g).fifo = (d.gouS g).fifo ∧ ∃ c, ((labelRun g st i r d).gouS g).comps = [c] ∧ Started r c := by
  obtain ⟨hc', hr', hf'⟩ := atLine_idle hc hr r.lsn (d.fresh % 2 ^ 64)
  unfold labelRun
  extract_lets x d1 conn above hits labels cut old edges d2 dfull keep ov
  have hlabels : labels = [] := by
    have habove : above = [] := by
      unfold above
      split
      · exact List.filter_eq_nil_iff.mpr fun e _ => by rw [GouS.comp, show x.comps = [] from hc']; simp
      · rfl
    unfold labels hits
    rw [habove, show x.cur = [] from hr']
    simp
  rw [hlabels, freeSlot_idle hc']
  dsimp -zeta only
  extract_lets gen label c0 c y d3
  have hkeep : GouKept d3 (showOpen g (reportKeep g st (ggePerf g 3 1 (ggeStat g 1 1 (ggePerf g 1 1 (ggeStat g 0 1 d3)))))) :=
    ((gouKept_ggeCount hg ..).trans (gouKept_ggeCount hg ..)).trans ((gouKept_reportKeep ..).trans (gouKept_showOpen ..))
  rw [hkeep.gouS, show d3.gouS g = y from gouS_setGou ..]
  refine ⟨hf', c, ?_, ?_⟩
  · show x.comps ++ [c] = [c]
    rw [show x.comps = [] from hc']
    rfl
  · have hmod : (0 + 512 * gen) % 512 = 0 := by omega
    refine ⟨rfl, rfl, Nat.zero_add _, Nat.min_self _, Nat.max_self _, hmod, Nat.zero_add _, rfl, ?_⟩
    exact firstCount _ (Nat.mod_lt _ (by decide))

theorem runRecord_starts (g : Fin 136) (i st : Nat) (r : RunRec) (rest : List (Nat × GRec)) (s : State) (ht : s.dev.gouTakes g.val = true)
    (hs : s.dev.servedBy g.val = some st) (hsp : (s.dev.gouS g.val).spill = false) (hf : (s.dev.gouS g.val).fifo = (i, .run r) :: rest)
    (hc : (s.dev.gouS g.val).comps = []) (hr : (s.dev.gouS g.val).cur = []) :
    Completes (.runRecord g) s (fun t => (t.dev.gouS g.val).fifo = rest ∧
      ∃ c : Comp, (t.dev.gouS g.val).comps = [c] ∧ c.first = r.lsn ∧ c.last = r.lsn ∧ c.area = r.len ∧ c.x0 = r.start ∧
        c.x1 = r.start + r.len - 1 ∧ c.label % 512 = 0 ∧ c.m10 = sumCols r.start r.len ∧ c.edgeH = 2 ∧ nth 0 c.cls (r.cf % 16) = r.len) := by
  refine execRunRecord_fed ht hs hsp hf ?_
  have hg := gouS_consume g.val s.dev
  generalize consume g.val 1 false s.dev = e at hg ⊢
  obtain ⟨hf', hc'⟩ := labelRun_starts g.isLt st i r e (by rw [hg]; exact hc) (by rw [hg]; exact hr)
  refine ⟨hf'.trans ?_, hc'⟩
  rw [hg, hf]
  rfl

/-! ## A run that joins the open component -/

/-- What a component that takes a run shows. -/
def Joined (c : Comp) (r : RunRec) (k : Comp) : Prop :=
  k.label = c.label ∧ k.first = c.first ∧ k.last = r.lsn ∧ k.area = c.area + r.len ∧ k.x0 = min c.x0 r.start ∧
    k.x1 = max c.x1 (r.start + r.len - 1) ∧ k.edgeH = c.edgeH + 2

theorem joined_addRun (c : Comp) (r : RunRec) (above edges : Nat) (old : Bool) : Joined c r (addRun c r above edges old) := ⟨rfl, rfl, rfl, rfl, rfl, rfl, rfl⟩

theorem comp_single {x : GouS} {c : Comp} (hc : x.comps = [c]) : x.comp c.label = some c := by
  rw [GouS.comp, hc]
  simp

theorem writeOut_gouS (g : Nat) (rs : List CompRec) (d : Dev) : (writeOut g rs d).gouS g =
    { d.gouS g with out := (d.gouS g).out ++ ((d.gouS g).owed ++ rs).take (32 - (d.gouS g).out.length)
                    owed := ((d.gouS g).owed ++ rs).drop (32 - (d.gouS g).out.length) } := gouS_setGou ..

theorem labelRun_joins {g : Nat} (hg : g < 136) (st i : Nat) (r : RunRec) (c : Comp) (a la : Nat) (d : Dev) (hc : (d.gouS g).comps = [c])
    (hr : (d.gouS g).cur = []) (hl : (d.gouS g).curLsn = none) (hp : (d.gouS g).prevLsn = some ((r.lsn + 2 ^ 32 - 1) % 2 ^ 32))
    (hprev : (d.gouS g).prev = [(a, la, c.label)]) (hj : joinsAbove (d.on R.CLS.GG_CTL.CONN) r.start r.len a la = true) :
    ((labelRun g st i r d).gouS g).fifo = (d.gouS g).fifo ∧ ∃ k, ((labelRun g st i r d).gouS g).comps = [k] ∧ Joined c r k := by
  have hd1 : when ((d.gouS g).curLsn.any (· != r.lsn)) takeFree d = d := by rw [hl]; rfl
  unfold labelRun
  rw [hd1]
  extract_lets x d1 conn above hits labels cut old edges d2 dfull keep ov
  have hx : x = { d.gouS g with curLsn := some r.lsn } := atLine_first hl ..
  have hlabels : labels = [c.label] := by
    have hcomp : x.comp c.label = some c := comp_single (by rw [hx]; exact hc)
    have habove : above = [(a, la, c.label)] := by
      unfold above
      rw [if_pos (by rw [hx]; exact hp), show x.prev = [(a, la, c.label)] by rw [hx]; exact hprev]
      simp [hcomp]
    unfold labels hits
    rw [habove, show x.cur = [] by rw [hx]; exact hr]
    rw [List.filter_cons_of_pos (p := fun e : Nat × Nat × Nat => joinsAbove conn r.start r.len e.1 e.2.1) hj]
    rfl
  rw [hlabels]
  dsimp -zeta only
  extract_lets mg y label y' d3 d4
  have hd3 : d3.gouS g = { y' with out := y'.out ++ (y'.owed ++ []).take (32 - y'.out.length), owed := (y'.owed ++ []).drop (32 - y'.out.length) } := by
    unfold d3
    rw [writeOut_gouS, gouS_setGou]
    rfl
  have hd4 : GouKept d3 d4 := (gouKept_ggeCount hg ..).trans (gouKept_ggePerf hg ..)
  have hend : GouKept d4 (showOpen g (reportKeep g st (ggePerf g 1 1 (ggeStat g 0 1 d4)))) :=
    (gouKept_ggeCount hg ..).trans ((gouKept_reportKeep ..).trans (gouKept_showOpen ..))
  rw [(hd4.trans hend).gouS, hd3]
  refine ⟨?_, addRun c r ov edges old, ?_, joined_addRun ..⟩
  · show x.fifo = _
    rw [hx]
  · show x.comps.map _ = _
    rw [show x.comps = [c] by rw [hx]; exact hc, List.map_singleton, if_pos (show c.label = label from rfl)]

theorem runRecord_joins (g : Fin 136) (i st : Nat) (r : RunRec) (rest : List (Nat × GRec)) (c : Comp) (a la : Nat) (s : State)
    (ht : s.dev.gouTakes g.val = true) (hs : s.dev.servedBy g.val = some st) (hsp : (s.dev.gouS g.val).spill = false)
    (hf : (s.dev.gouS g.val).fifo = (i, .run r) :: rest) (hc : (s.dev.gouS g.val).comps = [c]) (hr : (s.dev.gouS g.val).cur = [])
    (hl : (s.dev.gouS g.val).curLsn = none) (hp : (s.dev.gouS g.val).prevLsn = some ((r.lsn + 2 ^ 32 - 1) % 2 ^ 32))
    (hprev : (s.dev.gouS g.val).prev = [(a, la, c.label)]) (hj : joinsAbove (s.dev.on R.CLS.GG_CTL.CONN) r.start r.len a la = true) :
    Completes (.runRecord g) s (fun t => (t.dev.gouS g.val).fifo = rest ∧
      ∃ k : Comp, (t.dev.gouS g.val).comps = [k] ∧ k.label = c.label ∧ k.first = c.first ∧ k.last = r.lsn ∧ k.area = c.area + r.len ∧
        k.x0 = min c.x0 r.start ∧ k.x1 = max c.x1 (r.start + r.len - 1) ∧ k.edgeH = c.edgeH + 2) := by
  refine execRunRecord_fed ht hs hsp hf ?_
  have hg := gouS_consume g.val s.dev
  have hconn : (consume g.val 1 false s.dev).on R.CLS.GG_CTL.CONN = s.dev.on R.CLS.GG_CTL.CONN := conn_consume ..
  generalize consume g.val 1 false s.dev = e at hg hconn ⊢
  obtain ⟨hf', hc'⟩ := labelRun_joins g.isLt st i r c a la e (by rw [hg]; exact hc) (by rw [hg]; exact hr) (by rw [hg]; exact hl)
    (by rw [hg]; exact hp) (by rw [hg]; exact hprev) (by rw [hconn]; exact hj)
  refine ⟨hf'.trans ?_, hc'⟩
  rw [hg, hf]
  rfl

end Sys2Proof.Proofs
end

section
/-!
Gouges take END records (R256 to R259): the open component closes, with its record on the output FIFO.
-/
namespace Sys2Proof.Proofs
open Sys2Proof Sys2Proof.Machine

theorem flatMap_range_only {α : Type} (a : α) {m n : Nat} (hm : m < n) (p : Nat → α → Bool) (hp : ∀ k, p k a = decide (m = k)) :
    (List.range n).flatMap (fun k => [a].filter (p k)) = [a] := by
  have hnone (j : Nat) (hj : j ≤ m) : (List.range j).flatMap (fun k => [a].filter (p k)) = [] := by
    refine List.flatMap_eq_nil_iff.mpr fun k hk => ?_
    have := List.mem_range.mp hk
    simp [hp, show m ≠ k by omega]
  induction n with
  | zero => omega
  | succ n ih =>
    rw [List.range_succ, List.flatMap_append, List.flatMap_singleton]
    by_cases hmn : m = n
    · subst hmn
      rw [hnone m (Nat.le_refl m)]
      simp [hp]
    · rw [ih (by omega)]
      simp [hp, hmn]

/-- A component at the END of a line that has none of its runs: the pixels below its line above, and the END record's mark. -/
def endedComp (x : GouS) (follows cap : Bool) (c : Comp) : Comp :=
  let c := closeBelow x.prev x.cur follows c
  if cap then { c with flags := c.flags ||| 32 } else c

theorem endedComp_keeps (x : GouS) (follows cap : Bool) (c : Comp) :
    (endedComp x follows cap c).label = c.label ∧ (endedComp x follows cap c).first = c.first ∧ (endedComp x follows cap c).last = c.last ∧
      (endedComp x follows cap c).area = c.area ∧ residuesHold (endedComp x follows cap c) = residuesHold c := by
  cases cap <;> exact ⟨rfl, rfl, rfl, rfl, rfl⟩

theorem bit_or (a b i : Nat) : bit (a ||| b) i = (bit a i || bit b i) := by
  rw [bit_eq_testBit, bit_eq_testBit, bit_eq_testBit, Nat.testBit_or]

theorem endedComp_edges (x : GouS) (follows cap : Bool) (c : Comp) (i : Nat) (hi : i = 3 ∨ i = 4) :
    bit (endedComp x follows cap c).flags i = bit c.flags i := by
  cases cap with
  | false => rfl
  | true =>
    show bit (c.flags ||| 32) i = _
    rw [bit_or]
    rcases hi with rfl | rfl <;> simp [bit]

/-- The record of a component that closes whole. -/
theorem closeRec_whole {c : Comp} (hres : residuesHold c = true) (st epoch n e : Nat) : closeRec st epoch n e false c =
    { kind := if bit c.flags 3 || bit c.flags 4 then .part else .closure, strip := st, epoch, label := c.label, line := (c.last + 1) % 2 ^ 32, e
      comp := some c } := by
  rw [closeRec, hres]
  simp

/-- A line without runs closes the open component: its record goes out, and the strip is done with the line. -/
structure Closes (g st : Nat) (f : EndRec) (c : Comp) (d e : Dev) : Prop where
  fifo : (e.gouS g).fifo = (d.gouS g).fifo
  comps : (e.gouS g).comps = []
  prevLsn : (e.gouS g).prevLsn = some f.lsn
  out : ∃ r : CompRec, (e.gouS g).out = (d.gouS g).out ++ [r] ∧ r.label = c.label ∧ r.line = (c.last + 1) % 2 ^ 32 ∧
    r.e = f.e ∧ r.comp.map Comp.area = some c.area ∧ r.kind = (if bit c.flags 3 || bit c.flags 4 then .part else .closure)
  done : KMap.get (fun _ => (none : Option Nat)) e.mrg.done st = some f.lsn

theorem gouKept_lostCount (st n lost : Nat) (d : Dev) : GouKept d (logRas 0x0605 st 2 n (inc R.RAS.MIG_REPLAY.COUNT lost d)) :=
  (gouKept_put ..).trans (gouKept_of_leaves (leaves_logRas ..))

/-- The strip `s` is done with a line. -/
def doneNoted (s lsn : Nat) (d : Dev) : Dev := { d with mrg := { d.mrg with done := KMap.put (fun _ => none) d.mrg.done s (some lsn) } }

theorem leaves_setDone (s lsn : Nat) (d : Dev) : Leaves [R.MRG.STRIP_DONE.LSN s] (doneNoted s lsn d) (setDone s lsn d) := leaves_put ..

theorem gou_setDone (s lsn : Nat) (d : Dev) : (setDone s lsn d).gou = d.gou :=
  (gou_of_leaves (leaves_setDone s lsn d)).trans rfl

theorem done_setDone (s lsn : Nat) (d : Dev) : KMap.get (fun _ => (none : Option Nat)) (setDone s lsn d).mrg.done s = some lsn := by
  rw [mrg_of_leaves (leaves_setDone s lsn d)]
  exact KMap.get_put_self (fun _ => none) d.mrg.done s (some lsn)

/-- A clock of a gouge's slot category for its records. -/
theorem gouKept_recordSlot {g : Nat} (hg : g < 136) (replay : Bool) (d : Dev) : GouKept d (slot 13 (ggeBase g) (if replay then 1 else 0) 1 d) :=
  gouKept_gouSlot hg _ _ (by cases replay <;> decide) d

theorem takeEnd_closes {g : Nat} (hg : g < 136) (st i : Nat) (f : EndRec) (c : Comp) (m : Mem) (d : Dev) (hc : (d.gouS g).comps = [c])
    (hl : (d.gouS g).curLsn = none) (hcl : (d.gouS g).closing = []) (hlast : c.last ≠ f.lsn) (hfirst : c.first ≠ f.lsn)
    (hmax : lsnDiff f.lsn c.first < d.maxLines f.lsn) (hres : residuesHold c = true) (hsp : (d.gouS g).spill = false)
    (howed : (d.gouS g).owed = []) (hout : (d.gouS g).out.length < 32) : Closes g st f c d (takeEnd g st i f m d) := by
  unfold takeEnd
  extract_lets n x d1 follows cap comps conts tooLong closes going recs bad x' d2 parts d3 d4 d5 nf d6 lost d7 d8 d9 d10
  have hd1 : d1 = d := by
    unfold d1
    rw [hl]
    rfl
  have hx : x = { d.gouS g with curLsn := some f.lsn } := atLine_first hl ..
  have hcl' : x.closing = [] := by rw [hx]; exact hcl
  obtain ⟨hlabel, hf, hla, harea, hr⟩ := endedComp_keeps x follows cap c
  have hedge := endedComp_edges x follows cap c
  have hcomps : comps = [endedComp x follows cap c] := by
    unfold comps
    rw [show x.comps = [c] by rw [hx]; exact hc, List.map_singleton, hcl']
    exact congrArg (fun k => [if cap = true then { k with flags := k.flags ||| 32 } else k])
      (if_neg hfirst : (if (closeBelow x.prev x.cur follows c).first = n then { closeBelow x.prev x.cur follows c with dtFirst := f.e }
        else closeBelow x.prev x.cur follows c) = _)
  generalize endedComp x follows cap c = k at hlabel hf hla harea hr hedge hcomps
  have hlong : tooLong k = false := by
    refine decide_eq_false ?_
    rw [hf, hd1]
    exact not_le.mpr hmax
  have hcloses : closes k = true := by
    show (k.last != n || tooLong k) = true
    rw [hla, bne_iff_ne.mpr (show c.last ≠ n from hlast), Bool.true_or]
  have hgoing : going = [k] := by
    have hone := flatMap_range_only k (Nat.mod_lt k.label (show 0 < 512 by decide)) (fun j c => c.label % 512 == j && closes c) fun j => by
      rw [hcloses, Bool.and_true]
      rfl
    unfold going
    rw [hcomps, hone, List.map_singleton, if_neg (by rw [hla]; exact hlast)]
  have hrecs : recs = [closeRec st x.epoch n f.e false k] := by
    unfold recs
    rw [hgoing, List.map_singleton, hlong]
  have hbad : bad = false := by
    unfold bad
    rw [hgoing]
    simp [hr, hres]
  rw [hbad, if_neg Bool.false_ne_true]
  have hd2 : d2.gouS g = { x' with out := x'.out ++ recs, owed := [] } := by
    have hconts : conts = [] := by
      unfold conts
      rw [hcl']
      rfl
    have hroom : 1 ≤ 32 - x'.out.length := by
      rw [show x'.out = (d.gouS g).out by rw [show x'.out = x.out from rfl, hx]]
      omega
    have howed' : x'.owed = [] := by
      rw [show x'.owed = x.owed from rfl, hx]
      exact howed
    unfold d2
    rw [writeOut_gouS, gouS_setGou, hconts, howed', hrecs, List.nil_append, List.nil_append, List.take_of_length_le hroom, List.drop_of_length_le hroom]
  have hend : d10 = d9 := if_neg (by rw [show x'.spill = x.spill from rfl, hx, hsp]; simp)
  have h28 : GouKept d2 d8 := by
    have h23 : GouKept d2 d3 := (gouKept_ggeCount hg ..).trans (gouKept_ggePerf hg ..)
    have h67 : GouKept d6 d7 := gouKept_when (gouKept_lostCount st n lost) d6
    exact (((h23.trans (gouKept_ggeCount hg ..)).trans (gouKept_ggeCount hg ..)).trans (gouKept_ggeCount hg ..)).trans (h67.trans (gouKept_recordSlot hg x.replay d7))
  have h89 : d9.gouS g = d2.gouS g := by
    rw [(gouKept_showOpen ..).gouS, Dev.gouS, gou_setDone, (gouKept_reportKeep ..).gou, h28.gou, Dev.gouS]
  rw [hend]
  refine ⟨?_, ?_, ?_, ?_, ?_⟩
  · rw [h89, hd2]
    show x.fifo = _
    rw [hx]
  · rw [h89, hd2]
    show comps.filter _ = []
    rw [hcomps]
    simp [hcloses]
  · rw [h89, hd2]
  · rw [h89, hd2, hrecs, closeRec_whole (hr.trans hres)]
    refine ⟨_, show x.out ++ _ = _ by rw [hx], hlabel, congrArg (fun l => (l + 1) % 2 ^ 32) hla, rfl, ?_, ?_⟩
    · exact congrArg some harea
    · show (if bit k.flags 3 || bit k.flags 4 then CompKind.part else .closure) = _
      rw [hedge 3 (.inl rfl), hedge 4 (.inr rfl)]
  · rw [(gouKept_showOpen ..).mrg]
    exact done_setDone ..

theorem maxLines_consume (g : Nat) (d : Dev) (n : Nat) : (consume g 1 false d).maxLines n = d.maxLines n := by
  have hcls : (consume g 1 false d).cls = d.cls := by
    rw [consume_fed, showFifo, peak]
    split <;> rfl
  rw [Dev.maxLines, hcls, get_consume (by decide), Dev.maxLines]

theorem endRecord_closes (g : Fin 136) (i st : Nat) (f : EndRec) (c : Comp) (rest : List (Nat × GRec)) (s : State) (ht : s.dev.gouTakes g.val = true)
    (hs : s.dev.servedBy g.val = some st) (hsp : (s.dev.gouS g.val).spill = false) (hf : (s.dev.gouS g.val).fifo = (i, .fin f) :: rest)
    (hc : (s.dev.gouS g.val).comps = [c]) (hl : (s.dev.gouS g.val).curLsn = none) (hcl : (s.dev.gouS g.val).closing = []) (hlast : c.last ≠ f.lsn)
    (hfirst : c.first ≠ f.lsn) (hmax : lsnDiff f.lsn c.first < s.dev.maxLines f.lsn) (hres : residuesHold c = true)
    (howed : (s.dev.gouS g.val).owed = []) (hout : (s.dev.gouS g.val).out.length < 32) :
    Completes (.endRecord g) s (fun t =>
      (t.dev.gouS g.val).fifo = rest ∧ (t.dev.gouS g.val).comps = [] ∧ (t.dev.gouS g.val).prevLsn = some f.lsn ∧
      (∃ r : CompRec, (t.dev.gouS g.val).out = (s.dev.gouS g.val).out ++ [r] ∧ r.label = c.label ∧ r.line = (c.last + 1) % 2 ^ 32 ∧
        r.e = f.e ∧ r.comp.map Comp.area = some c.area ∧
        r.kind = (if bit c.flags 3 || bit c.flags 4 then .part else .closure)) ∧
      KMap.get (fun _ => (none : Option Nat)) t.dev.mrg.done st = some f.lsn) := by
  refine execEndRecord_fed ht hs hsp hf ?_
  have hg := gouS_consume g.val s.dev
  have hm : lsnDiff f.lsn c.first < (consume g.val 1 false s.dev).maxLines f.lsn := by
    rw [maxLines_consume]
    exact hmax
  generalize consume g.val 1 false s.dev = e at hg hm ⊢
  have h := takeEnd_closes g.isLt st i f c s.mem e (by rw [hg]; exact hc) (by rw [hg]; exact hl) (by rw [hg]; exact hcl) hlast hfirst
    hm hres (by rw [hg]; exact hsp) (by rw [hg]; exact howed) (by rw [hg]; exact hout)
  generalize takeEnd g.val st i f s.mem e = k at h ⊢
  obtain ⟨hfifo, hcomps, hprev, hout', hdone⟩ := h
  rw [hg] at hfifo hout'
  exact ⟨hfifo.trans (by rw [hf]; rfl), hcomps, hprev, hout', hdone⟩

/-- Settles O41: a gouge's FIFO record is labelled, closed or held as its open component, its FIFO and its settings say. -/
theorem gougesLabelRuns : Obligations.GougesLabelRuns :=
  ⟨runRecord_starts, runRecord_joins, endRecord_closes, runRecord_held, gougeClockGate_completes, groupPowerGate_completes, groupWake_completes,
    gougeSelfTest_passes, gougeSelfTest_fails, gougeSelfTest_retires⟩

end Sys2Proof.Proofs
end

section
/-!
The merge unit: what its operations on nodes and sets change, and the node table they leave (R271 to R277).
-/
namespace Sys2Proof.Proofs
open Sys2Proof Sys2Proof.Machine

/-- The merge unit of a device stands as `x` says. -/
def withMrg (x : MrgS) (d : Dev) : Dev := { d with mrg := x }

theorem setsPart_withMrg : SetsPart withMrg := fun _ _ => ⟨rfl, rfl⟩

/-- What shows the use of the node table. -/
def nodeRegs : List Fld := [R.MRG.NODES.COUNT, R.MRG.NODE_PEAK.PEAK]

/-- From `d` to `e` only the merge unit and the fields `fs` change, beside the books. -/
structure MrgStep (fs : List Fld) (d e : Dev) : Prop where
  upto : Upto withMrg fs d e

section
variable {fs gs : List Fld} {d e k : Dev}

theorem mrgStep_of_leaves (h : Leaves fs d e) : MrgStep fs d e := ⟨upto_of_leaves setsPart_withMrg h⟩

theorem mrgStep_refl (fs : List Fld) (d : Dev) : MrgStep fs d d := mrgStep_of_leaves ((Leaves.refl d).mono (by simp))

theorem MrgStep.trans (h : MrgStep fs d e) (h' : MrgStep fs e k) : MrgStep fs d k :=
  ⟨(h.upto.trans h'.upto).mono fun _ hf => List.mem_map_of_mem (by simpa using hf)⟩

theorem MrgStep.widen (h : MrgStep fs d e) (hs : ∀ f ∈ fs, f ∈ gs) : MrgStep gs d e := ⟨h.upto.mono fun f hf => List.mem_map_of_mem (hs f hf)⟩

/-- The merge unit itself may be set. -/
theorem mrgStep_set (fs : List Fld) (x : MrgS) (d : Dev) : MrgStep fs d { d with mrg := x } :=
  ⟨(upto_of_eq (fun _ => rfl) : Upto withMrg [] d { d with mrg := x }).mono (by simp)⟩

theorem MrgStep.get (h : MrgStep fs d e) {f : Fld} (hb : bookKey f.key = false) (hf : f.key ∉ fs.map Fld.key) : e.get f = d.get f :=
  (h.upto.leaves e.mrg).get hb hf

theorem MrgStep.frame (h : MrgStep fs d e) (s : State) : Frame fs { d with mrg := e.mrg } s (s.after e) := frame_of_upto h.upto s e.mrg rfl

theorem mrgStep_ite {c : Prop} [Decidable c] {a b : Dev} (ha : MrgStep fs d a) (hb : MrgStep fs d b) : MrgStep fs d (if c then a else b) := by
  split
  · exact ha
  · exact hb

theorem mrgStep_when {c : Bool} {F : Dev → Dev} (h : MrgStep fs d (F d)) : MrgStep fs d (when c F d) := ⟨upto_when c h.upto⟩

theorem mrgStep_each {α : Type} {F : α → Dev → Dev} (h : ∀ x d, MrgStep fs d (F x d)) (xs : List α) (d : Dev) : MrgStep fs d (each F xs d) := by
  induction xs generalizing d with
  | nil => exact mrgStep_refl fs d
  | cons x xs ih => exact (h x d).trans (ih _)

theorem mrgStep_perf (fs : List Fld) (code n : Nat) (d : Dev) : MrgStep fs d (mrgPerf code n d) := (mrgStep_of_leaves (leaves_mrgPerf ..)).widen (by simp)

theorem mrgStep_stat {c : Nat} (hc : R.MRG.STAT.COUNT c ∈ fs) (n : Nat) (d : Dev) : MrgStep fs d (mrgStat c n d) :=
  (mrgStep_of_leaves (leaves_put ..)).widen (by simpa using hc)

/-- A count of the merge unit and the counter of its performance event. -/
theorem mrgStep_count {c : Nat} (hc : R.MRG.STAT.COUNT c ∈ fs) (code n k : Nat) (d : Dev) : MrgStep fs d (mrgPerf code n (mrgStat c k d)) :=
  (mrgStep_stat hc k d).trans (mrgStep_perf fs code n _)

end

/-! ## Nodes -/

/-- The node table with a node in its place. -/
def nodePut (i : Nat) (n : Option Node) (d : Dev) : Dev := { d with mrg := { d.mrg with nodes := KMap.put (fun _ => none) d.mrg.nodes i n } }

theorem leaves_setNode (i : Nat) (n : Option Node) (d : Dev) : Leaves nodeRegs (nodePut i n d) (setNode i n d) := by
  unfold setNode peak
  extract_lets d1 k
  split
  · exact (leaves_put ..).trans (leaves_put ..)
  · exact (leaves_put ..).mono (by simp [nodeRegs])

theorem mrg_setNode (i : Nat) (n : Option Node) (d : Dev) : (setNode i n d).mrg = { d.mrg with nodes := KMap.put (fun _ => none) d.mrg.nodes i n } :=
  mrg_of_leaves (leaves_setNode i n d)

theorem node_setNode (i j : Nat) (n : Option Node) (d : Dev) : (setNode i n d).node j = if j = i then n else d.node j := by
  rw [Dev.node, mrg_setNode]
  exact KMap.get_put ..

theorem mrgStep_setNode {fs : List Fld} (h : ∀ f ∈ nodeRegs, f ∈ fs) (i : Nat) (n : Option Node) (d : Dev) : MrgStep fs d (setNode i n d) :=
  (mrgStep_set fs _ d).trans ((mrgStep_of_leaves (leaves_setNode i n d)).widen h)

/-- From `d` to `e` the merge unit stays but for its node table and its sets. -/
structure NodesOnly (d e : Dev) : Prop where
  inQ : e.mrg.inQ = d.mrg.inQ
  outQ : e.mrg.outQ = d.mrg.outQ
  edge : e.mrg.edge = d.mrg.edge
  paired : e.mrg.paired = d.mrg.paired

theorem nodesOnly_refl (d : Dev) : NodesOnly d d := ⟨rfl, rfl, rfl, rfl⟩

theorem NodesOnly.trans {d e k : Dev} (h : NodesOnly d e) (h' : NodesOnly e k) : NodesOnly d k :=
  ⟨h'.inQ.trans h.inQ, h'.outQ.trans h.outQ, h'.edge.trans h.edge, h'.paired.trans h.paired⟩

theorem nodesOnly_of_mrg {d e : Dev} (h : e.mrg = d.mrg) : NodesOnly d e := by
  constructor <;> rw [h]

theorem nodesOnly_setNode (i : Nat) (n : Option Node) (d : Dev) : NodesOnly d (setNode i n d) := by
  constructor <;> rw [mrg_setNode]

theorem mrg_perf (code n : Nat) (d : Dev) : (mrgPerf code n d).mrg = d.mrg := mrg_of_leaves (leaves_mrgPerf ..)

theorem mrg_stat (c n : Nat) (d : Dev) : (mrgStat c n d).mrg = d.mrg := rfl

/-- A count and its event leave the merge unit. -/
theorem mrg_count (code n c k : Nat) (d : Dev) : (mrgPerf code n (mrgStat c k d)).mrg = d.mrg := by rw [mrg_perf, mrg_stat]

theorem node_of_mrg {d e : Dev} (h : e.mrg = d.mrg) (i : Nat) : e.node i = d.node i := by rw [Dev.node, h, Dev.node]

theorem nodeOf_of_mrg {d e : Dev} (h : e.mrg = d.mrg) (strip epoch label : Nat) : e.nodeOf strip epoch label = d.nodeOf strip epoch label := by
  rw [Dev.nodeOf, h, Dev.nodeOf]

theorem nodeFor_found {strip epoch label i : Nat} {d : Dev} (h : d.nodeOf strip epoch label = some i) (line : Nat) :
    nodeFor strip epoch label line d = (d, some i) := by rw [nodeFor, h]

/-- The values of a map, each changed, are the changed values of the map. -/
theorem get_mapValues {α β : Type} (f : α → β) (a : Nat → α) (b : Nat → β) (hab : ∀ k, f (a k) = b k) (m : KMap α) (k : Nat) :
    KMap.get b (m.map fun e => (e.1, f e.2)) k = f (KMap.get a m k) := by
  induction m with
  | nil => exact (hab k).symm
  | cons e m ih =>
    obtain ⟨j, v⟩ := e
    simp only [List.map_cons, KMap.get]
    split
    · rfl
    · exact ih

/-! ## Earliest lines -/

/-- A node with its earliest line. -/
def withEarly (line : Nat) (n : Node) : Node := if lsnDiff line n.early < 0 then { n with early := line } else n

theorem nodeEarly_node {i : Nat} {n : Node} {d : Dev} (h : d.node i = some n) (line : Nat) :
    (nodeEarly i line d).node i = some (withEarly line n) ∧ ∀ j, j ≠ i → (nodeEarly i line d).node j = d.node j := by
  unfold nodeEarly withEarly
  rw [h]
  dsimp only
  split
  · exact ⟨by rw [node_setNode, if_pos rfl], fun j hj => by rw [node_setNode, if_neg hj]⟩
  · exact ⟨h, fun _ _ => rfl⟩

theorem withEarly_keeps (line : Nat) (n : Node) :
    (withEarly line n).set = n.set ∧ (withEarly line n).isOpen = n.isOpen ∧ (withEarly line n).edgeSub = n.edgeSub ∧ (withEarly line n).into = n.into := by
  unfold withEarly
  split <;> exact ⟨rfl, rfl, rfl, rfl⟩

theorem nodesOnly_nodeEarly (i line : Nat) (d : Dev) : NodesOnly d (nodeEarly i line d) := by
  unfold nodeEarly
  split
  · split
    · exact nodesOnly_setNode ..
    · exact nodesOnly_refl d
  · exact nodesOnly_refl d

theorem mrgStep_nodeEarly {fs : List Fld} (h : ∀ f ∈ nodeRegs, f ∈ fs) (i line : Nat) (d : Dev) : MrgStep fs d (nodeEarly i line d) := by
  unfold nodeEarly
  split
  · split
    · exact mrgStep_setNode h ..
    · exact mrgStep_refl fs d
  · exact mrgStep_refl fs d

/-! ## Unions -/

/-- A node whose set joins another. -/
def rejoined (a b : Nat) (n : Node) : Node := if n.set = b then { n with set := a } else n

theorem rejoined_keeps (a b : Nat) (n : Node) :
    (rejoined a b n).isOpen = n.isOpen ∧ (rejoined a b n).edgeSub = n.edgeSub ∧ (rejoined a b n).into = n.into := by
  unfold rejoined
  split <;> exact ⟨rfl, rfl, rfl⟩

/-- The node table after the set of one node has joined the set of another. -/
theorem union_node {i j : Nat} {a b : Node} {d : Dev} (hi : d.node i = some a) (hj : d.node j = some b) (k : Nat) :
    (union i j d).node k = if a.set = b.set then d.node k else (d.node k).map (rejoined a.set b.set) := by
  unfold union
  rw [hi, hj]
  dsimp only
  split
  · rfl
  · have hget : KMap.get (fun _ => (none : Option Node)) (d.mrg.nodes.map fun e => (e.1, e.2.map (rejoined a.set b.set))) k =
        (d.node k).map (rejoined a.set b.set) :=
      get_mapValues (Option.map (rejoined a.set b.set)) (fun _ => none) (fun _ => none) (fun _ => rfl) d.mrg.nodes k
    split
    · unfold markSplit
      split
      · exact hget
      · exact hget
    · exact hget

theorem mrgStep_markSplit (fs : List Fld) (s : Nat) (d : Dev) : MrgStep fs d (markSplit s d) := mrgStep_ite (mrgStep_refl fs d) (mrgStep_set ..)

theorem nodesOnly_markSplit (s : Nat) (d : Dev) : NodesOnly d (markSplit s d) := by
  unfold markSplit
  split
  · exact nodesOnly_refl d
  · exact ⟨rfl, rfl, rfl, rfl⟩

theorem mrgStep_union (fs : List Fld) (i j : Nat) (d : Dev) : MrgStep fs d (union i j d) := by
  unfold union
  split
  · split
    · exact mrgStep_refl fs d
    · extract_lets x d1
      exact (mrgStep_set fs _ d).trans (mrgStep_ite ((mrgStep_set fs _ d1).trans (mrgStep_markSplit ..)) (mrgStep_refl fs d1))
  · exact mrgStep_refl fs d

theorem nodesOnly_union (i j : Nat) (d : Dev) : NodesOnly d (union i j d) := by
  unfold union
  split
  · split
    · exact nodesOnly_refl d
    · extract_lets x d1
      have h1 : NodesOnly d d1 := ⟨rfl, rfl, rfl, rfl⟩
      have h2 (y : List Nat) : NodesOnly d1 { d1 with mrg := { d1.mrg with splitSets := y } } := ⟨rfl, rfl, rfl, rfl⟩
      split
      · exact (h1.trans (h2 _)).trans (nodesOnly_markSplit ..)
      · exact h1
  · exact nodesOnly_refl d

/-- The two nodes of a union are in one set, and stay what they are. -/
theorem union_sets {i j : Nat} {a b : Node} {d : Dev} (hi : d.node i = some a) (hj : d.node j = some b) :
    ∃ a' b', (union i j d).node i = some a' ∧ (union i j d).node j = some b' ∧ a'.set = a.set ∧ b'.set = a.set ∧
      (a'.isOpen = a.isOpen ∧ a'.edgeSub = a.edgeSub ∧ a'.into = a.into) ∧ (b'.isOpen = b.isOpen ∧ b'.edgeSub = b.edgeSub ∧ b'.into = b.into) := by
  have hn := union_node hi hj
  by_cases hs : a.set = b.set
  · exact ⟨a, b, (hn i).trans ((if_pos hs).trans hi), (hn j).trans ((if_pos hs).trans hj), rfl, hs.symm, ⟨rfl, rfl, rfl⟩, ⟨rfl, rfl, rfl⟩⟩
  · refine ⟨rejoined a.set b.set a, rejoined a.set b.set b, ?_, ?_, ?_, ?_, rejoined_keeps .., rejoined_keeps ..⟩
    · rw [hn, if_neg hs, hi, Option.map_some]
    · rw [hn, if_neg hs, hj, Option.map_some]
    · rw [rejoined, if_neg hs]
    · rw [rejoined, if_pos rfl]

end Sys2Proof.Proofs
end

section
/-!
The merge input FIFO's records: contacts enter the edge map (R271), aliases join sets (R273), partial records close their
nodes (R278); old-epoch nodes close as orphans (R285).
-/
namespace Sys2Proof.Proofs
open Sys2Proof Sys2Proof.Machine

/-- The merge input FIFO without its head. -/
def inTaken (rest : List CompRec) (d : Dev) : Dev := { d with mrg := { d.mrg with inQ := rest } }

theorem takeIn_head {k : CompKind} {f : CompRec → Dev → Dev} {r : CompRec} {rest : List CompRec} {d : Dev} (hq : d.mrg.inQ = r :: rest) (hk : r.kind = k) :
    takeIn k f d = f r (inTaken rest d) := by
  unfold takeIn
  rw [hq]
  exact if_pos hk

/-- The registers that a record of a kind counts in. -/
def inRegs (c : Nat) : List Fld := R.MRG.STAT.COUNT c :: nodeRegs

theorem mem_inRegs (c : Nat) : R.MRG.STAT.COUNT c ∈ inRegs c := List.mem_cons_self ..

theorem nodeRegs_inRegs (c : Nat) : ∀ f ∈ nodeRegs, f ∈ inRegs c := fun _ => List.mem_cons_of_mem _

theorem get_nodeRegs {f : Fld} (hb : bookKey f.key = false) (hf : ∀ k ∈ nodeRegs, f.key ≠ k.key) {d e : Dev} (h : MrgStep nodeRegs d e) :
    e.get f = d.get f := h.get hb fun hmem => by
  obtain ⟨k, hk, heq⟩ := List.mem_map.mp hmem
  exact hf k hk heq.symm

/-- A count of the merge unit, behind which only the node table is shown. -/
theorem counted_nodes {c : Nat} (hb : bookKey (R.MRG.STAT.COUNT c).key = false) (hc : ∀ k ∈ nodeRegs, (R.MRG.STAT.COUNT c).key ≠ k.key) (code n m : Nat)
    {d e : Dev} (h : MrgStep nodeRegs (mrgPerf code n (mrgStat c m d)) e) : Counted (R.MRG.STAT.COUNT c) m d e :=
  (get_nodeRegs hb hc h).trans (((leaves_mrgPerf ..).get hb (by simp)).trans (get_put_self ..))

/-! ## Contacts -/

/-- The strips' registers of the merge unit are none of the books. -/
theorem strip_book : ∀ s < 136, ∀ f ∈ [R.MRG.STRIP_EPOCH.EPOCH s, R.MRG.STRIP_CUT.LSN s, R.MRG.STRIP_PAIRED.LSN s], bookKey f.key = false := by decide +kernel

/-- A strip's registers lie above the counters of the merge unit. -/
theorem strip_count_ne (a s c : Nat) (ha : 0x1201000 ≤ a) (hc : c < 16) (lo w : Nat) : (Fld.key ⟨a + 0x10 * s, lo, w⟩) ≠ (R.MRG.STAT.COUNT c).key := by
  simp only [Fld.key, R.MRG.STAT.COUNT]
  omega

theorem get_strip_count {s c : Nat} (hs : s < 136) (hc : c < 16) {f : Fld} (hf : f ∈ [R.MRG.STRIP_EPOCH.EPOCH s, R.MRG.STRIP_CUT.LSN s, R.MRG.STRIP_PAIRED.LSN s])
    (code n m : Nat) (d : Dev) : (mrgPerf code n (mrgStat c m d)).get f = d.get f := by
  refine ((leaves_mrgPerf ..).get (strip_book s hs f hf) (by simp)).trans (get_put_ne ?_ _ d)
  simp only [List.mem_cons, List.not_mem_nil, or_false] at hf
  rcases hf with rfl | rfl | rfl <;> exact strip_count_ne _ s c (by decide) hc _ _

/-- The edge map with an entry in its place. -/
def edgePut (k : Nat) (x : EdgeEnt) (d : Dev) : Dev := { d with mrg := { d.mrg with edge := KMap.put (fun _ => none) d.mrg.edge k (some x) } }

theorem edgeAt_edgePut (strip side : Nat) (x : EdgeEnt) (d : Dev) : (edgePut (edgeKey strip side x.line) x d).edgeAt strip side x.line = some x := by
  have hget : KMap.get (fun _ => none) (edgePut (edgeKey strip side x.line) x d).mrg.edge (edgeKey strip side x.line) = some x :=
    KMap.get_put_self (fun _ => none) d.mrg.edge (edgeKey strip side x.line) (some x)
  unfold Dev.edgeAt
  rw [hget]
  exact if_pos rfl

theorem contactIn_enters {r : CompRec} {i : Nat} {n : Node} {d : Dev} (hs : r.strip < 136) (hi : d.nodeOf r.strip r.epoch r.label = some i)
    (hn : d.node i = some n)
    (hcut : r.epoch = d.get (R.MRG.STRIP_EPOCH.EPOCH r.strip) → r.epoch ≠ 0 → 0 ≤ lsnDiff r.line (d.get (R.MRG.STRIP_CUT.LSN r.strip)))
    (hedge : KMap.get (fun _ => (none : Option EdgeEnt)) d.mrg.edge (edgeKey r.strip r.other r.line) = none) :
    (contactIn r d).mrg.inQ = d.mrg.inQ ∧
      (contactIn r d).edgeAt r.strip r.other r.line = some { line := r.line, epoch := r.epoch, node := i } ∧
      ((contactIn r d).node i).map Node.set = some n.set ∧ Counted (R.MRG.STAT.COUNT 4) 1 d (contactIn r d) ∧
      MrgStep (inRegs 4) d (contactIn r d) := by
  unfold contactIn
  extract_lets d1 side nf es cut adopts far dFar dNear bare k
  have hm1 : d1.mrg = d.mrg := mrg_count ..
  have hnf : nf = (d1, some i) := nodeFor_found ((nodeOf_of_mrg hm1 ..).trans hi) _
  have hes : es = d.get (R.MRG.STRIP_EPOCH.EPOCH r.strip) := by
    exact get_strip_count hs (by decide) (by simp) ..
  have hcut' : cut = d.get (R.MRG.STRIP_CUT.LSN r.strip) := by
    exact get_strip_count hs (by decide) (by simp) ..
  have hadopts : adopts = false := by
    refine decide_eq_false fun h => ?_
    rw [hes, hcut'] at h
    obtain ⟨he, hz, hl⟩ := h
    exact absurd (hcut he (by rw [he]; exact hz)) (not_le.mpr hl)
  rw [hnf, hadopts]
  dsimp -zeta only
  extract_lets d2 old ov d3 src
  have hn1 : d1.node i = some n := (node_of_mrg hm1 i).trans hn
  have hnode : d2.node i = some (withEarly r.line n) := (nodeEarly_node hn1 r.line).1
  have hkeep : NodesOnly d d2 := (nodesOnly_of_mrg hm1).trans (nodesOnly_nodeEarly ..)
  have hstep : MrgStep nodeRegs d1 d2 := mrgStep_nodeEarly (fun _ h => h) ..
  clear_value d2
  have hd3 : d3 = d2 := by
    have hold : old = none := by
      unfold old
      rw [hkeep.edge]
      exact hedge
    have hover : ov = false := by
      unfold ov
      rw [hold]
    unfold d3
    rewrite [hover]
    exact when_false _ d2
  have hsrc : src = d2.mrg := congrArg Dev.mrg hd3
  rw [hd3, hsrc, if_neg Bool.false_ne_true]
  have hput : MrgStep nodeRegs d1 (edgePut k { line := r.line, epoch := r.epoch, node := i } d2) := hstep.trans (mrgStep_set ..)
  show (edgePut k { line := r.line, epoch := r.epoch, node := i } d2).mrg.inQ = d.mrg.inQ ∧
    (edgePut k { line := r.line, epoch := r.epoch, node := i } d2).edgeAt r.strip r.other r.line = some { line := r.line, epoch := r.epoch, node := i } ∧
    ((edgePut k { line := r.line, epoch := r.epoch, node := i } d2).node i).map Node.set = some n.set ∧
    Counted (R.MRG.STAT.COUNT 4) 1 d (edgePut k { line := r.line, epoch := r.epoch, node := i } d2) ∧
    MrgStep (inRegs 4) d (edgePut k { line := r.line, epoch := r.epoch, node := i } d2)
  refine ⟨hkeep.inQ, edgeAt_edgePut .., ?_, counted_nodes (by decide) (by decide) 4 1 1 hput,
    (mrgStep_count (mem_inRegs 4) 4 1 1 d).trans (hput.widen (nodeRegs_inRegs 4))⟩
  exact (congrArg (Option.map Node.set) hnode).trans (congrArg some (withEarly_keeps r.line n).1)

theorem contact_completes (r : CompRec) (rest : List CompRec) (i : Nat) (n : Node) (s : State) (hq : s.dev.mrg.inQ = r :: rest) (hk : r.kind = .contact)
    (hs : r.strip < 136) (hi : s.dev.nodeOf r.strip r.epoch r.label = some i) (hn : s.dev.node i = some n)
    (hcut : r.epoch = s.dev.get (R.MRG.STRIP_EPOCH.EPOCH r.strip) → r.epoch ≠ 0 →
      0 ≤ lsnDiff r.line (s.dev.get (R.MRG.STRIP_CUT.LSN r.strip)))
    (hedge : KMap.get (fun _ => (none : Option EdgeEnt)) s.dev.mrg.edge (edgeKey r.strip r.other r.line) = none) :
    Completes .contact s (fun t =>
      t.dev.mrg.inQ = rest ∧ t.dev.edgeAt r.strip r.other r.line = some { line := r.line, epoch := r.epoch, node := i } ∧
      (t.dev.node i).map Node.set = some n.set ∧ Counted (R.MRG.STAT.COUNT 4) 1 s.dev t.dev ∧
      Frame [R.MRG.STAT.COUNT 4, R.MRG.NODES.COUNT, R.MRG.NODE_PEAK.PEAK] { s.dev with mrg := t.dev.mrg } s t) := by
  refine completes_to (exec_contact s) _ (takeIn_head hq hk) ?_
  obtain ⟨hin, hedge', hset, hc, hstep⟩ := contactIn_enters (d := inTaken rest s.dev) hs hi hn hcut hedge
  have hall := (mrgStep_set (inRegs 4) _ s.dev : MrgStep (inRegs 4) s.dev (inTaken rest s.dev)).trans hstep
  generalize contactIn r (inTaken rest s.dev) = e at hin hedge' hset hc hall ⊢
  exact ⟨hin, hedge', hset, hc, hall.frame s⟩

/-! ## Aliases -/

/-- The nodes of two labels that join: the survivor takes the subtractions and the earliest line of the loser, which closes as empty. -/
structure Aliased (i j : Nat) (x y : Node) (d e : Dev) : Prop where
  inQ : e.mrg.inQ = d.mrg.inQ
  nodes : ∃ a b, e.node i = some a ∧ e.node j = some b ∧ a.set = x.set ∧ b.set = x.set ∧ b.isOpen = false ∧ b.empty = true ∧
    b.into = some i ∧ a.isOpen = x.isOpen ∧ a.edgeSub = x.edgeSub + y.edgeSub
  count : Counted (R.MRG.STAT.COUNT 5) 1 d e
  step : MrgStep (inRegs 5) d e

theorem aliasIn_joins {r : CompRec} {i j : Nat} {x y : Node} {d : Dev} (hi : d.nodeOf r.strip r.epoch r.label = some i)
    (hj : d.nodeOf r.strip r.epoch r.other = some j) (hne : i ≠ j) (hx : d.node i = some x) (hy : d.node j = some y) :
    Aliased i j x y d (Machine.aliasIn r d) := by
  unfold Machine.aliasIn
  extract_lets d1 a b
  have hm1 : d1.mrg = d.mrg := mrg_count ..
  have hd1 : d1 = mrgPerf 6 1 (mrgStat 5 1 d) := rfl
  clear_value d1
  have ha : a = (d1, some i) := nodeFor_found ((nodeOf_of_mrg hm1 ..).trans hi) _
  have hb : b = (d1, some j) := by
    unfold b
    rw [ha]
    exact nodeFor_found ((nodeOf_of_mrg hm1 ..).trans hj) _
  rw [ha, hb]
  dsimp -zeta only
  extract_lets d2
  have hx1 : d1.node i = some x := (node_of_mrg hm1 i).trans hx
  have hy1 : d1.node j = some y := (node_of_mrg hm1 j).trans hy
  obtain ⟨hxe, hother⟩ := nodeEarly_node hx1 r.line
  have hye : (nodeEarly i r.line d1).node j = some y := (hother j (Ne.symm hne)).trans hy1
  obtain ⟨hset, hopen, hsub, -⟩ := withEarly_keeps r.line x
  obtain ⟨x', y', hx', hy', hxs, hys, ⟨hxo, hxsub, -⟩, ⟨-, hysub, -⟩⟩ := union_sets hxe hye
  have hkeep := ((nodesOnly_of_mrg hm1).trans (nodesOnly_nodeEarly i r.line d1)).trans (nodesOnly_union i j _)
  have hstep : MrgStep nodeRegs d1 _ := (mrgStep_nodeEarly (fun _ h => h) i r.line d1).trans (mrgStep_union nodeRegs i j _)
  have hd2 : d2 = union i j (nodeEarly i r.line d1) := rfl
  rw [← hd2] at hx' hy' hkeep hstep
  clear_value d2
  rw [hx', hy']
  dsimp only
  rw [hd1] at hstep
  have hfst := fun n => mrgStep_setNode (fs := nodeRegs) (fun _ h => h) i (some n) d2
  have hall := fun n m => (hstep.trans (hfst n)).trans (mrgStep_setNode (fun _ h => h) j (some m) _)
  refine ⟨(nodesOnly_setNode ..).inQ.trans ((nodesOnly_setNode ..).inQ.trans hkeep.inQ), ?_,
    counted_nodes (by decide) (by decide) 6 1 1 (hall _ _), (mrgStep_count (mem_inRegs 5) 6 1 1 d).trans ((hall _ _).widen (nodeRegs_inRegs 5))⟩
  refine ⟨_, _, (node_setNode ..).trans ((if_neg hne).trans ((node_setNode ..).trans (if_pos rfl))), (node_setNode ..).trans (if_pos rfl),
    hxs.trans hset, hys.trans hset, rfl, rfl, rfl, hxo.trans hopen, ?_⟩
  show x'.edgeSub + y'.edgeSub = x.edgeSub + y.edgeSub
  rw [hxsub, hysub, hsub]

theorem aliasRecord_completes (r : CompRec) (rest : List CompRec) (i j : Nat) (x y : Node) (s : State) (hq : s.dev.mrg.inQ = r :: rest) (hk : r.kind = .merge)
    (hi : s.dev.nodeOf r.strip r.epoch r.label = some i) (hj : s.dev.nodeOf r.strip r.epoch r.other = some j) (hne : i ≠ j)
    (hx : s.dev.node i = some x) (hy : s.dev.node j = some y) :
    Completes .aliasRecord s (fun t =>
      t.dev.mrg.inQ = rest ∧
      (∃ a b, t.dev.node i = some a ∧ t.dev.node j = some b ∧ a.set = x.set ∧ b.set = x.set ∧ b.isOpen = false ∧ b.empty = true ∧
        b.into = some i ∧ a.isOpen = x.isOpen ∧ a.edgeSub = x.edgeSub + y.edgeSub) ∧
      Counted (R.MRG.STAT.COUNT 5) 1 s.dev t.dev ∧
      Frame [R.MRG.STAT.COUNT 5, R.MRG.NODES.COUNT, R.MRG.NODE_PEAK.PEAK] { s.dev with mrg := t.dev.mrg } s t) := by
  refine completes_to (exec_aliasRecord s) _ (takeIn_head hq hk) ?_
  obtain ⟨hin, hnodes, hc, hstep⟩ := aliasIn_joins (d := inTaken rest s.dev) hi hj hne hx hy
  have hall := (mrgStep_set (inRegs 5) _ s.dev : MrgStep (inRegs 5) s.dev (inTaken rest s.dev)).trans hstep
  generalize Machine.aliasIn r (inTaken rest s.dev) = e at hin hnodes hc hall ⊢
  exact ⟨hin, hnodes, hc, hall.frame s⟩

/-! ## Sets that are freed and forced -/

/-- From `d` to `e` the merge unit's FIFOs and paired lines stay. -/
structure FifosKept (d e : Dev) : Prop where
  inQ : e.mrg.inQ = d.mrg.inQ
  outQ : e.mrg.outQ = d.mrg.outQ
  paired : e.mrg.paired = d.mrg.paired

theorem fifosKept_refl (d : Dev) : FifosKept d d := ⟨rfl, rfl, rfl⟩

theorem FifosKept.trans {d e k : Dev} (h : FifosKept d e) (h' : FifosKept e k) : FifosKept d k :=
  ⟨h'.inQ.trans h.inQ, h'.outQ.trans h.outQ, h'.paired.trans h.paired⟩

theorem NodesOnly.fifos {d e : Dev} (h : NodesOnly d e) : FifosKept d e := ⟨h.inQ, h.outQ, h.paired⟩

/-- The edge map with the entries of a node renamed. -/
def edgeRenamed (e : Nat × Node) (d : Dev) : Dev :=
  { d with mrg := { d.mrg with edge := d.mrg.edge.map (fun (x : Nat × Option EdgeEnt) =>
      (x.1, x.2.map (fun (y : EdgeEnt) => if y.node = e.1 then { y with node := e.2.into.getD 65536 } else y))) } }

theorem freeNode_eq (e : Nat × Node) (d : Dev) : freeNode e d = setNode e.1 none (edgeRenamed e d) := rfl

theorem mrgStep_freeNode {fs : List Fld} (h : ∀ f ∈ nodeRegs, f ∈ fs) (e : Nat × Node) (d : Dev) : MrgStep fs d (freeNode e d) := by
  rw [freeNode_eq]
  exact (mrgStep_set fs _ d : MrgStep fs d (edgeRenamed e d)).trans (mrgStep_setNode h ..)

theorem fifosKept_freeNode (e : Nat × Node) (d : Dev) : FifosKept d (freeNode e d) := by
  rw [freeNode_eq]
  exact (⟨rfl, rfl, rfl⟩ : FifosKept d (edgeRenamed e d)).trans (nodesOnly_setNode ..).fifos

theorem nodes_freeNode (e : Nat × Node) (d : Dev) : (freeNode e d).mrg.nodes = d.mrg.nodes.filter (fun x => x.1 != e.1) := by
  rw [freeNode_eq, mrg_setNode]
  show KMap.put (fun _ => none) d.mrg.nodes e.1 none = _
  exact if_pos rfl

theorem mrgStep_freeNodes {fs : List Fld} (h : ∀ f ∈ nodeRegs, f ∈ fs) (ms : List (Nat × Node)) (d : Dev) : MrgStep fs d (freeNodes ms d) :=
  mrgStep_each (fun e d => mrgStep_freeNode h e d) ms d

theorem fifosKept_freeNodes (ms : List (Nat × Node)) (d : Dev) : FifosKept d (freeNodes ms d) := by
  unfold freeNodes
  induction ms generalizing d with
  | nil => exact fifosKept_refl d
  | cons e ms ih => exact (fifosKept_freeNode e d).trans (ih _)

/-- The registers that forced sets are counted in. -/
theorem forced_regs : ∀ f ∈ nodeRegs, f ∈ inRegs 14 := nodeRegs_inRegs 14

/-- The merge output FIFO with a set at its end. -/
def outPut (x : MergedSet) (d : Dev) : Dev := { d with mrg := { d.mrg with outQ := d.mrg.outQ ++ [x] } }

/-- From `d` to `e` only sets of R277 have entered the merge output FIFO. -/
structure Forced (d e : Dev) : Prop where
  step : MrgStep (inRegs 14) d e
  inQ : e.mrg.inQ = d.mrg.inQ
  paired : e.mrg.paired = d.mrg.paired
  outQ : ∃ more, e.mrg.outQ = d.mrg.outQ ++ more ∧ more.all MergedSet.forced = true

theorem forced_refl (d : Dev) : Forced d d := ⟨mrgStep_refl .., rfl, rfl, [], by simp, rfl⟩

theorem Forced.trans {d e k : Dev} (h : Forced d e) (h' : Forced e k) : Forced d k := by
  obtain ⟨xs, hxs, hall⟩ := h.outQ
  obtain ⟨ys, hys, hall'⟩ := h'.outQ
  exact ⟨h.step.trans h'.step, h'.inQ.trans h.inQ, h'.paired.trans h.paired, xs ++ ys, by rw [hys, hxs, List.append_assoc], by simp [hall, hall']⟩

/-- A set that is forced: its closed members are freed, and it enters the merge output FIFO. -/
def setForced (closed : List (Nat × Node)) (a : Acc) (d : Dev) : Dev := mrgPerf 0xf 1 (mrgStat 14 1 (outPut { acc := a, forced := true } (freeNodes closed d)))

theorem forced_setForced (closed : List (Nat × Node)) (a : Acc) (d : Dev) : Forced d (setForced closed a d) := by
  have hfree : MrgStep (inRegs 14) d (freeNodes closed d) := mrgStep_freeNodes forced_regs ..
  have hkept := fifosKept_freeNodes closed d
  unfold setForced
  generalize freeNodes closed d = e at hfree hkept ⊢
  have hput : MrgStep (inRegs 14) e (outPut { acc := a, forced := true } e) := mrgStep_set ..
  have hm : (outPut { acc := a, forced := true } e).mrg = { e.mrg with outQ := e.mrg.outQ ++ [{ acc := a, forced := true }] } := rfl
  generalize outPut { acc := a, forced := true } e = k at hput hm ⊢
  have hcount : (mrgPerf 0xf 1 (mrgStat 14 1 k)).mrg = k.mrg := mrg_count ..
  rw [hm] at hcount
  refine ⟨(hfree.trans hput).trans (mrgStep_count (mem_inRegs 14) 0xf 1 1 k), ?_, ?_, [{ acc := a, forced := true }], ?_, rfl⟩
  · rw [hcount]
    exact hkept.inQ
  · rw [hcount]
    exact hkept.paired
  · rw [hcount, ← hkept.outQ]

theorem forced_forceSet (k : Nat) (d : Dev) : Forced d (forceSet k d) := by
  unfold forceSet
  extract_lets ms late closed d1 d2
  split
  · split
    · exact forced_setForced ..
    · exact forced_refl d
  · exact forced_refl d

theorem forced_each (ks : List Nat) (d : Dev) : Forced d (each forceSet ks d) := by
  induction ks generalizing d with
  | nil => exact forced_refl d
  | cons k ks ih => exact (forced_forceSet k d).trans (ih _)

theorem forced_forceSets (d : Dev) : Forced d (forceSets d) := forced_each _ d

/-- With no boundary paired no set is late. -/
theorem forceSet_unpaired (k : Nat) {d : Dev} (h : d.mrg.paired = []) : forceSet k d = d := by
  unfold forceSet
  extract_lets ms late closed d1 d2
  have hlate : late = false := by
    unfold late
    split
    · rw [List.any_eq_false]
      intro b _
      rw [h]
      simp
    · rfl
  rw [hlate]
  rfl

theorem forceSets_unpaired {d : Dev} (h : d.mrg.paired = []) : forceSets d = d := by
  unfold forceSets
  generalize d.sets = ks
  induction ks with
  | nil => rfl
  | cons k ks ih =>
    show each forceSet ks (forceSet k d) = d
    rw [forceSet_unpaired k h]
    exact ih

/-! ## Partial records -/

theorem partialIn_closes {r : CompRec} {c : Comp} {i : Nat} {n : Node} {d : Dev} (hi : d.nodeOf r.strip r.epoch r.label = some i) (hn : d.node i = some n) :
    partialIn r c d = setNode i (some { n with isOpen := false, acc := some (accOf d r c), early := c.first }) (mrgStat 3 1 d) := by
  unfold partialIn
  extract_lets d1 a nf
  have hnf : nf = (d1, some i) := nodeFor_found (d := mrgStat 3 1 d) hi _
  have ha : a = accOf d r c := by
    have hw : d1.stripW = d.stripW := congrArg (64 * ·) (get_put_ne (by decide) _ d)
    unfold a accOf
    rw [hw]
  rw [hnf]
  dsimp -zeta only
  rw [show d1.node i = some n from hn, ha]

theorem partialRecord_completes (r : CompRec) (rest : List CompRec) (c : Comp) (i : Nat) (n : Node) (s : State) (hq : s.dev.mrg.inQ = r :: rest) (hk : r.kind = .part)
    (hc : r.comp = some c) (hi : s.dev.nodeOf r.strip r.epoch r.label = some i) (hn : s.dev.node i = some n) (hp : s.dev.mrg.paired = []) :
    Completes .partialRecord s (fun t =>
      t.dev.node i = some { n with isOpen := false, acc := some (accOf s.dev r c), early := c.first } ∧
      t.dev.mrg.inQ = rest ∧ Counted (R.MRG.STAT.COUNT 3) 1 s.dev t.dev ∧
      Frame [R.MRG.STAT.COUNT 3, R.MRG.NODES.COUNT, R.MRG.NODE_PEAK.PEAK] { s.dev with mrg := t.dev.mrg } s t) := by
  have heq := partialIn_closes (r := r) (c := c) (d := inTaken rest s.dev) hi hn
  have hacc : accOf (inTaken rest s.dev) r c = accOf s.dev r c := rfl
  rw [hacc] at heq
  have hstat := mrgStep_stat (fs := inRegs 3) (mem_inRegs 3) 1 (inTaken rest s.dev)
  have hset := mrgStep_setNode (fs := nodeRegs) (fun _ h => h) i (some { n with isOpen := false, acc := some (accOf s.dev r c), early := c.first }) (mrgStat 3 1 (inTaken rest s.dev))
  have hall := ((mrgStep_set (inRegs 3) _ s.dev : MrgStep (inRegs 3) s.dev (inTaken rest s.dev)).trans hstat).trans (hset.widen (nodeRegs_inRegs 3))
  have hcount : Counted (R.MRG.STAT.COUNT 3) 1 s.dev _ := (get_nodeRegs (f := R.MRG.STAT.COUNT 3) (by decide) (by decide) hset).trans (get_put_self ..)
  have hnode := node_setNode i i (some { n with isOpen := false, acc := some (accOf s.dev r c), early := c.first }) (mrgStat 3 1 (inTaken rest s.dev))
  rw [if_pos rfl] at hnode
  have hkeep := nodesOnly_setNode i (some { n with isOpen := false, acc := some (accOf s.dev r c), early := c.first }) (mrgStat 3 1 (inTaken rest s.dev))
  rw [← heq] at hall hcount hnode hkeep
  refine completes_to (exec_partialRecord s) (partialIn r c (inTaken rest s.dev)) ?_ ?_
  · refine (takeIn_head hq hk).trans ?_
    rw [hc]
    exact forceSets_unpaired (hkeep.paired.trans hp)
  · generalize partialIn r c (inTaken rest s.dev) = e at hall hcount hnode hkeep ⊢
    exact ⟨hnode, hkeep.inQ, hcount, hall.frame s⟩

end Sys2Proof.Proofs
end

section
/-!
Sets that complete (R276), old-epoch nodes that close as orphans (R285), and the pairing of boundaries (R272).
-/
namespace Sys2Proof.Proofs
open Sys2Proof Sys2Proof.Machine

/-! ## Complete sets -/

theorem mem_freeNodes (ms : List (Nat × Node)) {d : Dev} {x : Nat × Option Node} (h : x ∈ (freeNodes ms d).mrg.nodes) :
    x ∈ d.mrg.nodes ∧ ∀ e ∈ ms, x.1 ≠ e.1 := by
  unfold freeNodes at h
  induction ms generalizing d with
  | nil => exact ⟨h, by simp⟩
  | cons e ms ih =>
    obtain ⟨hx, hms⟩ := ih h
    rw [nodes_freeNode, List.mem_filter, bne_iff_ne] at hx
    refine ⟨hx.1, fun k hk => ?_⟩
    rcases List.mem_cons.mp hk with rfl | hk
    · exact hx.2
    · exact hms k hk

theorem mem_members {d : Dev} {k i : Nat} {n : Node} : (i, n) ∈ d.members k ↔ (i, some n) ∈ d.mrg.nodes ∧ n.set = k := by
  simp only [Dev.members, List.mem_filterMap]
  constructor
  · rintro ⟨⟨j, v⟩, hmem, heq⟩
    cases v with
    | none => simp at heq
    | some m =>
      simp only [Option.ite_none_right_eq_some, Option.some.injEq, Prod.mk.injEq] at heq
      obtain ⟨hset, rfl, rfl⟩ := heq
      exact ⟨hmem, hset⟩
  · rintro ⟨hmem, hset⟩
    exact ⟨(i, some n), hmem, if_pos hset⟩

/-- A set whose members are freed has none. -/
theorem members_freeNodes {k : Nat} {ms : List (Nat × Node)} {d : Dev} (h : ∀ e ∈ d.members k, e ∈ ms) : (freeNodes ms d).members k = [] := by
  refine List.eq_nil_iff_forall_not_mem.mpr fun ⟨i, n⟩ hmem => ?_
  obtain ⟨hin, hset⟩ := mem_members.mp hmem
  obtain ⟨hin', hne⟩ := mem_freeNodes ms hin
  exact hne (i, n) (h _ (mem_members.mpr ⟨hin', hset⟩)) rfl

/-- The merge unit without the SPLIT mark of a set. -/
def splitCleared (k : Nat) (d : Dev) : Dev := { d with mrg := { d.mrg with splitSets := d.mrg.splitSets.filter (· != k) } }

theorem completeSet_eq {k : Nat} {a : Acc} {d : Dev} (h : combine (d.mrg.splitSets.contains k) (d.members k) = some a) :
    completeSet k d = outPut { acc := a, forced := false } (freeNodes (d.members k) (splitCleared k d)) := by
  unfold completeSet
  dsimp only
  rw [h]
  rfl

theorem setComplete_completes (k : Nat) (a : Acc) (s : State) (hroom : s.dev.mrg.outQ.length < 256) (hk : s.dev.sets.find? s.dev.completes = some k)
    (ha : combine (s.dev.mrg.splitSets.contains k) (s.dev.members k) = some a) :
    Completes .setComplete s (fun t =>
      t.dev.mrg.outQ = s.dev.mrg.outQ ++ [{ acc := a, forced := false }] ∧ t.dev.members k = [] ∧
      Frame [R.MRG.NODES.COUNT, R.MRG.NODE_PEAK.PEAK] { s.dev with mrg := t.dev.mrg } s t) := by
  refine completes_to (exec_setComplete s) (outPut { acc := a, forced := false } (freeNodes (s.dev.members k) (splitCleared k s.dev))) ?_ ?_
  · refine (if_pos hroom).trans ?_
    rw [hk]
    exact completeSet_eq ha
  · have hclear : MrgStep nodeRegs s.dev (splitCleared k s.dev) := mrgStep_set ..
    have hfree := mrgStep_freeNodes (fs := nodeRegs) (fun _ h => h) (s.dev.members k) (splitCleared k s.dev)
    have hkept := fifosKept_freeNodes (s.dev.members k) (splitCleared k s.dev)
    have hnone := members_freeNodes (k := k) (ms := s.dev.members k) (d := splitCleared k s.dev) fun _ h => h
    generalize freeNodes (s.dev.members k) (splitCleared k s.dev) = e at hfree hkept hnone ⊢
    have hput : MrgStep nodeRegs e (outPut { acc := a, forced := false } e) := mrgStep_set ..
    exact ⟨congrArg (· ++ _) hkept.outQ, hnone, ((hclear.trans hfree).trans hput).frame s⟩

/-! ## Orphans -/

theorem mem_of_get {α : Type} {m : KMap (Option α)} {k : Nat} {v : α} (h : KMap.get (fun _ => none) m k = some v) : (k, some v) ∈ m := by
  induction m with
  | nil => simp at h
  | cons e m ih =>
    obtain ⟨j, w⟩ := e
    rw [KMap.get] at h
    split at h
    · next hj => exact List.mem_cons.mpr (Or.inl (by rw [hj, h]))
    · exact List.mem_cons.mpr (Or.inr (ih h))

theorem closeEmpty_node (i j : Nat) (d : Dev) :
    (closeEmpty i d).node j = if j = i then (d.node i).map (fun n => { n with isOpen := false, empty := true }) else d.node j := by
  unfold closeEmpty
  cases hn : d.node i with
  | none =>
    show d.node j = _
    by_cases hij : j = i
    · rw [if_pos hij, hij]
      exact hn
    · exact (if_neg hij).symm
  | some n => exact node_setNode ..

theorem mrgStep_closeEmpty (i : Nat) (d : Dev) : MrgStep nodeRegs d (closeEmpty i d) := by
  unfold closeEmpty
  cases d.node i with
  | none => exact mrgStep_refl ..
  | some n => exact mrgStep_setNode (fun _ h => h) ..

/-- A node that is open after some have closed is one that was open and is none of them. -/
theorem each_closeEmpty (ids : List Nat) {d : Dev} {i : Nat} {n : Node} (h : (each closeEmpty ids d).node i = some n) :
    ∃ k, d.node i = some k ∧ n.strip = k.strip ∧ n.epoch = k.epoch ∧ (n.isOpen = true → k.isOpen = true ∧ i ∉ ids) := by
  induction ids generalizing d with
  | nil => exact ⟨n, h, rfl, rfl, fun ho => ⟨ho, by simp⟩⟩
  | cons j ids ih =>
    obtain ⟨k, hk, hs, he, ho⟩ := ih h
    rw [closeEmpty_node] at hk
    split at hk
    · next hij =>
      obtain ⟨m, hm, rfl⟩ := Option.map_eq_some_iff.mp hk
      exact ⟨m, by rw [hij]; exact hm, hs, he, fun h => absurd (ho h).1 Bool.false_ne_true⟩
    · next hij => exact ⟨k, hk, hs, he, fun h => ⟨(ho h).1, by simp [hij, (ho h).2]⟩⟩

/-- The open nodes of a strip's old epoch. -/
def orphanIds (strip : Nat) (d : Dev) : List Nat :=
  d.mrg.nodes.filterMap (fun e => match e.2 with
    | some n => if n.strip = strip ∧ n.isOpen = true ∧ (n.epoch + 1) % 65536 = d.get (R.MRG.STRIP_EPOCH.EPOCH strip) then some e.1 else none
    | none => none)

theorem mem_orphanIds {strip i : Nat} {n : Node} {d : Dev} (h : d.node i = some n) (hs : n.strip = strip) (ho : n.isOpen = true)
    (he : (n.epoch + 1) % 65536 = d.get (R.MRG.STRIP_EPOCH.EPOCH strip)) : i ∈ orphanIds strip d :=
  List.mem_filterMap.mpr ⟨(i, some n), mem_of_get h, if_pos ⟨hs, ho, he⟩⟩

/-- A record of the strip's old epoch waits. -/
def oldRecord (strip : Nat) (d : Dev) (r : CompRec) : Bool := r.strip == strip && (r.epoch + 1) % 65536 == d.get (R.MRG.STRIP_EPOCH.EPOCH strip)

theorem orphans_completes (strip : Fin 136) (s : State)
    (hin : s.dev.mrg.inQ.any (fun r => r.strip == strip.val && (r.epoch + 1) % 65536 == s.dev.get (R.MRG.STRIP_EPOCH.EPOCH strip.val)) = false)
    (hgou : s.dev.gou.any (fun e =>
      e.2.out.any (fun r => r.strip == strip.val && (r.epoch + 1) % 65536 == s.dev.get (R.MRG.STRIP_EPOCH.EPOCH strip.val)) ||
      e.2.owed.any (fun r => r.strip == strip.val && (r.epoch + 1) % 65536 == s.dev.get (R.MRG.STRIP_EPOCH.EPOCH strip.val))) = false) :
    Completes (.orphans strip) s (fun t =>
      (∀ i n, t.dev.node i = some n → n.strip = strip.val →
        (n.epoch + 1) % 65536 = s.dev.get (R.MRG.STRIP_EPOCH.EPOCH strip.val) → n.isOpen = false) ∧
      Frame [R.MRG.STAT.COUNT 10, R.MRG.NODES.COUNT, R.MRG.NODE_PEAK.PEAK] { s.dev with mrg := t.dev.mrg } s t) := by
  refine completes_to (exec_orphans strip s) (mrgPerf 0xb (orphanIds strip.val s.dev).length
    (mrgStat 10 (orphanIds strip.val s.dev).length (each closeEmpty (orphanIds strip.val s.dev) s.dev))) ?_ ?_
  · refine (if_neg ?_).trans rfl
    rw [hin, hgou]
    exact Bool.false_ne_true
  · have hopen (i : Nat) (n : Node) := each_closeEmpty (orphanIds strip.val s.dev) (d := s.dev) (i := i) (n := n)
    have hids (i : Nat) (n : Node) := mem_orphanIds (strip := strip.val) (i := i) (n := n) (d := s.dev)
    have hstep := mrgStep_each mrgStep_closeEmpty (orphanIds strip.val s.dev) s.dev
    generalize orphanIds strip.val s.dev = ids at hopen hids hstep ⊢
    generalize each closeEmpty ids s.dev = e at hopen hstep ⊢
    have hm := mrg_count 0xb ids.length 10 ids.length e
    have hall := (hstep.widen (nodeRegs_inRegs 10)).trans (mrgStep_count (mem_inRegs 10) 0xb ids.length ids.length e)
    generalize mrgPerf 0xb ids.length (mrgStat 10 ids.length e) = q at hm hall ⊢
    refine ⟨fun i n hn hs he => ?_, hall.frame s⟩
    obtain ⟨k, hk, hks, hke, ho⟩ := hopen i n ((node_of_mrg hm i).symm.trans hn)
    refine Bool.eq_false_iff.mpr fun hopen' => ?_
    obtain ⟨hko, hnot⟩ := ho hopen'
    exact hnot (hids i k hk (hks ▸ hs) hko (hke ▸ he))

/-! ## Pairing -/

/-- One is taken from the EDGE_H of an entry's node. -/
def edgeCut (e : EdgeEnt) (d : Dev) : Dev :=
  match d.node (d.resolve 64 e.node) with
  | some n => setNode (d.resolve 64 e.node) (some { n with edgeSub := n.edgeSub + 1 }) d
  | none => d

theorem joinPair_same (x y : EdgeEnt) (d : Dev) :
    joinPair (some x) (some y) true d = edgeCut y (edgeCut x (union x.node y.node (mrgPerf 5 1 (mrgStat 6 1 d)))) := by
  unfold joinPair
  dsimp -zeta only
  generalize union x.node y.node (mrgPerf 5 1 (mrgStat 6 1 d)) = e
  extract_lets d1 cut
  exact if_pos rfl

theorem joinPair_far (x y : EdgeEnt) (d : Dev) : joinPair (some x) (some y) false d = union x.node y.node (mrgPerf 5 1 (mrgStat 6 1 d)) := by
  unfold joinPair
  dsimp -zeta only
  generalize union x.node y.node (mrgPerf 5 1 (mrgStat 6 1 d)) = e
  extract_lets d1 cut
  exact if_neg Bool.false_ne_true

/-- A node that lost to none counts for itself. -/
theorem resolve_self {i : Nat} {n : Node} {d : Dev} (h : d.node i = some n) (hi : n.into = none) (k : Nat) : d.resolve (k + 1) i = i := by
  rw [Dev.resolve, h]
  dsimp only
  rw [hi]

theorem edgeCut_node {e : EdgeEnt} {n : Node} {d : Dev} (h : d.node e.node = some n) (hi : n.into = none) (j : Nat) :
    (edgeCut e d).node j = if j = e.node then some { n with edgeSub := n.edgeSub + 1 } else d.node j := by
  unfold edgeCut
  rw [resolve_self h hi 63, h]
  exact node_setNode ..

theorem joinPair_joins (x y : EdgeEnt) (a b : Node) (d : Dev) (ha : d.node x.node = some a) (hb : d.node y.node = some b) (hne : x.node ≠ y.node)
    (hia : a.into = none) (hib : b.into = none) :
    ∃ a' b', (joinPair (some x) (some y) true d).node x.node = some a' ∧ (joinPair (some x) (some y) true d).node y.node = some b' ∧
      a'.set = a.set ∧ b'.set = a.set ∧ a'.edgeSub = a.edgeSub + 1 ∧ b'.edgeSub = b.edgeSub + 1 := by
  have hm : (mrgPerf 5 1 (mrgStat 6 1 d)).mrg = d.mrg := mrg_count ..
  rw [joinPair_same]
  generalize mrgPerf 5 1 (mrgStat 6 1 d) = d1 at hm ⊢
  obtain ⟨a', b', ha', hb', has, hbs, ⟨-, hasub, hainto⟩, ⟨-, hbsub, hbinto⟩⟩ := union_sets ((node_of_mrg hm _).trans ha) ((node_of_mrg hm _).trans hb)
  generalize union x.node y.node d1 = d2 at ha' hb' ⊢
  have hx := edgeCut_node ha' (hainto.trans hia)
  have hy := edgeCut_node ((hx y.node).trans ((if_neg (Ne.symm hne)).trans hb')) (hbinto.trans hib)
  refine ⟨_, _, (hy x.node).trans ((if_neg hne).trans ((hx x.node).trans (if_pos rfl))), (hy y.node).trans (if_pos rfl), has, hbs, ?_, ?_⟩
  · show a'.edgeSub + 1 = a.edgeSub + 1
    rw [hasub]
  · show b'.edgeSub + 1 = b.edgeSub + 1
    rw [hbsub]

/-- What the pairing of a boundary shows. -/
def pairRegs (b : Nat) : List Fld := [R.MRG.STRIP_PAIRED.LSN b, R.MRG.STAT.COUNT 6, R.MRG.STAT.COUNT 14, R.MRG.NODES.COUNT, R.MRG.NODE_PEAK.PEAK]

theorem nodeRegs_pair (b : Nat) : ∀ f ∈ nodeRegs, f ∈ pairRegs b := by simp [nodeRegs, pairRegs]

theorem mrgStep_edgeCut (b : Nat) (e : EdgeEnt) (d : Dev) : MrgStep (pairRegs b) d (edgeCut e d) := by
  unfold edgeCut
  split
  · exact mrgStep_setNode (nodeRegs_pair b) ..
  · exact mrgStep_refl ..

theorem mrgStep_joinPair (b : Nat) (x y : Option EdgeEnt) (same : Bool) (d : Dev) : MrgStep (pairRegs b) d (joinPair x y same d) := by
  cases x with
  | none => exact mrgStep_refl ..
  | some x =>
    cases y with
    | none => exact mrgStep_refl ..
    | some y =>
      have hjoin : MrgStep (pairRegs b) d (union x.node y.node (mrgPerf 5 1 (mrgStat 6 1 d))) :=
        (mrgStep_count (by simp [pairRegs]) 5 1 1 d).trans (mrgStep_union ..)
      cases same with
      | false =>
        rw [joinPair_far]
        exact hjoin
      | true =>
        rw [joinPair_same]
        exact (hjoin.trans (mrgStep_edgeCut ..)).trans (mrgStep_edgeCut ..)

theorem mrgStep_splitAt (fs : List Fld) (e : Option EdgeEnt) (d : Dev) : MrgStep fs d (splitAt e d) := by
  unfold splitAt
  split
  · split
    · exact mrgStep_markSplit ..
    · exact mrgStep_refl ..
  · exact mrgStep_refl ..

theorem mrgStep_splitDropped (fs : List Fld) (x y : Nat × Nat × Nat) (d : Dev) : MrgStep fs d (splitDropped x y d) := by
  unfold splitDropped
  exact mrgStep_ite (mrgStep_splitAt ..) (mrgStep_refl ..)

theorem mrgStep_lostJoins (fs : List Fld) (b m : Nat) (d : Dev) : MrgStep fs d (lostJoins b m d) := by
  unfold lostJoins
  extract_lets m1 pairs d1
  have h : MrgStep fs d d1 := mrgStep_each (fun p d => (mrgStep_splitDropped fs p.1 p.2 d).trans (mrgStep_splitDropped fs p.2 p.1 _)) pairs d
  exact mrgStep_ite (mrgStep_refl ..) (h.trans (mrgStep_set ..))

/-- A boundary paired for a line. -/
def pairedPut (b m : Nat) (d : Dev) : Dev := { d with mrg := { d.mrg with paired := KMap.put (fun _ => none) d.mrg.paired b (some m) } }

/-- The pairs of a boundary that meet at a line, joined. -/
def pairsJoined (b m : Nat) (d : Dev) : Dev :=
  let d := joinPair (d.edgeAt b 1 m) (d.edgeAt (b + 1) 0 m) true (lostJoins b m d)
  if d.conn = 1 then joinPair (d.edgeAt (b + 1) 0 m) (d.edgeAt b 1 ((m + 1) % 2 ^ 32)) false (joinPair (d.edgeAt b 1 m) (d.edgeAt (b + 1) 0 ((m + 1) % 2 ^ 32)) false d)
  else d

theorem mrgStep_pairsJoined (b m : Nat) (d : Dev) : MrgStep (pairRegs b) d (pairsJoined b m d) := by
  unfold pairsJoined
  extract_lets d1
  have h : MrgStep (pairRegs b) d d1 := (mrgStep_lostJoins (pairRegs b) b m d).trans (mrgStep_joinPair b ..)
  exact h.trans (mrgStep_ite ((mrgStep_joinPair b ..).trans (mrgStep_joinPair b ..)) (mrgStep_refl ..))

/-- The next line of a boundary. -/
def nextPair (b : Nat) (d : Dev) : Nat :=
  match KMap.get (fun _ => (none : Option Nat)) d.mrg.paired b with
  | some p => (p + 1) % 2 ^ 32
  | none => 0

theorem nextPair_lt (b : Nat) (d : Dev) : nextPair b d < 2 ^ 32 := by
  unfold nextPair
  split
  · exact Nat.mod_lt _ (by decide)
  · decide

theorem pairLine_pairs {b : Nat} {d : Dev} (hb : b + 1 < d.nstrips) (h0 : d.doneTo b ((nextPair b d + d.conn) % 2 ^ 32) = true)
    (h1 : d.doneTo (b + 1) ((nextPair b d + d.conn) % 2 ^ 32) = true) (hw : d.contactWaits b ((nextPair b d + d.conn) % 2 ^ 32) = false) :
    pairLine b d = forceSets (put (R.MRG.STRIP_PAIRED.LSN b) (nextPair b d) (pairedPut b (nextPair b d) (pairsJoined b (nextPair b d) d))) := by
  refine (if_pos ?_).trans rfl
  show (decide (b + 1 < d.nstrips) && d.doneTo b ((nextPair b d + d.conn) % 2 ^ 32) && d.doneTo (b + 1) ((nextPair b d + d.conn) % 2 ^ 32) &&
    !d.contactWaits b ((nextPair b d + d.conn) % 2 ^ 32)) = true
  rw [h0, h1, hw, decide_eq_true hb]
  rfl

theorem pairing_completes (b : Fin 136) (m need : Nat) (s : State)
    (hm : m = (match KMap.get (fun _ => (none : Option Nat)) s.dev.mrg.paired b.val with | some p => (p + 1) % 2 ^ 32 | none => 0))
    (hneed : need = (m + s.dev.conn) % 2 ^ 32) (hb : b.val + 1 < s.dev.nstrips) (h0 : s.dev.doneTo b.val need = true) (h1 : s.dev.doneTo (b.val + 1) need = true)
    (hw : s.dev.contactWaits b.val need = false) :
    Completes (.pairing b) s (fun t =>
      KMap.get (fun _ => (none : Option Nat)) t.dev.mrg.paired b.val = some m ∧ t.dev.get (R.MRG.STRIP_PAIRED.LSN b.val) = m ∧
      Frame [R.MRG.STRIP_PAIRED.LSN b.val, R.MRG.STAT.COUNT 6, R.MRG.STAT.COUNT 14, R.MRG.NODES.COUNT, R.MRG.NODE_PEAK.PEAK]
        { s.dev with mrg := t.dev.mrg } s t) := by
  have hm' : m = nextPair b.val s.dev := hm.trans (by unfold nextPair; rfl)
  rw [hneed, hm'] at h0 h1 hw
  have heq := pairLine_pairs hb h0 h1 hw
  rw [← hm'] at heq
  have hlt : m < 2 ^ 32 := hm' ▸ nextPair_lt ..
  refine completes_to (exec_pairing b s) _ heq ?_
  have hjoin := mrgStep_pairsJoined b.val m s.dev
  generalize pairsJoined b.val m s.dev = e at hjoin ⊢
  have hput : MrgStep (pairRegs b.val) e (pairedPut b.val m e) := mrgStep_set ..
  have hpaired : KMap.get (fun _ => (none : Option Nat)) (pairedPut b.val m e).mrg.paired b.val = some m := KMap.get_put_self (fun _ => none) e.mrg.paired b.val (some m)
  generalize pairedPut b.val m e = k at hput hpaired ⊢
  have hshow : MrgStep (pairRegs b.val) k (put (R.MRG.STRIP_PAIRED.LSN b.val) m k) := (mrgStep_of_leaves (leaves_put ..)).widen (by simp [pairRegs])
  have hval : (put (R.MRG.STRIP_PAIRED.LSN b.val) m k).get (R.MRG.STRIP_PAIRED.LSN b.val) = m := (get_put_self ..).trans (Nat.mod_eq_of_lt hlt)
  have hmrg : (put (R.MRG.STRIP_PAIRED.LSN b.val) m k).mrg = k.mrg := rfl
  generalize put (R.MRG.STRIP_PAIRED.LSN b.val) m k = q at hshow hval hmrg ⊢
  obtain ⟨hforce, -, hkept, -⟩ := forced_forceSets q
  generalize forceSets q = u at hforce hkept ⊢
  have hne : (R.MRG.STRIP_PAIRED.LSN b.val).key ∉ (inRegs 14).map Fld.key := by
    simp only [inRegs, nodeRegs, List.map_cons, List.map_nil, List.mem_cons, List.not_mem_nil, or_false, Fld.key, R.MRG.STRIP_PAIRED.LSN,
      R.MRG.STAT.COUNT, R.MRG.NODES.COUNT, R.MRG.NODE_PEAK.PEAK]
    omega
  refine ⟨?_, ?_, ?_⟩
  · rw [← hpaired, ← hmrg, ← hkept]
    rfl
  · rw [get_after, hforce.get (strip_book b.val b.isLt _ (by simp)) hne]
    exact hval
  · exact (((hjoin.trans hput).trans hshow).trans (hforce.widen (by simp [inRegs, nodeRegs, pairRegs]))).frame s

end Sys2Proof.Proofs
end

section
/-!
The collector's objects (R282, R286): what an object that is emitted counts and changes.
-/
namespace Sys2Proof.Proofs
open Sys2Proof Sys2Proof.Machine

/-- What an object shows on its way to the Carver. -/
def handRegs : List Fld := [R.CRV.STAT.COUNT 0, R.CRV.STAT.COUNT 7, R.CRV.STAT.COUNT 2, R.CRV.STATUS.SEQ, R.CRV.STATUS.QUEUE_FULL] ++ queueRegs

/-- A held object whose network a slot names. -/
def objHeld (o : ObjRec) (n : Nat) (d : Dev) : Dev := { d with held := d.held ++ [{ o with handed := d.dt, waiting := true, net := some n }] }

/-- A request at the end of the Carver's queue. -/
def requestPut (o : ObjRec) (n : Nat) (d : Dev) : Dev := { d with crv := { d.crv with queue := d.crv.queue ++ [{ obj := o, net := n }] } }

theorem hand_with {fs : List Fld} (h : ∀ f ∈ fs, f ∈ handRegs) : ∀ f ∈ handRegs ++ fs, f ∈ handRegs := fun f hf => (List.mem_append.mp hf).elim id (h f)

theorem handOver_step (o : ObjRec) (d : Dev) : CarverStep handRegs d (handOver o d) := by
  unfold handOver
  split
  · refine CarverStep.mono (fs := []) (carverStep_of_eq fun _ => ?_) (by simp)
    rfl
  · next n _ =>
    extract_lets o' d1
    have h1 : CarverStep handRegs d d1 :=
      ((carverStep_of_eq (fun _ => rfl) : CarverStep [] d (objHeld o n d)).trans (carverStep_of_leaves (leaves_crvStat 0 1 (objHeld o n d)))).mono (by simp [handRegs])
    clear_value d1
    have hfull : CarverStep handRegs d1 (event 15 R.CRV.STATUS.SEQ [R.CRV.STATUS.QUEUE_FULL] d1) :=
      (carverStep_of_leaves (leaves_event .. : Leaves [R.CRV.STATUS.SEQ, R.CRV.STATUS.QUEUE_FULL] d1 _)).mono (by simp [handRegs, seqAnd])
    generalize event 15 R.CRV.STATUS.SEQ [R.CRV.STATUS.QUEUE_FULL] d1 = e at hfull ⊢
    have hput : CarverStep [] d1 (requestPut o' n d1) := carverStep_of_eq fun _ => rfl
    have hperf := carverStep_of_leaves (leaves_crvPerf 1 1 (requestPut o' n d1))
    have hshow := carverStep_of_leaves (showQueue_leaves (crvPerf 1 1 (requestPut o' n d1)))
    split
    · exact (h1.trans (unscore_step ..)).mono (hand_with (by simp [handRegs]))
    · split
      · exact (h1.trans ((hfull.trans (unscore_step ..)).mono (hand_with (by simp [handRegs])))).mono (hand_with fun _ h => h)
      · exact (h1.trans ((hput.trans hperf).trans hshow)).mono (hand_with fun f hf => List.mem_append_right _ (by simpa using hf))

theorem gou_of_carver {fs : List Fld} {d e : Dev} (h : CarverStep fs d e) : e.gou = d.gou :=
  (gou_of_leaves (h.leaves (carverOf d)) : (withCarver (carverOf d) e).gou = (withCarver (carverOf d) d).gou)

theorem mrg_of_carver {fs : List Fld} {d e : Dev} (h : CarverStep fs d e) : e.mrg = d.mrg :=
  (mrg_of_leaves (h.leaves (carverOf d)) : (withCarver (carverOf d) e).mrg = (withCarver (carverOf d) d).mrg)

/-- What an object counts. -/
def objRegs (merged : Bool) : List Fld :=
  [R.MRG.NEXT_ID.ID, R.MRG.STAT.COUNT 0, if merged then R.MRG.STAT.COUNT 2 else R.MRG.STAT.COUNT 1, R.MRG.STAT.COUNT 13, R.MRG.STAT.COUNT 7]

/-- The object of a set with the next ID. -/
def objectNext (a : Acc) (forced : Bool) (d : Dev) : ObjRec := { objectOf d a forced with id := d.get R.MRG.NEXT_ID.ID }

/-- The counts of an object by its late and SPLIT flags. -/
def flagsCounted (o : ObjRec) (d : Dev) : Dev :=
  when (bit o.flags 11) (mrgStat 7 1) (when (bit o.flags 9) (fun d => mrgPerf 0x10 1 (mrgStat 13 1 d)) d)

/-- The counts of an object by its source. -/
def sourceCounted (merged : Bool) (d : Dev) : Dev := if merged then mrgPerf 3 1 (mrgStat 2 1 d) else mrgStat 1 1 d

/-- The next ID taken, and the object counted. -/
def idTaken (d : Dev) : Dev := mrgPerf 2 1 (mrgStat 0 1 (put R.MRG.NEXT_ID.ID (d.get R.MRG.NEXT_ID.ID + 1) d))

theorem emitObject_eq (a : Acc) (forced merged : Bool) (d : Dev) : emitObject a forced merged d =
    handOver (objectNext a forced d) (flagsCounted (objectNext a forced d) (sourceCounted merged (idTaken d))) := rfl

theorem leaves_idTaken (d : Dev) : Leaves [R.MRG.NEXT_ID.ID, R.MRG.STAT.COUNT 0] d (idTaken d) :=
  (leaves_put ..).trans ((leaves_put (R.MRG.STAT.COUNT 0) _ _).trans (leaves_mrgPerf ..))

theorem idTaken_counts (d : Dev) : Counted R.MRG.NEXT_ID.ID 1 d (idTaken d) ∧ Counted (R.MRG.STAT.COUNT 0) 1 d (idTaken d) := by
  have hid : Counted R.MRG.NEXT_ID.ID 1 d (put R.MRG.NEXT_ID.ID (d.get R.MRG.NEXT_ID.ID + 1) d) := get_put_self ..
  have hother : (put R.MRG.NEXT_ID.ID (d.get R.MRG.NEXT_ID.ID + 1) d).get (R.MRG.STAT.COUNT 0) = d.get (R.MRG.STAT.COUNT 0) := get_put_ne (by decide) _ _
  unfold idTaken
  generalize put R.MRG.NEXT_ID.ID (d.get R.MRG.NEXT_ID.ID + 1) d = e at hid hother ⊢
  have hstat : Counted (R.MRG.STAT.COUNT 0) 1 e (mrgStat 0 1 e) := get_put_self ..
  have hleave : Leaves [R.MRG.STAT.COUNT 0] e (mrgStat 0 1 e) := leaves_put ..
  generalize mrgStat 0 1 e = k at hstat hleave ⊢
  have hperf := leaves_mrgPerf 2 1 k
  exact ⟨counted_of_get hid rfl ((hperf.get (by decide) (by simp)).trans (hleave.get (by decide) (by decide))),
    counted_of_get hstat hother (hperf.get (by decide) (by simp))⟩

/-- The counter of an object's source. -/
def sourceCount (merged : Bool) : Fld := if merged then R.MRG.STAT.COUNT 2 else R.MRG.STAT.COUNT 1

theorem sourceCounted_counts (merged : Bool) (d : Dev) : Leaves [sourceCount merged] d (sourceCounted merged d) ∧
    Counted (sourceCount merged) 1 d (sourceCounted merged d) := by
  cases merged with
  | false => exact ⟨leaves_put .., get_put_self ..⟩
  | true =>
    have hstat : Leaves [R.MRG.STAT.COUNT 2] d (mrgStat 2 1 d) := leaves_put ..
    have hcount : Counted (R.MRG.STAT.COUNT 2) 1 d (mrgStat 2 1 d) := get_put_self ..
    show Leaves [R.MRG.STAT.COUNT 2] d (mrgPerf 3 1 (mrgStat 2 1 d)) ∧ Counted (R.MRG.STAT.COUNT 2) 1 d (mrgPerf 3 1 (mrgStat 2 1 d))
    generalize mrgStat 2 1 d = e at hstat hcount ⊢
    have hperf := leaves_mrgPerf 3 1 e
    exact ⟨hstat.trans hperf, counted_of_get hcount rfl (hperf.get (by decide) (by simp))⟩

/-- The counters of late and SPLIT objects. -/
def flagRegs : List Fld := [R.MRG.STAT.COUNT 13, R.MRG.STAT.COUNT 7]

theorem leaves_flagsCounted (o : ObjRec) (d : Dev) : Leaves flagRegs d (flagsCounted o d) := by
  have hwhen (c : Bool) (F : Dev → Dev) (hF : ∀ d, Leaves flagRegs d (F d)) (d : Dev) : Leaves flagRegs d (when c F d) := by
    cases c with
    | true => exact hF d
    | false => exact (Leaves.refl d).mono (by simp)
  have h13 (d : Dev) : Leaves [R.MRG.STAT.COUNT 13] d (mrgStat 13 1 d) := leaves_put ..
  have h7 (d : Dev) : Leaves [R.MRG.STAT.COUNT 7] d (mrgStat 7 1 d) := leaves_put ..
  have h9 := hwhen (bit o.flags 9) (fun d => mrgPerf 0x10 1 (mrgStat 13 1 d)) (fun d => ((h13 d).trans (leaves_mrgPerf ..)).mono (by simp [flagRegs])) d
  unfold flagsCounted
  generalize when (bit o.flags 9) (fun d => mrgPerf 0x10 1 (mrgStat 13 1 d)) d = e at h9 ⊢
  exact (h9.trans (hwhen (bit o.flags 11) (mrgStat 7 1) (fun d => (h7 d).mono (by simp [flagRegs])) e)).mono (by simp [flagRegs])

/-- What an object leaves: the next ID and the counts move on by one, and the gouges and the merge unit stay. -/
structure Emitted (merged : Bool) (d e : Dev) : Prop where
  gou : e.gou = d.gou
  mrg : e.mrg = d.mrg
  id : Counted R.MRG.NEXT_ID.ID 1 d e
  object : Counted (R.MRG.STAT.COUNT 0) 1 d e
  source : Counted (sourceCount merged) 1 d e

/-- The device at an object's hand-over. -/
def emitCounted (a : Acc) (forced merged : Bool) (d : Dev) : Dev := flagsCounted (objectNext a forced d) (sourceCounted merged (idTaken d))

theorem emitCounted_emitted (a : Acc) (forced merged : Bool) (d : Dev) : Emitted merged d (emitCounted a forced merged d) ∧
    Leaves (objRegs merged) d (emitCounted a forced merged d) := by
  have hsrc : ∀ m : Bool, bookKey (sourceCount m).key = false ∧ (sourceCount m).key ∉ [R.MRG.NEXT_ID.ID, R.MRG.STAT.COUNT 0].map Fld.key ∧
      (sourceCount m).key ∉ flagRegs.map Fld.key ∧ R.MRG.NEXT_ID.ID.key ∉ [sourceCount m].map Fld.key ∧ (R.MRG.STAT.COUNT 0).key ∉ [sourceCount m].map Fld.key := by
    decide
  obtain ⟨hb, htaken, hflag, hid, hcount⟩ := hsrc merged
  have hl1 := leaves_idTaken d
  obtain ⟨hc1, hc2⟩ := idTaken_counts d
  unfold emitCounted
  generalize idTaken d = e at hl1 hc1 hc2 ⊢
  obtain ⟨hl2, hc3⟩ := sourceCounted_counts merged e
  generalize sourceCounted merged e = k at hl2 hc3 ⊢
  have hl3 := leaves_flagsCounted (objectNext a forced d) k
  generalize flagsCounted (objectNext a forced d) k = q at hl3 ⊢
  have hall := (hl1.trans hl2).trans hl3
  refine ⟨⟨gou_of_leaves hall, mrg_of_leaves hall, counted_of_get hc1 rfl ((hl3.get (by decide) (by decide)).trans (hl2.get (by decide) hid)),
    counted_of_get hc2 rfl ((hl3.get (by decide) (by decide)).trans (hl2.get (by decide) hcount)),
    counted_of_get hc3 (hl1.get hb htaken) (hl3.get hb hflag)⟩, hall.mono fun f hf => List.mem_map_of_mem ?_⟩
  simpa [objRegs, sourceCount, flagRegs] using hf

theorem emitObject_emitted (a : Acc) (forced merged : Bool) (d : Dev) : Emitted merged d (emitObject a forced merged d) := by
  have hsrc : ∀ m : Bool, bookKey (sourceCount m).key = false ∧ (sourceCount m).key ∉ handRegs.map Fld.key := by decide
  obtain ⟨hb, hne⟩ := hsrc merged
  rw [emitObject_eq]
  have h := (emitCounted_emitted a forced merged d).1
  rw [emitCounted] at h
  generalize flagsCounted (objectNext a forced d) (sourceCounted merged (idTaken d)) = e at h ⊢
  have hstep := handOver_step (objectNext a forced d) e
  generalize handOver (objectNext a forced d) e = k at hstep ⊢
  exact ⟨(gou_of_carver hstep).trans h.gou, (mrg_of_carver hstep).trans h.mrg, counted_of_get h.id rfl (hstep.get (by decide) (by decide)),
    counted_of_get h.object rfl (hstep.get (by decide) (by decide)), counted_of_get h.source rfl (hstep.get hb hne)⟩

/-! ## Without a network -/

theorem sat_nat (w n : Nat) : (sat w (n : Int)).1 = min n (2 ^ w - 1) := by
  unfold sat
  rw [if_neg (not_lt.mpr (Int.natCast_nonneg n)), Int.toNat_natCast]
  have := Nat.one_le_two_pow (n := w)
  split
  · show 2 ^ w - 1 = _
    omega
  · show n = _
    omega

theorem handOver_direct {o : ObjRec} {d : Dev} (h : ∀ k : Fin 4, d.on (R.CRV.NET_CTL.EN k.val) = false) : handOver o d = { d with objQ := d.objQ ++ [o] } := by
  have hsel (k : Fin 4) : netSelects d o k.val = false := by rw [netSelects, h k]; rfl
  have hnone : [0, 1, 2, 3].find? (netSelects d o) = none := by
    rw [List.find?_eq_none]
    simp only [List.mem_cons, List.not_mem_nil, or_false, forall_eq_or_imp, forall_eq, Bool.not_eq_true]
    exact ⟨hsel 0, hsel 1, hsel 2, hsel 3⟩
  unfold handOver
  rw [hnone]

theorem objectOf_area (d : Dev) (a : Acc) (forced : Bool) : (objectOf d a forced).area = (sat 32 (a.area : Int)).1 := rfl

theorem objectOf_first (d : Dev) (a : Acc) (forced : Bool) : (objectOf d a forced).first = a.first := rfl

/-- An object keeps what it is when it takes its ID. -/
theorem objectNext_keeps (a : Acc) (forced : Bool) (d : Dev) : (objectNext a forced d).id = d.get R.MRG.NEXT_ID.ID ∧
    (objectNext a forced d).first = (objectOf d a forced).first ∧ (objectNext a forced d).area = (objectOf d a forced).area := by
  unfold objectNext
  generalize objectOf d a forced = o
  exact ⟨rfl, rfl, rfl⟩

theorem accOf_keeps (d : Dev) (r : CompRec) (c : Comp) : (accOf d r c).first = c.first ∧ (accOf d r c).area = c.area := ⟨rfl, rfl⟩

theorem objectNext_alone (r : CompRec) (c : Comp) (d : Dev) : (objectNext (accOf d r c) false d).id = d.get R.MRG.NEXT_ID.ID ∧
    (objectNext (accOf d r c) false d).first = c.first ∧ (objectNext (accOf d r c) false d).area = min c.area (2 ^ 32 - 1) := by
  obtain ⟨hid, hfirst, harea⟩ := objectNext_keeps (accOf d r c) false d
  obtain ⟨hf, ha⟩ := accOf_keeps d r c
  exact ⟨hid, by rw [hfirst, objectOf_first, hf], by rw [harea, objectOf_area, ha, sat_nat]⟩

/-- The enables of the network slots lie apart from what an object counts. -/
theorem netEnable_apart : ∀ k < 4, bookKey (R.CRV.NET_CTL.EN k).key = false ∧ (R.CRV.NET_CTL.EN k).key ∉ (objRegs false).map Fld.key := by decide

theorem handOver_keeps {o : ObjRec} {fs : List Fld} {d e : Dev} (hl : Leaves fs d e) (h : ∀ k : Fin 4, e.on (R.CRV.NET_CTL.EN k.val) = false) :
    (handOver o e).objQ = d.objQ ++ [o] ∧ (handOver o e).held = d.held := by
  rw [handOver_direct h]
  exact ⟨congrArg (· ++ [o]) (objQ_of_leaves hl), show e.held = d.held from held_of_leaves hl⟩

/-- Of a component alone: its object has the next ID, its first line and its area, and goes to the verdict unit. -/
theorem emitObject_alone (r : CompRec) (c : Comp) {d : Dev} (h : ∀ k : Fin 4, d.on (R.CRV.NET_CTL.EN k.val) = false) :
    ∃ o : ObjRec, o.id = d.get R.MRG.NEXT_ID.ID ∧ o.first = c.first ∧ o.area = min c.area (2 ^ 32 - 1) ∧
      (emitObject (accOf d r c) false false d).objQ = d.objQ ++ [o] ∧ (emitObject (accOf d r c) false false d).held = d.held := by
  have hl := (emitCounted_emitted (accOf d r c) false false d).2
  have hne := netEnable_apart
  obtain ⟨hid, hfirst, harea⟩ := objectNext_alone r c d
  rw [emitObject_eq]
  rw [emitCounted] at hl
  generalize objectNext (accOf d r c) false d = o at hid hfirst harea hl ⊢
  generalize flagsCounted o (sourceCounted false (idTaken d)) = e at hl ⊢
  exact ⟨o, hid, hfirst, harea, handOver_keeps hl fun k => (on_of_get (hl.get (hne k.val k.isLt).1 (hne k.val k.isLt).2)).trans (h k)⟩

end Sys2Proof.Proofs
end

section
/-!
The selector (R279, R280, R283): the heads that stand for the collector, and the records that it takes from a gouge.
-/
namespace Sys2Proof.Proofs
open Sys2Proof Sys2Proof.Machine

/-! ## Heads -/

/-- The head of a gouge's output FIFO, where it is eligible. -/
def gougeHead (room : Bool) (e : Nat × GouS) : Option (Nat × Nat × Source) :=
  match e.2.out with
  | r :: _ => if r.kind == .closure || room then some (r.line, r.strip, Source.gouge e.1) else none
  | [] => none

/-- The head of the merge output FIFO. -/
def mergedHead (d : Dev) : List (Nat × Nat × Source) :=
  match d.mrg.outQ with
  | m :: _ => [((m.acc.last + 1) % 2 ^ 32, 136, Source.merged)]
  | [] => []

/-- The merge input FIFO has room. -/
def inRoom (d : Dev) : Bool := decide (d.mrg.inQ.length < 1024)

theorem heads_eq (d : Dev) (but : Option Source) :
    d.heads but = (d.gou.filterMap (gougeHead (inRoom d)) ++ mergedHead d).filter (fun h => but != some h.2.2) := by
  have hg : d.gou.filterMap (gougeHead (inRoom d)) = d.gou.filterMap (fun e => match e.2.out with
      | r :: _ => if r.kind == .closure || inRoom d then some (r.line, r.strip, Source.gouge e.1) else none
      | [] => none) := rfl
  unfold Dev.heads mergedHead
  rw [hg]
  cases d.mrg.outQ with
  | nil => rw [List.append_nil]; rfl
  | cons m ms => rfl

theorem mem_heads {d : Dev} {but : Option Source} {h : Nat × Nat × Source} :
    h ∈ d.heads but ↔ ((∃ e ∈ d.gou, gougeHead (inRoom d) e = some h) ∨ h ∈ mergedHead d) ∧ but ≠ some h.2.2 := by
  rw [heads_eq, List.mem_filter, List.mem_append, List.mem_filterMap, bne_iff_ne]

theorem gougeHead_source {room : Bool} {e : Nat × GouS} {h : Nat × Nat × Source} (hh : gougeHead room e = some h) : h.2.2 = .gouge e.1 := by
  unfold gougeHead at hh
  split at hh
  · split at hh
    · rw [← Option.some.inj hh]
    · exact absurd hh (by simp)
  · exact absurd hh (by simp)

theorem gougeHead_room {r r' : Bool} (hr : r = true → r' = true) {e : Nat × GouS} {h : Nat × Nat × Source} (hh : gougeHead r e = some h) :
    gougeHead r' e = some h := by
  unfold gougeHead at hh ⊢
  split at hh
  · next c _ _ =>
    split at hh
    · next hc =>
      rw [← Option.some.inj hh]
      refine if_pos ?_
      simp only [Bool.or_eq_true] at hc ⊢
      exact hc.imp id hr
    · exact absurd hh (by simp)
  · exact absurd hh (by simp)

theorem mergedHead_source {d : Dev} {h : Nat × Nat × Source} (hh : h ∈ mergedHead d) : h.2.2 = .merged := by
  unfold mergedHead at hh
  split at hh
  · rw [List.mem_singleton.mp hh]
  · simp at hh

/-- After the record of one source, the other sources' heads are no others than before. -/
structure HeadsFrom (src : Source) (d e : Dev) : Prop where
  gou : ∀ x ∈ e.gou, src ≠ .gouge x.1 → x ∈ d.gou
  room : inRoom e = true → inRoom d = true
  merged : src ≠ .merged → e.mrg.outQ = d.mrg.outQ

theorem HeadsFrom.mem {src : Source} {d e : Dev} (hf : HeadsFrom src d e) {h : Nat × Nat × Source} (hh : h ∈ e.heads (some src)) :
    h ∈ d.heads none ∧ h.2.2 ≠ src := by
  obtain ⟨hcase, hne⟩ := mem_heads.mp hh
  have hsrc : h.2.2 ≠ src := fun heq => hne (by rw [heq])
  refine ⟨mem_heads.mpr ⟨?_, by simp⟩, hsrc⟩
  rcases hcase with ⟨x, hx, hhead⟩ | hm
  · have hxsrc : src ≠ .gouge x.1 := fun heq => hsrc (by rw [gougeHead_source hhead, heq])
    exact Or.inl ⟨x, hf.gou x hx hxsrc, gougeHead_room hf.room hhead⟩
  · refine Or.inr ?_
    have hmsrc : src ≠ .merged := fun heq => hsrc (by rw [mergedHead_source hm, heq])
    unfold mergedHead at hm ⊢
    rw [← hf.merged hmsrc]
    exact hm

theorem firstHead_nil {hs : List (Nat × Nat × Source)} (h : ∀ x ∈ hs, False) : firstHead hs = none := by
  cases hs with
  | nil => rfl
  | cons x xs => exact absurd (h x (by simp)) id

theorem firstHead_single {hs : List (Nat × Nat × Source)} {k : Nat × Nat × Source} (hall : ∀ x ∈ hs, x = k) (hmem : k ∈ hs) : firstHead hs = some k := by
  have hsub (xs : List (Nat × Nat × Source)) (h : ∀ x ∈ xs, x = k) : firstHead xs = none ∨ firstHead xs = some k := by
    induction xs with
    | nil => exact Or.inl rfl
    | cons x xs ih =>
      have hx := h x (by simp)
      rw [firstHead]
      rcases ih fun y hy => h y (by simp [hy]) with hnone | hsome
      · rw [hnone]
        exact Or.inr (congrArg some hx)
      · rw [hsome, hx]
        dsimp only
        split <;> exact Or.inr rfl
  cases hs with
  | nil => simp at hmem
  | cons x xs =>
    have hx := hall x (by simp)
    rw [firstHead]
    rcases hsub xs fun y hy => hall y (by simp [hy]) with hnone | hsome
    · rw [hnone]
      exact congrArg some hx
    · rw [hsome, hx]
      dsimp only
      split <;> rfl

/-- With one head, a clock of the selector takes its record alone. -/
theorem selectorClock_one {x y : Nat} {src : Source} {ok ok2 : Bool} {m : Mem} {d : Dev} (hh : d.heads none = [(x, y, src)])
    (hf : HeadsFrom src d (takeHead ok src m d)) : selectorClock ok ok2 m d = takeHead ok src m d := by
  have hfirst : firstHead (d.heads none) = some (x, y, src) := by rw [hh]; rfl
  have hnone : firstHead ((takeHead ok src m d).heads (some src)) = none := firstHead_nil fun h hmem => by
    obtain ⟨hin, hne⟩ := hf.mem hmem
    rw [hh, List.mem_singleton] at hin
    exact hne (by rw [hin])
  unfold selectorClock
  rw [hfirst]
  dsimp only
  rw [hnone]

theorem componentRecord_one {x y : Nat} {src : Source} {ok ok2 : Bool} {s : State} (hon : s.dev.on R.MRG.CTL.EN = true)
    (hh : s.dev.heads none = [(x, y, src)]) (hf : HeadsFrom src s.dev (takeHead ok src s.mem s.dev)) {post : State → Prop}
    (h : post (s.after (takeHead ok src s.mem s.dev))) : Completes (.componentRecord ⟨ok, ok2⟩) s post :=
  completes_to (exec_componentRecord ⟨ok, ok2⟩ s) _ ((if_pos hon).trans (selectorClock_one hh hf)) h

end Sys2Proof.Proofs
end

section
/-!
The collector takes a gouge's record (R280, R283, R284).
-/
namespace Sys2Proof.Proofs
open Sys2Proof Sys2Proof.Machine

/-- The collector's part of a device: the gouges, the merge unit and the free values. -/
def withCollect (x : KMap GouS × MrgS × Nat) (d : Dev) : Dev := { d with gou := x.1, mrg := x.2.1, free := x.2.2 }

theorem setsPart_withCollect : SetsPart withCollect := fun _ _ => ⟨rfl, rfl⟩

/-- From `d` to `e` only these registers, the books and the collector's part have changed. -/
structure CollectStep (fs : List Fld) (d e : Dev) : Prop where
  upto : Upto withCollect fs d e

section
variable {fs gs : List Fld} {d e k : Dev}

theorem collectStep_of_leaves (h : Leaves fs d e) : CollectStep fs d e := ⟨upto_of_leaves setsPart_withCollect h⟩

theorem collectStep_of_eq (h : ∀ x, withCollect x e = withCollect x d) : CollectStep [] d e := ⟨upto_of_eq h⟩

theorem CollectStep.trans (h : CollectStep fs d e) (h' : CollectStep gs e k) : CollectStep (fs ++ gs) d k := ⟨h.upto.trans h'.upto⟩

theorem CollectStep.mono (h : CollectStep fs d e) (hs : ∀ f ∈ fs, f ∈ gs) : CollectStep gs d e := ⟨h.upto.mono fun f hf => List.mem_map_of_mem (hs f hf)⟩

theorem CollectStep.get (h : CollectStep fs d e) {f : Fld} (hb : bookKey f.key = false) (hf : f.key ∉ fs.map Fld.key) : e.get f = d.get f :=
  (h.upto.leaves (d.gou, d.mrg, d.free)).get hb hf

theorem CollectStep.frame (h : CollectStep fs d e) (s : State) : Frame fs { d with gou := e.gou, mrg := e.mrg, free := e.free } s (s.after e) :=
  frame_of_upto h.upto s (e.gou, e.mrg, e.free) rfl

theorem CollectStep.objQ (h : CollectStep fs d e) : e.objQ = d.objQ :=
  (objQ_of_leaves (h.upto.leaves (d.gou, d.mrg, d.free)) : (withCollect (d.gou, d.mrg, d.free) e).objQ = (withCollect (d.gou, d.mrg, d.free) d).objQ)

theorem CollectStep.held (h : CollectStep fs d e) : e.held = d.held :=
  (held_of_leaves (h.upto.leaves (d.gou, d.mrg, d.free)) : (withCollect (d.gou, d.mrg, d.free) e).held = (withCollect (d.gou, d.mrg, d.free) d).held)

theorem collectStep_setGou (g : Nat) (x : GouS) (d : Dev) : CollectStep [] d (setGou g x d) := collectStep_of_eq fun _ => rfl

theorem collectStep_setMrg (x : MrgS) (d : Dev) : CollectStep [] d { d with mrg := x } := collectStep_of_eq fun _ => rfl

end

/-! ## The gouge's output FIFO -/

theorem mem_ins_of_mem {α : Type} {k : Nat} {v : α} {x : Nat × α} {m : KMap α} (h : x ∈ m) : x ∈ KMap.ins k v m := by
  induction m with
  | nil => simp at h
  | cons e m ih =>
    obtain ⟨j, w⟩ := e
    rw [KMap.ins]
    split
    · exact List.mem_cons_of_mem _ h
    · rcases List.mem_cons.mp h with rfl | h
      · exact List.mem_cons_self ..
      · exact List.mem_cons_of_mem _ (ih h)

/-- The entries of a map beside the one that is written. -/
theorem mem_put_ne {α : Type} [DecidableEq α] {a : Nat → α} {m : KMap α} {k : Nat} {v : α} {x : Nat × α} (hx : x.1 ≠ k) :
    x ∈ KMap.put a m k v ↔ x ∈ m := by
  have hf : x ∈ m.filter (fun e => e.1 != k) ↔ x ∈ m := by simp [hx]
  unfold KMap.put
  split
  · exact hf
  · constructor
    · intro h
      rcases KMap.mem_ins k v x _ h with rfl | h
      · exact absurd rfl hx
      · exact hf.mp h
    · exact fun h => mem_ins_of_mem (hf.mpr h)

theorem mem_setGou {g : Nat} {y : GouS} {d : Dev} {x : Nat × GouS} (hx : x.1 ≠ g) : x ∈ (setGou g y d).gou ↔ x ∈ d.gou := by
  show x ∈ KMap.put (fun _ => {}) d.gou g y ↔ _
  exact mem_put_ne hx

theorem gouS_of_gou {d e : Dev} (h : e.gou = d.gou) (j : Nat) : e.gouS j = d.gouS j := by rw [Dev.gouS, h, Dev.gouS]

theorem gouS_setGou_ne {g j : Nat} (hj : j ≠ g) (x : GouS) (d : Dev) : (setGou g x d).gouS j = d.gouS j := KMap.get_put_ne _ _ _ _ _ hj

/-- What the hold of a gouge leaves: the gouges and the merge unit. -/
structure HoldStep (d e : Dev) : Prop where
  gou : e.gou = d.gou
  mrg : e.mrg = d.mrg
  step : CollectStep [R.MRG.STAT.COUNT 15] d e

theorem holdStep_countHold (g : Nat) (d : Dev) : HoldStep d (countHold g d) := by
  unfold countHold
  split
  · exact ⟨rfl, rfl, (collectStep_of_leaves (Leaves.refl d)).mono (by simp)⟩
  · extract_lets n
    have hl : Leaves [R.MRG.STAT.COUNT 15] d (mrgPerf 0xd n (inc (R.MRG.STAT.COUNT 15) n d)) := (leaves_put ..).trans (leaves_mrgPerf ..)
    generalize hq : mrgPerf 0xd n (inc (R.MRG.STAT.COUNT 15) n d) = q at hl
    rw [show perf 14 0x1200000 0xd n (inc (R.MRG.STAT.COUNT 15) n d) = q from hq]
    have hfree : CollectStep [] q (takeFree q) := collectStep_of_eq fun _ => rfl
    have hg : (takeFree q).gou = q.gou := rfl
    have hm : (takeFree q).mrg = q.mrg := rfl
    exact ⟨hg.trans (gou_of_leaves hl), hm.trans (mrg_of_leaves hl), (collectStep_of_leaves hl).trans hfree⟩

/-- What the collector leaves of a gouge whose head it takes. -/
structure Popped (g : Nat) (rest owed : List CompRec) (d e : Dev) : Prop where
  mrg : e.mrg = d.mrg
  out : (e.gouS g).out = rest ++ owed.take (32 - rest.length)
  other : ∀ j, j ≠ g → e.gouS j = d.gouS j
  mem : ∀ x : Nat × GouS, x.1 ≠ g → (x ∈ e.gou ↔ x ∈ d.gou)
  step : CollectStep [R.MRG.STAT.COUNT 15] d e

/-- The head of a gouge's output FIFO has been taken. -/
def popped (g : Nat) (d : Dev) : Dev := mrgPerf 1 1 (popOut g d)

theorem popOut_eq (g : Nat) (d : Dev) :
    popOut g d = writeOut g [] (setGou g { (countHold g d).gouS g with out := (d.gouS g).out.tail } (countHold g d)) := rfl

theorem popOut_popped {g : Nat} {r : CompRec} {rest : List CompRec} {d : Dev} (h : (d.gouS g).out = r :: rest) :
    Popped g rest (d.gouS g).owed d (popped g d) := by
  have hhold := holdStep_countHold g d
  unfold popped
  rw [popOut_eq, h, List.tail_cons]
  generalize countHold g d = d1 at hhold ⊢
  obtain ⟨hgou, hmrg, hstep⟩ := hhold
  rw [gouS_of_gou hgou]
  have hset : (setGou g { d.gouS g with out := rest } d1).gouS g = { d.gouS g with out := rest } := gouS_setGou ..
  have hother (j : Nat) (hj : j ≠ g) : (setGou g { d.gouS g with out := rest } d1).gouS j = d.gouS j :=
    (gouS_setGou_ne hj ..).trans (gouS_of_gou hgou j)
  have hmem (y : Nat × GouS) (hy : y.1 ≠ g) : y ∈ (setGou g { d.gouS g with out := rest } d1).gou ↔ y ∈ d.gou := by
    rw [mem_setGou hy, hgou]
  have hs : CollectStep [R.MRG.STAT.COUNT 15] d (setGou g { d.gouS g with out := rest } d1) := hstep.trans (collectStep_setGou ..)
  have hm : (setGou g { d.gouS g with out := rest } d1).mrg = d.mrg := hmrg
  generalize setGou g { d.gouS g with out := rest } d1 = d2 at hset hother hmem hs hm ⊢
  have hout : ((writeOut g [] d2).gouS g).out = rest ++ (d.gouS g).owed.take (32 - rest.length) := by
    rw [writeOut_gouS, hset, List.append_nil]
  have hw : CollectStep [] d2 (writeOut g [] d2) := collectStep_setGou ..
  have hwm : (writeOut g [] d2).mrg = d2.mrg := rfl
  have hwo (j : Nat) (hj : j ≠ g) : (writeOut g [] d2).gouS j = d2.gouS j := gouS_setGou_ne hj ..
  have hwmem (y : Nat × GouS) (hy : y.1 ≠ g) : y ∈ (writeOut g [] d2).gou ↔ y ∈ d2.gou := mem_setGou hy
  generalize writeOut g [] d2 = d3 at hout hw hwm hwo hwmem ⊢
  have hperf := leaves_mrgPerf 1 1 d3
  generalize mrgPerf 1 1 d3 = e at hperf ⊢
  have hge := gou_of_leaves hperf
  have hgS (j : Nat) : e.gouS j = d3.gouS j := gouS_of_gou hge j
  refine ⟨(mrg_of_leaves hperf).trans (hwm.trans hm), by rw [hgS]; exact hout, fun j hj => ?_, fun y hy => ?_, (hs.trans hw).trans (collectStep_of_leaves hperf)⟩
  · rw [hgS, hwo j hj, hother j hj]
  · rw [hge, hwmem y hy, hmem y hy]

/-! ## Judgements -/

theorem judge_congr {r : CompRec} {d e : Dev} (hes : e.get (R.MRG.STRIP_EPOCH.EPOCH r.strip) = d.get (R.MRG.STRIP_EPOCH.EPOCH r.strip))
    (hcut : e.get (R.MRG.STRIP_CUT.LSN r.strip) = d.get (R.MRG.STRIP_CUT.LSN r.strip)) : judge e r = judge d r := by
  unfold judge
  rw [hes, hcut]

/-- The hold of a gouge changes no judgement. -/
theorem judge_collect {r : CompRec} {d e : Dev} (hs : r.strip < 136) (h : CollectStep [R.MRG.STAT.COUNT 15] d e) : judge e r = judge d r := by
  refine judge_congr (h.get (strip_book _ hs _ (by simp)) ?_) (h.get (strip_book _ hs _ (by simp)) ?_)
  all_goals
    simp only [List.map_cons, List.map_nil, List.mem_singleton]
    exact strip_count_ne _ _ _ (by decide) (by decide) _ _

/-- The record of a gouge as the collector judges it. -/
def judged (r : CompRec) (d : Dev) : Dev :=
  match judge d r with
  | .taken => keepRec r d
  | j => epochDrop r j d

theorem takeHead_gouge {g : Nat} {r : CompRec} {rest : List CompRec} {ok : Bool} {m : Mem} {d : Dev} (h : (d.gouS g).out = r :: rest) :
    takeHead ok (.gouge g) m d = if !ok then crcFail g r m (popped g d) else judged r (popped g d) := by
  unfold takeHead
  dsimp only
  rw [h]
  rfl

theorem judged_taken {r : CompRec} {d : Dev} (h : judge d r = .taken) : judged r d = keepRec r d := by
  unfold judged
  rw [h]

theorem judged_old {r : CompRec} {d : Dev} (h : judge d r = .oldDrop) : judged r d = epochDrop r .oldDrop d := by
  unfold judged
  rw [h]

/-! ## Records that are kept -/

/-- The merge input FIFO with a record at its end. -/
def inPut (r : CompRec) (d : Dev) : Dev := { d with mrg := { d.mrg with inQ := d.mrg.inQ ++ [r] } }

/-- The line of a strip's last record. -/
def lastPut (r : CompRec) (d : Dev) : Dev := { d with mrg := { d.mrg with lastTaken := KMap.put (fun _ => none) d.mrg.lastTaken r.strip (some r.line) } }

/-- A record as the collector keeps it. -/
def recCounted (r : CompRec) (d : Dev) : Dev :=
  if r.kind == .closure || r.kind == .part then lastPut r (slot 14 0x1200000 0 1 d) else slot 14 0x1200000 0 1 d

theorem keepRec_eq (r : CompRec) (d : Dev) : keepRec r d = match r.kind, r.comp with
    | .closure, some c => emitObject (accOf (recCounted r d) r c) false false (recCounted r d)
    | _, _ => inPut r (recCounted r d) := by
  unfold keepRec
  rfl

theorem keepRec_in {r : CompRec} (hk : r.kind ≠ .closure) (d : Dev) : keepRec r d = inPut r (recCounted r d) := by
  rw [keepRec_eq]
  generalize recCounted r d = e
  split
  · next h _ => exact absurd h hk
  · rfl

theorem keepRec_closure {r : CompRec} {c : Comp} (hk : r.kind = .closure) (hc : r.comp = some c) (d : Dev) :
    keepRec r d = emitObject (accOf (recCounted r d) r c) false false (recCounted r d) := by
  rw [keepRec_eq, hk, hc]

/-- What the books of a kept record leave. -/
structure RecStep (d e : Dev) : Prop where
  gou : e.gou = d.gou
  inQ : e.mrg.inQ = d.mrg.inQ
  outQ : e.mrg.outQ = d.mrg.outQ
  step : CollectStep [] d e

theorem leaves_mrgSlot {cat : Nat} (hc : cat < 16) (d : Dev) : Leaves [] d (slot 14 0x1200000 cat 1 d) := leaves_slot 14 perfBase_mrg hc 1 d

theorem recStep_recCounted (r : CompRec) (d : Dev) : RecStep d (recCounted r d) := by
  have hl := leaves_mrgSlot (cat := 0) (by decide) d
  unfold recCounted
  generalize slot 14 0x1200000 0 1 d = e at hl ⊢
  have hm := mrg_of_leaves hl
  split
  · have hline : CollectStep [] e (lastPut r e) := collectStep_setMrg ..
    have hin : (lastPut r e).mrg.inQ = e.mrg.inQ := rfl
    have hout : (lastPut r e).mrg.outQ = e.mrg.outQ := rfl
    have hgou : (lastPut r e).gou = e.gou := rfl
    exact ⟨hgou.trans (gou_of_leaves hl), hin.trans (by rw [hm]), hout.trans (by rw [hm]), (collectStep_of_leaves hl).trans hline⟩
  · exact ⟨gou_of_leaves hl, by rw [hm], by rw [hm], collectStep_of_leaves hl⟩

end Sys2Proof.Proofs
end

section
/-!
The records of the selector: contacts, aliases and partial records enter the merge input FIFO, closures become objects,
old records are dropped (R279 to R284).
-/
namespace Sys2Proof.Proofs
open Sys2Proof Sys2Proof.Machine

/-! ## Records for the merge input FIFO -/

/-- A gouge's record has entered the merge input FIFO. -/
structure TakenIn (g : Nat) (r : CompRec) (rest owed : List CompRec) (d e : Dev) : Prop where
  inQ : e.mrg.inQ = d.mrg.inQ ++ [r]
  outQ : e.mrg.outQ = d.mrg.outQ
  out : (e.gouS g).out = rest ++ owed.take (32 - rest.length)
  other : ∀ j, j ≠ g → e.gouS j = d.gouS j
  mem : ∀ x : Nat × GouS, x.1 ≠ g → (x ∈ e.gou ↔ x ∈ d.gou)
  step : CollectStep [R.MRG.STAT.COUNT 15] d e

theorem takeHead_in {g : Nat} {r : CompRec} {rest : List CompRec} {m : Mem} {d : Dev} (h : (d.gouS g).out = r :: rest) (hs : r.strip < 136)
    (hj : judge d r = .taken) (hk : r.kind ≠ .closure) : TakenIn g r rest (d.gouS g).owed d (takeHead true (.gouge g) m d) := by
  have hp := popOut_popped h
  rw [takeHead_gouge h, if_neg (by simp)]
  generalize popped g d = p at hp ⊢
  obtain ⟨hmrg, hout, hother, hmem, hstep⟩ := hp
  rw [judged_taken ((judge_collect hs hstep).trans hj), keepRec_in hk]
  have hrec := recStep_recCounted r p
  generalize recCounted r p = q at hrec ⊢
  obtain ⟨hgou, hin, houtQ, hstep'⟩ := hrec
  have hput : CollectStep [] q (inPut r q) := collectStep_setMrg ..
  have hpg : (inPut r q).gou = q.gou := rfl
  have hpi : (inPut r q).mrg.inQ = q.mrg.inQ ++ [r] := rfl
  have hpo : (inPut r q).mrg.outQ = q.mrg.outQ := rfl
  generalize inPut r q = e at hput hpg hpi hpo ⊢
  have hge := hpg.trans hgou
  refine ⟨?_, ?_, ?_, fun j hj' => ?_, fun x hx => ?_, (hstep.trans hstep').trans hput⟩
  · rw [hpi, hin, hmrg]
  · rw [hpo, houtQ, hmrg]
  · rw [gouS_of_gou hge, hout]
  · rw [gouS_of_gou hge, hother j hj']
  · rw [hge, hmem x hx]

theorem TakenIn.heads {g : Nat} {r : CompRec} {rest owed : List CompRec} {d e : Dev} (h : TakenIn g r rest owed d e) : HeadsFrom (.gouge g) d e := by
  refine ⟨fun x hx hne => (h.mem x fun heq => hne (by rw [heq])).mp hx, fun hroom => ?_, fun _ => h.outQ⟩
  have hlen := of_decide_eq_true hroom
  rw [h.inQ, List.length_append, List.length_singleton] at hlen
  exact decide_eq_true (by omega)

theorem componentRecord_enters (x y g : Nat) (r : CompRec) (rest : List CompRec) (ok2 : Bool) (s : State) (hon : s.dev.on R.MRG.CTL.EN = true)
    (hh : s.dev.heads none = [(x, y, .gouge g)]) (hout : (s.dev.gouS g).out = r :: rest) (hs : r.strip < 136) (hj : judge s.dev r = .taken)
    (hk : r.kind ≠ .closure) :
    Completes (.componentRecord ⟨true, ok2⟩) s (fun t =>
      t.dev.mrg.inQ = s.dev.mrg.inQ ++ [r] ∧ (t.dev.gouS g).out = rest ++ (s.dev.gouS g).owed.take (32 - rest.length) ∧
      Frame [R.MRG.STAT.COUNT 15] { s.dev with gou := t.dev.gou, mrg := t.dev.mrg, free := t.dev.free } s t) := by
  have h := takeHead_in (m := s.mem) hout hs hj hk
  refine componentRecord_one hon hh h.heads ?_
  generalize takeHead true (.gouge g) s.mem s.dev = e at h ⊢
  exact ⟨h.inQ, h.out, h.step.frame s⟩

/-! ## Two heads -/

/-- A contact's head stands with the merge input FIFO's room. -/
theorem gougeHead_stays {room : Bool} {e : Nat × GouS} {h : Nat × Nat × Source} (hh : gougeHead room e = some h) : gougeHead true e = some h :=
  gougeHead_room (fun _ => rfl) hh

/-- After the first of two heads, the other one alone stands. -/
theorem heads_second {k k' : Nat × Nat × Source} {g g' : Nat} {r : CompRec} {rest owed : List CompRec} {d e : Dev} (hk : k.2.2 = .gouge g) (hk' : k'.2.2 = .gouge g')
    (hne : g ≠ g') (hh : d.heads none = [k, k'] ∨ d.heads none = [k', k]) (h : TakenIn g r rest owed d e) (hroom : d.mrg.inQ.length < 1023) :
    firstHead (e.heads (some (.gouge g))) = some k' := by
  have hin (x : Nat × Nat × Source) : x ∈ d.heads none ↔ x = k ∨ x = k' := by
    rcases hh with hh | hh
    · rw [hh]; simp
    · rw [hh]; simp [or_comm]
  refine firstHead_single (fun x hx => ?_) ?_
  · obtain ⟨hmem, hsrc⟩ := h.heads.mem hx
    rcases (hin x).mp hmem with rfl | rfl
    · exact absurd hk hsrc
    · rfl
  · obtain ⟨hcase, -⟩ := mem_heads.mp ((hin k').mpr (Or.inr rfl))
    refine mem_heads.mpr ⟨?_, fun heq => hne (by rw [hk'] at heq; exact Source.gouge.inj (Option.some.inj heq))⟩
    rcases hcase with ⟨v, hv, hhead⟩ | hm
    · have hvg : v.1 = g' := Source.gouge.inj ((gougeHead_source hhead).symm.trans hk')
      refine Or.inl ⟨v, (h.mem v (by rw [hvg]; exact Ne.symm hne)).mpr hv, ?_⟩
      have he : inRoom e = true := by
        refine decide_eq_true ?_
        rw [h.inQ, List.length_append, List.length_singleton]
        omega
      rw [he]
      exact gougeHead_stays hhead
    · exact absurd ((mergedHead_source hm).symm.trans hk') (by simp)

theorem componentRecord_two (x y x' y' g g' : Nat) (r r' : CompRec) (rest rest' : List CompRec) (s : State) (hon : s.dev.on R.MRG.CTL.EN = true) (hne : g ≠ g')
    (hh : s.dev.heads none = [(x, y, .gouge g), (x', y', .gouge g')] ∨ s.dev.heads none = [(x', y', .gouge g'), (x, y, .gouge g)])
    (hfirst : firstHead (s.dev.heads none) = some (x, y, .gouge g)) (hout : (s.dev.gouS g).out = r :: rest) (hout' : (s.dev.gouS g').out = r' :: rest')
    (hs : r.strip < 136) (hs' : r'.strip < 136) (hj : judge s.dev r = .taken) (hj' : judge s.dev r' = .taken) (hk : r.kind = .contact) (hk' : r'.kind = .contact)
    (hroom : s.dev.mrg.inQ.length < 1023) :
    Completes (.componentRecord ⟨true, true⟩) s (fun t => t.dev.mrg.inQ = s.dev.mrg.inQ ++ [r, r']) := by
  have h := takeHead_in (m := s.mem) hout hs hj (by rw [hk]; decide)
  have hsecond := heads_second (k := (x, y, .gouge g)) (k' := (x', y', .gouge g')) rfl rfl hne hh h hroom
  have hclock : selectorClock true true s.mem s.dev = takeHead true (.gouge g') s.mem (takeHead true (.gouge g) s.mem s.dev) := by
    unfold selectorClock
    rw [hfirst]
    dsimp only
    rw [hsecond]
  refine completes_to (exec_componentRecord ⟨true, true⟩ s) _ ((if_pos hon).trans hclock) ?_
  generalize takeHead true (.gouge g) s.mem s.dev = e at h ⊢
  have h' := takeHead_in (m := s.mem) (d := e) (by rw [h.other g' (Ne.symm hne)]; exact hout') hs' ((judge_collect hs' h.step).trans hj') (by rw [hk']; decide)
  generalize takeHead true (.gouge g') s.mem e = q at h' ⊢
  refine h'.inQ.trans ?_
  rw [h.inQ, List.append_assoc]
  rfl

/-! ## Closures -/

/-- A gouge's record has been booked, and its gouge's head is gone. -/
structure Booked (g : Nat) (d e : Dev) : Prop where
  inQ : e.mrg.inQ = d.mrg.inQ
  outQ : e.mrg.outQ = d.mrg.outQ
  mem : ∀ x : Nat × GouS, x.1 ≠ g → (x ∈ e.gou ↔ x ∈ d.gou)

theorem Booked.heads {g : Nat} {d e : Dev} (h : Booked g d e) : HeadsFrom (.gouge g) d e := by
  refine ⟨fun x hx hne => (h.mem x fun heq => hne (by rw [heq])).mp hx, fun hroom => ?_, fun _ => h.outQ⟩
  rw [inRoom, h.inQ] at hroom
  exact hroom

theorem Booked.after {g : Nat} {d e k : Dev} (h : Booked g d e) (hgou : k.gou = e.gou) (hin : k.mrg.inQ = e.mrg.inQ) (hout : k.mrg.outQ = e.mrg.outQ) :
    Booked g d k := ⟨hin.trans h.inQ, hout.trans h.outQ, fun x hx => by rw [hgou]; exact h.mem x hx⟩

theorem Popped.booked {g : Nat} {rest owed : List CompRec} {d e : Dev} (h : Popped g rest owed d e) : Booked g d e :=
  ⟨congrArg MrgS.inQ h.mrg, congrArg MrgS.outQ h.mrg, h.mem⟩

/-- A closure is booked before its object is emitted. -/
theorem takeHead_closure {g : Nat} {r : CompRec} {c : Comp} {rest : List CompRec} {m : Mem} {d : Dev} (h : (d.gouS g).out = r :: rest) (hs : r.strip < 136)
    (hj : judge d r = .taken) (hk : r.kind = .closure) (hc : r.comp = some c) :
    ∃ q, Booked g d q ∧ CollectStep [R.MRG.STAT.COUNT 15] d q ∧ takeHead true (.gouge g) m d = emitObject (accOf q r c) false false q := by
  have hp := popOut_popped h
  rw [takeHead_gouge h, if_neg (by simp)]
  generalize popped g d = p at hp ⊢
  rw [judged_taken ((judge_collect hs hp.step).trans hj), keepRec_closure hk hc]
  obtain ⟨hgou, hin, houtQ, hstep⟩ := recStep_recCounted r p
  exact ⟨recCounted r p, hp.booked.after hgou hin houtQ, hp.step.trans hstep, rfl⟩

/-- The registers of an object lie apart from the count of held clocks. -/
theorem object_apart : (∀ f ∈ [R.MRG.NEXT_ID.ID, R.MRG.STAT.COUNT 0, R.MRG.STAT.COUNT 1, R.MRG.STAT.COUNT 2], bookKey f.key = false ∧ f.key ∉ [R.MRG.STAT.COUNT 15].map Fld.key) ∧
    ∀ k < 4, bookKey (R.CRV.NET_CTL.EN k).key = false ∧ (R.CRV.NET_CTL.EN k).key ∉ [R.MRG.STAT.COUNT 15].map Fld.key := by decide

/-- A count from a device that an earlier step left as it was. -/
theorem counted_from {f : Fld} {n : Nat} {d e k : Dev} (h : Counted f n e k) (hd : e.get f = d.get f) : Counted f n d k := by
  rw [Counted, ← hd]
  exact h

theorem componentRecord_emits (x y g : Nat) (r : CompRec) (c : Comp) (rest : List CompRec) (ok2 : Bool) (s : State) (hon : s.dev.on R.MRG.CTL.EN = true)
    (hh : s.dev.heads none = [(x, y, .gouge g)]) (hout : (s.dev.gouS g).out = r :: rest) (hs : r.strip < 136) (hj : judge s.dev r = .taken)
    (hk : r.kind = .closure) (hc : r.comp = some c) (hen : ∀ k : Fin 4, s.dev.on (R.CRV.NET_CTL.EN k.val) = false) :
    Completes (.componentRecord ⟨true, ok2⟩) s (fun t =>
      Counted R.MRG.NEXT_ID.ID 1 s.dev t.dev ∧ Counted (R.MRG.STAT.COUNT 0) 1 s.dev t.dev ∧ Counted (R.MRG.STAT.COUNT 1) 1 s.dev t.dev ∧
      (∃ o : ObjRec, o.id = s.dev.get R.MRG.NEXT_ID.ID ∧ o.first = c.first ∧ o.area = min c.area (2 ^ 32 - 1) ∧
        t.dev.objQ = s.dev.objQ ++ [o] ∧ t.dev.held = s.dev.held)) := by
  obtain ⟨q, hbook, hstep, heq⟩ := takeHead_closure (m := s.mem) hout hs hj hk hc
  have hget (f : Fld) (hf : f ∈ [R.MRG.NEXT_ID.ID, R.MRG.STAT.COUNT 0, R.MRG.STAT.COUNT 1, R.MRG.STAT.COUNT 2]) : q.get f = s.dev.get f :=
    hstep.get (object_apart.1 f hf).1 (object_apart.1 f hf).2
  have hoff (k : Fin 4) : q.on (R.CRV.NET_CTL.EN k.val) = false :=
    (on_of_get (hstep.get (object_apart.2 k.val k.isLt).1 (object_apart.2 k.val k.isLt).2)).trans (hen k)
  have hem := emitObject_emitted (accOf q r c) false false q
  obtain ⟨o, hid, hfirst, harea, hobjQ, hheld⟩ := emitObject_alone r c hoff
  rw [← heq] at hem hobjQ hheld
  refine componentRecord_one hon hh (hbook.after hem.gou (congrArg MrgS.inQ hem.mrg) (congrArg MrgS.outQ hem.mrg)).heads ?_
  generalize takeHead true (.gouge g) s.mem s.dev = e at hem hobjQ hheld ⊢
  exact ⟨counted_from hem.id (hget _ (by simp)), counted_from hem.object (hget _ (by simp)), counted_from (f := R.MRG.STAT.COUNT 1) hem.source (hget _ (by simp)),
    o, hid.trans (hget _ (by simp)), hfirst, harea, hobjQ.trans (by rw [hstep.objQ]), hheld.trans hstep.held⟩

/-! ## Records of an old epoch -/

theorem epochDrop_old (r : CompRec) (d : Dev) : Counted (R.MRG.STAT.COUNT 8) 1 d (epochDrop r .oldDrop d) ∧
    Leaves [R.MRG.STAT.COUNT 8, R.RAS.MIG_REPLAY.COUNT] d (epochDrop r .oldDrop d) := by
  unfold epochDrop
  extract_lets d1 es older d2
  have hstat : Leaves [R.MRG.STAT.COUNT 8] d (mrgStat 8 1 d) := leaves_put ..
  have hcount : Counted (R.MRG.STAT.COUNT 8) 1 d (mrgStat 8 1 d) := get_put_self ..
  have hd1 : d1 = slot 14 0x1200000 1 1 (mrgPerf 0xa 1 (mrgStat 8 1 d)) := rfl
  have hbooks : Leaves [] (mrgStat 8 1 d) (slot 14 0x1200000 1 1 (mrgPerf 0xa 1 (mrgStat 8 1 d))) :=
    (leaves_mrgPerf 0xa 1 _).trans (leaves_mrgSlot (by decide) _)
  rw [← hd1] at hbooks
  clear_value d1
  have hold : Leaves [R.RAS.MIG_REPLAY.COUNT] d1 d2 := by
    unfold d2
    cases older with
    | false => exact (Leaves.refl d1).mono (by simp)
    | true => exact leaves_put ..
  rw [if_neg (by simp)]
  exact ⟨counted_of_get hcount rfl ((hold.get (by decide) (by decide)).trans (hbooks.get (by decide) (by simp))), (hstat.trans hbooks).trans hold⟩

theorem componentRecord_drops (x y g : Nat) (r : CompRec) (rest : List CompRec) (ok2 : Bool) (s : State) (hon : s.dev.on R.MRG.CTL.EN = true)
    (hh : s.dev.heads none = [(x, y, .gouge g)]) (hout : (s.dev.gouS g).out = r :: rest) (hs : r.strip < 136) (hj : judge s.dev r = .oldDrop) :
    Completes (.componentRecord ⟨true, ok2⟩) s (fun t =>
      Counted (R.MRG.STAT.COUNT 8) 1 s.dev t.dev ∧ t.dev.mrg.inQ = s.dev.mrg.inQ ∧
      Frame [R.MRG.STAT.COUNT 8, R.MRG.STAT.COUNT 15, R.RAS.MIG_REPLAY.COUNT] { s.dev with gou := t.dev.gou, free := t.dev.free } s t) := by
  have hp := popOut_popped hout
  have heq : takeHead true (.gouge g) s.mem s.dev = epochDrop r .oldDrop (popped g s.dev) := by
    rw [takeHead_gouge hout, if_neg (by simp), judged_old ((judge_collect hs hp.step).trans hj)]
  obtain ⟨hcount, hl⟩ := epochDrop_old r (popped g s.dev)
  rw [← heq] at hcount hl
  generalize popped g s.dev = p at hp hcount hl
  have hmrg : (takeHead true (.gouge g) s.mem s.dev).mrg = s.dev.mrg := (mrg_of_leaves hl).trans hp.mrg
  have hbook := hp.booked.after (gou_of_leaves hl) (congrArg MrgS.inQ (mrg_of_leaves hl)) (congrArg MrgS.outQ (mrg_of_leaves hl))
  refine componentRecord_one hon hh hbook.heads ?_
  generalize takeHead true (.gouge g) s.mem s.dev = e at hcount hl hmrg ⊢
  have hframe := CollectStep.frame ((hp.step.trans (collectStep_of_leaves hl)).mono
    (gs := [R.MRG.STAT.COUNT 8, R.MRG.STAT.COUNT 15, R.RAS.MIG_REPLAY.COUNT]) (by simp)) s
  rw [hmrg] at hframe
  exact ⟨counted_from hcount (hp.step.get (by decide) (by decide)), congrArg MrgS.inQ hmrg, hframe⟩

/-! ## Records with a bad CRC -/

/-- The registers of a record with a bad CRC. -/
def crcRegs : List Fld := [R.MRG.STATUS.SEQ, R.MRG.STATUS.CRC_ERR, R.MRG.STAT.COUNT 12, R.MRG.STATUS.LOST, R.MRG.STAT.COUNT 11]

/-- A bad CRC is flagged and counted. -/
def crcFlagged (d : Dev) : Dev := slot 14 0x1200000 1 1 (mrgPerf 0xc 1 (mrgStat 12 1 (event 14 R.MRG.STATUS.SEQ [R.MRG.STATUS.CRC_ERR] d)))

/-- A record that a bad CRC loses. -/
def lostLogged (r : CompRec) (d : Dev) : Dev := logEv 0x0e8a r.strip 2 r.line (mrgStat 11 1 (event 14 R.MRG.STATUS.SEQ [R.MRG.STATUS.LOST] d))

theorem crcFlagged_flags (d : Dev) : (crcFlagged d).on R.MRG.STATUS.CRC_ERR = true ∧ Counted (R.MRG.STAT.COUNT 12) 1 d (crcFlagged d) ∧
    Leaves [R.MRG.STATUS.SEQ, R.MRG.STATUS.CRC_ERR, R.MRG.STAT.COUNT 12] d (crcFlagged d) := by
  have hev : Leaves [R.MRG.STATUS.SEQ, R.MRG.STATUS.CRC_ERR] d (event 14 R.MRG.STATUS.SEQ [R.MRG.STATUS.CRC_ERR] d) := leaves_event ..
  have hflag := get_event_flag (f := R.MRG.STATUS.CRC_ERR) (seq := R.MRG.STATUS.SEQ) (fs := [R.MRG.STATUS.CRC_ERR]) (by decide) (by decide) (by simp) 14 d
  unfold crcFlagged
  generalize event 14 R.MRG.STATUS.SEQ [R.MRG.STATUS.CRC_ERR] d = e at hev hflag ⊢
  have hstat : Leaves [R.MRG.STAT.COUNT 12] e (mrgStat 12 1 e) := leaves_put ..
  have hcount : Counted (R.MRG.STAT.COUNT 12) 1 e (mrgStat 12 1 e) := get_put_self ..
  generalize mrgStat 12 1 e = k at hstat hcount ⊢
  have hbooks : Leaves [] k (slot 14 0x1200000 1 1 (mrgPerf 0xc 1 k)) := (leaves_mrgPerf 0xc 1 k).trans (leaves_mrgSlot (by decide) _)
  generalize slot 14 0x1200000 1 1 (mrgPerf 0xc 1 k) = q at hbooks ⊢
  refine ⟨?_, counted_of_get hcount (hev.get (by decide) (by decide)) (hbooks.get (by decide) (by simp)), (hev.trans hstat).trans hbooks⟩
  rw [Dev.on, hbooks.get (by decide) (by simp), hstat.get (by decide) (by decide), hflag]
  rfl

theorem leaves_lostLogged (r : CompRec) (d : Dev) : Leaves [R.MRG.STATUS.SEQ, R.MRG.STATUS.LOST, R.MRG.STAT.COUNT 11] d (lostLogged r d) := by
  have hev : Leaves [R.MRG.STATUS.SEQ, R.MRG.STATUS.LOST] d (event 14 R.MRG.STATUS.SEQ [R.MRG.STATUS.LOST] d) := leaves_event ..
  unfold lostLogged
  generalize event 14 R.MRG.STATUS.SEQ [R.MRG.STATUS.LOST] d = e at hev ⊢
  have hstat : Leaves [R.MRG.STAT.COUNT 11] e (mrgStat 11 1 e) := leaves_put ..
  exact (hev.trans hstat).trans (leaves_logEv ..)

theorem gougeFault_manual {g : Nat} {found : Option Nat} {m : Mem} {d : Dev} (h : d.on R.RAS.CTL.GG_AUTO = false) : gougeFault g found m d = d := by
  unfold gougeFault
  exact if_pos (by simp [h])

theorem crcFail_manual {g : Nat} {r : CompRec} {m : Mem} {d : Dev} (h : d.on R.RAS.CTL.GG_AUTO = false) :
    (crcFail g r m d).on R.MRG.STATUS.CRC_ERR = true ∧ Counted (R.MRG.STAT.COUNT 12) 1 d (crcFail g r m d) ∧ Leaves crcRegs d (crcFail g r m d) := by
  obtain ⟨hflag, hcount, hl⟩ := crcFlagged_flags d
  unfold crcFail
  extract_lets d1 last same d2
  have hd1 : d1 = crcFlagged d := rfl
  rw [← hd1] at hflag hcount hl
  clear_value d1
  have hlost : Leaves [R.MRG.STATUS.SEQ, R.MRG.STATUS.LOST, R.MRG.STAT.COUNT 11] d1 d2 := by
    unfold d2
    cases same with
    | false => exact (Leaves.refl d1).mono (by simp)
    | true => exact leaves_lostLogged r d1
  have hall : Leaves crcRegs d d2 := (hl.trans hlost).mono (by decide)
  rw [gougeFault_manual ((on_of_get (hall.get (by decide) (by decide))).trans h)]
  exact ⟨(on_of_get (hlost.get (by decide) (by decide))).trans hflag, counted_of_get hcount rfl (hlost.get (by decide) (by decide)), hall⟩

theorem componentRecord_crc (x y g : Nat) (r : CompRec) (rest : List CompRec) (ok2 : Bool) (s : State) (hon : s.dev.on R.MRG.CTL.EN = true)
    (hh : s.dev.heads none = [(x, y, .gouge g)]) (hout : (s.dev.gouS g).out = r :: rest) (hauto : s.dev.on R.RAS.CTL.GG_AUTO = false) :
    Completes (.componentRecord ⟨false, ok2⟩) s (fun t =>
      t.dev.on R.MRG.STATUS.CRC_ERR = true ∧ Counted (R.MRG.STAT.COUNT 12) 1 s.dev t.dev ∧ t.dev.mrg.inQ = s.dev.mrg.inQ) := by
  have hp := popOut_popped hout
  have heq : takeHead false (.gouge g) s.mem s.dev = crcFail g r s.mem (popped g s.dev) := (takeHead_gouge hout).trans (if_pos rfl)
  obtain ⟨hflag, hcount, hl⟩ := crcFail_manual (g := g) (r := r) (m := s.mem) (d := popped g s.dev)
    ((on_of_get (hp.step.get (by decide) (by decide))).trans hauto)
  rw [← heq] at hflag hcount hl
  generalize popped g s.dev = p at hp hcount hl
  have hm := mrg_of_leaves hl
  have hbook := hp.booked.after (gou_of_leaves hl) (congrArg MrgS.inQ hm) (congrArg MrgS.outQ hm)
  refine componentRecord_one hon hh hbook.heads ?_
  have hin := hbook.inQ
  generalize takeHead false (.gouge g) s.mem s.dev = e at hflag hcount hin ⊢
  exact ⟨hflag, counted_from hcount (hp.step.get (by decide) (by decide)), hin⟩

/-! ## Merged sets -/

/-- The merge output FIFO without its head. -/
def outTaken (rest : List MergedSet) (d : Dev) : Dev := { d with mrg := { d.mrg with outQ := rest } }

/-- A merged set becomes an object. -/
def mergedEmitted (b : MergedSet) (rest : List MergedSet) (d : Dev) : Dev := emitObject b.acc b.forced true (slot 14 0x1200000 0 1 (outTaken rest d))

theorem takeHead_merged {ok : Bool} {b : MergedSet} {rest : List MergedSet} {m : Mem} {d : Dev} (h : d.mrg.outQ = b :: rest) :
    takeHead ok .merged m d = forceSets (mergedEmitted b rest d) := by
  unfold takeHead
  dsimp only
  rw [h]
  rfl

theorem gou_of_mrgStep {fs : List Fld} {d e : Dev} (h : MrgStep fs d e) : e.gou = d.gou :=
  (gou_of_leaves (h.upto.leaves d.mrg) : (withMrg d.mrg e).gou = (withMrg d.mrg d).gou)

theorem mergedEmitted_emits (b : MergedSet) (rest : List MergedSet) (d : Dev) : Emitted true (outTaken rest d) (mergedEmitted b rest d) := by
  have hl := leaves_mrgSlot (cat := 0) (by decide) (outTaken rest d)
  unfold mergedEmitted
  generalize slot 14 0x1200000 0 1 (outTaken rest d) = e at hl ⊢
  obtain ⟨hgou, hmrg, hid, hobj, hsrc⟩ := emitObject_emitted b.acc b.forced true e
  exact ⟨hgou.trans (gou_of_leaves hl), hmrg.trans (mrg_of_leaves hl), counted_from hid (hl.get (by decide) (by simp)),
    counted_from hobj (hl.get (by decide) (by simp)), counted_from hsrc (hl.get (by decide) (by simp))⟩

theorem componentRecord_merged (x y : Nat) (b : MergedSet) (rest : List MergedSet) (ok ok2 : Bool) (s : State) (hon : s.dev.on R.MRG.CTL.EN = true)
    (hh : s.dev.heads none = [(x, y, .merged)]) (hout : s.dev.mrg.outQ = b :: rest) :
    Completes (.componentRecord ⟨ok, ok2⟩) s (fun t =>
      (∃ more, t.dev.mrg.outQ = rest ++ more ∧ more.all MergedSet.forced = true) ∧ Counted R.MRG.NEXT_ID.ID 1 s.dev t.dev ∧
      Counted (R.MRG.STAT.COUNT 2) 1 s.dev t.dev) := by
  have heq := takeHead_merged (ok := ok) (m := s.mem) hout
  obtain ⟨hgou, hmrg, hid, -, hsrc⟩ := mergedEmitted_emits b rest s.dev
  have hf := forced_forceSets (mergedEmitted b rest s.dev)
  rw [← heq] at hf
  generalize mergedEmitted b rest s.dev = p at hgou hmrg hid hsrc hf
  obtain ⟨hstep, hin, -, more, hmore, hall⟩ := hf
  have hheads : HeadsFrom .merged s.dev (takeHead ok .merged s.mem s.dev) := by
    refine ⟨fun v hv _ => ?_, fun hroom => ?_, fun h => absurd rfl h⟩
    · have hg : (takeHead ok .merged s.mem s.dev).gou = s.dev.gou := (gou_of_mrgStep hstep).trans hgou
      rw [← hg]
      exact hv
    · rw [inRoom, hin, hmrg] at hroom
      exact hroom
  refine componentRecord_one hon hh hheads ?_
  generalize takeHead ok .merged s.mem s.dev = e at hstep hmore ⊢
  refine ⟨⟨more, hmore.trans ?_, hall⟩, counted_of_get hid rfl (hstep.get (by decide) (by decide)),
    counted_of_get (f := R.MRG.STAT.COUNT 2) hsrc rfl (hstep.get (by decide) (by decide))⟩
  rw [hmrg]
  rfl

/-- Settles O42: the collector's records, the records of the merge input FIFO, pairs, complete sets and orphans change the
merge unit as R271 to R285 say. -/
theorem recordsAreMerged : Obligations.RecordsAreMerged :=
  ⟨componentRecord_enters, componentRecord_emits, componentRecord_drops, componentRecord_crc, componentRecord_merged, componentRecord_two,
    contact_completes, aliasRecord_completes, partialRecord_completes, pairing_completes, joinPair_joins, setComplete_completes, orphans_completes⟩

end Sys2Proof.Proofs
end
